-- ==== Sys2Proof/Word.lean ====
section
/-! DEFINITION. The word types and the plainest helpers over bytes and numbers: little-endian packing (R372, the
command chapter's framing), two's-complement reading of a field, saturating counters and rounding up. -/

namespace Sys2Proof

abbrev Byte := BitVec 8

/-- Little-endian value of a byte sequence. -/
def leNat : List Byte → Nat
  | [] => 0
  | b :: bs => b.toNat + 256 * leNat bs

/-- Big-endian value of a byte sequence (network fields). -/
def beNat (bs : List Byte) : Nat := leNat bs.reverse

/-- The `n` low bytes of `v`, little-endian. -/
def leBytes : Nat → Nat → List Byte
  | 0, _ => []
  | n + 1, v => BitVec.ofNat 8 v :: leBytes n (v / 256)

/-- The `n` low bytes of `v`, big-endian. -/
def beBytes (n v : Nat) : List Byte := (leBytes n v).reverse

/-- Two's-complement reading of the low `w` bits. -/
def sgn (w v : Nat) : Int :=
  let u := v % 2 ^ w
  if u < 2 ^ (w - 1) then (u : Int) else (u : Int) - (2 : Int) ^ w

/-- Two's-complement encoding in `w` bits. -/
def unsgn (w : Nat) (i : Int) : Nat := (i % ((2 : Int) ^ w)).toNat

/-- Division rounded up. -/
def cdiv (a b : Nat) : Nat := (a + b - 1) / b

/-- Addition saturating at the largest value of `w` bits: the saturating counters of every chapter. -/
def satAdd (w v n : Nat) : Nat := min (v + n) (2 ^ w - 1)

/-- Value clamped to an interval. -/
def clampInt (lo hi v : Int) : Int := max lo (min hi v)

/-- A Boolean as the bit a register shows. -/
def bit (b : Bool) : Nat := if b then 1 else 0

/-- Bit `i` of a mask held as a number. -/
def maskBit (m i : Nat) : Bool := m / 2 ^ i % 2 == 1

/-- The numbers below `n` whose bit is set in `m`. -/
def maskList (n m : Nat) : List Nat := (List.range n).filter (maskBit m)

/-- The mask with the listed bits set. -/
def listMask (l : List Nat) : Nat := l.foldl (fun m i => if maskBit m i then m else m + 2 ^ i) 0

/-- Exactly `n` bytes: cut, or padded with zeros. -/
def fitBytes (n : Nat) (bs : List Byte) : List Byte := bs.take n ++ List.replicate (n - bs.length) 0

end Sys2Proof
end

