-- ==== Sys2Proof/Machine/Fields.lean ====
section
/-! DEFINITION. Records and registers as bit fields. A record is a bit vector the spec numbers bit by bit; a field is
its place, its width, its access code (R9), its reset value and the range its rule states. The layouts below follow the
field tables of the rules named at each. Reading and writing a field, the range check (R11, R402 step 6), the merge of a
record write (R406) and the Fixed-while-running check (R10) are written once here. -/

namespace Sys2Proof.Machine

/-- Access codes and field kinds of R9. -/
inductive Acc where
  | ro | rw | w1c | wo | rwl | rwf | rwx
  deriving DecidableEq, Repr

/-- The values a field's rule allows. `gain` is the gain of R252 and R263 (-32,768 is off), `hdrLen` that of R195,
`delayLog` that of R298. -/
inductive Rng where
  | any
  | le (n : Nat)
  | between (a b : Nat)
  | signed (a b : Int)
  | zeroOr (a b : Nat)
  | gain
  | hdrLen
  | delayLog
  deriving DecidableEq, Repr

/-- One field of a record. -/
structure Fld where
  lo : Nat
  width : Nat
  acc : Acc
  rst : Nat
  rng : Rng
  deriving DecidableEq, Repr

/-- The value of a field, as an unsigned number. -/
def fget {n : Nat} (r : BitVec n) (f : Fld) : Nat := r.toNat / 2 ^ f.lo % 2 ^ f.width

/-- A one-bit field as a Boolean. -/
def fbit {n : Nat} (r : BitVec n) (f : Fld) : Bool := fget r f == 1

/-- A field read as two's complement. -/
def fsgn {n : Nat} (r : BitVec n) (f : Fld) : Int := sgn f.width (fget r f)

/-- The record with the field set to the low bits of `v`. -/
def fput {n : Nat} (r : BitVec n) (f : Fld) (v : Nat) : BitVec n :=
  BitVec.ofNat n (r.toNat - fget r f * 2 ^ f.lo + v % 2 ^ f.width * 2 ^ f.lo)

/-- The record with a signed field set. -/
def fputS {n : Nat} (r : BitVec n) (f : Fld) (i : Int) : BitVec n := fput r f (unsgn f.width i)

/-- Whether a field's value lies in the range its rule states. -/
def Rng.ok (w : Nat) (v : Nat) : Rng → Bool
  | .any => true
  | .le n => v ≤ n
  | .between a b => a ≤ v && v ≤ b
  | .signed a b => a ≤ sgn w v && sgn w v ≤ b
  | .zeroOr a b => v == 0 || (a ≤ v && v ≤ b)
  | .gain => sgn w v == -32768 || (-9600 ≤ sgn w v && sgn w v ≤ 1200)
  | .hdrLen => v == 42 || v == 46 || v == 62 || v == 66
  | .delayLog => v == 0x7F || (-7 ≤ sgn w v && sgn w v ≤ 5)

/-- The record holding every field's reset value. -/
def resetRec (n : Nat) (layout : List Fld) : BitVec n := layout.foldl (fun r f => fput r f f.rst) 0

/-- Whether a record write may change the field (R406: RO fields in RECORD are ignored). -/
def Fld.writable (f : Fld) : Bool := f.acc == .rwl || f.acc == .rwf || f.acc == .rwx || f.acc == .rw

/-- R406, R404: the record a write leaves. Bytes the request does not carry keep the present value, and only
writable fields of the layout take the carried value. -/
def mergeRec {n : Nat} (layout : List Fld) (old : BitVec n) (bytes : List Byte) : BitVec n :=
  let raw : BitVec n := BitVec.ofNat n (leNat (bytes.take (n / 8) ++ (leBytes (n / 8) old.toNat).drop bytes.length))
  (layout.filter Fld.writable).foldl (fun r f => fput r f (fget raw f)) old

/-- R402 step 6: the byte offset, within the record, of the first writable field outside its range. -/
def rangeBad {n : Nat} (layout : List Fld) (r : BitVec n) : Option Nat :=
  ((layout.filter Fld.writable).find? (fun f => !f.rng.ok f.width (fget r f))).map (fun f => f.lo / 8)

/-- Of the fields that two checks refuse, the first in the record. -/
def firstBad : Option Nat → Option Nat → Option Nat
  | some a, some b => some (min a b)
  | a, none => a
  | none, b => b

/-- R10: the byte offset of the first Fixed-while-running field of the layout that a write changes. -/
def fixedBad {n : Nat} (layout : List Fld) (old new : BitVec n) : Option Nat :=
  (layout.find? (fun f => f.acc == .rwx && fget old f != fget new f)).map (fun f => f.lo / 8)

/-- The bytes of a record (R372: little-endian, bit b in byte b div 8). -/
def recBytes {n : Nat} (r : BitVec n) : List Byte := leBytes (n / 8) r.toNat

/-! ### Loc: R26 (01_architecture.md) -/

namespace Loc

def die : Fld := ⟨23, 1, .ro, 0, .any⟩
def quadrant : Fld := ⟨21, 2, .ro, 0, .any⟩
def cluster : Fld := ⟨17, 4, .ro, 0, .any⟩
def engine : Fld := ⟨10, 7, .ro, 0, .any⟩
def macroF : Fld := ⟨4, 6, .ro, 0, .any⟩
/-- The fields of the record of R26, in bit order; the other bits are reserved and read zero. -/
def layout : List Fld :=
  [die, quadrant, cluster, engine, macroF]

end Loc

/-! ### Tag: R39 (02_tile_store.md) -/

namespace Tag

def ring : Fld := ⟨19, 13, .ro, 0, .any⟩
def endF : Fld := ⟨18, 1, .ro, 0, .any⟩
def seq6 : Fld := ⟨12, 6, .ro, 0, .any⟩
def pos : Fld := ⟨0, 12, .ro, 0, .any⟩
/-- The fields of the record of R39, in bit order; the other bits are reserved and read zero. -/
def layout : List Fld :=
  [ring, endF, seq6, pos]

end Tag

/-! ### AudWord: R48 (02_tile_store.md) -/

namespace AudWord

def sample : Fld := ⟨0, 24, .ro, 0, .any⟩
def v : Fld := ⟨24, 1, .ro, 0, .any⟩
def u : Fld := ⟨25, 1, .ro, 0, .any⟩
def c : Fld := ⟨26, 1, .ro, 0, .any⟩
def b : Fld := ⟨27, 1, .ro, 0, .any⟩
/-- The fields of the record of R48, in bit order; the other bits are reserved and read zero. -/
def layout : List Fld :=
  [sample, v, u, c, b]

end AudWord

/-! ### RingDesc: R52 (02_tile_store.md) -/

namespace RingDesc

def ringId : Fld := ⟨0, 13, .ro, 0, .any⟩
def typeF : Fld := ⟨13, 3, .rwx, 0, .le 3⟩
def classF : Fld := ⟨16, 2, .rwx, 0, .any⟩
def plane : Fld := ⟨18, 3, .rwx, 0, .any⟩
def stateF : Fld := ⟨21, 2, .ro, 0, .any⟩
def interlaced : Fld := ⟨23, 1, .rwx, 0, .any⟩
def formatF : Fld := ⟨24, 3, .rwx, 0, .any⟩
def range : Fld := ⟨27, 1, .rwx, 0, .any⟩
def base : Fld := ⟨32, 24, .rwx, 0, .any⟩
def length : Fld := ⟨64, 19, .rwx, 0, .between 16 262144⟩
def wseq : Fld := ⟨96, 32, .ro, 0, .any⟩
def tpf : Fld := ⟨128, 16, .ro, 0, .any⟩
def lineBytes : Fld := ⟨144, 16, .ro, 0, .any⟩
def width : Fld := ⟨160, 14, .rwx, 0, .any⟩
def lines : Fld := ⟨174, 13, .rwx, 0, .any⟩
def nonpcm : Fld := ⟨192, 16, .rwl, 0, .any⟩
def wcred : Fld := ⟨208, 16, .ro, 0, .any⟩
def relseq : Fld := ⟨224, 32, .ro, 0, .any⟩
/-- The fields of the record of R52, in bit order; the other bits are reserved and read zero. -/
def layout : List Fld :=
  [ringId, typeF, classF, plane, stateF, interlaced, formatF, range, base, length, wseq, tpf, lineBytes, width, lines, nonpcm, wcred, relseq]

end RingDesc

/-! ### BudgetEntry: R84 (03_ticket_booth.md) -/

namespace BudgetEntry

def limit : Fld := ⟨0, 16, .ro, 0, .any⟩
def used : Fld := ⟨16, 16, .ro, 0, .any⟩
def high : Fld := ⟨32, 16, .ro, 0, .any⟩
/-- The fields of the record of R84, in bit order; the other bits are reserved and read zero. -/
def layout : List Fld :=
  [limit, used, high]

end BudgetEntry

/-! ### RouteEntry: R100 (04_routes_and_salvos.md) -/

namespace RouteEntry

def videoRing : Fld := ⟨0, 13, .rwf, 0, .any⟩
def videoEn : Fld := ⟨13, 1, .rwf, 0, .any⟩
def mode : Fld := ⟨14, 2, .rwf, 0, .le 2⟩
def ancRing : Fld := ⟨16, 13, .rwf, 0, .any⟩
def ancEn : Fld := ⟨29, 1, .rwf, 0, .any⟩
def ancPolicy : Fld := ⟨30, 2, .rwf, 0, .le 1⟩
def audRing0 : Fld := ⟨32, 13, .rwf, 0, .any⟩
def audEn0 : Fld := ⟨45, 1, .rwf, 0, .any⟩
def audRing1 : Fld := ⟨48, 13, .rwf, 0, .any⟩
def audEn1 : Fld := ⟨61, 1, .rwf, 0, .any⟩
def audRing2 : Fld := ⟨64, 13, .rwf, 0, .any⟩
def audEn2 : Fld := ⟨77, 1, .rwf, 0, .any⟩
def audRing3 : Fld := ⟨80, 13, .rwf, 0, .any⟩
def audEn3 : Fld := ⟨93, 1, .rwf, 0, .any⟩
def audioMode : Fld := ⟨96, 2, .rwf, 2, .le 2⟩
def rampShape : Fld := ⟨98, 1, .rwf, 0, .any⟩
def audioRamp : Fld := ⟨99, 13, .rwf, 10, .le 8000⟩
def tcCont : Fld := ⟨112, 1, .rwf, 0, .any⟩
def pendState : Fld := ⟨113, 2, .ro, 0, .any⟩
def salvoId : Fld := ⟨115, 6, .ro, 0, .any⟩
def gen : Fld := ⟨128, 32, .ro, 0, .any⟩
def appliedFrame : Fld := ⟨160, 32, .ro, 0, .any⟩
/-- The fields of the record of R100, in bit order; the other bits are reserved and read zero. -/
def layout : List Fld :=
  [videoRing, videoEn, mode, ancRing, ancEn, ancPolicy, audRing0, audEn0, audRing1, audEn1, audRing2, audEn2, audRing3, audEn3, audioMode, rampShape, audioRamp, tcCont, pendState, salvoId, gen, appliedFrame]

end RouteEntry

/-! ### SdiLane: R154 (05_sdi_lanes.md) -/

namespace SdiLane

def rxEn : Fld := ⟨0, 1, .rwl, 0, .any⟩
def rxRate : Fld := ⟨1, 3, .rwx, 0, .le 6⟩
def rxBond : Fld := ⟨4, 2, .rwx, 0, .le 2⟩
def rxInterleave : Fld := ⟨6, 1, .rwx, 0, .any⟩
def followFormat : Fld := ⟨7, 1, .rwl, 0, .any⟩
def defaultFormat : Fld := ⟨8, 3, .rwl, 0, .le 5⟩
def autoNonpcm : Fld := ⟨11, 1, .rwl, 1, .any⟩
def lockTimeout : Fld := ⟨16, 10, .rwl, 200, .between 50 1000⟩
def rxVideoRing : Fld := ⟨32, 13, .rwx, 0, .any⟩
def rxVideoEn : Fld := ⟨45, 1, .rwx, 0, .any⟩
def rxAncEn : Fld := ⟨46, 1, .rwx, 0, .any⟩
def rxAncRing : Fld := ⟨48, 13, .rwx, 0, .any⟩
def rxAudRing0 : Fld := ⟨64, 13, .rwx, 0, .any⟩
def rxAudEn0 : Fld := ⟨77, 1, .rwx, 0, .any⟩
def rxAudRing1 : Fld := ⟨80, 13, .rwx, 0, .any⟩
def rxAudEn1 : Fld := ⟨93, 1, .rwx, 0, .any⟩
def txEn : Fld := ⟨128, 1, .rwl, 0, .any⟩
def txLink : Fld := ⟨129, 3, .rwx, 0, .le 6⟩
def txBond : Fld := ⟨132, 2, .rwx, 0, .le 2⟩
def txInterleave : Fld := ⟨134, 1, .rwx, 0, .any⟩
def txOutput : Fld := ⟨136, 10, .rwx, 0, .any⟩
def plane : Fld := ⟨146, 3, .rwx, 0, .any⟩
def outOffset : Fld := ⟨150, 13, .rwx, 0, .any⟩
def outWidth : Fld := ⟨164, 14, .rwx, 0, .any⟩
def outLines : Fld := ⟨178, 13, .rwx, 0, .any⟩
def outInterlaced : Fld := ⟨191, 1, .rwx, 0, .any⟩
def outSample : Fld := ⟨192, 3, .rwx, 0, .le 5⟩
def outRange : Fld := ⟨195, 1, .rwx, 0, .any⟩
def outRate : Fld := ⟨196, 4, .rwx, 0, .le 7⟩
def tcLine : Fld := ⟨200, 6, .rwf, 0, .le 20⟩
/-- The fields of the record of R154, in bit order; the other bits are reserved and read zero. -/
def layout : List Fld :=
  [rxEn, rxRate, rxBond, rxInterleave, followFormat, defaultFormat, autoNonpcm, lockTimeout, rxVideoRing, rxVideoEn, rxAncEn, rxAncRing, rxAudRing0, rxAudEn0, rxAudRing1, rxAudEn1, txEn, txLink, txBond, txInterleave, txOutput, plane, outOffset, outWidth, outLines, outInterlaced, outSample, outRange, outRate, tcLine]

end SdiLane

/-! ### EthPort: R161 (06_media_ethernet.md) -/

namespace EthPort

def portEn : Fld := ⟨0, 1, .rwl, 0, .any⟩
def split : Fld := ⟨1, 2, .rwx, 0, .any⟩
def laneIf : Fld := ⟨3, 2, .rwx, 0, .le 2⟩
def maxFrame : Fld := ⟨16, 14, .rwl, 2000, .between 1518 9216⟩
def pauseWd : Fld := ⟨32, 17, .rwl, 2000, .between 100 100000⟩
def pauseMedia : Fld := ⟨49, 1, .rwl, 0, .any⟩
def pfcMode : Fld := ⟨50, 1, .rwl, 0, .any⟩
def mgmtPcp : Fld := ⟨64, 3, .rwl, 6, .any⟩
def mgmtVid : Fld := ⟨68, 12, .rwl, 0, .le 4094⟩
/-- The fields of the record of R161, in bit order; the other bits are reserved and read zero. -/
def layout : List Fld :=
  [portEn, split, laneIf, maxFrame, pauseWd, pauseMedia, pfcMode, mgmtPcp, mgmtVid]

end EthPort

/-! ### EthAddr: R162 (06_media_ethernet.md) -/

namespace EthAddr

def macAddr : Fld := ⟨0, 48, .rwx, 0, .any⟩
def ipv4Addr : Fld := ⟨48, 32, .rwx, 0, .any⟩
def ipv6Addr : Fld := ⟨80, 128, .rwx, 0, .any⟩
/-- The fields of the record of R162, in bit order; the other bits are reserved and read zero. -/
def layout : List Fld :=
  [macAddr, ipv4Addr, ipv6Addr]

end EthAddr

/-! ### FlowEntry: R176 (06_media_ethernet.md) -/

namespace FlowEntry

def dstAddr : Fld := ⟨0, 128, .rwx, 0, .any⟩
def srcAddr : Fld := ⟨128, 128, .rwx, 0, .any⟩
def dstPort : Fld := ⟨256, 16, .rwx, 0, .any⟩
def vid : Fld := ⟨272, 12, .rwx, 0, .any⟩
def family : Fld := ⟨284, 1, .rwx, 0, .any⟩
def useSrc : Fld := ⟨285, 1, .rwx, 0, .any⟩
def useVid : Fld := ⟨286, 1, .rwx, 0, .any⟩
def usePort : Fld := ⟨287, 1, .rwx, 0, .any⟩
def port : Fld := ⟨288, 2, .rwx, 0, .any⟩
def subport : Fld := ⟨290, 3, .rwx, 0, .any⟩
def typeF : Fld := ⟨296, 2, .rwx, 0, .le 2⟩
def action : Fld := ⟨298, 2, .rwl, 0, .le 2⟩
def join : Fld := ⟨300, 1, .rwl, 0, .any⟩
def essence : Fld := ⟨301, 3, .rwx, 0, .le 5⟩
def ring : Fld := ⟨304, 13, .rwx, 0, .any⟩
def declRate : Fld := ⟨320, 32, .rwl, 0, .any⟩
def absentTime : Fld := ⟨352, 14, .rwl, 0, .le 10000⟩
/-- The fields of the record of R176, in bit order; the other bits are reserved and read zero. -/
def layout : List Fld :=
  [dstAddr, srcAddr, dstPort, vid, family, useSrc, useVid, usePort, port, subport, typeF, action, join, essence, ring, declRate, absentTime]

end FlowEntry

/-! ### Ingest: R185 (07_essence_flows.md) -/

namespace Ingest

def channels : Fld := ⟨0, 4, .rwx, 0, .any⟩
def l16 : Fld := ⟨4, 1, .rwx, 0, .any⟩
def autoNonpcm : Fld := ⟨5, 1, .rwl, 1, .any⟩
def xAncRing : Fld := ⟨8, 13, .rwx, 0, .any⟩
def xAncEn : Fld := ⟨21, 1, .rwx, 0, .any⟩
def xAudRing0 : Fld := ⟨24, 13, .rwx, 0, .any⟩
def xAudEn0 : Fld := ⟨37, 1, .rwx, 0, .any⟩
def xAudRing1 : Fld := ⟨40, 13, .rwx, 0, .any⟩
def xAudEn1 : Fld := ⟨53, 1, .rwx, 0, .any⟩
/-- The fields of the record of R185, in bit order; the other bits are reserved and read zero. -/
def layout : List Fld :=
  [channels, l16, autoNonpcm, xAncRing, xAncEn, xAudRing0, xAudEn0, xAudRing1, xAudEn1]

end Ingest

/-! ### PktFlow: R195 (07_essence_flows.md) -/

namespace PktFlow

def output : Fld := ⟨0, 11, .rwx, 0, .any⟩
def component : Fld := ⟨11, 3, .rwx, 0, .le 5⟩
def essence : Fld := ⟨14, 3, .rwx, 0, .le 5⟩
def port : Fld := ⟨17, 2, .rwx, 0, .any⟩
def subport : Fld := ⟨19, 3, .rwx, 0, .any⟩
def flowEn : Fld := ⟨22, 1, .rwl, 0, .any⟩
def senderType : Fld := ⟨23, 2, .rwx, 0, .le 2⟩
def bpm : Fld := ⟨25, 1, .rwx, 0, .any⟩
def ptime : Fld := ⟨26, 2, .rwx, 0, .le 2⟩
def txL16 : Fld := ⟨28, 1, .rwx, 0, .any⟩
def dup : Fld := ⟨29, 1, .rwx, 0, .any⟩
def payloadType : Fld := ⟨32, 7, .rwx, 96, .between 96 127⟩
def txChannels : Fld := ⟨39, 4, .rwx, 0, .any⟩
def pktPayload : Fld := ⟨48, 14, .rwx, 1200, .any⟩
def ssrc : Fld := ⟨64, 32, .rwx, 0, .any⟩
def trOffset : Fld := ⟨96, 32, .rwx, 0, .any⟩
def hdrLen : Fld := ⟨128, 7, .rwx, 0, .hdrLen⟩
/-- The fields of the record of R195, in bit order; the other bits are reserved and read zero. -/
def layout : List Fld :=
  [output, component, essence, port, subport, flowEn, senderType, bpm, ptime, txL16, dup, payloadType, txChannels, pktPayload, ssrc, trOffset, hdrLen]

end PktFlow

/-! ### PktOut: R196 (07_essence_flows.md) -/

namespace PktOut

def plane : Fld := ⟨0, 3, .rwx, 0, .any⟩
def outOffset : Fld := ⟨3, 13, .rwx, 0, .any⟩
def outWidth : Fld := ⟨16, 14, .rwx, 0, .any⟩
def outLines : Fld := ⟨30, 13, .rwx, 0, .any⟩
def outInterlaced : Fld := ⟨43, 1, .rwx, 0, .any⟩
def outSample : Fld := ⟨44, 3, .rwx, 0, .le 5⟩
def outRange : Fld := ⟨47, 1, .rwx, 0, .any⟩
def outRate : Fld := ⟨48, 4, .rwx, 0, .le 7⟩
/-- The fields of the record of R196, in bit order; the other bits are reserved and read zero. -/
def layout : List Fld :=
  [plane, outOffset, outWidth, outLines, outInterlaced, outSample, outRange, outRate]

end PktOut

/-! ### Merge: R202 (07_essence_flows.md) -/

namespace Merge

def primaryRing : Fld := ⟨0, 13, .rwx, 0, .any⟩
def secondaryRing : Fld := ⟨16, 13, .rwx, 0, .any⟩
def outRing : Fld := ⟨32, 13, .rwx, 0, .any⟩
def mergeEn : Fld := ⟨45, 1, .rwl, 0, .any⟩
def mergeDelay : Fld := ⟨64, 18, .rwx, 10000, .between 500 160000⟩
def hybOffset : Fld := ⟨96, 32, .rwl, 0, .any⟩
/-- The fields of the record of R202, in bit order; the other bits are reserved and read zero. -/
def layout : List Fld :=
  [primaryRing, secondaryRing, outRing, mergeEn, mergeDelay, hybOffset]

end Merge

/-! ### CompOut: R216 (08_composers.md) -/

namespace CompOut

def compEn : Fld := ⟨0, 1, .rwl, 0, .any⟩
def modeC : Fld := ⟨1, 2, .rwx, 0, .le 2⟩
def gang : Fld := ⟨3, 1, .rwx, 0, .any⟩
def tight : Fld := ⟨4, 1, .rwx, 0, .any⟩
def plane : Fld := ⟨5, 3, .rwx, 0, .any⟩
def outRing : Fld := ⟨8, 13, .rwx, 0, .any⟩
def compOffset : Fld := ⟨24, 13, .rwx, 0, .any⟩
def outW : Fld := ⟨40, 14, .rwx, 0, .any⟩
def outH : Fld := ⟨56, 13, .rwx, 0, .any⟩
def outInterlaced : Fld := ⟨69, 1, .rwx, 0, .any⟩
def outSample : Fld := ⟨70, 3, .rwx, 0, .le 5⟩
def outRange : Fld := ⟨73, 1, .rwx, 0, .any⟩
def outRate : Fld := ⟨74, 4, .rwx, 0, .le 7⟩
def outTf : Fld := ⟨78, 2, .rwf, 0, .le 2⟩
def outGamut : Fld := ⟨80, 1, .rwf, 0, .any⟩
def clipMode : Fld := ⟨81, 2, .rwf, 1, .le 1⟩
def lut3dEn : Fld := ⟨83, 1, .rwf, 0, .any⟩
def lut3dBank : Fld := ⟨84, 1, .rwf, 0, .any⟩
def bgCustom : Fld := ⟨85, 1, .rwf, 0, .any⟩
def pqPeak : Fld := ⟨88, 14, .rwf, 1000, .between 100 10000⟩
def bgY : Fld := ⟨104, 12, .rwf, 0, .any⟩
def bgCb : Fld := ⟨116, 12, .rwf, 0, .any⟩
def bgCr : Fld := ⟨128, 12, .rwf, 0, .any⟩
def compState : Fld := ⟨160, 2, .ro, 0, .any⟩
/-- The fields of the record of R216, in bit order; the other bits are reserved and read zero. -/
def layout : List Fld :=
  [compEn, modeC, gang, tight, plane, outRing, compOffset, outW, outH, outInterlaced, outSample, outRange, outRate, outTf, outGamut, clipMode, lut3dEn, lut3dBank, bgCustom, pqPeak, bgY, bgCb, bgCr, compState]

end CompOut

/-! ### Layer: R218 (08_composers.md) -/

namespace Layer

def layerEn : Fld := ⟨0, 1, .rwf, 0, .any⟩
def z : Fld := ⟨1, 3, .rwf, 0, .any⟩
def sourceRing : Fld := ⟨5, 13, .rwf, 0, .any⟩
def srcTf : Fld := ⟨18, 2, .rwf, 0, .any⟩
def srcGamut : Fld := ⟨20, 1, .rwf, 0, .any⟩
def linBank : Fld := ⟨21, 1, .rwf, 0, .any⟩
def filter : Fld := ⟨22, 2, .rwf, 0, .any⟩
def matrixEn : Fld := ⟨24, 1, .rwf, 0, .any⟩
def tone : Fld := ⟨25, 2, .rwf, 0, .any⟩
def posX : Fld := ⟨32, 14, .rwf, 0, .any⟩
def posY : Fld := ⟨48, 14, .rwf, 0, .any⟩
def layerW : Fld := ⟨64, 14, .rwf, 0, .between 16 8192⟩
def layerH : Fld := ⟨80, 14, .rwf, 0, .between 16 8192⟩
def cropX : Fld := ⟨96, 13, .rwf, 0, .le 7679⟩
def cropY : Fld := ⟨112, 13, .rwf, 0, .le 4319⟩
def cropW : Fld := ⟨128, 13, .rwf, 0, .le 7680⟩
def cropH : Fld := ⟨144, 13, .rwf, 0, .le 4320⟩
def alpha : Fld := ⟨160, 10, .rwf, 1023, .any⟩
def knee : Fld := ⟨176, 16, .rwf, 768, .any⟩
def srcPeak : Fld := ⟨192, 16, .rwf, 5044, .any⟩
def dstPeak : Fld := ⟨208, 16, .rwf, 1024, .any⟩
def layerState : Fld := ⟨224, 2, .ro, 0, .any⟩
/-- The fields of the record of R218, in bit order; the other bits are reserved and read zero. -/
def layout : List Fld :=
  [layerEn, z, sourceRing, srcTf, srcGamut, linBank, filter, matrixEn, tone, posX, posY, layerW, layerH, cropX, cropY, cropW, cropH, alpha, knee, srcPeak, dstPeak, layerState]

end Layer

/-! ### Cal: R244 (09_calliope_audio.md) -/

namespace Cal

def calEn : Fld := ⟨0, 1, .rwl, 0, .any⟩
def calPlane : Fld := ⟨1, 3, .rwx, 0, .any⟩
def calState : Fld := ⟨4, 2, .ro, 0, .any⟩
/-- The fields of the record of R244, in bit order; the other bits are reserved and read zero. -/
def layout : List Fld :=
  [calEn, calPlane, calState]

end Cal

/-! ### AudIn: R248 (09_calliope_audio.md) -/

namespace AudIn

def inRing : Fld := ⟨0, 13, .rwx, 0, .any⟩
def inEn : Fld := ⟨13, 1, .rwl, 0, .any⟩
def tapMap : Fld := ⟨16, 32, .rwl, 0, .any⟩
def tap0Delay : Fld := ⟨64, 17, .rwl, 0, .any⟩
def tap1Delay : Fld := ⟨96, 17, .rwl, 0, .any⟩
def tap2Delay : Fld := ⟨128, 17, .rwl, 0, .any⟩
def tap3Delay : Fld := ⟨160, 17, .rwl, 0, .any⟩
/-- The fields of the record of R248, in bit order; the other bits are reserved and read zero. -/
def layout : List Fld :=
  [inRing, inEn, tapMap, tap0Delay, tap1Delay, tap2Delay, tap3Delay]

end AudIn

/-! ### AudOut: R250 (09_calliope_audio.md) -/

namespace AudOut

def outRing : Fld := ⟨0, 13, .rwx, 0, .any⟩
def outEn : Fld := ⟨13, 1, .rwl, 0, .any⟩
/-- The fields of the record of R250, in bit order; the other bits are reserved and read zero. -/
def layout : List Fld :=
  [outRing, outEn]

end AudOut

/-! ### AudCh: R250 (09_calliope_audio.md) -/

namespace AudCh

def srcKind : Fld := ⟨0, 2, .rwl, 0, .le 2⟩
def srcIndex : Fld := ⟨2, 14, .rwl, 0, .any⟩
def chGain : Fld := ⟨16, 16, .rwl, 0, .gain⟩
def chRamp : Fld := ⟨32, 13, .rwl, 10, .le 8000⟩
def chShape : Fld := ⟨45, 1, .rwl, 0, .any⟩
def invert : Fld := ⟨46, 1, .rwl, 0, .any⟩
/-- The fields of the record of R250, in bit order; the other bits are reserved and read zero. -/
def layout : List Fld :=
  [srcKind, srcIndex, chGain, chRamp, chShape, invert]

end AudCh

/-! ### Bus: R252 (09_calliope_audio.md) -/

namespace Bus

def busEn : Fld := ⟨0, 1, .rwl, 0, .any⟩
def busRate : Fld := ⟨1, 1, .rwx, 0, .any⟩
def limEn : Fld := ⟨2, 1, .rwl, 1, .any⟩
def dither : Fld := ⟨3, 1, .rwl, 1, .any⟩
def xpShape : Fld := ⟨4, 1, .rwl, 0, .any⟩
def busShape : Fld := ⟨5, 1, .rwl, 0, .any⟩
def inputs : Fld := ⟨8, 8, .ro, 0, .any⟩
def busGain : Fld := ⟨16, 16, .rwl, 0, .gain⟩
def busRamp : Fld := ⟨32, 13, .rwl, 10, .le 8000⟩
def xpRamp : Fld := ⟨48, 13, .rwl, 10, .le 8000⟩
def limCeil : Fld := ⟨64, 16, .rwl, 65436, .signed (-2000) 0⟩
def limRel : Fld := ⟨80, 13, .rwl, 100, .between 5 5000⟩
/-- The fields of the record of R252, in bit order; the other bits are reserved and read zero. -/
def layout : List Fld :=
  [busEn, busRate, limEn, dither, xpShape, busShape, inputs, busGain, busRamp, xpRamp, limCeil, limRel]

end Bus

/-! ### BusIn: R252 (09_calliope_audio.md) -/

namespace BusIn

def inCh : Fld := ⟨0, 14, .rwl, 0, .any⟩
def xpEn : Fld := ⟨14, 1, .rwl, 0, .any⟩
def xpGain : Fld := ⟨16, 16, .rwl, 0, .gain⟩
/-- The fields of the record of R252, in bit order; the other bits are reserved and read zero. -/
def layout : List Fld :=
  [inCh, xpEn, xpGain]

end BusIn

/-! ### Dyn: R256 (09_calliope_audio.md) -/

namespace Dyn

def dynEn : Fld := ⟨0, 1, .rwl, 0, .any⟩
def attachKind : Fld := ⟨1, 1, .rwx, 0, .any⟩
def attachIndex : Fld := ⟨2, 10, .rwx, 0, .any⟩
def chMask : Fld := ⟨16, 16, .rwx, 0, .any⟩
def thresh : Fld := ⟨32, 11, .rwl, 1848, .signed (-600) 0⟩
def ratio : Fld := ⟨48, 8, .rwl, 40, .zeroOr 10 200⟩
def knee : Fld := ⟨56, 8, .rwl, 0, .le 120⟩
def attack : Fld := ⟨64, 11, .rwl, 100, .between 1 2000⟩
def release : Fld := ⟨80, 13, .rwl, 200, .between 5 5000⟩
def makeup : Fld := ⟨96, 8, .rwl, 0, .le 240⟩
def gr : Fld := ⟨112, 16, .ro, 0, .any⟩
/-- The fields of the record of R256, in bit order; the other bits are reserved and read zero. -/
def layout : List Fld :=
  [dynEn, attachKind, attachIndex, chMask, thresh, ratio, knee, attack, release, makeup, gr]

end Dyn

/-! ### Cand: R270 (10_reference_clocks.md) -/

namespace Cand

def candEn : Fld := ⟨0, 1, .rwl, 0, .any⟩
def rank : Fld := ⟨1, 3, .rwl, 7, .any⟩
def polarity : Fld := ⟨4, 1, .rwx, 0, .any⟩
def pType : Fld := ⟨5, 3, .rwx, 0, .le 4⟩
def refRate : Fld := ⟨8, 4, .rwx, 0, .le 7⟩
def lane : Fld := ⟨12, 8, .rwx, 0, .le 143⟩
def freqWindow : Fld := ⟨32, 10, .rwl, 100, .between 10 1000⟩
def qualTime : Fld := ⟨48, 10, .rwl, 10, .between 10 1000⟩
def phaseHit : Fld := ⟨64, 17, .rwl, 1000, .between 100 100000⟩
def qState : Fld := ⟨96, 2, .ro, 0, .any⟩
/-- The fields of the record of R270, in bit order; the other bits are reserved and read zero. -/
def layout : List Fld :=
  [candEn, rank, polarity, pType, refRate, lane, freqWindow, qualTime, phaseHit, qState]

end Cand

/-! ### RefEng: R271 (10_reference_clocks.md) -/

namespace RefEng

def refEn : Fld := ⟨0, 1, .rwl, 0, .any⟩
def revertive : Fld := ⟨1, 1, .rwl, 0, .any⟩
def bwFinal : Fld := ⟨16, 10, .rwl, 10, .between 1 1000⟩
def settle : Fld := ⟨32, 10, .rwl, 20, .le 600⟩
def agreeLimit : Fld := ⟨48, 7, .rwl, 10, .between 1 100⟩
def wtr : Fld := ⟨64, 12, .rwl, 60, .le 3600⟩
def holdLimit : Fld := ⟨80, 10, .rwl, 24, .between 1 720⟩
def selected : Fld := ⟨96, 5, .ro, 31, .any⟩
def loopState : Fld := ⟨101, 3, .ro, 0, .any⟩
def buildout : Fld := ⟨128, 32, .ro, 0, .any⟩
def freqCorr : Fld := ⟨160, 32, .ro, 0, .any⟩
/-- The fields of the record of R271, in bit order; the other bits are reserved and read zero. -/
def layout : List Fld :=
  [refEn, revertive, bwFinal, settle, agreeLimit, wtr, holdLimit, selected, loopState, buildout, freqCorr]

end RefEng

/-! ### Plane: R282 (10_reference_clocks.md) -/

namespace Plane

def planeEn : Fld := ⟨0, 1, .rwl, 0, .any⟩
def plLines : Fld := ⟨1, 3, .rwx, 0, .le 5⟩
def plInterlaced : Fld := ⟨4, 1, .rwx, 0, .any⟩
def plRate : Fld := ⟨5, 4, .rwx, 0, .le 7⟩
def stepMode : Fld := ⟨9, 1, .rwl, 0, .any⟩
def slewRate : Fld := ⟨16, 14, .rwl, 100, .between 1 10000⟩
def phase : Fld := ⟨32, 32, .rwl, 0, .any⟩
def phaseLeft : Fld := ⟨64, 32, .ro, 0, .any⟩
/-- The fields of the record of R282, in bit order; the other bits are reserved and read zero. -/
def layout : List Fld :=
  [planeEn, plLines, plInterlaced, plRate, stepMode, slewRate, phase, phaseLeft]

end Plane

/-! ### Pulse: R287 (10_reference_clocks.md) -/

namespace Pulse

def poEn : Fld := ⟨0, 1, .rwl, 0, .any⟩
def poSrc : Fld := ⟨1, 3, .rwx, 0, .le 5⟩
def poPlane : Fld := ⟨4, 3, .rwx, 0, .any⟩
def alignIn : Fld := ⟨7, 2, .rwx, 0, .any⟩
def poPol : Fld := ⟨9, 1, .rwx, 0, .any⟩
def offset : Fld := ⟨32, 32, .rwl, 0, .any⟩
/-- The fields of the record of R287, in bit order; the other bits are reserved and read zero. -/
def layout : List Fld :=
  [poEn, poSrc, poPlane, alignIn, poPol, offset]

end Pulse

/-! ### ClkOut: R289 (10_reference_clocks.md) -/

namespace ClkOut

def ckEn : Fld := ⟨0, 1, .rwl, 0, .any⟩
def ck1001 : Fld := ⟨1, 1, .rwx, 0, .any⟩
def ckAlign : Fld := ⟨2, 1, .rwx, 0, .any⟩
def ckPlane : Fld := ⟨3, 3, .rwx, 0, .any⟩
def ckFreq : Fld := ⟨32, 32, .rwx, 0, .between 8000 400000000⟩
/-- The fields of the record of R289, in bit order; the other bits are reserved and read zero. -/
def layout : List Fld :=
  [ckEn, ck1001, ckAlign, ckPlane, ckFreq]

end ClkOut

/-! ### Inst: R298 (11_network_time.md) -/

namespace Inst

def instEn : Fld := ⟨0, 1, .rwl, 0, .any⟩
def profile : Fld := ⟨1, 2, .rwx, 0, .le 2⟩
def port : Fld := ⟨3, 2, .rwx, 0, .any⟩
def subport : Fld := ⟨5, 3, .rwx, 0, .any⟩
def domain : Fld := ⟨8, 8, .rwx, 0, .le 127⟩
def transport : Fld := ⟨16, 2, .rwx, 0, .le 2⟩
def delayMech : Fld := ⟨18, 1, .rwx, 0, .any⟩
def delayUnicast : Fld := ⟨19, 1, .rwl, 0, .any⟩
def annTimeout : Fld := ⟨24, 4, .rwl, 3, .between 2 10⟩
def delayReqLog : Fld := ⟨32, 8, .rwl, 127, .delayLog⟩
def asym : Fld := ⟨64, 16, .rwl, 0, .any⟩
def instState : Fld := ⟨96, 2, .ro, 0, .any⟩
def reason : Fld := ⟨98, 3, .ro, 5, .any⟩
def gmId : Fld := ⟨128, 64, .ro, 0, .any⟩
def utcOffset : Fld := ⟨192, 16, .ro, 0, .any⟩
def utcValid : Fld := ⟨208, 1, .ro, 0, .any⟩
/-- The fields of the record of R298, in bit order; the other bits are reserved and read zero. -/
def layout : List Fld :=
  [instEn, profile, port, subport, domain, transport, delayMech, delayUnicast, annTimeout, delayReqLog, asym, instState, reason, gmId, utcOffset, utcValid]

end Inst

/-! ### Servo: R306 (11_network_time.md) -/

namespace Servo

def servoEn : Fld := ⟨0, 1, .rwl, 0, .any⟩
def servoSrc : Fld := ⟨1, 2, .rwx, 0, .le 2⟩
def ptpSel : Fld := ⟨3, 2, .rwl, 0, .any⟩
def failover : Fld := ⟨5, 1, .rwl, 0, .any⟩
def stepEn : Fld := ⟨6, 1, .rwl, 1, .any⟩
def kp : Fld := ⟨16, 16, .rwl, 45875, .between 1 65535⟩
def ki : Fld := ⟨32, 16, .rwl, 19661, .between 1 65535⟩
def stepLimit : Fld := ⟨48, 16, .rwl, 100, .between 1 65535⟩
def stepPersist : Fld := ⟨64, 8, .rwl, 16, .between 1 255⟩
def pdWindow : Fld := ⟨72, 8, .rwl, 16, .between 1 64⟩
def outlier : Fld := ⟨80, 16, .rwl, 1000, .any⟩
def lockThresh : Fld := ⟨96, 16, .rwl, 100, .between 10 10000⟩
def rate : Fld := ⟨128, 40, .ro, 0, .any⟩
def lastOffset : Fld := ⟨192, 32, .ro, 0, .any⟩
def meanPath : Fld := ⟨224, 32, .ro, 0, .any⟩
/-- The fields of the record of R306, in bit order; the other bits are reserved and read zero. -/
def layout : List Fld :=
  [servoEn, servoSrc, ptpSel, failover, stepEn, kp, ki, stepLimit, stepPersist, pdWindow, outlier, lockThresh, rate, lastOffset, meanPath]

end Servo

/-! ### TroupeRec: R315 (12_troupe.md) -/

namespace TroupeRec

def troupeEn : Fld := ⟨0, 1, .rwl, 0, .any⟩
def member : Fld := ⟨1, 3, .ro, 0, .any⟩
def members : Fld := ⟨4, 8, .rwx, 0, .any⟩
def leader : Fld := ⟨12, 3, .ro, 0, .any⟩
def reach : Fld := ⟨16, 8, .ro, 0, .any⟩
/-- The fields of the record of R315, in bit order; the other bits are reserved and read zero. -/
def layout : List Fld :=
  [troupeEn, member, members, leader, reach]

end TroupeRec

/-! ### Link: R316 (12_troupe.md) -/

namespace Link

def linkEn : Fld := ⟨0, 1, .rwl, 0, .any⟩
def bringup : Fld := ⟨1, 1, .rwx, 0, .any⟩
def linkRate : Fld := ⟨2, 2, .rwx, 0, .any⟩
def peer : Fld := ⟨4, 3, .rwx, 0, .any⟩
def idleEn : Fld := ⟨7, 1, .rwl, 1, .any⟩
def lanes : Fld := ⟨16, 48, .rwx, 0, .any⟩
def spares : Fld := ⟨64, 48, .rwl, 0, .any⟩
def linkState : Fld := ⟨112, 3, .ro, 0, .any⟩
def actRate : Fld := ⟨115, 2, .ro, 0, .any⟩
def actLanes : Fld := ⟨117, 4, .ro, 0, .any⟩
/-- The fields of the record of R316, in bit order; the other bits are reserved and read zero. -/
def layout : List Fld :=
  [linkEn, bringup, linkRate, peer, idleEn, lanes, spares, linkState, actRate, actLanes]

end Link

/-! ### CellHdr: R323 (12_troupe.md) -/

namespace CellHdr

def typeF : Fld := ⟨0, 4, .ro, 0, .any⟩
def index : Fld := ⟨4, 5, .ro, 0, .any⟩
def destRing : Fld := ⟨9, 13, .ro, 0, .any⟩
def lseq : Fld := ⟨24, 16, .ro, 0, .any⟩
def hcrc : Fld := ⟨56, 8, .ro, 0, .any⟩
/-- The fields of the record of R323, in bit order; the other bits are reserved and read zero. -/
def layout : List Fld :=
  [typeF, index, destRing, lseq, hcrc]

end CellHdr

/-! ### LaneRec: R326 (12_troupe.md) -/

namespace LaneRec

def eye : Fld := ⟨0, 8, .ro, 0, .any⟩
def eyeAlarm : Fld := ⟨8, 8, .rwl, 64, .between 1 254⟩
def eyeMin : Fld := ⟨16, 8, .rwl, 96, .between 2 255⟩
def laneState : Fld := ⟨24, 2, .ro, 0, .any⟩
def polInv : Fld := ⟨26, 1, .ro, 0, .any⟩
def lanePos : Fld := ⟨27, 3, .ro, 0, .any⟩
/-- The fields of the record of R326, in bit order; the other bits are reserved and read zero. -/
def layout : List Fld :=
  [eye, eyeAlarm, eyeMin, laneState, polInv, lanePos]

end LaneRec

/-! ### Export: R334 (12_troupe.md) -/

namespace Export

def srcRing : Fld := ⟨0, 13, .rwx, 0, .any⟩
def expEn : Fld := ⟨13, 1, .rwl, 0, .any⟩
def priority : Fld := ⟨14, 2, .rwx, 0, .any⟩
def toF : Fld := ⟨16, 3, .rwx, 0, .any⟩
def destRing : Fld := ⟨19, 13, .rwx, 0, .any⟩
def viaLink : Fld := ⟨32, 3, .ro, 0, .any⟩
def expCredits : Fld := ⟨48, 16, .ro, 0, .any⟩
def expState : Fld := ⟨64, 2, .ro, 0, .any⟩
/-- The fields of the record of R334, in bit order; the other bits are reserved and read zero. -/
def layout : List Fld :=
  [srcRing, expEn, priority, toF, destRing, viaLink, expCredits, expState]

end Export

/-! ### Import: R334 (12_troupe.md) -/

namespace Import

def impRing : Fld := ⟨0, 13, .rwx, 0, .any⟩
def impEn : Fld := ⟨13, 1, .rwl, 0, .any⟩
def fromF : Fld := ⟨14, 3, .rwx, 0, .any⟩
def fromRing : Fld := ⟨17, 13, .rwx, 0, .any⟩
/-- The fields of the record of R334, in bit order; the other bits are reserved and read zero. -/
def layout : List Fld :=
  [impRing, impEn, fromF, fromRing]

end Import

/-! ### Twin: R346 (13_twin_redundancy.md) -/

namespace Twin

def twinEn : Fld := ⟨0, 1, .rwl, 0, .any⟩
def role : Fld := ⟨1, 2, .ro, 0, .any⟩
def sync : Fld := ⟨3, 2, .ro, 0, .any⟩
def pathAOk : Fld := ⟨5, 1, .ro, 0, .any⟩
def pathBOk : Fld := ⟨6, 1, .ro, 0, .any⟩
def takeUnsynced : Fld := ⟨7, 1, .rwl, 1, .any⟩
def aLane0 : Fld := ⟨8, 6, .rwx, 42, .le 47⟩
def aLane1 : Fld := ⟨16, 6, .rwx, 43, .le 47⟩
def aRate : Fld := ⟨22, 2, .rwx, 1, .any⟩
def hbLimit : Fld := ⟨24, 8, .rwl, 5, .between 2 50⟩
def onairConfirm : Fld := ⟨32, 8, .rwl, 12, .le 50⟩
def peerMac : Fld := ⟨64, 48, .rwx, 0, .any⟩
def mirrorSeq : Fld := ⟨128, 32, .ro, 0, .any⟩
def divCount : Fld := ⟨160, 32, .ro, 0, .any⟩
/-- The fields of the record of R346, in bit order; the other bits are reserved and read zero. -/
def layout : List Fld :=
  [twinEn, role, sync, pathAOk, pathBOk, takeUnsynced, aLane0, aLane1, aRate, hbLimit, onairConfirm, peerMac, mirrorSeq, divCount]

end Twin

/-! ### IdBlk: R373 (14_control_plane.md) -/

namespace IdBlk

def part : Fld := ⟨0, 16, .ro, 4132, .any⟩
def siRev : Fld := ⟨16, 8, .ro, 176, .any⟩
def family : Fld := ⟨24, 8, .ro, 1, .any⟩
def fwMinor : Fld := ⟨32, 8, .ro, 0, .any⟩
def fwMajor : Fld := ⟨40, 8, .ro, 0, .any⟩
def fwBuild : Fld := ⟨48, 16, .ro, 0, .any⟩
def reduced : Fld := ⟨64, 1, .ro, 0, .any⟩
def troupeId : Fld := ⟨65, 3, .ro, 0, .any⟩
def twinRole : Fld := ⟨68, 1, .ro, 0, .any⟩
def bootSrc : Fld := ⟨69, 2, .ro, 0, .any⟩
def clkMode : Fld := ⟨71, 2, .ro, 0, .any⟩
def hostRate : Fld := ⟨73, 2, .ro, 0, .any⟩
def power : Fld := ⟨96, 2, .ro, 2, .any⟩
def profile : Fld := ⟨98, 3, .ro, 0, .any⟩
def role : Fld := ⟨101, 2, .ro, 0, .any⟩
def fwUp : Fld := ⟨103, 1, .ro, 0, .any⟩
def rescue : Fld := ⟨104, 1, .ro, 0, .any⟩
def safetyNet : Fld := ⟨105, 1, .ro, 0, .any⟩
def unitId : Fld := ⟨128, 64, .ro, 0, .any⟩
def ptpNow : Fld := ⟨192, 64, .ro, 0, .any⟩
/-- The fields of the record of R373, in bit order; the other bits are reserved and read zero. -/
def layout : List Fld :=
  [part, siRev, family, fwMinor, fwMajor, fwBuild, reduced, troupeId, twinRole, bootSrc, clkMode, hostRate, power, profile, role, fwUp, rescue, safetyNet, unitId, ptpNow]

end IdBlk

/-! ### Midway: R378 (14_control_plane.md) -/

namespace Midway

def remap : Fld := ⟨0, 1, .ro, 0, .any⟩
def maint : Fld := ⟨1, 1, .rw, 0, .any⟩
def winBase : Fld := ⟨2, 4, .rw, 0, .any⟩
def hostQos : Fld := ⟨8, 4, .rw, 4, .any⟩
def decAddr : Fld := ⟨32, 40, .ro, 0, .any⟩
def decMaster : Fld := ⟨72, 4, .ro, 0, .any⟩
def decWrite : Fld := ⟨76, 1, .ro, 0, .any⟩
def decValid : Fld := ⟨77, 1, .w1c, 0, .any⟩
def decCount : Fld := ⟨80, 16, .ro, 0, .any⟩
def abortAddr : Fld := ⟨96, 40, .ro, 0, .any⟩
def abortMaster : Fld := ⟨136, 4, .ro, 0, .any⟩
def abortWrite : Fld := ⟨140, 1, .ro, 0, .any⟩
def abortValid : Fld := ⟨141, 1, .w1c, 0, .any⟩
def abortBeats : Fld := ⟨144, 5, .ro, 0, .any⟩
def abortCount : Fld := ⟨160, 16, .ro, 0, .any⟩
/-- The fields of the record of R378, in bit order; the other bits are reserved and read zero. -/
def layout : List Fld :=
  [remap, maint, winBase, hostQos, decAddr, decMaster, decWrite, decValid, decCount, abortAddr, abortMaster, abortWrite, abortValid, abortBeats, abortCount]

end Midway

/-! ### Priv: R383 (14_control_plane.md) -/

namespace Priv

def groups : Fld := ⟨0, 32, .rw, 0, .any⟩
def readOnly : Fld := ⟨32, 1, .rw, 0, .any⟩
def portEn : Fld := ⟨33, 1, .rw, 0, .any⟩
/-- The fields of the record of R383, in bit order; the other bits are reserved and read zero. -/
def layout : List Fld :=
  [groups, readOnly, portEn]

end Priv

/-! ### MbStatus: R386 (14_control_plane.md) -/

namespace MbStatus

def stateF : Fld := ⟨0, 2, .ro, 0, .any⟩
def seq : Fld := ⟨16, 16, .ro, 0, .any⟩
def status : Fld := ⟨32, 16, .ro, 0, .any⟩
def dbIgnored : Fld := ⟨48, 8, .ro, 0, .any⟩
/-- The fields of the record of R386, in bit order; the other bits are reserved and read zero. -/
def layout : List Fld :=
  [stateF, seq, status, dbIgnored]

end MbStatus

/-! ### HostQ: R392 (14_control_plane.md) -/

namespace HostQ

def firstEseq : Fld := ⟨0, 32, .ro, 0, .any⟩
def bytes : Fld := ⟨32, 32, .ro, 0, .any⟩
def tiles : Fld := ⟨64, 32, .ro, 0, .any⟩
def time : Fld := ⟨96, 64, .ro, 0, .any⟩
def valid : Fld := ⟨160, 1, .ro, 0, .any⟩
def truncated : Fld := ⟨161, 1, .ro, 0, .any⟩
def port : Fld := ⟨162, 2, .ro, 0, .any⟩
def subport : Fld := ⟨164, 3, .ro, 0, .any⟩
def fromFlow : Fld := ⟨167, 1, .ro, 0, .any⟩
def hqEn : Fld := ⟨256, 1, .ro, 0, .any⟩
def dir : Fld := ⟨257, 1, .ro, 0, .any⟩
def ring : Fld := ⟨258, 13, .ro, 0, .any⟩
def count : Fld := ⟨272, 11, .ro, 0, .any⟩
def pop : Fld := ⟨288, 1, .wo, 0, .any⟩
def release : Fld := ⟨320, 32, .wo, 0, .any⟩
def lost : Fld := ⟨352, 32, .ro, 0, .any⟩
/-- The fields of the record of R392, in bit order; the other bits are reserved and read zero. -/
def layout : List Fld :=
  [firstEseq, bytes, tiles, time, valid, truncated, port, subport, fromFlow, hqEn, dir, ring, count, pop, release, lost]

end HostQ

/-! ### SbRec: R395 (14_control_plane.md) -/

namespace SbRec

def sbEn : Fld := ⟨0, 1, .rwl, 0, .any⟩
def sbMac : Fld := ⟨16, 48, .rwx, 0, .any⟩
/-- The fields of the record of R395, in bit order; the other bits are reserved and read zero. -/
def layout : List Fld :=
  [sbEn, sbMac]

end SbRec

/-! ### Cursor: R419 (15_commands.md) -/

namespace Cursor

def curEn : Fld := ⟨0, 1, .rwl, 0, .any⟩
def curBank : Fld := ⟨1, 1, .rwf, 0, .any⟩
def curX : Fld := ⟨16, 14, .rwl, 0, .any⟩
def curY : Fld := ⟨32, 14, .rwl, 0, .any⟩
def hotX : Fld := ⟨48, 8, .rwl, 0, .any⟩
def hotY : Fld := ⟨56, 8, .rwl, 0, .any⟩
/-- The fields of the record of R419, in bit order; the other bits are reserved and read zero. -/
def layout : List Fld :=
  [curEn, curBank, curX, curY, hotX, hotY]

end Cursor

/-! ### FirstFault: R444 (16_faults_and_events.md) -/

namespace FirstFault

def code : Fld := ⟨0, 8, .ro, 0, .any⟩
def valid : Fld := ⟨8, 1, .ro, 0, .any⟩
def multi : Fld := ⟨9, 1, .ro, 0, .any⟩
def forced : Fld := ⟨10, 1, .ro, 0, .any⟩
def count : Fld := ⟨16, 16, .ro, 0, .any⟩
def location : Fld := ⟨32, 24, .ro, 0, .any⟩
def time : Fld := ⟨64, 64, .ro, 0, .any⟩
def param : Fld := ⟨128, 64, .ro, 0, .any⟩
/-- The fields of the record of R444, in bit order; the other bits are reserved and read zero. -/
def layout : List Fld :=
  [code, valid, multi, forced, count, location, time, param]

end FirstFault

/-! ### FaultCtl: R444 (16_faults_and_events.md) -/

namespace FaultCtl

def reaction : Fld := ⟨0, 2, .ro, 0, .any⟩
def safetyNet : Fld := ⟨2, 1, .ro, 0, .any⟩
def parityTrip : Fld := ⟨3, 1, .ro, 0, .any⟩
def fatalReset : Fld := ⟨4, 1, .rw, 0, .any⟩
def fatalDelay : Fld := ⟨16, 10, .rw, 100, .between 10 1000⟩
def escalations : Fld := ⟨32, 16, .ro, 0, .any⟩
def snTime : Fld := ⟨64, 64, .ro, 0, .any⟩
/-- The fields of the record of R444, in bit order; the other bits are reserved and read zero. -/
def layout : List Fld :=
  [reaction, safetyNet, parityTrip, fatalReset, fatalDelay, escalations, snTime]

end FaultCtl

/-! ### EvCfg: R448 (16_faults_and_events.md) -/

namespace EvCfg

def vector : Fld := ⟨0, 6, .rw, 0, .any⟩
def enable : Fld := ⟨8, 1, .rw, 0, .any⟩
def pending : Fld := ⟨9, 1, .w1c, 0, .any⟩
def classF : Fld := ⟨10, 2, .ro, 0, .any⟩
/-- The fields of the record of R448, in bit order; the other bits are reserved and read zero. -/
def layout : List Fld :=
  [vector, enable, pending, classF]

end EvCfg

/-! ### Aon: R466 (17_power_reset_boot.md) -/

namespace Aon

def rtcSec : Fld := ⟨0, 48, .rw, 0, .any⟩
def rtcSub : Fld := ⟨48, 15, .ro, 0, .any⟩
def alarmSec : Fld := ⟨64, 48, .rw, 0, .any⟩
def alarmEn : Fld := ⟨112, 1, .rw, 0, .any⟩
def wkSb : Fld := ⟨113, 1, .rw, 1, .any⟩
def wkUsb4 : Fld := ⟨114, 1, .rw, 1, .any⟩
def wkGp31 : Fld := ⟨115, 1, .rw, 0, .any⟩
def gp31Pol : Fld := ⟨116, 1, .rw, 0, .any⟩
def wakeCause : Fld := ⟨120, 3, .ro, 0, .any⟩
def actP : Fld := ⟨123, 4, .ro, 0, .any⟩
def supplyOk : Fld := ⟨128, 6, .ro, 0, .any⟩
def vbakOk : Fld := ⟨134, 1, .ro, 0, .any⟩
def tempOver : Fld := ⟨135, 1, .ro, 0, .any⟩
def tempTrip : Fld := ⟨136, 1, .ro, 0, .any⟩
/-- The fields of the record of R466, in bit order; the other bits are reserved and read zero. -/
def layout : List Fld :=
  [rtcSec, rtcSub, alarmSec, alarmEn, wkSb, wkUsb4, wkGp31, gp31Pol, wakeCause, actP, supplyOk, vbakOk, tempOver, tempTrip]

end Aon

/-! ### Cnt: R467 (17_power_reset_boot.md) -/

namespace Cnt

def cntPor : Fld := ⟨0, 16, .ro, 0, .any⟩
def cntPin : Fld := ⟨16, 16, .ro, 0, .any⟩
def cntWdog : Fld := ⟨32, 16, .ro, 0, .any⟩
def cntSoft : Fld := ⟨48, 16, .ro, 0, .any⟩
def cntTroupe : Fld := ⟨64, 16, .ro, 0, .any⟩
def cntFatal : Fld := ⟨80, 16, .ro, 0, .any⟩
def cntThermal : Fld := ⟨96, 16, .ro, 0, .any⟩
def cntWake : Fld := ⟨112, 16, .ro, 0, .any⟩
def total : Fld := ⟨128, 32, .ro, 0, .any⟩
def lastCause : Fld := ⟨160, 4, .ro, 8, .any⟩
def trimFails : Fld := ⟨164, 2, .ro, 0, .any⟩
/-- The fields of the record of R467, in bit order; the other bits are reserved and read zero. -/
def layout : List Fld :=
  [cntPor, cntPin, cntWdog, cntSoft, cntTroupe, cntFatal, cntThermal, cntWake, total, lastCause, trimFails]

end Cnt

/-! ### RstCtl: R472 (17_power_reset_boot.md) -/

namespace RstCtl

def blkRst : Fld := ⟨0, 64, .wo, 0, .any⟩
def blkBusy : Fld := ⟨64, 64, .ro, 0, .any⟩
def fullRst : Fld := ⟨128, 8, .wo, 0, .any⟩
def cntClear : Fld := ⟨136, 1, .wo, 0, .any⟩
def wdogMs : Fld := ⟨144, 16, .ro, 500, .any⟩
def releaseStep : Fld := ⟨160, 3, .ro, 7, .any⟩
def trimDone : Fld := ⟨163, 1, .ro, 1, .any⟩
/-- The fields of the record of R472, in bit order; the other bits are reserved and read zero. -/
def layout : List Fld :=
  [blkRst, blkBusy, fullRst, cntClear, wdogMs, releaseStep, trimDone]

end RstCtl

/-! ### SlotTab: R488 (18_firmware_update.md) -/

namespace SlotTab

def tseq : Fld := ⟨0, 32, .ro, 0, .any⟩
def active : Fld := ⟨32, 1, .ro, 0, .any⟩
def stateA : Fld := ⟨33, 2, .ro, 0, .any⟩
def stateB : Fld := ⟨35, 2, .ro, 0, .any⟩
def sizeA : Fld := ⟨64, 32, .ro, 0, .any⟩
def sizeB : Fld := ⟨96, 32, .ro, 0, .any⟩
def tcrc : Fld := ⟨224, 32, .ro, 0, .any⟩
/-- The fields of the record of R488, in bit order; the other bits are reserved and read zero. -/
def layout : List Fld :=
  [tseq, active, stateA, stateB, sizeA, sizeB, tcrc]

end SlotTab
end Sys2Proof.Machine
end

