-- ==== Sys2Proof/Machine/Tab.lean ====
section
/-! DEFINITION. Sparse tables: the one canonical form in which State holds every numbered set of records (rings, outputs,
lanes, flow entries, ...). Keys strictly rise and no entry equals what an unlisted key reads as, so equal tables are
equal data. -/

namespace Sys2Proof.Machine

/-- A table from numbers to values, listed by rising key; an unlisted key reads as its default. -/
abbrev Tab (α : Type) := List (Nat × α)

/-- The value at key `k`, `d k` where none is listed. -/
def tget {α : Type} (d : Nat → α) : Tab α → Nat → α
  | [], k => d k
  | (j, v) :: t, k => if k = j then v else tget d t k

/-- The table with `v` at key `k`, whether or not it equals the default. -/
def tput {α : Type} : Tab α → Nat → α → Tab α
  | [], k, v => [(k, v)]
  | (j, u) :: t, k, v => if k = j then (k, v) :: t else if k < j then (k, v) :: (j, u) :: t else (j, u) :: tput t k v

/-- The table with no entry at key `k`. -/
def tdel {α : Type} : Tab α → Nat → Tab α
  | [], _ => []
  | (j, u) :: t, k => if k = j then tdel t k else (j, u) :: tdel t k

/-- The table with `v` at `k`, kept canonical: a value equal to the default removes the entry. -/
def tset {α : Type} [DecidableEq α] (d : Nat → α) (t : Tab α) (k : Nat) (v : α) : Tab α :=
  if v = d k then tdel t k else tput t k v

/-- Every listed value changed, kept canonical. -/
def tmap {α : Type} [DecidableEq α] (d : Nat → α) (f : Nat → α → α) (t : Tab α) : Tab α :=
  t.filterMap (fun e => if f e.1 e.2 = d e.1 then none else some (e.1, f e.1 e.2))

/-- The canonical form: keys strictly rise, and no entry equals its key's default. -/
def Tab.wf {α : Type} [DecidableEq α] (d : Nat → α) (t : Tab α) : Bool :=
  t.Pairwise (fun a b => a.1 < b.1) && t.all (fun e => e.2 != d e.1)

/-- The table with every key reading its default. -/
def Tab.empty {α : Type} : Tab α := []

end Sys2Proof.Machine
end

