-- ==== Sys2Proof/Types.lean ====
section
/-! DEFINITION. What the commands carry: a request with its header and parameter bytes (R398), and what the environment brings
to an event. -/

namespace Sys2Proof

/-- The five ports of R382. -/
inductive Port where
  | p0 | p1 | p2 | p3 | p4
  deriving DecidableEq, Repr

/-- A request (R398): its port and channel (mailbox on P0, link on P1, sub-port on P3), its sender (member, MAC address, or IP address and
UDP port as one number), the header fields after OPCODE, and the parameter bytes. On P1 `extra` is what the origin sends with the
request: the receipt time of a take or an abandon (R124), the exporter's hops with an import (R337); zero elsewhere (DESIGN CHOICE,
log entry 117). -/
structure Req where
  port : Port
  chan : Nat
  sender : Nat
  length : BitVec 16
  seq : BitVec 16
  flags : BitVec 16
  deadline : BitVec 32
  reserved : BitVec 32
  params : List Byte
  extra : BitVec 64
  deriving DecidableEq, Repr

/-- What another member answered to the part of a Troupe-wide command it was sent (R118, R122, R335). -/
structure PeerAnswer where
  member : Fin 8
  status : BitVec 16
  result : List Byte
  deriving DecidableEq, Repr

/-- A Troupe-wide take: the request, and what each member answers to the part of it that it is sent (R119, R121, R124). -/
structure TakeReq where
  req : Req
  peers : List PeerAnswer
  deriving DecidableEq, Repr

/-- What the sync detector of R291 sees: the structure, as PL_LINES with bit 7 for interlace (0xFF for none), and the rate as OUT_RATE. -/
structure SyncSeen where
  lines : Fin 256
  rate : Fin 16
  deriving DecidableEq, Repr

/-- The outcome of the image check of R486: the cryptographic steps 2 to 4 are the environment's, the rest is computed. -/
inductive ImageVerdict where
  | keyFails | signatureFails | hashFails | proven
  deriving DecidableEq, Repr

/-- What the check cache reports with a read (R37). -/
inductive CacheErr where
  | none | corrected | uncorrectable
  deriving DecidableEq, Repr

/-- The readers of R16 that read in slots of their own. -/
inductive Reader where
  | video (out : Fin 2048)
  | anc (out : Fin 2048)
  | audio (out : Fin 2048) (slot : Fin 4)
  | layer (comp : Fin 16) (layer : Fin 8)
  | tap (slot : Fin 1024) (tap : Fin 4)
  | leg (pair : Fin 1024) (secondary : Bool)
  | capture (queue : Fin 16)
  deriving DecidableEq, Repr

/-- A video format: active raster, interlace, OUT_RATE code, FORMAT of R43 and range. -/
structure VFmt where
  width : Nat
  lines : Nat
  interlaced : Bool
  rate : Nat
  sample : Nat
  full : Bool
  deriving DecidableEq, Repr

/-- An ancillary packet as received: line, HOFF word of R50, its 10-bit words, and whether checksum and parity pass. -/
structure AncPacket where
  line : BitVec 16
  hoff : BitVec 16
  words : List (BitVec 10)
  ok : Bool
  deriving DecidableEq, Repr

/-- An audio data packet as received (R145): its group less one, the words of its channels in the form of R48, sample period by
sample period, and whether a single-bit error was corrected or an error could not be. -/
structure AudioPacket where
  group : Fin 8
  words : List (BitVec 32)
  corrected : Bool
  uncorrectable : Bool
  deriving DecidableEq, Repr

/-- A received line (R138): its checks, its number, whether it is active and of field 2 (the F bit), its active bytes as
pgroups, its ancillary and audio packets, and the timecode it carried. In a bonded group a link's line is that of its own sub-image. -/
structure LineInfo where
  trs : Bool
  number : Nat
  crcOk : Bool
  isActive : Bool
  field2 : Bool
  active : List Byte
  anc : List AncPacket
  audio : List AudioPacket
  timecode : Option (BitVec 32)
  deriving DecidableEq, Repr

/-- A received frame (R136): the measured structure, the link type (TX_LINK code), what ST 352 named (FORMAT, range, link
number), whether it contradicts the structure, its raw word, and the EDH result. In a bonded group it is a link's own. -/
structure FrameInfo where
  fmt : VFmt
  link : Nat
  pid : Option (Nat × Bool × Nat)
  contra : Bool
  st352 : BitVec 32
  edhOk : Bool
  deriving DecidableEq, Repr

/-- A received Ethernet frame: its bytes from the destination address through the FCS (R164), whether the FCS is good, whether an
uncorrectable FEC codeword lies in it, the corrected and uncorrectable codewords of each lane of the sub-port since the frame
before, whether the samples of an ST 2110-20 flow have 8 bits, and the lines and the frame that an ST 2022-6 datagram completes
in its serial stream (R191). -/
structure EthFrame where
  bytes : List Byte
  fcsOk : Bool
  fecBad : Bool
  fec : List (Nat × Nat)
  bits8 : Bool
  serial : List LineInfo
  sframe : Option FrameInfo
  deriving DecidableEq, Repr

/-- A receiver with the timers of R137 and R145: a lane's, or that of the ST 2022-6 depacketiser which writes a ring (R191). -/
inductive RxId where
  | lane (l : Fin 144)
  | flow (ring : Fin 8192)
  deriving DecidableEq, Repr

/-- One candidate's last second (R272): no missing or extra edge, the phase jump in ns, its frequency in 0.001 ppm. -/
structure Measure where
  edges : Bool
  jump : Nat
  freq : Int
  deriving DecidableEq, Repr

/-- A received Sync (R307): sequence, two-step flag, t1 and correction in ns, interval, whether its stamp is SOFT. -/
structure SyncMsg where
  seq : BitVec 16
  twoStep : Bool
  t1 : Int
  corr : Int
  logInterval : Int
  soft : Bool
  deriving DecidableEq, Repr

/-- A received Announce (R297, R312): the sender's port identity, the grandmaster, its data set as one ordered number of the
best master clock algorithm (lower is better), intervals, flags and the UTC offset. -/
structure AnnounceMsg where
  source : BitVec 80
  gm : BitVec 64
  rank : Nat
  logInterval : Int
  logDelayReq : Int
  timescale : Bool
  utc : BitVec 16
  utcValid : Bool
  deriving DecidableEq, Repr

/-- A CAPABILITY cell (R327). -/
structure CapCell where
  member : Fin 8
  peer : Fin 8
  rate : Fin 4
  lanes : Nat
  sense : Bool
  major : BitVec 8
  minor : BitVec 8
  deriving DecidableEq, Repr

/-- Lane order found under SENSE (R328). -/
inductive LaneOrder where
  | straight | reversed | other
  deriving DecidableEq, Repr

/-- Seventeen TILE cells taken as one tile (R324), with what the link counted since the tile before: corrected and uncorrectable
codewords, header failures, and cells that LSEQ shows lost; `lost` when a cell of this tile is among them. -/
structure TileCells where
  eseq : BitVec 32
  crc : BitVec 32
  tag : BitVec 32
  unitStart : Bool
  poison : Bool
  unitTime : BitVec 64
  payload : List Byte
  fecCorr : Nat
  fecUncorr : Nat
  hdrErr : Nat
  gaps : Nat
  lost : Bool
  deriving DecidableEq, Repr

/-- A TIME cell as received (R339), in ns of PTP time: its own arrival here, the departure of the sender's previous TIME cell with the
sender's engine time then, the arrival there of the latest TIME cell from here with that cell's departure, and the leader it announces
with the hops to it. -/
structure TimeCell where
  at_ : Nat
  dep : Nat
  engine : Nat
  arr : Nat
  arrDep : Nat
  leader : Fin 8
  hops : BitVec 8
  deriving DecidableEq, Repr

/-- One entry of a digest message (R357). -/
structure DigestEntry where
  output : Fin 2048
  frame : BitVec 16
  digest : BitVec 32
  deriving DecidableEq, Repr

/-- A Calliope setting that a parity error hit (R266). -/
inductive CalCoeff where
  | crosspoint (bus : Fin 512) (input : Fin 128)
  | channel (slot : Fin 1024) (ch : Fin 16)
  | tapMap (slot : Fin 1024) (ch : Fin 16)
  | bus (bus : Fin 512)
  deriving DecidableEq, Repr

/-- Wake sources of R465. -/
inductive WakeSource where
  | resetN | serviceBus | usb4 | gp31 | alarm
  deriving DecidableEq, Repr

end Sys2Proof
end

