-- ==== Sys2Proof/Machine/Groups.lean ====
section
/-! DEFINITION. The groups of state that a resynchronisation copies between twins (R358), in the order of the spec's chapters: the
Tile Store, the Ticket Booth, routes and salvos, SDI lanes, references and planes, media ports, flows, Composers and
Calliope. -/

namespace Sys2Proof.Machine

open Sys2Proof

/-- Power states of R460. -/
inductive Power where
  | backup | watch | staging | active
  deriving DecidableEq, Repr

/-- Fabric profiles of R7 and R73. -/
inductive Profile where
  | balanced | matrix | workshop | peering | tightrope | economy
  deriving DecidableEq, Repr

/-- Twin roles of R345. -/
inductive Role where
  | solo | primary | shadow
  deriving DecidableEq, Repr

/-! ### Tile Store, rings and memory channels (R29 to R67) -/

/-- State of a frame or unit marker (R55). -/
inductive MarkState where
  | writing | complete | incomplete
  deriving DecidableEq, Repr

/-- A frame or unit marker (R55). `bad` is the ESEQ from which an INCOMPLETE unit is not to be read (its abandon point). -/
structure Marker where
  eseq : BitVec 32
  tiles : BitVec 32
  time : Nat
  state : MarkState
  bad : BitVec 32
  deriving DecidableEq, Repr

/-- The four counters a ring keeps (R66). -/
structure RingCtr where
  checkFail : Nat
  incomplete : Nat
  concealPrev : Nat
  concealBlack : Nat
  deriving DecidableEq, Repr

/-- A memory channel: trained, failed (R33), and its counters (R66). -/
structure Chan where
  trained : Bool
  failed : Bool
  chFail : Nat
  chEcc : Nat
  chRecentre : Nat
  chCache : Nat
  deriving DecidableEq, Repr

/-- A closed tile waiting for its write slot since counter value `since` (R70); `skip` is the number of positions an abandoned unit
leaves unwritten after it (R57), `free` says that its writer closed it for bytes that never came: it holds none of the four waiting
places of R57 (log entry 109). -/
structure Staged where
  eseq : BitVec 32
  bytes : List Byte
  pos : Nat
  fin : Bool
  poison : Bool
  skip : Nat
  since : BitVec 64
  free : Bool
  deriving DecidableEq, Repr

/-- A ring's writer: whether a unit is open, its first ESEQ, the index of the next tile to close within it, the bytes of
the tile being filled, the line and byte the format has reached, the tiles closed and waiting (R57), whether
arriving bytes are being discarded until the next unit start, and the positions of the open unit that an abandon has left
unwritten, from the first up to the end of its field. -/
structure WrSt where
  unitOpen : Bool
  first : BitVec 32
  tile : Nat
  buf : List Byte
  lines : Nat
  units : Nat
  staged : List Staged
  discard : Bool
  gap : Nat × Nat
  deriving DecidableEq, Repr

/-- The Tile Store and its rings. `tiles` is memory as (byte address, byte) in canonical form, an unlisted byte reading 0;
`undef` gives the epoch of the last memory test of a channel, 0 for none; `lostTiles` the tiles whose check record an
uncorrectable check-cache error lost (R37); `stampAt` the PTP time of a ring's latest commit, `line1` that of the
EAV of line 1 of its source's latest frame (R105) and `line1Gap` the time since the one before it. -/
structure MemSt where
  tiles : List Host.Cell
  undef : Tab Nat
  tests : Nat
  rings : Tab (BitVec 256)
  decl : Tab (Nat × Nat)
  markers : Tab (List Marker)
  ctr : Tab RingCtr
  chans : Tab Chan
  lostTiles : List Nat
  wr : Tab WrSt
  stampAt : Tab Nat
  line1 : Tab Nat
  line1Gap : Tab Nat
  deriving DecidableEq, Repr

def ringReset (r : Nat) : BitVec 256 := BitVec.ofNat 256 (r % 8192)
def declReset (_ : Nat) : Nat × Nat := (0, 0)
def markReset (_ : Nat) : List Marker := []
def ctrReset (_ : Nat) : RingCtr := ⟨0, 0, 0, 0⟩
def chanReset (_ : Nat) : Chan := ⟨false, false, 0, 0, 0, 0⟩
def wrReset (_ : Nat) : WrSt := ⟨false, 0, 0, [], 0, 0, [], false, (0, 0)⟩
def natReset (_ : Nat) : Nat := 0

def MemSt.reset : MemSt where
  tiles := []
  undef := []
  tests := 0
  rings := []
  decl := []
  markers := []
  ctr := []
  chans := []
  lostTiles := []
  wr := []
  stampAt := []
  line1 := []
  line1Gap := []

/-! ### Carousel and Ticket Booth (R68 to R98) -/

/-- What a claim is for: claims of one group are one claim (R80). -/
inductive Grp where
  | write (ring : Nat)
  | route (ring plane mode offset : Nat)
  | compRead (comp ring phase : Nat)
  | compOut (comp k : Nat)
  | engine (comp : Nat)
  | layer (comp layer : Nat)
  | calRead (slot delay : Nat)
  | bus (bus : Nat)
  | busIn (bus input : Nat)
  | dyn (inst : Nat)
  | merge (pair leg : Nat)
  | outgoing (ring : Nat)
  | link (ring member : Nat)
  | flow (entry : Nat)
  | pacer (flow ring : Nat)
  | packet (flow : Nat)
  | disabled (n : Nat)
  deriving DecidableEq, Repr

/-- Who holds it: a claim goes when its last holder goes (R80, R102). -/
inductive Holder where
  | ring (ring : Nat)
  | routeActive (out part : Nat)
  | routePending (out part : Nat)
  | routeOld (out part : Nat)
  | comp (comp k : Nat)
  | layer (comp layer : Nat)
  | audIn (slot tap : Nat)
  | bus (bus input : Nat)
  | dyn (inst : Nat)
  | merge (pair : Nat)
  | exp (index : Nat)
  | flow (entry : Nat)
  | pkt (flow : Nat)
  deriving DecidableEq, Repr

/-- One claim: the resource code of R81 it is charged to (with the object for codes counted per object), its group, its
holder, its credits and its accumulator (R69). -/
structure Hold where
  res : Nat
  obj : Nat
  grp : Grp
  by_ : Holder
  credits : Nat
  acc : Nat
  deriving DecidableEq, Repr

/-- A host access to the Tile Store that waits for best-effort slots (R71): a BAR2 read or write. -/
inductive BestAccess where
  | read (addr len : Nat)
  | write (addr : Nat) (bytes : List Byte)
  deriving DecidableEq, Repr

/-- The budget table: the profile, the claims, HIGH of each class, the parity block (R98), the rebuild after a restart (R84)
and a profile change accepted for the next turn boundary (R76). The Carousel's turn: its number, the slots taken in it by channel
and class (8·channel + class, class 0 being best-effort traffic), and the accesses that wait for a later turn (R70, R71). -/
structure BudSt where
  profile : Profile
  holds : List Hold
  high : Tab Nat
  blocked : Bool
  rebuild : Bool
  nextProfile : Option Profile
  turn : Nat
  taken : Tab Nat
  waits : List BestAccess
  deriving DecidableEq, Repr

def BudSt.reset : BudSt where
  profile := .balanced
  holds := []
  high := []
  blocked := false
  rebuild := false
  nextProfile := none
  turn := 0
  taken := []
  waits := []

/-! ### Routes and salvos (R99 to R128) -/

/-- A source an output's audio slot mixes (R245, R262 to R264): its ring, the position its reader reads next, whether it is primed
at a fill of 2; the tile held as look-ahead with its verdict and that of the tile before it (R63); the sample counts of its
plane at which it ramps in and out with the lengths of the ramps and the switch samples, the shape of the ramps, and the
non-PCM channels whose block start has passed. -/
structure AudSrc where
  ring : Nat
  pos : BitVec 32
  primed : Bool
  held : List (BitVec 32)
  heldOk : Bool
  prevOk : Bool
  upAt : Int
  upLen : Nat
  upS : Int
  downAt : Option Int
  downLen : Nat
  downS : Int
  upDb : Bool
  downDb : Bool
  blocks : Nat
  deriving DecidableEq, Repr

/-- An audio slot of an output: its counters, its sources (newest first), and the millisecond of samples it emits, with the count
of its first sample. -/
structure AudSlot where
  rampShort : Nat
  slipUnder : Nat
  slipOver : Nat
  srcs : List AudSrc
  samples : List (BitVec 32)
  first : Int
  deriving DecidableEq, Repr

/-- A packet of an ancillary unit (R50): LINE, the HOFF word, and its 10-bit words. -/
abbrev AncRec := Nat × Nat × List Nat

/-- A millisecond of an output's audio slot as its embedder has it (R148): the slot, its sample rate, the count of its first sample, and
its words. -/
structure AudBlock where
  slot : Nat
  hz : Nat
  first : Int
  words : List (BitVec 32)
  deriving DecidableEq, Repr

/-- A frame as an output emits it (R146 to R149, R152, R198): the lanes that drive it, by link; TX_LINK, TX_BOND and TX_INTERLEAVE; the
format; the output's frame count, whether the Safety Net generator feeds it, the plane time of its start; TC_LINE as latched and the
timecode, if it carries one; the packets to be placed, by unit, and in a switch frame those of the entry before; the tiles its video reader
has passed, by position in the frame, with their ring's descriptor; the audio blocks at hand; and what runs on from the frame before: by
virtual interface the CRC registers of its last line (C, Y), by 8·link + group the count of the first audio sample period not embedded yet,
and of an SD frame the CRC of its last active field and the register of the full field. `extra` is what a phase step lengthens it by
(R284), in units of 1/472,500 ns. -/
structure TxFrame where
  lanes : List Nat
  link : Nat
  bond : Nat
  square : Bool
  fmt : VFmt
  number : Nat
  gen : Bool
  start : Int
  tcLine : Nat
  tc : Option Nat
  anc : List (List AncRec)
  ancBefore : Option (List (List AncRec))
  desc : BitVec 256
  tiles : Tab (List Byte)
  audio : List AudBlock
  crcs : List (Nat × Nat)
  aud : List Int
  edh : Option (Nat × Nat)
  extra : Nat
  deriving DecidableEq, Repr

def TxFrame.reset : TxFrame :=
  ⟨[], 0, 0, false, ⟨0, 0, false, 0, 0, false⟩, 0, false, 0, 0, none, [], none, 0, [], [], [], [], none, 0⟩

/-- The running state of an output. `frames` is its frame count; `lastFrame` the first ESEQ of the frame it reads, with `lastDesc` the
descriptor its ring had when that was chosen; `chosen` the frame it will read next, `fresh` the fresh choice for the switch frame (R106).
`choiceBad` and `latchBad` say that the ring's format differed at the last choice or latch, `repeating` that the output repeats
`lastFrame` for it, `mismatch` that ROUTE_FORMAT_MISMATCH holds (R116). `latched` is the PENDING copy read for the coming switch point,
`audLatched` the one read at the audio latch; `running` says that the output is being emitted, `gen` that the Safety Net generator feeds
it, `parity` that its route entry is lost to parity. `tc` is the count of timecode continuity, kept while `tcRun` (R112); `tcLatch` TC_LINE
as last latched (R10); `tx` the frame in progress. `digest` holds the tile records of the frame so far and `lastDigest` the digest of the
frame before. -/
structure OutSt where
  repeats : Nat
  skips : Nat
  frames : Nat
  lastFrame : Option (BitVec 32)
  lastDesc : BitVec 256
  chosen : Option (BitVec 32)
  fresh : Option (BitVec 32)
  latched : Option (BitVec 256)
  audLatched : Option (BitVec 256)
  running : Bool
  gen : Bool
  parity : Bool
  mismatch : Bool
  choiceBad : Bool
  latchBad : Bool
  repeating : Bool
  outOfTiming : Bool
  tcRun : Bool
  tc : Nat
  tcLatch : Nat
  tx : TxFrame
  unbounded : List Nat
  dropped : Nat
  digest : List Byte
  lastDigest : Nat
  slots : List AudSlot
  deriving DecidableEq, Repr

/-- States of a salvo (R117). -/
inductive SalvoState where
  | empty | preparing | admitted | committed | done
  deriving DecidableEq, Repr

/-- One entry of a salvo (R117, R126). -/
structure SalvoEntry where
  member : Nat
  output : Nat
  rec_ : BitVec 256
  deriving DecidableEq, Repr

/-- A salvo this device is the origin of. `switched` counts the outputs switched per member; `acks` the members that have
acknowledged a take, `origin` is the member whose salvo it is (R124). -/
structure Salvo where
  state : SalvoState
  entries : List SalvoEntry
  target : Nat
  earliest : Nat
  switched : Tab Nat
  acks : Nat
  rebuilt : Bool
  origin : Nat
  deriving DecidableEq, Repr

/-- The route table, the salvos, the arm registers (R119) and the preset region of the MRAM (R126). -/
structure RteSt where
  active : Tab (BitVec 256)
  pending : Tab (BitVec 256)
  outs : Tab OutSt
  salvos : Tab Salvo
  arm : Tab (BitVec 64)
  presets : Tab (List Byte)
  deriving DecidableEq, Repr

def entryReset (_ : Nat) : BitVec 256 := resetRec 256 RouteEntry.layout
def AudSlot.reset : AudSlot := ⟨0, 0, 0, [], [], 0⟩
def OutSt.reset : OutSt where
  repeats := 0
  skips := 0
  frames := 0
  lastFrame := none
  lastDesc := 0
  chosen := none
  fresh := none
  latched := none
  audLatched := none
  running := false
  gen := false
  parity := false
  mismatch := false
  choiceBad := false
  latchBad := false
  repeating := false
  outOfTiming := false
  tcRun := false
  tc := 0
  tcLatch := 0
  tx := TxFrame.reset
  unbounded := []
  dropped := 0
  digest := []
  lastDigest := 0
  slots := [AudSlot.reset, AudSlot.reset, AudSlot.reset, AudSlot.reset]
def outReset (_ : Nat) : OutSt := OutSt.reset
def salvoReset (_ : Nat) : Salvo := ⟨.empty, [], 0, 0, [], 0, false, 0⟩
def armReset (_ : Nat) : BitVec 64 := 0
def bytesReset (_ : Nat) : List Byte := []

def RteSt.reset : RteSt := ⟨[], [], [], [], [], []⟩

/-! ### SDI lanes (R129 to R156) -/

/-- Lock states of R135, in the order LOCK_STATE reports them. -/
inductive Lock where
  | noSignal | searching | cdrLocked | formatLocked
  deriving DecidableEq, Repr

/-- What the leader of a bonded group gathers (R132, R133): the lanes whose line 1 of the frame has come and those whose last line has, the PTP
time of the group's line 1, the rows of a line by number and link, and the rows of the full raster that wait to be written: those of the
lower half under square division, and those in their order, with a mark where a frame begins. -/
structure BondRx where
  ones : List Nat
  ends : List Nat
  line1 : Nat
  subs : List (Nat × Nat × List Byte)
  lower : List (List Byte)
  rows : List (Bool × List Byte)
  deriving DecidableEq, Repr

def BondRx.reset : BondRx := ⟨[], [], 0, [], [], []⟩

/-- Running state of an SDI receiver and transmitter. `attempt` is the index in the search order; `cdr` says that the CDR is
locked and a TRS is being sought; `fmt` is the established format and `linkType` its link; `cand` the format of the last
frame measured or of the differing frame of R140, `candLink` its link; `badTrs` the consecutive lines that failed the TRS check; `line` the
flywheel's line count and `field2` the F bit of the last line; `started` that the writers have seen a line 1, `newFrame`
that the frame's first active line is to come; `stop` that the writers write nothing (R141), `unsup` that the source is
unsupported (R142); `link` the link number of ST 352, 4 none; `aq` the words waiting by audio group, `lost` the groups
written as zero, `aPhase` the time that slots without any group have waited, `bPend` the channels whose block has just
begun, `aSync` the groups whose tiles have been put on the grid of R204; `own` the format and link type that a link of a bonded group has
established, `bond` what the group's leader gathers; `txOut` the output whose frames a transmitter emits, `txGen` from its generator, `txFault` one isolated (R156). -/
structure LaneSt where
  lock : Lock
  present : Bool
  attempt : Nat
  cdr : Bool
  fmt : Option VFmt
  linkType : Nat
  cand : Option VFmt
  candLink : Nat
  badTrs : Nat
  line : Nat
  field2 : Bool
  started : Bool
  newFrame : Bool
  stop : Bool
  overBudget : Bool
  unsup : Bool
  st352 : BitVec 32
  timecode : BitVec 32
  line1Time : Nat
  link : Nat
  bondBad : Bool
  aq : Tab (List (BitVec 32))
  lost : List Nat
  aPhase : Tab Nat
  bPend : List Nat
  aSync : List Nat
  own : Option (VFmt × Nat)
  bond : BondRx
  txOut : Option Nat
  txGen : Bool
  txFault : Bool
  deriving DecidableEq, Repr

/-- The lanes' configuration records, running state and the twelve counters of R155 (in their listed order). -/
structure SdiSt where
  cfg : Tab (BitVec 256)
  lanes : Tab LaneSt
  ctr : Tab (List Nat)
  deriving DecidableEq, Repr

def sdiReset (_ : Nat) : BitVec 256 := resetRec 256 SdiLane.layout
def laneReset (_ : Nat) : LaneSt :=
  ⟨.noSignal, false, 0, false, none, 0, none, 0, 0, 0, false, false, false, false, false, false, 0, 0, 0, 4, false, [], [], [], [], [],
    none, BondRx.reset, none, false, false⟩
def wordsReset (_ : Nat) : List (BitVec 32) := []
def ctr12 (_ : Nat) : List Nat := List.replicate 12 0

def SdiSt.reset : SdiSt := ⟨[], [], []⟩

/-! ### Reference engine, planes, pulse and clock outputs (R269 to R294) -/

/-- One second of a candidate's measurements: whether it was good, and its frequency offset in 0.001 ppm (R272). -/
structure Second where
  good : Bool
  freq : Int
  deriving DecidableEq, Repr

/-- Running state of a candidate. `secs` holds up to 100 seconds, newest first; `goodRun` the consecutive good seconds while
QUALIFYING; `qualRun` the seconds it has stayed QUALIFIED (for WTR); `disq` that it was disqualified and awaits the next
evaluation; `detected`, `rate` and `amplitude` the analog format (255 none, R422) and its frame rate, with `frames` of it seen in a row. -/
structure CandSt where
  activity : Bool
  secs : List Second
  goodRun : Nat
  qualRun : Nat
  detected : Nat
  rate : Nat
  amplitude : Nat
  frames : Nat
  missing : Nat
  deriving DecidableEq, Repr

/-- Running state of a plane, in units of 1/472,500 ns: the shift its time has against engine time beyond BUILDOUT, a step that
waits for the next frame boundary (R284), and a slew in progress (R285): its rate in ns/s (0 none), the engine time at which
it began, what was left then, and what it had completed before. `frames` counts the frames started. Until engine time `extra` the frame
that a step lengthened goes on (R284). -/
structure PlaneSt where
  shift : Int
  step : Nat
  slew : Nat
  slewFrom : Nat
  left : Int
  past : Int
  frames : Nat
  extra : Nat
  deriving DecidableEq, Repr

/-- Running state of a pulse or clock output: driven, level, whether a period is to be lengthened (R288), whether the input it regenerates
is lost (R287), and the counter C at its last edge. -/
structure EdgeSt where
  run : Bool
  high : Bool
  lengthen : Bool
  lost : Bool
  lastEdge : Nat
  deriving DecidableEq, Repr

/-- `history` is the LOCKED correction history in units of 2^-48, newest first, one per second (R280); `fEntry` and `slope`
the holdover model in force; `slope` is in units of 2^-48 per second, as a fraction;
`holdSecs` the seconds spent in holdover, `settled` that SETTLE has run out there, `oldSel` the candidate selected before; `stage` the acquisition stage of R277;
`disagree` the open REF_DISAGREE episodes, each with its agreeing seconds; `build` BUILDOUT in full, in 0.1 ns, whose low 32 bits the record shows. -/
structure RefSt where
  cand : Tab (BitVec 128)
  candSt : Tab CandSt
  eng : BitVec 256
  plane : Tab (BitVec 128)
  planeSt : Tab PlaneSt
  pulse : Tab (BitVec 64)
  pulseSt : Tab EdgeSt
  clock : Tab (BitVec 64)
  clockSt : Tab EdgeSt
  history : List Int
  fEntry : Int
  slope : Int × Nat
  settled : Bool
  oldSel : Nat
  holdSecs : Nat
  longDone : Bool
  stage : Nat
  build : Int
  disagree : List (Nat × Nat × Nat)
  pinEdge : Tab Nat
  deriving DecidableEq, Repr

def candReset (_ : Nat) : BitVec 128 := resetRec 128 Cand.layout
def candStReset (_ : Nat) : CandSt := ⟨false, [], 0, 0, 255, 0, 0, 0, 0⟩
def planeReset (_ : Nat) : BitVec 128 := resetRec 128 Plane.layout
def planeStReset (_ : Nat) : PlaneSt := ⟨0, 0, 0, 0, 0, 0, 0, 0⟩
def pulseReset (_ : Nat) : BitVec 64 := resetRec 64 Pulse.layout
def clockReset (_ : Nat) : BitVec 64 := resetRec 64 ClkOut.layout
def edgeReset (_ : Nat) : EdgeSt := ⟨false, false, false, false, 0⟩

def RefSt.reset : RefSt where
  cand := []
  candSt := []
  eng := resetRec 256 RefEng.layout
  plane := []
  planeSt := []
  pulse := []
  pulseSt := []
  clock := []
  clockSt := []
  history := []
  fEntry := 0
  slope := (0, 1)
  settled := false
  oldSel := 31
  holdSecs := 0
  longDone := false
  stage := 0
  build := 0
  disagree := []
  pinEdge := []

/-! ### Media Ethernet ports (R157 to R183) -/

/-- Link states of R159. -/
inductive LinkUp where
  | down | training | up
  deriving DecidableEq, Repr

/-- A pause hold of one egress class (R170 to R172): counter values at which the quanta run out, the hold began, and the
ignore period ends. -/
structure Hold802 where
  until_ : Option (BitVec 64)
  since : BitVec 64
  ignore : Option (BitVec 64)
  deriving DecidableEq, Repr

/-- A membership message still owed (R181): its group and family, whether it leaves the group or answers a query, the VLAN its
entry names, and how many times it is still to be sent. -/
structure Owed where
  group : Nat
  v6 : Bool
  leaving : Bool
  answer : Bool
  vid : Option Nat
  left : Nat
  deriving DecidableEq, Repr

/-- A frame of the management class that waits to be sent (R166, R169): a membership report, tagged with the VLAN it names where it
names one, or a PTP message of an instance (R295) by kind, number and whether its stamp is lost. Their tags are put in as they leave. -/
inductive MgmtTx where
  | report (vid : Option Nat) (bytes : List Byte)
  | ptp (inst kind : Nat) (seq : BitVec 16) (soft : Bool)
  deriving DecidableEq, Repr

/-- A sub-port: link state, management queues (received frames waiting, frames waiting to be sent), the hold of the
management class and of the media class by priority, the version of an older querier heard (R182; 0 none), the messages
still owed, and the uncorrectable FEC codewords of the last millisecond with the counter values at which they were counted (R160). -/
structure SubSt where
  link : LinkUp
  rxq : List (List Byte)
  txq : List MgmtTx
  mgmtHold : Hold802
  mediaHold : Tab Hold802
  compat4 : Nat
  compat6 : Nat
  owed : List Owed
  fecBad : List (BitVec 64 × Nat)
  deriving DecidableEq, Repr

/-- A port's shadow bank (R174). -/
structure Bank where
  seq : BitVec 32
  time : Nat
  ctr : List (BitVec 64)
  deriving DecidableEq, Repr

/-- Ports, sub-ports (number 8n + s), statistics (counter k of Mn/s at 96n + 12s + k), shadow banks and the FEC codeword
counts of each lane (corrected, uncorrectable). -/
structure EthSt where
  port : Tab (BitVec 256)
  addr : Tab (BitVec 256)
  sub : Tab SubSt
  ctr : Tab (BitVec 64)
  bank : Tab Bank
  fec : Tab (Nat × Nat)
  deriving DecidableEq, Repr

def ethReset (_ : Nat) : BitVec 256 := resetRec 256 EthPort.layout
def ethAddrReset (_ : Nat) : BitVec 256 := 0
def holdReset : Hold802 := ⟨none, 0, none⟩
def holdAt (_ : Nat) : Hold802 := holdReset
def subReset (_ : Nat) : SubSt := ⟨.down, [], [], holdReset, [], 0, 0, [], []⟩
def zero64 (_ : Nat) : BitVec 64 := 0
def bankReset (_ : Nat) : Bank := ⟨0, 0, []⟩
def fecReset (_ : Nat) : Nat × Nat := (0, 0)
def EthSt.reset : EthSt := ⟨[], [], [], [], [], []⟩

/-! ### Flow table, depacketisers, packetisers and Merge Unit (R175 to R211) -/

/-- Where an entry stands in the flow table: a way and a row, or the stash (R175). -/
inductive FlowPlace where
  | way (w row : Nat)
  | stash (i : Nat)
  deriving DecidableEq, Repr

/-- A flow-table entry with its status (R176, R180). `windowSum` is the running 1 ms window, `within` the windows within
DECL_RATE since an over-rate episode (none while no episode is open), `bad` an uncorrectable error (R183). -/
structure Flow where
  key : BitVec 384
  place : FlowPlace
  present : Bool
  pkts : Nat
  octets : Nat
  lastSeen : Nat
  peak : Nat
  overWindows : Nat
  windowSum : Nat
  within : Option Nat
  bad : Bool
  deriving DecidableEq, Repr

/-- A depacketiser's running state for one ring (R187 to R191). `seq` is the greatest extended sequence number so far, `unseen` the
runs of numbers behind it that have not been seen (start and length, newest first) and `gap` those skipped since a unit last
closed; `ts` the RTP timestamp of the unit in progress, `placed` the runs of bytes placed in its tiles and `image` those tiles,
`field` whether a field is awaited (0), open (1) or ended (2), `second` that it is the second, `bad` that it shows another geometry, `maxLine` and `maxPix` the greatest line and pixel it has
named, `two` that a segment of a second field has been seen since the geometry last matched; `geom` the differing geometry of the last frame, `stopped` that nothing is written, `unsup` that the raster is
unsupported; `src` the sub-port of the latest packet; `samples` the audio samples placed, by media-clock count, `next` the audio
tile to close next; `bPend` the channels whose block has just begun; `rx` the receiver of a serial stream. The six counters of
R193 stand in their listed order. -/
structure DepSt where
  seq : Option (BitVec 32)
  unseen : List (BitVec 32 × Nat)
  gap : List (BitVec 32 × Nat)
  ts : Option (BitVec 32)
  placed : List (Nat × Nat)
  image : Tab (List Byte)
  field : Nat
  second : Bool
  bad : Bool
  maxLine : Nat
  maxPix : Nat
  two : Bool
  geom : Option (Nat × Nat)
  stopped : Bool
  unsup : Bool
  src : Nat
  samples : Tab (List (BitVec 32))
  next : Option Nat
  bPend : List Nat
  rx : LaneSt
  ctr : List Nat
  deriving DecidableEq, Repr

/-- A packetiser flow's running state: next extended RTP sequence number, the frame or audio tile its packets belong to and how many of it
have been sent, packets discarded while the sub-port is not UP (R160), and for an ST 2110-22 flow the ring and position it
reads, whether a packet with the marker bit was the last sent, and the fixed offset of its timestamps, none until it is
set (R199). -/
structure PktSt where
  seq : BitVec 32
  unit : Int
  sent : Nat
  lost : Nat
  ring : Option Nat
  pos : BitVec 32
  cut : Bool
  tsOffset : Option (BitVec 32)
  deriving DecidableEq, Repr

/-- A unit of a leg ring as its queue keeps it (R208): its first ESEQ, its grid point (R204), the PTP times at which its tiles were
committed, by index, the number of tiles once its END tile has been, and the state of its marker. -/
structure MUnit where
  first : BitVec 32
  grid : Nat
  times : Tab Nat
  tiles : Option Nat
  state : MarkState
  deriving DecidableEq, Repr

/-- One leg of a merge pair (R208, R209): OK or LOST, units missed or delivered in a row, whether an audio leg has drifted off the
grid, whether a tile has come late since a unit was last delivered, its unit queue, oldest first, and the units decided before their writer
was done with them, whose tiles are late (R206). -/
structure LegSt where
  lost : Bool
  missed : Nat
  good : Nat
  drift : Bool
  late : Bool
  units : List MUnit
  gone : List MUnit
  deriving DecidableEq, Repr

/-- A merge pair: its legs, the grid point and tile to decide next, decisions with a delivered tile since both were missing (none
outside an episode), whether the unit is being written, whether each leg has delivered some tile and every tile of it, the
first ESEQ of the protected units written lately by grid point, and the six counters of R210. -/
structure MergeSt where
  p : LegSt
  q : LegSt
  unit : Option Nat
  tile : Nat
  both : Option Nat
  opened : Bool
  pSome : Bool
  pAll : Bool
  qSome : Bool
  qAll : Bool
  outs : List (Nat × BitVec 32)
  ctr : List Nat
  deriving DecidableEq, Repr

structure FloSt where
  table : List Flow
  ingest : Tab (BitVec 64)
  dep : Tab DepSt
  pkt : Tab (BitVec 256)
  hdr : Tab (BitVec 528)
  pktSt : Tab PktSt
  pktOut : Tab (BitVec 128)
  merge : Tab (BitVec 128)
  mergeSt : Tab MergeSt
  deriving DecidableEq, Repr

def ingestReset (_ : Nat) : BitVec 64 := resetRec 64 Ingest.layout
def depReset (_ : Nat) : DepSt :=
  ⟨none, [], [], none, [], [], 0, false, false, 0, 0, false, none, false, false, 0, [], none, [], laneReset 0, List.replicate 6 0⟩
def pktReset (_ : Nat) : BitVec 256 := resetRec 256 PktFlow.layout
def hdrReset (_ : Nat) : BitVec 528 := 0
def pktStReset (_ : Nat) : PktSt := ⟨0, 0, 0, 0, none, 0, true, none⟩
def pktOutReset (_ : Nat) : BitVec 128 := 0
def mergeReset (_ : Nat) : BitVec 128 := resetRec 128 Merge.layout
def legReset : LegSt := ⟨false, 0, 0, false, false, [], []⟩
def mergeStReset (_ : Nat) : MergeSt := ⟨legReset, legReset, none, 0, none, false, false, true, false, true, [], List.replicate 6 0⟩
def FloSt.reset : FloSt := ⟨[], [], [], [], [], [], [], [], []⟩

/-! ### Composers (R212 to R241) -/

/-- The records of a conversion or composition taken together: MODE_C and GANG of its Composer, its output record, the eight layer
records and matrices, and the cursor record. -/
structure CompSet where
  mode : Nat
  gang : Bool
  out : BitVec 256
  layers : List (BitVec 256)
  mats : List (BitVec 288)
  cur : BitVec 128
  deriving DecidableEq, Repr

/-- A crop that enters the scaler, and its width before pre-decimation (R223). -/
structure Crop where
  x : Nat
  y : Nat
  w : Nat
  h : Nat
  wide : Nat
  deriving DecidableEq, Repr

/-- A layer's running state: its counters, the frame it reads, its crop as evaluated at F (none while it is suppressed or
transparent), open episodes of LAYER_NO_SOURCE and COMP_SOURCE_TIMING, and the ring that holds its frame. -/
structure LayerSt where
  repeats : Nat
  skips : Nat
  frame : Option (BitVec 32)
  crop : Option Crop
  noSource : Bool
  untimed : Bool
  ring : Nat
  deriving DecidableEq, Repr

/-- A conversion or composition: the records in force (none while it is off), those latched for the next F (R238), the number of the
frame since it started, the cursor record as sampled for its first and its second field (R233), and the members of its gang that
have failed (R239). -/
structure CompSt where
  run : Option CompSet
  lat : Option CompSet
  frames : Nat
  pos : BitVec 128
  pos2 : BitVec 128
  gangFault : List Nat
  deriving DecidableEq, Repr

/-- Which object's record a held or pending write replaces (R238, R247). -/
inductive Target where
  | compOut (i : Nat)
  | compLayer (i : Nat)
  | compMatrix (i : Nat)
  | compCursor (i : Nat)
  | audIn (i : Nat)
  | audOut (i : Nat)
  | audBus (i : Nat)
  | audBusInputs (bus first : Nat)
  | audDyn (i : Nat)
  deriving DecidableEq, Repr

/-- A write with TARGET held in hardware: when it applies, what it replaces, and the whole record or entries. -/
structure Held where
  target : Nat
  obj : Target
  bytes : List Byte
  deriving DecidableEq, Repr

/-- An open LUT or bitmap load (R420): table, bank, index, bytes received. -/
structure Load where
  table : Nat
  bank : Nat
  index : Nat
  bytes : List Byte
  deriving DecidableEq, Repr

/-- Composers. Output records by 4c + k, layers and matrices by 8c + l, cursors by c, all as written; LUT and bitmap banks by
256·index + 16·table + bank, `lutBad` those lost to parity (R241); open loads (R420); writes held for a TARGET (R238). -/
structure CmpSt where
  out : Tab (BitVec 256)
  layer : Tab (BitVec 256)
  mat : Tab (BitVec 288)
  cur : Tab (BitVec 128)
  st : Tab CompSt
  laySt : Tab LayerSt
  banks : Tab (List Byte)
  lutBad : List Nat
  loads : List Load
  held : List Held
  deriving DecidableEq, Repr

def compOutReset (_ : Nat) : BitVec 256 := resetRec 256 CompOut.layout
def layerRecReset (_ : Nat) : BitVec 256 := resetRec 256 Layer.layout
def matReset (_ : Nat) : BitVec 288 := 0
def curReset (_ : Nat) : BitVec 128 := 0
def compStReset (_ : Nat) : CompSt := ⟨none, none, 0, 0, 0, []⟩
def layStReset (_ : Nat) : LayerSt := ⟨0, 0, none, none, false, false, 0⟩
def CmpSt.reset : CmpSt := ⟨[], [], [], [], [], [], [], [], [], []⟩


/-! ### Calliope (R242 to R268) -/

/-- A gain on its way to a setting (R259 to R261): the setting in 0.01 dB, the shape, where it starts and ends, in 2^-24 of full
amplitude or 2^-64 of 0.01 dB, its samples and those elapsed. -/
structure Ramp where
  goal : Int
  inDb : Bool
  from_ : Int
  to_ : Int
  len : Nat
  done : Nat
  deriving DecidableEq, Repr

/-- One source of a crossfade, newest first in its list: a tap delay, an input channel, or 16,384 × SRC_KIND + SRC_INDEX; its ramp, and
whether a non-PCM source has passed its block start. -/
structure Voice where
  src : Nat
  ramp : Ramp
  started : Bool
  deriving DecidableEq, Repr

/-- An input slot: the position it reads next, whether it is primed, the position of the tile to be mixed next, whether that follows
the one before, the words mixed at the last tick, and its slips. -/
structure InSt where
  attached : Bool
  pos : BitVec 32
  primed : Bool
  cur : Option (BitVec 32)
  join : Bool
  words : List (BitVec 32)
  slipUnder : Nat
  slipOver : Nat
  deriving DecidableEq, Repr

/-- Calliope: its records as written, input slots, crossfades and ramps (taps, input channels and output channels by 16·slot + c,
crosspoints by 128·bus + entry), gains held off by parity (R266), dynamics gains in 2^-64 dB, each bus's tile in the limiter's
look-ahead and its gain in 2^-64, counters, the times of the last BUS_CLIP and BUS_SATURATE, writes held for a TARGET, and whether
ticks run. -/
structure CalSt where
  ctl : BitVec 128
  audIn : Tab (BitVec 256)
  outHdr : Tab (BitVec 128)
  outCh : Tab (BitVec 64)
  bus : Tab (BitVec 256)
  busIn : Tab (BitVec 32)
  dyn : Tab (BitVec 256)
  inSt : Tab InSt
  tapMix : Tab (List Voice)
  inGain : Tab Ramp
  chMix : Tab (List Voice)
  chGain : Tab Ramp
  xpMix : Tab (List Voice)
  xpGain : Tab Ramp
  busGain : Tab Ramp
  dynG : Tab Int
  acc : Tab (List Int)
  limG : Tab Int
  offIn : List Nat
  offCh : List Nat
  offXp : List Nat
  offBus : List Nat
  clipOut : Tab Nat
  clipBus : Tab Nat
  satBus : Tab Nat
  blocked : Tab Nat
  blockedOnce : List Nat
  lastClip : Tab Nat
  lastSat : Tab Nat
  held : List Held
  run : Bool
  deriving DecidableEq, Repr

def calReset : BitVec 128 := 0
def audInReset (_ : Nat) : BitVec 256 := 0
def outHdrReset (_ : Nat) : BitVec 128 := 0
def outChReset (_ : Nat) : BitVec 64 := resetRec 64 AudCh.layout
def busReset (_ : Nat) : BitVec 256 := resetRec 256 Bus.layout
def busInReset (_ : Nat) : BitVec 32 := 0
def dynReset (_ : Nat) : BitVec 256 := resetRec 256 Dyn.layout
def inStReset (_ : Nat) : InSt := ⟨false, 0, false, none, false, [], 0, 0⟩
def rampReset (_ : Nat) : Ramp := ⟨0, false, 2 ^ 24, 2 ^ 24, 0, 0⟩
def voicesReset (_ : Nat) : List Voice := []
def intReset (_ : Nat) : Int := 0
def intsReset (_ : Nat) : List Int := []
def limReset (_ : Nat) : Int := 2 ^ 64
def CalSt.reset : CalSt :=
  ⟨0, [], [], [], [], [], [], [], [], [], [], [], [], [], [], [], [], [], [], [], [], [], [], [], [], [], [], [], [], [], false⟩

/-! ### What a resynchronisation copies (R358) -/

/-- The hardware-state records of a primary and the running state captured at Tr. -/
structure HwCopy where
  mem : MemSt
  bud : BudSt
  rte : RteSt
  sdi : SdiSt
  ref : RefSt
  eth : EthSt
  flo : FloSt
  cmp : CmpSt
  cal : CalSt
  priv : Tab (BitVec 64)
  inst : Tab (BitVec 256)
  servo : BitVec 256
  trp : BitVec 128
  link : Tab (BitVec 128)
  lane : Tab (BitVec 64)
  exp : Tab (BitVec 128)
  imp : Tab (BitVec 64)
  faultCtl : BitVec 256
  evCfg : Tab (BitVec 32)
  limits : Tab (Nat × Nat)
  mirrorSeq : BitVec 32
  deriving DecidableEq, Repr

end Sys2Proof.Machine
end

