-- ==== Sys2Proof/Syntax.lean ====
section
/-! DEFINITION. The commands: `Instr` has one constructor per row of spec/opcode_table.json. -/

namespace Sys2Proof

/-- The commands of the block: one constructor per row of the opcode table. A host command carries the request as it is
dequeued; an event carries what arrives from outside or is measured. -/
inductive Instr where
  /-- SESSION_INFO (R408): Returns the ID and version record. -/
  | sessionInfo (q : Req)
  /-- SESSION_OPEN (R409): Opens a notification session for selected event codes on P1, P2 or P3. -/
  | sessionOpen (q : Req)
  /-- SESSION_CLOSE (R409): Closes a notification session. -/
  | sessionClose (q : Req)
  /-- POWER_SET (R461): Requests a change of power state among WATCH, STAGING and ACTIVE. -/
  | powerSet (q : Req)
  /-- PROFILE_SET (R76): Checks every admitted claim against a new fabric profile and schedules the change for the next turn boundary. -/
  | profileSet (q : Req)
  /-- BUDGET_QUERY (R542): Returns the class budget entries and the per-resource budget entries. -/
  | budgetQuery (q : Req)
  /-- SESSION_RESET (R410): Requests a full software reset, a Troupe reset or a Ringmaster restart, to begin 1 ms after DONE. -/
  | sessionReset (q : Req)
  /-- PRIV_READ (R408): Returns one Port Privilege Table entry. -/
  | privRead (q : Req)
  /-- PRIV_WRITE (R384): Writes one Port Privilege Table entry, keeping its fixed bits. -/
  | privWrite (q : Req)
  /-- RING_CREATE (R53): Creates a ring after the ordered descriptor, format, depth, space and overlap checks. -/
  | ringCreate (q : Req)
  /-- RING_DELETE (R54): Deletes a ring that has no reader and no writer, and returns it to FREE. -/
  | ringDelete (q : Req)
  /-- RING_MODIFY (R54): Changes the descriptor of an IDLE ring under the creation and binding checks. -/
  | ringModify (q : Req)
  /-- RING_QUERY (R411): Returns a ring descriptor, its counters and its markers. -/
  | ringQuery (q : Req)
  /-- MEM_STATUS (R411): Returns the counters and the training state of a memory channel. -/
  | memStatus (q : Req)
  /-- FLOW_INSERT (R178): Inserts a flow-table entry by cuckoo placement, or refuses it. -/
  | flowInsert (q : Req)
  /-- FLOW_MODIFY (R412): Applies the Live fields of an existing flow-table entry found by its key. -/
  | flowModify (q : Req)
  /-- FLOW_DELETE (R179): Deletes a flow-table entry; a BOUND ring loses its writer. -/
  | flowDelete (q : Req)
  /-- FLOW_STATUS (R180): Returns the monitoring status of a flow entry and, for a BOUND entry, its ring counters. -/
  | flowStatus (q : Req)
  /-- INGEST_WRITE (R185): Writes the ingest record of a bound ring. -/
  | ingestWrite (q : Req)
  /-- MERGE_WRITE (R202): Writes a merge record and admits or releases a protected pair. -/
  | mergeWrite (q : Req)
  /-- MERGE_STATUS (R411): Returns a merge record, its leg states and its counters. -/
  | mergeStatus (q : Req)
  /-- HOSTQ_BIND (R391): Binds a host queue to a best-effort ring in one direction. -/
  | hostqBind (q : Req)
  /-- HOSTQ_UNBIND (R412): Unbinds a host queue, discards its descriptors and abandons an open capture unit. -/
  | hostqUnbind (q : Req)
  /-- HOST_INSERT (R394): Writes one fragment of a host insert unit into its ring. -/
  | hostInsert (q : Req)
  /-- CAPTURE_FRAMES (R412): Copies the next COMPLETE frames of a ring into a capture queue's ring. -/
  | captureFrames (q : Req)
  /-- PLANE_WRITE (R282): Writes a timing-plane record. -/
  | planeWrite (q : Req)
  /-- PULSE_WRITE (R287): Writes a pulse-output record. -/
  | pulseWrite (q : Req)
  /-- CLOCK_WRITE (R289): Writes a clock-output record. -/
  | clockWrite (q : Req)
  /-- PLANE_READ (R413): Returns a plane, pulse-output or clock-output record. -/
  | planeRead (q : Req)
  /-- ROUTE_WRITE (R101): Admits and writes the PENDING copy of a route entry as READY. -/
  | routeWrite (q : Req)
  /-- ROUTE_READ (R414): Returns both copies of a route entry and its bounds. -/
  | routeRead (q : Req)
  /-- ROUTE_STATUS (R414): Returns the REPEAT, SKIP, ramp and slip counters of an output. -/
  | routeStatus (q : Req)
  /-- SALVO_ADD (R417): Adds entries to a salvo, which becomes PREPARING. -/
  | salvoAdd (q : Req)
  /-- SALVO_ADMIT (R118): Admits every claim of a salvo on every member and writes its entries as HELD. -/
  | salvoAdmit (q : Req) (peers : List PeerAnswer)
  /-- SALVO_TAKE (R119): Arms a salvo at TARGET on every member, or handles a late take. -/
  | salvoTake (q : TakeReq)
  /-- SALVO_ABANDON (R122): Disarms a salvo within the deadline and clears its HELD entries. -/
  | salvoAbandon (q : Req) (peers : List PeerAnswer)
  /-- SALVO_QUERY (R416): Returns the state, members, count, TARGET and switched counts of a salvo. -/
  | salvoQuery (q : Req) (peers : List PeerAnswer)
  /-- SALVO_ENTRIES (R417): Returns entries of a salvo in the order in which they were added. -/
  | salvoEntries (q : Req)
  /-- PRESET_STORE (R126): Stores up to 1,024 salvo entries into a preset in MRAM. -/
  | presetStore (q : Req)
  /-- PRESET_LOAD (R126): Adds the entries of a preset to an EMPTY or PREPARING salvo. -/
  | presetLoad (q : Req)
  /-- PRESET_DELETE (R416): Deletes a stored preset. -/
  | presetDelete (q : Req)
  /-- PRESET_LIST (R416): Returns the entry count of every preset. -/
  | presetList (q : Req)
  /-- COMP_OUT_WRITE (R217): Writes a Composer output record, admitting claims when COMP_EN is set. -/
  | compOutWrite (q : Req)
  /-- COMP_LAYER_WRITE (R219): Writes a layer record as an admission against its source ring. -/
  | compLayerWrite (q : Req)
  /-- COMP_MATRIX_WRITE (R218): Writes the custom matrix of a layer. -/
  | compMatrixWrite (q : Req)
  /-- COMP_CURSOR_WRITE (R233): Writes the cursor record of a Composer. -/
  | compCursorWrite (q : Req)
  /-- COMP_LOAD (R420): Loads one chunk of a LUT or cursor bank, and commits the bank on the final chunk. -/
  | compLoad (q : Req)
  /-- COMP_READ (R418): Returns the output records and cursor record of a Composer. -/
  | compRead (q : Req)
  /-- COMP_LAYER_READ (R418): Returns a layer record, its matrix and its counters. -/
  | compLayerRead (q : Req)
  /-- CAL_WRITE (R244): Writes the Calliope control record. -/
  | calWrite (q : Req)
  /-- AUD_IN_WRITE (R248): Writes a Calliope input slot record, with tap delays. -/
  | audInWrite (q : Req)
  /-- AUD_OUT_WRITE (R250): Writes a Calliope output slot record and its channel entries. -/
  | audOutWrite (q : Req)
  /-- AUD_BUS_WRITE (R252): Writes a mix bus record. -/
  | audBusWrite (q : Req)
  /-- AUD_BUS_INPUTS (R421): Writes entries of a mix bus input list. -/
  | audBusInputs (q : Req)
  /-- AUD_DYN_WRITE (R256): Writes a dynamics instance record. -/
  | audDynWrite (q : Req)
  /-- AUD_READ (R421): Returns a Calliope record and its counters. -/
  | audRead (q : Req)
  /-- CAND_WRITE (R270): Writes a reference candidate record. -/
  | candWrite (q : Req)
  /-- REF_WRITE (R271): Writes the engine-wide reference record. -/
  | refWrite (q : Req)
  /-- REF_READ (R422): Returns the engine record, or a candidate record with its measurements. -/
  | refRead (q : Req)
  /-- PHASE_RESET (R276): Clears BUILDOUT and applies the change to every plane as a phase change. -/
  | phaseReset (q : Req)
  /-- PTP_INST_WRITE (R298): Writes a PTP instance record. -/
  | ptpInstWrite (q : Req)
  /-- PTP_SERVO_WRITE (R306): Writes the servo record. -/
  | ptpServoWrite (q : Req)
  /-- PTP_TS_CORR (R303): Sets the receive and transmit time-stamp corrections of a sub-port. -/
  | ptpTsCorr (q : Req)
  /-- PTP_SET_TIME (R309): Sets the local clock directly, rebasing it as a step. -/
  | ptpSetTime (q : Req)
  /-- PTP_READ (R422): Returns an instance record and its counters, or the servo record with a clock reading. -/
  | ptpRead (q : Req)
  /-- TROUPE_WRITE (R315): Writes the device-wide Troupe record. -/
  | troupeWrite (q : Req)
  /-- LINK_WRITE (R316): Writes a Svanum link record. -/
  | linkWrite (q : Req)
  /-- LANE_WRITE (R326): Writes a Svanum lane record. -/
  | laneWrite (q : Req)
  /-- TROUPE_IMPORT (R335): Admits an export and an import of a ring between two members in one step. -/
  | troupeImport (q : Req) (peers : List PeerAnswer)
  /-- TROUPE_UNIMPORT (R424): Stops an export, abandons the importer's open unit and releases the claims. -/
  | troupeUnimport (q : Req) (peers : List PeerAnswer)
  /-- TROUPE_FORWARD (R424): Forwards a command to another member and returns its response. -/
  | troupeForward (q : Req)
  /-- TROUPE_READ (R423): Returns a Troupe, link, lane, export or import record with its counters. -/
  | troupeRead (q : Req)
  /-- TWIN_WRITE (R346): Writes the twin record. -/
  | twinWrite (q : Req)
  /-- TWIN_READ (R423): Returns the twin record, heartbeat error counts and the twin's latest heartbeat. -/
  | twinRead (q : Req)
  /-- TWIN_SWAP (R363): Starts a planned exchange of twin roles at a TARGET. -/
  | twinSwap (q : Req)
  /-- REC_READ (R457): Returns up to seven valid recorder records from an effective start. -/
  | recRead (q : Req)
  /-- REC_CLEAR (R458): Writes a CLEARED record and raises the low-water mark to its sequence. -/
  | recClear (q : Req)
  /-- REC_LIMIT (R455): Sets the token-bucket rate and burst of one event code. -/
  | recLimit (q : Req)
  /-- FAULT_READ (R444): Returns the first-fault records, control record, STATUS and CAUSE. -/
  | faultRead (q : Req)
  /-- FAULT_CLEAR (R446): Clears the status of a code at one or every location, returning contained units to service. -/
  | faultClear (q : Req)
  /-- FAULT_FORCE (R445): Raises a forced event of a code at a location, with its full reaction. -/
  | faultForce (q : Req)
  /-- EVENT_CONFIG (R448): Sets the vector and enable of an event code. -/
  | eventConfig (q : Req)
  /-- UPD_BEGIN (R427): Opens a write of the inactive image slot and marks it INCOMPLETE. -/
  | updBegin (q : Req)
  /-- UPD_CHUNK (R490): Programs one chunk of the image into the inactive slot. -/
  | updChunk (q : Req) (programFails : Bool)
  /-- UPD_END (R427): Closes the image write and compares its CRC. -/
  | updEnd (q : Req)
  /-- UPD_ACTIVATE (R491): Marks a WRITTEN slot ACTIVE and schedules a Ringmaster restart. -/
  | updActivate (q : Req) (verdict : ImageVerdict)
  /-- UPD_QUERY (R426): Returns the slot table. -/
  | updQuery (q : Req)
  /-- TEST_GEN (R498): Starts, changes or stops a pattern generator on a lane, with error injection. -/
  | testGen (q : Req)
  /-- TEST_CHECK (R500): Starts or stops a pattern checker on a lane and clears its counters. -/
  | testCheck (q : Req)
  /-- TEST_LOOP (R501): Sets or clears a loopback point on a lane. -/
  | testLoop (q : Req)
  /-- TEST_RESULT (R500): Returns the checker counts, lock state and eye score of a lane. -/
  | testResult (q : Req)
  /-- TEST_MEM (R503): Writes and reads back a pattern on the named memory channels. -/
  | testMem (q : Req)
  /-- TEST_SHADOW (R504): Checks the transmit path of a shadow up to the output drivers. -/
  | testShadow (q : Req)
  /-- SDI_WRITE (R154): Writes an SDI lane configuration record. -/
  | sdiWrite (q : Req)
  /-- ETH_WRITE (R161): Writes a media port configuration record. -/
  | ethWrite (q : Req)
  /-- ETH_ADDR_WRITE (R162): Writes the address record of a sub-port. -/
  | ethAddrWrite (q : Req)
  /-- PKT_FLOW_WRITE (R195): Writes a packetiser flow record and its header template. -/
  | pktFlowWrite (q : Req)
  /-- SB_WRITE (R395): Writes the service-bus MAC record. -/
  | sbWrite (q : Req)
  /-- PORT_SNAPSHOT (R174): Copies the counters of the named ports to their shadow banks in one cycle. -/
  | portSnapshot (q : Req)
  /-- PORT_READ (R430): Returns a lane, port, address, flow, shadow bank, service-bus or packet output record with status. -/
  | portRead (q : Req)
  /-- PKT_OUT_WRITE (R196): Writes the packet output record of an output. -/
  | pktOutWrite (q : Req)
  /-- DB (R387): Host doorbell write that stamps receipt, queues the mailbox request and locks its buffer. -/
  | db (n : Fin 64) (seq : BitVec 16)
  /-- REQUEST_BUFFER_WRITE (R387): Host write to a mailbox request buffer, discarded while the buffer is locked. -/
  | requestBufferWrite (n : Fin 64) (off : Fin 1024) (bytes : List Byte)
  /-- DONE_MAP_CLEAR (R386): Write-one-to-clear of DONE_MAP bits. -/
  | doneMapClear (mask : BitVec 64)
  /-- POP (R392): Removes the head descriptor of a host queue. -/
  | pop (h : Fin 16)
  /-- RELEASE (R393): Sets RELSEQ of a host queue's ring, or is ignored when out of range. -/
  | release (h : Fin 16) (eseq : BitVec 32)
  /-- FORCE (R445): 8-byte write to the FORCE register that raises a forced event. -/
  | force (w : BitVec 64) (whole : Bool)
  /-- PENDING_CLEAR (R449): Write-one-to-clear of an event code's PENDING bit, re-arming its vector. -/
  | pendingClear (c : Fin 256)
  /-- BLK_RST (R474): Holds the selected block in reset and clears its running state. -/
  | blkRst (mask : BitVec 64)
  /-- FULL_RST (R470): Writing 0xA5 causes a full software reset. -/
  | fullRst (v : BitVec 8)
  /-- CNT_CLEAR (R472): Clears the backup reset counters and TOTAL. -/
  | cntClear (v : Bool)
  /-- MAINT (R375): Write of the BAR2 maintenance bit, taken only in STAGING with no ring RUNNING. -/
  | maint (v : Bool)
  /-- DEC_VALID_CLEAR (R378): Write-one-to-clear of the Midway decode-error log and DEC_COUNT. -/
  | decValidClear
  /-- ABORT_VALID_CLEAR (R378): Write-one-to-clear of the Midway abort log and ABORT_COUNT. -/
  | abortValidClear
  /-- RTC_SEC (R466): Write of RTC seconds, which restarts RTC_SUB at 0. -/
  | rtcSec (sec : BitVec 48)
  /-- PTP_NOW_READ (R373): Read of the low word of PTP_NOW, latching the high word for the next read. -/
  | ptpNowRead
  /-- REGISTER_WRITE (R372): BAR0 write to a register that has no behaviour of its own. -/
  | registerWrite (off : BitVec 18) (wide : Bool) (v : BitVec 64)
  /-- DEFAULT_TARGET_ACCESS (R379): An access that decodes to the Midway default target and gets an error response. -/
  | defaultTargetAccess (addr : BitVec 40) (master : Fin 10) (write : Bool)
  /-- BAR2_READ (R374): Host read of the Tile Store window, verified per tile in best-effort slots. -/
  | bar2Read (off : BitVec 32) (len : Fin 4097)
  /-- BAR2_WRITE (R375): Host write to the Tile Store window, discarded unless MAINT is 1. -/
  | bar2Write (off : BitVec 32) (bytes : List Byte)
  /-- P2_REQUEST (R382): A service-bus request frame taken whole and queued, or answered with E_BUSY. -/
  | p2Request (opcode : BitVec 16) (q : Req)
  /-- P3_REQUEST (R382): An in-band management datagram request taken whole and queued, or answered with E_BUSY. -/
  | p3Request (opcode : BitVec 16) (q : Req)
  /-- FORWARDED_COMMAND (R341): A command forwarded from another member over Svanum Link, checked against P1 and executed. -/
  | forwardedCommand (opcode : BitVec 16) (q : Req)
  /-- FORWARDED_RESPONSE (R341): A response to a forwarded command arriving at the origin. -/
  | forwardedResponse (member : Fin 8) (seq : BitVec 16) (bytes : List Byte)
  /-- COMMAND_DEADLINE (R389): A command reaches its deadline before its commit and returns E_TIMEOUT. -/
  | commandDeadline (port : Port) (chan sender : Nat) (seq : BitVec 16)
  /-- EXTEST (R505): JTAG boundary-scan EXTEST instruction. -/
  | extest (bits : List Byte)
  /-- IDCODE (R505): JTAG instruction that returns the device identification code. -/
  | idcode
  /-- SAMPLE_PRELOAD (R505): JTAG SAMPLE/PRELOAD instruction. -/
  | samplePreload (bits : List Byte)
  /-- HALT (R479): JTAG instruction that reads the halt record. -/
  | halt
  /-- COMMAND (R382): JTAG instruction that selects the P4 request data register. -/
  | command (bytes : List Byte)
  /-- DOORBELL (R382): JTAG instruction that marks receipt of a P4 request. -/
  | doorbell (opcode : BitVec 16) (q : Req)
  /-- BYPASS (R505): JTAG BYPASS instruction, taken also for every unavailable code. -/
  | bypass (code : BitVec 8)
  /-- TURN_START (R69): At each turn start the Carousel adds every claim's credits to its accumulator. -/
  | turnStart
  /-- PROFILE_CHANGE (R76): An accepted profile change takes effect at the turn boundary and the response is sent. -/
  | profileChange
  /-- CHANNEL_TRAINING (R30): Training of a memory channel completes or fails. -/
  | channelTraining (ch : Fin 16) (responds : BitVec 16) (ok : Bool)
  /-- RECENTRE (R32): Periodic or temperature-driven re-centring of a channel, with the on-die ECC counters read. -/
  | recentre (ch : Fin 16) (ok moved : Bool) (ecc : BitVec 32)
  /-- TILE_COMMIT (R41): A staged tile and its check record are committed in a write slot and the write pointer advances. -/
  | tileCommit (ring : Fin 8192)
  /-- TILE_READ (R59): A reader group reads a tile in its slot, verifies it and conceals on failure. -/
  | tileRead (reader : Reader) (eseq : BitVec 32) (cache : CacheErr)
  /-- BUDGET_RECOUNT (R98): The firmware's recount of USED after a budget table parity error completes. -/
  | budgetRecount
  /-- BUDGET_TABLE_ERROR (R98): A parity error in the budget table blocks admissions until a recount. -/
  | budgetTableError
  /-- LATCH (R109): The switch engine reads an output's PENDING copy at switch point minus the lead. -/
  | latch (o : Fin 2048)
  /-- SWITCH_POINT (R110): An output applies its new entry from the switch line of the switch frame. -/
  | switchPoint (o : Fin 2048)
  /-- FRAME_SELECT (R106): A frame-synchronous reader chooses its source frame before an output frame start. -/
  | frameSelect (o : Fin 2048)
  /-- CLAIM_RELEASE (R102): Claims of readers that no longer serve an output are released at the end of the switch frame or ramp. -/
  | claimRelease (o : Fin 2048) (audio : Bool)
  /-- AUDIO_LATCH (R262): The audio stage reads the PENDING copy at its audio latch and starts the ramps. -/
  | audioLatch (o : Fin 2048)
  /-- TAKE_ACK (R124): A member's acknowledgement of its arming arrives at the origin. -/
  | takeAck (salvo : Fin 64) (member : Fin 8)
  /-- TAKE_ACK_DEADLINE (R125): Acknowledgements are still missing at the latch of the earliest output. -/
  | takeAckDeadline (salvo : Fin 64)
  /-- ROUTE_TABLE_PARITY (R128): A route table parity error switches the output to its Safety Net generator. -/
  | routeTableParity (o : Fin 2048)
  /-- OUTPUT_FRAME_START (R150): An output's frame start, at which transmitters start, stop, switch to generators or change hands. -/
  | outputFrameStart (o : Fin 2048)
  /-- SIGNAL_PRESENCE (R135): Signal presence is detected on an SDI receiver and a search starts. -/
  | signalPresence (l : Fin 144)
  /-- SIGNAL_ABSENCE (R135): The signal has been absent for 10 µs and the lane enters NO_SIGNAL. -/
  | signalAbsence (l : Fin 144)
  /-- RATE_ATTEMPT (R135): A 200 µs CDR rate attempt ends without lock and the next rate is tried. -/
  | rateAttempt (l : Fin 144)
  /-- CDR_LOCK (R135): The CDR locks at a rate and TRS alignment begins. -/
  | cdrLock (l : Fin 144)
  /-- TRS_ALIGNMENT (R135): A TRS is found and the lane enters CDR_LOCKED. -/
  | trsAlignment (l : Fin 144)
  /-- TRS_SEARCH_TIMEOUT (R135): No TRS within 130 µs of CDR lock; the search continues at the next rate. -/
  | trsSearchTimeout (l : Fin 144)
  /-- CDR_LOCK_LOSS (R139): The CDR loses lock; writers abandon their units and the lane searches again. -/
  | cdrLockLoss (l : Fin 144)
  /-- SDI_LINE (R138): A received line is checked by the flywheel, written, and its ancillary data and audio extracted. -/
  | sdiLine (l : Fin 144) (info : LineInfo)
  /-- SDI_FRAME (R136): A received frame ends and is used to establish, confirm or change the format. -/
  | sdiFrame (l : Fin 144) (info : FrameInfo)
  /-- LOCK_TIMEOUT (R137): LOCK_TIMEOUT expires before FORMAT_LOCKED and the search restarts. -/
  | lockTimeout (x : RxId)
  /-- AUDIO_GROUP_ABSENCE (R145): An audio group of a bound slot has been absent for 1 ms and its channels are written as zero. -/
  | audioGroupAbsence (x : RxId) (group : Fin 8)
  /-- SDI_TX_FAULT (R156): The driver's stage monitor finds a short or open output and the transmitter goes quiet. -/
  | sdiTxFault (l : Fin 144)
  /-- SUBPORT_TRAINED (R159): Training of a sub-port completes and it becomes UP. -/
  | subportTrained (p : Fin 32)
  /-- SUBPORT_LINK_LOSS (R160): A sub-port loses its link, its alignment or too many FEC codewords and enters TRAINING. -/
  | subportLinkLoss (p : Fin 32) (fec : List (Nat × Nat))
  /-- FRAME_RECEIVED (R165): A received Ethernet frame is judged by length and FCS, classified, and passed to its queue or depacketiser. -/
  | frameReceived (p : Fin 32) (f : EthFrame)
  /-- PAUSE_FRAME (R170): A PAUSE frame is counted and obeyed or ignored. -/
  | pauseFrame (p : Fin 32) (quanta : BitVec 16)
  /-- PFC_FRAME (R170): A PFC frame is counted and obeyed for its priorities or ignored. -/
  | pfcFrame (p : Fin 32) (enable : BitVec 8) (quanta : List (BitVec 16))
  /-- PAUSE_HOLD_END (R170): A pause hold's quanta run out and egress of the class resumes. -/
  | pauseHoldEnd (p : Fin 32) (media : Bool)
  /-- PAUSE_WATCHDOG_EXPIRY (R172): A hold has lasted PAUSE_WD; transmission resumes and pause is ignored for one period. -/
  | pauseWatchdogExpiry (p : Fin 32) (media : Bool)
  /-- PAUSE_IGNORE_END (R172): The period in which pause frames are ignored ends. -/
  | pauseIgnoreEnd (p : Fin 32) (media : Bool)
  /-- MGMT_FRAME_SEND (R169): A sub-port starts a waiting management frame in a gap of the media schedule. -/
  | mgmtFrameSend (p : Fin 32)
  /-- PACKET_DEPARTURE (R200): A packetiser flow's packet leaves at its scheduled time. -/
  | packetDeparture (f : Fin 4096)
  /-- FLOW_WINDOW (R180): A 1 ms window ends and each flow entry's byte sum is judged against DECL_RATE. -/
  | flowWindow
  /-- ABSENT_TIMEOUT (R180): ABSENT_TIME passes without a matching packet and the entry becomes ABSENT. -/
  | absentTimeout (e : Fin 262160)
  /-- MEMBERSHIP_REPORT (R181): A scheduled IGMP or MLD report or leaving message is sent. -/
  | membershipReport (p : Fin 32) (group : BitVec 128) (v6 leaving : Bool)
  /-- QUERY (R181): A membership query is received and answered within its response time. -/
  | query (p : Fin 32) (v6 : Bool) (version : Fin 4) (group : BitVec 128)
  /-- QUERIER_TIMEOUT (R182): The older-querier timeout expires and the sub-port returns to current-version reports. -/
  | querierTimeout (p : Fin 32) (v6 : Bool)
  /-- FLOW_TABLE_CORRECTED (R183): A single-bit error in a flow-table entry is corrected in place. -/
  | flowTableCorrected (e : Fin 262160)
  /-- FLOW_TABLE_UNCORR (R183): An uncorrectable flow-table entry is disabled. -/
  | flowTableUncorr (e : Fin 262160)
  /-- AUDIO_TILE_TIMEOUT (R189): An IP audio tile closes 2 ms after the media time of its last sample, poisoned if samples are missing. -/
  | audioTileTimeout (ring : Fin 8192)
  /-- MERGE_DECISION (R206): At t_dec the Merge Unit writes a tile from the legs delivered, or conceals. -/
  | mergeDecision (m : Fin 1024)
  /-- COMPOSER_LATCH (R238): A Composer latches its pending records at the switch line of its output format. -/
  | composerLatch (c : Fin 16) (k : Fin 4)
  /-- COMPOSER_FRAME_START (R234): At F a Composer starts, stops or begins a frame, choosing layer frames and sampling the cursor. -/
  | composerFrameStart (c : Fin 16) (k : Fin 4)
  /-- COMP_LUT_PARITY (R241): A LUT parity error makes the affected bank act as identity. -/
  | compLutParity (table : Fin 3) (bank : Fin 2) (i : Fin 128)
  /-- CALLIOPE_TICK (R244): Each millisecond Calliope reads every tap, processes every output slot and applies held writes. -/
  | calliopeTick
  /-- AUDIO_READER_TILE (R245): An audio reader reads one tile per millisecond and slips on underrun or overrun. -/
  | audioReaderTile (o : Fin 2048) (slot : Fin 4)
  /-- TAP_CROSSFADE_END (R249): A 5 ms tap-delay crossfade ends and the second read claim is released. -/
  | tapCrossfadeEnd (slot : Fin 1024) (tap : Fin 4)
  /-- CAL_COEFF_PARITY (R266): A parity error in a gain, tap or bus setting ramps it to off. -/
  | calCoeffParity (what : CalCoeff)
  /-- REF_EVALUATION (R273): Once per second every candidate's windows are updated, its state moved and the selection re-evaluated. -/
  | refEvaluation (meas : List Measure) (phases : List Int) (corr : BitVec 32)
  /-- ACTIVITY_LOSS (R273): A candidate loses activity and becomes ABSENT; a selected one sends the engine to HOLDOVER. -/
  | activityLoss (c : Fin 16)
  /-- SETTLE_EXPIRY (R276): SETTLE runs out in holdover and the best qualified candidate is selected with build-out. -/
  | settleExpiry (phases : List Int)
  /-- WTR_EXPIRY (R274): A better-ranked candidate has stayed QUALIFIED for WTR and displaces the selected one. -/
  | wtrExpiry (c : Fin 16) (phase : Int)
  /-- ACQUISITION_STAGE (R277): The loop leaves an acquisition stage once its dwell has passed with the error below threshold. -/
  | acquisitionStage
  /-- HOLD_LIMIT_EXPIRY (R281): Holdover has lasted HOLD_LIMIT. -/
  | holdLimitExpiry
  /-- PLANE_FRAME_START (R284): A plane's frame boundary, at which a pending phase step is applied. -/
  | planeFrameStart (p : Fin 8)
  /-- SLEW_COMPLETE (R285): PHASE_LEFT reaches 0 and a phase slew ends. -/
  | slewComplete (p : Fin 8)
  /-- ANALOG_SYNC_FRAME (R291): A frame of analog sync is detected on A0 or A1, making the input active or inactive. -/
  | analogSyncFrame (c : Fin 2) (detected : SyncSeen) (amplitude : BitVec 16)
  /-- REF_PLL_FAULT (R279): A fault in the loop hardware sends the device to Safety Net. -/
  | refPllFault
  /-- SYNC (R307): A PTP Sync is received; a complete exchange steers the servo. -/
  | sync (i : Fin 4) (m : SyncMsg)
  /-- FOLLOW_UP (R297): A PTP Follow_Up completes a two-step Sync. -/
  | followUp (i : Fin 4) (seq : BitVec 16) (t1 corr : Int)
  /-- FOLLOW_UP_TIMEOUT (R297): No Follow_Up within one Sync interval and the two-step Sync is discarded. -/
  | followUpTimeout (i : Fin 4)
  /-- ANNOUNCE (R312): A PTP Announce is received and fed to the best master clock algorithm. -/
  | announce (i : Fin 4) (m : AnnounceMsg)
  /-- DELAY_RESP (R307): A PTP Delay_Resp is received and yields a path-delay sample. -/
  | delayResp (i : Fin 4) (seq : BitVec 16) (t4 corr : Int)
  /-- DELAY_REQ (R298): A Delay_Req or Pdelay_Req is sent at its interval. -/
  | delayReq (i : Fin 4) (soft : Bool)
  /-- PDELAY_REQ (R297): A received Pdelay_Req is answered as a two-step responder. -/
  | pdelayReq (i : Fin 4) (seq : BitVec 16) (soft : Bool)
  /-- PDELAY_RESP (R297): A PTP Pdelay_Resp is received. -/
  | pdelayResp (i : Fin 4) (seq : BitVec 16) (t2 corr : Int) (soft : Bool)
  /-- PDELAY_RESP_FOLLOW_UP (R297): A PTP Pdelay_Resp_Follow_Up is received, completing a peer delay sample. -/
  | pdelayRespFollowUp (i : Fin 4) (seq : BitVec 16) (t3 corr : Int)
  /-- PTP_MANAGEMENT_MESSAGE (R296): A PTP management or signalling message is counted and ignored. -/
  | ptpManagementMessage (i : Fin 4)
  /-- ANNOUNCE_TIMEOUT (R311): No Announce for ANN_TIMEOUT intervals and the instance loses its parent. -/
  | announceTimeout (i : Fin 4)
  /-- SYNC_TIMEOUT (R311): No Sync for 16 Sync intervals and the instance loses its parent. -/
  | syncTimeout (i : Fin 4)
  /-- ENGINE_TIME_READING (R307): Once per second the servo steers PTP time to engine time when SERVO_SRC is 1. -/
  | engineTimeReading
  /-- RTC_UPDATE (R302): Once per minute while LOCKED the firmware writes the RTC from PTP time. -/
  | rtcUpdate
  /-- PTP_CLOCK_FAULT (R314): A parity or counter fault in the local clock sends the device to Safety Net. -/
  | ptpClockFault
  /-- LINK_DETECT (R327): Markers are found at DETECT and the link moves to EXCHANGE. -/
  | linkDetect (k : Fin 7) (found : BitVec 8)
  /-- CAPABILITY (R329): A CAPABILITY cell is received and the peer is checked. -/
  | capability (k : Fin 7) (cap : CapCell)
  /-- BRINGUP_DECISION (R327): A bring-up decision from the lower-numbered end arrives and is applied at a lane marker. -/
  | bringupDecision (k : Fin 7) (rate : Fin 4) (lanes : BitVec 8)
  /-- RATE_STEP (R327): A bring-up rate step ends after its eye test, dropping lanes or falling back. -/
  | rateStep (k : Fin 7) (eyes : List Nat)
  /-- SENSE_ADAPT (R328): Under SENSE the lanes finish adapting and polarity and order are corrected. -/
  | senseAdapt (k : Fin 7) (inverted : BitVec 8) (order : LaneOrder)
  /-- LINK_ALIGN (R327): Codewords decode on every lane and the link becomes UP or DEGRADED. -/
  | linkAlign (k : Fin 7)
  /-- LINK_RETRY (R329): A link not UP in time restarts bring-up after 100 ms. -/
  | linkRetry (k : Fin 7)
  /-- LANE_MARKER (R332): A lane marker arrives or is missed, and a lane fails after missing markers or stuffing errors. -/
  | laneMarker (lane : Fin 48) (arrived : Bool) (stuffing : Nat)
  /-- LANE_DROP (R332): The LANE_DROP message drops a failed lane and the link re-stripes. -/
  | laneDrop (k : Fin 7) (lane : Fin 48)
  /-- SPARE_LANE_TRAINED (R333): A spare lane finishes training and the link returns to UP. -/
  | spareLaneTrained (k : Fin 7) (lane : Fin 48)
  /-- ELECTRICAL_IDLE (R330): A lane with nothing to send for 1 µs enters electrical idle. -/
  | electricalIdle (lane : Fin 48)
  /-- EYE_UPDATE (R331): Every 1 ms a receiver updates its eye score and adaptation. -/
  | eyeUpdate (lane : Fin 224) (h v : BitVec 8)
  /-- IMPORT_TILE (R336): Seventeen TILE cells are taken as one tile and written into the import ring. -/
  | importTile (i : Fin 4096) (cells : TileCells)
  /-- ABANDON (R336): An ABANDON cell makes the importer abandon its open unit. -/
  | abandon (i : Fin 4096) (skipped resume : BitVec 32)
  /-- TIME_CELL (R339): A TIME cell is received and used for Troupe time and leader selection. -/
  | timeCell (k : Fin 8) (cell : TimeCell)
  /-- TIME_CELL_SEND (R339): Every 1 ms each end of every UP link sends a TIME cell. -/
  | timeCellSend (k : Fin 8)
  /-- BOOT_IMAGE_REQUEST (R481): A boot peer's request for the active image is served by member 0. -/
  | bootImageRequest (k : Fin 7)
  /-- ROLE_CHOICE (R347): After listening for HB_LIMIT on entry to ACTIVE, a twin chooses its role. -/
  | roleChoice
  /-- HEARTBEAT_SEND (R350): Every whole millisecond a twin sends a heartbeat on each path. -/
  | heartbeatSend
  /-- HEARTBEAT (R359): A heartbeat is received on a path and may trigger a takeover. -/
  | heartbeat (pathB : Bool) (bytes : List Byte)
  /-- PATH_SILENCE (R351): A path has carried no valid heartbeat for HB_LIMIT. -/
  | pathSilence (pathB : Bool)
  /-- TWIN_ONAIR_IN_FALL (R359): TWIN_ONAIR_IN falls on a shadow and ONAIR_CONFIRM starts. -/
  | twinOnairInFall
  /-- ONAIR_CONFIRM_EXPIRY (R359): ONAIR_CONFIRM runs out with no confirming heartbeat and a takeover is decided. -/
  | onairConfirmExpiry
  /-- TAKEOVER_POINT (R361): At Y the twins exchange roles and ONAIR_OUT. -/
  | takeoverPoint
  /-- MIRROR (R353): A mirrored command arrives at the shadow over path A and is executed. -/
  | mirror (mseq : BitVec 32) (opcode : BitVec 16) (q : Req) (status : BitVec 16) (target : BitVec 64)
  /-- MIRROR_ACK (R354): The shadow's acknowledgement arrives and the primary sends the host response. -/
  | mirrorAck (mseq : BitVec 32) (status : BitVec 16)
  /-- MIRROR_APPLY (R353): Both twins apply a mirrored command at the first point at or after its TARGET. -/
  | mirrorApply
  /-- MIRROR_ACK_TIMEOUT (R354): No acknowledgement by TARGET minus 200 µs and the shadow becomes UNSYNCED. -/
  | mirrorAckTimeout
  /-- DIGEST_SEND (R357): Every 1 ms a twin sends its output digests over path A. -/
  | digestSend
  /-- DIGEST (R358): A twin's digest message is received and compared. -/
  | digest (entries : List DigestEntry)
  /-- DIGEST_MISSING (R358): A digest has been missing for more than 10 ms. -/
  | digestMissing (o : Fin 2048)
  /-- RESYNC_START (R358): The primary starts a resynchronisation, chooses Tr and copies its state. -/
  | resyncStart
  /-- RESYNC_POINT (R358): At Tr the shadow takes on the copied state and mirroring resumes. -/
  | resyncPoint (copy : Machine.HwCopy)
  /-- RESYNC_TIMEOUT (R358): The shadow is not SYNCED within 5 s of Tr. -/
  | resyncTimeout
  /-- HOST_LINK_CHANGE (R370): The USB4 link or tunnel is lost, returns or changes rate. -/
  | hostLinkChange (rate : Fin 4)
  /-- PCIE_RESET (R370): A hot reset or function-level reset clears only the function's PCIe configuration. -/
  | pcieReset
  /-- RECORD_WRITE (R453): The firmware drains a queued event, applies the rate limits and writes or suppresses its record. -/
  | recordWrite (programFails : Bool)
  /-- FATAL_FAULT_RESET (R436): FATAL_DELAY runs out in Safety Net with FATAL_RESET set and the device resets. -/
  | fatalFaultReset
  /-- COLLECTOR_PARITY (R443): A parity error in the collector or event controller enters Safety Net by the dedicated path. -/
  | collectorParity
  /-- MRAM_CORRECTED (R451): A single-bit MRAM error is corrected and rewritten. -/
  | mramCorrected (region : Fin 64)
  /-- MRAM_UNCORR (R451): An uncorrectable MRAM error marks its region bad. -/
  | mramUncorr (region : Fin 64)
  /-- SRAM_CORRECTED (R451): A single-bit Ringmaster SRAM error is corrected. -/
  | sramCorrected
  /-- SRAM_UNCORR (R451): An uncorrectable SRAM error restarts the Ringmaster. -/
  | sramUncorr
  /-- SUPPLY_WARN (R451): A supply monitor leaves or returns to its warning band. -/
  | supplyWarn (m : Fin 6) (quad : Fin 5) (mv : BitVec 16) (back : Bool)
  /-- SUPPLY_FAIL (R451): A supply leaves its operating limits and the device enters Safety Net. -/
  | supplyFail (m : Fin 6) (quad : Fin 5) (mv : BitVec 16)
  /-- SKEW_SAMPLE (R469): A quadrant supply or temperature sample is taken and judged for skew. -/
  | skewSample (temperature : Bool) (v0 v1 v2 v3 : Int)
  /-- THERMAL_OVER (R451): A quadrant exceeds 105 °C and its Composers are isolated. -/
  | thermalOver (quad : Fin 4) (degrees : Int)
  /-- THERMAL_TRIP (R465): A quadrant reaches 125 °C; the device squelches, enters Safety Net and goes to WATCH. -/
  | thermalTrip (quad : Fin 4) (degrees : Int)
  /-- QPLL_UNLOCK (R451): A quadrant PLL loses lock and the device enters Safety Net. -/
  | qpllUnlock (quad : Fin 4)
  /-- VBAK_LOW (R509): VBAK falls below its minimum while VAUX is present. -/
  | vbakLow
  /-- RM_WATCHDOG (R451): The Ringmaster watchdog expires and the Ringmaster restarts. -/
  | rmWatchdog
  /-- RINGMASTER_RESTART (R433): The Ringmaster restarts, clearing firmware state and mailboxes, 1 ms after an activation or restart command. -/
  | ringmasterRestart
  /-- IMAGE_CHECK (R486): The boot ROM finishes checking an image and starts it or enters Rescue Boot. -/
  | imageCheck (verdict : ImageVerdict)
  /-- FIRMWARE_START (R480): The firmware completes its start, records FW_START and sets FW_UP. -/
  | firmwareStart (major minor : BitVec 8) (build : BitVec 16)
  /-- BUDGET_REBUILD (R84): After a restart the firmware's rebuild agrees with USED and admissions resume. -/
  | budgetRebuild
  /-- SOFTWARE_RESET (R470): A full software or Troupe reset begins 1 ms after the response. -/
  | softwareReset
  /-- WATCH_ENTRY (R463): The fast clocks stop 1 ms after POWER_SET to WATCH. -/
  | watchEntry
  /-- POWER_ON (R470): VAUX rises and a power-on reset runs the full release sequence. -/
  | powerOn
  /-- VAUX_LOSS (R461): VAUX falls below its threshold and the device enters BACKUP. -/
  | vauxLoss
  /-- VBAK_LOSS (R470): VBAK falls below 1.2 V without VAUX and the backup domain restarts. -/
  | vbakLoss
  /-- RESET_N (R470): RESET_N goes low and holds every fast domain in reset. -/
  | resetN
  /-- RESET_N_RISE (R475): The deglitched rise of RESET_N starts strap sampling. -/
  | resetNRise
  /-- STRAP_SAMPLING (R475): A triple of strap samples is taken and the straps latched or resampled. -/
  | strapSampling (s1 s2 s3 : BitVec 8)
  /-- TRIM_LOAD (R478): A trim copy finishes loading and is applied, or the loader retries or halts. -/
  | trimLoad (copyB ok : Bool)
  /-- RELEASE_STEP (R477): The next region of the release sequence is released after its gap. -/
  | releaseStep
  /-- WAKE_START (R465): A wake source starts the release sequence from WATCH. -/
  | wakeStart (source : WakeSource)
  /-- BOOT_PEER_RETRY (R480): A boot from member 0 repeats its image request every 100 ms. -/
  | bootPeerRetry
  /-- BLOCK_RESET_RELEASE (R474): A block reset ends after 1,024 XO cycles and the block runs as its records say. -/
  | blockResetRelease (b : Fin 57)
  /-- UNDEFINED_OPCODE (R5): A dequeued request whose opcode the running release does not define is answered with E_UNKNOWN_OP, or with E_DECODE for a malformed header, and nothing changes. -/
  | undefinedOpcode (opcode : BitVec 16) (q : Req)
  /-- PULSE_INPUT_EDGE (R292): An edge arrives on pulse input P0 to P3; it is time-stamped, restores activity, latches ACT_P in WATCH and feeds a regenerating pulse output. -/
  | pulseInputEdge (p : Fin 4)
  /-- PULSE_OUTPUT_EDGE (R290): A pulse output or clock output reaches its next scheduled edge, where it starts, ends, or lengthens one period after an OFFSET change. -/
  | pulseOutputEdge (o : Fin 10)
  /-- TWIN_ONAIR_IN_RISE (R359): TWIN_ONAIR_IN rises, starting the 1 ms during which it must stay high before a later fall counts. -/
  | twinOnairInRise
  /-- SUPPLY_RETURN (R451): A supply that had left its operating limits comes back within them, and the CAUSE of SUPPLY_FAIL is released. -/
  | supplyReturn (m : Fin 6) (quad : Fin 5) (mv : BitVec 16)
  /-- TEMPERATURE_TRIP_REARM (R464): A quadrant falls below 100 °C and its 105 °C or 125 °C trip re-arms, ending the CAUSE of THERMAL_OVER or THERMAL_TRIP and unblocking a wake or power-on. -/
  | temperatureTripRearm (quad : Fin 4)
  /-- QUADRANT_PLL_LOCK (R477): All four quadrant PLLs lock after TRIM_DONE, releasing step 2 when that falls later than one gap. -/
  | quadrantPllLock
  /-- MEMORY_TEST_COMPLETE (R503): A TEST_MEM pass over the named channels ends within 200 ms and returns its error counts. -/
  | memoryTestComplete (errors : List (BitVec 32))
  /-- SHADOW_CHECK_COMPLETE (R504): TEST_SHADOW finishes checking two whole frames, or one frame period of packets, and reports PASS, FAIL and FAILED. -/
  | shadowCheckComplete (failed : BitVec 144)
  /-- CHECKER_LOCK (R500): A pattern checker becomes LOCKED after 128 matching bits, or loses lock after more than 256 errors in 1,024 bits. -/
  | checkerLock (lane : Fin 224) (locked : Bool) (bits errors : BitVec 64)
  deriving DecidableEq, Repr

end Sys2Proof
end

