-- ==== Sys2Proof/Decode.lean ====
section
/-! DEFINITION. The opcode table gives no row any bits (every row's field list is empty), so no word spells a command: a
command reaches the block as a whole request or event, never as an instruction word. -/

namespace Sys2Proof

/-- The command a word of `nbits` bits spells by the opcode table: none, because no row of the table has bits. -/
def decodeTableWord (_nbits _w : Nat) : Option Instr := none

end Sys2Proof
end

