-- ==== Sys2Proof/Config.lean ====
section
/-! DEFINITION. What an implementation fixes and what the spec leaves open: the fuses of one part, and the free values.
A free value is an opaque function with no body: no proof can see a value of it, and a claim holds whatever it is. -/

namespace Sys2Proof.Config

/-- The fused unit ID of R373: fixed for one part, not given by the spec. -/
opaque unitId : BitVec 64

/-- The debug fuse of R478 and R505: `true` = blown. Fixed for one part. -/
opaque debugFuse : Bool

/-- The format version a preset header carries (R126): not given by the spec. -/
opaque presetVersion : BitVec 16

/-- A fresh word for each use: the argument is the counter `State.free` the step reads and advances. -/
opaque freeWord : Nat → BitVec 64

/-- The first RTP sequence number of a packet flow (R113): by the flow and the PTP time of its enable. -/
opaque firstSeq : Nat → Nat → BitVec 32

/-- The hash of a flow key in a way of the flow table (R175): fixed and the same on every device, not given by the spec. -/
opaque flowHash : Nat → BitVec 384 → Nat

/-- A byte of a tile whose contents are undefined after a memory test (R503): by test epoch and byte address. -/
opaque freeByte : Nat → Nat → BitVec 8

/-- What one axis of a scaler gives for its taps (R221), whose coefficients the spec does not state: by FILTER, layer size, source samples,
phase of 64, the taps that lie before the first sample, and the samples under the others. -/
opaque scaleTap : Nat → Nat → Nat → Nat → Nat → List Int → Int

/-- Where the first output position lies among the source samples of an axis (R221), in parts of the layer size: by FILTER, layer size and
source samples. -/
opaque scalePhase : Nat → Nat → Nat → Nat

/-- Chroma after the co-sited sample of an index, by the half-band filter of R225, whose coefficients the spec does not state: from the
line's chroma samples. -/
opaque halfBand : List Int → Nat → Int

/-- Sample of a line at half its width (R223), by the pre-decimation whose filter the spec does not state. -/
opaque decimate : List Int → Nat → Int

/-- The field of an interlaced source that a progressive output shows (R224: true the second), where the spec names none: by the source
frame's ESEQ and the Composer's count of frames. -/
opaque sourceField : BitVec 32 → Nat → Bool

/-- OFFSET_NS of E_TIMING where the source of a cut-through route has no measured offset (R400): by ring and counter. -/
opaque absentOffset : Nat → BitVec 64 → Int

/-- The burst outstanding at a master port when its master is reset (R380), if any: start address, whether a write, and the write beats the
target had accepted. By counter and master ID. -/
opaque outstanding : Nat → Nat → Option (BitVec 40 × Bool × Fin 16)

/-- Slots that refresh, re-centring and check records use of a channel's margin in a turn (R32: at most 28): by turn and channel. -/
opaque marginUse : Nat → Nat → Nat

/-- Whether a source is frequency-locked to a plane (R105, R236), which the spec gives no figure for: by the time between the EAVs of
line 1 of its latest two frames, in ns, and the plane's frame period in units of 1/472,500 ns. -/
opaque freqLock : Nat → Nat → Bool

/-- Word `i` of a 10-bit stream that carries a line of a picture in a FORMAT other than 0 (R130): the mappings of the interface standards
are not given by the spec. By FORMAT, picture, stream (true the colour-difference stream), word and the line's active bytes. -/
opaque mappedWord : Nat → Nat → Bool → Nat → List (BitVec 8) → Nat

/-- The byte of ST 352 that names the payload of a link type, or of a bond, whose code the model does not know: by TX_LINK and TX_BOND. -/
opaque pidStandard : Nat → Nat → Nat

/-- The payload header of an ST 2022-6 datagram (R198), which the spec does not give: by the output's frame count and format. -/
opaque payloadHeader : Nat → Nat → BitVec 64

end Sys2Proof.Config
end

