-- ==== Sys2Proof/Machine/State.lean ====
section
/-! DEFINITION. The state of the device: every register, table, counter, queue and pin the spec gives it, in groups that
follow the spec's chapters, and the queue of commands that wait. Plain data throughout. Every group's `reset` is the state
right after release step 7 of R477, before the firmware starts (log entry 1). -/

namespace Sys2Proof.Machine

open Sys2Proof


/-! ### The local clock (R300), engine time and the RTC crystal -/

/-- Clocks. `offset` is OFFSET of R300 in units of 2^-32 ns (48-bit seconds, nanoseconds and the 32-bit fraction in one
number); `engine` is engine time in units of 2^-48 ns; `xtal` is the phase of the 32.768 kHz crystal in billionths of its
period; `ptpHigh` is the latched high word of PTP_NOW (R373). RATE has its home in the servo record. -/
structure TimeSt where
  clk : BitVec 64
  offset : Nat
  base : BitVec 64
  engine : Nat
  xtal : Nat
  ptpHigh : Nat
  deriving DecidableEq, Repr

def TimeSt.reset : TimeSt := ⟨0, 0, 0, 0, 0, 0⟩

/-! ### Power, reset and boot (R460 to R484) -/

/-- Why the release sequence stopped in BOOT_HALT (R479). -/
inductive Halt where
  | trim | clkMode | strap
  deriving DecidableEq, Repr

/-- Reset causes that run the full sequence, in the encoding of LAST_CAUSE (R467). -/
inductive Cause where
  | por | pin | wdog | soft | troupe | fatal | thermal | wake
  deriving DecidableEq, Repr

/-- What the Ringmaster does: stopped, in boot ROM, in Rescue Boot, waiting for a load, starting a checked image, or running firmware
(R480, R492). -/
inductive Boot where
  | stopped | rom | waitLoad | rescue | starting | firmware
  deriving DecidableEq, Repr

/-- A reset or restart that begins 1 ms after a response (R410, R427). -/
inductive Due where
  | soft | troupe | restart | watch
  deriving DecidableEq, Repr

/-- One occurrence of an event (R434, R435): objects start at parameter byte 4. -/
structure Ev where
  code : Nat
  loc : Nat
  active : Bool
  reason : Nat
  objs : List Byte
  deriving DecidableEq, Repr

/-- Power, straps, release sequence, boot and monitors. `strapNow` holds the raw samples of the triple in progress;
`due` the reset or entry to WATCH that a response announced, with the counter value at which it falls;
`over105` and `trip125` are the trips of each quadrant; `vWarn` and `vFail` the monitors outside their warning band and
their limits; `quadMv` and `quadC` the latest quadrant samples (R469); `skewBad` an open REGION_SKEW episode and
`skewOkSince` the counter value since which both differences have been within 20 mV and 16 °C. `wakeHeld` is the source of a wake
that waits (R465), `thermalLater` the time and event of a thermal shutdown (R451); `notes` the events of the release that the
collector takes once the recorder writer runs, `powerWas` the power state the device came from when the firmware starts, `sampling` that
the straps are being sampled, `gapDone` that a gap has passed since TRIM_DONE (R477). -/
structure PwrSt where
  power : Power
  bootState : Boot
  fwMajor : BitVec 8
  fwMinor : BitVec 8
  fwBuild : BitVec 16
  hostRate : BitVec 2
  reduced : Bool
  troupeId : BitVec 3
  twinStrap : Bool
  bootSrc : BitVec 2
  clkMode : BitVec 2
  strapNow : List (BitVec 8)
  strapTries : Nat
  halt : Option Halt
  trimA : Option Bool
  trimB : Option Bool
  pllOk : Bool
  rstCtl : BitVec 256
  rstLow : Bool
  lastReset : Option Cause
  afterRestart : Bool
  due : Option (Due × BitVec 64)
  aon : BitVec 256
  cnt : BitVec 256
  scratch : BitVec 512
  wakeHeld : Option Nat
  vWarn : List Nat
  vFail : List Nat
  vbakLow : Bool
  over105 : List Nat
  trip125 : List Nat
  thermalLater : Option (Nat × Ev)
  quadMv : List Nat
  quadC : List Int
  skewBad : Bool
  skewOkSince : Option (BitVec 64)
  notes : List Ev
  powerWas : Option Nat
  sampling : Bool
  gapDone : Bool
  deriving DecidableEq, Repr

def PwrSt.reset : PwrSt where
  power := .staging
  bootState := .rom
  fwMajor := 0
  fwMinor := 0
  fwBuild := 0
  hostRate := 0
  reduced := false
  troupeId := 0
  twinStrap := false
  bootSrc := 0
  clkMode := 0
  strapNow := []
  strapTries := 0
  halt := none
  trimA := some true
  trimB := none
  pllOk := true
  rstCtl := resetRec 256 RstCtl.layout
  rstLow := false
  lastReset := some .por
  afterRestart := false
  due := none
  aon := fput (fput (resetRec 256 Aon.layout) Aon.supplyOk 63) Aon.vbakOk 1
  cnt := resetRec 256 Cnt.layout
  scratch := 0
  wakeHeld := none
  vWarn := []
  vFail := []
  vbakLow := false
  over105 := []
  trip125 := []
  thermalLater := none
  quadMv := [0, 0, 0, 0]
  quadC := [0, 0, 0, 0]
  skewBad := false
  skewOkSince := none
  notes := [⟨1, 0x1E2C00, true, 0, [8, 0, 0, 0]⟩]
  powerWas := some 0
  sampling := false
  gapDone := true

/-! ### The control plane: ports, mailboxes, host queues, Midway, JTAG (R368 to R410) -/

/-- A mailbox channel (R385 to R387): its status word, its two buffers and the receipt time of the request it holds. -/
structure Mb where
  status : BitVec 64
  request : List Byte
  response : List Byte
  receipt : Nat
  deriving DecidableEq, Repr

/-- A notification session (R409). -/
structure Session where
  id : Nat
  port : Port
  chan : Nat
  sender : Nat
  events : BitVec 256
  deriving DecidableEq, Repr

/-- A request waiting on P2, P3 or P4 with the stamp of its receipt (R382). -/
structure Waiting where
  sender : Nat
  seq : BitVec 16
  opcode : BitVec 16
  deadline : BitVec 32
  receipt : Nat
  deriving DecidableEq, Repr

/-- What a response still waits for. -/
inductive JobKind where
  | profile (p : Nat)
  | memTest
  | shadowTest
  | takeAcks (salvo : Nat)
  | forward (member : Nat)
  | mirror (mseq : Nat) (target : Nat)
  deriving DecidableEq, Repr

/-- A command that has been accepted and whose response is not yet sent. -/
structure Job where
  kind : JobKind
  opcode : Nat
  req : Req
  receipt : Nat
  due : Nat
  status : Nat
  result : List Byte
  deriving DecidableEq, Repr

/-- A completed or open capture descriptor (R392, R393). -/
structure Desc where
  eseq : BitVec 32
  bytes : BitVec 32
  tiles : BitVec 32
  time : BitVec 64
  truncated : Bool
  port : BitVec 2
  subport : BitVec 3
  fromFlow : Bool
  deriving DecidableEq, Repr

/-- A host queue (R391 to R394): its binding, its completed descriptors (oldest first), those that capture units not yet
completed have taken, the units lost for want of one, and an open insert unit with the bytes it has taken so far. -/
structure Hq where
  en : Bool
  insert : Bool
  ring : Nat
  descs : List Desc
  taken : List Desc
  lost : Nat
  unitOpen : Bool
  unitLen : Nat
  budgetAt : Nat
  budgetTiles : Nat
  deriving DecidableEq, Repr

/-- A frame capture in progress (R412): queue, source ring, frames still to copy, last unit copied. -/
structure Capture where
  queue : Nat
  ring : Nat
  left : Nat
  after : BitVec 32
  deriving DecidableEq, Repr

/-- A response or a notification that waits in the management class of a sub-port for its gap (R166, R169, R382). -/
structure InBand where
  sub : Nat
  sender : Nat
  bytes : List Byte
  deriving DecidableEq, Repr

/-- Ports, mailboxes, Midway, interrupts, sessions, host queues, the TAP and what waits to leave in band. `enumerated` holds of the function's PCIe
configuration (R370) what the model needs: the host has enumerated it since it was last reset (DESIGN CHOICE, log entry 64);
`stamp` is the receipt time of a mirrored command while it is executed, none between steps. -/
structure CtlSt where
  priv : Tab (BitVec 64)
  mb : Tab Mb
  doneMap : BitVec 64
  irqEn : BitVec 64
  irqCfg : BitVec 64
  p2 : List Waiting
  p3 : List Waiting
  p4 : List Waiting
  midway : BitVec 256
  msix : Tab (BitVec 128)
  pba : BitVec 64
  sessions : List Session
  jobs : List Job
  hq : Tab Hq
  captures : List Capture
  sb : BitVec 128
  enumerated : Bool
  stamp : Option Nat
  jtagIr : BitVec 8
  jtagData : List Byte
  inband : List InBand
  deriving DecidableEq, Repr

def Mb.idle (_ : Nat) : Mb := ⟨0, [], [], 0⟩
def Hq.idle (_ : Nat) : Hq := ⟨false, false, 0, [], [], 0, false, 0, 0, 0⟩

/-- Reset values of the Port Privilege Table (R383); PORT_EN of P4 is the debug fuse. -/
def privReset : Nat → BitVec 64
  | 0 => 0x2_0003_FFFE
  | 1 => 0x2_0002_6FFA
  | 2 => 0x3_0000_6002
  | 3 => 0
  | _ => if Config.debugFuse then 0x2_0001_6002 else 0x0_0001_6002

/-- An MSI-X table entry at reset: masked, as PCIe has it (PRESUMED, log entry 14). -/
def msixReset (_ : Nat) : BitVec 128 := 0x1#128 <<< 96

def CtlSt.reset : CtlSt where
  priv := []
  mb := []
  doneMap := 0
  irqEn := 0
  irqCfg := 0
  p2 := []
  p3 := []
  p4 := []
  midway := resetRec 256 Midway.layout
  msix := []
  pba := 0
  sessions := []
  jobs := []
  hq := []
  captures := []
  sb := 0
  enumerated := false
  stamp := none
  jtagIr := 0xFF
  jtagData := []
  inband := []

/-! ### Fault collector, event controller and event recorder (R434 to R459) -/

/-- An event waiting in the recorder's hardware queue (R452). Firmware records use codes from 0x0100. -/
structure QEnt where
  ev : Ev
  forced : Bool
  soft : Bool
  overflow : Bool
  time : Nat
  port : Nat
  member : Nat
  deriving DecidableEq, Repr

/-- A token bucket (R455): its level in billionths of a token and the counter value at which that level held. -/
structure Bucket where
  level : Nat
  at_ : BitVec 64
  deriving DecidableEq, Repr

/-- Collector and event controller. `status` and `cause` list (code, location) pairs in rising order; the registers
STATUS and CAUSE are read from them. `fatalAt` is the counter value at which a fatal-fault reset falls due (R436);
`isolated` lists the units a contained fault holds out of service, as (code, location). -/
structure FltSt where
  first : Tab (BitVec 256)
  ctl : BitVec 256
  status : List (Nat × Nat)
  cause : List (Nat × Nat)
  isolated : List (Nat × Nat)
  evCfg : Tab (BitVec 32)
  queue : List QEnt
  queueLost : Nat
  ovf : Bool
  ovfOwed : Bool
  fatalAt : Option (BitVec 64)
  deriving DecidableEq, Repr

/-- The recorder. `slots` holds the 128 bytes of each programmed slot of the MRAM region (R453); `newCodes` lists the codes
written since the last restart, so that the first record of any other code carries COUNT_LOST after one (R455). -/
structure RecSt where
  slots : Tab (List Byte)
  next : BitVec 32
  low : BitVec 32
  win : BitVec 32
  suppressed : Nat
  limits : Tab (Nat × Nat)
  buckets : Tab Bucket
  device : Bucket
  supCount : Tab Nat
  restarted : Bool
  newCodes : List Nat
  failRun : Nat
  isolated : Bool
  badRegions : List Nat
  deriving DecidableEq, Repr

def FltSt.reset : FltSt where
  first := []
  ctl := resetRec 256 FaultCtl.layout
  status := []
  cause := []
  isolated := []
  evCfg := []
  queue := []
  queueLost := 0
  ovf := false
  ovfOwed := false
  fatalAt := none

def limitReset (_ : Nat) : Nat × Nat := (8, 32)
def bucketReset (_ : Nat) : Bucket := ⟨32000000000, 0⟩

def RecSt.reset : RecSt where
  slots := []
  next := 0
  low := 0
  win := 0
  suppressed := 0
  limits := []
  buckets := []
  device := ⟨256000000000, 0⟩
  supCount := []
  restarted := false
  newCodes := []
  failRun := 0
  isolated := false
  badRegions := []

/-! ### PTP (R295 to R314) -/

/-- A Sync waiting for its Follow_Up (R297). -/
structure TwoStep where
  seq : BitVec 16
  t2 : Int
  soft : Bool
  correction : Int
  log : Int
  deriving DecidableEq, Repr

/-- The parent and the foreign leaders' best Announce (R298: firmware state). -/
structure Parent where
  gm : BitVec 64
  port : BitVec 80
  rank : Nat
  annLog : Int
  syncLog : Int
  delayLog : Int
  timescale : Bool
  deriving DecidableEq, Repr

/-- A Delay_Req or Pdelay_Req under way: its sequence, its stamps t1 or t3, and under P2P t2, t4 and the corrections so far;
`soft` that a stamp of it was lost. -/
structure DelayRun where
  seq : BitVec 16
  sent : Int
  t2 : Int
  t4 : Int
  corr : Int
  answered : Bool
  soft : Bool
  deriving DecidableEq, Repr

/-- Running state of an instance. `firstSync` says that no exchange has completed since LISTENING; `near`, `far` and `beyond`
count consecutive exchanges below LOCK_THRESH, above 4 x LOCK_THRESH and beyond STEP_LIMIT (R307); `ms` is t2 - t1 less
corrections of the latest Sync, `path` a path-delay sample not yet judged and `paths` those accepted, newest first;
`ignored` counts the management and signalling messages of R296; `foreign` is the foreign-master list (R298), with the PTP time of each
Announce. The seven counters of R299 stand in their listed order. -/
structure InstSt where
  parent : Option Parent
  pending : Option TwoStep
  delay : Option DelayRun
  reqSeq : BitVec 16
  firstSync : Bool
  near : Nat
  far : Nat
  beyond : Nat
  ms : Option Int
  path : Option Int
  paths : List Int
  ignored : Nat
  ctr : List Nat
  foreign : List (AnnounceMsg × Nat)
  deriving DecidableEq, Repr

/-- The servo: `integ` its integrator in RATE units, `using_` the
instance it follows, `candHold` that the PTP candidate stays ABSENT until that instance is LOCKED (R312), `fifo` the stamps waiting in each port's FIFO (R305), `corr` TS_RX_CORR and TS_TX_CORR of each
sub-port (R303). -/
structure PtpSt where
  inst : Tab (BitVec 256)
  instSt : Tab InstSt
  servo : BitVec 256
  integ : Int
  using_ : Nat
  candHold : Bool
  beyond : Nat
  fifo : Tab Nat
  fifoEvent : Tab Nat
  corr : Tab (Int × Int)
  deriving DecidableEq, Repr

def instReset (_ : Nat) : BitVec 256 := resetRec 256 Inst.layout
def instStReset (_ : Nat) : InstSt := ⟨none, none, none, 0, true, 0, 0, 0, none, none, [], 0, List.replicate 7 0, []⟩
def corrReset (_ : Nat) : Int × Int := (0, 0)

def PtpSt.reset : PtpSt where
  inst := []
  instSt := []
  servo := resetRec 256 Servo.layout
  integ := 0
  using_ := 0
  candHold := false
  beyond := 0
  fifo := []
  fifoEvent := []
  corr := []

/-! ### Twin operation (R345 to R367) -/

/-- One heartbeat path (R351): counter value of the latest valid heartbeat, valid heartbeats in a row, HB_BAD, and
whether TWIN_PATH_LOST stands. -/
structure PathSt where
  seen : Option (BitVec 64)
  run : Nat
  bad : Nat
  lost : Bool
  deriving DecidableEq, Repr

/-- Why and when a twin yields (R350). -/
structure Yield where
  at_ : Nat
  reason : Nat
  deriving DecidableEq, Repr

/-- A mirrored command waiting for its TARGET on either twin (R353), on the primary with what other members answered to it. -/
structure Mirror where
  mseq : Nat
  opcode : Nat
  req : Req
  target : Nat
  early : Bool
  acked : Bool
  peers : List PeerAnswer
  deriving DecidableEq, Repr

/-- `hb` is the latest valid heartbeat of the twin (40 bytes); `onairSince` the counter value since which TWIN_ONAIR_IN has been high while
this device was SHADOW; `fallAt` the PTP time of a fall whose ONAIR_CONFIRM runs; `yield` this device's announced handover, `take` the Y
and trigger of a takeover it has decided (R359); `mirrors` the commands that wait for their TARGET; `own` the digests of frames ended and
not yet sent, `mine` and `theirs` those not yet compared, by output, frame count and digest; `diverged` and `matched` the episode of R358
and the matching frames in a row by output; `resync` the Tr of a resynchronisation, `resynced` that one has been reached; `timeBad`
the milliseconds in a row by which PTP time has differed; `handAt` the PTP time from which outputs change hands after the latest
takeover (R361), 0 for none. -/
structure TwinSt where
  rec_ : BitVec 256
  a : PathSt
  b : PathSt
  hb : List Byte
  hbSeq : BitVec 32
  onairIn : Bool
  onairSince : BitVec 64
  fallAt : Option Nat
  yield : Option Yield
  take : Option (Nat × Nat)
  mirrors : List Mirror
  own : List (Nat × Nat × Nat)
  mine : List (Nat × Nat × Nat)
  theirs : List (Nat × Nat × Nat)
  diverged : Tab Nat
  matched : Tab Nat
  resync : Option Nat
  resynced : Bool
  lastResync : Option (BitVec 64)
  timeBad : Nat
  mirroring : Bool
  handAt : Nat
  deriving DecidableEq, Repr

def TwinSt.reset : TwinSt where
  rec_ := resetRec 256 Twin.layout
  a := ⟨none, 0, 0, false⟩
  b := ⟨none, 0, 0, false⟩
  hb := []
  hbSeq := 0
  onairIn := false
  onairSince := 0
  fallAt := none
  yield := none
  take := none
  mirrors := []
  own := []
  mine := []
  theirs := []
  diverged := []
  matched := []
  resync := none
  resynced := false
  lastResync := none
  timeBad := 0
  mirroring := false
  handAt := 0

/-! ### Firmware update (R485 to R494) and tests (R495 to R505) -/

/-- An open image write (R427): slot, size and bytes written. -/
structure UpdOpen where
  slot : Nat
  size : Nat
  written : Nat
  deriving DecidableEq, Repr

/-- The MRAM's image slots, as the bytes programmed, and the two copies of the slot table (R487, R488). -/
structure UpdSt where
  imageA : List Byte
  imageB : List Byte
  table0 : BitVec 256
  table1 : BitVec 256
  write : Option UpdOpen
  deriving DecidableEq, Repr

/-- The slot table of a device that has never been updated: slot A active. -/
def slotTab0 : BitVec 256 := fput (resetRec 256 SlotTab.layout) SlotTab.stateA 3

def UpdSt.reset : UpdSt := ⟨[], [], slotTab0, 0, none⟩

/-- A lane's test settings and checker (R495 to R501). Lanes are numbered 0 to 143 for SDI, 144 to 175 for media and 176 to
223 for Svanum. -/
structure TestLane where
  gen : Nat
  inject : Nat
  check : Nat
  point : Nat
  locked : Bool
  bits : Nat
  errors : Nat
  eye : Nat
  deriving DecidableEq, Repr

structure TstSt where
  lanes : Tab TestLane
  memRun : Option (Nat × Nat)
  shadowRun : Option (Nat × Nat)
  deriving DecidableEq, Repr

def testReset (_ : Nat) : TestLane := ⟨0, 0, 0, 0, false, 0, 0, 0⟩
def TstSt.reset : TstSt := ⟨[], none, none⟩

/-! ### Troupe and Svanum Link (R315 to R344) -/

/-- Bring-up states of a link (R327, R328): `adapt` is the first state under SENSE, `held` waits for LINK_RETRY (R329), `run` is UP or
DEGRADED. -/
inductive BringUp where
  | off | detect | exchange | step | adapt | align | run | held
  deriving DecidableEq, Repr

/-- A link: bring-up state; the capability its peer sent, and whether that peer boots (R481); FEC_CORR, FEC_UNCORR, CELL_HDR_ERR
and CELL_LOST (R343); the LSEQ of the next cell sent (R323); its lanes by position with spares in their places, those in use, and
the lane rate reached, as LINK_RATE; whether its loss has been reported (R329). The TIME exchange (R339), in ns of PTP time: the
departure of the previous own TIME cell and the engine time then, the arrival of the latest TIME cell of the peer, and arrival and
departure of the one before it. The leader the peer
announces and its hops (R340). Number 7 is path A of the twins, with only its LSEQ and TIME exchange. -/
structure LinkSt where
  phase : BringUp
  cap : Option CapCell
  boot : Bool
  ctr : List Nat
  lseq : BitVec 16
  order : List Nat
  active : List Nat
  rate : Nat
  lossSaid : Bool
  tDep : Nat
  tDepEngine : Nat
  lastArr : Nat
  peerArr : Nat
  peerDep : Nat
  leader : Nat
  hops : Nat
  deriving DecidableEq, Repr

/-- A lane: missing markers in a row, stuffing errors since the last marker, STUFF_ERR and MARKER_LOSS (R343), whether it has failed and
waits to be dropped (R332), the counter value at which it went idle (R330), and the milliseconds in a row its eye score has been below and
at or above EYE_ALARM, with whether SVANUM_EYE_LOW stands (R331). -/
structure LaneRun where
  missing : Nat
  stuffNow : Nat
  stuffErr : Nat
  markerLoss : Nat
  failing : Bool
  idle : Option (BitVec 64)
  eyeLow : Nat
  eyeOk : Nat
  eyeSaid : Bool
  deriving DecidableEq, Repr

/-- An import's running state (R336): the fixed OFFSET, TILES_LOST, the importer ESEQ at which writing resumes after an ABANDON, the
Troupe hops from the ring's first writer to its ring (R337), and the lanes and lane rate of the link at admission (R91). -/
structure ImpSt where
  offset : Option (BitVec 32)
  lost : Nat
  resumeAt : Option (BitVec 32)
  hops : Nat
  lanes : Nat
  rate : Nat
  deriving DecidableEq, Repr

/-- What waits to leave on a ring's exports (R336): the copy of a committed tile, with its unit's time where it starts one, or the ABANDON
cell of skipped positions. -/
inductive OutWait where
  | tile (eseq : BitVec 32) (start : Option Nat)
  | skip (first resume : BitVec 32)
  deriving DecidableEq, Repr

/-- `waits` are the exports that resume at their next unit start (R338); `outq` by ring what waits for the credits of its exporter group
(R69, R336); `msgId` numbers control messages (R325); `dropped` counts commands from outside MEMBERS (R341). -/
structure TrpSt where
  rec_ : BitVec 128
  link : Tab (BitVec 128)
  linkSt : Tab LinkSt
  lane : Tab (BitVec 64)
  laneRun : Tab LaneRun
  exp : Tab (BitVec 128)
  imp : Tab (BitVec 64)
  impSt : Tab ImpSt
  waits : List Nat
  outq : Tab (List OutWait)
  msgId : BitVec 32
  dropped : Nat
  deriving DecidableEq, Repr

def linkReset (_ : Nat) : BitVec 128 := resetRec 128 Link.layout
def linkStReset (_ : Nat) : LinkSt := ⟨.off, none, false, [0, 0, 0, 0], 0, [], [], 3, false, 0, 0, 0, 0, 0, 8, 0⟩
def laneRecReset (_ : Nat) : BitVec 64 := resetRec 64 LaneRec.layout
def laneRunReset (_ : Nat) : LaneRun := ⟨0, 0, 0, 0, false, none, 0, 0, false⟩
def expReset (_ : Nat) : BitVec 128 := 0
def impReset (_ : Nat) : BitVec 64 := 0
def impStReset (_ : Nat) : ImpSt := ⟨none, 0, none, 0, 0, 0⟩
def outqReset (_ : Nat) : List OutWait := []
/-- MEMBER and LEADER follow the TROUPE_ID strap, which this reset state holds at 0 (log entry 2). -/
def TrpSt.reset : TrpSt := ⟨0, [], [], [], [], [], [], [], [], [], 0, 0⟩

/-! ### What leaves the device in a step -/

/-- What a step puts out at a port, a pin or a link. -/
inductive Emit where
  /-- A response on P1 or P4 (R399): port, channel or link, receiver, bytes. -/
  | response (port : Port) (chan sender : Nat) (bytes : List Byte)
  /-- A session notification on P1 (R409). -/
  | notify (port : Port) (sender : Nat) (bytes : List Byte)
  /-- A response or notification on P3, to an IP address and UDP port: sub-port, tag of R166, receiver, bytes. -/
  | inband (sub : Nat) (tag : Option (BitVec 16)) (sender : Nat) (bytes : List Byte)
  /-- An MSI-X message on a vector (R449). -/
  | msix (vector : Nat)
  /-- Read data returned to the host, or an error completion (R374, R379). -/
  | completion (bytes : List Byte)
  | unsupported
  | abort
  /-- A management frame on sub-port 8n + s (R166). -/
  | mgmt (sub : Nat) (bytes : List Byte)
  /-- A media packet of a packetiser flow (R200). -/
  | packet (flow : Nat) (bytes : List Byte)
  /-- A PTP message sent by an instance (R295): 1 Delay_Req, 2 Pdelay_Req, 3 Pdelay_Resp, 4 Pdelay_Resp_Follow_Up, with its tag (R166), and
  whether it goes to the parent alone (DELAY_UNICAST of R298). -/
  | ptp (inst kind : Nat) (seq : BitVec 16) (tag : Option (BitVec 16)) (unicast : Bool)
  /-- A service-bus frame (R349, R382). -/
  | service (bytes : List Byte)
  /-- A control message, cell or tile towards a peer over a link; link 7 is twin path A (R325, R348). -/
  | cell (link : Nat) (type : Nat) (bytes : List Byte)
  /-- A tile passed to a reader's output stage with its verdict: 0 good, 1 stand-in, 2 black or silence (R357). -/
  | tile (reader : Nat) (verdict : Nat) (bytes : List Byte)
  /-- Edge of a pulse (0 to 7) or clock (8, 9) output (R290). -/
  | edge (output : Nat) (high : Bool)
  /-- An output (0 to 2,047) starts a frame from the fabric, from its generator, or ends (R150). -/
  | frame (output : Nat) (generator : Bool)
  | quiet (output : Nat)
  /-- A millisecond of samples of an output's audio slot (R245, R262). -/
  | audio (output slot : Nat) (samples : List (BitVec 32))
  /-- A serial frame that an output's transmitters have emitted (R146 to R149, R152): its words are `TxFrame.linkLine`'s. -/
  | serial (output : Nat) (frame : TxFrame)
  /-- Bits shifted out of the TAP (R505). -/
  | tdo (bytes : List Byte)
  deriving DecidableEq, Repr

/-- Why the device stops. No command of the table raises one on an operand its form admits. -/
inductive Fault where
  /-- A request whose channel its port does not have (`Instr.wf`): raised by `exec` before anything changes. Safe: the model stops. -/
  | illFormed
  deriving DecidableEq, Repr

/-- Why a command has no meaning here. -/
inductive Refusal where
  /-- Rejected by name in `exec`: the command has no meaning yet. Safe: the model stops. -/
  | notModelled (mnemonic : String)
  deriving DecidableEq, Repr

/-- The whole machine. `emitted` is what left the device in the latest step; `free` is the counter that supplies free
values (log entry 3); `pending` the commands that wait, first in, first out. -/
structure State where
  time : TimeSt
  pwr : PwrSt
  ctl : CtlSt
  flt : FltSt
  rec_ : RecSt
  mem : MemSt
  bud : BudSt
  rte : RteSt
  sdi : SdiSt
  eth : EthSt
  flo : FloSt
  cmp : CmpSt
  cal : CalSt
  ref : RefSt
  ptp : PtpSt
  trp : TrpSt
  twin : TwinSt
  upd : UpdSt
  tst : TstSt
  emitted : List Emit
  free : Nat
  pending : List Instr
  deriving DecidableEq, Repr

/-- The device right after release step 7 of R477, before its firmware starts. -/
def State.reset : State where
  time := TimeSt.reset
  pwr := PwrSt.reset
  ctl := CtlSt.reset
  flt := FltSt.reset
  rec_ := RecSt.reset
  mem := MemSt.reset
  bud := BudSt.reset
  rte := RteSt.reset
  sdi := SdiSt.reset
  eth := EthSt.reset
  flo := FloSt.reset
  cmp := CmpSt.reset
  cal := CalSt.reset
  ref := RefSt.reset
  ptp := PtpSt.reset
  trp := TrpSt.reset
  twin := TwinSt.reset
  upd := UpdSt.reset
  tst := TstSt.reset
  emitted := []
  free := 0
  pending := []

end Sys2Proof.Machine
end

