-- ==== Sys2Proof/Machine/Formats.lean ====
section
/-! DEFINITION. Video and audio formats: pgroups, tiles per frame, frame and line times, switch lines, the combinations
of R130, and the delivery bounds K, D_fab and D_hop. Times are counted in units of 1/472,500 ns, in which every frame
period and line time of the spec is a whole number. -/

namespace Sys2Proof.Machine

open Sys2Proof

/-- Time units per nanosecond. -/
def tuPerNs : Nat := 472500

/-- R43: pixels and bytes of a pgroup by FORMAT. -/
def pgroupPixels : Nat → Nat
  | 2 | 4 => 4
  | _ => 2
def pgroupBytes : Nat → Nat
  | 0 => 5
  | 1 => 6
  | 2 | 4 => 15
  | _ => 9

/-- LINE_BYTES of R43. -/
def lineBytes (width fmt : Nat) : Nat := width / pgroupPixels fmt * pgroupBytes fmt

/-- R44, R43: whether the device accepts a raster. -/
def rasterOk (width lines fmt : Nat) : Bool :=
  720 ≤ width && width ≤ 7680 && 486 ≤ lines && lines ≤ 4320 && width % pgroupPixels fmt == 0

/-- Line pitch of a packed frame (R46). -/
def pitch (width fmt : Nat) : Nat := cdiv (lineBytes width fmt) 16 * 16

/-- Tiles of one field or frame of packed lines. -/
def packedTiles (p n : Nat) : Nat := cdiv (p * n) 4096

/-- TPF of a video ring (R45 to R47): TYPE 0 line-closed, TYPE 1 packed. -/
def videoTpf (type width lines fmt : Nat) (il : Bool) : Nat :=
  if type = 0 then cdiv (lineBytes width fmt) 4096 * lines
  else if il then packedTiles (pitch width fmt) ((lines + 1) / 2) + packedTiles (pitch width fmt) (lines / 2)
  else packedTiles (pitch width fmt) lines

/-- Numerator and denominator of a frame rate by OUT_RATE code (R154). -/
def rateNum : Nat → Nat
  | 0 => 24000 | 1 => 24 | 2 => 25 | 3 => 30000 | 4 => 30 | 5 => 50 | 6 => 60000 | _ => 60
def rateDen : Nat → Nat
  | 0 | 3 | 6 => 1001
  | _ => 1

/-- Frame period in time units. -/
def frameTu (rate : Nat) : Nat := tuPerNs * 1000000000 * rateDen rate / rateNum rate

/-- Total lines per frame of a raster (R108). A raster outside the table of R108 is given the ratio 25 : 24 of the listed
high-definition formats (DESIGN CHOICE, log entry 5). -/
def totalLines (lines : Nat) : Nat :=
  if lines = 486 then 525 else if lines = 576 then 625 else if lines = 720 then 750 else if lines = 1080 then 1125
  else if lines = 2160 then 2250 else if lines = 4320 then 4500 else cdiv (lines * 25) 24

/-- Line time in time units. -/
def lineTu (rate total : Nat) : Nat := frameTu rate / total

/-- Switch line of field 1 by total lines (R108). -/
def switchLine : Nat → Nat
  | 525 => 10
  | 625 => 6
  | 2250 => 13
  | 4500 => 25
  | _ => 7

/-- PL_LINES code of R282. -/
def planeLines : Nat → Nat
  | 0 => 525 | 1 => 625 | 2 => 750 | 3 => 1125 | 4 => 2250 | _ => 4500

/-- Progressive and interlaced rate sets of R130. -/
def lowRate (r : Nat) : Bool := r ≤ 4
def highRate (r : Nat) : Bool := 5 ≤ r && r ≤ 7
def ilRate (r : Nat) : Bool := 2 ≤ r && r ≤ 4

/-- R130: whether a single-link type (TX_LINK code) on a lane carries a format. `lane24` says that the lane is one of
SDI 0 to 47. -/
def linkCarries (link : Nat) (lane24 : Bool) (f : VFmt) : Bool :=
  let sd := f.interlaced && f.width == 720 && ((f.lines == 486 && f.rate == 3) || (f.lines == 576 && f.rate == 2))
  let hdRaster := f.lines == 1080 && (f.width == 1920 || f.width == 2048)
  let uhd := f.lines == 2160 && (f.width == 3840 || f.width == 4096) && !f.interlaced
  let i1080 := f.lines == 1080 && f.width == 1920 && f.interlaced && ilRate f.rate
  match link with
  | 0 => sd && f.sample == 0
  | 1 => f.sample == 0 && ((f.width == 1280 && f.lines == 720 && !f.interlaced && f.rate ≤ 7) || i1080 ||
      (hdRaster && !f.interlaced && lowRate f.rate))
  | 2 => (hdRaster && !f.interlaced && highRate f.rate && f.sample == 0) ||
      (1 ≤ f.sample && f.sample ≤ 5 && (i1080 || (hdRaster && !f.interlaced && lowRate f.rate)))
  | 3 => f.lines == 1080 && f.width == 1920 && !f.interlaced && highRate f.rate && f.sample == 0
  | 4 => uhd && lowRate f.rate && f.sample == 0
  | 5 => uhd && ((highRate f.rate && f.sample == 0) || (lowRate f.rate && 1 ≤ f.sample && f.sample ≤ 5))
  | 6 => lane24 && uhd && highRate f.rate && 1 ≤ f.sample && f.sample ≤ 5
  | _ => false

/-- R130: whether a bonded group carries a format (bond 1: quad-link 3G; bond 2: quad-link 12G). -/
def bondCarries (bond : Nat) (f : VFmt) : Bool :=
  match bond with
  | 1 => f.lines == 2160 && (f.width == 3840 || f.width == 4096) && !f.interlaced && highRate f.rate && f.sample == 0
  | 2 => f.width == 7680 && f.lines == 4320 && !f.interlaced && f.rate ≤ 7 && f.sample == 0
  | _ => false

/-- R130, R282: whether some supported format has these total lines, interlace and rate. -/
def structureOk (total : Nat) (il : Bool) (rate : Nat) : Bool :=
  if total = 525 then il && rate == 3
  else if total = 625 then il && rate == 2
  else if total = 750 then !il && rate ≤ 7
  else if total = 1125 then if il then ilRate rate else rate ≤ 7
  else (total == 2250 || total == 4500) && !il && rate ≤ 7

/-- R196: a raster, interlace and rate within R44 and R130, whatever the sample format. -/
def formatKnown (f : VFmt) : Bool :=
  (List.range 6).any (fun sample => (List.range 7).any (fun link => linkCarries link true { f with sample := sample })) ||
    bondCarries 1 { f with sample := 0 } || bondCarries 2 { f with sample := 0 }

/-- Turn length in ns (R68). -/
def turnNs : Profile → Nat
  | .tightrope => 8192
  | _ => 16384

/-- D_fab in ns (R85): two turns and 4.2 µs, rounded up to a whole microsecond. -/
def dFabNs (p : Profile) : Nat := cdiv (2 * turnNs p + 4200) 1000 * 1000

/-- D_hop in ns (R86). -/
def dHopNs (p : Profile) : Nat := cdiv (1500 + turnNs p) 1000 * 1000

/-- K of R87, in whole lines. -/
def kLines (p : Profile) (hops rate total : Nat) : Nat :=
  let l := lineTu rate total
  cdiv (l + (dFabNs p + hops * dHopNs p) * tuPerNs) l

/-- The lead L of R109 in time units. -/
def leadTu (p : Profile) (hops rate total : Nat) : Nat := kLines p hops rate total * lineTu rate total

/-- S of R105 in time units: how late a cut-through source may be. -/
def slackTu (p : Profile) (hops rate total : Nat) : Nat :=
  leadTu p hops rate total - (lineTu rate total + (dFabNs p + hops * dHopNs p) * tuPerNs)

/-- Black of a ring's format (R62): the sample values Y or RGB, and chroma. -/
def blackLuma (fmt : Nat) (full : Bool) : Nat :=
  if full then 0 else if fmt % 2 == 0 then 64 else 256
def blackChroma (fmt : Nat) (full : Bool) : Nat :=
  if fmt ≥ 4 then blackLuma fmt full else if fmt % 2 == 0 then 512 else 2048

/-- Samples of one pgroup of black, in the order of R43. -/
def blackSamples (fmt : Nat) (full : Bool) : List Nat :=
  let y := blackLuma fmt full
  let c := blackChroma fmt full
  match fmt with
  | 0 | 1 => [c, y, c, y]
  | 2 => [c, y, c, c, y, c, c, y, c, c, y, c]
  | 3 => [c, y, c, c, y, c]
  | 4 => List.replicate 12 y
  | _ => List.replicate 6 y

/-- Samples packed most significant bit first, each `w` bits (R43). -/
def packMsb (w : Nat) (samples : List Nat) : List Byte :=
  beBytes (samples.length * w / 8) (samples.foldl (fun a v => a * 2 ^ w + v % 2 ^ w) 0)

/-- One pgroup of black. -/
def blackPgroup (fmt : Nat) (full : Bool) : List Byte :=
  packMsb (if fmt % 2 == 0 then 10 else 12) (blackSamples fmt full)

/-- One active line of black. -/
def blackLine (width fmt : Nat) (full : Bool) : List Byte :=
  (List.replicate (width / pgroupPixels fmt) (blackPgroup fmt full)).flatten

end Sys2Proof.Machine
end

