-- ==== Sys2Proof/Machine/Ops.lean ====
section
/-! DEFINITION. The named operations over the state: a change of one group, the reading of the local clock (R300), location
codes (R26), the CRC-32C of R40, what leaves the device, free values, and the outcomes of a command. -/

namespace Sys2Proof.Machine

open Sys2Proof

/-! ### A change of one group -/

def State.onTime (f : TimeSt → TimeSt) (s : State) : State := { s with time := f s.time }
def State.onPwr (f : PwrSt → PwrSt) (s : State) : State := { s with pwr := f s.pwr }
def State.onCtl (f : CtlSt → CtlSt) (s : State) : State := { s with ctl := f s.ctl }
def State.onFlt (f : FltSt → FltSt) (s : State) : State := { s with flt := f s.flt }
def State.onRec (f : RecSt → RecSt) (s : State) : State := { s with rec_ := f s.rec_ }
def State.onMem (f : MemSt → MemSt) (s : State) : State := { s with mem := f s.mem }
def State.onBud (f : BudSt → BudSt) (s : State) : State := { s with bud := f s.bud }
def State.onRte (f : RteSt → RteSt) (s : State) : State := { s with rte := f s.rte }
def State.onSdi (f : SdiSt → SdiSt) (s : State) : State := { s with sdi := f s.sdi }
def State.onEth (f : EthSt → EthSt) (s : State) : State := { s with eth := f s.eth }
def State.onFlo (f : FloSt → FloSt) (s : State) : State := { s with flo := f s.flo }
def State.onCmp (f : CmpSt → CmpSt) (s : State) : State := { s with cmp := f s.cmp }
def State.onCal (f : CalSt → CalSt) (s : State) : State := { s with cal := f s.cal }
def State.onRef (f : RefSt → RefSt) (s : State) : State := { s with ref := f s.ref }
def State.onPtp (f : PtpSt → PtpSt) (s : State) : State := { s with ptp := f s.ptp }
def State.onTrp (f : TrpSt → TrpSt) (s : State) : State := { s with trp := f s.trp }
def State.onTwin (f : TwinSt → TwinSt) (s : State) : State := { s with twin := f s.twin }
def State.onUpd (f : UpdSt → UpdSt) (s : State) : State := { s with upd := f s.upd }
def State.onTst (f : TstSt → TstSt) (s : State) : State := { s with tst := f s.tst }

/-! ### Outcomes -/

abbrev Out := Host.Outcome State Fault Refusal

/-- A next state in which nothing has left the device yet: every meaning starts from it. -/
def State.fresh (s : State) : State := { s with emitted := [] }

/-- What leaves the device, in order. -/
def State.emit (e : Emit) (s : State) : State := { s with emitted := s.emitted ++ [e] }

/-- Something for an IP address and UDP port waits in the management class of a sub-port that is UP; elsewhere it is lost (R160, R166). -/
def State.sendInBand (p sender : Nat) (bytes : List Byte) (s : State) : State :=
  if (tget subReset s.eth.sub p).link = .up then s.onCtl (fun c => { c with inband := c.inband ++ [⟨p, sender, bytes⟩] }) else s

/-- The meaning of an event: it always completes. -/
def done (s : State) : Out := .next s

/-- An operand the row's form does not admit stops the model (Fault.illFormed). -/
def checked (ok : Bool) (o : Out) : Out := if ok then o else .fault .illFormed

/-! ### Free values -/

/-- A fresh free word: the state with its counter advanced, and the word. -/
def State.freeWord (s : State) : BitVec 64 × State := (Config.freeWord s.free, { s with free := s.free + 1 })

/-! ### The local clock (R300) -/

/-- The reading of the local clock at counter value `c`, in units of 2^-32 ns since the epoch. -/
def clockAt (t : TimeSt) (rate : Int) (c : BitVec 64) : Nat :=
  let d : Nat := (c - t.base).toNat
  (((t.offset : Int) + d * 2 ^ 32 + (d * rate).fdiv (2 ^ 16)) % ((2 ^ 48 * 1000000000 * 2 ^ 32 : Nat) : Int)).toNat

/-- Present RATE (R300, R306). -/
def State.rate (s : State) : Int := fsgn s.ptp.servo Servo.rate

/-- Present reading in units of 2^-32 ns. -/
def State.now32 (s : State) : Nat := clockAt s.time s.rate s.time.clk

/-- Present PTP time in ns since the epoch. -/
def State.now (s : State) : Nat := s.now32 / 2 ^ 32

/-- R301: the clock rebased at the present counter value, so that the reading stays the same. -/
def rebase (t : TimeSt) (rate : Int) : TimeSt := { t with offset := clockAt t rate t.clk, base := t.clk }

/-- R301: RATE written, with the rebase that keeps time continuous. -/
def State.setRate (r : Int) (s : State) : State :=
  { s with time := rebase s.time s.rate, ptp := { s.ptp with servo := fputS s.ptp.servo Servo.rate r } }

/-- R301: OFFSET stepped so that the reading moves by `ns`. -/
def State.stepClock (ns : Int) (s : State) : State :=
  { s with time := { s.time with
      offset := ((s.now32 : Int) + ns * 2 ^ 32).toNat, base := s.time.clk } }

/-! ### Location codes (R26, R27) -/

def loc (quad cluster engine : Nat) : Nat := quad * 2 ^ 21 + cluster * 2 ^ 17 + engine * 2 ^ 10

def locSdiRx (l : Nat) : Nat := loc (l / 36) (l % 36 / 4) (l % 4)
def locSdiTx (l : Nat) : Nat := loc (l / 36) (l % 36 / 4) (l % 4 + 4)
/-- Lane 0 of the sub-port on its port (R157). -/
def locEth (n engine : Nat) : Nat := loc n 9 engine
def locSvanumLane (l : Nat) : Nat := loc (l / 12) 10 (l % 12)
def locLink (k : Nat) : Nat := loc 0 10 (12 + k)
def locChannel (c : Nat) : Nat := loc (c / 4) 11 (c % 4)
def locCheckCache (q : Nat) : Nat := loc q 11 4
def locComp (c engine : Nat) : Nat := loc (c / 4) 12 (16 * (c % 4) + engine)
def locSwitch : Nat := 0x1A0800
def locBudget : Nat := 0x1A0C00
def locRoute (q : Nat) : Nat := loc q 13 1
def locCal (e : Nat) : Nat := loc 0 14 e
def locAon : Nat := 0x1E2C00
def locCore : Nat := 0x1E0000
def locCollector : Nat := 0x1E2400
def locRecorder : Nat := 0x1E2800
def locTwin : Nat := 0x1E3400
def locHost : Nat := 0x1E1400
def locMidway : Nat := 0x1E1000
def locRef : Nat := 0x1E1C00
def locPtp : Nat := 0x1E2000
def locBackup : Nat := 0x1E3000
def locMram (region : Nat) : Nat := 0x800000 + 0x400 * region

/-! ### CRC-32C (R40) -/

def crcBit (c : Nat) : Nat := if c % 2 = 1 then Nat.xor (c / 2) 0x82F63B78 else c / 2

def crcByte (c : Nat) (b : Byte) : Nat :=
  crcBit (crcBit (crcBit (crcBit (crcBit (crcBit (crcBit (crcBit (Nat.xor c b.toNat))))))))

/-- CRC-32C: polynomial 0x1EDC6F41 reflected, initial value and final exclusive-or all ones. -/
def crc32c (bs : List Byte) : Nat := Nat.xor (bs.foldl crcByte 0xFFFFFFFF) 0xFFFFFFFF

/-- CRC-8 of a cell header (R323): polynomial 0x07, initial value 0. -/
def crc8 (bs : List Byte) : Nat :=
  bs.foldl (fun c b => (List.range 8).foldl
    (fun v _ => if v ≥ 128 then Nat.xor (v * 2 % 256) 7 else v * 2 % 256) (Nat.xor c b.toNat)) 0

/-! ### Cells and control messages of Svanum Link (R323, R325) -/

def State.linkSt (s : State) (k : Nat) : LinkSt := tget linkStReset s.trp.linkSt k
def State.setLinkSt (k : Nat) (v : LinkSt) (s : State) : State := s.onTrp (fun t => { t with linkSt := tset linkStReset t.linkSt k v })

/-- The 8-byte header of a cell with its HCRC. -/
def cellHeader (typ idx dest lseq : Nat) : List Byte :=
  let h : BitVec 64 := fput (fput (fput (fput 0 CellHdr.typeF typ) CellHdr.index idx) CellHdr.destRing dest) CellHdr.lseq lseq
  let b := leBytes 7 h.toNat
  b ++ leBytes 1 (crc8 b)

/-- A cell of 256 bytes leaves on a link; link 7 is path A of the twins (R348). -/
def State.sendCell (k typ idx dest : Nat) (payload : List Byte) (s : State) : State :=
  let v := s.linkSt k
  (s.setLinkSt k { v with lseq := v.lseq + 1 }).emit (.cell k typ (cellHeader typ idx dest v.lseq.toNat ++ fitBytes 248 payload))

/-- MSG_TYPE of a control message: the spec numbers none (DESIGN CHOICE, log entry 51). -/
def msgCommand : Nat := 1
def msgResponse : Nat := 2
def msgLanes : Nat := 3
def msgHeartbeat : Nat := 4
def msgDigest : Nat := 5
def msgMirror : Nat := 6
def msgMirrorAck : Nat := 7
def msgImage : Nat := 8
def msgResync : Nat := 9

/-- Fragments of 240 bytes, at least one. -/
def fragments : Nat → List Byte → List (List Byte)
  | 0, bs => [bs]
  | n + 1, bs => if bs.length ≤ 240 then [bs] else bs.take 240 :: fragments n (bs.drop 240)

/-- R325: a control message in CONTROL cells, each with its fragment header. -/
def State.sendMessage (k typ : Nat) (bytes : List Byte) (s : State) : State :=
  let fs := fragments (bytes.length / 240) bytes
  let id := s.trp.msgId
  (fs.zipIdx).foldl (fun s (f, i) => s.sendCell k 3 0 0 (leBytes 1 typ ++ leBytes 1 i ++ leBytes 1 fs.length ++ [0] ++ leBytes 4 id.toNat ++ f))
    (s.onTrp (fun t => { t with msgId := id + 1 }))

/-! ### Status codes (R12, R431) -/

def eRange : Nat := 1
def ePriv : Nat := 2
def eState : Nat := 3
def eBudget : Nat := 4
def eLinebuf : Nat := 5
def eLate : Nat := 6
def eFixed : Nat := 7
def eTimeout : Nat := 8
def eNoref : Nat := 9
def eCheck : Nat := 10
def eBinding : Nat := 11
def eBusy : Nat := 12
def eUnknownOp : Nat := 13
def eFormat : Nat := 14
def eDecode : Nat := 15
def eTiming : Nat := 0x100
def eTakeSplit : Nat := 0x101
def eCompPhase : Nat := 0x102
def eShadow : Nat := 0x103

/-- A refusal, which changes nothing (R431): its status, its results (R400), and the event it raises where its rule names one. -/
structure Err where
  status : Nat
  result : List Byte
  event : Option Ev

/-- A refusal without results or event. -/
def err {α : Type} (st : Nat) : Except Err α := .error ⟨st, [], none⟩

/-- E_RANGE, E_FIXED or E_FORMAT with its BAD_OFFSET (R400). -/
def errAt {α : Type} (st off : Nat) : Except Err α := .error ⟨st, leBytes 2 off, none⟩

/-- No single field caused the refusal (R400). -/
def noField : Nat := 0xFFFF

/-- E_BUDGET with its results (R400). -/
def errBudget {α : Type} (res needed avail : Nat) (sub member : Nat := 0xFF) : Except Err α :=
  .error ⟨eBudget, leBytes 2 res ++ leBytes 2 0 ++ leBytes 4 needed ++ leBytes 4 avail ++ leBytes 1 sub ++ leBytes 1 member, none⟩

/-- Refuse with a status unless the condition holds. -/
def need (c : Bool) (st : Nat) : Except Err Unit := if c then .ok () else err st

/-- Refuse E_RANGE at a parameter offset unless the condition holds. -/
def needAt (c : Bool) (off : Nat) (st : Nat := 1) : Except Err Unit := if c then .ok () else errAt st off

/-- What a command body answers: the state after it and its results, or a refusal. -/
abbrev Res := Except Err (State × List Byte)

/-- Whether a block of R473 is held in reset (R474). -/
def State.blockHeld (s : State) (b : Nat) : Bool := maskBit (fget s.pwr.rstCtl RstCtl.blkBusy) b

/-! ### The host port (R370, R477) -/

/-- Whether the fast domains have power (R460). -/
def State.fastOn (s : State) : Bool := s.pwr.power == .staging || s.pwr.power == .active

def State.releaseStep (s : State) : Nat := fget s.pwr.rstCtl RstCtl.releaseStep

/-- Whether the host port has been released (R477 step 3). -/
def State.hostPort (s : State) : Bool := s.fastOn && decide (3 ≤ s.releaseStep)

/-- An access of the host: it has enumerated the function (R370; DESIGN CHOICE, log entry 64). -/
def State.byHost (s : State) : State :=
  if s.hostPort then s.fresh.onCtl (fun c => { c with enumerated := true }) else s.fresh

/-! ### Ring-indexed tables -/

def State.ring (s : State) (r : Nat) : BitVec 256 := tget ringReset s.mem.rings r
def State.setRing (r : Nat) (d : BitVec 256) (s : State) : State :=
  s.onMem (fun m => { m with rings := tset ringReset m.rings r d })

end Sys2Proof.Machine
end

