-- ==== Sys2Proof/Machine/Packet.lean ====
section
/-! DEFINITION. Frames and datagrams: the parts of an Ethernet frame (R164 to R167), the Internet checksum, RTP, the payload
headers the depacketisers read (R187 to R192), and a media frame built on a header template (R168, R195). -/

namespace Sys2Proof.Machine

open Sys2Proof

/-! ### Frames in -/

/-- An Ethernet frame taken apart: the VLAN (0 when untagged or priority-tagged) and the tag's priority, the EtherType, and what
follows it up to the FCS. -/
structure Eth where
  dst : Nat
  src : Nat
  tagged : Bool
  vid : Nat
  pcp : Nat
  etype : Nat
  body : List Byte
  deriving DecidableEq, Repr

/-- `n` bytes at offset `o`, big-endian. -/
def beAt (bs : List Byte) (o n : Nat) : Nat := beNat ((bs.drop o).take n)

def parseEth (frame : List Byte) : Eth :=
  let f := frame.take (frame.length - 4)
  let dst := beAt f 0 6
  let src := beAt f 6 6
  if beAt f 12 2 = 0x8100 then
    let tci := beAt f 14 2
    ⟨dst, src, true, tci % 4096, tci / 2 ^ 13, beAt f 16 2, f.drop 18⟩
  else ⟨dst, src, false, 0, 0, beAt f 12 2, f.drop 14⟩

/-- The frame less its FCS and, where `strip` is set, its tag (R166). -/
def frameBody (strip : Bool) (frame : List Byte) : List Byte :=
  let f := frame.take (frame.length - 4)
  if strip && beAt f 12 2 == 0x8100 then f.take 12 ++ f.drop 16 else f

/-- An Internet datagram's header: family, addresses, protocol, the payload by the length field, whether it is whole (not a
fragment and, in IPv6, without extension header), and whether the header's own checks pass. -/
structure Ip where
  v6 : Bool
  src : Nat
  dst : Nat
  proto : Nat
  payload : List Byte
  whole : Bool
  ok : Bool
  deriving DecidableEq, Repr

/-- One's complement sum of 16-bit words, big-endian, an odd last byte padded with zero. -/
def sum16 : List Byte → Nat
  | [] => 0
  | [a] => a.toNat * 256
  | a :: b :: bs => a.toNat * 256 + b.toNat + sum16 bs

/-- The sum folded to 16 bits. -/
def fold16 (n : Nat) : Nat := if n = 0 then 0 else (n - 1) % 65535 + 1

/-- The Internet checksum of some bytes. -/
def inetSum (n : Nat) : Nat := 65535 - fold16 n

def parseIp4 (b : List Byte) : Option Ip :=
  let ihl := 4 * (beAt b 0 1 % 16)
  let total := beAt b 2 2
  let frag := beAt b 6 2 % 2 ^ 14
  if b.length < 20 || beAt b 0 1 / 16 != 4 then none
  else some ⟨false, beAt b 12 4, beAt b 16 4, beAt b 9 1, (b.take total).drop ihl, frag == 0,
    decide (20 ≤ ihl) && decide (ihl ≤ total) && decide (total ≤ b.length) && fold16 (sum16 (b.take ihl)) == 65535⟩

def parseIp6 (b : List Byte) : Option Ip :=
  let len := beAt b 4 2
  let next := beAt b 6 1
  if b.length < 40 || beAt b 0 1 / 16 != 6 then none
  else some ⟨true, beAt b 8 16, beAt b 24 16, next, (b.drop 40).take len, next == 17 || next == 58, decide (40 + len ≤ b.length)⟩

def parseIp (e : Eth) : Option Ip :=
  if e.etype = 0x0800 then parseIp4 e.body else if e.etype = 0x86DD then parseIp6 e.body else none

/-- The upper protocol behind a hop-by-hop header, which MLD messages carry. -/
def ip6Upper (i : Ip) : Nat × List Byte :=
  if i.v6 && i.proto = 0 then (beAt i.payload 0 1, i.payload.drop (8 * (beAt i.payload 1 1 + 1))) else (i.proto, i.payload)

/-- The sum of a pseudo-header (RFC 768, RFC 8200). -/
def pseudoSum (i : Ip) (len : Nat) : Nat :=
  let n := if i.v6 then 16 else 4
  sum16 (beBytes n i.src) + sum16 (beBytes n i.dst) + 17 + len

/-- R167: the checks of a UDP datagram's header: lengths that agree, and the checksum. -/
def udpOk (i : Ip) : Bool :=
  let u := i.payload
  let len := beAt u 4 2
  let ck := beAt u 6 2
  i.ok && decide (8 ≤ len) && decide (len ≤ u.length) &&
    (if ck = 0 then !i.v6 else fold16 (pseudoSum i len + sum16 (u.take len)) == 65535)

def udpPort (i : Ip) : Nat := beAt i.payload 2 2

/-- The data of a UDP datagram. -/
def udpData (i : Ip) : List Byte := (i.payload.take (beAt i.payload 4 2)).drop 8

/-! ### RTP -/

/-- An RTP packet: marker, sequence number, timestamp, payload. -/
structure Rtp where
  marker : Bool
  seq : BitVec 16
  ts : BitVec 32
  payload : List Byte
  deriving DecidableEq, Repr

/-- RFC 3550: version 2, contributing sources, one header extension and padding. -/
def parseRtp (b : List Byte) : Option Rtp :=
  let first := beAt b 0 1
  let at_ := 12 + 4 * (first % 16)
  let skip := if first / 16 % 2 = 1 then at_ + 4 + 4 * beAt b (at_ + 2) 2 else at_
  let pad := if first / 32 % 2 = 1 then (b.getLast?.map BitVec.toNat).getD 0 else 0
  if b.length < 12 || first / 64 != 2 || b.length < skip + pad then none
  else some ⟨beAt b 1 1 ≥ 128, BitVec.ofNat 16 (beAt b 2 2), BitVec.ofNat 32 (beAt b 4 4), (b.take (b.length - pad)).drop skip⟩

/-- One sample row data segment (ST 2110-20): its row, field, first pixel and bytes. -/
structure Segment where
  row : Nat
  second : Bool
  pixel : Nat
  bytes : List Byte
  deriving DecidableEq, Repr

/-- The headers of the segments, at most three, each telling whether another follows. -/
def segmentHeads : Nat → List Byte → List (Nat × Nat × Nat)
  | 0, _ => []
  | fuel + 1, b =>
    if b.length < 6 then [] else
    (beAt b 0 2, beAt b 2 2, beAt b 4 2) :: (if beAt b 4 2 ≥ 2 ^ 15 then segmentHeads fuel (b.drop 6) else [])

/-- The segments of an ST 2110-20 payload, after its 16 high bits of sequence number. -/
def segments (payload : List Byte) : List Segment :=
  let hs := segmentHeads 3 (payload.drop 2)
  (hs.foldl (fun (a : List Segment × List Byte) h =>
    (a.1 ++ [⟨h.2.1 % 2 ^ 15, h.2.1 ≥ 2 ^ 15, h.2.2 % 2 ^ 15, a.2.take h.1⟩], a.2.drop h.1)) ([], payload.drop (2 + 6 * hs.length))).1

/-- `n` bits at bit `o`, most significant first. -/
def bitsAt (b : List Byte) (o n : Nat) : Nat :=
  let k := cdiv (o % 8 + n) 8
  beAt b (o / 8) k / 2 ^ (8 * k - o % 8 - n) % 2 ^ n

/-- An ancillary packet of RFC 8331: C, line, horizontal offset and its 10-bit words, checksum included. -/
structure AncData where
  c : Bool
  line : Nat
  off : Nat
  words : List Nat
  deriving DecidableEq, Repr

/-- The packets of an RFC 8331 payload, after its 8 bytes of header. -/
def ancData : Nat → List Byte → List AncData
  | 0, _ => []
  | n + 1, b =>
    if b.length < 8 then [] else
    let dc := bitsAt b 52 10 % 256
    let words := (List.range (dc + 4)).map (fun i => bitsAt b (32 + 10 * i) 10)
    let size := cdiv (32 + 10 * (dc + 4)) 32 * 4
    ⟨bitsAt b 0 1 == 1, bitsAt b 1 11, bitsAt b 12 12, words⟩ :: ancData n (b.drop size)

/-- ST 291-1: the checksum word of the words before it: their sum in nine bits, and bit 9 the complement of bit 8. -/
def ancChecksum (ws : List Nat) : Nat :=
  let c := (ws.map (· % 512)).sum % 512
  c + (if c / 256 = 0 then 512 else 0)

/-- Even parity in bit 8 and its complement in bit 9 of an 8-bit value. -/
def ancWord (v : Nat) : Nat :=
  let p := ((List.range 8).filter (fun i => maskBit v i)).length % 2
  v % 256 + p * 256 + (1 - p) * 512

/-- Wire bytes of a frame of so many bytes, FCS included (R201). -/
def wireBytes (n : Nat) : Nat := max 64 n + 20

/-! ### Bits out -/

/-- Numbers of given widths, most significant bit first, padded to whole bytes. -/
def packBits (l : List (Nat × Nat)) : List Byte :=
  let n := (l.map (·.1)).sum
  let v := l.foldl (fun a e => a * 2 ^ e.1 + e.2 % 2 ^ e.1) 0
  let k := cdiv n 8
  beBytes k (v * 2 ^ (8 * k - n))

/-! ### Media frames out (R168, R195) -/

/-- A media frame on a flow's header template: the length fields, the IPv4 header checksum with DF set and identification 0, and
the UDP checksum, 0 sent as 0xFFFF. The MAC pads to 60 bytes before the FCS. -/
def buildFrame (hdrLen : Nat) (template payload : List Byte) : List Byte :=
  let h := fitBytes hdrLen template
  let v6 := hdrLen == 62 || hdrLen == 66
  let l2 := if hdrLen = 46 || hdrLen = 66 then 18 else 14
  let ipLen := if v6 then 40 else 20
  let eth := h.take l2
  let ip := (h.drop l2).take ipLen
  let udp := (h.drop (l2 + ipLen)).take 8
  let ulen := 8 + payload.length
  let ip1 := if v6 then ip.take 4 ++ beBytes 2 ulen ++ ip.drop 6
    else
      let a := ip.take 2 ++ beBytes 2 (20 + ulen) ++ [0, 0, 0x40, 0] ++ (ip.drop 8).take 2 ++ [0, 0] ++ ip.drop 12
      a.take 10 ++ beBytes 2 (inetSum (sum16 a)) ++ a.drop 12
  let i : Ip := if v6 then ⟨true, beAt ip1 8 16, beAt ip1 24 16, 17, [], true, true⟩ else ⟨false, beAt ip1 12 4, beAt ip1 16 4, 17, [], true, true⟩
  let u0 := udp.take 4 ++ beBytes 2 ulen ++ [0, 0] ++ payload
  let ck := inetSum (pseudoSum i ulen + sum16 u0)
  let u1 := udp.take 4 ++ beBytes 2 ulen ++ beBytes 2 (if ck = 0 then 65535 else ck) ++ payload
  let f := eth ++ ip1 ++ u1
  fitBytes (max 60 f.length) f

/-- An RTP header of 12 bytes. -/
def rtpHeader (marker : Bool) (pt : Nat) (seq : BitVec 16) (ts ssrc : Nat) : List Byte :=
  [0x80, BitVec.ofNat 8 (bit marker * 128 + pt % 128)] ++ beBytes 2 seq.toNat ++ beBytes 4 ts ++ beBytes 4 ssrc

end Sys2Proof.Machine
end

