-- ==== Sys2Proof/Machine/Ancillary.lean ====
section
/-! DEFINITION. Ancillary packets and timecode (R50, R112, R149): the records of a unit, the ATC packets of ST 12-2, and the count of
timecode continuity. -/

namespace Sys2Proof.Machine

open Sys2Proof

/-! ### Timecode (R112, R149) -/

/-- Nominal frames per second of a rate code. -/
def nominalFps : Nat → Nat
  | 0 => 24 | 1 => 24 | 2 => 25 | 3 => 30 | 4 => 30 | 5 => 50 | _ => 60

def bcd2 (n : Nat) : Nat := n / 10 % 10 * 16 + n % 10
def unbcd (n : Nat) : Nat := n / 16 % 16 * 10 + n % 16

/-- Hours, minutes, seconds and frames in two decimal digits each. -/
def tcPack (h m sec f : Nat) : Nat := bcd2 h * 2 ^ 24 + bcd2 m * 2 ^ 16 + bcd2 sec * 2 ^ 8 + bcd2 f

/-- One frame later: drop-frame counting at 30/1.001 and 60/1.001 (R149), where the first frames of each minute but every tenth are
passed over. -/
def tcNext (rate tc : Nat) : Nat :=
  let fps := nominalFps rate
  let t := ((unbcd (tc / 2 ^ 24) * 60 + unbcd (tc / 2 ^ 16 % 256)) * 60 + unbcd (tc / 2 ^ 8 % 256))
  let f := unbcd (tc % 256) + 1
  let t' := (if f < fps then t else t + 1) % 86400
  let f' := if f < fps then f else 0
  let drop := if rate = 3 then 2 else if rate = 6 then 4 else 0
  let f'' := if f' < drop && t' % 60 == 0 && t' / 60 % 10 != 0 then drop else f'
  tcPack (t' / 3600) (t' / 60 % 60) (t' % 60) f''

/-- The records of an ancillary unit (R50) as LINE, HOFF and words; `fuel` bounds them. -/
def ancRecords : Nat → List Byte → List AncRec
  | 0, _ => []
  | fuel + 1, bs =>
    if bs.length < 8 then []
    else
      let n := leNat ((bs.drop 4).take 2)
      let words := (List.range n).map (fun i => leNat ((bs.drop (8 + 2 * i)).take 2) % 1024)
      (leNat (bs.take 2), leNat ((bs.drop 2).take 2), words) :: ancRecords fuel (bs.drop (cdiv (8 + 2 * n) 4 * 4))

/-- The value of an ATC_LTC packet (ST 12-2: DID and SDID 0x60, one nibble in bits 7 to 4 of each of sixteen words, the payload
type in bit 3 of the first eight; PRESUMED, log entry 20). -/
def atcValue (words : List Nat) : Option Nat :=
  let w (i : Nat) : Nat := words.getD (3 + i) 0
  let nib (i : Nat) : Nat := w i / 16 % 16
  if words.getD 0 0 % 256 = 0x60 && words.getD 1 0 % 256 == 0x60 && (List.range 8).all (fun i => w i / 8 % 2 == 0) then
    some (nib 14 % 4 * 2 ^ 28 + nib 12 * 2 ^ 24 + nib 10 % 8 * 2 ^ 20 + nib 8 * 2 ^ 16 + nib 6 % 8 * 2 ^ 12 + nib 4 * 2 ^ 8 +
      nib 2 % 4 * 2 ^ 4 + nib 0)
  else none

/-- The ATC packet of a timecode (ST 12-2, its nibbles as `atcValue` reads them, no user bits; PRESUMED, log entry 20); `kind` is 0
LTC, 1 VITC1, 2 VITC2. -/
def atcPacket (kind tc : Nat) : List Nat :=
  let nib (i : Nat) : Nat := tc / 2 ^ (4 * i) % 16
  let word (i : Nat) : Nat := ancWord ((if i % 2 = 0 then nib (i / 2) else 0) * 16 + (if i < 8 then kind / 2 ^ i % 2 else 0) * 8)
  let ws := [ancWord 0x60, ancWord 0x60, ancWord 16] ++ (List.range 16).map word
  ws ++ [ancChecksum ws]

/-- Whether a packet carries timecode (ST 12-2). -/
def isAtc (p : AncRec) : Bool := p.2.2.getD 0 0 % 256 == 0x60 && p.2.2.getD 1 0 % 256 == 0x60

/-- The ATC_LTC value of a frame's units. -/
def unitTc (units : List (List AncRec)) : Option Nat := (units.flatMap (fun u => u.filterMap (fun p => atcValue p.2.2))).head?

/-- R112, R149: the timecode of a frame under an entry: its units' own, or with `run` the count one frame on from `old`, which starts at
the first frame's value or at zero. -/
def frameTc (cont run : Bool) (rate old : Nat) (units : List (List AncRec)) : Option Nat :=
  if cont then some (if run then tcNext rate old else (unitTc units).getD 0) else unitTc units

end Sys2Proof.Machine
end

