-- ==== Sys2Proof/Machine/Operands.lean ====
section
/-! DEFINITION. Parameters of a request (R398, R404, R406, R407): numbers at byte offsets, missing bytes, trailing bytes,
record writes and record reads, written once for every command. -/

namespace Sys2Proof.Machine

open Sys2Proof

/-- The parameter bytes: LENGTH of them. -/
def Req.bytes (q : Req) : List Byte := q.params.take q.length.toNat

/-- The number of `n` bytes at offset `o`; missing bytes are 0 (R404). -/
def Req.num (q : Req) (n o : Nat) : Nat := leNat ((Req.bytes q).drop o |>.take n)

def Req.u8 (q : Req) (o : Nat) : Nat := Req.num q 1 o
def Req.u16 (q : Req) (o : Nat) : Nat := Req.num q 2 o
def Req.u32 (q : Req) (o : Nat) : Nat := Req.num q 4 o
def Req.u64 (q : Req) (o : Nat) : Nat := Req.num q 8 o

/-- The bytes from offset `o`, at most `n`. -/
def Req.slice (q : Req) (o n : Nat) : List Byte := ((Req.bytes q).drop o).take n

/-- R3: bytes beyond the layout's `n` must all be zero. -/
def Req.trailingOk (q : Req) (n : Nat) : Bool := ((Req.bytes q).drop n).all (· == 0)

/-- The trailing-byte check of R3. BAD_OFFSET names the first byte that is not zero (log entry 97). -/
def Req.layout (q : Req) (n : Nat) : Except Err Unit :=
  needAt (Req.trailingOk q n) (n + ((Req.bytes q).drop n).findIdx (· != 0))

/-- Reserved parameter bytes must be zero (R11). -/
def Req.zeroAt (q : Req) (o n : Nat) : Except Err Unit := needAt (Req.num q n o == 0) o

/-- The NEXT_OK flag (R121). -/
def Req.nextOk (q : Req) : Bool := q.flags.toNat % 2 == 1

/-- The bytes of a record a record write carries (R406: from offset 12). -/
def Req.recordBytes (q : Req) (nbytes : Nat) : List Byte := Req.slice q 12 nbytes

/-- INDEX of a record write or read, in range. -/
def Req.index (q : Req) (n : Nat) : Except Err Nat :=
  if Req.u32 q 0 < n then .ok (Req.u32 q 0) else errAt eRange 0

/-- TARGET of a record write that allows none (R406). -/
def Req.noTarget (q : Req) : Except Err Unit := needAt (Req.u64 q 4 == 0) 4

/-- The checks of a record write that every record shares (R402 step 6, R406): the merged record, in range, with no
Fixed-while-running field changed while the block is enabled. `more` gives the offset of a field whose range depends on
other values; `fixed` lists the fields judged, by their block. -/
def writeRecordX {n : Nat} (q : Req) (layout : List Fld) (old : BitVec n) (fixed : List Fld) (more : BitVec n → Option Nat) :
    Except Err (BitVec n) := do
  Req.layout q (12 + n / 8)
  let new := mergeRec layout old (Req.recordBytes q (n / 8))
  match firstBad (rangeBad layout new) (more new) with
  | some o => errAt eRange (12 + o)
  | none =>
    match fixedBad fixed old new with
    | some o => errAt eFixed (12 + o)
    | none => .ok new

/-- A record write whose ranges are those of its layout alone. -/
def writeRecord {n : Nat} (q : Req) (layout : List Fld) (old : BitVec n) (fixed : List Fld) : Except Err (BitVec n) :=
  writeRecordX q layout old fixed (fun _ => none)

/-- The Fixed-while-running fields of a layout, when its block is enabled. -/
def fixedIf (enabled : Bool) (layout : List Fld) : List Fld := if enabled then layout else []

/-- INDEX and CLEAR of a record read (R407). -/
def Req.readClear (q : Req) : Except Err Bool := do
  Req.layout q 8
  needAt (Req.u32 q 4 < 2) 4
  return Req.u32 q 4 == 1

end Sys2Proof.Machine
end

