-- ==== Sys2Proof/Machine/Flags.lean ====
section
/-! DEFINITION. Events and what they do at once: the fault collector with its first-fault records, REACTION and escalation
(R440 to R443), the event controller and MSI-X (R448, R449), the recorder's hardware queue (R452), and the reaction of
each class (R436) with Safety Net entry (R437) or a primary's yield (R439, R360). -/

namespace Sys2Proof.Machine

open Sys2Proof

/-! ### Classes -/

/-- R450: the defined codes. -/
def evDefined (c : Nat) : Bool :=
  c ≤ 0x0B || (0x20 ≤ c && c ≤ 0x28) || (0x40 ≤ c && c ≤ 0x48) || (0x60 ≤ c && c ≤ 0x6A) || (0x80 ≤ c && c ≤ 0x8D) ||
  (0xA0 ≤ c && c ≤ 0xA9) || (0xB0 ≤ c && c ≤ 0xB5) || (0xC0 ≤ c && c ≤ 0xC6) || (0xD0 ≤ c && c ≤ 0xD6) ||
  (0xE0 ≤ c && c ≤ 0xFF)

def fatalCodes : List Nat := [0x04, 0x07, 0x08, 0x20, 0x48, 0xE9, 0xEF]
def containedCodes : List Nat :=
  [0x06, 0x09, 0x24, 0x26, 0x27, 0x40, 0x41, 0x44, 0x47, 0x61, 0x64, 0x66, 0x68, 0x84, 0x85, 0x8D, 0xA8, 0xC1, 0xC4, 0xC5,
   0xC6, 0xD5, 0xD6, 0xF2, 0xF4, 0xF7, 0xFA, 0xFE, 0xFF]

/-- Class of a code, as CLASS of EV_CFG shows it (R448): 0 reserved, 1 corrected, 2 contained, 3 fatal. -/
def evClass (c : Nat) : Nat :=
  if evDefined c then if fatalCodes.contains c then 3 else if containedCodes.contains c then 2 else 1 else 0

/-- Sources with duration: they hold CAUSE while their condition lasts (R440; DEDUCED per source, log entry 6). -/
def evDurable (c : Nat) : Bool :=
  [0x03, 0x04, 0x05, 0x06, 0x07, 0x08, 0x22, 0x47, 0x48, 0x60, 0x61, 0x66, 0x67, 0x84, 0x85, 0xC0, 0xC1, 0xC2, 0xC3, 0xE3, 0xE4, 0xF2, 0xF3,
   0xF4, 0xF6].contains c

/-- An event with ACTIVE 1 and no reason or objects. -/
def Ev.plain (code loc : Nat) : Ev := ⟨code, loc, true, 0, []⟩

/-- The 64 parameter bytes (R435). -/
def Ev.params (e : Ev) : List Byte :=
  fitBytes 64 ([BitVec.ofNat 8 (bit e.active), BitVec.ofNat 8 e.reason, 0, 0] ++ e.objs)

/-- A set of pairs kept in rising order without repeats. -/
def pinsert (p : Nat × Nat) : List (Nat × Nat) → List (Nat × Nat)
  | [] => [p]
  | x :: l => if p = x then x :: l else if p.1 < x.1 || (p.1 == x.1 && p.2 < x.2) then p :: x :: l else x :: pinsert p l

/-! ### Collector -/

/-- A first-fault record after an event of its class (R441). -/
def firstFault (r : BitVec 256) (e : Ev) (forced : Bool) (now : Nat) : BitVec 256 :=
  if fbit r FirstFault.valid then
    fput (fput r FirstFault.multi 1) FirstFault.count (satAdd 16 (fget r FirstFault.count) 1)
  else
    fput (fput (fput (fput (fput (fput (fput 0 FirstFault.code e.code) FirstFault.valid 1) FirstFault.forced (bit forced))
      FirstFault.count 1) FirstFault.location e.loc) FirstFault.time now) FirstFault.param (leNat (e.params.take 8))

/-- The highest class with STATUS set at any code (R442). -/
def reaction (f : FltSt) : Nat := (f.status.map (fun p => evClass p.1)).foldl max 0

/-- STATUS, CAUSE and the first-fault record after an event. After R443 the first-fault records are frozen. -/
def collect (e : Ev) (forced : Bool) (now : Nat) (f : FltSt) : FltSt :=
  { f with
    status := pinsert (e.code, e.loc) f.status
    cause := if evDurable e.code && e.active && !forced then pinsert (e.code, e.loc) f.cause
      else if !e.active then f.cause.filter (· != (e.code, e.loc)) else f.cause
    first := if fbit f.ctl FaultCtl.parityTrip then f.first
      else tset (fun _ => 0) f.first (evClass e.code) (firstFault (tget (fun _ => 0) f.first (evClass e.code)) e forced now) }

/-- The reset value of EV_CFG (R448). -/
def evCfgReset (c : Nat) : BitVec 32 :=
  fput (fput 0 EvCfg.vector (c / 4)) EvCfg.classF (evClass c)

/-- The source's condition has ended without an event of its own: CAUSE of the location clears. -/
def State.endCause (code l : Nat) (s : State) : State :=
  s.onFlt (fun f => { f with cause := f.cause.filter (· != (code, l)) })

/-! ### Event controller and MSI-X -/

/-- An MSI-X vector is signalled: sent, or left pending while its table entry masks it (R449, PCIe rules);
none while the host has not enumerated the function (R370). -/
def State.signal (v : Nat) (s : State) : State :=
  if !s.ctl.enumerated then s
  else if (tget msixReset s.ctl.msix v).getLsbD 96 then s.onCtl (fun c => { c with pba := c.pba ||| (1#64 <<< v) })
  else s.emit (.msix v)

/-- PENDING of the code is set, and an enabled code whose PENDING goes from 0 to 1 signals its vector (R449). -/
def State.pend (code : Nat) (s : State) : State :=
  let w := tget evCfgReset s.flt.evCfg code
  let s' := s.onFlt (fun f => { f with evCfg := tset evCfgReset f.evCfg code (fput w EvCfg.pending 1) })
  if fbit w EvCfg.pending || !fbit w EvCfg.enable then s' else s'.signal (fget w EvCfg.vector)

/-! ### Recorder queue -/

/-- R452: an event enters the queue of 1,024, or is lost from the recorder only. -/
def enqueue (q : QEnt) (f : FltSt) : FltSt :=
  if f.queue.length < 1024 then { f with queue := f.queue ++ [{ q with overflow := f.ovf }], ovf := false }
  else { f with queueLost := satAdd 16 f.queueLost 1, ovf := true, ovfOwed := true }

/-! ### One event, without its class reaction -/

/-- R434: an event reaches the collector, the event controller and the recorder's queue in the same cycle. -/
def State.note (e : Ev) (forced : Bool) (s : State) : State :=
  let now := s.now
  ((s.onFlt (fun f => enqueue ⟨e, forced, false, false, now, 0xFF, 0xFF⟩ (collect e forced now f))).onFlt
    (fun f => { f with ctl := fput f.ctl FaultCtl.reaction (reaction f) })).pend e.code

/-- R442: the event, and FAULT_ESCALATED when REACTION rises to contained or fatal. -/
def State.noteRise (e : Ev) (forced : Bool) (s : State) : State :=
  let old := fget s.flt.ctl FaultCtl.reaction
  let s1 := s.note e forced
  let new := fget s1.flt.ctl FaultCtl.reaction
  if old < new && 2 ≤ new then
    (s1.onFlt (fun f => { f with ctl := fput f.ctl FaultCtl.escalations (satAdd 16 (fget f.ctl FaultCtl.escalations) 1) })).note
      ⟨0x21, locCollector, true, 0, leBytes 1 old ++ leBytes 1 new⟩ false
  else s1

/-! ### Twin role, ONAIR_OUT and heartbeats, which a fatal fault moves in hardware (R439, R360) -/

/-- Twin role (R346). -/
def State.role (s : State) : Role :=
  match fget s.twin.rec_ Twin.role with
  | 0 => .solo
  | 1 => .primary
  | _ => .shadow

def State.safetyNet (s : State) : Bool := fbit s.flt.ctl FaultCtl.safetyNet

/-- ONAIR_OUT (R362). -/
def State.onairOut (s : State) : Bool :=
  s.pwr.power == .active && s.role != .shadow && !s.safetyNet

/-- R360: whether this shadow is READY. -/
def State.ready (s : State) : Bool :=
  s.role == .shadow && s.pwr.power == .active && !s.safetyNet &&
    (fget s.twin.rec_ Twin.sync == 2 || (fget s.twin.rec_ Twin.sync == 3 && fbit s.twin.rec_ Twin.takeUnsynced))

/-- The 40-byte heartbeat of R350 as it would be sent now. -/
def State.heartbeat (s : State) : List Byte :=
  let t := s.twin
  let flags := bit s.onairOut + 2 * bit t.yield.isSome + 4 * bit s.ready + 8 * bit (fbit t.rec_ Twin.pathAOk) +
    16 * bit (fbit t.rec_ Twin.pathBOk) + 32 * bit (s.pwr.afterRestart && s.pwr.bootState != .firmware) + 64 * bit s.pwr.twinStrap
  let body := leBytes 2 0x5A54 ++ leBytes 1 1 ++ leBytes 1 flags ++ leBytes 1 (fget t.rec_ Twin.role) ++
    leBytes 1 (fget t.rec_ Twin.sync) ++ leBytes 1 s.pwr.fwMajor.toNat ++ leBytes 1 s.pwr.fwMinor.toNat ++
    leBytes 4 t.hbSeq.toNat ++ leBytes 4 (fget t.rec_ Twin.mirrorSeq) ++ leBytes 8 s.now ++
    leBytes 8 (match t.yield with | some y => y.at_ | none => 0) ++
    leBytes 2 (match t.yield with | some y => y.reason | none => 0) ++ leBytes 2 0
  body ++ leBytes 4 (crc32c body)

/-- Whether the service-bus MAC drives and receives under its record (R395, R396). -/
def State.sbOn (s : State) : Bool := fbit s.ctl.sb SbRec.sbEn && !s.blockHeld 53

/-- m of the address of R396: TROUPE_ID, in a halt for STRAP that of the latest strap sample (R479; log entry 58). -/
def State.answerMember (s : State) : Nat :=
  match s.pwr.halt, s.pwr.strapNow.getLast? with
  | some .strap, some v => v.toNat / 16 % 8
  | _, _ => s.pwr.troupeId.toNat

/-- The address a service-bus frame leaves from: SB_MAC, or 02:5A:4D:00:00:0m in an answer of R396 while SB_MAC is 0. -/
def State.sbAddress (s : State) : Nat :=
  let own := fget s.ctl.sb SbRec.sbMac
  if s.sbOn || own != 0 then own else 0x025A4D000000 + s.answerMember

/-- A service-bus frame to an address, padded to 64 bytes (R349, R382). -/
def State.sbFrame (s : State) (to_ etype : Nat) (bytes : List Byte) : List Byte :=
  let f := beBytes 6 to_ ++ beBytes 6 s.sbAddress ++ beBytes 2 etype ++ bytes
  fitBytes (max 64 f.length) f

/-- What leaves on P2 (R382): a frame of EtherType 0x88B6 (log entry 51). -/
def State.sendP2 (to_ : Nat) (bytes : List Byte) (s : State) : State := s.emit (.service (s.sbFrame to_ 0x88B6 bytes))

/-- The service-bus frame of a path B heartbeat (R349). -/
def State.heartbeatFrame (s : State) : List Byte :=
  s.sbFrame (fget s.twin.rec_ Twin.peerMac) 0x88B5 s.heartbeat

/-- A heartbeat leaves on each path (R350); path B only while the service-bus MAC is enabled (R349). -/
def State.sendHeartbeat (s : State) : State :=
  if !fbit s.twin.rec_ Twin.twinEn then s else
  let s1 := s.sendMessage 7 msgHeartbeat s.heartbeat
  let s2 := if s.sbOn then s1.emit (.service s.heartbeatFrame) else s1
  s2.onTwin (fun t => { t with hbSeq := t.hbSeq + 1 })

/-- R360: whether the twin's latest heartbeat, received within HB_LIMIT, showed READY. -/
def State.shadowReady (s : State) : Bool :=
  let within (p : PathSt) : Bool := match p.seen with
    | some c => (s.time.clk - c).toNat ≤ fget s.twin.rec_ Twin.hbLimit * 1000000
    | none => false
  (within s.twin.a || within s.twin.b) && leNat (s.twin.hb.drop 3 |>.take 1) / 4 % 2 == 1

/-! ### Lanes under test (R495, R496) -/

def State.testLane (s : State) (x : Nat) : TestLane := tget testReset s.tst.lanes x
def State.setTest (x : Nat) (v : TestLane) (s : State) : State := s.onTst (fun t => { t with lanes := tset testReset t.lanes x v })

/-- A lane with its generator, checker and loop off. -/
def TestLane.off (v : TestLane) : TestLane := { v with gen := 0, inject := 0, check := 0, point := 0, locked := false }

/-- Whether a generator, checker or loop is active on a lane: SDI lanes 0 to 143, media lanes from 144, Svanum lanes from 176. -/
def State.underTest (s : State) (x : Nat) : Bool :=
  (s.testLane x).gen != 0 || (s.testLane x).check != 0 || (s.testLane x).point != 0

def mediaTest (lane : Nat) : Nat := 144 + lane
def svanumTest (lane : Nat) : Nat := 176 + lane

/-! ### Reactions -/

/-- R437, R496: what entering Safety Net does at once to state; the outputs follow at their next frame starts. -/
def State.enterSafetyNet (s : State) : State :=
  if s.safetyNet then s else
  let was := s.onairOut
  let s1 := s.onFlt (fun f => { f with
    ctl := fput (fput f.ctl FaultCtl.safetyNet 1) FaultCtl.snTime s.now
    fatalAt := if fbit f.ctl FaultCtl.fatalReset then some (s.time.clk + BitVec.ofNat 64 (fget f.ctl FaultCtl.fatalDelay * 1000000))
      else f.fatalAt })
  let s2 := (s1.onTst (fun t => { t with lanes := tmap testReset (fun _ v => v.off) t.lanes })).onTrp
    (fun t => { t with exp := t.exp.map (fun e => (e.1, if fget e.2 Export.expState = 1 then fput e.2 Export.expState 2 else e.2)) })
  let s3 := s2.note (Ev.plain 0x22 locCollector) false
  if was && fbit s.twin.rec_ Twin.twinEn then s3.sendHeartbeat else s3

/-- R360, R350: the primary yields. -/
def State.yieldNow (reason at_ : Nat) (s : State) : State :=
  (s.onTwin (fun t => { t with yield := some ⟨at_, reason⟩ })).sendHeartbeat

/-- R436, R439: the reaction of the fatal class. -/
def State.fatal (s : State) : State :=
  if s.role = .primary && s.shadowReady then
    if s.twin.yield.isSome then s else s.yieldNow 1 (s.now + 500000)
  else s.enterSafetyNet

/-- An event with its full class reaction. A contained source's unit is isolated where the source says so. -/
def State.raiseWith (e : Ev) (forced : Bool) (s : State) : State :=
  let s1 := s.noteRise e forced
  if evClass e.code = 3 && e.active then s1.fatal else s1

def State.raise (e : Ev) (s : State) : State := s.raiseWith e false

/-- A plain event: ACTIVE 1, no reason, no object. -/
def State.raise0 (code l : Nat) (s : State) : State := s.raise (Ev.plain code l)

/-- The end of a condition: the event with ACTIVE 0. -/
def State.raiseEnd (code l : Nat) (s : State) : State := s.raise ⟨code, l, false, 0, []⟩

/-- R436: the unit a contained fault names is held out of service. -/
def State.isolate (code l : Nat) (s : State) : State :=
  s.onFlt (fun f => { f with isolated := pinsert (code, l) f.isolated })

def State.isIsolated (s : State) (code l : Nat) : Bool := s.flt.isolated.contains (code, l)

/-- A contained event that isolates its unit. -/
def State.contain (e : Ev) (forced : Bool) (s : State) : State := (s.raiseWith e forced).isolate e.code e.loc

/-- MIDWAY_BUS_ERROR with its reason, address and master (R397, R540). -/
def State.busError (reason addr master : Nat) (s : State) : State :=
  s.raise ⟨0xFD, locMidway, true, reason, leBytes 4 0 ++ leBytes 8 addr ++ leBytes 1 master⟩

/-- The Midway control record after an aborted burst (R378): the first since ABORT_VALID was cleared is logged, and every one counts. -/
def logAbort (addr master : Nat) (write : Bool) (beats : Nat) (r : BitVec 256) : BitVec 256 :=
  let r1 := if fbit r Midway.abortValid then r
    else fput (fput (fput (fput (fput r Midway.abortAddr addr) Midway.abortMaster master) Midway.abortWrite (bit write)) Midway.abortBeats
      (if write then beats else 0)) Midway.abortValid 1
  fput r1 Midway.abortCount (satAdd 16 (fget r1 Midway.abortCount) 1)

/-- R380: a burst that its master's reset leaves outstanding: completed by the wrapper, logged, and MIDWAY_BUS_ERROR with reason ISOLATION. -/
def State.abortBurst (addr master : Nat) (write : Bool) (beats : Nat) (s : State) : State :=
  (s.onCtl (fun c => { c with midway := logAbort addr master write beats c.midway })).busError 2 addr master

/-- R380: a master reset. Whether a burst of it is outstanding is a free value (log entry 93). -/
def State.isolateMaster (m : Nat) (s : State) : State :=
  let s1 := { s with free := s.free + 1 }
  match Config.outstanding s.free m with
  | some (addr, write, beats) => s1.abortBurst addr.toNat m write beats.val
  | none => s1

end Sys2Proof.Machine
end

