-- ==== Sys2Proof/Machine/Time.lean ====
section
/-! DEFINITION. Time: one nanosecond of the device's clocks, engine time, the planes' time and frame starts (R283), the
frame starts, switch points and latches of outputs (R108, R109), and PTP stamps of future instants. -/

namespace Sys2Proof.Machine

open Sys2Proof

/-! ### A nanosecond passes -/

/-- The RTC in the always-on domain advances on the 32.768 kHz crystal, which runs in every state with VBAK (R460, R466). -/
def tickRtc (s : State) : State :=
  let x := s.time.xtal + 32768
  if x < 1000000000 then s.onTime (fun t => { t with xtal := x })
  else
    let sub := fget s.pwr.aon Aon.rtcSub + 1
    let s1 := s.onTime (fun t => { t with xtal := x - 1000000000 })
    if sub < 32768 then s1.onPwr (fun p => { p with aon := fput p.aon Aon.rtcSub sub })
    else s1.onPwr (fun p => { p with aon := fput (fput p.aon Aon.rtcSub 0) Aon.rtcSec (fget p.aon Aon.rtcSec + 1) })

/-- The firmware takes the management frames that wait from their queues (R166; DESIGN CHOICE, log entry 69). -/
def drainMgmt (s : State) : State :=
  if s.pwr.bootState = .firmware then s.onEth (fun e => { e with sub := tmap subReset (fun _ v => { v with rxq := [] }) e.sub }) else s

/-- One nanosecond: the counter C, engine time at the loop's correction (R271), and the RTC crystal. The fast clocks stand
still in WATCH and BACKUP (R460). -/
def tick (s : State) : State :=
  let s1 := drainMgmt (tickRtc s.fresh)
  if s.pwr.power = .staging || s.pwr.power = .active then
    s1.onTime (fun t => { t with clk := t.clk + 1, engine := ((t.engine : Int) + 2 ^ 48 + fsgn s.ref.eng RefEng.freqCorr).toNat })
  else s1

/-! ### Engine time and plane time, in time units of 1/472,500 ns -/

def State.engineTu (s : State) : Nat := s.time.engine * tuPerNs / 2 ^ 48

/-- Time units of a shift in 0.1 ns. -/
def tenthTu (x : Int) : Int := x * 47250

/-- What a slew in progress has completed (R285): SLEW_RATE ns per second of engine time, towards what was left. -/
def State.slewed (s : State) (p : Nat) : Int :=
  let st := tget planeStReset s.ref.planeSt p
  let n : Nat := min st.left.natAbs (st.slew * (s.engineTu - st.slewFrom) / 1000000000)
  if 0 ≤ st.left then n else -(n : Int)

/-- The plane's shift against engine time that is in force: PHASE plus BUILDOUT as far as it has been applied (R283 to R285). -/
def State.planeShift (s : State) (p : Nat) : Int :=
  (tget planeStReset s.ref.planeSt p).shift + s.slewed p + tenthTu s.ref.build

/-- The plane's time now. -/
def State.planeTu (s : State) (p : Nat) : Int := (s.engineTu : Int) - s.planeShift p

/-- The first instant of a grid of period `per` and phase `off` at or after plane time `t`, in plane time. -/
def gridNext (t : Int) (per off : Nat) : Int := off + (-((off - t).fdiv per)) * per

/-- PTP stamp, in ns, of the instant at plane time `x` (DESIGN CHOICE, log entry 7: engine time and PTP time are taken to run
at one rate between now and then). -/
def State.stampOf (s : State) (p : Nat) (x : Int) : Nat :=
  ((s.now32 : Int) * tuPerNs / 2 ^ 32 + (x - s.planeTu p)).fdiv tuPerNs |>.toNat

/-- Plane time of a PTP time in ns. -/
def State.planeOf (s : State) (p : Nat) (ns : Nat) : Int :=
  s.planeTu p + ((ns : Int) * tuPerNs - (s.now32 : Int) * tuPerNs / 2 ^ 32)

/-! ### Output timing -/

/-- Format and timing of an output (R99, R196): plane, OUT_OFFSET and format, and the lane that drives it. -/
structure OutFmt where
  plane : Nat
  offset : Nat
  fmt : VFmt
  lane : Option Nat
  deriving DecidableEq, Repr

def OutFmt.total (o : OutFmt) : Nat := totalLines o.fmt.lines
def OutFmt.line (o : OutFmt) : Nat := lineTu o.fmt.rate o.total
def OutFmt.frame (o : OutFmt) : Nat := frameTu o.fmt.rate
/-- Phase of the output's frame starts on its plane. -/
def OutFmt.phase (o : OutFmt) : Nat := o.offset * o.line
/-- Switch point after the frame start (R109). -/
def OutFmt.switchAt (o : OutFmt) : Nat := (switchLine o.total - 1) * o.line

def sdiCfg (s : State) (l : Nat) : BitVec 256 := tget sdiReset s.sdi.cfg l

/-- The format a lane's transmit side names (R154). -/
def laneFmt (r : BitVec 256) : VFmt :=
  ⟨fget r SdiLane.outWidth, fget r SdiLane.outLines, fbit r SdiLane.outInterlaced, fget r SdiLane.outRate, fget r SdiLane.outSample,
    fbit r SdiLane.outRange⟩

/-- The format a packet output record names (R196). -/
def pktFmt (r : BitVec 128) : VFmt :=
  ⟨fget r PktOut.outWidth, fget r PktOut.outLines, fbit r PktOut.outInterlaced, fget r PktOut.outRate, fget r PktOut.outSample,
    fbit r PktOut.outRange⟩

/-- R132: whether a lane's transmit side is driven as part of a bonded group by its leader, lane 4k. -/
def State.txFollower (s : State) (l : Nat) : Bool := l % 4 != 0 && fget (sdiCfg s (l / 4 * 4)) SdiLane.txBond != 0

/-- The lane whose transmitter, with TX_EN 1, holds the output. -/
def State.laneOf (s : State) (o : Nat) : Option Nat :=
  (s.sdi.cfg.find? (fun e => fbit e.2 SdiLane.txEn && !s.txFollower e.1 && fget e.2 SdiLane.txOutput == o)).map (·.1)

/-- The output's format and timing (R99, R196), none where it has no format. -/
def State.outFmt (s : State) (o : Nat) : Option OutFmt :=
  match s.laneOf o with
  | some l => let r := sdiCfg s l
    some ⟨fget r SdiLane.plane, fget r SdiLane.outOffset, laneFmt r, some l⟩
  | none => let r := tget pktOutReset s.flo.pktOut o
    if fget r PktOut.outWidth = 0 then none else some ⟨fget r PktOut.plane, fget r PktOut.outOffset, pktFmt r, none⟩

/-- Plane time of the output's first switch point at or after plane time `t`. -/
def OutFmt.nextSwitch (o : OutFmt) (t : Int) : Int := gridNext t o.frame (o.phase + o.switchAt)

/-- Plane time of its first frame start at or after `t`. -/
def OutFmt.nextStart (o : OutFmt) (t : Int) : Int := gridNext t o.frame o.phase

/-- PTP time of the first switch point of a ready output whose latch follows now (R101, R109). -/
def State.nextApply (s : State) (o : OutFmt) (hops : Nat) : Nat :=
  let lead := leadTu s.bud.profile hops o.fmt.rate o.total
  s.stampOf o.plane (o.nextSwitch (s.planeTu o.plane + lead + 1))

/-- PTP time of the first switch point at or after a PTP time. -/
def State.switchAfter (s : State) (o : OutFmt) (ns : Nat) : Nat :=
  s.stampOf o.plane (o.nextSwitch (s.planeOf o.plane ns))

/-- Whether a plane runs (R282). -/
def State.planeOn (s : State) (p : Nat) : Bool := fbit (tget planeReset s.ref.plane p) Plane.planeEn

/-- Frame rate code of a plane. -/
def State.planeRate (s : State) (p : Nat) : Nat := fget (tget planeReset s.ref.plane p) Plane.plRate

end Sys2Proof.Machine
end

