-- ==== Sys2Proof/Machine/Budget.lean ====
section
/-! DEFINITION. The Ticket Booth (R72 to R84, R541, R542): limits of every profile, the credits of a claim, admission all or
nothing, release, and the binding of a ring's writer. A claim is a `Hold`; claims of one group are one claim (R80), so USED
counts each group once. -/

namespace Sys2Proof.Machine

open Sys2Proof

/-! ### Limits -/

/-- Slots per turn of a class (resource code 1 to 5) on a full card (R73). -/
def classSlots : Profile → Nat → Nat
  | .balanced, 1 => 2048 | .balanced, 2 => 2048 | .balanced, 3 => 2048 | .balanced, 4 => 1280 | .balanced, 5 => 256
  | .matrix, 1 => 2560 | .matrix, 2 => 3072 | .matrix, 3 => 512 | .matrix, 4 => 1280 | .matrix, 5 => 256
  | .workshop, 1 => 1536 | .workshop, 2 => 1536 | .workshop, 3 => 3840 | .workshop, 4 => 512 | .workshop, 5 => 256
  | .peering, 1 => 1792 | .peering, 2 => 1792 | .peering, 3 => 1024 | .peering, 4 => 2816 | .peering, 5 => 256
  | .tightrope, 1 => 1024 | .tightrope, 2 => 1280 | .tightrope, 3 => 512 | .tightrope, 4 => 640 | .tightrope, 5 => 128
  | .economy, 1 => 1024 | .economy, 2 => 1024 | .economy, 3 => 768 | .economy, 4 => 512 | .economy, 5 => 256
  | _, _ => 0

/-- Slot length in ns (R68). -/
def slotNs : Profile → Nat
  | .economy => 64
  | _ => 32

/-- Slots of one channel in a turn (R68). -/
def channelSlots (p : Profile) : Nat := turnNs p / slotNs p

/-- Populated channels (R29). -/
def channelCount (reduced : Bool) : Nat := if reduced then 8 else 16

/-- Slots of a turn (R68, R73, R74). -/
def turnSlots (p : Profile) (reduced : Bool) : Nat := channelSlots p * channelCount reduced

/-- Margin slots of one channel, and of the card, in a turn (R74). -/
def channelMargin : Nat := 32
def marginSlots (reduced : Bool) : Nat := channelMargin * channelCount reduced

/-- Slots of a class on each channel in a turn (R70, R73, R74). -/
def channelShare (p : Profile) (c : Nat) : Nat := classSlots p c / 16

/-- Slots of a class taken on a channel in this turn. -/
def slotsTaken (b : BudSt) (ch c : Nat) : Nat := tget natReset b.taken (8 * ch + c)

/-- A slot of a class taken on a channel. -/
def takeSlot (ch c : Nat) (b : BudSt) : BudSt := { b with taken := tset natReset b.taken (8 * ch + c) (slotsTaken b ch c + 1) }

/-- Slots on a channel that claims of a class may still take in this turn, by their accumulators and the class's share. -/
def slotsClaimed (b : BudSt) (ch c : Nat) : Nat :=
  min (channelShare b.profile c - slotsTaken b ch c) ((b.holds.filter (fun h => h.res == c)).map (fun h => h.acc / 16)).sum

/-- Slots on a channel left for best-effort traffic in this turn (R17, R71): those no claim has taken or may take, and what refresh,
re-centring and check records leave of the margin, of which they use at most 28 (R32; how many is free, log entry 104). -/
def bestSlots (b : BudSt) (ch : Nat) : Nat :=
  channelSlots b.profile - min 28 (Config.marginUse b.turn ch) - slotsTaken b ch 0 -
    (([1, 2, 3, 4, 5].map (fun c => slotsTaken b ch c + slotsClaimed b ch c)).sum)

/-- LIMIT of a class in credits (R81); half on a reduced card (R74). -/
def classLimit (p : Profile) (reduced : Bool) (c : Nat) : Nat :=
  (if reduced then classSlots p c / 2 else classSlots p c) * 16

/-- Credits of one Svanum lane by lane-rate code (R82), halved in TIGHTROPE. -/
def laneCredits (p : Profile) (rate : Nat) : Nat :=
  let c := match rate with | 0 => 384 | 1 => 192 | 2 => 80 | _ => 16
  if p = .tightrope then c / 2 else c

/-- The UP or DEGRADED link towards a member; one towards a boot peer carries neither tiles nor commands (R481). -/
def linkTo (s : State) (m : Nat) : Option Nat :=
  (List.range 7).find? (fun k => let l := tget linkReset s.trp.link k
    fbit l Link.linkEn && !(s.linkSt k).boot && fget l Link.peer == m && (fget l Link.linkState == 2 || fget l Link.linkState == 3))

/-- Capacity of the link towards a member (R81, R542): 0 where none is UP or DEGRADED. -/
def linkLimit (p : Profile) (s : State) (m : Nat) : Nat :=
  match linkTo s m with
  | some k => let l := tget linkReset s.trp.link k
    laneCredits p (fget l Link.actRate) * fget l Link.actLanes
  | none => 0

/-- Ring space in tiles (R35). -/
def ringSpace (reduced : Bool) : Nat := if reduced then 8355840 else 16728064

/-- Lanes of a sub-port by SPLIT and position (R157): 0 where the split does not create it. -/
def splitLanes (split sub : Nat) : Nat :=
  if sub < 2 ^ split then 8 / 2 ^ split else 0

/-- Pacer limit of a sub-port in kbit/s: 96 % of its MAC rate of 100 Gbit/s a lane (R201). -/
def pacerLimit (s : State) (n sub : Nat) : Nat :=
  splitLanes (fget (tget ethReset s.eth.port n) EthPort.split) sub * 96000000

/-- The limit of a resource under a profile (R81, R211, R243, R334, R542); `obj` is the object of a code counted per
object. -/
def resLimit (p : Profile) (s : State) (res obj : Nat) : Nat :=
  if res ≤ 5 then classLimit p s.pwr.reduced res
  else if 0x40 ≤ res && res ≤ 0x47 then linkLimit p s (res - 0x40)
  else if 0x50 ≤ res && res ≤ 0x53 then pacerLimit s (res - 0x50) obj
  else match res with
    | 0x10 => 8192
    | 0x11 => ringSpace s.pwr.reduced
    | 0x12 => 8192
    | 0x13 => 262144
    | 0x14 => 4096
    | 0x15 => 1024
    | 0x16 => 4096
    | 0x17 => 4096
    | 0x20 => if p = .economy then 8 else 16
    | 0x21 => 9
    | 0x30 => 512
    | 0x31 => 128
    | 0x32 => 1024
    | 0x33 => 4096
    | 0x34 => 1024
    | 0x35 => 1024
    | _ => 0

/-! ### Credits of a claim (R78, R79) -/

/-- ceil(16 × P × turn), never below 1, for P = num / den tiles per second. -/
def credits (p : Profile) (num den : Nat) : Nat := max 1 (cdiv (16 * num * turnNs p) (den * 1000000000))

/-- Whether a ring holds video, and its parts (R52). -/
def ringType (d : BitVec 256) : Nat := fget d RingDesc.typeF
def ringClass (d : BitVec 256) : Nat := fget d RingDesc.classF
def ringIsVideo (d : BitVec 256) : Bool := ringType d ≤ 1
def ringFree (d : BitVec 256) : Bool := fget d RingDesc.stateF == 0

/-- The peak tile rate of R78 of a ring, as numerator and denominator. The frame rate is that of the ring's PLANE (R412);
the declared rates are those of RING_CREATE with its defaults. -/
def ringPeak (s : State) (d : BitVec 256) (decl : Nat × Nat) : Nat × Nat :=
  let rate := s.planeRate (fget d RingDesc.plane)
  if ringClass d = 3 then (decl.1, 1)
  else match ringType d with
  | 2 => (1000, 1)
  | 3 =>
    let (num, den) := if decl.1 = 0 then (rateNum rate, rateDen rate) else (decl.1, 1)
    (num * cdiv (if decl.2 = 0 then 4096 else decl.2) 4096, den)
  | _ => (fget d RingDesc.tpf * rateNum rate * totalLines (fget d RingDesc.lines), rateDen rate * max 1 (fget d RingDesc.lines))

/-- Credits of a write or read of a ring with a given descriptor. -/
def descCredits (p : Profile) (s : State) (d : BitVec 256) (decl : Nat × Nat) : Nat :=
  let (num, den) := ringPeak s d decl
  credits p num den

/-- Credits of a write or read of a ring as it stands. -/
def ringCredits (p : Profile) (s : State) (r : Nat) : Nat := descCredits p s (s.ring r) (tget declReset s.mem.decl r)

/-- Credits of a held claim under a profile (R76): recomputed for a new turn length; other counts stay. -/
def holdCredits (p : Profile) (s : State) (h : Hold) : Nat :=
  if turnNs p = turnNs s.bud.profile then h.credits
  else match h.grp with
  | .write r => ringCredits p s r
  | .route r _ _ _ => ringCredits p s r
  | .compRead _ r _ => ringCredits p s r
  | .layer c l => ringCredits p s (fget (tget layerRecReset s.cmp.layer (8 * c + l)) Layer.sourceRing)
  | .compOut c k => ringCredits p s (fget (tget compOutReset s.cmp.out (4 * c + k)) CompOut.outRing)
  | .calRead _ _ => credits p 1000 1
  | .merge m leg => let r := tget mergeReset s.flo.merge m
    ringCredits p s (if leg = 0 then fget r Merge.primaryRing else fget r Merge.secondaryRing)
  | .outgoing r => ringCredits p s r
  | .link r _ => ringCredits p s r
  | _ => h.credits

/-! ### What is in use -/

/-- The claims of a resource, one per group (R80). -/
def distinctHolds (l : List Hold) (res obj : Nat) : List Hold :=
  (l.filter (fun h => h.res == res && h.obj == obj)).foldl (fun acc h => if acc.any (fun g => g.grp == h.grp) then acc else acc ++ [h]) []

/-- USED of a resource from the claims. -/
def usedOf (l : List Hold) (res obj : Nat) : Nat := ((distinctHolds l res obj).map (·.credits)).sum

/-- Enabled layers of a Composer, CUR included (R215). -/
def layersUsed (s : State) (c : Nat) : Nat :=
  ((List.range 8).filter (fun l => fbit (tget layerRecReset s.cmp.layer (8 * c + l)) Layer.layerEn)).length +
    bit (fbit (tget curReset s.cmp.cur c) Cursor.curEn)

/-- USED of a resource: claims, or the enabled objects of a kind. -/
def resUsed (s : State) (res obj : Nat) : Nat :=
  match res with
  | 0x10 => (s.mem.rings.filter (fun e => !ringFree e.2)).length
  | 0x11 => ((s.mem.rings.filter (fun e => !ringFree e.2)).map (fun e => fget e.2 RingDesc.length)).sum
  | 0x12 => (s.flo.table.filter (fun f => fget f.key FlowEntry.typeF == 0)).length
  | 0x13 => s.flo.table.length
  | 0x14 => (s.flo.pkt.filter (fun e => fbit e.2 PktFlow.flowEn)).length
  | 0x15 => (s.flo.merge.filter (fun e => fbit e.2 Merge.mergeEn)).length
  | 0x16 => (s.trp.exp.filter (fun e => fbit e.2 Export.expEn)).length
  | 0x17 => (s.trp.imp.filter (fun e => fbit e.2 Import.impEn)).length
  | 0x21 => layersUsed s obj
  | 0x30 => (s.cal.bus.filter (fun e => fbit e.2 Bus.busEn)).length
  | 0x31 => (s.cal.busIn.filter (fun e => e.1 / 128 == obj && fbit e.2 BusIn.xpEn)).length
  | 0x32 => (s.cal.dyn.filter (fun e => fbit e.2 Dyn.dynEn)).length
  | 0x33 => ((s.bud.holds.filter (fun h => h.res == 3)).foldl (fun acc h =>
      match h.grp with | .calRead _ k => if acc.contains h.grp || 4 ≤ k then acc else h.grp :: acc | _ => acc) []).length
  | 0x34 => (s.cal.audIn.filter (fun e => fbit e.2 AudIn.inEn)).length
  | 0x35 => (s.cal.outHdr.filter (fun e => fbit e.2 AudOut.outEn)).length
  | _ => usedOf s.bud.holds res obj

/-- The resources and objects of BUDGET_QUERY's entries, in their order (R542). -/
def resEntries : List (Nat × Nat) :=
  [0x10, 0x11, 0x12, 0x13, 0x14, 0x15, 0x16, 0x17, 0x20].map (·, 0) ++ (List.range 16).map (0x21, ·) ++ [(0x30, 0)] ++
    (List.range 512).map (0x31, ·) ++ [0x32, 0x33, 0x34, 0x35].map (·, 0) ++ (List.range 8).map (fun m => (0x40 + m, 0)) ++
    (List.range 4).flatMap (fun n => (List.range 8).map (fun i => (0x50 + n, i))) ++ [(0x60, 0)]

/-! ### Admission (R83) and release -/

/-- A claim an admission asks for. -/
def Hold.new (res obj : Nat) (grp : Grp) (holder : Holder) (credits : Nat) : Hold := ⟨res, obj, grp, holder, credits, 0⟩

/-- A claim already held by its group. -/
def heldGroup (l : List Hold) (h : Hold) : Option Hold :=
  l.find? (fun g => g.res == h.res && g.obj == h.obj && g.grp == h.grp)

/-- The claims after adding one: a reader joining a group takes the group's credits and accumulator (R80). -/
def addHold (l : List Hold) (h : Hold) : List Hold :=
  if l.any (fun g => g.res == h.res && g.obj == h.obj && g.grp == h.grp && g.by_ == h.by_) then l
  else match heldGroup l h with
    | some g => l ++ [{ h with credits := g.credits, acc := g.acc }]
    | none => l ++ [h]

/-- The resources an admission touches, lowest code first, then lowest object. -/
def touched (add : List Hold) : List (Nat × Nat) :=
  (add.map (fun h => (h.res, h.obj))).foldl (fun acc p => pinsert p acc) []

/-- R81: SUBPORT of an E_BUDGET response. -/
def budgetSub (res obj : Nat) : Nat := if 0x50 ≤ res && res ≤ 0x53 then obj else 0xFF

/-- Whether the claims `new`, beside those of `base`, fit: the lowest resource code that does not (R83). -/
def budgetBad (s : State) (base add : List Hold) : Option (Nat × Nat × Nat × Nat) :=
  let all := add.foldl addHold base
  (touched add).findSome? (fun (res, obj) =>
    let limit := resLimit s.bud.profile s res obj
    let used := usedOf base res obj
    let need := usedOf all res obj - used
    if used + need ≤ limit then none else some (res, obj, need, limit - used))

/-- HIGH of the five slot classes after a change of the claims (R84). -/
def raiseHigh (b : BudSt) : BudSt :=
  { b with high := [1, 2, 3, 4, 5].foldl (fun t c => tset natReset t c (max (tget natReset t c) (usedOf b.holds c 0))) b.high }

/-- The claims that an accepted change of profile would find (R72, R76): the lowest resource of an admission that does not fit the profile
to come, in the form of `budgetBad`. -/
def nextBad (s : State) (base add : List Hold) : Option (Nat × Nat × Nat × Nat) :=
  match s.bud.nextProfile with
  | none => none
  | some p =>
    let under (l : List Hold) : List Hold := l.map (fun h => { h with credits := holdCredits p s h })
    let all := under (add.foldl addHold base)
    (touched add).findSome? (fun (res, obj) =>
      let limit := resLimit p s res obj
      let used := usedOf (under base) res obj
      if usedOf all res obj ≤ limit then none else some (res, obj, usedOf all res obj - used, limit - used))

/-- R83, R98: an admission that charges no claim of its own, as of a mix bus or one of its inputs (R243). -/
def State.mayAdmit (s : State) : Except Err Unit := do
  need (!s.bud.blocked) eState
  need (!s.bud.rebuild) eBusy

/-- R83, R98, R433: the claims of one command, all or nothing. `drop` names held claims the same step releases. -/
def claimAll (add : List Hold) (drop : Hold → Bool) (s : State) : Except Err State := do
  if !add.isEmpty then s.mayAdmit
  let base := s.bud.holds.filter (fun h => !drop h)
  match (budgetBad s base add).or (nextBad s base add) with
  | some (res, obj, needed, avail) => errBudget res needed avail (budgetSub res obj)
  | none => return s.onBud (fun b => raiseHigh { b with holds := add.foldl addHold base })

/-- The claims of a command that also takes one object of each of some kinds, of which none is left of those in `full`, lowest code
first: the lowest resource code that does not fit names the refusal (R83). -/
def claimBeside (full : List Nat) (add : List Hold) (drop : Hold → Bool) (s : State) : Except Err State :=
  match full with
  | [] => claimAll add drop s
  | c :: _ => do
    let _ ← claimAll (add.filter (fun h => h.res < c)) drop s
    errBudget c 1 0

/-- The claims a holder gives up. -/
def State.release (drop : Hold → Bool) (s : State) : State :=
  s.onBud (fun b => { b with holds := b.holds.filter (fun h => !drop h) })

def Hold.heldBy (w : Holder) (h : Hold) : Bool := h.by_ == w

/-- R77: a claim on a resource that ECONOMY disables. -/
def disabledHold (n : Nat) : Hold := Hold.new 0x60 0 (.disabled n) (.ring 0) 1

/-- Whether ECONOMY is in force, or an accepted change is about to bring it (R76, R77). -/
def State.inEconomy (s : State) : Bool := s.bud.profile == .economy || s.bud.nextProfile == some .economy

/-- R77: the claims an enable makes where the present profile disables the resource. -/
def economyHolds (s : State) (disabled : Bool) (n : Nat) : List Hold :=
  if disabled && s.inEconomy then [disabledHold n] else []

/-! ### The writer of a ring (R541) -/

/-- The write claim a binding of a ring asks for, none where the ring already holds it in that class at those credits. -/
def writeHold (s : State) (class_ ring : Nat) : List Hold :=
  let want := Hold.new class_ 0 (.write ring) (.ring ring) (ringCredits s.bud.profile s ring)
  if s.bud.holds.any (fun h => h.grp == .write ring && h.res == class_ && h.credits == want.credits) then [] else [want]

/-- Write claims that bindings of these rings replace. -/
def writeDrop (add : List Hold) (h : Hold) : Bool :=
  match h.grp with
  | .write r => add.any (fun g => g.grp == .write r)
  | _ => false

/-- WCRED shows the write claim of a ring, 0 while it holds none (R52). -/
def State.syncWcred (ring : Nat) (s : State) : State :=
  let c := match s.bud.holds.find? (fun h => h.grp == .write ring) with | some h => h.credits | none => 0
  s.setRing ring (fput (s.ring ring) RingDesc.wcred c)

def State.syncWcreds (rings : List Nat) (s : State) : State := rings.foldl (fun s r => s.syncWcred r) s

/-- The rings a list of claims writes. -/
def writtenRings (l : List Hold) : List Nat :=
  l.filterMap (fun h => match h.grp with | .write r => some r | _ => none)

/-! ### Change of profile (R76, R77) -/

/-- The resources ECONOMY disables that are in use (R77). -/
def economyUse (s : State) : Nat :=
  (s.sdi.cfg.filter (fun e => 72 ≤ e.1 && (fbit e.2 SdiLane.rxEn || fbit e.2 SdiLane.txEn))).length +
  ([2, 3].filter (fun n => fbit (tget ethReset s.eth.port n) EthPort.portEn ||
    s.flo.table.any (fun f => fbit f.key FlowEntry.usePort && fget f.key FlowEntry.port == n) ||
    s.flo.pkt.any (fun e => fbit e.2 PktFlow.flowEn && fget e.2 PktFlow.port == n) ||
    s.ptp.inst.any (fun e => fbit e.2 Inst.instEn && fget e.2 Inst.port == n))).length +
  ([8, 9, 10, 11, 12, 13, 14, 15].filter (fun c => s.cmp.out.any (fun e => e.1 / 4 == c && fbit e.2 CompOut.compEn))).length

/-- Every claim with its credits under a new profile. -/
def reholds (p : Profile) (s : State) : List Hold := s.bud.holds.map (fun h => { h with credits := holdCredits p s h })

/-- The lowest resource that would overflow under a new profile: code, object, amount in use, new limit. -/
def profileBad (p : Profile) (s : State) : Option (Nat × Nat × Nat × Nat) :=
  let l := reholds p s
  (touched l).findSome? (fun (res, obj) =>
    let limit := resLimit p s res obj
    let used := usedOf l res obj
    if used ≤ limit then none else some (res, obj, used, limit))

end Sys2Proof.Machine
end

