-- ==== Sys2Proof/Machine/Colour.lean ====
section
/-! DEFINITION. The colour chain of a Composer (R225 to R230, R233): the functions of its stages in fixed point with 64 fractional
bits. The rules give real-number formulas; the model evaluates them to well within a part in 2^48 (DEDUCED, log entry 40). -/

namespace Sys2Proof.Machine

open Sys2Proof

/-! ### Fixed point -/

/-- One, in fixed point. -/
def fx : Nat := 2 ^ 64

def fxMul (a b : Int) : Int := a * b / fx
def fxDiv (a b : Int) : Int := if b = 0 then 0 else a * fx / b
/-- The fixed-point number nearest below a fraction. -/
def fxRat (a : Int) (b : Nat) : Int := a * fx / (max 1 b : Nat)

/-- Bits of the fractional part of log2 of `m` / 2^128, for m in [2^128, 2^129): squared once for each. -/
def logBits : Nat → Nat → Nat → Nat
  | 0, _, acc => acc
  | n + 1, m, acc =>
    let q := m * m / 2 ^ 128
    if 2 ^ 129 ≤ q then logBits n (q / 2) (2 * acc + 1) else logBits n q (2 * acc)

/-- log2 of a positive fixed-point number. -/
def fxLog2 (x : Nat) : Int :=
  let e := Nat.log2 x
  ((e : Int) - 64) * fx + logBits 64 (x * 2 ^ 128 / 2 ^ e) 0

/-- ln 2 with 128 fractional bits. -/
def ln2 : Nat := 235865763225513294137944142764154484399

/-- The exponential series of z / 2^128, for 0 ≤ z < 2^128: `n` terms from the k-th. -/
def expSeries : Nat → Nat → Nat → Nat → Nat
  | 0, _, _, _ => 0
  | n + 1, k, z, term => term + expSeries n (k + 1) z (term * z / (2 ^ 128 * (k + 1)))

/-- 2 to a fixed-point power. -/
def fxExp2 (y : Int) : Int :=
  let e := y / fx
  let f := (y - e * fx).toNat
  let v : Nat := expSeries 40 0 (f * ln2 / fx) (2 ^ 128)
  if 0 ≤ e then v * 2 ^ e.toNat / fx else v / (fx * 2 ^ (-e).toNat)

/-- A fixed-point number to the power num / den; 0 where it is not positive. -/
def fxPow (x num : Int) (den : Nat) : Int := if x ≤ 0 then 0 else fxExp2 (fxLog2 x.toNat * num / den)

/-- The natural exponential and logarithm. -/
def fxExp (z : Int) : Int := fxExp2 (z * 2 ^ 128 / ln2)
def fxLn (x : Int) : Int := if x ≤ 0 then 0 else fxLog2 x.toNat * ln2 / 2 ^ 128

/-- A fixed-point number rounded to the nearest whole number, ties away from zero. -/
def fxRound (v : Int) : Int := if 0 ≤ v then (2 * v + fx) / (2 * fx) else -((-2 * v + fx) / (2 * fx))

/-- A colour: red, green, blue. -/
structure Rgb where
  r : Int
  g : Int
  b : Int
  deriving DecidableEq, Repr

def Rgb.map (f : Int → Int) (p : Rgb) : Rgb := ⟨f p.r, f p.g, f p.b⟩
def Rgb.top (p : Rgb) : Int := max p.r (max p.g p.b)
def Rgb.bottom (p : Rgb) : Int := min p.r (min p.g p.b)

/-- Luminance weights of a gamut (R229): 0 BT.709, 1 BT.2020. -/
def lumaWeights (gamut : Nat) : Rgb :=
  if gamut = 0 then ⟨fxRat 2126 10000, fxRat 7152 10000, fxRat 722 10000⟩ else ⟨fxRat 2627 10000, fxRat 6780 10000, fxRat 593 10000⟩

def luminance (gamut : Nat) (p : Rgb) : Int :=
  let w := lumaWeights gamut
  fxMul w.r p.r + fxMul w.g p.g + fxMul w.b p.b

/-! ### Codes and signals (stages 2, 4, 14, 15) -/

/-- Bits of a sample of a FORMAT. -/
def fmtBits (fmt : Nat) : Nat := if fmt % 2 == 0 then 10 else 12

/-- The signal of a luma or RGB code, and of a colour-difference code. -/
def lumaSignal (bits : Nat) (full : Bool) (c : Int) : Int :=
  if full then fxRat c (2 ^ bits - 1) else fxRat (c - 16 * 2 ^ (bits - 8)) (219 * 2 ^ (bits - 8))
def chromaSignal (bits : Nat) (full : Bool) (c : Int) : Int :=
  if full then fxRat (c - 2 ^ (bits - 1)) (2 ^ bits - 1) else fxRat (c - 2 ^ (bits - 1)) (224 * 2 ^ (bits - 8))

/-- The code of a signal, rounded to nearest with ties away from zero and held within the codes of the depth. -/
def lumaCode (bits : Nat) (full : Bool) (v : Int) : Nat :=
  let c := fxRound (if full then v * (2 ^ bits - 1) else v * (219 * 2 ^ (bits - 8)) + 16 * 2 ^ (bits - 8) * fx)
  (clampInt 0 (2 ^ bits - 1) c).toNat
def chromaCode (bits : Nat) (full : Bool) (v : Int) : Nat :=
  let c := fxRound ((if full then v * (2 ^ bits - 1) else v * (224 * 2 ^ (bits - 8))) + 2 ^ (bits - 1) * fx)
  (clampInt 0 (2 ^ bits - 1) c).toNat

/-- Y'CbCr to R'G'B' and back, in the non-constant-luminance matrix of a gamut. -/
def toRgb (gamut : Nat) (y cb cr : Int) : Rgb :=
  let w := lumaWeights gamut
  let r := y + fxMul (2 * (fx - w.r)) cr
  let b := y + fxMul (2 * (fx - w.b)) cb
  ⟨r, fxDiv (y - fxMul w.r r - fxMul w.b b) w.g, b⟩
def fromRgb (gamut : Nat) (p : Rgb) : Int × Int × Int :=
  let w := lumaWeights gamut
  let y := luminance gamut p
  (y, fxDiv (p.b - y) (2 * (fx - w.b)), fxDiv (p.r - y) (2 * (fx - w.r)))

/-! ### Transfer functions (R226) -/

/-- BT.2100 HLG. -/
def hlgA : Int := fxRat 17883277 100000000
def hlgB : Int := fxRat 28466892 100000000
def hlgC : Int := fxRat 55991073 100000000

def hlgInvOetf (v : Int) : Int :=
  if v ≤ fx / 2 then fxMul v v / 3 else (fxExp (fxDiv (v - hlgC) hlgA) + hlgB) / 12
def hlgOetf (e : Int) : Int :=
  if e ≤ fx / 12 then fxPow (3 * e) 1 2 else fxMul hlgA (fxLn (12 * e - hlgB)) + hlgC

/-- BT.2100 PQ, in fractions of 10,000 cd/m². -/
def pqEotf (v : Int) : Int :=
  let p := fxPow v 32 2523
  fxPow (fxDiv (max 0 (p - fxRat 3424 4096)) (fxRat 2413 128 - fxMul (fxRat 2392 128) p)) 16384 2610
def pqInv (l : Int) : Int :=
  let p := fxPow l 2610 16384
  fxPow (fxDiv (fxRat 3424 4096 + fxMul (fxRat 2413 128) p) (fx + fxMul (fxRat 2392 128) p)) 2523 32

/-- Stages 5 and 6 with a built-in table: signal to display light, 1.0 at 203 cd/m². Sub-black is 0, and nothing exceeds the largest value of
R226. -/
def toLight (tf gamut : Nat) (p : Rgb) : Rgb :=
  let q := p.map (max 0)
  match tf with
  | 0 => q.map (fun v => fxPow (min v (fxRat 109 100)) 12 5)
  | 1 =>
    let e := q.map hlgInvOetf
    let k := fxMul (fxRat 1000 203) (fxPow (luminance gamut e) 1 5)
    e.map (fun v => min (fxMul k v) (fxRat 1000 203))
  | _ => q.map (fun v => pqEotf (min v fx) * 10000 / 203)

/-- Stage 11: display light to signal. -/
def toSignal (tf gamut : Nat) (p : Rgb) : Rgb :=
  match tf with
  | 0 => p.map (fun v => fxPow v 5 12)
  | 1 =>
    let d := p.map (fun v => v * 203 / 1000)
    let k := fxPow (luminance gamut d) (-1) 6
    d.map (fun v => hlgOetf (fxMul k v))
  | _ => p.map (fun v => pqInv (v * 203 / 10000))

/-- The output peak (R226). -/
def outPeak (tf pqPeak : Nat) : Int :=
  match tf with
  | 0 => fx
  | 1 => fxRat 1000 203
  | _ => fxRat pqPeak 203

/-! ### Tables (R231) -/

/-- A binary32 number from 0 to 64.0, as fixed point. -/
def binary32 (w : Nat) : Int :=
  let e := w / 2 ^ 23 % 256
  let m : Nat := if e = 0 then w % 2 ^ 23 else w % 2 ^ 23 + 2 ^ 23
  let x : Nat := max 1 e
  if 86 ≤ x then (m : Int) * 2 ^ (x - 86) else (m : Int) / 2 ^ (86 - x)

/-- Whether an entry is finite and from 0 to 64.0. -/
def binary32Ok (w : Nat) : Bool := w ≤ 0x42800000

/-- Entry `i` of a table of binary32 words. -/
def lutEntry (bank : List Byte) (i : Nat) : Int := binary32 (leNat ((bank.drop (4 * i)).take 4))

/-- Stage 5 with a custom table: the channel's code at the source's depth, a 10-bit one shifted left by 2 (DEDUCED, log entry 41). -/
def linLookup (bank : List Byte) (bits : Nat) (v : Int) : Int :=
  let c := (clampInt 0 (2 ^ bits - 1) (fxRound (v * (2 ^ bits - 1)))).toNat
  lutEntry bank (if bits = 10 then 4 * c else c)

/-- The tone table: linear interpolation in log2 of m between its 1,024 entries. -/
def toneLookup (bank : List Byte) (m : Int) : Int :=
  if m < fx / 2 ^ 14 then m
  else if 64 * fx < m then lutEntry bank 1023
  else
    let p := (fxLog2 m.toNat + 14 * fx) * 1023 / 20
    let j := (p / fx).toNat
    if 1023 ≤ j then lutEntry bank 1023
    else lutEntry bank j + fxMul (lutEntry bank (j + 1) - lutEntry bank j) (p - j * fx)

/-- A node of the 3D table. -/
def node3 (bank : List Byte) (r g b : Nat) : Rgb :=
  let o := 6 * (r + 33 * g + 1089 * b)
  let w (i : Nat) : Int := fxRat (leNat ((bank.drop (o + 2 * i)).take 2)) 65535
  ⟨w 0, w 1, w 2⟩

/-- A corner of the cell of a node, along the axes the bits of `k` name (1 red, 2 green, 4 blue). -/
def corner (bank : List Byte) (r g b k : Nat) : Rgb := node3 bank (min 32 (r + k % 2)) (min 32 (g + k / 2 % 2)) (min 32 (b + k / 4))

def rgbMix (p q : Rgb) (t : Int) : Rgb := ⟨p.r + fxMul t q.r, p.g + fxMul t q.g, p.b + fxMul t q.b⟩
def rgbSub (p q : Rgb) : Rgb := ⟨p.r - q.r, p.g - q.g, p.b - q.b⟩

/-- An axis put among others with their fractions falling. -/
def byFraction (a : Int × Nat) : List (Int × Nat) → List (Int × Nat)
  | [] => [a]
  | b :: l => if b.1 < a.1 then a :: b :: l else b :: byFraction a l

/-- Stage 12: tetrahedral interpolation. From the node below, the axes are climbed in the order of their fractions. -/
def cube (bank : List Byte) (p : Rgb) : Rgb :=
  let q := p.map (fun v => clampInt 0 fx v * 32)
  let i (v : Int) : Nat := min 31 (v / fx).toNat
  let (r, g, b) := (i q.r, i q.g, i q.b)
  let axes : List (Int × Nat) := [(q.r - r * fx, 1), (q.g - g * fx, 2), (q.b - b * fx, 4)]
  ((axes.foldl (fun l a => byFraction a l) []).foldl (fun (a : Rgb × Nat) e =>
    let k := a.2 + e.2
    (rgbMix a.1 (rgbSub (corner bank r g b k) (corner bank r g b a.2)) e.1, k)) (corner bank r g b 0, 0)).1

/-! ### Matrices and tone (R227, R228) -/

/-- A 3 × 3 matrix of fixed-point coefficients, by rows. -/
abbrev Mat3 := List Int

def matMul (m : Mat3) (p : Rgb) : Rgb :=
  let row (i : Nat) : Int := fxMul (m.getD i 0) p.r + fxMul (m.getD (i + 1) 0) p.g + fxMul (m.getD (i + 2) 0) p.b
  ⟨row 0, row 3, row 6⟩

def mat4 (l : List Int) : Mat3 := l.map (fun x => fxRat x 10000)

/-- R227. -/
def gamutMatrix (src out : Nat) : Mat3 :=
  if src = out then mat4 [10000, 0, 0, 0, 10000, 0, 0, 0, 10000]
  else if src = 0 then mat4 [6274, 3293, 433, 691, 9195, 114, 164, 880, 8956]
  else mat4 [16605, -5876, -728, -1246, 11329, -83, -182, -1006, 11187]

/-- The custom matrix: 24 fractional bits (R218). -/
def customMatrix (m : BitVec 288) : Mat3 := (List.range 9).map (fun i => sgn 32 (m.toNat / 2 ^ (32 * i)) * 2 ^ 40)

/-- The parametric curve. -/
def toneCurve (knee src dst : Nat) (m : Int) : Int :=
  let k := fxRat knee 1024
  let s := fxRat src 1024
  let d := fxRat dst 1024
  if m ≤ k then m
  else if s ≤ m then d
  else
    let t := fxDiv (m - k) (s - k)
    let a := fxDiv (d - k) (s - d)
    k + fxDiv (fxMul (fxMul (d - k) t) (fx + a)) (t + a)

/-- Stage 8: the ratios of the channels are kept. -/
def toneMap (y : Int → Int) (p : Rgb) : Rgb :=
  let m := p.top
  if m ≤ 0 then p else
  let k := fxDiv (y m) m
  if y m = m then p else p.map (fxMul k)

/-! ### Clip (R230) and cursor (R233) -/

def clipRgb (mode gamut : Nat) (peak : Int) (p : Rgb) : Rgb :=
  if mode = 0 then p.map (clampInt 0 peak)
  else
    let y := luminance gamut p
    let low := p.bottom
    let q : Rgb := if 0 ≤ low then p else if y ≤ 0 then ⟨0, 0, 0⟩
      else let t := fxDiv y (y - low)
        p.map (fun c => max 0 (y + fxMul t (c - y)))
    if peak < q.top then let k := fxDiv peak q.top
      q.map (fun c => min peak (fxMul k c)) else q

/-- Stage 13: a bitmap word over a pixel. -/
def cursorOver (w : Nat) (p : Rgb) : Rgb :=
  let a : Int := w / 2 ^ 24 % 256
  let c (v : Nat) : Int := fxRat (16 * v + v / 16) 4095
  let mix (x : Int) (v : Nat) : Int := (a * c v + (255 - a) * x) / 255
  ⟨mix p.r (w / 2 ^ 16 % 256), mix p.g (w / 2 ^ 8 % 256), mix p.b (w % 256)⟩

/-- R220: a layer of opacity `alpha` over what lies below. -/
def blendOver (alpha : Nat) (p acc : Rgb) : Rgb :=
  let mix (x y : Int) : Int := (alpha * x + (1023 - alpha : Nat) * y) / 1023
  ⟨mix p.r acc.r, mix p.g acc.g, mix p.b acc.b⟩

end Sys2Proof.Machine
end

