-- ==== Sys2Proof/Machine/AudioRecs.lean ====
section
/-! DEFINITION. Calliope's records as the checks of rings, routes and audio commands read them (R48, R242, R248 to R252): taps, rates,
and the records that writes held for a TARGET will leave (R247). -/

namespace Sys2Proof.Machine

open Sys2Proof

/-! ### Audio rings (R48) -/

/-- Rate, channels and samples of a millisecond of an audio ring. -/
def ringHz (d : BitVec 256) : Nat := if fget d RingDesc.formatF = 1 then 96000 else 48000
def ringChans (d : BitVec 256) : Nat := if fget d RingDesc.formatF = 1 then 8 else 16
def ringMs (d : BitVec 256) : Nat := if fget d RingDesc.formatF = 1 then 96 else 48

/-- Little-endian words of a tile. -/
def wordsOf : Nat → List Byte → List (BitVec 32)
  | 0, _ => []
  | n + 1, bs => BitVec.ofNat 32 (leNat (bs.take 4)) :: wordsOf n (bs.drop 4)

/-! ### Records -/

def State.audIn (s : State) (i : Nat) : BitVec 256 := tget audInReset s.cal.audIn i
def State.audOut (s : State) (o : Nat) : BitVec 128 := tget outHdrReset s.cal.outHdr o
/-- A channel entry, by 16·slot + c. -/
def State.audCh (s : State) (i : Nat) : BitVec 64 := tget outChReset s.cal.outCh i
def State.mixBus (s : State) (b : Nat) : BitVec 256 := tget busReset s.cal.bus b
/-- An input entry of a bus, by 128·bus + entry. -/
def State.busInput (s : State) (i : Nat) : BitVec 32 := tget busInReset s.cal.busIn i
def State.dynRec (s : State) (i : Nat) : BitVec 256 := tget dynReset s.cal.dyn i

/-! ### Taps (R248, R249) -/

/-- Delay of a tap of an input slot, and the tap a channel of it is taken at. -/
def tapDelay (e : BitVec 256) : Nat → Nat
  | 0 => fget e AudIn.tap0Delay
  | 1 => fget e AudIn.tap1Delay
  | 2 => fget e AudIn.tap2Delay
  | _ => fget e AudIn.tap3Delay
def tapOf (e : BitVec 256) (c : Nat) : Nat := fget e AudIn.tapMap / 4 ^ c % 4

/-- The taps in use (R248). -/
def tapsUsed (e : BitVec 256) : List Nat :=
  if fbit e AudIn.inEn then (List.range 4).filter (fun t => (List.range 16).any (fun c => tapOf e c == t)) else []

/-- LENGTH that a ring needs for the largest delay of the taps in use (R249). -/
def tapLength (e d : BitVec 256) : Nat :=
  cdiv (cdiv (((tapsUsed e).map (tapDelay e)).foldl max 0) (ringMs d) + 16) 16 * 16

/-! ### Held writes (R247) -/

/-- The records a held write leaves. -/
def CalSt.take (h : Held) (c : CalSt) : CalSt :=
  let x := leNat h.bytes
  match h.obj with
  | .audIn i => { c with audIn := tset audInReset c.audIn i (BitVec.ofNat 256 x) }
  | .audOut o => { c with
      outHdr := tset outHdrReset c.outHdr o (BitVec.ofNat 128 (leNat (h.bytes.take 16)))
      outCh := (List.range 16).foldl (fun t k => tset outChReset t (16 * o + k) (BitVec.ofNat 64 (leNat ((h.bytes.drop (16 + 8 * k)).take 8)))) c.outCh }
  | .audBus b => { c with bus := tset busReset c.bus b (BitVec.ofNat 256 x) }
  | .audBusInputs b first => { c with
      busIn := ((wordsOf (h.bytes.length / 4) h.bytes).zipIdx).foldl (fun t e => tset busInReset t (128 * b + first + e.2) e.1) c.busIn }
  | .audDyn i => { c with dyn := tset dynReset c.dyn i (BitVec.ofNat 256 x) }
  | _ => c

/-- The state with every held write's records taken on. -/
def State.planned (s : State) : State := s.onCal (fun c => c.held.foldl (fun c h => c.take h) c)

/-- A check that must hold of the records as they stand and as the held writes will leave them (DESIGN CHOICE, log entry 133). -/
def State.alsoPlanned (s : State) (p : State → Bool) : Bool := p s && p s.planned

/-- The records an input slot has or will have. -/
def State.audIns (s : State) (i : Nat) : List (BitVec 256) :=
  s.audIn i :: s.cal.held.filterMap (fun h => if h.obj = .audIn i then some (BitVec.ofNat 256 (leNat h.bytes)) else none)

/-! ### Rates (R242) -/

/-- Rates: of a bus, of an input slot in use, of an output slot in use. -/
def busHz (e : BitVec 256) : Nat := if fbit e Bus.busRate then 96000 else 48000
def State.inHz (s : State) (i : Nat) : Option Nat := if fbit (s.audIn i) AudIn.inEn then some (ringHz (s.ring (fget (s.audIn i) AudIn.inRing))) else none
def State.outHz (s : State) (o : Nat) : Option Nat := if fbit (s.audOut o) AudOut.outEn then some (ringHz (s.ring (fget (s.audOut o) AudOut.outRing))) else none

/-- Whether a known rate differs from another. -/
def clash (hz : Option Nat) (other : Nat) : Bool := hz.any (fun h => h != other)

/-- The rate of a channel entry's source. -/
def State.sourceHz (s : State) (e : BitVec 64) : Option Nat :=
  match fget e AudCh.srcKind with
  | 1 => s.inHz (fget e AudCh.srcIndex / 16)
  | 2 => if fbit (s.mixBus (fget e AudCh.srcIndex)) Bus.busEn then some (busHz (s.mixBus (fget e AudCh.srcIndex))) else none
  | _ => none

/-- The channels of an output slot: eight at 96 kHz, of sixteen entries. -/
def State.slotChans (s : State) (o : Nat) : Nat := ringChans (s.ring (fget (s.audOut o) AudOut.outRing))

/-- Whether an output slot in use, or a bus in use, takes a source of another rate. -/
def State.outTakes (s : State) (kind : Nat) (mine : Nat → Bool) (hz : Nat) : Bool :=
  s.cal.outCh.any (fun e => fget e.2 AudCh.srcKind == kind && mine (fget e.2 AudCh.srcIndex) && e.1 % 16 < s.slotChans (e.1 / 16) &&
    clash (s.outHz (e.1 / 16)) hz)
def State.busTakes (s : State) (i hz : Nat) : Bool :=
  s.cal.busIn.any (fun e => fbit e.2 BusIn.xpEn && fget e.2 BusIn.inCh / 16 == i && fbit (s.mixBus (e.1 / 128)) Bus.busEn &&
    busHz (s.mixBus (e.1 / 128)) != hz)

/-- Whether a ring with a new descriptor still serves every input slot that reads it: if not, the status that refuses it (R242, R248, R249). -/
def State.slotsRead (s : State) (r : Nat) (d : BitVec 256) : Option Nat :=
  let mine := s.cal.audIn.filter (fun x => fbit x.2 AudIn.inEn && fget x.2 AudIn.inRing == r)
  if mine.any (fun x => ringType d != 2 || s.outTakes 1 (fun y => y / 16 == x.1) (ringHz d) || s.busTakes x.1 (ringHz d)) then some eFormat
  else if mine.any (fun x => fget d RingDesc.length < tapLength x.2 d) then some eRange
  else none

/-- Whether the channels of an output slot have no source of another rate. -/
def State.slotRates (s : State) (o : Nat) (hz ch : Nat) : Bool :=
  (List.range ch).all (fun c => !clash (s.sourceHz (s.audCh (16 * o + c))) hz)

end Sys2Proof.Machine
end

