-- ==== Sys2Proof/Machine/Memory.lean ====
section
/-! DEFINITION. The Tile Store (R29 to R42): bytes of memory in canonical form, the channel of a tile, payloads and check
records, tags, and the line-start index of a packed tile. -/

namespace Sys2Proof.Machine

open Sys2Proof

/-! ### Bytes -/

/-- Channel of a tile index (R34). -/
def tileChannel (reduced : Bool) (i : Nat) : Nat :=
  if reduced then 4 * (i % 8 / 2) + i % 2 else i % 16

/-- Row of a tile index within its channel's device (R34): bits 23 to 4 of the index, or 22 to 3 on a reduced card. -/
def tileRow (reduced : Bool) (i : Nat) : Nat := if reduced then i % 2 ^ 23 / 8 else i % 2 ^ 24 / 16

/-- Byte address of a tile in its channel's device (R34). -/
def tileDeviceByte (reduced : Bool) (i : Nat) : Nat := tileRow reduced i * 4096

/-- Whether a tile lies in scratch (R35). -/
def inScratch (reduced : Bool) (i : Nat) : Bool := ringSpace reduced ≤ i && i < ringSpace reduced + 16384

/-- What an unlisted byte reads: 0 until a memory test of its channel, afterwards undefined; a test leaves scratch untouched (R503;
log entry 9). -/
def memDefault (reduced : Bool) (undef : Tab Nat) (a : Nat) : Byte :=
  if inScratch reduced (a / 4096) then 0
  else match tget natReset undef (tileChannel reduced (a / 4096)) with
    | 0 => 0
    | e => Config.freeByte e a

def State.memByteDefault (s : State) (a : Nat) : Byte := memDefault s.pwr.reduced s.mem.undef a

/-- The cells of a run of bytes at an address, without those that read the same unlisted. -/
def runCells (d : Nat → Byte) : Nat → List Byte → List Host.Cell
  | _, [] => []
  | a, b :: bs => if b = d a then runCells d (a + 1) bs else (a, b) :: runCells d (a + 1) bs

/-- Memory with a run of bytes stored at an address. -/
def memWrite (d : Nat → Byte) (m : List Host.Cell) (a : Nat) (bs : List Byte) : List Host.Cell :=
  m.filter (fun c => c.1 < a) ++ runCells d a bs ++ m.filter (fun c => a + bs.length ≤ c.1)

/-- One byte of memory. -/
def memByte (d : Nat → Byte) (m : List Host.Cell) (a : Nat) : Byte :=
  match m.find? (fun c => c.1 == a) with
  | some c => c.2
  | none => d a

/-- The cells of an address range, then the bytes, one pass over the memory. -/
def cellBytes (d : Nat → Byte) : List Host.Cell → Nat → Nat → List Byte
  | _, _, 0 => []
  | [], a, n + 1 => d a :: cellBytes d [] (a + 1) n
  | c :: cs, a, n + 1 => if c.1 = a then c.2 :: cellBytes d cs (a + 1) n else d a :: cellBytes d (c :: cs) (a + 1) n

/-- A run of bytes of memory. -/
def memRead (d : Nat → Byte) (m : List Host.Cell) (a n : Nat) : List Byte :=
  cellBytes d (m.filter (fun c => a ≤ c.1 && c.1 < a + n)) a n

/-- The canonical form of memory: addresses strictly rise, and no cell equals what its address reads unlisted. -/
def Memory.wf (d : Nat → Byte) (m : List Host.Cell) : Bool :=
  m.Pairwise (fun x y => x.1 < y.1) && m.all (fun c => c.2 != d c.1)

def State.bytesAt (s : State) (a n : Nat) : List Byte := memRead s.memByteDefault s.mem.tiles a n

def State.storeBytes (a : Nat) (bs : List Byte) (s : State) : State :=
  s.onMem (fun m => { m with tiles := memWrite s.memByteDefault m.tiles a bs })

/-! ### Regions (R35, R36) -/

/-- Tiles of the whole Tile Store. -/
def storeTiles (reduced : Bool) : Nat := if reduced then 8388608 else 16777216

/-- CHECK_BASE of R36. -/
def checkBase (reduced : Bool) : Nat := if reduced then 0x7FC000000 else 0xFF8000000

/-- Channel of the check-region tile that holds a tile's record, and so the quadrant of its cache (R36). -/
def checkChannel (reduced : Bool) (i : Nat) : Nat := tileChannel reduced ((checkBase reduced + 8 * i) / 4096)

/-! ### Rings and positions -/

/-- Tile index of a position of a ring. -/
def ringTile (d : BitVec 256) (eseq : BitVec 32) : Nat :=
  fget d RingDesc.base + eseq.toNat % max 1 (fget d RingDesc.length)

def ringWseq (d : BitVec 256) : BitVec 32 := BitVec.ofNat 32 (fget d RingDesc.wseq)

/-- Whether a position has been committed and not yet overwritten (R41). -/
def ringHolds (d : BitVec 256) (eseq : BitVec 32) : Bool :=
  let back := (ringWseq d - eseq).toNat
  1 ≤ back && back ≤ fget d RingDesc.length

/-! ### Best-effort slots (R71) -/

/-- Whether this turn has a best-effort slot for each of these tiles on its channel. -/
def State.bestRoom (s : State) (tiles : List Nat) : Bool :=
  (List.range 16).all (fun ch => (tiles.filter (fun i => tileChannel s.pwr.reduced i == ch)).length ≤ bestSlots s.bud ch)

def State.takeBest (tiles : List Nat) (s : State) : State :=
  s.onBud (fun b => tiles.foldl (fun b i => takeSlot (tileChannel s.pwr.reduced i) 0 b) b)

/-! ### Tags and check records -/

/-- The tag of R39. -/
def mkTag (ring : Nat) (fin : Bool) (eseq : BitVec 32) (pos : Nat) : Nat :=
  ring % 8192 * 2 ^ 19 + bit fin * 2 ^ 18 + eseq.toNat % 64 * 2 ^ 12 + pos % 4096

/-- The CRC word of R40. -/
def tileCrc (payload : List Byte) (eseq : BitVec 32) : Nat := crc32c (payload ++ leBytes 4 eseq.toNat)

/-- The complement, which marks a poisoned tile (R40). -/
def poisonCrc (c : Nat) : Nat := Nat.xor c 0xFFFFFFFF

/-- The 8-byte check record (R38). -/
def checkRecord (ring : Nat) (payload : List Byte) (eseq : BitVec 32) (pos : Nat) (fin poison : Bool) : List Byte :=
  let c := tileCrc payload eseq
  leBytes 4 (if poison then poisonCrc c else c) ++ leBytes 4 (mkTag ring fin eseq pos)

/-- A tile and its check record committed at a position of a ring (R41, R42): the payload is padded with zeros. -/
def State.putTile (r : Nat) (eseq : BitVec 32) (bytes : List Byte) (pos : Nat) (fin poison : Bool) (s : State) : State :=
  let d := s.ring r
  let i := ringTile d eseq
  let payload := fitBytes 4096 bytes
  ((s.storeBytes (4096 * i) payload).storeBytes (checkBase s.pwr.reduced + 8 * i)
    (checkRecord r payload eseq pos fin poison)).onMem (fun m => { m with lostTiles := m.lostTiles.filter (· != i) })

/-- A tile already committed at a position is poisoned: its CRC word is complemented (R40, R57). -/
def State.poisonTile (r : Nat) (eseq : BitVec 32) (s : State) : State :=
  let a := checkBase s.pwr.reduced + 8 * ringTile (s.ring r) eseq
  s.storeBytes a (leBytes 4 (poisonCrc (tileCrc (s.bytesAt (4096 * ringTile (s.ring r) eseq) 4096) eseq)))

/-! ### Geometry of a frame's tiles (R43 to R47) -/

/-- Tiles of one line of a line-closed ring. -/
def lineTiles (d : BitVec 256) : Nat := cdiv (fget d RingDesc.lineBytes) 4096

/-- Line pitch of a packed ring. -/
def ringPitch (d : BitVec 256) : Nat := cdiv (fget d RingDesc.lineBytes) 16 * 16

def ringLines (d : BitVec 256) : Nat := fget d RingDesc.lines
def ringIl (d : BitVec 256) : Bool := fbit d RingDesc.interlaced
def ringTpf (d : BitVec 256) : Nat := fget d RingDesc.tpf

/-- Active lines of a field (1 or 2) or of the frame. -/
def fieldLines (d : BitVec 256) (second : Bool) : Nat :=
  if ringIl d then (if second then ringLines d / 2 else (ringLines d + 1) / 2) else ringLines d

/-- Tiles of the first field or frame of a video ring. -/
def fieldTiles (d : BitVec 256) (second : Bool) : Nat :=
  if ringType d = 0 then lineTiles d * fieldLines d second else packedTiles (ringPitch d) (fieldLines d second)

/-- The line-start index of tile `j` of a packed field of `n` lines (R39): the offset in the tile of the first line that begins
in it, or 0xFFF. -/
def lineStart (pitch n j : Nat) : Nat :=
  let k := cdiv (4096 * j) (max 1 pitch)
  let off := k * pitch - 4096 * j
  if k < n && off < 4096 then off else 0xFFF

/-- END and POS of tile `j` of a frame of a video ring. -/
def videoTag (d : BitVec 256) (j : Nat) : Bool × Nat :=
  let fin := j + 1 == ringTpf d
  if ringType d = 0 then
    let t := max 1 (lineTiles d)
    (fin, (if j % t + 1 = t then fget d RingDesc.lineBytes - 4096 * (t - 1) else 4096) - 1)
  else
    let n1 := fieldTiles d false
    if ringIl d && n1 ≤ j then (fin, lineStart (ringPitch d) (fieldLines d true) (j - n1))
    else (fin, lineStart (ringPitch d) (fieldLines d false) j)

/-- Positions from tile `j` of a frame to the end of its field (R57): of the whole frame when progressive. -/
def fieldLeft (d : BitVec 256) (j : Nat) : Nat :=
  let n1 := fieldTiles d false
  if ringIl d && j < n1 then n1 - j else ringTpf d - j

/-! ### Markers (R55) -/

/-- A marker opened: the newest of eight. Audio rings have none. Its number of tiles reads 0 while the unit is being written (DESIGN
CHOICE, log entry 102). -/
def State.openMarker (r : Nat) (eseq : BitVec 32) (s : State) : State :=
  if ringType (s.ring r) = 2 then s else
  s.onMem (fun m => { m with
    markers := tset markReset m.markers r ((⟨eseq, 0, s.now, .writing, 0⟩ :: tget markReset m.markers r).take 8) })

/-- A list of markers with the newest of those that start at `eseq` changed: a data unit abandoned before its first tile leaves its
position to the unit after it. -/
def onNewest (eseq : BitVec 32) (f : Marker → Marker) : List Marker → List Marker
  | [] => []
  | k :: l => if k.eseq == eseq then f k :: l else k :: onNewest eseq f l

/-- A change to the marker of the unit that starts at `eseq`. -/
def State.onMarker (r : Nat) (eseq : BitVec 32) (f : Marker → Marker) (s : State) : State :=
  s.onMem (fun m => { m with markers := tset markReset m.markers r (onNewest eseq f (tget markReset m.markers r)) })

def State.markersOf (s : State) (r : Nat) : List Marker := tget markReset s.mem.markers r

/-- The marker of the unit that holds a position: the newest that starts at or before it. -/
def State.markerAt (s : State) (r : Nat) (eseq : BitVec 32) : Option Marker :=
  (s.markersOf r).find? (fun k => (eseq - k.eseq).toNat < 2 ^ 31)

/-! ### Counters (R66) -/

def State.onRingCtr (r : Nat) (f : RingCtr → RingCtr) (s : State) : State :=
  s.onMem (fun m => { m with ctr := tset ctrReset m.ctr r (f (tget ctrReset m.ctr r)) })

def State.onChan (c : Nat) (f : Chan → Chan) (s : State) : State :=
  s.onMem (fun m => { m with chans := tset chanReset m.chans c (f (tget chanReset m.chans c)) })

def sat32 (v n : Nat) : Nat := satAdd 32 v n

end Sys2Proof.Machine
end

