-- ==== Sys2Proof/Machine/LegQueue.lean ====
section
/-! DEFINITION. The unit queues of the Merge Unit's legs (R204, R208): which rings are legs, the grid point a unit takes when its
writer opens it, and the tiles of it that are committed. -/

namespace Sys2Proof.Machine

open Sys2Proof

/-! ### Who writes a ring -/

/-- The lane parts that name a ring: its lane and 0 video, 1 ancillary data, 2 and 3 audio. -/
def laneParts (c : BitVec 256) : List (Nat × Nat) :=
  (if fbit c SdiLane.rxVideoEn then [(0, fget c SdiLane.rxVideoRing)] else []) ++
  (if fbit c SdiLane.rxAncEn then [(1, fget c SdiLane.rxAncRing)] else []) ++
  (if fbit c SdiLane.rxAudEn0 then [(2, fget c SdiLane.rxAudRing0)] else []) ++
  (if fbit c SdiLane.rxAudEn1 then [(3, fget c SdiLane.rxAudRing1)] else [])

/-- The rings of an ingest record's X_ enables. -/
def ingestParts (c : BitVec 64) : List (Nat × Nat) :=
  (if fbit c Ingest.xAncEn then [(1, fget c Ingest.xAncRing)] else []) ++
  (if fbit c Ingest.xAudEn0 then [(2, fget c Ingest.xAudRing0)] else []) ++
  (if fbit c Ingest.xAudEn1 then [(3, fget c Ingest.xAudRing1)] else [])

def isBound (f : Flow) : Bool := fget f.key FlowEntry.typeF == 0
def flowRing (f : Flow) : Nat := fget f.key FlowEntry.ring

/-- The extended media-clock count of a timestamp: the nearest to the count of the present PTP time. -/
def mediaCount (hz now32 : Nat) (ts : BitVec 32) : Nat :=
  let c : Nat := now32 * hz / (1000000000 * 2 ^ 32)
  ((c : Int) + (ts - BitVec.ofNat 32 c).toInt).toNat

/-! ### Pairs and their grid -/

def State.mergeRec (s : State) (m : Nat) : BitVec 128 := tget mergeReset s.flo.merge m
def State.mergeSt (s : State) (m : Nat) : MergeSt := tget mergeStReset s.flo.mergeSt m
def State.setMerge (m : Nat) (v : MergeSt) (s : State) : State :=
  s.onFlo (fun f => { f with mergeSt := tset mergeStReset f.mergeSt m v })

/-- The enabled pairs a ring is a leg of, with whether it is the secondary leg. -/
def State.legsOf (s : State) (r : Nat) : List (Nat × Bool) :=
  (s.flo.merge.filter (fun e => fbit e.2 Merge.mergeEn)).flatMap (fun e =>
    (if fget e.2 Merge.primaryRing = r then [(e.1, false)] else []) ++ (if fget e.2 Merge.secondaryRing = r then [(e.1, true)] else []))

/-- U of a ring's units in time units (R205): a frame of the ring's plane, a field of it for data of an interlaced source, a
millisecond of audio. -/
def State.unitTu (s : State) (d : BitVec 256) : Nat :=
  let f := frameTu (s.planeRate (fget d RingDesc.plane))
  if ringType d = 2 then 1000000 * tuPerNs else if ringType d = 3 && ringIl d then f / 2 else f

def MergeSt.leg (v : MergeSt) (second : Bool) : LegSt := if second then v.q else v.p
def MergeSt.setLeg (second : Bool) (l : LegSt) (v : MergeSt) : MergeSt := if second then { v with q := l } else { v with p := l }

/-- A change to a leg. -/
def State.onLeg (m : Nat) (second : Bool) (f : LegSt → LegSt) (s : State) : State :=
  let v := s.mergeSt m
  s.setMerge m (v.setLeg second (f (v.leg second)))

/-! ### The grid point of a unit (R204) -/

/-- A ring that an SDI receiver or an ST 2022-6 depacketiser writes: the receiver's running state and the part of it, 2 and 3
being the audio slots. -/
def State.line1Source (s : State) (r : Nat) : Option (LaneSt × Nat) :=
  let lane := s.sdi.cfg.findSome? (fun e => ((laneParts e.2).find? (fun p => p.2 == r)).map (fun p => (tget laneReset s.sdi.lanes e.1, p.1)))
  let serial (x : Nat) : Bool := s.flo.table.any (fun f => isBound f && flowRing f == x && fget f.key FlowEntry.essence == 4)
  let extract := s.flo.ingest.findSome? (fun e =>
    if serial e.1 then ((ingestParts e.2).find? (fun p => p.2 == r)).map (fun p => ((tget depReset s.flo.dep e.1).rx, p.1)) else none)
  lane.or (if serial r then some ((tget depReset s.flo.dep r).rx, 0) else extract)

/-- The grid point nearest a PTP time. -/
def nearestGrid (u : Nat) (ns : Int) : Nat := ((2 * ns * tuPerNs + u).fdiv (2 * max 1 u)).toNat

/-- The grid point whose 90 kHz timestamp is a given one, within one tick of rounding (DEDUCED, log entry 33). -/
def stampGrid (u now32 : Nat) (ts : BitVec 32) : Option Nat :=
  let c := mediaCount 90000 now32 ts
  let tick := tuPerNs * 1000000000 / 90000
  let n := (2 * c * tick + u) / (2 * max 1 u)
  let at_ := (2 * n * u + tick) / (2 * tick)
  if c ≤ at_ + 1 && at_ ≤ c + 1 then some n else none

/-- PTP time, less `hyb`, of the first sample of an audio tile that closes now, from the periods that wait in its receiver's queues. -/
def State.tileStart (s : State) (v : LaneSt) (slot : Nat) (d : BitVec 256) (hyb : Nat) : Int :=
  let wide := fget d RingDesc.formatF == 1
  let q := (([0, 1, 2, 3].map (fun j => (tget wordsReset v.aq (4 * slot + j)).length)).foldl max 0) / (if wide then 2 else 4)
  (s.now : Int) - ((q - 1) * 1000000000 / (if wide then 96000 else 48000) : Nat) - (hyb : Int)

/-- R144, R204: how far the field that a data unit belongs to lies behind its frame's line 1. -/
def fieldNs (v : LaneSt) (u : Nat) : Nat :=
  if v.field2 && v.fmt.any (fun f => f.interlaced && decide (f.lines / 2 < v.line)) then u / tuPerNs else 0

/-- The grid point of a unit that its writer opens now. A writer without timestamps of its own takes the point nearest now
(DESIGN CHOICE, log entry 34). -/
def State.unitGrid (s : State) (r hyb : Nat) : Option Nat :=
  let d := s.ring r
  let u := s.unitTu d
  match s.line1Source r with
  | some (v, part) =>
    if ringType d = 2 then some (nearestGrid u (s.tileStart v (part - 2) d hyb))
    else
      let field := if ringType d = 3 then fieldNs v u else 0
      some (nearestGrid u ((((if v.bond.line1 = 0 then v.line1Time else v.bond.line1) + field : Nat) : Int) - hyb))
  | none =>
    let v := tget depReset s.flo.dep r
    if s.flo.table.any (fun f => isBound f && flowRing f == r) then
      if ringType d = 2 then v.next.map (· - 1)
      else match v.ts with
        | some t => stampGrid u s.now32 t
        | none => none
    else some (nearestGrid u s.now)

/-- R204: how far, in ns, an aligned audio tile starts from the grid. -/
def State.alignError (s : State) (r hyb : Nat) : Nat :=
  let d := s.ring r
  match s.line1Source r with
  | some (v, part) => let t := s.tileStart v (part - 2) d hyb
    (t - 1000000 * ((2 * t + 1000000).fdiv 2000000)).natAbs
  | none => 0

/-- Location of a pair: the Merge Unit share of the quadrant of its number (DESIGN CHOICE, log entry 35). -/
def locMerge (m : Nat) : Nat := loc (m / 256) 9 15

/-! ### The queues follow the writers -/

/-- Whether a unit at a grid point, or its tile `j`, has been decided (R206). -/
def MergeSt.decided (v : MergeSt) (data : Bool) (n j : Nat) : Bool :=
  match v.unit with
  | some k => decide (n < k) || (n == k && !data && decide (j < v.tile))
  | none => false

/-- A unit that opens enters its leg's queue, of 32 entries where its pair is of video or data (R208); one that its decision has passed stands
beside it, and one that finds the queue full is never known (DESIGN CHOICE, log entry 130). -/
def LegSt.enter (audio passed : Bool) (u : MUnit) (l : LegSt) : LegSt :=
  if passed then { l with gone := l.gone ++ [u] }
  else if !audio && 32 ≤ l.units.length then l else { l with units := l.units ++ [u] }

/-- A unit opens: it enters the queue of every leg its ring is. A drift of more than two samples raises MERGE_ALIGN_FAIL. -/
def State.legOpen (r : Nat) (first : BitVec 32) (s : State) : State :=
  (s.legsOf r).foldl (fun s e =>
    let hyb := fget (s.mergeRec e.1) Merge.hybOffset
    let d := s.ring r
    let wide := fget d RingDesc.formatF == 1
    let drift := ringType d == 2 && decide (2 * 1000000000 < s.alignError r hyb * (if wide then 96000 else 48000))
    let was := ((s.mergeSt e.1).leg e.2).drift
    let v := s.mergeSt e.1
    let s1 := s.onLeg e.1 e.2 (fun l =>
      let l1 := { l with drift := drift }
      match s.unitGrid r hyb with
      | some n => l1.enter (ringType d == 2) (match v.unit with | some k => decide (n < k) | none => false) ⟨first, n, [], none, .writing⟩
      | none => l1)
    if drift && !was then s1.raise0 0xB5 (locMerge e.1) else s1) s

/-- The unit that holds a position: the last that starts at or before it. -/
def unitAt (eseq : BitVec 32) (l : List MUnit) : Option MUnit :=
  l.foldl (fun best u =>
    let d := (eseq - u.first).toNat
    if 2 ^ 31 ≤ d then best
    else match best with
      | some b => if d ≤ (eseq - b.first).toNat then some u else best
      | none => some u) none

/-- The unit of a leg that holds a position. -/
def LegSt.unitAt (l : LegSt) (eseq : BitVec 32) : Option MUnit := Sys2Proof.Machine.unitAt eseq (l.gone ++ l.units)

/-- One unit of a leg changed. -/
def LegSt.onUnit (u : MUnit) (f : MUnit → MUnit) (l : LegSt) : LegSt :=
  let g (x : MUnit) : MUnit := if x = u then f x else x
  { l with units := l.units.map g, gone := l.gone.map g }

/-- A tile at a position is committed: the decided units before its own are over. -/
def LegSt.passed (eseq : BitVec 32) (l : LegSt) : LegSt :=
  match l.unitAt eseq with
  | some u => { l with gone := l.gone.filter (fun g => g.first == u.first || decide (2 ^ 31 ≤ (eseq - g.first).toNat)) }
  | none => l

/-- The marker of a leg ring's unit becomes COMPLETE or INCOMPLETE, and its entry with it (R208). -/
def State.legState (r : Nat) (first : BitVec 32) (k : MarkState) (s : State) : State :=
  (s.legsOf r).foldl (fun s e => s.onLeg e.1 e.2 (fun l =>
    match l.unitAt first with
    | some u => if u.first = first && u.state = .writing then l.onUnit u (fun u => { u with state := k }) else l
    | none => l)) s

/-- The payload a pair has written for tile `j` of a grid point, where its ring still has it: committed, or waiting for its slot. -/
def State.writtenTile (s : State) (m n j : Nat) : Option (List Byte) :=
  let w := fget (s.mergeRec m) Merge.outRing
  match (s.mergeSt m).outs.find? (fun o => o.1 == n) with
  | none => none
  | some (_, out) =>
    let at_ := out + BitVec.ofNat 32 j
    match ((tget wrReset s.mem.wr w).staged).find? (fun t => t.eseq == at_) with
    | some t => some (fitBytes 4096 t.bytes)
    | none => if ringHolds (s.ring w) at_ then some (s.bytesAt (4096 * ringTile (s.ring w) at_) 4096) else none

/-- R206: a late tile that differs from the one written raises LEGS_DISAGREE with LATE 1. The payloads are compared: the check word of R40
covers ESEQ too, in which the legs differ (DEDUCED, log entry 129). -/
def State.lateDiffers (m n j : Nat) (payload : List Byte) (s : State) : State :=
  match s.writtenTile m n j with
  | some b => if b = fitBytes 4096 payload then s else s.raise ⟨0xB3, locMerge m, true, 0, [1]⟩
  | none => s

/-- A tile of a leg ring is committed: its unit's entry tells, or it is late (R206). -/
def State.legCommit (r : Nat) (eseq : BitVec 32) (fin : Bool) (payload : List Byte) (poison : Bool) (s : State) : State :=
  (s.legsOf r).foldl (fun s e =>
    let (m, second) := e
    match ((s.mergeSt m).leg second).unitAt eseq with
    | none => s
    | some u =>
      let j := (eseq - u.first).toNat
      let s1 := s.onLeg m second (fun l => (l.passed eseq).onUnit u (fun u =>
        { u with times := tset natReset u.times j s.now, tiles := if fin then some (j + 1) else u.tiles }))
      let v := s1.mergeSt m
      if poison || !v.decided (ringType (s.ring r) == 3) u.grid j then s1
      else
        let k := if second then 5 else 4
        ((s1.setMerge m { v with ctr := v.ctr.set k (sat32 (v.ctr.getD k 0) 1) }).onLeg m second (fun l => { l with late := true })).lateDiffers m
          u.grid j payload) s

end Sys2Proof.Machine
end

