-- ==== Sys2Proof/Machine/Exports.lean ====
section
/-! DEFINITION. Links, lanes, exports and imports of the Troupe (R315, R316, R326, R334): their records and running states, and the
ABANDON cell with which an export follows its writer (R336). -/

namespace Sys2Proof.Machine

open Sys2Proof

def State.linkRec (s : State) (k : Nat) : BitVec 128 := tget linkReset s.trp.link k
def State.setLink (k : Nat) (v : BitVec 128) (s : State) : State := s.onTrp (fun t => { t with link := tset linkReset t.link k v })
def State.svLane (s : State) (l : Nat) : BitVec 64 := tget laneRecReset s.trp.lane l
def State.setSvLane (l : Nat) (v : BitVec 64) (s : State) : State := s.onTrp (fun t => { t with lane := tset laneRecReset t.lane l v })
def State.svRun (s : State) (l : Nat) : LaneRun := tget laneRunReset s.trp.laneRun l
def State.setSvRun (l : Nat) (v : LaneRun) (s : State) : State := s.onTrp (fun t => { t with laneRun := tset laneRunReset t.laneRun l v })
def State.exp (s : State) (i : Nat) : BitVec 128 := tget expReset s.trp.exp i
def State.setExp (i : Nat) (v : BitVec 128) (s : State) : State := s.onTrp (fun t => { t with exp := tset expReset t.exp i v })
def State.imp (s : State) (i : Nat) : BitVec 64 := tget impReset s.trp.imp i
def State.setImp (i : Nat) (v : BitVec 64) (s : State) : State := s.onTrp (fun t => { t with imp := tset impReset t.imp i v })
def State.impSt (s : State) (i : Nat) : ImpSt := tget impStReset s.trp.impSt i
def State.setImpSt (i : Nat) (v : ImpSt) (s : State) : State := s.onTrp (fun t => { t with impSt := tset impStReset t.impSt i v })

/-- The enabled exports of a ring. -/
def State.exportsOf (s : State) (r : Nat) : List (Nat × BitVec 128) :=
  s.trp.exp.filter (fun e => fbit e.2 Export.expEn && fget e.2 Export.srcRing == r)

def State.outq (s : State) (r : Nat) : List OutWait := tget outqReset s.trp.outq r
def State.setOutq (r : Nat) (l : List OutWait) (s : State) : State := s.onTrp (fun t => { t with outq := tset outqReset t.outq r l })

/-- An ABANDON cell on every running export of a ring: the first position skipped and that at which writing resumes. -/
def State.putAbandon (r : Nat) (first resume : BitVec 32) (s : State) : State :=
  (s.exportsOf r).foldl (fun s e =>
    if fget e.2 Export.expState = 1 then
      s.sendCell (fget e.2 Export.viaLink) 2 0 (fget e.2 Export.destRing) (leBytes 4 first.toNat ++ leBytes 4 resume.toNat)
    else s) s

/-- R336: the ABANDON cell of skipped positions, behind the tiles that wait. -/
def State.sendAbandon (r : Nat) (first resume : BitVec 32) (s : State) : State :=
  if (s.outq r).isEmpty then s.putAbandon r first resume else s.setOutq r (s.outq r ++ [.skip first resume])

end Sys2Proof.Machine
end

