-- ==== Sys2Proof/Machine/Writer.lean ====
section
/-! DEFINITION. What a ring's writer does (R40 to R42, R45, R46, R49, R55, R57): a unit opened, tiles filled, closed and
staged, a unit abandoned when the ring runs out or the writer stops, and a staged tile committed. -/

namespace Sys2Proof.Machine

open Sys2Proof

def State.wr (s : State) (r : Nat) : WrSt := tget wrReset s.mem.wr r
def State.setWr (r : Nat) (w : WrSt) (s : State) : State := s.onMem (fun m => { m with wr := tset wrReset m.wr r w })

/-- Positions the staged tiles take, with those skipped after them. -/
def stagedSpan (l : List Staged) : Nat := (l.map (fun t => 1 + t.skip)).sum

/-- ESEQ the next closed tile takes. -/
def State.nextEseq (s : State) (r : Nat) : BitVec 32 :=
  ringWseq (s.ring r) + BitVec.ofNat 32 (stagedSpan (s.wr r).staged)

/-- Positions skipped: at once, or after the tiles that still wait (R57 step 3). -/
def State.skipTiles (r n : Nat) (s : State) : State :=
  let w := s.wr r
  match w.staged.reverse with
  | [] => s.setRing r (fput (s.ring r) RingDesc.wseq (fget (s.ring r) RingDesc.wseq + n))
  | t :: ts => s.setWr r { w with staged := ({ t with skip := t.skip + n } :: ts).reverse }

/-- R57 step 3: positions an abandoned unit leaves unwritten. A data unit's length is not known in advance; an audio tile
takes its one position only when the ring ran out. -/
def abandonSkip (d : BitVec 256) (tile : Nat) (ranOut : Bool) : Nat :=
  if ringType d = 2 then bit ranOut else if ringType d = 3 then 0 else fieldLeft d tile

/-- R57 steps 1 to 3: the open unit of a ring is abandoned. Every tile of it already closed is poisoned, its marker becomes
INCOMPLETE with the positions up to the abandon as its number of tiles (DESIGN CHOICE, log entry 102), its remaining positions are skipped and arriving bytes are discarded until the next unit start. -/
def State.abandon (r : Nat) (ranOut : Bool) (s : State) : State :=
  let d := s.ring r
  let w := s.wr r
  let here := s.nextEseq r
  let n := abandonSkip d w.tile ranOut
  let committed := (List.range w.tile).filter (fun j => !(w.gap.1 ≤ j && j < w.gap.2) && ringHolds d (w.first + BitVec.ofNat 32 j))
  let s1 := committed.foldl (fun s j => s.poisonTile r (w.first + BitVec.ofNat 32 j)) s
  let mine (t : Staged) : Bool := (t.eseq - w.first).toNat < w.tile
  let s2 := s1.setWr r { w with
    staged := w.staged.map (fun t => if mine t then { t with poison := true } else t)
    buf := []
    tile := w.tile + n
    unitOpen := ringIsVideo d && w.tile + n < ringTpf d
    discard := true
    gap := if w.gap.1 = w.gap.2 then (w.tile, w.tile + n) else w.gap }
  let s3 := (s2.onMarker r w.first (fun k =>
    if k.state = .incomplete then k else { k with state := .incomplete, tiles := BitVec.ofNat 32 w.tile, bad := here })).legState r w.first .incomplete
  let s4 := if w.staged.isEmpty then s3.sendAbandon r here (here + BitVec.ofNat 32 n) else s3
  if n = 0 then s4 else s4.skipTiles r n

/-- R57 steps 4 and 5 after 1 to 3: the unit is counted and FRAME_INCOMPLETE raised at the writer's location. -/
def State.abandonCounted (r l : Nat) (ranOut : Bool) (s : State) : State :=
  let first := (s.wr r).first
  ((s.abandon r ranOut).onRingCtr r (fun c => { c with incomplete := sat32 c.incomplete 1 })).raise
    ⟨0x42, l, true, 0, leBytes 2 r ++ [0, 0] ++ leBytes 4 first.toNat⟩

/-- A unit starts (R55): what is left of an earlier frame is abandoned, and the marker opens as WRITING. -/
def State.startUnit (r l : Nat) (s : State) : State :=
  let s1 := if (s.wr r).unitOpen then (if (s.wr r).discard then s.abandon r false else s.abandonCounted r l false) else s
  let s1 := if (s1.wr r).unitOpen then s1.abandon r false else s1
  let first := s1.nextEseq r
  ((s1.setWr r { s1.wr r with unitOpen := true, first := first, tile := 0, buf := [], lines := 0, discard := false, gap := (0, 0) }).openMarker r first).legOpen
    r first

/-- Whether a ring has no room for the next closed tile (R57): RELSEQ reached in a best-effort ring, four tiles waiting in any
other, of which a tile closed for bytes that never came is none. -/
def State.ranOut (s : State) (r : Nat) : Bool :=
  let d := s.ring r
  if ringClass d = 3 then
    fget d RingDesc.length ≤ (s.nextEseq r - BitVec.ofNat 32 (fget d RingDesc.relseq)).toNat
  else 4 ≤ ((s.wr r).staged.filter (!·.free)).length

/-- A closed tile of the open unit joins those that wait. -/
def State.stageTile (r : Nat) (bytes : List Byte) (fin poison free : Bool) (s : State) : State :=
  let w := s.wr r
  let d := s.ring r
  let tag := if ringIsVideo d then videoTag d w.tile else if ringType d = 2 then (true, 3071) else (fin, bytes.length - 1)
  s.setWr r { w with
    staged := w.staged ++ [⟨s.nextEseq r, bytes, tag.2, tag.1, poison, 0, s.time.clk, free⟩]
    tile := w.tile + 1
    buf := []
    unitOpen := !tag.1 }

/-- A tile closes and is staged, or the ring runs out and its unit is abandoned. -/
def State.closeTile (r l : Nat) (bytes : List Byte) (fin : Bool) (s : State) : State :=
  let w := s.wr r
  if w.discard || !w.unitOpen then s
  else if s.ranOut r then s.abandonCounted r l true
  else s.stageTile r bytes fin false false

/-- A tile closes for bytes that never came: poisoned (R40, R187, R189), or filled in by its writer (R207). -/
def State.closeMissing (r : Nat) (bytes : List Byte) (fin poison : Bool) (s : State) : State :=
  let w := s.wr r
  if w.discard || !w.unitOpen then s else s.stageTile r bytes fin poison true

/-- Bytes cut into pieces of `n`, the last one shorter; `fuel` bounds the pieces. -/
def pieces (n : Nat) : Nat → List Byte → List (List Byte)
  | 0, _ => []
  | fuel + 1, bs => if bs.isEmpty then [] else bs.take n :: pieces n fuel (bs.drop n)

def tilesOf (bs : List Byte) : List (List Byte) := pieces 4096 (bs.length / 4096 + 1) bs

/-- Bytes of a packed frame arrive: every tile they fill closes. -/
def State.feed (r l : Nat) (bytes : List Byte) (s : State) : State :=
  let w := s.wr r
  if w.discard || !w.unitOpen then s else
  let all := w.buf ++ bytes
  let n := all.length / 4096
  let s1 := (tilesOf (all.take (4096 * n))).foldl (fun s t => s.closeTile r l t false) s
  if (s1.wr r).discard || !(s1.wr r).unitOpen then s1 else s1.setWr r { s1.wr r with buf := all.drop (4096 * n) }

/-- The end of a field or frame closes the tile being filled (R46). -/
def State.flush (r l : Nat) (s : State) : State :=
  let w := s.wr r
  if w.buf.isEmpty then s else s.closeTile r l w.buf false

/-- An active line of video arrives: line-closed tiles of its own (R45), or the packed frame at its pitch (R46), which ends
with the last line of its field. A second field starts afresh after an abandoned first one. -/
def State.feedLine (r l : Nat) (line : List Byte) (s0 : State) : State :=
  let d := s0.ring r
  let w0 := s0.wr r
  let n1 := fieldLines d false
  let s := if ringIl d && w0.lines == n1 && w0.unitOpen then s0.setWr r { w0 with discard := false } else s0
  let w := s.wr r
  let line := fitBytes (fget d RingDesc.lineBytes) line
  let s1 := if ringType d = 0 then (tilesOf line).foldl (fun s t => s.closeTile r l t false) s
    else s.feed r l (fitBytes (ringPitch d) line)
  let s2 := s1.setWr r { s1.wr r with lines := w.lines + 1 }
  if ringType d = 1 && (w.lines + 1 == ringLines d || (ringIl d && w.lines + 1 == n1)) then s2.flush r l else s2

/-- Bytes of an open data unit arrive (R49): a tile closes once a further byte follows it, for the last one carries END. -/
def State.feedUnit (r l : Nat) (bytes : List Byte) (s : State) : State :=
  let w := s.wr r
  if w.discard || !w.unitOpen then s else
  let all := w.buf ++ bytes
  let n := (all.length - 1) / 4096
  let s1 := (tilesOf (all.take (4096 * n))).foldl (fun s t => s.closeTile r l t false) s
  if (s1.wr r).discard || !(s1.wr r).unitOpen then s1 else s1.setWr r { s1.wr r with buf := all.drop (4096 * n) }

/-- Bytes of the open data unit so far. -/
def State.unitLen (s : State) (r : Nat) : Nat := 4096 * (s.wr r).tile + (s.wr r).buf.length

/-- The end of a data unit closes its last tile with END 1 (R49, R55); what follows is another unit. -/
def State.endUnit (r l : Nat) (s : State) : State :=
  let w := s.wr r
  let s1 := if w.buf.isEmpty then s else s.closeTile r l w.buf true
  s1.setWr r { s1.wr r with discard := false }

/-- Bytes of a data unit that opens with its first byte; after an abandoned unit nothing is written until the next one. -/
def State.feedOrOpen (r l : Nat) (bytes : List Byte) (s : State) : State :=
  let w := s.wr r
  if w.discard || bytes.isEmpty then s
  else (if w.unitOpen then s else s.startUnit r l).feedUnit r l bytes

/-- A whole data unit is written (R49): units of 0 bytes are not. -/
def State.writeUnit (r l : Nat) (bytes : List Byte) (s : State) : State :=
  if bytes.isEmpty then s else
  let ts := tilesOf bytes
  (ts.zipIdx).foldl (fun s (t, i) => s.closeTile r l t (i + 1 == ts.length)) (s.startUnit r l)

/-- A whole audio tile is written: one millisecond, its own unit (R48); `poison` closes it with samples missing. -/
def State.writeAudio (r l : Nat) (bytes : List Byte) (poison : Bool) (s : State) : State :=
  let s1 := s.startUnit r l
  if poison then s1.closeMissing r (fitBytes 3072 bytes) true true else s1.closeTile r l (fitBytes 3072 bytes) true

/-- R41: the oldest staged tile is committed. WSEQ passes it and what was skipped after it, the ring becomes RUNNING, and the
END tile of a unit makes its marker COMPLETE unless it is INCOMPLETE. -/
def State.commitTile (r : Nat) (t : Staged) (s : State) : State :=
  let w := s.wr r
  let s1 := (s.setWr r { w with staged := w.staged.drop 1 }).putTile r t.eseq t.bytes t.pos t.fin t.poison
  let d := s1.ring r
  let d1 := fput (fput d RingDesc.wseq ((t.eseq + 1).toNat + t.skip)) RingDesc.stateF 2
  let s2 := ((s1.setRing r d1).onMem (fun m => { m with stampAt := tset natReset m.stampAt r s1.now })).legCommit r t.eseq t.fin t.bytes t.poison
  if t.fin then
    match s2.markerAt r t.eseq with
    | some k => if k.state = .writing then
        (s2.onMarker r k.eseq (fun k => { k with state := .complete, tiles := t.eseq + 1 - k.eseq })).legState r k.eseq .complete else s2
    | none => s2
  else s2

/-- Channel of the tile at a position of a ring. -/
def State.channelAt (s : State) (r : Nat) (eseq : BitVec 32) : Nat := tileChannel s.pwr.reduced (ringTile (s.ring r) eseq)

/-- Whether a claim may take a slot of its class on a channel in this turn (R69, R70): sixteen credits in its accumulator, and a slot
of the class left there. -/
def State.mayTake (s : State) (h : Hold) (ch : Nat) : Bool :=
  h.res ≤ 5 && 16 ≤ h.acc && slotsTaken s.bud ch h.res < channelShare s.bud.profile h.res

/-- A slot of its class for a claim group on a channel. -/
def State.hasCredit (s : State) (g : Grp) (ch : Nat) : Bool := s.bud.holds.any (fun h => h.grp == g && s.mayTake h ch)

/-- A slot taken on a channel by a group: the class has one less there, and the accumulator loses 16 (R69). -/
def State.spend (g : Grp) (ch : Nat) (s : State) : State :=
  s.onBud (fun b =>
    let c := match b.holds.find? (fun h => h.grp == g && h.res ≤ 5) with | some h => h.res | none => 0
    { takeSlot ch c b with holds := b.holds.map (fun h => if h.grp == g && h.res ≤ 5 then { h with acc := h.acc - 16 } else h) })

/-- The tile a writer has had waiting longest, with a slot of its class to be had on its channel. -/
def State.tileWaiting (s : State) (r : Nat) : Option Staged :=
  match (s.wr r).staged with
  | t :: _ => if s.hasCredit (.write r) (s.channelAt r t.eseq) then some t else none
  | [] => none

/-- The class a ring's write claim is charged to. -/
def State.writeClass (s : State) (r : Nat) : Nat :=
  match s.bud.holds.find? (fun h => h.grp == .write r && h.res ≤ 5) with
  | some h => h.res
  | none => 0

/-- R70: whether a ring's oldest tile wins the slot among the tiles of its class that wait on its channel: the one that has waited longest,
then that of the lower ring. The demands of readers reach the model slot by slot (DEDUCED, log entry 103). -/
def State.winsSlot (s : State) (r : Nat) (t : Staged) : Bool :=
  s.mem.wr.all (fun e => match s.tileWaiting e.1 with
    | some u => s.channelAt e.1 u.eseq != s.channelAt r t.eseq || s.writeClass e.1 != s.writeClass r ||
        t.since.toNat < u.since.toNat || (t.since == u.since && r ≤ e.1)
    | none => true)

/-- A writer stops (R54, R139, R160, R179): its open unit, if any, is abandoned by steps 1 to 3 of R57. -/
def State.stopWriter (r : Nat) (s : State) : State :=
  if (s.wr r).unitOpen || !(s.wr r).buf.isEmpty then s.abandon r false else s

end Sys2Proof.Machine
end

