-- ==== Sys2Proof/Machine/Reader.lean ====
section
/-! DEFINITION. What a reader of tiles does (R56, R58 to R66): verification of every tile, concealment of video, the counters
and the events of a failed check. -/

namespace Sys2Proof.Machine

open Sys2Proof

/-- The verdict of one read (R59, R37). -/
inductive Verdict where
  | good (bytes : List Byte)
  | incomplete
  | tagFail
  | crcFail
  | cacheLost
  deriving DecidableEq, Repr

/-- Whether a position belongs to an INCOMPLETE unit at or past its abandon point. -/
def State.abandonedAt (s : State) (r : Nat) (eseq : BitVec 32) : Bool :=
  match s.markerAt r eseq with
  | some k => k.state == .incomplete && (eseq - k.bad).toNat < 2 ^ 31
  | none => false

/-- R59: a tile read at a position, compared with the END and POS the reader expects, none for a reader that compares
neither. A position at or beyond the write pointer is absent (R41, R56); the tiles of a failed channel fail (R33; DEDUCED, log entry 61). -/
def State.verify (s : State) (r : Nat) (eseq : BitVec 32) (expect : Option (Bool × Nat)) : Verdict :=
  let d := s.ring r
  let i := ringTile d eseq
  let ahead := 2 ^ 31 ≤ (ringWseq d - eseq).toNat || ringWseq d == eseq
  if ahead || s.abandonedAt r eseq then .incomplete
  else if s.mem.lostTiles.contains i then .cacheLost
  else if (tget chanReset s.mem.chans (tileChannel s.pwr.reduced i)).failed then .crcFail
  else
    let payload := s.bytesAt (4096 * i) 4096
    let rec_ := s.bytesAt (checkBase s.pwr.reduced + 8 * i) 8
    let tag := leNat (rec_.drop 4)
    let crc := leNat (rec_.take 4)
    let tagBad := tag / 2 ^ 19 != r || tag / 2 ^ 12 % 64 != eseq.toNat % 64 ||
      (match expect with
       | some (fin, pos) => (tag / 2 ^ 18 % 2 == 1) != fin || tag % 4096 != pos
       | none => false)
    if tagBad then .tagFail
    else
      let c := tileCrc payload eseq
      if crc = c then .good payload else if crc = poisonCrc c then .incomplete else .crcFail

/-- Whether a verdict passes the tile on. -/
def Verdict.isGood : Verdict → Bool
  | .good _ => true
  | _ => false

/-- The counters of a failed tile, once per reading (R60, R66, R37). A data reader adds nothing for an incomplete one. -/
def State.countVerdict (r : Nat) (eseq : BitVec 32) (data : Bool) (v : Verdict) (s : State) : State :=
  let ch := tileChannel s.pwr.reduced (ringTile (s.ring r) eseq)
  let fail (s : State) : State :=
    (s.onRingCtr r (fun c => { c with checkFail := sat32 c.checkFail 1 })).onChan ch (fun c => { c with chFail := sat32 c.chFail 1 })
  match v with
  | .good _ => s
  | .incomplete => if data then s else s.onRingCtr r (fun c => { c with incomplete := sat32 c.incomplete 1 })
  | _ => fail s

/-- TILE_TAG_FAIL or TILE_CRC_FAIL at the reader's location (R61); none for a lost cache block or an incomplete unit. -/
def State.raiseVerdict (r : Nat) (eseq : BitVec 32) (l : Nat) (v : Verdict) (s : State) : State :=
  let objs := leBytes 2 r ++ [0, 0] ++ leBytes 4 eseq.toNat
  match v with
  | .tagFail => s.raise ⟨0x41, l, true, 0, objs⟩
  | .crcFail => s.raise ⟨0x40, l, true, 0, objs⟩
  | _ => s

/-- The check cache's report with a read (R37): a corrected error is counted at the block's channel; an uncorrectable one
loses the eight records of the block, and the event names the cache's quadrant and the block's first tile. -/
def State.cacheReport (r : Nat) (eseq : BitVec 32) (e : CacheErr) (s : State) : State :=
  let i := ringTile (s.ring r) eseq
  let ch := checkChannel s.pwr.reduced i
  let l := locCheckCache (ch / 4)
  match e with
  | .none => s
  | .corrected => (s.onChan ch (fun c => { c with chCache := sat32 c.chCache 1 })).raise0 0x43 l
  | .uncorrectable =>
    let b := i / 8 * 8
    (s.onMem (fun m => { m with
      lostTiles := (List.range 8).foldl (fun t k => if t.contains (b + k) then t else t ++ [b + k]) m.lostTiles })).raise
      ⟨0x44, l, true, 0, leBytes 1 (ch / 4) ++ [0, 0, 0] ++ leBytes 4 b⟩

/-- The first ESEQ of the frame of a video ring that holds a position: by its marker, else by the frame the reader is in. -/
def State.frameOf (s : State) (r : Nat) (eseq : BitVec 32) (current : Option (BitVec 32)) : BitVec 32 :=
  let tpf := ringTpf (s.ring r)
  match (s.markersOf r).find? (fun k => (eseq - k.eseq).toNat < tpf) with
  | some k => k.eseq
  | none => match current with
    | some c => if (eseq - c).toNat < tpf then c else eseq
    | none => eseq

/-- R62: the stand-in's position: the co-located tile of the newest COMPLETE earlier frame still held. -/
def State.standIn (s : State) (r : Nat) (eseq first : BitVec 32) : Option (BitVec 32) :=
  let tpf := BitVec.ofNat 32 (ringTpf (s.ring r))
  ((List.range 8).map (fun j => BitVec.ofNat 32 (j + 1))).findSome? (fun j =>
    let f := first - j * tpf
    let e := eseq - j * tpf
    if (s.markersOf r).any (fun k => k.eseq == f && k.state == .complete) && ringHolds (s.ring r) e then some e else none)

/-- Byte address, in the frame's tiles, of a line counted through the frame's fields. -/
def lineAddr (d : BitVec 256) (k : Nat) : Nat :=
  if ringType d = 0 then 4096 * lineTiles d * k
  else
    let n1 := fieldLines d false
    if ringIl d && n1 ≤ k then 4096 * fieldTiles d false + ringPitch d * (k - n1) else ringPitch d * k

/-- Bytes of tile `j` of a black frame (R62): the lines it holds, with the pitch padding zero. -/
def blackTile (d : BitVec 256) (j : Nat) : List Byte :=
  let lb := fget d RingDesc.lineBytes
  let one := blackLine (fget d RingDesc.width) (fget d RingDesc.formatF) (fbit d RingDesc.range)
  if ringType d = 0 then
    let t := max 1 (lineTiles d)
    fitBytes 4096 ((one.drop (4096 * (j % t))).take 4096)
  else
    let p := max 1 (ringPitch d)
    let n1 := fieldTiles d false
    let second := ringIl d && n1 ≤ j
    let j' := if second then j - n1 else j
    let lines := fieldLines d second
    (List.range 4096).map (fun k =>
      let at_ := 4096 * j' + k
      if at_ / p < lines && at_ % p < lb then one.getD (at_ % p) 0 else 0)

/-- What a video reader passes on for a position (R62): the tile, its stand-in or black, with the verdict of the digest
(R357: 0 good, 1 stand-in, 2 black). -/
def State.concealVideo (r l : Nat) (eseq first : BitVec 32) (v : Verdict) (s : State) : State × Nat × List Byte :=
  match v with
  | .good b => (s, 0, b)
  | _ =>
    let d := s.ring r
    let j := (eseq - first).toNat
    let black (s : State) : State × Nat × List Byte :=
      (s.onRingCtr r (fun c => { c with concealBlack := sat32 c.concealBlack 1 }), 2, blackTile d j)
    match s.standIn r eseq first with
    | none => black s
    | some e =>
      let w := s.verify r e (some (videoTag d j))
      match w with
      | .good b => (s.onRingCtr r (fun c => { c with concealPrev := sat32 c.concealPrev 1 }), 1, b)
      | _ => black ((s.countVerdict r e false w).raiseVerdict r e l w)

/-- The units of a COMPLETE frame's or unit's tiles put together, none where one fails (R64, R65). -/
def State.unitBytes (s : State) (r : Nat) (first : BitVec 32) (n : Nat) : Option (List Byte) :=
  (List.range n).foldl (fun acc j => match acc with
    | none => none
    | some bs => match s.verify r (first + BitVec.ofNat 32 j) none with
      | .good b =>
        let i := ringTile (s.ring r) (first + BitVec.ofNat 32 j)
        let tag := leNat (s.bytesAt (checkBase s.pwr.reduced + 8 * i + 4) 4)
        some (bs ++ if ringIsVideo (s.ring r) then b else b.take (tag % 4096 + 1))
      | _ => none) (some [])

/-- Tiles of the data unit that starts at a position, by the END bits of their tags (R38, R49), while the ring holds them. -/
def State.unitTilesAt (s : State) (r : Nat) (first : BitVec 32) : Option Nat :=
  let d := s.ring r
  ((List.range 16).find? (fun j => maskBit (leNat (s.bytesAt (checkBase s.pwr.reduced + 8 * ringTile d (first + BitVec.ofNat 32 j) + 4) 4)) 18 ||
    !ringHolds d (first + BitVec.ofNat 32 j))).bind (fun j => if ringHolds d (first + BitVec.ofNat 32 j) then some (j + 1) else none)

/-- An audio tile's 768 words as a reader uses them: its words, or silence where it fails (R63, R65). -/
def State.audioTile (s : State) (r : Nat) (eseq : BitVec 32) : Option (List Byte) :=
  match s.verify r eseq (some (true, 3071)) with
  | .good b => some (b.take 3072)
  | _ => none

end Sys2Proof.Machine
end

