-- ==== Sys2Proof/WellFormed.lean ====
section
/-! DEFINITION. Well-formed commands: the operand values a row admits beyond what its types say. A request names a channel that its
port has: one of 64 mailboxes on P0 (R385), one of 7 links on P1 (R316), one of 32 sub-ports on P3 (R157, R382); a supply monitor names a quadrant where it has one. Every other operand's range is its type. -/

namespace Sys2Proof

/-- The channels of a request's port. -/
def Req.wf (q : Req) : Bool :=
  match q.port with
  | .p0 => q.chan < 64
  | .p1 => q.chan < 7
  | .p3 => q.chan < 32
  | _ => true

/-- A supply monitor (R464): VDD_CORE, monitor 0, has one in each quadrant; the others have none, written as quadrant 4. -/
def monitorOk (m : Fin 6) (quad : Fin 5) : Bool := (m.val == 0) == decide (quad.val < 4)

/-- Whether a command's operands are what its row admits. -/
def Instr.wf (i : Instr) : Bool :=
  match i with
  | .sessionInfo q => q.wf
  | .sessionOpen q => q.wf
  | .sessionClose q => q.wf
  | .powerSet q => q.wf
  | .profileSet q => q.wf
  | .budgetQuery q => q.wf
  | .sessionReset q => q.wf
  | .privRead q => q.wf
  | .privWrite q => q.wf
  | .ringCreate q => q.wf
  | .ringDelete q => q.wf
  | .ringModify q => q.wf
  | .ringQuery q => q.wf
  | .memStatus q => q.wf
  | .flowInsert q => q.wf
  | .flowModify q => q.wf
  | .flowDelete q => q.wf
  | .flowStatus q => q.wf
  | .ingestWrite q => q.wf
  | .mergeWrite q => q.wf
  | .mergeStatus q => q.wf
  | .hostqBind q => q.wf
  | .hostqUnbind q => q.wf
  | .hostInsert q => q.wf
  | .captureFrames q => q.wf
  | .planeWrite q => q.wf
  | .pulseWrite q => q.wf
  | .clockWrite q => q.wf
  | .planeRead q => q.wf
  | .routeWrite q => q.wf
  | .routeRead q => q.wf
  | .routeStatus q => q.wf
  | .salvoAdd q => q.wf
  | .salvoAdmit q _ => q.wf
  | .salvoTake q => q.req.wf
  | .salvoAbandon q _ => q.wf
  | .salvoQuery q _ => q.wf
  | .salvoEntries q => q.wf
  | .presetStore q => q.wf
  | .presetLoad q => q.wf
  | .presetDelete q => q.wf
  | .presetList q => q.wf
  | .compOutWrite q => q.wf
  | .compLayerWrite q => q.wf
  | .compMatrixWrite q => q.wf
  | .compCursorWrite q => q.wf
  | .compLoad q => q.wf
  | .compRead q => q.wf
  | .compLayerRead q => q.wf
  | .calWrite q => q.wf
  | .audInWrite q => q.wf
  | .audOutWrite q => q.wf
  | .audBusWrite q => q.wf
  | .audBusInputs q => q.wf
  | .audDynWrite q => q.wf
  | .audRead q => q.wf
  | .candWrite q => q.wf
  | .refWrite q => q.wf
  | .refRead q => q.wf
  | .phaseReset q => q.wf
  | .ptpInstWrite q => q.wf
  | .ptpServoWrite q => q.wf
  | .ptpTsCorr q => q.wf
  | .ptpSetTime q => q.wf
  | .ptpRead q => q.wf
  | .troupeWrite q => q.wf
  | .linkWrite q => q.wf
  | .laneWrite q => q.wf
  | .troupeImport q _ => q.wf
  | .troupeUnimport q _ => q.wf
  | .troupeForward q => q.wf
  | .troupeRead q => q.wf
  | .twinWrite q => q.wf
  | .twinRead q => q.wf
  | .twinSwap q => q.wf
  | .recRead q => q.wf
  | .recClear q => q.wf
  | .recLimit q => q.wf
  | .faultRead q => q.wf
  | .faultClear q => q.wf
  | .faultForce q => q.wf
  | .eventConfig q => q.wf
  | .updBegin q => q.wf
  | .updChunk q _ => q.wf
  | .updEnd q => q.wf
  | .updActivate q _ => q.wf
  | .updQuery q => q.wf
  | .testGen q => q.wf
  | .testCheck q => q.wf
  | .testLoop q => q.wf
  | .testResult q => q.wf
  | .testMem q => q.wf
  | .testShadow q => q.wf
  | .sdiWrite q => q.wf
  | .ethWrite q => q.wf
  | .ethAddrWrite q => q.wf
  | .pktFlowWrite q => q.wf
  | .sbWrite q => q.wf
  | .portSnapshot q => q.wf
  | .portRead q => q.wf
  | .pktOutWrite q => q.wf
  | .db _ _ => true
  | .requestBufferWrite _ _ _ => true
  | .doneMapClear _ => true
  | .pop _ => true
  | .release _ _ => true
  | .force _ _ => true
  | .pendingClear _ => true
  | .blkRst _ => true
  | .fullRst _ => true
  | .cntClear _ => true
  | .maint _ => true
  | .decValidClear => true
  | .abortValidClear => true
  | .rtcSec _ => true
  | .ptpNowRead => true
  | .registerWrite _ _ _ => true
  | .defaultTargetAccess _ _ _ => true
  | .bar2Read _ _ => true
  | .bar2Write _ _ => true
  | .p2Request _ _ => true
  | .p3Request _ q => decide (q.chan < 32)
  | .forwardedCommand _ q => decide (q.chan < 7)
  | .forwardedResponse _ _ _ => true
  | .commandDeadline _ _ _ _ => true
  | .extest _ => true
  | .idcode => true
  | .samplePreload _ => true
  | .halt => true
  | .command _ => true
  | .doorbell _ _ => true
  | .bypass _ => true
  | .turnStart => true
  | .profileChange => true
  | .channelTraining _ _ _ => true
  | .recentre _ _ _ _ => true
  | .tileCommit _ => true
  | .tileRead _ _ _ => true
  | .budgetRecount => true
  | .budgetTableError => true
  | .latch _ => true
  | .switchPoint _ => true
  | .frameSelect _ => true
  | .claimRelease _ _ => true
  | .audioLatch _ => true
  | .takeAck _ _ => true
  | .takeAckDeadline _ => true
  | .routeTableParity _ => true
  | .outputFrameStart _ => true
  | .signalPresence _ => true
  | .signalAbsence _ => true
  | .rateAttempt _ => true
  | .cdrLock _ => true
  | .trsAlignment _ => true
  | .trsSearchTimeout _ => true
  | .cdrLockLoss _ => true
  | .sdiLine _ _ => true
  | .sdiFrame _ _ => true
  | .lockTimeout _ => true
  | .audioGroupAbsence _ _ => true
  | .sdiTxFault _ => true
  | .subportTrained _ => true
  | .subportLinkLoss _ _ => true
  | .frameReceived _ _ => true
  | .pauseFrame _ _ => true
  | .pfcFrame _ _ _ => true
  | .pauseHoldEnd _ _ => true
  | .pauseWatchdogExpiry _ _ => true
  | .pauseIgnoreEnd _ _ => true
  | .mgmtFrameSend _ => true
  | .packetDeparture _ => true
  | .flowWindow => true
  | .absentTimeout _ => true
  | .membershipReport _ _ _ _ => true
  | .query _ _ _ _ => true
  | .querierTimeout _ _ => true
  | .flowTableCorrected _ => true
  | .flowTableUncorr _ => true
  | .audioTileTimeout _ => true
  | .mergeDecision _ => true
  | .composerLatch _ _ => true
  | .composerFrameStart _ _ => true
  | .compLutParity _ _ _ => true
  | .calliopeTick => true
  | .audioReaderTile _ _ => true
  | .tapCrossfadeEnd _ _ => true
  | .calCoeffParity _ => true
  | .refEvaluation _ _ _ => true
  | .activityLoss _ => true
  | .settleExpiry _ => true
  | .wtrExpiry _ _ => true
  | .acquisitionStage => true
  | .holdLimitExpiry => true
  | .planeFrameStart _ => true
  | .slewComplete _ => true
  | .analogSyncFrame _ _ _ => true
  | .refPllFault => true
  | .sync _ _ => true
  | .followUp _ _ _ _ => true
  | .followUpTimeout _ => true
  | .announce _ _ => true
  | .delayResp _ _ _ _ => true
  | .delayReq _ _ => true
  | .pdelayReq _ _ _ => true
  | .pdelayResp _ _ _ _ _ => true
  | .pdelayRespFollowUp _ _ _ _ => true
  | .ptpManagementMessage _ => true
  | .announceTimeout _ => true
  | .syncTimeout _ => true
  | .engineTimeReading => true
  | .rtcUpdate => true
  | .ptpClockFault => true
  | .linkDetect _ _ => true
  | .capability _ _ => true
  | .bringupDecision _ _ _ => true
  | .rateStep _ _ => true
  | .senseAdapt _ _ _ => true
  | .linkAlign _ => true
  | .linkRetry _ => true
  | .laneMarker _ _ _ => true
  | .laneDrop _ _ => true
  | .spareLaneTrained _ _ => true
  | .electricalIdle _ => true
  | .eyeUpdate _ _ _ => true
  | .importTile _ _ => true
  | .abandon _ _ _ => true
  | .timeCell _ _ => true
  | .timeCellSend _ => true
  | .bootImageRequest _ => true
  | .roleChoice => true
  | .heartbeatSend => true
  | .heartbeat _ _ => true
  | .pathSilence _ => true
  | .twinOnairInFall => true
  | .onairConfirmExpiry => true
  | .takeoverPoint => true
  | .mirror _ _ q _ _ => q.wf
  | .mirrorAck _ _ => true
  | .mirrorApply => true
  | .mirrorAckTimeout => true
  | .digestSend => true
  | .digest _ => true
  | .digestMissing _ => true
  | .resyncStart => true
  | .resyncPoint _ => true
  | .resyncTimeout => true
  | .hostLinkChange _ => true
  | .pcieReset => true
  | .recordWrite _ => true
  | .fatalFaultReset => true
  | .collectorParity => true
  | .mramCorrected _ => true
  | .mramUncorr _ => true
  | .sramCorrected => true
  | .sramUncorr => true
  | .supplyWarn m quad _ _ => monitorOk m quad
  | .supplyFail m quad _ => monitorOk m quad
  | .skewSample _ _ _ _ _ => true
  | .thermalOver _ _ => true
  | .thermalTrip _ _ => true
  | .qpllUnlock _ => true
  | .vbakLow => true
  | .rmWatchdog => true
  | .ringmasterRestart => true
  | .imageCheck _ => true
  | .firmwareStart _ _ _ => true
  | .budgetRebuild => true
  | .softwareReset => true
  | .watchEntry => true
  | .powerOn => true
  | .vauxLoss => true
  | .vbakLoss => true
  | .resetN => true
  | .resetNRise => true
  | .strapSampling _ _ _ => true
  | .trimLoad _ _ => true
  | .releaseStep => true
  | .wakeStart _ => true
  | .bootPeerRetry => true
  | .blockResetRelease _ => true
  | .undefinedOpcode _ q => q.wf
  | .pulseInputEdge _ => true
  | .pulseOutputEdge _ => true
  | .twinOnairInRise => true
  | .supplyReturn m quad _ => monitorOk m quad
  | .temperatureTripRearm _ => true
  | .quadrantPllLock => true
  | .memoryTestComplete _ => true
  | .shadowCheckComplete _ => true
  | .checkerLock _ _ _ _ => true

end Sys2Proof
end

