-- ==== Sys2Proof/Machine/Serve.lean ====
section
/-! DEFINITION. How a request is served (R387 to R390, R398 to R405): which requests reach the firmware at all, the order of
the checks, the deadline, mirroring on a primary, and the response. Every host command is one call of `serve` with its
opcode and its own body. -/

namespace Sys2Proof.Machine

open Sys2Proof

/-! ### Classes and kinds of commands -/

/-- Deadline class of an opcode (R401): default deadline in µs. -/
def queryOps : List Nat :=
  [0x0100, 0x0105, 0x0200, 0x0303, 0x0304, 0x0308, 0x030B, 0x0403, 0x0501, 0x0502, 0x0604, 0x0605, 0x0609, 0x0705, 0x0706,
   0x0806, 0x0902, 0x0A04, 0x0B06, 0x0C01, 0x0D00, 0x0E00, 0x0F04, 0x1003, 0x1106]

def longOps : List Nat := [0x0103, 0x0F01, 0x1004, 0x1005]

/-- Last command of each group (R408 to R429). -/
def groupSize : Nat → Nat
  | 0x01 => 7 | 0x02 => 2 | 0x03 => 16 | 0x04 => 4 | 0x05 => 3 | 0x06 => 10 | 0x07 => 7 | 0x08 => 7 | 0x09 => 4 | 0x0A => 5
  | 0x0B => 7 | 0x0C => 3 | 0x0D => 3 | 0x0E => 4 | 0x0F => 5 | 0x10 => 6 | 0x11 => 8 | _ => 0

/-- R5: the opcodes release 2.4 defines. -/
def opDefined (op : Nat) : Bool := op % 256 < groupSize (op / 256)

def isQuery (op : Nat) : Bool := queryOps.contains op

/-- Default deadline in µs (R401). -/
def defaultDeadline (op : Nat) : Nat :=
  if isQuery op then 2000 else if longOps.contains op then 5000000 else 20000

/-- Whether the request sets CLEAR (R407, R408, R411). -/
def setsClear (op : Nat) (q : Req) : Bool :=
  if op = 0x0105 || op = 0x0308 then Req.u32 q 0 % 2 == 1
  else isQuery op && !([0x0100, 0x0200, 0x0604, 0x0605, 0x0609, 0x0D00, 0x0E00, 0x0F04].contains op) && Req.u32 q 4 % 2 == 1

/-- R403: whether the command changes state for the purpose of READ_ONLY. -/
def changesState (op : Nat) (q : Req) : Bool :=
  if isQuery op then setsClear op q else !([0x0101, 0x0102, 0x1105, 0x0D01].contains op)

/-! ### Ports -/

def portIndex : Port → Nat
  | .p0 => 0 | .p1 => 1 | .p2 => 2 | .p3 => 3 | .p4 => 4

def State.priv (s : State) (p : Port) : BitVec 64 := tget privReset s.ctl.priv (portIndex p)

/-- R384: PORT_EN; that of P0 is fixed at 1 and that of P4 at the fuse. -/
def State.portOn (s : State) (p : Port) : Bool := fbit (s.priv p) Priv.portEn

/-- Whether a port's requests reach the firmware: those of P2 through the service-bus MAC (R396). -/
def State.heard (s : State) (p : Port) : Bool := s.portOn p && (p != .p2 || s.sbOn)

/-- Mailbox states of R386. -/
def mbIdle : Nat := 0
def mbQueued : Nat := 1
def mbRunning : Nat := 2
def mbDone : Nat := 3

def State.mailbox (s : State) (n : Nat) : Mb := tget Mb.idle s.ctl.mb n
def State.setMb (n : Nat) (m : Mb) (s : State) : State := s.onCtl (fun c => { c with mb := tset Mb.idle c.mb n m })

def Mb.state (m : Mb) : Nat := fget m.status MbStatus.stateF
def Mb.busy (m : Mb) : Bool := m.state == 1 || m.state == 2

/-- The request's entry in a port's queue. -/
def sameWaiting (q : Req) (op : Nat) (w : Waiting) : Bool :=
  w.sender == q.sender && w.seq == q.seq && w.opcode.toNat == op

def State.waiting (s : State) : Port → List Waiting
  | .p2 => s.ctl.p2
  | .p3 => s.ctl.p3
  | .p4 => s.ctl.p4
  | _ => []

/-- Receipt time (R120, R382, R387): as the port stamped it; now where nothing was stamped before (log entry 8). That of a mirrored
command is 1 ms before its TARGET (R353), and that of a forwarded take or abandon its origin's (R124). -/
def receiptOf (op : Nat) (q : Req) (s : State) : Nat :=
  match s.ctl.stamp, q.port with
  | some t, _ => t
  | none, .p0 => if (s.mailbox q.chan).busy then (s.mailbox q.chan).receipt else s.now
  | none, .p1 => if (op == 0x0602 || op == 0x0603) && q.extra != 0 then q.extra.toNat else s.now
  | none, p => match (s.waiting p).find? (sameWaiting q op) with
    | some w => w.receipt
    | none => s.now

/-- The request is taken up: its mailbox is RUNNING. -/
def takeUp (q : Req) (s : State) : State :=
  match q.port with
  | .p0 => let m := s.mailbox q.chan
    s.setMb q.chan { m with
      status := fput (fput m.status MbStatus.stateF mbRunning) MbStatus.seq (if m.busy then fget m.status MbStatus.seq else q.seq.toNat)
      receipt := if m.busy then m.receipt else s.now }
  | _ => s

/-- The request leaves its port's queue. -/
def dequeue (op : Nat) (q : Req) (s : State) : State :=
  let drop (l : List Waiting) : List Waiting := l.eraseP (sameWaiting q op)
  match q.port with
  | .p2 => s.onCtl (fun c => { c with p2 := drop c.p2 })
  | .p3 => s.onCtl (fun c => { c with p3 := drop c.p3 })
  | .p4 => s.onCtl (fun c => { c with p4 := drop c.p4 })
  | _ => s

/-! ### Response -/

/-- A response's bytes (R399). -/
def responseBytes (op st : Nat) (q : Req) (res : List Byte) (now : Nat) : List Byte :=
  leBytes 2 op ++ leBytes 2 st ++ leBytes 2 q.seq.toNat ++ leBytes 2 res.length ++ leBytes 8 now ++ res

/-- R387 step 4: the mailbox holds the response, DONE_MAP is set and an enabled bit that rises signals MB_VECTOR (R386). -/
def respondMailbox (op st : Nat) (q : Req) (res : List Byte) (s : State) : State :=
  let n := q.chan
  let m := s.mailbox n
  let was := s.ctl.doneMap.getLsbD n
  let s1 := (s.setMb n { m with
      status := fput (fput m.status MbStatus.stateF mbDone) MbStatus.status st
      response := responseBytes op st q res s.now }).onCtl (fun c => { c with doneMap := c.doneMap ||| (1#64 <<< n) })
  if !was && s.ctl.irqEn.getLsbD n then s1.signal (s.ctl.irqCfg.toNat % 64) else s1

/-- The one response of a command, at its port (R382). One on P3 is a management frame, which waits for its gap (R166, R169). -/
def respond (op st : Nat) (q : Req) (res : List Byte) (s : State) : State :=
  match q.port with
  | .p0 => respondMailbox op st q res s
  | .p3 => s.sendInBand q.chan q.sender (responseBytes op st q res s.now)
  | .p2 => s.sendP2 q.sender (responseBytes op st q res s.now)
  | p => s.emit (.response p q.chan q.sender (responseBytes op st q res s.now))

/-! ### Checks 1 to 5 of R402 -/

/-- R402 step 1, R387: the header. On P0 SEQ must equal the doorbell's value. -/
def headerOk (q : Req) (s : State) : Bool :=
  q.length.toNat ≤ 1008 && q.flags.toNat ≤ 1 && q.reserved == 0 &&
    (match q.port with
     | .p0 => !(s.mailbox q.chan).busy || fget (s.mailbox q.chan).status MbStatus.seq == q.seq.toNat
     | _ => true)

/-- R402 step 3, R384, R403. Recorder reads and clears are allowed on every enabled port. -/
def privOk (op : Nat) (q : Req) (s : State) : Bool :=
  op == 0x0D00 || op == 0x0D01 ||
    (maskBit (fget (s.priv q.port) Priv.groups) (op / 256) && !(fbit (s.priv q.port) Priv.readOnly && changesState op q))

/-- R402 step 4, R352. -/
def shadowOk (op : Nat) (s : State) : Bool :=
  s.role != .shadow || isQuery op || [0x0D, 0x0E, 0x0F, 0x10].contains (op / 256)

/-- R438: the commands accepted while SAFETY_NET is 1. -/
def safetyNetOk (op : Nat) (s : State) : Bool :=
  !s.safetyNet || isQuery op || [0x0100, 0x0103, 0x0106].contains op || [0x0D, 0x0E, 0x0F].contains (op / 256)

/-- R358, R363: while a swap or a resynchronisation is pending, a primary's state-changing commands return E_BUSY. -/
def twinBusy (op : Nat) (q : Req) (s : State) : Bool :=
  s.role == .primary && changesState op q &&
    (s.twin.resync.isSome || (match s.twin.yield with | some y => y.reason == 2 | none => false))

/-- Checks 1 to 5 of R402, and the range and expiry of the deadline (R389). -/
def gate (op : Nat) (q : Req) (s : State) : Except Err Unit := do
  need (headerOk q s) eDecode
  need (opDefined op) eUnknownOp
  need (privOk op q s) ePriv
  need (shadowOk op s) eShadow
  need (safetyNetOk op s) eState
  need (!twinBusy op q s) eBusy
  needAt (q.deadline.toNat ≤ 60000000) noField
  let limit := if q.deadline = 0 then defaultDeadline op else q.deadline.toNat
  need (s.now ≤ receiptOf op q s + limit * 1000) eTimeout

/-- A request's bytes (R398). -/
def requestBytes (op : Nat) (q : Req) : List Byte :=
  leBytes 2 op ++ leBytes 2 q.length.toNat ++ leBytes 2 q.seq.toNat ++ leBytes 2 q.flags.toNat ++ leBytes 4 q.deadline.toNat ++
    leBytes 4 q.reserved.toNat ++ Req.bytes q

/-! ### Mirroring on a primary (R353, R354, R447, R489) -/

/-- Whether an accepted command is mirrored: state-changing, outside the FAULT, RECORDER and UPDATE groups, on a primary that
mirrors. TWIN_SWAP takes effect at the primary at once (R363), and a command forwarded to another member is mirrored there (R364). -/
def mirrored (op : Nat) (q : Req) (s : State) : Bool :=
  s.role == .primary && s.twin.mirroring && (changesState op q || op == 0x0101 || op == 0x0102 || op == 0x1105) &&
    !([0x0D, 0x0E, 0x0F].contains (op / 256)) && op != 0x0C02 && op != 0x0B05

/-- The command's own TARGET, 0 where it has none. -/
def ownTarget (op : Nat) (q : Req) : Nat :=
  if op = 0x0602 then Req.u64 q 8
  else if [0x0700, 0x0701, 0x0702, 0x0703, 0x0801, 0x0802, 0x0803, 0x0804, 0x0805].contains op then Req.u64 q 4 else 0

/-- R353: the command's own TARGET where it has one, else the receipt time plus 1 ms, which is also the earliest. -/
def mirrorTarget (op : Nat) (q : Req) (receipt : Nat) : Nat := max (ownTarget op q) (receipt + 1000000)

/-- The mirror message (R353): MIRROR_SEQ, status, TARGET and the full request. -/
def mirrorBytes (mseq op st target : Nat) (q : Req) : List Byte :=
  leBytes 4 mseq ++ leBytes 2 st ++ leBytes 2 0 ++ leBytes 8 target ++ requestBytes op q

/-! ### Serving -/

/-- What a command answers that leaves a state of its own: at once; later (its response waits for what `kind` names); or with a
status whose rule says that something changed (R431). -/
inductive Ans where
  | now (s : State) (res : List Byte)
  | later (s : State) (kind : JobKind) (res : List Byte)
  | failed (s : State) (status : Nat) (res : List Byte)

def Ans.state : Ans → State
  | .now s _ => s
  | .later s _ _ => s
  | .failed s _ _ => s

/-- Whether the command was accepted. -/
def Ans.accepted : Ans → Bool
  | .failed _ _ _ => false
  | _ => true

/-- The primary holds the command until its TARGET and its response until the acknowledgement. A command with its own TARGET is
executed at once, since it takes effect at its TARGET by itself; where it waits for more than the twin, so does its response. -/
def holdMirror (op : Nat) (q : Req) (a : Ans) (s : State) (peers : List PeerAnswer := []) : State :=
  let receipt := receiptOf op q s
  let target := mirrorTarget op q receipt
  let early := ownTarget op q != 0
  let mseq := (fget s.twin.rec_ Twin.mirrorSeq + s.twin.mirrors.length + 1) % 2 ^ 32
  let job : JobKind × List Byte := match a with
    | .now _ res => (.mirror mseq target, res)
    | .failed _ _ res => (.mirror mseq target, res)
    | .later _ kind res => (if early then kind else .mirror mseq target, res)
  (((if early then a.state else s).onTwin (fun t => { t with mirrors := t.mirrors ++ [⟨mseq, op, q, target, early, false, peers⟩] })).onCtl
    (fun c => { c with jobs := c.jobs ++ [⟨job.1, op, q, receipt, target, 0, job.2⟩] })).sendMessage 7 msgMirror
      (mirrorBytes mseq op 0 target q)

/-- The state an accepted command leaves and, unless it waits, its response. -/
def settle (op : Nat) (q : Req) (a : Ans) (s0 : State) : State :=
  match a with
  | .now s res => respond op 0 q res s
  | .failed s st res => respond op st q res s
  | .later s kind res =>
    let limit := if q.deadline = 0 then defaultDeadline op else q.deadline.toNat
    s.onCtl (fun c => { c with jobs := c.jobs ++ [⟨kind, op, q, receiptOf op q s0, receiptOf op q s0 + limit * 1000, 0, res⟩] })

/-- The event a refusal raises. -/
def State.raiseErr (e : Err) (s : State) : State :=
  match e.event with
  | some v => s.raise v
  | none => s

/-- A refusal's response; but for its event nothing else changes (R431). -/
def refuse (op : Nat) (q : Req) (e : Err) (s : State) : State := respond op e.status q e.result (s.raiseErr e)

/-- A dequeued request through the checks of R402 and its body; `peers` is what other members answered to it. -/
def run (op : Nat) (body : Req → State → Except Err Ans) (q : Req) (s0 : State) (peers : List PeerAnswer := []) : State :=
  let s := takeUp q s0
  dequeue op q <| match gate op q s0 with
    | .error e => refuse op q e s
    | .ok () =>
      match body q s with
      | .error e => refuse op q e s
      | .ok a => if mirrored op q s && a.accepted then holdMirror op q a s peers else settle op q a s0

/-- R493: the six opcodes the boot ROM serves in Rescue Boot and while it waits for a load. -/
def rescueOps : List Nat := [0x0100, 0x0F00, 0x0F01, 0x0F02, 0x0F03, 0x0F04]

/-- R492: the port on which the boot ROM accepts loads. -/
def rescuePort (q : Req) (s : State) : Bool :=
  match q.port with
  | .p0 => q.chan == 0 && (s.pwr.afterRestart || s.pwr.bootSrc == 1)
  | .p2 => s.pwr.afterRestart || s.pwr.bootSrc == 2
  | _ => false

/-- A request in Rescue Boot (R493): without reference to the Port Privilege Table. -/
def runRescue (op : Nat) (body : Req → State → Except Err Ans) (q : Req) (s0 : State) : State :=
  let s := takeUp q s0
  dequeue op q <|
    if !headerOk q s0 then refuse op q ⟨eDecode, [], none⟩ s
    else if !rescueOps.contains op then refuse op q ⟨eState, [], none⟩ s
    else match body q s with
      | .error e => refuse op q e s
      | .ok a => settle op q a s0

/-- The halt record of R479. -/
def haltRecord (h : Halt) (s : State) : List Byte :=
  let verdict (v : Option Bool) : Nat := match v with | none => 0 | some true => 1 | some false => 2
  fitBytes 16 (leBytes 1 (match h with | .trim => 1 | .clkMode => 2 | .strap => 3) ++
    leBytes 1 (fget s.pwr.cnt Cnt.trimFails) ++ leBytes 1 (verdict s.pwr.trimA) ++ leBytes 1 (verdict s.pwr.trimB) ++
    fitBytes 3 s.pwr.strapNow ++ leBytes 1 (fget s.pwr.cnt Cnt.lastCause))

/-- A host command: served by the firmware, by the boot ROM in Rescue Boot, answered with the halt record on the service bus in
BOOT_HALT (R396, R479), or lost (R384, R390). -/
def serveAns (op : Nat) (body : Req → State → Except Err Ans) (q : Req) (s0 : State) (peers : List PeerAnswer := []) : Out :=
  let s := s0.fresh
  checked (Req.wf q) <| done <|
    match s.pwr.bootState with
    | .firmware => if s.heard q.port then run op body q s peers else dequeue op q s
    | .rescue | .waitLoad => if rescuePort q s then runRescue op body q s else s
    | _ => match s.pwr.halt, q.port with
      | some h, .p2 => s.sendP2 q.sender (responseBytes op eState q (haltRecord h s) s.now)
      | _, _ => s

/-- A host command whose response follows at once. -/
def serve (op : Nat) (body : Req → State → Res) (q : Req) (s : State) (peers : List PeerAnswer := []) : Out :=
  serveAns op (fun q s => (body q s).map (fun a => .now a.1 a.2)) q s peers

end Sys2Proof.Machine
end

