-- ==== Sys2Proof/Machine/Rings.lean ====
section
/-! DEFINITION. Ring and channel commands of the FLOW group (R51 to R54, R66, R411, R412, R541): the checks of a descriptor, the
writers and readers that name a ring, and RING_CREATE, RING_DELETE, RING_MODIFY, RING_QUERY and MEM_STATUS. -/

namespace Sys2Proof.Machine

open Sys2Proof

/-! ### Checks of a descriptor (R53) -/

/-- Largest FORMAT by TYPE (R52). -/
def formatMax : Nat → Nat
  | 2 => 1 | 3 => 2 | _ => 5

/-- R51: whether a class holds rings of a type. -/
def classAllows (cls type : Nat) : Bool :=
  match cls with
  | 0 => type == 0 || type == 2 || type == 3
  | 1 => true
  | 2 => type == 1 || type == 2
  | _ => type == 1 || type == 3

/-- Tiles of the declared largest unit of a data ring (R412); one tile for a best-effort ring, which declares none. -/
def unitTiles (d : BitVec 256) (decl : Nat × Nat) : Nat :=
  if ringClass d = 3 || decl.2 = 0 then 1 else cdiv decl.2 4096

/-- The minimum depth of R51, in tiles. -/
def minDepth (d : BitVec 256) (decl : Nat × Nat) : Nat :=
  if ringIsVideo d then
    let tpf := videoTpf (ringType d) (fget d RingDesc.width) (ringLines d) (fget d RingDesc.formatF) (ringIl d)
    if ringClass d = 0 then tpf + 8 * cdiv (lineBytes (fget d RingDesc.width) (fget d RingDesc.formatF)) 4096
    else if ringClass d = 3 then 2 * tpf else 3 * tpf
  else if ringType d = 2 then 16
  else 2 * unitTiles d decl

/-- TPF and LINE_BYTES as hardware computes them (R52). -/
def withGeometry (d : BitVec 256) : BitVec 256 :=
  let lb := if ringIsVideo d then lineBytes (fget d RingDesc.width) (fget d RingDesc.formatF) else 0
  let tpf := if ringIsVideo d then
      videoTpf (ringType d) (fget d RingDesc.width) (ringLines d) (fget d RingDesc.formatF) (ringIl d)
    else if ringType d = 2 then 1 else 0
  fput (fput d RingDesc.tpf tpf) RingDesc.lineBytes lb

/-- R53 step 2 and R412: the parameter offsets of the fields out of range, `base` that of the descriptor and `declAt` that of DECL_RATE, none
in RING_MODIFY. -/
def ringRangesBad (base : Nat) (declAt : Option Nat) (d : BitVec 256) (decl : Nat × Nat) : List Nat :=
  let strict := ringClass d == 3 || (ringType d == 3 && fget d RingDesc.formatF != 0)
  (rangeBad RingDesc.layout d).toList.map (base + ·) ++ ([
    (decide (formatMax (ringType d) < fget d RingDesc.formatF), base + 3),
    (fget d RingDesc.base % 16 != 0, base + 4),
    (fget d RingDesc.length % 16 != 0, base + 8),
    (ringType d == 2 && decide (2048 < fget d RingDesc.length), base + 8),
    (ringType d == 2 && fget d RingDesc.formatF == 1 && decide (256 ≤ fget d RingDesc.nonpcm), base + 24),
    (strict && decl.1 == 0, declAt.getD noField),
    (strict && ringClass d != 3 && decl.2 == 0, match declAt with | some o => o + 4 | none => noField)].filter (·.1)).map (·.2)

/-- R53 step 2: the first of them is named. -/
def ringRanges (base : Nat) (declAt : Option Nat) (d : BitVec 256) (decl : Nat × Nat) : Except Err Unit :=
  match ringRangesBad base declAt d decl with
  | [] => .ok ()
  | o :: l => errAt eRange (l.foldl min o)

/-- Rings whose tiles a range would overlap, leaving out ring `self`. -/
def overlaps (s : State) (self base len : Nat) : Bool :=
  s.mem.rings.any (fun e => e.1 != self && !ringFree e.2 &&
    base < fget e.2 RingDesc.base + fget e.2 RingDesc.length && fget e.2 RingDesc.base < base + len)

/-- The largest run of free tiles of ring space (R53 step 7): rings' ranges start and end at multiples of 16. -/
def largestFree (s : State) (self : Nat) : Nat :=
  let used := (s.mem.rings.filter (fun e => e.1 != self && !ringFree e.2)).map
    (fun e => (fget e.2 RingDesc.base, fget e.2 RingDesc.length))
  let sorted := used.foldl (fun l p => pinsert p l) []
  let (best, pos) := sorted.foldl (fun (best, pos) (b, n) => (max best (b - pos), max pos (b + n))) (0, 0)
  max best (ringSpace s.pwr.reduced - pos)

/-- R53 steps 3 to 7, with R432 before them. -/
def ringShape (s : State) (self base : Nat) (d : BitVec 256) (decl : Nat × Nat) : Except Err Unit := do
  need (s.planeOn (fget d RingDesc.plane)) eNoref
  let w := fget d RingDesc.width
  if ringIsVideo d then
    needAt (720 ≤ w && w ≤ 7680 && w % pgroupPixels (fget d RingDesc.formatF) == 0) (base + 20) eFormat
    needAt (486 ≤ ringLines d && ringLines d ≤ 4320) (base + 21) eFormat
  needAt (classAllows (ringClass d) (ringType d)) (base + 1) eFormat
  needAt (minDepth d decl ≤ fget d RingDesc.length) (base + 8)
  needAt (fget d RingDesc.base + fget d RingDesc.length ≤ ringSpace s.pwr.reduced) (base + 4)
  if overlaps s self (fget d RingDesc.base) (fget d RingDesc.length) then
    errBudget 0x11 (fget d RingDesc.length) (largestFree s self)
  else .ok ()

/-! ### Writers and readers of a ring -/

/-- R143, R51: whether a ring suits an SDI receiver's or ST 2022-6 depacketiser's video, ancillary or audio part. -/
def sdiVideoFits (d : BitVec 256) : Bool := !ringFree d && (ringType d == 0 && ringClass d ≤ 1 || (ringType d == 1 && ringClass d == 1))
def sdiAncFits (d : BitVec 256) : Bool := !ringFree d && ringType d == 3 && fget d RingDesc.formatF == 0 && ringClass d ≤ 1
def sdiAudFits (d : BitVec 256) : Bool := !ringFree d && ringType d == 2 && ringClass d ≤ 1

/-- R184: whether a ring suits an ESSENCE. -/
def essenceFits (essence : Nat) (d : BitVec 256) : Bool :=
  !ringFree d && ringClass d ≤ 1 &&
    (match essence with
     | 0 | 4 => ringIsVideo d
     | 1 | 2 => ringType d == 2
     | 3 => ringType d == 3 && fget d RingDesc.formatF == 0
     | _ => ringType d == 3 && fget d RingDesc.formatF == 2)

/-- R217 on class, type, format and plane. -/
def compRingFits (o : BitVec 256) (d : BitVec 256) : Bool :=
  !ringFree d && ringClass d == 2 && ringType d == 1 && fget d RingDesc.width == fget o CompOut.outW &&
    ringLines d == fget o CompOut.outH && ringIl d == fbit o CompOut.outInterlaced &&
    fget d RingDesc.formatF == fget o CompOut.outSample && fbit d RingDesc.range == fbit o CompOut.outRange &&
    fget d RingDesc.plane == fget o CompOut.plane

/-- R244: whether a ring suits a Calliope output slot of the current CAL_PLANE. -/
def calRingFits (s : State) (d : BitVec 256) : Bool :=
  !ringFree d && ringType d == 2 && ringClass d == 2 && fget d RingDesc.plane == fget s.cal.ctl Cal.calPlane

/-- R203: whether two rings of a pair agree. -/
def pairMatch (a b : BitVec 256) : Bool :=
  ringType a == ringType b && fget a RingDesc.formatF == fget b RingDesc.formatF && fget a RingDesc.width == fget b RingDesc.width &&
    ringLines a == ringLines b && ringIl a == ringIl b && fbit a RingDesc.range == fbit b RingDesc.range

def partFits (part : Nat) (d : BitVec 256) : Bool :=
  if part = 0 then sdiVideoFits d else if part = 1 then sdiAncFits d else sdiAudFits d

/-- A writer that may name a ring (R54). -/
inductive Writer where
  | lane (l part : Nat)
  | bound (i : Nat)
  | ingest (ring part : Nat)
  | filter (i : Nat)
  | queue (h : Nat)
  | comp (i : Nat)
  | cal (slot : Nat)
  | merge (m : Nat)
  | import_ (i : Nat)
  deriving DecidableEq, Repr

def isCapture (f : Flow) : Bool := fget f.key FlowEntry.typeF == 1 && fget f.key FlowEntry.action == 2

/-- Every writer that names a ring (R54). An ingest record counts while its ring is bound (R185). -/
def State.writersOf (s : State) (r : Nat) : List Writer :=
  s.sdi.cfg.flatMap (fun e => ((laneParts e.2).filter (fun p => p.2 == r)).map (fun p => .lane e.1 p.1)) ++
  (s.flo.table.zipIdx.filter (fun e => isBound e.1 && flowRing e.1 == r)).map (fun e => .bound e.2) ++
  s.flo.ingest.flatMap (fun e => ((ingestParts e.2).filter (fun p => p.2 == r)).map (fun p => .ingest e.1 p.1)) ++
  (s.flo.table.zipIdx.filter (fun e => isCapture e.1 && flowRing e.1 == r)).map (fun e => .filter e.2) ++
  (s.ctl.hq.filter (fun e => e.2.en && e.2.ring == r)).map (fun e => .queue e.1) ++
  (s.cmp.out.filter (fun e => fbit e.2 CompOut.compEn && fget e.2 CompOut.outRing == r)).map (fun e => .comp e.1) ++
  (s.cal.outHdr.filter (fun e => fbit e.2 AudOut.outEn && fget e.2 AudOut.outRing == r)).map (fun e => .cal e.1) ++
  (s.flo.merge.filter (fun e => fbit e.2 Merge.mergeEn && fget e.2 Merge.outRing == r)).map (fun e => .merge e.1) ++
  (s.trp.imp.filter (fun e => fbit e.2 Import.impEn && fget e.2 Import.impRing == r)).map (fun e => .import_ e.1)

/-- The writers that writes held for a TARGET will bind to a ring (R238, R247): they count from the acceptance of the write, as their
claims do (DESIGN CHOICE, log entry 133). -/
def State.heldWriters (s : State) (r : Nat) : List Writer :=
  s.cmp.held.filterMap (fun h => match h.obj with
    | .compOut i => let e : BitVec 256 := BitVec.ofNat 256 (leNat h.bytes)
      if fbit e CompOut.compEn && fget e CompOut.outRing == r then some (.comp i) else none
    | _ => none) ++
  s.cal.held.filterMap (fun h => match h.obj with
    | .audOut o => let e : BitVec 128 := BitVec.ofNat 128 (leNat (h.bytes.take 16))
      if fbit e AudOut.outEn && fget e AudOut.outRing == r then some (.cal o) else none
    | _ => none)

/-- Whether a ring has a writer other than those excused. -/
def State.hasWriter (s : State) (r : Nat) (mine : Writer → Bool := fun _ => false) : Bool :=
  (s.writersOf r ++ s.heldWriters r).any (fun w => !mine w)

/-- R54: the binding checks of the writers bound to a ring, made on a new descriptor. -/
def State.bindingsOk (s : State) (r : Nat) (d : BitVec 256) : Bool :=
  (s.writersOf r ++ s.heldWriters r).all (fun w => match w with
    | .lane _ p => partFits p d
    | .ingest _ p => partFits p d
    | .bound i => match s.flo.table[i]? with
      | some f => essenceFits (fget f.key FlowEntry.essence) d
      | none => true
    | .filter _ => ringClass d == 3 && ringType d == 3
    | .queue _ => ringClass d == 3
    | .comp i => compRingFits (tget compOutReset s.cmp.out i) d
    | .cal o => calRingFits s d && (s.setRing r d).slotRates o (ringHz d) (ringChans d)
    | .merge m => let c := tget mergeReset s.flo.merge m
      ringClass d == 1 && pairMatch d (s.ring (fget c Merge.primaryRing))
    | .import_ _ => ringClass d ≤ 1 && pairMatch d (s.ring r))

/-- Rings a hold reads. -/
def holdReads (s : State) (h : Hold) : Option Nat :=
  match h.grp with
  | .route r _ _ _ => some r
  | .compRead _ r _ => some r
  | .layer c l => some (fget (tget layerRecReset s.cmp.layer (8 * c + l)) Layer.sourceRing)
  | .calRead slot _ => ((s.audIns slot).find? (fun e => fbit e AudIn.inEn)).map (fun e => fget e AudIn.inRing)
  | .merge m leg => let c := tget mergeReset s.flo.merge m
    some (if leg = 0 then fget c Merge.primaryRing else fget c Merge.secondaryRing)
  | .outgoing r => some r
  | _ => none

/-- R54: whether any reader is attached to a ring. -/
def State.hasReader (s : State) (r : Nat) : Bool :=
  s.bud.holds.any (fun h => holdReads s h == some r) || s.ctl.captures.any (fun c => c.ring == r)

/-! ### Commands -/

/-- RING_CREATE: the checks of R53, in order. -/
def ringCreateCheck (q : Req) (s : State) : Except Err (Nat × BitVec 256 × (Nat × Nat)) := do
  let r := Req.u32 q 0
  needAt (r < 8192) 0
  need (ringFree (s.ring r)) eState
  Req.layout q 44
  let d := mergeRec RingDesc.layout (s.ring r) (Req.slice q 4 32)
  let decl := (Req.u32 q 36, Req.u32 q 40)
  ringRanges 4 (some 36) d decl
  ringShape s r 4 d decl
  return (r, withGeometry d, decl)

/-- The ring created: IDLE, with its declared rates. -/
def ringCreateDo (r : Nat) (d : BitVec 256) (decl : Nat × Nat) (s : State) : State :=
  (s.setRing r (fput (fput d RingDesc.ringId r) RingDesc.stateF 1)).onMem
    (fun m => { m with decl := tset declReset m.decl r decl, wr := tdel m.wr r, markers := tdel m.markers r, ctr := tdel m.ctr r })

def cmdRingCreate (q : Req) (s : State) : Res := do
  let (r, d, decl) ← ringCreateCheck q s
  let t := ringCreateDo r d decl s
  return (t, recBytes (t.ring r))

/-- RING_CREATE (R53). -/
def execRingCreate (q : Req) (s : State) : Out := serve 0x0300 cmdRingCreate q s

def ringDeleteCheck (q : Req) (s : State) : Except Err Nat := do
  let r := Req.u32 q 0
  needAt (r < 8192) 0
  Req.layout q 4
  need (!ringFree (s.ring r)) eState
  need (!s.hasReader r) eState
  need (!s.hasWriter r) eState
  return r

/-- The ring returned to FREE: descriptor, counters, markers and claims (R54). -/
def ringDeleteDo (r : Nat) (s : State) : State :=
  (s.release (fun h => h.grp == .write r)).onMem (fun m => { m with
    rings := tdel m.rings r, decl := tdel m.decl r, markers := tdel m.markers r, ctr := tdel m.ctr r, wr := tdel m.wr r })

def cmdRingDelete (q : Req) (s : State) : Res := do
  let r ← ringDeleteCheck q s
  return (ringDeleteDo r s, [])

/-- RING_DELETE (R54). -/
def execRingDelete (q : Req) (s : State) : Out := serve 0x0301 cmdRingDelete q s

/-- The ring and its descriptor as written. -/
def ringModifyFields (q : Req) (s : State) : Except Err (Nat × BitVec 256) := do
  let r ← Req.index q 8192
  let old := s.ring r
  Req.noTarget q
  Req.layout q 44
  need (!ringFree old) eState
  let d := mergeRec RingDesc.layout old (Req.recordBytes q 32)
  let decl := tget declReset s.mem.decl r
  ringRanges 12 none d decl
  match fixedBad (fixedIf (2 ≤ fget old RingDesc.stateF) RingDesc.layout) old d with
  | some o => errAt eFixed (12 + o)
  | none =>
    ringShape s r 12 d decl
    needAt (s.bindingsOk r d) noField eFormat
    match (s.setRing r d).slotsRead r d with
    | some st => errAt st noField
    | none => return (r, withGeometry d)

/-- The claims of the ring's writer at the credits of the new descriptor. -/
def ringModifyClaims (r : Nat) (d : BitVec 256) (s : State) : Except Err State :=
  match s.bud.holds.find? (fun h => h.grp == .write r) with
  | none => .ok s
  | some h =>
    let c := descCredits s.bud.profile s d (tget declReset s.mem.decl r)
    if c = h.credits then .ok s
    else claimAll [{ h with credits := c, acc := 0 }] (fun g => g.grp == .write r) s

/-- RING_MODIFY's checks (R54): the new descriptor, and the state with its write claim recomputed. -/
def ringModifyCheck (q : Req) (s : State) : Except Err (Nat × BitVec 256 × State) := do
  let (r, d) ← ringModifyFields q s
  let t ← ringModifyClaims r d s
  return (r, d, t)

def cmdRingModify (q : Req) (s : State) : Res := do
  let (r, d, t) ← ringModifyCheck q s
  let t := (t.setRing r d).syncWcred r
  return (t, recBytes (t.ring r))

/-- RING_MODIFY (R54). -/
def execRingModify (q : Req) (s : State) : Out := serve 0x0302 cmdRingModify q s

/-- STATE of a marker in RING_QUERY (R411). -/
def markCode : MarkState → Nat
  | .writing => 0 | .complete => 1 | .incomplete => 2

/-- The eight markers of RING_QUERY, newest first; 3 = unused. -/
def markerBytes (l : List Marker) : List Byte :=
  (l.flatMap (fun k => leBytes 4 k.eseq.toNat ++ leBytes 4 k.tiles.toNat ++ leBytes 8 k.time ++ leBytes 1 (markCode k.state) ++
    List.replicate 7 0)) ++
  (List.replicate (8 - l.length) (List.replicate 16 0 ++ [3] ++ List.replicate 7 0)).flatten

def ringCtrBytes (c : RingCtr) : List Byte :=
  leBytes 4 c.checkFail ++ leBytes 4 c.incomplete ++ leBytes 4 c.concealPrev ++ leBytes 4 c.concealBlack

/-- INDEX and CLEAR of a record read (R407). -/
def readArgs (q : Req) (n : Nat) : Except Err (Nat × Bool) := do
  let i ← Req.index q n
  let c ← Req.readClear q
  return (i, c)

/-- Whether a contained fault holds a writer (R52, R436). -/
def State.writerHalted (s : State) : Writer → Bool
  | .lane l _ =>
    let v := tget laneReset s.sdi.lanes l
    v.unsup || v.overBudget || s.isIsolated 0x84 (locSdiRx l) || s.isIsolated 0x85 (locSdiRx l)
  | .ingest r _ =>
    let v := tget depReset s.flo.dep r
    let l := locEth (v.src / 8) 14
    v.unsup || s.isIsolated 0x84 l || s.isIsolated 0x85 l
  | .comp i => s.flt.isolated.any (fun p => p.2 == locComp (i / 4) 9)
  | .cal _ => s.flt.isolated.any (fun p => (List.range 4).any (fun e => p.2 == locCal e))
  | _ => false

/-- A bound ring is written by its own depacketiser. -/
def State.ringHalted (s : State) (r : Nat) : Bool :=
  (s.writersOf r).any (fun w => match w with
    | .bound _ => s.writerHalted (.ingest r 0) || s.flo.table.any (fun f => f.bad && fget f.key FlowEntry.typeF == 0 && fget f.key FlowEntry.ring == r)
    | _ => s.writerHalted w)

/-- The descriptor as RING_QUERY shows it: STATE 3 is HALTED while the writer of a RUNNING ring is held. -/
def State.ringView (s : State) (r : Nat) : BitVec 256 :=
  let d := s.ring r
  if fget d RingDesc.stateF = 2 && s.ringHalted r then fput d RingDesc.stateF 3 else d

def cmdRingQuery (q : Req) (s : State) : Res := do
  let (r, clear) ← readArgs q 8192
  let res := recBytes (s.ringView r) ++ ringCtrBytes (tget ctrReset s.mem.ctr r) ++ markerBytes (s.markersOf r)
  return (if clear then s.onMem (fun m => { m with ctr := tdel m.ctr r }) else s, res)

/-- RING_QUERY (R411, R412). -/
def execRingQuery (q : Req) (s : State) : Out := serve 0x0303 cmdRingQuery q s

def chanBytes (c : Chan) : List Byte :=
  leBytes 4 c.chFail ++ leBytes 4 c.chEcc ++ leBytes 4 c.chRecentre ++ leBytes 4 c.chCache ++ leBytes 1 (bit c.trained)

def cmdMemStatus (q : Req) (s : State) : Res := do
  let (ch, clear) ← readArgs q 16
  let res := chanBytes (tget chanReset s.mem.chans ch)
  return (if clear then s.onChan ch (fun c => { c with chFail := 0, chEcc := 0, chRecentre := 0, chCache := 0 }) else s, res)

/-- MEM_STATUS (R411). -/
def execMemStatus (q : Req) (s : State) : Out := serve 0x0304 cmdMemStatus q s

end Sys2Proof.Machine
end

