-- ==== Sys2Proof/Machine/Planes.lean ====
section
/-! DEFINITION. Timing planes, pulse outputs and clock outputs (R282 to R290, R413): the plane, pulse and clock records, phase
changes applied as steps and slews, and the edges of the outputs. -/

namespace Sys2Proof.Machine

open Sys2Proof

/-! ### Accessors -/

def State.plane (s : State) (p : Nat) : BitVec 128 := tget planeReset s.ref.plane p
def State.planeSt (s : State) (p : Nat) : PlaneSt := tget planeStReset s.ref.planeSt p
def State.setPlane (p : Nat) (r : BitVec 128) (s : State) : State :=
  s.onRef (fun e => { e with plane := tset planeReset e.plane p r })
def State.setPlaneSt (p : Nat) (v : PlaneSt) (s : State) : State :=
  s.onRef (fun e => { e with planeSt := tset planeStReset e.planeSt p v })

/-! ### Phase changes (R284, R285) -/

/-- A change modulo a period, in the direction of the smaller of the two ways round (R285, R278). -/
def signedMod (d : Int) (per : Nat) : Int :=
  let m := d % (per : Int)
  if 2 * m ≤ per then m else m - per

/-- R284, R285: a phase change of `d` time units on a plane. A slew in progress takes the new target at its own rate; otherwise
STEP_MODE decides between a step at the next frame boundary and a slew. -/
def State.phaseChange (p : Nat) (d : Int) (s : State) : State :=
  let r := s.plane p
  let st := s.planeSt p
  let per := frameTu (fget r Plane.plRate)
  if 0 < st.slew then
    let gone := s.slewed p
    s.setPlaneSt p { st with
      shift := st.shift + gone, past := st.past + gone, slewFrom := s.engineTu, left := signedMod (st.left - gone + d) per }
  else if fbit r Plane.stepMode then
    let left := signedMod (st.step + d) per
    if left = 0 then s.setPlaneSt p { st with step := 0 }
    else s.setPlaneSt p { st with step := 0, slew := fget r Plane.slewRate, slewFrom := s.engineTu, left := left, past := 0 }
  else s.setPlaneSt p { st with step := ((st.step + d) % (per : Int)).toNat }

/-- PLANE_STEP with the change completed (R540). -/
def State.planeStepped (p reason : Nat) (d : Int) (s : State) : State :=
  s.raise ⟨0xE7, locRef, true, reason, leBytes 4 p ++ leBytes 4 (unsgn 32 (d.tdiv 47250))⟩

/-- PHASE_LEFT now (R282). -/
def State.phaseLeft (s : State) (p : Nat) : Int := ((s.planeSt p).left - s.slewed p).tdiv 47250

/-- The plane record as it reads. -/
def State.planeImage (s : State) (p : Nat) : BitVec 128 := fputS (s.plane p) Plane.phaseLeft (s.phaseLeft p)

/-! ### What names a plane (R282) -/

def State.planeNamed (s : State) (p : Nat) : Bool :=
  s.mem.rings.any (fun e => !ringFree e.2 && fget e.2 RingDesc.plane == p) ||
  s.sdi.cfg.any (fun e => fbit e.2 SdiLane.txEn && fget e.2 SdiLane.plane == p) ||
  s.flo.pkt.any (fun e => fbit e.2 PktFlow.flowEn &&
    fget (tget pktOutReset s.flo.pktOut (fget e.2 PktFlow.output)) PktOut.plane == p) ||
  s.cmp.out.any (fun e => fbit e.2 CompOut.compEn && fget e.2 CompOut.plane == p) ||
  (fbit s.cal.ctl Cal.calEn && fget s.cal.ctl Cal.calPlane == p) ||
  s.ref.pulse.any (fun e => fbit e.2 Pulse.poEn && fget e.2 Pulse.poPlane == p) ||
  s.ref.clock.any (fun e => fbit e.2 ClkOut.ckEn && fget e.2 ClkOut.ckPlane == p)

/-! ### PLANE_WRITE -/

/-- One frame of a rate in whole 0.1 ns. -/
def frameTenths (rate : Nat) : Nat := frameTu rate / 47250

/-- R282: the combination and PHASE, judged when the plane is, or stays, enabled. -/
def planeJudged (r : BitVec 128) : Except Err Unit := do
  if fbit r Plane.planeEn then
    needAt (structureOk (planeLines (fget r Plane.plLines)) (fbit r Plane.plInterlaced) (fget r Plane.plRate)) noField eFormat
    needAt ((fsgn r Plane.phase).natAbs ≤ frameTenths (fget r Plane.plRate)) 16

def planeWriteCheck (q : Req) (s : State) : Except Err (Nat × BitVec 128) := do
  let p ← Req.index q 8
  Req.noTarget q
  let old := s.plane p
  let new ← writeRecord q Plane.layout old (fixedIf (fbit old Plane.planeEn) Plane.layout)
  planeJudged new
  need (!(fbit old Plane.planeEn && !fbit new Plane.planeEn && s.planeNamed p)) eState
  return (p, new)

/-- The record taken on; an enabled plane starts at PHASE, and a new PHASE of a running one is a phase change. -/
def planeWriteDo (p : Nat) (new : BitVec 128) (s : State) : State :=
  let old := s.plane p
  let s1 := s.setPlane p new
  if !fbit new Plane.planeEn then s1.setPlaneSt p (planeStReset p)
  else if !fbit old Plane.planeEn then s1.setPlaneSt p { planeStReset p with shift := tenthTu (fsgn new Plane.phase) }
  else if fget old Plane.phase = fget new Plane.phase then s1
  else s1.phaseChange p (tenthTu (fsgn new Plane.phase - fsgn old Plane.phase))

def cmdPlaneWrite (q : Req) (s : State) : Res := do
  let (p, new) ← planeWriteCheck q s
  let t := planeWriteDo p new s
  return (t, recBytes (t.planeImage p))

/-- PLANE_WRITE (R282, R413). -/
def execPlaneWrite (q : Req) (s : State) : Out := serve 0x0400 cmdPlaneWrite q s

/-! ### Pulse and clock outputs -/

def State.pulse (s : State) (o : Nat) : BitVec 64 := tget pulseReset s.ref.pulse o
def State.clock (s : State) (k : Nat) : BitVec 64 := tget clockReset s.ref.clock k

/-- R287: OFFSET is ignored for PO_SRC 2 to 4; otherwise it lies within one frame of PO_PLANE. Its offset in the record. -/
def pulseMore (s : State) (r : BitVec 64) : Option Nat :=
  let src := fget r Pulse.poSrc
  if 2 ≤ src && src ≤ 4 then none
  else if (fsgn r Pulse.offset).natAbs * tuPerNs ≤ frameTu (s.planeRate (fget r Pulse.poPlane)) then none
  else some 4

def pulseWriteCheck (q : Req) (s : State) : Except Err (Nat × BitVec 64) := do
  let o ← Req.index q 8
  Req.noTarget q
  let old := s.pulse o
  let new ← writeRecordX q Pulse.layout old (fixedIf (fbit old Pulse.poEn) Pulse.layout) (pulseMore s)
  need (!fbit new Pulse.poEn || s.planeOn (fget new Pulse.poPlane)) eNoref
  return (o, new)

/-- R287: an output that starts to regenerate an input which shows no activity has lost it, with PULSE_IN_LOST. -/
def State.pulseLost (o : Nat) (old new : BitVec 64) (s : State) : State :=
  let e := tget edgeReset s.ref.pulseSt o
  let on (r : BitVec 64) : Bool := fbit r Pulse.poEn && fget r Pulse.poSrc == 5
  let lost := on new && !(tget candStReset s.ref.candSt (fget new Pulse.alignIn + 2)).activity
  let s1 := s.onRef (fun f => { f with pulseSt := tset edgeReset f.pulseSt o { e with lost := lost } })
  if lost && !(on old && e.lost) then s1.raise0 0xE8 locRef else s1

/-- The record taken on; a change of OFFSET of a running output lengthens one period (R288). -/
def pulseWriteDo (o : Nat) (new : BitVec 64) (s : State) : State :=
  let old := s.pulse o
  let src := fget new Pulse.poSrc
  let e := tget edgeReset s.ref.pulseSt o
  let moved := e.run && fget old Pulse.offset != fget new Pulse.offset && !(2 ≤ src && src ≤ 4)
  (s.onRef (fun f => { f with
    pulse := tset pulseReset f.pulse o new
    pulseSt := tset edgeReset f.pulseSt o { e with lengthen := e.lengthen || moved } })).pulseLost o old new

def cmdPulseWrite (q : Req) (s : State) : Res := do
  let (o, new) ← pulseWriteCheck q s
  return (pulseWriteDo o new s, recBytes new)

/-- PULSE_WRITE (R287, R413). -/
def execPulseWrite (q : Req) (s : State) : Out := serve 0x0401 cmdPulseWrite q s

/-- R289: whether a clock's period divides the frame period exactly. -/
def clockDivides (r : BitVec 64) (rate : Nat) : Bool :=
  let m := fbit r ClkOut.ck1001
  fget r ClkOut.ckFreq * (if m then 1000 else 1) * rateDen rate % ((if m then 1001 else 1) * rateNum rate) == 0

def clockWriteCheck (q : Req) (s : State) : Except Err (Nat × BitVec 64) := do
  let k ← Req.index q 2
  Req.noTarget q
  let old := s.clock k
  let new ← writeRecord q ClkOut.layout old []
  needAt (!fbit new ClkOut.ckAlign || clockDivides new (s.planeRate (fget new ClkOut.ckPlane))) noField
  match fixedBad (fixedIf (fbit old ClkOut.ckEn) ClkOut.layout) old new with
  | some o => errAt eFixed (12 + o)
  | none =>
    need (!fbit new ClkOut.ckEn || s.planeOn (fget new ClkOut.ckPlane)) eNoref
    return (k, new)

def cmdClockWrite (q : Req) (s : State) : Res := do
  let (k, new) ← clockWriteCheck q s
  return (s.onRef (fun f => { f with clock := tset clockReset f.clock k new }), recBytes new)

/-- CLOCK_WRITE (R289, R413). -/
def execClockWrite (q : Req) (s : State) : Out := serve 0x0402 cmdClockWrite q s

/-- PTP time of a plane's next frame start, 0 while it does not run (R413). -/
def State.planeNext (s : State) (p : Nat) : Nat :=
  if s.planeOn p then s.stampOf p (gridNext (s.planeTu p) (frameTu (s.planeRate p)) 0) else 0

def cmdPlaneRead (q : Req) (s : State) : Res := do
  let (i, _) ← readArgs q 18
  return (s, if i < 8 then recBytes (s.planeImage i) ++ leBytes 8 (s.planeNext i)
    else if i < 16 then recBytes (s.pulse (i - 8)) else recBytes (s.clock (i - 16)))

/-- PLANE_READ (R413). -/
def execPlaneRead (q : Req) (s : State) : Out := serve 0x0403 cmdPlaneRead q s

/-! ### Events of planes and outputs -/

/-- BOUND_SUSPENDED of an output (R92): condition numbers from 1; 0 with ACTIVE 0. -/
def State.boundEvent (o reason : Nat) (active : Bool) (s : State) : State :=
  s.raise ⟨0x60, locBudget, active, reason, leBytes 2 o⟩

def State.out (s : State) (o : Nat) : OutSt := tget outReset s.rte.outs o
def State.setOut (o : Nat) (v : OutSt) (s : State) : State := s.onRte (fun r => { r with outs := tset outReset r.outs o v })

/-- R92: at a frame boundary of its plane, an output whose conditions all hold again is bounded again. -/
def State.reboundPlane (p : Nat) (s : State) : State :=
  (s.rte.outs.filter (fun e => e.2.unbounded == [0] && (s.outFmt e.1).any (fun f => f.plane == p))).foldl
    (fun s e => (s.setOut e.1 { s.out e.1 with unbounded := [] }).boundEvent e.1 0 false) s

/-- R284: the frames that transmitters of a plane are emitting are lengthened. -/
def State.lengthen (p n : Nat) (s : State) : State :=
  (s.rte.outs.filter (fun e => e.2.running && (s.outFmt e.1).any (fun f => f.plane == p))).foldl
    (fun s e => s.setOut e.1 { s.out e.1 with tx := { (s.out e.1).tx with extra := (s.out e.1).tx.extra + n } }) s

/-- R284: whether the extra time of a frame that a step lengthened lasts; packet outputs then send nothing. -/
def State.inExtra (s : State) (p : Nat) : Bool := s.engineTu < (s.planeSt p).extra

/-- PLANE_FRAME_START (R284): the plane's frame boundary. A step that waits is applied: the frame that ends is lengthened. -/
def execPlaneFrameStart (p : Fin 8) (s0 : State) : Out :=
  let s := s0.fresh
  if !s.planeOn p.val then done s else
  let st := s.planeSt p.val
  let s1 := s.setPlaneSt p.val { st with
    frames := st.frames + 1, shift := st.shift + st.step, step := 0, extra := if st.step = 0 then 0 else s.engineTu + st.step }
  done ((if st.step = 0 then s1 else (s1.lengthen p.val st.step).planeStepped p.val 1 st.step).reboundPlane p.val)

/-- SLEW_COMPLETE (R285): the slew in progress ends once nothing of it is left. -/
def execSlewComplete (p : Fin 8) (s0 : State) : Out :=
  let s := s0.fresh
  let st := s.planeSt p.val
  if st.slew = 0 || s.slewed p.val != st.left then done s else
  done ((s.setPlaneSt p.val { st with shift := st.shift + st.left, slew := 0, left := 0, past := 0 }).planeStepped
    p.val 2 (st.past + st.left))

/-- The level of a running output's pin: its pulse or half cycle, in its polarity. -/
def edgeLevel (high pol : Bool) : Bool := high != pol

/-- Width and period of an output's pulse or cycle, in ns, by what it is fed from: 1 µs for a frame pulse or PPS, square for a clock (R287,
R289). A regenerated input has the type of its candidate (R270). -/
def frameNs (rate : Nat) : Nat := frameTu rate / tuPerNs
def clockTimes : Nat → Nat × Nat
  | 2 => (50, 100)
  | 3 => (10416, 20833)
  | _ => (5208, 10416)
def State.pulseTimes (s : State) (r : BitVec 64) : Nat × Nat :=
  match fget r Pulse.poSrc with
  | 0 => (1000, frameNs (s.planeRate (fget r Pulse.poPlane)))
  | 1 => (1000, 1000000000)
  | 5 =>
    let c : BitVec 128 := tget candReset s.ref.cand (fget r Pulse.alignIn + 2)
    match fget c Cand.pType with
    | 0 => (1000, 1000000000)
    | 1 => (1000, frameNs (fget c Cand.refRate))
    | k => clockTimes k
  | k => clockTimes k
def ckTimes (r : BitVec 64) : Nat × Nat :=
  let per := (if fbit r ClkOut.ck1001 then 1001000000 else 1000000000) / max 1 (fget r ClkOut.ckFreq)
  (per / 2, per)

/-- R288: whether an edge may fall now: a pulse has had its width, and no two edges are closer than half a period; a period that is
lengthened ends no sooner than a whole one. -/
def edgeDue (t : Nat × Nat) (e : EdgeSt) (now : Nat) : Bool :=
  !e.run || e.lastEdge + (if e.high then t.1 else if e.lengthen then t.2 - t.1 else t.2 / 2) ≤ now

/-- One scheduled edge of an output (R288, R290): it starts with a whole pulse or cycle, ends after its present one with the pin
low, and one period is lengthened after a change of OFFSET or a re-alignment. -/
def edgeNext (en pol : Bool) (e : EdgeSt) (now : Nat) : EdgeSt × Bool :=
  if e.run && e.high then ({ e with high := false, lastEdge := now }, edgeLevel false pol)
  else if en then ({ e with run := true, high := true, lengthen := false, lastEdge := now }, edgeLevel true pol)
  else ({ e with run := false, high := false, lengthen := false, lastEdge := now }, false)

/-- PULSE_OUTPUT_EDGE (R288, R290): outputs 0 to 7 are PO0 to PO7, 8 and 9 are CK0 and CK1. When an edge is scheduled is the
environment's (log entry 134). -/
def execPulseOutputEdge (o : Fin 10) (s0 : State) : Out :=
  let s := s0.fresh
  let k := o.val
  if k < 8 then
    let r := s.pulse k
    let e := tget edgeReset s.ref.pulseSt k
    if (!e.run && !fbit r Pulse.poEn) || !edgeDue (s.pulseTimes r) e s.time.clk.toNat then done s else
    let (e', level) := edgeNext (fbit r Pulse.poEn) (fbit r Pulse.poPol) e s.time.clk.toNat
    done ((s.onRef (fun f => { f with pulseSt := tset edgeReset f.pulseSt k e' })).emit (.edge k level))
  else
    let r := s.clock (k - 8)
    let e := tget edgeReset s.ref.clockSt (k - 8)
    if (!e.run && !fbit r ClkOut.ckEn) || !edgeDue (ckTimes r) e s.time.clk.toNat then done s else
    let (e', level) := edgeNext (fbit r ClkOut.ckEn) false e s.time.clk.toNat
    done ((s.onRef (fun f => { f with clockSt := tset edgeReset f.clockSt (k - 8) e' })).emit (.edge k level))

end Sys2Proof.Machine
end

