-- ==== Sys2Proof/Machine/Refs.lean ====
section
/-! DEFINITION. The reference engine (R269 to R281, R291, R292, R422): candidates and their qualification, selection, build-out,
the cleaning loop's stages, holdover, and the pulse and analog sync inputs. -/

namespace Sys2Proof.Machine

open Sys2Proof

/-! ### Accessors -/

def State.cand (s : State) (c : Nat) : BitVec 128 := tget candReset s.ref.cand c
def State.candSt (s : State) (c : Nat) : CandSt := tget candStReset s.ref.candSt c
def State.setCand (c : Nat) (r : BitVec 128) (s : State) : State :=
  s.onRef (fun e => { e with cand := tset candReset e.cand c r })
def State.setCandSt (c : Nat) (v : CandSt) (s : State) : State :=
  s.onRef (fun e => { e with candSt := tset candStReset e.candSt c v })
def State.setEng (f : Fld) (v : Nat) (s : State) : State := s.onRef (fun e => { e with eng := fput e.eng f v })

/-- Q_STATE of a candidate: 0 ABSENT, 1 QUALIFYING, 2 QUALIFIED, 3 DISQUALIFIED. -/
def State.qState (s : State) (c : Nat) : Nat := fget (s.cand c) Cand.qState
def State.setQ (c v : Nat) (s : State) : State := s.setCand c (fput (s.cand c) Cand.qState v)

/-- LOOP_STATE: 0 FREERUN, 1 ACQUIRE, 2 LOCKED, 3 HOLDOVER. -/
def State.loopState (s : State) : Nat := fget s.ref.eng RefEng.loopState
def State.selected (s : State) : Nat := fget s.ref.eng RefEng.selected
/-- SELECTED while no candidate is. -/
def noCand : Nat := 31

def State.lane (s : State) (l : Nat) : LaneSt := tget laneReset s.sdi.lanes l
def State.inst (s : State) (i : Nat) : BitVec 256 := tget instReset s.ptp.inst i

/-- R299: whether a PTP instance is usable. -/
def instUsable (r : BitVec 256) : Bool :=
  fbit r Inst.instEn && (fget r Inst.instState == 1 || fget r Inst.instState == 2) && fget r Inst.reason == 0

/-- Whether a candidate shows activity (R273): an SDI lane is FORMAT_LOCKED (R153), the servo's PTP instance is usable (R299,
R306, R312), any other as its detector found. -/
def State.candActive (s : State) (c : Nat) : Bool :=
  if 7 ≤ c && c ≤ 14 then (s.lane (fget (s.cand c) Cand.lane)).lock == .formatLocked
  else if c = 6 then fget s.ptp.servo Servo.servoSrc == 0 && !s.ptp.candHold && instUsable (s.inst s.ptp.using_)
  else (s.candSt c).activity

/-! ### Holdover (R280) -/

/-- Mean of a list of integers, rounded down. -/
def meanInt (l : List Int) : Int := l.sum.fdiv (max 1 l.length)

/-- The corrections of the 100 s ending 2 s before entry, or of whatever LOCKED history there is. -/
def entryWindow (h : List Int) : List Int := if (h.drop 2).isEmpty then h else (h.drop 2).take 100

/-- The ageing slope of R280: least squares over the history (newest first), in 2^-48 per second as a fraction, clamped to 10 ppb
per day; 0 with fewer than 4 h. -/
def ageSlope (h : List Int) : Int × Nat :=
  let n := h.length
  if n < 14400 then (0, 1) else
  let sx := n * (n - 1) / 2
  let sxx := (n - 1) * n * (2 * n - 1) / 6
  let sy := h.sum
  let sxy := ((h.reverse.zipIdx).map (fun (y, i) => y * i)).sum
  let num : Int := n * sxy - sx * sy
  let den := n * sxx - sx * sx
  if (2 : Int) ^ 48 * den < num * 8640000000000 then (2 ^ 48, 8640000000000)
  else if num * 8640000000000 < -((2 : Int) ^ 48 * den) then (-(2 ^ 48), 8640000000000)
  else (num, den)

/-- FREQ_CORR in holdover after `t` seconds. -/
def holdCorr (e : RefSt) (t : Nat) : Int := e.fEntry + (e.slope.1 * t).fdiv e.slope.2

/-- R280, R281: the engine enters holdover. Without any LOCKED history the spec gives f_entry no value: it is a free value. -/
def State.enterHoldover (s0 : State) : State :=
  let (w, s) := if s0.ref.history.isEmpty then (let p := s0.freeWord; (sgn 32 p.1.toNat, p.2))
    else (meanInt (entryWindow s0.ref.history), s0)
  let old := s.selected
  let s1 := s.onRef (fun e => { e with
    eng := fputS (fput (fput e.eng RefEng.loopState 3) RefEng.selected noCand) RefEng.freqCorr w
    fEntry := w
    slope := ageSlope e.history
    holdSecs := 0
    longDone := false
    settled := fget e.eng RefEng.settle == 0
    oldSel := old })
  s1.raise0 0xE4 locRef

/-- R276 step 1: the selected candidate is lost. -/
def State.loseSelected (c : Nat) (s : State) : State :=
  if s.selected = c && (s.loopState = 1 || s.loopState = 2) then s.enterHoldover else s

/-! ### Activity (R273) -/

/-- REF_DISQUALIFIED (R273): 1 LOSS, 2 BAD_SECONDS, 3 STEP, 4 DRIFT. -/
def State.disqualified (c reason : Nat) (s : State) : State := s.raise ⟨0xE1, locRef, true, reason, leBytes 1 c⟩

/-- A candidate loses its activity, or is disabled: ABSENT at once, with its history gone. -/
def State.candDown (c : Nat) (s : State) : State :=
  let q := s.qState c
  let s1 := (s.setQ c 0).setCandSt c { s.candSt c with secs := [], goodRun := 0, qualRun := 0 }
  let s2 := if q = 2 then s1.disqualified c 1 else s1
  s2.loseSelected c

/-- Activity returns to an enabled candidate. -/
def State.candUp (c : Nat) (s : State) : State :=
  if fbit (s.cand c) Cand.candEn && s.qState c = 0 then
    (s.setQ c 1).setCandSt c { s.candSt c with secs := [], goodRun := 0, qualRun := 0 }
  else s

/-- Every candidate whose activity has changed without a detector of its own (a lane's lock, a PTP instance) follows it. -/
def State.syncCands (cs : List Nat) (s : State) : State :=
  cs.foldl (fun s c => if s.candActive c then s.candUp c else if s.qState c = 0 then s else s.candDown c) s

/-- The SDI candidates that name a lane. -/
def State.candsOf (s : State) (l : Nat) : List Nat :=
  [7, 8, 9, 10, 11, 12, 13, 14].filter (fun c => fget (s.cand c) Cand.lane == l)

/-! ### Qualification (R272, R273) -/

/-- Whether a mean over the newest `n` seconds lies outside ± `lim` in 0.001 ppm; not applied before `n` seconds of history. -/
def meanOut (secs : List Second) (n lim : Nat) : Bool :=
  n ≤ secs.length && n * lim < ((secs.take n).map Second.freq).sum.natAbs

/-- Mean frequency over the newest `n` seconds, or over those there are, in 0.001 ppm. -/
def meanFreq (secs : List Second) (n : Nat) : Int := meanInt ((secs.take n).map Second.freq)

/-- The reason for which a QUALIFIED candidate is disqualified, 0 for none. -/
def badReason (r : BitVec 128) (secs : List Second) : Nat :=
  let w := fget r Cand.freqWindow * 100
  if 2 ≤ ((secs.take 10).filter (fun x => !x.good)).length then 2
  else if meanOut secs 10 (4 * w) then 3
  else if meanOut secs 100 w then 4
  else 0

/-- Whether the Troupe's timing leader is this device: T is then never qualified (R269). -/
def State.isLeader (s : State) : Bool := fget s.trp.rec_ TroupeRec.leader == fget s.trp.rec_ TroupeRec.member

/-- One second of one candidate. -/
def State.evalCand (c : Nat) (m : Measure) (s : State) : State :=
  let r := s.cand c
  if !fbit r Cand.candEn || !s.candActive c then s
  else if s.qState c = 0 then s.candUp c
  else
    let st := s.candSt c
    let good := m.edges && m.jump ≤ fget r Cand.phaseHit
    let secs := (⟨good, m.freq⟩ :: st.secs).take 100
    let w := fget r Cand.freqWindow * 100
    match s.qState c with
    | 1 =>
      let run := if good then st.goodRun + 1 else 0
      let s1 := s.setCandSt c { st with secs := secs, goodRun := run, qualRun := 0 }
      if fget r Cand.qualTime ≤ run && !meanOut secs 10 w && !meanOut secs 100 w && !(c == 15 && s.isLeader) then
        (s1.setQ c 2).raise ⟨0xE2, locRef, true, 0, leBytes 1 c⟩
      else s1
    | 2 =>
      let why := badReason r secs
      if why = 0 then s.setCandSt c { st with secs := secs, qualRun := st.qualRun + 1 }
      else (((s.setCandSt c { st with secs := secs, goodRun := 0, qualRun := 0 }).setQ c 3).disqualified c why).loseSelected c
    | _ => (s.setCandSt c { st with secs := secs, goodRun := 0, qualRun := 0 }).setQ c 1

/-! ### Selection (R274, R275) -/

def State.rankOf (s : State) (c : Nat) : Nat := fget (s.cand c) Cand.rank

/-- R274 step 1: the best rank among QUALIFIED candidates, then the lowest index. -/
def State.bestCand (s : State) : Option Nat :=
  (List.range 16).foldl (fun b c => if s.qState c != 2 then b else match b with
    | none => some c
    | some x => if s.rankOf c < s.rankOf x then some c else b) none

/-- R275: whether two candidates disagree. -/
def State.disagree (s : State) (a b : Nat) : Bool :=
  s.qState a == 2 && s.qState b == 2 && s.rankOf a == s.rankOf b &&
    fget s.ref.eng RefEng.agreeLimit * 100 < (meanFreq (s.candSt a).secs 10 - meanFreq (s.candSt b).secs 10).natAbs

/-- R275: one more second of the open episodes: each ends when the means have agreed for 10 s. -/
def State.judgeAgree (s : State) : State :=
  s.ref.disagree.foldl (fun s x =>
    let rest := s.ref.disagree.filter (fun y => (y.1, y.2.1) != (x.1, x.2.1))
    if s.disagree x.1 x.2.1 then s.onRef (fun e => { e with disagree := rest ++ [(x.1, x.2.1, 0)] })
    else if 9 ≤ x.2.2 then (s.onRef (fun e => { e with disagree := rest })).raise ⟨0xE3, locRef, false, 0, leBytes 1 x.1 ++ leBytes 1 x.2.1⟩
    else s.onRef (fun e => { e with disagree := rest ++ [(x.1, x.2.1, x.2.2 + 1)] })) s

/-- The candidate that is selected, or that the engine chooses now: at the first acquisition, or in holdover once SETTLE has passed. -/
def State.chosenCand (s : State) : Option Nat :=
  if s.selected != noCand then some s.selected
  else if fbit s.ref.eng RefEng.refEn && (s.loopState == 0 || (s.loopState == 3 && s.ref.settled)) then s.bestCand
  else none

/-- R275: episodes begin with each candidate that disagrees with the one selected or chosen. -/
def State.openDisagree (s : State) : State :=
  match s.chosenCand with
  | none => s
  | some c =>
    ((List.range 16).filter (fun d => d != c && s.disagree c d && !s.ref.disagree.any (fun x => x.1 == min c d && x.2.1 == max c d))).foldl
      (fun s d => (s.onRef (fun e => { e with disagree := e.disagree ++ [(min c d, max c d, 0)] })).raise
        ⟨0xE3, locRef, true, 0, leBytes 1 (min c d) ++ leBytes 1 (max c d)⟩) s

/-- Time units of the period within which a candidate gives phase (R269): none for a frequency-only candidate, 0 for one that
gives time itself. -/
def State.candPeriod (s : State) (c : Nat) : Option Nat :=
  let r := s.cand c
  if c ≤ 1 then (if (s.candSt c).detected = 255 then none else some (frameTu (s.candSt c).rate))
  else if c ≤ 5 then match fget r Cand.pType with
    | 0 => some (1000000000 * tuPerNs)
    | 1 => some (frameTu (fget r Cand.refRate))
    | _ => none
  else if c = 6 || c = 15 then some 0
  else match (s.lane (fget r Cand.lane)).fmt with
    | some f => some (frameTu f.rate)
    | none => none

/-- A candidate's phase against engine time as the smallest move, in time units. -/
def phaseMove (per : Option Nat) (d : Int) : Int :=
  match per with
  | none => 0
  | some 0 => d
  | some p => signedMod d p

/-- Engine time moves by `x` time units. -/
def State.moveEngine (x : Int) (s : State) : State :=
  s.onTime (fun t => { t with engine := ((t.engine : Int) + (x * 2 ^ 48).fdiv tuPerNs).toNat })

/-- Engine time moves and every running plane is moved back by a phase change of its own (R278). -/
def State.alignEngine (x : Int) (s : State) : State :=
  (List.range 8).foldl (fun s p => if s.planeOn p then
      (s.setPlaneSt p { s.planeSt p with shift := (s.planeSt p).shift + x }).phaseChange p (-x) else s) (s.moveEngine x)

/-- R278: where engine time goes at the first acquisition. `d` is the candidate's phase against engine time, in 0.1 ns. -/
def State.alignMove (s : State) (c : Nat) (d : Int) : Int :=
  let toPtp : Int := (s.now32 * tuPerNs / 2 ^ 32 : Nat) - (s.engineTu : Int)
  if c = 6 then toPtp
  else if c = 15 then tenthTu d
  else match s.candPeriod c with
    | none => toPtp
    | some per => toPtp + phaseMove (some per) (tenthTu d - toPtp)

/-- REF_SELECTED with the old and the new index. -/
def State.refSelected (old new : Nat) (s : State) : State := s.raise ⟨0xE0, locRef, true, 0, leBytes 1 old ++ leBytes 1 new⟩

/-- R277, R278: the first candidate from FREERUN. -/
def State.selectFirst (c : Nat) (d : Int) (s : State) : State :=
  ((((s.setEng RefEng.selected c).setEng RefEng.loopState 1).onRef (fun e => { e with stage := 1, oldSel := c })).alignEngine
    (s.alignMove c d)).refSelected noCand c

/-- R276 steps 3 and 4: a new candidate with build-out; the loop starts at BW_FINAL. `d` in 0.1 ns. -/
def State.selectBuilt (c : Nat) (d : Int) (s : State) : State :=
  let move := (phaseMove (s.candPeriod c) (tenthTu d)).tdiv 47250
  let old := if s.selected = noCand then s.ref.oldSel else s.selected
  let was := s.loopState
  let s1 := (((s.setEng RefEng.selected c).setEng RefEng.loopState 1).onRef (fun e => { e with
    stage := 5, oldSel := c, build := e.build + move, eng := fputS e.eng RefEng.buildout (e.build + move) })).moveEngine (tenthTu move)
  let s2 := s1.refSelected old c
  if was = 3 then s2.raiseEnd 0xE4 locRef else s2

/-- The candidates' phases, in 0.1 ns, 0 where none is given. -/
def phaseOf (phases : List Int) (c : Nat) : Int := phases.getD c 0

/-- R274, R276: one re-evaluation of the selection. -/
def State.evalSelect (phases : List Int) (s : State) : State :=
  if !fbit s.ref.eng RefEng.refEn then s else
  match s.bestCand with
  | none => s
  | some c =>
    if s.loopState = 0 then s.selectFirst c (phaseOf phases c)
    else if s.loopState = 3 && s.ref.settled then s.selectBuilt c (phaseOf phases c)
    else s

/-- R279, R437: a fault in the loop hardware leaves the planes on the local oscillator. -/
def State.pllFailed (s : State) : Bool := s.flt.status.any (fun p => p.1 == 0xE9)

/-- FREQ_CORR and the history of one second: the loop's correction while it runs, the model in holdover, none in FREERUN or once the
loop hardware has failed. -/
def State.evalCorr (corr : Int) (s : State) : State :=
  if s.pllFailed then s.onRef (fun e => { e with eng := fputS e.eng RefEng.freqCorr 0 }) else
  s.onRef (fun e =>
    match fget e.eng RefEng.loopState with
    | 0 => { e with eng := fputS e.eng RefEng.freqCorr 0 }
    | 3 => { e with holdSecs := e.holdSecs + 1, eng := fputS e.eng RefEng.freqCorr (holdCorr e (e.holdSecs + 1)) }
    | 2 => { e with eng := fputS e.eng RefEng.freqCorr corr, history := (corr :: e.history).take 86400 }
    | _ => { e with eng := fputS e.eng RefEng.freqCorr corr })

/-- REF_EVALUATION (R272 to R276, R280): one second of every candidate, then agreement and selection. A candidate without a
measure has a bad second. -/
def execRefEvaluation (meas : List Measure) (phases : List Int) (corr : BitVec 32) (s0 : State) : Out :=
  if s0.blockHeld 49 then done s0.fresh else
  let s1 := (List.range 16).foldl (fun s c => s.evalCand c (meas.getD c ⟨false, 0, 0⟩)) s0.fresh
  done (((s1.judgeAgree.openDisagree).evalSelect phases).evalCorr corr.toInt)

/-- ACTIVITY_LOSS (R273, R287): no edge for two nominal periods, or another loss of the candidate's activity. -/
def execActivityLoss (c : Fin 16) (s0 : State) : Out :=
  let k := c.val
  let s := s0.fresh.setCandSt k { s0.candSt k with activity := false }
  if s.candActive k then done s else
  let s1 := if s.qState k = 0 then s else s.candDown k
  let lost (s : State) (o : Nat) : Bool :=
    let r := s.pulse o
    fbit r Pulse.poEn && fget r Pulse.poSrc == 5 && fget r Pulse.alignIn + 2 == k && !(tget edgeReset s.ref.pulseSt o).lost
  done ((List.range 8).foldl (fun s o => if lost s o then
    (s.onRef (fun e => { e with pulseSt := tset edgeReset e.pulseSt o { tget edgeReset e.pulseSt o with lost := true } })).raise0 0xE8 locRef
    else s) s1)

/-- SETTLE_EXPIRY (R276): the best QUALIFIED candidate is selected with build-out, or the first that qualifies later. -/
def execSettleExpiry (phases : List Int) (s0 : State) : Out :=
  let s := s0.fresh
  if s.loopState != 3 || s.ref.settled then done s
  else done (((s.onRef (fun e => { e with settled := true })).openDisagree).evalSelect phases)

/-- WTR_EXPIRY (R274): a better-ranked candidate that has stayed QUALIFIED for WTR displaces the selected one. -/
def execWtrExpiry (c : Fin 16) (phase : Int) (s0 : State) : Out :=
  let s := s0.fresh
  if fbit s.ref.eng RefEng.revertive && (s.loopState == 1 || s.loopState == 2) && s.qState c.val == 2 &&
      s.rankOf c.val < s.rankOf s.selected && fget s.ref.eng RefEng.wtr ≤ (s.candSt c.val).qualRun then
    done (s.selectBuilt c.val phase)
  else done s

/-- Bandwidth of an acquisition stage in 0.01 Hz (R277). -/
def stageBw : Nat → Nat
  | 1 => 10000 | 2 => 1000 | 3 => 100 | 4 => 10 | _ => 1

/-- ACQUISITION_STAGE (R277): the dwell has passed below the threshold. The stage at or below BW_FINAL is the last: the loop is
LOCKED. -/
def execAcquisitionStage (s0 : State) : Out :=
  let s := s0.fresh
  if s.loopState != 1 then done s
  else if stageBw s.ref.stage ≤ fget s.ref.eng RefEng.bwFinal then done ((s.setEng RefEng.loopState 2).raise0 0xE6 locRef)
  else done (s.onRef (fun e => { e with stage := e.stage + 1 }))

/-- HOLD_LIMIT_EXPIRY (R281). -/
def execHoldLimitExpiry (s0 : State) : Out :=
  let s := s0.fresh
  if s.loopState != 3 || s.ref.longDone then done s
  else done ((s.onRef (fun e => { e with longDone := true })).raise0 0xE5 locRef)

/-- Whether the sync detector knows a format (R291): 525 lines at 30/1.001 or 625 at 25, or 750 or 1,125 lines at a rate of R130. -/
def syncKnown (detected rate : Nat) : Bool :=
  detected % 128 ≤ 3 && structureOk (planeLines (detected % 128)) (128 ≤ detected) rate

/-- ANALOG_SYNC_FRAME (R291): a frame of sync of a detected format (PL_LINES with bit 7 interlaced) and rate (as OUT_RATE), or an expected
sync missing (0xFF, or a format that the detector does not know), with the measured amplitude in mV. -/
def execAnalogSyncFrame (c : Fin 2) (detected : SyncSeen) (amplitude : BitVec 16) (s0 : State) : Out :=
  let s := s0.fresh
  let ⟨lines, rate⟩ := detected
  let st := s.candSt c.val
  let amp := amplitude.toNat
  let down (s : State) : State :=
    let s1 := s.setCandSt c.val { s.candSt c.val with activity := false, detected := 255, frames := 0, missing := 0, amplitude := amp }
    if s1.qState c.val = 0 then s1 else s1.candDown c.val
  if amp < 100 then done (down s)
  else if lines.val = 255 || !syncKnown lines.val rate.val then
    if 4 ≤ st.missing + 1 then done (down s)
    else done (s.setCandSt c.val { st with missing := st.missing + 1, amplitude := amp })
  else
    let same := st.detected == lines.val && st.rate == rate.val
    let run := if same then st.frames + 1 else 1
    let up := (st.activity && same) || (2 ≤ run && 150 ≤ amp)
    let s1 := s.setCandSt c.val { st with detected := lines.val, rate := rate.val, frames := run, missing := 0, amplitude := amp, activity := up }
    done (if up then s1.candUp c.val else if s1.qState c.val = 0 then s1 else s1.candDown c.val)

/-- REF_PLL_FAULT (R279): fatal; engine time runs on the local oscillator. -/
def execRefPllFault (s : State) : Out := done ((s.fresh.raise0 0xE9 locRef).setEng RefEng.freqCorr 0)

/-- PULSE_INPUT_EDGE (R292, R287, R466): latched by ACT_P in WATCH, where the fast clocks stand still; otherwise stamped, it
restores activity and re-aligns an output that had lost this input. -/
def execPulseInputEdge (p : Fin 4) (s0 : State) : Out :=
  let s := s0.fresh
  let k := p.val
  if s.pwr.power = .backup then done s
  else if s.pwr.power = .watch then
    let a := fget s.pwr.aon Aon.actP
    done (s.onPwr (fun w => { w with aon := fput w.aon Aon.actP (if maskBit a k then a else a + 2 ^ k) }))
  else
    let s1 := (s.onRef (fun e => { e with pinEdge := tset natReset e.pinEdge k s.now })).setCandSt (k + 2)
      { s.candSt (k + 2) with activity := true }
    let s2 := s1.candUp (k + 2)
    let back (s : State) (o : Nat) : Bool :=
      fget (s.pulse o) Pulse.poSrc == 5 && fget (s.pulse o) Pulse.alignIn == k && (tget edgeReset s.ref.pulseSt o).lost
    done ((List.range 8).foldl (fun s o => if back s o then
      s.onRef (fun e => { e with
        pulseSt := tset edgeReset e.pulseSt o { tget edgeReset e.pulseSt o with lost := false, lengthen := true } }) else s) s2)

/-! ### Commands -/

/-- R153: a lane that an SDI candidate may not name. -/
def candLaneCheck (s : State) (c : Nat) (old new : BitVec 128) : Except Err Unit := do
  let l := fget new Cand.lane
  let asks := fget old Cand.lane != l || (fbit new Cand.candEn && !fbit old Cand.candEn)
  if 7 ≤ c && c ≤ 14 && asks then
    if s.inEconomy && 72 ≤ l then errBudget 0x60 1 0
    need (fbit (sdiCfg s l) SdiLane.rxEn) eState

def candWriteCheck (q : Req) (s : State) : Except Err (Nat × BitVec 128) := do
  let c ← Req.index q 16
  Req.noTarget q
  let old := s.cand c
  let new ← writeRecord q Cand.layout old (fixedIf (fbit old Cand.candEn) Cand.layout)
  candLaneCheck s c old new
  return (c, new)

/-- The record taken on (R270, R274): a disabled candidate is ABSENT, an enabled one with activity begins to qualify. -/
def candWriteDo (c : Nat) (new : BitVec 128) (s : State) : State :=
  let s1 := s.setCand c new
  if !fbit new Cand.candEn then (if s1.qState c = 0 then s1 else s1.candDown c)
  else if s1.candActive c then s1.candUp c else s1

def cmdCandWrite (q : Req) (s : State) : Res := do
  let (c, new) ← candWriteCheck q s
  let t := candWriteDo c new s
  return (t, recBytes (t.cand c))

/-- CAND_WRITE (R270, R422). -/
def execCandWrite (q : Req) (s : State) : Out := serve 0x0900 cmdCandWrite q s

def refWriteCheck (q : Req) (s : State) : Except Err (BitVec 256) := do
  let _ ← Req.index q 1
  Req.noTarget q
  writeRecord q RefEng.layout s.ref.eng []

/-- The record taken on (R271): REF_EN 0 is free run on the local oscillator. -/
def refWriteDo (new : BitVec 256) (s : State) : State :=
  let was := s.loopState
  let s1 := s.onRef (fun e => { e with eng := new })
  if fbit new RefEng.refEn || was = 0 then s1
  else
    let s2 := s1.onRef (fun e => { e with
      eng := fput (fput (fput e.eng RefEng.loopState 0) RefEng.selected noCand) RefEng.freqCorr 0, settled := false, stage := 0 })
    if was = 3 then s2.raiseEnd 0xE4 locRef else s2

def cmdRefWrite (q : Req) (s : State) : Res := do
  let new ← refWriteCheck q s
  let t := refWriteDo new s
  return (t, recBytes t.ref.eng)

/-- REF_WRITE (R271, R422). -/
def execRefWrite (q : Req) (s : State) : Out := serve 0x0901 cmdRefWrite q s

/-- A candidate's record and measurements (R422). -/
def State.candImage (s : State) (c : Nat) : List Byte :=
  let st := s.candSt c
  recBytes (s.cand c) ++ leBytes 4 (unsgn 32 (meanFreq st.secs 10)) ++ leBytes 4 (unsgn 32 (meanFreq st.secs 100)) ++
    (if c ≤ 1 then leBytes 1 st.detected ++ leBytes 1 0 ++ leBytes 2 st.amplitude else [])

def cmdRefRead (q : Req) (s : State) : Res := do
  let (i, _) ← readArgs q 17
  return (s, if i = 0 then recBytes s.ref.eng else s.candImage (i - 1))

/-- REF_READ (R422). -/
def execRefRead (q : Req) (s : State) : Out := serve 0x0902 cmdRefRead q s

/-- BUILDOUT cleared, and removed from every running plane as a phase change (R276). -/
def phaseResetDo (s : State) : State :=
  let b := tenthTu s.ref.build
  let s1 := s.onRef (fun e => { e with build := 0, eng := fput e.eng RefEng.buildout 0 })
  (List.range 8).foldl (fun s p => if s.planeOn p then
    (s.setPlaneSt p { s.planeSt p with shift := (s.planeSt p).shift + b }).phaseChange p (-b) else s) s1

def cmdPhaseReset (q : Req) (s : State) : Res := do
  Req.layout q 0
  return (phaseResetDo s, [])

/-- PHASE_RESET (R276, R422). -/
def execPhaseReset (q : Req) (s : State) : Out := serve 0x0903 cmdPhaseReset q s

end Sys2Proof.Machine
end

