-- ==== Sys2Proof/Machine/AudioStage.lean ====
section
/-! DEFINITION. Samples and gains (R48, R251, R259, R260) and the audio stage of an output (R63, R114, R245, R262 to R264): readers
with one tile of look-ahead, their slips, concealment ramps, and the ramps of a switch. -/

namespace Sys2Proof.Machine

open Sys2Proof

/-! ### Gains (R259, R260) -/

/-- round(2^24 × 10^(p / q)): the largest `c` with 2c - 1 at most 2^25 × 10^(p / q), compared in whole numbers. -/
def powerCoeff (p : Int) (q : Nat) : Nat :=
  let ok (c : Nat) : Bool :=
    if 0 ≤ p then decide ((2 * c - 1) ^ q ≤ 2 ^ (25 * q) * 10 ^ p.natAbs) else decide ((2 * c - 1) ^ q * 10 ^ p.natAbs ≤ 2 ^ (25 * q))
  (List.range 27).foldr (fun b c => if ok (c + 2 ^ b) then c + 2 ^ b else c) 0

/-- The coefficient of a gain in 0.01 dB; -32,768 is off (R259). -/
def gainCoeff (g : Int) : Nat := if g = -32768 then 0 else if g = 0 then 2 ^ 24 else powerCoeff g 2000

/-- Unity. -/
def unity : Nat := 2 ^ 24

/-- Off, in 0.01 dB, along a ramp linear in dB (R260). -/
def offDb : Int := -14400

/-- log2 of 10 with 128 fractional bits. -/
def log2Ten : Nat := 1130393554869435518674010122299176348979

/-- 10 to the power y / (n × 2^64), as fixed point. -/
def fxTen (y : Int) (n : Nat) : Int := fxExp2 (y * log2Ten / (2 ^ 128 * (max 1 n : Nat)))

/-- The coefficient of a gain in 2^-64 of 0.01 dB (log entry 40). -/
def dbCoeff (v : Int) : Nat := (fxRound (fxTen v 2000 * unity)).toNat

/-- Sample `i` of a ramp of `n` samples from silence to unity, or back (R260). In linear amplitude the two sum to unity. -/
def fadeCoeff (inDb up : Bool) (i n : Nat) : Nat :=
  if inDb then
    if up then dbCoeff ((offDb * n - offDb * (i + 1)) * fx / (max 1 n : Nat)) else if i + 1 = n then 0 else dbCoeff (offDb * (i + 1) * fx / (max 1 n : Nat))
  else
    let c := (2 * unity * (i + 1) + n) / (2 * max 1 n)
    if up then c else unity - c

/-! ### Samples (R48, R251) -/

/-- A quotient rounded to nearest, ties away from zero. -/
def roundAway (a : Int) (b : Nat) : Int :=
  let m := (2 * a.natAbs + b) / (2 * max 1 b)
  if a < 0 then -(m : Int) else m

/-- A sample saturated to 24 bits. -/
def sat24 (x : Int) : Int := clampInt (-8388608) 8388607 x

/-- The sample of a word. -/
def wordSample (w : BitVec 32) : Int := fsgn w AudWord.sample

/-- The word with another sample. -/
def withSample (w : BitVec 32) (x : Int) : BitVec 32 := fputS w AudWord.sample (sat24 x)

/-- A sample written as zero with V = 1. -/
def zeroSample : BitVec 32 := 0x01000000

def wordBytes (l : List (BitVec 32)) : List Byte := l.flatMap (fun w => leBytes 4 w.toNat)

/-- The words of a tile, none where it fails or is absent. -/
def State.tileWords (s : State) (r : Nat) (e : BitVec 32) : Option (List (BitVec 32)) := (s.audioTile r e).map (wordsOf 768)

/-- Silence of a ring's bundle: zero, with V = 1 on a non-PCM channel (R63). -/
def silence (d : BitVec 256) : List (BitVec 32) :=
  (List.range 768).map (fun i => if maskBit (fget d RingDesc.nonpcm) (i % ringChans d) then zeroSample else 0)

/-- R63: the 0.5 ms ramps at the edges of a good tile: up after a failed or skipped tile, down before one. -/
def edgeRamps (d : BitVec 256) (up down : Bool) (ws : List (BitVec 32)) : List (BitVec 32) :=
  if !up && !down then ws else
  let ch := ringChans d
  let n := ringMs d
  let h := n / 2
  ws.zipIdx.map (fun (w, i) =>
    let t := i / ch
    if maskBit (fget d RingDesc.nonpcm) (i % ch) then w
    else
      let c := if up && t < h then fadeCoeff false true t h else if down && n - h ≤ t then fadeCoeff false false (t - (n - h)) h else unity
      if c = unity then w else withSample w (roundAway (wordSample w * c) unity))

/-! ### Sample counts of a plane (R283) -/

def secTu : Nat := tuPerNs * 1000000000

/-- The sample nearest a plane time, the later of two (R262). -/
def sampleNear (hz : Nat) (x : Int) : Int := (2 * x * hz + secTu).fdiv (2 * secTu)

/-- The last sample at or before a plane time. -/
def sampleAt (hz : Nat) (x : Int) : Int := (x * hz).fdiv secTu

/-- The millisecond of the plane's grid nearest a plane time. -/
def msNear (x : Int) : Int := (2 * x + 1000000 * tuPerNs).fdiv (2000000 * tuPerNs)

/-! ### Readers (R245) -/

/-- What a reader does at a tile start: read and go on, wait, underrun, or skip to a position. -/
inductive Pace where
  | read
  | wait
  | under
  | overrun (pos : BitVec 32)
  deriving DecidableEq, Repr

/-- R245, by the ring's fill at the reader's position. -/
def pace (wseq pos : BitVec 32) (primed : Bool) : Pace :=
  let f : Int := (wseq - pos).toInt
  if primed then
    if f ≤ 0 then .under else if 4 ≤ f then .overrun (wseq - 2) else .read
  else if f < 2 then .wait else if 4 ≤ f then .overrun (wseq - 2) else .read

/-- Where a reader attaches (R245): where the fill was 2 at the start of the present millisecond, at PTP time `since`, or waiting for it. -/
def State.attachPos (s : State) (r since : Nat) : BitVec 32 × Bool :=
  let d := s.ring r
  let w := fget d RingDesc.wseq - bit (decide (since < tget natReset s.mem.stampAt r))
  if fget d RingDesc.stateF = 2 && 2 ≤ w then (BitVec.ofNat 32 (w - 2), true) else (BitVec.ofNat 32 (fget d RingDesc.wseq), false)

/-- A source that attaches: the tile read at a fill of 2 is the one it emits in the present millisecond. -/
def State.attach (s : State) (r since : Nat) : AudSrc :=
  let (pos, ready) := s.attachPos r since
  let tile := if ready then s.tileWords r pos else none
  ⟨r, if ready then pos + 1 else pos, ready, tile.getD [], tile.isSome, ready, 0, 0, 0, none, 0, 0, false, false, 0⟩

/-- A reader after one millisecond: its new position, and the words it emits, those of the tile it held. `slip` is 1 for an
underrun, 2 for an overrun. -/
structure Stepped where
  src : AudSrc
  words : List (BitVec 32)
  slip : Nat
  deriving DecidableEq, Repr

/-- One millisecond of a source. A reader that has not yet been primed skips without a slip. -/
def State.stepSrc (s : State) (a : AudSrc) : Stepped :=
  let d := s.ring a.ring
  let (pos, primed, tile, cut, slip) : BitVec 32 × Bool × Option (List (BitVec 32)) × Bool × Nat :=
    match pace (BitVec.ofNat 32 (fget d RingDesc.wseq)) a.pos a.primed with
    | .read => (a.pos + 1, true, s.tileWords a.ring a.pos, false, 0)
    | .wait => (a.pos, false, none, false, 0)
    | .under => (a.pos, false, none, false, 1)
    | .overrun p => (p + 1, true, s.tileWords a.ring p, a.primed, if a.primed then 2 else 0)
  let ok := tile.isSome
  let words := if a.heldOk then edgeRamps d (!a.prevOk) (!ok || cut) a.held else silence d
  ⟨{ a with pos := pos, primed := primed, held := tile.getD [], heldOk := ok, prevOk := a.heldOk && !cut }, words, slip⟩

/-! ### The mix of an output's slot (R114, R262 to R264) -/

/-- The switch gain of a source at a sample. -/
def srcGain (a : AudSrc) (n : Int) : Nat :=
  let up := if n < a.upAt then 0 else if n < a.upAt + a.upLen then fadeCoeff a.upDb true (n - a.upAt).toNat a.upLen else unity
  let down := match a.downAt with
    | none => unity
    | some d => if n < d then unity else if n < d + a.downLen then fadeCoeff a.downDb false (n - d).toNat a.downLen else 0
  (up * down + unity / 2) / unity

/-- The sample of the tile at which a non-PCM channel's next block starts, at or after the switch sample. -/
def blockStart (ch : Nat) (ws : List (BitVec 32)) (first : Int) (a : AudSrc) (c : Nat) : Option Nat :=
  if maskBit a.blocks c then some 0
  else (List.range (ws.length / ch)).find? (fun t => a.upS ≤ first + t && fbit (ws.getD (t * ch + c) 0) AudWord.b)

/-- A source with the words it emits, its non-PCM mask and the block starts of its channels. -/
structure Playing where
  src : AudSrc
  words : List (BitVec 32)
  mask : Nat
  starts : List (Option Nat)
  deriving DecidableEq, Repr

/-- Whether a source has taken a CUT channel over by sample `t` of the tile: a non-PCM one at its block start, else at the switch
sample. -/
def Playing.cutIn (p : Playing) (first : Int) (c t : Nat) : Bool :=
  if maskBit p.mask c then (match p.starts.getD c none with | some b => b ≤ t | none => false) else decide (p.src.upS ≤ first + t)

/-- The source that a CUT channel carries: the newest that has taken it over, until a switch to none. -/
def cutSource (ps : List Playing) (first : Int) (c t : Nat) : Option Playing :=
  match ps with
  | p :: _ => if p.src.downAt.isSome && decide (p.src.downS ≤ first + t) then none else ps.find? (fun q => q.cutIn first c t)
  | [] => none

/-- One word of the mix: a channel of a non-PCM source is cut and passes as it is, a single source at unity passes bit-exact, others are
summed (R114, R262). -/
def mixWord (ps : List Playing) (ch : Nat) (first : Int) (i : Nat) : BitVec 32 :=
  let c := i % ch
  let t := i / ch
  if ps.any (fun p => maskBit p.mask c) then
    match cutSource ps first c t with
    | some p => p.words.getD i 0
    | none => zeroSample
  else
    let parts := ps.map (fun p => (p.words.getD i 0, srcGain p.src (first + t)))
    match parts.filter (fun x => x.2 != 0) with
    | [] => 0
    | [(w, g)] => if g = unity then w else withSample w (roundAway (wordSample w * g) unity)
    | l => withSample 0 (l.foldl (fun a x => a + roundAway (wordSample x.1 * x.2) unity) 0)

/-- Whether a source has ended by a sample. -/
def srcEnded (a : AudSrc) (n : Int) : Bool := match a.downAt with | some d => d + a.downLen ≤ n | none => false

/-- Whether a source has a non-PCM channel whose block start it still awaits. -/
def Playing.awaits (p : Playing) (ch : Nat) : Bool := (List.range ch).any (fun c => maskBit p.mask c && (p.starts.getD c none).isNone)

/-- The sources that go on after a sample: those not ended, and behind a source that awaits a block start those before it. -/
def stillPlaying (ch : Nat) (last : Int) : List Playing → List AudSrc
  | [] => []
  | p :: ps =>
    if srcEnded p.src last then stillPlaying ch last ps
    else if p.awaits ch then p.src :: ps.map (·.src)
    else p.src :: stillPlaying ch last ps

/-- The millisecond of a slot that ends at millisecond `ms` of the plane's grid, at the rate of its newest source: the slot, and the slips
with their rings. What a switch within it sets is in force (R262). -/
def State.stepSlot (s : State) (v : AudSlot) (ms : Int) : AudSlot × List (Nat × Nat) :=
  match v.srcs with
  | [] => ({ v with samples := List.replicate 768 0, first := (ms - 1) * 48 }, [])
  | a0 :: _ =>
    let d0 := s.ring a0.ring
    let ch := ringChans d0
    let first := (ms - 1) * (ringMs d0 : Nat)
    let steps := v.srcs.map s.stepSrc
    let play (x : Stepped) : Playing :=
      let d := s.ring x.src.ring
      let ws := if ringHz d = ringHz d0 then x.words else silence d0
      let starts := (List.range ch).map (blockStart ch ws first x.src)
      ⟨{ x.src with blocks := listMask ((List.range ch).filter (fun c => (starts.getD c none).isSome)) }, ws, fget d RingDesc.nonpcm, starts⟩
    let ps := steps.map play
    let slips := (steps.filter (fun x => x.slip != 0)).map (fun x => (x.slip, x.src.ring))
    ({ v with
        samples := (List.range 768).map (mixWord ps ch first)
        first := first
        srcs := stillPlaying ch (first + (ringMs d0 : Nat)) ps
        slipUnder := sat32 v.slipUnder (slips.filter (fun x => x.1 == 1)).length
        slipOver := sat32 v.slipOver (slips.filter (fun x => x.1 == 2)).length }, slips)

/-! ### Setting a switch (R114, R262 to R264) -/

/-- When a switch's ramps run, in samples: the new source's start and length, and the old one's. -/
structure Plan where
  upAt : Int
  upLen : Nat
  downAt : Int
  downLen : Nat
  sample : Int
  inDb : Bool
  deriving DecidableEq, Repr

/-- R114, R262, R263: `short` is the number of samples left before the switch sample where the entry came too late for its full
ramps. Modes: 0 CUT, 1 FADE, 2 CROSS. -/
def switchPlan (e : BitVec 256) (hz : Nat) (sample : Int) (short : Option Nat) : Plan :=
  let n := fget e RouteEntry.audioRamp * hz / 2000
  let db := fbit e RouteEntry.rampShape
  if n = 0 || fget e RouteEntry.audioMode = 0 then ⟨sample, 0, sample, 0, sample, db⟩
  else if fget e RouteEntry.audioMode = 1 then
    let k := short.getD n
    ⟨sample, n, sample - k, k, sample, db⟩
  else
    let len := match short with | some k => 2 * k | none => n
    let start := match short with | some k => sample - k | none => sample - (n / 2 : Nat)
    ⟨start, len, start, len, sample, db⟩

/-- A source ramps out, unless it already does. -/
def AudSrc.out (p : Plan) (a : AudSrc) : AudSrc :=
  match a.downAt with
  | some _ => a
  | none => { a with downAt := some p.downAt, downLen := p.downLen, downS := p.sample, downDb := p.inDb }

/-- A source ramps to silence over 0.5 ms from a sample (R263, R264). -/
def AudSrc.kill (now : Int) (half : Nat) (a : AudSrc) : AudSrc :=
  { a with downAt := some now, downLen := half, downS := now, downDb := false }

/-- R264: where two older sources still ramp out, the oldest is first ramped to silence. -/
def limitSources (now : Int) (half : Nat) (l : List AudSrc) : List AudSrc :=
  if 2 ≤ (l.filter (fun a => a.downAt.isSome && !srcEnded a now)).length then
    l.dropLast ++ (l.getLast?.map (AudSrc.kill now half)).toList
  else l

/-- A slot switches to a ring, or to none: its reader joins that of a source of the same ring, or attaches in the millisecond since
`since`. -/
def switchSlot (s : State) (p : Plan) (ring : Option Nat) (now : Int) (half since : Nat) (v : AudSlot) : AudSlot :=
  let old := (limitSources now half v.srcs).map (AudSrc.out p)
  match ring with
  | none => { v with srcs := old }
  | some r =>
    let base : AudSrc := match v.srcs.find? (fun a => a.ring == r) with
      | some a => a
      | none => s.attach r since
    { v with srcs := { base with
        upAt := p.upAt, upLen := p.upLen, upS := p.sample, downAt := none, downLen := 0, downS := 0, upDb := p.inDb, blocks := 0 } :: old }

end Sys2Proof.Machine
end

