-- ==== Sys2Proof/Machine/Routes.lean ====
section
/-! DEFINITION. Routes (R99 to R116, R84 to R92, R414, R415): the checks and claims of a route entry, cut-through timing, the bounds
block, BOUND_SUSPENDED, the latch, the switch point, frame choice, audio latch and the release of old claims. -/

namespace Sys2Proof.Machine

open Sys2Proof

/-! ### Entries and their parts -/

def State.routeA (s : State) (o : Nat) : BitVec 256 := tget entryReset s.rte.active o
def State.routeP (s : State) (o : Nat) : BitVec 256 := tget entryReset s.rte.pending o
def State.setRouteA (o : Nat) (e : BitVec 256) (s : State) : State :=
  s.onRte (fun r => { r with active := tset entryReset r.active o e })
def State.setRouteP (o : Nat) (e : BitVec 256) (s : State) : State :=
  s.onRte (fun r => { r with pending := tset entryReset r.pending o e })

/-- PEND_STATE values. -/
def pendHeld : Nat := 1
def pendReady : Nat := 2

/-- Ring and enable of audio slot `k`. -/
def audRing (e : BitVec 256) : Nat → Nat
  | 0 => fget e RouteEntry.audRing0
  | 1 => fget e RouteEntry.audRing1
  | 2 => fget e RouteEntry.audRing2
  | _ => fget e RouteEntry.audRing3
def audEn (e : BitVec 256) : Nat → Bool
  | 0 => fbit e RouteEntry.audEn0
  | 1 => fbit e RouteEntry.audEn1
  | 2 => fbit e RouteEntry.audEn2
  | _ => fbit e RouteEntry.audEn3

/-- The enabled parts of an entry with their rings: 0 video, 1 ancillary data, 2 to 5 audio slots 0 to 3. -/
def entryParts (e : BitVec 256) : List (Nat × Nat) :=
  (if fbit e RouteEntry.videoEn then [(0, fget e RouteEntry.videoRing)] else []) ++
  (if fbit e RouteEntry.ancEn then [(1, fget e RouteEntry.ancRing)] else []) ++
  ((List.range 4).filter (audEn e)).map (fun k => (k + 2, audRing e k))

def entryMode (e : BitVec 256) : Nat := fget e RouteEntry.mode

/-- The rings a ring is made from on this device: the legs of the merge pair that writes it and, with `comp`, the sources of the layers
of the Composer that writes it. -/
def State.madeFrom (s : State) (comp : Bool) (r : Nat) : List Nat :=
  (s.flo.merge.filter (fun e => fbit e.2 Merge.mergeEn && fget e.2 Merge.outRing == r)).flatMap (fun e =>
    [fget e.2 Merge.primaryRing, fget e.2 Merge.secondaryRing]) ++
  if comp then
    (s.cmp.out.filter (fun e => fbit e.2 CompOut.compEn && fget e.2 CompOut.outRing == r)).flatMap (fun e =>
      (s.cmp.layer.filter (fun x => x.1 / 8 == e.1 / 4 && fbit x.2 Layer.layerEn)).map (fun x => fget x.2 Layer.sourceRing))
  else []

/-- Rings and all they are made from; `n` bounds the rings a path goes through here. -/
def State.pathRings (s : State) : Nat → List Nat → List Nat
  | 0, l => l
  | n + 1, l => l ++ s.pathRings n (l.flatMap (s.madeFrom true))

/-- The hops an import adds to a ring (R337): those its source had there, and its own. -/
def State.importHops (s : State) (r : Nat) : Nat :=
  ((s.trp.imp.filter (fun e => fbit e.2 Import.impEn && fget e.2 Import.impRing == r)).map (fun e => (tget impStReset s.trp.impSt e.1).hops)).foldl max 0

/-- The most Troupe hops on a path to a ring; `n` bounds the rings a path goes through here. -/
def State.hopsTo (s : State) (comp : Bool) : Nat → Nat → Nat
  | 0, r => s.importHops r
  | n + 1, r => ((s.madeFrom comp r).map (s.hopsTo comp n)).foldl max (s.importHops r)

/-- R86: Troupe hops of a route that reads a ring. -/
def State.hops (s : State) (r : Nat) : Nat := s.hopsTo false 4 r

/-- The longest MERGE_DELAY, in ns, on a path to a ring (R210); `n` bounds the rings a path goes through. -/
def State.mergeDelayTo (s : State) : Nat → Nat → Nat
  | 0, _ => 0
  | n + 1, r =>
    let own := ((s.flo.merge.filter (fun e => fbit e.2 Merge.mergeEn && fget e.2 Merge.outRing == r)).map (fun e =>
      fget e.2 Merge.mergeDelay * 1000)).foldl max 0
    own + ((s.madeFrom true r).map (s.mergeDelayTo n)).foldl max 0

/-- Hops of an entry's video route. -/
def State.entryHops (s : State) (e : BitVec 256) : Nat :=
  if fbit e RouteEntry.videoEn then s.hops (fget e RouteEntry.videoRing) else 0

/-- The location of an output's reader: its SDI transmitter, the packetiser engine of its first flow's port, or else the
switch engine. -/
def State.locOut (s : State) (o : Nat) : Nat :=
  match s.laneOf o with
  | some l => locSdiTx l
  | none => match s.flo.pkt.find? (fun e => fbit e.2 PktFlow.flowEn && fget e.2 PktFlow.output == o) with
    | some e => locEth (fget e.2 PktFlow.port) 13
    | none => locSwitch

/-! ### Cut-through timing (R105) -/

/-- How late, in time units, the latest line 1 of a ring's source was against the nominal time of an output: negative is early. -/
def State.ctOffset (s : State) (o : OutFmt) (r : Nat) : Int :=
  let k := leadTu s.bud.profile (s.hops r) o.fmt.rate o.total
  signedMod (s.planeOf o.plane (tget natReset s.mem.line1 r) - ((o.phase : Int) - k)) o.frame

/-- Whether that lies within the window: one line early to S late. -/
def State.ctWindow (s : State) (o : OutFmt) (r : Nat) : Bool :=
  let d := s.ctOffset o r
  tget natReset s.mem.line1 r != 0 && -(o.line : Int) ≤ d && d ≤ slackTu s.bud.profile (s.hops r) o.fmt.rate o.total

/-- Whether a ring's source is frequency-locked to a plane (R105, R236): by its latest two frames, as `Config.freqLock` judges them (log
entry 99). -/
def State.freqLocked (s : State) (p r : Nat) : Bool :=
  let gap := tget natReset s.mem.line1Gap r
  gap != 0 && Config.freqLock gap (frameTu (s.planeRate p))

/-- Whether a source is in timing for an output (R105). -/
def State.ctInTime (s : State) (o : OutFmt) (r : Nat) : Bool := s.ctWindow o r && s.freqLocked o.plane r

/-- The offset E_TIMING reports, in ns: a source that shows no line 1 has none, and the spec states no value (log entry 98). -/
def State.offsetNs (s : State) (o : OutFmt) (r : Nat) : Int :=
  if tget natReset s.mem.line1 r = 0 then Config.absentOffset r s.time.clk else (s.ctOffset o r).tdiv tuPerNs

/-- E_TIMING with its results (R400). -/
def errTiming {α : Type} (offset : Int) (slack : Nat) : Except Err α :=
  .error ⟨eTiming, leBytes 4 (unsgn 32 offset) ++ leBytes 4 slack, none⟩

/-- R237: whether a processed route's offset is that of the Composer that writes its ring. -/
def compPhaseOk (s : State) (f : OutFmt) (r : Nat) : Bool :=
  match s.cmp.out.find? (fun e => fbit e.2 CompOut.compEn && fget e.2 CompOut.outRing == r) with
  | none => true
  | some e => f.offset == (fget e.2 CompOut.compOffset + if fbit e.2 CompOut.tight then 16 else 24) % f.total &&
      f.plane == fget e.2 CompOut.plane

/-- R105, R109, R237: the timing of an entry. -/
def routeTiming (s : State) (f : OutFmt) (e : BitVec 256) : Except Err Unit :=
  let hops := s.entryHops e
  let slack := slackTu s.bud.profile hops f.fmt.rate f.total / tuPerNs
  let r := fget e RouteEntry.videoRing
  if 300000 * tuPerNs < leadTu s.bud.profile hops f.fmt.rate f.total then errTiming (s.offsetNs f r) slack
  else if fbit e RouteEntry.videoEn && entryMode e = 0 && !s.ctInTime f r then
    errTiming (s.offsetNs f r) slack
  else if fbit e RouteEntry.videoEn && entryMode e = 2 then need (compPhaseOk s f r) eCompPhase
  else .ok ()

/-! ### The checks of an entry (R99, R103, R104, R148) -/

/-- Offset, in the record, of a part's ring field. -/
def partOffset (part : Nat) : Nat := if part = 0 then 0 else if part = 1 then 2 else 2 * part

/-- R103, R104: a video ring against MODE and the output's format. -/
def videoRouteFits (e d : BitVec 256) (f : OutFmt) (rate : Nat) : Bool :=
  let cls := match entryMode e with
    | 0 => ringClass d == 0 && ringType d == 0
    | 1 => ringClass d == 1 && ringType d ≤ 1
    | _ => ringClass d == 2 && ringType d == 1
  cls && fget d RingDesc.width == f.fmt.width && ringLines d == f.fmt.lines && ringIl d == f.fmt.interlaced &&
    fget d RingDesc.formatF == f.fmt.sample && rate == f.fmt.rate && fget d RingDesc.plane == f.plane

/-- Audio slots a link type carries (R148): none restricts an output without a transmitter. -/
def slotCarried (s : State) (f : OutFmt) (k : Nat) : Bool :=
  match f.lane with
  | none => true
  | some l =>
    let c := sdiCfg s l
    if fget c SdiLane.txBond != 0 then true else if fget c SdiLane.txLink ≤ 1 then k == 0 else k ≤ 1

/-- Whether an entry's part fits (R104, R148). -/
def partRouteFits (s : State) (e : BitVec 256) (f : OutFmt) (part r : Nat) : Bool :=
  let d := s.ring r
  if part = 0 then videoRouteFits e d f (s.planeRate (fget d RingDesc.plane))
  else if part = 1 then ringType d == 3 && fget d RingDesc.formatF != 1
  else
    let sd := match f.lane with | some l => fget (sdiCfg s l) SdiLane.txLink == 0 && fget (sdiCfg s l) SdiLane.txBond == 0 | none => false
    ringType d == 2 && slotCarried s f (part - 2) && !(sd && fget d RingDesc.formatF == 1)

/-- R99: VIDEO_EN on an audio-and-data destination. `base` is the parameter offset of the record. -/
def entryRange (o : Nat) (e : BitVec 256) (base : Nat) : Except Err Unit :=
  needAt (!(1024 ≤ o && fbit e RouteEntry.videoEn)) (if base = noField then noField else base + 1)

/-- R104's checks in their order up to timing: a FREE ring, the output's format, its plane (R432), each part, timing. R104 gives
E_NOREF no place; here it stands between the output's format and the rings' (DESIGN CHOICE, log entry 106). -/
def entryChecks (s : State) (o : Nat) (e : BitVec 256) (base : Nat) : Except Err OutFmt := do
  need ((entryParts e).all (fun p => !ringFree (s.ring p.2))) eState
  match s.outFmt o with
  | none => errAt eFormat noField
  | some f =>
    need (s.planeOn f.plane) eNoref
    match (entryParts e).find? (fun p => !partRouteFits s e f p.1 p.2) with
    | some p => errAt eFormat (if base = noField then noField else base + partOffset p.1)
    | none =>
      routeTiming s f e
      return f

/-- The ring an opaque flow reads under an entry: its ancillary data ring (DEDUCED, log entry 30). -/
def State.opaqueOf (s : State) (e : BitVec 256) : Option Nat :=
  let r := fget e RouteEntry.ancRing
  if fbit e RouteEntry.ancEn && ringType (s.ring r) == 3 && fget (s.ring r) RingDesc.formatF == 2 then some r else none

/-- The declared peak wire rate of a ring's packets on a flow, in kbit/s (R201). -/
def State.peakKbit (s : State) (flow : BitVec 256) (r : Nat) : Nat :=
  let d := tget declReset s.mem.decl r
  cdiv (d.1 * wireBytes (fget flow PktFlow.hdrLen + 4 + d.2) * 8) 1000

/-- The pacer claim of an opaque flow for the ring it reads under an entry, held as that entry's data reader is. -/
def State.opaqueHolds (s : State) (flows : List (Nat × BitVec 256)) (e : BitVec 256) (by_ : Holder) : List Hold :=
  match s.opaqueOf e with
  | none => []
  | some r => (flows.filter (fun x => fget x.2 PktFlow.essence == 5)).map (fun x =>
      Hold.new (0x50 + fget x.2 PktFlow.port) (fget x.2 PktFlow.subport) (.pacer x.1 r) by_ (s.peakKbit x.2 r))

/-- Enabled packetiser flows of an output. -/
def State.outFlows (s : State) (o : Nat) : List (Nat × BitVec 256) :=
  s.flo.pkt.filter (fun e => fbit e.2 PktFlow.flowEn && fget e.2 PktFlow.output == o)

/-- The claims of an entry: of its readers one group per ring, PLANE, MODE and OUT_OFFSET (R107), and of the opaque flows it feeds
(R201). -/
def entryClaims (s : State) (o : Nat) (e : BitVec 256) (f : OutFmt) : List Hold :=
  (entryParts e).map (fun p =>
    Hold.new 2 0 (.route p.2 f.plane (entryMode e) f.offset) (.routePending o p.1) (ringCredits s.bud.profile s p.2)) ++
    s.opaqueHolds (s.outFlows o) e (.routePending o 1)

/-! ### Holders of an output's claims -/

def pendingOf (o : Nat) (h : Hold) : Bool := match h.by_ with | .routePending p _ => p == o | _ => false

/-- R102: the pending claims become those in force, and those in force old ones until their release. -/
def promote (o : Nat) (h : Hold) : Hold :=
  match h.by_ with
  | .routeActive p k => if p = o then { h with by_ := .routeOld p k } else h
  | .routePending p k => if p = o then { h with by_ := .routeActive p k } else h
  | _ => h

/-! ### Bounds (R85 to R90, R415) -/

/-- Nanoseconds of time units, rounded up. -/
def tuUp (t : Nat) : Nat := cdiv t tuPerNs

/-- Whole lines of an output that hold a time. -/
def linesUp (f : OutFmt) (t : Nat) : Nat := cdiv t (max 1 f.line)

/-- Lines and ns of the bound of a video part: lower end, upper end, slack. What hops and merge pairs on the way to the ring add counts in
both forms (R89, R90, R210). -/
def State.videoBounds (s : State) (f : OutFmt) (e : BitVec 256) : Nat × Nat × Nat × Nat × Nat :=
  let hops := s.entryHops e
  let r := fget e RouteEntry.videoRing
  let lo := leadTu s.bud.profile hops f.fmt.rate f.total
  let more := (s.hopsTo true 4 r * dHopNs s.bud.profile + s.mergeDelayTo 4 r) * tuPerNs
  match entryMode e with
  | 0 => (linesUp f lo, linesUp f lo, tuUp lo, tuUp lo, slackTu s.bud.profile hops f.fmt.rate f.total / tuPerNs)
  | 1 => (linesUp f (lo + more), linesUp f (f.frame + lo + more), tuUp (lo + more), tuUp (f.frame + lo + more), 0)
  | _ =>
    let tight := s.cmp.out.any (fun c => fbit c.2 CompOut.compEn && fbit c.2 CompOut.tight && fget c.2 CompOut.outRing == r)
    let n := if tight then 16 else f.total + 24
    (0, linesUp f (n * f.line + more), 0, tuUp (n * f.line + more), 0)

/-- Tap delay, in ns, of a channel of an input slot, by 16·slot + channel (R249). -/
def State.channelDelay (s : State) (i : Nat) : Nat :=
  let e := tget audInReset s.cal.audIn (i / 16)
  tapDelay e (tapOf e (i % 16)) * 1000000000 / ringHz (s.ring (fget e AudIn.inRing))

/-- The input channels an output slot of Calliope is fed from, directly or through a bus (R250, R252). -/
def State.outChannels (s : State) (o : Nat) : List Nat :=
  (s.cal.outCh.filter (fun e => e.1 / 16 == o && e.1 % 16 < s.slotChans o)).flatMap (fun e =>
    match fget e.2 AudCh.srcKind with
    | 1 => [fget e.2 AudCh.srcIndex]
    | 2 => (s.cal.busIn.filter (fun x => x.1 / 128 == fget e.2 AudCh.srcIndex && fbit x.2 BusIn.xpEn)).map (fun x => fget x.2 BusIn.inCh)
    | _ => [])

/-- R246: the nominal audio delay of a ring: 2 ms, or behind Calliope 6 ms and its longest tap delay. -/
def State.audioDelay (s : State) (r : Nat) : Nat :=
  match s.cal.outHdr.find? (fun e => fbit e.2 AudOut.outEn && fget e.2 AudOut.outRing == r) with
  | some (o, _) => 6000000 + ((s.outChannels o).map s.channelDelay).foldl max 0
  | none => 2000000

/-- The bounds block of R414; a block with no source carries zeros. -/
def State.boundsBlock (s : State) (o : Nat) (e : BitVec 256) : List Byte :=
  match s.outFmt o with
  | none => List.replicate 28 0
  | some f =>
    if (entryParts e).isEmpty then List.replicate 28 0 else
    let (lo, hi, loNs, hiNs, slack) := if fbit e RouteEntry.videoEn then s.videoBounds f e else (0, 0, 0, 0, 0)
    leBytes 8 (s.nextApply f (s.entryHops e)) ++ leBytes 2 lo ++ leBytes 2 hi ++ leBytes 4 loNs ++ leBytes 4 hiNs ++
      leBytes 4 ((((List.range 4).filter (audEn e)).map (fun k => s.audioDelay (audRing e k))).foldl max 0) ++ leBytes 4 slack

/-! ### BOUND_SUSPENDED (R91, R92) -/

/-- Whether the device is outside its operating conditions. -/
def State.outOfConditions (s : State) : Bool :=
  s.pwr.power != .active || !s.pwr.vFail.isEmpty || !s.pwr.over105.isEmpty || s.pwr.skewBad

/-- Media ports an output's route goes through: those of its packetiser flows, and those its sources are told to arrive on or last
arrived on. -/
def State.outPorts (s : State) (o : Nat) (rings : List Nat) : List Nat :=
  (s.flo.pkt.filter (fun e => fbit e.2 PktFlow.flowEn && fget e.2 PktFlow.output == o)).map (fun e => fget e.2 PktFlow.port) ++
  (s.flo.table.filter (fun f => isBound f && rings.contains (flowRing f))).filterMap (fun f =>
    if fbit f.key FlowEntry.usePort then some (fget f.key FlowEntry.port)
    else if f.present then some ((tget depReset s.flo.dep (flowRing f)).src / 8) else none)

/-- Whether an import writes one of the rings over a link that is not UP with the lanes and lane rate it had at admission. -/
def State.linkShort (s : State) (rings : List Nat) : Bool :=
  s.trp.imp.any (fun e => fbit e.2 Import.impEn && rings.contains (fget e.2 Import.impRing) &&
    !(List.range 7).any (fun k =>
      let l := tget linkReset s.trp.link k
      let v := tget impStReset s.trp.impSt e.1
      fbit l Link.linkEn && fget l Link.peer == fget e.2 Import.fromF && fget l Link.linkState == 2 &&
        v.lanes ≤ fget l Link.actLanes && fget l Link.actRate ≤ v.rate))

/-- Whether a source of one of the rings exceeds its declared rate. -/
def State.sourceOver (s : State) (rings : List Nat) : Bool :=
  s.flo.table.any (fun f => isBound f && f.within.isSome && rings.contains (flowRing f)) ||
  s.sdi.lanes.any (fun e => e.2.overBudget && (laneParts (sdiCfg s e.1)).any (fun p => rings.contains p.2))

/-- The conditions of R91 that fail for an output's route. Condition 2 never does: a selected reference is qualified, and every
other state of the loop is holdover or free run (R281). -/
def State.boundFails (s : State) (o : Nat) : List Nat :=
  let rings := s.pathRings 4 ((entryParts (s.routeA o)).map (·.2))
  if rings.isEmpty then [] else
  (if s.outOfConditions then [1] else []) ++
  (if (s.outPorts o rings).any (fun n => fbit (tget ethReset s.eth.port n) EthPort.pauseMedia) then [3] else []) ++
  (if s.linkShort rings then [4] else []) ++ (if s.sourceOver rings then [5] else [])

/-- R92 for one output: an event for each condition that begins to fail. The conditions that fail stand in `unbounded`, after a 0
that stays until the frame boundary at which the bound applies again. -/
def State.rebound (o : Nat) (s : State) : State :=
  let now := s.boundFails o
  let had := (s.out o).unbounded
  let next := if now.isEmpty && had.isEmpty then [] else 0 :: now
  let s1 := if next = had then s else s.setOut o { s.out o with unbounded := next }
  now.foldl (fun s c => if had.contains c then s else s.boundEvent o c true) s1

/-- R92 for every output that has had an entry. -/
def State.reboundAll (s : State) : State := s.rte.active.foldl (fun s e => s.rebound e.1) s

/-! ### ROUTE_WRITE, ROUTE_READ, ROUTE_STATUS -/

/-- The checks of ROUTE_WRITE. A HELD output answers E_BUSY after the values of the record and before everything that depends on the state:
the spec gives R101's check no place among them (DESIGN CHOICE, log entry 105). -/
def routeWriteCheck (q : Req) (s : State) : Except Err (Nat × BitVec 256 × State) := do
  let o ← Req.index q 2048
  Req.noTarget q
  let old := s.routeP o
  let e ← writeRecord q RouteEntry.layout old []
  entryRange o e 12
  need (fget old RouteEntry.pendState != pendHeld) eBusy
  let f ← entryChecks s o e 12
  let t ← claimAll (entryClaims s o e f) (pendingOf o) s
  return (o, e, t)

/-- The PENDING copy is READY (R101). -/
def routeWriteDo (o : Nat) (e : BitVec 256) (s : State) : State :=
  s.setRouteP o (fput (fput e RouteEntry.pendState pendReady) RouteEntry.salvoId 0)

def cmdRouteWrite (q : Req) (s : State) : Res := do
  let (o, e, t) ← routeWriteCheck q s
  let t := routeWriteDo o e t
  return (t, recBytes (t.routeP o) ++ t.boundsBlock o e)

/-- ROUTE_WRITE (R101, R414). -/
def execRouteWrite (q : Req) (s : State) : Out := serve 0x0500 cmdRouteWrite q s

def cmdRouteRead (q : Req) (s : State) : Res := do
  let (o, _) ← readArgs q 2048
  return (s, recBytes (s.routeA o) ++ recBytes (s.routeP o) ++ s.boundsBlock o (s.routeA o))

/-- ROUTE_READ (R414). -/
def execRouteRead (q : Req) (s : State) : Out := serve 0x0501 cmdRouteRead q s

def cmdRouteStatus (q : Req) (s : State) : Res := do
  let (o, clear) ← readArgs q 2048
  let v := s.out o
  let res := leBytes 4 v.repeats ++ leBytes 4 v.skips ++
    v.slots.flatMap (fun a => leBytes 4 a.rampShort ++ leBytes 4 a.slipUnder ++ leBytes 4 a.slipOver)
  let zero : OutSt := { v with repeats := 0, skips := 0, slots := v.slots.map (fun a => { a with rampShort := 0, slipUnder := 0, slipOver := 0 }) }
  return (if clear then s.setOut o zero else s, res)

/-- ROUTE_STATUS (R414). -/
def execRouteStatus (q : Req) (s : State) : Out := serve 0x0502 cmdRouteStatus q s

/-! ### The latch (R25, R109, R115, R116, R119) -/

def State.salvo (s : State) (n : Nat) : Salvo := tget salvoReset s.rte.salvos n
def State.setSalvo (n : Nat) (v : Salvo) (s : State) : State := s.onRte (fun r => { r with salvos := tset salvoReset r.salvos n v })
/-- TARGET of an arm register, 0 when not armed. -/
def State.armed (s : State) (n : Nat) : Nat := (tget armReset s.rte.arm n).toNat
def State.setArm (n target : Nat) (s : State) : State :=
  s.onRte (fun r => { r with arm := tset armReset r.arm n (BitVec.ofNat 64 target) })

/-- Whether a PENDING copy applies at a switch point (R101, R119). -/
def State.applies (s : State) (e : BitVec 256) (switchPoint : Nat) : Bool :=
  let st := fget e RouteEntry.pendState
  let target := s.armed (fget e RouteEntry.salvoId)
  st == pendReady || (st == pendHeld && target != 0 && target ≤ switchPoint)

/-- Newest COMPLETE frame or unit of a ring. -/
def State.newest (s : State) (r : Nat) : Option Marker := (s.markersOf r).find? (fun k => k.state == .complete)

/-- R115: whether a part's ring holds nothing its reader could read now. -/
def State.lacksSource (s : State) (e : BitVec 256) (f : OutFmt) (part r : Nat) : Bool :=
  if ringFree (s.ring r) then true
  else if part = 0 && entryMode e = 0 then
    !(s.markersOf r).any (fun k => k.state != .incomplete && s.now ≤ k.time + tuUp f.frame)
  else if 2 ≤ part then (match tget natReset s.mem.stampAt r with | 0 => true | t => t + 2000000 < s.now)
  else (s.newest r).isNone

/-- Whether a video ring's present format is the output's (R116). -/
def State.formatMatches (s : State) (e : BitVec 256) (f : OutFmt) : Bool :=
  let d := s.ring (fget e RouteEntry.videoRing)
  fget d RingDesc.width == f.fmt.width && ringLines d == f.fmt.lines && ringIl d == f.fmt.interlaced &&
    fget d RingDesc.formatF == f.fmt.sample

/-- The frame an entry's video reader chooses now: the newest COMPLETE one (R106), or in processed mode the one its Composer has begun
last, which it follows at the Composer's lag (R103). -/
def State.choice (s : State) (e : BitVec 256) : Option Marker :=
  let r := fget e RouteEntry.videoRing
  if entryMode e = 2 then (s.markersOf r).find? (fun k => k.state != .incomplete) else s.newest r

/-- The frame a cut-through reader is to read from now on: the newest begun. -/
def State.begun (s : State) (e : BitVec 256) : Option (BitVec 32) :=
  ((s.markersOf (fget e RouteEntry.videoRing)).find? (fun k => k.state != .incomplete)).map (·.eseq)

/-- The ring an output's video reader reads, and its mode: that of the ACTIVE copy or, while the output repeats a frame for a format
mismatch, that frame's. -/
def State.videoOf (s : State) (o : Nat) : Option (Nat × Nat) :=
  let v := s.out o
  let e := s.routeA o
  if !fbit e RouteEntry.videoEn then none
  else if v.repeating then v.lastFrame.map (fun _ => (fget v.lastDesc RingDesc.ringId, ringClass v.lastDesc))
  else some (fget e RouteEntry.videoRing, entryMode e)

/-- The descriptor by which an output's video reader reads its ring: while it repeats a frame, that frame's. -/
def State.videoDesc (s : State) (o r : Nat) : BitVec 256 :=
  if (s.out o).repeating then fput (s.out o).lastDesc RingDesc.wseq (fget (s.ring r) RingDesc.wseq) else s.ring r

/-- The readers of an output: part, ring and mode. -/
def State.readerParts (s : State) (o : Nat) : List (Nat × Nat × Nat) :=
  let e := s.routeA o
  ((s.videoOf o).toList.map (fun x => (0, x.1, x.2))) ++ ((entryParts e).filter (fun p => p.1 != 0)).map (fun p => (p.1, p.2, entryMode e))

/-- R116: ROUTE_FORMAT_MISMATCH begins or ends. -/
def State.mismatch (o : Nat) (bad : Bool) (s : State) : State :=
  if (s.out o).mismatch = bad then s
  else (s.setOut o { s.out o with mismatch := bad }).raise ⟨0x66, s.locOut o, bad, 0, leBytes 2 o⟩

/-- R115, R116: what is judged of an entry at the latch that applies it. -/
def State.judgeEntry (o : Nat) (e : BitVec 256) (f : OutFmt) (s : State) : State :=
  let lacking := (entryParts e).filter (fun p => s.lacksSource e f p.1 p.2)
  let s1 := if lacking.isEmpty then s
    else s.raise ⟨0x65, s.locOut o, true, 0, leBytes 2 o ++ leBytes 1 (listMask (lacking.map (·.1)))⟩
  if fbit e RouteEntry.videoEn && !s1.formatMatches e f then s1.mismatch o true else s1

/-- Rate of an output's audio slot under an entry: that of its ring, else of the ring it leaves. -/
def State.slotHz (s : State) (o : Nat) (e : BitVec 256) (k : Nat) : Nat :=
  ringHz (s.ring (if audEn e k then audRing e k else audRing (s.routeA o) k))

/-- The slots a switch to an entry concerns. -/
def State.switchSlots (s : State) (o : Nat) (e : BitVec 256) : List Nat :=
  (List.range 4).filter (fun k => audEn e k || audEn (s.routeA o) k)

/-- The audio slots of an output switch to an entry at plane time `at_`: in full from the audio latch, or with `late` from the
latch, shortened (R262, R263). -/
def State.switchAudio (o : Nat) (e : BitVec 256) (f : OutFmt) (at_ : Int) (late : Bool) (s : State) : State :=
  let ms := 1000000 * tuPerNs
  let since := s.stampOf f.plane ((s.planeTu f.plane).fdiv ms * ms)
  (s.switchSlots o e).foldl (fun s k =>
    let hz := s.slotHz o e k
    let now := sampleAt hz (s.planeTu f.plane)
    let sample := sampleNear hz at_
    let left := (sample - now - 1).toNat
    let v := s.out o
    let slot := v.slots.getD k AudSlot.reset
    let replaced := late && v.audLatched.isSome
    let slot1 : AudSlot := if replaced then
        { slot with srcs := slot.srcs.map (fun a => if a.downAt.isNone then a.kill now (hz / 2000) else a) } else slot
    let slot2 := switchSlot s (switchPlan e hz sample (if late then some left else none)) (if audEn e k then some (audRing e k) else none) now
      (hz / 2000) since slot1
    let short := late && fget e RouteEntry.audioMode != 0 && fget e RouteEntry.audioRamp != 0
    if short then
      (s.setOut o { v with slots := v.slots.set k { slot2 with rampShort := sat32 slot2.rampShort 1 } }).raise
        ⟨0xD1, s.locOut o, true, 0, leBytes 2 o ++ leBytes 1 k ++ leBytes 1 0 ++ leBytes 2 left⟩
    else s.setOut o { v with slots := v.slots.set k slot2 }) s

/-- TC_LINE of the lane that drives an output, 0 where none does. -/
def State.tcLineOf (s : State) (o : Nat) : Nat := match s.laneOf o with | some l => fget (sdiCfg s l) SdiLane.tcLine | none => 0

/-- R10, R154: the Framed field TC_LINE is latched with the output's latch, and takes effect from its next frame start. -/
def State.latchTcLine (o : Nat) (s : State) : State := s.setOut o { s.out o with tcLatch := s.tcLineOf o }

/-- LATCH (R109): the PENDING copy is read at the switch point less the lead. An entry that applies moves its claims, is judged,
and takes the fresh choice of R106; a format mismatch is judged whether or not one applies. -/
def execLatch (o : Fin 2048) (s0 : State) : Out :=
  let k := o.val
  let s := (s0.fresh).latchTcLine k
  match s.outFmt k with
  | none => done s
  | some f =>
    if !s.planeOn f.plane then done s else
    let p := s.routeP k
    let lead := leadTu s.bud.profile (s.entryHops p) f.fmt.rate f.total
    let at_ := f.nextSwitch (s.planeTu f.plane + lead - f.line)
    if !s.applies p (s.stampOf f.plane at_) then
      let a := s.routeA k
      done (if fbit a RouteEntry.videoEn && !s.formatMatches a f then
          (s.setOut k { s.out k with choiceBad := true }).mismatch k true else s)
    else
      let v := s.out k
      let s1 := if v.audLatched = some p then s else s.switchAudio k p f at_ true
      let video := fbit p RouteEntry.videoEn
      let fits := s.formatMatches p f
      let fresh := if video && entryMode p != 0 && fits then (s.choice p).map (·.eseq) else none
      let s2 := (s1.setOut k { s1.out k with latched := some p, fresh := fresh, latchBad := video && !fits, audLatched := none }).setRouteP k
        (fput (fput p RouteEntry.pendState 0) RouteEntry.salvoId 0)
      let s3 := s2.onBud (fun b => { b with holds := b.holds.map (promote k) })
      done (s3.judgeEntry k p f)

/-! ### The switch point (R110, R112, R119) -/

/-- Outputs of this device still to switch for a salvo: HELD, or latched and not yet switched. -/
def State.salvoLeft (s : State) (n : Nat) : Bool :=
  s.rte.pending.any (fun e => fget e.2 RouteEntry.pendState == pendHeld && fget e.2 RouteEntry.salvoId == n) ||
  s.rte.outs.any (fun e => match e.2.latched with
    | some p => fget p RouteEntry.pendState == pendHeld && fget p RouteEntry.salvoId == n
    | none => false)

def State.member (s : State) : Nat := fget s.trp.rec_ TroupeRec.member

/-- The longest frame of R99, in ns: every output has switched by TARGET and that much. -/
def longestFrame : Nat := 41708334

/-- Whether outputs of other members, in a salvo that this device is the origin of, may still be to switch (R117). -/
def State.othersLeft (s : State) (v : Salvo) : Bool :=
  !v.rebuilt && v.origin == s.member && v.entries.any (fun e => e.member != s.member) && decide (s.now < v.target + longestFrame)

/-- R117, R119, R123: a salvo whose last entry has been applied: its arm register clears and it is DONE, or EMPTY where it was rebuilt. -/
def State.settleSalvo (n : Nat) (s : State) : State :=
  let v := s.salvo n
  if v.state != .committed || s.salvoLeft n || s.othersLeft v then s
  else (s.setArm n 0).setSalvo n (if v.rebuilt then salvoReset 0 else { v with state := .done })

/-- An entry of a salvo has been applied on this device. -/
def State.salvoSwitched (n : Nat) (s : State) : State :=
  let v := s.salvo n
  let m := s.member
  (s.setSalvo n { v with switched := tset natReset v.switched m (tget natReset v.switched m + 1) }).settleSalvo n

/-- The ancillary units an entry's reader reads with the frame that starts now: the newest COMPLETE one, in an interlaced format the
newest two, oldest first. -/
def State.ancNow (s : State) (e : BitVec 256) (f : OutFmt) : List (List AncRec) :=
  let r := fget e RouteEntry.ancRing
  if !fbit e RouteEntry.ancEn || fget (s.ring r) RingDesc.formatF != 0 then [] else
  let ms := ((s.markersOf r).filter (fun k => k.state == .complete)).take (if f.fmt.interlaced then 2 else 1)
  ms.reverse.filterMap (fun k => (s.unitBytes r k.eseq k.tiles.toNat).map (fun bs => ancRecords (bs.length / 8 + 1) bs))

/-- The units whose packets an entry has placed (R111): under BLOCK none. -/
def ancPlaced (e : BitVec 256) (units : List (List AncRec)) : List (List AncRec) := if fget e RouteEntry.ancPolicy = 0 then units else []

/-- The data and timecode of a frame from its switch line on (R111, R112): a count goes on, and a repeated frame keeps its timecode. -/
def State.switchData (e : BitVec 256) (f : OutFmt) (v : OutSt) (s : State) : OutSt :=
  let units := s.ancNow e f
  let cont := fbit e RouteEntry.tcCont
  let tc := if if cont then v.tcRun else v.repeating then v.tx.tc else frameTc cont false f.fmt.rate 0 units
  { v with
    tcRun := cont, tc := tc.getD v.tc
    tx := { v.tx with tc := if v.gen then none else tc, anc := ancPlaced e units, ancBefore := some v.tx.anc, tiles := [] } }

/-- An output with an entry applied at its switch point: the frame it reads from there on, or repeats (R106, R110, R116). An open
CT_OUT_OF_TIMING episode ends with the entry `old` that it belongs to (DESIGN CHOICE, log entry 108). -/
def State.applyVideo (o : Nat) (old e : BitVec 256) (f : OutFmt) (s : State) : State :=
  let v := s.out o
  let video := fbit e RouteEntry.videoEn
  let holds := video && v.latchBad
  let first := if entryMode e = 0 then s.begun e else v.fresh
  let v1 : OutSt := { v with
    latched := none, fresh := none, chosen := none, parity := false, latchBad := false, choiceBad := holds, repeating := holds, outOfTiming := false
    lastFrame := if holds then v.lastFrame else if video then first else none
    lastDesc := if holds then v.lastDesc else if video then s.ring (fget e RouteEntry.videoRing) else 0 }
  let s1 := s.setOut o (s.switchData e f v1)
  let off := (s.ctOffset f (fget old RouteEntry.videoRing)).tdiv tuPerNs
  let s2 := if v.outOfTiming then s1.raise ⟨0x67, s.locOut o, false, 0, leBytes 2 o ++ [0, 0] ++ leBytes 4 (unsgn 32 off)⟩ else s1
  if !video || (!holds && first.isSome) then s2.mismatch o false else s2

/-- SWITCH_POINT (R110): the entry read at the latch becomes the ACTIVE copy. -/
def execSwitchPoint (o : Fin 2048) (s0 : State) : Out :=
  let k := o.val
  let s := s0.fresh
  let v := s.out k
  match v.latched, s.outFmt k with
  | some p, some f =>
    let a := s.routeA k
    let e := fput (fput (fput (fput p RouteEntry.pendState 0) RouteEntry.salvoId 0) RouteEntry.gen (fget a RouteEntry.gen + 1))
      RouteEntry.appliedFrame v.frames
    let s1 := (s.setRouteA k e).applyVideo k a e f
    let s2 := if fget p RouteEntry.pendState = pendHeld then s1.salvoSwitched (fget p RouteEntry.salvoId) else s1
    done (s2.rebound k)
  | _, _ => done s

/-! ### Frame choice (R106) -/

/-- Whether the frame an output reads is one of a ring. -/
def State.readsRing (s : State) (o r : Nat) : Bool := !(s.out o).repeating && fget (s.out o).lastDesc RingDesc.ringId == r

/-- FRAME_SELECT (R106): the newest COMPLETE frame, one REPEAT where it is the frame read before, one SKIP for each COMPLETE frame
passed over; neither against a frame of another ring, nor in processed mode. -/
def execFrameSelect (o : Fin 2048) (s0 : State) : Out :=
  let k := o.val
  let s := s0.fresh
  let a := s.routeA k
  let v := s.out k
  match s.outFmt k with
  | none => done s
  | some f =>
    if !fbit a RouteEntry.videoEn || entryMode a = 0 then done s
    else if !s.formatMatches a f then done ((s.setOut k { v with chosen := none, choiceBad := true }).mismatch k true)
    else if s.isIsolated 0x66 (s.locOut k) then done (s.setOut k { v with chosen := none, choiceBad := true })
    else
      let r := fget a RouteEntry.videoRing
      match s.choice a with
      | none => done (s.setOut k { v with chosen := none })
      | some m =>
        let v1 := { v with chosen := some m.eseq, choiceBad := false }
        match v.lastFrame with
        | none => done (s.setOut k v1)
        | some old =>
          if entryMode a = 2 || !s.readsRing k r then done (s.setOut k v1)
          else if m.eseq = old then done (s.setOut k { v1 with repeats := sat32 v.repeats 1 })
          else
            let passed := ((s.markersOf r).filter (fun x => x.state == .complete && x.eseq != m.eseq &&
              (x.eseq - old).toNat < 2 ^ 31 && x.eseq != old)).length
            done (s.setOut k { v1 with skips := sat32 v.skips passed })

/-! ### Release of old claims (R102) -/

/-- The claims of an output's former video reader go. -/
def State.releaseOldVideo (o : Nat) (s : State) : State :=
  s.release (fun h => match h.by_ with | .routeOld p part => p == o && part == 0 | _ => false)

/-- CLAIM_RELEASE (R102): the claims of the readers that no longer serve the output: video and ancillary data at the end of the
switch frame, audio at the end of its ramp. A reader that repeats the old source's last frame for a format mismatch still serves it
(R116; DEDUCED, log entry 113). -/
def execClaimRelease (o : Fin 2048) (audio : Bool) (s0 : State) : Out :=
  let k := o.val
  let s := s0.fresh
  let stays := (s.out k).repeating
  done (s.release (fun h => match h.by_ with
    | .routeOld p part => p == k && (if audio then decide (2 ≤ part) else decide (part < 2) && !(part == 0 && stays))
    | _ => false))

/-! ### The audio latch (R262) -/

/-- AUDIO_LATCH (R262): a PENDING copy that the coming latch would apply starts its ramps in full. For CUT the audio latch is the
latch of R109, which sets the switch. -/
def execAudioLatch (o : Fin 2048) (s0 : State) : Out :=
  let k := o.val
  let s := s0.fresh
  match s.outFmt k with
  | none => done s
  | some f =>
    let p := s.routeP k
    let at_ := f.nextSwitch (s.planeTu f.plane)
    let ramps := fget p RouteEntry.audioMode != 0 && fget p RouteEntry.audioRamp != 0
    if s.planeOn f.plane && ramps && s.applies p (s.stampOf f.plane at_) && (s.out k).audLatched != some p then
      let s1 := s.switchAudio k p f at_ false
      done (s1.setOut k { s1.out k with audLatched := some p })
    else done s

/-! ### Parity (R128) -/

/-- ROUTE_TABLE_PARITY (R128): the output runs on its Safety Net generator until its entry is rewritten. -/
def State.routeParity (o : Nat) (forced : Bool) (s : State) : State :=
  (s.setOut o { s.out o with parity := true }).raiseWith ⟨0x68, s.locOut o, true, 0, leBytes 2 o⟩ forced

def execRouteTableParity (o : Fin 2048) (s : State) : Out := done (s.fresh.routeParity o.val false)

/-! ### A source's line 1 (R105) -/

/-- The EAV of line 1 of a ring's source, at a PTP time: every cut-through output that reads the ring is judged, once per episode. -/
def State.sourceLine1At (r ns : Nat) (s : State) : State :=
  let last := tget natReset s.mem.line1 r
  let s1 := s.onMem (fun m => { m with
    line1 := tset natReset m.line1 r ns, line1Gap := tset natReset m.line1Gap r (if last = 0 then 0 else ns - last) })
  s1.rte.active.foldl (fun s e =>
    if fbit e.2 RouteEntry.videoEn && entryMode e.2 == 0 && fget e.2 RouteEntry.videoRing == r then
      match s.outFmt e.1 with
      | none => s
      | some f =>
        let ok := s.ctWindow f r
        let v := s.out e.1
        if v.outOfTiming = !ok then s
        else (s.setOut e.1 { v with outOfTiming := !ok }).raise ⟨0x67, s.locOut e.1, !ok, 0,
          leBytes 2 e.1 ++ [0, 0] ++ leBytes 4 (unsgn 32 ((s.ctOffset f r).tdiv tuPerNs))⟩
    else s) s1

/-- A source's line 1 now. -/
def State.sourceLine1 (r : Nat) (s : State) : State := s.sourceLine1At r s.now

end Sys2Proof.Machine
end

