-- ==== Sys2Proof/Machine/SdiRx.lean ====
section
/-! DEFINITION. The SDI receiver (R132, R133, R135 to R145), which an ST 2022-6 depacketiser shares (R191): lock and format
establishment, the flywheel, loss of lock, format change, and the writing of video, ancillary data and audio. -/

namespace Sys2Proof.Machine

open Sys2Proof

/-! ### Receivers -/

/-- A receiver: that of an SDI lane, or the one inside the depacketiser of a bound ring. -/
inductive Rx where
  | lane (l : Nat)
  | flow (ring : Nat)
  deriving DecidableEq, Repr

def State.dep (s : State) (r : Nat) : DepSt := tget depReset s.flo.dep r
def State.setDep (r : Nat) (d : DepSt) (s : State) : State := s.onFlo (fun f => { f with dep := tset depReset f.dep r d })
def State.setLane (l : Nat) (v : LaneSt) (s : State) : State := s.onSdi (fun d => { d with lanes := tset laneReset d.lanes l v })

def State.rx (s : State) : Rx → LaneSt
  | .lane l => s.lane l
  | .flow r => (s.dep r).rx
def State.setRx (x : Rx) (v : LaneSt) (s : State) : State :=
  match x with
  | .lane l => s.setLane l v
  | .flow r => s.setDep r { s.dep r with rx := v }

/-- R132: the leader of a lane's cluster, and whether the lane follows it on the receive side. -/
def leaderOf (l : Nat) : Nat := l / 4 * 4
def State.rxBond (s : State) (l : Nat) : Nat := fget (sdiCfg s (leaderOf l)) SdiLane.rxBond
def State.rxFollower (s : State) (l : Nat) : Bool := l % 4 != 0 && s.rxBond l != 0

/-- The record that governs a lane's receive side. -/
def State.rxCfg (s : State) (l : Nat) : BitVec 256 := sdiCfg s (if s.rxFollower l then leaderOf l else l)

/-- The block-reset bit of a lane's cluster (R473). -/
def sdiBlock (l : Nat) : Nat := l / 4

/-- Whether a lane's receiver runs. -/
def State.rxOn (s : State) (l : Nat) : Bool := fbit (s.rxCfg l) SdiLane.rxEn && !s.blockHeld (sdiBlock l)

def State.rxLoc (s : State) : Rx → Nat
  | .lane l => locSdiRx l
  | .flow r => locEth ((s.dep r).src / 8) 14

/-- The record of the ring's ingest (R185). -/
def State.ingest (s : State) (r : Nat) : BitVec 64 := tget ingestReset s.flo.ingest r

/-- The parts a receiver writes: the receiver whose audio state it is, the part (0 video, 1 ancillary data, 2 and 3 audio) and
the ring. In a bonded group the leader's video and data, and the audio of the leader and of lane 4k+1 (R143). -/
def State.rxParts (s : State) : Rx → List (Rx × Nat × Nat)
  | .lane l =>
    if s.rxFollower l then [] else
    (laneParts (sdiCfg s l)).map (fun p => (.lane l, p.1, p.2)) ++
      (if s.rxBond l = 0 then [] else
        ((laneParts (sdiCfg s (l + 1))).filter (fun p => 2 ≤ p.1)).map (fun p => (.lane (l + 1), p.1, p.2)))
  | .flow r => (.flow r, 0, r) :: (ingestParts (s.ingest r)).map (fun p => (.flow r, p.1, p.2))

/-- The ring a receiver writes a part to. -/
def State.rxRing (s : State) (x : Rx) (part : Nat) : Option Nat :=
  ((s.rxParts x).find? (fun p => p.1 == x && p.2.1 == part)).map (fun p => p.2.2)

/-- The ring of an audio slot of the receiver that owns it. -/
def State.audRingOf (s : State) (x : Rx) (slot : Nat) : Option Nat :=
  match x with
  | .lane l => ((laneParts (sdiCfg s l)).find? (fun p => p.1 == slot + 2)).map (·.2)
  | .flow _ => s.rxRing x (slot + 2)

/-- Total lines of a link of a receiver that has established a format: in a bonded group those of a sub-image (R108, R132). -/
def State.linkTotal (s : State) (x : Rx) : Nat :=
  match (s.rx x).fmt with
  | none => 1
  | some f => match x with
    | .lane l => totalLines (if !s.rxFollower l && s.rxBond l != 0 then f.lines / 2 else f.lines)
    | .flow _ => totalLines f.lines

/-- R155: a lane's counter advances; a depacketiser keeps none of them (R193). -/
def State.rxCount (x : Rx) (k : Nat) (s : State) : State :=
  match x with
  | .lane l => s.onSdi (fun d =>
      { d with ctr := tset ctr12 d.ctr l ((tget ctr12 d.ctr l).set k (sat32 ((tget ctr12 d.ctr l).getD k 0) 1)) })
  | .flow _ => s

def State.rxFollow (s : State) : Rx → Bool
  | .lane l => fbit (sdiCfg s l) SdiLane.followFormat
  | .flow _ => false
def State.rxDefault (s : State) : Rx → Nat
  | .lane l => fget (s.rxCfg l) SdiLane.defaultFormat
  | .flow _ => 0
def State.rxAutoPcm (s : State) : Rx → Bool
  | .lane l => fbit (s.rxCfg l) SdiLane.autoNonpcm
  | .flow r => fbit (s.ingest r) Ingest.autoNonpcm

/-- A receiver isolated by a forced FORMAT_UNSUPPORTED or SDI_FORMAT_OVER_BUDGET until its status is cleared (R445, R446). -/
def State.rxHeld (s : State) (x : Rx) : Bool := s.isIsolated 0x84 (s.rxLoc x) || s.isIsolated 0x85 (s.rxLoc x)

/-- Whether the receiver's writers write. -/
def State.rxWrites (s : State) (x : Rx) : Bool :=
  let v := s.rx x
  v.lock == .formatLocked && v.started && !v.stop && !v.unsup && !s.rxHeld x

/-! ### Stopping the writers (R139, R140) -/

/-- The audio of a slot that waits for its tile is discarded: an open unit. -/
def dropSlot (slot : Nat) (v : LaneSt) : LaneSt :=
  { v with aq := v.aq.filter (fun e => e.1 / 4 != slot), bPend := v.bPend.filter (fun c => c / 16 != slot)
           aSync := v.aSync.filter (fun g => g / 4 != slot) }

/-- One writer abandons its current unit by steps 1 to 3 of R57 and counts it in INCOMPLETE; `whole` includes a unit whose last
tile has closed (R140). -/
def State.rxAbandon (part : Rx × Nat × Nat) (whole : Bool) (s : State) : State :=
  let (x, k, r) := part
  let count (s : State) : State := s.onRingCtr r (fun c => { c with incomplete := sat32 c.incomplete 1 })
  if k ≤ 1 then
    let w := s.wr r
    if w.unitOpen || (whole && w.tile != 0) then (if w.discard then s.abandon r false else count (s.abandon r false)) else s
  else
    let v := s.rx x
    if (v.aq.any (fun e => e.1 / 4 == k - 2)) then count (s.setRx x (dropSlot (k - 2) v)) else s

def State.rxStop (x : Rx) (whole : Bool) (s : State) : State := (s.rxParts x).foldl (fun s p => s.rxAbandon p whole) s

/-! ### Lock and its loss (R135, R139) -/

/-- The running state of a receiver that has left CDR_LOCKED or FORMAT_LOCKED: a search begins at the top of its order (DESIGN CHOICE, log
entry 119). -/
def LaneSt.unlocked (lock : Lock) (v : LaneSt) : LaneSt :=
  { v with
    lock := lock, attempt := 0, cdr := false, fmt := none, cand := none, badTrs := 0, line := 0, field2 := false, started := false
    newFrame := false, stop := false, overBudget := false, unsup := false, st352 := 0, link := 4, bondBad := false
    own := none, bond := BondRx.reset, aq := [], lost := [], aPhase := [], bPend := [], aSync := [] }

/-- The candidates that follow a receiver's lock. -/
def State.rxCands (x : Rx) (s : State) : State :=
  match x with
  | .lane l => s.syncCands (s.candsOf l)
  | .flow _ => s

/-- The causes a receiver holds end. -/
def State.rxEndCauses (x : Rx) (s : State) : State :=
  let s1 := if (s.rx x).unsup then s.endCause 0x84 (s.rxLoc x) else s
  if (s.rx x).overBudget then s1.endCause 0x85 (s.rxLoc x) else s1

/-- R139: lock is lost, or with `event` false the receiver is stopped. -/
def State.rxLose (x : Rx) (lock : Lock) (event : Bool) (s : State) : State :=
  let v := s.rx x
  let s1 := if v.lock = .formatLocked then s.rxStop x false else s
  let s2 := (s1.rxEndCauses x).setRx x ((s1.rx x).unlocked lock)
  let s3 := if event && v.lock = .formatLocked then s2.rxCount x 9 else s2
  let s4 := if event && (v.lock = .cdrLocked || v.lock = .formatLocked) then s3.raise0 0x81 (s3.rxLoc x) else s3
  s4.rxCands x

/-- A link of a bonded group other than its leader loses lock (R139, R155). -/
def State.linkLose (l : Nat) (lock : Lock) (s : State) : State :=
  let v := s.lane l
  let s1 := s.setLane l (v.unlocked lock)
  let s2 := if v.lock = .formatLocked then s1.rxCount (.lane l) 9 else s1
  (if v.lock = .cdrLocked || v.lock = .formatLocked then s2.raise0 0x81 (locSdiRx l) else s2).rxCands (.lane l)

/-- A bonded group loses lock as a whole (R133): lane `l` goes where it must, the others search anew. -/
def State.groupLose (ld l : Nat) (lock : Lock) (s : State) : State :=
  let goal (k : Nat) : Lock := if k = l then lock else if (s.lane k).present then .searching else .noSignal
  ([ld + 1, ld + 2, ld + 3].foldl (fun s k => s.linkLose k (goal k)) s).rxLose (.lane ld) (goal ld) true

/-- A lane loses lock: a link of a bonded group that is locked takes the group with it. -/
def State.laneLose (l : Nat) (lock : Lock) (s : State) : State :=
  if s.rxBond l != 0 && (s.lane (leaderOf l)).lock == .formatLocked then s.groupLose (leaderOf l) l lock
  else if s.rxFollower l then s.linkLose l lock
  else s.rxLose (.lane l) lock true

/-- Rates of a lane's search, in order (R135), as RX_RATE codes. -/
def State.searchOrder (s : State) (l : Nat) : List Nat :=
  match fget (s.rxCfg l) SdiLane.rxRate with
  | 0 => if l < 48 then [6, 5, 4, 3, 2, 1] else [5, 4, 3, 2, 1]
  | k => [k]

/-- The search goes on with the next rate of its order. -/
def State.nextRate (l : Nat) (s : State) : State :=
  let v := s.lane l
  s.setLane l { v with cdr := false, attempt := (v.attempt + 1) % (s.searchOrder l).length }

/-! ### Format (R136, R141, R142) -/

/-- What a frame establishes on a link: the format, whether it is supported, and whether ST 352 contradicts the structure. -/
def State.rxJudge (s : State) (x : Rx) (i : FrameInfo) : VFmt × Bool × Bool :=
  let carried (sample : Nat) : Bool :=
    let f : VFmt := { i.fmt with sample := sample }
    match x with
    | .lane l => linkCarries i.link (l < 48) f
    | .flow _ => i.link ≤ 3 && linkCarries i.link false f
  let set := (List.range 6).filter carried
  match set with
  | [] => (i.fmt, false, i.contra)
  | low :: _ =>
    let pick (k : Nat) : Nat := if set.contains k then k else low
    match i.pid with
    | none => ({ i.fmt with sample := pick (s.rxDefault x), full := false }, true, false)
    | some (k, full, _) =>
      let contra := i.contra || !set.contains k
      ({ i.fmt with sample := pick k, full := full && !contra }, true, contra)

/-- The format of a bonded group whose links have one, with their link type, and whether R130 lists it. -/
def groupFormat (bond : Nat) (f : VFmt) (link : Nat) : VFmt × Bool :=
  let g : VFmt := { f with width := 2 * f.width, lines := 2 * f.lines }
  (g, (link == if bond = 1 then 2 else 5) && bondCarries bond g)

/-- Whether two formats agree as R140 compares frames: everything but the range. -/
def sameFormat (a b : VFmt) : Bool := decide ({ a with full := b.full } = b)

/-- Whether a ring has a format, its rate being that of its plane (R141). -/
def State.ringHasFmt (s : State) (r : Nat) (f : VFmt) : Bool :=
  let d := s.ring r
  fget d RingDesc.width == f.width && ringLines d == f.lines && ringIl d == f.interlaced && fget d RingDesc.formatF == f.sample &&
    fbit d RingDesc.range == f.full && s.planeRate (fget d RingDesc.plane) == f.rate

/-- The ring's descriptor re-formed for a format (R141). -/
def reformed (d : BitVec 256) (f : VFmt) : BitVec 256 :=
  withGeometry (fput (fput (fput (fput (fput d RingDesc.width f.width) RingDesc.lines f.lines) RingDesc.interlaced (bit f.interlaced))
    RingDesc.formatF f.sample) RingDesc.range (bit f.full))

/-- R141: the video writer takes a format on, with FOLLOWED. -/
def State.rxFit (x : Rx) (f : VFmt) (s : State) : State × Bool :=
  let v := s.rx x
  let l := s.rxLoc x
  let settle (s : State) (stop above : Bool) : State :=
    let s1 := if v.overBudget && !above then s.endCause 0x85 l else s
    s1.setRx x { s1.rx x with stop := stop, overBudget := above }
  match s.rxRing x 0 with
  | none => (settle s false false, false)
  | some r =>
    let d := s.ring r
    if s.ringHasFmt r f then (settle s false false, false)
    else if s.planeRate (fget d RingDesc.plane) != f.rate || !s.rxFollow x then (settle s true false, false)
    else
      let n := reformed d f
      let decl := tget declReset s.mem.decl r
      if descCredits s.bud.profile s n decl ≤ fget d RingDesc.wcred && minDepth n decl ≤ fget d RingDesc.length then
        (settle ((s.setRing r n).onMem (fun m => { m with
          markers := tdel m.markers r, wr := tset wrReset m.wr r { wrReset 0 with staged := (tget wrReset m.wr r).staged } })) false false, true)
      else (settle (s.raise0 0x85 l) true true, false)

/-- The running state at the establishment of a format. -/
def LaneSt.established (f : VFmt) (link : Nat) (v : LaneSt) : LaneSt :=
  { v with
    lock := .formatLocked, fmt := some f, linkType := link, cand := none, badTrs := 0, line := 0, field2 := false, started := false
    newFrame := false, unsup := false, bondBad := false, bond := BondRx.reset, aq := [], lost := [], aPhase := [], bPend := [] }

/-- R136, R140, R142: two frames have agreed on a format. A video writer that first starts on a ring of another format acts as after a
change of format (R141). -/
def State.rxEstablish (x : Rx) (f : VFmt) (link : Nat) (supported contra change : Bool) (s : State) : State :=
  let v := s.rx x
  let l := s.rxLoc x
  if !supported then
    let s0 := if contra then s.raise0 0x88 l else s
    let s1 := (s0.rxEndCauses x).setRx x { (s0.rx x).unlocked .cdrLocked with
      unsup := true, cand := some f, candLink := link, linkType := link, st352 := v.st352, link := v.link, own := v.own }
    (if v.unsup then s1.onFlt (fun t => { t with cause := pinsert (0x84, l) t.cause }) else s1.raise0 0x84 l).rxCands x
  else
    let s1 := (if v.unsup then s.endCause 0x84 l else s).setRx x ((s.rx x).established f link)
    let s2 := if contra then s1.raise0 0x88 l else s1
    let differs := (s2.rxRing x 0).any (fun r => !s2.ringHasFmt r f)
    let (s3, followed) := s2.rxFit x f
    let changed : Ev := ⟨0x83, l, true, 0, leBytes 1 (bit followed)⟩
    let s4 := if change then (s3.rxCount x 10).raise changed
      else if differs then (s3.raise0 0x80 l).raise changed else s3.raise0 0x80 l
    s4.rxCands x

/-- A frame ends at a receiver of a single link (R136, R138, R140). -/
def State.rxFrame (x : Rx) (i : FrameInfo) (s0 : State) : State :=
  let v0 := s0.rx x
  let link := match i.pid with | some (_, _, n) => n | none => 4
  let s := s0.setRx x { v0 with st352 := if i.pid.isSome then i.st352 else 0, link := link }
  let v := s.rx x
  let (f, supported, contra) := s.rxJudge x i
  match v.lock with
  | .cdrLocked =>
    let s1 := if contra then s.rxCount x 4 else s
    if v.cand.any (sameFormat f) && v.candLink = i.link then s1.rxEstablish x f i.link supported contra false
    else s1.setRx x { v with cand := some f, candLink := i.link }
  | .formatLocked =>
    let s1 := if v.linkType = 0 && !i.edhOk then s.rxCount x 3 else s
    let s2 := if contra then s1.rxCount x 4 else s1
    if supported && v.fmt.any (sameFormat f) && v.linkType = i.link then
      if v.cand.isSome then (s2.rxCount x 0).setRx x { v with cand := none } else s2
    else
      let s3 := s2.rxStop x true
      if v.cand.any (sameFormat f) && v.candLink = i.link then s3.rxEstablish x f i.link supported contra true
      else s3.setRx x { s3.rx x with cand := some f, candLink := i.link }
  | _ => s0

/-- A frame ends on one link of a bonded group, which locks by itself (R136, R140): a frame that differs makes the group abandon its own. -/
def State.linkFrame (l : Nat) (i : FrameInfo) (s0 : State) : State :=
  let v0 := s0.lane l
  let ld := leaderOf l
  let s := s0.setLane l { v0 with
    st352 := if i.pid.isSome then i.st352 else 0, link := match i.pid with | some (_, _, n) => n | none => 4 }
  let v := s.lane l
  let (f, supported, contra) := s.rxJudge (.lane l) i
  let s1 := if contra then s.rxCount (.lane l) 4 else s
  let agrees := v.cand.any (sameFormat f) && v.candLink == i.link
  let next (s : State) : State :=
    let u := s.lane l
    if !agrees then s.setLane l { u with cand := some f, candLink := i.link } else
    let w : LaneSt := { u with own := some (f, i.link), cand := none }
    let s2 := s.setLane l (if l = ld then w else { w with
      lock := if supported then .formatLocked else .cdrLocked, fmt := if supported then some f else none, linkType := i.link })
    if contra then s2.raise0 0x88 (locSdiRx l) else s2
  match v.own with
  | none => next s1
  | some (g, t) =>
    if sameFormat f g && t == i.link then
      if v.cand.isSome && !v.unsup then (s1.rxCount (.lane l) 0).setLane l { v with cand := none } else s1
    else next (if (s1.lane ld).lock = .formatLocked then s1.rxStop (.lane ld) true else s1)

/-- How far apart, in ns, the links' latest lines 1 came. -/
def bondSkew (l : List LaneSt) : Nat :=
  let t := l.map LaneSt.line1Time
  t.foldl max 0 - t.foldl min (t.headD 0)

/-- R133: a bonded group judged when a frame has ended on one of its links, `steady` where that link goes on as it was. A missing or repeated
identifier, or skew, ends a lock that stands, and so do links that have come to differ (DESIGN CHOICE, log entry 120). -/
def State.groupJudge (ld : Nat) (steady : Bool) (s : State) : State :=
  let x := Rx.lane ld
  let ls := [ld, ld + 1, ld + 2, ld + 3].map s.lane
  let seen := ls.filter (fun v => v.own.isSome || v.cand.isSome)
  let v := s.lane ld
  if seen.any (fun u => 4 ≤ u.link) || (seen.map LaneSt.link).eraseDups.length < seen.length || (seen.length == 4 && decide (4000 < bondSkew ls)) then
    let s1 := if v.lock = .formatLocked then s.groupLose ld ld .searching else s
    let s2 := if v.bondBad then s1 else s1.raise0 0x8C (locSdiRx ld)
    s2.setLane ld { s2.lane ld with bondBad := true }
  else match v.own with
    | none => s
    | some (g, t) =>
      let (f, supported) := groupFormat (s.rxBond ld) g t
      if ls.all (fun u => u.own.any (fun e => sameFormat e.1 g && e.2 == t)) then
        if v.lock = .cdrLocked then s.rxEstablish x f t supported false false
        else if v.lock = .formatLocked && !(v.fmt.any (sameFormat f) && v.linkType == t) then
          (s.rxStop x true).rxEstablish x f t supported false true
        else s
      else if steady && v.lock == .formatLocked then s.groupLose ld ld .searching else s

/-- A frame ends on a lane. -/
def State.laneFrame (l : Nat) (i : FrameInfo) (s : State) : State :=
  if s.rxBond l = 0 then s.rxFrame (.lane l) i
  else
    let v := s.lane l
    if v.lock = .noSignal || v.lock = .searching then s else
    let s1 := s.linkFrame l i
    s1.groupJudge (leaderOf l) (v.own.isSome && v.own == (s1.lane l).own && (s1.lane l).cand.isNone)

/-! ### The flywheel (R138) -/

/-- The checks of one line: the flywheel's count advances, errors are counted and raised. -/
def State.rxChecks (x : Rx) (i : LineInfo) (s : State) : State :=
  let v := s.rx x
  let line := v.line % max 1 (s.linkTotal x) + 1
  let sd := v.linkType == 0
  let s1 := s.setRx x { v with line := line, badTrs := if i.trs then 0 else v.badTrs + 1, field2 := i.field2 }
  let s2 := if i.trs then s1 else (s1.rxCount x 0).raise0 0x86 (s1.rxLoc x)
  let s3 := if !sd && i.trs && i.number != line then s2.rxCount x 1 else s2
  if !sd && !i.crcOk then (s3.rxCount x 2).raise0 0x87 (s3.rxLoc x) else s3

/-- R138: a line at the ring's exact geometry: a short one padded with black, a long one cut. -/
def padLine (d : BitVec 256) (bytes : List Byte) : List Byte :=
  let n := fget d RingDesc.lineBytes
  (bytes ++ (blackLine (fget d RingDesc.width) (fget d RingDesc.formatF) (fbit d RingDesc.range)).drop bytes.length).take n

/-- The video of a line. -/
def State.rxVideo (x : Rx) (i : LineInfo) (s : State) : State :=
  match s.rxRing x 0 with
  | none => s
  | some r =>
    if !i.isActive then s else
    let l := s.rxLoc x
    let v := s.rx x
    let s1 := if v.newFrame then (s.setRx x { v with newFrame := false }).startUnit r l else s
    s1.feedLine r l (padLine (s1.ring r) i.active)

/-! ### Ancillary data (R144) -/

/-- R144: whether a packet is consumed. `sd` says that the link is SD. -/
def ancConsumed (sd : Bool) (words : List (BitVec 10)) : Bool :=
  let did := (words.getD 0 0).toNat % 256
  let sdid := (words.getD 1 0).toNat % 256
  (did == 0x41 && sdid == 0x01) || did == 0xF4 ||
    (if sd then [0xFF, 0xFD, 0xFB, 0xF9, 0xEF, 0xEE, 0xED, 0xEC, 0xFE, 0xFC, 0xFA, 0xF8].contains did
     else (0xE0 ≤ did && did ≤ 0xE7) || (0xA0 ≤ did && did ≤ 0xA7))

/-- The record of R50. -/
def ancRecord (p : AncPacket) : List Byte :=
  let body := leBytes 2 p.line.toNat ++ leBytes 2 p.hoff.toNat ++ leBytes 2 p.words.length ++ leBytes 2 0 ++
    p.words.flatMap (fun w => leBytes 2 w.toNat)
  fitBytes (cdiv body.length 4 * 4) body

/-- One packet that receiver `src` received, into the unit of `x`: one that fails its checksum or parity is dropped, whatever it is. -/
def State.rxPacket (x src : Rx) (p : AncPacket) (s : State) : State :=
  if !p.ok then (s.rxCount src 5).raise0 0x89 (s.rxLoc src)
  else if ancConsumed ((s.rx src).linkType == 0) p.words then s
  else match s.rxRing x 1 with
    | none => s
    | some r =>
      if !s.rxWrites x then s
      else if 65536 < s.unitLen r * bit (s.wr r).unitOpen + (ancRecord p).length then s.rxCount src 6
      else s.feedOrOpen r (s.rxLoc x) (ancRecord p)

/-- The ancillary unit of a field or frame ends. -/
def State.rxEndAnc (x : Rx) (s : State) : State :=
  match s.rxRing x 1 with
  | none => s
  | some r => s.endUnit r (s.rxLoc x)

/-! ### Audio (R143, R145) -/

/-- Samples of a period a group fills, and periods of a tile, by the ring's rate. -/
def groupWidth (d : BitVec 256) : Nat := if fget d RingDesc.formatF = 1 then 2 else 4
def tilePeriods (d : BitVec 256) : Nat := if fget d RingDesc.formatF = 1 then 96 else 48

/-- NONPCM and the channels whose block has just begun, after one word of a channel: the C bit after the block's first is bit 1 of
channel-status byte 0. -/
def pcmStep (a : List Nat × Nat) (c : Nat) (w : BitVec 32) : List Nat × Nat :=
  let (pend, mask) := a
  if fbit w AudWord.b then (if pend.contains c then pend else c :: pend, mask)
  else if pend.contains c then
    let m := if fbit w AudWord.c then (if maskBit mask (c % 16) then mask else mask + 2 ^ (c % 16))
      else if maskBit mask (c % 16) then mask - 2 ^ (c % 16) else mask
    (pend.filter (· != c), m)
  else a

/-- The words of a group waiting for its tile. -/
def queueOf (v : LaneSt) (g : Nat) : List (BitVec 32) := tget wordsReset v.aq g

/-- The bytes of a slot's tile: each group's words, zero with V = 1 where it has none. -/
def tileBytes (d : BitVec 256) (v : LaneSt) (slot : Nat) : List Byte :=
  let w := groupWidth d
  (List.range (tilePeriods d)).flatMap (fun t => (List.range (4 * w)).flatMap (fun c =>
    leBytes 4 ((queueOf v (4 * slot + c / w)).getD (t * w + c % w) zeroSample).toNat))

/-- A slot's tile is written and its words leave the queues. -/
def State.rxTile (x : Rx) (slot r loc : Nat) (s : State) : State :=
  let d := s.ring r
  let n := groupWidth d * tilePeriods d
  let v := s.rx x
  let v1 : LaneSt := { v with aq := [0, 1, 2, 3].foldl (fun q j => tset wordsReset q (4 * slot + j) ((tget wordsReset q (4 * slot + j)).drop n)) v.aq }
  (s.writeAudio r loc (tileBytes d v slot) false).setRx x v1

/-- A tile closes once every group still present has its sample periods (R145). -/
def State.rxCloseSlot (x : Rx) (slot r loc : Nat) (s : State) : State :=
  let d := s.ring r
  let v := s.rx x
  let live := ([0, 1, 2, 3].map (4 * slot + ·)).filter (fun g => !v.lost.contains g)
  if !live.isEmpty && live.all (fun g => groupWidth d * tilePeriods d ≤ (queueOf v g).length) then s.rxTile x slot r loc else s

/-- R204: in aligned mode a group's first tile starts at a sample whose media-clock position is a whole tile: the words before it
are dropped. The newest word's time is taken to be now (DESIGN CHOICE, log entry 36). -/
def State.rxAlign (s : State) (r g : Nat) (v : LaneSt) (words : List (BitVec 32)) : List (BitVec 32) × LaneSt :=
  match s.legsOf r with
  | [] => (words, v)
  | (m, _) :: _ =>
    if v.aSync.contains g then (words, v) else
    let d := s.ring r
    let w := groupWidth d
    let n := words.length / w
    let hz := if fget d RingDesc.formatF = 1 then 96000 else 48000
    let last := (2 * ((s.now : Int) - fget (s.mergeRec m) Merge.hybOffset) * hz + 1000000000).fdiv 2000000000
    match (List.range n).find? (fun i => (last - (n - 1 - i : Nat)) % (tilePeriods d : Int) == 0) with
    | some i => (words.drop (i * w), { v with aSync := g :: v.aSync })
    | none => ([], v)

/-- An audio data packet: `x` owns the slots, `src` received it. -/
def State.rxAudio (x src : Rx) (p : AudioPacket) (s : State) : State :=
  let g := p.group.val
  let s1 := if p.corrected then s.rxCount src 7 else s
  let s2 := if p.uncorrectable then (s1.rxCount src 8).raise0 0x8B (s1.rxLoc src) else s1
  match s2.audRingOf x (g / 4) with
  | none => s2
  | some r =>
    let d := s2.ring r
    let w := groupWidth d
    let (words, v) := s2.rxAlign r g (s2.rx x) (if p.uncorrectable then p.words.map (fun _ => zeroSample) else p.words)
    let others := (([0, 1, 2, 3].map (4 * (g / 4) + ·)).filter (fun k => k != g && !v.lost.contains k)).map (fun k => (queueOf v k).length)
    let pad := if v.lost.contains g then others.foldl max 0 - words.length else 0
    let v1 : LaneSt := { v with
      aq := tset wordsReset v.aq g (queueOf v g ++ List.replicate pad zeroSample ++ words), lost := v.lost.filter (· != g) }
    let chan (i : Nat) : Nat := 16 * (g / 4) + w * (g % 4) + i % w
    let (pend, mask) := if s2.rxAutoPcm x && !p.uncorrectable then
        words.zipIdx.foldl (fun a e => pcmStep a (chan e.2) e.1) (v.bPend, fget d RingDesc.nonpcm)
      else (v.bPend, fget d RingDesc.nonpcm)
    let s3 := (s2.setRx x { v1 with bPend := pend }).setRing r (fput d RingDesc.nonpcm mask)
    s3.rxCloseSlot x (g / 4) r (s3.rxLoc src)

/-- R145: the time of one line passes; a slot whose four groups are all lost is written as zero at the nominal rate. -/
def State.rxSilence (x src : Rx) (s : State) : State :=
  let ms := 1000000 * tuPerNs
  let step := match (s.rx src).fmt with | some f => lineTu f.rate (s.linkTotal src) | none => 0
  [0, 1].foldl (fun s slot =>
    match s.audRingOf x slot with
    | none => s
    | some r =>
      let v := s.rx x
      if !([0, 1, 2, 3].all (fun j => v.lost.contains (4 * slot + j))) then s.setRx x { v with aPhase := tset natReset v.aPhase slot 0 }
      else
        let t := tget natReset v.aPhase slot + step
        let s1 := s.setRx x { v with aPhase := tset natReset v.aPhase slot (if ms ≤ t then t - ms else t) }
        if ms ≤ t then s1.rxTile x slot r (s1.rxLoc src) else s1) s

/-- The receiver that owns the slots of a lane's audio: in a bonded group by its link number (R143). -/
def State.audOwner (s : State) (l : Nat) : Option Rx :=
  if s.rxBond l = 0 then some (.lane l)
  else match (s.lane l).link with
    | 0 => some (.lane (leaderOf l))
    | 1 => some (.lane (leaderOf l + 1))
    | _ => none

/-! ### A line (R138, R144, R145) -/

/-- The audio of a line. -/
def State.rxLineAudio (owner : Option Rx) (src : Rx) (i : LineInfo) (s : State) : State :=
  match owner with
  | none => s
  | some x => (i.audio.foldl (fun s p => s.rxAudio x src p) s).rxSilence x src

/-- Line 1 of a frame: the outputs that cut through the receiver's video are judged by it (R105), a frame begins, and ancillary data are
written again from it on (R139). -/
def State.rxLine1 (x : Rx) (s : State) : State :=
  let s1 := match s.rxRing x 0 with | none => s | some r => s.sourceLine1 r
  let s2 := s1.rxEndAnc x
  s2.setRx x { s2.rx x with started := true, newFrame := true }

/-- A line of a receiver of a single link that is FORMAT_LOCKED. -/
def State.rxLine (x : Rx) (owner : Option Rx) (i : LineInfo) (s0 : State) : State :=
  let v0 := s0.rx x
  let s := s0.rxChecks x i
  if 3 ≤ (s.rx x).badTrs then s.rxLose x .searching true else
  let line := (s.rx x).line
  let s1 := if line = 1 then (s.setRx x { s.rx x with line1Time := s.now }).rxLine1 x else s
  let s2 := if i.timecode.isSome then s1.setRx x { s1.rx x with timecode := i.timecode.getD 0 } else s1
  let writes := s2.rxWrites x
  let s3 := if writes then s2.rxVideo x i else s2
  let il := v0.fmt.any VFmt.interlaced
  let s4 := if il && !v0.field2 && i.field2 && line != 1 then s3.rxEndAnc x else s3
  let s5 := i.anc.foldl (fun s p => s.rxPacket x x p) s4
  let s6 := if writes then s5.rxLineAudio owner x i else s5
  if line = s0.linkTotal x then s6.rxEndAnc x else s6

/-! ### A line of a bonded group (R132, R133) -/

/-- Two rows by turns, two samples of each: pgroups of FORMAT 0, the one format of a bonded group. -/
def alternate (a b : List Byte) : List Byte :=
  ((pieces 5 (a.length / 5 + 1) a).zip (pieces 5 (b.length / 5 + 1) b)).flatMap (fun p => p.1 ++ p.2)

def State.onBond (ld : Nat) (f : BondRx → BondRx) (s : State) : State := s.setLane ld { s.lane ld with bond := f (s.lane ld).bond }

/-- Rows of the full raster that wait are written, at most `n`. -/
def State.bondFeed (ld r : Nat) : Nat → State → State
  | 0, s => s
  | n + 1, s => match (s.lane ld).bond.rows with
    | [] => s
    | (first, row) :: rest =>
      let s1 := s.onBond ld (fun b => { b with rows := rest })
      State.bondFeed ld r n ((if first then s1.startUnit r (locSdiRx ld) else s1).feedLine r (locSdiRx ld) row)

/-- The four links' rows of one line make two rows of the full raster, by RX_INTERLEAVE. Under square division those of the lower half
follow the upper half's last, two rows for every line of the source (DESIGN CHOICE, log entry 121). -/
def State.bondRows (ld : Nat) (d : BitVec 256) (s : State) : State :=
  let v := s.lane ld
  let part (k : Nat) : List Byte := ((v.bond.subs.find? (fun e => e.2.1 == k)).map (·.2.2)).getD []
  let first := v.newFrame
  let square := fbit (sdiCfg s ld) SdiLane.rxInterleave
  let low := v.bond.lower ++ [part 2 ++ part 3]
  let whole := 2 * low.length == ringLines d
  let b := { v.bond with
    subs := []
    lower := if !square || whole then [] else low
    rows := v.bond.rows ++ (if square then (first, part 0 ++ part 1) :: (if whole then low.map (false, ·) else [])
      else [(first, alternate (part 0) (part 1)), (false, alternate (part 2) (part 3))]) }
  s.setLane ld { v with newFrame := false, bond := b }

/-- The video of a line of one link. -/
def State.bondVideo (ld l : Nat) (i : LineInfo) (s : State) : State :=
  match s.rxRing (.lane ld) 0 with
  | none => s
  | some r =>
    let d := s.ring r
    let s1 := if !i.isActive then s else
      let w := fget d RingDesc.width / 2
      let n := fget d RingDesc.lineBytes / 2
      let row := (i.active ++ (blackLine w (fget d RingDesc.formatF) (fbit d RingDesc.range)).drop i.active.length).take n
      let line := (s.lane l).line
      let s2 := s.onBond ld (fun b => { b with
        subs := b.subs.filter (fun e => e.1 == line && e.2.1 != (s.lane l).link) ++ [(line, (s.lane l).link, row)]
        lower := if (s.lane ld).newFrame then [] else b.lower })
      if (s2.lane ld).bond.subs.length = 4 then s2.bondRows ld d else s2
    if l = ld then s1.bondFeed ld r 2 else s1

/-- Line 1 of a link: the group's is that of the latest (R133). -/
def State.bondLine1 (ld l : Nat) (s : State) : State :=
  let s1 := s.setLane l { s.lane l with line1Time := s.now }
  let ones := l :: (s1.lane ld).bond.ones.filter (· != l)
  if ones.length < 4 then s1.onBond ld (fun b => { b with ones := ones })
  else (s1.onBond ld (fun b => { b with ones := [], line1 := s1.now })).rxLine1 (.lane ld)

/-- The last line of a link: the group's ancillary unit ends with the latest. -/
def State.bondEnd (ld l : Nat) (s : State) : State :=
  let ends := l :: (s.lane ld).bond.ends.filter (· != l)
  if ends.length < 4 then s.onBond ld (fun b => { b with ends := ends })
  else (s.onBond ld (fun b => { b with ends := [] })).rxEndAnc (.lane ld)

/-- A line of a link of a bonded group that is FORMAT_LOCKED; the group writes while it is locked itself. -/
def State.bondLine (ld l : Nat) (i : LineInfo) (s0 : State) : State :=
  let s := s0.rxChecks (.lane l) i
  if 3 ≤ (s.lane l).badTrs then s.laneLose l .searching else
  let line := (s.lane l).line
  let locked := (s.lane ld).lock == .formatLocked
  let s1 := if line != 1 then s else if locked then s.bondLine1 ld l else s.setLane l { s.lane l with line1Time := s.now }
  let s2 := if i.timecode.isSome then s1.setLane l { s1.lane l with timecode := i.timecode.getD 0 } else s1
  let s3 := i.anc.foldl (fun s p => s.rxPacket (.lane ld) (.lane l) p) (if s2.rxWrites (.lane ld) then s2.bondVideo ld l i else s2)
  let s4 := if s2.rxWrites (.lane ld) then s3.rxLineAudio (s3.audOwner l) (.lane l) i else s3
  if locked && line == s0.linkTotal (.lane l) then s4.bondEnd ld l else s4

/-- A line of a lane. -/
def State.laneLine (l : Nat) (i : LineInfo) (s : State) : State :=
  let v := s.lane l
  match v.lock with
  | .formatLocked => if s.rxBond l != 0 then s.bondLine (leaderOf l) l i else s.rxLine (.lane l) (s.audOwner l) i
  | .cdrLocked => if i.number = 1 && i.trs then s.setLane l { v with line1Time := s.now } else s
  | _ => s

/-- R145: a group of a bound slot has been absent for 1 ms while the video stays locked. -/
def State.rxGroupLost (x src : Rx) (g : Nat) (s : State) : State :=
  match s.audRingOf x (g / 4) with
  | none => s
  | some r =>
    let v := s.rx x
    if v.lost.contains g then s else
    let s1 := (s.setRx x { v with lost := g :: v.lost }).raise ⟨0x8A, s.rxLoc src, true, 0, leBytes 1 (g + 1)⟩
    s1.rxCloseSlot x (g / 4) r (s1.rxLoc src)

end Sys2Proof.Machine
end

