-- ==== Sys2Proof/Machine/Sdi.lean ====
section
/-! DEFINITION. SDI lanes (R129 to R156, R429, R430): the events of a receiver's search and lock, SDI_WRITE, the lane's part of
PORT_READ, and a transmitter's fault. -/

namespace Sys2Proof.Machine

open Sys2Proof

/-! ### Search and lock (R135, R137) -/

/-- SIGNAL_PRESENCE (R135): the search begins at the top of its order. -/
def execSignalPresence (l : Fin 144) (s0 : State) : Out :=
  let k := l.val
  let s := s0.fresh
  let v := s.lane k
  let v1 : LaneSt := { v with present := true }
  done (s.setLane k (if s.rxOn k && v.lock = .noSignal then { v1 with lock := .searching, attempt := 0, cdr := false } else v1))

/-- SIGNAL_ABSENCE (R135, R139): absent for 10 µs. -/
def execSignalAbsence (l : Fin 144) (s0 : State) : Out :=
  let k := l.val
  let s := s0.fresh.setLane k { s0.lane k with present := false }
  done (if (s.lane k).lock = .noSignal then s else s.laneLose k .noSignal)

/-- RATE_ATTEMPT (R135): 200 µs without CDR lock. -/
def execRateAttempt (l : Fin 144) (s0 : State) : Out :=
  let k := l.val
  let s := s0.fresh
  done (if (s.lane k).lock = .searching && !(s.lane k).cdr then s.nextRate k else s)

/-- CDR_LOCK (R135). -/
def execCdrLock (l : Fin 144) (s0 : State) : Out :=
  let k := l.val
  let s := s0.fresh
  done (if (s.lane k).lock = .searching then s.setLane k { s.lane k with cdr := true } else s)

/-- TRS_ALIGNMENT (R135). -/
def execTrsAlignment (l : Fin 144) (s0 : State) : Out :=
  let k := l.val
  let s := s0.fresh
  done (if (s.lane k).lock = .searching && (s.lane k).cdr then
    s.setLane k { s.lane k with lock := .cdrLocked, cdr := false, cand := none } else s)

/-- TRS_SEARCH_TIMEOUT (R135): the lock at this rate is given up. -/
def execTrsSearchTimeout (l : Fin 144) (s0 : State) : Out :=
  let k := l.val
  let s := s0.fresh
  done (if (s.lane k).lock = .searching && (s.lane k).cdr then s.nextRate k else s)

/-- CDR_LOCK_LOSS (R139). -/
def execCdrLockLoss (l : Fin 144) (s0 : State) : Out :=
  let k := l.val
  let s := s0.fresh
  match (s.lane k).lock with
  | .noSignal => done s
  | .searching => done (s.setLane k { s.lane k with cdr := false })
  | _ => done (s.laneLose k .searching)

/-- SDI_LINE (R138, R144, R145). -/
def execSdiLine (l : Fin 144) (info : LineInfo) (s : State) : Out := done (s.fresh.laneLine l.val info)

/-- SDI_FRAME (R136, R140). -/
def execSdiFrame (l : Fin 144) (info : FrameInfo) (s : State) : Out := done (s.fresh.laneFrame l.val info)

/-- The receiver that an operand names. -/
def rxOf : RxId → Rx
  | .lane l => .lane l.val
  | .flow r => .flow r.val

/-- The receivers whose search a timeout starts again: the one itself, and with the leader of a bonded group its other links. -/
def State.timedOut (s : State) : Rx → List Rx
  | .lane l => if l % 4 = 0 && s.rxBond l != 0 then [.lane l, .lane (l + 1), .lane (l + 2), .lane (l + 3)] else [.lane l]
  | x => [x]

/-- LOCK_TIMEOUT (R137, R191): the search starts again from the top. A lane that keeps measuring an unsupported source stays in
CDR_LOCKED (R142). -/
def execLockTimeout (x : RxId) (s0 : State) : Out :=
  let s := s0.fresh
  let v := s.rx (rxOf x)
  if v.lock = .searching || (v.lock = .cdrLocked && !v.unsup) then
    done (((s.timedOut (rxOf x)).foldl (fun s y =>
      if (s.rx y).lock = .noSignal then s else s.setRx y ((s.rx y).unlocked .searching)) s).raise0 0x82 (s.rxLoc (rxOf x)))
  else done s

/-- AUDIO_GROUP_ABSENCE (R145, R191). -/
def execAudioGroupAbsence (x : RxId) (group : Fin 8) (s0 : State) : Out :=
  let s := s0.fresh
  match x with
  | .flow r => done (if s.rxWrites (.flow r.val) then s.rxGroupLost (.flow r.val) (.flow r.val) group.val else s)
  | .lane l =>
    let lead := if s.rxFollower l.val then leaderOf l.val else l.val
    match s.audOwner l.val with
    | none => done s
    | some y => done (if s.rxWrites (.lane lead) then s.rxGroupLost y (.lane l.val) group.val else s)

/-! ### Transmitter fault (R156) -/

/-- A transmitter isolated by its stage monitor: quiet, until TX_EN is set again or its block is reset. -/
def State.txIsolate (l : Nat) (s : State) : State :=
  let v := s.lane l
  let s1 := s.setLane l { v with txFault := true, txOut := none, txGen := false }
  match v.txOut with
  | some o =>
    let s2 := s1.setOut o { s1.out o with tx := { (s1.out o).tx with lanes := (s1.out o).tx.lanes.filter (· != l) } }
    if s2.sdi.lanes.any (fun e => e.2.txOut == some o) then s2 else s2.emit (.quiet o)
  | none => s1

/-- Whether a lane's transmitter is enabled: by its own TX_EN, or in a bonded group by its leader's (R132, R134). -/
def State.txOn (s : State) (l : Nat) : Bool := fbit (sdiCfg s (if s.txFollower l then l / 4 * 4 else l)) SdiLane.txEn

/-- SDI_TX_FAULT (R156). -/
def execSdiTxFault (l : Fin 144) (s0 : State) : Out :=
  let k := l.val
  let s := s0.fresh
  if !s.txOn k then done s
  else done ((s.contain (Ev.plain 0x8D (locSdiTx k)) false).txIsolate k)

/-! ### SDI_WRITE (R129, R132, R143, R150, R154) -/

/-- Total lines of a raster R108 lists. -/
def knownTotal (lines : Nat) : Option Nat := if [486, 576, 720, 1080, 2160, 4320].contains lines then some (totalLines lines) else none

/-- R129, R99: ranges that depend on the lane or on the output's format. -/
def sdiMore (l : Nat) (r : BitVec 256) : Option Nat :=
  if 48 ≤ l && fget r SdiLane.rxRate = 6 then some 0
  else if 48 ≤ l && fget r SdiLane.txLink = 6 then some 16
  else match knownTotal (fget r SdiLane.outLines) with
    | some n => if n ≤ fget r SdiLane.outOffset then some 18 else none
    | none => none

/-- The Fixed-while-running fields of the sides that are enabled: of a lane its own, also where only its audio bindings count because it is
bonded (R143; DESIGN CHOICE, log entry 118). -/
def sdiFixed (old : BitVec 256) : List Fld :=
  SdiLane.layout.filter (fun f => if f.lo < 128 then fbit old SdiLane.rxEn else fbit old SdiLane.txEn)

/-- Whether a record's transmit combination is in R130, on a lane. TX_BOND on a lane that is no leader is in none (DESIGN CHOICE, log entry
122). -/
def txCarries (l : Nat) (r : BitVec 256) : Bool :=
  match fget r SdiLane.txBond with
  | 0 => linkCarries (fget r SdiLane.txLink) (l < 48) (laneFmt r)
  | b => l % 4 == 0 && bondCarries b (laneFmt r) && fget r SdiLane.txLink == if b = 1 then 2 else 5

/-- R196: whether an output's packet output record, with a format, differs from a lane's record. -/
def pktOutDiffers (p : BitVec 128) (r : BitVec 256) : Bool :=
  fget p PktOut.outWidth != 0 && (decide (pktFmt p ≠ laneFmt r) || fget p PktOut.plane != fget r SdiLane.plane ||
    fget p PktOut.outOffset != fget r SdiLane.outOffset)

/-- R150, R196, R432: setting TX_EN to 1, or leaving it. -/
def sdiTxCheck (s : State) (l : Nat) (old new : BitVec 256) : Except Err Unit := do
  if fbit new SdiLane.txEn then
    need (s.planeOn (fget new SdiLane.plane)) eNoref
    if !fbit old SdiLane.txEn then
      let o := fget new SdiLane.txOutput
      needAt (txCarries l new) noField eFormat
      needAt (!(!(s.outFlows o).isEmpty && pktOutDiffers (tget pktOutReset s.flo.pktOut o) new)) noField eFormat
      need ((s.laneOf o).isNone && (s.outFlows o).isEmpty) eBusy

/-- The ring parts a write binds: those newly enabled or of another ring. -/
def sdiBinds (old new : BitVec 256) : List (Nat × Nat) := (laneParts new).filter (fun p => !(laneParts old).contains p)

/-- Offset, in the record, of a part's ring field. -/
def sdiPartOffset (part : Nat) : Nat := 4 + 2 * part

/-- R143, R541: the bindings of a receiver's rings: existing, fitting, with no other writer, and admitted. -/
def bindCheck (s : State) (binds : List (Nat × Nat)) (off : Nat → Nat) (mine : Writer → Bool) : Except Err State := do
  need (binds.all (fun p => !ringFree (s.ring p.2))) eState
  match binds.find? (fun p => !partFits p.1 (s.ring p.2)) with
  | some p => errAt eFormat (12 + off p.1)
  | none =>
    need (binds.all (fun p => !s.hasWriter p.2 mine) && (binds.map (·.2)).eraseDups.length == binds.length) eBusy
    let add := binds.flatMap (fun p => writeHold s 1 p.2)
    claimAll add (writeDrop add) s

/-- The bindings of a lane that a write gives up: those of the parts it does not keep. -/
def isLaneWriter (l : Nat) (keeps : List Nat) : Writer → Bool
  | .lane k p => k == l && !keeps.contains p
  | _ => false

/-- The parts whose binding stays. -/
def kept (old new : List (Nat × Nat)) : List Nat := (new.filter old.contains).map (·.1)

/-- The lanes a lane's enable governs: itself, or the four of a bonded group. -/
def bondLanes (l bond : Nat) : List Nat := if l % 4 = 0 && bond != 0 then [l, l + 1, l + 2, l + 3] else [l]

def sdiWriteCheck (q : Req) (s : State) : Except Err (Nat × BitVec 256 × State) := do
  let l ← Req.index q 144
  Req.noTarget q
  let old := sdiCfg s l
  let new ← writeRecordX q SdiLane.layout old (sdiFixed old) (sdiMore l)
  let rise (f : Fld) : Bool := fbit new f && !fbit old f
  need (!(s.rxFollower l && rise SdiLane.rxEn) && !(s.txFollower l && rise SdiLane.txEn)) eState
  let tested (g : List Nat) : Bool := g.any s.underTest
  need (!(rise SdiLane.rxEn && tested (bondLanes l (fget new SdiLane.rxBond))) &&
    !(rise SdiLane.txEn && tested (bondLanes l (fget new SdiLane.txBond)))) eBusy
  let binds := sdiBinds old new
  sdiTxCheck s l old new
  let t ← bindCheck s binds sdiPartOffset (isLaneWriter l (kept (laneParts old) (laneParts new)))
  if 72 ≤ l && s.inEconomy && (rise SdiLane.rxEn || rise SdiLane.txEn || !binds.isEmpty) then errBudget 0x60 1 0
  return (l, new, t)

/-- The receivers an RX_EN governs: a lane, or the four of a bonded group. -/
def State.rxGroup (s : State) (l : Nat) : List Nat := if l % 4 = 0 && s.rxBond l != 0 then [l, l + 1, l + 2, l + 3] else [l]

/-- A receiver enabled: a search starts where a signal is present (R135). -/
def State.rxStart (l : Nat) (s : State) : State :=
  (s.rxGroup l).foldl (fun s k =>
    let v := s.lane k
    s.setLane k (v.unlocked (if v.present && s.rxOn k then .searching else .noSignal))) s

/-- A receiver disabled: R139. -/
def State.rxHalt (l : Nat) (s : State) : State :=
  (s.rxGroup l).foldl (fun s k => s.setLane k ((s.lane k).unlocked .noSignal)) (s.rxLose (.lane l) .noSignal false)

/-- The other lanes of a cluster whose own receivers are enabled. -/
def State.clusterOn (s : State) (l : Nat) : List Nat := [l + 1, l + 2, l + 3].filter (fun k => fbit (sdiCfg s k) SdiLane.rxEn)

/-- A leader about to be bonded: its cluster's other receivers, whose fields are ignored from now on, stop (R132). -/
def State.unbond (l bond : Nat) (s : State) : State :=
  if l % 4 = 0 && s.rxBond l == 0 && bond != 0 then (s.clusterOn l).foldl (fun s k => s.rxHalt k) s else s

/-- A leader no longer bonded: those receivers start again by their own fields. -/
def State.rebond (l bond : Nat) (s : State) : State :=
  if l % 4 = 0 && bond != 0 && s.rxBond l == 0 then (s.clusterOn l).foldl (fun s k => s.rxStart k) s else s

/-- The record taken on. A transmitter set to 1 leaves its isolation (R156) and starts at its output's next frame start. -/
def sdiWriteDo (l : Nat) (new : BitVec 256) (s0 : State) : State :=
  let old := sdiCfg s0 l
  let fall := fbit old SdiLane.rxEn && !fbit new SdiLane.rxEn
  let s := (if fall then s0.rxHalt l else s0).unbond l (fget new SdiLane.rxBond)
  let s1 := (s.onSdi (fun d => { d with cfg := tset sdiReset d.cfg l new })).syncWcreds ((laneParts new).map (·.2))
  let s2 := (if fbit new SdiLane.rxEn && !fbit old SdiLane.rxEn then s1.rxStart l else s1).rebond l (fget old SdiLane.rxBond)
  if fbit new SdiLane.txEn && !fbit old SdiLane.txEn then
    (bondLanes l (fget new SdiLane.txBond)).foldl (fun s k => s.setLane k { s.lane k with txFault := false }) s2
  else s2

def cmdSdiWrite (q : Req) (s : State) : Res := do
  let (l, new, t) ← sdiWriteCheck q s
  let t := sdiWriteDo l new t
  return (t, recBytes (sdiCfg t l))

/-- SDI_WRITE (R154, R429). -/
def execSdiWrite (q : Req) (s : State) : Out := serve 0x1100 cmdSdiWrite q s

/-! ### PORT_READ of a lane (R155, R430) -/

/-- LOCK_STATE (R135). -/
def lockCode : Lock → Nat
  | .noSignal => 0 | .searching => 1 | .cdrLocked => 2 | .formatLocked => 3

/-- The format a lane reports: the established one, or that of an unsupported source it keeps measuring. -/
def LaneSt.detected (v : LaneSt) : Option VFmt := if v.lock = .formatLocked then v.fmt else if v.unsup then v.cand else none

/-- The lane's record, status and counters. Link type, raster, rate and FORMAT read 0 while no format is detected (DESIGN CHOICE, log entry
123). -/
def State.laneImage (s : State) (l : Nat) : List Byte :=
  let v := s.lane l
  let status := match v.detected with
    | some f => leBytes 1 v.linkType ++ leBytes 1 f.rate ++ leBytes 1 f.sample ++ leBytes 2 f.width ++ leBytes 2 f.lines ++
        leBytes 1 (bit f.interlaced)
    | none => List.replicate 8 0
  recBytes (sdiCfg s l) ++ leBytes 1 (lockCode v.lock) ++ status ++ [0, 0, 0] ++ leBytes 4 v.st352.toNat ++
    leBytes 4 v.timecode.toNat ++ leBytes 8 v.line1Time ++ (tget ctr12 s.sdi.ctr l).flatMap (leBytes 4)

end Sys2Proof.Machine
end

