-- ==== Sys2Proof/Machine/Serial.lean ====
section
/-! DEFINITION. The serial stream of an output (R134, R146 to R149, R152, R198): for each line of each link its TRS, line number and CRC,
its EDH and ST 352, the packets of audio, timecode and source data in their places, and its picture. The spec names the interface
standards; what they fix is PRESUMED throughout (log entry 114). -/

namespace Sys2Proof.Machine

open Sys2Proof

/-! ### Rates of a link (R130, R146) -/

/-- Line rate of a TX_LINK in bits per second, as a fraction: nominal, or divided by 1.001 at the frame rates that are, but for SD. -/
def linkRate (link rate : Nat) : Nat × Nat :=
  let base := match link with
    | 0 => 270000000 | 1 => 1485000000 | 2 | 3 => 2970000000 | 4 => 5940000000 | 5 => 11880000000 | _ => 23760000000
  if link != 0 && rateDen rate == 1001 then (base * 1000, 1001) else (base, 1)

/-- The slew of the output driver: that of ST 259 at 0.270 Gbit/s (false), the fast one at every higher rate. -/
def fastSlew (link : Nat) : Bool := link != 0

/-- Bits of a frame on a link. -/
def linkBits (link rate : Nat) : Nat :=
  let (n, d) := linkRate link rate
  n * rateDen rate / (d * rateNum rate)

/-! ### Pictures and virtual interfaces -/

/-- Whether the link is SD: one stream, with EDH and no line number or CRC. -/
def TxFrame.sd (f : TxFrame) : Bool := f.link == 0 && f.bond == 0

/-- Whether the link is 3G level B-DL, whose two virtual links carry the lines by turns. -/
def TxFrame.dual (f : TxFrame) : Bool := f.link == 3 && f.bond == 0

/-- Parts of width and height into which the raster is divided: sub-images of a bond, and within a 6G, 12G or 24G link. -/
def TxFrame.split (f : TxFrame) : Nat := if f.bond = 2 then 4 else if f.bond = 1 || 4 ≤ f.link then 2 else 1

/-- Virtual interfaces of one link. -/
def TxFrame.vifs (f : TxFrame) : Nat := if f.bond = 1 then 1 else if f.bond = 2 || 4 ≤ f.link then 4 else if f.dual then 2 else 1

/-- Links of the output. -/
def TxFrame.links (f : TxFrame) : Nat := if f.bond = 0 then 1 else 4

/-- Total lines of the structure every virtual interface keeps (R108), and its switch line. -/
def TxFrame.total (f : TxFrame) : Nat := totalLines (f.fmt.lines / f.split)
def TxFrame.switch (f : TxFrame) : Nat := switchLine f.total

/-- Samples of a line, blanking included, by total lines and frame rate. -/
def lineSamples (total rate : Nat) : Nat :=
  if total = 525 then 858 else if total = 625 then 864
  else (if total == 1125 && highRate rate then 148500000 else 74250000) / (nominalFps rate * total)

/-- Words of a stream for each sample: two in SD, where it carries luminance and colour difference, and in the mappings of the FORMATs
above 0. -/
def TxFrame.perSample (f : TxFrame) : Nat := if f.sd || f.fmt.sample != 0 then 2 else 1

/-- Active words of a stream's line, and its words between EAV and SAV. -/
def TxFrame.active (f : TxFrame) : Nat := f.fmt.width / f.split * f.perSample
def TxFrame.hanc (f : TxFrame) : Nat := lineSamples f.total f.fmt.rate * f.perSample - f.active - (if f.sd then 8 else 12)

/-- Line time of a virtual interface's structure, and the plane time at which a line starts. -/
def TxFrame.lineTime (f : TxFrame) : Nat := frameTu f.fmt.rate / f.total
def TxFrame.lineStart (f : TxFrame) (n : Nat) : Int := f.start + ((n : Int) - 1) * f.lineTime

/-- Lines from a field's first, as a row of the picture counted through its fields. -/
def rowIn (first len base n : Nat) : Option Nat := if first ≤ n && n < first + len then some (base + n - first) else none

/-- The picture row that a line carries, none in vertical blanking. -/
def activeRow (total : Nat) (il : Bool) (n : Nat) : Option Nat :=
  match total with
  | 525 => (rowIn 21 243 0 n).or (rowIn 283 243 243 n)
  | 625 => (rowIn 23 288 0 n).or (rowIn 336 288 288 n)
  | 750 => rowIn 26 720 0 n
  | _ => if il then (rowIn 21 540 0 n).or (rowIn 584 540 540 n) else rowIn 42 1080 0 n

/-- The F bit of a line. -/
def fieldBit (total : Nat) (il : Bool) (n : Nat) : Bool :=
  match total with
  | 525 => decide (n < 4) || decide (266 ≤ n)
  | 625 => decide (313 ≤ n)
  | _ => il && decide (564 ≤ n)

/-- Lines from a field 1 line to the same line of field 2 (R149). -/
def fieldLinesApart : Nat → Nat
  | 525 => 263
  | 625 => 313
  | _ => 562

/-- Whether a line is `k` lines after the switch line of a field. -/
def TxFrame.afterSwitch (f : TxFrame) (k n : Nat) : Bool :=
  n == f.switch + k || (f.fmt.interlaced && n == f.switch + k + fieldLinesApart f.total)

/-- In level B-DL, the place of a frame's line among those of two frames: its virtual link is that number's parity, its interface line
half of it. -/
def TxFrame.dualPlace (f : TxFrame) (n : Nat) : Nat := (n + 2248 + 1125 * (f.number % 2)) % 2250

/-- The virtual interface of a link's packets on a line, whether a line of the frame is one of an interface's, and its number there. -/
def TxFrame.vifOf (f : TxFrame) (n : Nat) : Nat := if f.dual then f.dualPlace n % 2 else 0
def TxFrame.hasLine (f : TxFrame) (p n : Nat) : Bool := !f.dual || f.dualPlace n % 2 == p
def TxFrame.lineNumber (f : TxFrame) (n : Nat) : Nat := if f.dual then f.dualPlace n / 2 + 1 else n

/-! ### The picture (R132, R134, R152) -/

/-- A pixel of sub-image `q` in the picture divided: by two-sample interleave, or square with sub-images of `w` by `h`. -/
def twoSample (q x y : Nat) : Nat × Nat := (4 * (x / 2) + 2 * (q % 2) + x % 2, 2 * y + q / 2)
def squarePart (w h q x y : Nat) : Nat × Nat := (x + q % 2 * w, y + q / 2 * h)

/-- The pixel of the raster that virtual interface `p` of link `k` carries at a place of its own picture. -/
def TxFrame.pixel (f : TxFrame) (k p x y : Nat) : Nat × Nat :=
  let w := f.fmt.width / 2
  let h := f.fmt.lines / 2
  let at_ := if f.vifs = 4 then twoSample p x y else (x, y)
  if f.bond = 0 then at_ else if f.square then squarePart w h k at_.1 at_.2 else twoSample k at_.1 at_.2

/-- Active bytes of a row, as its tiles were passed: black from the generator, and where no tile was. -/
def TxFrame.rowBytes (f : TxFrame) (y : Nat) : List Byte :=
  let n := lineBytes f.fmt.width f.fmt.sample
  if f.gen || f.tiles.isEmpty then blackLine f.fmt.width f.fmt.sample f.fmt.full
  else
    let at_ := lineAddr f.desc y
    let j := at_ / 4096
    let tiles := (List.range ((at_ + n - 1) / 4096 + 1 - j)).flatMap (fun i =>
      let b := tget bytesReset f.tiles (j + i)
      if b.isEmpty then blackTile f.desc (j + i) else fitBytes 4096 b)
    (tiles.drop (at_ % 4096)).take n

/-- The active words of a stream for a picture row: in FORMAT 0 the samples of R43, C first. -/
def TxFrame.picture (f : TxFrame) (k p : Nat) (c : Bool) (row : Nat) : List Nat :=
  let bytes := f.rowBytes (f.pixel k p 0 row).2
  let sample (i : Nat) : Nat := bitsAt bytes (10 * i) 10
  (List.range f.active).map (fun i =>
    if f.fmt.sample != 0 then Config.mappedWord f.fmt.sample (4 * k + p) c i bytes
    else if f.sd then sample i
    else sample (2 * (f.pixel k p i row).1 + bit (!c)))

/-! ### ST 352 (R146) -/

/-- Lines that carry the payload identifier. -/
def TxFrame.pidLine (f : TxFrame) (n : Nat) : Bool :=
  match f.total with
  | 525 => n == 13 || n == 276
  | 625 => n == 9 || n == 322
  | _ => n == 10 || ((f.fmt.interlaced || f.dual) && n == 572)

/-- A packet's words with its checksum, from DID, SDID or DBN, and data values. -/
def ancPacket (did second : Nat) (data : List Nat) : List Nat :=
  let ws := [ancWord did, ancWord second, ancWord data.length] ++ data
  ws ++ [ancChecksum ws]

/-- The payload identifier of link `k`, with its number. -/
def TxFrame.pid (f : TxFrame) (k : Nat) : List Nat :=
  let std := if f.bond = 1 then 0x97 else if f.bond != 0 then Config.pidStandard f.link f.bond else match f.link with
    | 0 => 0x81 | 1 => if f.total = 750 then 0x84 else 0x85 | 2 => 0x89 | 3 => 0x8A | 4 => 0xC0 | 5 => 0xCE | _ => Config.pidStandard f.link 0
  let rate := match f.fmt.rate with | 0 => 2 | 1 => 3 | 2 => 5 | 3 => 6 | 4 => 7 | 5 => 9 | 6 => 10 | _ => 11
  let progressive := bit (!f.fmt.interlaced)
  let sampling := match f.fmt.sample with | 0 | 1 => 0 | 2 | 3 => 1 | _ => 2
  let depth := if f.fmt.sample % 2 = 0 then bit (!f.fmt.full) else 2 + bit f.fmt.full
  ancPacket 0x41 0x01 (([std, progressive * 192 + rate, sampling, k * 64 + depth]).map ancWord)

/-! ### Audio (R148, R152) -/

/-- Audio slots that link `k` carries. -/
def TxFrame.slotsOf (f : TxFrame) (k : Nat) : List Nat :=
  if f.bond != 0 then (if k < 2 then [2 * k, 2 * k + 1] else []) else if k != 0 then [] else if f.link ≤ 1 then [0] else [0, 1]

/-- Sample rate of a slot: that of its latest block. -/
def TxFrame.slotHz (f : TxFrame) (slot : Nat) : Nat :=
  if f.sd then 48000 else match (f.audio.filter (fun b => b.slot == slot)).getLast? with
  | some b => b.hz
  | none => 48000

/-- Bit `i` of the channel status of linear PCM (AES3): professional use, the sample rate, and the check byte. -/
def statusBit (hz i : Nat) : Bool :=
  let data (j : Nat) : Bool := j == 0 || (if hz = 96000 then j == 36 else j == 7)
  let crc := (List.range 184).foldl (fun r j =>
    if r / 128 % 2 + bit (data j) = 1 then Nat.xor (r * 2 % 256) 0x1D else r * 2 % 256) 255
  if i < 184 then data i else maskBit crc (191 - i)

/-- A zero sample of linear PCM at a sample count. -/
def pcmZero (hz : Nat) (i : Int) : BitVec 32 :=
  let b := (i % 192).toNat
  fput (fput 0 AudWord.b (bit (b == 0))) AudWord.c (bit (statusBit hz b))

/-- The word of a channel of a slot at a sample count. -/
def TxFrame.sample (f : TxFrame) (slot hz : Nat) (i : Int) (c : Nat) : BitVec 32 :=
  let ch := if hz = 96000 then 8 else 16
  match f.audio.find? (fun b => b.slot == slot && b.hz == hz && decide (b.first ≤ i) && decide (i < b.first + (768 / ch : Nat))) with
  | some b => if f.gen || b.words.isEmpty then pcmZero hz i else b.words.getD ((i - b.first).toNat * ch + c) 0
  | none => pcmZero hz i

/-- The words of group `g` of link `k` in sample period `i` of 48 kHz: four channels, or two samples of two. -/
def TxFrame.period (f : TxFrame) (k g : Nat) (i : Int) : List (BitVec 32) :=
  let slot := (f.slotsOf k).getD (g / 4) 0
  let hz := f.slotHz slot
  (List.range 4).map (fun c => if hz = 96000 then f.sample slot hz (2 * i + (c % 2 : Nat)) (2 * (g % 4) + c / 2) else f.sample slot hz i (4 * (g % 4) + c))

/-- Even parity of the bits of a number below 2^`n`. -/
def evenBit (n v : Nat) : Nat := ((List.range n).map (fun i => v / 2 ^ i % 2)).sum % 2

/-- Nine bits with the complement of bit 8 as bit 9. -/
def notEighth (v : Nat) : Nat := v % 512 + (if v / 256 % 2 = 0 then 512 else 0)

/-- The four words of a sample in an HD audio data packet (ST 299-1). -/
def hdSample (w : BitVec 32) : List Nat :=
  let x := w.toNat % 2 ^ 27
  let z := bit (fbit w AudWord.b)
  [ancWord (x % 16 * 16 + z * 8), ancWord (x / 16 % 256), ancWord (x / 4096 % 256), ancWord (x / 2 ^ 20 % 128 + evenBit 27 x * 128)]

/-- The six words of the packet's error code: the remainders of its 24 words, bit by bit, under (x + 1)(x^5 + x^2 + 1). -/
def eccWords (ws : List Nat) : List Nat :=
  ((ws.foldl (fun (r : List Nat) w =>
    let fb := Nat.xor (r.getD 5 0) (w % 256)
    [fb, Nat.xor (r.getD 0 0) fb, Nat.xor (r.getD 1 0) fb, Nat.xor (r.getD 2 0) fb, r.getD 3 0, Nat.xor (r.getD 4 0) fb])
    [0, 0, 0, 0, 0, 0])).map ancWord

/-- The data packet of a group and sample period, on line `n`: with its phase in the line it was due in, and whether it comes late. -/
def TxFrame.hdPacket (f : TxFrame) (k g n : Nat) (i : Int) : List Nat :=
  let t := i * secTu / 48000 - f.start
  let line := t.fdiv f.lineTime
  let phase := ((t - line * f.lineTime) * (lineSamples f.total f.fmt.rate : Nat) / (max 1 f.lineTime : Nat)).toNat
  let late := bit (decide (line + 2 ≠ (n : Int)))
  let head := [ancWord (if g < 4 then 0xE7 - g else 0xA7 - (g - 4)), ancWord ((i % 255).toNat + 1), ancWord 24]
  let body := [ancWord (phase % 256), ancWord (phase / 256 % 16 + late * 16 + phase / 4096 % 2 * 32)] ++ (f.period k g i).flatMap hdSample
  let ws := head ++ body ++ eccWords ([0, 1023, 1023] ++ head ++ body)
  ws ++ [ancChecksum ws]

/-- The three words of a sample in an SD audio data packet (ST 272), and its four extended bits. -/
def sdSample (c : Nat) (w : BitVec 32) : List Nat :=
  let x := w.toNat
  let y := x / 16 % 2 ^ 20
  let z := bit (fbit w AudWord.b)
  let flags := x / 2 ^ 24 % 8
  [notEighth (z + 2 * c + 8 * (y % 64)), notEighth (y / 64), notEighth (y / 2 ^ 15 + 32 * flags + 256 * evenBit 26 (z + 2 * c + 8 * y + 2 ^ 23 * flags))]
def sdExtra (a b : BitVec 32) : Nat := ancWord (a.toNat % 16 + b.toNat % 16 * 16)

/-- The data packet and the extended data packet of a group, for `m` sample periods. -/
def TxFrame.sdPackets (f : TxFrame) (k g : Nat) (i : Int) (m : Nat) : List (List Nat) :=
  let ps := (List.range m).map (fun j => f.period k g (i + (j : Nat)))
  let block := (i % 255).toNat + 1
  [ancPacket ([0xFF, 0xFD, 0xFB, 0xF9].getD g 0) block (ps.flatMap (fun p => p.zipIdx.flatMap (fun e => sdSample e.2 e.1))),
   ancPacket ([0xFE, 0xFC, 0xFA, 0xF8].getD g 0) block (ps.flatMap (fun p => [sdExtra (p.getD 0 0) (p.getD 1 0), sdExtra (p.getD 2 0) (p.getD 3 0)]))]

/-- The control packet of a group: all four channels active, no delays, in step with the video. -/
def TxFrame.controlPacket (f : TxFrame) (k g : Nat) : List Nat :=
  let rate := if f.slotHz ((f.slotsOf k).getD (g / 4) 0) = 96000 then 8 else 0
  if f.sd then ancPacket (0xEF - g) 0 ([0, 0, rate, 15] ++ List.replicate 14 0 |>.map ancWord)
  else ancPacket (if g < 4 then 0xE3 - g else 0xA3 - (g - 4)) 0 ([0, rate, 15] ++ List.replicate 8 0 |>.map ancWord)

/-- Groups that link `k` carries. -/
def TxFrame.groupsOf (f : TxFrame) (k : Nat) : Nat := 4 * (f.slotsOf k).length

/-- Sample periods of a group that fit in so many words, and the words they take with their flags. -/
def TxFrame.fits (f : TxFrame) (room m : Nat) : Nat := if f.sd then min (min m 21) ((room - 14) / 14) else min m (room / 31)
def TxFrame.takes (f : TxFrame) (m : Nat) : Nat := if m = 0 then 0 else if f.sd then 14 + 14 * m else 31 * m

/-- What line `n` of link `k` embeds, by group, from the first periods still to go: those due by its start, as far as they fit, the groups
served by turns; none on the line after the switch line. -/
def TxFrame.embed (f : TxFrame) (k n : Nat) (next : List Int) : List (Nat × Int × Nat) :=
  let due := sampleAt 48000 (f.lineStart n)
  let room := f.hanc - 48
  let count := f.groupsOf k
  if f.afterSwitch 1 n then [] else
  ((List.range count).foldl (fun (a : List (Nat × Int × Nat) × Nat) j =>
    let g := (n + j) % max 1 count
    let first := next.getD g 0
    let m := f.fits a.2 (due - first).toNat
    (a.1 ++ [(g, first, m)], a.2 - f.takes m)) ([], room)).1

/-- The first periods still to go after a line. -/
def afterEmbed (next : List Int) (l : List (Nat × Int × Nat)) : List Int := l.foldl (fun a e => a.set e.1 (e.2.1 + e.2.2)) next

/-- The first periods still to go before line `n` of link `k`. -/
def TxFrame.nextPeriods (f : TxFrame) (k n : Nat) : List Int :=
  let first := sampleAt 48000 (f.lineStart 0)
  ((List.range (n - 1)).filter (fun i => f.hasLine 0 (i + 1))).foldl (fun a i => afterEmbed a (f.embed k (i + 1) a))
    ((List.range 8).map (fun g => f.aud.getD (8 * k + g) first))

/-- The audio data packets of a line. -/
def TxFrame.audioPackets (f : TxFrame) (k n : Nat) : List (List Nat) :=
  (f.embed k n (f.nextPeriods k n)).flatMap (fun e =>
    if f.sd then (if e.2.2 = 0 then [] else f.sdPackets k e.1 e.2.1 e.2.2)
    else (List.range e.2.2).map (fun j => f.hdPacket k e.1 n (e.2.1 + (j : Nat))))

/-! ### Packets in their places (R111, R147, R149) -/

/-- Lines of the timecode packets: TC_LINE after the switch line, 0 standing for two. -/
def TxFrame.tcAt (f : TxFrame) : Nat := f.switch + (if f.tcLine = 0 then 2 else f.tcLine)

/-- The timecode packets of a line. -/
def TxFrame.atcPackets (f : TxFrame) (n : Nat) : List (List Nat) :=
  match f.tc with
  | none => []
  | some t =>
    if n = f.tcAt then [atcPacket 0 t, atcPacket 1 t]
    else if f.fmt.interlaced && n == f.tcAt + fieldLinesApart f.total then [atcPacket 2 t] else []

/-- The packets a transmitter generates on a line of a stream, each with the earliest word for it, counted from the first after EAV, line
number and CRC. -/
def TxFrame.own (f : TxFrame) (k p : Nat) (c : Bool) (n : Nat) : List (Nat × List Nat) :=
  let luma := f.sd || !c
  (if f.pidLine (f.lineNumber n) && (luma || f.link == 2) then [(0, f.pid k)] else []) ++
  (if p != f.vifOf n then [] else
    (if luma && f.afterSwitch 2 n then (List.range (f.groupsOf k)).map (fun g => (0, f.controlPacket k g)) else []) ++
    (if luma && k == 0 then (f.atcPackets n).map (fun w => (f.hanc, w)) else []) ++
    (if (f.sd || c) && p == 0 then (f.audioPackets k n).map (fun w => (0, w)) else []))

/-- Whether a packet is one that the transmitter re-creates and never copies (R146, R147). -/
def recreated (p : AncRec) : Bool :=
  isAtc p || (p.2.2.getD 0 0 % 256 == 0x41 && p.2.2.getD 1 0 % 256 == 0x01) || p.2.2.getD 0 0 % 256 == 0xF4

/-- The source's packets of a line: of the entry before up to the switch line of a switch frame, else of the entry in force (R111). -/
def TxFrame.sourceLine (f : TxFrame) (n : Nat) : List AncRec :=
  let units := match f.ancBefore with
    | some l => if n < f.switch then l else f.anc
    | none => f.anc
  units.flatten.filter (fun p => p.1 == n && !recreated p)

/-- The first word a packet may take by its HOFF, an offset from SAV in its stream: a line begins with its blanking. -/
def TxFrame.hoffAt (f : TxFrame) (hoff : Nat) : Nat :=
  let x := hoff % 4096
  if x = 0xFFD then f.hanc else if 0xFFC ≤ x then 0 else if f.active ≤ x then x - f.active - (if f.sd then 4 else 8) else f.hanc + x

/-- The earliest place of `n` words at or after `p` in some regions, clear of the packets placed. -/
def findPlace (regions : List (Nat × Nat)) (used : List (Nat × List Nat)) (p n : Nat) : Option Nat :=
  let ends := p :: used.map (fun u => u.1 + u.2.length)
  let cands := regions.flatMap (fun r => (r.1 :: ends).filter (fun x => decide (r.1 ≤ x) && decide (x + n ≤ r.2)))
  let free := cands.filter (fun x => decide (p ≤ x) && used.all (fun u => decide (x + n ≤ u.1) || decide (u.1 + u.2.length ≤ x)))
  free.foldl (fun a x => match a with | some y => some (min x y) | none => some x) none

/-- Packets placed one after another, each with its flag words, and the number that found no place. -/
def placeAll (regions : List (Nat × Nat)) (ps : List (Nat × List Nat)) (used : List (Nat × List Nat)) : List (Nat × List Nat) × Nat :=
  ps.foldl (fun a p =>
    let ws := [0, 1023, 1023] ++ p.2
    match findPlace regions a.1 p.1 ws.length with
    | some x => (a.1 ++ [(x, ws)], a.2)
    | none => (a.1, a.2 + 1)) (used, 0)

/-- The row a line carries. -/
def TxFrame.row (f : TxFrame) (n : Nat) : Option Nat := activeRow f.total f.fmt.interlaced n

/-- The packets of a line of a stream in their places: `extra` first, then the transmitter's, then the source's; and the source's that
found none. -/
def TxFrame.placed (f : TxFrame) (k p : Nat) (c : Bool) (n : Nat) (extra : List (Nat × List Nat)) : List (Nat × List Nat) × Nat :=
  let regions := (0, f.hanc) :: (if (f.row n).isNone then [(f.hanc, f.hanc + f.active)] else [])
  let src := if k != 0 || p != f.vifOf n then [] else
    ((f.sourceLine n).filter (fun r => f.sd || decide (r.2.1 / 4096 % 2 = bit c))).map (fun r => (f.hoffAt r.2.1, r.2.2))
  placeAll regions src (placeAll regions (extra ++ f.own k p c n) []).1

/-- Packets of the source that the frame drops: without room on their line, or on a line the interface lacks (R111, R147). -/
def TxFrame.drops (f : TxFrame) : Nat :=
  let all := ((f.ancBefore.getD []) ++ f.anc).flatten
  let lines := ((all.map (·.1)).eraseDups).filter (fun n => decide (1 ≤ n) && decide (n ≤ f.total))
  let far (units : List (List AncRec)) : Nat := (units.flatten.filter (fun p => !recreated p && (p.1 == 0 || decide (f.total < p.1)))).length
  let placed := (lines.map (fun n => (f.placed 0 (f.vifOf n) true n []).2 + (if f.sd then 0 else (f.placed 0 (f.vifOf n) false n []).2))).sum
  far f.anc + placed

/-! ### Words of a line (R146, R152) -/

/-- The fourth word of a TRS. -/
def trsXyz (f v h : Bool) : Nat :=
  512 + bit f * 256 + bit v * 128 + bit h * 64 + bit (v != h) * 32 + bit (f != h) * 16 + bit (f != v) * 8 + bit ((f != v) != h) * 4

/-- A word of blanking. -/
def blankWord (sd c : Bool) (i : Nat) : Nat := if (if sd then i % 2 == 0 else c) then 512 else 64

/-- The words from EAV and SAV on: blanking with its packets, and the picture or blanking that follows. -/
def TxFrame.fill (f : TxFrame) (k p : Nat) (c : Bool) (n : Nat) (extra : List (Nat × List Nat)) : List Nat × List Nat :=
  let ps := (f.placed k p c n extra).1
  let at_ (i : Nat) : Nat := match ps.find? (fun u => decide (u.1 ≤ i) && decide (i < u.1 + u.2.length)) with
    | some u => u.2.getD (i - u.1) 0
    | none => blankWord f.sd c i
  ((List.range f.hanc).map at_, match f.row n with
    | some r => f.picture k p c r
    | none => (List.range f.active).map (fun i => at_ (f.hanc + i)))

/-- EAV or SAV of a line. -/
def TxFrame.trs (f : TxFrame) (n : Nat) (h : Bool) : List Nat :=
  [1023, 0, 0, trsXyz (fieldBit f.total (f.fmt.interlaced || f.dual) (f.lineNumber n)) (f.row n).isNone h]

/-- The two words of a line number. -/
def lnWords (n : Nat) : List Nat := [notEighth (n % 128 * 4), n / 128 % 16 * 4 + 512]

/-- A CRC register after ten bits, least significant first, under a reflected polynomial. -/
def crcTen (poly c w : Nat) : Nat :=
  (List.range 10).foldl (fun r i => if (r + w / 2 ^ i) % 2 = 1 then Nat.xor (r / 2) poly else r / 2) c

/-- The line CRC x^18 + x^5 + x^4 + 1 and the EDH CRC x^16 + x^12 + x^5 + 1 over words. -/
def lineCrc (c : Nat) (ws : List Nat) : Nat := ws.foldl (crcTen 0x23000) c
def edhCrc (c : Nat) (ws : List Nat) : Nat := ws.foldl (crcTen 0x8408) c

/-- The register of a stream after a line's active part. -/
def TxFrame.activeCrc (f : TxFrame) (k p : Nat) (c : Bool) (n : Nat) : Nat := lineCrc 0 (f.fill k p c n []).2

/-- The register a line starts from: that of the line before it on its virtual interface. -/
def TxFrame.crcBefore (f : TxFrame) (k p : Nat) (c : Bool) (n : Nat) : Nat :=
  match ((List.range (n - 1)).filter (fun i => f.hasLine p (i + 1))).getLast? with
  | some i => f.activeCrc k p c (i + 1)
  | none => match f.crcs.drop (f.vifs * k + p) with
    | x :: _ => if c then x.1 else x.2
    | [] => lineCrc 0 ((List.range f.active).map (blankWord false c))

/-- The words of a line of a stream. -/
def TxFrame.streamLine (f : TxFrame) (k p : Nat) (c : Bool) (n : Nat) (extra : List (Nat × List Nat)) : List Nat :=
  let (h, a) := f.fill k p c n extra
  let eav := f.trs n true
  let after := if f.sd then [] else
    let ln := lnWords (f.lineNumber n)
    let crc := lineCrc (f.crcBefore k p c n) (eav ++ ln)
    ln ++ [notEighth crc, notEighth (crc / 512)]
  eav ++ after ++ h ++ f.trs n false ++ a

/-! ### EDH (R146; RP 165) -/

/-- Lines from `a` to `b`. -/
def linesFrom (a b : Nat) : List Nat := (List.range (b + 1 - a)).map (a + ·)

/-- The CRC of some lines' active words, and the register after some whole lines. -/
def TxFrame.activeField (f : TxFrame) (lines : List Nat) : Nat := lines.foldl (fun c n => edhCrc c (f.fill 0 0 true n []).2) 0
def TxFrame.fullField (f : TxFrame) (c : Nat) (lines : List Nat) : Nat := lines.foldl (fun c n => edhCrc c (f.streamLine 0 0 true n [])) c

/-- The CRCs of a frame's first field, and what runs on from its second. -/
def TxFrame.firstField (f : TxFrame) : Nat × Nat :=
  if f.total = 525 then (f.activeField (linesFrom 21 262), f.fullField 0 (linesFrom 12 271))
  else (f.activeField (linesFrom 24 310), f.fullField 0 (linesFrom 8 317))
def TxFrame.secondField (f : TxFrame) : Nat × Nat :=
  if f.total = 525 then (f.activeField (linesFrom 284 525), f.fullField 0 (linesFrom 275 525))
  else (f.activeField (linesFrom 336 622), f.fullField 0 (linesFrom 321 625))

/-- The EDH packet of the field before: its CRCs, none at the first field of all, and no error flags. -/
def edhPacket (v : Option (Nat × Nat)) : List Nat :=
  let three (x : Nat) : List Nat := [x % 64 * 4, x / 64 % 64 * 4, x / 4096 % 16 * 4 + bit v.isSome * 128]
  let (a, b) := v.getD (0, 0)
  ancPacket 0xF4 0 ((three a ++ three b ++ List.replicate 10 0).map ancWord)

/-- The EDH packet of a line, in the last words before SAV. -/
def TxFrame.edhOn (f : TxFrame) (n : Nat) : List (Nat × List Nat) :=
  let (one, two) := if f.total = 525 then (9, 272) else (5, 318)
  if !f.sd then []
  else if n = one then [(f.hanc - 23, edhPacket (f.edh.map (fun e => (e.1, f.fullField e.2 (linesFrom 1 (one - 1))))))]
  else if n = two then [(f.hanc - 23, edhPacket (some f.firstField))]
  else []

/-! ### A link -/

/-- Words of equally long streams, by turns. -/
def interleave (streams : List (List Nat)) : List Nat :=
  (List.range ((streams.head?.map List.length).getD 0)).flatMap (fun i => streams.map (fun s => s.getD i 0))

/-- The words of line `n` of link `k` in the order they are sent: C before Y; of a link with eight streams in the order of its
multiplex; of level B-DL those of the virtual link the line is on. -/
def TxFrame.linkLine (f : TxFrame) (k n : Nat) : List Nat :=
  if f.sd then f.streamLine 0 0 true n (f.edhOn n)
  else if f.vifs = 4 then
    interleave ([(3, true), (1, true), (2, true), (0, true), (3, false), (1, false), (2, false), (0, false)].map (fun x => f.streamLine k x.1 x.2 n []))
  else
    interleave [f.streamLine k (f.vifOf n) true n [], f.streamLine k (f.vifOf n) false n []]

/-- R284: the blanking lines that a phase step adds to a frame, and the time by which the horizontal blanking of its last line is longer, in
units of 1/472,500 ns. -/
def TxFrame.moreLines (f : TxFrame) : Nat × Nat :=
  let l := max 1 (lineTu f.fmt.rate f.total)
  (f.extra / l, f.extra % l)

/-- The words of such a line: line 1 without packets (DESIGN CHOICE, log entry 134: the spec does not number it). -/
def TxFrame.moreLine (f : TxFrame) (k : Nat) : List Nat :=
  { f with gen := true, anc := [], ancBefore := none, audio := [], tc := none }.linkLine k 1

/-- What runs on into the next frame. -/
def TxFrame.nextCrcs (f : TxFrame) : List (Nat × Nat) :=
  if f.sd then [] else (List.range f.links).flatMap (fun k => (List.range f.vifs).map (fun p =>
    let n := if f.hasLine p f.total then f.total else f.total - 1
    (f.activeCrc k p true n, f.activeCrc k p false n)))
def TxFrame.nextAud (f : TxFrame) : List Int := (List.range (min 2 f.links)).flatMap (fun k => f.nextPeriods k (f.total + 1))
def TxFrame.nextEdh (f : TxFrame) : Option (Nat × Nat) := if f.sd then some f.secondField else none

/-- `n` bits of the serial stream of link 1 from bit `o` of the frame, most significant bit of each word first, padded with zeros. -/
def TxFrame.serialBytes (f : TxFrame) (o n : Nat) : List Byte :=
  let per := linkBits f.link f.fmt.rate / f.total
  let line := o / max 1 per
  let count := (o + n - 1) / max 1 per + 1 - line
  let words := ((List.range count).filter (fun i => line + i < f.total)).flatMap (fun i => f.linkLine 0 (line + i + 1))
  let skip := (o - line * per) / 10
  let bytes := packBits (((words.drop skip).take (n / 10 + 2)).map (10, ·))
  let shift := (o - line * per) % 10
  fitBytes (n / 8) (packBits ((List.range (n / 8)).map (fun i => (8, bitsAt bytes (shift + 8 * i) 8))))

end Sys2Proof.Machine
end

