-- ==== Sys2Proof/Machine/Outputs.lean ====
section
/-! DEFINITION. Outputs at their frame starts (R110 to R112, R116, R134, R146 to R152, R361, R437): which transmitters run, what feeds
them, the frame and the digest that end, the data and timecode of the frame that starts; the audio readers of an output (R245); and the
packet output record (R196). -/

namespace Sys2Proof.Machine

open Sys2Proof

/-! ### Which twin emits, and which lane -/

/-- R351, R361: whether this device emits an output's frame that starts now. Between Y and Y + 100 µs the old primary still does. -/
def State.emitsNow (s : State) : Bool :=
  s.pwr.power == .active &&
    (if s.twin.handAt != 0 && s.now < s.twin.handAt then s.role == .shadow else s.role != .shadow)

/-- R134, R150, R151: the lanes whose transmitters are to emit the output's frame that starts now: one, or those of a bonded group that are
not isolated. -/
def State.txWanted (s : State) (o : Nat) : List Nat :=
  match s.laneOf o with
  | none => []
  | some l =>
    let r := sdiCfg s l
    if s.emitsNow && s.planeOn (fget r SdiLane.plane) && !(72 ≤ l && s.bud.profile == .economy) && !s.blockHeld (sdiBlock l) then
      (bondLanes l (fget r SdiLane.txBond)).filter (fun k => !(s.lane k).txFault)
    else []

/-- The lanes that have been emitting an output. -/
def State.txRunning (s : State) (o : Nat) : List Nat := (s.sdi.lanes.filter (fun e => e.2.txOut == some o)).map (·.1)

/-- R100, R128, R437: whether an output is fed by black and silence of its own. -/
def State.selfFed (s : State) (o : Nat) : Bool := (entryParts (s.routeA o)).isEmpty || (s.out o).parity || s.safetyNet

/-! ### The frame start -/

/-- R357: the digest of the frame that ends, which a twin keeps to send and compare. -/
def State.closeDigest (o : Nat) (s : State) : State :=
  let v := s.out o
  let d := crc32c (v.digest ++ leBytes 4 (fget (s.routeA o) RouteEntry.gen))
  let s1 := s.setOut o { v with digest := [], lastDigest := d }
  if fbit s.twin.rec_ Twin.twinEn && v.running then
    s1.onTwin (fun t => { t with own := t.own ++ [(o, v.frames % 2 ^ 16, d)] })
  else s1

/-- The frame that ends leaves the transmitters, and its packets without a place are counted: in the lane's TX_ANC_DROP, or for packet
outputs those on a line the format lacks (R111, R147). -/
def State.frameEnds (o : Nat) (s : State) : State :=
  let v := s.out o
  let x := v.tx
  if !v.running then s
  else match x.lanes with
    | l :: _ => (s.onSdi (fun d =>
        { d with ctr := tset ctr12 d.ctr l ((tget ctr12 d.ctr l).set 11 (sat32 ((tget ctr12 d.ctr l).getD 11 0) x.drops)) })).emit (.serial o x)
    | [] => s

/-- Transmitters of the output that end with the frame before. -/
def State.txStops (o : Nat) (want : List Nat) (s : State) : State :=
  let gone := (s.txRunning o).filter (fun l => !want.contains l)
  let s1 := gone.foldl (fun s l => s.setLane l { s.lane l with txOut := none, txGen := false }) s
  if !gone.isEmpty && want.isEmpty then s1.emit (.quiet o) else s1

/-- R116: the frame an output's video reader reads from this frame start on: the one chosen, in a cut-through route the newest begun; where
the ring's format differed at the choice, the last frame again. -/
def State.takeChoice (o : Nat) (s : State) : State :=
  let v := s.out o
  let a := s.routeA o
  let d := s.ring (fget a RouteEntry.videoRing)
  let take (m : Option (BitVec 32)) : State :=
    let s1 := s.setOut o { v with chosen := none, lastFrame := m, lastDesc := d, repeating := false }
    if v.repeating then s1.releaseOldVideo o else s1
  if !fbit a RouteEntry.videoEn then s
  else if v.choiceBad then s.setOut o { v with repeating := true }
  else if entryMode a = 0 then take (s.begun a)
  else match v.chosen with
    | some m => take (some m)
    | none => s

/-- The serial link that a format has: of the lane that drives the output, else the first of R130 to carry it, for ST 2022-6 (R186). -/
def linkFor (f : VFmt) : Nat := ([0, 1, 2, 3].find? (fun l => linkCarries l false f)).getD 1

/-- The frame that starts, as its transmitters and packetisers build it: its data are read now (R111), and its timecode, which a repeated
frame repeats (R112). -/
def State.txStart (o : Nat) (f : OutFmt) (want : List Nat) (again : Bool) (s : State) : State :=
  let v := s.out o
  let e := s.routeA o
  let old := v.tx
  let cfg := match f.lane with | some l => sdiCfg s l | none => 0
  let units := if v.gen then [] else s.ancNow e f
  let cont := fbit e RouteEntry.tcCont
  let tc := if v.gen && !v.tcRun then none else if again && !cont then old.tc else frameTc cont v.tcRun f.fmt.rate v.tc units
  let start := (v.frames : Int) * f.frame + f.phase
  let kept := old.audio.filter (fun b => sampleAt b.hz (start - 2000000 * tuPerNs) ≤ b.first)
  s.setOut o { v with
    tcRun := cont && (v.tcRun || !v.gen), tc := tc.getD v.tc
    tx := { old with
      lanes := want, link := if f.lane.isSome then fget cfg SdiLane.txLink else linkFor f.fmt, bond := fget cfg SdiLane.txBond
      square := fbit cfg SdiLane.txInterleave, fmt := f.fmt, number := v.frames, gen := v.gen, start := start
      tcLine := if v.running then v.tcLatch else s.tcLineOf o, tc := if v.gen then none else tc
      anc := ancPlaced e units, ancBefore := none, tiles := [], audio := kept
      crcs := if v.running then old.nextCrcs else [], aud := if v.running then old.nextAud else []
      edh := if v.running then old.nextEdh else none, extra := 0 } }

/-- The frame that starts: its number, what it reads, and the end of a mismatch once a frame in the output's own format is emitted (R116). -/
def State.frameBegins (o : Nat) (f : OutFmt) (want : List Nat) (runs : Bool) (s : State) : State :=
  let v := s.out o
  let a := s.routeA o
  let n := ((s.planeTu f.plane - (f.phase : Int)).fdiv f.frame % (2 : Int) ^ 64).toNat
  let again := v.choiceBad || (v.chosen.isSome && v.chosen == v.lastFrame && s.readsRing o (fget a RouteEntry.videoRing))
  let reads := entryMode a = 0 || v.chosen.isSome
  let s1 := (s.setOut o { v with gen := s.selfFed o, frames := n }).takeChoice o
  let s2 := if runs then s1.txStart o f want again else s1
  let s3 := s2.setOut o { s2.out o with running := runs }
  if runs && fbit a RouteEntry.videoEn && reads && !v.choiceBad && s.formatMatches a f then s3.mismatch o false else s3

/-- OUTPUT_FRAME_START (R150, R152, R361): transmitters stop with the frame before or start with this one, and an output passes
between its fabric source and its generator only here. -/
def execOutputFrameStart (o : Fin 2048) (s0 : State) : Out :=
  let k := o.val
  let s := ((s0.fresh).closeDigest k).frameEnds k
  let want := s.txWanted k
  let s1 := s.txStops k want
  match s1.outFmt k with
  | none => done (s1.setOut k { s1.out k with running := false })
  | some f =>
    let packets := !(s1.outFlows k).isEmpty && s1.emitsNow && s1.planeOn f.plane
    let runs := !want.isEmpty || packets
    let gen := s1.selfFed k
    let s2 := want.foldl (fun s l => s.setLane l { s.lane l with txOut := some k, txGen := gen }) (s1.frameBegins k f want runs)
    done (if runs then s2.emit (.frame k gen) else s2)

/-! ### Audio readers of an output (R245) -/

/-- Slips of an audio reader: KIND 0 for an output's slot, 1 for a Calliope input slot (R435). -/
def State.audioSlips (l kind slot index : Nat) (slips : List (Nat × Nat)) (s : State) : State :=
  slips.foldl (fun s x => s.raise ⟨0xD0, l, true, x.1, leBytes 1 kind ++ leBytes 1 slot ++ leBytes 2 index ++ leBytes 2 x.2⟩) s

/-- AUDIO_READER_TILE (R245, R262 to R264): the millisecond of an output's audio slot that ends now. A slot without a source, and every
slot of an output on its generator, is silent (R114, R152). -/
def execAudioReaderTile (o : Fin 2048) (slot : Fin 4) (s0 : State) : Out :=
  let k := o.val
  let s := s0.fresh
  match s.outFmt k with
  | none => done s
  | some f =>
    let v := s.out k
    let old := v.slots.getD slot.val AudSlot.reset
    let (new, slips) := s.stepSlot old (msNear (s.planeTu f.plane))
    let live := !old.srcs.isEmpty && !v.gen
    let hz := match old.srcs with | a :: _ => ringHz (s.ring a.ring) | [] => 48000
    let block : AudBlock := ⟨slot.val, hz, new.first, if live then new.samples else []⟩
    let s1 := s.setOut k { v with
      slots := v.slots.set slot.val (if old.srcs.isEmpty then { new with samples := [], first := 0 } else new)
      tx := if v.running then { v.tx with audio := v.tx.audio ++ [block] } else v.tx }
    let s2 := if v.running && slotCarried s f slot.val then s1.emit (.audio k slot.val (if live then new.samples else List.replicate 768 0)) else s1
    done (s2.audioSlips (s.locOut k) 0 slot.val k slips)

/-! ### PKT_OUT_WRITE (R196) -/

/-- R99, R196: OUT_OFFSET against the format's total lines, where a format is set. -/
def pktOutMore (r : BitVec 128) : Option Nat :=
  if fget r PktOut.outWidth = 0 then none else
  match knownTotal (fget r PktOut.outLines) with
  | some n => if n ≤ fget r PktOut.outOffset then some 0 else none
  | none => none

def pktOutWriteCheck (q : Req) (s : State) : Except Err (Nat × BitVec 128) := do
  let o ← Req.index q 2048
  Req.noTarget q
  let old := tget pktOutReset s.flo.pktOut o
  let flows := !(s.outFlows o).isEmpty
  let new ← writeRecordX q PktOut.layout old (fixedIf flows PktOut.layout) pktOutMore
  needAt (fget new PktOut.outWidth == 0 || formatKnown (pktFmt new)) noField eFormat
  return (o, new)

def cmdPktOutWrite (q : Req) (s : State) : Res := do
  let (o, new) ← pktOutWriteCheck q s
  return (s.onFlo (fun f => { f with pktOut := tset pktOutReset f.pktOut o new }), recBytes new)

/-- PKT_OUT_WRITE (R196, R429). -/
def execPktOutWrite (q : Req) (s : State) : Out := serve 0x1107 cmdPktOutWrite q s

end Sys2Proof.Machine
end

