-- ==== Sys2Proof/Machine/Depack.lean ====
section
/-! DEFINITION. The depacketisers (R184 to R194): sequence numbers, ST 2110-20 frames placed segment by segment, audio placed by
media-clock count, ancillary units, opaque packets, and serial streams of ST 2022-6. -/

namespace Sys2Proof.Machine

open Sys2Proof

/-! ### Sequence numbers (R187) -/

/-- Location of the depacketiser that writes a ring: that of the receiving port. -/
def State.depLoc (s : State) (r : Nat) : Nat := s.rxLoc (.flow r)

/-- One of the counters of R193: 0 LOST, 1 DUP, 2 LATE, 3 GEOM_ERR, 4 ANC_ERR, 5 AES3_PARITY. -/
def State.depCount (r k n : Nat) (s : State) : State :=
  let v := s.dep r
  s.setDep r { v with ctr := v.ctr.set k (sat32 (v.ctr.getD k 0) n) }

/-- Runs of numbers without one of them, none where no run holds it. -/
def dropRun (x : BitVec 32) : List (BitVec 32 × Nat) → Option (List (BitVec 32 × Nat))
  | [] => none
  | (a, n) :: l =>
    let d := (x - a).toNat
    if d < n then some ((if d = 0 then [] else [(a, d)]) ++ (if d + 1 = n then [] else [(x + 1, n - d - 1)]) ++ l)
    else (dropRun x l).map ((a, n) :: ·)

/-- A packet's extended sequence number is taken; false where it has been seen before. The 64 newest runs of unseen numbers are
kept (log entry 21). -/
def DepSt.take (x : BitVec 32) (v : DepSt) : DepSt × Bool :=
  match v.seq with
  | none => ({ v with seq := some x, unseen := [(x - 0x7FFFFFFF, 0x7FFFFFFF)], gap := [] }, true)
  | some y =>
    let f := (x - y).toNat
    if 0 < f && f < 2 ^ 31 then
      let new := if f = 1 then [] else [(y + 1, f - 1)]
      ({ v with seq := some x, unseen := (new ++ v.unseen).take 64, gap := (new ++ v.gap).take 64 }, true)
    else match dropRun x v.unseen with
      | none => (v, false)
      | some u => ({ v with unseen := u, gap := (dropRun x v.gap).getD v.gap }, true)

/-- The extended sequence number of a 16-bit one: the nearest to the greatest so far. -/
def DepSt.extend (q : BitVec 16) (v : DepSt) : BitVec 32 :=
  match v.seq with
  | none => q.setWidth 32
  | some y => y + (q - y.setWidth 16).signExtend 32

/-- The numbers still missing when a unit closes are lost (R187). -/
def State.depGap (r : Nat) (s : State) : State :=
  let v := s.dep r
  if v.gap.isEmpty then s else (s.setDep r { v with gap := [] }).depCount r 0 (v.gap.map (·.2)).sum

/-! ### Geometry of a frame's tiles -/

/-- Bytes of picture in tile `j`. -/
def tileNeed (d : BitVec 256) (j : Nat) : Nat :=
  if ringType d = 0 then (videoTag d j).2 + 1
  else
    let p := max 1 (ringPitch d)
    let n1 := fieldTiles d false
    let second := ringIl d && n1 ≤ j
    let lo := 4096 * (if second then j - n1 else j)
    let n := fieldLines d second
    let a := lo / p
    let b := min n ((lo + 4095) / p + 1)
    ((List.range (b - a)).map (fun i =>
      let s0 := (a + i) * p
      min (s0 + fget d RingDesc.lineBytes) (lo + 4096) - max s0 lo)).sum

/-- A run of bytes added to sorted runs that neither touch nor overlap. -/
def addRun (a b : Nat) : List (Nat × Nat) → List (Nat × Nat)
  | [] => [(a, b)]
  | (c, d) :: l => if b < c then (a, b) :: (c, d) :: l else if d < a then (c, d) :: addRun a b l else addRun (min a c) (max b d) l

/-- Bytes of a range that the runs cover. -/
def covered (l : List (Nat × Nat)) (lo hi : Nat) : Nat := (l.map (fun e => min e.2 hi - max e.1 lo)).sum

/-- Bytes put at an address of a frame's tiles; `fuel` bounds the tiles they touch. -/
def placeBytes : Nat → Tab (List Byte) → Nat → List Byte → Tab (List Byte)
  | 0, t, _, _ => t
  | fuel + 1, t, a, bs =>
    if bs.isEmpty then t else
    let j := a / 4096
    let o := a % 4096
    let old := fitBytes 4096 (tget bytesReset t j)
    let n := min bs.length (4096 - o)
    placeBytes fuel (tset bytesReset t j (old.take o ++ bs.take n ++ old.drop (o + n))) (a + n) (bs.drop n)

/-! ### ST 2110-20 (R187, R188) -/

/-- Tiles of the frame close in order: those whose bytes are all placed, and with `force`, or where a later tile four beyond has
been touched, those with bytes missing. -/
def State.depClose (r l upto touched : Nat) (force : Bool) (s : State) : State :=
  let d := s.ring r
  (List.range (upto - (s.wr r).tile)).foldl (fun s _ =>
    let w := s.wr r
    let v := s.dep r
    let j := w.tile
    if !w.unitOpen || w.discard || upto ≤ j then s
    else
      let bytes := fitBytes 4096 (tget bytesReset v.image j)
      if covered v.placed (4096 * j) (4096 * j + 4096) = tileNeed d j then s.closeTile r l bytes false
      else if force || j + 4 ≤ touched then s.closeMissing r bytes true true
      else s) s

/-- R188 step 1: the frame is abandoned and counted. -/
def State.depBadFrame (r : Nat) (s : State) : State :=
  let s1 := if (s.wr r).unitOpen then s.abandon r false else s
  (s1.setDep r { s1.dep r with bad := true }).depCount r 3 1

/-- R188 steps 2 and 3, at the end of a frame. A frame of an interlaced ring that has shown no second field shows a progressive raster, and
one whose fields come as frames of a progressive ring an interlaced one (DEDUCED, log entry 131). -/
def State.depVerdict (r : Nat) (s : State) : State :=
  let v := s.dep r
  let d := s.ring r
  let l := s.depLoc r
  let shape := (if ringIl d && !v.second then (v.maxLine + 1) / 2 else v.maxLine, v.maxPix)
  let fits (lines : Nat) : Bool := rasterOk shape.2 lines (fget d RingDesc.formatF)
  if v.bad then
    let again := v.geom == some shape
    let s1 := s.setDep r { v with geom := some shape, stopped := v.stopped || again }
    if again && !v.stopped then
      if fits shape.1 || (!ringIl d && v.two && fits (2 * shape.1)) then s1.raise0 0xB0 l
      else (s1.setDep r { s1.dep r with unsup := true }).raise0 0x84 l
    else s1
  else
    let whole := v.maxLine == ringLines d && v.maxPix == fget d RingDesc.width
    let s1 := s.setDep r { v with two := false, geom := none, stopped := v.stopped && !whole, unsup := v.unsup && !whole }
    if v.unsup && whole then s1.endCause 0x84 l else s1

/-- The open field ends. A marker before its last line is complete shows another geometry (R188). -/
def State.depEndField (r : Nat) (short : Bool) (s : State) : State :=
  let v := s.dep r
  if v.field != 1 then s else
  let d := s.ring r
  let l := s.depLoc r
  let s1 := if short && !v.bad then s.depBadFrame r else s
  let lastField := !ringIl d || v.second
  let upto := if lastField then ringTpf d else fieldTiles d false
  let s2 := if (s1.dep r).bad then s1 else s1.depClose r l upto 0 true
  let s3 := (s2.setDep r { s2.dep r with field := 2, placed := [], image := [] }).depGap r
  if lastField then s3.depVerdict r else s3

/-- A frame whose second field never came: its tiles close with their bytes missing (R187), and its geometry is judged (R188). -/
def State.depFinish (r : Nat) (s : State) : State :=
  let v := s.dep r
  if !ringIl (s.ring r) || v.field != 2 || v.second || !((s.wr r).unitOpen || v.bad) then s
  else (if v.bad then s else s.depClose r (s.depLoc r) (ringTpf (s.ring r)) 0 true).depVerdict r

/-- Whether a timestamp lies within a frame of another. -/
def State.sameFrame (s : State) (r : Nat) (ts t : BitVec 32) : Bool :=
  decide ((ts - t).toNat * (tuPerNs * 1000000000) < s.unitTu (s.ring r) * 90000)

/-- A field opens with its first packet: a new frame, the second field of the frame in progress, or that of a frame whose first field
never came, whose tiles close with their bytes missing (R187). -/
def State.depOpen (r : Nat) (p : Rtp) (second first : Bool) (s0 : State) : State :=
  let v := s0.dep r
  let joins := second && v.field == 2 && !v.second && v.ts.any (s0.sameFrame r p.ts)
  let s := if joins then s0 else s0.depFinish r
  let w := s.wr r
  let l := s.depLoc r
  let d := s.ring r
  let fresh (v : DepSt) : DepSt := { v with
    ts := some p.ts, field := 1, second := second, bad := false, maxLine := 0, maxPix := 0, placed := [], image := [] }
  if second then
    if joins then
      let s1 := if w.unitOpen && w.discard && w.tile == fieldTiles d false && !v.bad then s.setWr r { w with discard := false } else s
      s1.setDep r { v with ts := some p.ts, field := 1, second := true }
    else if v.ts.isNone || v.field = 0 then s.setDep r { v with ts := some p.ts, field := 0, bad := false }
    else
      let s1 := s.setDep r (fresh (s.dep r))
      if (s1.dep r).stopped then s1 else (List.range (fieldTiles d false)).foldl (fun s _ => s.closeMissing r [] true true) (s1.startUnit r l)
  else if v.ts.isNone && !first then s.setDep r { v with ts := some p.ts, field := 0, bad := false }
  else
    let s1 := s.setDep r (fresh (s.dep r))
    if (s1.dep r).stopped then s1 else s1.startUnit r l

/-- Samples of an 8-bit ST 2110-20 flow as those of FORMAT 0: two low bits of zero (R186). -/
def expand8 (bs : List Byte) : List Byte := packMsb 10 (bs.map (fun b => 4 * b.toNat))

/-- A segment's bytes placed in the open frame; a segment all of whose tiles have closed is late. -/
def State.depPlace (r : Nat) (k : Nat) (g : Segment) (bits8 : Bool) (a : State × Bool) : State × Bool :=
  let (s, late) := a
  let d := s.ring r
  let v := s.dep r
  let fmt := fget d RingDesc.formatF
  let addr := lineAddr d k + g.pixel / pgroupPixels fmt * pgroupBytes fmt
  let bytes := if bits8 then expand8 g.bytes else g.bytes
  if bytes.isEmpty then a else
  let last := (addr + bytes.length - 1) / 4096
  let isClosed (j : Nat) : Bool := j < (s.wr r).tile || covered v.placed (4096 * j) (4096 * j + 4096) == tileNeed d j
  if (List.range (last + 1 - addr / 4096)).all (fun i => isClosed (addr / 4096 + i)) then (s, true)
  else
    let s1 := s.setDep r { v with
      placed := addRun addr (addr + bytes.length) v.placed
      image := placeBytes (bytes.length / 4096 + 2) v.image addr bytes }
    (s1.depClose r (s1.depLoc r) (if ringIl d && !v.second then fieldTiles d false else ringTpf d) last false, late)

/-- Whether a segment lies outside the ring's raster, and the lines and pixels it shows. -/
def segShape (d : BitVec 256) (bits8 : Bool) (g : Segment) : Bool × Nat × Nat :=
  let fmt := fget d RingDesc.formatF
  let px := g.pixel + g.bytes.length / (if bits8 then 4 else pgroupBytes fmt) * pgroupPixels fmt
  let lines := if ringIl d then 2 * g.row + bit g.second + 1 else g.row + 1
  (decide (fieldLines d g.second ≤ g.row) || decide (fget d RingDesc.width < px) || (g.second && !ringIl d), lines, px)

/-- A packet of an ST 2110-20 flow. -/
def State.depVideo (r : Nat) (p : Rtp) (bits8 : Bool) (s : State) : State :=
  let x := BitVec.ofNat 32 (beAt p.payload 0 2 * 2 ^ 16 + p.seq.toNat)
  let (v1, new) := (s.dep r).take x
  if !new then s.depCount r 1 1 else
  let s1 := s.setDep r v1
  let d := s.ring r
  let gs := segments p.payload
  let second := ringIl d && gs.any (·.second)
  let behind := match v1.ts with | some t => decide (2 ^ 31 ≤ (p.ts - t).toNat) | none => false
  if behind then s1.depCount r 2 1 else
  let first := gs.head?.any (fun g => g.row == 0 && g.pixel == 0)
  let s2 := if v1.ts = some p.ts then s1 else (s1.depEndField r false).depOpen r p second first
  let v2 := s2.dep r
  if v2.field = 2 then s2.depCount r 2 1
  else if v2.field = 0 then (if p.marker then s2.setDep r { v2 with field := 2, second := second } else s2)
  else
    let shapes := gs.map (segShape d bits8)
    let outside := shapes.any (·.1)
    let v3 : DepSt := { v2 with
      two := v2.two || gs.any (·.second), maxLine := (shapes.map (·.2.1)).foldl max v2.maxLine, maxPix := (shapes.map (·.2.2)).foldl max v2.maxPix }
    let s3 := s2.setDep r v3
    let s4 := if outside && !v3.bad then s3.depBadFrame r else s3
    let s5 :=
      if (s4.dep r).bad || !(s4.wr r).unitOpen || (s4.wr r).discard then s4
      else
        let (t, late) := gs.foldl (fun a g =>
          State.depPlace r ((if g.second then fieldLines d false else 0) + g.row) g bits8 a) (s4, false)
        if late then t.depCount r 2 1 else t
    if p.marker then
      let ends := match gs.getLast? with
        | some g => g.row + 1 == fieldLines d second && (segShape d bits8 g).2.2 == fget d RingDesc.width
        | none => false
      s5.depEndField r (!ends)
    else s5

/-! ### Audio (R189) -/

/-- A word of R48 from a sample of an ST 2110-30 flow, or from an ST 2110-31 subframe (its flags in bits 29 to 24 in the order
B, F, P, C, U, V: PRESUMED, log entry 22), and whether the subframe's parity holds. -/
def audioWord (aes l16 : Bool) (b : List Byte) : BitVec 32 × Bool :=
  if aes then
    let w := beNat b
    let flag (i : Nat) : Nat := w / 2 ^ i % 2
    let ones := ((List.range 24).map flag).sum + flag 24 + flag 25 + flag 26 + flag 27
    (BitVec.ofNat 32 (w % 2 ^ 24 + flag 24 * 2 ^ 24 + flag 25 * 2 ^ 25 + flag 26 * 2 ^ 26 + flag 29 * 2 ^ 27), ones % 2 == 0)
  else (BitVec.ofNat 32 (if l16 then beNat b * 256 else beNat b), true)

/-- The words of one sample period of the bundle: flow channel c is bundle channel c, the others zero. -/
def bundleWords (chans : Nat) (ws : List (BitVec 32)) : List (BitVec 32) := ws.take chans ++ List.replicate (chans - ws.length) 0

/-- An audio tile closes: its samples by count, poisoned where some are missing. -/
def State.audioClose (r : Nat) (s : State) : State :=
  let v := s.dep r
  let d := s.ring r
  let n := ringMs d
  match v.next with
  | none => s
  | some k =>
    let rows := (List.range n).map (fun i => tget wordsReset v.samples (k * n + i))
    let missing := rows.any (·.isEmpty)
    let bytes := wordBytes (rows.flatMap (bundleWords (ringChans d)))
    let s1 := s.setDep r { v with next := some (k + 1), samples := v.samples.filter (fun e => (k + 1) * n ≤ e.1) }
    (s1.writeAudio r (s1.depLoc r) bytes missing).depGap r

/-- Tiles that are full, or that a sample 1 ms beyond their end closes. -/
def State.audioCloses (r : Nat) (s : State) : State :=
  let v0 := s.dep r
  let last := (v0.samples.map (·.1)).foldl max 0 / ringMs (s.ring r)
  (List.range (last + 1 - v0.next.getD (last + 1))).foldl (fun s _ =>
    let v := s.dep r
    let n := ringMs (s.ring r)
    match v.next with
    | none => s
    | some k =>
      let full := (v.samples.filter (fun e => e.1 < (k + 1) * n)).length == n
      let beyond := v.samples.any (fun e => (k + 2) * n ≤ e.1)
      if full || beyond then s.audioClose r else s) s

/-- A packet of an ST 2110-30 or -31 flow. The first tile is the first that starts at or after its first sample (DESIGN CHOICE, log entry 23). -/
def State.depAudio (r : Nat) (aes : Bool) (p : Rtp) (s : State) : State :=
  let v0 := s.dep r
  let (v1, new) := v0.take (v0.extend p.seq)
  if !new then s.depCount r 1 1 else
  let d := s.ring r
  let g := s.ingest r
  let hz := ringHz d
  let n := ringMs d
  let chans := min (ringChans d) (fget g Ingest.channels + 1)
  let l16 := fbit g Ingest.l16
  let width := if aes then 4 else if l16 then 2 else 3
  let c0 := mediaCount hz s.now32 p.ts
  let count := p.payload.length / (chans * width)
  let next0 := if c0 % n = 0 then c0 / n else c0 / n + 1
  let next := v1.next.getD next0
  let subs : List (List (BitVec 32 × Bool)) := (List.range count).map (fun t => (List.range chans).map (fun c =>
    audioWord aes l16 ((p.payload.drop ((t * chans + c) * width)).take width)))
  let bad := ((subs.flatten).filter (fun e => !e.2)).length
  let rows : List (Nat × List (BitVec 32)) := subs.zipIdx.map (fun e => (c0 + e.2, e.1.map Prod.fst))
  let late := rows.any (fun e => e.1 < next * n) && v1.next.isSome
  let samples := (rows.filter (fun e => next * n ≤ e.1)).foldl (fun (t : Tab (List (BitVec 32))) e => tput t e.1 e.2) v1.samples
  let (pend, mask) := if aes && s.rxAutoPcm (.flow r) then
      rows.foldl (fun (a : List Nat × Nat) e => e.2.zipIdx.foldl (fun a x => pcmStep a x.2 x.1) a) (v1.bPend, fget d RingDesc.nonpcm)
    else (v1.bPend, fget d RingDesc.nonpcm)
  let s1 := (s.setDep r { v1 with next := some next, samples := samples, bPend := pend }).setRing r (fput d RingDesc.nonpcm mask)
  let s2 := if bad = 0 then s1 else s1.depCount r 5 bad
  (if late then s2.depCount r 2 1 else s2).audioCloses r

/-- AUDIO_TILE_TIMEOUT (R189): 2 ms of PTP time after the media time of its last sample, a tile closes, begun or not. -/
def execAudioTileTimeout (ring : Fin 8192) (s0 : State) : Out :=
  let r := ring.val
  let s := s0.fresh
  let v := s.dep r
  let d := s.ring r
  match v.next with
  | none => done s
  | some k =>
    let last := (k + 1) * ringMs d - 1
    if s.now * ringHz d < last * 1000000000 + 2000000 * ringHz d then done s
    else done ((s.audioClose r).audioCloses r)

/-! ### Ancillary data (R190) and opaque packets (R192) -/

/-- The record of an RFC 8331 packet (R190). -/
def ancDataRecord (a : AncData) : List Byte :=
  ancRecord ⟨BitVec.ofNat 16 a.line, BitVec.ofNat 16 (a.off + bit a.c * 4096), a.words.map (BitVec.ofNat 10), true⟩

/-- A packet of an ST 2110-40 flow: one unit per field or frame. Packets beyond a unit's 65,536 bytes are dropped (R49) and counted in
PKT_ANC_ERR (DESIGN CHOICE, log entry 111); a packet of a unit that has closed is late. -/
def State.depAnc (r : Nat) (p : Rtp) (s : State) : State :=
  let x := BitVec.ofNat 32 (beAt p.payload 0 2 * 2 ^ 16 + p.seq.toNat)
  let (v1, new) := (s.dep r).take x
  if !new then s.depCount r 1 1 else
  let l := s.depLoc r
  let behind := match v1.ts with | some t => decide (2 ^ 31 ≤ (p.ts - t).toNat) || (t == p.ts && v1.field == 2) | none => false
  if behind then (s.setDep r v1).depCount r 2 1 else
  let s1 := s.setDep r { v1 with ts := some p.ts, field := if p.marker then 2 else 1 }
  let s2 := if v1.ts.isSome && v1.ts != some p.ts then (s1.endUnit r l).depGap r else s1
  let all := ancData (beAt p.payload 4 1) (p.payload.drop 8)
  let good (a : AncData) : Bool := ancChecksum a.words.dropLast == a.words.getLastD 0
  let bad := (all.filter (fun a => !good a)).length
  let s3 := if bad = 0 then s2 else s2.depCount r 4 bad
  let s4 := (all.filter good).foldl (fun s a =>
    let b := ancDataRecord a
    if 65536 < s.unitLen r * bit (s.wr r).unitOpen + b.length then s.depCount r 4 1 else s.feedOrOpen r l b) s3
  if p.marker then (s4.endUnit r l).depGap r else s4

/-- A packet of an ST 2110-22 flow, from its RTP header on, as one unit. -/
def State.depOpaque (r : Nat) (p : Rtp) (bytes : List Byte) (s : State) : State :=
  let v0 := s.dep r
  let (v1, new) := v0.take (v0.extend p.seq)
  if !new then s.depCount r 1 1 else
  ((s.setDep r { v1 with ts := some p.ts }).depGap r).writeUnit r (s.depLoc r) bytes

/-! ### Serial streams (R191) -/

/-- A line of a depacketiser's serial stream: the receiver aligns on the first TRS it sees. -/
def State.serialLine (r : Nat) (i : LineInfo) (s : State) : State :=
  let x := Rx.flow r
  let v := s.rx x
  match v.lock with
  | .formatLocked => s.rxLine x (some x) i
  | .cdrLocked => if i.number = 1 && i.trs then s.setRx x { v with line1Time := s.now } else s
  | _ => if i.trs then s.setRx x { v.unlocked .cdrLocked with present := true, cdr := true } else s

/-- A datagram of an ST 2022-6 flow: the lines and the frame it completes. 6G and above are not searched for (R186). -/
def State.depSerial (r : Nat) (p : Rtp) (lines : List LineInfo) (frame : Option FrameInfo) (s : State) : State :=
  let v0 := s.dep r
  let (v1, new) := v0.take (v0.extend p.seq)
  if !new then s.depCount r 1 1 else
  let s1 := (s.setDep r v1).depGap r
  let s2 := lines.foldl (fun s i => s.serialLine r i) s1
  match frame with
  | none => s2
  | some i =>
    if 4 ≤ i.link then s2
    else match (s2.rx (.flow r)).lock with
      | .formatLocked => s2.rxFrame (.flow r) i
      | .cdrLocked => s2.rxFrame (.flow r) i
      | _ => s2

/-! ### One datagram -/

/-- R177, R184: a datagram of a BOUND entry at its depacketiser. -/
def State.depacketise (r essence sub : Nat) (data : List Byte) (f : EthFrame) (s : State) : State :=
  let s1 := s.setDep r { s.dep r with src := sub }
  match parseRtp data with
  | none => s1
  | some p =>
    if s1.rxHeld (.flow r) then s1
    else match essence with
      | 0 => s1.depVideo r p f.bits8
      | 1 => s1.depAudio r false p
      | 2 => s1.depAudio r true p
      | 3 => s1.depAnc r p
      | 4 => s1.depSerial r p f.serial f.sframe
      | _ => s1.depOpaque r p data

/-- A depacketiser's open unit is abandoned and its running state begins afresh: writing resumes at the next unit start (R160,
R179). -/
def State.depStop (r : Nat) (s : State) : State :=
  let s1 := if (s.dep r).rx.lock = .noSignal then s else s.rxLose (.flow r) .noSignal false
  let s2 := s1.stopWriter r
  let v := s2.dep r
  s2.setDep r { depReset r with src := v.src, stopped := v.stopped, unsup := v.unsup, geom := v.geom, ctr := v.ctr }

end Sys2Proof.Machine
end

