-- ==== Sys2Proof/Machine/Ptp.lean ====
section
/-! DEFINITION. PTP and the local clock (R295 to R314, R422): instances and the messages they take, path delay, the servo, steps,
loss and change of the grandmaster, and the PTP commands. -/

namespace Sys2Proof.Machine

open Sys2Proof

/-! ### Accessors -/

def State.instSt (s : State) (i : Nat) : InstSt := tget instStReset s.ptp.instSt i
def State.setInst (i : Nat) (r : BitVec 256) (s : State) : State :=
  s.onPtp (fun p => { p with inst := tset instReset p.inst i r })
def State.setInstSt (i : Nat) (v : InstSt) (s : State) : State :=
  s.onPtp (fun p => { p with instSt := tset instStReset p.instSt i v })
def State.instF (i : Nat) (f : Fld) (v : Nat) (s : State) : State := s.setInst i (fput (s.inst i) f v)

/-- Whether the firmware runs. -/
def State.fwRuns (s : State) : Bool := s.pwr.bootState == .firmware

/-- Sub-port number 8n + s of an instance. -/
def instSub (r : BitVec 256) : Nat := 8 * fget r Inst.port + fget r Inst.subport

/-- A counter of R299, saturating at 32 bits. -/
def State.countInst (i k : Nat) (s : State) : State :=
  let st := s.instSt i
  s.setInstSt i { st with ctr := st.ctr.set k (satAdd 32 (st.ctr.getD k 0) 1) }

/-- Whether an instance hears messages: enabled, its sub-port UP, the firmware running (R298, R313). -/
def State.instHears (s : State) (i : Nat) : Bool :=
  fbit (s.inst i) Inst.instEn && (tget subReset s.eth.sub (instSub (s.inst i))).link == .up && s.fwRuns && !s.blockHeld 50

/-! ### The candidate and the servo's source (R299, R306, R312) -/

/-- The instance the servo should use: PTP_SEL, or under FAILOVER the lowest-numbered usable one while PTP_SEL is unusable. -/
def State.wantUsing (s : State) : Nat :=
  let sel := fget s.ptp.servo Servo.ptpSel
  if instUsable (s.inst sel) || !fbit s.ptp.servo Servo.failover then sel
  else match [0, 1, 2, 3].find? (fun i => instUsable (s.inst i)) with
    | some i => i
    | none => sel

/-- PTP_GM_CHANGE with both identities (R312). -/
def State.gmChange (old new : Nat) (s : State) : State :=
  s.raise ⟨0xEB, locPtp, true, 0, leBytes 4 0 ++ leBytes 8 old ++ leBytes 8 new⟩

/-- R312: an instance reacquires, and as the servo's instance keeps the candidate ABSENT until it is LOCKED. -/
def State.reacquire (i : Nat) (s : State) : State :=
  let s1 := (s.instF i Inst.instState 1).setInstSt i { s.instSt i with near := 0, far := 0, beyond := 0 }
  if s.ptp.using_ = i then s1.onPtp (fun p => { p with candHold := true }) else s1

/-- R312: FAILOVER moves the servo where it should be, and the candidate follows. -/
def State.chooseUsing (s : State) : State :=
  let want := s.wantUsing
  let s1 := if want = s.ptp.using_ then s else
    let old := fget (s.inst s.ptp.using_) Inst.gmId
    let s1 := s.onPtp (fun p => { p with using_ := want, candHold := false })
    if instUsable (s.inst want) then (s1.gmChange old (fget (s.inst want) Inst.gmId)).reacquire want else s1
  s1.syncCands [6]

/-- REASON of an instance (R298), and what hangs on it. -/
def State.setReason (i why : Nat) (s : State) : State := (s.instF i Inst.reason why).chooseUsing

/-- R298: an instance whose sub-port goes down is unusable with reason 4; when it returns it waits for its leader. -/
def State.instLink (sub : Nat) (up : Bool) (s : State) : State :=
  [0, 1, 2, 3].foldl (fun s i =>
    if fbit (s.inst i) Inst.instEn && instSub (s.inst i) == sub then
      s.setReason i (if up then (if (s.instSt i).parent.isSome then 2 else 1) else 4)
    else s) s

/-! ### Steps (R307 to R309) -/

/-- A step of the clock by `d` ns: it is recorded with its size, and the PTP candidate is ABSENT for that second. -/
def State.timeStep (d : Int) (s : State) : State :=
  let s1 := (s.stepClock d).raise ⟨0xED, locPtp, true, 0, leBytes 4 0 ++ leBytes 8 (unsgn 64 d)⟩
  if s1.qState 6 = 0 then s1 else s1.candDown 6

/-! ### The servo (R307) -/

/-- ±200 ppm in units of RATE. -/
def rateLimit : Int := 56294995342

/-- A gain in 2^-16 applied to the rate error -o/s, in units of RATE, with s = num / den seconds (rounded down). -/
def gainTerm (k : Nat) (o : Int) (num den : Nat) : Int := (k * (-o) * den * 2 ^ 32).fdiv (num * 1000000000)

/-- One offset `o` (ns, local minus leader) steers RATE while SERVO_EN is 1; LAST_OFFSET saturates. -/
def State.steer (o : Int) (num den : Nat) (s : State) : State :=
  let v := s.ptp.servo
  let s1 := s.onPtp (fun p => { p with servo := fputS p.servo Servo.lastOffset (clampInt (-(2 ^ 31)) (2 ^ 31 - 1) o) })
  if !fbit v Servo.servoEn then s1 else
  let integ := clampInt (-rateLimit) rateLimit (s.ptp.integ + gainTerm (fget v Servo.ki) o num den)
  let rate := clampInt (-rateLimit) rateLimit (integ + gainTerm (fget v Servo.kp) o num den)
  (s1.onPtp (fun p => { p with integ := integ })).setRate rate

/-- R311: RATE holds the integrator's value with no proportional term. -/
def State.holdRate (s : State) : State := if fbit s.ptp.servo Servo.servoEn then s.setRate s.ptp.integ else s

/-- Seconds of a log2 interval as a fraction. -/
def logFrac (l : Int) : Nat × Nat := if 0 ≤ l then (2 ^ l.toNat, 1) else (1, 2 ^ (-l).toNat)

/-- Insertion into a rising list. -/
def insertInt (x : Int) : List Int → List Int
  | [] => [x]
  | y :: l => if x ≤ y then x :: y :: l else y :: insertInt x l

/-- Median of a list; of an even number, the mean of the middle two, rounded down (DESIGN CHOICE, log entry 10). -/
def median (l : List Int) : Int :=
  let t := l.foldr insertInt []
  let n := t.length
  if n % 2 = 1 then t.getD (n / 2) 0 else (t.getD (n / 2 - 1) 0 + t.getD (n / 2) 0).fdiv 2

/-- R307: the path-delay sample of the exchange, judged against the window; none where it is an outlier. -/
def judgePath (v : BitVec 256) (st : InstSt) : Option InstSt :=
  match st.path with
  | none => some st
  | some d =>
    let lim := fget v Servo.outlier
    if lim != 0 && !st.paths.isEmpty && lim < (d - median st.paths).natAbs then none
    else some { st with path := none, paths := (d :: st.paths).take (fget v Servo.pdWindow) }

/-- The state of an instance after an offset (R307): LOCKED after 16 within LOCK_THRESH, ACQUIRING after 16 beyond four times it. -/
def State.lockRule (i : Nat) (o : Int) (s : State) : State :=
  let v := s.ptp.servo
  let th := fget v Servo.lockThresh
  let st := s.instSt i
  let near := if o.natAbs < th then min 16 (st.near + 1) else 0
  let far := if 4 * th < o.natAbs then min 16 (st.far + 1) else 0
  let s1 := s.setInstSt i { st with near := near, far := far }
  let state := fget (s.inst i) Inst.instState
  if state = 1 && near = 16 then
    let s2 := (s1.instF i Inst.instState 2).raise0 0xEA locPtp
    (if s2.ptp.using_ = i then s2.onPtp (fun p => { p with candHold := false }) else s2).chooseUsing
  else if state = 2 && far = 16 then ((s1.instF i Inst.instState 1).raiseEnd 0xEA locPtp).chooseUsing
  else s1

/-- R307: the step rules. -/
def State.stepRule (i : Nat) (o : Int) (s : State) : State :=
  let v := s.ptp.servo
  let far := fget v Servo.stepLimit * 1000 < o.natAbs
  let st := s.instSt i
  let mine := s.ptp.using_ = i && fget v Servo.servoSrc == 0 && fbit v Servo.servoEn
  let run := if far then st.beyond + 1 else 0
  let s1 := s.setInstSt i { st with firstSync := false, beyond := run }
  if !(far && mine) then s1
  else if st.firstSync || (fbit v Servo.stepEn && fget v Servo.stepPersist ≤ run) then
    (s1.setInstSt i { s1.instSt i with beyond := 0 }).timeStep (-o)
  else s1

/-- A complete Sync exchange (R307): `d` is t2 - t1 less corrections. -/
def State.exchange (i : Nat) (d : Int) (soft : Bool) (log : Int) (s0 : State) : State :=
  let s := if fget (s0.inst i) Inst.reason = 2 then s0.setReason i 0 else s0
  let st := { s.instSt i with ms := some d }
  let s := s.setInstSt i st
  if soft then s.countInst i 4
  else match judgePath s.ptp.servo st with
    | none => (s.setInstSt i { st with path := none }).countInst i 5
    | some st' =>
      if st'.paths.isEmpty then s.setInstSt i st'
      else
        let mean := meanInt st'.paths
        let o := d - mean - fsgn (s.inst i) Inst.asym
        let s1 := s.setInstSt i st'
        let mine := s.ptp.using_ = i && fget s.ptp.servo Servo.servoSrc == 0
        let (num, den) := logFrac log
        let s2 := if mine then (s1.onPtp (fun p => { p with servo := fputS p.servo Servo.meanPath mean })).steer o num den else s1
        (s2.lockRule i o).stepRule i o

/-! ### Messages -/

/-- R297: Sync and Announce intervals of a profile. -/
def syncLogOk (profile : Nat) (l : Int) : Bool :=
  match profile with
  | 0 => -7 ≤ l && l ≤ -1
  | 1 => -4 ≤ l && l ≤ 1
  | _ => -1 ≤ l && l ≤ 1
def annLogOk (profile : Nat) (l : Int) : Bool :=
  match profile with
  | 0 => -3 ≤ l && l ≤ 1
  | _ => 0 ≤ l && l ≤ 4

def State.rxCorr (s : State) (i : Nat) : Int × Int := tget corrReset s.ptp.corr (instSub (s.inst i))

/-- R305: a stamp that finds the FIFO full, or that the environment reports lost, is SOFT; PTP_TS_OVERFLOW once per second at
most for a port. -/
def State.softStamp (port : Nat) (soft : Bool) (s : State) : State :=
  let last := tget natReset s.ptp.fifoEvent port
  if soft && (last = 0 || last + 1000000000 ≤ s.now) then
    (s.onPtp (fun p => { p with fifoEvent := tset natReset p.fifoEvent port s.now })).raise0 0xEE locPtp
  else s

/-- R313: with no firmware to drain them, stamps of received event messages stay in the port's FIFO of 64. -/
def State.keepStamp (i : Nat) (s : State) : State :=
  let port := fget (s.inst i) Inst.port
  let n := tget natReset s.ptp.fifo port
  if !fbit (s.inst i) Inst.instEn || s.fwRuns then s
  else if n < 64 then s.onPtp (fun p => { p with fifo := tset natReset p.fifo port (n + 1) })
  else s.softStamp port true

/-- SYNC (R307, R297): a one-step Sync completes an exchange; a two-step one waits for its Follow_Up. -/
def execSync (i : Fin 4) (m : SyncMsg) (s0 : State) : Out :=
  let k := i.val
  let s := s0.fresh
  if !s.instHears k then done (s.keepStamp k) else
  if !syncLogOk (fget (s.inst k) Inst.profile) m.logInterval then done (s.countInst k 6) else
  let s1 := (s.countInst k 0).softStamp (fget (s.inst k) Inst.port) m.soft
  if (s1.instSt k).parent.isNone then done s1 else
  let t2 : Int := (s1.now : Int) - (s1.rxCorr k).1
  if m.twoStep then done (s1.setInstSt k { s1.instSt k with pending := some ⟨m.seq, t2, m.soft, m.corr, m.logInterval⟩ })
  else done ((s1.setInstSt k { s1.instSt k with pending := none }).exchange k (t2 - m.t1 - m.corr) m.soft m.logInterval)

/-- FOLLOW_UP (R297). -/
def execFollowUp (i : Fin 4) (seq : BitVec 16) (t1 corr : Int) (s0 : State) : Out :=
  let k := i.val
  let s := s0.fresh
  if !s.instHears k then done s else
  match (s.instSt k).pending with
  | some p =>
    if p.seq = seq then
      done ((s.setInstSt k { s.instSt k with pending := none }).exchange k (p.t2 - t1 - p.correction - corr) p.soft p.log)
    else done s
  | none => done s

/-- FOLLOW_UP_TIMEOUT (R297): the two-step Sync is discarded. -/
def execFollowUpTimeout (i : Fin 4) (s : State) : Out :=
  done (s.fresh.setInstSt i.val { s.instSt i.val with pending := none })

/-- The leader of an Announce becomes, or stays, the parent (R298, R312). -/
def State.takeParent (i : Nat) (m : AnnounceMsg) (s : State) : State :=
  let r := s.inst i
  let old := fget r Inst.gmId
  let p : Parent := ⟨m.gm, m.source, m.rank, m.logInterval, 0, m.logDelayReq, m.timescale⟩
  let s1 := (s.setInst i (fput (fput (fput r Inst.gmId m.gm.toNat) Inst.utcOffset m.utc.toNat) Inst.utcValid (bit m.utcValid))).setInstSt
    i { s.instSt i with parent := some p }
  let state := fget r Inst.instState
  let why := if !m.timescale then 3 else if fget r Inst.reason = 0 || fget r Inst.reason = 2 then fget r Inst.reason else 2
  let s2 := if state != 0 && old != m.gm.toNat then (s1.gmChange old m.gm.toNat).reacquire i
    else if state = 0 then (s1.instF i Inst.instState 1).setInstSt i { s1.instSt i with firstSync := true, near := 0, far := 0, beyond := 0 }
    else if state = 3 then s1.instF i Inst.instState 1
    else s1
  s2.setReason i why

/-- The foreign-master list of an instance (R298) with a new Announce: the latest of each leader whose announceReceiptTimeout has not run
out. -/
def State.foreignNow (s : State) (i : Nat) (m : AnnounceMsg) : List (AnnounceMsg × Nat) :=
  let live (e : AnnounceMsg × Nat) : Bool :=
    let (num, den) := logFrac e.1.logInterval
    s.now ≤ e.2 + fget (s.inst i) Inst.annTimeout * 1000000000 * num / den
  (m, s.now) :: (s.instSt i).foreign.filter (fun e => e.1.source != m.source && live e)

/-- The best master clock algorithm: the best leader of the list, the parent before others as good. Where that leader is not the parent, or
has just announced itself, it is taken. -/
def State.bestMaster (i : Nat) (m : AnnounceMsg) (s : State) : State :=
  let l := s.foreignNow i m
  let s1 := s.setInstSt i { s.instSt i with foreign := l }
  let mine (x : AnnounceMsg) : Bool := (s.instSt i).parent.any (fun p => p.port == x.source)
  let best := l.foldl (fun (b : AnnounceMsg) e => if e.1.rank < b.rank || (e.1.rank == b.rank && mine e.1) then e.1 else b) m
  if best.source = m.source || !mine best then s1.takeParent i best else s1

/-- ANNOUNCE (R312, R297): counted, judged by the profile's interval, and given to the best master clock algorithm. -/
def execAnnounce (i : Fin 4) (m : AnnounceMsg) (s0 : State) : Out :=
  let k := i.val
  let s := s0.fresh
  if !s.instHears k then done s else
  if !annLogOk (fget (s.inst k) Inst.profile) m.logInterval then done (s.countInst k 6) else
  done ((s.countInst k 1).bestMaster k m)

/-- A path-delay sample of an instance. -/
def State.pathSample (i : Nat) (d : Int) (soft : Bool) (s : State) : State :=
  let s1 := s.setInstSt i { s.instSt i with delay := none }
  if soft then s1.countInst i 4 else s1.setInstSt i { s1.instSt i with path := some d }

/-- DELAY_RESP (R307): the path delay of E2E, half the sum of both directions. -/
def execDelayResp (i : Fin 4) (seq : BitVec 16) (t4 corr : Int) (s0 : State) : Out :=
  let k := i.val
  let s := s0.fresh
  if !s.instHears k then done s else
  let s1 := s.countInst k 2
  match (s1.instSt k).delay, (s1.instSt k).ms with
  | some d, some ms =>
    if d.seq = seq && !fbit (s1.inst k) Inst.delayMech then done (s1.pathSample k ((ms + (t4 - d.sent - corr)).fdiv 2) d.soft)
    else done s1
  | _, _ => done s1

/-- A frame waits in the management class of a sub-port (R166, R169); one that is not UP loses it (R160). -/
def State.mgmtQueue (p : Nat) (m : MgmtTx) (s : State) : State :=
  let v := tget subReset s.eth.sub p
  if v.link = .up then s.onEth (fun e => { e with sub := tset subReset e.sub p { v with txq := v.txq ++ [m] } }) else s

/-- DELAY_REQ (R298, R295): a Delay_Req, or a Pdelay_Req under P2P, is made; it is stamped when it leaves (R169). Without a parent only a
Pdelay_Req at an interval of its own is. -/
def execDelayReq (i : Fin 4) (soft : Bool) (s0 : State) : Out :=
  let k := i.val
  let s := s0.fresh
  let peer := fbit (s.inst k) Inst.delayMech
  if !s.instHears k || ((s.instSt k).parent.isNone && !(peer && fget (s.inst k) Inst.delayReqLog != 127)) then done s else
  let st := s.instSt k
  let kind := if peer then 2 else 1
  done ((s.setInstSt k { st with reqSeq := st.reqSeq + 1 }).mgmtQueue (instSub (s.inst k)) (.ptp k kind st.reqSeq soft))

/-- R169, R307: a PTP message leaves. A request is counted and stamped; nothing else about an answer is kept. -/
def State.ptpLeave (i kind : Nat) (seq : BitVec 16) (soft : Bool) (s : State) : State :=
  if 3 ≤ kind || !s.instHears i then s else
  let s1 := (s.countInst i 3).softStamp (fget (s.inst i) Inst.port) soft
  s1.setInstSt i { s1.instSt i with delay := some ⟨seq, (s1.now : Int) + (s1.rxCorr i).2, 0, 0, 0, false, soft⟩ }

/-- Bytes of a PTP message's frame before its FCS, untagged: the message, and its UDP, IP and Ethernet headers; over IPv6 two bytes
extend the datagram (PRESUMED, log entry 124). -/
def ptpBytes (r : BitVec 256) (kind : Nat) : Nat :=
  14 + (match fget r Inst.transport with | 0 => 0 | 1 => 28 | _ => 50) + (if kind = 1 then 44 else 54)

/-- PDELAY_REQ (R297): a received Pdelay_Req is answered as a two-step responder. -/
def execPdelayReq (i : Fin 4) (seq : BitVec 16) (soft : Bool) (s0 : State) : Out :=
  let k := i.val
  let s := s0.fresh
  if !s.instHears k then done (s.keepStamp k)
  else if !fbit (s.inst k) Inst.delayMech then done s
  else
    let p := instSub (s.inst k)
    done (((s.softStamp (fget (s.inst k) Inst.port) soft).mgmtQueue p (.ptp k 3 seq false)).mgmtQueue p (.ptp k 4 seq false))

/-- PDELAY_RESP (R297). -/
def execPdelayResp (i : Fin 4) (seq : BitVec 16) (t2 corr : Int) (soft : Bool) (s0 : State) : Out :=
  let k := i.val
  let s := s0.fresh
  if !s.instHears k then done s else
  let s1 := s.softStamp (fget (s.inst k) Inst.port) soft
  match (s1.instSt k).delay with
  | some d =>
    if d.seq = seq && fbit (s1.inst k) Inst.delayMech then
      done (s1.setInstSt k { s1.instSt k with
        delay := some { d with t2 := t2, t4 := (s1.now : Int) - (s1.rxCorr k).1, corr := corr, answered := true, soft := d.soft || soft } })
    else done s1
  | none => done s1

/-- PDELAY_RESP_FOLLOW_UP (R297): a peer-delay sample. -/
def execPdelayRespFollowUp (i : Fin 4) (seq : BitVec 16) (t3 corr : Int) (s0 : State) : Out :=
  let k := i.val
  let s := s0.fresh
  if !s.instHears k then done s else
  match (s.instSt k).delay with
  | some d =>
    if d.seq = seq && d.answered then
      done (s.pathSample k ((d.t4 - d.sent - (t3 - d.t2) - d.corr - corr).fdiv 2) d.soft)
    else done s
  | none => done s

/-- PTP_MANAGEMENT_MESSAGE (R296): counted and ignored. -/
def execPtpManagementMessage (i : Fin 4) (s0 : State) : Out :=
  let k := i.val
  let s := s0.fresh
  if !s.instHears k then done s
  else done (s.setInstSt k { s.instSt k with ignored := satAdd 32 (s.instSt k).ignored 1 })

/-- R311: an instance loses its parent. -/
def State.loseParent (i why : Nat) (s : State) : State :=
  let state := fget (s.inst i) Inst.instState
  if !fbit (s.inst i) Inst.instEn || !s.fwRuns || state = 0 || state = 3 then s else
  let s1 := ((s.instF i Inst.instState 3).setInstSt i { s.instSt i with parent := none, pending := none, near := 0, far := 0 }).raise0
    0xEC locPtp
  let s2 := if s.ptp.using_ = i && fget s.ptp.servo Servo.servoSrc = 0 then s1.holdRate else s1
  s2.setReason i why

/-- ANNOUNCE_TIMEOUT (R311). -/
def execAnnounceTimeout (i : Fin 4) (s : State) : Out := done (s.fresh.loseParent i.val 1)

/-- SYNC_TIMEOUT (R311). -/
def execSyncTimeout (i : Fin 4) (s : State) : Out := done (s.fresh.loseParent i.val 2)

/-- ENGINE_TIME_READING (R307): with SERVO_SRC 1, PTP time follows engine time, one reading a second. -/
def execEngineTimeReading (s0 : State) : Out :=
  let s := s0.fresh
  if fget s.ptp.servo Servo.servoSrc != 1 || s.blockHeld 50 then done s
  else done (s.steer ((s.now : Int) - (s.time.engine / 2 ^ 48 : Nat)) 1 1)

/-- RTC_SEC written: RTC_SUB restarts at 0 (R466). -/
def State.writeRtc (sec : Nat) (s : State) : State :=
  (s.onPwr (fun p => { p with aon := fput (fput p.aon Aon.rtcSec sec) Aon.rtcSub 0 })).onTime (fun t => { t with xtal := 0 })

/-- RTC_UPDATE (R302): once per minute while the servo's instance is LOCKED. -/
def execRtcUpdate (s0 : State) : Out :=
  let s := s0.fresh
  if s.fwRuns && fget (s.inst s.ptp.using_) Inst.instState == 2 && fbit (s.inst s.ptp.using_) Inst.instEn then
    done (s.writeRtc (s.now / 1000000000))
  else done s

/-- PTP_CLOCK_FAULT (R314): fatal. -/
def execPtpClockFault (s : State) : Out := done (s.fresh.raise0 0xEF locPtp)

/-! ### Commands -/

/-- Whether SPLIT creates a sub-port of a port (R157). -/
def State.subExists (s : State) (n sub : Nat) : Bool := splitLanes (fget (tget ethReset s.eth.port n) EthPort.split) sub != 0

def ptpInstWriteCheck (q : Req) (s : State) : Except Err (Nat × BitVec 256) := do
  let i ← Req.index q 4
  Req.noTarget q
  let old := s.inst i
  let more (r : BitVec 256) : Option Nat := if s.subExists (fget r Inst.port) (fget r Inst.subport) then none else some 0
  let new ← writeRecordX q Inst.layout old (fixedIf (fbit old Inst.instEn) Inst.layout) more
  if fbit new Inst.instEn && s.inEconomy && 2 ≤ fget new Inst.port then errBudget 0x60 1 0
  return (i, new)

/-- The record taken on: an enabled instance listens, a disabled one forgets its parent. -/
def ptpInstWriteDo (i : Nat) (new : BitVec 256) (s : State) : State :=
  let old := s.inst i
  let s1 := s.setInst i new
  let fresh (st : InstSt) : InstSt := { instStReset 0 with ctr := st.ctr }
  if fbit new Inst.instEn && !fbit old Inst.instEn then
    let up := (tget subReset s.eth.sub (instSub new)).link == .up
    ((s1.setInstSt i (fresh (s.instSt i))).instF i Inst.instState 0).setReason i (if up then 1 else 4)
  else if !fbit new Inst.instEn && fbit old Inst.instEn then
    let s2 := (s1.setInstSt i (fresh (s.instSt i))).setInst i
      (fput (fput (fput (fput new Inst.instState 0) Inst.gmId 0) Inst.utcOffset 0) Inst.utcValid 0)
    (if s.ptp.using_ = i && fget s.ptp.servo Servo.servoSrc = 0 then s2.holdRate else s2).setReason i 5
  else s1

def cmdPtpInstWrite (q : Req) (s : State) : Res := do
  let (i, new) ← ptpInstWriteCheck q s
  let t := ptpInstWriteDo i new s
  return (t, recBytes (t.inst i))

/-- PTP_INST_WRITE (R298, R422). -/
def execPtpInstWrite (q : Req) (s : State) : Out := serve 0x0A00 cmdPtpInstWrite q s

def ptpServoWriteCheck (q : Req) (s : State) : Except Err (BitVec 256) := do
  let _ ← Req.index q 1
  Req.noTarget q
  let old := s.ptp.servo
  writeRecord q Servo.layout old (fixedIf (fbit old Servo.servoEn) Servo.layout)

/-- The record taken on; a new PTP_SEL moves the servo without an event of its own (log entry 11). -/
def ptpServoWriteDo (new : BitVec 256) (s : State) : State :=
  let s1 := s.onPtp (fun p => { p with servo := new })
  let s2 := if fget new Servo.ptpSel = fget s.ptp.servo Servo.ptpSel then s1
    else s1.onPtp (fun p => { p with using_ := fget new Servo.ptpSel, candHold := false })
  s2.chooseUsing

def cmdPtpServoWrite (q : Req) (s : State) : Res := do
  let new ← ptpServoWriteCheck q s
  let t := ptpServoWriteDo new s
  return (t, recBytes t.ptp.servo)

/-- PTP_SERVO_WRITE (R306, R422). -/
def execPtpServoWrite (q : Req) (s : State) : Out := serve 0x0A01 cmdPtpServoWrite q s

def ptpTsCorrCheck (q : Req) (s : State) : Except Err Nat := do
  needAt (Req.u8 q 0 < 4) 0
  needAt (s.subExists (Req.u8 q 0) (Req.u8 q 1)) 1
  Req.zeroAt q 2 2
  Req.layout q 8
  return 8 * Req.u8 q 0 + Req.u8 q 1

def cmdPtpTsCorr (q : Req) (s : State) : Res := do
  let sub ← ptpTsCorrCheck q s
  return (s.onPtp (fun p => { p with corr := tset corrReset p.corr sub (sgn 16 (Req.u16 q 4), sgn 16 (Req.u16 q 6)) }), [])

/-- PTP_TS_CORR (R303, R422). -/
def execPtpTsCorr (q : Req) (s : State) : Out := serve 0x0A02 cmdPtpTsCorr q s

def ptpSetTimeCheck (q : Req) (s : State) : Except Err Unit := do
  needAt (Req.u64 q 0 < 2 ^ 48) 0
  needAt (Req.u32 q 8 < 1000000000) 8
  Req.layout q 12
  need (!([0, 1, 2, 3].any (fun i => fget (s.inst i) Inst.instState == 1 || fget (s.inst i) Inst.instState == 2))) eState
  need (fget s.ptp.servo Servo.servoSrc == 0) eState

/-- R309: the clock reads exactly SECONDS and NS now; then as a step (R308). -/
def ptpSetTimeDo (ns : Nat) (s : State) : State :=
  let d := (ns : Int) - s.now
  let s1 := (s.onTime (fun t => { t with offset := ns * 2 ^ 32, base := t.clk })).raise
    ⟨0xED, locPtp, true, 0, leBytes 4 0 ++ leBytes 8 (unsgn 64 d)⟩
  if s1.qState 6 = 0 then s1 else s1.candDown 6

def cmdPtpSetTime (q : Req) (s : State) : Res := do
  ptpSetTimeCheck q s
  return (ptpSetTimeDo (Req.u64 q 0 * 1000000000 + Req.u32 q 8) s, [])

/-- PTP_SET_TIME (R309, R422). -/
def execPtpSetTime (q : Req) (s : State) : Out := serve 0x0A03 cmdPtpSetTime q s

/-- A clock reading: seconds, ns and fraction (R300). -/
def State.reading (s : State) : List Byte :=
  leBytes 8 (s.now / 1000000000) ++ leBytes 4 (s.now % 1000000000) ++ leBytes 4 (s.now32 % 2 ^ 32)

def cmdPtpRead (q : Req) (s : State) : Res := do
  let (i, clear) ← readArgs q 5
  if i = 4 then return (s, recBytes s.ptp.servo ++ s.reading)
  else
    let c := s.rxCorr i
    let res := recBytes (s.inst i) ++ (s.instSt i).ctr.flatMap (leBytes 4) ++ leBytes 2 (unsgn 16 c.1) ++ leBytes 2 (unsgn 16 c.2)
    return (if clear then s.setInstSt i { s.instSt i with ctr := List.replicate 7 0 } else s, res)

/-- PTP_READ (R422). -/
def execPtpRead (q : Req) (s : State) : Out := serve 0x0A04 cmdPtpRead q s

end Sys2Proof.Machine
end

