-- ==== Sys2Proof/Machine/Eth.lean ====
section
/-! DEFINITION. Media ports and sub-ports (R157 to R174): links, counters, pause and its watchdog, the management class, and the
commands ETH_WRITE, ETH_ADDR_WRITE and PORT_SNAPSHOT. Sub-port s of port Mn has the number 8n + s. -/

namespace Sys2Proof.Machine

open Sys2Proof

/-! ### Ports and sub-ports -/

def State.ethPort (s : State) (n : Nat) : BitVec 256 := tget ethReset s.eth.port n
def State.ethAddr (s : State) (p : Nat) : BitVec 256 := tget ethAddrReset s.eth.addr p
def State.sub (s : State) (p : Nat) : SubSt := tget subReset s.eth.sub p
def State.setSub (p : Nat) (v : SubSt) (s : State) : State := s.onEth (fun e => { e with sub := tset subReset e.sub p v })

/-- The block-reset bit of a port (R473). -/
def ethBlock (n : Nat) : Nat := 36 + n

/-- Lanes of a sub-port, and its first lane (R157). -/
def State.subLanes (s : State) (p : Nat) : Nat := splitLanes (fget (s.ethPort (p / 8)) EthPort.split) (p % 8)
def State.subLane0 (s : State) (p : Nat) : Nat := s.subLanes p * (p % 8)

/-- Location of a sub-port's events: its first lane (DEDUCED, log entry 24). -/
def State.locSub (s : State) (p : Nat) : Nat := locEth (p / 8) (s.subLane0 p)

def State.subUp (s : State) (p : Nat) : Bool := (s.sub p).link == .up

/-- Counter `k` of R173 advances, modulo 2^64. -/
def State.ethCount (p k n : Nat) (s : State) : State :=
  let i := 96 * (p / 8) + 12 * (p % 8) + k
  s.onEth (fun e => { e with ctr := tset zero64 e.ctr i (tget zero64 e.ctr i + BitVec.ofNat 64 n) })

/-- The 96 counters of a port as they are read: zero beyond its split. -/
def State.ethCounters (s : State) (n : Nat) : List (BitVec 64) :=
  (List.range 96).map (fun i => if s.subExists n (i / 12) then tget zero64 s.eth.ctr (96 * n + i) else 0)

/-- Codeword counts of a sub-port's lanes (R173). -/
def State.fecCount (p : Nat) (l : List (Nat × Nat)) (s : State) : State :=
  (l.take (s.subLanes p)).zipIdx.foldl (fun s x =>
    let i := 8 * (p / 8) + s.subLane0 p + x.2
    let c := tget fecReset s.eth.fec i
    s.onEth (fun e => { e with fec := tset fecReset e.fec i (sat32 c.1 x.1.1, sat32 c.2 x.1.2) })) s

/-! ### Links (R159, R160) -/

/-- The rings whose depacketiser a sub-port fed last. -/
def State.fedBy (s : State) (p : Nat) : List Nat :=
  ((s.flo.table.filter (fun f => isBound f && (s.dep (flowRing f)).src == p && (s.dep (flowRing f)).seq.isSome)).map flowRing).eraseDups

/-- R160: a sub-port leaves UP, for DOWN or TRAINING. ETH_LINK_DOWN follows for either, a cleared PORT_EN included (DESIGN CHOICE, log
entry 125: R160 raises it for its three causes). -/
def State.subLeave (p : Nat) (to_ : LinkUp) (s : State) : State :=
  let v := s.sub p
  let s1 := s.setSub p { v with link := to_ }
  if v.link != .up then s1
  else
    let s2 := (s.fedBy p).foldl (fun s r => s.depStop r) ((s1.setSub p { v with link := to_, rxq := [], txq := [], fecBad := [] }).onCtl
      (fun c => { c with inband := c.inband.filter (fun x => x.sub != p) }))
    (s2.instLink p false).raise0 0xA1 (s2.locSub p)

/-- SUBPORT_TRAINED (R159, R160). -/
def execSubportTrained (p : Fin 32) (s0 : State) : Out :=
  let k := p.val
  let s := s0.fresh
  if (s.sub k).link != .training || s.subLanes k == 0 then done s
  else done (((s.setSub k { s.sub k with link := .up }).instLink k true).raise0 0xA0 (s.locSub k))

/-- SUBPORT_LINK_LOSS (R160), with the codeword counts of its lanes since the last frame. -/
def execSubportLinkLoss (p : Fin 32) (fec : List (Nat × Nat)) (s0 : State) : Out :=
  let k := p.val
  let s := s0.fresh
  if !s.subUp k then done s
  else
    let s1 := s.fecCount k fec
    let s2 := if fec.any (fun x => x.2 != 0) then s1.raise0 0xA2 (locEth (k / 8) 9) else s1
    done (s2.subLeave k .training)

/-! ### Pause and PFC (R170 to R172) -/

/-- Whether a hold is in force. -/
def Hold802.on (h : Hold802) (now : BitVec 64) : Bool := match h.until_ with | some t => decide (now < t) | none => false

/-- Whether pause frames for the class are being ignored. -/
def Hold802.ignores (h : Hold802) (now : BitVec 64) : Bool := match h.ignore with | some t => decide (now < t) | none => false

/-- A pause of so many ns: 0 releases the hold. -/
def Hold802.pause (ns : Nat) (now : BitVec 64) (h : Hold802) : Hold802 :=
  if h.ignores now then h
  else if ns = 0 then { h with until_ := none }
  else { h with until_ := some (now + BitVec.ofNat 64 ns), since := if h.on now then h.since else now }

/-- Counter values of a millisecond. -/
def fecWindow : Nat := 1000000

/-- R160: uncorrectable codewords join those of the last millisecond. -/
def State.fecRecent (p n : Nat) (s : State) : State :=
  let v := s.sub p
  let kept := v.fecBad.filter (fun x => (s.time.clk - x.1).toNat < fecWindow)
  s.setSub p { v with fecBad := if n = 0 then kept else kept ++ [(s.time.clk, n)] }

/-- R160: more than 100 of them take the sub-port out of UP. -/
def State.fecFails (s : State) (p : Nat) : Bool := decide (100 < ((s.sub p).fecBad.map (·.2)).sum)

/-- ns of some quanta of 512 bit times at the sub-port's MAC rate. -/
def State.quantaNs (s : State) (p quanta : Nat) : Nat := cdiv (quanta * 512) (100 * max 1 (s.subLanes p))

/-- A change to the holds of media priorities. -/
def onPriorities (l : List Nat) (f : Nat → Hold802 → Hold802) (t : Tab Hold802) : Tab Hold802 :=
  l.foldl (fun t k => tset holdAt t k (f k (tget holdAt t k))) t

def prios : List Nat := [0, 1, 2, 3, 4, 5, 6, 7]

/-- PAUSE_FRAME (R170, R171). It is counted in PAUSE_RX alone, not in RX_FRAMES and RX_OCTETS (DESIGN CHOICE, log entry 126). -/
def execPauseFrame (p : Fin 32) (quanta : BitVec 16) (s0 : State) : Out :=
  let k := p.val
  let s := s0.fresh
  if !s.subUp k then done s else
  let s1 := s.ethCount k 10 1
  let r := s.ethPort (k / 8)
  if fbit r EthPort.pfcMode then done s1 else
  let ns := s.quantaNs k quanta.toNat
  let v := s1.sub k
  done (s1.setSub k { v with
    mgmtHold := v.mgmtHold.pause ns s.time.clk
    mediaHold := if fbit r EthPort.pauseMedia then onPriorities prios (fun _ h => h.pause ns s.time.clk) v.mediaHold else v.mediaHold })

/-- PFC_FRAME (R170, R171): `enable` has a bit and `quanta` a timer for each priority. Counted as a PAUSE frame
is (log entry 126). -/
def execPfcFrame (p : Fin 32) (enable : BitVec 8) (quanta : List (BitVec 16)) (s0 : State) : Out :=
  let k := p.val
  let s := s0.fresh
  if !s.subUp k then done s else
  let s1 := s.ethCount k 10 1
  let r := s.ethPort (k / 8)
  if !fbit r EthPort.pfcMode then done s1 else
  let ns (i : Nat) : Nat := s.quantaNs k (quanta.getD i 0).toNat
  let pcp := fget r EthPort.mgmtPcp
  let v := s1.sub k
  done (s1.setSub k { v with
    mgmtHold := if enable.getLsbD pcp then v.mgmtHold.pause (ns pcp) s.time.clk else v.mgmtHold
    mediaHold := if fbit r EthPort.pauseMedia then
        onPriorities (prios.filter (fun i => enable.getLsbD i)) (fun i h => h.pause (ns i) s.time.clk) v.mediaHold
      else v.mediaHold })

/-- The holds of a class changed alike. -/
def SubSt.onClass (media : Bool) (f : Hold802 → Hold802) (v : SubSt) : SubSt :=
  if media then { v with mediaHold := onPriorities prios (fun _ h => f h) v.mediaHold } else { v with mgmtHold := f v.mgmtHold }

/-- The holds of a class. -/
def SubSt.classHolds (media : Bool) (v : SubSt) : List Hold802 := if media then prios.map (tget holdAt v.mediaHold) else [v.mgmtHold]

/-- PAUSE_HOLD_END (R170): quanta that have run out. -/
def execPauseHoldEnd (p : Fin 32) (media : Bool) (s0 : State) : Out :=
  let k := p.val
  let s := s0.fresh
  done (s.setSub k ((s.sub k).onClass media (fun h => if h.on s.time.clk then h else { h with until_ := none })))

/-- R172: a hold has lasted PAUSE_WD by now: its timer did not run out before. -/
def Hold802.broken (wd : Nat) (now : BitVec 64) (h : Hold802) : Bool :=
  match h.until_ with
  | some t => decide (wd ≤ (t - h.since).toNat) && decide (wd ≤ (now - h.since).toNat)
  | none => false

/-- PAUSE_WATCHDOG_EXPIRY (R172): where a hold of the class has lasted PAUSE_WD without a break, every hold of the class ends, and pause is
ignored for it for one period (DEDUCED, log entry 127: the media class of several priorities). -/
def execPauseWatchdogExpiry (p : Fin 32) (media : Bool) (s0 : State) : Out :=
  let k := p.val
  let s := s0.fresh
  let wd := fget (s.ethPort (k / 8)) EthPort.pauseWd * 1000
  let now := s.time.clk
  if !((s.sub k).classHolds media).any (Hold802.broken wd now) then done s
  else
    let s1 := s.setSub k ((s.sub k).onClass media (fun h => { h with until_ := none, ignore := some (now + BitVec.ofNat 64 wd) }))
    done ((s1.ethCount k 11 1).raise ⟨0xA3, s.locSub k, true, 0, leBytes 1 (k % 8) ++ leBytes 1 (bit media)⟩)

/-- PAUSE_IGNORE_END (R172). -/
def execPauseIgnoreEnd (p : Fin 32) (media : Bool) (s0 : State) : Out :=
  let k := p.val
  let s := s0.fresh
  done (s.setSub k ((s.sub k).onClass media (fun h => if h.ignores s.time.clk then h else { h with ignore := none })))

/-! ### Management frames out (R166, R169) -/

/-- The tag of a management frame: of the VLAN it names, else of MGMT_VID unless that is 0 (R166). -/
def State.mgmtTag (s : State) (p : Nat) (vid : Option Nat) : Option (BitVec 16) :=
  let r := s.ethPort (p / 8)
  let v := vid.getD (fget r EthPort.mgmtVid)
  if vid.isNone && v = 0 then none else some (BitVec.ofNat 16 (fget r EthPort.mgmtPcp * 2 ^ 13 + v))

/-- A frame with its tag. -/
def tagged (tag : Option (BitVec 16)) (frame : List Byte) : List Byte :=
  match tag with
  | some t => frame.take 12 ++ beBytes 2 0x8100 ++ beBytes 2 t.toNat ++ frame.drop 12
  | none => frame

/-- A frame of so many bytes before tag and FCS leaves: it is counted as padded to 64 bytes (R164, R173). -/
def State.mgmtCount (p : Nat) (tag : Option (BitVec 16)) (n : Nat) (s : State) : State :=
  (s.ethCount p 8 1).ethCount p 9 (max 64 (n + (if tag.isSome then 4 else 0) + 4))

/-- A frame of the management class leaves (R166, R169). -/
def State.mgmtLeave (p : Nat) (m : MgmtTx) (s : State) : State :=
  match m with
  | .report vid bytes =>
    let tag := s.mgmtTag p vid
    let frame := tagged tag bytes
    (s.mgmtCount p tag bytes.length).emit (.mgmt p (fitBytes (max 60 frame.length) frame))
  | .ptp i kind seq soft =>
    let tag := s.mgmtTag p none
    ((s.mgmtCount p tag (ptpBytes (s.inst i) kind)).ptpLeave i kind seq soft).emit
      (.ptp i kind seq tag (kind == 1 && fbit (s.inst i) Inst.delayUnicast))

/-- Bytes of an in-band datagram's frame before tag and FCS: an IPv4 sender is a number of 48 bits (PRESUMED, log entry 124). -/
def inbandBytes (x : InBand) : Nat := 14 + (if x.sender < 2 ^ 48 then 28 else 48) + x.bytes.length

/-- An in-band datagram leaves. -/
def State.inbandLeave (x : InBand) (s : State) : State :=
  let tag := s.mgmtTag x.sub none
  (s.mgmtCount x.sub tag (inbandBytes x)).emit (.inband x.sub tag x.sender x.bytes)

/-- MGMT_FRAME_SEND (R169): the gap of the media schedule has come. Reports and PTP messages go before what waits in band (DESIGN CHOICE,
log entry 124: the spec orders none). -/
def execMgmtFrameSend (p : Fin 32) (s0 : State) : Out :=
  let k := p.val
  let s := s0.fresh
  let v := s.sub k
  if !s.subUp k || v.mgmtHold.on s.time.clk then done s else
  match v.txq, s.ctl.inband.find? (fun x => x.sub == k) with
  | m :: rest, _ => done ((s.setSub k { v with txq := rest }).mgmtLeave k m)
  | [], some x => done ((s.onCtl (fun c => { c with inband := c.inband.eraseP (fun y => y.sub == k) })).inbandLeave x)
  | [], none => done s

/-! ### ETH_WRITE (R161, R163) -/

/-- Samples of an audio packet by PTIME, at a rate. -/
def ptimeSamples (hz ptime : Nat) : Nat := hz / (match ptime with | 0 => 1000 | 1 => 4000 | _ => 8000)

/-- Media bytes of a flow's largest packet (R195). The rate of an audio flow is 96 kHz at most. -/
def pktMedia (r : BitVec 256) (hz : Nat) : Nat :=
  match fget r PktFlow.essence with
  | 1 => (fget r PktFlow.txChannels + 1) * ptimeSamples hz (fget r PktFlow.ptime) * (if fbit r PktFlow.txL16 then 2 else 3)
  | 2 => (fget r PktFlow.txChannels + 1) * ptimeSamples hz (fget r PktFlow.ptime) * 4
  | 4 => 1376
  | _ => fget r PktFlow.pktPayload

/-- RTP and payload headers by ESSENCE: ST 2110-20 has 2 + 6 bytes, RFC 8331 and ST 2022-6 have 8. -/
def pktHeads (essence : Nat) : Nat := match essence with | 0 => 20 | 3 => 20 | 4 => 20 | _ => 12

/-- Bytes of the second and third sample row data headers that a packet may carry in BPM (R186). -/
def bpmHeads (r : BitVec 256) : Nat := if fget r PktFlow.essence = 0 && fbit r PktFlow.bpm then 12 else 0

/-- Length of a flow's largest frame, FCS included (R164, R195). -/
def pktFrame (r : BitVec 256) (hz : Nat) : Nat :=
  max 64 (fget r PktFlow.hdrLen + 4 + pktHeads (fget r PktFlow.essence) + bpmHeads r + pktMedia r hz)

/-- Rate of the audio ring that feeds a flow, 48 kHz where none does. -/
def State.pktHz (s : State) (r : BitVec 256) : Nat :=
  let k := fget r PktFlow.component - 2
  let e := s.routeA (fget r PktFlow.output)
  if audEn e k then ringHz (s.ring (audRing e k)) else 48000

/-- The largest frame of the enabled flows of a port. -/
def State.portFrame (s : State) (n : Nat) : Nat :=
  ((s.flo.pkt.filter (fun e => fbit e.2 PktFlow.flowEn && fget e.2 PktFlow.port == n)).map (fun e => pktFrame e.2 (s.pktHz e.2))).foldl max 0

def ethWriteCheck (q : Req) (s : State) : Except Err (Nat × BitVec 256) := do
  let n ← Req.index q 4
  Req.noTarget q
  let old := s.ethPort n
  let more (r : BitVec 256) : Option Nat := if fget r EthPort.maxFrame < s.portFrame n then some 2 else none
  let new ← writeRecordX q EthPort.layout old (fixedIf (fbit old EthPort.portEn) EthPort.layout) more
  need (!(fbit new EthPort.portEn && !fbit old EthPort.portEn && (List.range 8).any (fun j => s.underTest (mediaTest (8 * n + j))))) eBusy
  if 2 ≤ n && s.inEconomy && fbit new EthPort.portEn && !fbit old EthPort.portEn then errBudget 0x60 1 0
  return (n, new)

/-- Every sub-port of an enabled port starts training (R159). -/
def State.portTrain (n : Nat) (s : State) : State :=
  (List.range 8).foldl (fun s i =>
    if s.subExists n i && !s.blockHeld (ethBlock n) then s.setSub (8 * n + i) { s.sub (8 * n + i) with link := .training } else s) s

/-- PORT_EN cleared: each sub-port goes DOWN, and one that was UP raises ETH_LINK_DOWN (DESIGN CHOICE, log entry 125). -/
def State.portStop (n : Nat) (s : State) : State := (List.range 8).foldl (fun s i => s.subLeave (8 * n + i) .down) s

/-- R171: with PAUSE_MEDIA 0 nothing holds the media class of the port. -/
def State.mediaFree (n : Nat) (pauseMedia : Bool) (s : State) : State :=
  if pauseMedia then s
  else (List.range 8).foldl (fun s i => s.setSub (8 * n + i) ((s.sub (8 * n + i)).onClass true (fun h => { h with until_ := none }))) s

def ethWriteDo (n : Nat) (new : BitVec 256) (s0 : State) : State :=
  let old := s0.ethPort n
  let s := if fbit old EthPort.portEn && !fbit new EthPort.portEn then s0.portStop n else s0
  let s1 := s.onEth (fun e => { e with port := tset ethReset e.port n new })
  let s2 := if fbit new EthPort.portEn && !fbit old EthPort.portEn then s1.portTrain n else s1
  if fbit new EthPort.pauseMedia != fbit old EthPort.pauseMedia then (s2.mediaFree n (fbit new EthPort.pauseMedia)).reboundAll else s2

def cmdEthWrite (q : Req) (s : State) : Res := do
  let (n, new) ← ethWriteCheck q s
  return (ethWriteDo n new s, recBytes new)

/-- ETH_WRITE (R161, R429). -/
def execEthWrite (q : Req) (s : State) : Out := serve 0x1101 cmdEthWrite q s

/-! ### ETH_ADDR_WRITE (R162), PORT_SNAPSHOT (R174) -/

/-- R162: the group bit of a MAC address, the low bit of its first byte. -/
def macGroup (mac : Nat) : Bool := maskBit mac 40

def ethAddrWriteCheck (q : Req) (s : State) : Except Err (Nat × BitVec 256) := do
  let p ← Req.index q 32
  Req.noTarget q
  let old := s.ethAddr p
  let more (r : BitVec 256) : Option Nat := if macGroup (fget r EthAddr.macAddr) then some 0 else none
  let new ← writeRecordX q EthAddr.layout old (fixedIf (fbit (s.ethPort (p / 8)) EthPort.portEn) EthAddr.layout) more
  return (p, new)

def cmdEthAddrWrite (q : Req) (s : State) : Res := do
  let (p, new) ← ethAddrWriteCheck q s
  return (s.onEth (fun e => { e with addr := tset ethAddrReset e.addr p new }), recBytes new)

/-- ETH_ADDR_WRITE (R162, R429). -/
def execEthAddrWrite (q : Req) (s : State) : Out := serve 0x1102 cmdEthAddrWrite q s

def State.bank (s : State) (n : Nat) : Bank := tget bankReset s.eth.bank n

/-- The counters of the named ports copied to their shadow banks, with one stamp. -/
def State.snapshot (ports : List Nat) (s : State) : State :=
  ports.foldl (fun t n => t.onEth (fun e => { e with
    bank := tset bankReset e.bank n ⟨(s.bank n).seq + 1, s.now, s.ethCounters n⟩ })) s

def portSnapshotCheck (q : Req) : Except Err (List Nat) := do
  Req.layout q 1
  needAt (Req.u8 q 0 < 16) 0
  return maskList 4 (Req.u8 q 0)

def cmdPortSnapshot (q : Req) (s : State) : Res := do
  let ports ← portSnapshotCheck q
  let t := s.snapshot ports
  return (t, (List.range 4).flatMap (fun n => leBytes 4 (t.bank n).seq.toNat) ++ leBytes 8 s.now)

/-- PORT_SNAPSHOT (R174, R429). -/
def execPortSnapshot (q : Req) (s : State) : Out := serve 0x1105 cmdPortSnapshot q s

end Sys2Proof.Machine
end

