-- ==== Sys2Proof/Machine/Flow.lean ====
section
/-! DEFINITION. The flow table (R175 to R183): keys and lookup, insertion by cuckoo placement, status, multicast membership, and
the FLOW commands on entries and ingest records. -/

namespace Sys2Proof.Machine

open Sys2Proof

/-! ### Keys (R176, R177) -/

/-- The fields of an entry that make its key: those outside its combination are ignored. -/
structure Key where
  v6 : Bool
  dst : Nat
  port : Nat
  src : Option Nat
  vid : Option Nat
  sub : Option Nat
  deriving DecidableEq, Repr

def entrySub (e : BitVec 384) : Nat := 8 * fget e FlowEntry.port + fget e FlowEntry.subport

def keyOf (e : BitVec 384) : Key :=
  ⟨fbit e FlowEntry.family, fget e FlowEntry.dstAddr, fget e FlowEntry.dstPort,
    if fbit e FlowEntry.useSrc then some (fget e FlowEntry.srcAddr) else none,
    if fbit e FlowEntry.useVid then some (fget e FlowEntry.vid) else none,
    if fbit e FlowEntry.usePort then some (entrySub e) else none⟩

def sameKey (a b : BitVec 384) : Bool := keyOf a == keyOf b

/-- Weight of an entry (R177). -/
def keyWeight (e : BitVec 384) : Nat := 4 * bit (fbit e FlowEntry.useSrc) + 2 * bit (fbit e FlowEntry.useVid) + bit (fbit e FlowEntry.usePort)

/-- Whether a packet's fields match an entry. -/
def keyMatches (k p : Key) : Bool :=
  k.v6 == p.v6 && k.dst == p.dst && k.port == p.port && (k.src.isNone || k.src == p.src) && (k.vid.isNone || k.vid == p.vid) &&
    (k.sub.isNone || k.sub == p.sub)

/-- R177: the matching entry of highest weight. -/
def State.flowLookup (s : State) (p : Key) : Option Flow :=
  (s.flo.table.filter (fun f => !f.bad && keyMatches (keyOf f.key) p)).foldl (fun best f =>
    match best with
    | some b => if keyWeight b.key < keyWeight f.key then some f else best
    | none => some f) none

/-! ### Places (R175, R179) -/

/-- Number of a place: way by way, the stash last. -/
def placeIndex : FlowPlace → Nat
  | .way w row => 65536 * w + row % 65536
  | .stash i => 262144 + i

/-- Location of the classifier that holds an entry (R175); the stash is reported in Q0 (DEDUCED, log entry 25). -/
def locFlow : FlowPlace → Nat
  | .way w _ => loc w 9 10
  | .stash _ => loc 0 9 10

/-- The key fields of an entry alone, which its places hash from. -/
def hashKey (e : BitVec 384) : BitVec 384 :=
  let z (use : Fld) (l : List Fld) (r : BitVec 384) : BitVec 384 := if fbit e use then r else l.foldl (fun r f => fput r f 0) r
  z FlowEntry.useSrc [FlowEntry.srcAddr] (z FlowEntry.useVid [FlowEntry.vid] (z FlowEntry.usePort [FlowEntry.port, FlowEntry.subport]
    ([FlowEntry.typeF, FlowEntry.action, FlowEntry.join, FlowEntry.essence, FlowEntry.ring, FlowEntry.declRate, FlowEntry.absentTime].foldl
      (fun r f => fput r f 0) e)))

/-- The four candidates of a key. -/
def candPlaces (e : BitVec 384) : List FlowPlace := [0, 1, 2, 3].map (fun w => .way w (Config.flowHash w (hashKey e) % 65536))

def isFree (t : List Flow) (p : FlowPlace) : Bool := !t.any (fun f => f.place == p)

/-- The table with an entry at its place, by rising place. -/
def putFlow (f : Flow) : List Flow → List Flow
  | [] => [f]
  | g :: l => if placeIndex f.place < placeIndex g.place then f :: g :: l else g :: putFlow f l

def dropFlow (p : FlowPlace) (t : List Flow) : List Flow := t.filter (fun f => f.place != p)

/-- Placement with at most `fuel` displacements: the first free candidate, else the occupant of a candidate is displaced into
another of its own. Which candidate gives way is a free choice, `choice`. -/
def cuckoo : Nat → (Nat → Nat) → Flow → Option FlowPlace → List Flow → Option (List Flow)
  | 0, _, _, _, _ => none
  | fuel + 1, choice, f, not_, t =>
    let cs := (candPlaces f.key).filter (fun p => some p != not_)
    match cs.find? (isFree t) with
    | some p => some (putFlow { f with place := p } t)
    | none =>
      match cs[choice fuel % max 1 cs.length]? with
      | none => none
      | some p => match t.find? (fun g => g.place == p) with
        | none => none
        | some g => cuckoo fuel choice g (some p) (putFlow { f with place := p } (dropFlow p t))

/-- R179: an entry placed in a way, else in the stash; none where neither has room. -/
def placeFlow (choice : Nat → Nat) (f : Flow) (t : List Flow) : Option (List Flow) :=
  match cuckoo 65 choice f none t with
  | some t' => some t'
  | none => ((List.range 16).find? (fun i => isFree t (.stash i))).map (fun i => putFlow { f with place := .stash i } t)

/-! ### Multicast membership (R181, R182) -/

def isMulticast (e : BitVec 384) : Bool :=
  if fbit e FlowEntry.family then fget e FlowEntry.dstAddr / 2 ^ 120 == 0xFF else fget e FlowEntry.dstAddr / 2 ^ 28 == 0xE

/-- The entries that join a group on a sub-port. -/
def joined (t : List Flow) (p : Nat) (v6 : Bool) (group : Nat) : List Flow :=
  t.filter (fun f => fbit f.key FlowEntry.join && isMulticast f.key && entrySub f.key == p && fbit f.key FlowEntry.family == v6 &&
    fget f.key FlowEntry.dstAddr == group)

/-- The group's record: none where it is not joined, its sources, or EXCLUDE with none. -/
def groupRecord (l : List Flow) : Option (Option (List Nat)) :=
  if l.isEmpty then none
  else if l.any (fun f => !fbit f.key FlowEntry.useSrc) then some none
  else some (some (l.map (fun f => fget f.key FlowEntry.srcAddr)).eraseDups)

/-- The VLAN in which an entry's reports go: its own VID, or none where the report follows R166. -/
def entryVid (e : BitVec 384) : Option Nat := if fbit e FlowEntry.useVid then some (fget e FlowEntry.vid) else none

/-- The VLANs in which a group's entries have it reported (R181): each gets the merged record (DEDUCED, log entry 128). -/
def groupVids (l : List Flow) : List (Option Nat) := (l.map (fun f => entryVid f.key)).eraseDups

/-- A message owed, replacing one of the same group, VLAN and kind. -/
def State.owe (p : Nat) (o : Owed) (s : State) : State :=
  let v := s.sub p
  s.setSub p { v with owed := v.owed.filter (fun x => !(x.group == o.group && x.v6 == o.v6 && x.answer == o.answer && x.vid == o.vid)) ++ [o] }

/-- The membership of an entry's group after the table changed (R181): a changed record is reported twice in each of its VLANs, and so is an
unchanged one in a VLAN that is new to the group; a VLAN that no entry names any more is left. -/
def State.membership (e : BitVec 384) (before : List Flow) (s : State) : State :=
  if !isMulticast e then s else
  let p := entrySub e
  let v6 := fbit e FlowEntry.family
  let g := fget e FlowEntry.dstAddr
  let old := joined before p v6 g
  let new := joined s.flo.table p v6 g
  let told := if groupRecord old = groupRecord new then (groupVids new).filter (fun v => !(groupVids old).contains v) else groupVids new
  let left := (groupVids old).filter (fun v => !(groupVids new).contains v)
  let s1 := told.foldl (fun s v => s.owe p ⟨g, v6, false, false, v, 2⟩) s
  left.foldl (fun s v => s.owe p ⟨g, v6, true, false, v, 2⟩) s1

/-- Link-local address of a sub-port: modified EUI-64 of its MAC address (R162). -/
def linkLocal (mac : Nat) : Nat :=
  0xFE80 * 2 ^ 112 + Nat.xor (mac / 2 ^ 24) 0x020000 * 2 ^ 40 + 0xFFFE * 2 ^ 24 + mac % 2 ^ 24

/-- Multicast MAC address of a group. -/
def groupMac (v6 : Bool) (g : Nat) : Nat := if v6 then 0x3333 * 2 ^ 32 + g % 2 ^ 32 else 0x01005E * 2 ^ 24 + g % 2 ^ 23

/-- The IGMP frame of a message (RFC 3376, RFC 2236, RFC 1112): TTL 1 and Router Alert. -/
def igmpFrame (mac ip dst : Nat) (msg : List Byte) : List Byte :=
  let m := msg.take 2 ++ beBytes 2 (inetSum (sum16 msg)) ++ msg.drop 4
  let h := [0x46, 0xC0] ++ beBytes 2 (24 + m.length) ++ [0, 0, 0x40, 0, 1, 2, 0, 0] ++ beBytes 4 ip ++ beBytes 4 dst ++ [0x94, 4, 0, 0]
  beBytes 6 (groupMac false dst) ++ beBytes 6 mac ++ [8, 0] ++ h.take 10 ++ beBytes 2 (inetSum (sum16 h)) ++ h.drop 12 ++ m

/-- The MLD frame of a message (RFC 3810, RFC 2710): from the link-local address, with a hop-by-hop Router Alert. -/
def mldFrame (mac dst : Nat) (msg : List Byte) : List Byte :=
  let src := linkLocal mac
  let sum := sum16 (beBytes 16 src) + sum16 (beBytes 16 dst) + 58 + msg.length + sum16 msg
  let m := msg.take 2 ++ beBytes 2 (inetSum sum) ++ msg.drop 4
  beBytes 6 (groupMac true dst) ++ beBytes 6 mac ++ [0x86, 0xDD] ++ [0x60, 0, 0, 0] ++ beBytes 2 (8 + m.length) ++ [0, 1] ++
    beBytes 16 src ++ beBytes 16 dst ++ [0x3A, 0, 5, 2, 0, 0, 1, 0] ++ m

def allSnoopers6 : Nat := 0xFF02 * 2 ^ 112 + 0x16

/-- The message of a group on a sub-port now: its record in the current version, or the older version's report or leave. -/
def State.memberFrame (s : State) (p : Nat) (o : Owed) : List Byte :=
  let a := s.ethAddr p
  let mac := fget a EthAddr.macAddr
  let compat := if o.v6 then (s.sub p).compat6 else (s.sub p).compat4
  let n := if o.v6 then 16 else 4
  let srcs := match groupRecord (joined s.flo.table p o.v6 o.group) with | some (some l) => if o.leaving then [] else l | _ => []
  let include_ := o.leaving || !srcs.isEmpty
  let kind := (if o.answer then 1 else 3) + bit (!include_)
  let record : List Byte := [BitVec.ofNat 8 kind, 0] ++ beBytes 2 srcs.length ++ beBytes n o.group ++ srcs.flatMap (beBytes n)
  if o.v6 then
    if compat = 0 then mldFrame mac allSnoopers6 ([143, 0, 0, 0, 0, 0] ++ beBytes 2 1 ++ record)
    else mldFrame mac (if o.leaving then 0xFF02 * 2 ^ 112 + 2 else o.group)
      ([if o.leaving then 132 else 131, 0, 0, 0, 0, 0, 0, 0] ++ beBytes 16 o.group)
  else
    let ip := fget a EthAddr.ipv4Addr
    if compat = 0 then igmpFrame mac ip 0xE0000016 ([0x22, 0, 0, 0, 0, 0] ++ beBytes 2 1 ++ record)
    else if o.leaving then igmpFrame mac ip 0xE0000002 ([0x17, 0, 0, 0] ++ beBytes 4 o.group)
    else igmpFrame mac ip o.group ([if compat = 1 then 0x12 else 0x16, 0, 0, 0] ++ beBytes 4 o.group)

/-- MEMBERSHIP_REPORT (R181): a message that is owed waits for its gap in the media schedule. IGMPv1 has no leave. -/
def execMembershipReport (p : Fin 32) (group : BitVec 128) (v6 leaving : Bool) (s0 : State) : Out :=
  let k := p.val
  let s := s0.fresh
  let v := s.sub k
  match v.owed.find? (fun o => o.group == group.toNat && o.v6 == v6 && o.leaving == leaving) with
  | none => done s
  | some o =>
    if !s.fwRuns then done s else
    let rest := v.owed.filter (fun x => !decide (x = o))
    let s1 := s.setSub k { v with owed := if o.left ≤ 1 then rest else rest ++ [{ o with left := o.left - 1 }] }
    if leaving && !v6 && v.compat4 = 1 then done s1 else done (s1.mgmtQueue k (.report o.vid (s1.memberFrame k o)))

/-- The groups joined on a sub-port. -/
def State.joinedGroups (s : State) (p : Nat) (v6 : Bool) : List Nat :=
  ((s.flo.table.filter (fun f => fbit f.key FlowEntry.join && isMulticast f.key && entrySub f.key == p && fbit f.key FlowEntry.family == v6)).map
    (fun f => fget f.key FlowEntry.dstAddr)).eraseDups

/-- QUERY (R181, R182): the joined groups it asks for are answered; an older version starts the compatibility mode. -/
def execQuery (p : Fin 32) (v6 : Bool) (version : Fin 4) (group : BitVec 128) (s0 : State) : Out :=
  let k := p.val
  let s := s0.fresh
  if !s.fwRuns || !s.subUp k then done s else
  let v := s.sub k
  let ver := version.val
  let older := if v6 then ver == 1 else ver == 1 || ver == 2
  let old := if v6 then v.compat6 else v.compat4
  let new := if !older then old else if old = 0 then ver else min old ver
  let s1 := s.setSub k (if v6 then { v with compat6 := new } else { v with compat4 := new })
  let s2 := if old = 0 && new != 0 then s1.raise0 0xA9 (s.locSub k) else s1
  done (((s.joinedGroups k v6).filter (fun g => group = 0 || g == group.toNat)).foldl
    (fun s g => (groupVids (joined s.flo.table k v6 g)).foldl (fun s v => s.owe k ⟨g, v6, false, true, v, 1⟩) s) s2)

/-- QUERIER_TIMEOUT (R182). -/
def execQuerierTimeout (p : Fin 32) (v6 : Bool) (s0 : State) : Out :=
  let s := s0.fresh
  let v := s.sub p.val
  done (s.setSub p.val (if v6 then { v with compat6 := 0 } else { v with compat4 := 0 }))

/-- R182: after a restart's rebuild, an unsolicited report for every joined group. -/
def State.reportAll (s : State) : State :=
  (List.range 32).foldl (fun s p => [false, true].foldl (fun s v6 =>
    (s.joinedGroups p v6).foldl (fun s g =>
      (groupVids (joined s.flo.table p v6 g)).foldl (fun s v => s.owe p ⟨g, v6, false, false, v, 2⟩) s) s) s) s

/-! ### Entries -/

def State.setFlows (t : List Flow) (s : State) : State := s.onFlo (fun f => { f with table := t })

/-- A change of the entry with a key. -/
def State.onFlow (e : BitVec 384) (f : Flow → Flow) (s : State) : State :=
  s.setFlows (s.flo.table.map (fun g => if sameKey g.key e then f g else g))

def State.findFlow (s : State) (e : BitVec 384) : Option Flow := s.flo.table.find? (fun g => sameKey g.key e)

/-- ENTRY of a FLOW command at a parameter offset. -/
def Req.entry (q : Req) (o : Nat) : BitVec 384 := mergeRec FlowEntry.layout 0 (fitBytes 48 (Req.slice q o 48))

/-- R178, R412: an entry not found is E_RANGE at its first key byte. -/
def needFlow (s : State) (e : BitVec 384) (off : Nat) : Except Err Flow :=
  match s.findFlow e with
  | some f => .ok f
  | none => errAt eRange off

/-- R176, R178: what depends on several fields of an entry. -/
def entryMore (s : State) (e : BitVec 384) : Option Nat :=
  let v4bad (f : Fld) : Bool := !fbit e FlowEntry.family && decide (2 ^ 32 ≤ fget e f)
  if v4bad FlowEntry.dstAddr then some 0
  else if v4bad FlowEntry.srcAddr || (!fbit e FlowEntry.useSrc && fget e FlowEntry.srcAddr != 0) then some 16
  else if [0, 319, 320].contains (fget e FlowEntry.dstPort) then some 32
  else if !s.subExists (fget e FlowEntry.port) (fget e FlowEntry.subport) then some 36
  else if fbit e FlowEntry.join && !fbit e FlowEntry.usePort then some 37
  else none

/-- Whether an entry writes its ring: a BOUND one, or a FILTER that captures. -/
def entryBinds (e : BitVec 384) : Bool := fget e FlowEntry.typeF == 0 || (fget e FlowEntry.typeF == 1 && fget e FlowEntry.action == 2)

/-- R178, R391, R541: the ring of a capturing FILTER: best-effort, of data, and written by nothing but capture. -/
def captureBind (s : State) (r : Nat) : Except Err State := do
  need (!ringFree (s.ring r)) eState
  need (!s.hasWriter r (fun w => match w with | .filter _ => true | .queue h => !(tget Hq.idle s.ctl.hq h).insert | _ => false)) eBusy
  needAt (ringClass (s.ring r) == 3 && ringType (s.ring r) == 3) noField eFormat
  let add := writeHold s 5 r
  claimAll add (writeDrop add) s

/-- R178, R184, R541: the ring of a BOUND entry. -/
def boundBind (s : State) (e : BitVec 384) : Except Err State := do
  let r := fget e FlowEntry.ring
  need (!ringFree (s.ring r)) eState
  need (!s.hasWriter r) eBusy
  needAt (essenceFits (fget e FlowEntry.essence) (s.ring r)) noField eFormat
  let add := writeHold s 1 r
  claimBeside (if 8192 ≤ resUsed s 0x12 0 then [0x12] else []) add (writeDrop add) s

/-- The free choices of a displacement: one word each. -/
def State.choices (s : State) (i : Nat) : Nat := (Config.freeWord (s.free + i)).toNat

/-- The entry as written. -/
def flowInsertEntry (q : Req) (s : State) : Except Err (BitVec 384) := do
  Req.layout q 48
  let e := Req.entry q 0
  match firstBad (rangeBad FlowEntry.layout e) (entryMore s e) with
  | some o => errAt eRange o
  | none =>
    need (s.findFlow e).isNone eBusy
    return e

/-- The claims of what the entry binds. -/
def flowInsertClaims (e : BitVec 384) (s : State) : Except Err State :=
  if fget e FlowEntry.typeF = 0 then boundBind s e
  else if entryBinds e then captureBind s (fget e FlowEntry.ring)
  else .ok s

/-- The table with the entry placed. -/
def flowInsertPlace (e : BitVec 384) (s : State) : Except Err (List Flow) := do
  let free := 262144 - s.flo.table.length
  match (if free = 0 then none else placeFlow s.choices ⟨e, .stash 0, false, 0, 0, 0, 0, 0, 0, none, false⟩ s.flo.table) with
  | none => errBudget 0x13 1 free
  | some l => if 2 ≤ fget e FlowEntry.port && s.inEconomy && fbit e FlowEntry.usePort then errBudget 0x60 1 0 else return l

def flowInsertCheck (q : Req) (s : State) : Except Err (BitVec 384 × List Flow × State) := do
  let e ← flowInsertEntry q s
  let t ← flowInsertClaims e s
  let l ← flowInsertPlace e s
  return (e, l, t)

/-- R179: the entry takes its place; a bound ring's depacketiser waits for its first unit. -/
def flowInsertDo (e : BitVec 384) (l : List Flow) (s0 : State) : State :=
  let before := s0.flo.table
  let s := { s0.setFlows l with free := s0.free + 65 }
  let r := fget e FlowEntry.ring
  let s1 := if entryBinds e then s.syncWcred r else s
  let s2 := if fget e FlowEntry.typeF = 0 then s1.setDep r { depReset r with ctr := (s1.dep r).ctr, src := entrySub e } else s1
  s2.membership e before

def cmdFlowInsert (q : Req) (s : State) : Res := do
  let (e, l, t) ← flowInsertCheck q s
  return (flowInsertDo e l t, [])

/-- FLOW_INSERT (R178, R179, R411). -/
def execFlowInsert (q : Req) (s : State) : Out := serve 0x0305 cmdFlowInsert q s

def flowModifyCheck (q : Req) (s : State) : Except Err (BitVec 384 × State) := do
  Req.layout q 48
  let e := Req.entry q 0
  let f ← needFlow s e 0
  match firstBad (rangeBad FlowEntry.layout e) (entryMore s e) with
  | some o => errAt eRange o
  | none =>
    match fixedBad FlowEntry.layout f.key e with
    | some o => errAt eFixed o
    | none =>
      let t ← if entryBinds e && !entryBinds f.key then captureBind s (fget e FlowEntry.ring) else .ok s
      return (e, t)

def flowModifyDo (e : BitVec 384) (s : State) : State :=
  let before := s.flo.table
  let s1 := s.onFlow e (fun f => { f with key := e })
  (if entryBinds e then s1.syncWcred (fget e FlowEntry.ring) else s1).membership e before

def cmdFlowModify (q : Req) (s : State) : Res := do
  let (e, t) ← flowModifyCheck q s
  return (flowModifyDo e t, [])

/-- FLOW_MODIFY (R176, R412). -/
def execFlowModify (q : Req) (s : State) : Out := serve 0x0306 cmdFlowModify q s

def flowDeleteCheck (q : Req) (s : State) : Except Err Flow := do
  Req.layout q 48
  needFlow s (Req.entry q 0) 0

/-- R179: a BOUND entry's ring stays RUNNING with no writer; its claims stay. -/
def flowDeleteDo (f : Flow) (s : State) : State :=
  let before := s.flo.table
  let s1 := s.setFlows (before.filter (fun g => g.place != f.place))
  (if isBound f then s1.depStop (flowRing f) else s1).membership f.key before

def cmdFlowDelete (q : Req) (s : State) : Res := do
  let f ← flowDeleteCheck q s
  return (flowDeleteDo f s, [])

/-- FLOW_DELETE (R179, R412). -/
def execFlowDelete (q : Req) (s : State) : Out := serve 0x0307 cmdFlowDelete q s

/-- The status of an entry as FLOW_STATUS returns it. -/
def State.flowImage (s : State) (f : Flow) : List Byte :=
  leBytes 1 (bit f.present) ++ leBytes 3 0 ++ leBytes 4 f.pkts ++ leBytes 8 f.octets ++ leBytes 8 f.lastSeen ++ leBytes 4 f.peak ++
    leBytes 4 f.overWindows ++ (if isBound f then (s.dep (flowRing f)).ctr.flatMap (leBytes 4) else [])

/-- R180, R193: the read-and-clear of an entry's status. -/
def State.flowClear (f : Flow) (s : State) : State :=
  let s1 := s.onFlow f.key (fun g => { g with pkts := 0, octets := 0, peak := 0, overWindows := 0 })
  if isBound f then s1.setDep (flowRing f) { s1.dep (flowRing f) with ctr := List.replicate 6 0 } else s1

def cmdFlowStatus (q : Req) (s : State) : Res := do
  Req.layout q 52
  needAt (Req.u32 q 0 < 2) 0
  let f ← needFlow s (Req.entry q 4) 4
  return (if Req.u32 q 0 = 1 then s.flowClear f else s, s.flowImage f)

/-- FLOW_STATUS (R180, R411). -/
def execFlowStatus (q : Req) (s : State) : Out := serve 0x0308 cmdFlowStatus q s

/-! ### Monitoring (R180) -/

/-- A matching packet of so many bytes. -/
def State.flowSeen (f : Flow) (len : Nat) (s : State) : State :=
  let s1 := s.onFlow f.key (fun g => { g with
    present := true, pkts := sat32 g.pkts 1, octets := satAdd 48 g.octets len, lastSeen := s.now, windowSum := g.windowSum + len })
  if f.present then s1 else s1.raise0 0xA4 (locFlow f.place)

/-- What a window does to an entry, and whether an episode over its rate begins. -/
def flowWindow (f : Flow) : Flow × Bool :=
  let g := { f with peak := min (max f.peak f.windowSum) (2 ^ 32 - 1), windowSum := 0 }
  let decl := fget f.key FlowEntry.declRate
  if decl = 0 then (g, false)
  else if decl < f.windowSum then ({ g with overWindows := sat32 f.overWindows 1, within := some 0 }, f.within.isNone)
  else match f.within with
    | none => (g, false)
    | some n => ({ g with within := if n + 1 < 100 then some (n + 1) else none }, false)

/-- FLOW_WINDOW (R180): a window of 1 ms ends for every entry; routes whose source changed are judged again (R91). -/
def execFlowWindow (s0 : State) : Out :=
  let s := s0.fresh
  let l := s.flo.table.map flowWindow
  let s1 := s.setFlows (l.map (·.1))
  let s2 := (l.filter (·.2)).foldl (fun s e => s.raise0 0xA6 (locFlow e.1.place)) s1
  done s2.reboundAll

/-- The entry at a place, by its number. -/
def State.flowAt (s : State) (e : Nat) : Option Flow := s.flo.table.find? (fun f => placeIndex f.place == e)

/-- ABSENT_TIMEOUT (R180). -/
def execAbsentTimeout (e : Fin 262160) (s0 : State) : Out :=
  let s := s0.fresh
  match s.flowAt e.val with
  | none => done s
  | some f =>
    let t := fget f.key FlowEntry.absentTime
    if !f.present || s.now < f.lastSeen + (if t = 0 then 10 else t) * 1000000 then done s
    else done ((s.onFlow f.key (fun g => { g with present := false })).raise0 0xA5 (locFlow f.place))

/-! ### Errors (R183) -/

/-- FLOW_TABLE_CORRECTED (R183). -/
def execFlowTableCorrected (e : Fin 262160) (s0 : State) : Out :=
  let s := s0.fresh
  match s.flowAt e.val with
  | none => done s
  | some f => done (s.raise0 0xA7 (locFlow f.place))

/-- The key as FLOW_TABLE_UNCORR carries it (R435). -/
def keyBytes (e : BitVec 384) : List Byte :=
  leBytes 4 0 ++ leBytes 16 (fget e FlowEntry.dstAddr) ++ leBytes 16 (fget e FlowEntry.srcAddr) ++ leBytes 2 (fget e FlowEntry.dstPort) ++
    leBytes 2 (fget e FlowEntry.vid) ++ leBytes 1 (bit (fbit e FlowEntry.family)) ++ leBytes 1 (bit (fbit e FlowEntry.useSrc)) ++
    leBytes 1 (bit (fbit e FlowEntry.useVid)) ++ leBytes 1 (bit (fbit e FlowEntry.usePort)) ++ leBytes 1 (fget e FlowEntry.port) ++
    leBytes 1 (fget e FlowEntry.subport)

/-- FLOW_TABLE_UNCORR (R183): the entry is disabled until it is deleted. -/
def execFlowTableUncorr (e : Fin 262160) (s0 : State) : Out :=
  let s := s0.fresh
  match s.flowAt e.val with
  | none => done s
  | some f => done ((s.onFlow f.key (fun g => { g with bad := true })).raise ⟨0xA8, locFlow f.place, true, 0, keyBytes f.key⟩)

/-! ### INGEST_WRITE (R185) -/

/-- Offset, in the record, of a part's ring field. -/
def ingestOffset (part : Nat) : Nat := 2 * part - 1

def isIngest (r : Nat) (keeps : List Nat) : Writer → Bool
  | .ingest k p => k == r && !keeps.contains p
  | _ => false

def ingestWriteCheck (q : Req) (s : State) : Except Err (Nat × BitVec 64 × State) := do
  let r ← Req.index q 8192
  Req.noTarget q
  let old := s.ingest r
  let d := s.ring r
  let on := s.flo.table.any (fun f => isBound f && flowRing f == r)
  let more (g : BitVec 64) : Option Nat :=
    if ringType d = 2 && fget d RingDesc.formatF = 1 && 7 < fget g Ingest.channels then some 0 else none
  let new ← writeRecordX q Ingest.layout old (fixedIf on Ingest.layout) more
  let t ← bindCheck s ((ingestParts new).filter (fun p => !(ingestParts old).contains p)) ingestOffset
    (isIngest r (kept (ingestParts old) (ingestParts new)))
  return (r, new, t)

def cmdIngestWrite (q : Req) (s : State) : Res := do
  let (r, new, t) ← ingestWriteCheck q s
  let t1 := t.onFlo (fun f => { f with ingest := tset ingestReset f.ingest r new })
  return (t1.syncWcreds ((ingestParts new).map (·.2)), recBytes new)

/-- INGEST_WRITE (R185, R411). -/
def execIngestWrite (q : Req) (s : State) : Out := serve 0x0309 cmdIngestWrite q s

end Sys2Proof.Machine
end

