-- ==== Sys2Proof/Machine/Packetise.lean ====
section
/-! DEFINITION. The packetisers (R195 to R201): PKT_FLOW_WRITE with the pacer's budget, PACKET_DEPARTURE, which builds each flow's next
packet from what its output emits, and PORT_READ. -/

namespace Sys2Proof.Machine

open Sys2Proof

def State.pktRec (s : State) (f : Nat) : BitVec 256 := tget pktReset s.flo.pkt f
def State.pktHdr (s : State) (f : Nat) : BitVec 528 := tget hdrReset s.flo.hdr f
def State.pkt (s : State) (f : Nat) : PktSt := tget pktStReset s.flo.pktSt f
def State.setPkt (f : Nat) (v : PktSt) (s : State) : State := s.onFlo (fun g => { g with pktSt := tset pktStReset g.pktSt f v })

/-! ### Packets of a frame -/

/-- Active lines of a field of a raster. -/
def rasterLines (il second : Bool) (lines : Nat) : Nat := if il then (if second then lines / 2 else (lines + 1) / 2) else lines

/-- Packets of one active line: no packet crosses a line (DESIGN CHOICE, log entry 29). -/
def linePackets (f : VFmt) (payload : Nat) : Nat := cdiv (lineBytes f.width f.sample) (max 1 payload)

/-- Media bytes per packet in BPM: whole blocks of 180 bytes, over three lines at most (PRESUMED, log entry 115). -/
def bpmBytes (r : BitVec 256) (f : VFmt) : Nat :=
  max 180 (min (fget r PktFlow.pktPayload) (2 * lineBytes f.width f.sample) / 180 * 180)

/-- Packets of a field, or frame, of a video flow. -/
def fieldPackets (r : BitVec 256) (f : VFmt) (second : Bool) : Nat :=
  let rows := rasterLines f.interlaced second f.lines
  if fbit r PktFlow.bpm then cdiv (rows * lineBytes f.width f.sample) (bpmBytes r f)
  else max 1 (linePackets f (max 1 (fget r PktFlow.pktPayload))) * rows

/-- The segments of packet `i` of a field: row, first byte in it, and bytes. In GPM one, within a line; in BPM the blocks run on. -/
def pktSegments (r : BitVec 256) (f : VFmt) (second : Bool) (i : Nat) : List (Nat × Nat × Nat) :=
  let lb := lineBytes f.width f.sample
  if fbit r PktFlow.bpm then
    let a := i * bpmBytes r f
    let b := min (a + bpmBytes r f) (rasterLines f.interlaced second f.lines * lb)
    (List.range 3).filterMap (fun j =>
      let row := a / max 1 lb + j
      let lo := max a (row * lb)
      let hi := min b ((row + 1) * lb)
      if lo < hi then some (row, lo - row * lb, hi - lo) else none)
  else
    let p := max 1 (fget r PktFlow.pktPayload)
    let k := max 1 (linePackets f p)
    [(i / k, i % k * p, min p (lb - i % k * p))]

/-- Datagrams of a serial frame (R198). -/
def serialPackets (f : VFmt) : Nat := cdiv (linkBits (linkFor f) f.rate) (8 * 1376)

/-! ### The pacer's claim (R201) -/

/-- Wire bytes of a video frame. -/
def videoWire (r : BitVec 256) (f : VFmt) : Nat :=
  let fixed := fget r PktFlow.hdrLen + 4 + 14
  if fbit r PktFlow.bpm then
    ((if f.interlaced then [false, true] else [false]).map (fun second => ((List.range (fieldPackets r f second)).map (fun i =>
      let l := pktSegments r f second i
      wireBytes (fixed + 6 * l.length + (l.map (·.2.2)).sum))).sum)).sum
  else
    let lb := lineBytes f.width f.sample
    let p := max 1 (fget r PktFlow.pktPayload)
    let k := linePackets f p
    f.lines * ((k - 1) * wireBytes (fixed + 6 + p) + wireBytes (fixed + 6 + (lb - (k - 1) * p)))

/-- kbit/s of wire rate a flow claims, but for an opaque flow, which claims the declared rate of each ring its output reads. -/
def State.pacerKbit (s : State) (r : BitVec 256) (f : VFmt) : Nat :=
  let fixed := fget r PktFlow.hdrLen + 4 + pktHeads (fget r PktFlow.essence)
  match fget r PktFlow.essence with
  | 0 =>
    let bytes := videoWire r f
    if fget r PktFlow.senderType = 1 then cdiv (bytes * 8 * rateNum f.rate) (rateDen f.rate * 1000)
    else cdiv (bytes * 8 * rateNum f.rate * totalLines f.lines) (rateDen f.rate * f.lines * 1000)
  | 4 => cdiv (serialPackets f * wireBytes (fixed + 1376) * 8 * rateNum f.rate) (rateDen f.rate * 1000)
  | 3 => cdiv (wireBytes (fixed + fget r PktFlow.pktPayload) * 8 * rateNum f.rate * (if f.interlaced then 2 else 1)) (rateDen f.rate * 1000)
  | _ => cdiv (wireBytes (pktFrame r (s.pktHz r)) * 8 * (match fget r PktFlow.ptime with | 0 => 1000 | 1 => 4000 | _ => 8000)) 1000

/-- The claims of a flow that is enabled: an opaque one's are those of the entries its output has. -/
def State.pacerHolds (s : State) (f : Nat) (r : BitVec 256) (o : VFmt) : List Hold :=
  let out := fget r PktFlow.output
  if fget r PktFlow.essence = 5 then
    s.opaqueHolds [(f, r)] (s.routeA out) (.routeActive out 1) ++
      (if fget (s.routeP out) RouteEntry.pendState = 0 then [] else s.opaqueHolds [(f, r)] (s.routeP out) (.routePending out 1))
  else [Hold.new (0x50 + fget r PktFlow.port) (fget r PktFlow.subport) (.pacer f 8192) (.pkt f) (s.pacerKbit r o)]

/-! ### PKT_FLOW_WRITE -/

/-- COMPONENT and ESSENCE that go together (R186, R195). -/
def componentFits (component essence : Nat) : Bool :=
  match component with
  | 0 => essence == 0 || essence == 4 || essence == 5
  | 1 => essence == 3 || essence == 5
  | _ => essence == 1 || essence == 2

/-- Whether a flow's options lie within R186, for its output's format. -/
def State.pktSupported (s : State) (r : BitVec 256) (f : VFmt) : Bool :=
  componentFits (fget r PktFlow.component) (fget r PktFlow.essence) &&
    (fget r PktFlow.essence != 4 || [0, 1, 2, 3].any (fun l => linkCarries l false f)) &&
    (fget r PktFlow.component < 2 || s.pktHz r == 48000 || fget r PktFlow.txChannels < 8)

/-- Ranges that depend on other records: the sub-port under the port's split, and PKT_PAYLOAD against the pgroup of the output's
FORMAT. -/
def State.pktMore (s : State) (r : BitVec 256) : Option Nat :=
  if !s.subExists (fget r PktFlow.port) (fget r PktFlow.subport) then some 2
  else if fget r PktFlow.essence = 0 then
    match s.outFmt (fget r PktFlow.output) with
    | some f => if fget r PktFlow.pktPayload = 0 || fget r PktFlow.pktPayload % pgroupBytes f.fmt.sample != 0 then some 6 else none
    | none => none
  else none

/-- The other enabled flows of a component. -/
def State.twinFlows (s : State) (f : Nat) (r : BitVec 256) : List (Nat × BitVec 256) :=
  (s.outFlows (fget r PktFlow.output)).filter (fun e => e.1 != f && fget e.2 PktFlow.component == fget r PktFlow.component)

/-- R195, R432, R201: setting FLOW_EN to 1. -/
def pktEnable (s : State) (f : Nat) (r : BitVec 256) : Except Err State := do
  needAt (pktFrame r (s.pktHz r) ≤ fget (s.ethPort (fget r PktFlow.port)) EthPort.maxFrame) (12 + 6)
  match s.outFmt (fget r PktFlow.output) with
  | none => errAt eFormat 12
  | some o =>
    needAt (s.pktSupported r o.fmt) (12 + 1) eFormat
    need (s.planeOn o.plane) eNoref
    need ((s.twinFlows f r).length < 2) eBusy
    claimAll (economyHolds s (2 ≤ fget r PktFlow.port) f ++ s.pacerHolds f r o.fmt) (fun _ => false) s

/-- The checks of a flow write: the record, its template, and the state with its claim. -/
def pktFlowWriteCheck (q : Req) (s : State) : Except Err (Nat × BitVec 256 × BitVec 528 × State) := do
  let f ← Req.index q 4096
  Req.noTarget q
  Req.layout q 110
  let old := s.pktRec f
  let on := fbit old PktFlow.flowEn
  let new := mergeRec PktFlow.layout old (Req.recordBytes q 32)
  let oldHdr := leBytes 66 (s.pktHdr f).toNat
  let bytes := Req.slice q 44 66
  let hdr := bytes ++ oldHdr.drop bytes.length
  match firstBad (rangeBad PktFlow.layout new) (s.pktMore new) with
  | some o => errAt eRange (12 + o)
  | none =>
    match fixedBad (fixedIf on PktFlow.layout) old new with
    | some o => errAt eFixed (12 + o)
    | none =>
      needAt (!on || hdr == oldHdr) 44 eFixed
      let t ← if fbit new PktFlow.flowEn && !on then pktEnable s f new else .ok s
      return (f, new, BitVec.ofNat 528 (leNat hdr), t)

/-- A flow that starts has a first sequence number that the spec leaves open: a free value (log entry 31), the same for the same flow at
the same PTP time (R96). -/
def State.pktStart (f : Nat) (s : State) : State := s.setPkt f { pktStReset f with seq := Config.firstSeq f s.now, unit := -1 }

def pktFlowWriteDo (f : Nat) (old new : BitVec 256) (hdr : BitVec 528) (s : State) : State :=
  let s1 := s.onFlo (fun g => { g with pkt := tset pktReset g.pkt f new, hdr := tset hdrReset g.hdr f hdr })
  let s2 := if fbit new PktFlow.flowEn && !fbit old PktFlow.flowEn then s1.pktStart f else s1
  if !fbit new PktFlow.flowEn then
    s2.release (fun h => h.by_ == .pkt f || (match h.grp with | .pacer g _ => g == f | _ => false))
  else s2

def cmdPktFlowWrite (q : Req) (s : State) : Res := do
  let (f, new, hdr, t) ← pktFlowWriteCheck q s
  return (pktFlowWriteDo f (s.pktRec f) new hdr t, recBytes new ++ leBytes 66 hdr.toNat)

/-- PKT_FLOW_WRITE (R195, R429). -/
def execPktFlowWrite (q : Req) (s : State) : Out := serve 0x1103 cmdPktFlowWrite q s

/-! ### What a packet carries -/

/-- Ticks of a media clock at a PTP time, to the nearest. -/
def clockTicks (hz ns : Nat) : Nat := (2 * ns * hz + 1000000000) / 2000000000

/-- PTP time of the alignment point of the output's present frame, or of its second field (R197): OUT_OFFSET moves the frame's start off
it (R99). -/
def State.alignNs (s : State) (o : Nat) (f : OutFmt) (second : Bool) : Nat :=
  s.stampOf f.plane ((s.out o).frames * f.frame + (if second then f.frame / 2 else 0))

/-- PTP time of the switch point at which the ACTIVE copy of an output was applied. -/
def State.appliedNs (s : State) (o : Nat) (f : OutFmt) : Nat :=
  let v := s.out o
  let back := (BitVec.ofNat 32 v.frames - BitVec.ofNat 32 (fget (s.routeA o) RouteEntry.appliedFrame)).toNat
  s.stampOf f.plane ((v.frames : Int) * f.frame + f.phase - back * f.frame + f.switchAt)

/-- Bytes of a frame of a video ring from an address in its tiles, as a reader passes them on (R62). -/
def State.frameBytes (s : State) (r : Nat) (first : BitVec 32) (addr n : Nat) : List Byte :=
  let j := addr / 4096
  let count := (addr + n - 1) / 4096 + 1 - j
  let tiles := (List.range count).flatMap (fun i =>
    let e := first + BitVec.ofNat 32 (j + i)
    let v := s.verify r e (some (videoTag (s.ring r) (j + i)))
    fitBytes 4096 (s.concealVideo r 0 e first v).2.2)
  (tiles.drop (addr % 4096)).take n

/-- `n` bytes at byte `p` of active line `k`, counted through the fields; black where the output has no source. -/
def State.lineData (s : State) (o : Nat) (f : OutFmt) (k p n : Nat) : List Byte :=
  match (if (s.out o).gen then none else s.videoOf o), (s.out o).lastFrame with
  | some (r, _), some first =>
    let t := s.setRing r (s.videoDesc o r)
    t.frameBytes r first (lineAddr (t.ring r) k + p) n
  | _, _ => ((blackLine f.fmt.width f.fmt.sample f.fmt.full).drop p).take n

/-! ### The header of a pair (R197) -/

/-- The flow whose RTP headers a flow repeats: of a pair, the one with DUP 0. -/
def State.pktLead (s : State) (f : Nat) (r : BitVec 256) : Nat :=
  if fbit r PktFlow.dup then
    match (s.twinFlows f r).find? (fun e => !fbit e.2 PktFlow.dup) with
    | some e => e.1
    | none => f
  else f

/-- A flow's running state at the start of a unit: the second flow of a pair takes up the sequence numbers of the first. -/
def State.pktUnit (s : State) (f : Nat) (r : BitVec 256) (unit : Int) : PktSt :=
  let v := s.pkt f
  if v.unit = unit then v
  else
    let g := s.pktLead f r
    let w := s.pkt g
    let seq := if g = f then v.seq else if w.unit = unit then w.seq - BitVec.ofNat 32 w.sent else w.seq
    { v with unit := unit, sent := 0, seq := seq }

/-- A packet leaves, or is discarded while the sub-port is not UP (R160). Its class is held with its tag's priority (R171). A frame longer
than the port's MAX_FRAME is never sent (R164): the packet is discarded too (DESIGN CHOICE, log entry 116). -/
def State.pktSend (f : Nat) (r : BitVec 256) (v : PktSt) (payload : List Byte) (s : State) : State :=
  let p := 8 * fget r PktFlow.port + fget r PktFlow.subport
  let next : PktSt := { v with seq := v.seq + 1, sent := v.sent + 1 }
  let frame := buildFrame (fget r PktFlow.hdrLen) (leBytes 66 (s.pktHdr f).toNat) payload
  if !s.subUp p || fget (s.ethPort (fget r PktFlow.port)) EthPort.maxFrame < frame.length + 4 then s.setPkt f { next with lost := sat32 v.lost 1 }
  else (((s.setPkt f next).ethCount p 8 1).ethCount p 9 (frame.length + 4)).emit (.packet f frame)

/-- The RTP header of a flow's next packet. -/
def State.pktRtp (s : State) (f : Nat) (r : BitVec 256) (v : PktSt) (marker : Bool) (ts : Nat) : List Byte :=
  let h := s.pktRec (s.pktLead f r)
  rtpHeader marker (fget h PktFlow.payloadType) (v.seq.setWidth 16) (ts % 2 ^ 32) (fget h PktFlow.ssrc)

/-! ### Video -/

/-- ST 2110-20: the next packet of the frame in progress. -/
def State.sendVideo (f : Nat) (r h : BitVec 256) (o : Nat) (fmt : OutFmt) (s : State) : State :=
  let v := s.pktUnit f r (s.out o).frames
  let n1 := fieldPackets h fmt.fmt false
  let n2 := if fmt.fmt.interlaced then fieldPackets h fmt.fmt true else 0
  if n1 + n2 ≤ v.sent then s
  else
    let second := n1 ≤ v.sent
    let l := pktSegments h fmt.fmt second (if second then v.sent - n1 else v.sent)
    let last := v.sent + 1 == n1 || v.sent + 1 == n1 + n2
    let more (i : Nat) : Nat := bit (decide (i + 1 < l.length)) * 2 ^ 15
    let heads := l.zipIdx.flatMap (fun e => beBytes 2 e.1.2.2 ++ beBytes 2 (e.1.1 + bit second * 2 ^ 15) ++
      beBytes 2 (e.1.2.1 / pgroupBytes fmt.fmt.sample * pgroupPixels fmt.fmt.sample + more e.2))
    let base := if second then rasterLines fmt.fmt.interlaced false fmt.fmt.lines else 0
    let data := l.flatMap (fun e => s.lineData o fmt (base + e.1) e.2.1 e.2.2)
    let ts := clockTicks 90000 (s.alignNs o fmt second)
    s.pktSend f r v (s.pktRtp f r v last ts ++ beBytes 2 (v.seq.toNat / 2 ^ 16) ++ heads ++ data)

/-- The serial frame an ST 2022-6 flow sends (R198): that of the output, on the link its format has. -/
def State.serialOf (s : State) (o : Nat) (f : VFmt) : TxFrame := { (s.out o).tx with link := linkFor f, bond := 0 }

/-- ST 2022-6 (R198): the next datagram, 1,376 bytes of the serial stream. -/
def State.sendSerial (f : Nat) (r : BitVec 256) (o : Nat) (fmt : OutFmt) (s : State) : State :=
  let v := s.pktUnit f r (s.out o).frames
  let count := serialPackets fmt.fmt
  if count ≤ v.sent then s
  else
    let head := leBytes 8 (Config.payloadHeader (s.out o).frames fmt.fmt.lines).toNat
    s.pktSend f r v (s.pktRtp f r v (v.sent + 1 == count) (clockTicks 90000 (s.alignNs o fmt false)) ++ head ++
      (s.serialOf o fmt.fmt).serialBytes (v.sent * 11008) 11008)

/-! ### Audio -/

/-- A sample of channel `c` as an ST 2110-30 or -31 flow sends it; in a subframe F marks the first of a pair of channels
(PRESUMED, log entry 22). -/
def audioOut (aes l16 : Bool) (c : Nat) (w : BitVec 32) : List Byte :=
  let x := w.toNat
  let sample := x % 2 ^ 24
  if aes then
    let flag (i : Nat) : Nat := x / 2 ^ i % 2
    let ones := ((List.range 27).map flag).sum
    beBytes 4 (sample + flag 24 * 2 ^ 24 + flag 25 * 2 ^ 25 + flag 26 * 2 ^ 26 + ones % 2 * 2 ^ 27 + bit (c % 2 == 0) * 2 ^ 28 + flag 27 * 2 ^ 29)
  else if l16 then beBytes 2 (sample / 256) else beBytes 3 sample

/-- The next packet of an audio slot's millisecond. An output on its generator, or without that slot, sends silence. -/
def State.sendAudio (f : Nat) (r h : BitVec 256) (o : Nat) (fmt : OutFmt) (s : State) : State :=
  let slot := fget r PktFlow.component - 2
  let hz := s.pktHz r
  let a := (s.out o).slots.getD slot AudSlot.reset
  let live := !(s.out o).gen && !a.samples.isEmpty
  let first : Int := if live then a.first else ((s.planeTu fmt.plane).fdiv (1000000 * tuPerNs) - 1) * (hz / 1000 : Nat)
  let v := s.pktUnit f r first
  let n := ptimeSamples hz (fget h PktFlow.ptime)
  let chans := fget h PktFlow.txChannels + 1
  let of := if hz = 96000 then 8 else 16
  if hz / 1000 ≤ v.sent * n then s
  else
    let body := (List.range n).flatMap (fun i => (List.range chans).flatMap (fun c =>
      audioOut (fget h PktFlow.essence == 2) (fbit h PktFlow.txL16) c
        (if live then a.samples.getD ((v.sent * n + i) * of + c) 0 else 0)))
    let ts := ((first + v.sent * n) % (2 : Int) ^ 32).toNat
    s.pktSend f r v (s.pktRtp f r v false ts ++ body)

/-! ### Ancillary data -/

/-- The data of an output's frame: what an entry already latched brings is known before its switch point (R111, R112). -/
def State.frameData (s : State) (o : Nat) (f : OutFmt) : TxFrame :=
  let v := s.out o
  match v.latched with
  | some p => (s.switchData p f v).tx
  | none => v.tx

/-- Timecode packets of a field, on the switch line plus 2 (R197, R149). -/
def atcOf (tc : Option Nat) (f : OutFmt) (second : Bool) : List AncRec :=
  let line := switchLine f.total + 2
  match tc with
  | none => []
  | some t => if second then [(line + fieldLinesApart f.total, 0, atcPacket 2 t)] else [(line, 0, atcPacket 0 t), (line, 0, atcPacket 1 t)]

/-- A line a packet of ST 2110-40 may name: one of the format, or no particular one (R190). -/
def ancLineOk (f : OutFmt) (line : Nat) : Bool := (decide (1 ≤ line) && decide (line ≤ f.total)) || line == 0x7FE || line == 0x7FF

/-- The source's packets of a field or frame: in a switch frame those of the old source before the switch line and of the new from it on, of
a data-only output all of the new (R111). -/
def fieldAnc (o : Nat) (f : OutFmt) (x : TxFrame) (second : Bool) : List AncRec :=
  let part (us : List (List AncRec)) : List AncRec :=
    if f.fmt.interlaced && us.length == 2 then us.getD (bit second) [] else if second then [] else us.flatten
  let sw := switchLine f.total
  let l := match x.ancBefore with
    | some b => if 1024 ≤ o then part x.anc else (part b).filter (fun p : AncRec => decide (p.1 < sw)) ++ (part x.anc).filter (fun p : AncRec => decide (sw ≤ p.1))
    | none => part x.anc
  l.filter (fun p => !isAtc p)

/-- An RFC 8331 packet. -/
def ancBits (p : Nat × Nat × List Nat) : List Byte :=
  let b := packBits ([(1, p.2.1 / 4096), (11, p.1), (12, p.2.1 % 4096), (8, 0)] ++ p.2.2.map (10, ·))
  fitBytes (cdiv b.length 4 * 4) b

/-- Packets as long as they fit a payload: those beyond are dropped and counted. -/
def fitPackets (room : Nat) (l : List (List Byte)) : List Byte × Nat × Nat :=
  l.foldl (fun a b => if a.1.length + b.length ≤ room && a.2.1 < 255 then (a.1 ++ b, a.2.1 + 1, a.2.2) else (a.1, a.2.1, a.2.2 + 1)) ([], 0, 0)

/-- ST 2110-40: the one packet of the field or frame in progress. An output on its generator sends none. -/
def State.sendAnc (f : Nat) (r h : BitVec 256) (o : Nat) (fmt : OutFmt) (s : State) : State :=
  let v := s.pktUnit f r (s.out o).frames
  let second := v.sent = 1
  if (if fmt.fmt.interlaced then 2 else 1) ≤ v.sent || (s.out o).gen then s
  else
    let x := s.frameData o fmt
    let all := fieldAnc o fmt x second
    let here := all.filter (fun p => ancLineOk fmt p.1)
    let (body, n, drop) := fitPackets (fget h PktFlow.pktPayload) ((here ++ atcOf x.tc fmt second).map ancBits)
    let lost := drop + (all.length - here.length)
    let mark := if !fmt.fmt.interlaced then 0 else if second then 3 else 2
    let head := beBytes 2 (v.seq.toNat / 2 ^ 16) ++ beBytes 2 body.length ++ beBytes 1 n ++ packBits [(2, mark), (22, 0)]
    let s1 := if lost = 0 || s.pktLead f r != f then s else s.setOut o { s.out o with dropped := sat32 (s.out o).dropped lost }
    s1.pktSend f r v (s.pktRtp f r v true (clockTicks 90000 (s.alignNs o fmt second)) ++ head ++ body)

/-! ### Opaque flows (R199) -/

/-- A unit's packet, where the unit is whole. -/
def State.opaqueUnit (s : State) (r : Nat) (k : Marker) : Option (List Byte) :=
  match s.unitBytes r k.eseq k.tiles.toNat with
  | some b => if 12 ≤ b.length then some b else none
  | none => none

def rtpMarker (b : List Byte) : Bool := beAt b 1 1 ≥ 128

/-- Where a new source's packets start: after the first packet with a marker bit that arrived at or after the switch point. -/
def State.opaqueStart (s : State) (r at_ : Nat) : Option (BitVec 32) :=
  ((s.markersOf r).reverse.find? (fun k => k.state == .complete && decide (at_ ≤ k.time) && (match s.opaqueUnit r k with | some b => rtpMarker b | none => false))).map
    (fun k => k.eseq + k.tiles)

/-- The unit of a ring at a position, by its tags: the number of its tiles and its packet. -/
def State.opaqueAt (s : State) (r : Nat) (pos : BitVec 32) : Option (Nat × List Byte) :=
  match s.unitTilesAt r pos with
  | none => none
  | some n => match s.unitBytes r pos n with
    | some b => if 12 ≤ b.length then some (n, b) else none
    | none => none

/-- The next whole unit of a ring from a position on, with where it starts, its tiles and the time at which it was opened, where its marker
still tells: the unit there, else the oldest that a marker names. -/
def State.opaqueNext (s : State) (r : Nat) (pos : BitVec 32) : Option (BitVec 32 × Nat × Nat × List Byte) :=
  match s.opaqueAt r pos with
  | some (n, b) => some (pos, n, ((s.markersOf r).find? (fun k => k.eseq == pos)).elim s.now (·.time), b)
  | none => (s.markersOf r).reverse.findSome? (fun k =>
    if k.state == .complete && decide ((k.eseq - pos).toNat < 2 ^ 31) then (s.opaqueUnit r k).map (k.eseq, k.tiles.toNat, k.time, ·) else none)

/-- The source a flow reads from now on: another one only between two codestream frames. -/
def State.opaqueSwitch (s : State) (o : Nat) (fmt : OutFmt) (v : PktSt) : PktSt :=
  let want := s.opaqueOf (s.routeA o)
  if want = v.ring || !v.cut then v
  else match want with
    | none => { v with ring := none }
    | some r => match s.opaqueStart r (if v.ring.isNone then 0 else s.appliedNs o fmt) with
      | some p => { v with ring := some r, pos := p, tsOffset := none }
      | none => v

/-- Units of a ring from one position to another, by their tags. -/
def State.unitsBetween (s : State) (r : Nat) (a b : BitVec 32) : Nat :=
  ((List.range (min (b - a).toNat (fget (s.ring r) RingDesc.length))).foldl (fun (x : BitVec 32 × Nat) _ =>
    if x.1 = b then x
    else match s.unitTilesAt r x.1 with
      | some n => (x.1 + BitVec.ofNat 32 n, x.2 + 1)
      | none => (b, x.2)) (a, 0)).2

/-- The second flow of a pair sends what the first does, under the same header (R197). -/
def State.opaquePair (s : State) (f : Nat) (r : BitVec 256) (v : PktSt) : PktSt :=
  let g := s.pktLead f r
  let w := s.pkt g
  if g = f then v
  else match v.ring, w.ring with
    | none, _ => { v with ring := w.ring, pos := w.pos, cut := w.cut, tsOffset := w.tsOffset, seq := w.seq }
    | some x, some y =>
      if x != y then v
      else if (w.pos - v.pos).toNat < 2 ^ 31 then { v with seq := w.seq - BitVec.ofNat 32 (s.unitsBetween x v.pos w.pos), tsOffset := w.tsOffset.or v.tsOffset }
      else { v with seq := w.seq + BitVec.ofNat 32 (s.unitsBetween x w.pos v.pos), tsOffset := w.tsOffset.or v.tsOffset }
    | some _, none => v

/-- ST 2110-22: the next packet of the source, with the flow's own header. Its timestamps keep the offset that gives the first packet of a
source the media-clock time at which it is due, the delay of R87 after its arrival (R199). -/
def State.sendOpaque (f : Nat) (r : BitVec 256) (o : Nat) (fmt : OutFmt) (s : State) : State :=
  if (s.out o).gen then s else
  let v := s.opaqueSwitch o fmt (s.opaquePair f r (s.pktUnit f r 0))
  match v.ring with
  | none => s.setPkt f v
  | some x => match s.opaqueNext x v.pos with
    | none => s.setPkt f v
    | some (first, n, at_, b) =>
      let ts : BitVec 32 := BitVec.ofNat 32 (beAt b 4 4)
      let due := at_ + tuUp (leadTu s.bud.profile (s.hops x) fmt.fmt.rate fmt.total)
      let off := v.tsOffset.getD (BitVec.ofNat 32 (clockTicks 90000 due) - ts)
      let m := rtpMarker b
      let head := s.pktRtp f r v m (ts + off).toNat
      let v1 : PktSt := { v with pos := first + BitVec.ofNat 32 n, cut := m, tsOffset := some off }
      s.pktSend f r v1 (b.take 1 ++ head.drop 1 ++ b.drop 12)

/-! ### PACKET_DEPARTURE -/

/-- Whether the media class holds a flow's packets back (R171). -/
def State.pktHeld (s : State) (f : Nat) (r : BitVec 256) : Bool :=
  let p := 8 * fget r PktFlow.port + fget r PktFlow.subport
  let h := leBytes 66 (s.pktHdr f).toNat
  let pcp := if fget r PktFlow.hdrLen = 46 || fget r PktFlow.hdrLen = 66 then beAt h 14 2 / 2 ^ 13 else 0
  fbit (s.ethPort (fget r PktFlow.port)) EthPort.pauseMedia && (tget holdAt (s.sub p).mediaHold pcp).on s.time.clk

/-- PACKET_DEPARTURE (R200, R284): the scheduled time of a flow's next packet has come. The two flows of a pair carry one payload, by the record of
the first (R197). -/
def execPacketDeparture (f : Fin 4096) (s0 : State) : Out :=
  let k := f.val
  let s := s0.fresh
  let r := s.pktRec k
  let o := fget r PktFlow.output
  match s.outFmt o with
  | none => done s
  | some fmt =>
    if !fbit r PktFlow.flowEn || !(s.out o).running || s.pktHeld k r || s.inExtra fmt.plane || s.blockHeld (ethBlock (fget r PktFlow.port)) then done s
    else
      let h := s.pktRec (s.pktLead k r)
      done <| match fget r PktFlow.essence with
        | 0 => s.sendVideo k r h o fmt
        | 3 => s.sendAnc k r h o fmt
        | 4 => s.sendSerial k r o fmt
        | 5 => s.sendOpaque k r o fmt
        | _ => s.sendAudio k r h o fmt

/-! ### PORT_READ (R430) -/

def linkUpCode : LinkUp → Nat
  | .down => 0 | .training => 1 | .up => 2

def portReadBytes (s : State) (n : Nat) : List Byte :=
  recBytes (s.ethPort n) ++ (List.range 8).map (fun i => BitVec.ofNat 8 (linkUpCode (s.sub (8 * n + i)).link)) ++
    (List.range 8).flatMap (fun i => let c := tget fecReset s.eth.fec (8 * n + i); leBytes 4 c.1 ++ leBytes 4 c.2)

def bankReadBytes (s : State) (n : Nat) : List Byte :=
  let b := tget bankReset s.eth.bank n
  leBytes 4 b.seq.toNat ++ leBytes 4 0 ++ leBytes 8 b.time ++ (List.range 96).flatMap (fun i => leBytes 8 (b.ctr.getD i 0).toNat)

def cmdPortRead (q : Req) (s : State) : Res := do
  let what := Req.u16 q 2
  let i := Req.u16 q 0
  needAt (what < 7) 2
  needAt (i < (match what with | 0 => 144 | 1 => 4 | 2 => 32 | 3 => 4096 | 4 => 4 | 5 => 1 | _ => 2048)) 0
  let clear ← Req.readClear q
  return match what with
    | 0 => (if clear then s.onSdi (fun d => { d with ctr := tset ctr12 d.ctr i (ctr12 i) }) else s, s.laneImage i)
    | 1 => (if clear then s.onEth (fun e => { e with fec := e.fec.filter (fun x => x.1 / 8 != i) }) else s, portReadBytes s i)
    | 2 => (s, recBytes (s.ethAddr i))
    | 3 => (s, recBytes (s.pktRec i) ++ leBytes 66 (s.pktHdr i).toNat)
    | 4 => (s, bankReadBytes s i)
    | 5 => (s, recBytes s.ctl.sb)
    | _ => (s, recBytes (tget pktOutReset s.flo.pktOut i) ++ leBytes 1 (bit (s.laneOf i).isSome))

/-- PORT_READ (R430). -/
def execPortRead (q : Req) (s : State) : Out := serve 0x1106 cmdPortRead q s

end Sys2Proof.Machine
end

