-- ==== Sys2Proof/Machine/Merge.lean ====
section
/-! DEFINITION. The Merge Unit (R202 to R210): MERGE_WRITE, MERGE_STATUS and the decision of one tile. -/

namespace Sys2Proof.Machine

open Sys2Proof

/-! ### MERGE_WRITE (R202, R203, R208, R210) -/

/-- The block-reset bit of the Merge Unit (R473). -/
def mergeBlock : Nat := 52

/-- The pair's U in time units: that of its primary ring. -/
def State.mergeU (s : State) (r : BitVec 128) : Nat := s.unitTu (s.ring (fget r Merge.primaryRing))

/-- ceil(MERGE_DELAY ÷ U). -/
def State.delayUnits (s : State) (delay : Nat) (d : BitVec 256) : Nat := cdiv (delay * 1000 * tuPerNs) (max 1 (s.unitTu d))

/-- The least LENGTH of a leg ring (R208). -/
def State.legDepth (s : State) (delay r : Nat) : Nat :=
  let d := s.ring r
  let n := s.delayUnits delay d
  let tiles := if ringIsVideo d then ringTpf d * (n + 2) else if ringType d = 2 then n + 16
    else unitTiles d (tget declReset s.mem.decl r) * (n + 2)
  cdiv tiles 16 * 16

/-- Whether an SDI receiver writes a ring. -/
def State.sdiWrites (s : State) (r : Nat) : Bool := s.sdi.cfg.any (fun e => (laneParts e.2).any (fun p => p.2 == r))

def isMergeWriter (m : Nat) : Writer → Bool
  | .merge k => k == m
  | _ => false

/-- R203: the rings of a pair. -/
def State.pairFits (s : State) (m : Nat) (r : BitVec 128) : Bool :=
  let a := fget r Merge.primaryRing
  let b := fget r Merge.secondaryRing
  let o := fget r Merge.outRing
  let opaque_ (d : BitVec 256) : Bool := ringType d == 3 && fget d RingDesc.formatF == 2
  pairMatch (s.ring a) (s.ring b) && pairMatch (s.ring a) (s.ring o) && ringClass (s.ring o) == 1 && !opaque_ (s.ring a) && !opaque_ (s.ring b) &&
    !(s.sdiWrites a && s.sdiWrites b) && !s.hasWriter o (isMergeWriter m)

/-- Setting MERGE_EN to 1: the pair's rings, its depths and its claims on ingress. -/
def mergeEnable (s : State) (m : Nat) (r : BitVec 128) : Except Err State := do
  let a := fget r Merge.primaryRing
  let b := fget r Merge.secondaryRing
  let o := fget r Merge.outRing
  let delay := fget r Merge.mergeDelay
  need (!ringFree (s.ring a) && !ringFree (s.ring b) && !ringFree (s.ring o)) eState
  needAt (s.pairFits m r) noField eFormat
  needAt (s.legDepth delay a ≤ fget (s.ring a) RingDesc.length) 12
  needAt (s.legDepth delay b ≤ fget (s.ring b) RingDesc.length) 14
  needAt (ringType (s.ring a) == 2 || s.delayUnits delay (s.ring a) + 2 ≤ 32) 20
  needAt (ringType (s.ring b) == 2 || s.delayUnits delay (s.ring b) + 2 ≤ 32) 20
  let p := s.bud.profile
  let reads := [Hold.new 1 0 (.merge m 0) (.merge m) (ringCredits p s a), Hold.new 1 0 (.merge m 1) (.merge m) (ringCredits p s b)]
  let add := reads ++ writeHold s 1 o
  claimAll add (writeDrop add) s

/-- R202: HYB_OFFSET is at most one frame period of the primary ring's plane. -/
def State.mergeMore (s : State) (r : BitVec 128) : Option Nat :=
  let u := frameTu (s.planeRate (fget (s.ring (fget r Merge.primaryRing)) RingDesc.plane))
  if u < fget r Merge.hybOffset * tuPerNs then some 12 else none

def mergeWriteCheck (q : Req) (s : State) : Except Err (Nat × BitVec 128 × State) := do
  let m ← Req.index q 1024
  Req.noTarget q
  let old := s.mergeRec m
  let new ← writeRecordX q Merge.layout old (fixedIf (fbit old Merge.mergeEn) Merge.layout) s.mergeMore
  let t ← if fbit new Merge.mergeEn && !fbit old Merge.mergeEn then mergeEnable s m new else .ok s
  return (m, new, t)

/-- A leg whose audio is written in aligned mode begins afresh on the grid (R204). -/
def State.alignLeg (r : Nat) (s : State) : State :=
  let lanes := s.sdi.cfg.filterMap (fun e => ((laneParts e.2).find? (fun p => p.2 == r && decide (2 ≤ p.1))).map (fun p => (e.1, p.1 - 2)))
  let flows := s.flo.ingest.filterMap (fun e => ((ingestParts e.2).find? (fun p => p.2 == r && decide (2 ≤ p.1))).map (fun p => (e.1, p.1 - 2)))
  let s1 := lanes.foldl (fun s e => s.setLane e.1 (dropSlot e.2 (s.lane e.1))) s
  flows.foldl (fun s e => s.setRx (.flow e.1) (dropSlot e.2 (s.rx (.flow e.1)))) s1

/-- The running state of a pair that starts or stops: its counters stay. -/
def State.mergeClear (m : Nat) (s : State) : State := s.setMerge m { mergeStReset 0 with ctr := (s.mergeSt m).ctr }

def mergeWriteDo (m : Nat) (old new : BitVec 128) (s : State) : State :=
  let s1 := s.onFlo (fun f => { f with merge := tset mergeReset f.merge m new })
  let was := fbit old Merge.mergeEn
  if fbit new Merge.mergeEn && !was then
    (((s1.mergeClear m).syncWcred (fget new Merge.outRing)).alignLeg (fget new Merge.primaryRing)).alignLeg (fget new Merge.secondaryRing)
  else if was && !fbit new Merge.mergeEn then
    ((s1.stopWriter (fget new Merge.outRing)).mergeClear m).release (fun h => h.by_ == .merge m)
  else s1

def cmdMergeWrite (q : Req) (s : State) : Res := do
  let (m, new, t) ← mergeWriteCheck q s
  return (mergeWriteDo m (s.mergeRec m) new t, recBytes new)

/-- MERGE_WRITE (R202, R411). -/
def execMergeWrite (q : Req) (s : State) : Out := serve 0x030A cmdMergeWrite q s

def cmdMergeStatus (q : Req) (s : State) : Res := do
  let (m, clear) ← readArgs q 1024
  let v := s.mergeSt m
  let res := recBytes (s.mergeRec m) ++ leBytes 1 (bit v.p.lost) ++ leBytes 1 (bit v.q.lost) ++ [0, 0] ++ v.ctr.flatMap (leBytes 4)
  return (if clear then s.setMerge m { v with ctr := List.replicate 6 0 } else s, res)

/-- MERGE_STATUS (R210, R411). -/
def execMergeStatus (q : Req) (s : State) : Out := serve 0x030B cmdMergeStatus q s

/-! ### One decision (R205 to R209) -/

/-- What a leg offers for a decision: the time of its last tile concerned and the bytes, none where it delivers nothing. -/
abbrev Offer := Option (Nat × List Byte)

/-- A leg's tile, or for data its whole unit, delivered and good by `limit` (in time units). -/
def State.offer (s : State) (r : Nat) (l : LegSt) (n j limit : Nat) : Offer :=
  if l.drift then none else
  match l.units.find? (fun u => u.grid == n) with
  | none => none
  | some u =>
    let d := s.ring r
    if ringType d = 3 then
      match u.tiles with
      | none => none
      | some k =>
        if u.state = .complete && u.times.length = k && u.times.all (fun e => e.2 * tuPerNs ≤ limit) then
          (s.unitBytes r u.first k).map ((u.times.map (·.2)).foldl max 0, ·)
        else none
    else
      match u.times.find? (fun e => e.1 == j) with
      | none => none
      | some e =>
        if limit < e.2 * tuPerNs then none
        else match s.verify r (u.first + BitVec.ofNat 32 j) (some (if ringType d = 2 then (true, 3071) else videoTag d j)) with
          | .good b => some (e.2, b)
          | _ => none

/-- The tiles of a leg's unit that were committed too late for the decision of tile `j`, or of the whole data unit, by index. -/
def State.lateTiles (r : Nat) (l : LegSt) (n j limit : Nat) (s : State) : List (BitVec 32 × Nat) :=
  match l.units.find? (fun u => u.grid == n) with
  | none => []
  | some u => (u.times.filter (fun e => (ringType (s.ring r) == 3 || e.1 == j) && decide (limit < e.2 * tuPerNs))).map (fun e => (u.first, e.1))

/-- R206: those tiles are late: each is counted where it is good, and compared with what was written. -/
def State.countLate (m : Nat) (second : Bool) (r n : Nat) (tiles : List (BitVec 32 × Nat)) (s : State) : State :=
  tiles.foldl (fun s e =>
    let d := s.ring r
    let tag := if ringType d = 3 then none else some (if ringType d = 2 then (true, 3071) else videoTag d e.2)
    match s.verify r (e.1 + BitVec.ofNat 32 e.2) tag with
    | .good b =>
      let v := s.mergeSt m
      let k := if second then 5 else 4
      ((s.setMerge m { v with ctr := v.ctr.set k (sat32 (v.ctr.getD k 0) 1) }).onLeg m second (fun l => { l with late := true })).lateDiffers m n e.2 b
    | _ => s) s

/-- A counter of R210: 0 WON_PRIMARY, 1 WON_SECONDARY, 2 DISAGREE, 3 BOTH_MISSING, 4 LATE_PRIMARY, 5 LATE_SECONDARY. -/
def State.mergeCount (m k : Nat) (s : State) : State :=
  let v := s.mergeSt m
  s.setMerge m { v with ctr := v.ctr.set k (sat32 (v.ctr.getD k 0) 1) }

/-- Tiles no leg delivered, before the one being decided, concealed in the protected ring (R207). -/
def State.concealOut (o l : Nat) (s : State) : State :=
  let w := s.wr o
  let (s1, _, bytes) := s.concealVideo o l (s.nextEseq o) w.first .incomplete
  s1.closeMissing o bytes true false

/-- The unit at a grid point opens in the protected ring: where it starts is kept while the ring holds it. -/
def State.mergeOpens (m n : Nat) (s : State) : State :=
  let o := fget (s.mergeRec m) Merge.outRing
  let v := s.mergeSt m
  let d := s.ring o
  s.setMerge m { v with
    opened := true
    outs := (n, s.nextEseq o) :: v.outs.filter (fun x => ringHolds d x.2 || decide ((s.nextEseq o - x.2).toNat < fget d RingDesc.length)) }

/-- The chosen tile or unit goes into the protected ring. A video unit opens with its first delivered tile, those before it concealed
(DESIGN CHOICE, log entry 37). -/
def State.mergePut (m n j : Nat) (bytes : List Byte) (s : State) : State :=
  let o := fget (s.mergeRec m) Merge.outRing
  let l := locMerge m
  let d := s.ring o
  if ringType d = 2 then (s.mergeOpens m n).writeAudio o l bytes false
  else if ringType d = 3 then (s.mergeOpens m n).writeUnit o l bytes
  else
    let s1 := if (s.mergeSt m).opened then s
      else (List.range j).foldl (fun s _ => s.concealOut o l) ((s.mergeOpens m n).startUnit o l)
    s1.closeTile o l bytes false

/-- R207: nothing was delivered for the grid point `n`. -/
def State.mergeMissing (m n : Nat) (s : State) : State :=
  let o := fget (s.mergeRec m) Merge.outRing
  let l := locMerge m
  let d := s.ring o
  let s1 :=
    if ringType d = 2 then (s.mergeOpens m n).writeAudio o l (List.replicate 3072 0) true
    else if ringType d = 3 then (s.startUnit o l).abandonCounted o l false
    else if (s.mergeSt m).opened then s.concealOut o l else s
  let s2 := s1.mergeCount m 3
  let v := s2.mergeSt m
  let s3 := s2.setMerge m { v with both := some 0 }
  if v.both.isNone then s3.raise0 0xB4 l else s3

/-- R207: an episode of MERGE_BOTH_MISSING ends after 100 decisions with a delivered tile. -/
def MergeSt.delivered (v : MergeSt) : MergeSt :=
  { v with both := match v.both with | some k => if k + 1 < 100 then some (k + 1) else none | none => none }

/-- R206: what a decision does. -/
def State.mergeChoose (m n j : Nat) (a b : Offer) (s : State) : State :=
  let won (second : Bool) (bytes : List Byte) : State :=
    let t := (s.mergePut m n j bytes).mergeCount m (bit second)
    t.setMerge m (t.mergeSt m).delivered
  match a, b with
  | some (ta, x), some (tb, y) =>
    if x = y then won (decide (tb < ta)) x else ((won false x).mergeCount m 2).raise ⟨0xB3, locMerge m, true, 0, [0]⟩
  | some (_, x), none => won false x
  | none, some (_, y) => won true y
  | none, none => s.mergeMissing m n

/-- R209: a leg after a unit. REASON: 1 ABSENT, 2 LATE, 3 ALIGN. -/
def State.legUnit (m : Nat) (second any all : Bool) (s : State) : State :=
  let l := (s.mergeSt m).leg second
  let missed := if any then 0 else l.missed + 1
  let good := if all then l.good + 1 else 0
  let loses := !l.lost && 3 ≤ missed
  let returns := l.lost && 3 ≤ good
  let s1 := s.onLeg m second (fun l => { l with
    missed := min missed 3, good := min good 3, lost := (l.lost || loses) && !returns, late := l.late && !any })
  let obj := leBytes 1 (bit second)
  if loses then s1.raise ⟨0xB1, locMerge m, true, if l.drift then 3 else if l.late then 2 else 1, obj⟩
  else if returns then s1.raise ⟨0xB2, locMerge m, true, 0, obj⟩
  else s1

/-- R208: the entries of decided units are freed. One whose writer is not done with it stands beside the queue, for its tiles are late. -/
def LegSt.free (n : Nat) (l : LegSt) : LegSt :=
  { l with units := l.units.filter (fun u => n < u.grid), gone := l.gone ++ l.units.filter (fun u => u.grid ≤ n && u.state == .writing) }

/-- The unit has been decided: its legs are judged, its entries are freed, and the next unit follows. -/
def State.mergeNext (m n : Nat) (s : State) : State :=
  let v := s.mergeSt m
  let s1 := (s.legUnit m false v.pSome v.pAll).legUnit m true v.qSome v.qAll
  let w := s1.mergeSt m
  s1.setMerge m { w with
    p := w.p.free n, q := w.q.free n, unit := some (n + 1), tile := 0, opened := false, pSome := false, pAll := true, qSome := false, qAll := true }

/-- t_dec of R205, in time units. -/
def decideAt (u delay tiles n j : Nat) (data : Bool) : Nat :=
  n * u + delay * 1000 * tuPerNs + (if data then u else j * u / max 1 tiles)

/-- The decision of tile `j` of the unit at grid point `n`. -/
def State.mergeTile (m n j tiles at_ : Nat) (s : State) : State :=
  let r := s.mergeRec m
  let a := fget r Merge.primaryRing
  let b := fget r Merge.secondaryRing
  let limit := at_ - turnNs s.bud.profile * tuPerNs
  let v := s.mergeSt m
  let x := s.offer a v.p n j limit
  let y := s.offer b v.q n j limit
  let s1 := s.mergeChoose m n j x y
  let s2 := s1.countLate m false a n (s.lateTiles a v.p n j limit)
  let s3 := s2.countLate m true b n (s.lateTiles b v.q n j limit)
  let w := s3.mergeSt m
  let s4 := s3.setMerge m { w with
    tile := j + 1, pSome := w.pSome || x.isSome, pAll := w.pAll && x.isSome, qSome := w.qSome || y.isSome, qAll := w.qAll && y.isSome }
  if j + 1 < tiles then s4 else s4.mergeNext m n

/-- MERGE_DECISION (R205, R206): the next decision of a pair, once its time has come. A pair that starts, or whose clock has been
stepped by more than two units, takes the grid up at the first unit still wholly to be decided (DESIGN CHOICE, log entry 38). -/
def execMergeDecision (m : Fin 1024) (s0 : State) : Out :=
  let k := m.val
  let s := s0.fresh
  let r := s.mergeRec k
  if !fbit r Merge.mergeEn || s.blockHeld mergeBlock then done s else
  let o := fget r Merge.outRing
  let d := s.ring o
  let data := ringType d == 3
  let u := max 1 (s.mergeU r)
  let delay := fget r Merge.mergeDelay
  let tiles := if ringIsVideo d then max 1 (ringTpf d) else 1
  let now := s.now32 * tuPerNs / 2 ^ 32
  let fresh := cdiv (now - (delay * 1000 * tuPerNs + if data then u else 0)) u
  let v := s.mergeSt k
  let (n, j) := match v.unit with
    | none => (fresh, 0)
    | some n =>
      let t := decideAt u delay tiles n v.tile data
      if t + 2 * u < now || now + 2 * u < t then (fresh, 0) else (n, v.tile)
  let s1 := if v.unit = some n && v.tile = j then s
    else (s.stopWriter o).setMerge k { v with unit := some n, tile := j, opened := false, pSome := false, pAll := true, qSome := false, qAll := true }
  let t := decideAt u delay tiles n j data
  if now < t then done s1 else done (s1.mergeTile k n j tiles t)

end Sys2Proof.Machine
end

