-- ==== Sys2Proof/Machine/Render.lean ====
section
/-! DEFINITION. What a Composer renders (R213, R214, R220 to R225, R230 to R233): the bytes of one tile of its output frame, from the
records in force, the frames its layers read, its tables and its cursor. -/

namespace Sys2Proof.Machine

open Sys2Proof

/-! ### Accessors -/

def State.compOut (s : State) (n : Nat) : BitVec 256 := tget compOutReset s.cmp.out n
def State.compLayer (s : State) (i : Nat) : BitVec 256 := tget layerRecReset s.cmp.layer i
def State.compSt (s : State) (n : Nat) : CompSt := tget compStReset s.cmp.st n
def State.laySt (s : State) (i : Nat) : LayerSt := tget layStReset s.cmp.laySt i
def State.setCompOut (n : Nat) (v : BitVec 256) (s : State) : State := s.onCmp (fun e => { e with out := tset compOutReset e.out n v })
def State.setCompLayer (i : Nat) (v : BitVec 256) (s : State) : State := s.onCmp (fun e => { e with layer := tset layerRecReset e.layer i v })
def State.setCompSt (n : Nat) (v : CompSt) (s : State) : State := s.onCmp (fun e => { e with st := tset compStReset e.st n v })
def State.setLaySt (i : Nat) (v : LayerSt) (s : State) : State := s.onCmp (fun e => { e with laySt := tset layStReset e.laySt i v })

/-- MODE_C and GANG of a Composer, read from OUT0 only (R216). -/
def State.compMode (s : State) (c : Nat) : Nat := fget (s.compOut (4 * c)) CompOut.modeC
def State.compGang (s : State) (c : Nat) : Bool := fbit (s.compOut (4 * c)) CompOut.gang

/-- The layers a conversion or composition uses (R212). -/
def modeLayers (mode k : Nat) : List Nat :=
  match mode with
  | 0 => List.range 8
  | 1 => [k]
  | _ => [0]

def CompSet.layerRec (v : CompSet) (l : Nat) : BitVec 256 := v.layers.getD l (layerRecReset 0)

/-- Its enabled layers in Z order, lowest first. -/
def CompSet.stack (v : CompSet) (k : Nat) : List Nat :=
  (List.range 8).flatMap (fun z => (modeLayers v.mode k).filter (fun l => fbit (v.layerRec l) Layer.layerEn && fget (v.layerRec l) Layer.z == z))

/-! ### Tables and bitmaps -/

/-- A bank's place among the tables (R420): 0 LIN by 8c + l, 1 tone, 2 3D and 3 cursor by c. -/
def bankKey (table bank index : Nat) : Nat := 256 * index + 16 * table + bank

/-- Bytes of a bank (R420). -/
def bankSize : Nat → Nat
  | 0 => 16384
  | 1 => 4096
  | 2 => 215622
  | _ => 262144

/-- A bank, none while it acts as identity (R241). A bank that nothing has loaded reads zero (DESIGN CHOICE, log entry 42). -/
def State.lutBank (s : State) (table bank index : Nat) : Option (List Byte) :=
  let key := bankKey table bank index
  if s.cmp.lutBad.contains key then none else some (fitBytes (bankSize table) (tget (fun _ => []) s.cmp.banks key))

/-! ### Samples of a line -/

/-- `n` samples of `w` bits, most significant bit first. -/
def unpackMsb (w n : Nat) (bs : List Byte) : List Nat :=
  let v := beNat bs
  let top := 8 * bs.length
  (List.range n).map (fun i => v / 2 ^ (top - w * (i + 1)) % 2 ^ w)

/-- Samples of a line of a FORMAT (R43). -/
def lineSampleCount (width fmt : Nat) : Nat := if fmt ≤ 1 then 2 * width else 3 * width

/-- The three codes of a pixel, luma or red first; chroma between co-sited samples is none. -/
def pixelCodes (fmt : Nat) (l : List Nat) (x : Nat) : Nat × Option (Nat × Nat) :=
  if fmt ≤ 1 then
    let g := x / 2 * 4
    (l.getD (g + 1 + 2 * (x % 2)) 0, if x % 2 = 0 then some (l.getD g 0, l.getD (g + 2) 0) else none)
  else if fmt ≤ 3 then (l.getD (3 * x + 1) 0, some (l.getD (3 * x) 0, l.getD (3 * x + 2) 0))
  else (l.getD (3 * x) 0, some (l.getD (3 * x + 1) 0, l.getD (3 * x + 2) 0))

/-- The line of storage that holds a raster line (R47). -/
def storageLine (d : BitVec 256) (y : Nat) : Nat := if ringIl d then (if y % 2 = 0 then y / 2 else fieldLines d false + y / 2) else y
/-- The raster line a line of storage holds. -/
def rasterLine (d : BitVec 256) (i : Nat) : Nat :=
  if ringIl d then (let n1 := fieldLines d false; if i < n1 then 2 * i else 2 * (i - n1) + 1) else i

/-! ### Layers -/

/-- The pixels of a source line after stage 2: the signals of its codes, with chroma at every pixel (R225). -/
def lineSignals (src : BitVec 256) (codes : List Nat) : List Rgb :=
  let fmt := fget src RingDesc.formatF
  let bits := fmtBits fmt
  let full := fbit src RingDesc.range
  let luma (v : Nat) : Int := lumaSignal bits full v
  let other (v : Nat) : Int := if 4 ≤ fmt then lumaSignal bits full v else chromaSignal bits full v
  let px := (List.range (fget src RingDesc.width)).map (pixelCodes fmt codes)
  let co := px.filterMap (fun p => p.2)
  let cb := co.map (fun c => other c.1)
  let cr := co.map (fun c => other c.2)
  px.zipIdx.map (fun e => match e.1.2 with
    | some (b, c) => ⟨luma e.1.1, other b, other c⟩
    | none => ⟨luma e.1.1, Config.halfBand cb (e.2 / 2), Config.halfBand cr (e.2 / 2)⟩)

/-- The pixels of a line that enter the scaler: cropped, and pre-decimated where the crop is (R223). -/
def cropLine (crop : Crop) (line : List Rgb) : List Rgb :=
  let l := (line.drop crop.x).take crop.wide
  if crop.wide = crop.w then l
  else (List.range crop.w).map (fun i =>
    ⟨Config.decimate (l.map Rgb.r) i, Config.decimate (l.map Rgb.g) i, Config.decimate (l.map Rgb.b) i⟩)

/-- One axis of a layer's scaler (R221): FILTER, layer size, source samples, and by how many half samples the source lies lower (R224). -/
structure Axis where
  filter : Nat
  size : Nat
  count : Nat
  lower : Nat

/-- Where an output position lies in the source, in parts of twice the layer size; the offset of the first is open (log entry 43). -/
def Axis.place (a : Axis) (pos : Nat) : Int :=
  2 * pos * a.count + 2 * (Config.scalePhase a.filter a.size a.count % max 1 a.size : Nat) - a.lower * a.size

/-- The first of `n` taps at an output position. -/
def Axis.first (a : Axis) (n pos : Nat) : Int := (a.place pos).fdiv (2 * max 1 a.size) - (n / 2 : Nat) + 1

/-- The source samples under the taps of an output position. FILTER 3 repeats or drops samples by its position. -/
def Axis.under (a : Axis) (n pos : Nat) : List Nat :=
  if a.filter = 3 then [(clampInt 0 (a.count - 1) ((a.place pos).fdiv (2 * max 1 a.size))).toNat]
  else (List.range n).filterMap (fun (i : Nat) => let x : Int := a.first n pos + i; if 0 ≤ x && x < a.count then some x.toNat else none)

/-- What the axis gives for the samples under its taps. -/
def Axis.give (a : Axis) (n pos : Nat) (taps : List Int) : Int :=
  if a.filter = 3 then taps.headD 0
  else
    let phase := ((a.place pos).fmod (2 * max 1 a.size)).toNat * 64 / (2 * max 1 a.size)
    Config.scaleTap a.filter a.size a.count phase (-(a.first n pos)).toNat taps

/-- Taps of a FILTER on the horizontal and the vertical axis (R221). -/
def tapsAcross (filter : Nat) : Nat := if filter = 2 then 2 else 12
def tapsDown (filter : Nat) : Nat := if filter = 2 then 2 else 8

/-- What a layer brings to one output line: its records, its crop, its row, whether its lines pass the vertical axis unchanged and whether
its pixels pass stage 3 so, the codes of such a line, the axes, and the source lines under the vertical taps, ready for the scaler. -/
structure LayerRow where
  l : Nat
  rec_ : BitVec 256
  mat : BitVec 288
  src : BitVec 256
  crop : Crop
  direct : Bool
  exact : Bool
  row : Nat
  codes : List Nat
  across : Axis
  down : Axis
  lines : List (List Rgb)

/-- Whether a layer's lines pass the vertical axis unchanged: ratio 1, one interlace, fields in step (R222; DEDUCED, log entry 43). -/
def directLayer (rec_ src out : BitVec 256) (crop : Crop) : Bool :=
  fget rec_ Layer.layerH == crop.h && ringIl src == ringIl out && (!ringIl out || (fsgn rec_ Layer.posY - crop.y) % 2 == 0)

/-- Whether its samples pass stage 3 unchanged: both ratios 1 and no pre-decimation. -/
def exactLayer (rec_ src out : BitVec 256) (crop : Crop) : Bool :=
  directLayer rec_ src out crop && fget rec_ Layer.layerW == crop.w && crop.wide == crop.w

/-- The raster lines of a crop that are read for one output field: of an interlaced source those of one field, with how many half lines of it
they lie lower than the crop's top (R224). -/
def fieldOf (src : BitVec 256) (crop : Crop) (second : Bool) : List Nat × Nat :=
  if !ringIl src then ((List.range crop.h).map (crop.y + ·), 0)
  else
    let d := if crop.y % 2 = bit second then 0 else 1
    ((List.range ((crop.h + 1 - d) / 2)).map (fun k => crop.y + d + 2 * k), d)

/-- The layers of a composition that meet raster line `y` of its output, lowest first, each with its source lines. -/
def State.layerRows (s : State) (n : Nat) (v : CompSet) (d : BitVec 256) (y : Nat) : List LayerRow :=
  let c := n / 4
  (v.stack (n % 4)).filterMap (fun l =>
    let st := s.laySt (8 * c + l)
    let rec_ := v.layerRec l
    let row := (y : Int) - fsgn rec_ Layer.posY
    match st.crop, st.frame with
    | some crop, some first =>
      if row < 0 || fget rec_ Layer.layerH ≤ row.toNat then none else
      let r := fget rec_ Layer.sourceRing
      let src := s.ring r
      let filter := fget rec_ Layer.filter
      let codes (line : Nat) : List Nat :=
        unpackMsb (fmtBits (fget src RingDesc.formatF)) (lineSampleCount (fget src RingDesc.width) (fget src RingDesc.formatF))
          (s.frameBytes r first (lineAddr src (storageLine src line)) (fget src RingDesc.lineBytes))
      let direct := directLayer rec_ src d crop
      let second := if ringIl d then y % 2 == 1 else Config.sourceField first (s.compSt n).frames
      let (field, lower) := fieldOf src crop second
      let down : Axis := ⟨filter, fget rec_ Layer.layerH, field.length, lower⟩
      let under := if direct then [crop.y + row.toNat] else (down.under (tapsDown filter) row.toNat).map (fun i => field.getD i 0)
      some ⟨l, rec_, v.mats.getD l 0, src, crop, direct, exactLayer rec_ src d crop, row.toNat,
        if direct then codes (crop.y + row.toNat) else [], ⟨filter, fget rec_ Layer.layerW, crop.w, 0⟩, down,
        under.map (fun line => cropLine crop (lineSignals src (codes line)))⟩
    | _, _ => none)

/-- One channel of a layer's pixel after stage 3: horizontally first where the width is reduced, else vertically first (R222). -/
def LayerRow.scaled (r : LayerRow) (col : Nat) (ch : Rgb → Int) : Int :=
  let filter := fget r.rec_ Layer.filter
  let at_ (line : List Rgb) (x : Nat) : Int := ch (line.getD x ⟨0, 0, 0⟩)
  let xs := r.across.under (tapsAcross filter) col
  let hor (l : List Int) : Int := r.across.give (tapsAcross filter) col l
  let ver (l : List Int) : Int := if r.direct then l.headD 0 else r.down.give (tapsDown filter) r.row l
  if r.exact then at_ (r.lines.headD []) col
  else if fget r.rec_ Layer.layerW < r.crop.w then ver (r.lines.map (fun l => hor (xs.map (at_ l))))
  else hor (xs.map (fun x => ver (r.lines.map (fun l => at_ l x))))

/-- Stages 2 to 4: the signals of a layer's pixel, as R'G'B'. -/
def LayerRow.signals (r : LayerRow) (col : Nat) : Rgb :=
  let p : Rgb := ⟨r.scaled col Rgb.r, r.scaled col Rgb.g, r.scaled col Rgb.b⟩
  if 4 ≤ fget r.src RingDesc.formatF then p else toRgb (fget r.rec_ Layer.srcGamut) p.r p.g p.b

/-- Stages 5 to 8. -/
def State.layerLight (s : State) (c : Nat) (out : BitVec 256) (r : LayerRow) (p : Rgb) : Rgb :=
  let e := r.rec_
  let gamut := fget e Layer.srcGamut
  let bits := fmtBits (fget r.src RingDesc.formatF)
  let lin := if fget e Layer.srcTf = 3 then
      match s.lutBank 0 (fget e Layer.linBank) (8 * c + r.l) with
      | some b => p.map (linLookup b bits)
      | none => p.map (max 0)
    else toLight (fget e Layer.srcTf) gamut p
  let q := matMul (if fbit e Layer.matrixEn then customMatrix r.mat else gamutMatrix gamut (fget out CompOut.outGamut)) lin
  match fget e Layer.tone with
  | 0 => q
  | 1 => toneMap (toneCurve (fget e Layer.knee) (fget e Layer.srcPeak) (fget e Layer.dstPeak)) q
  | t => match s.lutBank 1 (t - 2) c with
    | some b => toneMap (toneLookup b) q
    | none => q

/-! ### Output -/

/-- The background's codes (R216), luma or red first. -/
def backCodes (out : BitVec 256) : Nat × Nat × Nat :=
  let fmt := fget out CompOut.outSample
  let full := fbit out CompOut.outRange
  if fbit out CompOut.bgCustom then
    let cut (v : Nat) : Nat := if fmt % 2 = 0 then v / 4 else v
    let (y, b, r) := (cut (fget out CompOut.bgY), cut (fget out CompOut.bgCb), cut (fget out CompOut.bgCr))
    if 4 ≤ fmt then (r, y, b) else (y, b, r)
  else (blackLuma fmt full, blackChroma fmt full, blackChroma fmt full)

/-- The background, linearised by the inverse of the output encoding (R220). -/
def backLight (out : BitVec 256) : Rgb :=
  let fmt := fget out CompOut.outSample
  let bits := fmtBits fmt
  let full := fbit out CompOut.outRange
  let gamut := fget out CompOut.outGamut
  let (a, b, c) := backCodes out
  let p : Rgb := if 4 ≤ fmt then ⟨lumaSignal bits full a, lumaSignal bits full b, lumaSignal bits full c⟩
    else toRgb gamut (lumaSignal bits full a) (chromaSignal bits full b) (chromaSignal bits full c)
  toLight (fget out CompOut.outTf) gamut p

/-- The cursor's bitmap word over a pixel, none where no cursor pixel lies. -/
def cursorWord (p : BitVec 128) (bitmap : List Byte) (x y : Nat) : Option Nat :=
  if !fbit p Cursor.curEn then none else
  let bx := (x : Int) - (fsgn p Cursor.curX - fget p Cursor.hotX)
  let by_ := (y : Int) - (fsgn p Cursor.curY - fget p Cursor.hotY)
  if 0 ≤ bx && bx < 256 && 0 ≤ by_ && by_ < 256 then some (leNat ((bitmap.drop (4 * (256 * by_.toNat + bx.toNat))).take 4)) else none

/-- R232, with the cursor aside: the layer whose samples pass unchanged. -/
def bypassLayer (out : BitVec 256) (d : BitVec 256) (rows : List LayerRow) (enabled : Nat) : Option LayerRow :=
  match rows with
  | [r] =>
    let e := r.rec_
    if enabled == 1 && r.exact && fget r.src RingDesc.formatF == fget d RingDesc.formatF && fbit r.src RingDesc.range == fbit d RingDesc.range &&
      fget e Layer.srcTf == fget out CompOut.outTf && fget e Layer.srcGamut == fget out CompOut.outGamut && fget e Layer.alpha == 1023 &&
      fget e Layer.tone == 0 && !fbit e Layer.matrixEn && !fbit out CompOut.lut3dEn &&
      (2 ≤ fget d RingDesc.formatF || (fsgn e Layer.posX - r.crop.x) % 2 == 0) then some r else none
  | _ => none

/-- Stages 10 to 15 for an output pixel: its codes, luma or red first. -/
def encodePixel (out : BitVec 256) (cube3 : Option (List Byte)) (word : Option Nat) (p : Rgb) : Nat × Nat × Nat :=
  let fmt := fget out CompOut.outSample
  let bits := fmtBits fmt
  let full := fbit out CompOut.outRange
  let tf := fget out CompOut.outTf
  let gamut := fget out CompOut.outGamut
  let enc := toSignal tf gamut (clipRgb (fget out CompOut.clipMode) gamut (outPeak tf (fget out CompOut.pqPeak)) p)
  let enc := match cube3 with | some b => cube b enc | none => enc
  let enc := match word with | some w => cursorOver w enc | none => enc
  if 4 ≤ fmt then (lumaCode bits full enc.r, lumaCode bits full enc.g, lumaCode bits full enc.b)
  else
    let (y, cb, cr) := fromRgb gamut enc
    (lumaCode bits full y, chromaCode bits full cb, chromaCode bits full cr)

/-- Whether a pixel lies in the quadrant of a failed member of the gang (R213, R239). -/
def inFailed (out : BitVec 256) (bad : List Nat) (x y : Nat) : Bool :=
  bad.contains (bit (decide (fget out CompOut.outW ≤ 2 * x)) + 2 * bit (decide (fget out CompOut.outH ≤ 2 * y)))

/-- The codes of the pixels of raster line `y`. -/
def State.linePixels (s : State) (n : Nat) (v : CompSet) (d : BitVec 256) (y : Nat) : List (Nat × Nat × Nat) :=
  let c := n / 4
  let st := s.compSt n
  let mode := v.mode
  let rows := s.layerRows n v d y
  let pass := bypassLayer v.out d rows (v.stack (n % 4)).length
  let back := backLight v.out
  let cube3 := if fbit v.out CompOut.lut3dEn then s.lutBank 2 (fget v.out CompOut.lut3dBank) c else none
  let pos := if ringIl d && y % 2 = 1 then st.pos2 else st.pos
  let bitmap := if mode = 0 then (s.lutBank 3 (fget v.cur Cursor.curBank) c).getD [] else []
  (List.range (fget v.out CompOut.outW)).map (fun x =>
    let word := if mode = 0 then cursorWord pos bitmap x y else none
    let dark := inFailed v.out st.gangFault x y
    let layerAt (r : LayerRow) : Option Nat :=
      let col := (x : Int) - fsgn r.rec_ Layer.posX
      if dark || col < 0 || fget r.rec_ Layer.layerW ≤ col.toNat then none else some col.toNat
    let full (_ : Unit) := encodePixel v.out cube3 (if dark then none else word) (rows.foldl (fun acc r =>
      match layerAt r with
      | none => acc
      | some col => blendOver (fget r.rec_ Layer.alpha) (s.layerLight c v.out r (r.signals col)) acc) back)
    match pass with
    | none => full ()
    | some r => match word, layerAt r with
      | none, some col =>
        let (a, o) := pixelCodes (fget r.src RingDesc.formatF) r.codes (r.crop.x + col)
        let (b, e) := o.getD (0, 0)
        (a, b, e)
      | _, _ => full ())

/-- The samples of a line in the order of R43. Chroma of 4:2:2 is that of the even pixels, with which it is co-sited (DEDUCED, log entry
44). -/
def orderSamples (fmt : Nat) : List (Nat × Nat × Nat) → List Nat
  | [] => []
  | (y, b, r) :: l =>
    if 4 ≤ fmt then y :: b :: r :: orderSamples fmt l
    else if 2 ≤ fmt then b :: y :: r :: orderSamples fmt l
    else match l with
      | [] => [b, y, r]
      | (y1, _, _) :: l' => b :: y :: r :: y1 :: orderSamples fmt l'

/-- The bytes of a line of storage of the output frame. -/
def State.compLine (s : State) (n : Nat) (v : CompSet) (d : BitVec 256) (i : Nat) : List Byte :=
  let fmt := fget d RingDesc.formatF
  fitBytes (ringPitch d) (packMsb (fmtBits fmt) (orderSamples fmt (s.linePixels n v d (rasterLine d i))))

/-- Tile `j` of the output frame of a conversion or composition: whole lines at their pitch, each field apart (R46, R47). -/
def State.compTile (s : State) (n : Nat) (v : CompSet) (j : Nat) : List Byte :=
  let d := s.ring (fget v.out CompOut.outRing)
  let p := max 1 (ringPitch d)
  let n1 := fieldTiles d false
  let second := ringIl d && n1 ≤ j
  let at_ := 4096 * (if second then j - n1 else j)
  let first := at_ / p
  let lines := (List.range ((at_ + 4095) / p + 1 - first)).map (· + first)
  let bytes := lines.flatMap (fun i => if i < fieldLines d second then
    s.compLine n v d (if second then fieldLines d false + i else i) else List.replicate p 0)
  fitBytes 4096 (bytes.drop (at_ % p))

end Sys2Proof.Machine
end

