-- ==== Sys2Proof/Machine/Salvos.lean ====
section
/-! DEFINITION. Salvos and presets (R117 to R126, R416, R417): adding, admitting, taking and abandoning a salvo on this device and
across a Troupe, its queries, and the preset region of the MRAM. -/

namespace Sys2Proof.Machine

open Sys2Proof

/-! ### Entries (R126) -/

/-- A salvo entry at a parameter offset: of its record the fields a write sets (R100). -/
def readEntry (bs : List Byte) : SalvoEntry :=
  ⟨leNat (bs.take 1), leNat ((bs.drop 2).take 2), mergeRec RouteEntry.layout 0 ((bs.drop 4).take 32)⟩

/-- The 36 bytes of an entry. -/
def entryBytes (e : SalvoEntry) : List Byte := leBytes 1 e.member ++ leBytes 1 0 ++ leBytes 2 e.output ++ recBytes e.rec_

/-- R416, R417, R99: the ranges of an entry at a parameter offset. -/
def entryOk (off : Nat) (bs : List Byte) : Except Err Unit := do
  let e := readEntry bs
  let raw : BitVec 256 := BitVec.ofNat 256 (leNat ((bs.drop 4).take 32))
  needAt (e.member < 8) off
  needAt (leNat ((bs.drop 1).take 1) == 0) (off + 1)
  needAt (e.output < 2048) (off + 2)
  match rangeBad RouteEntry.layout e.rec_ with
  | some o => errAt eRange (off + 4 + o)
  | none =>
    needAt (fget raw RouteEntry.pendState == 0 && fget raw RouteEntry.salvoId == 0) (off + 18)
    needAt (fget raw RouteEntry.gen == 0) (off + 20)
    needAt (fget raw RouteEntry.appliedFrame == 0) (off + 24)
    entryRange e.output e.rec_ (off + 4)

/-- R417: an entry added, in the place of the one it replaces. -/
def addEntry (l : List SalvoEntry) (e : SalvoEntry) : List SalvoEntry :=
  if l.any (fun x => x.member == e.member && x.output == e.output) then
    l.map (fun x => if x.member == e.member && x.output == e.output then e else x)
  else l ++ [e]

/-- R117: at most 1,024 entries for any one member. -/
def entriesFit (l : List SalvoEntry) : Bool := (List.range 8).all (fun m => (l.filter (fun e => e.member == m)).length ≤ 1024)

/-- The mask of members a salvo touches. -/
def salvoMembers (v : Salvo) : Nat := listMask (v.entries.map (·.member))

/-- The other members it touches. -/
def otherMembers (s : State) (v : Salvo) : List Nat := (maskList 8 (salvoMembers v)).filter (· != s.member)

/-! ### Who asks (R124, R417) -/

/-- The member a salvo command comes from: the sender on P1, this device on every other port. -/
def originOf (q : Req) (s : State) : Nat := match q.port with | .p1 => q.sender | _ => s.member

/-- SALVO, in range, and a salvo whose origin is the member that asks. -/
def salvoArg (q : Req) (off : Nat) (s : State) : Except Err Nat := do
  let n := Req.u8 q off
  needAt (n < 64) off
  need ((s.salvo n).state == .empty || (s.salvo n).origin == originOf q s) eState
  return n

/-- Whether the salvo is in one of the listed states (R117). -/
def needState (v : Salvo) (l : List SalvoState) : Except Err Unit := need (l.contains v.state) eState

/-- A refusal of this member's budget names it in MEMBER (R118, R335). -/
def inMember {α : Type} (m : Nat) (x : Except Err α) : Except Err α :=
  match x with
  | .error e => if e.status = eBudget then .error { e with result := fitBytes 13 e.result ++ leBytes 1 m } else .error e
  | .ok a => .ok a

/-- The request forwarded to another member (R341, R124), with what the origin sends beside it. -/
def State.forwardTo (op : Nat) (q : Req) (extra : Nat) (s : State) (m : Nat) : State :=
  match linkTo s m with
  | some k => s.sendMessage k msgCommand (requestBytes op q ++ leBytes 8 extra)
  | none => s

/-- The other members a Troupe-wide command asks: none where it came from one of them, nor on a shadow, whose primary asks. -/
def askOthers (q : Req) (s : State) (l : List Nat) : List Nat := if q.port = .p1 || s.role == .shadow then [] else l.filter (· != s.member)

/-- R124, R341: a working path to every other member a command concerns. -/
def pathsTo (q : Req) (s : State) (l : List Nat) : Bool := (askOthers q s l).all (fun m => (linkTo s m).isSome)
def pathsOk (q : Req) (s : State) (v : Salvo) : Bool := pathsTo q s (otherMembers s v)

/-- Entries for members of the Troupe, forwarded by SALVO_ADD to those they concern (R124), at most 27 to a message; `fuel` bounds the
messages. -/
def State.forwardEntries (q : Req) (n : Nat) : Nat → List SalvoEntry → State → State
  | 0, _, s => s
  | fuel + 1, l, s =>
    if l.isEmpty then s else
    let now := l.take 27
    let body := leBytes 1 n ++ leBytes 1 now.length ++ leBytes 2 0 ++ now.flatMap entryBytes
    let own := { q with length := BitVec.ofNat 16 body.length, deadline := 0, params := body }
    State.forwardEntries q n fuel (l.drop 27)
      ((askOthers q s (now.map (·.member)).eraseDups).foldl (State.forwardTo 0x0600 own 0) s)

/-! ### SALVO_ADD, SALVO_ENTRIES, SALVO_QUERY -/

def salvoAddCheck (q : Req) (s : State) : Except Err (Nat × List SalvoEntry) := do
  let n ← salvoArg q 0 s
  let c := Req.u8 q 1
  needAt (1 ≤ c && c ≤ 27) 1
  Req.zeroAt q 2 2
  (List.range c).foldl (fun ok i => do ok; entryOk (4 + 36 * i) (fitBytes 36 (Req.slice q (4 + 36 * i) 36))) (.ok ())
  Req.layout q (4 + 36 * c)
  needState (s.salvo n) [.empty, .preparing]
  need (pathsTo q s ((List.range c).map (fun i => Req.u8 q (4 + 36 * i)))) eState
  let l := (List.range c).foldl (fun l i => addEntry l (readEntry (fitBytes 36 (Req.slice q (4 + 36 * i) 36)))) (s.salvo n).entries
  needAt (entriesFit l) noField
  return (n, l)

/-- The salvo with its entries, PREPARING. -/
def salvoPrepare (q : Req) (n : Nat) (l : List SalvoEntry) (s : State) : State :=
  s.setSalvo n { s.salvo n with state := .preparing, entries := l, origin := originOf q s }

def cmdSalvoAdd (q : Req) (s0 : State) : Res := do
  let s := s0.settleSalvo (Req.u8 q 0)
  let (n, l) ← salvoAddCheck q s
  let members := ((List.range (Req.u8 q 1)).map (fun i => Req.u8 q (4 + 36 * i))).eraseDups
  return ((askOthers q s members).foldl (State.forwardTo 0x0600 q 0) (salvoPrepare q n l s), leBytes 2 l.length)

/-- SALVO_ADD (R417). -/
def execSalvoAdd (q : Req) (s : State) : Out := serve 0x0600 cmdSalvoAdd q s

/-- A number of another member's answer. -/
def peerField (peers : List PeerAnswer) (m off n : Nat) : Nat :=
  match peers.find? (fun p => p.member.val == m) with
  | some p => leNat ((p.result.drop off).take n)
  | none => 0

/-- STATE of SALVO_QUERY (R416). -/
def salvoCode : SalvoState → Nat
  | .empty => 0 | .preparing => 1 | .admitted => 2 | .committed => 3 | .done => 4

/-- Counts of outputs switched, per member: this device's own, the others' as they answered (bytes `at_ + 2m` of their results). -/
def switchedBytes (s : State) (v : Salvo) (peers : List PeerAnswer) (at_ : Nat) : List Byte :=
  (List.range 8).flatMap (fun m =>
    if m = s.member then leBytes 2 (tget natReset v.switched m)
    else match peers.find? (fun p => p.member.val == m) with
      | some p => fitBytes 2 ((p.result.drop (at_ + 2 * m)).take 2)
      | none => leBytes 2 (tget natReset v.switched m))

def cmdSalvoQuery (peers : List PeerAnswer) (q : Req) (s0 : State) : Res := do
  let s := s0.settleSalvo (Req.u8 q 0)
  let n ← salvoArg q 0 s
  Req.layout q 1
  let v := s.salvo n
  return (s, leBytes 1 (salvoCode v.state) ++ leBytes 1 (salvoMembers v) ++ leBytes 2 v.entries.length ++ leBytes 4 0 ++
    leBytes 8 (s.armed n) ++ switchedBytes s v peers 16)

/-- SALVO_QUERY (R416). -/
def execSalvoQuery (q : Req) (peers : List PeerAnswer) (s : State) : Out := serve 0x0604 (cmdSalvoQuery peers) q s peers

def cmdSalvoEntries (q : Req) (s0 : State) : Res := do
  let s := s0.settleSalvo (Req.u8 q 0)
  let n ← salvoArg q 0 s
  Req.zeroAt q 1 1
  Req.layout q 4
  let l := ((s.salvo n).entries.drop (Req.u16 q 2)).take 27
  return (s, leBytes 2 l.length ++ leBytes 2 0 ++ l.flatMap entryBytes)

/-- SALVO_ENTRIES (R417). -/
def execSalvoEntries (q : Req) (s : State) : Out := serve 0x0605 cmdSalvoEntries q s

/-! ### SALVO_ADMIT (R118) -/

/-- What another member answered: its refusal, with its number in MEMBER of an E_BUDGET. -/
def peerOk (peers : List PeerAnswer) (m : Nat) : Except Err Unit :=
  match peers.find? (fun p => p.member.val == m) with
  | none => err eTimeout
  | some p =>
    if p.status = 0 then .ok ()
    else if p.status.toNat = eBudget then .error ⟨eBudget, fitBytes 13 p.result ++ leBytes 1 m, none⟩
    else .error ⟨p.status.toNat, p.result, none⟩

/-- The members' answers, in rising order. -/
def peersOk (peers : List PeerAnswer) (l : List Nat) : Except Err Unit :=
  l.foldl (fun ok m => do ok; peerOk peers m) (.ok ())

/-- The claims of this device's entries, each checked (R104, R105, R118). -/
def ownClaims (s : State) (l : List SalvoEntry) : Except Err (List Hold) := do
  need (l.all (fun e => fget (s.routeP e.output) RouteEntry.pendState == 0)) eBusy
  l.foldl (fun acc e => do
    let a ← acc
    let f ← entryChecks s e.output e.rec_ noField
    return a ++ entryClaims s e.output e.rec_ f) (.ok [])

def ownEntries (s : State) (v : Salvo) : List SalvoEntry := v.entries.filter (fun e => e.member == s.member)

def salvoAdmitCheck (peers : List PeerAnswer) (q : Req) (s : State) : Except Err (Nat × State) := do
  let n ← salvoArg q 0 s
  Req.layout q 1
  let v := s.salvo n
  needState v [.preparing, .done]
  need (pathsOk q s v) eState
  let claims ← ownClaims s (ownEntries s v)
  let t ← inMember s.member (claimAll claims (fun _ => false) s)
  peersOk peers (askOthers q s (otherMembers s v))
  return (n, t)

/-- Every entry of this device HELD for the salvo, which is ADMITTED. -/
def salvoAdmitDo (n : Nat) (s : State) : State :=
  let v := s.salvo n
  (ownEntries s v).foldl (fun s e => s.setRouteP e.output
    (fput (fput e.rec_ RouteEntry.pendState pendHeld) RouteEntry.salvoId n)) (s.setSalvo n { v with state := .admitted, switched := [], acks := 0 })

def cmdSalvoAdmit (peers : List PeerAnswer) (q : Req) (s0 : State) : Res := do
  let s := s0.settleSalvo (Req.u8 q 0)
  let (n, t) ← salvoAdmitCheck peers q s
  return ((askOthers q s (otherMembers s (s.salvo n))).foldl (State.forwardTo 0x0601 q 0) (salvoAdmitDo n t), leBytes 1 (salvoMembers (s.salvo n)))

/-- SALVO_ADMIT (R118). -/
def execSalvoAdmit (q : Req) (peers : List PeerAnswer) (s : State) : Out := serve 0x0601 (cmdSalvoAdmit peers) q s peers

/-! ### SALVO_TAKE (R119 to R121, R124) -/

/-- The outputs of this device still HELD for a salvo. -/
def heldOutputs (s : State) (n : Nat) : List Nat :=
  (s.rte.pending.filter (fun e => fget e.2 RouteEntry.pendState == pendHeld && fget e.2 RouteEntry.salvoId == n)).map (·.1)

/-- Outputs of this device that have latched an entry of a salvo and not yet switched. -/
def latchedOutputs (s : State) (n : Nat) : List Nat :=
  (s.rte.outs.filter (fun e => match e.2.latched with
    | some p => fget p RouteEntry.pendState == pendHeld && fget p RouteEntry.salvoId == n
    | none => false)).map (·.1)

/-- The earliest switch point, at or after a TARGET, of outputs of this device, beside those told by other members; TARGET itself where
there is none. -/
def earliestSwitch (s : State) (outs : List Nat) (others : List Nat) (target : Nat) : Nat :=
  let l := outs.filterMap (fun o => (s.outFmt o).map (fun f => s.switchAfter f target)) ++ others
  match l with
  | [] => target
  | x :: xs => xs.foldl min x

/-- The earliest switch points that other members told (R121): at the TARGET asked for in bytes 16 to 23 of their answers, at a TARGET of
1 ms from receipt in bytes 24 to 31 (DESIGN CHOICE, log entry 117). -/
def peersEarliest (peers : List PeerAnswer) (l : List Nat) (moved : Bool) : List Nat :=
  (l.map (fun m => peerField peers m (if moved then 24 else 16) 8)).filter (· != 0)

/-- How far ahead of a switch point a command must have been received: 1 ms, and the accuracy of a SOFT stamp (R120, R121). -/
def takeAhead (q : Req) : Nat := match q.port with | .p2 => 1002000 | _ => 1000000

/-- TAKE_LATE (R540): 1 REFUSED, 2 MOVED. -/
def lateEvent (reason salvo target earliest receipt : Nat) : Ev :=
  ⟨0x63, locSwitch, true, reason, leBytes 1 salvo ++ leBytes 3 0 ++ leBytes 8 target ++ leBytes 8 earliest ++ leBytes 8 receipt⟩

def State.takeLate (reason salvo target earliest receipt : Nat) (s : State) : State :=
  s.raise (lateEvent reason salvo target earliest receipt)

/-- How a take stands against its deadline (R121): the TARGET to arm, whether it was moved, and the earliest switch points under that
TARGET and under the one asked for; a late take without NEXT_OK is refused. -/
def takeTiming (s : State) (peers : List PeerAnswer) (q : Req) (n receipt : Nat) : Except Err (Nat × Bool × Nat × Nat) := do
  let asked := Req.u64 q 8
  let soonest := receipt + 1000000
  needAt (asked ≤ receipt + 60000000000) 8
  let ask := askOthers q s (otherMembers s (s.salvo n))
  let next := earliestSwitch s (heldOutputs s n) (peersEarliest peers ask true) soonest
  if asked = 0 then return (soonest, false, next, next)
  else
    let e := earliestSwitch s (heldOutputs s n) (peersEarliest peers ask false) asked
    if receipt + takeAhead q ≤ e then return (asked, false, e, e)
    else if Req.nextOk q then return (soonest, true, next, e)
    else .error ⟨eLate, [], some (lateEvent 1 n asked e receipt)⟩

/-- A write with TARGET against its deadline (R121, R238, R247), where `first` gives the instant it applies at for a TARGET: the TARGET it
is held for, and the state with TAKE_LATE where that was moved. A late write without NEXT_OK is refused. -/
def heldTiming (s : State) (q : Req) (receipt : Nat) (first : Nat → Nat) : Except Err (Nat × State) := do
  let asked := Req.u64 q 4
  needAt (asked ≤ receipt + 60000000000) 4
  let e := first asked
  if receipt + takeAhead q ≤ e then return (asked, s)
  else if Req.nextOk q then return (receipt + 1000000, s.takeLate 2 0xFF asked e receipt)
  else .error ⟨eLate, [], some (lateEvent 1 0xFF asked e receipt)⟩

def salvoTakeCheck (peers : List PeerAnswer) (q : Req) (receipt : Nat) (s : State) : Except Err (Nat × Nat × Bool × Nat × Nat) := do
  let n ← salvoArg q 0 s
  Req.zeroAt q 1 7
  Req.layout q 16
  let v := s.salvo n
  needState v [.admitted]
  need (pathsOk q s v) eState
  let (target, moved, e, first) ← takeTiming s peers q n receipt
  return (n, target, moved, e, first)

/-- The salvo armed: COMMITTED, with SALVO_TAKEN, and TAKE_LATE where TARGET was moved: `first` is the switch point that was too near. -/
def salvoTakeDo (n target asked receipt : Nat) (moved : Bool) (earliest first : Nat) (s : State) : State :=
  let s1 := if moved then s.takeLate 2 n asked first receipt else s
  ((s1.setArm n target).setSalvo n { s1.salvo n with
    state := .committed, target := target, earliest := earliest, acks := 2 ^ s.member }).raise
    ⟨0x62, locSwitch, true, 0, leBytes 1 n ++ leBytes 3 0 ++ leBytes 8 target ++ leBytes 8 earliest⟩

def cmdSalvoTake (peers : List PeerAnswer) (q : Req) (s0 : State) : Except Err Ans := do
  let s := s0.settleSalvo (Req.u8 q 0)
  let receipt := receiptOf 0x0602 q s
  let (n, target, moved, e, first) ← salvoTakeCheck peers q receipt s
  let t := (salvoTakeDo n target (Req.u64 q 8) receipt moved e first s).settleSalvo n
  let res := leBytes 4 (bit moved) ++ leBytes 4 0 ++ leBytes 8 target ++ leBytes 8 e
  let others := askOthers q s (otherMembers s (s.salvo n))
  if others.isEmpty then return .now t res
  else
    let own := { q with params := (Req.slice q 0 8) ++ leBytes 8 target }
    return .later (others.foldl (State.forwardTo 0x0602 own receipt) t) (.takeAcks n) res

/-- SALVO_TAKE (R119, R121): on a Troupe-wide salvo the response waits for every acknowledgement (R124). -/
def execSalvoTake (q : TakeReq) (s : State) : Out := serveAns 0x0602 (cmdSalvoTake q.peers) q.req s q.peers

/-- The waiting job of a Troupe-wide take. -/
def takeJob (n : Nat) (j : Job) : Bool := j.kind == .takeAcks n

/-- A waiting job is answered and leaves the list. -/
def State.answerJob (p : Job → Bool) (status : Nat) (result : Job → List Byte) (s : State) : State :=
  match s.ctl.jobs.find? p with
  | none => s
  | some j => respond j.opcode status j.req (result j) (s.onCtl (fun c => { c with jobs := c.jobs.eraseP p }))

/-- TAKE_ACK (R124): the origin responds once every member has acknowledged. -/
def execTakeAck (salvo : Fin 64) (member : Fin 8) (s0 : State) : Out :=
  let n := salvo.val
  let s := s0.fresh
  let v := s.salvo n
  if !(s.ctl.jobs.any (takeJob n)) || maskBit v.acks member.val then done s else
  let v' := { v with acks := v.acks + 2 ^ member.val }
  let s1 := s.setSalvo n v'
  done (if (otherMembers s v').all (maskBit v'.acks) then s1.answerJob (takeJob n) 0 (·.result) else s1)

/-- TAKE_ACK_DEADLINE (R125): E_TAKE_SPLIT with the member masks, and TAKE_SPLIT. -/
def execTakeAckDeadline (salvo : Fin 64) (s0 : State) : Out :=
  let n := salvo.val
  let s := s0.fresh
  let v := s.salvo n
  if !(s.ctl.jobs.any (takeJob n)) then done s else
  let armed := listMask ((maskList 8 (salvoMembers v)).filter (maskBit v.acks))
  let unknown := listMask ((maskList 8 (salvoMembers v)).filter (fun m => !maskBit v.acks m))
  let masks := leBytes 1 armed ++ leBytes 1 unknown
  done ((s.answerJob (takeJob n) eTakeSplit (fun _ => masks)).raise ⟨0x64, locSwitch, true, 0, masks⟩)

/-! ### SALVO_ABANDON (R122) -/

def salvoAbandonCheck (peers : List PeerAnswer) (q : Req) (receipt : Nat) (s : State) : Except Err Nat := do
  let n ← salvoArg q 0 s
  Req.layout q 1
  let v := s.salvo n
  needState v [.preparing, .admitted, .committed, .done]
  let left := heldOutputs s n ++ latchedOutputs s n
  if v.state == .committed && !left.isEmpty then
    need (receipt + takeAhead q ≤ min (earliestSwitch s (heldOutputs s n) [] (max (s.armed n) s.now))
      (earliestSwitch s left [] s.now)) eLate
  need (pathsOk q s v) eState
  if v.state == .admitted || v.state == .committed then
    peersOk peers (askOthers q s (otherMembers s v))
  return n

/-- The HELD entries of a salvo cleared and their claims released. -/
def clearHeld (n : Nat) (s : State) : State :=
  (heldOutputs s n).foldl (fun s o =>
    (s.setRouteP o (fput (fput (s.routeP o) RouteEntry.pendState 0) RouteEntry.salvoId 0)).release (pendingOf o)) s

/-- Disarmed, its HELD entries gone, EMPTY. -/
def salvoAbandonDo (n : Nat) (s : State) : State := ((clearHeld n s).setArm n 0).setSalvo n (salvoReset 0)

def cmdSalvoAbandon (peers : List PeerAnswer) (q : Req) (s0 : State) : Res := do
  let s := s0.settleSalvo (Req.u8 q 0)
  let receipt := receiptOf 0x0603 q s
  let n ← salvoAbandonCheck peers q receipt s
  let others := askOthers q s (otherMembers s (s.salvo n))
  return (others.foldl (State.forwardTo 0x0603 q receipt) (salvoAbandonDo n s), switchedBytes s (s.salvo n) peers 0)

/-- SALVO_ABANDON (R122). -/
def execSalvoAbandon (q : Req) (peers : List PeerAnswer) (s : State) : Out := serve 0x0603 (cmdSalvoAbandon peers) q s peers

/-! ### Presets (R126) -/

def State.preset (s : State) (p : Nat) : List Byte := tget bytesReset s.rte.presets p

/-- The MRAM region that holds a preset (R487, R539). -/
def presetRegion (p : Nat) : Nat := 36 + p / 16

/-- The bytes of a preset: header and entries. -/
def presetBytes (l : List SalvoEntry) : List Byte :=
  let body := l.flatMap entryBytes
  [0x5A, 0x50, 0x52, 0x53] ++ leBytes 2 Config.presetVersion.toNat ++ leBytes 2 l.length ++ leBytes 4 (crc32c body) ++ leBytes 4 0 ++ body

/-- Entries of a stored preset. -/
def presetCount (bs : List Byte) : Nat := leNat ((bs.drop 6).take 2)

/-- Whether a preset's CRC holds: not in a region marked bad (R451). -/
def State.presetOk (s : State) (p : Nat) : Bool :=
  let bs := s.preset p
  !s.rec_.badRegions.contains (presetRegion p) &&
    leNat ((bs.drop 8).take 4) == crc32c ((bs.drop 16).take (36 * presetCount bs))

def presetStoreCheck (q : Req) (s : State) : Except Err (Nat × List SalvoEntry) := do
  let n ← salvoArg q 0 s
  Req.layout q 4
  let v := s.salvo n
  needState v [.preparing, .admitted]
  needAt (Req.u16 q 2 < v.entries.length) 2
  return (Req.u8 q 1, (v.entries.drop (Req.u16 q 2)).take 1024)

def cmdPresetStore (q : Req) (s0 : State) : Res := do
  let s := s0.settleSalvo (Req.u8 q 0)
  let (p, l) ← presetStoreCheck q s
  return (s.onRte (fun r => { r with presets := tset bytesReset r.presets p (presetBytes l) }), leBytes 2 l.length)

/-- PRESET_STORE (R126). -/
def execPresetStore (q : Req) (s : State) : Out := serve 0x0606 cmdPresetStore q s

/-- The entries of a stored preset. -/
def presetEntries (bs : List Byte) : List SalvoEntry :=
  (List.range (presetCount bs)).map (fun i => readEntry ((bs.drop (16 + 36 * i)).take 36))

/-- The checks of PRESET_LOAD. A preset that was never stored answers E_STATE, for which the spec gives no status (DESIGN CHOICE, log entry
107). -/
def presetLoadCheck (q : Req) (s : State) : Except Err (Nat × List SalvoEntry) := do
  let p := Req.u8 q 0
  let n ← salvoArg q 1 s
  Req.layout q 2
  needState (s.salvo n) [.empty, .preparing]
  need (!(s.preset p).isEmpty) eState
  if !s.presetOk p then .error ⟨eCheck, [], some (Ev.plain 0x6A (locMram (presetRegion p)))⟩
  else
    let es := presetEntries (s.preset p)
    es.foldl (fun ok e => do ok; entryRange e.output e.rec_ noField) (.ok ())
    need (pathsTo q s (es.map (·.member))) eState
    let l := es.foldl addEntry (s.salvo n).entries
    needAt (entriesFit l) noField
    return (n, l)

def cmdPresetLoad (q : Req) (s0 : State) : Res := do
  let s := s0.settleSalvo (Req.u8 q 1)
  let (n, l) ← presetLoadCheck q s
  let others := (presetEntries (s.preset (Req.u8 q 0))).filter (fun e => e.member != s.member)
  return (State.forwardEntries q n others.length others (salvoPrepare q n l s), leBytes 2 l.length)

/-- PRESET_LOAD (R126). -/
def execPresetLoad (q : Req) (s : State) : Out := serve 0x0607 cmdPresetLoad q s

def cmdPresetDelete (q : Req) (s : State) : Res := do
  Req.layout q 1
  return (s.onRte (fun r => { r with presets := tdel r.presets (Req.u8 q 0) }), [])

/-- PRESET_DELETE (R416). -/
def execPresetDelete (q : Req) (s : State) : Out := serve 0x0608 cmdPresetDelete q s

def cmdPresetList (q : Req) (s : State) : Res := do
  Req.layout q 0
  return (s, (List.range 256).flatMap (fun p =>
    leBytes 2 (if (s.preset p).isEmpty then 0 else if s.presetOk p then presetCount (s.preset p) else 0xFFFF)))

/-- PRESET_LIST (R416). -/
def execPresetList (q : Req) (s : State) : Out := serve 0x0609 cmdPresetList q s

end Sys2Proof.Machine
end

