-- ==== Sys2Proof/Machine/Compose.lean ====
section
/-! DEFINITION. Composers (R212 to R241, R418 to R420): the checks and claims of output, layer, matrix and cursor records, table loads,
the latch, and what happens at F. -/

namespace Sys2Proof.Machine

open Sys2Proof

/-! ### Timing of a conversion or composition (R217, R236) -/

def compRate (o : BitVec 256) : Nat := fget o CompOut.outRate
def compTotal (o : BitVec 256) : Nat := totalLines (fget o CompOut.outH)
def compFrameTu (o : BitVec 256) : Nat := frameTu (compRate o)
/-- Phase of F on the plane. -/
def compPhase (o : BitVec 256) : Nat := fget o CompOut.compOffset * lineTu (compRate o) (max 1 (compTotal o))
/-- LAG in lines (R234, R236). -/
def compLag (o : BitVec 256) : Nat := if fbit o CompOut.tight then 16 else 24

/-- PTP time of the first F at or after a PTP time. -/
def State.compNextF (s : State) (o : BitVec 256) (ns : Nat) : Nat :=
  let p := fget o CompOut.plane
  s.stampOf p (gridNext (s.planeOf p ns) (compFrameTu o) (compPhase o))

/-- The conversion whose output record governs a layer. -/
def layerConv (mode l : Nat) : Nat := if mode = 1 && l < 4 then l else 0

/-- How late, in time units, a source's frame start is against F: negative is early (R236). -/
def State.compOffsetOf (s : State) (o : BitVec 256) (r : Nat) : Option Int :=
  let frame := compFrameTu o
  match s.cmp.out.find? (fun e => fbit e.2 CompOut.compEn && fget e.2 CompOut.outRing == r) with
  | some e =>
    if fget e.2 CompOut.plane != fget o CompOut.plane then none
    else
      let lag : Nat := compLag e.2 * lineTu (compRate e.2) (max 1 (compTotal e.2))
      some (signedMod (((compPhase e.2 + lag : Nat) : Int) - (compPhase o : Nat)) frame)
  | none => match tget natReset s.mem.line1 r with
    | 0 => none
    | t => some (signedMod (s.planeOf (fget o CompOut.plane) t - (compPhase o : Nat)) frame)

/-- Whether the source of a layer is frequency-locked to the Composer's plane (R236): a Composer on that plane is, any other source by its
latest two frames (log entry 99). -/
def State.compLocked (s : State) (o : BitVec 256) (r : Nat) : Bool :=
  s.cmp.out.any (fun e => fbit e.2 CompOut.compEn && fget e.2 CompOut.outRing == r && fget e.2 CompOut.plane == fget o CompOut.plane) ||
    s.freqLocked (fget o CompOut.plane) r

/-- Whether a source is in timing: locked to the Composer's plane and of its rate, with its frame start between one line before F and F. -/
def State.compInTime (s : State) (o : BitVec 256) (r : Nat) : Bool :=
  s.planeRate (fget (s.ring r) RingDesc.plane) == compRate o && s.compLocked o r &&
    (match s.compOffsetOf o r with
     | some d => -(lineTu (compRate o) (max 1 (compTotal o)) : Int) ≤ d && d ≤ 0
     | none => false)

/-! ### Records in force, latched, written and held -/

/-- The records of a conversion or composition as written. -/
def State.compWritten (s : State) (n : Nat) : CompSet :=
  let c := n / 4
  ⟨s.compMode c, s.compGang c, s.compOut n, (List.range 8).map (fun l => s.compLayer (8 * c + l)),
    (List.range 8).map (fun l => tget matReset s.cmp.mat (8 * c + l)), tget curReset s.cmp.cur c⟩

/-- A set with another output record; OUT0 brings MODE_C and GANG. -/
def CompSet.withOut (v : CompSet) (n : Nat) (o : BitVec 256) : CompSet :=
  if n % 4 = 0 then { v with out := o, mode := fget o CompOut.modeC, gang := fbit o CompOut.gang } else { v with out := o }

/-- The record a held write brings, from its bytes. -/
def Held.out (h : Held) : BitVec 256 := BitVec.ofNat 256 (leNat h.bytes)

/-- A record of a set replaced by a held write. -/
def patchSet (n : Nat) (obj : Target) (bytes : List Byte) (v : CompSet) : CompSet :=
  let x := leNat bytes
  match obj with
  | .compOut i => if i = n then v.withOut n (BitVec.ofNat 256 x) else v
  | .compLayer i => if i / 8 = n / 4 then { v with layers := v.layers.set (i % 8) (BitVec.ofNat 256 x) } else v
  | .compMatrix i => if i / 8 = n / 4 then { v with mats := v.mats.set (i % 8) (BitVec.ofNat 288 x) } else v
  | .compCursor i => if i = n / 4 then { v with cur := BitVec.ofNat 128 x } else v
  | _ => v

/-- Whether a Composer runs one of its conversions, or will from its next F. -/
def State.compActive (s : State) (n : Nat) : Bool := (s.compSt n).run.isSome || fbit (s.compOut n) CompOut.compEn

/-- Every set of records of an active conversion: in force, latched and written. -/
def State.compSets (s : State) (n : Nat) : List CompSet :=
  if s.compActive n then (s.compSt n).run.toList ++ (s.compSt n).lat.toList ++ [s.compWritten n] else []

/-- The sets of records that the writes held for a Composer (R238) would make of those written, by conversion. -/
def State.heldSets (s : State) (n : Nat) : List CompSet :=
  s.cmp.held.filterMap (fun h =>
    let v := patchSet n h.obj h.bytes (s.compWritten n)
    if v = s.compWritten n then none else some v)

/-- Whether a held write starts a conversion, and on which ring. -/
def State.heldStart (s : State) (n : Nat) : Option Nat :=
  s.cmp.held.findSome? (fun h => if h.obj = .compOut n && fbit h.out CompOut.compEn then some (fget h.out CompOut.outRing) else none)

/-- Layers and source rings that some record of a Composer's active conversions names (R219), held writes among them. -/
def State.layerRings (s : State) (c : Nat) : List (Nat × Nat) :=
  (List.range 4).flatMap (fun k => (s.compSets (4 * c + k)).flatMap (fun v => (v.stack k).map (fun l => (l, fget (v.layerRec l) Layer.sourceRing)))) ++
  (List.range 4).flatMap (fun k => if (s.heldStart (4 * c + k)).isSome then
    (s.heldSets (4 * c + k)).flatMap (fun v => (v.stack k).map (fun l => (l, fget (v.layerRec l) Layer.sourceRing))) else []) ++
  s.cmp.held.filterMap (fun h => match h.obj with
    | .compLayer i => if i / 8 = c && fbit h.out Layer.layerEn then some (i % 8, fget h.out Layer.sourceRing) else none
    | _ => none)

/-! ### Claims (R215) -/

/-- The phase at which a layer reads: layers of one composition share it, those of four conversions do not. -/
def layerPhase (mode l : Nat) : Nat := if mode = 1 then l else 0

def layerClaim (s : State) (c mode l r : Nat) : Hold :=
  Hold.new 3 0 (.compRead c r (layerPhase mode l)) (.layer c l) (ringCredits s.bud.profile s r)

/-- The claims of a conversion or composition that starts. -/
def compClaims (s : State) (n : Nat) (v : CompSet) : List Hold :=
  let c := n / 4
  economyHolds s (8 ≤ c) c ++ [Hold.new 0x20 0 (.engine c) (.comp c (n % 4)) (if v.gang then 4 else 1)] ++
    (v.stack (n % 4)).map (fun l => layerClaim s c v.mode l (fget (v.layerRec l) Layer.sourceRing)) ++
    writeHold s 3 (fget v.out CompOut.outRing)

/-- Read claims that no record names any longer go (R219, R102). -/
def State.dropStaleReads (c : Nat) (s : State) : State :=
  let named := s.layerRings c
  s.release (fun h => match h.by_, h.grp with
    | .layer b l, .compRead _ r _ => b == c && !named.contains (l, r)
    | _, _ => false)

/-- The engine's claim and the write claim of a conversion go when it stops (R217), but for those of a start that is held (R238). -/
def State.dropConversion (n ring : Nat) (s : State) : State :=
  let held := s.heldStart n
  ((s.release (fun h => (held.isNone && h.by_ == .comp (n / 4) (n % 4)) ||
    (h.grp == .write ring && held != some ring && !s.hasWriter ring (fun w => w == .comp n)))).dropStaleReads (n / 4)).syncWcred ring

/-! ### COMP_OUT_WRITE -/

/-- Ranges that the layout does not give (R213, R214, R216). -/
def compOutMore (n : Nat) (o : BitVec 256) : Option Nat :=
  let k := n % 4
  if k != 0 && (fget o CompOut.modeC != 0 || fbit o CompOut.gang) then some 0
  else if n / 4 % 4 != 0 && fbit o CompOut.gang then some 0
  else if fget o CompOut.outH != 0 && compTotal o ≤ fget o CompOut.compOffset then some 3
  else if k != 0 && fbit o CompOut.lut3dEn then some 10
  else none

/-- The limits of a mode (R212). -/
def modeFits (mode : Nat) (gang : Bool) (o : BitVec 256) : Bool :=
  let (w, h, rate) := if gang then (7680, 4320, 1990656000) else if mode = 1 then (2048, 1080, 132710400) else (4096, 2160, 497664000)
  fget o CompOut.outW ≤ w && fget o CompOut.outH ≤ h && !(gang && fbit o CompOut.outInterlaced) &&
    fget o CompOut.outW * fget o CompOut.outH * rateNum (compRate o) ≤ rate * rateDen (compRate o)

/-- Whether any conversion of a Composer has COMP_EN at 1. -/
def State.compAny (s : State) (c : Nat) : Bool := (List.range 4).any (fun k => fbit (s.compOut (4 * c + k)) CompOut.compEn)

/-- The Fixed-while-running fields judged: MODE_C and GANG, which all conversions share, while any of them runs. -/
def compFixed (s : State) (n : Nat) : List Fld :=
  if fbit (s.compOut n) CompOut.compEn then CompOut.layout
  else if n % 4 = 0 && s.compAny (n / 4) then [CompOut.modeC, CompOut.gang] else []

/-- Whether a gang of which a Composer is a member, not the leader, runs: until the last frame of its leader ends (R217). -/
def State.inGang (s : State) (c : Nat) : Bool :=
  let n := 16 * (c / 4)
  c % 4 != 0 && ((fbit (s.compOut n) CompOut.compEn && s.compGang (c / 4 * 4)) || (s.compSt n).run.any CompSet.gang)

/-- What setting COMP_EN to 1 requires (R213, R214, R217, R236), and the state with its claims. -/
def compEnable (s : State) (n : Nat) (o : BitVec 256) : Except Err State := do
  let c := n / 4
  let k := n % 4
  let v := (s.compWritten n).withOut n o
  let mode := v.mode
  let r := fget o CompOut.outRing
  let d := s.ring r
  need (!s.inGang c) eState
  need (!(k == 0 && fbit o CompOut.gang && [1, 2, 3].any (fun j => [0, 1, 2, 3].any (fun i => s.compActive (4 * (c + j) + i))))) eState
  need (k == 0 || mode == 1) eState
  need (!(mode == 1 && ([4, 5, 6, 7].any (fun l => fbit (v.layerRec l) Layer.layerEn) || fbit v.cur Cursor.curEn))) eState
  need (s.planeOn (fget o CompOut.plane)) eNoref
  let sources := (v.stack k).map (fun l => fget (v.layerRec l) Layer.sourceRing)
  need (!ringFree d && sources.all (fun x => !ringFree (s.ring x))) eState
  needAt (rasterOk (fget o CompOut.outW) (fget o CompOut.outH) (fget o CompOut.outSample)) noField eFormat
  needAt (compRingFits o d && !s.hasWriter r (fun w => w == .comp n)) (12 + 1) eFormat
  needAt (3 * ringTpf d ≤ fget d RingDesc.length) (12 + 1)
  need (!fbit o CompOut.tight || sources.all (s.compInTime o)) eCompPhase
  let add := compClaims s n v
  claimAll add (writeDrop add) s

/-- The checks of an output record write: its number, the record, and the state with what it claims. -/
def compOutWriteCheck (q : Req) (s : State) : Except Err (Nat × BitVec 256 × State) := do
  let n ← Req.index q 64
  let old := s.compOut n
  let o ← writeRecordX q CompOut.layout old (compFixed s n) (compOutMore n)
  let mode := if n % 4 = 0 then fget o CompOut.modeC else s.compMode (n / 4)
  needAt (modeFits mode (n % 4 == 0 && fbit o CompOut.gang) o) noField eFormat
  if fbit o CompOut.compEn && !fbit old CompOut.compEn then return (n, o, ← compEnable s n o)
  else return (n, o, s)

/-- A record taken on. A conversion that has not begun its first frame gives up its claims at once when it is disabled. -/
def compOutDo (n : Nat) (o : BitVec 256) (s : State) : State :=
  let s1 := s.setCompOut n o
  let started := fbit o CompOut.compEn && !fbit (s.compOut n) CompOut.compEn
  let s2 := if started then s1.syncWcred (fget o CompOut.outRing) else s1
  if !fbit o CompOut.compEn && fbit (s.compOut n) CompOut.compEn && (s.compSt n).run.isNone then s2.dropConversion n (fget (s.compOut n) CompOut.outRing)
  else s2

/-- A write with TARGET is held, its whole record with it (R238, DESIGN CHOICE, log entry 45). -/
def holdWrite (target : Nat) (obj : Target) (bytes : List Byte) (s : State) : State :=
  s.onCmp (fun e => { e with held := e.held ++ [⟨target, obj, bytes⟩] })

/-- What a record write that allows TARGET does: applied now, or held for the first F at or after TARGET of an output record. -/
def compApply (op : Nat) (q : Req) (o : BitVec 256) (obj : Target) (bytes : List Byte) (apply : State → State) (s : State) :
    Except Err State := do
  if Req.u64 q 4 = 0 then return apply s
  else
    need (s.planeOn (fget o CompOut.plane)) eNoref
    let (target, t) ← heldTiming s q (receiptOf op q s) (s.compNextF o)
    return holdWrite target obj bytes t

def cmdCompOutWrite (q : Req) (s : State) : Res := do
  let (n, o, t) ← compOutWriteCheck q s
  let t ← compApply 0x0700 q o (.compOut n) (recBytes o) (compOutDo n o) t
  return (t, recBytes (t.compOut n))

/-- COMP_OUT_WRITE (R216, R217, R418). -/
def execCompOutWrite (q : Req) (s : State) : Out := serve 0x0700 cmdCompOutWrite q s

/-! ### COMP_LAYER_WRITE (R218, R219, R221, R222) -/

/-- Crop width and height, 0 being the whole source. -/
def cropSize (e d : BitVec 256) : Nat × Nat :=
  (if fget e Layer.cropW = 0 then fget d RingDesc.width else fget e Layer.cropW,
   if fget e Layer.cropH = 0 then ringLines d else fget e Layer.cropH)

/-- R221: a ratio of layer size to crop size from 1/8 to 16. -/
def ratioOk (size crop : Nat) : Bool := crop ≤ 8 * size && size ≤ 16 * crop

/-- R222: whether the line fits its buffer, for a crop that enters the scaler. -/
def lineFits (e : BitVec 256) (srcIl outIl gang : Bool) (w h : Nat) : Bool :=
  gang || !(fget e Layer.layerH != h || srcIl != outIl) || min w (fget e Layer.layerW) ≤ 4096

/-- The checks of an enabled layer against its source. -/
def layerChecks (s : State) (c l : Nat) (e : BitVec 256) : Except Err Unit := do
  let mode := s.compMode c
  let o := s.compOut (4 * c + layerConv mode l)
  let r := fget e Layer.sourceRing
  let d := s.ring r
  need (!(mode == 1 && 4 ≤ l)) eState
  need (!ringFree d) eState
  needAt (ringIsVideo d) 12 eFormat
  let (w, h) := cropSize e d
  needAt (fget e Layer.cropX + w ≤ fget d RingDesc.width) (12 + 12)
  needAt (fget e Layer.cropY + h ≤ ringLines d) (12 + 14)
  needAt (ratioOk (fget e Layer.layerW) w) (12 + 8)
  needAt (ratioOk (fget e Layer.layerH) h) (12 + 10)
  needAt (!(List.range 8).any (fun k => k != l && fbit (s.compLayer (8 * c + k)) Layer.layerEn &&
    fget (s.compLayer (8 * c + k)) Layer.z == fget e Layer.z)) 12
  needAt (fget e Layer.tone != 1 || (fget e Layer.knee < fget e Layer.dstPeak && fget e Layer.dstPeak < fget e Layer.srcPeak)) (12 + 22)
  need (lineFits e (ringIl d) (fbit o CompOut.outInterlaced) (s.compGang c) w h) eLinebuf
  need (!(fbit o CompOut.compEn && fbit o CompOut.tight) || s.compInTime o r) eCompPhase

/-- The checks of a layer record write. A running conversion claims the source at once. -/
def compLayerWriteCheck (q : Req) (s : State) : Except Err (Nat × BitVec 256 × State) := do
  let i ← Req.index q 128
  let c := i / 8
  let l := i % 8
  let e ← writeRecord q Layer.layout (s.compLayer i) []
  if fbit e Layer.layerEn then
    layerChecks s c l e
    let mode := s.compMode c
    let used := (modeLayers mode (layerConv mode l)).contains l
    if used && s.compActive (4 * c + layerConv mode l) then
      return (i, e, ← claimAll [layerClaim s c mode l (fget e Layer.sourceRing)] (fun _ => false) s)
    else return (i, e, s)
  else return (i, e, s)

def cmdCompLayerWrite (q : Req) (s : State) : Res := do
  let (i, e, t) ← compLayerWriteCheck q s
  let o := s.compOut (4 * (i / 8) + layerConv (s.compMode (i / 8)) (i % 8))
  let t ← compApply 0x0701 q o (.compLayer i) (recBytes e) (State.setCompLayer i e) t
  return (t, recBytes (t.compLayer i))

/-- COMP_LAYER_WRITE (R219, R418). -/
def execCompLayerWrite (q : Req) (s : State) : Out := serve 0x0701 cmdCompLayerWrite q s

/-! ### COMP_MATRIX_WRITE and COMP_CURSOR_WRITE -/

/-- The nine coefficients of R218. -/
def matLayout : List Fld := (List.range 9).map (fun i => ⟨32 * i, 32, .rwf, 0, .any⟩)

/-- The first coefficient of magnitude 8.0 or more. -/
def matMore (m : BitVec 288) : Option Nat :=
  ((List.range 9).find? (fun i => 2 ^ 27 ≤ (sgn 32 (m.toNat / 2 ^ (32 * i))).natAbs)).map (4 * ·)

def State.setCompMat (i : Nat) (m : BitVec 288) (s : State) : State := s.onCmp (fun e => { e with mat := tset matReset e.mat i m })
def State.setCompCur (c : Nat) (r : BitVec 128) (s : State) : State := s.onCmp (fun e => { e with cur := tset curReset e.cur c r })

/-- Whether the second field of the output frame in progress is still to start. -/
def State.beforeSecond (s : State) (o : BitVec 256) : Bool :=
  decide (2 * (s.planeTu (fget o CompOut.plane) - compPhase o).emod (compFrameTu o) < compFrameTu o)

/-- A cursor record written (R233): complete before the second field starts, it is that field's too. -/
def State.cursorWritten (c : Nat) (r : BitVec 128) (s : State) : State :=
  let s1 := s.setCompCur c r
  match (s.compSt (4 * c)).run with
  | some v => if s.beforeSecond v.out then s1.setCompSt (4 * c) { s1.compSt (4 * c) with pos2 := r } else s1
  | none => s1

def compMatrixWriteCheck (q : Req) (s : State) : Except Err (Nat × BitVec 288) := do
  let i ← Req.index q 128
  let m ← writeRecordX q matLayout (tget matReset s.cmp.mat i) [] matMore
  return (i, m)

def cmdCompMatrixWrite (q : Req) (s : State) : Res := do
  let (i, m) ← compMatrixWriteCheck q s
  let o := s.compOut (4 * (i / 8) + layerConv (s.compMode (i / 8)) (i % 8))
  let t ← compApply 0x0702 q o (.compMatrix i) (recBytes m) (State.setCompMat i m) s
  return (t, recBytes (tget matReset t.cmp.mat i))

/-- COMP_MATRIX_WRITE (R218, R418). -/
def execCompMatrixWrite (q : Req) (s : State) : Out := serve 0x0702 cmdCompMatrixWrite q s

def compCursorWriteCheck (q : Req) (s : State) : Except Err (Nat × BitVec 128) := do
  let c ← Req.index q 16
  let r ← writeRecord q Cursor.layout (tget curReset s.cmp.cur c) []
  need (!(fbit r Cursor.curEn && s.compMode c == 1)) eState
  return (c, r)

def cmdCompCursorWrite (q : Req) (s : State) : Res := do
  let (c, r) ← compCursorWriteCheck q s
  let t ← compApply 0x0703 q (s.compOut (4 * c)) (.compCursor c) (recBytes r) (State.cursorWritten c r) s
  return (t, recBytes (tget curReset t.cmp.cur c))

/-- COMP_CURSOR_WRITE (R233, R419). -/
def execCompCursorWrite (q : Req) (s : State) : Out := serve 0x0703 cmdCompCursorWrite q s

/-! ### COMP_LOAD (R231, R420) -/

/-- Whether one set of records uses a bank, by table; `l` is the layer of a LIN table. -/
def setUses (v : CompSet) (k table bank l : Nat) : Bool :=
  let on := v.stack k
  match table with
  | 0 => on.contains l && fget (v.layerRec l) Layer.srcTf == 3 && fget (v.layerRec l) Layer.linBank == bank
  | 1 => on.any (fun x => fget (v.layerRec x) Layer.tone == 2 + bank)
  | 2 => fbit v.out CompOut.lut3dEn && fget v.out CompOut.lut3dBank == bank
  | _ => v.mode == 0 && fbit v.cur Cursor.curEn && fget v.cur Cursor.curBank == bank

/-- Whether a bank is active, or named by a selector that waits for its latch or for its TARGET. -/
def State.bankBusy (s : State) (table bank index : Nat) : Bool :=
  let c := if table = 0 then index / 8 else index
  (List.range 4).any (fun k => (s.compSets (4 * c + k) ++ s.heldSets (4 * c + k)).any (fun v => setUses v k table bank (index % 8)))

/-- Whether the entries of a bank are in their format. -/
def bankOk (table : Nat) (bytes : List Byte) : Bool :=
  if table ≤ 1 then (List.range (bytes.length / 4)).all (fun i => binary32Ok (leNat ((bytes.drop (4 * i)).take 4))) else true

def sameLoad (table bank index : Nat) (x : Load) : Bool := x.table == table && x.bank == bank && x.index == index

def State.setLoads (l : List Load) (s : State) : State := s.onCmp (fun e => { e with loads := l })

/-- A load's chunk: the load as it stands after it, and the others. -/
def compLoadCheck (q : Req) (s : State) : Except Err (Load × List Load × Bool) := do
  let table := Req.u8 q 0
  let bank := Req.u8 q 1
  let index := Req.u32 q 4
  let offset := Req.u32 q 8
  let len := Req.u16 q 12
  let last := Req.u8 q 14 == 1
  needAt (table ≤ 3) 0
  needAt (bank ≤ 1) 1
  Req.zeroAt q 2 2
  needAt (index < if table = 0 then 128 else 16) 4
  needAt (2 ≤ len && len ≤ 992 && len % 2 == 0) 12
  needAt (Req.u8 q 14 ≤ 1) 14
  Req.zeroAt q 15 1
  Req.layout q (16 + len)
  let others := s.cmp.loads.filter (fun x => !sameLoad table bank index x)
  let before := match s.cmp.loads.find? (sameLoad table bank index) with
    | some x => x.bytes
    | none => []
  needAt (offset == 0 || (!before.isEmpty && offset == before.length)) 8
  needAt (if last then offset + len == bankSize table else offset + len ≤ bankSize table) 12
  if offset = 0 then need (others.length < 16) eBusy
  if offset = 0 || last then need (!s.bankBusy table bank index) eBusy
  return (⟨table, bank, index, (if offset = 0 then [] else before) ++ fitBytes len (Req.slice q 16 len)⟩, others, last)

/-- A whole bank committed: it is good again after a parity error (R241). -/
def State.commitBank (x : Load) (s : State) : State :=
  let key := bankKey x.table x.bank x.index
  s.onCmp (fun e => { e with banks := tset (fun _ => []) e.banks key x.bytes, lutBad := e.lutBad.filter (· != key) })

/-- A bank that its last chunk shows to be out of range ends its load. -/
def cmdCompLoad (q : Req) (s : State) : Except Err Ans := do
  let (x, others, last) ← compLoadCheck q s
  let res := leBytes 4 x.bytes.length
  if !last then return .now (s.setLoads (others ++ [x])) res
  else if bankOk x.table x.bytes then return .now ((s.setLoads others).commitBank x) res
  else return .failed (s.setLoads others) eRange (leBytes 2 16)

/-- COMP_LOAD (R420). -/
def execCompLoad (q : Req) (s : State) : Out := serveAns 0x0704 cmdCompLoad q s

/-! ### COMP_READ and COMP_LAYER_READ -/

def cmdCompRead (q : Req) (s : State) : Res := do
  let (c, _) ← readArgs q 16
  return (s, (List.range 4).flatMap (fun k => recBytes (s.compOut (4 * c + k))) ++ recBytes (tget curReset s.cmp.cur c))

/-- COMP_READ (R418). -/
def execCompRead (q : Req) (s : State) : Out := serve 0x0705 cmdCompRead q s

def cmdCompLayerRead (q : Req) (s : State) : Res := do
  let (i, clear) ← readArgs q 128
  let v := s.laySt i
  let res := recBytes (s.compLayer i) ++ recBytes (tget matReset s.cmp.mat i) ++ leBytes 4 v.repeats ++ leBytes 4 v.skips
  return (if clear then s.setLaySt i { v with repeats := 0, skips := 0 } else s, res)

/-- COMP_LAYER_READ (R418). -/
def execCompLayerRead (q : Req) (s : State) : Out := serve 0x0706 cmdCompLayerRead q s

/-! ### The latch (R238) -/

/-- Whether a Composer's cluster is held in reset (R473). -/
def State.compHeld (s : State) (c : Nat) : Bool := s.blockHeld (44 + c / 4)

/-- COMPOSER_LATCH (R238): the written records become those of the next F. -/
def execComposerLatch (c : Fin 16) (k : Fin 4) (s0 : State) : Out :=
  let n := 4 * c.val + k.val
  let s := s0.fresh
  if s.compHeld c.val || !s.compActive n then done s
  else done (s.setCompSt n { s.compSt n with lat := some (s.compWritten n) })

/-! ### F -/

/-- Whether a held write applies at the F of a conversion. -/
def State.heldHere (s : State) (n : Nat) (h : Held) : Bool :=
  let mode := s.compMode (n / 4)
  h.target ≤ s.now &&
    (match h.obj with
     | .compOut i => i == n
     | .compLayer i => i / 8 == n / 4 && layerConv mode (i % 8) == n % 4
     | .compMatrix i => i / 8 == n / 4 && layerConv mode (i % 8) == n % 4
     | .compCursor i => i == n / 4 && n % 4 == 0
     | _ => false)

/-- A held write applied: to the record written, and to the one latched. COMP_STATE and LAYER_STATE stay the block's. -/
def State.applyHeld (n : Nat) (h : Held) (s : State) : State :=
  let x := leNat h.bytes
  let s1 := match h.obj with
    | .compOut i => compOutDo i (fput (BitVec.ofNat 256 x) CompOut.compState (fget (s.compOut i) CompOut.compState)) s
    | .compLayer i => s.setCompLayer i (fput (BitVec.ofNat 256 x) Layer.layerState (fget (s.compLayer i) Layer.layerState))
    | .compMatrix i => s.setCompMat i (BitVec.ofNat 288 x)
    | .compCursor i => s.setCompCur i (BitVec.ofNat 128 x)
    | _ => s
  s1.setCompSt n { s1.compSt n with lat := (s1.compSt n).lat.map (patchSet n h.obj h.bytes) }

def State.applyDue (n : Nat) (s : State) : State :=
  let due := s.cmp.held.filter (s.heldHere n)
  due.foldl (fun s h => s.applyHeld n h) (s.onCmp (fun e => { e with held := e.held.filter (fun h => !due.contains h) }))

/-- A tile of a frame as black, waiting for its slot. -/
def blackStaged (d : BitVec 256) (first : BitVec 32) (t : Staged) : Staged :=
  { t with bytes := blackTile d (t.eseq - first).toNat, poison := false, free := true }

/-- Tiles of the open frame, up to a position, that a reader needs and that are not committed are written as black (R239): each takes a
slot like any other (R69). -/
def State.compBlack (n r upto : Nat) (s : State) : State :=
  let w := s.wr r
  let d := s.ring r
  let due (t : Staged) : Bool := !t.free && (t.eseq - w.first).toNat < upto
  let late := (w.staged.filter due).length
  let more := if w.unitOpen then min upto (ringTpf d) - w.tile else 0
  if late + more = 0 then s
  else
    let s1 := s.setWr r { w with staged := w.staged.map (fun t => if due t then blackStaged d w.first t else t) }
    let s2 := (List.range more).foldl (fun s i => s.closeMissing r (blackTile d (w.tile + i)) true false) s1
    (s2.onRingCtr r (fun x => { x with concealBlack := sat32 x.concealBlack (late + more) })).raise ⟨0xC5, locComp (n / 4) 9, true, 0, []⟩

def State.setCompState (n v : Nat) (s : State) : State := s.setCompOut n (fput (s.compOut n) CompOut.compState v)

/-- COMP_STATE of a conversion, and of the members of its gang. -/
def State.showState (n v member : Nat) (gang : Bool) (s : State) : State :=
  let c := n / 4
  let s1 := s.setCompState n v
  if n % 4 = 0 && gang then [1, 2, 3].foldl (fun s j => s.setCompState (4 * (c + j)) member) s1 else s1

/-- LAYER_STATE with the events of a change (R223). -/
def State.setLayerState (c l v : Nat) (s : State) : State :=
  let i := 8 * c + l
  let e := s.compLayer i
  let old := fget e Layer.layerState
  let at_ := locComp c l
  if old = v then s else
  let s1 := s.setCompLayer i (fput e Layer.layerState v)
  let s2 := if old = 2 then (if v = 1 then s1.raiseEnd 0xC0 at_ else s1.endCause 0xC0 at_) else s1
  let s3 := if old = 3 then s2.endCause 0xC1 at_ else s2
  if v = 2 then s3.raise0 0xC0 at_ else if v = 3 then s3.raise0 0xC1 at_ else s3

/-- R223: the crop that enters the scaler and LAYER_STATE; none where the layer is suppressed. -/
def evalCrop (e d : BitVec 256) (outIl gang : Bool) : Option Crop × Nat :=
  let (w0, h0) := cropSize e d
  let x := fget e Layer.cropX
  let y := fget e Layer.cropY
  let w := min w0 (fget d RingDesc.width - x)
  let h := min h0 (ringLines d - y)
  let fits (v : Nat) : Bool := lineFits e (ringIl d) outIl gang v h && v ≤ 8 * fget e Layer.layerW
  let half := (w + 1) / 2
  if w = 0 || h = 0 || !ratioOk (fget e Layer.layerH) h then (none, 3)
  else if fits w then (if ratioOk (fget e Layer.layerW) w then (some ⟨x, y, w, h, w⟩, 1) else (none, 3))
  else if fits half && ratioOk (fget e Layer.layerW) half then (some ⟨x, y, half, h, w⟩, 2)
  else (none, 3)

/-- R234: the layer's frame by the rules of R106, with REPEAT and SKIP; the first frame of another ring counts as neither. -/
def chooseFrame (s : State) (r : Nat) (v0 : LayerSt) : LayerSt :=
  let v := if v0.ring = r then v0 else { v0 with ring := r, frame := none }
  match s.newest r, v.frame with
  | none, _ => { v with frame := none }
  | some m, none => { v with frame := some m.eseq }
  | some m, some old =>
    if m.eseq = old then { v with repeats := sat32 v.repeats 1 }
    else
      let passed := ((s.markersOf r).filter (fun x => x.state == .complete && x.eseq != m.eseq &&
        (x.eseq - old).toNat < 2 ^ 31 && x.eseq != old)).length
      { v with frame := some m.eseq, skips := sat32 v.skips passed }

/-- A layer at F: its crop and state, its frame, and the events of a source that is absent or out of timing. -/
def State.layerAtF (n : Nat) (v : CompSet) (l : Nat) (s : State) : State :=
  let c := n / 4
  let i := 8 * c + l
  let e := v.layerRec l
  let r := fget e Layer.sourceRing
  let d := s.ring r
  let at_ := locComp c l
  let (crop, st) := evalCrop e d (fbit v.out CompOut.outInterlaced) v.gang
  let s1 := s.setLayerState c l st
  let old := s1.laySt i
  let tight := fbit v.out CompOut.tight
  let chosen := if tight then { old with ring := r, frame := ((s.markersOf r).find? (fun k => k.state != .incomplete)).map (·.eseq) }
    else chooseFrame s r old
  let missing := chosen.frame.isNone
  let late := tight && !s.compInTime v.out r
  let s2 := s1.setLaySt i { chosen with crop := if s.isIsolated 0xC1 at_ then none else crop, noSource := missing, untimed := late }
  let s3 := if missing && !old.noSource then s2.raise0 0xC2 at_ else if !missing && old.noSource then s2.endCause 0xC2 at_ else s2
  if late && !old.untimed then s3.raise0 0xC3 at_ else if !late && old.untimed then s3.endCause 0xC3 at_ else s3

/-- A layer that is not in use at F. -/
def State.layerOff (c l : Nat) (s : State) : State :=
  let i := 8 * c + l
  let v := s.laySt i
  let s1 := s.setLayerState c l 0
  let s2 := if v.noSource then s1.endCause 0xC2 (locComp c l) else s1
  let s3 := if v.untimed then s2.endCause 0xC3 (locComp c l) else s2
  s3.setLaySt i { v with frame := none, crop := none, noSource := false, untimed := false }

/-- Members of a running gang that a contained fault has isolated (R239). -/
def State.gangIsolated (s : State) (c : Nat) : List Nat :=
  (List.range 4).filter (fun j => s.flt.isolated.any (fun p => p.2 == locComp (c + j) 9))

/-- GANG_MEMBER_FAULT for each member that has become isolated; it stays out until the gang is restarted. -/
def State.gangFaults (n : Nat) (s : State) : State :=
  let c := n / 4
  let had := (s.compSt n).gangFault
  let new := (s.gangIsolated c).filter (fun j => !had.contains j)
  let s1 := if new.isEmpty then s else s.setCompSt n { s.compSt n with gangFault := had ++ new }
  new.foldl (fun s j => s.raise0 0xC6 (locComp (c + j) 9)) s1

/-- A conversion ends: COMP_STATE is OFF, its layers are idle and its claims are released, but for those that a new start under other
records has claimed. The ring keeps its frames. -/
def State.compStop (n : Nat) (v : CompSet) (s : State) : State :=
  let c := n / 4
  let s1 := (v.stack (n % 4)).foldl (fun s l => s.layerOff c l) s
  let s2 := (s1.showState n 0 0 v.gang).setCompSt n (compStReset 0)
  let r := fget v.out CompOut.outRing
  if !fbit (s2.compOut n) CompOut.compEn then s2.dropConversion n r
  else if fget (s2.compOut n) CompOut.outRing = r then s2.dropStaleReads c
  else ((s2.release (fun h => h.grp == .write r && !s2.hasWriter r)).dropStaleReads c).syncWcred r

/-- A frame begins under the records in force. -/
def State.compFrame (n : Nat) (v : CompSet) (s : State) : State :=
  let c := n / 4
  let on := v.stack (n % 4)
  let s1 := (modeLayers v.mode (n % 4)).foldl (fun s l => if on.contains l then s.layerAtF n v l else s.layerOff c l) s
  let st := s1.compSt n
  let s2 := (s1.setCompSt n { st with run := some v, frames := st.frames + 1, pos := tget curReset s.cmp.cur c, pos2 := tget curReset s.cmp.cur c })
  let s3 := (if v.gang then s2.gangFaults n else s2).dropStaleReads c
  s3.startUnit (fget v.out CompOut.outRing) (locComp c 9)

/-- Whether two output records differ in what stays fixed while a conversion runs. -/
def compMoved (a b : BitVec 256) : Bool := (fixedBad CompOut.layout a b).isSome

/-- What happens at F, once what is left of the frame before has been written black. -/
def State.compAtF (n : Nat) (s : State) : State :=
  let s1 := s.applyDue n
  let o := s1.compOut n
  let st := s1.compSt n
  let w := s1.compWritten n
  let s2 := match st.run with
    | some v => if !fbit o CompOut.compEn || compMoved v.out o then s1.compStop n v else s1
    | none => s1
  if !fbit o CompOut.compEn then s2
  else if !(s2.compGang (n / 4)) && s2.flt.isolated.any (fun p => p.2 == locComp (n / 4) 9) then s2.setCompState n 3
  else
    let v := match st.run with
      | some r => if compMoved r.out o then w else st.lat.getD r
      | none => w
    (s2.showState n 1 2 v.gang).compFrame n v

/-- COMPOSER_FRAME_START (R217, R223, R234, R236, R238, R239). -/
def execComposerFrameStart (c : Fin 16) (k : Fin 4) (s0 : State) : Out :=
  let n := 4 * c.val + k.val
  let s := s0.fresh
  if s.compHeld c.val || !s.planeOn (fget (s.compOut n) CompOut.plane) then done s
  else
    let s1 := match (s.compSt n).run with
      | some v => let r := fget v.out CompOut.outRing
        s.compBlack n r (ringTpf (s.ring r))
      | none => s
    done (s1.compAtF n)

/-- COMP_LUT_PARITY (R241): the bank acts as identity until it is loaded again. `i` is 8c + l for a LIN table and c for the others. -/
def execCompLutParity (table : Fin 3) (bank : Fin 2) (i : Fin 128) (s0 : State) : Out :=
  let s := s0.fresh
  if table.val != 0 && 16 ≤ i.val then done s else
  let key := bankKey table.val bank.val i.val
  let at_ := if table.val = 0 then locComp (i.val / 8) (i.val % 8) else locComp i.val 9
  let s1 := s.onCmp (fun e => { e with lutBad := if e.lutBad.contains key then e.lutBad else e.lutBad ++ [key] })
  done (s1.raise0 0xC4 at_)

end Sys2Proof.Machine
end

