-- ==== Sys2Proof/Machine/Mixer.lean ====
section
/-! DEFINITION. The arithmetic of Calliope (R251, R253 to R255, R258, R260, R261, R265): ramps, crossfades, dynamics, the limiter, dither
and requantisation. -/

namespace Sys2Proof.Machine

open Sys2Proof

/-! ### Ramps (R260, R261) -/

/-- A gain in 2^-64 of 0.01 dB, off being −144 dB. -/
def goalDb (g : Int) : Int := (if g = -32768 then offDb else g) * fx

/-- A gain at rest at its setting. -/
def Ramp.rest (g : Int) : Ramp := ⟨g, false, gainCoeff g, gainCoeff g, 0, 0⟩

/-- The value of a ramp at its sample `k`, in its own units. Rises are rounded up at a tie and falls by as much, so that the two ramps of
a linear crossfade sum to one. -/
def Ramp.value (r : Ramp) (k : Nat) : Int :=
  if r.len ≤ k + 1 then r.to_
  else
    let d := (r.to_ - r.from_).natAbs * (k + 1)
    let m : Nat := (2 * d + r.len) / (2 * max 1 r.len)
    if r.from_ ≤ r.to_ then r.from_ + m else r.from_ - m

/-- The coefficient at the sample `i` from now. -/
def Ramp.coeff (r : Ramp) (i : Nat) : Nat :=
  let k := r.done + i
  if r.len ≤ k + 1 then gainCoeff r.goal else if r.inDb then dbCoeff (r.value k) else (r.value k).toNat

/-- The gain of the last sample, in the units of a shape. -/
def Ramp.last (r : Ramp) (inDb : Bool) : Int :=
  let now : Int := if r.done = 0 then r.from_ else r.value (r.done - 1)
  if r.inDb = inDb then now
  else if inDb then (if now ≤ 0 then goalDb (-32768) else (fxLog2 (now.toNat * fx) - 24 * fx) * 2000 * 2 ^ 128 / log2Ten)
  else dbCoeff now

/-- A new target starts a new ramp of its own length from the gain of the last sample (R261). -/
def Ramp.next (r : Ramp) (g : Int) (inDb : Bool) (len : Nat) : Ramp :=
  ⟨g, inDb, r.last inDb, if inDb then goalDb g else gainCoeff g, len, 0⟩

/-- A ramp towards a setting: as it is where that is its target already. -/
def Ramp.towards (r : Ramp) (g : Int) (inDb : Bool) (len : Nat) : Ramp := if r.goal = g then r else r.next g inDb len

def Ramp.step (n : Nat) (r : Ramp) : Ramp := { r with done := min r.len (r.done + n) }

/-! ### Crossfades -/

/-- A crossfade to another source: the new one from silence, the others to silence. The first source starts at once. -/
def fadeTo (src : Nat) (inDb : Bool) (len : Nat) : List Voice → List Voice
  | [] => [⟨src, .rest 0, true⟩]
  | v :: l =>
    if v.src = src then v :: l
    else ⟨src, (Ramp.rest (-32768)).next 0 inDb len, false⟩ :: (v :: l).map (fun x => { x with ramp := x.ramp.towards (-32768) inDb len })

/-- One source as heard by a channel over a tile: its words, and whether it is non-PCM. -/
structure Track where
  voice : Voice
  words : List (BitVec 32)
  np : Bool
  deriving DecidableEq, Repr

/-- One sample of a channel: a non-PCM word that passes bit-exact, or a value in 2^-24 of an LSB. -/
inductive Heard where
  | pass (w : BitVec 32)
  | pcm (v : Int)
  deriving DecidableEq, Repr

/-- The sample at which a change that concerns a non-PCM source takes place: the first AES3 block start (R249, R265). -/
def cutSample (l : List Track) : Option Nat :=
  match l with
  | [] => none
  | a :: _ =>
    if a.voice.started then some 0
    else match l.find? (·.np) with
      | none => none
      | some n => n.words.findIdx? (fun w => fbit w AudWord.b)

/-- What a channel hears at sample `t`. -/
def hear (l : List Track) (t : Nat) : Heard :=
  if l.any (·.np) then
    let now : Bool := match cutSample l with | some c => c ≤ t | none => false
    match (if now then l.head? else (l.drop 1).head?) with
    | none => .pcm 0
    | some a => let w := a.words.getD t 0
      if a.np then .pass w else .pcm (wordSample w * unity)
  else .pcm ((l.map (fun a => wordSample (a.words.getD t 0) * (a.voice.ramp.coeff t : Int))).sum)

/-- A channel's sources after a tile of `n` samples: faded ones go, and after a block start only the newest is left. -/
def stepVoices (n : Nat) (l : List Track) : List Voice :=
  let next := l.map (fun a => { a.voice with ramp := a.voice.ramp.step n })
  if l.any (·.np) then
    match cutSample l with
    | none => next
    | some _ => (next.take 1).map (fun v => { v with started := true, ramp := .rest 0 })
  else (next.filter (fun v => v.ramp.goal == 0 || v.ramp.done < v.ramp.len)).map (fun v => { v with started := true })

/-! ### Dynamics (R258) -/

/-- 20 × log10 of 2, in 2^-64. -/
def dbPerOctave : Int := 20 * fx * 2 ^ 128 / log2Ten

/-- The level of a magnitude against full scale 2^bits, in 2^-64 dB; none for zero. -/
def levelDb (bits v : Nat) : Option Int := if v = 0 then none else some (fxMul (fxLog2 (v * fx) - bits * fx) dbPerOctave)

/-- The static curve: the gain for a level. -/
def staticGain (r : BitVec 256) (x : Option Int) : Int :=
  match x with
  | none => 0
  | some x =>
    let e := x - fsgn r Dyn.thresh * fx / 10
    let knee : Int := fget r Dyn.knee * fx / 10
    let ratio := fget r Dyn.ratio
    let slope : Int := (if ratio = 0 then 0 else fxRat 10 ratio) - fx
    if 2 * e < -knee then 0
    else if 2 * e.natAbs ≤ knee then fxDiv (fxMul slope (fxMul (e + knee / 2) (e + knee / 2))) (2 * knee)
    else fxMul slope e

/-- exp(−1 ÷ (tau × fs)) for tau = num / den seconds. -/
def poleCoeff (num den hz : Nat) : Int := fxExp (-((den : Int) * fx / (max 1 (num * hz) : Nat)))

/-- The gain g after a sample. -/
def dynStep (r : BitVec 256) (hz : Nat) (x : Option Int) (g : Int) : Int :=
  let gt := staticGain r x
  let a := if gt < g then poleCoeff (fget r Dyn.attack) 10000 hz else poleCoeff (fget r Dyn.release) 1000 hz
  gt + fxMul a (g - gt)

/-- The factor of a gain g with the make-up gain, in 2^-64. -/
def dynFactor (r : BitVec 256) (g : Int) : Int := fxTen (g + fget r Dyn.makeup * fx / 10) 20

/-- GR: the present gain reduction in 0.01 dB. -/
def dynGr (g : Int) : Nat := (clampInt 0 65535 (fxRound (-100 * g))).toNat

/-! ### Buses (R253 to R255) -/

/-- A sample saturated to the accumulator. -/
def sat48 (v : Int) : Int := clampInt (-(2 ^ 47)) (2 ^ 47 - 1) v

/-- LIM_CEIL as a magnitude of the accumulator, at or below which every sample leaves the limiter. -/
def ceiling (c : Int) : Nat := (fxTen (c * fx) 2000 * 2 ^ 35 / fx).toNat

/-- The gain that brings a magnitude down to the ceiling. -/
def neededGain (ceil : Nat) (v : Int) : Int := if v.natAbs ≤ ceil then fx else fxRat ceil v.natAbs

/-- The limiter's gain for the first sample of a window, from that of the sample before: a one-pole release towards unity, held below the
line that falls to each coming sample's gain (R254; DEDUCED, log entry 48). -/
def limStep (a : Int) (ceil : Nat) (window : List Int) (g : Int) : Int :=
  let free := fx - fxMul a (fx - g)
  (window.zipIdx.foldl (fun (m : Int) e =>
    let r := neededGain ceil e.1
    if r < m then min m (if r < g then g + (r - g) / (e.2 + 1 : Nat) else r) else m) free)

/-- The limiter over a tile: samples out, and the gain after the last. `rest` are the samples in the look-ahead after the tile's. -/
def limit (a : Int) (ceil n : Nat) : List Int → List Int → Int → List Int × Int
  | [], _, g => ([], g)
  | v :: vs, rest, g =>
    let g1 := limStep a ceil ((v :: vs ++ rest).take (n + 1)) g
    let (out, g2) := limit a ceil n vs rest g1
    ((v * g1).tdiv fx :: out, g2)

/-- The dither of R255, as a numerator over 2^32. -/
def ditherOf (bus n : Nat) : Int :=
  let m (v : Nat) : Nat := v % 2 ^ 64
  let x0 := m (n * 0x9E3779B97F4A7C15 + bus)
  let x1 := m (Nat.xor x0 (x0 / 2 ^ 30) * 0xBF58476D1CE4E5B9)
  let x2 := m (Nat.xor x1 (x1 / 2 ^ 27) * 0x94D049BB133111EB)
  let x3 := Nat.xor x2 (x2 / 2 ^ 31)
  (x3 % 2 ^ 32 + x3 / 2 ^ 32 : Nat) - 2 ^ 32

/-- Requantisation of an accumulator value to 24 bits, with its dither: the sample, and whether it saturated. -/
def requantise (v d : Int) : Int × Bool :=
  let q := roundAway (v * 2 ^ 20 + d) (2 ^ 32)
  (sat24 q, decide (sat24 q ≠ q))

end Sys2Proof.Machine
end

