-- ==== Sys2Proof/Machine/Calliope.lean ====
section
/-! DEFINITION. Calliope (R242 to R268, R421): its records, their checks and claims, and the tick. -/

namespace Sys2Proof.Machine

open Sys2Proof

/-! ### Accessors -/

def State.inSt (s : State) (i : Nat) : InSt := tget inStReset s.cal.inSt i
def State.setInSt (i : Nat) (v : InSt) (s : State) : State := s.onCal (fun c => { c with inSt := tset inStReset c.inSt i v })

/-! ### Writes with TARGET (R247) -/

/-- PTP time of the first tick at or after a PTP time. -/
def State.calNextTick (s : State) (ns : Nat) : Nat :=
  let p := fget s.cal.ctl Cal.calPlane
  s.stampOf p (gridNext (s.planeOf p ns) (1000000 * tuPerNs) 0)

/-- What a record write that allows TARGET does: applied now, or held for the first tick at or after TARGET. -/
def calApply (op target : Nat) (q : Req) (obj : Target) (bytes : List Byte) (apply : State → State) (s : State) : Except Err State := do
  if target = 0 then return apply s
  else
    need (s.planeOn (fget s.cal.ctl Cal.calPlane)) eNoref
    let (at_, t) ← heldTiming s q (receiptOf op q s) s.calNextTick
    need (s.cal.held.length < 256) eBusy
    return t.onCal (fun c => { c with held := c.held ++ [⟨at_, obj, bytes⟩] })

/-! ### CAL_WRITE (R244) -/

def calWriteCheck (q : Req) (s : State) : Except Err (BitVec 128) := do
  let _ ← Req.index q 1
  Req.noTarget q
  let e ← writeRecord q Cal.layout s.cal.ctl (fixedIf (fbit s.cal.ctl Cal.calEn) Cal.layout)
  need (!fbit e Cal.calEn || s.planeOn (fget e Cal.calPlane)) eNoref
  needAt (s.cal.outHdr.all (fun o => !fbit o.2 AudOut.outEn || fget (s.ring (fget o.2 AudOut.outRing)) RingDesc.plane == fget e Cal.calPlane)) 12 eFormat
  return e

def cmdCalWrite (q : Req) (s : State) : Res := do
  let e ← calWriteCheck q s
  return (s.onCal (fun c => { c with ctl := e }), recBytes e)

/-- CAL_WRITE (R244, R421). -/
def execCalWrite (q : Req) (s : State) : Out := serve 0x0800 cmdCalWrite q s

/-! ### AUD_IN_WRITE (R248, R249) -/

/-- The first tap delay beyond a number of samples, as an offset in the record. -/
def tapOver (n : Nat) (e : BitVec 256) : Option Nat := ((List.range 4).find? (fun t => n < tapDelay e t)).map (fun t => 8 + 4 * t)

/-- One read claim of Calliope: 1 credit by R79. -/
def tapClaim (s : State) (i k t : Nat) : Hold := Hold.new 3 0 (.calRead i k) (.audIn i t) (credits s.bud.profile 1000 1)

/-- The claims a slot's record asks for beside those it holds: one for each tap in use, and a second for a tap whose delay changes. -/
def tapClaims (s : State) (i : Nat) (old e : BitVec 256) : List Hold :=
  (((tapsUsed e).map (fun t => tapClaim s i t t)).filter (fun h => (heldGroup s.bud.holds h).isNone)) ++
  (if s.cal.run then ((tapsUsed e).filter (fun t => (tapsUsed old).contains t && tapDelay old t != tapDelay e t)).map (fun t => tapClaim s i (4 + t) t) else [])

def audInWriteCheck (q : Req) (s : State) : Except Err (Nat × BitVec 256 × State) := do
  let i ← Req.index q 1024
  let old := s.audIn i
  let e ← writeRecordX q AudIn.layout old (fixedIf (fbit old AudIn.inEn) AudIn.layout) (tapOver 96000)
  if fbit e AudIn.inEn then
    let r := fget e AudIn.inRing
    let d := s.ring r
    need (!ringFree d) eState
    needAt (ringType d == 2) 12 eFormat
    match tapOver (ringHz d) e with
    | some o => errAt eRange (12 + o)
    | none =>
      need (s.alsoPlanned (fun s => !s.cal.audIn.any (fun x => x.1 != i && fbit x.2 AudIn.inEn && fget x.2 AudIn.inRing == r))) eBusy
      needAt (tapLength e d ≤ fget d RingDesc.length) noField
      needAt (s.alsoPlanned (fun s => !(s.outTakes 1 (fun x => x / 16 == i) (ringHz d) || s.busTakes i (ringHz d)))) 12 eFormat
      return (i, e, ← claimAll (tapClaims s i old e) (fun _ => false) s)
  else return (i, e, s)

/-- Whether a slot's record, or one held for it, has a tap in use: `k` counts the taps, and from 4 on the second claims of their
crossfades. -/
def State.tapWanted (s : State) (i k : Nat) : Bool :=
  if k < 4 then (s.audIns i).any (fun e => (tapsUsed e).contains k) else ((s.audIns i).drop 1).any (fun e => (tapsUsed e).contains (k - 4))

/-- Claims of a slot's taps that are no longer in use, nor will be by a held write. -/
def State.dropTaps (i : Nat) (s : State) : State :=
  s.release (fun h => match h.by_, h.grp with
    | .audIn j _, .calRead _ k => j == i && !s.tapWanted i k
    | _, _ => false)

/-- The record taken on; a rewritten record lifts what parity held off (R266). -/
def audInDo (i : Nat) (e : BitVec 256) (s : State) : State :=
  let s1 := s.onCal (fun c => { c with audIn := tset audInReset c.audIn i e, offIn := c.offIn.filter (fun x => x / 16 != i) })
  if s.cal.run then s1 else s1.dropTaps i

def cmdAudInWrite (q : Req) (s : State) : Res := do
  let (i, e, t) ← audInWriteCheck q s
  let t ← calApply 0x0801 (Req.u64 q 4) q (.audIn i) (recBytes e) (audInDo i e) t
  return (t, recBytes (t.audIn i))

/-- AUD_IN_WRITE (R248, R249, R421). -/
def execAudInWrite (q : Req) (s : State) : Out := serve 0x0801 cmdAudInWrite q s

/-! ### AUD_OUT_WRITE (R250) -/

/-- An output slot's record as bytes: header and sixteen channel entries. -/
def State.audOutBytes (s : State) (o : Nat) : List Byte :=
  recBytes (s.audOut o) ++ (List.range 16).flatMap (fun c => recBytes (s.audCh (16 * o + c)))

/-- The sixteen channel entries a write leaves. -/
def mergeChannels (s : State) (o : Nat) (bytes : List Byte) : List (BitVec 64) :=
  (List.range 16).map (fun c => mergeRec AudCh.layout (s.audCh (16 * o + c)) ((bytes.drop (16 + 8 * c)).take 8))

/-- The first entry out of range, as an offset in the record. -/
def channelsBad (l : List (BitVec 64)) : Option Nat :=
  l.zipIdx.findSome? (fun (e, c) => match rangeBad AudCh.layout e with
    | some o => some (16 + 8 * c + o)
    | none => if fget e AudCh.srcKind = 2 && 512 ≤ fget e AudCh.srcIndex then some (16 + 8 * c) else none)

def audOutWriteCheck (q : Req) (s : State) : Except Err (Nat × BitVec 128 × List (BitVec 64) × State) := do
  let o ← Req.index q 1024
  Req.layout q (12 + 144)
  let old := s.audOut o
  let bytes := Req.recordBytes q 144
  let h := mergeRec AudOut.layout old (bytes.take 16)
  let l := mergeChannels s o bytes
  match (rangeBad AudOut.layout h).or (channelsBad l) with
  | some b => errAt eRange (12 + b)
  | none =>
    match fixedBad (fixedIf (fbit old AudOut.outEn) AudOut.layout) old h with
    | some b => errAt eFixed (12 + b)
    | none =>
      if !fbit h AudOut.outEn then return (o, h, l, s)
      else
        let r := fget h AudOut.outRing
        let d := s.ring r
        let fresh := !fbit old AudOut.outEn
        need (!ringFree d) eState
        needAt (!fresh || (calRingFits s d && !s.hasWriter r (fun w => w == .cal o))) 12 eFormat
        match l.zipIdx.find? (fun (e, c) => c < ringChans d && !s.alsoPlanned (fun s => !clash (s.sourceHz e) (ringHz d))) with
        | some (_, c) => errAt eFormat (12 + 16 + 8 * c)
        | none =>
          let add := if fresh then writeHold s 3 r else []
          return (o, h, l, ← claimAll add (writeDrop add) s)

def audOutDo (o : Nat) (h : BitVec 128) (l : List (BitVec 64)) (s : State) : State :=
  let s1 := s.onCal (fun c => { c with
    outHdr := tset outHdrReset c.outHdr o h
    outCh := (l.zipIdx.foldl (fun t e => tset outChReset t (16 * o + e.2) e.1) c.outCh)
    offCh := c.offCh.filter (fun x => x / 16 != o) })
  if fbit h AudOut.outEn then s1.syncWcred (fget h AudOut.outRing) else s1

def cmdAudOutWrite (q : Req) (s : State) : Res := do
  let (o, h, l, t) ← audOutWriteCheck q s
  let t ← calApply 0x0802 (Req.u64 q 4) q (.audOut o) (recBytes h ++ l.flatMap recBytes) (audOutDo o h l) t
  return (t, t.audOutBytes o)

/-- AUD_OUT_WRITE (R250, R421). -/
def execAudOutWrite (q : Req) (s : State) : Out := serve 0x0802 cmdAudOutWrite q s

/-! ### AUD_BUS_WRITE and AUD_BUS_INPUTS (R252) -/

/-- The entries of a bus that are in use. -/
def State.busEntries (s : State) (b : Nat) : List (Nat × BitVec 32) :=
  (s.cal.busIn.filter (fun e => e.1 / 128 == b && fbit e.2 BusIn.xpEn)).map (fun e => (e.1 % 128, e.2))

/-- The bus record as it reads: INPUTS counts the entries in use. -/
def State.busImage (s : State) (b : Nat) : BitVec 256 := fput (s.mixBus b) Bus.inputs (s.busEntries b).length

def audBusWriteCheck (q : Req) (s : State) : Except Err (Nat × BitVec 256) := do
  let b ← Req.index q 512
  let old := s.mixBus b
  let e ← writeRecord q Bus.layout old (fixedIf (fbit old Bus.busEn) Bus.layout)
  let agree (s : State) : Bool :=
    !((s.busEntries b).any (fun x => clash (s.inHz (fget x.2 BusIn.inCh / 16)) (busHz e)) || s.outTakes 2 (· == b) (busHz e))
  needAt (!fbit e Bus.busEn || s.alsoPlanned agree) 12 eFormat
  if fbit e Bus.busEn && !fbit old Bus.busEn then s.mayAdmit
  return (b, e)

def audBusDo (b : Nat) (e : BitVec 256) (s : State) : State :=
  s.onCal (fun c => { c with bus := tset busReset c.bus b e, offBus := c.offBus.filter (· != b) })

def cmdAudBusWrite (q : Req) (s : State) : Res := do
  let (b, e) ← audBusWriteCheck q s
  let t ← calApply 0x0803 (Req.u64 q 4) q (.audBus b) (recBytes e) (audBusDo b e) s
  return (t, recBytes (t.busImage b))

/-- AUD_BUS_WRITE (R252, R421). -/
def execAudBusWrite (q : Req) (s : State) : Out := serve 0x0803 cmdAudBusWrite q s

def audBusInputsCheck (q : Req) (s : State) : Except Err (Nat × Nat × List (BitVec 32)) := do
  let b := Req.u32 q 0
  let first := Req.u8 q 12
  let n := Req.u8 q 13
  needAt (b < 512) 0
  needAt (first ≤ 127) 12
  needAt (1 ≤ n && n ≤ 128 && first + n ≤ 128) 13
  Req.zeroAt q 14 2
  Req.layout q (16 + 4 * n)
  let l := (List.range n).map (fun i => mergeRec BusIn.layout (s.busInput (128 * b + first + i)) (fitBytes 4 (Req.slice q (16 + 4 * i) 4)))
  match l.zipIdx.findSome? (fun (e, i) => (rangeBad BusIn.layout e).map (fun o => 4 * i + o)) with
  | some o => errAt eRange (16 + o)
  | none =>
    let agree (x : BitVec 32) (s : State) : Bool :=
      !(fbit (s.mixBus b) Bus.busEn && fbit x BusIn.xpEn && clash (s.inHz (fget x BusIn.inCh / 16)) (busHz (s.mixBus b)))
    match l.zipIdx.find? (fun (x, _) => !s.alsoPlanned (agree x)) with
    | some (_, i) => errAt eFormat (16 + 4 * i)
    | none =>
      if l.zipIdx.any (fun (x, i) => fbit x BusIn.xpEn && !fbit (s.busInput (128 * b + first + i)) BusIn.xpEn) then s.mayAdmit
      return (b, first, l)

def audBusInputsDo (b first : Nat) (l : List (BitVec 32)) (s : State) : State :=
  s.onCal (fun c => { c with
    busIn := l.zipIdx.foldl (fun t e => tset busInReset t (128 * b + first + e.2) e.1) c.busIn
    offXp := c.offXp.filter (fun x => x / 128 != b || x % 128 < first || first + l.length ≤ x % 128)
    blockedOnce := c.blockedOnce.filter (fun x => x / 128 != b || x % 128 < first || first + l.length ≤ x % 128) })

def cmdAudBusInputs (q : Req) (s : State) : Res := do
  let (b, first, l) ← audBusInputsCheck q s
  let t ← calApply 0x0804 (Req.u64 q 4) q (.audBusInputs b first) (l.flatMap recBytes) (audBusInputsDo b first l) s
  return (t, l.flatMap recBytes)

/-- AUD_BUS_INPUTS (R252, R421). -/
def execAudBusInputs (q : Req) (s : State) : Out := serve 0x0804 cmdAudBusInputs q s

/-! ### AUD_DYN_WRITE (R256, R257) -/

/-- R257: the range of the attachment, as an offset in the record. -/
def dynMore (s : State) (e : BitVec 256) : Option Nat :=
  let i := fget e Dyn.attachIndex
  if !fbit e Dyn.attachKind then (if 512 ≤ i then some 0 else none)
  else if fget e Dyn.chMask = 0 then some 2
  else if clash (s.outHz i) 48000 && 256 ≤ fget e Dyn.chMask then some 2
  else none

/-- Whether two instances share a bus or an output channel. -/
def dynOverlap (a b : BitVec 256) : Bool :=
  fget a Dyn.attachKind == fget b Dyn.attachKind && fget a Dyn.attachIndex == fget b Dyn.attachIndex &&
    (!fbit a Dyn.attachKind || Nat.land (fget a Dyn.chMask) (fget b Dyn.chMask) != 0)

def audDynWriteCheck (q : Req) (s : State) : Except Err (Nat × BitVec 256) := do
  let i ← Req.index q 1024
  let old := s.dynRec i
  let e ← writeRecordX q Dyn.layout old (fixedIf (fbit old Dyn.dynEn) Dyn.layout) (dynMore s)
  need (!fbit e Dyn.dynEn || s.alsoPlanned (fun s => !s.cal.dyn.any (fun x => x.1 != i && fbit x.2 Dyn.dynEn && dynOverlap x.2 e))) eBusy
  if fbit e Dyn.dynEn && !fbit old Dyn.dynEn then s.mayAdmit
  return (i, e)

/-- The record taken on; the gain starts at 0 dB when DYN_EN is set (R258). -/
def audDynDo (i : Nat) (e : BitVec 256) (s : State) : State :=
  let rises := fbit e Dyn.dynEn && !fbit (s.dynRec i) Dyn.dynEn
  s.onCal (fun c => { c with
    dyn := tset dynReset c.dyn i (if rises || !fbit e Dyn.dynEn then fput e Dyn.gr 0 else e)
    dynG := if rises then tdel c.dynG i else c.dynG })

def cmdAudDynWrite (q : Req) (s : State) : Res := do
  let (i, e) ← audDynWriteCheck q s
  let t ← calApply 0x0805 (Req.u64 q 4) q (.audDyn i) (recBytes e) (audDynDo i e) s
  return (t, recBytes (t.dynRec i))

/-- AUD_DYN_WRITE (R256, R257, R421). -/
def execAudDynWrite (q : Req) (s : State) : Out := serve 0x0805 cmdAudDynWrite q s

/-! ### AUD_READ (R267, R421) -/

/-- Numbers of each kind of object. -/
def audCount : Nat → Nat
  | 0 => 1
  | 3 | 4 => 512
  | _ => 1024

/-- The record of an object, then its counters. -/
def State.audBytes (s : State) (kind i : Nat) : List Byte :=
  let n (t : Tab Nat) : List Byte := leBytes 4 (tget natReset t i)
  match kind with
  | 0 => recBytes s.cal.ctl
  | 1 => recBytes (s.audIn i) ++ leBytes 4 (s.inSt i).slipUnder ++ leBytes 4 (s.inSt i).slipOver
  | 2 => s.audOutBytes i ++ n s.cal.clipOut
  | 3 => recBytes (s.busImage i) ++ n s.cal.clipBus ++ n s.cal.satBus ++ n s.cal.blocked
  | 4 => (List.range 128).flatMap (fun k => recBytes (s.busInput (128 * i + k)))
  | _ => recBytes (s.dynRec i)

def State.audClear (kind i : Nat) (s : State) : State :=
  match kind with
  | 1 => s.setInSt i { s.inSt i with slipUnder := 0, slipOver := 0 }
  | 2 => s.onCal (fun c => { c with clipOut := tdel c.clipOut i })
  | 3 => s.onCal (fun c => { c with clipBus := tdel c.clipBus i, satBus := tdel c.satBus i, blocked := tdel c.blocked i })
  | _ => s

def cmdAudRead (q : Req) (s : State) : Res := do
  let kind := Req.u32 q 0 / 65536
  let i := Req.u32 q 0 % 65536
  needAt (kind ≤ 5) 0
  needAt (i < audCount kind) 0
  let clear ← Req.readClear q
  return (if clear then s.audClear kind i else s, s.audBytes kind i)

/-- AUD_READ (R421). -/
def execAudRead (q : Req) (s : State) : Out := serve 0x0806 cmdAudRead q s

/-! ### The tick: held writes -/

/-- A held write applied. -/
def State.applyAudio (h : Held) (s : State) : State :=
  let x := leNat h.bytes
  match h.obj with
  | .audIn i => audInDo i (BitVec.ofNat 256 x) s
  | .audOut o => audOutDo o (BitVec.ofNat 128 (leNat (h.bytes.take 16)))
      ((List.range 16).map (fun c => BitVec.ofNat 64 (leNat ((h.bytes.drop (16 + 8 * c)).take 8)))) s
  | .audBus b => audBusDo b (BitVec.ofNat 256 x) s
  | .audBusInputs b first => audBusInputsDo b first (wordsOf (h.bytes.length / 4) h.bytes) s
  | .audDyn i => audDynDo i (fput (BitVec.ofNat 256 x) Dyn.gr (fget (s.dynRec i) Dyn.gr)) s
  | _ => s

def State.applyAudioDue (s : State) : State :=
  let due := s.cal.held.filter (fun h => h.target ≤ s.now)
  due.foldl (fun s h => s.applyAudio h) (s.onCal (fun c => { c with held := c.held.filter (fun h => s.now < h.target) }))

/-! ### The tick: input slots (R245, R249) -/

/-- A tile of the source as a tap passes it on (R63, R65): its words with the ramps next to failed tiles and, with `up` and `down`, next to
the reader's own breaks. -/
def State.tapTile (s : State) (r : Nat) (d : BitVec 256) (e : BitVec 32) (up down : Bool) : List (BitVec 32) :=
  match s.tileWords r e with
  | none => silence d
  | some ws => edgeRamps d (up || (s.tileWords r (e - 1)).isNone) (down || (s.tileWords r (e + 1)).isNone) ws

/-- One millisecond of a tap: the slot's position less its delay (R249). -/
def State.tapWords (s : State) (r : Nat) (d : BitVec 256) (e : BitVec 32) (up down : Bool) (delay : Nat) : List (BitVec 32) :=
  let ms := ringMs d
  let ch := ringChans d
  let back := BitVec.ofNat 32 (delay / ms)
  let rest := delay % ms
  if rest = 0 then s.tapTile r d (e - back) up down
  else edgeRamps d up down ((s.tapTile r d (e - back - 1) false false).drop ((ms - rest) * ch) ++
    (s.tapTile r d (e - back) false false).take ((ms - rest) * ch))

/-- What a channel of an input slot hears, as a word; a gain held off by parity ramps it out. -/
def heardWord (h : Heard) (gain : Nat) : BitVec 32 :=
  match h with
  | .pass w => w
  | .pcm v => withSample 0 (roundAway (v * gain) (unity * unity))

/-- The words of channel `c` of a bundle. -/
def channelWords (ws : List (BitVec 32)) (ch c : Nat) : List (BitVec 32) := (List.range (768 / ch)).map (fun t => ws.getD (t * ch + c) 0)

/-- Channels put back together into a bundle. -/
def joinChannels (l : List (List (BitVec 32))) (ch : Nat) : List (BitVec 32) :=
  (List.range 768).map (fun i => (l.getD (i % ch) []).getD (i / ch) 0)

/-- Where a slot's reader attaches at a tick: at a fill of 2, or waiting for it (R245). -/
def attachTick (d : BitVec 256) : BitVec 32 :=
  if fget d RingDesc.stateF = 2 && 2 ≤ fget d RingDesc.wseq then BitVec.ofNat 32 (fget d RingDesc.wseq - 2)
  else BitVec.ofNat 32 (fget d RingDesc.wseq)

/-- Where a slot's reader goes at a tick: the state after it, the break at the end of the tile it held, and its slip. -/
def stepReader (d : BitVec 256) (v0 : InSt) : InSt × Bool × Nat :=
  let v := if v0.attached then v0 else { v0 with attached := true, pos := attachTick d, primed := false, cur := none, join := false }
  let (pos, primed, cur, slip) : BitVec 32 × Bool × Option (BitVec 32) × Nat :=
    match pace (BitVec.ofNat 32 (fget d RingDesc.wseq)) v.pos v.primed with
    | .read => (v.pos + 1, true, some v.pos, 0)
    | .wait => (v.pos, false, none, 0)
    | .under => (v.pos, false, none, 1)
    | .overrun p => (p + 1, true, some p, if v.primed then 2 else 0)
  let follows := match v.cur, cur with | some a, some b => b == a + 1 | _, _ => false
  ({ v with
      pos := pos, primed := primed, cur := cur, join := follows
      slipUnder := sat32 v.slipUnder (bit (slip == 1)), slipOver := sat32 v.slipOver (bit (slip == 2)) }, !follows, slip)

/-- One channel of an input slot over the tile being mixed: its words and its taps afterwards. -/
def State.inChannel (s : State) (i c : Nat) (d : BitVec 256) (tables : List (Nat × List (BitVec 32))) : List (BitVec 32) × List Voice :=
  let ch := ringChans d
  let ms := ringMs d
  let e := s.audIn i
  let np := maskBit (fget d RingDesc.nonpcm) c
  let voices := fadeTo (tapDelay e (tapOf e c)) false (5 * ms) (tget voicesReset s.cal.tapMix (16 * i + c))
  let tracks := voices.map (fun v => (⟨v, channelWords ((tables.find? (fun t => t.1 == v.src)).elim (silence d) (·.2)) ch c, np⟩ : Track))
  let gain := tget rampReset s.cal.inGain (16 * i + c)
  ((List.range ms).map (fun t => heardWord (hear tracks t) (gain.coeff t)), stepVoices ms tracks)

/-- An input slot at a tick: the tile read the tick before is mixed, and the reader goes on. -/
def State.stepIn (i : Nat) (s : State) : State :=
  let e := s.audIn i
  let v := s.inSt i
  if !fbit e AudIn.inEn then
    (s.setInSt i { inStReset 0 with slipUnder := v.slipUnder, slipOver := v.slipOver }).onCal (fun c => { c with
      tapMix := c.tapMix.filter (fun x => x.1 / 16 != i), inGain := c.inGain.filter (fun x => x.1 / 16 != i) })
  else
    let r := fget e AudIn.inRing
    let d := s.ring r
    let ch := ringChans d
    let (v1, down, slip) := stepReader d v
    let s0 := s.onCal (fun c => { c with inGain := (List.range ch).foldl (fun t k =>
      let g := tget rampReset t (16 * i + k)
      tset rampReset t (16 * i + k) (if c.offIn.contains (16 * i + k) then g.towards (-32768) false (ringHz d / 2000) else g.towards 0 false 0)) c.inGain })
    let delays := (List.range ch).flatMap (fun k =>
      tapDelay e (tapOf e k) :: (tget voicesReset s.cal.tapMix (16 * i + k)).map (·.src))
    let tables := delays.eraseDups.map (fun x => (x, match v.cur with
      | some p => s.tapWords r d p (!v.join) down x
      | none => silence d))
    let chans := (List.range ch).map (fun k => s0.inChannel i k d tables)
    let s1 := (s0.setInSt i { v1 with words := joinChannels (chans.map (·.1)) ch }).onCal (fun c => { c with
      tapMix := (chans.zipIdx.foldl (fun t x => tset voicesReset t (16 * i + x.2) x.1.2) c.tapMix)
      inGain := (List.range ch).foldl (fun t k => tset rampReset t (16 * i + k) ((tget rampReset t (16 * i + k)).step (ringMs d))) c.inGain })
    if slip = 0 then s1 else s1.audioSlips (locCal 3) 1 0 i [(slip, r)]

/-! ### The tick: buses (R252 to R255) -/

/-- The words of an input channel at a rate, and whether it is non-PCM: silence where its slot does not give that rate. -/
def State.inTrack (s : State) (hz ch : Nat) (v : Voice) : Track :=
  let i := v.src / 16
  let c := v.src % 16
  let d := s.ring (fget (s.audIn i) AudIn.inRing)
  if s.inHz i == some hz && c < ch then ⟨v, channelWords (s.inSt i).words ch c, maskBit (fget d RingDesc.nonpcm) c⟩ else ⟨v, [], false⟩

/-- One entry of a bus over a tile: its products, its sources and gain afterwards, and whether a non-PCM input is blocked. -/
def State.busEntry (s : State) (b k : Nat) (e : BitVec 256) (x : BitVec 32) : List Int × List Voice × Ramp × Bool :=
  let hz := busHz e
  let ms := hz / 1000
  let key := 128 * b + k
  let db := fbit e Bus.xpShape
  let len := fget e Bus.xpRamp * hz / 2000
  let old := tget voicesReset s.cal.xpMix key
  let tracks := (fadeTo (fget x BusIn.inCh) db len old).map (s.inTrack hz (if hz = 96000 then 8 else 16))
  let gain := if s.cal.offXp.contains key then (tget rampReset s.cal.xpGain key).towards (-32768) false (hz / 2000)
    else if old.isEmpty then Ramp.rest (fsgn x BusIn.xpGain) else (tget rampReset s.cal.xpGain key).towards (fsgn x BusIn.xpGain) db len
  let np := tracks.any (·.np)
  let product (t : Nat) : Int := match hear tracks t with
    | .pass _ => 0
    | .pcm v => if np then 0 else roundAway (v * gain.coeff t) (2 ^ 36)
  ((List.range ms).map product, stepVoices ms tracks, gain.step ms, tracks.head?.any (·.np))

/-- The instance attached to a bus. -/
def State.busDyn (s : State) (b : Nat) : Option (Nat × BitVec 256) :=
  s.cal.dyn.find? (fun x => fbit x.2 Dyn.dynEn && !fbit x.2 Dyn.attachKind && fget x.2 Dyn.attachIndex == b)

/-- Dynamics over a bus's tile: its samples, the gain after them, and how many saturated. -/
def dynBus (r : BitVec 256) (hz : Nat) : List Int → Int → List Int × Int × Nat
  | [], g => ([], g, 0)
  | v :: l, g =>
    let g1 := dynStep r hz (levelDb 35 v.natAbs) g
    let x := roundAway (v * dynFactor r g1) fx
    let (out, g2, n) := dynBus r hz l g1
    (sat48 x :: out, g2, n + bit (decide (sat48 x ≠ x)))

/-- Whether an event last raised at a time may be raised again: once a second at most. -/
def onceASecond (s : State) (last : Nat) : Bool := last == 0 || last + 1000000000 ≤ s.time.clk.toNat

/-- Samples saturated in a bus: counted, with BUS_SATURATE (0xD3) or BUS_CLIP (0xD2). -/
def State.busSaturated (b n : Nat) (clip : Bool) (s : State) : State :=
  if n = 0 then s
  else if clip then
    let s1 := s.onCal (fun c => { c with clipBus := tset natReset c.clipBus b (sat32 (tget natReset c.clipBus b) n) })
    if onceASecond s (tget natReset s.cal.lastClip b) then
      (s1.onCal (fun c => { c with lastClip := tset natReset c.lastClip b (max 1 s.time.clk.toNat) })).raise0 0xD2 (locCal 1) else s1
  else
    let s1 := s.onCal (fun c => { c with satBus := tset natReset c.satBus b (sat32 (tget natReset c.satBus b) n) })
    if onceASecond s (tget natReset s.cal.lastSat b) then
      (s1.onCal (fun c => { c with lastSat := tset natReset c.lastSat b (max 1 s.time.clk.toNat) })).raise0 0xD3 (locCal 1) else s1

/-- Non-PCM entries of a bus: counted per tick, each raising NONPCM_BLOCKED once. -/
def State.busBlocked (b : Nat) (entries : List Nat) (s : State) : State :=
  entries.foldl (fun s k =>
    let s1 := s.onCal (fun c => { c with blocked := tset natReset c.blocked b (sat32 (tget natReset c.blocked b) 1) })
    if s.cal.blockedOnce.contains (128 * b + k) then s1
    else (s1.onCal (fun c => { c with blockedOnce := c.blockedOnce ++ [128 * b + k] })).raise0 0xD4 (locCal 1)) s

/-- A bus at a tick: the tile mixed now enters the look-ahead, and the one before leaves as 24-bit samples. -/
def State.stepBus (b : Nat) (s : State) : State × List Int :=
  let e := s.mixBus b
  let hz := busHz e
  let ms := hz / 1000
  let entries := (s.busEntries b).map (fun x => (x.1, s.busEntry b x.1 e x.2))
  let sum := (List.range ms).map (fun t => (entries.map (fun x => x.2.1.getD t 0)).sum)
  let began := !(tget intsReset s.cal.acc b).isEmpty
  let goal := fsgn e Bus.busGain
  let gain := if s.cal.offBus.contains b then (tget rampReset s.cal.busGain b).towards (-32768) false (hz / 2000)
    else if began then (tget rampReset s.cal.busGain b).towards goal (fbit e Bus.busShape) (fget e Bus.busRamp * hz / 2000) else Ramp.rest goal
  let scaled := sum.zipIdx.map (fun x => roundAway (x.1 * gain.coeff x.2) unity)
  let (mixed, satN, s1) := match s.busDyn b with
    | none => (scaled.map sat48, (scaled.filter (fun v => sat48 v != v)).length, s)
    | some (i, r) =>
      let (out, g, n) := dynBus r hz (scaled.map sat48) (tget intReset s.cal.dynG i)
      (out, n + (scaled.filter (fun v => sat48 v != v)).length, s.onCal (fun c => { c with
        dynG := tset intReset c.dynG i g, dyn := tset dynReset c.dyn i (fput (s.dynRec i) Dyn.gr (dynGr g)) }))
  let before := if began then tget intsReset s.cal.acc b else List.replicate ms 0
  let (out, lim) := if fbit e Bus.limEn then
      limit (poleCoeff (fget e Bus.limRel) 1000 hz) (ceiling (fsgn e Bus.limCeil)) ms before mixed (tget limReset s.cal.limG b)
    else (before, (fx : Int))
  let n0 := (2 * s.now * hz + 1000000000) / 2000000000
  let quant := out.zipIdx.map (fun x => requantise x.1 (if fbit e Bus.dither then ditherOf b (n0 + x.2) else 0))
  let s2 := s1.onCal (fun c => { c with
    acc := tset intsReset c.acc b mixed
    limG := tset limReset c.limG b lim
    busGain := tset rampReset c.busGain b (gain.step ms)
    xpMix := (entries.foldl (fun t x => tset voicesReset t (128 * b + x.1) x.2.2.1) (c.xpMix.filter (fun x => x.1 / 128 != b)))
    xpGain := (entries.foldl (fun t x => tset rampReset t (128 * b + x.1) x.2.2.2.1) (c.xpGain.filter (fun x => x.1 / 128 != b))) })
  let s3 := s2.busBlocked b ((entries.filter (fun x => x.2.2.2.2)).map (·.1))
  ((s3.busSaturated b satN false).busSaturated b (quant.filter (·.2)).length true, quant.map (·.1))

/-- A bus that is off forgets its tile, its ramps and its limiter's gain. -/
def State.busOff (b : Nat) (s : State) : State :=
  s.onCal (fun c => { c with
    acc := tdel c.acc b, limG := tdel c.limG b, busGain := tdel c.busGain b
    xpMix := c.xpMix.filter (fun x => x.1 / 128 != b), xpGain := c.xpGain.filter (fun x => x.1 / 128 != b) })

/-- Every bus at a tick, with what each puts out. -/
def State.stepBuses (s : State) : State × Tab (List Int) :=
  s.cal.bus.foldl (fun a x =>
    if fbit x.2 Bus.busEn then let (s1, out) := a.1.stepBus x.1
      (s1, tset intsReset a.2 x.1 out)
    else (a.1.busOff x.1, a.2)) (s, [])

/-! ### The tick: output slots (R250, R251, R265) -/

/-- The words of a channel's source: silence, an input channel as mixed the tick before, or a bus. -/
def outTrack (old : State) (buses : Tab (List Int)) (hz ch : Nat) (v : Voice) : Track :=
  match v.src / 16384 with
  | 1 => old.inTrack hz ch { v with src := v.src % 16384 } |> fun t => { t with voice := v }
  | 2 => let b := v.src % 16384
    if busHz (old.mixBus b) = hz then ⟨v, (tget intsReset buses b).map (withSample 0), false⟩ else ⟨v, [], false⟩
  | _ => ⟨v, [], false⟩

/-- One output channel over a tile, after steps 1 to 3 of R251: what it carries, in 2^-48 of an LSB, its sources and gain afterwards, and
whether it is non-PCM. -/
def State.outChannel (s old : State) (buses : Tab (List Int)) (o c hz ch : Nat) : List Heard × List Voice × Ramp × Bool :=
  let key := 16 * o + c
  let e := s.audCh key
  let ms := hz / 1000
  let db := fbit e AudCh.chShape
  let len := fget e AudCh.chRamp * hz / 2000
  let was := tget voicesReset s.cal.chMix key
  let tracks := (fadeTo (fget e AudCh.srcKind * 16384 + fget e AudCh.srcIndex) db len was).map (outTrack old buses hz ch)
  let gain := if s.cal.offCh.contains key then (tget rampReset s.cal.chGain key).towards (-32768) false (hz / 2000)
    else if was.isEmpty then Ramp.rest (fsgn e AudCh.chGain) else (tget rampReset s.cal.chGain key).towards (fsgn e AudCh.chGain) db len
  let sample (t : Nat) : Heard := match hear tracks t with
    | .pass w => .pass w
    | .pcm v => .pcm ((if fbit e AudCh.invert then -1 else 1) * v * gain.coeff t)
  ((List.range ms).map sample, stepVoices ms tracks, gain.step ms, match hear tracks (ms - 1) with | .pass _ => true | .pcm _ => false)

/-- The instances attached to channels of an output slot. -/
def State.outDyns (s : State) (o : Nat) : List (Nat × BitVec 256) :=
  s.cal.dyn.filter (fun x => fbit x.2 Dyn.dynEn && fbit x.2 Dyn.attachKind && fget x.2 Dyn.attachIndex == o)

/-- A sample of every channel through its instance (R257, R258) and requantised: words, gains after it, and how many saturated. -/
def outSample (dyns : List (Nat × BitVec 256)) (hz : Nat) (l : List Heard) (g : Tab Int) : List (BitVec 32) × Tab Int × Nat :=
  let level (r : BitVec 256) : Nat := (l.zipIdx.map (fun x => match x.1 with
    | .pcm v => if maskBit (fget r Dyn.chMask) x.2 then v.natAbs else 0
    | .pass _ => 0)).foldl max 0
  let g1 := dyns.foldl (fun t x => tset intReset t x.1 (dynStep x.2 hz (levelDb 71 (level x.2)) (tget intReset t x.1))) g
  let word (x : Heard × Nat) : BitVec 32 × Bool := match x.1 with
    | .pass w => (w, false)
    | .pcm v =>
      let q := match dyns.find? (fun d => maskBit (fget d.2 Dyn.chMask) x.2) with
        | none => roundAway v (2 ^ 48)
        | some d => roundAway (v * dynFactor d.2 (tget intReset g1 d.1)) (2 ^ 112)
      (withSample 0 q, decide (sat24 q ≠ q))
  let ws := l.zipIdx.map word
  (ws.map (·.1), g1, (ws.filter (·.2)).length)

/-- Every sample of a tile in turn. -/
def outSamples (dyns : List (Nat × BitVec 256)) (hz : Nat) : List (List Heard) → Tab Int → List (BitVec 32) × Tab Int × Nat
  | [], g => ([], g, 0)
  | l :: ls, g =>
    let (w, g1, n) := outSample dyns hz l g
    let (ws, g2, m) := outSamples dyns hz ls g1
    (w ++ ws, g2, n + m)

/-- Tiles still staged when the next one is due are written poisoned (R266). -/
def State.overdue (r : Nat) (s : State) : State :=
  let late := (s.wr r).staged
  if late.isEmpty then s
  else (late.foldl (fun s t => s.commitTile r { t with poison := true }) s).raise0 0xD5 (locCal 0)

/-- An output slot at a tick: one tile of what was read two ticks before. -/
def State.stepOut (old : State) (buses : Tab (List Int)) (o : Nat) (s : State) : State :=
  let r := fget (s.audOut o) AudOut.outRing
  let s0 := s.overdue r
  let d := s0.ring r
  let hz := ringHz d
  let ch := ringChans d
  let chans := (List.range ch).map (fun c => s0.outChannel old buses o c hz ch)
  let rows := (List.range (ringMs d)).map (fun t => chans.map (fun x => x.1.getD t (.pcm 0)))
  let dyns := s0.outDyns o
  let (ws, g, n) := outSamples dyns hz rows s0.cal.dynG
  let np := listMask ((List.range ch).filter (fun c => (chans.getD c ([], [], Ramp.rest 0, false)).2.2.2))
  let s1 := s0.onCal (fun c => { c with
    chMix := chans.zipIdx.foldl (fun t x => tset voicesReset t (16 * o + x.2) x.1.2.1) c.chMix
    chGain := chans.zipIdx.foldl (fun t x => tset rampReset t (16 * o + x.2) x.1.2.2.1) c.chGain
    dynG := g
    dyn := dyns.foldl (fun t x => tset dynReset t x.1 (fput x.2 Dyn.gr (dynGr (tget intReset g x.1)))) c.dyn
    clipOut := if n = 0 then c.clipOut else tset natReset c.clipOut o (sat32 (tget natReset c.clipOut o) n) })
  (s1.setRing r (fput d RingDesc.nonpcm np)).writeAudio r (locCal 0) (wordBytes ws) false

/-- An output slot that is off forgets its sources and ramps; its ring keeps the write claim (R541). -/
def State.outOff (o : Nat) (s : State) : State :=
  s.onCal (fun c => { c with chMix := c.chMix.filter (fun x => x.1 / 16 != o), chGain := c.chGain.filter (fun x => x.1 / 16 != o) })

/-! ### The tick (R244) -/

def State.setCalState (v : Nat) (s : State) : State := s.onCal (fun c => { c with ctl := fput c.ctl Cal.calState v })

/-- What runs is forgotten; records and counters stay. -/
def State.calIdle (s : State) : State :=
  let s1 := s.onCal (fun c => { c with
    run := false, tapMix := [], inGain := [], chMix := [], chGain := [], xpMix := [], xpGain := [], busGain := [], acc := [], limG := []
    inSt := c.inSt.foldl (fun t x => tset inStReset t x.1 { inStReset 0 with slipUnder := x.2.slipUnder, slipOver := x.2.slipOver }) [] })
  (s1.cal.audIn.foldl (fun s x => s.dropTaps x.1) s1).setCalState 0

/-- Whether a contained fault holds Calliope out of service: an isolation stands at a location of its own (DEDUCED, log entry 50). -/
def State.calIsolated (s : State) : Bool := s.flt.isolated.any (fun p => (List.range 4).any (fun e => p.2 == locCal e))

/-- One tick of a running Calliope. -/
def State.calTick (s : State) : State :=
  let s1 := (s.setCalState 1).onCal (fun c => { c with run := true })
  let s2 := s1.cal.audIn.foldl (fun s x => s.stepIn x.1) s1
  let s3 := s2.cal.audIn.foldl (fun s x => if fbit x.2 AudIn.inEn then s else s.dropTaps x.1) s2
  let (s4, buses) := s3.stepBuses
  s4.cal.outHdr.foldl (fun s x => if fbit x.2 AudOut.outEn then State.stepOut s1 buses x.1 s else s.outOff x.1) s4

/-- CALLIOPE_TICK (R244, R245, R247, R266). -/
def execCalliopeTick (s0 : State) : Out :=
  let s := s0.fresh
  if s.blockHeld 48 then done s else
  let s1 := s.applyAudioDue
  if !fbit s1.cal.ctl Cal.calEn then done (if s1.cal.run then s1.calIdle else s1)
  else if !s1.planeOn (fget s1.cal.ctl Cal.calPlane) then done s1
  else if s1.calIsolated then done (s1.setCalState 2)
  else done s1.calTick

/-- TAP_CROSSFADE_END (R249): the second read claim goes, and that of a tap neither in use nor wanted by a held write. -/
def execTapCrossfadeEnd (slot : Fin 1024) (tap : Fin 4) (s0 : State) : Out :=
  let s := s0.fresh
  let unused := !s.tapWanted slot.val tap.val
  done (s.release (fun h => h.grp == .calRead slot.val (4 + tap.val) || (unused && h.grp == .calRead slot.val tap.val)))

/-- CAL_COEFF_PARITY (R266): the setting ramps to off, and stays off until its record is written again. -/
def execCalCoeffParity (what : CalCoeff) (s0 : State) : Out :=
  let s := s0.fresh
  let put (l : List Nat) (i : Nat) : List Nat := if l.contains i then l else l ++ [i]
  match what with
  | .crosspoint b i => done ((s.onCal (fun c => { c with offXp := put c.offXp (128 * b.val + i.val) })).raise0 0xD6 (locCal 1))
  | .bus b => done ((s.onCal (fun c => { c with offBus := put c.offBus b.val })).raise0 0xD6 (locCal 1))
  | .channel o c => done ((s.onCal (fun e => { e with offCh := put e.offCh (16 * o.val + c.val) })).raise0 0xD6 (locCal 0))
  | .tapMap i c => done ((s.onCal (fun e => { e with offIn := put e.offIn (16 * i.val + c.val) })).raise0 0xD6 (locCal 3))

end Sys2Proof.Machine
end

