-- ==== Sys2Proof/Machine/Hostq.lean ====
section
/-! DEFINITION. Host queues (R391 to R394, R412) and what becomes of a received frame (R164 to R167, R177). -/

namespace Sys2Proof.Machine

open Sys2Proof

/-! ### Queues and descriptors (R392, R393) -/

def State.hq (s : State) (h : Nat) : Hq := tget Hq.idle s.ctl.hq h
def State.setHq (h : Nat) (v : Hq) (s : State) : State := s.onCtl (fun c => { c with hq := tset Hq.idle c.hq h v })

/-- The capture queue bound to a ring. -/
def State.captureQueue (s : State) (r : Nat) : Option Nat :=
  (s.ctl.hq.find? (fun e => e.2.en && !e.2.insert && e.2.ring == r)).map (·.1)

/-- A taken descriptor is completed: its unit's END tile was committed, or the unit abandoned. An enabled queue whose COUNT rises from 0
signals HQ_VECTOR (R386). -/
def State.completeDesc (h : Nat) (eseq : BitVec 32) (f : Desc → Desc) (s : State) : State :=
  let v := s.hq h
  match v.taken.find? (fun d => d.eseq == eseq) with
  | none => s
  | some d =>
    let s1 := s.setHq h { v with taken := v.taken.filter (fun x => x.eseq != eseq), descs := v.descs ++ [f d] }
    if v.descs.isEmpty && s.ctl.irqCfg.getLsbD (32 + h) then s1.signal (s.ctl.irqCfg.toNat / 256 % 64) else s1

/-- Whether a queue has a descriptor for a unit that starts. -/
def Hq.room (v : Hq) : Bool := v.descs.length + v.taken.length < 1024

/-- A unit of a capture ring that has been abandoned: its descriptor tells the bytes held before the abandon. -/
def State.truncated (h r : Nat) (eseq : BitVec 32) (s : State) : State :=
  if !(s.wr r).discard then s
  else
    let n := (s.nextEseq r - eseq).toNat
    let held := match s.markerAt r eseq with | some k => (k.bad - eseq).toNat | none => n
    s.completeDesc h eseq (fun d => { d with truncated := true, tiles := BitVec.ofNat 32 n, bytes := BitVec.ofNat 32 (4096 * held) })

/-- R177, R393: a datagram written as one unit of a capture ring (what it holds is DESIGN CHOICE, log entry 26). -/
def State.captureUnit (r sub : Nat) (bytes : List Byte) (s : State) : State :=
  match s.captureQueue r with
  | none => s.writeUnit r locHost bytes
  | some h =>
    let v := s.hq h
    if !v.room then s.setHq h { v with lost := sat32 v.lost 1 }
    else
      let e := s.nextEseq r
      let d : Desc := ⟨e, BitVec.ofNat 32 bytes.length, BitVec.ofNat 32 (cdiv bytes.length 4096), BitVec.ofNat 64 s.now, false,
        BitVec.ofNat 2 (sub / 8), BitVec.ofNat 3 (sub % 8), true⟩
      ((s.setHq h { v with taken := v.taken ++ [d] }).writeUnit r locHost bytes).truncated h r e

/-- The head descriptor removed. -/
def State.popDesc (h : Nat) (s : State) : State :=
  s.setHq h { s.hq h with descs := (s.hq h).descs.drop 1 }

/-- POP (R392). -/
def execPop (h : Fin 16) (s0 : State) : Out :=
  let s := s0.byHost
  done (if s.hostPort then s.popDesc h.val else s)

/-- RELSEQ of a capture queue's ring; a value below it or beyond WSEQ is ignored. -/
def State.releaseTiles (h : Nat) (eseq : BitVec 32) (s : State) : State :=
  let v := s.hq h
  let d := s.ring v.ring
  let rel := BitVec.ofNat 32 (fget d RingDesc.relseq)
  if !v.en || v.insert || (ringWseq d - rel).toNat < (eseq - rel).toNat then s
  else s.setRing v.ring (fput d RingDesc.relseq eseq.toNat)

/-- RELEASE (R393). -/
def execRelease (h : Fin 16) (eseq : BitVec 32) (s0 : State) : Out :=
  let s := s0.byHost
  done (if s.hostPort then s.releaseTiles h.val eseq else s)

/-! ### HOSTQ_BIND, HOSTQ_UNBIND (R391, R412, R541) -/

def hostqBindCheck (q : Req) (s : State) : Except Err (Nat × Bool × Nat × State) := do
  Req.layout q 4
  needAt (Req.u8 q 0 < 16) 0
  needAt (Req.u8 q 1 < 2) 1
  needAt (Req.u16 q 2 < 8192) 2
  let h := Req.u8 q 0
  let r := Req.u16 q 2
  let insert := Req.u8 q 1 == 1
  need (!(s.hq h).en && !ringFree (s.ring r)) eState
  needAt (ringClass (s.ring r) == 3) 2 eFormat
  need (!s.hasWriter r (fun w => match w with | .filter _ => !insert | _ => false)) eBusy
  let add := writeHold s 5 r
  let t ← claimAll add (writeDrop add) s
  return (h, insert, r, t)

def cmdHostqBind (q : Req) (s : State) : Res := do
  let (h, insert, r, t) ← hostqBindCheck q s
  return ((t.setHq h { Hq.idle h with en := true, insert := insert, ring := r }).syncWcred r, [])

/-- HOSTQ_BIND (R391, R411). -/
def execHostqBind (q : Req) (s : State) : Out := serve 0x030C cmdHostqBind q s

def hostqUnbindCheck (q : Req) (s : State) : Except Err Nat := do
  Req.layout q 1
  needAt (Req.u8 q 0 < 16) 0
  need (s.hq (Req.u8 q 0)).en eState
  return Req.u8 q 0

/-- R412: waiting descriptors are discarded and an open unit is abandoned. -/
def hostqUnbindDo (h : Nat) (s : State) : State :=
  let r := (s.hq h).ring
  (((s.stopWriter r).setHq h (Hq.idle h)).onCtl (fun c => { c with captures := c.captures.filter (fun x => x.queue != h) }))

def cmdHostqUnbind (q : Req) (s : State) : Res := do
  let h ← hostqUnbindCheck q s
  return (hostqUnbindDo h s, [])

/-- HOSTQ_UNBIND (R412). -/
def execHostqUnbind (q : Req) (s : State) : Out := serve 0x030D cmdHostqUnbind q s

/-! ### HOST_INSERT (R394) -/

/-- RELSEQ of an insert ring: the oldest tile its readers still need: the unit each reads, and all from WSEQ on where none
reads (DESIGN CHOICE, log entry 27). -/
def State.insertRel (s : State) (r : Nat) : BitVec 32 :=
  let w := ringWseq (s.ring r)
  let newest := match s.newest r with | some k => k.eseq | none => w
  let uses := (s.rte.active.filter (fun e => (entryParts e.2).any (fun p => p.2 == r))).map (fun e =>
    match (if (s.out e.1).chosen.isSome then (s.out e.1).chosen else (s.out e.1).lastFrame) with
    | some c => if fbit e.2 RouteEntry.videoEn && fget e.2 RouteEntry.videoRing == r && s.readsRing e.1 r then c else newest
    | none => newest)
  uses.foldl (fun a e => if (w - a).toNat < (w - e).toNat then e else a) w

/-- Bytes of one frame of a packed ring. -/
def frameBytes (d : BitVec 256) : Nat := ringPitch d * ringLines d

/-- The window of one second in which a queue's tiles count against its declared rate (DESIGN CHOICE, log entry 28). -/
def Hq.window (v : Hq) (now : Nat) : Hq := if v.budgetAt + 1000000000 ≤ now || now < v.budgetAt then { v with budgetAt := now, budgetTiles := 0 } else v

/-- What a fragment asks: queue, START, END and bytes. -/
structure Fragment where
  h : Nat
  start : Bool
  fin : Bool
  data : List Byte
  deriving DecidableEq, Repr

def hostFragment (q : Req) : Except Err Fragment := do
  needAt (Req.u8 q 0 < 16) 0
  needAt (Req.u8 q 1 < 4) 1
  let n := Req.u16 q 2
  needAt (1 ≤ n && n ≤ 1000) 2
  Req.layout q (4 + n)
  return ⟨Req.u8 q 0, Req.u8 q 1 % 2 == 1, Req.u8 q 1 / 2 == 1, fitBytes n (Req.slice q 4 n)⟩

/-- Tiles a fragment closes. -/
def fragmentTiles (d : BitVec 256) (before : Nat) (g : Fragment) : Nat :=
  let after := before + g.data.length
  if ringType d = 3 then (if g.fin then cdiv after 4096 else (after - 1) / 4096) - (before - 1) / 4096
  else cdiv after 4096 - before / 4096

def hostInsertCheck (q : Req) (s : State) : Except Err Fragment := do
  let g ← hostFragment q
  let v := s.hq g.h
  need (v.en && v.insert) eState
  need (g.start || v.unitOpen) eState
  let d := s.ring v.ring
  let before := if g.start then 0 else v.unitLen
  needAt (ringType d != 3 || before + g.data.length ≤ 65536) 2
  let n := fragmentTiles d before g
  let w := v.window s.now
  need (w.budgetTiles + n ≤ (tget declReset s.mem.decl v.ring).1) eBusy
  need ((s.nextEseq v.ring - s.insertRel v.ring).toNat + n ≤ fget d RingDesc.length) eBusy
  return g

/-- Bytes of an insert unit: a packed frame ends its first field in a tile of its own (R46). -/
def State.insertBytes (r before : Nat) (bytes : List Byte) (s : State) : State :=
  let d := s.ring r
  if ringType d = 3 then s.feedUnit r locHost bytes
  else
    let cut := ringPitch d * fieldLines d false
    if ringIl d && before < cut && cut ≤ before + bytes.length then
      ((s.feed r locHost (bytes.take (cut - before))).flush r locHost).feed r locHost (bytes.drop (cut - before))
    else s.feed r locHost bytes

/-- The fragment taken; none where a video unit turns out not to be one frame. -/
def hostInsertDo (g : Fragment) (s : State) : State × Bool :=
  let v := s.hq g.h
  let r := v.ring
  let d := s.ring r
  let before := if g.start then 0 else v.unitLen
  let after := before + g.data.length
  let n := fragmentTiles d before g
  let s0 := s.setRing r (fput d RingDesc.relseq (s.insertRel r).toNat)
  let s1 := if g.start then s0.startUnit r locHost else s0
  let w := v.window s.now
  if ringType d != 3 && (decide (frameBytes d < after) || (g.fin && after != frameBytes d)) then
    ((s1.abandon r false).setHq g.h { w with unitOpen := false, unitLen := 0 }, false)
  else
    let s2 := s1.insertBytes r before g.data
    let s3 := if !g.fin then s2 else if ringType d = 3 then s2.endUnit r locHost else s2.flush r locHost
    (s3.setHq g.h { w with unitOpen := !g.fin, unitLen := if g.fin then 0 else after, budgetTiles := w.budgetTiles + n }, true)

/-- A video unit that is not one frame is abandoned and answers E_FORMAT. -/
def cmdHostInsert (q : Req) (s : State) : Except Err Ans := do
  let g ← hostInsertCheck q s
  let (t, ok) := hostInsertDo g s
  if ok then return .now t (leBytes 4 (t.wr (s.hq g.h).ring).first.toNat)
  else return .failed t eFormat (leBytes 2 noField)

/-- HOST_INSERT (R394, R411). -/
def execHostInsert (q : Req) (s : State) : Out := serveAns 0x030E cmdHostInsert q s

/-! ### CAPTURE_FRAMES (R412) -/

def captureFramesCheck (q : Req) (s : State) : Except Err (Nat × Nat × Nat) := do
  Req.layout q 6
  needAt (Req.u8 q 0 < 16) 0
  Req.zeroAt q 1 1
  needAt (Req.u16 q 2 < 8192) 2
  needAt (1 ≤ Req.u16 q 4 && Req.u16 q 4 ≤ 64) 4
  let h := Req.u8 q 0
  let src := Req.u16 q 2
  need ((s.hq h).en && !(s.hq h).insert && !ringFree (s.ring src)) eState
  needAt (pairMatch (s.ring (s.hq h).ring) (s.ring src)) 2 eFormat
  need (!s.ctl.captures.any (fun c => c.queue == h)) eBusy
  return (h, src, Req.u16 q 4)

/-- The unit after which the next COMPLETE ones are copied. -/
def State.captureAfter (s : State) (r : Nat) : BitVec 32 :=
  match s.newest r, (s.markersOf r).getLast? with
  | some k, _ => k.eseq
  | none, some k => k.eseq - 1
  | none, none => ringWseq (s.ring r) - 1

def cmdCaptureFrames (q : Req) (s : State) : Res := do
  let (h, src, n) ← captureFramesCheck q s
  return (s.onCtl (fun c => { c with captures := c.captures ++ [⟨h, src, n, s.captureAfter src⟩] }), [])

/-- CAPTURE_FRAMES (R412). -/
def execCaptureFrames (q : Req) (s : State) : Out := serve 0x030F cmdCaptureFrames q s

/-! ### A received frame (R164 to R167, R177) -/

/-- A frame for the management queue of its sub-port, dropped while 256 wait. A tag that carries MGMT_VID is stripped, no other (R166). -/
def State.mgmtReceive (p : Nat) (frame : List Byte) (s : State) : State :=
  let v := s.sub p
  let strip := (parseEth frame).vid == fget (s.ethPort (p / 8)) EthPort.mgmtVid
  if 256 ≤ v.rxq.length then s.ethCount p 7 1 else s.setSub p { v with rxq := v.rxq ++ [frameBody strip frame] }

/-- Whether a datagram is to the sub-port's own address. -/
def State.ownAddress (s : State) (p : Nat) (i : Ip) : Bool :=
  let a := s.ethAddr p
  if i.v6 then (fget a EthAddr.ipv6Addr != 0 && i.dst == fget a EthAddr.ipv6Addr) || i.dst == linkLocal (fget a EthAddr.macAddr)
  else fget a EthAddr.ipv4Addr != 0 && i.dst == fget a EthAddr.ipv4Addr

/-- R166: whether a frame is one of the management class, and whether it is in-band management. -/
def State.mgmtKind (s : State) (p : Nat) (e : Eth) : Bool × Bool :=
  if e.vid != fget (s.ethPort (p / 8)) EthPort.mgmtVid then (false, false)
  else if e.etype = 0x88F7 || e.etype = 0x0806 then (true, false)
  else match parseIp e with
    | none => (false, false)
    | some i =>
      let (proto, b) := ip6Upper i
      let udp := i.proto == 17 && i.whole
      let inband := udp && udpPort i == 7040 && s.ownAddress p i
      let icmp := if i.v6 && proto == 58 then beAt b 0 1 else 0
      ((udp && (udpPort i == 319 || udpPort i == 320)) || (!i.v6 && proto == 2) ||
        (133 ≤ icmp && icmp ≤ 137) || [130, 131, 132, 143].contains icmp || inband, inband)

/-- A datagram acts as its winning entry says (R177). -/
def State.flowAct (f : Flow) (p : Nat) (i : Ip) (frame : EthFrame) (s : State) : State :=
  match fget f.key FlowEntry.typeF with
  | 0 => s.depacketise (flowRing f) (fget f.key FlowEntry.essence) p (udpData i) frame
  | 1 => match fget f.key FlowEntry.action with
    | 0 => s
    | 1 => s.mgmtReceive p frame.bytes
    | _ => s.captureUnit (flowRing f) p (frameBody false frame.bytes)
  | _ => s

/-- R165: an accepted frame takes the first outcome that applies. -/
def State.classify (p : Nat) (frame : EthFrame) (s : State) : State :=
  let e := parseEth frame.bytes
  let (mgmt, inband) := s.mgmtKind p e
  if mgmt then (if inband && !s.portOn .p3 then s.ethCount p 7 1 else s.mgmtReceive p frame.bytes)
  else match parseIp e with
    | none => s.ethCount p 6 1
    | some i =>
      if i.proto != 17 || !i.whole then s.ethCount p 6 1
      else if !udpOk i then s.ethCount p 5 1
      else match s.flowLookup ⟨i.v6, i.dst, udpPort i, some i.src, some e.vid, some p⟩ with
        | none => s.ethCount p 6 1
        | some f => if s.blockHeld 51 then s.ethCount p 6 1 else (s.flowSeen f frame.bytes.length).flowAct f p i frame

/-- R164: a frame is judged by its length and FCS, then classified. -/
def State.judgeFrame (k : Nat) (f : EthFrame) (s : State) : State :=
  let n := f.bytes.length
  if n < 64 then s.ethCount k 3 1
  else if fget (s.ethPort (k / 8)) EthPort.maxFrame < n then s.ethCount k 4 1
  else if !f.fcsOk || f.fecBad then s.ethCount k 2 1
  else ((s.ethCount k 0 1).ethCount k 1 n).classify k f

/-- FRAME_RECEIVED (R164, R165). The codewords that come with the frame are counted; once it is judged, more than 100 uncorrectable ones in
1 ms take its sub-port out of UP (R160; the order: DESIGN CHOICE, log entry 125). -/
def execFrameReceived (p : Fin 32) (f : EthFrame) (s0 : State) : Out :=
  let k := p.val
  let s := s0.fresh
  if !s.subUp k || s.blockHeld (ethBlock (k / 8)) then done s else
  let s1 := (s.fecCount k f.fec).fecRecent k ((f.fec.map (·.2)).sum)
  let s2 := if f.fecBad then s1.raise0 0xA2 (locEth (k / 8) 9) else s1
  let s3 := s2.judgeFrame k f
  done (if s3.fecFails k then s3.subLeave k .training else s3)

end Sys2Proof.Machine
end

