-- ==== Sys2Proof/Machine/Image.lean ====
section
/-! DEFINITION. Firmware images and the slot table (R485 to R488): the two copies of the table in the MRAM, the check of an
image, and the records of the recorder region that a release finds there (R453, R454). -/

namespace Sys2Proof.Machine

open Sys2Proof

/-! ### The slot table (R488) -/

/-- Slot states of R488. -/
def slotEmpty : Nat := 0
def slotIncomplete : Nat := 1
def slotWritten : Nat := 2
def slotActive : Nat := 3

def tableCrc (t : BitVec 256) : Nat := crc32c (leBytes 28 t.toNat)
def tableValid (t : BitVec 256) : Bool := fget t SlotTab.tcrc == tableCrc t

/-- Sequence a is later than b (R453). -/
def seqLater (a b : Nat) : Bool :=
  let d := (a + 2 ^ 32 - b % 2 ^ 32) % 2 ^ 32
  1 ≤ d && d < 2 ^ 31

/-- Whether copy 1 is the table: the valid copy with the later TSEQ. With no valid copy, copy 0 is read as it stands. -/
def State.tableOne (s : State) : Bool :=
  tableValid s.upd.table1 && (!tableValid s.upd.table0 || seqLater (fget s.upd.table1 SlotTab.tseq) (fget s.upd.table0 SlotTab.tseq))

def State.slotTable (s : State) : BitVec 256 := if s.tableOne then s.upd.table1 else s.upd.table0

/-- A change of the table writes the other copy, with TSEQ one higher and its CRC. -/
def State.writeTable (f : BitVec 256 → BitVec 256) (s : State) : State :=
  let t := f s.slotTable
  let t := fput t SlotTab.tseq (fget t SlotTab.tseq + 1)
  let t := fput t SlotTab.tcrc (tableCrc t)
  s.onUpd (fun u => if s.tableOne then { u with table0 := t } else { u with table1 := t })

/-- The fields of a slot: 0 = A, 1 = B. -/
def stateFld (slot : Nat) : Fld := if slot = 0 then SlotTab.stateA else SlotTab.stateB
def sizeFld (slot : Nat) : Fld := if slot = 0 then SlotTab.sizeA else SlotTab.sizeB
def State.slotState (s : State) (slot : Nat) : Nat := fget s.slotTable (stateFld slot)
def State.slotSize (s : State) (slot : Nat) : Nat := fget s.slotTable (sizeFld slot)
def State.activeSlot (s : State) : Nat := fget s.slotTable SlotTab.active
def State.slotBytes (s : State) (slot : Nat) : List Byte := if slot = 0 then s.upd.imageA else s.upd.imageB

/-- R487, R451: whether some region of a slot is marked bad. -/
def State.slotBad (s : State) (slot : Nat) : Bool := s.rec_.badRegions.any (fun g => g / 16 == slot)

/-! ### The check of an image (R486) -/

/-- Step 1: MAGIC, FORMAT, HDR_LEN, reserved bytes and BODY_LEN. -/
def headerGood (img : List Byte) (size : Nat) : Bool :=
  let at_ (o n : Nat) : Nat := leNat ((img.drop o).take n)
  at_ 0 4 == 0x4957465A && at_ 4 2 == 1 && at_ 6 2 == 512 && at_ 29 3 == 0 && ((img.drop 272).take 240).all (· == 0) &&
    at_ 12 4 + 512 == size

/-- Step 5: the binding to part, silicon and unit. -/
def bindingGood (img : List Byte) : Bool :=
  let at_ (o n : Nat) : Nat := leNat ((img.drop o).take n)
  at_ 16 2 == 0x1024 && at_ 18 1 == 0xB && (at_ 19 1 != 1 || at_ 20 8 == Config.unitId.toNat)

/-- The reason for which a slot's image fails, none where it passes: 1 FORMAT, 2 KEY, 3 SIGNATURE, 4 HASH, 5 BINDING. Steps 2 to 4
are the environment's. A slot whose size the table gives as 0 holds no recorded image: there the verdict stands alone (DESIGN
CHOICE, log entry 56). -/
def State.imageFails (s : State) (slot : Nat) (v : ImageVerdict) : Option Nat :=
  let img := s.slotBytes slot
  let size := s.slotSize slot
  let recorded := size != 0
  if recorded && !headerGood img size then some 1
  else match v with
    | .keyFails => some 2
    | .signatureFails => some 3
    | .hashFails => some 4
    | .proven => if s.slotBad slot then some 4 else if recorded && !bindingGood img then some 5 else none

/-- IMAGE_REJECTED at the first region of the slot (R539). -/
def State.rejectImage (slot reason : Nat) (s : State) : State := s.raise ⟨0xFE, locMram (16 * slot), true, reason, []⟩

/-! ### The recorder region at a release (R453, R454) -/

/-- The number of `n` bytes at an offset of a record. -/
def recNum (r : List Byte) (o n : Nat) : Nat := leNat ((r.drop o).take n)

/-- A slot holds a valid record: MARK complements SEQ and RCRC matches. -/
def recValid (r : List Byte) : Bool :=
  r.length == 128 && recNum r 124 4 == 2 ^ 32 - 1 - recNum r 0 4 && recNum r 120 4 == crc32c (r.take 120)

/-- The MRAM region of a recorder slot (R487). -/
def recRegion (slot : Nat) : Nat := 52 + slot / 8192

/-- The valid records of the region, in slot order; slots in a region marked bad fail their checks (R451). -/
def validRecords (r : RecSt) : List (List Byte) :=
  (r.slots.filter (fun e => recValid e.2 && !r.badRegions.contains (recRegion e.1))).map (·.2)

def recSeq (r : List Byte) : Nat := recNum r 0 4
def latestSeq (l : List (List Byte)) : Option Nat :=
  l.foldl (fun a r => match a with | none => some (recSeq r) | some b => if seqLater (recSeq r) b then some (recSeq r) else some b) none
def oldestSeq (l : List (List Byte)) : Option Nat :=
  l.foldl (fun a r => match a with | none => some (recSeq r) | some b => if seqLater b (recSeq r) then some (recSeq r) else some b) none

/-- R454: the recorder as a reset leaves it. -/
def RecSt.afterReset (r : RecSt) : RecSt :=
  let l := validRecords r
  let next := match latestSeq l with | some x => (x + 1) % 2 ^ 32 | none => 0
  let low := match latestSeq (l.filter (fun x => recNum x 4 2 == 0x0100)) with
    | some x => x
    | none => (oldestSeq l).getD 0
  { RecSt.reset with slots := r.slots, badRegions := r.badRegions, next := BitVec.ofNat 32 next, low := BitVec.ofNat 32 low }

end Sys2Proof.Machine
end

