-- ==== Sys2Proof/Machine/LineCode.lean ====
section
/-! DEFINITION. The line coding of Svanum Link (R318 to R322): scrambler, lane marker, stuffing, and the FEC codeword and its striping, as
functions on bits and symbols. Cells leave the model whole (`Emit.cell`); these say which bits a lane sends for them. -/

namespace Sys2Proof.Machine

open Sys2Proof

/-! ### The scrambler (R319) -/

/-- The seed of a lane position; every lane uses `bringUpSeed` during DETECT and EXCHANGE of LOW-START. -/
def laneSeed (i : Nat) : BitVec 31 := BitVec.ofNat 31 (0x2A5C3E71 + i * 0x01000001)
def bringUpSeed : BitVec 31 := 0x7FFFFFFF

/-- s(n) = s(n-31) xor s(n-28), with s(n-31) in the least significant bit (log entry 18), and the LFSR after it. -/
def lfsrNext (v : BitVec 31) : Bool × BitVec 31 :=
  let b := v.getLsbD 0 != v.getLsbD 3
  (b, (v >>> 1) ||| (if b then 0x40000000 else 0))

/-- Data bits combined with s(n) by exclusive-OR; the same step takes the scrambling off. -/
def scramble : BitVec 31 → List Bool → List Bool
  | _, [] => []
  | v, b :: l => (b != (lfsrNext v).1) :: scramble (lfsrNext v).2 l

/-! ### The stuffing rule (R320) -/

/-- The line bits of `bits` after a run of `n` bits equal to `last`: after 24 equal bits one of the opposite value, which starts a run. -/
def stuff : Nat → Bool → List Bool → List Bool
  | _, _, [] => []
  | n, last, b :: l =>
    let run := if b = last then n + 1 else 1
    if run = 24 then b :: (!b) :: stuff 1 (!b) l else b :: stuff run b l

/-- The receiver's side: the bit that follows 24 equal ones goes, and one that has not the opposite value is a stuffing error. Answers the
bits and the errors. -/
def unstuff : Nat → Bool → List Bool → List Bool × Nat
  | _, _, [] => ([], 0)
  | n, last, b :: l =>
    if n = 24 then
      let (r, e) := unstuff 1 b l
      (r, if b = last then e + 1 else e)
    else
      let (r, e) := unstuff (if b = last then n + 1 else 1) b l
      (b :: r, e)

/-! ### The lane marker (R321) -/

/-- Its eight bytes, in the order they are sent. -/
def laneMarker (pos member : Nat) : List Byte :=
  let id : Byte := BitVec.ofNat 8 (pos % 8 + 16 * (member % 8))
  [0x4E, 0xC2, 0x71, 0x9B, 0x36, 0xA5, id, ~~~id]

/-- Bits of bytes, the least significant first (log entry 18). -/
def bitsOf (l : List Byte) : List Bool := l.flatMap (fun b => (List.range 8).map b.getLsbD)

/-- What a lane sends from one marker to the next: the marker, then the scrambled data, all under the stuffing rule, with the run before it. -/
def laneBits (pos member : Nat) (bringUp : Bool) (run : Nat) (last : Bool) (data : List Bool) : List Bool :=
  stuff run last (bitsOf (laneMarker pos member) ++ scramble (if bringUp then bringUpSeed else laneSeed pos) data)

/-- R328: a marker whose bits are all inverted. -/
def markerInverted (pos member : Nat) (seen : List Bool) : Bool := seen == (bitsOf (laneMarker pos member)).map not

/-! ### FEC (R322): RS(544,514) over 10-bit symbols, IEEE 802.3 clause 91 -/

/-- A symbol times α, under the field polynomial x^10 + x^3 + 1 (PRESUMED, log entry 18). -/
def gfTwice (a : BitVec 10) : BitVec 10 := (a <<< 1) ^^^ (if a.getLsbD 9 then 0x009 else 0)

/-- Product of two symbols. -/
def gfMul (a b : BitVec 10) : BitVec 10 :=
  ((List.range 10).reverse).foldl (fun acc i => gfTwice acc ^^^ (if b.getLsbD i then a else 0)) 0

/-- α to a power. -/
def gfAlpha : Nat → BitVec 10
  | 0 => 1
  | n + 1 => gfTwice (gfAlpha n)

/-- The generator polynomial with roots α^0 to α^29, highest power first. -/
def rsGenerator : List (BitVec 10) :=
  (List.range 30).foldl (fun g i => List.zipWith (· ^^^ ·) (g ++ [0]) (0 :: g.map (gfMul (gfAlpha i)))) [1]

/-- The 30 parity symbols of 514 message symbols, the first of each sent first. -/
def rsParity (msg : List (BitVec 10)) : List (BitVec 10) :=
  msg.foldl (fun p m =>
    let f := m ^^^ p.headD 0
    List.zipWith (· ^^^ ·) (p.tail ++ [0]) (rsGenerator.tail.map (gfMul f))) (List.replicate 30 0)

/-- A codeword. -/
def rsCodeword (msg : List (BitVec 10)) : List (BitVec 10) := msg ++ rsParity msg

/-- R322: symbol j of a codeword goes to lane position j mod L. The symbols of one position. -/
def stripe (lanes pos : Nat) (word : List (BitVec 10)) : List (BitVec 10) :=
  (word.zipIdx.filter (fun e => e.2 % lanes == pos)).map (·.1)

end Sys2Proof.Machine
end

