-- ==== Sys2Proof/Machine/Links.lean ====
section
/-! DEFINITION. Svanum links (R316 to R333, R338): their bring-up under LOW-START and SENSE, lanes that fail and spares that replace them,
electrical idle, the eye score, and what a link's rise and fall does to exports, imports and routes. -/

namespace Sys2Proof.Machine

open Sys2Proof

/-! ### Configuration and fields -/

/-- Sets a field of a link record. -/
def State.linkF (k : Nat) (f : Fld) (v : Nat) (s : State) : State := s.setLink k (fput (s.linkRec k) f v)
def State.laneF (l : Nat) (f : Fld) (v : Nat) (s : State) : State := s.setSvLane l (fput (s.svLane l) f v)

/-- Whether the boot ROM brings link 0 up for a boot from member 0 (R480, R481). -/
def State.bootLink (s : State) (k : Nat) : Bool := k == 0 && s.pwr.bootState == .rom && s.pwr.bootSrc == 3 && !s.pwr.afterRestart

/-- The fixed configuration of R481: lanes 0 to 5, PEER 0, LOW-START, 56.25 Gbit/s. -/
def bootLinkRec : BitVec 128 := fput (fput (resetRec 128 Link.layout) Link.linkEn 1) Link.lanes 63

/-- The configuration a link runs under. -/
def State.linkCfg (s : State) (k : Nat) : BitVec 128 := if s.bootLink k then bootLinkRec else s.linkRec k

/-- Whether a link is to be up (R315, R316, R481). -/
def State.linkOn (s : State) (k : Nat) : Bool :=
  s.bootLink k || (fbit (s.linkRec k) Link.linkEn && fbit s.trp.rec_ TroupeRec.troupeEn)

/-- Lane rate in units of 3.125 Gbit/s. -/
def laneSpeed : Nat → Nat
  | 0 => 18 | 1 => 9 | 2 => 4 | _ => 1

/-- Whether a link is UP or DEGRADED. -/
def State.linkRuns (s : State) (k : Nat) : Bool := (s.linkSt k).phase == .run

def laneOff : Nat := 0
def laneTraining : Nat := 1
def laneActive : Nat := 2
def laneFailed : Nat := 3

def State.laneState (s : State) (l : Nat) : Nat := fget (s.svLane l) LaneRec.laneState

/-- The link that a lane serves, by its LANES or SPARES. -/
def State.linkOfLane (s : State) (l : Nat) : Option Nat :=
  (List.range 7).find? (fun k => s.linkOn k && (maskBit (fget (s.linkCfg k) Link.lanes) l || maskBit (fget (s.linkCfg k) Link.spares) l))

/-! ### Which members are reached, and the timing leader (R315, R340) -/

/-- Members at the other end of links UP or DEGRADED. -/
def State.reachMask (s : State) : Nat :=
  listMask (((List.range 7).filter (fun k => s.linkRuns k && !(s.linkSt k).boot)).map (fun k => fget (s.linkRec k) Link.peer))

/-- The leader, its hops, and the link towards it: none where this device leads. The lowest member reached; then the fewest hops;
then the lower peer. A path through the seven other members has at most seven hops (DEDUCED, log entry 53). -/
def State.bestLeader (s : State) : Nat × Nat × Option Nat :=
  let cands := ((List.range 7).filter (fun k => s.linkRuns k && !(s.linkSt k).boot && decide ((s.linkSt k).leader < 8) &&
      decide ((s.linkSt k).hops < 7))).map (fun k => ((s.linkSt k).leader, (s.linkSt k).hops + 1, fget (s.linkRec k) Link.peer, k))
  let less (a b : Nat × Nat × Nat × Nat) : Bool :=
    decide (a.1 < b.1) || (a.1 == b.1 && (decide (a.2.1 < b.2.1) || (a.2.1 == b.2.1 && decide (a.2.2.1 < b.2.2.1))))
  let best := cands.foldl (fun (acc : Option (Nat × Nat × Nat × Nat)) c => match acc with | none => some c | some b => if less c b then some c else acc) none
  match best with
  | some b => if b.1 < s.member then (b.1, b.2.1, some b.2.2.2) else (s.member, 0, none)
  | none => (s.member, 0, none)

/-- REACH and LEADER follow the links. A change of leader raises TROUPE_LEADER_CHANGE and loses candidate T (R340). -/
def State.updateReach (k : Nat) (s : State) : State :=
  let s1 := s.onTrp (fun t => { t with rec_ := fput t.rec_ TroupeRec.reach s.reachMask })
  let new := s1.bestLeader.1
  if new = fget s1.trp.rec_ TroupeRec.leader then s1 else
  let s2 := (s1.onTrp (fun t => { t with rec_ := fput t.rec_ TroupeRec.leader new })).raise0 0xF5 (locLink k)
  ((s2.onPtp (fun p => { p with beyond := 0 })).setCandSt 15 { s2.candSt 15 with activity := false }).candDown 15

/-! ### Exports and imports follow their link (R338) -/

/-- The enabled exports over a link. -/
def State.exportsOver (s : State) (k : Nat) : List (Nat × BitVec 128) :=
  s.trp.exp.filter (fun e => fbit e.2 Export.expEn && fget e.2 Export.viaLink == k)

/-- In order of PRIORITY, and within one in ascending order of SRC_RING. -/
def exportOrder (l : List (Nat × BitVec 128)) : List (Nat × BitVec 128) :=
  let before (a b : BitVec 128) : Bool :=
    decide (fget a Export.priority < fget b Export.priority) ||
      (fget a Export.priority == fget b Export.priority && decide (fget a Export.srcRing ≤ fget b Export.srcRing))
  l.foldr (fun e acc => (acc.takeWhile (fun x => !before e.2 x.2)) ++ e :: acc.dropWhile (fun x => !before e.2 x.2)) []

/-- The exports of a link that its capacity still runs in full, in their order. -/
def fitting (cap : Nat) (l : List (Nat × BitVec 128)) : List Nat :=
  (l.foldl (fun (acc : Nat × List Nat) e =>
    let c := fget e.2 Export.expCredits
    if c ≤ acc.1 then (acc.1 - c, acc.2 ++ [e.1]) else acc) (cap, [])).2

/-- R338: exports that do not fit are SUSPENDED; those that fit again wait for their next unit start. Answers those suspended. -/
def State.refit (k : Nat) (s : State) : State × List Nat :=
  let l := exportOrder (s.exportsOver k)
  let fits := fitting (laneCredits s.bud.profile (fget (s.linkRec k) Link.actRate) * fget (s.linkRec k) Link.actLanes) l
  let out := (l.map (·.1)).filter (fun i => !fits.contains i)
  let s1 := out.foldl (fun s i => s.setExp i (fput (s.exp i) Export.expState 2)) s
  let again := fits.filter (fun i => fget (s.exp i) Export.expState != 1)
  (s1.onTrp (fun t => { t with waits := t.waits.filter (fun i => !out.contains i && !again.contains i) ++ again }), out)

/-- R338: every export over a link that is DOWN stops, and every import from it abandons its open unit. -/
def State.dropTraffic (k : Nat) (s : State) : State :=
  let ex := (s.exportsOver k).map (·.1)
  let s1 := ex.foldl (fun s i => s.setExp i (fput (s.exp i) Export.expState 0)) s
  let s2 := s1.onTrp (fun t => { t with waits := t.waits.filter (fun i => !ex.contains i) })
  let peer := fget (s.linkRec k) Link.peer
  let im := s2.trp.imp.filter (fun e => fbit e.2 Import.impEn && fget e.2 Import.fromF == peer)
  im.foldl (fun s e => (s.stopWriter (fget e.2 Import.impRing)).setImpSt e.1 { s.impSt e.1 with resumeAt := none }) s2

/-! ### Bring-up -/

/-- Lanes by position that a link starts with: spares keep the places they have taken. FAILED lanes stay out (R333). -/
def State.startOrder (s : State) (k : Nat) : List Nat :=
  let v := s.linkSt k
  if v.order.isEmpty then maskList 48 (fget (s.linkCfg k) Link.lanes) else v.order

/-- The first state of a bring-up (R327, R328): TRAINING on every lane not FAILED. -/
def State.startLink (k : Nat) (s : State) : State :=
  let order := s.startOrder k
  let lanes := order.filter (fun l => s.laneState l != laneFailed)
  let sense := fbit (s.linkCfg k) Link.bringup
  let s1 := s.setLinkSt k { s.linkSt k with
    phase := if lanes.isEmpty then .held else if sense then .adapt else .detect
    cap := none
    boot := false
    order := order
    active := []
    rate := if sense then fget (s.linkCfg k) Link.linkRate else 3
    tDep := 0, tDepEngine := 0, lastArr := 0, peerArr := 0, peerDep := 0, leader := 8, hops := 0 }
  let s2 := lanes.foldl (fun s l => s.setSvLane l (fput (fput (fput (s.svLane l) LaneRec.laneState laneTraining) LaneRec.polInv 0)
    LaneRec.lanePos ((order.idxOf? l).getD 0))) s1
  ((s2.linkF k Link.linkState (if lanes.isEmpty then 0 else 1)).linkF k Link.actLanes 0).linkF k Link.actRate 0

/-- SVANUM_LINK_DOWN with its reason: 1 LOSS, 2 LANE_ORDER, 3 RATE; once until the link comes up (R329). -/
def State.sayDown (k reason : Nat) (s : State) : State :=
  if (s.linkSt k).lossSaid then s
  else (s.setLinkSt k { s.linkSt k with lossSaid := true }).raise ⟨0xF1, locLink k, true, reason, []⟩

/-- A link held DOWN until LINK_RETRY (R328, R329). -/
def State.holdLink (k : Nat) (s : State) : State :=
  (s.setLinkSt k { s.linkSt k with phase := .held, active := [] }).linkF k Link.linkState 0

/-- A link leaves UP or DEGRADED: traffic stops, the Troupe control port is reset (R380), routes over it are unbounded, and REACH and the leader
follow. -/
def State.fallLink (k : Nat) (s : State) : State :=
  if !s.linkRuns k then s else
  let s1 := ((s.holdLink k).linkF k Link.actLanes 0).endCause 0xF2 (locLink k)
  (((s1.dropTraffic k).isolateMaster 5).updateReach k).reboundAll

/-- R329, R332: the loss of a running link. It is reported once, and bring-up starts again. -/
def State.loseLink (k : Nat) (s : State) : State :=
  if !s.linkRuns k then s else ((s.fallLink k).sayDown k 1).startLink k

/-- A link switched off: its lanes are squelched and FAILED lanes may serve again (R326, R333). -/
def State.stopLink (k : Nat) (s : State) : State :=
  let s1 := s.fallLink k
  let lanes := (s1.linkSt k).order ++ maskList 48 (fget (s1.linkRec k) Link.spares)
  let s2 := lanes.foldl (fun s l => (s.laneF l LaneRec.laneState laneOff).setSvRun l
    { s.svRun l with missing := 0, stuffNow := 0, failing := false, idle := none, eyeLow := 0, eyeOk := 0, eyeSaid := false }) s1
  ((s2.setLinkSt k { s2.linkSt k with phase := .off, order := [], active := [], cap := none, boot := false, lossSaid := false }).linkF k
    Link.linkState 0).endCause 0xF4 (locLink k)

/-- A link starts or stops as its enables say. -/
def State.syncLink (k : Nat) (s : State) : State :=
  let off := (s.linkSt k).phase == .off
  if s.linkOn k && off then s.startLink k else if !s.linkOn k && !off then s.stopLink k else s

/-- LINK_DETECT (R327): markers found on the lanes at the positions of `found`; the others are left out. -/
def execLinkDetect (k : Fin 7) (found : BitVec 8) (s0 : State) : Out :=
  let s := s0.fresh
  let v := s.linkSt k.val
  let lanes := (v.order.zipIdx.filter (fun e => maskBit found.toNat e.2 && s.laneState e.1 == laneTraining)).map (·.1)
  if v.phase != .detect || lanes.isEmpty then done s else
  let out := v.order.filter (fun l => !lanes.contains l && s.laneState l == laneTraining)
  done ((out.foldl (fun s l => s.laneF l LaneRec.laneState laneOff) s).setLinkSt k.val { v with phase := .exchange, active := lanes })

/-- R329: whether a capability is not that of the peer the link is configured for. A boot peer (release 0.0) is accepted by member 0 on
its own link in place of the release check (R481); a device that boots has no release of its own to compare. -/
def State.capBad (s : State) (k : Nat) (c : CapCell) : Bool :=
  let bootPeer := s.member == 0 && c.major == 0 && c.minor == 0 && c.member.val == k + 1
  c.member.val != fget (s.linkCfg k) Link.peer || c.member.val == s.member || c.peer.val != s.member ||
    !(bootPeer || s.bootLink k || c.major == s.pwr.fwMajor)

/-- The next state after EXCHANGE: the first step above 3.125 Gbit/s that both ends allow, or ALIGN. -/
def afterExchange (sense : Bool) (target : Nat) : BringUp := if sense || target = 3 then .align else .step

/-- The slower of the two ends' rates, as LINK_RATE. -/
def State.targetRate (s : State) (k : Nat) : Nat :=
  max (fget (s.linkCfg k) Link.linkRate) (match (s.linkSt k).cap with | some c => c.rate.val | none => 0)

/-- CAPABILITY (R327 to R329). -/
def execCapability (k : Fin 7) (cap : CapCell) (s0 : State) : Out :=
  let s := s0.fresh
  let v := s.linkSt k.val
  if v.phase != .exchange then done s else
  let s1 := s.setLinkSt k.val { v with cap := some cap }
  if s1.capBad k.val cap then
    done ((s1.holdLink k.val).raise ⟨0xF4, locLink k.val, true, 0, leBytes 1 cap.member.val ++ leBytes 1 cap.peer.val ++ leBytes 1 cap.major.toNat⟩)
  else
    let sense := fbit (s.linkCfg k.val) Link.bringup
    let s2 := s1.endCause 0xF4 (locLink k.val)
    if sense && cap.rate.val != fget (s.linkCfg k.val) Link.linkRate then done ((s2.sayDown k.val 3).holdLink k.val)
    else done (s2.setLinkSt k.val { s2.linkSt k.val with
      phase := afterExchange sense (s2.targetRate k.val)
      boot := !s.bootLink k.val && cap.major == 0 && cap.minor == 0 })

/-- Whether this end decides (R327). -/
def State.decides (s : State) (k : Nat) : Bool := decide (s.member < fget (s.linkCfg k) Link.peer)

/-- After a step's outcome: the next step, or ALIGN at the rate that passed. -/
def State.stepOn (k rate : Nat) (lanes : List Nat) (more : Bool) (s : State) : State :=
  let v := s.linkSt k
  let out := v.active.filter (fun l => !lanes.contains l)
  let s1 := out.foldl (fun s l => s.laneF l LaneRec.laneState laneOff) s
  s1.setLinkSt k { v with active := lanes, rate := rate, phase := if more && decide (s.targetRate k < rate) then .step else .align }

/-- A decision for the peer (R327): the rate and the mask of positions that stay. -/
def State.sendDecision (k rate : Nat) (lanes : List Nat) (s : State) : State :=
  let order := (s.linkSt k).order
  s.sendMessage k msgLanes (leBytes 1 0 ++ leBytes 1 rate ++ leBytes 1 (listMask (lanes.map (fun l => (order.idxOf? l).getD 0))))

/-- RATE_STEP (R327): the eyes of the lanes in use, by their order, after 1 ms at the next rate. Lanes that fail are dropped where the rest
carry more at the new rate than all did at the old one; otherwise bring-up ends at the rate that passed. The lower member decides;
the other end waits for its decision. -/
def execRateStep (k : Fin 7) (eyes : List Nat) (s0 : State) : Out :=
  let s := s0.fresh
  let v := s.linkSt k.val
  if v.phase != .step then done s else
  let lanes := v.active
  let s1 := (lanes.zipIdx).foldl (fun s e => s.laneF e.1 LaneRec.eye (min 255 (eyes.getD e.2 0))) s
  let good := lanes.filter (fun l => decide (fget (s1.svLane l) LaneRec.eyeMin ≤ fget (s1.svLane l) LaneRec.eye))
  let next := v.rate - 1
  if good.length = lanes.length then done (s1.stepOn k.val next lanes true)
  else if !s.decides k.val then done s1
  else if lanes.length * laneSpeed v.rate < good.length * laneSpeed next then
    done ((s1.sendDecision k.val next good).stepOn k.val next good true)
  else done ((s1.sendDecision k.val v.rate lanes).stepOn k.val v.rate lanes false)

/-- BRINGUP_DECISION (R327): the lower member's decision, applied at its marker. -/
def execBringupDecision (k : Fin 7) (rate : Fin 4) (lanes : BitVec 8) (s0 : State) : Out :=
  let s := s0.fresh
  let v := s.linkSt k.val
  if s.decides k.val || !(v.phase == .step || v.phase == .align) then done s else
  let keep := v.active.filter (fun l => maskBit lanes.toNat ((v.order.idxOf? l).getD 8))
  if keep.isEmpty then done s
  else done (s.stepOn k.val rate.val keep (decide (rate.val < v.rate) || keep.length != v.active.length))

/-- SENSE_ADAPT (R328): inverted lanes are corrected and a reversed order reordered; any other order holds the link DOWN. -/
def execSenseAdapt (k : Fin 7) (inverted : BitVec 8) (order : LaneOrder) (s0 : State) : Out :=
  let s := s0.fresh
  let v := s.linkSt k.val
  if v.phase != .adapt then done s else
  let lanes := v.order.filter (fun l => s.laneState l == laneTraining)
  let s1 := (v.order.zipIdx).foldl (fun s e => if maskBit inverted.toNat e.2 then s.laneF e.1 LaneRec.polInv 1 else s) s
  match order with
  | .other => done ((s1.sayDown k.val 2).holdLink k.val)
  | .straight => done (s1.setLinkSt k.val { v with phase := .exchange, active := lanes })
  | .reversed =>
    let rev := v.order.reverse
    let s2 := (rev.zipIdx).foldl (fun s e => s.laneF e.1 LaneRec.lanePos e.2) s1
    done (s2.setLinkSt k.val { v with phase := .exchange, order := rev, active := lanes.reverse })

/-- Lanes a link is configured with. -/
def State.laneCount (s : State) (k : Nat) : Nat := (maskList 48 (fget (s.linkCfg k) Link.lanes)).length

/-- SVANUM_LINK_DEGRADED: the lane, then the suspended exports (layout: DESIGN CHOICE, log entry 51). -/
def State.sayDegraded (k lane : Nat) (out : List Nat) (s : State) : State :=
  s.raise ⟨0xF2, locLink k, true, 0, leBytes 1 lane ++ [0] ++ (out.take 29).flatMap (leBytes 2)⟩

/-- UP or DEGRADED by the lanes in use, ACT_RATE and ACT_LANES, exports served as they fit, routes bounded anew. A link with all its lanes
raises SVANUM_LINK_UP, one with fewer SVANUM_LINK_DEGRADED with the first lane left out. -/
def State.runLink (k : Nat) (s : State) : State :=
  let v := s.linkSt k
  let full := v.active.length == s.laneCount k
  let s1 := ((s.linkF k Link.linkState (if full then 2 else 3)).linkF k Link.actRate v.rate).linkF k Link.actLanes v.active.length
  let (s2, out) := s1.refit k
  let was := s.flt.cause.contains (0xF2, locLink k)
  let s3 := if full then (if was then s2.raiseEnd 0xF2 (locLink k) else s2).raise0 0xF0 (locLink k)
    else s2.sayDegraded k ((v.order.find? (fun l => !v.active.contains l)).getD 0) out
  s3.reboundAll

/-- R333: the lowest spare that is not FAILED starts to train when a link is short of lanes. -/
def State.callSpare (k : Nat) (s : State) : State :=
  let v := s.linkSt k
  let spares := (maskList 48 (fget (s.linkCfg k) Link.spares)).filter (fun l => !v.order.contains l && s.laneState l != laneFailed && !s.underTest (svanumTest l))
  if !s.linkRuns k || v.active.length == s.laneCount k || spares.any (fun l => s.laneState l == laneTraining) then s
  else match spares with
    | l :: _ => s.laneF l LaneRec.laneState laneTraining
    | [] => s

/-- LINK_ALIGN (R327): codewords decode on every lane. -/
def execLinkAlign (k : Fin 7) (s0 : State) : Out :=
  let s := s0.fresh
  let v := s.linkSt k.val
  if v.phase != .align then done s else
  let s1 := v.active.foldl (fun s l => (s.laneF l LaneRec.laneState laneActive).setSvRun l
    { s.svRun l with missing := 0, stuffNow := 0, failing := false, idle := none }) s
  let s2 := s1.setLinkSt k.val { v with phase := .run, lseq := 0, lossSaid := false }
  done (((s2.runLink k.val).updateReach k.val).callSpare k.val)

/-- LINK_RETRY (R329): a link not UP in time, or held DOWN, starts again. -/
def execLinkRetry (k : Fin 7) (s0 : State) : Out :=
  let s := s0.fresh
  let held := [40, 41, 42, 43].any (fun b => s.blockHeld b && (s.startOrder k.val).any (fun l => l / 12 + 40 == b))
  if !s.linkOn k.val || s.linkRuns k.val || held then done s else done (s.startLink k.val)

/-! ### Lanes that fail, idle and eye score -/

/-- R332: the lane leaves the link, which re-stripes over the rest, or goes DOWN with its last lane. -/
def State.dropLane (k l : Nat) (s : State) : State :=
  let v := s.linkSt k
  let s1 := (s.laneF l LaneRec.laneState laneFailed).setSvRun l { s.svRun l with failing := false, missing := 0, stuffNow := 0 }
  let rest := v.active.filter (· != l)
  if rest.isEmpty then s1.loseLink k
  else
    let s2 := (s1.setLinkSt k { v with active := rest }).linkF k Link.actLanes rest.length
    let (s3, out) := (s2.linkF k Link.linkState 3).refit k
    ((s3.sayDegraded k l out).reboundAll).callSpare k

/-- R332: the lane has failed: LANE_DROP goes to the peer; a link whose every lane has failed is lost at once. -/
def State.failLane (k l : Nat) (s : State) : State :=
  if (s.svRun l).failing then s else
  let s1 := s.setSvRun l { s.svRun l with failing := true }
  let v := s.linkSt k
  if v.active.all (fun x => (s1.svRun x).failing) then
    (v.active.foldl (fun s x => (s.laneF x LaneRec.laneState laneFailed).setSvRun x { s.svRun x with failing := false }) s1).loseLink k
  else s1.sendMessage k msgLanes (leBytes 1 1 ++ leBytes 1 ((v.order.idxOf? l).getD 0))

/-- LANE_MARKER (R332, R330): a marker arrives or is missed; `stuffing` errors since the marker before. Missing markers count only out of
electrical idle; an idle of more than 1.5 ms counts as two. -/
def execLaneMarker (lane : Fin 48) (arrived : Bool) (stuffing : Nat) (s0 : State) : Out :=
  let s := s0.fresh
  let l := lane.val
  let r := s.svRun l
  match s.linkOfLane l with
  | none => done s
  | some k =>
    if !s.linkRuns k || !(s.linkSt k).active.contains l then done s else
    match r.idle with
    | some c =>
      if arrived then done (s.setSvRun l { r with idle := none, missing := 0, stuffNow := 0 })
      else if 1500000 < (s.time.clk - c).toNat then
        done ((s.setSvRun l { r with idle := none, missing := 2, markerLoss := sat32 r.markerLoss 2 }).failLane k l)
      else done s
    | none =>
      let now := r.stuffNow + stuffing
      let r1 : LaneRun := { r with
        stuffErr := sat32 r.stuffErr stuffing
        stuffNow := if arrived then 0 else now
        missing := if arrived then 0 else r.missing + 1
        markerLoss := if arrived then r.markerLoss else sat32 r.markerLoss 1 }
      let s1 := s.setSvRun l r1
      if 8 < now || 2 ≤ r1.missing then done (s1.failLane k l) else done s1

/-- LANE_DROP (R332): the marker at which both ends drop the lane. -/
def execLaneDrop (k : Fin 7) (lane : Fin 48) (s0 : State) : Out :=
  let s := s0.fresh
  if s.linkRuns k.val && (s.linkSt k.val).active.contains lane.val then done (s.dropLane k.val lane.val) else done s

/-- SPARE_LANE_TRAINED (R333): it takes the lowest failed position, and the link re-stripes. -/
def execSpareLaneTrained (k : Fin 7) (lane : Fin 48) (s0 : State) : Out :=
  let s := s0.fresh
  let l := lane.val
  let v := s.linkSt k.val
  let free := v.order.zipIdx.find? (fun e => !v.active.contains e.1)
  match free with
  | none => done s
  | some (old, pos) =>
    if !s.linkRuns k.val || !maskBit (fget (s.linkCfg k.val) Link.spares) l || s.laneState l != laneTraining then done s else
    let order := v.order.map (fun x => if x == old then l else x)
    let s1 := (s.setSvLane l (fput (fput (s.svLane l) LaneRec.laneState laneActive) LaneRec.lanePos pos)).setLinkSt k.val
      { v with order := order, active := order.filter (fun x => v.active.contains x || x == l) }
    let s2 := s1.setSvRun l { s1.svRun l with missing := 0, stuffNow := 0, failing := false, idle := none }
    done ((s2.runLink k.val).callSpare k.val)

/-- ELECTRICAL_IDLE (R330): a lane of a link with nothing to send for 1 µs, with IDLE_EN. -/
def execElectricalIdle (lane : Fin 48) (s0 : State) : Out :=
  let s := s0.fresh
  let l := lane.val
  match s.linkOfLane l with
  | none => done s
  | some k =>
    if s.linkRuns k && fbit (s.linkCfg k) Link.idleEn && (s.linkSt k).active.contains l && (s.svRun l).idle.isNone then
      done (s.setSvRun l { s.svRun l with idle := some s.time.clk })
    else done s

/-- EYE_UPDATE (R331, R502), lanes numbered as in `State.underTest`: EYE is floor(255 × h × v) for openings h / 255 and v / 255; SVANUM_EYE_LOW once after 100 ms below EYE_ALARM,
and its end after 100 ms at or above it. -/
def execEyeUpdate (lane : Fin 224) (h v : BitVec 8) (s0 : State) : Out :=
  let s := s0.fresh
  let eye := h.toNat * v.toNat / 255
  if lane.val < 176 then done (s.setTest lane.val { s.testLane lane.val with eye := eye }) else
  let l := lane.val - 176
  if s.laneState l != laneTraining && s.laneState l != laneActive then
    done (if s.underTest lane.val then s.laneF l LaneRec.eye eye else s) else
  let low := decide (eye < fget (s.svLane l) LaneRec.eyeAlarm)
  let r := s.svRun l
  let nLow := if low then min 100 (r.eyeLow + 1) else 0
  let nOk := if low then 0 else min 100 (r.eyeOk + 1)
  let begin_ := nLow == 100 && !r.eyeSaid
  let end_ := nOk == 100 && r.eyeSaid
  let s1 := (s.laneF l LaneRec.eye eye).setSvRun l { r with eyeLow := nLow, eyeOk := nOk, eyeSaid := (r.eyeSaid || begin_) && !end_ }
  if begin_ then done (s1.raise ⟨0xF3, locSvanumLane l, true, 0, leBytes 1 eye⟩)
  else if end_ then done (s1.raise ⟨0xF3, locSvanumLane l, false, 0, leBytes 1 eye⟩)
  else done s1

end Sys2Proof.Machine
end

