-- ==== Sys2Proof/Machine/Troupe.lean ====
section
/-! DEFINITION. The Troupe (R315, R316, R326, R334 to R343, R423, R424): its records, imports and exports, tiles sent and received, Troupe
time and forwarded commands. -/

namespace Sys2Proof.Machine

open Sys2Proof

/-! ### TROUPE_WRITE, LINK_WRITE, LANE_WRITE -/

def troupeWriteCheck (q : Req) (s : State) : Except Err (BitVec 128) := do
  let _ ← Req.index q 1
  Req.noTarget q
  writeRecordX q TroupeRec.layout s.trp.rec_ (fixedIf (fbit s.trp.rec_ TroupeRec.troupeEn) TroupeRec.layout)
    (fun e => if maskBit (fget e TroupeRec.members) s.member then none else some 0)

/-- The record written; links rise or fall with TROUPE_EN. -/
def troupeWriteDo (e : BitVec 128) (s : State) : State :=
  (List.range 7).foldl (fun s k => s.syncLink k) (s.onTrp (fun t => { t with rec_ := e }))

def cmdTroupeWrite (q : Req) (s : State) : Res := do
  let e ← troupeWriteCheck q s
  let t := troupeWriteDo e s
  return (t, recBytes t.trp.rec_)

/-- TROUPE_WRITE (R315). -/
def execTroupeWrite (q : Req) (s : State) : Out := serve 0x0B00 cmdTroupeWrite q s

/-- The lanes a link's record names, in either field. -/
def linkLanes (e : BitVec 128) : List Nat := maskList 48 (fget e Link.lanes) ++ maskList 48 (fget e Link.spares)

/-- The lanes of twin path A, while TWIN_EN is 1 (R348). -/
def State.pathALanes (s : State) : List Nat :=
  if fbit s.twin.rec_ Twin.twinEn then [fget s.twin.rec_ Twin.aLane0, fget s.twin.rec_ Twin.aLane1] else []

/-- The refusals of R316. -/
def linkWriteCheck (q : Req) (s : State) : Except Err (Nat × BitVec 128) := do
  let k ← Req.index q 7
  Req.noTarget q
  let old := s.linkRec k
  let e ← writeRecordX q Link.layout old [] (fun e =>
    let n := (maskList 48 (fget e Link.lanes)).length
    if n = 0 || 8 < n then some 2
    else if fget e Link.peer = s.member || !maskBit (fget s.trp.rec_ TroupeRec.members) (fget e Link.peer) then some 0 else none)
  match fixedBad (fixedIf (fbit old Link.linkEn) Link.layout) old e with
  | some o => errAt eFixed (12 + o)
  | none =>
    let others := s.trp.link.filter (fun x => x.1 != k)
    let taken := others.flatMap (fun x => linkLanes x.2) ++ s.pathALanes
    need (!(linkLanes e).any taken.contains) eBusy
    need (!(maskList 48 (fget e Link.lanes)).any (maskBit (fget e Link.spares))) eBusy
    need (!others.any (fun x => fget x.2 Link.lanes != 0 && fget x.2 Link.peer == fget e Link.peer)) eBusy
    need (!(fbit e Link.linkEn && !fbit old Link.linkEn && (maskList 48 (fget e Link.lanes)).any (fun l => s.underTest (svanumTest l)))) eBusy
    return (k, e)

/-- The record written; the link rises or falls with LINK_EN, a lane leaves idle with IDLE_EN 0, and a spare may be called. -/
def linkWriteDo (k : Nat) (e : BitVec 128) (s : State) : State :=
  let s1 := (s.setLink k e).syncLink k
  let s2 := if fbit e Link.idleEn then s1 else
    (s1.linkSt k).active.foldl (fun s l => s.setSvRun l { s.svRun l with idle := none }) s1
  s2.callSpare k

def cmdLinkWrite (q : Req) (s : State) : Res := do
  let (k, e) ← linkWriteCheck q s
  let t := linkWriteDo k e s
  return (t, recBytes (t.linkRec k))

/-- LINK_WRITE (R316). -/
def execLinkWrite (q : Req) (s : State) : Out := serve 0x0B01 cmdLinkWrite q s

def laneWriteCheck (q : Req) (s : State) : Except Err (Nat × BitVec 64) := do
  let l ← Req.index q 48
  Req.noTarget q
  let e ← writeRecordX q LaneRec.layout (s.svLane l) [] (fun e => if fget e LaneRec.eyeMin ≤ fget e LaneRec.eyeAlarm then some 1 else none)
  return (l, e)

def cmdLaneWrite (q : Req) (s : State) : Res := do
  let (l, e) ← laneWriteCheck q s
  return (s.setSvLane l e, recBytes e)

/-- LANE_WRITE (R326). -/
def execLaneWrite (q : Req) (s : State) : Out := serve 0x0B02 cmdLaneWrite q s

/-! ### TROUPE_READ (R423, R343) -/

/-- How many objects of a kind there are; none of a kind past 4. -/
def troupeCount : Nat → Nat
  | 0 => 1 | 1 => 7 | 2 => 48 | 3 => 4096 | 4 => 4096 | _ => 0

/-- The record and counters of an object. -/
def troupeBytes (kind i : Nat) (s : State) : List Byte :=
  match kind with
  | 0 => recBytes s.trp.rec_
  | 1 => recBytes (s.linkRec i) ++ (s.linkSt i).ctr.flatMap (leBytes 4)
  | 2 => recBytes (s.svLane i) ++ leBytes 4 (s.svRun i).stuffErr ++ leBytes 4 (s.svRun i).markerLoss
  | 3 => recBytes (s.exp i)
  | _ => recBytes (s.imp i) ++ leBytes 4 (s.impSt i).lost

/-- Its counters cleared. -/
def troupeClear (kind i : Nat) (s : State) : State :=
  match kind with
  | 1 => s.setLinkSt i { s.linkSt i with ctr := [0, 0, 0, 0] }
  | 2 => s.setSvRun i { s.svRun i with stuffErr := 0, markerLoss := 0 }
  | 4 => s.setImpSt i { s.impSt i with lost := 0 }
  | _ => s

def cmdTroupeRead (q : Req) (s : State) : Res := do
  let kind := Req.u16 q 2
  let i := Req.u16 q 0
  needAt (i < troupeCount kind) 0
  let clear ← Req.readClear q
  return (if clear then troupeClear kind i s else s, troupeBytes kind i s)

/-- TROUPE_READ (R423). -/
def execTroupeRead (q : Req) (s : State) : Out := serve 0x0B06 cmdTroupeRead q s

/-! ### TROUPE_IMPORT and TROUPE_UNIMPORT (R334, R335, R424) -/

structure ImportArgs where
  from_ : Nat
  to_ : Nat
  prio : Nat
  src : Nat
  dst : Nat
  deriving DecidableEq, Repr

/-- FROM, TO, PRIORITY, SRC_RING and IMP_RING in range; two different members of the Troupe. -/
def importArgs (q : Req) (prio : Bool) (s : State) : Except Err ImportArgs := do
  let members := fget s.trp.rec_ TroupeRec.members
  needAt (Req.u8 q 0 < 8 && maskBit members (Req.u8 q 0)) 0
  needAt (Req.u8 q 1 < 8 && maskBit members (Req.u8 q 1) && Req.u8 q 1 != Req.u8 q 0) 1
  needAt (!prio || Req.u8 q 2 < 4) 2
  Req.zeroAt q 3 1
  needAt (Req.u16 q 4 < 8192) 4
  needAt (Req.u16 q 6 < 8192) 6
  Req.layout q 8
  return ⟨Req.u8 q 0, Req.u8 q 1, Req.u8 q 2, Req.u16 q 4, Req.u16 q 6⟩

/-- R335: the UP link towards a member, which carries at least 56.25 Gbit/s. -/
def State.tileLink (s : State) (m : Nat) : Option Nat :=
  match linkTo s m with
  | some k => let l := s.linkRec k
    if fget l Link.linkState = 2 && decide (18 ≤ fget l Link.actLanes * laneSpeed (fget l Link.actRate)) then some k else none
  | none => none

/-- The lowest record of a table that is not in use. -/
def freeIndex (n : Nat) (used : List Nat) : Option Nat := (List.range n).find? (fun i => !used.contains i)

def State.usedExports (s : State) : List Nat := (s.trp.exp.filter (fun e => fbit e.2 Export.expEn)).map (·.1)
def State.usedImports (s : State) : List Nat := (s.trp.imp.filter (fun e => fbit e.2 Import.impEn)).map (·.1)

/-- The exporting member's part: the record, its claims and EXP_INDEX, CREDITS and VIA_LINK. -/
def exportAdmit (a : ImportArgs) (s : State) : Except Err (State × Nat × Nat × Nat) := do
  need (!ringFree (s.ring a.src)) eState
  need (!(s.exportsOf a.src).any (fun e => fget e.2 Export.toF == a.to_)) eBusy
  match s.tileLink a.to_ with
  | none => err eState
  | some k =>
    let free := freeIndex 4096 s.usedExports
    let i := free.getD 0
    let c := ringCredits s.bud.profile s a.src
    let add := [Hold.new 4 0 (.outgoing a.src) (.exp i) c, Hold.new (0x40 + a.to_) 0 (.link a.src a.to_) (.exp i) c]
    let t ← claimBeside (if free.isSome then [] else [0x16]) add (fun _ => false) s
    let e : BitVec 128 := fput (fput (fput (fput (fput (fput (fput 0 Export.srcRing a.src) Export.expEn 1) Export.priority a.prio)
      Export.toF a.to_) Export.destRing a.dst) Export.viaLink k) Export.expCredits c
    return ((t.setExp i e).onTrp (fun x => { x with waits := x.waits ++ [i] }), i, c, k)

/-- The importing member's part: the record, its write claim of the source ring's credits (its own ring's where no answer brings them),
and IMP_INDEX. It keeps the lanes and lane rate of the link (R91), and the hops from the first member's ring on: one more than the exporter
told (R337, log entry 112). -/
def importAdmit (a : ImportArgs) (credits : Option Nat) (hops : Nat) (s : State) : Except Err (State × Nat) := do
  let d := s.ring a.dst
  need (!ringFree d) eState
  needAt (ringClass d ≤ 1) noField eFormat
  need (!s.hasWriter a.dst) eBusy
  match s.tileLink a.from_ with
  | none => err eState
  | some k =>
    let free := freeIndex 4096 s.usedImports
    let i := free.getD 0
    let c := credits.getD (ringCredits s.bud.profile s a.dst)
    let add := (writeHold s 4 a.dst).map (fun h => { h with credits := c })
    let t ← claimBeside (if free.isSome then [] else [0x17]) add (writeDrop add) s
    let e : BitVec 64 := fput (fput (fput (fput 0 Import.impRing a.dst) Import.impEn 1) Import.fromF a.from_) Import.fromRing a.src
    return (((t.setImp i e).setImpSt i
      { impStReset i with hops := hops + 1, lanes := fget (s.linkRec k) Link.actLanes, rate := fget (s.linkRec k) Link.actRate }).syncWcred a.dst, i)

/-- The exporter's part: here, or as its answer tells. -/
def exportHere (a : ImportArgs) (peers : List PeerAnswer) (s : State) : Except Err (State × Nat × Nat × Nat) :=
  if a.from_ = s.member then inMember s.member (exportAdmit a s)
  else .ok (s, peerField peers a.from_ 0 2, peerField peers a.from_ 4 2, peerField peers a.from_ 6 1)

/-- The hops of the source ring on the exporting member: known here, or told by its answer (byte 7, on P1 alone) or by the origin (log
entry 117). -/
def exportHops (a : ImportArgs) (peers : List PeerAnswer) (q : Req) (s : State) : Nat :=
  if a.from_ = s.member then s.hopsTo true 4 a.src else if q.port = .p1 || s.role == .shadow then q.extra.toNat % 256 else peerField peers a.from_ 7 1

/-- The importer's part. -/
def importHere (a : ImportArgs) (peers : List PeerAnswer) (credits : Option Nat) (hops : Nat) (s : State) : Except Err (State × Nat) :=
  if a.to_ = s.member then inMember s.member (importAdmit a credits hops s)
  else .ok (s, peerField peers a.to_ 2 2)

def cmdTroupeImport (peers : List PeerAnswer) (q : Req) (s : State) : Res := do
  let a ← importArgs q true s
  let ask := askOthers q s [a.from_, a.to_]
  need (ask.all (fun m => (linkTo s m).isSome)) eState
  let (s1, ei, c, via) ← exportHere a peers s
  let hops := exportHops a peers q s
  let (s2, ii) ← importHere a peers (if ask.contains a.from_ then some c else none) hops s1
  peersOk peers ask
  return (ask.foldl (State.forwardTo 0x0B03 q hops) s2,
    leBytes 2 ei ++ leBytes 2 ii ++ leBytes 2 c ++ leBytes 1 via ++ if q.port = .p1 then leBytes 1 hops else [])

/-- TROUPE_IMPORT (R335): both members in one step. What compares the two members' rings and turns is in the other one's answer. -/
def execTroupeImport (q : Req) (peers : List PeerAnswer) (s : State) : Out := serve 0x0B03 (cmdTroupeImport peers) q s peers

/-- The export or import that a command names. -/
def State.findExport (s : State) (a : ImportArgs) : Option Nat :=
  ((s.exportsOf a.src).find? (fun e => fget e.2 Export.toF == a.to_ && fget e.2 Export.destRing == a.dst)).map (·.1)
def State.findImport (s : State) (a : ImportArgs) : Option Nat :=
  (s.trp.imp.find? (fun e => fbit e.2 Import.impEn && fget e.2 Import.impRing == a.dst && fget e.2 Import.fromF == a.from_ &&
    fget e.2 Import.fromRing == a.src)).map (·.1)

/-- The export stops at once and its claims go. -/
def unexport (i : Nat) (s : State) : State :=
  (s.release (Hold.heldBy (.exp i))).onTrp (fun t => { t with exp := tdel t.exp i, waits := t.waits.filter (· != i) })

/-- The importer abandons its open unit and releases its write claim. -/
def unimport (i r : Nat) (s : State) : State :=
  (((s.stopWriter r).release (fun h => h.grp == .write r)).syncWcred r).onTrp (fun t => { t with imp := tdel t.imp i, impSt := tdel t.impSt i })

/-- The exporter's part, where this device is it. -/
def unexportHere (a : ImportArgs) (s : State) : Except Err State :=
  if a.from_ = s.member then
    match s.findExport a with
    | some i => .ok (unexport i s)
    | none => err eState
  else .ok s

/-- The importer's part, where this device is it. -/
def unimportHere (a : ImportArgs) (s : State) : Except Err State :=
  if a.to_ = s.member then
    match s.findImport a with
    | some i => .ok (unimport i a.dst s)
    | none => err eState
  else .ok s

def cmdTroupeUnimport (peers : List PeerAnswer) (q : Req) (s : State) : Res := do
  let a ← importArgs q false s
  let ask := askOthers q s [a.from_, a.to_]
  need (ask.all (fun m => (linkTo s m).isSome)) eState
  let s1 ← unexportHere a s
  let s2 ← unimportHere a s1
  peersOk peers ask
  return (ask.foldl (State.forwardTo 0x0B04 q 0) s2, [])

/-- TROUPE_UNIMPORT (R424). -/
def execTroupeUnimport (q : Req) (peers : List PeerAnswer) (s : State) : Out := serve 0x0B04 (cmdTroupeUnimport peers) q s peers

/-! ### Forwarded commands (R341, R424) -/

def troupeForwardCheck (q : Req) (s : State) : Except Err (Nat × Nat) := do
  let m := Req.u8 q 0
  needAt (m < 8 && m != s.member && maskBit (fget s.trp.rec_ TroupeRec.members) m) 0
  needAt (Req.num q 7 1 == 0) 1
  needAt (Req.u16 q 8 != 0x0B05 && q.port != .p1) 8
  needAt (Req.u16 q 10 ≤ 984) 10
  Req.layout q (24 + Req.u16 q 10)
  match linkTo s m with
  | none => err eState
  | some k => return (m, k)

/-- TROUPE_FORWARD's body: REQUEST leaves for the member, its missing bytes 0 (R3), and the response waits for its own. -/
def cmdTroupeForward (q : Req) (s : State) : Except Err Ans := do
  let (m, k) ← troupeForwardCheck q s
  return .later (s.sendMessage k msgCommand (fitBytes (16 + Req.u16 q 10) ((Req.bytes q).drop 8) ++ leBytes 8 0)) (.forward m) []

/-- TROUPE_FORWARD (R424). -/
def execTroupeForward (q : Req) (s : State) : Out := serveAns 0x0B05 cmdTroupeForward q s

/-- The command that waits for a member's response to an inner request's SEQ. -/
def forwardJob (member seq : Nat) (j : Job) : Bool := j.kind == .forward member && Req.u16 j.req 12 == seq

/-- FORWARDED_RESPONSE (R341, R424): the outer status is OK whatever the inner one. -/
def execForwardedResponse (member : Fin 8) (seq : BitVec 16) (bytes : List Byte) (s0 : State) : Out :=
  done (s0.fresh.answerJob (forwardJob member.val seq.toNat) 0 (fun _ => bytes))

/-! ### Tiles sent (R324, R336) -/

/-- A tile in seventeen cells: the descriptor and 224 bytes, 15 × 248, and 152 with a rider of zeros. -/
def State.sendTile (k dest : Nat) (desc payload : List Byte) (s : State) : State :=
  let p := fitBytes 4096 payload
  let s1 := s.sendCell k 1 0 dest (desc ++ p.take 224)
  let s2 := (List.range 15).foldl (fun s j => s.sendCell k 1 (j + 1) dest ((p.drop (224 + 248 * j)).take 248)) s1
  s2.sendCell k 1 16 dest (p.drop 3944)

/-- The 24-byte descriptor of a tile. -/
def tileDesc (eseq : BitVec 32) (crc tag : List Byte) (start poison : Bool) (time : Nat) : List Byte :=
  leBytes 4 eseq.toNat ++ crc ++ tag ++ leBytes 4 (bit start + 2 * bit poison) ++ leBytes 8 (if start then time else 0)

/-- Whether a position starts a unit of its ring, and the unit's time. Each audio tile is a unit (R55). -/
def State.unitStartAt (s : State) (r : Nat) (eseq : BitVec 32) : Option Nat :=
  if ringType (s.ring r) = 2 then some s.now
  else ((s.markersOf r).find? (fun k => k.eseq == eseq)).map (·.time)

/-- The exports of a ring that take a tile: those that run, and at a unit start those that wait for one. -/
def State.exportsFor (s : State) (r : Nat) (start : Option Nat) : List (Nat × BitVec 128) :=
  (s.exportsOf r).filter (fun e => fget e.2 Export.expState == 1 || (start.isSome && s.trp.waits.contains e.1))

/-- The copy of a committed tile leaves on its ring's exports, verified once, in a slot of the exporter group's claim. -/
def State.exportTile (r : Nat) (eseq : BitVec 32) (start : Option Nat) (on : List (Nat × BitVec 128)) (s : State) : State :=
  let v := s.verify r eseq none
  let i := ringTile (s.ring r) eseq
  let rec_ := s.bytesAt (checkBase s.pwr.reduced + 8 * i) 8
  let desc := tileDesc eseq (rec_.take 4) (rec_.drop 4) start.isSome (!v.isGood) (start.getD 0)
  let payload := s.bytesAt (4096 * i) 4096
  let l := locLink (match on with | (_, e) :: _ => fget e Export.viaLink | [] => 0)
  let s1 := ((s.countVerdict r eseq false v).raiseVerdict r eseq l v).spend (.outgoing r) (s.channelAt r eseq)
  on.foldl (fun s e =>
    let s2 := (s.setExp e.1 (fput (s.exp e.1) Export.expState 1)).onTrp (fun t => { t with waits := t.waits.filter (· != e.1) })
    s2.sendTile (fget e.2 Export.viaLink) (fget e.2 Export.destRing) desc payload) s1

/-- What waits on a ring's exports leaves, in order, while the exporter group has credits (R69); `n` bounds it. -/
def State.drainExports (r : Nat) : Nat → State → State
  | 0, s => s
  | n + 1, s => match s.outq r with
    | [] => s
    | .skip first resume :: l => State.drainExports r n ((s.setOutq r l).putAbandon r first resume)
    | .tile eseq start :: l =>
      let on := s.exportsFor r start
      if on.isEmpty then State.drainExports r n (s.setOutq r l)
      else if s.hasCredit (.outgoing r) (s.channelAt r eseq) then State.drainExports r n ((s.setOutq r l).exportTile r eseq start on)
      else s

/-- R336: a tile just committed is copied to every export of its ring, in the turn of the write where the exporter group has the credits,
else as they come (log entry 110). Suspended exports resume at a unit start. -/
def State.feedExports (r : Nat) (eseq : BitVec 32) (s : State) : State :=
  let start := s.unitStartAt r eseq
  if s.safetyNet || (s.exportsFor r start).isEmpty && (s.outq r).isEmpty then s
  else
    let l := s.outq r ++ [.tile eseq start]
    (s.setOutq r l).drainExports r l.length

/-! ### Tiles received (R336) -/

/-- A change to an import's running state. -/
def State.onImp (i : Nat) (f : ImpSt → ImpSt) (s : State) : State := s.setImpSt i (f (s.impSt i))

/-- Positions from one ESEQ on to another, none where the other lies behind. -/
def ahead (at_ goal : BitVec 32) : Option Nat := if (goal - at_).toNat < 2 ^ 31 then some (goal - at_).toNat else none

/-- A tile written into the import ring, poisoned where it is bad; TILES_LOST counts the bad ones. -/
def State.importWrite (i r l : Nat) (bytes : List Byte) (fin bad : Bool) (s : State) : State :=
  if bad then (s.closeMissing r bytes fin true).onImp i (fun v => { v with lost := sat32 v.lost 1 }) else s.closeTile r l bytes fin

/-- Tiles that were lost whole: poisoned in their places while the unit lasts, then skipped (R336: the unit still completes). -/
def State.importGap (i r l n : Nat) (s : State) : State :=
  let d := s.ring r
  let w := s.wr r
  let m := if !w.unitOpen || w.discard then 0 else if ringIsVideo d then min n (ringTpf d - w.tile) else min n 1024
  let s1 := (List.range m).foldl (fun s _ => s.importWrite i r l [] false true) s
  if n = m then s1 else s1.skipTiles r (n - m)

/-- The unit's marker takes the source's time, and line 1 of its source is at it. -/
def State.importTime (r : Nat) (time : Nat) (s : State) : State :=
  (s.onMarker r (s.wr r).first (fun k => { k with time := time })).sourceLine1At r time

/-- A tile of an import: OFFSET fixed at the first unit start, gaps filled, the tile verified and written. -/
def State.importTile (i l : Nat) (c : TileCells) (s : State) : State :=
  let r := fget (s.imp i) Import.impRing
  let v := s.impSt i
  if v.offset.isNone && !c.unitStart then s else
  let off := v.offset.getD (c.eseq - s.nextEseq r)
  let e := c.eseq - off
  match ahead (s.nextEseq r) e with
  | none => s
  | some gap =>
    let w := s.wr r
    let s0 := if v.resumeAt = some e then s.setWr r { w with discard := false } else s
    let s1 := (s0.importGap i r l gap).onImp i (fun v => { v with offset := some off, resumeAt := none })
    let s2 := if c.unitStart then (s1.startUnit r l).importTime r c.unitTime.toNat else s1
    let payload := fitBytes 4096 c.payload
    let bad := c.lost || c.poison || tileCrc payload c.eseq != c.crc.toNat
    let fin := c.tag.getLsbD 18
    if !(s2.wr r).unitOpen || (s2.wr r).discard then s2
    else s2.importWrite i r l (payload.take (if ringIsVideo (s2.ring r) then 4096 else c.tag.toNat % 4096 + 1)) fin bad

/-- What the link counted with the cells (R322, R323, R343). -/
def State.countCells (k : Nat) (c : TileCells) (s : State) : State :=
  let v := s.linkSt k
  s.setLinkSt k { v with ctr := (v.ctr.zip [c.fecCorr, c.fecUncorr, c.hdrErr, c.gaps]).map (fun p => sat32 p.1 p.2) }

/-- IMPORT_TILE (R336). -/
def execImportTile (i : Fin 4096) (cells : TileCells) (s0 : State) : Out :=
  let s := s0.fresh
  match linkTo s (fget (s.imp i.val) Import.fromF) with
  | none => done s
  | some k =>
    let s1 := s.countCells k cells
    if !fbit (s.imp i.val) Import.impEn then done s1 else done (s1.importTile i.val (locLink k) cells)

/-- ABANDON (R336): the open unit is abandoned as in steps 1 to 3 of R57, and writing resumes at its place. -/
def execAbandon (i : Fin 4096) (skipped resume : BitVec 32) (s0 : State) : Out :=
  let s := s0.fresh
  let e := s.imp i.val
  let r := fget e Import.impRing
  match (s.impSt i.val).offset with
  | none => done s
  | some off =>
    if !fbit e Import.impEn then done s else
    let l := match linkTo s (fget e Import.fromF) with | some k => locLink k | none => locLink 0
    let s1 := match ahead (s.nextEseq r) (skipped - off) with
      | some gap => s.importGap i.val r l gap
      | none => s
    let s2 := s1.stopWriter r
    let s3 := match ahead (s2.nextEseq r) (resume - off) with
      | some n => if n = 0 then s2 else s2.skipTiles r n
      | none => s2
    done (s3.onImp i.val (fun v => { v with resumeAt := some (resume - off) }))

/-! ### Troupe time (R339, R340) -/

/-- Seconds and nanoseconds of a PTP time in a TIME cell (widths: DESIGN CHOICE, log entry 51). -/
def timeBytes (ns : Nat) : List Byte := leBytes 8 (ns / 1000000000) ++ leBytes 4 (ns % 1000000000)

/-- Engine time in ns. -/
def State.engineNs (s : State) : Nat := s.time.engine / 2 ^ 48

/-- The leader this device announces, and its hops. -/
def State.announced (s : State) : Nat × Nat :=
  match s.bestLeader with
  | (m, hops, _) => (m, hops)

/-- A TIME cell leaves, and its departure is kept for the next one. -/
def State.sendTime (k : Nat) (s : State) : State :=
  let v := s.linkSt k
  let (m, hops) := s.announced
  let s1 := s.sendCell k 5 0 0 (timeBytes v.tDep ++ timeBytes v.peerArr ++ timeBytes v.peerDep ++ timeBytes v.tDepEngine ++
    leBytes 1 m ++ leBytes 1 hops)
  s1.setLinkSt k { s1.linkSt k with tDep := s.now, tDepEngine := s.engineNs }

/-- TIME_CELL_SEND (R339): on a running link, or on path A (link 7) while it carries heartbeats (R348). -/
def execTimeCellSend (k : Fin 8) (s0 : State) : Out :=
  let s := s0.fresh
  if k.val = 7 then done (if fbit s.twin.rec_ Twin.twinEn then s.sendTime 7 else s)
  else if !s.linkRuns k.val || !fbit s.trp.rec_ TroupeRec.troupeEn then done s
  else done (s.sendTime k.val)

/-- The four times of an exchange give the peer's PTP time less this device's, in ns; none before the exchange is complete. -/
def timeOffset (v : LinkSt) (c : TimeCell) : Option Int :=
  if c.arrDep = 0 || v.lastArr = 0 then none
  else some ((((c.arr : Int) - c.arrDep) - ((v.lastArr : Int) - c.dep)).fdiv 2)

/-- What a TIME cell brings: the exchange, and the leader announced. -/
def State.takeTime (k : Nat) (c : TimeCell) (s : State) : State :=
  let v := s.linkSt k
  s.setLinkSt k { v with peerArr := v.lastArr, peerDep := c.dep, lastArr := c.at_, leader := c.leader.val, hops := c.hops.toNat }

/-- R340, R312: with SERVO_SRC 2 every exchange steers PTP time with s = 0.001 s, and under STEP_EN a difference beyond STEP_LIMIT for
STEP_PERSIST exchanges in a row steps it (R307; log entry 135). -/
def State.followLeader (o : Int) (s : State) : State :=
  let v := s.ptp.servo
  if fget v Servo.servoSrc != 2 then s else
  let far := decide (fget v Servo.stepLimit * 1000 < o.natAbs) && fbit v Servo.servoEn
  let run := if far then s.ptp.beyond + 1 else 0
  let step := far && fbit v Servo.stepEn && decide (fget v Servo.stepPersist ≤ run)
  let s1 := (s.steer o 1 1000).onPtp (fun p => { p with beyond := if step then 0 else run })
  if step then s1.timeStep (-o) else s1

/-- A TIME cell on a link of the Troupe: the leader is chosen anew, and the cell of the neighbour towards it steers PTP time with
SERVO_SRC 2 and keeps candidate T active. -/
def State.troupeTime (k : Nat) (c : TimeCell) (s : State) : State :=
  let off := timeOffset (s.linkSt k) c
  let s1 := (s.takeTime k c).updateReach k
  if s1.bestLeader.2.2 != some k then s1 else
  let s2 := s1.setCandSt 15 { s1.candSt 15 with activity := true }
  let s3 := s2.candUp 15
  match off with
  | some o => s3.followLeader (-o)
  | none => s3

end Sys2Proof.Machine
end

