-- ==== Sys2Proof/Machine/Twin.lean ====
section
/-! DEFINITION. Twin operation (R345 to R367): roles, heartbeats and paths, the decision to take over and the takeover, planned swaps,
digests and their comparison, and the SYNC state. Mirrors are executed in `Mirror`, state is copied in `Resync`. -/

namespace Sys2Proof.Machine

open Sys2Proof

/-! ### Fields and SYNC -/

def State.twinF (f : Fld) (v : Nat) (s : State) : State := s.onTwin (fun t => { t with rec_ := fput t.rec_ f v })
def State.sync (s : State) : Nat := fget s.twin.rec_ Twin.sync
def State.twinOn (s : State) : Bool := fbit s.twin.rec_ Twin.twinEn

/-- R354, R358: SYNC becomes UNSYNCED, and TWIN_MIRROR_FAIL carries the reason: 1 STATUS, 2 TIMEOUT, 3 ORDER, 4 PATH, 5 TIME,
6 RELEASE, 7 RESYNC. -/
def State.unsync (reason : Nat) (s : State) : State :=
  if s.role = .solo || s.sync = 0 || s.sync = 3 then s
  else (s.twinF Twin.sync 3).raise ⟨0xFB, locTwin, true, reason, []⟩

/-! ### TWIN_WRITE, TWIN_READ -/

def twinWriteCheck (q : Req) (s : State) : Except Err (BitVec 256) := do
  let _ ← Req.index q 1
  Req.noTarget q
  let old := s.twin.rec_
  let e ← writeRecordX q Twin.layout old (fixedIf (fbit old Twin.twinEn) Twin.layout)
    (fun e => if fget e Twin.aLane0 = fget e Twin.aLane1 then some 1 else none)
  need (fbit e Twin.twinEn == fbit old Twin.twinEn || s.pwr.power != .active) eState
  need (!s.trp.link.any (fun x => (linkLanes x.2).contains (fget e Twin.aLane0) || (linkLanes x.2).contains (fget e Twin.aLane1))) eBusy
  need (!(fbit e Twin.twinEn && !fbit old Twin.twinEn &&
    (s.underTest (svanumTest (fget e Twin.aLane0)) || s.underTest (svanumTest (fget e Twin.aLane1))))) eBusy
  return e

/-- The record written. TWIN_EN that rises starts HB_SEQ and path A afresh; one that falls leaves the device SOLO. -/
def twinWriteDo (e : BitVec 256) (s : State) : State :=
  let was := s.twinOn
  let s1 := s.onTwin (fun t => { t with rec_ := e })
  if fbit e Twin.twinEn = was then s1
  else if fbit e Twin.twinEn then (s1.onTwin (fun t => { t with hbSeq := 0 })).setLinkSt 7 (linkStReset 7)
  else s1.onTwin (fun t => { TwinSt.reset with
    rec_ := fput (fput (fput (fput e Twin.role 0) Twin.sync 0) Twin.pathAOk 0) Twin.pathBOk 0,
    a := { t.a with seen := none, run := 0, lost := false },
    b := { t.b with seen := none, run := 0, lost := false },
    onairIn := t.onairIn, hb := t.hb })

def cmdTwinWrite (q : Req) (s : State) : Res := do
  let e ← twinWriteCheck q s
  let t := twinWriteDo e s
  return (t, recBytes t.twin.rec_)

/-- TWIN_WRITE (R346). -/
def execTwinWrite (q : Req) (s : State) : Out := serve 0x0C00 cmdTwinWrite q s

def cmdTwinRead (q : Req) (s : State) : Res := do
  let _ ← Req.index q 1
  let clear ← Req.readClear q
  let res := recBytes s.twin.rec_ ++ leBytes 4 s.twin.a.bad ++ leBytes 4 s.twin.b.bad ++ fitBytes 40 s.twin.hb
  return (if clear then s.onTwin (fun t => { t with
    rec_ := fput t.rec_ Twin.divCount 0, a := { t.a with bad := 0 }, b := { t.b with bad := 0 } }) else s, res)

/-- TWIN_READ (R423). -/
def execTwinRead (q : Req) (s : State) : Out := serve 0x0C01 cmdTwinRead q s

/-! ### TWIN_SWAP (R363) -/

/-- Y, and whether NEXT_OK moved it. -/
def twinSwapCheck (q : Req) (receipt : Nat) (s : State) : Except Err (Nat × Bool) := do
  need (s.role == .primary) eState
  Req.layout q 8
  let asked := Req.u64 q 0
  needAt (asked ≤ receipt + 60000000000) 0
  need (fbit s.twin.rec_ Twin.pathAOk && fbit s.twin.rec_ Twin.pathBOk && s.sync == 2) eState
  if asked = 0 then return (receipt + 1000000, false)
  else if receipt + takeAhead q ≤ asked then return (asked, false)
  else if Req.nextOk q then return (receipt + 1000000, true)
  else .error ⟨eLate, [], some (lateEvent 1 0xFF asked asked receipt)⟩

def cmdTwinSwap (q : Req) (s : State) : Res := do
  let receipt := receiptOf 0x0C02 q s
  let (y, moved) ← twinSwapCheck q receipt s
  let s1 := if moved then s.takeLate 2 0xFF (Req.u64 q 0) (Req.u64 q 0) receipt else s
  return (s1.yieldNow 2 y, leBytes 4 (bit moved) ++ leBytes 4 0 ++ leBytes 8 y)

/-- TWIN_SWAP (R363). -/
def execTwinSwap (q : Req) (s : State) : Out := serve 0x0C02 cmdTwinSwap q s

/-! ### Roles -/

/-- A role taken, with its SYNC. A SHADOW counts TWIN_ONAIR_IN high from now. -/
def State.setRole (role sync : Nat) (s : State) : State :=
  ((s.twinF Twin.role role).twinF Twin.sync sync).onTwin (fun t => { t with onairSince := if role = 2 then s.time.clk else t.onairSince })

/-- Whether a path carries heartbeats (R351). -/
def State.pathOk (s : State) (b : Bool) : Bool := fbit s.twin.rec_ (if b then Twin.pathBOk else Twin.pathAOk)

/-- FLAGS and ROLE of the twin's latest heartbeat. -/
def State.peerFlags (s : State) : Nat := leNat ((s.twin.hb.drop 3).take 1)
def State.peerRole (s : State) : Nat := leNat ((s.twin.hb.drop 4).take 1)

/-- TWIN_ISOLATED: 1 SILENT, 2 STRAP. -/
def State.isolateTwin (reason : Nat) (s : State) : State := s.contain ⟨0xF7, locTwin, true, reason, []⟩ false

/-- R347: the role a twin takes when it has listened. ONAIR_OUT rises with PRIMARY, which sends a heartbeat (R350). -/
def State.chooseRole (s : State) : State :=
  if s.pathOk false || s.pathOk true then
    if s.peerRole = 1 then s.setRole 2 1
    else if (s.peerFlags / 64 % 2 == 1) = s.pwr.twinStrap then (s.setRole 2 0).isolateTwin 2
    else if s.pwr.twinStrap then s.setRole 2 0 else (s.setRole 1 0).sendHeartbeat
  else if s.twin.onairIn then (s.setRole 2 0).isolateTwin 1
  else (s.setRole 1 0).sendHeartbeat

/-- ROLE_CHOICE (R347): on a device ACTIVE with TWIN_EN that has no role yet. -/
def execRoleChoice (s0 : State) : Out :=
  let s := s0.fresh
  if !s.twinOn || s.pwr.power != .active || s.role != .solo then done s else done s.chooseRole

/-! ### The decision to take over (R359, R360) -/

/-- A READY shadow that is not isolated takes over at Y; triggers 1 YIELD, 2 ONAIR, 3 SILENT in the order of R359. -/
def State.decideTake (trigger y : Nat) (s : State) : State :=
  if s.ready && !s.isIsolated 0xF7 locTwin && s.twin.take.isNone then s.onTwin (fun t => { t with take := some (y, trigger) }) else s

/-- HEARTBEAT_SEND (R350): every whole millisecond of PTP time. -/
def execHeartbeatSend (s0 : State) : Out := done (if s0.blockHeld 54 then s0.fresh else s0.fresh.sendHeartbeat)

def heartbeatOk (bytes : List Byte) : Bool :=
  bytes.length == 40 && leNat (bytes.take 2) == 0x5A54 && leNat ((bytes.drop 2).take 1) == 1 &&
    leNat (bytes.drop 36) == crc32c (bytes.take 36)

def State.onPath (b : Bool) (f : PathSt → PathSt) (s : State) : State :=
  s.onTwin (fun t => if b then { t with b := f t.b } else { t with a := f t.a })
def State.path (s : State) (b : Bool) : PathSt := if b then s.twin.b else s.twin.a

/-- A valid heartbeat on a path: the path is up, and TWIN_PATH_LOST ends at the third in a row. -/
def State.hearPath (b : Bool) (s : State) : State :=
  let p := s.path b
  let ends := p.lost && decide (3 ≤ p.run + 1)
  let s1 := (s.onPath b (fun p => { p with seen := some s.time.clk, run := min 3 (p.run + 1), lost := p.lost && !ends })).twinF
    (if b then Twin.pathBOk else Twin.pathAOk) 1
  if ends then s1.raise ⟨0xF6, locTwin, false, 0, leBytes 1 (bit b)⟩ else s1

/-- R354 (RELEASE), and what a heartbeat's SYNC tells: an UNSYNCED on either twin reaches the other, and a primary that sees a shadow
starts at SYNCING (DEDUCED, log entry 54). -/
def State.hearSync (bytes : List Byte) (s : State) : State :=
  let release := leNat ((bytes.drop 6).take 2)
  let s1 := if release = s.pwr.fwMajor.toNat + 256 * s.pwr.fwMinor.toNat then s else s.unsync 6
  let role := leNat ((bytes.drop 4).take 1)
  let sync := leNat ((bytes.drop 5).take 1)
  if s1.role = .primary && role = 2 then
    if s1.sync = 0 then (if sync = 0 then s1 else s1.twinF Twin.sync (if sync = 3 then 3 else 1))
    else if sync = 3 then s1.twinF Twin.sync 3 else s1
  else if s1.role = .shadow && role = 1 then
    if s1.sync = 0 then s1.twinF Twin.sync 1 else if sync = 3 then s1.twinF Twin.sync 3 else s1
  else s1

/-- What a heartbeat decides on a shadow (R359): a yield, or the answer to a fall of TWIN_ONAIR_IN. -/
def State.hearDecide (bytes : List Byte) (s : State) : State :=
  if s.role != .shadow then s else
  let flags := leNat ((bytes.drop 3).take 1)
  let sent := leNat ((bytes.drop 16).take 8)
  let s1 := match s.twin.fallAt with
    | some tf => if flags % 2 = 1 && decide (tf ≤ sent + 10000) then
        (s.onTwin (fun t => { t with fallAt := none })).contain ⟨0xFA, locTwin, true, 0, []⟩ false else s
    | none => s
  if flags / 2 % 2 = 1 then s1.decideTake 1 (max (leNat ((bytes.drop 24).take 8)) s.now) else s1

/-- HEARTBEAT (R350, R351, R359). Path B is silent while the service-bus MAC is off (R349). -/
def execHeartbeat (pathB : Bool) (bytes : List Byte) (s0 : State) : Out :=
  let s := s0.fresh
  if !s.twinOn || s.blockHeld 54 || (pathB && !s.sbOn) then done s
  else if !heartbeatOk bytes then done (s.onPath pathB (fun p => { p with bad := sat32 p.bad 1, run := 0 }))
  else
    let s1 := (s.hearPath pathB).onTwin (fun t => { t with hb := bytes })
    done ((s1.hearSync bytes).hearDecide bytes)

/-- PATH_SILENCE (R351, R359). -/
def execPathSilence (pathB : Bool) (s0 : State) : Out :=
  let s := s0.fresh
  if !s.twinOn then done s else
  let other := s.pathOk (!pathB)
  let s1 := (s.onPath pathB (fun p => { p with run := 0, lost := p.lost || other })).twinF (if pathB then Twin.pathBOk else Twin.pathAOk) 0
  let s2 := if pathB then s1 else (s1.unsync 4).onTwin (fun t => { t with mirroring := false })
  if other then done (if (s.path pathB).lost then s2 else s2.raise ⟨0xF6, locTwin, true, 0, leBytes 1 (bit pathB)⟩)
  else if s2.role != .shadow then done s2
  else if s2.twin.onairIn then done (s2.isolateTwin 1)
  else done (s2.decideTake 3 s2.now)

/-- TWIN_ONAIR_IN_RISE (R359). -/
def execTwinOnairInRise (s0 : State) : Out :=
  let s := s0.fresh
  done (s.onTwin (fun t => { t with onairIn := true, onairSince := s.time.clk }))

/-- TWIN_ONAIR_IN_FALL (R359): it counts after 1 ms high on a shadow, and ONAIR_CONFIRM starts. -/
def execTwinOnairInFall (s0 : State) : Out :=
  let s := s0.fresh
  let counts := s.role == .shadow && s.twin.onairIn && decide (1000000 ≤ (s.time.clk - s.twin.onairSince).toNat)
  done (s.onTwin (fun t => { t with onairIn := false, fallAt := if counts then some s.now else t.fallAt }))

/-- ONAIR_CONFIRM_EXPIRY (R359): no heartbeat has confirmed, and the shadow takes over at tf + ONAIR_CONFIRM. -/
def execOnairConfirmExpiry (s0 : State) : Out :=
  let s := s0.fresh
  match s.twin.fallAt with
  | none => done s
  | some tf => done ((s.onTwin (fun t => { t with fallAt := none })).decideTake 2 (tf + 100000 * fget s.twin.rec_ Twin.onairConfirm))

/-! ### The takeover point (R361) -/

/-- TWIN_TAKEOVER: trigger, Y and the SYNC state at Y (layout: DESIGN CHOICE, log entry 51). -/
def State.sayTakeover (trigger y sync : Nat) (s : State) : State :=
  s.raise ⟨0xF8, locTwin, true, 0, leBytes 1 trigger ++ leBytes 3 0 ++ leBytes 8 y ++ leBytes 1 sync⟩

/-- A takeover ends TEST_SHADOW with E_STATE (R504). -/
def State.endShadowTest (s : State) : State :=
  (s.onTst (fun t => { t with shadowRun := none })).answerJob (fun j => j.kind == .shadowTest) eState (fun _ => [])

/-- The new primary: outputs change hands from Y + 100 µs. A swap leaves SYNC, any other takeover leaves NONE. -/
def State.becomePrimary (y trigger : Nat) (s : State) : State :=
  let swap := trigger = 1 && leNat ((s.twin.hb.drop 32).take 2) = 2
  let sync := s.sync
  let s1 := (s.setRole 1 (if swap then sync else 0)).onTwin (fun t => { t with
    take := none, fallAt := none, handAt := y + 100000, mirroring := swap })
  (s1.endShadowTest.sayTakeover trigger y sync).sendHeartbeat

/-- The old primary, SHADOW from Y. After a fatal fault it enters Safety Net at Y (R439). -/
def State.becomeShadow (y : Yield) (s : State) : State :=
  let sync := s.sync
  let s1 := (s.setRole 2 (if y.reason = 2 then sync else 0)).onTwin (fun t => { t with yield := none, handAt := y.at_ + 100000, mirroring := false })
  let s2 := (s1.sayTakeover 1 y.at_ sync).sendHeartbeat
  if y.reason = 1 then s2.enterSafetyNet else s2

/-- TAKEOVER_POINT (R361). -/
def execTakeoverPoint (s0 : State) : Out :=
  let s := s0.fresh
  match s.twin.take, s.twin.yield with
  | some (y, trigger), _ => done (if s.role = .shadow then s.becomePrimary y trigger else s)
  | none, some y => done (if s.role = .primary then s.becomeShadow y else s)
  | none, none => done s

/-! ### Digests (R357, R358) -/

/-- SYNCED once every output that runs has matched for two frames since Tr. -/
def State.checkSynced (s : State) : State :=
  if s.sync = 1 && s.twin.resynced &&
      s.rte.outs.all (fun e => !e.2.running || decide (2 ≤ tget natReset s.twin.matched e.1)) then s.twinF Twin.sync 2 else s

/-- One comparison. A mismatch opens an episode, which 100 matching frames end; the event is raised once per episode. -/
def State.judgeDigest (o frame : Nat) (ok : Bool) (s : State) : State :=
  let run := tget natReset s.twin.matched o
  if ok then
    let s1 := s.onTwin (fun t => { t with
      matched := tset natReset t.matched o (min 100 (run + 1))
      diverged := if 100 ≤ run + 1 then tdel t.diverged o else t.diverged })
    s1.checkSynced
  else
    let open_ := tget natReset s.twin.diverged o
    let s1 := s.onTwin (fun t => { t with matched := tdel t.matched o, diverged := tset natReset t.diverged o 1 })
    if open_ = 1 then s1 else
    let s2 := s1.twinF Twin.divCount (sat32 (fget s1.twin.rec_ Twin.divCount) 1)
    let s3 := if s2.sync = 0 then s2 else s2.twinF Twin.sync 3
    s3.raise ⟨0xF9, locTwin, true, 0, leBytes 2 o ++ leBytes 2 frame⟩

/-- Every pair of digests of one output frame is compared. -/
def State.compareDigests (s : State) : State :=
  s.twin.theirs.foldl (fun s e =>
    match s.twin.mine.find? (fun m => m.1 == e.1 && m.2.1 == e.2.1) with
    | none => s
    | some m => (s.onTwin (fun t => { t with mine := t.mine.erase m, theirs := t.theirs.erase e })).judgeDigest e.1 e.2.1 (m.2.2 == e.2.2)) s

/-- The digest message. -/
def digestBytes (l : List (Nat × Nat × Nat)) : List Byte := l.flatMap (fun e => leBytes 2 e.1 ++ leBytes 2 e.2.1 ++ leBytes 4 e.2.2)

/-- DIGEST_SEND (R357). -/
def execDigestSend (s0 : State) : Out :=
  let s := s0.fresh
  if !s.twinOn || s.role = .solo then done (s.onTwin (fun t => { t with own := [] })) else
  let own := s.twin.own
  let s1 := (s.sendMessage 7 msgDigest (digestBytes own)).onTwin (fun t => { t with own := [], mine := t.mine ++ own })
  done s1.compareDigests

/-- DIGEST (R358). -/
def execDigest (entries : List DigestEntry) (s0 : State) : Out :=
  let s := s0.fresh
  if !s.twinOn || s.role = .solo then done s else
  let l := entries.map (fun e => (e.output.val, e.frame.toNat, e.digest.toNat))
  done (s.onTwin (fun t => { t with theirs := t.theirs ++ l })).compareDigests

/-- DIGEST_MISSING (R358): the oldest digest of the output that waits for its counterpart. -/
def execDigestMissing (o : Fin 2048) (s0 : State) : Out :=
  let s := s0.fresh
  let mine (e : Nat × Nat × Nat) : Bool := e.1 == o.val
  match (s.twin.mine.find? mine).or (s.twin.theirs.find? mine) with
  | none => done s
  | some e => done ((s.onTwin (fun t => { t with mine := t.mine.filter (· != e), theirs := t.theirs.filter (· != e) })).judgeDigest o.val e.2.1 false)

/-! ### TIME cells (R339, R355) -/

/-- A TIME cell on path A: PTP times that differ by more than 1 µs for 1 s leave the shadow UNSYNCED (R354). -/
def State.twinTime (c : TimeCell) (s : State) : State :=
  let off := timeOffset (s.linkSt 7) c
  let s1 := s.takeTime 7 c
  match off with
  | none => s1
  | some o =>
    if o.natAbs ≤ 1000 then s1.onTwin (fun t => { t with timeBad := 0 })
    else
      let n := min 1000 (s1.twin.timeBad + 1)
      let s2 := s1.onTwin (fun t => { t with timeBad := n })
      if n = 1000 then s2.unsync 5 else s2

/-- TIME_CELL (R339, R340, R355): on a link of the Troupe, or on path A (7). -/
def execTimeCell (k : Fin 8) (cell : TimeCell) (s0 : State) : Out :=
  let s := s0.fresh
  if k.val = 7 then done (if s.twinOn then s.twinTime cell else s)
  else if !s.linkRuns k.val || !fbit s.trp.rec_ TroupeRec.troupeEn then done s
  else done (s.troupeTime k.val cell)

end Sys2Proof.Machine
end

