-- ==== Sys2Proof/Machine/Power.lean ====
section
/-! DEFINITION. What a reset clears and counts (R470, R471), the release sequence (R475 to R479), the power states and wakes
(R460 to R466), and the restart of the Ringmaster with what it loses (R433, R390). -/

namespace Sys2Proof.Machine

open Sys2Proof

/-! ### Counters (R467, R471) -/

def cntFld : Cause → Fld
  | .por => Cnt.cntPor | .pin => Cnt.cntPin | .wdog => Cnt.cntWdog | .soft => Cnt.cntSoft
  | .troupe => Cnt.cntTroupe | .fatal => Cnt.cntFatal | .thermal => Cnt.cntThermal | .wake => Cnt.cntWake

def causeCode : Cause → Nat
  | .por => 0 | .pin => 1 | .wdog => 2 | .soft => 3 | .troupe => 4 | .fatal => 5 | .thermal => 6 | .wake => 7

def allCauses : List Cause := [.por, .pin, .wdog, .soft, .troupe, .fatal, .thermal, .wake]

/-- The order of R471: the lowest number ranks highest. -/
def causeRank : Cause → Nat
  | .por => 0 | .pin => 1 | .thermal => 2 | .fatal => 3 | .troupe => 4 | .soft => 5 | .wake => 6 | .wdog => 7

/-- A cause counted; LAST_CAUSE is it, or that of the release sequence in progress where that ranks higher (DEDUCED, log
entry 57). -/
def countCause (c : Cause) (seq : Option Cause) (r : BitVec 256) : BitVec 256 :=
  let r1 := fput r (cntFld c) (satAdd 16 (fget r (cntFld c)) 1)
  let total := min ((allCauses.map (fun x => fget r1 (cntFld x))).sum) (2 ^ 32 - 1)
  let last := match seq with
    | some d => if causeRank d < causeRank c then d else c
    | none => c
  fput (fput r1 Cnt.total total) Cnt.lastCause (causeCode last)

/-- Whether a release sequence runs. -/
def State.inRelease (s : State) : Bool := s.fastOn && s.pwr.halt.isNone && decide (s.releaseStep < 7)

def State.countReset (c : Cause) (s : State) : State :=
  s.onPwr (fun p => { p with cnt := countCause c (if s.inRelease then p.lastReset else none) p.cnt, lastReset := some c })

/-! ### What a reset clears (R463, R470) -/

/-- POWER codes of R373 and R460. -/
def powerCode : Power → Nat
  | .backup => 0 | .watch => 1 | .staging => 2 | .active => 3

/-- Outputs that were emitting fall quiet at once (R483). -/
def State.quietAll (s : State) : State :=
  (s.rte.outs.filter (fun e => e.2.running)).foldl (fun s e => s.emit (.quiet e.1)) s

/-- The hardware and firmware state of the fast domains cleared. What stays: the always-on and backup domains, the latched
straps, the contents of the MRAM (image slots, slot table, presets, recorder), and what the pins show. The causes that the
always-on monitors still report stay reported. -/
def State.cleared (s : State) : State :=
  let p := s.pwr
  { s.quietAll with
    time := { TimeSt.reset with xtal := s.time.xtal, offset := fget p.aon Aon.rtcSec * 1000000000 * 2 ^ 32 }
    pwr := { PwrSt.reset with
      power := p.power, bootState := .stopped
      troupeId := p.troupeId, twinStrap := p.twinStrap, bootSrc := p.bootSrc, clkMode := p.clkMode
      trimA := none, trimB := none, pllOk := false
      rstCtl := fput (fput PwrSt.reset.rstCtl RstCtl.releaseStep 0) RstCtl.trimDone 0
      rstLow := p.rstLow, lastReset := p.lastReset, aon := p.aon, cnt := p.cnt, scratch := p.scratch, wakeHeld := p.wakeHeld
      vWarn := p.vWarn, vFail := p.vFail, vbakLow := p.vbakLow, over105 := p.over105, trip125 := p.trip125
      thermalLater := p.thermalLater, quadMv := p.quadMv, quadC := p.quadC
      notes := [], powerWas := none, gapDone := false }
    ctl := { CtlSt.reset with jtagIr := s.ctl.jtagIr, jtagData := s.ctl.jtagData }
    flt := { FltSt.reset with cause := s.flt.cause.filter (fun c => [0x03, 0x04, 0x06, 0x07].contains c.1) }
    rec_ := s.rec_.afterReset
    mem := MemSt.reset, bud := BudSt.reset
    rte := { RteSt.reset with presets := s.rte.presets }
    sdi := { SdiSt.reset with lanes := s.sdi.lanes.foldl (fun t e =>
      tset laneReset t e.1 { laneReset e.1 with present := e.2.present }) [] }
    eth := EthSt.reset, flo := FloSt.reset, cmp := CmpSt.reset, cal := CalSt.reset, ref := RefSt.reset, ptp := PtpSt.reset
    trp := TrpSt.reset
    twin := { TwinSt.reset with onairIn := s.twin.onairIn }
    upd := { s.upd with write := none }
    tst := TstSt.reset }

/-! ### The start of a release sequence (R475 to R478) -/

def State.haltBoot (h : Halt) (s : State) : State := s.onPwr (fun p => { p with halt := some h, sampling := false })

/-- Step 1: the straps are latched and the trim loader runs, unless R476 or R293 forbids it. -/
def State.stepOne (s : State) : State :=
  if s.pwr.clkMode = 3 then s.haltBoot .clkMode
  else if s.pwr.bootSrc = 3 && s.pwr.troupeId = 0 then s.haltBoot .strap
  else s.onPwr (fun p => { p with sampling := false })

/-- RESET_RECORD: LAST_CAUSE and its counter (R451). -/
def resetRecord (cnt : BitVec 256) : Ev :=
  let code := fget cnt Cnt.lastCause
  let n := match allCauses.find? (fun c => causeCode c == code) with | some c => fget cnt (cntFld c) | none => 0
  ⟨0x01, locAon, true, 0, leBytes 1 code ++ [0] ++ leBytes 2 n⟩

/-- A full-sequence reset: everything it clears, its record owed, and the straps or the trim loader next. -/
def State.startRelease (straps : Bool) (wake : Option Nat) (s : State) : State :=
  let was := s.pwr.power
  let s1 := s.cleared.onPwr (fun p => { p with
    power := .staging
    notes := resetRecord p.cnt :: (match wake with | some w => [⟨0x02, locAon, true, 0, leBytes 1 w⟩] | none => [])
    powerWas := if was = .staging then none else some (powerCode was)
    sampling := straps })
  if straps then s1 else s1.stepOne

/-- A reset of the full sequence by its cause (R470). -/
def State.fullReset (c : Cause) (s : State) : State := (s.countReset c).startRelease (c == .por || c == .pin) none

/-- POWER_ON (R468, R470): the always-on settings are cleared. -/
def execPowerOn (s0 : State) : Out :=
  let s := s0.fresh
  let keep (a b : BitVec 256) (l : List Fld) : BitVec 256 := l.foldl (fun r f => fput r f (fget a f)) b
  done ((s.onPwr (fun p => { p with
    aon := keep p.aon (resetRec 256 Aon.layout) [Aon.rtcSec, Aon.rtcSub, Aon.supplyOk, Aon.vbakOk, Aon.tempOver, Aon.tempTrip]
    wakeHeld := none, thermalLater := none })).fullReset .por)

/-- RESET_N low (R470). In WATCH nothing runs that it could reset: its rise is a wake (R465). -/
def execResetN (s0 : State) : Out :=
  let s := s0.fresh
  if s.pwr.rstLow then done s else
  let s1 := s.onPwr (fun p => { p with rstLow := true })
  done (if s.fastOn then s1.fullReset .pin else s1)

/-- RESET_N_RISE (R475): sampling may begin. -/
def execResetNRise (s0 : State) : Out := done (s0.fresh.onPwr (fun p => { p with rstLow := false }))

/-- Whether the internal power-on reset or a wake is no longer held (R465, R468). -/
def State.unheld (s : State) : Bool := s.pwr.vFail.isEmpty && s.pwr.trip125.isEmpty && !s.pwr.rstLow

/-- The straps of one sample: BOOT_SRC in bits 1 and 0, then CLK_MODE, TROUPE_ID and TWIN_ROLE (DESIGN CHOICE, log entry 58). -/
def latchStraps (v : BitVec 8) (p : PwrSt) : PwrSt :=
  { p with bootSrc := v.setWidth 2, clkMode := (v >>> 2).setWidth 2, troupeId := (v >>> 4).setWidth 3, twinStrap := v.getLsbD 7 }

/-- STRAP_SAMPLING (R475). -/
def execStrapSampling (s1 s2 s3 : BitVec 8) (s0 : State) : Out :=
  let s := s0.fresh
  if !s.pwr.sampling || !s.unheld || !s.fastOn then done s else
  let t := s.onPwr (fun p => { p with strapNow := [s1, s2, s3], strapTries := p.strapTries + 1 })
  if s1 = s2 && s2 = s3 then done ((t.onPwr (latchStraps s1)).stepOne)
  else if 16 ≤ t.pwr.strapTries then done (t.haltBoot .strap)
  else done t

/-- Whether the trim loader runs (R478). -/
def State.loadsTrim (s : State) : Bool :=
  s.inRelease && s.releaseStep == 0 && !fbit s.pwr.rstCtl RstCtl.trimDone && !s.pwr.sampling && !s.pwr.rstLow

/-- TRIM_LOAD (R478): copy A, then copy B if A fails; after both have failed the loader starts again, or halts at 3. -/
def execTrimLoad (copyB ok : Bool) (s0 : State) : Out :=
  let s := s0.fresh
  if !s.loadsTrim || copyB != (s.pwr.trimA == some false) then done s
  else if ok then
    done (s.onPwr (fun p => { p with
      trimA := if copyB then p.trimA else some true
      trimB := if copyB then some true else p.trimB
      rstCtl := fput p.rstCtl RstCtl.trimDone 1
      cnt := fput p.cnt Cnt.trimFails 0
      notes := if copyB then p.notes ++ [Ev.plain 0x0A locAon] else p.notes }))
  else if !copyB then done (s.onPwr (fun p => { p with trimA := some false }))
  else
    let n := min 3 (fget s.pwr.cnt Cnt.trimFails + 1)
    let s1 := s.onPwr (fun p => { p with cnt := fput p.cnt Cnt.trimFails n })
    if n = 3 then done ((s1.onPwr (fun p => { p with trimB := some false })).haltBoot .trim)
    else done (s1.onPwr (fun p => { p with trimA := none, trimB := none }))

/-! ### The steps of the release (R477) -/

/-- A record for the recorder's queue alone (R451 thermal shutdown, R456 firmware codes). -/
def State.recordOnly (e : Ev) (soft : Bool) (time port member : Nat) (s : State) : State :=
  s.onFlt (enqueue ⟨e, false, soft, false, time, port, member⟩)

/-- The events of the release, RESET_RECORD first, once the recorder writer is released; a thermal shutdown's record follows it. -/
def State.takeNotes (s : State) : State :=
  let s1 := s.onPwr (fun p => { p with notes := [], thermalLater := if p.notes.isEmpty then p.thermalLater else none })
  let first := (s.pwr.notes.take 1).foldl (fun s e => s.raise e) s1
  let mid := match s.pwr.thermalLater with
    | some (t, e) => if s.pwr.notes.isEmpty then first else first.recordOnly e false t 0xFF 0xFF
    | none => first
  (s.pwr.notes.drop 1).foldl (fun s e => s.raise e) mid

/-- Region `n` released. -/
def State.releaseTo (n : Nat) (s : State) : State :=
  let s1 := s.onPwr (fun p => { p with rstCtl := fput p.rstCtl RstCtl.releaseStep n })
  if n = 2 then
    (s1.onPwr (fun p => { p with bootState := if p.bootSrc = 1 || p.bootSrc = 2 then .waitLoad else .rom })).takeNotes
  else if n = 6 then s1.syncLink 0
  else s1

/-- RELEASE_STEP (R477). Step 2 waits for TRIM_DONE, for one gap after it, and for the quadrant PLLs. -/
def execReleaseStep (s0 : State) : Out :=
  let s := s0.fresh
  if !s.inRelease || !fbit s.pwr.rstCtl RstCtl.trimDone then done s
  else if s.releaseStep = 0 then
    if s.pwr.pllOk then done (s.releaseTo 2) else done (s.onPwr (fun p => { p with gapDone := true }))
  else done (s.releaseTo (s.releaseStep + 1))

/-- QUADRANT_PLL_LOCK (R477): all four lock. After the release it ends the cause of QPLL_UNLOCK (R440). -/
def execQuadrantPllLock (s0 : State) : Out :=
  let s := s0.fresh
  if s.pwr.pllOk || !fbit s.pwr.rstCtl RstCtl.trimDone || !s.fastOn then done s
  else
    let s1 := (s.onPwr (fun p => { p with pllOk := true })).endCause 0x08 locAon
    done (if s1.inRelease && s1.releaseStep == 0 && s1.pwr.gapDone then s1.releaseTo 2 else s1)

/-! ### Resets that were announced, and by the fault collector -/

/-- SOFTWARE_RESET (R410, R470): the reset a SESSION_RESET announced. -/
def execSoftwareReset (s0 : State) : Out :=
  let s := s0.fresh
  match s.pwr.due with
  | some (.soft, _) => done (s.fullReset .soft)
  | some (.troupe, _) => done (s.fullReset .troupe)
  | _ => done s

/-- FULL_RST (R472): 0xA5 is a full software reset. -/
def execFullRst (v : BitVec 8) (s0 : State) : Out :=
  let s := s0.byHost
  if v = 0xA5 && s.hostPort then done (s.fullReset .soft) else done s

/-- FATAL_FAULT_RESET (R436): FATAL_DELAY after entry into Safety Net. -/
def execFatalFaultReset (s0 : State) : Out :=
  let s := s0.fresh
  if s.safetyNet && s.flt.fatalAt.isSome then done (s.fullReset .fatal) else done s

/-- The eight counters and TOTAL cleared. -/
def State.clearCounts (s : State) : State :=
  s.onPwr (fun p => { p with cnt := (Cnt.total :: allCauses.map cntFld).foldl (fun r f => fput r f 0) p.cnt })

/-- CNT_CLEAR (R472). -/
def execCntClear (v : Bool) (s0 : State) : Out :=
  let s := s0.byHost
  done (if v && s.hostPort then s.clearCounts else s)

/-! ### Power states (R461 to R465) -/

/-- The fast domains are gated off: all their state ends (R463). -/
def State.toWatch (s : State) : State :=
  let s1 := s.raise ⟨0x00, locAon, true, 0, leBytes 1 (powerCode s.pwr.power) ++ leBytes 1 1⟩
  s1.cleared.onPwr (fun p => { p with power := .watch, wakeHeld := none, aon := fput p.aon Aon.actP 0 })

/-- WATCH_ENTRY (R410, R463): 1 ms after POWER_SET to WATCH. -/
def execWatchEntry (s0 : State) : Out :=
  let s := s0.fresh
  match s.pwr.due with
  | some (.watch, _) => if s.pwr.power = .staging then done s.toWatch else done s
  | _ => done s

/-- VAUX_LOSS (R461): every domain but the backup domain loses power. -/
def execVauxLoss (s0 : State) : Out :=
  let s := s0.fresh
  done (s.cleared.onPwr (fun p => { p with power := .backup, wakeHeld := none, thermalLater := none, halt := none, vWarn := [], vFail := [] }))

/-- VBAK_LOSS (R470, R509): without VAUX the contents of the backup domain are lost. -/
def execVbakLoss (s0 : State) : Out :=
  let s := s0.fresh
  if s.pwr.power != .backup then done s
  else done ((s.onPwr (fun p => { p with
    cnt := resetRec 256 Cnt.layout, scratch := 0, aon := fput (fput p.aon Aon.rtcSec 0) Aon.rtcSub 0 })).onTime (fun t => { t with xtal := 0 }))

/-- WAKE_CAUSE codes (R466). -/
def wakeCode : WakeSource → Nat
  | .resetN => 1 | .serviceBus => 2 | .usb4 => 3 | .gp31 => 4 | .alarm => 5

def State.wakeEnabled (s : State) : WakeSource → Bool
  | .resetN => true
  | .serviceBus => fbit s.pwr.aon Aon.wkSb
  | .usb4 => fbit s.pwr.aon Aon.wkUsb4
  | .gp31 => fbit s.pwr.aon Aon.wkGp31
  | .alarm => fbit s.pwr.aon Aon.alarmEn

/-- A wake that is no longer held starts the release. A wake by RESET_N counts PIN and samples the straps; after a thermal shutdown,
which has been counted, no other wake is counted (DEDUCED, log entry 57). -/
def State.wakeNow (code : Nat) (s : State) : State :=
  let counted := if code = 1 then s.countReset .pin else if s.pwr.thermalLater.isSome then s else s.countReset .wake
  (counted.onPwr (fun p => { p with wakeHeld := none })).startRelease (code == 1) (some code)

/-- A held wake starts once every supply is in range and the trip has re-armed. -/
def State.tryWake (s : State) : State :=
  match s.pwr.wakeHeld with
  | some c => if s.pwr.power = .watch && s.unheld then s.wakeNow c else s
  | none => s

/-- WAKE_START (R465). -/
def execWakeStart (source : WakeSource) (s0 : State) : Out :=
  let s := s0.fresh
  if s.pwr.power != .watch || !s.wakeEnabled source then done s
  else
    let c := s.pwr.wakeHeld.getD (wakeCode source)
    done ((s.onPwr (fun p => { p with wakeHeld := some c, aon := fput p.aon Aon.wakeCause c })).tryWake)

/-! ### The Ringmaster (R433, R390, R491) -/

/-- Open host insert units are abandoned (R394). -/
def State.dropInserts (s : State) : State :=
  (s.ctl.hq.filter (fun e => e.2.unitOpen)).foldl (fun s e =>
    (s.stopWriter e.2.ring).setHq e.1 { e.2 with unitOpen := false, unitLen := 0 }) s

/-- The recorder's buckets restart full and its counts at 0 (R455). -/
def RecSt.afterRestart (clk : BitVec 64) (r : RecSt) : RecSt :=
  { r with
    buckets := ((r.buckets.map (·.1)) ++ r.limits.map (·.1)).foldl (fun t c =>
      tset bucketReset t c ⟨(tget limitReset r.limits c).2 * 1000000000, clk⟩) []
    device := ⟨256000000000, clk⟩
    supCount := []
    restarted := true
    newCodes := [] }

/-- The salvos that a restart leaves (R21, R117, R123): an armed one is rebuilt from its arm register and its HELD entries here. -/
def State.rebuiltSalvos (s : State) : Tab Salvo :=
  (List.range 64).foldl (fun t n => if s.armed n = 0 then t else tset salvoReset t n { salvoReset 0 with
    state := .committed, entries := (heldOutputs s n).map (fun o => ⟨s.member, o, Sys2Proof.Machine.mergeRec RouteEntry.layout 0 (recBytes (s.routeP o))⟩)
    target := s.armed n, rebuilt := true, origin := s.member }) []

/-- What a restart of the Ringmaster loses; then the boot ROM checks the active slot, whatever BOOT_SRC holds (R491). -/
def State.restart (s0 : State) : State :=
  let cores := [0, 1, 2, 3].foldl (fun s m => s.isolateMaster m) s0.dropInserts
  let s := if fget s0.ptp.servo Servo.servoSrc = 0 then cores.holdRate else cores
  { s with
    ctl := { s.ctl with
      sessions := [], doneMap := 0, jobs := [], p2 := [], p3 := [], p4 := []
      mb := s.ctl.mb.foldl (fun t e =>
        tset Mb.idle t e.1 { Mb.idle e.1 with status := fput 0 MbStatus.dbIgnored (fget e.2.status MbStatus.dbIgnored) }) []
      midway := fput s.ctl.midway Midway.remap 0 }
    rte := { s.rte with salvos := s.rebuiltSalvos }
    cmp := { s.cmp with loads := [] }
    eth := { s.eth with sub := tmap subReset (fun _ v => { v with compat4 := 0, compat6 := 0, owed := [] }) s.eth.sub }
    rec_ := s.rec_.afterRestart s.time.clk
    upd := { s.upd with write := none }
    ptp := { s.ptp with
      fifo := []
      instSt := s.ptp.instSt.foldl (fun t e => tset instStReset t e.1 { e.2 with parent := none, pending := none, delay := none, foreign := [] }) [] }
    bud := { s.bud with rebuild := true }
    tst := { s.tst with memRun := none, shadowRun := none }
    pwr := { s.pwr with bootState := .rom, afterRestart := true, due := none } }

/-- Whether the Ringmaster has been released and is not held. -/
def State.coresRun (s : State) : Bool := s.fastOn && s.pwr.bootState != .stopped

/-- RM_WATCHDOG (R451, R470). -/
def execRmWatchdog (s0 : State) : Out :=
  let s := s0.fresh
  if !s.coresRun then done s else done (((s.countReset .wdog).raise0 0x09 locCore).restart)

/-- RINGMASTER_RESTART (R410, R427): 1 ms after the response that announced it. -/
def execRingmasterRestart (s0 : State) : Out :=
  let s := s0.fresh
  match s.pwr.due with
  | some (.restart, _) => done s.restart
  | _ => done s

/-- SRAM_CORRECTED (R451). -/
def execSramCorrected (s : State) : Out := done (s.fresh.raise0 0x25 locCore)

/-- SRAM_UNCORR (R451): the Ringmaster restarts. -/
def execSramUncorr (s0 : State) : Out :=
  let s := s0.fresh
  if !s.coresRun then done s else done ((s.raise0 0x26 locCore).restart)

/-! ### Boot (R480 to R482, R492, R493) -/

/-- A slot becomes the active one; the other, where it was ACTIVE, WRITTEN (R491). -/
def State.activateSlot (slot : Nat) (s : State) : State :=
  let other := 1 - slot
  s.writeTable (fun t =>
    let t1 := if fget t (stateFld other) = slotActive then fput t (stateFld other) slotWritten else t
    fput (fput t1 SlotTab.active slot) (stateFld slot) slotActive)

/-- The image has passed: REMAP is 1 and the firmware starts (R480). -/
def State.bootImage (s : State) : State :=
  let s1 := if s.bootLink 0 then s.stopLink 0 else s
  (s1.onPwr (fun p => { p with bootState := .starting })).onCtl (fun c => { c with midway := fput c.midway Midway.remap 1 })

/-- Rescue Boot (R492): a primary with a READY shadow yields with reason RESCUE (R360). -/
def State.rescueBoot (slot reason : Nat) (s : State) : State :=
  let s0 := if s.bootLink 0 then s.stopLink 0 else s
  let s1 := (s0.rejectImage slot reason).onPwr (fun p => { p with bootState := .rescue })
  if s1.role = .primary && s1.shadowReady && s1.twin.yield.isNone then s1.yieldNow 3 (s1.now + 500000) else s1

/-- IMAGE_CHECK (R480, R486): of the active slot, or in a boot from member 0 of the slot the table does not mark ACTIVE (R481), which
it then activates. -/
def execImageCheck (verdict : ImageVerdict) (s0 : State) : Out :=
  let s := s0.fresh
  if s.pwr.bootState != .rom then done s
  else if s.pwr.bootSrc = 3 && !s.pwr.afterRestart then
    let slot := 1 - s.activeSlot
    match s.imageFails slot verdict with
    | none => done ((s.activateSlot slot).bootImage)
    | some why => done (s.rescueBoot slot why)
  else match s.imageFails s.activeSlot verdict with
    | none => done s.bootImage
    | some why => done (s.rescueBoot s.activeSlot why)

/-- FIRMWARE_START (R480, R456): the records owed, FW_START, FW_UP. The start is taken to follow a check that passed. -/
def execFirmwareStart (major minor : BitVec 8) (build : BitVec 16) (s0 : State) : Out :=
  let s := s0.fresh
  if s.pwr.bootState != .rom && s.pwr.bootState != .starting then done s
  else
    let s1 := (if s.pwr.bootState = .rom then s.bootImage else s).takeNotes
    let s2 := match s1.pwr.powerWas with
      | some w => s1.raise ⟨0x00, locAon, true, 0, leBytes 1 w ++ leBytes 1 2⟩
      | none => s1
    let s3 := s2.recordOnly ⟨0x0101, 0, true, 0, [BitVec.ofNat 8 major.toNat, BitVec.ofNat 8 minor.toNat] ++ leBytes 2 build.toNat ++
      leBytes 1 s2.activeSlot⟩ true s2.now 0xFF 0xFF
    done (s3.onPwr (fun p => { p with
      bootState := .firmware, fwMajor := major, fwMinor := minor, fwBuild := build, afterRestart := false, powerWas := none }))

/-- BUDGET_REBUILD (R84, R123): once the rebuild agrees, admissions resume, and HELD entries of salvos that are not armed go, but for those
of a salvo admitted since the restart. -/
def execBudgetRebuild (s0 : State) : Out :=
  let s := s0.fresh
  if !s.bud.rebuild || s.pwr.bootState != .firmware then done s else
  let stale := (List.range 64).filter (fun n => s.armed n == 0 && (s.salvo n).state != .admitted)
  let lost := stale.flatMap (heldOutputs s)
  let s1 := stale.foldl (fun s n => clearHeld n s) s
  let s2 := (List.range 64).foldl (fun s n => s.settleSalvo n) s1
  let s3 := (s2.onBud (fun b => { b with rebuild := false })).reportAll
  done (if lost.isEmpty then s3 else s3.raise ⟨0x69, locSwitch, true, 0, leBytes 2 lost.length⟩)

/-! ### Boot over Svanum (R480, R481) -/

/-- BOOT_PEER_RETRY: the boot ROM asks member 0 for its image while link 0 runs. -/
def execBootPeerRetry (s0 : State) : Out :=
  let s := s0.fresh
  if s.bootLink 0 && s.linkRuns 0 then done (s.sendMessage 0 msgImage (leBytes 4 0)) else done s

/-- An image in messages of at most 60,000 bytes, each after its offset. -/
def imageParts : Nat → Nat → List Byte → List (List Byte)
  | 0, _, _ => []
  | n + 1, o, bs => if bs.isEmpty then [] else (leBytes 4 o ++ bs.take 60000) :: imageParts n (o + 60000) (bs.drop 60000)

/-- BOOT_IMAGE_REQUEST (R481): member 0 serves its active image to a boot peer on an enabled link. -/
def execBootImageRequest (k : Fin 7) (s0 : State) : Out :=
  let s := s0.fresh
  if s.pwr.troupeId != 0 || s.pwr.bootState != .firmware || !fbit (s.linkRec k.val) Link.linkEn || !(s.linkSt k.val).boot ||
      !s.linkRuns k.val then done s
  else
    let img := (s.slotBytes s.activeSlot).take (s.slotSize s.activeSlot)
    done ((imageParts (img.length / 60000 + 1) 0 img).foldl (fun s b => s.sendMessage k.val msgImage b) s)

end Sys2Proof.Machine
end

