-- ==== Sys2Proof/Machine/Blocks.lean ====
section
/-! DEFINITION. Block resets (R472 to R474): what each block of R473 loses while it is held, and how it runs again. Records, flow
entries, ring descriptors and claims stay. -/

namespace Sys2Proof.Machine

open Sys2Proof

/-! ### What a block's reset clears in general -/

/-- Isolation and causes at the locations of a block end. -/
def State.blockReturns (here : Nat → Bool) (s : State) : State :=
  s.onFlt (fun f => { f with isolated := f.isolated.filter (fun p => !here p.2), cause := f.cause.filter (fun p => !here p.2) })

/-- A record with its read-only fields at their reset values: status cleared, configuration kept. -/
def statusCleared {n : Nat} (layout : List Fld) (r : BitVec n) : BitVec n :=
  layout.foldl (fun r f => if f.acc = .ro then fput r f f.rst else r) r

/-- A test in a block stops (R495). -/
def State.testsOff (here : Nat → Bool) (s : State) : State :=
  s.onTst (fun t => { t with lanes := t.lanes.filter (fun e => !here e.1) })

/-! ### SDI clusters -/

def State.holdSdi (b : Nat) (s : State) : State :=
  let lanes := [4 * b, 4 * b + 1, 4 * b + 2, 4 * b + 3]
  let s1 := lanes.foldl (fun s l => if s.rxFollower l then s else s.rxLose (.lane l) .noSignal false) s
  let s2 := lanes.foldl (fun s l =>
    let v := s.lane l
    let s1 := (s.setLane l { laneReset l with present := v.present }).onSdi (fun d => { d with ctr := tdel d.ctr l })
    match v.txOut with
    | some o => s1.emit (.quiet o)
    | none => s1) s1
  ((s2.blockReturns (fun p => p / 2 ^ 17 == locSdiRx (4 * b) / 2 ^ 17)).testsOff (fun k => k / 4 == b)).syncCands
    (lanes.flatMap s2.candsOf)

def State.runSdi (b : Nat) (s : State) : State :=
  [4 * b, 4 * b + 1, 4 * b + 2, 4 * b + 3].foldl (fun s l =>
    let v := s.lane l
    if v.present && s.rxOn l then s.setLane l (v.unlocked .searching) else s) s

/-! ### Media ports -/

def State.portFlows (s : State) (n : Nat) : List Nat := (s.flo.pkt.filter (fun e => fget e.2 PktFlow.port == n)).map (·.1)

def State.holdPort (n : Nat) (s : State) : State :=
  let rings := (List.range 8).flatMap (fun i => s.fedBy (8 * n + i))
  let s1 := s.portStop n
  let s2 := rings.foldl (fun s r => s.setDep r { depReset r with src := (s.dep r).src }) s1
  let s3 := (List.range 8).foldl (fun s i => s.setSub (8 * n + i) (subReset 0)) s2
  let s4 := s3.onEth (fun e => { e with
    ctr := e.ctr.filter (fun c => c.1 / 96 != n), fec := e.fec.filter (fun c => c.1 / 8 != n), bank := tdel e.bank n })
  let s5 := (s.portFlows n).foldl (fun s f => s.setPkt f (pktStReset f)) s4
  let s6 := s5.onPtp (fun p => { p with fifo := tdel p.fifo n, fifoEvent := tdel p.fifoEvent n })
  (s6.blockReturns (fun p => p / 2 ^ 17 == locEth n 0 / 2 ^ 17 && !(p / 2 ^ 10 % 128 == 10 || p / 2 ^ 10 % 128 == 15))).testsOff
    (fun k => 144 ≤ k && (k - 144) / 8 == n && k < 176)

def State.runPort (n : Nat) (s : State) : State :=
  let s1 := if fbit (s.ethPort n) EthPort.portEn then s.portTrain n else s
  ((s1.portFlows n).filter (fun f => fbit (s.pktRec f) PktFlow.flowEn)).foldl (fun s f => s.pktStart f) s1

/-! ### Svanum lanes -/

/-- The running links with a lane in a block. -/
def State.linksIn (s : State) (n : Nat) : List Nat :=
  (List.range 7).filter (fun k => s.linkOn k &&
    ((s.linkSt k).order ++ maskList 48 (fget (s.linkCfg k) Link.lanes)).any (fun l => l / 12 == n))

def State.holdSvanum (n : Nat) (s : State) : State :=
  let s1 := (s.linksIn n).foldl (fun s k => ((s.fallLink k).sayDown k 1).holdLink k) s
  let s2 := (List.range 12).foldl (fun s j =>
    let l := 12 * n + j
    (s.setSvLane l (statusCleared LaneRec.layout (s.svLane l))).setSvRun l (laneRunReset l)) s1
  (s2.blockReturns (fun p => p / 2 ^ 17 == locSvanumLane (12 * n) / 2 ^ 17 && p / 2 ^ 10 % 128 < 12)).testsOff
    (fun k => 176 ≤ k && (k - 176) / 12 == n)

/-- A link that lost a lane starts bring-up again (R474, R329). -/
def State.runSvanum (n : Nat) (s : State) : State := (s.linksIn n).foldl (fun s k => s.startLink k) s

/-! ### Composers, Calliope, Merge Unit -/

/-- One conversion: its open frame is abandoned, its layers and status are cleared, and its claims stay. -/
def State.holdConversion (n : Nat) (s : State) : State :=
  match (s.compSt n).run with
  | some v => (s.stopWriter (fget v.out CompOut.outRing)).setCompSt n (compStReset 0)
  | none => s.setCompSt n (compStReset 0)

def State.holdComposers (n : Nat) (s : State) : State :=
  let comps := [4 * n, 4 * n + 1, 4 * n + 2, 4 * n + 3]
  comps.foldl (fun s c =>
    let s1 := [0, 1, 2, 3].foldl (fun s k => (s.holdConversion (4 * c + k)).setCompState (4 * c + k) 0) s
    let s2 := (List.range 8).foldl (fun s l => (s.layerOff c l).setLaySt (8 * c + l) (layStReset 0)) s1
    s2.blockReturns (fun p => (List.range 10).any (fun m => p == locComp c m))) s

def State.holdCalliope (s : State) : State :=
  let rings := (s.cal.outHdr.filter (fun e => fbit e.2 AudOut.outEn)).map (fun e => fget e.2 AudOut.outRing)
  let s1 := rings.foldl (fun s r => s.setWr r { s.wr r with staged := [], unitOpen := false, buf := [] }) s
  let s2 := s1.calIdle.onCal (fun c => { c with
    inSt := [], clipOut := [], clipBus := [], satBus := [], blocked := [], blockedOnce := [], lastClip := [], lastSat := [] })
  s2.blockReturns (fun p => (List.range 4).any (fun e => p == locCal e))

def State.holdMerge (s : State) : State :=
  s.flo.merge.foldl (fun s e =>
    ((if fbit e.2 Merge.mergeEn then s.stopWriter (fget e.2 Merge.outRing) else s).setMerge e.1 (mergeStReset 0)).blockReturns
      (fun p => p == locMerge e.1)) s

/-! ### References, PTP, classifier, twins, recorder, debug port -/

/-- The reference engine loses its history; candidates start again from ABSENT. -/
def State.holdRef (s : State) : State :=
  (s.onRef (fun e => { RefSt.reset with
    eng := statusCleared RefEng.layout e.eng
    cand := e.cand.map (fun c => (c.1, statusCleared Cand.layout c.2))
    candSt := e.candSt.foldl (fun t c => tset candStReset t c.1 { candStReset 0 with activity := c.2.activity, detected := c.2.detected, rate := c.2.rate, amplitude := c.2.amplitude }) []
    plane := e.plane, planeSt := e.planeSt, pulse := e.pulse, pulseSt := e.pulseSt, clock := e.clock, clockSt := e.clockSt
    pinEdge := e.pinEdge })).blockReturns (· == locRef)

/-- The PTP clock block starts from the RTC (R302), its instances from LISTENING. -/
def State.holdPtp (s : State) : State :=
  let s1 := s.onTime (fun t => { t with clk := 0, base := 0, offset := fget s.pwr.aon Aon.rtcSec * 1000000000 * 2 ^ 32 })
  (s1.onPtp (fun p => { PtpSt.reset with
    inst := tmap instReset (fun _ v => statusCleared Inst.layout v) p.inst
    servo := statusCleared Servo.layout p.servo, using_ := fget p.servo Servo.ptpSel, corr := p.corr })).blockReturns (· == locPtp)

def State.runPtp (s : State) : State :=
  [0, 1, 2, 3].foldl (fun s i =>
    if fbit (s.inst i) Inst.instEn then s.setReason i (if (s.sub (instSub (s.inst i))).link == .up then 1 else 4) else s) s

/-- The status of R180 of every entry. -/
def State.holdClassifier (s : State) : State :=
  (s.onFlo (fun f => { f with table := f.table.map (fun e =>
    { e with present := false, pkts := 0, octets := 0, lastSeen := 0, peak := 0, overWindows := 0, windowSum := 0, within := none }) })).blockReturns
    (fun p => (List.range 4).any (fun n => p == locEth n 10))

/-- Heartbeats and path A. -/
def State.holdTwin (s : State) : State :=
  ((s.onTwin (fun t => { t with
    rec_ := fput (fput t.rec_ Twin.pathAOk 0) Twin.pathBOk 0, a := ⟨none, 0, 0, false⟩, b := ⟨none, 0, 0, false⟩, hb := [], hbSeq := 0 })).setLinkSt
      7 (linkStReset 7)).blockReturns (· == locTwin)

/-- The recorder writer leaves its isolation (R458). -/
def State.holdRecorder (s : State) : State :=
  ((s.isolateMaster 8).onRec (fun r => { r with isolated := false, failRun := 0 })).blockReturns (· == locRecorder)

/-! ### The blocks of R473 -/

/-- What block `b` loses as its reset begins. -/
def State.holdBlock (b : Nat) (s : State) : State :=
  if b < 36 then s.holdSdi b
  else if b < 40 then s.holdPort (b - 36)
  else if b < 44 then s.holdSvanum (b - 40)
  else if b < 48 then s.holdComposers (b - 44)
  else match b with
    | 48 => s.holdCalliope
    | 49 => s.holdRef
    | 50 => s.holdPtp
    | 51 => s.holdClassifier
    | 52 => s.holdMerge
    | 53 => s.isolateMaster 6
    | 54 => s.holdTwin
    | 55 => s.holdRecorder
    | 56 => (s.isolateMaster 7).onCtl (fun c => { c with p4 := [], jtagIr := 0xFF, jtagData := [] })
    | _ => s

/-- How block `b` runs again as its records say. -/
def State.runBlock (b : Nat) (s : State) : State :=
  if b < 36 then s.runSdi b
  else if b < 40 then s.runPort (b - 36)
  else if b < 44 then s.runSvanum (b - 40)
  else match b with
    | 49 => s.syncCands (List.range 16)
    | 50 => s.runPtp
    | 55 => s.raise (resetRecord s.pwr.cnt)
    | _ => s

/-- Bits that are ignored while ACTIVE (R473). -/
def stagingOnly : List Nat := [49, 50, 54]

/-- The blocks of a mask held: none during a release sequence. -/
def State.resetBlocks (mask : Nat) (s : State) : State :=
  if s.inRelease then s
  else
    let blocks := (maskList 57 mask).filter (fun b => !(s.pwr.power == .active && stagingOnly.contains b))
    blocks.foldl (fun s b =>
      (s.onPwr (fun p => { p with rstCtl := fput p.rstCtl RstCtl.blkBusy (listMask (b :: maskList 64 (fget p.rstCtl RstCtl.blkBusy))) })).holdBlock b) s

/-- BLK_RST (R472 to R474). -/
def execBlkRst (mask : BitVec 64) (s0 : State) : Out :=
  let s := s0.byHost
  done (if s.hostPort then s.resetBlocks mask.toNat else s)

/-- BLOCK_RESET_RELEASE (R474): after 1,024 XO cycles. -/
def execBlockResetRelease (b : Fin 57) (s0 : State) : Out :=
  let s := s0.fresh
  if !s.blockHeld b.val then done s
  else done ((s.onPwr (fun p => { p with
    rstCtl := fput p.rstCtl RstCtl.blkBusy (listMask ((maskList 64 (fget p.rstCtl RstCtl.blkBusy)).filter (· != b.val))) })).runBlock b.val)

end Sys2Proof.Machine
end

