-- ==== Sys2Proof/Machine/Monitors.lean ====
section
/-! DEFINITION. The monitors of the always-on domain (R464, R468, R469, R451): supplies, quadrant temperatures and their trips,
the skew between quadrants, the quadrant PLLs and VBAK. -/

namespace Sys2Proof.Machine

open Sys2Proof

/-! ### Supplies -/

/-- The key of a monitor and, for VDD_CORE, its quadrant. -/
def monitorKey (m : Fin 6) (quad : Fin 5) : Nat := 5 * m.val + quad.val

def addTo (k : Nat) (l : List Nat) : List Nat := if l.contains k then l else l ++ [k]

/-- The objects of R540: MONITOR, QUADRANT, VOLTAGE. -/
def supplyObjs (m : Fin 6) (quad : Fin 5) (mv : BitVec 16) : List Byte :=
  leBytes 1 m.val ++ leBytes 1 (if m.val = 0 then quad.val else 0xFF) ++ leBytes 2 mv.toNat

/-- CAUSE of a code is held while some location of its source still reports it (R440). -/
def State.holdCause (code l : Nat) (still : Bool) (s : State) : State :=
  s.onFlt (fun f => { f with cause := if still then pinsert (code, l) f.cause else f.cause.filter (· != (code, l)) })

/-- SUPPLY_WARN (R451): a monitor leaves its warning band or returns to it. -/
def execSupplyWarn (m : Fin 6) (quad : Fin 5) (mv : BitVec 16) (back : Bool) (s0 : State) : Out :=
  let s := s0.fresh
  let k := monitorKey m quad
  checked (monitorOk m quad) <|
    if s.pwr.power = .backup || s.pwr.vWarn.contains k != back then done s
    else
      let s1 := s.onPwr (fun p => { p with vWarn := if back then p.vWarn.erase k else addTo k p.vWarn })
      if !s.fastOn then done s1
      else done ((s1.raise ⟨0x03, locAon, !back, 0, supplyObjs m quad mv⟩).holdCause 0x03 locAon (!s1.pwr.vWarn.isEmpty))

/-- SUPPLY_OK bit `m` follows its monitors. -/
def syncSupply (p : PwrSt) : PwrSt :=
  { p with aon := fput p.aon Aon.supplyOk (listMask ((List.range 6).filter (fun m => !p.vFail.any (fun k => k / 5 == m)))) }

/-- SUPPLY_FAIL (R451): fatal in STAGING and ACTIVE; in WATCH only SUPPLY_OK follows (R464). -/
def execSupplyFail (m : Fin 6) (quad : Fin 5) (mv : BitVec 16) (s0 : State) : Out :=
  let s := s0.fresh
  let k := monitorKey m quad
  checked (monitorOk m quad) <|
    if s.pwr.power = .backup || s.pwr.vFail.contains k then done s
    else
      let s1 := s.onPwr (fun p => syncSupply { p with vFail := addTo k p.vFail })
      if !s.fastOn then done s1 else done ((s1.raise ⟨0x04, locAon, true, 0, supplyObjs m quad mv⟩).reboundAll)

/-- SUPPLY_RETURN (R451): the last supply to come back releases CAUSE. A wake that waits starts 2 ms later (R465), at its own
WAKE_START. -/
def execSupplyReturn (m : Fin 6) (quad : Fin 5) (_mv : BitVec 16) (s0 : State) : Out :=
  let s := s0.fresh
  let k := monitorKey m quad
  checked (monitorOk m quad) <|
    if s.pwr.power = .backup || !s.pwr.vFail.contains k then done s
    else
      let s1 := s.onPwr (fun p => syncSupply { p with vFail := p.vFail.erase k })
      let s2 := s1.holdCause 0x04 locAon (!s1.pwr.vFail.isEmpty)
      done (if s.fastOn then s2.reboundAll else s2)

/-- VBAK_LOW (R509): while VAUX is present. -/
def execVbakLow (s0 : State) : Out :=
  let s := s0.fresh
  if s.pwr.power = .backup then done s
  else
    let s1 := s.onPwr (fun p => { p with vbakLow := true, aon := fput p.aon Aon.vbakOk 0 })
    done (if s.fastOn then s1.raise0 0x0B locBackup else s1)

/-! ### Temperatures -/

/-- TEMP_OVER and TEMP_TRIP follow the trips of the quadrants (R466). -/
def syncTrips (p : PwrSt) : PwrSt :=
  { p with aon := fput (fput p.aon Aon.tempOver (bit (!p.over105.isEmpty))) Aon.tempTrip (bit (!p.trip125.isEmpty)) }

/-- The objects of R540: QUADRANT, TEMPERATURE. -/
def thermalObjs (quad : Nat) (degrees : Int) : List Byte := leBytes 1 quad ++ [0] ++ leBytes 2 (unsgn 16 degrees)

/-- The conversions of a quadrant's Composers are isolated (R451, R436). -/
def State.isolateComposers (quad : Nat) (s : State) : State :=
  [0, 1, 2, 3].foldl (fun s j =>
    let c := 4 * quad + j
    [0, 1, 2, 3].foldl (fun s k => if fbit (s.compOut (4 * c + k)) CompOut.compEn then s.setCompState (4 * c + k) 3 else s)
      (s.isolate 0x06 (locComp c 9))) s

/-- THERMAL_OVER (R451): the 105 °C trip of a quadrant. -/
def execThermalOver (quad : Fin 4) (degrees : Int) (s0 : State) : Out :=
  let s := s0.fresh
  if s.pwr.power = .backup || s.pwr.over105.contains quad.val then done s
  else
    let s1 := s.onPwr (fun p => syncTrips { p with over105 := addTo quad.val p.over105 })
    if !s.fastOn then done s1
    else done (((s1.raise ⟨0x06, locAon, true, 0, thermalObjs quad.val degrees⟩).isolateComposers quad.val).reboundAll)

/-- THERMAL_TRIP (R465): every transmitter is squelched, the device enters Safety Net and goes to WATCH, and a reset is counted; the
event is recorded at the next wake. -/
def execThermalTrip (quad : Fin 4) (degrees : Int) (s0 : State) : Out :=
  let s := s0.fresh
  if s.pwr.power = .backup || s.pwr.trip125.contains quad.val then done s
  else
    let s1 := s.onPwr (fun p => syncTrips { p with trip125 := addTo quad.val p.trip125, over105 := addTo quad.val p.over105 })
    if !s.fastOn then done s1
    else
      let ev : Ev := ⟨0x07, locAon, true, 0, thermalObjs quad.val degrees⟩
      let s2 := (s1.enterSafetyNet).countReset .thermal
      done (s2.toWatch.onPwr (fun p => { p with thermalLater := some (s.now, ev) }))

/-- TEMPERATURE_TRIP_REARM (R464): below 100 °C both trips of the quadrant re-arm, and what waited for them goes on. -/
def execTemperatureTripRearm (quad : Fin 4) (s0 : State) : Out :=
  let s := s0.fresh
  if s.pwr.power = .backup then done (s.onPwr (fun p => syncTrips { p with over105 := p.over105.erase quad.val, trip125 := p.trip125.erase quad.val }))
  else
    let s1 := s.onPwr (fun p => syncTrips { p with over105 := p.over105.erase quad.val, trip125 := p.trip125.erase quad.val })
    let s2 := if s1.pwr.over105.isEmpty then s1.endCause 0x06 locAon else s1
    let s3 := if s1.pwr.trip125.isEmpty then s2.endCause 0x07 locAon else s2
    done (if s.fastOn then s3.reboundAll else s3.tryWake)

/-! ### Skew and PLLs (R469) -/

/-- The quadrants with the least and the greatest value, lower numbers first, and their difference. -/
def furthest (l : List Int) : Nat × Nat × Nat :=
  let lo := l.foldl min (l.headD 0)
  let hi := l.foldl max (l.headD 0)
  let a := l.idxOf lo
  let b := l.idxOf hi
  (min a b, max a b, (hi - lo).toNat)

/-- Whether a kind of sample exceeds its limit, and whether it lies within the limits of a return. -/
def skewOver (temperature : Bool) (l : List Int) : Bool := decide ((if temperature then 20 else 25) < (furthest l).2.2)
def skewNear (temperature : Bool) (l : List Int) : Bool := decide ((furthest l).2.2 ≤ if temperature then 16 else 20)

/-- SKEW_SAMPLE: the latest samples of both kinds are judged together. -/
def execSkewSample (temperature : Bool) (v0 v1 v2 v3 : Int) (s0 : State) : Out :=
  let s := s0.fresh
  if !s.fastOn then done s else
  let l := [v0, v1, v2, v3]
  let s1 := s.onPwr (fun p => if temperature then { p with quadC := l } else { p with quadMv := l.map Int.toNat })
  let mv : List Int := s1.pwr.quadMv.map Int.ofNat
  let tc := s1.pwr.quadC
  let skewed := skewOver false mv || skewOver true tc
  let near := skewNear false mv && skewNear true tc
  let kind := if temperature then skewOver true tc || !skewOver false mv else !skewOver false mv && skewOver true tc
  let (a, b, d) := furthest (if kind then tc else mv)
  let ev (active : Bool) : Ev := ⟨0x05, locAon, active, if kind then 2 else 1, leBytes 1 a ++ leBytes 1 b ++ leBytes 2 d⟩
  if !s1.pwr.skewBad then
    if skewed then done (((s1.onPwr (fun p => { p with skewBad := true, skewOkSince := none })).raise (ev true)).reboundAll) else done s1
  else if !near then done (s1.onPwr (fun p => { p with skewOkSince := none }))
  else match s1.pwr.skewOkSince with
    | none => done (s1.onPwr (fun p => { p with skewOkSince := some s1.time.clk }))
    | some c =>
      if (s1.time.clk - c).toNat < 1000000000 then done s1
      else done (((s1.onPwr (fun p => { p with skewBad := false, skewOkSince := none })).raise (ev false)).reboundAll)

/-- QPLL_UNLOCK (R451, R469). -/
def execQpllUnlock (quad : Fin 4) (s0 : State) : Out :=
  let s := s0.fresh
  if !s.fastOn then done s
  else done ((s.onPwr (fun p => { p with pllOk := false })).raise ⟨0x08, locAon, true, 0, leBytes 1 quad.val⟩)

end Sys2Proof.Machine
end

