-- ==== Sys2Proof/Machine/Recorder.lean ====
section
/-! DEFINITION. The event recorder (R452 to R459): draining the hardware queue, token buckets, the records programmed, session
notifications (R409), and REC_READ, REC_CLEAR and REC_LIMIT. -/

namespace Sys2Proof.Machine

open Sys2Proof

/-! ### Token buckets (R455) -/

/-- One token, in the buckets' unit. -/
def token : Nat := 1000000000

/-- A bucket's level now: `rate` tokens per second, at most `burst`. -/
def levelNow (b : Bucket) (rate burst : Nat) (clk : BitVec 64) : Nat := min (burst * token) (b.level + rate * (clk - b.at_).toNat)

/-- Whether a code takes a token of its own: fatal classes and CLEARED do not. -/
def ownToken (code : Nat) : Bool := code != 0x0100 && !(code < 256 && evClass code == 3)

def RecSt.codeLevel (r : RecSt) (code : Nat) (clk : BitVec 64) : Nat :=
  let l := tget limitReset r.limits code
  levelNow (tget bucketReset r.buckets code) l.1 l.2 clk

def RecSt.deviceLevel (r : RecSt) (clk : BitVec 64) : Nat := levelNow r.device 1000 256 clk

/-- Whether a record of the code may be written now. -/
def RecSt.allowed (r : RecSt) (code : Nat) (clk : BitVec 64) : Bool :=
  (!ownToken code || token ≤ r.codeLevel code clk) && token ≤ r.deviceLevel clk

/-- The tokens of one record are taken. -/
def RecSt.take (code : Nat) (clk : BitVec 64) (r : RecSt) : RecSt :=
  { r with
    buckets := if ownToken code then tset bucketReset r.buckets code ⟨r.codeLevel code clk - token, clk⟩ else r.buckets
    device := ⟨r.deviceLevel clk - token, clk⟩ }

/-- A record that is not written is counted. -/
def RecSt.suppress (code : Nat) (r : RecSt) : RecSt :=
  { r with supCount := tset natReset r.supCount code (sat32 (tget natReset r.supCount code) 1), suppressed := sat32 r.suppressed 1 }

/-! ### A record (R453, R454) -/

/-- The first sequence number from `n` on whose slot is not in a region marked bad (R451). -/
def skipBad (bad : List Nat) : Nat → Nat → Nat
  | 0, n => n
  | f + 1, n => if bad.contains (recRegion (n % 65536)) then skipBad bad f ((n / 8192 + 1) * 8192 % 2 ^ 32) else n

def RecSt.nextSeq (r : RecSt) : Nat := skipBad r.badRegions 8 r.next.toNat

/-- Bytes 0 to 119 of the record. CLEARED names its own sequence number. -/
def recordBody (seq : Nat) (e : QEnt) (lost : Bool) (sup : Nat) : List Byte :=
  let params := if e.ev.code = 0x0100 then (e.ev.params.take 4) ++ leBytes 4 seq ++ e.ev.params.drop 8 else e.ev.params
  leBytes 4 seq ++ leBytes 2 e.ev.code ++ leBytes 1 (if e.ev.code < 256 then evClass e.ev.code else 0) ++
    leBytes 1 (bit e.forced + 2 * bit e.soft + 4 * bit e.overflow + 8 * bit lost) ++ leBytes 8 e.time ++ leBytes 4 e.ev.loc ++
    leBytes 4 sup ++ leBytes 1 e.port ++ leBytes 1 e.member ++ fitBytes 6 [] ++ fitBytes 64 params ++ fitBytes 24 []

def recordBytes (body : List Byte) : List Byte := body ++ leBytes 4 (crc32c body) ++ leBytes 4 (2 ^ 32 - 1 - leNat (body.take 4))

/-- R409: the notifications of a written record. -/
def State.notifySessions (code : Nat) (bytes : List Byte) (s : State) : State :=
  (s.ctl.sessions.filter (fun x => code < 256 && x.events.getLsbD code)).foldl (fun s x =>
    let note := leBytes 2 0x01FF ++ leBytes 2 0 ++ leBytes 2 x.id ++ leBytes 2 128 ++ leBytes 8 s.now ++ bytes
    match x.port with
    | .p3 => s.sendInBand x.chan x.sender note
    | .p2 => if s.sbOn then s.sendP2 x.sender note else s
    | p => s.emit (.notify p x.sender note)) s

/-- The writer programs one record, or skips its slot where the programming fails: that slot is left without the MARK of its
sequence number (DESIGN CHOICE, log entry 60), and the sixteenth failure in a row isolates the writer (R451). -/
def State.program (e : QEnt) (fails : Bool) (s : State) : State :=
  let r := s.rec_
  let seq := r.nextSeq
  let code := e.ev.code
  let body := recordBody seq e (r.restarted && !r.newCodes.contains code) (tget natReset r.supCount code)
  let bytes := recordBytes body
  let next := BitVec.ofNat 32 (seq + 1)
  if fails then
    (s.onRec (fun r => { r with
      slots := tset bytesReset r.slots (seq % 65536) (bytes.take 124 ++ leBytes 4 seq)
      next := next, failRun := r.failRun + 1, isolated := r.isolated || decide (16 ≤ r.failRun + 1) })).raise0 0x27 locRecorder
  else
    (s.onRec (fun r => { r with
      slots := tset bytesReset r.slots (seq % 65536) bytes
      next := next, failRun := 0
      supCount := tset natReset r.supCount code 0
      newCodes := if r.restarted && !r.newCodes.contains code then r.newCodes ++ [code] else r.newCodes })).notifySessions code bytes

/-- A record under the rate limits: programmed or suppressed. An isolated writer records nothing. -/
def State.writeEntry (e : QEnt) (fails : Bool) (s : State) : State :=
  if s.rec_.isolated then s
  else if s.rec_.allowed e.ev.code s.time.clk then (s.onRec (RecSt.take e.ev.code s.time.clk)).program e fails
  else s.onRec (RecSt.suppress e.ev.code)

/-- A record of a firmware code, stamped by the Ringmaster in the SOFT class (R452, R456). -/
def State.softEntry (s : State) (code port member : Nat) (objs : List Byte) : QEnt :=
  ⟨⟨code, 0, true, 0, objs⟩, false, true, false, s.now, port, member⟩

/-- RECORD_WRITE (R452): one event leaves the queue. EVENT_QUEUE_OVERFLOW follows once room has returned (R451). -/
def execRecordWrite (programFails : Bool) (s0 : State) : Out :=
  let s := s0.fresh
  if s.pwr.bootState != .firmware || s.blockHeld 55 then done s
  else match s.flt.queue with
    | [] => done s
    | e :: rest =>
      let s1 := s.onFlt (fun f => { f with queue := rest, ovfOwed := false })
      let s2 := if s.flt.ovfOwed then s1.raise0 0x28 locRecorder else s1
      done (s2.writeEntry e programFails)

/-! ### REC_READ, REC_CLEAR, REC_LIMIT (R425, R457, R458) -/

/-- How far a sequence number lies past another. -/
def seqPast (a b : Nat) : Nat := (a + 2 ^ 32 - b % 2 ^ 32) % 2 ^ 32

/-- Up to `n` valid records from `start` on, before `next`, in order of their sequence numbers. -/
def recordsFrom (l : List (List Byte)) (next : Nat) : Nat → Nat → List (List Byte)
  | 0, _ => []
  | n + 1, start =>
    let l' := l.filter (fun r => seqPast (recSeq r) start < seqPast next start)
    match l'.foldl (fun a r => match a with
        | none => some r
        | some b => if seqPast (recSeq r) start < seqPast (recSeq b) start then some r else some b) none with
    | none => []
    | some r => r :: recordsFrom l' next n ((recSeq r + 1) % 2 ^ 32)

/-- The effective start of R457. -/
def RecSt.effective (r : RecSt) (from_ : Nat) : Nat :=
  let a := if seqLater r.low.toNat from_ then r.low.toNat else from_
  match oldestSeq (validRecords r) with
  | some o => if seqLater o a then o else a
  | none => a

def recReadBytes (r : RecSt) (from_ count : Nat) : List Byte :=
  let beyond := !seqLater r.next.toNat from_
  let start := if beyond then from_ else r.effective from_
  let recs := if beyond || !seqLater r.next.toNat start then [] else recordsFrom (validRecords r) r.next.toNat count start
  leBytes 4 (match recs with | [] => start | x :: _ => recSeq x) ++ leBytes 4 r.low.toNat ++ leBytes 4 r.next.toNat ++
    leBytes 1 recs.length ++ [0, 0, 0] ++ recs.flatten

def cmdRecRead (q : Req) (s : State) : Res := do
  Req.layout q 5
  needAt (1 ≤ Req.u8 q 4 && Req.u8 q 4 ≤ 7) 4
  return (s, recReadBytes s.rec_ (Req.u32 q 0) (Req.u8 q 4))

def execRecRead (q : Req) (s : State) : Out := serve 0x0D00 cmdRecRead q s

/-- The member that sent a command: PEER of its link on P1 (R453). -/
def State.senderMember (s : State) (q : Req) : Nat := if q.port = .p1 then fget (tget linkReset s.trp.link q.chan) Link.peer else 0xFF

/-- REC_CLEAR (R458). CLEARED takes a device-wide token, waiting for it where there is none (R455). -/
def cmdRecClear (q : Req) (s : State) : Res := do
  Req.layout q 0
  need (!s.rec_.isolated) eState
  let seq := s.rec_.nextSeq
  let s1 := s.onRec (RecSt.take 0x0100 s.time.clk)
  let s2 := s1.program (s1.softEntry 0x0100 (portIndex q.port) (s.senderMember q) []) false
  return (s2.onRec (fun r => { r with low := BitVec.ofNat 32 seq }), leBytes 4 seq)

def execRecClear (q : Req) (s : State) : Out := serve 0x0D01 cmdRecClear q s

def recLimitCheck (q : Req) : Except Err (Nat × Nat × Nat) := do
  Req.layout q 4
  let code := Req.u16 q 0
  needAt ((code < 256 && evDefined code) || (0x0100 ≤ code && code ≤ 0x0102)) 0
  needAt (1 ≤ Req.u8 q 2 && Req.u8 q 2 ≤ 100) 2
  needAt (1 ≤ Req.u8 q 3) 3
  return (code, Req.u8 q 2, Req.u8 q 3)

/-- REC_LIMIT (R455): the bucket holds at most its new BURST. LIMIT_CHANGED is recorded (R456). -/
def cmdRecLimit (q : Req) (s : State) : Res := do
  let (code, rate, burst) ← recLimitCheck q
  let level := min (s.rec_.codeLevel code s.time.clk) (burst * token)
  let s1 := s.onRec (fun r => { r with
    limits := tset limitReset r.limits code (rate, burst), buckets := tset bucketReset r.buckets code ⟨level, s.time.clk⟩ })
  let e := s1.softEntry 0x0102 0xFF 0xFF (leBytes 2 code ++ leBytes 1 rate ++ leBytes 1 burst ++ leBytes 1 (portIndex q.port))
  return (s1.writeEntry e false, [])

def execRecLimit (q : Req) (s : State) : Out := serve 0x0D02 cmdRecLimit q s

end Sys2Proof.Machine
end

