-- ==== Sys2Proof/Machine/Faults.lean ====
section
/-! DEFINITION. The fault collector's commands and registers (R443 to R446), forced events (R445, R539), the event controller's
configuration (R448, R449), and the errors of the collector and the MRAM (R443, R451). -/

namespace Sys2Proof.Machine

open Sys2Proof

/-! ### Where a source exists (R445, R539) -/

/-- The populated memory channels: eight on a reduced card (R34). -/
def populated (reduced : Bool) : List Nat := (List.range 16).filter (fun c => !reduced || c % 4 < 2)

def mediaLoc (l lo hi : Nat) : Bool := l / 2 ^ 17 % 16 == 9 && lo ≤ l / 2 ^ 10 % 128 && l / 2 ^ 10 % 128 ≤ hi
def sdiRxLoc (l : Nat) : Bool := l / 2 ^ 17 % 16 ≤ 8 && l / 2 ^ 10 % 128 ≤ 3
def sdiTxLoc (l : Nat) : Bool := l / 2 ^ 17 % 16 ≤ 8 && 4 ≤ l / 2 ^ 10 % 128 && l / 2 ^ 10 % 128 ≤ 7
/-- Engines of Composers within `lo` to `hi` of each (R27). -/
def compLoc (l lo hi : Nat) : Bool :=
  l / 2 ^ 17 % 16 == 12 && l / 2 ^ 10 % 128 < 64 && lo ≤ l / 2 ^ 10 % 16 && l / 2 ^ 10 % 16 ≤ hi
def calLoc (l : Nat) : Bool := l / 2 ^ 17 == 14 && l / 2 ^ 10 % 128 ≤ 3
def linkLoc (l : Nat) : Bool := l / 2 ^ 17 == 10 && 12 ≤ l / 2 ^ 10 % 128 && l / 2 ^ 10 % 128 ≤ 18
def svLaneLoc (l : Nat) : Bool := l / 2 ^ 17 % 16 == 10 && l / 2 ^ 10 % 128 ≤ 11

/-- Readers of tiles: outputs, packetisers, merge legs, layers, Calliope, capture queues and exports (R16, R434). -/
def readerLoc (l : Nat) : Bool :=
  sdiTxLoc l || mediaLoc l 13 13 || mediaLoc l 15 15 || compLoc l 0 7 || calLoc l || l == locHost || linkLoc l
/-- Writers of rings: receivers, depacketisers, merged pairs, Composers, Calliope, host inserts and imports (R16). -/
def writerLoc (l : Nat) : Bool :=
  sdiRxLoc l || mediaLoc l 14 15 || compLoc l 9 9 || calLoc l || l == locHost || linkLoc l

/-- Whether the source of a defined code exists at a location: R539, and for every other source what its own chapter says of it
(DEDUCED, log entry 59). -/
def locExists (reduced : Bool) (c l : Nat) : Bool :=
  if c = 0x23 || c = 0x24 then (List.range 64).any (fun r => l == locMram r)
  else if c = 0x6A then (List.range 16).any (fun r => l == locMram (36 + r))
  else if c = 0xFE || c = 0xFF then l == locMram 0 || l == locMram 16
  else if l % 2 ^ 10 != 0 || 2 ^ 23 ≤ l then false
  else if c ≤ 0x08 || c = 0x0A then l == locAon
  else if c = 0x09 || c = 0x25 || c = 0x26 then l == locCore
  else if c = 0x0B then l == locBackup
  else if c ≤ 0x22 then l == locCollector
  else if c ≤ 0x28 then l == locRecorder
  else if c ≤ 0x41 then readerLoc l
  else if c = 0x42 then writerLoc l
  else if c ≤ 0x44 then (List.range 4).any (fun q => l == locCheckCache q)
  else if c ≤ 0x48 then (populated reduced).any (fun k => l == locChannel k)
  else if c ≤ 0x61 then l == locBudget
  else if c ≤ 0x64 || c = 0x69 then l == locSwitch
  else if c ≤ 0x68 then sdiTxLoc l || mediaLoc l 13 13 || l == locSwitch
  else if c ≤ 0x8C then sdiRxLoc l || mediaLoc l 14 14
  else if c = 0x8D then sdiTxLoc l
  else if c = 0xA2 then mediaLoc l 9 9
  else if c ≤ 0xA3 || c = 0xA9 then mediaLoc l 0 7
  else if c ≤ 0xA8 then mediaLoc l 10 10
  else if c = 0xB0 then mediaLoc l 14 14
  else if c ≤ 0xB5 then mediaLoc l 15 15
  else if c ≤ 0xC3 then compLoc l 0 7
  else if c = 0xC4 then compLoc l 0 7 || compLoc l 9 9
  else if c ≤ 0xC6 then compLoc l 9 9
  else if c = 0xD0 || c = 0xD1 then sdiTxLoc l || mediaLoc l 13 13 || l == locSwitch || (c == 0xD0 && calLoc l)
  else if c ≤ 0xD6 then calLoc l
  else if c ≤ 0xE9 then l == locRef
  else if c ≤ 0xEF then l == locPtp
  else if c = 0xF3 then svLaneLoc l
  else if c ≤ 0xF5 then linkLoc l
  else if c ≤ 0xFB then l == locTwin
  else if c = 0xFC then l == locHost
  else l == locMidway

/-! ### Parity of the collector (R443) -/

/-- The dedicated path into Safety Net: no first-fault record, no classification, no escalation. -/
def State.parityTrip (forced : Bool) (s : State) : State :=
  let s1 := s.onFlt (fun f => { f with ctl := fput f.ctl FaultCtl.parityTrip 1 })
  (s1.note (Ev.plain 0x20 locCollector) forced).enterSafetyNet

def execCollectorParity (s : State) : Out := done (s.fresh.parityTrip false)

/-! ### Forced events (R445) -/

/-- Outputs whose reader is at a location. -/
def State.outsAt (s : State) (l : Nat) : List Nat := (s.rte.active.map (·.1)).filter (fun o => s.locOut o == l)

/-- Contained sources whose unit is a tile, a take, a table or a record, or which keep no unit of their own: their reaction ends with the event,
and what it does to the table (R241). -/
def passing : List Nat := [0x27, 0x40, 0x41, 0x64, 0xC4, 0xC5, 0xD5, 0xD6]

/-- R241, R445: a forced COMP_LUT_PARITY names no bank, so every bank of the tables at its location acts as identity: the LIN tables of a
layer, or the tone and 3D tables of a Composer (DESIGN CHOICE, log entry 132). -/
def State.badTables (l : Nat) (s : State) : State :=
  let keys := (List.range 16).flatMap (fun c => (List.range 8).flatMap (fun k => if l == locComp c k then [0, 1].map (fun b => bankKey 0 b (8 * c + k)) else []) ++
    (if l == locComp c 9 then [1, 2].flatMap (fun t => [0, 1].map (fun b => bankKey t b c)) else []))
  s.onCmp (fun e => { e with lutBad := keys.foldl (fun l k => if l.contains k then l else l ++ [k]) e.lutBad })

/-- R266, R445: a forced CAL_COEFF_PARITY names no coefficient, so every one of the engine at its location goes: the channels of the shuffle, the
buses of the mixer, the channels and buses with an instance of the dynamics, the taps of the delay (DESIGN CHOICE, log entry 132). -/
def State.badCoeffs (l : Nat) (s : State) : State :=
  let more (a b : List Nat) : List Nat := b.foldl (fun l k => if l.contains k then l else l ++ [k]) a
  let slots (t : List Nat) : List Nat := t.flatMap (fun i => (List.range 16).map (16 * i + ·))
  let dyns := (s.cal.dyn.filter (fun x => fbit x.2 Dyn.dynEn)).map (·.2)
  if l = locCal 0 then s.onCal (fun c => { c with offCh := more c.offCh (slots ((c.outHdr.filter (fun x => fbit x.2 AudOut.outEn)).map (·.1))) })
  else if l = locCal 1 then s.onCal (fun c => { c with offBus := more c.offBus ((c.bus.filter (fun x => fbit x.2 Bus.busEn)).map (·.1)) })
  else if l = locCal 2 then s.onCal (fun c => { c with
    offBus := more c.offBus ((dyns.filter (fun r => !fbit r Dyn.attachKind)).map (fun r => fget r Dyn.attachIndex))
    offCh := more c.offCh ((dyns.filter (fun r => fbit r Dyn.attachKind)).flatMap (fun r =>
      ((List.range 16).filter (maskBit (fget r Dyn.chMask))).map (16 * fget r Dyn.attachIndex + ·))) })
  else if l = locCal 3 then s.onCal (fun c => { c with offIn := more c.offIn (slots ((c.audIn.filter (fun x => fbit x.2 AudIn.inEn)).map (·.1))) })
  else s

/-- The reaction of the unit itself, beyond what its isolation does wherever the unit is used. -/
def State.unitReaction (c l : Nat) (s : State) : State :=
  match c with
  | 0x06 => [0, 1, 2, 3].foldl (fun s q => s.isolateComposers q) s
  | 0x24 => s.onRec (fun r => { r with badRegions := addTo (l / 2 ^ 10 % 128) r.badRegions })
  | 0x61 => s.onBud (fun b => { b with blocked := true })
  | 0x68 => (s.outsAt l).foldl (fun s o => s.setOut o { s.out o with parity := true }) s
  | 0x84 | 0x85 => (List.range 144).foldl (fun s k => if l == locSdiRx k then s.rxStop (.lane k) true else s) s
  | 0xC4 => s.badTables l
  | 0xE9 => s.onRef (fun e => { e with eng := fput e.eng RefEng.freqCorr 0 })
  | 0xD6 => s.badCoeffs l
  | 0x8D => (List.range 144).foldl (fun s k => if l == locSdiTx k then s.txIsolate k else s) s
  | 0xF4 => (List.range 7).foldl (fun s k => if l == locLink k && s.linkOn k then (s.fallLink k).holdLink k else s) s
  | _ => s

/-- R445: one event as the source would raise it, flagged FORCED, with the full reaction of its class. -/
def State.force (c l : Nat) (s : State) : State :=
  if c = 0x20 then s.parityTrip true
  else
    let e := Ev.plain c l
    let s1 := if evClass c = 2 && !passing.contains c then s.contain e true else s.raiseWith e true
    (s1.unitReaction c l)

/-- Whether the forced event restarts the Ringmaster (R451). -/
def restarts (c : Nat) : Bool := c == 0x09 || c == 0x26

/-- CODE, reserved bytes and LOCATION of FAULT_CLEAR and FAULT_FORCE (R425). -/
def codeAndLoc (q : Req) : Except Err (Nat × Nat) := do
  Req.layout q 8
  needAt (Req.u16 q 0 < 256 && evDefined (Req.u16 q 0)) 0
  Req.zeroAt q 2 2
  return (Req.u16 q 0, Req.u32 q 4)

def faultForceCheck (q : Req) (s : State) : Except Err (Nat × Nat) := do
  let (c, l) ← codeAndLoc q
  needAt (locExists s.pwr.reduced c l) 4
  return (c, l)

/-- FAULT_FORCE (R445). A forced event that restarts the Ringmaster leaves the restart due at once. -/
def cmdFaultForce (q : Req) (s : State) : Res := do
  let (c, l) ← faultForceCheck q s
  let s1 := if c = 0x09 then s.countReset .wdog else s
  let s2 := s1.force c l
  return (if restarts c then s2.onPwr (fun p => { p with due := some (.restart, s.time.clk) }) else s2, [])

def execFaultForce (q : Req) (s : State) : Out := serve 0x0E02 cmdFaultForce q s

/-- FORCE (R448): only an 8-byte write raises the event; a reserved code or a location without the source is ignored. -/
def State.forceWrite (w : BitVec 64) (s : State) : State :=
  let c := w.toNat % 256
  let l := w.toNat / 2 ^ 32 % 2 ^ 24
  if !evDefined c || !locExists s.pwr.reduced c l then s
  else
    let s1 := (if c = 0x09 then s.countReset .wdog else s).force c l
    if restarts c && s1.coresRun then s1.restart else s1

def execForce (w : BitVec 64) (whole : Bool) (s0 : State) : Out :=
  let s := s0.byHost
  if whole && s.hostPort then done (s.forceWrite w) else done s

/-! ### FAULT_READ, FAULT_CLEAR (R444, R446) -/

/-- STATUS or CAUSE: bit c for code c. -/
def codeBits (l : List (Nat × Nat)) : Nat := listMask ((List.range 256).filter (fun c => l.any (fun p => p.1 == c)))

/-- The collector block, 192 bytes (R444). -/
def State.collectorBytes (s : State) : List Byte :=
  let f := s.flt
  let first (k : Nat) : List Byte := recBytes (tget (fun _ => (0 : BitVec 256)) f.first k)
  first 1 ++ first 2 ++ first 3 ++ recBytes f.ctl ++ leBytes 32 (codeBits f.status) ++ leBytes 32 (codeBits f.cause)

def cmdFaultRead (q : Req) (s : State) : Res := do
  Req.layout q 0
  return (s, s.collectorBytes)

def execFaultRead (q : Req) (s : State) : Out := serve 0x0E00 cmdFaultRead q s

/-- Sources whose own rule gives the way back (R446): the clear removes only the status. -/
def ownWay : List Nat := [0x27, 0x44, 0x68, 0x8D, 0xA8, 0xC4, 0xD6]

/-- A contained unit returns to service. -/
def State.unitReturn (c l : Nat) (s : State) : State :=
  if ownWay.contains c then s
  else
    let s1 := s.onFlt (fun f => { f with isolated := f.isolated.filter (fun p => !(p.1 == c && (p.2 == l || c == 0x06))) })
    match c with
    | 0x24 => s1.onRec (fun r => { r with badRegions := r.badRegions.erase (l / 2 ^ 10 % 128) })
    | 0x61 => s1.onBud (fun b => { b with blocked := false })
    | _ => s1

/-- STATUS of the named locations clears; with the last of its class goes the first-fault record, unless it is frozen (R443), and
REACTION falls. -/
def clearStatus (c : Nat) (named : List (Nat × Nat)) (f : FltSt) : FltSt :=
  let f1 := { f with status := f.status.filter (fun p => !named.contains p) }
  let k := evClass c
  let f2 := if !named.isEmpty && !fbit f.ctl FaultCtl.parityTrip && !f1.status.any (fun p => evClass p.1 == k) then
      { f1 with first := tset (fun _ => 0) f1.first k 0 } else f1
  { f2 with ctl := fput f2.ctl FaultCtl.reaction (reaction f2) }

def faultClearCheck (q : Req) (s : State) : Except Err (Nat × List (Nat × Nat)) := do
  let (c, l) ← codeAndLoc q
  needAt (l < 2 ^ 24 || l == 0xFFFFFFFF) 4
  let all := l == 0xFFFFFFFF
  let names (p : Nat × Nat) : Bool := p.1 == c && (all || p.2 == l)
  need (!(fbit s.flt.ctl FaultCtl.parityTrip && evClass c == 3)) eState
  need (!s.flt.cause.any names) eState
  return (c, s.flt.status.filter names)

def cmdFaultClear (q : Req) (s : State) : Res := do
  let (c, named) ← faultClearCheck q s
  let s1 := s.onFlt (clearStatus c named)
  return (if evClass c = 2 then named.foldl (fun s p => s.unitReturn p.1 p.2) s1 else s1, [])

def execFaultClear (q : Req) (s : State) : Out := serve 0x0E01 cmdFaultClear q s

/-! ### The event controller (R448, R449) -/

/-- VECTOR and ENABLE of a code. -/
def State.setEvent (c vector enable : Nat) (s : State) : State :=
  let w := fput (fput (tget evCfgReset s.flt.evCfg c) EvCfg.vector vector) EvCfg.enable enable
  s.onFlt (fun f => { f with evCfg := tset evCfgReset f.evCfg c w })

def eventConfigCheck (q : Req) : Except Err Unit := do
  Req.layout q 3
  needAt (Req.u8 q 1 < 64) 1
  needAt (Req.u8 q 2 < 2) 2

def cmdEventConfig (q : Req) (s : State) : Res := do
  eventConfigCheck q
  return (s.setEvent (Req.u8 q 0) (Req.u8 q 1) (Req.u8 q 2), [])

def execEventConfig (q : Req) (s : State) : Out := serve 0x0E03 cmdEventConfig q s

/-- PENDING of a code cleared (R449). -/
def State.clearPending (c : Nat) (s : State) : State :=
  s.onFlt (fun f => { f with evCfg := tset evCfgReset f.evCfg c (fput (tget evCfgReset f.evCfg c) EvCfg.pending 0) })

def execPendingClear (c : Fin 256) (s0 : State) : Out :=
  let s := s0.byHost
  if s.hostPort then done (s.clearPending c.val) else done s

/-! ### The MRAM (R451) -/

def execMramCorrected (region : Fin 64) (s : State) : Out := done (s.fresh.raise0 0x23 (locMram region.val))

/-- MRAM_UNCORR: the region is marked bad. -/
def execMramUncorr (region : Fin 64) (s0 : State) : Out :=
  let s := s0.fresh
  done ((s.contain (Ev.plain 0x24 (locMram region.val)) false).unitReaction 0x24 (locMram region.val))

end Sys2Proof.Machine
end

