-- ==== Sys2Proof/Machine/Session.lean ====
section
/-! DEFINITION. SESSION and PRIV commands (R408 to R410): the ID record, notification sessions, the power states STAGING and
ACTIVE (R461, R462), the fabric profile (R76), budget queries (R84, R542), announced resets and the Port Privilege Table. -/

namespace Sys2Proof.Machine

open Sys2Proof

/-! ### The ID and version record (R373) -/

def profileCode : Profile → Nat
  | .balanced => 0 | .matrix => 1 | .workshop => 2 | .peering => 3 | .tightrope => 4 | .economy => 5

def profileOf : Nat → Option Profile
  | 0 => some .balanced | 1 => some .matrix | 2 => some .workshop | 3 => some .peering | 4 => some .tightrope | 5 => some .economy
  | _ => none

/-- Whether every populated channel has trained (R30). -/
def State.trainedAll (s : State) : Bool := (populated s.pwr.reduced).all (fun c => (tget chanReset s.mem.chans c).trained)

def State.idRecord (s : State) : BitVec 256 :=
  let p := s.pwr
  [(IdBlk.fwMinor, p.fwMinor.toNat), (IdBlk.fwMajor, p.fwMajor.toNat), (IdBlk.fwBuild, p.fwBuild.toNat),
    (IdBlk.reduced, bit (p.reduced && s.trainedAll)), (IdBlk.troupeId, p.troupeId.toNat), (IdBlk.twinRole, bit p.twinStrap),
    (IdBlk.bootSrc, p.bootSrc.toNat), (IdBlk.clkMode, p.clkMode.toNat), (IdBlk.hostRate, p.hostRate.toNat),
    (IdBlk.power, powerCode p.power), (IdBlk.profile, profileCode s.bud.profile), (IdBlk.role, fget s.twin.rec_ Twin.role),
    (IdBlk.fwUp, bit (p.bootState == .firmware)), (IdBlk.rescue, bit (p.bootState == .rescue)), (IdBlk.safetyNet, bit s.safetyNet),
    (IdBlk.unitId, Config.unitId.toNat), (IdBlk.ptpNow, s.now)].foldl (fun r x => fput r x.1 x.2) (resetRec 256 IdBlk.layout)

/-- SESSION_INFO (R408). -/
def cmdSessionInfo (q : Req) (s : State) : Res := do
  Req.layout q 0
  return (s, recBytes s.idRecord)

def execSessionInfo (q : Req) (s : State) : Out := serve 0x0100 cmdSessionInfo q s

/-! ### Sessions (R409) -/

/-- The lowest number of the sixteen that no session has. -/
def State.freeSession (s : State) : Option Nat := (List.range 16).find? (fun n => !s.ctl.sessions.any (fun x => x.id == n))

def sessionPort (p : Port) : Bool := p != .p0 && p != .p4

def cmdSessionOpen (q : Req) (s : State) : Res := do
  Req.layout q 32
  need (sessionPort q.port) eState
  match s.freeSession with
  | none => err eBusy
  | some n =>
    return (s.onCtl (fun c => { c with
      sessions := c.sessions ++ [⟨n, q.port, q.chan, q.sender, BitVec.ofNat 256 (Req.num q 32 0)⟩] }), leBytes 2 n)

def execSessionOpen (q : Req) (s : State) : Out := serve 0x0101 cmdSessionOpen q s

/-- The open session of a number that belongs to the sender (R403). -/
def State.ownSession (s : State) (q : Req) (n : Nat) : Bool :=
  s.ctl.sessions.any (fun x => x.id == n && x.port == q.port && x.sender == q.sender)

def cmdSessionClose (q : Req) (s : State) : Res := do
  Req.layout q 2
  needAt (s.ownSession q (Req.u16 q 0)) 0
  return (s.onCtl (fun c => { c with sessions := c.sessions.filter (fun x => x.id != Req.u16 q 0) }), [])

def execSessionClose (q : Req) (s : State) : Out := serve 0x0102 cmdSessionClose q s

/-! ### POWER_SET (R438, R461, R462) -/

/-- Some fatal STATUS is set, whatever `but`. -/
def State.fatalSet (s : State) (but : List Nat) : Bool := s.flt.status.any (fun p => evClass p.1 == 3 && !but.contains p.1)

/-- Safety Net ends: SAFETY_NET with ACTIVE 0, the pending reset is cancelled and exports resume (R436, R438). -/
def State.leaveSafetyNet (s : State) : State :=
  if !s.safetyNet then s else
  let s1 := s.onFlt (fun f => { f with ctl := fput f.ctl FaultCtl.safetyNet 0, fatalAt := none })
  let s2 := s1.raiseEnd 0x22 locCollector
  ((List.range 7).filter (fun k => s2.linkRuns k)).foldl (fun s k => (s.refit k).1) s2

/-- Channels that failed are to be trained again (R33). -/
def State.retrain (which : Chan → Bool) (s : State) : State :=
  s.mem.chans.foldl (fun s e => if which e.2 then s.onChan e.1 (fun c => { c with trained := false }) else s) s

/-- A device that leaves ACTIVE loses its twin role (R347). -/
def State.loseRole (s : State) : State :=
  if s.role = .solo then s
  else (s.setRole 0 0).onTwin (fun t => { t with
    fallAt := none, yield := none, take := none, mirrors := [], own := [], mine := [], theirs := [], diverged := [], matched := []
    resync := none, resynced := false, mirroring := false, handAt := 0 })

/-- A change between STAGING and ACTIVE, with its record. -/
def State.setPower (p : Power) (s : State) : State :=
  let s1 := s.onPwr (fun x => { x with power := p })
  (s1.raise ⟨0x00, locAon, true, 0, leBytes 1 (powerCode s.pwr.power) ++ leBytes 1 (powerCode p)⟩).reboundAll

def State.enterStaging (s : State) : State :=
  let s1 := if s.pwr.power = .active then (s.setPower .staging).loseRole else s
  s1.leaveSafetyNet.retrain (·.failed)

def State.enterActive (s : State) : State :=
  if s.pwr.power = .active then s
  else (s.onCtl (fun c => { c with midway := fput c.midway Midway.maint 0 })).setPower .active

/-- Counter value 1 ms from now, at which an announced reset begins (R410). -/
def State.dueAt (s : State) : BitVec 64 := s.time.clk + 1000000

def powerSetCheck (q : Req) (s : State) : Except Err Nat := do
  Req.layout q 1
  let v := Req.u8 q 0
  needAt (1 ≤ v && v ≤ 3) 0
  if v = 1 then
    need (s.pwr.power == .staging) eState
  else if v = 2 then
    need (!fbit s.flt.ctl FaultCtl.parityTrip && !s.fatalSet [0x48]) eState
    need (!(s.role == .primary && s.sync != 0)) eState
  else
    need (s.trainedAll && !s.fatalSet [] && !s.flt.isolated.any (fun p => p.1 == 0x47)) eState
  return v

def cmdPowerSet (q : Req) (s : State) : Res := do
  let v ← powerSetCheck q s
  let s1 := if v = 1 then s.onPwr (fun p => { p with due := some (.watch, s.dueAt) })
    else if v = 2 then s.enterStaging else s.enterActive
  return (s1, leBytes 1 v)

def execPowerSet (q : Req) (s : State) : Out := serve 0x0103 cmdPowerSet q s

/-! ### PROFILE_SET (R76, R77) -/

/-- A change into or out of a profile. -/
def crosses (p a b : Profile) : Bool := a != b && (a == p || b == p)

def profileSetCheck (q : Req) (s : State) : Except Err Profile := do
  Req.layout q 1
  match profileOf (Req.u8 q 0) with
  | none => errAt eRange 0
  | some p =>
    let old := s.bud.profile
    need (!s.bud.blocked) eState
    need (s.bud.nextProfile.isNone) eBusy
    need (s.pwr.power == .staging || !(crosses .tightrope old p || crosses .economy old p)) eState
    need (!(crosses .tightrope old p && (s.trp.exp.any (fun e => fbit e.2 Export.expEn) || s.trp.imp.any (fun e => fbit e.2 Import.impEn)))) eState
    match profileBad p s with
    | some (res, obj, needed, avail) => errBudget res needed avail (budgetSub res obj)
    | none =>
      if crosses .economy old p && p == .economy && economyUse s != 0 then errBudget 0x60 (economyUse s) 0
      else return p

/-- The change waits for the next turn boundary, and so does the response. -/
def cmdProfileSet (q : Req) (s : State) : Except Err Ans := do
  let p ← profileSetCheck q s
  return .later (s.onBud (fun b => { b with nextProfile := some p })) (.profile (profileCode p)) []

def execProfileSet (q : Req) (s : State) : Out := serveAns 0x0104 cmdProfileSet q s

/-! ### BUDGET_QUERY (R84, R408, R542) -/

def State.classEntry (s : State) (c : Nat) : BitVec 64 :=
  let used := resUsed s c 0
  fput (fput (fput 0 BudgetEntry.limit (classLimit s.bud.profile s.pwr.reduced c)) BudgetEntry.used used) BudgetEntry.high
    (max used (tget natReset s.bud.high c))

def State.resEntry (s : State) (e : Nat × Nat) : List Byte :=
  leBytes 2 e.1 ++ leBytes 2 e.2 ++ leBytes 4 (resLimit s.bud.profile s e.1 e.2) ++ leBytes 4 (resUsed s e.1 e.2)

def cmdBudgetQuery (q : Req) (s : State) : Res := do
  Req.layout q 6
  needAt (Req.u32 q 0 < 2) 0
  let some_ := (resEntries.drop (Req.u16 q 4)).take 80
  let res := ([1, 2, 3, 4, 5].flatMap (fun c => recBytes (s.classEntry c))) ++ leBytes 2 some_.length ++ leBytes 2 resEntries.length ++
    some_.flatMap s.resEntry
  let cleared := s.onBud (fun b => raiseHigh { b with high := [] })
  return (if Req.u32 q 0 = 1 then cleared else s, res)

def execBudgetQuery (q : Req) (s : State) : Out := serve 0x0105 cmdBudgetQuery q s

/-! ### SESSION_RESET (R410) -/

def resetKind : Nat → Due
  | 0 => .soft
  | 1 => .troupe
  | _ => .restart

def sessionResetCheck (q : Req) : Except Err Due := do
  Req.layout q 1
  needAt (Req.u8 q 0 ≤ 2) 0
  need (q.port == if Req.u8 q 0 = 1 then .p1 else .p0) ePriv
  return resetKind (Req.u8 q 0)

def cmdSessionReset (q : Req) (s : State) : Res := do
  let k ← sessionResetCheck q
  return (s.onPwr (fun p => { p with due := some (k, s.dueAt) }), [])

def execSessionReset (q : Req) (s : State) : Out := serve 0x0106 cmdSessionReset q s

/-! ### The Port Privilege Table (R383, R384) -/

/-- The bits of an entry that no write changes: bit 2 of GROUPS, and PORT_EN of P0 and P4. -/
def privFixed (p : Nat) (old new : BitVec 64) : BitVec 64 :=
  let groups := fget new Priv.groups
  let g := groups - 4 * (groups / 4 % 2) + 4 * (fget old Priv.groups / 4 % 2)
  let a := fput new Priv.groups g
  if p = 0 || p = 4 then fput a Priv.portEn (fget old Priv.portEn) else a

def State.setPriv (p : Nat) (w : BitVec 64) (s : State) : State := s.onCtl (fun c => { c with priv := tset privReset c.priv p w })

def cmdPrivRead (q : Req) (s : State) : Res := do
  Req.layout q 1
  needAt (Req.u8 q 0 ≤ 4) 0
  return (s, recBytes (tget privReset s.ctl.priv (Req.u8 q 0)))

def execPrivRead (q : Req) (s : State) : Out := serve 0x0200 cmdPrivRead q s

/-- Only P0 writes the table (R384). Reserved bits of GROUPS must be zero (R11). -/
def privWriteCheck (q : Req) (s : State) : Except Err (Nat × BitVec 64) := do
  need (q.port == .p0) ePriv
  Req.layout q 12
  let p := Req.u8 q 0
  needAt (p ≤ 4) 0
  Req.zeroAt q 1 3
  let old := tget privReset s.ctl.priv p
  let new := mergeRec Priv.layout old (Req.slice q 4 8)
  let g := fget new Priv.groups
  needAt (g % 2 == 0 && g < 2 ^ 18) 4
  return (p, privFixed p old new)

def cmdPrivWrite (q : Req) (s : State) : Res := do
  let (p, w) ← privWriteCheck q s
  return (s.setPriv p w, recBytes w)

def execPrivWrite (q : Req) (s : State) : Out := serve 0x0201 cmdPrivWrite q s

end Sys2Proof.Machine
end

