-- ==== Sys2Proof/Machine/Fabric.lean ====
section
/-! DEFINITION. A change of profile at a turn boundary (R76), the training and re-centring of memory
channels (R29 to R33), and the budget table's parity and recount (R98). -/

namespace Sys2Proof.Machine

open Sys2Proof

/-! ### Profiles -/

/-- The claims under a new profile (R76): recomputed where the turn changes, WCRED with them. -/
def State.applyProfile (p : Profile) (s : State) : State :=
  let s1 := s.onBud (fun b => raiseHigh { b with holds := reholds p s, profile := p, nextProfile := none })
  let s2 := s1.syncWcreds (s1.mem.rings.map (·.1))
  let s3 := if crosses .economy s.bud.profile p then s2.retrain (fun _ => true) else s2
  s3.reboundAll

def profileJob (p : Profile) (j : Job) : Bool := j.kind == .profile (profileCode p)

/-- PROFILE_CHANGE (R76): the accepted change takes effect at the turn boundary, and the response gives its time. -/
def execProfileChange (s0 : State) : Out :=
  let s := s0.fresh
  match s.bud.nextProfile with
  | none => done s
  | some p => done ((s.applyProfile p).answerJob (profileJob p) 0 (fun _ => leBytes 1 (profileCode p) ++ fitBytes 7 [] ++ leBytes 8 s.now))

/-! ### Memory channels -/

/-- The channels that respond in the two populations of R29. -/
def fullCard : Nat := 0xFFFF
def reducedCard : Nat := 0x3333

/-- The channels that do not fit: those missing from the full card where some channel outside the reduced card responds, else those
missing from the reduced card (DEDUCED, log entry 62). -/
def misfits (responds : Nat) : Nat :=
  let base := if (List.range 16).any (fun c => maskBit responds c && !maskBit reducedCard c) then fullCard else reducedCard
  listMask ((List.range 16).filter (fun c => maskBit base c && !maskBit responds c))

/-- The population found by the probe. Tiles lie elsewhere in another population, so nothing of what was stored is read again. -/
def State.setReduced (v : Bool) (s : State) : State :=
  if s.pwr.reduced = v then s
  else (s.onPwr (fun p => { p with reduced := v })).onMem (fun m => { m with tiles := [], undef := [], lostTiles := [] })

/-- CHANNEL_TRAINING (R29, R30, R33): in STAGING, with what the probe of all sixteen channels found. -/
def execChannelTraining (ch : Fin 16) (responds : BitVec 16) (ok : Bool) (s0 : State) : Out :=
  let s := s0.fresh
  let r := responds.toNat
  if s.pwr.power != .staging || s.pwr.bootState != .firmware then done s
  else if r != fullCard && r != reducedCard then
    done ((s.onChan ch.val (fun c => { c with trained := false })).raise ⟨0x47, locChannel ch.val, true, 0, leBytes 2 (misfits r)⟩)
  else if !maskBit r ch.val then done s
  else
    let s1 := s.setReduced (r == reducedCard)
    if ok then
      done (((s1.onChan ch.val (fun c => { c with trained := true, failed := false })).endCause 0x48 (locChannel ch.val)).endCause 0x47
        (locChannel ch.val))
    else done ((s1.onChan ch.val (fun c => { c with trained := false })).raise0 0x47 (locChannel ch.val))

/-- RECENTRE (R32, R33): while ACTIVE. The advance of the on-die ECC counters is reported once; a channel that fails is a fatal fault. -/
def execRecentre (ch : Fin 16) (ok moved : Bool) (ecc : BitVec 32) (s0 : State) : Out :=
  let s := s0.fresh
  let c := tget chanReset s.mem.chans ch.val
  let l := locChannel ch.val
  if s.pwr.power != .active || s.pwr.bootState != .firmware || !c.trained then done s
  else
    let s1 := if ecc = 0 then s else (s.onChan ch.val (fun c => { c with chEcc := sat32 c.chEcc ecc.toNat })).raise
      ⟨0x45, l, true, 0, leBytes 4 ecc.toNat⟩
    let s2 := if moved then (s1.onChan ch.val (fun c => { c with chRecentre := sat32 c.chRecentre 1 })).raise0 0x46 l else s1
    done (if ok then s2 else (s2.onChan ch.val (fun c => { c with trained := false, failed := true })).raise0 0x48 l)

/-! ### The budget table's parity (R98) -/

/-- BUDGET_TABLE_ERROR: admissions and profile changes wait for the recount. -/
def execBudgetTableError (s0 : State) : Out :=
  let s := s0.fresh
  if s.bud.blocked then done s
  else done ((s.onBud (fun b => { b with blocked := true })).contain (Ev.plain 0x61 locBudget) false)

/-- BUDGET_RECOUNT: USED has been recounted from the claims. -/
def execBudgetRecount (s0 : State) : Out :=
  let s := s0.fresh
  if !s.bud.blocked || s.pwr.bootState != .firmware then done s
  else
    let s1 := s.onBud (fun b => raiseHigh { b with blocked := false })
    done ((s1.onFlt (fun f => { f with isolated := f.isolated.filter (· != (0x61, locBudget)) })).raiseEnd 0x61 locBudget)

end Sys2Proof.Machine
end

