-- ==== Sys2Proof/Machine/HostPort.lean ====
section
/-! DEFINITION. The host port (R368 to R375, R385 to R387): BAR0 and its registers, doorbells and request buffers, the
BAR2 window, Midway's default target (R376 to R381), and the USB4 link. -/

namespace Sys2Proof.Machine

open Sys2Proof

/-! ### Midway (R376 to R379) -/

/-- Internal address of BAR0 offset `off` (R376). -/
def bar0Addr (off : Nat) : Nat := 0x80000000 + off

/-- Internal address of BAR2 offset `off` (R376). -/
def bar2Addr (off : Nat) : Nat := 0x100000000 + off

/-- The master ID of the host port (R377). -/
def hostMaster : Nat := 4

/-- The Midway control record after a decode error: the first since DEC_VALID was cleared is logged, and every one counts. -/
def logDecode (addr master : Nat) (write : Bool) (r : BitVec 256) : BitVec 256 :=
  let r1 := if fbit r Midway.decValid then r
    else fput (fput (fput (fput r Midway.decAddr addr) Midway.decMaster master) Midway.decWrite (bit write)) Midway.decValid 1
  fput r1 Midway.decCount (satAdd 16 (fget r1 Midway.decCount) 1)

def State.onMidway (f : BitVec 256 → BitVec 256) (s : State) : State := s.onCtl (fun c => { c with midway := f c.midway })

/-- R379: the default target's answer to an access: logged, and MIDWAY_BUS_ERROR with reason DECODE. -/
def State.decodeError (addr master : Nat) (write : Bool) (s : State) : State :=
  (s.onMidway (logDecode addr master write)).busError 1 addr master

/-- DEFAULT_TARGET_ACCESS (R379): a host read completes with Unsupported Request. -/
def execDefaultTargetAccess (addr : BitVec 40) (master : Fin 10) (write : Bool) (s0 : State) : Out :=
  let s := s0.fresh
  if !s.fastOn then done s else
  let t := s.decodeError addr.toNat master.val write
  done (if master.val = hostMaster && !write then t.emit .unsupported else t)

/-- The decode log cleared, DEC_COUNT with it. -/
def clearDec (r : BitVec 256) : BitVec 256 :=
  [Midway.decAddr, Midway.decMaster, Midway.decWrite, Midway.decValid, Midway.decCount].foldl (fun r f => fput r f 0) r

/-- The abort log cleared, ABORT_COUNT with it. -/
def clearAbort (r : BitVec 256) : BitVec 256 :=
  [Midway.abortAddr, Midway.abortMaster, Midway.abortWrite, Midway.abortValid, Midway.abortBeats, Midway.abortCount].foldl
    (fun r f => fput r f 0) r

/-- An access of the host to a register: nothing while the port is not released. -/
def State.hostAccess (f : State → State) (s0 : State) : Out :=
  let s := s0.byHost
  done (if s.hostPort then f s else s)

/-- DEC_VALID_CLEAR (R378). -/
def execDecValidClear (s : State) : Out := s.hostAccess (fun s => s.onMidway clearDec)

/-- ABORT_VALID_CLEAR (R378). -/
def execAbortValidClear (s : State) : Out := s.hostAccess (fun s => s.onMidway clearAbort)

/-! ### The maintenance bit (R375) -/

/-- MAINT takes 1 only in STAGING with no ring RUNNING; otherwise the write leaves it 0. -/
def State.setMaint (v : Bool) (s : State) : State :=
  let ok := s.pwr.power == .staging && s.mem.rings.all (fun e => fget e.2 RingDesc.stateF != 2)
  s.onMidway (fun r => fput r Midway.maint (bit (v && ok)))

/-- MAINT (R375). -/
def execMaint (v : Bool) (s : State) : Out := s.hostAccess (State.setMaint v)

/-! ### Mailboxes (R385 to R387) -/

/-- Whether the mailboxes are served: by the firmware, or MB0 by the boot ROM (R390, R493). -/
def State.mailboxServed (n : Nat) (s : State) : Bool :=
  match s.pwr.bootState with
  | .firmware => true
  | .rescue | .waitLoad => n == 0 && (s.pwr.afterRestart || s.pwr.bootSrc == 1)
  | _ => false

/-- A doorbell: one on a busy channel is ignored and counted; one that nobody serves is lost (R120, R390). -/
def State.doorbell (n seq : Nat) (s : State) : State :=
  let m := s.mailbox n
  if !s.mailboxServed n then s
  else if m.busy then s.setMb n { m with status := fput m.status MbStatus.dbIgnored (satAdd 8 (fget m.status MbStatus.dbIgnored) 1) }
  else s.setMb n { m with
    status := fput (fput (fput m.status MbStatus.stateF mbQueued) MbStatus.seq seq) MbStatus.status 0
    receipt := s.now }

/-- DB (R387 step 2). -/
def execDb (n : Fin 64) (seq : BitVec 16) (s : State) : Out := s.hostAccess (State.doorbell n.val seq.toNat)

/-- Bytes stored at an offset of a buffer of 1,024. -/
def spliceBytes (buf : List Byte) (off : Nat) (bs : List Byte) : List Byte :=
  fitBytes 1024 ((fitBytes 1024 buf).take off ++ bs ++ (fitBytes 1024 buf).drop (off + bs.length))

/-- A host write to a request buffer: discarded, with MIDWAY_BUS_ERROR, while the buffer is locked. -/
def State.bufferWrite (n off : Nat) (bs : List Byte) (s : State) : State :=
  let m := s.mailbox n
  if m.busy then s.busError 4 (bar0Addr (0x10000 + 2048 * n + off)) hostMaster
  else s.setMb n { m with request := spliceBytes m.request off bs }

/-- R372: 4 bytes aligned to 4, or 8 bytes aligned to 8. -/
def bar0Aligned (off len : Nat) : Bool := (len == 4 && off % 4 == 0) || (len == 8 && off % 8 == 0)

/-- REQUEST_BUFFER_WRITE (R387, R372). -/
def execRequestBufferWrite (n : Fin 64) (off : Fin 1024) (bytes : List Byte) (s : State) : Out :=
  s.hostAccess (fun s =>
    if bar0Aligned off.val bytes.length then s.bufferWrite n.val off.val bytes
    else s.decodeError (bar0Addr (0x10000 + 2048 * n.val + off.val)) hostMaster true)

/-- DONE_MAP bits cleared by writing 1. -/
def State.clearDone (mask : Nat) (s : State) : State :=
  s.onCtl (fun c => { c with doneMap := c.doneMap &&& ~~~(BitVec.ofNat 64 mask) })

/-- DONE_MAP_CLEAR (R386). -/
def execDoneMapClear (mask : BitVec 64) (s : State) : Out := s.hostAccess (State.clearDone mask.toNat)

/-! ### Always-on, privilege and interrupt registers -/

/-- A record with its 32-bit word `j` written: only writable fields take it (R372). -/
def putWord {n : Nat} (layout : List Fld) (r : BitVec n) (j : Nat) (v : BitVec 32) : BitVec n :=
  mergeRec layout r ((recBytes r).take (4 * j) ++ leBytes 4 v.toNat)

/-- A number of `n` 32-bit words with word `j` replaced. -/
def putRaw {n : Nat} (r : BitVec n) (j : Nat) (v : BitVec 32) : BitVec n :=
  BitVec.ofNat n (leNat ((recBytes r).take (4 * j) ++ leBytes 4 v.toNat ++ (recBytes r).drop (4 * j + 4)))

/-- R466: RTC_SEC written, so that the written second begins at the write. -/
def State.setRtc (sec : Nat) (s : State) : State :=
  (s.onPwr (fun p => { p with aon := fput (fput p.aon Aon.rtcSec sec) Aon.rtcSub 0 })).onTime (fun t => { t with xtal := 0 })

/-- RTC_SEC (R466). -/
def execRtcSec (sec : BitVec 48) (s : State) : Out := s.hostAccess (State.setRtc sec.toNat)

/-- Word `j` of the always-on record; a write to either word of RTC_SEC restarts RTC_SUB. -/
def State.aonWord (j : Nat) (v : BitVec 32) (s : State) : State :=
  let r := putWord Aon.layout s.pwr.aon j v
  if j < 2 then s.setRtc (fget r Aon.rtcSec) else s.onPwr (fun p => { p with aon := r })

/-- Word `j` of the collector's control record; a FATAL_DELAY out of its range is ignored (R444). -/
def State.faultCtlWord (j : Nat) (v : BitVec 32) (s : State) : State :=
  let r := putWord FaultCtl.layout s.flt.ctl j v
  let d := fget r FaultCtl.fatalDelay
  let r1 := if 10 ≤ d && d ≤ 1000 then r else fput r FaultCtl.fatalDelay (fget s.flt.ctl FaultCtl.fatalDelay)
  s.onFlt (fun f => { f with ctl := r1 })

/-- Configuration word of a code: VECTOR and ENABLE, and PENDING cleared by writing 1 (R448). -/
def State.eventWord (c : Nat) (v : BitVec 32) (s : State) : State :=
  let s1 := s.setEvent c (fget v EvCfg.vector) (fget v EvCfg.enable)
  if fbit v EvCfg.pending then s1.clearPending c else s1

/-- Word `j` of the Port Privilege Table entry of a port: the bits R384 fixes stay, and reserved bits read zero. -/
def State.privWord (p j : Nat) (v : BitVec 32) (s : State) : State :=
  let old := tget privReset s.ctl.priv p
  let new := privFixed p old (putWord Priv.layout old j v)
  s.setPriv p (fput new Priv.groups (fget new Priv.groups / 2 % 2 ^ 17 * 2))

/-- Word `j` of the Midway control record (R378): a WIN_BASE past the card's regions is ignored, and the logs are cleared by writing 1. -/
def State.midwayWord (j : Nat) (v : BitVec 32) (s : State) : State :=
  if j = 0 then
    let old := s.ctl.midway
    let r := putWord Midway.layout old 0 v
    let r1 := if s.pwr.reduced && 7 < fget r Midway.winBase then fput r Midway.winBase (fget old Midway.winBase) else r
    (s.onMidway (fun _ => fput r1 Midway.maint 0)).setMaint (fbit r Midway.maint)
  else if j = 2 && v.getLsbD 13 then s.onMidway clearDec
  else if j = 4 && v.getLsbD 13 then s.onMidway clearAbort
  else s

/-- Word `j` of MSI-X table entry `v` (PCIe): address, data and the mask bit; unmasking sends a pending message. -/
def State.msixWord (v j : Nat) (w : BitVec 32) (s : State) : State :=
  let old := tget msixReset s.ctl.msix v
  let new := putRaw old j (if j = 3 then w &&& 1 else w)
  let s1 := s.onCtl (fun c => { c with msix := tset msixReset c.msix v new })
  if !new.getLsbD 96 && s.ctl.pba.getLsbD v then (s1.onCtl (fun c => { c with pba := c.pba &&& ~~~(1#64 <<< v) })).signal v else s1

/-! ### BAR0 writes (R371, R372) -/

/-- R371: whether some block covers the offset. -/
def bar0Covered (off : Nat) : Bool := off < 0xA000 || (0x10000 ≤ off && off < 0x31000)

/-- One 32-bit word written at an offset of BAR0; an offset that its block does not define is ignored. -/
def State.regWord (off : Nat) (v : BitVec 32) (s : State) : State :=
  let n := v.toNat
  if off = 0x1000 then s.resetBlocks n
  else if off = 0x1004 then s.resetBlocks (n * 2 ^ 32)
  else if off = 0x1010 then
    let s1 := if maskBit n 8 then s.clearCounts else s
    if n % 256 = 0xA5 then s1.fullReset .soft else s1
  else if off = 0x2060 then s.faultCtlWord 0 v
  else if 0x3000 ≤ off && off < 0x3400 then s.eventWord ((off - 0x3000) / 4) v
  else if off = 0x3808 then s.onRec (fun r => { r with win := v &&& 0x3FF })
  else if 0x4000 ≤ off && off < 0x4028 then s.privWord ((off - 0x4000) / 8) (off / 4 % 2) v
  else if 0x5000 ≤ off && off < 0x5020 then s.aonWord ((off - 0x5000) / 4) v
  else if 0x5080 ≤ off && off < 0x50C0 then s.onPwr (fun p => { p with scratch := putRaw p.scratch ((off - 0x5080) / 4) v })
  else if 0x6000 ≤ off && off < 0x6020 then s.midwayWord ((off - 0x6000) / 4) v
  else if 0x7000 ≤ off && off < 0x7100 then s.doorbell ((off - 0x7000) / 4) (n % 2 ^ 16)
  else if off = 0x7300 then s.clearDone n
  else if off = 0x7304 then s.clearDone (n * 2 ^ 32)
  else if off = 0x7308 || off = 0x730C then s.onCtl (fun c => { c with irqEn := putRaw c.irqEn (off / 4 % 2) v })
  else if off = 0x7310 then s.onCtl (fun c => { c with irqCfg := putRaw c.irqCfg 0 (v &&& 0x3F3F) })
  else if off = 0x7314 then s.onCtl (fun c => { c with irqCfg := putRaw c.irqCfg 1 (v &&& 0xFFFF) })
  else if 0x7400 ≤ off && off < 0x7800 then
    let h := (off - 0x7400) / 64
    if off % 64 = 0x24 && n % 2 = 1 then s.popDesc h
    else if off % 64 = 0x28 then s.releaseTiles h v
    else s
  else if 0x10000 ≤ off && off < 0x30000 then
    if off % 2048 < 1024 then s.bufferWrite ((off - 0x10000) / 2048) (off % 2048) (leBytes 4 n) else s
  else if 0x30000 ≤ off && off < 0x30400 then s.msixWord ((off - 0x30000) / 16) (off / 4 % 4) v
  else s

/-- An aligned write: FORCE takes one of 8 bytes only (R448); the low word first. A full software reset ends the write. -/
def State.regWrite (off : Nat) (wide : Bool) (v : BitVec 64) (s : State) : State :=
  if off = 0x3400 || off = 0x3404 then if wide then s.forceWrite v else s
  else
    let s1 := s.regWord off (v.setWidth 32)
    if wide && s1.hostPort then s1.regWord (off + 4) ((v >>> 32).setWidth 32) else s1

/-- REGISTER_WRITE (R372): a BAR0 write of 4 or 8 bytes; one not aligned, or in no block, is a decode error. -/
def execRegisterWrite (off : BitVec 18) (wide : Bool) (v : BitVec 64) (s : State) : Out :=
  s.hostAccess (fun s =>
    if bar0Aligned off.toNat (if wide then 8 else 4) && bar0Covered off.toNat then s.regWrite off.toNat wide v
    else s.decodeError (bar0Addr off.toNat) hostMaster true)

/-- PTP_NOW_READ (R373): the low word is returned and the high word latched. -/
def execPtpNowRead (s : State) : Out :=
  s.hostAccess (fun s => (s.onTime (fun t => { t with ptpHigh := s.now / 2 ^ 32 % 2 ^ 32 })).emit (.completion (leBytes 4 s.now)))

/-! ### The USB4 link (R370) -/

/-- R380: the reads of the window that wait when the host link goes are aborted; a posted write has been accepted whole. -/
def State.abortReads (s : State) : State :=
  s.bud.waits.foldl (fun s w => match w with
    | .read a _ => s.abortBurst (bar2Addr (a % 2 ^ 32)) hostMaster false 0
    | .write _ _ => s) s

/-- The function's PCIe configuration is lost, and with it the reads that wait for slots. -/
def State.hostGone (s : State) : State :=
  (s.onCtl (fun c => { c with enumerated := false })).onBud (fun b => { b with waits := b.waits.filter (fun w => match w with
    | .read _ _ => false
    | .write _ _ => true) })

/-- HOST_LINK_CHANGE: each loss, return and change of rate; a loss resets the function's PCIe configuration. -/
def execHostLinkChange (rate : Fin 4) (s0 : State) : Out :=
  let s := s0.fresh
  let r := BitVec.ofNat 2 rate.val
  if !s.hostPort || s.pwr.hostRate = r then done s
  else
    let s1 := s.onPwr (fun p => { p with hostRate := r })
    let s2 := if rate.val = 0 then s1.abortReads.hostGone else s1
    done (s2.raise ⟨0xFC, locHost, rate.val != 0, 0, leBytes 1 rate.val⟩)

/-- PCIE_RESET (R370): only the function's PCIe configuration. -/
def execPcieReset (s : State) : Out := done s.fresh.hostGone

end Sys2Proof.Machine
end

