-- ==== Sys2Proof/Machine/Ports.lean ====
section
/-! DEFINITION. The other ports (R382, R389, R395, R396): requests received on the service bus, in band and over JTAG, the
deadline of a command that waits, the service-bus record, and the TAP (R505, R479). -/

namespace Sys2Proof.Machine

open Sys2Proof

/-! ### Requests received on P2 and P3 (R382) -/

def waitingOf (op : Nat) (q : Req) (s : State) : Waiting := ⟨q.sender, q.seq, BitVec.ofNat 16 op, q.deadline, s.now⟩

/-- A request taken whole and queued with its receipt time, or answered with E_BUSY while 16 are in use. -/
def State.receive (op : Nat) (q : Req) (s : State) : State :=
  if 16 ≤ (s.waiting q.port).length then respond op eBusy q [] s
  else match q.port with
    | .p2 => s.onCtl (fun c => { c with p2 := c.p2 ++ [waitingOf op q s] })
    | .p3 => s.onCtl (fun c => { c with p3 := c.p3 ++ [waitingOf op q s] })
    | _ => s

/-- Whether the service bus takes a request: the firmware's port under its record, or the boot ROM's (R395, R396, R493). -/
def State.p2Open (q : Req) (s : State) : Bool :=
  match s.pwr.bootState with
  | .firmware => s.heard .p2
  | .rescue | .waitLoad => rescuePort q s
  | _ => false

/-- P2_REQUEST (R382). -/
def execP2Request (opcode : BitVec 16) (q : Req) (s0 : State) : Out :=
  let s := s0.fresh
  let q2 := { q with port := .p2 }
  done (if s.p2Open q2 then s.receive opcode.toNat q2 else s)

/-- P3_REQUEST (R382): dropped while the port is disabled (R166, R384). -/
def execP3Request (opcode : BitVec 16) (q : Req) (s0 : State) : Out :=
  let s := s0.fresh
  let q3 := { q with port := .p3 }
  done (if s.pwr.bootState = .firmware && s.portOn .p3 then s.receive opcode.toNat q3 else s)

/-! ### COMMAND_DEADLINE (R389) -/

/-- The counter value, in ns of PTP time, at which a request's deadline falls. -/
def deadlineAt (op receipt deadline : Nat) : Nat := receipt + (if deadline = 0 then defaultDeadline op else deadline) * 1000

/-- The header of a request that waits, as its response needs it. -/
def headOf (p : Port) (chan sender : Nat) (seq : BitVec 16) : Req := ⟨p, chan, sender, 0, seq, 0, 0, 0, [], 0⟩

/-- The command that waits for another member, or for a turn boundary, and has not reached its commit. -/
def uncommitted (p : Port) (chan sender : Nat) (seq : BitVec 16) (now : Nat) (j : Job) : Bool :=
  j.req.port == p && j.req.chan == chan && j.req.sender == sender && j.req.seq == seq && decide (j.due ≤ now) &&
    (match j.kind with
     | .forward _ | .profile _ => true
     | _ => false)

/-- A queued request of a mailbox: its opcode and deadline stand in its buffer. -/
def mailboxDue (m : Mb) (now : Nat) : Option Nat :=
  let op := leNat (m.request.take 2)
  let d := leNat ((m.request.drop 8).take 4)
  if m.state = mbQueued && d ≤ 60000000 && deadlineAt op m.receipt d ≤ now then some op else none

/-- A request still in its port's queue: E_TIMEOUT, and nothing changes. -/
def State.expireQueued (p : Port) (chan sender : Nat) (seq : BitVec 16) (s : State) : State :=
  let q := headOf p chan sender seq
  match p with
  | .p0 => match mailboxDue (s.mailbox chan) s.now with
    | some op => respond op eTimeout q [] s
    | none => s
  | _ => match (s.waiting p).find? (fun w => w.sender == sender && w.seq == seq && w.deadline.toNat ≤ 60000000 &&
        deadlineAt w.opcode.toNat w.receipt w.deadline.toNat ≤ s.now) with
    | some w => respond w.opcode.toNat eTimeout q [] (dequeue w.opcode.toNat q s)
    | none => s

/-- COMMAND_DEADLINE: a command that has not reached its commit by its deadline returns E_TIMEOUT; a profile change that waits is dropped. -/
def execCommandDeadline (port : Port) (chan sender : Nat) (seq : BitVec 16) (s0 : State) : Out :=
  let s := s0.fresh
  let p := uncommitted port chan sender seq s.now
  match s.ctl.jobs.find? p with
  | some j =>
    let s1 := match j.kind with
      | .profile _ => s.onBud (fun b => { b with nextProfile := none })
      | _ => s
    done (s1.answerJob p eTimeout (fun _ => []))
  | none => done (if s.pwr.bootState = .firmware && chan < 64 then s.expireQueued port chan sender seq else s)

/-! ### The service-bus record (R395) -/

def sbWriteCheck (q : Req) (s : State) : Except Err (BitVec 128) := do
  let _ ← Req.index q 1
  Req.noTarget q
  let old := s.ctl.sb
  writeRecordX q SbRec.layout old (fixedIf (fbit old SbRec.sbEn) SbRec.layout)
    (fun e => if maskBit (fget e SbRec.sbMac) 40 then some 2 else none)

/-- The record taken on; a MAC that is disabled has its master reset (R380). -/
def sbWriteDo (e : BitVec 128) (s : State) : State :=
  let off := fbit s.ctl.sb SbRec.sbEn && !fbit e SbRec.sbEn
  (if off then s.isolateMaster 6 else s).onCtl (fun c => { c with sb := e })

def cmdSbWrite (q : Req) (s : State) : Res := do
  let e ← sbWriteCheck q s
  return (sbWriteDo e s, recBytes e)

/-- SB_WRITE (R395, R429). -/
def execSbWrite (q : Req) (s : State) : Out := serve 0x1104 cmdSbWrite q s

/-! ### The TAP (R505) -/

/-- An instruction shifted in: the TAP has power in every state but BACKUP. -/
def State.tap (code : BitVec 8) (f : State → State) (s0 : State) : Out :=
  let s := s0.fresh
  done (if s.pwr.power = .backup then s else f (s.onCtl (fun c => { c with jtagIr := code })))

/-- Free bytes, eight to a word. -/
def freeBytes : Nat → State → List Byte × State
  | 0, s => ([], s)
  | n + 1, s =>
    let (w, s1) := s.freeWord
    let (l, s2) := freeBytes n s1
    (leBytes 8 w.toNat ++ l, s2)

/-- Captured bits shifted out, as many bytes as go in: the pins' levels, which the model does not hold, are free. -/
def State.shiftFree (n : Nat) (s : State) : State :=
  let r := freeBytes ((n + 7) / 8) s
  r.2.emit (.tdo (r.1.take n))

/-- IDCODE: 0xB102_4001. -/
def execIdcode (s : State) : Out := s.tap 0x01 (fun s => s.emit (.tdo (leBytes 4 0xB1024001)))

/-- SAMPLE_PRELOAD. -/
def execSamplePreload (bits : List Byte) (s : State) : Out := s.tap 0x02 (State.shiftFree bits.length)

/-- EXTEST: with the fuse, in BOOT_HALT or before release step 2; elsewhere as BYPASS. -/
def execExtest (bits : List Byte) (s : State) : Out :=
  s.tap 0x00 (fun s =>
    if Config.debugFuse && (s.pwr.halt.isSome || decide (s.releaseStep < 2)) then s.shiftFree bits.length else s)

/-- HALT (R479): the halt record; outside BOOT_HALT its bytes are not stated. -/
def execHalt (s : State) : Out :=
  s.tap 0x10 (fun s => match s.pwr.halt with
    | some h => s.emit (.tdo (haltRecord h s))
    | none => s.shiftFree 16)

/-- Whether the debug port is there: the fuse is blown and its block runs. -/
def State.debugOn (s : State) : Bool := Config.debugFuse && !s.blockHeld 56

/-- COMMAND: the P4 data register of 1,024 bytes. -/
def execCommand (bytes : List Byte) (s : State) : Out :=
  s.tap 0x20 (fun s => if s.debugOn then s.onCtl (fun c => { c with jtagData := bytes.take 1024 }) else s)

/-- DOORBELL: receipt of the P4 request; one at a time. -/
def execDoorbell (opcode : BitVec 16) (q : Req) (s : State) : Out :=
  s.tap 0x21 (fun s =>
    if s.debugOn && s.pwr.bootState = .firmware && s.ctl.p4.isEmpty then
      s.onCtl (fun c => { c with p4 := [waitingOf opcode.toNat { q with port := .p4 } s] })
    else s)

/-- BYPASS, and every code that names no instruction. -/
def execBypass (code : BitVec 8) (s : State) : Out := s.tap code id

end Sys2Proof.Machine
end

