-- ==== Sys2Proof/Machine/TestLoops.lean ====
section
/-! DEFINITION. Test loops and diagnostics (R428, R495 to R504): generators, checkers and loopback points on lanes, the
memory test, and the check of a shadow's transmit path. Lanes are numbered as in `State.underTest`. -/

namespace Sys2Proof.Machine

open Sys2Proof

/-! ### Lanes (R428, R495) -/

/-- Lanes of a KIND. -/
def kindLanes : Nat → Nat
  | 0 => 144 | 1 => 32 | 2 => 48 | _ => 0

/-- The lane of a KIND and a number. -/
def testLaneOf (kind lane : Nat) : Nat := match kind with | 0 => lane | 1 => mediaTest lane | _ => svanumTest lane

/-- R498: the patterns of each KIND; 0 turns the test off. -/
def patternOk (kind pattern : Nat) : Bool :=
  pattern == 0 || (match kind with
    | 0 => [1, 2, 3, 4, 5]
    | 1 => [6, 7, 8]
    | _ => [1, 3, 4, 9]).contains pattern

/-- Whether a Svanum lane carries service: a link with LINK_EN 1 names it in LANES, or path A has it. -/
def State.svanumServes (s : State) (l : Nat) : Bool :=
  s.pathALanes.contains l || s.trp.link.any (fun e => fbit e.2 Link.linkEn && maskBit (fget e.2 Link.lanes) l)

/-- R495: whether a side of a lane carries service; a bonded lane is its leader's (R132). -/
def State.txServes (s : State) (l : Nat) : Bool :=
  fbit (sdiCfg s l) SdiLane.txEn || (s.txFollower l && fbit (sdiCfg s (l / 4 * 4)) SdiLane.txEn)
def State.rxServes (s : State) (l : Nat) : Bool :=
  fbit (sdiCfg s l) SdiLane.rxEn || (s.rxFollower l && fbit (sdiCfg s (l / 4 * 4)) SdiLane.rxEn)

def State.laneServes (s : State) (kind lane : Nat) (tx : Bool) : Bool :=
  match kind with
  | 0 => if tx then s.txServes lane else s.rxServes lane
  | 1 => fbit (s.ethPort (lane / 8)) EthPort.portEn
  | _ => s.svanumServes lane

/-- A lane that ECONOMY disables (R495). -/
def State.laneEconomy (s : State) (kind lane : Nat) : Bool :=
  s.bud.profile == .economy && (match kind with | 0 => decide (72 ≤ lane) | 1 => decide (16 ≤ lane) | _ => false)

/-- Nominal line rate in Mbit/s of a TX_LINK; RX_RATE counts 3G once, after AUTO (R154, R497). -/
def sdiMbit : Nat → Nat
  | 0 => 270 | 1 => 1485 | 2 => 2970 | 3 => 2970 | 4 => 5940 | 5 => 11880 | _ => 23760

/-- Line rate of a test in Mbit/s (R497): TX_LINK's and RX_RATE's nominal rates, 106.25 Gbit/s on a media lane, and on a Svanum lane the
LINK_RATE of the link that names it, or 56.25 Gbit/s. -/
def State.testMbit (s : State) (kind lane : Nat) (tx : Bool) : Nat :=
  match kind with
  | 0 =>
    let rx := fget (sdiCfg s lane) SdiLane.rxRate
    sdiMbit (if tx then fget (sdiCfg s lane) SdiLane.txLink else if rx ≤ 3 then rx - 1 else rx)
  | 1 => 106250
  | _ => match s.trp.link.find? (fun e => maskBit (fget e.2 Link.lanes) lane) with
    | some e => laneSpeed (fget e.2 Link.linkRate) * 3125
    | none => 56250

/-- The bits of PATTERN 1 to 4 (R498) from the `k` bits before them, latest first: s(n) = s(n-k) xor s(n-j) for x^k + x^j + 1. -/
def prbsBits (k j : Nat) : Nat → List Bool → List Bool
  | 0, _ => []
  | n + 1, l => let b := l.getD (k - 1) false != l.getD (j - 1) false; b :: prbsBits k j n (b :: l.take (k - 1))

/-- The polynomial of a PRBS pattern. -/
def prbsTaps : Nat → Option (Nat × Nat)
  | 1 => some (7, 6) | 2 => some (9, 5) | 3 => some (23, 18) | 4 => some (31, 28) | _ => none

/-- Bit `n` of PATTERN 9: runs of 24 ones and 24 zeros. -/
def runStress (n : Nat) : Bool := n / 24 % 2 == 0

/-- KIND and LANE of a test command. -/
def testTarget (q : Req) : Except Err (Nat × Nat) := do
  needAt (Req.u8 q 0 < 3) 0
  Req.zeroAt q 1 1
  needAt (Req.u16 q 2 < kindLanes (Req.u8 q 0)) 2
  return (Req.u8 q 0, Req.u16 q 2)

/-! ### TEST_GEN, TEST_CHECK (R498 to R500) -/

def patternCheck (q : Req) (tx : Bool) (s : State) : Except Err (Nat × Nat × Nat) := do
  Req.layout q 8
  let (kind, lane) ← testTarget q
  let pattern := Req.u8 q 4
  needAt (patternOk kind pattern) 4
  needAt (!tx || Req.u8 q 5 < 4) 5
  Req.zeroAt q 6 2
  needAt (!(!tx && kind == 0 && pattern != 0 && fget (sdiCfg s lane) SdiLane.rxRate == 0)) noField
  if s.laneEconomy kind lane then errBudget 0x60 1 0
  need (pattern == 0 || !s.laneServes kind lane tx) eState
  return (kind, lane, pattern)

def cmdTestGen (q : Req) (s : State) : Res := do
  need (s.role != .shadow) eState
  let (kind, lane, pattern) ← patternCheck q true s
  let x := testLaneOf kind lane
  return (s.setTest x { s.testLane x with gen := pattern, inject := if pattern = 0 then 0 else Req.u8 q 5 }, [])

/-- TEST_GEN (R428, R498, R499). -/
def execTestGen (q : Req) (s : State) : Out := serve 0x1000 cmdTestGen q s

/-- The checker takes the pattern, seeks lock, and counts from 0. -/
def cmdTestCheck (q : Req) (s : State) : Res := do
  let (kind, lane, pattern) ← patternCheck q false s
  let x := testLaneOf kind lane
  return (s.setTest x { s.testLane x with check := pattern, locked := false, bits := 0, errors := 0 }, [])

/-- TEST_CHECK (R428, R500). -/
def execTestCheck (q : Req) (s : State) : Out := serve 0x1001 cmdTestCheck q s

/-- CHECKER_LOCK (R500): bits compared and in error since the report before, while LOCKED, and the lock state the checker takes. -/
def execCheckerLock (lane : Fin 224) (locked : Bool) (bits errors : BitVec 64) (s0 : State) : Out :=
  let s := s0.fresh
  let v := s.testLane lane.val
  if v.check = 0 then done s
  else
    let add (a : Nat) (b : BitVec 64) : Nat := if v.locked then (a + b.toNat) % 2 ^ 64 else a
    done (s.setTest lane.val { v with locked := locked, bits := add v.bits bits, errors := add v.errors errors })

/-! ### TEST_LOOP (R501) -/

/-- A loop takes both sides of the lane out of service (R495; DEDUCED for POINT 1, log entry 66). -/
def testLoopCheck (q : Req) (s : State) : Except Err (Nat × Nat) := do
  need (!(s.role == .shadow && Req.u8 q 4 == 2)) eState
  Req.layout q 5
  let (kind, lane) ← testTarget q
  let point := Req.u8 q 4
  needAt (point < 3) 4
  if s.laneEconomy kind lane then errBudget 0x60 1 0
  need (point == 0 || !(s.laneServes kind lane true || s.laneServes kind lane false)) eState
  return (testLaneOf kind lane, point)

def cmdTestLoop (q : Req) (s : State) : Res := do
  let (x, point) ← testLoopCheck q s
  return (s.setTest x { s.testLane x with point := point }, [])

/-- TEST_LOOP (R428, R501). -/
def execTestLoop (q : Req) (s : State) : Out := serve 0x1002 cmdTestLoop q s

/-! ### TEST_RESULT (R428, R502) -/

/-- EYE of a lane; 0 while an enabled SDI receiver has no CDR lock. -/
def State.eyeOf (s : State) (kind lane : Nat) : Nat :=
  match kind with
  | 0 => if s.rxServes lane && !(s.lane lane).cdr then 0 else (s.testLane lane).eye
  | 1 => (s.testLane (mediaTest lane)).eye
  | _ => fget (s.svLane lane) LaneRec.eye

def cmdTestResult (q : Req) (s : State) : Res := do
  let clear ← Req.readClear q
  let kind := Req.u32 q 0 / 2 ^ 16
  let lane := Req.u32 q 0 % 2 ^ 16
  needAt (lane < kindLanes kind) 0
  let x := testLaneOf kind lane
  let v := s.testLane x
  let res := leBytes 8 v.bits ++ leBytes 8 v.errors ++ leBytes 1 (bit v.locked) ++ leBytes 1 (s.eyeOf kind lane)
  return (if clear then s.setTest x { v with bits := 0, errors := 0 } else s, res)

/-- TEST_RESULT (R428, R500, R502). -/
def execTestResult (q : Req) (s : State) : Out := serve 0x1003 cmdTestResult q s

/-! ### TEST_MEM (R503) -/

def testMemCheck (q : Req) (s : State) : Except Err (Nat × Nat) := do
  need (s.pwr.power == .staging) eState
  Req.layout q 3
  let mask := Req.u16 q 0
  needAt ((maskList 16 mask).all (fun c => !s.pwr.reduced || maskBit 0x3333 c)) 0
  needAt (1 ≤ Req.u8 q 2 && Req.u8 q 2 ≤ 3) 2
  need (s.mem.rings.all (fun e => ringFree e.2)) eState
  need s.tst.memRun.isNone eBusy
  return (mask, Req.u8 q 2)

def cmdTestMem (q : Req) (s : State) : Except Err Ans := do
  let (mask, pattern) ← testMemCheck q s
  return .later (s.onTst (fun t => { t with memRun := some (mask, pattern) })) .memTest []

/-- TEST_MEM (R428): its response waits for the end of the pass. -/
def execTestMem (q : Req) (s : State) : Out := serveAns 0x1004 cmdTestMem q s

/-- The bytes of the tested channels' tiles, scratch apart, are no longer known. -/
def MemSt.tested (reduced : Bool) (mask : Nat) (m : MemSt) : MemSt :=
  let hit (i : Nat) : Bool := maskBit mask (tileChannel reduced i) && !inScratch reduced i
  { m with
    tests := m.tests + 1
    undef := (maskList 16 mask).foldl (fun t c => tset natReset t c (m.tests + 1)) m.undef
    tiles := m.tiles.filter (fun c => !hit (c.1 / 4096)) }

/-- MEMORY_TEST_COMPLETE (R503): the sixteen counts; those of channels not named are 0. -/
def execMemoryTestComplete (errors : List (BitVec 32)) (s0 : State) : Out :=
  let s := s0.fresh
  match s.tst.memRun with
  | none => done s
  | some (mask, _) =>
    let counts := (List.range 16).flatMap (fun c => leBytes 4 (if maskBit mask c then (errors.getD c 0).toNat else 0))
    done (((s.onMem (MemSt.tested s.pwr.reduced mask)).onTst (fun t => { t with memRun := none })).answerJob
      (fun j => j.kind == .memTest) 0 (fun _ => counts))

/-! ### TEST_SHADOW (R504) -/

/-- Lanes a scope checks: transmitters with TX_EN 1, or the media lanes of enabled ports (DEDUCED, log entry 66). -/
def State.shadowLanes (s : State) (scope : Nat) : List Nat :=
  if scope = 0 then (List.range 144).filter s.txServes
  else (List.range 32).filter (fun l => fbit (s.ethPort (l / 8)) EthPort.portEn)

def testShadowCheck (q : Req) (s : State) : Except Err (Nat × Nat) := do
  need (s.role == .shadow) eState
  Req.layout q 4
  let scope := Req.u8 q 0
  let lane := Req.u16 q 2
  needAt (scope < 2) 0
  Req.zeroAt q 1 1
  needAt (lane == 0xFFFF || lane < kindLanes scope) 2
  need (lane == 0xFFFF || (s.shadowLanes scope).contains lane) eState
  need s.tst.shadowRun.isNone eBusy
  return (scope, lane)

def cmdTestShadow (q : Req) (s : State) : Except Err Ans := do
  let (scope, lane) ← testShadowCheck q s
  return .later (s.onTst (fun t => { t with shadowRun := some (scope, lane) })) .shadowTest []

/-- TEST_SHADOW (R428, R504): its response waits for the end of the check. -/
def execTestShadow (q : Req) (s : State) : Out := serveAns 0x1005 cmdTestShadow q s

/-- PASS, FAIL and FAILED over the lanes checked. -/
def shadowResult (lanes : List Nat) (failed : Nat) : List Byte :=
  let bad := lanes.filter (maskBit failed)
  leBytes 4 (lanes.length - bad.length) ++ leBytes 4 bad.length ++ leBytes 18 (listMask bad)

/-- SHADOW_CHECK_COMPLETE (R504). -/
def execShadowCheckComplete (failed : BitVec 144) (s0 : State) : Out :=
  let s := s0.fresh
  match s.tst.shadowRun with
  | none => done s
  | some (scope, lane) =>
    let lanes := if lane = 0xFFFF then s.shadowLanes scope else [lane]
    done ((s.onTst (fun t => { t with shadowRun := none })).answerJob (fun j => j.kind == .shadowTest) 0
      (fun _ => shadowResult lanes failed.toNat))

end Sys2Proof.Machine
end

