-- ==== Sys2Proof/Machine/Update.lean ====
section
/-! DEFINITION. Firmware update (R426, R427, R485 to R494): the write of the inactive slot, the activation, and the same
commands as the boot ROM serves them in Rescue Boot. -/

namespace Sys2Proof.Machine

open Sys2Proof

/-- Whether the boot ROM serves (R493). -/
def State.rescueServes (s : State) : Bool := s.pwr.bootState == .rescue || s.pwr.bootState == .waitLoad

/-- R427, R493: the slot a write goes to. -/
def State.writeSlot (s : State) : Nat :=
  if s.rescueServes then (if s.slotState 0 = slotActive then 1 else 0) else 1 - s.activeSlot

def State.setSlotBytes (slot : Nat) (bs : List Byte) (s : State) : State :=
  s.onUpd (fun u => if slot = 0 then { u with imageA := bs } else { u with imageB := bs })

/-! ### UPD_BEGIN -/

def updBeginCheck (q : Req) (s : State) : Except Err (Nat × Nat) := do
  Req.layout q 4
  let size := Req.u32 q 0
  needAt (1 ≤ size && size ≤ 16777216) 0
  need s.upd.write.isNone eBusy
  need (!s.slotBad s.writeSlot) eBusy
  return (s.writeSlot, size)

def cmdUpdBegin (q : Req) (s : State) : Res := do
  let (slot, size) ← updBeginCheck q s
  let s1 := s.writeTable (fun t => fput (fput t (stateFld slot) slotIncomplete) (sizeFld slot) size)
  return (s1.onUpd (fun u => { u with write := some ⟨slot, size, 0⟩ }), leBytes 1 slot)

/-- UPD_BEGIN (R427). -/
def execUpdBegin (q : Req) (s : State) : Out := serve 0x0F00 cmdUpdBegin q s

/-! ### UPD_CHUNK (R490) -/

def updChunkCheck (q : Req) (s : State) : Except Err (UpdOpen × Nat) := do
  let len := Req.u16 q 4
  needAt (1 ≤ len && len ≤ 1000) 4
  Req.zeroAt q 6 2
  Req.layout q (8 + len)
  match s.upd.write with
  | none => err eState
  | some w =>
    needAt (Req.u32 q 0 == w.written) 0
    needAt (w.written + len ≤ w.size) 4
    return (w, len)

/-- UPDATE_WRITE_FAIL: the slot stays INCOMPLETE, and the update restarts with UPD_BEGIN. -/
def State.updateFails (slot : Nat) (s : State) : State :=
  (s.onUpd (fun u => { u with write := none })).contain ⟨0xFF, locMram (16 * slot), true, 0, []⟩ false

/-- The bytes of a chunk programmed at WRITTEN. -/
def chunkDo (w : UpdOpen) (data : List Byte) (s : State) : State :=
  let bs := s.slotBytes w.slot
  (s.setSlotBytes w.slot (fitBytes w.written bs ++ data ++ bs.drop (w.written + data.length))).onUpd
    (fun u => { u with write := some { w with written := w.written + data.length } })

/-- A programming failure loses the slot (R490). -/
def cmdUpdChunk (programFails : Bool) (q : Req) (s : State) : Except Err Ans := do
  let (w, len) ← updChunkCheck q s
  if programFails then return .failed (s.updateFails w.slot) eCheck []
  else return .now (chunkDo w (fitBytes len (Req.slice q 8 len)) s) (leBytes 4 (w.written + len))

/-- UPD_CHUNK (R490). -/
def execUpdChunk (q : Req) (programFails : Bool) (s : State) : Out := serveAns 0x0F01 (cmdUpdChunk programFails) q s

/-! ### UPD_END -/

/-- A CRC that differs leaves the slot INCOMPLETE and, since nothing changes, the write open (R12, R431). -/
def cmdUpdEnd (q : Req) (s : State) : Except Err Ans := do
  Req.layout q 4
  match s.upd.write with
  | none => err eState
  | some w =>
    need (w.written == w.size) eState
    let crc := crc32c (fitBytes w.size (s.slotBytes w.slot))
    let closed := s.onUpd (fun u => { u with write := none })
    if crc = Req.u32 q 0 then return .now (closed.writeTable (fun t => fput t (stateFld w.slot) slotWritten)) (leBytes 4 crc)
    else err eCheck

/-- UPD_END (R427). -/
def execUpdEnd (q : Req) (s : State) : Out := serveAns 0x0F02 cmdUpdEnd q s

/-! ### UPD_ACTIVATE (R491, R493) -/

/-- FW_MAJOR of a slot's image (R485). -/
def State.slotMajor (s : State) (slot : Nat) : BitVec 8 := (s.slotBytes slot).getD 8 0

def updActivateCheck (q : Req) (s : State) : Except Err Nat := do
  Req.layout q 1
  let slot := Req.u8 q 0
  needAt (slot < 2) 0
  if s.rescueServes then need (s.slotState slot == slotWritten || s.slotState slot == slotActive) eState
  else
    need (s.slotState slot == slotWritten) eState
    need (!(s.pwr.power == .active && s.slotMajor slot != s.pwr.fwMajor)) eState
  return slot

/-- The firmware's: the table is rewritten, and the restart follows the response by 1 ms. The boot ROM's: the check of R486 at once,
and the firmware starts where it passes. -/
def cmdUpdActivate (verdict : ImageVerdict) (q : Req) (s : State) : Res := do
  let slot ← updActivateCheck q s
  if s.rescueServes then
    match s.imageFails slot verdict with
    | some why => err (if why = 5 then eBinding else eCheck)
    | none => return ((s.activateSlot slot).bootImage, [])
  else return ((s.activateSlot slot).onPwr (fun p => { p with due := some (.restart, s.dueAt) }), [])

/-- UPD_ACTIVATE (R427, R491, R493). -/
def execUpdActivate (q : Req) (verdict : ImageVerdict) (s : State) : Out := serve 0x0F03 (cmdUpdActivate verdict) q s

/-! ### UPD_QUERY -/

def cmdUpdQuery (q : Req) (s : State) : Res := do
  Req.layout q 0
  let t := s.slotTable
  return (s, leBytes 1 (fget t SlotTab.active) ++ leBytes 1 (fget t SlotTab.stateA) ++ leBytes 1 (fget t SlotTab.stateB) ++ [0] ++
    leBytes 4 (fget t SlotTab.sizeA) ++ leBytes 4 (fget t SlotTab.sizeB))

/-- UPD_QUERY (R426). -/
def execUpdQuery (q : Req) (s : State) : Out := serve 0x0F04 cmdUpdQuery q s

end Sys2Proof.Machine
end

