-- ==== Sys2Proof/Machine/Opcodes.lean ====
section
/-! DEFINITION. The body of a host command by its opcode, for requests that reach it in other ways than its own row: from
another member over Svanum Link (R341), or mirrored by a primary (R353). -/

namespace Sys2Proof.Machine

open Sys2Proof

/-- A body whose response follows at once. -/
def atOnce (body : Req → State → Res) (q : Req) (s : State) : Except Err Ans := (body q s).map (fun a => .now a.1 a.2)

/-- The body of an opcode, with what other members answered. Programming is taken to succeed, and an image check is not reached while the
firmware serves. -/
def runOpcode (op : Nat) (q : Req) (s : State) (peers : List PeerAnswer := []) : Except Err Ans :=
  match op with
  | 0x0100 => atOnce cmdSessionInfo q s
  | 0x0101 => atOnce cmdSessionOpen q s
  | 0x0102 => atOnce cmdSessionClose q s
  | 0x0103 => atOnce cmdPowerSet q s
  | 0x0104 => cmdProfileSet q s
  | 0x0105 => atOnce cmdBudgetQuery q s
  | 0x0106 => atOnce cmdSessionReset q s
  | 0x0200 => atOnce cmdPrivRead q s
  | 0x0201 => atOnce cmdPrivWrite q s
  | 0x0300 => atOnce cmdRingCreate q s
  | 0x0301 => atOnce cmdRingDelete q s
  | 0x0302 => atOnce cmdRingModify q s
  | 0x0303 => atOnce cmdRingQuery q s
  | 0x0304 => atOnce cmdMemStatus q s
  | 0x0305 => atOnce cmdFlowInsert q s
  | 0x0306 => atOnce cmdFlowModify q s
  | 0x0307 => atOnce cmdFlowDelete q s
  | 0x0308 => atOnce cmdFlowStatus q s
  | 0x0309 => atOnce cmdIngestWrite q s
  | 0x030A => atOnce cmdMergeWrite q s
  | 0x030B => atOnce cmdMergeStatus q s
  | 0x030C => atOnce cmdHostqBind q s
  | 0x030D => atOnce cmdHostqUnbind q s
  | 0x030E => cmdHostInsert q s
  | 0x030F => atOnce cmdCaptureFrames q s
  | 0x0400 => atOnce cmdPlaneWrite q s
  | 0x0401 => atOnce cmdPulseWrite q s
  | 0x0402 => atOnce cmdClockWrite q s
  | 0x0403 => atOnce cmdPlaneRead q s
  | 0x0500 => atOnce cmdRouteWrite q s
  | 0x0501 => atOnce cmdRouteRead q s
  | 0x0502 => atOnce cmdRouteStatus q s
  | 0x0600 => atOnce cmdSalvoAdd q s
  | 0x0601 => atOnce (cmdSalvoAdmit peers) q s
  | 0x0602 => cmdSalvoTake peers q s
  | 0x0603 => atOnce (cmdSalvoAbandon peers) q s
  | 0x0604 => atOnce (cmdSalvoQuery peers) q s
  | 0x0605 => atOnce cmdSalvoEntries q s
  | 0x0606 => atOnce cmdPresetStore q s
  | 0x0607 => atOnce cmdPresetLoad q s
  | 0x0608 => atOnce cmdPresetDelete q s
  | 0x0609 => atOnce cmdPresetList q s
  | 0x0700 => atOnce cmdCompOutWrite q s
  | 0x0701 => atOnce cmdCompLayerWrite q s
  | 0x0702 => atOnce cmdCompMatrixWrite q s
  | 0x0703 => atOnce cmdCompCursorWrite q s
  | 0x0704 => cmdCompLoad q s
  | 0x0705 => atOnce cmdCompRead q s
  | 0x0706 => atOnce cmdCompLayerRead q s
  | 0x0800 => atOnce cmdCalWrite q s
  | 0x0801 => atOnce cmdAudInWrite q s
  | 0x0802 => atOnce cmdAudOutWrite q s
  | 0x0803 => atOnce cmdAudBusWrite q s
  | 0x0804 => atOnce cmdAudBusInputs q s
  | 0x0805 => atOnce cmdAudDynWrite q s
  | 0x0806 => atOnce cmdAudRead q s
  | 0x0900 => atOnce cmdCandWrite q s
  | 0x0901 => atOnce cmdRefWrite q s
  | 0x0902 => atOnce cmdRefRead q s
  | 0x0903 => atOnce cmdPhaseReset q s
  | 0x0A00 => atOnce cmdPtpInstWrite q s
  | 0x0A01 => atOnce cmdPtpServoWrite q s
  | 0x0A02 => atOnce cmdPtpTsCorr q s
  | 0x0A03 => atOnce cmdPtpSetTime q s
  | 0x0A04 => atOnce cmdPtpRead q s
  | 0x0B00 => atOnce cmdTroupeWrite q s
  | 0x0B01 => atOnce cmdLinkWrite q s
  | 0x0B02 => atOnce cmdLaneWrite q s
  | 0x0B03 => atOnce (cmdTroupeImport peers) q s
  | 0x0B04 => atOnce (cmdTroupeUnimport peers) q s
  | 0x0B05 => cmdTroupeForward q s
  | 0x0B06 => atOnce cmdTroupeRead q s
  | 0x0C00 => atOnce cmdTwinWrite q s
  | 0x0C01 => atOnce cmdTwinRead q s
  | 0x0C02 => atOnce cmdTwinSwap q s
  | 0x0D00 => atOnce cmdRecRead q s
  | 0x0D01 => atOnce cmdRecClear q s
  | 0x0D02 => atOnce cmdRecLimit q s
  | 0x0E00 => atOnce cmdFaultRead q s
  | 0x0E01 => atOnce cmdFaultClear q s
  | 0x0E02 => atOnce cmdFaultForce q s
  | 0x0E03 => atOnce cmdEventConfig q s
  | 0x0F00 => atOnce cmdUpdBegin q s
  | 0x0F01 => cmdUpdChunk false q s
  | 0x0F02 => cmdUpdEnd q s
  | 0x0F03 => atOnce (cmdUpdActivate .proven) q s
  | 0x0F04 => atOnce cmdUpdQuery q s
  | 0x1000 => atOnce cmdTestGen q s
  | 0x1001 => atOnce cmdTestCheck q s
  | 0x1002 => atOnce cmdTestLoop q s
  | 0x1003 => atOnce cmdTestResult q s
  | 0x1004 => cmdTestMem q s
  | 0x1005 => cmdTestShadow q s
  | 0x1100 => atOnce cmdSdiWrite q s
  | 0x1101 => atOnce cmdEthWrite q s
  | 0x1102 => atOnce cmdEthAddrWrite q s
  | 0x1103 => atOnce cmdPktFlowWrite q s
  | 0x1104 => atOnce cmdSbWrite q s
  | 0x1105 => atOnce cmdPortSnapshot q s
  | 0x1106 => atOnce cmdPortRead q s
  | 0x1107 => atOnce cmdPktOutWrite q s
  | _ => err eUnknownOp

/-- UNDEFINED_OPCODE (R5): E_UNKNOWN_OP, or E_DECODE for a malformed header. -/
def execUndefinedOpcode (opcode : BitVec 16) (q : Req) (s : State) : Out :=
  checked q.wf <| if opDefined opcode.toNat then done s.fresh else serve opcode.toNat (fun _ _ => err eUnknownOp) q s

/-- FORWARDED_COMMAND (R341): checked against this member's P1 entry and executed; from outside MEMBERS it is dropped and counted. -/
def execForwardedCommand (opcode : BitVec 16) (q : Req) (s : State) : Out :=
  let q1 := { q with port := .p1 }
  checked q1.wf <| if !maskBit (fget s.trp.rec_ TroupeRec.members) q.sender then
    done (s.fresh.onTrp (fun t => { t with dropped := t.dropped + 1 }))
  else serveAns opcode.toNat (runOpcode opcode.toNat) q1 s

end Sys2Proof.Machine
end

