-- ==== Sys2Proof/Machine/Mirror.lean ====
section
/-! DEFINITION. Mirrored commands (R353, R354): a shadow executes each in MIRROR_SEQ order, acknowledges it, and both twins apply
it at its TARGET; and what an acknowledgement, or its absence, does on the primary. -/

namespace Sys2Proof.Machine

open Sys2Proof

/-- A mirrored command executed with the receipt time that its TARGET stands for (R353). -/
def State.runMirror (m : Mirror) (s : State) : Except Err Ans :=
  runOpcode m.opcode m.req (s.onCtl (fun c => { c with stamp := some (m.target - 1000000) })) m.peers

def State.unstamp (s : State) : State := s.onCtl (fun c => { c with stamp := none })

/-- The status of a mirrored command. -/
def ansStatus : Except Err Ans → Nat
  | .ok (.failed _ st _) => st
  | .ok _ => 0
  | .error e => e.status

/-- The state a mirrored command leaves. -/
def ansState (s : State) : Except Err Ans → State
  | .ok a => a.state.unstamp
  | .error e => s.raiseErr e

/-! ### On the shadow -/

/-- The sequence number the shadow expects. -/
def State.nextMirror (s : State) : Nat := (fget s.twin.rec_ Twin.mirrorSeq + s.twin.mirrors.length + 1) % 2 ^ 32

/-- The shadow's part: executed or held, and acknowledged with its own status. A status that differs makes it UNSYNCED. -/
def State.takeMirror (m : Mirror) (status : Nat) (s : State) : State :=
  let r := s.runMirror m
  let st := ansStatus r
  let s1 := if m.early then ansState s r else s
  let s2 := (s1.onTwin (fun t => { t with mirrors := t.mirrors ++ [m] })).sendMessage 7 msgMirrorAck
    (leBytes 4 m.mseq ++ leBytes 2 st ++ leBytes 2 0)
  if st = status then s2 else s2.unsync 1

/-- MIRROR (R353, R354): one out of sequence, or after its TARGET, is discarded. -/
def execMirror (mseq : BitVec 32) (opcode : BitVec 16) (q : Req) (status : BitVec 16) (target : BitVec 64) (s0 : State) : Out :=
  let s := s0.fresh
  checked q.wf <|
  if s.role != .shadow || s.pwr.bootState != .firmware then done s
  else if mseq.toNat != s.nextMirror || target.toNat < s.now then done (s.unsync 3)
  else done (s.takeMirror ⟨mseq.toNat, opcode.toNat, q, target.toNat, ownTarget opcode.toNat q != 0, true, []⟩ status.toNat)

/-! ### On the primary -/

/-- The waiting response of a mirror. -/
def mirrorJob (mseq : Nat) (j : Job) : Bool :=
  match j.kind with
  | .mirror n _ => n == mseq
  | _ => false

/-- The primary's response, unless the command waits for more than its twin. -/
def State.answerMirror (m : Mirror) (s : State) : State :=
  match s.runMirror m with
  | .ok (.later _ _ _) => s
  | _ => s.answerJob (mirrorJob m.mseq) 0 (·.result)

/-- A mirror's entry acknowledged. -/
def State.ackMirror (mseq : Nat) (s : State) : State :=
  s.onTwin (fun t => { t with mirrors := t.mirrors.map (fun m => if m.mseq == mseq then { m with acked := true } else m) })

/-- MIRROR_ACK (R354): the response leaves for the host; a status that differs makes the shadow UNSYNCED. -/
def execMirrorAck (mseq : BitVec 32) (status : BitVec 16) (s0 : State) : Out :=
  let s := s0.fresh
  if s.role != .primary then done s
  else match s.twin.mirrors.find? (fun m => m.mseq == mseq.toNat && !m.acked) with
    | none => done s
    | some m =>
      let s1 := (s.answerMirror m).ackMirror m.mseq
      done (if status = 0 then s1 else s1.unsync 1)

/-- MIRROR_ACK_TIMEOUT (R354): from TARGET − 200 µs the shadow is UNSYNCED, and the primary responds; it applies the command at TARGET. -/
def execMirrorAckTimeout (s0 : State) : Out :=
  let s := s0.fresh
  if s.role != .primary then done s
  else match s.twin.mirrors.find? (fun m => !m.acked && decide (m.target ≤ s.now + 200000)) with
    | none => done s
    | some m => done (((s.answerMirror m).ackMirror m.mseq).unsync 2)

/-! ### On both -/

/-- A response that waits for more than the twin waits for it from the application on. -/
def State.rewait (m : Mirror) (r : Except Err Ans) (s : State) : State :=
  match r with
  | .ok (.later _ kind res) => s.onCtl (fun c => { c with
      jobs := c.jobs.map (fun j => if mirrorJob m.mseq j then { j with kind := kind, result := res } else j) })
  | _ => s

/-- MIRROR_APPLY (R353): the oldest command is applied at its TARGET, and MIRROR_SEQ is its number. -/
def execMirrorApply (s0 : State) : Out :=
  let s := s0.fresh
  match s.twin.mirrors with
  | [] => done s
  | m :: rest =>
    if s.now < m.target || s.pwr.bootState != .firmware then done s
    else
      let r := s.runMirror m
      let s1 := if m.early then s else (ansState s r).rewait m r
      done (s1.onTwin (fun t => { t with mirrors := rest, rec_ := fput t.rec_ Twin.mirrorSeq m.mseq }))

end Sys2Proof.Machine
end

