-- ==== Sys2Proof/Machine/Resync.lean ====
section
/-! DEFINITION. Resynchronisation (R358): the primary chooses Tr and copies its hardware state; at Tr the shadow takes it on and mirroring
resumes. -/

namespace Sys2Proof.Machine

open Sys2Proof

/-- RELEASE of the twin's latest heartbeat equals this device's. -/
def State.sameRelease (s : State) : Bool :=
  leNat ((s.twin.hb.drop 6).take 2) == s.pwr.fwMajor.toNat + 256 * s.pwr.fwMinor.toNat

/-- The conditions of R358, with at least 10 s since the one before. -/
def State.mayResync (s : State) : Bool :=
  s.role == .primary && s.pwr.bootState == .firmware && (s.sync == 1 || s.sync == 3) && s.pathOk false && s.sameRelease &&
    s.twin.resync.isNone && (match s.twin.lastResync with
      | some c => decide (10000000000 ≤ (s.time.clk - c).toNat)
      | none => true)

/-- RESYNC_START: Tr is 500 ms ahead; the copy leaves over path A with Tr. -/
def execResyncStart (s0 : State) : Out :=
  let s := s0.fresh
  if !s.mayResync then done s
  else
    let tr := s.now + 500000000
    done ((s.onTwin (fun t => { t with resync := some tr, resynced := false, lastResync := some s.time.clk })).sendMessage 7 msgResync
      (leBytes 8 tr))

/-! ### What the shadow takes on at Tr -/

/-- The keys of two tables. -/
def bothKeys {α : Type} (a b : Tab α) : List Nat := (a.map (·.1) ++ b.map (·.1)).eraseDups

/-- A record copied: its writable fields; a status field stays the shadow's own. -/
def copyRec {n : Nat} (layout : List Fld) (own new : BitVec n) : BitVec n := mergeRec layout own (recBytes new)

/-- A table of records copied. -/
def copyTab {n : Nat} (d : Nat → BitVec n) (layout : List Fld) (own new : Tab (BitVec n)) : Tab (BitVec n) :=
  (bothKeys own new).foldl (fun t k => tset d t k (copyRec layout (tget d own k) (tget d new k))) own

/-- Lanes, ports and links, whose enables start or stop what runs behind them. -/
def State.copyPorts (c : HwCopy) (s : State) : State :=
  let s1 := (bothKeys s.sdi.cfg c.sdi.cfg).foldl (fun s l => sdiWriteDo l (copyRec SdiLane.layout (sdiCfg s l) (tget sdiReset c.sdi.cfg l)) s) s
  let s2 := (bothKeys s1.eth.port c.eth.port).foldl (fun s n =>
    ethWriteDo n (copyRec EthPort.layout (s.ethPort n) (tget ethReset c.eth.port n)) s) s1
  (bothKeys s2.trp.link c.link).foldl (fun s k => linkWriteDo k (copyRec Link.layout (s.linkRec k) (tget linkReset c.link k)) s) s2

/-- Rings with their WSEQ and markers, and the claims. A writer continues at its next unit start. -/
def State.copyRings (c : HwCopy) (s : State) : State :=
  (s.onMem (fun m => { m with
    rings := c.mem.rings, decl := c.mem.decl, markers := c.mem.markers
    wr := (c.mem.rings.map (·.1)).foldl (fun t r => tset wrReset t r { wrReset 0 with discard := true }) [] })).onBud
      (fun b => { b with profile := c.bud.profile, holds := c.bud.holds, high := c.bud.high })

/-- The route table, arm registers and committed salvos, and the frame counts that digests name (R357; DEDUCED, log entry 68). -/
def State.copyRoutes (c : HwCopy) (s : State) : State :=
  s.onRte (fun r => { r with
    active := c.rte.active, pending := c.rte.pending, arm := c.rte.arm, salvos := c.rte.salvos
    outs := tmap outReset (fun o v => { v with frames := (tget outReset c.rte.outs o).frames }) r.outs })

/-- References, planes, pulses and clocks. -/
def State.copyRefs (c : HwCopy) (s : State) : State :=
  let copied := s.onRef (fun r => { r with
    cand := copyTab candReset Cand.layout r.cand c.ref.cand, eng := copyRec RefEng.layout r.eng c.ref.eng
    plane := copyTab planeReset Plane.layout r.plane c.ref.plane, planeSt := c.ref.planeSt
    pulse := copyTab pulseReset Pulse.layout r.pulse c.ref.pulse, clock := copyTab clockReset ClkOut.layout r.clock c.ref.clock
    build := c.ref.build })
  copied.onPtp (fun p => { p with inst := copyTab instReset Inst.layout p.inst c.inst, servo := copyRec Servo.layout p.servo c.servo })

/-- Flows, packetisers and Merge Unit, with its leg states. -/
def State.copyFlows (c : HwCopy) (s : State) : State :=
  (s.onEth (fun e => { e with addr := c.eth.addr })).onFlo (fun f => { f with
    table := c.flo.table, ingest := copyTab ingestReset Ingest.layout f.ingest c.flo.ingest
    pkt := copyTab pktReset PktFlow.layout f.pkt c.flo.pkt, hdr := c.flo.hdr
    pktOut := copyTab pktOutReset PktOut.layout f.pktOut c.flo.pktOut
    merge := copyTab mergeReset Merge.layout f.merge c.flo.merge, mergeSt := c.flo.mergeSt })

/-- Composers and Calliope, with dynamics gains, limiter and ramp positions. -/
def State.copyEssence (c : HwCopy) (s : State) : State :=
  (s.onCmp (fun p => { p with
    out := c.cmp.out, layer := c.cmp.layer, mat := c.cmp.mat, cur := c.cmp.cur, banks := c.cmp.banks, held := c.cmp.held })).onCal
    (fun a => { a with
      ctl := c.cal.ctl, audIn := c.cal.audIn, outHdr := c.cal.outHdr, outCh := c.cal.outCh, bus := c.cal.bus, busIn := c.cal.busIn
      dyn := c.cal.dyn, tapMix := c.cal.tapMix, inGain := c.cal.inGain, chMix := c.cal.chMix, chGain := c.cal.chGain, xpMix := c.cal.xpMix
      xpGain := c.cal.xpGain, busGain := c.cal.busGain, dynG := c.cal.dynG, acc := c.cal.acc, limG := c.cal.limG, held := c.cal.held })

/-- The Port Privilege Table copied; the bits R384 fixes stay. -/
def copyPriv (own new : Tab (BitVec 64)) : Tab (BitVec 64) :=
  [0, 1, 2, 3, 4].foldl (fun t p => tset privReset t p (privFixed p (tget privReset t p) (tget privReset new p))) own

/-- VECTOR and ENABLE of each event code copied; what is pending stays the shadow's own. -/
def copyEv (own new : Tab (BitVec 32)) : Tab (BitVec 32) :=
  (bothKeys own new).foldl (fun t k =>
    let n := tget evCfgReset new k
    tset evCfgReset t k (fput (fput (tget evCfgReset own k) EvCfg.vector (fget n EvCfg.vector)) EvCfg.enable (fget n EvCfg.enable))) own

/-- The fault collector's settings and the recorder's limits. -/
def State.copyFaults (c : HwCopy) (s : State) : State :=
  (s.onFlt (fun f => { f with ctl := copyRec FaultCtl.layout f.ctl c.faultCtl, evCfg := copyEv f.evCfg c.evCfg })).onRec
    (fun r => { r with limits := c.limits })

/-- The Troupe record, its lanes, exports and imports, and the Port Privilege Table. -/
def State.copyTroupe (c : HwCopy) (s : State) : State :=
  (s.onTrp (fun t => { t with
    rec_ := copyRec TroupeRec.layout t.rec_ c.trp
    lane := copyTab laneRecReset LaneRec.layout t.lane c.lane, exp := c.exp, imp := c.imp })).onCtl (fun p => { p with priv := copyPriv p.priv c.priv })

/-- The state of R358 step 3. The records of the twin function and of the service-bus MAC stay the shadow's own: each names its own end of
the two paths (log entry 68). -/
def State.takeCopy (c : HwCopy) (s : State) : State :=
  let s1 := (((((s.copyPorts c).copyRings c).copyRoutes c).copyRefs c).copyFlows c).copyEssence c
  ((s1.copyTroupe c).copyFaults c).twinF Twin.mirrorSeq c.mirrorSeq.toNat

/-- From Tr the twins are SYNCING, and mirroring resumes. -/
def State.resumeMirrors (s : State) : State :=
  ((s.twinF Twin.sync 1).onTwin (fun t => { t with
    resync := none, resynced := true, mirroring := true, mirrors := [], matched := [], mine := [], theirs := [] })).checkSynced

/-- RESYNC_POINT (R358): on the shadow with the copy, on the primary with its own state. -/
def execResyncPoint (copy : HwCopy) (s0 : State) : Out :=
  let s := s0.fresh
  match s.role with
  | .shadow => done (if s.pathOk false then (s.takeCopy copy).resumeMirrors else s)
  | .primary => done (match s.twin.resync with
    | some tr => if tr ≤ s.now then s.resumeMirrors else s
    | none => s)
  | .solo => done s

/-- RESYNC_TIMEOUT (R358): not SYNCED within 5 s of Tr. -/
def execResyncTimeout (s0 : State) : Out :=
  let s := s0.fresh
  done (if s.twin.resynced && s.sync = 1 then (s.unsync 7).onTwin (fun t => { t with resynced := false }) else s)

end Sys2Proof.Machine
end

