-- ==== Sys2Proof/Machine/Slots.lean ====
section
/-! DEFINITION. The slots of the Carousel (R69, R70): one tile written (R41) with what follows its commit, and one tile read,
verified and concealed by each kind of reader (R16, R59 to R65). A claim takes a slot only with sixteen credits. -/

namespace Sys2Proof.Machine

open Sys2Proof

/-! ### A write slot -/

/-- The running conversion whose output is a ring. -/
def State.compOfRing (s : State) (r : Nat) : Option (Nat × CompSet) :=
  s.cmp.st.findSome? (fun e => match e.2.run with
    | some v => if fget v.out CompOut.outRing = r then some (e.1, v) else none
    | none => none)

/-- A Composer renders the next tile of its open frame as its slot comes. -/
def State.compNext (r : Nat) (s : State) : State :=
  let w := s.wr r
  match s.compOfRing r with
  | none => s
  | some (n, v) =>
    if !w.staged.isEmpty || !w.unitOpen || w.discard then s
    else s.closeTile r (locComp (n / 4) 9) (s.compTile n v w.tile) false

/-- An ABANDON cell follows the last tile of an abandoned unit that waited (R336). -/
def State.abandonAfter (r : Nat) (t : Staged) (s : State) : State :=
  let unit := s.markerAt r t.eseq
  let same (x : Staged) : Bool := unit.isSome && s.markerAt r x.eseq == unit
  let cut := t.poison && (match unit with | some k => k.state == .incomplete | none => false) && !((s.wr r).staged.any same)
  if t.skip != 0 || cut then s.sendAbandon r (t.eseq + 1) (t.eseq + 1 + BitVec.ofNat 32 t.skip) else s

/-- The descriptor of a unit whose END tile has been committed to a capture ring (R393). -/
def State.descAfter (r : Nat) (t : Staged) (s : State) : State :=
  if !t.fin then s
  else match s.captureQueue r, s.markerAt r t.eseq with
    | some h, some k => s.completeDesc h k.eseq id
    | _, _ => s

/-- A ring's oldest tile takes its slot (R69): it is committed (R41), copied to the ring's exports, and followed by what ends with it. -/
def State.takeSlot (r : Nat) (t : Staged) (s : State) : State :=
  ((((s.spend (.write r) (s.channelAt r t.eseq)).commitTile r t).feedExports r t.eseq).abandonAfter r t).descAfter r t

/-- TILE_COMMIT (R41): the oldest staged tile of a ring, where it wins the slot of its class on its channel (R69, R70). -/
def execTileCommit (ring : Fin 8192) (s0 : State) : Out :=
  let r := ring.val
  let s := s0.fresh
  let s1 := if s.hasCredit (.write r) (s.channelAt r (s.nextEseq r)) then s.compNext r else s
  match s1.tileWaiting r with
  | none => done s1
  | some t => done (if s1.winsSlot r t then s1.takeSlot r t else s1)

/-- The black tiles a reader needs take the slots there are, in order; `n` bounds them. -/
def State.takeBlack (r : Nat) : Nat → State → State
  | 0, s => s
  | n + 1, s => match s.tileWaiting r with
    | some t => if t.free then State.takeBlack r n (s.takeSlot r t) else s
    | none => s

/-! ### A reading -/

/-- Verification with its report, counters and events (R37, R59 to R61). -/
def State.judge (r : Nat) (eseq : BitVec 32) (l : Nat) (expect : Option (Bool × Nat)) (data : Bool) (cache : CacheErr) (s : State) :
    State × Verdict :=
  let s1 := s.cacheReport r eseq cache
  let v := s1.verify r eseq expect
  ((s1.countVerdict r eseq data v).raiseVerdict r eseq l v, v)

/-- The tag a reader expects at a position of an audio ring, or of a video unit that starts at `first`; none for data (R59). -/
def expectTag (d : BitVec 256) (j : Nat) : Option (Bool × Nat) :=
  if ringType d = 3 then none else if ringType d = 2 then some (true, 3071) else some (videoTag d j)

/-- A tile of an open frame of a Composer that a reader needs before it is written becomes black (R239). -/
def State.needTile (r : Nat) (eseq : BitVec 32) (s : State) : State :=
  match s.compOfRing r with
  | none => s
  | some (n, _) =>
    let j := (eseq - (s.wr r).first).toNat
    if j < ringTpf (s.ring r) && (eseq - ringWseq (s.ring r)).toNat < 2 ^ 31 then (s.compBlack n r (j + 1)).takeBlack r (j + 1) else s

/-! ### Outputs -/

/-- The readers, as output and part, that form one group with an output's reader of a ring in a mode (R15, R107): one read of a tile serves
them all. -/
def State.readGroup (s : State) (o r mode : Nat) (f : OutFmt) : List (Nat × Nat) :=
  (s.rte.active.map (·.1)).flatMap (fun p =>
    if (s.out p).running && !(s.out p).gen && (s.out p).repeating == (s.out o).repeating &&
      (match s.outFmt p with | some g => g.plane == f.plane && g.offset == f.offset | none => false)
    then ((s.readerParts p).filter (fun x => x.2.1 == r && x.2.2 == mode)).map (fun x => (p, x.1)) else [])

/-- What the readers pass to the output stages, with its record in the digest of each (R357). -/
def State.passOn (readers : List (Nat × Nat)) (r verdict crc : Nat) (bytes : Option (List Byte)) (s : State) : State :=
  readers.foldl (fun s p =>
    let s1 := s.setOut p.1 { s.out p.1 with
      digest := (s.out p.1).digest ++ leBytes 2 r ++ leBytes 2 verdict ++ leBytes 4 (if verdict = 2 then 0 else crc) }
    match bytes with
    | some b => s1.emit (.tile p.1 verdict b)
    | none => s1) s

/-- A video tile takes its place in the frames that its readers' outputs emit. -/
def State.placeTile (readers : List (Nat × Nat)) (d : BitVec 256) (j : Nat) (bytes : List Byte) (s : State) : State :=
  readers.foldl (fun s p =>
    let v := s.out p.1
    s.setOut p.1 { v with tx := { v.tx with desc := d, tiles := tset bytesReset v.tx.tiles j bytes } }) s

def routeGrp (r : Nat) (f : OutFmt) (mode : Nat) : Grp := .route r f.plane mode f.offset

/-- The first ESEQ of the frame an output's video reader is in at a position: by its marker for a cut-through route, else the frame it
chose, none where it has none to read (R56, R106). -/
def State.readerFrame (s : State) (o r mode : Nat) (eseq : BitVec 32) : Option (BitVec 32) :=
  if mode = 0 && !(s.out o).repeating then some (s.frameOf r eseq (s.out o).lastFrame) else (s.out o).lastFrame

/-- A video tile of an output: concealed where it fails (R62). -/
def State.readVideo (o r mode : Nat) (f : OutFmt) (readers : List (Nat × Nat)) (first eseq : BitVec 32) (cache : CacheErr) (s : State) : State :=
  let l := s.locOut o
  let s1 := s.needTile r eseq
  let d := s1.ring r
  let j := (eseq - first).toNat
  if ringTpf d ≤ j then s
  else
    let (s2, v) := s1.judge r eseq l (some (videoTag d j)) false cache
    let from_ := if v.isGood then eseq else (s2.standIn r eseq first).getD eseq
    let (s3, verdict, bytes) := s2.concealVideo r l eseq first v
    ((s3.spend (routeGrp r f mode) (s.channelAt r eseq)).passOn readers r verdict (tileCrc bytes from_) (some bytes)).placeTile readers d j bytes

/-- A tile of ancillary data (R64) or of audio (R63) of an output. What an audio reader emits goes with its own millisecond (R245). -/
def State.readOther (o : Nat) (anc : Bool) (r mode : Nat) (f : OutFmt) (readers : List (Nat × Nat)) (eseq : BitVec 32) (cache : CacheErr)
    (s : State) : State :=
  let (s1, v) := s.judge r eseq (s.locOut o) (expectTag (s.ring r) 0) anc cache
  let s2 := s1.spend (routeGrp r f mode) (s.channelAt r eseq)
  match v with
  | .good b => s2.passOn readers r 0 (tileCrc b eseq) (if anc then some b else none)
  | _ => if anc then s2 else s2.passOn readers r 2 0 none

/-- A ring seen with another descriptor: that of a frame that is repeated after its ring was formed anew (R116). -/
def State.withDesc (r : Nat) (d : BitVec 256) (g : State → State) (s : State) : State :=
  if d = s.ring r then g s else (g (s.setRing r d)).setRing r (s.ring r)

/-- A reader of an output's part in its group's slot. -/
def State.readOut (o part : Nat) (eseq : BitVec 32) (cache : CacheErr) (s : State) : State :=
  match (s.readerParts o).find? (fun p => p.1 == part), s.outFmt o with
  | some (_, r, mode), some f =>
    let readers := s.readGroup o r mode f
    if !readers.contains (o, part) || !s.hasCredit (routeGrp r f mode) (s.channelAt r eseq) then s
    else if part = 0 then
      match s.readerFrame o r mode eseq with
      | some first => s.withDesc r (s.videoDesc o r) (State.readVideo o r mode f readers first eseq cache)
      | none => s
    else s.readOther o (part == 1) r mode f readers eseq cache
  | _, _ => s

/-! ### Composers, Calliope, the Merge Unit -/

/-- The layers of a Composer that read one ring at the phase of a layer: one read of a tile serves them all (R15). -/
def State.layerGroup (s : State) (c l : Nat) (v : CompSet) : List Nat :=
  let mode := s.compMode c
  (List.range 8).filter (fun k => fbit (v.layerRec k) Layer.layerEn && layerPhase mode k == layerPhase mode l &&
    fget (v.layerRec k) Layer.sourceRing == fget (v.layerRec l) Layer.sourceRing && (s.laySt (8 * c + k)).frame == (s.laySt (8 * c + l)).frame)

/-- The reader of a layer and of those grouped with it: a failed tile is concealed as video (R65), at the group's lowest layer. -/
def State.readLayer (c l : Nat) (eseq : BitVec 32) (cache : CacheErr) (s : State) : State :=
  let mode := s.compMode c
  match (s.compSt (4 * c + layerConv mode l)).run, (s.laySt (8 * c + l)).frame with
  | some v, some first =>
    let r := fget (v.layerRec l) Layer.sourceRing
    let g : Grp := .compRead c r (layerPhase mode l)
    let at_ := locComp c ((s.layerGroup c l v).headD l)
    let j := (eseq - first).toNat
    if s.compHeld c || !s.hasCredit g (s.channelAt r eseq) || ringTpf (s.ring r) ≤ j then s
    else
      let s0 := s.needTile r eseq
      let (s1, w) := s0.judge r eseq at_ (some (videoTag (s0.ring r) j)) false cache
      (s1.concealVideo r at_ eseq first w).1.spend g (s.channelAt r eseq)
  | _, _ => s

/-- A tap's reader: a failed tile is silence to the mix (R65). -/
def State.readTap (i t : Nat) (eseq : BitVec 32) (cache : CacheErr) (s : State) : State :=
  let e := tget audInReset s.cal.audIn i
  let r := fget e AudIn.inRing
  let g : Grp := .calRead i t
  if !s.cal.run || s.blockHeld 48 || !fbit e AudIn.inEn || !s.hasCredit g (s.channelAt r eseq) then s
  else (s.judge r eseq (locCal 3) (some (true, 3071)) false cache).1.spend g (s.channelAt r eseq)

/-- Where a tile stands in its unit on a merge leg: by the leg's unit queue (R208), else by the ring's markers, else at its start. -/
def State.legIndex (s : State) (m : Nat) (secondary : Bool) (r : Nat) (eseq : BitVec 32) : Nat :=
  match ((s.mergeSt m).leg secondary).unitAt eseq with
  | some u => (eseq - u.first).toNat
  | none => match s.markerAt r eseq with
    | some k => (eseq - k.eseq).toNat
    | none => 0

/-- A merge leg's reader: a failed tile is the loss of that tile on that leg (R65). -/
def State.readLeg (m : Nat) (secondary : Bool) (eseq : BitVec 32) (cache : CacheErr) (s : State) : State :=
  let e := tget mergeReset s.flo.merge m
  let r := fget e (if secondary then Merge.secondaryRing else Merge.primaryRing)
  let g : Grp := .merge m (bit secondary)
  if !fbit e Merge.mergeEn || s.blockHeld 52 || !s.hasCredit g (s.channelAt r eseq) then s
  else (s.judge r eseq (locMerge m) (expectTag (s.ring r) (s.legIndex m secondary r eseq)) (ringType (s.ring r) == 3) cache).1.spend g
    (s.channelAt r eseq)

/-! ### Frame capture (R391 to R393, R412) -/

/-- The next COMPLETE unit of a ring after a position. -/
def State.nextUnit (s : State) (r : Nat) (after : BitVec 32) : Option Marker :=
  let past (k : Marker) : Nat := (k.eseq - after).toNat
  ((s.markersOf r).filter (fun k => k.state == .complete && past k != 0 && past k < 2 ^ 31)).foldl (fun a k =>
    match a with
    | some x => if past k < past x then some k else some x
    | none => some k) none

/-- Bytes of a unit (DEDUCED, log entry 63): of a frame its lines as they lie in the ring, of an audio tile its samples, of a data unit
what its tags tell. -/
def State.unitSize (s : State) (r : Nat) (k : Marker) : Nat :=
  let d := s.ring r
  match ringType d with
  | 0 => fget d RingDesc.lineBytes * ringLines d
  | 1 => ringPitch d * ringLines d
  | 2 => 3072
  | _ =>
    let last := k.eseq + k.tiles - 1
    let tag := leNat (s.bytesAt (checkBase s.pwr.reduced + 8 * ringTile d last + 4) 4)
    4096 * (k.tiles.toNat - 1) + tag % 4096 + 1

def State.setCapture (c : Capture) (s : State) : State :=
  s.onCtl (fun x => { x with captures := (x.captures.map (fun y => if y.queue == c.queue then c else y)).filter (fun y => y.left != 0) })

/-- The capture writer starts a unit with a descriptor, or drops it for want of one (R393). -/
def State.captureStart (c : Capture) (k : Marker) (s : State) : State :=
  let v := s.hq c.queue
  if !v.room then (s.setHq c.queue { v with lost := sat32 v.lost 1 }).setCapture { c with left := c.left - 1, after := k.eseq }
  else
    let d : Desc := ⟨s.nextEseq v.ring, BitVec.ofNat 32 (s.unitSize c.ring k), k.tiles, BitVec.ofNat 64 k.time, false, 0, 0, false⟩
    (s.setHq c.queue { v with taken := v.taken ++ [d] }).startUnit v.ring locHost

/-- A tile of a unit is copied; the unit ends with its last tile, where its writer has overwritten a tile (R412), or where the capture ring
runs out. -/
def State.captureTile (c : Capture) (k : Marker) (j : Nat) (eseq : BitVec 32) (cache : CacheErr) (s : State) : State :=
  let q := (s.hq c.queue).ring
  let d := s.ring c.ring
  let first := (s.wr q).first
  let (s1, v) := s.judge c.ring eseq locHost (expectTag d j) (ringType d == 3) cache
  let last := j + 1 == k.tiles.toNat
  let fin (s : State) : State := s.setCapture { c with left := c.left - 1, after := k.eseq }
  let wrote (s : State) : State :=
    if (s.wr q).discard then fin (s.truncated c.queue q first) else if last then fin s else s
  if fget d RingDesc.length < (ringWseq d - eseq).toNat then fin ((s1.abandonCounted q locHost false).truncated c.queue q first)
  else if ringIsVideo d then
    let (s2, _, b) := s1.concealVideo c.ring locHost eseq k.eseq v
    wrote (s2.closeTile q locHost b false)
  else match v with
    | .good b =>
      let n := if ringType d = 2 then 3072 else leNat (s.bytesAt (checkBase s.pwr.reduced + 8 * ringTile d eseq + 4) 4) % 4096 + 1
      wrote (s1.closeTile q locHost (b.take n) last)
    | _ => fin ((s1.abandonCounted q locHost false).truncated c.queue q first)

/-- A frame capture reads the next tile of the unit it copies, in a best-effort slot. -/
def State.readCapture (h : Nat) (eseq : BitVec 32) (cache : CacheErr) (s : State) : State :=
  match s.ctl.captures.find? (fun c => c.queue == h) with
  | none => s
  | some c =>
    match s.nextUnit c.ring c.after with
    | none => s
    | some k =>
      let q := (s.hq h).ring
      let start := eseq == k.eseq && !((s.wr q).unitOpen && !(s.wr q).discard)
      let s1 := if start then s.captureStart c k else s
      let w := s1.wr q
      let j := w.tile
      if w.discard || !w.unitOpen || eseq != k.eseq + BitVec.ofNat 32 j || !s1.ctl.captures.contains c then s1
      else
        let tiles := [ringTile (s.ring c.ring) eseq]
        if s1.bestRoom tiles then (s1.takeBest tiles).captureTile c k j eseq cache else s1

/-- TILE_READ (R59): a reader reads a tile in its slot. -/
def execTileRead (reader : Reader) (eseq : BitVec 32) (cache : CacheErr) (s0 : State) : Out :=
  let s := s0.fresh
  done (match reader with
    | .video o => s.readOut o.val 0 eseq cache
    | .anc o => s.readOut o.val 1 eseq cache
    | .audio o k => s.readOut o.val (k.val + 2) eseq cache
    | .layer c l => s.readLayer c.val l.val eseq cache
    | .tap i t => s.readTap i.val t.val eseq cache
    | .leg m sec => s.readLeg m.val sec eseq cache
    | .capture h => s.readCapture h.val eseq cache)

end Sys2Proof.Machine
end

