-- ==== Sys2Proof/Machine/Turns.lean ====
section
/-! DEFINITION. The Carousel's turns (R68 to R71) and the Tile Store window BAR2 (R374, R375), whose accesses take best-effort slots and
wait for a later turn where none is left in this one. -/

namespace Sys2Proof.Machine

open Sys2Proof

/-! ### What the window reaches -/

/-- The ring that owns a tile index. -/
def State.ringAt (s : State) (i : Nat) : Option Nat :=
  (s.mem.rings.find? (fun e => !ringFree e.2 && fget e.2 RingDesc.base ≤ i && i < fget e.2 RingDesc.base + fget e.2 RingDesc.length)).map (·.1)

/-- The newest ESEQ below WSEQ that falls at a tile of the ring. -/
def newestAt (d : BitVec 256) (i : Nat) : BitVec 32 :=
  let len := max 1 (fget d RingDesc.length)
  let last := ringWseq d - 1
  last - BitVec.ofNat 32 ((last.toNat % len + len - (i - fget d RingDesc.base)) % len)

/-- Tile Store address of a BAR2 offset. -/
def State.bar2Base (s : State) (off : Nat) : Nat := fget s.ctl.midway Midway.winBase * 2 ^ 32 + off

/-- What a whole tile gives the host: none where its read fails. -/
def State.bar2Tile (i : Nat) (s : State) : State × Option (List Byte) :=
  match s.ringAt i with
  | none => (s, some (s.bytesAt (4096 * i) 4096))
  | some r =>
    let e := newestAt (s.ring r) i
    let v := s.verify r e none
    match v with
    | .good b => (s, some b)
    | _ => ((s.countVerdict r e true v).raiseVerdict r e locHost v, none)

/-- The tiles of an access. -/
def touchedTiles (a len : Nat) : List Nat :=
  if len = 0 then [] else (List.range ((a + len - 1) / 4096 - a / 4096 + 1)).map (· + a / 4096)

/-- The read of a whole request at a Tile Store address: no data unless every tile can be returned. -/
def State.bar2Get (a len : Nat) (s : State) : State :=
  let got : State × Option (List Byte) := (touchedTiles a len).foldl (fun acc i => match acc with
    | (s, none) => (s, none)
    | (s, some bs) => match s.bar2Tile i with
      | (t, some b) => (t, some (bs ++ b))
      | (t, none) => (t, none)) (s, some [])
  match got.2 with
  | some bs => got.1.emit (.completion ((bs.drop (a % 4096)).take len))
  | none => got.1.emit .abort

/-- The part of a write that falls in one tile, and the tile's check record poisoned: the complement of the CRC its payload has with ESEQ 0,
which fails against every ESEQ that matches and counts as poisoned against that one (R40; DESIGN CHOICE, log entry 65). -/
def State.bar2Tile1 (a : Nat) (bytes : List Byte) (i : Nat) (s : State) : State :=
  let lo := max a (4096 * i)
  let hi := min (a + bytes.length) (4096 * i + 4096)
  let s1 := s.storeBytes lo ((bytes.drop (lo - a)).take (hi - lo))
  s1.storeBytes (checkBase s.pwr.reduced + 8 * i) (leBytes 4 (poisonCrc (tileCrc (s1.bytesAt (4096 * i) 4096) 0)))

/-- The tiles a write reaches: ring space in tiles of no ring. -/
def State.bar2Targets (s : State) (a len : Nat) : List Nat :=
  (touchedTiles a len).filter (fun i => i < ringSpace s.pwr.reduced && (s.ringAt i).isNone)

/-- A write at a Tile Store address. -/
def State.bar2Put (a : Nat) (bs : List Byte) (s : State) : State :=
  (s.bar2Targets a bs.length).foldl (fun s i => s.bar2Tile1 a bs i) s

/-! ### Best-effort slots (R71) -/

/-- The tiles an access moves. -/
def State.accessTiles (s : State) : BestAccess → List Nat
  | .read a len => touchedTiles a len
  | .write a bs => s.bar2Targets a bs.length

/-- The access itself, with a slot of best-effort traffic for each of its tiles. -/
def State.accessNow (x : BestAccess) (s : State) : State :=
  let s1 := s.takeBest (s.accessTiles x)
  match x with
  | .read a len => s1.bar2Get a len
  | .write a bs => s1.bar2Put a bs

/-- An access takes its slots in this turn, or waits behind those that wait (R71; DESIGN CHOICE, log entry 104). -/
def State.access (x : BestAccess) (s : State) : State :=
  if s.bud.waits.isEmpty && s.bestRoom (s.accessTiles x) then s.accessNow x
  else s.onBud (fun b => { b with waits := b.waits ++ [x] })

/-- The waiting accesses that a turn has slots for, oldest first. -/
def State.serveWaits : List BestAccess → State → State
  | [], s => s
  | x :: l, s =>
    if s.bestRoom (s.accessTiles x) then State.serveWaits l ((s.onBud (fun b => { b with waits := l })).accessNow x) else s

/-- What waits on the exports of every ring. -/
def State.drainAll (s : State) : State := s.trp.outq.foldl (fun s e => s.drainExports e.1 e.2.length) s

/-- TURN_START (R68, R69): every claim gains its credits, up to its credits plus 16, and the slots of the new turn are free. Export copies
and best-effort accesses that waited take theirs. -/
def execTurnStart (s0 : State) : Out :=
  let s := s0.fresh
  if !s.fastOn then done s
  else
    let s1 := s.onBud (fun b => { b with
      turn := b.turn + 1, taken := [], holds := b.holds.map (fun h => { h with acc := min (h.credits + 16) (h.acc + h.credits) }) })
    let s2 := s1.drainAll
    done (State.serveWaits s2.bud.waits s2)

/-! ### BAR2 -/

/-- A read through the window: refused whole where a tile lies outside what the host may read. -/
def State.bar2Read (off len : Nat) (s : State) : State :=
  let a := s.bar2Base off
  let reachable (i : Nat) : Bool := i < ringSpace s.pwr.reduced && ((s.ringAt i).isSome || fbit s.ctl.midway Midway.maint)
  if 2 ^ 32 < off + len || !(touchedTiles a len).all reachable then s.emit .unsupported else s.access (.read a len)

/-- BAR2_READ (R374). -/
def execBar2Read (off : BitVec 32) (len : Fin 4097) (s : State) : Out := s.hostAccess (State.bar2Read off.toNat len.val)

/-- A write to the window: discarded with MIDWAY_BUS_ERROR while MAINT is 0. -/
def State.bar2Write (off : Nat) (bytes : List Byte) (s : State) : State :=
  if !fbit s.ctl.midway Midway.maint then s.busError 3 (bar2Addr off) hostMaster
  else s.access (.write (s.bar2Base off) (bytes.take (2 ^ 32 - off)))

/-- BAR2_WRITE (R374, R375). -/
def execBar2Write (off : BitVec 32) (bytes : List Byte) (s : State) : Out := s.hostAccess (State.bar2Write off.toNat bytes)

end Sys2Proof.Machine
end

