-- ==== Sys2Proof/Machine/Dispatch.lean ====
section
/-! DEFINITION. What a command does: one direct call of its meaning per constructor, in the order of the opcode table. -/

namespace Sys2Proof.Machine

open Sys2Proof

def exec (i : Instr) (s : State) : Host.Outcome State Fault Refusal :=
  match i with
  | .sessionInfo q => Sys2Proof.Machine.execSessionInfo q s
  | .sessionOpen q => Sys2Proof.Machine.execSessionOpen q s
  | .sessionClose q => Sys2Proof.Machine.execSessionClose q s
  | .powerSet q => Sys2Proof.Machine.execPowerSet q s
  | .profileSet q => Sys2Proof.Machine.execProfileSet q s
  | .budgetQuery q => Sys2Proof.Machine.execBudgetQuery q s
  | .sessionReset q => Sys2Proof.Machine.execSessionReset q s
  | .privRead q => Sys2Proof.Machine.execPrivRead q s
  | .privWrite q => Sys2Proof.Machine.execPrivWrite q s
  | .ringCreate q => Sys2Proof.Machine.execRingCreate q s
  | .ringDelete q => Sys2Proof.Machine.execRingDelete q s
  | .ringModify q => Sys2Proof.Machine.execRingModify q s
  | .ringQuery q => Sys2Proof.Machine.execRingQuery q s
  | .memStatus q => Sys2Proof.Machine.execMemStatus q s
  | .flowInsert q => Sys2Proof.Machine.execFlowInsert q s
  | .flowModify q => Sys2Proof.Machine.execFlowModify q s
  | .flowDelete q => Sys2Proof.Machine.execFlowDelete q s
  | .flowStatus q => Sys2Proof.Machine.execFlowStatus q s
  | .ingestWrite q => Sys2Proof.Machine.execIngestWrite q s
  | .mergeWrite q => Sys2Proof.Machine.execMergeWrite q s
  | .mergeStatus q => Sys2Proof.Machine.execMergeStatus q s
  | .hostqBind q => Sys2Proof.Machine.execHostqBind q s
  | .hostqUnbind q => Sys2Proof.Machine.execHostqUnbind q s
  | .hostInsert q => Sys2Proof.Machine.execHostInsert q s
  | .captureFrames q => Sys2Proof.Machine.execCaptureFrames q s
  | .planeWrite q => Sys2Proof.Machine.execPlaneWrite q s
  | .pulseWrite q => Sys2Proof.Machine.execPulseWrite q s
  | .clockWrite q => Sys2Proof.Machine.execClockWrite q s
  | .planeRead q => Sys2Proof.Machine.execPlaneRead q s
  | .routeWrite q => Sys2Proof.Machine.execRouteWrite q s
  | .routeRead q => Sys2Proof.Machine.execRouteRead q s
  | .routeStatus q => Sys2Proof.Machine.execRouteStatus q s
  | .salvoAdd q => Sys2Proof.Machine.execSalvoAdd q s
  | .salvoAdmit q peers => Sys2Proof.Machine.execSalvoAdmit q peers s
  | .salvoTake q => Sys2Proof.Machine.execSalvoTake q s
  | .salvoAbandon q peers => Sys2Proof.Machine.execSalvoAbandon q peers s
  | .salvoQuery q peers => Sys2Proof.Machine.execSalvoQuery q peers s
  | .salvoEntries q => Sys2Proof.Machine.execSalvoEntries q s
  | .presetStore q => Sys2Proof.Machine.execPresetStore q s
  | .presetLoad q => Sys2Proof.Machine.execPresetLoad q s
  | .presetDelete q => Sys2Proof.Machine.execPresetDelete q s
  | .presetList q => Sys2Proof.Machine.execPresetList q s
  | .compOutWrite q => Sys2Proof.Machine.execCompOutWrite q s
  | .compLayerWrite q => Sys2Proof.Machine.execCompLayerWrite q s
  | .compMatrixWrite q => Sys2Proof.Machine.execCompMatrixWrite q s
  | .compCursorWrite q => Sys2Proof.Machine.execCompCursorWrite q s
  | .compLoad q => Sys2Proof.Machine.execCompLoad q s
  | .compRead q => Sys2Proof.Machine.execCompRead q s
  | .compLayerRead q => Sys2Proof.Machine.execCompLayerRead q s
  | .calWrite q => Sys2Proof.Machine.execCalWrite q s
  | .audInWrite q => Sys2Proof.Machine.execAudInWrite q s
  | .audOutWrite q => Sys2Proof.Machine.execAudOutWrite q s
  | .audBusWrite q => Sys2Proof.Machine.execAudBusWrite q s
  | .audBusInputs q => Sys2Proof.Machine.execAudBusInputs q s
  | .audDynWrite q => Sys2Proof.Machine.execAudDynWrite q s
  | .audRead q => Sys2Proof.Machine.execAudRead q s
  | .candWrite q => Sys2Proof.Machine.execCandWrite q s
  | .refWrite q => Sys2Proof.Machine.execRefWrite q s
  | .refRead q => Sys2Proof.Machine.execRefRead q s
  | .phaseReset q => Sys2Proof.Machine.execPhaseReset q s
  | .ptpInstWrite q => Sys2Proof.Machine.execPtpInstWrite q s
  | .ptpServoWrite q => Sys2Proof.Machine.execPtpServoWrite q s
  | .ptpTsCorr q => Sys2Proof.Machine.execPtpTsCorr q s
  | .ptpSetTime q => Sys2Proof.Machine.execPtpSetTime q s
  | .ptpRead q => Sys2Proof.Machine.execPtpRead q s
  | .troupeWrite q => Sys2Proof.Machine.execTroupeWrite q s
  | .linkWrite q => Sys2Proof.Machine.execLinkWrite q s
  | .laneWrite q => Sys2Proof.Machine.execLaneWrite q s
  | .troupeImport q peers => Sys2Proof.Machine.execTroupeImport q peers s
  | .troupeUnimport q peers => Sys2Proof.Machine.execTroupeUnimport q peers s
  | .troupeForward q => Sys2Proof.Machine.execTroupeForward q s
  | .troupeRead q => Sys2Proof.Machine.execTroupeRead q s
  | .twinWrite q => Sys2Proof.Machine.execTwinWrite q s
  | .twinRead q => Sys2Proof.Machine.execTwinRead q s
  | .twinSwap q => Sys2Proof.Machine.execTwinSwap q s
  | .recRead q => Sys2Proof.Machine.execRecRead q s
  | .recClear q => Sys2Proof.Machine.execRecClear q s
  | .recLimit q => Sys2Proof.Machine.execRecLimit q s
  | .faultRead q => Sys2Proof.Machine.execFaultRead q s
  | .faultClear q => Sys2Proof.Machine.execFaultClear q s
  | .faultForce q => Sys2Proof.Machine.execFaultForce q s
  | .eventConfig q => Sys2Proof.Machine.execEventConfig q s
  | .updBegin q => Sys2Proof.Machine.execUpdBegin q s
  | .updChunk q programFails => Sys2Proof.Machine.execUpdChunk q programFails s
  | .updEnd q => Sys2Proof.Machine.execUpdEnd q s
  | .updActivate q verdict => Sys2Proof.Machine.execUpdActivate q verdict s
  | .updQuery q => Sys2Proof.Machine.execUpdQuery q s
  | .testGen q => Sys2Proof.Machine.execTestGen q s
  | .testCheck q => Sys2Proof.Machine.execTestCheck q s
  | .testLoop q => Sys2Proof.Machine.execTestLoop q s
  | .testResult q => Sys2Proof.Machine.execTestResult q s
  | .testMem q => Sys2Proof.Machine.execTestMem q s
  | .testShadow q => Sys2Proof.Machine.execTestShadow q s
  | .sdiWrite q => Sys2Proof.Machine.execSdiWrite q s
  | .ethWrite q => Sys2Proof.Machine.execEthWrite q s
  | .ethAddrWrite q => Sys2Proof.Machine.execEthAddrWrite q s
  | .pktFlowWrite q => Sys2Proof.Machine.execPktFlowWrite q s
  | .sbWrite q => Sys2Proof.Machine.execSbWrite q s
  | .portSnapshot q => Sys2Proof.Machine.execPortSnapshot q s
  | .portRead q => Sys2Proof.Machine.execPortRead q s
  | .pktOutWrite q => Sys2Proof.Machine.execPktOutWrite q s
  | .db n seq => Sys2Proof.Machine.execDb n seq s
  | .requestBufferWrite n off bytes => Sys2Proof.Machine.execRequestBufferWrite n off bytes s
  | .doneMapClear mask => Sys2Proof.Machine.execDoneMapClear mask s
  | .pop h => Sys2Proof.Machine.execPop h s
  | .release h eseq => Sys2Proof.Machine.execRelease h eseq s
  | .force w whole => Sys2Proof.Machine.execForce w whole s
  | .pendingClear c => Sys2Proof.Machine.execPendingClear c s
  | .blkRst mask => Sys2Proof.Machine.execBlkRst mask s
  | .fullRst v => Sys2Proof.Machine.execFullRst v s
  | .cntClear v => Sys2Proof.Machine.execCntClear v s
  | .maint v => Sys2Proof.Machine.execMaint v s
  | .decValidClear => Sys2Proof.Machine.execDecValidClear s
  | .abortValidClear => Sys2Proof.Machine.execAbortValidClear s
  | .rtcSec sec => Sys2Proof.Machine.execRtcSec sec s
  | .ptpNowRead => Sys2Proof.Machine.execPtpNowRead s
  | .registerWrite off wide v => Sys2Proof.Machine.execRegisterWrite off wide v s
  | .defaultTargetAccess addr master write => Sys2Proof.Machine.execDefaultTargetAccess addr master write s
  | .bar2Read off len => Sys2Proof.Machine.execBar2Read off len s
  | .bar2Write off bytes => Sys2Proof.Machine.execBar2Write off bytes s
  | .p2Request opcode q => Sys2Proof.Machine.execP2Request opcode q s
  | .p3Request opcode q => Sys2Proof.Machine.execP3Request opcode q s
  | .forwardedCommand opcode q => Sys2Proof.Machine.execForwardedCommand opcode q s
  | .forwardedResponse member seq bytes => Sys2Proof.Machine.execForwardedResponse member seq bytes s
  | .commandDeadline port chan sender seq => Sys2Proof.Machine.execCommandDeadline port chan sender seq s
  | .extest bits => Sys2Proof.Machine.execExtest bits s
  | .idcode => Sys2Proof.Machine.execIdcode s
  | .samplePreload bits => Sys2Proof.Machine.execSamplePreload bits s
  | .halt => Sys2Proof.Machine.execHalt s
  | .command bytes => Sys2Proof.Machine.execCommand bytes s
  | .doorbell opcode q => Sys2Proof.Machine.execDoorbell opcode q s
  | .bypass code => Sys2Proof.Machine.execBypass code s
  | .turnStart => Sys2Proof.Machine.execTurnStart s
  | .profileChange => Sys2Proof.Machine.execProfileChange s
  | .channelTraining ch responds ok => Sys2Proof.Machine.execChannelTraining ch responds ok s
  | .recentre ch ok moved ecc => Sys2Proof.Machine.execRecentre ch ok moved ecc s
  | .tileCommit ring => Sys2Proof.Machine.execTileCommit ring s
  | .tileRead reader eseq cache => Sys2Proof.Machine.execTileRead reader eseq cache s
  | .budgetRecount => Sys2Proof.Machine.execBudgetRecount s
  | .budgetTableError => Sys2Proof.Machine.execBudgetTableError s
  | .latch o => Sys2Proof.Machine.execLatch o s
  | .switchPoint o => Sys2Proof.Machine.execSwitchPoint o s
  | .frameSelect o => Sys2Proof.Machine.execFrameSelect o s
  | .claimRelease o audio => Sys2Proof.Machine.execClaimRelease o audio s
  | .audioLatch o => Sys2Proof.Machine.execAudioLatch o s
  | .takeAck salvo member => Sys2Proof.Machine.execTakeAck salvo member s
  | .takeAckDeadline salvo => Sys2Proof.Machine.execTakeAckDeadline salvo s
  | .routeTableParity o => Sys2Proof.Machine.execRouteTableParity o s
  | .outputFrameStart o => Sys2Proof.Machine.execOutputFrameStart o s
  | .signalPresence l => Sys2Proof.Machine.execSignalPresence l s
  | .signalAbsence l => Sys2Proof.Machine.execSignalAbsence l s
  | .rateAttempt l => Sys2Proof.Machine.execRateAttempt l s
  | .cdrLock l => Sys2Proof.Machine.execCdrLock l s
  | .trsAlignment l => Sys2Proof.Machine.execTrsAlignment l s
  | .trsSearchTimeout l => Sys2Proof.Machine.execTrsSearchTimeout l s
  | .cdrLockLoss l => Sys2Proof.Machine.execCdrLockLoss l s
  | .sdiLine l info => Sys2Proof.Machine.execSdiLine l info s
  | .sdiFrame l info => Sys2Proof.Machine.execSdiFrame l info s
  | .lockTimeout x => Sys2Proof.Machine.execLockTimeout x s
  | .audioGroupAbsence x group => Sys2Proof.Machine.execAudioGroupAbsence x group s
  | .sdiTxFault l => Sys2Proof.Machine.execSdiTxFault l s
  | .subportTrained p => Sys2Proof.Machine.execSubportTrained p s
  | .subportLinkLoss p fec => Sys2Proof.Machine.execSubportLinkLoss p fec s
  | .frameReceived p f => Sys2Proof.Machine.execFrameReceived p f s
  | .pauseFrame p quanta => Sys2Proof.Machine.execPauseFrame p quanta s
  | .pfcFrame p enable quanta => Sys2Proof.Machine.execPfcFrame p enable quanta s
  | .pauseHoldEnd p media => Sys2Proof.Machine.execPauseHoldEnd p media s
  | .pauseWatchdogExpiry p media => Sys2Proof.Machine.execPauseWatchdogExpiry p media s
  | .pauseIgnoreEnd p media => Sys2Proof.Machine.execPauseIgnoreEnd p media s
  | .mgmtFrameSend p => Sys2Proof.Machine.execMgmtFrameSend p s
  | .packetDeparture f => Sys2Proof.Machine.execPacketDeparture f s
  | .flowWindow => Sys2Proof.Machine.execFlowWindow s
  | .absentTimeout e => Sys2Proof.Machine.execAbsentTimeout e s
  | .membershipReport p group v6 leaving => Sys2Proof.Machine.execMembershipReport p group v6 leaving s
  | .query p v6 version group => Sys2Proof.Machine.execQuery p v6 version group s
  | .querierTimeout p v6 => Sys2Proof.Machine.execQuerierTimeout p v6 s
  | .flowTableCorrected e => Sys2Proof.Machine.execFlowTableCorrected e s
  | .flowTableUncorr e => Sys2Proof.Machine.execFlowTableUncorr e s
  | .audioTileTimeout ring => Sys2Proof.Machine.execAudioTileTimeout ring s
  | .mergeDecision m => Sys2Proof.Machine.execMergeDecision m s
  | .composerLatch c k => Sys2Proof.Machine.execComposerLatch c k s
  | .composerFrameStart c k => Sys2Proof.Machine.execComposerFrameStart c k s
  | .compLutParity table bank inst => Sys2Proof.Machine.execCompLutParity table bank inst s
  | .calliopeTick => Sys2Proof.Machine.execCalliopeTick s
  | .audioReaderTile o slot => Sys2Proof.Machine.execAudioReaderTile o slot s
  | .tapCrossfadeEnd slot tap => Sys2Proof.Machine.execTapCrossfadeEnd slot tap s
  | .calCoeffParity what => Sys2Proof.Machine.execCalCoeffParity what s
  | .refEvaluation meas phases corr => Sys2Proof.Machine.execRefEvaluation meas phases corr s
  | .activityLoss c => Sys2Proof.Machine.execActivityLoss c s
  | .settleExpiry phases => Sys2Proof.Machine.execSettleExpiry phases s
  | .wtrExpiry c phase => Sys2Proof.Machine.execWtrExpiry c phase s
  | .acquisitionStage => Sys2Proof.Machine.execAcquisitionStage s
  | .holdLimitExpiry => Sys2Proof.Machine.execHoldLimitExpiry s
  | .planeFrameStart p => Sys2Proof.Machine.execPlaneFrameStart p s
  | .slewComplete p => Sys2Proof.Machine.execSlewComplete p s
  | .analogSyncFrame c detected amplitude => Sys2Proof.Machine.execAnalogSyncFrame c detected amplitude s
  | .refPllFault => Sys2Proof.Machine.execRefPllFault s
  | .sync inst m => Sys2Proof.Machine.execSync inst m s
  | .followUp inst seq t1 corr => Sys2Proof.Machine.execFollowUp inst seq t1 corr s
  | .followUpTimeout inst => Sys2Proof.Machine.execFollowUpTimeout inst s
  | .announce inst m => Sys2Proof.Machine.execAnnounce inst m s
  | .delayResp inst seq t4 corr => Sys2Proof.Machine.execDelayResp inst seq t4 corr s
  | .delayReq inst soft => Sys2Proof.Machine.execDelayReq inst soft s
  | .pdelayReq inst seq soft => Sys2Proof.Machine.execPdelayReq inst seq soft s
  | .pdelayResp inst seq t2 corr soft => Sys2Proof.Machine.execPdelayResp inst seq t2 corr soft s
  | .pdelayRespFollowUp inst seq t3 corr => Sys2Proof.Machine.execPdelayRespFollowUp inst seq t3 corr s
  | .ptpManagementMessage inst => Sys2Proof.Machine.execPtpManagementMessage inst s
  | .announceTimeout inst => Sys2Proof.Machine.execAnnounceTimeout inst s
  | .syncTimeout inst => Sys2Proof.Machine.execSyncTimeout inst s
  | .engineTimeReading => Sys2Proof.Machine.execEngineTimeReading s
  | .rtcUpdate => Sys2Proof.Machine.execRtcUpdate s
  | .ptpClockFault => Sys2Proof.Machine.execPtpClockFault s
  | .linkDetect k found => Sys2Proof.Machine.execLinkDetect k found s
  | .capability k cap => Sys2Proof.Machine.execCapability k cap s
  | .bringupDecision k rate lanes => Sys2Proof.Machine.execBringupDecision k rate lanes s
  | .rateStep k eyes => Sys2Proof.Machine.execRateStep k eyes s
  | .senseAdapt k inverted order => Sys2Proof.Machine.execSenseAdapt k inverted order s
  | .linkAlign k => Sys2Proof.Machine.execLinkAlign k s
  | .linkRetry k => Sys2Proof.Machine.execLinkRetry k s
  | .laneMarker lane arrived stuffing => Sys2Proof.Machine.execLaneMarker lane arrived stuffing s
  | .laneDrop k lane => Sys2Proof.Machine.execLaneDrop k lane s
  | .spareLaneTrained k lane => Sys2Proof.Machine.execSpareLaneTrained k lane s
  | .electricalIdle lane => Sys2Proof.Machine.execElectricalIdle lane s
  | .eyeUpdate lane h v => Sys2Proof.Machine.execEyeUpdate lane h v s
  | .importTile inst cells => Sys2Proof.Machine.execImportTile inst cells s
  | .abandon inst skipped resume => Sys2Proof.Machine.execAbandon inst skipped resume s
  | .timeCell k cell => Sys2Proof.Machine.execTimeCell k cell s
  | .timeCellSend k => Sys2Proof.Machine.execTimeCellSend k s
  | .bootImageRequest k => Sys2Proof.Machine.execBootImageRequest k s
  | .roleChoice => Sys2Proof.Machine.execRoleChoice s
  | .heartbeatSend => Sys2Proof.Machine.execHeartbeatSend s
  | .heartbeat pathB bytes => Sys2Proof.Machine.execHeartbeat pathB bytes s
  | .pathSilence pathB => Sys2Proof.Machine.execPathSilence pathB s
  | .twinOnairInFall => Sys2Proof.Machine.execTwinOnairInFall s
  | .onairConfirmExpiry => Sys2Proof.Machine.execOnairConfirmExpiry s
  | .takeoverPoint => Sys2Proof.Machine.execTakeoverPoint s
  | .mirror mseq opcode q status target => Sys2Proof.Machine.execMirror mseq opcode q status target s
  | .mirrorAck mseq status => Sys2Proof.Machine.execMirrorAck mseq status s
  | .mirrorApply => Sys2Proof.Machine.execMirrorApply s
  | .mirrorAckTimeout => Sys2Proof.Machine.execMirrorAckTimeout s
  | .digestSend => Sys2Proof.Machine.execDigestSend s
  | .digest entries => Sys2Proof.Machine.execDigest entries s
  | .digestMissing o => Sys2Proof.Machine.execDigestMissing o s
  | .resyncStart => Sys2Proof.Machine.execResyncStart s
  | .resyncPoint copy => Sys2Proof.Machine.execResyncPoint copy s
  | .resyncTimeout => Sys2Proof.Machine.execResyncTimeout s
  | .hostLinkChange rate => Sys2Proof.Machine.execHostLinkChange rate s
  | .pcieReset => Sys2Proof.Machine.execPcieReset s
  | .recordWrite programFails => Sys2Proof.Machine.execRecordWrite programFails s
  | .fatalFaultReset => Sys2Proof.Machine.execFatalFaultReset s
  | .collectorParity => Sys2Proof.Machine.execCollectorParity s
  | .mramCorrected region => Sys2Proof.Machine.execMramCorrected region s
  | .mramUncorr region => Sys2Proof.Machine.execMramUncorr region s
  | .sramCorrected => Sys2Proof.Machine.execSramCorrected s
  | .sramUncorr => Sys2Proof.Machine.execSramUncorr s
  | .supplyWarn m quad mv back => Sys2Proof.Machine.execSupplyWarn m quad mv back s
  | .supplyFail m quad mv => Sys2Proof.Machine.execSupplyFail m quad mv s
  | .skewSample temperature v0 v1 v2 v3 => Sys2Proof.Machine.execSkewSample temperature v0 v1 v2 v3 s
  | .thermalOver quad degrees => Sys2Proof.Machine.execThermalOver quad degrees s
  | .thermalTrip quad degrees => Sys2Proof.Machine.execThermalTrip quad degrees s
  | .qpllUnlock quad => Sys2Proof.Machine.execQpllUnlock quad s
  | .vbakLow => Sys2Proof.Machine.execVbakLow s
  | .rmWatchdog => Sys2Proof.Machine.execRmWatchdog s
  | .ringmasterRestart => Sys2Proof.Machine.execRingmasterRestart s
  | .imageCheck verdict => Sys2Proof.Machine.execImageCheck verdict s
  | .firmwareStart major minor build => Sys2Proof.Machine.execFirmwareStart major minor build s
  | .budgetRebuild => Sys2Proof.Machine.execBudgetRebuild s
  | .softwareReset => Sys2Proof.Machine.execSoftwareReset s
  | .watchEntry => Sys2Proof.Machine.execWatchEntry s
  | .powerOn => Sys2Proof.Machine.execPowerOn s
  | .vauxLoss => Sys2Proof.Machine.execVauxLoss s
  | .vbakLoss => Sys2Proof.Machine.execVbakLoss s
  | .resetN => Sys2Proof.Machine.execResetN s
  | .resetNRise => Sys2Proof.Machine.execResetNRise s
  | .strapSampling s1 s2 s3 => Sys2Proof.Machine.execStrapSampling s1 s2 s3 s
  | .trimLoad copyB ok => Sys2Proof.Machine.execTrimLoad copyB ok s
  | .releaseStep => Sys2Proof.Machine.execReleaseStep s
  | .wakeStart source => Sys2Proof.Machine.execWakeStart source s
  | .bootPeerRetry => Sys2Proof.Machine.execBootPeerRetry s
  | .blockResetRelease b => Sys2Proof.Machine.execBlockResetRelease b s
  | .undefinedOpcode opcode q => Sys2Proof.Machine.execUndefinedOpcode opcode q s
  | .pulseInputEdge p => Sys2Proof.Machine.execPulseInputEdge p s
  | .pulseOutputEdge o => Sys2Proof.Machine.execPulseOutputEdge o s
  | .twinOnairInRise => Sys2Proof.Machine.execTwinOnairInRise s
  | .supplyReturn m quad mv => Sys2Proof.Machine.execSupplyReturn m quad mv s
  | .temperatureTripRearm quad => Sys2Proof.Machine.execTemperatureTripRearm quad s
  | .quadrantPllLock => Sys2Proof.Machine.execQuadrantPllLock s
  | .memoryTestComplete errors => Sys2Proof.Machine.execMemoryTestComplete errors s
  | .shadowCheckComplete failed => Sys2Proof.Machine.execShadowCheckComplete failed s
  | .checkerLock lane locked bits errors => Sys2Proof.Machine.execCheckerLock lane locked bits errors s

end Sys2Proof.Machine
end

