-- ==== Sys2Proof/Safety.lean ====
section
/-! DEFINITION. What the claims are stated in: the canonical Tile Store and its bytes, the bits of the Port Privilege Table that no
write changes (R384), and what every served host command shares. -/

namespace Sys2Proof.Machine

open Sys2Proof

/-! ### The Tile Store -/

/-- The Tile Store is in canonical form. -/
def State.memWf (s : State) : Bool := Memory.wf s.memByteDefault s.mem.tiles

/-- One byte of the Tile Store, by byte address. -/
def State.byteAt (s : State) (a : Nat) : Byte := memByte s.memByteDefault s.mem.tiles a

/-! ### The Port Privilege Table (R384) -/

/-- Bit 2 (PRIV) of a port's GROUPS. -/
def State.privBit (s : State) (p : Port) : Bool := maskBit (fget (s.priv p) Priv.groups) 2

/-- R384: bit 2 of GROUPS is 1 for P0 and 0 for every other port, and PORT_EN of P0 is 1 and that of P4 the debug fuse; the table is in
canonical form. -/
def PrivInv (s : State) : Prop :=
  Tab.wf privReset s.ctl.priv = true ∧ (∀ p : Port, s.privBit p = true ↔ p = .p0) ∧ s.portOn .p0 = true ∧ s.portOn .p4 = Config.debugFuse

/-! ### A served host command (R382, R384, R389, R402) -/

/-- The request as the firmware takes it up: nothing has left the device in this step yet, and its mailbox is RUNNING (R386). -/
def taken (q : Req) (s : State) : State := takeUp q s.fresh

/-- The request reaches its own checks: its channel exists, the firmware runs, its port is heard (R384, R396), checks 1 to 5 of R402 and the
deadline of R389 pass, and no twin has to be told first (R353). -/
structure Serves (op : Nat) (q : Req) (s : State) : Prop where
  chan : Req.wf q = true
  up : s.pwr.bootState = .firmware
  on : s.heard q.port = true
  gate : gate op q s.fresh = .ok ()
  alone : mirrored op q (taken q s) = false

/-- The command has left its queue and its response, with status `st` and results `res`, is given after `t` (R387, R399). -/
def answered (op st : Nat) (q : Req) (res : List Byte) (t : State) : State := dequeue op q (respond op st q res t)

/-- The record of a record write that every check of R406 lets through. -/
def recordOk {n : Nat} (q : Req) (layout : List Fld) (old : BitVec n) (fixed : List Fld) : Prop :=
  Req.trailingOk q (12 + n / 8) = true ∧ rangeBad layout (mergeRec layout old (Req.recordBytes q (n / 8))) = none ∧
    fixedBad fixed old (mergeRec layout old (Req.recordBytes q (n / 8))) = none

/-- The record a record write leaves: its own bytes where it has them and the field is writable, else as before (R406). -/
def recordOf {n : Nat} (q : Req) (layout : List Fld) (old : BitVec n) : BitVec n := mergeRec layout old (Req.recordBytes q (n / 8))

/-- The opcode and the request of a host command (R408 to R429); UNDEFINED_OPCODE has the opcodes the release leaves undefined (R5). -/
def hostRequest : Instr → Option (Nat × Req)
  | .sessionInfo q => some (0x0100, q) | .sessionOpen q => some (0x0101, q) | .sessionClose q => some (0x0102, q)
  | .powerSet q => some (0x0103, q) | .profileSet q => some (0x0104, q) | .budgetQuery q => some (0x0105, q)
  | .sessionReset q => some (0x0106, q) | .privRead q => some (0x0200, q) | .privWrite q => some (0x0201, q)
  | .ringCreate q => some (0x0300, q) | .ringDelete q => some (0x0301, q) | .ringModify q => some (0x0302, q)
  | .ringQuery q => some (0x0303, q) | .memStatus q => some (0x0304, q) | .flowInsert q => some (0x0305, q)
  | .flowModify q => some (0x0306, q) | .flowDelete q => some (0x0307, q) | .flowStatus q => some (0x0308, q)
  | .ingestWrite q => some (0x0309, q) | .mergeWrite q => some (0x030A, q) | .mergeStatus q => some (0x030B, q)
  | .hostqBind q => some (0x030C, q) | .hostqUnbind q => some (0x030D, q) | .hostInsert q => some (0x030E, q)
  | .captureFrames q => some (0x030F, q) | .planeWrite q => some (0x0400, q) | .pulseWrite q => some (0x0401, q)
  | .clockWrite q => some (0x0402, q) | .planeRead q => some (0x0403, q) | .routeWrite q => some (0x0500, q)
  | .routeRead q => some (0x0501, q) | .routeStatus q => some (0x0502, q) | .salvoAdd q => some (0x0600, q)
  | .salvoAdmit q _ => some (0x0601, q) | .salvoTake q => some (0x0602, q.req) | .salvoAbandon q _ => some (0x0603, q)
  | .salvoQuery q _ => some (0x0604, q) | .salvoEntries q => some (0x0605, q) | .presetStore q => some (0x0606, q)
  | .presetLoad q => some (0x0607, q) | .presetDelete q => some (0x0608, q) | .presetList q => some (0x0609, q)
  | .compOutWrite q => some (0x0700, q) | .compLayerWrite q => some (0x0701, q) | .compMatrixWrite q => some (0x0702, q)
  | .compCursorWrite q => some (0x0703, q) | .compLoad q => some (0x0704, q) | .compRead q => some (0x0705, q)
  | .compLayerRead q => some (0x0706, q) | .calWrite q => some (0x0800, q) | .audInWrite q => some (0x0801, q)
  | .audOutWrite q => some (0x0802, q) | .audBusWrite q => some (0x0803, q) | .audBusInputs q => some (0x0804, q)
  | .audDynWrite q => some (0x0805, q) | .audRead q => some (0x0806, q) | .candWrite q => some (0x0900, q)
  | .refWrite q => some (0x0901, q) | .refRead q => some (0x0902, q) | .phaseReset q => some (0x0903, q)
  | .ptpInstWrite q => some (0x0A00, q) | .ptpServoWrite q => some (0x0A01, q) | .ptpTsCorr q => some (0x0A02, q)
  | .ptpSetTime q => some (0x0A03, q) | .ptpRead q => some (0x0A04, q) | .troupeWrite q => some (0x0B00, q)
  | .linkWrite q => some (0x0B01, q) | .laneWrite q => some (0x0B02, q) | .troupeImport q _ => some (0x0B03, q)
  | .troupeUnimport q _ => some (0x0B04, q) | .troupeForward q => some (0x0B05, q) | .troupeRead q => some (0x0B06, q)
  | .twinWrite q => some (0x0C00, q) | .twinRead q => some (0x0C01, q) | .twinSwap q => some (0x0C02, q) | .recRead q => some (0x0D00, q)
  | .recClear q => some (0x0D01, q) | .recLimit q => some (0x0D02, q) | .faultRead q => some (0x0E00, q)
  | .faultClear q => some (0x0E01, q) | .faultForce q => some (0x0E02, q) | .eventConfig q => some (0x0E03, q)
  | .updBegin q => some (0x0F00, q) | .updChunk q _ => some (0x0F01, q) | .updEnd q => some (0x0F02, q)
  | .updActivate q _ => some (0x0F03, q) | .updQuery q => some (0x0F04, q) | .testGen q => some (0x1000, q)
  | .testCheck q => some (0x1001, q) | .testLoop q => some (0x1002, q) | .testResult q => some (0x1003, q)
  | .testMem q => some (0x1004, q) | .testShadow q => some (0x1005, q) | .sdiWrite q => some (0x1100, q) | .ethWrite q => some (0x1101, q)
  | .ethAddrWrite q => some (0x1102, q) | .pktFlowWrite q => some (0x1103, q) | .sbWrite q => some (0x1104, q)
  | .portSnapshot q => some (0x1105, q) | .portRead q => some (0x1106, q) | .pktOutWrite q => some (0x1107, q)
  | .undefinedOpcode op q => if opDefined op.toNat then none else some (op.toNat, q)
  | _ => none

/-! ### Full resets (R470) -/

/-- What every full-sequence reset, entry to WATCH and loss of VAUX leaves of a state `s` in `t`: hardware and firmware state at reset,
the fault collector clear, the Port Privilege Table at its reset values; presets, images and the scratch registers kept. -/
structure Cleared (s t : State) : Prop where
  mem : t.mem = MemSt.reset
  bud : t.bud = BudSt.reset
  routes : t.rte = { RteSt.reset with presets := s.rte.presets }
  eth : t.eth = EthSt.reset
  flo : t.flo = FloSt.reset
  cmp : t.cmp = CmpSt.reset
  cal : t.cal = CalSt.reset
  ref : t.ref = RefSt.reset
  ptp : t.ptp = PtpSt.reset
  trp : t.trp = TrpSt.reset
  tst : t.tst = TstSt.reset
  priv : t.ctl.priv = []
  jobs : t.ctl.jobs = [] ∧ t.ctl.sessions = [] ∧ t.ctl.mb = [] ∧ t.ctl.doneMap = 0
  status : t.flt.status = []
  net : t.safetyNet = false
  stopped : t.pwr.bootState = .stopped
  step : t.releaseStep = 0
  images : t.upd = { s.upd with write := none }
  scratch : t.pwr.scratch = s.pwr.scratch
  clock : t.time.clk = 0

/-! ### What a command may change -/

/-- The parts of the state that the frames speak of: its groups, with the Port Privilege Table, the Tile Store's bytes and, of these,
the payload bytes below the check region (R36) as parts of their own. -/
inductive Part where
  | time | pwr | ctl | priv | flt | rec_ | mem | tiles | payload | bud | rte | sdi | eth | flo | cmp | cal | ref | ptp | trp | twin
  | upd | tst | free | queue
  deriving DecidableEq, Repr

/-- The part is the same in both states; the Tile Store's parts byte by byte, and `mem` is everything the memory group holds. -/
def Part.same (p : Part) (s t : State) : Prop :=
  match p with
  | .time => t.time = s.time
  | .pwr => t.pwr = s.pwr
  | .ctl => t.ctl = s.ctl
  | .priv => t.ctl.priv = s.ctl.priv
  | .flt => t.flt = s.flt
  | .rec_ => t.rec_ = s.rec_
  | .mem => t.mem = s.mem
  | .tiles => ∀ a, t.byteAt a = s.byteAt a
  | .payload => t.pwr.reduced = s.pwr.reduced ∧ ∀ a, a < checkBase s.pwr.reduced → t.byteAt a = s.byteAt a
  | .bud => t.bud = s.bud
  | .rte => t.rte = s.rte
  | .sdi => t.sdi = s.sdi
  | .eth => t.eth = s.eth
  | .flo => t.flo = s.flo
  | .cmp => t.cmp = s.cmp
  | .cal => t.cal = s.cal
  | .ref => t.ref = s.ref
  | .ptp => t.ptp = s.ptp
  | .trp => t.trp = s.trp
  | .twin => t.twin = s.twin
  | .upd => t.upd = s.upd
  | .tst => t.tst = s.tst
  | .free => t.free = s.free
  | .queue => t.pending = s.pending

/-- What a command may change by serving its request or raising an event alone: mailboxes, queues and sessions; events and their
records; the messages to the twin and the other members; and, where a fatal event enters Safety Net, the test generators (R438). -/
def common : List Part := [.ctl, .flt, .trp, .twin, .tst]

/-- The parts each command may change (with the whole groups they belong to); every other part it leaves as it was. -/
def writes : Instr → List Part
  | .sessionInfo .. | .sessionOpen .. | .sessionClose .. | .privRead .. | .captureFrames .. | .planeRead .. | .routeRead ..
  | .presetList .. | .compRead .. | .refRead .. | .laneWrite .. | .troupeForward .. | .troupeRead .. | .twinWrite ..
  | .twinRead .. | .twinSwap .. | .recRead .. | .faultRead .. | .eventConfig .. | .updQuery .. | .testGen .. | .testCheck ..
  | .testLoop .. | .testResult .. | .testMem .. | .testShadow .. | .requestBufferWrite .. | .defaultTargetAccess ..
  | .takeAckDeadline .. | .flowTableCorrected .. | .ptpClockFault .. | .capability .. | .senseAdapt .. | .eyeUpdate ..
  | .roleChoice .. | .heartbeat .. | .pathSilence .. | .takeoverPoint .. | .mirrorAck .. | .mirrorAckTimeout ..
  | .digestSend .. | .digest .. | .digestMissing .. | .resyncTimeout .. | .collectorParity .. | .mramCorrected ..
  | .sramCorrected .. | .undefinedOpcode .. => common
  | .salvoQuery .. | .salvoEntries .. | .routeStatus .. | .salvoAdd .. | .salvoTake .. | .presetStore .. | .presetLoad ..
  | .presetDelete .. | .switchPoint .. | .frameSelect .. | .audioLatch .. | .routeTableParity .. | .audioReaderTile ..
  | .spareLaneTrained .. => common ++ [.rte]
  | .sbWrite .. => common ++ [.free]
  | .refPllFault .. | .planeWrite .. | .pulseWrite .. | .clockWrite .. | .refWrite .. | .phaseReset .. | .acquisitionStage ..
  | .holdLimitExpiry .. | .slewComplete .. => common ++ [.ref]
  | .powerSet .. => common ++ [.pwr, .mem, .rte]
  | .profileSet .. | .budgetQuery .. | .budgetRecount .. | .budgetTableError .. => common ++ [.bud]
  | .sessionReset .. | .supplyWarn .. | .qpllUnlock .. | .vbakLow .. => common ++ [.pwr]
  | .hostLinkChange .. => common ++ [.pwr, .bud]
  | .privWrite .. => common ++ [.priv]
  | .ringCreate .. | .ringQuery .. | .memStatus .. | .recentre .. => common ++ [.mem]
  | .bar2Read .. | .bar2Write .. | .turnStart .. => common ++ [.mem, .tiles, .payload, .bud]
  | .ringDelete .. | .ringModify .. | .hostqBind .. | .troupeImport .. => common ++ [.mem, .bud]
  | .flowInsert .. => common ++ [.mem, .bud, .eth, .flo, .free]
  | .flowModify .. => common ++ [.mem, .bud, .eth, .flo]
  | .flowDelete .. => common ++ [.mem, .tiles, .sdi, .eth, .flo, .ref, .free]
  | .flowStatus .. | .mergeStatus .. | .pktOutWrite .. | .absentTimeout .. | .flowTableUncorr .. => common ++ [.flo]
  | .ingestWrite .. => common ++ [.mem, .bud, .flo]
  | .mergeWrite .. => common ++ [.mem, .tiles, .bud, .sdi, .flo]
  | .hostqUnbind .. | .abandon .. | .hostInsert .. | .audioTileTimeout .. | .mergeDecision .. => common ++ [.mem, .tiles, .flo]
  | .routeWrite .. | .salvoAdmit .. | .salvoAbandon .. | .latch .. => common ++ [.bud, .rte]
  | .budgetRebuild .. => common ++ [.bud, .rte, .eth]
  | .compOutWrite .. => common ++ [.mem, .bud, .cmp]
  | .compLayerWrite .. => common ++ [.bud, .cmp]
  | .compMatrixWrite .. | .compCursorWrite .. | .compLoad .. | .compLayerRead .. | .compLutParity .. => common ++ [.cmp]
  | .calWrite .. | .audBusWrite .. | .audBusInputs .. | .audDynWrite .. | .audRead .. | .calCoeffParity .. => common ++ [.cal]
  | .audInWrite .. => common ++ [.bud, .cal]
  | .audOutWrite .. => common ++ [.mem, .bud, .cal]
  | .candWrite .. | .activityLoss .. | .analogSyncFrame .. => common ++ [.ref, .free]
  | .ptpInstWrite .. | .sync .. | .followUp .. | .announceTimeout .. | .syncTimeout .. | .timeCell .. =>
    common ++ [.time, .ref, .ptp, .free]
  | .ptpServoWrite .. | .announce .. => common ++ [.ref, .ptp, .free]
  | .ptpTsCorr .. | .ptpRead .. | .pdelayResp .. => common ++ [.ptp]
  | .delayReq .. => [.eth, .ptp]
  | .pdelayReq .. | .mgmtFrameSend .. => common ++ [.eth, .ptp]
  | .ptpSetTime .. | .refEvaluation .. => common ++ [.time, .ref, .free]
  | .troupeWrite .. | .linkWrite .. | .laneMarker .. | .laneDrop .. => common ++ [.mem, .tiles, .rte, .flo, .ref, .ptp, .free]
  | .troupeUnimport .. => common ++ [.mem, .tiles, .bud, .flo]
  | .recClear .. | .recLimit .. | .recordWrite .. => common ++ [.rec_]
  | .faultClear .. => common ++ [.rec_, .bud]
  | .faultForce .. => common ++ [.pwr, .rec_, .mem, .tiles, .bud, .rte, .sdi, .flo, .cmp, .cal, .ref, .ptp, .free]
  | .updBegin .. | .updChunk .. | .updEnd .. => common ++ [.upd]
  | .updActivate .. | .imageCheck .. => common ++ [.pwr, .mem, .tiles, .rte, .flo, .ref, .ptp, .upd, .free]
  | .sdiWrite .. => common ++ [.mem, .tiles, .bud, .sdi, .flo, .ref, .free]
  | .ethWrite .. | .frameReceived .. => common ++ [.mem, .tiles, .rte, .sdi, .eth, .flo, .ref, .ptp, .free]
  | .ethAddrWrite .. | .portSnapshot .. | .pauseWatchdogExpiry .. | .query .. => common ++ [.eth]
  | .pktFlowWrite .. => common ++ [.bud, .flo]
  | .portRead .. => common ++ [.sdi, .eth]
  | .db .. | .doneMapClear .. | .pop .. | .maint .. | .decValidClear .. | .abortValidClear .. | .p2Request .. | .p3Request ..
  | .forwardedResponse .. | .idcode .. | .command .. | .doorbell .. | .bypass .. => [.ctl]
  | .pcieReset .. | .commandDeadline .. => [.ctl, .bud]
  | .release .. => [.ctl, .mem]
  | .force .. => common ++ [.time, .pwr, .rec_, .mem, .tiles, .bud, .rte, .sdi, .eth, .flo, .cmp, .cal, .ref, .ptp, .upd, .free]
  | .pendingClear .. => [.ctl, .flt]
  | .blkRst .. => common ++ [.time, .pwr, .rec_, .mem, .tiles, .bud, .rte, .sdi, .eth, .flo, .cmp, .cal, .ref, .ptp, .free]
  | .fullRst .. | .fatalFaultReset .. | .thermalTrip .. | .softwareReset .. | .watchEntry .. | .powerOn .. | .vauxLoss ..
  | .resetN .. | .wakeStart .. | .temperatureTripRearm .. =>
    common ++ [.time, .pwr, .priv, .rec_, .mem, .tiles, .payload, .bud, .rte, .sdi, .eth, .flo, .cmp, .cal, .ref, .ptp, .upd]
  | .cntClear .. => [.pwr, .ctl]
  | .rtcSec .. => [.time, .pwr, .ctl]
  | .ptpNowRead .. => [.time, .ctl]
  | .registerWrite .. =>
    common ++ [.time, .pwr, .priv, .rec_, .mem, .tiles, .payload, .bud, .rte, .sdi, .eth, .flo, .cmp, .cal, .ref, .ptp, .upd, .free]
  | .forwardedCommand .. | .mirror .. | .mirrorApply .. =>
    common ++ [.time, .pwr, .priv, .rec_, .mem, .tiles, .bud, .rte, .sdi, .eth, .flo, .cmp, .cal, .ref, .ptp, .upd, .free]
  | .extest .. | .samplePreload .. | .halt .. => [.ctl, .free]
  | .claimRelease .. | .tapCrossfadeEnd .. => [.bud]
  | .profileChange .. => common ++ [.mem, .bud, .rte]
  | .channelTraining .. => common ++ [.pwr, .mem, .tiles, .payload]
  | .tileCommit .. => common ++ [.mem, .tiles, .payload, .bud, .flo]
  | .tileRead .. => common ++ [.mem, .tiles, .payload, .bud, .rte, .flo]
  | .takeAck .. => [.ctl, .rte]
  | .outputFrameStart .. => common ++ [.bud, .rte, .sdi]
  | .signalPresence .. | .rateAttempt .. | .cdrLock .. | .trsAlignment .. | .trsSearchTimeout .. => [.sdi]
  | .signalAbsence .. | .cdrLockLoss .. | .sdiFrame .. => common ++ [.mem, .tiles, .sdi, .flo, .ref, .free]
  | .sdiLine .. => common ++ [.mem, .tiles, .rte, .sdi, .flo, .ref, .free]
  | .lockTimeout .. => common ++ [.sdi, .flo]
  | .sdiTxFault .. => common ++ [.rte, .sdi]
  | .audioGroupAbsence .. => common ++ [.mem, .tiles, .sdi, .flo]
  | .subportTrained .. => common ++ [.eth, .ref, .ptp, .free]
  | .subportLinkLoss .. => common ++ [.mem, .tiles, .sdi, .eth, .flo, .ref, .ptp, .free]
  | .pauseFrame .. | .pfcFrame .. | .pauseHoldEnd .. | .pauseIgnoreEnd .. | .membershipReport .. | .querierTimeout .. => [.eth]
  | .packetDeparture .. => common ++ [.mem, .rte, .eth, .flo]
  | .flowWindow .. => common ++ [.rte, .flo]
  | .composerLatch .. => [.cmp]
  | .composerFrameStart .. => common ++ [.mem, .tiles, .bud, .flo, .cmp]
  | .calliopeTick .. => common ++ [.mem, .tiles, .payload, .bud, .flo, .cal]
  | .settleExpiry .. | .wtrExpiry .. => common ++ [.time, .ref]
  | .planeFrameStart .. => common ++ [.rte, .ref]
  | .followUpTimeout .. | .delayResp .. | .pdelayRespFollowUp .. | .ptpManagementMessage .. => [.ptp]
  | .engineTimeReading .. => [.time, .ptp]
  | .rtcUpdate .. | .vbakLoss .. => [.time, .pwr]
  | .linkDetect .. | .bringupDecision .. | .rateStep .. | .linkRetry .. | .electricalIdle .. | .timeCellSend ..
  | .bootImageRequest .. | .bootPeerRetry .. => [.trp]
  | .linkAlign .. => common ++ [.rte, .ref, .ptp, .free]
  | .importTile .. => common ++ [.mem, .tiles, .rte, .flo]
  | .heartbeatSend .. | .resyncStart .. => [.trp, .twin]
  | .twinOnairInFall .. | .onairConfirmExpiry .. | .twinOnairInRise .. => [.twin]
  | .resyncPoint .. => common ++ [.priv, .rec_, .mem, .tiles, .bud, .rte, .sdi, .eth, .flo, .cmp, .cal, .ref, .ptp, .free]
  | .mramUncorr .. => common ++ [.rec_, .mem, .tiles, .bud, .rte, .sdi, .flo, .cmp, .cal, .ref, .ptp, .free]
  | .sramUncorr .. | .rmWatchdog .. | .ringmasterRestart .. =>
    common ++ [.time, .pwr, .rec_, .mem, .tiles, .bud, .rte, .eth, .flo, .cmp, .ptp, .upd, .free]
  | .supplyFail .. | .skewSample .. | .supplyReturn .. => common ++ [.pwr, .rte]
  | .thermalOver .. => common ++ [.pwr, .rte, .cmp]
  | .firmwareStart .. | .releaseStep .. | .quadrantPllLock .. => common ++ [.pwr, .mem, .tiles, .rte, .flo, .ref, .ptp, .free]
  | .resetNRise .. | .strapSampling .. | .trimLoad .. => [.pwr]
  | .blockResetRelease .. => common ++ [.pwr, .sdi, .eth, .flo, .ref, .ptp, .free]
  | .pulseInputEdge .. => [.pwr, .ref]
  | .pulseOutputEdge .. => [.ref]
  | .memoryTestComplete .. => [.ctl, .mem, .tiles, .payload, .tst]
  | .shadowCheckComplete .. => [.ctl, .tst]
  | .checkerLock .. => [.tst]

end Sys2Proof.Machine
end

