-- ==== Sys2Proof/Certificates/Slice0/Obligations.lean ====
section
/-! DEFINITION. The statements for the provers, from the numbered rules of spec/: what a step does, how requests are served and
answered, the effect of every host command and of every event of the table, and the invariants every step keeps. A value the spec leaves
open is the model's own where a docstring names its log entry. -/

open Sys2Proof Sys2Proof.Machine

/-- For every command c and state s whose queue is c followed by rest, a step of s is exec of c on s with the queue rest; with the queue
c :: s.pending it is exec of c on s itself. The queue of waiting commands is the model's own (log entry 4). -/
def Obligations.StepRunsFrontOfQueue : Prop :=
  (∀ (c : Instr) (rest : List Instr) (s : State), s.pending = c :: rest → step s = exec c { s with pending := rest }) ∧
  ∀ (c : Instr) (s : State), step { s with pending := c :: s.pending } = exec c s

/-- With an empty queue a step is one nanosecond (DESIGN CHOICE, log entry 4): the queue stays empty, nothing leaves the device; in STAGING
and ACTIVE the counter C of R300 advances by 1 and the engines' time by 2^48 and the loop's correction (R271), in the other power states
both stand still; the 32.768 kHz crystal advances in every state, with RTC_SEC one up exactly where the crystal and its subseconds wrap.
Every group but time, the power group and, while the firmware drains its management queues, the Ethernet group is unchanged. -/
def Obligations.EmptyQueueStepIsOneNanosecond : Prop :=
  ∀ s : State, s.pending = [] → ∃ t, step s = .next t ∧ t.pending = [] ∧ t.emitted = [] ∧
    (s.pwr.power = .staging ∨ s.pwr.power = .active → t.time.clk = s.time.clk + 1 ∧
      t.time.engine = ((s.time.engine : Int) + 2 ^ 48 + fsgn s.ref.eng RefEng.freqCorr).toNat) ∧
    (s.pwr.power ≠ .staging → s.pwr.power ≠ .active → t.time.clk = s.time.clk ∧ t.time.engine = s.time.engine) ∧
    t.time.base = s.time.base ∧ t.time.offset = s.time.offset ∧
    (s.time.xtal + 32768 < 1000000000 → t.time.xtal = s.time.xtal + 32768 ∧ t.pwr = s.pwr) ∧
    (1000000000 ≤ s.time.xtal + 32768 → t.time.xtal = s.time.xtal + 32768 - 1000000000 ∧
      fget t.pwr.aon Aon.rtcSub = (fget s.pwr.aon Aon.rtcSub + 1) % 32768 ∧
      fget t.pwr.aon Aon.rtcSec = (fget s.pwr.aon Aon.rtcSec + (if fget s.pwr.aon Aon.rtcSub = 32767 then 1 else 0)) % 2 ^ 48) ∧
    (s.pwr.bootState ≠ .firmware → t.eth = s.eth) ∧
    t.ctl = s.ctl ∧ t.flt = s.flt ∧ t.rec_ = s.rec_ ∧ t.mem = s.mem ∧ t.bud = s.bud ∧ t.rte = s.rte ∧ t.sdi = s.sdi ∧ t.flo = s.flo ∧
    t.cmp = s.cmp ∧ t.cal = s.cal ∧ t.ref = s.ref ∧ t.ptp = s.ptp ∧ t.trp = s.trp ∧ t.twin = s.twin ∧ t.upd = s.upd ∧ t.tst = s.tst ∧
    t.free = s.free

/-- A command whose operands its row admits always answers a next state, in every state of the device: nothing in the specification stops
the device as a whole. An operand that no port, mailbox or monitor has (Instr.wf is false) is no command, and is stopped by name. -/
def Obligations.WellFormedCommandsComplete : Prop :=
  (∀ (i : Instr) (s : State), i.wf = true → ∃ t, exec i s = .next t) ∧
  ∀ (i : Instr) (s : State), i.wf = false → exec i s = .fault .illFormed

/-- For each of the 290 commands: when it answers a next state, every part of the state that its row of `writes` does not list is as
before. Parts are the groups of registers, the Port Privilege Table, the Tile Store's bytes (each byte, by address), its payload bytes
below the check region, the free-value counter and the queue of waiting commands, which no command touches. -/
def Obligations.CommandsChangeOnlyTheirParts : Prop :=
  ∀ (i : Instr) (s t : State), exec i s = .next t → ∀ p : Part, p ∉ writes i → p.same s t

/-- After reset (release step 7 of R477 done and the firmware not started, log entry 1): the Port Privilege Table holds the reset words
of R383; mailboxes are IDLE with DONE_MAP and IRQ_EN 0; STAGING, not in Safety Net, no STATUS set; the Tile Store lists nothing; no
ring, flow, route, salvo, session or job exists; the queue of commands is empty and nothing has left the device. -/
def Obligations.ResetLeavesSpecValues : Prop :=
  fget (State.reset.priv .p0) Priv.groups = 0x3FFFE ∧ fget (State.reset.priv .p1) Priv.groups = 0x26FFA ∧
  fget (State.reset.priv .p2) Priv.groups = 0x6002 ∧ fget (State.reset.priv .p3) Priv.groups = 0 ∧
  fget (State.reset.priv .p4) Priv.groups = 0x16002 ∧
  (∀ p, fbit (State.reset.priv p) Priv.readOnly = true ↔ p = .p2) ∧
  State.reset.portOn .p0 = true ∧ State.reset.portOn .p1 = true ∧ State.reset.portOn .p2 = true ∧ State.reset.portOn .p3 = false ∧
  State.reset.portOn .p4 = Config.debugFuse ∧
  (∀ n, (State.reset.mailbox n).state = 0 ∧ fget (State.reset.mailbox n).status MbStatus.dbIgnored = 0) ∧
  State.reset.ctl.doneMap = 0 ∧ State.reset.ctl.irqEn = 0 ∧ State.reset.ctl.sessions = [] ∧ State.reset.ctl.jobs = [] ∧
  State.reset.pwr.power = .staging ∧ State.reset.pwr.halt = none ∧ State.reset.safetyNet = false ∧ State.reset.flt.status = [] ∧
  State.reset.mem.tiles = [] ∧ (∀ r, ringFree (State.reset.ring r) = true) ∧ State.reset.flo.table = [] ∧
  (∀ o, State.reset.routeA o = State.reset.routeP o) ∧ State.reset.role = .solo ∧
  State.reset.pending = [] ∧ State.reset.emitted = []

/-- At reset the Port Privilege Table obeys R384 (PrivInv) and the Tile Store is in its canonical form (State.memWf). -/
def Obligations.ResetKeepsPrivRules : Prop := PrivInv State.reset ∧ State.reset.memWf = true

/-- From every state in which bit 2 of GROUPS is 1 for P0 and 0 for every other port, PORT_EN of P0 is 1 and that of P4 the debug fuse, every
step answers only states in which the same holds: no command sequence, reset, mirror, forwarded command or resynchronisation changes
them. -/
def Obligations.EveryStepKeepsPrivTableRules : Prop := ∀ s t : State, PrivInv s → step s = .next t → PrivInv t

/-- From every state whose Tile Store is in canonical form (addresses strictly rising, no entry equal to what its address reads
unlisted), every step answers only states whose Tile Store is in canonical form. -/
def Obligations.EveryStepKeepsCanonicalTileStore : Prop := ∀ s t : State, s.memWf = true → step s = .next t → t.memWf = true

/-- For every host command (and every undefined opcode) dequeued while the firmware runs on an enabled port (P2 with its MAC enabled), the first check that fails
gives the status of the one response, and the request leaves its queue with nothing else changed: a malformed header E_DECODE; an opcode
the release does not define E_UNKNOWN_OP; a group its port's GROUPS does not allow, or a change of state on a READ_ONLY port, E_PRIV,
recorder reads and clears excepted; on a shadow E_SHADOW; in Safety Net E_STATE; on a primary whose swap or resynchronisation is pending
E_BUSY; a deadline above 60 s E_RANGE with BAD_OFFSET 0xFFFF; an expired one E_TIMEOUT. -/
def Obligations.RefusalsFollowTheOrderOfChecks : Prop :=
  ∀ (i : Instr) (op : Nat) (q : Req) (s : State), hostRequest i = some (op, q) → Req.wf q = true → s.pwr.bootState = .firmware →
    s.heard q.port = true →
    (headerOk q s = false → exec i s = .next (answered op 0x0F q [] (taken q s))) ∧
    (headerOk q s = true → opDefined op = false → exec i s = .next (answered op 0x0D q [] (taken q s))) ∧
    (headerOk q s = true → opDefined op = true → op ≠ 0x0D00 → op ≠ 0x0D01 →
      maskBit (fget (s.priv q.port) Priv.groups) (op / 256) = false → exec i s = .next (answered op 2 q [] (taken q s))) ∧
    (headerOk q s = true → opDefined op = true → op ≠ 0x0D00 → op ≠ 0x0D01 → fbit (s.priv q.port) Priv.readOnly = true →
      changesState op q = true → exec i s = .next (answered op 2 q [] (taken q s))) ∧
    (headerOk q s = true → opDefined op = true → privOk op q s = true → s.role = .shadow → isQuery op = false →
      [0x0D, 0x0E, 0x0F, 0x10].contains (op / 256) = false → exec i s = .next (answered op 0x0103 q [] (taken q s))) ∧
    (headerOk q s = true → opDefined op = true → privOk op q s = true → shadowOk op s = true → s.safetyNet = true →
      isQuery op = false → [0x0100, 0x0103, 0x0106].contains op = false → [0x0D, 0x0E, 0x0F].contains (op / 256) = false →
      exec i s = .next (answered op 3 q [] (taken q s))) ∧
    (headerOk q s = true → opDefined op = true → privOk op q s = true → shadowOk op s = true → safetyNetOk op s = true →
      s.role = .primary → changesState op q = true → s.twin.resync.isSome = true →
      exec i s = .next (answered op 0x0C q [] (taken q s))) ∧
    (headerOk q s = true → opDefined op = true → privOk op q s = true → shadowOk op s = true → safetyNetOk op s = true →
      twinBusy op q s = false → 60000000 < q.deadline.toNat → exec i s = .next (answered op 1 q [0xFF, 0xFF] (taken q s))) ∧
    (headerOk q s = true → opDefined op = true → privOk op q s = true → shadowOk op s = true → safetyNetOk op s = true →
      twinBusy op q s = false → q.deadline.toNat ≤ 60000000 →
      receiptOf op q s + (if q.deadline = 0 then defaultDeadline op else q.deadline.toNat) * 1000 < s.now →
      exec i s = .next (answered op 8 q [] (taken q s)))

/-- While the firmware runs, a command on a disabled port, or on P2 with its MAC disabled, leaves its queue with no response. While the device restarts, a request is lost;
in BOOT_HALT a P2 request is answered E_STATE with the halt record and any other is lost. In Rescue Boot and while the ROM waits for a
load, a request on a port the ROM does not serve is lost, a malformed header gives E_DECODE, and an opcode other than the six of R493
gives E_STATE. -/
def Obligations.RequestsNobodyServesGetNoResponse : Prop :=
  ∀ (i : Instr) (op : Nat) (q : Req) (s : State), hostRequest i = some (op, q) → Req.wf q = true →
    (s.pwr.bootState = .firmware → s.heard q.port = false → exec i s = .next (dequeue op q s.fresh)) ∧
    (s.pwr.bootState ≠ .firmware → s.pwr.bootState ≠ .rescue → s.pwr.bootState ≠ .waitLoad → (s.pwr.halt = none ∨ q.port ≠ .p2) →
      exec i s = .next s.fresh) ∧
    (∀ h, s.pwr.bootState ≠ .firmware → s.pwr.bootState ≠ .rescue → s.pwr.bootState ≠ .waitLoad → s.pwr.halt = some h → q.port = .p2 →
      exec i s = .next { s with emitted := [.service (s.sbFrame q.sender 0x88B6 (responseBytes op 3 q (haltRecord h s) s.now))] }) ∧
    (s.pwr.bootState = .rescue ∨ s.pwr.bootState = .waitLoad → rescuePort q s = false → exec i s = .next s.fresh) ∧
    (s.pwr.bootState = .rescue ∨ s.pwr.bootState = .waitLoad → rescuePort q s = true → headerOk q s = false →
      exec i s = .next (answered op 0x0F q [] (taken q s))) ∧
    (s.pwr.bootState = .rescue ∨ s.pwr.bootState = .waitLoad → rescuePort q s = true → headerOk q s = true →
      [0x0100, 0x0F00, 0x0F01, 0x0F02, 0x0F03, 0x0F04].contains op = false → exec i s = .next (answered op 3 q [] (taken q s)))

/-- The one response of a command, with the header of R399, changes no other state than this: on P1 and P4 it leaves the device at its port to
the sender; on P2 as a service-bus frame to the sender, its EtherType the model's (log entry 51); on P3 it joins what waits in band at the
request's sub-port, and is lost where that is not UP. On P0 the mailbox of the request is DONE with the status, holds the response, and
its bit of DONE_MAP is set; no other mailbox changes. The request then is no longer in its port's queue: one entry fewer where the queue
held it. -/
def Obligations.ResponsesReachTheirPort : Prop :=
  (∀ (op st : Nat) (q : Req) (res : List Byte) (s : State),
    let b := leBytes 2 op ++ leBytes 2 st ++ leBytes 2 q.seq.toNat ++ leBytes 2 res.length ++ leBytes 8 s.now ++ res
    (q.port = .p1 ∨ q.port = .p4 → respond op st q res s = { s with emitted := s.emitted ++ [.response q.port q.chan q.sender b] }) ∧
    (q.port = .p2 → respond op st q res s = { s with emitted := s.emitted ++ [.service (s.sbFrame q.sender 0x88B6 b)] }) ∧
    (q.port = .p3 → (tget subReset s.eth.sub q.chan).link = .up →
      respond op st q res s = { s with ctl := { s.ctl with inband := s.ctl.inband ++ [⟨q.chan, q.sender, b⟩] } }) ∧
    (q.port = .p3 → (tget subReset s.eth.sub q.chan).link ≠ .up → respond op st q res s = s)) ∧
  (∀ (op st : Nat) (q : Req) (res : List Byte) (s : State), q.port = .p0 → q.chan < 64 → st < 2 ^ 16 →
    ((respond op st q res s).mailbox q.chan).state = 3 ∧
    fget ((respond op st q res s).mailbox q.chan).status MbStatus.status = st ∧
    ((respond op st q res s).mailbox q.chan).response = leBytes 2 op ++ leBytes 2 st ++ leBytes 2 q.seq.toNat ++
      leBytes 2 res.length ++ leBytes 8 s.now ++ res ∧
    (respond op st q res s).ctl.doneMap.getLsbD q.chan = true ∧
    ∀ n, n ≠ q.chan → (respond op st q res s).mailbox n = s.mailbox n ∧
      (respond op st q res s).ctl.doneMap.getLsbD n = s.ctl.doneMap.getLsbD n) ∧
  ∀ (op : Nat) (q : Req) (s : State),
    ((dequeue op q s).waiting q.port).length + (if (s.waiting q.port).any (sameWaiting q op) then 1 else 0) = (s.waiting q.port).length ∧
    ∀ p, p ≠ q.port → (dequeue op q s).waiting p = s.waiting p

/-- On a primary that mirrors, an accepted state-changing command of any group but FAULT, RECORDER and UPDATE is not executed at once where
it has no TARGET of its own: the mirror, with the next MIRROR_SEQ and a TARGET 1 ms after receipt, joins the mirrors sent, a job holds the
response, and none of the command's own effect has happened yet. That the job and the mirror are queued so is the model's layout. -/
def Obligations.MirroredCommandsWaitForTheTwin : Prop :=
  ∀ (op : Nat) (cmd : Req → State → Res) (q : Req) (peers : List PeerAnswer) (s t : State) (res : List Byte), Req.wf q = true →
    s.pwr.bootState = .firmware → s.heard q.port = true → gate op q s.fresh = .ok () → mirrored op q (taken q s) = true → ownTarget op q = 0 →
    cmd q (taken q s) = .ok (t, res) →
    ∃ u j, serve op cmd q s peers = .next u ∧
      u.twin.mirrors = s.twin.mirrors ++ [⟨(fget s.twin.rec_ Twin.mirrorSeq + s.twin.mirrors.length + 1) % 2 ^ 32, op, q,
        receiptOf op q (taken q s) + 1000000, false, false, peers⟩] ∧
      u.ctl.jobs = s.ctl.jobs ++ [j] ∧ j.req = q ∧ j.opcode = op ∧
      u.pwr = s.pwr ∧ u.mem = s.mem ∧ u.bud = s.bud ∧ u.rte = s.rte ∧ u.sdi = s.sdi ∧ u.eth = s.eth ∧ u.flo = s.flo ∧ u.cmp = s.cmp ∧
      u.cal = s.cal ∧ u.ref = s.ref ∧ u.ptp = s.ptp ∧ u.time = s.time

/-- SESSION and PRIV commands (R408 to R410, R383, R384, R461): each answers OK and has its effect. SESSION_INFO and PRIV_READ change
nothing; SESSION_OPEN and SESSION_CLOSE change the list of sessions; POWER_SET announces WATCH or reaches STAGING or ACTIVE; PROFILE_SET
leaves the change and its response to the next turn boundary; BUDGET_QUERY clears HIGH only with CLEAR; SESSION_RESET announces its
reset 1 ms ahead; PRIV_WRITE keeps the fixed bits. -/
def Obligations.SessionAndPrivilegeCommandsTakeEffect : Prop :=
  (∀ q s, Serves 0x0100 q s → Req.trailingOk q 0 = true →
    exec (.sessionInfo q) s = .next (answered 0x0100 0 q (recBytes s.idRecord) (taken q s))) ∧
  (∀ q s n, Serves 0x0101 q s → sessionPort q.port = true → Req.trailingOk q 32 = true → s.freeSession = some n →
    exec (.sessionOpen q) s = .next (answered 0x0101 0 q (leBytes 2 n) ((taken q s).onCtl (fun c =>
      { c with sessions := c.sessions ++ [⟨n, q.port, q.chan, q.sender, BitVec.ofNat 256 (Req.num q 32 0)⟩] })))) ∧
  (∀ q s, Serves 0x0102 q s → Req.trailingOk q 2 = true → s.ownSession q (Req.u16 q 0) = true →
    exec (.sessionClose q) s = .next (answered 0x0102 0 q [] ((taken q s).onCtl (fun c =>
      { c with sessions := c.sessions.filter (fun x => x.id != Req.u16 q 0) })))) ∧
  (∀ q s, Serves 0x0103 q s → Req.trailingOk q 1 = true → Req.u8 q 0 = 1 → s.pwr.power = .staging →
    exec (.powerSet q) s = .next (answered 0x0103 0 q [1] ((taken q s).onPwr (fun p =>
      { p with due := some (.watch, s.time.clk + 1000000) })))) ∧
  (∀ q s, Serves 0x0103 q s → Req.trailingOk q 1 = true → Req.u8 q 0 = 2 → fbit s.flt.ctl FaultCtl.parityTrip = false →
    s.fatalSet [0x48] = false → (s.role = .primary → s.sync = 0) → s.fastOn = true →
    ∃ t, exec (.powerSet q) s = .next (answered 0x0103 0 q [2] t) ∧ t.pwr.power = .staging ∧ t.safetyNet = false) ∧
  (∀ q s, Serves 0x0103 q s → Req.trailingOk q 1 = true → Req.u8 q 0 = 3 → s.trainedAll = true → s.fatalSet [] = false →
    s.flt.isolated.any (fun p => p.1 == 0x47) = false →
    ∃ t, exec (.powerSet q) s = .next (answered 0x0103 0 q [3] t) ∧ t.pwr.power = .active) ∧
  (∀ q s p, Serves 0x0104 q s → profileSetCheck q (taken q s) = .ok p → profileOf (Req.u8 q 0) = some p ∧
    ∃ t, exec (.profileSet q) s = .next (dequeue 0x0104 q t) ∧ t.bud = { s.bud with nextProfile := some p } ∧
      ∃ j, t.ctl.jobs = (taken q s).ctl.jobs ++ [j] ∧ j.kind = .profile (profileCode p) ∧ j.req = q) ∧
  (∀ q s, Serves 0x0105 q s → Req.trailingOk q 6 = true → Req.u32 q 0 < 2 →
    ∃ t res, exec (.budgetQuery q) s = .next (answered 0x0105 0 q res t) ∧
      res.take 40 = [1, 2, 3, 4, 5].flatMap (fun c => recBytes (s.classEntry c)) ∧
      t.bud.holds = s.bud.holds ∧ (Req.u32 q 0 = 0 → t = taken q s)) ∧
  (∀ q s, Serves 0x0106 q s → Req.trailingOk q 1 = true → Req.u8 q 0 ≤ 2 → q.port = (if Req.u8 q 0 = 1 then .p1 else .p0) →
    exec (.sessionReset q) s = .next (answered 0x0106 0 q [] ((taken q s).onPwr (fun p =>
      { p with due := some (resetKind (Req.u8 q 0), s.time.clk + 1000000) })))) ∧
  (∀ q s, Serves 0x0200 q s → Req.trailingOk q 1 = true → Req.u8 q 0 ≤ 4 →
    exec (.privRead q) s = .next (answered 0x0200 0 q (recBytes (tget privReset s.ctl.priv (Req.u8 q 0))) (taken q s))) ∧
  (∀ q s, Serves 0x0201 q s → q.port = .p0 → Req.trailingOk q 12 = true → Req.u8 q 0 ≤ 4 → Req.num q 3 1 = 0 →
    fget (mergeRec Priv.layout (tget privReset s.ctl.priv (Req.u8 q 0)) (Req.slice q 4 8)) Priv.groups % 2 = 0 →
    fget (mergeRec Priv.layout (tget privReset s.ctl.priv (Req.u8 q 0)) (Req.slice q 4 8)) Priv.groups < 2 ^ 18 →
    ∃ w, w = privFixed (Req.u8 q 0) (tget privReset s.ctl.priv (Req.u8 q 0))
        (mergeRec Priv.layout (tget privReset s.ctl.priv (Req.u8 q 0)) (Req.slice q 4 8)) ∧
      exec (.privWrite q) s = .next (answered 0x0201 0 q (recBytes w) ((taken q s).setPriv (Req.u8 q 0) w)))

/-- RING_CREATE whose checks pass gives a free ring its descriptor as ALLOCATED, with the geometry of its format and its declared rates, and
answers the descriptor. RING_DELETE of a ring without reader or writer frees it and releases its claims. RING_MODIFY writes its fields
and re-counts WCRED from its claim. RING_QUERY and MEM_STATUS answer the ring's or channel's record and counters and clear the counters
only with CLEAR. No other ring changes and no byte of the Tile Store. -/
def Obligations.RingCommandsTakeEffect : Prop :=
  (∀ q s r d decl, Serves 0x0300 q s → ringCreateCheck q (taken q s) = .ok (r, d, decl) →
    ∃ t, exec (.ringCreate q) s = .next (answered 0x0300 0 q (recBytes (t.ring r)) t) ∧
      r = Req.u32 q 0 ∧ r < 8192 ∧ ringFree (s.ring r) = true ∧
      d = withGeometry (mergeRec RingDesc.layout (s.ring r) (Req.slice q 4 32)) ∧
      t.ring r = fput (fput d RingDesc.ringId r) RingDesc.stateF 1 ∧ tget declReset t.mem.decl r = (Req.u32 q 36, Req.u32 q 40) ∧
      t.markersOf r = [] ∧ (∀ n, n ≠ r → t.ring n = s.ring n) ∧ t.mem.tiles = s.mem.tiles ∧ t.bud = s.bud) ∧
  (∀ q s, Serves 0x0301 q s → Req.u32 q 0 < 8192 → ringFree (s.ring (Req.u32 q 0)) = false → s.hasReader (Req.u32 q 0) = false →
    s.hasWriter (Req.u32 q 0) = false → Req.trailingOk q 4 = true →
    ∃ t, exec (.ringDelete q) s = .next (answered 0x0301 0 q [] t) ∧ ringFree (t.ring (Req.u32 q 0)) = true ∧
      t.bud.holds = s.bud.holds.filter (fun h => h.grp != .write (Req.u32 q 0)) ∧
      (∀ n, n ≠ Req.u32 q 0 → t.ring n = s.ring n) ∧ t.mem.tiles = s.mem.tiles) ∧
  (∀ q s r d u, Serves 0x0302 q s → ringModifyCheck q (taken q s) = .ok (r, d, u) →
    ∃ t, exec (.ringModify q) s = .next (answered 0x0302 0 q (recBytes (t.ring r)) t) ∧ ringFree (s.ring (Req.u32 q 0)) = false ∧
      r = Req.u32 q 0 ∧ d = withGeometry (mergeRec RingDesc.layout (s.ring r) (Req.recordBytes q 32)) ∧
      t.ring r = fput d RingDesc.wcred (match t.bud.holds.find? (fun h => h.grp == .write r) with | some h => h.credits | none => 0) ∧
      (∀ n, n ≠ r → t.ring n = s.ring n) ∧ t.mem.tiles = s.mem.tiles) ∧
  (∀ q s, Serves 0x0303 q s → Req.u32 q 0 < 8192 → Req.trailingOk q 8 = true → Req.u32 q 4 < 2 →
    exec (.ringQuery q) s = .next (answered 0x0303 0 q
      (recBytes (s.ringView (Req.u32 q 0)) ++ ringCtrBytes (tget ctrReset s.mem.ctr (Req.u32 q 0)) ++ markerBytes (s.markersOf (Req.u32 q 0)))
      (if Req.u32 q 4 = 1 then (taken q s).onMem (fun m => { m with ctr := tdel m.ctr (Req.u32 q 0) }) else taken q s))) ∧
  (∀ q s, Serves 0x0304 q s → Req.u32 q 0 < 16 → Req.trailingOk q 8 = true → Req.u32 q 4 < 2 →
    exec (.memStatus q) s = .next (answered 0x0304 0 q (chanBytes (tget chanReset s.mem.chans (Req.u32 q 0)))
      (if Req.u32 q 4 = 1 then (taken q s).onChan (Req.u32 q 0) (fun c => { c with chFail := 0, chEcc := 0, chRecentre := 0, chCache := 0 })
        else taken q s)))

/-- FLOW_INSERT whose checks pass places an entry of a key the table does not hold; FLOW_MODIFY writes the fields of the entry of that key
alone; FLOW_DELETE removes it; FLOW_STATUS answers its counters and clears them only with CLEAR; INGEST_WRITE writes the ingest record of
its ring. Routes and power stay as they were, and none but FLOW_DELETE stores to the Tile Store. -/
def Obligations.FlowCommandsTakeEffect : Prop :=
  (∀ q s e l u, Serves 0x0305 q s → flowInsertCheck q (taken q s) = .ok (e, l, u) →
    ∃ t, exec (.flowInsert q) s = .next (answered 0x0305 0 q [] t) ∧ e = Req.entry q 0 ∧ s.findFlow e = none ∧ t.flo.table = l ∧
      (∃ f ∈ t.flo.table, f.key = e ∧ f.pkts = 0 ∧ f.octets = 0) ∧ t.flo.ingest = s.flo.ingest ∧
      t.mem.tiles = s.mem.tiles ∧ t.rte = s.rte ∧ t.sdi = s.sdi ∧ t.ref = s.ref ∧ t.pwr = s.pwr) ∧
  (∀ q s e u, Serves 0x0306 q s → flowModifyCheck q (taken q s) = .ok (e, u) →
    ∃ t, exec (.flowModify q) s = .next (answered 0x0306 0 q [] t) ∧ e = Req.entry q 0 ∧ (s.findFlow e).isSome = true ∧
      t.flo.table = s.flo.table.map (fun f => if sameKey f.key e then { f with key := e } else f) ∧ t.flo.ingest = s.flo.ingest ∧
      t.mem.tiles = s.mem.tiles ∧ t.rte = s.rte ∧ t.sdi = s.sdi ∧ t.ref = s.ref ∧ t.pwr = s.pwr) ∧
  (∀ q s f, Serves 0x0307 q s → Req.trailingOk q 48 = true → s.findFlow (Req.entry q 0) = some f →
    ∃ t, exec (.flowDelete q) s = .next (answered 0x0307 0 q [] t) ∧
      t.flo.table = s.flo.table.filter (fun g => g.place != f.place) ∧ t.flo.ingest = s.flo.ingest ∧
      t.rte = s.rte ∧ t.bud = s.bud ∧ t.pwr = s.pwr) ∧
  (∀ q s f, Serves 0x0308 q s → Req.trailingOk q 52 = true → Req.u32 q 0 < 2 → s.findFlow (Req.entry q 4) = some f →
    ∃ t, exec (.flowStatus q) s = .next (answered 0x0308 0 q (s.flowImage f) t) ∧
      (Req.u32 q 0 = 0 → t = taken q s) ∧
      (Req.u32 q 0 = 1 → t.flo.table = s.flo.table.map (fun g => if sameKey g.key f.key then
        { g with pkts := 0, octets := 0, peak := 0, overWindows := 0 } else g)) ∧
      (Req.u32 q 0 = 1 → isBound f = true → (t.dep (flowRing f)).ctr = List.replicate 6 0) ∧
      t.mem = s.mem ∧ t.rte = s.rte ∧ t.sdi = s.sdi ∧ t.eth = s.eth ∧ t.pwr = s.pwr) ∧
  (∀ q s r new u, Serves 0x0309 q s → ingestWriteCheck q (taken q s) = .ok (r, new, u) →
    ∃ t, exec (.ingestWrite q) s = .next (answered 0x0309 0 q (recBytes new) t) ∧ r = Req.u32 q 0 ∧ r < 8192 ∧
      new = mergeRec Ingest.layout (s.ingest r) (Req.recordBytes q 8) ∧ t.ingest r = new ∧ (∀ n, n ≠ r → t.ingest n = s.ingest n) ∧
      t.flo.table = s.flo.table ∧ t.mem.tiles = s.mem.tiles ∧ t.rte = s.rte ∧ t.sdi = s.sdi ∧ t.pwr = s.pwr)

/-- MERGE_WRITE writes its pair's record; MERGE_STATUS answers it and clears the counters only with CLEAR; HOSTQ_BIND binds a free queue to
its ring, empty, in its direction; HOSTQ_UNBIND frees it and ends its captures; HOST_INSERT takes a fragment into the open unit of its
queue, or, where a video unit is not exactly one frame, abandons it and answers E_FORMAT with no unit open; CAPTURE_FRAMES adds its order
after those waiting. -/
def Obligations.MergeAndHostQueueCommandsTakeEffect : Prop :=
  (∀ q s m new u, Serves 0x030A q s → mergeWriteCheck q (taken q s) = .ok (m, new, u) →
    ∃ t, exec (.mergeWrite q) s = .next (answered 0x030A 0 q (recBytes new) t) ∧ m = Req.u32 q 0 ∧ m < 1024 ∧
      new = mergeRec Merge.layout (s.mergeRec m) (Req.recordBytes q 16) ∧ t.mergeRec m = new ∧
      (∀ n, n ≠ m → t.mergeRec n = s.mergeRec n) ∧ t.flo.table = s.flo.table ∧ t.rte = s.rte ∧ t.pwr = s.pwr) ∧
  (∀ q s, Serves 0x030B q s → Req.u32 q 0 < 1024 → Req.trailingOk q 8 = true → Req.u32 q 4 < 2 →
    exec (.mergeStatus q) s = .next (answered 0x030B 0 q
      (recBytes (s.mergeRec (Req.u32 q 0)) ++ leBytes 1 (bit (s.mergeSt (Req.u32 q 0)).p.lost) ++
        leBytes 1 (bit (s.mergeSt (Req.u32 q 0)).q.lost) ++ [0, 0] ++ (s.mergeSt (Req.u32 q 0)).ctr.flatMap (leBytes 4))
      (if Req.u32 q 4 = 1 then (taken q s).setMerge (Req.u32 q 0) { s.mergeSt (Req.u32 q 0) with ctr := List.replicate 6 0 }
        else taken q s))) ∧
  (∀ q s h insert r u, Serves 0x030C q s → hostqBindCheck q (taken q s) = .ok (h, insert, r, u) →
    ∃ t, exec (.hostqBind q) s = .next (answered 0x030C 0 q [] t) ∧ h = Req.u8 q 0 ∧ h < 16 ∧ insert = (Req.u8 q 1 == 1) ∧
      r = Req.u16 q 2 ∧ (s.hq h).en = false ∧ t.hq h = { Hq.idle h with en := true, insert := insert, ring := r } ∧
      (∀ n, n ≠ h → t.hq n = s.hq n) ∧ t.mem.tiles = s.mem.tiles ∧ t.flo = s.flo ∧ t.rte = s.rte ∧ t.pwr = s.pwr) ∧
  (∀ q s, Serves 0x030D q s → Req.trailingOk q 1 = true → Req.u8 q 0 < 16 → (s.hq (Req.u8 q 0)).en = true →
    ∃ t, exec (.hostqUnbind q) s = .next (answered 0x030D 0 q [] t) ∧ t.hq (Req.u8 q 0) = Hq.idle (Req.u8 q 0) ∧
      t.ctl.captures = s.ctl.captures.filter (fun x => x.queue != Req.u8 q 0) ∧ t.bud = s.bud ∧ t.flo = s.flo ∧ t.rte = s.rte ∧
      t.pwr = s.pwr) ∧
  (∀ q s g, Serves 0x030E q s → hostInsertCheck q (taken q s) = .ok g →
    (hostInsertDo g (taken q s)).2 = true →
    ∃ t, exec (.hostInsert q) s = .next (answered 0x030E 0 q (leBytes 4 (t.wr (s.hq g.h).ring).first.toNat) t) ∧
      (t.hq g.h).unitOpen = !g.fin ∧ (g.fin = false → (t.hq g.h).unitLen = (if g.start then 0 else (s.hq g.h).unitLen) + g.data.length) ∧
      (t.hq g.h).en = true ∧ (t.hq g.h).ring = (s.hq g.h).ring ∧ t.bud = s.bud ∧ t.rte = s.rte ∧ t.pwr = s.pwr) ∧
  (∀ q s g, Serves 0x030E q s → hostInsertCheck q (taken q s) = .ok g →
    (hostInsertDo g (taken q s)).2 = false →
    ∃ t, exec (.hostInsert q) s = .next (answered 0x030E 0x0E q [0xFF, 0xFF] t) ∧ (t.hq g.h).unitOpen = false ∧
      (t.hq g.h).unitLen = 0 ∧ t.bud = s.bud ∧ t.rte = s.rte ∧ t.pwr = s.pwr) ∧
  (∀ q s h src n, Serves 0x030F q s → captureFramesCheck q (taken q s) = .ok (h, src, n) →
    exec (.captureFrames q) s = .next (answered 0x030F 0 q [] ((taken q s).onCtl (fun c =>
      { c with captures := c.captures ++ [⟨Req.u8 q 0, Req.u16 q 2, Req.u16 q 4, s.captureAfter (Req.u16 q 2)⟩] }))))

/-- A plane, pulse or clock write whose checks pass leaves the record its bytes give, and answers it. A plane that is switched off starts over;
one switched on starts at its PHASE; a change of PHASE on a running plane joins the step that waits for its next frame, with STEP_MODE 1
begins a slew at SLEW_RATE, and while it slews moves what is left to slew, at the rate of that slew. PLANE_READ answers a record and
changes nothing. The writes change no ring, route or power state. -/
def Obligations.PlaneCommandsTakeEffect : Prop :=
  (∀ q s p new, Serves 0x0400 q s → planeWriteCheck q (taken q s) = .ok (p, new) →
    ∃ t, exec (.planeWrite q) s = .next (answered 0x0400 0 q (recBytes (t.planeImage p)) t) ∧ p = Req.u32 q 0 ∧ p < 8 ∧
      new = mergeRec Plane.layout (s.plane p) (Req.recordBytes q 16) ∧ t.plane p = new ∧ (∀ n, n ≠ p → t.plane n = s.plane n) ∧
      (fbit new Plane.planeEn = false → t.planeSt p = planeStReset p) ∧
      (fbit new Plane.planeEn = true → fbit (s.plane p) Plane.planeEn = false →
        t.planeSt p = { planeStReset p with shift := tenthTu (fsgn new Plane.phase) }) ∧
      (fbit new Plane.planeEn = true → fbit (s.plane p) Plane.planeEn = true → fget (s.plane p) Plane.phase = fget new Plane.phase →
        t.planeSt p = s.planeSt p) ∧
      (fbit new Plane.planeEn = true → fbit (s.plane p) Plane.planeEn = true → fget (s.plane p) Plane.phase ≠ fget new Plane.phase →
        let st := s.planeSt p
        let d := tenthTu (fsgn new Plane.phase - fsgn (s.plane p) Plane.phase)
        let per := frameTu (fget new Plane.plRate)
        (st.slew = 0 → fbit new Plane.stepMode = false → t.planeSt p = { st with step := ((st.step + d) % (per : Int)).toNat }) ∧
        (st.slew = 0 → fbit new Plane.stepMode = true → signedMod (st.step + d) per ≠ 0 → t.planeSt p = { st with
          step := 0, slew := fget new Plane.slewRate, slewFrom := s.engineTu, left := signedMod (st.step + d) per, past := 0 }) ∧
        (0 < st.slew → t.planeSt p = { st with
          shift := st.shift + s.slewed p, past := st.past + s.slewed p, slewFrom := s.engineTu, left := signedMod (st.left - s.slewed p + d) per })) ∧
      t.mem = s.mem ∧ t.rte = s.rte ∧ t.bud = s.bud ∧ t.pwr = s.pwr) ∧
  (∀ q s o new, Serves 0x0401 q s → pulseWriteCheck q (taken q s) = .ok (o, new) →
    ∃ t, exec (.pulseWrite q) s = .next (answered 0x0401 0 q (recBytes new) t) ∧ o = Req.u32 q 0 ∧ o < 8 ∧
      new = mergeRec Pulse.layout (s.pulse o) (Req.recordBytes q 8) ∧ t.pulse o = new ∧ (∀ n, n ≠ o → t.pulse n = s.pulse n) ∧
      t.ref.plane = s.ref.plane ∧ t.ref.clock = s.ref.clock ∧ t.mem = s.mem ∧ t.rte = s.rte ∧ t.pwr = s.pwr) ∧
  (∀ q s k new, Serves 0x0402 q s → clockWriteCheck q (taken q s) = .ok (k, new) →
    k = Req.u32 q 0 ∧ k < 2 ∧ new = mergeRec ClkOut.layout (s.clock k) (Req.recordBytes q 8) ∧
    exec (.clockWrite q) s = .next (answered 0x0402 0 q (recBytes new)
      ((taken q s).onRef (fun f => { f with clock := tset clockReset f.clock k new })))) ∧
  (∀ q s, Serves 0x0403 q s → Req.u32 q 0 < 18 → Req.trailingOk q 8 = true → Req.u32 q 4 < 2 →
    exec (.planeRead q) s = .next (answered 0x0403 0 q
      (if Req.u32 q 0 < 8 then recBytes (s.planeImage (Req.u32 q 0)) ++ leBytes 8 (s.planeNext (Req.u32 q 0))
        else if Req.u32 q 0 < 16 then recBytes (s.pulse (Req.u32 q 0 - 8)) else recBytes (s.clock (Req.u32 q 0 - 16))) (taken q s)))

/-- ROUTE_WRITE whose checks pass writes its output's PENDING copy as READY and leaves the ACTIVE copy to the next latch; ROUTE_READ answers
both copies; ROUTE_STATUS answers the counters and clears them only with CLEAR. -/
def Obligations.RouteCommandsTakeEffect : Prop :=
  (∀ q s o e u, Serves 0x0500 q s → routeWriteCheck q (taken q s) = .ok (o, e, u) →
    ∃ t, exec (.routeWrite q) s = .next (answered 0x0500 0 q (recBytes (t.routeP o) ++ t.boundsBlock o e) t) ∧
      o = Req.u32 q 0 ∧ o < 2048 ∧ e = mergeRec RouteEntry.layout (s.routeP o) (Req.recordBytes q 32) ∧
      t.routeP o = fput (fput e RouteEntry.pendState 2) RouteEntry.salvoId 0 ∧ (∀ n, n ≠ o → t.routeP n = s.routeP n) ∧
      t.rte.active = s.rte.active ∧ t.rte.outs = s.rte.outs ∧ t.mem = s.mem ∧ t.pwr = s.pwr) ∧
  (∀ q s, Serves 0x0501 q s → Req.u32 q 0 < 2048 → Req.trailingOk q 8 = true → Req.u32 q 4 < 2 →
    exec (.routeRead q) s = .next (answered 0x0501 0 q (recBytes (s.routeA (Req.u32 q 0)) ++ recBytes (s.routeP (Req.u32 q 0)) ++
      s.boundsBlock (Req.u32 q 0) (s.routeA (Req.u32 q 0))) (taken q s))) ∧
  (∀ q s, Serves 0x0502 q s → Req.u32 q 0 < 2048 → Req.trailingOk q 8 = true → Req.u32 q 4 < 2 →
    ∃ t, exec (.routeStatus q) s = .next (answered 0x0502 0 q (leBytes 4 (s.out (Req.u32 q 0)).repeats ++
      leBytes 4 (s.out (Req.u32 q 0)).skips ++ (s.out (Req.u32 q 0)).slots.flatMap (fun a =>
        leBytes 4 a.rampShort ++ leBytes 4 a.slipUnder ++ leBytes 4 a.slipOver)) t) ∧
      (Req.u32 q 4 = 0 → t = taken q s) ∧
      (Req.u32 q 4 = 1 → t = (taken q s).setOut (Req.u32 q 0) { s.out (Req.u32 q 0) with
        repeats := 0, skips := 0,
        slots := (s.out (Req.u32 q 0)).slots.map (fun a => { a with rampShort := 0, slipUnder := 0, slipOver := 0 }) }))

/-- A SALVO command first makes DONE a COMMITTED salvo of which nothing is left to switch. SALVO_ADD gathers its entries in PREPARING;
SALVO_ADMIT makes the salvo ADMITTED, each of this member's outputs HELD with its number, and answers the members; SALVO_TAKE takes the
TARGET asked for, or 1 ms after receipt for 0 and for one moved, and raises SALVO_COMMITTED: while outputs are left to switch the salvo is
COMMITTED and armed at TARGET, with none left it is DONE and disarmed; with other members to ask its response waits for their answers.
SALVO_ABANDON disarms the salvo, returns it to EMPTY and its HELD outputs to no entry; SALVO_QUERY and SALVO_ENTRIES answer its state and
entries and change nothing more. ACTIVE route copies are left to the latches. -/
def Obligations.SalvoCommandsTakeEffect : Prop :=
  (∀ q s n l u, Serves 0x0600 q s → u = (taken q s).settleSalvo (Req.u8 q 0) → salvoAddCheck q u = .ok (n, l) →
    ∃ t, exec (.salvoAdd q) s = .next (answered 0x0600 0 q (leBytes 2 l.length) t) ∧ n = Req.u8 q 0 ∧ n < 64 ∧
      l = (List.range (Req.u8 q 1)).foldl (fun l i => addEntry l (readEntry (fitBytes 36 (Req.slice q (4 + 36 * i) 36)))) (u.salvo n).entries ∧
      (t.salvo n).state = .preparing ∧ (t.salvo n).entries = l ∧ (∀ m, m ≠ n → t.salvo m = s.salvo m) ∧
      t.rte.active = s.rte.active ∧ t.rte.pending = s.rte.pending ∧ t.bud = s.bud ∧ t.mem = s.mem) ∧
  (∀ q s peers n v u, Serves 0x0601 q s → u = (taken q s).settleSalvo (Req.u8 q 0) → salvoAdmitCheck peers q u = .ok (n, v) →
    ∃ t, exec (.salvoAdmit q peers) s = .next (answered 0x0601 0 q (leBytes 1 (salvoMembers (u.salvo n))) t) ∧ n = Req.u8 q 0 ∧
      (t.salvo n).state = .admitted ∧ (t.salvo n).entries = (u.salvo n).entries ∧ (∀ m, m ≠ n → t.salvo m = s.salvo m) ∧
      (∀ o, (∀ e ∈ (u.salvo n).entries, e.member = s.member → e.output ≠ o) → t.routeP o = s.routeP o) ∧
      (∀ e ∈ (u.salvo n).entries, e.member = s.member → fget (t.routeP e.output) RouteEntry.pendState = 1 ∧
        fget (t.routeP e.output) RouteEntry.salvoId = n) ∧
      t.rte.active = s.rte.active ∧ t.mem = s.mem) ∧
  (∀ q s peers n target moved e first u, Serves 0x0602 q s → u = (taken q s).settleSalvo (Req.u8 q 0) →
    salvoTakeCheck peers q (receiptOf 0x0602 q u) u = .ok (n, target, moved, e, first) →
    askOthers q u (otherMembers u (u.salvo n)) = [] → target < 2 ^ 64 →
    ∃ t, exec (.salvoTake ⟨q, peers⟩) s =
        .next (answered 0x0602 0 q (leBytes 4 (bit moved) ++ leBytes 4 0 ++ leBytes 8 target ++ leBytes 8 e) t) ∧
      n = Req.u8 q 0 ∧ (u.salvo n).state = .admitted ∧
      (u.salvoLeft n = true ∨ u.othersLeft { u.salvo n with target := target } = true →
        (t.salvo n).state = .committed ∧ (t.salvo n).target = target ∧ t.armed n = target) ∧
      (u.salvoLeft n = false → u.othersLeft { u.salvo n with target := target } = false → (u.salvo n).rebuilt = false →
        (t.salvo n).state = .done ∧ t.armed n = 0) ∧
      (moved = false → target = if Req.u64 q 8 = 0 then receiptOf 0x0602 q u + 1000000 else Req.u64 q 8) ∧
      (moved = true → target = receiptOf 0x0602 q u + 1000000) ∧ (0x62, locSwitch) ∈ t.flt.status ∧
      t.rte.active = s.rte.active ∧ t.rte.pending = s.rte.pending ∧ t.bud = s.bud ∧ t.mem = s.mem) ∧
  (∀ q s peers n target moved e first u, Serves 0x0602 q s → u = (taken q s).settleSalvo (Req.u8 q 0) →
    salvoTakeCheck peers q (receiptOf 0x0602 q u) u = .ok (n, target, moved, e, first) →
    askOthers q u (otherMembers u (u.salvo n)) ≠ [] → target < 2 ^ 64 →
    ∃ t j, exec (.salvoTake ⟨q, peers⟩) s = .next (dequeue 0x0602 q t) ∧ t.ctl.jobs = s.ctl.jobs ++ [j] ∧ j.kind = .takeAcks n ∧ j.req = q ∧
      (u.salvoLeft n = true ∨ u.othersLeft { u.salvo n with target := target } = true →
        (t.salvo n).state = .committed ∧ t.armed n = target) ∧ (0x62, locSwitch) ∈ t.flt.status ∧
      t.rte.active = s.rte.active ∧ t.mem = s.mem) ∧
  (∀ q s peers n u, Serves 0x0603 q s → u = (taken q s).settleSalvo (Req.u8 q 0) →
    salvoAbandonCheck peers q (receiptOf 0x0603 q u) u = .ok n →
    ∃ t, exec (.salvoAbandon q peers) s = .next (answered 0x0603 0 q (switchedBytes u (u.salvo n) peers 0) t) ∧ n = Req.u8 q 0 ∧
      t.salvo n = salvoReset 0 ∧ t.armed n = 0 ∧ (∀ o ∈ heldOutputs s n, fget (t.routeP o) RouteEntry.pendState = 0) ∧
      (∀ o, o ∉ heldOutputs s n → t.routeP o = s.routeP o) ∧ t.rte.active = s.rte.active ∧ t.mem = s.mem) ∧
  (∀ q s peers u, Serves 0x0604 q s → u = (taken q s).settleSalvo (Req.u8 q 0) → salvoArg q 0 u = .ok (Req.u8 q 0) →
    Req.trailingOk q 1 = true →
    exec (.salvoQuery q peers) s = .next (answered 0x0604 0 q (leBytes 1 (salvoCode (u.salvo (Req.u8 q 0)).state) ++
      leBytes 1 (salvoMembers (u.salvo (Req.u8 q 0))) ++ leBytes 2 (u.salvo (Req.u8 q 0)).entries.length ++ leBytes 4 0 ++
      leBytes 8 (u.armed (Req.u8 q 0)) ++ switchedBytes u (u.salvo (Req.u8 q 0)) peers 16) u)) ∧
  (∀ q s u, Serves 0x0605 q s → u = (taken q s).settleSalvo (Req.u8 q 0) → salvoArg q 0 u = .ok (Req.u8 q 0) → Req.num q 1 1 = 0 →
    Req.trailingOk q 4 = true →
    ∃ l, l = ((u.salvo (Req.u8 q 0)).entries.drop (Req.u16 q 2)).take 27 ∧
      exec (.salvoEntries q) s = .next (answered 0x0605 0 q (leBytes 2 l.length ++ leBytes 2 0 ++ l.flatMap entryBytes) u)) ∧
  (∀ (s : State) (n : Nat), ((s.salvo n).state = .committed → s.salvoLeft n = false → s.othersLeft (s.salvo n) = false → (s.salvo n).rebuilt = false →
      ((s.settleSalvo n).salvo n).state = .done ∧ (s.settleSalvo n).armed n = 0) ∧
    ((s.salvo n).state ≠ .committed ∨ s.salvoLeft n = true ∨ s.othersLeft (s.salvo n) = true → s.settleSalvo n = s))

/-- PRESET_STORE writes at most 1,024 entries of its salvo from FIRST into the preset it names; PRESET_LOAD adds a stored preset's entries to
an EMPTY or PREPARING salvo; a preset that fails its CRC answers E_CHECK and raises PRESET_CHECK_FAIL with no entry added; PRESET_DELETE
empties one preset; PRESET_LIST changes nothing. As with the SALVO commands, a COMMITTED salvo of which nothing is left to switch is made
DONE before it is looked at. -/
def Obligations.PresetCommandsTakeEffect : Prop :=
  (∀ q s p l u, Serves 0x0606 q s → u = (taken q s).settleSalvo (Req.u8 q 0) → presetStoreCheck q u = .ok (p, l) →
    p = Req.u8 q 1 ∧ l = ((u.salvo (Req.u8 q 0)).entries.drop (Req.u16 q 2)).take 1024 ∧ l ≠ [] ∧
    exec (.presetStore q) s = .next (answered 0x0606 0 q (leBytes 2 l.length)
      (u.onRte (fun r => { r with presets := tset bytesReset r.presets p (presetBytes l) })))) ∧
  (∀ q s n l u, Serves 0x0607 q s → u = (taken q s).settleSalvo (Req.u8 q 1) → presetLoadCheck q u = .ok (n, l) →
    ∃ t, exec (.presetLoad q) s = .next (answered 0x0607 0 q (leBytes 2 l.length) t) ∧ n = Req.u8 q 1 ∧
      l = (presetEntries (s.preset (Req.u8 q 0))).foldl addEntry (u.salvo n).entries ∧ (t.salvo n).state = .preparing ∧
      (t.salvo n).entries = l ∧ (∀ m, m ≠ n → t.salvo m = s.salvo m) ∧ t.rte.active = s.rte.active ∧ t.rte.pending = s.rte.pending ∧
      t.bud = s.bud ∧ t.mem = s.mem) ∧
  (∀ q s u, Serves 0x0607 q s → u = (taken q s).settleSalvo (Req.u8 q 1) → salvoArg q 1 u = .ok (Req.u8 q 1) →
    Req.trailingOk q 2 = true → (u.salvo (Req.u8 q 1)).state = .empty ∨ (u.salvo (Req.u8 q 1)).state = .preparing →
    s.preset (Req.u8 q 0) ≠ [] → s.presetOk (Req.u8 q 0) = false →
    ∃ t, exec (.presetLoad q) s = .next (answered 0x0607 0x0A q [] t) ∧ (0x6A, locMram (presetRegion (Req.u8 q 0))) ∈ t.flt.status ∧
      t.rte = s.rte) ∧
  (∀ q s, Serves 0x0608 q s → Req.trailingOk q 1 = true →
    exec (.presetDelete q) s = .next (answered 0x0608 0 q []
      ((taken q s).onRte (fun r => { r with presets := tdel r.presets (Req.u8 q 0) })))) ∧
  (∀ q s, Serves 0x0609 q s → Req.trailingOk q 0 = true →
    exec (.presetList q) s = .next (answered 0x0609 0 q ((List.range 256).flatMap (fun p =>
      leBytes 2 (if (s.preset p).isEmpty then 0 else if s.presetOk p then presetCount (s.preset p) else 0xFFFF))) (taken q s)))

/-- COMP_OUT_WRITE, COMP_LAYER_WRITE, COMP_MATRIX_WRITE and COMP_CURSOR_WRITE whose checks pass write their record at once where TARGET is 0;
with a TARGET that passes its timing check the record stays and the write joins those held. COMP_LOAD gathers the chunks of a bank, commits
the whole bank with the last where its entries are valid and else discards the load with E_RANGE, the bank as before. COMP_READ and
COMP_LAYER_READ answer the records, counters cleared only with CLEAR. -/
def Obligations.ComposerCommandsTakeEffect : Prop :=
  (∀ q s n o u, Serves 0x0700 q s → compOutWriteCheck q (taken q s) = .ok (n, o, u) → Req.u64 q 4 = 0 →
    ∃ t, exec (.compOutWrite q) s = .next (answered 0x0700 0 q (recBytes (t.compOut n)) t) ∧ n = Req.u32 q 0 ∧ n < 64 ∧
      o = mergeRec CompOut.layout (s.compOut n) (Req.recordBytes q 32) ∧ t.compOut n = o ∧ (∀ m, m ≠ n → t.compOut m = s.compOut m) ∧
      t.cmp.held = s.cmp.held ∧ t.mem.tiles = s.mem.tiles ∧ t.rte = s.rte ∧ t.cal = s.cal ∧ t.pwr = s.pwr) ∧
  (∀ q s n o u at_ v, Serves 0x0700 q s → compOutWriteCheck q (taken q s) = .ok (n, o, u) → Req.u64 q 4 ≠ 0 →
    u.planeOn (fget o CompOut.plane) = true → heldTiming u q (receiptOf 0x0700 q u) (u.compNextF o) = .ok (at_, v) →
    ∃ t, exec (.compOutWrite q) s = .next (answered 0x0700 0 q (recBytes (s.compOut n)) t) ∧
      t.cmp = { s.cmp with held := s.cmp.held ++ [⟨at_, .compOut n, recBytes o⟩] } ∧ t.rte = s.rte ∧ t.cal = s.cal ∧ t.pwr = s.pwr) ∧
  (∀ q s i e u, Serves 0x0701 q s → compLayerWriteCheck q (taken q s) = .ok (i, e, u) → Req.u64 q 4 = 0 →
    ∃ t, exec (.compLayerWrite q) s = .next (answered 0x0701 0 q (recBytes e) t) ∧ i = Req.u32 q 0 ∧ i < 128 ∧
      e = mergeRec Layer.layout (s.compLayer i) (Req.recordBytes q 32) ∧ t.compLayer i = e ∧
      (∀ j, j ≠ i → t.compLayer j = s.compLayer j) ∧ t.cmp.out = s.cmp.out ∧ t.cmp.held = s.cmp.held ∧ t.mem = s.mem ∧ t.rte = s.rte ∧
      t.cal = s.cal ∧ t.pwr = s.pwr) ∧
  (∀ q s i e u o at_ v, Serves 0x0701 q s → compLayerWriteCheck q (taken q s) = .ok (i, e, u) → Req.u64 q 4 ≠ 0 →
    o = s.compOut (4 * (i / 8) + layerConv (s.compMode (i / 8)) (i % 8)) → u.planeOn (fget o CompOut.plane) = true →
    heldTiming u q (receiptOf 0x0701 q u) (u.compNextF o) = .ok (at_, v) →
    ∃ t, exec (.compLayerWrite q) s = .next (answered 0x0701 0 q (recBytes (s.compLayer i)) t) ∧
      t.cmp = { s.cmp with held := s.cmp.held ++ [⟨at_, .compLayer i, recBytes e⟩] } ∧ t.mem = s.mem ∧ t.rte = s.rte) ∧
  (∀ q s i m, Serves 0x0702 q s → compMatrixWriteCheck q (taken q s) = .ok (i, m) → Req.u64 q 4 = 0 →
    i = Req.u32 q 0 ∧ i < 128 ∧ m = mergeRec matLayout (tget matReset s.cmp.mat i) (Req.recordBytes q 36) ∧
    exec (.compMatrixWrite q) s = .next (answered 0x0702 0 q (recBytes m)
      ((taken q s).onCmp (fun c => { c with mat := tset matReset c.mat i m })))) ∧
  (∀ q s i m at_ v, Serves 0x0702 q s → compMatrixWriteCheck q (taken q s) = .ok (i, m) → Req.u64 q 4 ≠ 0 →
    s.planeOn (fget (s.compOut (4 * (i / 8) + layerConv (s.compMode (i / 8)) (i % 8))) CompOut.plane) = true →
    heldTiming (taken q s) q (receiptOf 0x0702 q (taken q s)) ((taken q s).compNextF
      (s.compOut (4 * (i / 8) + layerConv (s.compMode (i / 8)) (i % 8)))) = .ok (at_, v) →
    ∃ t, exec (.compMatrixWrite q) s = .next (answered 0x0702 0 q (recBytes (tget matReset s.cmp.mat i)) t) ∧
      t.cmp = { s.cmp with held := s.cmp.held ++ [⟨at_, .compMatrix i, recBytes m⟩] } ∧ t.mem = s.mem ∧ t.rte = s.rte) ∧
  (∀ q s c r, Serves 0x0703 q s → compCursorWriteCheck q (taken q s) = .ok (c, r) → Req.u64 q 4 = 0 →
    ∃ t, exec (.compCursorWrite q) s = .next (answered 0x0703 0 q (recBytes r) t) ∧ c = Req.u32 q 0 ∧ c < 16 ∧
      r = mergeRec Cursor.layout (tget curReset s.cmp.cur c) (Req.recordBytes q 16) ∧ tget curReset t.cmp.cur c = r ∧
      (∀ d, d ≠ c → tget curReset t.cmp.cur d = tget curReset s.cmp.cur d) ∧ (t.compSt (4 * c)).run = (s.compSt (4 * c)).run ∧
      t.cmp.out = s.cmp.out ∧ t.cmp.layer = s.cmp.layer ∧ t.cmp.held = s.cmp.held ∧ t.mem = s.mem ∧ t.rte = s.rte ∧ t.bud = s.bud) ∧
  (∀ q s c r at_ v, Serves 0x0703 q s → compCursorWriteCheck q (taken q s) = .ok (c, r) → Req.u64 q 4 ≠ 0 →
    s.planeOn (fget (s.compOut (4 * c)) CompOut.plane) = true →
    heldTiming (taken q s) q (receiptOf 0x0703 q (taken q s)) ((taken q s).compNextF (s.compOut (4 * c))) = .ok (at_, v) →
    ∃ t, exec (.compCursorWrite q) s = .next (answered 0x0703 0 q (recBytes (tget curReset s.cmp.cur c)) t) ∧
      t.cmp = { s.cmp with held := s.cmp.held ++ [⟨at_, .compCursor c, recBytes r⟩] } ∧ t.mem = s.mem ∧ t.rte = s.rte) ∧
  (∀ q s x others, Serves 0x0704 q s → compLoadCheck q (taken q s) = .ok (x, others, false) →
    x.table = Req.u8 q 0 ∧ x.bank = Req.u8 q 1 ∧ x.index = Req.u32 q 4 ∧ x.bytes.length = Req.u32 q 8 + Req.u16 q 12 ∧
    others = s.cmp.loads.filter (fun y => !sameLoad x.table x.bank x.index y) ∧
    exec (.compLoad q) s = .next (answered 0x0704 0 q (leBytes 4 x.bytes.length)
      ((taken q s).onCmp (fun c => { c with loads := others ++ [x] })))) ∧
  (∀ q s x others, Serves 0x0704 q s → compLoadCheck q (taken q s) = .ok (x, others, true) → bankOk x.table x.bytes = true →
    x.bytes.length = bankSize x.table ∧
    exec (.compLoad q) s = .next (answered 0x0704 0 q (leBytes 4 x.bytes.length) ((taken q s).onCmp (fun c => { c with
      loads := others, banks := tset (fun _ => []) c.banks (bankKey x.table x.bank x.index) x.bytes,
      lutBad := c.lutBad.filter (· != bankKey x.table x.bank x.index) })))) ∧
  (∀ q s x others, Serves 0x0704 q s → compLoadCheck q (taken q s) = .ok (x, others, true) → bankOk x.table x.bytes = false →
    exec (.compLoad q) s = .next (answered 0x0704 1 q [16, 0] ((taken q s).onCmp (fun c => { c with loads := others })))) ∧
  (∀ q s, Serves 0x0705 q s → Req.u32 q 0 < 16 → Req.trailingOk q 8 = true → Req.u32 q 4 < 2 →
    exec (.compRead q) s = .next (answered 0x0705 0 q ((List.range 4).flatMap (fun k => recBytes (s.compOut (4 * Req.u32 q 0 + k))) ++
      recBytes (tget curReset s.cmp.cur (Req.u32 q 0))) (taken q s))) ∧
  (∀ q s, Serves 0x0706 q s → Req.u32 q 0 < 128 → Req.trailingOk q 8 = true → Req.u32 q 4 < 2 →
    exec (.compLayerRead q) s = .next (answered 0x0706 0 q (recBytes (s.compLayer (Req.u32 q 0)) ++
      recBytes (tget matReset s.cmp.mat (Req.u32 q 0)) ++ leBytes 4 (s.laySt (Req.u32 q 0)).repeats ++
      leBytes 4 (s.laySt (Req.u32 q 0)).skips)
      (if Req.u32 q 4 = 1 then (taken q s).setLaySt (Req.u32 q 0) { s.laySt (Req.u32 q 0) with repeats := 0, skips := 0 } else taken q s)))

/-- CAL_WRITE writes the Calliope record. AUD_IN_WRITE, AUD_OUT_WRITE, AUD_BUS_WRITE, AUD_BUS_INPUTS and AUD_DYN_WRITE whose checks pass
write their records at once where TARGET is 0; with a TARGET that passes its timing check the records stay and the write joins the at
most 256 held. A dynamics instance switched on starts with no gain reduction. AUD_READ answers the records and, but for CLEAR, changes nothing. -/
def Obligations.AudioCommandsTakeEffect : Prop :=
  (∀ q s e, Serves 0x0800 q s → calWriteCheck q (taken q s) = .ok e →
    e = mergeRec Cal.layout s.cal.ctl (Req.recordBytes q 16) ∧
    exec (.calWrite q) s = .next (answered 0x0800 0 q (recBytes e) ((taken q s).onCal (fun c => { c with ctl := e })))) ∧
  (∀ q s i e u, Serves 0x0801 q s → audInWriteCheck q (taken q s) = .ok (i, e, u) → Req.u64 q 4 = 0 →
    ∃ t, exec (.audInWrite q) s = .next (answered 0x0801 0 q (recBytes e) t) ∧ i = Req.u32 q 0 ∧ i < 1024 ∧
      e = mergeRec AudIn.layout (s.audIn i) (Req.recordBytes q 32) ∧ t.audIn i = e ∧ (∀ j, j ≠ i → t.audIn j = s.audIn j) ∧
      t.cal.held = s.cal.held ∧ t.mem = s.mem ∧ t.rte = s.rte ∧ t.cmp = s.cmp ∧ t.pwr = s.pwr) ∧
  (∀ q s o h l u, Serves 0x0802 q s → audOutWriteCheck q (taken q s) = .ok (o, h, l, u) → Req.u64 q 4 = 0 →
    ∃ t, exec (.audOutWrite q) s = .next (answered 0x0802 0 q (t.audOutBytes o) t) ∧ o = Req.u32 q 0 ∧ o < 1024 ∧
      h = mergeRec AudOut.layout (s.audOut o) ((Req.recordBytes q 144).take 16) ∧ t.audOut o = h ∧
      (∀ j, j ≠ o → t.audOut j = s.audOut j) ∧ t.cal.held = s.cal.held ∧ t.mem.tiles = s.mem.tiles ∧ t.rte = s.rte ∧ t.cmp = s.cmp ∧
      t.pwr = s.pwr) ∧
  (∀ q s b e, Serves 0x0803 q s → audBusWriteCheck q (taken q s) = .ok (b, e) → Req.u64 q 4 = 0 →
    ∃ t, exec (.audBusWrite q) s = .next (answered 0x0803 0 q (recBytes (t.busImage b)) t) ∧ b = Req.u32 q 0 ∧ b < 512 ∧
      e = mergeRec Bus.layout (s.mixBus b) (Req.recordBytes q 32) ∧ t.mixBus b = e ∧ (∀ j, j ≠ b → t.mixBus j = s.mixBus j) ∧
      t.cal.held = s.cal.held ∧ t.mem = s.mem ∧ t.rte = s.rte ∧ t.bud = s.bud) ∧
  (∀ q s b first l, Serves 0x0804 q s → audBusInputsCheck q (taken q s) = .ok (b, first, l) → Req.u64 q 4 = 0 →
    ∃ t, exec (.audBusInputs q) s = .next (answered 0x0804 0 q (l.flatMap recBytes) t) ∧ b = Req.u32 q 0 ∧ first = Req.u8 q 12 ∧
      l.length = Req.u8 q 13 ∧ (∀ k, (h : k < l.length) → t.busInput (128 * b + first + k) = l[k]) ∧
      (∀ j, j < 128 * b + first ∨ 128 * b + first + l.length ≤ j → t.busInput j = s.busInput j) ∧
      t.cal.held = s.cal.held ∧ t.mem = s.mem ∧ t.rte = s.rte ∧ t.bud = s.bud) ∧
  (∀ q s i e, Serves 0x0805 q s → audDynWriteCheck q (taken q s) = .ok (i, e) → Req.u64 q 4 = 0 →
    ∃ t, exec (.audDynWrite q) s = .next (answered 0x0805 0 q (recBytes (t.dynRec i)) t) ∧ i = Req.u32 q 0 ∧ i < 1024 ∧
      e = mergeRec Dyn.layout (s.dynRec i) (Req.recordBytes q 32) ∧ (∀ j, j ≠ i → t.dynRec j = s.dynRec j) ∧
      (fbit e Dyn.dynEn = true → fbit (s.dynRec i) Dyn.dynEn = true → t.dynRec i = e) ∧
      (fbit e Dyn.dynEn = false ∨ fbit (s.dynRec i) Dyn.dynEn = false → t.dynRec i = fput e Dyn.gr 0) ∧
      t.cal.held = s.cal.held ∧ t.mem = s.mem ∧ t.rte = s.rte ∧ t.bud = s.bud) ∧
  (∀ q s b e at_ v, Serves 0x0803 q s → audBusWriteCheck q (taken q s) = .ok (b, e) → Req.u64 q 4 ≠ 0 →
    s.planeOn (fget s.cal.ctl Cal.calPlane) = true → s.cal.held.length < 256 →
    heldTiming (taken q s) q (receiptOf 0x0803 q (taken q s)) (taken q s).calNextTick = .ok (at_, v) →
    ∃ t, exec (.audBusWrite q) s = .next (answered 0x0803 0 q (recBytes (s.busImage b)) t) ∧
      t.cal = { s.cal with held := s.cal.held ++ [⟨at_, .audBus b, recBytes e⟩] } ∧ t.mem = s.mem ∧ t.rte = s.rte) ∧
  (∀ q s i e u at_ v, Serves 0x0801 q s → audInWriteCheck q (taken q s) = .ok (i, e, u) → Req.u64 q 4 ≠ 0 →
    s.planeOn (fget s.cal.ctl Cal.calPlane) = true → s.cal.held.length < 256 →
    heldTiming u q (receiptOf 0x0801 q u) u.calNextTick = .ok (at_, v) →
    ∃ t, exec (.audInWrite q) s = .next (answered 0x0801 0 q (recBytes (s.audIn i)) t) ∧
      t.cal = { s.cal with held := s.cal.held ++ [⟨at_, .audIn i, recBytes e⟩] } ∧ t.mem = s.mem ∧ t.rte = s.rte) ∧
  (∀ q s o h l u at_ v, Serves 0x0802 q s → audOutWriteCheck q (taken q s) = .ok (o, h, l, u) → Req.u64 q 4 ≠ 0 →
    s.planeOn (fget s.cal.ctl Cal.calPlane) = true → s.cal.held.length < 256 →
    heldTiming u q (receiptOf 0x0802 q u) u.calNextTick = .ok (at_, v) →
    ∃ t, exec (.audOutWrite q) s = .next (answered 0x0802 0 q (s.audOutBytes o) t) ∧
      t.cal = { s.cal with held := s.cal.held ++ [⟨at_, .audOut o, recBytes h ++ l.flatMap recBytes⟩] } ∧ t.mem = s.mem ∧ t.rte = s.rte) ∧
  (∀ q s b first l at_ v, Serves 0x0804 q s → audBusInputsCheck q (taken q s) = .ok (b, first, l) → Req.u64 q 4 ≠ 0 →
    s.planeOn (fget s.cal.ctl Cal.calPlane) = true → s.cal.held.length < 256 →
    heldTiming (taken q s) q (receiptOf 0x0804 q (taken q s)) (taken q s).calNextTick = .ok (at_, v) →
    ∃ t, exec (.audBusInputs q) s = .next (answered 0x0804 0 q (l.flatMap recBytes) t) ∧
      t.cal = { s.cal with held := s.cal.held ++ [⟨at_, .audBusInputs b first, l.flatMap recBytes⟩] } ∧ t.mem = s.mem ∧ t.rte = s.rte) ∧
  (∀ q s i e at_ v, Serves 0x0805 q s → audDynWriteCheck q (taken q s) = .ok (i, e) → Req.u64 q 4 ≠ 0 →
    s.planeOn (fget s.cal.ctl Cal.calPlane) = true → s.cal.held.length < 256 →
    heldTiming (taken q s) q (receiptOf 0x0805 q (taken q s)) (taken q s).calNextTick = .ok (at_, v) →
    ∃ t, exec (.audDynWrite q) s = .next (answered 0x0805 0 q (recBytes (s.dynRec i)) t) ∧
      t.cal = { s.cal with held := s.cal.held ++ [⟨at_, .audDyn i, recBytes e⟩] } ∧ t.mem = s.mem ∧ t.rte = s.rte) ∧
  (∀ q s kind i, Serves 0x0806 q s → kind = Req.u32 q 0 / 65536 → i = Req.u32 q 0 % 65536 → kind ≤ 5 → i < audCount kind →
    Req.trailingOk q 8 = true → Req.u32 q 4 < 2 →
    exec (.audRead q) s = .next (answered 0x0806 0 q (s.audBytes kind i)
      (if Req.u32 q 4 = 1 then (taken q s).audClear kind i else taken q s)))

/-- CAND_WRITE writes its candidate's record: a candidate switched off is UNUSED, one switched on with activity at least qualifies. REF_WRITE
writes the engine's record; switched off, the loop falls to FREE with no candidate selected and no correction. REF_READ answers a record
and changes nothing. PHASE_RESET clears the build-out. No route, ring or power state changes. -/
def Obligations.ReferenceCommandsTakeEffect : Prop :=
  (∀ q s c new, Serves 0x0900 q s → candWriteCheck q (taken q s) = .ok (c, new) →
    ∃ t, exec (.candWrite q) s = .next (answered 0x0900 0 q (recBytes (t.cand c)) t) ∧ c = Req.u32 q 0 ∧ c < 16 ∧
      new = mergeRec Cand.layout (s.cand c) (Req.recordBytes q 16) ∧ (∀ n, n ≠ c → t.cand n = s.cand n) ∧
      (fbit new Cand.candEn = false → t.cand c = fput new Cand.qState 0) ∧
      (fbit new Cand.candEn = true → t.cand c = new ∨ (fget new Cand.qState = 0 ∧ t.cand c = fput new Cand.qState 1)) ∧
      t.ref.plane = s.ref.plane ∧ t.mem = s.mem ∧ t.rte = s.rte ∧ t.bud = s.bud ∧ t.pwr = s.pwr) ∧
  (∀ q s new, Serves 0x0901 q s → refWriteCheck q (taken q s) = .ok new →
    ∃ t, exec (.refWrite q) s = .next (answered 0x0901 0 q (recBytes t.ref.eng) t) ∧
      new = mergeRec RefEng.layout s.ref.eng (Req.recordBytes q 32) ∧
      (fbit new RefEng.refEn = true ∨ fget s.ref.eng RefEng.loopState = 0 → t.ref.eng = new) ∧
      (fbit new RefEng.refEn = false → fget s.ref.eng RefEng.loopState ≠ 0 →
        t.ref.eng = fput (fput (fput new RefEng.loopState 0) RefEng.selected noCand) RefEng.freqCorr 0) ∧
      t.ref.plane = s.ref.plane ∧ t.ref.cand = s.ref.cand ∧ t.mem = s.mem ∧ t.rte = s.rte ∧ t.bud = s.bud ∧ t.pwr = s.pwr) ∧
  (∀ q s, Serves 0x0902 q s → Req.u32 q 0 < 17 → Req.trailingOk q 8 = true → Req.u32 q 4 < 2 →
    exec (.refRead q) s = .next (answered 0x0902 0 q
      (if Req.u32 q 0 = 0 then recBytes s.ref.eng else s.candImage (Req.u32 q 0 - 1)) (taken q s))) ∧
  (∀ q s, Serves 0x0903 q s → Req.trailingOk q 0 = true →
    ∃ t, exec (.phaseReset q) s = .next (answered 0x0903 0 q [] t) ∧ t.ref.build = 0 ∧ t.ref.eng = fput s.ref.eng RefEng.buildout 0 ∧
      t.ref.plane = s.ref.plane ∧ (∀ p, s.planeOn p = false → t.planeSt p = s.planeSt p) ∧ t.mem = s.mem ∧ t.rte = s.rte ∧ t.pwr = s.pwr)

/-- PTP_INST_WRITE writes its instance's record: a running instance's record stays as written, one switched on starts with no state, one
switched off holds none. PTP_SERVO_WRITE writes the servo's record. PTP_TS_CORR sets both corrections of a sub-port. PTP_SET_TIME, with no
instance in service, sets the local clock to the time given and raises PTP_TIME_STEP. PTP_READ answers the records and clears the counters
only with CLEAR. -/
def Obligations.PtpCommandsTakeEffect : Prop :=
  (∀ q s i new, Serves 0x0A00 q s → ptpInstWriteCheck q (taken q s) = .ok (i, new) →
    ∃ t, exec (.ptpInstWrite q) s = .next (answered 0x0A00 0 q (recBytes (t.inst i)) t) ∧ i = Req.u32 q 0 ∧ i < 4 ∧
      new = mergeRec Inst.layout (s.inst i) (Req.recordBytes q 32) ∧
      (fbit new Inst.instEn = fbit (s.inst i) Inst.instEn → t = (taken q s).setInst i new) ∧
      (fbit new Inst.instEn ≠ fbit (s.inst i) Inst.instEn → fget (t.inst i) Inst.instState = 0 ∧
        (fbit new Inst.instEn = false → fget (t.inst i) Inst.gmId = 0) ∧
        t.instSt i = { instStReset 0 with ctr := (s.instSt i).ctr }) ∧
      fbit (t.inst i) Inst.instEn = fbit new Inst.instEn ∧ t.mem = s.mem ∧ t.rte = s.rte ∧ t.bud = s.bud ∧ t.pwr = s.pwr) ∧
  (∀ q s new, Serves 0x0A01 q s → ptpServoWriteCheck q (taken q s) = .ok new →
    ∃ t, exec (.ptpServoWrite q) s = .next (answered 0x0A01 0 q (recBytes new) t) ∧
      new = mergeRec Servo.layout s.ptp.servo (Req.recordBytes q 32) ∧ t.ptp.servo = new ∧ t.time = s.time ∧ t.mem = s.mem ∧
      t.rte = s.rte ∧ t.bud = s.bud ∧ t.pwr = s.pwr) ∧
  (∀ q s, Serves 0x0A02 q s → Req.u8 q 0 < 4 → s.subExists (Req.u8 q 0) (Req.u8 q 1) = true → Req.num q 2 2 = 0 →
    Req.trailingOk q 8 = true →
    exec (.ptpTsCorr q) s = .next (answered 0x0A02 0 q [] ((taken q s).onPtp (fun p =>
      { p with corr := tset corrReset p.corr (8 * Req.u8 q 0 + Req.u8 q 1) (sgn 16 (Req.u16 q 4), sgn 16 (Req.u16 q 6)) })))) ∧
  (∀ q s, Serves 0x0A03 q s → Req.u64 q 0 < 2 ^ 48 → Req.u32 q 8 < 1000000000 → Req.trailingOk q 12 = true →
    (∀ i, i < 4 → fget (s.inst i) Inst.instState ≠ 1 ∧ fget (s.inst i) Inst.instState ≠ 2) → fget s.ptp.servo Servo.servoSrc = 0 →
    ∃ t, exec (.ptpSetTime q) s = .next (answered 0x0A03 0 q [] t) ∧ t.now = Req.u64 q 0 * 1000000000 + Req.u32 q 8 ∧
      t.time.clk = s.time.clk ∧ (0xED, locPtp) ∈ t.flt.status ∧ t.ptp = s.ptp ∧ t.mem = s.mem ∧ t.rte = s.rte ∧ t.pwr = s.pwr) ∧
  (∀ q s, Serves 0x0A04 q s → Req.u32 q 0 < 4 → Req.trailingOk q 8 = true → Req.u32 q 4 < 2 →
    exec (.ptpRead q) s = .next (answered 0x0A04 0 q (recBytes (s.inst (Req.u32 q 0)) ++
      (s.instSt (Req.u32 q 0)).ctr.flatMap (leBytes 4) ++ leBytes 2 (unsgn 16 (s.rxCorr (Req.u32 q 0)).1) ++
      leBytes 2 (unsgn 16 (s.rxCorr (Req.u32 q 0)).2))
      (if Req.u32 q 4 = 1 then (taken q s).setInstSt (Req.u32 q 0) { s.instSt (Req.u32 q 0) with ctr := List.replicate 7 0 }
        else taken q s))) ∧
  (∀ q s, Serves 0x0A04 q s → Req.u32 q 0 = 4 → Req.trailingOk q 8 = true → Req.u32 q 4 < 2 →
    exec (.ptpRead q) s = .next (answered 0x0A04 0 q (recBytes s.ptp.servo ++ s.reading) (taken q s)))

/-- TROUPE_WRITE, LINK_WRITE and LANE_WRITE write their records; TROUPE_IMPORT admits the export on the member that has the ring and the import
on the member that reads it, with the credits of the exporter; TROUPE_UNIMPORT ends both; TROUPE_FORWARD sends its request to the member
and waits for its response; TROUPE_READ answers a record and clears counters only with CLEAR. Import and export are each checked on the
member concerned: where neither is this device, nothing of its own changes. -/
def Obligations.TroupeCommandsTakeEffect : Prop :=
  (∀ q s e, Serves 0x0B00 q s → troupeWriteCheck q (taken q s) = .ok e →
    ∃ t, exec (.troupeWrite q) s = .next (answered 0x0B00 0 q (recBytes t.trp.rec_) t) ∧
      e = mergeRec TroupeRec.layout s.trp.rec_ (Req.recordBytes q 16) ∧
      fbit t.trp.rec_ TroupeRec.troupeEn = fbit e TroupeRec.troupeEn ∧
      fget t.trp.rec_ TroupeRec.members = fget e TroupeRec.members ∧ (∀ k, fbit (t.linkRec k) Link.linkEn = fbit (s.linkRec k) Link.linkEn) ∧ t.bud = s.bud ∧ t.cmp = s.cmp ∧ t.pwr = s.pwr) ∧
  (∀ q s k e, Serves 0x0B01 q s → linkWriteCheck q (taken q s) = .ok (k, e) →
    ∃ t, exec (.linkWrite q) s = .next (answered 0x0B01 0 q (recBytes (t.linkRec k)) t) ∧ k = Req.u32 q 0 ∧ k < 7 ∧
      e = mergeRec Link.layout (s.linkRec k) (Req.recordBytes q 16) ∧ fbit (t.linkRec k) Link.linkEn = fbit e Link.linkEn ∧
      fget (t.linkRec k) Link.lanes = fget e Link.lanes ∧ fget (t.linkRec k) Link.peer = fget e Link.peer ∧
      (∀ n, n ≠ k → t.linkRec n = s.linkRec n) ∧ t.bud = s.bud ∧ t.cmp = s.cmp ∧ t.pwr = s.pwr) ∧
  (∀ q s l e, Serves 0x0B02 q s → laneWriteCheck q (taken q s) = .ok (l, e) →
    l = Req.u32 q 0 ∧ l < 48 ∧ e = mergeRec LaneRec.layout (s.svLane l) (Req.recordBytes q 8) ∧
    exec (.laneWrite q) s = .next (answered 0x0B02 0 q (recBytes e)
      ((taken q s).onTrp (fun t => { t with lane := tset laneRecReset t.lane l e })))) ∧
  (∀ q s peers a u ei c via v ii, Serves 0x0B03 q s → importArgs q true (taken q s) = .ok a →
    (askOthers q (taken q s) [a.from_, a.to_]).all (fun m => (linkTo (taken q s) m).isSome) = true →
    exportHere a peers (taken q s) = .ok (u, ei, c, via) →
    importHere a peers (if (askOthers q (taken q s) [a.from_, a.to_]).contains a.from_ then some c else none)
      (exportHops a peers q (taken q s)) u = .ok (v, ii) →
    peersOk peers (askOthers q (taken q s) [a.from_, a.to_]) = .ok () →
    ∃ t, exec (.troupeImport q peers) s =
        .next (answered 0x0B03 0 q (leBytes 2 ei ++ leBytes 2 ii ++ leBytes 2 c ++ leBytes 1 via ++
          if q.port = .p1 then leBytes 1 (exportHops a peers q (taken q s)) else []) t) ∧
      (a.from_ = s.member → a.to_ ≠ s.member → fbit (t.exp ei) Export.expEn = true ∧ fget (t.exp ei) Export.srcRing = a.src ∧
        fget (t.exp ei) Export.toF = a.to_ ∧ t.trp.imp = s.trp.imp) ∧
      (a.to_ = s.member → a.from_ ≠ s.member → fbit (t.imp ii) Import.impEn = true ∧ fget (t.imp ii) Import.impRing = a.dst ∧
        fget (t.imp ii) Import.fromRing = a.src ∧ t.trp.exp = s.trp.exp) ∧
      (a.from_ ≠ s.member → a.to_ ≠ s.member → t.trp.exp = s.trp.exp ∧ t.trp.imp = s.trp.imp ∧ t.bud = s.bud) ∧
      t.mem.tiles = s.mem.tiles ∧ t.rte = s.rte ∧ t.cmp = s.cmp ∧ t.pwr = s.pwr) ∧
  (∀ q s peers a u v, Serves 0x0B04 q s → importArgs q false (taken q s) = .ok a →
    (askOthers q (taken q s) [a.from_, a.to_]).all (fun m => (linkTo (taken q s) m).isSome) = true →
    unexportHere a (taken q s) = .ok u → unimportHere a u = .ok v → peersOk peers (askOthers q (taken q s) [a.from_, a.to_]) = .ok () →
    ∃ t, exec (.troupeUnimport q peers) s = .next (answered 0x0B04 0 q [] t) ∧
      (∀ i, a.from_ = s.member → s.findExport a = some i → t.exp i = expReset i ∧
        t.bud.holds = (if a.to_ = s.member then t.bud.holds else s.bud.holds.filter (fun h => !Hold.heldBy (.exp i) h))) ∧
      (∀ i, a.to_ = s.member → a.from_ ≠ s.member → s.findImport a = some i → t.imp i = impReset i ∧
        t.bud.holds = s.bud.holds.filter (fun h => h.grp != .write a.dst)) ∧
      t.rte = s.rte ∧ t.cmp = s.cmp ∧ t.pwr = s.pwr) ∧
  (∀ q s m k, Serves 0x0B05 q s → troupeForwardCheck q (taken q s) = .ok (m, k) →
    ∃ t j, exec (.troupeForward q) s = .next (dequeue 0x0B05 q t) ∧ m = Req.u8 q 0 ∧ m < 8 ∧ m ≠ s.member ∧
      t.ctl.jobs = s.ctl.jobs ++ [j] ∧ j.kind = .forward m ∧ j.req = q ∧ t.mem = s.mem ∧ t.bud = s.bud ∧ t.rte = s.rte ∧ t.pwr = s.pwr) ∧
  (∀ q s, Serves 0x0B06 q s → Req.u16 q 0 < troupeCount (Req.u16 q 2) → Req.trailingOk q 8 = true → Req.u32 q 4 < 2 →
    exec (.troupeRead q) s = .next (answered 0x0B06 0 q (troupeBytes (Req.u16 q 2) (Req.u16 q 0) s)
      (if Req.u32 q 4 = 1 then troupeClear (Req.u16 q 2) (Req.u16 q 0) (taken q s) else taken q s)))

/-- TWIN_WRITE writes the twin record: switched on, the heartbeats start over; switched off, the device is SOLO and NONE again with no mirror
left. TWIN_READ answers the record, the bad-heartbeat counts and the last heartbeat, cleared only with CLEAR. TWIN_SWAP on a primary with
both paths up and a SYNCED shadow announces the handover with reason SWAP at its TARGET, or 1 ms after receipt. -/
def Obligations.TwinCommandsTakeEffect : Prop :=
  (∀ q s e, Serves 0x0C00 q s → twinWriteCheck q (taken q s) = .ok e →
    ∃ t, exec (.twinWrite q) s = .next (answered 0x0C00 0 q (recBytes t.twin.rec_) t) ∧
      e = mergeRec Twin.layout s.twin.rec_ (Req.recordBytes q 32) ∧
      (fbit e Twin.twinEn = fbit s.twin.rec_ Twin.twinEn → t = (taken q s).onTwin (fun w => { w with rec_ := e })) ∧
      (fbit e Twin.twinEn = true → t.twin.rec_ = e) ∧
      (fbit e Twin.twinEn = true → fbit s.twin.rec_ Twin.twinEn = false → t.twin.hbSeq = 0) ∧
      (fbit e Twin.twinEn = false → fbit s.twin.rec_ Twin.twinEn = true → t.role = .solo ∧ t.sync = 0 ∧ t.twin.mirrors = [] ∧
        t.twin.yield = none ∧ t.twin.resync = none) ∧
      t.mem = s.mem ∧ t.rte = s.rte ∧ t.bud = s.bud ∧ t.pwr = s.pwr) ∧
  (∀ q s, Serves 0x0C01 q s → Req.u32 q 0 < 1 → Req.trailingOk q 8 = true → Req.u32 q 4 < 2 →
    exec (.twinRead q) s = .next (answered 0x0C01 0 q
      (recBytes s.twin.rec_ ++ leBytes 4 s.twin.a.bad ++ leBytes 4 s.twin.b.bad ++ fitBytes 40 s.twin.hb)
      (if Req.u32 q 4 = 1 then (taken q s).onTwin (fun t => { t with
        rec_ := fput t.rec_ Twin.divCount 0, a := { t.a with bad := 0 }, b := { t.b with bad := 0 } }) else taken q s))) ∧
  (∀ q s y moved, Serves 0x0C02 q s → twinSwapCheck q (receiptOf 0x0C02 q (taken q s)) (taken q s) = .ok (y, moved) →
    ∃ t, exec (.twinSwap q) s = .next (answered 0x0C02 0 q (leBytes 4 (bit moved) ++ leBytes 4 0 ++ leBytes 8 y) t) ∧
      s.role = .primary ∧ s.sync = 2 ∧ fbit s.twin.rec_ Twin.pathAOk = true ∧ fbit s.twin.rec_ Twin.pathBOk = true ∧
      t.twin.yield = some ⟨y, 2⟩ ∧ t.twin.rec_ = s.twin.rec_ ∧
      (moved = false → y = if Req.u64 q 0 = 0 then receiptOf 0x0C02 q (taken q s) + 1000000 else Req.u64 q 0) ∧
      (moved = true → y = receiptOf 0x0C02 q (taken q s) + 1000000) ∧ t.mem = s.mem ∧ t.rte = s.rte ∧ t.bud = s.bud ∧ t.pwr = s.pwr)

/-- REC_READ and FAULT_READ answer what the recorder and the collector hold and change nothing. REC_CLEAR of a writer in service writes a
CLEARED record and sets REC_LOW to its SEQ, which it answers. REC_LIMIT sets the rate and burst of one code. FAULT_CLEAR of a code whose
sources report no cause takes its named locations out of STATUS and of isolation. FAULT_FORCE sets the STATUS bit of its code and
location. EVENT_CONFIG sets one code's vector and enable. -/
def Obligations.RecorderAndFaultCommandsTakeEffect : Prop :=
  (∀ q s, Serves 0x0D00 q s → Req.trailingOk q 5 = true → 1 ≤ Req.u8 q 4 → Req.u8 q 4 ≤ 7 →
    exec (.recRead q) s = .next (answered 0x0D00 0 q (recReadBytes s.rec_ (Req.u32 q 0) (Req.u8 q 4)) (taken q s))) ∧
  (∀ q s, Serves 0x0D01 q s → Req.trailingOk q 0 = true → s.rec_.isolated = false →
    ∃ t, exec (.recClear q) s = .next (answered 0x0D01 0 q (leBytes 4 s.rec_.nextSeq) t) ∧
      t.rec_.low = BitVec.ofNat 32 s.rec_.nextSeq ∧ t.rec_.next = BitVec.ofNat 32 (s.rec_.nextSeq + 1) ∧
      (∀ k, k ≠ s.rec_.nextSeq % 65536 → tget bytesReset t.rec_.slots k = tget bytesReset s.rec_.slots k) ∧
      t.flt = s.flt ∧ t.mem = s.mem ∧ t.rte = s.rte ∧ t.pwr = s.pwr) ∧
  (∀ q s code rate burst, Serves 0x0D02 q s → recLimitCheck q = .ok (code, rate, burst) →
    ∃ t, exec (.recLimit q) s = .next (answered 0x0D02 0 q [] t) ∧ code = Req.u16 q 0 ∧ rate = Req.u8 q 2 ∧ burst = Req.u8 q 3 ∧
      1 ≤ rate ∧ rate ≤ 100 ∧ 1 ≤ burst ∧ tget limitReset t.rec_.limits code = (rate, burst) ∧
      (∀ c, c ≠ code → tget limitReset t.rec_.limits c = tget limitReset s.rec_.limits c) ∧
      t.mem = s.mem ∧ t.rte = s.rte ∧ t.pwr = s.pwr) ∧
  (∀ q s, Serves 0x0E00 q s → Req.trailingOk q 0 = true →
    exec (.faultRead q) s = .next (answered 0x0E00 0 q s.collectorBytes (taken q s))) ∧
  (∀ q s c named, Serves 0x0E01 q s → faultClearCheck q (taken q s) = .ok (c, named) →
    ∃ t, exec (.faultClear q) s = .next (answered 0x0E01 0 q [] t) ∧ c = Req.u16 q 0 ∧
      t.flt.status = s.flt.status.filter (fun p => !named.contains p) ∧
      (∀ p ∈ named, p.1 = c ∧ p ∈ s.flt.status ∧ (Req.u32 q 4 = 0xFFFFFFFF ∨ p.2 = Req.u32 q 4)) ∧
      (evClass c = 2 → ownWay.contains c = false → ∀ p ∈ named, p ∉ t.flt.isolated) ∧
      t.mem = s.mem ∧ t.rte = s.rte ∧ t.pwr = s.pwr) ∧
  (∀ q s c l, Serves 0x0E02 q s → faultForceCheck q (taken q s) = .ok (c, l) →
    ∃ t, exec (.faultForce q) s = .next (answered 0x0E02 0 q [] t) ∧ c = Req.u16 q 0 ∧ l = Req.u32 q 4 ∧
      (c ≠ 0x20 → (c, l) ∈ t.flt.status) ∧ (c = 0x20 → (0x20, locCollector) ∈ t.flt.status ∧ fbit t.flt.ctl FaultCtl.parityTrip = true) ∧
      (c = 0x09 ∨ c = 0x26 → t.pwr.due = some (.restart, s.time.clk))) ∧
  (∀ q s, Serves 0x0E03 q s → Req.trailingOk q 3 = true → Req.u8 q 1 < 64 → Req.u8 q 2 < 2 →
    exec (.eventConfig q) s = .next (answered 0x0E03 0 q [] ((taken q s).onFlt (fun f => { f with
      evCfg := tset evCfgReset f.evCfg (Req.u8 q 0)
        (fput (fput (tget evCfgReset f.evCfg (Req.u8 q 0)) EvCfg.vector (Req.u8 q 1)) EvCfg.enable (Req.u8 q 2)) }))))

/-- UPD_BEGIN opens a write of the slot that is not active and records it INCOMPLETE with its size; UPD_CHUNK at the byte count written so far
programs its bytes, and a programming failure closes the write, isolates the slot and answers E_CHECK; UPD_END records the slot WRITTEN
where the CRC agrees and answers E_CHECK, with no change, where it does not; UPD_ACTIVATE makes the slot ACTIVE and announces the restart 1 ms
ahead, or, from the boot ROM, starts the image its check passes; UPD_QUERY changes nothing. -/
def Obligations.UpdateCommandsTakeEffect : Prop :=
  (∀ q s, Serves 0x0F00 q s → Req.trailingOk q 4 = true → 1 ≤ Req.u32 q 0 → Req.u32 q 0 ≤ 16777216 → s.upd.write = none →
    s.slotBad s.writeSlot = false →
    exec (.updBegin q) s = .next (answered 0x0F00 0 q (leBytes 1 s.writeSlot) (((taken q s).writeTable (fun t =>
      fput (fput t (stateFld s.writeSlot) slotIncomplete) (sizeFld s.writeSlot) (Req.u32 q 0))).onUpd
        (fun u => { u with write := some ⟨s.writeSlot, Req.u32 q 0, 0⟩ })))) ∧
  (∀ q s w len, Serves 0x0F01 q s → updChunkCheck q (taken q s) = .ok (w, len) →
    ∃ t, exec (.updChunk q false) s = .next (answered 0x0F01 0 q (leBytes 4 (w.written + len)) t) ∧ s.upd.write = some w ∧
      len = Req.u16 q 4 ∧ Req.u32 q 0 = w.written ∧ w.written + len ≤ w.size ∧
      t.upd.write = some { w with written := w.written + len } ∧
      t.slotBytes w.slot = fitBytes w.written (s.slotBytes w.slot) ++ fitBytes len (Req.slice q 8 len) ++
        (s.slotBytes w.slot).drop (w.written + len) ∧
      t.mem = s.mem ∧ t.rte = s.rte ∧ t.pwr = s.pwr ∧ t.flt = s.flt) ∧
  (∀ q s w len, Serves 0x0F01 q s → updChunkCheck q (taken q s) = .ok (w, len) →
    ∃ t, exec (.updChunk q true) s = .next (answered 0x0F01 0x0A q [] t) ∧ t.upd.write = none ∧ (0xFF, locMram (16 * w.slot)) ∈ t.flt.status ∧
      t.mem = s.mem ∧ t.rte = s.rte ∧ t.pwr = s.pwr) ∧
  (∀ q s w, Serves 0x0F02 q s → Req.trailingOk q 4 = true → s.upd.write = some w → w.written = w.size →
    crc32c (fitBytes w.size (s.slotBytes w.slot)) = Req.u32 q 0 →
    exec (.updEnd q) s = .next (answered 0x0F02 0 q (leBytes 4 (Req.u32 q 0))
      (((taken q s).onUpd (fun u => { u with write := none })).writeTable (fun t => fput t (stateFld w.slot) slotWritten)))) ∧
  (∀ q s w, Serves 0x0F02 q s → Req.trailingOk q 4 = true → s.upd.write = some w → w.written = w.size →
    crc32c (fitBytes w.size (s.slotBytes w.slot)) ≠ Req.u32 q 0 →
    exec (.updEnd q) s = .next (answered 0x0F02 0x0A q [] (taken q s))) ∧
  (∀ q s v, Serves 0x0F03 q s → Req.trailingOk q 1 = true → Req.u8 q 0 < 2 → s.slotState (Req.u8 q 0) = slotWritten →
    (s.pwr.power = .active → s.slotMajor (Req.u8 q 0) = s.pwr.fwMajor) →
    exec (.updActivate q v) s = .next (answered 0x0F03 0 q [] (((taken q s).activateSlot (Req.u8 q 0)).onPwr
      (fun p => { p with due := some (.restart, s.time.clk + 1000000) })))) ∧
  (∀ q s, s.pwr.bootState = .rescue → q.port = .p2 → s.pwr.afterRestart = true → headerOk q s = true → Req.wf q = true →
    Req.trailingOk q 1 = true → Req.u8 q 0 < 2 → s.slotState (Req.u8 q 0) = slotWritten ∨ s.slotState (Req.u8 q 0) = slotActive →
    s.imageFails (Req.u8 q 0) .proven = none →
    exec (.updActivate q .proven) s = .next (answered 0x0F03 0 q [] ((taken q s).activateSlot (Req.u8 q 0)).bootImage)) ∧
  (∀ q s, Serves 0x0F04 q s → Req.trailingOk q 0 = true →
    exec (.updQuery q) s = .next (answered 0x0F04 0 q (leBytes 1 (fget s.slotTable SlotTab.active) ++
      leBytes 1 (fget s.slotTable SlotTab.stateA) ++ leBytes 1 (fget s.slotTable SlotTab.stateB) ++ [0] ++
      leBytes 4 (fget s.slotTable SlotTab.sizeA) ++ leBytes 4 (fget s.slotTable SlotTab.sizeB)) (taken q s)))

/-- TEST_GEN, TEST_CHECK and TEST_LOOP set the pattern, the checker from zero and the loop point of one lane and touch no other; TEST_RESULT
answers the counts, cleared only with CLEAR; TEST_MEM in STAGING with every ring free, and TEST_SHADOW on a shadow, start their run and
answer when it ends. -/
def Obligations.TestCommandsTakeEffect : Prop :=
  (∀ q s kind lane pattern, Serves 0x1000 q s → s.role ≠ .shadow → patternCheck q true (taken q s) = .ok (kind, lane, pattern) →
    kind = Req.u8 q 0 ∧ lane = Req.u16 q 2 ∧ pattern = Req.u8 q 4 ∧
    exec (.testGen q) s = .next (answered 0x1000 0 q [] ((taken q s).setTest (testLaneOf kind lane)
      { s.testLane (testLaneOf kind lane) with gen := pattern, inject := if pattern = 0 then 0 else Req.u8 q 5 }))) ∧
  (∀ q s kind lane pattern, Serves 0x1001 q s → patternCheck q false (taken q s) = .ok (kind, lane, pattern) →
    kind = Req.u8 q 0 ∧ lane = Req.u16 q 2 ∧ pattern = Req.u8 q 4 ∧
    exec (.testCheck q) s = .next (answered 0x1001 0 q [] ((taken q s).setTest (testLaneOf kind lane)
      { s.testLane (testLaneOf kind lane) with check := pattern, locked := false, bits := 0, errors := 0 }))) ∧
  (∀ q s x point, Serves 0x1002 q s → testLoopCheck q (taken q s) = .ok (x, point) →
    x = testLaneOf (Req.u8 q 0) (Req.u16 q 2) ∧ point = Req.u8 q 4 ∧ point < 3 ∧
    exec (.testLoop q) s = .next (answered 0x1002 0 q [] ((taken q s).setTest x { s.testLane x with point := point }))) ∧
  (∀ q s kind lane, Serves 0x1003 q s → kind = Req.u32 q 0 / 2 ^ 16 → lane = Req.u32 q 0 % 2 ^ 16 → lane < kindLanes kind →
    Req.trailingOk q 8 = true → Req.u32 q 4 < 2 →
    exec (.testResult q) s = .next (answered 0x1003 0 q (leBytes 8 (s.testLane (testLaneOf kind lane)).bits ++
      leBytes 8 (s.testLane (testLaneOf kind lane)).errors ++ leBytes 1 (bit (s.testLane (testLaneOf kind lane)).locked) ++
      leBytes 1 (s.eyeOf kind lane))
      (if Req.u32 q 4 = 1 then (taken q s).setTest (testLaneOf kind lane) { s.testLane (testLaneOf kind lane) with bits := 0, errors := 0 }
        else taken q s))) ∧
  (∀ q s mask pattern, Serves 0x1004 q s → testMemCheck q (taken q s) = .ok (mask, pattern) →
    ∃ t j, exec (.testMem q) s = .next (dequeue 0x1004 q t) ∧ mask = Req.u16 q 0 ∧ pattern = Req.u8 q 2 ∧ s.pwr.power = .staging ∧
      t.tst = { s.tst with memRun := some (mask, pattern) } ∧ t.ctl.jobs = s.ctl.jobs ++ [j] ∧ j.kind = .memTest ∧ j.req = q ∧
      t.mem = s.mem) ∧
  (∀ q s scope lane, Serves 0x1005 q s → testShadowCheck q (taken q s) = .ok (scope, lane) →
    ∃ t j, exec (.testShadow q) s = .next (dequeue 0x1005 q t) ∧ scope = Req.u8 q 0 ∧ lane = Req.u16 q 2 ∧ s.role = .shadow ∧
      t.tst = { s.tst with shadowRun := some (scope, lane) } ∧ t.ctl.jobs = s.ctl.jobs ++ [j] ∧ j.kind = .shadowTest ∧ j.req = q ∧
      t.mem = s.mem)

/-- SDI_WRITE, ETH_WRITE, ETH_ADDR_WRITE, PKT_FLOW_WRITE, PKT_OUT_WRITE and SB_WRITE whose checks pass leave the record their bytes give
and answer it; no other lane's, port's, flow's or output's record changes. PORT_SNAPSHOT captures the counters of the ports named with the
next snapshot number. PORT_READ answers a record and clears the counters it answers only with CLEAR. -/
def Obligations.PortCommandsTakeEffect : Prop :=
  (∀ q s l new u, Serves 0x1100 q s → sdiWriteCheck q (taken q s) = .ok (l, new, u) →
    ∃ t, exec (.sdiWrite q) s = .next (answered 0x1100 0 q (recBytes (sdiCfg t l)) t) ∧ l = Req.u32 q 0 ∧ l < 144 ∧
      new = mergeRec SdiLane.layout (sdiCfg s l) (Req.recordBytes q 32) ∧ sdiCfg t l = new ∧ (∀ n, n ≠ l → sdiCfg t n = sdiCfg s n) ∧
      t.rte = s.rte ∧ t.cmp = s.cmp ∧ t.cal = s.cal ∧ t.pwr = s.pwr) ∧
  (∀ q s n new, Serves 0x1101 q s → ethWriteCheck q (taken q s) = .ok (n, new) →
    ∃ t, exec (.ethWrite q) s = .next (answered 0x1101 0 q (recBytes new) t) ∧ n = Req.u32 q 0 ∧ n < 4 ∧
      new = mergeRec EthPort.layout (s.ethPort n) (Req.recordBytes q 32) ∧ t.ethPort n = new ∧
      (∀ m, m ≠ n → t.ethPort m = s.ethPort m) ∧ t.bud = s.bud ∧ t.cmp = s.cmp ∧ t.cal = s.cal ∧ t.pwr = s.pwr) ∧
  (∀ q s p new, Serves 0x1102 q s → ethAddrWriteCheck q (taken q s) = .ok (p, new) →
    p = Req.u32 q 0 ∧ p < 32 ∧ new = mergeRec EthAddr.layout (s.ethAddr p) (Req.recordBytes q 32) ∧
    exec (.ethAddrWrite q) s = .next (answered 0x1102 0 q (recBytes new)
      ((taken q s).onEth (fun e => { e with addr := tset ethAddrReset e.addr p new })))) ∧
  (∀ q s f new hdr u, Serves 0x1103 q s → pktFlowWriteCheck q (taken q s) = .ok (f, new, hdr, u) →
    ∃ t, exec (.pktFlowWrite q) s = .next (answered 0x1103 0 q (recBytes new ++ leBytes 66 hdr.toNat) t) ∧ f = Req.u32 q 0 ∧ f < 4096 ∧
      new = mergeRec PktFlow.layout (s.pktRec f) (Req.recordBytes q 32) ∧ t.pktRec f = new ∧ t.pktHdr f = hdr ∧
      (∀ n, n ≠ f → t.pktRec n = s.pktRec n ∧ t.pktHdr n = s.pktHdr n) ∧ t.mem = s.mem ∧ t.rte = s.rte ∧ t.eth = s.eth ∧ t.pwr = s.pwr) ∧
  (∀ q s e, Serves 0x1104 q s → sbWriteCheck q (taken q s) = .ok e →
    e = mergeRec SbRec.layout s.ctl.sb (Req.recordBytes q 16) ∧
    ∃ t, exec (.sbWrite q) s = .next (answered 0x1104 0 q (recBytes e) t) ∧ t.ctl.sb = e ∧
      (fbit s.ctl.sb SbRec.sbEn = false ∨ fbit e SbRec.sbEn = true → t = (taken q s).onCtl (fun c => { c with sb := e })) ∧
      t.mem = s.mem ∧ t.rte = s.rte ∧ t.eth = s.eth ∧ t.pwr = s.pwr) ∧
  (∀ q s, Serves 0x1105 q s → Req.trailingOk q 1 = true → Req.u8 q 0 < 16 →
    ∃ t, exec (.portSnapshot q) s = .next (answered 0x1105 0 q
        ((List.range 4).flatMap (fun n => leBytes 4 (t.bank n).seq.toNat) ++ leBytes 8 s.now) t) ∧
      (∀ n, n < 4 → t.bank n = if maskBit (Req.u8 q 0) n then ⟨(s.bank n).seq + 1, s.now, s.ethCounters n⟩ else s.bank n) ∧
      t.eth.ctr = s.eth.ctr ∧ t.eth.port = s.eth.port ∧ t.mem = s.mem ∧ t.rte = s.rte) ∧
  (∀ q s a, Serves 0x1106 q s → cmdPortRead q (taken q s) = .ok a →
    exec (.portRead q) s = .next (answered 0x1106 0 q a.2 a.1) ∧ Req.u16 q 2 < 7 ∧ (Req.u32 q 4 = 0 → a.1 = taken q s) ∧
      (Req.u16 q 2 = 0 → a.2 = s.laneImage (Req.u16 q 0)) ∧ (Req.u16 q 2 = 2 → a.2 = recBytes (s.ethAddr (Req.u16 q 0))) ∧
      (Req.u16 q 2 = 5 → a.2 = recBytes s.ctl.sb)) ∧
  (∀ q s o new, Serves 0x1107 q s → pktOutWriteCheck q (taken q s) = .ok (o, new) →
    o = Req.u32 q 0 ∧ o < 2048 ∧ new = mergeRec PktOut.layout (tget pktOutReset s.flo.pktOut o) (Req.recordBytes q 16) ∧
    exec (.pktOutWrite q) s = .next (answered 0x1107 0 q (recBytes new)
      ((taken q s).onFlo (fun f => { f with pktOut := tset pktOutReset f.pktOut o new }))))

/-- Until release step 3 and outside STAGING and ACTIVE the host port serves nothing: each of the host's accesses leaves the device as it was. -/
def Obligations.HostPortIsClosedOutsideStagingAndActive : Prop :=
  ∀ s : State, s.hostPort = false →
    (∀ n seq, exec (.db n seq) s = .next s.fresh) ∧ (∀ n off b, exec (.requestBufferWrite n off b) s = .next s.fresh) ∧
    (∀ m, exec (.doneMapClear m) s = .next s.fresh) ∧ (∀ h, exec (.pop h) s = .next s.fresh) ∧
    (∀ h e, exec (.release h e) s = .next s.fresh) ∧ (∀ w b, exec (.force w b) s = .next s.fresh) ∧
    (∀ c, exec (.pendingClear c) s = .next s.fresh) ∧ (∀ m, exec (.blkRst m) s = .next s.fresh) ∧
    (∀ v, exec (.fullRst v) s = .next s.fresh) ∧ (∀ v, exec (.cntClear v) s = .next s.fresh) ∧
    (∀ v, exec (.maint v) s = .next s.fresh) ∧ exec .decValidClear s = .next s.fresh ∧ exec .abortValidClear s = .next s.fresh ∧
    (∀ v, exec (.rtcSec v) s = .next s.fresh) ∧ exec .ptpNowRead s = .next s.fresh ∧
    (∀ o w v, exec (.registerWrite o w v) s = .next s.fresh) ∧ (∀ o n, exec (.bar2Read o n) s = .next s.fresh) ∧
    (∀ o b, exec (.bar2Write o b) s = .next s.fresh)

/-- With the host port released. DB on an IDLE or DONE mailbox that is served queues its request with its sequence and receipt time; on a
QUEUED or RUNNING one it is ignored and DB_IGNORED advances, saturating at 255; where nothing serves it it is lost. A write to a request
buffer lands where its channel is not locked and is discarded with MIDWAY_BUS_ERROR where it is. W1C of DONE_MAP clears exactly its bits.
POP removes the head descriptor. RELEASE sets RELSEQ of a bound capture ring up to WSEQ, and is ignored beyond it. -/
def Obligations.MailboxAndHostQueueAccesses : Prop :=
  ∀ s : State, s.hostPort = true →
    (∀ n seq, s.mailboxServed n.val = false → exec (.db n seq) s = .next s.byHost) ∧
    (∀ n seq, s.mailboxServed n.val = true → (s.mailbox n.val).busy = true → ∃ t, exec (.db n seq) s = .next t ∧
      fget (t.mailbox n.val).status MbStatus.dbIgnored = min 255 (fget (s.mailbox n.val).status MbStatus.dbIgnored + 1) ∧
      (t.mailbox n.val).state = (s.mailbox n.val).state ∧ (t.mailbox n.val).request = (s.mailbox n.val).request ∧
      (∀ m, m ≠ n.val → t.mailbox m = s.mailbox m) ∧ t.ctl.doneMap = s.ctl.doneMap) ∧
    (∀ n seq, s.mailboxServed n.val = true → (s.mailbox n.val).busy = false → ∃ t, exec (.db n seq) s = .next t ∧
      (t.mailbox n.val).state = 1 ∧ fget (t.mailbox n.val).status MbStatus.seq = seq.toNat ∧ (t.mailbox n.val).receipt = s.now ∧
      (t.mailbox n.val).request = (s.mailbox n.val).request ∧
      fget (t.mailbox n.val).status MbStatus.dbIgnored = fget (s.mailbox n.val).status MbStatus.dbIgnored ∧
      (∀ m, m ≠ n.val → t.mailbox m = s.mailbox m) ∧ t.ctl.doneMap = s.ctl.doneMap) ∧
    (∀ n off b, bar0Aligned off.val b.length = true → (s.mailbox n.val).busy = false → exec (.requestBufferWrite n off b) s =
      .next (s.byHost.setMb n.val { s.mailbox n.val with request := spliceBytes (s.mailbox n.val).request off.val b })) ∧
    (∀ n off b, bar0Aligned off.val b.length = true → (s.mailbox n.val).busy = true → ∃ t, exec (.requestBufferWrite n off b) s = .next t ∧
      (0xFD, locMidway) ∈ t.flt.status ∧ t.mailbox n.val = s.mailbox n.val) ∧
    (∀ m, ∃ t, exec (.doneMapClear m) s = .next t ∧ (∀ i, t.ctl.doneMap.getLsbD i = (s.ctl.doneMap.getLsbD i && !m.getLsbD i)) ∧
      t.ctl.mb = s.ctl.mb) ∧
    (∀ h, ∃ t, exec (.pop h) s = .next t ∧ t.hq h.val = { s.hq h.val with descs := (s.hq h.val).descs.drop 1 } ∧
      (∀ n, n ≠ h.val → t.hq n = s.hq n)) ∧
    (∀ h e, (s.hq h.val).en = true → (s.hq h.val).insert = false →
      (e - BitVec.ofNat 32 (fget (s.ring (s.hq h.val).ring) RingDesc.relseq)).toNat ≤
        (ringWseq (s.ring (s.hq h.val).ring) - BitVec.ofNat 32 (fget (s.ring (s.hq h.val).ring) RingDesc.relseq)).toNat →
      ∃ t, exec (.release h e) s = .next t ∧ t.ring (s.hq h.val).ring = fput (s.ring (s.hq h.val).ring) RingDesc.relseq e.toNat ∧
        (∀ r, r ≠ (s.hq h.val).ring → t.ring r = s.ring r)) ∧
    (∀ h e, (s.hq h.val).en = false ∨ (s.hq h.val).insert = true ∨
      (ringWseq (s.ring (s.hq h.val).ring) - BitVec.ofNat 32 (fget (s.ring (s.hq h.val).ring) RingDesc.relseq)).toNat <
        (e - BitVec.ofNat 32 (fget (s.ring (s.hq h.val).ring) RingDesc.relseq)).toNat →
      exec (.release h e) s = .next s.byHost)

/-- With the host port released. FORCE of a defined code at a location that exists sets its STATUS bit and no other access does; W1C of
PENDING clears that code's; BLK_RST holds the blocks it names, outside a release and but for those of STAGING only in ACTIVE; FULL_RST
with 0xA5 is a full software reset, counted, and nothing with another value; CNT_CLEAR zeroes the counters; the error logs clear; RTC_SEC
sets the RTC and restarts its subseconds; a low read of PTP_NOW latches the high word; aligned writes of SCRATCH, IRQ_EN and IRQ_CFG
store, and an access no register covers is logged and raises MIDWAY_BUS_ERROR. A default-target read by the host completes Unsupported. -/
def Obligations.ResetAndErrorRegisterAccesses : Prop :=
  (∀ s w, s.hostPort = true → evDefined (w.toNat % 256) = true → locExists s.pwr.reduced (w.toNat % 256) (w.toNat / 2 ^ 32 % 2 ^ 24) = true →
    w.toNat % 256 ≠ 0x20 → ∃ t, exec (.force w true) s = .next t ∧ (w.toNat % 256, w.toNat / 2 ^ 32 % 2 ^ 24) ∈ t.flt.status) ∧
  (∀ s w, s.hostPort = true → evDefined (w.toNat % 256) = false ∨
    locExists s.pwr.reduced (w.toNat % 256) (w.toNat / 2 ^ 32 % 2 ^ 24) = false → exec (.force w true) s = .next s.byHost) ∧
  (∀ s w, exec (.force w false) s = .next s.byHost) ∧
  (∀ s c, s.hostPort = true → ∃ t, exec (.pendingClear c) s = .next t ∧
    tget evCfgReset t.flt.evCfg c.val = fput (tget evCfgReset s.flt.evCfg c.val) EvCfg.pending 0 ∧
    (∀ d, d ≠ c.val → tget evCfgReset t.flt.evCfg d = tget evCfgReset s.flt.evCfg d) ∧ t.flt.status = s.flt.status) ∧
  (∀ s m, s.hostPort = true → s.inRelease = false → ∃ t, exec (.blkRst m) s = .next t ∧
    ∀ b, b < 57 → m.getLsbD b = true → (s.pwr.power = .active → stagingOnly.contains b = false) → t.blockHeld b = true) ∧
  (∀ s m, s.hostPort = true → s.inRelease = true → exec (.blkRst m) s = .next s.byHost) ∧
  (∀ s, s.hostPort = true → ∃ t, exec (.fullRst 0xA5) s = .next t ∧ Cleared s t ∧ t.pwr.power = .staging ∧
    fget t.pwr.cnt Cnt.cntSoft = min 0xFFFF (fget s.pwr.cnt Cnt.cntSoft + 1)) ∧
  (∀ s v, v ≠ 0xA5 → exec (.fullRst v) s = .next s.byHost) ∧
  (∀ s, s.hostPort = true → ∃ t, exec (.cntClear true) s = .next t ∧ fget t.pwr.cnt Cnt.total = 0 ∧
    (∀ c ∈ allCauses, fget t.pwr.cnt (cntFld c) = 0) ∧ fget t.pwr.cnt Cnt.lastCause = fget s.pwr.cnt Cnt.lastCause) ∧
  (∀ s, exec (.cntClear false) s = .next s.byHost) ∧
  (∀ s, s.hostPort = true → ∃ t, exec .decValidClear s = .next t ∧ fbit t.ctl.midway Midway.decValid = false ∧
    fget t.ctl.midway Midway.decAddr = 0 ∧ fget t.ctl.midway Midway.decCount = 0 ∧
    fget t.ctl.midway Midway.abortCount = fget s.ctl.midway Midway.abortCount) ∧
  (∀ s, s.hostPort = true → ∃ t, exec .abortValidClear s = .next t ∧ fbit t.ctl.midway Midway.abortValid = false ∧
    fget t.ctl.midway Midway.abortAddr = 0 ∧ fget t.ctl.midway Midway.abortCount = 0 ∧
    fget t.ctl.midway Midway.decCount = fget s.ctl.midway Midway.decCount) ∧
  (∀ s v, s.hostPort = true → ∃ t, exec (.rtcSec v) s = .next t ∧ fget t.pwr.aon Aon.rtcSec = v.toNat ∧ fget t.pwr.aon Aon.rtcSub = 0 ∧
    t.time.xtal = 0 ∧ fget t.pwr.aon Aon.alarmSec = fget s.pwr.aon Aon.alarmSec) ∧
  (∀ s, s.hostPort = true → ∃ t, exec .ptpNowRead s = .next t ∧ t.emitted = [.completion (leBytes 4 s.now)] ∧
    t.time = { s.time with ptpHigh := s.now / 2 ^ 32 % 2 ^ 32 }) ∧
  (∀ s v, s.hostPort = true → ∃ t, exec (.registerWrite 0x7308 true v) s = .next t ∧ t.ctl.irqEn = v ∧ t.ctl.doneMap = s.ctl.doneMap) ∧
  (∀ s v, s.hostPort = true → ∃ t, exec (.registerWrite 0x5080 false v) s = .next t ∧
    t.pwr.scratch.toNat = s.pwr.scratch.toNat / 2 ^ 32 * 2 ^ 32 + v.toNat % 2 ^ 32) ∧
  (∀ s o w v, s.hostPort = true → (bar0Aligned o.toNat (if w then 8 else 4) && bar0Covered o.toNat) = false →
    ∃ t, exec (.registerWrite o w v) s = .next t ∧ (0xFD, locMidway) ∈ t.flt.status ∧ fbit t.ctl.midway Midway.decValid = true ∧
      fget t.ctl.midway Midway.decCount = min 0xFFFF (fget s.ctl.midway Midway.decCount + 1)) ∧
  (∀ s a m w, s.fastOn = true → ∃ t, exec (.defaultTargetAccess a m w) s = .next t ∧ (0xFD, locMidway) ∈ t.flt.status ∧
    fbit t.ctl.midway Midway.decValid = true ∧
    (fbit s.ctl.midway Midway.decValid = false → fget t.ctl.midway Midway.decAddr = a.toNat ∧ fget t.ctl.midway Midway.decMaster = m.val ∧
      fbit t.ctl.midway Midway.decWrite = w) ∧
    (m.val = hostMaster → w = false → Emit.unsupported ∈ t.emitted)) ∧
  (∀ s a m w, s.fastOn = false → exec (.defaultTargetAccess a m w) s = .next s.fresh)

/-- MAINT is set exactly by a write of 1 in STAGING with no ring RUNNING; any other write leaves it at 0; entry to ACTIVE clears it. While it
is 1, a BAR2 write whose tiles have best-effort slots left in this turn, with no access waiting, is made at once, and any other waits; that an
access is made when it is made, now or in a later turn, is what State.accessNow does: it stores its bytes in every tile of ring space that
belongs to no ring, and the check record of each tile stored to is the complement of the CRC of what the tile then holds; every other byte of
the Tile Store, scratch and the rest of the check region included, is as before. -/
def Obligations.MaintenanceWindowWrites : Prop :=
  (∀ s v, s.hostPort = true → ∃ t, exec (.maint v) s = .next t ∧ (fbit t.ctl.midway Midway.maint = true ↔
    v = true ∧ s.pwr.power = .staging ∧ ∀ e ∈ s.mem.rings, fget e.2 RingDesc.stateF ≠ 2)) ∧
  (∀ q s, Serves 0x0103 q s → Req.trailingOk q 1 = true → Req.u8 q 0 = 3 → s.trainedAll = true → s.fatalSet [] = false →
    s.flt.isolated.any (fun p => p.1 == 0x47) = false → s.pwr.power ≠ .active →
    ∃ t, exec (.powerSet q) s = .next (answered 0x0103 0 q [3] t) ∧ fbit t.ctl.midway Midway.maint = false) ∧
  (∀ s a (off : BitVec 32) (b : List Byte), s.hostPort = true → fbit s.ctl.midway Midway.maint = true → a = s.bar2Base off.toNat →
    s.bud.waits = [] → s.bestRoom (s.bar2Targets a (b.take (2 ^ 32 - off.toNat)).length) = true →
    exec (.bar2Write off b) s = .next (s.byHost.accessNow (.write a (b.take (2 ^ 32 - off.toNat))))) ∧
  (∀ s a (off : BitVec 32) (b : List Byte), s.hostPort = true → fbit s.ctl.midway Midway.maint = true → a = s.bar2Base off.toNat →
    s.bud.waits ≠ [] ∨ s.bestRoom (s.bar2Targets a (b.take (2 ^ 32 - off.toNat)).length) = false →
    exec (.bar2Write off b) s =
      .next (s.byHost.onBud (fun u => { u with waits := u.waits ++ [.write a (b.take (2 ^ 32 - off.toNat))] }))) ∧
  ∀ (s t : State) (a : Nat) (b : List Byte), t = s.accessNow (.write a b) →
    (∀ x, (∀ i ∈ touchedTiles a b.length, i < ringSpace s.pwr.reduced → s.ringAt i = none →
        (x < max a (4096 * i) ∨ min (a + b.length) (4096 * i + 4096) ≤ x) ∧
          (x < checkBase s.pwr.reduced + 8 * i ∨ checkBase s.pwr.reduced + 8 * i + 4 ≤ x)) → t.byteAt x = s.byteAt x) ∧
    (∀ x, a ≤ x → x < a + b.length → x / 4096 < ringSpace s.pwr.reduced → s.ringAt (x / 4096) = none → some (t.byteAt x) = b[x - a]?) ∧
    (∀ i ∈ touchedTiles a b.length, i < ringSpace s.pwr.reduced → s.ringAt i = none →
      leNat (t.bytesAt (checkBase s.pwr.reduced + 8 * i) 4) = poisonCrc (tileCrc (t.bytesAt (4096 * i) 4096) 0))

/-- A BAR2 write while MAINT is 0 is discarded and raises MIDWAY_BUS_ERROR. A read that touches scratch, the check region or, with MAINT 0, a
tile of no ring completes Unsupported. Any other read waits behind those that wait, and where this turn has no best-effort slots left for its
tiles; else a read of one tile of a ring returns its bytes where the newest position verifies and Completer Abort with no data where it does
not, and with MAINT 1 a tile of no ring is returned unchecked. No read stores. -/
def Obligations.HostWindowReads : Prop :=
  (∀ s (off : BitVec 32) b, s.hostPort = true → fbit s.ctl.midway Midway.maint = false → ∃ t, exec (.bar2Write off b) s = .next t ∧
    (0xFD, locMidway) ∈ t.flt.status ∧ t.mem = s.mem) ∧
  (∀ s (off : BitVec 32) (len : Fin 4097), s.hostPort = true →
    (2 ^ 32 < off.toNat + len.val ∨ ∃ i ∈ touchedTiles (s.bar2Base off.toNat) len.val, ringSpace s.pwr.reduced ≤ i ∨
      (s.ringAt i = none ∧ fbit s.ctl.midway Midway.maint = false)) →
    exec (.bar2Read off len) s = .next (s.byHost.emit .unsupported)) ∧
  (∀ s a (off : BitVec 32) (len : Fin 4097), s.hostPort = true → a = s.bar2Base off.toNat → off.toNat + len.val ≤ 2 ^ 32 →
    (∀ i ∈ touchedTiles a len.val, i < ringSpace s.pwr.reduced ∧ (s.ringAt i ≠ none ∨ fbit s.ctl.midway Midway.maint = true)) →
    s.bud.waits ≠ [] ∨ s.bestRoom (touchedTiles a len.val) = false →
    exec (.bar2Read off len) s = .next (s.byHost.onBud (fun u => { u with waits := u.waits ++ [.read a len.val] }))) ∧
  (∀ s a (off : BitVec 32) (len : Fin 4097) r b, s.hostPort = true → a = s.bar2Base off.toNat → off.toNat + len.val ≤ 2 ^ 32 → 0 < len.val →
    a % 4096 + len.val ≤ 4096 → a / 4096 < ringSpace s.pwr.reduced → s.bud.waits = [] → s.bestRoom [a / 4096] = true →
    s.ringAt (a / 4096) = some r → s.verify r (newestAt (s.ring r) (a / 4096)) none = .good b →
    exec (.bar2Read off len) s =
      .next ((s.byHost.takeBest [a / 4096]).emit (.completion ((b.drop (a % 4096)).take len.val)))) ∧
  (∀ s a (off : BitVec 32) (len : Fin 4097) r, s.hostPort = true → a = s.bar2Base off.toNat → off.toNat + len.val ≤ 2 ^ 32 → 0 < len.val →
    a % 4096 + len.val ≤ 4096 → a / 4096 < ringSpace s.pwr.reduced → s.bud.waits = [] → s.bestRoom [a / 4096] = true →
    s.ringAt (a / 4096) = some r → (∀ b, s.verify r (newestAt (s.ring r) (a / 4096)) none ≠ .good b) →
    ∃ t, exec (.bar2Read off len) s = .next t ∧ t.emitted.getLast? = some .abort ∧ t.mem.tiles = s.mem.tiles) ∧
  (∀ s a (off : BitVec 32) (len : Fin 4097), s.hostPort = true → a = s.bar2Base off.toNat → off.toNat + len.val ≤ 2 ^ 32 → 0 < len.val →
    a % 4096 + len.val ≤ 4096 → a / 4096 < ringSpace s.pwr.reduced → s.bud.waits = [] → s.bestRoom [a / 4096] = true →
    s.ringAt (a / 4096) = none → fbit s.ctl.midway Midway.maint = true →
    exec (.bar2Read off len) s = .next ((s.byHost.takeBest [a / 4096]).emit (.completion
      (((s.bytesAt (4096 * (a / 4096)) 4096).drop (a % 4096)).take len.val))))

/-- While the firmware runs, an opcode the release does not define, well framed and on a port that is heard, gets one response whose STATUS is
E_UNKNOWN_OP, whatever its parameters, its deadline and its port's privileges. Nothing else changes: on P0 only the mailbox of the request
and its DONE bit, elsewhere only the request's place in its queue, and on P3 the responses that wait in band; every other register of the
device is as before. -/
def Obligations.UndefinedOpcodesChangeNothing : Prop :=
  ∀ (op : BitVec 16) (q : Req) (s : State), Req.wf q = true → opDefined op.toNat = false → s.pwr.bootState = .firmware →
    s.heard q.port = true → headerOk q s = true →
    ∃ t, exec (.undefinedOpcode op q) s = .next t ∧ t = answered op.toNat 0x0D q [] (taken q s) ∧
      (q.port = .p1 ∨ q.port = .p4 → t.emitted = [.response q.port q.chan q.sender (responseBytes op.toNat 0x0D q [] s.now)]) ∧
      (q.port = .p2 → t.emitted = [.service (s.sbFrame q.sender 0x88B6 (responseBytes op.toNat 0x0D q [] s.now))]) ∧
      (q.port = .p3 → t.emitted = [] ∧ t.ctl.inband = s.ctl.inband ++ (if (tget subReset s.eth.sub q.chan).link = .up then
        [⟨q.chan, q.sender, responseBytes op.toNat 0x0D q [] s.now⟩] else [])) ∧
      (q.port = .p0 → fget (t.mailbox q.chan).status MbStatus.status = 0x0D ∧ (t.mailbox q.chan).state = 3) ∧
      t.time = s.time ∧ t.pwr = s.pwr ∧ t.flt = s.flt ∧ t.rec_ = s.rec_ ∧ t.mem = s.mem ∧ t.bud = s.bud ∧ t.rte = s.rte ∧ t.sdi = s.sdi ∧
      t.eth = s.eth ∧ t.flo = s.flo ∧ t.cmp = s.cmp ∧ t.cal = s.cal ∧ t.ref = s.ref ∧ t.ptp = s.ptp ∧ t.trp = s.trp ∧ t.twin = s.twin ∧
      t.upd = s.upd ∧ t.tst = s.tst ∧ t.free = s.free ∧ t.ctl.priv = s.ctl.priv ∧ t.ctl.sessions = s.ctl.sessions ∧
      t.ctl.jobs = s.ctl.jobs ∧ (q.port ≠ .p3 → t.ctl.inband = s.ctl.inband) ∧ t.ctl.hq = s.ctl.hq ∧ t.ctl.sb = s.ctl.sb ∧ t.ctl.midway = s.ctl.midway

/-- On a READ_ONLY port whose GROUPS allow the command's group, exactly the class Q commands sent without CLEAR, SESSION_OPEN and SESSION_CLOSE,
PORT_SNAPSHOT, REC_READ and REC_CLEAR pass the privilege check; a well-framed query with its CLEAR flag set gets E_PRIV and nothing is
cleared: the state but for the response is as the request found it. -/
def Obligations.ReadOnlyPortsAdmitWhatChangesNothing : Prop :=
  (∀ (op : Nat) (q : Req) (s : State), opDefined op = true → fbit (s.priv q.port) Priv.readOnly = true →
    maskBit (fget (s.priv q.port) Priv.groups) (op / 256) = true →
    (privOk op q s = true ↔ (isQuery op = true ∧ setsClear op q = false) ∨ op ∈ [0x0101, 0x0102, 0x1105, 0x0D00, 0x0D01])) ∧
  (∀ (op : Nat) (q : Req) (s : State), opDefined op = true → maskBit (fget (s.priv q.port) Priv.groups) (op / 256) = false →
    (privOk op q s = true ↔ op ∈ [0x0D00, 0x0D01])) ∧
  ∀ (i : Instr) (op : Nat) (q : Req) (s : State), hostRequest i = some (op, q) → Req.wf q = true → s.pwr.bootState = .firmware →
    s.heard q.port = true → headerOk q s = true → opDefined op = true → fbit (s.priv q.port) Priv.readOnly = true →
    isQuery op = true → setsClear op q = true → exec i s = .next (answered op 2 q [] (taken q s))

/-- A P2 request while the MAC receives, and a P3 request while the firmware runs and the port is enabled, join their port's queue with
receipt now; while 16 wait it is answered E_BUSY; on a port that is not served it is lost. A forwarding or a profile change that has not
reached its commit at its deadline is taken off the jobs and answered E_TIMEOUT, the profile change withdrawn; a waiting P2, P3 or P4
request past its deadline leaves the queue with E_TIMEOUT, and a QUEUED mailbox's is answered E_TIMEOUT; while the firmware does not run and
no job is due nothing changes. A forwarded command from a member outside
MEMBERS is dropped and counted, with no response. From a member it is checked against this device's own P1 entry and, where its checks
pass, runs here and is answered on P1; one that would forward again gets no forwarding. A response that comes back completes the job that
waits for that member's sequence number, with its bytes; with no such job it is lost. -/
def Obligations.RequestsArriveExpireAndAreForwarded : Prop :=

  (∀ (op : BitVec 16) (q : Req) (s : State), s.p2Open { q with port := .p2 } = true → s.ctl.p2.length < 16 →
    ∃ t, exec (.p2Request op q) s = .next t ∧ t.ctl.p2 = s.ctl.p2 ++ [⟨q.sender, q.seq, op, q.deadline, s.now⟩] ∧ t.emitted = []) ∧
  (∀ (op : BitVec 16) (q : Req) (s : State), s.p2Open { q with port := .p2 } = true → 16 ≤ s.ctl.p2.length →
    exec (.p2Request op q) s = .next (respond op.toNat 0x0C { q with port := .p2 } [] s.fresh)) ∧
  (∀ (op : BitVec 16) (q : Req) (s : State), s.p2Open { q with port := .p2 } = false → exec (.p2Request op q) s = .next s.fresh) ∧
  (∀ (op : BitVec 16) (q : Req) (s : State), s.pwr.bootState = .firmware → s.portOn .p3 = true → s.ctl.p3.length < 16 →
    ∃ t, exec (.p3Request op q) s = .next t ∧ t.ctl.p3 = s.ctl.p3 ++ [⟨q.sender, q.seq, op, q.deadline, s.now⟩] ∧ t.emitted = []) ∧
  (∀ (op : BitVec 16) (q : Req) (s : State), s.pwr.bootState = .firmware → s.portOn .p3 = true → 16 ≤ s.ctl.p3.length →
    exec (.p3Request op q) s = .next (respond op.toNat 0x0C { q with port := .p3 } [] s.fresh)) ∧
  (∀ (op : BitVec 16) (q : Req) (s : State), s.pwr.bootState ≠ .firmware ∨ s.portOn .p3 = false →
    exec (.p3Request op q) s = .next s.fresh) ∧
  (∀ (p : Port) (chan sender : Nat) (seq : BitVec 16) (s : State) (j : Job),
    s.ctl.jobs.find? (uncommitted p chan sender seq s.now) = some j →
    ∃ v, exec (.commandDeadline p chan sender seq) s = .next (respond j.opcode 8 j.req [] v) ∧ j.req.port = p ∧ v.emitted = [] ∧
      v.ctl = { s.ctl with jobs := s.ctl.jobs.eraseP (uncommitted p chan sender seq s.now) } ∧
      v.bud = (match j.kind with | .profile _ => { s.bud with nextProfile := none } | _ => s.bud) ∧
      v.time = s.time ∧ v.eth = s.eth ∧ v.mem = s.mem ∧ v.rte = s.rte) ∧
  (∀ (p : Port) (chan sender : Nat) (seq : BitVec 16) (s : State) (w : Waiting), p = .p2 ∨ p = .p3 ∨ p = .p4 → chan < 64 →
    s.pwr.bootState = .firmware → s.ctl.jobs.find? (uncommitted p chan sender seq s.now) = none →
    (s.waiting p).find? (fun w => w.sender == sender && w.seq == seq && w.deadline.toNat ≤ 60000000 &&
      deadlineAt w.opcode.toNat w.receipt w.deadline.toNat ≤ s.now) = some w →
    exec (.commandDeadline p chan sender seq) s = .next (respond w.opcode.toNat 8 (headOf p chan sender seq) []
        (dequeue w.opcode.toNat (headOf p chan sender seq) s.fresh)) ∧
      ((dequeue w.opcode.toNat (headOf p chan sender seq) s.fresh).waiting p).length + 1 = (s.waiting p).length) ∧
  (∀ (chan sender : Nat) (seq : BitVec 16) (s : State) (op : Nat), chan < 64 → s.pwr.bootState = .firmware →
    s.ctl.jobs.find? (uncommitted .p0 chan sender seq s.now) = none → mailboxDue (s.mailbox chan) s.now = some op →
    exec (.commandDeadline .p0 chan sender seq) s = .next (respond op 8 (headOf .p0 chan sender seq) [] s.fresh)) ∧
  (∀ (p : Port) (chan sender : Nat) (seq : BitVec 16) (s : State), s.pwr.bootState ≠ .firmware ∨ 64 ≤ chan →
    s.ctl.jobs.find? (uncommitted p chan sender seq s.now) = none →
    exec (.commandDeadline p chan sender seq) s = .next s.fresh) ∧

  (∀ (op : BitVec 16) (q : Req) (s : State), Req.wf { q with port := .p1 } = true →
    maskBit (fget s.trp.rec_ TroupeRec.members) q.sender = false →
    exec (.forwardedCommand op q) s = .next { s with emitted := [], trp := { s.trp with dropped := s.trp.dropped + 1 } }) ∧
  (∀ (op : BitVec 16) (q : Req) (s t : State) (res : List Byte), maskBit (fget s.trp.rec_ TroupeRec.members) q.sender = true →
    Serves op.toNat { q with port := .p1 } s → runOpcode op.toNat { q with port := .p1 } (taken { q with port := .p1 } s) = .ok (.now t res) →
    exec (.forwardedCommand op q) s = .next (answered op.toNat 0 { q with port := .p1 } res t)) ∧
  (∀ (m : Fin 8) (seq : BitVec 16) (b : List Byte) (s : State) (j : Job), s.ctl.jobs.find? (forwardJob m.val seq.toNat) = some j →
    exec (.forwardedResponse m seq b) s = .next (respond j.opcode 0 j.req b
      (s.fresh.onCtl (fun c => { c with jobs := c.jobs.eraseP (forwardJob m.val seq.toNat) })))) ∧
  (∀ (m : Fin 8) (seq : BitVec 16) (b : List Byte) (s : State), s.ctl.jobs.find? (forwardJob m.val seq.toNat) = none →
    exec (.forwardedResponse m seq b) s = .next s.fresh)

/-- In every power state but BACKUP a code shifted in is the instruction register's. IDCODE shifts out 0xB102_4001; HALT in BOOT_HALT the 16
bytes of the halt record; SAMPLE/PRELOAD as many bytes as go in, free values all; EXTEST likewise with the fuse blown in BOOT_HALT or before
release step 2, and as BYPASS otherwise; COMMAND with the fuse loads the P4 data register of 1,024 bytes; DOORBELL with the fuse makes the P4
request wait, one at a time; BYPASS changes nothing more. Whether the fuse is blown is the implementation's. In BACKUP nothing happens. -/
def Obligations.JtagInstructions : Prop :=
  (∀ s, s.pwr.power ≠ .backup → exec .idcode s = .next { s with
    emitted := [.tdo [0x01, 0x40, 0x02, 0xB1]], ctl := { s.ctl with jtagIr := 0x01 } }) ∧
  (∀ s h, s.pwr.power ≠ .backup → s.pwr.halt = some h → ∃ t, exec .halt s = .next t ∧ t.ctl.jtagIr = 0x10 ∧
    t.emitted = [.tdo (haltRecord h s)] ∧ (haltRecord h s).length = 16 ∧
    (haltRecord h s).head? = some (match h with | .trim => (1 : Byte) | .clkMode => 2 | .strap => 3)) ∧
  (∀ s, s.pwr.power ≠ .backup → s.pwr.halt = none → ∃ t b, exec .halt s = .next t ∧ t.ctl.jtagIr = 0x10 ∧ t.emitted = [.tdo b] ∧
    b.length = 16) ∧
  (∀ s bits, s.pwr.power ≠ .backup → ∃ t b, exec (.samplePreload bits) s = .next t ∧ t.ctl.jtagIr = 0x02 ∧ t.emitted = [.tdo b] ∧
    b.length = bits.length) ∧
  (∀ s bits, s.pwr.power ≠ .backup → ∃ t, exec (.extest bits) s = .next t ∧ t.ctl.jtagIr = 0x00 ∧
    (Config.debugFuse = true → (s.pwr.halt ≠ none ∨ s.releaseStep < 2) → ∃ b, t.emitted = [.tdo b] ∧ b.length = bits.length) ∧
    ((Config.debugFuse = false ∨ (s.pwr.halt = none ∧ 2 ≤ s.releaseStep)) → t.emitted = [] ∧ t.free = s.free)) ∧
  (∀ s b, s.pwr.power ≠ .backup → ∃ t, exec (.command b) s = .next t ∧ t.ctl.jtagIr = 0x20 ∧ t.emitted = [] ∧
    (Config.debugFuse = true → s.blockHeld 56 = false → t.ctl.jtagData = b.take 1024) ∧
    (Config.debugFuse = false → t.ctl.jtagData = s.ctl.jtagData)) ∧
  (∀ s (op : BitVec 16) (q : Req), s.pwr.power ≠ .backup → ∃ t, exec (.doorbell op q) s = .next t ∧ t.ctl.jtagIr = 0x21 ∧ t.emitted = [] ∧
    (Config.debugFuse = true → s.blockHeld 56 = false → s.pwr.bootState = .firmware → s.ctl.p4 = [] →
      t.ctl.p4 = [⟨q.sender, q.seq, op, q.deadline, s.now⟩]) ∧
    (Config.debugFuse = false ∨ s.ctl.p4 ≠ [] → t.ctl.p4 = s.ctl.p4)) ∧
  (∀ s (c : BitVec 8), s.pwr.power ≠ .backup → exec (.bypass c) s = .next { s with emitted := [], ctl := { s.ctl with jtagIr := c } }) ∧
  ∀ s, s.pwr.power = .backup → exec .idcode s = .next s.fresh ∧ exec .halt s = .next s.fresh ∧
    (∀ b, exec (.samplePreload b) s = .next s.fresh ∧ exec (.extest b) s = .next s.fresh ∧ exec (.command b) s = .next s.fresh) ∧
    (∀ op q, exec (.doorbell op q) s = .next s.fresh) ∧ ∀ c, exec (.bypass c) s = .next s.fresh

/-- At a turn start every hold gains its credits, up to its credits and one slot, the slots of the new turn are free, and a best-effort access
that waits is made where the turn has slots for it; while Fast is stopped nothing turns. At the boundary of a
profile change the profile is the one set, no change is pending and a waiting PROFILE_SET is answered with it; with none pending nothing
happens. A bad budget table raises 0x61 and blocks admission until the recount, which ends that isolation; a recount with nothing blocked
changes nothing. A rebuild after a restart lets go the outputs HELD for a salvo that is neither armed nor ADMITTED, and counts them in 0x69. -/
def Obligations.SlotTurnsAndProfileChanges : Prop :=
  (∀ s, s.fastOn = true → ∃ t, exec .turnStart s = .next t ∧ t.bud.turn = s.bud.turn + 1 ∧ t.bud.profile = s.bud.profile ∧ t.rte = s.rte) ∧
  (∀ s u : State, s.fastOn = true → s.trp.outq = [] →
    u = { s with emitted := [], bud := { s.bud with
      turn := s.bud.turn + 1, taken := [], holds := s.bud.holds.map (fun h => { h with acc := min (h.credits + 16) (h.acc + h.credits) }) } } →
    (s.bud.waits = [] → exec .turnStart s = .next u) ∧
    (∀ x, s.bud.waits = [x] → u.bestRoom (u.accessTiles x) = true →
      exec .turnStart s = .next ((u.onBud (fun b => { b with waits := [] })).accessNow x)) ∧
    (∀ x l, s.bud.waits = x :: l → u.bestRoom (u.accessTiles x) = false → exec .turnStart s = .next u)) ∧
  (∀ s, s.fastOn = false → exec .turnStart s = .next s.fresh) ∧
  (∀ s p, s.bud.nextProfile = some p → ∃ t, exec .profileChange s = .next t ∧ t.bud.profile = p ∧ t.bud.nextProfile = none ∧
    (∀ j, s.ctl.jobs.find? (profileJob p) = some j → t.ctl.jobs = s.ctl.jobs.eraseP (profileJob p)) ∧
    (crosses .economy s.bud.profile p = true → t.trainedAll = false) ∧ t.bud.turn = s.bud.turn ∧ t.rte.active = s.rte.active) ∧
  (∀ s, s.bud.nextProfile = none → exec .profileChange s = .next s.fresh) ∧
  (∀ s, s.bud.blocked = false → ∃ t, exec .budgetTableError s = .next t ∧ t.bud = { s.bud with blocked := true } ∧
    (0x61, locBudget) ∈ t.flt.status ∧ (0x61, locBudget) ∈ t.flt.isolated) ∧
  (∀ s, s.bud.blocked = true → exec .budgetTableError s = .next s.fresh) ∧
  (∀ s, s.bud.blocked = true → s.pwr.bootState = .firmware → ∃ t, exec .budgetRecount s = .next t ∧ t.bud.blocked = false ∧
    t.bud.holds = s.bud.holds ∧ (0x61, locBudget) ∉ t.flt.isolated) ∧
  (∀ s, s.bud.blocked = false ∨ s.pwr.bootState ≠ .firmware → exec .budgetRecount s = .next s.fresh) ∧
  (∀ s, s.bud.rebuild = true → s.pwr.bootState = .firmware → ∃ t, exec .budgetRebuild s = .next t ∧ t.bud.rebuild = false ∧ t.bud.profile = s.bud.profile ∧
    t.rte.active = s.rte.active ∧
    (∀ n, n < 64 → s.armed n = 0 → (s.salvo n).state ≠ .admitted →
      (∀ o ∈ heldOutputs s n, fget (t.routeP o) RouteEntry.pendState = 0) ∧ (heldOutputs s n ≠ [] → (0x69, locSwitch) ∈ t.flt.status))) ∧
  (∀ s, s.bud.rebuild = false ∨ s.pwr.bootState ≠ .firmware → exec .budgetRebuild s = .next s.fresh)

/-- In STAGING a channel of a full or a reduced card that trains is trained and in service again; one that does not stays out and raises
CHANNEL_TRAIN_FAIL; a mix that no card has raises it and trains nothing. A change between the two cards empties memory. Outside STAGING
or with the firmware down nothing trains. In ACTIVE a re-centring of a trained channel adds the device's ECC corrections, counts a moved
setting, and takes the channel out of service where it fails; a quiet one changes nothing. -/
def Obligations.ChannelsTrainAndRecentre : Prop :=
  (∀ s (ch : Fin 16) (r : BitVec 16), s.pwr.power = .staging → s.pwr.bootState = .firmware → r.toNat = fullCard ∨ r.toNat = reducedCard →
    maskBit r.toNat ch.val = true → ∃ t, exec (.channelTraining ch r true) s = .next t ∧ t.pwr.reduced = decide (r.toNat = reducedCard) ∧
      (tget chanReset t.mem.chans ch.val).trained = true ∧ (tget chanReset t.mem.chans ch.val).failed = false ∧
      (t.pwr.reduced ≠ s.pwr.reduced → t.mem.tiles = []) ∧ (t.pwr.reduced = s.pwr.reduced → t.mem.tiles = s.mem.tiles) ∧
      ∀ n, n ≠ ch.val → tget chanReset t.mem.chans n = tget chanReset s.mem.chans n) ∧
  (∀ s (ch : Fin 16) (r : BitVec 16), s.pwr.power = .staging → s.pwr.bootState = .firmware → r.toNat = fullCard ∨ r.toNat = reducedCard →
    maskBit r.toNat ch.val = true → ∃ t, exec (.channelTraining ch r false) s = .next t ∧
      (tget chanReset t.mem.chans ch.val).trained = false ∧ (0x47, locChannel ch.val) ∈ t.flt.status) ∧
  (∀ s (ch : Fin 16) (r : BitVec 16) ok, s.pwr.power = .staging → s.pwr.bootState = .firmware → r.toNat ≠ fullCard → r.toNat ≠ reducedCard →
    ∃ t, exec (.channelTraining ch r ok) s = .next t ∧ (tget chanReset t.mem.chans ch.val).trained = false ∧
      (0x47, locChannel ch.val) ∈ t.flt.status ∧ t.mem.tiles = s.mem.tiles) ∧
  (∀ s (ch : Fin 16) r ok, s.pwr.power ≠ .staging ∨ s.pwr.bootState ≠ .firmware → exec (.channelTraining ch r ok) s = .next s.fresh) ∧
  (∀ s (ch : Fin 16) ok moved (ecc : BitVec 32), s.pwr.power = .active → s.pwr.bootState = .firmware →
    (tget chanReset s.mem.chans ch.val).trained = true → ∃ t, exec (.recentre ch ok moved ecc) s = .next t ∧
      (ecc = 0 → (tget chanReset t.mem.chans ch.val).chEcc = (tget chanReset s.mem.chans ch.val).chEcc) ∧
      (ecc ≠ 0 → (0x45, locChannel ch.val) ∈ t.flt.status ∧
        (tget chanReset t.mem.chans ch.val).chEcc = sat32 (tget chanReset s.mem.chans ch.val).chEcc ecc.toNat) ∧
      (ok = true → moved = false → ecc = 0 → t = s.fresh) ∧
      (moved = true → (0x46, locChannel ch.val) ∈ t.flt.status ∧
        (tget chanReset t.mem.chans ch.val).chRecentre = sat32 (tget chanReset s.mem.chans ch.val).chRecentre 1) ∧
      (moved = false → (tget chanReset t.mem.chans ch.val).chRecentre = (tget chanReset s.mem.chans ch.val).chRecentre) ∧
      (ok = false → (0x48, locChannel ch.val) ∈ t.flt.status ∧ (tget chanReset t.mem.chans ch.val).failed = true) ∧
      (ok = true → (tget chanReset t.mem.chans ch.val).failed = (tget chanReset s.mem.chans ch.val).failed) ∧
      t.mem.tiles = s.mem.tiles ∧ t.mem.rings = s.mem.rings) ∧
  (∀ s (ch : Fin 16) ok moved ecc, s.pwr.power ≠ .active ∨ (tget chanReset s.mem.chans ch.val).trained = false →
    exec (.recentre ch ok moved ecc) s = .next s.fresh)

/-- Where a ring's writer has credit for a slot on the channel of its closed tile that waits longest, and no other ring's tile of its class goes
first there, a commit stores its 4,096 bytes in the ring's tile of its ESEQ and its
CRC and tag in that tile's check record, and nowhere else: every other byte of the Tile Store is as before. WSEQ moves past the tile and any
positions it skips, the ring is RUNNING, the END tile makes the open unit's marker COMPLETE; where nothing exports the ring, one slot's credit is spent. Without credit,
where another ring's tile goes first, or with no tile waiting in a ring no Composer writes, nothing happens. -/
def Obligations.TileCommitStoresTheTileAndItsCheckRecord : Prop :=
  (∀ s (r : Fin 8192) x rest, (s.wr r.val).staged = x :: rest → s.hasCredit (.write r.val) (s.channelAt r.val x.eseq) = true →
    s.winsSlot r.val x = true →
    ringTile (s.ring r.val) x.eseq < ringSpace s.pwr.reduced →
    ∃ t, exec (.tileCommit r) s = .next t ∧ (t.wr r.val).staged = rest ∧
      t.bytesAt (4096 * ringTile (s.ring r.val) x.eseq) 4096 = fitBytes 4096 x.bytes ∧
      t.bytesAt (checkBase s.pwr.reduced + 8 * ringTile (s.ring r.val) x.eseq) 8 =
        checkRecord r.val (fitBytes 4096 x.bytes) x.eseq x.pos x.fin x.poison ∧
      (∀ a, (a < 4096 * ringTile (s.ring r.val) x.eseq ∨ 4096 * ringTile (s.ring r.val) x.eseq + 4096 ≤ a) →
        (a < checkBase s.pwr.reduced + 8 * ringTile (s.ring r.val) x.eseq ∨
          checkBase s.pwr.reduced + 8 * ringTile (s.ring r.val) x.eseq + 8 ≤ a) → t.byteAt a = s.byteAt a) ∧
      fget (t.ring r.val) RingDesc.wseq = ((x.eseq + 1).toNat + x.skip) % 2 ^ 32 ∧ fget (t.ring r.val) RingDesc.stateF = 2 ∧
      (∀ n, n ≠ r.val → t.ring n = s.ring n) ∧
      (∀ k, x.fin = true → s.markerAt r.val x.eseq = some k → k.state = .writing →
        { k with state := .complete, tiles := x.eseq + 1 - k.eseq } ∈ t.markersOf r.val) ∧
      (s.exportsOf r.val = [] → t.bud = (s.spend (.write r.val) (s.channelAt r.val x.eseq)).bud) ∧ t.rte = s.rte ∧ t.sdi = s.sdi ∧ t.pwr = s.pwr) ∧
  (∀ s (r : Fin 8192), (∀ ch, s.hasCredit (.write r.val) ch = false) → exec (.tileCommit r) s = .next s.fresh) ∧
  (∀ s (r : Fin 8192) x rest, (s.wr r.val).staged = x :: rest → s.winsSlot r.val x = false → exec (.tileCommit r) s = .next s.fresh) ∧
  (∀ s (r : Fin 8192), (s.wr r.val).staged = [] → s.compOfRing r.val = none → exec (.tileCommit r) s = .next s.fresh)

/-- A Calliope tap, or a Merge Unit's leg, that reads a tile in a slot it has credit for spends that credit and verifies the tile's record: a
good one changes no counter; a wrong tag raises TILE_TAG_FAIL and a wrong CRC TILE_CRC_FAIL, each counted on its ring; a poisoned or absent
one counts INCOMPLETE. A tap without credit, or with Calliope stopped, and an output with no format read nothing. No tap's and no leg's read
stores a byte of the Tile Store; an uncorrectable check-cache block loses its 8 tiles. -/
def Obligations.TileReadsJudgeEveryTile : Prop :=
  (∀ s (i : Fin 1024) (k : Fin 4) (e : BitVec 32) r, s.cal.run = true → s.blockHeld 48 = false →
    fbit (tget audInReset s.cal.audIn i.val) AudIn.inEn = true → r = fget (tget audInReset s.cal.audIn i.val) AudIn.inRing →
    s.hasCredit (.calRead i.val k.val) (s.channelAt r e) = true →
    ∃ t, exec (.tileRead (.tap i k) e .none) s = .next t ∧ t.bud = (s.spend (.calRead i.val k.val) (s.channelAt r e)).bud ∧ (∀ a, t.byteAt a = s.byteAt a) ∧
      (∀ b, s.verify r e (some (true, 3071)) = .good b → t.mem = s.mem ∧ t.flt = s.flt) ∧
      (s.verify r e (some (true, 3071)) = .tagFail → (0x41, locCal 3) ∈ t.flt.status) ∧
      (s.verify r e (some (true, 3071)) = .crcFail → (0x40, locCal 3) ∈ t.flt.status) ∧
      (s.verify r e (some (true, 3071)) = .tagFail ∨ s.verify r e (some (true, 3071)) = .crcFail ∨ s.verify r e (some (true, 3071)) = .cacheLost →
        (tget ctrReset t.mem.ctr r).checkFail = sat32 (tget ctrReset s.mem.ctr r).checkFail 1) ∧
      (s.verify r e (some (true, 3071)) = .incomplete →
        (tget ctrReset t.mem.ctr r).incomplete = sat32 (tget ctrReset s.mem.ctr r).incomplete 1 ∧ t.flt = s.flt)) ∧
  (∀ s (i : Fin 1024) (k : Fin 4) (e : BitVec 32) c, s.cal.run = false ∨
      s.hasCredit (.calRead i.val k.val) (s.channelAt (fget (tget audInReset s.cal.audIn i.val) AudIn.inRing) e) = false →
    exec (.tileRead (.tap i k) e c) s = .next s.fresh) ∧
  (∀ s (i : Fin 1024) (k : Fin 4) (e : BitVec 32), s.cal.run = true → s.blockHeld 48 = false →
    fbit (tget audInReset s.cal.audIn i.val) AudIn.inEn = true →
    s.hasCredit (.calRead i.val k.val) (s.channelAt (fget (tget audInReset s.cal.audIn i.val) AudIn.inRing) e) = true →
    ∃ t, exec (.tileRead (.tap i k) e .uncorrectable) s = .next t ∧
      ∀ n, n < 8 → ringTile (s.ring (fget (tget audInReset s.cal.audIn i.val) AudIn.inRing)) e / 8 * 8 + n ∈ t.mem.lostTiles) ∧
  (∀ s (m : Fin 1024) sec (e : BitVec 32) r, fbit (s.mergeRec m.val) Merge.mergeEn = true → s.blockHeld 52 = false →
    r = fget (s.mergeRec m.val) (if sec then Merge.secondaryRing else Merge.primaryRing) →
    s.hasCredit (.merge m.val (bit sec)) (s.channelAt r e) = true →
    ∃ t, exec (.tileRead (.leg m sec) e .none) s = .next t ∧ t.bud = (s.spend (.merge m.val (bit sec)) (s.channelAt r e)).bud) ∧
  (∀ s (o : Fin 2048) (e : BitVec 32) c, s.outFmt o.val = none → exec (.tileRead (.video o) e c) s = .next s.fresh ∧
    exec (.tileRead (.anc o) e c) s = .next s.fresh) ∧
  ∀ s t (i : Fin 1024) (k : Fin 4) (m : Fin 1024) sec (e : BitVec 32) c a,
    (exec (.tileRead (.tap i k) e c) s = .next t → t.byteAt a = s.byteAt a) ∧
    (exec (.tileRead (.leg m sec) e c) s = .next t → t.byteAt a = s.byteAt a)

/-- At its latch an output whose timing plane runs takes over a READY entry, and a HELD one whose take time has come: it is latched, its PENDING
copy is free again and its claims are promoted; any other entry stays PENDING; its timecode line is taken over at every latch. The latched
entry becomes ACTIVE at the switching point, with the next GEN; its video starts at the frame chosen at the latch, and where its source has
another format the frame before is held and repeated. At the choice of a frame a frame-synchronous output takes its source's newest, repeats
the old one where none is newer and counts those it passes over, a ring of another route counting neither; on another format it holds its
frame and raises ROUTE_FORMAT_MISMATCH. The old claims go when the crossing ends, the video's once nothing of it is repeated; an audio ramp
latches with its own point. Without format, plane or latched entry none of this happens. A bad entry raises ROUTE_PARITY and the output feeds
itself. -/
def Obligations.RouteEventsTakeEffect : Prop :=
  (∀ s (o : Fin 2048) f, s.outFmt o.val = some f → s.planeOn f.plane = true →
    s.applies (s.routeP o.val) (s.stampOf f.plane (f.nextSwitch (s.planeTu f.plane +
      leadTu s.bud.profile (s.entryHops (s.routeP o.val)) f.fmt.rate f.total - f.line))) = true →
    ∃ t, exec (.latch o) s = .next t ∧ (t.out o.val).latched = some (s.routeP o.val) ∧ (t.out o.val).audLatched = none ∧
      t.routeP o.val = fput (fput (s.routeP o.val) RouteEntry.pendState 0) RouteEntry.salvoId 0 ∧ t.rte.active = s.rte.active ∧
      t.bud = { s.bud with holds := s.bud.holds.map (promote o.val) } ∧ (∀ n, n ≠ o.val → t.out n = s.out n ∧ t.routeP n = s.routeP n)) ∧
  (∀ s (o : Fin 2048) f, s.outFmt o.val = some f → s.planeOn f.plane = true → fget (s.routeP o.val) RouteEntry.pendState ≠ 2 →
    (fget (s.routeP o.val) RouteEntry.pendState ≠ pendHeld ∨ s.armed (fget (s.routeP o.val) RouteEntry.salvoId) = 0) →
    ∃ t, exec (.latch o) s = .next t ∧ t.rte.active = s.rte.active ∧ t.rte.pending = s.rte.pending ∧ t.bud = s.bud ∧
      (t.out o.val).latched = (s.out o.val).latched) ∧
  (∀ s (o : Fin 2048), (s.outFmt o.val = none ∨ ∃ f, s.outFmt o.val = some f ∧ s.planeOn f.plane = false) →
    exec (.latch o) s = .next (s.fresh.latchTcLine o.val) ∧ exec (.audioLatch o) s = .next s.fresh) ∧
  (∀ (s : State) (o : Nat), (s.latchTcLine o).out o = { s.out o with tcLatch := s.tcLineOf o } ∧
    ∀ n, n ≠ o → (s.latchTcLine o).out n = s.out n) ∧
  (∀ s (o : Fin 2048) f p, (s.out o.val).latched = some p → s.outFmt o.val = some f → ∃ t, exec (.switchPoint o) s = .next t ∧
    t.routeA o.val = fput (fput (fput (fput p RouteEntry.pendState 0) RouteEntry.salvoId 0) RouteEntry.gen
      (fget (s.routeA o.val) RouteEntry.gen + 1)) RouteEntry.appliedFrame (s.out o.val).frames ∧
    (t.out o.val).latched = none ∧ (t.out o.val).chosen = none ∧ (t.out o.val).parity = false ∧
    (fbit p RouteEntry.videoEn = false → (t.out o.val).lastFrame = none ∧ (t.out o.val).repeating = false) ∧
    (fbit p RouteEntry.videoEn = true → (s.out o.val).latchBad = true →
      (t.out o.val).lastFrame = (s.out o.val).lastFrame ∧ (t.out o.val).repeating = true) ∧
    (fbit p RouteEntry.videoEn = true → (s.out o.val).latchBad = false → entryMode p ≠ 0 →
      (t.out o.val).lastFrame = (s.out o.val).fresh ∧ (t.out o.val).repeating = false) ∧
    (∀ n, n ≠ o.val → t.routeA n = s.routeA n ∧ t.out n = s.out n) ∧ t.rte.pending = s.rte.pending) ∧
  (∀ s (o : Fin 2048), (s.out o.val).latched = none ∨ s.outFmt o.val = none → exec (.switchPoint o) s = .next s.fresh) ∧
  (∀ s (o : Fin 2048) f m r, s.outFmt o.val = some f → fbit (s.routeA o.val) RouteEntry.videoEn = true → entryMode (s.routeA o.val) ≠ 0 →
    s.formatMatches (s.routeA o.val) f = true → s.isIsolated 0x66 (s.locOut o.val) = false →
    r = fget (s.routeA o.val) RouteEntry.videoRing → s.choice (s.routeA o.val) = some m →
    ∃ t, exec (.frameSelect o) s = .next t ∧ (t.out o.val).chosen = some m.eseq ∧
      ((s.out o.val).lastFrame = none ∨ entryMode (s.routeA o.val) = 2 ∨ s.readsRing o.val r = false →
        (t.out o.val).repeats = (s.out o.val).repeats ∧ (t.out o.val).skips = (s.out o.val).skips) ∧
      (entryMode (s.routeA o.val) ≠ 2 → s.readsRing o.val r = true → (s.out o.val).lastFrame = some m.eseq →
        (t.out o.val).repeats = sat32 (s.out o.val).repeats 1 ∧ (t.out o.val).skips = (s.out o.val).skips) ∧
      (∀ e, entryMode (s.routeA o.val) ≠ 2 → s.readsRing o.val r = true → (s.out o.val).lastFrame = some e → e ≠ m.eseq →
        (t.out o.val).repeats = (s.out o.val).repeats ∧
        (t.out o.val).skips = sat32 (s.out o.val).skips ((s.markersOf r).filter (fun x =>
          x.state == .complete && x.eseq != m.eseq && (x.eseq - e).toNat < 2 ^ 31 && x.eseq != e)).length) ∧
      (∀ n, n ≠ o.val → t.out n = s.out n) ∧ t.flt = s.flt) ∧
  (∀ s (o : Fin 2048) f, s.outFmt o.val = some f → fbit (s.routeA o.val) RouteEntry.videoEn = true → entryMode (s.routeA o.val) ≠ 0 →
    s.formatMatches (s.routeA o.val) f = false → (s.out o.val).mismatch = false →
    ∃ t, exec (.frameSelect o) s = .next t ∧ (0x66, s.locOut o.val) ∈ t.flt.status ∧ (t.out o.val).chosen = none ∧
      (t.out o.val).choiceBad = true ∧ (t.out o.val).lastFrame = (s.out o.val).lastFrame) ∧
  (∀ s (o : Fin 2048), s.outFmt o.val = none ∨ fbit (s.routeA o.val) RouteEntry.videoEn = false ∨ entryMode (s.routeA o.val) = 0 →
    exec (.frameSelect o) s = .next s.fresh) ∧
  (∀ s (o : Fin 2048) audio, ∃ t, exec (.claimRelease o audio) s = .next t ∧
    ∀ h, h ∈ t.bud.holds ↔ h ∈ s.bud.holds ∧ ¬ ∃ part, h.by_ = .routeOld o.val part ∧
      (audio = true → 2 ≤ part) ∧ (audio = false → part < 2 ∧ (part = 0 → (s.out o.val).repeating = false))) ∧
  (∀ s (o : Fin 2048) f, s.outFmt o.val = some f → s.planeOn f.plane = true → fget (s.routeP o.val) RouteEntry.audioMode ≠ 0 →
    fget (s.routeP o.val) RouteEntry.audioRamp ≠ 0 →
    s.applies (s.routeP o.val) (s.stampOf f.plane (f.nextSwitch (s.planeTu f.plane))) = true →
    (s.out o.val).audLatched ≠ some (s.routeP o.val) →
    ∃ t, exec (.audioLatch o) s = .next t ∧ (t.out o.val).audLatched = some (s.routeP o.val) ∧ t.rte.active = s.rte.active ∧
      t.rte.pending = s.rte.pending) ∧
  (∀ s (o : Fin 2048), ∃ t, exec (.routeTableParity o) s = .next t ∧ (0x68, s.locOut o.val) ∈ t.flt.status ∧ (t.out o.val).parity = true ∧
    t.selfFed o.val = true ∧ t.rte.active = s.rte.active)

/-- At a frame's start the digest of the frame before is closed and the frame number is that of the timing plane; the output runs where its
lane may transmit or a packet flow carries it in ACTIVE, its lanes take it, self-fed where no ring feeds it, and the frame that ends leaves on
the lanes it began on. An output with no
format stops. A member's acknowledgement is kept, and with that of the last other member the waiting take is answered; at the deadline it
is answered E_TAKE_SPLIT with the members that acknowledged and those that did not, and SALVO_SPLIT is raised. With no take waiting
nothing changes. -/
def Obligations.FramesStartAndTakesAreAcknowledged : Prop :=
  (∀ s (o : Fin 2048), s.outFmt o.val = none → ∃ t, exec (.outputFrameStart o) s = .next t ∧ (t.out o.val).running = false ∧
    t.rte.active = s.rte.active) ∧
  (∀ s (o : Fin 2048) f, s.outFmt o.val = some f → ∃ t, exec (.outputFrameStart o) s = .next t ∧
    (t.out o.val).frames = ((s.planeTu f.plane - (f.phase : Int)).fdiv f.frame % (2 : Int) ^ 64).toNat ∧
    (t.out o.val).running = (!(s.txWanted o.val).isEmpty || (!(s.outFlows o.val).isEmpty && s.emitsNow && s.planeOn f.plane)) ∧
    (t.out o.val).gen = s.selfFed o.val ∧ (t.out o.val).digest = [] ∧
    (t.out o.val).lastDigest = crc32c ((s.out o.val).digest ++ leBytes 4 (fget (s.routeA o.val) RouteEntry.gen)) ∧
    (∀ l ∈ s.txWanted o.val, (tget laneReset t.sdi.lanes l).txOut = some o.val) ∧
    ((t.out o.val).running = true → Emit.frame o.val (s.selfFed o.val) ∈ t.emitted) ∧
    ((s.out o.val).running = true → (s.out o.val).tx.lanes ≠ [] → Emit.serial o.val (s.out o.val).tx ∈ t.emitted) ∧
    t.rte.active = s.rte.active ∧ t.rte.pending = s.rte.pending ∧ (∀ n, n ≠ o.val → t.out n = s.out n) ∧ t.mem = s.mem) ∧
  (∀ s (n : Fin 64) (m : Fin 8), s.ctl.jobs.any (takeJob n.val) = true → maskBit (s.salvo n.val).acks m.val = false →
    (otherMembers s (s.salvo n.val)).all (maskBit ((s.salvo n.val).acks + 2 ^ m.val)) = false →
    exec (.takeAck n m) s = .next ((s.fresh).setSalvo n.val { s.salvo n.val with acks := (s.salvo n.val).acks + 2 ^ m.val })) ∧
  (∀ s (n : Fin 64) (m : Fin 8) j, s.ctl.jobs.find? (takeJob n.val) = some j → maskBit (s.salvo n.val).acks m.val = false →
    (otherMembers s (s.salvo n.val)).all (maskBit ((s.salvo n.val).acks + 2 ^ m.val)) = true →
    exec (.takeAck n m) s = .next (respond j.opcode 0 j.req j.result (((s.fresh).setSalvo n.val
      { s.salvo n.val with acks := (s.salvo n.val).acks + 2 ^ m.val }).onCtl (fun c => { c with jobs := c.jobs.eraseP (takeJob n.val) })))) ∧
  (∀ s (n : Fin 64) (m : Fin 8), s.ctl.jobs.any (takeJob n.val) = false ∨ maskBit (s.salvo n.val).acks m.val = true →
    exec (.takeAck n m) s = .next s.fresh) ∧
  (∀ s (n : Fin 64) j b, s.ctl.jobs.find? (takeJob n.val) = some j →
    b = leBytes 1 (listMask ((maskList 8 (salvoMembers (s.salvo n.val))).filter (maskBit (s.salvo n.val).acks))) ++
      leBytes 1 (listMask ((maskList 8 (salvoMembers (s.salvo n.val))).filter (fun m => !maskBit (s.salvo n.val).acks m))) →
    ∃ t, exec (.takeAckDeadline n) s = .next t ∧ (0x64, locSwitch) ∈ t.flt.status ∧
      t = (respond j.opcode eTakeSplit j.req b (s.fresh.onCtl (fun c => { c with jobs := c.jobs.eraseP (takeJob n.val) }))).raise
        ⟨0x64, locSwitch, true, 0, b⟩) ∧
  (∀ s (n : Fin 64), s.ctl.jobs.any (takeJob n.val) = false → exec (.takeAckDeadline n) s = .next s.fresh)

/-- An enabled receiver with no signal searches from the top of its order when its signal appears, and reports NO_SIGNAL when it goes. An
attempt that ends unlocked, or no TRS after CDR lock, goes to the next rate; CDR lock and a TRS give CDR_LOCKED. Two agreeing frames of a
format that may be received give FORMAT_LOCKED with SDI_FORMAT_LOCKED. A locked line follows the flywheel and its checks raise SDI_TRS_ERROR
and SDI_CRC_ERROR; loss of lock returns to SEARCHING, counts LOCK_LOSS and raises SDI_SIGNAL_LOST, as a third bad TRS does. A timeout
restarts the search with SDI_LOCK_TIMEOUT; a lost audio group is raised once; a driver fault takes its lane from its output, which is quiet
when its last lane has gone. A bonded group that is locked loses lock as a whole, and a link's frame without an identifier raises
SDI_BOND_ERROR and leaves the group without lock; where a clause asks for an unbonded lane it says so. -/
def Obligations.SdiReceiversSearchLockAndLose : Prop :=
  (∀ s (l : Fin 144), s.rxOn l.val = true → (s.lane l.val).lock = .noSignal → ∃ t, exec (.signalPresence l) s = .next t ∧
    (t.lane l.val).present = true ∧ (t.lane l.val).lock = .searching ∧ (t.lane l.val).attempt = 0 ∧
    ∀ n, n ≠ l.val → t.lane n = s.lane n) ∧
  (∀ s (l : Fin 144), (s.rxOn l.val = false ∨ (s.lane l.val).lock ≠ .noSignal) → exec (.signalPresence l) s =
    .next ((s.fresh).setLane l.val { s.lane l.val with present := true })) ∧
  (∀ s (l : Fin 144), s.rxBond l.val = 0 → ∃ t, exec (.signalAbsence l) s = .next t ∧ (t.lane l.val).present = false ∧
    (t.lane l.val).lock = .noSignal ∧ ((s.lane l.val).lock = .cdrLocked ∨ (s.lane l.val).lock = .formatLocked →
      (0x81, locSdiRx l.val) ∈ t.flt.status) ∧ (∀ n, n ≠ l.val → t.lane n = s.lane n)) ∧
  (∀ s (l : Fin 144), (s.lane l.val).lock = .searching → (s.lane l.val).cdr = false → ∃ t, exec (.rateAttempt l) s = .next t ∧
    (t.lane l.val).lock = .searching ∧
    (t.lane l.val).attempt = ((s.lane l.val).attempt + 1) % (s.searchOrder l.val).length) ∧
  (∀ s (l : Fin 144), (s.lane l.val).lock ≠ .searching → exec (.rateAttempt l) s = .next s.fresh ∧ exec (.cdrLock l) s = .next s.fresh ∧
    exec (.trsAlignment l) s = .next s.fresh ∧ exec (.trsSearchTimeout l) s = .next s.fresh) ∧
  (∀ s (l : Fin 144), (s.lane l.val).lock = .searching → exec (.cdrLock l) s =
    .next ((s.fresh).setLane l.val { s.lane l.val with cdr := true })) ∧
  (∀ s (l : Fin 144), (s.lane l.val).lock = .searching → (s.lane l.val).cdr = true → ∃ t, exec (.trsAlignment l) s = .next t ∧
    (t.lane l.val).lock = .cdrLocked ∧ (t.lane l.val).cand = none ∧ ∀ n, n ≠ l.val → t.lane n = s.lane n) ∧
  (∀ s (l : Fin 144), (s.lane l.val).lock = .searching → (s.lane l.val).cdr = true → ∃ t, exec (.trsSearchTimeout l) s = .next t ∧
    (t.lane l.val).lock = .searching ∧ (t.lane l.val).cdr = false ∧
    (t.lane l.val).attempt = ((s.lane l.val).attempt + 1) % (s.searchOrder l.val).length) ∧
  (∀ s (l : Fin 144), s.rxBond l.val = 0 → (s.lane l.val).lock = .cdrLocked ∨ (s.lane l.val).lock = .formatLocked →
    ∃ t, exec (.cdrLockLoss l) s = .next t ∧ (t.lane l.val).lock = .searching ∧ (t.lane l.val).st352 = 0 ∧
      (0x81, locSdiRx l.val) ∈ t.flt.status ∧
      ((s.lane l.val).lock = .formatLocked → (tget ctr12 t.sdi.ctr l.val) =
        (tget ctr12 s.sdi.ctr l.val).set 9 (sat32 ((tget ctr12 s.sdi.ctr l.val).getD 9 0) 1)) ∧
      ((s.lane l.val).lock = .cdrLocked → t.sdi.ctr = s.sdi.ctr)) ∧
  (∀ s (l : Fin 144), (s.lane l.val).lock = .searching → exec (.cdrLockLoss l) s =
    .next ((s.fresh).setLane l.val { s.lane l.val with cdr := false })) ∧
  (∀ s (l : Fin 144), (s.lane l.val).lock = .noSignal → exec (.cdrLockLoss l) s = .next s.fresh) ∧
  (∀ s (l : Fin 144) (i : LineInfo), (s.lane l.val).lock = .noSignal ∨ (s.lane l.val).lock = .searching →
    exec (.sdiLine l i) s = .next s.fresh) ∧
  (∀ s (l : Fin 144) (i : LineInfo), (s.lane l.val).lock = .cdrLocked → i.number = 1 → i.trs = true →
    exec (.sdiLine l i) s = .next ((s.fresh).setLane l.val { s.lane l.val with line1Time := s.now })) ∧
  (∀ s (l : Fin 144) (i : LineInfo), s.rxBond l.val = 0 → (s.lane l.val).lock = .formatLocked → i.trs = true →
    ∃ t, exec (.sdiLine l i) s = .next t ∧ (t.lane l.val).lock = .formatLocked ∧ (t.lane l.val).badTrs = 0 ∧
      (t.lane l.val).line = (s.lane l.val).line % max 1 (match (s.lane l.val).fmt with | some f => totalLines f.lines | none => 1) + 1 ∧
      (t.lane l.val).field2 = i.field2 ∧ (∀ tc, i.timecode = some tc → (t.lane l.val).timecode = tc) ∧
      ((s.lane l.val).linkType ≠ 0 → i.crcOk = false → (0x87, locSdiRx l.val) ∈ t.flt.status)) ∧
  (∀ s (l : Fin 144) (i : LineInfo), s.rxBond l.val = 0 → (s.lane l.val).lock = .formatLocked → i.trs = false → 2 ≤ (s.lane l.val).badTrs →
    ∃ t, exec (.sdiLine l i) s = .next t ∧ (t.lane l.val).lock = .searching ∧ (0x86, locSdiRx l.val) ∈ t.flt.status ∧
      (0x81, locSdiRx l.val) ∈ t.flt.status) ∧
  (∀ s (l : Fin 144) (i : FrameInfo), s.rxBond l.val = 0 → (s.lane l.val).lock = .noSignal ∨ (s.lane l.val).lock = .searching →
    exec (.sdiFrame l i) s = .next s.fresh) ∧
  (∀ s (l : Fin 144) (i : FrameInfo) f c, s.rxBond l.val = 0 → (s.lane l.val).lock = .cdrLocked → s.rxJudge (.lane l.val) i = (f, true, c) →
    (s.lane l.val).cand = none → ∃ t, exec (.sdiFrame l i) s = .next t ∧ (t.lane l.val).lock = .cdrLocked ∧
      (t.lane l.val).cand = some f ∧ (t.lane l.val).candLink = i.link) ∧
  (∀ s (l : Fin 144) (i : FrameInfo) f c g, s.rxBond l.val = 0 → (s.lane l.val).lock = .cdrLocked →
    s.rxJudge (.lane l.val) i = (f, true, c) → (s.lane l.val).cand = some g → sameFormat f g = true → (s.lane l.val).candLink = i.link →
    ∃ t, exec (.sdiFrame l i) s = .next t ∧ (t.lane l.val).lock = .formatLocked ∧ (t.lane l.val).fmt = some f ∧
      (0x80, locSdiRx l.val) ∈ t.flt.status ∧ (c = true → (0x88, locSdiRx l.val) ∈ t.flt.status)) ∧
  (∀ s (l : Fin 144), s.rxBond l.val = 0 → ((s.lane l.val).lock = .searching ∨ ((s.lane l.val).lock = .cdrLocked ∧ (s.lane l.val).unsup = false)) →
    ∃ t, exec (.lockTimeout (.lane l)) s = .next t ∧ (t.lane l.val).lock = .searching ∧ (t.lane l.val).attempt = 0 ∧
      (0x82, locSdiRx l.val) ∈ t.flt.status) ∧
  (∀ s (l : Fin 144), (s.lane l.val).lock = .noSignal ∨ (s.lane l.val).lock = .formatLocked → exec (.lockTimeout (.lane l)) s = .next s.fresh) ∧
  (∀ s (l : Fin 144) (g : Fin 8) r, s.rxBond l.val = 0 → s.rxWrites (.lane l.val) = true → s.audRingOf (.lane l.val) (g.val / 4) = some r →
    (s.lane l.val).lost.contains g.val = false → ∃ t, exec (.audioGroupAbsence (.lane l) g) s = .next t ∧ (0x8A, locSdiRx l.val) ∈ t.flt.status) ∧
  (∀ s (l : Fin 144) (g : Fin 8), s.rxBond l.val = 0 → (s.rxWrites (.lane l.val) = false ∨ s.audRingOf (.lane l.val) (g.val / 4) = none ∨
    (s.lane l.val).lost.contains g.val = true) → exec (.audioGroupAbsence (.lane l) g) s = .next s.fresh) ∧
  (∀ s (l : Fin 144), s.rxBond l.val ≠ 0 → (s.lane (leaderOf l.val)).lock = .formatLocked →
    (s.lane l.val).lock = .cdrLocked ∨ (s.lane l.val).lock = .formatLocked → ∃ t, exec (.cdrLockLoss l) s = .next t ∧
      (t.lane l.val).lock = .searching ∧ ∀ k, leaderOf k = leaderOf l.val → k ≠ l.val →
        (t.lane k).lock = if (s.lane k).present then .searching else .noSignal) ∧
  (∀ s (l : Fin 144) (i : FrameInfo), s.rxBond l.val ≠ 0 → (s.lane l.val).lock = .cdrLocked ∨ (s.lane l.val).lock = .formatLocked →
    i.pid = none → (s.lane (leaderOf l.val)).bondBad = false → ∃ t, exec (.sdiFrame l i) s = .next t ∧
      (0x8C, locSdiRx (leaderOf l.val)) ∈ t.flt.status ∧ (t.lane (leaderOf l.val)).bondBad = true ∧
      (t.lane (leaderOf l.val)).lock ≠ .formatLocked) ∧
  (∀ s (l : Fin 144), s.txOn l.val = true → ∃ t, exec (.sdiTxFault l) s = .next t ∧
    (0x8D, locSdiTx l.val) ∈ t.flt.status ∧ (t.lane l.val).txFault = true ∧ (t.lane l.val).txOut = none ∧
    (∀ o, (s.lane l.val).txOut = some o → (∀ e ∈ t.sdi.lanes, e.2.txOut ≠ some o) → Emit.quiet o ∈ t.emitted) ∧
    (∀ n, n ≠ l.val → t.lane n = s.lane n) ∧ t.rte.active = s.rte.active ∧ t.rte.pending = s.rte.pending) ∧
  (∀ s (l : Fin 144), s.txOn l.val = false → exec (.sdiTxFault l) s = .next s.fresh)

/-- A sub-port that trains comes up with ETH_LINK_UP; one that loses its link trains again with ETH_LINK_DOWN and flushed management queues. A
received frame is counted by what it is: undersized, oversized, bad FCS, or good with its bytes, a good frame of no IP datagram that is not
management counted unmatched; more than 100 uncorrectable codewords within a millisecond take the sub-port back to training. PAUSE with
PFC_MODE 0 and PFC with PFC_MODE 1 hold the management class for their quanta and are counted; holds end, a hold that has lasted PAUSE_WD
is broken with ETH_PAUSE_WATCHDOG and its class ignores pauses for as long again. The oldest management frame leaves, tagged, padded and
counted, unless held: reports and PTP messages before what waits in band. A sub-port that is not UP does none of this. -/
def Obligations.EthernetPortsReceiveAndPause : Prop :=
  let ctr (s : State) (p : Fin 32) (k : Nat) : BitVec 64 := tget zero64 s.eth.ctr (96 * (p.val / 8) + 12 * (p.val % 8) + k)
  let wd (s : State) (p : Fin 32) : Nat := fget (s.ethPort (p.val / 8)) EthPort.pauseWd * 1000
  let due (s : State) (p : Fin 32) (h : Hold802) : Prop :=
    ∃ u, h.until_ = some u ∧ wd s p ≤ (u - h.since).toNat ∧ wd s p ≤ (s.time.clk - h.since).toNat
  let recent (s : State) (p : Fin 32) (f : EthFrame) : Nat :=
    (((s.sub p.val).fecBad.filter (fun x => (s.time.clk - x.1).toNat < 1000000)).map (·.2)).sum + (f.fec.map (·.2)).sum
  (∀ s (p : Fin 32), (s.sub p.val).link = .training → s.subLanes p.val ≠ 0 → ∃ t, exec (.subportTrained p) s = .next t ∧
    (t.sub p.val).link = .up ∧ (0xA0, s.locSub p.val) ∈ t.flt.status ∧ ∀ n, n ≠ p.val → t.sub n = s.sub n) ∧
  (∀ s (p : Fin 32), (s.sub p.val).link ≠ .training ∨ s.subLanes p.val = 0 → exec (.subportTrained p) s = .next s.fresh) ∧
  (∀ s (p : Fin 32) fec, s.subUp p.val = true → ∃ t, exec (.subportLinkLoss p fec) s = .next t ∧ (t.sub p.val).link = .training ∧
    (t.sub p.val).rxq = [] ∧ (t.sub p.val).txq = [] ∧ (0xA1, s.locSub p.val) ∈ t.flt.status ∧ ∀ n, n ≠ p.val → t.sub n = s.sub n) ∧
  (∀ s (p : Fin 32) (f : EthFrame), s.subUp p.val = true → s.blockHeld (ethBlock (p.val / 8)) = false →
    ∃ t, exec (.frameReceived p f) s = .next t ∧
      (f.bytes.length < 64 → ctr t p 3 = ctr s p 3 + 1 ∧ ctr t p 0 = ctr s p 0 ∧ (recent s p f ≤ 100 → t.flo = s.flo ∧ t.mem = s.mem)) ∧
      (64 ≤ f.bytes.length → fget (s.ethPort (p.val / 8)) EthPort.maxFrame < f.bytes.length → ctr t p 4 = ctr s p 4 + 1 ∧
        ctr t p 0 = ctr s p 0 ∧ (recent s p f ≤ 100 → t.flo = s.flo ∧ t.mem = s.mem)) ∧
      (64 ≤ f.bytes.length → f.bytes.length ≤ fget (s.ethPort (p.val / 8)) EthPort.maxFrame → f.fcsOk = false ∨ f.fecBad = true →
        ctr t p 2 = ctr s p 2 + 1 ∧ ctr t p 0 = ctr s p 0 ∧ (recent s p f ≤ 100 → t.flo = s.flo ∧ t.mem = s.mem)) ∧
      (64 ≤ f.bytes.length → f.bytes.length ≤ fget (s.ethPort (p.val / 8)) EthPort.maxFrame → f.fcsOk = true → f.fecBad = false →
        ctr t p 0 = ctr s p 0 + 1 ∧ ctr t p 1 = ctr s p 1 + BitVec.ofNat 64 f.bytes.length ∧
        ((s.mgmtKind p.val (parseEth f.bytes)).1 = false → parseIp (parseEth f.bytes) = none → ctr t p 6 = ctr s p 6 + 1 ∧
          (recent s p f ≤ 100 → t.flo = s.flo ∧ t.mem = s.mem))) ∧
      (recent s p f ≤ 100 → (t.sub p.val).link = .up) ∧
      (100 < recent s p f → (t.sub p.val).link = .training ∧ (0xA1, s.locSub p.val) ∈ t.flt.status) ∧
      (f.fecBad = true → (0xA2, locEth (p.val / 8) 9) ∈ t.flt.status)) ∧
  (∀ s (p : Fin 32) q, s.subUp p.val = true → ∃ t, exec (.pauseFrame p q) s = .next t ∧ ctr t p 10 = ctr s p 10 + 1 ∧
    (fbit (s.ethPort (p.val / 8)) EthPort.pfcMode = false →
      (t.sub p.val).mgmtHold = (s.sub p.val).mgmtHold.pause (s.quantaNs p.val q.toNat) s.time.clk) ∧
    (fbit (s.ethPort (p.val / 8)) EthPort.pfcMode = true → t.eth.sub = s.eth.sub) ∧
    (fbit (s.ethPort (p.val / 8)) EthPort.pauseMedia = false → (t.sub p.val).mediaHold = (s.sub p.val).mediaHold)) ∧
  (∀ s (p : Fin 32) (en : BitVec 8) (q : List (BitVec 16)), s.subUp p.val = true → ∃ t, exec (.pfcFrame p en q) s = .next t ∧
    ctr t p 10 = ctr s p 10 + 1 ∧
    (fbit (s.ethPort (p.val / 8)) EthPort.pfcMode = true → en.getLsbD (fget (s.ethPort (p.val / 8)) EthPort.mgmtPcp) = true →
      (t.sub p.val).mgmtHold = (s.sub p.val).mgmtHold.pause
        (s.quantaNs p.val (q.getD (fget (s.ethPort (p.val / 8)) EthPort.mgmtPcp) 0).toNat) s.time.clk) ∧
    (fbit (s.ethPort (p.val / 8)) EthPort.pfcMode = false ∨ en.getLsbD (fget (s.ethPort (p.val / 8)) EthPort.mgmtPcp) = false →
      (t.sub p.val).mgmtHold = (s.sub p.val).mgmtHold)) ∧
  (∀ s (p : Fin 32), ∃ t, exec (.pauseHoldEnd p false) s = .next t ∧ (t.sub p.val).mgmtHold =
    (if (s.sub p.val).mgmtHold.on s.time.clk then (s.sub p.val).mgmtHold else { (s.sub p.val).mgmtHold with until_ := none })) ∧
  (∀ s (p : Fin 32) i, i < 8 → ∃ t, exec (.pauseHoldEnd p true) s = .next t ∧ tget holdAt (t.sub p.val).mediaHold i =
    (if (tget holdAt (s.sub p.val).mediaHold i).on s.time.clk then tget holdAt (s.sub p.val).mediaHold i
     else { tget holdAt (s.sub p.val).mediaHold i with until_ := none })) ∧
  (∀ s (p : Fin 32), due s p (s.sub p.val).mgmtHold → ∃ t, exec (.pauseWatchdogExpiry p false) s = .next t ∧
    (t.sub p.val).mgmtHold.until_ = none ∧ (t.sub p.val).mgmtHold.ignore = some (s.time.clk + BitVec.ofNat 64 (wd s p)) ∧
    ctr t p 11 = ctr s p 11 + 1 ∧ (0xA3, s.locSub p.val) ∈ t.flt.status) ∧
  (∀ s (p : Fin 32) i, i < 8 → due s p (tget holdAt (s.sub p.val).mediaHold i) → ∃ t, exec (.pauseWatchdogExpiry p true) s = .next t ∧
    (∀ k, k < 8 → (tget holdAt (t.sub p.val).mediaHold k).until_ = none ∧
      (tget holdAt (t.sub p.val).mediaHold k).ignore = some (s.time.clk + BitVec.ofNat 64 (wd s p))) ∧ ctr t p 11 = ctr s p 11 + 1 ∧ (0xA3, s.locSub p.val) ∈ t.flt.status) ∧
  (∀ s (p : Fin 32) m, (∀ h ∈ (s.sub p.val).classHolds m, ¬ due s p h) → exec (.pauseWatchdogExpiry p m) s = .next s.fresh) ∧
  (∀ s (p : Fin 32), ∃ t, exec (.pauseIgnoreEnd p false) s = .next t ∧ (t.sub p.val).mgmtHold =
    (if (s.sub p.val).mgmtHold.ignores s.time.clk then (s.sub p.val).mgmtHold else { (s.sub p.val).mgmtHold with ignore := none })) ∧
  (∀ s (p : Fin 32) i, i < 8 → ∃ t, exec (.pauseIgnoreEnd p true) s = .next t ∧ tget holdAt (t.sub p.val).mediaHold i =
    (if (tget holdAt (s.sub p.val).mediaHold i).ignores s.time.clk then tget holdAt (s.sub p.val).mediaHold i
     else { tget holdAt (s.sub p.val).mediaHold i with ignore := none })) ∧
  (∀ s (p : Fin 32) vid b f tag rest, (s.sub p.val).txq = .report vid b :: rest → s.subUp p.val = true →
    (s.sub p.val).mgmtHold.on s.time.clk = false → tag = s.mgmtTag p.val vid → f = tagged tag b →
    ∃ t, exec (.mgmtFrameSend p) s = .next t ∧ (t.sub p.val).txq = rest ∧ ctr t p 8 = ctr s p 8 + 1 ∧
      ctr t p 9 = ctr s p 9 + BitVec.ofNat 64 (max 64 (b.length + (if tag.isSome then 4 else 0) + 4)) ∧
      t.emitted = [.mgmt p.val (fitBytes (max 60 f.length) f)]) ∧
  (∀ s (p : Fin 32) i kind seq soft tag rest, (s.sub p.val).txq = .ptp i kind seq soft :: rest → s.subUp p.val = true →
    (s.sub p.val).mgmtHold.on s.time.clk = false → tag = s.mgmtTag p.val none →
    ∃ t, exec (.mgmtFrameSend p) s = .next t ∧ (t.sub p.val).txq = rest ∧ ctr t p 8 = ctr s p 8 + 1 ∧
      ctr t p 9 = ctr s p 9 + BitVec.ofNat 64 (max 64 (ptpBytes (s.inst i) kind + (if tag.isSome then 4 else 0) + 4)) ∧
      t.emitted = [.ptp i kind seq tag (kind == 1 && fbit (s.inst i) Inst.delayUnicast)]) ∧
  (∀ s (p : Fin 32) x tag, (s.sub p.val).txq = [] → s.ctl.inband.find? (fun x => x.sub == p.val) = some x → s.subUp p.val = true →
    (s.sub p.val).mgmtHold.on s.time.clk = false → tag = s.mgmtTag p.val none →
    ∃ t, exec (.mgmtFrameSend p) s = .next t ∧ t.ctl.inband = s.ctl.inband.eraseP (fun x => x.sub == p.val) ∧ ctr t p 8 = ctr s p 8 + 1 ∧
      ctr t p 9 = ctr s p 9 + BitVec.ofNat 64 (max 64 (inbandBytes x + (if tag.isSome then 4 else 0) + 4)) ∧
      t.emitted = [.inband p.val tag x.sender x.bytes]) ∧
  (∀ s (p : Fin 32), ((s.sub p.val).txq = [] ∧ s.ctl.inband.find? (fun x => x.sub == p.val) = none) ∨ s.subUp p.val = false ∨
    (s.sub p.val).mgmtHold.on s.time.clk = true → exec (.mgmtFrameSend p) s = .next s.fresh) ∧
  ∀ s (p : Fin 32), s.subUp p.val = false → (∀ fec, exec (.subportLinkLoss p fec) s = .next s.fresh) ∧
    (∀ f, exec (.frameReceived p f) s = .next s.fresh) ∧ (∀ q, exec (.pauseFrame p q) s = .next s.fresh) ∧
    ∀ en q, exec (.pfcFrame p en q) s = .next s.fresh

/-- At the end of a window every flow's peak and its windows over the declared rate are kept. A present flow that stays silent for its
ABSENT_TIME is absent with FLOW_ABSENT; a corrected entry raises FLOW_TABLE_CORRECTED, an uncorrectable one FLOW_TABLE_UNCORR and no
longer matches; a number that places no flow does nothing. An owed membership report is sent and owed once less; a query answers for the groups
joined and an old querier's version is kept, until its timeout. A video packet that is due leaves with the next sequence number;
on a sub-port that is not UP, or of a frame longer than MAX_FRAME, it is counted lost; without format, enable or run, or held, nothing
leaves. -/
def Obligations.FlowTableEventsTakeEffect : Prop :=
  (∀ s, ∃ t, exec .flowWindow s = .next t ∧ t.flo.table = s.flo.table.map (fun f => (flowWindow f).1) ∧
    (∀ f ∈ s.flo.table, (flowWindow f).2 = true → (0xA6, locFlow f.place) ∈ t.flt.status) ∧ t.flo.merge = s.flo.merge) ∧
  (∀ (f : Flow), fget f.key FlowEntry.declRate ≠ 0 → fget f.key FlowEntry.declRate < f.windowSum →
    (flowWindow f).1.overWindows = sat32 f.overWindows 1 ∧ (flowWindow f).1.windowSum = 0 ∧ ((flowWindow f).2 = true ↔ f.within = none)) ∧
  (∀ s (e : Fin 262160) f, s.flowAt e.val = some f → f.present = true →
    f.lastSeen + (if fget f.key FlowEntry.absentTime = 0 then 10 else fget f.key FlowEntry.absentTime) * 1000000 ≤ s.now →
    ∃ t, exec (.absentTimeout e) s = .next t ∧ (0xA5, locFlow f.place) ∈ t.flt.status ∧
      (∀ g ∈ t.flo.table, sameKey g.key f.key = true → g.present = false)) ∧
  (∀ s (e : Fin 262160) f, s.flowAt e.val = some f → (f.present = false ∨
    s.now < f.lastSeen + (if fget f.key FlowEntry.absentTime = 0 then 10 else fget f.key FlowEntry.absentTime) * 1000000) →
    exec (.absentTimeout e) s = .next s.fresh) ∧
  (∀ s (e : Fin 262160) f, s.flowAt e.val = some f → ∃ t, exec (.flowTableCorrected e) s = .next t ∧ (0xA7, locFlow f.place) ∈ t.flt.status ∧
    t.flo = s.flo) ∧
  (∀ s (e : Fin 262160) f, s.flowAt e.val = some f → ∃ t, exec (.flowTableUncorr e) s = .next t ∧ (0xA8, locFlow f.place) ∈ t.flt.status ∧
    ∀ g ∈ t.flo.table, sameKey g.key f.key = true → g.bad = true) ∧
  (∀ s (e : Fin 262160), s.flowAt e.val = none → exec (.absentTimeout e) s = .next s.fresh ∧
    exec (.flowTableCorrected e) s = .next s.fresh ∧ exec (.flowTableUncorr e) s = .next s.fresh) ∧
  (∀ s (p : Fin 32) (g : BitVec 128) v6 lv o, (s.sub p.val).owed.find? (fun o => o.group == g.toNat && o.v6 == v6 && o.leaving == lv) = some o →
    s.fwRuns = true → ∃ t, exec (.membershipReport p g v6 lv) s = .next t ∧
      (t.sub p.val).owed = (s.sub p.val).owed.filter (fun x => !decide (x = o)) ++ (if o.left ≤ 1 then [] else [{ o with left := o.left - 1 }]) ∧
      (s.subUp p.val = true → (lv = false ∨ v6 = true ∨ (s.sub p.val).compat4 ≠ 1) → (t.sub p.val).txq.length = (s.sub p.val).txq.length + 1)) ∧
  (∀ s (p : Fin 32) (g : BitVec 128) v6 lv, ((s.sub p.val).owed.find? (fun o => o.group == g.toNat && o.v6 == v6 && o.leaving == lv) = none ∨
    s.fwRuns = false) → exec (.membershipReport p g v6 lv) s = .next s.fresh) ∧
  (∀ s (p : Fin 32) (ver : Fin 4) g, s.fwRuns = true → s.subUp p.val = true → ∃ t, exec (.query p false ver g) s = .next t ∧
    (ver.val = 1 ∨ ver.val = 2 → (t.sub p.val).compat4 = (if (s.sub p.val).compat4 = 0 then ver.val else min (s.sub p.val).compat4 ver.val) ∧
      ((s.sub p.val).compat4 = 0 → (0xA9, s.locSub p.val) ∈ t.flt.status)) ∧
    (ver.val ≠ 1 → ver.val ≠ 2 → (t.sub p.val).compat4 = (s.sub p.val).compat4) ∧
    (∀ x ∈ s.joinedGroups p.val false, g = 0 ∨ x = g.toNat → ∃ o ∈ (t.sub p.val).owed, o.group = x ∧ o.v6 = false ∧ o.answer = true)) ∧
  (∀ s (p : Fin 32) (ver : Fin 4) g, s.fwRuns = true → s.subUp p.val = true → ∃ t, exec (.query p true ver g) s = .next t ∧
    (ver.val = 1 → (t.sub p.val).compat6 = (if (s.sub p.val).compat6 = 0 then 1 else min (s.sub p.val).compat6 1)) ∧
    (ver.val ≠ 1 → (t.sub p.val).compat6 = (s.sub p.val).compat6)) ∧
  (∀ s (p : Fin 32) v6 ver g, s.fwRuns = false ∨ s.subUp p.val = false → exec (.query p v6 ver g) s = .next s.fresh) ∧
  (∀ s (p : Fin 32), exec (.querierTimeout p false) s = .next ((s.fresh).setSub p.val { s.sub p.val with compat4 := 0 }) ∧
    exec (.querierTimeout p true) s = .next ((s.fresh).setSub p.val { s.sub p.val with compat6 := 0 })) ∧
  (∀ s (f : Fin 4096) fmt, s.outFmt (fget (s.pktRec f.val) PktFlow.output) = some fmt → fbit (s.pktRec f.val) PktFlow.flowEn = true →
    (s.out (fget (s.pktRec f.val) PktFlow.output)).running = true → s.pktHeld f.val (s.pktRec f.val) = false →
    s.blockHeld (ethBlock (fget (s.pktRec f.val) PktFlow.port)) = false → fget (s.pktRec f.val) PktFlow.essence = 0 →
    s.inExtra fmt.plane = false →
    let u := s.pktUnit f.val (s.pktRec f.val) (s.out (fget (s.pktRec f.val) PktFlow.output)).frames
    let h := s.pktRec (s.pktLead f.val (s.pktRec f.val))
    let up := s.subUp (8 * fget (s.pktRec f.val) PktFlow.port + fget (s.pktRec f.val) PktFlow.subport)
    let max_ := fget (s.ethPort (fget (s.pktRec f.val) PktFlow.port)) EthPort.maxFrame
    u.sent < fieldPackets h fmt.fmt false + (if fmt.fmt.interlaced then fieldPackets h fmt.fmt true else 0) →
    ∃ t b, exec (.packetDeparture f) s = .next t ∧ (t.pkt f.val).seq = u.seq + 1 ∧ (t.pkt f.val).sent = u.sent + 1 ∧ 60 ≤ b.length ∧
      (up = true → b.length + 4 ≤ max_ → t.emitted = [.packet f.val b] ∧ (t.pkt f.val).lost = u.lost) ∧
      (up = false ∨ max_ < b.length + 4 → t.emitted = [] ∧ (t.pkt f.val).lost = sat32 u.lost 1)) ∧
  (∀ s (f : Fin 4096), s.outFmt (fget (s.pktRec f.val) PktFlow.output) = none ∨ fbit (s.pktRec f.val) PktFlow.flowEn = false ∨
    (s.out (fget (s.pktRec f.val) PktFlow.output)).running = false ∨ s.pktHeld f.val (s.pktRec f.val) = true →
    exec (.packetDeparture f) s = .next s.fresh)

/-- A depacketised audio tile whose last sample is 2 ms old closes, begun or not; a merge decides a tile at its time, not before, and goes
on to the next tile or unit. A Composer output that is active latches what is written; at F an enabled one that was idle runs with it. A
lookup bank that fails parity raises COMP_LUT_PARITY, a Calliope coefficient CAL_COEFF_PARITY and is taken off. Calliope's tick runs it where
it is enabled on a running plane and not isolated, and stops it where it is disabled. An output's audio slot steps one millisecond and sends
it where the output runs and carries the slot, zeros where it plays nothing; the end of a tap's crossfade releases the claims of the old
delay, and those of a tap no record needs. Held, disabled or idle ones do nothing. -/
def Obligations.EssenceEnginesTakeTheirSteps : Prop :=
  (∀ s (r : Fin 8192) k, (s.dep r.val).next = some k →
    ((k + 1) * ringMs (s.ring r.val) - 1) * 1000000000 + 2000000 * ringHz (s.ring r.val) ≤ s.now * ringHz (s.ring r.val) →
    ∃ t, exec (.audioTileTimeout r) s = .next t ∧ (∃ k', k < k' ∧ (t.dep r.val).next = some k') ∧
      ∀ e ∈ (t.dep r.val).samples, e ∈ (s.dep r.val).samples ∧ (k + 1) * ringMs (s.ring r.val) ≤ e.1) ∧
  (∀ s (r : Fin 8192), ((s.dep r.val).next = none ∨ ∃ k, (s.dep r.val).next = some k ∧ s.now * ringHz (s.ring r.val) <
      ((k + 1) * ringMs (s.ring r.val) - 1) * 1000000000 + 2000000 * ringHz (s.ring r.val)) → exec (.audioTileTimeout r) s = .next s.fresh) ∧
  (∀ s (m : Fin 1024) n, fbit (s.mergeRec m.val) Merge.mergeEn = true → s.blockHeld mergeBlock = false → (s.mergeSt m.val).unit = some n →
    let d := s.ring (fget (s.mergeRec m.val) Merge.outRing)
    let u := max 1 (s.mergeU (s.mergeRec m.val))
    let tiles := if ringIsVideo d then max 1 (ringTpf d) else 1
    let at_ := decideAt u (fget (s.mergeRec m.val) Merge.mergeDelay) tiles n (s.mergeSt m.val).tile (ringType d == 3)
    let now := s.now32 * tuPerNs / 2 ^ 32
    (now < at_ → at_ ≤ now + 2 * u → exec (.mergeDecision m) s = .next s.fresh) ∧
    (at_ ≤ now → now ≤ at_ + 2 * u → ∃ t, exec (.mergeDecision m) s = .next t ∧
      ((s.mergeSt m.val).tile + 1 < tiles → (t.mergeSt m.val).unit = some n ∧ (t.mergeSt m.val).tile = (s.mergeSt m.val).tile + 1) ∧
      (tiles ≤ (s.mergeSt m.val).tile + 1 → (t.mergeSt m.val).unit = some (n + 1) ∧ (t.mergeSt m.val).tile = 0))) ∧
  (∀ s (m : Fin 1024), fbit (s.mergeRec m.val) Merge.mergeEn = false ∨ s.blockHeld mergeBlock = true →
    exec (.mergeDecision m) s = .next s.fresh) ∧
  (∀ s (c : Fin 16) (k : Fin 4), s.compHeld c.val = false → s.compActive (4 * c.val + k.val) = true →
    ∃ t, exec (.composerLatch c k) s = .next t ∧ (t.compSt (4 * c.val + k.val)).lat = some (s.compWritten (4 * c.val + k.val)) ∧
      (t.compSt (4 * c.val + k.val)).run = (s.compSt (4 * c.val + k.val)).run ∧
      ∀ n, n ≠ 4 * c.val + k.val → t.compSt n = s.compSt n) ∧
  (∀ s (c : Fin 16) (k : Fin 4), s.compHeld c.val = true ∨ s.compActive (4 * c.val + k.val) = false →
    exec (.composerLatch c k) s = .next s.fresh) ∧
  (∀ s (c : Fin 16) (k : Fin 4), s.compHeld c.val = false → s.planeOn (fget (s.compOut (4 * c.val + k.val)) CompOut.plane) = true →
    fbit (s.compOut (4 * c.val + k.val)) CompOut.compEn = true → (s.compSt (4 * c.val + k.val)).run = none → s.compGang c.val = false →
    s.flt.isolated.any (fun p => p.2 == locComp c.val 9) = false → s.cmp.held = [] →
    ∃ t, exec (.composerFrameStart c k) s = .next t ∧ (t.compSt (4 * c.val + k.val)).run = some (s.compWritten (4 * c.val + k.val)) ∧
      (t.compSt (4 * c.val + k.val)).frames = (s.compSt (4 * c.val + k.val)).frames + 1 ∧
      fget (t.compOut (4 * c.val + k.val)) CompOut.compState = 1) ∧
  (∀ s (c : Fin 16) (k : Fin 4), s.compHeld c.val = true ∨ s.planeOn (fget (s.compOut (4 * c.val + k.val)) CompOut.plane) = false →
    exec (.composerFrameStart c k) s = .next s.fresh) ∧
  (∀ s (tb : Fin 3) (b : Fin 2) (i : Fin 128), tb.val = 0 ∨ i.val < 16 → ∃ t, exec (.compLutParity tb b i) s = .next t ∧
    bankKey tb.val b.val i.val ∈ t.cmp.lutBad ∧
    (0xC4, if tb.val = 0 then locComp (i.val / 8) (i.val % 8) else locComp i.val 9) ∈ t.flt.status ∧ t.cmp.st = s.cmp.st) ∧
  (∀ s (tb : Fin 3) (b : Fin 2) (i : Fin 128), tb.val ≠ 0 → 16 ≤ i.val → exec (.compLutParity tb b i) s = .next s.fresh) ∧
  (∀ s, s.blockHeld 48 = true → exec .calliopeTick s = .next s.fresh) ∧
  (∀ s, s.blockHeld 48 = false → s.cal.held = [] → fbit s.cal.ctl Cal.calEn = true → s.planeOn (fget s.cal.ctl Cal.calPlane) = true →
    s.calIsolated = false → ∃ t, exec .calliopeTick s = .next t ∧ t.cal.run = true ∧ fget t.cal.ctl Cal.calState = 1 ∧ t.rte = s.rte) ∧
  (∀ s, s.blockHeld 48 = false → s.cal.held = [] → fbit s.cal.ctl Cal.calEn = true → s.planeOn (fget s.cal.ctl Cal.calPlane) = true →
    s.calIsolated = true → ∃ t, exec .calliopeTick s = .next t ∧ fget t.cal.ctl Cal.calState = 2 ∧ t.cal.inSt = s.cal.inSt ∧ t.mem = s.mem) ∧
  (∀ s, s.blockHeld 48 = false → s.cal.held = [] → fbit s.cal.ctl Cal.calEn = false → s.cal.run = true →
    ∃ t, exec .calliopeTick s = .next t ∧ t.cal.run = false ∧ fget t.cal.ctl Cal.calState = 0 ∧ t.cal.tapMix = []) ∧
  (∀ s (o : Fin 2048) (k : Fin 4) f old new, s.outFmt o.val = some f → old = (s.out o.val).slots.getD k.val AudSlot.reset →
    new = (s.stepSlot old (msNear (s.planeTu f.plane))).1 → ∃ t, exec (.audioReaderTile o k) s = .next t ∧
      (old.srcs ≠ [] → (t.out o.val).slots.getD k.val AudSlot.reset = new) ∧
      (old.srcs = [] → ((t.out o.val).slots.getD k.val AudSlot.reset).srcs = []) ∧
      ((s.out o.val).running = true → slotCarried s f k.val = true → Emit.audio o.val k.val
        (if old.srcs ≠ [] ∧ (s.out o.val).gen = false then new.samples else List.replicate 768 0) ∈ t.emitted) ∧
      (∀ n, n ≠ o.val → t.out n = s.out n) ∧ t.mem = s.mem) ∧
  (∀ s (o : Fin 2048) (k : Fin 4), s.outFmt o.val = none → exec (.audioReaderTile o k) s = .next s.fresh) ∧
  (∀ s (i : Fin 1024) (k : Fin 4), ∃ t, exec (.tapCrossfadeEnd i k) s = .next t ∧ ∀ h, h ∈ t.bud.holds ↔ h ∈ s.bud.holds ∧
    ¬ (h.grp = .calRead i.val (4 + k.val) ∨ (h.grp = .calRead i.val k.val ∧ s.tapWanted i.val k.val = false))) ∧
  (∀ s (b : Fin 512) (i : Fin 128), ∃ t, exec (.calCoeffParity (.crosspoint b i)) s = .next t ∧ 128 * b.val + i.val ∈ t.cal.offXp ∧
    (0xD6, locCal 1) ∈ t.flt.status ∧ t.cal.bus = s.cal.bus) ∧
  (∀ s (b : Fin 512), ∃ t, exec (.calCoeffParity (.bus b)) s = .next t ∧ b.val ∈ t.cal.offBus ∧ (0xD6, locCal 1) ∈ t.flt.status) ∧
  (∀ s (o : Fin 1024) (c : Fin 16), ∃ t, exec (.calCoeffParity (.channel o c)) s = .next t ∧ 16 * o.val + c.val ∈ t.cal.offCh ∧
    (0xD6, locCal 0) ∈ t.flt.status) ∧
  (∀ s (i : Fin 1024) (c : Fin 16), ∃ t, exec (.calCoeffParity (.tapMap i c)) s = .next t ∧ 16 * i.val + c.val ∈ t.cal.offIn ∧
    (0xD6, locCal 3) ∈ t.flt.status)

/-- With one enabled candidate: good edges for QUAL_TIME make it QUALIFIED with REF_QUALIFIED, and from FREERUN it is selected and the loop
acquires; a selected one that fails is disqualified and the loop holds over with REF_HOLDOVER, as at once where its activity goes. In
holdover the correction follows the model and each second is counted; LOCKED seconds join the history; FREERUN corrects nothing. The
stages of acquisition run until BW_FINAL, then LOCKED; SETTLE's end selects with build-out, a better rank after WTR displaces; the
holdover limit raises its event. Analog sync and pulse edges drive activity, and in WATCH an edge sets ACT_P. The PLL fault is fatal. -/
def Obligations.ReferenceEngineTakesItsSteps : Prop :=
  (∀ s m ph cr, s.blockHeld 49 = true → exec (.refEvaluation m ph cr) s = .next s.fresh) ∧
  (∀ s m ph cr (c : Nat), s.blockHeld 49 = false → c < 15 → (∀ n, n < 16 → n ≠ c → fbit (s.cand n) Cand.candEn = false ∧ s.qState n ≠ 2) →
    fbit (s.cand c) Cand.candEn = true → s.candActive c = true → s.qState c = 1 → s.ref.disagree = [] →
    (m.getD c ⟨false, 0, 0⟩).edges = true → (m.getD c ⟨false, 0, 0⟩).jump ≤ fget (s.cand c) Cand.phaseHit →
    fget (s.cand c) Cand.qualTime ≤ (s.candSt c).goodRun + 1 →
    meanOut ((⟨true, (m.getD c ⟨false, 0, 0⟩).freq⟩ :: (s.candSt c).secs).take 100) 10 (fget (s.cand c) Cand.freqWindow * 100) = false →
    meanOut ((⟨true, (m.getD c ⟨false, 0, 0⟩).freq⟩ :: (s.candSt c).secs).take 100) 100 (fget (s.cand c) Cand.freqWindow * 100) = false →
    ∃ t, exec (.refEvaluation m ph cr) s = .next t ∧ t.qState c = 2 ∧ (0xE2, locRef) ∈ t.flt.status ∧
      (fbit s.ref.eng RefEng.refEn = true → s.loopState = 0 → t.loopState = 1 ∧ t.selected = c ∧ (0xE0, locRef) ∈ t.flt.status) ∧
      (fbit s.ref.eng RefEng.refEn = false → s.loopState = 0 → t.loopState = 0 ∧ fsgn t.ref.eng RefEng.freqCorr = 0)) ∧
  (∀ s m ph cr (c : Nat), s.blockHeld 49 = false → c < 16 → (∀ n, n < 16 → n ≠ c → fbit (s.cand n) Cand.candEn = false ∧ s.qState n ≠ 2) →
    fbit (s.cand c) Cand.candEn = true → s.candActive c = true → s.qState c = 2 → s.ref.disagree = [] → s.selected = c →
    s.loopState = 1 ∨ s.loopState = 2 →
    badReason (s.cand c) ((⟨(m.getD c ⟨false, 0, 0⟩).edges && (m.getD c ⟨false, 0, 0⟩).jump ≤ fget (s.cand c) Cand.phaseHit,
      (m.getD c ⟨false, 0, 0⟩).freq⟩ :: (s.candSt c).secs).take 100) ≠ 0 →
    ∃ t, exec (.refEvaluation m ph cr) s = .next t ∧ t.qState c = 3 ∧ t.loopState = 3 ∧ t.selected = noCand ∧
      (0xE1, locRef) ∈ t.flt.status ∧ (0xE4, locRef) ∈ t.flt.status) ∧
  (∀ s m ph cr, s.blockHeld 49 = false → (∀ n, n < 16 → fbit (s.cand n) Cand.candEn = false) → s.loopState = 2 →
    s.pllFailed = false → ∃ t, exec (.refEvaluation m ph cr) s = .next t ∧ t.ref.history = (cr.toInt :: s.ref.history).take 86400 ∧ t.loopState = 2 ∧
      fget t.ref.eng RefEng.freqCorr = cr.toNat) ∧
  (∀ s m ph cr, s.blockHeld 49 = false → (∀ n, n < 16 → fbit (s.cand n) Cand.candEn = false) → s.loopState = 3 → s.ref.settled = false →
    s.pllFailed = false → ∃ t, exec (.refEvaluation m ph cr) s = .next t ∧ t.ref.holdSecs = s.ref.holdSecs + 1 ∧ t.loopState = 3 ∧ t.ref.history = s.ref.history ∧
      fget t.ref.eng RefEng.freqCorr = unsgn 32 (s.ref.fEntry + (s.ref.slope.1 * (s.ref.holdSecs + 1 : Nat)).fdiv s.ref.slope.2)) ∧
  (∀ s (c : Fin 16), c.val < 6 ∨ c.val = 15 → ∃ t, exec (.activityLoss c) s = .next t ∧ t.qState c.val = 0 ∧
    (t.candSt c.val).activity = false ∧ (s.qState c.val = 2 → (0xE1, locRef) ∈ t.flt.status) ∧
    (s.qState c.val ≠ 0 → s.selected = c.val → s.loopState = 1 ∨ s.loopState = 2 → t.loopState = 3 ∧ (0xE4, locRef) ∈ t.flt.status)) ∧
  (∀ s (c : Fin 16), 6 ≤ c.val → c.val ≤ 14 → s.candActive c.val = true → ∃ t, exec (.activityLoss c) s = .next t ∧
    t.ref.cand = s.ref.cand ∧ t.ref.eng = s.ref.eng ∧ t.flt = s.flt) ∧
  (∀ s ph, s.loopState = 3 → s.ref.settled = false → ∃ t, exec (.settleExpiry ph) s = .next t ∧ t.ref.settled = true ∧
    (∀ c, s.bestCand = some c → c < 16 → fbit s.ref.eng RefEng.refEn = true → t.selected = c ∧ t.loopState = 1 ∧ (0xE0, locRef) ∈ t.flt.status) ∧
    (s.bestCand = none → t.loopState = 3)) ∧
  (∀ s ph, s.loopState ≠ 3 ∨ s.ref.settled = true → exec (.settleExpiry ph) s = .next s.fresh) ∧
  (∀ s (c : Fin 16) ph, fbit s.ref.eng RefEng.revertive = true → s.loopState = 1 ∨ s.loopState = 2 → s.qState c.val = 2 →
    s.rankOf c.val < s.rankOf s.selected → fget s.ref.eng RefEng.wtr ≤ (s.candSt c.val).qualRun →
    ∃ t, exec (.wtrExpiry c ph) s = .next t ∧ t.selected = c.val ∧ t.loopState = 1 ∧ t.ref.stage = 5 ∧ (0xE0, locRef) ∈ t.flt.status) ∧
  (∀ s (c : Fin 16) ph, fbit s.ref.eng RefEng.revertive = false ∨ s.qState c.val ≠ 2 ∨ (s.candSt c.val).qualRun < fget s.ref.eng RefEng.wtr →
    exec (.wtrExpiry c ph) s = .next s.fresh) ∧
  (∀ s, s.loopState = 1 → stageBw s.ref.stage ≤ fget s.ref.eng RefEng.bwFinal → ∃ t, exec .acquisitionStage s = .next t ∧ t.loopState = 2 ∧
    (0xE6, locRef) ∈ t.flt.status ∧ t.selected = s.selected) ∧
  (∀ s, s.loopState = 1 → fget s.ref.eng RefEng.bwFinal < stageBw s.ref.stage → ∃ t, exec .acquisitionStage s = .next t ∧
    t.ref.stage = s.ref.stage + 1 ∧ t.loopState = 1) ∧
  (∀ s, s.loopState ≠ 1 → exec .acquisitionStage s = .next s.fresh) ∧
  (∀ s, s.loopState = 3 → s.ref.longDone = false → ∃ t, exec .holdLimitExpiry s = .next t ∧ t.ref.longDone = true ∧
    (0xE5, locRef) ∈ t.flt.status ∧ t.loopState = 3) ∧
  (∀ s, s.loopState ≠ 3 ∨ s.ref.longDone = true → exec .holdLimitExpiry s = .next s.fresh) ∧
  (∀ s (c : Fin 2) (d : Fin 256) (k : Fin 16) (a : BitVec 16), a.toNat < 100 → ∃ t, exec (.analogSyncFrame c ⟨d, k⟩ a) s = .next t ∧
    (t.candSt c.val).activity = false ∧ t.qState c.val = 0) ∧
  (∀ s (c : Fin 2) (d : Fin 256) (k : Fin 16) (a : BitVec 16), 100 ≤ a.toNat → d.val = 255 ∨ syncKnown d.val k.val = false →
    (s.candSt c.val).missing < 3 → ∃ t, exec (.analogSyncFrame c ⟨d, k⟩ a) s = .next t ∧
      (t.candSt c.val).missing = (s.candSt c.val).missing + 1 ∧
      (t.candSt c.val).activity = (s.candSt c.val).activity ∧ t.ref.cand = s.ref.cand) ∧
  (∀ s (c : Fin 2) (d : Fin 256) (k : Fin 16) (a : BitVec 16), 150 ≤ a.toNat → syncKnown d.val k.val = true →
    (s.candSt c.val).detected = d.val → (s.candSt c.val).rate = k.val →
    1 ≤ (s.candSt c.val).frames → ∃ t, exec (.analogSyncFrame c ⟨d, k⟩ a) s = .next t ∧ (t.candSt c.val).activity = true ∧
      (fbit (s.cand c.val) Cand.candEn = true → s.qState c.val = 0 → t.qState c.val = 1)) ∧
  (∀ s, ∃ t, exec .refPllFault s = .next t ∧ (0xE9, locRef) ∈ t.flt.status ∧ (s.role ≠ .primary → t.safetyNet = true) ∧
    t.ref.eng = fput s.ref.eng RefEng.freqCorr 0 ∧ t.ref.cand = s.ref.cand ∧ t.ref.plane = s.ref.plane) ∧
  (∀ s (p : Fin 4), s.pwr.power = .staging ∨ s.pwr.power = .active → ∃ t, exec (.pulseInputEdge p) s = .next t ∧
    tget natReset t.ref.pinEdge p.val = s.now ∧ (t.candSt (p.val + 2)).activity = true ∧
    (fbit (s.cand (p.val + 2)) Cand.candEn = true → s.qState (p.val + 2) = 0 → t.qState (p.val + 2) = 1) ∧ t.pwr = s.pwr) ∧
  (∀ s (p : Fin 4), s.pwr.power = .watch → ∃ t, exec (.pulseInputEdge p) s = .next t ∧ maskBit (fget t.pwr.aon Aon.actP) p.val = true ∧
    t.ref = s.ref) ∧
  (∀ s (p : Fin 4), s.pwr.power = .backup → exec (.pulseInputEdge p) s = .next s.fresh)

/-- A running plane counts a frame and takes on the step that waits, with PLANE_PHASE_STEP; a slew that completes leaves its phase in full,
likewise raised. An enabled pulse or clock output rises, one that is high falls, with its polarity, and one that is switched off ends low; an
output that neither runs nor is enabled, or whose edge is not yet due, gives no edge, and a plane that is off, or does not slew or has some
of its slew left, does nothing. -/
def Obligations.PlanesStepAndPulseOutputsToggle : Prop :=
  (∀ s (p : Fin 8), s.planeOn p.val = true → ∃ t, exec (.planeFrameStart p) s = .next t ∧
    t.planeSt p.val = { s.planeSt p.val with frames := (s.planeSt p.val).frames + 1
                                             shift := (s.planeSt p.val).shift + (s.planeSt p.val).step, step := 0
                                             extra := if (s.planeSt p.val).step = 0 then 0 else s.engineTu + (s.planeSt p.val).step } ∧
    ((s.planeSt p.val).step ≠ 0 → (0xE7, locRef) ∈ t.flt.status) ∧ (∀ n, n ≠ p.val → t.planeSt n = s.planeSt n)) ∧
  (∀ s (p : Fin 8), s.planeOn p.val = false → exec (.planeFrameStart p) s = .next s.fresh) ∧
  (∀ s (p : Fin 8), (s.planeSt p.val).slew ≠ 0 → s.slewed p.val = (s.planeSt p.val).left → ∃ t, exec (.slewComplete p) s = .next t ∧
    t.planeSt p.val = { s.planeSt p.val with shift := (s.planeSt p.val).shift + (s.planeSt p.val).left, slew := 0, left := 0, past := 0 } ∧
    (0xE7, locRef) ∈ t.flt.status ∧ (∀ n, n ≠ p.val → t.planeSt n = s.planeSt n)) ∧
  (∀ s (p : Fin 8), (s.planeSt p.val).slew = 0 ∨ s.slewed p.val ≠ (s.planeSt p.val).left → exec (.slewComplete p) s = .next s.fresh) ∧
  (∀ s (o : Fin 10), o.val < 8 → (tget edgeReset s.ref.pulseSt o.val).run = true ∨ fbit (s.pulse o.val) Pulse.poEn = true →
    let e := tget edgeReset s.ref.pulseSt o.val
    (edgeDue (s.pulseTimes (s.pulse o.val)) e s.time.clk.toNat = false → exec (.pulseOutputEdge o) s = .next s.fresh) ∧
    (edgeDue (s.pulseTimes (s.pulse o.val)) e s.time.clk.toNat = true →
    ∃ t b, exec (.pulseOutputEdge o) s = .next t ∧ t.emitted = [.edge o.val b] ∧
      (tget edgeReset t.ref.pulseSt o.val).lastEdge = s.time.clk.toNat ∧
      (e.run = true → e.high = true → (tget edgeReset t.ref.pulseSt o.val).high = false ∧ b = edgeLevel false (fbit (s.pulse o.val) Pulse.poPol)) ∧
      (e.run = false ∨ e.high = false → fbit (s.pulse o.val) Pulse.poEn = true → (tget edgeReset t.ref.pulseSt o.val).high = true ∧
        b = edgeLevel true (fbit (s.pulse o.val) Pulse.poPol)) ∧
      (e.high = false → fbit (s.pulse o.val) Pulse.poEn = false → (tget edgeReset t.ref.pulseSt o.val).run = false ∧ b = false))) ∧
  (∀ s (o : Fin 10), 8 ≤ o.val → (tget edgeReset s.ref.clockSt (o.val - 8)).run = true ∨ fbit (s.clock (o.val - 8)) ClkOut.ckEn = true →
    let e := tget edgeReset s.ref.clockSt (o.val - 8)
    (edgeDue (ckTimes (s.clock (o.val - 8))) e s.time.clk.toNat = false → exec (.pulseOutputEdge o) s = .next s.fresh) ∧
    (edgeDue (ckTimes (s.clock (o.val - 8))) e s.time.clk.toNat = true →
    ∃ t b, exec (.pulseOutputEdge o) s = .next t ∧ t.emitted = [.edge o.val b] ∧
      (tget edgeReset t.ref.clockSt (o.val - 8)).lastEdge = s.time.clk.toNat ∧
      (e.run = true → e.high = true → (tget edgeReset t.ref.clockSt (o.val - 8)).high = false) ∧
      (e.run = false ∨ e.high = false → fbit (s.clock (o.val - 8)) ClkOut.ckEn = true →
        (tget edgeReset t.ref.clockSt (o.val - 8)).high = true))) ∧
  (∀ s (o : Fin 10), o.val < 8 → (tget edgeReset s.ref.pulseSt o.val).run = false → fbit (s.pulse o.val) Pulse.poEn = false →
    exec (.pulseOutputEdge o) s = .next s.fresh) ∧
  (∀ s (o : Fin 10), 8 ≤ o.val → (tget edgeReset s.ref.clockSt (o.val - 8)).run = false → fbit (s.clock (o.val - 8)) ClkOut.ckEn = false →
    exec (.pulseOutputEdge o) s = .next s.fresh)

/-- A message is heard by an enabled instance whose sub-port is UP while the firmware runs; unheard, only a stamp is kept while it does not.
Intervals outside the profile are counted apart. A two-step Sync waits for its Follow_Up, a one-step Sync and a Follow_Up complete an exchange,
whose offset, less path and asymmetry, is the servo's last offset on its instance and locks an instance after 16 within the threshold. An
Announce joins the live leaders of the instance: its sender, where better than each other, is the parent, and a new grandmaster is raised; a
parent no worse than any stays. Requests are numbered and queued, and counted and stamped as they leave; answers are queued; responses give the
path. Timeouts lose the parent with the reason. Management is counted and ignored. -/
def Obligations.PtpInstancesTakeTheirMessages : Prop :=
  let bump (s : State) (i : Fin 4) (n : Nat) : List Nat := (s.instSt i.val).ctr.set n (satAdd 32 ((s.instSt i.val).ctr.getD n 0) 1)
  (∀ s (i : Fin 4) m, s.instHears i.val = false → s.fwRuns = true → exec (.sync i m) s = .next s.fresh) ∧
  (∀ s (i : Fin 4) m, s.fwRuns = false → fbit (s.inst i.val) Inst.instEn = true → tget natReset s.ptp.fifo (fget (s.inst i.val) Inst.port) < 64 →
    ∃ t, exec (.sync i m) s = .next t ∧ tget natReset t.ptp.fifo (fget (s.inst i.val) Inst.port) =
      tget natReset s.ptp.fifo (fget (s.inst i.val) Inst.port) + 1 ∧ t.ptp.instSt = s.ptp.instSt) ∧
  (∀ s (i : Fin 4) m, s.instHears i.val = true → syncLogOk (fget (s.inst i.val) Inst.profile) m.logInterval = false →
    exec (.sync i m) s = .next ((s.fresh).setInstSt i.val { s.instSt i.val with ctr := bump s i 6 })) ∧
  (∀ s (i : Fin 4) m, s.instHears i.val = true → syncLogOk (fget (s.inst i.val) Inst.profile) m.logInterval = true → m.soft = false →
    (s.instSt i.val).parent = none → exec (.sync i m) s = .next ((s.fresh).setInstSt i.val { s.instSt i.val with ctr := bump s i 0 })) ∧
  (∀ s (i : Fin 4) m p, s.instHears i.val = true → syncLogOk (fget (s.inst i.val) Inst.profile) m.logInterval = true → m.soft = false →
    (s.instSt i.val).parent = some p → m.twoStep = true → ∃ t, exec (.sync i m) s = .next t ∧ t.instSt i.val = { s.instSt i.val with
      ctr := bump s i 0, pending := some ⟨m.seq, (s.now : Int) - (s.rxCorr i.val).1, false, m.corr, m.logInterval⟩ } ∧
      (∀ n, n ≠ i.val → t.instSt n = s.instSt n) ∧ t.ptp.inst = s.ptp.inst ∧ t.ptp.servo = s.ptp.servo) ∧
  (∀ s (i : Fin 4) m p, s.instHears i.val = true → syncLogOk (fget (s.inst i.val) Inst.profile) m.logInterval = true → m.soft = false →
    (s.instSt i.val).parent = some p → m.twoStep = false → (s.instSt i.val).path = none → (s.instSt i.val).paths ≠ [] →
    s.ptp.using_ = i.val → fget s.ptp.servo Servo.servoSrc = 0 → fget s.ptp.servo Servo.ptpSel = i.val →
    fbit s.ptp.servo Servo.failover = false →
    let d := (s.now : Int) - (s.rxCorr i.val).1 - m.t1 - m.corr
    let o := d - meanInt (s.instSt i.val).paths - fsgn (s.inst i.val) Inst.asym
    ∃ t, exec (.sync i m) s = .next t ∧ (t.instSt i.val).ms = some d ∧ (t.instSt i.val).pending = none ∧
      fsgn t.ptp.servo Servo.lastOffset = clampInt (-(2 ^ 31)) (2 ^ 31 - 1) o ∧
      (fget (s.inst i.val) Inst.instState = 1 → 15 ≤ (s.instSt i.val).near → o.natAbs < fget s.ptp.servo Servo.lockThresh →
        fget (t.inst i.val) Inst.instState = 2 ∧ (0xEA, locPtp) ∈ t.flt.status)) ∧
  (∀ s (i : Fin 4) seq t1 c p, s.instHears i.val = true → (s.instSt i.val).pending = some p → p.seq = seq →
    ∃ t, exec (.followUp i seq t1 c) s = .next t ∧ (t.instSt i.val).pending = none ∧
      (t.instSt i.val).ms = some (p.t2 - t1 - p.correction - c)) ∧
  (∀ s (i : Fin 4) seq t1 c, s.instHears i.val = false ∨ (s.instSt i.val).pending = none ∨
    (∃ p, (s.instSt i.val).pending = some p ∧ p.seq ≠ seq) → exec (.followUp i seq t1 c) s = .next s.fresh) ∧
  (∀ s (i : Fin 4), exec (.followUpTimeout i) s = .next ((s.fresh).setInstSt i.val { s.instSt i.val with pending := none })) ∧
  (∀ s (i : Fin 4) m, s.instHears i.val = true → annLogOk (fget (s.inst i.val) Inst.profile) m.logInterval = false →
    exec (.announce i m) s = .next ((s.fresh).setInstSt i.val { s.instSt i.val with ctr := bump s i 6 })) ∧
  (∀ s (i : Fin 4) m, s.instHears i.val = true → annLogOk (fget (s.inst i.val) Inst.profile) m.logInterval = true →
    (∀ e ∈ s.foreignNow i.val m, e.1.source ≠ m.source → m.rank < e.1.rank) →
    ∃ t, exec (.announce i m) s = .next t ∧
      (t.instSt i.val).parent = some ⟨m.gm, m.source, m.rank, m.logInterval, 0, m.logDelayReq, m.timescale⟩ ∧
      fget (t.inst i.val) Inst.gmId = m.gm.toNat ∧ (t.instSt i.val).ctr = bump s i 1 ∧ (t.instSt i.val).foreign = s.foreignNow i.val m ∧
      (fget (s.inst i.val) Inst.instState = 0 ∨ fget (s.inst i.val) Inst.instState = 3 → fget (t.inst i.val) Inst.instState = 1) ∧
      (fget (s.inst i.val) Inst.instState ≠ 0 → fget (s.inst i.val) Inst.gmId ≠ m.gm.toNat → (0xEB, locPtp) ∈ t.flt.status)) ∧
  (∀ s (i : Fin 4) m p b, s.instHears i.val = true → annLogOk (fget (s.inst i.val) Inst.profile) m.logInterval = true →
    (s.instSt i.val).parent = some p → p.port ≠ m.source → b ∈ s.foreignNow i.val m → b.1.source = p.port →
    (∀ e ∈ s.foreignNow i.val m, b.1.rank ≤ e.1.rank) → ∃ t, exec (.announce i m) s = .next t ∧ t.instSt i.val =
      { s.instSt i.val with ctr := bump s i 1, foreign := s.foreignNow i.val m } ∧ t.ptp.inst = s.ptp.inst ∧ t.flt = s.flt) ∧
  (∀ s (i : Fin 4) seq t4 c d ms, s.instHears i.val = true → (s.instSt i.val).delay = some d → (s.instSt i.val).ms = some ms → d.seq = seq →
    d.soft = false → fbit (s.inst i.val) Inst.delayMech = false → ∃ t, exec (.delayResp i seq t4 c) s = .next t ∧ t.instSt i.val =
      { s.instSt i.val with ctr := bump s i 2, delay := none, path := some ((ms + (t4 - d.sent - c)).fdiv 2) } ∧
      t.ptp.inst = s.ptp.inst ∧ t.ptp.servo = s.ptp.servo) ∧
  (∀ s (i : Fin 4) seq t4 c, s.instHears i.val = true → (s.instSt i.val).delay = none →
    exec (.delayResp i seq t4 c) s = .next ((s.fresh).setInstSt i.val { s.instSt i.val with ctr := bump s i 2 })) ∧
  (∀ s (i : Fin 4) p, s.instHears i.val = true → (s.instSt i.val).parent = some p →
    ∀ b, ∃ t, exec (.delayReq i b) s = .next t ∧ t.instSt i.val = { s.instSt i.val with reqSeq := (s.instSt i.val).reqSeq + 1 } ∧
      (s.sub (instSub (s.inst i.val))).txq ++ [.ptp i.val (if fbit (s.inst i.val) Inst.delayMech then 2 else 1) (s.instSt i.val).reqSeq b] =
        (t.sub (instSub (s.inst i.val))).txq ∧ t.emitted = []) ∧
  (∀ s (i : Fin 4) b, s.instHears i.val = true → (s.instSt i.val).parent = none → fbit (s.inst i.val) Inst.delayMech = true →
    fget (s.inst i.val) Inst.delayReqLog ≠ 127 → ∃ t, exec (.delayReq i b) s = .next t ∧ (t.sub (instSub (s.inst i.val))).txq =
      (s.sub (instSub (s.inst i.val))).txq ++ [.ptp i.val 2 (s.instSt i.val).reqSeq b]) ∧
  (∀ s (i : Fin 4) b, s.instHears i.val = false ∨ ((s.instSt i.val).parent = none ∧
    (fbit (s.inst i.val) Inst.delayMech = false ∨ fget (s.inst i.val) Inst.delayReqLog = 127)) → exec (.delayReq i b) s = .next s.fresh) ∧
  (∀ s (i : Fin 4) (p : Fin 32) kind seq rest, s.instHears i.val = true → (s.sub p.val).txq = .ptp i.val kind seq false :: rest →
    s.subUp p.val = true → (s.sub p.val).mgmtHold.on s.time.clk = false → ∃ t, exec (.mgmtFrameSend p) s = .next t ∧
      t.instSt i.val = if kind < 3 then { s.instSt i.val with
        ctr := bump s i 3, delay := some ⟨seq, (s.now : Int) + (s.rxCorr i.val).2, 0, 0, 0, false, false⟩ } else s.instSt i.val) ∧
  (∀ s (i : Fin 4) seq, s.instHears i.val = true → fbit (s.inst i.val) Inst.delayMech = true →
    ∃ t, exec (.pdelayReq i seq false) s = .next t ∧ t.ptp = s.ptp ∧ (t.sub (instSub (s.inst i.val))).txq =
      (s.sub (instSub (s.inst i.val))).txq ++ [.ptp i.val 3 seq false, .ptp i.val 4 seq false]) ∧
  (∀ s (i : Fin 4) seq b, s.instHears i.val = true → fbit (s.inst i.val) Inst.delayMech = false → exec (.pdelayReq i seq b) s = .next s.fresh) ∧
  (∀ s (i : Fin 4) seq t2 c d, s.instHears i.val = true → (s.instSt i.val).delay = some d → d.seq = seq →
    fbit (s.inst i.val) Inst.delayMech = true → ∃ t, exec (.pdelayResp i seq t2 c false) s = .next t ∧
      (t.instSt i.val).delay = some { d with t2 := t2, t4 := (s.now : Int) - (s.rxCorr i.val).1, corr := c, answered := true }) ∧
  (∀ s (i : Fin 4) seq t3 c d, s.instHears i.val = true → (s.instSt i.val).delay = some d → d.seq = seq → d.answered = true → d.soft = false →
    ∃ t, exec (.pdelayRespFollowUp i seq t3 c) s = .next t ∧ t.instSt i.val = { s.instSt i.val with
      delay := none, path := some ((d.t4 - d.sent - (t3 - d.t2) - d.corr - c).fdiv 2) } ∧ t.ptp.inst = s.ptp.inst) ∧
  (∀ s (i : Fin 4), s.instHears i.val = true → exec (.ptpManagementMessage i) s = .next ((s.fresh).setInstSt i.val
    { s.instSt i.val with ignored := satAdd 32 (s.instSt i.val).ignored 1 })) ∧
  (∀ s (i : Fin 4), s.instHears i.val = false → exec (.ptpManagementMessage i) s = .next s.fresh ∧
    (∀ m, exec (.announce i m) s = .next s.fresh) ∧ (∀ q t4 c, exec (.delayResp i q t4 c) s = .next s.fresh) ∧
    (∀ q t2 c b, exec (.pdelayResp i q t2 c b) s = .next s.fresh) ∧ ∀ q t3 c, exec (.pdelayRespFollowUp i q t3 c) s = .next s.fresh) ∧
  (∀ s (i : Fin 4), fbit (s.inst i.val) Inst.instEn = true → s.fwRuns = true →
    fget (s.inst i.val) Inst.instState = 1 ∨ fget (s.inst i.val) Inst.instState = 2 →
    (∃ t, exec (.announceTimeout i) s = .next t ∧ fget (t.inst i.val) Inst.instState = 3 ∧ fget (t.inst i.val) Inst.reason = 1 ∧
      (t.instSt i.val).parent = none ∧ (0xEC, locPtp) ∈ t.flt.status) ∧
    ∃ t, exec (.syncTimeout i) s = .next t ∧ fget (t.inst i.val) Inst.instState = 3 ∧ fget (t.inst i.val) Inst.reason = 2 ∧
      (t.instSt i.val).parent = none ∧ (0xEC, locPtp) ∈ t.flt.status) ∧
  (∀ s (i : Fin 4), fbit (s.inst i.val) Inst.instEn = false ∨ s.fwRuns = false ∨ fget (s.inst i.val) Inst.instState = 0 ∨ fget (s.inst i.val) Inst.instState = 3 →
    exec (.announceTimeout i) s = .next s.fresh ∧ exec (.syncTimeout i) s = .next s.fresh)

/-- With SERVO_SRC 1 a reading gives the offset of PTP time from engine time, which is kept; with SERVO_EN 0 the clock is not steered by it. With
another source, or while the block is reset, nothing happens. While the servo's instance is LOCKED and the firmware runs RTC_SEC takes the whole seconds of PTP time and RTC_SUB
restarts; otherwise the RTC runs on. PTP_CLOCK_FAULT is fatal: Safety Net unless this is a primary. -/
def Obligations.LocalClockIsReadSteeredAndKept : Prop :=
  (∀ s, fget s.ptp.servo Servo.servoSrc = 1 → s.blockHeld 50 = false → ∃ t, exec .engineTimeReading s = .next t ∧
    fsgn t.ptp.servo Servo.lastOffset = clampInt (-(2 ^ 31)) (2 ^ 31 - 1) ((s.now : Int) - (s.time.engine / 2 ^ 48 : Nat)) ∧
    (fbit s.ptp.servo Servo.servoEn = false → t.time = s.time ∧ t.ptp.integ = s.ptp.integ) ∧ t.ptp.inst = s.ptp.inst) ∧
  (∀ s, fget s.ptp.servo Servo.servoSrc ≠ 1 ∨ s.blockHeld 50 = true → exec .engineTimeReading s = .next s.fresh) ∧
  (∀ s, s.fwRuns = true → fget (s.inst s.ptp.using_) Inst.instState = 2 → fbit (s.inst s.ptp.using_) Inst.instEn = true →
    ∃ t, exec .rtcUpdate s = .next t ∧ fget t.pwr.aon Aon.rtcSec = s.now / 1000000000 % 2 ^ 48 ∧ fget t.pwr.aon Aon.rtcSub = 0 ∧
      t.time.xtal = 0 ∧ t.time.clk = s.time.clk) ∧
  (∀ s, s.fwRuns = false ∨ fget (s.inst s.ptp.using_) Inst.instState ≠ 2 ∨ fbit (s.inst s.ptp.using_) Inst.instEn = false →
    exec .rtcUpdate s = .next s.fresh) ∧
  (∀ s, ∃ t, exec .ptpClockFault s = .next t ∧ (0xEF, locPtp) ∈ t.flt.status ∧ (s.role ≠ .primary → t.safetyNet = true) ∧ t.ptp = s.ptp)

/-- A link detects its lanes, exchanges capabilities, and is held with CAPABILITY_MISMATCH where they do not fit; it adapts its lanes under SENSE,
steps its rate down while every eye holds, follows the deciding end, and runs once aligned, UP with all its lanes and DEGRADED otherwise. A
missing or corrupted marker is counted, and a lane that goes on failing is marked to be dropped; a dropped lane leaves the link DEGRADED, a trained
spare takes its place. Idle lanes and eyes are kept, and a link enabled that does not run starts. In any other phase nothing happens. -/
def Obligations.LinksBringUpRunAndFail : Prop :=
  (∀ s (k : Fin 7) (f : BitVec 8), (s.linkSt k.val).phase = .detect →
    let lanes := ((s.linkSt k.val).order.zipIdx.filter (fun e => maskBit f.toNat e.2 && s.laneState e.1 == laneTraining)).map (·.1)
    lanes ≠ [] → ∃ t, exec (.linkDetect k f) s = .next t ∧ (t.linkSt k.val).phase = .exchange ∧ (t.linkSt k.val).active = lanes) ∧
  (∀ s (k : Fin 7) (f : BitVec 8), (s.linkSt k.val).phase ≠ .detect → exec (.linkDetect k f) s = .next s.fresh) ∧
  (∀ s (k : Fin 7) c, (s.linkSt k.val).phase = .exchange → s.capBad k.val c = true → ∃ t, exec (.capability k c) s = .next t ∧
    (t.linkSt k.val).phase = .held ∧ (t.linkSt k.val).active = [] ∧ (0xF4, locLink k.val) ∈ t.flt.status) ∧
  (∀ s (k : Fin 7) c, (s.linkSt k.val).phase = .exchange → s.capBad k.val c = false →
    (fbit (s.linkCfg k.val) Link.bringup = true → c.rate.val = fget (s.linkCfg k.val) Link.linkRate) →
    ∃ t, exec (.capability k c) s = .next t ∧ (t.linkSt k.val).cap = some c ∧ (t.linkSt k.val).phase =
      (if fbit (s.linkCfg k.val) Link.bringup = true ∨ max (fget (s.linkCfg k.val) Link.linkRate) c.rate.val = 3 then .align else .step)) ∧
  (∀ s (k : Fin 7) c, (s.linkSt k.val).phase ≠ .exchange → exec (.capability k c) s = .next s.fresh) ∧
  (∀ s (k : Fin 7) (r : Fin 4) (m : BitVec 8), s.decides k.val = false → (s.linkSt k.val).phase = .step ∨ (s.linkSt k.val).phase = .align →
    let keep := (s.linkSt k.val).active.filter (fun l => maskBit m.toNat (((s.linkSt k.val).order.idxOf? l).getD 8))
    keep ≠ [] → ∃ t, exec (.bringupDecision k r m) s = .next t ∧ (t.linkSt k.val).active = keep ∧ (t.linkSt k.val).rate = r.val ∧
      ((t.linkSt k.val).phase = .step ∨ (t.linkSt k.val).phase = .align)) ∧
  (∀ s (k : Fin 7) r m, s.decides k.val = true ∨ ((s.linkSt k.val).phase ≠ .step ∧ (s.linkSt k.val).phase ≠ .align) →
    exec (.bringupDecision k r m) s = .next s.fresh) ∧
  (∀ s (k : Fin 7) (e : List Nat), (s.linkSt k.val).phase = .step → (s.linkSt k.val).active.Nodup →
    (∀ (j : Nat) (l : Nat), (s.linkSt k.val).active[j]? = some l → fget (s.svLane l) LaneRec.eyeMin ≤ min 255 (e.getD j 0)) →
    ∃ t, exec (.rateStep k e) s = .next t ∧ (t.linkSt k.val).active = (s.linkSt k.val).active ∧
      (t.linkSt k.val).rate = (s.linkSt k.val).rate - 1 ∧
      (t.linkSt k.val).phase = (if s.targetRate k.val < (s.linkSt k.val).rate - 1 then .step else .align) ∧
      (∀ (j : Nat) (l : Nat), (s.linkSt k.val).active[j]? = some l → fget (t.svLane l) LaneRec.eye = min 255 (e.getD j 0))) ∧
  (∀ s (k : Fin 7) e, (s.linkSt k.val).phase ≠ .step → exec (.rateStep k e) s = .next s.fresh) ∧
  (∀ s (k : Fin 7) (m : BitVec 8), (s.linkSt k.val).phase = .adapt →
    (∃ t, exec (.senseAdapt k m .straight) s = .next t ∧ (t.linkSt k.val).phase = .exchange ∧
      (t.linkSt k.val).active = (s.linkSt k.val).order.filter (fun l => s.laneState l == laneTraining) ∧
      ∀ e ∈ (s.linkSt k.val).order.zipIdx, maskBit m.toNat e.2 = true → fbit (t.svLane e.1) LaneRec.polInv = true) ∧
    (∃ t, exec (.senseAdapt k m .reversed) s = .next t ∧ (t.linkSt k.val).phase = .exchange ∧
      (t.linkSt k.val).order = (s.linkSt k.val).order.reverse) ∧
    ∃ t, exec (.senseAdapt k m .other) s = .next t ∧ (t.linkSt k.val).phase = .held ∧
      ((s.linkSt k.val).lossSaid = false → (0xF1, locLink k.val) ∈ t.flt.status)) ∧
  (∀ s (k : Fin 7) m o, (s.linkSt k.val).phase ≠ .adapt → exec (.senseAdapt k m o) s = .next s.fresh) ∧
  (∀ s (k : Fin 7), (s.linkSt k.val).phase = .align → ∃ t, exec (.linkAlign k) s = .next t ∧ (t.linkSt k.val).phase = .run ∧
    (∀ l ∈ (s.linkSt k.val).active, l ∈ (s.linkSt k.val).order → t.laneState l = laneActive) ∧
    ((s.linkSt k.val).active.length = s.laneCount k.val → fget (t.linkRec k.val) Link.linkState = 2 ∧ (0xF0, locLink k.val) ∈ t.flt.status) ∧
    ((s.linkSt k.val).active.length ≠ s.laneCount k.val → fget (t.linkRec k.val) Link.linkState = 3 ∧ (0xF2, locLink k.val) ∈ t.flt.status)) ∧
  (∀ s (k : Fin 7), (s.linkSt k.val).phase ≠ .align → exec (.linkAlign k) s = .next s.fresh) ∧
  (∀ s (k : Fin 7), s.linkOn k.val = true → s.linkRuns k.val = false → (∀ b ∈ [40, 41, 42, 43], s.blockHeld b = false) →
    (∃ l ∈ s.startOrder k.val, s.laneState l ≠ laneFailed) → ∃ t, exec (.linkRetry k) s = .next t ∧
      (t.linkSt k.val).phase = (if fbit (s.linkCfg k.val) Link.bringup = true then .adapt else .detect) ∧
      fget (t.linkRec k.val) Link.linkState = 1 ∧ (t.linkSt k.val).active = [] ∧ (t.linkSt k.val).order = s.startOrder k.val) ∧
  (∀ s (k : Fin 7), s.linkOn k.val = false ∨ s.linkRuns k.val = true → exec (.linkRetry k) s = .next s.fresh) ∧
  (∀ s (k : Fin 7) (l : Fin 48) st, s.linkOfLane l.val = some k.val → s.linkRuns k.val = true → l.val ∈ (s.linkSt k.val).active →
    (s.svRun l.val).idle = none → (s.svRun l.val).stuffNow + st ≤ 8 → ∃ t, exec (.laneMarker l true st) s = .next t ∧
      (t.svRun l.val).missing = 0 ∧ (t.svRun l.val).stuffNow = 0 ∧ (t.svRun l.val).stuffErr = sat32 (s.svRun l.val).stuffErr st ∧
      (t.svRun l.val).markerLoss = (s.svRun l.val).markerLoss ∧ t.flt = s.flt) ∧
  (∀ s (k : Fin 7) (l : Fin 48) st, s.linkOfLane l.val = some k.val → s.linkRuns k.val = true → l.val ∈ (s.linkSt k.val).active →
    (s.svRun l.val).idle = none → (s.svRun l.val).stuffNow + st ≤ 8 → (s.svRun l.val).missing = 0 →
    ∃ t, exec (.laneMarker l false st) s = .next t ∧ (t.svRun l.val).missing = 1 ∧
      (t.svRun l.val).markerLoss = sat32 (s.svRun l.val).markerLoss 1) ∧
  (∀ s (k : Fin 7) (l : Fin 48) st x, s.linkOfLane l.val = some k.val → s.linkRuns k.val = true → l.val ∈ (s.linkSt k.val).active →
    (s.svRun l.val).idle = none → 1 ≤ (s.svRun l.val).missing → x ∈ (s.linkSt k.val).active → x ≠ l.val → (s.svRun x).failing = false →
    ∃ t, exec (.laneMarker l false st) s = .next t ∧ (t.svRun l.val).failing = true ∧
      (t.svRun l.val).markerLoss = sat32 (s.svRun l.val).markerLoss 1 ∧ (t.linkSt k.val).active = (s.linkSt k.val).active) ∧
  (∀ s (l : Fin 48) a st, s.linkOfLane l.val = none → exec (.laneMarker l a st) s = .next s.fresh ∧ exec (.electricalIdle l) s = .next s.fresh) ∧
  (∀ s (k : Fin 7) (l : Fin 48), s.linkRuns k.val = true → l.val ∈ (s.linkSt k.val).active →
    (s.linkSt k.val).active.filter (· != l.val) ≠ [] → ∃ t, exec (.laneDrop k l) s = .next t ∧
      (t.linkSt k.val).active = (s.linkSt k.val).active.filter (· != l.val) ∧ t.laneState l.val = laneFailed ∧
      fget (t.linkRec k.val) Link.linkState = 3 ∧ (0xF2, locLink k.val) ∈ t.flt.status) ∧
  (∀ s (k : Fin 7) (l : Fin 48), s.linkRuns k.val = false ∨ l.val ∉ (s.linkSt k.val).active → exec (.laneDrop k l) s = .next s.fresh) ∧
  (∀ s (k : Fin 7) (l : Fin 48) old pos, s.linkRuns k.val = true → maskBit (fget (s.linkCfg k.val) Link.spares) l.val = true →
    s.laneState l.val = laneTraining → (s.linkSt k.val).order.zipIdx.find? (fun e => !(s.linkSt k.val).active.contains e.1) = some (old, pos) →
    ∃ t, exec (.spareLaneTrained k l) s = .next t ∧ l.val ∈ (t.linkSt k.val).active ∧
      (t.linkSt k.val).order = (s.linkSt k.val).order.map (fun x => if x == old then l.val else x) ∧ t.laneState l.val = laneActive) ∧
  (∀ s (k : Fin 7) (l : Fin 48), s.linkRuns k.val = false ∨ s.laneState l.val ≠ laneTraining → exec (.spareLaneTrained k l) s = .next s.fresh) ∧
  (∀ s (k : Fin 7) (l : Fin 48), s.linkOfLane l.val = some k.val → s.linkRuns k.val = true → fbit (s.linkCfg k.val) Link.idleEn = true →
    l.val ∈ (s.linkSt k.val).active → (s.svRun l.val).idle = none →
    exec (.electricalIdle l) s = .next ((s.fresh).setSvRun l.val { s.svRun l.val with idle := some s.time.clk })) ∧
  (∀ s (x : Fin 224) (h v : BitVec 8), x.val < 176 → exec (.eyeUpdate x h v) s =
    .next ((s.fresh).setTest x.val { s.testLane x.val with eye := h.toNat * v.toNat / 255 })) ∧
  (∀ s (x : Fin 224) (h v : BitVec 8), 176 ≤ x.val → s.laneState (x.val - 176) = laneTraining ∨ s.laneState (x.val - 176) = laneActive →
    ∃ t, exec (.eyeUpdate x h v) s = .next t ∧ fget (t.svLane (x.val - 176)) LaneRec.eye = h.toNat * v.toNat / 255 ∧
      (h.toNat * v.toNat / 255 < fget (s.svLane (x.val - 176)) LaneRec.eyeAlarm → (s.svRun (x.val - 176)).eyeLow = 99 →
        (s.svRun (x.val - 176)).eyeSaid = false → (0xF3, locSvanumLane (x.val - 176)) ∈ t.flt.status ∧ (t.svRun (x.val - 176)).eyeSaid = true) ∧
      (fget (s.svLane (x.val - 176)) LaneRec.eyeAlarm ≤ h.toNat * v.toNat / 255 → (t.svRun (x.val - 176)).eyeLow = 0))

/-- A tile from a member adds what its link counted; the first tile of a unit fixes the offset between the exporter's positions and this ring's,
and tiles before a unit starts are not taken. An abandon keeps where the ring resumes. A TIME cell keeps the sender's times and leader; one sent
leaves with this device's times noted. An image request by a booting peer is answered with messages, one for each part of the running image. With no link, record
or request standing, nothing happens. -/
def Obligations.LinksCarryTilesTimeAndImages : Prop :=
  (∀ s (i : Fin 4096) c, linkTo s (fget (s.imp i.val) Import.fromF) = none → exec (.importTile i c) s = .next s.fresh) ∧
  (∀ s (i : Fin 4096) c k, linkTo s (fget (s.imp i.val) Import.fromF) = some k → ∃ t, exec (.importTile i c) s = .next t ∧
    (t.linkSt k).ctr = ((s.linkSt k).ctr.zip [c.fecCorr, c.fecUncorr, c.hdrErr, c.gaps]).map (fun p => sat32 p.1 p.2) ∧
    (fbit (s.imp i.val) Import.impEn = false ∨ ((s.impSt i.val).offset = none ∧ c.unitStart = false) →
      t.mem = s.mem ∧ t.trp.impSt = s.trp.impSt) ∧
    (fbit (s.imp i.val) Import.impEn = true → (s.impSt i.val).offset = none → c.unitStart = true →
      (t.impSt i.val).offset = some (c.eseq - s.nextEseq (fget (s.imp i.val) Import.impRing)))) ∧
  (∀ s (i : Fin 4096) (a b : BitVec 32) off, (s.impSt i.val).offset = some off → fbit (s.imp i.val) Import.impEn = true →
    ∃ t, exec (.abandon i a b) s = .next t ∧ (t.impSt i.val).resumeAt = some (b - off) ∧ (t.impSt i.val).offset = some off) ∧
  (∀ s (i : Fin 4096) a b, (s.impSt i.val).offset = none ∨ fbit (s.imp i.val) Import.impEn = false →
    exec (.abandon i a b) s = .next s.fresh) ∧
  (∀ s (k : Fin 8) c, (k.val < 7 ∧ s.linkRuns k.val = true ∧ fbit s.trp.rec_ TroupeRec.troupeEn = true) ∨ (k.val = 7 ∧ s.twinOn = true) →
    ∃ t, exec (.timeCell k c) s = .next t ∧ (t.linkSt k.val).lastArr = c.at_ ∧ (t.linkSt k.val).peerArr = (s.linkSt k.val).lastArr ∧
      (t.linkSt k.val).peerDep = c.dep ∧ (t.linkSt k.val).leader = c.leader.val ∧ (t.linkSt k.val).hops = c.hops.toNat) ∧
  (∀ s (k : Fin 8) c, (k.val = 7 ∧ s.twinOn = false) ∨ (k.val < 7 ∧ (s.linkRuns k.val = false ∨ fbit s.trp.rec_ TroupeRec.troupeEn = false)) →
    exec (.timeCell k c) s = .next s.fresh ∧ exec (.timeCellSend k) s = .next s.fresh) ∧
  (∀ s (k : Fin 8), (k.val < 7 ∧ s.linkRuns k.val = true ∧ fbit s.trp.rec_ TroupeRec.troupeEn = true) ∨ (k.val = 7 ∧ s.twinOn = true) →
    ∃ t b, exec (.timeCellSend k) s = .next t ∧ t.emitted = [.cell k.val 5 b] ∧ (t.linkSt k.val).tDep = s.now ∧
      (t.linkSt k.val).lseq = (s.linkSt k.val).lseq + 1) ∧
  (∀ s (k : Fin 7), s.pwr.troupeId = 0 → s.pwr.bootState = .firmware → fbit (s.linkRec k.val) Link.linkEn = true →
    (s.linkSt k.val).boot = true → s.linkRuns k.val = true → (s.slotBytes s.activeSlot).take (s.slotSize s.activeSlot) ≠ [] →
    let img := (s.slotBytes s.activeSlot).take (s.slotSize s.activeSlot)
    ∃ t, exec (.bootImageRequest k) s = .next t ∧ t.emitted ≠ [] ∧ (∀ e ∈ t.emitted, ∃ b, e = .cell k.val 3 b) ∧
      t = (imageParts (img.length / 60000 + 1) 0 img).foldl (fun u b => u.sendMessage k.val msgImage b) s.fresh) ∧
  (∀ s (k : Fin 7), s.pwr.troupeId ≠ 0 ∨ s.pwr.bootState ≠ .firmware ∨ (s.linkSt k.val).boot = false ∨ s.linkRuns k.val = false →
    exec (.bootImageRequest k) s = .next s.fresh)

/-- On a device ACTIVE with TWIN_EN and no role: a primary twin makes it SHADOW; equal straps SHADOW with TWIN_ISOLATED; otherwise the strap
decides; unheard, TWIN_ONAIR_IN high makes it an isolated SHADOW, low PRIMARY. A heartbeat is numbered and sent; one received is kept and its
path is up, a bad one counted. A silent path is down, TWIN_PATH_LOST while the other stands; a SHADOW that hears neither is isolated while
TWIN_ONAIR_IN is high. A fall counts after 1 ms high on a SHADOW and, unconfirmed, a ready one takes over; at Y the SHADOW is PRIMARY and the
old PRIMARY SHADOW, with TWIN_TAKEOVER, in Safety Net after a fatal fault. -/
def Obligations.TwinsTakeRolesAndTakeOver : Prop :=
  (∀ s, s.twinOn = true → s.pwr.power = .active → s.role = .solo → ∃ t, exec .roleChoice s = .next t ∧
    (s.pathOk false = true ∨ s.pathOk true = true →
      (s.peerRole = 1 → t.role = .shadow ∧ t.sync = 1) ∧
      (s.peerRole ≠ 1 → (s.peerFlags / 64 % 2 = 1 ↔ s.pwr.twinStrap = true) → t.role = .shadow ∧ (0xF7, locTwin) ∈ t.flt.status) ∧
      (s.peerRole ≠ 1 → s.peerFlags / 64 % 2 = 1 → s.pwr.twinStrap = false → t.role = .primary) ∧
      (s.peerRole ≠ 1 → s.peerFlags / 64 % 2 ≠ 1 → s.pwr.twinStrap = true → t.role = .shadow ∧ t.flt = s.flt)) ∧
    (s.pathOk false = false → s.pathOk true = false → s.twin.onairIn = true → t.role = .shadow ∧ (0xF7, locTwin) ∈ t.flt.isolated) ∧
    (s.pathOk false = false → s.pathOk true = false → s.twin.onairIn = false → t.role = .primary ∧ t.sync = 0)) ∧
  (∀ s, s.twinOn = false ∨ s.pwr.power ≠ .active ∨ s.role ≠ .solo → exec .roleChoice s = .next s.fresh) ∧
  (∀ s, s.blockHeld 54 = false → s.twinOn = true → ∃ t, exec .heartbeatSend s = .next t ∧ t.twin.hbSeq = s.twin.hbSeq + 1 ∧
    (∃ b, Emit.cell 7 3 b ∈ t.emitted) ∧ (fbit s.ctl.sb SbRec.sbEn = true → Emit.service s.heartbeatFrame ∈ t.emitted)) ∧
  (∀ s, s.blockHeld 54 = true ∨ s.twinOn = false → exec .heartbeatSend s = .next s.fresh) ∧
  (∀ s b bs, s.twinOn = true → s.blockHeld 54 = false → (b = true → fbit s.ctl.sb SbRec.sbEn = true ∧ s.blockHeld 53 = false) →
    heartbeatOk bs = true → ∃ t, exec (.heartbeat b bs) s = .next t ∧ t.twin.hb = bs ∧ t.pathOk b = true ∧ (t.path b).seen = some s.time.clk ∧
      t.role = s.role ∧
      (∀ tf, s.role = .shadow → s.twin.fallAt = some tf → leNat ((bs.drop 3).take 1) % 2 = 1 → tf ≤ leNat ((bs.drop 16).take 8) + 10000 →
        t.twin.fallAt = none ∧ (0xFA, locTwin) ∈ t.flt.status)) ∧
  (∀ s b bs, s.twinOn = true → s.blockHeld 54 = false → (b = true → fbit s.ctl.sb SbRec.sbEn = true ∧ s.blockHeld 53 = false) →
    heartbeatOk bs = false → ∃ t, exec (.heartbeat b bs) s = .next t ∧ (t.path b).bad = sat32 (s.path b).bad 1 ∧ (t.path b).run = 0 ∧
      t.twin.hb = s.twin.hb ∧ t.twin.rec_ = s.twin.rec_) ∧
  (∀ s b bs, s.twinOn = false ∨ s.blockHeld 54 = true ∨ (b = true ∧ fbit s.ctl.sb SbRec.sbEn = false) →
    exec (.heartbeat b bs) s = .next s.fresh) ∧
  (∀ s b, s.twinOn = true → ∃ t, exec (.pathSilence b) s = .next t ∧ t.pathOk b = false ∧ (t.path b).run = 0 ∧
    (s.pathOk (!b) = true → (s.path b).lost = false → (0xF6, locTwin) ∈ t.flt.status ∧ (t.path b).lost = true) ∧
    (s.pathOk (!b) = false → s.role = .shadow → s.twin.onairIn = true → (0xF7, locTwin) ∈ t.flt.status ∧ t.twin.take = s.twin.take)) ∧
  (∀ s b, s.twinOn = false → exec (.pathSilence b) s = .next s.fresh) ∧
  (∀ s, exec .twinOnairInRise s = .next { s with emitted := [], twin := { s.twin with onairIn := true, onairSince := s.time.clk } }) ∧
  (∀ s, ∃ t, exec .twinOnairInFall s = .next t ∧ t.twin.onairIn = false ∧
    (s.role = .shadow → s.twin.onairIn = true → 1000000 ≤ (s.time.clk - s.twin.onairSince).toNat → t.twin.fallAt = some s.now) ∧
    (s.role ≠ .shadow ∨ s.twin.onairIn = false ∨ (s.time.clk - s.twin.onairSince).toNat < 1000000 → t.twin.fallAt = s.twin.fallAt)) ∧
  (∀ s tf, s.twin.fallAt = some tf → ∃ t, exec .onairConfirmExpiry s = .next t ∧ t.twin.fallAt = none ∧
    (s.ready = true → s.isIsolated 0xF7 locTwin = false → s.twin.take = none →
      t.twin.take = some (tf + 100000 * fget s.twin.rec_ Twin.onairConfirm, 2)) ∧
    (s.ready = false ∨ s.isIsolated 0xF7 locTwin = true → t.twin.take = s.twin.take)) ∧
  (∀ s, s.twin.fallAt = none → exec .onairConfirmExpiry s = .next s.fresh) ∧
  (∀ s y tr, s.twin.take = some (y, tr) → s.role = .shadow → ∃ t, exec .takeoverPoint s = .next t ∧ t.role = .primary ∧
    t.twin.take = none ∧ t.twin.handAt = y + 100000 ∧ (0xF8, locTwin) ∈ t.flt.status ∧ t.tst.shadowRun = none) ∧
  (∀ s y, s.twin.take = none → s.twin.yield = some y → s.role = .primary → ∃ t, exec .takeoverPoint s = .next t ∧ t.role = .shadow ∧
    t.twin.yield = none ∧ t.twin.handAt = y.at_ + 100000 ∧ (0xF8, locTwin) ∈ t.flt.status ∧ t.twin.mirroring = false ∧
    (y.reason = 1 → t.safetyNet = true)) ∧
  (∀ s, s.twin.take = none → s.twin.yield = none → exec .takeoverPoint s = .next s.fresh)

/-- A SHADOW queues a mirror in sequence that is in time, having executed one with a TARGET of its own, and one out of sequence or late leaves it UNSYNCED with TWIN_SYNC_LOST. At its TARGET the
oldest mirror is executed and its number kept. An acknowledgement marks its mirror, a bad status or none in time leaves the pair UNSYNCED. Digests
sent wait for their counterparts: equal ones count the output as matching, different or missing ones raise TWIN_DIVERGED once per episode. A
resynchronisation starts 500 ms ahead where it may, and at its point both sides mirror again from nothing; one that does not settle is lost. -/
def Obligations.TwinsMirrorCompareAndResynchronise : Prop :=
  (∀ s (n : BitVec 32) (op : BitVec 16) q (st : BitVec 16) (tg : BitVec 64), Req.wf q = true → s.role = .shadow → s.pwr.bootState = .firmware →
    n.toNat = s.nextMirror → s.now ≤ tg.toNat → ownTarget op.toNat q = 0 → ∃ t, exec (.mirror n op q st tg) s = .next t ∧
      t.twin.mirrors = s.twin.mirrors ++ [⟨n.toNat, op.toNat, q, tg.toNat, false, true, []⟩] ∧ (∃ b, Emit.cell 7 3 b ∈ t.emitted) ∧
      t.mem = s.mem ∧ t.rte = s.rte ∧ t.bud = s.bud ∧ t.sdi = s.sdi ∧ t.eth = s.eth ∧ t.flo = s.flo ∧ t.cmp = s.cmp ∧ t.ref = s.ref) ∧
  (∀ s (n : BitVec 32) (op : BitVec 16) q (st : BitVec 16) (tg : BitVec 64) (m : Mirror) u, Req.wf q = true → s.role = .shadow →
    s.pwr.bootState = .firmware → n.toNat = s.nextMirror → s.now ≤ tg.toNat → ownTarget op.toNat q ≠ 0 →
    m = ⟨n.toNat, op.toNat, q, tg.toNat, true, true, []⟩ → u = ansState s.fresh (s.fresh.runMirror m) → ∃ t, exec (.mirror n op q st tg) s = .next t ∧
      t.twin.mirrors = u.twin.mirrors ++ [m] ∧ t.mem = u.mem ∧ t.rte = u.rte ∧ t.bud = u.bud ∧ t.cmp = u.cmp ∧ t.cal = u.cal) ∧
  (∀ s n op q st (tg : BitVec 64), Req.wf q = true → s.role = .shadow → s.pwr.bootState = .firmware →
    n.toNat ≠ s.nextMirror ∨ tg.toNat < s.now → s.sync = 1 ∨ s.sync = 2 → ∃ t, exec (.mirror n op q st tg) s = .next t ∧ t.sync = 3 ∧
      (0xFB, locTwin) ∈ t.flt.status ∧ t.twin.mirrors = s.twin.mirrors) ∧
  (∀ s n op q st tg, Req.wf q = true → s.role ≠ .shadow ∨ s.pwr.bootState ≠ .firmware → exec (.mirror n op q st tg) s = .next s.fresh) ∧
  (∀ s m rest, s.twin.mirrors = m :: rest → m.target ≤ s.now → s.pwr.bootState = .firmware → ∃ t, exec .mirrorApply s = .next t ∧
    t.twin.mirrors = rest ∧ fget t.twin.rec_ Twin.mirrorSeq = m.mseq % 2 ^ 32 ∧
    (∀ u res, m.early = false → s.fresh.runMirror m = .ok (.now u res) → t.mem = u.mem ∧ t.rte = u.rte ∧ t.bud = u.bud ∧ t.sdi = u.sdi ∧
      t.eth = u.eth ∧ t.flo = u.flo ∧ t.cmp = u.cmp ∧ t.cal = u.cal ∧ t.ref = u.ref)) ∧
  (∀ s, (s.twin.mirrors = [] ∨ ∃ m rest, s.twin.mirrors = m :: rest ∧ s.now < m.target) → exec .mirrorApply s = .next s.fresh) ∧
  (∀ s (n : BitVec 32) (st : BitVec 16) m, s.role = .primary → s.twin.mirrors.find? (fun m => m.mseq == n.toNat && !m.acked) = some m →
    ∃ t, exec (.mirrorAck n st) s = .next t ∧
      t.twin.mirrors = s.twin.mirrors.map (fun x => if x.mseq == m.mseq then { x with acked := true } else x) ∧
      (st = 0 → t.sync = s.sync) ∧ (st ≠ 0 → s.sync = 1 ∨ s.sync = 2 → t.sync = 3 ∧ (0xFB, locTwin) ∈ t.flt.status)) ∧
  (∀ s (n : BitVec 32) st, s.role ≠ .primary ∨ s.twin.mirrors.find? (fun m => m.mseq == n.toNat && !m.acked) = none →
    exec (.mirrorAck n st) s = .next s.fresh) ∧
  (∀ s m, s.role = .primary → s.sync = 1 ∨ s.sync = 2 → s.twin.mirrors.find? (fun m => !m.acked && decide (m.target ≤ s.now + 200000)) = some m →
    ∃ t, exec .mirrorAckTimeout s = .next t ∧ t.sync = 3 ∧ (0xFB, locTwin) ∈ t.flt.status ∧
      t.twin.mirrors = s.twin.mirrors.map (fun x => if x.mseq == m.mseq then { x with acked := true } else x)) ∧
  (∀ s, s.role ≠ .primary ∨ s.twin.mirrors.find? (fun m => !m.acked && decide (m.target ≤ s.now + 200000)) = none →
    exec .mirrorAckTimeout s = .next s.fresh) ∧
  (∀ s, s.twinOn = true → s.role ≠ .solo → ∃ t, exec .digestSend s = .next t ∧ t.twin.own = [] ∧ (∃ b, Emit.cell 7 3 b ∈ t.emitted) ∧
    (s.twin.theirs = [] → t.twin.mine = s.twin.mine ++ s.twin.own)) ∧
  (∀ s, s.twinOn = false ∨ s.role = .solo → exec .digestSend s = .next { s with emitted := [], twin := { s.twin with own := [] } } ∧
    ∀ l, exec (.digest l) s = .next s.fresh) ∧
  (∀ s (e : DigestEntry), s.twinOn = true → s.role ≠ .solo → s.twin.theirs = [] →
    ∃ t, exec (.digest [e]) s = .next t ∧
      (s.twin.mine.find? (fun m => m.1 == e.output.val && m.2.1 == e.frame.toNat) = none →
        t.twin.theirs = [(e.output.val, e.frame.toNat, e.digest.toNat)] ∧ t.twin.mine = s.twin.mine) ∧
      (∀ m, s.twin.mine.find? (fun m => m.1 == e.output.val && m.2.1 == e.frame.toNat) = some m →
        t.twin.theirs = [] ∧ t.twin.mine = s.twin.mine.erase m ∧
        (m.2.2 = e.digest.toNat → tget natReset t.twin.matched e.output.val = min 100 (tget natReset s.twin.matched e.output.val + 1)) ∧
        (m.2.2 ≠ e.digest.toNat → tget natReset t.twin.matched e.output.val = 0 ∧ (tget natReset s.twin.diverged e.output.val ≠ 1 →
          (0xF9, locTwin) ∈ t.flt.status ∧ fget t.twin.rec_ Twin.divCount = sat32 (fget s.twin.rec_ Twin.divCount) 1)))) ∧
  (∀ s (o : Fin 2048) e, (s.twin.mine.find? (fun e => e.1 == o.val)).or (s.twin.theirs.find? (fun e => e.1 == o.val)) = some e →
    ∃ t, exec (.digestMissing o) s = .next t ∧ e ∉ t.twin.mine ∧ e ∉ t.twin.theirs ∧
      (tget natReset s.twin.diverged o.val ≠ 1 → (0xF9, locTwin) ∈ t.flt.status)) ∧
  (∀ s (o : Fin 2048), (s.twin.mine.find? (fun e => e.1 == o.val)).or (s.twin.theirs.find? (fun e => e.1 == o.val)) = none →
    exec (.digestMissing o) s = .next s.fresh) ∧
  (∀ s, s.mayResync = true → ∃ t, exec .resyncStart s = .next t ∧ t.twin.resync = some (s.now + 500000000) ∧ t.twin.resynced = false ∧
    t.twin.lastResync = some s.time.clk ∧ ∃ b, Emit.cell 7 3 b ∈ t.emitted) ∧
  (∀ s, s.mayResync = false → exec .resyncStart s = .next s.fresh) ∧
  (∀ s c, (s.role = .shadow ∧ s.pathOk false = true) ∨ (s.role = .primary ∧ ∃ tr, s.twin.resync = some tr ∧ tr ≤ s.now) →
    ∃ t, exec (.resyncPoint c) s = .next t ∧ t.twin.resync = none ∧ t.twin.resynced = true ∧ t.twin.mirroring = true ∧ t.twin.mirrors = [] ∧
      (s.role = .shadow → fget t.twin.rec_ Twin.mirrorSeq = c.mirrorSeq.toNat)) ∧
  (∀ s c, s.role = .solo ∨ (s.role = .shadow ∧ s.pathOk false = false) ∨ (s.role = .primary ∧ s.twin.resync = none) →
    exec (.resyncPoint c) s = .next s.fresh) ∧
  (∀ s, s.twin.resynced = true → s.sync = 1 → s.role ≠ .solo → ∃ t, exec .resyncTimeout s = .next t ∧ t.sync = 3 ∧
    t.twin.resynced = false ∧ (0xFB, locTwin) ∈ t.flt.status) ∧
  (∀ s, s.twin.resynced = false ∨ s.sync ≠ 1 → exec .resyncTimeout s = .next s.fresh)

/-- With the fast domains on, a supply out of its warning band raises 0x03, one out of its limits the fatal 0x04 with its SUPPLY_OK bit 0, and
the causes last while a monitor is out; a monitor already out, or BACKUP, changes nothing. A quadrant above 105 C raises 0x06 and isolates its
Composers. Quadrants further apart than 25 mV or 20 C raise 0x05. An unlocked PLL raises the fatal 0x08, whose cause ends at lock. VBAK_LOW
clears VBAK_OK. COLLECTOR_PARITY sets PARITY_TRIP and enters Safety Net. MRAM and SRAM corrections raise 0x23 and 0x25, an uncorrectable MRAM
error marks its region bad. A temperature trip that re-arms is no trip. -/
def Obligations.DeviceFaultsAreRaised : Prop :=
  (∀ s m quad (mv : BitVec 16) back, monitorOk m quad = true → s.fastOn = true → s.pwr.vWarn.contains (monitorKey m quad) = back →
    ∃ t, exec (.supplyWarn m quad mv back) s = .next t ∧ (0x03, locAon) ∈ t.flt.status ∧
      t.pwr = { s.pwr with vWarn := if back then s.pwr.vWarn.erase (monitorKey m quad) else s.pwr.vWarn ++ [monitorKey m quad] } ∧
      ((0x03, locAon) ∈ t.flt.cause ↔ t.pwr.vWarn ≠ [])) ∧
  (∀ s m quad (mv : BitVec 16) back, monitorOk m quad = true →
    s.pwr.power = .backup ∨ s.pwr.vWarn.contains (monitorKey m quad) ≠ back → exec (.supplyWarn m quad mv back) s = .next s.fresh) ∧
  (∀ s m quad (mv : BitVec 16), monitorOk m quad = true → s.fastOn = true → s.pwr.vFail.contains (monitorKey m quad) = false →
    ∃ t, exec (.supplyFail m quad mv) s = .next t ∧ (0x04, locAon) ∈ t.flt.status ∧ (s.role ≠ .primary → t.safetyNet = true) ∧
      t.pwr.vFail = s.pwr.vFail ++ [monitorKey m quad] ∧ maskBit (fget t.pwr.aon Aon.supplyOk) m.val = false) ∧
  (∀ s m quad (mv : BitVec 16), monitorOk m quad = true →
    s.pwr.power = .backup ∨ s.pwr.vFail.contains (monitorKey m quad) = true → exec (.supplyFail m quad mv) s = .next s.fresh) ∧
  (∀ s m quad (mv : BitVec 16), monitorOk m quad = true → s.pwr.power ≠ .backup → s.pwr.vFail.contains (monitorKey m quad) = true →
    ∃ t, exec (.supplyReturn m quad mv) s = .next t ∧ t.pwr.vFail = s.pwr.vFail.erase (monitorKey m quad) ∧
      (t.pwr.vFail = [] → (0x04, locAon) ∉ t.flt.cause)) ∧
  (∀ s m quad (mv : BitVec 16), monitorOk m quad = true → s.pwr.vFail.contains (monitorKey m quad) = false →
    exec (.supplyReturn m quad mv) s = .next s.fresh) ∧
  (∀ s (quad : Fin 4) d, s.fastOn = true → s.pwr.over105.contains quad.val = false → ∃ t, exec (.thermalOver quad d) s = .next t ∧
    (0x06, locAon) ∈ t.flt.status ∧ fbit t.pwr.aon Aon.tempOver = true ∧ t.pwr.over105 = s.pwr.over105 ++ [quad.val] ∧
    ∀ j, j < 4 → (0x06, locComp (4 * quad.val + j) 9) ∈ t.flt.isolated) ∧
  (∀ s (quad : Fin 4) d, s.pwr.power = .backup ∨ s.pwr.over105.contains quad.val = true →
    exec (.thermalOver quad d) s = .next s.fresh) ∧
  (∀ s (quad : Fin 4), s.fastOn = true → ∃ t, exec (.temperatureTripRearm quad) s = .next t ∧
    t.pwr.over105 = s.pwr.over105.erase quad.val ∧ t.pwr.trip125 = s.pwr.trip125.erase quad.val ∧
    (t.pwr.over105 = [] → (0x06, locAon) ∉ t.flt.cause ∧ fbit t.pwr.aon Aon.tempOver = false) ∧
    (t.pwr.trip125 = [] → (0x07, locAon) ∉ t.flt.cause ∧ fbit t.pwr.aon Aon.tempTrip = false)) ∧
  (∀ s v0 v1 v2 v3, s.fastOn = true → s.pwr.skewBad = false → skewOver false ([v0, v1, v2, v3].map (fun v : Int => Int.ofNat v.toNat)) = true →
    ∃ t, exec (.skewSample false v0 v1 v2 v3) s = .next t ∧ (0x05, locAon) ∈ t.flt.status ∧ t.pwr.skewBad = true) ∧
  (∀ s v0 v1 v2 v3, s.fastOn = true → s.pwr.skewBad = false → skewOver true [v0, v1, v2, v3] = true →
    ∃ t, exec (.skewSample true v0 v1 v2 v3) s = .next t ∧ (0x05, locAon) ∈ t.flt.status ∧ t.pwr.skewBad = true ∧
      t.pwr.quadC = [v0, v1, v2, v3]) ∧
  (∀ s v0 v1 v2 v3, s.fastOn = true → s.pwr.skewBad = false → skewOver false (s.pwr.quadMv.map Int.ofNat) = false →
    skewOver true [v0, v1, v2, v3] = false → exec (.skewSample true v0 v1 v2 v3) s = .next { s with
      emitted := [], pwr := { s.pwr with quadC := [v0, v1, v2, v3] } }) ∧
  (∀ s temp v0 v1 v2 v3, s.fastOn = false → exec (.skewSample temp v0 v1 v2 v3) s = .next s.fresh) ∧
  (∀ s (quad : Fin 4), s.fastOn = true → ∃ t, exec (.qpllUnlock quad) s = .next t ∧ (0x08, locAon) ∈ t.flt.status ∧ t.pwr.pllOk = false ∧
    (s.role ≠ .primary → t.safetyNet = true)) ∧
  (∀ s (quad : Fin 4), s.fastOn = false → exec (.qpllUnlock quad) s = .next s.fresh) ∧
  (∀ s, s.pwr.pllOk = false → fbit s.pwr.rstCtl RstCtl.trimDone = true → s.fastOn = true → ∃ t, exec .quadrantPllLock s = .next t ∧
    t.pwr.pllOk = true ∧ (s.releaseStep ≠ 0 → (0x08, locAon) ∉ t.flt.cause) ∧
    (s.inRelease = true → s.releaseStep = 0 → s.pwr.gapDone = true → t.releaseStep = 2)) ∧
  (∀ s, s.pwr.power ≠ .backup → ∃ t, exec .vbakLow s = .next t ∧ t.pwr.vbakLow = true ∧ fget t.pwr.aon Aon.vbakOk = 0 ∧
    (s.fastOn = true → (0x0B, locBackup) ∈ t.flt.status)) ∧
  (∀ s, s.pwr.power = .backup → exec .vbakLow s = .next s.fresh) ∧
  (∀ s, ∃ t, exec .collectorParity s = .next t ∧ fbit t.flt.ctl FaultCtl.parityTrip = true ∧ (0x20, locCollector) ∈ t.flt.status ∧
    t.safetyNet = true) ∧
  (∀ s (r : Fin 64), ∃ t, exec (.mramCorrected r) s = .next t ∧ (0x23, locMram r.val) ∈ t.flt.status ∧ t.rec_ = s.rec_ ∧ t.upd = s.upd) ∧
  (∀ s (r : Fin 64), ∃ t, exec (.mramUncorr r) s = .next t ∧ (0x24, locMram r.val) ∈ t.flt.status ∧
    (0x24, locMram r.val) ∈ t.flt.isolated ∧ t.rec_ = { s.rec_ with badRegions := addTo r.val s.rec_.badRegions } ∧ t.upd = s.upd) ∧
  (∀ s, ∃ t, exec .sramCorrected s = .next t ∧ (0x25, locCore) ∈ t.flt.status ∧ t.pwr = s.pwr)

/-- Power-on, RESET_N low, a due software reset and the fatal-fault reset clear the device and start the release in STAGING; entry to WATCH and
a THERMAL_TRIP clear it in WATCH, loss of VAUX in BACKUP, where loss of VBAK clears counters, scratch and RTC. A wake starts the release, or is
held while a supply or the 125 C trip is out. Three equal strap samples are latched; the sixteenth unequal triple halts. Trim loads from copy A,
else B; a release step waits for TRIM_DONE, the second for the PLLs. The boot ROM starts a proven image or Rescue Boot, and the firmware comes
up. A restart ends sessions and jobs, keeps the route table, and of its salvos those that are armed. -/
def Obligations.PowerStatesResetsAndBoot : Prop :=
  (∀ s, ∃ t, exec .powerOn s = .next t ∧ Cleared s t ∧ t.pwr.power = .staging ∧ t.pwr.sampling = true ∧
    fget t.pwr.cnt Cnt.cntPor = min 0xFFFF (fget s.pwr.cnt Cnt.cntPor + 1)) ∧
  (∀ s, s.fastOn = true → s.pwr.rstLow = false → ∃ t, exec .resetN s = .next t ∧ Cleared s t ∧ t.pwr.power = .staging ∧
    t.pwr.rstLow = true ∧ t.pwr.sampling = true ∧ fget t.pwr.cnt Cnt.cntPin = min 0xFFFF (fget s.pwr.cnt Cnt.cntPin + 1)) ∧
  (∀ s, s.pwr.rstLow = true → exec .resetN s = .next s.fresh) ∧
  (∀ s, s.fastOn = false → s.pwr.rstLow = false →
    exec .resetN s = .next { s with emitted := [], pwr := { s.pwr with rstLow := true } }) ∧
  (∀ s, exec .resetNRise s = .next { s with emitted := [], pwr := { s.pwr with rstLow := false } }) ∧
  (∀ s d, s.pwr.due = some (.soft, d) → ∃ t, exec .softwareReset s = .next t ∧ Cleared s t ∧ t.pwr.power = .staging ∧
    fget t.pwr.cnt Cnt.cntSoft = min 0xFFFF (fget s.pwr.cnt Cnt.cntSoft + 1)) ∧
  (∀ s d, s.pwr.due = some (.troupe, d) → ∃ t, exec .softwareReset s = .next t ∧ Cleared s t ∧ t.pwr.power = .staging ∧
    fget t.pwr.cnt Cnt.cntTroupe = min 0xFFFF (fget s.pwr.cnt Cnt.cntTroupe + 1)) ∧
  (∀ s, s.pwr.due = none → exec .softwareReset s = .next s.fresh ∧ exec .watchEntry s = .next s.fresh ∧
    exec .ringmasterRestart s = .next s.fresh) ∧
  (∀ s, s.safetyNet = true → s.flt.fatalAt.isSome = true → ∃ t, exec .fatalFaultReset s = .next t ∧ Cleared s t ∧
    t.pwr.power = .staging ∧ fget t.pwr.cnt Cnt.cntFatal = min 0xFFFF (fget s.pwr.cnt Cnt.cntFatal + 1)) ∧
  (∀ s, s.safetyNet = false ∨ s.flt.fatalAt = none → exec .fatalFaultReset s = .next s.fresh) ∧
  (∀ s d, s.pwr.due = some (.watch, d) → s.pwr.power = .staging →
    ∃ t, exec .watchEntry s = .next t ∧ Cleared s t ∧ t.pwr.power = .watch ∧ t.pwr.cnt = s.pwr.cnt) ∧
  (∀ s (quad : Fin 4) d, s.fastOn = true → s.pwr.trip125.contains quad.val = false → ∃ t, exec (.thermalTrip quad d) s = .next t ∧
    Cleared s t ∧ t.pwr.power = .watch ∧ t.pwr.thermalLater.isSome = true ∧ fbit t.pwr.aon Aon.tempTrip = true ∧
    fget t.pwr.cnt Cnt.cntThermal = min 0xFFFF (fget s.pwr.cnt Cnt.cntThermal + 1)) ∧
  (∀ s (quad : Fin 4) d, s.pwr.power = .backup ∨ s.pwr.trip125.contains quad.val = true →
    exec (.thermalTrip quad d) s = .next s.fresh) ∧
  (∀ s, ∃ t, exec .vauxLoss s = .next t ∧ Cleared s t ∧ t.pwr.power = .backup ∧ t.pwr.cnt = s.pwr.cnt) ∧
  (∀ s, s.pwr.power = .backup → ∃ t, exec .vbakLoss s = .next t ∧ t.pwr.cnt = resetRec 256 Cnt.layout ∧ t.pwr.scratch = 0 ∧
    fget t.pwr.aon Aon.rtcSec = 0 ∧ fget t.pwr.aon Aon.rtcSub = 0) ∧
  (∀ s, s.pwr.power ≠ .backup → exec .vbakLoss s = .next s.fresh) ∧
  (∀ s w, s.pwr.power = .watch → s.wakeEnabled w = true → s.unheld = true → s.pwr.wakeHeld = none →
    ∃ t, exec (.wakeStart w) s = .next t ∧ Cleared s t ∧ t.pwr.power = .staging ∧ fget t.pwr.aon Aon.wakeCause = wakeCode w ∧
      t.pwr.sampling = (wakeCode w == 1)) ∧
  (∀ s w, s.pwr.power = .watch → s.wakeEnabled w = true → s.unheld = false → ∃ t, exec (.wakeStart w) s = .next t ∧
    t.pwr.power = .watch ∧ t.pwr.wakeHeld = some (s.pwr.wakeHeld.getD (wakeCode w))) ∧
  (∀ s w, s.pwr.power ≠ .watch ∨ s.wakeEnabled w = false → exec (.wakeStart w) s = .next s.fresh) ∧
  (∀ s (quad : Fin 4) c, s.pwr.power = .watch → s.pwr.wakeHeld = some c → s.pwr.vFail = [] → s.pwr.trip125.erase quad.val = [] →
    s.pwr.rstLow = false → ∃ t, exec (.temperatureTripRearm quad) s = .next t ∧ Cleared s t ∧ t.pwr.power = .staging) ∧
  (∀ s (v : BitVec 8), s.pwr.sampling = true → s.unheld = true → s.fastOn = true → v.toNat / 4 % 4 ≠ 3 →
    (v.toNat % 4 = 3 → v.toNat / 16 % 8 ≠ 0) → ∃ t, exec (.strapSampling v v v) s = .next t ∧ t.pwr.sampling = false ∧ t.pwr.halt = s.pwr.halt ∧
      t.pwr.bootSrc.toNat = v.toNat % 4 ∧ t.pwr.clkMode.toNat = v.toNat / 4 % 4 ∧ t.pwr.troupeId.toNat = v.toNat / 16 % 8 ∧
      t.pwr.twinStrap = v.getLsbD 7) ∧
  (∀ s (v : BitVec 8), s.pwr.sampling = true → s.unheld = true → s.fastOn = true → v.toNat / 4 % 4 = 3 →
    ∃ t, exec (.strapSampling v v v) s = .next t ∧ t.pwr.halt = some .clkMode ∧ t.pwr.sampling = false) ∧
  (∀ s (v : BitVec 8), s.pwr.sampling = true → s.unheld = true → s.fastOn = true → v.toNat / 4 % 4 ≠ 3 → v.toNat % 4 = 3 →
    v.toNat / 16 % 8 = 0 → ∃ t, exec (.strapSampling v v v) s = .next t ∧ t.pwr.halt = some .strap ∧ t.pwr.sampling = false) ∧
  (∀ s (a b c : BitVec 8), s.pwr.sampling = false ∨ s.unheld = false ∨ s.fastOn = false →
    exec (.strapSampling a b c) s = .next s.fresh) ∧
  (∀ s (a b c : BitVec 8), s.pwr.sampling = true → s.unheld = true → s.fastOn = true → a ≠ b ∨ b ≠ c →
    ∃ t, exec (.strapSampling a b c) s = .next t ∧ t.pwr.strapTries = s.pwr.strapTries + 1 ∧ t.pwr.bootSrc = s.pwr.bootSrc ∧
      t.pwr.halt = (if 16 ≤ s.pwr.strapTries + 1 then some .strap else s.pwr.halt)) ∧
  (∀ s, s.loadsTrim = true → s.pwr.trimA ≠ some false → ∃ t, exec (.trimLoad false true) s = .next t ∧ t.pwr.trimA = some true ∧
    fbit t.pwr.rstCtl RstCtl.trimDone = true ∧ fget t.pwr.cnt Cnt.trimFails = 0) ∧
  (∀ s, s.loadsTrim = true → s.pwr.trimA ≠ some false →
    exec (.trimLoad false false) s = .next { s with emitted := [], pwr := { s.pwr with trimA := some false } }) ∧
  (∀ s, s.loadsTrim = true → s.pwr.trimA = some false → ∃ t, exec (.trimLoad true true) s = .next t ∧ t.pwr.trimB = some true ∧
    fbit t.pwr.rstCtl RstCtl.trimDone = true ∧ fget t.pwr.cnt Cnt.trimFails = 0 ∧ Ev.plain 0x0A locAon ∈ t.pwr.notes) ∧
  (∀ s, s.loadsTrim = true → s.pwr.trimA = some false → ∃ t, exec (.trimLoad true false) s = .next t ∧
    fget t.pwr.cnt Cnt.trimFails = min 3 (fget s.pwr.cnt Cnt.trimFails + 1) ∧
    (2 ≤ fget s.pwr.cnt Cnt.trimFails → t.pwr.halt = some .trim)) ∧
  (∀ s, s.inRelease = true → fbit s.pwr.rstCtl RstCtl.trimDone = true → s.releaseStep ≠ 0 →
    ∃ t, exec .releaseStep s = .next t ∧ t.releaseStep = s.releaseStep + 1) ∧
  (∀ s, s.inRelease = true → fbit s.pwr.rstCtl RstCtl.trimDone = true → s.releaseStep = 0 → s.pwr.pllOk = true →
    ∃ t, exec .releaseStep s = .next t ∧ t.releaseStep = 2 ∧
      t.pwr.bootState = (if s.pwr.bootSrc = 1 ∨ s.pwr.bootSrc = 2 then .waitLoad else .rom)) ∧
  (∀ s, s.inRelease = true → fbit s.pwr.rstCtl RstCtl.trimDone = true → s.releaseStep = 0 → s.pwr.pllOk = false →
    exec .releaseStep s = .next { s with emitted := [], pwr := { s.pwr with gapDone := true } }) ∧
  (∀ s, s.inRelease = false ∨ fbit s.pwr.rstCtl RstCtl.trimDone = false → exec .releaseStep s = .next s.fresh) ∧
  (∀ s v, s.pwr.bootState = .rom → s.pwr.bootSrc ≠ 3 ∨ s.pwr.afterRestart = true → s.imageFails s.activeSlot v = none →
    ∃ t, exec (.imageCheck v) s = .next t ∧ t.pwr.bootState = .starting) ∧
  (∀ s v why, s.pwr.bootState = .rom → s.pwr.bootSrc ≠ 3 ∨ s.pwr.afterRestart = true → s.imageFails s.activeSlot v = some why →
    ∃ t, exec (.imageCheck v) s = .next t ∧ t.pwr.bootState = .rescue ∧ (0xFE, locMram (16 * s.activeSlot)) ∈ t.flt.status) ∧
  (∀ s v, s.pwr.bootState ≠ .rom → exec (.imageCheck v) s = .next s.fresh) ∧
  (∀ s v w (b : BitVec 16), s.pwr.bootState = .rom ∨ s.pwr.bootState = .starting → ∃ t, exec (.firmwareStart v w b) s = .next t ∧
    t.pwr.bootState = .firmware ∧ t.pwr.fwMajor = v ∧ t.pwr.fwMinor = w ∧ t.pwr.fwBuild = b ∧
    (s.pwr.powerWas.isSome = true → (0x00, locAon) ∈ t.flt.status)) ∧
  (∀ s, s.coresRun = true → ∃ t, exec .rmWatchdog s = .next t ∧ (0x09, locCore) ∈ t.flt.status ∧ t.ctl.sessions = [] ∧ t.ctl.jobs = [] ∧
    t.pwr.bootState = .rom ∧ t.bud.rebuild = true ∧ t.rte = { s.rte with salvos := s.rebuiltSalvos } ∧ t.pwr.power = s.pwr.power ∧
    fget t.pwr.cnt Cnt.cntWdog = min 0xFFFF (fget s.pwr.cnt Cnt.cntWdog + 1)) ∧
  (∀ s, s.coresRun = true → ∃ t, exec .sramUncorr s = .next t ∧ (0x26, locCore) ∈ t.flt.status ∧ t.ctl.sessions = [] ∧ t.ctl.jobs = [] ∧
    t.pwr.bootState = .rom ∧ t.bud.rebuild = true ∧ t.rte = { s.rte with salvos := s.rebuiltSalvos } ∧ t.pwr.cnt = s.pwr.cnt) ∧
  (∀ s d, s.pwr.due = some (.restart, d) → ∃ t, exec .ringmasterRestart s = .next t ∧ t.ctl.sessions = [] ∧ t.ctl.jobs = [] ∧
    t.pwr.bootState = .rom ∧ t.bud.rebuild = true ∧ t.rte = { s.rte with salvos := s.rebuiltSalvos } ∧ t.pwr.cnt = s.pwr.cnt)

/-- A record write takes the oldest entry off the queue and, where its limit lets it, into the slot of the next sequence number; a failed one
raises 0x27, and a suppressed one is counted; with no firmware, a held recorder or an empty queue nothing is written. The host link's rate is kept and
raised as 0xFC; PCIe reset ends enumeration, and only writes still wait. A block is released once. Under boot from the Troupe the ROM asks member 0 again. A memory test
ends with its channels' contents undefined and answers its command with the counts; a shadow check answers with its lanes; a checker keeps
its lock and counts what it compared while locked. With nothing running these change nothing. -/
def Obligations.RecorderHostLinkAndTestEvents : Prop :=
  (∀ s b, s.pwr.bootState ≠ .firmware ∨ s.blockHeld 55 = true ∨ s.flt.queue = [] → exec (.recordWrite b) s = .next s.fresh) ∧
  (∀ s b e rest, s.pwr.bootState = .firmware → s.blockHeld 55 = false → s.flt.queue = e :: rest → s.flt.ovfOwed = true →
    ∃ t, exec (.recordWrite b) s = .next t ∧ (0x28, locRecorder) ∈ t.flt.status) ∧
  (∀ s b e rest, s.pwr.bootState = .firmware → s.blockHeld 55 = false → s.flt.queue = e :: rest → s.flt.ovfOwed = false →
    s.rec_.isolated = true → ∃ t, exec (.recordWrite b) s = .next t ∧ t.rec_ = s.rec_ ∧ t.flt.queue = rest) ∧
  (∀ s b e rest, s.pwr.bootState = .firmware → s.blockHeld 55 = false → s.flt.queue = e :: rest → s.flt.ovfOwed = false →
    s.rec_.isolated = false → s.rec_.allowed e.ev.code s.time.clk = false → ∃ t, exec (.recordWrite b) s = .next t ∧
      t.rec_ = s.rec_.suppress e.ev.code ∧ t.flt.queue = rest) ∧
  (∀ s e rest, s.pwr.bootState = .firmware → s.blockHeld 55 = false → s.flt.queue = e :: rest → s.flt.ovfOwed = false →
    s.rec_.isolated = false → s.rec_.allowed e.ev.code s.time.clk = true → ∃ t, exec (.recordWrite false) s = .next t ∧
      t.rec_.next = BitVec.ofNat 32 (s.rec_.nextSeq + 1) ∧ t.rec_.failRun = 0 ∧ t.rec_.isolated = false ∧ t.flt.queue = rest ∧
      (tget bytesReset t.rec_.slots (s.rec_.nextSeq % 65536)).length = 128 ∧
      (tget bytesReset t.rec_.slots (s.rec_.nextSeq % 65536)).take 6 = leBytes 4 s.rec_.nextSeq ++ leBytes 2 e.ev.code ∧
      (∀ n, n ≠ s.rec_.nextSeq % 65536 → tget bytesReset t.rec_.slots n = tget bytesReset s.rec_.slots n) ∧
      tget natReset t.rec_.supCount e.ev.code = 0) ∧
  (∀ s e rest, s.pwr.bootState = .firmware → s.blockHeld 55 = false → s.flt.queue = e :: rest → s.flt.ovfOwed = false →
    s.rec_.isolated = false → s.rec_.allowed e.ev.code s.time.clk = true → ∃ t, exec (.recordWrite true) s = .next t ∧
      t.rec_.next = BitVec.ofNat 32 (s.rec_.nextSeq + 1) ∧ t.rec_.failRun = s.rec_.failRun + 1 ∧ (0x27, locRecorder) ∈ t.flt.status ∧
      t.rec_.isolated = decide (16 ≤ s.rec_.failRun + 1)) ∧
  (∀ s (r : Fin 4), s.hostPort = true → s.pwr.hostRate ≠ BitVec.ofNat 2 r.val → ∃ t, exec (.hostLinkChange r) s = .next t ∧
    t.pwr = { s.pwr with hostRate := BitVec.ofNat 2 r.val } ∧ (0xFC, locHost) ∈ t.flt.status ∧
    t.ctl.enumerated = (s.ctl.enumerated && decide (r.val ≠ 0))) ∧
  (∀ s (r : Fin 4), s.hostPort = false ∨ s.pwr.hostRate = BitVec.ofNat 2 r.val → exec (.hostLinkChange r) s = .next s.fresh) ∧
  (∀ s, ∃ t, exec .pcieReset s = .next t ∧ t.ctl = { s.ctl with enumerated := false } ∧ (∀ a n, .read a n ∉ t.bud.waits) ∧
    (∀ a b, .write a b ∈ t.bud.waits ↔ .write a b ∈ s.bud.waits) ∧ t.pwr = s.pwr ∧ t.mem = s.mem ∧ t.rte = s.rte) ∧
  (∀ s (b : Fin 57), s.blockHeld b.val = true → ∃ t, exec (.blockResetRelease b) s = .next t ∧ t.blockHeld b.val = false ∧
    ∀ c, c < 57 → c ≠ b.val → t.blockHeld c = s.blockHeld c) ∧
  (∀ s (b : Fin 57), s.blockHeld b.val = false → exec (.blockResetRelease b) s = .next s.fresh) ∧
  (∀ s, s.bootLink 0 = true → s.linkRuns 0 = true → ∃ t b, exec .bootPeerRetry s = .next t ∧ t.emitted = [.cell 0 3 b] ∧ t.trp.msgId = s.trp.msgId + 1 ∧
    t.pwr = s.pwr) ∧
  (∀ s, s.bootLink 0 = false ∨ s.linkRuns 0 = false → exec .bootPeerRetry s = .next s.fresh) ∧
  (∀ s errs mask x j, s.tst.memRun = some (mask, x) → s.ctl.jobs.find? (fun j => j.kind == .memTest) = some j →
    exec (.memoryTestComplete errs) s = .next (respond j.opcode 0 j.req
      ((List.range 16).flatMap (fun c => leBytes 4 (if maskBit mask c then (errs.getD c 0).toNat else 0))) { s with
        emitted := [], mem := s.mem.tested s.pwr.reduced mask, tst := { s.tst with memRun := none }
        ctl := { s.ctl with jobs := s.ctl.jobs.eraseP (fun j => j.kind == .memTest) } })) ∧
  (∀ s errs, s.tst.memRun = none → exec (.memoryTestComplete errs) s = .next s.fresh) ∧
  (∀ s failed scope lane j, s.tst.shadowRun = some (scope, lane) → s.ctl.jobs.find? (fun j => j.kind == .shadowTest) = some j →
    exec (.shadowCheckComplete failed) s = .next (respond j.opcode 0 j.req
      (shadowResult (if lane = 0xFFFF then s.shadowLanes scope else [lane]) failed.toNat) { s with
        emitted := [], tst := { s.tst with shadowRun := none }
        ctl := { s.ctl with jobs := s.ctl.jobs.eraseP (fun j => j.kind == .shadowTest) } })) ∧
  (∀ s failed, s.tst.shadowRun = none → exec (.shadowCheckComplete failed) s = .next s.fresh) ∧
  (∀ s (l : Fin 224) lk (bits errs : BitVec 64), (s.testLane l.val).check ≠ 0 → ∃ t, exec (.checkerLock l lk bits errs) s = .next t ∧
    (t.testLane l.val).locked = lk ∧
    (t.testLane l.val).bits = (if (s.testLane l.val).locked then ((s.testLane l.val).bits + bits.toNat) % 2 ^ 64 else (s.testLane l.val).bits) ∧
    (t.testLane l.val).errors =
      (if (s.testLane l.val).locked then ((s.testLane l.val).errors + errs.toNat) % 2 ^ 64 else (s.testLane l.val).errors) ∧
    ∀ n, n ≠ l.val → t.testLane n = s.testLane n) ∧
  (∀ s (l : Fin 224) lk (bits errs : BitVec 64), (s.testLane l.val).check = 0 → exec (.checkerLock l lk bits errs) s = .next s.fresh)
end

