-- ==== Sys2Proof/Laws/Fields.lean ====
section
/-! SUPPORT. What reading a field of a record gives after another has been put. -/

set_option Elab.async false

namespace Sys2Proof.Machine

theorem field_split (r p w : Nat) (hp : 0 < p) (hw : 0 < w) :
    r - r / p % w * p = r / p / w * (w * p) + r % p ∧ r = r / p / w * (w * p) + r / p % w * p + r % p := by
  have h1 := Nat.div_add_mod r p
  have h2 := Nat.div_add_mod (r / p) w
  have h3 : r = r / p / w * (w * p) + r / p % w * p + r % p := by
    calc r = p * (r / p) + r % p := h1.symm
      _ = p * (w * (r / p / w) + r / p % w) + r % p := by rw [h2]
      _ = _ := by ring
  exact ⟨by omega, h3⟩

theorem fput_toNat {n : Nat} (r : BitVec n) (f : Fld) (v : Nat) (h : f.lo + f.width ≤ n) :
    (fput r f v).toNat = r.toNat / 2 ^ f.lo / 2 ^ f.width * (2 ^ f.width * 2 ^ f.lo) + v % 2 ^ f.width * 2 ^ f.lo + r.toNat % 2 ^ f.lo := by
  have hp : 0 < 2 ^ f.lo := Nat.two_pow_pos _
  have hw : 0 < 2 ^ f.width := Nat.two_pow_pos _
  obtain ⟨h1, h3⟩ := field_split r.toNat (2 ^ f.lo) (2 ^ f.width) hp hw
  have hr := r.isLt
  have hn : 2 ^ n = 2 ^ (n - f.lo - f.width) * (2 ^ f.width * 2 ^ f.lo) := by
    rw [← pow_add, ← pow_add]; congr 1; omega
  have hv : v % 2 ^ f.width + 1 ≤ 2 ^ f.width := Nat.mod_lt _ hw
  have hl : r.toNat % 2 ^ f.lo < 2 ^ f.lo := Nat.mod_lt _ hp
  have hh : r.toNat / 2 ^ f.lo / 2 ^ f.width + 1 ≤ 2 ^ (n - f.lo - f.width) := by
    rw [Nat.div_div_eq_div_mul]
    refine Nat.div_lt_of_lt_mul ?_
    rw [mul_comm, mul_comm (2 ^ f.lo), ← hn]; exact hr
  have hb : r.toNat / 2 ^ f.lo / 2 ^ f.width * (2 ^ f.width * 2 ^ f.lo) + v % 2 ^ f.width * 2 ^ f.lo + r.toNat % 2 ^ f.lo < 2 ^ n := by
    have a1 : (v % 2 ^ f.width + 1) * 2 ^ f.lo ≤ 2 ^ f.width * 2 ^ f.lo := Nat.mul_le_mul_right _ hv
    have a2 : (r.toNat / 2 ^ f.lo / 2 ^ f.width + 1) * (2 ^ f.width * 2 ^ f.lo) ≤ 2 ^ n := by
      rw [hn]; exact Nat.mul_le_mul_right _ hh
    rw [add_mul] at a1 a2
    omega
  unfold fput fget
  rw [BitVec.toNat_ofNat, h1, Nat.mod_eq_of_lt (by omega)]
  omega

/-- A field reads as what was put into it. -/
theorem fget_fput {n : Nat} (r : BitVec n) (f : Fld) (v : Nat) (h : f.lo + f.width ≤ n) :
    fget (fput r f v) f = v % 2 ^ f.width := by
  have hp : 0 < 2 ^ f.lo := Nat.two_pow_pos _
  have hw : 0 < 2 ^ f.width := Nat.two_pow_pos _
  unfold fget
  rw [fput_toNat r f v h]
  have e : r.toNat / 2 ^ f.lo / 2 ^ f.width * (2 ^ f.width * 2 ^ f.lo) + v % 2 ^ f.width * 2 ^ f.lo + r.toNat % 2 ^ f.lo =
      r.toNat % 2 ^ f.lo + (v % 2 ^ f.width + 2 ^ f.width * (r.toNat / 2 ^ f.lo / 2 ^ f.width)) * 2 ^ f.lo := by ring
  rw [e, Nat.add_mul_div_right _ _ hp, Nat.div_eq_of_lt (Nat.mod_lt _ hp), zero_add, Nat.add_mul_mod_self_left, Nat.mod_mod]

/-- A field below the one that is put keeps its value. -/
theorem fget_fput_below {n : Nat} (r : BitVec n) (f g : Fld) (v : Nat) (h : f.lo + f.width ≤ n) (hg : g.lo + g.width ≤ f.lo) :
    fget (fput r f v) g = fget r g := by
  unfold fget
  rw [fput_toNat r f v h]
  have hq : ∀ x y : Nat, (x * 2 ^ f.lo + y) / 2 ^ g.lo % 2 ^ g.width = y / 2 ^ g.lo % 2 ^ g.width := by
    intro x y
    have e : x * 2 ^ f.lo = x * 2 ^ (f.lo - g.lo - g.width) * 2 ^ g.width * 2 ^ g.lo := by
      rw [mul_assoc, mul_assoc, ← pow_add, ← pow_add]; congr 2; omega
    rw [e, add_comm, Nat.add_mul_div_right _ _ (Nat.two_pow_pos _), Nat.add_mul_mod_self_right]
  have e : r.toNat / 2 ^ f.lo / 2 ^ f.width * (2 ^ f.width * 2 ^ f.lo) + v % 2 ^ f.width * 2 ^ f.lo + r.toNat % 2 ^ f.lo =
      (r.toNat / 2 ^ f.lo / 2 ^ f.width * 2 ^ f.width + v % 2 ^ f.width) * 2 ^ f.lo + r.toNat % 2 ^ f.lo := by ring
  rw [e, hq]
  conv_rhs => rw [← Nat.div_add_mod r.toNat (2 ^ f.lo), mul_comm, hq]

/-- A field above the one that is put keeps its value. -/
theorem fget_fput_above {n : Nat} (r : BitVec n) (f g : Fld) (v : Nat) (h : f.lo + f.width ≤ n) (hg : f.lo + f.width ≤ g.lo) :
    fget (fput r f v) g = fget r g := by
  unfold fget
  rw [fput_toNat r f v h]
  have hp : 0 < 2 ^ f.lo := Nat.two_pow_pos _
  have hw : 0 < 2 ^ f.width := Nat.two_pow_pos _
  have hq : ∀ x y : Nat, y < 2 ^ f.width * 2 ^ f.lo → (x * (2 ^ f.width * 2 ^ f.lo) + y) / 2 ^ g.lo = x / 2 ^ (g.lo - f.lo - f.width) := by
    intro x y hy
    have e : 2 ^ g.lo = (2 ^ f.width * 2 ^ f.lo) * 2 ^ (g.lo - f.lo - f.width) := by
      rw [← pow_add, ← pow_add]; congr 1; omega
    rw [e, ← Nat.div_div_eq_div_mul, add_comm, Nat.add_mul_div_right _ _ (Nat.mul_pos hw hp), Nat.div_eq_of_lt hy, zero_add]
  have b : ∀ v, v % 2 ^ f.width * 2 ^ f.lo + r.toNat % 2 ^ f.lo < 2 ^ f.width * 2 ^ f.lo := by
    intro v
    have a1 : (v % 2 ^ f.width + 1) * 2 ^ f.lo ≤ 2 ^ f.width * 2 ^ f.lo := Nat.mul_le_mul_right _ (Nat.mod_lt _ hw)
    have := Nat.mod_lt r.toNat hp
    rw [add_mul] at a1
    omega
  obtain ⟨-, h3⟩ := field_split r.toNat (2 ^ f.lo) (2 ^ f.width) hp hw
  rw [add_assoc, hq _ _ (b v)]
  conv_rhs => rw [h3, add_assoc, hq _ _ (b (r.toNat / 2 ^ f.lo))]

/-- Fields apart from each other do not disturb each other. -/
theorem fget_fput_of_disjoint {n : Nat} (r : BitVec n) (f g : Fld) (v : Nat) (h : f.lo + f.width ≤ n)
    (hd : g.lo + g.width ≤ f.lo ∨ f.lo + f.width ≤ g.lo) : fget (fput r f v) g = fget r g :=
  hd.elim (fget_fput_below r f g v h) (fget_fput_above r f g v h)

theorem fget_lt {n : Nat} (r : BitVec n) (f : Fld) : fget r f < 2 ^ f.width := Nat.mod_lt _ (Nat.two_pow_pos _)

end Sys2Proof.Machine
end

