-- ==== Sys2Proof/Laws/Kept.lean ====
section
/-! SUPPORT. What an operation leaves as it is. The state is seen through a mask: a part whose bit is set is hidden, every other part is
shown. The files that follow hold one lemma for each operation, with the mask of the parts it may change. -/

set_option Elab.async false

namespace Sys2Proof.Machine

open Sys2Proof

/-- The parts of the state, by the bit that stands for each in the masks below: bits 0 to 21 are time, pwr, ctl, the Port Privilege
Table, flt, rec_, mem, the Tile Store's bytes, its payload bytes, bud, rte, sdi, eth, flo, cmp, cal, ref, ptp, trp, twin, upd, tst;
bits 22 and 23 the counter of free values and the queue. A part whose bit is set in the mask is not shown. -/
structure Kept where
  time : Option TimeSt
  pwr : Option PwrSt
  ctl : Option CtlSt
  priv : Option (Tab (BitVec 64))
  flt : Option FltSt
  rec_ : Option RecSt
  mem : Option MemSt
  tiles : Option (List Host.Cell × Tab Nat × Bool)
  low : Option (List Host.Cell × Tab Nat × Bool)
  bud : Option BudSt
  rte : Option RteSt
  sdi : Option SdiSt
  eth : Option EthSt
  flo : Option FloSt
  cmp : Option CmpSt
  cal : Option CalSt
  ref : Option RefSt
  ptp : Option PtpSt
  trp : Option TrpSt
  twin : Option TwinSt
  upd : Option UpdSt
  tst : Option TstSt
  free : Option Nat
  pending : Option (List Instr)

def hide {α : Type} (m i : Nat) (x : α) : Option α := cond (m.testBit i) none (some x)

/-- The payload bytes: those below the check region (R36). -/
def State.payload (s : State) : List Host.Cell := s.mem.tiles.filter (fun c => decide (c.1 < checkBase s.pwr.reduced))

/-- What of the state the mask `m` does not hide. -/
def State.kept (m : Nat) (s : State) : Kept where
  time := hide m 0 s.time
  pwr := hide m 1 s.pwr
  ctl := hide m 2 s.ctl
  priv := hide m 3 s.ctl.priv
  flt := hide m 4 s.flt
  rec_ := hide m 5 s.rec_
  mem := hide m 6 s.mem
  tiles := hide m 7 (s.mem.tiles, s.mem.undef, s.pwr.reduced)
  low := hide m 8 (s.payload, s.mem.undef, s.pwr.reduced)
  bud := hide m 9 s.bud
  rte := hide m 10 s.rte
  sdi := hide m 11 s.sdi
  eth := hide m 12 s.eth
  flo := hide m 13 s.flo
  cmp := hide m 14 s.cmp
  cal := hide m 15 s.cal
  ref := hide m 16 s.ref
  ptp := hide m 17 s.ptp
  trp := hide m 18 s.trp
  twin := hide m 19 s.twin
  upd := hide m 20 s.upd
  tst := hide m 21 s.tst
  free := hide m 22 s.free
  pending := hide m 23 s.pending

theorem hide_of {α : Type} {n m i : Nat} {x y : α} (h : n &&& m = n) (e : hide n i x = hide n i y) : hide m i x = hide m i y := by
  unfold hide at *
  cases hm : m.testBit i
  · have hn : n.testBit i = false := by
      rw [← h, Nat.testBit_and, hm, Bool.and_false]
    rw [hn] at e
    exact e
  · rfl

/-- What a smaller mask shows unchanged, a larger one does. -/
theorem kept_mono {n m : Nat} {s t : State} (h : n &&& m = n) (e : s.kept n = t.kept n) : s.kept m = t.kept m := by
  simp only [State.kept, Kept.mk.injEq] at e ⊢
  obtain ⟨e0, e1, e2, e3, e4, e5, e6, e7, e8, e9, e10, e11, e12, e13, e14, e15, e16, e17, e18, e19, e20, e21, e22, e23⟩ := e
  exact ⟨hide_of h e0, hide_of h e1, hide_of h e2, hide_of h e3, hide_of h e4, hide_of h e5, hide_of h e6, hide_of h e7, hide_of h e8,
    hide_of h e9, hide_of h e10, hide_of h e11, hide_of h e12, hide_of h e13, hide_of h e14, hide_of h e15, hide_of h e16, hide_of h e17,
    hide_of h e18, hide_of h e19, hide_of h e20, hide_of h e21, hide_of h e22, hide_of h e23⟩

theorem sub_of {a n m : Nat} (h : n &&& m = n) (e : a &&& n = a) : a &&& m = a := by
  rw [← e, Nat.and_assoc, h]

theorem hide_shown {α : Type} {m i : Nat} {x y : α} (e : hide m i x = hide m i y) (h : m.testBit i = false) : x = y := by
  unfold hide at e
  rw [h] at e
  exact Option.some.inj e
theorem time_of_kept {m : Nat} {s t : State} (e : t.kept m = s.kept m) (h : m.testBit 0 = false := by rfl) : t.time = s.time :=
  hide_shown (congrArg Kept.time e) h
theorem pwr_of_kept {m : Nat} {s t : State} (e : t.kept m = s.kept m) (h : m.testBit 1 = false := by rfl) : t.pwr = s.pwr :=
  hide_shown (congrArg Kept.pwr e) h
theorem ctl_of_kept {m : Nat} {s t : State} (e : t.kept m = s.kept m) (h : m.testBit 2 = false := by rfl) : t.ctl = s.ctl :=
  hide_shown (congrArg Kept.ctl e) h
theorem priv_of_kept {m : Nat} {s t : State} (e : t.kept m = s.kept m) (h : m.testBit 3 = false := by rfl) : t.ctl.priv = s.ctl.priv :=
  hide_shown (congrArg Kept.priv e) h
theorem flt_of_kept {m : Nat} {s t : State} (e : t.kept m = s.kept m) (h : m.testBit 4 = false := by rfl) : t.flt = s.flt :=
  hide_shown (congrArg Kept.flt e) h
theorem rec_of_kept {m : Nat} {s t : State} (e : t.kept m = s.kept m) (h : m.testBit 5 = false := by rfl) : t.rec_ = s.rec_ :=
  hide_shown (congrArg Kept.rec_ e) h
theorem mem_of_kept {m : Nat} {s t : State} (e : t.kept m = s.kept m) (h : m.testBit 6 = false := by rfl) : t.mem = s.mem :=
  hide_shown (congrArg Kept.mem e) h
theorem bud_of_kept {m : Nat} {s t : State} (e : t.kept m = s.kept m) (h : m.testBit 9 = false := by rfl) : t.bud = s.bud :=
  hide_shown (congrArg Kept.bud e) h
theorem rte_of_kept {m : Nat} {s t : State} (e : t.kept m = s.kept m) (h : m.testBit 10 = false := by rfl) : t.rte = s.rte :=
  hide_shown (congrArg Kept.rte e) h
theorem sdi_of_kept {m : Nat} {s t : State} (e : t.kept m = s.kept m) (h : m.testBit 11 = false := by rfl) : t.sdi = s.sdi :=
  hide_shown (congrArg Kept.sdi e) h
theorem eth_of_kept {m : Nat} {s t : State} (e : t.kept m = s.kept m) (h : m.testBit 12 = false := by rfl) : t.eth = s.eth :=
  hide_shown (congrArg Kept.eth e) h
theorem flo_of_kept {m : Nat} {s t : State} (e : t.kept m = s.kept m) (h : m.testBit 13 = false := by rfl) : t.flo = s.flo :=
  hide_shown (congrArg Kept.flo e) h
theorem cmp_of_kept {m : Nat} {s t : State} (e : t.kept m = s.kept m) (h : m.testBit 14 = false := by rfl) : t.cmp = s.cmp :=
  hide_shown (congrArg Kept.cmp e) h
theorem cal_of_kept {m : Nat} {s t : State} (e : t.kept m = s.kept m) (h : m.testBit 15 = false := by rfl) : t.cal = s.cal :=
  hide_shown (congrArg Kept.cal e) h
theorem ref_of_kept {m : Nat} {s t : State} (e : t.kept m = s.kept m) (h : m.testBit 16 = false := by rfl) : t.ref = s.ref :=
  hide_shown (congrArg Kept.ref e) h
theorem ptp_of_kept {m : Nat} {s t : State} (e : t.kept m = s.kept m) (h : m.testBit 17 = false := by rfl) : t.ptp = s.ptp :=
  hide_shown (congrArg Kept.ptp e) h
theorem trp_of_kept {m : Nat} {s t : State} (e : t.kept m = s.kept m) (h : m.testBit 18 = false := by rfl) : t.trp = s.trp :=
  hide_shown (congrArg Kept.trp e) h
theorem twin_of_kept {m : Nat} {s t : State} (e : t.kept m = s.kept m) (h : m.testBit 19 = false := by rfl) : t.twin = s.twin :=
  hide_shown (congrArg Kept.twin e) h
theorem upd_of_kept {m : Nat} {s t : State} (e : t.kept m = s.kept m) (h : m.testBit 20 = false := by rfl) : t.upd = s.upd :=
  hide_shown (congrArg Kept.upd e) h
theorem tst_of_kept {m : Nat} {s t : State} (e : t.kept m = s.kept m) (h : m.testBit 21 = false := by rfl) : t.tst = s.tst :=
  hide_shown (congrArg Kept.tst e) h
theorem free_of_kept {m : Nat} {s t : State} (e : t.kept m = s.kept m) (h : m.testBit 22 = false := by rfl) : t.free = s.free :=
  hide_shown (congrArg Kept.free e) h
theorem pending_of_kept {m : Nat} {s t : State} (e : t.kept m = s.kept m) (h : m.testBit 23 = false := by rfl) : t.pending = s.pending :=
  hide_shown (congrArg Kept.pending e) h
theorem tiles_of_kept {m : Nat} {s t : State} (e : t.kept m = s.kept m) (h : m.testBit 7 = false := by rfl) :
    t.mem.tiles = s.mem.tiles ∧ t.mem.undef = s.mem.undef ∧ t.pwr.reduced = s.pwr.reduced := by
  have := hide_shown (congrArg Kept.tiles e) h
  simpa using this
theorem low_of_kept {m : Nat} {s t : State} (e : t.kept m = s.kept m) (h : m.testBit 8 = false := by rfl) :
    t.payload = s.payload ∧ t.mem.undef = s.mem.undef ∧ t.pwr.reduced = s.pwr.reduced := by
  have := hide_shown (congrArg Kept.low e) h
  simpa using this

@[simp] theorem State.kept_onTime {m : Nat} (f s) (h : 0x1 &&& m = 0x1 := by decide) : (State.onTime f s).kept m = s.kept m := kept_mono h rfl
@[simp] theorem State.kept_onPwr {m : Nat} (f : PwrSt → PwrSt) (s : State) (hr : (f s.pwr).reduced = s.pwr.reduced := by rfl)
    (h : 0x2 &&& m = 0x2 := by decide) : (State.onPwr f s).kept m = s.kept m := kept_mono h (by
  simp only [State.kept, State.onPwr, State.payload, hr]; rfl)
@[simp] theorem State.kept_onCtl {m : Nat} (f : CtlSt → CtlSt) (s : State) (hp : (f s.ctl).priv = s.ctl.priv := by rfl)
    (h : 0x4 &&& m = 0x4 := by decide) : (State.onCtl f s).kept m = s.kept m := kept_mono h (by
  simp only [State.kept, State.onCtl, hp]; rfl)
theorem State.kept_onCtl' {m : Nat} (f : CtlSt → CtlSt) (s : State)
    (h : 0xC &&& m = 0xC := by decide) : (State.onCtl f s).kept m = s.kept m := kept_mono h rfl
@[simp] theorem State.kept_onFlt {m : Nat} (f s) (h : 0x10 &&& m = 0x10 := by decide) : (State.onFlt f s).kept m = s.kept m := kept_mono h rfl
@[simp] theorem State.kept_onRec {m : Nat} (f s) (h : 0x20 &&& m = 0x20 := by decide) : (State.onRec f s).kept m = s.kept m := kept_mono h rfl
@[simp] theorem State.kept_onMem {m : Nat} (f : MemSt → MemSt) (s : State) (ht : (f s.mem).tiles = s.mem.tiles := by rfl) (hu : (f s.mem).undef = s.mem.undef := by rfl)
    (h : 0x40 &&& m = 0x40 := by decide) : (State.onMem f s).kept m = s.kept m := kept_mono h (by
  simp only [State.kept, State.onMem, State.payload, ht, hu]; rfl)
theorem State.kept_onMem' {m : Nat} (f : MemSt → MemSt) (s : State)
    (h : 0x1C0 &&& m = 0x1C0 := by decide) : (State.onMem f s).kept m = s.kept m := kept_mono h rfl
@[simp] theorem State.kept_onBud {m : Nat} (f s) (h : 0x200 &&& m = 0x200 := by decide) : (State.onBud f s).kept m = s.kept m := kept_mono h rfl
@[simp] theorem State.kept_onRte {m : Nat} (f s) (h : 0x400 &&& m = 0x400 := by decide) : (State.onRte f s).kept m = s.kept m := kept_mono h rfl
@[simp] theorem State.kept_onSdi {m : Nat} (f s) (h : 0x800 &&& m = 0x800 := by decide) : (State.onSdi f s).kept m = s.kept m := kept_mono h rfl
@[simp] theorem State.kept_onEth {m : Nat} (f s) (h : 0x1000 &&& m = 0x1000 := by decide) : (State.onEth f s).kept m = s.kept m := kept_mono h rfl
@[simp] theorem State.kept_onFlo {m : Nat} (f s) (h : 0x2000 &&& m = 0x2000 := by decide) : (State.onFlo f s).kept m = s.kept m := kept_mono h rfl
@[simp] theorem State.kept_onCmp {m : Nat} (f s) (h : 0x4000 &&& m = 0x4000 := by decide) : (State.onCmp f s).kept m = s.kept m := kept_mono h rfl
@[simp] theorem State.kept_onCal {m : Nat} (f s) (h : 0x8000 &&& m = 0x8000 := by decide) : (State.onCal f s).kept m = s.kept m := kept_mono h rfl
@[simp] theorem State.kept_onRef {m : Nat} (f s) (h : 0x10000 &&& m = 0x10000 := by decide) : (State.onRef f s).kept m = s.kept m := kept_mono h rfl
@[simp] theorem State.kept_onPtp {m : Nat} (f s) (h : 0x20000 &&& m = 0x20000 := by decide) : (State.onPtp f s).kept m = s.kept m := kept_mono h rfl
@[simp] theorem State.kept_onTrp {m : Nat} (f s) (h : 0x40000 &&& m = 0x40000 := by decide) : (State.onTrp f s).kept m = s.kept m := kept_mono h rfl
@[simp] theorem State.kept_onTwin {m : Nat} (f s) (h : 0x80000 &&& m = 0x80000 := by decide) : (State.onTwin f s).kept m = s.kept m := kept_mono h rfl
@[simp] theorem State.kept_onUpd {m : Nat} (f s) (h : 0x100000 &&& m = 0x100000 := by decide) : (State.onUpd f s).kept m = s.kept m := kept_mono h rfl
@[simp] theorem State.kept_onTst {m : Nat} (f s) (h : 0x200000 &&& m = 0x200000 := by decide) : (State.onTst f s).kept m = s.kept m := kept_mono h rfl
@[simp] theorem State.kept_emit {m : Nat} (e s) : (State.emit e s).kept m = s.kept m := kept_mono (Nat.and_self m) rfl
@[simp] theorem State.kept_fresh {m : Nat} (s) : (State.fresh s).kept m = s.kept m := kept_mono (Nat.and_self m) rfl
/-- What a mask hides may be anything. -/
theorem hide_eq {α : Type} {m i : Nat} (x y : α) (h : m.testBit i = true) : hide m i x = hide m i y := by
  unfold hide
  rw [h]
  rfl
@[simp] theorem State.kept_free {m : Nat} (n : Nat) (s : State) (h : 0x400000 &&& m = 0x400000 := by decide) :
    State.kept m { s with free := n } = s.kept m := kept_mono h rfl
@[simp] theorem State.kept_ite {m : Nat} (c : Prop) [Decidable c] (a b : State) :
    (if c then a else b).kept m = if c then a.kept m else b.kept m := by split <;> rfl
theorem kept_foldl {m : Nat} {α : Type} {g : State → α → State} (h : ∀ s a, (g s a).kept m = s.kept m) (l : List α) (s : State) :
    (l.foldl g s).kept m = s.kept m := by
  induction l generalizing s with
  | nil => rfl
  | cons a l ih => simp [ih, h]

/-- Whatever a computation answers leaves `k`. -/
structure OkKept {α : Type} (m : Nat) (k : Kept) (g : α → State) (r : Except Err α) : Prop where
  out : ∀ a, r = .ok a → (g a).kept m = k

theorem OkKept.error {m : Nat} {α : Type} {k} {g : α → State} (e : Err) : OkKept m k g (.error e) := ⟨by intro a h; cases h⟩
theorem OkKept.pure {m : Nat} {α : Type} {k} {g : α → State} {a : α} (h : (g a).kept m = k) : OkKept m k g (pure a) :=
  ⟨by intro b hb; cases hb; exact h⟩
theorem OkKept.ok {m : Nat} {α : Type} {k} {g : α → State} {a : α} (h : (g a).kept m = k) : OkKept m k g (.ok a) := OkKept.pure h
theorem OkKept.mono {n m : Nat} {α : Type} {s : State} {g : α → State} {r : Except Err α} (h : n &&& m = n)
    (e : OkKept n (s.kept n) g r) : OkKept m (s.kept m) g r := ⟨fun a ha => kept_mono h (e.out a ha)⟩
theorem OkKept.bind {m : Nat} {α β : Type} {k} {g : β → State} {x : Except Err α} {f : α → Except Err β}
    (h : ∀ a, x = .ok a → OkKept m k g (f a)) : OkKept m k g (x >>= f) := ⟨by
  intro b hb
  cases hm : x with
  | error e => rw [hm] at hb; cases hb
  | ok a => rw [hm] at hb; exact (h a hm).out b hb⟩
theorem OkKept.step {m : Nat} {α β : Type} {k k'} {π : α → State} {g : β → State} {x : Except Err α} {f : α → Except Err β}
    (hm : OkKept m k' π x) (hk : k' = k) (h : ∀ a, (π a).kept m = k → OkKept m k g (f a)) : OkKept m k g (x >>= f) :=
  OkKept.bind (fun a ha => h a (hk ▸ hm.out a ha))
theorem OkKept.map {m : Nat} {α β : Type} {k} {π : α → State} {g : β → State} {x : Except Err α} {f : α → β}
    (hm : OkKept m k π x) (h : ∀ a, (g (f a)).kept m = (π a).kept m) : OkKept m k g (x.map f) := ⟨by
  intro b hb
  cases x with
  | error e => cases hb
  | ok a => cases hb; rw [h]; exact hm.out a rfl⟩
theorem OkKept.ite {m : Nat} {α : Type} {k} {g : α → State} {c : Prop} [Decidable c] {a b : Except Err α}
    (ha : OkKept m k g a) (hb : OkKept m k g b) : OkKept m k g (if c then a else b) := by split <;> assumption
/-- Where a step goes on, it leaves `k`. -/
def Keeps (m : Nat) (k : Kept) : Out → Prop
  | .next t => t.kept m = k
  | _ => True
theorem Keeps.mono {n m : Nat} {s : State} {o : Out} (h : n &&& m = n) (e : Keeps n (s.kept n) o) : Keeps m (s.kept m) o := by
  cases o with
  | next t => exact kept_mono h e
  | fault _ => trivial
  | refused _ => trivial
theorem Keeps.next {m : Nat} {k : Kept} {o : Out} {t : State} (h : Keeps m k o) (e : o = .next t) : t.kept m = k := by
  rw [e] at h
  exact h
@[simp] theorem keeps_done (m k t) : Keeps m k (done t) = (t.kept m = k) := rfl
@[simp] theorem keeps_fault (m k f) : Keeps m k (.fault f) = True := rfl
@[simp] theorem keeps_ite (m k) (c : Prop) [Decidable c] (a b : Out) : Keeps m k (if c then a else b) = if c then Keeps m k a else Keeps m k b := by
  split <;> rfl
theorem keeps_checked {m k b o} (h : Keeps m k o) : Keeps m k (checked b o) := by
  cases b
  · trivial
  · exact h

@[simp] theorem Ans.state_now (s r) : (Ans.now s r).state = s := rfl
@[simp] theorem Ans.state_later (s k r) : (Ans.later s k r).state = s := rfl
@[simp] theorem Ans.state_failed (s st r) : (Ans.failed s st r).state = s := rfl
end Sys2Proof.Machine
end

