-- ==== Sys2Proof/Laws/KeptCore.lean ====
section
/-! SUPPORT. What is left as it is by the named operations, serving, the Ticket Booth, the Tile Store and its rings. -/

set_option Elab.async false

namespace Sys2Proof.Machine

open Sys2Proof

/-! ### Ops -/

@[simp] theorem State.sendInBand_kept {μ : Nat} (p : Nat) (sender : Nat) (bytes : List Byte) (s : State) (hμ : 0x4 &&& μ = 0x4 := by decide) : (State.sendInBand p sender bytes s).kept μ = s.kept μ := kept_mono hμ (by
  unfold State.sendInBand
  repeat' (first | with_reducible rfl | (simp; done) | split | (refine (kept_foldl (fun _ _ => ?_) _ _).trans ?_) | (simp; fail_if_success done)))

theorem done_keeps {μ : Nat} (s : State) (hμ : 0x0 &&& μ = 0x0 := by decide) : Keeps μ (s.kept μ) (done s) := Keeps.mono hμ (by
  unfold done
  (repeat' (first | with_reducible rfl | trivial | (simp; done) | (refine keeps_checked ?_) | split | (simp only [keeps_done]; fail_if_success done) | (refine (kept_foldl (fun _ _ => ?_) _ _).trans ?_) | (simp; fail_if_success done))); done)

@[simp] theorem State.freeWord_kept {μ : Nat} (s : State) (hμ : 0x400000 &&& μ = 0x400000 := by decide) : (State.freeWord s).2.kept μ = s.kept μ := kept_mono hμ (by
  unfold State.freeWord
  repeat' (first | with_reducible rfl | (simp; done) | split | (refine (kept_foldl (fun _ _ => ?_) _ _).trans ?_) | (simp; fail_if_success done)))

@[simp] theorem State.setRate_kept {μ : Nat} (r : Int) (s : State) (hμ : 0x20001 &&& μ = 0x20001 := by decide) :
    (State.setRate r s).kept μ = s.kept μ := kept_mono hμ (by
  unfold State.kept State.setRate
  rw [Kept.mk.injEq]
  refine ⟨hide_eq _ _ rfl, rfl, rfl, rfl, rfl, rfl, rfl, rfl, rfl, rfl, rfl, rfl, rfl, rfl, rfl, rfl, rfl, hide_eq _ _ rfl, rfl, rfl, rfl, rfl, rfl, rfl⟩)

@[simp] theorem State.stepClock_kept {μ : Nat} (n : Int) (s : State) (hμ : 0x1 &&& μ = 0x1 := by decide) :
    (State.stepClock n s).kept μ = s.kept μ := kept_mono hμ (by
  unfold State.kept State.stepClock
  rw [Kept.mk.injEq]
  refine ⟨hide_eq _ _ rfl, rfl, rfl, rfl, rfl, rfl, rfl, rfl, rfl, rfl, rfl, rfl, rfl, rfl, rfl, rfl, rfl, rfl, rfl, rfl, rfl, rfl, rfl, rfl⟩)

@[simp] theorem State.setLinkSt_kept {μ : Nat} (k : Nat) (v : LinkSt) (s : State) (hμ : 0x40000 &&& μ = 0x40000 := by decide) : (State.setLinkSt k v s).kept μ = s.kept μ := kept_mono hμ (by
  unfold State.setLinkSt
  repeat' (first | with_reducible rfl | (simp; done) | split | (refine (kept_foldl (fun _ _ => ?_) _ _).trans ?_) | (simp; fail_if_success done)))

@[simp] theorem State.sendCell_kept {μ : Nat} (k : Nat) (typ : Nat) (idx : Nat) (dest : Nat) (payload : List Byte) (s : State) (hμ : 0x40000 &&& μ = 0x40000 := by decide) : (State.sendCell k typ idx dest payload s).kept μ = s.kept μ := kept_mono hμ (by
  unfold State.sendCell
  repeat' (first | with_reducible rfl | (simp; done) | split | (refine (kept_foldl (fun _ _ => ?_) _ _).trans ?_) | (simp; fail_if_success done)))

@[simp] theorem State.sendMessage_kept {μ : Nat} (k : Nat) (typ : Nat) (bytes : List Byte) (s : State) (hμ : 0x40000 &&& μ = 0x40000 := by decide) : (State.sendMessage k typ bytes s).kept μ = s.kept μ := kept_mono hμ (by
  unfold State.sendMessage
  repeat' (first | with_reducible rfl | (simp; done) | split | (refine (kept_foldl (fun _ _ => ?_) _ _).trans ?_) | (simp; fail_if_success done)))

@[simp] theorem State.byHost_kept {μ : Nat} (s : State) (hμ : 0x4 &&& μ = 0x4 := by decide) : (State.byHost s).kept μ = s.kept μ := kept_mono hμ (by
  unfold State.byHost
  repeat' (first | with_reducible rfl | (simp; done) | split | (refine (kept_foldl (fun _ _ => ?_) _ _).trans ?_) | (simp; fail_if_success done)))

@[simp] theorem State.setRing_kept {μ : Nat} (r : Nat) (d : BitVec 256) (s : State) (hμ : 0x40 &&& μ = 0x40 := by decide) : (State.setRing r d s).kept μ = s.kept μ := kept_mono hμ (by
  unfold State.setRing
  repeat' (first | with_reducible rfl | (simp; done) | split | (refine (kept_foldl (fun _ _ => ?_) _ _).trans ?_) | (simp; fail_if_success done)))

/-! ### Flags -/

@[simp] theorem State.endCause_kept {μ : Nat} (code : Nat) (l : Nat) (s : State) (hμ : 0x10 &&& μ = 0x10 := by decide) : (State.endCause code l s).kept μ = s.kept μ := kept_mono hμ (by
  unfold State.endCause
  repeat' (first | with_reducible rfl | (simp; done) | split | (refine (kept_foldl (fun _ _ => ?_) _ _).trans ?_) | (simp; fail_if_success done)))

@[simp] theorem State.signal_kept {μ : Nat} (v : Nat) (s : State) (hμ : 0x4 &&& μ = 0x4 := by decide) : (State.signal v s).kept μ = s.kept μ := kept_mono hμ (by
  unfold State.signal
  repeat' (first | with_reducible rfl | (simp; done) | split | (refine (kept_foldl (fun _ _ => ?_) _ _).trans ?_) | (simp; fail_if_success done)))

@[simp] theorem State.pend_kept {μ : Nat} (code : Nat) (s : State) (hμ : 0x14 &&& μ = 0x14 := by decide) : (State.pend code s).kept μ = s.kept μ := kept_mono hμ (by
  unfold State.pend
  repeat' (first | with_reducible rfl | (simp; done) | split | (refine (kept_foldl (fun _ _ => ?_) _ _).trans ?_) | (simp; fail_if_success done)))

@[simp] theorem State.note_kept {μ : Nat} (e : Ev) (forced : Bool) (s : State) (hμ : 0x14 &&& μ = 0x14 := by decide) : (State.note e forced s).kept μ = s.kept μ := kept_mono hμ (by
  unfold State.note
  repeat' (first | with_reducible rfl | (simp; done) | split | (refine (kept_foldl (fun _ _ => ?_) _ _).trans ?_) | (simp; fail_if_success done)))

@[simp] theorem State.noteRise_kept {μ : Nat} (e : Ev) (forced : Bool) (s : State) (hμ : 0x14 &&& μ = 0x14 := by decide) : (State.noteRise e forced s).kept μ = s.kept μ := kept_mono hμ (by
  unfold State.noteRise
  repeat' (first | with_reducible rfl | (simp; done) | split | (refine (kept_foldl (fun _ _ => ?_) _ _).trans ?_) | (simp; fail_if_success done)))

@[simp] theorem State.sendP2_kept {μ : Nat} (to_ : Nat) (bytes : List Byte) (s : State) (hμ : 0x0 &&& μ = 0x0 := by decide) : (State.sendP2 to_ bytes s).kept μ = s.kept μ := kept_mono hμ (by
  unfold State.sendP2
  repeat' (first | with_reducible rfl | (simp; done) | split | (refine (kept_foldl (fun _ _ => ?_) _ _).trans ?_) | (simp; fail_if_success done)))

@[simp] theorem State.sendHeartbeat_kept {μ : Nat} (s : State) (hμ : 0xC0000 &&& μ = 0xC0000 := by decide) : (State.sendHeartbeat s).kept μ = s.kept μ := kept_mono hμ (by
  unfold State.sendHeartbeat
  repeat' (first | with_reducible rfl | (simp; done) | split | (refine (kept_foldl (fun _ _ => ?_) _ _).trans ?_) | (simp; fail_if_success done)))

@[simp] theorem State.setTest_kept {μ : Nat} (x : Nat) (v : TestLane) (s : State) (hμ : 0x200000 &&& μ = 0x200000 := by decide) : (State.setTest x v s).kept μ = s.kept μ := kept_mono hμ (by
  unfold State.setTest
  repeat' (first | with_reducible rfl | (simp; done) | split | (refine (kept_foldl (fun _ _ => ?_) _ _).trans ?_) | (simp; fail_if_success done)))

@[simp] theorem State.enterSafetyNet_kept {μ : Nat} (s : State) (hμ : 0x2C0014 &&& μ = 0x2C0014 := by decide) : (State.enterSafetyNet s).kept μ = s.kept μ := kept_mono hμ (by
  unfold State.enterSafetyNet
  repeat' (first | with_reducible rfl | (simp; done) | split | (refine (kept_foldl (fun _ _ => ?_) _ _).trans ?_) | (simp; fail_if_success done)))

@[simp] theorem State.yieldNow_kept {μ : Nat} (reason : Nat) (at_ : Nat) (s : State) (hμ : 0xC0000 &&& μ = 0xC0000 := by decide) : (State.yieldNow reason at_ s).kept μ = s.kept μ := kept_mono hμ (by
  unfold State.yieldNow
  repeat' (first | with_reducible rfl | (simp; done) | split | (refine (kept_foldl (fun _ _ => ?_) _ _).trans ?_) | (simp; fail_if_success done)))

@[simp] theorem State.fatal_kept {μ : Nat} (s : State) (hμ : 0x2C0014 &&& μ = 0x2C0014 := by decide) : (State.fatal s).kept μ = s.kept μ := kept_mono hμ (by
  unfold State.fatal
  repeat' (first | with_reducible rfl | (simp; done) | split | (refine (kept_foldl (fun _ _ => ?_) _ _).trans ?_) | (simp; fail_if_success done)))

@[simp] theorem State.raiseWith_kept {μ : Nat} (e : Ev) (forced : Bool) (s : State) (hμ : 0x2C0014 &&& μ = 0x2C0014 := by decide) : (State.raiseWith e forced s).kept μ = s.kept μ := kept_mono hμ (by
  unfold State.raiseWith
  repeat' (first | with_reducible rfl | (simp; done) | split | (refine (kept_foldl (fun _ _ => ?_) _ _).trans ?_) | (simp; fail_if_success done)))

@[simp] theorem State.raise_kept {μ : Nat} (e : Ev) (s : State) (hμ : 0x2C0014 &&& μ = 0x2C0014 := by decide) : (State.raise e s).kept μ = s.kept μ := kept_mono hμ (by
  unfold State.raise
  repeat' (first | with_reducible rfl | (simp; done) | split | (refine (kept_foldl (fun _ _ => ?_) _ _).trans ?_) | (simp; fail_if_success done)))

@[simp] theorem State.raise0_kept {μ : Nat} (code : Nat) (l : Nat) (s : State) (hμ : 0x2C0014 &&& μ = 0x2C0014 := by decide) : (State.raise0 code l s).kept μ = s.kept μ := kept_mono hμ (by
  unfold State.raise0
  repeat' (first | with_reducible rfl | (simp; done) | split | (refine (kept_foldl (fun _ _ => ?_) _ _).trans ?_) | (simp; fail_if_success done)))

@[simp] theorem State.raiseEnd_kept {μ : Nat} (code : Nat) (l : Nat) (s : State) (hμ : 0x2C0014 &&& μ = 0x2C0014 := by decide) : (State.raiseEnd code l s).kept μ = s.kept μ := kept_mono hμ (by
  unfold State.raiseEnd
  repeat' (first | with_reducible rfl | (simp; done) | split | (refine (kept_foldl (fun _ _ => ?_) _ _).trans ?_) | (simp; fail_if_success done)))

@[simp] theorem State.isolate_kept {μ : Nat} (code : Nat) (l : Nat) (s : State) (hμ : 0x10 &&& μ = 0x10 := by decide) : (State.isolate code l s).kept μ = s.kept μ := kept_mono hμ (by
  unfold State.isolate
  repeat' (first | with_reducible rfl | (simp; done) | split | (refine (kept_foldl (fun _ _ => ?_) _ _).trans ?_) | (simp; fail_if_success done)))

@[simp] theorem State.contain_kept {μ : Nat} (e : Ev) (forced : Bool) (s : State) (hμ : 0x2C0014 &&& μ = 0x2C0014 := by decide) : (State.contain e forced s).kept μ = s.kept μ := kept_mono hμ (by
  unfold State.contain
  repeat' (first | with_reducible rfl | (simp; done) | split | (refine (kept_foldl (fun _ _ => ?_) _ _).trans ?_) | (simp; fail_if_success done)))

@[simp] theorem State.busError_kept {μ : Nat} (reason : Nat) (addr : Nat) (master : Nat) (s : State) (hμ : 0x2C0014 &&& μ = 0x2C0014 := by decide) : (State.busError reason addr master s).kept μ = s.kept μ := kept_mono hμ (by
  unfold State.busError
  repeat' (first | with_reducible rfl | (simp; done) | split | (refine (kept_foldl (fun _ _ => ?_) _ _).trans ?_) | (simp; fail_if_success done)))

@[simp] theorem State.abortBurst_kept {μ : Nat} (addr : Nat) (master : Nat) (write : Bool) (beats : Nat) (s : State) (hμ : 0x2C0014 &&& μ = 0x2C0014 := by decide) : (State.abortBurst addr master write beats s).kept μ = s.kept μ := kept_mono hμ (by
  unfold State.abortBurst
  repeat' (first | with_reducible rfl | (simp; done) | split | (refine (kept_foldl (fun _ _ => ?_) _ _).trans ?_) | (simp; fail_if_success done)))

@[simp] theorem State.isolateMaster_kept {μ : Nat} (m : Nat) (s : State) (hμ : 0x6C0014 &&& μ = 0x6C0014 := by decide) : (State.isolateMaster m s).kept μ = s.kept μ := kept_mono hμ (by
  unfold State.isolateMaster
  repeat' (first | with_reducible rfl | (simp; done) | split | (refine (kept_foldl (fun _ _ => ?_) _ _).trans ?_) | (simp; fail_if_success done)))

/-! ### Time -/

@[simp] theorem tickRtc_kept {μ : Nat} (s : State) (hμ : 0x3 &&& μ = 0x3 := by decide) : (tickRtc s).kept μ = s.kept μ := kept_mono hμ (by
  unfold tickRtc
  repeat' (first | with_reducible rfl | (simp; done) | split | (refine (kept_foldl (fun _ _ => ?_) _ _).trans ?_) | (simp; fail_if_success done)))

@[simp] theorem drainMgmt_kept {μ : Nat} (s : State) (hμ : 0x1000 &&& μ = 0x1000 := by decide) : (drainMgmt s).kept μ = s.kept μ := kept_mono hμ (by
  unfold drainMgmt
  repeat' (first | with_reducible rfl | (simp; done) | split | (refine (kept_foldl (fun _ _ => ?_) _ _).trans ?_) | (simp; fail_if_success done)))

@[simp] theorem tick_kept {μ : Nat} (s : State) (hμ : 0x1003 &&& μ = 0x1003 := by decide) : (tick s).kept μ = s.kept μ := kept_mono hμ (by
  unfold tick
  repeat' (first | with_reducible rfl | (simp; done) | split | (refine (kept_foldl (fun _ _ => ?_) _ _).trans ?_) | (simp; fail_if_success done)))

/-! ### Serve -/

@[simp] theorem State.setMb_kept {μ : Nat} (n : Nat) (m : Mb) (s : State) (hμ : 0x4 &&& μ = 0x4 := by decide) : (State.setMb n m s).kept μ = s.kept μ := kept_mono hμ (by
  unfold State.setMb
  repeat' (first | with_reducible rfl | (simp; done) | split | (refine (kept_foldl (fun _ _ => ?_) _ _).trans ?_) | (simp; fail_if_success done)))

@[simp] theorem takeUp_kept {μ : Nat} (q : Req) (s : State) (hμ : 0x4 &&& μ = 0x4 := by decide) : (takeUp q s).kept μ = s.kept μ := kept_mono hμ (by
  unfold takeUp
  repeat' (first | with_reducible rfl | (simp; done) | split | (refine (kept_foldl (fun _ _ => ?_) _ _).trans ?_) | (simp; fail_if_success done)))

@[simp] theorem dequeue_kept {μ : Nat} (op : Nat) (q : Req) (s : State) (hμ : 0x4 &&& μ = 0x4 := by decide) : (dequeue op q s).kept μ = s.kept μ := kept_mono hμ (by
  unfold dequeue
  repeat' (first | with_reducible rfl | (simp; done) | split | (refine (kept_foldl (fun _ _ => ?_) _ _).trans ?_) | (simp; fail_if_success done)))

@[simp] theorem respondMailbox_kept {μ : Nat} (op : Nat) (st : Nat) (q : Req) (res : List Byte) (s : State) (hμ : 0x4 &&& μ = 0x4 := by decide) : (respondMailbox op st q res s).kept μ = s.kept μ := kept_mono hμ (by
  unfold respondMailbox
  repeat' (first | with_reducible rfl | (simp; done) | split | (refine (kept_foldl (fun _ _ => ?_) _ _).trans ?_) | (simp; fail_if_success done)))

@[simp] theorem respond_kept {μ : Nat} (op : Nat) (st : Nat) (q : Req) (res : List Byte) (s : State) (hμ : 0x4 &&& μ = 0x4 := by decide) : (respond op st q res s).kept μ = s.kept μ := kept_mono hμ (by
  unfold respond
  repeat' (first | with_reducible rfl | (simp; done) | split | (refine (kept_foldl (fun _ _ => ?_) _ _).trans ?_) | (simp; fail_if_success done)))

theorem holdMirror_kept {μ : Nat} {peers : List PeerAnswer} (op : Nat) (q : Req) (a : Ans) (s : State) (h : a.state.kept μ = s.kept μ)
    (hμ : 0xC0004 &&& μ = 0xC0004 := by decide) : (holdMirror op q a s peers).kept μ = s.kept μ := by
  unfold holdMirror
  simp only
  rw [State.sendMessage_kept (hμ := sub_of hμ (by decide)), State.kept_onCtl _ _ rfl (sub_of hμ (by decide)), State.kept_onTwin _ _ (sub_of hμ (by decide))]
  split
  · exact h
  · rfl

theorem settle_kept {μ : Nat} (op : Nat) (q : Req) (a : Ans) (s0 : State) (hμ : 0x4 &&& μ = 0x4 := by decide) :
    (settle op q a s0).kept μ = a.state.kept μ := by
  cases a
  · exact respond_kept (hμ := hμ) ..
  · exact State.kept_onCtl _ _ rfl hμ
  · exact respond_kept (hμ := hμ) ..

@[simp] theorem State.raiseErr_kept {μ : Nat} (e : Err) (s : State) (hμ : 0x2C0014 &&& μ = 0x2C0014 := by decide) : (State.raiseErr e s).kept μ = s.kept μ := kept_mono hμ (by
  unfold State.raiseErr
  repeat' (first | with_reducible rfl | (simp; done) | split | (refine (kept_foldl (fun _ _ => ?_) _ _).trans ?_) | (simp; fail_if_success done)))

@[simp] theorem refuse_kept {μ : Nat} (op : Nat) (q : Req) (e : Err) (s : State) (hμ : 0x2C0014 &&& μ = 0x2C0014 := by decide) : (refuse op q e s).kept μ = s.kept μ := kept_mono hμ (by
  unfold refuse
  repeat' (first | with_reducible rfl | (simp; done) | split | (refine (kept_foldl (fun _ _ => ?_) _ _).trans ?_) | (simp; fail_if_success done)))

theorem run_kept {μ : Nat} {peers : List PeerAnswer} (op : Nat) (body : Req → State → Except Err Ans) (q : Req) (s0 : State)
    (h : ∀ q s, OkKept μ (s.kept μ) Ans.state (body q s)) (hμ : 0x2C0014 &&& μ = 0x2C0014 := by decide) : (run op body q s0 peers).kept μ = s0.kept μ := by
  have ht : (takeUp q s0).kept μ = s0.kept μ := takeUp_kept (hμ := sub_of hμ (by decide)) ..
  have he (e : Err) : (refuse op q e (takeUp q s0)).kept μ = s0.kept μ := (refuse_kept (hμ := sub_of hμ (by decide)) ..).trans ht
  unfold run
  rw [dequeue_kept (hμ := sub_of hμ (by decide))]
  split
  · exact he _
  · split
    · exact he _
    · next a ha =>
      have hk : a.state.kept μ = s0.kept μ := by rw [(h _ _).out _ ha, ht]
      split
      · exact (holdMirror_kept _ _ _ _ (hk.trans ht.symm) (sub_of hμ (by decide))).trans ht
      · exact (settle_kept _ _ _ _ (sub_of hμ (by decide))).trans hk

theorem runRescue_kept {μ : Nat} (op : Nat) (body : Req → State → Except Err Ans) (q : Req) (s0 : State)
    (h : ∀ q s, OkKept μ (s.kept μ) Ans.state (body q s)) (hμ : 0x2C0014 &&& μ = 0x2C0014 := by decide) : (runRescue op body q s0).kept μ = s0.kept μ := by
  have ht : (takeUp q s0).kept μ = s0.kept μ := takeUp_kept (hμ := sub_of hμ (by decide)) ..
  have he (e : Err) : (refuse op q e (takeUp q s0)).kept μ = s0.kept μ := (refuse_kept (hμ := sub_of hμ (by decide)) ..).trans ht
  unfold runRescue
  rw [dequeue_kept (hμ := sub_of hμ (by decide))]
  split
  · exact he _
  · split
    · exact he _
    · split
      · exact he _
      · next a ha => exact (settle_kept _ _ _ _ (sub_of hμ (by decide))).trans (by rw [(h _ _).out _ ha, ht])

theorem serveAns_keeps {μ : Nat} {peers : List PeerAnswer} (op : Nat) (body : Req → State → Except Err Ans) (q : Req) (s : State)
    (h : ∀ q s, OkKept μ (s.kept μ) Ans.state (body q s)) (hμ : 0x2C0014 &&& μ = 0x2C0014 := by decide) : Keeps μ (s.kept μ) (serveAns op body q s peers) := by
  unfold serveAns
  refine keeps_checked ?_
  simp only [keeps_done]
  repeat' split
  all_goals first
    | exact (run_kept _ _ _ _ h hμ).trans (State.kept_fresh ..)
    | exact (runRescue_kept _ _ _ _ h hμ).trans (State.kept_fresh ..)
    | exact (dequeue_kept (hμ := sub_of hμ (by decide)) ..).trans (State.kept_fresh ..)
    | exact (State.sendP2_kept (hμ := sub_of hμ (by decide)) ..).trans (State.kept_fresh ..)
    | exact State.kept_fresh ..
    | rfl

theorem serve_keeps {μ : Nat} {peers : List PeerAnswer} (op : Nat) (body : Req → State → Res) (q : Req) (s : State)
    (h : ∀ q s, OkKept μ (s.kept μ) (fun x => x.1) (body q s)) (hμ : 0x2C0014 &&& μ = 0x2C0014 := by decide) : Keeps μ (s.kept μ) (serve op body q s peers) :=
  serveAns_keeps _ _ _ _ (fun q s => (h q s).map (fun _ => rfl)) hμ

/-! ### Budget -/

theorem claimAll_ok {μ : Nat} (add : List Hold) (drop : Hold → Bool) (s : State) (hμ : 0x200 &&& μ = 0x200 := by decide) : OkKept μ (s.kept μ) id (claimAll add drop s) := OkKept.mono hμ (by
  unfold claimAll
  (repeat' (first | exact OkKept.error _ | (refine OkKept.pure ?_; (first | with_reducible rfl | (simp; done) | (simp_all; done) | (split <;> simp_all; done))) | (refine OkKept.ok ?_; (first | with_reducible rfl | (simp; done) | (simp_all; done))) | split | (refine OkKept.bind (fun _ _ => ?_)) | (simp only; fail_if_success done))); done)

theorem claimBeside_ok {μ : Nat} (full : List Nat) (add : List Hold) (drop : Hold → Bool) (s : State) (hμ : 0x200 &&& μ = 0x200 := by decide) : OkKept μ (s.kept μ) id (claimBeside full add drop s) := OkKept.mono hμ (by
  unfold claimBeside
  (repeat' (first | exact (claimAll_ok ..) | (refine OkKept.step (claimAll_ok ..) (by simp) (fun _ _ => ?_)) | exact OkKept.error _ | (refine OkKept.pure ?_; (first | with_reducible rfl | (simp; done) | (simp_all; done) | (split <;> simp_all; done))) | (refine OkKept.ok ?_; (first | with_reducible rfl | (simp; done) | (simp_all; done))) | split | (refine OkKept.bind (fun _ _ => ?_)) | (simp only; fail_if_success done))); done)

@[simp] theorem State.release_kept {μ : Nat} (drop : Hold → Bool) (s : State) (hμ : 0x200 &&& μ = 0x200 := by decide) : (State.release drop s).kept μ = s.kept μ := kept_mono hμ (by
  unfold State.release
  repeat' (first | with_reducible rfl | (simp; done) | split | (refine (kept_foldl (fun _ _ => ?_) _ _).trans ?_) | (simp; fail_if_success done)))

@[simp] theorem State.syncWcred_kept {μ : Nat} (ring : Nat) (s : State) (hμ : 0x40 &&& μ = 0x40 := by decide) : (State.syncWcred ring s).kept μ = s.kept μ := kept_mono hμ (by
  unfold State.syncWcred
  repeat' (first | with_reducible rfl | (simp; done) | split | (refine (kept_foldl (fun _ _ => ?_) _ _).trans ?_) | (simp; fail_if_success done)))

@[simp] theorem State.syncWcreds_kept {μ : Nat} (rings : List Nat) (s : State) (hμ : 0x40 &&& μ = 0x40 := by decide) : (State.syncWcreds rings s).kept μ = s.kept μ := kept_mono hμ (by
  unfold State.syncWcreds
  repeat' (first | with_reducible rfl | (simp; done) | split | (refine (kept_foldl (fun _ _ => ?_) _ _).trans ?_) | (simp; fail_if_success done)))

/-! ### AudioRecs -/

@[simp] theorem State.planned_kept {μ : Nat} (s : State) (hμ : 0x8000 &&& μ = 0x8000 := by decide) : (State.planned s).kept μ = s.kept μ := kept_mono hμ (by
  unfold State.planned
  repeat' (first | with_reducible rfl | (simp; done) | split | (refine (kept_foldl (fun _ _ => ?_) _ _).trans ?_) | (simp; fail_if_success done)))

/-! ### Memory -/

@[simp] theorem State.storeBytes_kept {μ : Nat} (a : Nat) (bs : List Byte) (s : State) (hμ : 0x1C0 &&& μ = 0x1C0 := by decide) :
    (State.storeBytes a bs s).kept μ = s.kept μ := kept_mono hμ rfl

theorem runCells_above (d : Nat → Byte) (a : Nat) (bs : List Byte) (b : Nat) (h : b ≤ a) :
    (runCells d a bs).filter (fun c => decide (c.1 < b)) = [] := by
  induction bs generalizing a with
  | nil => rfl
  | cons x l ih =>
    unfold runCells
    split
    · exact ih _ (by omega)
    · rw [List.filter_cons]
      simp only [ih (a + 1) (by omega), show ¬ a < b by omega, decide_false, Bool.false_eq_true, if_false]

theorem memWrite_below (d : Nat → Byte) (l : List Host.Cell) (a : Nat) (bs : List Byte) (b : Nat) (h : b ≤ a) :
    (memWrite d l a bs).filter (fun c => decide (c.1 < b)) = l.filter (fun c => decide (c.1 < b)) := by
  unfold memWrite
  rw [List.filter_append, List.filter_append, runCells_above d a bs b h, List.append_nil, List.filter_filter, List.filter_filter]
  rw [show (fun c : Host.Cell => (decide (c.1 < b) && decide (c.1 < a))) = fun c => decide (c.1 < b) from
    funext fun c => by by_cases hc : c.1 < b <;> simp [hc]; omega]
  rw [show (fun c : Host.Cell => (decide (c.1 < b) && decide (a + bs.length ≤ c.1))) = fun _ => false from
    funext fun c => by by_cases hc : c.1 < b <;> simp [hc]; omega]
  simp

/-- A store in the check region leaves the payload bytes. -/
theorem storeCheck_kept {μ : Nat} (a : Nat) (bs : List Byte) (s : State) (ha : checkBase s.pwr.reduced ≤ a)
    (hμ : 0xC0 &&& μ = 0xC0 := by decide) : (State.storeBytes a bs s).kept μ = s.kept μ := kept_mono hμ (by
  have h : (State.storeBytes a bs s).payload = s.payload := memWrite_below _ _ _ _ _ ha
  unfold State.kept
  rw [h]
  rfl)

@[simp] theorem State.takeBest_kept {μ : Nat} (tiles : List Nat) (s : State) (hμ : 0x200 &&& μ = 0x200 := by decide) : (State.takeBest tiles s).kept μ = s.kept μ := kept_mono hμ (by
  unfold State.takeBest
  repeat' (first | with_reducible rfl | (simp; done) | split | (refine (kept_foldl (fun _ _ => ?_) _ _).trans ?_) | (simp; fail_if_success done)))

@[simp] theorem State.putTile_kept {μ : Nat} (r : Nat) (eseq : BitVec 32) (bytes : List Byte) (pos : Nat) (fin : Bool) (poison : Bool) (s : State) (hμ : 0x1C0 &&& μ = 0x1C0 := by decide) : (State.putTile r eseq bytes pos fin poison s).kept μ = s.kept μ := kept_mono hμ (by
  unfold State.putTile
  repeat' (first | with_reducible rfl | (simp; done) | split | (refine (kept_foldl (fun _ _ => ?_) _ _).trans ?_) | (simp; fail_if_success done)))

@[simp] theorem State.poisonTile_kept {μ : Nat} (r : Nat) (e : BitVec 32) (s : State) (hμ : 0xC0 &&& μ = 0xC0 := by decide) :
    (State.poisonTile r e s).kept μ = s.kept μ := storeCheck_kept _ _ _ (Nat.le_add_right _ _) hμ

@[simp] theorem State.openMarker_kept {μ : Nat} (r : Nat) (eseq : BitVec 32) (s : State) (hμ : 0x40 &&& μ = 0x40 := by decide) : (State.openMarker r eseq s).kept μ = s.kept μ := kept_mono hμ (by
  unfold State.openMarker
  repeat' (first | with_reducible rfl | (simp; done) | split | (refine (kept_foldl (fun _ _ => ?_) _ _).trans ?_) | (simp; fail_if_success done)))

@[simp] theorem State.onMarker_kept {μ : Nat} (r : Nat) (eseq : BitVec 32) (f : Marker → Marker) (s : State) (hμ : 0x40 &&& μ = 0x40 := by decide) : (State.onMarker r eseq f s).kept μ = s.kept μ := kept_mono hμ (by
  unfold State.onMarker
  repeat' (first | with_reducible rfl | (simp; done) | split | (refine (kept_foldl (fun _ _ => ?_) _ _).trans ?_) | (simp; fail_if_success done)))

@[simp] theorem State.onRingCtr_kept {μ : Nat} (r : Nat) (f : RingCtr → RingCtr) (s : State) (hμ : 0x40 &&& μ = 0x40 := by decide) : (State.onRingCtr r f s).kept μ = s.kept μ := kept_mono hμ (by
  unfold State.onRingCtr
  repeat' (first | with_reducible rfl | (simp; done) | split | (refine (kept_foldl (fun _ _ => ?_) _ _).trans ?_) | (simp; fail_if_success done)))

@[simp] theorem State.onChan_kept {μ : Nat} (c : Nat) (f : Chan → Chan) (s : State) (hμ : 0x40 &&& μ = 0x40 := by decide) : (State.onChan c f s).kept μ = s.kept μ := kept_mono hμ (by
  unfold State.onChan
  repeat' (first | with_reducible rfl | (simp; done) | split | (refine (kept_foldl (fun _ _ => ?_) _ _).trans ?_) | (simp; fail_if_success done)))

/-! ### LegQueue -/

@[simp] theorem State.setMerge_kept {μ : Nat} (m : Nat) (v : MergeSt) (s : State) (hμ : 0x2000 &&& μ = 0x2000 := by decide) : (State.setMerge m v s).kept μ = s.kept μ := kept_mono hμ (by
  unfold State.setMerge
  repeat' (first | with_reducible rfl | (simp; done) | split | (refine (kept_foldl (fun _ _ => ?_) _ _).trans ?_) | (simp; fail_if_success done)))

@[simp] theorem State.onLeg_kept {μ : Nat} (m : Nat) (second : Bool) (f : LegSt → LegSt) (s : State) (hμ : 0x2000 &&& μ = 0x2000 := by decide) : (State.onLeg m second f s).kept μ = s.kept μ := kept_mono hμ (by
  unfold State.onLeg
  repeat' (first | with_reducible rfl | (simp; done) | split | (refine (kept_foldl (fun _ _ => ?_) _ _).trans ?_) | (simp; fail_if_success done)))

@[simp] theorem State.legOpen_kept {μ : Nat} (r : Nat) (first : BitVec 32) (s : State) (hμ : 0x2C2014 &&& μ = 0x2C2014 := by decide) : (State.legOpen r first s).kept μ = s.kept μ := kept_mono hμ (by
  unfold State.legOpen
  repeat' (first | with_reducible rfl | (simp; done) | split | (refine (kept_foldl (fun _ _ => ?_) _ _).trans ?_) | (simp; fail_if_success done)))

@[simp] theorem State.legState_kept {μ : Nat} (r : Nat) (first : BitVec 32) (k : MarkState) (s : State) (hμ : 0x2000 &&& μ = 0x2000 := by decide) : (State.legState r first k s).kept μ = s.kept μ := kept_mono hμ (by
  unfold State.legState
  repeat' (first | with_reducible rfl | (simp; done) | split | (refine (kept_foldl (fun _ _ => ?_) _ _).trans ?_) | (simp; fail_if_success done)))

@[simp] theorem State.lateDiffers_kept {μ : Nat} (m : Nat) (n : Nat) (j : Nat) (payload : List Byte) (s : State) (hμ : 0x2C0014 &&& μ = 0x2C0014 := by decide) : (State.lateDiffers m n j payload s).kept μ = s.kept μ := kept_mono hμ (by
  unfold State.lateDiffers
  repeat' (first | with_reducible rfl | (simp; done) | split | (refine (kept_foldl (fun _ _ => ?_) _ _).trans ?_) | (simp; fail_if_success done)))

@[simp] theorem State.legCommit_kept {μ : Nat} (r : Nat) (eseq : BitVec 32) (fin : Bool) (payload : List Byte) (poison : Bool) (s : State) (hμ : 0x2C2014 &&& μ = 0x2C2014 := by decide) : (State.legCommit r eseq fin payload poison s).kept μ = s.kept μ := kept_mono hμ (by
  unfold State.legCommit
  repeat' (first | with_reducible rfl | (simp; done) | split | (refine (kept_foldl (fun _ _ => ?_) _ _).trans ?_) | (simp; fail_if_success done)))

/-! ### Exports -/

@[simp] theorem State.setLink_kept {μ : Nat} (k : Nat) (v : BitVec 128) (s : State) (hμ : 0x40000 &&& μ = 0x40000 := by decide) : (State.setLink k v s).kept μ = s.kept μ := kept_mono hμ (by
  unfold State.setLink
  repeat' (first | with_reducible rfl | (simp; done) | split | (refine (kept_foldl (fun _ _ => ?_) _ _).trans ?_) | (simp; fail_if_success done)))

@[simp] theorem State.setSvLane_kept {μ : Nat} (l : Nat) (v : BitVec 64) (s : State) (hμ : 0x40000 &&& μ = 0x40000 := by decide) : (State.setSvLane l v s).kept μ = s.kept μ := kept_mono hμ (by
  unfold State.setSvLane
  repeat' (first | with_reducible rfl | (simp; done) | split | (refine (kept_foldl (fun _ _ => ?_) _ _).trans ?_) | (simp; fail_if_success done)))

@[simp] theorem State.setSvRun_kept {μ : Nat} (l : Nat) (v : LaneRun) (s : State) (hμ : 0x40000 &&& μ = 0x40000 := by decide) : (State.setSvRun l v s).kept μ = s.kept μ := kept_mono hμ (by
  unfold State.setSvRun
  repeat' (first | with_reducible rfl | (simp; done) | split | (refine (kept_foldl (fun _ _ => ?_) _ _).trans ?_) | (simp; fail_if_success done)))

@[simp] theorem State.setExp_kept {μ : Nat} (i : Nat) (v : BitVec 128) (s : State) (hμ : 0x40000 &&& μ = 0x40000 := by decide) : (State.setExp i v s).kept μ = s.kept μ := kept_mono hμ (by
  unfold State.setExp
  repeat' (first | with_reducible rfl | (simp; done) | split | (refine (kept_foldl (fun _ _ => ?_) _ _).trans ?_) | (simp; fail_if_success done)))

@[simp] theorem State.setImp_kept {μ : Nat} (i : Nat) (v : BitVec 64) (s : State) (hμ : 0x40000 &&& μ = 0x40000 := by decide) : (State.setImp i v s).kept μ = s.kept μ := kept_mono hμ (by
  unfold State.setImp
  repeat' (first | with_reducible rfl | (simp; done) | split | (refine (kept_foldl (fun _ _ => ?_) _ _).trans ?_) | (simp; fail_if_success done)))

@[simp] theorem State.setImpSt_kept {μ : Nat} (i : Nat) (v : ImpSt) (s : State) (hμ : 0x40000 &&& μ = 0x40000 := by decide) : (State.setImpSt i v s).kept μ = s.kept μ := kept_mono hμ (by
  unfold State.setImpSt
  repeat' (first | with_reducible rfl | (simp; done) | split | (refine (kept_foldl (fun _ _ => ?_) _ _).trans ?_) | (simp; fail_if_success done)))

@[simp] theorem State.setOutq_kept {μ : Nat} (r : Nat) (l : List OutWait) (s : State) (hμ : 0x40000 &&& μ = 0x40000 := by decide) : (State.setOutq r l s).kept μ = s.kept μ := kept_mono hμ (by
  unfold State.setOutq
  repeat' (first | with_reducible rfl | (simp; done) | split | (refine (kept_foldl (fun _ _ => ?_) _ _).trans ?_) | (simp; fail_if_success done)))

@[simp] theorem State.putAbandon_kept {μ : Nat} (r : Nat) (first : BitVec 32) (resume : BitVec 32) (s : State) (hμ : 0x40000 &&& μ = 0x40000 := by decide) : (State.putAbandon r first resume s).kept μ = s.kept μ := kept_mono hμ (by
  unfold State.putAbandon
  repeat' (first | with_reducible rfl | (simp; done) | split | (refine (kept_foldl (fun _ _ => ?_) _ _).trans ?_) | (simp; fail_if_success done)))

@[simp] theorem State.sendAbandon_kept {μ : Nat} (r : Nat) (first : BitVec 32) (resume : BitVec 32) (s : State) (hμ : 0x40000 &&& μ = 0x40000 := by decide) : (State.sendAbandon r first resume s).kept μ = s.kept μ := kept_mono hμ (by
  unfold State.sendAbandon
  repeat' (first | with_reducible rfl | (simp; done) | split | (refine (kept_foldl (fun _ _ => ?_) _ _).trans ?_) | (simp; fail_if_success done)))

/-! ### Writer -/

@[simp] theorem State.setWr_kept {μ : Nat} (r : Nat) (w : WrSt) (s : State) (hμ : 0x40 &&& μ = 0x40 := by decide) : (State.setWr r w s).kept μ = s.kept μ := kept_mono hμ (by
  unfold State.setWr
  repeat' (first | with_reducible rfl | (simp; done) | split | (refine (kept_foldl (fun _ _ => ?_) _ _).trans ?_) | (simp; fail_if_success done)))

@[simp] theorem State.skipTiles_kept {μ : Nat} (r : Nat) (n : Nat) (s : State) (hμ : 0x40 &&& μ = 0x40 := by decide) : (State.skipTiles r n s).kept μ = s.kept μ := kept_mono hμ (by
  unfold State.skipTiles
  repeat' (first | with_reducible rfl | (simp; done) | split | (refine (kept_foldl (fun _ _ => ?_) _ _).trans ?_) | (simp; fail_if_success done)))

@[simp] theorem State.abandon_kept {μ : Nat} (r : Nat) (ranOut : Bool) (s : State) (hμ : 0x420C0 &&& μ = 0x420C0 := by decide) : (State.abandon r ranOut s).kept μ = s.kept μ := kept_mono hμ (by
  unfold State.abandon
  repeat' (first | with_reducible rfl | (simp; done) | split | (refine (kept_foldl (fun _ _ => ?_) _ _).trans ?_) | (simp; fail_if_success done)))

@[simp] theorem State.abandonCounted_kept {μ : Nat} (r : Nat) (l : Nat) (ranOut : Bool) (s : State) (hμ : 0x2C20D4 &&& μ = 0x2C20D4 := by decide) : (State.abandonCounted r l ranOut s).kept μ = s.kept μ := kept_mono hμ (by
  unfold State.abandonCounted
  repeat' (first | with_reducible rfl | (simp; done) | split | (refine (kept_foldl (fun _ _ => ?_) _ _).trans ?_) | (simp; fail_if_success done)))

@[simp] theorem State.startUnit_kept {μ : Nat} (r : Nat) (l : Nat) (s : State) (hμ : 0x2C20D4 &&& μ = 0x2C20D4 := by decide) : (State.startUnit r l s).kept μ = s.kept μ := kept_mono hμ (by
  unfold State.startUnit
  repeat' (first | with_reducible rfl | (simp; done) | split | (refine (kept_foldl (fun _ _ => ?_) _ _).trans ?_) | (simp; fail_if_success done)))

@[simp] theorem State.stageTile_kept {μ : Nat} (r : Nat) (bytes : List Byte) (fin : Bool) (poison : Bool) (free : Bool) (s : State) (hμ : 0x40 &&& μ = 0x40 := by decide) : (State.stageTile r bytes fin poison free s).kept μ = s.kept μ := kept_mono hμ (by
  unfold State.stageTile
  repeat' (first | with_reducible rfl | (simp; done) | split | (refine (kept_foldl (fun _ _ => ?_) _ _).trans ?_) | (simp; fail_if_success done)))

@[simp] theorem State.closeTile_kept {μ : Nat} (r : Nat) (l : Nat) (bytes : List Byte) (fin : Bool) (s : State) (hμ : 0x2C20D4 &&& μ = 0x2C20D4 := by decide) : (State.closeTile r l bytes fin s).kept μ = s.kept μ := kept_mono hμ (by
  unfold State.closeTile
  repeat' (first | with_reducible rfl | (simp; done) | split | (refine (kept_foldl (fun _ _ => ?_) _ _).trans ?_) | (simp; fail_if_success done)))

@[simp] theorem State.closeMissing_kept {μ : Nat} (r : Nat) (bytes : List Byte) (fin : Bool) (poison : Bool) (s : State) (hμ : 0x40 &&& μ = 0x40 := by decide) : (State.closeMissing r bytes fin poison s).kept μ = s.kept μ := kept_mono hμ (by
  unfold State.closeMissing
  repeat' (first | with_reducible rfl | (simp; done) | split | (refine (kept_foldl (fun _ _ => ?_) _ _).trans ?_) | (simp; fail_if_success done)))

@[simp] theorem State.feed_kept {μ : Nat} (r l b) (s : State) (hμ : 0x2C20D4 &&& μ = 0x2C20D4 := by decide) : (State.feed r l b s).kept μ = s.kept μ := kept_mono hμ (by
  unfold State.feed
  extract_lets w all n s1
  have h1 : s1.kept 0x2C20D4 = s.kept 0x2C20D4 := kept_foldl (fun _ _ => by simp) _ _
  repeat' split
  all_goals simp [h1])

@[simp] theorem State.flush_kept {μ : Nat} (r : Nat) (l : Nat) (s : State) (hμ : 0x2C20D4 &&& μ = 0x2C20D4 := by decide) : (State.flush r l s).kept μ = s.kept μ := kept_mono hμ (by
  unfold State.flush
  repeat' (first | with_reducible rfl | (simp; done) | split | (refine (kept_foldl (fun _ _ => ?_) _ _).trans ?_) | (simp; fail_if_success done)))

@[simp] theorem State.feedLine_kept {μ : Nat} (r l b) (s : State) (hμ : 0x2C20D4 &&& μ = 0x2C20D4 := by decide) : (State.feedLine r l b s).kept μ = s.kept μ := kept_mono hμ (by
  unfold State.feedLine
  extract_lets d w0 n1 s0 w line s1 _ s2
  have h0 : s0.kept 0x2C20D4 = s.kept 0x2C20D4 := by simp only [s0]; split <;> simp
  have h1 : s1.kept 0x2C20D4 = s.kept 0x2C20D4 := by
    simp only [s1]
    split
    · exact (kept_foldl (fun _ _ => by simp) _ _).trans h0
    · simp [h0]
  have h2 : s2.kept 0x2C20D4 = s.kept 0x2C20D4 := (State.setWr_kept ..).trans h1
  split <;> simp [h2])

@[simp] theorem State.feedUnit_kept {μ : Nat} (r l b) (s : State) (hμ : 0x2C20D4 &&& μ = 0x2C20D4 := by decide) : (State.feedUnit r l b s).kept μ = s.kept μ := kept_mono hμ (by
  unfold State.feedUnit
  extract_lets w all n s1
  have h1 : s1.kept 0x2C20D4 = s.kept 0x2C20D4 := kept_foldl (fun _ _ => by simp) _ _
  repeat' split
  all_goals simp [h1])

@[simp] theorem State.endUnit_kept {μ : Nat} (r : Nat) (l : Nat) (s : State) (hμ : 0x2C20D4 &&& μ = 0x2C20D4 := by decide) : (State.endUnit r l s).kept μ = s.kept μ := kept_mono hμ (by
  unfold State.endUnit
  repeat' (first | with_reducible rfl | (simp; done) | split | (refine (kept_foldl (fun _ _ => ?_) _ _).trans ?_) | (simp; fail_if_success done)))

@[simp] theorem State.feedOrOpen_kept {μ : Nat} (r : Nat) (l : Nat) (bytes : List Byte) (s : State) (hμ : 0x2C20D4 &&& μ = 0x2C20D4 := by decide) : (State.feedOrOpen r l bytes s).kept μ = s.kept μ := kept_mono hμ (by
  unfold State.feedOrOpen
  repeat' (first | with_reducible rfl | (simp; done) | split | (refine (kept_foldl (fun _ _ => ?_) _ _).trans ?_) | (simp; fail_if_success done)))

@[simp] theorem State.writeUnit_kept {μ : Nat} (r : Nat) (l : Nat) (bytes : List Byte) (s : State) (hμ : 0x2C20D4 &&& μ = 0x2C20D4 := by decide) : (State.writeUnit r l bytes s).kept μ = s.kept μ := kept_mono hμ (by
  unfold State.writeUnit
  repeat' (first | with_reducible rfl | (simp; done) | split | (refine (kept_foldl (fun _ _ => ?_) _ _).trans ?_) | (simp; fail_if_success done)))

@[simp] theorem State.writeAudio_kept {μ : Nat} (r : Nat) (l : Nat) (bytes : List Byte) (poison : Bool) (s : State) (hμ : 0x2C20D4 &&& μ = 0x2C20D4 := by decide) : (State.writeAudio r l bytes poison s).kept μ = s.kept μ := kept_mono hμ (by
  unfold State.writeAudio
  repeat' (first | with_reducible rfl | (simp; done) | split | (refine (kept_foldl (fun _ _ => ?_) _ _).trans ?_) | (simp; fail_if_success done)))

@[simp] theorem State.commitTile_kept {μ : Nat} (r : Nat) (t : Staged) (s : State) (hμ : 0x2C21D4 &&& μ = 0x2C21D4 := by decide) : (State.commitTile r t s).kept μ = s.kept μ := kept_mono hμ (by
  unfold State.commitTile
  repeat' (first | with_reducible rfl | (simp; done) | split | (refine (kept_foldl (fun _ _ => ?_) _ _).trans ?_) | (simp; fail_if_success done)))

@[simp] theorem State.spend_kept {μ : Nat} (g : Grp) (ch : Nat) (s : State) (hμ : 0x200 &&& μ = 0x200 := by decide) : (State.spend g ch s).kept μ = s.kept μ := kept_mono hμ (by
  unfold State.spend
  repeat' (first | with_reducible rfl | (simp; done) | split | (refine (kept_foldl (fun _ _ => ?_) _ _).trans ?_) | (simp; fail_if_success done)))

@[simp] theorem State.stopWriter_kept {μ : Nat} (r : Nat) (s : State) (hμ : 0x420C0 &&& μ = 0x420C0 := by decide) : (State.stopWriter r s).kept μ = s.kept μ := kept_mono hμ (by
  unfold State.stopWriter
  repeat' (first | with_reducible rfl | (simp; done) | split | (refine (kept_foldl (fun _ _ => ?_) _ _).trans ?_) | (simp; fail_if_success done)))

/-! ### Reader -/

@[simp] theorem State.countVerdict_kept {μ : Nat} (r : Nat) (eseq : BitVec 32) (data : Bool) (v : Verdict) (s : State) (hμ : 0x40 &&& μ = 0x40 := by decide) : (State.countVerdict r eseq data v s).kept μ = s.kept μ := kept_mono hμ (by
  unfold State.countVerdict
  repeat' (first | with_reducible rfl | (simp; done) | split | (refine (kept_foldl (fun _ _ => ?_) _ _).trans ?_) | (simp; fail_if_success done)))

@[simp] theorem State.raiseVerdict_kept {μ : Nat} (r : Nat) (eseq : BitVec 32) (l : Nat) (v : Verdict) (s : State) (hμ : 0x2C0014 &&& μ = 0x2C0014 := by decide) : (State.raiseVerdict r eseq l v s).kept μ = s.kept μ := kept_mono hμ (by
  unfold State.raiseVerdict
  repeat' (first | with_reducible rfl | (simp; done) | split | (refine (kept_foldl (fun _ _ => ?_) _ _).trans ?_) | (simp; fail_if_success done)))

@[simp] theorem State.cacheReport_kept {μ : Nat} (r : Nat) (eseq : BitVec 32) (e : CacheErr) (s : State) (hμ : 0x2C0054 &&& μ = 0x2C0054 := by decide) : (State.cacheReport r eseq e s).kept μ = s.kept μ := kept_mono hμ (by
  unfold State.cacheReport
  repeat' (first | with_reducible rfl | (simp; done) | split | (refine (kept_foldl (fun _ _ => ?_) _ _).trans ?_) | (simp; fail_if_success done)))

@[simp] theorem State.concealVideo_kept {μ : Nat} (r : Nat) (l : Nat) (eseq : BitVec 32) (first : BitVec 32) (v : Verdict) (s : State) (hμ : 0x2C0054 &&& μ = 0x2C0054 := by decide) : (State.concealVideo r l eseq first v s).1.kept μ = s.kept μ := kept_mono hμ (by
  unfold State.concealVideo
  repeat' (first | with_reducible rfl | (simp; done) | split | (refine (kept_foldl (fun _ _ => ?_) _ _).trans ?_) | (simp; fail_if_success done)))

/-! ### Rings -/

@[simp] theorem ringCreateDo_kept {μ : Nat} (r : Nat) (d : BitVec 256) (decl : Nat × Nat) (s : State) (hμ : 0x40 &&& μ = 0x40 := by decide) : (ringCreateDo r d decl s).kept μ = s.kept μ := kept_mono hμ (by
  unfold ringCreateDo
  repeat' (first | with_reducible rfl | (simp; done) | split | (refine (kept_foldl (fun _ _ => ?_) _ _).trans ?_) | (simp; fail_if_success done)))

theorem cmdRingCreate_ok {μ : Nat} (q : Req) (s : State) (hμ : 0x40 &&& μ = 0x40 := by decide) : OkKept μ (s.kept μ) (fun x => x.1) (cmdRingCreate q s) := OkKept.mono hμ (by
  unfold cmdRingCreate
  exact OkKept.bind (fun x _ => OkKept.pure (ringCreateDo_kept ..)))

theorem execRingCreate_keeps {μ : Nat} (q : Req) (s : State) (hμ : 0x2C0054 &&& μ = 0x2C0054 := by decide) : Keeps μ (s.kept μ) (execRingCreate q s) := Keeps.mono hμ (by
  unfold execRingCreate; exact serve_keeps _ _ _ _ (fun _ _ => cmdRingCreate_ok ..))

@[simp] theorem ringDeleteDo_kept {μ : Nat} (r : Nat) (s : State) (hμ : 0x240 &&& μ = 0x240 := by decide) : (ringDeleteDo r s).kept μ = s.kept μ := kept_mono hμ (by
  unfold ringDeleteDo
  repeat' (first | with_reducible rfl | (simp; done) | split | (refine (kept_foldl (fun _ _ => ?_) _ _).trans ?_) | (simp; fail_if_success done)))

theorem cmdRingDelete_ok {μ : Nat} (q : Req) (s : State) (hμ : 0x240 &&& μ = 0x240 := by decide) : OkKept μ (s.kept μ) (fun x => x.1) (cmdRingDelete q s) := OkKept.mono hμ (by
  unfold cmdRingDelete
  (repeat' (first | exact OkKept.error _ | (refine OkKept.pure ?_; (first | with_reducible rfl | (simp; done) | (simp_all; done) | (split <;> simp_all; done))) | (refine OkKept.ok ?_; (first | with_reducible rfl | (simp; done) | (simp_all; done))) | split | (refine OkKept.bind (fun _ _ => ?_)) | (simp only; fail_if_success done))); done)

theorem execRingDelete_keeps {μ : Nat} (q : Req) (s : State) (hμ : 0x2C0254 &&& μ = 0x2C0254 := by decide) : Keeps μ (s.kept μ) (execRingDelete q s) := Keeps.mono hμ (by
  unfold execRingDelete; exact serve_keeps _ _ _ _ (fun _ _ => cmdRingDelete_ok ..))

theorem ringModifyClaims_ok {μ : Nat} (r : Nat) (d : BitVec 256) (s : State) (hμ : 0x200 &&& μ = 0x200 := by decide) : OkKept μ (s.kept μ) id (ringModifyClaims r d s) := OkKept.mono hμ (by
  unfold ringModifyClaims
  split
  · exact OkKept.ok rfl
  · exact OkKept.ite (OkKept.ok rfl) (claimAll_ok ..))

theorem ringModifyCheck_ok {μ : Nat} (q : Req) (s : State) (hμ : 0x240 &&& μ = 0x240 := by decide) : OkKept μ (s.kept μ) (fun x => x.2.2) (ringModifyCheck q s) := OkKept.mono hμ (OkKept.bind (fun _ _ => OkKept.step (ringModifyClaims_ok ..) rfl (fun _ ht => OkKept.pure ht)))

theorem cmdRingModify_ok {μ : Nat} (q : Req) (s : State) (hμ : 0x240 &&& μ = 0x240 := by decide) : OkKept μ (s.kept μ) (fun x => x.1) (cmdRingModify q s) := OkKept.mono hμ (by
  unfold cmdRingModify
  (repeat' (first | exact (ringModifyCheck_ok ..) | (refine OkKept.step (ringModifyCheck_ok ..) (by simp) (fun _ _ => ?_)) | exact OkKept.error _ | (refine OkKept.pure ?_; (first | with_reducible rfl | (simp; done) | (simp_all; done) | (split <;> simp_all; done))) | (refine OkKept.ok ?_; (first | with_reducible rfl | (simp; done) | (simp_all; done))) | split | (refine OkKept.bind (fun _ _ => ?_)) | (simp only; fail_if_success done))); done)

theorem execRingModify_keeps {μ : Nat} (q : Req) (s : State) (hμ : 0x2C0254 &&& μ = 0x2C0254 := by decide) : Keeps μ (s.kept μ) (execRingModify q s) := Keeps.mono hμ (by
  unfold execRingModify; exact serve_keeps _ _ _ _ (fun _ _ => cmdRingModify_ok ..))

theorem cmdRingQuery_ok {μ : Nat} (q : Req) (s : State) (hμ : 0x40 &&& μ = 0x40 := by decide) : OkKept μ (s.kept μ) (fun x => x.1) (cmdRingQuery q s) := OkKept.mono hμ (by
  unfold cmdRingQuery
  (repeat' (first | exact OkKept.error _ | (refine OkKept.pure ?_; (first | with_reducible rfl | (simp; done) | (simp_all; done) | (split <;> simp_all; done))) | (refine OkKept.ok ?_; (first | with_reducible rfl | (simp; done) | (simp_all; done))) | split | (refine OkKept.bind (fun _ _ => ?_)) | (simp only; fail_if_success done))); done)

theorem execRingQuery_keeps {μ : Nat} (q : Req) (s : State) (hμ : 0x2C0054 &&& μ = 0x2C0054 := by decide) : Keeps μ (s.kept μ) (execRingQuery q s) := Keeps.mono hμ (by
  unfold execRingQuery; exact serve_keeps _ _ _ _ (fun _ _ => cmdRingQuery_ok ..))

theorem cmdMemStatus_ok {μ : Nat} (q : Req) (s : State) (hμ : 0x40 &&& μ = 0x40 := by decide) : OkKept μ (s.kept μ) (fun x => x.1) (cmdMemStatus q s) := OkKept.mono hμ (by
  unfold cmdMemStatus
  (repeat' (first | exact OkKept.error _ | (refine OkKept.pure ?_; (first | with_reducible rfl | (simp; done) | (simp_all; done) | (split <;> simp_all; done))) | (refine OkKept.ok ?_; (first | with_reducible rfl | (simp; done) | (simp_all; done))) | split | (refine OkKept.bind (fun _ _ => ?_)) | (simp only; fail_if_success done))); done)

theorem execMemStatus_keeps {μ : Nat} (q : Req) (s : State) (hμ : 0x2C0054 &&& μ = 0x2C0054 := by decide) : Keeps μ (s.kept μ) (execMemStatus q s) := Keeps.mono hμ (by
  unfold execMemStatus; exact serve_keeps _ _ _ _ (fun _ _ => cmdMemStatus_ok ..))

end Sys2Proof.Machine
end

