-- ==== Sys2Proof/Laws/KeptTime.lean ====
section
/-! SUPPORT. What is left as it is by planes, references, PTP and the audio output stage. -/

set_option Elab.async false

namespace Sys2Proof.Machine

open Sys2Proof

/-! ### Planes -/

@[simp] theorem State.setPlane_kept {μ : Nat} (p : Nat) (r : BitVec 128) (s : State) (hμ : 0x10000 &&& μ = 0x10000 := by decide) : (State.setPlane p r s).kept μ = s.kept μ := kept_mono hμ (by
  unfold State.setPlane
  repeat' (first | with_reducible rfl | (simp; done) | split | (refine (kept_foldl (fun _ _ => ?_) _ _).trans ?_) | (simp; fail_if_success done)))

@[simp] theorem State.setPlaneSt_kept {μ : Nat} (p : Nat) (v : PlaneSt) (s : State) (hμ : 0x10000 &&& μ = 0x10000 := by decide) : (State.setPlaneSt p v s).kept μ = s.kept μ := kept_mono hμ (by
  unfold State.setPlaneSt
  repeat' (first | with_reducible rfl | (simp; done) | split | (refine (kept_foldl (fun _ _ => ?_) _ _).trans ?_) | (simp; fail_if_success done)))

@[simp] theorem State.phaseChange_kept {μ : Nat} (p : Nat) (d : Int) (s : State) (hμ : 0x10000 &&& μ = 0x10000 := by decide) : (State.phaseChange p d s).kept μ = s.kept μ := kept_mono hμ (by
  unfold State.phaseChange
  repeat' (first | with_reducible rfl | (simp; done) | split | (refine (kept_foldl (fun _ _ => ?_) _ _).trans ?_) | (simp; fail_if_success done)))

@[simp] theorem State.planeStepped_kept {μ : Nat} (p : Nat) (reason : Nat) (d : Int) (s : State) (hμ : 0x2C0014 &&& μ = 0x2C0014 := by decide) : (State.planeStepped p reason d s).kept μ = s.kept μ := kept_mono hμ (by
  unfold State.planeStepped
  repeat' (first | with_reducible rfl | (simp; done) | split | (refine (kept_foldl (fun _ _ => ?_) _ _).trans ?_) | (simp; fail_if_success done)))

@[simp] theorem planeWriteDo_kept {μ : Nat} (p : Nat) (new : BitVec 128) (s : State) (hμ : 0x10000 &&& μ = 0x10000 := by decide) : (planeWriteDo p new s).kept μ = s.kept μ := kept_mono hμ (by
  unfold planeWriteDo
  repeat' (first | with_reducible rfl | (simp; done) | split | (refine (kept_foldl (fun _ _ => ?_) _ _).trans ?_) | (simp; fail_if_success done)))

theorem cmdPlaneWrite_ok {μ : Nat} (q : Req) (s : State) (hμ : 0x10000 &&& μ = 0x10000 := by decide) : OkKept μ (s.kept μ) (fun x => x.1) (cmdPlaneWrite q s) := OkKept.mono hμ (by
  unfold cmdPlaneWrite
  (repeat' (first | exact OkKept.error _ | (refine OkKept.pure ?_; (first | with_reducible rfl | (simp; done) | (simp_all; done) | (split <;> simp_all; done))) | (refine OkKept.ok ?_; (first | with_reducible rfl | (simp; done) | (simp_all; done))) | split | (refine OkKept.bind (fun _ _ => ?_)) | (simp only; fail_if_success done))); done)

theorem execPlaneWrite_keeps {μ : Nat} (q : Req) (s : State) (hμ : 0x2D0014 &&& μ = 0x2D0014 := by decide) : Keeps μ (s.kept μ) (execPlaneWrite q s) := Keeps.mono hμ (by
  unfold execPlaneWrite; exact serve_keeps _ _ _ _ (fun _ _ => cmdPlaneWrite_ok ..))

@[simp] theorem State.pulseLost_kept {μ : Nat} (o : Nat) (old : BitVec 64) (new : BitVec 64) (s : State) (hμ : 0x2D0014 &&& μ = 0x2D0014 := by decide) : (State.pulseLost o old new s).kept μ = s.kept μ := kept_mono hμ (by
  unfold State.pulseLost
  repeat' (first | with_reducible rfl | (simp; done) | split | (refine (kept_foldl (fun _ _ => ?_) _ _).trans ?_) | (simp; fail_if_success done)))

@[simp] theorem pulseWriteDo_kept {μ : Nat} (o : Nat) (new : BitVec 64) (s : State) (hμ : 0x2D0014 &&& μ = 0x2D0014 := by decide) : (pulseWriteDo o new s).kept μ = s.kept μ := kept_mono hμ (by
  unfold pulseWriteDo
  repeat' (first | with_reducible rfl | (simp; done) | split | (refine (kept_foldl (fun _ _ => ?_) _ _).trans ?_) | (simp; fail_if_success done)))

theorem cmdPulseWrite_ok {μ : Nat} (q : Req) (s : State) (hμ : 0x2D0014 &&& μ = 0x2D0014 := by decide) : OkKept μ (s.kept μ) (fun x => x.1) (cmdPulseWrite q s) := OkKept.mono hμ (by
  unfold cmdPulseWrite
  (repeat' (first | exact OkKept.error _ | (refine OkKept.pure ?_; (first | with_reducible rfl | (simp; done) | (simp_all; done) | (split <;> simp_all; done))) | (refine OkKept.ok ?_; (first | with_reducible rfl | (simp; done) | (simp_all; done))) | split | (refine OkKept.bind (fun _ _ => ?_)) | (simp only; fail_if_success done))); done)

theorem execPulseWrite_keeps {μ : Nat} (q : Req) (s : State) (hμ : 0x2D0014 &&& μ = 0x2D0014 := by decide) : Keeps μ (s.kept μ) (execPulseWrite q s) := Keeps.mono hμ (by
  unfold execPulseWrite; exact serve_keeps _ _ _ _ (fun _ _ => cmdPulseWrite_ok ..))

theorem cmdClockWrite_ok {μ : Nat} (q : Req) (s : State) (hμ : 0x10000 &&& μ = 0x10000 := by decide) : OkKept μ (s.kept μ) (fun x => x.1) (cmdClockWrite q s) := OkKept.mono hμ (by
  unfold cmdClockWrite
  (repeat' (first | exact OkKept.error _ | (refine OkKept.pure ?_; (first | with_reducible rfl | (simp; done) | (simp_all; done) | (split <;> simp_all; done))) | (refine OkKept.ok ?_; (first | with_reducible rfl | (simp; done) | (simp_all; done))) | split | (refine OkKept.bind (fun _ _ => ?_)) | (simp only; fail_if_success done))); done)

theorem execClockWrite_keeps {μ : Nat} (q : Req) (s : State) (hμ : 0x2D0014 &&& μ = 0x2D0014 := by decide) : Keeps μ (s.kept μ) (execClockWrite q s) := Keeps.mono hμ (by
  unfold execClockWrite; exact serve_keeps _ _ _ _ (fun _ _ => cmdClockWrite_ok ..))

theorem cmdPlaneRead_ok {μ : Nat} (q : Req) (s : State) (hμ : 0x0 &&& μ = 0x0 := by decide) : OkKept μ (s.kept μ) (fun x => x.1) (cmdPlaneRead q s) := OkKept.mono hμ (by
  unfold cmdPlaneRead
  (repeat' (first | exact OkKept.error _ | (refine OkKept.pure ?_; (first | with_reducible rfl | (simp; done) | (simp_all; done) | (split <;> simp_all; done))) | (refine OkKept.ok ?_; (first | with_reducible rfl | (simp; done) | (simp_all; done))) | split | (refine OkKept.bind (fun _ _ => ?_)) | (simp only; fail_if_success done))); done)

theorem execPlaneRead_keeps {μ : Nat} (q : Req) (s : State) (hμ : 0x2C0014 &&& μ = 0x2C0014 := by decide) : Keeps μ (s.kept μ) (execPlaneRead q s) := Keeps.mono hμ (by
  unfold execPlaneRead; exact serve_keeps _ _ _ _ (fun _ _ => cmdPlaneRead_ok ..))

@[simp] theorem State.boundEvent_kept {μ : Nat} (o : Nat) (reason : Nat) (active : Bool) (s : State) (hμ : 0x2C0014 &&& μ = 0x2C0014 := by decide) : (State.boundEvent o reason active s).kept μ = s.kept μ := kept_mono hμ (by
  unfold State.boundEvent
  repeat' (first | with_reducible rfl | (simp; done) | split | (refine (kept_foldl (fun _ _ => ?_) _ _).trans ?_) | (simp; fail_if_success done)))

@[simp] theorem State.setOut_kept {μ : Nat} (o : Nat) (v : OutSt) (s : State) (hμ : 0x400 &&& μ = 0x400 := by decide) : (State.setOut o v s).kept μ = s.kept μ := kept_mono hμ (by
  unfold State.setOut
  repeat' (first | with_reducible rfl | (simp; done) | split | (refine (kept_foldl (fun _ _ => ?_) _ _).trans ?_) | (simp; fail_if_success done)))

@[simp] theorem State.reboundPlane_kept {μ : Nat} (p : Nat) (s : State) (hμ : 0x2C0414 &&& μ = 0x2C0414 := by decide) : (State.reboundPlane p s).kept μ = s.kept μ := kept_mono hμ (by
  unfold State.reboundPlane
  repeat' (first | with_reducible rfl | (simp; done) | split | (refine (kept_foldl (fun _ _ => ?_) _ _).trans ?_) | (simp; fail_if_success done)))

@[simp] theorem State.lengthen_kept {μ : Nat} (p : Nat) (n : Nat) (s : State) (hμ : 0x400 &&& μ = 0x400 := by decide) : (State.lengthen p n s).kept μ = s.kept μ := kept_mono hμ (by
  unfold State.lengthen
  repeat' (first | with_reducible rfl | (simp; done) | split | (refine (kept_foldl (fun _ _ => ?_) _ _).trans ?_) | (simp; fail_if_success done)))

theorem execPlaneFrameStart_keeps {μ : Nat} (p : Fin 8) (s0 : State) (hμ : 0x2D0414 &&& μ = 0x2D0414 := by decide) : Keeps μ (s0.kept μ) (execPlaneFrameStart p s0) := Keeps.mono hμ (by
  unfold execPlaneFrameStart
  (repeat' (first | with_reducible rfl | trivial | (simp; done) | (refine keeps_checked ?_) | split | (simp only [keeps_done]; fail_if_success done) | (refine (kept_foldl (fun _ _ => ?_) _ _).trans ?_) | (simp; fail_if_success done))); done)

theorem execSlewComplete_keeps {μ : Nat} (p : Fin 8) (s0 : State) (hμ : 0x2D0014 &&& μ = 0x2D0014 := by decide) : Keeps μ (s0.kept μ) (execSlewComplete p s0) := Keeps.mono hμ (by
  unfold execSlewComplete
  (repeat' (first | with_reducible rfl | trivial | (simp; done) | (refine keeps_checked ?_) | split | (simp only [keeps_done]; fail_if_success done) | (refine (kept_foldl (fun _ _ => ?_) _ _).trans ?_) | (simp; fail_if_success done))); done)

theorem execPulseOutputEdge_keeps {μ : Nat} (o : Fin 10) (s0 : State) (hμ : 0x10000 &&& μ = 0x10000 := by decide) : Keeps μ (s0.kept μ) (execPulseOutputEdge o s0) := Keeps.mono hμ (by
  unfold execPulseOutputEdge
  (repeat' (first | with_reducible rfl | trivial | (simp; done) | (refine keeps_checked ?_) | split | (simp only [keeps_done]; fail_if_success done) | (refine (kept_foldl (fun _ _ => ?_) _ _).trans ?_) | (simp; fail_if_success done))); done)

/-! ### Refs -/

@[simp] theorem State.setCand_kept {μ : Nat} (c : Nat) (r : BitVec 128) (s : State) (hμ : 0x10000 &&& μ = 0x10000 := by decide) : (State.setCand c r s).kept μ = s.kept μ := kept_mono hμ (by
  unfold State.setCand
  repeat' (first | with_reducible rfl | (simp; done) | split | (refine (kept_foldl (fun _ _ => ?_) _ _).trans ?_) | (simp; fail_if_success done)))

@[simp] theorem State.setCandSt_kept {μ : Nat} (c : Nat) (v : CandSt) (s : State) (hμ : 0x10000 &&& μ = 0x10000 := by decide) : (State.setCandSt c v s).kept μ = s.kept μ := kept_mono hμ (by
  unfold State.setCandSt
  repeat' (first | with_reducible rfl | (simp; done) | split | (refine (kept_foldl (fun _ _ => ?_) _ _).trans ?_) | (simp; fail_if_success done)))

@[simp] theorem State.setEng_kept {μ : Nat} (f : Fld) (v : Nat) (s : State) (hμ : 0x10000 &&& μ = 0x10000 := by decide) : (State.setEng f v s).kept μ = s.kept μ := kept_mono hμ (by
  unfold State.setEng
  repeat' (first | with_reducible rfl | (simp; done) | split | (refine (kept_foldl (fun _ _ => ?_) _ _).trans ?_) | (simp; fail_if_success done)))

@[simp] theorem State.setQ_kept {μ : Nat} (c : Nat) (v : Nat) (s : State) (hμ : 0x10000 &&& μ = 0x10000 := by decide) : (State.setQ c v s).kept μ = s.kept μ := kept_mono hμ (by
  unfold State.setQ
  repeat' (first | with_reducible rfl | (simp; done) | split | (refine (kept_foldl (fun _ _ => ?_) _ _).trans ?_) | (simp; fail_if_success done)))

@[simp] theorem State.enterHoldover_kept {μ : Nat} (s : State) (hμ : 0x6D0014 &&& μ = 0x6D0014 := by decide) : (State.enterHoldover s).kept μ = s.kept μ := kept_mono hμ (by
  unfold State.enterHoldover
  simp only
  split <;> simp)

@[simp] theorem State.loseSelected_kept {μ : Nat} (c : Nat) (s : State) (hμ : 0x6D0014 &&& μ = 0x6D0014 := by decide) : (State.loseSelected c s).kept μ = s.kept μ := kept_mono hμ (by
  unfold State.loseSelected
  repeat' (first | with_reducible rfl | (simp; done) | split | (refine (kept_foldl (fun _ _ => ?_) _ _).trans ?_) | (simp; fail_if_success done)))

@[simp] theorem State.disqualified_kept {μ : Nat} (c : Nat) (reason : Nat) (s : State) (hμ : 0x2C0014 &&& μ = 0x2C0014 := by decide) : (State.disqualified c reason s).kept μ = s.kept μ := kept_mono hμ (by
  unfold State.disqualified
  repeat' (first | with_reducible rfl | (simp; done) | split | (refine (kept_foldl (fun _ _ => ?_) _ _).trans ?_) | (simp; fail_if_success done)))

@[simp] theorem State.candDown_kept {μ : Nat} (c : Nat) (s : State) (hμ : 0x6D0014 &&& μ = 0x6D0014 := by decide) : (State.candDown c s).kept μ = s.kept μ := kept_mono hμ (by
  unfold State.candDown
  repeat' (first | with_reducible rfl | (simp; done) | split | (refine (kept_foldl (fun _ _ => ?_) _ _).trans ?_) | (simp; fail_if_success done)))

@[simp] theorem State.candUp_kept {μ : Nat} (c : Nat) (s : State) (hμ : 0x10000 &&& μ = 0x10000 := by decide) : (State.candUp c s).kept μ = s.kept μ := kept_mono hμ (by
  unfold State.candUp
  repeat' (first | with_reducible rfl | (simp; done) | split | (refine (kept_foldl (fun _ _ => ?_) _ _).trans ?_) | (simp; fail_if_success done)))

@[simp] theorem State.syncCands_kept {μ : Nat} (cs : List Nat) (s : State) (hμ : 0x6D0014 &&& μ = 0x6D0014 := by decide) : (State.syncCands cs s).kept μ = s.kept μ := kept_mono hμ (by
  unfold State.syncCands
  repeat' (first | with_reducible rfl | (simp; done) | split | (refine (kept_foldl (fun _ _ => ?_) _ _).trans ?_) | (simp; fail_if_success done)))

@[simp] theorem State.evalCand_kept {μ : Nat} (c m) (s : State) (hμ : 0x6D0014 &&& μ = 0x6D0014 := by decide) : (State.evalCand c m s).kept μ = s.kept μ := kept_mono hμ (by
  unfold State.evalCand
  simp only
  repeat' split
  all_goals simp)

@[simp] theorem State.judgeAgree_kept {μ : Nat} (s : State) (hμ : 0x2D0014 &&& μ = 0x2D0014 := by decide) : (State.judgeAgree s).kept μ = s.kept μ := kept_mono hμ (by
  unfold State.judgeAgree
  repeat' (first | with_reducible rfl | (simp; done) | split | (refine (kept_foldl (fun _ _ => ?_) _ _).trans ?_) | (simp; fail_if_success done)))

@[simp] theorem State.openDisagree_kept {μ : Nat} (s : State) (hμ : 0x2D0014 &&& μ = 0x2D0014 := by decide) : (State.openDisagree s).kept μ = s.kept μ := kept_mono hμ (by
  unfold State.openDisagree
  repeat' (first | with_reducible rfl | (simp; done) | split | (refine (kept_foldl (fun _ _ => ?_) _ _).trans ?_) | (simp; fail_if_success done)))

@[simp] theorem State.moveEngine_kept {μ : Nat} (x : Int) (s : State) (hμ : 0x1 &&& μ = 0x1 := by decide) : (State.moveEngine x s).kept μ = s.kept μ := kept_mono hμ (by
  unfold State.moveEngine
  repeat' (first | with_reducible rfl | (simp; done) | split | (refine (kept_foldl (fun _ _ => ?_) _ _).trans ?_) | (simp; fail_if_success done)))

@[simp] theorem State.alignEngine_kept {μ : Nat} (x : Int) (s : State) (hμ : 0x10001 &&& μ = 0x10001 := by decide) : (State.alignEngine x s).kept μ = s.kept μ := kept_mono hμ (by
  unfold State.alignEngine
  repeat' (first | with_reducible rfl | (simp; done) | split | (refine (kept_foldl (fun _ _ => ?_) _ _).trans ?_) | (simp; fail_if_success done)))

@[simp] theorem State.refSelected_kept {μ : Nat} (old : Nat) (new : Nat) (s : State) (hμ : 0x2C0014 &&& μ = 0x2C0014 := by decide) : (State.refSelected old new s).kept μ = s.kept μ := kept_mono hμ (by
  unfold State.refSelected
  repeat' (first | with_reducible rfl | (simp; done) | split | (refine (kept_foldl (fun _ _ => ?_) _ _).trans ?_) | (simp; fail_if_success done)))

@[simp] theorem State.selectFirst_kept {μ : Nat} (c : Nat) (d : Int) (s : State) (hμ : 0x2D0015 &&& μ = 0x2D0015 := by decide) : (State.selectFirst c d s).kept μ = s.kept μ := kept_mono hμ (by
  unfold State.selectFirst
  repeat' (first | with_reducible rfl | (simp; done) | split | (refine (kept_foldl (fun _ _ => ?_) _ _).trans ?_) | (simp; fail_if_success done)))

@[simp] theorem State.selectBuilt_kept {μ : Nat} (c : Nat) (d : Int) (s : State) (hμ : 0x2D0015 &&& μ = 0x2D0015 := by decide) : (State.selectBuilt c d s).kept μ = s.kept μ := kept_mono hμ (by
  unfold State.selectBuilt
  repeat' (first | with_reducible rfl | (simp; done) | split | (refine (kept_foldl (fun _ _ => ?_) _ _).trans ?_) | (simp; fail_if_success done)))

@[simp] theorem State.evalSelect_kept {μ : Nat} (phases : List Int) (s : State) (hμ : 0x2D0015 &&& μ = 0x2D0015 := by decide) : (State.evalSelect phases s).kept μ = s.kept μ := kept_mono hμ (by
  unfold State.evalSelect
  repeat' (first | with_reducible rfl | (simp; done) | split | (refine (kept_foldl (fun _ _ => ?_) _ _).trans ?_) | (simp; fail_if_success done)))

@[simp] theorem State.evalCorr_kept {μ : Nat} (corr : Int) (s : State) (hμ : 0x10000 &&& μ = 0x10000 := by decide) : (State.evalCorr corr s).kept μ = s.kept μ := kept_mono hμ (by
  unfold State.evalCorr
  repeat' (first | with_reducible rfl | (simp; done) | split | (refine (kept_foldl (fun _ _ => ?_) _ _).trans ?_) | (simp; fail_if_success done)))

theorem execRefEvaluation_keeps {μ : Nat} (meas : List Measure) (phases : List Int) (corr : BitVec 32) (s0 : State) (hμ : 0x6D0015 &&& μ = 0x6D0015 := by decide) : Keeps μ (s0.kept μ) (execRefEvaluation meas phases corr s0) := Keeps.mono hμ (by
  unfold execRefEvaluation
  (repeat' (first | with_reducible rfl | trivial | (simp; done) | (refine keeps_checked ?_) | split | (simp only [keeps_done]; fail_if_success done) | (refine (kept_foldl (fun _ _ => ?_) _ _).trans ?_) | (simp; fail_if_success done))); done)

theorem execActivityLoss_keeps {μ : Nat} (c : Fin 16) (s0 : State) (hμ : 0x6D0014 &&& μ = 0x6D0014 := by decide) : Keeps μ (s0.kept μ) (execActivityLoss c s0) := Keeps.mono hμ (by
  unfold execActivityLoss
  (repeat' (first | with_reducible rfl | trivial | (simp; done) | (refine keeps_checked ?_) | split | (simp only [keeps_done]; fail_if_success done) | (refine (kept_foldl (fun _ _ => ?_) _ _).trans ?_) | (simp; fail_if_success done))); done)

theorem execSettleExpiry_keeps {μ : Nat} (phases : List Int) (s0 : State) (hμ : 0x2D0015 &&& μ = 0x2D0015 := by decide) : Keeps μ (s0.kept μ) (execSettleExpiry phases s0) := Keeps.mono hμ (by
  unfold execSettleExpiry
  (repeat' (first | with_reducible rfl | trivial | (simp; done) | (refine keeps_checked ?_) | split | (simp only [keeps_done]; fail_if_success done) | (refine (kept_foldl (fun _ _ => ?_) _ _).trans ?_) | (simp; fail_if_success done))); done)

theorem execWtrExpiry_keeps {μ : Nat} (c : Fin 16) (phase : Int) (s0 : State) (hμ : 0x2D0015 &&& μ = 0x2D0015 := by decide) : Keeps μ (s0.kept μ) (execWtrExpiry c phase s0) := Keeps.mono hμ (by
  unfold execWtrExpiry
  (repeat' (first | with_reducible rfl | trivial | (simp; done) | (refine keeps_checked ?_) | split | (simp only [keeps_done]; fail_if_success done) | (refine (kept_foldl (fun _ _ => ?_) _ _).trans ?_) | (simp; fail_if_success done))); done)

theorem execAcquisitionStage_keeps {μ : Nat} (s0 : State) (hμ : 0x2D0014 &&& μ = 0x2D0014 := by decide) : Keeps μ (s0.kept μ) (execAcquisitionStage s0) := Keeps.mono hμ (by
  unfold execAcquisitionStage
  (repeat' (first | with_reducible rfl | trivial | (simp; done) | (refine keeps_checked ?_) | split | (simp only [keeps_done]; fail_if_success done) | (refine (kept_foldl (fun _ _ => ?_) _ _).trans ?_) | (simp; fail_if_success done))); done)

theorem execHoldLimitExpiry_keeps {μ : Nat} (s0 : State) (hμ : 0x2D0014 &&& μ = 0x2D0014 := by decide) : Keeps μ (s0.kept μ) (execHoldLimitExpiry s0) := Keeps.mono hμ (by
  unfold execHoldLimitExpiry
  (repeat' (first | with_reducible rfl | trivial | (simp; done) | (refine keeps_checked ?_) | split | (simp only [keeps_done]; fail_if_success done) | (refine (kept_foldl (fun _ _ => ?_) _ _).trans ?_) | (simp; fail_if_success done))); done)

theorem execAnalogSyncFrame_keeps {μ : Nat} (c : Fin 2) (detected : SyncSeen) (amplitude : BitVec 16) (s0 : State) (hμ : 0x6D0014 &&& μ = 0x6D0014 := by decide) : Keeps μ (s0.kept μ) (execAnalogSyncFrame c detected amplitude s0) := Keeps.mono hμ (by
  unfold execAnalogSyncFrame
  (repeat' (first | with_reducible rfl | trivial | (simp; done) | (refine keeps_checked ?_) | split | (simp only [keeps_done]; fail_if_success done) | (refine (kept_foldl (fun _ _ => ?_) _ _).trans ?_) | (simp; fail_if_success done))); done)

theorem execRefPllFault_keeps {μ : Nat} (s : State) (hμ : 0x2D0014 &&& μ = 0x2D0014 := by decide) : Keeps μ (s.kept μ) (execRefPllFault s) := Keeps.mono hμ (by
  unfold execRefPllFault
  (repeat' (first | with_reducible rfl | trivial | (simp; done) | (refine keeps_checked ?_) | split | (simp only [keeps_done]; fail_if_success done) | (refine (kept_foldl (fun _ _ => ?_) _ _).trans ?_) | (simp; fail_if_success done))); done)

theorem execPulseInputEdge_keeps {μ : Nat} (p : Fin 4) (s0 : State) (hμ : 0x10002 &&& μ = 0x10002 := by decide) : Keeps μ (s0.kept μ) (execPulseInputEdge p s0) := Keeps.mono hμ (by
  unfold execPulseInputEdge
  extract_lets s k a _ s1 s2 back
  have h2 : s2.kept 0x10002 = s0.kept 0x10002 :=
    (State.candUp_kept ..).trans ((State.setCandSt_kept ..).trans ((State.kept_onRef ..).trans (State.kept_fresh ..)))
  clear_value s2
  split
  · exact State.kept_fresh ..
  · split
    · exact (State.kept_onPwr ..).trans (State.kept_fresh ..)
    · exact (kept_foldl (fun _ _ => by split <;> simp) _ _).trans h2)

@[simp] theorem candWriteDo_kept {μ : Nat} (c : Nat) (new : BitVec 128) (s : State) (hμ : 0x6D0014 &&& μ = 0x6D0014 := by decide) : (candWriteDo c new s).kept μ = s.kept μ := kept_mono hμ (by
  unfold candWriteDo
  repeat' (first | with_reducible rfl | (simp; done) | split | (refine (kept_foldl (fun _ _ => ?_) _ _).trans ?_) | (simp; fail_if_success done)))

theorem cmdCandWrite_ok {μ : Nat} (q : Req) (s : State) (hμ : 0x6D0014 &&& μ = 0x6D0014 := by decide) : OkKept μ (s.kept μ) (fun x => x.1) (cmdCandWrite q s) := OkKept.mono hμ (by
  unfold cmdCandWrite
  (repeat' (first | exact OkKept.error _ | (refine OkKept.pure ?_; (first | with_reducible rfl | (simp; done) | (simp_all; done) | (split <;> simp_all; done))) | (refine OkKept.ok ?_; (first | with_reducible rfl | (simp; done) | (simp_all; done))) | split | (refine OkKept.bind (fun _ _ => ?_)) | (simp only; fail_if_success done))); done)

theorem execCandWrite_keeps {μ : Nat} (q : Req) (s : State) (hμ : 0x6D0014 &&& μ = 0x6D0014 := by decide) : Keeps μ (s.kept μ) (execCandWrite q s) := Keeps.mono hμ (by
  unfold execCandWrite; exact serve_keeps _ _ _ _ (fun _ _ => cmdCandWrite_ok ..))

@[simp] theorem refWriteDo_kept {μ : Nat} (new : BitVec 256) (s : State) (hμ : 0x2D0014 &&& μ = 0x2D0014 := by decide) : (refWriteDo new s).kept μ = s.kept μ := kept_mono hμ (by
  unfold refWriteDo
  repeat' (first | with_reducible rfl | (simp; done) | split | (refine (kept_foldl (fun _ _ => ?_) _ _).trans ?_) | (simp; fail_if_success done)))

theorem cmdRefWrite_ok {μ : Nat} (q : Req) (s : State) (hμ : 0x2D0014 &&& μ = 0x2D0014 := by decide) : OkKept μ (s.kept μ) (fun x => x.1) (cmdRefWrite q s) := OkKept.mono hμ (by
  unfold cmdRefWrite
  (repeat' (first | exact OkKept.error _ | (refine OkKept.pure ?_; (first | with_reducible rfl | (simp; done) | (simp_all; done) | (split <;> simp_all; done))) | (refine OkKept.ok ?_; (first | with_reducible rfl | (simp; done) | (simp_all; done))) | split | (refine OkKept.bind (fun _ _ => ?_)) | (simp only; fail_if_success done))); done)

theorem execRefWrite_keeps {μ : Nat} (q : Req) (s : State) (hμ : 0x2D0014 &&& μ = 0x2D0014 := by decide) : Keeps μ (s.kept μ) (execRefWrite q s) := Keeps.mono hμ (by
  unfold execRefWrite; exact serve_keeps _ _ _ _ (fun _ _ => cmdRefWrite_ok ..))

theorem cmdRefRead_ok {μ : Nat} (q : Req) (s : State) (hμ : 0x0 &&& μ = 0x0 := by decide) : OkKept μ (s.kept μ) (fun x => x.1) (cmdRefRead q s) := OkKept.mono hμ (by
  unfold cmdRefRead
  (repeat' (first | exact OkKept.error _ | (refine OkKept.pure ?_; (first | with_reducible rfl | (simp; done) | (simp_all; done) | (split <;> simp_all; done))) | (refine OkKept.ok ?_; (first | with_reducible rfl | (simp; done) | (simp_all; done))) | split | (refine OkKept.bind (fun _ _ => ?_)) | (simp only; fail_if_success done))); done)

theorem execRefRead_keeps {μ : Nat} (q : Req) (s : State) (hμ : 0x2C0014 &&& μ = 0x2C0014 := by decide) : Keeps μ (s.kept μ) (execRefRead q s) := Keeps.mono hμ (by
  unfold execRefRead; exact serve_keeps _ _ _ _ (fun _ _ => cmdRefRead_ok ..))

@[simp] theorem phaseResetDo_kept {μ : Nat} (s : State) (hμ : 0x10000 &&& μ = 0x10000 := by decide) : (phaseResetDo s).kept μ = s.kept μ := kept_mono hμ (by
  unfold phaseResetDo
  repeat' (first | with_reducible rfl | (simp; done) | split | (refine (kept_foldl (fun _ _ => ?_) _ _).trans ?_) | (simp; fail_if_success done)))

theorem cmdPhaseReset_ok {μ : Nat} (q : Req) (s : State) (hμ : 0x10000 &&& μ = 0x10000 := by decide) : OkKept μ (s.kept μ) (fun x => x.1) (cmdPhaseReset q s) := OkKept.mono hμ (by
  unfold cmdPhaseReset
  (repeat' (first | exact OkKept.error _ | (refine OkKept.pure ?_; (first | with_reducible rfl | (simp; done) | (simp_all; done) | (split <;> simp_all; done))) | (refine OkKept.ok ?_; (first | with_reducible rfl | (simp; done) | (simp_all; done))) | split | (refine OkKept.bind (fun _ _ => ?_)) | (simp only; fail_if_success done))); done)

theorem execPhaseReset_keeps {μ : Nat} (q : Req) (s : State) (hμ : 0x2D0014 &&& μ = 0x2D0014 := by decide) : Keeps μ (s.kept μ) (execPhaseReset q s) := Keeps.mono hμ (by
  unfold execPhaseReset; exact serve_keeps _ _ _ _ (fun _ _ => cmdPhaseReset_ok ..))

/-! ### Ptp -/

@[simp] theorem State.setInst_kept {μ : Nat} (i : Nat) (r : BitVec 256) (s : State) (hμ : 0x20000 &&& μ = 0x20000 := by decide) : (State.setInst i r s).kept μ = s.kept μ := kept_mono hμ (by
  unfold State.setInst
  repeat' (first | with_reducible rfl | (simp; done) | split | (refine (kept_foldl (fun _ _ => ?_) _ _).trans ?_) | (simp; fail_if_success done)))

@[simp] theorem State.setInstSt_kept {μ : Nat} (i : Nat) (v : InstSt) (s : State) (hμ : 0x20000 &&& μ = 0x20000 := by decide) : (State.setInstSt i v s).kept μ = s.kept μ := kept_mono hμ (by
  unfold State.setInstSt
  repeat' (first | with_reducible rfl | (simp; done) | split | (refine (kept_foldl (fun _ _ => ?_) _ _).trans ?_) | (simp; fail_if_success done)))

@[simp] theorem State.instF_kept {μ : Nat} (i : Nat) (f : Fld) (v : Nat) (s : State) (hμ : 0x20000 &&& μ = 0x20000 := by decide) : (State.instF i f v s).kept μ = s.kept μ := kept_mono hμ (by
  unfold State.instF
  repeat' (first | with_reducible rfl | (simp; done) | split | (refine (kept_foldl (fun _ _ => ?_) _ _).trans ?_) | (simp; fail_if_success done)))

@[simp] theorem State.countInst_kept {μ : Nat} (i : Nat) (k : Nat) (s : State) (hμ : 0x20000 &&& μ = 0x20000 := by decide) : (State.countInst i k s).kept μ = s.kept μ := kept_mono hμ (by
  unfold State.countInst
  repeat' (first | with_reducible rfl | (simp; done) | split | (refine (kept_foldl (fun _ _ => ?_) _ _).trans ?_) | (simp; fail_if_success done)))

@[simp] theorem State.gmChange_kept {μ : Nat} (old : Nat) (new : Nat) (s : State) (hμ : 0x2C0014 &&& μ = 0x2C0014 := by decide) : (State.gmChange old new s).kept μ = s.kept μ := kept_mono hμ (by
  unfold State.gmChange
  repeat' (first | with_reducible rfl | (simp; done) | split | (refine (kept_foldl (fun _ _ => ?_) _ _).trans ?_) | (simp; fail_if_success done)))

@[simp] theorem State.reacquire_kept {μ : Nat} (i : Nat) (s : State) (hμ : 0x20000 &&& μ = 0x20000 := by decide) : (State.reacquire i s).kept μ = s.kept μ := kept_mono hμ (by
  unfold State.reacquire
  repeat' (first | with_reducible rfl | (simp; done) | split | (refine (kept_foldl (fun _ _ => ?_) _ _).trans ?_) | (simp; fail_if_success done)))

@[simp] theorem State.chooseUsing_kept {μ : Nat} (s : State) (hμ : 0x6F0014 &&& μ = 0x6F0014 := by decide) : (State.chooseUsing s).kept μ = s.kept μ := kept_mono hμ (by
  unfold State.chooseUsing
  repeat' (first | with_reducible rfl | (simp; done) | split | (refine (kept_foldl (fun _ _ => ?_) _ _).trans ?_) | (simp; fail_if_success done)))

@[simp] theorem State.setReason_kept {μ : Nat} (i : Nat) (why : Nat) (s : State) (hμ : 0x6F0014 &&& μ = 0x6F0014 := by decide) : (State.setReason i why s).kept μ = s.kept μ := kept_mono hμ (by
  unfold State.setReason
  repeat' (first | with_reducible rfl | (simp; done) | split | (refine (kept_foldl (fun _ _ => ?_) _ _).trans ?_) | (simp; fail_if_success done)))

@[simp] theorem State.instLink_kept {μ : Nat} (sub : Nat) (up : Bool) (s : State) (hμ : 0x6F0014 &&& μ = 0x6F0014 := by decide) : (State.instLink sub up s).kept μ = s.kept μ := kept_mono hμ (by
  unfold State.instLink
  repeat' (first | with_reducible rfl | (simp; done) | split | (refine (kept_foldl (fun _ _ => ?_) _ _).trans ?_) | (simp; fail_if_success done)))

@[simp] theorem State.timeStep_kept {μ : Nat} (d : Int) (s : State) (hμ : 0x6D0015 &&& μ = 0x6D0015 := by decide) : (State.timeStep d s).kept μ = s.kept μ := kept_mono hμ (by
  unfold State.timeStep
  repeat' (first | with_reducible rfl | (simp; done) | split | (refine (kept_foldl (fun _ _ => ?_) _ _).trans ?_) | (simp; fail_if_success done)))

@[simp] theorem State.steer_kept {μ : Nat} (o : Int) (num : Nat) (den : Nat) (s : State) (hμ : 0x20001 &&& μ = 0x20001 := by decide) : (State.steer o num den s).kept μ = s.kept μ := kept_mono hμ (by
  unfold State.steer
  repeat' (first | with_reducible rfl | (simp; done) | split | (refine (kept_foldl (fun _ _ => ?_) _ _).trans ?_) | (simp; fail_if_success done)))

@[simp] theorem State.holdRate_kept {μ : Nat} (s : State) (hμ : 0x20001 &&& μ = 0x20001 := by decide) : (State.holdRate s).kept μ = s.kept μ := kept_mono hμ (by
  unfold State.holdRate
  repeat' (first | with_reducible rfl | (simp; done) | split | (refine (kept_foldl (fun _ _ => ?_) _ _).trans ?_) | (simp; fail_if_success done)))

@[simp] theorem State.lockRule_kept {μ : Nat} (i : Nat) (o : Int) (s : State) (hμ : 0x6F0014 &&& μ = 0x6F0014 := by decide) : (State.lockRule i o s).kept μ = s.kept μ := kept_mono hμ (by
  unfold State.lockRule
  repeat' (first | with_reducible rfl | (simp; done) | split | (refine (kept_foldl (fun _ _ => ?_) _ _).trans ?_) | (simp; fail_if_success done)))

@[simp] theorem State.stepRule_kept {μ : Nat} (i : Nat) (o : Int) (s : State) (hμ : 0x6F0015 &&& μ = 0x6F0015 := by decide) : (State.stepRule i o s).kept μ = s.kept μ := kept_mono hμ (by
  unfold State.stepRule
  repeat' (first | with_reducible rfl | (simp; done) | split | (refine (kept_foldl (fun _ _ => ?_) _ _).trans ?_) | (simp; fail_if_success done)))

@[simp] theorem State.exchange_kept {μ : Nat} (i d soft log) (s : State) (hμ : 0x6F0015 &&& μ = 0x6F0015 := by decide) : (State.exchange i d soft log s).kept μ = s.kept μ := kept_mono hμ (by
  unfold State.exchange
  extract_lets t _ st t1 mine
  have ht : t.kept 0x6F0015 = s.kept 0x6F0015 := by simp only [t]; split <;> simp
  have h1 : t1.kept 0x6F0015 = s.kept 0x6F0015 := (State.setInstSt_kept ..).trans ht
  split
  · exact (State.countInst_kept ..).trans h1
  · split
    · exact (State.countInst_kept ..).trans ((State.setInstSt_kept ..).trans h1)
    · split
      · exact (State.setInstSt_kept ..).trans h1
      · extract_lets mean o s1
        split
        extract_lets s2
        have h2 : s2.kept 0x6F0015 = s.kept 0x6F0015 := by
          simp only [s2]
          split
          · exact (State.steer_kept ..).trans ((State.kept_onPtp ..).trans ((State.setInstSt_kept ..).trans h1))
          · exact (State.setInstSt_kept ..).trans h1
        exact (State.stepRule_kept ..).trans ((State.lockRule_kept ..).trans h2))

@[simp] theorem State.softStamp_kept {μ : Nat} (port : Nat) (soft : Bool) (s : State) (hμ : 0x2E0014 &&& μ = 0x2E0014 := by decide) : (State.softStamp port soft s).kept μ = s.kept μ := kept_mono hμ (by
  unfold State.softStamp
  repeat' (first | with_reducible rfl | (simp; done) | split | (refine (kept_foldl (fun _ _ => ?_) _ _).trans ?_) | (simp; fail_if_success done)))

@[simp] theorem State.keepStamp_kept {μ : Nat} (i : Nat) (s : State) (hμ : 0x2E0014 &&& μ = 0x2E0014 := by decide) : (State.keepStamp i s).kept μ = s.kept μ := kept_mono hμ (by
  unfold State.keepStamp
  repeat' (first | with_reducible rfl | (simp; done) | split | (refine (kept_foldl (fun _ _ => ?_) _ _).trans ?_) | (simp; fail_if_success done)))

theorem execSync_keeps {μ : Nat} (i : Fin 4) (m : SyncMsg) (s0 : State) (hμ : 0x6F0015 &&& μ = 0x6F0015 := by decide) : Keeps μ (s0.kept μ) (execSync i m s0) := Keeps.mono hμ (by
  unfold execSync
  (repeat' (first | with_reducible rfl | trivial | (simp; done) | (refine keeps_checked ?_) | split | (simp only [keeps_done]; fail_if_success done) | (refine (kept_foldl (fun _ _ => ?_) _ _).trans ?_) | (simp; fail_if_success done))); done)

theorem execFollowUp_keeps {μ : Nat} (i : Fin 4) (seq : BitVec 16) (t1 : Int) (corr : Int) (s0 : State) (hμ : 0x6F0015 &&& μ = 0x6F0015 := by decide) : Keeps μ (s0.kept μ) (execFollowUp i seq t1 corr s0) := Keeps.mono hμ (by
  unfold execFollowUp
  (repeat' (first | with_reducible rfl | trivial | (simp; done) | (refine keeps_checked ?_) | split | (simp only [keeps_done]; fail_if_success done) | (refine (kept_foldl (fun _ _ => ?_) _ _).trans ?_) | (simp; fail_if_success done))); done)

theorem execFollowUpTimeout_keeps {μ : Nat} (i : Fin 4) (s : State) (hμ : 0x20000 &&& μ = 0x20000 := by decide) : Keeps μ (s.kept μ) (execFollowUpTimeout i s) := Keeps.mono hμ (by
  unfold execFollowUpTimeout
  (repeat' (first | with_reducible rfl | trivial | (simp; done) | (refine keeps_checked ?_) | split | (simp only [keeps_done]; fail_if_success done) | (refine (kept_foldl (fun _ _ => ?_) _ _).trans ?_) | (simp; fail_if_success done))); done)

@[simp] theorem State.takeParent_kept {μ : Nat} (i : Nat) (m : AnnounceMsg) (s : State) (hμ : 0x6F0014 &&& μ = 0x6F0014 := by decide) : (State.takeParent i m s).kept μ = s.kept μ := kept_mono hμ (by
  unfold State.takeParent
  repeat' (first | with_reducible rfl | (simp; done) | split | (refine (kept_foldl (fun _ _ => ?_) _ _).trans ?_) | (simp; fail_if_success done)))

@[simp] theorem State.bestMaster_kept {μ : Nat} (i : Nat) (m : AnnounceMsg) (s : State) (hμ : 0x6F0014 &&& μ = 0x6F0014 := by decide) : (State.bestMaster i m s).kept μ = s.kept μ := kept_mono hμ (by
  unfold State.bestMaster
  repeat' (first | with_reducible rfl | (simp; done) | split | (refine (kept_foldl (fun _ _ => ?_) _ _).trans ?_) | (simp; fail_if_success done)))

theorem execAnnounce_keeps {μ : Nat} (i : Fin 4) (m : AnnounceMsg) (s0 : State) (hμ : 0x6F0014 &&& μ = 0x6F0014 := by decide) : Keeps μ (s0.kept μ) (execAnnounce i m s0) := Keeps.mono hμ (by
  unfold execAnnounce
  (repeat' (first | with_reducible rfl | trivial | (simp; done) | (refine keeps_checked ?_) | split | (simp only [keeps_done]; fail_if_success done) | (refine (kept_foldl (fun _ _ => ?_) _ _).trans ?_) | (simp; fail_if_success done))); done)

@[simp] theorem State.pathSample_kept {μ : Nat} (i : Nat) (d : Int) (soft : Bool) (s : State) (hμ : 0x20000 &&& μ = 0x20000 := by decide) : (State.pathSample i d soft s).kept μ = s.kept μ := kept_mono hμ (by
  unfold State.pathSample
  repeat' (first | with_reducible rfl | (simp; done) | split | (refine (kept_foldl (fun _ _ => ?_) _ _).trans ?_) | (simp; fail_if_success done)))

theorem execDelayResp_keeps {μ : Nat} (i : Fin 4) (seq : BitVec 16) (t4 : Int) (corr : Int) (s0 : State) (hμ : 0x20000 &&& μ = 0x20000 := by decide) : Keeps μ (s0.kept μ) (execDelayResp i seq t4 corr s0) := Keeps.mono hμ (by
  unfold execDelayResp
  (repeat' (first | with_reducible rfl | trivial | (simp; done) | (refine keeps_checked ?_) | split | (simp only [keeps_done]; fail_if_success done) | (refine (kept_foldl (fun _ _ => ?_) _ _).trans ?_) | (simp; fail_if_success done))); done)

@[simp] theorem State.mgmtQueue_kept {μ : Nat} (p : Nat) (m : MgmtTx) (s : State) (hμ : 0x1000 &&& μ = 0x1000 := by decide) : (State.mgmtQueue p m s).kept μ = s.kept μ := kept_mono hμ (by
  unfold State.mgmtQueue
  repeat' (first | with_reducible rfl | (simp; done) | split | (refine (kept_foldl (fun _ _ => ?_) _ _).trans ?_) | (simp; fail_if_success done)))

theorem execDelayReq_keeps {μ : Nat} (i : Fin 4) (soft : Bool) (s0 : State) (hμ : 0x21000 &&& μ = 0x21000 := by decide) : Keeps μ (s0.kept μ) (execDelayReq i soft s0) := Keeps.mono hμ (by
  unfold execDelayReq
  (repeat' (first | with_reducible rfl | trivial | (simp; done) | (refine keeps_checked ?_) | split | (simp only [keeps_done]; fail_if_success done) | (refine (kept_foldl (fun _ _ => ?_) _ _).trans ?_) | (simp; fail_if_success done))); done)

@[simp] theorem State.ptpLeave_kept {μ : Nat} (i : Nat) (kind : Nat) (seq : BitVec 16) (soft : Bool) (s : State) (hμ : 0x2E0014 &&& μ = 0x2E0014 := by decide) : (State.ptpLeave i kind seq soft s).kept μ = s.kept μ := kept_mono hμ (by
  unfold State.ptpLeave
  repeat' (first | with_reducible rfl | (simp; done) | split | (refine (kept_foldl (fun _ _ => ?_) _ _).trans ?_) | (simp; fail_if_success done)))

theorem execPdelayReq_keeps {μ : Nat} (i : Fin 4) (seq : BitVec 16) (soft : Bool) (s0 : State) (hμ : 0x2E1014 &&& μ = 0x2E1014 := by decide) : Keeps μ (s0.kept μ) (execPdelayReq i seq soft s0) := Keeps.mono hμ (by
  unfold execPdelayReq
  (repeat' (first | with_reducible rfl | trivial | (simp; done) | (refine keeps_checked ?_) | split | (simp only [keeps_done]; fail_if_success done) | (refine (kept_foldl (fun _ _ => ?_) _ _).trans ?_) | (simp; fail_if_success done))); done)

theorem execPdelayResp_keeps {μ : Nat} (i : Fin 4) (seq : BitVec 16) (t2 : Int) (corr : Int) (soft : Bool) (s0 : State) (hμ : 0x2E0014 &&& μ = 0x2E0014 := by decide) : Keeps μ (s0.kept μ) (execPdelayResp i seq t2 corr soft s0) := Keeps.mono hμ (by
  unfold execPdelayResp
  (repeat' (first | with_reducible rfl | trivial | (simp; done) | (refine keeps_checked ?_) | split | (simp only [keeps_done]; fail_if_success done) | (refine (kept_foldl (fun _ _ => ?_) _ _).trans ?_) | (simp; fail_if_success done))); done)

theorem execPdelayRespFollowUp_keeps {μ : Nat} (i : Fin 4) (seq : BitVec 16) (t3 : Int) (corr : Int) (s0 : State) (hμ : 0x20000 &&& μ = 0x20000 := by decide) : Keeps μ (s0.kept μ) (execPdelayRespFollowUp i seq t3 corr s0) := Keeps.mono hμ (by
  unfold execPdelayRespFollowUp
  (repeat' (first | with_reducible rfl | trivial | (simp; done) | (refine keeps_checked ?_) | split | (simp only [keeps_done]; fail_if_success done) | (refine (kept_foldl (fun _ _ => ?_) _ _).trans ?_) | (simp; fail_if_success done))); done)

theorem execPtpManagementMessage_keeps {μ : Nat} (i : Fin 4) (s0 : State) (hμ : 0x20000 &&& μ = 0x20000 := by decide) : Keeps μ (s0.kept μ) (execPtpManagementMessage i s0) := Keeps.mono hμ (by
  unfold execPtpManagementMessage
  (repeat' (first | with_reducible rfl | trivial | (simp; done) | (refine keeps_checked ?_) | split | (simp only [keeps_done]; fail_if_success done) | (refine (kept_foldl (fun _ _ => ?_) _ _).trans ?_) | (simp; fail_if_success done))); done)

@[simp] theorem State.loseParent_kept {μ : Nat} (i : Nat) (why : Nat) (s : State) (hμ : 0x6F0015 &&& μ = 0x6F0015 := by decide) : (State.loseParent i why s).kept μ = s.kept μ := kept_mono hμ (by
  unfold State.loseParent
  repeat' (first | with_reducible rfl | (simp; done) | split | (refine (kept_foldl (fun _ _ => ?_) _ _).trans ?_) | (simp; fail_if_success done)))

theorem execAnnounceTimeout_keeps {μ : Nat} (i : Fin 4) (s : State) (hμ : 0x6F0015 &&& μ = 0x6F0015 := by decide) : Keeps μ (s.kept μ) (execAnnounceTimeout i s) := Keeps.mono hμ (by
  unfold execAnnounceTimeout
  (repeat' (first | with_reducible rfl | trivial | (simp; done) | (refine keeps_checked ?_) | split | (simp only [keeps_done]; fail_if_success done) | (refine (kept_foldl (fun _ _ => ?_) _ _).trans ?_) | (simp; fail_if_success done))); done)

theorem execSyncTimeout_keeps {μ : Nat} (i : Fin 4) (s : State) (hμ : 0x6F0015 &&& μ = 0x6F0015 := by decide) : Keeps μ (s.kept μ) (execSyncTimeout i s) := Keeps.mono hμ (by
  unfold execSyncTimeout
  (repeat' (first | with_reducible rfl | trivial | (simp; done) | (refine keeps_checked ?_) | split | (simp only [keeps_done]; fail_if_success done) | (refine (kept_foldl (fun _ _ => ?_) _ _).trans ?_) | (simp; fail_if_success done))); done)

theorem execEngineTimeReading_keeps {μ : Nat} (s0 : State) (hμ : 0x20001 &&& μ = 0x20001 := by decide) : Keeps μ (s0.kept μ) (execEngineTimeReading s0) := Keeps.mono hμ (by
  unfold execEngineTimeReading
  (repeat' (first | with_reducible rfl | trivial | (simp; done) | (refine keeps_checked ?_) | split | (simp only [keeps_done]; fail_if_success done) | (refine (kept_foldl (fun _ _ => ?_) _ _).trans ?_) | (simp; fail_if_success done))); done)

@[simp] theorem State.writeRtc_kept {μ : Nat} (sec : Nat) (s : State) (hμ : 0x3 &&& μ = 0x3 := by decide) : (State.writeRtc sec s).kept μ = s.kept μ := kept_mono hμ (by
  unfold State.writeRtc
  repeat' (first | with_reducible rfl | (simp; done) | split | (refine (kept_foldl (fun _ _ => ?_) _ _).trans ?_) | (simp; fail_if_success done)))

theorem execRtcUpdate_keeps {μ : Nat} (s0 : State) (hμ : 0x3 &&& μ = 0x3 := by decide) : Keeps μ (s0.kept μ) (execRtcUpdate s0) := Keeps.mono hμ (by
  unfold execRtcUpdate
  (repeat' (first | with_reducible rfl | trivial | (simp; done) | (refine keeps_checked ?_) | split | (simp only [keeps_done]; fail_if_success done) | (refine (kept_foldl (fun _ _ => ?_) _ _).trans ?_) | (simp; fail_if_success done))); done)

theorem execPtpClockFault_keeps {μ : Nat} (s : State) (hμ : 0x2C0014 &&& μ = 0x2C0014 := by decide) : Keeps μ (s.kept μ) (execPtpClockFault s) := Keeps.mono hμ (by
  unfold execPtpClockFault
  (repeat' (first | with_reducible rfl | trivial | (simp; done) | (refine keeps_checked ?_) | split | (simp only [keeps_done]; fail_if_success done) | (refine (kept_foldl (fun _ _ => ?_) _ _).trans ?_) | (simp; fail_if_success done))); done)

@[simp] theorem ptpInstWriteDo_kept {μ : Nat} (i : Nat) (new : BitVec 256) (s : State) (hμ : 0x6F0015 &&& μ = 0x6F0015 := by decide) : (ptpInstWriteDo i new s).kept μ = s.kept μ := kept_mono hμ (by
  unfold ptpInstWriteDo
  repeat' (first | with_reducible rfl | (simp; done) | split | (refine (kept_foldl (fun _ _ => ?_) _ _).trans ?_) | (simp; fail_if_success done)))

theorem cmdPtpInstWrite_ok {μ : Nat} (q : Req) (s : State) (hμ : 0x6F0015 &&& μ = 0x6F0015 := by decide) : OkKept μ (s.kept μ) (fun x => x.1) (cmdPtpInstWrite q s) := OkKept.mono hμ (by
  unfold cmdPtpInstWrite
  (repeat' (first | exact OkKept.error _ | (refine OkKept.pure ?_; (first | with_reducible rfl | (simp; done) | (simp_all; done) | (split <;> simp_all; done))) | (refine OkKept.ok ?_; (first | with_reducible rfl | (simp; done) | (simp_all; done))) | split | (refine OkKept.bind (fun _ _ => ?_)) | (simp only; fail_if_success done))); done)

theorem execPtpInstWrite_keeps {μ : Nat} (q : Req) (s : State) (hμ : 0x6F0015 &&& μ = 0x6F0015 := by decide) : Keeps μ (s.kept μ) (execPtpInstWrite q s) := Keeps.mono hμ (by
  unfold execPtpInstWrite; exact serve_keeps _ _ _ _ (fun _ _ => cmdPtpInstWrite_ok ..))

@[simp] theorem ptpServoWriteDo_kept {μ : Nat} (new : BitVec 256) (s : State) (hμ : 0x6F0014 &&& μ = 0x6F0014 := by decide) : (ptpServoWriteDo new s).kept μ = s.kept μ := kept_mono hμ (by
  unfold ptpServoWriteDo
  repeat' (first | with_reducible rfl | (simp; done) | split | (refine (kept_foldl (fun _ _ => ?_) _ _).trans ?_) | (simp; fail_if_success done)))

theorem cmdPtpServoWrite_ok {μ : Nat} (q : Req) (s : State) (hμ : 0x6F0014 &&& μ = 0x6F0014 := by decide) : OkKept μ (s.kept μ) (fun x => x.1) (cmdPtpServoWrite q s) := OkKept.mono hμ (by
  unfold cmdPtpServoWrite
  (repeat' (first | exact OkKept.error _ | (refine OkKept.pure ?_; (first | with_reducible rfl | (simp; done) | (simp_all; done) | (split <;> simp_all; done))) | (refine OkKept.ok ?_; (first | with_reducible rfl | (simp; done) | (simp_all; done))) | split | (refine OkKept.bind (fun _ _ => ?_)) | (simp only; fail_if_success done))); done)

theorem execPtpServoWrite_keeps {μ : Nat} (q : Req) (s : State) (hμ : 0x6F0014 &&& μ = 0x6F0014 := by decide) : Keeps μ (s.kept μ) (execPtpServoWrite q s) := Keeps.mono hμ (by
  unfold execPtpServoWrite; exact serve_keeps _ _ _ _ (fun _ _ => cmdPtpServoWrite_ok ..))

theorem cmdPtpTsCorr_ok {μ : Nat} (q : Req) (s : State) (hμ : 0x20000 &&& μ = 0x20000 := by decide) : OkKept μ (s.kept μ) (fun x => x.1) (cmdPtpTsCorr q s) := OkKept.mono hμ (by
  unfold cmdPtpTsCorr
  (repeat' (first | exact OkKept.error _ | (refine OkKept.pure ?_; (first | with_reducible rfl | (simp; done) | (simp_all; done) | (split <;> simp_all; done))) | (refine OkKept.ok ?_; (first | with_reducible rfl | (simp; done) | (simp_all; done))) | split | (refine OkKept.bind (fun _ _ => ?_)) | (simp only; fail_if_success done))); done)

theorem execPtpTsCorr_keeps {μ : Nat} (q : Req) (s : State) (hμ : 0x2E0014 &&& μ = 0x2E0014 := by decide) : Keeps μ (s.kept μ) (execPtpTsCorr q s) := Keeps.mono hμ (by
  unfold execPtpTsCorr; exact serve_keeps _ _ _ _ (fun _ _ => cmdPtpTsCorr_ok ..))

@[simp] theorem ptpSetTimeDo_kept {μ : Nat} (ns : Nat) (s : State) (hμ : 0x6D0015 &&& μ = 0x6D0015 := by decide) : (ptpSetTimeDo ns s).kept μ = s.kept μ := kept_mono hμ (by
  unfold ptpSetTimeDo
  repeat' (first | with_reducible rfl | (simp; done) | split | (refine (kept_foldl (fun _ _ => ?_) _ _).trans ?_) | (simp; fail_if_success done)))

theorem cmdPtpSetTime_ok {μ : Nat} (q : Req) (s : State) (hμ : 0x6D0015 &&& μ = 0x6D0015 := by decide) : OkKept μ (s.kept μ) (fun x => x.1) (cmdPtpSetTime q s) := OkKept.mono hμ (by
  unfold cmdPtpSetTime
  (repeat' (first | exact OkKept.error _ | (refine OkKept.pure ?_; (first | with_reducible rfl | (simp; done) | (simp_all; done) | (split <;> simp_all; done))) | (refine OkKept.ok ?_; (first | with_reducible rfl | (simp; done) | (simp_all; done))) | split | (refine OkKept.bind (fun _ _ => ?_)) | (simp only; fail_if_success done))); done)

theorem execPtpSetTime_keeps {μ : Nat} (q : Req) (s : State) (hμ : 0x6D0015 &&& μ = 0x6D0015 := by decide) : Keeps μ (s.kept μ) (execPtpSetTime q s) := Keeps.mono hμ (by
  unfold execPtpSetTime; exact serve_keeps _ _ _ _ (fun _ _ => cmdPtpSetTime_ok ..))

theorem cmdPtpRead_ok {μ : Nat} (q : Req) (s : State) (hμ : 0x20000 &&& μ = 0x20000 := by decide) : OkKept μ (s.kept μ) (fun x => x.1) (cmdPtpRead q s) := OkKept.mono hμ (by
  unfold cmdPtpRead
  (repeat' (first | exact OkKept.error _ | (refine OkKept.pure ?_; (first | with_reducible rfl | (simp; done) | (simp_all; done) | (split <;> simp_all; done))) | (refine OkKept.ok ?_; (first | with_reducible rfl | (simp; done) | (simp_all; done))) | split | (refine OkKept.bind (fun _ _ => ?_)) | (simp only; fail_if_success done))); done)

theorem execPtpRead_keeps {μ : Nat} (q : Req) (s : State) (hμ : 0x2E0014 &&& μ = 0x2E0014 := by decide) : Keeps μ (s.kept μ) (execPtpRead q s) := Keeps.mono hμ (by
  unfold execPtpRead; exact serve_keeps _ _ _ _ (fun _ _ => cmdPtpRead_ok ..))

end Sys2Proof.Machine
end

