-- ==== Sys2Proof/Laws/KeptRoutes.lean ====
section
/-! SUPPORT. What is left as it is by routes, salvos, SDI lanes and outputs. -/

set_option Elab.async false

namespace Sys2Proof.Machine

open Sys2Proof

/-! ### Routes -/

@[simp] theorem State.setRouteA_kept {μ : Nat} (o : Nat) (e : BitVec 256) (s : State) (hμ : 0x400 &&& μ = 0x400 := by decide) : (State.setRouteA o e s).kept μ = s.kept μ := kept_mono hμ (by
  unfold State.setRouteA
  repeat' (first | with_reducible rfl | (simp; done) | split | (refine (kept_foldl (fun _ _ => ?_) _ _).trans ?_) | (simp; fail_if_success done)))

@[simp] theorem State.setRouteP_kept {μ : Nat} (o : Nat) (e : BitVec 256) (s : State) (hμ : 0x400 &&& μ = 0x400 := by decide) : (State.setRouteP o e s).kept μ = s.kept μ := kept_mono hμ (by
  unfold State.setRouteP
  repeat' (first | with_reducible rfl | (simp; done) | split | (refine (kept_foldl (fun _ _ => ?_) _ _).trans ?_) | (simp; fail_if_success done)))

@[simp] theorem State.rebound_kept {μ : Nat} (o : Nat) (s : State) (hμ : 0x2C0414 &&& μ = 0x2C0414 := by decide) : (State.rebound o s).kept μ = s.kept μ := kept_mono hμ (by
  unfold State.rebound
  repeat' (first | with_reducible rfl | (simp; done) | split | (refine (kept_foldl (fun _ _ => ?_) _ _).trans ?_) | (simp; fail_if_success done)))

@[simp] theorem State.reboundAll_kept {μ : Nat} (s : State) (hμ : 0x2C0414 &&& μ = 0x2C0414 := by decide) : (State.reboundAll s).kept μ = s.kept μ := kept_mono hμ (by
  unfold State.reboundAll
  repeat' (first | with_reducible rfl | (simp; done) | split | (refine (kept_foldl (fun _ _ => ?_) _ _).trans ?_) | (simp; fail_if_success done)))

theorem routeWriteCheck_ok {μ : Nat} (q : Req) (s : State) (hμ : 0x200 &&& μ = 0x200 := by decide) : OkKept μ (s.kept μ) (fun x => x.2.2) (routeWriteCheck q s) := OkKept.mono hμ (by
  unfold routeWriteCheck
  (repeat' (first | exact (claimAll_ok ..) | (refine OkKept.step (claimAll_ok ..) (by simp) (fun _ _ => ?_)) | exact OkKept.error _ | (refine OkKept.pure ?_; (first | with_reducible rfl | (simp; done) | (simp_all; done) | (split <;> simp_all; done))) | (refine OkKept.ok ?_; (first | with_reducible rfl | (simp; done) | (simp_all; done))) | split | (refine OkKept.bind (fun _ _ => ?_)) | (simp only; fail_if_success done))); done)

@[simp] theorem routeWriteDo_kept {μ : Nat} (o : Nat) (e : BitVec 256) (s : State) (hμ : 0x400 &&& μ = 0x400 := by decide) : (routeWriteDo o e s).kept μ = s.kept μ := kept_mono hμ (by
  unfold routeWriteDo
  repeat' (first | with_reducible rfl | (simp; done) | split | (refine (kept_foldl (fun _ _ => ?_) _ _).trans ?_) | (simp; fail_if_success done)))

theorem cmdRouteWrite_ok {μ : Nat} (q : Req) (s : State) (hμ : 0x600 &&& μ = 0x600 := by decide) : OkKept μ (s.kept μ) (fun x => x.1) (cmdRouteWrite q s) := OkKept.mono hμ (by
  unfold cmdRouteWrite
  (repeat' (first | exact (routeWriteCheck_ok ..) | (refine OkKept.step (routeWriteCheck_ok ..) (by simp) (fun _ _ => ?_)) | exact OkKept.error _ | (refine OkKept.pure ?_; (first | with_reducible rfl | (simp; done) | (simp_all; done) | (split <;> simp_all; done))) | (refine OkKept.ok ?_; (first | with_reducible rfl | (simp; done) | (simp_all; done))) | split | (refine OkKept.bind (fun _ _ => ?_)) | (simp only; fail_if_success done))); done)

theorem execRouteWrite_keeps {μ : Nat} (q : Req) (s : State) (hμ : 0x2C0614 &&& μ = 0x2C0614 := by decide) : Keeps μ (s.kept μ) (execRouteWrite q s) := Keeps.mono hμ (by
  unfold execRouteWrite; exact serve_keeps _ _ _ _ (fun _ _ => cmdRouteWrite_ok ..))

theorem cmdRouteRead_ok {μ : Nat} (q : Req) (s : State) (hμ : 0x0 &&& μ = 0x0 := by decide) : OkKept μ (s.kept μ) (fun x => x.1) (cmdRouteRead q s) := OkKept.mono hμ (by
  unfold cmdRouteRead
  (repeat' (first | exact OkKept.error _ | (refine OkKept.pure ?_; (first | with_reducible rfl | (simp; done) | (simp_all; done) | (split <;> simp_all; done))) | (refine OkKept.ok ?_; (first | with_reducible rfl | (simp; done) | (simp_all; done))) | split | (refine OkKept.bind (fun _ _ => ?_)) | (simp only; fail_if_success done))); done)

theorem execRouteRead_keeps {μ : Nat} (q : Req) (s : State) (hμ : 0x2C0014 &&& μ = 0x2C0014 := by decide) : Keeps μ (s.kept μ) (execRouteRead q s) := Keeps.mono hμ (by
  unfold execRouteRead; exact serve_keeps _ _ _ _ (fun _ _ => cmdRouteRead_ok ..))

theorem cmdRouteStatus_ok {μ : Nat} (q : Req) (s : State) (hμ : 0x400 &&& μ = 0x400 := by decide) : OkKept μ (s.kept μ) (fun x => x.1) (cmdRouteStatus q s) := OkKept.mono hμ (by
  unfold cmdRouteStatus
  (repeat' (first | exact OkKept.error _ | (refine OkKept.pure ?_; (first | with_reducible rfl | (simp; done) | (simp_all; done) | (split <;> simp_all; done))) | (refine OkKept.ok ?_; (first | with_reducible rfl | (simp; done) | (simp_all; done))) | split | (refine OkKept.bind (fun _ _ => ?_)) | (simp only; fail_if_success done))); done)

theorem execRouteStatus_keeps {μ : Nat} (q : Req) (s : State) (hμ : 0x2C0414 &&& μ = 0x2C0414 := by decide) : Keeps μ (s.kept μ) (execRouteStatus q s) := Keeps.mono hμ (by
  unfold execRouteStatus; exact serve_keeps _ _ _ _ (fun _ _ => cmdRouteStatus_ok ..))

@[simp] theorem State.setSalvo_kept {μ : Nat} (n : Nat) (v : Salvo) (s : State) (hμ : 0x400 &&& μ = 0x400 := by decide) : (State.setSalvo n v s).kept μ = s.kept μ := kept_mono hμ (by
  unfold State.setSalvo
  repeat' (first | with_reducible rfl | (simp; done) | split | (refine (kept_foldl (fun _ _ => ?_) _ _).trans ?_) | (simp; fail_if_success done)))

@[simp] theorem State.setArm_kept {μ : Nat} (n : Nat) (target : Nat) (s : State) (hμ : 0x400 &&& μ = 0x400 := by decide) : (State.setArm n target s).kept μ = s.kept μ := kept_mono hμ (by
  unfold State.setArm
  repeat' (first | with_reducible rfl | (simp; done) | split | (refine (kept_foldl (fun _ _ => ?_) _ _).trans ?_) | (simp; fail_if_success done)))

@[simp] theorem State.mismatch_kept {μ : Nat} (o : Nat) (bad : Bool) (s : State) (hμ : 0x2C0414 &&& μ = 0x2C0414 := by decide) : (State.mismatch o bad s).kept μ = s.kept μ := kept_mono hμ (by
  unfold State.mismatch
  repeat' (first | with_reducible rfl | (simp; done) | split | (refine (kept_foldl (fun _ _ => ?_) _ _).trans ?_) | (simp; fail_if_success done)))

@[simp] theorem State.judgeEntry_kept {μ : Nat} (o : Nat) (e : BitVec 256) (f : OutFmt) (s : State) (hμ : 0x2C0414 &&& μ = 0x2C0414 := by decide) : (State.judgeEntry o e f s).kept μ = s.kept μ := kept_mono hμ (by
  unfold State.judgeEntry
  repeat' (first | with_reducible rfl | (simp; done) | split | (refine (kept_foldl (fun _ _ => ?_) _ _).trans ?_) | (simp; fail_if_success done)))

@[simp] theorem State.switchAudio_kept {μ : Nat} (o : Nat) (e : BitVec 256) (f : OutFmt) (at_ : Int) (late : Bool) (s : State) (hμ : 0x2C0414 &&& μ = 0x2C0414 := by decide) : (State.switchAudio o e f at_ late s).kept μ = s.kept μ := kept_mono hμ (by
  unfold State.switchAudio
  repeat' (first | with_reducible rfl | (simp; done) | split | (refine (kept_foldl (fun _ _ => ?_) _ _).trans ?_) | (simp; fail_if_success done)))

@[simp] theorem State.latchTcLine_kept {μ : Nat} (o : Nat) (s : State) (hμ : 0x400 &&& μ = 0x400 := by decide) : (State.latchTcLine o s).kept μ = s.kept μ := kept_mono hμ (by
  unfold State.latchTcLine
  repeat' (first | with_reducible rfl | (simp; done) | split | (refine (kept_foldl (fun _ _ => ?_) _ _).trans ?_) | (simp; fail_if_success done)))

theorem execLatch_keeps {μ : Nat} (o : Fin 2048) (s0 : State) (hμ : 0x2C0614 &&& μ = 0x2C0614 := by decide) : Keeps μ (s0.kept μ) (execLatch o s0) := Keeps.mono hμ (by
  unfold execLatch
  (repeat' (first | with_reducible rfl | trivial | (simp; done) | (refine keeps_checked ?_) | split | (simp only [keeps_done]; fail_if_success done) | (refine (kept_foldl (fun _ _ => ?_) _ _).trans ?_) | (simp; fail_if_success done))); done)

@[simp] theorem State.settleSalvo_kept {μ : Nat} (n : Nat) (s : State) (hμ : 0x400 &&& μ = 0x400 := by decide) : (State.settleSalvo n s).kept μ = s.kept μ := kept_mono hμ (by
  unfold State.settleSalvo
  repeat' (first | with_reducible rfl | (simp; done) | split | (refine (kept_foldl (fun _ _ => ?_) _ _).trans ?_) | (simp; fail_if_success done)))

@[simp] theorem State.salvoSwitched_kept {μ : Nat} (n : Nat) (s : State) (hμ : 0x400 &&& μ = 0x400 := by decide) : (State.salvoSwitched n s).kept μ = s.kept μ := kept_mono hμ (by
  unfold State.salvoSwitched
  repeat' (first | with_reducible rfl | (simp; done) | split | (refine (kept_foldl (fun _ _ => ?_) _ _).trans ?_) | (simp; fail_if_success done)))

@[simp] theorem State.applyVideo_kept {μ : Nat} (o : Nat) (old : BitVec 256) (e : BitVec 256) (f : OutFmt) (s : State) (hμ : 0x2C0414 &&& μ = 0x2C0414 := by decide) : (State.applyVideo o old e f s).kept μ = s.kept μ := kept_mono hμ (by
  unfold State.applyVideo
  repeat' (first | with_reducible rfl | (simp; done) | split | (refine (kept_foldl (fun _ _ => ?_) _ _).trans ?_) | (simp; fail_if_success done)))

theorem execSwitchPoint_keeps {μ : Nat} (o : Fin 2048) (s0 : State) (hμ : 0x2C0414 &&& μ = 0x2C0414 := by decide) : Keeps μ (s0.kept μ) (execSwitchPoint o s0) := Keeps.mono hμ (by
  unfold execSwitchPoint
  (repeat' (first | with_reducible rfl | trivial | (simp; done) | (refine keeps_checked ?_) | split | (simp only [keeps_done]; fail_if_success done) | (refine (kept_foldl (fun _ _ => ?_) _ _).trans ?_) | (simp; fail_if_success done))); done)

theorem execFrameSelect_keeps {μ : Nat} (o : Fin 2048) (s0 : State) (hμ : 0x2C0414 &&& μ = 0x2C0414 := by decide) : Keeps μ (s0.kept μ) (execFrameSelect o s0) := Keeps.mono hμ (by
  unfold execFrameSelect
  (repeat' (first | with_reducible rfl | trivial | (simp; done) | (refine keeps_checked ?_) | split | (simp only [keeps_done]; fail_if_success done) | (refine (kept_foldl (fun _ _ => ?_) _ _).trans ?_) | (simp; fail_if_success done))); done)

@[simp] theorem State.releaseOldVideo_kept {μ : Nat} (o : Nat) (s : State) (hμ : 0x200 &&& μ = 0x200 := by decide) : (State.releaseOldVideo o s).kept μ = s.kept μ := kept_mono hμ (by
  unfold State.releaseOldVideo
  repeat' (first | with_reducible rfl | (simp; done) | split | (refine (kept_foldl (fun _ _ => ?_) _ _).trans ?_) | (simp; fail_if_success done)))

theorem execClaimRelease_keeps {μ : Nat} (o : Fin 2048) (audio : Bool) (s0 : State) (hμ : 0x200 &&& μ = 0x200 := by decide) : Keeps μ (s0.kept μ) (execClaimRelease o audio s0) := Keeps.mono hμ (by
  unfold execClaimRelease
  (repeat' (first | with_reducible rfl | trivial | (simp; done) | (refine keeps_checked ?_) | split | (simp only [keeps_done]; fail_if_success done) | (refine (kept_foldl (fun _ _ => ?_) _ _).trans ?_) | (simp; fail_if_success done))); done)

theorem execAudioLatch_keeps {μ : Nat} (o : Fin 2048) (s0 : State) (hμ : 0x2C0414 &&& μ = 0x2C0414 := by decide) : Keeps μ (s0.kept μ) (execAudioLatch o s0) := Keeps.mono hμ (by
  unfold execAudioLatch
  (repeat' (first | with_reducible rfl | trivial | (simp; done) | (refine keeps_checked ?_) | split | (simp only [keeps_done]; fail_if_success done) | (refine (kept_foldl (fun _ _ => ?_) _ _).trans ?_) | (simp; fail_if_success done))); done)

@[simp] theorem State.routeParity_kept {μ : Nat} (o : Nat) (forced : Bool) (s : State) (hμ : 0x2C0414 &&& μ = 0x2C0414 := by decide) : (State.routeParity o forced s).kept μ = s.kept μ := kept_mono hμ (by
  unfold State.routeParity
  repeat' (first | with_reducible rfl | (simp; done) | split | (refine (kept_foldl (fun _ _ => ?_) _ _).trans ?_) | (simp; fail_if_success done)))

theorem execRouteTableParity_keeps {μ : Nat} (o : Fin 2048) (s : State) (hμ : 0x2C0414 &&& μ = 0x2C0414 := by decide) : Keeps μ (s.kept μ) (execRouteTableParity o s) := Keeps.mono hμ (by
  unfold execRouteTableParity
  (repeat' (first | with_reducible rfl | trivial | (simp; done) | (refine keeps_checked ?_) | split | (simp only [keeps_done]; fail_if_success done) | (refine (kept_foldl (fun _ _ => ?_) _ _).trans ?_) | (simp; fail_if_success done))); done)

@[simp] theorem State.sourceLine1At_kept {μ : Nat} (r : Nat) (ns : Nat) (s : State) (hμ : 0x2C0454 &&& μ = 0x2C0454 := by decide) : (State.sourceLine1At r ns s).kept μ = s.kept μ := kept_mono hμ (by
  unfold State.sourceLine1At
  repeat' (first | with_reducible rfl | (simp; done) | split | (refine (kept_foldl (fun _ _ => ?_) _ _).trans ?_) | (simp; fail_if_success done)))

@[simp] theorem State.sourceLine1_kept {μ : Nat} (r : Nat) (s : State) (hμ : 0x2C0454 &&& μ = 0x2C0454 := by decide) : (State.sourceLine1 r s).kept μ = s.kept μ := kept_mono hμ (by
  unfold State.sourceLine1
  repeat' (first | with_reducible rfl | (simp; done) | split | (refine (kept_foldl (fun _ _ => ?_) _ _).trans ?_) | (simp; fail_if_success done)))

/-! ### Salvos -/

@[simp] theorem State.forwardTo_kept {μ : Nat} (op : Nat) (q : Req) (extra : Nat) (s : State) (m : Nat) (hμ : 0x40000 &&& μ = 0x40000 := by decide) : (State.forwardTo op q extra s m).kept μ = s.kept μ := kept_mono hμ (by
  unfold State.forwardTo
  repeat' (first | with_reducible rfl | (simp; done) | split | (refine (kept_foldl (fun _ _ => ?_) _ _).trans ?_) | (simp; fail_if_success done)))

@[simp] theorem State.forwardEntries_kept {μ : Nat} (q : Req) (n fuel : Nat) (l : List SalvoEntry) (s : State) (hμ : 0x40000 &&& μ = 0x40000 := by decide) : (State.forwardEntries q n fuel l s).kept μ = s.kept μ := kept_mono hμ (by
  induction fuel generalizing l s with
  | zero => rfl
  | succ f ih =>
    unfold State.forwardEntries
    split
    · rfl
    · exact (ih ..).trans (kept_foldl (fun _ _ => State.forwardTo_kept ..) _ _))

@[simp] theorem salvoPrepare_kept {μ : Nat} (q : Req) (n : Nat) (l : List SalvoEntry) (s : State) (hμ : 0x400 &&& μ = 0x400 := by decide) : (salvoPrepare q n l s).kept μ = s.kept μ := kept_mono hμ (by
  unfold salvoPrepare
  repeat' (first | with_reducible rfl | (simp; done) | split | (refine (kept_foldl (fun _ _ => ?_) _ _).trans ?_) | (simp; fail_if_success done)))

theorem cmdSalvoAdd_ok {μ : Nat} (q : Req) (s : State) (hμ : 0x40400 &&& μ = 0x40400 := by decide) :
    OkKept μ (s.kept μ) (fun x => x.1) (cmdSalvoAdd q s) := OkKept.mono hμ (by
  unfold cmdSalvoAdd
  exact OkKept.bind (fun x _ => OkKept.pure ((kept_foldl (fun _ _ => State.forwardTo_kept ..) _ _).trans
    ((salvoPrepare_kept ..).trans (State.settleSalvo_kept ..)))))

theorem execSalvoAdd_keeps {μ : Nat} (q : Req) (s : State) (hμ : 0x2C0414 &&& μ = 0x2C0414 := by decide) : Keeps μ (s.kept μ) (execSalvoAdd q s) := Keeps.mono hμ (by
  unfold execSalvoAdd; exact serve_keeps _ _ _ _ (fun _ _ => cmdSalvoAdd_ok ..))

theorem cmdSalvoQuery_ok {μ : Nat} (peers : List PeerAnswer) (q : Req) (s0 : State) (hμ : 0x400 &&& μ = 0x400 := by decide) : OkKept μ (s0.kept μ) (fun x => x.1) (cmdSalvoQuery peers q s0) := OkKept.mono hμ (by
  unfold cmdSalvoQuery
  (repeat' (first | exact OkKept.error _ | (refine OkKept.pure ?_; (first | with_reducible rfl | (simp; done) | (simp_all; done) | (split <;> simp_all; done))) | (refine OkKept.ok ?_; (first | with_reducible rfl | (simp; done) | (simp_all; done))) | split | (refine OkKept.bind (fun _ _ => ?_)) | (simp only; fail_if_success done))); done)

theorem execSalvoQuery_keeps {μ : Nat} (q : Req) (peers : List PeerAnswer) (s : State) (hμ : 0x2C0414 &&& μ = 0x2C0414 := by decide) : Keeps μ (s.kept μ) (execSalvoQuery q peers s) := Keeps.mono hμ (by
  unfold execSalvoQuery; exact serve_keeps _ _ _ _ (fun _ _ => cmdSalvoQuery_ok ..))

theorem cmdSalvoEntries_ok {μ : Nat} (q : Req) (s0 : State) (hμ : 0x400 &&& μ = 0x400 := by decide) : OkKept μ (s0.kept μ) (fun x => x.1) (cmdSalvoEntries q s0) := OkKept.mono hμ (by
  unfold cmdSalvoEntries
  (repeat' (first | exact OkKept.error _ | (refine OkKept.pure ?_; (first | with_reducible rfl | (simp; done) | (simp_all; done) | (split <;> simp_all; done))) | (refine OkKept.ok ?_; (first | with_reducible rfl | (simp; done) | (simp_all; done))) | split | (refine OkKept.bind (fun _ _ => ?_)) | (simp only; fail_if_success done))); done)

theorem execSalvoEntries_keeps {μ : Nat} (q : Req) (s : State) (hμ : 0x2C0414 &&& μ = 0x2C0414 := by decide) : Keeps μ (s.kept μ) (execSalvoEntries q s) := Keeps.mono hμ (by
  unfold execSalvoEntries; exact serve_keeps _ _ _ _ (fun _ _ => cmdSalvoEntries_ok ..))

theorem inMember_ok {μ : Nat} {α : Type} (k) (g : α → State) (m : Nat) (r : Except Err α) (h : OkKept μ k g r) : OkKept μ k g (inMember m r) := by
  unfold inMember
  split
  · split <;> exact OkKept.error _
  · next a => exact OkKept.ok (h.out a rfl)
theorem salvoAdmitCheck_ok {μ : Nat} (peers : List PeerAnswer) (q : Req) (s : State) (hμ : 0x200 &&& μ = 0x200 := by decide) :
    OkKept μ (s.kept μ) (fun x => x.2) (salvoAdmitCheck peers q s) := OkKept.mono hμ (by
  unfold salvoAdmitCheck
  refine OkKept.bind (fun n _ => OkKept.bind (fun _ _ => OkKept.bind (fun _ _ => OkKept.bind (fun _ _ => OkKept.bind (fun _ _ => ?_)))))
  refine OkKept.step (inMember_ok _ _ _ _ (claimAll_ok ..)) rfl (fun t ht => ?_)
  exact OkKept.bind (fun _ _ => OkKept.pure ht))

@[simp] theorem salvoAdmitDo_kept {μ : Nat} (n : Nat) (s : State) (hμ : 0x400 &&& μ = 0x400 := by decide) : (salvoAdmitDo n s).kept μ = s.kept μ := kept_mono hμ (by
  unfold salvoAdmitDo
  repeat' (first | with_reducible rfl | (simp; done) | split | (refine (kept_foldl (fun _ _ => ?_) _ _).trans ?_) | (simp; fail_if_success done)))

theorem cmdSalvoAdmit_ok {μ : Nat} (peers : List PeerAnswer) (q : Req) (s : State) (hμ : 0x40600 &&& μ = 0x40600 := by decide) :
    OkKept μ (s.kept μ) (fun x => x.1) (cmdSalvoAdmit peers q s) := OkKept.mono hμ (by
  unfold cmdSalvoAdmit
  refine OkKept.step (salvoAdmitCheck_ok ..) (State.settleSalvo_kept ..) (fun x hx => ?_)
  exact OkKept.pure ((kept_foldl (fun _ _ => State.forwardTo_kept ..) _ _).trans ((salvoAdmitDo_kept ..).trans hx)))

theorem execSalvoAdmit_keeps {μ : Nat} (q : Req) (peers : List PeerAnswer) (s : State) (hμ : 0x2C0614 &&& μ = 0x2C0614 := by decide) : Keeps μ (s.kept μ) (execSalvoAdmit q peers s) := Keeps.mono hμ (by
  unfold execSalvoAdmit; exact serve_keeps _ _ _ _ (fun _ _ => cmdSalvoAdmit_ok ..))

@[simp] theorem State.takeLate_kept {μ : Nat} (reason : Nat) (salvo : Nat) (target : Nat) (earliest : Nat) (receipt : Nat) (s : State) (hμ : 0x2C0014 &&& μ = 0x2C0014 := by decide) : (State.takeLate reason salvo target earliest receipt s).kept μ = s.kept μ := kept_mono hμ (by
  unfold State.takeLate
  repeat' (first | with_reducible rfl | (simp; done) | split | (refine (kept_foldl (fun _ _ => ?_) _ _).trans ?_) | (simp; fail_if_success done)))

theorem heldTiming_ok {μ : Nat} (s : State) (q : Req) (receipt : Nat) (first : Nat → Nat) (hμ : 0x2C0014 &&& μ = 0x2C0014 := by decide) : OkKept μ (s.kept μ) (fun x => x.2) (heldTiming s q receipt first) := OkKept.mono hμ (by
  unfold heldTiming
  (repeat' (first | exact OkKept.error _ | (refine OkKept.pure ?_; (first | with_reducible rfl | (simp; done) | (simp_all; done) | (split <;> simp_all; done))) | (refine OkKept.ok ?_; (first | with_reducible rfl | (simp; done) | (simp_all; done))) | split | (refine OkKept.bind (fun _ _ => ?_)) | (simp only; fail_if_success done))); done)

@[simp] theorem salvoTakeDo_kept {μ : Nat} (n : Nat) (target : Nat) (asked : Nat) (receipt : Nat) (moved : Bool) (earliest : Nat) (first : Nat) (s : State) (hμ : 0x2C0414 &&& μ = 0x2C0414 := by decide) : (salvoTakeDo n target asked receipt moved earliest first s).kept μ = s.kept μ := kept_mono hμ (by
  unfold salvoTakeDo
  repeat' (first | with_reducible rfl | (simp; done) | split | (refine (kept_foldl (fun _ _ => ?_) _ _).trans ?_) | (simp; fail_if_success done)))

theorem cmdSalvoTake_ok {μ : Nat} (peers : List PeerAnswer) (q : Req) (s : State) (hμ : 0x2C0414 &&& μ = 0x2C0414 := by decide) :
    OkKept μ (s.kept μ) Ans.state (cmdSalvoTake peers q s) := OkKept.mono hμ (by
  unfold cmdSalvoTake
  refine OkKept.bind (fun x _ => ?_)
  have h (n target : Nat) (n1 n2 : Nat) (b : Bool) (e f : Nat) (n3 : Nat) :
      ((salvoTakeDo n target n1 n2 b e f (s.settleSalvo n3)).settleSalvo n).kept 0x2C0414 = s.kept 0x2C0414 :=
    (State.settleSalvo_kept ..).trans ((salvoTakeDo_kept ..).trans (State.settleSalvo_kept ..))
  simp only
  split
  · exact OkKept.pure (h ..)
  · exact OkKept.pure ((kept_foldl (fun _ _ => State.forwardTo_kept ..) _ _).trans (h ..)))

theorem execSalvoTake_keeps {μ : Nat} (q : TakeReq) (s : State) (hμ : 0x2C0414 &&& μ = 0x2C0414 := by decide) : Keeps μ (s.kept μ) (execSalvoTake q s) := Keeps.mono hμ (by
  unfold execSalvoTake; exact serveAns_keeps _ _ _ _ (fun _ _ => cmdSalvoTake_ok ..))

@[simp] theorem State.answerJob_kept {μ : Nat} (p : Job → Bool) (status : Nat) (result : Job → List Byte) (s : State) (hμ : 0x4 &&& μ = 0x4 := by decide) : (State.answerJob p status result s).kept μ = s.kept μ := kept_mono hμ (by
  unfold State.answerJob
  repeat' (first | with_reducible rfl | (simp; done) | split | (refine (kept_foldl (fun _ _ => ?_) _ _).trans ?_) | (simp; fail_if_success done)))

theorem execTakeAck_keeps {μ : Nat} (salvo : Fin 64) (member : Fin 8) (s0 : State) (hμ : 0x404 &&& μ = 0x404 := by decide) : Keeps μ (s0.kept μ) (execTakeAck salvo member s0) := Keeps.mono hμ (by
  unfold execTakeAck
  (repeat' (first | with_reducible rfl | trivial | (simp; done) | (refine keeps_checked ?_) | split | (simp only [keeps_done]; fail_if_success done) | (refine (kept_foldl (fun _ _ => ?_) _ _).trans ?_) | (simp; fail_if_success done))); done)

theorem execTakeAckDeadline_keeps {μ : Nat} (salvo : Fin 64) (s0 : State) (hμ : 0x2C0014 &&& μ = 0x2C0014 := by decide) : Keeps μ (s0.kept μ) (execTakeAckDeadline salvo s0) := Keeps.mono hμ (by
  unfold execTakeAckDeadline
  (repeat' (first | with_reducible rfl | trivial | (simp; done) | (refine keeps_checked ?_) | split | (simp only [keeps_done]; fail_if_success done) | (refine (kept_foldl (fun _ _ => ?_) _ _).trans ?_) | (simp; fail_if_success done))); done)

@[simp] theorem clearHeld_kept {μ : Nat} (n : Nat) (s : State) (hμ : 0x600 &&& μ = 0x600 := by decide) : (clearHeld n s).kept μ = s.kept μ := kept_mono hμ (by
  unfold clearHeld
  repeat' (first | with_reducible rfl | (simp; done) | split | (refine (kept_foldl (fun _ _ => ?_) _ _).trans ?_) | (simp; fail_if_success done)))

@[simp] theorem salvoAbandonDo_kept {μ : Nat} (n : Nat) (s : State) (hμ : 0x600 &&& μ = 0x600 := by decide) : (salvoAbandonDo n s).kept μ = s.kept μ := kept_mono hμ (by
  unfold salvoAbandonDo
  repeat' (first | with_reducible rfl | (simp; done) | split | (refine (kept_foldl (fun _ _ => ?_) _ _).trans ?_) | (simp; fail_if_success done)))

theorem cmdSalvoAbandon_ok {μ : Nat} (peers : List PeerAnswer) (q : Req) (s : State) (hμ : 0x40600 &&& μ = 0x40600 := by decide) :
    OkKept μ (s.kept μ) (fun x => x.1) (cmdSalvoAbandon peers q s) := OkKept.mono hμ (by
  unfold cmdSalvoAbandon
  exact OkKept.bind (fun x _ => OkKept.pure ((kept_foldl (fun _ _ => State.forwardTo_kept ..) _ _).trans
    ((salvoAbandonDo_kept ..).trans (State.settleSalvo_kept ..)))))

theorem execSalvoAbandon_keeps {μ : Nat} (q : Req) (peers : List PeerAnswer) (s : State) (hμ : 0x2C0614 &&& μ = 0x2C0614 := by decide) : Keeps μ (s.kept μ) (execSalvoAbandon q peers s) := Keeps.mono hμ (by
  unfold execSalvoAbandon; exact serve_keeps _ _ _ _ (fun _ _ => cmdSalvoAbandon_ok ..))

theorem cmdPresetStore_ok {μ : Nat} (q : Req) (s0 : State) (hμ : 0x400 &&& μ = 0x400 := by decide) : OkKept μ (s0.kept μ) (fun x => x.1) (cmdPresetStore q s0) := OkKept.mono hμ (by
  unfold cmdPresetStore
  (repeat' (first | exact OkKept.error _ | (refine OkKept.pure ?_; (first | with_reducible rfl | (simp; done) | (simp_all; done) | (split <;> simp_all; done))) | (refine OkKept.ok ?_; (first | with_reducible rfl | (simp; done) | (simp_all; done))) | split | (refine OkKept.bind (fun _ _ => ?_)) | (simp only; fail_if_success done))); done)

theorem execPresetStore_keeps {μ : Nat} (q : Req) (s : State) (hμ : 0x2C0414 &&& μ = 0x2C0414 := by decide) : Keeps μ (s.kept μ) (execPresetStore q s) := Keeps.mono hμ (by
  unfold execPresetStore; exact serve_keeps _ _ _ _ (fun _ _ => cmdPresetStore_ok ..))

theorem cmdPresetLoad_ok {μ : Nat} (q : Req) (s0 : State) (hμ : 0x40400 &&& μ = 0x40400 := by decide) : OkKept μ (s0.kept μ) (fun x => x.1) (cmdPresetLoad q s0) := OkKept.mono hμ (by
  unfold cmdPresetLoad
  (repeat' (first | exact OkKept.error _ | (refine OkKept.pure ?_; (first | with_reducible rfl | (simp; done) | (simp_all; done) | (split <;> simp_all; done))) | (refine OkKept.ok ?_; (first | with_reducible rfl | (simp; done) | (simp_all; done))) | split | (refine OkKept.bind (fun _ _ => ?_)) | (simp only; fail_if_success done))); done)

theorem execPresetLoad_keeps {μ : Nat} (q : Req) (s : State) (hμ : 0x2C0414 &&& μ = 0x2C0414 := by decide) : Keeps μ (s.kept μ) (execPresetLoad q s) := Keeps.mono hμ (by
  unfold execPresetLoad; exact serve_keeps _ _ _ _ (fun _ _ => cmdPresetLoad_ok ..))

theorem cmdPresetDelete_ok {μ : Nat} (q : Req) (s : State) (hμ : 0x400 &&& μ = 0x400 := by decide) : OkKept μ (s.kept μ) (fun x => x.1) (cmdPresetDelete q s) := OkKept.mono hμ (by
  unfold cmdPresetDelete
  (repeat' (first | exact OkKept.error _ | (refine OkKept.pure ?_; (first | with_reducible rfl | (simp; done) | (simp_all; done) | (split <;> simp_all; done))) | (refine OkKept.ok ?_; (first | with_reducible rfl | (simp; done) | (simp_all; done))) | split | (refine OkKept.bind (fun _ _ => ?_)) | (simp only; fail_if_success done))); done)

theorem execPresetDelete_keeps {μ : Nat} (q : Req) (s : State) (hμ : 0x2C0414 &&& μ = 0x2C0414 := by decide) : Keeps μ (s.kept μ) (execPresetDelete q s) := Keeps.mono hμ (by
  unfold execPresetDelete; exact serve_keeps _ _ _ _ (fun _ _ => cmdPresetDelete_ok ..))

theorem cmdPresetList_ok {μ : Nat} (q : Req) (s : State) (hμ : 0x0 &&& μ = 0x0 := by decide) : OkKept μ (s.kept μ) (fun x => x.1) (cmdPresetList q s) := OkKept.mono hμ (by
  unfold cmdPresetList
  (repeat' (first | exact OkKept.error _ | (refine OkKept.pure ?_; (first | with_reducible rfl | (simp; done) | (simp_all; done) | (split <;> simp_all; done))) | (refine OkKept.ok ?_; (first | with_reducible rfl | (simp; done) | (simp_all; done))) | split | (refine OkKept.bind (fun _ _ => ?_)) | (simp only; fail_if_success done))); done)

theorem execPresetList_keeps {μ : Nat} (q : Req) (s : State) (hμ : 0x2C0014 &&& μ = 0x2C0014 := by decide) : Keeps μ (s.kept μ) (execPresetList q s) := Keeps.mono hμ (by
  unfold execPresetList; exact serve_keeps _ _ _ _ (fun _ _ => cmdPresetList_ok ..))

/-! ### SdiRx -/

@[simp] theorem State.setDep_kept {μ : Nat} (r : Nat) (d : DepSt) (s : State) (hμ : 0x2000 &&& μ = 0x2000 := by decide) : (State.setDep r d s).kept μ = s.kept μ := kept_mono hμ (by
  unfold State.setDep
  repeat' (first | with_reducible rfl | (simp; done) | split | (refine (kept_foldl (fun _ _ => ?_) _ _).trans ?_) | (simp; fail_if_success done)))

@[simp] theorem State.setLane_kept {μ : Nat} (l : Nat) (v : LaneSt) (s : State) (hμ : 0x800 &&& μ = 0x800 := by decide) : (State.setLane l v s).kept μ = s.kept μ := kept_mono hμ (by
  unfold State.setLane
  repeat' (first | with_reducible rfl | (simp; done) | split | (refine (kept_foldl (fun _ _ => ?_) _ _).trans ?_) | (simp; fail_if_success done)))

@[simp] theorem State.setRx_kept {μ : Nat} (x : Rx) (v : LaneSt) (s : State) (hμ : 0x2800 &&& μ = 0x2800 := by decide) : (State.setRx x v s).kept μ = s.kept μ := kept_mono hμ (by
  unfold State.setRx
  repeat' (first | with_reducible rfl | (simp; done) | split | (refine (kept_foldl (fun _ _ => ?_) _ _).trans ?_) | (simp; fail_if_success done)))

@[simp] theorem State.rxCount_kept {μ : Nat} (x : Rx) (k : Nat) (s : State) (hμ : 0x800 &&& μ = 0x800 := by decide) : (State.rxCount x k s).kept μ = s.kept μ := kept_mono hμ (by
  unfold State.rxCount
  repeat' (first | with_reducible rfl | (simp; done) | split | (refine (kept_foldl (fun _ _ => ?_) _ _).trans ?_) | (simp; fail_if_success done)))

@[simp] theorem State.rxAbandon_kept {μ : Nat} (part : Rx × Nat × Nat) (whole : Bool) (s : State) (hμ : 0x428C0 &&& μ = 0x428C0 := by decide) : (State.rxAbandon part whole s).kept μ = s.kept μ := kept_mono hμ (by
  unfold State.rxAbandon
  repeat' (first | with_reducible rfl | (simp; done) | split | (refine (kept_foldl (fun _ _ => ?_) _ _).trans ?_) | (simp; fail_if_success done)))

@[simp] theorem State.rxStop_kept {μ : Nat} (x : Rx) (whole : Bool) (s : State) (hμ : 0x428C0 &&& μ = 0x428C0 := by decide) : (State.rxStop x whole s).kept μ = s.kept μ := kept_mono hμ (by
  unfold State.rxStop
  repeat' (first | with_reducible rfl | (simp; done) | split | (refine (kept_foldl (fun _ _ => ?_) _ _).trans ?_) | (simp; fail_if_success done)))

@[simp] theorem State.rxCands_kept {μ : Nat} (x : Rx) (s : State) (hμ : 0x6D0014 &&& μ = 0x6D0014 := by decide) : (State.rxCands x s).kept μ = s.kept μ := kept_mono hμ (by
  unfold State.rxCands
  repeat' (first | with_reducible rfl | (simp; done) | split | (refine (kept_foldl (fun _ _ => ?_) _ _).trans ?_) | (simp; fail_if_success done)))

@[simp] theorem State.rxEndCauses_kept {μ : Nat} (x : Rx) (s : State) (hμ : 0x10 &&& μ = 0x10 := by decide) : (State.rxEndCauses x s).kept μ = s.kept μ := kept_mono hμ (by
  unfold State.rxEndCauses
  repeat' (first | with_reducible rfl | (simp; done) | split | (refine (kept_foldl (fun _ _ => ?_) _ _).trans ?_) | (simp; fail_if_success done)))

@[simp] theorem State.rxLose_kept {μ : Nat} (x : Rx) (lock : Lock) (event : Bool) (s : State) (hμ : 0x6D28D4 &&& μ = 0x6D28D4 := by decide) : (State.rxLose x lock event s).kept μ = s.kept μ := kept_mono hμ (by
  unfold State.rxLose
  repeat' (first | with_reducible rfl | (simp; done) | split | (refine (kept_foldl (fun _ _ => ?_) _ _).trans ?_) | (simp; fail_if_success done)))

@[simp] theorem State.linkLose_kept {μ : Nat} (l : Nat) (lock : Lock) (s : State) (hμ : 0x6D0814 &&& μ = 0x6D0814 := by decide) : (State.linkLose l lock s).kept μ = s.kept μ := kept_mono hμ (by
  unfold State.linkLose
  repeat' (first | with_reducible rfl | (simp; done) | split | (refine (kept_foldl (fun _ _ => ?_) _ _).trans ?_) | (simp; fail_if_success done)))

@[simp] theorem State.groupLose_kept {μ : Nat} (ld : Nat) (l : Nat) (lock : Lock) (s : State) (hμ : 0x6D28D4 &&& μ = 0x6D28D4 := by decide) : (State.groupLose ld l lock s).kept μ = s.kept μ := kept_mono hμ (by
  unfold State.groupLose
  repeat' (first | with_reducible rfl | (simp; done) | split | (refine (kept_foldl (fun _ _ => ?_) _ _).trans ?_) | (simp; fail_if_success done)))

@[simp] theorem State.laneLose_kept {μ : Nat} (l : Nat) (lock : Lock) (s : State) (hμ : 0x6D28D4 &&& μ = 0x6D28D4 := by decide) : (State.laneLose l lock s).kept μ = s.kept μ := kept_mono hμ (by
  unfold State.laneLose
  repeat' (first | with_reducible rfl | (simp; done) | split | (refine (kept_foldl (fun _ _ => ?_) _ _).trans ?_) | (simp; fail_if_success done)))

@[simp] theorem State.nextRate_kept {μ : Nat} (l : Nat) (s : State) (hμ : 0x800 &&& μ = 0x800 := by decide) : (State.nextRate l s).kept μ = s.kept μ := kept_mono hμ (by
  unfold State.nextRate
  repeat' (first | with_reducible rfl | (simp; done) | split | (refine (kept_foldl (fun _ _ => ?_) _ _).trans ?_) | (simp; fail_if_success done)))

@[simp] theorem State.rxFit_kept {μ : Nat} (x : Rx) (f : VFmt) (s : State) (hμ : 0x2C2854 &&& μ = 0x2C2854 := by decide) : (State.rxFit x f s).1.kept μ = s.kept μ := kept_mono hμ (by
  unfold State.rxFit
  repeat' (first | with_reducible rfl | (simp; done) | split | (refine (kept_foldl (fun _ _ => ?_) _ _).trans ?_) | (simp; fail_if_success done)))

@[simp] theorem State.rxEstablish_kept {μ : Nat} (x : Rx) (f : VFmt) (link : Nat) (supported : Bool) (contra : Bool) (change : Bool) (s : State) (hμ : 0x6D2854 &&& μ = 0x6D2854 := by decide) : (State.rxEstablish x f link supported contra change s).kept μ = s.kept μ := kept_mono hμ (by
  unfold State.rxEstablish
  repeat' (first | with_reducible rfl | (simp; done) | split | (refine (kept_foldl (fun _ _ => ?_) _ _).trans ?_) | (simp; fail_if_success done)))

@[simp] theorem State.rxFrame_kept {μ : Nat} (x : Rx) (i : FrameInfo) (s0 : State) (hμ : 0x6D28D4 &&& μ = 0x6D28D4 := by decide) : (State.rxFrame x i s0).kept μ = s0.kept μ := kept_mono hμ (by
  unfold State.rxFrame
  repeat' (first | with_reducible rfl | (simp; done) | split | (refine (kept_foldl (fun _ _ => ?_) _ _).trans ?_) | (simp; fail_if_success done)))

@[simp] theorem State.linkFrame_kept {μ : Nat} (l : Nat) (i : FrameInfo) (s0 : State) (hμ : 0x2C28D4 &&& μ = 0x2C28D4 := by decide) : (State.linkFrame l i s0).kept μ = s0.kept μ := kept_mono hμ (by
  unfold State.linkFrame
  repeat' (first | with_reducible rfl | (simp; done) | split | (refine (kept_foldl (fun _ _ => ?_) _ _).trans ?_) | (simp; fail_if_success done)))

@[simp] theorem State.groupJudge_kept {μ : Nat} (ld : Nat) (steady : Bool) (s : State) (hμ : 0x6D28D4 &&& μ = 0x6D28D4 := by decide) : (State.groupJudge ld steady s).kept μ = s.kept μ := kept_mono hμ (by
  unfold State.groupJudge
  repeat' (first | with_reducible rfl | (simp; done) | split | (refine (kept_foldl (fun _ _ => ?_) _ _).trans ?_) | (simp; fail_if_success done)))

@[simp] theorem State.laneFrame_kept {μ : Nat} (l : Nat) (i : FrameInfo) (s : State) (hμ : 0x6D28D4 &&& μ = 0x6D28D4 := by decide) : (State.laneFrame l i s).kept μ = s.kept μ := kept_mono hμ (by
  unfold State.laneFrame
  repeat' (first | with_reducible rfl | (simp; done) | split | (refine (kept_foldl (fun _ _ => ?_) _ _).trans ?_) | (simp; fail_if_success done)))

@[simp] theorem State.rxChecks_kept {μ : Nat} (x : Rx) (i : LineInfo) (s : State) (hμ : 0x2C2814 &&& μ = 0x2C2814 := by decide) : (State.rxChecks x i s).kept μ = s.kept μ := kept_mono hμ (by
  unfold State.rxChecks
  repeat' (first | with_reducible rfl | (simp; done) | split | (refine (kept_foldl (fun _ _ => ?_) _ _).trans ?_) | (simp; fail_if_success done)))

@[simp] theorem State.rxVideo_kept {μ : Nat} (x : Rx) (i : LineInfo) (s : State) (hμ : 0x2C28D4 &&& μ = 0x2C28D4 := by decide) : (State.rxVideo x i s).kept μ = s.kept μ := kept_mono hμ (by
  unfold State.rxVideo
  repeat' (first | with_reducible rfl | (simp; done) | split | (refine (kept_foldl (fun _ _ => ?_) _ _).trans ?_) | (simp; fail_if_success done)))

@[simp] theorem State.rxPacket_kept {μ : Nat} (x : Rx) (src : Rx) (p : AncPacket) (s : State) (hμ : 0x2C28D4 &&& μ = 0x2C28D4 := by decide) : (State.rxPacket x src p s).kept μ = s.kept μ := kept_mono hμ (by
  unfold State.rxPacket
  repeat' (first | with_reducible rfl | (simp; done) | split | (refine (kept_foldl (fun _ _ => ?_) _ _).trans ?_) | (simp; fail_if_success done)))

@[simp] theorem State.rxEndAnc_kept {μ : Nat} (x : Rx) (s : State) (hμ : 0x2C20D4 &&& μ = 0x2C20D4 := by decide) : (State.rxEndAnc x s).kept μ = s.kept μ := kept_mono hμ (by
  unfold State.rxEndAnc
  repeat' (first | with_reducible rfl | (simp; done) | split | (refine (kept_foldl (fun _ _ => ?_) _ _).trans ?_) | (simp; fail_if_success done)))

@[simp] theorem State.rxTile_kept {μ : Nat} (x : Rx) (slot : Nat) (r : Nat) (loc : Nat) (s : State) (hμ : 0x2C28D4 &&& μ = 0x2C28D4 := by decide) : (State.rxTile x slot r loc s).kept μ = s.kept μ := kept_mono hμ (by
  unfold State.rxTile
  repeat' (first | with_reducible rfl | (simp; done) | split | (refine (kept_foldl (fun _ _ => ?_) _ _).trans ?_) | (simp; fail_if_success done)))

@[simp] theorem State.rxCloseSlot_kept {μ : Nat} (x : Rx) (slot : Nat) (r : Nat) (loc : Nat) (s : State) (hμ : 0x2C28D4 &&& μ = 0x2C28D4 := by decide) : (State.rxCloseSlot x slot r loc s).kept μ = s.kept μ := kept_mono hμ (by
  unfold State.rxCloseSlot
  repeat' (first | with_reducible rfl | (simp; done) | split | (refine (kept_foldl (fun _ _ => ?_) _ _).trans ?_) | (simp; fail_if_success done)))

@[simp] theorem State.rxAudio_kept {μ : Nat} (x : Rx) (src : Rx) (p : AudioPacket) (s : State) (hμ : 0x2C28D4 &&& μ = 0x2C28D4 := by decide) : (State.rxAudio x src p s).kept μ = s.kept μ := kept_mono hμ (by
  unfold State.rxAudio
  repeat' (first | with_reducible rfl | (simp; done) | split | (refine (kept_foldl (fun _ _ => ?_) _ _).trans ?_) | (simp; fail_if_success done)))

@[simp] theorem State.rxSilence_kept {μ : Nat} (x : Rx) (src : Rx) (s : State) (hμ : 0x2C28D4 &&& μ = 0x2C28D4 := by decide) : (State.rxSilence x src s).kept μ = s.kept μ := kept_mono hμ (by
  unfold State.rxSilence
  repeat' (first | with_reducible rfl | (simp; done) | split | (refine (kept_foldl (fun _ _ => ?_) _ _).trans ?_) | (simp; fail_if_success done)))

@[simp] theorem State.rxLineAudio_kept {μ : Nat} (owner : Option Rx) (src : Rx) (i : LineInfo) (s : State) (hμ : 0x2C28D4 &&& μ = 0x2C28D4 := by decide) : (State.rxLineAudio owner src i s).kept μ = s.kept μ := kept_mono hμ (by
  unfold State.rxLineAudio
  repeat' (first | with_reducible rfl | (simp; done) | split | (refine (kept_foldl (fun _ _ => ?_) _ _).trans ?_) | (simp; fail_if_success done)))

@[simp] theorem State.rxLine1_kept {μ : Nat} (x : Rx) (s : State) (hμ : 0x2C2CD4 &&& μ = 0x2C2CD4 := by decide) : (State.rxLine1 x s).kept μ = s.kept μ := kept_mono hμ (by
  unfold State.rxLine1
  repeat' (first | with_reducible rfl | (simp; done) | split | (refine (kept_foldl (fun _ _ => ?_) _ _).trans ?_) | (simp; fail_if_success done)))

@[simp] theorem State.rxLine_kept {μ : Nat} (x o i) (s : State) (hμ : 0x6D2CD4 &&& μ = 0x6D2CD4 := by decide) : (State.rxLine x o i s).kept μ = s.kept μ := kept_mono hμ (by
  unfold State.rxLine
  extract_lets v0 t line t1 s1 _ s2 writes s3 il s4 s5 s6
  have h : t.kept 0x6D2CD4 = s.kept 0x6D2CD4 := by simp [t]
  split
  · simp [h]
  · have h1 : s1.kept 0x6D2CD4 = s.kept 0x6D2CD4 := by simp only [s1]; split <;> simp [t1, h]
    have h2 : s2.kept 0x6D2CD4 = s.kept 0x6D2CD4 := by simp only [s2]; split <;> simp [h1]
    have h3 : s3.kept 0x6D2CD4 = s.kept 0x6D2CD4 := by simp only [s3]; split <;> simp [h2]
    have h4 : s4.kept 0x6D2CD4 = s.kept 0x6D2CD4 := by simp only [s4]; split <;> simp [h3]
    have h5 : s5.kept 0x6D2CD4 = s.kept 0x6D2CD4 := (kept_foldl (fun _ _ => by simp) _ _).trans h4
    have h6 : s6.kept 0x6D2CD4 = s.kept 0x6D2CD4 := by simp only [s6]; split <;> simp [h5]
    repeat' split
    all_goals simp [h6])

@[simp] theorem State.onBond_kept {μ : Nat} (ld : Nat) (f : BondRx → BondRx) (s : State) (hμ : 0x800 &&& μ = 0x800 := by decide) : (State.onBond ld f s).kept μ = s.kept μ := kept_mono hμ (by
  unfold State.onBond
  repeat' (first | with_reducible rfl | (simp; done) | split | (refine (kept_foldl (fun _ _ => ?_) _ _).trans ?_) | (simp; fail_if_success done)))

@[simp] theorem State.bondFeed_kept {μ : Nat} (ld r n : Nat) (s : State) (hμ : 0x2C28D4 &&& μ = 0x2C28D4 := by decide) : (State.bondFeed ld r n s).kept μ = s.kept μ := kept_mono hμ (by
  induction n generalizing s with
  | zero => rfl
  | succ n ih =>
    unfold State.bondFeed
    split
    · rfl
    · refine (ih _).trans ((State.feedLine_kept ..).trans ?_)
      split
      · exact (State.startUnit_kept ..).trans (State.onBond_kept ..)
      · exact State.onBond_kept ..)

@[simp] theorem State.bondRows_kept {μ : Nat} (ld : Nat) (d : BitVec 256) (s : State) (hμ : 0x800 &&& μ = 0x800 := by decide) : (State.bondRows ld d s).kept μ = s.kept μ := kept_mono hμ (by
  unfold State.bondRows
  repeat' (first | with_reducible rfl | (simp; done) | split | (refine (kept_foldl (fun _ _ => ?_) _ _).trans ?_) | (simp; fail_if_success done)))

@[simp] theorem State.bondVideo_kept {μ : Nat} (ld : Nat) (l : Nat) (i : LineInfo) (s : State) (hμ : 0x2C28D4 &&& μ = 0x2C28D4 := by decide) : (State.bondVideo ld l i s).kept μ = s.kept μ := kept_mono hμ (by
  unfold State.bondVideo
  repeat' (first | with_reducible rfl | (simp; done) | split | (refine (kept_foldl (fun _ _ => ?_) _ _).trans ?_) | (simp; fail_if_success done)))

@[simp] theorem State.bondLine1_kept {μ : Nat} (ld : Nat) (l : Nat) (s : State) (hμ : 0x2C2CD4 &&& μ = 0x2C2CD4 := by decide) : (State.bondLine1 ld l s).kept μ = s.kept μ := kept_mono hμ (by
  unfold State.bondLine1
  repeat' (first | with_reducible rfl | (simp; done) | split | (refine (kept_foldl (fun _ _ => ?_) _ _).trans ?_) | (simp; fail_if_success done)))

@[simp] theorem State.bondEnd_kept {μ : Nat} (ld : Nat) (l : Nat) (s : State) (hμ : 0x2C28D4 &&& μ = 0x2C28D4 := by decide) : (State.bondEnd ld l s).kept μ = s.kept μ := kept_mono hμ (by
  unfold State.bondEnd
  repeat' (first | with_reducible rfl | (simp; done) | split | (refine (kept_foldl (fun _ _ => ?_) _ _).trans ?_) | (simp; fail_if_success done)))

@[simp] theorem State.bondLine_kept {μ : Nat} (ld l : Nat) (i : LineInfo) (s : State) (hμ : 0x6D2CD4 &&& μ = 0x6D2CD4 := by decide) : (State.bondLine ld l i s).kept μ = s.kept μ := kept_mono hμ (by
  unfold State.bondLine
  extract_lets t line locked src s1 src2 s2 s3 s4
  have h : t.kept 0x6D2CD4 = s.kept 0x6D2CD4 := State.rxChecks_kept ..
  split
  · exact (State.laneLose_kept ..).trans h
  · have h1 : s1.kept 0x6D2CD4 = s.kept 0x6D2CD4 := by simp only [s1]; (repeat' split) <;> simp [h]
    have h2 : s2.kept 0x6D2CD4 = s.kept 0x6D2CD4 := by simp only [s2]; split <;> simp [h1]
    have h3 : s3.kept 0x6D2CD4 = s.kept 0x6D2CD4 := by
      refine (kept_foldl (fun _ _ => State.rxPacket_kept ..) _ _).trans ?_
      split <;> simp [h2]
    have h4 : s4.kept 0x6D2CD4 = s.kept 0x6D2CD4 := by simp only [s4]; split <;> simp [h3]
    split
    · exact (State.bondEnd_kept ..).trans h4
    · exact h4)

@[simp] theorem State.laneLine_kept {μ : Nat} (l : Nat) (i : LineInfo) (s : State) (hμ : 0x6D2CD4 &&& μ = 0x6D2CD4 := by decide) : (State.laneLine l i s).kept μ = s.kept μ := kept_mono hμ (by
  unfold State.laneLine
  repeat' (first | with_reducible rfl | (simp; done) | split | (refine (kept_foldl (fun _ _ => ?_) _ _).trans ?_) | (simp; fail_if_success done)))

@[simp] theorem State.rxGroupLost_kept {μ : Nat} (x : Rx) (src : Rx) (g : Nat) (s : State) (hμ : 0x2C28D4 &&& μ = 0x2C28D4 := by decide) : (State.rxGroupLost x src g s).kept μ = s.kept μ := kept_mono hμ (by
  unfold State.rxGroupLost
  repeat' (first | with_reducible rfl | (simp; done) | split | (refine (kept_foldl (fun _ _ => ?_) _ _).trans ?_) | (simp; fail_if_success done)))

/-! ### Sdi -/

theorem execSignalPresence_keeps {μ : Nat} (l : Fin 144) (s0 : State) (hμ : 0x800 &&& μ = 0x800 := by decide) : Keeps μ (s0.kept μ) (execSignalPresence l s0) := Keeps.mono hμ (by
  unfold execSignalPresence
  (repeat' (first | with_reducible rfl | trivial | (simp; done) | (refine keeps_checked ?_) | split | (simp only [keeps_done]; fail_if_success done) | (refine (kept_foldl (fun _ _ => ?_) _ _).trans ?_) | (simp; fail_if_success done))); done)

theorem execSignalAbsence_keeps {μ : Nat} (l : Fin 144) (s0 : State) (hμ : 0x6D28D4 &&& μ = 0x6D28D4 := by decide) : Keeps μ (s0.kept μ) (execSignalAbsence l s0) := Keeps.mono hμ (by
  unfold execSignalAbsence
  (repeat' (first | with_reducible rfl | trivial | (simp; done) | (refine keeps_checked ?_) | split | (simp only [keeps_done]; fail_if_success done) | (refine (kept_foldl (fun _ _ => ?_) _ _).trans ?_) | (simp; fail_if_success done))); done)

theorem execRateAttempt_keeps {μ : Nat} (l : Fin 144) (s0 : State) (hμ : 0x800 &&& μ = 0x800 := by decide) : Keeps μ (s0.kept μ) (execRateAttempt l s0) := Keeps.mono hμ (by
  unfold execRateAttempt
  (repeat' (first | with_reducible rfl | trivial | (simp; done) | (refine keeps_checked ?_) | split | (simp only [keeps_done]; fail_if_success done) | (refine (kept_foldl (fun _ _ => ?_) _ _).trans ?_) | (simp; fail_if_success done))); done)

theorem execCdrLock_keeps {μ : Nat} (l : Fin 144) (s0 : State) (hμ : 0x800 &&& μ = 0x800 := by decide) : Keeps μ (s0.kept μ) (execCdrLock l s0) := Keeps.mono hμ (by
  unfold execCdrLock
  (repeat' (first | with_reducible rfl | trivial | (simp; done) | (refine keeps_checked ?_) | split | (simp only [keeps_done]; fail_if_success done) | (refine (kept_foldl (fun _ _ => ?_) _ _).trans ?_) | (simp; fail_if_success done))); done)

theorem execTrsAlignment_keeps {μ : Nat} (l : Fin 144) (s0 : State) (hμ : 0x800 &&& μ = 0x800 := by decide) : Keeps μ (s0.kept μ) (execTrsAlignment l s0) := Keeps.mono hμ (by
  unfold execTrsAlignment
  (repeat' (first | with_reducible rfl | trivial | (simp; done) | (refine keeps_checked ?_) | split | (simp only [keeps_done]; fail_if_success done) | (refine (kept_foldl (fun _ _ => ?_) _ _).trans ?_) | (simp; fail_if_success done))); done)

theorem execTrsSearchTimeout_keeps {μ : Nat} (l : Fin 144) (s0 : State) (hμ : 0x800 &&& μ = 0x800 := by decide) : Keeps μ (s0.kept μ) (execTrsSearchTimeout l s0) := Keeps.mono hμ (by
  unfold execTrsSearchTimeout
  (repeat' (first | with_reducible rfl | trivial | (simp; done) | (refine keeps_checked ?_) | split | (simp only [keeps_done]; fail_if_success done) | (refine (kept_foldl (fun _ _ => ?_) _ _).trans ?_) | (simp; fail_if_success done))); done)

theorem execCdrLockLoss_keeps {μ : Nat} (l : Fin 144) (s0 : State) (hμ : 0x6D28D4 &&& μ = 0x6D28D4 := by decide) : Keeps μ (s0.kept μ) (execCdrLockLoss l s0) := Keeps.mono hμ (by
  unfold execCdrLockLoss
  (repeat' (first | with_reducible rfl | trivial | (simp; done) | (refine keeps_checked ?_) | split | (simp only [keeps_done]; fail_if_success done) | (refine (kept_foldl (fun _ _ => ?_) _ _).trans ?_) | (simp; fail_if_success done))); done)

theorem execSdiLine_keeps {μ : Nat} (l : Fin 144) (info : LineInfo) (s : State) (hμ : 0x6D2CD4 &&& μ = 0x6D2CD4 := by decide) : Keeps μ (s.kept μ) (execSdiLine l info s) := Keeps.mono hμ (by
  unfold execSdiLine
  (repeat' (first | with_reducible rfl | trivial | (simp; done) | (refine keeps_checked ?_) | split | (simp only [keeps_done]; fail_if_success done) | (refine (kept_foldl (fun _ _ => ?_) _ _).trans ?_) | (simp; fail_if_success done))); done)

theorem execSdiFrame_keeps {μ : Nat} (l : Fin 144) (info : FrameInfo) (s : State) (hμ : 0x6D28D4 &&& μ = 0x6D28D4 := by decide) : Keeps μ (s.kept μ) (execSdiFrame l info s) := Keeps.mono hμ (by
  unfold execSdiFrame
  (repeat' (first | with_reducible rfl | trivial | (simp; done) | (refine keeps_checked ?_) | split | (simp only [keeps_done]; fail_if_success done) | (refine (kept_foldl (fun _ _ => ?_) _ _).trans ?_) | (simp; fail_if_success done))); done)

theorem execLockTimeout_keeps {μ : Nat} (x : RxId) (s0 : State) (hμ : 0x2C2814 &&& μ = 0x2C2814 := by decide) : Keeps μ (s0.kept μ) (execLockTimeout x s0) := Keeps.mono hμ (by
  unfold execLockTimeout
  (repeat' (first | with_reducible rfl | trivial | (simp; done) | (refine keeps_checked ?_) | split | (simp only [keeps_done]; fail_if_success done) | (refine (kept_foldl (fun _ _ => ?_) _ _).trans ?_) | (simp; fail_if_success done))); done)

theorem execAudioGroupAbsence_keeps {μ : Nat} (x : RxId) (group : Fin 8) (s0 : State) (hμ : 0x2C28D4 &&& μ = 0x2C28D4 := by decide) : Keeps μ (s0.kept μ) (execAudioGroupAbsence x group s0) := Keeps.mono hμ (by
  unfold execAudioGroupAbsence
  (repeat' (first | with_reducible rfl | trivial | (simp; done) | (refine keeps_checked ?_) | split | (simp only [keeps_done]; fail_if_success done) | (refine (kept_foldl (fun _ _ => ?_) _ _).trans ?_) | (simp; fail_if_success done))); done)

@[simp] theorem State.txIsolate_kept {μ : Nat} (l : Nat) (s : State) (hμ : 0xC00 &&& μ = 0xC00 := by decide) : (State.txIsolate l s).kept μ = s.kept μ := kept_mono hμ (by
  unfold State.txIsolate
  repeat' (first | with_reducible rfl | (simp; done) | split | (refine (kept_foldl (fun _ _ => ?_) _ _).trans ?_) | (simp; fail_if_success done)))

theorem execSdiTxFault_keeps {μ : Nat} (l : Fin 144) (s0 : State) (hμ : 0x2C0C14 &&& μ = 0x2C0C14 := by decide) : Keeps μ (s0.kept μ) (execSdiTxFault l s0) := Keeps.mono hμ (by
  unfold execSdiTxFault
  (repeat' (first | with_reducible rfl | trivial | (simp; done) | (refine keeps_checked ?_) | split | (simp only [keeps_done]; fail_if_success done) | (refine (kept_foldl (fun _ _ => ?_) _ _).trans ?_) | (simp; fail_if_success done))); done)

theorem bindCheck_ok {μ : Nat} (s : State) (binds : List (Nat × Nat)) (off : Nat → Nat) (mine : Writer → Bool) (hμ : 0x200 &&& μ = 0x200 := by decide) : OkKept μ (s.kept μ) id (bindCheck s binds off mine) := OkKept.mono hμ (by
  unfold bindCheck
  (repeat' (first | exact (claimAll_ok ..) | (refine OkKept.step (claimAll_ok ..) (by simp) (fun _ _ => ?_)) | exact OkKept.error _ | (refine OkKept.pure ?_; (first | with_reducible rfl | (simp; done) | (simp_all; done) | (split <;> simp_all; done))) | (refine OkKept.ok ?_; (first | with_reducible rfl | (simp; done) | (simp_all; done))) | split | (refine OkKept.bind (fun _ _ => ?_)) | (simp only; fail_if_success done))); done)

theorem sdiWriteCheck_ok {μ : Nat} (q : Req) (s : State) (hμ : 0x200 &&& μ = 0x200 := by decide) : OkKept μ (s.kept μ) (fun x => x.2.2) (sdiWriteCheck q s) := OkKept.mono hμ (by
  unfold sdiWriteCheck
  (repeat' (first | exact (bindCheck_ok ..) | (refine OkKept.step (bindCheck_ok ..) (by simp) (fun _ _ => ?_)) | exact OkKept.error _ | (refine OkKept.pure ?_; (first | with_reducible rfl | (simp; done) | (simp_all; done) | (split <;> simp_all; done))) | (refine OkKept.ok ?_; (first | with_reducible rfl | (simp; done) | (simp_all; done))) | split | (refine OkKept.bind (fun _ _ => ?_)) | (simp only; fail_if_success done))); done)

@[simp] theorem State.rxStart_kept {μ : Nat} (l : Nat) (s : State) (hμ : 0x800 &&& μ = 0x800 := by decide) : (State.rxStart l s).kept μ = s.kept μ := kept_mono hμ (by
  unfold State.rxStart
  repeat' (first | with_reducible rfl | (simp; done) | split | (refine (kept_foldl (fun _ _ => ?_) _ _).trans ?_) | (simp; fail_if_success done)))

@[simp] theorem State.rxHalt_kept {μ : Nat} (l : Nat) (s : State) (hμ : 0x6D28D4 &&& μ = 0x6D28D4 := by decide) : (State.rxHalt l s).kept μ = s.kept μ := kept_mono hμ (by
  unfold State.rxHalt
  repeat' (first | with_reducible rfl | (simp; done) | split | (refine (kept_foldl (fun _ _ => ?_) _ _).trans ?_) | (simp; fail_if_success done)))

@[simp] theorem State.unbond_kept {μ : Nat} (l : Nat) (bond : Nat) (s : State) (hμ : 0x6D28D4 &&& μ = 0x6D28D4 := by decide) : (State.unbond l bond s).kept μ = s.kept μ := kept_mono hμ (by
  unfold State.unbond
  repeat' (first | with_reducible rfl | (simp; done) | split | (refine (kept_foldl (fun _ _ => ?_) _ _).trans ?_) | (simp; fail_if_success done)))

@[simp] theorem State.rebond_kept {μ : Nat} (l : Nat) (bond : Nat) (s : State) (hμ : 0x800 &&& μ = 0x800 := by decide) : (State.rebond l bond s).kept μ = s.kept μ := kept_mono hμ (by
  unfold State.rebond
  repeat' (first | with_reducible rfl | (simp; done) | split | (refine (kept_foldl (fun _ _ => ?_) _ _).trans ?_) | (simp; fail_if_success done)))

@[simp] theorem sdiWriteDo_kept {μ : Nat} (l : Nat) (new : BitVec 256) (s : State) (hμ : 0x6D28D4 &&& μ = 0x6D28D4 := by decide) : (sdiWriteDo l new s).kept μ = s.kept μ := kept_mono hμ (by
  unfold sdiWriteDo
  extract_lets old fall t s1 s2
  have h : t.kept 0x6D28D4 = s.kept 0x6D28D4 := (State.unbond_kept ..).trans (by split <;> simp)
  have h1 : s1.kept 0x6D28D4 = s.kept 0x6D28D4 := (State.syncWcreds_kept ..).trans ((State.kept_onSdi ..).trans h)
  have h2 : s2.kept 0x6D28D4 = s.kept 0x6D28D4 := (State.rebond_kept ..).trans (by split <;> simp [h1])
  split
  · exact (kept_foldl (fun _ _ => State.setLane_kept ..) _ _).trans h2
  · exact h2)

theorem cmdSdiWrite_ok {μ : Nat} (q : Req) (s : State) (hμ : 0x6D2AD4 &&& μ = 0x6D2AD4 := by decide) : OkKept μ (s.kept μ) (fun x => x.1) (cmdSdiWrite q s) := OkKept.mono hμ (by
  unfold cmdSdiWrite
  (repeat' (first | exact (sdiWriteCheck_ok ..) | (refine OkKept.step (sdiWriteCheck_ok ..) (by simp) (fun _ _ => ?_)) | exact OkKept.error _ | (refine OkKept.pure ?_; (first | with_reducible rfl | (simp; done) | (simp_all; done) | (split <;> simp_all; done))) | (refine OkKept.ok ?_; (first | with_reducible rfl | (simp; done) | (simp_all; done))) | split | (refine OkKept.bind (fun _ _ => ?_)) | (simp only; fail_if_success done))); done)

theorem execSdiWrite_keeps {μ : Nat} (q : Req) (s : State) (hμ : 0x6D2AD4 &&& μ = 0x6D2AD4 := by decide) : Keeps μ (s.kept μ) (execSdiWrite q s) := Keeps.mono hμ (by
  unfold execSdiWrite; exact serve_keeps _ _ _ _ (fun _ _ => cmdSdiWrite_ok ..))

/-! ### Outputs -/

@[simp] theorem State.closeDigest_kept {μ : Nat} (o : Nat) (s : State) (hμ : 0x80400 &&& μ = 0x80400 := by decide) : (State.closeDigest o s).kept μ = s.kept μ := kept_mono hμ (by
  unfold State.closeDigest
  repeat' (first | with_reducible rfl | (simp; done) | split | (refine (kept_foldl (fun _ _ => ?_) _ _).trans ?_) | (simp; fail_if_success done)))

@[simp] theorem State.frameEnds_kept {μ : Nat} (o : Nat) (s : State) (hμ : 0x800 &&& μ = 0x800 := by decide) : (State.frameEnds o s).kept μ = s.kept μ := kept_mono hμ (by
  unfold State.frameEnds
  repeat' (first | with_reducible rfl | (simp; done) | split | (refine (kept_foldl (fun _ _ => ?_) _ _).trans ?_) | (simp; fail_if_success done)))

@[simp] theorem State.txStops_kept {μ : Nat} (o : Nat) (want : List Nat) (s : State) (hμ : 0x800 &&& μ = 0x800 := by decide) : (State.txStops o want s).kept μ = s.kept μ := kept_mono hμ (by
  unfold State.txStops
  repeat' (first | with_reducible rfl | (simp; done) | split | (refine (kept_foldl (fun _ _ => ?_) _ _).trans ?_) | (simp; fail_if_success done)))

@[simp] theorem State.takeChoice_kept {μ : Nat} (o : Nat) (s : State) (hμ : 0x600 &&& μ = 0x600 := by decide) : (State.takeChoice o s).kept μ = s.kept μ := kept_mono hμ (by
  unfold State.takeChoice
  repeat' (first | with_reducible rfl | (simp; done) | split | (refine (kept_foldl (fun _ _ => ?_) _ _).trans ?_) | (simp; fail_if_success done)))

@[simp] theorem State.txStart_kept {μ : Nat} (o : Nat) (f : OutFmt) (want : List Nat) (again : Bool) (s : State) (hμ : 0x400 &&& μ = 0x400 := by decide) : (State.txStart o f want again s).kept μ = s.kept μ := kept_mono hμ (by
  unfold State.txStart
  repeat' (first | with_reducible rfl | (simp; done) | split | (refine (kept_foldl (fun _ _ => ?_) _ _).trans ?_) | (simp; fail_if_success done)))

@[simp] theorem State.frameBegins_kept {μ : Nat} (o : Nat) (f : OutFmt) (want : List Nat) (runs : Bool) (s : State) (hμ : 0x2C0614 &&& μ = 0x2C0614 := by decide) : (State.frameBegins o f want runs s).kept μ = s.kept μ := kept_mono hμ (by
  unfold State.frameBegins
  repeat' (first | with_reducible rfl | (simp; done) | split | (refine (kept_foldl (fun _ _ => ?_) _ _).trans ?_) | (simp; fail_if_success done)))

theorem execOutputFrameStart_keeps {μ : Nat} (o : Fin 2048) (s0 : State) (hμ : 0x2C0E14 &&& μ = 0x2C0E14 := by decide) : Keeps μ (s0.kept μ) (execOutputFrameStart o s0) := Keeps.mono hμ (by
  unfold execOutputFrameStart
  (repeat' (first | with_reducible rfl | trivial | (simp; done) | (refine keeps_checked ?_) | split | (simp only [keeps_done]; fail_if_success done) | (refine (kept_foldl (fun _ _ => ?_) _ _).trans ?_) | (simp; fail_if_success done))); done)

@[simp] theorem State.audioSlips_kept {μ : Nat} (l : Nat) (kind : Nat) (slot : Nat) (index : Nat) (slips : List (Nat × Nat)) (s : State) (hμ : 0x2C0014 &&& μ = 0x2C0014 := by decide) : (State.audioSlips l kind slot index slips s).kept μ = s.kept μ := kept_mono hμ (by
  unfold State.audioSlips
  repeat' (first | with_reducible rfl | (simp; done) | split | (refine (kept_foldl (fun _ _ => ?_) _ _).trans ?_) | (simp; fail_if_success done)))

theorem execAudioReaderTile_keeps {μ : Nat} (o : Fin 2048) (slot : Fin 4) (s0 : State) (hμ : 0x2C0414 &&& μ = 0x2C0414 := by decide) : Keeps μ (s0.kept μ) (execAudioReaderTile o slot s0) := Keeps.mono hμ (by
  unfold execAudioReaderTile
  extract_lets k s v old live hz src
  split
  · exact State.kept_fresh ..
  · split
    extract_lets block s1 s2
    have h2 : s2.kept 0x2C0414 = s0.kept 0x2C0414 := by
      simp only [s2]
      split
      · exact (State.kept_emit ..).trans ((State.setOut_kept ..).trans (State.kept_fresh ..))
      · exact (State.setOut_kept ..).trans (State.kept_fresh ..)
    clear_value s2
    exact (State.audioSlips_kept ..).trans h2)

theorem cmdPktOutWrite_ok {μ : Nat} (q : Req) (s : State) (hμ : 0x2000 &&& μ = 0x2000 := by decide) : OkKept μ (s.kept μ) (fun x => x.1) (cmdPktOutWrite q s) := OkKept.mono hμ (by
  unfold cmdPktOutWrite
  (repeat' (first | exact OkKept.error _ | (refine OkKept.pure ?_; (first | with_reducible rfl | (simp; done) | (simp_all; done) | (split <;> simp_all; done))) | (refine OkKept.ok ?_; (first | with_reducible rfl | (simp; done) | (simp_all; done))) | split | (refine OkKept.bind (fun _ _ => ?_)) | (simp only; fail_if_success done))); done)

theorem execPktOutWrite_keeps {μ : Nat} (q : Req) (s : State) (hμ : 0x2C2014 &&& μ = 0x2C2014 := by decide) : Keeps μ (s.kept μ) (execPktOutWrite q s) := Keeps.mono hμ (by
  unfold execPktOutWrite; exact serve_keeps _ _ _ _ (fun _ _ => cmdPktOutWrite_ok ..))

end Sys2Proof.Machine
end

