-- ==== Sys2Proof/Laws/KeptFlows.lean ====
section
/-! SUPPORT. What is left as it is by media ports, flows and the Merge Unit. -/

set_option Elab.async false

namespace Sys2Proof.Machine

open Sys2Proof

/-! ### Depack -/

@[simp] theorem State.depCount_kept {μ : Nat} (r : Nat) (k : Nat) (n : Nat) (s : State) (hμ : 0x2000 &&& μ = 0x2000 := by decide) : (State.depCount r k n s).kept μ = s.kept μ := kept_mono hμ (by
  unfold State.depCount
  repeat' (first | with_reducible rfl | (simp; done) | split | (refine (kept_foldl (fun _ _ => ?_) _ _).trans ?_) | (simp; fail_if_success done)))

@[simp] theorem State.depGap_kept {μ : Nat} (r : Nat) (s : State) (hμ : 0x2000 &&& μ = 0x2000 := by decide) : (State.depGap r s).kept μ = s.kept μ := kept_mono hμ (by
  unfold State.depGap
  repeat' (first | with_reducible rfl | (simp; done) | split | (refine (kept_foldl (fun _ _ => ?_) _ _).trans ?_) | (simp; fail_if_success done)))

@[simp] theorem State.depClose_kept {μ : Nat} (r : Nat) (l : Nat) (upto : Nat) (touched : Nat) (force : Bool) (s : State) (hμ : 0x2C20D4 &&& μ = 0x2C20D4 := by decide) : (State.depClose r l upto touched force s).kept μ = s.kept μ := kept_mono hμ (by
  unfold State.depClose
  repeat' (first | with_reducible rfl | (simp; done) | split | (refine (kept_foldl (fun _ _ => ?_) _ _).trans ?_) | (simp; fail_if_success done)))

@[simp] theorem State.depBadFrame_kept {μ : Nat} (r : Nat) (s : State) (hμ : 0x420C0 &&& μ = 0x420C0 := by decide) : (State.depBadFrame r s).kept μ = s.kept μ := kept_mono hμ (by
  unfold State.depBadFrame
  repeat' (first | with_reducible rfl | (simp; done) | split | (refine (kept_foldl (fun _ _ => ?_) _ _).trans ?_) | (simp; fail_if_success done)))

@[simp] theorem State.depVerdict_kept {μ : Nat} (r : Nat) (s : State) (hμ : 0x2C2014 &&& μ = 0x2C2014 := by decide) : (State.depVerdict r s).kept μ = s.kept μ := kept_mono hμ (by
  unfold State.depVerdict
  repeat' (first | with_reducible rfl | (simp; done) | split | (refine (kept_foldl (fun _ _ => ?_) _ _).trans ?_) | (simp; fail_if_success done)))

@[simp] theorem State.depEndField_kept {μ : Nat} (r : Nat) (short : Bool) (s : State) (hμ : 0x2C20D4 &&& μ = 0x2C20D4 := by decide) : (State.depEndField r short s).kept μ = s.kept μ := kept_mono hμ (by
  unfold State.depEndField
  repeat' (first | with_reducible rfl | (simp; done) | split | (refine (kept_foldl (fun _ _ => ?_) _ _).trans ?_) | (simp; fail_if_success done)))

@[simp] theorem State.depFinish_kept {μ : Nat} (r : Nat) (s : State) (hμ : 0x2C20D4 &&& μ = 0x2C20D4 := by decide) : (State.depFinish r s).kept μ = s.kept μ := kept_mono hμ (by
  unfold State.depFinish
  repeat' (first | with_reducible rfl | (simp; done) | split | (refine (kept_foldl (fun _ _ => ?_) _ _).trans ?_) | (simp; fail_if_success done)))

@[simp] theorem State.depOpen_kept {μ : Nat} (r : Nat) (p : Rtp) (second first : Bool) (s0 : State) (hμ : 0x2C20D4 &&& μ = 0x2C20D4 := by decide) : (State.depOpen r p second first s0).kept μ = s0.kept μ := kept_mono hμ (by
  unfold State.depOpen
  extract_lets v joins s w l d fresh s1 s2
  have h : s.kept 0x2C20D4 = s0.kept 0x2C20D4 := by simp only [s]; split <;> simp
  have h1 : s1.kept 0x2C20D4 = s0.kept 0x2C20D4 := by simp only [s1]; split <;> simp [h]
  have h2 : s2.kept 0x2C20D4 = s0.kept 0x2C20D4 := (State.setDep_kept ..).trans h
  have h3 : ((List.range (fieldTiles d false)).foldl (fun s _ => s.closeMissing r [] true true) (s2.startUnit r l)).kept 0x2C20D4 = s0.kept 0x2C20D4 :=
    (kept_foldl (fun _ _ => State.closeMissing_kept ..) _ _).trans ((State.startUnit_kept ..).trans h2)
  have h4 : (s2.startUnit r l).kept 0x2C20D4 = s0.kept 0x2C20D4 := (State.startUnit_kept ..).trans h2
  clear_value s1 s2
  repeat' split
  all_goals first
    | exact h2
    | exact h3
    | exact h4
    | exact (State.setDep_kept ..).trans h1
    | exact (State.setDep_kept ..).trans h)

@[simp] theorem State.depPlace_kept {μ : Nat} (r k g b a) (hμ : 0x2C20D4 &&& μ = 0x2C20D4 := by decide) : (State.depPlace r k g b a).1.kept μ = a.1.kept μ := kept_mono hμ (by
  obtain ⟨s, l⟩ := a
  unfold State.depPlace
  simp only
  repeat' split
  all_goals simp)

theorem depPlaces_kept {μ : Nat} (r : Nat) (d : BitVec 256) (bits8 : Bool) (l : List Segment) (a : State × Bool) (hμ : 0x2C20D4 &&& μ = 0x2C20D4 := by decide) :
    (l.foldl (fun b g => State.depPlace r ((if g.second then fieldLines d false else 0) + g.row) g bits8 b) a).1.kept μ =
      a.1.kept μ := kept_mono hμ (by
  induction l generalizing a with
  | nil => rfl
  | cons g l ih => rw [List.foldl_cons, ih, State.depPlace_kept])
@[simp] theorem State.depVideo_kept {μ : Nat} (r p a) (s : State) (hμ : 0x2C20D4 &&& μ = 0x2C20D4 := by decide) : (State.depVideo r p a s).kept μ = s.kept μ := kept_mono hμ (by
  unfold State.depVideo
  extract_lets x d gs second first shapes outside ends
  split
  extract_lets s1 behind s2 v2 v3 s3 s4 s5
  have h1 : s1.kept 0x2C20D4 = s.kept 0x2C20D4 := State.setDep_kept ..
  have h2 : s2.kept 0x2C20D4 = s.kept 0x2C20D4 := by simp only [s2]; split <;> simp [h1]
  have h4 : s4.kept 0x2C20D4 = s.kept 0x2C20D4 := by simp only [s4]; split <;> simp [s3, h2]
  have h5 : s5.kept 0x2C20D4 = s.kept 0x2C20D4 := by
    have hp := depPlaces_kept (μ := 0x2C20D4) r d a gs (s4, false)
    simp only [s5]
    split
    · exact h4
    · split
      · exact (State.depCount_kept ..).trans (hp.trans h4)
      · exact hp.trans h4
  clear_value s1 behind s5
  split
  · simp
  · split
    · simp [h1]
    · split
      · simp [h2]
      · split
        · split <;> simp [h2]
        · split <;> simp [h5])

@[simp] theorem State.audioClose_kept {μ : Nat} (r : Nat) (s : State) (hμ : 0x2C20D4 &&& μ = 0x2C20D4 := by decide) : (State.audioClose r s).kept μ = s.kept μ := kept_mono hμ (by
  unfold State.audioClose
  repeat' (first | with_reducible rfl | (simp; done) | split | (refine (kept_foldl (fun _ _ => ?_) _ _).trans ?_) | (simp; fail_if_success done)))

@[simp] theorem State.audioCloses_kept {μ : Nat} (r : Nat) (s : State) (hμ : 0x2C20D4 &&& μ = 0x2C20D4 := by decide) : (State.audioCloses r s).kept μ = s.kept μ := kept_mono hμ (by
  unfold State.audioCloses
  repeat' (first | with_reducible rfl | (simp; done) | split | (refine (kept_foldl (fun _ _ => ?_) _ _).trans ?_) | (simp; fail_if_success done)))

@[simp] theorem State.depAudio_kept {μ : Nat} (r : Nat) (aes : Bool) (p : Rtp) (s : State) (hμ : 0x2C20D4 &&& μ = 0x2C20D4 := by decide) : (State.depAudio r aes p s).kept μ = s.kept μ := kept_mono hμ (by
  unfold State.depAudio
  repeat' (first | with_reducible rfl | (simp; done) | split | (refine (kept_foldl (fun _ _ => ?_) _ _).trans ?_) | (simp; fail_if_success done)))

theorem execAudioTileTimeout_keeps {μ : Nat} (ring : Fin 8192) (s0 : State) (hμ : 0x2C20D4 &&& μ = 0x2C20D4 := by decide) : Keeps μ (s0.kept μ) (execAudioTileTimeout ring s0) := Keeps.mono hμ (by
  unfold execAudioTileTimeout
  (repeat' (first | with_reducible rfl | trivial | (simp; done) | (refine keeps_checked ?_) | split | (simp only [keeps_done]; fail_if_success done) | (refine (kept_foldl (fun _ _ => ?_) _ _).trans ?_) | (simp; fail_if_success done))); done)

@[simp] theorem State.depAnc_kept {μ : Nat} (r : Nat) (p : Rtp) (s : State) (hμ : 0x2C20D4 &&& μ = 0x2C20D4 := by decide) : (State.depAnc r p s).kept μ = s.kept μ := kept_mono hμ (by
  unfold State.depAnc
  extract_lets x l all good bad
  split
  split
  · exact State.depCount_kept ..
  · extract_lets behind s1 s2 s3 s4
    have h1 : s1.kept 0x2C20D4 = s.kept 0x2C20D4 := State.setDep_kept ..
    have h2 : s2.kept 0x2C20D4 = s.kept 0x2C20D4 := by simp only [s2]; split <;> simp [h1]
    have h3 : s3.kept 0x2C20D4 = s.kept 0x2C20D4 := by simp only [s3]; split <;> simp [h2]
    have h4 : s4.kept 0x2C20D4 = s.kept 0x2C20D4 := (kept_foldl (fun _ _ => by dsimp only; split <;> simp) _ _).trans h3
    clear_value s4
    repeat' split
    all_goals simp [h4])

@[simp] theorem State.depOpaque_kept {μ : Nat} (r : Nat) (p : Rtp) (bytes : List Byte) (s : State) (hμ : 0x2C20D4 &&& μ = 0x2C20D4 := by decide) : (State.depOpaque r p bytes s).kept μ = s.kept μ := kept_mono hμ (by
  unfold State.depOpaque
  repeat' (first | with_reducible rfl | (simp; done) | split | (refine (kept_foldl (fun _ _ => ?_) _ _).trans ?_) | (simp; fail_if_success done)))

@[simp] theorem State.serialLine_kept {μ : Nat} (r : Nat) (i : LineInfo) (s : State) (hμ : 0x6D2CD4 &&& μ = 0x6D2CD4 := by decide) : (State.serialLine r i s).kept μ = s.kept μ := kept_mono hμ (by
  unfold State.serialLine
  repeat' (first | with_reducible rfl | (simp; done) | split | (refine (kept_foldl (fun _ _ => ?_) _ _).trans ?_) | (simp; fail_if_success done)))

@[simp] theorem State.depSerial_kept {μ : Nat} (r p a b) (s : State) (hμ : 0x6D2CD4 &&& μ = 0x6D2CD4 := by decide) : (State.depSerial r p a b s).kept μ = s.kept μ := kept_mono hμ (by
  unfold State.depSerial
  extract_lets v0
  split
  split
  · simp
  · extract_lets s1 s2
    have h2 : s2.kept 0x6D2CD4 = s.kept 0x6D2CD4 := (kept_foldl (fun _ _ => by simp) _ _).trans (by simp [s1])
    repeat' split
    all_goals simp [h2])

@[simp] theorem State.depacketise_kept {μ : Nat} (r : Nat) (essence : Nat) (sub : Nat) (data : List Byte) (f : EthFrame) (s : State) (hμ : 0x6D2CD4 &&& μ = 0x6D2CD4 := by decide) : (State.depacketise r essence sub data f s).kept μ = s.kept μ := kept_mono hμ (by
  unfold State.depacketise
  repeat' (first | with_reducible rfl | (simp; done) | split | (refine (kept_foldl (fun _ _ => ?_) _ _).trans ?_) | (simp; fail_if_success done)))

@[simp] theorem State.depStop_kept {μ : Nat} (r : Nat) (s : State) (hμ : 0x6D28D4 &&& μ = 0x6D28D4 := by decide) : (State.depStop r s).kept μ = s.kept μ := kept_mono hμ (by
  unfold State.depStop
  repeat' (first | with_reducible rfl | (simp; done) | split | (refine (kept_foldl (fun _ _ => ?_) _ _).trans ?_) | (simp; fail_if_success done)))

/-! ### Eth -/

@[simp] theorem State.setSub_kept {μ : Nat} (p : Nat) (v : SubSt) (s : State) (hμ : 0x1000 &&& μ = 0x1000 := by decide) : (State.setSub p v s).kept μ = s.kept μ := kept_mono hμ (by
  unfold State.setSub
  repeat' (first | with_reducible rfl | (simp; done) | split | (refine (kept_foldl (fun _ _ => ?_) _ _).trans ?_) | (simp; fail_if_success done)))

@[simp] theorem State.ethCount_kept {μ : Nat} (p : Nat) (k : Nat) (n : Nat) (s : State) (hμ : 0x1000 &&& μ = 0x1000 := by decide) : (State.ethCount p k n s).kept μ = s.kept μ := kept_mono hμ (by
  unfold State.ethCount
  repeat' (first | with_reducible rfl | (simp; done) | split | (refine (kept_foldl (fun _ _ => ?_) _ _).trans ?_) | (simp; fail_if_success done)))

@[simp] theorem State.fecCount_kept {μ : Nat} (p : Nat) (l : List (Nat × Nat)) (s : State) (hμ : 0x1000 &&& μ = 0x1000 := by decide) : (State.fecCount p l s).kept μ = s.kept μ := kept_mono hμ (by
  unfold State.fecCount
  repeat' (first | with_reducible rfl | (simp; done) | split | (refine (kept_foldl (fun _ _ => ?_) _ _).trans ?_) | (simp; fail_if_success done)))

@[simp] theorem State.subLeave_kept {μ : Nat} (p : Nat) (u : LinkUp) (s : State) (hμ : 0x6F38D4 &&& μ = 0x6F38D4 := by decide) : (State.subLeave p u s).kept μ = s.kept μ := kept_mono hμ (by
  unfold State.subLeave
  simp only
  split
  · simp
  · rw [State.raise0_kept, State.instLink_kept]
    exact (kept_foldl (fun _ _ => by simp) _ _).trans (by simp))

theorem execSubportTrained_keeps {μ : Nat} (p : Fin 32) (s0 : State) (hμ : 0x6F1014 &&& μ = 0x6F1014 := by decide) : Keeps μ (s0.kept μ) (execSubportTrained p s0) := Keeps.mono hμ (by
  unfold execSubportTrained
  (repeat' (first | with_reducible rfl | trivial | (simp; done) | (refine keeps_checked ?_) | split | (simp only [keeps_done]; fail_if_success done) | (refine (kept_foldl (fun _ _ => ?_) _ _).trans ?_) | (simp; fail_if_success done))); done)

theorem execSubportLinkLoss_keeps {μ : Nat} (p : Fin 32) (fec : List (Nat × Nat)) (s0 : State) (hμ : 0x6F38D4 &&& μ = 0x6F38D4 := by decide) : Keeps μ (s0.kept μ) (execSubportLinkLoss p fec s0) := Keeps.mono hμ (by
  unfold execSubportLinkLoss
  (repeat' (first | with_reducible rfl | trivial | (simp; done) | (refine keeps_checked ?_) | split | (simp only [keeps_done]; fail_if_success done) | (refine (kept_foldl (fun _ _ => ?_) _ _).trans ?_) | (simp; fail_if_success done))); done)

@[simp] theorem State.fecRecent_kept {μ : Nat} (p : Nat) (n : Nat) (s : State) (hμ : 0x1000 &&& μ = 0x1000 := by decide) : (State.fecRecent p n s).kept μ = s.kept μ := kept_mono hμ (by
  unfold State.fecRecent
  repeat' (first | with_reducible rfl | (simp; done) | split | (refine (kept_foldl (fun _ _ => ?_) _ _).trans ?_) | (simp; fail_if_success done)))

theorem execPauseFrame_keeps {μ : Nat} (p : Fin 32) (quanta : BitVec 16) (s0 : State) (hμ : 0x1000 &&& μ = 0x1000 := by decide) : Keeps μ (s0.kept μ) (execPauseFrame p quanta s0) := Keeps.mono hμ (by
  unfold execPauseFrame
  (repeat' (first | with_reducible rfl | trivial | (simp; done) | (refine keeps_checked ?_) | split | (simp only [keeps_done]; fail_if_success done) | (refine (kept_foldl (fun _ _ => ?_) _ _).trans ?_) | (simp; fail_if_success done))); done)

theorem execPfcFrame_keeps {μ : Nat} (p : Fin 32) (enable : BitVec 8) (quanta : List (BitVec 16)) (s0 : State) (hμ : 0x1000 &&& μ = 0x1000 := by decide) : Keeps μ (s0.kept μ) (execPfcFrame p enable quanta s0) := Keeps.mono hμ (by
  unfold execPfcFrame
  (repeat' (first | with_reducible rfl | trivial | (simp; done) | (refine keeps_checked ?_) | split | (simp only [keeps_done]; fail_if_success done) | (refine (kept_foldl (fun _ _ => ?_) _ _).trans ?_) | (simp; fail_if_success done))); done)

theorem execPauseHoldEnd_keeps {μ : Nat} (p : Fin 32) (media : Bool) (s0 : State) (hμ : 0x1000 &&& μ = 0x1000 := by decide) : Keeps μ (s0.kept μ) (execPauseHoldEnd p media s0) := Keeps.mono hμ (by
  unfold execPauseHoldEnd
  (repeat' (first | with_reducible rfl | trivial | (simp; done) | (refine keeps_checked ?_) | split | (simp only [keeps_done]; fail_if_success done) | (refine (kept_foldl (fun _ _ => ?_) _ _).trans ?_) | (simp; fail_if_success done))); done)

theorem execPauseWatchdogExpiry_keeps {μ : Nat} (p : Fin 32) (media : Bool) (s0 : State) (hμ : 0x2C1014 &&& μ = 0x2C1014 := by decide) : Keeps μ (s0.kept μ) (execPauseWatchdogExpiry p media s0) := Keeps.mono hμ (by
  unfold execPauseWatchdogExpiry
  (repeat' (first | with_reducible rfl | trivial | (simp; done) | (refine keeps_checked ?_) | split | (simp only [keeps_done]; fail_if_success done) | (refine (kept_foldl (fun _ _ => ?_) _ _).trans ?_) | (simp; fail_if_success done))); done)

theorem execPauseIgnoreEnd_keeps {μ : Nat} (p : Fin 32) (media : Bool) (s0 : State) (hμ : 0x1000 &&& μ = 0x1000 := by decide) : Keeps μ (s0.kept μ) (execPauseIgnoreEnd p media s0) := Keeps.mono hμ (by
  unfold execPauseIgnoreEnd
  (repeat' (first | with_reducible rfl | trivial | (simp; done) | (refine keeps_checked ?_) | split | (simp only [keeps_done]; fail_if_success done) | (refine (kept_foldl (fun _ _ => ?_) _ _).trans ?_) | (simp; fail_if_success done))); done)

@[simp] theorem State.mgmtCount_kept {μ : Nat} (p : Nat) (tag : Option (BitVec 16)) (n : Nat) (s : State) (hμ : 0x1000 &&& μ = 0x1000 := by decide) : (State.mgmtCount p tag n s).kept μ = s.kept μ := kept_mono hμ (by
  unfold State.mgmtCount
  repeat' (first | with_reducible rfl | (simp; done) | split | (refine (kept_foldl (fun _ _ => ?_) _ _).trans ?_) | (simp; fail_if_success done)))

@[simp] theorem State.mgmtLeave_kept {μ : Nat} (p : Nat) (m : MgmtTx) (s : State) (hμ : 0x2E1014 &&& μ = 0x2E1014 := by decide) : (State.mgmtLeave p m s).kept μ = s.kept μ := kept_mono hμ (by
  unfold State.mgmtLeave
  repeat' (first | with_reducible rfl | (simp; done) | split | (refine (kept_foldl (fun _ _ => ?_) _ _).trans ?_) | (simp; fail_if_success done)))

@[simp] theorem State.inbandLeave_kept {μ : Nat} (x : InBand) (s : State) (hμ : 0x1000 &&& μ = 0x1000 := by decide) : (State.inbandLeave x s).kept μ = s.kept μ := kept_mono hμ (by
  unfold State.inbandLeave
  repeat' (first | with_reducible rfl | (simp; done) | split | (refine (kept_foldl (fun _ _ => ?_) _ _).trans ?_) | (simp; fail_if_success done)))

theorem execMgmtFrameSend_keeps {μ : Nat} (p : Fin 32) (s0 : State) (hμ : 0x2E1014 &&& μ = 0x2E1014 := by decide) : Keeps μ (s0.kept μ) (execMgmtFrameSend p s0) := Keeps.mono hμ (by
  unfold execMgmtFrameSend
  (repeat' (first | with_reducible rfl | trivial | (simp; done) | (refine keeps_checked ?_) | split | (simp only [keeps_done]; fail_if_success done) | (refine (kept_foldl (fun _ _ => ?_) _ _).trans ?_) | (simp; fail_if_success done))); done)

@[simp] theorem State.portTrain_kept {μ : Nat} (n : Nat) (s : State) (hμ : 0x1000 &&& μ = 0x1000 := by decide) : (State.portTrain n s).kept μ = s.kept μ := kept_mono hμ (by
  unfold State.portTrain
  repeat' (first | with_reducible rfl | (simp; done) | split | (refine (kept_foldl (fun _ _ => ?_) _ _).trans ?_) | (simp; fail_if_success done)))

@[simp] theorem State.portStop_kept {μ : Nat} (n : Nat) (s : State) (hμ : 0x6F38D4 &&& μ = 0x6F38D4 := by decide) : (State.portStop n s).kept μ = s.kept μ := kept_mono hμ (by
  unfold State.portStop
  repeat' (first | with_reducible rfl | (simp; done) | split | (refine (kept_foldl (fun _ _ => ?_) _ _).trans ?_) | (simp; fail_if_success done)))

@[simp] theorem State.mediaFree_kept {μ : Nat} (n : Nat) (pauseMedia : Bool) (s : State) (hμ : 0x1000 &&& μ = 0x1000 := by decide) : (State.mediaFree n pauseMedia s).kept μ = s.kept μ := kept_mono hμ (by
  unfold State.mediaFree
  repeat' (first | with_reducible rfl | (simp; done) | split | (refine (kept_foldl (fun _ _ => ?_) _ _).trans ?_) | (simp; fail_if_success done)))

@[simp] theorem ethWriteDo_kept {μ : Nat} (n : Nat) (new : BitVec 256) (s0 : State) (hμ : 0x6F3CD4 &&& μ = 0x6F3CD4 := by decide) : (ethWriteDo n new s0).kept μ = s0.kept μ := kept_mono hμ (by
  unfold ethWriteDo
  repeat' (first | with_reducible rfl | (simp; done) | split | (refine (kept_foldl (fun _ _ => ?_) _ _).trans ?_) | (simp; fail_if_success done)))

theorem cmdEthWrite_ok {μ : Nat} (q : Req) (s : State) (hμ : 0x6F3CD4 &&& μ = 0x6F3CD4 := by decide) : OkKept μ (s.kept μ) (fun x => x.1) (cmdEthWrite q s) := OkKept.mono hμ (by
  unfold cmdEthWrite
  (repeat' (first | exact OkKept.error _ | (refine OkKept.pure ?_; (first | with_reducible rfl | (simp; done) | (simp_all; done) | (split <;> simp_all; done))) | (refine OkKept.ok ?_; (first | with_reducible rfl | (simp; done) | (simp_all; done))) | split | (refine OkKept.bind (fun _ _ => ?_)) | (simp only; fail_if_success done))); done)

theorem execEthWrite_keeps {μ : Nat} (q : Req) (s : State) (hμ : 0x6F3CD4 &&& μ = 0x6F3CD4 := by decide) : Keeps μ (s.kept μ) (execEthWrite q s) := Keeps.mono hμ (by
  unfold execEthWrite; exact serve_keeps _ _ _ _ (fun _ _ => cmdEthWrite_ok ..))

theorem cmdEthAddrWrite_ok {μ : Nat} (q : Req) (s : State) (hμ : 0x1000 &&& μ = 0x1000 := by decide) : OkKept μ (s.kept μ) (fun x => x.1) (cmdEthAddrWrite q s) := OkKept.mono hμ (by
  unfold cmdEthAddrWrite
  (repeat' (first | exact OkKept.error _ | (refine OkKept.pure ?_; (first | with_reducible rfl | (simp; done) | (simp_all; done) | (split <;> simp_all; done))) | (refine OkKept.ok ?_; (first | with_reducible rfl | (simp; done) | (simp_all; done))) | split | (refine OkKept.bind (fun _ _ => ?_)) | (simp only; fail_if_success done))); done)

theorem execEthAddrWrite_keeps {μ : Nat} (q : Req) (s : State) (hμ : 0x2C1014 &&& μ = 0x2C1014 := by decide) : Keeps μ (s.kept μ) (execEthAddrWrite q s) := Keeps.mono hμ (by
  unfold execEthAddrWrite; exact serve_keeps _ _ _ _ (fun _ _ => cmdEthAddrWrite_ok ..))

@[simp] theorem State.snapshot_kept {μ : Nat} (ports : List Nat) (s : State) (hμ : 0x1000 &&& μ = 0x1000 := by decide) : (State.snapshot ports s).kept μ = s.kept μ := kept_mono hμ (by
  unfold State.snapshot
  repeat' (first | with_reducible rfl | (simp; done) | split | (refine (kept_foldl (fun _ _ => ?_) _ _).trans ?_) | (simp; fail_if_success done)))

theorem cmdPortSnapshot_ok {μ : Nat} (q : Req) (s : State) (hμ : 0x1000 &&& μ = 0x1000 := by decide) : OkKept μ (s.kept μ) (fun x => x.1) (cmdPortSnapshot q s) := OkKept.mono hμ (by
  unfold cmdPortSnapshot
  (repeat' (first | exact OkKept.error _ | (refine OkKept.pure ?_; (first | with_reducible rfl | (simp; done) | (simp_all; done) | (split <;> simp_all; done))) | (refine OkKept.ok ?_; (first | with_reducible rfl | (simp; done) | (simp_all; done))) | split | (refine OkKept.bind (fun _ _ => ?_)) | (simp only; fail_if_success done))); done)

theorem execPortSnapshot_keeps {μ : Nat} (q : Req) (s : State) (hμ : 0x2C1014 &&& μ = 0x2C1014 := by decide) : Keeps μ (s.kept μ) (execPortSnapshot q s) := Keeps.mono hμ (by
  unfold execPortSnapshot; exact serve_keeps _ _ _ _ (fun _ _ => cmdPortSnapshot_ok ..))

/-! ### Flow -/

@[simp] theorem State.owe_kept {μ : Nat} (p : Nat) (o : Owed) (s : State) (hμ : 0x1000 &&& μ = 0x1000 := by decide) : (State.owe p o s).kept μ = s.kept μ := kept_mono hμ (by
  unfold State.owe
  repeat' (first | with_reducible rfl | (simp; done) | split | (refine (kept_foldl (fun _ _ => ?_) _ _).trans ?_) | (simp; fail_if_success done)))

@[simp] theorem State.membership_kept {μ : Nat} (e : BitVec 384) (before : List Flow) (s : State) (hμ : 0x1000 &&& μ = 0x1000 := by decide) : (State.membership e before s).kept μ = s.kept μ := kept_mono hμ (by
  unfold State.membership
  repeat' (first | with_reducible rfl | (simp; done) | split | (refine (kept_foldl (fun _ _ => ?_) _ _).trans ?_) | (simp; fail_if_success done)))

theorem execMembershipReport_keeps {μ : Nat} (p : Fin 32) (group : BitVec 128) (v6 : Bool) (leaving : Bool) (s0 : State) (hμ : 0x1000 &&& μ = 0x1000 := by decide) : Keeps μ (s0.kept μ) (execMembershipReport p group v6 leaving s0) := Keeps.mono hμ (by
  unfold execMembershipReport
  (repeat' (first | with_reducible rfl | trivial | (simp; done) | (refine keeps_checked ?_) | split | (simp only [keeps_done]; fail_if_success done) | (refine (kept_foldl (fun _ _ => ?_) _ _).trans ?_) | (simp; fail_if_success done))); done)

theorem execQuery_keeps {μ : Nat} (p : Fin 32) (v6 : Bool) (version : Fin 4) (group : BitVec 128) (s0 : State) (hμ : 0x2C1014 &&& μ = 0x2C1014 := by decide) : Keeps μ (s0.kept μ) (execQuery p v6 version group s0) := Keeps.mono hμ (by
  unfold execQuery
  (repeat' (first | with_reducible rfl | trivial | (simp; done) | (refine keeps_checked ?_) | split | (simp only [keeps_done]; fail_if_success done) | (refine (kept_foldl (fun _ _ => ?_) _ _).trans ?_) | (simp; fail_if_success done))); done)

theorem execQuerierTimeout_keeps {μ : Nat} (p : Fin 32) (v6 : Bool) (s0 : State) (hμ : 0x1000 &&& μ = 0x1000 := by decide) : Keeps μ (s0.kept μ) (execQuerierTimeout p v6 s0) := Keeps.mono hμ (by
  unfold execQuerierTimeout
  (repeat' (first | with_reducible rfl | trivial | (simp; done) | (refine keeps_checked ?_) | split | (simp only [keeps_done]; fail_if_success done) | (refine (kept_foldl (fun _ _ => ?_) _ _).trans ?_) | (simp; fail_if_success done))); done)

@[simp] theorem State.reportAll_kept {μ : Nat} (s : State) (hμ : 0x1000 &&& μ = 0x1000 := by decide) : (State.reportAll s).kept μ = s.kept μ := kept_mono hμ (by
  unfold State.reportAll
  repeat' (first | with_reducible rfl | (simp; done) | split | (refine (kept_foldl (fun _ _ => ?_) _ _).trans ?_) | (simp; fail_if_success done)))

@[simp] theorem State.setFlows_kept {μ : Nat} (t : List Flow) (s : State) (hμ : 0x2000 &&& μ = 0x2000 := by decide) : (State.setFlows t s).kept μ = s.kept μ := kept_mono hμ (by
  unfold State.setFlows
  repeat' (first | with_reducible rfl | (simp; done) | split | (refine (kept_foldl (fun _ _ => ?_) _ _).trans ?_) | (simp; fail_if_success done)))

@[simp] theorem State.onFlow_kept {μ : Nat} (e : BitVec 384) (f : Flow → Flow) (s : State) (hμ : 0x2000 &&& μ = 0x2000 := by decide) : (State.onFlow e f s).kept μ = s.kept μ := kept_mono hμ (by
  unfold State.onFlow
  repeat' (first | with_reducible rfl | (simp; done) | split | (refine (kept_foldl (fun _ _ => ?_) _ _).trans ?_) | (simp; fail_if_success done)))

theorem captureBind_ok {μ : Nat} (s : State) (r : Nat) (hμ : 0x200 &&& μ = 0x200 := by decide) : OkKept μ (s.kept μ) id (captureBind s r) := OkKept.mono hμ (by
  unfold captureBind
  (repeat' (first | exact (claimAll_ok ..) | (refine OkKept.step (claimAll_ok ..) (by simp) (fun _ _ => ?_)) | exact OkKept.error _ | (refine OkKept.pure ?_; (first | with_reducible rfl | (simp; done) | (simp_all; done) | (split <;> simp_all; done))) | (refine OkKept.ok ?_; (first | with_reducible rfl | (simp; done) | (simp_all; done))) | split | (refine OkKept.bind (fun _ _ => ?_)) | (simp only; fail_if_success done))); done)

theorem boundBind_ok {μ : Nat} (s : State) (e : BitVec 384) (hμ : 0x200 &&& μ = 0x200 := by decide) : OkKept μ (s.kept μ) id (boundBind s e) := OkKept.mono hμ (by
  unfold boundBind
  (repeat' (first | exact (claimBeside_ok ..) | (refine OkKept.step (claimBeside_ok ..) (by simp) (fun _ _ => ?_)) | exact OkKept.error _ | (refine OkKept.pure ?_; (first | with_reducible rfl | (simp; done) | (simp_all; done) | (split <;> simp_all; done))) | (refine OkKept.ok ?_; (first | with_reducible rfl | (simp; done) | (simp_all; done))) | split | (refine OkKept.bind (fun _ _ => ?_)) | (simp only; fail_if_success done))); done)

theorem flowInsertClaims_ok {μ : Nat} (e : BitVec 384) (s : State) (hμ : 0x200 &&& μ = 0x200 := by decide) : OkKept μ (s.kept μ) id (flowInsertClaims e s) := OkKept.mono hμ (by
  unfold flowInsertClaims
  exact OkKept.ite (boundBind_ok ..) (OkKept.ite (captureBind_ok ..) (OkKept.ok rfl)))

theorem flowInsertCheck_ok {μ : Nat} (q : Req) (s : State) (hμ : 0x200 &&& μ = 0x200 := by decide) : OkKept μ (s.kept μ) (fun x => x.2.2) (flowInsertCheck q s) := OkKept.mono hμ (OkKept.bind (fun _ _ => OkKept.step (flowInsertClaims_ok ..) rfl (fun _ ht => OkKept.bind (fun _ _ => OkKept.pure ht))))

@[simp] theorem flowInsertDo_kept {μ : Nat} (e : BitVec 384) (l : List Flow) (s0 : State) (hμ : 0x403040 &&& μ = 0x403040 := by decide) : (flowInsertDo e l s0).kept μ = s0.kept μ := kept_mono hμ (by
  unfold flowInsertDo
  repeat' (first | with_reducible rfl | (simp; done) | split | (refine (kept_foldl (fun _ _ => ?_) _ _).trans ?_) | (simp; fail_if_success done)))

theorem cmdFlowInsert_ok {μ : Nat} (q : Req) (s : State) (hμ : 0x403240 &&& μ = 0x403240 := by decide) : OkKept μ (s.kept μ) (fun x => x.1) (cmdFlowInsert q s) := OkKept.mono hμ (by
  unfold cmdFlowInsert
  refine OkKept.step (flowInsertCheck_ok ..) rfl (fun x hx => ?_)
  exact OkKept.pure ((flowInsertDo_kept ..).trans hx))

theorem execFlowInsert_keeps {μ : Nat} (q : Req) (s : State) (hμ : 0x6C3254 &&& μ = 0x6C3254 := by decide) : Keeps μ (s.kept μ) (execFlowInsert q s) := Keeps.mono hμ (by
  unfold execFlowInsert; exact serve_keeps _ _ _ _ (fun _ _ => cmdFlowInsert_ok ..))

theorem flowModifyCheck_ok {μ : Nat} (q : Req) (s : State) (hμ : 0x200 &&& μ = 0x200 := by decide) : OkKept μ (s.kept μ) (fun x => x.2) (flowModifyCheck q s) := OkKept.mono hμ (by
  unfold flowModifyCheck
  (repeat' (first | exact (captureBind_ok ..) | (refine OkKept.step (captureBind_ok ..) (by simp) (fun _ _ => ?_)) | exact OkKept.error _ | (refine OkKept.pure ?_; (first | with_reducible rfl | (simp; done) | (simp_all; done) | (split <;> simp_all; done))) | (refine OkKept.ok ?_; (first | with_reducible rfl | (simp; done) | (simp_all; done))) | split | (refine OkKept.bind (fun _ _ => ?_)) | (simp only; fail_if_success done))); done)

@[simp] theorem flowModifyDo_kept {μ : Nat} (e : BitVec 384) (s : State) (hμ : 0x3040 &&& μ = 0x3040 := by decide) : (flowModifyDo e s).kept μ = s.kept μ := kept_mono hμ (by
  unfold flowModifyDo
  repeat' (first | with_reducible rfl | (simp; done) | split | (refine (kept_foldl (fun _ _ => ?_) _ _).trans ?_) | (simp; fail_if_success done)))

theorem cmdFlowModify_ok {μ : Nat} (q : Req) (s : State) (hμ : 0x3240 &&& μ = 0x3240 := by decide) : OkKept μ (s.kept μ) (fun x => x.1) (cmdFlowModify q s) := OkKept.mono hμ (by
  unfold cmdFlowModify
  (repeat' (first | exact (flowModifyCheck_ok ..) | (refine OkKept.step (flowModifyCheck_ok ..) (by simp) (fun _ _ => ?_)) | exact OkKept.error _ | (refine OkKept.pure ?_; (first | with_reducible rfl | (simp; done) | (simp_all; done) | (split <;> simp_all; done))) | (refine OkKept.ok ?_; (first | with_reducible rfl | (simp; done) | (simp_all; done))) | split | (refine OkKept.bind (fun _ _ => ?_)) | (simp only; fail_if_success done))); done)

theorem execFlowModify_keeps {μ : Nat} (q : Req) (s : State) (hμ : 0x2C3254 &&& μ = 0x2C3254 := by decide) : Keeps μ (s.kept μ) (execFlowModify q s) := Keeps.mono hμ (by
  unfold execFlowModify; exact serve_keeps _ _ _ _ (fun _ _ => cmdFlowModify_ok ..))

@[simp] theorem flowDeleteDo_kept {μ : Nat} (f : Flow) (s : State) (hμ : 0x6D38D4 &&& μ = 0x6D38D4 := by decide) : (flowDeleteDo f s).kept μ = s.kept μ := kept_mono hμ (by
  unfold flowDeleteDo
  repeat' (first | with_reducible rfl | (simp; done) | split | (refine (kept_foldl (fun _ _ => ?_) _ _).trans ?_) | (simp; fail_if_success done)))

theorem cmdFlowDelete_ok {μ : Nat} (q : Req) (s : State) (hμ : 0x6D38D4 &&& μ = 0x6D38D4 := by decide) : OkKept μ (s.kept μ) (fun x => x.1) (cmdFlowDelete q s) := OkKept.mono hμ (by
  unfold cmdFlowDelete
  (repeat' (first | exact OkKept.error _ | (refine OkKept.pure ?_; (first | with_reducible rfl | (simp; done) | (simp_all; done) | (split <;> simp_all; done))) | (refine OkKept.ok ?_; (first | with_reducible rfl | (simp; done) | (simp_all; done))) | split | (refine OkKept.bind (fun _ _ => ?_)) | (simp only; fail_if_success done))); done)

theorem execFlowDelete_keeps {μ : Nat} (q : Req) (s : State) (hμ : 0x6D38D4 &&& μ = 0x6D38D4 := by decide) : Keeps μ (s.kept μ) (execFlowDelete q s) := Keeps.mono hμ (by
  unfold execFlowDelete; exact serve_keeps _ _ _ _ (fun _ _ => cmdFlowDelete_ok ..))

@[simp] theorem State.flowClear_kept {μ : Nat} (f : Flow) (s : State) (hμ : 0x2000 &&& μ = 0x2000 := by decide) : (State.flowClear f s).kept μ = s.kept μ := kept_mono hμ (by
  unfold State.flowClear
  repeat' (first | with_reducible rfl | (simp; done) | split | (refine (kept_foldl (fun _ _ => ?_) _ _).trans ?_) | (simp; fail_if_success done)))

theorem cmdFlowStatus_ok {μ : Nat} (q : Req) (s : State) (hμ : 0x2000 &&& μ = 0x2000 := by decide) : OkKept μ (s.kept μ) (fun x => x.1) (cmdFlowStatus q s) := OkKept.mono hμ (by
  unfold cmdFlowStatus
  (repeat' (first | exact OkKept.error _ | (refine OkKept.pure ?_; (first | with_reducible rfl | (simp; done) | (simp_all; done) | (split <;> simp_all; done))) | (refine OkKept.ok ?_; (first | with_reducible rfl | (simp; done) | (simp_all; done))) | split | (refine OkKept.bind (fun _ _ => ?_)) | (simp only; fail_if_success done))); done)

theorem execFlowStatus_keeps {μ : Nat} (q : Req) (s : State) (hμ : 0x2C2014 &&& μ = 0x2C2014 := by decide) : Keeps μ (s.kept μ) (execFlowStatus q s) := Keeps.mono hμ (by
  unfold execFlowStatus; exact serve_keeps _ _ _ _ (fun _ _ => cmdFlowStatus_ok ..))

@[simp] theorem State.flowSeen_kept {μ : Nat} (f : Flow) (len : Nat) (s : State) (hμ : 0x2C2014 &&& μ = 0x2C2014 := by decide) : (State.flowSeen f len s).kept μ = s.kept μ := kept_mono hμ (by
  unfold State.flowSeen
  repeat' (first | with_reducible rfl | (simp; done) | split | (refine (kept_foldl (fun _ _ => ?_) _ _).trans ?_) | (simp; fail_if_success done)))

theorem execFlowWindow_keeps {μ : Nat} (s0 : State) (hμ : 0x2C2414 &&& μ = 0x2C2414 := by decide) : Keeps μ (s0.kept μ) (execFlowWindow s0) := Keeps.mono hμ (by
  unfold execFlowWindow
  (repeat' (first | with_reducible rfl | trivial | (simp; done) | (refine keeps_checked ?_) | split | (simp only [keeps_done]; fail_if_success done) | (refine (kept_foldl (fun _ _ => ?_) _ _).trans ?_) | (simp; fail_if_success done))); done)

theorem execAbsentTimeout_keeps {μ : Nat} (e : Fin 262160) (s0 : State) (hμ : 0x2C2014 &&& μ = 0x2C2014 := by decide) : Keeps μ (s0.kept μ) (execAbsentTimeout e s0) := Keeps.mono hμ (by
  unfold execAbsentTimeout
  (repeat' (first | with_reducible rfl | trivial | (simp; done) | (refine keeps_checked ?_) | split | (simp only [keeps_done]; fail_if_success done) | (refine (kept_foldl (fun _ _ => ?_) _ _).trans ?_) | (simp; fail_if_success done))); done)

theorem execFlowTableCorrected_keeps {μ : Nat} (e : Fin 262160) (s0 : State) (hμ : 0x2C0014 &&& μ = 0x2C0014 := by decide) : Keeps μ (s0.kept μ) (execFlowTableCorrected e s0) := Keeps.mono hμ (by
  unfold execFlowTableCorrected
  (repeat' (first | with_reducible rfl | trivial | (simp; done) | (refine keeps_checked ?_) | split | (simp only [keeps_done]; fail_if_success done) | (refine (kept_foldl (fun _ _ => ?_) _ _).trans ?_) | (simp; fail_if_success done))); done)

theorem execFlowTableUncorr_keeps {μ : Nat} (e : Fin 262160) (s0 : State) (hμ : 0x2C2014 &&& μ = 0x2C2014 := by decide) : Keeps μ (s0.kept μ) (execFlowTableUncorr e s0) := Keeps.mono hμ (by
  unfold execFlowTableUncorr
  (repeat' (first | with_reducible rfl | trivial | (simp; done) | (refine keeps_checked ?_) | split | (simp only [keeps_done]; fail_if_success done) | (refine (kept_foldl (fun _ _ => ?_) _ _).trans ?_) | (simp; fail_if_success done))); done)

theorem ingestWriteCheck_ok {μ : Nat} (q : Req) (s : State) (hμ : 0x200 &&& μ = 0x200 := by decide) : OkKept μ (s.kept μ) (fun x => x.2.2) (ingestWriteCheck q s) := OkKept.mono hμ (by
  unfold ingestWriteCheck
  (repeat' (first | exact (bindCheck_ok ..) | (refine OkKept.step (bindCheck_ok ..) (by simp) (fun _ _ => ?_)) | exact OkKept.error _ | (refine OkKept.pure ?_; (first | with_reducible rfl | (simp; done) | (simp_all; done) | (split <;> simp_all; done))) | (refine OkKept.ok ?_; (first | with_reducible rfl | (simp; done) | (simp_all; done))) | split | (refine OkKept.bind (fun _ _ => ?_)) | (simp only; fail_if_success done))); done)

theorem cmdIngestWrite_ok {μ : Nat} (q : Req) (s : State) (hμ : 0x2240 &&& μ = 0x2240 := by decide) : OkKept μ (s.kept μ) (fun x => x.1) (cmdIngestWrite q s) := OkKept.mono hμ (by
  unfold cmdIngestWrite
  (repeat' (first | exact (ingestWriteCheck_ok ..) | (refine OkKept.step (ingestWriteCheck_ok ..) (by simp) (fun _ _ => ?_)) | exact OkKept.error _ | (refine OkKept.pure ?_; (first | with_reducible rfl | (simp; done) | (simp_all; done) | (split <;> simp_all; done))) | (refine OkKept.ok ?_; (first | with_reducible rfl | (simp; done) | (simp_all; done))) | split | (refine OkKept.bind (fun _ _ => ?_)) | (simp only; fail_if_success done))); done)

theorem execIngestWrite_keeps {μ : Nat} (q : Req) (s : State) (hμ : 0x2C2254 &&& μ = 0x2C2254 := by decide) : Keeps μ (s.kept μ) (execIngestWrite q s) := Keeps.mono hμ (by
  unfold execIngestWrite; exact serve_keeps _ _ _ _ (fun _ _ => cmdIngestWrite_ok ..))

/-! ### Hostq -/

@[simp] theorem State.setHq_kept {μ : Nat} (h : Nat) (v : Hq) (s : State) (hμ : 0x4 &&& μ = 0x4 := by decide) : (State.setHq h v s).kept μ = s.kept μ := kept_mono hμ (by
  unfold State.setHq
  repeat' (first | with_reducible rfl | (simp; done) | split | (refine (kept_foldl (fun _ _ => ?_) _ _).trans ?_) | (simp; fail_if_success done)))

@[simp] theorem State.completeDesc_kept {μ : Nat} (h : Nat) (eseq : BitVec 32) (f : Desc → Desc) (s : State) (hμ : 0x4 &&& μ = 0x4 := by decide) : (State.completeDesc h eseq f s).kept μ = s.kept μ := kept_mono hμ (by
  unfold State.completeDesc
  repeat' (first | with_reducible rfl | (simp; done) | split | (refine (kept_foldl (fun _ _ => ?_) _ _).trans ?_) | (simp; fail_if_success done)))

@[simp] theorem State.truncated_kept {μ : Nat} (h : Nat) (r : Nat) (eseq : BitVec 32) (s : State) (hμ : 0x4 &&& μ = 0x4 := by decide) : (State.truncated h r eseq s).kept μ = s.kept μ := kept_mono hμ (by
  unfold State.truncated
  repeat' (first | with_reducible rfl | (simp; done) | split | (refine (kept_foldl (fun _ _ => ?_) _ _).trans ?_) | (simp; fail_if_success done)))

@[simp] theorem State.captureUnit_kept {μ : Nat} (r : Nat) (sub : Nat) (bytes : List Byte) (s : State) (hμ : 0x2C20D4 &&& μ = 0x2C20D4 := by decide) : (State.captureUnit r sub bytes s).kept μ = s.kept μ := kept_mono hμ (by
  unfold State.captureUnit
  repeat' (first | with_reducible rfl | (simp; done) | split | (refine (kept_foldl (fun _ _ => ?_) _ _).trans ?_) | (simp; fail_if_success done)))

@[simp] theorem State.popDesc_kept {μ : Nat} (h : Nat) (s : State) (hμ : 0x4 &&& μ = 0x4 := by decide) : (State.popDesc h s).kept μ = s.kept μ := kept_mono hμ (by
  unfold State.popDesc
  repeat' (first | with_reducible rfl | (simp; done) | split | (refine (kept_foldl (fun _ _ => ?_) _ _).trans ?_) | (simp; fail_if_success done)))

theorem execPop_keeps {μ : Nat} (h : Fin 16) (s0 : State) (hμ : 0x4 &&& μ = 0x4 := by decide) : Keeps μ (s0.kept μ) (execPop h s0) := Keeps.mono hμ (by
  unfold execPop
  (repeat' (first | with_reducible rfl | trivial | (simp; done) | (refine keeps_checked ?_) | split | (simp only [keeps_done]; fail_if_success done) | (refine (kept_foldl (fun _ _ => ?_) _ _).trans ?_) | (simp; fail_if_success done))); done)

@[simp] theorem State.releaseTiles_kept {μ : Nat} (h : Nat) (eseq : BitVec 32) (s : State) (hμ : 0x40 &&& μ = 0x40 := by decide) : (State.releaseTiles h eseq s).kept μ = s.kept μ := kept_mono hμ (by
  unfold State.releaseTiles
  repeat' (first | with_reducible rfl | (simp; done) | split | (refine (kept_foldl (fun _ _ => ?_) _ _).trans ?_) | (simp; fail_if_success done)))

theorem execRelease_keeps {μ : Nat} (h : Fin 16) (eseq : BitVec 32) (s0 : State) (hμ : 0x44 &&& μ = 0x44 := by decide) : Keeps μ (s0.kept μ) (execRelease h eseq s0) := Keeps.mono hμ (by
  unfold execRelease
  (repeat' (first | with_reducible rfl | trivial | (simp; done) | (refine keeps_checked ?_) | split | (simp only [keeps_done]; fail_if_success done) | (refine (kept_foldl (fun _ _ => ?_) _ _).trans ?_) | (simp; fail_if_success done))); done)

theorem hostqBindCheck_ok {μ : Nat} (q : Req) (s : State) (hμ : 0x200 &&& μ = 0x200 := by decide) : OkKept μ (s.kept μ) (fun x => x.2.2.2) (hostqBindCheck q s) := OkKept.mono hμ (by
  unfold hostqBindCheck
  (repeat' (first | exact (claimAll_ok ..) | (refine OkKept.step (claimAll_ok ..) (by simp) (fun _ _ => ?_)) | exact OkKept.error _ | (refine OkKept.pure ?_; (first | with_reducible rfl | (simp; done) | (simp_all; done) | (split <;> simp_all; done))) | (refine OkKept.ok ?_; (first | with_reducible rfl | (simp; done) | (simp_all; done))) | split | (refine OkKept.bind (fun _ _ => ?_)) | (simp only; fail_if_success done))); done)

theorem cmdHostqBind_ok {μ : Nat} (q : Req) (s : State) (hμ : 0x244 &&& μ = 0x244 := by decide) : OkKept μ (s.kept μ) (fun x => x.1) (cmdHostqBind q s) := OkKept.mono hμ (by
  unfold cmdHostqBind
  (repeat' (first | exact (hostqBindCheck_ok ..) | (refine OkKept.step (hostqBindCheck_ok ..) (by simp) (fun _ _ => ?_)) | exact OkKept.error _ | (refine OkKept.pure ?_; (first | with_reducible rfl | (simp; done) | (simp_all; done) | (split <;> simp_all; done))) | (refine OkKept.ok ?_; (first | with_reducible rfl | (simp; done) | (simp_all; done))) | split | (refine OkKept.bind (fun _ _ => ?_)) | (simp only; fail_if_success done))); done)

theorem execHostqBind_keeps {μ : Nat} (q : Req) (s : State) (hμ : 0x2C0254 &&& μ = 0x2C0254 := by decide) : Keeps μ (s.kept μ) (execHostqBind q s) := Keeps.mono hμ (by
  unfold execHostqBind; exact serve_keeps _ _ _ _ (fun _ _ => cmdHostqBind_ok ..))

@[simp] theorem hostqUnbindDo_kept {μ : Nat} (h : Nat) (s : State) (hμ : 0x420C4 &&& μ = 0x420C4 := by decide) : (hostqUnbindDo h s).kept μ = s.kept μ := kept_mono hμ (by
  unfold hostqUnbindDo
  repeat' (first | with_reducible rfl | (simp; done) | split | (refine (kept_foldl (fun _ _ => ?_) _ _).trans ?_) | (simp; fail_if_success done)))

theorem cmdHostqUnbind_ok {μ : Nat} (q : Req) (s : State) (hμ : 0x420C4 &&& μ = 0x420C4 := by decide) : OkKept μ (s.kept μ) (fun x => x.1) (cmdHostqUnbind q s) := OkKept.mono hμ (by
  unfold cmdHostqUnbind
  (repeat' (first | exact OkKept.error _ | (refine OkKept.pure ?_; (first | with_reducible rfl | (simp; done) | (simp_all; done) | (split <;> simp_all; done))) | (refine OkKept.ok ?_; (first | with_reducible rfl | (simp; done) | (simp_all; done))) | split | (refine OkKept.bind (fun _ _ => ?_)) | (simp only; fail_if_success done))); done)

theorem execHostqUnbind_keeps {μ : Nat} (q : Req) (s : State) (hμ : 0x2C20D4 &&& μ = 0x2C20D4 := by decide) : Keeps μ (s.kept μ) (execHostqUnbind q s) := Keeps.mono hμ (by
  unfold execHostqUnbind; exact serve_keeps _ _ _ _ (fun _ _ => cmdHostqUnbind_ok ..))

@[simp] theorem State.insertBytes_kept {μ : Nat} (r : Nat) (before : Nat) (bytes : List Byte) (s : State) (hμ : 0x2C20D4 &&& μ = 0x2C20D4 := by decide) : (State.insertBytes r before bytes s).kept μ = s.kept μ := kept_mono hμ (by
  unfold State.insertBytes
  repeat' (first | with_reducible rfl | (simp; done) | split | (refine (kept_foldl (fun _ _ => ?_) _ _).trans ?_) | (simp; fail_if_success done)))

@[simp] theorem hostInsertDo_kept {μ : Nat} (g : Fragment) (s : State) (hμ : 0x2C20D4 &&& μ = 0x2C20D4 := by decide) : (hostInsertDo g s).1.kept μ = s.kept μ := kept_mono hμ (by
  unfold hostInsertDo
  repeat' (first | with_reducible rfl | (simp; done) | split | (refine (kept_foldl (fun _ _ => ?_) _ _).trans ?_) | (simp; fail_if_success done)))

theorem cmdHostInsert_ok {μ : Nat} (q : Req) (s : State) (hμ : 0x2C20D4 &&& μ = 0x2C20D4 := by decide) : OkKept μ (s.kept μ) Ans.state (cmdHostInsert q s) := OkKept.mono hμ (by
  unfold cmdHostInsert
  refine OkKept.bind (fun g _ => ?_)
  have h := hostInsertDo_kept (μ := 0x2C20D4) g s
  exact OkKept.ite (OkKept.pure h) (OkKept.pure h))

theorem execHostInsert_keeps {μ : Nat} (q : Req) (s : State) (hμ : 0x2C20D4 &&& μ = 0x2C20D4 := by decide) : Keeps μ (s.kept μ) (execHostInsert q s) := Keeps.mono hμ (by
  unfold execHostInsert; exact serveAns_keeps _ _ _ _ (fun _ _ => cmdHostInsert_ok ..))

theorem cmdCaptureFrames_ok {μ : Nat} (q : Req) (s : State) (hμ : 0x4 &&& μ = 0x4 := by decide) : OkKept μ (s.kept μ) (fun x => x.1) (cmdCaptureFrames q s) := OkKept.mono hμ (by
  unfold cmdCaptureFrames
  (repeat' (first | exact OkKept.error _ | (refine OkKept.pure ?_; (first | with_reducible rfl | (simp; done) | (simp_all; done) | (split <;> simp_all; done))) | (refine OkKept.ok ?_; (first | with_reducible rfl | (simp; done) | (simp_all; done))) | split | (refine OkKept.bind (fun _ _ => ?_)) | (simp only; fail_if_success done))); done)

theorem execCaptureFrames_keeps {μ : Nat} (q : Req) (s : State) (hμ : 0x2C0014 &&& μ = 0x2C0014 := by decide) : Keeps μ (s.kept μ) (execCaptureFrames q s) := Keeps.mono hμ (by
  unfold execCaptureFrames; exact serve_keeps _ _ _ _ (fun _ _ => cmdCaptureFrames_ok ..))

@[simp] theorem State.mgmtReceive_kept {μ : Nat} (p : Nat) (frame : List Byte) (s : State) (hμ : 0x1000 &&& μ = 0x1000 := by decide) : (State.mgmtReceive p frame s).kept μ = s.kept μ := kept_mono hμ (by
  unfold State.mgmtReceive
  repeat' (first | with_reducible rfl | (simp; done) | split | (refine (kept_foldl (fun _ _ => ?_) _ _).trans ?_) | (simp; fail_if_success done)))

@[simp] theorem State.flowAct_kept {μ : Nat} (f : Flow) (p : Nat) (i : Ip) (frame : EthFrame) (s : State) (hμ : 0x6D3CD4 &&& μ = 0x6D3CD4 := by decide) : (State.flowAct f p i frame s).kept μ = s.kept μ := kept_mono hμ (by
  unfold State.flowAct
  repeat' (first | with_reducible rfl | (simp; done) | split | (refine (kept_foldl (fun _ _ => ?_) _ _).trans ?_) | (simp; fail_if_success done)))

@[simp] theorem State.classify_kept {μ : Nat} (p : Nat) (frame : EthFrame) (s : State) (hμ : 0x6D3CD4 &&& μ = 0x6D3CD4 := by decide) : (State.classify p frame s).kept μ = s.kept μ := kept_mono hμ (by
  unfold State.classify
  repeat' (first | with_reducible rfl | (simp; done) | split | (refine (kept_foldl (fun _ _ => ?_) _ _).trans ?_) | (simp; fail_if_success done)))

@[simp] theorem State.judgeFrame_kept {μ : Nat} (k : Nat) (f : EthFrame) (s : State) (hμ : 0x6D3CD4 &&& μ = 0x6D3CD4 := by decide) : (State.judgeFrame k f s).kept μ = s.kept μ := kept_mono hμ (by
  unfold State.judgeFrame
  repeat' (first | with_reducible rfl | (simp; done) | split | (refine (kept_foldl (fun _ _ => ?_) _ _).trans ?_) | (simp; fail_if_success done)))

theorem execFrameReceived_keeps {μ : Nat} (p : Fin 32) (f : EthFrame) (s0 : State) (hμ : 0x6F3CD4 &&& μ = 0x6F3CD4 := by decide) : Keeps μ (s0.kept μ) (execFrameReceived p f s0) := Keeps.mono hμ (by
  unfold execFrameReceived
  (repeat' (first | with_reducible rfl | trivial | (simp; done) | (refine keeps_checked ?_) | split | (simp only [keeps_done]; fail_if_success done) | (refine (kept_foldl (fun _ _ => ?_) _ _).trans ?_) | (simp; fail_if_success done))); done)

/-! ### Packetise -/

@[simp] theorem State.setPkt_kept {μ : Nat} (f : Nat) (v : PktSt) (s : State) (hμ : 0x2000 &&& μ = 0x2000 := by decide) : (State.setPkt f v s).kept μ = s.kept μ := kept_mono hμ (by
  unfold State.setPkt
  repeat' (first | with_reducible rfl | (simp; done) | split | (refine (kept_foldl (fun _ _ => ?_) _ _).trans ?_) | (simp; fail_if_success done)))

theorem pktEnable_ok {μ : Nat} (s : State) (f : Nat) (r : BitVec 256) (hμ : 0x200 &&& μ = 0x200 := by decide) : OkKept μ (s.kept μ) id (pktEnable s f r) := OkKept.mono hμ (by
  unfold pktEnable
  (repeat' (first | exact (claimAll_ok ..) | (refine OkKept.step (claimAll_ok ..) (by simp) (fun _ _ => ?_)) | exact OkKept.error _ | (refine OkKept.pure ?_; (first | with_reducible rfl | (simp; done) | (simp_all; done) | (split <;> simp_all; done))) | (refine OkKept.ok ?_; (first | with_reducible rfl | (simp; done) | (simp_all; done))) | split | (refine OkKept.bind (fun _ _ => ?_)) | (simp only; fail_if_success done))); done)

theorem pktFlowWriteCheck_ok {μ : Nat} (q : Req) (s : State) (hμ : 0x200 &&& μ = 0x200 := by decide) : OkKept μ (s.kept μ) (fun x => x.2.2.2) (pktFlowWriteCheck q s) := OkKept.mono hμ (by
  unfold pktFlowWriteCheck
  (repeat' (first | exact (pktEnable_ok ..) | (refine OkKept.step (pktEnable_ok ..) (by simp) (fun _ _ => ?_)) | exact OkKept.error _ | (refine OkKept.pure ?_; (first | with_reducible rfl | (simp; done) | (simp_all; done) | (split <;> simp_all; done))) | (refine OkKept.ok ?_; (first | with_reducible rfl | (simp; done) | (simp_all; done))) | split | (refine OkKept.bind (fun _ _ => ?_)) | (simp only; fail_if_success done))); done)

@[simp] theorem State.pktStart_kept {μ : Nat} (f : Nat) (s : State) (hμ : 0x2000 &&& μ = 0x2000 := by decide) : (State.pktStart f s).kept μ = s.kept μ := kept_mono hμ (by
  unfold State.pktStart
  repeat' (first | with_reducible rfl | (simp; done) | split | (refine (kept_foldl (fun _ _ => ?_) _ _).trans ?_) | (simp; fail_if_success done)))

@[simp] theorem pktFlowWriteDo_kept {μ : Nat} (f : Nat) (old : BitVec 256) (new : BitVec 256) (hdr : BitVec 528) (s : State) (hμ : 0x2200 &&& μ = 0x2200 := by decide) : (pktFlowWriteDo f old new hdr s).kept μ = s.kept μ := kept_mono hμ (by
  unfold pktFlowWriteDo
  repeat' (first | with_reducible rfl | (simp; done) | split | (refine (kept_foldl (fun _ _ => ?_) _ _).trans ?_) | (simp; fail_if_success done)))

theorem cmdPktFlowWrite_ok {μ : Nat} (q : Req) (s : State) (hμ : 0x2200 &&& μ = 0x2200 := by decide) : OkKept μ (s.kept μ) (fun x => x.1) (cmdPktFlowWrite q s) := OkKept.mono hμ (by
  unfold cmdPktFlowWrite
  (repeat' (first | exact (pktFlowWriteCheck_ok ..) | (refine OkKept.step (pktFlowWriteCheck_ok ..) (by simp) (fun _ _ => ?_)) | exact OkKept.error _ | (refine OkKept.pure ?_; (first | with_reducible rfl | (simp; done) | (simp_all; done) | (split <;> simp_all; done))) | (refine OkKept.ok ?_; (first | with_reducible rfl | (simp; done) | (simp_all; done))) | split | (refine OkKept.bind (fun _ _ => ?_)) | (simp only; fail_if_success done))); done)

theorem execPktFlowWrite_keeps {μ : Nat} (q : Req) (s : State) (hμ : 0x2C2214 &&& μ = 0x2C2214 := by decide) : Keeps μ (s.kept μ) (execPktFlowWrite q s) := Keeps.mono hμ (by
  unfold execPktFlowWrite; exact serve_keeps _ _ _ _ (fun _ _ => cmdPktFlowWrite_ok ..))

@[simp] theorem State.pktSend_kept {μ : Nat} (f : Nat) (r : BitVec 256) (v : PktSt) (payload : List Byte) (s : State) (hμ : 0x3000 &&& μ = 0x3000 := by decide) : (State.pktSend f r v payload s).kept μ = s.kept μ := kept_mono hμ (by
  unfold State.pktSend
  repeat' (first | with_reducible rfl | (simp; done) | split | (refine (kept_foldl (fun _ _ => ?_) _ _).trans ?_) | (simp; fail_if_success done)))

@[simp] theorem State.sendVideo_kept {μ : Nat} (f : Nat) (r : BitVec 256) (h : BitVec 256) (o : Nat) (fmt : OutFmt) (s : State) (hμ : 0x2C3054 &&& μ = 0x2C3054 := by decide) : (State.sendVideo f r h o fmt s).kept μ = s.kept μ := kept_mono hμ (by
  unfold State.sendVideo
  repeat' (first | with_reducible rfl | (simp; done) | split | (refine (kept_foldl (fun _ _ => ?_) _ _).trans ?_) | (simp; fail_if_success done)))

@[simp] theorem State.sendSerial_kept {μ : Nat} (f : Nat) (r : BitVec 256) (o : Nat) (fmt : OutFmt) (s : State) (hμ : 0x3000 &&& μ = 0x3000 := by decide) : (State.sendSerial f r o fmt s).kept μ = s.kept μ := kept_mono hμ (by
  unfold State.sendSerial
  repeat' (first | with_reducible rfl | (simp; done) | split | (refine (kept_foldl (fun _ _ => ?_) _ _).trans ?_) | (simp; fail_if_success done)))

@[simp] theorem State.sendAudio_kept {μ : Nat} (f : Nat) (r : BitVec 256) (h : BitVec 256) (o : Nat) (fmt : OutFmt) (s : State) (hμ : 0x3000 &&& μ = 0x3000 := by decide) : (State.sendAudio f r h o fmt s).kept μ = s.kept μ := kept_mono hμ (by
  unfold State.sendAudio
  repeat' (first | with_reducible rfl | (simp; done) | split | (refine (kept_foldl (fun _ _ => ?_) _ _).trans ?_) | (simp; fail_if_success done)))

@[simp] theorem State.sendAnc_kept {μ : Nat} (f : Nat) (r : BitVec 256) (h : BitVec 256) (o : Nat) (fmt : OutFmt) (s : State) (hμ : 0x3400 &&& μ = 0x3400 := by decide) : (State.sendAnc f r h o fmt s).kept μ = s.kept μ := kept_mono hμ (by
  unfold State.sendAnc
  repeat' (first | with_reducible rfl | (simp; done) | split | (refine (kept_foldl (fun _ _ => ?_) _ _).trans ?_) | (simp; fail_if_success done)))

@[simp] theorem State.sendOpaque_kept {μ : Nat} (f : Nat) (r : BitVec 256) (o : Nat) (fmt : OutFmt) (s : State) (hμ : 0x3000 &&& μ = 0x3000 := by decide) : (State.sendOpaque f r o fmt s).kept μ = s.kept μ := kept_mono hμ (by
  unfold State.sendOpaque
  repeat' (first | with_reducible rfl | (simp; done) | split | (refine (kept_foldl (fun _ _ => ?_) _ _).trans ?_) | (simp; fail_if_success done)))

theorem execPacketDeparture_keeps {μ : Nat} (f : Fin 4096) (s0 : State) (hμ : 0x2C3454 &&& μ = 0x2C3454 := by decide) : Keeps μ (s0.kept μ) (execPacketDeparture f s0) := Keeps.mono hμ (by
  unfold execPacketDeparture
  (repeat' (first | with_reducible rfl | trivial | (simp; done) | (refine keeps_checked ?_) | split | (simp only [keeps_done]; fail_if_success done) | (refine (kept_foldl (fun _ _ => ?_) _ _).trans ?_) | (simp; fail_if_success done))); done)

theorem cmdPortRead_ok {μ : Nat} (q : Req) (s : State) (hμ : 0x1800 &&& μ = 0x1800 := by decide) : OkKept μ (s.kept μ) (fun x => x.1) (cmdPortRead q s) := OkKept.mono hμ (by
  unfold cmdPortRead
  (repeat' (first | exact OkKept.error _ | (refine OkKept.pure ?_; (first | with_reducible rfl | (simp; done) | (simp_all; done) | (split <;> simp_all; done))) | (refine OkKept.ok ?_; (first | with_reducible rfl | (simp; done) | (simp_all; done))) | split | (refine OkKept.bind (fun _ _ => ?_)) | (simp only; fail_if_success done))); done)

theorem execPortRead_keeps {μ : Nat} (q : Req) (s : State) (hμ : 0x2C1814 &&& μ = 0x2C1814 := by decide) : Keeps μ (s.kept μ) (execPortRead q s) := Keeps.mono hμ (by
  unfold execPortRead; exact serve_keeps _ _ _ _ (fun _ _ => cmdPortRead_ok ..))

/-! ### Merge -/

theorem mergeEnable_ok {μ : Nat} (s : State) (m : Nat) (r : BitVec 128) (hμ : 0x200 &&& μ = 0x200 := by decide) : OkKept μ (s.kept μ) id (mergeEnable s m r) := OkKept.mono hμ (by
  unfold mergeEnable
  (repeat' (first | exact (claimAll_ok ..) | (refine OkKept.step (claimAll_ok ..) (by simp) (fun _ _ => ?_)) | exact OkKept.error _ | (refine OkKept.pure ?_; (first | with_reducible rfl | (simp; done) | (simp_all; done) | (split <;> simp_all; done))) | (refine OkKept.ok ?_; (first | with_reducible rfl | (simp; done) | (simp_all; done))) | split | (refine OkKept.bind (fun _ _ => ?_)) | (simp only; fail_if_success done))); done)

theorem mergeWriteCheck_ok {μ : Nat} (q : Req) (s : State) (hμ : 0x200 &&& μ = 0x200 := by decide) : OkKept μ (s.kept μ) (fun x => x.2.2) (mergeWriteCheck q s) := OkKept.mono hμ (by
  unfold mergeWriteCheck
  (repeat' (first | exact (mergeEnable_ok ..) | (refine OkKept.step (mergeEnable_ok ..) (by simp) (fun _ _ => ?_)) | exact OkKept.error _ | (refine OkKept.pure ?_; (first | with_reducible rfl | (simp; done) | (simp_all; done) | (split <;> simp_all; done))) | (refine OkKept.ok ?_; (first | with_reducible rfl | (simp; done) | (simp_all; done))) | split | (refine OkKept.bind (fun _ _ => ?_)) | (simp only; fail_if_success done))); done)

@[simp] theorem State.alignLeg_kept {μ : Nat} (r : Nat) (s : State) (hμ : 0x2800 &&& μ = 0x2800 := by decide) : (State.alignLeg r s).kept μ = s.kept μ := kept_mono hμ (by
  unfold State.alignLeg
  repeat' (first | with_reducible rfl | (simp; done) | split | (refine (kept_foldl (fun _ _ => ?_) _ _).trans ?_) | (simp; fail_if_success done)))

@[simp] theorem State.mergeClear_kept {μ : Nat} (m : Nat) (s : State) (hμ : 0x2000 &&& μ = 0x2000 := by decide) : (State.mergeClear m s).kept μ = s.kept μ := kept_mono hμ (by
  unfold State.mergeClear
  repeat' (first | with_reducible rfl | (simp; done) | split | (refine (kept_foldl (fun _ _ => ?_) _ _).trans ?_) | (simp; fail_if_success done)))

@[simp] theorem mergeWriteDo_kept {μ : Nat} (m : Nat) (old : BitVec 128) (new : BitVec 128) (s : State) (hμ : 0x42AC0 &&& μ = 0x42AC0 := by decide) : (mergeWriteDo m old new s).kept μ = s.kept μ := kept_mono hμ (by
  unfold mergeWriteDo
  repeat' (first | with_reducible rfl | (simp; done) | split | (refine (kept_foldl (fun _ _ => ?_) _ _).trans ?_) | (simp; fail_if_success done)))

theorem cmdMergeWrite_ok {μ : Nat} (q : Req) (s : State) (hμ : 0x42AC0 &&& μ = 0x42AC0 := by decide) : OkKept μ (s.kept μ) (fun x => x.1) (cmdMergeWrite q s) := OkKept.mono hμ (by
  unfold cmdMergeWrite
  (repeat' (first | exact (mergeWriteCheck_ok ..) | (refine OkKept.step (mergeWriteCheck_ok ..) (by simp) (fun _ _ => ?_)) | exact OkKept.error _ | (refine OkKept.pure ?_; (first | with_reducible rfl | (simp; done) | (simp_all; done) | (split <;> simp_all; done))) | (refine OkKept.ok ?_; (first | with_reducible rfl | (simp; done) | (simp_all; done))) | split | (refine OkKept.bind (fun _ _ => ?_)) | (simp only; fail_if_success done))); done)

theorem execMergeWrite_keeps {μ : Nat} (q : Req) (s : State) (hμ : 0x2C2AD4 &&& μ = 0x2C2AD4 := by decide) : Keeps μ (s.kept μ) (execMergeWrite q s) := Keeps.mono hμ (by
  unfold execMergeWrite; exact serve_keeps _ _ _ _ (fun _ _ => cmdMergeWrite_ok ..))

theorem cmdMergeStatus_ok {μ : Nat} (q : Req) (s : State) (hμ : 0x2000 &&& μ = 0x2000 := by decide) : OkKept μ (s.kept μ) (fun x => x.1) (cmdMergeStatus q s) := OkKept.mono hμ (by
  unfold cmdMergeStatus
  (repeat' (first | exact OkKept.error _ | (refine OkKept.pure ?_; (first | with_reducible rfl | (simp; done) | (simp_all; done) | (split <;> simp_all; done))) | (refine OkKept.ok ?_; (first | with_reducible rfl | (simp; done) | (simp_all; done))) | split | (refine OkKept.bind (fun _ _ => ?_)) | (simp only; fail_if_success done))); done)

theorem execMergeStatus_keeps {μ : Nat} (q : Req) (s : State) (hμ : 0x2C2014 &&& μ = 0x2C2014 := by decide) : Keeps μ (s.kept μ) (execMergeStatus q s) := Keeps.mono hμ (by
  unfold execMergeStatus; exact serve_keeps _ _ _ _ (fun _ _ => cmdMergeStatus_ok ..))

@[simp] theorem State.countLate_kept {μ : Nat} (m : Nat) (second : Bool) (r : Nat) (n : Nat) (tiles : List (BitVec 32 × Nat)) (s : State) (hμ : 0x2C2014 &&& μ = 0x2C2014 := by decide) : (State.countLate m second r n tiles s).kept μ = s.kept μ := kept_mono hμ (by
  unfold State.countLate
  repeat' (first | with_reducible rfl | (simp; done) | split | (refine (kept_foldl (fun _ _ => ?_) _ _).trans ?_) | (simp; fail_if_success done)))

@[simp] theorem State.mergeCount_kept {μ : Nat} (m : Nat) (k : Nat) (s : State) (hμ : 0x2000 &&& μ = 0x2000 := by decide) : (State.mergeCount m k s).kept μ = s.kept μ := kept_mono hμ (by
  unfold State.mergeCount
  repeat' (first | with_reducible rfl | (simp; done) | split | (refine (kept_foldl (fun _ _ => ?_) _ _).trans ?_) | (simp; fail_if_success done)))

@[simp] theorem State.concealOut_kept {μ : Nat} (o : Nat) (l : Nat) (s : State) (hμ : 0x2C0054 &&& μ = 0x2C0054 := by decide) : (State.concealOut o l s).kept μ = s.kept μ := kept_mono hμ (by
  unfold State.concealOut
  repeat' (first | with_reducible rfl | (simp; done) | split | (refine (kept_foldl (fun _ _ => ?_) _ _).trans ?_) | (simp; fail_if_success done)))

@[simp] theorem State.mergeOpens_kept {μ : Nat} (m : Nat) (n : Nat) (s : State) (hμ : 0x2000 &&& μ = 0x2000 := by decide) : (State.mergeOpens m n s).kept μ = s.kept μ := kept_mono hμ (by
  unfold State.mergeOpens
  repeat' (first | with_reducible rfl | (simp; done) | split | (refine (kept_foldl (fun _ _ => ?_) _ _).trans ?_) | (simp; fail_if_success done)))

@[simp] theorem State.mergePut_kept {μ : Nat} (m n j : Nat) (b : List Byte) (s : State) (hμ : 0x2C20D4 &&& μ = 0x2C20D4 := by decide) : (State.mergePut m n j b s).kept μ = s.kept μ := kept_mono hμ (by
  unfold State.mergePut
  simp only
  repeat' split
  all_goals first | (simp; done) | skip
  rw [State.closeTile_kept]
  exact (kept_foldl (fun _ _ => by simp) _ _).trans (by simp))

@[simp] theorem State.mergeMissing_kept {μ : Nat} (m n : Nat) (s : State) (hμ : 0x2C20D4 &&& μ = 0x2C20D4 := by decide) : (State.mergeMissing m n s).kept μ = s.kept μ := kept_mono hμ (by
  unfold State.mergeMissing
  extract_lets o l d s1 s2 v s3
  have h1 : s1.kept 0x2C20D4 = s.kept 0x2C20D4 := by
    simp only [s1]
    split
    · rw [State.writeAudio_kept, State.mergeOpens_kept]
    · split
      · rw [State.abandonCounted_kept, State.startUnit_kept]
      · split
        · rw [State.concealOut_kept]
        · rfl
  have h2 : s2.kept 0x2C20D4 = s.kept 0x2C20D4 := (State.mergeCount_kept ..).trans h1
  have h3 : s3.kept 0x2C20D4 = s.kept 0x2C20D4 := (State.setMerge_kept ..).trans h2
  split
  · exact (State.raise0_kept ..).trans h3
  · exact h3)

@[simp] theorem State.mergeChoose_kept {μ : Nat} (m : Nat) (n : Nat) (j : Nat) (a : Offer) (b : Offer) (s : State) (hμ : 0x2C20D4 &&& μ = 0x2C20D4 := by decide) : (State.mergeChoose m n j a b s).kept μ = s.kept μ := kept_mono hμ (by
  unfold State.mergeChoose
  repeat' (first | with_reducible rfl | (simp; done) | split | (refine (kept_foldl (fun _ _ => ?_) _ _).trans ?_) | (simp; fail_if_success done)))

@[simp] theorem State.legUnit_kept {μ : Nat} (m : Nat) (second : Bool) (any : Bool) (all : Bool) (s : State) (hμ : 0x2C2014 &&& μ = 0x2C2014 := by decide) : (State.legUnit m second any all s).kept μ = s.kept μ := kept_mono hμ (by
  unfold State.legUnit
  repeat' (first | with_reducible rfl | (simp; done) | split | (refine (kept_foldl (fun _ _ => ?_) _ _).trans ?_) | (simp; fail_if_success done)))

@[simp] theorem State.mergeNext_kept {μ : Nat} (m : Nat) (n : Nat) (s : State) (hμ : 0x2C2014 &&& μ = 0x2C2014 := by decide) : (State.mergeNext m n s).kept μ = s.kept μ := kept_mono hμ (by
  unfold State.mergeNext
  repeat' (first | with_reducible rfl | (simp; done) | split | (refine (kept_foldl (fun _ _ => ?_) _ _).trans ?_) | (simp; fail_if_success done)))

@[simp] theorem State.mergeTile_kept {μ : Nat} (m : Nat) (n : Nat) (j : Nat) (tiles : Nat) (at_ : Nat) (s : State) (hμ : 0x2C20D4 &&& μ = 0x2C20D4 := by decide) : (State.mergeTile m n j tiles at_ s).kept μ = s.kept μ := kept_mono hμ (by
  unfold State.mergeTile
  repeat' (first | with_reducible rfl | (simp; done) | split | (refine (kept_foldl (fun _ _ => ?_) _ _).trans ?_) | (simp; fail_if_success done)))

theorem execMergeDecision_keeps {μ : Nat} (m : Fin 1024) (s0 : State) (hμ : 0x2C20D4 &&& μ = 0x2C20D4 := by decide) : Keeps μ (s0.kept μ) (execMergeDecision m s0) := Keeps.mono hμ (by
  unfold execMergeDecision
  (repeat' (first | with_reducible rfl | trivial | (simp; done) | (refine keeps_checked ?_) | split | (simp only [keeps_done]; fail_if_success done) | (refine (kept_foldl (fun _ _ => ?_) _ _).trans ?_) | (simp; fail_if_success done))); done)

end Sys2Proof.Machine
end

