-- ==== Sys2Proof/Laws/KeptEssence.lean ====
section
/-! SUPPORT. What is left as it is by Composers and Calliope. -/

set_option Elab.async false

namespace Sys2Proof.Machine

open Sys2Proof

/-! ### Render -/

@[simp] theorem State.setCompOut_kept {μ : Nat} (n : Nat) (v : BitVec 256) (s : State) (hμ : 0x4000 &&& μ = 0x4000 := by decide) : (State.setCompOut n v s).kept μ = s.kept μ := kept_mono hμ (by
  unfold State.setCompOut
  repeat' (first | with_reducible rfl | (simp; done) | split | (refine (kept_foldl (fun _ _ => ?_) _ _).trans ?_) | (simp; fail_if_success done)))

@[simp] theorem State.setCompLayer_kept {μ : Nat} (i : Nat) (v : BitVec 256) (s : State) (hμ : 0x4000 &&& μ = 0x4000 := by decide) : (State.setCompLayer i v s).kept μ = s.kept μ := kept_mono hμ (by
  unfold State.setCompLayer
  repeat' (first | with_reducible rfl | (simp; done) | split | (refine (kept_foldl (fun _ _ => ?_) _ _).trans ?_) | (simp; fail_if_success done)))

@[simp] theorem State.setCompSt_kept {μ : Nat} (n : Nat) (v : CompSt) (s : State) (hμ : 0x4000 &&& μ = 0x4000 := by decide) : (State.setCompSt n v s).kept μ = s.kept μ := kept_mono hμ (by
  unfold State.setCompSt
  repeat' (first | with_reducible rfl | (simp; done) | split | (refine (kept_foldl (fun _ _ => ?_) _ _).trans ?_) | (simp; fail_if_success done)))

@[simp] theorem State.setLaySt_kept {μ : Nat} (i : Nat) (v : LayerSt) (s : State) (hμ : 0x4000 &&& μ = 0x4000 := by decide) : (State.setLaySt i v s).kept μ = s.kept μ := kept_mono hμ (by
  unfold State.setLaySt
  repeat' (first | with_reducible rfl | (simp; done) | split | (refine (kept_foldl (fun _ _ => ?_) _ _).trans ?_) | (simp; fail_if_success done)))

/-! ### Compose -/

@[simp] theorem State.dropStaleReads_kept {μ : Nat} (c : Nat) (s : State) (hμ : 0x200 &&& μ = 0x200 := by decide) : (State.dropStaleReads c s).kept μ = s.kept μ := kept_mono hμ (by
  unfold State.dropStaleReads
  repeat' (first | with_reducible rfl | (simp; done) | split | (refine (kept_foldl (fun _ _ => ?_) _ _).trans ?_) | (simp; fail_if_success done)))

@[simp] theorem State.dropConversion_kept {μ : Nat} (n : Nat) (ring : Nat) (s : State) (hμ : 0x240 &&& μ = 0x240 := by decide) : (State.dropConversion n ring s).kept μ = s.kept μ := kept_mono hμ (by
  unfold State.dropConversion
  repeat' (first | with_reducible rfl | (simp; done) | split | (refine (kept_foldl (fun _ _ => ?_) _ _).trans ?_) | (simp; fail_if_success done)))

theorem compEnable_ok {μ : Nat} (s : State) (n : Nat) (o : BitVec 256) (hμ : 0x200 &&& μ = 0x200 := by decide) : OkKept μ (s.kept μ) id (compEnable s n o) := OkKept.mono hμ (by
  unfold compEnable
  (repeat' (first | exact (claimAll_ok ..) | (refine OkKept.step (claimAll_ok ..) (by simp) (fun _ _ => ?_)) | exact OkKept.error _ | (refine OkKept.pure ?_; (first | with_reducible rfl | (simp; done) | (simp_all; done) | (split <;> simp_all; done))) | (refine OkKept.ok ?_; (first | with_reducible rfl | (simp; done) | (simp_all; done))) | split | (refine OkKept.bind (fun _ _ => ?_)) | (simp only; fail_if_success done))); done)

theorem compOutWriteCheck_ok {μ : Nat} (q : Req) (s : State) (hμ : 0x200 &&& μ = 0x200 := by decide) : OkKept μ (s.kept μ) (fun x => x.2.2) (compOutWriteCheck q s) := OkKept.mono hμ (by
  unfold compOutWriteCheck
  (repeat' (first | exact (compEnable_ok ..) | (refine OkKept.step (compEnable_ok ..) (by simp) (fun _ _ => ?_)) | exact OkKept.error _ | (refine OkKept.pure ?_; (first | with_reducible rfl | (simp; done) | (simp_all; done) | (split <;> simp_all; done))) | (refine OkKept.ok ?_; (first | with_reducible rfl | (simp; done) | (simp_all; done))) | split | (refine OkKept.bind (fun _ _ => ?_)) | (simp only; fail_if_success done))); done)

@[simp] theorem compOutDo_kept {μ : Nat} (n : Nat) (o : BitVec 256) (s : State) (hμ : 0x4240 &&& μ = 0x4240 := by decide) : (compOutDo n o s).kept μ = s.kept μ := kept_mono hμ (by
  unfold compOutDo
  repeat' (first | with_reducible rfl | (simp; done) | split | (refine (kept_foldl (fun _ _ => ?_) _ _).trans ?_) | (simp; fail_if_success done)))

@[simp] theorem holdWrite_kept {μ : Nat} (target : Nat) (obj : Target) (bytes : List Byte) (s : State) (hμ : 0x4000 &&& μ = 0x4000 := by decide) : (holdWrite target obj bytes s).kept μ = s.kept μ := kept_mono hμ (by
  unfold holdWrite
  repeat' (first | with_reducible rfl | (simp; done) | split | (refine (kept_foldl (fun _ _ => ?_) _ _).trans ?_) | (simp; fail_if_success done)))

theorem compApply_ok {μ : Nat} (op : Nat) (q : Req) (o : BitVec 256) (obj : Target) (bytes : List Byte) (apply : State → State) (s : State)
    (h : (apply s).kept μ = s.kept μ) (hμ : 0x2C4014 &&& μ = 0x2C4014 := by decide) : OkKept μ (s.kept μ) id (compApply op q o obj bytes apply s) := by
  unfold compApply
  split
  · exact OkKept.pure h
  · refine OkKept.bind (fun _ _ => ?_)
    refine OkKept.step (heldTiming_ok (hμ := sub_of hμ (by decide)) ..) rfl (fun x hx => ?_)
    exact OkKept.pure ((holdWrite_kept (hμ := sub_of hμ (by decide)) ..).trans hx)

theorem cmdCompOutWrite_ok {μ : Nat} (q : Req) (s : State) (hμ : 0x2C4254 &&& μ = 0x2C4254 := by decide) : OkKept μ (s.kept μ) (fun x => x.1) (cmdCompOutWrite q s) := OkKept.mono hμ (by
  unfold cmdCompOutWrite
  refine OkKept.step (compOutWriteCheck_ok ..) rfl (fun x hx => ?_)
  refine OkKept.step (compApply_ok _ _ _ _ _ _ _ (compOutDo_kept ..)) hx (fun t ht => ?_)
  exact OkKept.pure ht)

theorem execCompOutWrite_keeps {μ : Nat} (q : Req) (s : State) (hμ : 0x2C4254 &&& μ = 0x2C4254 := by decide) : Keeps μ (s.kept μ) (execCompOutWrite q s) := Keeps.mono hμ (by
  unfold execCompOutWrite; exact serve_keeps _ _ _ _ (fun _ _ => cmdCompOutWrite_ok ..))

theorem compLayerWriteCheck_ok {μ : Nat} (q : Req) (s : State) (hμ : 0x200 &&& μ = 0x200 := by decide) : OkKept μ (s.kept μ) (fun x => x.2.2) (compLayerWriteCheck q s) := OkKept.mono hμ (by
  unfold compLayerWriteCheck
  (repeat' (first | exact (claimAll_ok ..) | (refine OkKept.step (claimAll_ok ..) (by simp) (fun _ _ => ?_)) | exact OkKept.error _ | (refine OkKept.pure ?_; (first | with_reducible rfl | (simp; done) | (simp_all; done) | (split <;> simp_all; done))) | (refine OkKept.ok ?_; (first | with_reducible rfl | (simp; done) | (simp_all; done))) | split | (refine OkKept.bind (fun _ _ => ?_)) | (simp only; fail_if_success done))); done)

theorem cmdCompLayerWrite_ok {μ : Nat} (q : Req) (s : State) (hμ : 0x2C4214 &&& μ = 0x2C4214 := by decide) : OkKept μ (s.kept μ) (fun x => x.1) (cmdCompLayerWrite q s) := OkKept.mono hμ (by
  unfold cmdCompLayerWrite
  refine OkKept.step (compLayerWriteCheck_ok ..) rfl (fun x hx => ?_)
  refine OkKept.step (compApply_ok _ _ _ _ _ _ _ (State.setCompLayer_kept ..)) hx (fun t ht => ?_)
  exact OkKept.pure ht)

theorem execCompLayerWrite_keeps {μ : Nat} (q : Req) (s : State) (hμ : 0x2C4214 &&& μ = 0x2C4214 := by decide) : Keeps μ (s.kept μ) (execCompLayerWrite q s) := Keeps.mono hμ (by
  unfold execCompLayerWrite; exact serve_keeps _ _ _ _ (fun _ _ => cmdCompLayerWrite_ok ..))

@[simp] theorem State.setCompMat_kept {μ : Nat} (i : Nat) (m : BitVec 288) (s : State) (hμ : 0x4000 &&& μ = 0x4000 := by decide) : (State.setCompMat i m s).kept μ = s.kept μ := kept_mono hμ (by
  unfold State.setCompMat
  repeat' (first | with_reducible rfl | (simp; done) | split | (refine (kept_foldl (fun _ _ => ?_) _ _).trans ?_) | (simp; fail_if_success done)))

@[simp] theorem State.setCompCur_kept {μ : Nat} (c : Nat) (r : BitVec 128) (s : State) (hμ : 0x4000 &&& μ = 0x4000 := by decide) : (State.setCompCur c r s).kept μ = s.kept μ := kept_mono hμ (by
  unfold State.setCompCur
  repeat' (first | with_reducible rfl | (simp; done) | split | (refine (kept_foldl (fun _ _ => ?_) _ _).trans ?_) | (simp; fail_if_success done)))

@[simp] theorem State.cursorWritten_kept {μ : Nat} (c : Nat) (r : BitVec 128) (s : State) (hμ : 0x4000 &&& μ = 0x4000 := by decide) : (State.cursorWritten c r s).kept μ = s.kept μ := kept_mono hμ (by
  unfold State.cursorWritten
  repeat' (first | with_reducible rfl | (simp; done) | split | (refine (kept_foldl (fun _ _ => ?_) _ _).trans ?_) | (simp; fail_if_success done)))

theorem cmdCompMatrixWrite_ok {μ : Nat} (q : Req) (s : State) (hμ : 0x2C4014 &&& μ = 0x2C4014 := by decide) : OkKept μ (s.kept μ) (fun x => x.1) (cmdCompMatrixWrite q s) := OkKept.mono hμ (by
  unfold cmdCompMatrixWrite
  (repeat' (first | exact (compApply_ok _ _ _ _ _ _ _ (by simp)) | (refine OkKept.step (compApply_ok _ _ _ _ _ _ _ (by simp)) (by simp) (fun _ _ => ?_)) | exact OkKept.error _ | (refine OkKept.pure ?_; (first | with_reducible rfl | (simp; done) | (simp_all; done) | (split <;> simp_all; done))) | (refine OkKept.ok ?_; (first | with_reducible rfl | (simp; done) | (simp_all; done))) | split | (refine OkKept.bind (fun _ _ => ?_)) | (simp only; fail_if_success done))); done)

theorem execCompMatrixWrite_keeps {μ : Nat} (q : Req) (s : State) (hμ : 0x2C4014 &&& μ = 0x2C4014 := by decide) : Keeps μ (s.kept μ) (execCompMatrixWrite q s) := Keeps.mono hμ (by
  unfold execCompMatrixWrite; exact serve_keeps _ _ _ _ (fun _ _ => cmdCompMatrixWrite_ok ..))

theorem cmdCompCursorWrite_ok {μ : Nat} (q : Req) (s : State) (hμ : 0x2C4014 &&& μ = 0x2C4014 := by decide) : OkKept μ (s.kept μ) (fun x => x.1) (cmdCompCursorWrite q s) := OkKept.mono hμ (by
  unfold cmdCompCursorWrite
  (repeat' (first | exact (compApply_ok _ _ _ _ _ _ _ (by simp)) | (refine OkKept.step (compApply_ok _ _ _ _ _ _ _ (by simp)) (by simp) (fun _ _ => ?_)) | exact OkKept.error _ | (refine OkKept.pure ?_; (first | with_reducible rfl | (simp; done) | (simp_all; done) | (split <;> simp_all; done))) | (refine OkKept.ok ?_; (first | with_reducible rfl | (simp; done) | (simp_all; done))) | split | (refine OkKept.bind (fun _ _ => ?_)) | (simp only; fail_if_success done))); done)

theorem execCompCursorWrite_keeps {μ : Nat} (q : Req) (s : State) (hμ : 0x2C4014 &&& μ = 0x2C4014 := by decide) : Keeps μ (s.kept μ) (execCompCursorWrite q s) := Keeps.mono hμ (by
  unfold execCompCursorWrite; exact serve_keeps _ _ _ _ (fun _ _ => cmdCompCursorWrite_ok ..))

@[simp] theorem State.setLoads_kept {μ : Nat} (l : List Load) (s : State) (hμ : 0x4000 &&& μ = 0x4000 := by decide) : (State.setLoads l s).kept μ = s.kept μ := kept_mono hμ (by
  unfold State.setLoads
  repeat' (first | with_reducible rfl | (simp; done) | split | (refine (kept_foldl (fun _ _ => ?_) _ _).trans ?_) | (simp; fail_if_success done)))

@[simp] theorem State.commitBank_kept {μ : Nat} (x : Load) (s : State) (hμ : 0x4000 &&& μ = 0x4000 := by decide) : (State.commitBank x s).kept μ = s.kept μ := kept_mono hμ (by
  unfold State.commitBank
  repeat' (first | with_reducible rfl | (simp; done) | split | (refine (kept_foldl (fun _ _ => ?_) _ _).trans ?_) | (simp; fail_if_success done)))

theorem cmdCompLoad_ok {μ : Nat} (q : Req) (s : State) (hμ : 0x4000 &&& μ = 0x4000 := by decide) : OkKept μ (s.kept μ) Ans.state (cmdCompLoad q s) := OkKept.mono hμ (by
  unfold cmdCompLoad
  (repeat' (first | exact OkKept.error _ | (refine OkKept.pure ?_; (first | with_reducible rfl | (simp; done) | (simp_all; done) | (split <;> simp_all; done))) | (refine OkKept.ok ?_; (first | with_reducible rfl | (simp; done) | (simp_all; done))) | split | (refine OkKept.bind (fun _ _ => ?_)) | (simp only; fail_if_success done))); done)

theorem execCompLoad_keeps {μ : Nat} (q : Req) (s : State) (hμ : 0x2C4014 &&& μ = 0x2C4014 := by decide) : Keeps μ (s.kept μ) (execCompLoad q s) := Keeps.mono hμ (by
  unfold execCompLoad; exact serveAns_keeps _ _ _ _ (fun _ _ => cmdCompLoad_ok ..))

theorem cmdCompRead_ok {μ : Nat} (q : Req) (s : State) (hμ : 0x0 &&& μ = 0x0 := by decide) : OkKept μ (s.kept μ) (fun x => x.1) (cmdCompRead q s) := OkKept.mono hμ (by
  unfold cmdCompRead
  (repeat' (first | exact OkKept.error _ | (refine OkKept.pure ?_; (first | with_reducible rfl | (simp; done) | (simp_all; done) | (split <;> simp_all; done))) | (refine OkKept.ok ?_; (first | with_reducible rfl | (simp; done) | (simp_all; done))) | split | (refine OkKept.bind (fun _ _ => ?_)) | (simp only; fail_if_success done))); done)

theorem execCompRead_keeps {μ : Nat} (q : Req) (s : State) (hμ : 0x2C0014 &&& μ = 0x2C0014 := by decide) : Keeps μ (s.kept μ) (execCompRead q s) := Keeps.mono hμ (by
  unfold execCompRead; exact serve_keeps _ _ _ _ (fun _ _ => cmdCompRead_ok ..))

theorem cmdCompLayerRead_ok {μ : Nat} (q : Req) (s : State) (hμ : 0x4000 &&& μ = 0x4000 := by decide) : OkKept μ (s.kept μ) (fun x => x.1) (cmdCompLayerRead q s) := OkKept.mono hμ (by
  unfold cmdCompLayerRead
  (repeat' (first | exact OkKept.error _ | (refine OkKept.pure ?_; (first | with_reducible rfl | (simp; done) | (simp_all; done) | (split <;> simp_all; done))) | (refine OkKept.ok ?_; (first | with_reducible rfl | (simp; done) | (simp_all; done))) | split | (refine OkKept.bind (fun _ _ => ?_)) | (simp only; fail_if_success done))); done)

theorem execCompLayerRead_keeps {μ : Nat} (q : Req) (s : State) (hμ : 0x2C4014 &&& μ = 0x2C4014 := by decide) : Keeps μ (s.kept μ) (execCompLayerRead q s) := Keeps.mono hμ (by
  unfold execCompLayerRead; exact serve_keeps _ _ _ _ (fun _ _ => cmdCompLayerRead_ok ..))

theorem execComposerLatch_keeps {μ : Nat} (c : Fin 16) (k : Fin 4) (s0 : State) (hμ : 0x4000 &&& μ = 0x4000 := by decide) : Keeps μ (s0.kept μ) (execComposerLatch c k s0) := Keeps.mono hμ (by
  unfold execComposerLatch
  (repeat' (first | with_reducible rfl | trivial | (simp; done) | (refine keeps_checked ?_) | split | (simp only [keeps_done]; fail_if_success done) | (refine (kept_foldl (fun _ _ => ?_) _ _).trans ?_) | (simp; fail_if_success done))); done)

@[simp] theorem State.applyHeld_kept {μ : Nat} (n : Nat) (h : Held) (s : State) (hμ : 0x4240 &&& μ = 0x4240 := by decide) : (State.applyHeld n h s).kept μ = s.kept μ := kept_mono hμ (by
  unfold State.applyHeld
  repeat' (first | with_reducible rfl | (simp; done) | split | (refine (kept_foldl (fun _ _ => ?_) _ _).trans ?_) | (simp; fail_if_success done)))

@[simp] theorem State.applyDue_kept {μ : Nat} (n : Nat) (s : State) (hμ : 0x4240 &&& μ = 0x4240 := by decide) : (State.applyDue n s).kept μ = s.kept μ := kept_mono hμ (by
  unfold State.applyDue
  repeat' (first | with_reducible rfl | (simp; done) | split | (refine (kept_foldl (fun _ _ => ?_) _ _).trans ?_) | (simp; fail_if_success done)))

@[simp] theorem State.compBlack_kept {μ : Nat} (n r upto : Nat) (s : State) (hμ : 0x2C0054 &&& μ = 0x2C0054 := by decide) : (State.compBlack n r upto s).kept μ = s.kept μ := kept_mono hμ (by
  unfold State.compBlack
  extract_lets w d due late more s1 s2
  have h2 : s2.kept 0x2C0054 = s.kept 0x2C0054 := (kept_foldl (fun _ _ => State.closeMissing_kept ..) _ _).trans (State.setWr_kept ..)
  split
  · rfl
  · exact (State.raise_kept ..).trans ((State.onRingCtr_kept ..).trans h2))

@[simp] theorem State.setCompState_kept {μ : Nat} (n : Nat) (v : Nat) (s : State) (hμ : 0x4000 &&& μ = 0x4000 := by decide) : (State.setCompState n v s).kept μ = s.kept μ := kept_mono hμ (by
  unfold State.setCompState
  repeat' (first | with_reducible rfl | (simp; done) | split | (refine (kept_foldl (fun _ _ => ?_) _ _).trans ?_) | (simp; fail_if_success done)))

@[simp] theorem State.showState_kept {μ : Nat} (n : Nat) (v : Nat) (member : Nat) (gang : Bool) (s : State) (hμ : 0x4000 &&& μ = 0x4000 := by decide) : (State.showState n v member gang s).kept μ = s.kept μ := kept_mono hμ (by
  unfold State.showState
  repeat' (first | with_reducible rfl | (simp; done) | split | (refine (kept_foldl (fun _ _ => ?_) _ _).trans ?_) | (simp; fail_if_success done)))

@[simp] theorem State.setLayerState_kept {μ : Nat} (c : Nat) (l : Nat) (v : Nat) (s : State) (hμ : 0x2C4014 &&& μ = 0x2C4014 := by decide) : (State.setLayerState c l v s).kept μ = s.kept μ := kept_mono hμ (by
  unfold State.setLayerState
  repeat' (first | with_reducible rfl | (simp; done) | split | (refine (kept_foldl (fun _ _ => ?_) _ _).trans ?_) | (simp; fail_if_success done)))

@[simp] theorem State.layerAtF_kept {μ : Nat} (n : Nat) (v : CompSet) (l : Nat) (s : State) (hμ : 0x2C4014 &&& μ = 0x2C4014 := by decide) : (State.layerAtF n v l s).kept μ = s.kept μ := kept_mono hμ (by
  unfold State.layerAtF
  repeat' (first | with_reducible rfl | (simp; done) | split | (refine (kept_foldl (fun _ _ => ?_) _ _).trans ?_) | (simp; fail_if_success done)))

@[simp] theorem State.layerOff_kept {μ : Nat} (c : Nat) (l : Nat) (s : State) (hμ : 0x2C4014 &&& μ = 0x2C4014 := by decide) : (State.layerOff c l s).kept μ = s.kept μ := kept_mono hμ (by
  unfold State.layerOff
  repeat' (first | with_reducible rfl | (simp; done) | split | (refine (kept_foldl (fun _ _ => ?_) _ _).trans ?_) | (simp; fail_if_success done)))

@[simp] theorem State.gangFaults_kept {μ : Nat} (n : Nat) (s : State) (hμ : 0x2C4014 &&& μ = 0x2C4014 := by decide) : (State.gangFaults n s).kept μ = s.kept μ := kept_mono hμ (by
  unfold State.gangFaults
  repeat' (first | with_reducible rfl | (simp; done) | split | (refine (kept_foldl (fun _ _ => ?_) _ _).trans ?_) | (simp; fail_if_success done)))

@[simp] theorem State.compStop_kept {μ : Nat} (n : Nat) (v : CompSet) (s : State) (hμ : 0x2C4254 &&& μ = 0x2C4254 := by decide) : (State.compStop n v s).kept μ = s.kept μ := kept_mono hμ (by
  unfold State.compStop
  repeat' (first | with_reducible rfl | (simp; done) | split | (refine (kept_foldl (fun _ _ => ?_) _ _).trans ?_) | (simp; fail_if_success done)))

@[simp] theorem State.compFrame_kept {μ : Nat} (n : Nat) (v : CompSet) (s : State) (hμ : 0x2C62D4 &&& μ = 0x2C62D4 := by decide) : (State.compFrame n v s).kept μ = s.kept μ := kept_mono hμ (by
  unfold State.compFrame
  repeat' (first | with_reducible rfl | (simp; done) | split | (refine (kept_foldl (fun _ _ => ?_) _ _).trans ?_) | (simp; fail_if_success done)))

@[simp] theorem State.compAtF_kept {μ : Nat} (n : Nat) (s : State) (hμ : 0x2C62D4 &&& μ = 0x2C62D4 := by decide) : (State.compAtF n s).kept μ = s.kept μ := kept_mono hμ (by
  unfold State.compAtF
  repeat' (first | with_reducible rfl | (simp; done) | split | (refine (kept_foldl (fun _ _ => ?_) _ _).trans ?_) | (simp; fail_if_success done)))

theorem execComposerFrameStart_keeps {μ : Nat} (c : Fin 16) (k : Fin 4) (s0 : State) (hμ : 0x2C62D4 &&& μ = 0x2C62D4 := by decide) : Keeps μ (s0.kept μ) (execComposerFrameStart c k s0) := Keeps.mono hμ (by
  unfold execComposerFrameStart
  (repeat' (first | with_reducible rfl | trivial | (simp; done) | (refine keeps_checked ?_) | split | (simp only [keeps_done]; fail_if_success done) | (refine (kept_foldl (fun _ _ => ?_) _ _).trans ?_) | (simp; fail_if_success done))); done)

theorem execCompLutParity_keeps {μ : Nat} (table : Fin 3) (bank : Fin 2) (i : Fin 128) (s0 : State) (hμ : 0x2C4014 &&& μ = 0x2C4014 := by decide) : Keeps μ (s0.kept μ) (execCompLutParity table bank i s0) := Keeps.mono hμ (by
  unfold execCompLutParity
  (repeat' (first | with_reducible rfl | trivial | (simp; done) | (refine keeps_checked ?_) | split | (simp only [keeps_done]; fail_if_success done) | (refine (kept_foldl (fun _ _ => ?_) _ _).trans ?_) | (simp; fail_if_success done))); done)

/-! ### Calliope -/

@[simp] theorem State.setInSt_kept {μ : Nat} (i : Nat) (v : InSt) (s : State) (hμ : 0x8000 &&& μ = 0x8000 := by decide) : (State.setInSt i v s).kept μ = s.kept μ := kept_mono hμ (by
  unfold State.setInSt
  repeat' (first | with_reducible rfl | (simp; done) | split | (refine (kept_foldl (fun _ _ => ?_) _ _).trans ?_) | (simp; fail_if_success done)))

theorem calApply_ok {μ : Nat} (op target : Nat) (q : Req) (obj : Target) (bytes : List Byte) (apply : State → State) (s : State)
    (h : (apply s).kept μ = s.kept μ) (hμ : 0x2C8014 &&& μ = 0x2C8014 := by decide) : OkKept μ (s.kept μ) id (calApply op target q obj bytes apply s) := by
  unfold calApply
  split
  · exact OkKept.pure h
  · refine OkKept.bind (fun _ _ => ?_)
    refine OkKept.step (heldTiming_ok (hμ := sub_of hμ (by decide)) ..) rfl (fun x hx => ?_)
    refine OkKept.bind (fun _ _ => ?_)
    exact OkKept.pure ((State.kept_onCal _ _ (sub_of hμ (by decide))).trans hx)

theorem cmdCalWrite_ok {μ : Nat} (q : Req) (s : State) (hμ : 0x8000 &&& μ = 0x8000 := by decide) : OkKept μ (s.kept μ) (fun x => x.1) (cmdCalWrite q s) := OkKept.mono hμ (by
  unfold cmdCalWrite
  (repeat' (first | exact OkKept.error _ | (refine OkKept.pure ?_; (first | with_reducible rfl | (simp; done) | (simp_all; done) | (split <;> simp_all; done))) | (refine OkKept.ok ?_; (first | with_reducible rfl | (simp; done) | (simp_all; done))) | split | (refine OkKept.bind (fun _ _ => ?_)) | (simp only; fail_if_success done))); done)

theorem execCalWrite_keeps {μ : Nat} (q : Req) (s : State) (hμ : 0x2C8014 &&& μ = 0x2C8014 := by decide) : Keeps μ (s.kept μ) (execCalWrite q s) := Keeps.mono hμ (by
  unfold execCalWrite; exact serve_keeps _ _ _ _ (fun _ _ => cmdCalWrite_ok ..))

theorem audInWriteCheck_ok {μ : Nat} (q : Req) (s : State) (hμ : 0x8200 &&& μ = 0x8200 := by decide) : OkKept μ (s.kept μ) (fun x => x.2.2) (audInWriteCheck q s) := OkKept.mono hμ (by
  unfold audInWriteCheck
  (repeat' (first | exact (claimAll_ok ..) | (refine OkKept.step (claimAll_ok ..) (by simp) (fun _ _ => ?_)) | exact OkKept.error _ | (refine OkKept.pure ?_; (first | with_reducible rfl | (simp; done) | (simp_all; done) | (split <;> simp_all; done))) | (refine OkKept.ok ?_; (first | with_reducible rfl | (simp; done) | (simp_all; done))) | split | (refine OkKept.bind (fun _ _ => ?_)) | (simp only; fail_if_success done))); done)

@[simp] theorem State.dropTaps_kept {μ : Nat} (i : Nat) (s : State) (hμ : 0x200 &&& μ = 0x200 := by decide) : (State.dropTaps i s).kept μ = s.kept μ := kept_mono hμ (by
  unfold State.dropTaps
  repeat' (first | with_reducible rfl | (simp; done) | split | (refine (kept_foldl (fun _ _ => ?_) _ _).trans ?_) | (simp; fail_if_success done)))

@[simp] theorem audInDo_kept {μ : Nat} (i : Nat) (e : BitVec 256) (s : State) (hμ : 0x8200 &&& μ = 0x8200 := by decide) : (audInDo i e s).kept μ = s.kept μ := kept_mono hμ (by
  unfold audInDo
  repeat' (first | with_reducible rfl | (simp; done) | split | (refine (kept_foldl (fun _ _ => ?_) _ _).trans ?_) | (simp; fail_if_success done)))

theorem cmdAudInWrite_ok {μ : Nat} (q : Req) (s : State) (hμ : 0x2C8214 &&& μ = 0x2C8214 := by decide) : OkKept μ (s.kept μ) (fun x => x.1) (cmdAudInWrite q s) := OkKept.mono hμ (by
  unfold cmdAudInWrite
  refine OkKept.step (audInWriteCheck_ok ..) rfl (fun x hx => ?_)
  refine OkKept.step (calApply_ok _ _ _ _ _ _ _ (audInDo_kept ..)) hx (fun t ht => ?_)
  exact OkKept.pure ht)

theorem execAudInWrite_keeps {μ : Nat} (q : Req) (s : State) (hμ : 0x2C8214 &&& μ = 0x2C8214 := by decide) : Keeps μ (s.kept μ) (execAudInWrite q s) := Keeps.mono hμ (by
  unfold execAudInWrite; exact serve_keeps _ _ _ _ (fun _ _ => cmdAudInWrite_ok ..))

theorem audOutWriteCheck_ok {μ : Nat} (q : Req) (s : State) (hμ : 0x8200 &&& μ = 0x8200 := by decide) : OkKept μ (s.kept μ) (fun x => x.2.2.2) (audOutWriteCheck q s) := OkKept.mono hμ (by
  unfold audOutWriteCheck
  (repeat' (first | exact (claimAll_ok ..) | (refine OkKept.step (claimAll_ok ..) (by simp) (fun _ _ => ?_)) | exact OkKept.error _ | (refine OkKept.pure ?_; (first | with_reducible rfl | (simp; done) | (simp_all; done) | (split <;> simp_all; done))) | (refine OkKept.ok ?_; (first | with_reducible rfl | (simp; done) | (simp_all; done))) | split | (refine OkKept.bind (fun _ _ => ?_)) | (simp only; fail_if_success done))); done)

@[simp] theorem audOutDo_kept {μ : Nat} (o : Nat) (h : BitVec 128) (l : List (BitVec 64)) (s : State) (hμ : 0x8040 &&& μ = 0x8040 := by decide) : (audOutDo o h l s).kept μ = s.kept μ := kept_mono hμ (by
  unfold audOutDo
  repeat' (first | with_reducible rfl | (simp; done) | split | (refine (kept_foldl (fun _ _ => ?_) _ _).trans ?_) | (simp; fail_if_success done)))

theorem cmdAudOutWrite_ok {μ : Nat} (q : Req) (s : State) (hμ : 0x2C8254 &&& μ = 0x2C8254 := by decide) : OkKept μ (s.kept μ) (fun x => x.1) (cmdAudOutWrite q s) := OkKept.mono hμ (by
  unfold cmdAudOutWrite
  refine OkKept.step (audOutWriteCheck_ok ..) rfl (fun x hx => ?_)
  refine OkKept.step (calApply_ok _ _ _ _ _ _ _ (audOutDo_kept ..)) hx (fun t ht => ?_)
  exact OkKept.pure ht)

theorem execAudOutWrite_keeps {μ : Nat} (q : Req) (s : State) (hμ : 0x2C8254 &&& μ = 0x2C8254 := by decide) : Keeps μ (s.kept μ) (execAudOutWrite q s) := Keeps.mono hμ (by
  unfold execAudOutWrite; exact serve_keeps _ _ _ _ (fun _ _ => cmdAudOutWrite_ok ..))

@[simp] theorem audBusDo_kept {μ : Nat} (b : Nat) (e : BitVec 256) (s : State) (hμ : 0x8000 &&& μ = 0x8000 := by decide) : (audBusDo b e s).kept μ = s.kept μ := kept_mono hμ (by
  unfold audBusDo
  repeat' (first | with_reducible rfl | (simp; done) | split | (refine (kept_foldl (fun _ _ => ?_) _ _).trans ?_) | (simp; fail_if_success done)))

theorem cmdAudBusWrite_ok {μ : Nat} (q : Req) (s : State) (hμ : 0x2C8014 &&& μ = 0x2C8014 := by decide) : OkKept μ (s.kept μ) (fun x => x.1) (cmdAudBusWrite q s) := OkKept.mono hμ (by
  unfold cmdAudBusWrite
  (repeat' (first | exact (calApply_ok _ _ _ _ _ _ _ (by simp)) | (refine OkKept.step (calApply_ok _ _ _ _ _ _ _ (by simp)) (by simp) (fun _ _ => ?_)) | exact OkKept.error _ | (refine OkKept.pure ?_; (first | with_reducible rfl | (simp; done) | (simp_all; done) | (split <;> simp_all; done))) | (refine OkKept.ok ?_; (first | with_reducible rfl | (simp; done) | (simp_all; done))) | split | (refine OkKept.bind (fun _ _ => ?_)) | (simp only; fail_if_success done))); done)

theorem execAudBusWrite_keeps {μ : Nat} (q : Req) (s : State) (hμ : 0x2C8014 &&& μ = 0x2C8014 := by decide) : Keeps μ (s.kept μ) (execAudBusWrite q s) := Keeps.mono hμ (by
  unfold execAudBusWrite; exact serve_keeps _ _ _ _ (fun _ _ => cmdAudBusWrite_ok ..))

@[simp] theorem audBusInputsDo_kept {μ : Nat} (b : Nat) (first : Nat) (l : List (BitVec 32)) (s : State) (hμ : 0x8000 &&& μ = 0x8000 := by decide) : (audBusInputsDo b first l s).kept μ = s.kept μ := kept_mono hμ (by
  unfold audBusInputsDo
  repeat' (first | with_reducible rfl | (simp; done) | split | (refine (kept_foldl (fun _ _ => ?_) _ _).trans ?_) | (simp; fail_if_success done)))

theorem cmdAudBusInputs_ok {μ : Nat} (q : Req) (s : State) (hμ : 0x2C8014 &&& μ = 0x2C8014 := by decide) : OkKept μ (s.kept μ) (fun x => x.1) (cmdAudBusInputs q s) := OkKept.mono hμ (by
  unfold cmdAudBusInputs
  (repeat' (first | exact (calApply_ok _ _ _ _ _ _ _ (by simp)) | (refine OkKept.step (calApply_ok _ _ _ _ _ _ _ (by simp)) (by simp) (fun _ _ => ?_)) | exact OkKept.error _ | (refine OkKept.pure ?_; (first | with_reducible rfl | (simp; done) | (simp_all; done) | (split <;> simp_all; done))) | (refine OkKept.ok ?_; (first | with_reducible rfl | (simp; done) | (simp_all; done))) | split | (refine OkKept.bind (fun _ _ => ?_)) | (simp only; fail_if_success done))); done)

theorem execAudBusInputs_keeps {μ : Nat} (q : Req) (s : State) (hμ : 0x2C8014 &&& μ = 0x2C8014 := by decide) : Keeps μ (s.kept μ) (execAudBusInputs q s) := Keeps.mono hμ (by
  unfold execAudBusInputs; exact serve_keeps _ _ _ _ (fun _ _ => cmdAudBusInputs_ok ..))

@[simp] theorem audDynDo_kept {μ : Nat} (i : Nat) (e : BitVec 256) (s : State) (hμ : 0x8000 &&& μ = 0x8000 := by decide) : (audDynDo i e s).kept μ = s.kept μ := kept_mono hμ (by
  unfold audDynDo
  repeat' (first | with_reducible rfl | (simp; done) | split | (refine (kept_foldl (fun _ _ => ?_) _ _).trans ?_) | (simp; fail_if_success done)))

theorem cmdAudDynWrite_ok {μ : Nat} (q : Req) (s : State) (hμ : 0x2C8014 &&& μ = 0x2C8014 := by decide) : OkKept μ (s.kept μ) (fun x => x.1) (cmdAudDynWrite q s) := OkKept.mono hμ (by
  unfold cmdAudDynWrite
  (repeat' (first | exact (calApply_ok _ _ _ _ _ _ _ (by simp)) | (refine OkKept.step (calApply_ok _ _ _ _ _ _ _ (by simp)) (by simp) (fun _ _ => ?_)) | exact OkKept.error _ | (refine OkKept.pure ?_; (first | with_reducible rfl | (simp; done) | (simp_all; done) | (split <;> simp_all; done))) | (refine OkKept.ok ?_; (first | with_reducible rfl | (simp; done) | (simp_all; done))) | split | (refine OkKept.bind (fun _ _ => ?_)) | (simp only; fail_if_success done))); done)

theorem execAudDynWrite_keeps {μ : Nat} (q : Req) (s : State) (hμ : 0x2C8014 &&& μ = 0x2C8014 := by decide) : Keeps μ (s.kept μ) (execAudDynWrite q s) := Keeps.mono hμ (by
  unfold execAudDynWrite; exact serve_keeps _ _ _ _ (fun _ _ => cmdAudDynWrite_ok ..))

@[simp] theorem State.audClear_kept {μ : Nat} (kind : Nat) (i : Nat) (s : State) (hμ : 0x8000 &&& μ = 0x8000 := by decide) : (State.audClear kind i s).kept μ = s.kept μ := kept_mono hμ (by
  unfold State.audClear
  repeat' (first | with_reducible rfl | (simp; done) | split | (refine (kept_foldl (fun _ _ => ?_) _ _).trans ?_) | (simp; fail_if_success done)))

theorem cmdAudRead_ok {μ : Nat} (q : Req) (s : State) (hμ : 0x8000 &&& μ = 0x8000 := by decide) : OkKept μ (s.kept μ) (fun x => x.1) (cmdAudRead q s) := OkKept.mono hμ (by
  unfold cmdAudRead
  (repeat' (first | exact OkKept.error _ | (refine OkKept.pure ?_; (first | with_reducible rfl | (simp; done) | (simp_all; done) | (split <;> simp_all; done))) | (refine OkKept.ok ?_; (first | with_reducible rfl | (simp; done) | (simp_all; done))) | split | (refine OkKept.bind (fun _ _ => ?_)) | (simp only; fail_if_success done))); done)

theorem execAudRead_keeps {μ : Nat} (q : Req) (s : State) (hμ : 0x2C8014 &&& μ = 0x2C8014 := by decide) : Keeps μ (s.kept μ) (execAudRead q s) := Keeps.mono hμ (by
  unfold execAudRead; exact serve_keeps _ _ _ _ (fun _ _ => cmdAudRead_ok ..))

@[simp] theorem State.applyAudio_kept {μ : Nat} (h : Held) (s : State) (hμ : 0x8240 &&& μ = 0x8240 := by decide) : (State.applyAudio h s).kept μ = s.kept μ := kept_mono hμ (by
  unfold State.applyAudio
  repeat' (first | with_reducible rfl | (simp; done) | split | (refine (kept_foldl (fun _ _ => ?_) _ _).trans ?_) | (simp; fail_if_success done)))

@[simp] theorem State.applyAudioDue_kept {μ : Nat} (s : State) (hμ : 0x8240 &&& μ = 0x8240 := by decide) : (State.applyAudioDue s).kept μ = s.kept μ := kept_mono hμ (by
  unfold State.applyAudioDue
  repeat' (first | with_reducible rfl | (simp; done) | split | (refine (kept_foldl (fun _ _ => ?_) _ _).trans ?_) | (simp; fail_if_success done)))

@[simp] theorem State.stepIn_kept {μ : Nat} (i : Nat) (s : State) (hμ : 0x2C8014 &&& μ = 0x2C8014 := by decide) : (State.stepIn i s).kept μ = s.kept μ := kept_mono hμ (by
  unfold State.stepIn
  repeat' (first | with_reducible rfl | (simp; done) | split | (refine (kept_foldl (fun _ _ => ?_) _ _).trans ?_) | (simp; fail_if_success done)))

@[simp] theorem State.busSaturated_kept {μ : Nat} (b : Nat) (n : Nat) (clip : Bool) (s : State) (hμ : 0x2C8014 &&& μ = 0x2C8014 := by decide) : (State.busSaturated b n clip s).kept μ = s.kept μ := kept_mono hμ (by
  unfold State.busSaturated
  repeat' (first | with_reducible rfl | (simp; done) | split | (refine (kept_foldl (fun _ _ => ?_) _ _).trans ?_) | (simp; fail_if_success done)))

@[simp] theorem State.busBlocked_kept {μ : Nat} (b : Nat) (entries : List Nat) (s : State) (hμ : 0x2C8014 &&& μ = 0x2C8014 := by decide) : (State.busBlocked b entries s).kept μ = s.kept μ := kept_mono hμ (by
  unfold State.busBlocked
  repeat' (first | with_reducible rfl | (simp; done) | split | (refine (kept_foldl (fun _ _ => ?_) _ _).trans ?_) | (simp; fail_if_success done)))

@[simp] theorem State.stepBus_kept {μ : Nat} (b : Nat) (s : State) (hμ : 0x2C8014 &&& μ = 0x2C8014 := by decide) : (State.stepBus b s).1.kept μ = s.kept μ := kept_mono hμ (by
  unfold State.stepBus
  repeat' (first | with_reducible rfl | (simp; done) | split | (refine (kept_foldl (fun _ _ => ?_) _ _).trans ?_) | (simp; fail_if_success done)))

@[simp] theorem State.busOff_kept {μ : Nat} (b : Nat) (s : State) (hμ : 0x8000 &&& μ = 0x8000 := by decide) : (State.busOff b s).kept μ = s.kept μ := kept_mono hμ (by
  unfold State.busOff
  repeat' (first | with_reducible rfl | (simp; done) | split | (refine (kept_foldl (fun _ _ => ?_) _ _).trans ?_) | (simp; fail_if_success done)))

@[simp] theorem State.stepBuses_kept {μ : Nat} (s : State) (hμ : 0x2C8014 &&& μ = 0x2C8014 := by decide) : (State.stepBuses s).1.kept μ = s.kept μ := kept_mono hμ (by
  have h : ∀ (l : Tab (BitVec 256)) (a : State × Tab (List Int)), (l.foldl (fun a x =>
      if fbit x.2 Bus.busEn then let (s1, out) := a.1.stepBus x.1
        (s1, tset intsReset a.2 x.1 out)
      else (a.1.busOff x.1, a.2)) a).1.kept 0x2C8014 = a.1.kept 0x2C8014 := by
    intro l
    induction l with
    | nil => intro a; rfl
    | cons x l ih => intro a; rw [List.foldl_cons, ih]; split <;> simp
  exact h _ _)

@[simp] theorem State.overdue_kept {μ : Nat} (r : Nat) (s : State) (hμ : 0x2C21D4 &&& μ = 0x2C21D4 := by decide) : (State.overdue r s).kept μ = s.kept μ := kept_mono hμ (by
  unfold State.overdue
  simp only
  split
  · rfl
  · rw [State.raise0_kept]; exact kept_foldl (fun _ _ => by simp) _ _)

@[simp] theorem State.stepOut_kept {μ : Nat} (old : State) (buses : Tab (List Int)) (o : Nat) (s : State) (hμ : 0x2CA1D4 &&& μ = 0x2CA1D4 := by decide) : (State.stepOut old buses o s).kept μ = s.kept μ := kept_mono hμ (by
  unfold State.stepOut
  repeat' (first | with_reducible rfl | (simp; done) | split | (refine (kept_foldl (fun _ _ => ?_) _ _).trans ?_) | (simp; fail_if_success done)))

@[simp] theorem State.outOff_kept {μ : Nat} (o : Nat) (s : State) (hμ : 0x8000 &&& μ = 0x8000 := by decide) : (State.outOff o s).kept μ = s.kept μ := kept_mono hμ (by
  unfold State.outOff
  repeat' (first | with_reducible rfl | (simp; done) | split | (refine (kept_foldl (fun _ _ => ?_) _ _).trans ?_) | (simp; fail_if_success done)))

@[simp] theorem State.setCalState_kept {μ : Nat} (v : Nat) (s : State) (hμ : 0x8000 &&& μ = 0x8000 := by decide) : (State.setCalState v s).kept μ = s.kept μ := kept_mono hμ (by
  unfold State.setCalState
  repeat' (first | with_reducible rfl | (simp; done) | split | (refine (kept_foldl (fun _ _ => ?_) _ _).trans ?_) | (simp; fail_if_success done)))

@[simp] theorem State.calIdle_kept {μ : Nat} (s : State) (hμ : 0x8200 &&& μ = 0x8200 := by decide) : (State.calIdle s).kept μ = s.kept μ := kept_mono hμ (by
  unfold State.calIdle
  repeat' (first | with_reducible rfl | (simp; done) | split | (refine (kept_foldl (fun _ _ => ?_) _ _).trans ?_) | (simp; fail_if_success done)))

@[simp] theorem State.calTick_kept {μ : Nat} (s : State) (hμ : 0x2CA3D4 &&& μ = 0x2CA3D4 := by decide) : (State.calTick s).kept μ = s.kept μ := kept_mono hμ (by
  unfold State.calTick
  simp only
  refine (kept_foldl (fun _ _ => by split <;> simp) _ _).trans ?_
  rw [State.stepBuses_kept]
  refine (kept_foldl (fun _ _ => by split <;> simp) _ _).trans ?_
  refine (kept_foldl (fun _ _ => by simp) _ _).trans ?_
  simp)

theorem execCalliopeTick_keeps {μ : Nat} (s0 : State) (hμ : 0x2CA3D4 &&& μ = 0x2CA3D4 := by decide) : Keeps μ (s0.kept μ) (execCalliopeTick s0) := Keeps.mono hμ (by
  unfold execCalliopeTick
  (repeat' (first | with_reducible rfl | trivial | (simp; done) | (refine keeps_checked ?_) | split | (simp only [keeps_done]; fail_if_success done) | (refine (kept_foldl (fun _ _ => ?_) _ _).trans ?_) | (simp; fail_if_success done))); done)

theorem execTapCrossfadeEnd_keeps {μ : Nat} (slot : Fin 1024) (tap : Fin 4) (s0 : State) (hμ : 0x200 &&& μ = 0x200 := by decide) : Keeps μ (s0.kept μ) (execTapCrossfadeEnd slot tap s0) := Keeps.mono hμ (by
  unfold execTapCrossfadeEnd
  (repeat' (first | with_reducible rfl | trivial | (simp; done) | (refine keeps_checked ?_) | split | (simp only [keeps_done]; fail_if_success done) | (refine (kept_foldl (fun _ _ => ?_) _ _).trans ?_) | (simp; fail_if_success done))); done)

theorem execCalCoeffParity_keeps {μ : Nat} (what : CalCoeff) (s0 : State) (hμ : 0x2C8014 &&& μ = 0x2C8014 := by decide) : Keeps μ (s0.kept μ) (execCalCoeffParity what s0) := Keeps.mono hμ (by
  unfold execCalCoeffParity
  (repeat' (first | with_reducible rfl | trivial | (simp; done) | (refine keeps_checked ?_) | split | (simp only [keeps_done]; fail_if_success done) | (refine (kept_foldl (fun _ _ => ?_) _ _).trans ?_) | (simp; fail_if_success done))); done)

end Sys2Proof.Machine
end

