-- ==== Sys2Proof/Laws/KeptTroupe.lean ====
section
/-! SUPPORT. What is left as it is by links, Troupe and twins. -/

set_option Elab.async false

namespace Sys2Proof.Machine

open Sys2Proof

/-! ### Links -/

@[simp] theorem State.linkF_kept {μ : Nat} (k : Nat) (f : Fld) (v : Nat) (s : State) (hμ : 0x40000 &&& μ = 0x40000 := by decide) : (State.linkF k f v s).kept μ = s.kept μ := kept_mono hμ (by
  unfold State.linkF
  repeat' (first | with_reducible rfl | (simp; done) | split | (refine (kept_foldl (fun _ _ => ?_) _ _).trans ?_) | (simp; fail_if_success done)))

@[simp] theorem State.laneF_kept {μ : Nat} (l : Nat) (f : Fld) (v : Nat) (s : State) (hμ : 0x40000 &&& μ = 0x40000 := by decide) : (State.laneF l f v s).kept μ = s.kept μ := kept_mono hμ (by
  unfold State.laneF
  repeat' (first | with_reducible rfl | (simp; done) | split | (refine (kept_foldl (fun _ _ => ?_) _ _).trans ?_) | (simp; fail_if_success done)))

@[simp] theorem State.updateReach_kept {μ : Nat} (k : Nat) (s : State) (hμ : 0x6F0014 &&& μ = 0x6F0014 := by decide) : (State.updateReach k s).kept μ = s.kept μ := kept_mono hμ (by
  unfold State.updateReach
  repeat' (first | with_reducible rfl | (simp; done) | split | (refine (kept_foldl (fun _ _ => ?_) _ _).trans ?_) | (simp; fail_if_success done)))

@[simp] theorem State.refit_kept {μ : Nat} (k : Nat) (s : State) (hμ : 0x40000 &&& μ = 0x40000 := by decide) : (State.refit k s).1.kept μ = s.kept μ := kept_mono hμ (by
  unfold State.refit
  repeat' (first | with_reducible rfl | (simp; done) | split | (refine (kept_foldl (fun _ _ => ?_) _ _).trans ?_) | (simp; fail_if_success done)))

@[simp] theorem State.dropTraffic_kept {μ : Nat} (k : Nat) (s : State) (hμ : 0x420C0 &&& μ = 0x420C0 := by decide) : (State.dropTraffic k s).kept μ = s.kept μ := kept_mono hμ (by
  unfold State.dropTraffic
  repeat' (first | with_reducible rfl | (simp; done) | split | (refine (kept_foldl (fun _ _ => ?_) _ _).trans ?_) | (simp; fail_if_success done)))

@[simp] theorem State.startLink_kept {μ : Nat} (k) (s : State) (hμ : 0x40000 &&& μ = 0x40000 := by decide) : (State.startLink k s).kept μ = s.kept μ := kept_mono hμ (by
  unfold State.startLink
  extract_lets order lanes sense _ s1 s2
  have h2 : s2.kept 0x40000 = s.kept 0x40000 := (kept_foldl (fun _ _ => by simp) _ _).trans (by simp [s1])
  simp [h2])

@[simp] theorem State.sayDown_kept {μ : Nat} (k : Nat) (reason : Nat) (s : State) (hμ : 0x2C0014 &&& μ = 0x2C0014 := by decide) : (State.sayDown k reason s).kept μ = s.kept μ := kept_mono hμ (by
  unfold State.sayDown
  repeat' (first | with_reducible rfl | (simp; done) | split | (refine (kept_foldl (fun _ _ => ?_) _ _).trans ?_) | (simp; fail_if_success done)))

@[simp] theorem State.holdLink_kept {μ : Nat} (k : Nat) (s : State) (hμ : 0x40000 &&& μ = 0x40000 := by decide) : (State.holdLink k s).kept μ = s.kept μ := kept_mono hμ (by
  unfold State.holdLink
  repeat' (first | with_reducible rfl | (simp; done) | split | (refine (kept_foldl (fun _ _ => ?_) _ _).trans ?_) | (simp; fail_if_success done)))

@[simp] theorem State.fallLink_kept {μ : Nat} (k : Nat) (s : State) (hμ : 0x6F24D4 &&& μ = 0x6F24D4 := by decide) : (State.fallLink k s).kept μ = s.kept μ := kept_mono hμ (by
  unfold State.fallLink
  repeat' (first | with_reducible rfl | (simp; done) | split | (refine (kept_foldl (fun _ _ => ?_) _ _).trans ?_) | (simp; fail_if_success done)))

@[simp] theorem State.loseLink_kept {μ : Nat} (k : Nat) (s : State) (hμ : 0x6F24D4 &&& μ = 0x6F24D4 := by decide) : (State.loseLink k s).kept μ = s.kept μ := kept_mono hμ (by
  unfold State.loseLink
  repeat' (first | with_reducible rfl | (simp; done) | split | (refine (kept_foldl (fun _ _ => ?_) _ _).trans ?_) | (simp; fail_if_success done)))

@[simp] theorem State.stopLink_kept {μ : Nat} (k) (s : State) (hμ : 0x6F24D4 &&& μ = 0x6F24D4 := by decide) : (State.stopLink k s).kept μ = s.kept μ := kept_mono hμ (by
  unfold State.stopLink
  extract_lets s1 lanes s2 _
  have h2 : s2.kept 0x6F24D4 = s.kept 0x6F24D4 := (kept_foldl (fun _ _ => by simp) _ _).trans (by simp [s1])
  simp [h2])

@[simp] theorem State.syncLink_kept {μ : Nat} (k : Nat) (s : State) (hμ : 0x6F24D4 &&& μ = 0x6F24D4 := by decide) : (State.syncLink k s).kept μ = s.kept μ := kept_mono hμ (by
  unfold State.syncLink
  repeat' (first | with_reducible rfl | (simp; done) | split | (refine (kept_foldl (fun _ _ => ?_) _ _).trans ?_) | (simp; fail_if_success done)))

theorem execLinkDetect_keeps {μ : Nat} (k : Fin 7) (found : BitVec 8) (s0 : State) (hμ : 0x40000 &&& μ = 0x40000 := by decide) : Keeps μ (s0.kept μ) (execLinkDetect k found s0) := Keeps.mono hμ (by
  unfold execLinkDetect
  extract_lets s v lanes out
  split
  · exact State.kept_fresh ..
  · exact (State.setLinkSt_kept ..).trans ((kept_foldl (fun _ _ => by simp) _ _).trans (State.kept_fresh ..)))

theorem execCapability_keeps {μ : Nat} (k : Fin 7) (cap : CapCell) (s0 : State) (hμ : 0x2C0014 &&& μ = 0x2C0014 := by decide) : Keeps μ (s0.kept μ) (execCapability k cap s0) := Keeps.mono hμ (by
  unfold execCapability
  (repeat' (first | with_reducible rfl | trivial | (simp; done) | (refine keeps_checked ?_) | split | (simp only [keeps_done]; fail_if_success done) | (refine (kept_foldl (fun _ _ => ?_) _ _).trans ?_) | (simp; fail_if_success done))); done)

@[simp] theorem State.stepOn_kept {μ : Nat} (k : Nat) (rate : Nat) (lanes : List Nat) (more : Bool) (s : State) (hμ : 0x40000 &&& μ = 0x40000 := by decide) : (State.stepOn k rate lanes more s).kept μ = s.kept μ := kept_mono hμ (by
  unfold State.stepOn
  repeat' (first | with_reducible rfl | (simp; done) | split | (refine (kept_foldl (fun _ _ => ?_) _ _).trans ?_) | (simp; fail_if_success done)))

@[simp] theorem State.sendDecision_kept {μ : Nat} (k : Nat) (rate : Nat) (lanes : List Nat) (s : State) (hμ : 0x40000 &&& μ = 0x40000 := by decide) : (State.sendDecision k rate lanes s).kept μ = s.kept μ := kept_mono hμ (by
  unfold State.sendDecision
  repeat' (first | with_reducible rfl | (simp; done) | split | (refine (kept_foldl (fun _ _ => ?_) _ _).trans ?_) | (simp; fail_if_success done)))

theorem execRateStep_keeps {μ : Nat} (k : Fin 7) (eyes : List Nat) (s0 : State) (hμ : 0x40000 &&& μ = 0x40000 := by decide) : Keeps μ (s0.kept μ) (execRateStep k eyes s0) := Keeps.mono hμ (by
  unfold execRateStep
  extract_lets s v lanes s1 good next
  have h1 : s1.kept 0x40000 = s0.kept 0x40000 := (kept_foldl (fun _ _ => by simp) _ _).trans (State.kept_fresh ..)
  clear_value s1
  repeat' split
  · exact State.kept_fresh ..
  · exact (State.stepOn_kept ..).trans h1
  · exact h1
  · exact (State.stepOn_kept ..).trans ((State.sendDecision_kept ..).trans h1)
  · exact (State.stepOn_kept ..).trans ((State.sendDecision_kept ..).trans h1))

theorem execBringupDecision_keeps {μ : Nat} (k : Fin 7) (rate : Fin 4) (lanes : BitVec 8) (s0 : State) (hμ : 0x40000 &&& μ = 0x40000 := by decide) : Keeps μ (s0.kept μ) (execBringupDecision k rate lanes s0) := Keeps.mono hμ (by
  unfold execBringupDecision
  (repeat' (first | with_reducible rfl | trivial | (simp; done) | (refine keeps_checked ?_) | split | (simp only [keeps_done]; fail_if_success done) | (refine (kept_foldl (fun _ _ => ?_) _ _).trans ?_) | (simp; fail_if_success done))); done)

theorem execSenseAdapt_keeps {μ : Nat} (k : Fin 7) (inverted : BitVec 8) (order : LaneOrder) (s0 : State) (hμ : 0x2C0014 &&& μ = 0x2C0014 := by decide) :
    Keeps μ (s0.kept μ) (execSenseAdapt k inverted order s0) := Keeps.mono hμ (by
  unfold execSenseAdapt
  extract_lets s v lanes s1 rev s2
  have h1 : s1.kept 0x2C0014 = s0.kept 0x2C0014 := (kept_foldl (fun _ _ => by split <;> simp) _ _).trans (State.kept_fresh ..)
  have h2 : s2.kept 0x2C0014 = s0.kept 0x2C0014 := (kept_foldl (fun _ _ => by simp) _ _).trans h1
  clear_value s1 s2
  split
  · exact State.kept_fresh ..
  · split
    · exact (State.holdLink_kept ..).trans ((State.sayDown_kept ..).trans h1)
    · exact (State.setLinkSt_kept ..).trans h1
    · exact (State.setLinkSt_kept ..).trans h2)

@[simp] theorem State.sayDegraded_kept {μ : Nat} (k : Nat) (lane : Nat) (out : List Nat) (s : State) (hμ : 0x2C0014 &&& μ = 0x2C0014 := by decide) : (State.sayDegraded k lane out s).kept μ = s.kept μ := kept_mono hμ (by
  unfold State.sayDegraded
  repeat' (first | with_reducible rfl | (simp; done) | split | (refine (kept_foldl (fun _ _ => ?_) _ _).trans ?_) | (simp; fail_if_success done)))

@[simp] theorem State.runLink_kept {μ : Nat} (k : Nat) (s : State) (hμ : 0x2C0414 &&& μ = 0x2C0414 := by decide) : (State.runLink k s).kept μ = s.kept μ := kept_mono hμ (by
  unfold State.runLink
  repeat' (first | with_reducible rfl | (simp; done) | split | (refine (kept_foldl (fun _ _ => ?_) _ _).trans ?_) | (simp; fail_if_success done)))

@[simp] theorem State.callSpare_kept {μ : Nat} (k : Nat) (s : State) (hμ : 0x40000 &&& μ = 0x40000 := by decide) : (State.callSpare k s).kept μ = s.kept μ := kept_mono hμ (by
  unfold State.callSpare
  repeat' (first | with_reducible rfl | (simp; done) | split | (refine (kept_foldl (fun _ _ => ?_) _ _).trans ?_) | (simp; fail_if_success done)))

theorem execLinkAlign_keeps {μ : Nat} (k : Fin 7) (s0 : State) (hμ : 0x6F0414 &&& μ = 0x6F0414 := by decide) : Keeps μ (s0.kept μ) (execLinkAlign k s0) := Keeps.mono hμ (by
  unfold execLinkAlign
  extract_lets s v s1 s2
  have h1 : s1.kept 0x6F0414 = s0.kept 0x6F0414 := (kept_foldl (fun _ _ => by simp) _ _).trans (State.kept_fresh ..)
  split
  · exact State.kept_fresh ..
  · show State.kept 0x6F0414 _ = _
    rw [State.callSpare_kept, State.updateReach_kept, State.runLink_kept]
    exact (State.setLinkSt_kept ..).trans h1)

theorem execLinkRetry_keeps {μ : Nat} (k : Fin 7) (s0 : State) (hμ : 0x40000 &&& μ = 0x40000 := by decide) : Keeps μ (s0.kept μ) (execLinkRetry k s0) := Keeps.mono hμ (by
  unfold execLinkRetry
  (repeat' (first | with_reducible rfl | trivial | (simp; done) | (refine keeps_checked ?_) | split | (simp only [keeps_done]; fail_if_success done) | (refine (kept_foldl (fun _ _ => ?_) _ _).trans ?_) | (simp; fail_if_success done))); done)

@[simp] theorem State.dropLane_kept {μ : Nat} (k : Nat) (l : Nat) (s : State) (hμ : 0x6F24D4 &&& μ = 0x6F24D4 := by decide) : (State.dropLane k l s).kept μ = s.kept μ := kept_mono hμ (by
  unfold State.dropLane
  repeat' (first | with_reducible rfl | (simp; done) | split | (refine (kept_foldl (fun _ _ => ?_) _ _).trans ?_) | (simp; fail_if_success done)))

@[simp] theorem State.failLane_kept {μ : Nat} (k l : Nat) (s : State) (hμ : 0x6F24D4 &&& μ = 0x6F24D4 := by decide) : (State.failLane k l s).kept μ = s.kept μ := kept_mono hμ (by
  unfold State.failLane
  split
  · rfl
  · simp only
    split
    · rw [State.loseLink_kept]; exact (kept_foldl (fun _ _ => by simp) _ _).trans (by simp)
    · simp)

theorem execLaneMarker_keeps {μ : Nat} (lane : Fin 48) (arrived : Bool) (stuffing : Nat) (s0 : State) (hμ : 0x6F24D4 &&& μ = 0x6F24D4 := by decide) : Keeps μ (s0.kept μ) (execLaneMarker lane arrived stuffing s0) := Keeps.mono hμ (by
  unfold execLaneMarker
  (repeat' (first | with_reducible rfl | trivial | (simp; done) | (refine keeps_checked ?_) | split | (simp only [keeps_done]; fail_if_success done) | (refine (kept_foldl (fun _ _ => ?_) _ _).trans ?_) | (simp; fail_if_success done))); done)

theorem execLaneDrop_keeps {μ : Nat} (k : Fin 7) (lane : Fin 48) (s0 : State) (hμ : 0x6F24D4 &&& μ = 0x6F24D4 := by decide) : Keeps μ (s0.kept μ) (execLaneDrop k lane s0) := Keeps.mono hμ (by
  unfold execLaneDrop
  (repeat' (first | with_reducible rfl | trivial | (simp; done) | (refine keeps_checked ?_) | split | (simp only [keeps_done]; fail_if_success done) | (refine (kept_foldl (fun _ _ => ?_) _ _).trans ?_) | (simp; fail_if_success done))); done)

theorem execSpareLaneTrained_keeps {μ : Nat} (k : Fin 7) (lane : Fin 48) (s0 : State) (hμ : 0x2C0414 &&& μ = 0x2C0414 := by decide) : Keeps μ (s0.kept μ) (execSpareLaneTrained k lane s0) := Keeps.mono hμ (by
  unfold execSpareLaneTrained
  (repeat' (first | with_reducible rfl | trivial | (simp; done) | (refine keeps_checked ?_) | split | (simp only [keeps_done]; fail_if_success done) | (refine (kept_foldl (fun _ _ => ?_) _ _).trans ?_) | (simp; fail_if_success done))); done)

theorem execElectricalIdle_keeps {μ : Nat} (lane : Fin 48) (s0 : State) (hμ : 0x40000 &&& μ = 0x40000 := by decide) : Keeps μ (s0.kept μ) (execElectricalIdle lane s0) := Keeps.mono hμ (by
  unfold execElectricalIdle
  (repeat' (first | with_reducible rfl | trivial | (simp; done) | (refine keeps_checked ?_) | split | (simp only [keeps_done]; fail_if_success done) | (refine (kept_foldl (fun _ _ => ?_) _ _).trans ?_) | (simp; fail_if_success done))); done)

theorem execEyeUpdate_keeps {μ : Nat} (lane : Fin 224) (h : BitVec 8) (v : BitVec 8) (s0 : State) (hμ : 0x2C0014 &&& μ = 0x2C0014 := by decide) : Keeps μ (s0.kept μ) (execEyeUpdate lane h v s0) := Keeps.mono hμ (by
  unfold execEyeUpdate
  (repeat' (first | with_reducible rfl | trivial | (simp; done) | (refine keeps_checked ?_) | split | (simp only [keeps_done]; fail_if_success done) | (refine (kept_foldl (fun _ _ => ?_) _ _).trans ?_) | (simp; fail_if_success done))); done)

/-! ### Troupe -/

@[simp] theorem troupeWriteDo_kept {μ : Nat} (e : BitVec 128) (s : State) (hμ : 0x6F24D4 &&& μ = 0x6F24D4 := by decide) : (troupeWriteDo e s).kept μ = s.kept μ := kept_mono hμ (by
  unfold troupeWriteDo
  repeat' (first | with_reducible rfl | (simp; done) | split | (refine (kept_foldl (fun _ _ => ?_) _ _).trans ?_) | (simp; fail_if_success done)))

theorem cmdTroupeWrite_ok {μ : Nat} (q : Req) (s : State) (hμ : 0x6F24D4 &&& μ = 0x6F24D4 := by decide) : OkKept μ (s.kept μ) (fun x => x.1) (cmdTroupeWrite q s) := OkKept.mono hμ (by
  unfold cmdTroupeWrite
  (repeat' (first | exact OkKept.error _ | (refine OkKept.pure ?_; (first | with_reducible rfl | (simp; done) | (simp_all; done) | (split <;> simp_all; done))) | (refine OkKept.ok ?_; (first | with_reducible rfl | (simp; done) | (simp_all; done))) | split | (refine OkKept.bind (fun _ _ => ?_)) | (simp only; fail_if_success done))); done)

theorem execTroupeWrite_keeps {μ : Nat} (q : Req) (s : State) (hμ : 0x6F24D4 &&& μ = 0x6F24D4 := by decide) : Keeps μ (s.kept μ) (execTroupeWrite q s) := Keeps.mono hμ (by
  unfold execTroupeWrite; exact serve_keeps _ _ _ _ (fun _ _ => cmdTroupeWrite_ok ..))

@[simp] theorem linkWriteDo_kept {μ : Nat} (k : Nat) (e : BitVec 128) (s : State) (hμ : 0x6F24D4 &&& μ = 0x6F24D4 := by decide) : (linkWriteDo k e s).kept μ = s.kept μ := kept_mono hμ (by
  unfold linkWriteDo
  repeat' (first | with_reducible rfl | (simp; done) | split | (refine (kept_foldl (fun _ _ => ?_) _ _).trans ?_) | (simp; fail_if_success done)))

theorem cmdLinkWrite_ok {μ : Nat} (q : Req) (s : State) (hμ : 0x6F24D4 &&& μ = 0x6F24D4 := by decide) : OkKept μ (s.kept μ) (fun x => x.1) (cmdLinkWrite q s) := OkKept.mono hμ (by
  unfold cmdLinkWrite
  (repeat' (first | exact OkKept.error _ | (refine OkKept.pure ?_; (first | with_reducible rfl | (simp; done) | (simp_all; done) | (split <;> simp_all; done))) | (refine OkKept.ok ?_; (first | with_reducible rfl | (simp; done) | (simp_all; done))) | split | (refine OkKept.bind (fun _ _ => ?_)) | (simp only; fail_if_success done))); done)

theorem execLinkWrite_keeps {μ : Nat} (q : Req) (s : State) (hμ : 0x6F24D4 &&& μ = 0x6F24D4 := by decide) : Keeps μ (s.kept μ) (execLinkWrite q s) := Keeps.mono hμ (by
  unfold execLinkWrite; exact serve_keeps _ _ _ _ (fun _ _ => cmdLinkWrite_ok ..))

theorem cmdLaneWrite_ok {μ : Nat} (q : Req) (s : State) (hμ : 0x40000 &&& μ = 0x40000 := by decide) : OkKept μ (s.kept μ) (fun x => x.1) (cmdLaneWrite q s) := OkKept.mono hμ (by
  unfold cmdLaneWrite
  (repeat' (first | exact OkKept.error _ | (refine OkKept.pure ?_; (first | with_reducible rfl | (simp; done) | (simp_all; done) | (split <;> simp_all; done))) | (refine OkKept.ok ?_; (first | with_reducible rfl | (simp; done) | (simp_all; done))) | split | (refine OkKept.bind (fun _ _ => ?_)) | (simp only; fail_if_success done))); done)

theorem execLaneWrite_keeps {μ : Nat} (q : Req) (s : State) (hμ : 0x2C0014 &&& μ = 0x2C0014 := by decide) : Keeps μ (s.kept μ) (execLaneWrite q s) := Keeps.mono hμ (by
  unfold execLaneWrite; exact serve_keeps _ _ _ _ (fun _ _ => cmdLaneWrite_ok ..))

@[simp] theorem troupeClear_kept {μ : Nat} (kind : Nat) (i : Nat) (s : State) (hμ : 0x40000 &&& μ = 0x40000 := by decide) : (troupeClear kind i s).kept μ = s.kept μ := kept_mono hμ (by
  unfold troupeClear
  repeat' (first | with_reducible rfl | (simp; done) | split | (refine (kept_foldl (fun _ _ => ?_) _ _).trans ?_) | (simp; fail_if_success done)))

theorem cmdTroupeRead_ok {μ : Nat} (q : Req) (s : State) (hμ : 0x40000 &&& μ = 0x40000 := by decide) : OkKept μ (s.kept μ) (fun x => x.1) (cmdTroupeRead q s) := OkKept.mono hμ (by
  unfold cmdTroupeRead
  (repeat' (first | exact OkKept.error _ | (refine OkKept.pure ?_; (first | with_reducible rfl | (simp; done) | (simp_all; done) | (split <;> simp_all; done))) | (refine OkKept.ok ?_; (first | with_reducible rfl | (simp; done) | (simp_all; done))) | split | (refine OkKept.bind (fun _ _ => ?_)) | (simp only; fail_if_success done))); done)

theorem execTroupeRead_keeps {μ : Nat} (q : Req) (s : State) (hμ : 0x2C0014 &&& μ = 0x2C0014 := by decide) : Keeps μ (s.kept μ) (execTroupeRead q s) := Keeps.mono hμ (by
  unfold execTroupeRead; exact serve_keeps _ _ _ _ (fun _ _ => cmdTroupeRead_ok ..))

theorem exportAdmit_ok {μ : Nat} (a : ImportArgs) (s : State) (hμ : 0x40200 &&& μ = 0x40200 := by decide) : OkKept μ (s.kept μ) (fun x => x.1) (exportAdmit a s) := OkKept.mono hμ (by
  unfold exportAdmit
  (repeat' (first | exact (claimBeside_ok ..) | (refine OkKept.step (claimBeside_ok ..) (by simp) (fun _ _ => ?_)) | exact OkKept.error _ | (refine OkKept.pure ?_; (first | with_reducible rfl | (simp; done) | (simp_all; done) | (split <;> simp_all; done))) | (refine OkKept.ok ?_; (first | with_reducible rfl | (simp; done) | (simp_all; done))) | split | (refine OkKept.bind (fun _ _ => ?_)) | (simp only; fail_if_success done))); done)

theorem importAdmit_ok {μ : Nat} (a : ImportArgs) (credits : Option Nat) (hops : Nat) (s : State) (hμ : 0x40240 &&& μ = 0x40240 := by decide) : OkKept μ (s.kept μ) (fun x => x.1) (importAdmit a credits hops s) := OkKept.mono hμ (by
  unfold importAdmit
  (repeat' (first | exact (claimBeside_ok ..) | (refine OkKept.step (claimBeside_ok ..) (by simp) (fun _ _ => ?_)) | exact OkKept.error _ | (refine OkKept.pure ?_; (first | with_reducible rfl | (simp; done) | (simp_all; done) | (split <;> simp_all; done))) | (refine OkKept.ok ?_; (first | with_reducible rfl | (simp; done) | (simp_all; done))) | split | (refine OkKept.bind (fun _ _ => ?_)) | (simp only; fail_if_success done))); done)

theorem exportHere_ok {μ : Nat} (a : ImportArgs) (p : List PeerAnswer) (s : State) (hμ : 0x40200 &&& μ = 0x40200 := by decide) : OkKept μ (s.kept μ) (fun x => x.1) (exportHere a p s) := OkKept.mono hμ (OkKept.ite (inMember_ok _ _ _ _ (exportAdmit_ok ..)) (OkKept.ok rfl))

theorem importHere_ok {μ : Nat} (a : ImportArgs) (p : List PeerAnswer) (c : Option Nat) (h : Nat) (s : State) (hμ : 0x40240 &&& μ = 0x40240 := by decide) : OkKept μ (s.kept μ) (fun x => x.1) (importHere a p c h s) := OkKept.mono hμ (OkKept.ite (inMember_ok _ _ _ _ (importAdmit_ok ..)) (OkKept.ok rfl))

theorem cmdTroupeImport_ok {μ : Nat} (peers : List PeerAnswer) (q : Req) (s : State) (hμ : 0x40240 &&& μ = 0x40240 := by decide) :
    OkKept μ (s.kept μ) (fun x => x.1) (cmdTroupeImport peers q s) := OkKept.mono hμ (by
  unfold cmdTroupeImport
  refine OkKept.bind (fun a _ => OkKept.bind (fun _ _ => OkKept.step (exportHere_ok ..) rfl (fun s1 h1 =>
    OkKept.step (importHere_ok ..) h1 (fun s2 h2 => OkKept.bind (fun _ _ => OkKept.pure ?_)))))
  exact (kept_foldl (fun _ _ => State.forwardTo_kept ..) _ _).trans h2)

theorem execTroupeImport_keeps {μ : Nat} (q : Req) (peers : List PeerAnswer) (s : State) (hμ : 0x2C0254 &&& μ = 0x2C0254 := by decide) : Keeps μ (s.kept μ) (execTroupeImport q peers s) := Keeps.mono hμ (by
  unfold execTroupeImport; exact serve_keeps _ _ _ _ (fun _ _ => cmdTroupeImport_ok ..))

@[simp] theorem unexport_kept {μ : Nat} (i : Nat) (s : State) (hμ : 0x40200 &&& μ = 0x40200 := by decide) : (unexport i s).kept μ = s.kept μ := kept_mono hμ (by
  unfold unexport
  repeat' (first | with_reducible rfl | (simp; done) | split | (refine (kept_foldl (fun _ _ => ?_) _ _).trans ?_) | (simp; fail_if_success done)))

@[simp] theorem unimport_kept {μ : Nat} (i : Nat) (r : Nat) (s : State) (hμ : 0x422C0 &&& μ = 0x422C0 := by decide) : (unimport i r s).kept μ = s.kept μ := kept_mono hμ (by
  unfold unimport
  repeat' (first | with_reducible rfl | (simp; done) | split | (refine (kept_foldl (fun _ _ => ?_) _ _).trans ?_) | (simp; fail_if_success done)))

theorem unexportHere_ok {μ : Nat} (a : ImportArgs) (s : State) (hμ : 0x40200 &&& μ = 0x40200 := by decide) : OkKept μ (s.kept μ) id (unexportHere a s) := OkKept.mono hμ (by
  unfold unexportHere
  refine OkKept.ite ?_ (OkKept.ok rfl)
  split
  · exact OkKept.ok (unexport_kept ..)
  · exact OkKept.error _)

theorem unimportHere_ok {μ : Nat} (a : ImportArgs) (s : State) (hμ : 0x422C0 &&& μ = 0x422C0 := by decide) : OkKept μ (s.kept μ) id (unimportHere a s) := OkKept.mono hμ (by
  unfold unimportHere
  refine OkKept.ite ?_ (OkKept.ok rfl)
  split
  · exact OkKept.ok (unimport_kept ..)
  · exact OkKept.error _)

theorem cmdTroupeUnimport_ok {μ : Nat} (peers : List PeerAnswer) (q : Req) (s : State) (hμ : 0x422C0 &&& μ = 0x422C0 := by decide) :
    OkKept μ (s.kept μ) (fun x => x.1) (cmdTroupeUnimport peers q s) := OkKept.mono hμ (by
  unfold cmdTroupeUnimport
  refine OkKept.bind (fun a _ => OkKept.bind (fun _ _ => OkKept.step (unexportHere_ok ..) rfl (fun s1 h1 =>
    OkKept.step (unimportHere_ok ..) h1 (fun s2 h2 => OkKept.bind (fun _ _ => OkKept.pure ?_)))))
  exact (kept_foldl (fun _ _ => State.forwardTo_kept ..) _ _).trans h2)

theorem execTroupeUnimport_keeps {μ : Nat} (q : Req) (peers : List PeerAnswer) (s : State) (hμ : 0x2C22D4 &&& μ = 0x2C22D4 := by decide) : Keeps μ (s.kept μ) (execTroupeUnimport q peers s) := Keeps.mono hμ (by
  unfold execTroupeUnimport; exact serve_keeps _ _ _ _ (fun _ _ => cmdTroupeUnimport_ok ..))

theorem cmdTroupeForward_ok {μ : Nat} (q : Req) (s : State) (hμ : 0x40000 &&& μ = 0x40000 := by decide) : OkKept μ (s.kept μ) Ans.state (cmdTroupeForward q s) := OkKept.mono hμ (by
  unfold cmdTroupeForward
  exact OkKept.bind (fun x _ => OkKept.pure (State.sendMessage_kept ..)))

theorem execTroupeForward_keeps {μ : Nat} (q : Req) (s : State) (hμ : 0x2C0014 &&& μ = 0x2C0014 := by decide) : Keeps μ (s.kept μ) (execTroupeForward q s) := Keeps.mono hμ (by
  unfold execTroupeForward; exact serveAns_keeps _ _ _ _ (fun _ _ => cmdTroupeForward_ok ..))

theorem execForwardedResponse_keeps {μ : Nat} (member : Fin 8) (seq : BitVec 16) (bytes : List Byte) (s0 : State) (hμ : 0x4 &&& μ = 0x4 := by decide) : Keeps μ (s0.kept μ) (execForwardedResponse member seq bytes s0) := Keeps.mono hμ (by
  unfold execForwardedResponse
  (repeat' (first | with_reducible rfl | trivial | (simp; done) | (refine keeps_checked ?_) | split | (simp only [keeps_done]; fail_if_success done) | (refine (kept_foldl (fun _ _ => ?_) _ _).trans ?_) | (simp; fail_if_success done))); done)

@[simp] theorem State.sendTile_kept {μ : Nat} (k d a b) (s : State) (hμ : 0x40000 &&& μ = 0x40000 := by decide) : (State.sendTile k d a b s).kept μ = s.kept μ := kept_mono hμ (by
  unfold State.sendTile
  simp only
  rw [State.sendCell_kept]
  exact (kept_foldl (fun _ _ => State.sendCell_kept ..) _ _).trans (State.sendCell_kept ..))

@[simp] theorem State.exportTile_kept {μ : Nat} (r : Nat) (eseq : BitVec 32) (start : Option Nat) (on : List (Nat × BitVec 128)) (s : State) (hμ : 0x2C0254 &&& μ = 0x2C0254 := by decide) : (State.exportTile r eseq start on s).kept μ = s.kept μ := kept_mono hμ (by
  unfold State.exportTile
  repeat' (first | with_reducible rfl | (simp; done) | split | (refine (kept_foldl (fun _ _ => ?_) _ _).trans ?_) | (simp; fail_if_success done)))

@[simp] theorem State.drainExports_kept {μ : Nat} (r n : Nat) (s : State) (hμ : 0x2C0254 &&& μ = 0x2C0254 := by decide) : (State.drainExports r n s).kept μ = s.kept μ := kept_mono hμ (by
  induction n generalizing s with
  | zero => rfl
  | succ n ih =>
    unfold State.drainExports
    split
    · rfl
    · exact (ih _).trans ((State.putAbandon_kept ..).trans (State.setOutq_kept ..))
    · simp only
      split
      · exact (ih _).trans (State.setOutq_kept ..)
      · split
        · exact (ih _).trans ((State.exportTile_kept ..).trans (State.setOutq_kept ..))
        · rfl)

@[simp] theorem State.feedExports_kept {μ : Nat} (r : Nat) (eseq : BitVec 32) (s : State) (hμ : 0x2C0254 &&& μ = 0x2C0254 := by decide) : (State.feedExports r eseq s).kept μ = s.kept μ := kept_mono hμ (by
  unfold State.feedExports
  repeat' (first | with_reducible rfl | (simp; done) | split | (refine (kept_foldl (fun _ _ => ?_) _ _).trans ?_) | (simp; fail_if_success done)))

@[simp] theorem State.onImp_kept {μ : Nat} (i : Nat) (f : ImpSt → ImpSt) (s : State) (hμ : 0x40000 &&& μ = 0x40000 := by decide) : (State.onImp i f s).kept μ = s.kept μ := kept_mono hμ (by
  unfold State.onImp
  repeat' (first | with_reducible rfl | (simp; done) | split | (refine (kept_foldl (fun _ _ => ?_) _ _).trans ?_) | (simp; fail_if_success done)))

@[simp] theorem State.importWrite_kept {μ : Nat} (i : Nat) (r : Nat) (l : Nat) (bytes : List Byte) (fin : Bool) (bad : Bool) (s : State) (hμ : 0x2C20D4 &&& μ = 0x2C20D4 := by decide) : (State.importWrite i r l bytes fin bad s).kept μ = s.kept μ := kept_mono hμ (by
  unfold State.importWrite
  repeat' (first | with_reducible rfl | (simp; done) | split | (refine (kept_foldl (fun _ _ => ?_) _ _).trans ?_) | (simp; fail_if_success done)))

@[simp] theorem State.importGap_kept {μ : Nat} (i : Nat) (r : Nat) (l : Nat) (n : Nat) (s : State) (hμ : 0x2C20D4 &&& μ = 0x2C20D4 := by decide) : (State.importGap i r l n s).kept μ = s.kept μ := kept_mono hμ (by
  unfold State.importGap
  repeat' (first | with_reducible rfl | (simp; done) | split | (refine (kept_foldl (fun _ _ => ?_) _ _).trans ?_) | (simp; fail_if_success done)))

@[simp] theorem State.importTime_kept {μ : Nat} (r : Nat) (time : Nat) (s : State) (hμ : 0x2C0454 &&& μ = 0x2C0454 := by decide) : (State.importTime r time s).kept μ = s.kept μ := kept_mono hμ (by
  unfold State.importTime
  repeat' (first | with_reducible rfl | (simp; done) | split | (refine (kept_foldl (fun _ _ => ?_) _ _).trans ?_) | (simp; fail_if_success done)))

@[simp] theorem State.importTile_kept {μ : Nat} (i : Nat) (l : Nat) (c : TileCells) (s : State) (hμ : 0x2C24D4 &&& μ = 0x2C24D4 := by decide) : (State.importTile i l c s).kept μ = s.kept μ := kept_mono hμ (by
  unfold State.importTile
  repeat' (first | with_reducible rfl | (simp; done) | split | (refine (kept_foldl (fun _ _ => ?_) _ _).trans ?_) | (simp; fail_if_success done)))

@[simp] theorem State.countCells_kept {μ : Nat} (k : Nat) (c : TileCells) (s : State) (hμ : 0x40000 &&& μ = 0x40000 := by decide) : (State.countCells k c s).kept μ = s.kept μ := kept_mono hμ (by
  unfold State.countCells
  repeat' (first | with_reducible rfl | (simp; done) | split | (refine (kept_foldl (fun _ _ => ?_) _ _).trans ?_) | (simp; fail_if_success done)))

theorem execImportTile_keeps {μ : Nat} (i : Fin 4096) (cells : TileCells) (s0 : State) (hμ : 0x2C24D4 &&& μ = 0x2C24D4 := by decide) : Keeps μ (s0.kept μ) (execImportTile i cells s0) := Keeps.mono hμ (by
  unfold execImportTile
  (repeat' (first | with_reducible rfl | trivial | (simp; done) | (refine keeps_checked ?_) | split | (simp only [keeps_done]; fail_if_success done) | (refine (kept_foldl (fun _ _ => ?_) _ _).trans ?_) | (simp; fail_if_success done))); done)

theorem execAbandon_keeps {μ : Nat} (i : Fin 4096) (skipped : BitVec 32) (resume : BitVec 32) (s0 : State) (hμ : 0x2C20D4 &&& μ = 0x2C20D4 := by decide) : Keeps μ (s0.kept μ) (execAbandon i skipped resume s0) := Keeps.mono hμ (by
  unfold execAbandon
  (repeat' (first | with_reducible rfl | trivial | (simp; done) | (refine keeps_checked ?_) | split | (simp only [keeps_done]; fail_if_success done) | (refine (kept_foldl (fun _ _ => ?_) _ _).trans ?_) | (simp; fail_if_success done))); done)

@[simp] theorem State.sendTime_kept {μ : Nat} (k : Nat) (s : State) (hμ : 0x40000 &&& μ = 0x40000 := by decide) : (State.sendTime k s).kept μ = s.kept μ := kept_mono hμ (by
  unfold State.sendTime
  repeat' (first | with_reducible rfl | (simp; done) | split | (refine (kept_foldl (fun _ _ => ?_) _ _).trans ?_) | (simp; fail_if_success done)))

theorem execTimeCellSend_keeps {μ : Nat} (k : Fin 8) (s0 : State) (hμ : 0x40000 &&& μ = 0x40000 := by decide) : Keeps μ (s0.kept μ) (execTimeCellSend k s0) := Keeps.mono hμ (by
  unfold execTimeCellSend
  (repeat' (first | with_reducible rfl | trivial | (simp; done) | (refine keeps_checked ?_) | split | (simp only [keeps_done]; fail_if_success done) | (refine (kept_foldl (fun _ _ => ?_) _ _).trans ?_) | (simp; fail_if_success done))); done)

@[simp] theorem State.takeTime_kept {μ : Nat} (k : Nat) (c : TimeCell) (s : State) (hμ : 0x40000 &&& μ = 0x40000 := by decide) : (State.takeTime k c s).kept μ = s.kept μ := kept_mono hμ (by
  unfold State.takeTime
  repeat' (first | with_reducible rfl | (simp; done) | split | (refine (kept_foldl (fun _ _ => ?_) _ _).trans ?_) | (simp; fail_if_success done)))

@[simp] theorem State.followLeader_kept {μ : Nat} (o : Int) (s : State) (hμ : 0x6F0015 &&& μ = 0x6F0015 := by decide) : (State.followLeader o s).kept μ = s.kept μ := kept_mono hμ (by
  unfold State.followLeader
  repeat' (first | with_reducible rfl | (simp; done) | split | (refine (kept_foldl (fun _ _ => ?_) _ _).trans ?_) | (simp; fail_if_success done)))

@[simp] theorem State.troupeTime_kept {μ : Nat} (k c) (s : State) (hμ : 0x6F0015 &&& μ = 0x6F0015 := by decide) : (State.troupeTime k c s).kept μ = s.kept μ := kept_mono hμ (by
  unfold State.troupeTime
  extract_lets off s1 _ s2 s3
  have h1 : s1.kept 0x6F0015 = s.kept 0x6F0015 := (State.updateReach_kept ..).trans (State.takeTime_kept ..)
  have h3 : s3.kept 0x6F0015 = s.kept 0x6F0015 := (State.candUp_kept ..).trans ((State.setCandSt_kept ..).trans h1)
  clear_value off s3
  split
  · exact h1
  · split
    · exact (State.followLeader_kept ..).trans h3
    · exact h3)

/-! ### Twin -/

@[simp] theorem State.twinF_kept {μ : Nat} (f : Fld) (v : Nat) (s : State) (hμ : 0x80000 &&& μ = 0x80000 := by decide) : (State.twinF f v s).kept μ = s.kept μ := kept_mono hμ (by
  unfold State.twinF
  repeat' (first | with_reducible rfl | (simp; done) | split | (refine (kept_foldl (fun _ _ => ?_) _ _).trans ?_) | (simp; fail_if_success done)))

@[simp] theorem State.unsync_kept {μ : Nat} (reason : Nat) (s : State) (hμ : 0x2C0014 &&& μ = 0x2C0014 := by decide) : (State.unsync reason s).kept μ = s.kept μ := kept_mono hμ (by
  unfold State.unsync
  repeat' (first | with_reducible rfl | (simp; done) | split | (refine (kept_foldl (fun _ _ => ?_) _ _).trans ?_) | (simp; fail_if_success done)))

@[simp] theorem twinWriteDo_kept {μ : Nat} (e : BitVec 256) (s : State) (hμ : 0xC0000 &&& μ = 0xC0000 := by decide) : (twinWriteDo e s).kept μ = s.kept μ := kept_mono hμ (by
  unfold twinWriteDo
  repeat' (first | with_reducible rfl | (simp; done) | split | (refine (kept_foldl (fun _ _ => ?_) _ _).trans ?_) | (simp; fail_if_success done)))

theorem cmdTwinWrite_ok {μ : Nat} (q : Req) (s : State) (hμ : 0xC0000 &&& μ = 0xC0000 := by decide) : OkKept μ (s.kept μ) (fun x => x.1) (cmdTwinWrite q s) := OkKept.mono hμ (by
  unfold cmdTwinWrite
  (repeat' (first | exact OkKept.error _ | (refine OkKept.pure ?_; (first | with_reducible rfl | (simp; done) | (simp_all; done) | (split <;> simp_all; done))) | (refine OkKept.ok ?_; (first | with_reducible rfl | (simp; done) | (simp_all; done))) | split | (refine OkKept.bind (fun _ _ => ?_)) | (simp only; fail_if_success done))); done)

theorem execTwinWrite_keeps {μ : Nat} (q : Req) (s : State) (hμ : 0x2C0014 &&& μ = 0x2C0014 := by decide) : Keeps μ (s.kept μ) (execTwinWrite q s) := Keeps.mono hμ (by
  unfold execTwinWrite; exact serve_keeps _ _ _ _ (fun _ _ => cmdTwinWrite_ok ..))

theorem cmdTwinRead_ok {μ : Nat} (q : Req) (s : State) (hμ : 0x80000 &&& μ = 0x80000 := by decide) : OkKept μ (s.kept μ) (fun x => x.1) (cmdTwinRead q s) := OkKept.mono hμ (by
  unfold cmdTwinRead
  (repeat' (first | exact OkKept.error _ | (refine OkKept.pure ?_; (first | with_reducible rfl | (simp; done) | (simp_all; done) | (split <;> simp_all; done))) | (refine OkKept.ok ?_; (first | with_reducible rfl | (simp; done) | (simp_all; done))) | split | (refine OkKept.bind (fun _ _ => ?_)) | (simp only; fail_if_success done))); done)

theorem execTwinRead_keeps {μ : Nat} (q : Req) (s : State) (hμ : 0x2C0014 &&& μ = 0x2C0014 := by decide) : Keeps μ (s.kept μ) (execTwinRead q s) := Keeps.mono hμ (by
  unfold execTwinRead; exact serve_keeps _ _ _ _ (fun _ _ => cmdTwinRead_ok ..))

theorem cmdTwinSwap_ok {μ : Nat} (q : Req) (s : State) (hμ : 0x2C0014 &&& μ = 0x2C0014 := by decide) : OkKept μ (s.kept μ) (fun x => x.1) (cmdTwinSwap q s) := OkKept.mono hμ (by
  unfold cmdTwinSwap
  (repeat' (first | exact OkKept.error _ | (refine OkKept.pure ?_; (first | with_reducible rfl | (simp; done) | (simp_all; done) | (split <;> simp_all; done))) | (refine OkKept.ok ?_; (first | with_reducible rfl | (simp; done) | (simp_all; done))) | split | (refine OkKept.bind (fun _ _ => ?_)) | (simp only; fail_if_success done))); done)

theorem execTwinSwap_keeps {μ : Nat} (q : Req) (s : State) (hμ : 0x2C0014 &&& μ = 0x2C0014 := by decide) : Keeps μ (s.kept μ) (execTwinSwap q s) := Keeps.mono hμ (by
  unfold execTwinSwap; exact serve_keeps _ _ _ _ (fun _ _ => cmdTwinSwap_ok ..))

@[simp] theorem State.setRole_kept {μ : Nat} (role : Nat) (sync : Nat) (s : State) (hμ : 0x80000 &&& μ = 0x80000 := by decide) : (State.setRole role sync s).kept μ = s.kept μ := kept_mono hμ (by
  unfold State.setRole
  repeat' (first | with_reducible rfl | (simp; done) | split | (refine (kept_foldl (fun _ _ => ?_) _ _).trans ?_) | (simp; fail_if_success done)))

@[simp] theorem State.isolateTwin_kept {μ : Nat} (reason : Nat) (s : State) (hμ : 0x2C0014 &&& μ = 0x2C0014 := by decide) : (State.isolateTwin reason s).kept μ = s.kept μ := kept_mono hμ (by
  unfold State.isolateTwin
  repeat' (first | with_reducible rfl | (simp; done) | split | (refine (kept_foldl (fun _ _ => ?_) _ _).trans ?_) | (simp; fail_if_success done)))

@[simp] theorem State.chooseRole_kept {μ : Nat} (s : State) (hμ : 0x2C0014 &&& μ = 0x2C0014 := by decide) : (State.chooseRole s).kept μ = s.kept μ := kept_mono hμ (by
  unfold State.chooseRole
  repeat' (first | with_reducible rfl | (simp; done) | split | (refine (kept_foldl (fun _ _ => ?_) _ _).trans ?_) | (simp; fail_if_success done)))

theorem execRoleChoice_keeps {μ : Nat} (s0 : State) (hμ : 0x2C0014 &&& μ = 0x2C0014 := by decide) : Keeps μ (s0.kept μ) (execRoleChoice s0) := Keeps.mono hμ (by
  unfold execRoleChoice
  (repeat' (first | with_reducible rfl | trivial | (simp; done) | (refine keeps_checked ?_) | split | (simp only [keeps_done]; fail_if_success done) | (refine (kept_foldl (fun _ _ => ?_) _ _).trans ?_) | (simp; fail_if_success done))); done)

@[simp] theorem State.decideTake_kept {μ : Nat} (trigger : Nat) (y : Nat) (s : State) (hμ : 0x80000 &&& μ = 0x80000 := by decide) : (State.decideTake trigger y s).kept μ = s.kept μ := kept_mono hμ (by
  unfold State.decideTake
  repeat' (first | with_reducible rfl | (simp; done) | split | (refine (kept_foldl (fun _ _ => ?_) _ _).trans ?_) | (simp; fail_if_success done)))

theorem execHeartbeatSend_keeps {μ : Nat} (s0 : State) (hμ : 0xC0000 &&& μ = 0xC0000 := by decide) : Keeps μ (s0.kept μ) (execHeartbeatSend s0) := Keeps.mono hμ (by
  unfold execHeartbeatSend
  (repeat' (first | with_reducible rfl | trivial | (simp; done) | (refine keeps_checked ?_) | split | (simp only [keeps_done]; fail_if_success done) | (refine (kept_foldl (fun _ _ => ?_) _ _).trans ?_) | (simp; fail_if_success done))); done)

@[simp] theorem State.onPath_kept {μ : Nat} (b : Bool) (f : PathSt → PathSt) (s : State) (hμ : 0x80000 &&& μ = 0x80000 := by decide) : (State.onPath b f s).kept μ = s.kept μ := kept_mono hμ (by
  unfold State.onPath
  repeat' (first | with_reducible rfl | (simp; done) | split | (refine (kept_foldl (fun _ _ => ?_) _ _).trans ?_) | (simp; fail_if_success done)))

@[simp] theorem State.hearPath_kept {μ : Nat} (b : Bool) (s : State) (hμ : 0x2C0014 &&& μ = 0x2C0014 := by decide) : (State.hearPath b s).kept μ = s.kept μ := kept_mono hμ (by
  unfold State.hearPath
  repeat' (first | with_reducible rfl | (simp; done) | split | (refine (kept_foldl (fun _ _ => ?_) _ _).trans ?_) | (simp; fail_if_success done)))

@[simp] theorem State.hearSync_kept {μ : Nat} (bytes : List Byte) (s : State) (hμ : 0x2C0014 &&& μ = 0x2C0014 := by decide) : (State.hearSync bytes s).kept μ = s.kept μ := kept_mono hμ (by
  unfold State.hearSync
  repeat' (first | with_reducible rfl | (simp; done) | split | (refine (kept_foldl (fun _ _ => ?_) _ _).trans ?_) | (simp; fail_if_success done)))

@[simp] theorem State.hearDecide_kept {μ : Nat} (bytes : List Byte) (s : State) (hμ : 0x2C0014 &&& μ = 0x2C0014 := by decide) : (State.hearDecide bytes s).kept μ = s.kept μ := kept_mono hμ (by
  unfold State.hearDecide
  repeat' (first | with_reducible rfl | (simp; done) | split | (refine (kept_foldl (fun _ _ => ?_) _ _).trans ?_) | (simp; fail_if_success done)))

theorem execHeartbeat_keeps {μ : Nat} (pathB : Bool) (bytes : List Byte) (s0 : State) (hμ : 0x2C0014 &&& μ = 0x2C0014 := by decide) : Keeps μ (s0.kept μ) (execHeartbeat pathB bytes s0) := Keeps.mono hμ (by
  unfold execHeartbeat
  (repeat' (first | with_reducible rfl | trivial | (simp; done) | (refine keeps_checked ?_) | split | (simp only [keeps_done]; fail_if_success done) | (refine (kept_foldl (fun _ _ => ?_) _ _).trans ?_) | (simp; fail_if_success done))); done)

theorem execPathSilence_keeps {μ : Nat} (pathB : Bool) (s0 : State) (hμ : 0x2C0014 &&& μ = 0x2C0014 := by decide) : Keeps μ (s0.kept μ) (execPathSilence pathB s0) := Keeps.mono hμ (by
  unfold execPathSilence
  (repeat' (first | with_reducible rfl | trivial | (simp; done) | (refine keeps_checked ?_) | split | (simp only [keeps_done]; fail_if_success done) | (refine (kept_foldl (fun _ _ => ?_) _ _).trans ?_) | (simp; fail_if_success done))); done)

theorem execTwinOnairInRise_keeps {μ : Nat} (s0 : State) (hμ : 0x80000 &&& μ = 0x80000 := by decide) : Keeps μ (s0.kept μ) (execTwinOnairInRise s0) := Keeps.mono hμ (by
  unfold execTwinOnairInRise
  (repeat' (first | with_reducible rfl | trivial | (simp; done) | (refine keeps_checked ?_) | split | (simp only [keeps_done]; fail_if_success done) | (refine (kept_foldl (fun _ _ => ?_) _ _).trans ?_) | (simp; fail_if_success done))); done)

theorem execTwinOnairInFall_keeps {μ : Nat} (s0 : State) (hμ : 0x80000 &&& μ = 0x80000 := by decide) : Keeps μ (s0.kept μ) (execTwinOnairInFall s0) := Keeps.mono hμ (by
  unfold execTwinOnairInFall
  (repeat' (first | with_reducible rfl | trivial | (simp; done) | (refine keeps_checked ?_) | split | (simp only [keeps_done]; fail_if_success done) | (refine (kept_foldl (fun _ _ => ?_) _ _).trans ?_) | (simp; fail_if_success done))); done)

theorem execOnairConfirmExpiry_keeps {μ : Nat} (s0 : State) (hμ : 0x80000 &&& μ = 0x80000 := by decide) : Keeps μ (s0.kept μ) (execOnairConfirmExpiry s0) := Keeps.mono hμ (by
  unfold execOnairConfirmExpiry
  (repeat' (first | with_reducible rfl | trivial | (simp; done) | (refine keeps_checked ?_) | split | (simp only [keeps_done]; fail_if_success done) | (refine (kept_foldl (fun _ _ => ?_) _ _).trans ?_) | (simp; fail_if_success done))); done)

@[simp] theorem State.sayTakeover_kept {μ : Nat} (trigger : Nat) (y : Nat) (sync : Nat) (s : State) (hμ : 0x2C0014 &&& μ = 0x2C0014 := by decide) : (State.sayTakeover trigger y sync s).kept μ = s.kept μ := kept_mono hμ (by
  unfold State.sayTakeover
  repeat' (first | with_reducible rfl | (simp; done) | split | (refine (kept_foldl (fun _ _ => ?_) _ _).trans ?_) | (simp; fail_if_success done)))

@[simp] theorem State.endShadowTest_kept {μ : Nat} (s : State) (hμ : 0x200004 &&& μ = 0x200004 := by decide) : (State.endShadowTest s).kept μ = s.kept μ := kept_mono hμ (by
  unfold State.endShadowTest
  repeat' (first | with_reducible rfl | (simp; done) | split | (refine (kept_foldl (fun _ _ => ?_) _ _).trans ?_) | (simp; fail_if_success done)))

@[simp] theorem State.becomePrimary_kept {μ : Nat} (y : Nat) (trigger : Nat) (s : State) (hμ : 0x2C0014 &&& μ = 0x2C0014 := by decide) : (State.becomePrimary y trigger s).kept μ = s.kept μ := kept_mono hμ (by
  unfold State.becomePrimary
  repeat' (first | with_reducible rfl | (simp; done) | split | (refine (kept_foldl (fun _ _ => ?_) _ _).trans ?_) | (simp; fail_if_success done)))

@[simp] theorem State.becomeShadow_kept {μ : Nat} (y : Yield) (s : State) (hμ : 0x2C0014 &&& μ = 0x2C0014 := by decide) : (State.becomeShadow y s).kept μ = s.kept μ := kept_mono hμ (by
  unfold State.becomeShadow
  repeat' (first | with_reducible rfl | (simp; done) | split | (refine (kept_foldl (fun _ _ => ?_) _ _).trans ?_) | (simp; fail_if_success done)))

theorem execTakeoverPoint_keeps {μ : Nat} (s0 : State) (hμ : 0x2C0014 &&& μ = 0x2C0014 := by decide) : Keeps μ (s0.kept μ) (execTakeoverPoint s0) := Keeps.mono hμ (by
  unfold execTakeoverPoint
  (repeat' (first | with_reducible rfl | trivial | (simp; done) | (refine keeps_checked ?_) | split | (simp only [keeps_done]; fail_if_success done) | (refine (kept_foldl (fun _ _ => ?_) _ _).trans ?_) | (simp; fail_if_success done))); done)

@[simp] theorem State.checkSynced_kept {μ : Nat} (s : State) (hμ : 0x80000 &&& μ = 0x80000 := by decide) : (State.checkSynced s).kept μ = s.kept μ := kept_mono hμ (by
  unfold State.checkSynced
  repeat' (first | with_reducible rfl | (simp; done) | split | (refine (kept_foldl (fun _ _ => ?_) _ _).trans ?_) | (simp; fail_if_success done)))

@[simp] theorem State.judgeDigest_kept {μ : Nat} (o : Nat) (frame : Nat) (ok : Bool) (s : State) (hμ : 0x2C0014 &&& μ = 0x2C0014 := by decide) : (State.judgeDigest o frame ok s).kept μ = s.kept μ := kept_mono hμ (by
  unfold State.judgeDigest
  repeat' (first | with_reducible rfl | (simp; done) | split | (refine (kept_foldl (fun _ _ => ?_) _ _).trans ?_) | (simp; fail_if_success done)))

@[simp] theorem State.compareDigests_kept {μ : Nat} (s : State) (hμ : 0x2C0014 &&& μ = 0x2C0014 := by decide) : (State.compareDigests s).kept μ = s.kept μ := kept_mono hμ (by
  unfold State.compareDigests
  repeat' (first | with_reducible rfl | (simp; done) | split | (refine (kept_foldl (fun _ _ => ?_) _ _).trans ?_) | (simp; fail_if_success done)))

theorem execDigestSend_keeps {μ : Nat} (s0 : State) (hμ : 0x2C0014 &&& μ = 0x2C0014 := by decide) : Keeps μ (s0.kept μ) (execDigestSend s0) := Keeps.mono hμ (by
  unfold execDigestSend
  (repeat' (first | with_reducible rfl | trivial | (simp; done) | (refine keeps_checked ?_) | split | (simp only [keeps_done]; fail_if_success done) | (refine (kept_foldl (fun _ _ => ?_) _ _).trans ?_) | (simp; fail_if_success done))); done)

theorem execDigest_keeps {μ : Nat} (entries : List DigestEntry) (s0 : State) (hμ : 0x2C0014 &&& μ = 0x2C0014 := by decide) : Keeps μ (s0.kept μ) (execDigest entries s0) := Keeps.mono hμ (by
  unfold execDigest
  (repeat' (first | with_reducible rfl | trivial | (simp; done) | (refine keeps_checked ?_) | split | (simp only [keeps_done]; fail_if_success done) | (refine (kept_foldl (fun _ _ => ?_) _ _).trans ?_) | (simp; fail_if_success done))); done)

theorem execDigestMissing_keeps {μ : Nat} (o : Fin 2048) (s0 : State) (hμ : 0x2C0014 &&& μ = 0x2C0014 := by decide) : Keeps μ (s0.kept μ) (execDigestMissing o s0) := Keeps.mono hμ (by
  unfold execDigestMissing
  (repeat' (first | with_reducible rfl | trivial | (simp; done) | (refine keeps_checked ?_) | split | (simp only [keeps_done]; fail_if_success done) | (refine (kept_foldl (fun _ _ => ?_) _ _).trans ?_) | (simp; fail_if_success done))); done)

@[simp] theorem State.twinTime_kept {μ : Nat} (c : TimeCell) (s : State) (hμ : 0x2C0014 &&& μ = 0x2C0014 := by decide) : (State.twinTime c s).kept μ = s.kept μ := kept_mono hμ (by
  unfold State.twinTime
  repeat' (first | with_reducible rfl | (simp; done) | split | (refine (kept_foldl (fun _ _ => ?_) _ _).trans ?_) | (simp; fail_if_success done)))

theorem execTimeCell_keeps {μ : Nat} (k : Fin 8) (cell : TimeCell) (s0 : State) (hμ : 0x6F0015 &&& μ = 0x6F0015 := by decide) : Keeps μ (s0.kept μ) (execTimeCell k cell s0) := Keeps.mono hμ (by
  unfold execTimeCell
  (repeat' (first | with_reducible rfl | trivial | (simp; done) | (refine keeps_checked ?_) | split | (simp only [keeps_done]; fail_if_success done) | (refine (kept_foldl (fun _ _ => ?_) _ _).trans ?_) | (simp; fail_if_success done))); done)

end Sys2Proof.Machine
end

