-- ==== Sys2Proof/Laws/KeptPower.lean ====
section
/-! SUPPORT. What is left as it is by power, resets, monitors, the recorder and the fault collector. -/

set_option Elab.async false

namespace Sys2Proof.Machine

open Sys2Proof

/-! ### Image -/

@[simp] theorem State.writeTable_kept {μ : Nat} (f : BitVec 256 → BitVec 256) (s : State) (hμ : 0x100000 &&& μ = 0x100000 := by decide) : (State.writeTable f s).kept μ = s.kept μ := kept_mono hμ (by
  unfold State.writeTable
  repeat' (first | with_reducible rfl | (simp; done) | split | (refine (kept_foldl (fun _ _ => ?_) _ _).trans ?_) | (simp; fail_if_success done)))

@[simp] theorem State.rejectImage_kept {μ : Nat} (slot : Nat) (reason : Nat) (s : State) (hμ : 0x2C0014 &&& μ = 0x2C0014 := by decide) : (State.rejectImage slot reason s).kept μ = s.kept μ := kept_mono hμ (by
  unfold State.rejectImage
  repeat' (first | with_reducible rfl | (simp; done) | split | (refine (kept_foldl (fun _ _ => ?_) _ _).trans ?_) | (simp; fail_if_success done)))

/-! ### Power -/

@[simp] theorem State.countReset_kept {μ : Nat} (c : Cause) (s : State) (hμ : 0x2 &&& μ = 0x2 := by decide) : (State.countReset c s).kept μ = s.kept μ := kept_mono hμ (by
  unfold State.countReset
  repeat' (first | with_reducible rfl | (simp; done) | split | (refine (kept_foldl (fun _ _ => ?_) _ _).trans ?_) | (simp; fail_if_success done)))

@[simp] theorem State.quietAll_kept {μ : Nat} (s : State) (hμ : 0x0 &&& μ = 0x0 := by decide) : (State.quietAll s).kept μ = s.kept μ := kept_mono hμ (by
  unfold State.quietAll
  repeat' (first | with_reducible rfl | (simp; done) | split | (refine (kept_foldl (fun _ _ => ?_) _ _).trans ?_) | (simp; fail_if_success done)))

@[simp] theorem State.cleared_kept {μ : Nat} (s : State) (hμ : 0x3FFFFF &&& μ = 0x3FFFFF := by decide) :
    (State.cleared s).kept μ = s.kept μ := kept_mono hμ (by
  have h : (State.quietAll s).kept 0x3FFFFF = s.kept 0x3FFFFF := State.quietAll_kept ..
  have h1 : hide 0x3FFFFF 22 (State.cleared s).free = hide 0x3FFFFF 22 s.free := congrArg Kept.free h
  have h2 : hide 0x3FFFFF 23 (State.cleared s).pending = hide 0x3FFFFF 23 s.pending := congrArg Kept.pending h
  unfold State.kept
  rw [Kept.mk.injEq]
  exact ⟨hide_eq _ _ rfl, hide_eq _ _ rfl, hide_eq _ _ rfl, hide_eq _ _ rfl, hide_eq _ _ rfl, hide_eq _ _ rfl, hide_eq _ _ rfl,
    hide_eq _ _ rfl, hide_eq _ _ rfl, hide_eq _ _ rfl, hide_eq _ _ rfl, hide_eq _ _ rfl, hide_eq _ _ rfl, hide_eq _ _ rfl,
    hide_eq _ _ rfl, hide_eq _ _ rfl, hide_eq _ _ rfl, hide_eq _ _ rfl, hide_eq _ _ rfl, hide_eq _ _ rfl, hide_eq _ _ rfl,
    hide_eq _ _ rfl, h1, h2⟩)

@[simp] theorem State.haltBoot_kept {μ : Nat} (h : Halt) (s : State) (hμ : 0x2 &&& μ = 0x2 := by decide) : (State.haltBoot h s).kept μ = s.kept μ := kept_mono hμ (by
  unfold State.haltBoot
  repeat' (first | with_reducible rfl | (simp; done) | split | (refine (kept_foldl (fun _ _ => ?_) _ _).trans ?_) | (simp; fail_if_success done)))

@[simp] theorem State.stepOne_kept {μ : Nat} (s : State) (hμ : 0x2 &&& μ = 0x2 := by decide) : (State.stepOne s).kept μ = s.kept μ := kept_mono hμ (by
  unfold State.stepOne
  repeat' (first | with_reducible rfl | (simp; done) | split | (refine (kept_foldl (fun _ _ => ?_) _ _).trans ?_) | (simp; fail_if_success done)))

@[simp] theorem State.startRelease_kept {μ : Nat} (straps : Bool) (wake : Option Nat) (s : State) (hμ : 0x3FFFFF &&& μ = 0x3FFFFF := by decide) : (State.startRelease straps wake s).kept μ = s.kept μ := kept_mono hμ (by
  unfold State.startRelease
  repeat' (first | with_reducible rfl | (simp; done) | split | (refine (kept_foldl (fun _ _ => ?_) _ _).trans ?_) | (simp; fail_if_success done)))

@[simp] theorem State.fullReset_kept {μ : Nat} (c : Cause) (s : State) (hμ : 0x3FFFFF &&& μ = 0x3FFFFF := by decide) : (State.fullReset c s).kept μ = s.kept μ := kept_mono hμ (by
  unfold State.fullReset
  repeat' (first | with_reducible rfl | (simp; done) | split | (refine (kept_foldl (fun _ _ => ?_) _ _).trans ?_) | (simp; fail_if_success done)))

theorem execPowerOn_keeps {μ : Nat} (s0 : State) (hμ : 0x3FFFFF &&& μ = 0x3FFFFF := by decide) : Keeps μ (s0.kept μ) (execPowerOn s0) := Keeps.mono hμ (by
  unfold execPowerOn
  (repeat' (first | with_reducible rfl | trivial | (simp; done) | (refine keeps_checked ?_) | split | (simp only [keeps_done]; fail_if_success done) | (refine (kept_foldl (fun _ _ => ?_) _ _).trans ?_) | (simp; fail_if_success done))); done)

theorem execResetN_keeps {μ : Nat} (s0 : State) (hμ : 0x3FFFFF &&& μ = 0x3FFFFF := by decide) : Keeps μ (s0.kept μ) (execResetN s0) := Keeps.mono hμ (by
  unfold execResetN
  (repeat' (first | with_reducible rfl | trivial | (simp; done) | (refine keeps_checked ?_) | split | (simp only [keeps_done]; fail_if_success done) | (refine (kept_foldl (fun _ _ => ?_) _ _).trans ?_) | (simp; fail_if_success done))); done)

theorem execResetNRise_keeps {μ : Nat} (s0 : State) (hμ : 0x2 &&& μ = 0x2 := by decide) : Keeps μ (s0.kept μ) (execResetNRise s0) := Keeps.mono hμ (by
  unfold execResetNRise
  (repeat' (first | with_reducible rfl | trivial | (simp; done) | (refine keeps_checked ?_) | split | (simp only [keeps_done]; fail_if_success done) | (refine (kept_foldl (fun _ _ => ?_) _ _).trans ?_) | (simp; fail_if_success done))); done)

theorem execStrapSampling_keeps {μ : Nat} (s1 : BitVec 8) (s2 : BitVec 8) (s3 : BitVec 8) (s0 : State) (hμ : 0x2 &&& μ = 0x2 := by decide) : Keeps μ (s0.kept μ) (execStrapSampling s1 s2 s3 s0) := Keeps.mono hμ (by
  unfold execStrapSampling
  (repeat' (first | with_reducible rfl | trivial | (simp; done) | (refine keeps_checked ?_) | split | (simp only [keeps_done]; fail_if_success done) | (refine (kept_foldl (fun _ _ => ?_) _ _).trans ?_) | (simp; fail_if_success done))); done)

theorem execTrimLoad_keeps {μ : Nat} (copyB : Bool) (ok : Bool) (s0 : State) (hμ : 0x2 &&& μ = 0x2 := by decide) : Keeps μ (s0.kept μ) (execTrimLoad copyB ok s0) := Keeps.mono hμ (by
  unfold execTrimLoad
  (repeat' (first | with_reducible rfl | trivial | (simp; done) | (refine keeps_checked ?_) | split | (simp only [keeps_done]; fail_if_success done) | (refine (kept_foldl (fun _ _ => ?_) _ _).trans ?_) | (simp; fail_if_success done))); done)

@[simp] theorem State.recordOnly_kept {μ : Nat} (e : Ev) (soft : Bool) (time : Nat) (port : Nat) (member : Nat) (s : State) (hμ : 0x10 &&& μ = 0x10 := by decide) : (State.recordOnly e soft time port member s).kept μ = s.kept μ := kept_mono hμ (by
  unfold State.recordOnly
  repeat' (first | with_reducible rfl | (simp; done) | split | (refine (kept_foldl (fun _ _ => ?_) _ _).trans ?_) | (simp; fail_if_success done)))

@[simp] theorem State.takeNotes_kept {μ : Nat} (s : State) (hμ : 0x2C0016 &&& μ = 0x2C0016 := by decide) : (State.takeNotes s).kept μ = s.kept μ := kept_mono hμ (by
  unfold State.takeNotes
  repeat' (first | with_reducible rfl | (simp; done) | split | (refine (kept_foldl (fun _ _ => ?_) _ _).trans ?_) | (simp; fail_if_success done)))

@[simp] theorem State.releaseTo_kept {μ : Nat} (n : Nat) (s : State) (hμ : 0x6F24D6 &&& μ = 0x6F24D6 := by decide) : (State.releaseTo n s).kept μ = s.kept μ := kept_mono hμ (by
  unfold State.releaseTo
  repeat' (first | with_reducible rfl | (simp; done) | split | (refine (kept_foldl (fun _ _ => ?_) _ _).trans ?_) | (simp; fail_if_success done)))

theorem execReleaseStep_keeps {μ : Nat} (s0 : State) (hμ : 0x6F24D6 &&& μ = 0x6F24D6 := by decide) : Keeps μ (s0.kept μ) (execReleaseStep s0) := Keeps.mono hμ (by
  unfold execReleaseStep
  (repeat' (first | with_reducible rfl | trivial | (simp; done) | (refine keeps_checked ?_) | split | (simp only [keeps_done]; fail_if_success done) | (refine (kept_foldl (fun _ _ => ?_) _ _).trans ?_) | (simp; fail_if_success done))); done)

theorem execQuadrantPllLock_keeps {μ : Nat} (s0 : State) (hμ : 0x6F24D6 &&& μ = 0x6F24D6 := by decide) : Keeps μ (s0.kept μ) (execQuadrantPllLock s0) := Keeps.mono hμ (by
  unfold execQuadrantPllLock
  (repeat' (first | with_reducible rfl | trivial | (simp; done) | (refine keeps_checked ?_) | split | (simp only [keeps_done]; fail_if_success done) | (refine (kept_foldl (fun _ _ => ?_) _ _).trans ?_) | (simp; fail_if_success done))); done)

theorem execSoftwareReset_keeps {μ : Nat} (s0 : State) (hμ : 0x3FFFFF &&& μ = 0x3FFFFF := by decide) : Keeps μ (s0.kept μ) (execSoftwareReset s0) := Keeps.mono hμ (by
  unfold execSoftwareReset
  (repeat' (first | with_reducible rfl | trivial | (simp; done) | (refine keeps_checked ?_) | split | (simp only [keeps_done]; fail_if_success done) | (refine (kept_foldl (fun _ _ => ?_) _ _).trans ?_) | (simp; fail_if_success done))); done)

theorem execFullRst_keeps {μ : Nat} (v : BitVec 8) (s0 : State) (hμ : 0x3FFFFF &&& μ = 0x3FFFFF := by decide) : Keeps μ (s0.kept μ) (execFullRst v s0) := Keeps.mono hμ (by
  unfold execFullRst
  (repeat' (first | with_reducible rfl | trivial | (simp; done) | (refine keeps_checked ?_) | split | (simp only [keeps_done]; fail_if_success done) | (refine (kept_foldl (fun _ _ => ?_) _ _).trans ?_) | (simp; fail_if_success done))); done)

theorem execFatalFaultReset_keeps {μ : Nat} (s0 : State) (hμ : 0x3FFFFF &&& μ = 0x3FFFFF := by decide) : Keeps μ (s0.kept μ) (execFatalFaultReset s0) := Keeps.mono hμ (by
  unfold execFatalFaultReset
  (repeat' (first | with_reducible rfl | trivial | (simp; done) | (refine keeps_checked ?_) | split | (simp only [keeps_done]; fail_if_success done) | (refine (kept_foldl (fun _ _ => ?_) _ _).trans ?_) | (simp; fail_if_success done))); done)

@[simp] theorem State.clearCounts_kept {μ : Nat} (s : State) (hμ : 0x2 &&& μ = 0x2 := by decide) : (State.clearCounts s).kept μ = s.kept μ := kept_mono hμ (by
  unfold State.clearCounts
  repeat' (first | with_reducible rfl | (simp; done) | split | (refine (kept_foldl (fun _ _ => ?_) _ _).trans ?_) | (simp; fail_if_success done)))

theorem execCntClear_keeps {μ : Nat} (v : Bool) (s0 : State) (hμ : 0x6 &&& μ = 0x6 := by decide) : Keeps μ (s0.kept μ) (execCntClear v s0) := Keeps.mono hμ (by
  unfold execCntClear
  (repeat' (first | with_reducible rfl | trivial | (simp; done) | (refine keeps_checked ?_) | split | (simp only [keeps_done]; fail_if_success done) | (refine (kept_foldl (fun _ _ => ?_) _ _).trans ?_) | (simp; fail_if_success done))); done)

@[simp] theorem State.toWatch_kept {μ : Nat} (s : State) (hμ : 0x3FFFFF &&& μ = 0x3FFFFF := by decide) : (State.toWatch s).kept μ = s.kept μ := kept_mono hμ (by
  unfold State.toWatch
  repeat' (first | with_reducible rfl | (simp; done) | split | (refine (kept_foldl (fun _ _ => ?_) _ _).trans ?_) | (simp; fail_if_success done)))

theorem execWatchEntry_keeps {μ : Nat} (s0 : State) (hμ : 0x3FFFFF &&& μ = 0x3FFFFF := by decide) : Keeps μ (s0.kept μ) (execWatchEntry s0) := Keeps.mono hμ (by
  unfold execWatchEntry
  (repeat' (first | with_reducible rfl | trivial | (simp; done) | (refine keeps_checked ?_) | split | (simp only [keeps_done]; fail_if_success done) | (refine (kept_foldl (fun _ _ => ?_) _ _).trans ?_) | (simp; fail_if_success done))); done)

theorem execVauxLoss_keeps {μ : Nat} (s0 : State) (hμ : 0x3FFFFF &&& μ = 0x3FFFFF := by decide) : Keeps μ (s0.kept μ) (execVauxLoss s0) := Keeps.mono hμ (by
  unfold execVauxLoss
  (repeat' (first | with_reducible rfl | trivial | (simp; done) | (refine keeps_checked ?_) | split | (simp only [keeps_done]; fail_if_success done) | (refine (kept_foldl (fun _ _ => ?_) _ _).trans ?_) | (simp; fail_if_success done))); done)

theorem execVbakLoss_keeps {μ : Nat} (s0 : State) (hμ : 0x3 &&& μ = 0x3 := by decide) : Keeps μ (s0.kept μ) (execVbakLoss s0) := Keeps.mono hμ (by
  unfold execVbakLoss
  (repeat' (first | with_reducible rfl | trivial | (simp; done) | (refine keeps_checked ?_) | split | (simp only [keeps_done]; fail_if_success done) | (refine (kept_foldl (fun _ _ => ?_) _ _).trans ?_) | (simp; fail_if_success done))); done)

@[simp] theorem State.wakeNow_kept {μ : Nat} (code : Nat) (s : State) (hμ : 0x3FFFFF &&& μ = 0x3FFFFF := by decide) : (State.wakeNow code s).kept μ = s.kept μ := kept_mono hμ (by
  unfold State.wakeNow
  repeat' (first | with_reducible rfl | (simp; done) | split | (refine (kept_foldl (fun _ _ => ?_) _ _).trans ?_) | (simp; fail_if_success done)))

@[simp] theorem State.tryWake_kept {μ : Nat} (s : State) (hμ : 0x3FFFFF &&& μ = 0x3FFFFF := by decide) : (State.tryWake s).kept μ = s.kept μ := kept_mono hμ (by
  unfold State.tryWake
  repeat' (first | with_reducible rfl | (simp; done) | split | (refine (kept_foldl (fun _ _ => ?_) _ _).trans ?_) | (simp; fail_if_success done)))

theorem execWakeStart_keeps {μ : Nat} (source : WakeSource) (s0 : State) (hμ : 0x3FFFFF &&& μ = 0x3FFFFF := by decide) : Keeps μ (s0.kept μ) (execWakeStart source s0) := Keeps.mono hμ (by
  unfold execWakeStart
  (repeat' (first | with_reducible rfl | trivial | (simp; done) | (refine keeps_checked ?_) | split | (simp only [keeps_done]; fail_if_success done) | (refine (kept_foldl (fun _ _ => ?_) _ _).trans ?_) | (simp; fail_if_success done))); done)

@[simp] theorem State.dropInserts_kept {μ : Nat} (s : State) (hμ : 0x420C4 &&& μ = 0x420C4 := by decide) : (State.dropInserts s).kept μ = s.kept μ := kept_mono hμ (by
  unfold State.dropInserts
  repeat' (first | with_reducible rfl | (simp; done) | split | (refine (kept_foldl (fun _ _ => ?_) _ _).trans ?_) | (simp; fail_if_success done)))

@[simp] theorem State.restart_kept {μ : Nat} (s : State) (hμ : 0x7E76F7 &&& μ = 0x7E76F7 := by decide) :
    (State.restart s).kept μ = s.kept μ := kept_mono hμ (by
  unfold State.restart
  extract_lets cores s1
  have hc : cores.kept 0x7E76F7 = s.kept 0x7E76F7 :=
    (kept_foldl (fun _ _ => State.isolateMaster_kept ..) _ _).trans (State.dropInserts_kept ..)
  have h : s1.kept 0x7E76F7 = s.kept 0x7E76F7 := by
    simp only [s1]
    split
    · exact (State.holdRate_kept ..).trans hc
    · exact hc
  clear_value s1
  unfold State.kept
  rw [Kept.mk.injEq]
  exact ⟨hide_eq _ _ rfl, hide_eq _ _ rfl, hide_eq _ _ rfl, congrArg Kept.priv h, hide_eq _ _ rfl, hide_eq _ _ rfl, hide_eq _ _ rfl, hide_eq _ _ rfl, congrArg Kept.low h, hide_eq _ _ rfl, hide_eq _ _ rfl, congrArg Kept.sdi h, hide_eq _ _ rfl, hide_eq _ _ rfl, hide_eq _ _ rfl, congrArg Kept.cal h, congrArg Kept.ref h, hide_eq _ _ rfl, hide_eq _ _ rfl, hide_eq _ _ rfl, hide_eq _ _ rfl, hide_eq _ _ rfl, hide_eq _ _ rfl, congrArg Kept.pending h⟩)

theorem execRmWatchdog_keeps {μ : Nat} (s0 : State) (hμ : 0x7E76F7 &&& μ = 0x7E76F7 := by decide) : Keeps μ (s0.kept μ) (execRmWatchdog s0) := Keeps.mono hμ (by
  unfold execRmWatchdog
  (repeat' (first | with_reducible rfl | trivial | (simp; done) | (refine keeps_checked ?_) | split | (simp only [keeps_done]; fail_if_success done) | (refine (kept_foldl (fun _ _ => ?_) _ _).trans ?_) | (simp; fail_if_success done))); done)

theorem execRingmasterRestart_keeps {μ : Nat} (s0 : State) (hμ : 0x7E76F7 &&& μ = 0x7E76F7 := by decide) : Keeps μ (s0.kept μ) (execRingmasterRestart s0) := Keeps.mono hμ (by
  unfold execRingmasterRestart
  (repeat' (first | with_reducible rfl | trivial | (simp; done) | (refine keeps_checked ?_) | split | (simp only [keeps_done]; fail_if_success done) | (refine (kept_foldl (fun _ _ => ?_) _ _).trans ?_) | (simp; fail_if_success done))); done)

theorem execSramCorrected_keeps {μ : Nat} (s : State) (hμ : 0x2C0014 &&& μ = 0x2C0014 := by decide) : Keeps μ (s.kept μ) (execSramCorrected s) := Keeps.mono hμ (by
  unfold execSramCorrected
  (repeat' (first | with_reducible rfl | trivial | (simp; done) | (refine keeps_checked ?_) | split | (simp only [keeps_done]; fail_if_success done) | (refine (kept_foldl (fun _ _ => ?_) _ _).trans ?_) | (simp; fail_if_success done))); done)

theorem execSramUncorr_keeps {μ : Nat} (s0 : State) (hμ : 0x7E76F7 &&& μ = 0x7E76F7 := by decide) : Keeps μ (s0.kept μ) (execSramUncorr s0) := Keeps.mono hμ (by
  unfold execSramUncorr
  (repeat' (first | with_reducible rfl | trivial | (simp; done) | (refine keeps_checked ?_) | split | (simp only [keeps_done]; fail_if_success done) | (refine (kept_foldl (fun _ _ => ?_) _ _).trans ?_) | (simp; fail_if_success done))); done)

@[simp] theorem State.activateSlot_kept {μ : Nat} (slot : Nat) (s : State) (hμ : 0x100000 &&& μ = 0x100000 := by decide) : (State.activateSlot slot s).kept μ = s.kept μ := kept_mono hμ (by
  unfold State.activateSlot
  repeat' (first | with_reducible rfl | (simp; done) | split | (refine (kept_foldl (fun _ _ => ?_) _ _).trans ?_) | (simp; fail_if_success done)))

@[simp] theorem State.bootImage_kept {μ : Nat} (s : State) (hμ : 0x6F24D6 &&& μ = 0x6F24D6 := by decide) : (State.bootImage s).kept μ = s.kept μ := kept_mono hμ (by
  unfold State.bootImage
  repeat' (first | with_reducible rfl | (simp; done) | split | (refine (kept_foldl (fun _ _ => ?_) _ _).trans ?_) | (simp; fail_if_success done)))

@[simp] theorem State.rescueBoot_kept {μ : Nat} (slot : Nat) (reason : Nat) (s : State) (hμ : 0x6F24D6 &&& μ = 0x6F24D6 := by decide) : (State.rescueBoot slot reason s).kept μ = s.kept μ := kept_mono hμ (by
  unfold State.rescueBoot
  repeat' (first | with_reducible rfl | (simp; done) | split | (refine (kept_foldl (fun _ _ => ?_) _ _).trans ?_) | (simp; fail_if_success done)))

theorem execImageCheck_keeps {μ : Nat} (verdict : ImageVerdict) (s0 : State) (hμ : 0x7F24D6 &&& μ = 0x7F24D6 := by decide) : Keeps μ (s0.kept μ) (execImageCheck verdict s0) := Keeps.mono hμ (by
  unfold execImageCheck
  (repeat' (first | with_reducible rfl | trivial | (simp; done) | (refine keeps_checked ?_) | split | (simp only [keeps_done]; fail_if_success done) | (refine (kept_foldl (fun _ _ => ?_) _ _).trans ?_) | (simp; fail_if_success done))); done)

theorem execFirmwareStart_keeps {μ : Nat} (major : BitVec 8) (minor : BitVec 8) (build : BitVec 16) (s0 : State) (hμ : 0x6F24D6 &&& μ = 0x6F24D6 := by decide) : Keeps μ (s0.kept μ) (execFirmwareStart major minor build s0) := Keeps.mono hμ (by
  unfold execFirmwareStart
  (repeat' (first | with_reducible rfl | trivial | (simp; done) | (refine keeps_checked ?_) | split | (simp only [keeps_done]; fail_if_success done) | (refine (kept_foldl (fun _ _ => ?_) _ _).trans ?_) | (simp; fail_if_success done))); done)

theorem execBudgetRebuild_keeps {μ : Nat} (s0 : State) (hμ : 0x2C1614 &&& μ = 0x2C1614 := by decide) :
    Keeps μ (s0.kept μ) (execBudgetRebuild s0) := Keeps.mono hμ (by
  unfold execBudgetRebuild
  extract_lets s stale lost s1 s2 s3
  have h1 : s1.kept 0x2C1614 = s0.kept 0x2C1614 := (kept_foldl (fun _ _ => clearHeld_kept ..) _ _).trans (State.kept_fresh ..)
  have h2 : s2.kept 0x2C1614 = s0.kept 0x2C1614 := (kept_foldl (fun _ _ => State.settleSalvo_kept ..) _ _).trans h1
  have h3 : s3.kept 0x2C1614 = s0.kept 0x2C1614 := (State.reportAll_kept ..).trans ((State.kept_onBud ..).trans h2)
  clear_value s3
  split
  · exact State.kept_fresh ..
  · simp only [keeps_done]
    split
    · exact h3
    · exact (State.raise_kept ..).trans h3)

theorem execBootPeerRetry_keeps {μ : Nat} (s0 : State) (hμ : 0x40000 &&& μ = 0x40000 := by decide) : Keeps μ (s0.kept μ) (execBootPeerRetry s0) := Keeps.mono hμ (by
  unfold execBootPeerRetry
  (repeat' (first | with_reducible rfl | trivial | (simp; done) | (refine keeps_checked ?_) | split | (simp only [keeps_done]; fail_if_success done) | (refine (kept_foldl (fun _ _ => ?_) _ _).trans ?_) | (simp; fail_if_success done))); done)

theorem execBootImageRequest_keeps {μ : Nat} (k : Fin 7) (s0 : State) (hμ : 0x40000 &&& μ = 0x40000 := by decide) : Keeps μ (s0.kept μ) (execBootImageRequest k s0) := Keeps.mono hμ (by
  unfold execBootImageRequest
  (repeat' (first | with_reducible rfl | trivial | (simp; done) | (refine keeps_checked ?_) | split | (simp only [keeps_done]; fail_if_success done) | (refine (kept_foldl (fun _ _ => ?_) _ _).trans ?_) | (simp; fail_if_success done))); done)

/-! ### Monitors -/

theorem syncSupply_reduced (p : PwrSt) : (syncSupply p).reduced = p.reduced := by unfold syncSupply; rfl
theorem syncTrips_reduced (p : PwrSt) : (syncTrips p).reduced = p.reduced := by unfold syncTrips; rfl
@[simp] theorem State.onSupply_kept {μ : Nat} (f : PwrSt → PwrSt) (s : State) (h : (f s.pwr).reduced = s.pwr.reduced)
    (hμ : 0x2 &&& μ = 0x2 := by decide) : (State.onPwr (fun p => syncSupply (f p)) s).kept μ = s.kept μ :=
  State.kept_onPwr _ _ ((syncSupply_reduced _).trans h) hμ
@[simp] theorem State.onTrips_kept {μ : Nat} (f : PwrSt → PwrSt) (s : State) (h : (f s.pwr).reduced = s.pwr.reduced)
    (hμ : 0x2 &&& μ = 0x2 := by decide) : (State.onPwr (fun p => syncTrips (f p)) s).kept μ = s.kept μ :=
  State.kept_onPwr _ _ ((syncTrips_reduced _).trans h) hμ
@[simp] theorem State.holdCause_kept {μ : Nat} (code : Nat) (l : Nat) (still : Bool) (s : State) (hμ : 0x10 &&& μ = 0x10 := by decide) : (State.holdCause code l still s).kept μ = s.kept μ := kept_mono hμ (by
  unfold State.holdCause; simp)

theorem execSupplyWarn_keeps {μ : Nat} (m : Fin 6) (quad : Fin 5) (mv : BitVec 16) (back : Bool) (s0 : State) (hμ : 0x2C0016 &&& μ = 0x2C0016 := by decide) : Keeps μ (s0.kept μ) (execSupplyWarn m quad mv back s0) := Keeps.mono hμ (by
  unfold execSupplyWarn
  (repeat' (first | with_reducible rfl | trivial | (simp; done) | (refine keeps_checked ?_) | split | (simp only [keeps_done]; fail_if_success done) | (refine (kept_foldl (fun _ _ => ?_) _ _).trans ?_) | (simp; fail_if_success done))); done)

theorem execSupplyFail_keeps {μ : Nat} (m : Fin 6) (quad : Fin 5) (mv : BitVec 16) (s0 : State) (hμ : 0x2C0416 &&& μ = 0x2C0416 := by decide) : Keeps μ (s0.kept μ) (execSupplyFail m quad mv s0) := Keeps.mono hμ (by
  unfold execSupplyFail
  (repeat' (first | with_reducible rfl | trivial | (simp; done) | (refine keeps_checked ?_) | split | (simp only [keeps_done]; fail_if_success done) | (refine (kept_foldl (fun _ _ => ?_) _ _).trans ?_) | (simp; fail_if_success done))); done)

theorem execSupplyReturn_keeps {μ : Nat} (m : Fin 6) (quad : Fin 5) (_mv : BitVec 16) (s0 : State) (hμ : 0x2C0416 &&& μ = 0x2C0416 := by decide) : Keeps μ (s0.kept μ) (execSupplyReturn m quad _mv s0) := Keeps.mono hμ (by
  unfold execSupplyReturn
  (repeat' (first | with_reducible rfl | trivial | (simp; done) | (refine keeps_checked ?_) | split | (simp only [keeps_done]; fail_if_success done) | (refine (kept_foldl (fun _ _ => ?_) _ _).trans ?_) | (simp; fail_if_success done))); done)

theorem execVbakLow_keeps {μ : Nat} (s0 : State) (hμ : 0x2C0016 &&& μ = 0x2C0016 := by decide) : Keeps μ (s0.kept μ) (execVbakLow s0) := Keeps.mono hμ (by
  unfold execVbakLow
  (repeat' (first | with_reducible rfl | trivial | (simp; done) | (refine keeps_checked ?_) | split | (simp only [keeps_done]; fail_if_success done) | (refine (kept_foldl (fun _ _ => ?_) _ _).trans ?_) | (simp; fail_if_success done))); done)

@[simp] theorem State.isolateComposers_kept {μ : Nat} (quad : Nat) (s : State) (hμ : 0x4010 &&& μ = 0x4010 := by decide) : (State.isolateComposers quad s).kept μ = s.kept μ := kept_mono hμ (by
  unfold State.isolateComposers
  repeat' (first | with_reducible rfl | (simp; done) | split | (refine (kept_foldl (fun _ _ => ?_) _ _).trans ?_) | (simp; fail_if_success done)))

theorem execThermalOver_keeps {μ : Nat} (quad : Fin 4) (degrees : Int) (s0 : State) (hμ : 0x2C4416 &&& μ = 0x2C4416 := by decide) : Keeps μ (s0.kept μ) (execThermalOver quad degrees s0) := Keeps.mono hμ (by
  unfold execThermalOver
  (repeat' (first | with_reducible rfl | trivial | (simp; done) | (refine keeps_checked ?_) | split | (simp only [keeps_done]; fail_if_success done) | (refine (kept_foldl (fun _ _ => ?_) _ _).trans ?_) | (simp; fail_if_success done))); done)

theorem execThermalTrip_keeps {μ : Nat} (quad : Fin 4) (degrees : Int) (s0 : State) (hμ : 0x3FFFFF &&& μ = 0x3FFFFF := by decide) : Keeps μ (s0.kept μ) (execThermalTrip quad degrees s0) := Keeps.mono hμ (by
  unfold execThermalTrip
  (repeat' (first | with_reducible rfl | trivial | (simp; done) | (refine keeps_checked ?_) | split | (simp only [keeps_done]; fail_if_success done) | (refine (kept_foldl (fun _ _ => ?_) _ _).trans ?_) | (simp; fail_if_success done))); done)

theorem execTemperatureTripRearm_keeps {μ : Nat} (quad : Fin 4) (s0 : State) (hμ : 0x3FFFFF &&& μ = 0x3FFFFF := by decide) : Keeps μ (s0.kept μ) (execTemperatureTripRearm quad s0) := Keeps.mono hμ (by
  unfold execTemperatureTripRearm
  (repeat' (first | with_reducible rfl | trivial | (simp; done) | (refine keeps_checked ?_) | split | (simp only [keeps_done]; fail_if_success done) | (refine (kept_foldl (fun _ _ => ?_) _ _).trans ?_) | (simp; fail_if_success done))); done)

theorem execSkewSample_keeps {μ : Nat} (temperature : Bool) (v0 : Int) (v1 : Int) (v2 : Int) (v3 : Int) (s0 : State) (hμ : 0x2C0416 &&& μ = 0x2C0416 := by decide) : Keeps μ (s0.kept μ) (execSkewSample temperature v0 v1 v2 v3 s0) := Keeps.mono hμ (by
  unfold execSkewSample
  (repeat' (first | with_reducible rfl | trivial | (simp; done) | (refine keeps_checked ?_) | split | (simp only [keeps_done]; fail_if_success done) | (refine (kept_foldl (fun _ _ => ?_) _ _).trans ?_) | (simp; fail_if_success done))); done)

theorem execQpllUnlock_keeps {μ : Nat} (quad : Fin 4) (s0 : State) (hμ : 0x2C0016 &&& μ = 0x2C0016 := by decide) : Keeps μ (s0.kept μ) (execQpllUnlock quad s0) := Keeps.mono hμ (by
  unfold execQpllUnlock
  (repeat' (first | with_reducible rfl | trivial | (simp; done) | (refine keeps_checked ?_) | split | (simp only [keeps_done]; fail_if_success done) | (refine (kept_foldl (fun _ _ => ?_) _ _).trans ?_) | (simp; fail_if_success done))); done)

/-! ### Blocks -/

@[simp] theorem State.blockReturns_kept {μ : Nat} (here : Nat → Bool) (s : State) (hμ : 0x10 &&& μ = 0x10 := by decide) : (State.blockReturns here s).kept μ = s.kept μ := kept_mono hμ (by
  unfold State.blockReturns
  repeat' (first | with_reducible rfl | (simp; done) | split | (refine (kept_foldl (fun _ _ => ?_) _ _).trans ?_) | (simp; fail_if_success done)))

@[simp] theorem State.testsOff_kept {μ : Nat} (here : Nat → Bool) (s : State) (hμ : 0x200000 &&& μ = 0x200000 := by decide) : (State.testsOff here s).kept μ = s.kept μ := kept_mono hμ (by
  unfold State.testsOff
  repeat' (first | with_reducible rfl | (simp; done) | split | (refine (kept_foldl (fun _ _ => ?_) _ _).trans ?_) | (simp; fail_if_success done)))

@[simp] theorem State.holdSdi_kept {μ : Nat} (n) (s : State) (hμ : 0x6D28D4 &&& μ = 0x6D28D4 := by decide) : (State.holdSdi n s).kept μ = s.kept μ := kept_mono hμ (by
  unfold State.holdSdi
  extract_lets lanes s1 s2
  have h1 : s1.kept 0x6D28D4 = s.kept 0x6D28D4 := kept_foldl (fun _ _ => by split <;> simp) _ _
  have h2 : s2.kept 0x6D28D4 = s.kept 0x6D28D4 := (kept_foldl (fun _ _ => by simp only; split <;> simp) _ _).trans h1
  simp [h2])

@[simp] theorem State.runSdi_kept {μ : Nat} (b : Nat) (s : State) (hμ : 0x800 &&& μ = 0x800 := by decide) : (State.runSdi b s).kept μ = s.kept μ := kept_mono hμ (by
  unfold State.runSdi
  repeat' (first | with_reducible rfl | (simp; done) | split | (refine (kept_foldl (fun _ _ => ?_) _ _).trans ?_) | (simp; fail_if_success done)))

@[simp] theorem State.holdPort_kept {μ : Nat} (n : Nat) (s : State) (hμ : 0x6F38D4 &&& μ = 0x6F38D4 := by decide) :
    (State.holdPort n s).kept μ = s.kept μ := kept_mono hμ (by
  unfold State.holdPort
  extract_lets rings s1 s2 s3 s4 s5 s6
  have h1 : s1.kept 0x6F38D4 = s.kept 0x6F38D4 := State.portStop_kept ..
  have h2 : s2.kept 0x6F38D4 = s.kept 0x6F38D4 := (kept_foldl (fun _ _ => State.setDep_kept ..) _ _).trans h1
  have h3 : s3.kept 0x6F38D4 = s.kept 0x6F38D4 := (kept_foldl (fun _ _ => State.setSub_kept ..) _ _).trans h2
  have h4 : s4.kept 0x6F38D4 = s.kept 0x6F38D4 := (State.kept_onEth ..).trans h3
  have h5 : s5.kept 0x6F38D4 = s.kept 0x6F38D4 := (kept_foldl (fun _ _ => State.setPkt_kept ..) _ _).trans h4
  have h6 : s6.kept 0x6F38D4 = s.kept 0x6F38D4 := (State.kept_onPtp ..).trans h5
  exact (State.testsOff_kept ..).trans ((State.blockReturns_kept ..).trans h6))

@[simp] theorem State.runPort_kept {μ : Nat} (n : Nat) (s : State) (hμ : 0x3000 &&& μ = 0x3000 := by decide) : (State.runPort n s).kept μ = s.kept μ := kept_mono hμ (by
  unfold State.runPort
  repeat' (first | with_reducible rfl | (simp; done) | split | (refine (kept_foldl (fun _ _ => ?_) _ _).trans ?_) | (simp; fail_if_success done)))

@[simp] theorem State.holdSvanum_kept {μ : Nat} (n) (s : State) (hμ : 0x6F24D4 &&& μ = 0x6F24D4 := by decide) : (State.holdSvanum n s).kept μ = s.kept μ := kept_mono hμ (by
  unfold State.holdSvanum
  extract_lets s1 s2
  have h1 : s1.kept 0x6F24D4 = s.kept 0x6F24D4 := kept_foldl (fun _ _ => by simp) _ _
  have h2 : s2.kept 0x6F24D4 = s.kept 0x6F24D4 := (kept_foldl (fun _ _ => by simp) _ _).trans h1
  simp [h2])

@[simp] theorem State.runSvanum_kept {μ : Nat} (n : Nat) (s : State) (hμ : 0x40000 &&& μ = 0x40000 := by decide) : (State.runSvanum n s).kept μ = s.kept μ := kept_mono hμ (by
  unfold State.runSvanum
  repeat' (first | with_reducible rfl | (simp; done) | split | (refine (kept_foldl (fun _ _ => ?_) _ _).trans ?_) | (simp; fail_if_success done)))

@[simp] theorem State.holdConversion_kept {μ : Nat} (n : Nat) (s : State) (hμ : 0x460C0 &&& μ = 0x460C0 := by decide) : (State.holdConversion n s).kept μ = s.kept μ := kept_mono hμ (by
  unfold State.holdConversion
  repeat' (first | with_reducible rfl | (simp; done) | split | (refine (kept_foldl (fun _ _ => ?_) _ _).trans ?_) | (simp; fail_if_success done)))

@[simp] theorem State.holdComposers_kept {μ : Nat} (n) (s : State) (hμ : 0x2C60D4 &&& μ = 0x2C60D4 := by decide) : (State.holdComposers n s).kept μ = s.kept μ := kept_mono hμ (by
  unfold State.holdComposers
  refine kept_foldl (fun t c => ?_) _ _
  extract_lets s1 s2
  have h1 : s1.kept 0x2C60D4 = t.kept 0x2C60D4 := kept_foldl (fun _ _ => by simp) _ _
  have h2 : s2.kept 0x2C60D4 = t.kept 0x2C60D4 := (kept_foldl (fun _ _ => by simp) _ _).trans h1
  simp [h2])

@[simp] theorem State.holdCalliope_kept {μ : Nat} (s : State) (hμ : 0x8250 &&& μ = 0x8250 := by decide) :
    (State.holdCalliope s).kept μ = s.kept μ := kept_mono hμ (by
  unfold State.holdCalliope
  extract_lets rings s1 s2
  have h1 : s1.kept 0x8250 = s.kept 0x8250 := kept_foldl (fun _ _ => State.setWr_kept ..) _ _
  have h2 : s2.kept 0x8250 = s.kept 0x8250 := (State.kept_onCal ..).trans ((State.calIdle_kept ..).trans h1)
  exact (State.blockReturns_kept ..).trans h2)

@[simp] theorem State.holdMerge_kept {μ : Nat} (s : State) (hμ : 0x420D0 &&& μ = 0x420D0 := by decide) : (State.holdMerge s).kept μ = s.kept μ := kept_mono hμ (by
  unfold State.holdMerge
  repeat' (first | with_reducible rfl | (simp; done) | split | (refine (kept_foldl (fun _ _ => ?_) _ _).trans ?_) | (simp; fail_if_success done)))

@[simp] theorem State.holdRef_kept {μ : Nat} (s : State) (hμ : 0x10010 &&& μ = 0x10010 := by decide) : (State.holdRef s).kept μ = s.kept μ := kept_mono hμ (by
  unfold State.holdRef
  repeat' (first | with_reducible rfl | (simp; done) | split | (refine (kept_foldl (fun _ _ => ?_) _ _).trans ?_) | (simp; fail_if_success done)))

@[simp] theorem State.holdPtp_kept {μ : Nat} (s : State) (hμ : 0x20011 &&& μ = 0x20011 := by decide) : (State.holdPtp s).kept μ = s.kept μ := kept_mono hμ (by
  unfold State.holdPtp
  repeat' (first | with_reducible rfl | (simp; done) | split | (refine (kept_foldl (fun _ _ => ?_) _ _).trans ?_) | (simp; fail_if_success done)))

@[simp] theorem State.runPtp_kept {μ : Nat} (s : State) (hμ : 0x6F0014 &&& μ = 0x6F0014 := by decide) : (State.runPtp s).kept μ = s.kept μ := kept_mono hμ (by
  unfold State.runPtp
  repeat' (first | with_reducible rfl | (simp; done) | split | (refine (kept_foldl (fun _ _ => ?_) _ _).trans ?_) | (simp; fail_if_success done)))

@[simp] theorem State.holdClassifier_kept {μ : Nat} (s : State) (hμ : 0x2010 &&& μ = 0x2010 := by decide) : (State.holdClassifier s).kept μ = s.kept μ := kept_mono hμ (by
  unfold State.holdClassifier
  repeat' (first | with_reducible rfl | (simp; done) | split | (refine (kept_foldl (fun _ _ => ?_) _ _).trans ?_) | (simp; fail_if_success done)))

@[simp] theorem State.holdTwin_kept {μ : Nat} (s : State) (hμ : 0xC0010 &&& μ = 0xC0010 := by decide) : (State.holdTwin s).kept μ = s.kept μ := kept_mono hμ (by
  unfold State.holdTwin
  repeat' (first | with_reducible rfl | (simp; done) | split | (refine (kept_foldl (fun _ _ => ?_) _ _).trans ?_) | (simp; fail_if_success done)))

@[simp] theorem State.holdRecorder_kept {μ : Nat} (s : State) (hμ : 0x6C0034 &&& μ = 0x6C0034 := by decide) : (State.holdRecorder s).kept μ = s.kept μ := kept_mono hμ (by
  unfold State.holdRecorder
  repeat' (first | with_reducible rfl | (simp; done) | split | (refine (kept_foldl (fun _ _ => ?_) _ _).trans ?_) | (simp; fail_if_success done)))

@[simp] theorem State.holdBlock_kept {μ : Nat} (b : Nat) (s : State) (hμ : 0x6FFEF5 &&& μ = 0x6FFEF5 := by decide) : (State.holdBlock b s).kept μ = s.kept μ := kept_mono hμ (by
  unfold State.holdBlock
  repeat' (first | with_reducible rfl | (simp; done) | split | (refine (kept_foldl (fun _ _ => ?_) _ _).trans ?_) | (simp; fail_if_success done)))

@[simp] theorem State.runBlock_kept {μ : Nat} (b : Nat) (s : State) (hμ : 0x6F3814 &&& μ = 0x6F3814 := by decide) : (State.runBlock b s).kept μ = s.kept μ := kept_mono hμ (by
  unfold State.runBlock
  repeat' (first | with_reducible rfl | (simp; done) | split | (refine (kept_foldl (fun _ _ => ?_) _ _).trans ?_) | (simp; fail_if_success done)))

@[simp] theorem State.resetBlocks_kept {μ : Nat} (mask : Nat) (s : State) (hμ : 0x6FFEF7 &&& μ = 0x6FFEF7 := by decide) : (State.resetBlocks mask s).kept μ = s.kept μ := kept_mono hμ (by
  unfold State.resetBlocks
  repeat' (first | with_reducible rfl | (simp; done) | split | (refine (kept_foldl (fun _ _ => ?_) _ _).trans ?_) | (simp; fail_if_success done)))

theorem execBlkRst_keeps {μ : Nat} (mask : BitVec 64) (s0 : State) (hμ : 0x6FFEF7 &&& μ = 0x6FFEF7 := by decide) : Keeps μ (s0.kept μ) (execBlkRst mask s0) := Keeps.mono hμ (by
  unfold execBlkRst
  (repeat' (first | with_reducible rfl | trivial | (simp; done) | (refine keeps_checked ?_) | split | (simp only [keeps_done]; fail_if_success done) | (refine (kept_foldl (fun _ _ => ?_) _ _).trans ?_) | (simp; fail_if_success done))); done)

theorem execBlockResetRelease_keeps {μ : Nat} (b : Fin 57) (s0 : State) (hμ : 0x6F3816 &&& μ = 0x6F3816 := by decide) : Keeps μ (s0.kept μ) (execBlockResetRelease b s0) := Keeps.mono hμ (by
  unfold execBlockResetRelease
  (repeat' (first | with_reducible rfl | trivial | (simp; done) | (refine keeps_checked ?_) | split | (simp only [keeps_done]; fail_if_success done) | (refine (kept_foldl (fun _ _ => ?_) _ _).trans ?_) | (simp; fail_if_success done))); done)

/-! ### Recorder -/

@[simp] theorem State.notifySessions_kept {μ : Nat} (code : Nat) (bytes : List Byte) (s : State) (hμ : 0x4 &&& μ = 0x4 := by decide) : (State.notifySessions code bytes s).kept μ = s.kept μ := kept_mono hμ (by
  unfold State.notifySessions
  repeat' (first | with_reducible rfl | (simp; done) | split | (refine (kept_foldl (fun _ _ => ?_) _ _).trans ?_) | (simp; fail_if_success done)))

@[simp] theorem State.program_kept {μ : Nat} (e : QEnt) (fails : Bool) (s : State) (hμ : 0x2C0034 &&& μ = 0x2C0034 := by decide) : (State.program e fails s).kept μ = s.kept μ := kept_mono hμ (by
  unfold State.program
  repeat' (first | with_reducible rfl | (simp; done) | split | (refine (kept_foldl (fun _ _ => ?_) _ _).trans ?_) | (simp; fail_if_success done)))

@[simp] theorem State.writeEntry_kept {μ : Nat} (e : QEnt) (fails : Bool) (s : State) (hμ : 0x2C0034 &&& μ = 0x2C0034 := by decide) : (State.writeEntry e fails s).kept μ = s.kept μ := kept_mono hμ (by
  unfold State.writeEntry
  repeat' (first | with_reducible rfl | (simp; done) | split | (refine (kept_foldl (fun _ _ => ?_) _ _).trans ?_) | (simp; fail_if_success done)))

theorem execRecordWrite_keeps {μ : Nat} (programFails : Bool) (s0 : State) (hμ : 0x2C0034 &&& μ = 0x2C0034 := by decide) : Keeps μ (s0.kept μ) (execRecordWrite programFails s0) := Keeps.mono hμ (by
  unfold execRecordWrite
  (repeat' (first | with_reducible rfl | trivial | (simp; done) | (refine keeps_checked ?_) | split | (simp only [keeps_done]; fail_if_success done) | (refine (kept_foldl (fun _ _ => ?_) _ _).trans ?_) | (simp; fail_if_success done))); done)

theorem cmdRecRead_ok {μ : Nat} (q : Req) (s : State) (hμ : 0x0 &&& μ = 0x0 := by decide) : OkKept μ (s.kept μ) (fun x => x.1) (cmdRecRead q s) := OkKept.mono hμ (by
  unfold cmdRecRead
  (repeat' (first | exact OkKept.error _ | (refine OkKept.pure ?_; (first | with_reducible rfl | (simp; done) | (simp_all; done) | (split <;> simp_all; done))) | (refine OkKept.ok ?_; (first | with_reducible rfl | (simp; done) | (simp_all; done))) | split | (refine OkKept.bind (fun _ _ => ?_)) | (simp only; fail_if_success done))); done)

theorem execRecRead_keeps {μ : Nat} (q : Req) (s : State) (hμ : 0x2C0014 &&& μ = 0x2C0014 := by decide) : Keeps μ (s.kept μ) (execRecRead q s) := Keeps.mono hμ (by
  unfold execRecRead; exact serve_keeps _ _ _ _ (fun _ _ => cmdRecRead_ok ..))

theorem cmdRecClear_ok {μ : Nat} (q : Req) (s : State) (hμ : 0x2C0034 &&& μ = 0x2C0034 := by decide) : OkKept μ (s.kept μ) (fun x => x.1) (cmdRecClear q s) := OkKept.mono hμ (by
  unfold cmdRecClear
  (repeat' (first | exact OkKept.error _ | (refine OkKept.pure ?_; (first | with_reducible rfl | (simp; done) | (simp_all; done) | (split <;> simp_all; done))) | (refine OkKept.ok ?_; (first | with_reducible rfl | (simp; done) | (simp_all; done))) | split | (refine OkKept.bind (fun _ _ => ?_)) | (simp only; fail_if_success done))); done)

theorem execRecClear_keeps {μ : Nat} (q : Req) (s : State) (hμ : 0x2C0034 &&& μ = 0x2C0034 := by decide) : Keeps μ (s.kept μ) (execRecClear q s) := Keeps.mono hμ (by
  unfold execRecClear; exact serve_keeps _ _ _ _ (fun _ _ => cmdRecClear_ok ..))

theorem cmdRecLimit_ok {μ : Nat} (q : Req) (s : State) (hμ : 0x2C0034 &&& μ = 0x2C0034 := by decide) : OkKept μ (s.kept μ) (fun x => x.1) (cmdRecLimit q s) := OkKept.mono hμ (by
  unfold cmdRecLimit
  (repeat' (first | exact OkKept.error _ | (refine OkKept.pure ?_; (first | with_reducible rfl | (simp; done) | (simp_all; done) | (split <;> simp_all; done))) | (refine OkKept.ok ?_; (first | with_reducible rfl | (simp; done) | (simp_all; done))) | split | (refine OkKept.bind (fun _ _ => ?_)) | (simp only; fail_if_success done))); done)

theorem execRecLimit_keeps {μ : Nat} (q : Req) (s : State) (hμ : 0x2C0034 &&& μ = 0x2C0034 := by decide) : Keeps μ (s.kept μ) (execRecLimit q s) := Keeps.mono hμ (by
  unfold execRecLimit; exact serve_keeps _ _ _ _ (fun _ _ => cmdRecLimit_ok ..))

/-! ### Faults -/

@[simp] theorem State.parityTrip_kept {μ : Nat} (forced : Bool) (s : State) (hμ : 0x2C0014 &&& μ = 0x2C0014 := by decide) : (State.parityTrip forced s).kept μ = s.kept μ := kept_mono hμ (by
  unfold State.parityTrip
  repeat' (first | with_reducible rfl | (simp; done) | split | (refine (kept_foldl (fun _ _ => ?_) _ _).trans ?_) | (simp; fail_if_success done)))

theorem execCollectorParity_keeps {μ : Nat} (s : State) (hμ : 0x2C0014 &&& μ = 0x2C0014 := by decide) : Keeps μ (s.kept μ) (execCollectorParity s) := Keeps.mono hμ (by
  unfold execCollectorParity
  (repeat' (first | with_reducible rfl | trivial | (simp; done) | (refine keeps_checked ?_) | split | (simp only [keeps_done]; fail_if_success done) | (refine (kept_foldl (fun _ _ => ?_) _ _).trans ?_) | (simp; fail_if_success done))); done)

@[simp] theorem State.badTables_kept {μ : Nat} (l : Nat) (s : State) (hμ : 0x4000 &&& μ = 0x4000 := by decide) : (State.badTables l s).kept μ = s.kept μ := kept_mono hμ (by
  unfold State.badTables
  repeat' (first | with_reducible rfl | (simp; done) | split | (refine (kept_foldl (fun _ _ => ?_) _ _).trans ?_) | (simp; fail_if_success done)))

@[simp] theorem State.badCoeffs_kept {μ : Nat} (l : Nat) (s : State) (hμ : 0x8000 &&& μ = 0x8000 := by decide) : (State.badCoeffs l s).kept μ = s.kept μ := kept_mono hμ (by
  unfold State.badCoeffs
  repeat' (first | with_reducible rfl | (simp; done) | split | (refine (kept_foldl (fun _ _ => ?_) _ _).trans ?_) | (simp; fail_if_success done)))

@[simp] theorem State.unitReaction_kept {μ : Nat} (c : Nat) (l : Nat) (s : State) (hμ : 0x6FEEF4 &&& μ = 0x6FEEF4 := by decide) : (State.unitReaction c l s).kept μ = s.kept μ := kept_mono hμ (by
  unfold State.unitReaction
  repeat' (first | with_reducible rfl | (simp; done) | split | (refine (kept_foldl (fun _ _ => ?_) _ _).trans ?_) | (simp; fail_if_success done)))

@[simp] theorem State.force_kept {μ : Nat} (c : Nat) (l : Nat) (s : State) (hμ : 0x6FEEF4 &&& μ = 0x6FEEF4 := by decide) : (State.force c l s).kept μ = s.kept μ := kept_mono hμ (by
  unfold State.force
  repeat' (first | with_reducible rfl | (simp; done) | split | (refine (kept_foldl (fun _ _ => ?_) _ _).trans ?_) | (simp; fail_if_success done)))

theorem cmdFaultForce_ok {μ : Nat} (q : Req) (s : State) (hμ : 0x6FEEF6 &&& μ = 0x6FEEF6 := by decide) : OkKept μ (s.kept μ) (fun x => x.1) (cmdFaultForce q s) := OkKept.mono hμ (by
  unfold cmdFaultForce
  (repeat' (first | exact OkKept.error _ | (refine OkKept.pure ?_; (first | with_reducible rfl | (simp; done) | (simp_all; done) | (split <;> simp_all; done))) | (refine OkKept.ok ?_; (first | with_reducible rfl | (simp; done) | (simp_all; done))) | split | (refine OkKept.bind (fun _ _ => ?_)) | (simp only; fail_if_success done))); done)

theorem execFaultForce_keeps {μ : Nat} (q : Req) (s : State) (hμ : 0x6FEEF6 &&& μ = 0x6FEEF6 := by decide) : Keeps μ (s.kept μ) (execFaultForce q s) := Keeps.mono hμ (by
  unfold execFaultForce; exact serve_keeps _ _ _ _ (fun _ _ => cmdFaultForce_ok ..))

@[simp] theorem State.forceWrite_kept {μ : Nat} (w : BitVec 64) (s : State) (hμ : 0x7FFEF7 &&& μ = 0x7FFEF7 := by decide) : (State.forceWrite w s).kept μ = s.kept μ := kept_mono hμ (by
  unfold State.forceWrite
  repeat' (first | with_reducible rfl | (simp; done) | split | (refine (kept_foldl (fun _ _ => ?_) _ _).trans ?_) | (simp; fail_if_success done)))

theorem execForce_keeps {μ : Nat} (w : BitVec 64) (whole : Bool) (s0 : State) (hμ : 0x7FFEF7 &&& μ = 0x7FFEF7 := by decide) : Keeps μ (s0.kept μ) (execForce w whole s0) := Keeps.mono hμ (by
  unfold execForce
  (repeat' (first | with_reducible rfl | trivial | (simp; done) | (refine keeps_checked ?_) | split | (simp only [keeps_done]; fail_if_success done) | (refine (kept_foldl (fun _ _ => ?_) _ _).trans ?_) | (simp; fail_if_success done))); done)

theorem cmdFaultRead_ok {μ : Nat} (q : Req) (s : State) (hμ : 0x0 &&& μ = 0x0 := by decide) : OkKept μ (s.kept μ) (fun x => x.1) (cmdFaultRead q s) := OkKept.mono hμ (by
  unfold cmdFaultRead
  (repeat' (first | exact OkKept.error _ | (refine OkKept.pure ?_; (first | with_reducible rfl | (simp; done) | (simp_all; done) | (split <;> simp_all; done))) | (refine OkKept.ok ?_; (first | with_reducible rfl | (simp; done) | (simp_all; done))) | split | (refine OkKept.bind (fun _ _ => ?_)) | (simp only; fail_if_success done))); done)

theorem execFaultRead_keeps {μ : Nat} (q : Req) (s : State) (hμ : 0x2C0014 &&& μ = 0x2C0014 := by decide) : Keeps μ (s.kept μ) (execFaultRead q s) := Keeps.mono hμ (by
  unfold execFaultRead; exact serve_keeps _ _ _ _ (fun _ _ => cmdFaultRead_ok ..))

@[simp] theorem State.unitReturn_kept {μ : Nat} (c : Nat) (l : Nat) (s : State) (hμ : 0x230 &&& μ = 0x230 := by decide) : (State.unitReturn c l s).kept μ = s.kept μ := kept_mono hμ (by
  unfold State.unitReturn
  repeat' (first | with_reducible rfl | (simp; done) | split | (refine (kept_foldl (fun _ _ => ?_) _ _).trans ?_) | (simp; fail_if_success done)))

theorem cmdFaultClear_ok {μ : Nat} (q : Req) (s : State) (hμ : 0x230 &&& μ = 0x230 := by decide) : OkKept μ (s.kept μ) (fun x => x.1) (cmdFaultClear q s) := OkKept.mono hμ (by
  unfold cmdFaultClear
  refine OkKept.bind (fun _ _ => OkKept.pure ?_)
  simp only
  split
  · exact (kept_foldl (fun _ _ => by simp) _ _).trans (State.kept_onFlt ..)
  · exact State.kept_onFlt ..)

theorem execFaultClear_keeps {μ : Nat} (q : Req) (s : State) (hμ : 0x2C0234 &&& μ = 0x2C0234 := by decide) : Keeps μ (s.kept μ) (execFaultClear q s) := Keeps.mono hμ (by
  unfold execFaultClear; exact serve_keeps _ _ _ _ (fun _ _ => cmdFaultClear_ok ..))

@[simp] theorem State.setEvent_kept {μ : Nat} (c : Nat) (vector : Nat) (enable : Nat) (s : State) (hμ : 0x10 &&& μ = 0x10 := by decide) : (State.setEvent c vector enable s).kept μ = s.kept μ := kept_mono hμ (by
  unfold State.setEvent
  repeat' (first | with_reducible rfl | (simp; done) | split | (refine (kept_foldl (fun _ _ => ?_) _ _).trans ?_) | (simp; fail_if_success done)))

theorem cmdEventConfig_ok {μ : Nat} (q : Req) (s : State) (hμ : 0x10 &&& μ = 0x10 := by decide) : OkKept μ (s.kept μ) (fun x => x.1) (cmdEventConfig q s) := OkKept.mono hμ (by
  unfold cmdEventConfig
  (repeat' (first | exact OkKept.error _ | (refine OkKept.pure ?_; (first | with_reducible rfl | (simp; done) | (simp_all; done) | (split <;> simp_all; done))) | (refine OkKept.ok ?_; (first | with_reducible rfl | (simp; done) | (simp_all; done))) | split | (refine OkKept.bind (fun _ _ => ?_)) | (simp only; fail_if_success done))); done)

theorem execEventConfig_keeps {μ : Nat} (q : Req) (s : State) (hμ : 0x2C0014 &&& μ = 0x2C0014 := by decide) : Keeps μ (s.kept μ) (execEventConfig q s) := Keeps.mono hμ (by
  unfold execEventConfig; exact serve_keeps _ _ _ _ (fun _ _ => cmdEventConfig_ok ..))

@[simp] theorem State.clearPending_kept {μ : Nat} (c : Nat) (s : State) (hμ : 0x10 &&& μ = 0x10 := by decide) : (State.clearPending c s).kept μ = s.kept μ := kept_mono hμ (by
  unfold State.clearPending
  repeat' (first | with_reducible rfl | (simp; done) | split | (refine (kept_foldl (fun _ _ => ?_) _ _).trans ?_) | (simp; fail_if_success done)))

theorem execPendingClear_keeps {μ : Nat} (c : Fin 256) (s0 : State) (hμ : 0x14 &&& μ = 0x14 := by decide) : Keeps μ (s0.kept μ) (execPendingClear c s0) := Keeps.mono hμ (by
  unfold execPendingClear
  (repeat' (first | with_reducible rfl | trivial | (simp; done) | (refine keeps_checked ?_) | split | (simp only [keeps_done]; fail_if_success done) | (refine (kept_foldl (fun _ _ => ?_) _ _).trans ?_) | (simp; fail_if_success done))); done)

theorem execMramCorrected_keeps {μ : Nat} (region : Fin 64) (s : State) (hμ : 0x2C0014 &&& μ = 0x2C0014 := by decide) : Keeps μ (s.kept μ) (execMramCorrected region s) := Keeps.mono hμ (by
  unfold execMramCorrected
  (repeat' (first | with_reducible rfl | trivial | (simp; done) | (refine keeps_checked ?_) | split | (simp only [keeps_done]; fail_if_success done) | (refine (kept_foldl (fun _ _ => ?_) _ _).trans ?_) | (simp; fail_if_success done))); done)

theorem execMramUncorr_keeps {μ : Nat} (region : Fin 64) (s0 : State) (hμ : 0x6FEEF4 &&& μ = 0x6FEEF4 := by decide) : Keeps μ (s0.kept μ) (execMramUncorr region s0) := Keeps.mono hμ (by
  unfold execMramUncorr
  (repeat' (first | with_reducible rfl | trivial | (simp; done) | (refine keeps_checked ?_) | split | (simp only [keeps_done]; fail_if_success done) | (refine (kept_foldl (fun _ _ => ?_) _ _).trans ?_) | (simp; fail_if_success done))); done)

end Sys2Proof.Machine
end

