-- ==== Sys2Proof/Laws/KeptHost.lean ====
section
/-! SUPPORT. What is left as it is by the ports, sessions, updates, tests, mirrors and resynchronisation. -/

set_option Elab.async false

namespace Sys2Proof.Machine

open Sys2Proof

/-! ### Session -/

theorem cmdSessionInfo_ok {μ : Nat} (q : Req) (s : State) (hμ : 0x0 &&& μ = 0x0 := by decide) : OkKept μ (s.kept μ) (fun x => x.1) (cmdSessionInfo q s) := OkKept.mono hμ (by
  unfold cmdSessionInfo
  (repeat' (first | exact OkKept.error _ | (refine OkKept.pure ?_; (first | with_reducible rfl | (simp; done) | (simp_all; done) | (split <;> simp_all; done))) | (refine OkKept.ok ?_; (first | with_reducible rfl | (simp; done) | (simp_all; done))) | split | (refine OkKept.bind (fun _ _ => ?_)) | (simp only; fail_if_success done))); done)

theorem execSessionInfo_keeps {μ : Nat} (q : Req) (s : State) (hμ : 0x2C0014 &&& μ = 0x2C0014 := by decide) : Keeps μ (s.kept μ) (execSessionInfo q s) := Keeps.mono hμ (by
  unfold execSessionInfo; exact serve_keeps _ _ _ _ (fun _ _ => cmdSessionInfo_ok ..))

theorem cmdSessionOpen_ok {μ : Nat} (q : Req) (s : State) (hμ : 0x4 &&& μ = 0x4 := by decide) : OkKept μ (s.kept μ) (fun x => x.1) (cmdSessionOpen q s) := OkKept.mono hμ (by
  unfold cmdSessionOpen
  (repeat' (first | exact OkKept.error _ | (refine OkKept.pure ?_; (first | with_reducible rfl | (simp; done) | (simp_all; done) | (split <;> simp_all; done))) | (refine OkKept.ok ?_; (first | with_reducible rfl | (simp; done) | (simp_all; done))) | split | (refine OkKept.bind (fun _ _ => ?_)) | (simp only; fail_if_success done))); done)

theorem execSessionOpen_keeps {μ : Nat} (q : Req) (s : State) (hμ : 0x2C0014 &&& μ = 0x2C0014 := by decide) : Keeps μ (s.kept μ) (execSessionOpen q s) := Keeps.mono hμ (by
  unfold execSessionOpen; exact serve_keeps _ _ _ _ (fun _ _ => cmdSessionOpen_ok ..))

theorem cmdSessionClose_ok {μ : Nat} (q : Req) (s : State) (hμ : 0x4 &&& μ = 0x4 := by decide) : OkKept μ (s.kept μ) (fun x => x.1) (cmdSessionClose q s) := OkKept.mono hμ (by
  unfold cmdSessionClose
  (repeat' (first | exact OkKept.error _ | (refine OkKept.pure ?_; (first | with_reducible rfl | (simp; done) | (simp_all; done) | (split <;> simp_all; done))) | (refine OkKept.ok ?_; (first | with_reducible rfl | (simp; done) | (simp_all; done))) | split | (refine OkKept.bind (fun _ _ => ?_)) | (simp only; fail_if_success done))); done)

theorem execSessionClose_keeps {μ : Nat} (q : Req) (s : State) (hμ : 0x2C0014 &&& μ = 0x2C0014 := by decide) : Keeps μ (s.kept μ) (execSessionClose q s) := Keeps.mono hμ (by
  unfold execSessionClose; exact serve_keeps _ _ _ _ (fun _ _ => cmdSessionClose_ok ..))

@[simp] theorem State.leaveSafetyNet_kept {μ : Nat} (s : State) (hμ : 0x2C0014 &&& μ = 0x2C0014 := by decide) : (State.leaveSafetyNet s).kept μ = s.kept μ := kept_mono hμ (by
  unfold State.leaveSafetyNet
  repeat' (first | with_reducible rfl | (simp; done) | split | (refine (kept_foldl (fun _ _ => ?_) _ _).trans ?_) | (simp; fail_if_success done)))

@[simp] theorem State.retrain_kept {μ : Nat} (which : Chan → Bool) (s : State) (hμ : 0x40 &&& μ = 0x40 := by decide) : (State.retrain which s).kept μ = s.kept μ := kept_mono hμ (by
  unfold State.retrain
  repeat' (first | with_reducible rfl | (simp; done) | split | (refine (kept_foldl (fun _ _ => ?_) _ _).trans ?_) | (simp; fail_if_success done)))

@[simp] theorem State.loseRole_kept {μ : Nat} (s : State) (hμ : 0x80000 &&& μ = 0x80000 := by decide) : (State.loseRole s).kept μ = s.kept μ := kept_mono hμ (by
  unfold State.loseRole
  repeat' (first | with_reducible rfl | (simp; done) | split | (refine (kept_foldl (fun _ _ => ?_) _ _).trans ?_) | (simp; fail_if_success done)))

@[simp] theorem State.setPower_kept {μ : Nat} (p : Power) (s : State) (hμ : 0x2C0416 &&& μ = 0x2C0416 := by decide) : (State.setPower p s).kept μ = s.kept μ := kept_mono hμ (by
  unfold State.setPower
  repeat' (first | with_reducible rfl | (simp; done) | split | (refine (kept_foldl (fun _ _ => ?_) _ _).trans ?_) | (simp; fail_if_success done)))

@[simp] theorem State.enterStaging_kept {μ : Nat} (s : State) (hμ : 0x2C0456 &&& μ = 0x2C0456 := by decide) : (State.enterStaging s).kept μ = s.kept μ := kept_mono hμ (by
  unfold State.enterStaging
  repeat' (first | with_reducible rfl | (simp; done) | split | (refine (kept_foldl (fun _ _ => ?_) _ _).trans ?_) | (simp; fail_if_success done)))

@[simp] theorem State.enterActive_kept {μ : Nat} (s : State) (hμ : 0x2C0416 &&& μ = 0x2C0416 := by decide) : (State.enterActive s).kept μ = s.kept μ := kept_mono hμ (by
  unfold State.enterActive
  repeat' (first | with_reducible rfl | (simp; done) | split | (refine (kept_foldl (fun _ _ => ?_) _ _).trans ?_) | (simp; fail_if_success done)))

theorem cmdPowerSet_ok {μ : Nat} (q : Req) (s : State) (hμ : 0x2C0456 &&& μ = 0x2C0456 := by decide) : OkKept μ (s.kept μ) (fun x => x.1) (cmdPowerSet q s) := OkKept.mono hμ (by
  unfold cmdPowerSet
  (repeat' (first | exact OkKept.error _ | (refine OkKept.pure ?_; (first | with_reducible rfl | (simp; done) | (simp_all; done) | (split <;> simp_all; done))) | (refine OkKept.ok ?_; (first | with_reducible rfl | (simp; done) | (simp_all; done))) | split | (refine OkKept.bind (fun _ _ => ?_)) | (simp only; fail_if_success done))); done)

theorem execPowerSet_keeps {μ : Nat} (q : Req) (s : State) (hμ : 0x2C0456 &&& μ = 0x2C0456 := by decide) : Keeps μ (s.kept μ) (execPowerSet q s) := Keeps.mono hμ (by
  unfold execPowerSet; exact serve_keeps _ _ _ _ (fun _ _ => cmdPowerSet_ok ..))

theorem cmdProfileSet_ok {μ : Nat} (q : Req) (s : State) (hμ : 0x200 &&& μ = 0x200 := by decide) : OkKept μ (s.kept μ) Ans.state (cmdProfileSet q s) := OkKept.mono hμ (by
  unfold cmdProfileSet
  (repeat' (first | exact OkKept.error _ | (refine OkKept.pure ?_; (first | with_reducible rfl | (simp; done) | (simp_all; done) | (split <;> simp_all; done))) | (refine OkKept.ok ?_; (first | with_reducible rfl | (simp; done) | (simp_all; done))) | split | (refine OkKept.bind (fun _ _ => ?_)) | (simp only; fail_if_success done))); done)

theorem execProfileSet_keeps {μ : Nat} (q : Req) (s : State) (hμ : 0x2C0214 &&& μ = 0x2C0214 := by decide) : Keeps μ (s.kept μ) (execProfileSet q s) := Keeps.mono hμ (by
  unfold execProfileSet; exact serveAns_keeps _ _ _ _ (fun _ _ => cmdProfileSet_ok ..))

theorem cmdBudgetQuery_ok {μ : Nat} (q : Req) (s : State) (hμ : 0x200 &&& μ = 0x200 := by decide) : OkKept μ (s.kept μ) (fun x => x.1) (cmdBudgetQuery q s) := OkKept.mono hμ (by
  unfold cmdBudgetQuery
  refine OkKept.bind (fun _ _ => OkKept.bind (fun _ _ => OkKept.pure ?_))
  simp only
  split
  · exact State.kept_onBud ..
  · rfl)

theorem execBudgetQuery_keeps {μ : Nat} (q : Req) (s : State) (hμ : 0x2C0214 &&& μ = 0x2C0214 := by decide) : Keeps μ (s.kept μ) (execBudgetQuery q s) := Keeps.mono hμ (by
  unfold execBudgetQuery; exact serve_keeps _ _ _ _ (fun _ _ => cmdBudgetQuery_ok ..))

theorem cmdSessionReset_ok {μ : Nat} (q : Req) (s : State) (hμ : 0x2 &&& μ = 0x2 := by decide) : OkKept μ (s.kept μ) (fun x => x.1) (cmdSessionReset q s) := OkKept.mono hμ (by
  unfold cmdSessionReset
  (repeat' (first | exact OkKept.error _ | (refine OkKept.pure ?_; (first | with_reducible rfl | (simp; done) | (simp_all; done) | (split <;> simp_all; done))) | (refine OkKept.ok ?_; (first | with_reducible rfl | (simp; done) | (simp_all; done))) | split | (refine OkKept.bind (fun _ _ => ?_)) | (simp only; fail_if_success done))); done)

theorem execSessionReset_keeps {μ : Nat} (q : Req) (s : State) (hμ : 0x2C0016 &&& μ = 0x2C0016 := by decide) : Keeps μ (s.kept μ) (execSessionReset q s) := Keeps.mono hμ (by
  unfold execSessionReset; exact serve_keeps _ _ _ _ (fun _ _ => cmdSessionReset_ok ..))

@[simp] theorem State.setPriv_kept {μ : Nat} (p : Nat) (w : BitVec 64) (s : State) (hμ : 0xC &&& μ = 0xC := by decide) :
    (State.setPriv p w s).kept μ = s.kept μ := State.kept_onCtl' _ _ hμ

theorem cmdPrivRead_ok {μ : Nat} (q : Req) (s : State) (hμ : 0x0 &&& μ = 0x0 := by decide) : OkKept μ (s.kept μ) (fun x => x.1) (cmdPrivRead q s) := OkKept.mono hμ (by
  unfold cmdPrivRead
  (repeat' (first | exact OkKept.error _ | (refine OkKept.pure ?_; (first | with_reducible rfl | (simp; done) | (simp_all; done) | (split <;> simp_all; done))) | (refine OkKept.ok ?_; (first | with_reducible rfl | (simp; done) | (simp_all; done))) | split | (refine OkKept.bind (fun _ _ => ?_)) | (simp only; fail_if_success done))); done)

theorem execPrivRead_keeps {μ : Nat} (q : Req) (s : State) (hμ : 0x2C0014 &&& μ = 0x2C0014 := by decide) : Keeps μ (s.kept μ) (execPrivRead q s) := Keeps.mono hμ (by
  unfold execPrivRead; exact serve_keeps _ _ _ _ (fun _ _ => cmdPrivRead_ok ..))

theorem cmdPrivWrite_ok {μ : Nat} (q : Req) (s : State) (hμ : 0xC &&& μ = 0xC := by decide) : OkKept μ (s.kept μ) (fun x => x.1) (cmdPrivWrite q s) := OkKept.mono hμ (by
  unfold cmdPrivWrite
  (repeat' (first | exact OkKept.error _ | (refine OkKept.pure ?_; (first | with_reducible rfl | (simp; done) | (simp_all; done) | (split <;> simp_all; done))) | (refine OkKept.ok ?_; (first | with_reducible rfl | (simp; done) | (simp_all; done))) | split | (refine OkKept.bind (fun _ _ => ?_)) | (simp only; fail_if_success done))); done)

theorem execPrivWrite_keeps {μ : Nat} (q : Req) (s : State) (hμ : 0x2C001C &&& μ = 0x2C001C := by decide) : Keeps μ (s.kept μ) (execPrivWrite q s) := Keeps.mono hμ (by
  unfold execPrivWrite; exact serve_keeps _ _ _ _ (fun _ _ => cmdPrivWrite_ok ..))

/-! ### Fabric -/

@[simp] theorem State.applyProfile_kept {μ : Nat} (p : Profile) (s : State) (hμ : 0x2C0654 &&& μ = 0x2C0654 := by decide) : (State.applyProfile p s).kept μ = s.kept μ := kept_mono hμ (by
  unfold State.applyProfile
  repeat' (first | with_reducible rfl | (simp; done) | split | (refine (kept_foldl (fun _ _ => ?_) _ _).trans ?_) | (simp; fail_if_success done)))

theorem execProfileChange_keeps {μ : Nat} (s0 : State) (hμ : 0x2C0654 &&& μ = 0x2C0654 := by decide) : Keeps μ (s0.kept μ) (execProfileChange s0) := Keeps.mono hμ (by
  unfold execProfileChange
  (repeat' (first | with_reducible rfl | trivial | (simp; done) | (refine keeps_checked ?_) | split | (simp only [keeps_done]; fail_if_success done) | (refine (kept_foldl (fun _ _ => ?_) _ _).trans ?_) | (simp; fail_if_success done))); done)

@[simp] theorem State.setReduced_kept {μ : Nat} (v : Bool) (s : State) (hμ : 0x1C2 &&& μ = 0x1C2 := by decide) :
    (State.setReduced v s).kept μ = s.kept μ := kept_mono hμ (by
  unfold State.setReduced
  split
  · rfl
  · rfl)

theorem execChannelTraining_keeps {μ : Nat} (ch : Fin 16) (responds : BitVec 16) (ok : Bool) (s0 : State) (hμ : 0x2C01D6 &&& μ = 0x2C01D6 := by decide) : Keeps μ (s0.kept μ) (execChannelTraining ch responds ok s0) := Keeps.mono hμ (by
  unfold execChannelTraining
  (repeat' (first | with_reducible rfl | trivial | (simp; done) | (refine keeps_checked ?_) | split | (simp only [keeps_done]; fail_if_success done) | (refine (kept_foldl (fun _ _ => ?_) _ _).trans ?_) | (simp; fail_if_success done))); done)

theorem execRecentre_keeps {μ : Nat} (ch : Fin 16) (ok : Bool) (moved : Bool) (ecc : BitVec 32) (s0 : State) (hμ : 0x2C0054 &&& μ = 0x2C0054 := by decide) : Keeps μ (s0.kept μ) (execRecentre ch ok moved ecc s0) := Keeps.mono hμ (by
  unfold execRecentre
  (repeat' (first | with_reducible rfl | trivial | (simp; done) | (refine keeps_checked ?_) | split | (simp only [keeps_done]; fail_if_success done) | (refine (kept_foldl (fun _ _ => ?_) _ _).trans ?_) | (simp; fail_if_success done))); done)

theorem execBudgetTableError_keeps {μ : Nat} (s0 : State) (hμ : 0x2C0214 &&& μ = 0x2C0214 := by decide) : Keeps μ (s0.kept μ) (execBudgetTableError s0) := Keeps.mono hμ (by
  unfold execBudgetTableError
  (repeat' (first | with_reducible rfl | trivial | (simp; done) | (refine keeps_checked ?_) | split | (simp only [keeps_done]; fail_if_success done) | (refine (kept_foldl (fun _ _ => ?_) _ _).trans ?_) | (simp; fail_if_success done))); done)

theorem execBudgetRecount_keeps {μ : Nat} (s0 : State) (hμ : 0x2C0214 &&& μ = 0x2C0214 := by decide) : Keeps μ (s0.kept μ) (execBudgetRecount s0) := Keeps.mono hμ (by
  unfold execBudgetRecount
  (repeat' (first | with_reducible rfl | trivial | (simp; done) | (refine keeps_checked ?_) | split | (simp only [keeps_done]; fail_if_success done) | (refine (kept_foldl (fun _ _ => ?_) _ _).trans ?_) | (simp; fail_if_success done))); done)

/-! ### Slots -/

@[simp] theorem State.compNext_kept {μ : Nat} (r : Nat) (s : State) (hμ : 0x2C20D4 &&& μ = 0x2C20D4 := by decide) : (State.compNext r s).kept μ = s.kept μ := kept_mono hμ (by
  unfold State.compNext
  repeat' (first | with_reducible rfl | (simp; done) | split | (refine (kept_foldl (fun _ _ => ?_) _ _).trans ?_) | (simp; fail_if_success done)))

@[simp] theorem State.abandonAfter_kept {μ : Nat} (r : Nat) (t : Staged) (s : State) (hμ : 0x40000 &&& μ = 0x40000 := by decide) : (State.abandonAfter r t s).kept μ = s.kept μ := kept_mono hμ (by
  unfold State.abandonAfter
  repeat' (first | with_reducible rfl | (simp; done) | split | (refine (kept_foldl (fun _ _ => ?_) _ _).trans ?_) | (simp; fail_if_success done)))

@[simp] theorem State.descAfter_kept {μ : Nat} (r : Nat) (t : Staged) (s : State) (hμ : 0x4 &&& μ = 0x4 := by decide) : (State.descAfter r t s).kept μ = s.kept μ := kept_mono hμ (by
  unfold State.descAfter
  repeat' (first | with_reducible rfl | (simp; done) | split | (refine (kept_foldl (fun _ _ => ?_) _ _).trans ?_) | (simp; fail_if_success done)))

@[simp] theorem State.takeSlot_kept {μ : Nat} (r : Nat) (t : Staged) (s : State) (hμ : 0x2C23D4 &&& μ = 0x2C23D4 := by decide) : (State.takeSlot r t s).kept μ = s.kept μ := kept_mono hμ (by
  unfold State.takeSlot
  repeat' (first | with_reducible rfl | (simp; done) | split | (refine (kept_foldl (fun _ _ => ?_) _ _).trans ?_) | (simp; fail_if_success done)))

theorem execTileCommit_keeps {μ : Nat} (ring : Fin 8192) (s0 : State) (hμ : 0x2C23D4 &&& μ = 0x2C23D4 := by decide) : Keeps μ (s0.kept μ) (execTileCommit ring s0) := Keeps.mono hμ (by
  unfold execTileCommit
  (repeat' (first | with_reducible rfl | trivial | (simp; done) | (refine keeps_checked ?_) | split | (simp only [keeps_done]; fail_if_success done) | (refine (kept_foldl (fun _ _ => ?_) _ _).trans ?_) | (simp; fail_if_success done))); done)

@[simp] theorem State.takeBlack_kept {μ : Nat} (r n : Nat) (s : State) (hμ : 0x2C23D4 &&& μ = 0x2C23D4 := by decide) : (State.takeBlack r n s).kept μ = s.kept μ := kept_mono hμ (by
  induction n generalizing s with
  | zero => rfl
  | succ n ih =>
    unfold State.takeBlack
    split
    · split
      · exact (ih _).trans (State.takeSlot_kept ..)
      · rfl
    · rfl)

@[simp] theorem State.judge_kept {μ : Nat} (r : Nat) (eseq : BitVec 32) (l : Nat) (expect : Option (Bool × Nat)) (data : Bool) (cache : CacheErr) (s : State) (hμ : 0x2C0054 &&& μ = 0x2C0054 := by decide) : (State.judge r eseq l expect data cache s).1.kept μ = s.kept μ := kept_mono hμ (by
  unfold State.judge
  repeat' (first | with_reducible rfl | (simp; done) | split | (refine (kept_foldl (fun _ _ => ?_) _ _).trans ?_) | (simp; fail_if_success done)))

@[simp] theorem State.needTile_kept {μ : Nat} (r : Nat) (eseq : BitVec 32) (s : State) (hμ : 0x2C23D4 &&& μ = 0x2C23D4 := by decide) : (State.needTile r eseq s).kept μ = s.kept μ := kept_mono hμ (by
  unfold State.needTile
  repeat' (first | with_reducible rfl | (simp; done) | split | (refine (kept_foldl (fun _ _ => ?_) _ _).trans ?_) | (simp; fail_if_success done)))

@[simp] theorem State.passOn_kept {μ : Nat} (readers : List (Nat × Nat)) (r : Nat) (verdict : Nat) (crc : Nat) (bytes : Option (List Byte)) (s : State) (hμ : 0x400 &&& μ = 0x400 := by decide) : (State.passOn readers r verdict crc bytes s).kept μ = s.kept μ := kept_mono hμ (by
  unfold State.passOn
  repeat' (first | with_reducible rfl | (simp; done) | split | (refine (kept_foldl (fun _ _ => ?_) _ _).trans ?_) | (simp; fail_if_success done)))

@[simp] theorem State.placeTile_kept {μ : Nat} (readers : List (Nat × Nat)) (d : BitVec 256) (j : Nat) (bytes : List Byte) (s : State) (hμ : 0x400 &&& μ = 0x400 := by decide) : (State.placeTile readers d j bytes s).kept μ = s.kept μ := kept_mono hμ (by
  unfold State.placeTile
  repeat' (first | with_reducible rfl | (simp; done) | split | (refine (kept_foldl (fun _ _ => ?_) _ _).trans ?_) | (simp; fail_if_success done)))

@[simp] theorem State.readVideo_kept {μ : Nat} (o : Nat) (r : Nat) (mode : Nat) (f : OutFmt) (readers : List (Nat × Nat)) (first : BitVec 32) (eseq : BitVec 32) (cache : CacheErr) (s : State) (hμ : 0x2C27D4 &&& μ = 0x2C27D4 := by decide) : (State.readVideo o r mode f readers first eseq cache s).kept μ = s.kept μ := kept_mono hμ (by
  unfold State.readVideo
  repeat' (first | with_reducible rfl | (simp; done) | split | (refine (kept_foldl (fun _ _ => ?_) _ _).trans ?_) | (simp; fail_if_success done)))

@[simp] theorem State.readOther_kept {μ : Nat} (o : Nat) (anc : Bool) (r mode : Nat) (f : OutFmt) (readers : List (Nat × Nat)) (eseq : BitVec 32) (cache : CacheErr) (s : State) (hμ : 0x2C0654 &&& μ = 0x2C0654 := by decide) : (State.readOther o anc r mode f readers eseq cache s).kept μ = s.kept μ := kept_mono hμ (by
  unfold State.readOther
  have h := State.judge_kept (μ := 0x2C0654) r eseq (s.locOut o) (expectTag (s.ring r) 0) anc cache s
  generalize s.judge r eseq (s.locOut o) (expectTag (s.ring r) 0) anc cache = x at h ⊢
  obtain ⟨s1, v⟩ := x
  have h2 := (State.spend_kept (μ := 0x2C0654) (routeGrp r f mode) (s.channelAt r eseq) s1).trans h
  simp only
  split
  · exact (State.passOn_kept ..).trans h2
  · split
    · exact h2
    · exact (State.passOn_kept ..).trans h2)

theorem State.withDesc_kept {μ : Nat} (r : Nat) (d : BitVec 256) (g : State → State) (s : State) (h : ∀ s, (g s).kept μ = s.kept μ)
    (hμ : 0x40 &&& μ = 0x40 := by decide) : (State.withDesc r d g s).kept μ = s.kept μ := by
  unfold State.withDesc
  split
  · exact h s
  · exact (State.setRing_kept (hμ := hμ) ..).trans ((h _).trans (State.setRing_kept (hμ := hμ) ..))

@[simp] theorem State.readOut_kept {μ : Nat} (o part : Nat) (eseq : BitVec 32) (cache : CacheErr) (s : State) (hμ : 0x2C27D4 &&& μ = 0x2C27D4 := by decide) : (State.readOut o part eseq cache s).kept μ = s.kept μ := kept_mono hμ (by
  unfold State.readOut
  split
  · simp only
    split
    · rfl
    · split
      · split
        · exact State.withDesc_kept _ _ _ _ (fun _ => State.readVideo_kept ..)
        · rfl
      · exact State.readOther_kept ..
  · rfl)

@[simp] theorem State.readLayer_kept {μ : Nat} (c : Nat) (l : Nat) (eseq : BitVec 32) (cache : CacheErr) (s : State) (hμ : 0x2C23D4 &&& μ = 0x2C23D4 := by decide) : (State.readLayer c l eseq cache s).kept μ = s.kept μ := kept_mono hμ (by
  unfold State.readLayer
  repeat' (first | with_reducible rfl | (simp; done) | split | (refine (kept_foldl (fun _ _ => ?_) _ _).trans ?_) | (simp; fail_if_success done)))

@[simp] theorem State.readTap_kept {μ : Nat} (i : Nat) (t : Nat) (eseq : BitVec 32) (cache : CacheErr) (s : State) (hμ : 0x2C0254 &&& μ = 0x2C0254 := by decide) : (State.readTap i t eseq cache s).kept μ = s.kept μ := kept_mono hμ (by
  unfold State.readTap
  repeat' (first | with_reducible rfl | (simp; done) | split | (refine (kept_foldl (fun _ _ => ?_) _ _).trans ?_) | (simp; fail_if_success done)))

@[simp] theorem State.readLeg_kept {μ : Nat} (m : Nat) (secondary : Bool) (eseq : BitVec 32) (cache : CacheErr) (s : State) (hμ : 0x2C0254 &&& μ = 0x2C0254 := by decide) : (State.readLeg m secondary eseq cache s).kept μ = s.kept μ := kept_mono hμ (by
  unfold State.readLeg
  repeat' (first | with_reducible rfl | (simp; done) | split | (refine (kept_foldl (fun _ _ => ?_) _ _).trans ?_) | (simp; fail_if_success done)))

@[simp] theorem State.setCapture_kept {μ : Nat} (c : Capture) (s : State) (hμ : 0x4 &&& μ = 0x4 := by decide) : (State.setCapture c s).kept μ = s.kept μ := kept_mono hμ (by
  unfold State.setCapture
  repeat' (first | with_reducible rfl | (simp; done) | split | (refine (kept_foldl (fun _ _ => ?_) _ _).trans ?_) | (simp; fail_if_success done)))

@[simp] theorem State.captureStart_kept {μ : Nat} (c : Capture) (k : Marker) (s : State) (hμ : 0x2C20D4 &&& μ = 0x2C20D4 := by decide) : (State.captureStart c k s).kept μ = s.kept μ := kept_mono hμ (by
  unfold State.captureStart
  repeat' (first | with_reducible rfl | (simp; done) | split | (refine (kept_foldl (fun _ _ => ?_) _ _).trans ?_) | (simp; fail_if_success done)))

@[simp] theorem State.captureTile_kept {μ : Nat} (c : Capture) (k : Marker) (j : Nat) (eseq : BitVec 32) (cache : CacheErr) (s : State) (hμ : 0x2C20D4 &&& μ = 0x2C20D4 := by decide) : (State.captureTile c k j eseq cache s).kept μ = s.kept μ := kept_mono hμ (by
  unfold State.captureTile
  repeat' (first | with_reducible rfl | (simp; done) | split | (refine (kept_foldl (fun _ _ => ?_) _ _).trans ?_) | (simp; fail_if_success done)))

@[simp] theorem State.readCapture_kept {μ : Nat} (h : Nat) (eseq : BitVec 32) (cache : CacheErr) (s : State) (hμ : 0x2C22D4 &&& μ = 0x2C22D4 := by decide) : (State.readCapture h eseq cache s).kept μ = s.kept μ := kept_mono hμ (by
  unfold State.readCapture
  repeat' (first | with_reducible rfl | (simp; done) | split | (refine (kept_foldl (fun _ _ => ?_) _ _).trans ?_) | (simp; fail_if_success done)))

theorem execTileRead_keeps {μ : Nat} (reader : Reader) (eseq : BitVec 32) (cache : CacheErr) (s0 : State) (hμ : 0x2C27D4 &&& μ = 0x2C27D4 := by decide) : Keeps μ (s0.kept μ) (execTileRead reader eseq cache s0) := Keeps.mono hμ (by
  unfold execTileRead
  (repeat' (first | with_reducible rfl | trivial | (simp; done) | (refine keeps_checked ?_) | split | (simp only [keeps_done]; fail_if_success done) | (refine (kept_foldl (fun _ _ => ?_) _ _).trans ?_) | (simp; fail_if_success done))); done)

/-! ### HostPort -/

@[simp] theorem State.onMidway_kept {μ : Nat} (f : BitVec 256 → BitVec 256) (s : State) (hμ : 0x4 &&& μ = 0x4 := by decide) : (State.onMidway f s).kept μ = s.kept μ := kept_mono hμ (by
  unfold State.onMidway
  repeat' (first | with_reducible rfl | (simp; done) | split | (refine (kept_foldl (fun _ _ => ?_) _ _).trans ?_) | (simp; fail_if_success done)))

@[simp] theorem State.decodeError_kept {μ : Nat} (addr : Nat) (master : Nat) (write : Bool) (s : State) (hμ : 0x2C0014 &&& μ = 0x2C0014 := by decide) : (State.decodeError addr master write s).kept μ = s.kept μ := kept_mono hμ (by
  unfold State.decodeError
  repeat' (first | with_reducible rfl | (simp; done) | split | (refine (kept_foldl (fun _ _ => ?_) _ _).trans ?_) | (simp; fail_if_success done)))

theorem execDefaultTargetAccess_keeps {μ : Nat} (addr : BitVec 40) (master : Fin 10) (write : Bool) (s0 : State) (hμ : 0x2C0014 &&& μ = 0x2C0014 := by decide) : Keeps μ (s0.kept μ) (execDefaultTargetAccess addr master write s0) := Keeps.mono hμ (by
  unfold execDefaultTargetAccess
  (repeat' (first | with_reducible rfl | trivial | (simp; done) | (refine keeps_checked ?_) | split | (simp only [keeps_done]; fail_if_success done) | (refine (kept_foldl (fun _ _ => ?_) _ _).trans ?_) | (simp; fail_if_success done))); done)

theorem State.hostAccess_keeps {μ : Nat} (f : State → State) (s0 : State) (h : ∀ s, (f s).kept μ = s.kept μ)
    (hμ : 0x4 &&& μ = 0x4 := by decide) : Keeps μ (s0.kept μ) (State.hostAccess f s0) := by
  have hb : s0.byHost.kept μ = s0.kept μ := State.byHost_kept (hμ := sub_of hμ (by decide)) ..
  unfold State.hostAccess
  simp only [keeps_done]
  split
  · rw [h, hb]
  · exact hb

theorem execDecValidClear_keeps {μ : Nat} (s : State) (hμ : 0x4 &&& μ = 0x4 := by decide) : Keeps μ (s.kept μ) (execDecValidClear s) := Keeps.mono hμ (State.hostAccess_keeps _ _ (fun _ => State.onMidway_kept ..))

theorem execAbortValidClear_keeps {μ : Nat} (s : State) (hμ : 0x4 &&& μ = 0x4 := by decide) : Keeps μ (s.kept μ) (execAbortValidClear s) := Keeps.mono hμ (State.hostAccess_keeps _ _ (fun _ => State.onMidway_kept ..))

@[simp] theorem State.setMaint_kept {μ : Nat} (v : Bool) (s : State) (hμ : 0x4 &&& μ = 0x4 := by decide) : (State.setMaint v s).kept μ = s.kept μ := kept_mono hμ (by
  unfold State.setMaint
  repeat' (first | with_reducible rfl | (simp; done) | split | (refine (kept_foldl (fun _ _ => ?_) _ _).trans ?_) | (simp; fail_if_success done)))

theorem execMaint_keeps {μ : Nat} (v : Bool) (s : State) (hμ : 0x4 &&& μ = 0x4 := by decide) : Keeps μ (s.kept μ) (execMaint v s) := Keeps.mono hμ (State.hostAccess_keeps _ _ (fun _ => State.setMaint_kept ..))

@[simp] theorem State.doorbell_kept {μ : Nat} (n : Nat) (seq : Nat) (s : State) (hμ : 0x4 &&& μ = 0x4 := by decide) : (State.doorbell n seq s).kept μ = s.kept μ := kept_mono hμ (by
  unfold State.doorbell
  repeat' (first | with_reducible rfl | (simp; done) | split | (refine (kept_foldl (fun _ _ => ?_) _ _).trans ?_) | (simp; fail_if_success done)))

theorem execDb_keeps {μ : Nat} (n : Fin 64) (seq : BitVec 16) (s : State) (hμ : 0x4 &&& μ = 0x4 := by decide) : Keeps μ (s.kept μ) (execDb n seq s) := Keeps.mono hμ (State.hostAccess_keeps _ _ (fun _ => State.doorbell_kept ..))

@[simp] theorem State.bufferWrite_kept {μ : Nat} (n : Nat) (off : Nat) (bs : List Byte) (s : State) (hμ : 0x2C0014 &&& μ = 0x2C0014 := by decide) : (State.bufferWrite n off bs s).kept μ = s.kept μ := kept_mono hμ (by
  unfold State.bufferWrite
  repeat' (first | with_reducible rfl | (simp; done) | split | (refine (kept_foldl (fun _ _ => ?_) _ _).trans ?_) | (simp; fail_if_success done)))

theorem execRequestBufferWrite_keeps {μ : Nat} (n : Fin 64) (off : Fin 1024) (bytes : List Byte) (s : State) (hμ : 0x2C0014 &&& μ = 0x2C0014 := by decide) : Keeps μ (s.kept μ) (execRequestBufferWrite n off bytes s) := Keeps.mono hμ (State.hostAccess_keeps _ _ (fun _ => by split <;> simp))

@[simp] theorem State.clearDone_kept {μ : Nat} (mask : Nat) (s : State) (hμ : 0x4 &&& μ = 0x4 := by decide) : (State.clearDone mask s).kept μ = s.kept μ := kept_mono hμ (by
  unfold State.clearDone
  repeat' (first | with_reducible rfl | (simp; done) | split | (refine (kept_foldl (fun _ _ => ?_) _ _).trans ?_) | (simp; fail_if_success done)))

theorem execDoneMapClear_keeps {μ : Nat} (mask : BitVec 64) (s : State) (hμ : 0x4 &&& μ = 0x4 := by decide) : Keeps μ (s.kept μ) (execDoneMapClear mask s) := Keeps.mono hμ (State.hostAccess_keeps _ _ (fun _ => State.clearDone_kept ..))

@[simp] theorem State.setRtc_kept {μ : Nat} (sec : Nat) (s : State) (hμ : 0x3 &&& μ = 0x3 := by decide) : (State.setRtc sec s).kept μ = s.kept μ := kept_mono hμ (by
  unfold State.setRtc
  repeat' (first | with_reducible rfl | (simp; done) | split | (refine (kept_foldl (fun _ _ => ?_) _ _).trans ?_) | (simp; fail_if_success done)))

theorem execRtcSec_keeps {μ : Nat} (sec : BitVec 48) (s : State) (hμ : 0x7 &&& μ = 0x7 := by decide) : Keeps μ (s.kept μ) (execRtcSec sec s) := Keeps.mono hμ (State.hostAccess_keeps _ _ (fun _ => State.setRtc_kept ..))

@[simp] theorem State.aonWord_kept {μ : Nat} (j : Nat) (v : BitVec 32) (s : State) (hμ : 0x3 &&& μ = 0x3 := by decide) : (State.aonWord j v s).kept μ = s.kept μ := kept_mono hμ (by
  unfold State.aonWord
  repeat' (first | with_reducible rfl | (simp; done) | split | (refine (kept_foldl (fun _ _ => ?_) _ _).trans ?_) | (simp; fail_if_success done)))

@[simp] theorem State.faultCtlWord_kept {μ : Nat} (j : Nat) (v : BitVec 32) (s : State) (hμ : 0x10 &&& μ = 0x10 := by decide) : (State.faultCtlWord j v s).kept μ = s.kept μ := kept_mono hμ (by
  unfold State.faultCtlWord
  repeat' (first | with_reducible rfl | (simp; done) | split | (refine (kept_foldl (fun _ _ => ?_) _ _).trans ?_) | (simp; fail_if_success done)))

@[simp] theorem State.eventWord_kept {μ : Nat} (c : Nat) (v : BitVec 32) (s : State) (hμ : 0x10 &&& μ = 0x10 := by decide) : (State.eventWord c v s).kept μ = s.kept μ := kept_mono hμ (by
  unfold State.eventWord
  repeat' (first | with_reducible rfl | (simp; done) | split | (refine (kept_foldl (fun _ _ => ?_) _ _).trans ?_) | (simp; fail_if_success done)))

@[simp] theorem State.privWord_kept {μ : Nat} (p : Nat) (j : Nat) (v : BitVec 32) (s : State) (hμ : 0xC &&& μ = 0xC := by decide) : (State.privWord p j v s).kept μ = s.kept μ := kept_mono hμ (by
  unfold State.privWord
  repeat' (first | with_reducible rfl | (simp; done) | split | (refine (kept_foldl (fun _ _ => ?_) _ _).trans ?_) | (simp; fail_if_success done)))

@[simp] theorem State.midwayWord_kept {μ : Nat} (j : Nat) (v : BitVec 32) (s : State) (hμ : 0x4 &&& μ = 0x4 := by decide) : (State.midwayWord j v s).kept μ = s.kept μ := kept_mono hμ (by
  unfold State.midwayWord
  repeat' (first | with_reducible rfl | (simp; done) | split | (refine (kept_foldl (fun _ _ => ?_) _ _).trans ?_) | (simp; fail_if_success done)))

@[simp] theorem State.msixWord_kept {μ : Nat} (v : Nat) (j : Nat) (w : BitVec 32) (s : State) (hμ : 0x4 &&& μ = 0x4 := by decide) : (State.msixWord v j w s).kept μ = s.kept μ := kept_mono hμ (by
  unfold State.msixWord
  repeat' (first | with_reducible rfl | (simp; done) | split | (refine (kept_foldl (fun _ _ => ?_) _ _).trans ?_) | (simp; fail_if_success done)))

@[simp] theorem State.regWord_kept {μ : Nat} (off : Nat) (v : BitVec 32) (s : State) (hμ : 0x7FFFFF &&& μ = 0x7FFFFF := by decide) : (State.regWord off v s).kept μ = s.kept μ := kept_mono hμ (by
  unfold State.regWord
  repeat' (first | with_reducible rfl | (simp; done) | split | (refine (kept_foldl (fun _ _ => ?_) _ _).trans ?_) | (simp; fail_if_success done)))

@[simp] theorem State.regWrite_kept {μ : Nat} (off : Nat) (wide : Bool) (v : BitVec 64) (s : State) (hμ : 0x7FFFFF &&& μ = 0x7FFFFF := by decide) : (State.regWrite off wide v s).kept μ = s.kept μ := kept_mono hμ (by
  unfold State.regWrite
  repeat' (first | with_reducible rfl | (simp; done) | split | (refine (kept_foldl (fun _ _ => ?_) _ _).trans ?_) | (simp; fail_if_success done)))

theorem execRegisterWrite_keeps {μ : Nat} (off : BitVec 18) (wide : Bool) (v : BitVec 64) (s : State) (hμ : 0x7FFFFF &&& μ = 0x7FFFFF := by decide) :
    Keeps μ (s.kept μ) (execRegisterWrite off wide v s) := Keeps.mono hμ (State.hostAccess_keeps _ _ (fun _ => by split <;> simp))

theorem execPtpNowRead_keeps {μ : Nat} (s : State) (hμ : 0x5 &&& μ = 0x5 := by decide) : Keeps μ (s.kept μ) (execPtpNowRead s) := Keeps.mono hμ (State.hostAccess_keeps _ _ (fun _ => (State.kept_emit ..).trans (State.kept_onTime ..)))

@[simp] theorem State.abortReads_kept {μ : Nat} (s : State) (hμ : 0x2C0014 &&& μ = 0x2C0014 := by decide) : (State.abortReads s).kept μ = s.kept μ := kept_mono hμ (by
  unfold State.abortReads
  repeat' (first | with_reducible rfl | (simp; done) | split | (refine (kept_foldl (fun _ _ => ?_) _ _).trans ?_) | (simp; fail_if_success done)))

@[simp] theorem State.hostGone_kept {μ : Nat} (s : State) (hμ : 0x204 &&& μ = 0x204 := by decide) : (State.hostGone s).kept μ = s.kept μ := kept_mono hμ (by
  unfold State.hostGone
  repeat' (first | with_reducible rfl | (simp; done) | split | (refine (kept_foldl (fun _ _ => ?_) _ _).trans ?_) | (simp; fail_if_success done)))

theorem execHostLinkChange_keeps {μ : Nat} (rate : Fin 4) (s0 : State) (hμ : 0x2C0216 &&& μ = 0x2C0216 := by decide) : Keeps μ (s0.kept μ) (execHostLinkChange rate s0) := Keeps.mono hμ (by
  unfold execHostLinkChange
  (repeat' (first | with_reducible rfl | trivial | (simp; done) | (refine keeps_checked ?_) | split | (simp only [keeps_done]; fail_if_success done) | (refine (kept_foldl (fun _ _ => ?_) _ _).trans ?_) | (simp; fail_if_success done))); done)

theorem execPcieReset_keeps {μ : Nat} (s : State) (hμ : 0x204 &&& μ = 0x204 := by decide) : Keeps μ (s.kept μ) (execPcieReset s) := Keeps.mono hμ (by
  unfold execPcieReset
  (repeat' (first | with_reducible rfl | trivial | (simp; done) | (refine keeps_checked ?_) | split | (simp only [keeps_done]; fail_if_success done) | (refine (kept_foldl (fun _ _ => ?_) _ _).trans ?_) | (simp; fail_if_success done))); done)

/-! ### Turns -/

@[simp] theorem State.bar2Tile_kept {μ : Nat} (i : Nat) (s : State) (hμ : 0x2C0054 &&& μ = 0x2C0054 := by decide) : (State.bar2Tile i s).1.kept μ = s.kept μ := kept_mono hμ (by
  unfold State.bar2Tile
  repeat' (first | with_reducible rfl | (simp; done) | split | (refine (kept_foldl (fun _ _ => ?_) _ _).trans ?_) | (simp; fail_if_success done)))

theorem bar2Tiles_kept {μ : Nat} (l : List Nat) (a : State × Option (List Byte)) (hμ : 0x2C0054 &&& μ = 0x2C0054 := by decide) : (l.foldl (fun acc i => match acc with
    | (s, none) => (s, none)
    | (s, some bs) => match s.bar2Tile i with
      | (t, some b) => (t, some (bs ++ b))
      | (t, none) => (t, none)) a).1.kept μ = a.1.kept μ := kept_mono hμ (by
  induction l generalizing a with
  | nil => rfl
  | cons g l ih =>
    rw [List.foldl_cons, ih]
    obtain ⟨t, _ | bs⟩ := a
    · rfl
    · have := State.bar2Tile_kept (μ := 0x2C0054) g t
      simp only
      split <;> simp_all)
@[simp] theorem State.bar2Get_kept {μ : Nat} (a b) (s : State) (hμ : 0x2C0054 &&& μ = 0x2C0054 := by decide) : (State.bar2Get a b s).kept μ = s.kept μ := kept_mono hμ (by
  unfold State.bar2Get
  simp only
  split
  · exact (State.kept_emit ..).trans (bar2Tiles_kept _ _)
  · exact (State.kept_emit ..).trans (bar2Tiles_kept _ _))

@[simp] theorem State.bar2Tile1_kept {μ : Nat} (a : Nat) (bytes : List Byte) (i : Nat) (s : State) (hμ : 0x1C0 &&& μ = 0x1C0 := by decide) : (State.bar2Tile1 a bytes i s).kept μ = s.kept μ := kept_mono hμ (by
  unfold State.bar2Tile1
  repeat' (first | with_reducible rfl | (simp; done) | split | (refine (kept_foldl (fun _ _ => ?_) _ _).trans ?_) | (simp; fail_if_success done)))

@[simp] theorem State.bar2Put_kept {μ : Nat} (a : Nat) (bs : List Byte) (s : State) (hμ : 0x1C0 &&& μ = 0x1C0 := by decide) : (State.bar2Put a bs s).kept μ = s.kept μ := kept_mono hμ (by
  unfold State.bar2Put
  repeat' (first | with_reducible rfl | (simp; done) | split | (refine (kept_foldl (fun _ _ => ?_) _ _).trans ?_) | (simp; fail_if_success done)))

@[simp] theorem State.accessNow_kept {μ : Nat} (x : BestAccess) (s : State) (hμ : 0x2C03D4 &&& μ = 0x2C03D4 := by decide) : (State.accessNow x s).kept μ = s.kept μ := kept_mono hμ (by
  unfold State.accessNow
  repeat' (first | with_reducible rfl | (simp; done) | split | (refine (kept_foldl (fun _ _ => ?_) _ _).trans ?_) | (simp; fail_if_success done)))

@[simp] theorem State.access_kept {μ : Nat} (x : BestAccess) (s : State) (hμ : 0x2C03D4 &&& μ = 0x2C03D4 := by decide) : (State.access x s).kept μ = s.kept μ := kept_mono hμ (by
  unfold State.access
  repeat' (first | with_reducible rfl | (simp; done) | split | (refine (kept_foldl (fun _ _ => ?_) _ _).trans ?_) | (simp; fail_if_success done)))

@[simp] theorem State.serveWaits_kept {μ : Nat} (l : List BestAccess) (s : State) (hμ : 0x2C03D4 &&& μ = 0x2C03D4 := by decide) : (State.serveWaits l s).kept μ = s.kept μ := kept_mono hμ (by
  induction l generalizing s with
  | nil => rfl
  | cons x l ih =>
    unfold State.serveWaits
    split
    · exact (ih _).trans ((State.accessNow_kept ..).trans (State.kept_onBud ..))
    · rfl)

@[simp] theorem State.drainAll_kept {μ : Nat}  (s : State) (hμ : 0x2C0254 &&& μ = 0x2C0254 := by decide) : (State.drainAll s).kept μ = s.kept μ := kept_mono hμ (by
  unfold State.drainAll
  exact kept_foldl (fun _ _ => State.drainExports_kept ..) _ _)

theorem execTurnStart_keeps {μ : Nat} (s0 : State) (hμ : 0x2C03D4 &&& μ = 0x2C03D4 := by decide) : Keeps μ (s0.kept μ) (execTurnStart s0) := Keeps.mono hμ (by
  unfold execTurnStart
  (repeat' (first | with_reducible rfl | trivial | (simp; done) | (refine keeps_checked ?_) | split | (simp only [keeps_done]; fail_if_success done) | (refine (kept_foldl (fun _ _ => ?_) _ _).trans ?_) | (simp; fail_if_success done))); done)

@[simp] theorem State.bar2Read_kept {μ : Nat} (off : Nat) (len : Nat) (s : State) (hμ : 0x2C03D4 &&& μ = 0x2C03D4 := by decide) : (State.bar2Read off len s).kept μ = s.kept μ := kept_mono hμ (by
  unfold State.bar2Read
  repeat' (first | with_reducible rfl | (simp; done) | split | (refine (kept_foldl (fun _ _ => ?_) _ _).trans ?_) | (simp; fail_if_success done)))

theorem execBar2Read_keeps {μ : Nat} (off : BitVec 32) (len : Fin 4097) (s : State) (hμ : 0x2C03D4 &&& μ = 0x2C03D4 := by decide) : Keeps μ (s.kept μ) (execBar2Read off len s) := Keeps.mono hμ (State.hostAccess_keeps _ _ (fun _ => State.bar2Read_kept ..))

@[simp] theorem State.bar2Write_kept {μ : Nat} (off : Nat) (bytes : List Byte) (s : State) (hμ : 0x2C03D4 &&& μ = 0x2C03D4 := by decide) : (State.bar2Write off bytes s).kept μ = s.kept μ := kept_mono hμ (by
  unfold State.bar2Write
  repeat' (first | with_reducible rfl | (simp; done) | split | (refine (kept_foldl (fun _ _ => ?_) _ _).trans ?_) | (simp; fail_if_success done)))

theorem execBar2Write_keeps {μ : Nat} (off : BitVec 32) (bytes : List Byte) (s : State) (hμ : 0x2C03D4 &&& μ = 0x2C03D4 := by decide) : Keeps μ (s.kept μ) (execBar2Write off bytes s) := Keeps.mono hμ (State.hostAccess_keeps _ _ (fun _ => State.bar2Write_kept ..))

/-! ### Ports -/

@[simp] theorem State.receive_kept {μ : Nat} (op : Nat) (q : Req) (s : State) (hμ : 0x4 &&& μ = 0x4 := by decide) : (State.receive op q s).kept μ = s.kept μ := kept_mono hμ (by
  unfold State.receive
  repeat' (first | with_reducible rfl | (simp; done) | split | (refine (kept_foldl (fun _ _ => ?_) _ _).trans ?_) | (simp; fail_if_success done)))

theorem execP2Request_keeps {μ : Nat} (opcode : BitVec 16) (q : Req) (s0 : State) (hμ : 0x4 &&& μ = 0x4 := by decide) : Keeps μ (s0.kept μ) (execP2Request opcode q s0) := Keeps.mono hμ (by
  unfold execP2Request
  (repeat' (first | with_reducible rfl | trivial | (simp; done) | (refine keeps_checked ?_) | split | (simp only [keeps_done]; fail_if_success done) | (refine (kept_foldl (fun _ _ => ?_) _ _).trans ?_) | (simp; fail_if_success done))); done)

theorem execP3Request_keeps {μ : Nat} (opcode : BitVec 16) (q : Req) (s0 : State) (hμ : 0x4 &&& μ = 0x4 := by decide) : Keeps μ (s0.kept μ) (execP3Request opcode q s0) := Keeps.mono hμ (by
  unfold execP3Request
  (repeat' (first | with_reducible rfl | trivial | (simp; done) | (refine keeps_checked ?_) | split | (simp only [keeps_done]; fail_if_success done) | (refine (kept_foldl (fun _ _ => ?_) _ _).trans ?_) | (simp; fail_if_success done))); done)

@[simp] theorem State.expireQueued_kept {μ : Nat} (p : Port) (chan : Nat) (sender : Nat) (seq : BitVec 16) (s : State) (hμ : 0x4 &&& μ = 0x4 := by decide) : (State.expireQueued p chan sender seq s).kept μ = s.kept μ := kept_mono hμ (by
  unfold State.expireQueued
  repeat' (first | with_reducible rfl | (simp; done) | split | (refine (kept_foldl (fun _ _ => ?_) _ _).trans ?_) | (simp; fail_if_success done)))

theorem execCommandDeadline_keeps {μ : Nat} (port : Port) (chan : Nat) (sender : Nat) (seq : BitVec 16) (s0 : State) (hμ : 0x204 &&& μ = 0x204 := by decide) : Keeps μ (s0.kept μ) (execCommandDeadline port chan sender seq s0) := Keeps.mono hμ (by
  unfold execCommandDeadline
  (repeat' (first | with_reducible rfl | trivial | (simp; done) | (refine keeps_checked ?_) | split | (simp only [keeps_done]; fail_if_success done) | (refine (kept_foldl (fun _ _ => ?_) _ _).trans ?_) | (simp; fail_if_success done))); done)

@[simp] theorem sbWriteDo_kept {μ : Nat} (e : BitVec 128) (s : State) (hμ : 0x6C0014 &&& μ = 0x6C0014 := by decide) : (sbWriteDo e s).kept μ = s.kept μ := kept_mono hμ (by
  unfold sbWriteDo
  repeat' (first | with_reducible rfl | (simp; done) | split | (refine (kept_foldl (fun _ _ => ?_) _ _).trans ?_) | (simp; fail_if_success done)))

theorem cmdSbWrite_ok {μ : Nat} (q : Req) (s : State) (hμ : 0x6C0014 &&& μ = 0x6C0014 := by decide) : OkKept μ (s.kept μ) (fun x => x.1) (cmdSbWrite q s) := OkKept.mono hμ (by
  unfold cmdSbWrite
  (repeat' (first | exact OkKept.error _ | (refine OkKept.pure ?_; (first | with_reducible rfl | (simp; done) | (simp_all; done) | (split <;> simp_all; done))) | (refine OkKept.ok ?_; (first | with_reducible rfl | (simp; done) | (simp_all; done))) | split | (refine OkKept.bind (fun _ _ => ?_)) | (simp only; fail_if_success done))); done)

theorem execSbWrite_keeps {μ : Nat} (q : Req) (s : State) (hμ : 0x6C0014 &&& μ = 0x6C0014 := by decide) : Keeps μ (s.kept μ) (execSbWrite q s) := Keeps.mono hμ (by
  unfold execSbWrite; exact serve_keeps _ _ _ _ (fun _ _ => cmdSbWrite_ok ..))

theorem State.tap_keeps {μ : Nat} (code : BitVec 8) (f : State → State) (s0 : State) (h : ∀ s, (f s).kept μ = s.kept μ)
    (hμ : 0x4 &&& μ = 0x4 := by decide) : Keeps μ (s0.kept μ) (State.tap code f s0) := by
  unfold State.tap
  simp only [keeps_done]
  split
  · rfl
  · rw [h]; exact State.kept_onCtl _ _ rfl hμ

@[simp] theorem freeBytes_kept {μ : Nat} (n) (s : State) (hμ : 0x400000 &&& μ = 0x400000 := by decide) : (freeBytes n s).2.kept μ = s.kept μ := kept_mono hμ (by
  induction n generalizing s with
  | zero => rfl
  | succ n ih => simp only [freeBytes]; rw [ih]; simp)

@[simp] theorem State.shiftFree_kept {μ : Nat} (n : Nat) (s : State) (hμ : 0x400000 &&& μ = 0x400000 := by decide) : (State.shiftFree n s).kept μ = s.kept μ := kept_mono hμ (by
  unfold State.shiftFree
  repeat' (first | with_reducible rfl | (simp; done) | split | (refine (kept_foldl (fun _ _ => ?_) _ _).trans ?_) | (simp; fail_if_success done)))

theorem execIdcode_keeps {μ : Nat} (s : State) (hμ : 0x4 &&& μ = 0x4 := by decide) : Keeps μ (s.kept μ) (execIdcode s) := Keeps.mono hμ (State.tap_keeps _ _ _ (fun _ => by first | rfl | simp | (split <;> simp)))

theorem execSamplePreload_keeps {μ : Nat} (bits : List Byte) (s : State) (hμ : 0x400004 &&& μ = 0x400004 := by decide) : Keeps μ (s.kept μ) (execSamplePreload bits s) := Keeps.mono hμ (State.tap_keeps _ _ _ (fun _ => by first | rfl | simp | (split <;> simp)))

theorem execExtest_keeps {μ : Nat} (bits : List Byte) (s : State) (hμ : 0x400004 &&& μ = 0x400004 := by decide) : Keeps μ (s.kept μ) (execExtest bits s) := Keeps.mono hμ (State.tap_keeps _ _ _ (fun _ => by first | rfl | simp | (split <;> simp)))

theorem execHalt_keeps {μ : Nat} (s : State) (hμ : 0x400004 &&& μ = 0x400004 := by decide) : Keeps μ (s.kept μ) (execHalt s) := Keeps.mono hμ (State.tap_keeps _ _ _ (fun _ => by first | rfl | simp | (split <;> simp)))

theorem execCommand_keeps {μ : Nat} (bytes : List Byte) (s : State) (hμ : 0x4 &&& μ = 0x4 := by decide) : Keeps μ (s.kept μ) (execCommand bytes s) := Keeps.mono hμ (State.tap_keeps _ _ _ (fun _ => by first | rfl | simp | (split <;> simp)))

theorem execDoorbell_keeps {μ : Nat} (opcode : BitVec 16) (q : Req) (s : State) (hμ : 0x4 &&& μ = 0x4 := by decide) : Keeps μ (s.kept μ) (execDoorbell opcode q s) := Keeps.mono hμ (State.tap_keeps _ _ _ (fun _ => by first | rfl | simp | (split <;> simp)))

theorem execBypass_keeps {μ : Nat} (code : BitVec 8) (s : State) (hμ : 0x4 &&& μ = 0x4 := by decide) : Keeps μ (s.kept μ) (execBypass code s) := Keeps.mono hμ (State.tap_keeps _ _ _ (fun _ => by first | rfl | simp | (split <;> simp)))

/-! ### Update -/

@[simp] theorem State.setSlotBytes_kept {μ : Nat} (slot : Nat) (bs : List Byte) (s : State) (hμ : 0x100000 &&& μ = 0x100000 := by decide) : (State.setSlotBytes slot bs s).kept μ = s.kept μ := kept_mono hμ (by
  unfold State.setSlotBytes
  repeat' (first | with_reducible rfl | (simp; done) | split | (refine (kept_foldl (fun _ _ => ?_) _ _).trans ?_) | (simp; fail_if_success done)))

theorem cmdUpdBegin_ok {μ : Nat} (q : Req) (s : State) (hμ : 0x100000 &&& μ = 0x100000 := by decide) : OkKept μ (s.kept μ) (fun x => x.1) (cmdUpdBegin q s) := OkKept.mono hμ (by
  unfold cmdUpdBegin
  (repeat' (first | exact OkKept.error _ | (refine OkKept.pure ?_; (first | with_reducible rfl | (simp; done) | (simp_all; done) | (split <;> simp_all; done))) | (refine OkKept.ok ?_; (first | with_reducible rfl | (simp; done) | (simp_all; done))) | split | (refine OkKept.bind (fun _ _ => ?_)) | (simp only; fail_if_success done))); done)

theorem execUpdBegin_keeps {μ : Nat} (q : Req) (s : State) (hμ : 0x3C0014 &&& μ = 0x3C0014 := by decide) : Keeps μ (s.kept μ) (execUpdBegin q s) := Keeps.mono hμ (by
  unfold execUpdBegin; exact serve_keeps _ _ _ _ (fun _ _ => cmdUpdBegin_ok ..))

@[simp] theorem State.updateFails_kept {μ : Nat} (slot : Nat) (s : State) (hμ : 0x3C0014 &&& μ = 0x3C0014 := by decide) : (State.updateFails slot s).kept μ = s.kept μ := kept_mono hμ (by
  unfold State.updateFails
  repeat' (first | with_reducible rfl | (simp; done) | split | (refine (kept_foldl (fun _ _ => ?_) _ _).trans ?_) | (simp; fail_if_success done)))

@[simp] theorem chunkDo_kept {μ : Nat} (w : UpdOpen) (data : List Byte) (s : State) (hμ : 0x100000 &&& μ = 0x100000 := by decide) : (chunkDo w data s).kept μ = s.kept μ := kept_mono hμ (by
  unfold chunkDo
  repeat' (first | with_reducible rfl | (simp; done) | split | (refine (kept_foldl (fun _ _ => ?_) _ _).trans ?_) | (simp; fail_if_success done)))

theorem cmdUpdChunk_ok {μ : Nat} (programFails : Bool) (q : Req) (s : State) (hμ : 0x3C0014 &&& μ = 0x3C0014 := by decide) : OkKept μ (s.kept μ) Ans.state (cmdUpdChunk programFails q s) := OkKept.mono hμ (by
  unfold cmdUpdChunk
  (repeat' (first | exact OkKept.error _ | (refine OkKept.pure ?_; (first | with_reducible rfl | (simp; done) | (simp_all; done) | (split <;> simp_all; done))) | (refine OkKept.ok ?_; (first | with_reducible rfl | (simp; done) | (simp_all; done))) | split | (refine OkKept.bind (fun _ _ => ?_)) | (simp only; fail_if_success done))); done)

theorem execUpdChunk_keeps {μ : Nat} (q : Req) (programFails : Bool) (s : State) (hμ : 0x3C0014 &&& μ = 0x3C0014 := by decide) : Keeps μ (s.kept μ) (execUpdChunk q programFails s) := Keeps.mono hμ (by
  unfold execUpdChunk; exact serveAns_keeps _ _ _ _ (fun _ _ => cmdUpdChunk_ok ..))

theorem cmdUpdEnd_ok {μ : Nat} (q : Req) (s : State) (hμ : 0x100000 &&& μ = 0x100000 := by decide) : OkKept μ (s.kept μ) Ans.state (cmdUpdEnd q s) := OkKept.mono hμ (by
  unfold cmdUpdEnd
  (repeat' (first | exact OkKept.error _ | (refine OkKept.pure ?_; (first | with_reducible rfl | (simp; done) | (simp_all; done) | (split <;> simp_all; done))) | (refine OkKept.ok ?_; (first | with_reducible rfl | (simp; done) | (simp_all; done))) | split | (refine OkKept.bind (fun _ _ => ?_)) | (simp only; fail_if_success done))); done)

theorem execUpdEnd_keeps {μ : Nat} (q : Req) (s : State) (hμ : 0x3C0014 &&& μ = 0x3C0014 := by decide) : Keeps μ (s.kept μ) (execUpdEnd q s) := Keeps.mono hμ (by
  unfold execUpdEnd; exact serveAns_keeps _ _ _ _ (fun _ _ => cmdUpdEnd_ok ..))

theorem cmdUpdActivate_ok {μ : Nat} (verdict : ImageVerdict) (q : Req) (s : State) (hμ : 0x7F24D6 &&& μ = 0x7F24D6 := by decide) : OkKept μ (s.kept μ) (fun x => x.1) (cmdUpdActivate verdict q s) := OkKept.mono hμ (by
  unfold cmdUpdActivate
  (repeat' (first | exact OkKept.error _ | (refine OkKept.pure ?_; (first | with_reducible rfl | (simp; done) | (simp_all; done) | (split <;> simp_all; done))) | (refine OkKept.ok ?_; (first | with_reducible rfl | (simp; done) | (simp_all; done))) | split | (refine OkKept.bind (fun _ _ => ?_)) | (simp only; fail_if_success done))); done)

theorem execUpdActivate_keeps {μ : Nat} (q : Req) (verdict : ImageVerdict) (s : State) (hμ : 0x7F24D6 &&& μ = 0x7F24D6 := by decide) : Keeps μ (s.kept μ) (execUpdActivate q verdict s) := Keeps.mono hμ (by
  unfold execUpdActivate; exact serve_keeps _ _ _ _ (fun _ _ => cmdUpdActivate_ok ..))

theorem cmdUpdQuery_ok {μ : Nat} (q : Req) (s : State) (hμ : 0x0 &&& μ = 0x0 := by decide) : OkKept μ (s.kept μ) (fun x => x.1) (cmdUpdQuery q s) := OkKept.mono hμ (by
  unfold cmdUpdQuery
  (repeat' (first | exact OkKept.error _ | (refine OkKept.pure ?_; (first | with_reducible rfl | (simp; done) | (simp_all; done) | (split <;> simp_all; done))) | (refine OkKept.ok ?_; (first | with_reducible rfl | (simp; done) | (simp_all; done))) | split | (refine OkKept.bind (fun _ _ => ?_)) | (simp only; fail_if_success done))); done)

theorem execUpdQuery_keeps {μ : Nat} (q : Req) (s : State) (hμ : 0x2C0014 &&& μ = 0x2C0014 := by decide) : Keeps μ (s.kept μ) (execUpdQuery q s) := Keeps.mono hμ (by
  unfold execUpdQuery; exact serve_keeps _ _ _ _ (fun _ _ => cmdUpdQuery_ok ..))

/-! ### TestLoops -/

theorem cmdTestGen_ok {μ : Nat} (q : Req) (s : State) (hμ : 0x200000 &&& μ = 0x200000 := by decide) : OkKept μ (s.kept μ) (fun x => x.1) (cmdTestGen q s) := OkKept.mono hμ (by
  unfold cmdTestGen
  (repeat' (first | exact OkKept.error _ | (refine OkKept.pure ?_; (first | with_reducible rfl | (simp; done) | (simp_all; done) | (split <;> simp_all; done))) | (refine OkKept.ok ?_; (first | with_reducible rfl | (simp; done) | (simp_all; done))) | split | (refine OkKept.bind (fun _ _ => ?_)) | (simp only; fail_if_success done))); done)

theorem execTestGen_keeps {μ : Nat} (q : Req) (s : State) (hμ : 0x2C0014 &&& μ = 0x2C0014 := by decide) : Keeps μ (s.kept μ) (execTestGen q s) := Keeps.mono hμ (by
  unfold execTestGen; exact serve_keeps _ _ _ _ (fun _ _ => cmdTestGen_ok ..))

theorem cmdTestCheck_ok {μ : Nat} (q : Req) (s : State) (hμ : 0x200000 &&& μ = 0x200000 := by decide) : OkKept μ (s.kept μ) (fun x => x.1) (cmdTestCheck q s) := OkKept.mono hμ (by
  unfold cmdTestCheck
  (repeat' (first | exact OkKept.error _ | (refine OkKept.pure ?_; (first | with_reducible rfl | (simp; done) | (simp_all; done) | (split <;> simp_all; done))) | (refine OkKept.ok ?_; (first | with_reducible rfl | (simp; done) | (simp_all; done))) | split | (refine OkKept.bind (fun _ _ => ?_)) | (simp only; fail_if_success done))); done)

theorem execTestCheck_keeps {μ : Nat} (q : Req) (s : State) (hμ : 0x2C0014 &&& μ = 0x2C0014 := by decide) : Keeps μ (s.kept μ) (execTestCheck q s) := Keeps.mono hμ (by
  unfold execTestCheck; exact serve_keeps _ _ _ _ (fun _ _ => cmdTestCheck_ok ..))

theorem execCheckerLock_keeps {μ : Nat} (lane : Fin 224) (locked : Bool) (bits : BitVec 64) (errors : BitVec 64) (s0 : State) (hμ : 0x200000 &&& μ = 0x200000 := by decide) : Keeps μ (s0.kept μ) (execCheckerLock lane locked bits errors s0) := Keeps.mono hμ (by
  unfold execCheckerLock
  (repeat' (first | with_reducible rfl | trivial | (simp; done) | (refine keeps_checked ?_) | split | (simp only [keeps_done]; fail_if_success done) | (refine (kept_foldl (fun _ _ => ?_) _ _).trans ?_) | (simp; fail_if_success done))); done)

theorem cmdTestLoop_ok {μ : Nat} (q : Req) (s : State) (hμ : 0x200000 &&& μ = 0x200000 := by decide) : OkKept μ (s.kept μ) (fun x => x.1) (cmdTestLoop q s) := OkKept.mono hμ (by
  unfold cmdTestLoop
  (repeat' (first | exact OkKept.error _ | (refine OkKept.pure ?_; (first | with_reducible rfl | (simp; done) | (simp_all; done) | (split <;> simp_all; done))) | (refine OkKept.ok ?_; (first | with_reducible rfl | (simp; done) | (simp_all; done))) | split | (refine OkKept.bind (fun _ _ => ?_)) | (simp only; fail_if_success done))); done)

theorem execTestLoop_keeps {μ : Nat} (q : Req) (s : State) (hμ : 0x2C0014 &&& μ = 0x2C0014 := by decide) : Keeps μ (s.kept μ) (execTestLoop q s) := Keeps.mono hμ (by
  unfold execTestLoop; exact serve_keeps _ _ _ _ (fun _ _ => cmdTestLoop_ok ..))

theorem cmdTestResult_ok {μ : Nat} (q : Req) (s : State) (hμ : 0x200000 &&& μ = 0x200000 := by decide) : OkKept μ (s.kept μ) (fun x => x.1) (cmdTestResult q s) := OkKept.mono hμ (by
  unfold cmdTestResult
  (repeat' (first | exact OkKept.error _ | (refine OkKept.pure ?_; (first | with_reducible rfl | (simp; done) | (simp_all; done) | (split <;> simp_all; done))) | (refine OkKept.ok ?_; (first | with_reducible rfl | (simp; done) | (simp_all; done))) | split | (refine OkKept.bind (fun _ _ => ?_)) | (simp only; fail_if_success done))); done)

theorem execTestResult_keeps {μ : Nat} (q : Req) (s : State) (hμ : 0x2C0014 &&& μ = 0x2C0014 := by decide) : Keeps μ (s.kept μ) (execTestResult q s) := Keeps.mono hμ (by
  unfold execTestResult; exact serve_keeps _ _ _ _ (fun _ _ => cmdTestResult_ok ..))

theorem cmdTestMem_ok {μ : Nat} (q : Req) (s : State) (hμ : 0x200000 &&& μ = 0x200000 := by decide) : OkKept μ (s.kept μ) Ans.state (cmdTestMem q s) := OkKept.mono hμ (by
  unfold cmdTestMem
  (repeat' (first | exact OkKept.error _ | (refine OkKept.pure ?_; (first | with_reducible rfl | (simp; done) | (simp_all; done) | (split <;> simp_all; done))) | (refine OkKept.ok ?_; (first | with_reducible rfl | (simp; done) | (simp_all; done))) | split | (refine OkKept.bind (fun _ _ => ?_)) | (simp only; fail_if_success done))); done)

theorem execTestMem_keeps {μ : Nat} (q : Req) (s : State) (hμ : 0x2C0014 &&& μ = 0x2C0014 := by decide) : Keeps μ (s.kept μ) (execTestMem q s) := Keeps.mono hμ (by
  unfold execTestMem; exact serveAns_keeps _ _ _ _ (fun _ _ => cmdTestMem_ok ..))

theorem execMemoryTestComplete_keeps {μ : Nat} (errors : List (BitVec 32)) (s0 : State) (hμ : 0x2001C4 &&& μ = 0x2001C4 := by decide) : Keeps μ (s0.kept μ) (execMemoryTestComplete errors s0) := Keeps.mono hμ (by
  unfold execMemoryTestComplete
  (repeat' (first | with_reducible rfl | trivial | (simp; done) | (refine keeps_checked ?_) | split | (simp only [keeps_done]; fail_if_success done) | (refine (kept_foldl (fun _ _ => ?_) _ _).trans ?_) | (simp; fail_if_success done))); done)

theorem cmdTestShadow_ok {μ : Nat} (q : Req) (s : State) (hμ : 0x200000 &&& μ = 0x200000 := by decide) : OkKept μ (s.kept μ) Ans.state (cmdTestShadow q s) := OkKept.mono hμ (by
  unfold cmdTestShadow
  (repeat' (first | exact OkKept.error _ | (refine OkKept.pure ?_; (first | with_reducible rfl | (simp; done) | (simp_all; done) | (split <;> simp_all; done))) | (refine OkKept.ok ?_; (first | with_reducible rfl | (simp; done) | (simp_all; done))) | split | (refine OkKept.bind (fun _ _ => ?_)) | (simp only; fail_if_success done))); done)

theorem execTestShadow_keeps {μ : Nat} (q : Req) (s : State) (hμ : 0x2C0014 &&& μ = 0x2C0014 := by decide) : Keeps μ (s.kept μ) (execTestShadow q s) := Keeps.mono hμ (by
  unfold execTestShadow; exact serveAns_keeps _ _ _ _ (fun _ _ => cmdTestShadow_ok ..))

theorem execShadowCheckComplete_keeps {μ : Nat} (failed : BitVec 144) (s0 : State) (hμ : 0x200004 &&& μ = 0x200004 := by decide) : Keeps μ (s0.kept μ) (execShadowCheckComplete failed s0) := Keeps.mono hμ (by
  unfold execShadowCheckComplete
  (repeat' (first | with_reducible rfl | trivial | (simp; done) | (refine keeps_checked ?_) | split | (simp only [keeps_done]; fail_if_success done) | (refine (kept_foldl (fun _ _ => ?_) _ _).trans ?_) | (simp; fail_if_success done))); done)

/-! ### Opcodes -/

theorem atOnce_ok {μ : Nat} (body : Req → State → Res) (q : Req) (s : State) (h : OkKept μ (s.kept μ) (fun x => x.1) (body q s)) :
    OkKept μ (s.kept μ) Ans.state (atOnce body q s) := h.map (fun _ => rfl)

theorem runOpcode_ok {μ : Nat} {peers : List PeerAnswer} (op : Nat) (q : Req) (s : State) (hμ : 0x7FFEFF &&& μ = 0x7FFEFF := by decide) :
    OkKept μ (s.kept μ) Ans.state (runOpcode op q s peers) := OkKept.mono hμ (by
  unfold runOpcode
  split
  · exact atOnce_ok _ _ _ (cmdSessionInfo_ok ..)
  · exact atOnce_ok _ _ _ (cmdSessionOpen_ok ..)
  · exact atOnce_ok _ _ _ (cmdSessionClose_ok ..)
  · exact atOnce_ok _ _ _ (cmdPowerSet_ok ..)
  · exact cmdProfileSet_ok ..
  · exact atOnce_ok _ _ _ (cmdBudgetQuery_ok ..)
  · exact atOnce_ok _ _ _ (cmdSessionReset_ok ..)
  · exact atOnce_ok _ _ _ (cmdPrivRead_ok ..)
  · exact atOnce_ok _ _ _ (cmdPrivWrite_ok ..)
  · exact atOnce_ok _ _ _ (cmdRingCreate_ok ..)
  · exact atOnce_ok _ _ _ (cmdRingDelete_ok ..)
  · exact atOnce_ok _ _ _ (cmdRingModify_ok ..)
  · exact atOnce_ok _ _ _ (cmdRingQuery_ok ..)
  · exact atOnce_ok _ _ _ (cmdMemStatus_ok ..)
  · exact atOnce_ok _ _ _ (cmdFlowInsert_ok ..)
  · exact atOnce_ok _ _ _ (cmdFlowModify_ok ..)
  · exact atOnce_ok _ _ _ (cmdFlowDelete_ok ..)
  · exact atOnce_ok _ _ _ (cmdFlowStatus_ok ..)
  · exact atOnce_ok _ _ _ (cmdIngestWrite_ok ..)
  · exact atOnce_ok _ _ _ (cmdMergeWrite_ok ..)
  · exact atOnce_ok _ _ _ (cmdMergeStatus_ok ..)
  · exact atOnce_ok _ _ _ (cmdHostqBind_ok ..)
  · exact atOnce_ok _ _ _ (cmdHostqUnbind_ok ..)
  · exact cmdHostInsert_ok ..
  · exact atOnce_ok _ _ _ (cmdCaptureFrames_ok ..)
  · exact atOnce_ok _ _ _ (cmdPlaneWrite_ok ..)
  · exact atOnce_ok _ _ _ (cmdPulseWrite_ok ..)
  · exact atOnce_ok _ _ _ (cmdClockWrite_ok ..)
  · exact atOnce_ok _ _ _ (cmdPlaneRead_ok ..)
  · exact atOnce_ok _ _ _ (cmdRouteWrite_ok ..)
  · exact atOnce_ok _ _ _ (cmdRouteRead_ok ..)
  · exact atOnce_ok _ _ _ (cmdRouteStatus_ok ..)
  · exact atOnce_ok _ _ _ (cmdSalvoAdd_ok ..)
  · exact atOnce_ok _ _ _ (cmdSalvoAdmit_ok ..)
  · exact cmdSalvoTake_ok ..
  · exact atOnce_ok _ _ _ (cmdSalvoAbandon_ok ..)
  · exact atOnce_ok _ _ _ (cmdSalvoQuery_ok ..)
  · exact atOnce_ok _ _ _ (cmdSalvoEntries_ok ..)
  · exact atOnce_ok _ _ _ (cmdPresetStore_ok ..)
  · exact atOnce_ok _ _ _ (cmdPresetLoad_ok ..)
  · exact atOnce_ok _ _ _ (cmdPresetDelete_ok ..)
  · exact atOnce_ok _ _ _ (cmdPresetList_ok ..)
  · exact atOnce_ok _ _ _ (cmdCompOutWrite_ok ..)
  · exact atOnce_ok _ _ _ (cmdCompLayerWrite_ok ..)
  · exact atOnce_ok _ _ _ (cmdCompMatrixWrite_ok ..)
  · exact atOnce_ok _ _ _ (cmdCompCursorWrite_ok ..)
  · exact cmdCompLoad_ok ..
  · exact atOnce_ok _ _ _ (cmdCompRead_ok ..)
  · exact atOnce_ok _ _ _ (cmdCompLayerRead_ok ..)
  · exact atOnce_ok _ _ _ (cmdCalWrite_ok ..)
  · exact atOnce_ok _ _ _ (cmdAudInWrite_ok ..)
  · exact atOnce_ok _ _ _ (cmdAudOutWrite_ok ..)
  · exact atOnce_ok _ _ _ (cmdAudBusWrite_ok ..)
  · exact atOnce_ok _ _ _ (cmdAudBusInputs_ok ..)
  · exact atOnce_ok _ _ _ (cmdAudDynWrite_ok ..)
  · exact atOnce_ok _ _ _ (cmdAudRead_ok ..)
  · exact atOnce_ok _ _ _ (cmdCandWrite_ok ..)
  · exact atOnce_ok _ _ _ (cmdRefWrite_ok ..)
  · exact atOnce_ok _ _ _ (cmdRefRead_ok ..)
  · exact atOnce_ok _ _ _ (cmdPhaseReset_ok ..)
  · exact atOnce_ok _ _ _ (cmdPtpInstWrite_ok ..)
  · exact atOnce_ok _ _ _ (cmdPtpServoWrite_ok ..)
  · exact atOnce_ok _ _ _ (cmdPtpTsCorr_ok ..)
  · exact atOnce_ok _ _ _ (cmdPtpSetTime_ok ..)
  · exact atOnce_ok _ _ _ (cmdPtpRead_ok ..)
  · exact atOnce_ok _ _ _ (cmdTroupeWrite_ok ..)
  · exact atOnce_ok _ _ _ (cmdLinkWrite_ok ..)
  · exact atOnce_ok _ _ _ (cmdLaneWrite_ok ..)
  · exact atOnce_ok _ _ _ (cmdTroupeImport_ok ..)
  · exact atOnce_ok _ _ _ (cmdTroupeUnimport_ok ..)
  · exact cmdTroupeForward_ok ..
  · exact atOnce_ok _ _ _ (cmdTroupeRead_ok ..)
  · exact atOnce_ok _ _ _ (cmdTwinWrite_ok ..)
  · exact atOnce_ok _ _ _ (cmdTwinRead_ok ..)
  · exact atOnce_ok _ _ _ (cmdTwinSwap_ok ..)
  · exact atOnce_ok _ _ _ (cmdRecRead_ok ..)
  · exact atOnce_ok _ _ _ (cmdRecClear_ok ..)
  · exact atOnce_ok _ _ _ (cmdRecLimit_ok ..)
  · exact atOnce_ok _ _ _ (cmdFaultRead_ok ..)
  · exact atOnce_ok _ _ _ (cmdFaultClear_ok ..)
  · exact atOnce_ok _ _ _ (cmdFaultForce_ok ..)
  · exact atOnce_ok _ _ _ (cmdEventConfig_ok ..)
  · exact atOnce_ok _ _ _ (cmdUpdBegin_ok ..)
  · exact cmdUpdChunk_ok ..
  · exact cmdUpdEnd_ok ..
  · exact atOnce_ok _ _ _ (cmdUpdActivate_ok ..)
  · exact atOnce_ok _ _ _ (cmdUpdQuery_ok ..)
  · exact atOnce_ok _ _ _ (cmdTestGen_ok ..)
  · exact atOnce_ok _ _ _ (cmdTestCheck_ok ..)
  · exact atOnce_ok _ _ _ (cmdTestLoop_ok ..)
  · exact atOnce_ok _ _ _ (cmdTestResult_ok ..)
  · exact cmdTestMem_ok ..
  · exact cmdTestShadow_ok ..
  · exact atOnce_ok _ _ _ (cmdSdiWrite_ok ..)
  · exact atOnce_ok _ _ _ (cmdEthWrite_ok ..)
  · exact atOnce_ok _ _ _ (cmdEthAddrWrite_ok ..)
  · exact atOnce_ok _ _ _ (cmdPktFlowWrite_ok ..)
  · exact atOnce_ok _ _ _ (cmdSbWrite_ok ..)
  · exact atOnce_ok _ _ _ (cmdPortSnapshot_ok ..)
  · exact atOnce_ok _ _ _ (cmdPortRead_ok ..)
  · exact atOnce_ok _ _ _ (cmdPktOutWrite_ok ..)
  · exact OkKept.error _)

theorem execUndefinedOpcode_keeps {μ : Nat} (opcode : BitVec 16) (q : Req) (s : State) (hμ : 0x2C0014 &&& μ = 0x2C0014 := by decide) : Keeps μ (s.kept μ) (execUndefinedOpcode opcode q s) := Keeps.mono hμ (by
  unfold execUndefinedOpcode
  refine keeps_checked ?_
  split
  · exact State.kept_fresh ..
  · exact serve_keeps _ _ _ _ (fun _ _ => OkKept.error _))

theorem execForwardedCommand_keeps {μ : Nat} (opcode : BitVec 16) (q : Req) (s : State) (hμ : 0x7FFEFF &&& μ = 0x7FFEFF := by decide) :
    Keeps μ (s.kept μ) (execForwardedCommand opcode q s) := Keeps.mono hμ (by
  unfold execForwardedCommand
  refine keeps_checked ?_
  split
  · exact (State.kept_onTrp ..).trans (State.kept_fresh ..)
  · exact serveAns_keeps _ _ _ _ (fun _ _ => runOpcode_ok ..))

/-! ### Mirror -/

theorem State.runMirror_ok {μ : Nat} (x : Mirror) (s : State) (hμ : 0x7FFEFF &&& μ = 0x7FFEFF := by decide) :
    OkKept μ (s.kept μ) Ans.state (State.runMirror x s) := ⟨fun a ha =>
  ((runOpcode_ok (peers := x.peers) (hμ := hμ) ..).out a ha).trans (State.kept_onCtl _ _ rfl (sub_of hμ (by decide)))⟩

@[simp] theorem State.unstamp_kept {μ : Nat} (s : State) (hμ : 0x4 &&& μ = 0x4 := by decide) : (State.unstamp s).kept μ = s.kept μ := kept_mono hμ (by
  unfold State.unstamp
  repeat' (first | with_reducible rfl | (simp; done) | split | (refine (kept_foldl (fun _ _ => ?_) _ _).trans ?_) | (simp; fail_if_success done)))

theorem ansState_kept {μ : Nat} (s : State) (r : Except Err Ans) (h : OkKept μ (s.kept μ) Ans.state r)
    (hμ : 0x2C0014 &&& μ = 0x2C0014 := by decide) : (ansState s r).kept μ = s.kept μ := by
  unfold ansState
  cases r with
  | ok a => exact (State.unstamp_kept (hμ := sub_of hμ (by decide)) ..).trans (h.out a rfl)
  | error e => exact State.raiseErr_kept (hμ := hμ) ..

@[simp] theorem State.takeMirror_kept {μ : Nat} (x : Mirror) (status : Nat) (s : State) (hμ : 0x7FFEFF &&& μ = 0x7FFEFF := by decide) :
    (State.takeMirror x status s).kept μ = s.kept μ := kept_mono hμ (by
  unfold State.takeMirror
  extract_lets r st s1 s2
  have h1 : s1.kept 0x7FFEFF = s.kept 0x7FFEFF := by
    simp only [s1]
    split
    · exact ansState_kept _ _ (State.runMirror_ok ..)
    · rfl
  have h2 : s2.kept 0x7FFEFF = s.kept 0x7FFEFF := (State.sendMessage_kept ..).trans ((State.kept_onTwin ..).trans h1)
  clear_value s2
  split
  · exact h2
  · exact (State.unsync_kept ..).trans h2)

theorem execMirror_keeps {μ : Nat} (mseq : BitVec 32) (opcode : BitVec 16) (q : Req) (status : BitVec 16) (target : BitVec 64) (s0 : State) (hμ : 0x7FFEFF &&& μ = 0x7FFEFF := by decide) : Keeps μ (s0.kept μ) (execMirror mseq opcode q status target s0) := Keeps.mono hμ (by
  unfold execMirror
  (repeat' (first | with_reducible rfl | trivial | (simp; done) | (refine keeps_checked ?_) | split | (simp only [keeps_done]; fail_if_success done) | (refine (kept_foldl (fun _ _ => ?_) _ _).trans ?_) | (simp; fail_if_success done))); done)

@[simp] theorem State.answerMirror_kept {μ : Nat} (m : Mirror) (s : State) (hμ : 0x4 &&& μ = 0x4 := by decide) : (State.answerMirror m s).kept μ = s.kept μ := kept_mono hμ (by
  unfold State.answerMirror
  repeat' (first | with_reducible rfl | (simp; done) | split | (refine (kept_foldl (fun _ _ => ?_) _ _).trans ?_) | (simp; fail_if_success done)))

@[simp] theorem State.ackMirror_kept {μ : Nat} (mseq : Nat) (s : State) (hμ : 0x80000 &&& μ = 0x80000 := by decide) : (State.ackMirror mseq s).kept μ = s.kept μ := kept_mono hμ (by
  unfold State.ackMirror
  repeat' (first | with_reducible rfl | (simp; done) | split | (refine (kept_foldl (fun _ _ => ?_) _ _).trans ?_) | (simp; fail_if_success done)))

theorem execMirrorAck_keeps {μ : Nat} (mseq : BitVec 32) (status : BitVec 16) (s0 : State) (hμ : 0x2C0014 &&& μ = 0x2C0014 := by decide) : Keeps μ (s0.kept μ) (execMirrorAck mseq status s0) := Keeps.mono hμ (by
  unfold execMirrorAck
  (repeat' (first | with_reducible rfl | trivial | (simp; done) | (refine keeps_checked ?_) | split | (simp only [keeps_done]; fail_if_success done) | (refine (kept_foldl (fun _ _ => ?_) _ _).trans ?_) | (simp; fail_if_success done))); done)

theorem execMirrorAckTimeout_keeps {μ : Nat} (s0 : State) (hμ : 0x2C0014 &&& μ = 0x2C0014 := by decide) : Keeps μ (s0.kept μ) (execMirrorAckTimeout s0) := Keeps.mono hμ (by
  unfold execMirrorAckTimeout
  (repeat' (first | with_reducible rfl | trivial | (simp; done) | (refine keeps_checked ?_) | split | (simp only [keeps_done]; fail_if_success done) | (refine (kept_foldl (fun _ _ => ?_) _ _).trans ?_) | (simp; fail_if_success done))); done)

@[simp] theorem State.rewait_kept {μ : Nat} (m : Mirror) (r : Except Err Ans) (s : State) (hμ : 0x4 &&& μ = 0x4 := by decide) : (State.rewait m r s).kept μ = s.kept μ := kept_mono hμ (by
  unfold State.rewait
  repeat' (first | with_reducible rfl | (simp; done) | split | (refine (kept_foldl (fun _ _ => ?_) _ _).trans ?_) | (simp; fail_if_success done)))

theorem execMirrorApply_keeps {μ : Nat} (s0 : State) (hμ : 0x7FFEFF &&& μ = 0x7FFEFF := by decide) :
    Keeps μ (s0.kept μ) (execMirrorApply s0) := Keeps.mono hμ (by
  unfold execMirrorApply
  simp only
  split
  · exact State.kept_fresh ..
  · split
    · exact State.kept_fresh ..
    · refine (State.kept_onTwin ..).trans ?_
      split
      · exact State.kept_fresh ..
      · exact (State.rewait_kept ..).trans ((ansState_kept _ _ (State.runMirror_ok ..)).trans (State.kept_fresh ..)))

/-! ### Resync -/

theorem execResyncStart_keeps {μ : Nat} (s0 : State) (hμ : 0xC0000 &&& μ = 0xC0000 := by decide) : Keeps μ (s0.kept μ) (execResyncStart s0) := Keeps.mono hμ (by
  unfold execResyncStart
  (repeat' (first | with_reducible rfl | trivial | (simp; done) | (refine keeps_checked ?_) | split | (simp only [keeps_done]; fail_if_success done) | (refine (kept_foldl (fun _ _ => ?_) _ _).trans ?_) | (simp; fail_if_success done))); done)

@[simp] theorem State.copyPorts_kept {μ : Nat} (c : HwCopy) (s : State) (hμ : 0x6F3CD4 &&& μ = 0x6F3CD4 := by decide) : (State.copyPorts c s).kept μ = s.kept μ := kept_mono hμ (by
  unfold State.copyPorts
  repeat' (first | with_reducible rfl | (simp; done) | split | (refine (kept_foldl (fun _ _ => ?_) _ _).trans ?_) | (simp; fail_if_success done)))

@[simp] theorem State.copyRings_kept {μ : Nat} (c : HwCopy) (s : State) (hμ : 0x240 &&& μ = 0x240 := by decide) : (State.copyRings c s).kept μ = s.kept μ := kept_mono hμ (by
  unfold State.copyRings
  repeat' (first | with_reducible rfl | (simp; done) | split | (refine (kept_foldl (fun _ _ => ?_) _ _).trans ?_) | (simp; fail_if_success done)))

@[simp] theorem State.copyRoutes_kept {μ : Nat} (c : HwCopy) (s : State) (hμ : 0x400 &&& μ = 0x400 := by decide) : (State.copyRoutes c s).kept μ = s.kept μ := kept_mono hμ (by
  unfold State.copyRoutes
  repeat' (first | with_reducible rfl | (simp; done) | split | (refine (kept_foldl (fun _ _ => ?_) _ _).trans ?_) | (simp; fail_if_success done)))

@[simp] theorem State.copyRefs_kept {μ : Nat} (c : HwCopy) (s : State) (hμ : 0x30000 &&& μ = 0x30000 := by decide) : (State.copyRefs c s).kept μ = s.kept μ := kept_mono hμ (by
  unfold State.copyRefs
  repeat' (first | with_reducible rfl | (simp; done) | split | (refine (kept_foldl (fun _ _ => ?_) _ _).trans ?_) | (simp; fail_if_success done)))

@[simp] theorem State.copyFlows_kept {μ : Nat} (c : HwCopy) (s : State) (hμ : 0x3000 &&& μ = 0x3000 := by decide) : (State.copyFlows c s).kept μ = s.kept μ := kept_mono hμ (by
  unfold State.copyFlows
  repeat' (first | with_reducible rfl | (simp; done) | split | (refine (kept_foldl (fun _ _ => ?_) _ _).trans ?_) | (simp; fail_if_success done)))

@[simp] theorem State.copyEssence_kept {μ : Nat} (c : HwCopy) (s : State) (hμ : 0xC000 &&& μ = 0xC000 := by decide) : (State.copyEssence c s).kept μ = s.kept μ := kept_mono hμ (by
  unfold State.copyEssence
  repeat' (first | with_reducible rfl | (simp; done) | split | (refine (kept_foldl (fun _ _ => ?_) _ _).trans ?_) | (simp; fail_if_success done)))

@[simp] theorem State.copyFaults_kept {μ : Nat} (c : HwCopy) (s : State) (hμ : 0x30 &&& μ = 0x30 := by decide) : (State.copyFaults c s).kept μ = s.kept μ := kept_mono hμ (by
  unfold State.copyFaults
  repeat' (first | with_reducible rfl | (simp; done) | split | (refine (kept_foldl (fun _ _ => ?_) _ _).trans ?_) | (simp; fail_if_success done)))

@[simp] theorem State.copyTroupe_kept {μ : Nat} (c : HwCopy) (s : State) (hμ : 0x4000C &&& μ = 0x4000C := by decide) :
    (State.copyTroupe c s).kept μ = s.kept μ := kept_mono hμ (by
  unfold State.copyTroupe
  exact (State.kept_onCtl' ..).trans (State.kept_onTrp ..))

@[simp] theorem State.takeCopy_kept {μ : Nat} (c : HwCopy) (s : State) (hμ : 0x6FFEFC &&& μ = 0x6FFEFC := by decide) : (State.takeCopy c s).kept μ = s.kept μ := kept_mono hμ (by
  unfold State.takeCopy
  repeat' (first | with_reducible rfl | (simp; done) | split | (refine (kept_foldl (fun _ _ => ?_) _ _).trans ?_) | (simp; fail_if_success done)))

@[simp] theorem State.resumeMirrors_kept {μ : Nat} (s : State) (hμ : 0x80000 &&& μ = 0x80000 := by decide) : (State.resumeMirrors s).kept μ = s.kept μ := kept_mono hμ (by
  unfold State.resumeMirrors
  repeat' (first | with_reducible rfl | (simp; done) | split | (refine (kept_foldl (fun _ _ => ?_) _ _).trans ?_) | (simp; fail_if_success done)))

theorem execResyncPoint_keeps {μ : Nat} (copy : HwCopy) (s0 : State) (hμ : 0x6FFEFC &&& μ = 0x6FFEFC := by decide) : Keeps μ (s0.kept μ) (execResyncPoint copy s0) := Keeps.mono hμ (by
  unfold execResyncPoint
  (repeat' (first | with_reducible rfl | trivial | (simp; done) | (refine keeps_checked ?_) | split | (simp only [keeps_done]; fail_if_success done) | (refine (kept_foldl (fun _ _ => ?_) _ _).trans ?_) | (simp; fail_if_success done))); done)

theorem execResyncTimeout_keeps {μ : Nat} (s0 : State) (hμ : 0x2C0014 &&& μ = 0x2C0014 := by decide) : Keeps μ (s0.kept μ) (execResyncTimeout s0) := Keeps.mono hμ (by
  unfold execResyncTimeout
  (repeat' (first | with_reducible rfl | trivial | (simp; done) | (refine keeps_checked ?_) | split | (simp only [keeps_done]; fail_if_success done) | (refine (kept_foldl (fun _ _ => ?_) _ _).trans ?_) | (simp; fail_if_success done))); done)

end Sys2Proof.Machine
end

