-- ==== Sys2Proof/Laws/Tab.lean ====
section
/-! SUPPORT. Sparse tables: reading after a setting, and that every operation keeps the canonical form. -/

set_option Elab.async false

namespace Sys2Proof.Machine

variable {α : Type}

/-- Keys strictly rise. -/
def Tab.rising (t : Tab α) : Prop := t.Pairwise (fun a b => a.1 < b.1)

theorem Tab.wf_iff [DecidableEq α] (d : Nat → α) (t : Tab α) :
    Tab.wf d t = true ↔ t.rising ∧ ∀ e ∈ t, e.2 ≠ d e.1 := by
  simp [Tab.wf, Tab.rising]

theorem tget_tput (d : Nat → α) (t : Tab α) (k : Nat) (v : α) (j : Nat) : tget d (tput t k v) j = if j = k then v else tget d t j := by
  induction t with
  | nil => rfl
  | cons e t ih =>
    obtain ⟨i, u⟩ := e
    simp only [tput]
    split_ifs with h1 h2 h3 <;> simp only [tget] <;> split_ifs <;> simp_all

theorem tget_tdel (d : Nat → α) (t : Tab α) (k j : Nat) : tget d (tdel t k) j = if j = k then d j else tget d t j := by
  induction t with
  | nil => simp only [tdel, tget, ite_self]
  | cons e t ih =>
    obtain ⟨i, u⟩ := e
    simp only [tdel]
    split_ifs with h1 h2 <;> (try simp only [tget]) <;> (try split_ifs) <;> simp_all

/-- What a table reads after an entry is set. -/
theorem tget_tset [DecidableEq α] (d : Nat → α) (t : Tab α) (k : Nat) (v : α) (j : Nat) :
    tget d (tset d t k v) j = if j = k then v else tget d t j := by
  unfold tset
  split_ifs with hv hj hj
  · rw [tget_tdel, if_pos hj, hj, hv]
  · rw [tget_tdel, if_neg hj]
  · rw [tget_tput, if_pos hj]
  · rw [tget_tput, if_neg hj]

@[simp] theorem tget_tset_same [DecidableEq α] (d : Nat → α) (t : Tab α) (k : Nat) (v : α) : tget d (tset d t k v) k = v := by
  rw [tget_tset, if_pos rfl]

theorem mem_tput (t : Tab α) (k : Nat) (v : α) (e : Nat × α) (h : e ∈ tput t k v) : e = (k, v) ∨ e ∈ t := by
  induction t with
  | nil => simp [tput] at h; exact .inl h
  | cons a t ih =>
    obtain ⟨i, u⟩ := a
    simp only [tput] at h
    split_ifs at h <;> simp only [List.mem_cons] at h ⊢ <;> tauto

theorem mem_tdel (t : Tab α) (k : Nat) (e : Nat × α) (h : e ∈ tdel t k) : e ∈ t := by
  induction t with
  | nil => exact h
  | cons a t ih =>
    obtain ⟨i, u⟩ := a
    simp only [tdel] at h
    split_ifs at h <;> simp only [List.mem_cons] at h ⊢ <;> tauto

theorem rising_tput (t : Tab α) (k : Nat) (v : α) (h : t.rising) : (tput t k v : Tab α).rising := by
  induction t with
  | nil => exact List.pairwise_singleton _ _
  | cons a t ih =>
    obtain ⟨i, u⟩ := a
    have h2 := List.pairwise_cons.1 h
    simp only [tput]
    split_ifs with h1 h3
    · subst h1; exact List.pairwise_cons.2 h2
    · refine List.pairwise_cons.2 ⟨fun e he => ?_, h⟩
      rcases List.mem_cons.1 he with rfl | he
      · exact h3
      · exact Nat.lt_trans h3 (h2.1 e he)
    · refine List.pairwise_cons.2 ⟨fun e he => ?_, ih h2.2⟩
      rcases mem_tput t k v e he with rfl | he
      · exact Nat.lt_of_le_of_ne (Nat.le_of_not_lt h3) (fun h => h1 h.symm)
      · exact h2.1 e he

theorem rising_tdel (t : Tab α) (k : Nat) (h : t.rising) : (tdel t k : Tab α).rising := by
  induction t with
  | nil => exact h
  | cons a t ih =>
    obtain ⟨i, u⟩ := a
    have h2 := List.pairwise_cons.1 h
    simp only [tdel]
    split_ifs
    · exact ih h2.2
    · exact List.pairwise_cons.2 ⟨fun e he => h2.1 e (mem_tdel t k e he), ih h2.2⟩

/-- Setting an entry keeps a table canonical. -/
theorem wf_tset [DecidableEq α] (d : Nat → α) (t : Tab α) (k : Nat) (v : α) (h : Tab.wf d t = true) :
    Tab.wf d (tset d t k v) = true := by
  rw [Tab.wf_iff] at h ⊢
  unfold tset
  split_ifs with hv
  · exact ⟨rising_tdel t k h.1, fun e he => h.2 e (mem_tdel t k e he)⟩
  · refine ⟨rising_tput t k v h.1, fun e he => ?_⟩
    rcases mem_tput t k v e he with rfl | he
    · exact hv
    · exact h.2 e he

theorem wf_empty [DecidableEq α] (d : Nat → α) : Tab.wf d ([] : Tab α) = true := by simp [Tab.wf]

/-- Changing every entry keeps a table canonical. -/
theorem wf_tmap [DecidableEq α] (d : Nat → α) (f : Nat → α → α) (t : Tab α) (h : t.rising) : Tab.wf d (tmap d f t) = true := by
  rw [Tab.wf_iff]
  refine ⟨?_, ?_⟩
  · unfold tmap Tab.rising
    rw [List.pairwise_filterMap]
    refine List.Pairwise.imp ?_ h
    intro a b hab x hx y hy
    split_ifs at hx hy
    cases hx; cases hy; exact hab
  · intro e he
    simp only [tmap, List.mem_filterMap] at he
    obtain ⟨a, -, ha⟩ := he
    split_ifs at ha with hd
    cases ha; exact hd

/-- The table of a fold of settings is canonical. -/
theorem wf_foldl_tset [DecidableEq α] {β : Type} (d : Nat → α) (key : β → Nat) (val : Tab α → β → α) (l : List β) (t : Tab α)
    (h : Tab.wf d t = true) : Tab.wf d (l.foldl (fun t b => tset d t (key b) (val t b)) t) = true := by
  induction l generalizing t with
  | nil => exact h
  | cons b l ih => exact ih _ (wf_tset d t _ _ h)

end Sys2Proof.Machine
end

