-- ==== Sys2Proof/Laws/Memory.lean ====
section
/-! SUPPORT. The Tile Store: read after write, and that every memory operation keeps the canonical form. -/

set_option Elab.async false

namespace Sys2Proof.Machine
open Sys2Proof

theorem mem_runCells (d : Nat → Byte) (a : Nat) (bs : List Byte) (c : Host.Cell) (h : c ∈ runCells d a bs) :
    a ≤ c.1 ∧ c.1 < a + bs.length ∧ c.2 ≠ d c.1 := by
  induction bs generalizing a with
  | nil => simp [runCells] at h
  | cons b bs ih =>
    simp only [runCells] at h
    split_ifs at h with hb
    · have := ih _ h; simp only [List.length_cons]; exact ⟨by omega, by omega, this.2.2⟩
    · rcases List.mem_cons.1 h with rfl | h
      · exact ⟨Nat.le_refl _, by simp, hb⟩
      · have := ih _ h; simp only [List.length_cons]; exact ⟨by omega, by omega, this.2.2⟩

theorem runCells_rising (d : Nat → Byte) (a : Nat) (bs : List Byte) :
    (runCells d a bs).Pairwise (fun x y => x.1 < y.1) := by
  induction bs generalizing a with
  | nil => exact List.Pairwise.nil
  | cons b bs ih =>
    simp only [runCells]
    split_ifs
    · exact ih _
    · exact List.pairwise_cons.2 ⟨fun c hc => (mem_runCells d (a + 1) bs c hc).1, ih _⟩

theorem memory_wf_iff (d : Nat → Byte) (m : List Host.Cell) :
    Memory.wf d m = true ↔ m.Pairwise (fun x y => x.1 < y.1) ∧ ∀ c ∈ m, c.2 ≠ d c.1 := by simp [Memory.wf]

/-- A store keeps memory canonical. -/
theorem memWrite_wf (d : Nat → Byte) (m : List Host.Cell) (a : Nat) (bs : List Byte) (h : Memory.wf d m = true) :
    Memory.wf d (memWrite d m a bs) = true := by
  rw [memory_wf_iff] at h ⊢
  unfold memWrite
  refine ⟨?_, ?_⟩
  · rw [List.pairwise_append, List.pairwise_append]
    refine ⟨⟨h.1.filter _, runCells_rising d a bs, ?_⟩, h.1.filter _, ?_⟩
    · intro x hx y hy
      have hx := (List.mem_filter.1 hx).2
      have hy := mem_runCells d a bs y hy
      simp only [decide_eq_true_eq] at hx
      omega
    · intro x hx y hy
      have hy := (List.mem_filter.1 hy).2
      simp only [decide_eq_true_eq] at hy
      rcases List.mem_append.1 hx with hx | hx
      · have hx := (List.mem_filter.1 hx).2
        simp only [decide_eq_true_eq] at hx
        omega
      · have := mem_runCells d a bs x hx
        omega
  · intro c hc
    rcases List.mem_append.1 hc with hc | hc
    · rcases List.mem_append.1 hc with hc | hc
      · exact h.2 c (List.mem_filter.1 hc).1
      · exact (mem_runCells d a bs c hc).2.2
    · exact h.2 c (List.mem_filter.1 hc).1

theorem memByte_none (d : Nat → Byte) (m : List Host.Cell) (x : Nat) (h : ∀ c ∈ m, c.1 ≠ x) : memByte d m x = d x := by
  unfold memByte
  rw [List.find?_eq_none.2 (by simpa using h)]

theorem memByte_append_left (d : Nat → Byte) (m l : List Host.Cell) (x : Nat) (h : ∀ c ∈ l, c.1 ≠ x) :
    memByte d (m ++ l) x = memByte d m x := by
  have e : l.find? (fun c => c.1 == x) = none := List.find?_eq_none.2 (by simpa using h)
  unfold memByte
  rw [List.find?_append, e, Option.or_none]

theorem memByte_append_right (d : Nat → Byte) (m l : List Host.Cell) (x : Nat) (h : ∀ c ∈ m, c.1 ≠ x) :
    memByte d (m ++ l) x = memByte d l x := by
  have e : m.find? (fun c => c.1 == x) = none := List.find?_eq_none.2 (by simpa using h)
  unfold memByte
  rw [List.find?_append, e, Option.none_or]

theorem memByte_filter (d : Nat → Byte) (m : List Host.Cell) (p : Host.Cell → Bool) (x : Nat) (h : ∀ b, p (x, b) = true) :
    memByte d (m.filter p) x = memByte d m x := by
  unfold memByte
  rw [List.find?_filter]
  congr 1
  · congr 1
    funext c
    obtain ⟨a, b⟩ := c
    by_cases ha : a = x
    · subst ha; simp [h]
    · simp [ha]

theorem memByte_runCells (d : Nat → Byte) (a : Nat) (bs : List Byte) (x : Nat) (h1 : a ≤ x) (h2 : x < a + bs.length) :
    memByte d (runCells d a bs) x = bs.getD (x - a) 0 := by
  induction bs generalizing a with
  | nil => simp at h2; omega
  | cons b bs ih =>
    simp only [List.length_cons] at h2
    simp only [runCells]
    by_cases hx : x = a
    · subst hx
      split_ifs with hb
      · rw [memByte_none]
        · simp [hb]
        · intro c hc; have := (mem_runCells d (x + 1) bs c hc).1; omega
      · simp [memByte]
    · have hg : (b :: bs).getD (x - a) 0 = bs.getD (x - (a + 1)) 0 := by
        have : x - a = x - (a + 1) + 1 := by omega
        rw [this]; rfl
      rw [hg]
      split_ifs with hb
      · exact ih _ (by omega) (by omega)
      · rw [← ih (a + 1) (by omega) (by omega)]
        exact memByte_append_right d [(a, b)] _ x (by simpa using fun h => hx h.symm)

/-- Read after write: the bytes stored, and every other byte as before. -/
theorem memByte_memWrite (d : Nat → Byte) (m : List Host.Cell) (a : Nat) (bs : List Byte) (x : Nat) :
    memByte d (memWrite d m a bs) x = if a ≤ x ∧ x < a + bs.length then bs.getD (x - a) 0 else memByte d m x := by
  unfold memWrite
  have hl : x < a ∨ a ≤ x := Nat.lt_or_ge x a
  have fl : ∀ c ∈ m.filter (fun c => decide (c.1 < a)), c.1 < a := fun c hc => by simpa using (List.mem_filter.1 hc).2
  have fr : ∀ c ∈ m.filter (fun c => decide (a + bs.length ≤ c.1)), a + bs.length ≤ c.1 := fun c hc => by
    simpa using (List.mem_filter.1 hc).2
  split_ifs with h
  · rw [memByte_append_left _ _ _ _ (fun c hc => by have := fr c hc; omega),
      memByte_append_right _ _ _ _ (fun c hc => by have := fl c hc; omega), memByte_runCells d a bs x h.1 h.2]
  · rcases hl with hl | hl
    · rw [memByte_append_left _ _ _ _ (fun c hc => by have := fr c hc; omega),
        memByte_append_left _ _ _ _ (fun c hc => by have := mem_runCells d a bs c hc; omega), memByte_filter _ _ _ _ (by simp [hl])]
    · have : a + bs.length ≤ x := by omega
      rw [memByte_append_right _ _ _ _ (fun c hc => by
        rcases List.mem_append.1 hc with hc | hc
        · have := fl c hc; omega
        · have := mem_runCells d a bs c hc; omega), memByte_filter _ _ _ _ (by simp [this])]

/-! ### The Tile Store of a state -/

theorem reset_memWf : State.reset.memWf = true := by rfl

@[simp] theorem storeBytes_default (a : Nat) (bs : List Byte) (s : State) :
    (s.storeBytes a bs).memByteDefault = s.memByteDefault := by rfl

theorem storeBytes_memWf (a : Nat) (bs : List Byte) (s : State) (h : s.memWf = true) : (s.storeBytes a bs).memWf = true :=
  memWrite_wf _ _ _ _ h

theorem storeBytes_byteAt (a : Nat) (bs : List Byte) (s : State) (x : Nat) :
    (s.storeBytes a bs).byteAt x = if a ≤ x ∧ x < a + bs.length then bs.getD (x - a) 0 else s.byteAt x :=
  memByte_memWrite _ _ _ _ _

theorem putTile_memWf (r : Nat) (eseq : BitVec 32) (bs : List Byte) (pos : Nat) (fin poison : Bool) (s : State)
    (h : s.memWf = true) : (s.putTile r eseq bs pos fin poison).memWf = true :=
  storeBytes_memWf _ _ _ (storeBytes_memWf _ _ _ h)

theorem poisonTile_memWf (r : Nat) (eseq : BitVec 32) (s : State) (h : s.memWf = true) : (s.poisonTile r eseq).memWf = true :=
  storeBytes_memWf _ _ _ h

theorem setReduced_memWf (v : Bool) (s : State) (h : s.memWf = true) : (s.setReduced v).memWf = true := by
  unfold State.setReduced
  split
  · exact h
  · rfl

theorem tested_undef (l : List Nat) (e : Nat) (t : Tab Nat) (k : Nat) :
    tget natReset (l.foldl (fun t c => tset natReset t c (e + 1)) t) k = if k ∈ l then e + 1 else tget natReset t k := by
  induction l generalizing t with
  | nil => simp
  | cons c l ih =>
    rw [List.foldl_cons, ih]
    have : tset natReset t c (e + 1) = tput t c (e + 1) := by simp [tset, natReset]
    rw [this, tget_tput]
    by_cases h1 : k ∈ l <;> by_cases h2 : k = c <;> simp [h1, h2]

/-- A memory test keeps the Tile Store canonical: the tiles it leaves listed read unlisted as before. -/
theorem tested_wf (reduced : Bool) (mask : Nat) (m : MemSt) (h : Memory.wf (memDefault reduced m.undef) m.tiles = true) :
    Memory.wf (memDefault reduced (m.tested reduced mask).undef) (m.tested reduced mask).tiles = true := by
  rw [memory_wf_iff] at h ⊢
  refine ⟨h.1.filter _, fun c hc => ?_⟩
  obtain ⟨hm, hn⟩ := List.mem_filter.1 hc
  have e : memDefault reduced (m.tested reduced mask).undef c.1 = memDefault reduced m.undef c.1 := by
    unfold memDefault
    split
    · rfl
    · next hs =>
      have hx : tileChannel reduced (c.1 / 4096) ∉ maskList 16 mask := by
        intro hk
        have hb := (List.mem_filter.1 hk).2
        simp [hb, hs] at hn
      simp only [MemSt.tested, tested_undef, if_neg hx]
  rw [e]
  exact h.2 c hm

end Sys2Proof.Machine
end

