-- ==== Sys2Proof/Laws/PerInstr.lean ====
section
/-! SUPPORT. A fact of every command of the table, as syntax: a host command is well formed exactly where its request names a channel of
its port, and its opcode is one that R408 to R430 define unless it is the row of undefined opcodes (R5). -/

set_option Elab.async false

namespace Sys2Proof.Laws.Requests

open Sys2Proof Sys2Proof.Machine

/-- Where the command is a host command, it is well formed exactly as its request is, and only UNDEFINED_OPCODE has an opcode the release
does not define. -/
def Statement (i : Instr) : Prop :=
  ∀ op q, hostRequest i = some (op, q) → i.wf = Req.wf q ∧ (opDefined op = true ∨ ∃ o, i = .undefinedOpcode o q)

/-- A command that carries no request of R382 meets the statement. -/
theorem of_none {i : Instr} (h : hostRequest i = none) : Statement i := by
  intro op q hq
  simp [h] at hq

/-- A command with a defined opcode meets it where its well-formedness is its request's. -/
theorem of_some {i : Instr} {op : Nat} {q : Req} (h : hostRequest i = some (op, q)) (hw : i.wf = Req.wf q) (hd : opDefined op = true) :
    Statement i := by
  intro op' q' hq
  rw [h] at hq
  cases hq
  exact ⟨hw, .inl hd⟩

theorem sessionInfo (q : Req) : Statement (.sessionInfo q) := of_some rfl rfl rfl
theorem sessionOpen (q : Req) : Statement (.sessionOpen q) := of_some rfl rfl rfl
theorem sessionClose (q : Req) : Statement (.sessionClose q) := of_some rfl rfl rfl
theorem powerSet (q : Req) : Statement (.powerSet q) := of_some rfl rfl rfl
theorem profileSet (q : Req) : Statement (.profileSet q) := of_some rfl rfl rfl
theorem budgetQuery (q : Req) : Statement (.budgetQuery q) := of_some rfl rfl rfl
theorem sessionReset (q : Req) : Statement (.sessionReset q) := of_some rfl rfl rfl
theorem privRead (q : Req) : Statement (.privRead q) := of_some rfl rfl rfl
theorem privWrite (q : Req) : Statement (.privWrite q) := of_some rfl rfl rfl
theorem ringCreate (q : Req) : Statement (.ringCreate q) := of_some rfl rfl rfl
theorem ringDelete (q : Req) : Statement (.ringDelete q) := of_some rfl rfl rfl
theorem ringModify (q : Req) : Statement (.ringModify q) := of_some rfl rfl rfl
theorem ringQuery (q : Req) : Statement (.ringQuery q) := of_some rfl rfl rfl
theorem memStatus (q : Req) : Statement (.memStatus q) := of_some rfl rfl rfl
theorem flowInsert (q : Req) : Statement (.flowInsert q) := of_some rfl rfl rfl
theorem flowModify (q : Req) : Statement (.flowModify q) := of_some rfl rfl rfl
theorem flowDelete (q : Req) : Statement (.flowDelete q) := of_some rfl rfl rfl
theorem flowStatus (q : Req) : Statement (.flowStatus q) := of_some rfl rfl rfl
theorem ingestWrite (q : Req) : Statement (.ingestWrite q) := of_some rfl rfl rfl
theorem mergeWrite (q : Req) : Statement (.mergeWrite q) := of_some rfl rfl rfl
theorem mergeStatus (q : Req) : Statement (.mergeStatus q) := of_some rfl rfl rfl
theorem hostqBind (q : Req) : Statement (.hostqBind q) := of_some rfl rfl rfl
theorem hostqUnbind (q : Req) : Statement (.hostqUnbind q) := of_some rfl rfl rfl
theorem hostInsert (q : Req) : Statement (.hostInsert q) := of_some rfl rfl rfl
theorem captureFrames (q : Req) : Statement (.captureFrames q) := of_some rfl rfl rfl
theorem planeWrite (q : Req) : Statement (.planeWrite q) := of_some rfl rfl rfl
theorem pulseWrite (q : Req) : Statement (.pulseWrite q) := of_some rfl rfl rfl
theorem clockWrite (q : Req) : Statement (.clockWrite q) := of_some rfl rfl rfl
theorem planeRead (q : Req) : Statement (.planeRead q) := of_some rfl rfl rfl
theorem routeWrite (q : Req) : Statement (.routeWrite q) := of_some rfl rfl rfl
theorem routeRead (q : Req) : Statement (.routeRead q) := of_some rfl rfl rfl
theorem routeStatus (q : Req) : Statement (.routeStatus q) := of_some rfl rfl rfl
theorem salvoAdd (q : Req) : Statement (.salvoAdd q) := of_some rfl rfl rfl
theorem salvoAdmit (q : Req) (peers : List PeerAnswer) : Statement (.salvoAdmit q peers) := of_some rfl rfl rfl
theorem salvoTake (q : TakeReq) : Statement (.salvoTake q) := of_some rfl rfl rfl
theorem salvoAbandon (q : Req) (peers : List PeerAnswer) : Statement (.salvoAbandon q peers) := of_some rfl rfl rfl
theorem salvoQuery (q : Req) (peers : List PeerAnswer) : Statement (.salvoQuery q peers) := of_some rfl rfl rfl
theorem salvoEntries (q : Req) : Statement (.salvoEntries q) := of_some rfl rfl rfl
theorem presetStore (q : Req) : Statement (.presetStore q) := of_some rfl rfl rfl
theorem presetLoad (q : Req) : Statement (.presetLoad q) := of_some rfl rfl rfl
theorem presetDelete (q : Req) : Statement (.presetDelete q) := of_some rfl rfl rfl
theorem presetList (q : Req) : Statement (.presetList q) := of_some rfl rfl rfl
theorem compOutWrite (q : Req) : Statement (.compOutWrite q) := of_some rfl rfl rfl
theorem compLayerWrite (q : Req) : Statement (.compLayerWrite q) := of_some rfl rfl rfl
theorem compMatrixWrite (q : Req) : Statement (.compMatrixWrite q) := of_some rfl rfl rfl
theorem compCursorWrite (q : Req) : Statement (.compCursorWrite q) := of_some rfl rfl rfl
theorem compLoad (q : Req) : Statement (.compLoad q) := of_some rfl rfl rfl
theorem compRead (q : Req) : Statement (.compRead q) := of_some rfl rfl rfl
theorem compLayerRead (q : Req) : Statement (.compLayerRead q) := of_some rfl rfl rfl
theorem calWrite (q : Req) : Statement (.calWrite q) := of_some rfl rfl rfl
theorem audInWrite (q : Req) : Statement (.audInWrite q) := of_some rfl rfl rfl
theorem audOutWrite (q : Req) : Statement (.audOutWrite q) := of_some rfl rfl rfl
theorem audBusWrite (q : Req) : Statement (.audBusWrite q) := of_some rfl rfl rfl
theorem audBusInputs (q : Req) : Statement (.audBusInputs q) := of_some rfl rfl rfl
theorem audDynWrite (q : Req) : Statement (.audDynWrite q) := of_some rfl rfl rfl
theorem audRead (q : Req) : Statement (.audRead q) := of_some rfl rfl rfl
theorem candWrite (q : Req) : Statement (.candWrite q) := of_some rfl rfl rfl
theorem refWrite (q : Req) : Statement (.refWrite q) := of_some rfl rfl rfl
theorem refRead (q : Req) : Statement (.refRead q) := of_some rfl rfl rfl
theorem phaseReset (q : Req) : Statement (.phaseReset q) := of_some rfl rfl rfl
theorem ptpInstWrite (q : Req) : Statement (.ptpInstWrite q) := of_some rfl rfl rfl
theorem ptpServoWrite (q : Req) : Statement (.ptpServoWrite q) := of_some rfl rfl rfl
theorem ptpTsCorr (q : Req) : Statement (.ptpTsCorr q) := of_some rfl rfl rfl
theorem ptpSetTime (q : Req) : Statement (.ptpSetTime q) := of_some rfl rfl rfl
theorem ptpRead (q : Req) : Statement (.ptpRead q) := of_some rfl rfl rfl
theorem troupeWrite (q : Req) : Statement (.troupeWrite q) := of_some rfl rfl rfl
theorem linkWrite (q : Req) : Statement (.linkWrite q) := of_some rfl rfl rfl
theorem laneWrite (q : Req) : Statement (.laneWrite q) := of_some rfl rfl rfl
theorem troupeImport (q : Req) (peers : List PeerAnswer) : Statement (.troupeImport q peers) := of_some rfl rfl rfl
theorem troupeUnimport (q : Req) (peers : List PeerAnswer) : Statement (.troupeUnimport q peers) := of_some rfl rfl rfl
theorem troupeForward (q : Req) : Statement (.troupeForward q) := of_some rfl rfl rfl
theorem troupeRead (q : Req) : Statement (.troupeRead q) := of_some rfl rfl rfl
theorem twinWrite (q : Req) : Statement (.twinWrite q) := of_some rfl rfl rfl
theorem twinRead (q : Req) : Statement (.twinRead q) := of_some rfl rfl rfl
theorem twinSwap (q : Req) : Statement (.twinSwap q) := of_some rfl rfl rfl
theorem recRead (q : Req) : Statement (.recRead q) := of_some rfl rfl rfl
theorem recClear (q : Req) : Statement (.recClear q) := of_some rfl rfl rfl
theorem recLimit (q : Req) : Statement (.recLimit q) := of_some rfl rfl rfl
theorem faultRead (q : Req) : Statement (.faultRead q) := of_some rfl rfl rfl
theorem faultClear (q : Req) : Statement (.faultClear q) := of_some rfl rfl rfl
theorem faultForce (q : Req) : Statement (.faultForce q) := of_some rfl rfl rfl
theorem eventConfig (q : Req) : Statement (.eventConfig q) := of_some rfl rfl rfl
theorem updBegin (q : Req) : Statement (.updBegin q) := of_some rfl rfl rfl
theorem updChunk (q : Req) (programFails : Bool) : Statement (.updChunk q programFails) := of_some rfl rfl rfl
theorem updEnd (q : Req) : Statement (.updEnd q) := of_some rfl rfl rfl
theorem updActivate (q : Req) (verdict : ImageVerdict) : Statement (.updActivate q verdict) := of_some rfl rfl rfl
theorem updQuery (q : Req) : Statement (.updQuery q) := of_some rfl rfl rfl
theorem testGen (q : Req) : Statement (.testGen q) := of_some rfl rfl rfl
theorem testCheck (q : Req) : Statement (.testCheck q) := of_some rfl rfl rfl
theorem testLoop (q : Req) : Statement (.testLoop q) := of_some rfl rfl rfl
theorem testResult (q : Req) : Statement (.testResult q) := of_some rfl rfl rfl
theorem testMem (q : Req) : Statement (.testMem q) := of_some rfl rfl rfl
theorem testShadow (q : Req) : Statement (.testShadow q) := of_some rfl rfl rfl
theorem sdiWrite (q : Req) : Statement (.sdiWrite q) := of_some rfl rfl rfl
theorem ethWrite (q : Req) : Statement (.ethWrite q) := of_some rfl rfl rfl
theorem ethAddrWrite (q : Req) : Statement (.ethAddrWrite q) := of_some rfl rfl rfl
theorem pktFlowWrite (q : Req) : Statement (.pktFlowWrite q) := of_some rfl rfl rfl
theorem sbWrite (q : Req) : Statement (.sbWrite q) := of_some rfl rfl rfl
theorem portSnapshot (q : Req) : Statement (.portSnapshot q) := of_some rfl rfl rfl
theorem portRead (q : Req) : Statement (.portRead q) := of_some rfl rfl rfl
theorem pktOutWrite (q : Req) : Statement (.pktOutWrite q) := of_some rfl rfl rfl
theorem db (n : Fin 64) (seq : BitVec 16) : Statement (.db n seq) := of_none rfl
theorem requestBufferWrite (n : Fin 64) (off : Fin 1024) (bytes : List Byte) : Statement (.requestBufferWrite n off bytes) := of_none rfl
theorem doneMapClear (mask : BitVec 64) : Statement (.doneMapClear mask) := of_none rfl
theorem pop (h : Fin 16) : Statement (.pop h) := of_none rfl
theorem release (h : Fin 16) (eseq : BitVec 32) : Statement (.release h eseq) := of_none rfl
theorem force (w : BitVec 64) (whole : Bool) : Statement (.force w whole) := of_none rfl
theorem pendingClear (c : Fin 256) : Statement (.pendingClear c) := of_none rfl
theorem blkRst (mask : BitVec 64) : Statement (.blkRst mask) := of_none rfl
theorem fullRst (v : BitVec 8) : Statement (.fullRst v) := of_none rfl
theorem cntClear (v : Bool) : Statement (.cntClear v) := of_none rfl
theorem maint (v : Bool) : Statement (.maint v) := of_none rfl
theorem decValidClear : Statement .decValidClear := of_none rfl
theorem abortValidClear : Statement .abortValidClear := of_none rfl
theorem rtcSec (sec : BitVec 48) : Statement (.rtcSec sec) := of_none rfl
theorem ptpNowRead : Statement .ptpNowRead := of_none rfl
theorem registerWrite (off : BitVec 18) (wide : Bool) (v : BitVec 64) : Statement (.registerWrite off wide v) := of_none rfl
theorem defaultTargetAccess (addr : BitVec 40) (master : Fin 10) (write : Bool) : Statement (.defaultTargetAccess addr master write) := of_none rfl
theorem bar2Read (off : BitVec 32) (len : Fin 4097) : Statement (.bar2Read off len) := of_none rfl
theorem bar2Write (off : BitVec 32) (bytes : List Byte) : Statement (.bar2Write off bytes) := of_none rfl
theorem p2Request (opcode : BitVec 16) (q : Req) : Statement (.p2Request opcode q) := of_none rfl
theorem p3Request (opcode : BitVec 16) (q : Req) : Statement (.p3Request opcode q) := of_none rfl
theorem forwardedCommand (opcode : BitVec 16) (q : Req) : Statement (.forwardedCommand opcode q) := of_none rfl
theorem forwardedResponse (member : Fin 8) (seq : BitVec 16) (bytes : List Byte) : Statement (.forwardedResponse member seq bytes) := of_none rfl
theorem commandDeadline (port : Port) (chan sender : Nat) (seq : BitVec 16) : Statement (.commandDeadline port chan sender seq) := of_none rfl
theorem extest (bits : List Byte) : Statement (.extest bits) := of_none rfl
theorem idcode : Statement .idcode := of_none rfl
theorem samplePreload (bits : List Byte) : Statement (.samplePreload bits) := of_none rfl
theorem halt : Statement .halt := of_none rfl
theorem command (bytes : List Byte) : Statement (.command bytes) := of_none rfl
theorem doorbell (opcode : BitVec 16) (q : Req) : Statement (.doorbell opcode q) := of_none rfl
theorem bypass (code : BitVec 8) : Statement (.bypass code) := of_none rfl
theorem turnStart : Statement .turnStart := of_none rfl
theorem profileChange : Statement .profileChange := of_none rfl
theorem channelTraining (ch : Fin 16) (responds : BitVec 16) (ok : Bool) : Statement (.channelTraining ch responds ok) := of_none rfl
theorem recentre (ch : Fin 16) (ok moved : Bool) (ecc : BitVec 32) : Statement (.recentre ch ok moved ecc) := of_none rfl
theorem tileCommit (ring : Fin 8192) : Statement (.tileCommit ring) := of_none rfl
theorem tileRead (reader : Reader) (eseq : BitVec 32) (cache : CacheErr) : Statement (.tileRead reader eseq cache) := of_none rfl
theorem budgetRecount : Statement .budgetRecount := of_none rfl
theorem budgetTableError : Statement .budgetTableError := of_none rfl
theorem latch (o : Fin 2048) : Statement (.latch o) := of_none rfl
theorem switchPoint (o : Fin 2048) : Statement (.switchPoint o) := of_none rfl
theorem frameSelect (o : Fin 2048) : Statement (.frameSelect o) := of_none rfl
theorem claimRelease (o : Fin 2048) (audio : Bool) : Statement (.claimRelease o audio) := of_none rfl
theorem audioLatch (o : Fin 2048) : Statement (.audioLatch o) := of_none rfl
theorem takeAck (salvo : Fin 64) (member : Fin 8) : Statement (.takeAck salvo member) := of_none rfl
theorem takeAckDeadline (salvo : Fin 64) : Statement (.takeAckDeadline salvo) := of_none rfl
theorem routeTableParity (o : Fin 2048) : Statement (.routeTableParity o) := of_none rfl
theorem outputFrameStart (o : Fin 2048) : Statement (.outputFrameStart o) := of_none rfl
theorem signalPresence (l : Fin 144) : Statement (.signalPresence l) := of_none rfl
theorem signalAbsence (l : Fin 144) : Statement (.signalAbsence l) := of_none rfl
theorem rateAttempt (l : Fin 144) : Statement (.rateAttempt l) := of_none rfl
theorem cdrLock (l : Fin 144) : Statement (.cdrLock l) := of_none rfl
theorem trsAlignment (l : Fin 144) : Statement (.trsAlignment l) := of_none rfl
theorem trsSearchTimeout (l : Fin 144) : Statement (.trsSearchTimeout l) := of_none rfl
theorem cdrLockLoss (l : Fin 144) : Statement (.cdrLockLoss l) := of_none rfl
theorem sdiLine (l : Fin 144) (info : LineInfo) : Statement (.sdiLine l info) := of_none rfl
theorem sdiFrame (l : Fin 144) (info : FrameInfo) : Statement (.sdiFrame l info) := of_none rfl
theorem lockTimeout (x : RxId) : Statement (.lockTimeout x) := of_none rfl
theorem audioGroupAbsence (x : RxId) (group : Fin 8) : Statement (.audioGroupAbsence x group) := of_none rfl
theorem sdiTxFault (l : Fin 144) : Statement (.sdiTxFault l) := of_none rfl
theorem subportTrained (p : Fin 32) : Statement (.subportTrained p) := of_none rfl
theorem subportLinkLoss (p : Fin 32) (fec : List (Nat × Nat)) : Statement (.subportLinkLoss p fec) := of_none rfl
theorem frameReceived (p : Fin 32) (f : EthFrame) : Statement (.frameReceived p f) := of_none rfl
theorem pauseFrame (p : Fin 32) (quanta : BitVec 16) : Statement (.pauseFrame p quanta) := of_none rfl
theorem pfcFrame (p : Fin 32) (enable : BitVec 8) (quanta : List (BitVec 16)) : Statement (.pfcFrame p enable quanta) := of_none rfl
theorem pauseHoldEnd (p : Fin 32) (media : Bool) : Statement (.pauseHoldEnd p media) := of_none rfl
theorem pauseWatchdogExpiry (p : Fin 32) (media : Bool) : Statement (.pauseWatchdogExpiry p media) := of_none rfl
theorem pauseIgnoreEnd (p : Fin 32) (media : Bool) : Statement (.pauseIgnoreEnd p media) := of_none rfl
theorem mgmtFrameSend (p : Fin 32) : Statement (.mgmtFrameSend p) := of_none rfl
theorem packetDeparture (f : Fin 4096) : Statement (.packetDeparture f) := of_none rfl
theorem flowWindow : Statement .flowWindow := of_none rfl
theorem absentTimeout (e : Fin 262160) : Statement (.absentTimeout e) := of_none rfl
theorem membershipReport (p : Fin 32) (group : BitVec 128) (v6 leaving : Bool) : Statement (.membershipReport p group v6 leaving) := of_none rfl
theorem query (p : Fin 32) (v6 : Bool) (version : Fin 4) (group : BitVec 128) : Statement (.query p v6 version group) := of_none rfl
theorem querierTimeout (p : Fin 32) (v6 : Bool) : Statement (.querierTimeout p v6) := of_none rfl
theorem flowTableCorrected (e : Fin 262160) : Statement (.flowTableCorrected e) := of_none rfl
theorem flowTableUncorr (e : Fin 262160) : Statement (.flowTableUncorr e) := of_none rfl
theorem audioTileTimeout (ring : Fin 8192) : Statement (.audioTileTimeout ring) := of_none rfl
theorem mergeDecision (m : Fin 1024) : Statement (.mergeDecision m) := of_none rfl
theorem composerLatch (c : Fin 16) (k : Fin 4) : Statement (.composerLatch c k) := of_none rfl
theorem composerFrameStart (c : Fin 16) (k : Fin 4) : Statement (.composerFrameStart c k) := of_none rfl
theorem compLutParity (table : Fin 3) (bank : Fin 2) (i : Fin 128) : Statement (.compLutParity table bank i) := of_none rfl
theorem calliopeTick : Statement .calliopeTick := of_none rfl
theorem audioReaderTile (o : Fin 2048) (slot : Fin 4) : Statement (.audioReaderTile o slot) := of_none rfl
theorem tapCrossfadeEnd (slot : Fin 1024) (tap : Fin 4) : Statement (.tapCrossfadeEnd slot tap) := of_none rfl
theorem calCoeffParity (what : CalCoeff) : Statement (.calCoeffParity what) := of_none rfl
theorem refEvaluation (meas : List Measure) (phases : List Int) (corr : BitVec 32) : Statement (.refEvaluation meas phases corr) := of_none rfl
theorem activityLoss (c : Fin 16) : Statement (.activityLoss c) := of_none rfl
theorem settleExpiry (phases : List Int) : Statement (.settleExpiry phases) := of_none rfl
theorem wtrExpiry (c : Fin 16) (phase : Int) : Statement (.wtrExpiry c phase) := of_none rfl
theorem acquisitionStage : Statement .acquisitionStage := of_none rfl
theorem holdLimitExpiry : Statement .holdLimitExpiry := of_none rfl
theorem planeFrameStart (p : Fin 8) : Statement (.planeFrameStart p) := of_none rfl
theorem slewComplete (p : Fin 8) : Statement (.slewComplete p) := of_none rfl
theorem analogSyncFrame (c : Fin 2) (detected : SyncSeen) (amplitude : BitVec 16) : Statement (.analogSyncFrame c detected amplitude) := of_none rfl
theorem refPllFault : Statement .refPllFault := of_none rfl
theorem sync (i : Fin 4) (m : SyncMsg) : Statement (.sync i m) := of_none rfl
theorem followUp (i : Fin 4) (seq : BitVec 16) (t1 corr : Int) : Statement (.followUp i seq t1 corr) := of_none rfl
theorem followUpTimeout (i : Fin 4) : Statement (.followUpTimeout i) := of_none rfl
theorem announce (i : Fin 4) (m : AnnounceMsg) : Statement (.announce i m) := of_none rfl
theorem delayResp (i : Fin 4) (seq : BitVec 16) (t4 corr : Int) : Statement (.delayResp i seq t4 corr) := of_none rfl
theorem delayReq (i : Fin 4) (soft : Bool) : Statement (.delayReq i soft) := of_none rfl
theorem pdelayReq (i : Fin 4) (seq : BitVec 16) (soft : Bool) : Statement (.pdelayReq i seq soft) := of_none rfl
theorem pdelayResp (i : Fin 4) (seq : BitVec 16) (t2 corr : Int) (soft : Bool) : Statement (.pdelayResp i seq t2 corr soft) := of_none rfl
theorem pdelayRespFollowUp (i : Fin 4) (seq : BitVec 16) (t3 corr : Int) : Statement (.pdelayRespFollowUp i seq t3 corr) := of_none rfl
theorem ptpManagementMessage (i : Fin 4) : Statement (.ptpManagementMessage i) := of_none rfl
theorem announceTimeout (i : Fin 4) : Statement (.announceTimeout i) := of_none rfl
theorem syncTimeout (i : Fin 4) : Statement (.syncTimeout i) := of_none rfl
theorem engineTimeReading : Statement .engineTimeReading := of_none rfl
theorem rtcUpdate : Statement .rtcUpdate := of_none rfl
theorem ptpClockFault : Statement .ptpClockFault := of_none rfl
theorem linkDetect (k : Fin 7) (found : BitVec 8) : Statement (.linkDetect k found) := of_none rfl
theorem capability (k : Fin 7) (cap : CapCell) : Statement (.capability k cap) := of_none rfl
theorem bringupDecision (k : Fin 7) (rate : Fin 4) (lanes : BitVec 8) : Statement (.bringupDecision k rate lanes) := of_none rfl
theorem rateStep (k : Fin 7) (eyes : List Nat) : Statement (.rateStep k eyes) := of_none rfl
theorem senseAdapt (k : Fin 7) (inverted : BitVec 8) (order : LaneOrder) : Statement (.senseAdapt k inverted order) := of_none rfl
theorem linkAlign (k : Fin 7) : Statement (.linkAlign k) := of_none rfl
theorem linkRetry (k : Fin 7) : Statement (.linkRetry k) := of_none rfl
theorem laneMarker (lane : Fin 48) (arrived : Bool) (stuffing : Nat) : Statement (.laneMarker lane arrived stuffing) := of_none rfl
theorem laneDrop (k : Fin 7) (lane : Fin 48) : Statement (.laneDrop k lane) := of_none rfl
theorem spareLaneTrained (k : Fin 7) (lane : Fin 48) : Statement (.spareLaneTrained k lane) := of_none rfl
theorem electricalIdle (lane : Fin 48) : Statement (.electricalIdle lane) := of_none rfl
theorem eyeUpdate (lane : Fin 224) (h v : BitVec 8) : Statement (.eyeUpdate lane h v) := of_none rfl
theorem importTile (i : Fin 4096) (cells : TileCells) : Statement (.importTile i cells) := of_none rfl
theorem abandon (i : Fin 4096) (skipped resume : BitVec 32) : Statement (.abandon i skipped resume) := of_none rfl
theorem timeCell (k : Fin 8) (cell : TimeCell) : Statement (.timeCell k cell) := of_none rfl
theorem timeCellSend (k : Fin 8) : Statement (.timeCellSend k) := of_none rfl
theorem bootImageRequest (k : Fin 7) : Statement (.bootImageRequest k) := of_none rfl
theorem roleChoice : Statement .roleChoice := of_none rfl
theorem heartbeatSend : Statement .heartbeatSend := of_none rfl
theorem heartbeat (pathB : Bool) (bytes : List Byte) : Statement (.heartbeat pathB bytes) := of_none rfl
theorem pathSilence (pathB : Bool) : Statement (.pathSilence pathB) := of_none rfl
theorem twinOnairInFall : Statement .twinOnairInFall := of_none rfl
theorem onairConfirmExpiry : Statement .onairConfirmExpiry := of_none rfl
theorem takeoverPoint : Statement .takeoverPoint := of_none rfl
theorem mirror (mseq : BitVec 32) (opcode : BitVec 16) (q : Req) (status : BitVec 16) (target : BitVec 64) : Statement (.mirror mseq opcode q status target) := of_none rfl
theorem mirrorAck (mseq : BitVec 32) (status : BitVec 16) : Statement (.mirrorAck mseq status) := of_none rfl
theorem mirrorApply : Statement .mirrorApply := of_none rfl
theorem mirrorAckTimeout : Statement .mirrorAckTimeout := of_none rfl
theorem digestSend : Statement .digestSend := of_none rfl
theorem digest (entries : List DigestEntry) : Statement (.digest entries) := of_none rfl
theorem digestMissing (o : Fin 2048) : Statement (.digestMissing o) := of_none rfl
theorem resyncStart : Statement .resyncStart := of_none rfl
theorem resyncPoint (copy : Machine.HwCopy) : Statement (.resyncPoint copy) := of_none rfl
theorem resyncTimeout : Statement .resyncTimeout := of_none rfl
theorem hostLinkChange (rate : Fin 4) : Statement (.hostLinkChange rate) := of_none rfl
theorem pcieReset : Statement .pcieReset := of_none rfl
theorem recordWrite (programFails : Bool) : Statement (.recordWrite programFails) := of_none rfl
theorem fatalFaultReset : Statement .fatalFaultReset := of_none rfl
theorem collectorParity : Statement .collectorParity := of_none rfl
theorem mramCorrected (region : Fin 64) : Statement (.mramCorrected region) := of_none rfl
theorem mramUncorr (region : Fin 64) : Statement (.mramUncorr region) := of_none rfl
theorem sramCorrected : Statement .sramCorrected := of_none rfl
theorem sramUncorr : Statement .sramUncorr := of_none rfl
theorem supplyWarn (m : Fin 6) (quad : Fin 5) (mv : BitVec 16) (back : Bool) : Statement (.supplyWarn m quad mv back) := of_none rfl
theorem supplyFail (m : Fin 6) (quad : Fin 5) (mv : BitVec 16) : Statement (.supplyFail m quad mv) := of_none rfl
theorem skewSample (temperature : Bool) (v0 v1 v2 v3 : Int) : Statement (.skewSample temperature v0 v1 v2 v3) := of_none rfl
theorem thermalOver (quad : Fin 4) (degrees : Int) : Statement (.thermalOver quad degrees) := of_none rfl
theorem thermalTrip (quad : Fin 4) (degrees : Int) : Statement (.thermalTrip quad degrees) := of_none rfl
theorem qpllUnlock (quad : Fin 4) : Statement (.qpllUnlock quad) := of_none rfl
theorem vbakLow : Statement .vbakLow := of_none rfl
theorem rmWatchdog : Statement .rmWatchdog := of_none rfl
theorem ringmasterRestart : Statement .ringmasterRestart := of_none rfl
theorem imageCheck (verdict : ImageVerdict) : Statement (.imageCheck verdict) := of_none rfl
theorem firmwareStart (major minor : BitVec 8) (build : BitVec 16) : Statement (.firmwareStart major minor build) := of_none rfl
theorem budgetRebuild : Statement .budgetRebuild := of_none rfl
theorem softwareReset : Statement .softwareReset := of_none rfl
theorem watchEntry : Statement .watchEntry := of_none rfl
theorem powerOn : Statement .powerOn := of_none rfl
theorem vauxLoss : Statement .vauxLoss := of_none rfl
theorem vbakLoss : Statement .vbakLoss := of_none rfl
theorem resetN : Statement .resetN := of_none rfl
theorem resetNRise : Statement .resetNRise := of_none rfl
theorem strapSampling (s1 s2 s3 : BitVec 8) : Statement (.strapSampling s1 s2 s3) := of_none rfl
theorem trimLoad (copyB ok : Bool) : Statement (.trimLoad copyB ok) := of_none rfl
theorem releaseStep : Statement .releaseStep := of_none rfl
theorem wakeStart (source : WakeSource) : Statement (.wakeStart source) := of_none rfl
theorem bootPeerRetry : Statement .bootPeerRetry := of_none rfl
theorem blockResetRelease (b : Fin 57) : Statement (.blockResetRelease b) := of_none rfl
theorem undefinedOpcode (opcode : BitVec 16) (q : Req) : Statement (.undefinedOpcode opcode q) := by
  intro op' q' h
  simp only [hostRequest] at h
  split at h
  · cases h
  · cases h
    exact ⟨rfl, .inr ⟨_, rfl⟩⟩
theorem pulseInputEdge (p : Fin 4) : Statement (.pulseInputEdge p) := of_none rfl
theorem pulseOutputEdge (o : Fin 10) : Statement (.pulseOutputEdge o) := of_none rfl
theorem twinOnairInRise : Statement .twinOnairInRise := of_none rfl
theorem supplyReturn (m : Fin 6) (quad : Fin 5) (mv : BitVec 16) : Statement (.supplyReturn m quad mv) := of_none rfl
theorem temperatureTripRearm (quad : Fin 4) : Statement (.temperatureTripRearm quad) := of_none rfl
theorem quadrantPllLock : Statement .quadrantPllLock := of_none rfl
theorem memoryTestComplete (errors : List (BitVec 32)) : Statement (.memoryTestComplete errors) := of_none rfl
theorem shadowCheckComplete (failed : BitVec 144) : Statement (.shadowCheckComplete failed) := of_none rfl
theorem checkerLock (lane : Fin 224) (locked : Bool) (bits errors : BitVec 64) : Statement (.checkerLock lane locked bits errors) := of_none rfl

end Sys2Proof.Laws.Requests
end

