-- ==== Sys2Proof/Laws/State.lean ====
section
/-! SUPPORT. What a change of one group leaves: one lemma per group and field, so that no proof unfolds a record update. -/

set_option Elab.async false

namespace Sys2Proof.Machine

open Sys2Proof

/-! ### onTime -/

@[simp] theorem State.onTime_time (f : TimeSt → TimeSt) (s : State) : (s.onTime f).time = f s.time := rfl
@[simp] theorem State.onTime_pwr (f : TimeSt → TimeSt) (s : State) : (s.onTime f).pwr = s.pwr := rfl
@[simp] theorem State.onTime_ctl (f : TimeSt → TimeSt) (s : State) : (s.onTime f).ctl = s.ctl := rfl
@[simp] theorem State.onTime_flt (f : TimeSt → TimeSt) (s : State) : (s.onTime f).flt = s.flt := rfl
@[simp] theorem State.onTime_rec (f : TimeSt → TimeSt) (s : State) : (s.onTime f).rec_ = s.rec_ := rfl
@[simp] theorem State.onTime_mem (f : TimeSt → TimeSt) (s : State) : (s.onTime f).mem = s.mem := rfl
@[simp] theorem State.onTime_bud (f : TimeSt → TimeSt) (s : State) : (s.onTime f).bud = s.bud := rfl
@[simp] theorem State.onTime_rte (f : TimeSt → TimeSt) (s : State) : (s.onTime f).rte = s.rte := rfl
@[simp] theorem State.onTime_sdi (f : TimeSt → TimeSt) (s : State) : (s.onTime f).sdi = s.sdi := rfl
@[simp] theorem State.onTime_eth (f : TimeSt → TimeSt) (s : State) : (s.onTime f).eth = s.eth := rfl
@[simp] theorem State.onTime_flo (f : TimeSt → TimeSt) (s : State) : (s.onTime f).flo = s.flo := rfl
@[simp] theorem State.onTime_cmp (f : TimeSt → TimeSt) (s : State) : (s.onTime f).cmp = s.cmp := rfl
@[simp] theorem State.onTime_cal (f : TimeSt → TimeSt) (s : State) : (s.onTime f).cal = s.cal := rfl
@[simp] theorem State.onTime_ref (f : TimeSt → TimeSt) (s : State) : (s.onTime f).ref = s.ref := rfl
@[simp] theorem State.onTime_ptp (f : TimeSt → TimeSt) (s : State) : (s.onTime f).ptp = s.ptp := rfl
@[simp] theorem State.onTime_trp (f : TimeSt → TimeSt) (s : State) : (s.onTime f).trp = s.trp := rfl
@[simp] theorem State.onTime_twin (f : TimeSt → TimeSt) (s : State) : (s.onTime f).twin = s.twin := rfl
@[simp] theorem State.onTime_upd (f : TimeSt → TimeSt) (s : State) : (s.onTime f).upd = s.upd := rfl
@[simp] theorem State.onTime_tst (f : TimeSt → TimeSt) (s : State) : (s.onTime f).tst = s.tst := rfl
@[simp] theorem State.onTime_emitted (f : TimeSt → TimeSt) (s : State) : (s.onTime f).emitted = s.emitted := rfl
@[simp] theorem State.onTime_free (f : TimeSt → TimeSt) (s : State) : (s.onTime f).free = s.free := rfl
@[simp] theorem State.onTime_pending (f : TimeSt → TimeSt) (s : State) : (s.onTime f).pending = s.pending := rfl

/-! ### onPwr -/

@[simp] theorem State.onPwr_time (f : PwrSt → PwrSt) (s : State) : (s.onPwr f).time = s.time := rfl
@[simp] theorem State.onPwr_pwr (f : PwrSt → PwrSt) (s : State) : (s.onPwr f).pwr = f s.pwr := rfl
@[simp] theorem State.onPwr_ctl (f : PwrSt → PwrSt) (s : State) : (s.onPwr f).ctl = s.ctl := rfl
@[simp] theorem State.onPwr_flt (f : PwrSt → PwrSt) (s : State) : (s.onPwr f).flt = s.flt := rfl
@[simp] theorem State.onPwr_rec (f : PwrSt → PwrSt) (s : State) : (s.onPwr f).rec_ = s.rec_ := rfl
@[simp] theorem State.onPwr_mem (f : PwrSt → PwrSt) (s : State) : (s.onPwr f).mem = s.mem := rfl
@[simp] theorem State.onPwr_bud (f : PwrSt → PwrSt) (s : State) : (s.onPwr f).bud = s.bud := rfl
@[simp] theorem State.onPwr_rte (f : PwrSt → PwrSt) (s : State) : (s.onPwr f).rte = s.rte := rfl
@[simp] theorem State.onPwr_sdi (f : PwrSt → PwrSt) (s : State) : (s.onPwr f).sdi = s.sdi := rfl
@[simp] theorem State.onPwr_eth (f : PwrSt → PwrSt) (s : State) : (s.onPwr f).eth = s.eth := rfl
@[simp] theorem State.onPwr_flo (f : PwrSt → PwrSt) (s : State) : (s.onPwr f).flo = s.flo := rfl
@[simp] theorem State.onPwr_cmp (f : PwrSt → PwrSt) (s : State) : (s.onPwr f).cmp = s.cmp := rfl
@[simp] theorem State.onPwr_cal (f : PwrSt → PwrSt) (s : State) : (s.onPwr f).cal = s.cal := rfl
@[simp] theorem State.onPwr_ref (f : PwrSt → PwrSt) (s : State) : (s.onPwr f).ref = s.ref := rfl
@[simp] theorem State.onPwr_ptp (f : PwrSt → PwrSt) (s : State) : (s.onPwr f).ptp = s.ptp := rfl
@[simp] theorem State.onPwr_trp (f : PwrSt → PwrSt) (s : State) : (s.onPwr f).trp = s.trp := rfl
@[simp] theorem State.onPwr_twin (f : PwrSt → PwrSt) (s : State) : (s.onPwr f).twin = s.twin := rfl
@[simp] theorem State.onPwr_upd (f : PwrSt → PwrSt) (s : State) : (s.onPwr f).upd = s.upd := rfl
@[simp] theorem State.onPwr_tst (f : PwrSt → PwrSt) (s : State) : (s.onPwr f).tst = s.tst := rfl
@[simp] theorem State.onPwr_emitted (f : PwrSt → PwrSt) (s : State) : (s.onPwr f).emitted = s.emitted := rfl
@[simp] theorem State.onPwr_free (f : PwrSt → PwrSt) (s : State) : (s.onPwr f).free = s.free := rfl
@[simp] theorem State.onPwr_pending (f : PwrSt → PwrSt) (s : State) : (s.onPwr f).pending = s.pending := rfl

/-! ### onCtl -/

@[simp] theorem State.onCtl_time (f : CtlSt → CtlSt) (s : State) : (s.onCtl f).time = s.time := rfl
@[simp] theorem State.onCtl_pwr (f : CtlSt → CtlSt) (s : State) : (s.onCtl f).pwr = s.pwr := rfl
@[simp] theorem State.onCtl_ctl (f : CtlSt → CtlSt) (s : State) : (s.onCtl f).ctl = f s.ctl := rfl
@[simp] theorem State.onCtl_flt (f : CtlSt → CtlSt) (s : State) : (s.onCtl f).flt = s.flt := rfl
@[simp] theorem State.onCtl_rec (f : CtlSt → CtlSt) (s : State) : (s.onCtl f).rec_ = s.rec_ := rfl
@[simp] theorem State.onCtl_mem (f : CtlSt → CtlSt) (s : State) : (s.onCtl f).mem = s.mem := rfl
@[simp] theorem State.onCtl_bud (f : CtlSt → CtlSt) (s : State) : (s.onCtl f).bud = s.bud := rfl
@[simp] theorem State.onCtl_rte (f : CtlSt → CtlSt) (s : State) : (s.onCtl f).rte = s.rte := rfl
@[simp] theorem State.onCtl_sdi (f : CtlSt → CtlSt) (s : State) : (s.onCtl f).sdi = s.sdi := rfl
@[simp] theorem State.onCtl_eth (f : CtlSt → CtlSt) (s : State) : (s.onCtl f).eth = s.eth := rfl
@[simp] theorem State.onCtl_flo (f : CtlSt → CtlSt) (s : State) : (s.onCtl f).flo = s.flo := rfl
@[simp] theorem State.onCtl_cmp (f : CtlSt → CtlSt) (s : State) : (s.onCtl f).cmp = s.cmp := rfl
@[simp] theorem State.onCtl_cal (f : CtlSt → CtlSt) (s : State) : (s.onCtl f).cal = s.cal := rfl
@[simp] theorem State.onCtl_ref (f : CtlSt → CtlSt) (s : State) : (s.onCtl f).ref = s.ref := rfl
@[simp] theorem State.onCtl_ptp (f : CtlSt → CtlSt) (s : State) : (s.onCtl f).ptp = s.ptp := rfl
@[simp] theorem State.onCtl_trp (f : CtlSt → CtlSt) (s : State) : (s.onCtl f).trp = s.trp := rfl
@[simp] theorem State.onCtl_twin (f : CtlSt → CtlSt) (s : State) : (s.onCtl f).twin = s.twin := rfl
@[simp] theorem State.onCtl_upd (f : CtlSt → CtlSt) (s : State) : (s.onCtl f).upd = s.upd := rfl
@[simp] theorem State.onCtl_tst (f : CtlSt → CtlSt) (s : State) : (s.onCtl f).tst = s.tst := rfl
@[simp] theorem State.onCtl_emitted (f : CtlSt → CtlSt) (s : State) : (s.onCtl f).emitted = s.emitted := rfl
@[simp] theorem State.onCtl_free (f : CtlSt → CtlSt) (s : State) : (s.onCtl f).free = s.free := rfl
@[simp] theorem State.onCtl_pending (f : CtlSt → CtlSt) (s : State) : (s.onCtl f).pending = s.pending := rfl

/-! ### onFlt -/

@[simp] theorem State.onFlt_time (f : FltSt → FltSt) (s : State) : (s.onFlt f).time = s.time := rfl
@[simp] theorem State.onFlt_pwr (f : FltSt → FltSt) (s : State) : (s.onFlt f).pwr = s.pwr := rfl
@[simp] theorem State.onFlt_ctl (f : FltSt → FltSt) (s : State) : (s.onFlt f).ctl = s.ctl := rfl
@[simp] theorem State.onFlt_flt (f : FltSt → FltSt) (s : State) : (s.onFlt f).flt = f s.flt := rfl
@[simp] theorem State.onFlt_rec (f : FltSt → FltSt) (s : State) : (s.onFlt f).rec_ = s.rec_ := rfl
@[simp] theorem State.onFlt_mem (f : FltSt → FltSt) (s : State) : (s.onFlt f).mem = s.mem := rfl
@[simp] theorem State.onFlt_bud (f : FltSt → FltSt) (s : State) : (s.onFlt f).bud = s.bud := rfl
@[simp] theorem State.onFlt_rte (f : FltSt → FltSt) (s : State) : (s.onFlt f).rte = s.rte := rfl
@[simp] theorem State.onFlt_sdi (f : FltSt → FltSt) (s : State) : (s.onFlt f).sdi = s.sdi := rfl
@[simp] theorem State.onFlt_eth (f : FltSt → FltSt) (s : State) : (s.onFlt f).eth = s.eth := rfl
@[simp] theorem State.onFlt_flo (f : FltSt → FltSt) (s : State) : (s.onFlt f).flo = s.flo := rfl
@[simp] theorem State.onFlt_cmp (f : FltSt → FltSt) (s : State) : (s.onFlt f).cmp = s.cmp := rfl
@[simp] theorem State.onFlt_cal (f : FltSt → FltSt) (s : State) : (s.onFlt f).cal = s.cal := rfl
@[simp] theorem State.onFlt_ref (f : FltSt → FltSt) (s : State) : (s.onFlt f).ref = s.ref := rfl
@[simp] theorem State.onFlt_ptp (f : FltSt → FltSt) (s : State) : (s.onFlt f).ptp = s.ptp := rfl
@[simp] theorem State.onFlt_trp (f : FltSt → FltSt) (s : State) : (s.onFlt f).trp = s.trp := rfl
@[simp] theorem State.onFlt_twin (f : FltSt → FltSt) (s : State) : (s.onFlt f).twin = s.twin := rfl
@[simp] theorem State.onFlt_upd (f : FltSt → FltSt) (s : State) : (s.onFlt f).upd = s.upd := rfl
@[simp] theorem State.onFlt_tst (f : FltSt → FltSt) (s : State) : (s.onFlt f).tst = s.tst := rfl
@[simp] theorem State.onFlt_emitted (f : FltSt → FltSt) (s : State) : (s.onFlt f).emitted = s.emitted := rfl
@[simp] theorem State.onFlt_free (f : FltSt → FltSt) (s : State) : (s.onFlt f).free = s.free := rfl
@[simp] theorem State.onFlt_pending (f : FltSt → FltSt) (s : State) : (s.onFlt f).pending = s.pending := rfl

/-! ### onRec -/

@[simp] theorem State.onRec_time (f : RecSt → RecSt) (s : State) : (s.onRec f).time = s.time := rfl
@[simp] theorem State.onRec_pwr (f : RecSt → RecSt) (s : State) : (s.onRec f).pwr = s.pwr := rfl
@[simp] theorem State.onRec_ctl (f : RecSt → RecSt) (s : State) : (s.onRec f).ctl = s.ctl := rfl
@[simp] theorem State.onRec_flt (f : RecSt → RecSt) (s : State) : (s.onRec f).flt = s.flt := rfl
@[simp] theorem State.onRec_rec (f : RecSt → RecSt) (s : State) : (s.onRec f).rec_ = f s.rec_ := rfl
@[simp] theorem State.onRec_mem (f : RecSt → RecSt) (s : State) : (s.onRec f).mem = s.mem := rfl
@[simp] theorem State.onRec_bud (f : RecSt → RecSt) (s : State) : (s.onRec f).bud = s.bud := rfl
@[simp] theorem State.onRec_rte (f : RecSt → RecSt) (s : State) : (s.onRec f).rte = s.rte := rfl
@[simp] theorem State.onRec_sdi (f : RecSt → RecSt) (s : State) : (s.onRec f).sdi = s.sdi := rfl
@[simp] theorem State.onRec_eth (f : RecSt → RecSt) (s : State) : (s.onRec f).eth = s.eth := rfl
@[simp] theorem State.onRec_flo (f : RecSt → RecSt) (s : State) : (s.onRec f).flo = s.flo := rfl
@[simp] theorem State.onRec_cmp (f : RecSt → RecSt) (s : State) : (s.onRec f).cmp = s.cmp := rfl
@[simp] theorem State.onRec_cal (f : RecSt → RecSt) (s : State) : (s.onRec f).cal = s.cal := rfl
@[simp] theorem State.onRec_ref (f : RecSt → RecSt) (s : State) : (s.onRec f).ref = s.ref := rfl
@[simp] theorem State.onRec_ptp (f : RecSt → RecSt) (s : State) : (s.onRec f).ptp = s.ptp := rfl
@[simp] theorem State.onRec_trp (f : RecSt → RecSt) (s : State) : (s.onRec f).trp = s.trp := rfl
@[simp] theorem State.onRec_twin (f : RecSt → RecSt) (s : State) : (s.onRec f).twin = s.twin := rfl
@[simp] theorem State.onRec_upd (f : RecSt → RecSt) (s : State) : (s.onRec f).upd = s.upd := rfl
@[simp] theorem State.onRec_tst (f : RecSt → RecSt) (s : State) : (s.onRec f).tst = s.tst := rfl
@[simp] theorem State.onRec_emitted (f : RecSt → RecSt) (s : State) : (s.onRec f).emitted = s.emitted := rfl
@[simp] theorem State.onRec_free (f : RecSt → RecSt) (s : State) : (s.onRec f).free = s.free := rfl
@[simp] theorem State.onRec_pending (f : RecSt → RecSt) (s : State) : (s.onRec f).pending = s.pending := rfl

/-! ### onMem -/

@[simp] theorem State.onMem_time (f : MemSt → MemSt) (s : State) : (s.onMem f).time = s.time := rfl
@[simp] theorem State.onMem_pwr (f : MemSt → MemSt) (s : State) : (s.onMem f).pwr = s.pwr := rfl
@[simp] theorem State.onMem_ctl (f : MemSt → MemSt) (s : State) : (s.onMem f).ctl = s.ctl := rfl
@[simp] theorem State.onMem_flt (f : MemSt → MemSt) (s : State) : (s.onMem f).flt = s.flt := rfl
@[simp] theorem State.onMem_rec (f : MemSt → MemSt) (s : State) : (s.onMem f).rec_ = s.rec_ := rfl
@[simp] theorem State.onMem_mem (f : MemSt → MemSt) (s : State) : (s.onMem f).mem = f s.mem := rfl
@[simp] theorem State.onMem_bud (f : MemSt → MemSt) (s : State) : (s.onMem f).bud = s.bud := rfl
@[simp] theorem State.onMem_rte (f : MemSt → MemSt) (s : State) : (s.onMem f).rte = s.rte := rfl
@[simp] theorem State.onMem_sdi (f : MemSt → MemSt) (s : State) : (s.onMem f).sdi = s.sdi := rfl
@[simp] theorem State.onMem_eth (f : MemSt → MemSt) (s : State) : (s.onMem f).eth = s.eth := rfl
@[simp] theorem State.onMem_flo (f : MemSt → MemSt) (s : State) : (s.onMem f).flo = s.flo := rfl
@[simp] theorem State.onMem_cmp (f : MemSt → MemSt) (s : State) : (s.onMem f).cmp = s.cmp := rfl
@[simp] theorem State.onMem_cal (f : MemSt → MemSt) (s : State) : (s.onMem f).cal = s.cal := rfl
@[simp] theorem State.onMem_ref (f : MemSt → MemSt) (s : State) : (s.onMem f).ref = s.ref := rfl
@[simp] theorem State.onMem_ptp (f : MemSt → MemSt) (s : State) : (s.onMem f).ptp = s.ptp := rfl
@[simp] theorem State.onMem_trp (f : MemSt → MemSt) (s : State) : (s.onMem f).trp = s.trp := rfl
@[simp] theorem State.onMem_twin (f : MemSt → MemSt) (s : State) : (s.onMem f).twin = s.twin := rfl
@[simp] theorem State.onMem_upd (f : MemSt → MemSt) (s : State) : (s.onMem f).upd = s.upd := rfl
@[simp] theorem State.onMem_tst (f : MemSt → MemSt) (s : State) : (s.onMem f).tst = s.tst := rfl
@[simp] theorem State.onMem_emitted (f : MemSt → MemSt) (s : State) : (s.onMem f).emitted = s.emitted := rfl
@[simp] theorem State.onMem_free (f : MemSt → MemSt) (s : State) : (s.onMem f).free = s.free := rfl
@[simp] theorem State.onMem_pending (f : MemSt → MemSt) (s : State) : (s.onMem f).pending = s.pending := rfl

/-! ### onBud -/

@[simp] theorem State.onBud_time (f : BudSt → BudSt) (s : State) : (s.onBud f).time = s.time := rfl
@[simp] theorem State.onBud_pwr (f : BudSt → BudSt) (s : State) : (s.onBud f).pwr = s.pwr := rfl
@[simp] theorem State.onBud_ctl (f : BudSt → BudSt) (s : State) : (s.onBud f).ctl = s.ctl := rfl
@[simp] theorem State.onBud_flt (f : BudSt → BudSt) (s : State) : (s.onBud f).flt = s.flt := rfl
@[simp] theorem State.onBud_rec (f : BudSt → BudSt) (s : State) : (s.onBud f).rec_ = s.rec_ := rfl
@[simp] theorem State.onBud_mem (f : BudSt → BudSt) (s : State) : (s.onBud f).mem = s.mem := rfl
@[simp] theorem State.onBud_bud (f : BudSt → BudSt) (s : State) : (s.onBud f).bud = f s.bud := rfl
@[simp] theorem State.onBud_rte (f : BudSt → BudSt) (s : State) : (s.onBud f).rte = s.rte := rfl
@[simp] theorem State.onBud_sdi (f : BudSt → BudSt) (s : State) : (s.onBud f).sdi = s.sdi := rfl
@[simp] theorem State.onBud_eth (f : BudSt → BudSt) (s : State) : (s.onBud f).eth = s.eth := rfl
@[simp] theorem State.onBud_flo (f : BudSt → BudSt) (s : State) : (s.onBud f).flo = s.flo := rfl
@[simp] theorem State.onBud_cmp (f : BudSt → BudSt) (s : State) : (s.onBud f).cmp = s.cmp := rfl
@[simp] theorem State.onBud_cal (f : BudSt → BudSt) (s : State) : (s.onBud f).cal = s.cal := rfl
@[simp] theorem State.onBud_ref (f : BudSt → BudSt) (s : State) : (s.onBud f).ref = s.ref := rfl
@[simp] theorem State.onBud_ptp (f : BudSt → BudSt) (s : State) : (s.onBud f).ptp = s.ptp := rfl
@[simp] theorem State.onBud_trp (f : BudSt → BudSt) (s : State) : (s.onBud f).trp = s.trp := rfl
@[simp] theorem State.onBud_twin (f : BudSt → BudSt) (s : State) : (s.onBud f).twin = s.twin := rfl
@[simp] theorem State.onBud_upd (f : BudSt → BudSt) (s : State) : (s.onBud f).upd = s.upd := rfl
@[simp] theorem State.onBud_tst (f : BudSt → BudSt) (s : State) : (s.onBud f).tst = s.tst := rfl
@[simp] theorem State.onBud_emitted (f : BudSt → BudSt) (s : State) : (s.onBud f).emitted = s.emitted := rfl
@[simp] theorem State.onBud_free (f : BudSt → BudSt) (s : State) : (s.onBud f).free = s.free := rfl
@[simp] theorem State.onBud_pending (f : BudSt → BudSt) (s : State) : (s.onBud f).pending = s.pending := rfl

/-! ### onRte -/

@[simp] theorem State.onRte_time (f : RteSt → RteSt) (s : State) : (s.onRte f).time = s.time := rfl
@[simp] theorem State.onRte_pwr (f : RteSt → RteSt) (s : State) : (s.onRte f).pwr = s.pwr := rfl
@[simp] theorem State.onRte_ctl (f : RteSt → RteSt) (s : State) : (s.onRte f).ctl = s.ctl := rfl
@[simp] theorem State.onRte_flt (f : RteSt → RteSt) (s : State) : (s.onRte f).flt = s.flt := rfl
@[simp] theorem State.onRte_rec (f : RteSt → RteSt) (s : State) : (s.onRte f).rec_ = s.rec_ := rfl
@[simp] theorem State.onRte_mem (f : RteSt → RteSt) (s : State) : (s.onRte f).mem = s.mem := rfl
@[simp] theorem State.onRte_bud (f : RteSt → RteSt) (s : State) : (s.onRte f).bud = s.bud := rfl
@[simp] theorem State.onRte_rte (f : RteSt → RteSt) (s : State) : (s.onRte f).rte = f s.rte := rfl
@[simp] theorem State.onRte_sdi (f : RteSt → RteSt) (s : State) : (s.onRte f).sdi = s.sdi := rfl
@[simp] theorem State.onRte_eth (f : RteSt → RteSt) (s : State) : (s.onRte f).eth = s.eth := rfl
@[simp] theorem State.onRte_flo (f : RteSt → RteSt) (s : State) : (s.onRte f).flo = s.flo := rfl
@[simp] theorem State.onRte_cmp (f : RteSt → RteSt) (s : State) : (s.onRte f).cmp = s.cmp := rfl
@[simp] theorem State.onRte_cal (f : RteSt → RteSt) (s : State) : (s.onRte f).cal = s.cal := rfl
@[simp] theorem State.onRte_ref (f : RteSt → RteSt) (s : State) : (s.onRte f).ref = s.ref := rfl
@[simp] theorem State.onRte_ptp (f : RteSt → RteSt) (s : State) : (s.onRte f).ptp = s.ptp := rfl
@[simp] theorem State.onRte_trp (f : RteSt → RteSt) (s : State) : (s.onRte f).trp = s.trp := rfl
@[simp] theorem State.onRte_twin (f : RteSt → RteSt) (s : State) : (s.onRte f).twin = s.twin := rfl
@[simp] theorem State.onRte_upd (f : RteSt → RteSt) (s : State) : (s.onRte f).upd = s.upd := rfl
@[simp] theorem State.onRte_tst (f : RteSt → RteSt) (s : State) : (s.onRte f).tst = s.tst := rfl
@[simp] theorem State.onRte_emitted (f : RteSt → RteSt) (s : State) : (s.onRte f).emitted = s.emitted := rfl
@[simp] theorem State.onRte_free (f : RteSt → RteSt) (s : State) : (s.onRte f).free = s.free := rfl
@[simp] theorem State.onRte_pending (f : RteSt → RteSt) (s : State) : (s.onRte f).pending = s.pending := rfl

/-! ### onSdi -/

@[simp] theorem State.onSdi_time (f : SdiSt → SdiSt) (s : State) : (s.onSdi f).time = s.time := rfl
@[simp] theorem State.onSdi_pwr (f : SdiSt → SdiSt) (s : State) : (s.onSdi f).pwr = s.pwr := rfl
@[simp] theorem State.onSdi_ctl (f : SdiSt → SdiSt) (s : State) : (s.onSdi f).ctl = s.ctl := rfl
@[simp] theorem State.onSdi_flt (f : SdiSt → SdiSt) (s : State) : (s.onSdi f).flt = s.flt := rfl
@[simp] theorem State.onSdi_rec (f : SdiSt → SdiSt) (s : State) : (s.onSdi f).rec_ = s.rec_ := rfl
@[simp] theorem State.onSdi_mem (f : SdiSt → SdiSt) (s : State) : (s.onSdi f).mem = s.mem := rfl
@[simp] theorem State.onSdi_bud (f : SdiSt → SdiSt) (s : State) : (s.onSdi f).bud = s.bud := rfl
@[simp] theorem State.onSdi_rte (f : SdiSt → SdiSt) (s : State) : (s.onSdi f).rte = s.rte := rfl
@[simp] theorem State.onSdi_sdi (f : SdiSt → SdiSt) (s : State) : (s.onSdi f).sdi = f s.sdi := rfl
@[simp] theorem State.onSdi_eth (f : SdiSt → SdiSt) (s : State) : (s.onSdi f).eth = s.eth := rfl
@[simp] theorem State.onSdi_flo (f : SdiSt → SdiSt) (s : State) : (s.onSdi f).flo = s.flo := rfl
@[simp] theorem State.onSdi_cmp (f : SdiSt → SdiSt) (s : State) : (s.onSdi f).cmp = s.cmp := rfl
@[simp] theorem State.onSdi_cal (f : SdiSt → SdiSt) (s : State) : (s.onSdi f).cal = s.cal := rfl
@[simp] theorem State.onSdi_ref (f : SdiSt → SdiSt) (s : State) : (s.onSdi f).ref = s.ref := rfl
@[simp] theorem State.onSdi_ptp (f : SdiSt → SdiSt) (s : State) : (s.onSdi f).ptp = s.ptp := rfl
@[simp] theorem State.onSdi_trp (f : SdiSt → SdiSt) (s : State) : (s.onSdi f).trp = s.trp := rfl
@[simp] theorem State.onSdi_twin (f : SdiSt → SdiSt) (s : State) : (s.onSdi f).twin = s.twin := rfl
@[simp] theorem State.onSdi_upd (f : SdiSt → SdiSt) (s : State) : (s.onSdi f).upd = s.upd := rfl
@[simp] theorem State.onSdi_tst (f : SdiSt → SdiSt) (s : State) : (s.onSdi f).tst = s.tst := rfl
@[simp] theorem State.onSdi_emitted (f : SdiSt → SdiSt) (s : State) : (s.onSdi f).emitted = s.emitted := rfl
@[simp] theorem State.onSdi_free (f : SdiSt → SdiSt) (s : State) : (s.onSdi f).free = s.free := rfl
@[simp] theorem State.onSdi_pending (f : SdiSt → SdiSt) (s : State) : (s.onSdi f).pending = s.pending := rfl

/-! ### onEth -/

@[simp] theorem State.onEth_time (f : EthSt → EthSt) (s : State) : (s.onEth f).time = s.time := rfl
@[simp] theorem State.onEth_pwr (f : EthSt → EthSt) (s : State) : (s.onEth f).pwr = s.pwr := rfl
@[simp] theorem State.onEth_ctl (f : EthSt → EthSt) (s : State) : (s.onEth f).ctl = s.ctl := rfl
@[simp] theorem State.onEth_flt (f : EthSt → EthSt) (s : State) : (s.onEth f).flt = s.flt := rfl
@[simp] theorem State.onEth_rec (f : EthSt → EthSt) (s : State) : (s.onEth f).rec_ = s.rec_ := rfl
@[simp] theorem State.onEth_mem (f : EthSt → EthSt) (s : State) : (s.onEth f).mem = s.mem := rfl
@[simp] theorem State.onEth_bud (f : EthSt → EthSt) (s : State) : (s.onEth f).bud = s.bud := rfl
@[simp] theorem State.onEth_rte (f : EthSt → EthSt) (s : State) : (s.onEth f).rte = s.rte := rfl
@[simp] theorem State.onEth_sdi (f : EthSt → EthSt) (s : State) : (s.onEth f).sdi = s.sdi := rfl
@[simp] theorem State.onEth_eth (f : EthSt → EthSt) (s : State) : (s.onEth f).eth = f s.eth := rfl
@[simp] theorem State.onEth_flo (f : EthSt → EthSt) (s : State) : (s.onEth f).flo = s.flo := rfl
@[simp] theorem State.onEth_cmp (f : EthSt → EthSt) (s : State) : (s.onEth f).cmp = s.cmp := rfl
@[simp] theorem State.onEth_cal (f : EthSt → EthSt) (s : State) : (s.onEth f).cal = s.cal := rfl
@[simp] theorem State.onEth_ref (f : EthSt → EthSt) (s : State) : (s.onEth f).ref = s.ref := rfl
@[simp] theorem State.onEth_ptp (f : EthSt → EthSt) (s : State) : (s.onEth f).ptp = s.ptp := rfl
@[simp] theorem State.onEth_trp (f : EthSt → EthSt) (s : State) : (s.onEth f).trp = s.trp := rfl
@[simp] theorem State.onEth_twin (f : EthSt → EthSt) (s : State) : (s.onEth f).twin = s.twin := rfl
@[simp] theorem State.onEth_upd (f : EthSt → EthSt) (s : State) : (s.onEth f).upd = s.upd := rfl
@[simp] theorem State.onEth_tst (f : EthSt → EthSt) (s : State) : (s.onEth f).tst = s.tst := rfl
@[simp] theorem State.onEth_emitted (f : EthSt → EthSt) (s : State) : (s.onEth f).emitted = s.emitted := rfl
@[simp] theorem State.onEth_free (f : EthSt → EthSt) (s : State) : (s.onEth f).free = s.free := rfl
@[simp] theorem State.onEth_pending (f : EthSt → EthSt) (s : State) : (s.onEth f).pending = s.pending := rfl

/-! ### onFlo -/

@[simp] theorem State.onFlo_time (f : FloSt → FloSt) (s : State) : (s.onFlo f).time = s.time := rfl
@[simp] theorem State.onFlo_pwr (f : FloSt → FloSt) (s : State) : (s.onFlo f).pwr = s.pwr := rfl
@[simp] theorem State.onFlo_ctl (f : FloSt → FloSt) (s : State) : (s.onFlo f).ctl = s.ctl := rfl
@[simp] theorem State.onFlo_flt (f : FloSt → FloSt) (s : State) : (s.onFlo f).flt = s.flt := rfl
@[simp] theorem State.onFlo_rec (f : FloSt → FloSt) (s : State) : (s.onFlo f).rec_ = s.rec_ := rfl
@[simp] theorem State.onFlo_mem (f : FloSt → FloSt) (s : State) : (s.onFlo f).mem = s.mem := rfl
@[simp] theorem State.onFlo_bud (f : FloSt → FloSt) (s : State) : (s.onFlo f).bud = s.bud := rfl
@[simp] theorem State.onFlo_rte (f : FloSt → FloSt) (s : State) : (s.onFlo f).rte = s.rte := rfl
@[simp] theorem State.onFlo_sdi (f : FloSt → FloSt) (s : State) : (s.onFlo f).sdi = s.sdi := rfl
@[simp] theorem State.onFlo_eth (f : FloSt → FloSt) (s : State) : (s.onFlo f).eth = s.eth := rfl
@[simp] theorem State.onFlo_flo (f : FloSt → FloSt) (s : State) : (s.onFlo f).flo = f s.flo := rfl
@[simp] theorem State.onFlo_cmp (f : FloSt → FloSt) (s : State) : (s.onFlo f).cmp = s.cmp := rfl
@[simp] theorem State.onFlo_cal (f : FloSt → FloSt) (s : State) : (s.onFlo f).cal = s.cal := rfl
@[simp] theorem State.onFlo_ref (f : FloSt → FloSt) (s : State) : (s.onFlo f).ref = s.ref := rfl
@[simp] theorem State.onFlo_ptp (f : FloSt → FloSt) (s : State) : (s.onFlo f).ptp = s.ptp := rfl
@[simp] theorem State.onFlo_trp (f : FloSt → FloSt) (s : State) : (s.onFlo f).trp = s.trp := rfl
@[simp] theorem State.onFlo_twin (f : FloSt → FloSt) (s : State) : (s.onFlo f).twin = s.twin := rfl
@[simp] theorem State.onFlo_upd (f : FloSt → FloSt) (s : State) : (s.onFlo f).upd = s.upd := rfl
@[simp] theorem State.onFlo_tst (f : FloSt → FloSt) (s : State) : (s.onFlo f).tst = s.tst := rfl
@[simp] theorem State.onFlo_emitted (f : FloSt → FloSt) (s : State) : (s.onFlo f).emitted = s.emitted := rfl
@[simp] theorem State.onFlo_free (f : FloSt → FloSt) (s : State) : (s.onFlo f).free = s.free := rfl
@[simp] theorem State.onFlo_pending (f : FloSt → FloSt) (s : State) : (s.onFlo f).pending = s.pending := rfl

/-! ### onCmp -/

@[simp] theorem State.onCmp_time (f : CmpSt → CmpSt) (s : State) : (s.onCmp f).time = s.time := rfl
@[simp] theorem State.onCmp_pwr (f : CmpSt → CmpSt) (s : State) : (s.onCmp f).pwr = s.pwr := rfl
@[simp] theorem State.onCmp_ctl (f : CmpSt → CmpSt) (s : State) : (s.onCmp f).ctl = s.ctl := rfl
@[simp] theorem State.onCmp_flt (f : CmpSt → CmpSt) (s : State) : (s.onCmp f).flt = s.flt := rfl
@[simp] theorem State.onCmp_rec (f : CmpSt → CmpSt) (s : State) : (s.onCmp f).rec_ = s.rec_ := rfl
@[simp] theorem State.onCmp_mem (f : CmpSt → CmpSt) (s : State) : (s.onCmp f).mem = s.mem := rfl
@[simp] theorem State.onCmp_bud (f : CmpSt → CmpSt) (s : State) : (s.onCmp f).bud = s.bud := rfl
@[simp] theorem State.onCmp_rte (f : CmpSt → CmpSt) (s : State) : (s.onCmp f).rte = s.rte := rfl
@[simp] theorem State.onCmp_sdi (f : CmpSt → CmpSt) (s : State) : (s.onCmp f).sdi = s.sdi := rfl
@[simp] theorem State.onCmp_eth (f : CmpSt → CmpSt) (s : State) : (s.onCmp f).eth = s.eth := rfl
@[simp] theorem State.onCmp_flo (f : CmpSt → CmpSt) (s : State) : (s.onCmp f).flo = s.flo := rfl
@[simp] theorem State.onCmp_cmp (f : CmpSt → CmpSt) (s : State) : (s.onCmp f).cmp = f s.cmp := rfl
@[simp] theorem State.onCmp_cal (f : CmpSt → CmpSt) (s : State) : (s.onCmp f).cal = s.cal := rfl
@[simp] theorem State.onCmp_ref (f : CmpSt → CmpSt) (s : State) : (s.onCmp f).ref = s.ref := rfl
@[simp] theorem State.onCmp_ptp (f : CmpSt → CmpSt) (s : State) : (s.onCmp f).ptp = s.ptp := rfl
@[simp] theorem State.onCmp_trp (f : CmpSt → CmpSt) (s : State) : (s.onCmp f).trp = s.trp := rfl
@[simp] theorem State.onCmp_twin (f : CmpSt → CmpSt) (s : State) : (s.onCmp f).twin = s.twin := rfl
@[simp] theorem State.onCmp_upd (f : CmpSt → CmpSt) (s : State) : (s.onCmp f).upd = s.upd := rfl
@[simp] theorem State.onCmp_tst (f : CmpSt → CmpSt) (s : State) : (s.onCmp f).tst = s.tst := rfl
@[simp] theorem State.onCmp_emitted (f : CmpSt → CmpSt) (s : State) : (s.onCmp f).emitted = s.emitted := rfl
@[simp] theorem State.onCmp_free (f : CmpSt → CmpSt) (s : State) : (s.onCmp f).free = s.free := rfl
@[simp] theorem State.onCmp_pending (f : CmpSt → CmpSt) (s : State) : (s.onCmp f).pending = s.pending := rfl

/-! ### onCal -/

@[simp] theorem State.onCal_time (f : CalSt → CalSt) (s : State) : (s.onCal f).time = s.time := rfl
@[simp] theorem State.onCal_pwr (f : CalSt → CalSt) (s : State) : (s.onCal f).pwr = s.pwr := rfl
@[simp] theorem State.onCal_ctl (f : CalSt → CalSt) (s : State) : (s.onCal f).ctl = s.ctl := rfl
@[simp] theorem State.onCal_flt (f : CalSt → CalSt) (s : State) : (s.onCal f).flt = s.flt := rfl
@[simp] theorem State.onCal_rec (f : CalSt → CalSt) (s : State) : (s.onCal f).rec_ = s.rec_ := rfl
@[simp] theorem State.onCal_mem (f : CalSt → CalSt) (s : State) : (s.onCal f).mem = s.mem := rfl
@[simp] theorem State.onCal_bud (f : CalSt → CalSt) (s : State) : (s.onCal f).bud = s.bud := rfl
@[simp] theorem State.onCal_rte (f : CalSt → CalSt) (s : State) : (s.onCal f).rte = s.rte := rfl
@[simp] theorem State.onCal_sdi (f : CalSt → CalSt) (s : State) : (s.onCal f).sdi = s.sdi := rfl
@[simp] theorem State.onCal_eth (f : CalSt → CalSt) (s : State) : (s.onCal f).eth = s.eth := rfl
@[simp] theorem State.onCal_flo (f : CalSt → CalSt) (s : State) : (s.onCal f).flo = s.flo := rfl
@[simp] theorem State.onCal_cmp (f : CalSt → CalSt) (s : State) : (s.onCal f).cmp = s.cmp := rfl
@[simp] theorem State.onCal_cal (f : CalSt → CalSt) (s : State) : (s.onCal f).cal = f s.cal := rfl
@[simp] theorem State.onCal_ref (f : CalSt → CalSt) (s : State) : (s.onCal f).ref = s.ref := rfl
@[simp] theorem State.onCal_ptp (f : CalSt → CalSt) (s : State) : (s.onCal f).ptp = s.ptp := rfl
@[simp] theorem State.onCal_trp (f : CalSt → CalSt) (s : State) : (s.onCal f).trp = s.trp := rfl
@[simp] theorem State.onCal_twin (f : CalSt → CalSt) (s : State) : (s.onCal f).twin = s.twin := rfl
@[simp] theorem State.onCal_upd (f : CalSt → CalSt) (s : State) : (s.onCal f).upd = s.upd := rfl
@[simp] theorem State.onCal_tst (f : CalSt → CalSt) (s : State) : (s.onCal f).tst = s.tst := rfl
@[simp] theorem State.onCal_emitted (f : CalSt → CalSt) (s : State) : (s.onCal f).emitted = s.emitted := rfl
@[simp] theorem State.onCal_free (f : CalSt → CalSt) (s : State) : (s.onCal f).free = s.free := rfl
@[simp] theorem State.onCal_pending (f : CalSt → CalSt) (s : State) : (s.onCal f).pending = s.pending := rfl

/-! ### onRef -/

@[simp] theorem State.onRef_time (f : RefSt → RefSt) (s : State) : (s.onRef f).time = s.time := rfl
@[simp] theorem State.onRef_pwr (f : RefSt → RefSt) (s : State) : (s.onRef f).pwr = s.pwr := rfl
@[simp] theorem State.onRef_ctl (f : RefSt → RefSt) (s : State) : (s.onRef f).ctl = s.ctl := rfl
@[simp] theorem State.onRef_flt (f : RefSt → RefSt) (s : State) : (s.onRef f).flt = s.flt := rfl
@[simp] theorem State.onRef_rec (f : RefSt → RefSt) (s : State) : (s.onRef f).rec_ = s.rec_ := rfl
@[simp] theorem State.onRef_mem (f : RefSt → RefSt) (s : State) : (s.onRef f).mem = s.mem := rfl
@[simp] theorem State.onRef_bud (f : RefSt → RefSt) (s : State) : (s.onRef f).bud = s.bud := rfl
@[simp] theorem State.onRef_rte (f : RefSt → RefSt) (s : State) : (s.onRef f).rte = s.rte := rfl
@[simp] theorem State.onRef_sdi (f : RefSt → RefSt) (s : State) : (s.onRef f).sdi = s.sdi := rfl
@[simp] theorem State.onRef_eth (f : RefSt → RefSt) (s : State) : (s.onRef f).eth = s.eth := rfl
@[simp] theorem State.onRef_flo (f : RefSt → RefSt) (s : State) : (s.onRef f).flo = s.flo := rfl
@[simp] theorem State.onRef_cmp (f : RefSt → RefSt) (s : State) : (s.onRef f).cmp = s.cmp := rfl
@[simp] theorem State.onRef_cal (f : RefSt → RefSt) (s : State) : (s.onRef f).cal = s.cal := rfl
@[simp] theorem State.onRef_ref (f : RefSt → RefSt) (s : State) : (s.onRef f).ref = f s.ref := rfl
@[simp] theorem State.onRef_ptp (f : RefSt → RefSt) (s : State) : (s.onRef f).ptp = s.ptp := rfl
@[simp] theorem State.onRef_trp (f : RefSt → RefSt) (s : State) : (s.onRef f).trp = s.trp := rfl
@[simp] theorem State.onRef_twin (f : RefSt → RefSt) (s : State) : (s.onRef f).twin = s.twin := rfl
@[simp] theorem State.onRef_upd (f : RefSt → RefSt) (s : State) : (s.onRef f).upd = s.upd := rfl
@[simp] theorem State.onRef_tst (f : RefSt → RefSt) (s : State) : (s.onRef f).tst = s.tst := rfl
@[simp] theorem State.onRef_emitted (f : RefSt → RefSt) (s : State) : (s.onRef f).emitted = s.emitted := rfl
@[simp] theorem State.onRef_free (f : RefSt → RefSt) (s : State) : (s.onRef f).free = s.free := rfl
@[simp] theorem State.onRef_pending (f : RefSt → RefSt) (s : State) : (s.onRef f).pending = s.pending := rfl

/-! ### onPtp -/

@[simp] theorem State.onPtp_time (f : PtpSt → PtpSt) (s : State) : (s.onPtp f).time = s.time := rfl
@[simp] theorem State.onPtp_pwr (f : PtpSt → PtpSt) (s : State) : (s.onPtp f).pwr = s.pwr := rfl
@[simp] theorem State.onPtp_ctl (f : PtpSt → PtpSt) (s : State) : (s.onPtp f).ctl = s.ctl := rfl
@[simp] theorem State.onPtp_flt (f : PtpSt → PtpSt) (s : State) : (s.onPtp f).flt = s.flt := rfl
@[simp] theorem State.onPtp_rec (f : PtpSt → PtpSt) (s : State) : (s.onPtp f).rec_ = s.rec_ := rfl
@[simp] theorem State.onPtp_mem (f : PtpSt → PtpSt) (s : State) : (s.onPtp f).mem = s.mem := rfl
@[simp] theorem State.onPtp_bud (f : PtpSt → PtpSt) (s : State) : (s.onPtp f).bud = s.bud := rfl
@[simp] theorem State.onPtp_rte (f : PtpSt → PtpSt) (s : State) : (s.onPtp f).rte = s.rte := rfl
@[simp] theorem State.onPtp_sdi (f : PtpSt → PtpSt) (s : State) : (s.onPtp f).sdi = s.sdi := rfl
@[simp] theorem State.onPtp_eth (f : PtpSt → PtpSt) (s : State) : (s.onPtp f).eth = s.eth := rfl
@[simp] theorem State.onPtp_flo (f : PtpSt → PtpSt) (s : State) : (s.onPtp f).flo = s.flo := rfl
@[simp] theorem State.onPtp_cmp (f : PtpSt → PtpSt) (s : State) : (s.onPtp f).cmp = s.cmp := rfl
@[simp] theorem State.onPtp_cal (f : PtpSt → PtpSt) (s : State) : (s.onPtp f).cal = s.cal := rfl
@[simp] theorem State.onPtp_ref (f : PtpSt → PtpSt) (s : State) : (s.onPtp f).ref = s.ref := rfl
@[simp] theorem State.onPtp_ptp (f : PtpSt → PtpSt) (s : State) : (s.onPtp f).ptp = f s.ptp := rfl
@[simp] theorem State.onPtp_trp (f : PtpSt → PtpSt) (s : State) : (s.onPtp f).trp = s.trp := rfl
@[simp] theorem State.onPtp_twin (f : PtpSt → PtpSt) (s : State) : (s.onPtp f).twin = s.twin := rfl
@[simp] theorem State.onPtp_upd (f : PtpSt → PtpSt) (s : State) : (s.onPtp f).upd = s.upd := rfl
@[simp] theorem State.onPtp_tst (f : PtpSt → PtpSt) (s : State) : (s.onPtp f).tst = s.tst := rfl
@[simp] theorem State.onPtp_emitted (f : PtpSt → PtpSt) (s : State) : (s.onPtp f).emitted = s.emitted := rfl
@[simp] theorem State.onPtp_free (f : PtpSt → PtpSt) (s : State) : (s.onPtp f).free = s.free := rfl
@[simp] theorem State.onPtp_pending (f : PtpSt → PtpSt) (s : State) : (s.onPtp f).pending = s.pending := rfl

/-! ### onTrp -/

@[simp] theorem State.onTrp_time (f : TrpSt → TrpSt) (s : State) : (s.onTrp f).time = s.time := rfl
@[simp] theorem State.onTrp_pwr (f : TrpSt → TrpSt) (s : State) : (s.onTrp f).pwr = s.pwr := rfl
@[simp] theorem State.onTrp_ctl (f : TrpSt → TrpSt) (s : State) : (s.onTrp f).ctl = s.ctl := rfl
@[simp] theorem State.onTrp_flt (f : TrpSt → TrpSt) (s : State) : (s.onTrp f).flt = s.flt := rfl
@[simp] theorem State.onTrp_rec (f : TrpSt → TrpSt) (s : State) : (s.onTrp f).rec_ = s.rec_ := rfl
@[simp] theorem State.onTrp_mem (f : TrpSt → TrpSt) (s : State) : (s.onTrp f).mem = s.mem := rfl
@[simp] theorem State.onTrp_bud (f : TrpSt → TrpSt) (s : State) : (s.onTrp f).bud = s.bud := rfl
@[simp] theorem State.onTrp_rte (f : TrpSt → TrpSt) (s : State) : (s.onTrp f).rte = s.rte := rfl
@[simp] theorem State.onTrp_sdi (f : TrpSt → TrpSt) (s : State) : (s.onTrp f).sdi = s.sdi := rfl
@[simp] theorem State.onTrp_eth (f : TrpSt → TrpSt) (s : State) : (s.onTrp f).eth = s.eth := rfl
@[simp] theorem State.onTrp_flo (f : TrpSt → TrpSt) (s : State) : (s.onTrp f).flo = s.flo := rfl
@[simp] theorem State.onTrp_cmp (f : TrpSt → TrpSt) (s : State) : (s.onTrp f).cmp = s.cmp := rfl
@[simp] theorem State.onTrp_cal (f : TrpSt → TrpSt) (s : State) : (s.onTrp f).cal = s.cal := rfl
@[simp] theorem State.onTrp_ref (f : TrpSt → TrpSt) (s : State) : (s.onTrp f).ref = s.ref := rfl
@[simp] theorem State.onTrp_ptp (f : TrpSt → TrpSt) (s : State) : (s.onTrp f).ptp = s.ptp := rfl
@[simp] theorem State.onTrp_trp (f : TrpSt → TrpSt) (s : State) : (s.onTrp f).trp = f s.trp := rfl
@[simp] theorem State.onTrp_twin (f : TrpSt → TrpSt) (s : State) : (s.onTrp f).twin = s.twin := rfl
@[simp] theorem State.onTrp_upd (f : TrpSt → TrpSt) (s : State) : (s.onTrp f).upd = s.upd := rfl
@[simp] theorem State.onTrp_tst (f : TrpSt → TrpSt) (s : State) : (s.onTrp f).tst = s.tst := rfl
@[simp] theorem State.onTrp_emitted (f : TrpSt → TrpSt) (s : State) : (s.onTrp f).emitted = s.emitted := rfl
@[simp] theorem State.onTrp_free (f : TrpSt → TrpSt) (s : State) : (s.onTrp f).free = s.free := rfl
@[simp] theorem State.onTrp_pending (f : TrpSt → TrpSt) (s : State) : (s.onTrp f).pending = s.pending := rfl

/-! ### onTwin -/

@[simp] theorem State.onTwin_time (f : TwinSt → TwinSt) (s : State) : (s.onTwin f).time = s.time := rfl
@[simp] theorem State.onTwin_pwr (f : TwinSt → TwinSt) (s : State) : (s.onTwin f).pwr = s.pwr := rfl
@[simp] theorem State.onTwin_ctl (f : TwinSt → TwinSt) (s : State) : (s.onTwin f).ctl = s.ctl := rfl
@[simp] theorem State.onTwin_flt (f : TwinSt → TwinSt) (s : State) : (s.onTwin f).flt = s.flt := rfl
@[simp] theorem State.onTwin_rec (f : TwinSt → TwinSt) (s : State) : (s.onTwin f).rec_ = s.rec_ := rfl
@[simp] theorem State.onTwin_mem (f : TwinSt → TwinSt) (s : State) : (s.onTwin f).mem = s.mem := rfl
@[simp] theorem State.onTwin_bud (f : TwinSt → TwinSt) (s : State) : (s.onTwin f).bud = s.bud := rfl
@[simp] theorem State.onTwin_rte (f : TwinSt → TwinSt) (s : State) : (s.onTwin f).rte = s.rte := rfl
@[simp] theorem State.onTwin_sdi (f : TwinSt → TwinSt) (s : State) : (s.onTwin f).sdi = s.sdi := rfl
@[simp] theorem State.onTwin_eth (f : TwinSt → TwinSt) (s : State) : (s.onTwin f).eth = s.eth := rfl
@[simp] theorem State.onTwin_flo (f : TwinSt → TwinSt) (s : State) : (s.onTwin f).flo = s.flo := rfl
@[simp] theorem State.onTwin_cmp (f : TwinSt → TwinSt) (s : State) : (s.onTwin f).cmp = s.cmp := rfl
@[simp] theorem State.onTwin_cal (f : TwinSt → TwinSt) (s : State) : (s.onTwin f).cal = s.cal := rfl
@[simp] theorem State.onTwin_ref (f : TwinSt → TwinSt) (s : State) : (s.onTwin f).ref = s.ref := rfl
@[simp] theorem State.onTwin_ptp (f : TwinSt → TwinSt) (s : State) : (s.onTwin f).ptp = s.ptp := rfl
@[simp] theorem State.onTwin_trp (f : TwinSt → TwinSt) (s : State) : (s.onTwin f).trp = s.trp := rfl
@[simp] theorem State.onTwin_twin (f : TwinSt → TwinSt) (s : State) : (s.onTwin f).twin = f s.twin := rfl
@[simp] theorem State.onTwin_upd (f : TwinSt → TwinSt) (s : State) : (s.onTwin f).upd = s.upd := rfl
@[simp] theorem State.onTwin_tst (f : TwinSt → TwinSt) (s : State) : (s.onTwin f).tst = s.tst := rfl
@[simp] theorem State.onTwin_emitted (f : TwinSt → TwinSt) (s : State) : (s.onTwin f).emitted = s.emitted := rfl
@[simp] theorem State.onTwin_free (f : TwinSt → TwinSt) (s : State) : (s.onTwin f).free = s.free := rfl
@[simp] theorem State.onTwin_pending (f : TwinSt → TwinSt) (s : State) : (s.onTwin f).pending = s.pending := rfl

/-! ### onUpd -/

@[simp] theorem State.onUpd_time (f : UpdSt → UpdSt) (s : State) : (s.onUpd f).time = s.time := rfl
@[simp] theorem State.onUpd_pwr (f : UpdSt → UpdSt) (s : State) : (s.onUpd f).pwr = s.pwr := rfl
@[simp] theorem State.onUpd_ctl (f : UpdSt → UpdSt) (s : State) : (s.onUpd f).ctl = s.ctl := rfl
@[simp] theorem State.onUpd_flt (f : UpdSt → UpdSt) (s : State) : (s.onUpd f).flt = s.flt := rfl
@[simp] theorem State.onUpd_rec (f : UpdSt → UpdSt) (s : State) : (s.onUpd f).rec_ = s.rec_ := rfl
@[simp] theorem State.onUpd_mem (f : UpdSt → UpdSt) (s : State) : (s.onUpd f).mem = s.mem := rfl
@[simp] theorem State.onUpd_bud (f : UpdSt → UpdSt) (s : State) : (s.onUpd f).bud = s.bud := rfl
@[simp] theorem State.onUpd_rte (f : UpdSt → UpdSt) (s : State) : (s.onUpd f).rte = s.rte := rfl
@[simp] theorem State.onUpd_sdi (f : UpdSt → UpdSt) (s : State) : (s.onUpd f).sdi = s.sdi := rfl
@[simp] theorem State.onUpd_eth (f : UpdSt → UpdSt) (s : State) : (s.onUpd f).eth = s.eth := rfl
@[simp] theorem State.onUpd_flo (f : UpdSt → UpdSt) (s : State) : (s.onUpd f).flo = s.flo := rfl
@[simp] theorem State.onUpd_cmp (f : UpdSt → UpdSt) (s : State) : (s.onUpd f).cmp = s.cmp := rfl
@[simp] theorem State.onUpd_cal (f : UpdSt → UpdSt) (s : State) : (s.onUpd f).cal = s.cal := rfl
@[simp] theorem State.onUpd_ref (f : UpdSt → UpdSt) (s : State) : (s.onUpd f).ref = s.ref := rfl
@[simp] theorem State.onUpd_ptp (f : UpdSt → UpdSt) (s : State) : (s.onUpd f).ptp = s.ptp := rfl
@[simp] theorem State.onUpd_trp (f : UpdSt → UpdSt) (s : State) : (s.onUpd f).trp = s.trp := rfl
@[simp] theorem State.onUpd_twin (f : UpdSt → UpdSt) (s : State) : (s.onUpd f).twin = s.twin := rfl
@[simp] theorem State.onUpd_upd (f : UpdSt → UpdSt) (s : State) : (s.onUpd f).upd = f s.upd := rfl
@[simp] theorem State.onUpd_tst (f : UpdSt → UpdSt) (s : State) : (s.onUpd f).tst = s.tst := rfl
@[simp] theorem State.onUpd_emitted (f : UpdSt → UpdSt) (s : State) : (s.onUpd f).emitted = s.emitted := rfl
@[simp] theorem State.onUpd_free (f : UpdSt → UpdSt) (s : State) : (s.onUpd f).free = s.free := rfl
@[simp] theorem State.onUpd_pending (f : UpdSt → UpdSt) (s : State) : (s.onUpd f).pending = s.pending := rfl

/-! ### onTst -/

@[simp] theorem State.onTst_time (f : TstSt → TstSt) (s : State) : (s.onTst f).time = s.time := rfl
@[simp] theorem State.onTst_pwr (f : TstSt → TstSt) (s : State) : (s.onTst f).pwr = s.pwr := rfl
@[simp] theorem State.onTst_ctl (f : TstSt → TstSt) (s : State) : (s.onTst f).ctl = s.ctl := rfl
@[simp] theorem State.onTst_flt (f : TstSt → TstSt) (s : State) : (s.onTst f).flt = s.flt := rfl
@[simp] theorem State.onTst_rec (f : TstSt → TstSt) (s : State) : (s.onTst f).rec_ = s.rec_ := rfl
@[simp] theorem State.onTst_mem (f : TstSt → TstSt) (s : State) : (s.onTst f).mem = s.mem := rfl
@[simp] theorem State.onTst_bud (f : TstSt → TstSt) (s : State) : (s.onTst f).bud = s.bud := rfl
@[simp] theorem State.onTst_rte (f : TstSt → TstSt) (s : State) : (s.onTst f).rte = s.rte := rfl
@[simp] theorem State.onTst_sdi (f : TstSt → TstSt) (s : State) : (s.onTst f).sdi = s.sdi := rfl
@[simp] theorem State.onTst_eth (f : TstSt → TstSt) (s : State) : (s.onTst f).eth = s.eth := rfl
@[simp] theorem State.onTst_flo (f : TstSt → TstSt) (s : State) : (s.onTst f).flo = s.flo := rfl
@[simp] theorem State.onTst_cmp (f : TstSt → TstSt) (s : State) : (s.onTst f).cmp = s.cmp := rfl
@[simp] theorem State.onTst_cal (f : TstSt → TstSt) (s : State) : (s.onTst f).cal = s.cal := rfl
@[simp] theorem State.onTst_ref (f : TstSt → TstSt) (s : State) : (s.onTst f).ref = s.ref := rfl
@[simp] theorem State.onTst_ptp (f : TstSt → TstSt) (s : State) : (s.onTst f).ptp = s.ptp := rfl
@[simp] theorem State.onTst_trp (f : TstSt → TstSt) (s : State) : (s.onTst f).trp = s.trp := rfl
@[simp] theorem State.onTst_twin (f : TstSt → TstSt) (s : State) : (s.onTst f).twin = s.twin := rfl
@[simp] theorem State.onTst_upd (f : TstSt → TstSt) (s : State) : (s.onTst f).upd = s.upd := rfl
@[simp] theorem State.onTst_tst (f : TstSt → TstSt) (s : State) : (s.onTst f).tst = f s.tst := rfl
@[simp] theorem State.onTst_emitted (f : TstSt → TstSt) (s : State) : (s.onTst f).emitted = s.emitted := rfl
@[simp] theorem State.onTst_free (f : TstSt → TstSt) (s : State) : (s.onTst f).free = s.free := rfl
@[simp] theorem State.onTst_pending (f : TstSt → TstSt) (s : State) : (s.onTst f).pending = s.pending := rfl

/-! ### fresh and emit -/

@[simp] theorem State.fresh_time (s : State) : s.fresh.time = s.time := rfl
@[simp] theorem State.fresh_pwr (s : State) : s.fresh.pwr = s.pwr := rfl
@[simp] theorem State.fresh_ctl (s : State) : s.fresh.ctl = s.ctl := rfl
@[simp] theorem State.fresh_flt (s : State) : s.fresh.flt = s.flt := rfl
@[simp] theorem State.fresh_rec (s : State) : s.fresh.rec_ = s.rec_ := rfl
@[simp] theorem State.fresh_mem (s : State) : s.fresh.mem = s.mem := rfl
@[simp] theorem State.fresh_bud (s : State) : s.fresh.bud = s.bud := rfl
@[simp] theorem State.fresh_rte (s : State) : s.fresh.rte = s.rte := rfl
@[simp] theorem State.fresh_sdi (s : State) : s.fresh.sdi = s.sdi := rfl
@[simp] theorem State.fresh_eth (s : State) : s.fresh.eth = s.eth := rfl
@[simp] theorem State.fresh_flo (s : State) : s.fresh.flo = s.flo := rfl
@[simp] theorem State.fresh_cmp (s : State) : s.fresh.cmp = s.cmp := rfl
@[simp] theorem State.fresh_cal (s : State) : s.fresh.cal = s.cal := rfl
@[simp] theorem State.fresh_ref (s : State) : s.fresh.ref = s.ref := rfl
@[simp] theorem State.fresh_ptp (s : State) : s.fresh.ptp = s.ptp := rfl
@[simp] theorem State.fresh_trp (s : State) : s.fresh.trp = s.trp := rfl
@[simp] theorem State.fresh_twin (s : State) : s.fresh.twin = s.twin := rfl
@[simp] theorem State.fresh_upd (s : State) : s.fresh.upd = s.upd := rfl
@[simp] theorem State.fresh_tst (s : State) : s.fresh.tst = s.tst := rfl
@[simp] theorem State.fresh_emitted (s : State) : s.fresh.emitted = [] := rfl
@[simp] theorem State.fresh_free (s : State) : s.fresh.free = s.free := rfl
@[simp] theorem State.fresh_pending (s : State) : s.fresh.pending = s.pending := rfl
@[simp] theorem State.emit_time (e : Emit) (s : State) : (s.emit e).time = s.time := rfl
@[simp] theorem State.emit_pwr (e : Emit) (s : State) : (s.emit e).pwr = s.pwr := rfl
@[simp] theorem State.emit_ctl (e : Emit) (s : State) : (s.emit e).ctl = s.ctl := rfl
@[simp] theorem State.emit_flt (e : Emit) (s : State) : (s.emit e).flt = s.flt := rfl
@[simp] theorem State.emit_rec (e : Emit) (s : State) : (s.emit e).rec_ = s.rec_ := rfl
@[simp] theorem State.emit_mem (e : Emit) (s : State) : (s.emit e).mem = s.mem := rfl
@[simp] theorem State.emit_bud (e : Emit) (s : State) : (s.emit e).bud = s.bud := rfl
@[simp] theorem State.emit_rte (e : Emit) (s : State) : (s.emit e).rte = s.rte := rfl
@[simp] theorem State.emit_sdi (e : Emit) (s : State) : (s.emit e).sdi = s.sdi := rfl
@[simp] theorem State.emit_eth (e : Emit) (s : State) : (s.emit e).eth = s.eth := rfl
@[simp] theorem State.emit_flo (e : Emit) (s : State) : (s.emit e).flo = s.flo := rfl
@[simp] theorem State.emit_cmp (e : Emit) (s : State) : (s.emit e).cmp = s.cmp := rfl
@[simp] theorem State.emit_cal (e : Emit) (s : State) : (s.emit e).cal = s.cal := rfl
@[simp] theorem State.emit_ref (e : Emit) (s : State) : (s.emit e).ref = s.ref := rfl
@[simp] theorem State.emit_ptp (e : Emit) (s : State) : (s.emit e).ptp = s.ptp := rfl
@[simp] theorem State.emit_trp (e : Emit) (s : State) : (s.emit e).trp = s.trp := rfl
@[simp] theorem State.emit_twin (e : Emit) (s : State) : (s.emit e).twin = s.twin := rfl
@[simp] theorem State.emit_upd (e : Emit) (s : State) : (s.emit e).upd = s.upd := rfl
@[simp] theorem State.emit_tst (e : Emit) (s : State) : (s.emit e).tst = s.tst := rfl
@[simp] theorem State.emit_emitted (e : Emit) (s : State) : (s.emit e).emitted = s.emitted ++ [e] := rfl
@[simp] theorem State.emit_free (e : Emit) (s : State) : (s.emit e).free = s.free := rfl
@[simp] theorem State.emit_pending (e : Emit) (s : State) : (s.emit e).pending = s.pending := rfl

end Sys2Proof.Machine
end

