-- ==== Sys2Proof/Laws/Raise.lean ====
section
/-! SUPPORT. Events: what raising one sets, what it leaves set, and that only a fatal one moves SAFETY_NET. -/

set_option Elab.async false

namespace Sys2Proof.Machine

open Sys2Proof

/-! ### Sets of pairs -/

@[simp] theorem mem_pinsert (p x : Nat × Nat) (l : List (Nat × Nat)) : x ∈ pinsert p l ↔ x = p ∨ x ∈ l := by
  induction l with
  | nil => simp [pinsert]
  | cons y l ih =>
    unfold pinsert
    split
    · next h => simp [h]
    · split
      · simp
      · simp only [List.mem_cons, ih]
        tauto

/-! ### One event -/

@[simp] theorem State.signal_flt (v : Nat) (s : State) : (s.signal v).flt = s.flt := by
  unfold State.signal
  split
  · rfl
  · split <;> rfl

theorem State.note_status (e : Ev) (b : Bool) (s : State) : (s.note e b).flt.status = pinsert (e.code, e.loc) s.flt.status := by
  unfold State.note State.pend
  simp only
  split
  · simp only [State.onFlt_flt, enqueue]; split <;> rfl
  · rw [State.signal_flt]; simp only [State.onFlt_flt, enqueue]; split <;> rfl

theorem State.note_ctl (e : Ev) (b : Bool) (s : State) : ∃ n, (s.note e b).flt.ctl = fput s.flt.ctl FaultCtl.reaction n := by
  unfold State.note State.pend
  simp only
  split
  · simp only [State.onFlt_flt, enqueue]; split <;> exact ⟨_, rfl⟩
  · rw [State.signal_flt]; simp only [State.onFlt_flt, enqueue]; split <;> exact ⟨_, rfl⟩

theorem State.note_safetyNet (e : Ev) (b : Bool) (s : State) : (s.note e b).safetyNet = s.safetyNet := by
  obtain ⟨n, h⟩ := State.note_ctl e b s
  unfold State.safetyNet fbit
  rw [h, fget_fput_of_disjoint _ _ _ _ (by decide) (by decide)]

/-- R442: the event alone, or with FAULT_ESCALATED and its count. -/
theorem State.noteRise_cases (e : Ev) (b : Bool) (s : State) :
    s.noteRise e b = ((s.note e b).onFlt (fun f => { f with
      ctl := fput f.ctl FaultCtl.escalations (satAdd 16 (fget f.ctl FaultCtl.escalations) 1) })).note
        ⟨0x21, locCollector, true, 0, leBytes 1 (fget s.flt.ctl FaultCtl.reaction) ++ leBytes 1 (fget (s.note e b).flt.ctl FaultCtl.reaction)⟩ false ∨
    s.noteRise e b = s.note e b := by
  unfold State.noteRise
  exact ite_eq_or_eq ..

theorem State.onFlt_status (f : FltSt → FltSt) (s : State) (h : (f s.flt).status = s.flt.status) : (s.onFlt f).flt.status = s.flt.status := h

theorem State.noteRise_status {e : Ev} {b : Bool} {s : State} {p : Nat × Nat} (h : p = (e.code, e.loc) ∨ p ∈ s.flt.status) :
    p ∈ (s.noteRise e b).flt.status := by
  have h1 : p ∈ (s.note e b).flt.status := by rw [State.note_status, mem_pinsert]; exact h
  rcases State.noteRise_cases e b s with r | r <;> rw [r]
  · rw [State.note_status, mem_pinsert, State.onFlt_status _ _ rfl]
    exact Or.inr h1
  · exact h1

theorem State.onFlt_safetyNet (f : FltSt → FltSt) (s : State) (h : fget (f s.flt).ctl FaultCtl.safetyNet = fget s.flt.ctl FaultCtl.safetyNet) :
    (s.onFlt f).safetyNet = s.safetyNet := by
  show (fget (f s.flt).ctl FaultCtl.safetyNet == 1) = (fget s.flt.ctl FaultCtl.safetyNet == 1)
  rw [h]

theorem State.noteRise_safetyNet (e : Ev) (b : Bool) (s : State) : (s.noteRise e b).safetyNet = s.safetyNet := by
  rcases State.noteRise_cases e b s with r | r <;> rw [r]
  · rw [State.note_safetyNet, State.onFlt_safetyNet _ _ (fget_fput_of_disjoint _ _ _ _ (by decide) (by decide)), State.note_safetyNet]
  · exact State.note_safetyNet ..

theorem State.onTst_status (f : TstSt → TstSt) (s : State) : (s.onTst f).flt.status = s.flt.status := rfl

theorem State.onTrp_status (f : TrpSt → TrpSt) (s : State) : (s.onTrp f).flt.status = s.flt.status := rfl

theorem State.netNote_status {x : State} {p : Nat × Nat} (h : p ∈ x.flt.status) (c : Bool) :
    p ∈ (if c = true then (x.note (Ev.plain 0x22 locCollector) false).sendHeartbeat else x.note (Ev.plain 0x22 locCollector) false).flt.status := by
  have h1 : p ∈ (x.note (Ev.plain 0x22 locCollector) false).flt.status := by rw [State.note_status, mem_pinsert]; exact Or.inr h
  split
  · rw [flt_of_kept (State.sendHeartbeat_kept (μ := 0xC0004) ..)]; exact h1
  · exact h1

theorem State.enterSafetyNet_status {s : State} {p : Nat × Nat} (h : p ∈ s.flt.status) : p ∈ s.enterSafetyNet.flt.status := by
  unfold State.enterSafetyNet
  by_cases hc : s.safetyNet = true
  · rw [if_pos hc]; exact h
  · rw [if_neg hc]
    refine State.netNote_status ?_ _
    rw [State.onTrp_status, State.onTst_status, State.onFlt_status _ _ rfl]
    exact h

theorem State.fatal_status {s : State} {p : Nat × Nat} (h : p ∈ s.flt.status) : p ∈ s.fatal.flt.status := by
  unfold State.fatal
  split
  · split
    · exact h
    · rw [flt_of_kept (State.yieldNow_kept (μ := 0xC0004) ..)]
      exact h
  · exact State.enterSafetyNet_status h

/-- Raising an event sets STATUS of its code and location and clears none. -/
theorem State.raiseWith_status {e : Ev} {b : Bool} {s : State} {p : Nat × Nat} (h : p = (e.code, e.loc) ∨ p ∈ s.flt.status) :
    p ∈ (s.raiseWith e b).flt.status := by
  unfold State.raiseWith
  simp only
  split
  · exact State.fatal_status (State.noteRise_status h)
  · exact State.noteRise_status h

theorem State.raise_status (e : Ev) (s : State) : (e.code, e.loc) ∈ (s.raise e).flt.status := State.raiseWith_status (.inl rfl)

theorem State.raise_mono {e : Ev} {s : State} {p : Nat × Nat} (h : p ∈ s.flt.status) : p ∈ (s.raise e).flt.status :=
  State.raiseWith_status (.inr h)

/-- An event of another class than fatal leaves SAFETY_NET. -/
theorem State.raise_safetyNet {e : Ev} {s : State} (h : evClass e.code ≠ 3) : (s.raise e).safetyNet = s.safetyNet := by
  unfold State.raise State.raiseWith
  simp only [h, decide_false, Bool.false_and, Bool.false_eq_true, if_false]
  exact State.noteRise_safetyNet ..

end Sys2Proof.Machine
end

