-- ==== Sys2Proof/Laws/Serve.lean ====
section
/-! SUPPORT. Serving: what a command whose checks pass answers, and what a refused one does. Claims about single commands go through
these lemmas and unfold only the command's own body. -/

set_option Elab.async false

namespace Sys2Proof.Machine

open Sys2Proof

/-- An accepted command leaves the state of its body, its response given. -/
theorem serve_ok {op : Nat} {q : Req} {s t : State} {res : List Byte} {cmd : Req → State → Res} {peers : List PeerAnswer} (h : Serves op q s)
    (hb : cmd q (taken q s) = .ok (t, res)) : serve op cmd q s peers = .next (answered op 0 q res t) := by
  obtain ⟨h1, h2, h3, h4, h5⟩ := h
  have hb' : cmd q (takeUp q s.fresh) = .ok (t, res) := hb
  have h5' : mirrored op q (takeUp q s.fresh) = false := h5
  simp only [serve, serveAns, checked, h1, if_true, done]
  have e1 : s.fresh.pwr.bootState = .firmware := h2
  have e2 : s.fresh.heard q.port = true := h3
  rw [e1]
  simp only [e2, if_true, run, h4, hb', h5', Except.map, Bool.false_and, Bool.false_eq_true, if_false, settle, answered]

/-- An accepted command whose response waits. -/
theorem serveAns_ok {op : Nat} {q : Req} {s : State} {a : Ans} {cmd : Req → State → Except Err Ans} {peers : List PeerAnswer} (h : Serves op q s)
    (hb : cmd q (taken q s) = .ok a) : serveAns op cmd q s peers = .next (dequeue op q (settle op q a s.fresh)) := by
  obtain ⟨h1, h2, h3, h4, h5⟩ := h
  have hb' : cmd q (takeUp q s.fresh) = .ok a := hb
  have h5' : mirrored op q (takeUp q s.fresh) = false := h5
  simp only [serveAns, checked, h1, if_true, done]
  have e1 : s.fresh.pwr.bootState = .firmware := h2
  have e2 : s.fresh.heard q.port = true := h3
  rw [e1]
  simp only [e2, if_true, run, h4, hb', h5', Bool.false_and, Bool.false_eq_true, if_false]

/-- A command its own checks refuse. -/
theorem serve_err {op : Nat} {q : Req} {s : State} {e : Err} {cmd : Req → State → Res} {peers : List PeerAnswer} (h : Serves op q s)
    (hb : cmd q (taken q s) = .error e) : serve op cmd q s peers = .next (dequeue op q (refuse op q e (taken q s))) := by
  obtain ⟨h1, h2, h3, h4, h5⟩ := h
  have hb' : cmd q (takeUp q s.fresh) = .error e := hb
  simp only [serve, serveAns, checked, h1, if_true, done]
  have e1 : s.fresh.pwr.bootState = .firmware := h2
  have e2 : s.fresh.heard q.port = true := h3
  rw [e1]
  simp only [e2, if_true, run, h4, hb', Except.map, taken]

/-- Taking a request up changes its mailbox alone. -/
theorem taken_eq (q : Req) (s : State) : ∃ mb, taken q s = { s.fresh with ctl := { s.ctl with mb := mb } } := by
  unfold taken takeUp State.setMb State.onCtl
  cases q.port <;> exact ⟨_, rfl⟩

@[simp] theorem taken_time (q : Req) (s : State) : (taken q s).time = s.time := by obtain ⟨mb, h⟩ := taken_eq q s; rw [h]; rfl
@[simp] theorem taken_pwr (q : Req) (s : State) : (taken q s).pwr = s.pwr := by obtain ⟨mb, h⟩ := taken_eq q s; rw [h]; rfl
@[simp] theorem taken_flt (q : Req) (s : State) : (taken q s).flt = s.flt := by obtain ⟨mb, h⟩ := taken_eq q s; rw [h]; rfl
@[simp] theorem taken_rec_ (q : Req) (s : State) : (taken q s).rec_ = s.rec_ := by obtain ⟨mb, h⟩ := taken_eq q s; rw [h]; rfl
@[simp] theorem taken_mem (q : Req) (s : State) : (taken q s).mem = s.mem := by obtain ⟨mb, h⟩ := taken_eq q s; rw [h]; rfl
@[simp] theorem taken_bud (q : Req) (s : State) : (taken q s).bud = s.bud := by obtain ⟨mb, h⟩ := taken_eq q s; rw [h]; rfl
@[simp] theorem taken_rte (q : Req) (s : State) : (taken q s).rte = s.rte := by obtain ⟨mb, h⟩ := taken_eq q s; rw [h]; rfl
@[simp] theorem taken_sdi (q : Req) (s : State) : (taken q s).sdi = s.sdi := by obtain ⟨mb, h⟩ := taken_eq q s; rw [h]; rfl
@[simp] theorem taken_eth (q : Req) (s : State) : (taken q s).eth = s.eth := by obtain ⟨mb, h⟩ := taken_eq q s; rw [h]; rfl
@[simp] theorem taken_flo (q : Req) (s : State) : (taken q s).flo = s.flo := by obtain ⟨mb, h⟩ := taken_eq q s; rw [h]; rfl
@[simp] theorem taken_cmp (q : Req) (s : State) : (taken q s).cmp = s.cmp := by obtain ⟨mb, h⟩ := taken_eq q s; rw [h]; rfl
@[simp] theorem taken_cal (q : Req) (s : State) : (taken q s).cal = s.cal := by obtain ⟨mb, h⟩ := taken_eq q s; rw [h]; rfl
@[simp] theorem taken_ref (q : Req) (s : State) : (taken q s).ref = s.ref := by obtain ⟨mb, h⟩ := taken_eq q s; rw [h]; rfl
@[simp] theorem taken_ptp (q : Req) (s : State) : (taken q s).ptp = s.ptp := by obtain ⟨mb, h⟩ := taken_eq q s; rw [h]; rfl
@[simp] theorem taken_trp (q : Req) (s : State) : (taken q s).trp = s.trp := by obtain ⟨mb, h⟩ := taken_eq q s; rw [h]; rfl
@[simp] theorem taken_twin (q : Req) (s : State) : (taken q s).twin = s.twin := by obtain ⟨mb, h⟩ := taken_eq q s; rw [h]; rfl
@[simp] theorem taken_upd (q : Req) (s : State) : (taken q s).upd = s.upd := by obtain ⟨mb, h⟩ := taken_eq q s; rw [h]; rfl
@[simp] theorem taken_tst (q : Req) (s : State) : (taken q s).tst = s.tst := by obtain ⟨mb, h⟩ := taken_eq q s; rw [h]; rfl
@[simp] theorem taken_free (q : Req) (s : State) : (taken q s).free = s.free := by obtain ⟨mb, h⟩ := taken_eq q s; rw [h]; rfl
@[simp] theorem taken_pending (q : Req) (s : State) : (taken q s).pending = s.pending := by obtain ⟨mb, h⟩ := taken_eq q s; rw [h]; rfl
@[simp] theorem taken_ctl_priv (q : Req) (s : State) : (taken q s).ctl.priv = s.ctl.priv := by obtain ⟨mb, h⟩ := taken_eq q s; rw [h]
@[simp] theorem taken_ctl_doneMap (q : Req) (s : State) : (taken q s).ctl.doneMap = s.ctl.doneMap := by obtain ⟨mb, h⟩ := taken_eq q s; rw [h]
@[simp] theorem taken_ctl_irqEn (q : Req) (s : State) : (taken q s).ctl.irqEn = s.ctl.irqEn := by obtain ⟨mb, h⟩ := taken_eq q s; rw [h]
@[simp] theorem taken_ctl_irqCfg (q : Req) (s : State) : (taken q s).ctl.irqCfg = s.ctl.irqCfg := by obtain ⟨mb, h⟩ := taken_eq q s; rw [h]
@[simp] theorem taken_ctl_p2 (q : Req) (s : State) : (taken q s).ctl.p2 = s.ctl.p2 := by obtain ⟨mb, h⟩ := taken_eq q s; rw [h]
@[simp] theorem taken_ctl_p3 (q : Req) (s : State) : (taken q s).ctl.p3 = s.ctl.p3 := by obtain ⟨mb, h⟩ := taken_eq q s; rw [h]
@[simp] theorem taken_ctl_p4 (q : Req) (s : State) : (taken q s).ctl.p4 = s.ctl.p4 := by obtain ⟨mb, h⟩ := taken_eq q s; rw [h]
@[simp] theorem taken_ctl_midway (q : Req) (s : State) : (taken q s).ctl.midway = s.ctl.midway := by obtain ⟨mb, h⟩ := taken_eq q s; rw [h]
@[simp] theorem taken_ctl_msix (q : Req) (s : State) : (taken q s).ctl.msix = s.ctl.msix := by obtain ⟨mb, h⟩ := taken_eq q s; rw [h]
@[simp] theorem taken_ctl_pba (q : Req) (s : State) : (taken q s).ctl.pba = s.ctl.pba := by obtain ⟨mb, h⟩ := taken_eq q s; rw [h]
@[simp] theorem taken_ctl_sessions (q : Req) (s : State) : (taken q s).ctl.sessions = s.ctl.sessions := by obtain ⟨mb, h⟩ := taken_eq q s; rw [h]
@[simp] theorem taken_ctl_jobs (q : Req) (s : State) : (taken q s).ctl.jobs = s.ctl.jobs := by obtain ⟨mb, h⟩ := taken_eq q s; rw [h]
@[simp] theorem taken_ctl_hq (q : Req) (s : State) : (taken q s).ctl.hq = s.ctl.hq := by obtain ⟨mb, h⟩ := taken_eq q s; rw [h]
@[simp] theorem taken_ctl_captures (q : Req) (s : State) : (taken q s).ctl.captures = s.ctl.captures := by obtain ⟨mb, h⟩ := taken_eq q s; rw [h]
@[simp] theorem taken_ctl_sb (q : Req) (s : State) : (taken q s).ctl.sb = s.ctl.sb := by obtain ⟨mb, h⟩ := taken_eq q s; rw [h]
@[simp] theorem taken_ctl_enumerated (q : Req) (s : State) : (taken q s).ctl.enumerated = s.ctl.enumerated := by obtain ⟨mb, h⟩ := taken_eq q s; rw [h]
@[simp] theorem taken_ctl_stamp (q : Req) (s : State) : (taken q s).ctl.stamp = s.ctl.stamp := by obtain ⟨mb, h⟩ := taken_eq q s; rw [h]
@[simp] theorem taken_ctl_jtagIr (q : Req) (s : State) : (taken q s).ctl.jtagIr = s.ctl.jtagIr := by obtain ⟨mb, h⟩ := taken_eq q s; rw [h]
@[simp] theorem taken_ctl_jtagData (q : Req) (s : State) : (taken q s).ctl.jtagData = s.ctl.jtagData := by obtain ⟨mb, h⟩ := taken_eq q s; rw [h]

@[simp] theorem need_true (st : Nat) : need true st = .ok () := rfl
@[simp] theorem needAt_true (off st : Nat) : needAt true off st = .ok () := rfl
@[simp] theorem layout_ok {q : Req} {n : Nat} (h : Req.trailingOk q n = true) : Req.layout q n = .ok () := by
  unfold Req.layout; rw [h]; rfl
@[simp] theorem ok_bind {α β : Type} (a : α) (f : α → Except Err β) : (Except.ok a >>= f) = f a := rfl
@[simp] theorem ok_do {α β : Type} (a : α) (f : α → Except Err β) : (do let x ← (Except.ok a : Except Err α); f x) = f a := rfl

/-- Two checks refuse no field exactly when neither does. -/
@[simp] theorem firstBad_eq_none {a b : Option Nat} : firstBad a b = none ↔ a = none ∧ b = none := by
  cases a <;> cases b <;> simp [firstBad]

/-- RING_CREATE and RING_MODIFY pass step 2 of R53 exactly where no field is out of range. -/
theorem ringRanges_ok {base : Nat} {at_ : Option Nat} {d : BitVec 256} {decl : Nat × Nat} :
    ringRanges base at_ d decl = .ok () ↔ ringRangesBad base at_ d decl = [] := by
  unfold ringRanges
  split <;> simp_all [errAt]

/-- A record write that every check lets through. -/
theorem writeRecord_ok {n : Nat} {q : Req} {layout : List Fld} {old : BitVec n} {fixed : List Fld} (h : recordOk q layout old fixed) :
    writeRecord q layout old fixed = .ok (recordOf q layout old) := by
  obtain ⟨h1, h2, h3⟩ := h
  unfold writeRecord writeRecordX recordOf
  rw [layout_ok h1]
  simp [firstBad, h2, h3]

/-! ### What a passed check says -/

theorem need_bind {β : Type} {c : Bool} {st : Nat} {f : Unit → Except Err β} {x : β} :
    (need c st >>= f) = .ok x ↔ c = true ∧ f () = .ok x := by
  cases c <;> simp [need, err, Bind.bind, Except.bind]

theorem needAt_bind {β : Type} {c : Bool} {off st : Nat} {f : Unit → Except Err β} {x : β} :
    (needAt c off st >>= f) = .ok x ↔ c = true ∧ f () = .ok x := by
  cases c <;> simp [needAt, errAt, Bind.bind, Except.bind]

theorem layout_bind {β : Type} {q : Req} {n : Nat} {f : Unit → Except Err β} {x : β} :
    (Req.layout q n >>= f) = .ok x ↔ Req.trailingOk q n = true ∧ f () = .ok x := by
  unfold Req.layout; exact needAt_bind

theorem noTarget_bind {β : Type} {q : Req} {f : Unit → Except Err β} {x : β} :
    (Req.noTarget q >>= f) = .ok x ↔ Req.u64 q 4 = 0 ∧ f () = .ok x := by
  unfold Req.noTarget; rw [needAt_bind]; simp

theorem index_bind {β : Type} {q : Req} {n : Nat} {f : Nat → Except Err β} {x : β} :
    (Req.index q n >>= f) = .ok x ↔ Req.u32 q 0 < n ∧ f (Req.u32 q 0) = .ok x := by
  unfold Req.index
  split
  · next h => simp [h, Bind.bind, Except.bind]
  · next h => simp [h, errAt, Bind.bind, Except.bind]

theorem readArgs_ok {q : Req} {n : Nat} (h1 : Req.u32 q 0 < n) (h2 : Req.trailingOk q 8 = true) (h3 : Req.u32 q 4 < 2) :
    readArgs q n = .ok (Req.u32 q 0, Req.u32 q 4 == 1) := by
  simp [readArgs, Req.index, h1, Req.readClear, layout_ok h2, h3] <;> rfl

theorem ok_bind_iff {α β : Type} {m : Except Err α} {f : α → Except Err β} {x : β} :
    (m >>= f) = .ok x ↔ ∃ a, m = .ok a ∧ f a = .ok x := by
  cases m <;> simp [Bind.bind, Except.bind]

theorem pure_eq_ok {β : Type} {a x : β} : (pure a : Except Err β) = .ok x ↔ a = x := by
  simp [pure, Except.pure]

end Sys2Proof.Machine
end

