-- ==== Sys2Proof/Tests/Slice0.lean ====
section
/-! SUPPORT. Tests: small states the tests start from, commands that no port has, values computed by hand from the spec, and for every
statement with hypotheses a state and operands that meet all of them, clause by clause (`test_witness_<statement>`, part n of the list being
the n-th clause that has hypotheses). -/

set_option Elab.async false

open Sys2Proof Sys2Proof.Machine

set_option linter.unusedVariables false

namespace Sys2Proof.Tests

/-! ### States the tests start from -/

/-- The device with its firmware up, in STAGING, after reset. -/
def up : State := { State.reset with pwr := { PwrSt.reset with bootState := .firmware } }
def pw (f : PwrSt → PwrSt) : State := up.onPwr f
def active : State := pw fun p => { p with power := .active }
def watch : State := pw fun p => { p with power := .watch }
def backup : State := pw fun p => { p with power := .backup }

/-- A request of parameter bytes `b` on port `p`, from sender 0. -/
def req (p : Port) (b : List Byte) : Req := ⟨p, 0, 0, BitVec.ofNat 16 b.length, 1, 0, 0, 0, b, 0⟩

/-- `Serves` as a computation. -/
def servesB (op : Nat) (q : Req) (s : State) : Bool :=
  q.wf && decide (s.pwr.bootState = .firmware) && s.heard q.port && (gate op q s.fresh).isOk && !mirrored op q (taken q s)
/-- Trim loading: before release step 1 is over. -/
def loading : State := pw fun p => { p with bootState := .stopped, trimA := none, rstCtl := fput (fput p.rstCtl RstCtl.releaseStep 0) RstCtl.trimDone 0 }
/-- Release step `n` reached. -/
def releasing (n : Nat) : State := pw fun p => { p with bootState := .stopped, rstCtl := fput p.rstCtl RstCtl.releaseStep n }
/-- Block `b` held in reset. -/
def held (b : Nat) : State := pw fun p => { p with rstCtl := fput p.rstCtl RstCtl.blkBusy (2 ^ b) }
/-- One event waiting for the recorder. -/
def queued : State := up.onFlt fun f => { f with queue := [⟨Ev.plain 0x0A locAon, false, false, false, 0, 0xFF, 0xFF⟩] }
/-- A job of kind `k` answered on port `p`. -/
def job (k : JobKind) (p : Port) : Job := ⟨k, 0x1004, req p [], 0, 0, 0, []⟩
/-- Link 0 up under boot from member 0. -/
def bootRun : State := { State.reset with trp := { TrpSt.reset with linkSt := [(0, { linkStReset 0 with phase := .run })] } }
/-- Every channel of a full card trained. -/
def trained : State := { up with mem := { MemSt.reset with chans := (List.range 16).map fun n => (n, ⟨true, false, 0, 0, 0, 0⟩) } }
/-- Ring 0 in use: 16 tiles from tile 0, of which `n` are written. -/
def ringRec (n : Nat) : BitVec 256 :=
  fput (fput (fput (fput (fput (ringReset 0) RingDesc.classF 1) RingDesc.stateF 2) RingDesc.typeF 1) RingDesc.length 16) RingDesc.wseq n
def onering : State := { up with mem := { MemSt.reset with rings := [(0, ringRec 1)] } }
/-- The same with tile 0 of zeros and its check record stored. -/
def stored : State :=
  onering.onMem fun m => { m with tiles := memWrite (fun _ => 0) m.tiles (checkBase false) (leBytes 4 0x81BF8868 ++ leBytes 4 0) }
/-- A record with the given fields. -/
def put {n : Nat} (r : BitVec n) (l : List (Fld × Nat)) : BitVec n := l.foldl (fun r e => fput r e.1 e.2) r
/-- Output 5 of the packet outputs: 1080p on plane 0, which runs. -/
def pktOut : BitVec 128 := put 0 [(PktOut.outWidth, 1920), (PktOut.outLines, 1080)]
def fmted : State :=
  { up with flo := { FloSt.reset with pktOut := [(5, pktOut)] }
            ref := { RefSt.reset with plane := [(0, put (planeReset 0) [(Plane.planeEn, 1)])] } }
def pend (e : BitVec 256) : State := fmted.onRte fun r => { r with pending := [(5, e)] }
def act (e : BitVec 256) : State := fmted.onRte fun r => { r with active := [(5, e)] }
def ready : BitVec 256 := put (entryReset 0) [(RouteEntry.pendState, 2)]
def frameSync : BitVec 256 := put (entryReset 0) [(RouteEntry.videoEn, 1), (RouteEntry.mode, 1)]
/-- Ring 0 as a progressive 1080-line video ring with one complete frame. -/
def framed : State :=
  (act frameSync).onMem fun m => { m with
    rings := [(0, put (ringRec 1) [(RingDesc.width, 1920), (RingDesc.lines, 1080)])], markers := [(0, [⟨0, 16, 0, .complete, 0⟩])] }
/-- Salvo 63 with an entry of member 1 being taken, for a command on P1. -/
def taking (acks : Nat) : State :=
  { up with ctl := { CtlSt.reset with jobs := [job (.takeAcks 63) .p1] }
            rte := { RteSt.reset with salvos := [(63, { salvoReset 0 with entries := [⟨1, 0, 0⟩], acks := acks })] } }
/-- SDI lane 143 receiving, in a lock state. -/
def rx (v : LaneSt) : State :=
  { up with sdi := { SdiSt.reset with cfg := [(143, put (sdiReset 0) [(SdiLane.rxEn, 1), (SdiLane.rxAudEn1, 1), (SdiLane.txEn, 1)])], lanes := [(143, v)] } }
def lane (k : Lock) : LaneSt := { laneReset 0 with lock := k, present := true }
def raster : VFmt := ⟨1920, 1080, false, 3, 1, false⟩
def line1 : LineInfo := ⟨true, 1, true, false, false, [], [], [], none⟩
def frame1 : FrameInfo := ⟨raster, 2, none, false, 0, true⟩
/-- Sub-port 31 with a running state. -/
def sub (v : SubSt) : State := { up with eth := { EthSt.reset with sub := [(31, v)] } }
def subUp : SubSt := { subReset 0 with link := .up }
/-- A flow at way 0, row 0. -/
def flow : Flow := ⟨put 0 [(FlowEntry.declRate, 1)], .way 0 0, true, 0, 0, 0, 0, 0, 2, none, false⟩
def flowing (f : Flow) : State := { up with flo := { FloSt.reset with table := [f] }, time := { TimeSt.reset with base := 0 } }
/-- Packetiser flow 4095 sends output 5's video, which is being emitted. -/
def packets : State :=
  (fmted.onRte fun r => { r with outs := [(5, { outReset 0 with running := true })] }).onFlo fun f =>
    { f with pkt := [(4095, put (pktReset 0) [(PktFlow.output, 5), (PktFlow.flowEn, 1)])] }
def waiter : Waiting := ⟨0, 1, 0x0100, 0, 0⟩
/-- The service bus enabled. -/
def service : State := up.onCtl fun c => { c with sb := put 0 [(SbRec.sbEn, 1)] }
def p3on : State := up.onCtl fun c => { c with priv := tset privReset c.priv 3 0x200000002 }
/-- Calliope's tap 3 of slot 1023 and the legs of merge pair 1023 hold credit. -/
def readers : State :=
  { up with cal := { CalSt.reset with run := true, audIn := [(1023, put 0 [(AudIn.inEn, 1)])] }
            flo := { FloSt.reset with merge := [(1023, put (mergeReset 0) [(Merge.mergeEn, 1)])] }
            bud := { BudSt.reset with holds := [⟨3, 0, .calRead 1023 3, .audIn 1023 3, 16, 16⟩, ⟨1, 0, .merge 1023 1, .merge 1023, 16, 16⟩] } }
/-- Ring 8191 with a tile waiting and a turn's credit. -/
def writing : State :=
  { up with mem := { MemSt.reset with rings := [(8191, put (ringReset 8191) [(RingDesc.stateF, 1), (RingDesc.length, 16)])]
                                      wr := [(8191, { wrReset 0 with staged := [⟨0, [], 0, true, false, 0, 0, false⟩] })] }
            bud := { BudSt.reset with holds := [⟨1, 0, .write 8191, .ring 8191, 16, 16⟩] } }
def plane0 : Tab (BitVec 128) := [(0, put (planeReset 0) [(Plane.planeEn, 1)])]
/-- A depacketised audio ring with a tile whose time is over. -/
def audioRing : State :=
  { up with flo := { FloSt.reset with dep := [(8191, { depReset 0 with next := some 0, samples := [(0, [1])] })] }
            time := { TimeSt.reset with clk := 3000000 } }
/-- Merge pair 1023, deciding. -/
def merging : State := readers.onFlo fun f => { f with mergeSt := [(1023, { mergeStReset 0 with unit := some 4 })] }
/-- Conversion 63 (Composer 15) enabled on a running plane. -/
def converting : State :=
  { up with cmp := { CmpSt.reset with out := [(63, put (compOutReset 0) [(CompOut.compEn, 1)])] }, ref := { RefSt.reset with plane := plane0 } }
def calOn : State := { up with cal := { CalSt.reset with ctl := put 0 [(Cal.calEn, 1)] }, ref := { RefSt.reset with plane := plane0 } }
def refE (e : RefSt → RefSt) : State := { up with ref := e RefSt.reset }
def loop (n sel : Nat) : BitVec 256 := put (resetRec 256 RefEng.layout) [(RefEng.loopState, n), (RefEng.selected, sel)]
/-- Candidate 5 enabled, active, in Q_STATE `n`, with 9 good seconds. -/
def cand5 (n sel st : Nat) (v : CandSt) : State :=
  refE fun e => { e with cand := [(5, put (candReset 5) [(Cand.candEn, 1), (Cand.qState, n), (Cand.rank, 0)])], candSt := [(5, v)], eng := loop st sel }
def meas (m : Measure) : List Measure := List.replicate 6 m
/-- PTP instance 3 enabled on sub-port 0, which is up; its state and running state given. -/
def hears (st mech : Nat) (v : InstSt) : State :=
  { up with eth := { EthSt.reset with sub := [(0, { subReset 0 with link := .up })] }
            ptp := { PtpSt.reset with
              inst := [(3, put (instReset 3) [(Inst.instEn, 1), (Inst.instState, st), (Inst.delayMech, mech)])], instSt := [(3, v)]
              servo := put PtpSt.reset.servo [(Servo.ptpSel, 3)], using_ := 3 } }
def inst0 : InstSt := instStReset 0
def parent1 : Parent := ⟨1, 1, 5, 0, 0, 0, true⟩
def delay1 : DelayRun := ⟨1, 0, 0, 0, 0, true, false⟩
def sync0 : SyncMsg := ⟨1, true, 0, 0, -1, false⟩
def ann0 : AnnounceMsg := ⟨2, 2, 5, 0, 0, true, 37, true⟩
/-- Link 6 (to member 7) on lanes 40 and 41, with a running state. -/
def link6 (v : LinkSt) : State :=
  up.onTrp fun t => { t with rec_ := put 0 [(TroupeRec.troupeEn, 1)]
                             link := [(6, put (linkReset 6) [(Link.linkEn, 1), (Link.peer, 7), (Link.lanes, 3 * 2 ^ 40), (Link.spares, 2 ^ 47), (Link.linkState, 2)])]
                             linkSt := [(6, v)], lane := [(40, put (laneRecReset 40) [(LaneRec.laneState, 1)])] }
def linkV (p : BringUp) : LinkSt := { linkStReset 6 with phase := p, order := [40, 41], active := [40, 41] }
def cap7 (m : Fin 8) : CapCell := ⟨m, 0, 3, 2, false, 0, 0⟩
def imp (v : ImpSt) : State := up.onTrp fun t => { t with imp := [(4095, put 0 [(Import.impEn, 1)])], impSt := [(4095, v)] }
/-- A twin in a role, with more of its record set. -/
def twin (role : Nat) (l : List (Fld × Nat)) (f : TwinSt → TwinSt) : State :=
  { up with twin := f { TwinSt.reset with rec_ := put TwinSt.reset.rec_ ([(Twin.twinEn, 1), (Twin.role, role)] ++ l) } }
def mirror0 : Mirror := ⟨1, 0x0400, req .p0 [], 0, false, false, []⟩
def beat (b : List Byte) : List Byte := b ++ leBytes 4 (crc32c b)
/-- Link 6's peer boots from this device's one-byte image. -/
def imaged : State := (link6 { linkV .run with boot := true }).onUpd fun u => { u with imageA := [1], table0 := fput u.table0 SlotTab.sizeA 1 }
/-- A record write on P0: index, no TARGET, the record's bytes. -/
def wr (i : Nat) (b : List Byte) : Req := req .p0 (leBytes 4 i ++ leBytes 8 0 ++ b)
/-- The same with TARGET `t`. -/
def wrAt (i t : Nat) (b : List Byte) : Req := req .p0 (leBytes 4 i ++ leBytes 8 t ++ b)
/-- A read on P0: index and no CLEAR. -/
def rd (i : Nat) : Req := req .p0 (leBytes 4 i ++ leBytes 4 0)
/-- A data ring of host class for packets, ring 8191, with 1,024 tiles a second declared. -/
def dataRec : BitVec 256 :=
  put (ringReset 8191) [(RingDesc.typeF, 3), (RingDesc.classF, 3), (RingDesc.stateF, 1), (RingDesc.length, 32)]
def dataRing : State := up.onMem fun m => { m with rings := [(8191, dataRec)], decl := [(8191, (16, 16))] }
def entry0 : BitVec 384 := put 0 [(FlowEntry.dstAddr, 0xEF000001), (FlowEntry.dstPort, 5000), (FlowEntry.typeF, 1), (FlowEntry.usePort, 1)]
/-- Flow `entry0` in the table. -/
def flowed : State := flowing { flow with key := entry0 }
/-- Host queue 15 bound to ring 8191 for insertion. -/
def inserting : State := dataRing.onCtl fun c => { c with hq := [(15, { Hq.idle 15 with en := true, insert := true, ring := 8191 })] }
def capturing : State := dataRing.onCtl fun c => { c with hq := [(15, { Hq.idle 15 with en := true, ring := 8191 })] }
/-- A video ring for insertion, whose frame a fragment of START and END does not fill. -/
def insertVideo : State :=
  (up.onMem fun m => { m with rings := [(8191, put (ringReset 8191) [(RingDesc.classF, 3), (RingDesc.stateF, 1), (RingDesc.length, 4096),
      (RingDesc.width, 720), (RingDesc.lines, 486)])], decl := [(8191, (4096, 0))] }).onCtl fun c =>
    { c with hq := [(15, { Hq.idle 15 with en := true, insert := true, ring := 8191 })] }
/-- One entry of a salvo or preset: member 0, output 5, an entry with nothing enabled. -/
def entry5 : List Byte := [0, 0, 5, 0] ++ recBytes (put (entryReset 0) [])
def salvoed (st : SalvoState) (m : Nat) : State :=
  fmted.onRte fun r => { r with salvos := [(63, { salvoReset 0 with state := st, entries := [⟨m, 5, entryReset 0⟩] })] }
/-- The same in a Troupe of members 0 and 7, whose link is up. -/
def trouped (st : SalvoState) (m : Nat) : State :=
  { salvoed st m with trp := (link6 (linkV .run)).trp }
def preset0 (crc : Nat) : State :=
  up.onRte fun r => { r with presets := [(255, [0, 0, 0, 0, 0, 0, 1, 0] ++ leBytes 4 crc ++ [0, 0, 0, 0] ++ entry5)] }
/-- A LUT load of 128 KiB less its last chunk. -/
def loadChunk (bank len last : Nat) : Req := req .p0 ([1, BitVec.ofNat 8 bank, 0, 0] ++ leBytes 4 15 ++ leBytes 4 0 ++ leBytes 2 len ++ leBytes 1 last ++ [0] ++ fitBytes len [])
def peer (m : Fin 8) (b : List Byte) : PeerAnswer := ⟨m, 0, b⟩
/-- Members 0 (this device) and 7 with ring 0 in use here. -/
def importing : State := { link6 (linkV .run) with mem := onering.mem } |>.onTrp fun t => { t with rec_ := put t.rec_ [(TroupeRec.members, 0x81)] }
def importArg (from_ to_ : Nat) : Req := req .p0 (leBytes 1 from_ ++ leBytes 1 to_ ++ [0, 0] ++ leBytes 2 0 ++ leBytes 2 0)
def chunked (n w : Nat) : State := up.onUpd fun u => { u with write := some ⟨1, n, w⟩ }
def layer0 : BitVec 256 := put (layerRecReset 0) [(Layer.layerW, 16), (Layer.layerH, 8192)]
/-- A load of table 1 open up to its last two bytes, its first word with the upper half `v`. -/
def loadOpen (v : Nat) : State :=
  up.onCmp fun c => { c with loads := [⟨1, 1, 15, fitBytes (bankSize 1 - 2) (leBytes 4 (v * 65536))⟩] }
def loadLast : Req := req .p0 ([1, 1, 0, 0] ++ leBytes 4 15 ++ leBytes 4 (bankSize 1 - 2) ++ leBytes 2 2 ++ [1, 0] ++ [0, 0])

def exporting : State := importing.onTrp fun t => { t with exp := [(0, put 0 [(Export.srcRing, 0), (Export.expEn, 1), (Export.toF, 7), (Export.destRing, 0)])] }
def safe : State := up.onFlt fun f => { f with ctl := fput f.ctl FaultCtl.safetyNet 1 }
/-- A request of P1 forwarded here, received at 0, dequeued more than 60 s later. -/
def late : State := { up.onCtl (fun c => { c with stamp := some 0 }) with time := { TimeSt.reset with base := 0, clk := 60000000001 } }
/-- Link 6 at 112.5 Gbit/s. -/
def fastLink : State := importing.onTrp fun t => { t with link := tmap linkReset (fun _ l => put l [(Link.actLanes, 2)]) t.link }
/-- The maintenance window open. -/
def window : State := up.onCtl fun c => { c with midway := fput c.midway Midway.maint 1 }
/-- Rings 8190 and 8191 with a tile waiting each, of the same class and channel; that of 8190 has waited longer. -/
def twoWriters : State :=
  (writing.onBud fun b => { b with holds := ⟨1, 0, .write 8190, .ring 8190, 16, 16⟩ :: b.holds }).onMem fun m => { m with
    rings := [(8190, put (ringReset 8190) [(RingDesc.stateF, 1), (RingDesc.length, 16)])] ++ m.rings
    wr := [(8190, { wrReset 0 with staged := [⟨0, [], 0, true, false, 0, 0, false⟩] }),
      (8191, { wrReset 0 with staged := [⟨0, [], 0, true, false, 0, 5, false⟩] })] }
/-- Lanes 140 to 143 bonded, the leader locked and lane 141 measured. -/
def bonded : State :=
  { up with sdi := { SdiSt.reset with cfg := [(140, put (sdiReset 0) [(SdiLane.rxEn, 1), (SdiLane.rxBond, 1)])]
                                      lanes := [(140, lane .formatLocked), (141, lane .cdrLocked)] } }
/-- Best-effort slots are left whatever the margin's own traffic takes. -/
def roomAnyway (s : State) (tiles : List Nat) : Bool :=
  (List.range 16).all (fun ch => (tiles.filter (fun i => tileChannel s.pwr.reduced i == ch)).length ≤
    channelSlots s.bud.profile - 28 - slotsTaken s.bud ch 0 - (([1, 2, 3, 4, 5].map (fun c => slotsTaken s.bud ch c + slotsClaimed s.bud ch c)).sum))

theorem bestRoom_of_roomAnyway (s : State) (tiles : List Nat) (h : roomAnyway s tiles = true) : s.bestRoom tiles = true := by
  simp only [roomAnyway, State.bestRoom, List.all_eq_true, decide_eq_true_eq] at h ⊢
  intro ch m
  refine Nat.le_trans (h ch m) ?_
  unfold bestSlots
  omega

/-! ### Commands no port has are stopped by name -/

theorem test_illformed_mailbox : Instr.wf (.planeWrite { req .p0 [] with chan := 64 }) = false := by decide
theorem test_illformed_link : Instr.wf (.planeWrite { req .p1 [] with chan := 7 }) = false := by decide
theorem test_illformed_forwarded : Instr.wf (.forwardedCommand 0x0400 { req .p0 [] with chan := 7 }) = false := by decide
theorem test_illformed_core_monitor : monitorOk 0 4 = false := by decide
theorem test_illformed_other_monitor : monitorOk 1 0 = false := by decide
theorem test_wellformed_last_mailbox : Instr.wf (.planeWrite { req .p0 [] with chan := 63 }) = true := by decide
theorem test_illformed_is_stopped (s : State) : exec (.planeWrite { req .p0 [] with chan := 64 }) s = .fault .illFormed := rfl
theorem test_no_word_spells_a_command : decodeTableWord 32 0 = none := by decide

/-! ### The spec's worked examples -/

/-- 01, R27's example: channel 9 is engine 1 of cluster 11 in Q2. -/
theorem test_location_of_channel_9 : locChannel 9 = 0x560400 := by decide
/-- 02, worked example: ring 37 of 3,808 tiles from 0x01_2340; ESEQ 7,713 lies in tile 0x01_23A1, on channel 1. -/
theorem test_ring_37_tile :
    ringTile (put (ringReset 37) [(RingDesc.base, 0x12340), (RingDesc.length, 3808)]) 7713 = 0x123A1 ∧
    ringTile (put (ringReset 37) [(RingDesc.base, 0x12340), (RingDesc.length, 3808)]) 6447 = 0x12D8F ∧
    tileChannel false 0x123A1 = 1 ∧ tileChannel false 0x12D8F = 15 := by decide +kernel
/-- 02, worked example: its check record and tag. -/
theorem test_ring_37_check_record : checkBase false + 8 * 0x123A1 = 0xFF8091D08 ∧ mkTag 37 false 7713 0x300 = 0x012A1300 := by decide
/-- 02, worked example: its row is 0x123A, at byte 0x123A000 of the device. -/
theorem test_ring_37_row : tileRow false 0x123A1 = 4666 ∧ tileDeviceByte false 0x123A1 = 0x123A000 := by decide
/-- 02: three frames of 1,266 tiles make LENGTH 3,808; 08: three of 5,063 make 15,200. -/
theorem test_frame_tiles : videoTpf 1 1920 1080 0 false = 1266 ∧ videoTpf 1 3840 2160 0 false = 5063 := by decide
/-- 03, worked admissions: 1080p needs 21 credits, 2160p 83, audio 1 (R79). -/
theorem test_credits : credits .balanced (1266 * 60000 * 1125) (1001 * 1080) = 21 ∧
    credits .balanced (5063 * 60000 * 2250) (1001 * 2160) = 83 ∧ credits .balanced 1000 1 = 1 := by decide
/-- 03: a class of BALANCED has 32,768 credits; MATRIX gives processing 8,192, ingress 40,960 and egress 49,152. -/
theorem test_class_limits : (List.range 4).tail.map (classLimit .balanced false) = [32768, 32768, 32768] ∧
    classLimit .matrix false 3 = 8192 ∧ classLimit .matrix false 1 = 40960 ∧ classLimit .matrix false 2 = 49152 := by decide
/-- 01 and 03: 1080p at 60/1.001 takes K = 4 lines in BALANCED, 5 over one hop, 4 over one hop in TIGHTROPE. -/
theorem test_whole_lines : kLines .balanced 0 6 1125 = 4 ∧ kLines .balanced 1 6 1125 = 5 ∧ kLines .tightrope 1 6 1125 = 4 := by decide
/-- 04: S for 2160p at 60/1.001 is 74 ns in BALANCED and 1,244 ns in TIGHTROPE. -/
theorem test_slack : slackTu .balanced 0 6 2250 / tuPerNs = 74 ∧ slackTu .tightrope 0 6 2250 / tuPerNs = 1244 := by decide
/-- 06: 65,535 quanta at 400 Gbit/s hold for 83.885 µs. -/
theorem test_quanta : (up.onEth fun e => { e with port := [(2, put (ethReset 0) [(EthPort.split, 1)])] }).quantaNs 16 65535 = 83885 := by
  decide +kernel
/-- 09: 10 ms of attack at 48 kHz has the coefficient 0.997919; 6 dB over a 4 : 1 threshold gives -4.5 dB, 1 dB within the knee -1.0 dB. -/
def dyn12 : BitVec 256 := put 0 [(Dyn.thresh, 65536 - 200), (Dyn.ratio, 40), (Dyn.knee, 60), (Dyn.attack, 100), (Dyn.release, 200)]
theorem test_dynamics : (fxRound (1000000 * poleCoeff 100 10000 48000) = 997919) ∧ staticGain dyn12 (some (-14 * fx)) = -9 * fx / 2 ∧
    staticGain dyn12 (some (-19 * fx)) = -(fx : Int) := by decide +kernel
/-- R259: the coefficient of 0 dB is 2^24, off is 0, and -6 dB is round(2^24 × 10^-0.3). -/
theorem test_gain : gainCoeff 0 = 2 ^ 24 ∧ gainCoeff (-32768) = 0 ∧ gainCoeff (-600) = 8408526 := by decide +kernel
/-- 08: a linear 2.0 with KNEE 768, SRC_PEAK 5,044 and DST_PEAK 1,024 becomes 0.969273, and Y' is 929. -/
theorem test_tone_curve : fxRound (1000000 * toneCurve 768 5044 1024 (2 * fx)) = 969273 ∧
    fxRound (64 * fx + 876 * fxPow (toneCurve 768 5044 1024 (2 * fx)) 10 24) = 929 := by decide +kernel
/-- 11: RATE 2^30 from 1,700,000,000 s reads 1,700,000,001 s, 3,814 ns, fraction 0xB280_0000 after 10^9 cycles; with RATE 2^29 written
there, 1,700,000,002 s, 5,722 ns, fraction 0x0BC0_0000 after 10^9 more. -/
def clock0 : TimeSt := { TimeSt.reset with offset := 1700000000 * 1000000000 * 2 ^ 32, clk := 1000000000 }
theorem test_clock_reading : clockAt clock0 (2 ^ 30) 1000000000 = 1700000001000003814 * 2 ^ 32 + 0xB2800000 ∧
    clockAt (rebase clock0 (2 ^ 30)) (2 ^ 29) 2000000000 = 1700000002000005722 * 2 ^ 32 + 0x0BC00000 := by decide +kernel
/-- 12: a lane carries 384, 192, 80 or 16 credits a turn by rate, half as many in TIGHTROPE. -/
theorem test_lane_credits : (List.range 4).map (laneCredits .balanced) = [384, 192, 80, 16] ∧ laneCredits .tightrope 0 = 192 := by decide
/-- 14: with GROUPS of P2 at 0x2002, a query of the FAULT group there is refused E_PRIV (2). -/
theorem test_query_refused_after_table_write :
    (match exec (.faultRead (req .p2 [0, 0, 0, 0])) (service.onCtl fun c => { c with priv := tset privReset c.priv 2 0x300002002 }) with
     | .next t => t.emitted.map (fun e => match e with | .service b => (b.drop 16).take 2 | _ => [])
     | _ => []) = [[2, 0]] := by decide +kernel
/-- 16: the parameter bytes of an event start with ACTIVE, REASON and two zeros, and objects follow from byte 4. -/
theorem test_event_parameters : ((Ev.mk 0x0A 0 true 2 [7]).params.take 6) = [1, 2, 0, 0, 7, 0] := by decide +kernel
/-- The check value of CRC-32C (R48): of the nine digits 1 to 9 it is 0xE3069283. -/
theorem test_crc32c : crc32c [0x31, 0x32, 0x33, 0x34, 0x35, 0x36, 0x37, 0x38, 0x39] = 0xE3069283 := by decide +kernel

/-- SMPTE ST 274 (R146): the fourth words of SAV and EAV, active and blanking, in both fields; and samples a line by total lines and rate. -/
theorem test_trs : [trsXyz false false false, trsXyz false false true, trsXyz false true false, trsXyz false true true,
    trsXyz true false false, trsXyz true false true, trsXyz true true false, trsXyz true true true] =
    [0x200, 0x274, 0x2AC, 0x2D8, 0x31C, 0x368, 0x3B0, 0x3C4] := by decide
theorem test_line_samples : [lineSamples 525 3, lineSamples 625 2, lineSamples 750 7, lineSamples 1125 7, lineSamples 1125 2] =
    [858, 864, 1650, 2200, 2640] := by decide
/-- R319, R320: the receiver takes the scrambling and the stuffing off again; 24 equal bits are followed by the opposite one. -/
theorem test_scramble : scramble (laneSeed 5) (scramble (laneSeed 5) (bitsOf [0x12, 0xFF, 0x00])) = bitsOf [0x12, 0xFF, 0x00] := by decide +kernel
theorem test_stuffing : stuff 0 false (List.replicate 25 true) = List.replicate 24 true ++ [false, true] ∧
    unstuff 0 false (stuff 0 false (List.replicate 60 true)) = (List.replicate 60 true, 0) := by decide +kernel
/-- R322: the codeword of a message vanishes at α^0, α^1, up to α^29. -/
theorem test_parity : (List.range 30).all (fun k =>
    (rsCodeword [5, 0x3FF]).foldl (fun acc c => gfMul acc (gfAlpha k) ^^^ c) 0 == 0) = true := by decide +kernel

/-- 07: a 1080p flow of sender type N with PKT_PAYLOAD 1,200 over IPv4 without a tag claims 2,774,986 kbit/s. -/
theorem test_pacer_claim :
    up.pacerKbit (put 0 [(PktFlow.hdrLen, 42), (PktFlow.pktPayload, 1200)])
      { width := 1920, lines := 1080, interlaced := false, sample := 0, rate := 6, full := false } = 2774986 := by decide +kernel
/-- 08: a full crop of 7680 × 4320 fits the line buffer as a 4,096 × 2,304 layer, not as a 4,800 × 2,700 one. -/
theorem test_line_buffer :
    lineFits (put 0 [(Layer.layerW, 4096), (Layer.layerH, 2304)]) false false false 7680 4320 = true ∧
    lineFits (put 0 [(Layer.layerW, 4800), (Layer.layerH, 2700)]) false false false 7680 4320 = false := by decide

/-! ### ROUTE_WRITE as in the worked example of 15 -/

def ring37 : BitVec 256 := put (ringReset 37) [(RingDesc.base, 0x12340), (RingDesc.length, 3808), (RingDesc.classF, 1), (RingDesc.stateF, 2),
  (RingDesc.typeF, 1), (RingDesc.width, 1920), (RingDesc.lines, 1080), (RingDesc.tpf, 1266)]
/-- Rings 37, 38 (ancillary data) and 39 (audio), and output 20 on TP0 in 1080p at 60/1.001. -/
def exampleRoute : State :=
  { up with
    mem := { MemSt.reset with rings := [(37, ring37),
      (38, put (ringReset 38) [(RingDesc.length, 32), (RingDesc.classF, 1), (RingDesc.stateF, 2), (RingDesc.typeF, 3)]),
      (39, put (ringReset 39) [(RingDesc.length, 32), (RingDesc.classF, 1), (RingDesc.stateF, 2), (RingDesc.typeF, 2)])] }
    sdi := { SdiSt.reset with cfg := [(20, put (sdiReset 20) [(SdiLane.txEn, 1), (SdiLane.txOutput, 20), (SdiLane.outWidth, 1920),
      (SdiLane.outLines, 1080), (SdiLane.outRate, 6)])] }
    ref := { RefSt.reset with plane := [(0, put (planeReset 0) [(Plane.planeEn, 1), (Plane.plLines, 3), (Plane.plRate, 6)])] } }
/-- The parameter bytes the example writes out. -/
def exampleWrite : Req := req .p0 ([0x14, 0, 0, 0] ++ List.replicate 8 0 ++ [0x25, 0x60, 0x26, 0x20, 0x27, 0x20, 0, 0, 0, 0, 0, 0, 0x52, 0, 0, 0] ++
  List.replicate 16 0)
/-- Status, LENGTH, PENDING [127:96], then LO_LINES, HI_LINES, LO_NS, HI_NS, AUDIO_NS and SLACK_NS of the response of mailbox 0. -/
def routeAnswer (o : Host.Outcome State Fault Refusal) : List Nat :=
  match o with
  | .next t => let r := (t.mailbox 0).response
    [fget (t.mailbox 0).status MbStatus.status, r.length - 16, leNat ((r.drop 28).take 4), leNat ((r.drop 56).take 2),
      leNat ((r.drop 58).take 2), leNat ((r.drop 60).take 4), leNat ((r.drop 64).take 4), leNat ((r.drop 68).take 4), leNat (r.drop 72)]
  | _ => []
theorem test_route_write_example : routeAnswer (exec (.routeWrite exampleWrite) exampleRoute) =
    [0, 60, 0x00040052, 4, 1129, 59319, 16742652, 2000000, 0] := by decide +kernel

/-! ### Two witnesses whose bytes are too many to evaluate at once -/

theorem leNat_zeros (l : List Byte) (h : ∀ b ∈ l, b = 0) : leNat l = 0 := by
  induction l with
  | nil => rfl
  | cons b l ih => rw [leNat, h b (by simp), ih (fun x m => h x (by simp [m]))]; rfl

theorem bankOk_zeros (t : Nat) (l : List Byte) (h : ∀ b ∈ l, b = 0) : bankOk t l = true := by
  unfold bankOk
  split
  · rw [List.all_eq_true]
    intro i _
    rw [leNat_zeros _ (fun b m => h b (List.mem_of_mem_drop (List.mem_of_mem_take m)))]
    rfl
  · rfl

def zeroLoad : Except Err (Load × List Load × Bool) → Bool
  | .ok (x, _, true) => x.bytes.all (fun b => b == 0)
  | _ => false

theorem zeroLoad_ok (r : Except Err (Load × List Load × Bool)) (h : zeroLoad r = true) :
    ∃ x others, r = .ok (x, others, true) ∧ bankOk x.table x.bytes = true := by
  match r, h with
  | .ok (x, o, true), h => exact ⟨x, o, rfl, bankOk_zeros _ _ (fun b m => by simpa using List.all_eq_true.mp h b m)⟩

/-- ComposerCommandsTakeEffect, the load whose last bytes complete a bank that is admitted. -/
theorem test_witness_LoadOfABank : ∃ x others, servesB 0x0704 loadLast (loadOpen 0) = true ∧
    compLoadCheck loadLast (taken loadLast (loadOpen 0)) = .ok (x, others, true) ∧ bankOk x.table x.bytes = true := by
  obtain ⟨x, o, e, b⟩ := zeroLoad_ok (compLoadCheck loadLast (taken loadLast (loadOpen 0))) (by decide +kernel)
  exact ⟨x, o, by decide +kernel, e, b⟩

/-- The CRC byte by byte, each step evaluated before the next. -/
def crcSteps : List Byte → Nat → Nat
  | [], a => a
  | b :: l, a => Nat.casesOn (motive := fun _ => Nat) (crcByte a b) (crcSteps l 0) (fun n => crcSteps l (n + 1))

theorem crcSteps_eq (l : List Byte) : ∀ a, l.foldl crcByte a = crcSteps l a := by
  induction l with
  | nil => intro a; rfl
  | cons b l ih =>
    intro a
    rw [List.foldl_cons, ih]
    unfold crcSteps
    generalize crcByte a b = v
    cases v with
    | zero => cases l <;> rfl
    | succ n => cases l <;> rfl

theorem verify_good (s : State) (r : Nat) (e : BitVec 32)
    (h1 : ((decide (2 ^ 31 ≤ (ringWseq (s.ring r) - e).toNat) || ringWseq (s.ring r) == e) || s.abandonedAt r e) = false)
    (h2 : s.mem.lostTiles.contains (ringTile (s.ring r) e) = false)
    (h3 : (tget chanReset s.mem.chans (tileChannel s.pwr.reduced (ringTile (s.ring r) e))).failed = false)
    (h4 : leNat ((s.bytesAt (checkBase s.pwr.reduced + 8 * ringTile (s.ring r) e) 8).drop 4) / 2 ^ 19 = r)
    (h5 : leNat ((s.bytesAt (checkBase s.pwr.reduced + 8 * ringTile (s.ring r) e) 8).drop 4) / 2 ^ 12 % 64 = e.toNat % 64)
    (h6 : leNat ((s.bytesAt (checkBase s.pwr.reduced + 8 * ringTile (s.ring r) e) 8).take 4) =
      tileCrc (s.bytesAt (4096 * ringTile (s.ring r) e) 4096) e) :
    s.verify r e none = .good (s.bytesAt (4096 * ringTile (s.ring r) e) 4096) := by
  simp only [State.verify, h1, h2, h3, h4, h5, h6, bne_self_eq_false, Bool.or_false, Bool.false_eq_true, if_false, if_true]

theorem stored_crc : tileCrc (stored.bytesAt 0 4096) 0 = 0x81BF8868 := by
  rw [tileCrc, crc32c, crcSteps_eq]
  decide +kernel

/-- HostWindowReads: the tile in BAR2 whose bytes are read. -/
theorem test_witness_TileReadThroughTheWindow : stored.hostPort = true ∧ stored.bar2Base 0 = 0 ∧ stored.bud.waits = [] ∧
    stored.bestRoom [0] = true ∧ stored.ringAt 0 = some 0 ∧
    stored.verify 0 (newestAt (stored.ring 0) 0) none = .good (stored.bytesAt 0 4096) := by
  refine ⟨by decide +kernel, by decide +kernel, by decide +kernel, bestRoom_of_roomAnyway _ _ (by decide +kernel), by decide +kernel, ?_⟩
  exact verify_good stored 0 0 (by decide +kernel) (by decide +kernel) (by decide +kernel) (by decide +kernel) (by decide +kernel)
    (stored_crc.symm ▸ (by decide +kernel))

/-! ### Witnesses with a proof of their own -/

/-- `servesB` is `Serves`. -/
theorem serves_of_servesB (op : Nat) (q : Req) (s : State) (h : servesB op q s = true) : Serves op q s := by
  simp only [servesB, Bool.and_eq_true, decide_eq_true_eq, Bool.not_eq_true'] at h
  obtain ⟨⟨⟨⟨h1, h2⟩, h3⟩, h4⟩, h5⟩ := h
  refine ⟨h1, h2, h3, ?_, h5⟩
  revert h4
  cases gate op q s.fresh with
  | ok u => intro _; rfl
  | error e => intro h; cases h

/-- With P3 enabled, the Port Privilege Table keeps to its rules, and the next step answers a state. -/
theorem test_witness_EveryStepKeepsPrivTableRules : PrivInv p3on ∧ ∃ t, step p3on = .next t := by
  refine ⟨⟨by decide +kernel, ?_, by decide +kernel, ?_⟩, _, rfl⟩
  · intro p
    cases p with
    | p4 =>
      show maskBit (fget (privReset 4) Priv.groups) 2 = true ↔ _
      unfold privReset
      cases Config.debugFuse <;> decide +kernel
    | _ => decide +kernel
  · show fbit (privReset 4) Priv.portEn = Config.debugFuse
    unfold privReset
    cases Config.debugFuse <;> decide +kernel

/-! ### Witnesses: each clause's hypotheses hold together for the given values -/

theorem test_witness_StepRunsFrontOfQueue :
    /- clause 0 -/ ((let c : Instr := .idcode; let rest : List Instr := []; let s := { up with pending := [.idcode] };
      (decide (s.pending = c :: rest) : Bool)) : Bool) = true := by
  decide +kernel

theorem test_witness_EmptyQueueStepIsOneNanosecond :
    /- clause 0 -/ ((let s := up; (decide (s.pending = []) : Bool)) : Bool) = true := by
  decide +kernel

theorem test_witness_WellFormedCommandsComplete :
    /- clause 0 -/ ((let i := Instr.planeWrite (req .p0 []); let s := up; (decide (i.wf = true) : Bool)) : Bool) = true ∧
    /- clause 1 -/ ((let i := Instr.planeWrite { req .p0 [] with chan := 64 }; let s := up;
      (decide (i.wf = false) : Bool)) : Bool) = true := by
  decide +kernel

theorem test_witness_CommandsChangeOnlyTheirParts :
    /- clause 0 -/ (((match exec .idcode up with | .next _ => true | _ => false) : Bool) : Bool) = true := by
  decide +kernel

theorem test_witness_EveryStepKeepsCanonicalTileStore :
    /- clause 0 -/ (((up.onMem (fun m => { m with tiles := [(5, 1), (4096, 255)] })).memWf &&
      (match step (up.onMem (fun m => { m with tiles := [(5, 1), (4096, 255)] })) with | .next _ => true | _ => false) : Bool) : Bool) = true := by
  decide +kernel

theorem test_witness_RefusalsFollowTheOrderOfChecks :
    /- clause 0 -/ ((let w := fun (i : Instr) (op : Nat) (q : Req) (s : State) => decide (hostRequest i = some (op, q)) && q.wf && decide (s.pwr.bootState = .firmware) && s.heard q.port; let pw := req .p0 []; let c := fun (s : State) => w (.planeWrite pw) 0x0400 pw s && headerOk pw s && opDefined 0x0400 && privOk 0x0400 pw s; (let q := { req .p0 [] with flags := 2 }; w (.planeWrite q) 0x0400 q up && !headerOk q up) && (let q := req .p1 []; w (.undefinedOpcode 0x1200 q) 0x1200 q up && headerOk q up && !opDefined 0x1200) && (let q := req .p2 []; w (.planeWrite q) 0x0400 q service && headerOk q service && opDefined 0x0400 && !maskBit (fget (service.priv .p2) Priv.groups) 4) && (let q := req .p2 []; w (.sessionReset q) 0x0106 q service && headerOk q service && opDefined 0x0106 && fbit (service.priv .p2) Priv.readOnly && changesState 0x0106 q) && (let s := twin 2 [] id; c s && decide (s.role = .shadow) && !isQuery 0x0400) && (let s := safe; c s && shadowOk 0x0400 s && s.safetyNet && !isQuery 0x0400) && (let s := twin 1 [] (fun t => { t with resync := some 0 }); c s && shadowOk 0x0400 s && safetyNetOk 0x0400 s && decide (s.role = .primary) && changesState 0x0400 pw && s.twin.resync.isSome) && (let q := { req .p1 [] with deadline := 60000001 }; let s := up; w (.planeWrite q) 0x0400 q s && headerOk q s && opDefined 0x0400 && privOk 0x0400 q s && shadowOk 0x0400 s && safetyNetOk 0x0400 s && !twinBusy 0x0400 q s && decide (60000000 < q.deadline.toNat)) && (let q := { req .p1 [] with deadline := 60000000 }; let s := late; w (.planeWrite q) 0x0400 q s && headerOk q s && opDefined 0x0400 && privOk 0x0400 q s && shadowOk 0x0400 s && safetyNetOk 0x0400 s && !twinBusy 0x0400 q s && decide (q.deadline.toNat ≤ 60000000) && decide (receiptOf 0x0400 q s + (if q.deadline = 0 then defaultDeadline 0x0400 else q.deadline.toNat) * 1000 < s.now))) : Bool) = true := by
  decide +kernel

theorem test_witness_RequestsNobodyServesGetNoResponse :
    /- clause 0 -/ ((let w := fun (i : Instr) (op : Nat) (q : Req) => decide (hostRequest i = some (op, q)) && q.wf; let p := fun (q : Req) => w (.planeWrite q) 0x0400 q; p (req .p3 []) && decide (up.pwr.bootState = .firmware) && !up.portOn .p3 && (let s := pw (fun v => { v with bootState := .stopped, halt := some .strap }); decide (s.pwr.bootState ≠ .firmware) && decide (s.pwr.bootState ≠ .rescue) && decide (s.pwr.bootState ≠ .waitLoad) && p (req .p1 []) && p (req .p2 []) && decide (s.pwr.halt = some .strap)) && (let s := pw (fun v => { v with bootState := .rescue, bootSrc := 2 }); let q := req .p2 []; let bad := { req .p2 [] with flags := 2 }; decide (s.pwr.bootState = .rescue) && p (req .p1 []) && !rescuePort (req .p1 []) s && p bad && rescuePort bad s && !headerOk bad s && p q && rescuePort q s && headerOk q s && !([0x0100, 0x0F00, 0x0F01, 0x0F02, 0x0F03, 0x0F04].contains 0x0400))) : Bool) = true := by
  decide +kernel

theorem test_witness_ResponsesReachTheirPort :
    /- clause 1 -/ ((let q := { req .p0 [] with chan := 63 }; decide (q.port = .p0) && decide (q.chan < 64) &&
      decide (0xFFFF < 2 ^ 16)) : Bool) = true := by
  decide +kernel

theorem test_witness_MirroredCommandsWaitForTheTwin :
    /- clause 0 -/ ((let q := wr 7 (recBytes (put (0 : BitVec 128) [(Plane.planeEn, 1), (Plane.plLines, 3), (Plane.plRate, 3), (Plane.slewRate, 100)])); let s := twin 1 [] (fun t => { t with mirroring := true }); q.wf && decide (s.pwr.bootState = .firmware) && s.heard q.port && (gate 0x0400 q s.fresh).isOk && mirrored 0x0400 q (taken q s) && decide (ownTarget 0x0400 q = 0) && (cmdPlaneWrite q (taken q s)).isOk) : Bool) = true := by
  decide +kernel

theorem test_witness_SessionAndPrivilegeCommandsTakeEffect_1 :
    /- clause 0 -/ ((let q := req .p0 []; let s := up; ((decide (servesB 0x0100 q s = true) &&
      decide (Req.trailingOk q 0 = true)) : Bool)) : Bool) = true ∧
    /- clause 1 -/ ((let q := req .p2 (fitBytes 32 []); let s := service; ((decide (servesB 0x0101 q s = true) &&
      (decide (sessionPort q.port = true) && (decide (Req.trailingOk q 32 = true) &&
      (match s.freeSession with | some n => true | _ => false)))) : Bool)) : Bool) = true ∧
    /- clause 2 -/ ((let q := req .p2 [15, 0]; let s := service.onCtl (fun c => { c with sessions := [⟨15, .p2, 0, 0, 0⟩] });
      ((decide (servesB 0x0102 q s = true) && (decide (Req.trailingOk q 2 = true) &&
      decide (s.ownSession q (Req.u16 q 0) = true))) : Bool)) : Bool) = true ∧
    /- clause 3 -/ ((let q := req .p0 [1]; let s := up; ((decide (servesB 0x0103 q s = true) && (decide (Req.trailingOk q 1 = true) &&
      (decide (Req.u8 q 0 = 1) && decide (s.pwr.power = .staging)))) : Bool)) : Bool) = true ∧
    /- clause 4 -/ ((let q := req .p0 [2]; let s := active; ((decide (servesB 0x0103 q s = true) &&
      (decide (Req.trailingOk q 1 = true) && (decide (Req.u8 q 0 = 2) && (decide (fbit s.flt.ctl FaultCtl.parityTrip = false) &&
      (decide (s.fatalSet [0x48] = false) && (decide (s.role = .primary → s.sync = 0) &&
      decide (s.fastOn = true))))))) : Bool)) : Bool) = true ∧
    /- clause 5 -/ ((let q := req .p0 [3]; let s := trained; ((decide (servesB 0x0103 q s = true) &&
      (decide (Req.trailingOk q 1 = true) && (decide (Req.u8 q 0 = 3) && (decide (s.trainedAll = true) &&
      (decide (s.fatalSet [] = false) && decide (s.flt.isolated.any (fun p => p.1 == 0x47) = false)))))) : Bool)) : Bool) = true ∧
    /- clause 6 -/ ((let q := req .p0 [5]; let s := up; ((decide (servesB 0x0104 q s = true) &&
      (match profileSetCheck q (taken q s) with | .ok p => true | _ => false)) : Bool)) : Bool) = true ∧
    /- clause 7 -/ ((let q := req .p0 [1, 0, 0, 0, 0, 0]; let s := up; ((decide (servesB 0x0105 q s = true) &&
      (decide (Req.trailingOk q 6 = true) && decide (Req.u32 q 0 < 2))) : Bool)) : Bool) = true ∧
    /- clause 8 -/ ((let q := req .p1 [1]; let s := up; ((decide (servesB 0x0106 q s = true) && (decide (Req.trailingOk q 1 = true) &&
      (decide (Req.u8 q 0 ≤ 2) && decide (q.port = (if Req.u8 q 0 = 1 then .p1 else .p0))))) : Bool)) : Bool) = true ∧
    /- clause 9 -/ ((let q := req .p0 [3]; let s := up; ((decide (servesB 0x0200 q s = true) && (decide (Req.trailingOk q 1 = true) &&
      decide (Req.u8 q 0 ≤ 4))) : Bool)) : Bool) = true := by
  decide +kernel

theorem test_witness_SessionAndPrivilegeCommandsTakeEffect_2 :
    /- clause 10 -/ ((let q := req .p0 ([1, 0, 0, 0] ++ leBytes 8 0x00003FFFE); let s := up; ((decide (servesB 0x0201 q s = true) &&
      (decide (q.port = .p0) && (decide (Req.trailingOk q 12 = true) && (decide (Req.u8 q 0 ≤ 4) && (decide (Req.num q 3 1 = 0) &&
      (decide (fget (mergeRec Priv.layout (tget privReset s.ctl.priv (Req.u8 q 0)) (Req.slice q 4 8)) Priv.groups % 2 = 0) &&
      decide (fget (mergeRec Priv.layout (tget privReset s.ctl.priv (Req.u8 q 0)) (Req.slice q 4 8)) Priv.groups < 2 ^ 18))))))) : Bool)) : Bool) = true := by
  decide +kernel

theorem test_witness_RingCommandsTakeEffect :
    /- clause 0 -/ ((let q := req .p0 (leBytes 4 8191 ++ recBytes (put (0 : BitVec 256) [(RingDesc.typeF, 3), (RingDesc.classF, 3), (RingDesc.length, 32)]) ++ leBytes 4 16 ++ leBytes 4 16); let s := fmted; ((decide (servesB 0x0300 q s = true) && (match ringCreateCheck q (taken q s) with | .ok (r, d, decl) => true | _ => false)) : Bool)) : Bool) = true ∧
    /- clause 1 -/ ((let q := req .p0 (leBytes 4 8191); let s := dataRing; ((decide (servesB 0x0301 q s = true) &&
      (decide (Req.u32 q 0 < 8192) && (decide (ringFree (s.ring (Req.u32 q 0)) = false) && (decide (s.hasReader (Req.u32 q 0) = false) &&
      (decide (s.hasWriter (Req.u32 q 0) = false) && decide (Req.trailingOk q 4 = true)))))) : Bool)) : Bool) = true ∧
    /- clause 2 -/ ((let q := wr 8191 (recBytes (put dataRec [(RingDesc.base, 16)])); let s := { fmted with mem := dataRing.mem };
      ((decide (servesB 0x0302 q s = true) &&
      (match ringModifyCheck q (taken q s) with | .ok (r, d, u) => true | _ => false)) : Bool)) : Bool) = true ∧
    /- clause 3 -/ ((let q := rd 8191; let s := up; ((decide (servesB 0x0303 q s = true) && (decide (Req.u32 q 0 < 8192) &&
      (decide (Req.trailingOk q 8 = true) && decide (Req.u32 q 4 < 2)))) : Bool)) : Bool) = true ∧
    /- clause 4 -/ ((let q := rd 15; let s := up; ((decide (servesB 0x0304 q s = true) && (decide (Req.u32 q 0 < 16) &&
      (decide (Req.trailingOk q 8 = true) && decide (Req.u32 q 4 < 2)))) : Bool)) : Bool) = true := by
  decide +kernel

theorem test_witness_FlowCommandsTakeEffect :
    /- clause 0 -/ ((let q := req .p0 (recBytes entry0); let s := up; ((decide (servesB 0x0305 q s = true) &&
      (match flowInsertCheck q (taken q s) with | .ok (e, l, u) => true | _ => false)) : Bool)) : Bool) = true ∧
    /- clause 1 -/ ((let q := req .p0 (recBytes (put entry0 [(FlowEntry.absentTime, 10000)])); let s := flowed;
      ((decide (servesB 0x0306 q s = true) &&
      (match flowModifyCheck q (taken q s) with | .ok (e, u) => true | _ => false)) : Bool)) : Bool) = true ∧
    /- clause 2 -/ ((let q := req .p0 (recBytes entry0); let s := flowed; ((decide (servesB 0x0307 q s = true) &&
      (decide (Req.trailingOk q 48 = true) &&
      (match s.findFlow (Req.entry q 0) with | some f => true | _ => false))) : Bool)) : Bool) = true ∧
    /- clause 3 -/ ((let q := req .p0 (leBytes 4 1 ++ recBytes entry0); let s := flowed; ((decide (servesB 0x0308 q s = true) &&
      (decide (Req.trailingOk q 52 = true) && (decide (Req.u32 q 0 < 2) &&
      (match s.findFlow (Req.entry q 4) with | some f => true | _ => false)))) : Bool)) : Bool) = true ∧
    /- clause 4 -/ ((let q := wr 8191 [0x0F]; let s := up; ((decide (servesB 0x0309 q s = true) &&
      (match ingestWriteCheck q (taken q s) with | .ok (r, new, u) => true | _ => false)) : Bool)) : Bool) = true := by
  decide +kernel

theorem test_witness_MergeAndHostQueueCommandsTakeEffect :
    /- clause 0 -/ ((let q := wr 1023 []; let s := up; ((decide (servesB 0x030A q s = true) &&
      (match mergeWriteCheck q (taken q s) with | .ok (m, new, u) => true | _ => false)) : Bool)) : Bool) = true ∧
    /- clause 1 -/ ((let q := rd 1023; let s := up; ((decide (servesB 0x030B q s = true) && (decide (Req.u32 q 0 < 1024) &&
      (decide (Req.trailingOk q 8 = true) && decide (Req.u32 q 4 < 2)))) : Bool)) : Bool) = true ∧
    /- clause 2 -/ ((let q := req .p0 ([15, 1] ++ leBytes 2 8191); let s := dataRing; ((decide (servesB 0x030C q s = true) &&
      (match hostqBindCheck q (taken q s) with | .ok (h, insert, r, u) => true | _ => false)) : Bool)) : Bool) = true ∧
    /- clause 3 -/ ((let q := req .p0 [15]; let s := inserting; ((decide (servesB 0x030D q s = true) &&
      (decide (Req.trailingOk q 1 = true) && (decide (Req.u8 q 0 < 16) &&
      decide ((s.hq (Req.u8 q 0)).en = true)))) : Bool)) : Bool) = true ∧
    /- clause 4 -/ ((let q := req .p0 ([15, 3] ++ leBytes 2 1000 ++ fitBytes 1000 []); let s := inserting;
      ((decide (servesB 0x030E q s = true) &&
      (match hostInsertCheck q (taken q s) with | .ok g => decide ((hostInsertDo g (taken q s)).2 = true) | _ => false)) : Bool)) : Bool) = true ∧
    /- clause 5 -/ ((let q := req .p0 ([15, 3] ++ leBytes 2 1 ++ [7]); let s := insertVideo; ((decide (servesB 0x030E q s = true) &&
      (match hostInsertCheck q (taken q s) with | .ok g => decide ((hostInsertDo g (taken q s)).2 = false) | _ => false)) : Bool)) : Bool) = true ∧
    /- clause 6 -/ ((let q := req .p0 ([15, 0] ++ leBytes 2 8191 ++ leBytes 2 64); let s := capturing;
      ((decide (servesB 0x030F q s = true) &&
      (match captureFramesCheck q (taken q s) with | .ok (h, src, n) => true | _ => false)) : Bool)) : Bool) = true := by
  decide +kernel

theorem test_witness_PlaneCommandsTakeEffect :
    /- clause 0 -/ ((let q := wr 7 (recBytes (put (0 : BitVec 128) [(Plane.planeEn, 1), (Plane.plLines, 3), (Plane.plRate, 3), (Plane.slewRate, 100)])); let s := up; ((decide (servesB 0x0400 q s = true) && (match planeWriteCheck q (taken q s) with | .ok (p, new) => true | _ => false)) : Bool)) : Bool) = true ∧
    /- clause 1 -/ ((let q := wr 7 [1]; let s := fmted; ((decide (servesB 0x0401 q s = true) &&
      (match pulseWriteCheck q (taken q s) with | .ok (o, new) => true | _ => false)) : Bool)) : Bool) = true ∧
    /- clause 2 -/ ((let q := wr 1 [1, 0, 0, 0, 0x80, 0xBB]; let s := fmted; ((decide (servesB 0x0402 q s = true) &&
      (match clockWriteCheck q (taken q s) with | .ok (k, new) => true | _ => false)) : Bool)) : Bool) = true ∧
    /- clause 3 -/ ((let q := rd 17; let s := up; ((decide (servesB 0x0403 q s = true) && (decide (Req.u32 q 0 < 18) &&
      (decide (Req.trailingOk q 8 = true) && decide (Req.u32 q 4 < 2)))) : Bool)) : Bool) = true := by
  decide +kernel

theorem test_witness_RouteCommandsTakeEffect :
    /- clause 0 -/ ((let q := wr 5 []; let s := fmted; ((decide (servesB 0x0500 q s = true) &&
      (match routeWriteCheck q (taken q s) with | .ok (o, e, u) => true | _ => false)) : Bool)) : Bool) = true ∧
    /- clause 1 -/ ((let q := rd 2047; let s := up; ((decide (servesB 0x0501 q s = true) && (decide (Req.u32 q 0 < 2048) &&
      (decide (Req.trailingOk q 8 = true) && decide (Req.u32 q 4 < 2)))) : Bool)) : Bool) = true ∧
    /- clause 2 -/ ((let q := rd 2047; let s := up; ((decide (servesB 0x0502 q s = true) && (decide (Req.u32 q 0 < 2048) &&
      (decide (Req.trailingOk q 8 = true) && decide (Req.u32 q 4 < 2)))) : Bool)) : Bool) = true := by
  decide +kernel

theorem test_witness_SalvoCommandsTakeEffect :
    /- clause 0 -/ ((let q := req .p0 ([63, 1, 0, 0] ++ entry5); let s := up; ((decide (servesB 0x0600 q s = true) &&
      (let u := (taken q s).settleSalvo (Req.u8 q 0);
      (match salvoAddCheck q u with | .ok (n, l) => true | _ => false))) : Bool)) : Bool) = true ∧
    /- clause 1 -/ ((let q := req .p0 [63]; let s := salvoed .preparing 0; let peers := ([] : List PeerAnswer);
      ((decide (servesB 0x0601 q s = true) && (let u := (taken q s).settleSalvo (Req.u8 q 0);
      (match salvoAdmitCheck peers q u with | .ok (n, v) => true | _ => false))) : Bool)) : Bool) = true ∧
    /- clause 2 -/ ((let q := req .p0 ([63] ++ leBytes 7 0 ++ leBytes 8 0); let s := salvoed .admitted 0;
      let peers := ([] : List PeerAnswer); ((decide (servesB 0x0602 q s = true) && (let u := (taken q s).settleSalvo (Req.u8 q 0);
      (match salvoTakeCheck peers q (receiptOf 0x0602 q u) u with | .ok (n, target, moved, e, first) => (decide (askOthers q u (otherMembers u (u.salvo n)) = []) && decide (target < 2 ^ 64)) | _ => false))) : Bool)) : Bool) = true ∧
    /- clause 3 -/ ((let q := req .p0 ([63] ++ leBytes 7 0 ++ leBytes 8 0); let s := trouped .admitted 7;
      let peers := ([] : List PeerAnswer); ((decide (servesB 0x0602 q s = true) && (let u := (taken q s).settleSalvo (Req.u8 q 0);
      (match salvoTakeCheck peers q (receiptOf 0x0602 q u) u with | .ok (n, target, moved, e, first) => (decide (askOthers q u (otherMembers u (u.salvo n)) ≠ []) && decide (target < 2 ^ 64)) | _ => false))) : Bool)) : Bool) = true ∧
    /- clause 4 -/ ((let q := req .p0 [63]; let s := salvoed .admitted 0; let peers := ([] : List PeerAnswer);
      ((decide (servesB 0x0603 q s = true) && (let u := (taken q s).settleSalvo (Req.u8 q 0);
      (match salvoAbandonCheck peers q (receiptOf 0x0603 q u) u with | .ok n => true | _ => false))) : Bool)) : Bool) = true ∧
    /- clause 5 -/ ((let q := req .p0 [63]; let s := salvoed .done 0; ((decide (servesB 0x0604 q s = true) &&
      (let u := (taken q s).settleSalvo (Req.u8 q 0);
      (match salvoArg q 0 u with | .ok y => (decide (y = (Req.u8 q 0)) && decide (Req.trailingOk q 1 = true)) | _ => false))) : Bool)) : Bool) = true ∧
    /- clause 6 -/ ((let q := req .p0 [63, 0, 0, 0]; let s := salvoed .done 0; ((decide (servesB 0x0605 q s = true) &&
      (let u := (taken q s).settleSalvo (Req.u8 q 0);
      (match salvoArg q 0 u with | .ok y => (decide (y = (Req.u8 q 0)) && (decide (Req.num q 1 1 = 0) && decide (Req.trailingOk q 4 = true))) | _ => false))) : Bool)) : Bool) = true := by
  decide +kernel

theorem test_witness_PresetCommandsTakeEffect :
    /- clause 0 -/ ((let q := req .p0 [63, 255, 0, 0]; let s := salvoed .preparing 0; ((decide (servesB 0x0606 q s = true) &&
      (let u := (taken q s).settleSalvo (Req.u8 q 0);
      (match presetStoreCheck q u with | .ok (p, l) => true | _ => false))) : Bool)) : Bool) = true ∧
    /- clause 1 -/ ((let q := req .p0 [255, 63]; let s := preset0 (crc32c entry5); ((decide (servesB 0x0607 q s = true) &&
      (let u := (taken q s).settleSalvo (Req.u8 q 1);
      (match presetLoadCheck q u with | .ok (n, l) => true | _ => false))) : Bool)) : Bool) = true ∧
    /- clause 2 -/ ((let q := req .p0 [255, 63]; let s := preset0 (crc32c entry5 + 1); ((decide (servesB 0x0607 q s = true) &&
      (let u := (taken q s).settleSalvo (Req.u8 q 1);
      (match salvoArg q 1 u with | .ok y => (decide (y = (Req.u8 q 1)) && (decide (Req.trailingOk q 2 = true) && (decide ((u.salvo (Req.u8 q 1)).state = .empty ∨ (u.salvo (Req.u8 q 1)).state = .preparing) && (decide (s.preset (Req.u8 q 0) ≠ []) && decide (s.presetOk (Req.u8 q 0) = false))))) | _ => false))) : Bool)) : Bool) = true ∧
    /- clause 3 -/ ((let q := req .p0 [255]; let s := up; ((decide (servesB 0x0608 q s = true) &&
      decide (Req.trailingOk q 1 = true)) : Bool)) : Bool) = true ∧
    /- clause 4 -/ ((let q := req .p0 []; let s := up; ((decide (servesB 0x0609 q s = true) &&
      decide (Req.trailingOk q 0 = true)) : Bool)) : Bool) = true := by
  decide +kernel

theorem test_witness_ComposerCommandsTakeEffect_1 :
    /- clause 0 -/ ((let q := wr 63 []; let s := up; ((decide (servesB 0x0700 q s = true) &&
      (match compOutWriteCheck q (taken q s) with | .ok (n, o, u) => decide (Req.u64 q 4 = 0) | _ => false)) : Bool)) : Bool) = true ∧
    /- clause 1 -/ ((let q := wrAt 63 2000000 []; let s := fmted; ((decide (servesB 0x0700 q s = true) &&
      (match compOutWriteCheck q (taken q s) with | .ok (n, o, u) => (decide (Req.u64 q 4 ≠ 0) && (decide (u.planeOn (fget o CompOut.plane) = true) && (match heldTiming u q (receiptOf 0x0700 q u) (u.compNextF o) with | .ok (at_, v) => true | _ => false))) | _ => false)) : Bool)) : Bool) = true ∧
    /- clause 2 -/ ((let q := wr 127 (recBytes layer0); let s := up; ((decide (servesB 0x0701 q s = true) &&
      (match compLayerWriteCheck q (taken q s) with | .ok (i, e, u) => decide (Req.u64 q 4 = 0) | _ => false)) : Bool)) : Bool) = true ∧
    /- clause 3 -/ ((let q := wrAt 127 2000000 (recBytes layer0); let s := fmted; let o := fmted.compOut 60;
      ((decide (servesB 0x0701 q s = true) &&
      (match compLayerWriteCheck q (taken q s) with | .ok (i, e, u) => (decide (Req.u64 q 4 ≠ 0) && (decide (o = s.compOut (4 * (i / 8) + layerConv (s.compMode (i / 8)) (i % 8))) && (decide (u.planeOn (fget o CompOut.plane) = true) && (match heldTiming u q (receiptOf 0x0701 q u) (u.compNextF o) with | .ok (at_, v) => true | _ => false)))) | _ => false)) : Bool)) : Bool) = true ∧
    /- clause 4 -/ ((let q := wr 127 []; let s := up; ((decide (servesB 0x0702 q s = true) &&
      (match compMatrixWriteCheck q (taken q s) with | .ok (i, m) => decide (Req.u64 q 4 = 0) | _ => false)) : Bool)) : Bool) = true ∧
    /- clause 5 -/ ((let q := wrAt 127 2000000 []; let s := fmted; ((decide (servesB 0x0702 q s = true) &&
      (match compMatrixWriteCheck q (taken q s) with | .ok (i, m) => (decide (Req.u64 q 4 ≠ 0) && (decide (s.planeOn (fget (s.compOut (4 * (i / 8) + layerConv (s.compMode (i / 8)) (i % 8))) CompOut.plane) = true) && (match heldTiming (taken q s) q (receiptOf 0x0702 q (taken q s)) ((taken q s).compNextF (s.compOut (4 * (i / 8) + layerConv (s.compMode (i / 8)) (i % 8)))) with | .ok (at_, v) => true | _ => false))) | _ => false)) : Bool)) : Bool) = true ∧
    /- clause 6 -/ ((let q := wr 15 []; let s := up; ((decide (servesB 0x0703 q s = true) &&
      (match compCursorWriteCheck q (taken q s) with | .ok (c, r) => decide (Req.u64 q 4 = 0) | _ => false)) : Bool)) : Bool) = true ∧
    /- clause 7 -/ ((let q := wrAt 15 2000000 []; let s := fmted; ((decide (servesB 0x0703 q s = true) &&
      (match compCursorWriteCheck q (taken q s) with | .ok (c, r) => (decide (Req.u64 q 4 ≠ 0) && (decide (s.planeOn (fget (s.compOut (4 * c)) CompOut.plane) = true) && (match heldTiming (taken q s) q (receiptOf 0x0703 q (taken q s)) ((taken q s).compNextF (s.compOut (4 * c))) with | .ok (at_, v) => true | _ => false))) | _ => false)) : Bool)) : Bool) = true ∧
    /- clause 8 -/ ((let q := loadChunk 1 992 0; let s := up; ((decide (servesB 0x0704 q s = true) &&
      (match compLoadCheck q (taken q s) with | .ok (x, others, false) => true | _ => false)) : Bool)) : Bool) = true ∧
    /- clause 10 -/ ((let q := loadLast; let s := loadOpen 0x7FC0; ((decide (servesB 0x0704 q s = true) &&
      (match compLoadCheck q (taken q s) with | .ok (x, others, true) => decide (bankOk x.table x.bytes = false) | _ => false)) : Bool)) : Bool) = true := by
  decide +kernel

theorem test_witness_ComposerCommandsTakeEffect_2 :
    /- clause 11 -/ ((let q := rd 15; let s := up; ((decide (servesB 0x0705 q s = true) && (decide (Req.u32 q 0 < 16) &&
      (decide (Req.trailingOk q 8 = true) && decide (Req.u32 q 4 < 2)))) : Bool)) : Bool) = true ∧
    /- clause 12 -/ ((let q := rd 127; let s := up; ((decide (servesB 0x0706 q s = true) && (decide (Req.u32 q 0 < 128) &&
      (decide (Req.trailingOk q 8 = true) && decide (Req.u32 q 4 < 2)))) : Bool)) : Bool) = true := by
  decide +kernel

theorem test_witness_AudioCommandsTakeEffect_1 :
    /- clause 0 -/ ((let q := wr 0 [1]; let s := fmted; ((decide (servesB 0x0800 q s = true) &&
      (match calWriteCheck q (taken q s) with | .ok e => true | _ => false)) : Bool)) : Bool) = true ∧
    /- clause 1 -/ ((let q := wr 1023 []; let s := up; ((decide (servesB 0x0801 q s = true) &&
      (match audInWriteCheck q (taken q s) with | .ok (i, e, u) => decide (Req.u64 q 4 = 0) | _ => false)) : Bool)) : Bool) = true ∧
    /- clause 2 -/ ((let q := wr 1023 []; let s := up; ((decide (servesB 0x0802 q s = true) &&
      (match audOutWriteCheck q (taken q s) with | .ok (o, h, l, u) => decide (Req.u64 q 4 = 0) | _ => false)) : Bool)) : Bool) = true ∧
    /- clause 3 -/ ((let q := wr 511 []; let s := up; ((decide (servesB 0x0803 q s = true) &&
      (match audBusWriteCheck q (taken q s) with | .ok (b, e) => decide (Req.u64 q 4 = 0) | _ => false)) : Bool)) : Bool) = true ∧
    /- clause 4 -/ ((let q := req .p0 (leBytes 4 511 ++ leBytes 8 0 ++ [127, 1, 0, 0] ++ leBytes 4 0); let s := up;
      ((decide (servesB 0x0804 q s = true) &&
      (match audBusInputsCheck q (taken q s) with | .ok (b, first, l) => decide (Req.u64 q 4 = 0) | _ => false)) : Bool)) : Bool) = true ∧
    /- clause 5 -/ ((let q := wr 1023 []; let s := up; ((decide (servesB 0x0805 q s = true) &&
      (match audDynWriteCheck q (taken q s) with | .ok (i, e) => decide (Req.u64 q 4 = 0) | _ => false)) : Bool)) : Bool) = true ∧
    /- clause 6 -/ ((let q := wrAt 511 2000000 []; let s := fmted; ((decide (servesB 0x0803 q s = true) &&
      (match audBusWriteCheck q (taken q s) with | .ok (b, e) => (decide (Req.u64 q 4 ≠ 0) && (decide (s.planeOn (fget s.cal.ctl Cal.calPlane) = true) && (decide (s.cal.held.length < 256) && (match heldTiming (taken q s) q (receiptOf 0x0803 q (taken q s)) (taken q s).calNextTick with | .ok (at_, v) => true | _ => false)))) | _ => false)) : Bool)) : Bool) = true ∧
    /- clause 7 -/ ((let q := wrAt 1023 2000000 []; let s := fmted; ((decide (servesB 0x0801 q s = true) &&
      (match audInWriteCheck q (taken q s) with | .ok (i, e, u) => (decide (Req.u64 q 4 ≠ 0) && (decide (s.planeOn (fget s.cal.ctl Cal.calPlane) = true) && (decide (s.cal.held.length < 256) && (match heldTiming u q (receiptOf 0x0801 q u) u.calNextTick with | .ok (at_, v) => true | _ => false)))) | _ => false)) : Bool)) : Bool) = true ∧
    /- clause 8 -/ ((let q := wrAt 1023 2000000 []; let s := fmted; ((decide (servesB 0x0802 q s = true) &&
      (match audOutWriteCheck q (taken q s) with | .ok (o, h, l, u) => (decide (Req.u64 q 4 ≠ 0) && (decide (s.planeOn (fget s.cal.ctl Cal.calPlane) = true) && (decide (s.cal.held.length < 256) && (match heldTiming u q (receiptOf 0x0802 q u) u.calNextTick with | .ok (at_, v) => true | _ => false)))) | _ => false)) : Bool)) : Bool) = true ∧
    /- clause 9 -/ ((let q := req .p0 (leBytes 4 511 ++ leBytes 8 2000000 ++ [127, 1, 0, 0] ++ leBytes 4 0); let s := fmted;
      ((decide (servesB 0x0804 q s = true) &&
      (match audBusInputsCheck q (taken q s) with | .ok (b, first, l) => (decide (Req.u64 q 4 ≠ 0) && (decide (s.planeOn (fget s.cal.ctl Cal.calPlane) = true) && (decide (s.cal.held.length < 256) && (match heldTiming (taken q s) q (receiptOf 0x0804 q (taken q s)) (taken q s).calNextTick with | .ok (at_, v) => true | _ => false)))) | _ => false)) : Bool)) : Bool) = true := by
  decide +kernel

theorem test_witness_AudioCommandsTakeEffect_2 :
    /- clause 10 -/ ((let q := wrAt 1023 2000000 []; let s := fmted; ((decide (servesB 0x0805 q s = true) &&
      (match audDynWriteCheck q (taken q s) with | .ok (i, e) => (decide (Req.u64 q 4 ≠ 0) && (decide (s.planeOn (fget s.cal.ctl Cal.calPlane) = true) && (decide (s.cal.held.length < 256) && (match heldTiming (taken q s) q (receiptOf 0x0805 q (taken q s)) (taken q s).calNextTick with | .ok (at_, v) => true | _ => false)))) | _ => false)) : Bool)) : Bool) = true ∧
    /- clause 11 -/ ((let q := rd (5 * 65536); let s := up; let kind := 5; let i := 0; ((decide (servesB 0x0806 q s = true) &&
      (decide (kind = Req.u32 q 0 / 65536) && (decide (i = Req.u32 q 0 % 65536) && (decide (kind ≤ 5) && (decide (i < audCount kind) &&
      (decide (Req.trailingOk q 8 = true) && decide (Req.u32 q 4 < 2))))))) : Bool)) : Bool) = true := by
  decide +kernel

theorem test_witness_ReferenceCommandsTakeEffect :
    /- clause 0 -/ ((let q := wr 15 []; let s := up; ((decide (servesB 0x0900 q s = true) &&
      (match candWriteCheck q (taken q s) with | .ok (c, new) => true | _ => false)) : Bool)) : Bool) = true ∧
    /- clause 1 -/ ((let q := wr 0 [3]; let s := up; ((decide (servesB 0x0901 q s = true) &&
      (match refWriteCheck q (taken q s) with | .ok new => true | _ => false)) : Bool)) : Bool) = true ∧
    /- clause 2 -/ ((let q := rd 16; let s := up; ((decide (servesB 0x0902 q s = true) && (decide (Req.u32 q 0 < 17) &&
      (decide (Req.trailingOk q 8 = true) && decide (Req.u32 q 4 < 2)))) : Bool)) : Bool) = true ∧
    /- clause 3 -/ ((let q := req .p0 []; let s := up; ((decide (servesB 0x0903 q s = true) &&
      decide (Req.trailingOk q 0 = true)) : Bool)) : Bool) = true := by
  decide +kernel

theorem test_witness_PtpCommandsTakeEffect :
    /- clause 0 -/ ((let q := wr 3 [1]; let s := up; ((decide (servesB 0x0A00 q s = true) &&
      (match ptpInstWriteCheck q (taken q s) with | .ok (i, new) => true | _ => false)) : Bool)) : Bool) = true ∧
    /- clause 1 -/ ((let q := wr 0 [1]; let s := up; ((decide (servesB 0x0A01 q s = true) &&
      (match ptpServoWriteCheck q (taken q s) with | .ok new => true | _ => false)) : Bool)) : Bool) = true ∧
    /- clause 2 -/ ((let q := req .p0 [3, 0, 0, 0, 1, 0, 0, 0]; let s := up; ((decide (servesB 0x0A02 q s = true) &&
      (decide (Req.u8 q 0 < 4) && (decide (s.subExists (Req.u8 q 0) (Req.u8 q 1) = true) && (decide (Req.num q 2 2 = 0) &&
      decide (Req.trailingOk q 8 = true))))) : Bool)) : Bool) = true ∧
    /- clause 3 -/ ((let q := req .p0 (leBytes 8 (2 ^ 48 - 1) ++ leBytes 4 999999999); let s := up;
      ((decide (servesB 0x0A03 q s = true) && (decide (Req.u64 q 0 < 2 ^ 48) && (decide (Req.u32 q 8 < 1000000000) &&
      (decide (Req.trailingOk q 12 = true) &&
      (decide ((List.range 4).all (fun i => decide (fget (s.inst i) Inst.instState ≠ 1 ∧ fget (s.inst i) Inst.instState ≠ 2)) = true) &&
      decide (fget s.ptp.servo Servo.servoSrc = 0)))))) : Bool)) : Bool) = true ∧
    /- clause 4 -/ ((let q := rd 3; let s := up; ((decide (servesB 0x0A04 q s = true) && (decide (Req.u32 q 0 < 4) &&
      (decide (Req.trailingOk q 8 = true) && decide (Req.u32 q 4 < 2)))) : Bool)) : Bool) = true ∧
    /- clause 5 -/ ((let q := rd 4; let s := up; ((decide (servesB 0x0A04 q s = true) && (decide (Req.u32 q 0 = 4) &&
      (decide (Req.trailingOk q 8 = true) && decide (Req.u32 q 4 < 2)))) : Bool)) : Bool) = true := by
  decide +kernel

theorem test_witness_TroupeCommandsTakeEffect :
    /- clause 0 -/ ((let q := wr 0 (recBytes (put (0 : BitVec 128) [(TroupeRec.troupeEn, 1), (TroupeRec.members, 0x81)])); let s := up;
      ((decide (servesB 0x0B00 q s = true) &&
      (match troupeWriteCheck q (taken q s) with | .ok e => true | _ => false)) : Bool)) : Bool) = true ∧
    /- clause 1 -/ ((let q := wr 6 (recBytes (put (linkReset 6) [(Link.peer, 7), (Link.lanes, 0xFF)]));
      let s := up.onTrp (fun t => { t with rec_ := put t.rec_ [(TroupeRec.members, 0x81)] }); ((decide (servesB 0x0B01 q s = true) &&
      (match linkWriteCheck q (taken q s) with | .ok (k, e) => true | _ => false)) : Bool)) : Bool) = true ∧
    /- clause 2 -/ ((let q := wr 47 [0, 96, 97]; let s := up; ((decide (servesB 0x0B02 q s = true) &&
      (match laneWriteCheck q (taken q s) with | .ok (l, e) => true | _ => false)) : Bool)) : Bool) = true ∧
    /- clause 3 -/ ((let q := importArg 0 7; let s := fastLink; let peers := [peer 7 [0, 0, 5, 0]];
      ((decide (servesB 0x0B03 q s = true) &&
      (match importArgs q true (taken q s) with | .ok a => (decide ((askOthers q (taken q s) [a.from_, a.to_]).all (fun m => (linkTo (taken q s) m).isSome) = true) && (match exportHere a peers (taken q s) with | .ok (u, ei, c, via) => (match importHere a peers (if (askOthers q (taken q s) [a.from_, a.to_]).contains a.from_ then some c else none) (exportHops a peers q (taken q s)) u with | .ok (v, ii) => (match peersOk peers (askOthers q (taken q s) [a.from_, a.to_]) with | .ok y => decide (y = ()) | _ => false) | _ => false) | _ => false)) | _ => false)) : Bool)) : Bool) = true ∧
    /- clause 4 -/ ((let q := importArg 0 7; let s := exporting; let peers := [peer 7 []]; ((decide (servesB 0x0B04 q s = true) &&
      (match importArgs q false (taken q s) with | .ok a => (decide ((askOthers q (taken q s) [a.from_, a.to_]).all (fun m => (linkTo (taken q s) m).isSome) = true) && (match unexportHere a (taken q s) with | .ok u => (match unimportHere a u with | .ok v => (match peersOk peers (askOthers q (taken q s) [a.from_, a.to_]) with | .ok y => decide (y = ()) | _ => false) | _ => false) | _ => false)) | _ => false)) : Bool)) : Bool) = true ∧
    /- clause 5 -/ ((let q := req .p0 ([7, 0, 0, 0, 0, 0, 0, 0] ++ leBytes 2 0x0100); let s := importing;
      ((decide (servesB 0x0B05 q s = true) &&
      (match troupeForwardCheck q (taken q s) with | .ok (m, k) => true | _ => false)) : Bool)) : Bool) = true ∧
    /- clause 6 -/ ((let q := req .p0 (leBytes 2 4095 ++ leBytes 2 4 ++ leBytes 4 0); let s := up;
      ((decide (servesB 0x0B06 q s = true) && (decide (Req.u16 q 0 < troupeCount (Req.u16 q 2)) && (decide (Req.trailingOk q 8 = true) &&
      decide (Req.u32 q 4 < 2)))) : Bool)) : Bool) = true := by
  decide +kernel

theorem test_witness_TwinCommandsTakeEffect :
    /- clause 0 -/ ((let q := wr 0 [1]; let s := up; ((decide (servesB 0x0C00 q s = true) &&
      (match twinWriteCheck q (taken q s) with | .ok e => true | _ => false)) : Bool)) : Bool) = true ∧
    /- clause 1 -/ ((let q := rd 0; let s := up; ((decide (servesB 0x0C01 q s = true) && (decide (Req.u32 q 0 < 1) &&
      (decide (Req.trailingOk q 8 = true) && decide (Req.u32 q 4 < 2)))) : Bool)) : Bool) = true ∧
    /- clause 2 -/ ((let q := req .p0 (leBytes 8 0); let s := twin 1 [(Twin.pathAOk, 1), (Twin.pathBOk, 1), (Twin.sync, 2)] id;
      ((decide (servesB 0x0C02 q s = true) &&
      (match twinSwapCheck q (receiptOf 0x0C02 q (taken q s)) (taken q s) with | .ok (y, moved) => true | _ => false)) : Bool)) : Bool) = true := by
  decide +kernel

theorem test_witness_RecorderAndFaultCommandsTakeEffect :
    /- clause 0 -/ ((let q := req .p0 [0, 0, 0, 0, 7]; let s := up; ((decide (servesB 0x0D00 q s = true) &&
      (decide (Req.trailingOk q 5 = true) && (decide (1 ≤ Req.u8 q 4) && decide (Req.u8 q 4 ≤ 7)))) : Bool)) : Bool) = true ∧
    /- clause 1 -/ ((let q := req .p0 []; let s := up; ((decide (servesB 0x0D01 q s = true) && (decide (Req.trailingOk q 0 = true) &&
      decide (s.rec_.isolated = false))) : Bool)) : Bool) = true ∧
    /- clause 2 -/ ((let q := req .p0 [0x02, 0x01, 100, 255]; let s := up; ((decide (servesB 0x0D02 q s = true) &&
      (match recLimitCheck q with | .ok (code, rate, burst) => true | _ => false)) : Bool)) : Bool) = true ∧
    /- clause 3 -/ ((let q := req .p0 []; let s := up; ((decide (servesB 0x0E00 q s = true) &&
      decide (Req.trailingOk q 0 = true)) : Bool)) : Bool) = true ∧
    /- clause 4 -/ ((let q := req .p0 ([3, 0, 0, 0] ++ leBytes 4 0xFFFFFFFF); let s := up; ((decide (servesB 0x0E01 q s = true) &&
      (match faultClearCheck q (taken q s) with | .ok (c, named) => true | _ => false)) : Bool)) : Bool) = true ∧
    /- clause 5 -/ ((let q := req .p0 ([3, 0, 0, 0] ++ leBytes 4 locAon); let s := up; ((decide (servesB 0x0E02 q s = true) &&
      (match faultForceCheck q (taken q s) with | .ok (c, l) => true | _ => false)) : Bool)) : Bool) = true ∧
    /- clause 6 -/ ((let q := req .p0 [255, 63, 1]; let s := up; ((decide (servesB 0x0E03 q s = true) &&
      (decide (Req.trailingOk q 3 = true) && (decide (Req.u8 q 1 < 64) && decide (Req.u8 q 2 < 2)))) : Bool)) : Bool) = true := by
  decide +kernel

theorem test_witness_UpdateCommandsTakeEffect :
    /- clause 0 -/ ((let q := req .p0 (leBytes 4 16777216); let s := up; ((decide (servesB 0x0F00 q s = true) &&
      (decide (Req.trailingOk q 4 = true) && (decide (1 ≤ Req.u32 q 0) && (decide (Req.u32 q 0 ≤ 16777216) &&
      (decide (s.upd.write = none) && decide (s.slotBad s.writeSlot = false)))))) : Bool)) : Bool) = true ∧
    /- clause 1 -/ ((let q := req .p0 (leBytes 4 0 ++ [1, 0, 0, 0, 9]); let s := chunked 1 0; ((decide (servesB 0x0F01 q s = true) &&
      (match updChunkCheck q (taken q s) with | .ok (w, len) => true | _ => false)) : Bool)) : Bool) = true ∧
    /- clause 2 -/ ((let q := req .p0 (leBytes 4 15 ++ [1, 0, 0, 0, 9]); let s := chunked 16 15; ((decide (servesB 0x0F01 q s = true) &&
      (match updChunkCheck q (taken q s) with | .ok (w, len) => true | _ => false)) : Bool)) : Bool) = true ∧
    /- clause 3 -/ ((let q := req .p0 (leBytes 4 (crc32c [0])); let s := chunked 1 1; ((decide (servesB 0x0F02 q s = true) &&
      (decide (Req.trailingOk q 4 = true) &&
      (match s.upd.write with | some w => (decide (w.written = w.size) && decide (crc32c (fitBytes w.size (s.slotBytes w.slot)) = Req.u32 q 0)) | _ => false))) : Bool)) : Bool) = true ∧
    /- clause 4 -/ ((let q := req .p0 (leBytes 4 0); let s := chunked 1 1; ((decide (servesB 0x0F02 q s = true) &&
      (decide (Req.trailingOk q 4 = true) &&
      (match s.upd.write with | some w => (decide (w.written = w.size) && decide (crc32c (fitBytes w.size (s.slotBytes w.slot)) ≠ Req.u32 q 0)) | _ => false))) : Bool)) : Bool) = true ∧
    /- clause 5 -/ ((let q := req .p0 [1]; let s := up.onUpd (fun u => { u with table0 := fput u.table0 (stateFld 1) slotWritten });
      ((decide (servesB 0x0F03 q s = true) && (decide (Req.trailingOk q 1 = true) && (decide (Req.u8 q 0 < 2) &&
      (decide (s.slotState (Req.u8 q 0) = slotWritten) &&
      decide (s.pwr.power = .active → s.slotMajor (Req.u8 q 0) = s.pwr.fwMajor))))) : Bool)) : Bool) = true ∧
    /- clause 6 -/ ((let q := req .p2 [0]; let s := pw (fun p => { p with bootState := .rescue, afterRestart := true });
      ((decide (s.pwr.bootState = .rescue) && (decide (q.port = .p2) && (decide (s.pwr.afterRestart = true) &&
      (decide (headerOk q s = true) && (decide (Req.wf q = true) && (decide (Req.trailingOk q 1 = true) && (decide (Req.u8 q 0 < 2) &&
      (decide (s.slotState (Req.u8 q 0) = slotWritten ∨ s.slotState (Req.u8 q 0) = slotActive) &&
      decide (s.imageFails (Req.u8 q 0) .proven = none))))))))) : Bool)) : Bool) = true ∧
    /- clause 7 -/ ((let q := req .p0 []; let s := up; ((decide (servesB 0x0F04 q s = true) &&
      decide (Req.trailingOk q 0 = true)) : Bool)) : Bool) = true := by
  decide +kernel

theorem test_witness_TestCommandsTakeEffect :
    /- clause 0 -/ ((let q := req .p0 ([2, 0] ++ leBytes 2 47 ++ [0, 0, 0, 0]); let s := up; ((decide (servesB 0x1000 q s = true) &&
      (decide (s.role ≠ .shadow) &&
      (match patternCheck q true (taken q s) with | .ok (kind, lane, pattern) => true | _ => false))) : Bool)) : Bool) = true ∧
    /- clause 1 -/ ((let q := req .p0 ([1, 0] ++ leBytes 2 31 ++ [0, 0, 0, 0]); let s := up; ((decide (servesB 0x1001 q s = true) &&
      (match patternCheck q false (taken q s) with | .ok (kind, lane, pattern) => true | _ => false)) : Bool)) : Bool) = true ∧
    /- clause 2 -/ ((let q := req .p0 ([0, 0] ++ leBytes 2 143 ++ [2]); let s := up; ((decide (servesB 0x1002 q s = true) &&
      (match testLoopCheck q (taken q s) with | .ok (x, point) => true | _ => false)) : Bool)) : Bool) = true ∧
    /- clause 3 -/ ((let q := rd (2 * 2 ^ 16 + 47); let s := up; let kind := 2; let lane := 47; ((decide (servesB 0x1003 q s = true) &&
      (decide (kind = Req.u32 q 0 / 2 ^ 16) && (decide (lane = Req.u32 q 0 % 2 ^ 16) && (decide (lane < kindLanes kind) &&
      (decide (Req.trailingOk q 8 = true) && decide (Req.u32 q 4 < 2)))))) : Bool)) : Bool) = true ∧
    /- clause 4 -/ ((let q := req .p0 [0xFF, 0xFF, 3]; let s := up; ((decide (servesB 0x1004 q s = true) &&
      (match testMemCheck q (taken q s) with | .ok (mask, pattern) => true | _ => false)) : Bool)) : Bool) = true ∧
    /- clause 5 -/ ((let q := req .p0 [1, 0, 0xFF, 0xFF]; let s := twin 2 [] id; ((decide (servesB 0x1005 q s = true) &&
      (match testShadowCheck q (taken q s) with | .ok (scope, lane) => true | _ => false)) : Bool)) : Bool) = true := by
  decide +kernel

theorem test_witness_PortCommandsTakeEffect :
    /- clause 0 -/ ((let q := wr 143 [1]; let s := up; ((decide (servesB 0x1100 q s = true) &&
      (match sdiWriteCheck q (taken q s) with | .ok (l, new, u) => true | _ => false)) : Bool)) : Bool) = true ∧
    /- clause 1 -/ ((let q := wr 3 [1]; let s := up; ((decide (servesB 0x1101 q s = true) &&
      (match ethWriteCheck q (taken q s) with | .ok (n, new) => true | _ => false)) : Bool)) : Bool) = true ∧
    /- clause 2 -/ ((let q := wr 31 [2]; let s := up; ((decide (servesB 0x1102 q s = true) &&
      (match ethAddrWriteCheck q (taken q s) with | .ok (p, new) => true | _ => false)) : Bool)) : Bool) = true ∧
    /- clause 3 -/ ((let q := wr 4095 (recBytes (put (pktReset 0) [(PktFlow.hdrLen, 42)])); let s := up;
      ((decide (servesB 0x1103 q s = true) &&
      (match pktFlowWriteCheck q (taken q s) with | .ok (f, new, hdr, u) => true | _ => false)) : Bool)) : Bool) = true ∧
    /- clause 4 -/ ((let q := wr 0 [1]; let s := up; ((decide (servesB 0x1104 q s = true) &&
      (match sbWriteCheck q (taken q s) with | .ok e => true | _ => false)) : Bool)) : Bool) = true ∧
    /- clause 5 -/ ((let q := req .p0 [15]; let s := up; ((decide (servesB 0x1105 q s = true) && (decide (Req.trailingOk q 1 = true) &&
      decide (Req.u8 q 0 < 16))) : Bool)) : Bool) = true ∧
    /- clause 6 -/ ((let q := req .p0 ([0xFF, 7] ++ [6, 0] ++ leBytes 4 0); let s := up; ((decide (servesB 0x1106 q s = true) &&
      (match cmdPortRead q (taken q s) with | .ok a => true | _ => false)) : Bool)) : Bool) = true ∧
    /- clause 7 -/ ((let q := wr 2047 (recBytes (put (0 : BitVec 128) [(PktOut.outWidth, 1920), (PktOut.outLines, 1080)])); let s := up;
      ((decide (servesB 0x1107 q s = true) &&
      (match pktOutWriteCheck q (taken q s) with | .ok (o, new) => true | _ => false)) : Bool)) : Bool) = true := by
  decide +kernel

theorem test_witness_HostPortIsClosedOutsideStagingAndActive :
    /- clause 0 -/ ((let s := watch; (decide (s.hostPort = false) : Bool)) : Bool) = true := by
  decide +kernel

theorem test_witness_MailboxAndHostQueueAccesses :
    /- clause 0 -/ ((let s := up; (decide (s.hostPort = true) : Bool)) : Bool) = true := by
  decide +kernel

theorem test_witness_ResetAndErrorRegisterAccesses_1 :
    /- clause 0 -/ ((let s := up; let w : BitVec 64 := BitVec.ofNat 64 (0x03 + 2 ^ 32 * locAon); ((decide (s.hostPort = true) &&
      (decide (evDefined (w.toNat % 256) = true) &&
      (decide (locExists s.pwr.reduced (w.toNat % 256) (w.toNat / 2 ^ 32 % 2 ^ 24) = true) &&
      decide (w.toNat % 256 ≠ 0x20)))) : Bool)) : Bool) = true ∧
    /- clause 1 -/ ((let s := up; let w : BitVec 64 := 0x0C; ((decide (s.hostPort = true) &&
      decide (evDefined (w.toNat % 256) = false ∨ locExists s.pwr.reduced (w.toNat % 256) (w.toNat / 2 ^ 32 % 2 ^ 24) = false)) : Bool)) : Bool) = true ∧
    /- clause 3 -/ ((let s := active; (decide (s.hostPort = true) : Bool)) : Bool) = true ∧
    /- clause 4 -/ ((let s := up; ((decide (s.hostPort = true) && decide (s.inRelease = false)) : Bool)) : Bool) = true ∧
    /- clause 5 -/ ((let s := releasing 6; ((decide (s.hostPort = true) && decide (s.inRelease = true)) : Bool)) : Bool) = true ∧
    /- clause 6 -/ ((let s := up; (decide (s.hostPort = true) : Bool)) : Bool) = true ∧
    /- clause 7 -/ ((let s := up; let v : BitVec 8 := 0; (decide (v ≠ 0xA5) : Bool)) : Bool) = true ∧
    /- clause 8 -/ ((let s := up; (decide (s.hostPort = true) : Bool)) : Bool) = true ∧
    /- clause 10 -/ ((let s := up; (decide (s.hostPort = true) : Bool)) : Bool) = true ∧
    /- clause 11 -/ ((let s := active; (decide (s.hostPort = true) : Bool)) : Bool) = true := by
  decide +kernel

theorem test_witness_ResetAndErrorRegisterAccesses_2 :
    /- clause 12 -/ ((let s := up; (decide (s.hostPort = true) : Bool)) : Bool) = true ∧
    /- clause 13 -/ ((let s := up; (decide (s.hostPort = true) : Bool)) : Bool) = true ∧
    /- clause 14 -/ ((let s := up; (decide (s.hostPort = true) : Bool)) : Bool) = true ∧
    /- clause 15 -/ ((let s := up; (decide (s.hostPort = true) : Bool)) : Bool) = true ∧
    /- clause 16 -/ ((let s := up; let o : BitVec 18 := 2; let w := true; ((decide (s.hostPort = true) &&
      decide ((bar0Aligned o.toNat (if w then 8 else 4) && bar0Covered o.toNat) = false)) : Bool)) : Bool) = true ∧
    /- clause 17 -/ ((let s := up; (decide (s.fastOn = true) : Bool)) : Bool) = true ∧
    /- clause 18 -/ ((let s := watch; (decide (s.fastOn = false) : Bool)) : Bool) = true := by
  decide +kernel

theorem test_witness_MaintenanceWindowWrites :
    /- clause 0 -/ ((let s := up; (decide (s.hostPort = true) : Bool)) : Bool) = true ∧
    /- clause 1 -/ ((let s := trained; let q := req .p0 [3]; ((decide (servesB 0x0103 q s = true) &&
      (decide (Req.trailingOk q 1 = true) && (decide (Req.u8 q 0 = 3) && (decide (s.trainedAll = true) &&
      (decide (s.fatalSet [] = false) && (decide (s.flt.isolated.any (fun p => p.1 == 0x47) = false) &&
      decide (s.pwr.power ≠ .active))))))) : Bool)) : Bool) = true ∧
    /- clause 2 -/ ((let s := window; let off : BitVec 32 := 4095; let b := [1, 2]; ((decide (s.hostPort = true) &&
      (decide (fbit s.ctl.midway Midway.maint = true) && (let a := s.bar2Base off.toNat; (decide (s.bud.waits = []) &&
      decide (roomAnyway s (s.bar2Targets a (b.take (2 ^ 32 - off.toNat)).length) = true))))) : Bool)) : Bool) = true ∧
    /- clause 3 -/ ((let s := { window with bud := { BudSt.reset with waits := [.write 0 [1]] } }; let off : BitVec 32 := 0;
      let b := [1]; ((decide (s.hostPort = true) && (decide (fbit s.ctl.midway Midway.maint = true) && (let a := s.bar2Base off.toNat;
      decide (s.bud.waits ≠ [] ∨ s.bestRoom (s.bar2Targets a (b.take (2 ^ 32 - off.toNat)).length) = false)))) : Bool)) : Bool) = true := by
  decide +kernel

theorem test_witness_HostWindowReads :
    /- clause 0 -/ ((let s := up; ((decide (s.hostPort = true) && decide (fbit s.ctl.midway Midway.maint = false)) : Bool)) : Bool) = true ∧
    /- clause 1 -/ ((let s := up; let off : BitVec 32 := 0xFFFFFFFF; let len : Fin 4097 := 2; ((decide (s.hostPort = true) &&
      decide (2 ^ 32 < off.toNat + len.val ∨ ∃ i ∈ touchedTiles (s.bar2Base off.toNat) len.val, ringSpace s.pwr.reduced ≤ i ∨ (s.ringAt i = none ∧ fbit s.ctl.midway Midway.maint = false))) : Bool)) : Bool) = true ∧
    /- clause 2 -/ ((let s := { window with bud := { BudSt.reset with waits := [.write 0 [1]] } }; let off : BitVec 32 := 0;
      let len : Fin 4097 := 4; ((decide (s.hostPort = true) && (let a := s.bar2Base off.toNat; (decide (off.toNat + len.val ≤ 2 ^ 32) &&
      (decide ((touchedTiles a len.val).all (fun i => decide (i < ringSpace s.pwr.reduced ∧ (s.ringAt i ≠ none ∨ fbit s.ctl.midway Midway.maint = true))) = true) && decide (s.bud.waits ≠ [] ∨ s.bestRoom (touchedTiles a len.val) = false))))) : Bool)) : Bool) = true ∧
    /- clause 4 -/ ((let s := onering.onMem (fun m => { m with lostTiles := [0] });
      (match s.verify 0 (newestAt (s.ring 0) 0) none with | .good _ => false | _ => true) && s.ringAt 0 == some 0 && s.hostPort && roomAnyway s [0] && s.bud.waits.isEmpty) : Bool) = true ∧
    /- clause 5 -/ ((let s := window; let off : BitVec 32 := 4095; let len : Fin 4097 := 1; ((decide (s.hostPort = true) &&
      (let a := s.bar2Base off.toNat; (decide (off.toNat + len.val ≤ 2 ^ 32) && (decide (0 < len.val) &&
      (decide (a % 4096 + len.val ≤ 4096) && (decide (a / 4096 < ringSpace s.pwr.reduced) && (decide (s.bud.waits = []) &&
      (decide (roomAnyway s [a / 4096] = true) && (decide (s.ringAt (a / 4096) = none) &&
      decide (fbit s.ctl.midway Midway.maint = true)))))))))) : Bool)) : Bool) = true := by
  decide +kernel

theorem test_witness_UndefinedOpcodesChangeNothing :
    /- clause 0 -/ ((let op : BitVec 16 := 0xFFFF; let q := req .p0 []; let s := up; ((decide (Req.wf q = true) &&
      (decide (opDefined op.toNat = false) && (decide (s.pwr.bootState = .firmware) && (decide (s.heard q.port = true) &&
      decide (headerOk q s = true))))) : Bool)) : Bool) = true := by
  decide +kernel

theorem test_witness_ReadOnlyPortsAdmitWhatChangesNothing :
    /- clause 0 -/ ((let op := 0x0D02; let q := req .p2 []; let s := up; ((decide (opDefined op = true) &&
      (decide (fbit (s.priv q.port) Priv.readOnly = true) &&
      decide (maskBit (fget (s.priv q.port) Priv.groups) (op / 256) = true))) : Bool)) : Bool) = true ∧
    /- clause 1 -/ ((let op := 0x0F00; let q := req .p1 []; let s := up; ((decide (opDefined op = true) &&
      decide (maskBit (fget (s.priv q.port) Priv.groups) (op / 256) = false)) : Bool)) : Bool) = true ∧
    /- clause 2 -/ ((let q := req .p2 (leBytes 4 0 ++ leBytes 4 1); decide (hostRequest (Instr.ringQuery q) = some (0x0303, q)) &&
      q.wf && decide (up.pwr.bootState = .firmware) && up.portOn .p2 && headerOk q up && opDefined 0x0303 &&
      fbit (up.priv .p2) Priv.readOnly && isQuery 0x0303 && setsClear 0x0303 q) : Bool) = true := by
  decide +kernel

theorem test_witness_RequestsArriveExpireAndAreForwarded_1 :
    /- clause 0 -/ ((let s := service; let q := req .p0 []; ((decide (s.p2Open { q with port := .p2 } = true) &&
      decide (s.ctl.p2.length < 16)) : Bool)) : Bool) = true ∧
    /- clause 1 -/ ((let s := service.onCtl (fun c => { c with p2 := List.replicate 16 waiter }); let q := req .p2 [];
      ((decide (s.p2Open { q with port := .p2 } = true) && decide (16 ≤ s.ctl.p2.length)) : Bool)) : Bool) = true ∧
    /- clause 2 -/ ((let s := up; let q := req .p2 []; (decide (s.p2Open { q with port := .p2 } = false) : Bool)) : Bool) = true ∧
    /- clause 3 -/ ((let s := p3on; let q := req .p3 []; ((decide (s.pwr.bootState = .firmware) && (decide (s.portOn .p3 = true) &&
      decide (s.ctl.p3.length < 16))) : Bool)) : Bool) = true ∧
    /- clause 4 -/ ((let s := p3on.onCtl (fun c => { c with p3 := List.replicate 16 waiter }); let q := req .p3 [];
      ((decide (s.pwr.bootState = .firmware) && (decide (s.portOn .p3 = true) && decide (16 ≤ s.ctl.p3.length))) : Bool)) : Bool) = true ∧
    /- clause 5 -/ ((let s := up; let q := req .p3 [];
      (decide (s.pwr.bootState ≠ .firmware ∨ s.portOn .p3 = false) : Bool)) : Bool) = true ∧
    /- clause 6 -/ ((let s := up.onCtl (fun c => { c with jobs := [job (.forward 1) .p2] }); let p : Port := .p2; let chan := 0;
      let sender := 0; let seq : BitVec 16 := 1;
      ((match s.ctl.jobs.find? (uncommitted p chan sender seq s.now) with | some j => true | _ => false) : Bool)) : Bool) = true ∧
    /- clause 7 -/ ((let s := { p3on with ctl := { p3on.ctl with p3 := [{ waiter with deadline := 1 }] }, time := { TimeSt.reset with clk := 1000000 } }; let p : Port := .p3; let chan := 63; let sender := 0; let seq : BitVec 16 := 1; ((decide (p = .p2 ∨ p = .p3 ∨ p = .p4) && (decide (chan < 64) && (decide (s.pwr.bootState = .firmware) && (decide (s.ctl.jobs.find? (uncommitted p chan sender seq s.now) = none) && (match (s.waiting p).find? (fun w => w.sender == sender && w.seq == seq && w.deadline.toNat ≤ 60000000 && deadlineAt w.opcode.toNat w.receipt w.deadline.toNat ≤ s.now) with | some w => true | _ => false))))) : Bool)) : Bool) = true ∧
    /- clause 8 -/ ((let s := (up.setMb 63 { Mb.idle 63 with status := fput 0 MbStatus.stateF 1, request := [0, 1, 0, 0, 0, 0, 0, 0, 1, 0, 0, 0] }).onTime (fun t => { t with base := 0, clk := 1000000 }); let chan := 63; let sender := 0; let seq : BitVec 16 := 1; ((decide (chan < 64) && (decide (s.pwr.bootState = .firmware) && (decide (s.ctl.jobs.find? (uncommitted .p0 chan sender seq s.now) = none) && (match mailboxDue (s.mailbox chan) s.now with | some op => true | _ => false)))) : Bool)) : Bool) = true ∧
    /- clause 9 -/ ((let s := up; let p : Port := .p2; let chan := 64; let sender := 0; let seq : BitVec 16 := 1;
      ((decide (s.pwr.bootState ≠ .firmware ∨ 64 ≤ chan) &&
      decide (s.ctl.jobs.find? (uncommitted p chan sender seq s.now) = none)) : Bool)) : Bool) = true := by
  decide +kernel

theorem test_witness_RequestsArriveExpireAndAreForwarded_2 :
    /- clause 10 -/ ((let s := up; let q := { req .p1 [] with chan := 6, sender := 1 };
      ((decide (Req.wf { q with port := .p1 } = true) &&
      decide (maskBit (fget s.trp.rec_ TroupeRec.members) q.sender = false)) : Bool)) : Bool) = true ∧
    /- clause 11 -/ ((let s := up.onTrp (fun t => { t with rec_ := put 0 [(TroupeRec.members, 0x81)] }); let op : BitVec 16 := 0x0100;
      let q := { req .p1 [] with chan := 6, sender := 7 }; ((decide (maskBit (fget s.trp.rec_ TroupeRec.members) q.sender = true) &&
      (decide (servesB op.toNat { q with port := .p1 } s = true) &&
      (match runOpcode op.toNat { q with port := .p1 } (taken { q with port := .p1 } s) with | .ok (.now t res) => true | _ => false))) : Bool)) : Bool) = true ∧
    /- clause 12 -/ ((let s := up.onCtl (fun c => { c with jobs := [⟨.forward 7, 0x0B05, req .p1 [], 0, 0, 0, []⟩] });
      let m : Fin 8 := 7; let seq : BitVec 16 := 0;
      ((match s.ctl.jobs.find? (forwardJob m.val seq.toNat) with | some j => true | _ => false) : Bool)) : Bool) = true ∧
    /- clause 13 -/ ((let s := up; let m : Fin 8 := 7; let seq : BitVec 16 := 0;
      (decide (s.ctl.jobs.find? (forwardJob m.val seq.toNat) = none) : Bool)) : Bool) = true := by
  decide +kernel

theorem test_witness_JtagInstructions :
    /- clause 0 -/ ((let s := watch; (decide (s.pwr.power ≠ .backup) : Bool)) : Bool) = true ∧
    /- clause 1 -/ ((let s := pw (fun p => { p with halt := some .strap }); ((decide (s.pwr.power ≠ .backup) &&
      (match s.pwr.halt with | some h => true | _ => false)) : Bool)) : Bool) = true ∧
    /- clause 2 -/ ((let s := up; ((decide (s.pwr.power ≠ .backup) && decide (s.pwr.halt = none)) : Bool)) : Bool) = true ∧
    /- clause 3 -/ ((let s := up; (decide (s.pwr.power ≠ .backup) : Bool)) : Bool) = true ∧
    /- clause 4 -/ ((let s := up; (decide (s.pwr.power ≠ .backup) : Bool)) : Bool) = true ∧
    /- clause 5 -/ ((let s := up; (decide (s.pwr.power ≠ .backup) : Bool)) : Bool) = true ∧
    /- clause 6 -/ ((let s := up; (decide (s.pwr.power ≠ .backup) : Bool)) : Bool) = true ∧
    /- clause 7 -/ ((let s := up; (decide (s.pwr.power ≠ .backup) : Bool)) : Bool) = true ∧
    /- clause 8 -/ ((let s := backup; (decide (s.pwr.power = .backup) : Bool)) : Bool) = true := by
  decide +kernel

theorem test_witness_SlotTurnsAndProfileChanges_1 :
    /- clause 0 -/ ((let s := up; (decide (s.fastOn = true) : Bool)) : Bool) = true ∧
    /- clause 1 -/ ((let s := up; decide (s.fastOn = true) && decide (s.trp.outq = [])) : Bool) = true ∧
    /- clause 2 -/ ((let s := watch; (decide (s.fastOn = false) : Bool)) : Bool) = true ∧
    /- clause 3 -/ ((let s := up.onBud (fun b => { b with nextProfile := some .economy });
      ((match s.bud.nextProfile with | some p => true | _ => false) : Bool)) : Bool) = true ∧
    /- clause 4 -/ ((let s := up; (decide (s.bud.nextProfile = none) : Bool)) : Bool) = true ∧
    /- clause 5 -/ ((let s := up; (decide (s.bud.blocked = false) : Bool)) : Bool) = true ∧
    /- clause 6 -/ ((let s := up.onBud (fun b => { b with blocked := true }); (decide (s.bud.blocked = true) : Bool)) : Bool) = true ∧
    /- clause 7 -/ ((let s := up.onBud (fun b => { b with blocked := true }); ((decide (s.bud.blocked = true) &&
      decide (s.pwr.bootState = .firmware)) : Bool)) : Bool) = true ∧
    /- clause 8 -/ ((let s := up; (decide (s.bud.blocked = false ∨ s.pwr.bootState ≠ .firmware) : Bool)) : Bool) = true ∧
    /- clause 9 -/ ((let s := up.onBud (fun b => { b with rebuild := true }); ((decide (s.bud.rebuild = true) &&
      decide (s.pwr.bootState = .firmware)) : Bool)) : Bool) = true := by
  decide +kernel

theorem test_witness_SlotTurnsAndProfileChanges_2 :
    /- clause 10 -/ ((let s := State.reset; (decide (s.bud.rebuild = false ∨ s.pwr.bootState ≠ .firmware) : Bool)) : Bool) = true := by
  decide +kernel

theorem test_witness_ChannelsTrainAndRecentre :
    /- clause 0 -/ ((let s := up; let ch : Fin 16 := 15; let r : BitVec 16 := 0xFFFF; ((decide (s.pwr.power = .staging) &&
      (decide (s.pwr.bootState = .firmware) && (decide (r.toNat = fullCard ∨ r.toNat = reducedCard) &&
      decide (maskBit r.toNat ch.val = true)))) : Bool)) : Bool) = true ∧
    /- clause 1 -/ ((let s := up; let ch : Fin 16 := 0; let r : BitVec 16 := BitVec.ofNat 16 reducedCard;
      ((decide (s.pwr.power = .staging) && (decide (s.pwr.bootState = .firmware) &&
      (decide (r.toNat = fullCard ∨ r.toNat = reducedCard) && decide (maskBit r.toNat ch.val = true)))) : Bool)) : Bool) = true ∧
    /- clause 2 -/ ((let s := up; let r : BitVec 16 := 0; ((decide (s.pwr.power = .staging) && (decide (s.pwr.bootState = .firmware) &&
      (decide (r.toNat ≠ fullCard) && decide (r.toNat ≠ reducedCard)))) : Bool)) : Bool) = true ∧
    /- clause 3 -/ ((let s := active; (decide (s.pwr.power ≠ .staging ∨ s.pwr.bootState ≠ .firmware) : Bool)) : Bool) = true ∧
    /- clause 4 -/ ((let s := { active with mem := { MemSt.reset with chans := [(15, ⟨true, false, 0, 0, 0, 0⟩)] } };
      let ch : Fin 16 := 15; ((decide (s.pwr.power = .active) && (decide (s.pwr.bootState = .firmware) &&
      decide ((tget chanReset s.mem.chans ch.val).trained = true))) : Bool)) : Bool) = true ∧
    /- clause 5 -/ ((let s := up; let ch : Fin 16 := 0;
      (decide (s.pwr.power ≠ .active ∨ (tget chanReset s.mem.chans ch.val).trained = false) : Bool)) : Bool) = true := by
  decide +kernel

theorem test_witness_TileCommitStoresTheTileAndItsCheckRecord :
    /- clause 0 -/ ((let s := writing; let r : Fin 8192 := 8191;
      ((match (s.wr r.val).staged with | x :: rest => (decide (s.hasCredit (.write r.val) (s.channelAt r.val x.eseq) = true) && (decide (s.winsSlot r.val x = true) && decide (ringTile (s.ring r.val) x.eseq < ringSpace s.pwr.reduced))) | _ => false) : Bool)) : Bool) = true ∧
    /- clause 1 -/ ((let s := up; let r : Fin 8192 := 0;
      (decide ((List.range 16).all (fun ch => decide (s.hasCredit (.write r.val) ch = false)) = true) : Bool)) : Bool) = true ∧
    /- clause 2 -/ ((let s := twoWriters; let r : Fin 8192 := 8191;
      ((match (s.wr r.val).staged with | x :: rest => decide (s.winsSlot r.val x = false) | _ => false) : Bool)) : Bool) = true ∧
    /- clause 3 -/ ((let s := up; let r : Fin 8192 := 0; ((decide ((s.wr r.val).staged = []) &&
      decide (s.compOfRing r.val = none)) : Bool)) : Bool) = true := by
  decide +kernel

theorem test_witness_TileReadsJudgeEveryTile :
    /- clause 0 -/ ((let s := readers; let i : Fin 1024 := 1023; let k : Fin 4 := 3; let e : BitVec 32 := 0;
      ((decide (s.cal.run = true) && (decide (s.blockHeld 48 = false) &&
      (decide (fbit (tget audInReset s.cal.audIn i.val) AudIn.inEn = true) &&
      (let r := fget (tget audInReset s.cal.audIn i.val) AudIn.inRing;
      decide (s.hasCredit (.calRead i.val k.val) (s.channelAt r e) = true))))) : Bool)) : Bool) = true ∧
    /- clause 1 -/ ((let s := up; let i : Fin 1024 := 1023; let k : Fin 4 := 3; let e : BitVec 32 := 0;
      (decide (s.cal.run = false ∨ s.hasCredit (.calRead i.val k.val) (s.channelAt (fget (tget audInReset s.cal.audIn i.val) AudIn.inRing) e) = false) : Bool)) : Bool) = true ∧
    /- clause 2 -/ ((let s := readers; let i : Fin 1024 := 1023; let k : Fin 4 := 3; let e : BitVec 32 := 0;
      ((decide (s.cal.run = true) && (decide (s.blockHeld 48 = false) &&
      (decide (fbit (tget audInReset s.cal.audIn i.val) AudIn.inEn = true) &&
      decide (s.hasCredit (.calRead i.val k.val) (s.channelAt (fget (tget audInReset s.cal.audIn i.val) AudIn.inRing) e) = true)))) : Bool)) : Bool) = true ∧
    /- clause 3 -/ ((let s := readers; let m : Fin 1024 := 1023; let sec := true; let e : BitVec 32 := 0;
      ((decide (fbit (s.mergeRec m.val) Merge.mergeEn = true) && (decide (s.blockHeld 52 = false) &&
      (let r := fget (s.mergeRec m.val) (if sec then Merge.secondaryRing else Merge.primaryRing);
      decide (s.hasCredit (.merge m.val (bit sec)) (s.channelAt r e) = true)))) : Bool)) : Bool) = true ∧
    /- clause 4 -/ ((let s := up; let o : Fin 2048 := 2047; (decide (s.outFmt o.val = none) : Bool)) : Bool) = true := by
  decide +kernel

theorem test_witness_RouteEventsTakeEffect :
    /- clause 0 -/ ((let s := pend ready; let o : Fin 2048 := 5;
      ((match s.outFmt o.val with | some f => (decide (s.planeOn f.plane = true) && decide (s.applies (s.routeP o.val) (s.stampOf f.plane (f.nextSwitch (s.planeTu f.plane + leadTu s.bud.profile (s.entryHops (s.routeP o.val)) f.fmt.rate f.total - f.line))) = true)) | _ => false) : Bool)) : Bool) = true ∧
    /- clause 1 -/ ((let s := fmted; let o : Fin 2048 := 5;
      ((match s.outFmt o.val with | some f => (decide (s.planeOn f.plane = true) && (decide (fget (s.routeP o.val) RouteEntry.pendState ≠ 2) && decide (fget (s.routeP o.val) RouteEntry.pendState ≠ pendHeld ∨ s.armed (fget (s.routeP o.val) RouteEntry.salvoId) = 0))) | _ => false) : Bool)) : Bool) = true ∧
    /- clause 2 -/ ((up.outFmt 2047).isNone : Bool) = true ∧
    /- clause 4 -/ ((let s := fmted.setOut 5 { outReset 5 with latched := some ready }; let o : Fin 2048 := 5;
      ((match (s.out o.val).latched with | some p => (match s.outFmt o.val with | some f => true | _ => false) | _ => false) : Bool)) : Bool) = true ∧
    /- clause 5 -/ ((let s := up; let o : Fin 2048 := 0;
      (decide ((s.out o.val).latched = none ∨ s.outFmt o.val = none) : Bool)) : Bool) = true ∧
    /- clause 6 -/ ((let s := framed; let o : Fin 2048 := 5;
      ((match s.outFmt o.val with | some f => (decide (fbit (s.routeA o.val) RouteEntry.videoEn = true) && (decide (entryMode (s.routeA o.val) ≠ 0) && (decide (s.formatMatches (s.routeA o.val) f = true) && (decide (s.isIsolated 0x66 (s.locOut o.val) = false) && (let r := fget (s.routeA o.val) RouteEntry.videoRing; (match s.choice (s.routeA o.val) with | some m => true | _ => false)))))) | _ => false) : Bool)) : Bool) = true ∧
    /- clause 7 -/ ((let s := act frameSync; let o : Fin 2048 := 5;
      ((match s.outFmt o.val with | some f => (decide (fbit (s.routeA o.val) RouteEntry.videoEn = true) && (decide (entryMode (s.routeA o.val) ≠ 0) && (decide (s.formatMatches (s.routeA o.val) f = false) && decide ((s.out o.val).mismatch = false)))) | _ => false) : Bool)) : Bool) = true ∧
    /- clause 8 -/ ((let s := up; let o : Fin 2048 := 0;
      (decide (s.outFmt o.val = none ∨ fbit (s.routeA o.val) RouteEntry.videoEn = false ∨ entryMode (s.routeA o.val) = 0) : Bool)) : Bool) = true ∧
    /- clause 10 -/ ((let s := pend ready; let o : Fin 2048 := 5;
      ((match s.outFmt o.val with | some f => (decide (s.planeOn f.plane = true) && (decide (fget (s.routeP o.val) RouteEntry.audioMode ≠ 0) && (decide (fget (s.routeP o.val) RouteEntry.audioRamp ≠ 0) && (decide (s.applies (s.routeP o.val) (s.stampOf f.plane (f.nextSwitch (s.planeTu f.plane))) = true) && decide ((s.out o.val).audLatched ≠ some (s.routeP o.val)))))) | _ => false) : Bool)) : Bool) = true := by
  decide +kernel

theorem test_witness_FramesStartAndTakesAreAcknowledged :
    /- clause 0 -/ ((let s := up; let o : Fin 2048 := 2047; (decide (s.outFmt o.val = none) : Bool)) : Bool) = true ∧
    /- clause 1 -/ ((let s := fmted; let o : Fin 2048 := 5;
      ((match s.outFmt o.val with | some f => true | _ => false) : Bool)) : Bool) = true ∧
    /- clause 2 -/ ((let s := taking 0; let n : Fin 64 := 63; let m : Fin 8 := 7; ((decide (s.ctl.jobs.any (takeJob n.val) = true) &&
      (decide (maskBit (s.salvo n.val).acks m.val = false) &&
      decide ((otherMembers s (s.salvo n.val)).all (maskBit ((s.salvo n.val).acks + 2 ^ m.val)) = false))) : Bool)) : Bool) = true ∧
    /- clause 3 -/ ((let s := taking 0; let n : Fin 64 := 63; let m : Fin 8 := 1;
      ((match s.ctl.jobs.find? (takeJob n.val) with | some j => (decide (maskBit (s.salvo n.val).acks m.val = false) && decide ((otherMembers s (s.salvo n.val)).all (maskBit ((s.salvo n.val).acks + 2 ^ m.val)) = true)) | _ => false) : Bool)) : Bool) = true ∧
    /- clause 4 -/ ((let s := taking 128; let n : Fin 64 := 63; let m : Fin 8 := 7;
      (decide (s.ctl.jobs.any (takeJob n.val) = false ∨ maskBit (s.salvo n.val).acks m.val = true) : Bool)) : Bool) = true ∧
    /- clause 5 -/ ((let s := taking 0; let n : Fin 64 := 63;
      ((match s.ctl.jobs.find? (takeJob n.val) with | some j => (let b := leBytes 1 (listMask ((maskList 8 (salvoMembers (s.salvo n.val))).filter (maskBit (s.salvo n.val).acks))) ++ leBytes 1 (listMask ((maskList 8 (salvoMembers (s.salvo n.val))).filter (fun m => !maskBit (s.salvo n.val).acks m))); true) | _ => false) : Bool)) : Bool) = true ∧
    /- clause 6 -/ ((let s := up; let n : Fin 64 := 63; (decide (s.ctl.jobs.any (takeJob n.val) = false) : Bool)) : Bool) = true := by
  decide +kernel

theorem test_witness_SdiReceiversSearchLockAndLose_1 :
    /- clause 0 -/ ((let s := rx (laneReset 0); let l : Fin 144 := 143; ((decide (s.rxOn l.val = true) &&
      decide ((s.lane l.val).lock = .noSignal)) : Bool)) : Bool) = true ∧
    /- clause 1 -/ ((let s := up; let l : Fin 144 := 143;
      (decide (s.rxOn l.val = false ∨ (s.lane l.val).lock ≠ .noSignal) : Bool)) : Bool) = true ∧
    /- clause 2 -/ ((let s := up; let l : Fin 144 := 0; (decide (s.rxBond l.val = 0) : Bool)) : Bool) = true ∧
    /- clause 3 -/ ((let s := rx (lane .searching); let l : Fin 144 := 143; ((decide ((s.lane l.val).lock = .searching) &&
      decide ((s.lane l.val).cdr = false)) : Bool)) : Bool) = true ∧
    /- clause 4 -/ ((let s := up; let l : Fin 144 := 143; (decide ((s.lane l.val).lock ≠ .searching) : Bool)) : Bool) = true ∧
    /- clause 5 -/ ((let s := rx (lane .searching); let l : Fin 144 := 143;
      (decide ((s.lane l.val).lock = .searching) : Bool)) : Bool) = true ∧
    /- clause 6 -/ ((let s := rx { lane .searching with cdr := true }; let l : Fin 144 := 143;
      ((decide ((s.lane l.val).lock = .searching) && decide ((s.lane l.val).cdr = true)) : Bool)) : Bool) = true ∧
    /- clause 7 -/ ((let s := rx { lane .searching with cdr := true }; let l : Fin 144 := 143;
      ((decide ((s.lane l.val).lock = .searching) && decide ((s.lane l.val).cdr = true)) : Bool)) : Bool) = true ∧
    /- clause 8 -/ ((let s := rx (lane .formatLocked); let l : Fin 144 := 143; ((decide (s.rxBond l.val = 0) &&
      decide ((s.lane l.val).lock = .cdrLocked ∨ (s.lane l.val).lock = .formatLocked)) : Bool)) : Bool) = true ∧
    /- clause 9 -/ ((let s := rx (lane .searching); let l : Fin 144 := 143;
      (decide ((s.lane l.val).lock = .searching) : Bool)) : Bool) = true := by
  decide +kernel

theorem test_witness_SdiReceiversSearchLockAndLose_2 :
    /- clause 10 -/ ((let s := up; let l : Fin 144 := 143; (decide ((s.lane l.val).lock = .noSignal) : Bool)) : Bool) = true ∧
    /- clause 11 -/ ((let s := up; let l : Fin 144 := 143;
      (decide ((s.lane l.val).lock = .noSignal ∨ (s.lane l.val).lock = .searching) : Bool)) : Bool) = true ∧
    /- clause 12 -/ ((let s := rx (lane .cdrLocked); let l : Fin 144 := 143; let i := line1;
      ((decide ((s.lane l.val).lock = .cdrLocked) && (decide (i.number = 1) && decide (i.trs = true))) : Bool)) : Bool) = true ∧
    /- clause 13 -/ ((let s := rx (lane .formatLocked); let l : Fin 144 := 143; let i := line1; ((decide (s.rxBond l.val = 0) &&
      (decide ((s.lane l.val).lock = .formatLocked) && decide (i.trs = true))) : Bool)) : Bool) = true ∧
    /- clause 14 -/ ((let s := rx { lane .formatLocked with badTrs := 2 }; let l : Fin 144 := 143; let i := { line1 with trs := false };
      ((decide (s.rxBond l.val = 0) && (decide ((s.lane l.val).lock = .formatLocked) && (decide (i.trs = false) &&
      decide (2 ≤ (s.lane l.val).badTrs)))) : Bool)) : Bool) = true ∧
    /- clause 15 -/ ((let s := up; let l : Fin 144 := 0; ((decide (s.rxBond l.val = 0) &&
      decide ((s.lane l.val).lock = .noSignal ∨ (s.lane l.val).lock = .searching)) : Bool)) : Bool) = true ∧
    /- clause 16 -/ ((let s := rx (lane .cdrLocked); let l : Fin 144 := 143; let i := frame1;
      let f : VFmt := { raster with sample := (up.rxJudge (.lane 143) frame1).1.sample }; let c := false;
      ((decide (s.rxBond l.val = 0) && (decide ((s.lane l.val).lock = .cdrLocked) &&
      (decide (s.rxJudge (.lane l.val) i = (f, true, c)) && decide ((s.lane l.val).cand = none)))) : Bool)) : Bool) = true ∧
    /- clause 17 -/ ((let s := rx { lane .cdrLocked with cand := some { raster with sample := (up.rxJudge (.lane 143) frame1).1.sample }, candLink := 2 }; let l : Fin 144 := 143; let i := frame1; let f : VFmt := { raster with sample := (up.rxJudge (.lane 143) frame1).1.sample }; let c := false; ((decide (s.rxBond l.val = 0) && (decide ((s.lane l.val).lock = .cdrLocked) && (decide (s.rxJudge (.lane l.val) i = (f, true, c)) && (match (s.lane l.val).cand with | some g => (decide (sameFormat f g = true) && decide ((s.lane l.val).candLink = i.link)) | _ => false)))) : Bool)) : Bool) = true ∧
    /- clause 18 -/ ((let s := rx (lane .cdrLocked); let l : Fin 144 := 143; ((decide (s.rxBond l.val = 0) &&
      decide ((s.lane l.val).lock = .searching ∨ ((s.lane l.val).lock = .cdrLocked ∧ (s.lane l.val).unsup = false))) : Bool)) : Bool) = true ∧
    /- clause 19 -/ ((let s := rx (lane .formatLocked); let l : Fin 144 := 143;
      (decide ((s.lane l.val).lock = .noSignal ∨ (s.lane l.val).lock = .formatLocked) : Bool)) : Bool) = true := by
  decide +kernel

theorem test_witness_SdiReceiversSearchLockAndLose_3 :
    /- clause 20 -/ ((let s := rx { lane .formatLocked with started := true }; let l : Fin 144 := 143; let g : Fin 8 := 7;
      ((decide (s.rxBond l.val = 0) && (decide (s.rxWrites (.lane l.val) = true) &&
      (match s.audRingOf (.lane l.val) (g.val / 4) with | some r => decide ((s.lane l.val).lost.contains g.val = false) | _ => false))) : Bool)) : Bool) = true ∧
    /- clause 21 -/ ((let s := up; let l : Fin 144 := 143; let g : Fin 8 := 7; ((decide (s.rxBond l.val = 0) &&
      decide (s.rxWrites (.lane l.val) = false ∨ s.audRingOf (.lane l.val) (g.val / 4) = none ∨ (s.lane l.val).lost.contains g.val = true)) : Bool)) : Bool) = true ∧
    /- clause 22 -/ ((let s := bonded; let l : Fin 144 := 141; ((decide (s.rxBond l.val ≠ 0) &&
      (decide ((s.lane (leaderOf l.val)).lock = .formatLocked) &&
      decide ((s.lane l.val).lock = .cdrLocked ∨ (s.lane l.val).lock = .formatLocked))) : Bool)) : Bool) = true ∧
    /- clause 23 -/ ((let s := bonded; let l : Fin 144 := 141; let i := frame1; ((decide (s.rxBond l.val ≠ 0) &&
      (decide ((s.lane l.val).lock = .cdrLocked ∨ (s.lane l.val).lock = .formatLocked) && (decide (i.pid = none) &&
      decide ((s.lane (leaderOf l.val)).bondBad = false)))) : Bool)) : Bool) = true ∧
    /- clause 24 -/ ((let s := rx (lane .noSignal); let l : Fin 144 := 143; (decide (s.txOn l.val = true) : Bool)) : Bool) = true ∧
    /- clause 25 -/ ((let s := up; let l : Fin 144 := 143; (decide (s.txOn l.val = false) : Bool)) : Bool) = true := by
  decide +kernel

theorem test_witness_EthernetPortsReceiveAndPause_1 :
    /- clause 0 -/ ((let s := { up with eth := { EthSt.reset with port := [(3, put (ethReset 0) [(EthPort.split, 3)])], sub := [(31, { subReset 0 with link := .training })] } }; decide ((s.sub 31).link = .training) && decide (s.subLanes 31 ≠ 0)) : Bool) = true ∧
    /- clause 1 -/ ((let ctr (s : State) (p : Fin 32) (k : Nat) : BitVec 64 := tget zero64 s.eth.ctr (96 * (p.val / 8) + 12 * (p.val % 8) + k); let wd (s : State) (p : Fin 32) : Nat := fget (s.ethPort (p.val / 8)) EthPort.pauseWd * 1000; let due (s : State) (p : Fin 32) (h : Hold802) : Prop := ∃ u, h.until_ = some u ∧ wd s p ≤ (u - h.since).toNat ∧ wd s p ≤ (s.time.clk - h.since).toNat; let recent (s : State) (p : Fin 32) (f : EthFrame) : Nat := (((s.sub p.val).fecBad.filter (fun x => (s.time.clk - x.1).toNat < 1000000)).map (·.2)).sum + (f.fec.map (·.2)).sum; let s := up; let p : Fin 32 := 31; (decide ((s.sub p.val).link ≠ .training ∨ s.subLanes p.val = 0) : Bool)) : Bool) = true ∧
    /- clause 2 -/ ((let ctr (s : State) (p : Fin 32) (k : Nat) : BitVec 64 := tget zero64 s.eth.ctr (96 * (p.val / 8) + 12 * (p.val % 8) + k); let wd (s : State) (p : Fin 32) : Nat := fget (s.ethPort (p.val / 8)) EthPort.pauseWd * 1000; let due (s : State) (p : Fin 32) (h : Hold802) : Prop := ∃ u, h.until_ = some u ∧ wd s p ≤ (u - h.since).toNat ∧ wd s p ≤ (s.time.clk - h.since).toNat; let recent (s : State) (p : Fin 32) (f : EthFrame) : Nat := (((s.sub p.val).fecBad.filter (fun x => (s.time.clk - x.1).toNat < 1000000)).map (·.2)).sum + (f.fec.map (·.2)).sum; let s := sub subUp; let p : Fin 32 := 31; (decide (s.subUp p.val = true) : Bool)) : Bool) = true ∧
    /- clause 3 -/ ((let ctr (s : State) (p : Fin 32) (k : Nat) : BitVec 64 := tget zero64 s.eth.ctr (96 * (p.val / 8) + 12 * (p.val % 8) + k); let wd (s : State) (p : Fin 32) : Nat := fget (s.ethPort (p.val / 8)) EthPort.pauseWd * 1000; let due (s : State) (p : Fin 32) (h : Hold802) : Prop := ∃ u, h.until_ = some u ∧ wd s p ≤ (u - h.since).toNat ∧ wd s p ≤ (s.time.clk - h.since).toNat; let recent (s : State) (p : Fin 32) (f : EthFrame) : Nat := (((s.sub p.val).fecBad.filter (fun x => (s.time.clk - x.1).toNat < 1000000)).map (·.2)).sum + (f.fec.map (·.2)).sum; let s := sub subUp; let p : Fin 32 := 31; ((decide (s.subUp p.val = true) && decide (s.blockHeld (ethBlock (p.val / 8)) = false)) : Bool)) : Bool) = true ∧
    /- clause 4 -/ ((let ctr (s : State) (p : Fin 32) (k : Nat) : BitVec 64 := tget zero64 s.eth.ctr (96 * (p.val / 8) + 12 * (p.val % 8) + k); let wd (s : State) (p : Fin 32) : Nat := fget (s.ethPort (p.val / 8)) EthPort.pauseWd * 1000; let due (s : State) (p : Fin 32) (h : Hold802) : Prop := ∃ u, h.until_ = some u ∧ wd s p ≤ (u - h.since).toNat ∧ wd s p ≤ (s.time.clk - h.since).toNat; let recent (s : State) (p : Fin 32) (f : EthFrame) : Nat := (((s.sub p.val).fecBad.filter (fun x => (s.time.clk - x.1).toNat < 1000000)).map (·.2)).sum + (f.fec.map (·.2)).sum; let s := sub subUp; let p : Fin 32 := 31; (decide (s.subUp p.val = true) : Bool)) : Bool) = true ∧
    /- clause 5 -/ ((let ctr (s : State) (p : Fin 32) (k : Nat) : BitVec 64 := tget zero64 s.eth.ctr (96 * (p.val / 8) + 12 * (p.val % 8) + k); let wd (s : State) (p : Fin 32) : Nat := fget (s.ethPort (p.val / 8)) EthPort.pauseWd * 1000; let due (s : State) (p : Fin 32) (h : Hold802) : Prop := ∃ u, h.until_ = some u ∧ wd s p ≤ (u - h.since).toNat ∧ wd s p ≤ (s.time.clk - h.since).toNat; let recent (s : State) (p : Fin 32) (f : EthFrame) : Nat := (((s.sub p.val).fecBad.filter (fun x => (s.time.clk - x.1).toNat < 1000000)).map (·.2)).sum + (f.fec.map (·.2)).sum; let s := sub subUp; let p : Fin 32 := 31; (decide (s.subUp p.val = true) : Bool)) : Bool) = true ∧
    /- clause 7 -/ ((let ctr (s : State) (p : Fin 32) (k : Nat) : BitVec 64 := tget zero64 s.eth.ctr (96 * (p.val / 8) + 12 * (p.val % 8) + k); let wd (s : State) (p : Fin 32) : Nat := fget (s.ethPort (p.val / 8)) EthPort.pauseWd * 1000; let due (s : State) (p : Fin 32) (h : Hold802) : Prop := ∃ u, h.until_ = some u ∧ wd s p ≤ (u - h.since).toNat ∧ wd s p ≤ (s.time.clk - h.since).toNat; let recent (s : State) (p : Fin 32) (f : EthFrame) : Nat := (((s.sub p.val).fecBad.filter (fun x => (s.time.clk - x.1).toNat < 1000000)).map (·.2)).sum + (f.fec.map (·.2)).sum; let s := up; let i := 7; (decide (i < 8) : Bool)) : Bool) = true ∧
    /- clause 8 -/ ((let s := { sub { subReset 0 with mgmtHold := ⟨some 5000000, 0, none⟩ } with time := { TimeSt.reset with clk := 2000000 } }; (s.sub 31).mgmtHold.until_.isSome && decide (fget (s.ethPort 3) EthPort.pauseWd * 1000 ≤ (s.time.clk - (s.sub 31).mgmtHold.since).toNat) && decide (fget (s.ethPort 3) EthPort.pauseWd * 1000 ≤ 5000000)) : Bool) = true ∧
    /- clause 9 -/ ((let s := { sub { subReset 0 with mediaHold := [(7, ⟨some 5000000, 0, none⟩)] } with time := { TimeSt.reset with clk := 2000000 } }; (tget holdAt (s.sub 31).mediaHold 7).until_.isSome && decide (fget (s.ethPort 3) EthPort.pauseWd * 1000 ≤ (s.time.clk - (tget holdAt (s.sub 31).mediaHold 7).since).toNat) && decide (fget (s.ethPort 3) EthPort.pauseWd * 1000 ≤ 5000000)) : Bool) = true ∧
    /- clause 10 -/ (((up.sub 31).classHolds true).all (fun h => h.until_.isNone) &&
      ((up.sub 31).classHolds false).all (fun h => h.until_.isNone) : Bool) = true := by
  decide +kernel

theorem test_witness_EthernetPortsReceiveAndPause_2 :
    /- clause 12 -/ ((let ctr (s : State) (p : Fin 32) (k : Nat) : BitVec 64 := tget zero64 s.eth.ctr (96 * (p.val / 8) + 12 * (p.val % 8) + k); let wd (s : State) (p : Fin 32) : Nat := fget (s.ethPort (p.val / 8)) EthPort.pauseWd * 1000; let due (s : State) (p : Fin 32) (h : Hold802) : Prop := ∃ u, h.until_ = some u ∧ wd s p ≤ (u - h.since).toNat ∧ wd s p ≤ (s.time.clk - h.since).toNat; let recent (s : State) (p : Fin 32) (f : EthFrame) : Nat := (((s.sub p.val).fecBad.filter (fun x => (s.time.clk - x.1).toNat < 1000000)).map (·.2)).sum + (f.fec.map (·.2)).sum; let s := up; let i := 7; (decide (i < 8) : Bool)) : Bool) = true ∧
    /- clause 13 -/ ((let ctr (s : State) (p : Fin 32) (k : Nat) : BitVec 64 := tget zero64 s.eth.ctr (96 * (p.val / 8) + 12 * (p.val % 8) + k); let wd (s : State) (p : Fin 32) : Nat := fget (s.ethPort (p.val / 8)) EthPort.pauseWd * 1000; let due (s : State) (p : Fin 32) (h : Hold802) : Prop := ∃ u, h.until_ = some u ∧ wd s p ≤ (u - h.since).toNat ∧ wd s p ≤ (s.time.clk - h.since).toNat; let recent (s : State) (p : Fin 32) (f : EthFrame) : Nat := (((s.sub p.val).fecBad.filter (fun x => (s.time.clk - x.1).toNat < 1000000)).map (·.2)).sum + (f.fec.map (·.2)).sum; let s := sub { subUp with txq := [.report none [1]] }; let p : Fin 32 := 31; ((match (s.sub p.val).txq with | .report vid b :: rest => (decide (s.subUp p.val = true) && (decide ((s.sub p.val).mgmtHold.on s.time.clk = false) && (let tag := s.mgmtTag p.val vid; (let f := tagged tag b; true)))) | _ => false) : Bool)) : Bool) = true ∧
    /- clause 14 -/ ((let ctr (s : State) (p : Fin 32) (k : Nat) : BitVec 64 := tget zero64 s.eth.ctr (96 * (p.val / 8) + 12 * (p.val % 8) + k); let wd (s : State) (p : Fin 32) : Nat := fget (s.ethPort (p.val / 8)) EthPort.pauseWd * 1000; let due (s : State) (p : Fin 32) (h : Hold802) : Prop := ∃ u, h.until_ = some u ∧ wd s p ≤ (u - h.since).toNat ∧ wd s p ≤ (s.time.clk - h.since).toNat; let recent (s : State) (p : Fin 32) (f : EthFrame) : Nat := (((s.sub p.val).fecBad.filter (fun x => (s.time.clk - x.1).toNat < 1000000)).map (·.2)).sum + (f.fec.map (·.2)).sum; let s := sub { subUp with txq := [.ptp 3 1 7 false] }; let p : Fin 32 := 31; ((match (s.sub p.val).txq with | .ptp i kind seq soft :: rest => (decide (s.subUp p.val = true) && (decide ((s.sub p.val).mgmtHold.on s.time.clk = false) && (let tag := s.mgmtTag p.val none; true))) | _ => false) : Bool)) : Bool) = true ∧
    /- clause 15 -/ ((let ctr (s : State) (p : Fin 32) (k : Nat) : BitVec 64 := tget zero64 s.eth.ctr (96 * (p.val / 8) + 12 * (p.val % 8) + k); let wd (s : State) (p : Fin 32) : Nat := fget (s.ethPort (p.val / 8)) EthPort.pauseWd * 1000; let due (s : State) (p : Fin 32) (h : Hold802) : Prop := ∃ u, h.until_ = some u ∧ wd s p ≤ (u - h.since).toNat ∧ wd s p ≤ (s.time.clk - h.since).toNat; let recent (s : State) (p : Fin 32) (f : EthFrame) : Nat := (((s.sub p.val).fecBad.filter (fun x => (s.time.clk - x.1).toNat < 1000000)).map (·.2)).sum + (f.fec.map (·.2)).sum; let s := (sub subUp).onCtl (fun c => { c with inband := [⟨31, 5, [1]⟩] }); let p : Fin 32 := 31; ((decide ((s.sub p.val).txq = []) && (match s.ctl.inband.find? (fun x => x.sub == p.val) with | some x => (decide (s.subUp p.val = true) && (decide ((s.sub p.val).mgmtHold.on s.time.clk = false) && (let tag := s.mgmtTag p.val none; true))) | _ => false)) : Bool)) : Bool) = true ∧
    /- clause 16 -/ ((let ctr (s : State) (p : Fin 32) (k : Nat) : BitVec 64 := tget zero64 s.eth.ctr (96 * (p.val / 8) + 12 * (p.val % 8) + k); let wd (s : State) (p : Fin 32) : Nat := fget (s.ethPort (p.val / 8)) EthPort.pauseWd * 1000; let due (s : State) (p : Fin 32) (h : Hold802) : Prop := ∃ u, h.until_ = some u ∧ wd s p ≤ (u - h.since).toNat ∧ wd s p ≤ (s.time.clk - h.since).toNat; let recent (s : State) (p : Fin 32) (f : EthFrame) : Nat := (((s.sub p.val).fecBad.filter (fun x => (s.time.clk - x.1).toNat < 1000000)).map (·.2)).sum + (f.fec.map (·.2)).sum; let s := up; let p : Fin 32 := 0; (decide (((s.sub p.val).txq = [] ∧ s.ctl.inband.find? (fun x => x.sub == p.val) = none) ∨ s.subUp p.val = false ∨ (s.sub p.val).mgmtHold.on s.time.clk = true) : Bool)) : Bool) = true ∧
    /- clause 17 -/ ((let ctr (s : State) (p : Fin 32) (k : Nat) : BitVec 64 := tget zero64 s.eth.ctr (96 * (p.val / 8) + 12 * (p.val % 8) + k); let wd (s : State) (p : Fin 32) : Nat := fget (s.ethPort (p.val / 8)) EthPort.pauseWd * 1000; let due (s : State) (p : Fin 32) (h : Hold802) : Prop := ∃ u, h.until_ = some u ∧ wd s p ≤ (u - h.since).toNat ∧ wd s p ≤ (s.time.clk - h.since).toNat; let recent (s : State) (p : Fin 32) (f : EthFrame) : Nat := (((s.sub p.val).fecBad.filter (fun x => (s.time.clk - x.1).toNat < 1000000)).map (·.2)).sum + (f.fec.map (·.2)).sum; let s := up; let p : Fin 32 := 0; (decide (s.subUp p.val = false) : Bool)) : Bool) = true := by
  decide +kernel

theorem test_witness_FlowTableEventsTakeEffect_1 :
    /- clause 1 -/ ((let f := flow; ((decide (fget f.key FlowEntry.declRate ≠ 0) &&
      decide (fget f.key FlowEntry.declRate < f.windowSum)) : Bool)) : Bool) = true ∧
    /- clause 2 -/ ((let s := { flowing flow with time := { TimeSt.reset with clk := 10000000 } }; let e : Fin 262160 := 0;
      ((match s.flowAt e.val with | some f => (decide (f.present = true) && decide (f.lastSeen + (if fget f.key FlowEntry.absentTime = 0 then 10 else fget f.key FlowEntry.absentTime) * 1000000 ≤ s.now)) | _ => false) : Bool)) : Bool) = true ∧
    /- clause 3 -/ ((let s := flowing flow; let e : Fin 262160 := 0;
      ((match s.flowAt e.val with | some f => decide (f.present = false ∨ s.now < f.lastSeen + (if fget f.key FlowEntry.absentTime = 0 then 10 else fget f.key FlowEntry.absentTime) * 1000000) | _ => false) : Bool)) : Bool) = true ∧
    /- clause 4 -/ ((let s := flowing { flow with place := .stash 15 }; let e : Fin 262160 := 262159;
      ((match s.flowAt e.val with | some f => true | _ => false) : Bool)) : Bool) = true ∧
    /- clause 5 -/ ((let s := flowing flow; let e : Fin 262160 := 0;
      ((match s.flowAt e.val with | some f => true | _ => false) : Bool)) : Bool) = true ∧
    /- clause 6 -/ ((let s := up; let e : Fin 262160 := 262159; (decide (s.flowAt e.val = none) : Bool)) : Bool) = true ∧
    /- clause 7 -/ ((let s := sub { subUp with owed := [⟨1, true, false, false, none, 1⟩] }; let p : Fin 32 := 31;
      let g : BitVec 128 := 1; let v6 := true; let lv := false;
      ((match (s.sub p.val).owed.find? (fun o => o.group == g.toNat && o.v6 == v6 && o.leaving == lv) with | some o => decide (s.fwRuns = true) | _ => false) : Bool)) : Bool) = true ∧
    /- clause 8 -/ ((let s := up; let p : Fin 32 := 31; let g : BitVec 128 := 1; let v6 := true; let lv := false;
      (decide ((s.sub p.val).owed.find? (fun o => o.group == g.toNat && o.v6 == v6 &&
      o.leaving == lv) = none ∨ s.fwRuns = false) : Bool)) : Bool) = true ∧
    /- clause 9 -/ ((let s := sub subUp; let p : Fin 32 := 31; ((decide (s.fwRuns = true) &&
      decide (s.subUp p.val = true)) : Bool)) : Bool) = true ∧
    /- clause 10 -/ ((let s := sub subUp; let p : Fin 32 := 31; ((decide (s.fwRuns = true) &&
      decide (s.subUp p.val = true)) : Bool)) : Bool) = true := by
  decide +kernel

theorem test_witness_FlowTableEventsTakeEffect_2 :
    /- clause 11 -/ ((let s := up; let p : Fin 32 := 31; (decide (s.fwRuns = false ∨ s.subUp p.val = false) : Bool)) : Bool) = true ∧
    /- clause 13 -/ ((let s := packets; let f : Fin 4096 := 4095;
      ((match s.outFmt (fget (s.pktRec f.val) PktFlow.output) with | some fmt => (decide (fbit (s.pktRec f.val) PktFlow.flowEn = true) && (decide ((s.out (fget (s.pktRec f.val) PktFlow.output)).running = true) && (decide (s.pktHeld f.val (s.pktRec f.val) = false) && (decide (s.blockHeld (ethBlock (fget (s.pktRec f.val) PktFlow.port)) = false) && (decide (fget (s.pktRec f.val) PktFlow.essence = 0) && decide (s.inExtra fmt.plane = false)))))) | _ => false) : Bool)) : Bool) = true ∧
    /- clause 14 -/ ((let s := up; let f : Fin 4096 := 4095;
      (decide (s.outFmt (fget (s.pktRec f.val) PktFlow.output) = none ∨ fbit (s.pktRec f.val) PktFlow.flowEn = false ∨ (s.out (fget (s.pktRec f.val) PktFlow.output)).running = false ∨ s.pktHeld f.val (s.pktRec f.val) = true) : Bool)) : Bool) = true := by
  decide +kernel

theorem test_witness_EssenceEnginesTakeTheirSteps_1 :
    /- clause 0 -/ ((let s := audioRing; let r : Fin 8192 := 8191;
      ((match (s.dep r.val).next with | some k => decide (((k + 1) * ringMs (s.ring r.val) - 1) * 1000000000 + 2000000 * ringHz (s.ring r.val) ≤ s.now * ringHz (s.ring r.val)) | _ => false) : Bool)) : Bool) = true ∧
    /- clause 1 -/ ((let s := up; let r : Fin 8192 := 0;
      (decide ((s.dep r.val).next = none ∨ ∃ k, (s.dep r.val).next = some k ∧ s.now * ringHz (s.ring r.val) < ((k + 1) * ringMs (s.ring r.val) - 1) * 1000000000 + 2000000 * ringHz (s.ring r.val)) : Bool)) : Bool) = true ∧
    /- clause 2 -/ ((let s := merging; let m : Fin 1024 := 1023; ((decide (fbit (s.mergeRec m.val) Merge.mergeEn = true) &&
      (decide (s.blockHeld mergeBlock = false) &&
      (match (s.mergeSt m.val).unit with | some n => true | _ => false))) : Bool)) : Bool) = true ∧
    /- clause 3 -/ ((let s := up; let m : Fin 1024 := 0;
      (decide (fbit (s.mergeRec m.val) Merge.mergeEn = false ∨ s.blockHeld mergeBlock = true) : Bool)) : Bool) = true ∧
    /- clause 4 -/ ((let s := converting; let c : Fin 16 := 15; let k : Fin 4 := 3; ((decide (s.compHeld c.val = false) &&
      decide (s.compActive (4 * c.val + k.val) = true)) : Bool)) : Bool) = true ∧
    /- clause 5 -/ ((let s := up; let c : Fin 16 := 0; let k : Fin 4 := 0;
      (decide (s.compHeld c.val = true ∨ s.compActive (4 * c.val + k.val) = false) : Bool)) : Bool) = true ∧
    /- clause 6 -/ ((let s := converting; let c : Fin 16 := 15; let k : Fin 4 := 3; ((decide (s.compHeld c.val = false) &&
      (decide (s.planeOn (fget (s.compOut (4 * c.val + k.val)) CompOut.plane) = true) &&
      (decide (fbit (s.compOut (4 * c.val + k.val)) CompOut.compEn = true) && (decide ((s.compSt (4 * c.val + k.val)).run = none) &&
      (decide (s.compGang c.val = false) && (decide (s.flt.isolated.any (fun p => p.2 == locComp c.val 9) = false) &&
      decide (s.cmp.held = []))))))) : Bool)) : Bool) = true ∧
    /- clause 7 -/ ((let s := up; let c : Fin 16 := 0; let k : Fin 4 := 0;
      (decide (s.compHeld c.val = true ∨ s.planeOn (fget (s.compOut (4 * c.val + k.val)) CompOut.plane) = false) : Bool)) : Bool) = true ∧
    /- clause 8 -/ ((let s := up; let tb : Fin 3 := 2; let i : Fin 128 := 15; (decide (tb.val = 0 ∨ i.val < 16) : Bool)) : Bool) = true ∧
    /- clause 9 -/ ((let s := up; let tb : Fin 3 := 1; let i : Fin 128 := 16; ((decide (tb.val ≠ 0) &&
      decide (16 ≤ i.val)) : Bool)) : Bool) = true := by
  decide +kernel

theorem test_witness_EssenceEnginesTakeTheirSteps_2 :
    /- clause 10 -/ ((let s := held 48; (decide (s.blockHeld 48 = true) : Bool)) : Bool) = true ∧
    /- clause 11 -/ ((let s := calOn; ((decide (s.blockHeld 48 = false) && (decide (s.cal.held = []) &&
      (decide (fbit s.cal.ctl Cal.calEn = true) && (decide (s.planeOn (fget s.cal.ctl Cal.calPlane) = true) &&
      decide (s.calIsolated = false))))) : Bool)) : Bool) = true ∧
    /- clause 12 -/ ((let s := { calOn with flt := { FltSt.reset with isolated := [(0xD0, locCal 2)] } };
      ((decide (s.blockHeld 48 = false) && (decide (s.cal.held = []) && (decide (fbit s.cal.ctl Cal.calEn = true) &&
      (decide (s.planeOn (fget s.cal.ctl Cal.calPlane) = true) && decide (s.calIsolated = true))))) : Bool)) : Bool) = true ∧
    /- clause 13 -/ ((let s := { up with cal := { CalSt.reset with run := true } }; ((decide (s.blockHeld 48 = false) &&
      (decide (s.cal.held = []) && (decide (fbit s.cal.ctl Cal.calEn = false) && decide (s.cal.run = true)))) : Bool)) : Bool) = true ∧
    /- clause 14 -/ ((let s := fmted.setOut 5 { outReset 5 with slots := [AudSlot.reset, AudSlot.reset, AudSlot.reset, { AudSlot.reset with samples := [1] }] }; let o : Fin 2048 := 5; let k : Fin 4 := 3; ((match s.outFmt o.val with | some f => (let old := (s.out o.val).slots.getD k.val AudSlot.reset; (let new := (s.stepSlot old (msNear (s.planeTu f.plane))).1; true)) | _ => false) : Bool)) : Bool) = true ∧
    /- clause 15 -/ ((let s := up; let o : Fin 2048 := 5; let k : Fin 4 := 3; (decide (s.outFmt o.val = none) : Bool)) : Bool) = true := by
  decide +kernel

theorem test_witness_ReferenceEngineTakesItsSteps_1 :
    /- clause 0 -/ ((let s := held 49; (decide (s.blockHeld 49 = true) : Bool)) : Bool) = true ∧
    /- clause 1 -/ ((let s := cand5 1 31 0 { candStReset 5 with activity := true, goodRun := 9 }; let m := meas ⟨true, 1000, 100⟩;
      let c := 5; ((decide (s.blockHeld 49 = false) && (decide (c < 15) &&
      (decide ((List.range 16).all (fun n => decide (n ≠ c → fbit (s.cand n) Cand.candEn = false ∧ s.qState n ≠ 2)) = true) &&
      (decide (fbit (s.cand c) Cand.candEn = true) && (decide (s.candActive c = true) && (decide (s.qState c = 1) &&
      (decide (s.ref.disagree = []) && (decide ((m.getD c ⟨false, 0, 0⟩).edges = true) &&
      (decide ((m.getD c ⟨false, 0, 0⟩).jump ≤ fget (s.cand c) Cand.phaseHit) &&
      (decide (fget (s.cand c) Cand.qualTime ≤ (s.candSt c).goodRun + 1) &&
      (decide (meanOut ((⟨true, (m.getD c ⟨false, 0, 0⟩).freq⟩ :: (s.candSt c).secs).take 100) 10 (fget (s.cand c) Cand.freqWindow * 100) = false) && decide (meanOut ((⟨true, (m.getD c ⟨false, 0, 0⟩).freq⟩ :: (s.candSt c).secs).take 100) 100 (fget (s.cand c) Cand.freqWindow * 100) = false)))))))))))) : Bool)) : Bool) = true ∧
    /- clause 2 -/ ((let s := cand5 2 5 2 { candStReset 5 with activity := true, secs := [⟨false, 0⟩] }; let m := meas ⟨false, 0, 0⟩;
      let c := 5; ((decide (s.blockHeld 49 = false) && (decide (c < 16) &&
      (decide ((List.range 16).all (fun n => decide (n ≠ c → fbit (s.cand n) Cand.candEn = false ∧ s.qState n ≠ 2)) = true) &&
      (decide (fbit (s.cand c) Cand.candEn = true) && (decide (s.candActive c = true) && (decide (s.qState c = 2) &&
      (decide (s.ref.disagree = []) && (decide (s.selected = c) && (decide (s.loopState = 1 ∨ s.loopState = 2) &&
      decide (badReason (s.cand c) ((⟨(m.getD c ⟨false, 0, 0⟩).edges &&
      (m.getD c ⟨false, 0, 0⟩).jump ≤ fget (s.cand c) Cand.phaseHit, (m.getD c ⟨false, 0, 0⟩).freq⟩ :: (s.candSt c).secs).take 100) ≠ 0)))))))))) : Bool)) : Bool) = true ∧
    /- clause 3 -/ ((let s := refE (fun e => { e with eng := loop 2 31 }); ((decide (s.blockHeld 49 = false) &&
      (decide ((List.range 16).all (fun n => decide (fbit (s.cand n) Cand.candEn = false)) = true) && (decide (s.loopState = 2) &&
      decide (s.pllFailed = false)))) : Bool)) : Bool) = true ∧
    /- clause 4 -/ ((let s := refE (fun e => { e with eng := loop 3 31 }); ((decide (s.blockHeld 49 = false) &&
      (decide ((List.range 16).all (fun n => decide (fbit (s.cand n) Cand.candEn = false)) = true) && (decide (s.loopState = 3) &&
      (decide (s.ref.settled = false) && decide (s.pllFailed = false))))) : Bool)) : Bool) = true ∧
    /- clause 5 -/ ((let s := up; let c : Fin 16 := 15; (decide (c.val < 6 ∨ c.val = 15) : Bool)) : Bool) = true ∧
    /- clause 6 -/ ((let s := { up with sdi := { SdiSt.reset with lanes := [(0, lane .formatLocked)] } }; let c : Fin 16 := 14;
      ((decide (6 ≤ c.val) && (decide (c.val ≤ 14) && decide (s.candActive c.val = true))) : Bool)) : Bool) = true ∧
    /- clause 7 -/ ((let s := refE (fun e => { e with eng := loop 3 31 }); ((decide (s.loopState = 3) &&
      decide (s.ref.settled = false)) : Bool)) : Bool) = true ∧
    /- clause 8 -/ ((let s := up; (decide (s.loopState ≠ 3 ∨ s.ref.settled = true) : Bool)) : Bool) = true ∧
    /- clause 9 -/ ((let s := (cand5 2 31 2 { candStReset 5 with activity := true, qualRun := 60 }).onRef (fun e => { e with eng := fput e.eng RefEng.revertive 1 }); let c : Fin 16 := 5; ((decide (fbit s.ref.eng RefEng.revertive = true) && (decide (s.loopState = 1 ∨ s.loopState = 2) && (decide (s.qState c.val = 2) && (decide (s.rankOf c.val < s.rankOf s.selected) && decide (fget s.ref.eng RefEng.wtr ≤ (s.candSt c.val).qualRun))))) : Bool)) : Bool) = true := by
  decide +kernel

theorem test_witness_ReferenceEngineTakesItsSteps_2 :
    /- clause 10 -/ ((let s := up; let c : Fin 16 := 0;
      (decide (fbit s.ref.eng RefEng.revertive = false ∨ s.qState c.val ≠ 2 ∨ (s.candSt c.val).qualRun < fget s.ref.eng RefEng.wtr) : Bool)) : Bool) = true ∧
    /- clause 11 -/ ((let s := refE (fun e => { e with eng := loop 1 5, stage := 4 }); ((decide (s.loopState = 1) &&
      decide (stageBw s.ref.stage ≤ fget s.ref.eng RefEng.bwFinal)) : Bool)) : Bool) = true ∧
    /- clause 12 -/ ((let s := refE (fun e => { e with eng := loop 1 5, stage := 1 }); ((decide (s.loopState = 1) &&
      decide (fget s.ref.eng RefEng.bwFinal < stageBw s.ref.stage)) : Bool)) : Bool) = true ∧
    /- clause 13 -/ ((let s := up; (decide (s.loopState ≠ 1) : Bool)) : Bool) = true ∧
    /- clause 14 -/ ((let s := refE (fun e => { e with eng := loop 3 31 }); ((decide (s.loopState = 3) &&
      decide (s.ref.longDone = false)) : Bool)) : Bool) = true ∧
    /- clause 15 -/ ((let s := up; (decide (s.loopState ≠ 3 ∨ s.ref.longDone = true) : Bool)) : Bool) = true ∧
    /- clause 16 -/ ((let s := up; let a : BitVec 16 := 99; (decide (a.toNat < 100) : Bool)) : Bool) = true ∧
    /- clause 17 -/ ((let s := up; let c : Fin 2 := 1; let d : Fin 256 := 255; let k : Fin 16 := 0; let a : BitVec 16 := 100;
      ((decide (100 ≤ a.toNat) && (decide (d.val = 255 ∨ syncKnown d.val k.val = false) &&
      decide ((s.candSt c.val).missing < 3))) : Bool)) : Bool) = true ∧
    /- clause 18 -/ ((let s := refE (fun e => { e with candSt := [(1, { candStReset 1 with detected := 129, rate := 2, frames := 1 })] }); let c : Fin 2 := 1; let d : Fin 256 := 129; let k : Fin 16 := 2; let a : BitVec 16 := 150; ((decide (150 ≤ a.toNat) && (decide (syncKnown d.val k.val = true) && (decide ((s.candSt c.val).detected = d.val) && (decide ((s.candSt c.val).rate = k.val) && decide (1 ≤ (s.candSt c.val).frames))))) : Bool)) : Bool) = true ∧
    /- clause 20 -/ ((let s := active; (decide (s.pwr.power = .staging ∨ s.pwr.power = .active) : Bool)) : Bool) = true := by
  decide +kernel

theorem test_witness_ReferenceEngineTakesItsSteps_3 :
    /- clause 21 -/ ((let s := watch; (decide (s.pwr.power = .watch) : Bool)) : Bool) = true ∧
    /- clause 22 -/ ((let s := backup; (decide (s.pwr.power = .backup) : Bool)) : Bool) = true := by
  decide +kernel

theorem test_witness_PlanesStepAndPulseOutputsToggle :
    /- clause 0 -/ ((let s := fmted; let p : Fin 8 := 0; (decide (s.planeOn p.val = true) : Bool)) : Bool) = true ∧
    /- clause 1 -/ ((let s := up; let p : Fin 8 := 7; (decide (s.planeOn p.val = false) : Bool)) : Bool) = true ∧
    /- clause 2 -/ ((let s := refE (fun e => { e with planeSt := [(7, { planeStReset 7 with slew := 1 })] }); let p : Fin 8 := 7;
      ((decide ((s.planeSt p.val).slew ≠ 0) && decide (s.slewed p.val = (s.planeSt p.val).left)) : Bool)) : Bool) = true ∧
    /- clause 3 -/ ((let s := up; let p : Fin 8 := 7;
      (decide ((s.planeSt p.val).slew = 0 ∨ s.slewed p.val ≠ (s.planeSt p.val).left) : Bool)) : Bool) = true ∧
    /- clause 4 -/ ((let s := refE (fun e => { e with pulse := [(7, put (pulseReset 7) [(Pulse.poEn, 1)])] }); let o : Fin 10 := 7;
      ((decide (o.val < 8) &&
      decide ((tget edgeReset s.ref.pulseSt o.val).run = true ∨ fbit (s.pulse o.val) Pulse.poEn = true)) : Bool)) : Bool) = true ∧
    /- clause 5 -/ ((let s := refE (fun e => { e with clock := [(1, put (clockReset 1) [(ClkOut.ckEn, 1)])] }); let o : Fin 10 := 9;
      ((decide (8 ≤ o.val) &&
      decide ((tget edgeReset s.ref.clockSt (o.val - 8)).run = true ∨ fbit (s.clock (o.val - 8)) ClkOut.ckEn = true)) : Bool)) : Bool) = true ∧
    /- clause 6 -/ ((let s := up; let o : Fin 10 := 7; ((decide (o.val < 8) &&
      (decide ((tget edgeReset s.ref.pulseSt o.val).run = false) &&
      decide (fbit (s.pulse o.val) Pulse.poEn = false))) : Bool)) : Bool) = true ∧
    /- clause 7 -/ ((let s := up; let o : Fin 10 := 8; ((decide (8 ≤ o.val) &&
      (decide ((tget edgeReset s.ref.clockSt (o.val - 8)).run = false) &&
      decide (fbit (s.clock (o.val - 8)) ClkOut.ckEn = false))) : Bool)) : Bool) = true := by
  decide +kernel

theorem test_witness_PtpInstancesTakeTheirMessages_1 :
    /- clause 0 -/ ((let bump (s : State) (i : Fin 4) (n : Nat) : List Nat := (s.instSt i.val).ctr.set n (satAdd 32 ((s.instSt i.val).ctr.getD n 0) 1); let s := up; let i : Fin 4 := 3; ((decide (s.instHears i.val = false) && decide (s.fwRuns = true)) : Bool)) : Bool) = true ∧
    /- clause 1 -/ ((let bump (s : State) (i : Fin 4) (n : Nat) : List Nat := (s.instSt i.val).ctr.set n (satAdd 32 ((s.instSt i.val).ctr.getD n 0) 1); let s := { hears 0 0 inst0 with pwr := PwrSt.reset }; let i : Fin 4 := 3; ((decide (s.fwRuns = false) && (decide (fbit (s.inst i.val) Inst.instEn = true) && decide (tget natReset s.ptp.fifo (fget (s.inst i.val) Inst.port) < 64))) : Bool)) : Bool) = true ∧
    /- clause 2 -/ ((let bump (s : State) (i : Fin 4) (n : Nat) : List Nat := (s.instSt i.val).ctr.set n (satAdd 32 ((s.instSt i.val).ctr.getD n 0) 1); let s := hears 1 0 inst0; let i : Fin 4 := 3; let m := { sync0 with logInterval := 2 }; ((decide (s.instHears i.val = true) && decide (syncLogOk (fget (s.inst i.val) Inst.profile) m.logInterval = false)) : Bool)) : Bool) = true ∧
    /- clause 3 -/ ((let bump (s : State) (i : Fin 4) (n : Nat) : List Nat := (s.instSt i.val).ctr.set n (satAdd 32 ((s.instSt i.val).ctr.getD n 0) 1); let s := hears 1 0 inst0; let i : Fin 4 := 3; let m := sync0; ((decide (s.instHears i.val = true) && (decide (syncLogOk (fget (s.inst i.val) Inst.profile) m.logInterval = true) && (decide (m.soft = false) && decide ((s.instSt i.val).parent = none)))) : Bool)) : Bool) = true ∧
    /- clause 4 -/ ((let bump (s : State) (i : Fin 4) (n : Nat) : List Nat := (s.instSt i.val).ctr.set n (satAdd 32 ((s.instSt i.val).ctr.getD n 0) 1); let s := hears 1 0 { inst0 with parent := some parent1 }; let i : Fin 4 := 3; let m := sync0; ((decide (s.instHears i.val = true) && (decide (syncLogOk (fget (s.inst i.val) Inst.profile) m.logInterval = true) && (decide (m.soft = false) && (match (s.instSt i.val).parent with | some p => decide (m.twoStep = true) | _ => false)))) : Bool)) : Bool) = true ∧
    /- clause 5 -/ ((let bump (s : State) (i : Fin 4) (n : Nat) : List Nat := (s.instSt i.val).ctr.set n (satAdd 32 ((s.instSt i.val).ctr.getD n 0) 1); let s := hears 1 0 { inst0 with parent := some parent1, paths := [0] }; let i : Fin 4 := 3; let m := { sync0 with twoStep := false }; ((decide (s.instHears i.val = true) && (decide (syncLogOk (fget (s.inst i.val) Inst.profile) m.logInterval = true) && (decide (m.soft = false) && (match (s.instSt i.val).parent with | some p => (decide (m.twoStep = false) && (decide ((s.instSt i.val).path = none) && (decide ((s.instSt i.val).paths ≠ []) && (decide (s.ptp.using_ = i.val) && (decide (fget s.ptp.servo Servo.servoSrc = 0) && (decide (fget s.ptp.servo Servo.ptpSel = i.val) && decide (fbit s.ptp.servo Servo.failover = false))))))) | _ => false)))) : Bool)) : Bool) = true ∧
    /- clause 6 -/ ((let bump (s : State) (i : Fin 4) (n : Nat) : List Nat := (s.instSt i.val).ctr.set n (satAdd 32 ((s.instSt i.val).ctr.getD n 0) 1); let s := hears 1 0 { inst0 with pending := some ⟨7, 0, false, 0, 0⟩ }; let i : Fin 4 := 3; let seq : BitVec 16 := 7; ((decide (s.instHears i.val = true) && (match (s.instSt i.val).pending with | some p => decide (p.seq = seq) | _ => false)) : Bool)) : Bool) = true ∧
    /- clause 7 -/ (!up.instHears 3 : Bool) = true ∧
    /- clause 9 -/ ((let bump (s : State) (i : Fin 4) (n : Nat) : List Nat := (s.instSt i.val).ctr.set n (satAdd 32 ((s.instSt i.val).ctr.getD n 0) 1); let s := hears 1 0 inst0; let i : Fin 4 := 3; let m := { ann0 with logInterval := 5 }; ((decide (s.instHears i.val = true) && decide (annLogOk (fget (s.inst i.val) Inst.profile) m.logInterval = false)) : Bool)) : Bool) = true ∧
    /- clause 10 -/ ((let bump (s : State) (i : Fin 4) (n : Nat) : List Nat := (s.instSt i.val).ctr.set n (satAdd 32 ((s.instSt i.val).ctr.getD n 0) 1); let s := hears 1 0 inst0; let i : Fin 4 := 3; let m := ann0; ((decide (s.instHears i.val = true) && (decide (annLogOk (fget (s.inst i.val) Inst.profile) m.logInterval = true) && decide ((s.foreignNow i.val m).all (fun e => decide (e.1.source ≠ m.source → m.rank < e.1.rank)) = true))) : Bool)) : Bool) = true := by
  decide +kernel

theorem test_witness_PtpInstancesTakeTheirMessages_2 :
    /- clause 11 -/ ((let bump (s : State) (i : Fin 4) (n : Nat) : List Nat := (s.instSt i.val).ctr.set n (satAdd 32 ((s.instSt i.val).ctr.getD n 0) 1); let s := hears 1 0 { inst0 with parent := some parent1, foreign := [({ ann0 with source := 1 }, 0)] }; let i : Fin 4 := 3; let m := ann0; let b : AnnounceMsg × Nat := ({ ann0 with source := 1 }, 0); ((decide (s.instHears i.val = true) && (decide (annLogOk (fget (s.inst i.val) Inst.profile) m.logInterval = true) && (match (s.instSt i.val).parent with | some p => (decide (p.port ≠ m.source) && (decide (b ∈ s.foreignNow i.val m) && (decide (b.1.source = p.port) && decide ((s.foreignNow i.val m).all (fun e => decide (b.1.rank ≤ e.1.rank)) = true)))) | _ => false))) : Bool)) : Bool) = true ∧
    /- clause 12 -/ ((let bump (s : State) (i : Fin 4) (n : Nat) : List Nat := (s.instSt i.val).ctr.set n (satAdd 32 ((s.instSt i.val).ctr.getD n 0) 1); let s := hears 1 0 { inst0 with delay := some delay1, ms := some 0 }; let i : Fin 4 := 3; let seq : BitVec 16 := 1; ((decide (s.instHears i.val = true) && (match (s.instSt i.val).delay with | some d => (match (s.instSt i.val).ms with | some ms => (decide (d.seq = seq) && (decide (d.soft = false) && decide (fbit (s.inst i.val) Inst.delayMech = false))) | _ => false) | _ => false)) : Bool)) : Bool) = true ∧
    /- clause 13 -/ ((let bump (s : State) (i : Fin 4) (n : Nat) : List Nat := (s.instSt i.val).ctr.set n (satAdd 32 ((s.instSt i.val).ctr.getD n 0) 1); let s := hears 1 0 inst0; let i : Fin 4 := 3; ((decide (s.instHears i.val = true) && decide ((s.instSt i.val).delay = none)) : Bool)) : Bool) = true ∧
    /- clause 14 -/ ((let bump (s : State) (i : Fin 4) (n : Nat) : List Nat := (s.instSt i.val).ctr.set n (satAdd 32 ((s.instSt i.val).ctr.getD n 0) 1); let s := hears 1 0 { inst0 with parent := some parent1 }; let i : Fin 4 := 3; ((decide (s.instHears i.val = true) && (match (s.instSt i.val).parent with | some p => true | _ => false)) : Bool)) : Bool) = true ∧
    /- clause 15 -/ ((let bump (s : State) (i : Fin 4) (n : Nat) : List Nat := (s.instSt i.val).ctr.set n (satAdd 32 ((s.instSt i.val).ctr.getD n 0) 1); let s := (hears 1 1 inst0).instF 3 Inst.delayReqLog 0; let i : Fin 4 := 3; ((decide (s.instHears i.val = true) && (decide ((s.instSt i.val).parent = none) && (decide (fbit (s.inst i.val) Inst.delayMech = true) && decide (fget (s.inst i.val) Inst.delayReqLog ≠ 127)))) : Bool)) : Bool) = true ∧
    /- clause 16 -/ ((let bump (s : State) (i : Fin 4) (n : Nat) : List Nat := (s.instSt i.val).ctr.set n (satAdd 32 ((s.instSt i.val).ctr.getD n 0) 1); let s := up; let i : Fin 4 := 0; (decide (s.instHears i.val = false ∨ ((s.instSt i.val).parent = none ∧ (fbit (s.inst i.val) Inst.delayMech = false ∨ fget (s.inst i.val) Inst.delayReqLog = 127))) : Bool)) : Bool) = true ∧
    /- clause 17 -/ ((let bump (s : State) (i : Fin 4) (n : Nat) : List Nat := (s.instSt i.val).ctr.set n (satAdd 32 ((s.instSt i.val).ctr.getD n 0) 1); let s := (hears 1 0 inst0).onEth (fun e => { e with sub := [(0, { subUp with txq := [.ptp 3 1 7 false] })] }); let i : Fin 4 := 3; let p : Fin 32 := 0; ((decide (s.instHears i.val = true) && (match (s.sub p.val).txq with | .ptp x0_ kind seq false :: rest => (x0_ == i.val && (decide (s.subUp p.val = true) && decide ((s.sub p.val).mgmtHold.on s.time.clk = false))) | _ => false)) : Bool)) : Bool) = true ∧
    /- clause 18 -/ ((let bump (s : State) (i : Fin 4) (n : Nat) : List Nat := (s.instSt i.val).ctr.set n (satAdd 32 ((s.instSt i.val).ctr.getD n 0) 1); let s := hears 1 1 inst0; let i : Fin 4 := 3; ((decide (s.instHears i.val = true) && decide (fbit (s.inst i.val) Inst.delayMech = true)) : Bool)) : Bool) = true ∧
    /- clause 19 -/ ((let bump (s : State) (i : Fin 4) (n : Nat) : List Nat := (s.instSt i.val).ctr.set n (satAdd 32 ((s.instSt i.val).ctr.getD n 0) 1); let s := hears 1 0 inst0; let i : Fin 4 := 3; ((decide (s.instHears i.val = true) && decide (fbit (s.inst i.val) Inst.delayMech = false)) : Bool)) : Bool) = true ∧
    /- clause 20 -/ ((let bump (s : State) (i : Fin 4) (n : Nat) : List Nat := (s.instSt i.val).ctr.set n (satAdd 32 ((s.instSt i.val).ctr.getD n 0) 1); let s := hears 1 1 { inst0 with delay := some delay1 }; let i : Fin 4 := 3; let seq : BitVec 16 := 1; ((decide (s.instHears i.val = true) && (match (s.instSt i.val).delay with | some d => (decide (d.seq = seq) && decide (fbit (s.inst i.val) Inst.delayMech = true)) | _ => false)) : Bool)) : Bool) = true := by
  decide +kernel

theorem test_witness_PtpInstancesTakeTheirMessages_3 :
    /- clause 21 -/ ((let bump (s : State) (i : Fin 4) (n : Nat) : List Nat := (s.instSt i.val).ctr.set n (satAdd 32 ((s.instSt i.val).ctr.getD n 0) 1); let s := hears 1 1 { inst0 with delay := some delay1 }; let i : Fin 4 := 3; let seq : BitVec 16 := 1; ((decide (s.instHears i.val = true) && (match (s.instSt i.val).delay with | some d => (decide (d.seq = seq) && (decide (d.answered = true) && decide (d.soft = false))) | _ => false)) : Bool)) : Bool) = true ∧
    /- clause 22 -/ ((let bump (s : State) (i : Fin 4) (n : Nat) : List Nat := (s.instSt i.val).ctr.set n (satAdd 32 ((s.instSt i.val).ctr.getD n 0) 1); let s := hears 1 0 inst0; let i : Fin 4 := 3; (decide (s.instHears i.val = true) : Bool)) : Bool) = true ∧
    /- clause 23 -/ ((let bump (s : State) (i : Fin 4) (n : Nat) : List Nat := (s.instSt i.val).ctr.set n (satAdd 32 ((s.instSt i.val).ctr.getD n 0) 1); let s := up; let i : Fin 4 := 0; (decide (s.instHears i.val = false) : Bool)) : Bool) = true ∧
    /- clause 24 -/ ((let bump (s : State) (i : Fin 4) (n : Nat) : List Nat := (s.instSt i.val).ctr.set n (satAdd 32 ((s.instSt i.val).ctr.getD n 0) 1); let s := hears 2 0 inst0; let i : Fin 4 := 3; ((decide (fbit (s.inst i.val) Inst.instEn = true) && (decide (s.fwRuns = true) && decide (fget (s.inst i.val) Inst.instState = 1 ∨ fget (s.inst i.val) Inst.instState = 2))) : Bool)) : Bool) = true ∧
    /- clause 25 -/ ((let bump (s : State) (i : Fin 4) (n : Nat) : List Nat := (s.instSt i.val).ctr.set n (satAdd 32 ((s.instSt i.val).ctr.getD n 0) 1); let s := up; let i : Fin 4 := 0; (decide (fbit (s.inst i.val) Inst.instEn = false ∨ s.fwRuns = false ∨ fget (s.inst i.val) Inst.instState = 0 ∨ fget (s.inst i.val) Inst.instState = 3) : Bool)) : Bool) = true := by
  decide +kernel

theorem test_witness_LocalClockIsReadSteeredAndKept :
    /- clause 0 -/ ((let s := up.onPtp (fun p => { p with servo := fput p.servo Servo.servoSrc 1 });
      ((decide (fget s.ptp.servo Servo.servoSrc = 1) && decide (s.blockHeld 50 = false)) : Bool)) : Bool) = true ∧
    /- clause 1 -/ ((let s := up; (decide (fget s.ptp.servo Servo.servoSrc ≠ 1 ∨ s.blockHeld 50 = true) : Bool)) : Bool) = true ∧
    /- clause 2 -/ ((let s := hears 2 0 inst0; ((decide (s.fwRuns = true) && (decide (fget (s.inst s.ptp.using_) Inst.instState = 2) &&
      decide (fbit (s.inst s.ptp.using_) Inst.instEn = true))) : Bool)) : Bool) = true ∧
    /- clause 3 -/ ((let s := up;
      (decide (s.fwRuns = false ∨ fget (s.inst s.ptp.using_) Inst.instState ≠ 2 ∨ fbit (s.inst s.ptp.using_) Inst.instEn = false) : Bool)) : Bool) = true := by
  decide +kernel

theorem test_witness_LinksBringUpRunAndFail_1 :
    /- clause 0 -/ ((let s := link6 (linkV .detect); let k : Fin 7 := 6; let f : BitVec 8 := 3;
      (decide ((s.linkSt k.val).phase = .detect) : Bool)) : Bool) = true ∧
    /- clause 1 -/ ((let s := up; let k : Fin 7 := 6; (decide ((s.linkSt k.val).phase ≠ .detect) : Bool)) : Bool) = true ∧
    /- clause 2 -/ ((let s := link6 (linkV .exchange); let k : Fin 7 := 6; let c := cap7 1;
      ((decide ((s.linkSt k.val).phase = .exchange) && decide (s.capBad k.val c = true)) : Bool)) : Bool) = true ∧
    /- clause 3 -/ ((let s := link6 (linkV .exchange); let k : Fin 7 := 6; let c := cap7 7;
      ((decide ((s.linkSt k.val).phase = .exchange) && (decide (s.capBad k.val c = false) &&
      decide (fbit (s.linkCfg k.val) Link.bringup = true → c.rate.val = fget (s.linkCfg k.val) Link.linkRate))) : Bool)) : Bool) = true ∧
    /- clause 4 -/ ((let s := up; let k : Fin 7 := 6; (decide ((s.linkSt k.val).phase ≠ .exchange) : Bool)) : Bool) = true ∧
    /- clause 5 -/ ((let s := (link6 (linkV .align)).onTrp (fun t => { t with rec_ := put t.rec_ [(TroupeRec.member, 7)], link := tmap linkReset (fun _ l => fput l Link.peer 0) t.link }); let k : Fin 7 := 6; let m : BitVec 8 := 1; let r : Fin 4 := 2; ((decide (s.decides k.val = false) && decide ((s.linkSt k.val).phase = .step ∨ (s.linkSt k.val).phase = .align)) : Bool)) : Bool) = true ∧
    /- clause 6 -/ ((let s := link6 (linkV .step); let k : Fin 7 := 6;
      (decide (s.decides k.val = true ∨ ((s.linkSt k.val).phase ≠ .step ∧ (s.linkSt k.val).phase ≠ .align)) : Bool)) : Bool) = true ∧
    /- clause 7 -/ ((let s := link6 (linkV .step); decide ((s.linkSt 6).phase = .step) && decide ((s.linkSt 6).active.Nodup) &&
      (s.linkSt 6).active.zipIdx.all (fun x => decide (fget (s.svLane x.1) LaneRec.eyeMin ≤ min 255 ([96, 255].getD x.2 0)))) : Bool) = true ∧
    /- clause 8 -/ ((let s := up; let k : Fin 7 := 6; (decide ((s.linkSt k.val).phase ≠ .step) : Bool)) : Bool) = true ∧
    /- clause 9 -/ ((let s := link6 (linkV .adapt); let k : Fin 7 := 6;
      (decide ((s.linkSt k.val).phase = .adapt) : Bool)) : Bool) = true := by
  decide +kernel

theorem test_witness_LinksBringUpRunAndFail_2 :
    /- clause 10 -/ ((let s := up; let k : Fin 7 := 6; (decide ((s.linkSt k.val).phase ≠ .adapt) : Bool)) : Bool) = true ∧
    /- clause 11 -/ ((let s := link6 (linkV .align); let k : Fin 7 := 6; (decide ((s.linkSt k.val).phase = .align) : Bool)) : Bool) = true ∧
    /- clause 12 -/ ((let s := up; let k : Fin 7 := 6; (decide ((s.linkSt k.val).phase ≠ .align) : Bool)) : Bool) = true ∧
    /- clause 13 -/ ((let s := link6 (linkV .held); let k : Fin 7 := 6; ((decide (s.linkOn k.val = true) &&
      (decide (s.linkRuns k.val = false) && (decide (([40, 41, 42, 43]).all (fun b => decide (s.blockHeld b = false)) = true) &&
      decide ((s.startOrder k.val).any (fun l => decide (s.laneState l ≠ laneFailed)) = true)))) : Bool)) : Bool) = true ∧
    /- clause 14 -/ ((let s := up; let k : Fin 7 := 6; (decide (s.linkOn k.val = false ∨ s.linkRuns k.val = true) : Bool)) : Bool) = true ∧
    /- clause 15 -/ ((let s := link6 (linkV .run); let k : Fin 7 := 6; let l : Fin 48 := 40; let st := 8;
      ((decide (s.linkOfLane l.val = some k.val) && (decide (s.linkRuns k.val = true) && (decide (l.val ∈ (s.linkSt k.val).active) &&
      (decide ((s.svRun l.val).idle = none) && decide ((s.svRun l.val).stuffNow + st ≤ 8))))) : Bool)) : Bool) = true ∧
    /- clause 16 -/ ((let s := link6 (linkV .run); let k : Fin 7 := 6; let l : Fin 48 := 41; let st := 0;
      ((decide (s.linkOfLane l.val = some k.val) && (decide (s.linkRuns k.val = true) && (decide (l.val ∈ (s.linkSt k.val).active) &&
      (decide ((s.svRun l.val).idle = none) && (decide ((s.svRun l.val).stuffNow + st ≤ 8) &&
      decide ((s.svRun l.val).missing = 0)))))) : Bool)) : Bool) = true ∧
    /- clause 17 -/ ((let s := (link6 (linkV .run)).setSvRun 41 { laneRunReset 41 with missing := 1 }; let k : Fin 7 := 6;
      let l : Fin 48 := 41; let st := 0; let x := 40; ((decide (s.linkOfLane l.val = some k.val) && (decide (s.linkRuns k.val = true) &&
      (decide (l.val ∈ (s.linkSt k.val).active) && (decide ((s.svRun l.val).idle = none) && (decide (1 ≤ (s.svRun l.val).missing) &&
      (decide (x ∈ (s.linkSt k.val).active) && (decide (x ≠ l.val) && decide ((s.svRun x).failing = false)))))))) : Bool)) : Bool) = true ∧
    /- clause 18 -/ ((let s := up; let l : Fin 48 := 47; (decide (s.linkOfLane l.val = none) : Bool)) : Bool) = true ∧
    /- clause 19 -/ ((let s := link6 (linkV .run); let k : Fin 7 := 6; let l : Fin 48 := 41; ((decide (s.linkRuns k.val = true) &&
      (decide (l.val ∈ (s.linkSt k.val).active) && decide ((s.linkSt k.val).active.filter (· != l.val) ≠ []))) : Bool)) : Bool) = true := by
  decide +kernel

theorem test_witness_LinksBringUpRunAndFail_3 :
    /- clause 20 -/ ((let s := up; let k : Fin 7 := 6; let l : Fin 48 := 47;
      (decide (s.linkRuns k.val = false ∨ l.val ∉ (s.linkSt k.val).active) : Bool)) : Bool) = true ∧
    /- clause 21 -/ ((let s := (link6 { linkV .run with active := [40] }).laneF 47 LaneRec.laneState 1; let k : Fin 7 := 6;
      let l : Fin 48 := 47; ((decide (s.linkRuns k.val = true) && (decide (maskBit (fget (s.linkCfg k.val) Link.spares) l.val = true) &&
      (decide (s.laneState l.val = laneTraining) &&
      (match (s.linkSt k.val).order.zipIdx.find? (fun e => !(s.linkSt k.val).active.contains e.1) with | some (old, pos) => true | _ => false)))) : Bool)) : Bool) = true ∧
    /- clause 22 -/ ((let s := up; let k : Fin 7 := 6; let l : Fin 48 := 47;
      (decide (s.linkRuns k.val = false ∨ s.laneState l.val ≠ laneTraining) : Bool)) : Bool) = true ∧
    /- clause 23 -/ ((let s := link6 (linkV .run); let k : Fin 7 := 6; let l : Fin 48 := 40;
      ((decide (s.linkOfLane l.val = some k.val) && (decide (s.linkRuns k.val = true) &&
      (decide (fbit (s.linkCfg k.val) Link.idleEn = true) && (decide (l.val ∈ (s.linkSt k.val).active) &&
      decide ((s.svRun l.val).idle = none))))) : Bool)) : Bool) = true ∧
    /- clause 24 -/ ((let s := up; let x : Fin 224 := 175; (decide (x.val < 176) : Bool)) : Bool) = true ∧
    /- clause 25 -/ ((let s := link6 (linkV .run); let x : Fin 224 := 216; ((decide (176 ≤ x.val) &&
      decide (s.laneState (x.val - 176) = laneTraining ∨ s.laneState (x.val - 176) = laneActive)) : Bool)) : Bool) = true := by
  decide +kernel

theorem test_witness_LinksCarryTilesTimeAndImages :
    /- clause 0 -/ ((let s := up; let i : Fin 4096 := 0;
      (decide (linkTo s (fget (s.imp i.val) Import.fromF) = none) : Bool)) : Bool) = true ∧
    /- clause 1 -/ ((let s := (link6 (linkV .run)).onTrp (fun t => { t with imp := [(4095, put 0 [(Import.fromF, 7)])] });
      let i : Fin 4096 := 4095;
      ((match linkTo s (fget (s.imp i.val) Import.fromF) with | some k => true | _ => false) : Bool)) : Bool) = true ∧
    /- clause 2 -/ ((let s := imp ⟨some 5, 0, none, 0, 0, 0⟩; let i : Fin 4096 := 4095;
      ((match (s.impSt i.val).offset with | some off => decide (fbit (s.imp i.val) Import.impEn = true) | _ => false) : Bool)) : Bool) = true ∧
    /- clause 3 -/ ((let s := up; let i : Fin 4096 := 0;
      (decide ((s.impSt i.val).offset = none ∨ fbit (s.imp i.val) Import.impEn = false) : Bool)) : Bool) = true ∧
    /- clause 4 -/ ((let s := link6 (linkV .run); let k : Fin 8 := 6;
      (decide ((k.val < 7 ∧ s.linkRuns k.val = true ∧ fbit s.trp.rec_ TroupeRec.troupeEn = true) ∨ (k.val = 7 ∧ s.twinOn = true)) : Bool)) : Bool) = true ∧
    /- clause 5 -/ ((let s := up; let k : Fin 8 := 7;
      (decide ((k.val = 7 ∧ s.twinOn = false) ∨ (k.val < 7 ∧ (s.linkRuns k.val = false ∨ fbit s.trp.rec_ TroupeRec.troupeEn = false))) : Bool)) : Bool) = true ∧
    /- clause 6 -/ ((let s := twin 1 [] id; let k : Fin 8 := 7;
      (decide ((k.val < 7 ∧ s.linkRuns k.val = true ∧ fbit s.trp.rec_ TroupeRec.troupeEn = true) ∨ (k.val = 7 ∧ s.twinOn = true)) : Bool)) : Bool) = true ∧
    /- clause 7 -/ ((let s := imaged; let k : Fin 7 := 6; ((decide (s.pwr.troupeId = 0) && (decide (s.pwr.bootState = .firmware) &&
      (decide (fbit (s.linkRec k.val) Link.linkEn = true) && (decide ((s.linkSt k.val).boot = true) &&
      (decide (s.linkRuns k.val = true) &&
      decide ((s.slotBytes s.activeSlot).take (s.slotSize s.activeSlot) ≠ [])))))) : Bool)) : Bool) = true ∧
    /- clause 8 -/ ((let s := up; let k : Fin 7 := 6;
      (decide (s.pwr.troupeId ≠ 0 ∨ s.pwr.bootState ≠ .firmware ∨ (s.linkSt k.val).boot = false ∨ s.linkRuns k.val = false) : Bool)) : Bool) = true := by
  decide +kernel

theorem test_witness_TwinsTakeRolesAndTakeOver_1 :
    /- clause 0 -/ ((let s := { twin 0 [] id with pwr := { PwrSt.reset with bootState := .firmware, power := .active } };
      ((decide (s.twinOn = true) && (decide (s.pwr.power = .active) && decide (s.role = .solo))) : Bool)) : Bool) = true ∧
    /- clause 1 -/ ((let s := up; (decide (s.twinOn = false ∨ s.pwr.power ≠ .active ∨ s.role ≠ .solo) : Bool)) : Bool) = true ∧
    /- clause 2 -/ ((let s := twin 0 [] id; ((decide (s.blockHeld 54 = false) && decide (s.twinOn = true)) : Bool)) : Bool) = true ∧
    /- clause 3 -/ ((let s := up; (decide (s.blockHeld 54 = true ∨ s.twinOn = false) : Bool)) : Bool) = true ∧
    /- clause 4 -/ ((let s := twin 0 [] id; let b := false; let bs := beat (fitBytes 36 [0x54, 0x5A, 1]); ((decide (s.twinOn = true) &&
      (decide (s.blockHeld 54 = false) && (decide (b = true → fbit s.ctl.sb SbRec.sbEn = true ∧ s.blockHeld 53 = false) &&
      decide (heartbeatOk bs = true)))) : Bool)) : Bool) = true ∧
    /- clause 5 -/ ((let s := { twin 0 [] id with ctl := { CtlSt.reset with sb := put 0 [(SbRec.sbEn, 1)] } }; let b := true;
      let bs := fitBytes 40 [0x54, 0x5A, 1]; ((decide (s.twinOn = true) && (decide (s.blockHeld 54 = false) &&
      (decide (b = true → fbit s.ctl.sb SbRec.sbEn = true ∧ s.blockHeld 53 = false) &&
      decide (heartbeatOk bs = false)))) : Bool)) : Bool) = true ∧
    /- clause 6 -/ ((let s := up; let b := false;
      (decide (s.twinOn = false ∨ s.blockHeld 54 = true ∨ (b = true ∧ fbit s.ctl.sb SbRec.sbEn = false)) : Bool)) : Bool) = true ∧
    /- clause 7 -/ ((let s := twin 0 [] id; (decide (s.twinOn = true) : Bool)) : Bool) = true ∧
    /- clause 8 -/ ((let s := up; (decide (s.twinOn = false) : Bool)) : Bool) = true ∧
    /- clause 11 -/ ((let s := twin 2 [] (fun t => { t with fallAt := some 0 });
      ((match s.twin.fallAt with | some tf => true | _ => false) : Bool)) : Bool) = true := by
  decide +kernel

theorem test_witness_TwinsTakeRolesAndTakeOver_2 :
    /- clause 12 -/ ((let s := up; (decide (s.twin.fallAt = none) : Bool)) : Bool) = true ∧
    /- clause 13 -/ ((let s := twin 2 [] (fun t => { t with take := some (1, 1) });
      ((match s.twin.take with | some (y, tr) => decide (s.role = .shadow) | _ => false) : Bool)) : Bool) = true ∧
    /- clause 14 -/ ((let s := twin 1 [] (fun t => { t with yield := some ⟨1, 1⟩ }); ((decide (s.twin.take = none) &&
      (match s.twin.yield with | some y => decide (s.role = .primary) | _ => false)) : Bool)) : Bool) = true ∧
    /- clause 15 -/ ((let s := up; ((decide (s.twin.take = none) && decide (s.twin.yield = none)) : Bool)) : Bool) = true := by
  decide +kernel

theorem test_witness_TwinsMirrorCompareAndResynchronise_1 :
    /- clause 0 -/ ((let s := twin 2 [] id; let n : BitVec 32 := 1; let op : BitVec 16 := 0x0400; let q := req .p0 [];
      let tg : BitVec 64 := 0; ((decide (Req.wf q = true) && (decide (s.role = .shadow) && (decide (s.pwr.bootState = .firmware) &&
      (decide (n.toNat = s.nextMirror) && (decide (s.now ≤ tg.toNat) && decide (ownTarget op.toNat q = 0)))))) : Bool)) : Bool) = true ∧
    /- clause 1 -/ ((let s := twin 2 [] id; let n : BitVec 32 := 1; let op : BitVec 16 := 0x0602;
      let q := req .p0 (fitBytes 16 (fitBytes 8 [1] ++ [0, 0, 0, 1])); let tg : BitVec 64 := 0; ((decide (Req.wf q = true) &&
      (decide (s.role = .shadow) && (decide (s.pwr.bootState = .firmware) && (decide (n.toNat = s.nextMirror) &&
      (decide (s.now ≤ tg.toNat) && (decide (ownTarget op.toNat q ≠ 0) && (let m := ⟨n.toNat, op.toNat, q, tg.toNat, true, true, []⟩;
      (let u := ansState s.fresh (s.fresh.runMirror m); true)))))))) : Bool)) : Bool) = true ∧
    /- clause 2 -/ ((let s := twin 2 [(Twin.sync, 2)] id; let n : BitVec 32 := 2; let q := req .p0 []; let tg : BitVec 64 := 0;
      ((decide (Req.wf q = true) && (decide (s.role = .shadow) && (decide (s.pwr.bootState = .firmware) &&
      (decide (n.toNat ≠ s.nextMirror ∨ tg.toNat < s.now) && decide (s.sync = 1 ∨ s.sync = 2))))) : Bool)) : Bool) = true ∧
    /- clause 3 -/ ((let s := up; let q := req .p0 []; ((decide (Req.wf q = true) &&
      decide (s.role ≠ .shadow ∨ s.pwr.bootState ≠ .firmware)) : Bool)) : Bool) = true ∧
    /- clause 4 -/ ((let s := twin 2 [] (fun t => { t with mirrors := [mirror0] });
      ((match s.twin.mirrors with | m :: rest => (decide (m.target ≤ s.now) && decide (s.pwr.bootState = .firmware)) | _ => false) : Bool)) : Bool) = true ∧
    /- clause 5 -/ (decide (up.twin.mirrors = []) : Bool) = true ∧
    /- clause 6 -/ ((let s := twin 1 [] (fun t => { t with mirrors := [mirror0] }); let n : BitVec 32 := 1;
      ((decide (s.role = .primary) &&
      (match s.twin.mirrors.find? (fun m => m.mseq == n.toNat && !m.acked) with | some m => true | _ => false)) : Bool)) : Bool) = true ∧
    /- clause 7 -/ ((let s := up; let n : BitVec 32 := 1;
      (decide (s.role ≠ .primary ∨ s.twin.mirrors.find? (fun m => m.mseq == n.toNat && !m.acked) = none) : Bool)) : Bool) = true ∧
    /- clause 8 -/ ((let s := twin 1 [(Twin.sync, 2)] (fun t => { t with mirrors := [mirror0] }); ((decide (s.role = .primary) &&
      (decide (s.sync = 1 ∨ s.sync = 2) &&
      (match s.twin.mirrors.find? (fun m => !m.acked && decide (m.target ≤ s.now + 200000)) with | some m => true | _ => false))) : Bool)) : Bool) = true ∧
    /- clause 9 -/ ((let s := up; (decide (s.role ≠ .primary ∨ s.twin.mirrors.find? (fun m => !m.acked &&
      decide (m.target ≤ s.now + 200000)) = none) : Bool)) : Bool) = true := by
  decide +kernel

theorem test_witness_TwinsMirrorCompareAndResynchronise_2 :
    /- clause 10 -/ ((let s := twin 1 [] id; ((decide (s.twinOn = true) && decide (s.role ≠ .solo)) : Bool)) : Bool) = true ∧
    /- clause 11 -/ ((let s := up; (decide (s.twinOn = false ∨ s.role = .solo) : Bool)) : Bool) = true ∧
    /- clause 12 -/ ((let s := twin 1 [] id; ((decide (s.twinOn = true) && (decide (s.role ≠ .solo) &&
      decide (s.twin.theirs = []))) : Bool)) : Bool) = true ∧
    /- clause 13 -/ ((let s := twin 2 [] (fun t => { t with theirs := [(2047, 0, 0)] }); let o : Fin 2048 := 2047;
      ((match (s.twin.mine.find? (fun e => e.1 == o.val)).or (s.twin.theirs.find? (fun e => e.1 == o.val)) with | some e => true | _ => false) : Bool)) : Bool) = true ∧
    /- clause 14 -/ ((let s := up; let o : Fin 2048 := 0;
      (decide ((s.twin.mine.find? (fun e => e.1 == o.val)).or (s.twin.theirs.find? (fun e => e.1 == o.val)) = none) : Bool)) : Bool) = true ∧
    /- clause 15 -/ ((let s := twin 1 [(Twin.sync, 1), (Twin.pathAOk, 1)] (fun t => { t with hb := fitBytes 40 [] });
      (decide (s.mayResync = true) : Bool)) : Bool) = true ∧
    /- clause 16 -/ ((let s := up; (decide (s.mayResync = false) : Bool)) : Bool) = true ∧
    /- clause 17 -/ (decide ((twin 2 [(Twin.pathAOk, 1)] id).role = .shadow) &&
      (twin 2 [(Twin.pathAOk, 1)] id).pathOk false : Bool) = true ∧
    /- clause 18 -/ ((let s := up;
      (decide (s.role = .solo ∨ (s.role = .shadow ∧ s.pathOk false = false) ∨ (s.role = .primary ∧ s.twin.resync = none)) : Bool)) : Bool) = true ∧
    /- clause 19 -/ ((let s := twin 2 [(Twin.sync, 1)] (fun t => { t with resynced := true }); ((decide (s.twin.resynced = true) &&
      (decide (s.sync = 1) && decide (s.role ≠ .solo))) : Bool)) : Bool) = true := by
  decide +kernel

theorem test_witness_TwinsMirrorCompareAndResynchronise_3 :
    /- clause 20 -/ ((let s := up; (decide (s.twin.resynced = false ∨ s.sync ≠ 1) : Bool)) : Bool) = true := by
  decide +kernel

theorem test_witness_DeviceFaultsAreRaised_1 :
    /- clause 0 -/ ((let s := up; let m : Fin 6 := 0; let quad : Fin 5 := 3; let back := false; ((decide (monitorOk m quad = true) &&
      (decide (s.fastOn = true) && decide (s.pwr.vWarn.contains (monitorKey m quad) = back))) : Bool)) : Bool) = true ∧
    /- clause 1 -/ ((let s := up; let m : Fin 6 := 5; let quad : Fin 5 := 4; let back := true; ((decide (monitorOk m quad = true) &&
      decide (s.pwr.power = .backup ∨ s.pwr.vWarn.contains (monitorKey m quad) ≠ back)) : Bool)) : Bool) = true ∧
    /- clause 2 -/ ((let s := active; let m : Fin 6 := 0; let quad : Fin 5 := 0; ((decide (monitorOk m quad = true) &&
      (decide (s.fastOn = true) && decide (s.pwr.vFail.contains (monitorKey m quad) = false))) : Bool)) : Bool) = true ∧
    /- clause 3 -/ ((let s := backup; let m : Fin 6 := 0; let quad : Fin 5 := 0; ((decide (monitorOk m quad = true) &&
      decide (s.pwr.power = .backup ∨ s.pwr.vFail.contains (monitorKey m quad) = true)) : Bool)) : Bool) = true ∧
    /- clause 4 -/ ((let s := watch.onPwr (fun p => { p with vFail := [29] }); let m : Fin 6 := 5; let quad : Fin 5 := 4;
      ((decide (monitorOk m quad = true) && (decide (s.pwr.power ≠ .backup) &&
      decide (s.pwr.vFail.contains (monitorKey m quad) = true))) : Bool)) : Bool) = true ∧
    /- clause 5 -/ ((let s := up; let m : Fin 6 := 5; let quad : Fin 5 := 4; ((decide (monitorOk m quad = true) &&
      decide (s.pwr.vFail.contains (monitorKey m quad) = false)) : Bool)) : Bool) = true ∧
    /- clause 6 -/ ((let s := up; let quad : Fin 4 := 3; ((decide (s.fastOn = true) &&
      decide (s.pwr.over105.contains quad.val = false)) : Bool)) : Bool) = true ∧
    /- clause 7 -/ ((let s := pw (fun p => { p with over105 := [3] }); let quad : Fin 4 := 3;
      (decide (s.pwr.power = .backup ∨ s.pwr.over105.contains quad.val = true) : Bool)) : Bool) = true ∧
    /- clause 8 -/ ((let s := up; (decide (s.fastOn = true) : Bool)) : Bool) = true ∧
    /- clause 9 -/ ((let s := up; let v0 : Int := 0; let v1 : Int := 26; let v2 : Int := 0; let v3 : Int := 0;
      ((decide (s.fastOn = true) && (decide (s.pwr.skewBad = false) &&
      decide (skewOver false ([v0, v1, v2, v3].map (fun v : Int => Int.ofNat v.toNat)) = true))) : Bool)) : Bool) = true := by
  decide +kernel

theorem test_witness_DeviceFaultsAreRaised_2 :
    /- clause 10 -/ ((let s := up; let v0 : Int := 0; let v1 : Int := 0; let v2 : Int := 0; let v3 : Int := 21;
      ((decide (s.fastOn = true) && (decide (s.pwr.skewBad = false) &&
      decide (skewOver true [v0, v1, v2, v3] = true))) : Bool)) : Bool) = true ∧
    /- clause 11 -/ ((let s := up; let v0 : Int := 0; let v1 : Int := 0; let v2 : Int := 20; let v3 : Int := 0;
      ((decide (s.fastOn = true) && (decide (s.pwr.skewBad = false) && (decide (skewOver false (s.pwr.quadMv.map Int.ofNat) = false) &&
      decide (skewOver true [v0, v1, v2, v3] = false)))) : Bool)) : Bool) = true ∧
    /- clause 12 -/ ((let s := watch; (decide (s.fastOn = false) : Bool)) : Bool) = true ∧
    /- clause 13 -/ ((let s := active; (decide (s.fastOn = true) : Bool)) : Bool) = true ∧
    /- clause 14 -/ ((let s := watch; (decide (s.fastOn = false) : Bool)) : Bool) = true ∧
    /- clause 15 -/ ((let s := pw (fun p => { p with pllOk := false }); ((decide (s.pwr.pllOk = false) &&
      (decide (fbit s.pwr.rstCtl RstCtl.trimDone = true) && decide (s.fastOn = true))) : Bool)) : Bool) = true ∧
    /- clause 16 -/ ((let s := watch; (decide (s.pwr.power ≠ .backup) : Bool)) : Bool) = true ∧
    /- clause 17 -/ ((let s := backup; (decide (s.pwr.power = .backup) : Bool)) : Bool) = true := by
  decide +kernel

theorem test_witness_PowerStatesResetsAndBoot_1 :
    /- clause 1 -/ ((let s := active; ((decide (s.fastOn = true) && decide (s.pwr.rstLow = false)) : Bool)) : Bool) = true ∧
    /- clause 2 -/ ((let s := pw (fun p => { p with rstLow := true }); (decide (s.pwr.rstLow = true) : Bool)) : Bool) = true ∧
    /- clause 3 -/ ((let s := watch; ((decide (s.fastOn = false) && decide (s.pwr.rstLow = false)) : Bool)) : Bool) = true ∧
    /- clause 5 -/ ((let s := pw (fun p => { p with due := some (.soft, 1000000) });
      ((match s.pwr.due with | some (.soft, d) => true | _ => false) : Bool)) : Bool) = true ∧
    /- clause 6 -/ ((let s := pw (fun p => { p with due := some (.troupe, 1000000) });
      ((match s.pwr.due with | some (.troupe, d) => true | _ => false) : Bool)) : Bool) = true ∧
    /- clause 7 -/ ((let s := up; (decide (s.pwr.due = none) : Bool)) : Bool) = true ∧
    /- clause 8 -/ ((let s := { up with flt := { FltSt.reset with ctl := fput FltSt.reset.ctl FaultCtl.safetyNet 1, fatalAt := some 5 } }; ((decide (s.safetyNet = true) && decide (s.flt.fatalAt.isSome = true)) : Bool)) : Bool) = true ∧
    /- clause 9 -/ ((let s := up; (decide (s.safetyNet = false ∨ s.flt.fatalAt = none) : Bool)) : Bool) = true ∧
    /- clause 10 -/ ((let s := pw (fun p => { p with due := some (.watch, 1000000) });
      ((match s.pwr.due with | some (.watch, d) => decide (s.pwr.power = .staging) | _ => false) : Bool)) : Bool) = true ∧
    /- clause 11 -/ ((let s := up; let quad : Fin 4 := 3; ((decide (s.fastOn = true) &&
      decide (s.pwr.trip125.contains quad.val = false)) : Bool)) : Bool) = true := by
  decide +kernel

theorem test_witness_PowerStatesResetsAndBoot_2 :
    /- clause 12 -/ ((let s := backup; let quad : Fin 4 := 0;
      (decide (s.pwr.power = .backup ∨ s.pwr.trip125.contains quad.val = true) : Bool)) : Bool) = true ∧
    /- clause 14 -/ ((let s := backup; (decide (s.pwr.power = .backup) : Bool)) : Bool) = true ∧
    /- clause 15 -/ ((let s := watch; (decide (s.pwr.power ≠ .backup) : Bool)) : Bool) = true ∧
    /- clause 16 -/ ((let s := watch; let w : WakeSource := .resetN; ((decide (s.pwr.power = .watch) &&
      (decide (s.wakeEnabled w = true) && (decide (s.unheld = true) && decide (s.pwr.wakeHeld = none)))) : Bool)) : Bool) = true ∧
    /- clause 17 -/ ((let s := watch.onPwr (fun p => { p with vFail := [0] }); let w : WakeSource := .resetN;
      ((decide (s.pwr.power = .watch) && (decide (s.wakeEnabled w = true) && decide (s.unheld = false))) : Bool)) : Bool) = true ∧
    /- clause 18 -/ ((let s := watch; let w : WakeSource := .alarm;
      (decide (s.pwr.power ≠ .watch ∨ s.wakeEnabled w = false) : Bool)) : Bool) = true ∧
    /- clause 19 -/ ((let s := watch.onPwr (fun p => { p with wakeHeld := some 2, trip125 := [1] }); let quad : Fin 4 := 1;
      ((decide (s.pwr.power = .watch) &&
      (match s.pwr.wakeHeld with | some c => (decide (s.pwr.vFail = []) && (decide (s.pwr.trip125.erase quad.val = []) && decide (s.pwr.rstLow = false))) | _ => false)) : Bool)) : Bool) = true ∧
    /- clause 20 -/ ((let s := pw (fun p => { p with sampling := true }); let v : BitVec 8 := 0xF3; ((decide (s.pwr.sampling = true) &&
      (decide (s.unheld = true) && (decide (s.fastOn = true) && (decide (v.toNat / 4 % 4 ≠ 3) &&
      decide (v.toNat % 4 = 3 → v.toNat / 16 % 8 ≠ 0))))) : Bool)) : Bool) = true ∧
    /- clause 21 -/ ((let s := pw (fun p => { p with sampling := true }); let v : BitVec 8 := 0x0C; ((decide (s.pwr.sampling = true) &&
      (decide (s.unheld = true) && (decide (s.fastOn = true) && decide (v.toNat / 4 % 4 = 3)))) : Bool)) : Bool) = true ∧
    /- clause 22 -/ ((let s := pw (fun p => { p with sampling := true }); let v : BitVec 8 := 0x03; ((decide (s.pwr.sampling = true) &&
      (decide (s.unheld = true) && (decide (s.fastOn = true) && (decide (v.toNat / 4 % 4 ≠ 3) && (decide (v.toNat % 4 = 3) &&
      decide (v.toNat / 16 % 8 = 0)))))) : Bool)) : Bool) = true := by
  decide +kernel

theorem test_witness_PowerStatesResetsAndBoot_3 :
    /- clause 23 -/ ((let s := up; (decide (s.pwr.sampling = false ∨ s.unheld = false ∨ s.fastOn = false) : Bool)) : Bool) = true ∧
    /- clause 24 -/ ((let s := pw (fun p => { p with sampling := true, strapTries := 15 }); let a : BitVec 8 := 1; let b : BitVec 8 := 1;
      let c : BitVec 8 := 0; ((decide (s.pwr.sampling = true) && (decide (s.unheld = true) && (decide (s.fastOn = true) &&
      decide (a ≠ b ∨ b ≠ c)))) : Bool)) : Bool) = true ∧
    /- clause 25 -/ ((let s := loading; ((decide (s.loadsTrim = true) && decide (s.pwr.trimA ≠ some false)) : Bool)) : Bool) = true ∧
    /- clause 26 -/ ((let s := loading; ((decide (s.loadsTrim = true) && decide (s.pwr.trimA ≠ some false)) : Bool)) : Bool) = true ∧
    /- clause 27 -/ ((let s := loading.onPwr (fun p => { p with trimA := some false }); ((decide (s.loadsTrim = true) &&
      decide (s.pwr.trimA = some false)) : Bool)) : Bool) = true ∧
    /- clause 28 -/ ((let s := loading.onPwr (fun p => { p with trimA := some false, cnt := fput p.cnt Cnt.trimFails 2 });
      ((decide (s.loadsTrim = true) && decide (s.pwr.trimA = some false)) : Bool)) : Bool) = true ∧
    /- clause 29 -/ ((let s := releasing 6; ((decide (s.inRelease = true) && (decide (fbit s.pwr.rstCtl RstCtl.trimDone = true) &&
      decide (s.releaseStep ≠ 0))) : Bool)) : Bool) = true ∧
    /- clause 30 -/ ((let s := releasing 0; ((decide (s.inRelease = true) && (decide (fbit s.pwr.rstCtl RstCtl.trimDone = true) &&
      (decide (s.releaseStep = 0) && decide (s.pwr.pllOk = true)))) : Bool)) : Bool) = true ∧
    /- clause 31 -/ ((let s := (releasing 0).onPwr (fun p => { p with pllOk := false }); ((decide (s.inRelease = true) &&
      (decide (fbit s.pwr.rstCtl RstCtl.trimDone = true) && (decide (s.releaseStep = 0) &&
      decide (s.pwr.pllOk = false)))) : Bool)) : Bool) = true ∧
    /- clause 32 -/ ((let s := up; (decide (s.inRelease = false ∨ fbit s.pwr.rstCtl RstCtl.trimDone = false) : Bool)) : Bool) = true := by
  decide +kernel

theorem test_witness_PowerStatesResetsAndBoot_4 :
    /- clause 33 -/ ((let s := State.reset; let v : ImageVerdict := .proven; ((decide (s.pwr.bootState = .rom) &&
      (decide (s.pwr.bootSrc ≠ 3 ∨ s.pwr.afterRestart = true) && decide (s.imageFails s.activeSlot v = none))) : Bool)) : Bool) = true ∧
    /- clause 34 -/ ((let s := State.reset; let v : ImageVerdict := .keyFails; ((decide (s.pwr.bootState = .rom) &&
      (decide (s.pwr.bootSrc ≠ 3 ∨ s.pwr.afterRestart = true) &&
      (match s.imageFails s.activeSlot v with | some why => true | _ => false))) : Bool)) : Bool) = true ∧
    /- clause 35 -/ ((let s := up; (decide (s.pwr.bootState ≠ .rom) : Bool)) : Bool) = true ∧
    /- clause 36 -/ ((let s := State.reset; (decide (s.pwr.bootState = .rom ∨ s.pwr.bootState = .starting) : Bool)) : Bool) = true ∧
    /- clause 37 -/ ((let s := up; (decide (s.coresRun = true) : Bool)) : Bool) = true ∧
    /- clause 38 -/ ((let s := State.reset; (decide (s.coresRun = true) : Bool)) : Bool) = true ∧
    /- clause 39 -/ ((let s := pw (fun p => { p with due := some (.restart, 1) });
      ((match s.pwr.due with | some (.restart, d) => true | _ => false) : Bool)) : Bool) = true := by
  decide +kernel

theorem test_witness_RecorderHostLinkAndTestEvents_1 :
    /- clause 0 -/ ((let s := up; (decide (s.pwr.bootState ≠ .firmware ∨ s.blockHeld 55 = true ∨ s.flt.queue = []) : Bool)) : Bool) = true ∧
    /- clause 1 -/ ((let s := queued.onFlt (fun f => { f with ovfOwed := true }); ((decide (s.pwr.bootState = .firmware) &&
      (decide (s.blockHeld 55 = false) &&
      (match s.flt.queue with | e :: rest => decide (s.flt.ovfOwed = true) | _ => false))) : Bool)) : Bool) = true ∧
    /- clause 2 -/ ((let s := { queued with rec_ := { RecSt.reset with isolated := true } }; ((decide (s.pwr.bootState = .firmware) &&
      (decide (s.blockHeld 55 = false) &&
      (match s.flt.queue with | e :: rest => (decide (s.flt.ovfOwed = false) && decide (s.rec_.isolated = true)) | _ => false))) : Bool)) : Bool) = true ∧
    /- clause 3 -/ ((let s := { queued with rec_ := { RecSt.reset with device := ⟨0, 0⟩ } }; ((decide (s.pwr.bootState = .firmware) &&
      (decide (s.blockHeld 55 = false) &&
      (match s.flt.queue with | e :: rest => (decide (s.flt.ovfOwed = false) && (decide (s.rec_.isolated = false) && decide (s.rec_.allowed e.ev.code s.time.clk = false))) | _ => false))) : Bool)) : Bool) = true ∧
    /- clause 4 -/ ((let s := queued; ((decide (s.pwr.bootState = .firmware) && (decide (s.blockHeld 55 = false) &&
      (match s.flt.queue with | e :: rest => (decide (s.flt.ovfOwed = false) && (decide (s.rec_.isolated = false) && decide (s.rec_.allowed e.ev.code s.time.clk = true))) | _ => false))) : Bool)) : Bool) = true ∧
    /- clause 5 -/ ((let s := { queued with rec_ := { RecSt.reset with failRun := 15 } }; ((decide (s.pwr.bootState = .firmware) &&
      (decide (s.blockHeld 55 = false) &&
      (match s.flt.queue with | e :: rest => (decide (s.flt.ovfOwed = false) && (decide (s.rec_.isolated = false) && decide (s.rec_.allowed e.ev.code s.time.clk = true))) | _ => false))) : Bool)) : Bool) = true ∧
    /- clause 6 -/ ((let s := up; let r : Fin 4 := 3; ((decide (s.hostPort = true) &&
      decide (s.pwr.hostRate ≠ BitVec.ofNat 2 r.val)) : Bool)) : Bool) = true ∧
    /- clause 7 -/ ((let s := up; let r : Fin 4 := 0;
      (decide (s.hostPort = false ∨ s.pwr.hostRate = BitVec.ofNat 2 r.val) : Bool)) : Bool) = true ∧
    /- clause 9 -/ ((let s := held 56; let b : Fin 57 := 56; (decide (s.blockHeld b.val = true) : Bool)) : Bool) = true ∧
    /- clause 10 -/ ((let s := up; let b : Fin 57 := 0; (decide (s.blockHeld b.val = false) : Bool)) : Bool) = true := by
  decide +kernel

theorem test_witness_RecorderHostLinkAndTestEvents_2 :
    /- clause 11 -/ ((let s := { bootRun with pwr := { PwrSt.reset with bootSrc := 3, troupeId := 1 } };
      ((decide (s.bootLink 0 = true) && decide (s.linkRuns 0 = true)) : Bool)) : Bool) = true ∧
    /- clause 12 -/ ((let s := up; (decide (s.bootLink 0 = false ∨ s.linkRuns 0 = false) : Bool)) : Bool) = true ∧
    /- clause 13 -/ ((let s := { up with tst := { TstSt.reset with memRun := some (0xFFFF, 1) }, ctl := { CtlSt.reset with jobs := [job .memTest .p2] } }; ((match s.tst.memRun with | some (mask, x) => (match s.ctl.jobs.find? (fun j => j.kind == .memTest) with | some j => true | _ => false) | _ => false) : Bool)) : Bool) = true ∧
    /- clause 14 -/ ((let s := up; (decide (s.tst.memRun = none) : Bool)) : Bool) = true ∧
    /- clause 15 -/ ((let s := { up with tst := { TstSt.reset with shadowRun := some (0, 143) }, ctl := { CtlSt.reset with jobs := [job .shadowTest .p1] } }; ((match s.tst.shadowRun with | some (scope, lane) => (match s.ctl.jobs.find? (fun j => j.kind == .shadowTest) with | some j => true | _ => false) | _ => false) : Bool)) : Bool) = true ∧
    /- clause 16 -/ ((let s := up; (decide (s.tst.shadowRun = none) : Bool)) : Bool) = true ∧
    /- clause 17 -/ ((let s := { up with tst := { TstSt.reset with lanes := [(223, ⟨0, 0, 1, 0, true, 0, 0, 0⟩)] } };
      let l : Fin 224 := 223; (decide ((s.testLane l.val).check ≠ 0) : Bool)) : Bool) = true ∧
    /- clause 18 -/ ((let s := up; let l : Fin 224 := 0; (decide ((s.testLane l.val).check = 0) : Bool)) : Bool) = true := by
  decide +kernel

end Sys2Proof.Tests
end

section
/-! PROOFS. What a response changes, port by port (R382, R386, R387), and what a refusal by the checks of R402 leaves. Every claim about a
host command that is answered goes through these lemmas. -/

namespace Sys2Proof.Machine

open Sys2Proof

/-! ### A vector signalled -/

/-- Signalling a vector changes at most its pending bit in the control state. -/
theorem State.signal_ctl (v : Nat) (s : State) : ∃ pba, (s.signal v).ctl = { s.ctl with pba := pba } := by
  unfold State.signal
  split
  · exact ⟨_, rfl⟩
  · split <;> exact ⟨_, rfl⟩

@[simp] theorem State.signal_mailbox (v n : Nat) (s : State) : (s.signal v).mailbox n = s.mailbox n := by
  obtain ⟨pba, h⟩ := s.signal_ctl v
  rw [State.mailbox, h, State.mailbox]

/-! ### Taking up and leaving the queue -/

@[simp] theorem taken_emitted (q : Req) (s : State) : (taken q s).emitted = [] := by obtain ⟨mb, h⟩ := taken_eq q s; rw [h]; rfl
@[simp] theorem taken_ctl_inband (q : Req) (s : State) : (taken q s).ctl.inband = s.ctl.inband := by obtain ⟨mb, h⟩ := taken_eq q s; rw [h]
@[simp] theorem taken_now (q : Req) (s : State) : (taken q s).now = s.now := by obtain ⟨mb, h⟩ := taken_eq q s; rw [h]; rfl
@[simp] theorem taken_sbFrame (q : Req) (s : State) (to_ etype : Nat) (bytes : List Byte) :
    (taken q s).sbFrame to_ etype bytes = s.sbFrame to_ etype bytes := by obtain ⟨mb, h⟩ := taken_eq q s; rw [h]; rfl

theorem taken_kept (q : Req) (s : State) : (taken q s).kept 0x4 = s.kept 0x4 := (takeUp_kept ..).trans (State.kept_fresh ..)

@[simp] theorem dequeue_emitted (op : Nat) (q : Req) (s : State) : (dequeue op q s).emitted = s.emitted := by
  unfold dequeue
  cases q.port <;> rfl

/-- Leaving a queue changes the waiting lists alone. -/
theorem dequeue_ctl (op : Nat) (q : Req) (s : State) :
    ∃ p2 p3 p4, (dequeue op q s).ctl = { s.ctl with p2 := p2, p3 := p3, p4 := p4 } := by
  unfold dequeue
  cases q.port <;> exact ⟨_, _, _, rfl⟩

@[simp] theorem dequeue_ctl_inband (op : Nat) (q : Req) (s : State) : (dequeue op q s).ctl.inband = s.ctl.inband := by
  obtain ⟨p2, p3, p4, h⟩ := dequeue_ctl op q s
  rw [h]

@[simp] theorem dequeue_mailbox (op : Nat) (q : Req) (s : State) (n : Nat) : (dequeue op q s).mailbox n = s.mailbox n := by
  obtain ⟨p2, p3, p4, h⟩ := dequeue_ctl op q s
  rw [State.mailbox, h, State.mailbox]

/-! ### The response on each port -/

section
variable {op st : Nat} {q : Req} {res : List Byte} {s : State}

theorem respond_p0 (h : q.port = .p0) : respond op st q res s = respondMailbox op st q res s := by
  simp only [respond, h]

theorem respond_p1 (h : q.port = .p1) :
    respond op st q res s = s.emit (.response .p1 q.chan q.sender (responseBytes op st q res s.now)) := by
  simp only [respond, h]

theorem respond_p2 (h : q.port = .p2) : respond op st q res s = s.sendP2 q.sender (responseBytes op st q res s.now) := by
  simp only [respond, h]

theorem respond_p3 (h : q.port = .p3) : respond op st q res s = s.sendInBand q.chan q.sender (responseBytes op st q res s.now) := by
  simp only [respond, h]

theorem respond_p4 (h : q.port = .p4) :
    respond op st q res s = s.emit (.response .p4 q.chan q.sender (responseBytes op st q res s.now)) := by
  simp only [respond, h]

end

/-- What a mailbox set and its DONE bit raised leave of the control state. -/
theorem setMb_setDone_ctl (n : Nat) (m : Mb) (done : BitVec 64) (s : State) :
    ((s.setMb n m).onCtl (fun c => { c with doneMap := c.doneMap ||| done })).ctl =
      { s.ctl with mb := tset Mb.idle s.ctl.mb n m, doneMap := s.ctl.doneMap ||| done } := rfl

theorem setMb_setDone_mailbox (n : Nat) (m : Mb) (done : BitVec 64) (s : State) :
    ((s.setMb n m).onCtl (fun c => { c with doneMap := c.doneMap ||| done })).mailbox n = m := tget_tset_same ..

/-- R387 step 4: the mailbox shows DONE and the response. -/
theorem respondMailbox_mailbox (op st : Nat) (q : Req) (res : List Byte) (s : State) :
    (respondMailbox op st q res s).mailbox q.chan =
      { s.mailbox q.chan with
        status := fput (fput (s.mailbox q.chan).status MbStatus.stateF mbDone) MbStatus.status st
        response := responseBytes op st q res s.now } := by
  unfold respondMailbox
  simp only
  split
  · rw [State.signal_mailbox, setMb_setDone_mailbox]
  · rw [setMb_setDone_mailbox]

/-- The STATUS word of a mailbox that is answered: DONE, and the response's status where it has 16 bits. -/
theorem respondMailbox_status {op st : Nat} {q : Req} {res : List Byte} {s : State} (hst : st < 2 ^ 16) :
    fget ((respondMailbox op st q res s).mailbox q.chan).status MbStatus.status = st ∧
      ((respondMailbox op st q res s).mailbox q.chan).state = mbDone := by
  rw [Mb.state, respondMailbox_mailbox]
  constructor
  · have hw : MbStatus.status.width = 16 := rfl
    rw [fget_fput _ _ _ (by decide), hw, Nat.mod_eq_of_lt hst]
  · rw [fget_fput_below _ _ _ _ (by decide) (by decide), fget_fput _ _ _ (by decide)]
    rfl

/-- A mailbox's response changes the mailboxes, DONE_MAP and the pending vectors. -/
theorem respondMailbox_ctl (op st : Nat) (q : Req) (res : List Byte) (s : State) :
    ∃ mb doneMap pba, (respondMailbox op st q res s).ctl = { s.ctl with mb := mb, doneMap := doneMap, pba := pba } := by
  unfold respondMailbox
  simp only
  split
  · obtain ⟨pba, h⟩ := State.signal_ctl (s.ctl.irqCfg.toNat % 64) ((s.setMb q.chan _).onCtl _)
    rw [h, setMb_setDone_ctl]
    exact ⟨_, _, pba, rfl⟩
  · rw [setMb_setDone_ctl]
    exact ⟨_, _, _, rfl⟩

/-- A response in band waits where its sub-port is UP, and changes nothing else of the control state. -/
theorem State.sendInBand_ctl (p sender : Nat) (bytes : List Byte) (s : State) :
    (s.sendInBand p sender bytes).ctl = { s.ctl with
      inband := s.ctl.inband ++ (if (tget subReset s.eth.sub p).link = .up then [⟨p, sender, bytes⟩] else []) } := by
  unfold State.sendInBand
  split
  · rfl
  · rw [List.append_nil]

@[simp] theorem State.sendInBand_emitted (p sender : Nat) (bytes : List Byte) (s : State) :
    (s.sendInBand p sender bytes).emitted = s.emitted := by
  unfold State.sendInBand
  split <;> rfl

/-- A response changes, of the control state, at most the mailboxes, DONE_MAP, the pending vectors and, on P3, what waits in band. -/
theorem respond_ctl (op st : Nat) (q : Req) (res : List Byte) (s : State) :
    ∃ mb doneMap pba inband, (respond op st q res s).ctl =
      { s.ctl with mb := mb, doneMap := doneMap, pba := pba, inband := inband } ∧ (q.port ≠ .p3 → inband = s.ctl.inband) := by
  cases h : q.port with
  | p0 =>
    obtain ⟨mb, doneMap, pba, hc⟩ := respondMailbox_ctl op st q res s
    rw [respond_p0 h, hc]
    exact ⟨_, _, _, _, rfl, fun _ => rfl⟩
  | p1 => rw [respond_p1 h]; exact ⟨_, _, _, _, rfl, fun _ => rfl⟩
  | p2 => rw [respond_p2 h]; exact ⟨_, _, _, _, rfl, fun _ => rfl⟩
  | p3 =>
    rw [respond_p3 h, State.sendInBand_ctl]
    exact ⟨_, _, _, _, rfl, fun hp => absurd rfl hp⟩
  | p4 => rw [respond_p4 h]; exact ⟨_, _, _, _, rfl, fun _ => rfl⟩

/-! ### A command answered -/

/-- Answering a command changes nothing outside the control state. -/
theorem answered_kept (op st : Nat) (q : Req) (res : List Byte) (t : State) : (answered op st q res t).kept 0x4 = t.kept 0x4 :=
  (dequeue_kept ..).trans (respond_kept ..)

/-- Answering a command changes, of the control state, at most the mailboxes, DONE_MAP, the pending vectors, the waiting lists and, on P3,
what waits in band. -/
theorem answered_ctl (op st : Nat) (q : Req) (res : List Byte) (t : State) :
    ∃ mb doneMap pba inband p2 p3 p4, (answered op st q res t).ctl =
      { t.ctl with mb := mb, doneMap := doneMap, pba := pba, inband := inband, p2 := p2, p3 := p3, p4 := p4 } ∧
      (q.port ≠ .p3 → inband = t.ctl.inband) := by
  obtain ⟨p2, p3, p4, hd⟩ := dequeue_ctl op q (respond op st q res t)
  obtain ⟨mb, doneMap, pba, inband, hr, hi⟩ := respond_ctl op st q res t
  refine ⟨mb, doneMap, pba, inband, p2, p3, p4, ?_, hi⟩
  rw [answered, hd, hr]

@[simp] theorem answered_emitted (op st : Nat) (q : Req) (res : List Byte) (t : State) :
    (answered op st q res t).emitted = (respond op st q res t).emitted := dequeue_emitted ..

/-- On P1 and P4 the response leaves at once. -/
theorem answered_taken_emitted_p1_p4 {op st : Nat} {q : Req} {res : List Byte} {s : State} (h : q.port = .p1 ∨ q.port = .p4) :
    (answered op st q res (taken q s)).emitted = [.response q.port q.chan q.sender (responseBytes op st q res s.now)] := by
  rcases h with h | h
  · simp [respond_p1 h, h]
  · simp [respond_p4 h, h]

/-- On P2 the response leaves as a service-bus frame. -/
theorem answered_taken_emitted_p2 {op st : Nat} {q : Req} {res : List Byte} {s : State} (h : q.port = .p2) :
    (answered op st q res (taken q s)).emitted = [.service (s.sbFrame q.sender 0x88B6 (responseBytes op st q res s.now))] := by
  simp [respond_p2 h, State.sendP2]

/-- On P3 nothing leaves yet. -/
theorem answered_taken_emitted_p3 {op st : Nat} {q : Req} {res : List Byte} {s : State} (h : q.port = .p3) :
    (answered op st q res (taken q s)).emitted = [] := by
  simp [respond_p3 h]

/-- On P3 the response waits in band while its sub-port is UP. -/
theorem answered_taken_inband_p3 {op st : Nat} {q : Req} {res : List Byte} {s : State} (h : q.port = .p3) :
    (answered op st q res (taken q s)).ctl.inband = s.ctl.inband ++
      (if (tget subReset s.eth.sub q.chan).link = .up then [⟨q.chan, q.sender, responseBytes op st q res s.now⟩] else []) := by
  simp [answered, respond_p3 h, State.sendInBand_ctl]

/-- On P0 the mailbox is DONE and holds the status. -/
theorem answered_mailbox_p0 {op st : Nat} {q : Req} {res : List Byte} {t : State} (h : q.port = .p0) (hst : st < 2 ^ 16) :
    fget ((answered op st q res t).mailbox q.chan).status MbStatus.status = st ∧
      ((answered op st q res t).mailbox q.chan).state = mbDone := by
  rw [answered, dequeue_mailbox, respond_p0 h]
  exact respondMailbox_status hst

/-! ### A refusal by the checks of R402 -/

/-- A refusal without an event is its response. -/
theorem dequeue_refuse_of_no_event {op : Nat} {q : Req} {e : Err} {s : State} (he : e.event = none) :
    dequeue op q (refuse op q e s) = answered op e.status q e.result s := by
  rw [refuse, State.raiseErr, he, answered]

/-- A command that the checks of R402 refuse is answered, whatever its body would do. -/
theorem serve_gate_err {op : Nat} {q : Req} {s : State} {e : Err} {cmd : Req → State → Res} {peers : List PeerAnswer} (hq : Req.wf q = true)
    (hup : s.pwr.bootState = .firmware) (hon : s.heard q.port = true) (hg : gate op q s.fresh = .error e) :
    serve op cmd q s peers = .next (dequeue op q (refuse op q e (taken q s))) := by
  have hon' : s.fresh.heard q.port = true := hon
  simp only [serve, serveAns, checked, hq, if_true, done, State.fresh_pwr, hup, hon', run, hg, taken]

/-- R402 step 2: with a good header, an opcode the release does not define is refused before every later check. -/
theorem gate_undefined {op : Nat} {q : Req} {s : State} (hh : headerOk q s = true) (hd : opDefined op = false) :
    gate op q s = .error ⟨eUnknownOp, [], none⟩ := by
  unfold gate
  rw [hh, hd]
  rfl

/-- R5: an undefined opcode's request is taken up and answered E_UNKNOWN_OP. -/
theorem exec_undefinedOpcode {op : BitVec 16} {q : Req} {s : State} (hq : Req.wf q = true) (hd : opDefined op.toNat = false)
    (hup : s.pwr.bootState = .firmware) (hon : s.heard q.port = true) (hh : headerOk q s = true) :
    exec (.undefinedOpcode op q) s = .next (answered op.toNat eUnknownOp q [] (taken q s)) := by
  have hg : gate op.toNat q s.fresh = .error ⟨eUnknownOp, [], none⟩ := gate_undefined hh hd
  calc exec (.undefinedOpcode op q) s = execUndefinedOpcode op q s := rfl
    _ = serve op.toNat (fun _ _ => err eUnknownOp) q s := by simp [execUndefinedOpcode, checked, hq, hd]
    _ = .next (dequeue op.toNat q (refuse op.toNat q ⟨eUnknownOp, [], none⟩ (taken q s))) := serve_gate_err hq hup hon hg
    _ = .next (answered op.toNat eUnknownOp q [] (taken q s)) := by rw [dequeue_refuse_of_no_event rfl]

/-- Settles O36: the checks of R402 refuse the opcode before they look at its parameters, deadline or privileges, and a refusal without an
event is one response. -/
theorem undefinedOpcodesChangeNothing : Obligations.UndefinedOpcodesChangeNothing := by
  intro op q s hq hd hup hon hh
  have hk : (answered op.toNat eUnknownOp q [] (taken q s)).kept 0x4 = s.kept 0x4 := (answered_kept ..).trans (taken_kept q s)
  obtain ⟨mb, doneMap, pba, inband, p2, p3, p4, hc, hi⟩ := answered_ctl op.toNat eUnknownOp q [] (taken q s)
  refine ⟨_, exec_undefinedOpcode hq hd hup hon hh, rfl, answered_taken_emitted_p1_p4, answered_taken_emitted_p2,
    fun h => ⟨answered_taken_emitted_p3 h, answered_taken_inband_p3 h⟩, fun h => answered_mailbox_p0 h (by decide),
    time_of_kept hk, pwr_of_kept hk, flt_of_kept hk, rec_of_kept hk, mem_of_kept hk, bud_of_kept hk, rte_of_kept hk, sdi_of_kept hk,
    eth_of_kept hk, flo_of_kept hk, cmp_of_kept hk, cal_of_kept hk, ref_of_kept hk, ptp_of_kept hk, trp_of_kept hk, twin_of_kept hk,
    upd_of_kept hk, tst_of_kept hk, free_of_kept hk, priv_of_kept hk, ?_⟩
  rw [hc]
  simpa using hi

end Sys2Proof.Machine
end

section
/-! PROOFS. The canonical form of the Tile Store (R35 to R37), one lemma for each operation that can store: from a state in canonical form
it leaves one. An operation without a lemma here leaves the Tile Store's bytes as they are, as its `kept` lemma says. -/

namespace Sys2Proof.Machine

open Sys2Proof

/-! ### The view that shows the Tile Store alone -/

/-- The Tile Store, as far as it is shown, is in canonical form. -/
def Kept.canonical (k : Kept) : Bool := k.tiles.all (fun x => Memory.wf (memDefault x.2.2 x.2.1) x.1)

/-- The Tile Store is in canonical form. It is read through the mask that hides every part but the Tile Store's bytes, so that the `kept`
lemmas of operations that do not store apply as they stand. -/
@[simp] abbrev State.Canonical (s : State) : Prop := (s.kept 0xFFFF7F).canonical = true

theorem State.canonical_iff (s : State) : s.Canonical ↔ s.memWf = true := Iff.rfl

@[simp] theorem canonical_ite (c : Prop) [Decidable c] (a b : Kept) :
    (if c then a else b).canonical = true ↔ (c → a.canonical = true) ∧ (¬ c → b.canonical = true) := by
  by_cases h : c <;> simp [h]

/-- A state in canonical form, for what holds of each step of a fold. -/
abbrev CanonicalState := {s : State // s.Canonical}

@[simp] theorem CanonicalState.canonical (s : CanonicalState) : s.1.Canonical := s.2

@[simp] theorem canonical_foldl {α : Type} {g : State → α → State} {s : State} (h : s.Canonical) (l : List α)
    (hg : ∀ (s : CanonicalState) a, (g s.1 a).Canonical) : (l.foldl g s).Canonical := by
  induction l generalizing s with
  | nil => exact h
  | cons a l ih => exact ih (hg ⟨s, h⟩ a)

/-- A step that goes on leaves the Tile Store in canonical form. -/
def OutCanonical : Out → Prop
  | .next t => t.Canonical
  | _ => True

@[simp] theorem outCanonical_done (t : State) : OutCanonical (done t) ↔ t.Canonical := Iff.rfl

@[simp] theorem outCanonical_ite (c : Prop) [Decidable c] (a b : Out) :
    OutCanonical (if c then a else b) ↔ (c → OutCanonical a) ∧ (¬ c → OutCanonical b) := by
  by_cases h : c <;> simp [h]

theorem outCanonical_checked {b : Bool} {o : Out} (h : OutCanonical o) : OutCanonical (checked b o) := by
  cases b with
  | false => trivial
  | true => exact h

theorem Keeps.canonical {s : State} {o : Out} (h : s.Canonical) (e : Keeps 0xFFFF7F (s.kept 0xFFFF7F) o) : OutCanonical o := by
  cases o with
  | next t => exact (congrArg Kept.canonical e).trans h
  | fault _ => trivial
  | refused _ => trivial

/-- An accepted command leaves the Tile Store in canonical form. -/
structure OkCanonical {α : Type} (g : α → State) (r : Except Err α) : Prop where
  out : ∀ a, r = .ok a → (g a).Canonical

theorem OkCanonical.error {α : Type} {g : α → State} (e : Err) : OkCanonical g (.error e) := ⟨fun _ h => by cases h⟩

theorem OkCanonical.pure {α : Type} {g : α → State} {a : α} (h : (g a).Canonical) : OkCanonical g (pure a) :=
  ⟨fun _ e => by cases e; exact h⟩

theorem OkCanonical.bind {α β : Type} {g : β → State} {x : Except Err α} {f : α → Except Err β} (h : ∀ a, OkCanonical g (f a)) :
    OkCanonical g (x >>= f) := by
  cases x with
  | error e => exact OkCanonical.error e
  | ok a => exact h a

theorem OkCanonical.map {α β : Type} {p : α → State} {g : β → State} {x : Except Err α} {f : α → β} (hx : OkCanonical p x)
    (h : ∀ a, (g (f a)).Canonical ↔ (p a).Canonical) : OkCanonical g (x.map f) := by
  cases x with
  | error e => exact OkCanonical.error e
  | ok a => exact OkCanonical.pure ((h a).2 (hx.out a rfl))

theorem OkKept.canonical {α : Type} {s : State} {g : α → State} {r : Except Err α} (e : OkKept 0xFFFF7F (s.kept 0xFFFF7F) g r)
    (h : s.Canonical) : OkCanonical g r := ⟨fun a ha => (congrArg Kept.canonical (e.out a ha)).trans h⟩

theorem OkCanonical.step {α β : Type} {p : α → State} {g : β → State} {x : Except Err α} {f : α → Except Err β}
    (hx : OkCanonical p x) (h : ∀ a, (p a).Canonical → OkCanonical g (f a)) : OkCanonical g (x >>= f) := by
  cases x with
  | error e => exact OkCanonical.error e
  | ok a => exact h a (hx.out a rfl)

/-! ### Serving -/

/-- What an operation that leaves the Tile Store as it is leaves, is in canonical form. -/
theorem canonical_of_kept {s t : State} (e : t.kept 0xFFFF7F = s.kept 0xFFFF7F) (h : s.Canonical) : t.Canonical :=
  (congrArg Kept.canonical e).trans h

section
variable {op : Nat} {q : Req} {s : State} {peers : List PeerAnswer}

theorem holdMirror_canonical {a : Ans} (h : s.Canonical) (ha : a.state.Canonical) : (holdMirror op q a s peers).Canonical := by
  refine canonical_of_kept ((State.sendMessage_kept ..).trans ((State.kept_onCtl _ _ rfl).trans (State.kept_onTwin ..))) ?_
  split
  · exact ha
  · exact h

theorem run_canonical {body : Req → State → Except Err Ans} (h : s.Canonical)
    (hb : ∀ {s : State}, s.Canonical → OkCanonical Ans.state (body q s)) : (run op body q s peers).Canonical := by
  have ht : (takeUp q s).Canonical := by simp [h]
  refine canonical_of_kept (dequeue_kept ..) ?_
  split
  · simp [h]
  · split
    · simp [h]
    · next a ha =>
      split
      · exact holdMirror_canonical ht ((hb ht).out a ha)
      · exact canonical_of_kept (settle_kept ..) ((hb ht).out a ha)

theorem runRescue_canonical {body : Req → State → Except Err Ans} (h : s.Canonical)
    (hb : ∀ {s : State}, s.Canonical → OkCanonical Ans.state (body q s)) : (runRescue op body q s).Canonical := by
  have ht : (takeUp q s).Canonical := by simp [h]
  refine canonical_of_kept (dequeue_kept ..) ?_
  split
  · simp [h]
  · split
    · simp [h]
    · split
      · simp [h]
      · next a ha => exact canonical_of_kept (settle_kept ..) ((hb ht).out a ha)

/-- A served command keeps the canonical form where its body does. -/
theorem serveAns_canonical {body : Req → State → Except Err Ans} (h : s.Canonical)
    (hb : ∀ {s : State}, s.Canonical → OkCanonical Ans.state (body q s)) : OutCanonical (serveAns op body q s peers) := by
  have hf : s.fresh.Canonical := by simp [h]
  unfold serveAns
  refine outCanonical_checked ?_
  rw [outCanonical_done]
  split
  · split
    · exact run_canonical hf hb
    · simp [h]
  · split
    · exact runRescue_canonical hf hb
    · exact hf
  · split
    · exact runRescue_canonical hf hb
    · exact hf
  · split <;> simp [h]

theorem serve_canonical {body : Req → State → Res} (h : s.Canonical)
    (hb : ∀ {s : State}, s.Canonical → OkCanonical (fun x => x.1) (body q s)) : OutCanonical (serve op body q s peers) :=
  serveAns_canonical h fun h => (hb h).map fun _ => Iff.rfl

end

section
variable {s : State} (h : s.Canonical)
include h

/-! ### Stores -/

@[simp] theorem State.storeBytes_canonical (a bs) : (s.storeBytes a bs).Canonical := storeBytes_memWf a bs s h

@[simp] theorem State.putTile_canonical (r eseq bytes pos fin poison) : (s.putTile r eseq bytes pos fin poison).Canonical :=
  putTile_memWf r eseq bytes pos fin poison s h

@[simp] theorem State.poisonTile_canonical (r e) : (s.poisonTile r e).Canonical := poisonTile_memWf r e s h

/-- Power state that keeps the card kind keeps the form of the Tile Store. -/
@[simp] theorem State.onPwr_canonical {f : PwrSt → PwrSt} (hr : (f s.pwr).reduced = s.pwr.reduced) : (s.onPwr f).Canonical :=
  canonical_of_kept (State.kept_onPwr f s hr) h

@[simp] theorem State.onCtl_canonical (f) : (s.onCtl f).Canonical := h

/-! ### Writer -/

@[simp] theorem State.abandon_canonical (r ranOut) : (s.abandon r ranOut).Canonical := by simp [State.abandon, h]

@[simp] theorem State.abandonCounted_canonical (r l ranOut) : (s.abandonCounted r l ranOut).Canonical := by simp [State.abandonCounted, h]

@[simp] theorem State.startUnit_canonical (r l) : (s.startUnit r l).Canonical := by simp [State.startUnit, h]

@[simp] theorem State.closeTile_canonical (r l bytes fin) : (s.closeTile r l bytes fin).Canonical := by simp [State.closeTile, h]

@[simp] theorem State.feed_canonical (r l b) : (s.feed r l b).Canonical := by simp [State.feed, h]

@[simp] theorem State.flush_canonical (r l) : (s.flush r l).Canonical := by simp [State.flush, h]

@[simp] theorem State.feedLine_canonical (r l b) : (s.feedLine r l b).Canonical := by
  unfold State.feedLine
  extract_lets d w0 n1 s0 w line s1 _ s2
  have h0 : s0.Canonical := by simp [s0, h]
  have h1 : s1.Canonical := by simp [s1, h0]
  simp [s2, h1]

@[simp] theorem State.feedUnit_canonical (r l b) : (s.feedUnit r l b).Canonical := by simp [State.feedUnit, h]

@[simp] theorem State.endUnit_canonical (r l) : (s.endUnit r l).Canonical := by simp [State.endUnit, h]

@[simp] theorem State.feedOrOpen_canonical (r l bytes) : (s.feedOrOpen r l bytes).Canonical := by simp [State.feedOrOpen, h]

@[simp] theorem State.writeUnit_canonical (r l bytes) : (s.writeUnit r l bytes).Canonical := by simp [State.writeUnit, h]

@[simp] theorem State.writeAudio_canonical (r l bytes poison) : (s.writeAudio r l bytes poison).Canonical := by simp [State.writeAudio, h]

@[simp] theorem State.commitTile_canonical (r t) : (s.commitTile r t).Canonical := by
  unfold State.commitTile
  extract_lets w s1 d d1 s2
  have h1 : s1.Canonical := by simp [s1, h]
  have h2 : s2.Canonical := by simp [s2, h1]
  split
  · split
    · split
      · simp [h2]
      · exact h2
    · exact h2
  · exact h2

@[simp] theorem State.stopWriter_canonical (r) : (s.stopWriter r).Canonical := by simp [State.stopWriter, h]

@[simp] theorem State.rxAbandon_canonical (part whole) : (s.rxAbandon part whole).Canonical := by simp [State.rxAbandon, h]

@[simp] theorem State.rxStop_canonical (x whole) : (s.rxStop x whole).Canonical := by simp [State.rxStop, h]

@[simp] theorem State.rxLose_canonical (x lock event) : (s.rxLose x lock event).Canonical := by simp [State.rxLose, h]

@[simp] theorem State.groupLose_canonical (ld l lock) : (s.groupLose ld l lock).Canonical := by simp [State.groupLose, h]

@[simp] theorem State.laneLose_canonical (l lock) : (s.laneLose l lock).Canonical := by simp [State.laneLose, h]

@[simp] theorem State.rxFrame_canonical (x i) : (s.rxFrame x i).Canonical := by
  unfold State.rxFrame
  simp only
  split <;> simp [h]

@[simp] theorem State.linkFrame_canonical (l i) : (s.linkFrame l i).Canonical := by
  unfold State.linkFrame
  simp only
  split <;> simp [h]

@[simp] theorem State.groupJudge_canonical (ld steady) : (s.groupJudge ld steady).Canonical := by
  unfold State.groupJudge
  extract_lets x ls seen v s1 s2
  have h1 : s1.Canonical := by simp [s1, h]
  have h2 : s2.Canonical := by simp [s2, h1]
  split
  · simp [h2]
  · split
    · exact h
    · simp [h]

@[simp] theorem State.laneFrame_canonical (l i) : (s.laneFrame l i).Canonical := by simp [State.laneFrame, h]

@[simp] theorem State.rxVideo_canonical (x i) : (s.rxVideo x i).Canonical := by
  unfold State.rxVideo
  split
  · exact h
  · next r _ =>
    extract_lets l v s1
    have h1 : s1.Canonical := by simp [s1, h]
    simp [h, h1]

@[simp] theorem State.rxPacket_canonical (x src p) : (s.rxPacket x src p).Canonical := by
  unfold State.rxPacket
  split
  · simp [h]
  · split
    · exact h
    · split <;> simp [h]

@[simp] theorem State.rxEndAnc_canonical (x) : (s.rxEndAnc x).Canonical := by
  unfold State.rxEndAnc
  split <;> simp [h]

@[simp] theorem State.rxTile_canonical (x slot r loc) : (s.rxTile x slot r loc).Canonical := by simp [State.rxTile, h]

@[simp] theorem State.rxCloseSlot_canonical (x slot r loc) : (s.rxCloseSlot x slot r loc).Canonical := by simp [State.rxCloseSlot, h]

@[simp] theorem State.rxAudio_canonical (x src p) : (s.rxAudio x src p).Canonical := by
  unfold State.rxAudio
  simp only
  split <;> simp [h]

@[simp] theorem State.rxSilence_canonical (x src) : (s.rxSilence x src).Canonical := by
  unfold State.rxSilence
  extract_lets ms step
  refine canonical_foldl h _ fun s slot => ?_
  split
  · simp
  · next r _ =>
    extract_lets v t s1
    simp [s1]

@[simp] theorem State.rxLineAudio_canonical (owner src i) : (s.rxLineAudio owner src i).Canonical := by
  unfold State.rxLineAudio
  split
  · exact h
  · exact State.rxSilence_canonical (canonical_foldl h _ (by simp)) _ _

@[simp] theorem State.rxLine1_canonical (x) : (s.rxLine1 x).Canonical := by
  unfold State.rxLine1
  split <;> simp [h]

@[simp] theorem State.rxLine_canonical (x o i) : (s.rxLine x o i).Canonical := by
  unfold State.rxLine
  extract_lets v0 s0 line _ s1 _ s2 writes s3 il s4 s5 s6
  have h0 : s0.Canonical := by simp [s0, h]
  have h1 : s1.Canonical := by simp [s1, h0]
  have h2 : s2.Canonical := by simp [s2, h1]
  have h3 : s3.Canonical := by simp [s3, h2]
  have h4 : s4.Canonical := by simp [s4, h3]
  have h5 : s5.Canonical := by simp [s5, h4]
  have h6 : s6.Canonical := by simp [s6, h5]
  simp [h0, h6]

@[simp] theorem State.bondFeed_canonical (ld r n) : (s.bondFeed ld r n).Canonical := by
  induction n generalizing s with
  | zero => exact h
  | succ n ih =>
    unfold State.bondFeed
    split
    · exact h
    · next first row rest _ =>
      extract_lets s1
      have h1 : s1.Canonical := by simp [s1, h]
      exact ih (by simp [h1])

@[simp] theorem State.bondVideo_canonical (ld l i) : (s.bondVideo ld l i).Canonical := by
  unfold State.bondVideo
  split <;> simp [h]

@[simp] theorem State.bondLine1_canonical (ld l) : (s.bondLine1 ld l).Canonical := by simp [State.bondLine1, h]

@[simp] theorem State.bondEnd_canonical (ld l) : (s.bondEnd ld l).Canonical := by simp [State.bondEnd, h]

@[simp] theorem State.bondLine_canonical (ld l i) : (s.bondLine ld l i).Canonical := by
  unfold State.bondLine
  extract_lets s0 line locked _ s1 _ s2 s3 s4
  have h0 : s0.Canonical := by simp [s0, h]
  have h1 : s1.Canonical := by simp [s1, h0]
  have h2 : s2.Canonical := by simp [s2, h1]
  have h3 : s3.Canonical := by simp [s3, h2]
  have h4 : s4.Canonical := by simp [s4, h3]
  simp [h0, h4]

@[simp] theorem State.laneLine_canonical (l i) : (s.laneLine l i).Canonical := by
  unfold State.laneLine
  simp only
  split <;> simp [h]

@[simp] theorem State.rxGroupLost_canonical (x src g) : (s.rxGroupLost x src g).Canonical := by
  unfold State.rxGroupLost
  split <;> simp [h]

theorem execSignalAbsence_canonical (l) : OutCanonical (execSignalAbsence l s) := by simp [execSignalAbsence, h]

theorem execCdrLockLoss_canonical (l) : OutCanonical (execCdrLockLoss l s) := by
  unfold execCdrLockLoss
  simp only
  split <;> simp [h]

theorem execSdiLine_canonical (l info) : OutCanonical (execSdiLine l info s) := by simp [execSdiLine, h]

theorem execSdiFrame_canonical (l info) : OutCanonical (execSdiFrame l info s) := by simp [execSdiFrame, h]

theorem execAudioGroupAbsence_canonical (x group) : OutCanonical (execAudioGroupAbsence x group s) := by
  unfold execAudioGroupAbsence
  extract_lets s1
  have h1 : s1.Canonical := by simp [s1, h]
  split
  · simp [h1]
  · extract_lets lead
    split <;> simp [h1]

@[simp] theorem State.rxHalt_canonical (l) : (s.rxHalt l).Canonical := by simp [State.rxHalt, h]

@[simp] theorem State.unbond_canonical (l bond) : (s.unbond l bond).Canonical := by simp [State.unbond, h]

@[simp] theorem sdiWriteDo_canonical (l new) : (sdiWriteDo l new s).Canonical := by
  unfold sdiWriteDo
  extract_lets old fall s0 s1 s2
  have h0 : s0.Canonical := by simp [s0, h]
  have h1 : s1.Canonical := by simp [s1, h0]
  have h2 : s2.Canonical := by simp [s2, h1]
  simp [h2]

theorem cmdSdiWrite_canonical (q) : OkCanonical (fun x => x.1) (cmdSdiWrite q s) := by
  refine OkCanonical.step ((sdiWriteCheck_ok ..).canonical h) fun x hx => ?_
  exact OkCanonical.pure (sdiWriteDo_canonical hx ..)

theorem execSdiWrite_canonical (q) : OutCanonical (execSdiWrite q s) := serve_canonical h fun h => cmdSdiWrite_canonical h q

end
end Sys2Proof.Machine
end

section
/-! PROOFS. The canonical form of the Tile Store, continued: what the 2110 depacketisers, the classifier, HOST_INSERT, the merge ports,
the Composers and Calliope write into rings. -/

namespace Sys2Proof.Machine

open Sys2Proof

section
variable {s : State} (h : s.Canonical)
include h

@[simp] theorem State.depClose_canonical (r l upto touched force) : (s.depClose r l upto touched force).Canonical := by
  simp [State.depClose, h]

@[simp] theorem State.depBadFrame_canonical (r) : (s.depBadFrame r).Canonical := by simp [State.depBadFrame, h]

@[simp] theorem State.depEndField_canonical (r short) : (s.depEndField r short).Canonical := by simp [State.depEndField, h]

@[simp] theorem State.depFinish_canonical (r) : (s.depFinish r).Canonical := by simp [State.depFinish, h]

@[simp] theorem State.depOpen_canonical (r p second first) : (s.depOpen r p second first).Canonical := by simp [State.depOpen, h]

@[simp] theorem State.depPlace_canonical (r k g b l) : (State.depPlace r k g b (s, l)).1.Canonical := by
  unfold State.depPlace
  simp only
  split_ifs <;> simp [h]

theorem depPlaces_canonical (r d bits8) (gs : List Segment) (late) : (gs.foldl (fun b g =>
    State.depPlace r ((if g.second then fieldLines d false else 0) + g.row) g bits8 b) (s, late)).1.Canonical := by
  induction gs generalizing s late with
  | nil => exact h
  | cons g gs ih => exact ih (State.depPlace_canonical h ..) _

@[simp] theorem State.depVideo_canonical (r p a) : (s.depVideo r p a).Canonical := by
  unfold State.depVideo
  extract_lets x d gs second first shapes outside ends
  split
  next v1 new _ =>
  extract_lets s1 behind s2 v2 v3 s3 s4 s5
  have h1 : s1.Canonical := by simp [s1, h]
  have h2 : s2.Canonical := by simp [s2, h1]
  have h4 : s4.Canonical := by simp [s4, s3, h2]
  have h5 : s5.Canonical := by
    have hp := depPlaces_canonical h4 r d a gs false
    simp only [s5]
    split <;> simp [h4, hp]
  simp [h, h1, h2, h5]

@[simp] theorem State.audioClose_canonical (r) : (s.audioClose r).Canonical := by
  unfold State.audioClose
  simp only
  split <;> simp [h]

@[simp] theorem State.audioCloses_canonical (r) : (s.audioCloses r).Canonical := by
  unfold State.audioCloses
  refine canonical_foldl h _ fun s _ => ?_
  simp only
  split <;> simp

@[simp] theorem State.depAudio_canonical (r aes p) : (s.depAudio r aes p).Canonical := by simp [State.depAudio, h]

theorem execAudioTileTimeout_canonical (ring) : OutCanonical (execAudioTileTimeout ring s) := by
  unfold execAudioTileTimeout
  simp only
  split <;> simp [h]

@[simp] theorem State.depAnc_canonical (r p) : (s.depAnc r p).Canonical := by
  unfold State.depAnc
  extract_lets x l all good bad
  split
  extract_lets behind s1 s2 s3 s4
  have h1 : s1.Canonical := by simp [s1, h]
  have h2 : s2.Canonical := by simp [s2, h1]
  have h3 : s3.Canonical := by simp [s3, h2]
  have h4 : s4.Canonical := by simp [s4, h3]
  simp [h, h4]

@[simp] theorem State.depOpaque_canonical (r p bytes) : (s.depOpaque r p bytes).Canonical := by simp [State.depOpaque, h]

@[simp] theorem State.serialLine_canonical (r i) : (s.serialLine r i).Canonical := by
  unfold State.serialLine
  simp only
  split <;> simp [h]

@[simp] theorem State.depSerial_canonical (r p a b) : (s.depSerial r p a b).Canonical := by
  unfold State.depSerial
  extract_lets v0
  split
  extract_lets s1 s2
  have h2 : s2.Canonical := by simp [s2, s1, h]
  split
  · simp [h]
  split
  · exact h2
  · split
    · exact h2
    · split <;> simp [h2]

@[simp] theorem State.depacketise_canonical (r essence sub data f) : (s.depacketise r essence sub data f).Canonical := by
  unfold State.depacketise
  extract_lets _ s1
  have h1 : s1.Canonical := by simp [s1, h]
  split
  · exact h1
  · split
    · exact h1
    · split <;> simp [h1]

@[simp] theorem State.depStop_canonical (r) : (s.depStop r).Canonical := by simp [State.depStop, h]

@[simp] theorem State.subLeave_canonical (p u) : (s.subLeave p u).Canonical := by simp [State.subLeave, h]

theorem execSubportLinkLoss_canonical (p fec) : OutCanonical (execSubportLinkLoss p fec s) := by simp [execSubportLinkLoss, h]

@[simp] theorem State.portStop_canonical (n) : (s.portStop n).Canonical := by simp [State.portStop, h]

@[simp] theorem ethWriteDo_canonical (n new) : (ethWriteDo n new s).Canonical := by simp [ethWriteDo, h]

theorem cmdEthWrite_canonical (q) : OkCanonical (fun x => x.1) (cmdEthWrite q s) :=
  OkCanonical.bind fun x => OkCanonical.pure (by simp [h])

@[simp] theorem flowDeleteDo_canonical (f) : (flowDeleteDo f s).Canonical := by simp [flowDeleteDo, h]

theorem cmdFlowDelete_canonical (q) : OkCanonical (fun x => x.1) (cmdFlowDelete q s) :=
  OkCanonical.bind fun x => OkCanonical.pure (by simp [h])

@[simp] theorem State.captureUnit_canonical (r sub bytes) : (s.captureUnit r sub bytes).Canonical := by
  unfold State.captureUnit
  split <;> simp [h]

@[simp] theorem hostqUnbindDo_canonical (n) : (hostqUnbindDo n s).Canonical := by simp [hostqUnbindDo, h]

theorem cmdHostqUnbind_canonical (q) : OkCanonical (fun x => x.1) (cmdHostqUnbind q s) :=
  OkCanonical.bind fun x => OkCanonical.pure (by simp [h])

@[simp] theorem State.insertBytes_canonical (r before bytes) : (s.insertBytes r before bytes).Canonical := by
  have hf (n) : (s.feed r locHost (bytes.take n)).Canonical := by simp [h]
  simp [State.insertBytes, h, hf]

@[simp] theorem hostInsertDo_canonical (g) : (hostInsertDo g s).1.Canonical := by
  unfold hostInsertDo
  extract_lets v r d before after n s0 s1 w s2 s3
  have h1 : s1.Canonical := by simp [s1, s0, h]
  split
  · simp [h1]
  · have h2 : s2.Canonical := by simp [s2, h1]
    simp [s3, h2]

theorem cmdHostInsert_canonical (q) : OkCanonical Ans.state (cmdHostInsert q s) := by
  refine OkCanonical.bind fun g => ?_
  simp only
  split
  · exact OkCanonical.pure (g := Ans.state) (hostInsertDo_canonical h g)
  · exact OkCanonical.pure (g := Ans.state) (hostInsertDo_canonical h g)

@[simp] theorem State.flowAct_canonical (f p i frame) : (s.flowAct f p i frame).Canonical := by
  unfold State.flowAct
  split
  · simp [h]
  · split <;> simp [h]
  · exact h

@[simp] theorem State.classify_canonical (p frame) : (s.classify p frame).Canonical := by
  unfold State.classify
  extract_lets e
  split
  next mgmt inband _ =>
  split
  · simp [h]
  · split
    · simp [h]
    · split
      · simp [h]
      · split
        · simp [h]
        · split <;> simp [h]

@[simp] theorem State.judgeFrame_canonical (k f) : (s.judgeFrame k f).Canonical := by simp [State.judgeFrame, h]

theorem execFrameReceived_canonical (p f) : OutCanonical (execFrameReceived p f s) := by
  unfold execFrameReceived
  extract_lets k s0 s1 s2 s3
  have h2 : s2.Canonical := by simp [s2, s1, s0, h]
  simp [s0, s3, h, h2]

@[simp] theorem mergeWriteDo_canonical (m old new) : (mergeWriteDo m old new s).Canonical := by simp [mergeWriteDo, h]

theorem cmdMergeWrite_canonical (q) : OkCanonical (fun x => x.1) (cmdMergeWrite q s) := by
  refine OkCanonical.step ((mergeWriteCheck_ok ..).canonical h) fun x hx => ?_
  exact OkCanonical.pure (mergeWriteDo_canonical hx ..)

@[simp] theorem State.mergePut_canonical (m n j b) : (s.mergePut m n j b).Canonical := by
  unfold State.mergePut
  extract_lets o l d s1
  have h0 : ((s.mergeOpens m n).startUnit o l).Canonical := by simp [h]
  have h1 : s1.Canonical := by simp [s1, h, h0]
  simp [h, h1]

@[simp] theorem State.mergeMissing_canonical (m n) : (s.mergeMissing m n).Canonical := by
  unfold State.mergeMissing
  extract_lets o l d s1 s2 v s3
  have h1 : s1.Canonical := by
    simp only [s1]
    split
    · exact State.writeAudio_canonical (by simp [h]) ..
    · split <;> simp [h]
  simp [s3, s2, h1]

@[simp] theorem State.mergeChoose_canonical (m n j a b) : (s.mergeChoose m n j a b).Canonical := by
  unfold State.mergeChoose
  split <;> simp [h]

@[simp] theorem State.mergeTile_canonical (m n j tiles at_) : (s.mergeTile m n j tiles at_).Canonical := by simp [State.mergeTile, h]

theorem execMergeDecision_canonical (m) : OutCanonical (execMergeDecision m s) := by simp [execMergeDecision, h]

@[simp] theorem State.compFrame_canonical (n v) : (s.compFrame n v).Canonical := by
  unfold State.compFrame
  extract_lets c on s1 st s2 s3
  have h1 : s1.Canonical := by simp [s1, h]
  simp [s3, s2, h1]

@[simp] theorem State.compAtF_canonical (n) : (s.compAtF n).Canonical := by
  unfold State.compAtF
  extract_lets s1 o st w s2 v
  have h1 : s1.Canonical := by simp [s1, h]
  have h2 : s2.Canonical := by
    simp only [s2]
    split <;> simp [h1]
  simp [h2]

theorem execComposerFrameStart_canonical (c k) : OutCanonical (execComposerFrameStart c k s) := by
  unfold execComposerFrameStart
  extract_lets n s0 s1
  have h0 : s0.Canonical := by simp [s0, h]
  have h1 : s1.Canonical := by
    simp only [s1]
    split <;> simp [h0]
  simp [h0, h1]

@[simp] theorem State.overdue_canonical (r) : (s.overdue r).Canonical := by simp [State.overdue, h]

@[simp] theorem State.stepOut_canonical (old buses o) : (State.stepOut old buses o s).Canonical := by
  unfold State.stepOut
  extract_lets r s0 d hz ch chans rows dyns np
  have h0 : s0.Canonical := by simp [s0, h]
  split
  exact State.writeAudio_canonical (by simp [h0]) ..

@[simp] theorem State.calTick_canonical : s.calTick.Canonical := by
  unfold State.calTick
  extract_lets s1 s2 s3
  have h1 : s1.Canonical := by simp [s1, h]
  have h2 : s2.Canonical := by simp [s2, h1]
  have h3 : s3.Canonical := by simp [s3, h2]
  have h4 : s3.stepBuses.1.Canonical := by simp [h3]
  exact canonical_foldl h4 _ (by simp)

theorem execCalliopeTick_canonical : OutCanonical (execCalliopeTick s) := by simp [execCalliopeTick, h]

end

end Sys2Proof.Machine
end

section
/-! PROOFS. The canonical form of the Tile Store, continued: imports over Svanum links, the resets and releases that clear memory, the
restarts of the Ringmaster, the blocks held in reset and the reactions to faults. -/

namespace Sys2Proof.Machine

open Sys2Proof

section
variable {s : State} (h : s.Canonical)
include h

@[simp] theorem State.dropTraffic_canonical (k) : (s.dropTraffic k).Canonical := by
  unfold State.dropTraffic
  extract_lets ex s1 s2 peer im
  have h1 : s1.Canonical := by simp [s1, h]
  have h2 : s2.Canonical := by simp [s2, h1]
  exact canonical_foldl h2 _ (by simp)

@[simp] theorem State.fallLink_canonical (k) : (s.fallLink k).Canonical := by simp [State.fallLink, h]

@[simp] theorem State.loseLink_canonical (k) : (s.loseLink k).Canonical := by simp [State.loseLink, h]

@[simp] theorem State.stopLink_canonical (k) : (s.stopLink k).Canonical := by
  unfold State.stopLink
  extract_lets s1 lanes s2
  have h1 : s1.Canonical := by simp [s1, h]
  have h2 : s2.Canonical := by simp [s2, h1]
  simp [h2]

@[simp] theorem State.syncLink_canonical (k) : (s.syncLink k).Canonical := by simp [State.syncLink, h]

@[simp] theorem State.dropLane_canonical (k l) : (s.dropLane k l).Canonical := by simp [State.dropLane, h]

@[simp] theorem State.failLane_canonical (k l) : (s.failLane k l).Canonical := by
  unfold State.failLane
  extract_lets _ s1 v
  have h1 : s1.Canonical := by simp [s1, h]
  have h2 : (v.active.foldl (fun s x => (s.laneF x LaneRec.laneState laneFailed).setSvRun x
      { s.svRun x with failing := false }) s1).Canonical := canonical_foldl h1 _ (by simp)
  simp [h, h1, h2]

theorem execLaneMarker_canonical (lane arrived stuffing) : OutCanonical (execLaneMarker lane arrived stuffing s) := by
  unfold execLaneMarker
  extract_lets s0 l r now r1 s1
  have h0 : s0.Canonical := by simp [s0, h]
  have h1 : s1.Canonical := by simp [s1, h0]
  split
  · exact h0
  · next k _ =>
    split
    · exact h0
    · split
      · simp [h0]
      · simp [h1]

theorem execLaneDrop_canonical (k lane) : OutCanonical (execLaneDrop k lane s) := by simp [execLaneDrop, h]

@[simp] theorem troupeWriteDo_canonical (e) : (troupeWriteDo e s).Canonical := by simp [troupeWriteDo, h]

theorem cmdTroupeWrite_canonical (q) : OkCanonical (fun x => x.1) (cmdTroupeWrite q s) :=
  OkCanonical.bind fun x => OkCanonical.pure (by simp [h])

@[simp] theorem linkWriteDo_canonical (k e) : (linkWriteDo k e s).Canonical := by simp [linkWriteDo, h]

theorem cmdLinkWrite_canonical (q) : OkCanonical (fun x => x.1) (cmdLinkWrite q s) :=
  OkCanonical.bind fun x => OkCanonical.pure (by simp [h])

@[simp] theorem unimport_canonical (i r) : (unimport i r s).Canonical := by simp [unimport, h]

theorem unimportHere_canonical (a) : OkCanonical id (unimportHere a s) := by
  unfold unimportHere
  split
  · split
    · exact OkCanonical.pure (unimport_canonical h ..)
    · exact OkCanonical.error _
  · exact OkCanonical.pure h

theorem cmdTroupeUnimport_canonical (peers q) : OkCanonical (fun x => x.1) (cmdTroupeUnimport peers q s) := by
  refine OkCanonical.bind fun a => OkCanonical.bind fun _ => ?_
  refine OkCanonical.step ((unexportHere_ok ..).canonical h) fun s1 h1 => ?_
  refine OkCanonical.step (unimportHere_canonical h1 a) fun s2 h2 => OkCanonical.bind fun _ => OkCanonical.pure ?_
  exact canonical_foldl h2 _ (by simp)

@[simp] theorem State.importWrite_canonical (i r l bytes fin bad) : (s.importWrite i r l bytes fin bad).Canonical := by
  simp [State.importWrite, h]

@[simp] theorem State.importGap_canonical (i r l n) : (s.importGap i r l n).Canonical := by simp [State.importGap, h]

@[simp] theorem State.importTile_canonical (i l c) : (s.importTile i l c).Canonical := by
  unfold State.importTile
  extract_lets r v off e w s0 payload bad fin
  have h0 : s0.Canonical := by simp [s0, h]
  split
  · exact h
  split
  · exact h
  · next gap _ =>
    extract_lets s1 s2
    have h1 : s1.Canonical := by simp [s1, h0]
    have h2 : s2.Canonical := by simp [s2, h1]
    simp [h2]

theorem execImportTile_canonical (i cells) : OutCanonical (execImportTile i cells s) := by
  unfold execImportTile
  simp only
  split <;> simp [h]

theorem execAbandon_canonical (i skipped resume) : OutCanonical (execAbandon i skipped resume s) := by
  unfold execAbandon
  extract_lets s0 e r l
  have h0 : s0.Canonical := by simp [s0, h]
  split
  · exact h0
  · split
    · exact h0
    · extract_lets s1 s2 s3
      have h1 : s1.Canonical := by
        simp only [s1]
        split <;> simp [h0]
      have h2 : s2.Canonical := by simp [s2, h1]
      have h3 : s3.Canonical := by
        simp only [s3]
        split
        · split <;> simp [h2]
        · exact h2
      simp [h3]

omit h in
@[simp] theorem State.cleared_canonical : s.cleared.Canonical := rfl

omit h in
@[simp] theorem State.startRelease_canonical (straps wake) : (s.startRelease straps wake).Canonical := by simp [State.startRelease]

omit h in
@[simp] theorem State.fullReset_canonical (c) : (s.fullReset c).Canonical := by simp [State.fullReset]

omit h in
theorem execPowerOn_canonical : OutCanonical (execPowerOn s) :=
  State.fullReset_canonical .por

theorem execResetN_canonical : OutCanonical (execResetN s) := by
  unfold execResetN
  extract_lets s0 s1
  have h0 : s0.Canonical := by simp [s0, h]
  have h1 : s1.Canonical := by simp [s1, h0]
  simp [h0, h1]

@[simp] theorem State.releaseTo_canonical (n) : (s.releaseTo n).Canonical := by
  unfold State.releaseTo
  extract_lets s1
  have h1 : s1.Canonical := by simp [s1, h]
  simp [h1]

theorem execReleaseStep_canonical : OutCanonical (execReleaseStep s) := by
  unfold execReleaseStep
  extract_lets s0
  have h0 : s0.Canonical := by simp [s0, h]
  simp [h0]

theorem execQuadrantPllLock_canonical : OutCanonical (execQuadrantPllLock s) := by
  unfold execQuadrantPllLock
  extract_lets s0 s1
  have h0 : s0.Canonical := by simp [s0, h]
  have h1 : s1.Canonical := by simp [s1, h0]
  simp [h0, h1]

theorem execSoftwareReset_canonical : OutCanonical (execSoftwareReset s) := by
  unfold execSoftwareReset
  simp only
  split <;> simp [h]

theorem execFullRst_canonical (v) : OutCanonical (execFullRst v s) := by simp [execFullRst, h]

theorem execFatalFaultReset_canonical : OutCanonical (execFatalFaultReset s) := by simp [execFatalFaultReset, h]

omit h in
@[simp] theorem State.toWatch_canonical : s.toWatch.Canonical := by simp [State.toWatch]

theorem execWatchEntry_canonical : OutCanonical (execWatchEntry s) := by
  unfold execWatchEntry
  extract_lets s0
  have h0 : s0.Canonical := by simp [s0, h]
  split
  · simp [h0]
  · exact h0

omit h in
theorem execVauxLoss_canonical : OutCanonical (execVauxLoss s) := by simp [execVauxLoss]

omit h in
@[simp] theorem State.wakeNow_canonical (code) : (s.wakeNow code).Canonical := by simp [State.wakeNow]

@[simp] theorem State.tryWake_canonical : s.tryWake.Canonical := by
  unfold State.tryWake
  split <;> simp [h]

theorem execWakeStart_canonical (source) : OutCanonical (execWakeStart source s) := by
  unfold execWakeStart
  extract_lets s0 c
  have h0 : s0.Canonical := by simp [s0, h]
  simp [h0]

@[simp] theorem State.dropInserts_canonical : s.dropInserts.Canonical := by simp [State.dropInserts, h]

@[simp] theorem State.restart_canonical : s.restart.Canonical := by
  unfold State.restart
  extract_lets cores s1
  have hc : cores.Canonical := by simp [cores, h]
  have h1 : s1.Canonical := by simp [s1, hc]
  exact h1

theorem execRmWatchdog_canonical : OutCanonical (execRmWatchdog s) := by simp [execRmWatchdog, h]

theorem execRingmasterRestart_canonical : OutCanonical (execRingmasterRestart s) := by
  unfold execRingmasterRestart
  extract_lets s0
  split <;> simp [s0, h]

theorem execSramUncorr_canonical : OutCanonical (execSramUncorr s) := by simp [execSramUncorr, h]

@[simp] theorem State.bootImage_canonical : s.bootImage.Canonical := by
  unfold State.bootImage
  extract_lets s1
  have h1 : s1.Canonical := by simp [s1, h]
  simp [h1]

@[simp] theorem State.rescueBoot_canonical (slot reason) : (s.rescueBoot slot reason).Canonical := by simp [State.rescueBoot, h]

theorem execImageCheck_canonical (verdict) : OutCanonical (execImageCheck verdict s) := by
  unfold execImageCheck
  extract_lets s0 slot
  have h0 : s0.Canonical := by simp [s0, h]
  split
  · exact h0
  · split
    · split <;> simp [h0]
    · split <;> simp [h0]

theorem execFirmwareStart_canonical (major minor build) : OutCanonical (execFirmwareStart major minor build s) := by
  unfold execFirmwareStart
  extract_lets s0 s1 s2 s3
  have h0 : s0.Canonical := by simp [s0, h]
  have h1 : s1.Canonical := by simp [s1, h0]
  have h2 : s2.Canonical := by
    simp only [s2]
    split <;> simp [h1]
  have h3 : s3.Canonical := by simp [s3, h2]
  simp [h0, h3]

theorem execThermalTrip_canonical (quad degrees) : OutCanonical (execThermalTrip quad degrees s) := by
  unfold execThermalTrip
  extract_lets s0 s1 ev s2
  have h0 : s0.Canonical := by simp [s0, h]
  have h1 : s1.Canonical := State.onPwr_canonical h0 (syncTrips_reduced _)
  have h2 : s2.Canonical := by simp [s2, h1]
  split
  · exact h0
  split
  · exact h1
  · exact State.onPwr_canonical State.toWatch_canonical rfl

theorem execTemperatureTripRearm_canonical (quad) : OutCanonical (execTemperatureTripRearm quad s) := by
  unfold execTemperatureTripRearm
  extract_lets s0 s1 s2 s3
  have h0 : s0.Canonical := by simp [s0, h]
  have h1 : s1.Canonical := State.onPwr_canonical h0 (syncTrips_reduced _)
  have h2 : s2.Canonical := by simp [s2, h1]
  have h3 : s3.Canonical := by simp [s3, h2]
  split
  · exact h1
  · simp [h3]

@[simp] theorem State.holdSdi_canonical (n) : (s.holdSdi n).Canonical := by
  unfold State.holdSdi
  extract_lets lanes s1 s2
  have h1 : s1.Canonical := by simp [s1, h]
  have h2 : s2.Canonical := canonical_foldl h1 _ fun s l => by simp only; split <;> simp
  simp [h2]

@[simp] theorem State.holdPort_canonical (n) : (s.holdPort n).Canonical := by
  unfold State.holdPort
  extract_lets rings s1 s2 s3 s4 s5 s6
  have h2 : s2.Canonical := by simp [s2, s1, h]
  have h3 : s3.Canonical := by simp [s3, h2]
  have h5 : s5.Canonical := by simp [s5, s4, h3]
  simp [s6, h5]

@[simp] theorem State.holdSvanum_canonical (n) : (s.holdSvanum n).Canonical := by
  unfold State.holdSvanum
  extract_lets s1 s2
  have h1 : s1.Canonical := by simp [s1, h]
  have h2 : s2.Canonical := by simp [s2, h1]
  simp [h2]

@[simp] theorem State.holdConversion_canonical (n) : (s.holdConversion n).Canonical := by
  unfold State.holdConversion
  split <;> simp [h]

@[simp] theorem State.holdComposers_canonical (n) : (s.holdComposers n).Canonical := by
  unfold State.holdComposers
  refine canonical_foldl h _ fun s c => ?_
  extract_lets s1 s2
  have h1 : s1.Canonical := canonical_foldl s.2 _ (by simp)
  have h2 : s2.Canonical := canonical_foldl h1 _ (by simp)
  simp [h2]

@[simp] theorem State.holdMerge_canonical : s.holdMerge.Canonical := by simp [State.holdMerge, h]

@[simp] theorem State.holdBlock_canonical (b) : (s.holdBlock b).Canonical := by
  unfold State.holdBlock
  split
  · simp [h]
  split
  · simp [h]
  split
  · simp [h]
  split
  · simp [h]
  · split <;> simp [h]

@[simp] theorem State.resetBlocks_canonical (mask) : (s.resetBlocks mask).Canonical := by
  unfold State.resetBlocks
  split
  · exact h
  · exact canonical_foldl h _ fun s b => State.holdBlock_canonical (by simp) b

theorem execBlkRst_canonical (mask) : OutCanonical (execBlkRst mask s) := by simp [execBlkRst, h]

@[simp] theorem State.unitReaction_canonical (c l) : (s.unitReaction c l).Canonical := by
  unfold State.unitReaction
  split <;> simp [h]

@[simp] theorem State.force_canonical (c l) : (s.force c l).Canonical := by simp [State.force, h]

theorem cmdFaultForce_canonical (q) : OkCanonical (fun x => x.1) (cmdFaultForce q s) := by
  refine OkCanonical.bind fun x => OkCanonical.pure ?_
  have h1 : (if x.1 = 0x09 then s.countReset .wdog else s).Canonical := by simp [h]
  have h2 := State.force_canonical h1 x.1 x.2
  split
  · exact canonical_of_kept (State.kept_onPwr ..) h2
  · exact h2

@[simp] theorem State.forceWrite_canonical (w) : (s.forceWrite w).Canonical := by
  unfold State.forceWrite
  extract_lets c l s1
  have h0 : (if c = 0x09 then s.countReset .wdog else s).Canonical := by simp [h]
  have h1 : s1.Canonical := State.force_canonical h0 c l
  simp [h, h1]

theorem execForce_canonical (w whole) : OutCanonical (execForce w whole s) := by simp [execForce, h]

theorem execMramUncorr_canonical (region) : OutCanonical (execMramUncorr region s) := by simp [execMramUncorr, h]

end

end Sys2Proof.Machine
end

section
/-! PROOFS. The canonical form of the Tile Store, continued: a change of the card, the slots' tiles, the host's window BAR2, the memory
test, and the commands run for a peer (forwarded or mirrored). -/

namespace Sys2Proof.Machine

open Sys2Proof

section
variable {s : State} (h : s.Canonical)
include h

@[simp] theorem State.setReduced_canonical (v) : (s.setReduced v).Canonical :=
  setReduced_memWf v s h

theorem execChannelTraining_canonical (ch responds ok) : OutCanonical (execChannelTraining ch responds ok s) := by
  unfold execChannelTraining
  extract_lets s0 r s1
  have h0 : s0.Canonical := by simp [s0, h]
  have h1 : s1.Canonical := by simp [s1, h0]
  simp [h0, h1]

@[simp] theorem State.compNext_canonical (r) : (s.compNext r).Canonical := by
  unfold State.compNext
  split <;> simp [h]

@[simp] theorem State.takeSlot_canonical (r t) : (s.takeSlot r t).Canonical := by simp [State.takeSlot, h]

theorem execTileCommit_canonical (ring) : OutCanonical (execTileCommit ring s) := by
  unfold execTileCommit
  simp only
  split <;> simp [h]

@[simp] theorem State.takeBlack_canonical (r n) : (s.takeBlack r n).Canonical := by
  induction n generalizing s with
  | zero => exact h
  | succ n ih =>
    unfold State.takeBlack
    split
    · split
      · exact ih (State.takeSlot_canonical h ..)
      · exact h
    · exact h

@[simp] theorem State.needTile_canonical (r eseq) : (s.needTile r eseq).Canonical := by
  unfold State.needTile
  split <;> simp [h]

@[simp] theorem State.readVideo_canonical (o r mode f readers first eseq cache) :
    (s.readVideo o r mode f readers first eseq cache).Canonical := by
  simp [State.readVideo, h]

theorem State.withDesc_canonical (r d) {g : State → State} (hg : ∀ {s : State}, s.Canonical → (g s).Canonical) :
    (s.withDesc r d g).Canonical := by
  have h1 : (g (s.setRing r d)).Canonical := hg (by simp [h])
  simp [State.withDesc, hg h, h1]

@[simp] theorem State.readOut_canonical (o part eseq cache) : (s.readOut o part eseq cache).Canonical := by
  unfold State.readOut
  split
  · simp only
    split
    · exact h
    · split
      · split
        · exact State.withDesc_canonical h _ _ fun h => State.readVideo_canonical h ..
        · exact h
      · simp [h]
  · exact h

@[simp] theorem State.readLayer_canonical (c l eseq cache) : (s.readLayer c l eseq cache).Canonical := by
  unfold State.readLayer
  simp only
  split <;> simp [h]

@[simp] theorem State.captureStart_canonical (c k) : (s.captureStart c k).Canonical := by simp [State.captureStart, h]

@[simp] theorem State.captureTile_canonical (c k j eseq cache) : (s.captureTile c k j eseq cache).Canonical := by
  unfold State.captureTile
  extract_lets q d first last fin wrote n
  split
  next s1 v hj =>
  have h1 : s1.Canonical := by
    have e := State.judge_kept (μ := 0xFFFF7F) c.ring eseq locHost (expectTag d j) (ringType d == 3) cache s
    rw [hj] at e
    exact canonical_of_kept e h
  have hw {t : State} (ht : t.Canonical) : (wrote t).Canonical := by simp [wrote, fin, ht]
  split
  · simp [h1, fin]
  split
  · split
    next s2 _ b hc =>
    have h2 : s2.Canonical := by
      have e := State.concealVideo_kept (μ := 0xFFFF7F) c.ring locHost eseq k.eseq v s1
      rw [hc] at e
      exact canonical_of_kept e h1
    exact hw (State.closeTile_canonical h2 ..)
  · split
    · exact hw (State.closeTile_canonical h1 ..)
    · simp [h1, fin]

@[simp] theorem State.readCapture_canonical (q eseq cache) : (s.readCapture q eseq cache).Canonical := by
  unfold State.readCapture
  split
  · exact h
  split
  · exact h
  · next c _ k _ =>
    extract_lets r start s1 w j tiles
    have h1 : s1.Canonical := by simp [s1, h]
    have h2 : (s1.takeBest tiles).Canonical := by simp [h1]
    simp [h1]

theorem execTileRead_canonical (reader eseq cache) : OutCanonical (execTileRead reader eseq cache s) := by
  unfold execTileRead
  cases reader <;> simp [h]

@[simp] theorem State.regWord_canonical (off v) : (s.regWord off v).Canonical := by simp [State.regWord, h]

@[simp] theorem State.regWrite_canonical (off wide v) : (s.regWrite off wide v).Canonical := by simp [State.regWrite, h]

theorem State.hostAccess_canonical {f : State → State} (hf : ∀ {s : State}, s.Canonical → (f s).Canonical) :
    OutCanonical (s.hostAccess f) := by
  have h1 : s.byHost.Canonical := by simp [h]
  have h2 := hf h1
  simp [State.hostAccess, h, h2]

theorem execRegisterWrite_canonical (off wide v) : OutCanonical (execRegisterWrite off wide v s) :=
  State.hostAccess_canonical h fun h => by simp [h]

@[simp] theorem State.bar2Tile1_canonical (a bytes i) : (s.bar2Tile1 a bytes i).Canonical := by simp [State.bar2Tile1, h]

@[simp] theorem State.bar2Put_canonical (a bs) : (s.bar2Put a bs).Canonical := by simp [State.bar2Put, h]

@[simp] theorem State.accessNow_canonical (x) : (s.accessNow x).Canonical := by
  unfold State.accessNow
  split <;> simp [h]

@[simp] theorem State.access_canonical (x) : (s.access x).Canonical := by simp [State.access, h]

@[simp] theorem State.serveWaits_canonical (l) : (State.serveWaits l s).Canonical := by
  induction l generalizing s with
  | nil => exact h
  | cons x l ih =>
    unfold State.serveWaits
    split
    · exact ih (State.accessNow_canonical (by simp [h]) x)
    · exact h

theorem execTurnStart_canonical : OutCanonical (execTurnStart s) := by simp [execTurnStart, h]

@[simp] theorem State.bar2Read_canonical (off len) : (s.bar2Read off len).Canonical := by simp [State.bar2Read, h]

theorem execBar2Read_canonical (off len) : OutCanonical (execBar2Read off len s) :=
  State.hostAccess_canonical h fun h => State.bar2Read_canonical h ..

@[simp] theorem State.bar2Write_canonical (off bytes) : (s.bar2Write off bytes).Canonical := by simp [State.bar2Write, h]

theorem execBar2Write_canonical (off bytes) : OutCanonical (execBar2Write off bytes s) :=
  State.hostAccess_canonical h fun h => State.bar2Write_canonical h ..

theorem cmdUpdActivate_canonical (verdict q) : OkCanonical (fun x => x.1) (cmdUpdActivate verdict q s) := by
  refine OkCanonical.bind fun slot => ?_
  split
  · split
    · exact OkCanonical.error _
    · exact OkCanonical.pure (State.bootImage_canonical (by simp [h]))
  · exact OkCanonical.pure (State.onPwr_canonical (by simp [h]) rfl)

theorem execMemoryTestComplete_canonical (errors) : OutCanonical (execMemoryTestComplete errors s) := by
  unfold execMemoryTestComplete
  extract_lets s0
  have h0 : s0.Canonical := by simp [s0, h]
  split
  · exact h0
  · next mask _ _ =>
    have h1 : (s0.onMem (MemSt.tested s0.pwr.reduced mask)).Canonical := tested_wf s0.pwr.reduced mask s0.mem h0
    simp [h1]

omit h in
theorem atOnce_canonical {body : Req → State → Res} {q : Req} (hb : OkCanonical (fun x => x.1) (body q s)) :
    OkCanonical Ans.state (atOnce body q s) := hb.map fun _ => Iff.rfl

theorem runOpcode_canonical (op q peers) : OkCanonical Ans.state (runOpcode op q s peers) := by
  unfold runOpcode
  split
  · exact atOnce_canonical ((cmdSessionInfo_ok ..).canonical h)
  · exact atOnce_canonical ((cmdSessionOpen_ok ..).canonical h)
  · exact atOnce_canonical ((cmdSessionClose_ok ..).canonical h)
  · exact atOnce_canonical ((cmdPowerSet_ok ..).canonical h)
  · exact (cmdProfileSet_ok ..).canonical h
  · exact atOnce_canonical ((cmdBudgetQuery_ok ..).canonical h)
  · exact atOnce_canonical ((cmdSessionReset_ok ..).canonical h)
  · exact atOnce_canonical ((cmdPrivRead_ok ..).canonical h)
  · exact atOnce_canonical ((cmdPrivWrite_ok ..).canonical h)
  · exact atOnce_canonical ((cmdRingCreate_ok ..).canonical h)
  · exact atOnce_canonical ((cmdRingDelete_ok ..).canonical h)
  · exact atOnce_canonical ((cmdRingModify_ok ..).canonical h)
  · exact atOnce_canonical ((cmdRingQuery_ok ..).canonical h)
  · exact atOnce_canonical ((cmdMemStatus_ok ..).canonical h)
  · exact atOnce_canonical ((cmdFlowInsert_ok ..).canonical h)
  · exact atOnce_canonical ((cmdFlowModify_ok ..).canonical h)
  · exact atOnce_canonical (cmdFlowDelete_canonical h ..)
  · exact atOnce_canonical ((cmdFlowStatus_ok ..).canonical h)
  · exact atOnce_canonical ((cmdIngestWrite_ok ..).canonical h)
  · exact atOnce_canonical (cmdMergeWrite_canonical h ..)
  · exact atOnce_canonical ((cmdMergeStatus_ok ..).canonical h)
  · exact atOnce_canonical ((cmdHostqBind_ok ..).canonical h)
  · exact atOnce_canonical (cmdHostqUnbind_canonical h ..)
  · exact cmdHostInsert_canonical h ..
  · exact atOnce_canonical ((cmdCaptureFrames_ok ..).canonical h)
  · exact atOnce_canonical ((cmdPlaneWrite_ok ..).canonical h)
  · exact atOnce_canonical ((cmdPulseWrite_ok ..).canonical h)
  · exact atOnce_canonical ((cmdClockWrite_ok ..).canonical h)
  · exact atOnce_canonical ((cmdPlaneRead_ok ..).canonical h)
  · exact atOnce_canonical ((cmdRouteWrite_ok ..).canonical h)
  · exact atOnce_canonical ((cmdRouteRead_ok ..).canonical h)
  · exact atOnce_canonical ((cmdRouteStatus_ok ..).canonical h)
  · exact atOnce_canonical ((cmdSalvoAdd_ok ..).canonical h)
  · exact atOnce_canonical ((cmdSalvoAdmit_ok ..).canonical h)
  · exact (cmdSalvoTake_ok ..).canonical h
  · exact atOnce_canonical ((cmdSalvoAbandon_ok ..).canonical h)
  · exact atOnce_canonical ((cmdSalvoQuery_ok ..).canonical h)
  · exact atOnce_canonical ((cmdSalvoEntries_ok ..).canonical h)
  · exact atOnce_canonical ((cmdPresetStore_ok ..).canonical h)
  · exact atOnce_canonical ((cmdPresetLoad_ok ..).canonical h)
  · exact atOnce_canonical ((cmdPresetDelete_ok ..).canonical h)
  · exact atOnce_canonical ((cmdPresetList_ok ..).canonical h)
  · exact atOnce_canonical ((cmdCompOutWrite_ok ..).canonical h)
  · exact atOnce_canonical ((cmdCompLayerWrite_ok ..).canonical h)
  · exact atOnce_canonical ((cmdCompMatrixWrite_ok ..).canonical h)
  · exact atOnce_canonical ((cmdCompCursorWrite_ok ..).canonical h)
  · exact (cmdCompLoad_ok ..).canonical h
  · exact atOnce_canonical ((cmdCompRead_ok ..).canonical h)
  · exact atOnce_canonical ((cmdCompLayerRead_ok ..).canonical h)
  · exact atOnce_canonical ((cmdCalWrite_ok ..).canonical h)
  · exact atOnce_canonical ((cmdAudInWrite_ok ..).canonical h)
  · exact atOnce_canonical ((cmdAudOutWrite_ok ..).canonical h)
  · exact atOnce_canonical ((cmdAudBusWrite_ok ..).canonical h)
  · exact atOnce_canonical ((cmdAudBusInputs_ok ..).canonical h)
  · exact atOnce_canonical ((cmdAudDynWrite_ok ..).canonical h)
  · exact atOnce_canonical ((cmdAudRead_ok ..).canonical h)
  · exact atOnce_canonical ((cmdCandWrite_ok ..).canonical h)
  · exact atOnce_canonical ((cmdRefWrite_ok ..).canonical h)
  · exact atOnce_canonical ((cmdRefRead_ok ..).canonical h)
  · exact atOnce_canonical ((cmdPhaseReset_ok ..).canonical h)
  · exact atOnce_canonical ((cmdPtpInstWrite_ok ..).canonical h)
  · exact atOnce_canonical ((cmdPtpServoWrite_ok ..).canonical h)
  · exact atOnce_canonical ((cmdPtpTsCorr_ok ..).canonical h)
  · exact atOnce_canonical ((cmdPtpSetTime_ok ..).canonical h)
  · exact atOnce_canonical ((cmdPtpRead_ok ..).canonical h)
  · exact atOnce_canonical (cmdTroupeWrite_canonical h ..)
  · exact atOnce_canonical (cmdLinkWrite_canonical h ..)
  · exact atOnce_canonical ((cmdLaneWrite_ok ..).canonical h)
  · exact atOnce_canonical ((cmdTroupeImport_ok ..).canonical h)
  · exact atOnce_canonical (cmdTroupeUnimport_canonical h ..)
  · exact (cmdTroupeForward_ok ..).canonical h
  · exact atOnce_canonical ((cmdTroupeRead_ok ..).canonical h)
  · exact atOnce_canonical ((cmdTwinWrite_ok ..).canonical h)
  · exact atOnce_canonical ((cmdTwinRead_ok ..).canonical h)
  · exact atOnce_canonical ((cmdTwinSwap_ok ..).canonical h)
  · exact atOnce_canonical ((cmdRecRead_ok ..).canonical h)
  · exact atOnce_canonical ((cmdRecClear_ok ..).canonical h)
  · exact atOnce_canonical ((cmdRecLimit_ok ..).canonical h)
  · exact atOnce_canonical ((cmdFaultRead_ok ..).canonical h)
  · exact atOnce_canonical ((cmdFaultClear_ok ..).canonical h)
  · exact atOnce_canonical (cmdFaultForce_canonical h ..)
  · exact atOnce_canonical ((cmdEventConfig_ok ..).canonical h)
  · exact atOnce_canonical ((cmdUpdBegin_ok ..).canonical h)
  · exact (cmdUpdChunk_ok ..).canonical h
  · exact (cmdUpdEnd_ok ..).canonical h
  · exact atOnce_canonical (cmdUpdActivate_canonical h ..)
  · exact atOnce_canonical ((cmdUpdQuery_ok ..).canonical h)
  · exact atOnce_canonical ((cmdTestGen_ok ..).canonical h)
  · exact atOnce_canonical ((cmdTestCheck_ok ..).canonical h)
  · exact atOnce_canonical ((cmdTestLoop_ok ..).canonical h)
  · exact atOnce_canonical ((cmdTestResult_ok ..).canonical h)
  · exact (cmdTestMem_ok ..).canonical h
  · exact (cmdTestShadow_ok ..).canonical h
  · exact atOnce_canonical (cmdSdiWrite_canonical h ..)
  · exact atOnce_canonical (cmdEthWrite_canonical h ..)
  · exact atOnce_canonical ((cmdEthAddrWrite_ok ..).canonical h)
  · exact atOnce_canonical ((cmdPktFlowWrite_ok ..).canonical h)
  · exact atOnce_canonical ((cmdSbWrite_ok ..).canonical h)
  · exact atOnce_canonical ((cmdPortSnapshot_ok ..).canonical h)
  · exact atOnce_canonical ((cmdPortRead_ok ..).canonical h)
  · exact atOnce_canonical ((cmdPktOutWrite_ok ..).canonical h)
  · exact OkCanonical.error _

theorem execForwardedCommand_canonical (opcode q) : OutCanonical (execForwardedCommand opcode q s) := by
  unfold execForwardedCommand
  refine outCanonical_checked ?_
  split
  · simp [h]
  · exact serveAns_canonical h fun h => runOpcode_canonical h ..

theorem State.runMirror_canonical (m) : OkCanonical Ans.state (s.runMirror m) :=
  runOpcode_canonical (State.onCtl_canonical h _) ..

theorem ansState_canonical {r : Except Err Ans} (hr : OkCanonical Ans.state r) : (ansState s r).Canonical := by
  cases r with
  | ok a => exact canonical_of_kept (State.unstamp_kept ..) (hr.out a rfl)
  | error e => exact canonical_of_kept (State.raiseErr_kept ..) h

@[simp] theorem State.takeMirror_canonical (x status) : (s.takeMirror x status).Canonical := by
  unfold State.takeMirror
  extract_lets r st s1 s2
  have hr : (ansState s r).Canonical := ansState_canonical h (State.runMirror_canonical h x)
  have h1 : s1.Canonical := by simp [s1, h, hr]
  simp [s2, h1]

theorem execMirror_canonical (mseq opcode q status target) : OutCanonical (execMirror mseq opcode q status target s) := by
  unfold execMirror
  refine outCanonical_checked ?_
  simp [h]

theorem execMirrorApply_canonical : OutCanonical (execMirrorApply s) := by
  unfold execMirrorApply
  extract_lets s0
  have h0 : s0.Canonical := by simp [s0, h]
  split
  · exact h0
  · next m _ _ => simp [h0, ansState_canonical h0 (State.runMirror_canonical h0 m)]

@[simp] theorem State.copyPorts_canonical (c) : (s.copyPorts c).Canonical := by
  unfold State.copyPorts
  extract_lets s1 s2
  have h1 : s1.Canonical := by simp [s1, h]
  have h2 : s2.Canonical := by simp [s2, h1]
  exact canonical_foldl h2 _ (by simp)

@[simp] theorem State.takeCopy_canonical (c) : (s.takeCopy c).Canonical := by simp [State.takeCopy, h]

theorem execResyncPoint_canonical (copy) : OutCanonical (execResyncPoint copy s) := by
  unfold execResyncPoint
  extract_lets s0
  have h0 : s0.Canonical := by simp [s0, h]
  split
  · simp [h0]
  · split
    · simp [h0]
    · exact h0
  · exact h0
end

end Sys2Proof.Machine
end

section
/-! PROOFS. The canonical form of the Tile Store, continued: one row per command of the table of `exec`. A command that stores has a
lemma above; every other cites its `keeps` lemma. -/

namespace Sys2Proof.Machine

open Sys2Proof

/-- From a Tile Store in canonical form every command leaves one in canonical form. -/
theorem exec_canonical {s : State} (h : s.Canonical) (i : Instr) : OutCanonical (exec i s) :=
  match i with
  | .sessionInfo .. => (execSessionInfo_keeps ..).canonical h
  | .sessionOpen .. => (execSessionOpen_keeps ..).canonical h
  | .sessionClose .. => (execSessionClose_keeps ..).canonical h
  | .powerSet .. => (execPowerSet_keeps ..).canonical h
  | .profileSet .. => (execProfileSet_keeps ..).canonical h
  | .budgetQuery .. => (execBudgetQuery_keeps ..).canonical h
  | .sessionReset .. => (execSessionReset_keeps ..).canonical h
  | .privRead .. => (execPrivRead_keeps ..).canonical h
  | .privWrite .. => (execPrivWrite_keeps ..).canonical h
  | .ringCreate .. => (execRingCreate_keeps ..).canonical h
  | .ringDelete .. => (execRingDelete_keeps ..).canonical h
  | .ringModify .. => (execRingModify_keeps ..).canonical h
  | .ringQuery .. => (execRingQuery_keeps ..).canonical h
  | .memStatus .. => (execMemStatus_keeps ..).canonical h
  | .flowInsert .. => (execFlowInsert_keeps ..).canonical h
  | .flowModify .. => (execFlowModify_keeps ..).canonical h
  | .flowDelete .. => serve_canonical h fun h => cmdFlowDelete_canonical h ..
  | .flowStatus .. => (execFlowStatus_keeps ..).canonical h
  | .ingestWrite .. => (execIngestWrite_keeps ..).canonical h
  | .mergeWrite .. => serve_canonical h fun h => cmdMergeWrite_canonical h ..
  | .mergeStatus .. => (execMergeStatus_keeps ..).canonical h
  | .hostqBind .. => (execHostqBind_keeps ..).canonical h
  | .hostqUnbind .. => serve_canonical h fun h => cmdHostqUnbind_canonical h ..
  | .hostInsert .. => serveAns_canonical h fun h => cmdHostInsert_canonical h ..
  | .captureFrames .. => (execCaptureFrames_keeps ..).canonical h
  | .planeWrite .. => (execPlaneWrite_keeps ..).canonical h
  | .pulseWrite .. => (execPulseWrite_keeps ..).canonical h
  | .clockWrite .. => (execClockWrite_keeps ..).canonical h
  | .planeRead .. => (execPlaneRead_keeps ..).canonical h
  | .routeWrite .. => (execRouteWrite_keeps ..).canonical h
  | .routeRead .. => (execRouteRead_keeps ..).canonical h
  | .routeStatus .. => (execRouteStatus_keeps ..).canonical h
  | .salvoAdd .. => (execSalvoAdd_keeps ..).canonical h
  | .salvoAdmit .. => (execSalvoAdmit_keeps ..).canonical h
  | .salvoTake .. => (execSalvoTake_keeps ..).canonical h
  | .salvoAbandon .. => (execSalvoAbandon_keeps ..).canonical h
  | .salvoQuery .. => (execSalvoQuery_keeps ..).canonical h
  | .salvoEntries .. => (execSalvoEntries_keeps ..).canonical h
  | .presetStore .. => (execPresetStore_keeps ..).canonical h
  | .presetLoad .. => (execPresetLoad_keeps ..).canonical h
  | .presetDelete .. => (execPresetDelete_keeps ..).canonical h
  | .presetList .. => (execPresetList_keeps ..).canonical h
  | .compOutWrite .. => (execCompOutWrite_keeps ..).canonical h
  | .compLayerWrite .. => (execCompLayerWrite_keeps ..).canonical h
  | .compMatrixWrite .. => (execCompMatrixWrite_keeps ..).canonical h
  | .compCursorWrite .. => (execCompCursorWrite_keeps ..).canonical h
  | .compLoad .. => (execCompLoad_keeps ..).canonical h
  | .compRead .. => (execCompRead_keeps ..).canonical h
  | .compLayerRead .. => (execCompLayerRead_keeps ..).canonical h
  | .calWrite .. => (execCalWrite_keeps ..).canonical h
  | .audInWrite .. => (execAudInWrite_keeps ..).canonical h
  | .audOutWrite .. => (execAudOutWrite_keeps ..).canonical h
  | .audBusWrite .. => (execAudBusWrite_keeps ..).canonical h
  | .audBusInputs .. => (execAudBusInputs_keeps ..).canonical h
  | .audDynWrite .. => (execAudDynWrite_keeps ..).canonical h
  | .audRead .. => (execAudRead_keeps ..).canonical h
  | .candWrite .. => (execCandWrite_keeps ..).canonical h
  | .refWrite .. => (execRefWrite_keeps ..).canonical h
  | .refRead .. => (execRefRead_keeps ..).canonical h
  | .phaseReset .. => (execPhaseReset_keeps ..).canonical h
  | .ptpInstWrite .. => (execPtpInstWrite_keeps ..).canonical h
  | .ptpServoWrite .. => (execPtpServoWrite_keeps ..).canonical h
  | .ptpTsCorr .. => (execPtpTsCorr_keeps ..).canonical h
  | .ptpSetTime .. => (execPtpSetTime_keeps ..).canonical h
  | .ptpRead .. => (execPtpRead_keeps ..).canonical h
  | .troupeWrite .. => serve_canonical h fun h => cmdTroupeWrite_canonical h ..
  | .linkWrite .. => serve_canonical h fun h => cmdLinkWrite_canonical h ..
  | .laneWrite .. => (execLaneWrite_keeps ..).canonical h
  | .troupeImport .. => (execTroupeImport_keeps ..).canonical h
  | .troupeUnimport .. => serve_canonical h fun h => cmdTroupeUnimport_canonical h ..
  | .troupeForward .. => (execTroupeForward_keeps ..).canonical h
  | .troupeRead .. => (execTroupeRead_keeps ..).canonical h
  | .twinWrite .. => (execTwinWrite_keeps ..).canonical h
  | .twinRead .. => (execTwinRead_keeps ..).canonical h
  | .twinSwap .. => (execTwinSwap_keeps ..).canonical h
  | .recRead .. => (execRecRead_keeps ..).canonical h
  | .recClear .. => (execRecClear_keeps ..).canonical h
  | .recLimit .. => (execRecLimit_keeps ..).canonical h
  | .faultRead .. => (execFaultRead_keeps ..).canonical h
  | .faultClear .. => (execFaultClear_keeps ..).canonical h
  | .faultForce .. => serve_canonical h fun h => cmdFaultForce_canonical h ..
  | .eventConfig .. => (execEventConfig_keeps ..).canonical h
  | .updBegin .. => (execUpdBegin_keeps ..).canonical h
  | .updChunk .. => (execUpdChunk_keeps ..).canonical h
  | .updEnd .. => (execUpdEnd_keeps ..).canonical h
  | .updActivate .. => serve_canonical h fun h => cmdUpdActivate_canonical h ..
  | .updQuery .. => (execUpdQuery_keeps ..).canonical h
  | .testGen .. => (execTestGen_keeps ..).canonical h
  | .testCheck .. => (execTestCheck_keeps ..).canonical h
  | .testLoop .. => (execTestLoop_keeps ..).canonical h
  | .testResult .. => (execTestResult_keeps ..).canonical h
  | .testMem .. => (execTestMem_keeps ..).canonical h
  | .testShadow .. => (execTestShadow_keeps ..).canonical h
  | .sdiWrite .. => execSdiWrite_canonical h ..
  | .ethWrite .. => serve_canonical h fun h => cmdEthWrite_canonical h ..
  | .ethAddrWrite .. => (execEthAddrWrite_keeps ..).canonical h
  | .pktFlowWrite .. => (execPktFlowWrite_keeps ..).canonical h
  | .sbWrite .. => (execSbWrite_keeps ..).canonical h
  | .portSnapshot .. => (execPortSnapshot_keeps ..).canonical h
  | .portRead .. => (execPortRead_keeps ..).canonical h
  | .pktOutWrite .. => (execPktOutWrite_keeps ..).canonical h
  | .db .. => (execDb_keeps ..).canonical h
  | .requestBufferWrite .. => (execRequestBufferWrite_keeps ..).canonical h
  | .doneMapClear .. => (execDoneMapClear_keeps ..).canonical h
  | .pop .. => (execPop_keeps ..).canonical h
  | .release .. => (execRelease_keeps ..).canonical h
  | .force .. => execForce_canonical h ..
  | .pendingClear .. => (execPendingClear_keeps ..).canonical h
  | .blkRst .. => execBlkRst_canonical h ..
  | .fullRst .. => execFullRst_canonical h ..
  | .cntClear .. => (execCntClear_keeps ..).canonical h
  | .maint .. => (execMaint_keeps ..).canonical h
  | .decValidClear => (execDecValidClear_keeps ..).canonical h
  | .abortValidClear => (execAbortValidClear_keeps ..).canonical h
  | .rtcSec .. => (execRtcSec_keeps ..).canonical h
  | .ptpNowRead => (execPtpNowRead_keeps ..).canonical h
  | .registerWrite .. => execRegisterWrite_canonical h ..
  | .defaultTargetAccess .. => (execDefaultTargetAccess_keeps ..).canonical h
  | .bar2Read .. => execBar2Read_canonical h ..
  | .bar2Write .. => execBar2Write_canonical h ..
  | .p2Request .. => (execP2Request_keeps ..).canonical h
  | .p3Request .. => (execP3Request_keeps ..).canonical h
  | .forwardedCommand .. => execForwardedCommand_canonical h ..
  | .forwardedResponse .. => (execForwardedResponse_keeps ..).canonical h
  | .commandDeadline .. => (execCommandDeadline_keeps ..).canonical h
  | .extest .. => (execExtest_keeps ..).canonical h
  | .idcode => (execIdcode_keeps ..).canonical h
  | .samplePreload .. => (execSamplePreload_keeps ..).canonical h
  | .halt => (execHalt_keeps ..).canonical h
  | .command .. => (execCommand_keeps ..).canonical h
  | .doorbell .. => (execDoorbell_keeps ..).canonical h
  | .bypass .. => (execBypass_keeps ..).canonical h
  | .turnStart => execTurnStart_canonical h ..
  | .profileChange => (execProfileChange_keeps ..).canonical h
  | .channelTraining .. => execChannelTraining_canonical h ..
  | .recentre .. => (execRecentre_keeps ..).canonical h
  | .tileCommit .. => execTileCommit_canonical h ..
  | .tileRead .. => execTileRead_canonical h ..
  | .budgetRecount => (execBudgetRecount_keeps ..).canonical h
  | .budgetTableError => (execBudgetTableError_keeps ..).canonical h
  | .latch .. => (execLatch_keeps ..).canonical h
  | .switchPoint .. => (execSwitchPoint_keeps ..).canonical h
  | .frameSelect .. => (execFrameSelect_keeps ..).canonical h
  | .claimRelease .. => (execClaimRelease_keeps ..).canonical h
  | .audioLatch .. => (execAudioLatch_keeps ..).canonical h
  | .takeAck .. => (execTakeAck_keeps ..).canonical h
  | .takeAckDeadline .. => (execTakeAckDeadline_keeps ..).canonical h
  | .routeTableParity .. => (execRouteTableParity_keeps ..).canonical h
  | .outputFrameStart .. => (execOutputFrameStart_keeps ..).canonical h
  | .signalPresence .. => (execSignalPresence_keeps ..).canonical h
  | .signalAbsence .. => execSignalAbsence_canonical h ..
  | .rateAttempt .. => (execRateAttempt_keeps ..).canonical h
  | .cdrLock .. => (execCdrLock_keeps ..).canonical h
  | .trsAlignment .. => (execTrsAlignment_keeps ..).canonical h
  | .trsSearchTimeout .. => (execTrsSearchTimeout_keeps ..).canonical h
  | .cdrLockLoss .. => execCdrLockLoss_canonical h ..
  | .sdiLine .. => execSdiLine_canonical h ..
  | .sdiFrame .. => execSdiFrame_canonical h ..
  | .lockTimeout .. => (execLockTimeout_keeps ..).canonical h
  | .audioGroupAbsence .. => execAudioGroupAbsence_canonical h ..
  | .sdiTxFault .. => (execSdiTxFault_keeps ..).canonical h
  | .subportTrained .. => (execSubportTrained_keeps ..).canonical h
  | .subportLinkLoss .. => execSubportLinkLoss_canonical h ..
  | .frameReceived .. => execFrameReceived_canonical h ..
  | .pauseFrame .. => (execPauseFrame_keeps ..).canonical h
  | .pfcFrame .. => (execPfcFrame_keeps ..).canonical h
  | .pauseHoldEnd .. => (execPauseHoldEnd_keeps ..).canonical h
  | .pauseWatchdogExpiry .. => (execPauseWatchdogExpiry_keeps ..).canonical h
  | .pauseIgnoreEnd .. => (execPauseIgnoreEnd_keeps ..).canonical h
  | .mgmtFrameSend .. => (execMgmtFrameSend_keeps ..).canonical h
  | .packetDeparture .. => (execPacketDeparture_keeps ..).canonical h
  | .flowWindow => (execFlowWindow_keeps ..).canonical h
  | .absentTimeout .. => (execAbsentTimeout_keeps ..).canonical h
  | .membershipReport .. => (execMembershipReport_keeps ..).canonical h
  | .query .. => (execQuery_keeps ..).canonical h
  | .querierTimeout .. => (execQuerierTimeout_keeps ..).canonical h
  | .flowTableCorrected .. => (execFlowTableCorrected_keeps ..).canonical h
  | .flowTableUncorr .. => (execFlowTableUncorr_keeps ..).canonical h
  | .audioTileTimeout .. => execAudioTileTimeout_canonical h ..
  | .mergeDecision .. => execMergeDecision_canonical h ..
  | .composerLatch .. => (execComposerLatch_keeps ..).canonical h
  | .composerFrameStart .. => execComposerFrameStart_canonical h ..
  | .compLutParity .. => (execCompLutParity_keeps ..).canonical h
  | .calliopeTick => execCalliopeTick_canonical h ..
  | .audioReaderTile .. => (execAudioReaderTile_keeps ..).canonical h
  | .tapCrossfadeEnd .. => (execTapCrossfadeEnd_keeps ..).canonical h
  | .calCoeffParity .. => (execCalCoeffParity_keeps ..).canonical h
  | .refEvaluation .. => (execRefEvaluation_keeps ..).canonical h
  | .activityLoss .. => (execActivityLoss_keeps ..).canonical h
  | .settleExpiry .. => (execSettleExpiry_keeps ..).canonical h
  | .wtrExpiry .. => (execWtrExpiry_keeps ..).canonical h
  | .acquisitionStage => (execAcquisitionStage_keeps ..).canonical h
  | .holdLimitExpiry => (execHoldLimitExpiry_keeps ..).canonical h
  | .planeFrameStart .. => (execPlaneFrameStart_keeps ..).canonical h
  | .slewComplete .. => (execSlewComplete_keeps ..).canonical h
  | .analogSyncFrame .. => (execAnalogSyncFrame_keeps ..).canonical h
  | .refPllFault => (execRefPllFault_keeps ..).canonical h
  | .sync .. => (execSync_keeps ..).canonical h
  | .followUp .. => (execFollowUp_keeps ..).canonical h
  | .followUpTimeout .. => (execFollowUpTimeout_keeps ..).canonical h
  | .announce .. => (execAnnounce_keeps ..).canonical h
  | .delayResp .. => (execDelayResp_keeps ..).canonical h
  | .delayReq .. => (execDelayReq_keeps ..).canonical h
  | .pdelayReq .. => (execPdelayReq_keeps ..).canonical h
  | .pdelayResp .. => (execPdelayResp_keeps ..).canonical h
  | .pdelayRespFollowUp .. => (execPdelayRespFollowUp_keeps ..).canonical h
  | .ptpManagementMessage .. => (execPtpManagementMessage_keeps ..).canonical h
  | .announceTimeout .. => (execAnnounceTimeout_keeps ..).canonical h
  | .syncTimeout .. => (execSyncTimeout_keeps ..).canonical h
  | .engineTimeReading => (execEngineTimeReading_keeps ..).canonical h
  | .rtcUpdate => (execRtcUpdate_keeps ..).canonical h
  | .ptpClockFault => (execPtpClockFault_keeps ..).canonical h
  | .linkDetect .. => (execLinkDetect_keeps ..).canonical h
  | .capability .. => (execCapability_keeps ..).canonical h
  | .bringupDecision .. => (execBringupDecision_keeps ..).canonical h
  | .rateStep .. => (execRateStep_keeps ..).canonical h
  | .senseAdapt .. => (execSenseAdapt_keeps ..).canonical h
  | .linkAlign .. => (execLinkAlign_keeps ..).canonical h
  | .linkRetry .. => (execLinkRetry_keeps ..).canonical h
  | .laneMarker .. => execLaneMarker_canonical h ..
  | .laneDrop .. => execLaneDrop_canonical h ..
  | .spareLaneTrained .. => (execSpareLaneTrained_keeps ..).canonical h
  | .electricalIdle .. => (execElectricalIdle_keeps ..).canonical h
  | .eyeUpdate .. => (execEyeUpdate_keeps ..).canonical h
  | .importTile .. => execImportTile_canonical h ..
  | .abandon .. => execAbandon_canonical h ..
  | .timeCell .. => (execTimeCell_keeps ..).canonical h
  | .timeCellSend .. => (execTimeCellSend_keeps ..).canonical h
  | .bootImageRequest .. => (execBootImageRequest_keeps ..).canonical h
  | .roleChoice => (execRoleChoice_keeps ..).canonical h
  | .heartbeatSend => (execHeartbeatSend_keeps ..).canonical h
  | .heartbeat .. => (execHeartbeat_keeps ..).canonical h
  | .pathSilence .. => (execPathSilence_keeps ..).canonical h
  | .twinOnairInFall => (execTwinOnairInFall_keeps ..).canonical h
  | .onairConfirmExpiry => (execOnairConfirmExpiry_keeps ..).canonical h
  | .takeoverPoint => (execTakeoverPoint_keeps ..).canonical h
  | .mirror .. => execMirror_canonical h ..
  | .mirrorAck .. => (execMirrorAck_keeps ..).canonical h
  | .mirrorApply => execMirrorApply_canonical h ..
  | .mirrorAckTimeout => (execMirrorAckTimeout_keeps ..).canonical h
  | .digestSend => (execDigestSend_keeps ..).canonical h
  | .digest .. => (execDigest_keeps ..).canonical h
  | .digestMissing .. => (execDigestMissing_keeps ..).canonical h
  | .resyncStart => (execResyncStart_keeps ..).canonical h
  | .resyncPoint .. => execResyncPoint_canonical h ..
  | .resyncTimeout => (execResyncTimeout_keeps ..).canonical h
  | .hostLinkChange .. => (execHostLinkChange_keeps ..).canonical h
  | .pcieReset => (execPcieReset_keeps ..).canonical h
  | .recordWrite .. => (execRecordWrite_keeps ..).canonical h
  | .fatalFaultReset => execFatalFaultReset_canonical h ..
  | .collectorParity => (execCollectorParity_keeps ..).canonical h
  | .mramCorrected .. => (execMramCorrected_keeps ..).canonical h
  | .mramUncorr .. => execMramUncorr_canonical h ..
  | .sramCorrected => (execSramCorrected_keeps ..).canonical h
  | .sramUncorr => execSramUncorr_canonical h ..
  | .supplyWarn .. => (execSupplyWarn_keeps ..).canonical h
  | .supplyFail .. => (execSupplyFail_keeps ..).canonical h
  | .skewSample .. => (execSkewSample_keeps ..).canonical h
  | .thermalOver .. => (execThermalOver_keeps ..).canonical h
  | .thermalTrip .. => execThermalTrip_canonical h ..
  | .qpllUnlock .. => (execQpllUnlock_keeps ..).canonical h
  | .vbakLow => (execVbakLow_keeps ..).canonical h
  | .rmWatchdog => execRmWatchdog_canonical h ..
  | .ringmasterRestart => execRingmasterRestart_canonical h ..
  | .imageCheck .. => execImageCheck_canonical h ..
  | .firmwareStart .. => execFirmwareStart_canonical h ..
  | .budgetRebuild => (execBudgetRebuild_keeps ..).canonical h
  | .softwareReset => execSoftwareReset_canonical h ..
  | .watchEntry => execWatchEntry_canonical h ..
  | .powerOn => execPowerOn_canonical
  | .vauxLoss => execVauxLoss_canonical
  | .vbakLoss => (execVbakLoss_keeps ..).canonical h
  | .resetN => execResetN_canonical h ..
  | .resetNRise => (execResetNRise_keeps ..).canonical h
  | .strapSampling .. => (execStrapSampling_keeps ..).canonical h
  | .trimLoad .. => (execTrimLoad_keeps ..).canonical h
  | .releaseStep => execReleaseStep_canonical h ..
  | .wakeStart .. => execWakeStart_canonical h ..
  | .bootPeerRetry => (execBootPeerRetry_keeps ..).canonical h
  | .blockResetRelease .. => (execBlockResetRelease_keeps ..).canonical h
  | .undefinedOpcode .. => (execUndefinedOpcode_keeps ..).canonical h
  | .pulseInputEdge .. => (execPulseInputEdge_keeps ..).canonical h
  | .pulseOutputEdge .. => (execPulseOutputEdge_keeps ..).canonical h
  | .twinOnairInRise => (execTwinOnairInRise_keeps ..).canonical h
  | .supplyReturn _ _ mv => (execSupplyReturn_keeps (_mv := mv) ..).canonical h
  | .temperatureTripRearm .. => execTemperatureTripRearm_canonical h ..
  | .quadrantPllLock => execQuadrantPllLock_canonical h ..
  | .memoryTestComplete .. => execMemoryTestComplete_canonical h ..
  | .shadowCheckComplete .. => (execShadowCheckComplete_keeps ..).canonical h
  | .checkerLock .. => (execCheckerLock_keeps ..).canonical h

/-- Settles O8: every operation that can store keeps the canonical form, and every other leaves the Tile Store's bytes as they are. -/
theorem everyStepKeepsCanonicalTileStore : Obligations.EveryStepKeepsCanonicalTileStore := by
  intro s t h ht
  have hs : s.Canonical := s.canonical_iff.2 h
  have hn : OutCanonical (step s) := by
    unfold step
    split
    · next c rest _ =>
      have hq : { s with pending := rest }.Canonical := hs
      exact exec_canonical hq c
    · exact canonical_of_kept (tick_kept ..) hs
  rw [ht] at hn
  exact t.canonical_iff.1 hn

end Sys2Proof.Machine
end

section
/-! PROOFS. The ring and channel commands of the FLOW group (R53, R54, R66, R411): what their passed checks say and what each leaves. -/

namespace Sys2Proof.Machine

open Sys2Proof

/-! ### One descriptor written -/

theorem State.ring_setRing (r : Nat) (d : BitVec 256) (s : State) (n : Nat) : (s.setRing r d).ring n = if n = r then d else s.ring n := by
  unfold State.ring State.setRing
  rw [State.onMem_mem, tget_tset]

@[simp] theorem State.ring_setRing_same (r : Nat) (d : BitVec 256) (s : State) : (s.setRing r d).ring r = d := by
  rw [State.ring_setRing, if_pos rfl]

theorem State.ring_setRing_of_ne {r n : Nat} (h : n ≠ r) (d : BitVec 256) (s : State) : (s.setRing r d).ring n = s.ring n := by
  rw [State.ring_setRing, if_neg h]

theorem State.ring_onMem {f : MemSt → MemSt} {s : State} (h : (f s.mem).rings = s.mem.rings) (n : Nat) :
    (s.onMem f).ring n = s.ring n := by
  unfold State.ring
  rw [State.onMem_mem, h]

@[simp] theorem State.setRing_tiles (r : Nat) (d : BitVec 256) (s : State) : (s.setRing r d).mem.tiles = s.mem.tiles := rfl

@[simp] theorem State.setRing_bud (r : Nat) (d : BitVec 256) (s : State) : (s.setRing r d).bud = s.bud := rfl

@[simp] theorem State.syncWcred_bud (r : Nat) (s : State) : (s.syncWcred r).bud = s.bud := State.setRing_bud ..

@[simp] theorem State.syncWcred_tiles (r : Nat) (s : State) : (s.syncWcred r).mem.tiles = s.mem.tiles := State.setRing_tiles ..

theorem State.ring_syncWcred_of_ne {r n : Nat} (h : n ≠ r) (s : State) : (s.syncWcred r).ring n = s.ring n :=
  State.ring_setRing_of_ne h ..

/-- WCRED is the credit of the ring's write claim, 0 without one (R54). -/
theorem State.ring_syncWcred {r : Nat} {s : State} {o : Option Hold} (h : s.bud.holds.find? (fun h => h.grp == .write r) = o) :
    (s.syncWcred r).ring r = fput (s.ring r) RingDesc.wcred (o.elim 0 Hold.credits) := by
  subst h
  refine (State.ring_setRing_same ..).trans ?_
  cases s.bud.holds.find? (fun h => h.grp == .write r) <;> rfl

/-! ### A request taken up shows the same rings, readers and writers -/

section
variable (q : Req) (s : State)

@[simp] theorem taken_ring (r : Nat) : (taken q s).ring r = s.ring r := by simp [State.ring]

@[simp] theorem taken_markersOf (r : Nat) : (taken q s).markersOf r = s.markersOf r := by simp [State.markersOf]

@[simp] theorem taken_hasReader (r : Nat) : (taken q s).hasReader r = s.hasReader r := by
  have hh : holdReads (taken q s) = holdReads s := by
    funext h
    simp [holdReads, State.audIns, State.audIn]
  simp [State.hasReader, hh]

@[simp] theorem taken_writersOf (r : Nat) : (taken q s).writersOf r = s.writersOf r := by simp [State.writersOf]

@[simp] theorem taken_hasWriter (r : Nat) : (taken q s).hasWriter r = s.hasWriter r := by simp [State.hasWriter, State.heldWriters]

@[simp] theorem taken_writerHalted (w : Writer) : (taken q s).writerHalted w = s.writerHalted w := by
  cases w <;> simp [State.writerHalted, State.isIsolated]

@[simp] theorem taken_ringHalted (r : Nat) : (taken q s).ringHalted r = s.ringHalted r := by simp [State.ringHalted]

@[simp] theorem taken_ringView (r : Nat) : (taken q s).ringView r = s.ringView r := by simp [State.ringView]

end

/-! ### RING_CREATE -/

section
variable {q : Req} {s : State} {r : Nat} {d : BitVec 256}

/-- RING_CREATE's passed checks: the ring is one of the 8,192 and FREE, and the descriptor is the request's with its geometry. -/
theorem ringCreateCheck_facts {decl : Nat × Nat} (h : ringCreateCheck q s = .ok (r, d, decl)) :
    r = Req.u32 q 0 ∧ r < 8192 ∧ ringFree (s.ring r) = true ∧
      d = withGeometry (mergeRec RingDesc.layout (s.ring r) (Req.slice q 4 32)) ∧ decl = (Req.u32 q 36, Req.u32 q 40) := by
  obtain ⟨hr, h⟩ := needAt_bind.1 h
  obtain ⟨hf, h⟩ := need_bind.1 h
  obtain ⟨-, h⟩ := layout_bind.1 h
  obtain ⟨_, -, h⟩ := ok_bind_iff.1 h
  obtain ⟨_, -, h⟩ := ok_bind_iff.1 h
  cases pure_eq_ok.1 h
  exact ⟨rfl, by simpa using hr, hf, rfl, rfl⟩

theorem cmdRingCreate_eq {decl : Nat × Nat} (h : ringCreateCheck q s = .ok (r, d, decl)) :
    cmdRingCreate q s = .ok (ringCreateDo r d decl s, recBytes ((ringCreateDo r d decl s).ring r)) := by
  unfold cmdRingCreate
  rw [h]
  rfl

theorem ringCreateDo_ring {decl : Nat × Nat} (n : Nat) : (ringCreateDo r d decl s).ring n =
    if n = r then fput (fput d RingDesc.ringId r) RingDesc.stateF 1 else s.ring n := by
  unfold ringCreateDo
  rw [State.ring_onMem, State.ring_setRing]
  simp

theorem ringCreateDo_decl {decl : Nat × Nat} : tget declReset (ringCreateDo r d decl s).mem.decl r = decl := tget_tset_same ..

theorem ringCreateDo_markersOf {decl : Nat × Nat} : (ringCreateDo r d decl s).markersOf r = [] :=
  (tget_tdel ..).trans (if_pos rfl)

/-! ### RING_DELETE -/

theorem cmdRingDelete_eq (hr : Req.u32 q 0 < 8192) (ht : Req.trailingOk q 4 = true) (hf : ringFree (s.ring (Req.u32 q 0)) = false)
    (hd : s.hasReader (Req.u32 q 0) = false) (hw : s.hasWriter (Req.u32 q 0) = false) :
    cmdRingDelete q s = .ok (ringDeleteDo (Req.u32 q 0) s, []) := by
  have hc : ringDeleteCheck q s = .ok (Req.u32 q 0) := by
    simp [ringDeleteCheck, hr, layout_ok ht, hf, hd, hw, pure, Except.pure]
  unfold cmdRingDelete
  rw [hc]
  rfl

theorem ringDeleteDo_ring (n : Nat) : (ringDeleteDo r s).ring n = if n = r then ringReset r else s.ring n := by
  refine (tget_tdel ..).trans ?_
  split
  · next h => rw [h]
  · rfl

theorem ringFree_ringReset (n : Nat) : ringFree (ringReset n) = true := by
  have hlt : n % 8192 < 2 ^ RingDesc.stateF.lo := lt_trans (Nat.mod_lt n (by decide)) (by decide)
  have hz : fget (ringReset n) RingDesc.stateF = 0 := by
    rw [fget, ringReset, BitVec.toNat_ofNat, Nat.mod_eq_of_lt (hlt.trans (by decide)), Nat.div_eq_of_lt hlt, Nat.zero_mod]
  rw [ringFree, hz]
  rfl

/-! ### RING_MODIFY -/

/-- RING_MODIFY's passed field checks (R54): the ring is not FREE, and the descriptor is the request's with its geometry. -/
theorem ringModifyFields_facts (h : ringModifyFields q s = .ok (r, d)) :
    r = Req.u32 q 0 ∧ ringFree (s.ring r) = false ∧ d = withGeometry (mergeRec RingDesc.layout (s.ring r) (Req.recordBytes q 32)) := by
  obtain ⟨-, h⟩ := index_bind.1 h
  obtain ⟨-, h⟩ := noTarget_bind.1 h
  obtain ⟨-, h⟩ := layout_bind.1 h
  obtain ⟨hf, h⟩ := need_bind.1 h
  obtain ⟨_, -, h⟩ := ok_bind_iff.1 h
  split at h
  · cases h
  · obtain ⟨_, -, h⟩ := ok_bind_iff.1 h
    obtain ⟨-, h⟩ := needAt_bind.1 h
    split at h
    · cases h
    · cases pure_eq_ok.1 h
      exact ⟨rfl, by simpa using hf, rfl⟩

theorem ringModifyCheck_facts {u : State} (h : ringModifyCheck q s = .ok (r, d, u)) :
    ringModifyFields q s = .ok (r, d) ∧ ringModifyClaims r d s = .ok u := by
  obtain ⟨⟨r', d'⟩, hf, h⟩ := ok_bind_iff.1 h
  obtain ⟨u', hc, h⟩ := ok_bind_iff.1 h
  cases pure_eq_ok.1 h
  exact ⟨hf, hc⟩

theorem cmdRingModify_eq {u : State} (h : ringModifyCheck q s = .ok (r, d, u)) :
    cmdRingModify q s = .ok ((u.setRing r d).syncWcred r, recBytes (((u.setRing r d).syncWcred r).ring r)) := by
  unfold cmdRingModify
  rw [h]
  rfl

/-! ### RING_QUERY and MEM_STATUS -/

theorem cmdRingQuery_eq (hr : Req.u32 q 0 < 8192) (ht : Req.trailingOk q 8 = true) (hc : Req.u32 q 4 < 2) :
    cmdRingQuery q s = .ok (if Req.u32 q 4 = 1 then s.onMem (fun m => { m with ctr := tdel m.ctr (Req.u32 q 0) }) else s,
      recBytes (s.ringView (Req.u32 q 0)) ++ ringCtrBytes (tget ctrReset s.mem.ctr (Req.u32 q 0)) ++
        markerBytes (s.markersOf (Req.u32 q 0))) := by
  unfold cmdRingQuery
  rw [readArgs_ok hr ht hc]
  simp [pure, Except.pure]

theorem cmdMemStatus_eq (hr : Req.u32 q 0 < 16) (ht : Req.trailingOk q 8 = true) (hc : Req.u32 q 4 < 2) :
    cmdMemStatus q s = .ok (if Req.u32 q 4 = 1
        then s.onChan (Req.u32 q 0) (fun c => { c with chFail := 0, chEcc := 0, chRecentre := 0, chCache := 0 })
      else s, chanBytes (tget chanReset s.mem.chans (Req.u32 q 0))) := by
  unfold cmdMemStatus
  rw [readArgs_ok hr ht hc]
  simp [pure, Except.pure]

end

/-- Settles O14: each command's passed checks say what it stores, and a store to one ring's records leaves the others and the tiles. -/
theorem ringCommandsTakeEffect : Obligations.RingCommandsTakeEffect := by
  refine ⟨?create, ?delete, ?modify, ?query, ?status⟩
  case create =>
    intro q s r d decl hs hc
    obtain ⟨hr, hlt, hfree, hd, rfl⟩ := ringCreateCheck_facts hc
    refine ⟨_, serve_ok hs (cmdRingCreate_eq hc), hr, hlt, by simpa using hfree, by simpa using hd, ?_,
      ringCreateDo_decl, ringCreateDo_markersOf, fun n hn => ?_, ?_, ?_⟩
    · rw [ringCreateDo_ring, if_pos rfl]
    · rw [ringCreateDo_ring, if_neg hn, taken_ring]
    · exact (tiles_of_kept (ringCreateDo_kept (μ := 0x40) ..)).1.trans (congrArg MemSt.tiles (taken_mem ..))
    · exact (bud_of_kept (ringCreateDo_kept (μ := 0x40) ..)).trans (taken_bud ..)
  case delete =>
    intro q s hr hlt hfree hrd hwr ht
    have hc := cmdRingDelete_eq (s := taken q s) hlt ht (by simpa using hfree) (by simpa using hrd) (by simpa using hwr)
    refine ⟨_, serve_ok hr hc, ?_, ?_, fun n hn => ?_, ?_⟩
    · rw [ringDeleteDo_ring, if_pos rfl, ringFree_ringReset]
    · simp [ringDeleteDo, State.release, bne]
    · rw [ringDeleteDo_ring, if_neg hn, taken_ring]
    · simp [ringDeleteDo, State.release]
  case modify =>
    intro q s r d u hs hc
    obtain ⟨hf, hcl⟩ := ringModifyCheck_facts hc
    obtain ⟨rfl, hfree, hd⟩ := ringModifyFields_facts hf
    have hmem : u.mem = s.mem := (mem_of_kept ((ringModifyClaims_ok (μ := 0x200) ..).out _ hcl)).trans (taken_mem ..)
    refine ⟨_, serve_ok hs (cmdRingModify_eq hc), by simpa using hfree, rfl, by simpa using hd, ?_, fun n hn => ?_, ?_⟩
    · rw [State.syncWcred_bud]
      have hw := State.ring_syncWcred (r := Req.u32 q 0) (s := u.setRing (Req.u32 q 0) d) rfl
      rw [State.ring_setRing_same] at hw
      refine hw.trans ?_
      cases (u.setRing (Req.u32 q 0) d).bud.holds.find? (fun h => h.grp == .write (Req.u32 q 0)) <;> rfl
    · rw [State.ring_syncWcred_of_ne hn, State.ring_setRing_of_ne hn, State.ring, hmem, State.ring]
    · simp [hmem]
  case query =>
    intro q s hs hr ht hc
    have h := serve_ok (peers := []) hs (cmdRingQuery_eq (s := taken q s) hr ht hc)
    simp only [taken_ringView, taken_mem, taken_markersOf] at h
    exact h
  case status =>
    intro q s hs hr ht hc
    have h := serve_ok (peers := []) hs (cmdMemStatus_eq (s := taken q s) hr ht hc)
    simp only [taken_mem] at h
    exact h

end Sys2Proof.Machine
end

section
/-! PROOFS. Memory channels (R29 to R33, R37): what a training leaves of a channel and of memory, and what a re-centring reports. -/

namespace Sys2Proof.Machine

open Sys2Proof

/-! ### One channel changed -/

theorem State.onChan_chans (c : Nat) (f : Chan → Chan) (s : State) (n : Nat) : tget chanReset (s.onChan c f).mem.chans n =
    if n = c then f (tget chanReset s.mem.chans c) else tget chanReset s.mem.chans n :=
  tget_tset ..

@[simp] theorem State.onChan_chans_same (c : Nat) (f : Chan → Chan) (s : State) :
    tget chanReset (s.onChan c f).mem.chans c = f (tget chanReset s.mem.chans c) := tget_tset_same ..

@[simp] theorem State.onChan_tiles (c : Nat) (f : Chan → Chan) (s : State) : (s.onChan c f).mem.tiles = s.mem.tiles := rfl

@[simp] theorem State.onChan_rings (c : Nat) (f : Chan → Chan) (s : State) : (s.onChan c f).mem.rings = s.mem.rings := rfl

@[simp] theorem State.onChan_pwr (c : Nat) (f : Chan → Chan) (s : State) : (s.onChan c f).pwr = s.pwr := rfl

/-- The memory state as it is before an event is raised is as it is after. -/
@[simp] theorem State.raise_mem (e : Ev) (s : State) : (s.raise e).mem = s.mem := mem_of_kept (State.raise_kept (μ := 0x2C0014) ..)

@[simp] theorem State.raise0_mem (code l : Nat) (s : State) : (s.raise0 code l).mem = s.mem := State.raise_mem ..

@[simp] theorem State.endCause_mem (code l : Nat) (s : State) : (s.endCause code l).mem = s.mem := rfl

@[simp] theorem State.endCause_pwr (code l : Nat) (s : State) : (s.endCause code l).pwr = s.pwr := rfl

/-! ### The population of the card -/

@[simp] theorem State.setReduced_chans (v : Bool) (s : State) : (s.setReduced v).mem.chans = s.mem.chans := by
  unfold State.setReduced
  split <;> rfl

@[simp] theorem State.setReduced_reduced (v : Bool) (s : State) : (s.setReduced v).pwr.reduced = v := by
  unfold State.setReduced
  split
  · next h => exact h
  · rfl

theorem State.setReduced_same (s : State) : s.setReduced s.pwr.reduced = s := if_pos rfl

/-- Tiles lie elsewhere in another population: a change empties memory (R37). -/
theorem State.setReduced_tiles_of_ne {v : Bool} {s : State} (h : v ≠ s.pwr.reduced) : (s.setReduced v).mem.tiles = [] := by
  unfold State.setReduced
  rw [if_neg h.symm]
  rfl

/-! ### CHANNEL_TRAINING -/

section
variable {s : State} {ch : Fin 16} {r : BitVec 16}

theorem execChannelTraining_idle {ok : Bool} (h : s.pwr.power ≠ .staging ∨ s.pwr.bootState ≠ .firmware) :
    execChannelTraining ch r ok s = .next s.fresh := by
  have h' : (s.fresh.pwr.power != .staging || s.fresh.pwr.bootState != .firmware) = true := by simpa using h
  unfold execChannelTraining
  simp only [h', if_true]
  rfl

variable (hp : s.pwr.power = .staging) (hb : s.pwr.bootState = .firmware)
include hp hb

theorem execChannelTraining_misfit {ok : Bool} (hfull : r.toNat ≠ fullCard) (hred : r.toNat ≠ reducedCard) :
    execChannelTraining ch r ok s = .next ((s.fresh.onChan ch.val (fun c => { c with trained := false })).raise
      ⟨0x47, locChannel ch.val, true, 0, leBytes 2 (misfits r.toNat)⟩) := by
  simp [execChannelTraining, hp, hb, hfull, hred, done]

variable (hcard : r.toNat = fullCard ∨ r.toNat = reducedCard) (hmask : maskBit r.toNat ch.val = true)
include hcard hmask

theorem execChannelTraining_trained : execChannelTraining ch r true s =
    .next ((((s.fresh.setReduced (r.toNat == reducedCard)).onChan ch.val (fun c => { c with trained := true, failed := false })).endCause
      0x48 (locChannel ch.val)).endCause 0x47 (locChannel ch.val)) := by
  have hfit : (r.toNat != fullCard && r.toNat != reducedCard) = false := by
    rcases hcard with h | h <;> simp [h]
  simp [execChannelTraining, hp, hb, hfit, hmask, done]

theorem execChannelTraining_untrained : execChannelTraining ch r false s =
    .next (((s.fresh.setReduced (r.toNat == reducedCard)).onChan ch.val (fun c => { c with trained := false })).raise0 0x47
      (locChannel ch.val)) := by
  have hfit : (r.toNat != fullCard && r.toNat != reducedCard) = false := by
    rcases hcard with h | h <;> simp [h]
  simp [execChannelTraining, hp, hb, hfit, hmask, done]

end

/-! ### RECENTRE -/

/-- One thing a re-centring may find: where it does, the channel's record changes and an event reports it. -/
def State.reportChan (found : Bool) (ch : Nat) (f : Chan → Chan) (e : Ev) (s : State) : State :=
  if found then (s.onChan ch f).raise e else s

section
variable (found : Bool) (ch : Nat) (f : Chan → Chan) (e : Ev) (s : State)

@[simp] theorem State.reportChan_false : s.reportChan false ch f e = s := rfl

@[simp] theorem State.reportChan_chan : tget chanReset (s.reportChan found ch f e).mem.chans ch =
    if found then f (tget chanReset s.mem.chans ch) else tget chanReset s.mem.chans ch := by
  cases found <;> simp [State.reportChan]

@[simp] theorem State.reportChan_tiles : (s.reportChan found ch f e).mem.tiles = s.mem.tiles := by
  cases found <;> simp [State.reportChan]

@[simp] theorem State.reportChan_rings : (s.reportChan found ch f e).mem.rings = s.mem.rings := by
  cases found <;> simp [State.reportChan]

theorem State.reportChan_status : (e.code, e.loc) ∈ (s.reportChan true ch f e).flt.status := State.raise_status ..

variable {s}

theorem State.reportChan_mono {p : Nat × Nat} (h : p ∈ s.flt.status) : p ∈ (s.reportChan found ch f e).flt.status := by
  cases found with
  | false => exact h
  | true => exact State.raise_mono h

end

/-- A re-centring's three findings in order: ECC corrections (0x45), a moved setting (0x46), a failure (0x48). -/
def State.recentred (ch : Nat) (ok moved : Bool) (ecc : BitVec 32) (s : State) : State :=
  ((s.reportChan
    (ecc != 0) ch (fun c => { c with chEcc := sat32 c.chEcc ecc.toNat }) ⟨0x45, locChannel ch, true, 0, leBytes 4 ecc.toNat⟩).reportChan
    moved ch (fun c => { c with chRecentre := sat32 c.chRecentre 1 }) (Ev.plain 0x46 (locChannel ch))).reportChan
    (!ok) ch (fun c => { c with trained := false, failed := true }) (Ev.plain 0x48 (locChannel ch))

section
variable (ch : Nat) (ok moved : Bool) (ecc : BitVec 32) (s : State)

theorem State.recentred_chan : tget chanReset (s.recentred ch ok moved ecc).mem.chans ch =
    let c := tget chanReset s.mem.chans ch
    { c with
      chEcc := if ecc != 0 then sat32 c.chEcc ecc.toNat else c.chEcc
      chRecentre := if moved then sat32 c.chRecentre 1 else c.chRecentre
      trained := if ok then c.trained else false
      failed := if ok then c.failed else true } := by
  simp only [State.recentred, State.reportChan_chan]
  cases ecc != 0 <;> cases moved <;> cases ok <;> rfl

end

theorem execRecentre_trained {s : State} {ch : Fin 16} {ok moved : Bool} {ecc : BitVec 32} (hp : s.pwr.power = .active)
    (hb : s.pwr.bootState = .firmware) (ht : (tget chanReset s.mem.chans ch.val).trained = true) :
    execRecentre ch ok moved ecc s = .next (s.fresh.recentred ch.val ok moved ecc) := by
  unfold execRecentre State.recentred State.reportChan
  by_cases he : ecc = 0 <;> cases ok <;> simp [hp, hb, ht, he, done, State.raise0]

theorem execRecentre_idle {s : State} {ch : Fin 16} {ok moved : Bool} {ecc : BitVec 32}
    (h : s.pwr.power ≠ .active ∨ (tget chanReset s.mem.chans ch.val).trained = false) :
    execRecentre ch ok moved ecc s = .next s.fresh := by
  have h' : (s.fresh.pwr.power != .active || s.fresh.pwr.bootState != .firmware ||
      !(tget chanReset s.fresh.mem.chans ch.val).trained) = true := by
    rcases h with h | h <;> simp [h]
  unfold execRecentre
  simp only [h', if_true]
  rfl

/-- Settles O41: a training changes its channel and, with the card, empties memory; a re-centring reports each of its three findings. -/
theorem channelsTrainAndRecentre : Obligations.ChannelsTrainAndRecentre := by
  refine ⟨?trained, ?untrained, ?misfit, fun s ch r ok h => execChannelTraining_idle h, ?recentred,
    fun s ch ok moved ecc h => execRecentre_idle h⟩
  case trained =>
    intro s ch r hp hb hcard hmask
    refine ⟨_, execChannelTraining_trained hp hb hcard hmask, by simp [beq_eq_decide], by simp, by simp,
      fun h => ?_, fun h => ?_, fun n hn => ?_⟩
    · simpa using State.setReduced_tiles_of_ne (s := s.fresh) (by simpa using h)
    · have hs : s.fresh.setReduced (r.toNat == reducedCard) = s.fresh := by
        have hv : (r.toNat == reducedCard) = s.fresh.pwr.reduced := by simpa using h
        rw [hv, State.setReduced_same]
      simp [hs]
    · simp [State.onChan_chans, hn]
  case untrained =>
    intro s ch r hp hb hcard hmask
    exact ⟨_, execChannelTraining_untrained hp hb hcard hmask, by simp, State.raise_status ..⟩
  case misfit =>
    intro s ch r ok hp hb hfull hred
    exact ⟨_, execChannelTraining_misfit hp hb hfull hred, by simp, State.raise_status .., by simp⟩
  case recentred =>
    intro s ch ok moved ecc hp hb ht
    refine ⟨_, execRecentre_trained hp hb ht, ?_, ?_, ?_, ?_, ?_, ?_, ?_, by simp [State.recentred], by simp [State.recentred]⟩
    · rintro rfl
      rw [State.recentred_chan]
      rfl
    · intro he
      have hb : (ecc != 0) = true := bne_iff_ne.2 he
      refine ⟨State.reportChan_mono _ _ _ _ (State.reportChan_mono _ _ _ _ ?_), ?_⟩
      · rw [hb]
        exact State.reportChan_status ..
      · rw [State.recentred_chan, hb]
        rfl
    · rintro rfl rfl rfl
      rfl
    · rintro rfl
      exact ⟨State.reportChan_mono _ _ _ _ (State.reportChan_status ..), by rw [State.recentred_chan]; rfl⟩
    · rintro rfl
      rw [State.recentred_chan]
      rfl
    · rintro rfl
      exact ⟨State.reportChan_status .., by rw [State.recentred_chan]; rfl⟩
    · rintro rfl
      rw [State.recentred_chan]
      rfl

end Sys2Proof.Machine
end

section
/-! PROOFS. Reading after writing the Tile Store (R35, R36): a run of bytes reads back as stored, and a run below it as before. -/

namespace Sys2Proof.Machine

open Sys2Proof

/-! ### One run of cells -/

section
variable {d : Nat → Byte} {m : List Host.Cell} {a : Nat}

theorem cellBytes_succ_of_above {n : Nat} (h : ∀ c ∈ m, a < c.1) : cellBytes d m a (n + 1) = d a :: cellBytes d m (a + 1) n := by
  cases m with
  | nil => rfl
  | cons c cs => exact if_neg (h c List.mem_cons_self).ne'

theorem cellBytes_runCells (bs : List Byte) : cellBytes d (runCells d a bs) a bs.length = bs := by
  induction bs generalizing a with
  | nil => cases runCells d a [] <;> rfl
  | cons b bs ih =>
    unfold runCells
    split
    · next hb =>
      rw [List.length_cons, cellBytes_succ_of_above (fun c hc => (mem_runCells d (a + 1) bs c hc).1), ih, hb]
    · rw [List.length_cons, cellBytes, if_pos rfl, ih]

/-! ### Memory -/

theorem filter_memWrite (p : Host.Cell → Bool) (bs : List Byte) : (memWrite d m a bs).filter p =
    (m.filter (fun c => c.1 < a)).filter p ++ (runCells d a bs).filter p ++ (m.filter (fun c => a + bs.length ≤ c.1)).filter p := by
  rw [memWrite, List.filter_append, List.filter_append]

theorem memRead_memWrite_same (bs : List Byte) : memRead d (memWrite d m a bs) a bs.length = bs := by
  have hl : (m.filter (fun c => decide (c.1 < a))).filter (fun c => a ≤ c.1 && c.1 < a + bs.length) = [] := by
    simp only [List.filter_eq_nil_iff, List.mem_filter, decide_eq_true_eq, Bool.and_eq_true]
    omega
  have hr : (m.filter (fun c => decide (a + bs.length ≤ c.1))).filter (fun c => a ≤ c.1 && c.1 < a + bs.length) = [] := by
    simp only [List.filter_eq_nil_iff, List.mem_filter, decide_eq_true_eq, Bool.and_eq_true]
    omega
  have hm : (runCells d a bs).filter (fun c => a ≤ c.1 && c.1 < a + bs.length) = runCells d a bs := by
    refine List.filter_eq_self.2 fun c hc => ?_
    obtain ⟨h1, h2, -⟩ := mem_runCells d a bs c hc
    simp [h1, h2]
  rw [memRead, filter_memWrite, hl, hr, hm, List.nil_append, List.append_nil, cellBytes_runCells]

theorem memRead_memWrite_of_le {b n : Nat} (bs : List Byte) (h : b + n ≤ a) : memRead d (memWrite d m a bs) b n = memRead d m b n := by
  have hl : (m.filter (fun c => decide (c.1 < a))).filter (fun c => b ≤ c.1 && c.1 < b + n) =
      m.filter (fun c => b ≤ c.1 && c.1 < b + n) := by
    rw [List.filter_filter]
    refine List.filter_congr fun c _ => ?_
    by_cases hc : c.1 < b + n
    · simp [hc, hc.trans_le h]
    · simp [hc]
  have hr : (m.filter (fun c => decide (a + bs.length ≤ c.1))).filter (fun c => b ≤ c.1 && c.1 < b + n) = [] := by
    simp only [List.filter_eq_nil_iff, List.mem_filter, decide_eq_true_eq, Bool.and_eq_true]
    omega
  have hm : (runCells d a bs).filter (fun c => b ≤ c.1 && c.1 < b + n) = [] := by
    refine List.filter_eq_nil_iff.2 fun c hc => ?_
    have := (mem_runCells d a bs c hc).1
    simp only [decide_eq_true_eq, Bool.and_eq_true]
    omega
  rw [memRead, filter_memWrite, hl, hr, hm, List.append_nil, List.append_nil, memRead]

end

/-! ### The Tile Store of a state -/

theorem State.bytesAt_storeBytes {a n : Nat} {bs : List Byte} (s : State) (h : bs.length = n) : (s.storeBytes a bs).bytesAt a n = bs := by
  subst h
  exact memRead_memWrite_same bs

theorem State.bytesAt_storeBytes_of_le {a b n : Nat} (bs : List Byte) (s : State) (h : b + n ≤ a) :
    (s.storeBytes a bs).bytesAt b n = s.bytesAt b n := memRead_memWrite_of_le bs h

/-- Two states that list the same bytes, of the same card, tested the same. -/
def SameStore (s t : State) : Prop := t.mem.tiles = s.mem.tiles ∧ t.mem.undef = s.mem.undef ∧ t.pwr.reduced = s.pwr.reduced

theorem SameStore.default {s t : State} (h : SameStore s t) : t.memByteDefault = s.memByteDefault := by
  obtain ⟨-, hu, hr⟩ := h
  funext a
  rw [State.memByteDefault, hu, hr, State.memByteDefault]

theorem SameStore.bytesAt {s t : State} (h : SameStore s t) (a n : Nat) : t.bytesAt a n = s.bytesAt a n := by
  rw [State.bytesAt, h.default, h.1, State.bytesAt]

theorem SameStore.byteAt {s t : State} (h : SameStore s t) (a : Nat) : t.byteAt a = s.byteAt a := by
  rw [State.byteAt, h.default, h.1, State.byteAt]

/-! ### A tile and its check record -/

theorem fitBytes_length (n : Nat) (bs : List Byte) : (fitBytes n bs).length = n := by
  simp only [fitBytes, List.length_append, List.length_take, List.length_replicate]
  omega

theorem leBytes_length (n v : Nat) : (leBytes n v).length = n := by
  induction n generalizing v with
  | zero => rfl
  | succ n ih => rw [leBytes, List.length_cons, ih]

theorem checkRecord_length (r : Nat) (p : List Byte) (e : BitVec 32) (pos : Nat) (fin poison : Bool) :
    (checkRecord r p e pos fin poison).length = 8 := by
  rw [checkRecord, List.length_append, leBytes_length, leBytes_length]

/-- Ring space ends below the check region (R35, R36). -/
theorem tile_below_checkBase {reduced : Bool} {i : Nat} (h : i < ringSpace reduced) : 4096 * i + 4096 ≤ checkBase reduced := by
  cases reduced <;> simp only [ringSpace, checkBase] at h ⊢ <;> simp at h ⊢ <;> omega

section
variable {r : Nat} {e : BitVec 32} {bytes : List Byte} {pos : Nat} {fin poison : Bool} {s : State}

theorem State.putTile_store : SameStore ((s.storeBytes (4096 * ringTile (s.ring r) e) (fitBytes 4096 bytes)).storeBytes
    (checkBase s.pwr.reduced + 8 * ringTile (s.ring r) e) (checkRecord r (fitBytes 4096 bytes) e pos fin poison))
    (s.putTile r e bytes pos fin poison) := ⟨rfl, rfl, rfl⟩

theorem State.putTile_tile (h : ringTile (s.ring r) e < ringSpace s.pwr.reduced) :
    (s.putTile r e bytes pos fin poison).bytesAt (4096 * ringTile (s.ring r) e) 4096 = fitBytes 4096 bytes := by
  have hle := tile_below_checkBase h
  rw [State.putTile_store.bytesAt, State.bytesAt_storeBytes_of_le _ _ (by omega), State.bytesAt_storeBytes _ (fitBytes_length ..)]

theorem State.putTile_checkRecord :
    (s.putTile r e bytes pos fin poison).bytesAt (checkBase s.pwr.reduced + 8 * ringTile (s.ring r) e) 8 =
      checkRecord r (fitBytes 4096 bytes) e pos fin poison := by
  rw [State.putTile_store.bytesAt, State.bytesAt_storeBytes _ (checkRecord_length ..)]

theorem State.putTile_elsewhere {a : Nat} (h1 : a < 4096 * ringTile (s.ring r) e ∨ 4096 * ringTile (s.ring r) e + 4096 ≤ a)
    (h2 : a < checkBase s.pwr.reduced + 8 * ringTile (s.ring r) e ∨ checkBase s.pwr.reduced + 8 * ringTile (s.ring r) e + 8 ≤ a) :
    (s.putTile r e bytes pos fin poison).byteAt a = s.byteAt a := by
  rw [State.putTile_store.byteAt, storeBytes_byteAt, checkRecord_length, if_neg (by omega), storeBytes_byteAt, fitBytes_length,
    if_neg (by omega)]

end

end Sys2Proof.Machine
end

section
/-! PROOFS. A write slot (R41, R55, R69, R70): what a ring's oldest tile stores when it is committed, what its exports and its
descriptor then change, and where no tile takes the slot. -/

namespace Sys2Proof.Machine

open Sys2Proof

/-! ### The marker of a unit -/

/-- The first marker that a property of its first position finds is the newest of those that start there. -/
theorem mem_onNewest_of_find {l : List Marker} {p : Marker → Bool} {k : Marker} {f : Marker → Marker} (h : l.find? p = some k)
    (hp : ∀ j : Marker, j.eseq = k.eseq → p j = true) : f k ∈ onNewest k.eseq f l := by
  induction l with
  | nil => cases h
  | cons j l ih =>
    rw [List.find?_cons] at h
    split at h
    · cases h
      rw [onNewest, if_pos (beq_self_eq_true _)]
      exact List.mem_cons_self
    · next hj =>
      have hne : ¬(j.eseq == k.eseq) = true := fun he => by
        rw [hp j (eq_of_beq he)] at hj
        cases hj
      rw [onNewest, if_neg hne]
      exact List.mem_cons_of_mem _ (ih h)

theorem mem_onNewest_of_markerAt {s : State} {r : Nat} {e : BitVec 32} {k : Marker} {f : Marker → Marker} (h : s.markerAt r e = some k) :
    f k ∈ onNewest k.eseq f (s.markersOf r) := by
  refine mem_onNewest_of_find h fun j hj => ?_
  have hk := List.find?_some h
  rw [hj]
  exact hk

/-! ### Exports -/

/-- Memory without the counters of rings and channels. -/
def MemSt.uncounted (m : MemSt) : MemSt := { m with ctr := [], chans := [] }

theorem uncounted_of_kept {μ : Nat} {s t : State} (e : t.kept μ = s.kept μ) (h : μ.testBit 6 = false := by rfl) :
    t.mem.uncounted = s.mem.uncounted := congrArg MemSt.uncounted (mem_of_kept e h)

theorem State.countVerdict_uncounted (r : Nat) (e : BitVec 32) (data : Bool) (v : Verdict) (s : State) :
    (s.countVerdict r e data v).mem.uncounted = s.mem.uncounted := by
  unfold State.countVerdict
  split
  · rfl
  · split <;> rfl
  · rfl

/-- What every step of a fold leaves, the fold leaves. -/
theorem foldl_proj {α β : Type} {p : State → β} {g : State → α → State} (hg : ∀ s a, p (g s a) = p s) (s : State) (l : List α) :
    p (l.foldl g s) = p s := by
  induction l generalizing s with
  | nil => rfl
  | cons a l ih => exact (ih (g s a)).trans (hg s a)

theorem State.exportTile_uncounted (r : Nat) (e : BitVec 32) (start : Option Nat) (on : List (Nat × BitVec 128)) (s : State) :
    (s.exportTile r e start on).mem.uncounted = s.mem.uncounted := by
  unfold State.exportTile
  refine (foldl_proj (p := fun s => s.mem.uncounted) (fun s e => ?_) _ _).trans ?_
  · exact uncounted_of_kept ((State.sendTile_kept (μ := 0x40000) ..).trans ((State.kept_onTrp ..).trans (State.setExp_kept ..)))
  · exact (uncounted_of_kept (State.spend_kept (μ := 0x200) ..)).trans
      ((uncounted_of_kept (State.raiseVerdict_kept (μ := 0x2C0014) ..)).trans (State.countVerdict_uncounted ..))

theorem State.putAbandon_mem (r : Nat) (first resume : BitVec 32) (s : State) : (s.putAbandon r first resume).mem = s.mem :=
  mem_of_kept (State.putAbandon_kept (μ := 0x40000) ..)

theorem State.drainExports_uncounted (r n : Nat) (s : State) : (State.drainExports r n s).mem.uncounted = s.mem.uncounted := by
  induction n generalizing s with
  | zero => rfl
  | succ n ih =>
    unfold State.drainExports
    split
    · rfl
    · exact (ih _).trans (congrArg MemSt.uncounted (State.putAbandon_mem ..))
    · simp only
      split
      · exact ih _
      · split
        · exact (ih _).trans (State.exportTile_uncounted ..)
        · rfl

theorem State.feedExports_uncounted (r : Nat) (e : BitVec 32) (s : State) : (s.feedExports r e).mem.uncounted = s.mem.uncounted := by
  unfold State.feedExports
  simp only
  split
  · rfl
  · exact State.drainExports_uncounted ..

theorem State.exportsFor_of_none {s : State} {r : Nat} (h : s.exportsOf r = []) (start : Option Nat) : s.exportsFor r start = [] := by
  rw [State.exportsFor, h, List.filter_nil]

theorem State.putAbandon_of_none {s : State} {r : Nat} (h : s.exportsOf r = []) (first resume : BitVec 32) :
    s.putAbandon r first resume = s := by
  rw [State.putAbandon, h, List.foldl_nil]

/-- Where nothing exports a ring, no tile of it takes an exporter's slot. -/
theorem State.drainExports_bud {s : State} {r : Nat} (h : s.exportsOf r = []) (n : Nat) : (State.drainExports r n s).bud = s.bud := by
  induction n generalizing s with
  | zero => rfl
  | succ n ih =>
    unfold State.drainExports
    split
    · rfl
    · next first resume l _ =>
      have hl : (s.setOutq r l).exportsOf r = [] := h
      rw [State.putAbandon_of_none hl]
      exact ih hl
    · next e start l _ =>
      have hl : (s.setOutq r l).exportsOf r = [] := h
      simp only [State.exportsFor_of_none h, List.isEmpty_nil, if_true]
      exact ih hl

theorem State.feedExports_bud {s : State} {r : Nat} (h : s.exportsOf r = []) (e : BitVec 32) : (s.feedExports r e).bud = s.bud := by
  unfold State.feedExports
  simp only
  split
  · rfl
  · exact State.drainExports_bud (s := s.setOutq r (s.outq r ++ [.tile e (s.unitStartAt r e)])) h _

/-! ### The commit -/

/-- An event of another class than fatal changes no Troupe state. -/
theorem State.raise_trp {e : Ev} (h : evClass e.code ≠ 3) (s : State) : (s.raise e).trp = s.trp := by
  unfold State.raise State.raiseWith
  simp only [h, decide_false, Bool.false_and, Bool.false_eq_true, if_false]
  exact trp_of_kept (State.noteRise_kept (μ := 0x14) ..)

theorem State.lateDiffers_trp (m n j : Nat) (payload : List Byte) (s : State) : (s.lateDiffers m n j payload).trp = s.trp := by
  unfold State.lateDiffers
  split
  · split
    · rfl
    · have hc : evClass 0xB3 ≠ 3 := by decide
      exact State.raise_trp hc s
  · rfl

theorem State.legCommit_trp (r : Nat) (e : BitVec 32) (fin : Bool) (payload : List Byte) (poison : Bool) (s : State) :
    (s.legCommit r e fin payload poison).trp = s.trp := by
  unfold State.legCommit
  refine foldl_proj (p := State.trp) (fun s x => ?_) s _
  obtain ⟨m, second⟩ := x
  simp only
  split
  · rfl
  · rw [apply_ite State.trp, State.lateDiffers_trp]
    exact ite_self s.trp

theorem State.ring_setWr (r : Nat) (w : WrSt) (s : State) (n : Nat) : (s.setWr r w).ring n = s.ring n := State.ring_onMem (s := s) rfl n

theorem State.ring_storeBytes (a : Nat) (bs : List Byte) (s : State) (n : Nat) : (s.storeBytes a bs).ring n = s.ring n :=
  State.ring_onMem (s := s) rfl n

theorem State.ring_putTile (r : Nat) (e : BitVec 32) (bytes : List Byte) (pos : Nat) (fin poison : Bool) (s : State) (n : Nat) :
    (s.putTile r e bytes pos fin poison).ring n = s.ring n := by
  unfold State.putTile
  rw [State.ring_onMem, State.ring_storeBytes, State.ring_storeBytes]
  rfl

theorem SameStore.trans {s t u : State} (h : SameStore s t) (h' : SameStore t u) : SameStore s u :=
  ⟨h'.1.trans h.1, h'.2.1.trans h.2.1, h'.2.2.trans h.2.2⟩

theorem SameStore.onMem {s : State} {f : MemSt → MemSt} (ht : (f s.mem).tiles = s.mem.tiles) (hu : (f s.mem).undef = s.mem.undef) :
    SameStore s (s.onMem f) := ⟨ht, hu, rfl⟩

theorem SameStore.setRing (r : Nat) (d : BitVec 256) (s : State) : SameStore s (s.setRing r d) := SameStore.onMem rfl rfl

section
variable (r : Nat) (t : Staged) (s : State)

/-- The tile stored and its ring moved on, before the merge legs and the marker of its unit learn of it. -/
def State.committed : State :=
  let s1 := (s.setWr r { s.wr r with staged := (s.wr r).staged.drop 1 }).putTile r t.eseq t.bytes t.pos t.fin t.poison
  (s1.setRing r (fput (fput (s1.ring r) RingDesc.wseq ((t.eseq + 1).toNat + t.skip)) RingDesc.stateF 2)).onMem
    (fun m => { m with stampAt := tset natReset m.stampAt r s1.now })

theorem State.committed_wr : ((s.committed r t).wr r).staged = (s.wr r).staged.drop 1 := by
  simp only [State.wr, State.committed, State.setRing, State.putTile, State.storeBytes, State.setWr, State.onMem_mem, tget_tset_same]

theorem State.committed_ring (n : Nat) : (s.committed r t).ring n =
    if n = r then fput (fput (s.ring r) RingDesc.wseq ((t.eseq + 1).toNat + t.skip)) RingDesc.stateF 2 else s.ring n := by
  unfold State.committed
  rw [State.ring_onMem, State.ring_setRing, State.ring_putTile, State.ring_putTile, State.ring_setWr, State.ring_setWr]
  simp

theorem State.committed_store : SameStore
    ((s.setWr r { s.wr r with staged := (s.wr r).staged.drop 1 }).putTile r t.eseq t.bytes t.pos t.fin t.poison) (s.committed r t) :=
  (SameStore.setRing ..).trans (SameStore.onMem rfl rfl)

theorem State.committed_markersOf (n : Nat) : (s.committed r t).markersOf n = s.markersOf n := by
  simp only [State.markersOf, State.committed, State.setRing, State.putTile, State.storeBytes, State.setWr, State.onMem_mem]

theorem State.committed_trp : (s.committed r t).trp = s.trp := by
  simp only [State.committed, State.setRing, State.putTile, State.storeBytes, State.setWr, State.onMem_trp]

theorem State.committed_pwr : (s.committed r t).pwr = s.pwr := by
  simp only [State.committed, State.setRing, State.putTile, State.storeBytes, State.setWr, State.onMem_pwr]

/-- The END tile makes its unit's marker COMPLETE, where the unit was still being written (R55). -/
def State.markComplete : State :=
  if t.fin then
    match s.markerAt r t.eseq with
    | some k => if k.state = .writing then
        (s.onMarker r k.eseq (fun k => { k with state := .complete, tiles := t.eseq + 1 - k.eseq })).legState r k.eseq .complete else s
    | none => s
  else s

theorem State.commitTile_eq : s.commitTile r t =
    ((s.committed r t).legCommit r t.eseq t.fin t.bytes t.poison).markComplete r t := by
  unfold State.commitTile State.markComplete State.committed
  rfl

theorem State.markComplete_mem : (s.markComplete r t).mem = { s.mem with markers := (s.markComplete r t).mem.markers } := by
  unfold State.markComplete
  split
  · split
    · split
      · rw [mem_of_kept (State.legState_kept (μ := 0x2000) ..)]
        rfl
      · rfl
    · rfl
  · rfl

/-- Beyond `committed` a commit changes the markers of memory alone. -/
theorem State.commitTile_mem :
    (s.commitTile r t).mem = { (s.committed r t).mem with markers := (s.commitTile r t).mem.markers } := by
  have h := State.markComplete_mem r t ((s.committed r t).legCommit r t.eseq t.fin t.bytes t.poison)
  rw [← State.commitTile_eq, mem_of_kept (State.legCommit_kept (μ := 0x2C2014) ..)] at h
  exact h

theorem State.markComplete_trp : (s.markComplete r t).trp = s.trp := by
  unfold State.markComplete
  split
  · split
    · split
      · rw [trp_of_kept (State.legState_kept (μ := 0x2000) ..), trp_of_kept (State.onMarker_kept (μ := 0x40) ..)]
      · rfl
    · rfl
  · rfl

theorem State.commitTile_trp : (s.commitTile r t).trp = s.trp := by
  rw [State.commitTile_eq, State.markComplete_trp, State.legCommit_trp, State.committed_trp]

theorem State.markComplete_marker {k : Marker} (hf : t.fin = true) (hk : s.markerAt r t.eseq = some k) (hw : k.state = .writing) :
    { k with state := .complete, tiles := t.eseq + 1 - k.eseq } ∈ (s.markComplete r t).markersOf r := by
  unfold State.markComplete
  rw [if_pos hf, hk]
  simp only [hw, if_true]
  rw [State.markersOf, mem_of_kept (State.legState_kept (μ := 0x2000) ..)]
  unfold State.onMarker
  rw [State.onMem_mem, tget_tset_same]
  exact mem_onNewest_of_markerAt hk (f := fun k => { k with state := .complete, tiles := t.eseq + 1 - k.eseq })

theorem State.commitTile_marker {k : Marker} (hf : t.fin = true) (hk : s.markerAt r t.eseq = some k) (hw : k.state = .writing) :
    { k with state := .complete, tiles := t.eseq + 1 - k.eseq } ∈ (s.commitTile r t).markersOf r := by
  rw [State.commitTile_eq]
  refine State.markComplete_marker r t _ hf ?_ hw
  rw [State.markerAt, State.markersOf, mem_of_kept (State.legCommit_kept (μ := 0x2C2014) ..)]
  refine Eq.trans ?_ hk
  rw [State.markerAt, ← State.committed_markersOf, State.markersOf]

/-! ### The slot -/

/-- What follows a commit changes no more of memory than the counters. -/
theorem State.takeSlot_uncounted : (s.takeSlot r t).mem.uncounted =
    ((s.spend (.write r) (s.channelAt r t.eseq)).commitTile r t).mem.uncounted :=
  (uncounted_of_kept (State.descAfter_kept (μ := 0x4) ..)).trans
    ((uncounted_of_kept (State.abandonAfter_kept (μ := 0x40000) ..)).trans (State.feedExports_uncounted ..))

/-- A part of memory that is neither counters nor markers is after a slot as the stored tile left it. -/
theorem State.takeSlot_proj {β : Type} {p : MemSt → β} (hc : ∀ m : MemSt, p m.uncounted = p m)
    (hm : ∀ (m : MemSt) (l : Tab (List Marker)), p { m with markers := l } = p m) :
    p (s.takeSlot r t).mem = p ((s.spend (.write r) (s.channelAt r t.eseq)).committed r t).mem := by
  rw [← hc, State.takeSlot_uncounted, hc, State.commitTile_mem, hm]

theorem State.takeSlot_pwr : (s.takeSlot r t).pwr = s.pwr := pwr_of_kept (State.takeSlot_kept (μ := 0x2C23D4) ..)

theorem State.takeSlot_store : SameStore ((s.spend (.write r) (s.channelAt r t.eseq)).committed r t) (s.takeSlot r t) := by
  refine ⟨State.takeSlot_proj r t s (p := MemSt.tiles) (fun _ => rfl) (fun _ _ => rfl),
    State.takeSlot_proj r t s (p := MemSt.undef) (fun _ => rfl) (fun _ _ => rfl), ?_⟩
  rw [State.takeSlot_pwr, State.committed_pwr]
  rfl

/-- The slot's credit spent and the tile taken off its ring's queue. -/
def State.unstaged : State :=
  (s.spend (.write r) (s.channelAt r t.eseq)).setWr r { s.wr r with staged := (s.wr r).staged.drop 1 }

theorem State.unstaged_store : SameStore s (s.unstaged r t) := ⟨rfl, rfl, rfl⟩

theorem State.unstaged_ring (n : Nat) : (s.unstaged r t).ring n = s.ring n := State.ring_setWr ..

/-- The bytes a slot stores are the tile's and its check record's. -/
theorem State.takeSlot_put : SameStore ((s.unstaged r t).putTile r t.eseq t.bytes t.pos t.fin t.poison) (s.takeSlot r t) :=
  (State.committed_store r t (s.spend (.write r) (s.channelAt r t.eseq))).trans (State.takeSlot_store r t s)

theorem State.takeSlot_tile (h : ringTile (s.ring r) t.eseq < ringSpace s.pwr.reduced) :
    (s.takeSlot r t).bytesAt (4096 * ringTile (s.ring r) t.eseq) 4096 = fitBytes 4096 t.bytes := by
  rw [← State.unstaged_ring r t s r] at h ⊢
  rw [(State.takeSlot_put r t s).bytesAt]
  exact State.putTile_tile h

theorem State.takeSlot_checkRecord :
    (s.takeSlot r t).bytesAt (checkBase s.pwr.reduced + 8 * ringTile (s.ring r) t.eseq) 8 =
      checkRecord r (fitBytes 4096 t.bytes) t.eseq t.pos t.fin t.poison := by
  rw [← State.unstaged_ring r t s r, (State.takeSlot_put r t s).bytesAt]
  exact State.putTile_checkRecord

theorem State.takeSlot_elsewhere {a : Nat}
    (h1 : a < 4096 * ringTile (s.ring r) t.eseq ∨ 4096 * ringTile (s.ring r) t.eseq + 4096 ≤ a)
    (h2 : a < checkBase s.pwr.reduced + 8 * ringTile (s.ring r) t.eseq ∨
      checkBase s.pwr.reduced + 8 * ringTile (s.ring r) t.eseq + 8 ≤ a) : (s.takeSlot r t).byteAt a = s.byteAt a := by
  rw [← State.unstaged_ring r t s r] at h1 h2
  rw [(State.takeSlot_put r t s).byteAt, ← (State.unstaged_store r t s).byteAt]
  exact State.putTile_elsewhere h1 h2

theorem State.takeSlot_staged : ((s.takeSlot r t).wr r).staged = (s.wr r).staged.drop 1 := by
  rw [State.wr, State.takeSlot_proj r t s (p := MemSt.wr) (fun _ => rfl) (fun _ _ => rfl)]
  exact State.committed_wr r t (s.spend (.write r) (s.channelAt r t.eseq))

theorem State.takeSlot_ring (n : Nat) : (s.takeSlot r t).ring n =
    if n = r then fput (fput (s.ring r) RingDesc.wseq ((t.eseq + 1).toNat + t.skip)) RingDesc.stateF 2 else s.ring n := by
  rw [State.ring, State.takeSlot_proj r t s (p := MemSt.rings) (fun _ => rfl) (fun _ _ => rfl)]
  exact State.committed_ring r t (s.spend (.write r) (s.channelAt r t.eseq)) n

theorem State.takeSlot_marker {k : Marker} (hf : t.fin = true) (hk : s.markerAt r t.eseq = some k) (hw : k.state = .writing) :
    { k with state := .complete, tiles := t.eseq + 1 - k.eseq } ∈ (s.takeSlot r t).markersOf r := by
  have hu := congrArg MemSt.markers (State.takeSlot_uncounted r t s)
  have hm : (s.takeSlot r t).mem.markers = ((s.spend (.write r) (s.channelAt r t.eseq)).commitTile r t).mem.markers := hu
  rw [State.markersOf, hm]
  exact State.commitTile_marker r t (s.spend (.write r) (s.channelAt r t.eseq)) hf hk hw

/-- Where nothing exports the ring, a slot costs its writer's credit and no other. -/
theorem State.takeSlot_bud (h : s.exportsOf r = []) : (s.takeSlot r t).bud = (s.spend (.write r) (s.channelAt r t.eseq)).bud := by
  have hx : ((s.spend (.write r) (s.channelAt r t.eseq)).commitTile r t).exportsOf r = [] := by
    rw [State.exportsOf, State.commitTile_trp]
    exact h
  calc (s.takeSlot r t).bud
      = (((s.spend (.write r) (s.channelAt r t.eseq)).commitTile r t).feedExports r t.eseq).bud :=
        (bud_of_kept (State.descAfter_kept (μ := 0x4) ..)).trans (bud_of_kept (State.abandonAfter_kept (μ := 0x40000) ..))
    _ = ((s.spend (.write r) (s.channelAt r t.eseq)).commitTile r t).bud := State.feedExports_bud hx _
    _ = (s.spend (.write r) (s.channelAt r t.eseq)).bud := bud_of_kept (State.commitTile_kept (μ := 0x2C21D4) ..)

end

/-! ### TILE_COMMIT -/

section
variable {s : State} {r : Fin 8192} {x : Staged} {rest : List Staged}

/-- A Composer renders no tile while one waits. -/
theorem State.compNext_of_waiting {r : Nat} (h : (s.wr r).staged = x :: rest) : s.compNext r = s := by
  unfold State.compNext
  simp only [h]
  split
  · rfl
  · exact if_pos rfl

theorem State.tileWaiting_of_waiting {r : Nat} (h : (s.wr r).staged = x :: rest) :
    s.tileWaiting r = if s.hasCredit (.write r) (s.channelAt r x.eseq) then some x else none := by
  unfold State.tileWaiting
  rw [h]

theorem State.tileWaiting_of_empty {r : Nat} (h : (s.wr r).staged = []) : s.tileWaiting r = none := by
  unfold State.tileWaiting
  rw [h]

/-- With a tile waiting, TILE_COMMIT is a slot for that tile or nothing. -/
theorem execTileCommit_waiting (h : (s.wr r.val).staged = x :: rest) : execTileCommit r s = .next
    (if s.hasCredit (.write r.val) (s.channelAt r.val x.eseq) && s.winsSlot r.val x then s.fresh.takeSlot r.val x else s.fresh) := by
  have hn : s.fresh.compNext r.val = s.fresh := State.compNext_of_waiting (s := s.fresh) h
  have hw : s.fresh.tileWaiting r.val = if s.hasCredit (.write r.val) (s.channelAt r.val x.eseq) then some x else none :=
    State.tileWaiting_of_waiting (s := s.fresh) h
  unfold execTileCommit
  simp only [hn, ite_self, hw]
  cases s.hasCredit (.write r.val) (s.channelAt r.val x.eseq)
  · rfl
  · rfl

/-- With no tile waiting in a ring no Composer writes, or no credit, TILE_COMMIT does nothing. -/
theorem execTileCommit_idle
    (hn : s.hasCredit (.write r.val) (s.channelAt r.val (s.nextEseq r.val)) = true → s.fresh.compNext r.val = s.fresh)
    (hw : s.tileWaiting r.val = none) : execTileCommit r s = .next s.fresh := by
  have hs : (if s.hasCredit (.write r.val) (s.channelAt r.val (s.nextEseq r.val)) then s.fresh.compNext r.val else s.fresh) = s.fresh := by
    split
    · next h => exact hn h
    · rfl
  have hw' : s.fresh.tileWaiting r.val = none := hw
  unfold execTileCommit
  extract_lets r s' s1
  have h1 : s1 = s.fresh := hs
  rw [h1, hw']
  rfl

end

/-- Settles O42: with credit and the slot won, a commit is the tile's slot; a slot stores the tile and its record and moves its ring on. -/
theorem tileCommitStoresTheTileAndItsCheckRecord : Obligations.TileCommitStoresTheTileAndItsCheckRecord := by
  refine ⟨?commit, ?noCredit, ?lost, ?empty⟩
  case commit =>
    intro s r x rest hx hc hw hlt
    have hk : (s.fresh.takeSlot r.val x).kept 0x2C23D4 = s.kept 0x2C23D4 := (State.takeSlot_kept ..).trans (State.kept_fresh s)
    refine ⟨s.fresh.takeSlot r.val x, ?_, ?_, ?_, ?_, ?_, ?_, ?_, ?_, ?_, ?_, rte_of_kept hk, sdi_of_kept hk, pwr_of_kept hk⟩
    · refine (execTileCommit_waiting hx).trans ?_
      rw [hc, hw]
      rfl
    · rw [State.takeSlot_staged]
      exact congrArg (List.drop 1) hx
    · exact State.takeSlot_tile r.val x s.fresh hlt
    · exact State.takeSlot_checkRecord r.val x s.fresh
    · intro a h1 h2
      exact State.takeSlot_elsewhere r.val x s.fresh h1 h2
    · rw [State.takeSlot_ring, if_pos rfl, fget_fput_of_disjoint _ _ _ _ (by decide) (by decide), fget_fput _ _ _ (by decide)]
      rfl
    · rw [State.takeSlot_ring, if_pos rfl, fget_fput _ _ _ (by decide)]
      rfl
    · intro n hn
      rw [State.takeSlot_ring, if_neg hn]
      rfl
    · intro k hf hk hw
      exact State.takeSlot_marker r.val x s.fresh hf hk hw
    · intro h
      exact State.takeSlot_bud r.val x s.fresh h
  case noCredit =>
    intro s r h
    refine execTileCommit_idle (fun hc => ?_) ?_
    · rw [h] at hc
      cases hc
    · cases hx : (s.wr r.val).staged with
      | nil => exact State.tileWaiting_of_empty hx
      | cons x rest => rw [State.tileWaiting_of_waiting hx, h, if_neg Bool.false_ne_true]
  case lost =>
    intro s r x rest hx hw
    refine (execTileCommit_waiting hx).trans ?_
    rw [hw, Bool.and_false]
    rfl
  case empty =>
    intro s r hx hcomp
    refine execTileCommit_idle (fun _ => ?_) (State.tileWaiting_of_empty hx)
    have hcomp' : s.fresh.compOfRing r.val = none := hcomp
    unfold State.compNext
    rw [hcomp']

end Sys2Proof.Machine
end

section
/-! PROOFS. The SESSION and PRIV commands (R408 to R410, R383, R384, R461): what each leaves once its checks pass, the power states that
POWER_SET reaches, and the one obligation about all of them. -/

set_option Elab.async false

namespace Sys2Proof.Machine

open Sys2Proof

/-! ### A request taken up shows the same ID record, sessions, faults and budgets -/

section
variable (q : Req) (s : State)

@[simp] theorem taken_role : (taken q s).role = s.role := by simp [State.role]

@[simp] theorem taken_sync : (taken q s).sync = s.sync := by simp [State.sync]

@[simp] theorem taken_safetyNet : (taken q s).safetyNet = s.safetyNet := by simp [State.safetyNet]

@[simp] theorem taken_trainedAll : (taken q s).trainedAll = s.trainedAll := by simp [State.trainedAll]

@[simp] theorem taken_idRecord : (taken q s).idRecord = s.idRecord := by simp [State.idRecord]

@[simp] theorem taken_freeSession : (taken q s).freeSession = s.freeSession := by simp [State.freeSession]

@[simp] theorem taken_ownSession (n : Nat) : (taken q s).ownSession q n = s.ownSession q n := by simp [State.ownSession]

@[simp] theorem taken_fatalSet (but : List Nat) : (taken q s).fatalSet but = s.fatalSet but := by simp [State.fatalSet]

@[simp] theorem taken_dueAt : (taken q s).dueAt = s.dueAt := by simp [State.dueAt]

/-- USED of a resource is read from the rings, flows, links, Composers, Calliope and claims alone. -/
@[simp] theorem taken_resUsed (res obj : Nat) : resUsed (taken q s) res obj = resUsed s res obj := by
  simp [resUsed, layersUsed]

@[simp] theorem taken_classEntry (c : Nat) : (taken q s).classEntry c = s.classEntry c := by simp [State.classEntry]

end

/-! ### The power states that POWER_SET reaches (R438, R461, R462) -/

section
variable (s : State)

theorem State.refit_flt (k : Nat) : (s.refit k).1.flt = s.flt := flt_of_kept (State.refit_kept (μ := 0x40000) k s)

/-- Safety Net is left whether or not it stood: its own bit is cleared, and neither the record of its end nor the exports that resume
set it again. -/
theorem State.leaveSafetyNet_safetyNet : s.leaveSafetyNet.safetyNet = false := by
  unfold State.leaveSafetyNet
  by_cases h : s.safetyNet = true
  · simp only [h, Bool.not_true, Bool.false_eq_true, if_false]
    rw [foldl_proj (p := State.safetyNet) (fun s k => by rw [State.safetyNet, State.refit_flt, State.safetyNet])]
    refine (State.raise_safetyNet (by decide)).trans ?_
    simp only [State.safetyNet, fbit, State.onFlt_flt]
    rw [fget_fput _ _ _ (by decide)]
    rfl
  · simp [h]

theorem State.leaveSafetyNet_pwr : s.leaveSafetyNet.pwr = s.pwr := pwr_of_kept (State.leaveSafetyNet_kept (μ := 0x2C0014) s)

theorem State.retrain_pwr (which : Chan → Bool) : (s.retrain which).pwr = s.pwr := pwr_of_kept (State.retrain_kept (μ := 0x40) which s)

theorem State.retrain_safetyNet (which : Chan → Bool) : (s.retrain which).safetyNet = s.safetyNet := by
  rw [State.safetyNet, flt_of_kept (State.retrain_kept (μ := 0x40) which s), State.safetyNet]

theorem State.loseRole_pwr : s.loseRole.pwr = s.pwr := pwr_of_kept (State.loseRole_kept (μ := 0x80000) s)

/-- The record of a power change and the rebinding of the routes leave the power state as set. -/
theorem State.setPower_power (p : Power) : (s.setPower p).pwr.power = p := by
  have h : (s.setPower p).kept 0x2C0414 = (s.onPwr (fun x => { x with power := p })).kept 0x2C0414 :=
    (State.reboundAll_kept ..).trans (State.raise_kept ..)
  exact congrArg PwrSt.power (pwr_of_kept h)

theorem State.enterStaging_safetyNet : s.enterStaging.safetyNet = false := by
  unfold State.enterStaging
  rw [State.retrain_safetyNet, State.leaveSafetyNet_safetyNet]

/-- STAGING or ACTIVE, the states whose fast domains run, lead to STAGING; WATCH would stay. -/
theorem State.enterStaging_power (h : s.fastOn = true) : s.enterStaging.pwr.power = .staging := by
  unfold State.enterStaging
  rw [State.retrain_pwr, State.leaveSafetyNet_pwr]
  split
  · rw [State.loseRole_pwr, State.setPower_power]
  · next hn => simpa [State.fastOn, hn] using h

theorem State.enterActive_power : s.enterActive.pwr.power = .active := by
  unfold State.enterActive
  split
  · assumption
  · exact State.setPower_power ..

end

/-! ### What each command leaves once its checks pass -/

section
variable {q : Req} {s : State}

theorem cmdSessionInfo_eq (ht : Req.trailingOk q 0 = true) : cmdSessionInfo q s = .ok (s, recBytes s.idRecord) := by
  rw [cmdSessionInfo, layout_ok ht]
  rfl

theorem cmdSessionOpen_eq {n : Nat} (hp : sessionPort q.port = true) (ht : Req.trailingOk q 32 = true) (hn : s.freeSession = some n) :
    cmdSessionOpen q s = .ok (s.onCtl (fun c => { c with
      sessions := c.sessions ++ [⟨n, q.port, q.chan, q.sender, BitVec.ofNat 256 (Req.num q 32 0)⟩] }), leBytes 2 n) := by
  rw [cmdSessionOpen, layout_ok ht, hp, hn]
  rfl

theorem cmdSessionClose_eq (ht : Req.trailingOk q 2 = true) (ho : s.ownSession q (Req.u16 q 0) = true) : cmdSessionClose q s =
    .ok (s.onCtl (fun c => { c with sessions := c.sessions.filter (fun x => x.id != Req.u16 q 0) }), []) := by
  rw [cmdSessionClose, layout_ok ht, ho]
  rfl

/-- WATCH is announced from STAGING, 1 ms ahead (R410, R461). -/
theorem cmdPowerSet_watch (ht : Req.trailingOk q 1 = true) (hv : Req.u8 q 0 = 1) (hp : s.pwr.power = .staging) :
    cmdPowerSet q s = .ok (s.onPwr (fun p => { p with due := some (.watch, s.dueAt) }), [1]) := by
  simp only [cmdPowerSet, powerSetCheck, layout_ok ht, hv, hp]
  rfl

/-- STAGING is entered with no fatal status but MEM_CHANNEL_FAIL and no parity trip, and not from a primary whose SYNC is not NONE
(R438, R462). -/
theorem cmdPowerSet_staging (ht : Req.trailingOk q 1 = true) (hv : Req.u8 q 0 = 2) (htrip : fbit s.flt.ctl FaultCtl.parityTrip = false)
    (hf : s.fatalSet [0x48] = false) (hsync : s.role = .primary → s.sync = 0) : cmdPowerSet q s = .ok (s.enterStaging, [2]) := by
  have hr : (s.role == .primary && s.sync != 0) = false := by simpa using hsync
  simp only [cmdPowerSet, powerSetCheck, layout_ok ht, hv, htrip, hf, hr]
  rfl

/-- ACTIVE is entered with every channel trained, no fatal status and no training isolated (R461; log entry 79). -/
theorem cmdPowerSet_active (ht : Req.trailingOk q 1 = true) (hv : Req.u8 q 0 = 3) (htr : s.trainedAll = true) (hf : s.fatalSet [] = false)
    (hi : s.flt.isolated.any (fun p => p.1 == 0x47) = false) : cmdPowerSet q s = .ok (s.enterActive, [3]) := by
  simp only [cmdPowerSet, powerSetCheck, layout_ok ht, hv, htr, hf, hi]
  rfl

/-- PROFILE_SET's passed checks name the profile of the request's code. -/
theorem profileSetCheck_profileOf {p : Profile} (h : profileSetCheck q s = .ok p) : profileOf (Req.u8 q 0) = some p := by
  obtain ⟨-, h⟩ := layout_bind.1 h
  split at h
  · cases h
  · next p' hp =>
    obtain ⟨-, h⟩ := need_bind.1 h
    obtain ⟨-, h⟩ := need_bind.1 h
    obtain ⟨-, h⟩ := need_bind.1 h
    obtain ⟨-, h⟩ := need_bind.1 h
    split at h
    · cases h
    · split at h
      · cases h
      · rw [hp, pure_eq_ok.1 h]

theorem cmdProfileSet_eq {p : Profile} (h : profileSetCheck q s = .ok p) :
    cmdProfileSet q s = .ok (.later (s.onBud (fun b => { b with nextProfile := some p })) (.profile (profileCode p)) []) := by
  rw [cmdProfileSet, h]
  rfl

/-- BUDGET_QUERY's results: the entries of the five slot classes, the counts, and those of the resources from INDEX on (R542). -/
def budgetAnswer (q : Req) (s : State) : List Byte :=
  let shown := (resEntries.drop (Req.u16 q 4)).take 80
  [1, 2, 3, 4, 5].flatMap (fun c => recBytes (s.classEntry c)) ++ leBytes 2 shown.length ++ leBytes 2 resEntries.length ++
    shown.flatMap s.resEntry

theorem cmdBudgetQuery_eq (ht : Req.trailingOk q 6 = true) (hc : Req.u32 q 0 < 2) : cmdBudgetQuery q s =
    .ok (if Req.u32 q 0 = 1 then s.onBud (fun b => raiseHigh { b with high := [] }) else s, budgetAnswer q s) := by
  rw [cmdBudgetQuery, layout_ok ht, decide_eq_true hc]
  rfl

/-- The five class entries are the first 40 bytes of the results. -/
theorem budgetAnswer_take : (budgetAnswer q s).take 40 = [1, 2, 3, 4, 5].flatMap (fun c => recBytes (s.classEntry c)) := by
  have hl : ([1, 2, 3, 4, 5].flatMap (fun c => recBytes (s.classEntry c))).length = 40 := by
    simp [recBytes, leBytes_length]
  rw [budgetAnswer, List.append_assoc, List.append_assoc, List.take_left' hl]

theorem cmdSessionReset_eq (ht : Req.trailingOk q 1 = true) (hk : Req.u8 q 0 ≤ 2) (hp : q.port = (if Req.u8 q 0 = 1 then .p1 else .p0)) :
    cmdSessionReset q s = .ok (s.onPwr (fun p => { p with due := some (resetKind (Req.u8 q 0), s.dueAt) }), []) := by
  have hc : sessionResetCheck q = .ok (resetKind (Req.u8 q 0)) := by
    rw [sessionResetCheck, layout_ok ht, decide_eq_true hk, beq_iff_eq.2 hp]
    rfl
  rw [cmdSessionReset, hc]
  rfl

theorem cmdPrivRead_eq (ht : Req.trailingOk q 1 = true) (hp : Req.u8 q 0 ≤ 4) :
    cmdPrivRead q s = .ok (s, recBytes (tget privReset s.ctl.priv (Req.u8 q 0))) := by
  rw [cmdPrivRead, layout_ok ht, decide_eq_true hp]
  rfl

/-- The entry a PRIV_WRITE asks for: the request's record over the entry as it stands (R408). -/
def privMerged (q : Req) (s : State) : BitVec 64 :=
  mergeRec Priv.layout (tget privReset s.ctl.priv (Req.u8 q 0)) (Req.slice q 4 8)

/-- The entry a PRIV_WRITE leaves: the one asked for, with the bits that no write changes as they stand (R384). -/
def privWritten (q : Req) (s : State) : BitVec 64 :=
  privFixed (Req.u8 q 0) (tget privReset s.ctl.priv (Req.u8 q 0)) (privMerged q s)

theorem cmdPrivWrite_eq (hq : q.port = .p0) (ht : Req.trailingOk q 12 = true) (hp : Req.u8 q 0 ≤ 4) (hz : Req.num q 3 1 = 0)
    (h0 : fget (privMerged q s) Priv.groups % 2 = 0) (hg : fget (privMerged q s) Priv.groups < 2 ^ 18) :
    cmdPrivWrite q s = .ok (s.setPriv (Req.u8 q 0) (privWritten q s), recBytes (privWritten q s)) := by
  have hr : (fget (privMerged q s) Priv.groups % 2 == 0 && decide (fget (privMerged q s) Priv.groups < 2 ^ 18)) = true := by
    rw [h0, decide_eq_true hg]
    rfl
  have hc : privWriteCheck q s = .ok (Req.u8 q 0, privWritten q s) := by
    unfold privMerged at hr
    rw [privWriteCheck, hq, layout_ok ht, Req.zeroAt, hz]
    simp only [decide_eq_true hp, hr]
    rfl
  rw [cmdPrivWrite, hc]
  rfl

end

/-- Settles O13: each command's passed checks fix what it leaves and answers, and its request taken up shows the state it was sent to.
POWER_SET 2 in STAGING and POWER_SET 3 in Safety Net are as log entry 79 has them. -/
theorem sessionAndPrivilegeCommandsTakeEffect : Obligations.SessionAndPrivilegeCommandsTakeEffect := by
  refine ⟨?info, ?sopen, ?close, ?watch, ?staging, ?active, ?profile, ?budget, ?reset, ?privRead, ?privWrite⟩
  case info =>
    intro q s hs ht
    have h := serve_ok (peers := []) hs (cmdSessionInfo_eq ht)
    rw [taken_idRecord] at h
    exact h
  case sopen =>
    intro q s n hs hp ht hn
    exact serve_ok hs (cmdSessionOpen_eq hp ht (by rw [taken_freeSession, hn]))
  case close =>
    intro q s hs ht ho
    exact serve_ok hs (cmdSessionClose_eq ht (by rw [taken_ownSession, ho]))
  case watch =>
    intro q s hs ht hv hp
    have h := serve_ok (peers := []) hs (cmdPowerSet_watch ht hv (by rw [taken_pwr, hp]))
    rw [taken_dueAt] at h
    exact h
  case staging =>
    intro q s hs ht hv htrip hf hsync hon
    have hc := cmdPowerSet_staging (s := taken q s) ht hv (by simpa using htrip) (by simpa using hf) (by simpa using hsync)
    exact ⟨_, serve_ok hs hc, State.enterStaging_power _ (by simpa [State.fastOn] using hon), State.enterStaging_safetyNet _⟩
  case active =>
    intro q s hs ht hv htr hf hi
    have hc := cmdPowerSet_active (s := taken q s) ht hv (by simpa using htr) (by simpa using hf) (by rw [taken_flt, hi])
    exact ⟨_, serve_ok hs hc, State.enterActive_power _⟩
  case profile =>
    intro q s p hs hc
    refine ⟨profileSetCheck_profileOf hc, _, serveAns_ok hs (cmdProfileSet_eq hc), ?_, _, rfl, rfl, rfl⟩
    simp [settle]
  case budget =>
    intro q s hs ht hc
    refine ⟨_, _, serve_ok hs (cmdBudgetQuery_eq ht hc), ?_, ?_, fun h0 => ?_⟩
    · simp only [budgetAnswer_take, taken_classEntry]
    · split
      · simp [raiseHigh]
      · rw [taken_bud]
    · rw [h0, if_neg (by decide)]
  case reset =>
    intro q s hs ht hk hp
    have h := serve_ok (peers := []) hs (cmdSessionReset_eq ht hk hp)
    rw [taken_dueAt] at h
    exact h
  case privRead =>
    intro q s hs ht hp
    have h := serve_ok (peers := []) hs (cmdPrivRead_eq ht hp)
    rw [taken_ctl_priv] at h
    exact h
  case privWrite =>
    intro q s hs hq ht hp hz h0 hg
    have hm : privMerged q (taken q s) = privMerged q s := by rw [privMerged, taken_ctl_priv, privMerged]
    have hw : privWritten q (taken q s) = privWritten q s := by rw [privWritten, taken_ctl_priv, hm, privWritten]
    have h := serve_ok (peers := []) hs (cmdPrivWrite_eq hq ht hp hz (by rw [hm]; exact h0) (by rw [hm]; exact hg))
    rw [hw] at h
    exact ⟨_, rfl, h⟩

end Sys2Proof.Machine
end

section
/-! PROOFS. The ROUTE commands (R99 to R101, R414): what a request taken up shows of routes, and what each command's passed checks leave. -/

namespace Sys2Proof.Machine

open Sys2Proof

/-! ### One record of the route state written -/

section
variable (k : Nat) (e : BitVec 256) (v : OutSt) (s : State) (n : Nat)

theorem State.routeA_setRouteA : (s.setRouteA k e).routeA n = if n = k then e else s.routeA n := tget_tset ..

theorem State.routeP_setRouteP : (s.setRouteP k e).routeP n = if n = k then e else s.routeP n := tget_tset ..

@[simp] theorem State.routeP_setRouteP_same : (s.setRouteP k e).routeP k = e := tget_tset_same ..

theorem State.out_setOut : (s.setOut k v).out n = if n = k then v else s.out n := tget_tset ..

@[simp] theorem State.out_setOut_same : (s.setOut k v).out k = v := tget_tset_same ..

@[simp] theorem State.setRouteA_pending : (s.setRouteA k e).rte.pending = s.rte.pending := rfl

@[simp] theorem State.setRouteA_out : (s.setRouteA k e).out n = s.out n := rfl

@[simp] theorem State.setRouteP_active : (s.setRouteP k e).rte.active = s.rte.active := rfl

@[simp] theorem State.setRouteP_outs : (s.setRouteP k e).rte.outs = s.rte.outs := rfl

end

/-! ### A request taken up shows the same routes -/

section
variable (q : Req) (s : State)

@[simp] theorem taken_routeA (o : Nat) : (taken q s).routeA o = s.routeA o := by simp [State.routeA]

@[simp] theorem taken_routeP (o : Nat) : (taken q s).routeP o = s.routeP o := by simp [State.routeP]

@[simp] theorem taken_out (o : Nat) : (taken q s).out o = s.out o := by simp [State.out]

/-- Bounds are computed from the configuration and the clocks, which taking a request up leaves. -/
@[simp] theorem taken_boundsBlock (o : Nat) (e : BitVec 256) : (taken q s).boundsBlock o e = s.boundsBlock o e := by
  obtain ⟨mb, h⟩ := taken_eq q s
  rw [h]
  rfl

end

/-! ### What each command's passed checks leave -/

section
variable {q : Req} {s : State} {o : Nat} {e : BitVec 256}

/-- A record write that passes its checks gives the merged record. -/
theorem writeRecord_eq {w : Nat} {layout fixed : List Fld} {old new : BitVec w} (h : writeRecord q layout old fixed = .ok new) :
    new = mergeRec layout old (Req.recordBytes q (w / 8)) := by
  obtain ⟨-, h⟩ := layout_bind.1 h
  simp only at h
  split at h
  · cases h
  · split at h
    · cases h
    · exact (Except.ok.inj h).symm

/-- ROUTE_WRITE's passed checks: the output is one of the 2,048 and the entry the request's record over the PENDING copy. -/
theorem routeWriteCheck_facts {u : State} (h : routeWriteCheck q s = .ok (o, e, u)) :
    o = Req.u32 q 0 ∧ o < 2048 ∧ e = mergeRec RouteEntry.layout (s.routeP o) (Req.recordBytes q 32) := by
  obtain ⟨ho, h⟩ := index_bind.1 h
  obtain ⟨-, h⟩ := noTarget_bind.1 h
  obtain ⟨e', he, h⟩ := ok_bind_iff.1 h
  obtain ⟨_, -, h⟩ := ok_bind_iff.1 h
  obtain ⟨-, h⟩ := need_bind.1 h
  obtain ⟨_, -, h⟩ := ok_bind_iff.1 h
  obtain ⟨_, -, h⟩ := ok_bind_iff.1 h
  cases pure_eq_ok.1 h
  exact ⟨rfl, ho, writeRecord_eq he⟩

theorem cmdRouteWrite_eq {u : State} (h : routeWriteCheck q s = .ok (o, e, u)) :
    cmdRouteWrite q s = .ok (routeWriteDo o e u, recBytes ((routeWriteDo o e u).routeP o) ++ (routeWriteDo o e u).boundsBlock o e) := by
  rw [cmdRouteWrite, h]
  rfl

theorem cmdRouteRead_eq (ho : Req.u32 q 0 < 2048) (ht : Req.trailingOk q 8 = true) (hc : Req.u32 q 4 < 2) :
    cmdRouteRead q s = .ok (s, recBytes (s.routeA (Req.u32 q 0)) ++ recBytes (s.routeP (Req.u32 q 0)) ++
      s.boundsBlock (Req.u32 q 0) (s.routeA (Req.u32 q 0))) := by
  rw [cmdRouteRead, readArgs_ok ho ht hc]
  rfl

/-- The counters ROUTE_STATUS answers (R414). -/
def OutSt.counterBytes (v : OutSt) : List Byte :=
  leBytes 4 v.repeats ++ leBytes 4 v.skips ++
    v.slots.flatMap (fun a => leBytes 4 a.rampShort ++ leBytes 4 a.slipUnder ++ leBytes 4 a.slipOver)

/-- An output with those counters at 0. -/
def OutSt.cleared (v : OutSt) : OutSt :=
  { v with repeats := 0, skips := 0, slots := v.slots.map (fun a => { a with rampShort := 0, slipUnder := 0, slipOver := 0 }) }

theorem cmdRouteStatus_eq (ho : Req.u32 q 0 < 2048) (ht : Req.trailingOk q 8 = true) (hc : Req.u32 q 4 < 2) :
    cmdRouteStatus q s = .ok (if Req.u32 q 4 = 1 then s.setOut (Req.u32 q 0) (s.out (Req.u32 q 0)).cleared else s,
      (s.out (Req.u32 q 0)).counterBytes) := by
  rw [cmdRouteStatus, readArgs_ok ho ht hc]
  simp [pure, Except.pure, Bind.bind, Except.bind, OutSt.cleared, OutSt.counterBytes]

end

/-- Settles O18: a write's passed checks give the merged entry and leave the route state alone, so that storing it READY changes one PENDING
copy; the other two commands read what the request taken up shows. -/
theorem routeCommandsTakeEffect : Obligations.RouteCommandsTakeEffect := by
  refine ⟨?write, ?read, ?status⟩
  case write =>
    intro q s o e u hs hc
    obtain ⟨hq, hlt, he⟩ := routeWriteCheck_facts hc
    have hk : u.kept 0x200 = (taken q s).kept 0x200 := (routeWriteCheck_ok ..).out _ hc
    have hrte : u.rte = s.rte := (rte_of_kept hk).trans (taken_rte ..)
    have hd : (routeWriteDo o e u).kept 0x600 = (taken q s).kept 0x600 := (routeWriteDo_kept ..).trans (kept_mono (by decide) hk)
    refine ⟨_, serve_ok hs (cmdRouteWrite_eq hc), hq, hlt, by simpa using he, State.routeP_setRouteP_same .., fun n hn => ?_,
      (State.setRouteP_active ..).trans (congrArg RteSt.active hrte), (State.setRouteP_outs ..).trans (congrArg RteSt.outs hrte),
      (mem_of_kept hd).trans (taken_mem ..), (pwr_of_kept hd).trans (taken_pwr ..)⟩
    rw [routeWriteDo, State.routeP_setRouteP, if_neg hn, State.routeP, hrte, State.routeP]
  case read =>
    intro q s hs ho ht hc
    have h := serve_ok (peers := []) hs (cmdRouteRead_eq (s := taken q s) ho ht hc)
    simp only [taken_routeA, taken_routeP, taken_boundsBlock] at h
    exact h
  case status =>
    intro q s hs ho ht hc
    have h := serve_ok (peers := []) hs (cmdRouteStatus_eq (s := taken q s) ho ht hc)
    simp only [taken_out] at h
    exact ⟨_, h, fun h0 => if_neg (by omega), fun h1 => if_pos h1⟩

end Sys2Proof.Machine
end

section
/-! PROOFS. The PRESET commands (R126, R416, R417): what settling a salvo leaves, and what each command's passed checks leave. -/

namespace Sys2Proof.Machine

open Sys2Proof

/-! ### Salvos written and settled -/

section
variable (k : Nat) (v : Salvo) (s : State) (n : Nat)

theorem State.salvo_setSalvo : (s.setSalvo k v).salvo n = if n = k then v else s.salvo n := tget_tset ..

theorem State.salvo_setSalvo_of_ne (h : n ≠ k) : (s.setSalvo k v).salvo n = s.salvo n := by
  rw [State.salvo_setSalvo, if_neg h]

/-- Settling a salvo changes its own record and its arm register, or nothing. -/
theorem State.settleSalvo_rte : ∃ salvos arm, (s.settleSalvo k).rte = { s.rte with salvos := salvos, arm := arm } ∧
    ∀ m, m ≠ k → tget salvoReset salvos m = s.salvo m := by
  unfold State.settleSalvo
  simp only
  split
  · exact ⟨_, _, rfl, fun _ _ => rfl⟩
  · exact ⟨_, _, rfl, fun m hm => State.salvo_setSalvo_of_ne k _ _ m hm⟩

theorem State.settleSalvo_salvo_of_ne (h : n ≠ k) : (s.settleSalvo k).salvo n = s.salvo n := by
  obtain ⟨salvos, arm, hr, hs⟩ := s.settleSalvo_rte k
  rw [State.salvo, hr]
  exact hs n h

@[simp] theorem State.settleSalvo_active : (s.settleSalvo k).rte.active = s.rte.active := by
  obtain ⟨salvos, arm, hr, -⟩ := s.settleSalvo_rte k
  rw [hr]

@[simp] theorem State.settleSalvo_pending : (s.settleSalvo k).rte.pending = s.rte.pending := by
  obtain ⟨salvos, arm, hr, -⟩ := s.settleSalvo_rte k
  rw [hr]

@[simp] theorem State.settleSalvo_preset (p : Nat) : (s.settleSalvo k).preset p = s.preset p := by
  obtain ⟨salvos, arm, hr, -⟩ := s.settleSalvo_rte k
  rw [State.preset, hr, State.preset]

@[simp] theorem State.settleSalvo_presetOk (p : Nat) : (s.settleSalvo k).presetOk p = s.presetOk p := by
  rw [State.presetOk, State.settleSalvo_preset, rec_of_kept (State.settleSalvo_kept (μ := 0x400) ..), State.presetOk]

@[simp] theorem taken_salvo (q : Req) : (taken q s).salvo n = s.salvo n := by simp [State.salvo]

@[simp] theorem taken_preset (q : Req) (p : Nat) : (taken q s).preset p = s.preset p := by simp [State.preset]

@[simp] theorem taken_presetOk (q : Req) (p : Nat) : (taken q s).presetOk p = s.presetOk p := by simp [State.presetOk]

/-- The route state as it is before an event is raised is as it is after. -/
@[simp] theorem State.raise_rte (e : Ev) : (s.raise e).rte = s.rte := rte_of_kept (State.raise_kept (μ := 0x2C0014) ..)

end

/-! ### What the commands' passed checks leave -/

section
variable {q : Req} {s : State}

theorem salvoArg_eq {off n : Nat} (h : salvoArg q off s = .ok n) : n = Req.u8 q off := by
  obtain ⟨-, h⟩ := needAt_bind.1 h
  obtain ⟨-, h⟩ := need_bind.1 h
  exact (pure_eq_ok.1 h).symm

/-- PRESET_STORE's passed checks: FIRST is one of the salvo's entries, so at least one is stored. -/
theorem presetStoreCheck_facts {p : Nat} {l : List SalvoEntry} (h : presetStoreCheck q s = .ok (p, l)) :
    p = Req.u8 q 1 ∧ l = ((s.salvo (Req.u8 q 0)).entries.drop (Req.u16 q 2)).take 1024 ∧ l ≠ [] := by
  obtain ⟨n, hn, h⟩ := ok_bind_iff.1 h
  obtain ⟨-, h⟩ := layout_bind.1 h
  obtain ⟨-, h⟩ := need_bind.1 h
  obtain ⟨hf, h⟩ := needAt_bind.1 h
  obtain rfl := salvoArg_eq hn
  cases pure_eq_ok.1 h
  exact ⟨rfl, rfl, by simpa using hf⟩

theorem cmdPresetStore_eq {p : Nat} {l : List SalvoEntry} (h : presetStoreCheck q (s.settleSalvo (Req.u8 q 0)) = .ok (p, l)) :
    cmdPresetStore q s = .ok ((s.settleSalvo (Req.u8 q 0)).onRte (fun r => { r with presets := tset bytesReset r.presets p (presetBytes l) }),
      leBytes 2 l.length) := by
  simp only [cmdPresetStore, h]
  rfl

/-- PRESET_LOAD's passed checks: the stored entries are added to the salvo's own. -/
theorem presetLoadCheck_facts {n : Nat} {l : List SalvoEntry} (h : presetLoadCheck q s = .ok (n, l)) :
    n = Req.u8 q 1 ∧ l = (presetEntries (s.preset (Req.u8 q 0))).foldl addEntry (s.salvo n).entries := by
  obtain ⟨n', hn, h⟩ := ok_bind_iff.1 h
  obtain ⟨-, h⟩ := layout_bind.1 h
  obtain ⟨-, h⟩ := need_bind.1 h
  obtain ⟨-, h⟩ := need_bind.1 h
  split at h
  · cases h
  · obtain ⟨_, -, h⟩ := ok_bind_iff.1 h
    obtain ⟨-, h⟩ := need_bind.1 h
    obtain ⟨-, h⟩ := needAt_bind.1 h
    cases pure_eq_ok.1 h
    exact ⟨salvoArg_eq hn, rfl⟩

/-- A preset whose CRC fails is refused after the checks of its salvo, and before any of its entries is looked at. -/
theorem presetLoadCheck_bad (ha : salvoArg q 1 s = .ok (Req.u8 q 1)) (ht : Req.trailingOk q 2 = true)
    (hst : (s.salvo (Req.u8 q 1)).state = .empty ∨ (s.salvo (Req.u8 q 1)).state = .preparing)
    (hne : s.preset (Req.u8 q 0) ≠ []) (hbad : s.presetOk (Req.u8 q 0) = false) :
    presetLoadCheck q s = .error ⟨eCheck, [], some (Ev.plain 0x6A (locMram (presetRegion (Req.u8 q 0))))⟩ := by
  have hs : needState (s.salvo (Req.u8 q 1)) [.empty, .preparing] = .ok () := by
    rcases hst with h | h <;> rw [needState, h] <;> rfl
  have hp : (s.preset (Req.u8 q 0)).isEmpty = false := List.isEmpty_eq_false_iff.2 hne
  simp only [presetLoadCheck, ha, layout_ok ht, hs, hp, hbad, ok_bind]
  rfl

/-- The state PRESET_LOAD leaves: the entries in the salvo, those of other members forwarded. -/
def presetLoaded (q : Req) (n : Nat) (l : List SalvoEntry) (s : State) : State :=
  let others := (presetEntries (s.preset (Req.u8 q 0))).filter (fun e => e.member != s.member)
  State.forwardEntries q n others.length others (salvoPrepare q n l s)

theorem presetLoaded_kept (n : Nat) (l : List SalvoEntry) : (presetLoaded q n l s).kept 0x40000 = (salvoPrepare q n l s).kept 0x40000 :=
  State.forwardEntries_kept ..

/-- Forwarding changes the Troupe's state alone, and the salvo's preparation the salvos alone. -/
theorem presetLoaded_frame (n : Nat) (l : List SalvoEntry) : (presetLoaded q n l s).rte.active = s.rte.active ∧
    (presetLoaded q n l s).rte.pending = s.rte.pending ∧ (presetLoaded q n l s).bud = s.bud ∧ (presetLoaded q n l s).mem = s.mem := by
  have hk := presetLoaded_kept (q := q) (s := s) n l
  have hrte : (presetLoaded q n l s).rte = (salvoPrepare q n l s).rte := rte_of_kept hk
  have hbud : (presetLoaded q n l s).bud = (salvoPrepare q n l s).bud := bud_of_kept hk
  have hmem : (presetLoaded q n l s).mem = (salvoPrepare q n l s).mem := mem_of_kept hk
  rw [hrte, hbud, hmem]
  exact ⟨rfl, rfl, rfl, rfl⟩

theorem presetLoaded_salvo (n : Nat) (l : List SalvoEntry) (m : Nat) : (presetLoaded q n l s).salvo m =
    if m = n then { s.salvo n with state := .preparing, entries := l, origin := originOf q s } else s.salvo m := by
  rw [State.salvo, rte_of_kept (presetLoaded_kept n l)]
  exact State.salvo_setSalvo ..

theorem cmdPresetLoad_eq {n : Nat} {l : List SalvoEntry} (h : presetLoadCheck q (s.settleSalvo (Req.u8 q 1)) = .ok (n, l)) :
    cmdPresetLoad q s = .ok (presetLoaded q n l (s.settleSalvo (Req.u8 q 1)), leBytes 2 l.length) := by
  simp only [cmdPresetLoad, h]
  rfl

theorem cmdPresetLoad_error {e : Err} (h : presetLoadCheck q (s.settleSalvo (Req.u8 q 1)) = .error e) : cmdPresetLoad q s = .error e := by
  simp only [cmdPresetLoad, h]
  rfl

theorem cmdPresetDelete_eq (ht : Req.trailingOk q 1 = true) : cmdPresetDelete q s =
    .ok (s.onRte (fun r => { r with presets := tdel r.presets (Req.u8 q 0) }), []) := by
  rw [cmdPresetDelete, layout_ok ht]
  rfl

theorem cmdPresetList_eq (ht : Req.trailingOk q 0 = true) : cmdPresetList q s = .ok (s, (List.range 256).flatMap (fun p =>
    leBytes 2 (if (s.preset p).isEmpty then 0 else if s.presetOk p then presetCount (s.preset p) else 0xFFFF))) := by
  rw [cmdPresetList, layout_ok ht]
  rfl

end

/-- A refusal with an event is the event and its response. -/
theorem dequeue_refuse_of_event {op : Nat} {q : Req} {e : Err} {v : Ev} {s : State} (he : e.event = some v) :
    dequeue op q (refuse op q e s) = answered op e.status q e.result (s.raise v) := by
  rw [refuse, State.raiseErr, he, answered]

/-- Settles O20: the store and the load work on the settled salvo, whose settling leaves presets, other salvos and routes; a load that fails
its CRC is refused with its event alone. -/
theorem presetCommandsTakeEffect : Obligations.PresetCommandsTakeEffect := by
  refine ⟨?store, ?load, ?bad, fun q s hs ht => serve_ok hs (cmdPresetDelete_eq ht), ?list⟩
  case store =>
    rintro q s p l u hs rfl hc
    obtain ⟨hp, hl, hne⟩ := presetStoreCheck_facts hc
    exact ⟨hp, hl, hne, serve_ok hs (cmdPresetStore_eq hc)⟩
  case load =>
    rintro q s n l u hs rfl hc
    obtain ⟨rfl, hl⟩ := presetLoadCheck_facts hc
    obtain ⟨hact, hpend, hbud, hmem⟩ := presetLoaded_frame (q := q) (s := (taken q s).settleSalvo (Req.u8 q 1)) (Req.u8 q 1) l
    have hu : ((taken q s).settleSalvo (Req.u8 q 1)).kept 0x400 = (taken q s).kept 0x400 := State.settleSalvo_kept ..
    refine ⟨_, serve_ok hs (cmdPresetLoad_eq hc), rfl, ?_, ?_, ?_, fun m hm => ?_, ?_, ?_, ?_, ?_⟩
    · rw [hl, State.settleSalvo_preset, taken_preset]
    · rw [presetLoaded_salvo, if_pos rfl]
    · rw [presetLoaded_salvo, if_pos rfl]
    · rw [presetLoaded_salvo, if_neg hm, State.settleSalvo_salvo_of_ne _ _ _ hm, taken_salvo]
    · rw [hact, State.settleSalvo_active, taken_rte]
    · rw [hpend, State.settleSalvo_pending, taken_rte]
    · rw [hbud, bud_of_kept hu, taken_bud]
    · rw [hmem, mem_of_kept hu, taken_mem]
  case bad =>
    rintro q s u hs rfl ha ht hst hne hbad
    have hc := presetLoadCheck_bad ha ht hst (by simpa using hne) (by simpa using hbad)
    refine ⟨_, (serve_err hs (cmdPresetLoad_error hc)).trans (by rw [dequeue_refuse_of_event rfl]; rfl), State.raise_status .., ?_⟩
    rw [State.raise_rte, taken_rte]
  case list =>
    intro q s hs ht
    have h := serve_ok (peers := []) hs (cmdPresetList_eq (s := taken q s) ht)
    simp only [taken_preset, taken_presetOk] at h
    exact h

end Sys2Proof.Machine
end

section
/-! PROOFS. Outputs between events (R102 to R116, R262): which operations change one output's record alone, and of that record which fields. -/

namespace Sys2Proof.Machine

open Sys2Proof

/-! ### States whose routes differ in one output's record -/

/-- The routes of `t` are those of `s`, but for what output `k` holds. -/
structure OnlyOut (k : Nat) (s t : State) : Prop where
  active : t.rte.active = s.rte.active
  pending : t.rte.pending = s.rte.pending
  others : ∀ n, n ≠ k → t.out n = s.out n

section
variable {k : Nat} {s t : State}

theorem State.out_of_rte (h : t.rte = s.rte) (n : Nat) : t.out n = s.out n := by
  rw [State.out, h, State.out]

theorem OnlyOut.of_rte (h : t.rte = s.rte) : OnlyOut k s t :=
  ⟨congrArg RteSt.active h, congrArg RteSt.pending h, fun n _ => State.out_of_rte h n⟩

theorem OnlyOut.trans {u : State} (h : OnlyOut k s t) (h' : OnlyOut k t u) : OnlyOut k s u :=
  ⟨h'.active.trans h.active, h'.pending.trans h.pending, fun n hn => (h'.others n hn).trans (h.others n hn)⟩

theorem OnlyOut.routeA (h : OnlyOut k s t) (n : Nat) : t.routeA n = s.routeA n := by
  rw [State.routeA, h.active, State.routeA]

theorem OnlyOut.routeP (h : OnlyOut k s t) (n : Nat) : t.routeP n = s.routeP n := by
  rw [State.routeP, h.pending, State.routeP]

theorem State.fresh_onlyOut (k : Nat) (s : State) : OnlyOut k s s.fresh := .of_rte rfl

theorem State.setOut_onlyOut (k : Nat) (v : OutSt) (s : State) : OnlyOut k s (s.setOut k v) :=
  ⟨rfl, rfl, fun n hn => by rw [State.out_setOut, if_neg hn]⟩

theorem State.raise_onlyOut (k : Nat) (e : Ev) (s : State) : OnlyOut k s (s.raise e) := OnlyOut.of_rte (State.raise_rte ..)

@[simp] theorem State.raise_out (e : Ev) (s : State) (n : Nat) : (s.raise e).out n = s.out n := State.out_of_rte (State.raise_rte ..) n

end

/-! ### Operations on one output's record -/

section
variable (k : Nat) (s : State)

/-- R116: the episode of a mismatch is the one field that moves. -/
@[simp] theorem State.mismatch_out (bad : Bool) : (s.mismatch k bad).out k = { s.out k with mismatch := bad } := by
  unfold State.mismatch
  split
  · next h => rw [← h]
  · rw [State.raise_out, State.out_setOut_same]

theorem State.mismatch_onlyOut (bad : Bool) : OnlyOut k s (s.mismatch k bad) := by
  unfold State.mismatch
  split
  · exact .of_rte rfl
  · exact (State.setOut_onlyOut ..).trans (State.raise_onlyOut ..)

/-- A mismatch that begins raises ROUTE_FORMAT_MISMATCH. -/
theorem State.mismatch_status (h : (s.out k).mismatch = false) : (0x66, s.locOut k) ∈ (s.mismatch k true).flt.status := by
  unfold State.mismatch
  rw [h, if_neg (by decide)]
  exact State.raise_status ..

/-- R115, R116: the judgement of an entry raises events and may begin a mismatch. -/
theorem State.judgeEntry_frame (e : BitVec 256) (f : OutFmt) :
    OnlyOut k s (s.judgeEntry k e f) ∧ ∃ bad, (s.judgeEntry k e f).out k = { s.out k with mismatch := bad } := by
  unfold State.judgeEntry
  extract_lets lacking s1
  have h1 : s1.rte = s.rte := by
    unfold s1
    split
    · rfl
    · exact State.raise_rte ..
  clear_value s1
  split
  · exact ⟨(OnlyOut.of_rte h1).trans (State.mismatch_onlyOut ..), _, by rw [State.mismatch_out, State.out_of_rte h1]⟩
  · exact ⟨.of_rte h1, _, State.out_of_rte h1 k⟩

/-- R262, R263: a switch of audio changes the slots of its output. -/
theorem State.switchAudio_onlyOut (e : BitVec 256) (f : OutFmt) (at_ : Int) (late : Bool) : OnlyOut k s (s.switchAudio k e f at_ late) := by
  unfold State.switchAudio
  refine List.foldlRecOn (motive := OnlyOut k s) _ _ (.of_rte rfl) (fun t ht j _ => ?_)
  simp only
  split
  · exact ht.trans ((State.setOut_onlyOut ..).trans (State.raise_onlyOut ..))
  · exact ht.trans (State.setOut_onlyOut ..)

/-- R92: a bound that is judged again leaves its conditions in the output's record, and raises events. -/
theorem State.rebound_frame : OnlyOut k s (s.rebound k) ∧ ∃ unbounded, (s.rebound k).out k = { s.out k with unbounded := unbounded } := by
  unfold State.rebound
  extract_lets now had next v s1
  have h1 : OnlyOut k s s1 ∧ ∃ unbounded, s1.out k = { s.out k with unbounded := unbounded } := by
    unfold s1
    split
    · exact ⟨.of_rte rfl, _, rfl⟩
    · exact ⟨State.setOut_onlyOut .., _, State.out_setOut_same ..⟩
  refine List.foldlRecOn (motive := fun t => OnlyOut k s t ∧ ∃ unbounded, t.out k = { s.out k with unbounded := unbounded }) _ _ h1
    (fun t ⟨ho, l, hv⟩ c _ => ?_)
  split
  · exact ⟨ho, l, hv⟩
  · exact ⟨ho.trans (State.raise_onlyOut ..), l, (State.raise_out ..).trans hv⟩

/-- An entry counted for its salvo changes salvos and arm registers. -/
theorem State.salvoSwitched_frame (n : Nat) : OnlyOut k s (s.salvoSwitched n) ∧ (s.salvoSwitched n).out k = s.out k := by
  unfold State.salvoSwitched
  extract_lets v m
  obtain ⟨salvos, arm, hr, -⟩ :=
    (s.setSalvo n { v with switched := tset natReset v.switched m (tget natReset v.switched m + 1) }).settleSalvo_rte n
  refine ⟨⟨?_, ?_, fun j _ => ?_⟩, ?_⟩
  · rw [hr]; rfl
  · rw [hr]; rfl
  · rw [State.out, hr]; rfl
  · rw [State.out, hr]; rfl

end

end Sys2Proof.Machine
end

section
/-! PROOFS. The events of routes (R102, R106, R109 to R111, R114, R116, R128, R262): latch, switching point, choice of a frame, release of old
claims, audio latch and a parity error, each as the state it answers. -/

namespace Sys2Proof.Machine

open Sys2Proof

/-! ### The latch (R109) -/

/-- The plane time of the switch point a latch now decides for: the lead of the PENDING entry from now, less one line. -/
def State.latchPoint (s : State) (k : Nat) (f : OutFmt) : Int :=
  f.nextSwitch (s.planeTu f.plane + leadTu s.bud.profile (s.entryHops (s.routeP k)) f.fmt.rate f.total - f.line)

/-- Whether the latch takes the PENDING entry over. -/
def State.latches (s : State) (k : Nat) (f : OutFmt) : Bool := s.applies (s.routeP k) (s.stampOf f.plane (s.latchPoint k f))

/-- An entry taken over: the output's record, the PENDING copy free again, and its claims promoted (R102). -/
def State.takeOver (k : Nat) (p : BitVec 256) (v : OutSt) (s : State) : State :=
  ((s.setOut k v).setRouteP k (fput (fput p RouteEntry.pendState 0) RouteEntry.salvoId 0)).onBud
    (fun b => { b with holds := b.holds.map (promote k) })

section
variable (k : Nat) (p : BitVec 256) (v : OutSt) (s : State)

@[simp] theorem State.takeOver_active : (s.takeOver k p v).rte.active = s.rte.active := by
  rw [State.takeOver, State.onBud_rte, State.setRouteP_active, (State.setOut_onlyOut ..).active]

theorem State.takeOver_bud : (s.takeOver k p v).bud = { s.bud with holds := s.bud.holds.map (promote k) } := by
  rw [State.takeOver, State.onBud_bud, bud_of_kept (State.setRouteP_kept (μ := 0x400) ..), bud_of_kept (State.setOut_kept (μ := 0x400) ..)]

theorem State.takeOver_out (n : Nat) : (s.takeOver k p v).out n = if n = k then v else s.out n := by
  rw [State.takeOver, State.out, State.onBud_rte, State.setRouteP_outs]
  exact State.out_setOut ..

theorem State.takeOver_routeP (n : Nat) : (s.takeOver k p v).routeP n =
    if n = k then fput (fput p RouteEntry.pendState 0) RouteEntry.salvoId 0 else s.routeP n := by
  rw [State.takeOver, State.routeP, State.onBud_rte]
  refine (State.routeP_setRouteP ..).trans ?_
  rw [(State.setOut_onlyOut ..).routeP]

/-- R10: the timecode line is the one field that every latch takes over. -/
theorem State.latchTcLine_out : (s.latchTcLine k).out k = { s.out k with tcLatch := s.tcLineOf k } := State.out_setOut_same ..

theorem State.latchTcLine_onlyOut : OnlyOut k s (s.latchTcLine k) := State.setOut_onlyOut ..

end

section
variable {s : State} {o : Fin 2048} {f : OutFmt}

/-- A latch without a format, or on a plane that does not run, takes over the timecode line alone. -/
theorem execLatch_idle (h : s.outFmt o.val = none ∨ ∃ f, s.outFmt o.val = some f ∧ s.planeOn f.plane = false) :
    execLatch o s = .next (s.fresh.latchTcLine o.val) := by
  unfold execLatch
  rcases h with hf | ⟨f, hf, hp⟩
  · have hf' : (s.fresh.latchTcLine o.val).outFmt o.val = none := hf
    simp only [hf']
    rfl
  · have hf' : (s.fresh.latchTcLine o.val).outFmt o.val = some f := hf
    have hp' : (s.fresh.latchTcLine o.val).planeOn f.plane = false := hp
    simp only [hf', hp']
    rfl

/-- An entry that the latch does not take over stays PENDING; the format of the ACTIVE copy is judged all the same (R116). -/
theorem execLatch_waits (hf : s.outFmt o.val = some f) (hp : s.planeOn f.plane = true) (ha : s.latches o.val f = false) :
    ∃ t, execLatch o s = .next t ∧ OnlyOut o.val s t ∧ t.bud = s.bud ∧ (t.out o.val).latched = (s.out o.val).latched := by
  have hf' : (s.fresh.latchTcLine o.val).outFmt o.val = some f := hf
  have hp' : (s.fresh.latchTcLine o.val).planeOn f.plane = true := hp
  have ha' : (s.fresh.latchTcLine o.val).latches o.val f = false := ha
  unfold State.latches State.latchPoint at ha'
  unfold execLatch
  simp only [hf', hp', ha', Bool.not_true, Bool.not_false, Bool.false_eq_true, if_false, if_true]
  have h0 : OnlyOut o.val s (s.fresh.latchTcLine o.val) := (State.fresh_onlyOut ..).trans (State.latchTcLine_onlyOut ..)
  have hl : ((s.fresh.latchTcLine o.val).out o.val).latched = (s.out o.val).latched := by rw [State.latchTcLine_out]; rfl
  refine ⟨_, rfl, ?_⟩
  split
  · refine ⟨h0.trans ((State.setOut_onlyOut ..).trans (State.mismatch_onlyOut ..)), bud_of_kept (State.mismatch_kept (μ := 0x2C0414) ..), ?_⟩
    rw [State.mismatch_out, State.out_setOut_same]
    exact hl
  · exact ⟨h0, rfl, hl⟩

/-- An entry that the latch takes over: its audio is switched, it is taken over, and its sources are judged (R115, R116). -/
theorem execLatch_applies (hf : s.outFmt o.val = some f) (hp : s.planeOn f.plane = true) (ha : s.latches o.val f = true) :
    ∃ (s1 : State) (v : OutSt), execLatch o s = .next ((s1.takeOver o.val (s.routeP o.val) v).judgeEntry o.val (s.routeP o.val) f) ∧
      OnlyOut o.val s s1 ∧ s1.bud = s.bud ∧ v.latched = some (s.routeP o.val) ∧ v.audLatched = none := by
  have hf' : (s.fresh.latchTcLine o.val).outFmt o.val = some f := hf
  have hp' : (s.fresh.latchTcLine o.val).planeOn f.plane = true := hp
  have ha' : (s.fresh.latchTcLine o.val).latches o.val f = true := ha
  unfold State.latches State.latchPoint at ha'
  have h0 : OnlyOut o.val s (s.fresh.latchTcLine o.val) := (State.fresh_onlyOut ..).trans (State.latchTcLine_onlyOut ..)
  unfold execLatch
  simp only [hf', hp', ha', Bool.not_true, Bool.false_eq_true, if_false]
  refine ⟨_, _, rfl, ?_, ?_, rfl, rfl⟩
  · split
    · exact h0
    · exact h0.trans (State.switchAudio_onlyOut ..)
  · split
    · rfl
    · exact bud_of_kept (State.switchAudio_kept (μ := 0x2C0414) ..)

/-- No entry is taken over that is neither READY nor HELD by an armed salvo. -/
theorem State.latches_eq_false {k : Nat} (hr : fget (s.routeP k) RouteEntry.pendState ≠ 2)
    (hh : fget (s.routeP k) RouteEntry.pendState ≠ pendHeld ∨ s.armed (fget (s.routeP k) RouteEntry.salvoId) = 0) :
    s.latches k f = false := by
  have hr' : (fget (s.routeP k) RouteEntry.pendState == pendReady) = false := beq_eq_false_iff_ne.2 hr
  unfold State.latches State.applies
  rcases hh with h | h <;> simp [hr', h]

/-! ### The audio latch (R262) -/

theorem execAudioLatch_idle (h : s.outFmt o.val = none ∨ ∃ f, s.outFmt o.val = some f ∧ s.planeOn f.plane = false) :
    execAudioLatch o s = .next s.fresh := by
  unfold execAudioLatch
  rcases h with hf | ⟨f, hf, hp⟩
  · have hf' : s.fresh.outFmt o.val = none := hf
    simp only [hf']
    rfl
  · have hf' : s.fresh.outFmt o.val = some f := hf
    have hp' : s.fresh.planeOn f.plane = false := hp
    simp only [hf', hp']
    rfl

/-- An entry whose ramps start: its audio is switched, and it is noted as latched for audio. -/
theorem execAudioLatch_applies (hf : s.outFmt o.val = some f) (hp : s.planeOn f.plane = true)
    (hm : fget (s.routeP o.val) RouteEntry.audioMode ≠ 0) (hr : fget (s.routeP o.val) RouteEntry.audioRamp ≠ 0)
    (ha : s.applies (s.routeP o.val) (s.stampOf f.plane (f.nextSwitch (s.planeTu f.plane))) = true)
    (hn : (s.out o.val).audLatched ≠ some (s.routeP o.val)) :
    ∃ t, execAudioLatch o s = .next t ∧ OnlyOut o.val s t ∧ (t.out o.val).audLatched = some (s.routeP o.val) := by
  have hf' : s.fresh.outFmt o.val = some f := hf
  have hc : (s.fresh.planeOn f.plane && (fget (s.fresh.routeP o.val) RouteEntry.audioMode != 0 &&
      fget (s.fresh.routeP o.val) RouteEntry.audioRamp != 0) &&
      s.fresh.applies (s.fresh.routeP o.val) (s.fresh.stampOf f.plane (f.nextSwitch (s.fresh.planeTu f.plane))) &&
      (s.fresh.out o.val).audLatched != some (s.fresh.routeP o.val)) = true := by
    simp only [Bool.and_eq_true, bne_iff_ne]
    exact ⟨⟨⟨hp, hm, hr⟩, ha⟩, hn⟩
  unfold execAudioLatch
  simp only [hf', hc, if_true]
  exact ⟨_, rfl, (State.fresh_onlyOut ..).trans ((State.switchAudio_onlyOut ..).trans (State.setOut_onlyOut ..)),
    congrArg OutSt.audLatched (State.out_setOut_same ..)⟩

end

end Sys2Proof.Machine
end

section
/-! PROOFS. The events of routes, continued: switching point, choice of a frame, release of old claims and a parity error (R102, R106, R110,
R116, R128), and the claim on all of them. -/

namespace Sys2Proof.Machine

open Sys2Proof

/-! ### The switching point (R110) -/

/-- The ACTIVE copy a switching point makes of the latched entry: no longer pending, of the next GEN, applied in frame `n`. -/
def switchedEntry (a p : BitVec 256) (n : Nat) : BitVec 256 :=
  fput (fput (fput (fput p RouteEntry.pendState 0) RouteEntry.salvoId 0) RouteEntry.gen (fget a RouteEntry.gen + 1)) RouteEntry.appliedFrame n

/-- The fields a switching point writes leave every field of a route entry below them. -/
theorem fget_switchedEntry (a p : BitVec 256) (n : Nat) (g : Fld) (h : g.lo + g.width ≤ RouteEntry.pendState.lo) :
    fget (switchedEntry a p n) g = fget p g := by
  have hp : RouteEntry.pendState.lo ≤ RouteEntry.salvoId.lo ∧ RouteEntry.pendState.lo ≤ RouteEntry.gen.lo ∧
      RouteEntry.pendState.lo ≤ RouteEntry.appliedFrame.lo := by decide
  obtain ⟨h1, h2, h3⟩ := hp
  unfold switchedEntry
  rw [fget_fput_below _ _ _ _ (by decide) (h.trans h3), fget_fput_below _ _ _ _ (by decide) (h.trans h2),
    fget_fput_below _ _ _ _ (by decide) (h.trans h1), fget_fput_below _ _ _ _ (by decide) h]

theorem videoEn_switchedEntry (a p : BitVec 256) (n : Nat) :
    fbit (switchedEntry a p n) RouteEntry.videoEn = fbit p RouteEntry.videoEn := by
  rw [fbit, fget_switchedEntry _ _ _ _ (by decide), fbit]

theorem entryMode_switchedEntry (a p : BitVec 256) (n : Nat) : entryMode (switchedEntry a p n) = entryMode p :=
  fget_switchedEntry _ _ _ _ (by decide)

section
variable (k : Nat) (old e : BitVec 256) (f : OutFmt) (s : State)

theorem State.applyVideo_onlyOut : OnlyOut k s (s.applyVideo k old e f) := by
  unfold State.applyVideo
  extract_lets v video holds first v1 s1 off s2
  have h1 : OnlyOut k s s1 := State.setOut_onlyOut ..
  have h2 : OnlyOut k s s2 := by
    unfold s2
    split
    · exact h1.trans (State.raise_onlyOut ..)
    · exact h1
  split
  · exact h2.trans (State.mismatch_onlyOut ..)
  · exact h2

/-- What an output with a new entry reads from the switch on: without video nothing; where the formats differed at the latch, its frame
again; else the frame chosen at the latch, or in a cut-through route the newest begun. -/
theorem State.applyVideo_out : ((s.applyVideo k old e f).out k).latched = none ∧ ((s.applyVideo k old e f).out k).chosen = none ∧
    ((s.applyVideo k old e f).out k).parity = false ∧
    ((s.applyVideo k old e f).out k).repeating = (fbit e RouteEntry.videoEn && (s.out k).latchBad) ∧
    ((s.applyVideo k old e f).out k).lastFrame =
      if fbit e RouteEntry.videoEn && (s.out k).latchBad then (s.out k).lastFrame
      else if fbit e RouteEntry.videoEn then (if entryMode e = 0 then s.begun e else (s.out k).fresh) else none := by
  unfold State.applyVideo
  extract_lets v video holds first v1 s1 off s2
  have h2 : s2.out k = s.switchData e f v1 := by
    unfold s2
    split
    · exact (State.raise_out ..).trans (State.out_setOut_same ..)
    · exact State.out_setOut_same ..
  clear_value s2
  split
  · rw [State.mismatch_out, h2]
    exact ⟨rfl, rfl, rfl, rfl, rfl⟩
  · rw [h2]
    exact ⟨rfl, rfl, rfl, rfl, rfl⟩

end

section
variable {s : State} {o : Fin 2048} {f : OutFmt}

theorem execSwitchPoint_idle (h : (s.out o.val).latched = none ∨ s.outFmt o.val = none) : execSwitchPoint o s = .next s.fresh := by
  unfold execSwitchPoint
  have h' : (s.fresh.out o.val).latched = none ∨ s.fresh.outFmt o.val = none := h
  simp only
  split
  · next hp hf => rcases h' with h | h <;> simp [h] at hp hf
  · rfl

/-- The latched entry `p` is ACTIVE and applied. -/
def State.switched (k : Nat) (p : BitVec 256) (f : OutFmt) (s : State) : State :=
  (s.setRouteA k (switchedEntry (s.routeA k) p (s.out k).frames)).applyVideo k (s.routeA k)
    (switchedEntry (s.routeA k) p (s.out k).frames) f

theorem State.switched_routeA (k : Nat) (p : BitVec 256) (n : Nat) : (s.switched k p f).routeA n =
    if n = k then switchedEntry (s.routeA k) p (s.out k).frames else s.routeA n := by
  rw [State.switched, (State.applyVideo_onlyOut ..).routeA, State.routeA_setRouteA]

theorem State.switched_pending (k : Nat) (p : BitVec 256) : (s.switched k p f).rte.pending = s.rte.pending := by
  rw [State.switched, (State.applyVideo_onlyOut ..).pending, State.setRouteA_pending]

theorem State.switched_others (k : Nat) (p : BitVec 256) {n : Nat} (h : n ≠ k) : (s.switched k p f).out n = s.out n := by
  rw [State.switched, (State.applyVideo_onlyOut ..).others n h, State.setRouteA_out]

/-- What an output that read `v` reads (`w`) once entry `p` is switched on: without video nothing; where the formats differed at the latch, its
frame again; else, in a route that is not cut-through, the frame chosen at the latch. -/
structure SwitchedTo (p : BitVec 256) (v w : OutSt) : Prop where
  latched : w.latched = none
  chosen : w.chosen = none
  parity : w.parity = false
  noVideo : fbit p RouteEntry.videoEn = false → w.lastFrame = none ∧ w.repeating = false
  held : fbit p RouteEntry.videoEn = true → v.latchBad = true → w.lastFrame = v.lastFrame ∧ w.repeating = true
  newest : fbit p RouteEntry.videoEn = true → v.latchBad = false → entryMode p ≠ 0 → w.lastFrame = v.fresh ∧ w.repeating = false

/-- The bound's condition is no part of it. -/
theorem SwitchedTo.unbounded {p : BitVec 256} {v w w' : OutSt} {l} (h : SwitchedTo p v w) (hw : w' = { w with unbounded := l }) :
    SwitchedTo p v w' := by
  subst hw
  exact ⟨h.latched, h.chosen, h.parity, h.noVideo, h.held, h.newest⟩

theorem State.switched_out (k : Nat) (p : BitVec 256) : SwitchedTo p (s.out k) ((s.switched k p f).out k) := by
  obtain ⟨hl, hc, hp, hr, hlast⟩ := State.applyVideo_out k (s.routeA k) (switchedEntry (s.routeA k) p (s.out k).frames) f
    (s.setRouteA k (switchedEntry (s.routeA k) p (s.out k).frames))
  rw [videoEn_switchedEntry, State.setRouteA_out] at hr hlast
  rw [entryMode_switchedEntry] at hlast
  unfold State.switched
  refine ⟨hl, hc, hp, fun h => ?_, fun h hb => ?_, fun h hb hm => ?_⟩ <;> rw [hr, hlast]
  · simp [h]
  · simp [h, hb]
  · simp [h, hb, hm]

/-- The salvo of the entry and the bound of its output follow, which leave what was applied. -/
theorem execSwitchPoint_applies {p : BitVec 256} (hl : (s.out o.val).latched = some p) (hf : s.outFmt o.val = some f) :
    ∃ t, execSwitchPoint o s = .next t ∧ OnlyOut o.val (s.fresh.switched o.val p f) t ∧ SwitchedTo p (s.out o.val) (t.out o.val) := by
  have hl' : (s.fresh.out o.val).latched = some p := hl
  have hf' : s.fresh.outFmt o.val = some f := hf
  have hs : ∃ s2, execSwitchPoint o s = .next (s2.rebound o.val) ∧ OnlyOut o.val (s.fresh.switched o.val p f) s2 ∧
      s2.out o.val = (s.fresh.switched o.val p f).out o.val := by
    unfold execSwitchPoint
    simp only [hl', hf']
    refine ⟨_, rfl, ?_⟩
    split
    · exact State.salvoSwitched_frame ..
    · exact ⟨.of_rte rfl, rfl⟩
  obtain ⟨s2, he, h2, hv⟩ := hs
  obtain ⟨hr, unbounded, hu⟩ := State.rebound_frame o.val s2
  have h3 : SwitchedTo p (s.fresh.out o.val) ((s.fresh.switched o.val p f).out o.val) := State.switched_out o.val p
  rw [← hv] at h3
  exact ⟨_, he, h2.trans hr, h3.unbounded hu⟩

/-! ### The choice of a frame (R106) -/

theorem execFrameSelect_idle (h : s.outFmt o.val = none ∨ fbit (s.routeA o.val) RouteEntry.videoEn = false ∨ entryMode (s.routeA o.val) = 0) :
    execFrameSelect o s = .next s.fresh := by
  have h' : s.fresh.outFmt o.val = none ∨ fbit (s.fresh.routeA o.val) RouteEntry.videoEn = false ∨ entryMode (s.fresh.routeA o.val) = 0 := h
  unfold execFrameSelect
  simp only
  split
  · rfl
  · next hf =>
    rw [hf] at h'
    rcases h' with h | h | h
    · cases h
    · rw [h]; rfl
    · rw [if_pos (by simp [h])]; rfl

/-- REPEATS and SKIPS of an output once it has chosen frame `e`: one repeat where that is the frame it read before, one skip for each complete
frame passed over; neither against a frame of another route's ring, nor in processed mode (R103, R106). -/
def State.choiceCounts (s : State) (k : Nat) (e : BitVec 32) : Nat × Nat :=
  let v := s.out k
  let r := fget (s.routeA k) RouteEntry.videoRing
  match v.lastFrame with
  | none => (v.repeats, v.skips)
  | some old =>
    if entryMode (s.routeA k) = 2 || !s.readsRing k r then (v.repeats, v.skips)
    else if e = old then (sat32 v.repeats 1, v.skips)
    else (v.repeats, sat32 v.skips ((s.markersOf r).filter (fun x =>
      x.state == .complete && x.eseq != e && (x.eseq - old).toNat < 2 ^ 31 && x.eseq != old)).length)

section
variable {k : Nat} {e : BitVec 32}

theorem State.choiceCounts_of_no_frame_before (h : (s.out k).lastFrame = none ∨ entryMode (s.routeA k) = 2 ∨
    s.readsRing k (fget (s.routeA k) RouteEntry.videoRing) = false) : s.choiceCounts k e = ((s.out k).repeats, (s.out k).skips) := by
  unfold State.choiceCounts
  simp only
  split
  · rfl
  · next hold => exact if_pos (by simpa [hold] using h)

variable (h2 : entryMode (s.routeA k) ≠ 2) (hr : s.readsRing k (fget (s.routeA k) RouteEntry.videoRing) = true)
include h2 hr

theorem State.choiceCounts_of_same (h : (s.out k).lastFrame = some e) :
    s.choiceCounts k e = (sat32 (s.out k).repeats 1, (s.out k).skips) := by
  simp [State.choiceCounts, h, h2, hr]

theorem State.choiceCounts_of_ne {old : BitVec 32} (h : (s.out k).lastFrame = some old) (hne : old ≠ e) :
    s.choiceCounts k e = ((s.out k).repeats, sat32 (s.out k).skips
      ((s.markersOf (fget (s.routeA k) RouteEntry.videoRing)).filter (fun x =>
        x.state == .complete && x.eseq != e && (x.eseq - old).toNat < 2 ^ 31 && x.eseq != old)).length) := by
  simp [State.choiceCounts, h, h2, hr, hne.symm]

end

section
variable (hf : s.outFmt o.val = some f) (hv : fbit (s.routeA o.val) RouteEntry.videoEn = true) (hm : entryMode (s.routeA o.val) ≠ 0)
include hf hv hm

/-- On a source of another format the output holds its frame (R116). -/
theorem execFrameSelect_mismatch (hb : s.formatMatches (s.routeA o.val) f = false) : execFrameSelect o s =
    .next ((s.fresh.setOut o.val { s.out o.val with chosen := none, choiceBad := true }).mismatch o.val true) := by
  have hf' : s.fresh.outFmt o.val = some f := hf
  have hb' : s.fresh.formatMatches (s.fresh.routeA o.val) f = false := hb
  have hc : (!fbit (s.fresh.routeA o.val) RouteEntry.videoEn || decide (entryMode (s.fresh.routeA o.val) = 0)) = false := by
    simp only [Bool.or_eq_false_iff, Bool.not_eq_false', decide_eq_false_iff_not]
    exact ⟨hv, hm⟩
  unfold execFrameSelect
  simp only [hf', hc, hb']
  rfl

/-- With a frame to choose, the choice is noted with its counts. -/
theorem execFrameSelect_chooses {m : Marker} (hb : s.formatMatches (s.routeA o.val) f = true)
    (hi : s.isIsolated 0x66 (s.locOut o.val) = false) (hc : s.choice (s.routeA o.val) = some m) :
    execFrameSelect o s = .next (s.fresh.setOut o.val { s.out o.val with
      chosen := some m.eseq, choiceBad := false
      repeats := (s.choiceCounts o.val m.eseq).1, skips := (s.choiceCounts o.val m.eseq).2 }) := by
  have hf' : s.fresh.outFmt o.val = some f := hf
  have hb' : s.fresh.formatMatches (s.fresh.routeA o.val) f = true := hb
  have hi' : s.fresh.isIsolated 0x66 (s.fresh.locOut o.val) = false := hi
  have hc' : s.fresh.choice (s.fresh.routeA o.val) = some m := hc
  have hg : (!fbit (s.fresh.routeA o.val) RouteEntry.videoEn || decide (entryMode (s.fresh.routeA o.val) = 0)) = false := by
    simp only [Bool.or_eq_false_iff, Bool.not_eq_false', decide_eq_false_iff_not]
    exact ⟨hv, hm⟩
  change execFrameSelect o s = .next (s.fresh.setOut o.val { s.fresh.out o.val with
    chosen := some m.eseq, choiceBad := false
    repeats := (s.fresh.choiceCounts o.val m.eseq).1, skips := (s.fresh.choiceCounts o.val m.eseq).2 })
  unfold execFrameSelect State.choiceCounts
  simp only [hf', hg, hb', hi', hc', Bool.not_true, Bool.false_eq_true, if_false]
  cases hl : (s.fresh.out o.val).lastFrame with
  | none => rfl
  | some old =>
    simp only
    split
    · rfl
    · split <;> rfl

end

/-! ### The release of old claims (R102) -/

/-- The old claims a release takes: those of audio readers, or those of the video and ancillary readers, the video's not while its frame is
repeated. -/
theorem mem_execClaimRelease (audio : Bool) : ∃ t, execClaimRelease o audio s = .next t ∧
    ∀ h, h ∈ t.bud.holds ↔ h ∈ s.bud.holds ∧ ¬ ∃ part, h.by_ = .routeOld o.val part ∧
      (audio = true → 2 ≤ part) ∧ (audio = false → part < 2 ∧ (part = 0 → (s.out o.val).repeating = false)) := by
  refine ⟨_, rfl, fun h => List.mem_filter.trans (and_congr Iff.rfl ?_)⟩
  have hrep : (s.fresh.out o.val).repeating = (s.out o.val).repeating := rfl
  rw [Bool.not_eq_true', ← Bool.not_eq_true, not_iff_not, hrep]
  beta_reduce
  cases h.by_ with
  | routeOld p part =>
    cases audio with
    | true => simp
    | false => by_cases hpart : part = 0 <;> simp [hpart]
  | _ => simp

/-! ### A parity error (R128) -/

theorem State.routeParity_frame (k : Nat) (forced : Bool) : OnlyOut k s (s.routeParity k forced) ∧
    (s.routeParity k forced).out k = { s.out k with parity := true } ∧
    (0x68, s.locOut k) ∈ (s.routeParity k forced).flt.status := by
  have hrte : (s.routeParity k forced).rte = (s.setOut k { s.out k with parity := true }).rte :=
    rte_of_kept (State.raiseWith_kept (μ := 0x2C0014) ..)
  exact ⟨(State.setOut_onlyOut ..).trans (.of_rte hrte), (State.out_of_rte hrte k).trans (State.out_setOut_same ..),
    State.raiseWith_status (.inl rfl)⟩

/-- An output whose entry is bad feeds itself. -/
theorem State.selfFed_of_parity {k : Nat} (h : (s.out k).parity = true) : s.selfFed k = true := by
  simp [State.selfFed, h]

end

/-- Settles O44: each event is one of the equations above, a latch and a switching point with what their judgements leave. The model's log
fixes two of the clauses: the old video claim stays while a frame is repeated (113), and a switch drops the timing episode (108). -/
theorem routeEventsTakeEffect : Obligations.RouteEventsTakeEffect := by
  refine ⟨?latch, ?waits, ?idle, ?timecode, ?point, ?noPoint, ?chooses, ?holds, ?noChoice, ?release, ?audio, ?parity⟩
  case latch =>
    intro s o f hf hp ha
    obtain ⟨s1, v, he, h1, hb, hl, hal⟩ := execLatch_applies hf hp ha
    obtain ⟨hj, bad, hout⟩ := State.judgeEntry_frame o.val (s1.takeOver o.val (s.routeP o.val) v) (s.routeP o.val) f
    rw [State.takeOver_out, if_pos rfl] at hout
    refine ⟨_, he, by rw [hout]; exact hl, by rw [hout]; exact hal, ?_, ?_, ?_, fun n hn => ⟨?_, ?_⟩⟩
    · rw [hj.routeP, State.takeOver_routeP, if_pos rfl]
    · rw [hj.active, State.takeOver_active, h1.active]
    · rw [bud_of_kept (State.judgeEntry_kept (μ := 0x2C0414) ..), State.takeOver_bud, hb]
    · rw [hj.others n hn, State.takeOver_out, if_neg hn, h1.others n hn]
    · rw [hj.routeP, State.takeOver_routeP, if_neg hn, h1.routeP]
  case waits =>
    intro s o f hf hp hr hh
    obtain ⟨t, he, ht, hb, hl⟩ := execLatch_waits hf hp (State.latches_eq_false hr hh)
    exact ⟨t, he, ht.active, ht.pending, hb, hl⟩
  case idle => exact fun s o h => ⟨execLatch_idle h, execAudioLatch_idle h⟩
  case timecode => exact fun s o => ⟨State.latchTcLine_out .., (State.latchTcLine_onlyOut ..).others⟩
  case point =>
    intro s o f p hl hf
    obtain ⟨t, he, ht, hw⟩ := execSwitchPoint_applies hl hf
    refine ⟨t, he, ?_, hw.latched, hw.chosen, hw.parity, hw.noVideo, hw.held, hw.newest, fun n hn => ⟨?_, ?_⟩, ?_⟩
    · rw [ht.routeA, State.switched_routeA, if_pos rfl]
      rfl
    · rw [ht.routeA, State.switched_routeA, if_neg hn]
      rfl
    · rw [ht.others n hn, State.switched_others _ _ hn]
      rfl
    · rw [ht.pending, State.switched_pending]
      rfl
  case noPoint => exact fun s o h => execSwitchPoint_idle h
  case chooses =>
    intro s o f m r hf hv hm hb hi hr hc
    subst hr
    refine ⟨_, execFrameSelect_chooses hf hv hm hb hi hc, ?_⟩
    rw [State.out_setOut_same]
    refine ⟨rfl, fun h => ?_, fun h2 hr h => ?_, fun e h2 hr h hne => ?_, fun n hn => ?_, rfl⟩
    · exact ⟨congrArg Prod.fst (State.choiceCounts_of_no_frame_before h), congrArg Prod.snd (State.choiceCounts_of_no_frame_before h)⟩
    · exact ⟨congrArg Prod.fst (State.choiceCounts_of_same h2 hr h), congrArg Prod.snd (State.choiceCounts_of_same h2 hr h)⟩
    · exact ⟨congrArg Prod.fst (State.choiceCounts_of_ne h2 hr h hne), congrArg Prod.snd (State.choiceCounts_of_ne h2 hr h hne)⟩
    · rw [State.out_setOut, if_neg hn]; rfl
  case holds =>
    intro s o f hf hv hm hb hmis
    refine ⟨_, execFrameSelect_mismatch hf hv hm hb, State.mismatch_status _ _ ?_, ?_⟩
    · rw [State.out_setOut_same]
      exact hmis
    · rw [State.mismatch_out, State.out_setOut_same]
      exact ⟨rfl, rfl, rfl⟩
  case noChoice => exact fun s o h => execFrameSelect_idle h
  case release => exact fun s o audio => mem_execClaimRelease audio
  case audio =>
    intro s o f hf hp hm hr ha hn
    obtain ⟨t, he, ht, hl⟩ := execAudioLatch_applies hf hp hm hr ha hn
    exact ⟨t, he, hl, ht.active, ht.pending⟩
  case parity =>
    intro s o
    obtain ⟨hk, hout, hst⟩ := State.routeParity_frame (s := s.fresh) o.val false
    exact ⟨_, rfl, hst, by rw [hout], State.selfFed_of_parity (by rw [hout]), hk.active⟩

end Sys2Proof.Machine
end

section
/-! PROOFS. Frame starts and the acknowledgements of a take (R101, R124, R125, R150, R357, R363): what ends with a frame, what begins with the
next, the lanes that take it, and the answers of a waiting take. -/

namespace Sys2Proof.Machine

open Sys2Proof

/-! ### What is emitted stays emitted -/

section
variable {x : Emit} {s : State}

theorem State.mem_emit_emitted (y : Emit) (h : x ∈ s.emitted) : x ∈ (s.emit y).emitted := List.mem_append_left _ h

theorem State.mem_signal_emitted (v : Nat) (h : x ∈ s.emitted) : x ∈ (s.signal v).emitted := by
  unfold State.signal
  split
  · exact h
  · split
    · exact h
    · exact State.mem_emit_emitted _ h

theorem State.mem_pend_emitted (c : Nat) (h : x ∈ s.emitted) : x ∈ (s.pend c).emitted := by
  unfold State.pend
  simp only
  split
  · rw [State.onFlt_emitted]
    exact h
  · refine State.mem_signal_emitted _ ?_
    rw [State.onFlt_emitted]
    exact h

theorem State.mem_note_emitted (e : Ev) (b : Bool) (h : x ∈ s.emitted) : x ∈ (s.note e b).emitted := by
  refine State.mem_pend_emitted _ ?_
  rw [State.onFlt_emitted, State.onFlt_emitted]
  exact h

/-- An event that is not fatal takes nothing back. -/
theorem State.mem_raise_emitted {e : Ev} (he : evClass e.code ≠ 3) (h : x ∈ s.emitted) : x ∈ (s.raise e).emitted := by
  unfold State.raise State.raiseWith
  rw [if_neg (by simp [he])]
  rcases State.noteRise_cases e false s with r | r <;> rw [r]
  · refine State.mem_note_emitted _ _ ?_
    rw [State.onFlt_emitted]
    exact State.mem_note_emitted e false h
  · exact State.mem_note_emitted _ _ h

theorem State.mem_mismatch_emitted (k : Nat) (bad : Bool) (h : x ∈ s.emitted) : x ∈ (s.mismatch k bad).emitted := by
  unfold State.mismatch
  split
  · exact h
  · exact State.mem_raise_emitted (show evClass 0x66 ≠ 3 by decide) h

end

/-! ### The frame that ends (R150, R357) -/

section
variable (k : Nat) (s : State)

/-- The output's record with the digest of its frame closed. -/
def State.closedOut : OutSt :=
  { s.out k with digest := [], lastDigest := crc32c ((s.out k).digest ++ leBytes 4 (fget (s.routeA k) RouteEntry.gen)) }

theorem State.closeDigest_eq : ∃ own, s.closeDigest k = (s.setOut k (s.closedOut k)).onTwin (fun t => { t with own := own }) := by
  unfold State.closeDigest
  simp only
  split
  · exact ⟨_, rfl⟩
  · exact ⟨s.twin.own, rfl⟩

/-- The frame that ends leaves on the lanes it began on; the counters of a lane are all that moves. -/
theorem State.frameEnds_eq : ∃ ctr em, s.frameEnds k = { s.onSdi (fun d => { d with ctr := ctr }) with emitted := s.emitted ++ em } ∧
    ((s.out k).running = true → (s.out k).tx.lanes ≠ [] → Emit.serial k (s.out k).tx ∈ em) := by
  have hsame : s = { s.onSdi (fun d => { d with ctr := s.sdi.ctr }) with emitted := s.emitted ++ [] } := by
    rw [List.append_nil]; rfl
  unfold State.frameEnds
  simp only
  split
  · next hr => exact ⟨_, [], hsame, fun h => by simp [h] at hr⟩
  · split
    · exact ⟨_, _, rfl, fun _ _ => List.mem_singleton.2 rfl⟩
    · next hl => exact ⟨_, [], hsame, fun _ h => absurd hl h⟩

/-- Lanes written in turn are all that moves. -/
theorem State.foldl_setLane_eq (v : State → Nat → LaneSt) (ls : List Nat) :
    ∃ lanes, ls.foldl (fun s l => s.setLane l (v s l)) s = s.onSdi (fun d => { d with lanes := lanes }) :=
  List.foldlRecOn (motive := fun t : State => ∃ lanes, t = s.onSdi (fun d => { d with lanes := lanes })) ls _ ⟨s.sdi.lanes, rfl⟩
    (fun _ ⟨_, ht⟩ _ _ => by subst ht; exact ⟨_, rfl⟩)

theorem State.txStops_eq (want : List Nat) : ∃ lanes em,
    s.txStops k want = { s.onSdi (fun d => { d with lanes := lanes }) with emitted := s.emitted ++ em } := by
  obtain ⟨lanes, h⟩ := State.foldl_setLane_eq s (fun s l => { s.lane l with txOut := none, txGen := false })
    ((s.txRunning k).filter (fun l => !want.contains l))
  unfold State.txStops
  simp only
  rw [h]
  split
  · exact ⟨_, _, rfl⟩
  · exact ⟨lanes, [], by rw [List.append_nil]; rfl⟩

/-- What the end of a frame moves besides its digest. -/
def State.betweenFrames (ctr : Tab (List Nat)) (lanes : Tab LaneSt) (em : List Emit) (s : State) : State :=
  { s.onSdi (fun d => { d with ctr := ctr, lanes := lanes }) with emitted := s.emitted ++ em }

theorem State.txStops_frameEnds_eq (want : List Nat) : ∃ ctr lanes em, (s.frameEnds k).txStops k want = s.betweenFrames ctr lanes em ∧
    ((s.out k).running = true → (s.out k).tx.lanes ≠ [] → Emit.serial k (s.out k).tx ∈ em) := by
  obtain ⟨ctr, em, he, hserial⟩ := State.frameEnds_eq k s
  obtain ⟨lanes, em', ht⟩ := State.txStops_eq k (s.frameEnds k) want
  refine ⟨ctr, lanes, em ++ em', ?_, fun hr hl => List.mem_append_left _ (hserial hr hl)⟩
  rw [ht, he, State.betweenFrames, ← List.append_assoc]
  rfl

theorem State.txWanted_frameEnds : (s.frameEnds k).txWanted k = s.txWanted k := by
  obtain ⟨ctr, em, he, -⟩ := State.frameEnds_eq k s
  rw [he]
  rfl

/-- The frame has ended: its digest is closed, it has left, and the transmitters that do not go on have stopped. -/
def State.frameEnded : State := ((s.closeDigest k).frameEnds k).txStops k (s.txWanted k)

theorem State.outFmt_congr {s t : State} (hc : t.sdi.cfg = s.sdi.cfg) (hp : t.flo.pktOut = s.flo.pktOut) (k : Nat) :
    t.outFmt k = s.outFmt k := by
  have hcfg : sdiCfg t = sdiCfg s := by
    funext l
    rw [sdiCfg, hc, sdiCfg]
  have hfollower : t.txFollower = s.txFollower := by
    funext l
    rw [State.txFollower, hcfg, State.txFollower]
  rw [State.outFmt, State.laneOf, hc, hp, hfollower, hcfg]
  rfl

/-- What the start of a frame reads besides the routes is in `t` as in `s`. -/
structure SameTiming (s t : State) : Prop where
  outFmt : t.outFmt = s.outFmt
  outFlows : t.outFlows = s.outFlows
  emitsNow : t.emitsNow = s.emitsNow
  planeOn : t.planeOn = s.planeOn
  planeTu : t.planeTu = s.planeTu
  safetyNet : t.safetyNet = s.safetyNet

theorem SameTiming.trans {s t u : State} (h : SameTiming s t) (h' : SameTiming t u) : SameTiming s u :=
  ⟨h'.outFmt.trans h.outFmt, h'.outFlows.trans h.outFlows, h'.emitsNow.trans h.emitsNow, h'.planeOn.trans h.planeOn,
    h'.planeTu.trans h.planeTu, h'.safetyNet.trans h.safetyNet⟩

theorem SameTiming.closeDigest : SameTiming s (s.closeDigest k) := by
  obtain ⟨own, h⟩ := State.closeDigest_eq k s
  have hout : SameTiming s (s.setOut k (s.closedOut k)) := ⟨funext (State.outFmt_congr rfl rfl), rfl, rfl, rfl, rfl, rfl⟩
  rw [h]
  exact hout.trans ⟨funext (State.outFmt_congr rfl rfl), rfl, rfl, rfl, rfl, rfl⟩

theorem SameTiming.betweenFrames (ctr : Tab (List Nat)) (lanes : Tab LaneSt) (em : List Emit) : SameTiming s (s.betweenFrames ctr lanes em) :=
  ⟨funext (State.outFmt_congr rfl rfl), rfl, rfl, rfl, rfl, rfl⟩

theorem State.closeDigest_routes : OnlyOut k s (s.closeDigest k) ∧ (s.closeDigest k).out k = s.closedOut k := by
  obtain ⟨own, h⟩ := State.closeDigest_eq k s
  rw [h]
  exact ⟨(State.setOut_onlyOut ..).trans (.of_rte rfl), State.out_setOut_same ..⟩

/-- In `t` the frame that output `k` had in `s` has ended. -/
structure FrameEnded (t : State) : Prop extends OnlyOut k s t, SameTiming s t where
  out : t.out k = s.closedOut k
  serial : (s.out k).running = true → (s.out k).tx.lanes ≠ [] → Emit.serial k (s.out k).tx ∈ t.emitted

theorem State.frameEnded_spec : FrameEnded k s (s.frameEnded k) := by
  obtain ⟨hroutes, hout⟩ := State.closeDigest_routes k s
  obtain ⟨ctr, lanes, em, ht, hserial⟩ := State.txStops_frameEnds_eq k (s.closeDigest k) (s.txWanted k)
  rw [hout] at hserial
  rw [State.frameEnded, ht]
  exact ⟨hroutes.trans (.of_rte rfl), (SameTiming.closeDigest k s).trans (.betweenFrames ..), hout,
    fun hr hl => List.mem_append_right _ (hserial hr hl)⟩

theorem FrameEnded.selfFed {k : Nat} {s t : State} (h : FrameEnded k s t) : t.selfFed k = s.selfFed k := by
  rw [State.selfFed, h.routeA, h.out, h.safetyNet]
  rfl

theorem State.txWanted_closeDigest : (s.closeDigest k).txWanted k = s.txWanted k := by
  obtain ⟨own, h⟩ := State.closeDigest_eq k s
  rw [h]
  rfl

end

/-! ### The frame that begins (R101, R111, R116) -/

/-- From `s` to `t` the frame of output `k` stays the one begun, and nothing emitted is taken back. -/
structure SameFrame (k : Nat) (s t : State) : Prop extends OnlyOut k s t where
  frames : (t.out k).frames = (s.out k).frames
  gen : (t.out k).gen = (s.out k).gen
  digest : (t.out k).digest = (s.out k).digest
  lastDigest : (t.out k).lastDigest = (s.out k).lastDigest
  emitted : ∀ x ∈ s.emitted, x ∈ t.emitted

section
variable {k : Nat} {s t u : State}

theorem SameFrame.refl (k : Nat) (s : State) : SameFrame k s s := ⟨.of_rte rfl, rfl, rfl, rfl, rfl, fun _ h => h⟩

theorem SameFrame.trans (h : SameFrame k s t) (h' : SameFrame k t u) : SameFrame k s u :=
  ⟨h.toOnlyOut.trans h'.toOnlyOut, h'.frames.trans h.frames, h'.gen.trans h.gen, h'.digest.trans h.digest, h'.lastDigest.trans h.lastDigest,
    fun x hx => h'.emitted x (h.emitted x hx)⟩

theorem SameFrame.setOut {v : OutSt} (hf : v.frames = (s.out k).frames) (hg : v.gen = (s.out k).gen) (hd : v.digest = (s.out k).digest)
    (hl : v.lastDigest = (s.out k).lastDigest) : SameFrame k s (s.setOut k v) :=
  ⟨State.setOut_onlyOut .., by rwa [State.out_setOut_same], by rwa [State.out_setOut_same], by rwa [State.out_setOut_same],
    by rwa [State.out_setOut_same], fun _ h => h⟩

theorem SameFrame.releaseOldVideo : SameFrame k s (s.releaseOldVideo k) := ⟨.of_rte rfl, rfl, rfl, rfl, rfl, fun _ h => h⟩

theorem SameFrame.mismatch (bad : Bool) : SameFrame k s (s.mismatch k bad) := by
  refine ⟨State.mismatch_onlyOut .., ?_, ?_, ?_, ?_, fun x h => State.mem_mismatch_emitted _ _ h⟩ <;> rw [State.mismatch_out]

theorem SameFrame.takeChoice : SameFrame k s (s.takeChoice k) := by
  have htake {t : State} (ht : SameFrame k s t) : SameFrame k s (if (s.out k).repeating then t.releaseOldVideo k else t) := by
    split
    · exact ht.trans .releaseOldVideo
    · exact ht
  unfold State.takeChoice
  simp only
  split
  · exact .refl ..
  · split
    · exact .setOut rfl rfl rfl rfl
    · split
      · exact htake (.setOut rfl rfl rfl rfl)
      · split
        · exact htake (.setOut rfl rfl rfl rfl)
        · exact .refl ..

theorem SameFrame.txStart (f : OutFmt) (want : List Nat) (again : Bool) : SameFrame k s (s.txStart k f want again) :=
  .setOut rfl rfl rfl rfl

/-- The number of the frame that begins now (R101). -/
def State.frameNow (s : State) (f : OutFmt) : Nat := ((s.planeTu f.plane - (f.phase : Int)).fdiv f.frame % (2 : Int) ^ 64).toNat

/-- A frame begins as one of that number, fed as the output is now; its other data leave it that frame. -/
theorem State.frameBegins_spec (f : OutFmt) (want : List Nat) (runs : Bool) :
    SameFrame k (s.setOut k { s.out k with gen := s.selfFed k, frames := s.frameNow f }) (s.frameBegins k f want runs) ∧
      ((s.frameBegins k f want runs).out k).running = runs := by
  unfold State.frameBegins
  extract_lets v a n again reads s1 s2 w s3
  have h1 : SameFrame k (s.setOut k { v with gen := s.selfFed k, frames := n }) s1 := .takeChoice
  have h2 : SameFrame k (s.setOut k { v with gen := s.selfFed k, frames := n }) s2 := by
    unfold s2
    split
    · exact h1.trans (.txStart ..)
    · exact h1
  have h3 : SameFrame k (s.setOut k { v with gen := s.selfFed k, frames := n }) s3 := h2.trans (.setOut rfl rfl rfl rfl)
  have hr : (s3.out k).running = runs := congrArg OutSt.running (State.out_setOut_same ..)
  clear_value s3
  split
  · exact ⟨h3.trans (.mismatch _), by rw [State.mismatch_out]; exact hr⟩
  · exact ⟨h3, hr⟩

end

/-! ### The frame start -/

/-- Lanes that take a frame of output `k` emit it. -/
theorem State.lane_of_mem_foldl (k : Nat) (gen : Bool) {l : Nat} (ls : List Nat) (s : State) (h : l ∈ ls ∨ (s.lane l).txOut = some k) :
    ((ls.foldl (fun s l => s.setLane l { s.lane l with txOut := some k, txGen := gen }) s).lane l).txOut = some k := by
  induction ls generalizing s with
  | nil => exact h.resolve_left List.not_mem_nil
  | cons m ls ih =>
    refine ih _ ?_
    have hset : ((s.setLane m { s.lane m with txOut := some k, txGen := gen }).lane l).txOut =
        if l = m then some k else (s.lane l).txOut := by
      rw [State.lane, State.setLane, State.onSdi_sdi, tget_tset]
      split <;> rfl
    rw [hset]
    rcases h with h | h
    · rcases List.mem_cons.1 h with h | h
      · exact .inr (if_pos h)
      · exact .inl h
    · exact .inr (by rw [h, ite_self])

section
variable {s : State} {o : Fin 2048} {f : OutFmt}

theorem State.txWanted_frameEnds_closeDigest (k : Nat) : ((s.closeDigest k).frameEnds k).txWanted k = s.txWanted k := by
  rw [State.txWanted_frameEnds, State.txWanted_closeDigest]

theorem State.txStops_eq_frameEnded (k : Nat) : ((s.closeDigest k).frameEnds k).txStops k (s.txWanted k) = s.frameEnded k := rfl

/-- An output with no format stops. -/
theorem execOutputFrameStart_stops (hf : s.outFmt o.val = none) : ∃ t, execOutputFrameStart o s = .next t ∧ OnlyOut o.val s.fresh t ∧
    (t.out o.val).running = false := by
  have h := State.frameEnded_spec o.val s.fresh
  have hf' : (s.fresh.frameEnded o.val).outFmt o.val = none := (congrFun h.outFmt _).trans hf
  unfold execOutputFrameStart
  simp only [State.txWanted_frameEnds_closeDigest, State.txStops_eq_frameEnded, hf']
  exact ⟨_, rfl, h.toOnlyOut.trans (State.setOut_onlyOut ..), congrArg OutSt.running (State.out_setOut_same ..)⟩

/-- Whether the output emits the frame that starts now: on a lane that may transmit, or in packets (R150, R361). -/
def State.runsNow (s : State) (k : Nat) (f : OutFmt) : Bool :=
  !(s.txWanted k).isEmpty || (!(s.outFlows k).isEmpty && s.emitsNow && s.planeOn f.plane)

/-- With a format, its frame begins in the state in which the last has ended, and the lanes it is to be on take it. -/
theorem execOutputFrameStart_begins (hf : s.outFmt o.val = some f) : ∃ u t, execOutputFrameStart o s = .next t ∧ FrameEnded o.val s.fresh u ∧
    SameFrame o.val (u.setOut o.val { u.out o.val with gen := s.selfFed o.val, frames := s.frameNow f }) t ∧
    (t.out o.val).running = s.runsNow o.val f ∧ (∀ l ∈ s.txWanted o.val, (t.lane l).txOut = some o.val) ∧
    (s.runsNow o.val f = true → Emit.frame o.val (s.selfFed o.val) ∈ t.emitted) := by
  have h := State.frameEnded_spec o.val s.fresh
  unfold execOutputFrameStart
  simp only [State.txWanted_frameEnds_closeDigest, State.txStops_eq_frameEnded]
  generalize s.fresh.frameEnded o.val = u at h ⊢
  have hf' : u.outFmt o.val = some f := (congrFun h.outFmt _).trans hf
  have hgen : u.selfFed o.val = s.selfFed o.val := h.selfFed
  have hnow : u.frameNow f = s.frameNow f := by rw [State.frameNow, h.planeTu]; rfl
  have hruns : (!(s.fresh.txWanted o.val).isEmpty || (!(u.outFlows o.val).isEmpty && u.emitsNow && u.planeOn f.plane)) = s.runsNow o.val f := by
    rw [h.outFlows, h.emitsNow, h.planeOn]
    rfl
  simp only [hf', hruns, hgen]
  obtain ⟨hbegins, hrunning⟩ := State.frameBegins_spec (k := o.val) (s := u) f (s.fresh.txWanted o.val) (s.runsNow o.val f)
  rw [hgen, hnow] at hbegins
  generalize u.frameBegins o.val f (s.fresh.txWanted o.val) (s.runsNow o.val f) = b at hbegins hrunning ⊢
  obtain ⟨lanes, hlanes⟩ := State.foldl_setLane_eq b (fun s' l => { s'.lane l with txOut := some o.val, txGen := s.selfFed o.val })
    (s.fresh.txWanted o.val)
  have hlit (l : Nat) (hl : l ∈ s.txWanted o.val) := State.lane_of_mem_foldl o.val (s.selfFed o.val) (s.fresh.txWanted o.val) b (.inl hl)
  rw [hlanes] at hlit ⊢
  have hsame : SameFrame o.val b (b.onSdi (fun d => { d with lanes := lanes })) := ⟨.of_rte rfl, rfl, rfl, rfl, rfl, fun _ h => h⟩
  refine ⟨u, _, rfl, h, ?_⟩
  split
  · exact ⟨hbegins.trans (hsame.trans ⟨.of_rte rfl, rfl, rfl, rfl, rfl, fun _ h => State.mem_emit_emitted _ h⟩), hrunning, hlit,
      fun _ => List.mem_append_right _ (List.mem_singleton.2 rfl)⟩
  · next hr => exact ⟨hbegins.trans hsame, hrunning, hlit, fun h => absurd h hr⟩

end

/-! ### The acknowledgements of a take (R124, R125) -/

section
variable {s : State} {p : Job → Bool} {j : Job}

theorem State.answerJob_eq (st : Nat) (res : Job → List Byte) (h : s.ctl.jobs.find? p = some j) :
    s.answerJob p st res = respond j.opcode st j.req (res j) (s.onCtl (fun c => { c with jobs := c.jobs.eraseP p })) := by
  rw [State.answerJob, h]

theorem any_of_find?_eq_some {l : List Job} (h : l.find? p = some j) : l.any p = true :=
  List.any_eq_true.2 ⟨j, List.mem_of_find?_eq_some h, List.find?_some h⟩

variable {n : Fin 64} {m : Fin 8}

theorem execTakeAck_idle (h : s.ctl.jobs.any (takeJob n.val) = false ∨ maskBit (s.salvo n.val).acks m.val = true) :
    execTakeAck n m s = .next s.fresh := by
  have h' : (!(s.fresh.ctl.jobs.any (takeJob n.val)) || maskBit (s.fresh.salvo n.val).acks m.val) = true := by
    rcases h with h | h
    · exact Bool.or_eq_true_iff.2 (.inl (congrArg not h))
    · exact Bool.or_eq_true_iff.2 (.inr h)
  unfold execTakeAck
  simp only [h', if_true]
  rfl

/-- An acknowledgement that is new is kept, and the last of them answers the take. -/
theorem execTakeAck_keeps_ack (hj : s.ctl.jobs.any (takeJob n.val) = true) (hm : maskBit (s.salvo n.val).acks m.val = false) :
    execTakeAck n m s = .next (
      let s1 := s.fresh.setSalvo n.val { s.salvo n.val with acks := (s.salvo n.val).acks + 2 ^ m.val }
      if (otherMembers s (s.salvo n.val)).all (maskBit ((s.salvo n.val).acks + 2 ^ m.val)) then s1.answerJob (takeJob n.val) 0 (·.result)
      else s1) := by
  have h' : (!(s.fresh.ctl.jobs.any (takeJob n.val)) || maskBit (s.fresh.salvo n.val).acks m.val) = false :=
    Bool.or_eq_false_iff.2 ⟨congrArg not hj, hm⟩
  unfold execTakeAck
  simp only [h', Bool.false_eq_true, if_false]
  rfl

theorem execTakeAckDeadline_idle (h : s.ctl.jobs.any (takeJob n.val) = false) : execTakeAckDeadline n s = .next s.fresh := by
  have h' : (!(s.fresh.ctl.jobs.any (takeJob n.val))) = true := congrArg not h
  unfold execTakeAckDeadline
  simp only [h', if_true]
  rfl

/-- The members that acknowledged and those that did not, as E_TAKE_SPLIT gives them (R125). -/
def Salvo.splitMasks (v : Salvo) : List Byte :=
  leBytes 1 (listMask ((maskList 8 (salvoMembers v)).filter (maskBit v.acks))) ++
    leBytes 1 (listMask ((maskList 8 (salvoMembers v)).filter (fun m => !maskBit v.acks m)))

theorem execTakeAckDeadline_splits (h : s.ctl.jobs.find? (takeJob n.val) = some j) : execTakeAckDeadline n s =
    .next ((respond j.opcode eTakeSplit j.req (s.salvo n.val).splitMasks
      (s.fresh.onCtl (fun c => { c with jobs := c.jobs.eraseP (takeJob n.val) }))).raise
        ⟨0x64, locSwitch, true, 0, (s.salvo n.val).splitMasks⟩) := by
  have h' : (!(s.fresh.ctl.jobs.any (takeJob n.val))) = false := congrArg not (any_of_find?_eq_some h)
  have hj : s.fresh.ctl.jobs.find? (takeJob n.val) = some j := h
  unfold execTakeAckDeadline
  simp only [h', Bool.false_eq_true, if_false]
  rw [State.answerJob_eq _ _ hj]
  rfl

end

/-- Settles O45: a frame begins in the state in which the last has ended, of which the rest of the start reads the same as before; a take's
acknowledgements are the equations above. -/
theorem framesStartAndTakesAreAcknowledged : Obligations.FramesStartAndTakesAreAcknowledged := by
  refine ⟨?stops, ?begins, ?kept, ?last, ?noTake, ?deadline, ?noDeadline⟩
  case stops =>
    intro s o hf
    obtain ⟨t, he, ht, hr⟩ := execOutputFrameStart_stops hf
    exact ⟨t, he, hr, ht.active⟩
  case begins =>
    intro s o f hf
    obtain ⟨u, t, he, hu, ht, hruns, hlanes, hframe⟩ := execOutputFrameStart_begins hf
    have hset := State.out_setOut_same o.val { u.out o.val with gen := s.selfFed o.val, frames := s.frameNow f } u
    have hroutes : OnlyOut o.val s.fresh t := (hu.toOnlyOut.trans (State.setOut_onlyOut ..)).trans ht.toOnlyOut
    refine ⟨t, he, ?_, hruns, ?_, ?_, ?_, hlanes, fun h => hframe (hruns ▸ h), fun hr hl => ht.emitted _ (hu.serial hr hl),
      hroutes.active, hroutes.pending, hroutes.others, mem_of_kept ((execOutputFrameStart_keeps (μ := 0x2C0E14) o s).next he)⟩
    · rw [ht.frames, hset]
      rfl
    · rw [ht.gen, hset]
    · rw [ht.digest, hset, hu.out]
      rfl
    · rw [ht.lastDigest, hset, hu.out]
      rfl
  case kept =>
    intro s n m hj hm hall
    exact (execTakeAck_keeps_ack hj hm).trans (by rw [hall]; rfl)
  case last =>
    intro s n m j hj hm hall
    rw [show exec (.takeAck n m) s = execTakeAck n m s from rfl, execTakeAck_keeps_ack (any_of_find?_eq_some hj) hm, hall]
    exact congrArg _ (State.answerJob_eq _ _ hj)
  case noTake => exact fun s n m h => execTakeAck_idle h
  case deadline =>
    intro s n j b hj hb
    subst hb
    exact ⟨_, execTakeAckDeadline_splits hj, State.raise_status .., rfl⟩
  case noDeadline => exact fun s n h => execTakeAckDeadline_idle h

end Sys2Proof.Machine
end

section
/-! PROOFS. Receivers of SDI lanes (R132 to R145): which operations change lanes, their records and their counters, what stopping a
receiver's writers leaves of each lane, and what a receiver that loses lock becomes. -/

namespace Sys2Proof.Machine

open Sys2Proof

/-! ### One lane's state written -/

section
variable (k : Nat) (v : LaneSt) (s : State) (n : Nat)

theorem State.lane_of_sdi {s t : State} (h : t.sdi = s.sdi) (n : Nat) : t.lane n = s.lane n := by
  rw [State.lane, h, State.lane]

theorem sdiCfg_of_sdi {s t : State} (h : t.sdi = s.sdi) (n : Nat) : sdiCfg t n = sdiCfg s n := by
  rw [sdiCfg, h, sdiCfg]

theorem State.lane_setLane : (s.setLane k v).lane n = if n = k then v else s.lane n := tget_tset ..

@[simp] theorem State.lane_setLane_same : (s.setLane k v).lane k = v := tget_tset_same ..

theorem State.lane_setLane_of_ne (h : n ≠ k) : (s.setLane k v).lane n = s.lane n := by
  rw [State.lane_setLane, if_neg h]

@[simp] theorem State.setLane_cfg : (s.setLane k v).sdi.cfg = s.sdi.cfg := rfl

@[simp] theorem State.fresh_lane : s.fresh.lane n = s.lane n := rfl

@[simp] theorem State.rxCount_lane (x : Rx) (c : Nat) : (s.rxCount x c).lane n = s.lane n := by cases x <;> rfl

@[simp] theorem State.rxCount_cfg (x : Rx) (c : Nat) : (s.rxCount x c).sdi.cfg = s.sdi.cfg := by cases x <;> rfl

@[simp] theorem State.rxCount_flt (x : Rx) (c : Nat) : (s.rxCount x c).flt = s.flt := flt_of_kept (State.rxCount_kept (μ := 0x800) ..)

/-- R155: one of a lane's twelve counters advances. -/
theorem State.rxCount_ctr (l c : Nat) : tget ctr12 (s.rxCount (.lane l) c).sdi.ctr l =
    (tget ctr12 s.sdi.ctr l).set c (sat32 ((tget ctr12 s.sdi.ctr l).getD c 0) 1) := tget_tset_same ..

theorem State.rxCount_ctr_congr {s t : State} (l c : Nat) (h : t.sdi.ctr = s.sdi.ctr) :
    (t.rxCount (.lane l) c).sdi.ctr = (s.rxCount (.lane l) c).sdi.ctr := by
  simp only [State.rxCount, State.onSdi_sdi, h]

@[simp] theorem State.raise_sdi (e : Ev) : (s.raise e).sdi = s.sdi := sdi_of_kept (State.raise_kept (μ := 0x2C0014) ..)

@[simp] theorem State.raise0_sdi (c loc : Nat) : (s.raise0 c loc).sdi = s.sdi := State.raise_sdi ..

@[simp] theorem State.raise_lane (e : Ev) : (s.raise e).lane n = s.lane n := State.lane_of_sdi (State.raise_sdi ..) n

@[simp] theorem State.raise0_lane (c loc : Nat) : (s.raise0 c loc).lane n = s.lane n := State.raise_lane ..

@[simp] theorem State.rxCands_sdi (x : Rx) : (s.rxCands x).sdi = s.sdi := sdi_of_kept (State.rxCands_kept (μ := 0x6D0014) ..)

@[simp] theorem State.rxCands_lane (x : Rx) : (s.rxCands x).lane n = s.lane n := State.lane_of_sdi (State.rxCands_sdi ..) n

@[simp] theorem State.rxEndCauses_sdi (x : Rx) : (s.rxEndCauses x).sdi = s.sdi := sdi_of_kept (State.rxEndCauses_kept (μ := 0x10) ..)

end

/-! ### The writers of a receiver stop (R57, R139) -/

/-- What a lane's writers may do to lanes when they stop: waiting audio goes, in those lanes whose audio they write. -/
structure AudioDropped (owns : Nat → Prop) (s t : State) : Prop where
  cfg : t.sdi.cfg = s.sdi.cfg
  ctr : t.sdi.ctr = s.sdi.ctr
  lanes : ∀ n, ∃ aq bPend aSync, t.lane n = { s.lane n with aq := aq, bPend := bPend, aSync := aSync }
  others : ∀ n, ¬ owns n → t.lane n = s.lane n

section
variable {owns : Nat → Prop} {s t u : State}

theorem AudioDropped.of_sdi (h : t.sdi = s.sdi) : AudioDropped owns s t :=
  ⟨congrArg SdiSt.cfg h, congrArg SdiSt.ctr h, fun n => ⟨_, _, _, State.lane_of_sdi h n⟩, fun n _ => State.lane_of_sdi h n⟩

theorem AudioDropped.trans (h : AudioDropped owns s t) (h' : AudioDropped owns t u) : AudioDropped owns s u where
  cfg := h'.cfg.trans h.cfg
  ctr := h'.ctr.trans h.ctr
  lanes n := by
    obtain ⟨a, b, c, e⟩ := h.lanes n
    obtain ⟨a', b', c', e'⟩ := h'.lanes n
    exact ⟨a', b', c', by rw [e', e]⟩
  others n hn := (h'.others n hn).trans (h.others n hn)

theorem State.setRx_dropSlot (k slot : Nat) (s : State) (hk : owns k) :
    AudioDropped owns s (s.setRx (.lane k) (dropSlot slot (s.rx (.lane k)))) where
  cfg := rfl
  ctr := rfl
  lanes n := by
    rw [State.setRx, State.lane_setLane]
    split
    · next h => subst h; exact ⟨_, _, _, rfl⟩
    · exact ⟨_, _, _, rfl⟩
  others n hn := State.lane_setLane_of_ne _ _ _ _ (fun h => hn (h ▸ hk))

theorem State.rxAbandon_dropped (part : Rx × Nat × Nat) (whole : Bool) (s : State) (h : ∀ k, part.1 = .lane k → owns k) :
    AudioDropped owns s (s.rxAbandon part whole) := by
  obtain ⟨x, k, r⟩ := part
  have habandon : (s.abandon r false).sdi = s.sdi := sdi_of_kept (State.abandon_kept (μ := 0x420C0) ..)
  unfold State.rxAbandon
  simp only
  split
  · split
    · split
      · exact .of_sdi habandon
      · exact .of_sdi habandon
    · exact .of_sdi rfl
  · split
    · refine AudioDropped.trans (t := s.setRx x (dropSlot (k - 2) (s.rx x))) ?_ (.of_sdi rfl)
      cases x with
      | lane l => exact State.setRx_dropSlot l _ s (h l rfl)
      | flow r => exact .of_sdi rfl
    · exact .of_sdi rfl

/-- The lanes whose audio a receiver writes. -/
def State.audioLane (s : State) (x : Rx) (n : Nat) : Prop := ∃ p ∈ s.rxParts x, p.1 = .lane n

theorem State.rxStop_dropped (x : Rx) (whole : Bool) (s : State) : AudioDropped (s.audioLane x) s (s.rxStop x whole) :=
  List.foldlRecOn (motive := AudioDropped (s.audioLane x) s) _ _ (.of_sdi rfl)
    (fun t ht p hp => ht.trans (t.rxAbandon_dropped p whole (fun _ hk => ⟨p, hp, hk⟩)))

/-- Outside a bonded group a lane's receiver writes its own audio alone. -/
theorem State.audioLane_unbonded {l n : Nat} (hb : s.rxBond l = 0) (h : s.audioLane (.lane l) n) : n = l := by
  obtain ⟨p, hp, hn⟩ := h
  rw [State.rxParts, State.rxFollower, hb] at hp
  obtain ⟨q, -, rfl⟩ : ∃ q ∈ laneParts (sdiCfg s l), (Rx.lane l, q.1, q.2) = p := by simpa using hp
  exact (Rx.lane.inj hn).symm

/-- What a stop leaves of a lane that then unlocks. -/
theorem AudioDropped.unlocked (h : AudioDropped owns s t) (n : Nat) (lock : Lock) :
    (t.lane n).unlocked lock = (s.lane n).unlocked lock := by
  obtain ⟨_, _, _, e⟩ := h.lanes n
  rw [e]
  rfl

theorem AudioDropped.lock (h : AudioDropped owns s t) (n : Nat) : (t.lane n).lock = (s.lane n).lock := by
  obtain ⟨_, _, _, e⟩ := h.lanes n
  rw [e]

end

/-! ### Loss of lock (R139) -/

section
variable (l : Nat) (lock : Lock) (event : Bool) (s : State)

/-- What a lane that loses lock leaves of the lanes and their counters: its writers have stopped, it starts anew, and R155 counts a format
that is lost. -/
theorem State.rxLose_sdi : ∃ u, AudioDropped (s.audioLane (.lane l)) s u ∧
    (s.rxLose (.lane l) lock event).sdi = (if event && (s.lane l).lock = .formatLocked then
      (u.setLane l ((s.lane l).unlocked lock)).rxCount (.lane l) 9 else u.setLane l ((s.lane l).unlocked lock)).sdi := by
  unfold State.rxLose
  extract_lets v s1 s2 s3 s4
  have h1 : AudioDropped (s.audioLane (.lane l)) s s1 := by
    unfold s1
    split
    · exact s.rxStop_dropped ..
    · exact .of_sdi rfl
  have h2 : s2 = (s1.rxEndCauses (.lane l)).setLane l ((s.lane l).unlocked lock) := congrArg (State.setLane l · _) (h1.unlocked l lock)
  have h4 : s4.sdi = s3.sdi := by
    unfold s4
    split
    · exact State.raise0_sdi ..
    · rfl
  refine ⟨s1.rxEndCauses (.lane l), h1.trans (.of_sdi (State.rxEndCauses_sdi ..)), ?_⟩
  rw [State.rxCands_sdi, h4, ← h2]
  rfl

theorem State.rxLose_cfg : (s.rxLose (.lane l) lock event).sdi.cfg = s.sdi.cfg := by
  obtain ⟨u, hu, h⟩ := s.rxLose_sdi l lock event
  rw [h]
  split
  · rw [State.rxCount_cfg, State.setLane_cfg, hu.cfg]
  · rw [State.setLane_cfg, hu.cfg]

theorem State.rxLose_lane (n : Nat) : ∃ u, AudioDropped (s.audioLane (.lane l)) s u ∧
    (s.rxLose (.lane l) lock event).lane n = if n = l then (s.lane l).unlocked lock else u.lane n := by
  obtain ⟨u, hu, h⟩ := s.rxLose_sdi l lock event
  refine ⟨u, hu, (State.lane_of_sdi h n).trans ?_⟩
  split
  · rw [State.rxCount_lane, State.lane_setLane]
  · rw [State.lane_setLane]

@[simp] theorem State.rxLose_lane_same : (s.rxLose (.lane l) lock event).lane l = (s.lane l).unlocked lock := by
  obtain ⟨u, -, h⟩ := s.rxLose_lane l lock event l
  rw [h, if_pos rfl]

theorem State.rxLose_lane_of_ne {n : Nat} (hb : s.rxBond l = 0) (hn : n ≠ l) : (s.rxLose (.lane l) lock event).lane n = s.lane n := by
  obtain ⟨u, hu, h⟩ := s.rxLose_lane l lock event n
  rw [h, if_neg hn, hu.others n (fun h => hn (State.audioLane_unbonded hb h))]

/-- The other lanes of a group keep their lock states. -/
theorem State.rxLose_lock_of_ne {n : Nat} (hn : n ≠ l) : ((s.rxLose (.lane l) lock event).lane n).lock = (s.lane n).lock := by
  obtain ⟨u, hu, h⟩ := s.rxLose_lane l lock event n
  rw [h, if_neg hn, hu.lock]

/-- R155: LOCK_LOSS counts the loss of an established format, and nothing else is counted. -/
theorem State.rxLose_ctr : (s.rxLose (.lane l) lock true).sdi.ctr =
    if (s.lane l).lock = .formatLocked then (s.rxCount (.lane l) 9).sdi.ctr else s.sdi.ctr := by
  obtain ⟨u, hu, h⟩ := s.rxLose_sdi l lock true
  rw [h]
  by_cases hl : (s.lane l).lock = .formatLocked
  · simp only [hl, decide_true, Bool.and_self, if_true]
    exact State.rxCount_ctr_congr l 9 hu.ctr
  · simp only [hl, decide_false, Bool.and_false, Bool.false_eq_true, if_false]
    exact hu.ctr

end

end Sys2Proof.Machine
end

section
/-! PROOFS. The PORT commands (R154, R161, R162, R174, R195, R196, R395, R430): which operations leave lane and port records as they are,
what each command's passed checks say, and what it leaves. -/

namespace Sys2Proof.Machine

open Sys2Proof

/-! ### Records that running states leave -/

/-- What each step of a fold leaves, the fold leaves. -/
theorem foldl_leaves {β γ : Type} (g : State → γ) {f : State → β → State} (h : ∀ s b, g (f s b) = g s) (l : List β) (s : State) :
    g (l.foldl f s) = g s :=
  List.foldlRecOn (motive := fun t => g t = g s) _ _ rfl (fun t ht b _ => (h t b).trans ht)

section
variable (l bond : Nat) (s : State)

/-- A receiver halted, with the group it leads, keeps every lane's record; so does one started, and a group bonded or split. -/
@[simp] theorem State.rxHalt_cfg : (s.rxHalt l).sdi.cfg = s.sdi.cfg :=
  (foldl_leaves (fun t : State => t.sdi.cfg) (fun _ _ => by rfl) _ _).trans (State.rxLose_cfg ..)

@[simp] theorem State.rxStart_cfg : (s.rxStart l).sdi.cfg = s.sdi.cfg :=
  foldl_leaves (fun t : State => t.sdi.cfg) (fun _ _ => by rfl) _ _

@[simp] theorem State.unbond_cfg : (s.unbond l bond).sdi.cfg = s.sdi.cfg := by
  unfold State.unbond
  split
  · exact foldl_leaves (fun t : State => t.sdi.cfg) (fun t k => t.rxHalt_cfg k) _ _
  · rfl

@[simp] theorem State.rebond_cfg : (s.rebond l bond).sdi.cfg = s.sdi.cfg := by
  unfold State.rebond
  split
  · exact foldl_leaves (fun t : State => t.sdi.cfg) (fun t k => t.rxStart_cfg k) _ _
  · rfl

end

section
variable (n : Nat) (s : State)

@[simp] theorem State.raise0_eth (c loc : Nat) : (s.raise0 c loc).eth = s.eth := eth_of_kept (State.raise0_kept (μ := 0x2C0014) ..)

/-- A sub-port that leaves UP or trains, and holds that end, keep every port's record. -/
@[simp] theorem State.subLeave_port (link : LinkUp) : (s.subLeave n link).eth.port = s.eth.port := by
  unfold State.subLeave
  simp only
  split
  · rfl
  · rw [State.raise0_eth, eth_of_kept (State.instLink_kept (μ := 0x6F0014) ..),
      foldl_leaves State.eth (fun t r => eth_of_kept (t.depStop_kept (μ := 0x6D28D4) r))]
    rfl

@[simp] theorem State.portStop_port : (s.portStop n).eth.port = s.eth.port := by
  unfold State.portStop
  exact foldl_leaves (fun t : State => t.eth.port) (fun t i => State.subLeave_port (8 * n + i) t .down) _ _

@[simp] theorem State.portTrain_port : (s.portTrain n).eth.port = s.eth.port := by
  refine foldl_leaves (fun t : State => t.eth.port) (fun t i => ?_) _ _
  simp only
  split <;> rfl

@[simp] theorem State.mediaFree_port (on : Bool) : (s.mediaFree n on).eth.port = s.eth.port := by
  unfold State.mediaFree
  split
  · rfl
  · exact foldl_leaves (fun t : State => t.eth.port) (fun _ _ => by rfl) _ _

@[simp] theorem State.reboundAll_eth : s.reboundAll.eth = s.eth := eth_of_kept (State.reboundAll_kept (μ := 0x2C0414) ..)

end

/-! ### What the passed checks say -/

section
variable {q : Req} {s : State}

/-- A record write with ranges of its own that passes its checks gives the merged record. -/
theorem writeRecordX_eq {w : Nat} {layout fixed : List Fld} {old new : BitVec w} {more : BitVec w → Option Nat}
    (h : writeRecordX q layout old fixed more = .ok new) : new = mergeRec layout old (Req.recordBytes q (w / 8)) := by
  obtain ⟨-, h⟩ := layout_bind.1 h
  simp only at h
  split at h
  · cases h
  · split at h
    · cases h
    · exact (Except.ok.inj h).symm

theorem sdiWriteCheck_facts {l : Nat} {new : BitVec 256} {u : State} (h : sdiWriteCheck q s = .ok (l, new, u)) :
    l = Req.u32 q 0 ∧ l < 144 ∧ new = mergeRec SdiLane.layout (sdiCfg s l) (Req.recordBytes q 32) := by
  obtain ⟨hl, h⟩ := index_bind.1 h
  obtain ⟨-, h⟩ := noTarget_bind.1 h
  obtain ⟨new', hn, h⟩ := ok_bind_iff.1 h
  obtain ⟨-, h⟩ := need_bind.1 h
  obtain ⟨-, h⟩ := need_bind.1 h
  obtain ⟨_, -, h⟩ := ok_bind_iff.1 h
  obtain ⟨_, -, h⟩ := ok_bind_iff.1 h
  simp only at h
  split at h
  · cases h
  · cases pure_eq_ok.1 h
    exact ⟨rfl, hl, writeRecordX_eq hn⟩

theorem ethWriteCheck_facts {n : Nat} {new : BitVec 256} (h : ethWriteCheck q s = .ok (n, new)) :
    n = Req.u32 q 0 ∧ n < 4 ∧ new = mergeRec EthPort.layout (s.ethPort n) (Req.recordBytes q 32) := by
  obtain ⟨hn, h⟩ := index_bind.1 h
  obtain ⟨-, h⟩ := noTarget_bind.1 h
  obtain ⟨new', hr, h⟩ := ok_bind_iff.1 h
  obtain ⟨-, h⟩ := need_bind.1 h
  simp only at h
  split at h
  · cases h
  · cases pure_eq_ok.1 h
    exact ⟨rfl, hn, writeRecordX_eq hr⟩

theorem ethAddrWriteCheck_facts {p : Nat} {new : BitVec 256} (h : ethAddrWriteCheck q s = .ok (p, new)) :
    p = Req.u32 q 0 ∧ p < 32 ∧ new = mergeRec EthAddr.layout (s.ethAddr p) (Req.recordBytes q 32) := by
  obtain ⟨hp, h⟩ := index_bind.1 h
  obtain ⟨-, h⟩ := noTarget_bind.1 h
  obtain ⟨new', hr, h⟩ := ok_bind_iff.1 h
  cases pure_eq_ok.1 h
  exact ⟨rfl, hp, writeRecordX_eq hr⟩

theorem pktFlowWriteCheck_facts {f : Nat} {new : BitVec 256} {hdr : BitVec 528} {u : State}
    (h : pktFlowWriteCheck q s = .ok (f, new, hdr, u)) :
    f = Req.u32 q 0 ∧ f < 4096 ∧ new = mergeRec PktFlow.layout (s.pktRec f) (Req.recordBytes q 32) := by
  obtain ⟨hf, h⟩ := index_bind.1 h
  obtain ⟨-, h⟩ := noTarget_bind.1 h
  obtain ⟨-, h⟩ := layout_bind.1 h
  simp only at h
  split at h
  · cases h
  · split at h
    · cases h
    · obtain ⟨-, h⟩ := needAt_bind.1 h
      split at h
      · obtain ⟨_, -, h⟩ := ok_bind_iff.1 h
        cases pure_eq_ok.1 h
        exact ⟨rfl, hf, rfl⟩
      · cases pure_eq_ok.1 h
        exact ⟨rfl, hf, rfl⟩

theorem sbWriteCheck_facts {e : BitVec 128} (h : sbWriteCheck q s = .ok e) :
    e = mergeRec SbRec.layout s.ctl.sb (Req.recordBytes q 16) := by
  obtain ⟨-, h⟩ := index_bind.1 h
  obtain ⟨-, h⟩ := noTarget_bind.1 h
  exact writeRecordX_eq h

theorem pktOutWriteCheck_facts {o : Nat} {new : BitVec 128} (h : pktOutWriteCheck q s = .ok (o, new)) :
    o = Req.u32 q 0 ∧ o < 2048 ∧ new = mergeRec PktOut.layout (tget pktOutReset s.flo.pktOut o) (Req.recordBytes q 16) := by
  obtain ⟨ho, h⟩ := index_bind.1 h
  obtain ⟨-, h⟩ := noTarget_bind.1 h
  obtain ⟨new', hr, h⟩ := ok_bind_iff.1 h
  obtain ⟨-, h⟩ := needAt_bind.1 h
  cases pure_eq_ok.1 h
  exact ⟨rfl, ho, writeRecordX_eq hr⟩

/-! ### A request taken up shows the same records -/

section
variable (q s) (n : Nat)

@[simp] theorem taken_sdiCfg : sdiCfg (taken q s) n = sdiCfg s n := by simp [sdiCfg]

@[simp] theorem taken_lane : (taken q s).lane n = s.lane n := by simp [State.lane]

@[simp] theorem taken_ethPort : (taken q s).ethPort n = s.ethPort n := by simp [State.ethPort]

@[simp] theorem taken_ethAddr : (taken q s).ethAddr n = s.ethAddr n := by simp [State.ethAddr]

@[simp] theorem taken_bank : (taken q s).bank n = s.bank n := by simp [State.bank]

@[simp] theorem taken_ethCounters : (taken q s).ethCounters n = s.ethCounters n := by
  obtain ⟨mb, h⟩ := taken_eq q s
  rw [h]
  rfl

@[simp] theorem taken_pktRec : (taken q s).pktRec n = s.pktRec n := by simp [State.pktRec]

@[simp] theorem taken_pktHdr : (taken q s).pktHdr n = s.pktHdr n := by simp [State.pktHdr]

@[simp] theorem taken_laneImage : (taken q s).laneImage n = s.laneImage n := by simp [State.laneImage]

end

end

/-! ### What the commands leave -/

section
variable {q : Req} {s : State}

theorem cmdSdiWrite_eq {l : Nat} {new : BitVec 256} {u : State} (h : sdiWriteCheck q s = .ok (l, new, u)) :
    cmdSdiWrite q s = .ok (sdiWriteDo l new u, recBytes (sdiCfg (sdiWriteDo l new u) l)) := by
  rw [cmdSdiWrite, h]
  rfl

theorem sdiWriteDo_sdiCfg (l : Nat) (new : BitVec 256) (s : State) (n : Nat) :
    sdiCfg (sdiWriteDo l new s) n = if n = l then new else sdiCfg s n := by
  unfold sdiWriteDo
  extract_lets old fall u s1 s2
  have hu : u.sdi.cfg = s.sdi.cfg := by
    refine (State.unbond_cfg ..).trans ?_
    split
    · exact State.rxHalt_cfg ..
    · rfl
  have h1 : s1.sdi.cfg = tset sdiReset s.sdi.cfg l new := by
    rw [sdi_of_kept (State.syncWcreds_kept (μ := 0x40) ..), State.onSdi_sdi, hu]
  have h2 : s2.sdi.cfg = s1.sdi.cfg := by
    refine (State.rebond_cfg ..).trans ?_
    split
    · exact State.rxStart_cfg ..
    · rfl
  have h3 : sdiCfg s2 n = if n = l then new else sdiCfg s n := by
    rw [sdiCfg, h2, h1, tget_tset, sdiCfg]
  split
  · exact (congrArg (tget sdiReset · n) (foldl_leaves (fun t : State => t.sdi.cfg) (fun _ _ => by rfl) _ _)).trans h3
  · exact h3

theorem cmdEthWrite_eq {n : Nat} {new : BitVec 256} (h : ethWriteCheck q s = .ok (n, new)) :
    cmdEthWrite q s = .ok (ethWriteDo n new s, recBytes new) := by
  rw [cmdEthWrite, h]
  rfl

theorem ethWriteDo_ethPort (n : Nat) (new : BitVec 256) (s : State) (m : Nat) :
    (ethWriteDo n new s).ethPort m = if m = n then new else s.ethPort m := by
  unfold ethWriteDo
  extract_lets old u s1 s2
  have hu : u.eth.port = s.eth.port := by
    unfold u
    split
    · exact State.portStop_port ..
    · rfl
  have h1 : s1.eth.port = tset ethReset s.eth.port n new := congrArg (tset ethReset · n new) hu
  have h2 : s2.eth.port = s1.eth.port := by
    unfold s2
    split
    · exact State.portTrain_port ..
    · rfl
  have h3 : s2.ethPort m = if m = n then new else s.ethPort m := by
    rw [State.ethPort, h2, h1, tget_tset, State.ethPort]
  split
  · rw [State.ethPort, State.reboundAll_eth, State.mediaFree_port]
    exact h3
  · exact h3

theorem cmdEthAddrWrite_eq {p : Nat} {new : BitVec 256} (h : ethAddrWriteCheck q s = .ok (p, new)) :
    cmdEthAddrWrite q s = .ok (s.onEth (fun e => { e with addr := tset ethAddrReset e.addr p new }), recBytes new) := by
  rw [cmdEthAddrWrite, h]
  rfl

theorem cmdPktFlowWrite_eq {f : Nat} {new : BitVec 256} {hdr : BitVec 528} {u : State} (h : pktFlowWriteCheck q s = .ok (f, new, hdr, u)) :
    cmdPktFlowWrite q s = .ok (pktFlowWriteDo f (s.pktRec f) new hdr u, recBytes new ++ leBytes 66 hdr.toNat) := by
  rw [cmdPktFlowWrite, h]
  rfl

/-- A flow's write stores its record and its template; a flow that starts also gets a running state, and one disabled gives up its claims. -/
theorem pktFlowWriteDo_flo (f : Nat) (old new : BitVec 256) (hdr : BitVec 528) (s : State) :
    (pktFlowWriteDo f old new hdr s).flo.pkt = tset pktReset s.flo.pkt f new ∧
      (pktFlowWriteDo f old new hdr s).flo.hdr = tset hdrReset s.flo.hdr f hdr := by
  unfold pktFlowWriteDo
  extract_lets s1 s2
  have h2 : s2.flo.pkt = s1.flo.pkt ∧ s2.flo.hdr = s1.flo.hdr := by
    unfold s2
    split <;> exact ⟨rfl, rfl⟩
  split
  · rw [flo_of_kept (State.release_kept (μ := 0x200) ..)]
    exact h2
  · exact h2

theorem cmdSbWrite_eq {e : BitVec 128} (h : sbWriteCheck q s = .ok e) : cmdSbWrite q s = .ok (sbWriteDo e s, recBytes e) := by
  rw [cmdSbWrite, h]
  rfl

/-- A MAC that is not switched off takes its record on and nothing else (R380). -/
theorem sbWriteDo_on {e : BitVec 128} (h : fbit s.ctl.sb SbRec.sbEn = false ∨ fbit e SbRec.sbEn = true) :
    sbWriteDo e s = s.onCtl (fun c => { c with sb := e }) := by
  unfold sbWriteDo
  rcases h with h | h <;> simp [h]

theorem cmdPortSnapshot_eq (ht : Req.trailingOk q 1 = true) (hm : Req.u8 q 0 < 16) : cmdPortSnapshot q s =
    .ok (s.snapshot (maskList 4 (Req.u8 q 0)),
      (List.range 4).flatMap (fun n => leBytes 4 ((s.snapshot (maskList 4 (Req.u8 q 0))).bank n).seq.toNat) ++ leBytes 8 s.now) := by
  simp [cmdPortSnapshot, portSnapshotCheck, layout_ok ht, hm, pure, Except.pure, Bind.bind, Except.bind]

/-- One port's counters copied to its bank, in a snapshot of `s`. -/
def State.snapPort (s t : State) (n : Nat) : State :=
  t.onEth (fun e => { e with bank := tset bankReset e.bank n ⟨(s.bank n).seq + 1, s.now, s.ethCounters n⟩ })

theorem State.snapPort_bank (s t : State) (k n : Nat) :
    (s.snapPort t k).bank n = if n = k then ⟨(s.bank k).seq + 1, s.now, s.ethCounters k⟩ else t.bank n := tget_tset ..

theorem State.foldl_snapPort_bank (s : State) (n : Nat) (ports : List Nat) (t : State) : (ports.foldl s.snapPort t).bank n =
    if n ∈ ports then ⟨(s.bank n).seq + 1, s.now, s.ethCounters n⟩ else t.bank n := by
  induction ports generalizing t with
  | nil => rfl
  | cons k ports ih =>
    rw [List.foldl_cons, ih, State.snapPort_bank]
    by_cases h : n = k
    · subst h; simp
    · simp [h]

/-- The bank of a port after a snapshot: its next number, the time and its counters, where the port is named. -/
theorem State.snapshot_bank (ports : List Nat) (s : State) (n : Nat) : (s.snapshot ports).bank n =
    if n ∈ ports then ⟨(s.bank n).seq + 1, s.now, s.ethCounters n⟩ else s.bank n := s.foldl_snapPort_bank n ports s

/-- A snapshot changes the banks alone. -/
theorem State.snapshot_frame (ports : List Nat) (s : State) :
    (s.snapshot ports).eth.ctr = s.eth.ctr ∧ (s.snapshot ports).eth.port = s.eth.port :=
  ⟨foldl_leaves (fun t : State => t.eth.ctr) (fun _ _ => by rfl) _ _, foldl_leaves (fun t : State => t.eth.port) (fun _ _ => by rfl) _ _⟩

theorem mem_maskList_iff {n m k : Nat} : k ∈ maskList n m ↔ k < n ∧ maskBit m k = true := by
  rw [maskList, List.mem_filter, List.mem_range]

theorem cmdPktOutWrite_eq {o : Nat} {new : BitVec 128} (h : pktOutWriteCheck q s = .ok (o, new)) :
    cmdPktOutWrite q s = .ok (s.onFlo (fun f => { f with pktOut := tset pktOutReset f.pktOut o new }), recBytes new) := by
  rw [cmdPktOutWrite, h]
  rfl

/-- PORT_READ's passed checks: a known kind of record, of which lanes, addresses and the service-bus record are answered as they stand, and
nothing changes without CLEAR. -/
theorem cmdPortRead_facts {a : State × List Byte} (h : cmdPortRead q s = .ok a) :
    Req.u16 q 2 < 7 ∧ (Req.u32 q 4 = 0 → a.1 = s) ∧ (Req.u16 q 2 = 0 → a.2 = s.laneImage (Req.u16 q 0)) ∧
      (Req.u16 q 2 = 2 → a.2 = recBytes (s.ethAddr (Req.u16 q 0))) ∧ (Req.u16 q 2 = 5 → a.2 = recBytes s.ctl.sb) := by
  obtain ⟨hw, h⟩ := needAt_bind.1 h
  obtain ⟨-, h⟩ := needAt_bind.1 h
  obtain ⟨clear, hc, h⟩ := ok_bind_iff.1 h
  obtain ⟨-, hc⟩ := layout_bind.1 hc
  obtain ⟨-, hc⟩ := needAt_bind.1 hc
  have hclear : Req.u32 q 4 = 0 → clear = false := fun h0 => by rw [← pure_eq_ok.1 hc, h0]; rfl
  have ha := pure_eq_ok.1 h
  refine ⟨by simpa using hw, fun h0 => ?_, fun hk => ?_, fun hk => ?_, fun hk => ?_⟩
  · rw [← ha, hclear h0]
    split <;> rfl
  all_goals
    rw [← ha, hk]
    rfl

end

/-- Settles O30: each write's passed checks give the merged record and leave the group of state it stands in, so that storing it changes one
record; a snapshot changes the banks it names, and a read without CLEAR nothing. -/
theorem portCommandsTakeEffect : Obligations.PortCommandsTakeEffect := by
  refine ⟨?sdi, ?eth, ?addr, ?flow, ?sb, ?snapshot, ?read, ?out⟩
  case sdi =>
    intro q s l new u hs hc
    obtain ⟨hq, hlt, hnew⟩ := sdiWriteCheck_facts hc
    have hu : u.kept 0x200 = (taken q s).kept 0x200 := (sdiWriteCheck_ok ..).out _ hc
    have hk : (sdiWriteDo l new u).kept 0x6D2AD4 = (taken q s).kept 0x6D2AD4 := (sdiWriteDo_kept ..).trans (kept_mono (by decide) hu)
    refine ⟨_, serve_ok hs (cmdSdiWrite_eq hc), hq, hlt, by simpa using hnew, ?_, fun n hn => ?_, (rte_of_kept hk).trans (taken_rte ..),
      (cmp_of_kept hk).trans (taken_cmp ..), (cal_of_kept hk).trans (taken_cal ..), (pwr_of_kept hk).trans (taken_pwr ..)⟩
    · rw [sdiWriteDo_sdiCfg, if_pos rfl]
    · rw [sdiWriteDo_sdiCfg, if_neg hn, sdiCfg_of_sdi (sdi_of_kept hu), taken_sdiCfg]
  case eth =>
    intro q s n new hs hc
    obtain ⟨hq, hlt, hnew⟩ := ethWriteCheck_facts hc
    have hk : (ethWriteDo n new (taken q s)).kept 0x6F3CD4 = (taken q s).kept 0x6F3CD4 := ethWriteDo_kept ..
    refine ⟨_, serve_ok hs (cmdEthWrite_eq hc), hq, hlt, by simpa using hnew, ?_, fun m hm => ?_, (bud_of_kept hk).trans (taken_bud ..),
      (cmp_of_kept hk).trans (taken_cmp ..), (cal_of_kept hk).trans (taken_cal ..), (pwr_of_kept hk).trans (taken_pwr ..)⟩
    · rw [ethWriteDo_ethPort, if_pos rfl]
    · rw [ethWriteDo_ethPort, if_neg hm, taken_ethPort]
  case addr =>
    intro q s p new hs hc
    obtain ⟨hq, hlt, hnew⟩ := ethAddrWriteCheck_facts hc
    exact ⟨hq, hlt, by simpa using hnew, serve_ok hs (cmdEthAddrWrite_eq hc)⟩
  case flow =>
    intro q s f new hdr u hs hc
    obtain ⟨hq, hlt, hnew⟩ := pktFlowWriteCheck_facts hc
    have hu : u.kept 0x200 = (taken q s).kept 0x200 := (pktFlowWriteCheck_ok ..).out _ hc
    have hflo : u.flo = s.flo := (flo_of_kept hu).trans (taken_flo ..)
    obtain ⟨hpkt, hhdr⟩ := pktFlowWriteDo_flo f ((taken q s).pktRec f) new hdr u
    have hrec : ∀ n, (pktFlowWriteDo f ((taken q s).pktRec f) new hdr u).pktRec n = if n = f then new else s.pktRec n := fun n => by
      rw [State.pktRec, hpkt, tget_tset, hflo, State.pktRec]
    have htpl : ∀ n, (pktFlowWriteDo f ((taken q s).pktRec f) new hdr u).pktHdr n = if n = f then hdr else s.pktHdr n := fun n => by
      rw [State.pktHdr, hhdr, tget_tset, hflo, State.pktHdr]
    have hk : (pktFlowWriteDo f ((taken q s).pktRec f) new hdr u).kept 0x2200 = (taken q s).kept 0x2200 :=
      (pktFlowWriteDo_kept ..).trans (kept_mono (by decide) hu)
    exact ⟨_, serve_ok hs (cmdPktFlowWrite_eq hc), hq, hlt, by simpa using hnew, (hrec f).trans (if_pos rfl), (htpl f).trans (if_pos rfl),
      fun n hn => ⟨(hrec n).trans (if_neg hn), (htpl n).trans (if_neg hn)⟩, (mem_of_kept hk).trans (taken_mem ..),
      (rte_of_kept hk).trans (taken_rte ..), (eth_of_kept hk).trans (taken_eth ..), (pwr_of_kept hk).trans (taken_pwr ..)⟩
  case sb =>
    intro q s e hs hc
    have hk : (sbWriteDo e (taken q s)).kept 0x6C0014 = (taken q s).kept 0x6C0014 := sbWriteDo_kept ..
    refine ⟨by simpa using sbWriteCheck_facts hc, _, serve_ok hs (cmdSbWrite_eq hc), rfl, fun hon => sbWriteDo_on (by simpa using hon),
      (mem_of_kept hk).trans (taken_mem ..), (rte_of_kept hk).trans (taken_rte ..), (eth_of_kept hk).trans (taken_eth ..),
      (pwr_of_kept hk).trans (taken_pwr ..)⟩
  case snapshot =>
    intro q s hs ht hm
    have hk : ((taken q s).snapshot (maskList 4 (Req.u8 q 0))).kept 0x1000 = (taken q s).kept 0x1000 := State.snapshot_kept ..
    obtain ⟨hctr, hport⟩ := State.snapshot_frame (maskList 4 (Req.u8 q 0)) (taken q s)
    have h := serve_ok (peers := []) hs (cmdPortSnapshot_eq (s := taken q s) ht hm)
    rw [taken_now] at h
    refine ⟨_, h, fun n hn => ?_, by rw [hctr, taken_eth], by rw [hport, taken_eth], (mem_of_kept hk).trans (taken_mem ..),
      (rte_of_kept hk).trans (taken_rte ..)⟩
    rw [State.snapshot_bank]
    simp only [mem_maskList_iff, hn, true_and, taken_bank, taken_now, taken_ethCounters]
  case read =>
    intro q s a hs hc
    obtain ⟨hw, hkeep, hlane, haddr, hsb⟩ := cmdPortRead_facts hc
    simp only [taken_laneImage, taken_ethAddr, taken_ctl_sb] at hlane haddr hsb
    exact ⟨serve_ok hs hc, hw, hkeep, hlane, haddr, hsb⟩
  case out =>
    intro q s o new hs hc
    obtain ⟨hq, hlt, hnew⟩ := pktOutWriteCheck_facts hc
    exact ⟨hq, hlt, by simpa using hnew, serve_ok hs (cmdPktOutWrite_eq hc)⟩

end Sys2Proof.Machine
end

section
/-! PROOFS. What stands in STATUS stays there (R434, R440): through what a receiver's writers do to their rings (R45 to R57), what its line 1
judges (R105) and what the reference candidates of its lane make of it (R273). The flywheel of every lane is left as it is by all of them. -/

namespace Sys2Proof.Machine

open Sys2Proof

/-! ### STATUS grows -/

/-- Every code and location with STATUS set keeps it. -/
def StatusGrows (s t : State) : Prop := s.flt.status ⊆ t.flt.status

section
variable {s t u : State}

theorem StatusGrows.refl (s : State) : StatusGrows s s := List.Subset.refl _

theorem StatusGrows.trans (h : StatusGrows s t) (h' : StatusGrows t u) : StatusGrows s u := List.Subset.trans h h'

theorem StatusGrows.of_status (h : t.flt.status = s.flt.status) : StatusGrows s t := by
  rw [StatusGrows, h]
  exact List.Subset.refl _

theorem StatusGrows.of_kept {m : Nat} (h : t.kept m = s.kept m) (hm : m.testBit 4 = false := by rfl) : StatusGrows s t :=
  .of_status (congrArg FltSt.status (flt_of_kept h hm))

theorem State.raise_grows (e : Ev) (s : State) : StatusGrows s (s.raise e) := fun _ hp => State.raise_mono hp

theorem State.raise0_grows (c loc : Nat) (s : State) : StatusGrows s (s.raise0 c loc) := State.raise_grows ..

theorem foldl_grows {β : Type} {f : State → β → State} (h : ∀ s b, StatusGrows s (f s b)) (l : List β) (s : State) :
    StatusGrows s (l.foldl f s) :=
  List.foldlRecOn (motive := StatusGrows s) _ _ (.refl s) (fun t ht b _ => ht.trans (h t b))

end

/-! ### The candidates that follow a lane (R273, R276, R280) -/

section
variable (c : Nat) (s : State)

theorem State.enterHoldover_grows : StatusGrows s s.enterHoldover := by
  unfold State.enterHoldover
  split
  next w u hu =>
  have h : StatusGrows s u := by
    split at hu
    · exact (Prod.mk.inj hu).2 ▸ .of_kept (State.freeWord_kept (μ := 0x400000) ..)
    · exact (Prod.mk.inj hu).2 ▸ .refl s
  exact (h.trans (.of_kept (State.kept_onRef (m := 0x10000) ..))).trans (State.raise0_grows ..)

theorem State.candDown_grows : StatusGrows s (s.candDown c) := by
  unfold State.candDown
  extract_lets q v s1 s2
  have h1 : StatusGrows s s1 := .of_kept ((State.setCandSt_kept (μ := 0x10000) ..).trans (State.setQ_kept (μ := 0x10000) ..))
  have h2 : StatusGrows s1 s2 := by
    unfold s2
    split
    · exact State.raise_grows ..
    · exact .refl s1
  clear_value s1 s2
  unfold State.loseSelected
  split
  · exact (h1.trans h2).trans (State.enterHoldover_grows ..)
  · exact h1.trans h2

theorem State.syncCands_grows (cs : List Nat) : StatusGrows s (s.syncCands cs) := by
  refine foldl_grows (fun t c => ?_) cs s
  split
  · exact .of_kept (State.candUp_kept (μ := 0x10000) ..)
  · split
    · exact .refl t
    · exact State.candDown_grows ..

theorem State.rxCands_grows (x : Rx) : StatusGrows s (s.rxCands x) := by
  cases x with
  | lane l => exact State.syncCands_grows ..
  | flow r => exact .refl s

end

/-! ### A ring's writer (R45, R46, R49, R55, R57) -/

section
variable (r loc : Nat) (s : State)

theorem State.abandon_grows (ranOut : Bool) : StatusGrows s (s.abandon r ranOut) := .of_kept (State.abandon_kept (μ := 0x420C0) ..)

theorem State.abandonCounted_grows (ranOut : Bool) : StatusGrows s (s.abandonCounted r loc ranOut) :=
  ((State.abandon_grows r s ranOut).trans (.of_kept (State.onRingCtr_kept (μ := 0x40) ..))).trans (State.raise_grows ..)

/-- R204: a leg whose unit does not keep to the grid reports its drift. -/
theorem State.legOpen_grows (first : BitVec 32) : StatusGrows s (s.legOpen r first) := by
  refine foldl_grows (fun t e => ?_) _ s
  extract_lets hyb d wide drift was v s1
  have h1 : StatusGrows t s1 := .of_status rfl
  split
  · exact h1.trans (State.raise0_grows ..)
  · exact h1

theorem State.startUnit_grows : StatusGrows s (s.startUnit r loc) := by
  unfold State.startUnit
  extract_lets s1 s2 first w
  have h1 : StatusGrows s s1 := by
    unfold s1
    split
    · split
      · exact State.abandon_grows ..
      · exact State.abandonCounted_grows ..
    · exact .refl s
  have h2 : StatusGrows s1 s2 := by
    unfold s2
    split
    · exact State.abandon_grows ..
    · exact .refl s1
  refine (h1.trans h2).trans (StatusGrows.trans ?_ (State.legOpen_grows ..))
  exact .of_kept ((State.openMarker_kept (μ := 0x40) ..).trans (State.setWr_kept (μ := 0x40) ..))

theorem State.closeTile_grows (bytes : List Byte) (fin : Bool) : StatusGrows s (s.closeTile r loc bytes fin) := by
  unfold State.closeTile
  simp only
  split
  · exact .refl s
  · split
    · exact State.abandonCounted_grows ..
    · exact .of_status rfl

theorem State.closeTiles_grows (l : List (List Byte)) : StatusGrows s (l.foldl (fun s t => s.closeTile r loc t false) s) :=
  foldl_grows (fun t b => t.closeTile_grows r loc b false) l s

theorem State.feed_grows (bytes : List Byte) : StatusGrows s (s.feed r loc bytes) := by
  unfold State.feed
  extract_lets w all n s1
  have h1 : StatusGrows s s1 := State.closeTiles_grows ..
  split
  · exact .refl s
  · split
    · exact h1
    · exact h1

theorem State.flush_grows : StatusGrows s (s.flush r loc) := by
  unfold State.flush
  simp only
  split
  · exact .refl s
  · exact State.closeTile_grows ..

theorem State.feedLine_grows (line : List Byte) : StatusGrows s (s.feedLine r loc line) := by
  unfold State.feedLine
  extract_lets d w0 n1 t w b s1 w1 s2
  have ht : StatusGrows s t := by
    unfold t
    split <;> exact .of_status rfl
  have h1 : StatusGrows t s1 := by
    unfold s1
    split
    · exact State.closeTiles_grows ..
    · exact State.feed_grows ..
  have h2 : StatusGrows s s2 := (ht.trans h1).trans (.of_status rfl)
  split
  · exact h2.trans (State.flush_grows ..)
  · exact h2

theorem State.feedUnit_grows (bytes : List Byte) : StatusGrows s (s.feedUnit r loc bytes) := by
  unfold State.feedUnit
  extract_lets w all n s1
  have h1 : StatusGrows s s1 := State.closeTiles_grows ..
  split
  · exact .refl s
  · split
    · exact h1
    · exact h1

theorem State.endUnit_grows : StatusGrows s (s.endUnit r loc) := by
  unfold State.endUnit
  extract_lets w s1
  have h1 : StatusGrows s s1 := by
    unfold s1
    split
    · exact .refl s
    · exact State.closeTile_grows ..
  exact h1

theorem State.feedOrOpen_grows (bytes : List Byte) : StatusGrows s (s.feedOrOpen r loc bytes) := by
  unfold State.feedOrOpen
  simp only
  split
  · exact .refl s
  · refine StatusGrows.trans ?_ (State.feedUnit_grows ..)
    split
    · exact .refl s
    · exact State.startUnit_grows ..

theorem State.writeAudio_grows (bytes : List Byte) : StatusGrows s (s.writeAudio r loc bytes false) :=
  (State.startUnit_grows r loc s).trans (State.closeTile_grows ..)

/-- R105: line 1 of a source raises the timing episodes of the outputs that cut through it. -/
theorem State.sourceLine1_grows : StatusGrows s (s.sourceLine1 r) := by
  unfold State.sourceLine1 State.sourceLine1At
  extract_lets last s1
  refine StatusGrows.trans (t := s1) (.of_status rfl) (foldl_grows (fun t e => ?_) _ s1)
  split
  · split
    · exact .refl t
    · simp only
      split
      · exact .refl t
      · exact (StatusGrows.of_kept (State.setOut_kept (μ := 0x400) ..)).trans (State.raise_grows ..)
  · exact .refl t

end

end Sys2Proof.Machine
end

section
/-! PROOFS. A line of a locked receiver (R138, R143 to R145): its checks, and what the writing of its video, ancillary data and audio leaves of
lanes and STATUS. -/

namespace Sys2Proof.Machine

open Sys2Proof

/-! ### What the writing of a line leaves -/

/-- What a lane shows of its flywheel and its last line: neither is moved by what the line carries. -/
def LaneSt.flywheel (v : LaneSt) : Lock × Nat × Nat × Bool × BitVec 32 := (v.lock, v.badTrs, v.line, v.field2, v.timecode)

/-- Between `s` and `t` writers may have written: every flywheel stands as it was, and STATUS has only grown. -/
structure RxWrote (s t : State) : Prop where
  status : StatusGrows s t
  wheel : ∀ n, (t.lane n).flywheel = (s.lane n).flywheel

section
variable {s t u : State}

theorem RxWrote.refl (s : State) : RxWrote s s := ⟨.refl s, fun _ => rfl⟩

theorem RxWrote.trans (h : RxWrote s t) (h' : RxWrote t u) : RxWrote s u :=
  ⟨h.status.trans h'.status, fun n => (h'.wheel n).trans (h.wheel n)⟩

theorem RxWrote.of_grows {m : Nat} (h : StatusGrows s t) (hk : t.kept m = s.kept m) (hm : m.testBit 11 = false := by rfl) : RxWrote s t :=
  ⟨h, fun n => congrArg LaneSt.flywheel (State.lane_of_sdi (sdi_of_kept hk hm) n)⟩

theorem RxWrote.of_kept {m : Nat} (hk : t.kept m = s.kept m) (h4 : m.testBit 4 = false := by rfl) (h11 : m.testBit 11 = false := by rfl) :
    RxWrote s t := .of_grows (.of_kept hk h4) hk h11

theorem State.setRx_wrote (x : Rx) (v : LaneSt) (s : State) (h : ∀ l, x = .lane l → v.flywheel = (s.lane l).flywheel) :
    RxWrote s (s.setRx x v) := by
  refine ⟨.of_kept (State.setRx_kept (μ := 0x2800) ..), fun n => ?_⟩
  cases x with
  | lane l =>
    rw [State.setRx, State.lane_setLane]
    split
    · next hn => rw [hn]; exact h l rfl
    · rfl
  | flow r => rfl

theorem State.rxCount_wrote (x : Rx) (k : Nat) (s : State) : RxWrote s (s.rxCount x k) :=
  ⟨.of_kept (State.rxCount_kept (μ := 0x800) ..), fun n => congrArg LaneSt.flywheel (State.rxCount_lane ..)⟩

theorem State.raise0_wrote (c loc : Nat) (s : State) : RxWrote s (s.raise0 c loc) :=
  .of_grows (State.raise0_grows ..) (State.raise0_kept (μ := 0x2C0014) ..)

theorem foldl_wrote {β : Type} {f : State → β → State} (h : ∀ s b, RxWrote s (f s b)) (l : List β) (s : State) : RxWrote s (l.foldl f s) :=
  List.foldlRecOn (motive := RxWrote s) _ _ (.refl s) (fun t ht b _ => ht.trans (h t b))

end

/-! ### Video and ancillary data -/

section
variable (x src : Rx) (s : State)

theorem State.rxEndAnc_wrote : RxWrote s (s.rxEndAnc x) := by
  unfold State.rxEndAnc
  split
  · exact .refl s
  · exact .of_grows (State.endUnit_grows ..) (State.endUnit_kept (μ := 0x2C20D4) ..)

theorem State.rxLine1_wrote : RxWrote s (s.rxLine1 x) := by
  unfold State.rxLine1
  extract_lets s1 s2
  have h1 : RxWrote s s1 := by
    unfold s1
    split
    · exact .refl s
    · exact .of_grows (State.sourceLine1_grows ..) (State.sourceLine1_kept (μ := 0x2C0454) ..)
  exact (h1.trans (State.rxEndAnc_wrote ..)).trans (State.setRx_wrote x _ s2 (by rintro l rfl; rfl))

theorem State.rxVideo_wrote (i : LineInfo) : RxWrote s (s.rxVideo x i) := by
  unfold State.rxVideo
  split
  · exact .refl s
  · split
    · exact .refl s
    · extract_lets l v s1
      have h1 : RxWrote s s1 := by
        unfold s1
        split
        · have h0 : RxWrote s (s.setRx x { v with newFrame := false }) := State.setRx_wrote x _ s (by rintro l rfl; rfl)
          exact h0.trans (.of_grows (State.startUnit_grows ..) (State.startUnit_kept (μ := 0x2C20D4) ..))
        · exact .refl s
      exact h1.trans (.of_grows (State.feedLine_grows ..) (State.feedLine_kept (μ := 0x2C20D4) ..))

theorem State.rxPacket_wrote (p : AncPacket) : RxWrote s (s.rxPacket x src p) := by
  unfold State.rxPacket
  split
  · exact (State.rxCount_wrote ..).trans (State.raise0_wrote ..)
  · split
    · exact .refl s
    · split
      · exact .refl s
      · split
        · exact .refl s
        · split
          · exact State.rxCount_wrote ..
          · exact .of_grows (State.feedOrOpen_grows ..) (State.feedOrOpen_kept (μ := 0x2C20D4) ..)

/-! ### Audio -/

theorem State.rxTile_wrote (slot r loc : Nat) : RxWrote s (s.rxTile x slot r loc) := by
  unfold State.rxTile
  extract_lets d n v v1
  have h : RxWrote s (s.writeAudio r loc (tileBytes d v slot) false) :=
    .of_grows (State.writeAudio_grows ..) (State.writeAudio_kept (μ := 0x2C20D4) ..)
  exact h.trans (State.setRx_wrote x _ _ (by rintro l rfl; exact (h.wheel l).symm))

theorem State.rxCloseSlot_wrote (slot r loc : Nat) : RxWrote s (s.rxCloseSlot x slot r loc) := by
  unfold State.rxCloseSlot
  simp only
  split
  · exact State.rxTile_wrote ..
  · exact .refl s

/-- R204: aligning a group's words notes at most that it is aligned. -/
theorem State.rxAlign_flywheel (r g : Nat) (v : LaneSt) (words : List (BitVec 32)) : (s.rxAlign r g v words).2.flywheel = v.flywheel := by
  unfold State.rxAlign
  split
  · rfl
  · split
    · rfl
    · simp only
      split <;> rfl

theorem State.rxAudio_wrote (p : AudioPacket) : RxWrote s (s.rxAudio x src p) := by
  unfold State.rxAudio
  extract_lets g s1 s2
  have h1 : RxWrote s s1 := by
    unfold s1
    split
    · exact State.rxCount_wrote ..
    · exact .refl s
  have h2 : RxWrote s1 s2 := by
    unfold s2
    split
    · exact (State.rxCount_wrote ..).trans (State.raise0_wrote ..)
    · exact .refl s1
  split
  · exact h1.trans h2
  · next r hr =>
    extract_lets d w
    split
    next words v hv =>
    have hw : ∀ l, x = .lane l → v.flywheel = (s2.lane l).flywheel := by
      rintro l rfl
      have h := s2.rxAlign_flywheel r g (s2.lane l) (if p.uncorrectable then p.words.map (fun _ => zeroSample) else p.words)
      rwa [show s2.rxAlign r g (s2.lane l) _ = (words, v) from hv] at h
    extract_lets others pad v1
    split
    next pend mask hm =>
    extract_lets s3
    have h3 : RxWrote s2 s3 :=
      (State.setRx_wrote x { v1 with bPend := pend } s2 hw).trans (.of_kept (State.setRing_kept (μ := 0x40) ..))
    exact ((h1.trans h2).trans h3).trans (State.rxCloseSlot_wrote ..)

theorem State.rxSilence_wrote : RxWrote s (s.rxSilence x src) := by
  unfold State.rxSilence
  extract_lets ms step
  refine foldl_wrote (fun t slot => ?_) _ s
  split
  · exact .refl t
  · extract_lets v n s1
    split
    · exact State.setRx_wrote x _ t (by rintro l rfl; rfl)
    · have h1 : RxWrote t s1 := State.setRx_wrote x _ t (by rintro l rfl; rfl)
      split
      · exact h1.trans (State.rxTile_wrote ..)
      · exact h1

theorem State.rxLineAudio_wrote (owner : Option Rx) (i : LineInfo) : RxWrote s (s.rxLineAudio owner src i) := by
  unfold State.rxLineAudio
  split
  · exact .refl s
  · next x => exact (foldl_wrote (fun t p => t.rxAudio_wrote x src p) _ s).trans (State.rxSilence_wrote ..)

end

/-! ### The checks of a line, and the line -/

section
variable (l : Nat) (i : LineInfo) (s : State)

/-- The flywheel after the checks of a line (R138). -/
theorem State.rxChecks_lane (n : Nat) : (s.rxChecks (.lane l) i).lane n = if n = l then
    { s.lane l with line := (s.lane l).line % max 1 (s.linkTotal (.lane l)) + 1, badTrs := if i.trs then 0 else (s.lane l).badTrs + 1,
                    field2 := i.field2 } else s.lane n := by
  unfold State.rxChecks
  extract_lets v line sd s1 s2 s3
  have h1 : s1.lane n = if n = l then { v with line := line, badTrs := if i.trs then 0 else v.badTrs + 1, field2 := i.field2 } else s.lane n :=
    State.lane_setLane ..
  have h2 : s2.lane n = s1.lane n := by
    unfold s2
    split
    · rfl
    · rw [State.raise0_lane, State.rxCount_lane]
  have h3 : s3.lane n = s2.lane n := by
    unfold s3
    split
    · exact State.rxCount_lane ..
    · rfl
  refine Eq.trans ?_ ((h3.trans h2).trans h1)
  split
  · rw [State.raise0_lane, State.rxCount_lane]
  · rfl

/-- A line that fails its TRS check raises SDI_TRS_ERROR. -/
theorem State.rxChecks_trsError (h : i.trs = false) : (0x86, locSdiRx l) ∈ (s.rxChecks (.lane l) i).flt.status := by
  unfold State.rxChecks
  extract_lets v line sd s1 s2 s3
  have h2 : (0x86, locSdiRx l) ∈ s2.flt.status := by
    unfold s2
    rw [h, if_neg Bool.false_ne_true]
    exact State.raise_status ..
  have h3 : s3.flt.status = s2.flt.status := by
    unfold s3
    split
    · rw [State.rxCount_flt]
    · rfl
  rw [← h3] at h2
  split
  · exact State.raise_mono (by rwa [State.rxCount_flt])
  · exact h2

/-- A line of a link other than SD that fails its CRC raises SDI_CRC_ERROR. -/
theorem State.rxChecks_crcError (hl : (s.lane l).linkType ≠ 0) (h : i.crcOk = false) :
    (0x87, locSdiRx l) ∈ (s.rxChecks (.lane l) i).flt.status := by
  have hc : (!((s.rx (.lane l)).linkType == 0) && !i.crcOk) = true := by
    rw [h, show s.rx (.lane l) = s.lane l from rfl]
    simp [hl]
  unfold State.rxChecks
  simp only [hc, if_true]
  exact State.raise_status ..

/-- A line within the TRS errors that R138 allows: what it carries is written, and its timecode is kept. -/
theorem State.rxLine_wrote (owner : Option Rx) (h : ((s.rxChecks (.lane l) i).lane l).badTrs < 3) :
    ∃ u, RxWrote (s.rxChecks (.lane l) i) u ∧
      RxWrote (if i.timecode.isSome then u.setLane l { u.lane l with timecode := i.timecode.getD 0 } else u) (s.rxLine (.lane l) owner i) := by
  unfold State.rxLine
  extract_lets v0 t line t1 s1 src s2 writes s3 il s4 s5 s6
  rw [if_neg (by exact Nat.not_le.2 h)]
  have h1 : RxWrote t s1 := by
    unfold s1
    split
    · exact (State.setRx_wrote _ _ t (by rintro _ ⟨⟩; rfl)).trans (State.rxLine1_wrote ..)
    · exact .refl t
  refine ⟨s1, h1, ?_⟩
  show RxWrote s2 _
  clear_value s1 t
  have h3 : RxWrote s2 s3 := by
    unfold s3
    split
    · exact State.rxVideo_wrote ..
    · exact .refl s2
  have h4 : RxWrote s3 s4 := by
    unfold s4
    split
    · exact State.rxEndAnc_wrote ..
    · exact .refl s3
  have h5 : RxWrote s4 s5 := foldl_wrote (fun t p => t.rxPacket_wrote _ _ p) _ s4
  have h6 : RxWrote s5 s6 := by
    unfold s6
    split
    · exact State.rxLineAudio_wrote ..
    · exact .refl s5
  refine (((h3.trans h4).trans h5).trans h6).trans ?_
  split
  · exact State.rxEndAnc_wrote ..
  · exact .refl s6

end

end Sys2Proof.Machine
end

section
/-! PROOFS. The search, the lock and its loss (R135 to R142, R145): what each event of an unbonded lane's receiver leaves of the lane and of
STATUS. -/

namespace Sys2Proof.Machine

open Sys2Proof

/-! ### Loss of lock raises SDI_SIGNAL_LOST -/

@[simp] theorem State.rx_lane (k : Nat) (s : State) : s.rx (.lane k) = s.lane k := rfl

section
variable (l : Nat) (lock : Lock) (s : State)

theorem State.rxEndCauses_grows (x : Rx) : StatusGrows s (s.rxEndCauses x) := by
  unfold State.rxEndCauses
  simp only
  split <;> split <;> exact .of_status rfl

theorem State.rxLose_grows (event : Bool) : StatusGrows s (s.rxLose (.lane l) lock event) := by
  unfold State.rxLose
  extract_lets v s1 s2 s3 s4
  have h1 : StatusGrows s s1 := by
    unfold s1
    split
    · exact .of_kept (State.rxStop_kept (μ := 0x428C0) ..)
    · exact .refl s
  have h2 : StatusGrows s1 s2 := (State.rxEndCauses_grows s1 _).trans (.of_status rfl)
  have h3 : StatusGrows s2 s3 := by
    unfold s3
    split
    · exact .of_kept (State.rxCount_kept (μ := 0x800) ..)
    · exact .refl s2
  have h4 : StatusGrows s3 s4 := by
    unfold s4
    split
    · exact State.raise0_grows ..
    · exact .refl s3
  exact (((h1.trans h2).trans h3).trans h4).trans (State.rxCands_grows ..)

theorem State.rxLose_status (h : (s.lane l).lock = .cdrLocked ∨ (s.lane l).lock = .formatLocked) :
    (0x81, locSdiRx l) ∈ (s.rxLose (.lane l) lock true).flt.status := by
  have hc : (true && (decide ((s.rx (.lane l)).lock = .cdrLocked) || decide ((s.rx (.lane l)).lock = .formatLocked))) = true := by
    rw [Bool.true_and, Bool.or_eq_true, decide_eq_true_eq, decide_eq_true_eq]
    exact h
  unfold State.rxLose
  simp only [hc, if_true]
  exact State.rxCands_grows _ _ (State.raise_status ..)

/-- Outside a bonded group a lane loses lock by itself. -/
theorem State.laneLose_unbonded (hb : s.rxBond l = 0) : s.laneLose l lock = s.rxLose (.lane l) lock true := by
  unfold State.laneLose State.rxFollower
  simp [hb]

end

/-! ### The events of the search (R135) -/

section
variable {l : Fin 144} {s : State}

theorem execSignalPresence_starts (ho : s.rxOn l.val = true) (hl : (s.lane l.val).lock = .noSignal) : execSignalPresence l s =
    .next (s.fresh.setLane l.val { s.lane l.val with present := true, lock := .searching, attempt := 0, cdr := false }) := by
  have hc : (s.fresh.rxOn l.val && decide ((s.fresh.lane l.val).lock = .noSignal)) = true := by
    rw [show s.fresh.rxOn l.val = true from ho, State.fresh_lane, hl]
    rfl
  unfold execSignalPresence
  simp only [hc, if_true]
  rfl

theorem execSignalPresence_notes (h : s.rxOn l.val = false ∨ (s.lane l.val).lock ≠ .noSignal) :
    execSignalPresence l s = .next (s.fresh.setLane l.val { s.lane l.val with present := true }) := by
  have hc : (s.fresh.rxOn l.val && decide ((s.fresh.lane l.val).lock = .noSignal)) = false := by
    rw [Bool.and_eq_false_iff, decide_eq_false_iff_not]
    exact h
  unfold execSignalPresence
  simp only [hc, Bool.false_eq_true, if_false]
  rfl

/-- The state in which an unbonded lane's absence of signal is taken note of. -/
def State.absent (l : Nat) (s : State) : State := s.fresh.setLane l { s.lane l with present := false }

theorem State.absent_lane (k : Nat) (s : State) : (s.absent k).lane k = { s.lane k with present := false } := State.lane_setLane_same ..

theorem execSignalAbsence_eq : execSignalAbsence l s = .next (if ((s.absent l.val).lane l.val).lock = .noSignal then s.absent l.val
    else (s.absent l.val).laneLose l.val .noSignal) := rfl

theorem execSignalAbsence_idle (hl : (s.lane l.val).lock = .noSignal) : execSignalAbsence l s = .next (s.absent l.val) := by
  rw [execSignalAbsence_eq, State.absent_lane, if_pos hl]

theorem execSignalAbsence_loses (hb : s.rxBond l.val = 0) (hl : (s.lane l.val).lock ≠ .noSignal) :
    execSignalAbsence l s = .next ((s.absent l.val).rxLose (.lane l.val) .noSignal true) := by
  rw [execSignalAbsence_eq, State.absent_lane, if_neg hl, State.laneLose_unbonded _ _ _ (show (s.absent l.val).rxBond l.val = 0 from hb)]

theorem execRateAttempt_goesOn (hl : (s.lane l.val).lock = .searching) (hc : (s.lane l.val).cdr = false) :
    execRateAttempt l s = .next (s.fresh.nextRate l.val) := by
  unfold execRateAttempt
  simp [hl, hc, done]

theorem execTrsSearchTimeout_goesOn (hl : (s.lane l.val).lock = .searching) (hc : (s.lane l.val).cdr = true) :
    execTrsSearchTimeout l s = .next (s.fresh.nextRate l.val) := by
  unfold execTrsSearchTimeout
  simp [hl, hc, done]

/-- The next rate of the order is tried, without CDR lock. -/
theorem State.nextRate_lane (k : Nat) (s : State) : (s.nextRate k).lane k =
    { s.lane k with cdr := false, attempt := ((s.lane k).attempt + 1) % (s.searchOrder k).length } := State.lane_setLane_same ..

theorem execCdrLock_locks (hl : (s.lane l.val).lock = .searching) :
    execCdrLock l s = .next (s.fresh.setLane l.val { s.lane l.val with cdr := true }) := by
  unfold execCdrLock
  simp [hl, done]

theorem execTrsAlignment_locks (hl : (s.lane l.val).lock = .searching) (hc : (s.lane l.val).cdr = true) : execTrsAlignment l s =
    .next (s.fresh.setLane l.val { s.lane l.val with lock := .cdrLocked, cdr := false, cand := none }) := by
  unfold execTrsAlignment
  simp [hl, hc, done]

/-- The events of a search do nothing outside one. -/
theorem execSearch_idle (hl : (s.lane l.val).lock ≠ .searching) : execRateAttempt l s = .next s.fresh ∧ execCdrLock l s = .next s.fresh ∧
    execTrsAlignment l s = .next s.fresh ∧ execTrsSearchTimeout l s = .next s.fresh := by
  simp [execRateAttempt, execCdrLock, execTrsAlignment, execTrsSearchTimeout, hl, done]

/-! ### Loss of CDR lock (R139) -/

theorem execCdrLockLoss_searching (hl : (s.lane l.val).lock = .searching) :
    execCdrLockLoss l s = .next (s.fresh.setLane l.val { s.lane l.val with cdr := false }) := by
  unfold execCdrLockLoss
  simp only [State.fresh_lane, hl]
  rfl

theorem execCdrLockLoss_noSignal (hl : (s.lane l.val).lock = .noSignal) : execCdrLockLoss l s = .next s.fresh := by
  unfold execCdrLockLoss
  simp only [State.fresh_lane, hl]
  rfl

theorem execCdrLockLoss_locked (hl : (s.lane l.val).lock = .cdrLocked ∨ (s.lane l.val).lock = .formatLocked) :
    execCdrLockLoss l s = .next (s.fresh.laneLose l.val .searching) := by
  unfold execCdrLockLoss
  rcases hl with hl | hl <;> simp only [State.fresh_lane, hl] <;> rfl

/-! ### A line (R138) -/

variable {i : LineInfo}

theorem execSdiLine_idle (hl : (s.lane l.val).lock = .noSignal ∨ (s.lane l.val).lock = .searching) :
    execSdiLine l i s = .next s.fresh := by
  unfold execSdiLine State.laneLine
  rcases hl with hl | hl <;> simp only [State.fresh_lane, hl] <;> rfl

theorem execSdiLine_line1 (hl : (s.lane l.val).lock = .cdrLocked) (hn : i.number = 1) (ht : i.trs = true) :
    execSdiLine l i s = .next (s.fresh.setLane l.val { s.lane l.val with line1Time := s.now }) := by
  unfold execSdiLine State.laneLine
  simp only [State.fresh_lane, hl, hn, ht, decide_true, Bool.and_self, if_true]
  rfl

theorem execSdiLine_locked (hb : s.rxBond l.val = 0) (hl : (s.lane l.val).lock = .formatLocked) :
    execSdiLine l i s = .next (s.fresh.rxLine (.lane l.val) (s.fresh.audOwner l.val) i) := by
  have hb' : (s.fresh.rxBond l.val != 0) = false := by
    rw [show s.fresh.rxBond l.val = 0 from hb]
    rfl
  unfold execSdiLine State.laneLine
  simp only [State.fresh_lane, hl, hb']
  rfl

/-- R138: a third line in a row that fails its TRS check loses lock. -/
theorem State.rxLine_loses (k : Nat) (owner : Option Rx) (s : State) (h : 3 ≤ ((s.rxChecks (.lane k) i).lane k).badTrs) :
    s.rxLine (.lane k) owner i = (s.rxChecks (.lane k) i).rxLose (.lane k) .searching true := if_pos h

/-! ### A frame (R136, R141, R142) -/

/-- Between `s` and `t` the video writer of lane `k` has been fitted to a format: whether it stops and whether it is over budget may have
changed, and STATUS has only grown. -/
structure RxFitted (k : Nat) (s t : State) : Prop where
  status : StatusGrows s t
  lane : ∃ stop above, t.lane k = { s.lane k with stop := stop, overBudget := above }

theorem State.rxFit_fitted (k : Nat) (f : VFmt) (s : State) : RxFitted k s (s.rxFit (.lane k) f).1 := by
  unfold State.rxFit
  extract_lets v loc settle
  have hsettle : ∀ t stop above, StatusGrows s t → t.sdi = s.sdi → RxFitted k s (settle t stop above) := by
    intro t stop above hg hs
    unfold settle
    simp only
    split
    · refine ⟨hg.trans (.of_status rfl), stop, above, (State.lane_setLane_same ..).trans ?_⟩
      rw [show (t.endCause 0x85 loc).rx (.lane k) = t.lane k from rfl, State.lane_of_sdi hs]
    · refine ⟨hg.trans (.of_status rfl), stop, above, (State.lane_setLane_same ..).trans ?_⟩
      rw [State.rx_lane, State.lane_of_sdi hs]
  clear_value settle
  split
  · exact hsettle s false false (.refl s) rfl
  · extract_lets d
    split
    · exact hsettle s false false (.refl s) rfl
    · split
      · exact hsettle s true false (.refl s) rfl
      · split
        · refine hsettle _ false false (.of_kept (m := 0x40) ?_) (sdi_of_kept (m := 0x40) ?_) <;>
            exact (State.kept_onMem ..).trans (State.setRing_kept ..)
        · exact hsettle _ true true (State.raise0_grows ..) (State.raise0_sdi ..)

/-- R136: two frames have agreed on a format that may be received: the lane is FORMAT_LOCKED on it, with its event. -/
theorem State.rxEstablish_locks (k : Nat) (f : VFmt) (link : Nat) (contra : Bool) {s t : State}
    (ht : s.rxEstablish (.lane k) f link true contra false = t) :
    (t.lane k).lock = .formatLocked ∧ (t.lane k).fmt = some f ∧ (0x80, locSdiRx k) ∈ t.flt.status ∧
      (contra = true → (0x88, locSdiRx k) ∈ t.flt.status) := by
  unfold State.rxEstablish at ht
  extract_lets v loc _ _ _ s1 s2 differs at ht
  rw [if_neg (by decide)] at ht
  split at ht
  next s3 followed hfit =>
  extract_lets changed s4 at ht
  subst ht
  obtain ⟨hg, stop, above, hl3⟩ : RxFitted k s2 s3 := (congrArg (fun p => RxFitted k s2 p.1) hfit).mp (s2.rxFit_fitted k f)
  have hl1 : (s1.lane k).lock = .formatLocked ∧ (s1.lane k).fmt = some f := by
    have h : s1.lane k = _ := State.lane_setLane_same ..
    rw [h]
    exact ⟨rfl, rfl⟩
  have hl2 : s2.lane k = s1.lane k := by
    unfold s2
    split
    · exact State.raise0_lane ..
    · rfl
  have h88 : contra = true → (0x88, locSdiRx k) ∈ s2.flt.status := fun hc => by
    unfold s2
    rw [if_pos hc]
    exact State.raise_status ..
  have h4 : StatusGrows (s3.raise0 0x80 loc) s4 ∧ s4.lane k = s3.lane k := by
    unfold s4
    rw [if_neg Bool.false_ne_true]
    split
    · exact ⟨State.raise_grows .., by rw [State.raise_lane, State.raise0_lane]⟩
    · exact ⟨.refl _, State.raise0_lane ..⟩
  obtain ⟨hg4, hl4⟩ := h4
  have hlane : (s4.rxCands (.lane k)).lane k = { s1.lane k with stop := stop, overBudget := above } := by
    rw [State.rxCands_lane, hl4, hl3, hl2]
  have hgrows : StatusGrows (s3.raise0 0x80 loc) (s4.rxCands (.lane k)) := hg4.trans (State.rxCands_grows ..)
  refine ⟨?_, ?_, hgrows (State.raise_status ..), fun hc => hgrows (State.raise_mono (hg (h88 hc)))⟩
  · rw [hlane]; exact hl1.1
  · rw [hlane]; exact hl1.2

end

end Sys2Proof.Machine
end

section
/-! PROOFS. Frames, timeouts and lost audio of a receiver, links of a bonded group, and a transmitter's fault (R132, R133, R136, R137, R140,
R145, R156); the lock states of SDI lanes settled. -/

namespace Sys2Proof.Machine

open Sys2Proof

/-! ### A frame of an unbonded lane (R136) -/

section
variable {l : Nat} {i : FrameInfo} {s : State} {f : VFmt} {c : Bool}

theorem State.rxFrame_idle (hl : (s.lane l).lock = .noSignal ∨ (s.lane l).lock = .searching) : s.rxFrame (.lane l) i = s := by
  unfold State.rxFrame
  rcases hl with hl | hl <;> simp only [State.setRx, State.rx_lane, State.lane_setLane_same, hl]

/-- The lane's record as a frame ends: its link by ST 352, where the frame has one. -/
def LaneSt.named (i : FrameInfo) (v : LaneSt) : LaneSt :=
  { v with st352 := if i.pid.isSome then i.st352 else 0, link := match i.pid with | some (_, _, n) => n | none => 4 }

/-- The state in which the format of a lane's frame is judged: a contradiction of ST 352 is counted (R155). -/
def State.frameJudged (l : Nat) (i : FrameInfo) (contra : Bool) (s : State) : State :=
  if contra then (s.setLane l ((s.lane l).named i)).rxCount (.lane l) 4 else s.setLane l ((s.lane l).named i)

/-- A frame of a lane that is CDR_LOCKED, of a format that may be received: with a frame that agreed before, it locks, otherwise it is noted. -/
theorem State.rxFrame_cdrLocked (hl : (s.lane l).lock = .cdrLocked) (hj : s.rxJudge (.lane l) i = (f, true, c)) :
    s.rxFrame (.lane l) i = if (s.lane l).cand.any (sameFormat f) && (s.lane l).candLink = i.link
      then (s.frameJudged l i c).rxEstablish (.lane l) f i.link true c false
      else (s.frameJudged l i c).setLane l { (s.lane l).named i with cand := some f, candLink := i.link } := by
  unfold State.rxFrame
  extract_lets v0 link u v
  have hv : v = (s.lane l).named i := State.lane_setLane_same ..
  have hj' : u.rxJudge (.lane l) i = (f, true, c) := hj
  simp only [hj', hv]
  split
  · rfl
  · next h => exact absurd (hl.symm.trans h) (by decide)
  · next h _ => exact absurd hl h

theorem State.rxFrame_notes (hl : (s.lane l).lock = .cdrLocked) (hj : s.rxJudge (.lane l) i = (f, true, c)) (hn : (s.lane l).cand = none) :
    (s.rxFrame (.lane l) i).lane l = { (s.lane l).named i with cand := some f, candLink := i.link } := by
  rw [State.rxFrame_cdrLocked hl hj, hn, Option.any_none, Bool.false_and, if_neg Bool.false_ne_true, State.lane_setLane_same]

theorem State.rxFrame_agrees {g : VFmt} (hl : (s.lane l).lock = .cdrLocked) (hj : s.rxJudge (.lane l) i = (f, true, c))
    (hg : (s.lane l).cand = some g) (hs : sameFormat f g = true) (hk : (s.lane l).candLink = i.link) :
    s.rxFrame (.lane l) i = (s.frameJudged l i c).rxEstablish (.lane l) f i.link true c false := by
  rw [State.rxFrame_cdrLocked hl hj, hg, Option.any_some, hs, hk, if_pos (by simp)]

theorem execSdiFrame_unbonded {l : Fin 144} (hb : s.rxBond l.val = 0) :
    execSdiFrame l i s = .next (s.fresh.rxFrame (.lane l.val) i) := congrArg Host.Outcome.next (if_pos hb)

end

/-! ### Timeouts and lost audio (R137, R145) -/

section
variable {l : Fin 144} {s : State}

theorem execLockTimeout_idle (hl : (s.lane l.val).lock = .noSignal ∨ (s.lane l.val).lock = .formatLocked) :
    execLockTimeout (.lane l) s = .next s.fresh := by
  unfold execLockTimeout rxOf
  rcases hl with hl | hl <;> simp [hl, done]

theorem execLockTimeout_restarts (hb : s.rxBond l.val = 0)
    (hl : (s.lane l.val).lock = .searching ∨ ((s.lane l.val).lock = .cdrLocked ∧ (s.lane l.val).unsup = false)) :
    execLockTimeout (.lane l) s =
      .next ((s.fresh.setLane l.val ((s.lane l.val).unlocked .searching)).raise0 0x82 (locSdiRx l.val)) := by
  have hc : (decide ((s.lane l.val).lock = .searching) || (decide ((s.lane l.val).lock = .cdrLocked) && !(s.lane l.val).unsup)) = true := by
    simpa using hl
  have hn : (s.lane l.val).lock ≠ .noSignal := by
    rcases hl with h | ⟨h, -⟩ <;> rw [h] <;> decide
  have ht : s.fresh.timedOut (.lane l.val) = [.lane l.val] := by
    have hb' : s.fresh.rxBond l.val = 0 := hb
    simp [State.timedOut, hb']
  unfold execLockTimeout rxOf
  simp only [State.rx_lane, State.fresh_lane, ht, List.foldl_cons, List.foldl_nil, hn, if_false]
  exact if_pos hc

/-- A group that is lost for the first time in a bound slot raises SDI_AUDIO_GROUP_LOST. -/
theorem State.rxGroupLost_status {k g r : Nat} (hr : s.audRingOf (.lane k) (g / 4) = some r) (hn : (s.lane k).lost.contains g = false) :
    (0x8A, locSdiRx k) ∈ (s.rxGroupLost (.lane k) (.lane k) g).flt.status := by
  unfold State.rxGroupLost
  simp only [hr, State.rx_lane, hn, Bool.false_eq_true, if_false]
  exact (State.rxCloseSlot_wrote ..).status (State.raise_status ..)

theorem State.rxGroupLost_idle {k g : Nat} (h : s.audRingOf (.lane k) (g / 4) = none ∨ (s.lane k).lost.contains g = true) :
    s.rxGroupLost (.lane k) (.lane k) g = s := by
  unfold State.rxGroupLost
  split
  · rfl
  · next r hr =>
    rcases h with h | h
    · rw [hr] at h; cases h
    · exact if_pos h

theorem execAudioGroupAbsence_unbonded (hb : s.rxBond l.val = 0) (g : Fin 8) : execAudioGroupAbsence (.lane l) g s =
    .next (if s.rxWrites (.lane l.val) then s.fresh.rxGroupLost (.lane l.val) (.lane l.val) g.val else s.fresh) := by
  have hb' : s.fresh.rxBond l.val = 0 := hb
  unfold execAudioGroupAbsence
  simp only [State.rxFollower, State.audOwner, hb', bne_self_eq_false, Bool.and_false, Bool.false_eq_true, if_false, if_true]
  rfl

end

/-! ### A bonded group loses lock as a whole (R133) -/

section
variable (l ld : Nat) (lock : Lock) (s : State)

theorem State.linkLose_lane (n : Nat) : (s.linkLose l lock).lane n = if n = l then (s.lane l).unlocked lock else s.lane n := by
  unfold State.linkLose
  extract_lets v s1 s2
  have h2 : s2.lane n = s1.lane n := by
    unfold s2
    split
    · exact State.rxCount_lane ..
    · rfl
  rw [State.rxCands_lane]
  refine Eq.trans ?_ (h2.trans (State.lane_setLane ..))
  split
  · exact State.raise0_lane ..
  · rfl

theorem State.foldl_linkLose_lock (goal : Nat → Lock) (ks : List Nat) (n : Nat) :
    ((ks.foldl (fun s k => s.linkLose k (goal k)) s).lane n).lock = if n ∈ ks then goal n else (s.lane n).lock := by
  induction ks generalizing s with
  | nil => rfl
  | cons k ks ih =>
    rw [List.foldl_cons, ih, State.linkLose_lane]
    by_cases hn : n = k
    · subst hn
      simp [LaneSt.unlocked]
    · simp [hn]

/-- Where each lane of a group that loses lock by its lane `l` goes: it where it must, the others where their signal lets them. -/
def State.groupGoal (s : State) (l : Nat) (lock : Lock) (k : Nat) : Lock :=
  if k = l then lock else if (s.lane k).present then .searching else .noSignal

theorem State.groupLose_eq : s.groupLose ld l lock = ([ld + 1, ld + 2, ld + 3].foldl (fun t k => t.linkLose k (s.groupGoal l lock k)) s).rxLose
    (.lane ld) (s.groupGoal l lock ld) true := rfl

theorem State.groupLose_lock {k : Nat} (hk : k = ld ∨ k ∈ [ld + 1, ld + 2, ld + 3]) :
    ((s.groupLose ld l lock).lane k).lock = s.groupGoal l lock k := by
  rw [State.groupLose_eq]
  by_cases h : k = ld
  · subst h
    rw [State.rxLose_lane_same]
    rfl
  · rw [State.rxLose_lock_of_ne _ _ _ _ h, State.foldl_linkLose_lock, if_pos (hk.resolve_left h)]

theorem State.laneLose_bonded (hb : s.rxBond l ≠ 0) (hl : (s.lane (leaderOf l)).lock = .formatLocked) :
    s.laneLose l lock = s.groupLose (leaderOf l) l lock := if_pos (by simp [hb, hl])

/-- The lanes of a group are its leader and the three that follow. -/
theorem mem_group_of_leaderOf {k ld : Nat} (h : leaderOf k = ld) : k = ld ∨ k ∈ [ld + 1, ld + 2, ld + 3] := by
  simp only [leaderOf] at h
  simp only [List.mem_cons, List.not_mem_nil, or_false]
  omega

end

/-! ### A link's frame without an identifier (R133) -/

/-- Between `s` and `t` a frame without an identifier has ended on link `l`: it has no number, and no lane's report of the group has changed. -/
structure Unnamed (l : Nat) (s t : State) : Prop where
  link : (t.lane l).link = 4
  bondBad : ∀ n, (t.lane n).bondBad = (s.lane n).bondBad

/-- A link that has measured or established a format (R136). -/
def LaneSt.seen (v : LaneSt) : Bool := v.own.isSome || v.cand.isSome

section
variable {l : Nat} {s t : State}

theorem Unnamed.of_lanes {u : State} (h : Unnamed l s t) (hu : ∀ n, u.lane n = t.lane n) : Unnamed l s u :=
  ⟨by rw [hu, h.link], fun n => by rw [hu, h.bondBad]⟩

theorem Unnamed.setLane {v : LaneSt} (h : Unnamed l s t) (hv : v.link = (t.lane l).link) (hb : v.bondBad = (t.lane l).bondBad) :
    Unnamed l s (t.setLane l v) := by
  refine ⟨by rw [State.lane_setLane_same, hv, h.link], fun n => ?_⟩
  rw [State.lane_setLane]
  split
  · next hn => rw [hb, h.bondBad, hn]
  · exact h.bondBad n

theorem Unnamed.dropped {owns : Nat → Prop} {u : State} (h : Unnamed l s t) (hd : AudioDropped owns t u) : Unnamed l s u := by
  refine ⟨?_, fun n => ?_⟩
  · obtain ⟨_, _, _, e⟩ := hd.lanes l
    rw [e, h.link]
  · obtain ⟨_, _, _, e⟩ := hd.lanes n
    rw [e, h.bondBad]

/-- R136, R140: the link goes on with a format of its own or one that it has measured. -/
theorem State.linkFrame_unnamed {i : FrameInfo} (hp : i.pid = none) :
    Unnamed l s (s.linkFrame l i) ∧ ((s.linkFrame l i).lane l).seen = true := by
  unfold State.linkFrame
  extract_lets v0 ld u v
  have hu : Unnamed l s u := by
    refine ⟨?_, fun n => ?_⟩
    · rw [State.lane_setLane_same, hp]
    · rw [State.lane_setLane]
      split
      · next hn => rw [hn]
      · rfl
  have hv : u.lane l = v := rfl
  clear_value u v
  split
  next f supported contra hj =>
  extract_lets s1 agrees next
  have h1 : Unnamed l s s1 := by
    unfold s1
    split
    · exact hu.of_lanes (fun n => State.rxCount_lane ..)
    · exact hu
  have hl1 : s1.lane l = v := by
    unfold s1
    split
    · exact (State.rxCount_lane ..).trans hv
    · exact hv
  have hnext : ∀ w, Unnamed l s w → Unnamed l s (next w) ∧ ((next w).lane l).seen = true := by
    intro w hw
    unfold next
    extract_lets z y s2
    split
    · exact ⟨hw.setLane rfl rfl, by rw [State.lane_setLane_same]; exact Bool.or_true _⟩
    · have h2 : Unnamed l s s2 ∧ (s2.lane l).seen = true := by
        refine ⟨hw.setLane ?_ ?_, ?_⟩
        · split <;> rfl
        · split <;> rfl
        · rw [State.lane_setLane_same]
          split <;> rfl
      split
      · exact ⟨h2.1.of_lanes (fun n => State.raise0_lane ..), by rw [State.raise0_lane]; exact h2.2⟩
      · exact h2
  clear_value next s1
  split
  · exact hnext s1 h1
  · next g t hown =>
    split
    · split
      · refine ⟨(h1.of_lanes (fun n => State.rxCount_lane ..)).setLane ?_ ?_, ?_⟩
        · rw [State.rxCount_lane, hl1]
        · rw [State.rxCount_lane, hl1]
        · rw [State.lane_setLane_same, LaneSt.seen, hown]
          rfl
      · refine ⟨h1, ?_⟩
        rw [hl1, LaneSt.seen, hown]
        rfl
    · refine hnext _ ?_
      split
      · exact h1.dropped (State.rxStop_dropped ..)
      · exact h1

/-- A group one of whose links has no identifier is without lock, and says so once (R133). -/
theorem State.groupJudge_unnamed {ld : Nat} (steady : Bool) (hk : l = ld ∨ l ∈ [ld + 1, ld + 2, ld + 3]) (hn : (s.lane l).link = 4)
    (hseen : (s.lane l).seen = true) (hb : (s.lane ld).bondBad = false) :
    (0x8C, locSdiRx ld) ∈ (s.groupJudge ld steady).flt.status ∧ ((s.groupJudge ld steady).lane ld).bondBad = true ∧
      ((s.groupJudge ld steady).lane ld).lock ≠ .formatLocked := by
  unfold State.groupJudge
  extract_lets x ls seen v s1 s2
  have hany : seen.any (fun u => decide (4 ≤ u.link)) = true :=
    List.any_eq_true.2 ⟨s.lane l, List.mem_filter.2 ⟨List.mem_map_of_mem (List.mem_cons.2 hk), hseen⟩, by rw [hn]; rfl⟩
  have h1 : (s1.lane ld).lock ≠ .formatLocked := by
    unfold s1
    split
    · rw [State.groupLose_lock _ _ _ _ (.inl rfl), State.groupGoal, if_pos rfl]
      decide
    · next h => exact h
  have h2 : s2 = s1.raise0 0x8C (locSdiRx ld) := if_neg (by rw [show v.bondBad = false from hb]; decide)
  rw [hany, Bool.true_or, Bool.true_or, if_pos rfl, State.lane_setLane_same]
  refine ⟨?_, rfl, ?_⟩
  · change _ ∈ s2.flt.status
    rw [h2]
    exact State.raise_status ..
  · change (s2.lane ld).lock ≠ _
    rw [h2, State.raise0_lane]
    exact h1

theorem execSdiFrame_bonded {l : Fin 144} {i : FrameInfo} (hb : s.rxBond l.val ≠ 0)
    (hl : (s.lane l.val).lock = .cdrLocked ∨ (s.lane l.val).lock = .formatLocked) :
    ∃ steady, execSdiFrame l i s = .next ((s.fresh.linkFrame l.val i).groupJudge (leaderOf l.val) steady) := by
  have hb' : s.fresh.rxBond l.val ≠ 0 := hb
  have hc : ¬ (decide ((s.fresh.lane l.val).lock = .noSignal) || decide ((s.fresh.lane l.val).lock = .searching)) = true := by
    rcases hl with h | h <;> simp [h]
  unfold execSdiFrame State.laneFrame
  rw [if_neg hb']
  exact ⟨_, congrArg done (if_neg hc)⟩

end

/-! ### A transmitter's fault (R156) -/

section
variable (l : Nat) (s : State)

theorem State.contain_status (e : Ev) (forced : Bool) : (e.code, e.loc) ∈ (s.contain e forced).flt.status :=
  State.raiseWith_status (.inl rfl)

@[simp] theorem State.contain_lane (e : Ev) (forced : Bool) (n : Nat) : (s.contain e forced).lane n = s.lane n :=
  State.lane_of_sdi (sdi_of_kept (State.contain_kept (μ := 0x2C0014) ..)) n

/-- A transmitter taken off its output: no other lane and no route follows. -/
theorem State.txIsolate_lane (n : Nat) : (s.txIsolate l).lane n =
    if n = l then { s.lane l with txFault := true, txOut := none, txGen := false } else s.lane n := by
  unfold State.txIsolate
  simp only
  split
  · split <;> exact State.lane_setLane ..
  · exact State.lane_setLane ..

theorem State.txIsolate_routes : (s.txIsolate l).rte.active = s.rte.active ∧ (s.txIsolate l).rte.pending = s.rte.pending := by
  unfold State.txIsolate
  simp only
  split
  · split <;> exact ⟨rfl, rfl⟩
  · exact ⟨rfl, rfl⟩

/-- An output whose last lane has gone is quiet. -/
theorem State.txIsolate_quiet {o : Nat} (ho : (s.lane l).txOut = some o) (h : ∀ e ∈ (s.txIsolate l).sdi.lanes, e.2.txOut ≠ some o) :
    Emit.quiet o ∈ (s.txIsolate l).emitted := by
  unfold State.txIsolate at h ⊢
  simp only [ho] at h ⊢
  split at h
  · next hany =>
    obtain ⟨e, he, hq⟩ := List.any_eq_true.1 hany
    exact absurd (beq_iff_eq.1 hq) (h e he)
  · next hany =>
    rw [if_neg hany]
    exact List.mem_append_right _ (List.mem_singleton.2 rfl)

theorem execSdiTxFault_isolates {l : Fin 144} {s : State} (h : s.txOn l.val = true) : execSdiTxFault l s =
    .next ((s.fresh.contain (Ev.plain 0x8D (locSdiTx l.val)) false).txIsolate l.val) := by
  have h' : s.fresh.txOn l.val = true := h
  unfold execSdiTxFault
  simp only [h']
  rfl

theorem execSdiTxFault_idle {l : Fin 144} {s : State} (h : s.txOn l.val = false) : execSdiTxFault l s = .next s.fresh := by
  have h' : s.fresh.txOn l.val = false := h
  unfold execSdiTxFault
  simp only [h']
  rfl

end

end Sys2Proof.Machine
end

section
/-! PROOFS. The lock states of SDI lanes (R135 to R139, R145, R155, R156): what each event of a lane reports, and the obligation settled. -/

namespace Sys2Proof.Machine

open Sys2Proof

/-! ### An unbonded lane's signal and lock go -/

section
variable {l : Fin 144} {s : State}

theorem execSignalAbsence_unbonded (hb : s.rxBond l.val = 0) : ∃ t, execSignalAbsence l s = .next t ∧ (t.lane l.val).present = false ∧
    (t.lane l.val).lock = .noSignal ∧ ((s.lane l.val).lock = .cdrLocked ∨ (s.lane l.val).lock = .formatLocked →
      (0x81, locSdiRx l.val) ∈ t.flt.status) ∧ ∀ n, n ≠ l.val → t.lane n = s.lane n := by
  by_cases hl : (s.lane l.val).lock = .noSignal
  · refine ⟨_, execSignalAbsence_idle hl, ?_, ?_, fun h => ?_, fun n hn => State.lane_setLane_of_ne _ _ _ _ hn⟩
    · rw [State.absent_lane]
    · rw [State.absent_lane, hl]
    · rw [hl] at h
      exact absurd h (by decide)
  · refine ⟨_, execSignalAbsence_loses hb hl, ?_, ?_, fun h => State.rxLose_status _ _ _ ?_, fun n hn => ?_⟩
    · rw [State.rxLose_lane_same, State.absent_lane]
      rfl
    · rw [State.rxLose_lane_same]
      rfl
    · rwa [State.absent_lane]
    · exact (State.rxLose_lane_of_ne _ _ _ _ (show (s.absent l.val).rxBond l.val = 0 from hb) hn).trans
        (State.lane_setLane_of_ne _ _ _ _ hn)

theorem execCdrLockLoss_unbonded (hb : s.rxBond l.val = 0) (hl : (s.lane l.val).lock = .cdrLocked ∨ (s.lane l.val).lock = .formatLocked) :
    execCdrLockLoss l s = .next (s.fresh.rxLose (.lane l.val) .searching true) := by
  rw [execCdrLockLoss_locked hl, State.laneLose_unbonded _ _ _ (show s.fresh.rxBond l.val = 0 from hb)]

/-- A group that loses lock by one of its lanes: that lane searches again, the others where their signal lets them. -/
theorem execCdrLockLoss_bonded (hb : s.rxBond l.val ≠ 0) (hld : (s.lane (leaderOf l.val)).lock = .formatLocked)
    (hl : (s.lane l.val).lock = .cdrLocked ∨ (s.lane l.val).lock = .formatLocked) : ∃ t, execCdrLockLoss l s = .next t ∧
      ∀ k, leaderOf k = leaderOf l.val → (t.lane k).lock = s.groupGoal l.val .searching k := by
  refine ⟨_, execCdrLockLoss_locked hl, fun k hk => ?_⟩
  rw [State.laneLose_bonded _ _ _ (show s.fresh.rxBond l.val ≠ 0 from hb) hld, State.groupLose_lock _ _ _ _ (mem_group_of_leaderOf hk)]
  rfl

/-! ### A line of a locked lane (R138) -/

variable {i : LineInfo}

/-- Of an unbonded lane the flywheel runs over the lines of its format. -/
theorem State.linkTotal_unbonded {k : Nat} (hb : s.rxBond k = 0) :
    s.linkTotal (.lane k) = match (s.lane k).fmt with | some f => totalLines f.lines | none => 1 := by
  unfold State.linkTotal
  rw [State.rx_lane]
  cases (s.lane k).fmt <;> simp [hb]

/-- What a line whose TRS is good leaves: the flywheel has advanced by one line, and what the checks found stands in STATUS. -/
theorem State.rxLine_trsOk {k : Nat} (owner : Option Rx) (ht : i.trs = true) :
    ∃ tc, (∀ c, i.timecode = some c → tc = c) ∧ ((s.rxLine (.lane k) owner i).lane k).flywheel =
        ((s.lane k).lock, 0, (s.lane k).line % max 1 (s.linkTotal (.lane k)) + 1, i.field2, tc) ∧
      StatusGrows (s.rxChecks (.lane k) i) (s.rxLine (.lane k) owner i) := by
  have hc := s.rxChecks_lane k i k
  rw [if_pos rfl, ht, if_pos rfl] at hc
  obtain ⟨u, hu, hw⟩ := s.rxLine_wrote k i owner (by rw [hc]; exact Nat.succ_pos 2)
  have huk := hu.wheel k
  rw [hc] at huk
  have hv := hw.wheel k
  have hg := hw.status
  cases htc : i.timecode with
  | none =>
    rw [htc] at hv hg
    exact ⟨(s.lane k).timecode, nofun, hv.trans huk, hu.status.trans hg⟩
  | some c =>
    rw [htc] at hv hg
    simp only [Option.isSome_some, if_true, State.lane_setLane_same, Option.getD_some] at hv
    simp only [LaneSt.flywheel, Prod.mk.injEq] at huk hv ⊢
    obtain ⟨hlock, hbad, hline, hfield, -⟩ := huk
    obtain ⟨vlock, vbad, vline, vfield, vtc⟩ := hv
    exact ⟨c, fun _ h => Option.some.inj h, ⟨vlock.trans hlock, vbad.trans hbad, vline.trans hline, vfield.trans hfield, vtc⟩,
      hu.status.trans hg⟩

/-- A third line in a row whose TRS fails: both of its events stand in STATUS, and the lane searches again. -/
theorem State.rxLine_thirdBad {k : Nat} (owner : Option Rx) (hl : (s.lane k).lock = .formatLocked) (ht : i.trs = false)
    (hbad : 2 ≤ (s.lane k).badTrs) : ((s.rxLine (.lane k) owner i).lane k).lock = .searching ∧
      (0x86, locSdiRx k) ∈ (s.rxLine (.lane k) owner i).flt.status ∧ (0x81, locSdiRx k) ∈ (s.rxLine (.lane k) owner i).flt.status := by
  have hc := s.rxChecks_lane k i k
  rw [if_pos rfl, ht, if_neg Bool.false_ne_true] at hc
  rw [State.rxLine_loses k owner s (by rw [hc]; exact Nat.succ_le_succ hbad)]
  refine ⟨?_, State.rxLose_grows _ _ _ true (State.rxChecks_trsError _ _ _ ht), State.rxLose_status _ _ _ (.inr ?_)⟩
  · rw [State.rxLose_lane_same]
    rfl
  · rw [hc]
    exact hl

/-! ### A link's frame without an identifier (R133), and a transmitter's fault (R156) -/

theorem execSdiFrame_unnamed {i : FrameInfo} (hb : s.rxBond l.val ≠ 0)
    (hl : (s.lane l.val).lock = .cdrLocked ∨ (s.lane l.val).lock = .formatLocked) (hp : i.pid = none)
    (hbad : (s.lane (leaderOf l.val)).bondBad = false) : ∃ t, execSdiFrame l i s = .next t ∧
      (0x8C, locSdiRx (leaderOf l.val)) ∈ t.flt.status ∧ (t.lane (leaderOf l.val)).bondBad = true ∧
      (t.lane (leaderOf l.val)).lock ≠ .formatLocked := by
  obtain ⟨steady, he⟩ := execSdiFrame_bonded (i := i) hb hl
  obtain ⟨⟨hlink, hbond⟩, hseen⟩ := State.linkFrame_unnamed (l := l.val) (s := s.fresh) hp
  exact ⟨_, he, State.groupJudge_unnamed steady (mem_group_of_leaderOf rfl) hlink hseen ((hbond _).trans hbad)⟩

theorem execSdiTxFault_takesLane (h : s.txOn l.val = true) : ∃ t, execSdiTxFault l s = .next t ∧
    (0x8D, locSdiTx l.val) ∈ t.flt.status ∧ (t.lane l.val).txFault = true ∧ (t.lane l.val).txOut = none ∧
    (∀ o, (s.lane l.val).txOut = some o → (∀ e ∈ t.sdi.lanes, e.2.txOut ≠ some o) → Emit.quiet o ∈ t.emitted) ∧
    (∀ n, n ≠ l.val → t.lane n = s.lane n) ∧ t.rte.active = s.rte.active ∧ t.rte.pending = s.rte.pending := by
  have hrte : (s.fresh.contain (Ev.plain 0x8D (locSdiTx l.val)) false).rte = s.rte := rte_of_kept (State.contain_kept (μ := 0x2C0014) ..)
  refine ⟨_, execSdiTxFault_isolates h, ?_, ?_, ?_, fun o ho hq => ?_, fun n hn => ?_, ?_⟩
  · rw [flt_of_kept (State.txIsolate_kept (μ := 0xC00) ..)]
    exact State.contain_status _ (Ev.plain 0x8D (locSdiTx l.val)) _
  · rw [State.txIsolate_lane, if_pos rfl]
  · rw [State.txIsolate_lane, if_pos rfl]
  · exact State.txIsolate_quiet _ _ (by rwa [State.contain_lane]) hq
  · rw [State.txIsolate_lane, if_neg hn, State.contain_lane, State.fresh_lane]
  · rw [← hrte]
    exact State.txIsolate_routes ..

end

/-- Settles O46. A lane that loses lock restarts by `State.rxLose`, a group by `State.groupLose`; what a line's writers do leaves the flywheel
alone (`RxWrote`). -/
theorem sdiReceiversSearchLockAndLose : Obligations.SdiReceiversSearchLockAndLose := by
  unfold Obligations.SdiReceiversSearchLockAndLose
  refine ⟨?presence, ?presenceNoted, ?absence, ?rate, ?searchIdle, ?cdr, ?trs, ?trsTimeout, ?loss, ?lossSearching, ?lossNoSignal, ?lineIdle,
    ?line1, ?line, ?thirdBad, ?frameIdle, ?frameFirst, ?frameAgrees, ?timeout, ?timeoutIdle, ?audioLost, ?audioIdle, ?groupLoss, ?unnamed,
    ?txFault, ?txIdle⟩
  case presence =>
    intro s l ho hl
    refine ⟨_, execSignalPresence_starts ho hl, ?_, ?_, ?_, fun n hn => State.lane_setLane_of_ne _ _ _ _ hn⟩ <;> rw [State.lane_setLane_same]
  case presenceNoted => exact fun s l h => execSignalPresence_notes h
  case absence => exact fun s l hb => execSignalAbsence_unbonded hb
  case rate =>
    intro s l hl hc
    refine ⟨_, execRateAttempt_goesOn hl hc, ?_, ?_⟩ <;> rw [State.nextRate_lane]
    · exact hl
    · rfl
  case searchIdle => exact fun s l hl => execSearch_idle hl
  case cdr => exact fun s l hl => execCdrLock_locks hl
  case trs =>
    intro s l hl hc
    refine ⟨_, execTrsAlignment_locks hl hc, ?_, ?_, fun n hn => State.lane_setLane_of_ne _ _ _ _ hn⟩ <;> rw [State.lane_setLane_same]
  case trsTimeout =>
    intro s l hl hc
    refine ⟨_, execTrsSearchTimeout_goesOn hl hc, ?_, ?_, ?_⟩ <;> rw [State.nextRate_lane]
    · exact hl
    · rfl
  case loss =>
    intro s l hb hl
    refine ⟨_, execCdrLockLoss_unbonded hb hl, ?_, ?_, State.rxLose_status _ _ _ hl, fun h => ?_, fun h => ?_⟩
    · rw [State.rxLose_lane_same]; rfl
    · rw [State.rxLose_lane_same]; rfl
    · rw [State.rxLose_ctr, State.fresh_lane, if_pos h, State.rxCount_ctr]
      rfl
    · rw [State.rxLose_ctr, State.fresh_lane, if_neg (by rw [h]; decide)]
      rfl
  case lossSearching => exact fun s l hl => execCdrLockLoss_searching hl
  case lossNoSignal => exact fun s l hl => execCdrLockLoss_noSignal hl
  case lineIdle => exact fun s l i hl => execSdiLine_idle hl
  case line1 => exact fun s l i hl hn ht => execSdiLine_line1 hl hn ht
  case line =>
    intro s l i hb hl ht
    obtain ⟨tc, htc, hw, hg⟩ := State.rxLine_trsOk (s := s.fresh) (k := l.val) (s.fresh.audOwner l.val) ht
    rw [State.linkTotal_unbonded (show s.fresh.rxBond l.val = 0 from hb)] at hw
    simp only [LaneSt.flywheel, Prod.mk.injEq] at hw
    obtain ⟨hlock, hbad, hline, hfield, hcode⟩ := hw
    exact ⟨_, execSdiLine_locked hb hl, hlock.trans hl, hbad, hline, hfield, fun c h => hcode.trans (htc c h),
      fun hk hcrc => hg (State.rxChecks_crcError _ _ _ hk hcrc)⟩
  case thirdBad =>
    intro s l i hb hl ht hbad
    exact ⟨_, execSdiLine_locked hb hl, State.rxLine_thirdBad _ hl ht hbad⟩
  case frameIdle =>
    intro s l i hb hl
    exact (execSdiFrame_unbonded hb).trans (congrArg _ (State.rxFrame_idle hl))
  case frameFirst =>
    intro s l i f c hb hl hj hn
    have h : (s.fresh.rxFrame (.lane l.val) i).lane l.val = _ := State.rxFrame_notes hl hj hn
    refine ⟨_, execSdiFrame_unbonded hb, ?_, ?_, ?_⟩ <;> rw [h]
    exact hl
  case frameAgrees =>
    intro s l i f c g hb hl hj hg hs hk
    exact ⟨_, execSdiFrame_unbonded hb, State.rxEstablish_locks l.val f i.link c (State.rxFrame_agrees (s := s.fresh) hl hj hg hs hk).symm⟩
  case timeout =>
    intro s l hb hl
    refine ⟨_, execLockTimeout_restarts hb hl, ?_, ?_, State.raise_status ..⟩ <;> rw [State.raise0_lane, State.lane_setLane_same] <;> rfl
  case timeoutIdle => exact fun s l hl => execLockTimeout_idle hl
  case audioLost =>
    intro s l g r hb hw hr hn
    refine ⟨_, execAudioGroupAbsence_unbonded hb g, ?_⟩
    rw [if_pos hw]
    exact State.rxGroupLost_status hr hn
  case audioIdle =>
    intro s l g hb h
    refine (execAudioGroupAbsence_unbonded hb g).trans (congrArg _ ?_)
    rcases h with h | h
    · rw [h, if_neg Bool.false_ne_true]
    · rw [State.rxGroupLost_idle (s := s.fresh) h, ite_self]
  case groupLoss =>
    intro s l hb hld hl
    obtain ⟨t, ht, hk⟩ := execCdrLockLoss_bonded hb hld hl
    exact ⟨t, ht, (hk l.val rfl).trans (if_pos rfl), fun k hl hn => (hk k hl).trans (if_neg hn)⟩
  case unnamed => exact fun s l i hb hl hp hbad => execSdiFrame_unnamed hb hl hp hbad
  case txFault => exact fun s l h => execSdiTxFault_takesLane h
  case txIdle => exact fun s l h => execSdiTxFault_idle h

end Sys2Proof.Machine
end

section
/-! PROOFS. A PTP message whose stamp is lost (R305, R169): as it leaves, PTP_TS_OVERFLOW signals its vector, so that a message is not all
that leaves the device in its step. -/

namespace Sys2Proof.Machine

open Sys2Proof

/-- Sub-port 0 is UP and a Delay_Req of the first PTP record waits there, whose stamp the environment reports lost (R305); the firmware runs, the host
has enumerated the function, PTP_TS_OVERFLOW is enabled, and its vector is not masked. -/
def State.softStampWaits : State := { State.reset with
  pwr := { State.reset.pwr with bootState := .firmware }
  ctl := { State.reset.ctl with enumerated := true, msix := tset msixReset [] (0xEE / 4) 0 }
  flt := { State.reset.flt with evCfg := tset evCfgReset [] 0xEE (fput (evCfgReset 0xEE) EvCfg.enable 1) }
  ptp := { State.reset.ptp with inst := tset instReset [] 0 (fput (instReset 0) Inst.instEn 1) }
  eth := { State.reset.eth with sub := tset subReset [] 0 { subReset 0 with link := .up, txq := [.ptp 0 1 0 true] } } }

/-- The message leaves behind the vector of its event. -/
theorem execMgmtFrameSend_softStampWaits : ∃ t, execMgmtFrameSend 0 State.softStampWaits = .next t ∧
    t.emitted = [.msix (0xEE / 4), .ptp 0 1 0 none false] := ⟨_, rfl, by decide⟩

/-- Refutes O47: its clause on a PTP message that leaves says that nothing else does, for one whose stamp is lost too. There
PTP_TS_OVERFLOW (R305) is raised as the message leaves, and while its code is enabled its MSI-X vector leaves first (R449). -/
theorem not_ethernetPortsReceiveAndPause : ¬ Obligations.EthernetPortsReceiveAndPause := by
  intro h
  obtain ⟨-, -, -, -, -, -, -, -, -, -, -, -, -, -, hptp, -⟩ := h
  obtain ⟨t, ht, -, -, -, hemitted⟩ := hptp State.softStampWaits 0 0 1 0 true none [] rfl (by decide) (by decide) (by decide)
  obtain ⟨u, hu, hboth⟩ := execMgmtFrameSend_softStampWaits
  have htu : t = u := Host.Outcome.next.inj (ht.symm.trans hu)
  rw [htu, hboth] at hemitted
  exact absurd (congrArg List.length hemitted) (by decide)

end Sys2Proof.Machine
end

section
/-! PROOFS. The FLOW commands on entries and ingest records (R178 to R180, R185, R411, R412): where an entry stands after a placement, what
a depacketiser that stops leaves of the flow group, what each command's passed checks say and what it leaves. -/

namespace Sys2Proof.Machine

open Sys2Proof

/-! ### Placement (R179) -/

section
variable {f g : Flow} {p : FlowPlace} {e : BitVec 384} {t : List Flow}

theorem mem_putFlow : g ∈ putFlow f t ↔ g = f ∨ g ∈ t := by
  induction t with
  | nil => simp [putFlow]
  | cons x l ih =>
    unfold putFlow
    split
    · simp
    · simp only [List.mem_cons, ih]
      tauto

theorem mem_dropFlow : g ∈ dropFlow p t ↔ g ∈ t ∧ g.place ≠ p := by simp [dropFlow]

/-- An entry of a key that has counted nothing. -/
def Flow.Fresh (e : BitVec 384) (f : Flow) : Prop := f.key = e ∧ f.pkts = 0 ∧ f.octets = 0

theorem Flow.Fresh.moved (h : f.Fresh e) (p : FlowPlace) : Flow.Fresh e { f with place := p } := h

/-- A fresh entry of the key has a place of the table to itself, so that whatever displaces it carries it on. -/
def HoldsPlace (e : BitVec 384) (t : List Flow) : Prop := ∃ a ∈ t, a.Fresh e ∧ ∀ g ∈ t, g.place = a.place → g = a

/-- An entry that takes a place from which every other was dropped has it to itself. -/
theorem holdsPlace_put (h : f.Fresh e) : HoldsPlace e (putFlow { f with place := p } (dropFlow p t)) := by
  refine ⟨_, mem_putFlow.2 (.inl rfl), h.moved p, fun g hg hp => ?_⟩
  rcases mem_putFlow.1 hg with hg | hg
  · exact hg
  · exact absurd hp (mem_dropFlow.1 hg).2

/-- One that stands elsewhere keeps its place. -/
theorem holdsPlace_of_ne {a : Flow} (ha : a ∈ t) (hf : a.Fresh e) (hu : ∀ g ∈ t, g.place = a.place → g = a) (hp : a.place ≠ p) :
    HoldsPlace e (putFlow { f with place := p } (dropFlow p t)) := by
  refine ⟨a, mem_putFlow.2 (.inr (mem_dropFlow.2 ⟨ha, hp⟩)), hf, fun g hg hga => ?_⟩
  rcases mem_putFlow.1 hg with rfl | hg
  · exact absurd hga.symm hp
  · exact hu g (mem_dropFlow.1 hg).1 hga

/-- However often entries displace one another, a fresh entry that waits for a place or has one to itself stands in the table in the end. -/
theorem cuckoo_fresh {fuel : Nat} {choice : Nat → Nat} {not_ : Option FlowPlace} {l : List Flow}
    (h : cuckoo fuel choice f not_ t = some l) (hf : f.Fresh e ∨ HoldsPlace e t) : ∃ a ∈ l, a.Fresh e := by
  induction fuel generalizing f not_ t with
  | zero => cases h
  | succ fuel ih =>
    simp only [cuckoo] at h
    split at h
    · next p _ =>
      obtain rfl := Option.some.inj h
      rcases hf with hf | ⟨a, ha, haf, -⟩
      · exact ⟨_, mem_putFlow.2 (.inl rfl), hf.moved p⟩
      · exact ⟨a, mem_putFlow.2 (.inr ha), haf⟩
    · split at h
      · cases h
      · next p _ =>
        split at h
        · cases h
        · next g hg =>
          refine ih h ?_
          rcases hf with hf | ⟨a, ha, haf, hau⟩
          · exact .inr (holdsPlace_put hf)
          · by_cases hp : a.place = p
            · have hgp : g.place = a.place := by simpa [hp] using List.find?_some hg
              exact .inl (hau g (List.mem_of_find?_eq_some hg) hgp ▸ haf)
            · exact .inr (holdsPlace_of_ne ha haf hau hp)

theorem placeFlow_fresh {choice : Nat → Nat} {l : List Flow} (h : placeFlow choice f t = some l) (hf : f.Fresh e) : ∃ a ∈ l, a.Fresh e := by
  unfold placeFlow at h
  split at h
  · next hc => exact Option.some.inj h ▸ cuckoo_fresh hc (.inl hf)
  · obtain ⟨i, -, rfl⟩ := Option.map_eq_some_iff.1 h
    exact ⟨_, mem_putFlow.2 (.inl rfl), hf.moved (.stash i)⟩

end

/-! ### A depacketiser that stops (R179) -/

/-- The flow group without what depacketisers and merge pairs keep while they run. -/
def FloSt.still (f : FloSt) : FloSt := { f with dep := [], mergeSt := [] }

section
variable (r : Nat) (s : State)

theorem State.legState_still (first : BitVec 32) (k : MarkState) : (s.legState r first k).flo.still = s.flo.still := by
  unfold State.legState
  refine foldl_leaves (fun t : State => t.flo.still) (fun t e => ?_) _ s
  rfl

theorem State.abandon_still (ranOut : Bool) : (s.abandon r ranOut).flo.still = s.flo.still := by
  unfold State.abandon
  extract_lets d w here n committed s1 mine s2 s3 s4
  have h1 : s1.flo = s.flo := flo_of_kept (kept_foldl (m := 0xC0) (fun _ _ => State.poisonTile_kept ..) ..)
  have h2 : s2.flo = s.flo := h1
  have h3 : s3.flo.still = s.flo.still := by
    refine (State.legState_still ..).trans ?_
    rw [flo_of_kept (State.onMarker_kept (μ := 0x40) ..), h2]
  have h4 : s4.flo.still = s.flo.still := by
    unfold s4
    split
    · rw [flo_of_kept (State.sendAbandon_kept (μ := 0x40000) ..), h3]
    · exact h3
  split
  · exact h4
  · rw [flo_of_kept (State.skipTiles_kept (μ := 0x40) ..), h4]

theorem State.stopWriter_still : (s.stopWriter r).flo.still = s.flo.still := by
  unfold State.stopWriter
  split
  · exact State.abandon_still ..
  · rfl

theorem State.setRx_still (x : Rx) (v : LaneSt) : (s.setRx x v).flo.still = s.flo.still := by cases x <;> rfl

theorem State.rxAbandon_still (part : Rx × Nat × Nat) (whole : Bool) : (s.rxAbandon part whole).flo.still = s.flo.still := by
  obtain ⟨x, k, r⟩ := part
  unfold State.rxAbandon
  simp only
  split
  · split
    · split
      · exact State.abandon_still ..
      · rw [flo_of_kept (State.onRingCtr_kept (μ := 0x40) ..), State.abandon_still]
    · rfl
  · split
    · rw [flo_of_kept (State.onRingCtr_kept (μ := 0x40) ..), State.setRx_still]
    · rfl

theorem State.rxStop_still (x : Rx) (whole : Bool) : (s.rxStop x whole).flo.still = s.flo.still :=
  foldl_leaves (fun t : State => t.flo.still) (fun t p => t.rxAbandon_still p whole) _ s

/-- A receiver that is stopped, with no event of its own. -/
theorem State.rxLose_still (x : Rx) (lock : Lock) : (s.rxLose x lock false).flo.still = s.flo.still := by
  unfold State.rxLose
  extract_lets v s1 s2 s3 s4
  have h1 : s1.flo.still = s.flo.still := by
    unfold s1
    split
    · exact State.rxStop_still ..
    · rfl
  have h2 : s2.flo.still = s.flo.still := by
    refine (State.setRx_still ..).trans ?_
    rw [flo_of_kept (State.rxEndCauses_kept (μ := 0x10) ..), h1]
  rw [flo_of_kept (State.rxCands_kept (μ := 0x6D0014) ..)]
  exact h2

theorem State.depStop_still : (s.depStop r).flo.still = s.flo.still := by
  unfold State.depStop
  extract_lets s1 s2 v
  have h1 : s1.flo.still = s.flo.still := by
    unfold s1
    split
    · rfl
    · exact State.rxLose_still ..
  exact (State.stopWriter_still r s1).trans h1

theorem State.depStop_table : (s.depStop r).flo.table = s.flo.table := (congrArg FloSt.table (State.depStop_still r s) :)

theorem State.depStop_ingest : (s.depStop r).flo.ingest = s.flo.ingest := (congrArg FloSt.ingest (State.depStop_still r s) :)

end

/-! ### What the operations of the FLOW commands leave of the flow group -/

section
variable (r : Nat) (s : State)

theorem State.dep_setDep (d : DepSt) (n : Nat) : (s.setDep r d).dep n = if n = r then d else s.dep n := tget_tset ..

@[simp] theorem State.dep_setDep_same (d : DepSt) : (s.setDep r d).dep r = d := tget_tset_same ..

@[simp] theorem State.setDep_table (d : DepSt) : (s.setDep r d).flo.table = s.flo.table := rfl

@[simp] theorem State.setDep_ingest (d : DepSt) : (s.setDep r d).flo.ingest = s.flo.ingest := rfl

@[simp] theorem State.setFlows_table (t : List Flow) : (s.setFlows t).flo.table = t := rfl

@[simp] theorem State.setFlows_ingest (t : List Flow) : (s.setFlows t).flo.ingest = s.flo.ingest := rfl

@[simp] theorem State.syncWcred_flo : (s.syncWcred r).flo = s.flo := flo_of_kept (State.syncWcred_kept (μ := 0x40) ..)

@[simp] theorem State.syncWcreds_flo (l : List Nat) : (s.syncWcreds l).flo = s.flo := flo_of_kept (State.syncWcreds_kept (μ := 0x40) ..)

@[simp] theorem State.membership_flo (e : BitVec 384) (before : List Flow) : (s.membership e before).flo = s.flo :=
  flo_of_kept (State.membership_kept (μ := 0x1000) ..)

@[simp] theorem State.syncWcreds_tiles (l : List Nat) : (s.syncWcreds l).mem.tiles = s.mem.tiles :=
  foldl_leaves (fun t : State => t.mem.tiles) (fun t r => t.syncWcred_tiles r) l s

end

/-! ### A request taken up shows the same entries -/

section
variable (q : Req) (s : State)

@[simp] theorem taken_findFlow (e : BitVec 384) : (taken q s).findFlow e = s.findFlow e := by simp [State.findFlow]

@[simp] theorem taken_dep (r : Nat) : (taken q s).dep r = s.dep r := by simp [State.dep]

@[simp] theorem taken_ingest (r : Nat) : (taken q s).ingest r = s.ingest r := by simp [State.ingest]

@[simp] theorem taken_flowImage (f : Flow) : (taken q s).flowImage f = s.flowImage f := by simp [State.flowImage]

end

/-! ### What the passed checks say -/

section
variable {q : Req} {s u : State} {e : BitVec 384} {f : Flow} {l : List Flow}

theorem needFlow_eq_ok {off : Nat} : needFlow s e off = .ok f ↔ s.findFlow e = some f := by
  unfold needFlow
  split
  · next h => simp [h]
  · next h => simp [h, errAt]

theorem flowInsertEntry_facts (h : flowInsertEntry q s = .ok e) : e = Req.entry q 0 ∧ s.findFlow e = none := by
  obtain ⟨-, h⟩ := layout_bind.1 h
  simp only at h
  split at h
  · cases h
  · obtain ⟨hn, h⟩ := need_bind.1 h
    cases pure_eq_ok.1 h
    exact ⟨rfl, by simpa using hn⟩

/-- The table that passes holds the new entry, its counters at 0. -/
theorem flowInsertPlace_facts (h : flowInsertPlace e s = .ok l) : ∃ f ∈ l, f.Fresh e := by
  unfold flowInsertPlace at h
  simp only at h
  split at h
  · cases h
  · next l' hp =>
    split at h
    · cases h
    · cases pure_eq_ok.1 h
      split at hp
      · cases hp
      · exact placeFlow_fresh hp ⟨rfl, rfl, rfl⟩

theorem flowInsertCheck_facts (h : flowInsertCheck q s = .ok (e, l, u)) :
    (e = Req.entry q 0 ∧ s.findFlow e = none) ∧ ∃ f ∈ l, f.Fresh e := by
  obtain ⟨e', he, h⟩ := ok_bind_iff.1 h
  obtain ⟨u', -, h⟩ := ok_bind_iff.1 h
  obtain ⟨l', hl, h⟩ := ok_bind_iff.1 h
  cases pure_eq_ok.1 h
  exact ⟨flowInsertEntry_facts he, flowInsertPlace_facts hl⟩

theorem flowModifyCheck_facts (h : flowModifyCheck q s = .ok (e, u)) : e = Req.entry q 0 ∧ (s.findFlow e).isSome = true := by
  obtain ⟨-, h⟩ := layout_bind.1 h
  obtain ⟨f, hf, h⟩ := ok_bind_iff.1 h
  simp only at h
  split at h
  · cases h
  · split at h
    · cases h
    · have hsome : (s.findFlow (Req.entry q 0)).isSome = true := by rw [needFlow_eq_ok.1 hf]; rfl
      split at h
      · obtain ⟨_, -, h⟩ := ok_bind_iff.1 h
        cases pure_eq_ok.1 h
        exact ⟨rfl, hsome⟩
      · cases pure_eq_ok.1 h
        exact ⟨rfl, hsome⟩

theorem ingestWriteCheck_facts {r : Nat} {new : BitVec 64} (h : ingestWriteCheck q s = .ok (r, new, u)) :
    r = Req.u32 q 0 ∧ r < 8192 ∧ new = mergeRec Ingest.layout (s.ingest r) (Req.recordBytes q 8) := by
  obtain ⟨hr, h⟩ := index_bind.1 h
  obtain ⟨-, h⟩ := noTarget_bind.1 h
  obtain ⟨new', hn, h⟩ := ok_bind_iff.1 h
  obtain ⟨_, -, h⟩ := ok_bind_iff.1 h
  cases pure_eq_ok.1 h
  exact ⟨rfl, hr, writeRecordX_eq hn⟩

end

/-! ### What the commands leave -/

section
variable {q : Req} {s u : State} {e : BitVec 384} {f : Flow} {l : List Flow}

/-- What a command whose passed checks leave a state keeps of its state, it keeps of the one its request was sent to. -/
theorem kept_of_cmd {m : Nat} {cmd : Req → State → Res} {t : State} {res : List Byte}
    (h : OkKept m ((taken q s).kept m) (fun x => x.1) (cmd q (taken q s))) (hc : cmd q (taken q s) = .ok (t, res))
    (hm : 0x4 &&& m = 0x4 := by decide) : t.kept m = s.kept m :=
  (h.out _ hc).trans (kept_mono hm (taken_kept q s))

theorem cmdFlowInsert_eq (h : flowInsertCheck q s = .ok (e, l, u)) : cmdFlowInsert q s = .ok (flowInsertDo e l u, []) := by
  rw [cmdFlowInsert, h]
  rfl

theorem flowInsertDo_flo : (flowInsertDo e l s).flo.table = l ∧ (flowInsertDo e l s).flo.ingest = s.flo.ingest := by
  unfold flowInsertDo
  extract_lets before s0 s1 r s2 _ s3
  have h2 : s2.flo = s1.flo := by
    unfold s2
    split
    · exact State.syncWcred_flo ..
    · rfl
  have h3 : s3.flo.table = s2.flo.table ∧ s3.flo.ingest = s2.flo.ingest := by
    unfold s3
    split <;> exact ⟨rfl, rfl⟩
  rw [State.membership_flo, h3.1, h3.2, h2]
  exact ⟨rfl, rfl⟩

theorem cmdFlowModify_eq (h : flowModifyCheck q s = .ok (e, u)) : cmdFlowModify q s = .ok (flowModifyDo e u, []) := by
  rw [cmdFlowModify, h]
  rfl

theorem flowModifyDo_flo : (flowModifyDo e s).flo = (s.onFlow e (fun f => { f with key := e })).flo := by
  unfold flowModifyDo
  simp only [State.membership_flo]
  split
  · exact State.syncWcred_flo ..
  · rfl

theorem cmdFlowDelete_eq (ht : Req.trailingOk q 48 = true) (hf : s.findFlow (Req.entry q 0) = some f) :
    cmdFlowDelete q s = .ok (flowDeleteDo f s, []) := by
  rw [cmdFlowDelete, flowDeleteCheck, layout_ok ht, ok_bind, needFlow_eq_ok.2 hf]
  rfl

theorem flowDeleteDo_flo : (flowDeleteDo f s).flo.table = s.flo.table.filter (fun g => g.place != f.place) ∧
    (flowDeleteDo f s).flo.ingest = s.flo.ingest := by
  unfold flowDeleteDo
  simp only [State.membership_flo]
  split
  · rw [State.depStop_table, State.depStop_ingest]
    exact ⟨rfl, rfl⟩
  · exact ⟨rfl, rfl⟩

theorem cmdFlowStatus_eq (ht : Req.trailingOk q 52 = true) (hc : Req.u32 q 0 < 2) (hf : s.findFlow (Req.entry q 4) = some f) :
    cmdFlowStatus q s = .ok (if Req.u32 q 0 = 1 then s.flowClear f else s, s.flowImage f) := by
  rw [cmdFlowStatus, layout_ok ht, ok_bind, decide_eq_true hc, needAt_true, ok_bind, needFlow_eq_ok.2 hf]
  rfl

theorem State.flowClear_table : (s.flowClear f).flo.table =
    s.flo.table.map (fun g => if sameKey g.key f.key then { g with pkts := 0, octets := 0, peak := 0, overWindows := 0 } else g) := by
  unfold State.flowClear
  simp only
  split <;> rfl

theorem State.flowClear_ctr (h : isBound f = true) : ((s.flowClear f).dep (flowRing f)).ctr = List.replicate 6 0 := by
  unfold State.flowClear
  simp only
  rw [if_pos h, State.dep_setDep_same]

/-- The state INGEST_WRITE leaves. -/
def ingestWritten (r : Nat) (new : BitVec 64) (s : State) : State :=
  (s.onFlo (fun f => { f with ingest := tset ingestReset f.ingest r new })).syncWcreds ((ingestParts new).map (·.2))

theorem cmdIngestWrite_eq {r : Nat} {new : BitVec 64} (h : ingestWriteCheck q s = .ok (r, new, u)) :
    cmdIngestWrite q s = .ok (ingestWritten r new u, recBytes new) := by
  rw [cmdIngestWrite, h]
  rfl

theorem ingestWritten_ingest (r : Nat) (new : BitVec 64) (n : Nat) : (ingestWritten r new s).ingest n = if n = r then new else s.ingest n := by
  rw [State.ingest, ingestWritten, State.syncWcreds_flo]
  exact tget_tset ..

theorem ingestWritten_table (r : Nat) (new : BitVec 64) : (ingestWritten r new s).flo.table = s.flo.table := by
  rw [ingestWritten, State.syncWcreds_flo]
  rfl

end

/-! ### The obligation -/

/-- Settles O15: an insertion's placement ends with the new entry in the table, whatever it displaces; a deletion stops the depacketiser of
its ring, which leaves the entries; and each command keeps the groups it does not write. -/
theorem flowCommandsTakeEffect : Obligations.FlowCommandsTakeEffect := by
  refine ⟨?insert, ?modify, ?delete, ?status, ?ingest⟩
  case insert =>
    intro q s e l u hs hc
    obtain ⟨⟨he, hnone⟩, hfresh⟩ := flowInsertCheck_facts hc
    obtain ⟨htable, hingest⟩ := flowInsertDo_flo (e := e) (l := l) (s := u)
    have hu : u.flo = s.flo := (flo_of_kept ((flowInsertCheck_ok (μ := 0x200) ..).out _ hc)).trans (taken_flo ..)
    have hcmd := cmdFlowInsert_eq hc
    have hk := kept_of_cmd (cmdFlowInsert_ok (μ := 0x403244) ..) hcmd
    exact ⟨_, serve_ok hs hcmd, he, by simpa using hnone, htable, by rw [htable]; exact hfresh, hingest.trans (congrArg FloSt.ingest hu),
      (tiles_of_kept hk).1, rte_of_kept hk, sdi_of_kept hk, ref_of_kept hk, pwr_of_kept hk⟩
  case modify =>
    intro q s e u hs hc
    obtain ⟨he, hsome⟩ := flowModifyCheck_facts hc
    have hu : u.flo = s.flo := (flo_of_kept ((flowModifyCheck_ok (μ := 0x200) ..).out _ hc)).trans (taken_flo ..)
    have hflo : (flowModifyDo e u).flo = (s.onFlow e (fun f => { f with key := e })).flo := by
      rw [flowModifyDo_flo, State.onFlow, State.setFlows, State.onFlo_flo, hu]
      rfl
    have hcmd := cmdFlowModify_eq hc
    have hk := kept_of_cmd (cmdFlowModify_ok (μ := 0x3244) ..) hcmd
    exact ⟨_, serve_ok hs hcmd, he, by simpa using hsome, (congrArg FloSt.table hflo :), (congrArg FloSt.ingest hflo :), (tiles_of_kept hk).1,
      rte_of_kept hk, sdi_of_kept hk, ref_of_kept hk, pwr_of_kept hk⟩
  case delete =>
    intro q s f hs ht hf
    obtain ⟨htable, hingest⟩ := flowDeleteDo_flo (f := f) (s := taken q s)
    rw [taken_flo] at htable hingest
    have hcmd := cmdFlowDelete_eq (s := taken q s) ht (by simpa using hf)
    have hk := kept_of_cmd (cmdFlowDelete_ok (μ := 0x6D38D4) ..) hcmd
    exact ⟨_, serve_ok hs hcmd, htable, hingest, rte_of_kept hk, bud_of_kept hk, pwr_of_kept hk⟩
  case status =>
    intro q s f hs ht hv hf
    have hcmd := cmdFlowStatus_eq (s := taken q s) ht hv (by simpa using hf)
    have hk := kept_of_cmd (cmdFlowStatus_ok (μ := 0x2004) ..) hcmd
    rw [taken_flowImage] at hcmd
    refine ⟨_, serve_ok hs hcmd, fun h => if_neg (by rw [h]; decide), fun h => ?_, fun h hb => ?_, mem_of_kept hk, rte_of_kept hk,
      sdi_of_kept hk, eth_of_kept hk, pwr_of_kept hk⟩
    · rw [if_pos h, State.flowClear_table, taken_flo]
    · rw [if_pos h, State.flowClear_ctr hb]
  case ingest =>
    intro q s r new u hs hc
    obtain ⟨hr, hlt, hnew⟩ := ingestWriteCheck_facts hc
    have hu : u.flo = s.flo := (flo_of_kept ((ingestWriteCheck_ok (μ := 0x200) ..).out _ hc)).trans (taken_flo ..)
    have hrec : ∀ n, (ingestWritten r new u).ingest n = if n = r then new else s.ingest n := fun n => by
      rw [ingestWritten_ingest, State.ingest, hu, State.ingest]
    have hcmd := cmdIngestWrite_eq hc
    have hk := kept_of_cmd (cmdIngestWrite_ok (μ := 0x2244) ..) hcmd
    exact ⟨_, serve_ok hs hcmd, hr, hlt, by simpa using hnew, (hrec r).trans (if_pos rfl), fun n hn => (hrec n).trans (if_neg hn),
      (ingestWritten_table r new).trans (congrArg FloSt.table hu), (tiles_of_kept hk).1, rte_of_kept hk, sdi_of_kept hk, pwr_of_kept hk⟩

end Sys2Proof.Machine
end

section
/-! PROOFS. The events of the flow table (R180, R183) and multicast membership (R181, R182): windows, absence, table errors, reports and
queries. -/

namespace Sys2Proof.Machine

open Sys2Proof

/-! ### Folds and events -/

/-- What one step of a fold brings about, and every step keeps, holds after it. -/
theorem foldl_reaches {β : Type} {P : State → Prop} {f : State → β → State} {b : β} {l : List β} (hb : b ∈ l) (hP : ∀ s, P (f s b))
    (hkeep : ∀ s c, P s → P (f s c)) (s : State) : P (l.foldl f s) := by
  obtain ⟨l1, l2, rfl⟩ := List.append_of_mem hb
  rw [List.foldl_append, List.foldl_cons]
  exact List.foldlRecOn (motive := P) _ _ (hP _) (fun t ht c _ => hkeep t c ht)

section
variable (s : State)

@[simp] theorem State.raise_flo (e : Ev) : (s.raise e).flo = s.flo := flo_of_kept (State.raise_kept (μ := 0x2C0014) ..)

@[simp] theorem State.raise0_flo (c l : Nat) : (s.raise0 c l).flo = s.flo := State.raise_flo ..

theorem State.raise0_status (c l : Nat) : (c, l) ∈ (s.raise0 c l).flt.status := State.raise_status ..

@[simp] theorem State.reboundAll_flo : s.reboundAll.flo = s.flo := flo_of_kept (State.reboundAll_kept (μ := 0x2C0414) ..)

theorem State.rebound_grows (o : Nat) : StatusGrows s (s.rebound o) := by
  unfold State.rebound
  extract_lets now had next v s1
  have h1 : StatusGrows s s1 := by
    unfold s1
    split
    · exact .refl s
    · exact .of_status rfl
  refine h1.trans (foldl_grows (fun t c => ?_) _ _)
  split
  · exact .refl t
  · exact State.raise_grows ..

theorem State.reboundAll_grows : StatusGrows s s.reboundAll := by
  unfold State.reboundAll
  exact foldl_grows (fun t (e : Nat × BitVec 256) => t.rebound_grows e.1) _ _

end

/-! ### Windows (R180) -/

theorem flowWindow_place (f : Flow) : (flowWindow f).1.place = f.place := by
  unfold flowWindow
  simp only
  split
  · rfl
  · split
    · rfl
    · split <;> rfl

theorem flowWindow_over {f : Flow} (hd : fget f.key FlowEntry.declRate ≠ 0) (ho : fget f.key FlowEntry.declRate < f.windowSum) :
    (flowWindow f).1.overWindows = sat32 f.overWindows 1 ∧ (flowWindow f).1.windowSum = 0 ∧ ((flowWindow f).2 = true ↔ f.within = none) := by
  unfold flowWindow
  simp only
  rw [if_neg hd, if_pos ho]
  exact ⟨rfl, rfl, Option.isNone_iff_eq_none⟩

/-- The table after a window, with an event for each flow that begins to exceed its declared rate. -/
def State.windowEnded (s : State) : State :=
  ((s.flo.table.map flowWindow).filter (·.2)).foldl (fun s e => s.raise0 0xA6 (locFlow e.1.place))
    (s.fresh.setFlows ((s.flo.table.map flowWindow).map (·.1)))

theorem execFlowWindow_eq (s : State) : execFlowWindow s = .next s.windowEnded.reboundAll := rfl

theorem State.windowEnded_flo (s : State) :
    s.windowEnded.flo = { s.flo with table := s.flo.table.map (fun f => (flowWindow f).1) } := by
  unfold State.windowEnded
  rw [foldl_leaves (fun t : State => t.flo) (fun t e => State.raise0_flo ..), List.map_map]
  rfl

theorem State.windowEnded_status {s : State} {f : Flow} (hf : f ∈ s.flo.table) (hw : (flowWindow f).2 = true) :
    (0xA6, locFlow f.place) ∈ s.windowEnded.flt.status := by
  have hb : flowWindow f ∈ (s.flo.table.map flowWindow).filter (·.2) := List.mem_filter.2 ⟨List.mem_map_of_mem hf, hw⟩
  rw [← flowWindow_place f]
  exact foldl_reaches (P := fun t => (0xA6, locFlow (flowWindow f).1.place) ∈ t.flt.status) hb (fun t => t.raise0_status ..)
    (fun t e ht => t.raise0_grows _ _ ht) _

/-! ### Absence and table errors (R180, R183) -/

section
variable {s : State} {e : Fin 262160} {f : Flow}

/-- A change that keeps keys reaches every entry of its key. -/
theorem State.onFlow_forall {k : BitVec 384} {h : Flow → Flow} {P : Flow → Prop} (hP : ∀ g, P (h g)) :
    ∀ g ∈ (s.onFlow k h).flo.table, sameKey g.key k = true → P g := by
  intro g hg hs
  obtain ⟨g0, -, rfl⟩ := List.mem_map.1 hg
  by_cases h0 : sameKey g0.key k = true
  · rw [if_pos h0]
    exact hP g0
  · rw [if_neg h0] at hs
    exact absurd hs h0

/-- When a flow that stays silent is absent: ABSENT_TIME in ms, 10 where it is 0. -/
def Flow.absentAt (f : Flow) : Nat :=
  f.lastSeen + (if fget f.key FlowEntry.absentTime = 0 then 10 else fget f.key FlowEntry.absentTime) * 1000000

theorem execAbsentTimeout_absent (hf : s.flowAt e.val = some f) (hp : f.present = true) (ht : f.absentAt ≤ s.now) :
    execAbsentTimeout e s = .next ((s.fresh.onFlow f.key (fun g => { g with present := false })).raise0 0xA5 (locFlow f.place)) := by
  unfold execAbsentTimeout
  have hf' : s.fresh.flowAt e.val = some f := hf
  simp only [hf']
  refine if_neg ?_
  rw [hp, Bool.not_true, Bool.false_or, decide_eq_true_eq]
  exact Nat.not_lt.2 ht

theorem execAbsentTimeout_waits (hf : s.flowAt e.val = some f) (h : f.present = false ∨ s.now < f.absentAt) :
    execAbsentTimeout e s = .next s.fresh := by
  unfold execAbsentTimeout
  have hf' : s.fresh.flowAt e.val = some f := hf
  simp only [hf']
  refine if_pos ?_
  rw [Bool.or_eq_true, Bool.not_eq_true', decide_eq_true_eq]
  exact h

theorem execFlowTableCorrected_eq (hf : s.flowAt e.val = some f) :
    execFlowTableCorrected e s = .next (s.fresh.raise0 0xA7 (locFlow f.place)) := by
  unfold execFlowTableCorrected
  have hf' : s.fresh.flowAt e.val = some f := hf
  simp only [hf']
  rfl

theorem execFlowTableUncorr_eq (hf : s.flowAt e.val = some f) : execFlowTableUncorr e s =
    .next ((s.fresh.onFlow f.key (fun g => { g with bad := true })).raise ⟨0xA8, locFlow f.place, true, 0, keyBytes f.key⟩) := by
  unfold execFlowTableUncorr
  have hf' : s.fresh.flowAt e.val = some f := hf
  simp only [hf']
  rfl

theorem execFlowTable_noEntry (hf : s.flowAt e.val = none) : execAbsentTimeout e s = .next s.fresh ∧
    execFlowTableCorrected e s = .next s.fresh ∧ execFlowTableUncorr e s = .next s.fresh := by
  unfold execAbsentTimeout execFlowTableCorrected execFlowTableUncorr
  have hf' : s.fresh.flowAt e.val = none := hf
  simp only [hf']
  exact ⟨rfl, rfl, rfl⟩

end

/-! ### Sub-ports -/

section
variable (p : Nat) (s : State)

theorem State.sub_setSub (v : SubSt) (n : Nat) : (s.setSub p v).sub n = if n = p then v else s.sub n := tget_tset ..

@[simp] theorem State.sub_setSub_same (v : SubSt) : (s.setSub p v).sub p = v := tget_tset_same ..

theorem State.sub_of_eth {t : State} (h : t.eth = s.eth) (n : Nat) : t.sub n = s.sub n := by rw [State.sub, h, State.sub]

@[simp] theorem State.raise0_sub (c l n : Nat) : (s.raise0 c l).sub n = s.sub n := State.sub_of_eth s (State.raise0_eth ..) n

/-- A frame of the management class waits behind the others where its sub-port is UP. -/
theorem State.mgmtQueue_sub (m : MgmtTx) :
    (s.mgmtQueue p m).sub p = { s.sub p with txq := (s.sub p).txq ++ (if (s.sub p).link = .up then [m] else []) } := by
  unfold State.mgmtQueue State.sub
  simp only
  split
  · exact tget_tset_same ..
  · rw [List.append_nil]

end

/-! ### Reports (R181) -/

section
variable {s : State} {p : Fin 32} {g : BitVec 128} {v6 lv : Bool} {o : Owed}

/-- The message a report is found by. -/
def Owed.isFor (g : BitVec 128) (v6 lv : Bool) (o : Owed) : Bool := o.group == g.toNat && o.v6 == v6 && o.leaving == lv

/-- The messages a sub-port still owes once it has sent one. -/
def SubSt.oweLess (o : Owed) (v : SubSt) : List Owed :=
  v.owed.filter (fun x => !decide (x = o)) ++ (if o.left ≤ 1 then [] else [{ o with left := o.left - 1 }])

theorem execMembershipReport_idle (h : (s.sub p.val).owed.find? (Owed.isFor g v6 lv) = none ∨ s.fwRuns = false) :
    execMembershipReport p g v6 lv s = .next s.fresh := by
  unfold execMembershipReport
  simp only
  split
  · rfl
  · next o ho =>
    rcases h with h | h
    · exact absurd (h.symm.trans ho) (by simp)
    · have h' : s.fresh.fwRuns = false := h
      rw [h']
      rfl

/-- The state in which a message that was owed has been made. -/
def State.reportMade (p : Nat) (o : Owed) (s : State) : State := s.fresh.setSub p { s.sub p with owed := (s.sub p).oweLess o }

theorem execMembershipReport_sends (ho : (s.sub p.val).owed.find? (Owed.isFor g v6 lv) = some o) (hr : s.fwRuns = true) :
    execMembershipReport p g v6 lv s = .next (if lv && !v6 && (s.sub p.val).compat4 = 1 then s.reportMade p.val o
      else (s.reportMade p.val o).mgmtQueue p.val (.report o.vid ((s.reportMade p.val o).memberFrame p.val o))) := by
  have ho' : (s.fresh.sub p.val).owed.find? (fun o => o.group == g.toNat && o.v6 == v6 && o.leaving == lv) = some o := ho
  have hr' : s.fresh.fwRuns = true := hr
  have hless : (if o.left ≤ 1 then (s.fresh.sub p.val).owed.filter (fun x => !decide (x = o))
      else (s.fresh.sub p.val).owed.filter (fun x => !decide (x = o)) ++ [{ o with left := o.left - 1 }]) = (s.sub p.val).oweLess o := by
    unfold SubSt.oweLess
    split
    · exact (List.append_nil _).symm
    · rfl
  unfold execMembershipReport
  simp only [ho', hr', hless, Bool.not_true, Bool.false_eq_true, if_false]
  exact (apply_ite Host.Outcome.next _ _ _).symm

end

/-! ### Queries (R181, R182) -/

/-- A sub-port owes a message about a group. -/
def State.Owes (s : State) (p x : Nat) (v6 answer : Bool) : Prop := ∃ o ∈ (s.sub p).owed, o.group = x ∧ o.v6 = v6 ∧ o.answer = answer

/-- What a sub-port comes to owe changes its messages alone, and of those it loses none but for a newer one of the same group and kind. -/
structure OwesMore (p : Nat) (s t : State) : Prop where
  flt : t.flt = s.flt
  flo : t.flo = s.flo
  sub : ∃ owed, t.sub p = { s.sub p with owed := owed }
  owes : ∀ x v6 answer, s.Owes p x v6 answer → t.Owes p x v6 answer

section
variable {p : Nat} {s t u : State}

theorem OwesMore.refl (p : Nat) (s : State) : OwesMore p s s := ⟨rfl, rfl, ⟨_, rfl⟩, fun _ _ _ h => h⟩

theorem OwesMore.trans (h : OwesMore p s t) (h' : OwesMore p t u) : OwesMore p s u := by
  obtain ⟨l, hl⟩ := h.sub
  obtain ⟨l', hl'⟩ := h'.sub
  exact ⟨h'.flt.trans h.flt, h'.flo.trans h.flo, ⟨l', by rw [hl', hl]⟩, fun x v6 a ho => h'.owes x v6 a (h.owes x v6 a ho)⟩

theorem OwesMore.joinedGroups (h : OwesMore p s t) (k : Nat) (v6 : Bool) : t.joinedGroups k v6 = s.joinedGroups k v6 := by
  rw [State.joinedGroups, h.flo, State.joinedGroups]

theorem foldl_owesMore {β : Type} {f : State → β → State} (h : ∀ s b, OwesMore p s (f s b)) (l : List β) (s : State) :
    OwesMore p s (l.foldl f s) :=
  List.foldlRecOn (motive := OwesMore p s) _ _ (.refl p s) (fun t ht b _ => ht.trans (h t b))

theorem State.owe_owes (o : Owed) (s : State) : (s.owe p o).Owes p o.group o.v6 o.answer := by
  refine ⟨o, ?_, rfl, rfl, rfl⟩
  rw [State.owe, State.sub_setSub_same]
  exact List.mem_append_right _ (List.mem_singleton.2 rfl)

theorem State.owe_owesMore (o : Owed) (s : State) : OwesMore p s (s.owe p o) where
  flt := rfl
  flo := rfl
  sub := ⟨_, State.sub_setSub_same ..⟩
  owes x v6 a := by
    rintro ⟨y, hy, rfl, rfl, rfl⟩
    by_cases h : (y.group == o.group && y.v6 == o.v6 && y.answer == o.answer && y.vid == o.vid) = true
    · simp only [Bool.and_eq_true, beq_iff_eq] at h
      obtain ⟨⟨⟨hg, hv⟩, ha⟩, -⟩ := h
      rw [hg, hv, ha]
      exact s.owe_owes o
    · refine ⟨y, ?_, rfl, rfl, rfl⟩
      rw [State.owe, State.sub_setSub_same]
      exact List.mem_append_left _ (List.mem_filter.2 ⟨hy, Bool.not_eq_true' _ ▸ Bool.eq_false_iff.2 h⟩)

/-- The answers of one group, in each of its VLANs. -/
def State.answerGroup (p : Nat) (v6 : Bool) (s : State) (x : Nat) : State :=
  (groupVids (joined s.flo.table p v6 x)).foldl (fun s v => s.owe p ⟨x, v6, false, true, v, 1⟩) s

theorem State.answerGroup_owesMore (v6 : Bool) (s : State) (x : Nat) : OwesMore p s (s.answerGroup p v6 x) :=
  foldl_owesMore (fun t _ => t.owe_owesMore _) _ _

/-- A group that some entry joins has a VLAN to be answered in. -/
theorem State.answerGroup_owes {v6 : Bool} {x : Nat} (hx : x ∈ s.joinedGroups p v6) : (s.answerGroup p v6 x).Owes p x v6 true := by
  obtain ⟨f, hf, rfl⟩ := List.mem_map.1 (List.mem_eraseDups.1 hx)
  obtain ⟨hf, hj⟩ := List.mem_filter.1 hf
  have hjoin : f ∈ joined s.flo.table p v6 (fget f.key FlowEntry.dstAddr) := List.mem_filter.2 ⟨hf, by rw [hj, beq_self_eq_true]; rfl⟩
  have hv : entryVid f.key ∈ groupVids (joined s.flo.table p v6 (fget f.key FlowEntry.dstAddr)) :=
    List.mem_eraseDups.2 (List.mem_map.2 ⟨f, hjoin, rfl⟩)
  exact foldl_reaches (P := fun t => t.Owes p _ v6 true) hv (fun t => t.owe_owes _)
    (fun t _ h => (t.owe_owesMore _).owes _ _ _ h) s

/-- The answers of all groups asked for. -/
theorem State.answerGroups_owe {v6 : Bool} {x : Nat} {l : List Nat} (hx : x ∈ s.joinedGroups p v6) (hl : x ∈ l) :
    (l.foldl (State.answerGroup p v6) s).Owes p x v6 true := by
  have hkeep := foldl_owesMore (fun t y => State.answerGroup_owesMore (p := p) v6 t y) l s
  refine foldl_reaches (P := fun t => x ∈ t.joinedGroups p v6 → t.Owes p x v6 true) hl (fun t ht => ?_) (fun t y h ht => ?_) s ?_
  · rw [(t.answerGroup_owesMore v6 x).joinedGroups] at ht
    exact State.answerGroup_owes ht
  · have hy := State.answerGroup_owesMore (p := p) v6 t y
    rw [hy.joinedGroups] at ht
    exact hy.owes _ _ _ (h ht)
  · rwa [hkeep.joinedGroups]

end

/-- The oldest version heard: an older one than any before is kept (R182). -/
def olderVersion (v6 : Bool) (ver old : Nat) : Nat :=
  if !(if v6 then ver == 1 else ver == 1 || ver == 2) then old else if old = 0 then ver else min old ver

theorem olderVersion_old {ver : Nat} (h : ver = 1 ∨ ver = 2) (old : Nat) :
    olderVersion false ver old = if old = 0 then ver else min old ver :=
  if_neg (by rcases h with rfl | rfl <;> decide)

theorem olderVersion_current {ver : Nat} (h1 : ver ≠ 1) (h2 : ver ≠ 2) (old : Nat) : olderVersion false ver old = old :=
  if_pos (by simpa using ⟨h1, h2⟩)

theorem olderVersion6_current {ver : Nat} (h : ver ≠ 1) (old : Nat) : olderVersion true ver old = old := if_pos (by simpa using h)

/-- The version a sub-port has heard of a family. -/
def SubSt.compat (v6 : Bool) (v : SubSt) : Nat := if v6 then v.compat6 else v.compat4

/-- The sub-port after a query has been heard, before it is answered. -/
def SubSt.heard (v6 : Bool) (ver : Nat) (v : SubSt) : SubSt :=
  if v6 then { v with compat6 := olderVersion v6 ver v.compat6 } else { v with compat4 := olderVersion v6 ver v.compat4 }

/-- The state in which a query has been heard: an older version that is new raises OLD_QUERIER. -/
def State.queryHeard (p : Nat) (v6 : Bool) (ver : Nat) (s : State) : State :=
  let t := s.fresh.setSub p ((s.sub p).heard v6 ver)
  if (s.sub p).compat v6 = 0 && olderVersion v6 ver ((s.sub p).compat v6) != 0 then t.raise0 0xA9 (s.locSub p) else t

section
variable {s : State} {p : Fin 32} {ver : Fin 4} {g : BitVec 128}

theorem State.queryHeard_sub (k : Nat) (v6 : Bool) (n : Nat) (s : State) : (s.queryHeard k v6 n).sub k = (s.sub k).heard v6 n := by
  unfold State.queryHeard
  simp only
  split
  · rw [State.raise0_sub, State.sub_setSub_same]
  · exact State.sub_setSub_same ..

theorem State.queryHeard_flo (k : Nat) (v6 : Bool) (n : Nat) (s : State) : (s.queryHeard k v6 n).flo = s.flo := by
  unfold State.queryHeard
  simp only
  split
  · exact State.raise0_flo ..
  · rfl

theorem State.queryHeard_status {k n : Nat} {v6 : Bool} (h : (s.sub k).compat v6 = 0) (hn : olderVersion v6 n 0 ≠ 0) :
    (0xA9, s.locSub k) ∈ (s.queryHeard k v6 n).flt.status := by
  unfold State.queryHeard
  simp only [h]
  rw [if_pos (by simpa using hn)]
  exact State.raise0_status ..

theorem execQuery_idle {v6 : Bool} (h : s.fwRuns = false ∨ s.subUp p.val = false) : execQuery p v6 ver g s = .next s.fresh := by
  refine if_pos ?_
  rw [Bool.or_eq_true, Bool.not_eq_true', Bool.not_eq_true']
  exact h

theorem execQuery_answers (v6 : Bool) (hr : s.fwRuns = true) (hu : s.subUp p.val = true) : execQuery p v6 ver g s =
    .next (((s.joinedGroups p.val v6).filter (fun x => g = 0 || x == g.toNat)).foldl (State.answerGroup p.val v6)
      (s.queryHeard p.val v6 ver.val)) := by
  have hr' : s.fresh.fwRuns = true := hr
  have hu' : s.fresh.subUp p.val = true := hu
  refine (if_neg ?_).trans ?_
  · rw [hr', hu']
    decide
  · cases v6 <;> rfl

/-- What an answered query leaves of the sub-port's version and of STATUS, and that each group asked for is owed an answer. -/
theorem execQuery_spec (v6 : Bool) (hr : s.fwRuns = true) (hu : s.subUp p.val = true) : ∃ t, execQuery p v6 ver g s = .next t ∧
    (∃ owed, t.sub p.val = { (s.sub p.val).heard v6 ver.val with owed := owed }) ∧
    ((s.sub p.val).compat v6 = 0 → olderVersion v6 ver.val 0 ≠ 0 → (0xA9, s.locSub p.val) ∈ t.flt.status) ∧
    ∀ x ∈ s.joinedGroups p.val v6, g = 0 ∨ x = g.toNat → t.Owes p.val x v6 true := by
  have hmore := foldl_owesMore (fun t y => State.answerGroup_owesMore (p := p.val) v6 t y)
    ((s.joinedGroups p.val v6).filter (fun x => g = 0 || x == g.toNat)) (s.queryHeard p.val v6 ver.val)
  refine ⟨_, execQuery_answers v6 hr hu, ?_, fun h hn => ?_, fun x hx hg => ?_⟩
  · have hsub := hmore.sub
    rwa [State.queryHeard_sub] at hsub
  · rw [hmore.flt]
    exact State.queryHeard_status h hn
  · refine State.answerGroups_owe ?_ (List.mem_filter.2 ⟨hx, by simpa using hg⟩)
    rwa [State.joinedGroups, State.queryHeard_flo]

end

end Sys2Proof.Machine
end

section
/-! PROOFS. The departure of a video packet (R195, R200), and the flow table's events. -/

namespace Sys2Proof.Machine

open Sys2Proof

/-! ### A packet leaves or is lost (R160, R164) -/

section
variable (s : State) (f : Nat) (r : BitVec 256) (v : PktSt) (payload : List Byte)

@[simp] theorem State.pkt_setPkt_same : (s.setPkt f v).pkt f = v := tget_tset_same ..

@[simp] theorem State.pkt_emit (e : Emit) : (s.emit e).pkt f = s.pkt f := rfl

@[simp] theorem State.pkt_ethCount (p k n : Nat) : (s.ethCount p k n).pkt f = s.pkt f := rfl

@[simp] theorem State.ethCount_emitted (p k n : Nat) : (s.ethCount p k n).emitted = s.emitted := rfl

@[simp] theorem State.setPkt_emitted : (s.setPkt f v).emitted = s.emitted := rfl

/-- The sub-port of a flow's packets. -/
def pktSub : Nat := 8 * fget r PktFlow.port + fget r PktFlow.subport

/-- The MAX_FRAME of the port of a flow's packets. -/
def State.pktMax : Nat := fget (s.ethPort (fget r PktFlow.port)) EthPort.maxFrame

/-- The frame of a flow's packet, without FCS. -/
def State.pktFrame : List Byte := buildFrame (fget r PktFlow.hdrLen) (leBytes 66 (s.pktHdr f).toNat) payload

/-- A flow's running state past one more packet. -/
def PktSt.past : PktSt := { v with seq := v.seq + 1, sent := v.sent + 1 }

theorem buildFrame_length_ge (n : Nat) (template : List Byte) : 60 ≤ (buildFrame n template payload).length := by
  unfold buildFrame
  simp only
  rw [fitBytes_length]
  exact Nat.le_max_left ..

theorem State.pktSend_eq : s.pktSend f r v payload =
    if s.subUp (pktSub r) = false ∨ s.pktMax r < (s.pktFrame f r payload).length + 4 then s.setPkt f { v.past with lost := sat32 v.lost 1 }
    else (((s.setPkt f v.past).ethCount (pktSub r) 8 1).ethCount (pktSub r) 9 ((s.pktFrame f r payload).length + 4)).emit
      (.packet f (s.pktFrame f r payload)) := by
  refine if_congr ?_ rfl rfl
  rw [Bool.or_eq_true, Bool.not_eq_true', decide_eq_true_eq]
  rfl

variable {s f r v payload}

theorem State.pktSend_lost (h : s.subUp (pktSub r) = false ∨ s.pktMax r < (s.pktFrame f r payload).length + 4) :
    s.pktSend f r v payload = s.setPkt f { v.past with lost := sat32 v.lost 1 } := by
  rw [State.pktSend_eq, if_pos h]

theorem State.pktSend_leaves (hu : s.subUp (pktSub r) = true) (hm : (s.pktFrame f r payload).length + 4 ≤ s.pktMax r) :
    (s.pktSend f r v payload).emitted = s.emitted ++ [.packet f (s.pktFrame f r payload)] ∧ (s.pktSend f r v payload).pkt f = v.past := by
  rw [State.pktSend_eq, if_neg (by rw [hu]; simpa using hm)]
  simp

theorem State.pktSend_past : ((s.pktSend f r v payload).pkt f).seq = v.seq + 1 ∧ ((s.pktSend f r v payload).pkt f).sent = v.sent + 1 := by
  by_cases h : s.subUp (pktSub r) = false ∨ s.pktMax r < (s.pktFrame f r payload).length + 4
  · rw [State.pktSend_lost h, State.pkt_setPkt_same]
    exact ⟨rfl, rfl⟩
  · rw [not_or, Bool.not_eq_false, Nat.not_lt] at h
    rw [(State.pktSend_leaves h.1 h.2).2]
    exact ⟨rfl, rfl⟩

/-- A packet of a frame in progress is one of its payload. -/
theorem State.sendVideo_sends {h : BitVec 256} {o : Nat} {fmt : OutFmt}
    (hn : (s.pktUnit f r (s.out o).frames).sent < fieldPackets h fmt.fmt false + (if fmt.fmt.interlaced then fieldPackets h fmt.fmt true else 0)) :
    ∃ payload, s.sendVideo f r h o fmt = s.pktSend f r (s.pktUnit f r (s.out o).frames) payload :=
  ⟨_, if_neg (Nat.not_le.2 hn)⟩

end

/-! ### PACKET_DEPARTURE -/

section
variable {s : State} {f : Fin 4096}

theorem execPacketDeparture_idle (h : s.outFmt (fget (s.pktRec f.val) PktFlow.output) = none ∨ fbit (s.pktRec f.val) PktFlow.flowEn = false ∨
    (s.out (fget (s.pktRec f.val) PktFlow.output)).running = false ∨ s.pktHeld f.val (s.pktRec f.val) = true) :
    execPacketDeparture f s = .next s.fresh := by
  unfold execPacketDeparture
  simp only
  split
  · rfl
  · next fmt hf =>
    refine if_pos ?_
    simp only [Bool.or_eq_true, Bool.not_eq_true']
    rcases h with h | h | h | h
    · exact absurd (h.symm.trans hf) (by simp)
    · exact .inl (.inl (.inl (.inl h)))
    · exact .inl (.inl (.inl (.inr h)))
    · exact .inl (.inl (.inr h))

theorem execPacketDeparture_video {fmt : OutFmt} (hf : s.outFmt (fget (s.pktRec f.val) PktFlow.output) = some fmt)
    (hen : fbit (s.pktRec f.val) PktFlow.flowEn = true) (hrun : (s.out (fget (s.pktRec f.val) PktFlow.output)).running = true)
    (hheld : s.pktHeld f.val (s.pktRec f.val) = false) (hblock : s.blockHeld (ethBlock (fget (s.pktRec f.val) PktFlow.port)) = false)
    (hess : fget (s.pktRec f.val) PktFlow.essence = 0) (hext : s.inExtra fmt.plane = false) :
    execPacketDeparture f s = .next (s.fresh.sendVideo f.val (s.pktRec f.val) (s.pktRec (s.pktLead f.val (s.pktRec f.val)))
      (fget (s.pktRec f.val) PktFlow.output) fmt) := by
  have hf' : s.fresh.outFmt (fget (s.fresh.pktRec f.val) PktFlow.output) = some fmt := hf
  have hess' : fget (s.fresh.pktRec f.val) PktFlow.essence = 0 := hess
  unfold execPacketDeparture
  simp only [hf', hess']
  refine (if_neg ?_).trans rfl
  simp only [Bool.or_eq_true, Bool.not_eq_true', not_or, Bool.not_eq_true, Bool.not_eq_false]
  exact ⟨⟨⟨⟨hen, hrun⟩, hheld⟩, hext⟩, hblock⟩

end

/-! ### The obligation -/

/-- Settles O48: a window's table stays while its events are raised and reaches bound anew, a query's answers change nothing but what is
owed, and a packet past its frame's checks is counted once whether it leaves or is lost. -/
theorem flowTableEventsTakeEffect : Obligations.FlowTableEventsTakeEffect := by
  refine ⟨?window, ?overRate, ?absent, ?waits, ?corrected, ?uncorr, ?noEntry, ?report, ?noReport, ?query4, ?query6, ?noQuery, ?timeout,
    ?departs, ?idle⟩
  case window =>
    intro s
    have hflo : s.windowEnded.reboundAll.flo = { s.flo with table := s.flo.table.map (fun f => (flowWindow f).1) } := by
      rw [State.reboundAll_flo, State.windowEnded_flo]
    exact ⟨_, execFlowWindow_eq s, (congrArg FloSt.table hflo :),
      fun f hf hw => State.reboundAll_grows _ (State.windowEnded_status hf hw), (congrArg FloSt.merge hflo :)⟩
  case overRate => exact fun f hd ho => flowWindow_over hd ho
  case absent =>
    intro s e f hf hp ht
    refine ⟨_, execAbsentTimeout_absent hf hp ht, State.raise0_status .., ?_⟩
    rw [State.raise0_flo]
    exact State.onFlow_forall fun g => rfl
  case waits => exact fun s e f hf h => execAbsentTimeout_waits hf h
  case corrected => exact fun s e f hf => ⟨_, execFlowTableCorrected_eq hf, State.raise0_status .., State.raise0_flo ..⟩
  case uncorr =>
    intro s e f hf
    refine ⟨_, execFlowTableUncorr_eq hf, State.raise_status .., ?_⟩
    rw [State.raise_flo]
    exact State.onFlow_forall fun g => rfl
  case noEntry => exact fun s e hf => execFlowTable_noEntry hf
  case report =>
    intro s p g v6 lv o ho hr
    have hmade : (s.reportMade p.val o).sub p.val = { s.sub p.val with owed := (s.sub p.val).oweLess o } := State.sub_setSub_same ..
    refine ⟨_, execMembershipReport_sends ho hr, ?_, fun hu hc => ?_⟩
    · split
      · exact congrArg SubSt.owed hmade
      · rw [State.mgmtQueue_sub, hmade]
        rfl
    · have hsent : ¬(lv && !v6 && decide ((s.sub p.val).compat4 = 1)) = true := by rcases hc with h | h | h <;> simp [h]
      rw [if_neg hsent, State.mgmtQueue_sub, hmade, if_pos (beq_iff_eq.1 hu), List.length_append]
      rfl
  case noReport => exact fun s p g v6 lv h => execMembershipReport_idle h
  case query4 =>
    intro s p ver g hr hu
    obtain ⟨t, hx, ⟨owed, hsub⟩, hev, hans⟩ := execQuery_spec (ver := ver) (g := g) false hr hu
    have h4 : (t.sub p.val).compat4 = olderVersion false ver.val (s.sub p.val).compat4 := congrArg SubSt.compat4 hsub
    refine ⟨t, hx, fun h => ⟨h4.trans (olderVersion_old h _), fun h0 => hev h0 ?_⟩, fun h1 h2 => h4.trans (olderVersion_current h1 h2 _), hans⟩
    rw [olderVersion_old h, if_pos rfl]
    omega
  case query6 =>
    intro s p ver g hr hu
    obtain ⟨t, hx, ⟨owed, hsub⟩, -⟩ := execQuery_spec (ver := ver) (g := g) true hr hu
    have h6 : (t.sub p.val).compat6 = olderVersion true ver.val (s.sub p.val).compat6 := congrArg SubSt.compat6 hsub
    refine ⟨t, hx, fun h => ?_, fun h => h6.trans (olderVersion6_current h _)⟩
    rw [h6, h]
    rfl
  case noQuery => exact fun s p v6 ver g h => execQuery_idle h
  case timeout => exact fun s p => ⟨rfl, rfl⟩
  case departs =>
    intro s f fmt hf hen hrun hheld hblock hess hext u h up max_ hn
    obtain ⟨payload, hp⟩ := State.sendVideo_sends (s := s.fresh) hn
    refine ⟨_, s.fresh.pktFrame f.val (s.pktRec f.val) payload, execPacketDeparture_video hf hen hrun hheld hblock hess hext, ?_⟩
    rw [hp]
    obtain ⟨hseq, hsent⟩ := State.pktSend_past (s := s.fresh) (f := f.val) (r := s.pktRec f.val) (v := u) (payload := payload)
    refine ⟨hseq, hsent, buildFrame_length_ge .., fun hu hm => ?_, fun hl => ?_⟩
    · obtain ⟨hem, hpkt⟩ := State.pktSend_leaves (s := s.fresh) (f := f.val) (r := s.pktRec f.val) (v := u) hu hm
      exact ⟨hem, (congrArg PktSt.lost hpkt :)⟩
    · rw [State.pktSend_lost (s := s.fresh) hl]
      exact ⟨rfl, (congrArg PktSt.lost (State.pkt_setPkt_same ..) :)⟩
  case idle => exact fun s f h => execPacketDeparture_idle h

end Sys2Proof.Machine
end

section
/-! PROOFS. HOSTQ_UNBIND of an insert queue whose ring is a leg of a merge pair (R202, R208, R394, R412): the open unit it abandons stands in
the leg's queue, and its entry there becomes INCOMPLETE with it. -/

namespace Sys2Proof.Machine

open Sys2Proof

/-- HOSTQ_UNBIND whose checks pass. -/
theorem cmdHostqUnbind_eq {q : Req} {s : State} (ht : Req.trailingOk q 1 = true) (hh : Req.u8 q 0 < 16) (he : (s.hq (Req.u8 q 0)).en = true) :
    cmdHostqUnbind q s = .ok (hostqUnbindDo (Req.u8 q 0) s, []) := by
  rw [cmdHostqUnbind, hostqUnbindCheck, layout_ok ht, ok_bind, decide_eq_true hh, needAt_true, ok_bind, he, need_true, ok_bind]
  rfl

/-- Queue 0 inserts into data ring 5, whose unit at position 0 is open with one byte. The ring is the primary leg of merge pair 0
(R203 asks a class of OUT_RING alone), which has that unit in its queue for grid point 1. -/
def State.legInserts : State := { State.reset with
  pwr := { State.reset.pwr with bootState := .firmware }
  ctl := { State.reset.ctl with
    hq := tset Hq.idle [] 0 { Hq.idle 0 with en := true, insert := true, ring := 5, unitOpen := true, unitLen := 1 } }
  mem := { State.reset.mem with
    rings := tset ringReset [] 5 (fput (fput (fput (fput (ringReset 5) RingDesc.typeF 3) RingDesc.classF 3) RingDesc.stateF 1) RingDesc.length 1024)
    wr := tset wrReset [] 5 { wrReset 5 with unitOpen := true, buf := [7] } }
  flo := { State.reset.flo with
    merge := tset mergeReset [] 0
      (fput (fput (fput (fput (mergeReset 0) Merge.mergeEn 1) Merge.primaryRing 5) Merge.secondaryRing 6) Merge.outRing 7)
    mergeSt := tset mergeStReset [] 0 { mergeStReset 0 with p := { (mergeStReset 0).p with units := [⟨0, 1, [], none, .writing⟩] } } } }

/-- HOSTQ_UNBIND of queue 0 at P0. -/
def Req.unbindQueue0 : Req := ⟨.p0, 0, 0, 1, 1, 0, 0, 0, [0], 0⟩

theorem serves_unbindQueue0 : Serves 0x030D Req.unbindQueue0 State.legInserts := ⟨rfl, rfl, by decide, rfl, by decide⟩

/-- The states of the units in the primary leg's queue of merge pair 0. -/
def FloSt.primaryUnits (f : FloSt) : List MarkState := (tget mergeStReset f.mergeSt 0).p.units.map MUnit.state

theorem hostqUnbindDo_legInserts : (hostqUnbindDo 0 (taken Req.unbindQueue0 State.legInserts)).flo.primaryUnits = [.incomplete] := by decide

/-- Refutes O16: its clause on HOSTQ_UNBIND says that the flow group stays as it was. The command abandons the queue's open unit (R412), and where
the queue inserts into a leg of a merge pair, that unit's entry in the leg's queue goes from WRITING to INCOMPLETE (R208). -/
theorem not_mergeAndHostQueueCommandsTakeEffect : ¬ Obligations.MergeAndHostQueueCommandsTakeEffect := by
  intro h
  obtain ⟨-, -, -, hunbind, -⟩ := h
  obtain ⟨t, ht, -, -, -, hflo, -⟩ := hunbind _ _ serves_unbindQueue0 (by decide) (by decide) (by decide)
  have hdo := serve_ok (peers := []) serves_unbindQueue0 (cmdHostqUnbind_eq (by decide) (by decide) (by decide))
  have hanswered : answered 0x030D 0 Req.unbindQueue0 [] t =
      answered 0x030D 0 Req.unbindQueue0 [] (hostqUnbindDo 0 (taken Req.unbindQueue0 State.legInserts)) :=
    Host.Outcome.next.inj (ht.symm.trans hdo)
  have hsame : State.legInserts.flo = (hostqUnbindDo 0 (taken Req.unbindQueue0 State.legInserts)).flo := by
    rw [← hflo, ← flo_of_kept (answered_kept 0x030D 0 Req.unbindQueue0 [] t), hanswered]
    exact flo_of_kept (answered_kept ..)
  have hunits := hostqUnbindDo_legInserts
  rw [← hsame] at hunits
  exact absurd hunits (by decide)

end Sys2Proof.Machine
end

section
/-! PROOFS. What a ring's writer leaves of the flow group (R45 to R57, R204, R208): every depacketiser's running state and, of each merge pair, the
unit it decides. With it, the audio tiles that close (R189) and the decisions of the Merge Unit (R205 to R209). -/

namespace Sys2Proof.Machine

open Sys2Proof

/-! ### Writers and the units that pairs decide -/

/-- The flow group without what merge pairs keep while they run, and the unit that each pair decides next. -/
def FloSt.paced (f : FloSt) : FloSt × (Nat → Option Nat) := ({ f with mergeSt := [] }, fun m => (tget mergeStReset f.mergeSt m).unit)

section
variable (r l : Nat) (s : State)

theorem State.mergeSt_setMerge_same (m : Nat) (v : MergeSt) : (s.setMerge m v).mergeSt m = v := tget_tset_same ..

/-- A change to a pair that leaves the unit it decides. -/
theorem State.setMerge_paced {m : Nat} {v : MergeSt} (h : v.unit = (s.mergeSt m).unit) : (s.setMerge m v).flo.paced = s.flo.paced := by
  refine Prod.ext rfl (funext fun k => ?_)
  show (tget mergeStReset (tset mergeStReset s.flo.mergeSt m v) k).unit = _
  rw [tget_tset]
  split
  · next hk => exact hk ▸ h
  · rfl

theorem State.onLeg_paced (m : Nat) (second : Bool) (f : LegSt → LegSt) : (s.onLeg m second f).flo.paced = s.flo.paced :=
  s.setMerge_paced (by cases second <;> rfl)

theorem State.legState_paced (first : BitVec 32) (k : MarkState) : (s.legState r first k).flo.paced = s.flo.paced :=
  foldl_leaves (fun t : State => t.flo.paced) (fun _ _ => State.onLeg_paced ..) _ s

theorem State.legOpen_paced (first : BitVec 32) : (s.legOpen r first).flo.paced = s.flo.paced := by
  refine foldl_leaves (fun t : State => t.flo.paced) (fun t e => ?_) _ s
  extract_lets hyb d wide drift was v s1
  have h1 : s1.flo.paced = t.flo.paced := State.onLeg_paced ..
  split
  · rw [State.raise0_flo, h1]
  · exact h1

theorem State.abandon_paced (ranOut : Bool) : (s.abandon r ranOut).flo.paced = s.flo.paced := by
  unfold State.abandon
  extract_lets d w here n committed s1 mine s2 s3 s4
  have h1 : s1.flo = s.flo := flo_of_kept (kept_foldl (m := 0xC0) (fun _ _ => State.poisonTile_kept ..) ..)
  have h2 : s2.flo = s.flo := h1
  have h3 : s3.flo.paced = s.flo.paced := by
    refine (State.legState_paced ..).trans ?_
    rw [flo_of_kept (State.onMarker_kept (μ := 0x40) ..), h2]
  have h4 : s4.flo.paced = s.flo.paced := by
    unfold s4
    split
    · rw [flo_of_kept (State.sendAbandon_kept (μ := 0x40000) ..), h3]
    · exact h3
  split
  · exact h4
  · rw [flo_of_kept (State.skipTiles_kept (μ := 0x40) ..), h4]

theorem State.abandonCounted_paced (ranOut : Bool) : (s.abandonCounted r l ranOut).flo.paced = s.flo.paced := by
  rw [State.abandonCounted, State.raise_flo, flo_of_kept (State.onRingCtr_kept (μ := 0x40) ..), State.abandon_paced]

theorem State.startUnit_paced : (s.startUnit r l).flo.paced = s.flo.paced := by
  unfold State.startUnit
  extract_lets s1 s2 first
  have h1 : s1.flo.paced = s.flo.paced := by
    unfold s1
    split
    · split
      · exact State.abandon_paced ..
      · exact State.abandonCounted_paced ..
    · rfl
  have h2 : s2.flo.paced = s.flo.paced := by
    unfold s2
    split
    · rw [State.abandon_paced, h1]
    · exact h1
  rw [State.legOpen_paced, flo_of_kept (State.openMarker_kept (μ := 0x40) ..), flo_of_kept (State.setWr_kept (μ := 0x40) ..), h2]

theorem State.closeTile_paced (bytes : List Byte) (fin : Bool) : (s.closeTile r l bytes fin).flo.paced = s.flo.paced := by
  unfold State.closeTile
  dsimp only
  split
  · rfl
  · split
    · exact State.abandonCounted_paced ..
    · rfl

theorem State.writeUnit_paced (bytes : List Byte) : (s.writeUnit r l bytes).flo.paced = s.flo.paced := by
  unfold State.writeUnit
  split
  · rfl
  · exact (foldl_leaves (fun t : State => t.flo.paced) (fun t e => t.closeTile_paced r l ..) _ _).trans (State.startUnit_paced ..)

theorem State.writeAudio_paced (bytes : List Byte) (poison : Bool) : (s.writeAudio r l bytes poison).flo.paced = s.flo.paced := by
  unfold State.writeAudio
  dsimp only
  split
  · rw [flo_of_kept (State.closeMissing_kept (μ := 0x40) ..), State.startUnit_paced]
  · rw [State.closeTile_paced, State.startUnit_paced]

theorem State.writeAudio_dep (bytes : List Byte) (poison : Bool) (n : Nat) : (s.writeAudio r l bytes poison).dep n = s.dep n :=
  congrArg (fun p : FloSt × (Nat → Option Nat) => tget depReset p.1.dep n) (s.writeAudio_paced r l bytes poison)

end

/-! ### Audio tiles that close (R189) -/

/-- The audio of a depacketiser has gone on: the tile it fills is no earlier one, and it holds no new sample. -/
def DepSt.GoesOn (v w : DepSt) : Prop := (∀ k, v.next = some k → ∃ k', k ≤ k' ∧ w.next = some k') ∧ ∀ e ∈ w.samples, e ∈ v.samples

theorem DepSt.GoesOn.refl (v : DepSt) : v.GoesOn v := ⟨fun k h => ⟨k, le_rfl, h⟩, fun _ h => h⟩

theorem DepSt.GoesOn.trans {u v w : DepSt} (h : u.GoesOn v) (h' : v.GoesOn w) : u.GoesOn w := by
  refine ⟨fun k hk => ?_, fun e he => h.2 e (h'.2 e he)⟩
  obtain ⟨k1, h1, hk1⟩ := h.1 k hk
  obtain ⟨k2, h2, hk2⟩ := h'.1 k1 hk1
  exact ⟨k2, h1.trans h2, hk2⟩

section
variable (r : Nat) (s : State)

/-- A gap that is counted leaves the tile being filled and its samples. -/
theorem State.depGap_audio : ((s.depGap r).dep r).next = (s.dep r).next ∧ ((s.depGap r).dep r).samples = (s.dep r).samples := by
  unfold State.depGap
  dsimp only
  split
  · exact ⟨rfl, rfl⟩
  · rw [State.depCount, State.dep_setDep_same, State.dep_setDep_same]
    exact ⟨rfl, rfl⟩

/-- A tile that closes: the next one is filled, and of the samples those at or past its start are left. -/
theorem State.audioClose_dep {k : Nat} (h : (s.dep r).next = some k) : ((s.audioClose r).dep r).next = some (k + 1) ∧
    ((s.audioClose r).dep r).samples = (s.dep r).samples.filter (fun e => (k + 1) * ringMs (s.ring r) ≤ e.1) := by
  unfold State.audioClose
  simp only [h]
  obtain ⟨hnext, hsamples⟩ := State.depGap_audio r (((s.setDep r _).writeAudio r _ _ _))
  rw [hnext, hsamples, State.writeAudio_dep, State.dep_setDep_same]
  exact ⟨rfl, rfl⟩

theorem State.audioClose_goesOn : (s.dep r).GoesOn ((s.audioClose r).dep r) := by
  cases hnext : (s.dep r).next with
  | none =>
    have hidle : s.audioClose r = s := by
      unfold State.audioClose
      simp only [hnext]
    rw [hidle]
    exact .refl _
  | some k =>
    obtain ⟨h1, h2⟩ := s.audioClose_dep r hnext
    refine ⟨fun j hj => ⟨k + 1, ?_, h1⟩, fun e he => ?_⟩
    · cases hnext.symm.trans hj
      exact Nat.le_succ k
    · rw [h2] at he
      exact (List.mem_filter.1 he).1

theorem State.audioCloses_goesOn : (s.dep r).GoesOn ((s.audioCloses r).dep r) := by
  unfold State.audioCloses
  refine List.foldlRecOn (motive := fun t : State => (s.dep r).GoesOn (t.dep r)) _ _ (.refl _) (fun t ht _ _ => ?_)
  dsimp only
  split
  · exact ht
  · split
    · exact ht.trans (t.audioClose_goesOn r)
    · exact ht

end

section
variable {s : State} {r : Fin 8192} {k : Nat}

theorem execAudioTileTimeout_closes (hk : (s.dep r.val).next = some k)
    (ht : ((k + 1) * ringMs (s.ring r.val) - 1) * 1000000000 + 2000000 * ringHz (s.ring r.val) ≤ s.now * ringHz (s.ring r.val)) :
    exec (.audioTileTimeout r) s = .next ((s.fresh.audioClose r.val).audioCloses r.val) := by
  have hk' : (s.fresh.dep r.val).next = some k := hk
  show execAudioTileTimeout r s = _
  unfold execAudioTileTimeout
  simp only [hk']
  exact if_neg (Nat.not_lt.2 ht)

theorem execAudioTileTimeout_idle (h : (s.dep r.val).next = none ∨ ∃ k, (s.dep r.val).next = some k ∧ s.now * ringHz (s.ring r.val) <
    ((k + 1) * ringMs (s.ring r.val) - 1) * 1000000000 + 2000000 * ringHz (s.ring r.val)) : exec (.audioTileTimeout r) s = .next s.fresh := by
  show execAudioTileTimeout r s = _
  unfold execAudioTileTimeout
  rcases h with h | ⟨k, h, ht⟩
  · have h' : (s.fresh.dep r.val).next = none := h
    simp only [h']
    rfl
  · have h' : (s.fresh.dep r.val).next = some k := h
    simp only [h']
    exact if_pos ht

end

/-! ### What a decision leaves of the unit its pair decides (R206, R207) -/

section
variable (m n j : Nat) (s : State)

theorem State.mergeOpens_paced : (s.mergeOpens m n).flo.paced = s.flo.paced := s.setMerge_paced rfl

theorem State.concealOut_flo (o l : Nat) : (s.concealOut o l).flo = s.flo := flo_of_kept (State.concealOut_kept (μ := 0x2C0054) ..)

theorem State.mergePut_paced (bytes : List Byte) : (s.mergePut m n j bytes).flo.paced = s.flo.paced := by
  unfold State.mergePut
  dsimp only
  split
  · rw [State.writeAudio_paced, State.mergeOpens_paced]
  · split
    · rw [State.writeUnit_paced, State.mergeOpens_paced]
    · rw [State.closeTile_paced]
      split
      · rfl
      · rw [foldl_leaves State.flo (fun t _ => t.concealOut_flo ..), State.startUnit_paced, State.mergeOpens_paced]

theorem State.mergeCount_paced (k : Nat) : (s.mergeCount m k).flo.paced = s.flo.paced := s.setMerge_paced rfl

theorem State.mergeMissing_paced : (s.mergeMissing m n).flo.paced = s.flo.paced := by
  unfold State.mergeMissing
  extract_lets o l d s1 s2 v s3
  have h1 : s1.flo.paced = s.flo.paced := by
    unfold s1
    split
    · rw [State.writeAudio_paced, State.mergeOpens_paced]
    · split
      · rw [State.abandonCounted_paced, State.startUnit_paced]
      · split
        · rw [State.concealOut_flo]
        · rfl
  have h3 : s3.flo.paced = s.flo.paced := by
    refine (s2.setMerge_paced ?_).trans ((s1.mergeCount_paced m 3).trans h1)
    rfl
  split
  · rw [State.raise0_flo, h3]
  · exact h3

theorem State.mergeChoose_paced (a b : Offer) : (s.mergeChoose m n j a b).flo.paced = s.flo.paced := by
  have hwon (second : Bool) (bytes : List Byte) :
      (((s.mergePut m n j bytes).mergeCount m (bit second)).setMerge m
        (((s.mergePut m n j bytes).mergeCount m (bit second)).mergeSt m).delivered).flo.paced = s.flo.paced := by
    refine (State.setMerge_paced _ ?_).trans ((State.mergeCount_paced ..).trans (State.mergePut_paced ..))
    rfl
  unfold State.mergeChoose
  split
  · split
    · exact hwon ..
    · rw [State.raise_flo, State.mergeCount_paced]
      exact hwon ..
  · exact hwon ..
  · exact hwon ..
  · exact State.mergeMissing_paced ..

theorem State.lateDiffers_flo (payload : List Byte) : (s.lateDiffers m n j payload).flo = s.flo :=
  flo_of_kept (State.lateDiffers_kept (μ := 0x2C0014) ..)

theorem State.countLate_paced (second : Bool) (r : Nat) (tiles : List (BitVec 32 × Nat)) :
    (s.countLate m second r n tiles).flo.paced = s.flo.paced := by
  refine foldl_leaves (fun t : State => t.flo.paced) (fun t e => ?_) _ s
  dsimp only
  split
  · rw [State.lateDiffers_flo, State.onLeg_paced]
    exact t.setMerge_paced rfl
  · rfl

end

/-! ### MERGE_DECISION (R205, R206) -/

section
variable {m n j tiles at_ : Nat} {s : State}

/-- A tile that is not its unit's last: the pair goes on to the unit's next one. -/
theorem State.mergeTile_within (h : j + 1 < tiles) :
    ((s.mergeTile m n j tiles at_).mergeSt m).unit = (s.mergeSt m).unit ∧ ((s.mergeTile m n j tiles at_).mergeSt m).tile = j + 1 := by
  unfold State.mergeTile
  extract_lets r a b limit v x y s1 s2 s3 w s4
  have hpaced : s3.flo.paced = s.flo.paced :=
    (State.countLate_paced ..).trans ((State.countLate_paced ..).trans (State.mergeChoose_paced ..))
  have hunit : w.unit = (s.mergeSt m).unit := congrFun (congrArg Prod.snd hpaced) m
  rw [if_pos h, State.mergeSt_setMerge_same]
  exact ⟨hunit, rfl⟩

/-- The last tile of a unit: the pair goes on to the next unit. -/
theorem State.mergeTile_last (h : tiles ≤ j + 1) :
    ((s.mergeTile m n j tiles at_).mergeSt m).unit = some (n + 1) ∧ ((s.mergeTile m n j tiles at_).mergeSt m).tile = 0 := by
  unfold State.mergeTile
  extract_lets r a b limit v x y s1 s2 s3 w s4
  rw [if_neg (Nat.not_lt.2 h), State.mergeNext, State.mergeSt_setMerge_same]
  exact ⟨rfl, rfl⟩

/-- Time units of PTP time. -/
def State.nowTu (s : State) : Nat := s.now32 * tuPerNs / 2 ^ 32

/-- U of a pair, in time units. -/
def State.pairU (s : State) (m : Nat) : Nat := max 1 (s.mergeU (s.mergeRec m))

/-- Tiles of each unit that a pair decides. -/
def State.pairTiles (s : State) (m : Nat) : Nat :=
  if ringIsVideo (s.ring (fget (s.mergeRec m) Merge.outRing)) then max 1 (ringTpf (s.ring (fget (s.mergeRec m) Merge.outRing))) else 1

/-- When a pair decides the next tile of a unit. -/
def State.pairDue (s : State) (m n : Nat) : Nat :=
  decideAt (s.pairU m) (fget (s.mergeRec m) Merge.mergeDelay) (s.pairTiles m) n (s.mergeSt m).tile
    (ringType (s.ring (fget (s.mergeRec m) Merge.outRing)) == 3)

/-- A pair whose clock has not been stepped waits for the time of its next tile, and then decides it. -/
theorem execMergeDecision_inTime {m : Fin 1024} (hen : fbit (s.mergeRec m.val) Merge.mergeEn = true) (hb : s.blockHeld mergeBlock = false)
    (hn : (s.mergeSt m.val).unit = some n) (hlate : s.nowTu ≤ s.pairDue m.val n + 2 * s.pairU m.val)
    (hearly : s.pairDue m.val n ≤ s.nowTu + 2 * s.pairU m.val) :
    exec (.mergeDecision m) s = .next (if s.nowTu < s.pairDue m.val n then s.fresh
      else s.fresh.mergeTile m.val n (s.mergeSt m.val).tile (s.pairTiles m.val) (s.pairDue m.val n)) := by
  have hruns : (!fbit (s.fresh.mergeRec m.val) Merge.mergeEn || s.fresh.blockHeld mergeBlock) = false :=
    Bool.or_eq_false_iff.2 ⟨congrArg not hen, hb⟩
  show execMergeDecision m s = _
  unfold execMergeDecision
  extract_lets k s0 r o d data u delay tiles now first v
  have hstepped : (decide (decideAt u delay tiles n v.tile data + 2 * u < now) ||
      decide (now + 2 * u < decideAt u delay tiles n v.tile data)) = false :=
    Bool.or_eq_false_iff.2 ⟨decide_eq_false (Nat.not_lt.2 hlate), decide_eq_false (Nat.not_lt.2 hearly)⟩
  rw [if_neg (Bool.eq_false_iff.1 hruns)]
  have hv : v.unit = some n := hn
  simp only [hv, hstepped, Bool.false_eq_true, if_false, decide_true, Bool.and_self, if_true]
  exact (apply_ite _ _ _ _).symm

theorem execMergeDecision_idle {m : Fin 1024} (h : fbit (s.mergeRec m.val) Merge.mergeEn = false ∨ s.blockHeld mergeBlock = true) :
    exec (.mergeDecision m) s = .next s.fresh := by
  have h' : (!fbit (s.fresh.mergeRec m.val) Merge.mergeEn || s.fresh.blockHeld mergeBlock) = true := by
    rcases h with h | h
    · exact Bool.or_eq_true_iff.2 (.inl (by rw [show fbit (s.fresh.mergeRec m.val) Merge.mergeEn = false from h]; rfl))
    · exact Bool.or_eq_true_iff.2 (.inr h)
  exact if_pos h'

end

end Sys2Proof.Machine
end

section
/-! PROOFS. The steps of the Composers (R217, R223, R234, R238, R241): the latch, a frame that starts, and a table bank that fails parity. -/

namespace Sys2Proof.Machine

open Sys2Proof

/-! ### One record of the Composers written -/

section
variable (n k : Nat) (s : State)

theorem State.compSt_setCompSt (v : CompSt) : (s.setCompSt k v).compSt n = if n = k then v else s.compSt n := tget_tset ..

@[simp] theorem State.compSt_setCompSt_same (v : CompSt) : (s.setCompSt k v).compSt k = v := tget_tset_same ..

@[simp] theorem State.compOut_setCompOut_same (v : BitVec 256) : (s.setCompOut k v).compOut k = v := tget_tset_same ..

theorem State.compSt_setCompOut (v : BitVec 256) : (s.setCompOut k v).compSt n = s.compSt n := rfl

theorem State.raise0_cmp (c l : Nat) : (s.raise0 c l).cmp = s.cmp := cmp_of_kept (State.raise_kept (μ := 0x2C0014) ..)

theorem State.raiseEnd_cmp (c l : Nat) : (s.raiseEnd c l).cmp = s.cmp := cmp_of_kept (State.raiseEnd_kept (μ := 0x2C0014) ..)

theorem State.endCause_cmp (c l : Nat) : (s.endCause c l).cmp = s.cmp := rfl

end

/-! ### Layers at F -/

/-- Output records and running states of the conversions, which a layer at F leaves. -/
def CmpSt.conversions (c : CmpSt) : Tab (BitVec 256) × Tab CompSt := (c.out, c.st)

section
variable (n c l : Nat) (s : State)

theorem State.setCompLayer_conversions (i : Nat) (v : BitVec 256) : (s.setCompLayer i v).cmp.conversions = s.cmp.conversions := rfl

theorem State.setLaySt_conversions (i : Nat) (v : LayerSt) : (s.setLaySt i v).cmp.conversions = s.cmp.conversions := rfl

theorem State.setLayerState_conversions (v : Nat) : (s.setLayerState c l v).cmp.conversions = s.cmp.conversions := by
  unfold State.setLayerState
  extract_lets i e old at_ s1 s2 s3
  have h1 : s1.cmp.conversions = s.cmp.conversions := State.setCompLayer_conversions ..
  have h2 : s2.cmp.conversions = s.cmp.conversions := by
    unfold s2
    split
    · split
      · rw [State.raiseEnd_cmp, h1]
      · rw [State.endCause_cmp, h1]
    · exact h1
  have h3 : s3.cmp.conversions = s.cmp.conversions := by
    unfold s3
    split
    · rw [State.endCause_cmp, h2]
    · exact h2
  split
  · rfl
  · split
    · rw [State.raise0_cmp, h3]
    · split
      · rw [State.raise0_cmp, h3]
      · exact h3

/-- An episode of a layer that begins, ends or goes on. -/
theorem State.episode_cmp (code at_ : Nat) (a b : Prop) [Decidable a] [Decidable b] :
    (if a then s.raise0 code at_ else if b then s.endCause code at_ else s).cmp = s.cmp := by
  split
  · exact State.raise0_cmp ..
  · split <;> rfl

theorem State.layerAtF_conversions (v : CompSet) : (s.layerAtF n v l).cmp.conversions = s.cmp.conversions := by
  unfold State.layerAtF
  dsimp only
  rw [State.episode_cmp, State.episode_cmp, State.setLaySt_conversions, State.setLayerState_conversions]

theorem State.layerOff_conversions : (s.layerOff c l).cmp.conversions = s.cmp.conversions := by
  unfold State.layerOff
  extract_lets i v s1 s2 s3
  have h2 : s2.cmp.conversions = s.cmp.conversions := by
    unfold s2
    split
    · rw [State.endCause_cmp, State.setLayerState_conversions]
    · exact State.setLayerState_conversions ..
  have h3 : s3.cmp.conversions = s.cmp.conversions := by
    unfold s3
    split
    · rw [State.endCause_cmp, h2]
    · exact h2
  rw [State.setLaySt_conversions, h3]

end

/-! ### A frame that starts -/

section
variable {n : Nat} {v : CompSet} {s : State}

/-- A frame of a conversion that is no gang's runs under its records, and is counted. -/
theorem State.compFrame_alone (hv : v.gang = false) : ((s.compFrame n v).compSt n).run = some v ∧
    ((s.compFrame n v).compSt n).frames = (s.compSt n).frames + 1 ∧ (s.compFrame n v).compOut n = s.compOut n := by
  unfold State.compFrame
  extract_lets c on s1 st s2 s3
  have hlayers : s1.cmp.conversions = s.cmp.conversions := by
    refine foldl_leaves (fun t : State => t.cmp.conversions) (fun t l => ?_) _ s
    split
    · exact State.layerAtF_conversions ..
    · exact State.layerOff_conversions ..
  have hst : st = s.compSt n := congrArg (fun p : Tab (BitVec 256) × Tab CompSt => tget compStReset p.2 n) hlayers
  have hout : s1.compOut n = s.compOut n := congrArg (fun p : Tab (BitVec 256) × Tab CompSt => tget compOutReset p.1 n) hlayers
  have h3 : s3.cmp = s2.cmp := by
    unfold s3
    rw [cmp_of_kept (State.dropStaleReads_kept (μ := 0x200) ..), hv]
    rfl
  have hcmp (r l : Nat) : (s3.startUnit r l).cmp = s2.cmp := (cmp_of_kept (State.startUnit_kept (μ := 0x2C20D4) ..)).trans h3
  have h2 : s2.compSt n = { st with run := some v, frames := st.frames + 1, pos := tget curReset s.cmp.cur c, pos2 := tget curReset s.cmp.cur c } :=
    State.compSt_setCompSt_same ..
  rw [State.compSt, State.compOut, hcmp]
  exact ⟨congrArg CompSt.run h2, (congrArg CompSt.frames h2).trans (congrArg (fun x : CompSt => x.frames + 1) hst), hout⟩

/-- With no write held, none applies. -/
theorem State.applyDue_of_none (h : s.cmp.held = []) : s.applyDue n = s := by
  have hcmp : ({ s.cmp with held := [] } : CmpSt) = s.cmp := by rw [← h]
  simp only [State.applyDue, h, List.filter_nil, List.foldl_nil, State.onCmp, hcmp]

theorem State.showState_alone (w x : Nat) : s.showState n w x false = s.setCompState n w := by
  simp [State.showState]

end

section
variable {s : State} {c : Fin 16} {k : Fin 4}

/-- An enabled conversion, not isolated and no gang's, that was idle starts with its records as they are written. -/
theorem execComposerFrameStart_starts (hc : s.compHeld c.val = false)
    (hp : s.planeOn (fget (s.compOut (4 * c.val + k.val)) CompOut.plane) = true)
    (hen : fbit (s.compOut (4 * c.val + k.val)) CompOut.compEn = true) (hrun : (s.compSt (4 * c.val + k.val)).run = none)
    (hgang : s.compGang c.val = false) (hiso : s.flt.isolated.any (fun p => p.2 == locComp c.val 9) = false) (hheld : s.cmp.held = []) :
    exec (.composerFrameStart c k) s =
      .next ((s.fresh.setCompState (4 * c.val + k.val) 1).compFrame (4 * c.val + k.val) (s.compWritten (4 * c.val + k.val))) := by
  have hn : (4 * c.val + k.val) / 4 = c.val := by omega
  have hdue : s.fresh.applyDue (4 * c.val + k.val) = s.fresh := State.applyDue_of_none hheld
  have hrun' : (s.fresh.compSt (4 * c.val + k.val)).run = none := hrun
  have hen' : fbit (s.fresh.compOut (4 * c.val + k.val)) CompOut.compEn = true := hen
  have hiso' : s.fresh.flt.isolated.any (fun p => p.2 == locComp c.val 9) = false := hiso
  have hruns : (s.fresh.compHeld c.val || !s.fresh.planeOn (fget (s.fresh.compOut (4 * c.val + k.val)) CompOut.plane)) = false :=
    Bool.or_eq_false_iff.2 ⟨hc, congrArg not hp⟩
  have hw : (s.fresh.compWritten (4 * c.val + k.val)).gang = false := by
    show s.compGang ((4 * c.val + k.val) / 4) = false
    rw [hn, hgang]
  show execComposerFrameStart c k s = _
  unfold execComposerFrameStart
  simp only [hruns, hrun', Bool.false_eq_true, if_false, State.compAtF, hdue, hen', hn, hiso', Bool.and_false, Bool.not_true, hw,
    State.showState_alone]
  rfl

theorem execComposerFrameStart_idle (h : s.compHeld c.val = true ∨ s.planeOn (fget (s.compOut (4 * c.val + k.val)) CompOut.plane) = false) :
    exec (.composerFrameStart c k) s = .next s.fresh :=
  if_pos (Bool.or_eq_true_iff.2 (h.imp id (congrArg not)))

/-! ### COMPOSER_LATCH and COMP_LUT_PARITY (R238, R241) -/

theorem execComposerLatch_eq (hc : s.compHeld c.val = false) (ha : s.compActive (4 * c.val + k.val) = true) :
    exec (.composerLatch c k) s = .next (s.fresh.setCompSt (4 * c.val + k.val)
      { s.compSt (4 * c.val + k.val) with lat := some (s.compWritten (4 * c.val + k.val)) }) :=
  if_neg (Bool.eq_false_iff.1 (Bool.or_eq_false_iff.2 ⟨hc, congrArg not ha⟩))

theorem execComposerLatch_idle (h : s.compHeld c.val = true ∨ s.compActive (4 * c.val + k.val) = false) :
    exec (.composerLatch c k) s = .next s.fresh :=
  if_pos (Bool.or_eq_true_iff.2 (h.imp id (congrArg not)))

/-- The state with a table bank noted as bad. -/
def State.lutFailed (key : Nat) (s : State) : State :=
  s.onCmp (fun e => { e with lutBad := if e.lutBad.contains key then e.lutBad else e.lutBad ++ [key] })

theorem mem_noted (l : List Nat) (x : Nat) : x ∈ if l.contains x then l else l ++ [x] := by
  split
  · next h => exact List.contains_iff_mem.1 h
  · exact List.mem_append_right _ (List.mem_singleton.2 rfl)

theorem execCompLutParity_eq {tb : Fin 3} {b : Fin 2} {i : Fin 128} (h : tb.val = 0 ∨ i.val < 16) : exec (.compLutParity tb b i) s =
    .next ((s.fresh.lutFailed (bankKey tb.val b.val i.val)).raise0 0xC4
      (if tb.val = 0 then locComp (i.val / 8) (i.val % 8) else locComp i.val 9)) := by
  have hnot : ¬(tb.val != 0 && decide (16 ≤ i.val)) = true := by
    simp only [Bool.and_eq_true, bne_iff_ne, decide_eq_true_eq]
    omega
  exact if_neg hnot

theorem execCompLutParity_idle {tb : Fin 3} {b : Fin 2} {i : Fin 128} (h : tb.val ≠ 0) (hi : 16 ≤ i.val) :
    exec (.compLutParity tb b i) s = .next s.fresh :=
  if_pos (Bool.and_eq_true_iff.2 ⟨bne_iff_ne.2 h, decide_eq_true hi⟩)

end

end Sys2Proof.Machine
end

section
/-! PROOFS. Calliope's tick (R244, R245, R247) and what ends or fails in it (R249, R266): the tick leaves what it set of CAL_STATE. -/

namespace Sys2Proof.Machine

open Sys2Proof

/-! ### What a tick's slots and buses leave of Calliope's own state -/

/-- Whether Calliope runs, and its control record. -/
def CalSt.running (c : CalSt) : Bool × BitVec 128 := (c.run, c.ctl)

theorem CalSt.running_of_dyn (c : CalSt) (g : Tab Int) (d : Tab (BitVec 256)) : ({ c with dynG := g, dyn := d } : CalSt).running = c.running := rfl

section
variable (s : State)

theorem State.onCal_running {f : CalSt → CalSt} (h : ∀ c, (f c).running = c.running) : (s.onCal f).cal.running = s.cal.running := h s.cal

theorem State.raise0_cal (c l : Nat) : (s.raise0 c l).cal = s.cal := cal_of_kept (State.raise_kept (μ := 0x2C0014) ..)

theorem State.dropTaps_cal (i : Nat) : (s.dropTaps i).cal = s.cal := cal_of_kept (State.dropTaps_kept (μ := 0x200) ..)

theorem State.audioSlips_cal (l kind slot index : Nat) (slips : List (Nat × Nat)) : (s.audioSlips l kind slot index slips).cal = s.cal :=
  cal_of_kept (State.audioSlips_kept (μ := 0x2C0014) ..)

theorem State.stepIn_running (i : Nat) : (s.stepIn i).cal.running = s.cal.running := by
  unfold State.stepIn
  dsimp only
  split
  · rfl
  · split
    · rfl
    · rw [State.audioSlips_cal]
      rfl

theorem State.busBlocked_running (b : Nat) (entries : List Nat) : (s.busBlocked b entries).cal.running = s.cal.running := by
  refine foldl_leaves (fun t : State => t.cal.running) (fun t k => ?_) _ s
  dsimp only
  split
  · rfl
  · rw [State.raise0_cal]
    rfl

theorem State.busSaturated_running (b n : Nat) (clip : Bool) : (s.busSaturated b n clip).cal.running = s.cal.running := by
  unfold State.busSaturated
  dsimp only
  split
  · rfl
  · split
    all_goals
      split
      · rw [State.raise0_cal]
        rfl
      · rfl

theorem State.stepBus_running (b : Nat) : (s.stepBus b).1.cal.running = s.cal.running := by
  unfold State.stepBus
  extract_lets e hz ms entries sum began goal gain scaled before n0
  split
  next mixed satN s1 heq =>
  have h1 : s1.cal.running = s.cal.running := by
    split at heq
    · exact congrArg (fun t : State => t.cal.running) (Prod.mk.inj (Prod.mk.inj heq).2).2.symm
    · split at heq
      rw [← (Prod.mk.inj (Prod.mk.inj heq).2).2]
      exact CalSt.running_of_dyn ..
  split
  next out lim _ =>
  extract_lets quant s2 s3
  have h2 : s2.cal.running = s.cal.running := (State.onCal_running _ fun c => rfl).trans h1
  rw [State.busSaturated_running, State.busSaturated_running, State.busBlocked_running, h2]

theorem State.stepBuses_running : s.stepBuses.1.cal.running = s.cal.running := by
  unfold State.stepBuses
  refine List.foldlRecOn (motive := fun a : State × Tab (List Int) => a.1.cal.running = s.cal.running) _ _ rfl (fun a ha x _ => ?_)
  dsimp only
  split
  · exact (a.1.stepBus_running x.1).trans ha
  · exact ha

theorem State.stepOut_running (old : State) (buses : Tab (List Int)) (o : Nat) : (State.stepOut old buses o s).cal.running = s.cal.running := by
  unfold State.stepOut
  extract_lets r s0 d hz ch chans rows dyns
  dsimp only
  have h0 : s0.cal = s.cal := cal_of_kept (State.overdue_kept (μ := 0x2C21D4) ..)
  rw [cal_of_kept (State.writeAudio_kept (μ := 0x2C20D4) ..), ← h0]
  exact State.onCal_running _ fun c => rfl

end

/-! ### CALLIOPE_TICK (R244) -/

section
variable {s : State}

theorem State.calTick_running : s.calTick.cal.running = (true, fput s.cal.ctl Cal.calState 1) := by
  unfold State.calTick
  extract_lets s1 s2 s3
  have h2 : s2.cal.running = s1.cal.running := foldl_leaves (fun t : State => t.cal.running) (fun t x => t.stepIn_running _) _ s1
  have h3 : s3.cal.running = s2.cal.running := by
    refine foldl_leaves (fun t : State => t.cal.running) (fun t x => ?_) _ s2
    split
    · rfl
    · rw [State.dropTaps_cal]
  refine (foldl_leaves (fun t : State => t.cal.running) (fun t x => ?_) _ _).trans (s3.stepBuses_running.trans (h3.trans h2))
  split
  · exact State.stepOut_running ..
  · rfl

theorem State.calIdle_cal : s.calIdle.cal.run = false ∧ s.calIdle.cal.ctl = fput s.cal.ctl Cal.calState 0 ∧ s.calIdle.cal.tapMix = [] := by
  unfold State.calIdle
  extract_lets v s1
  have hdrop : (s1.cal.audIn.foldl (fun t x => t.dropTaps x.1) s1).cal = s1.cal := foldl_leaves State.cal (fun t _ => t.dropTaps_cal _) _ s1
  rw [State.setCalState, State.onCal_cal, hdrop]
  exact ⟨rfl, rfl, rfl⟩

theorem fget_calState (r : BitVec 128) {v : Nat} (h : v < 4) : fget (fput r Cal.calState v) Cal.calState = v := by
  rw [fget_fput _ _ _ (by decide)]
  exact Nat.mod_eq_of_lt h

/-- With no write held, none applies. -/
theorem State.applyAudioDue_of_none (h : s.cal.held = []) : s.applyAudioDue = s := by
  have hcal : ({ s.cal with held := [] } : CalSt) = s.cal := by rw [← h]
  simp only [State.applyAudioDue, h, List.filter_nil, List.foldl_nil, State.onCal, hcal]

theorem execCalliopeTick_held (h : s.blockHeld 48 = true) : exec .calliopeTick s = .next s.fresh := if_pos h

/-- A tick without a held write. -/
theorem execCalliopeTick_eq (hb : s.blockHeld 48 = false) (hheld : s.cal.held = []) : exec .calliopeTick s =
    if !fbit s.cal.ctl Cal.calEn then done (if s.cal.run then s.fresh.calIdle else s.fresh)
    else if !s.planeOn (fget s.cal.ctl Cal.calPlane) then done s.fresh
    else if s.calIsolated then done (s.fresh.setCalState 2) else done s.fresh.calTick := by
  have hdue : s.fresh.applyAudioDue = s.fresh := State.applyAudioDue_of_none hheld
  have hb' : ¬s.fresh.blockHeld 48 = true := Bool.eq_false_iff.1 hb
  show execCalliopeTick s = _
  unfold execCalliopeTick
  dsimp only
  rw [if_neg hb', hdue]
  rfl

/-! ### TAP_CROSSFADE_END and CAL_COEFF_PARITY (R249, R266) -/

theorem State.mem_release (drop : Hold → Bool) (h : Hold) : h ∈ (s.release drop).bud.holds ↔ h ∈ s.bud.holds ∧ ¬drop h = true := by
  simp [State.release]

theorem mem_execTapCrossfadeEnd (i : Fin 1024) (k : Fin 4) : ∃ t, exec (.tapCrossfadeEnd i k) s = .next t ∧ ∀ h, h ∈ t.bud.holds ↔
    h ∈ s.bud.holds ∧ ¬(h.grp = .calRead i.val (4 + k.val) ∨ (h.grp = .calRead i.val k.val ∧ s.tapWanted i.val k.val = false)) := by
  refine ⟨_, rfl, fun h => (State.mem_release ..).trans (and_congr_right fun _ => not_congr ?_)⟩
  have hwanted : s.fresh.tapWanted i.val k.val = s.tapWanted i.val k.val := rfl
  simp [hwanted, and_comm]

end

end Sys2Proof.Machine
end

section
/-! PROOFS. The millisecond of an output's audio slot (R245, R262), and the steps of the essence engines. -/

namespace Sys2Proof.Machine

open Sys2Proof

/-! ### AUDIO_READER_TILE (R245, R114, R152) -/

/-- The slot that stands after a millisecond: it keeps no samples where it plays nothing. -/
def AudSlot.ended (old new : AudSlot) : AudSlot := if old.srcs.isEmpty then { new with samples := [], first := 0 } else new

/-- The samples of a millisecond that leave: zeros where nothing plays, or the output is on its generator. -/
def AudSlot.heard (old new : AudSlot) (gen : Bool) : List (BitVec 32) := if !old.srcs.isEmpty && !gen then new.samples else List.replicate 768 0

theorem AudSlot.ended_of_playing {old new : AudSlot} (h : old.srcs ≠ []) : old.ended new = new := if_neg (by simpa using h)

theorem AudSlot.ended_srcs (old new : AudSlot) : (old.ended new).srcs = new.srcs := by
  unfold AudSlot.ended
  split <;> rfl

theorem AudSlot.heard_eq (old new : AudSlot) (gen : Bool) :
    old.heard new gen = if old.srcs ≠ [] ∧ gen = false then new.samples else List.replicate 768 0 := by
  exact if_congr (by simp) rfl rfl

theorem getD_set_same {α : Type} (l : List α) (i : Nat) (x d : α) : (l.set i x).getD i d = if i < l.length then x else d := by
  rw [List.getD_eq_getElem?_getD, List.getElem?_set_self']
  split <;> simp_all

/-- A slot that plays is one of its output's. -/
theorem AudSlot.lt_length_of_playing {l : List AudSlot} {i : Nat} (h : (l.getD i AudSlot.reset).srcs ≠ []) : i < l.length := by
  by_contra hge
  rw [List.getD_eq_default _ _ (Nat.not_lt.1 hge)] at h
  exact h rfl

/-- A slot without a source attaches none by itself. -/
theorem State.stepSlot_idle {s : State} {v : AudSlot} {ms : Int} (h : v.srcs = []) : (s.stepSlot v ms).1.srcs = [] := by
  unfold State.stepSlot
  rw [h]

section
variable (l kind slot index : Nat) (slips : List (Nat × Nat)) (s : State)

theorem State.audioSlips_rte : (s.audioSlips l kind slot index slips).rte = s.rte := rte_of_kept (State.audioSlips_kept (μ := 0x2C0014) ..)

theorem State.audioSlips_mem : (s.audioSlips l kind slot index slips).mem = s.mem := mem_of_kept (State.audioSlips_kept (μ := 0x2C0014) ..)

theorem State.mem_audioSlips_emitted {x : Emit} (h : x ∈ s.emitted) : x ∈ (s.audioSlips l kind slot index slips).emitted :=
  List.foldlRecOn (motive := fun t : State => x ∈ t.emitted) _ _ h (fun _ ht _ _ => State.mem_raise_emitted (show evClass 0xD0 ≠ 3 by decide) ht)

end

section
variable {s : State} {o : Fin 2048} {k : Fin 4} {f : OutFmt} {old new : AudSlot}

/-- The state in which output `o` has record `v` and, where it emits the slot, a millisecond of samples has left. -/
def State.slotSent (o k : Nat) (f : OutFmt) (v : OutSt) (samples : List (BitVec 32)) (s : State) : State :=
  if (s.out o).running && slotCarried s f k then (s.setOut o v).emit (.audio o k samples) else s.setOut o v

theorem State.slotSent_rte (o k : Nat) (f : OutFmt) (v : OutSt) (samples : List (BitVec 32)) (s : State) :
    (s.slotSent o k f v samples).rte = (s.setOut o v).rte := by
  unfold State.slotSent
  split <;> rfl

theorem State.slotSent_mem (o k : Nat) (f : OutFmt) (v : OutSt) (samples : List (BitVec 32)) (s : State) :
    (s.slotSent o k f v samples).mem = s.mem := by
  unfold State.slotSent
  split <;> rfl

theorem execAudioReaderTile_steps (hf : s.outFmt o.val = some f) (hold : old = (s.out o.val).slots.getD k.val AudSlot.reset)
    (hnew : new = (s.stepSlot old (msNear (s.planeTu f.plane))).1) :
    ∃ v slips, v.slots = (s.out o.val).slots.set k.val (old.ended new) ∧ exec (.audioReaderTile o k) s =
      .next ((s.fresh.slotSent o.val k.val f v (old.heard new (s.out o.val).gen)).audioSlips (s.locOut o.val) 0 k.val o.val slips) := by
  have hf' : s.fresh.outFmt o.val = some f := hf
  subst hold hnew
  show ∃ v slips, _ ∧ execAudioReaderTile o k s = _
  unfold execAudioReaderTile
  simp only [hf']
  exact ⟨_, _, rfl, rfl⟩

theorem execAudioReaderTile_idle (hf : s.outFmt o.val = none) : exec (.audioReaderTile o k) s = .next s.fresh := by
  have hf' : s.fresh.outFmt o.val = none := hf
  show execAudioReaderTile o k s = _
  unfold execAudioReaderTile
  simp only [hf']
  rfl

end

/-! ### The obligation -/

/-- Settles O49: the writers that a closing tile and a decision drive leave what waits in the depacketisers and the unit each pair decides; layers
at F leave the conversions; and Calliope's slots and buses leave what its tick has set of CAL_STATE. -/
theorem essenceEnginesTakeTheirSteps : Obligations.EssenceEnginesTakeTheirSteps := by
  refine ⟨?closes, ?tileWaits, ?decides, ?mergeOff, ?latches, ?latchOff, ?starts, ?compOff, ?lutBad, ?noBank, ?calHeld, ?calRuns, ?calIsolated,
    ?calStops, ?slotSteps, ?noFormat, ?fadeEnds, ?crosspoint, ?bus, ?channel, ?tapMap⟩
  case closes =>
    intro s r k hk ht
    obtain ⟨hnext, hsamples⟩ := s.fresh.audioClose_dep r.val hk
    obtain ⟨hlater, hfewer⟩ := (s.fresh.audioClose r.val).audioCloses_goesOn r.val
    obtain ⟨k', hk', hnext'⟩ := hlater _ hnext
    refine ⟨_, execAudioTileTimeout_closes hk ht, ⟨k', hk', hnext'⟩, fun e he => ?_⟩
    have hleft := hfewer e he
    rw [hsamples, List.mem_filter, decide_eq_true_eq] at hleft
    exact hleft
  case tileWaits => exact fun s r h => execAudioTileTimeout_idle h
  case decides =>
    intro s m n hen hb hn d u tiles at_ now
    refine ⟨fun hnow hearly => ?_, fun hdue hlate => ?_⟩
    · rw [execMergeDecision_inTime hen hb hn (hnow.le.trans (Nat.le_add_right ..)) hearly]
      exact congrArg Host.Outcome.next (if_pos hnow)
    · have hx := execMergeDecision_inTime hen hb hn hlate (hdue.trans (Nat.le_add_right ..))
      rw [if_neg (show ¬s.nowTu < s.pairDue m.val n from Nat.not_lt.2 hdue)] at hx
      refine ⟨_, hx, fun h => ?_, fun h => State.mergeTile_last h⟩
      obtain ⟨hunit, htile⟩ := State.mergeTile_within (m := m.val) (n := n) (at_ := s.pairDue m.val n) (s := s.fresh) h
      exact ⟨hunit.trans hn, htile⟩
  case mergeOff => exact fun s m h => execMergeDecision_idle h
  case latches =>
    intro s c k hc ha
    refine ⟨_, execComposerLatch_eq hc ha, ?_, ?_, fun n hn => ?_⟩
    · rw [State.compSt_setCompSt_same]
    · rw [State.compSt_setCompSt_same]
    · rw [State.compSt_setCompSt, if_neg hn]
      rfl
  case latchOff => exact fun s c k h => execComposerLatch_idle h
  case starts =>
    intro s c k hc hp hen hrun hgang hiso hheld
    have hn : (4 * c.val + k.val) / 4 = c.val := by omega
    have hv : (s.compWritten (4 * c.val + k.val)).gang = false := by
      show s.compGang ((4 * c.val + k.val) / 4) = false
      rw [hn, hgang]
    obtain ⟨hruns, hframes, hout⟩ := State.compFrame_alone (n := 4 * c.val + k.val) (s := s.fresh.setCompState (4 * c.val + k.val) 1) hv
    refine ⟨_, execComposerFrameStart_starts hc hp hen hrun hgang hiso hheld, hruns, hframes.trans ?_, ?_⟩
    · rw [State.setCompState, State.compSt_setCompOut]
      rfl
    · rw [hout, State.setCompState, State.compOut_setCompOut_same, fget_fput _ _ _ (by decide)]
      rfl
  case compOff => exact fun s c k h => execComposerFrameStart_idle h
  case lutBad =>
    intro s tb b i h
    refine ⟨_, execCompLutParity_eq h, ?_, State.raise0_status .., ?_⟩
    · rw [State.raise0_cmp]
      exact mem_noted ..
    · rw [State.raise0_cmp]
      rfl
  case noBank => exact fun s tb b i h hi => execCompLutParity_idle h hi
  case calHeld => exact fun s h => execCalliopeTick_held h
  case calRuns =>
    intro s hb hheld hen hp hiso
    have hx := execCalliopeTick_eq hb hheld
    rw [hen, hp, hiso] at hx
    have hrunning := State.calTick_running (s := s.fresh)
    refine ⟨_, hx, congrArg Prod.fst hrunning, ?_, rte_of_kept (State.calTick_kept (μ := 0x2CA3D4) s.fresh)⟩
    rw [show s.fresh.calTick.cal.ctl = _ from congrArg Prod.snd hrunning]
    exact fget_calState _ (by decide)
  case calIsolated =>
    intro s hb hheld hen hp hiso
    have hx := execCalliopeTick_eq hb hheld
    rw [hen, hp, hiso] at hx
    exact ⟨_, hx, fget_calState _ (by decide), rfl, rfl⟩
  case calStops =>
    intro s hb hheld hen hrun
    have hx := execCalliopeTick_eq hb hheld
    rw [hen, hrun] at hx
    obtain ⟨hstop, hctl, hmix⟩ := State.calIdle_cal (s := s.fresh)
    refine ⟨s.fresh.calIdle, hx, hstop, ?_, hmix⟩
    rw [hctl]
    exact fget_calState _ (by decide)
  case slotSteps =>
    intro s o k f old new hf hold hnew
    obtain ⟨v, slips, hslots, hx⟩ := execAudioReaderTile_steps (k := k) hf hold hnew
    have hrte := (State.audioSlips_rte (s.locOut o.val) 0 k.val o.val slips _).trans
      (s.fresh.slotSent_rte o.val k.val f v (old.heard new (s.out o.val).gen))
    have hv := (State.out_of_rte hrte o.val).trans (State.out_setOut_same ..)
    refine ⟨_, hx, fun hplays => ?_, fun hidle => ?_, fun hruns hcarried => ?_, fun n hn => ?_, ?_⟩
    · rw [hv, hslots, getD_set_same, if_pos (AudSlot.lt_length_of_playing (hold ▸ hplays)), AudSlot.ended_of_playing hplays]
    · rw [hv, hslots, getD_set_same]
      split
      · rw [AudSlot.ended_srcs, hnew, State.stepSlot_idle hidle]
      · rfl
    · rw [← AudSlot.heard_eq]
      refine State.mem_audioSlips_emitted _ _ _ _ _ _ ?_
      have hsent : ((s.fresh.out o.val).running && slotCarried s.fresh f k.val) = true := Bool.and_eq_true_iff.2 ⟨hruns, hcarried⟩
      rw [State.slotSent, if_pos hsent]
      exact List.mem_append_right _ (List.mem_singleton.2 rfl)
    · rw [State.out_of_rte hrte, State.out_setOut, if_neg hn]
      rfl
    · exact (State.audioSlips_mem ..).trans (State.slotSent_mem ..)
  case noFormat => exact fun s o k h => execAudioReaderTile_idle h
  case fadeEnds => exact fun s i k => mem_execTapCrossfadeEnd i k
  case crosspoint =>
    intro s b i
    refine ⟨_, rfl, ?_, State.raise0_status .., ?_⟩
    · rw [State.raise0_cal]
      exact mem_noted ..
    · rw [State.raise0_cal]
      rfl
  case bus =>
    intro s b
    refine ⟨_, rfl, ?_, State.raise0_status ..⟩
    rw [State.raise0_cal]
    exact mem_noted ..
  case channel =>
    intro s o c
    refine ⟨_, rfl, ?_, State.raise0_status ..⟩
    rw [State.raise0_cal]
    exact mem_noted ..
  case tapMap =>
    intro s i c
    refine ⟨_, rfl, ?_, State.raise0_status ..⟩
    rw [State.raise0_cal]
    exact mem_noted ..

end Sys2Proof.Machine
end

section
/-! PROOFS. The COMPOSE commands (R216 to R219, R233, R238, R418 to R420): what each command's passed checks give, and what it leaves where it
is applied at once and where it is held for its TARGET. -/

namespace Sys2Proof.Machine

open Sys2Proof

/-! ### One record of the Composers written -/

section
variable (k n : Nat) (v : BitVec 256) (s : State)

theorem State.compOut_setCompOut : (s.setCompOut k v).compOut n = if n = k then v else s.compOut n := tget_tset ..

theorem State.compLayer_setCompLayer : (s.setCompLayer k v).compLayer n = if n = k then v else s.compLayer n := tget_tset ..

@[simp] theorem State.compLayer_setCompLayer_same : (s.setCompLayer k v).compLayer k = v := tget_tset_same ..

@[simp] theorem State.setCompLayer_out : (s.setCompLayer k v).cmp.out = s.cmp.out := rfl

@[simp] theorem State.setCompLayer_held : (s.setCompLayer k v).cmp.held = s.cmp.held := rfl

@[simp] theorem State.setCompOut_held : (s.setCompOut k v).cmp.held = s.cmp.held := rfl

end

section
variable {s t : State}

theorem State.compOut_of_out (h : t.cmp.out = s.cmp.out) (n : Nat) : t.compOut n = s.compOut n := by
  rw [State.compOut, State.compOut, h]

theorem State.compLayer_of_layer (h : t.cmp.layer = s.cmp.layer) (i : Nat) : t.compLayer i = s.compLayer i := by
  rw [State.compLayer, State.compLayer, h]

end

/-! ### A request taken up shows the same records -/

section
variable (q : Req) (s : State) (n : Nat)

@[simp] theorem taken_compOut : (taken q s).compOut n = s.compOut n := by simp [State.compOut]

@[simp] theorem taken_compLayer : (taken q s).compLayer n = s.compLayer n := by simp [State.compLayer]

@[simp] theorem taken_compMode : (taken q s).compMode n = s.compMode n := by simp [State.compMode]

@[simp] theorem taken_laySt : (taken q s).laySt n = s.laySt n := by simp [State.laySt]

@[simp] theorem taken_planeOn : (taken q s).planeOn n = s.planeOn n := by simp [State.planeOn]

end

/-! ### Applied now, or held for TARGET (R238) -/

section
variable {op : Nat} {q : Req} {s u v : State} {o : BitVec 256} {obj : Target} {bytes : List Byte} {apply : State → State} {at_ : Nat}

theorem compApply_now (h : Req.u64 q 4 = 0) : compApply op q o obj bytes apply s = .ok (apply s) := if_pos h

theorem compApply_held (h : Req.u64 q 4 ≠ 0) (hp : s.planeOn (fget o CompOut.plane) = true)
    (ht : heldTiming s q (receiptOf op q s) (s.compNextF o) = .ok (at_, v)) :
    compApply op q o obj bytes apply s = .ok (holdWrite at_ obj bytes v) := by
  rw [compApply, if_neg h, hp, ht]
  rfl

/-- A write held for its TARGET: it joins those held, and claims and the event of a TARGET that was moved aside, the rest stays as it was. -/
structure HeldWrite (h : Held) (s t : State) : Prop where
  cmp : t.cmp = { s.cmp with held := s.cmp.held ++ [h] }
  rest : t.kept 0x2C4214 = s.kept 0x2C4214

theorem HeldWrite.of_timing {receipt : Nat} {first : Nat → Nat} (hu : u.kept 0x200 = (taken q s).kept 0x200)
    (ht : heldTiming u q receipt first = .ok (at_, v)) : HeldWrite ⟨at_, obj, bytes⟩ s (holdWrite at_ obj bytes v) := by
  have hv : v.kept 0x2C0214 = (taken q s).kept 0x2C0214 := ((heldTiming_ok ..).out _ ht).trans (kept_mono (by decide) hu)
  have hc : v.cmp = s.cmp := (cmp_of_kept hv).trans (taken_cmp ..)
  refine ⟨?_, (holdWrite_kept ..).trans ((kept_mono (by decide) hv).trans (kept_mono (by decide) (taken_kept q s)))⟩
  rw [holdWrite, State.onCmp_cmp, hc]

theorem HeldWrite.compOut {h : Held} {s t : State} (w : HeldWrite h s t) (n : Nat) : t.compOut n = s.compOut n :=
  State.compOut_of_out (by rw [w.cmp]) n

theorem HeldWrite.compLayer {h : Held} {s t : State} (w : HeldWrite h s t) (i : Nat) : t.compLayer i = s.compLayer i :=
  State.compLayer_of_layer (by rw [w.cmp]) i

end

/-! ### COMP_OUT_WRITE -/

section
variable {q : Req} {s u v : State} {n : Nat} {o : BitVec 256} {at_ : Nat}

/-- COMP_OUT_WRITE's passed checks: one of the 64 output records, and the request's record over the one that stands. -/
theorem compOutWriteCheck_facts (h : compOutWriteCheck q s = .ok (n, o, u)) :
    n = Req.u32 q 0 ∧ n < 64 ∧ o = mergeRec CompOut.layout (s.compOut n) (Req.recordBytes q 32) := by
  obtain ⟨hn, h⟩ := index_bind.1 h
  obtain ⟨o', ho, h⟩ := ok_bind_iff.1 h
  obtain ⟨-, h⟩ := needAt_bind.1 h
  split at h
  · obtain ⟨_, -, h⟩ := ok_bind_iff.1 h
    cases pure_eq_ok.1 h
    exact ⟨rfl, hn, writeRecordX_eq ho⟩
  · cases pure_eq_ok.1 h
    exact ⟨rfl, hn, writeRecordX_eq ho⟩

theorem cmdCompOutWrite_now (h : compOutWriteCheck q s = .ok (n, o, u)) (h0 : Req.u64 q 4 = 0) :
    cmdCompOutWrite q s = .ok (compOutDo n o u, recBytes ((compOutDo n o u).compOut n)) := by
  rw [cmdCompOutWrite, h, ok_bind]
  dsimp only
  rw [compApply_now h0]
  rfl

theorem cmdCompOutWrite_held (h : compOutWriteCheck q s = .ok (n, o, u)) (h0 : Req.u64 q 4 ≠ 0)
    (hp : u.planeOn (fget o CompOut.plane) = true) (ht : heldTiming u q (receiptOf 0x0700 q u) (u.compNextF o) = .ok (at_, v)) :
    cmdCompOutWrite q s = .ok (holdWrite at_ (.compOut n) (recBytes o) v,
      recBytes ((holdWrite at_ (.compOut n) (recBytes o) v).compOut n)) := by
  rw [cmdCompOutWrite, h, ok_bind]
  dsimp only
  rw [compApply_held h0 hp ht]
  rfl

/-- A start or a stop changes claims and write credits as well (R217); of the Composers' own state the record alone changes. -/
theorem compOutDo_cmp (n : Nat) (o : BitVec 256) (s : State) : (compOutDo n o s).cmp = (s.setCompOut n o).cmp := by
  have hsync (c : Prop) [Decidable c] (r : Nat) (t : State) : (if c then t.syncWcred r else t).cmp = t.cmp := by
    split
    · exact cmp_of_kept (State.syncWcred_kept (μ := 0x40) ..)
    · rfl
  unfold compOutDo
  extract_lets s1 started s2
  split
  · exact (cmp_of_kept (State.dropConversion_kept (μ := 0x240) ..)).trans (hsync ..)
  · exact hsync ..

end

/-! ### COMP_LAYER_WRITE -/

section
variable {q : Req} {s u v : State} {i : Nat} {e o : BitVec 256} {at_ : Nat}

/-- COMP_LAYER_WRITE's passed checks: one of the 128 layer records, and the request's record over the one that stands. -/
theorem compLayerWriteCheck_facts (h : compLayerWriteCheck q s = .ok (i, e, u)) :
    i = Req.u32 q 0 ∧ i < 128 ∧ e = mergeRec Layer.layout (s.compLayer i) (Req.recordBytes q 32) := by
  obtain ⟨hi, h⟩ := index_bind.1 h
  obtain ⟨e', he, h⟩ := ok_bind_iff.1 h
  split at h
  · obtain ⟨_, -, h⟩ := ok_bind_iff.1 h
    dsimp only at h
    split at h
    · obtain ⟨_, -, h⟩ := ok_bind_iff.1 h
      cases pure_eq_ok.1 h
      exact ⟨rfl, hi, writeRecord_eq he⟩
    · cases pure_eq_ok.1 h
      exact ⟨rfl, hi, writeRecord_eq he⟩
  · cases pure_eq_ok.1 h
    exact ⟨rfl, hi, writeRecord_eq he⟩

theorem cmdCompLayerWrite_now (h : compLayerWriteCheck q s = .ok (i, e, u)) (h0 : Req.u64 q 4 = 0) :
    cmdCompLayerWrite q s = .ok (u.setCompLayer i e, recBytes ((u.setCompLayer i e).compLayer i)) := by
  rw [cmdCompLayerWrite, h, ok_bind]
  dsimp only
  rw [compApply_now h0]
  rfl

theorem cmdCompLayerWrite_held (h : compLayerWriteCheck q s = .ok (i, e, u)) (h0 : Req.u64 q 4 ≠ 0)
    (ho : o = s.compOut (4 * (i / 8) + layerConv (s.compMode (i / 8)) (i % 8))) (hp : u.planeOn (fget o CompOut.plane) = true)
    (ht : heldTiming u q (receiptOf 0x0701 q u) (u.compNextF o) = .ok (at_, v)) :
    cmdCompLayerWrite q s = .ok (holdWrite at_ (.compLayer i) (recBytes e) v,
      recBytes ((holdWrite at_ (.compLayer i) (recBytes e) v).compLayer i)) := by
  subst ho
  rw [cmdCompLayerWrite, h, ok_bind]
  dsimp only
  rw [compApply_held h0 hp ht]
  rfl

end

/-! ### COMP_MATRIX_WRITE -/

section
variable {q : Req} {s v : State} {i : Nat} {m : BitVec 288} {o : BitVec 256} {at_ : Nat}

/-- COMP_MATRIX_WRITE's passed checks: one of the 128 matrices, and the request's coefficients over those that stand. -/
theorem compMatrixWriteCheck_facts (h : compMatrixWriteCheck q s = .ok (i, m)) :
    i = Req.u32 q 0 ∧ i < 128 ∧ m = mergeRec matLayout (tget matReset s.cmp.mat i) (Req.recordBytes q 36) := by
  obtain ⟨hi, h⟩ := index_bind.1 h
  obtain ⟨m', hm, h⟩ := ok_bind_iff.1 h
  cases pure_eq_ok.1 h
  exact ⟨rfl, hi, writeRecordX_eq hm⟩

theorem cmdCompMatrixWrite_now (h : compMatrixWriteCheck q s = .ok (i, m)) (h0 : Req.u64 q 4 = 0) :
    cmdCompMatrixWrite q s = .ok (s.setCompMat i m, recBytes m) := by
  rw [cmdCompMatrixWrite, h, ok_bind]
  dsimp only
  rw [compApply_now h0, ok_bind, State.setCompMat, State.onCmp_cmp, tget_tset_same]
  rfl

theorem cmdCompMatrixWrite_held (h : compMatrixWriteCheck q s = .ok (i, m)) (h0 : Req.u64 q 4 ≠ 0)
    (ho : o = s.compOut (4 * (i / 8) + layerConv (s.compMode (i / 8)) (i % 8))) (hp : s.planeOn (fget o CompOut.plane) = true)
    (ht : heldTiming s q (receiptOf 0x0702 q s) (s.compNextF o) = .ok (at_, v)) :
    cmdCompMatrixWrite q s = .ok (holdWrite at_ (.compMatrix i) (recBytes m) v,
      recBytes (tget matReset (holdWrite at_ (.compMatrix i) (recBytes m) v).cmp.mat i)) := by
  subst ho
  rw [cmdCompMatrixWrite, h, ok_bind]
  dsimp only
  rw [compApply_held h0 hp ht]
  rfl

end

/-! ### COMP_CURSOR_WRITE -/

section
variable {q : Req} {s v : State} {c : Nat} {r : BitVec 128} {at_ : Nat}

/-- COMP_CURSOR_WRITE's passed checks: one of the 16 cursors, and the request's record over the one that stands. -/
theorem compCursorWriteCheck_facts (h : compCursorWriteCheck q s = .ok (c, r)) :
    c = Req.u32 q 0 ∧ c < 16 ∧ r = mergeRec Cursor.layout (tget curReset s.cmp.cur c) (Req.recordBytes q 16) := by
  obtain ⟨hc, h⟩ := index_bind.1 h
  obtain ⟨r', hr, h⟩ := ok_bind_iff.1 h
  obtain ⟨-, h⟩ := need_bind.1 h
  cases pure_eq_ok.1 h
  exact ⟨rfl, hc, writeRecord_eq hr⟩

theorem cmdCompCursorWrite_now (h : compCursorWriteCheck q s = .ok (c, r)) (h0 : Req.u64 q 4 = 0) :
    cmdCompCursorWrite q s = .ok (s.cursorWritten c r, recBytes (tget curReset (s.cursorWritten c r).cmp.cur c)) := by
  rw [cmdCompCursorWrite, h, ok_bind]
  dsimp only
  rw [compApply_now h0]
  rfl

theorem cmdCompCursorWrite_held (h : compCursorWriteCheck q s = .ok (c, r)) (h0 : Req.u64 q 4 ≠ 0)
    (hp : s.planeOn (fget (s.compOut (4 * c)) CompOut.plane) = true)
    (ht : heldTiming s q (receiptOf 0x0703 q s) (s.compNextF (s.compOut (4 * c))) = .ok (at_, v)) :
    cmdCompCursorWrite q s = .ok (holdWrite at_ (.compCursor c) (recBytes r) v,
      recBytes (tget curReset (holdWrite at_ (.compCursor c) (recBytes r) v).cmp.cur c)) := by
  rw [cmdCompCursorWrite, h, ok_bind]
  dsimp only
  rw [compApply_held h0 hp ht]
  rfl

/-- A cursor record written changes one cursor and, of a running frame, the second field's position (R233). -/
theorem State.cursorWritten_cmp (c : Nat) (r : BitVec 128) (s : State) : ∃ st,
    (s.cursorWritten c r).cmp = { s.cmp with cur := tset curReset s.cmp.cur c r, st := st } ∧
    (tget compStReset st (4 * c)).run = (s.compSt (4 * c)).run := by
  unfold State.cursorWritten
  extract_lets s1
  split
  · split
    · refine ⟨_, rfl, ?_⟩
      rw [tget_tset_same]
      rfl
    · exact ⟨_, rfl, rfl⟩
  · exact ⟨_, rfl, rfl⟩

end

/-! ### COMP_LOAD (R420) -/

section
variable {q : Req} {s : State} {x : Load} {others : List Load} {last : Bool}

/-- A check made under a condition has passed or was not made. -/
theorem need_when {β : Type} {c : Prop} [Decidable c] {b : Bool} {st : Nat} {f : Unit → Except Err β} {y : β}
    (h : (if c then need b st >>= f else f ()) = .ok y) : f () = .ok y := by
  split at h
  · exact (need_bind.1 h).2
  · exact h

/-- A chunk that starts a load or goes on where the last one ended leaves the load as long as the chunk's end. -/
theorem chunk_length {off n : Nat} {before chunk : List Byte} (h : (off == 0 || (!before.isEmpty && off == before.length)) = true) :
    ((if off = 0 then [] else before) ++ fitBytes n chunk).length = off + n := by
  rw [List.length_append, fitBytes_length]
  split
  · next h0 => rw [h0, List.length_nil]
  · next h0 =>
    simp only [h0, beq_iff_eq, Bool.or_eq_true, Bool.and_eq_true, false_or] at h
    rw [h.2]

/-- COMP_LOAD's passed checks: the load as its chunk leaves it, which the last chunk makes as long as its bank. -/
theorem compLoadCheck_facts (h : compLoadCheck q s = .ok (x, others, last)) :
    x.table = Req.u8 q 0 ∧ x.bank = Req.u8 q 1 ∧ x.index = Req.u32 q 4 ∧ x.bytes.length = Req.u32 q 8 + Req.u16 q 12 ∧
      others = s.cmp.loads.filter (fun y => !sameLoad x.table x.bank x.index y) ∧
      (last = true → x.bytes.length = bankSize x.table) := by
  obtain ⟨-, h⟩ := needAt_bind.1 h
  obtain ⟨-, h⟩ := needAt_bind.1 h
  obtain ⟨_, -, h⟩ := ok_bind_iff.1 h
  obtain ⟨-, h⟩ := needAt_bind.1 h
  obtain ⟨-, h⟩ := needAt_bind.1 h
  obtain ⟨-, h⟩ := needAt_bind.1 h
  obtain ⟨_, -, h⟩ := ok_bind_iff.1 h
  obtain ⟨-, h⟩ := layout_bind.1 h
  obtain ⟨hoff, h⟩ := needAt_bind.1 h
  obtain ⟨hlen, h⟩ := needAt_bind.1 h
  have h := need_when (need_when h)
  cases pure_eq_ok.1 h
  refine ⟨rfl, rfl, rfl, chunk_length hoff, rfl, fun hlast => (chunk_length hoff).trans ?_⟩
  rw [if_pos hlast] at hlen
  exact beq_iff_eq.1 hlen

theorem cmdCompLoad_more (h : compLoadCheck q s = .ok (x, others, false)) :
    cmdCompLoad q s = .ok (.now (s.setLoads (others ++ [x])) (leBytes 4 x.bytes.length)) := by
  rw [cmdCompLoad, h]
  rfl

theorem cmdCompLoad_commits (h : compLoadCheck q s = .ok (x, others, true)) (hb : bankOk x.table x.bytes = true) :
    cmdCompLoad q s = .ok (.now ((s.setLoads others).commitBank x) (leBytes 4 x.bytes.length)) := by
  rw [cmdCompLoad, h, ok_bind]
  exact if_pos hb

theorem cmdCompLoad_discards (h : compLoadCheck q s = .ok (x, others, true)) (hb : bankOk x.table x.bytes = false) :
    cmdCompLoad q s = .ok (.failed (s.setLoads others) eRange (leBytes 2 16)) := by
  rw [cmdCompLoad, h, ok_bind]
  exact if_neg (Bool.eq_false_iff.1 hb)

end

/-! ### COMP_READ and COMP_LAYER_READ -/

section
variable {q : Req} {s : State}

theorem cmdCompRead_eq (hc : Req.u32 q 0 < 16) (ht : Req.trailingOk q 8 = true) (hr : Req.u32 q 4 < 2) :
    cmdCompRead q s = .ok (s, (List.range 4).flatMap (fun k => recBytes (s.compOut (4 * Req.u32 q 0 + k))) ++
      recBytes (tget curReset s.cmp.cur (Req.u32 q 0))) := by
  rw [cmdCompRead, readArgs_ok hc ht hr]
  rfl

theorem cmdCompLayerRead_eq (hi : Req.u32 q 0 < 128) (ht : Req.trailingOk q 8 = true) (hr : Req.u32 q 4 < 2) :
    cmdCompLayerRead q s = .ok
      (if Req.u32 q 4 = 1 then s.setLaySt (Req.u32 q 0) { s.laySt (Req.u32 q 0) with repeats := 0, skips := 0 } else s,
        recBytes (s.compLayer (Req.u32 q 0)) ++ recBytes (tget matReset s.cmp.mat (Req.u32 q 0)) ++
          leBytes 4 (s.laySt (Req.u32 q 0)).repeats ++ leBytes 4 (s.laySt (Req.u32 q 0)).skips) := by
  rw [cmdCompLayerRead, readArgs_ok hi ht hr]
  simp only [ok_bind, beq_iff_eq]
  rfl

end

/-! ### The obligation -/

/-- Settles O21: each write's passed checks give the merged record and touch claims alone, so that applying it changes one record, and holding it
(the model's log 45: the whole merged record) changes nothing but the list of those held; a chunk's passed checks give the load it leaves. -/
theorem composerCommandsTakeEffect : Obligations.ComposerCommandsTakeEffect := by
  refine ⟨?out, ?outHeld, ?layer, ?layerHeld, ?matrix, ?matrixHeld, ?cursor, ?cursorHeld, ?more, ?commits, ?discards, ?read, ?layerRead⟩
  case out =>
    intro q s n o u hs hc h0
    obtain ⟨hn, hlt, ho⟩ := compOutWriteCheck_facts hc
    have hu : u.kept 0x200 = (taken q s).kept 0x200 := (compOutWriteCheck_ok ..).out _ hc
    have hcmp : (compOutDo n o u).cmp = (s.setCompOut n o).cmp := by
      rw [compOutDo_cmp, State.setCompOut, State.onCmp_cmp, cmp_of_kept hu, taken_cmp]
      rfl
    have hk : (compOutDo n o u).kept 0x4244 = s.kept 0x4244 :=
      (compOutDo_kept ..).trans ((kept_mono (by decide) hu).trans (kept_mono (by decide) (taken_kept q s)))
    refine ⟨_, serve_ok hs (cmdCompOutWrite_now hc h0), hn, hlt, by simpa using ho, ?_, fun m hm => ?_,
      (congrArg CmpSt.held hcmp).trans (State.setCompOut_held ..), (tiles_of_kept hk).1, rte_of_kept hk, cal_of_kept hk, pwr_of_kept hk⟩
    · rw [State.compOut_of_out (congrArg CmpSt.out hcmp), State.compOut_setCompOut_same]
    · rw [State.compOut_of_out (congrArg CmpSt.out hcmp), State.compOut_setCompOut, if_neg hm]
  case outHeld =>
    intro q s n o u at_ v hs hc h0 hp ht
    have hw : HeldWrite ⟨at_, .compOut n, recBytes o⟩ s _ := .of_timing ((compOutWriteCheck_ok ..).out _ hc) ht
    have h := serve_ok (peers := []) hs (cmdCompOutWrite_held hc h0 hp ht)
    rw [hw.compOut] at h
    exact ⟨_, h, hw.cmp, rte_of_kept hw.rest, cal_of_kept hw.rest, pwr_of_kept hw.rest⟩
  case layer =>
    intro q s i e u hs hc h0
    obtain ⟨hi, hlt, he⟩ := compLayerWriteCheck_facts hc
    have hu : u.kept 0x200 = (taken q s).kept 0x200 := (compLayerWriteCheck_ok ..).out _ hc
    have hcmp : u.cmp = s.cmp := (cmp_of_kept hu).trans (taken_cmp ..)
    have hk : (u.setCompLayer i e).kept 0x4204 = s.kept 0x4204 :=
      (State.setCompLayer_kept ..).trans ((kept_mono (by decide) hu).trans (kept_mono (by decide) (taken_kept q s)))
    have h := serve_ok (peers := []) hs (cmdCompLayerWrite_now hc h0)
    rw [State.compLayer_setCompLayer_same] at h
    refine ⟨_, h, hi, hlt, by simpa using he, State.compLayer_setCompLayer_same .., fun j hj => ?_,
      (State.setCompLayer_out ..).trans (congrArg CmpSt.out hcmp), (State.setCompLayer_held ..).trans (congrArg CmpSt.held hcmp),
      mem_of_kept hk, rte_of_kept hk, cal_of_kept hk, pwr_of_kept hk⟩
    rw [State.compLayer_setCompLayer, if_neg hj, State.compLayer_of_layer (congrArg CmpSt.layer hcmp)]
  case layerHeld =>
    intro q s i e u o at_ v hs hc h0 ho hp ht
    have hw : HeldWrite ⟨at_, .compLayer i, recBytes e⟩ s _ := .of_timing ((compLayerWriteCheck_ok ..).out _ hc) ht
    have h := serve_ok (peers := []) hs (cmdCompLayerWrite_held hc h0 (by simpa using ho) hp ht)
    rw [hw.compLayer] at h
    exact ⟨_, h, hw.cmp, mem_of_kept hw.rest, rte_of_kept hw.rest⟩
  case matrix =>
    intro q s i m hs hc h0
    obtain ⟨hi, hlt, hm⟩ := compMatrixWriteCheck_facts hc
    exact ⟨hi, hlt, by simpa using hm, serve_ok hs (cmdCompMatrixWrite_now hc h0)⟩
  case matrixHeld =>
    intro q s i m at_ v hs hc h0 hp ht
    have hw : HeldWrite ⟨at_, .compMatrix i, recBytes m⟩ s _ := .of_timing rfl ht
    have h := serve_ok (peers := []) hs (cmdCompMatrixWrite_held hc h0 (by simp) (by simpa using hp) ht)
    rw [hw.cmp] at h
    exact ⟨_, h, hw.cmp, mem_of_kept hw.rest, rte_of_kept hw.rest⟩
  case cursor =>
    intro q s c r hs hc h0
    obtain ⟨hlt, hlt', hr⟩ := compCursorWriteCheck_facts hc
    obtain ⟨st, hcmp, hrun⟩ := State.cursorWritten_cmp c r (taken q s)
    have hk : ((taken q s).cursorWritten c r).kept 0x4004 = s.kept 0x4004 :=
      (State.cursorWritten_kept ..).trans (kept_mono (by decide) (taken_kept q s))
    have h := serve_ok (peers := []) hs (cmdCompCursorWrite_now hc h0)
    rw [taken_cmp] at hcmp
    rw [hcmp, tget_tset_same] at h
    refine ⟨_, h, hlt, hlt', by simpa using hr, ?_, fun d hd => ?_, ?_, by rw [hcmp], by rw [hcmp], by rw [hcmp],
      mem_of_kept hk, rte_of_kept hk, bud_of_kept hk⟩
    · rw [hcmp, tget_tset_same]
    · rw [hcmp, tget_tset, if_neg hd]
    · rw [State.compSt, hcmp, hrun, State.compSt, taken_cmp, State.compSt]
  case cursorHeld =>
    intro q s c r at_ v hs hc h0 hp ht
    have hw : HeldWrite ⟨at_, .compCursor c, recBytes r⟩ s (holdWrite at_ (.compCursor c) (recBytes r) v) := .of_timing rfl ht
    have h := serve_ok (peers := []) hs (cmdCompCursorWrite_held hc h0 (by simpa using hp) (by simpa using ht))
    rw [hw.cmp] at h
    exact ⟨_, h, hw.cmp, mem_of_kept hw.rest, rte_of_kept hw.rest⟩
  case more =>
    intro q s x others hs hc
    obtain ⟨htable, hbank, hindex, hlen, hothers, -⟩ := compLoadCheck_facts hc
    exact ⟨htable, hbank, hindex, hlen, by simpa using hothers, serveAns_ok hs (cmdCompLoad_more hc)⟩
  case commits =>
    intro q s x others hs hc hb
    obtain ⟨-, -, -, -, -, hfull⟩ := compLoadCheck_facts hc
    exact ⟨hfull rfl, serveAns_ok hs (cmdCompLoad_commits hc hb)⟩
  case discards => exact fun q s x others hs hc hb => serveAns_ok hs (cmdCompLoad_discards hc hb)
  case read =>
    intro q s hs hc ht hr
    have h := serve_ok (peers := []) hs (cmdCompRead_eq (s := taken q s) hc ht hr)
    simp only [taken_compOut, taken_cmp] at h
    exact h
  case layerRead =>
    intro q s hs hi ht hr
    have h := serve_ok (peers := []) hs (cmdCompLayerRead_eq (s := taken q s) hi ht hr)
    simp only [taken_compLayer, taken_cmp, taken_laySt] at h
    exact h

end Sys2Proof.Machine
end

section
/-! PROOFS. The AUDIO commands (R244 to R262, R421): what each command's passed checks give, and what it leaves where it is applied at once
and where it is held for its TARGET (R247). -/

namespace Sys2Proof.Machine

open Sys2Proof

/-! ### Calliope's records read alike where its state is the same -/

section
variable {s t : State}

theorem State.audIn_of_cal (h : t.cal = s.cal) (i : Nat) : t.audIn i = s.audIn i := by rw [State.audIn, State.audIn, h]

theorem State.audOut_of_cal (h : t.cal = s.cal) (o : Nat) : t.audOut o = s.audOut o := by rw [State.audOut, State.audOut, h]

theorem State.mixBus_of_cal (h : t.cal = s.cal) (b : Nat) : t.mixBus b = s.mixBus b := by rw [State.mixBus, State.mixBus, h]

theorem State.busInput_of_cal (h : t.cal = s.cal) (i : Nat) : t.busInput i = s.busInput i := by rw [State.busInput, State.busInput, h]

theorem State.dynRec_of_cal (h : t.cal = s.cal) (i : Nat) : t.dynRec i = s.dynRec i := by rw [State.dynRec, State.dynRec, h]

theorem taken_cal_held (q : Req) (s : State) : (taken q s).cal.held = s.cal.held := by rw [taken_cal]

theorem State.audBytes_of_cal (h : t.cal = s.cal) (kind i : Nat) : t.audBytes kind i = s.audBytes kind i := by
  simp only [State.audBytes, State.audOutBytes, State.busImage, State.busEntries, State.inSt, State.audIn, State.audOut, State.audCh,
    State.mixBus, State.busInput, State.dynRec, h]

end

/-! ### One record of Calliope written -/

theorem audInDo_cal (i : Nat) (e : BitVec 256) (s : State) :
    (audInDo i e s).cal = { s.cal with audIn := tset audInReset s.cal.audIn i e, offIn := s.cal.offIn.filter (fun x => x / 16 != i) } := by
  unfold audInDo
  extract_lets s1
  split
  · rfl
  · exact cal_of_kept (State.dropTaps_kept (μ := 0x200) ..)

theorem State.audIn_audInDo (i j : Nat) (e : BitVec 256) (s : State) : (audInDo i e s).audIn j = if j = i then e else s.audIn j := by
  rw [State.audIn, audInDo_cal]
  exact tget_tset ..

/-- A header switched on changes write credits as well (R250); of Calliope's own state the slot's header and entries alone change. -/
theorem audOutDo_cal (o : Nat) (h : BitVec 128) (l : List (BitVec 64)) (s : State) :
    (audOutDo o h l s).cal = { s.cal with
      outHdr := tset outHdrReset s.cal.outHdr o h
      outCh := l.zipIdx.foldl (fun t e => tset outChReset t (16 * o + e.2) e.1) s.cal.outCh
      offCh := s.cal.offCh.filter (fun x => x / 16 != o) } := by
  unfold audOutDo
  extract_lets s1
  split
  · exact cal_of_kept (State.syncWcred_kept (μ := 0x40) ..)
  · rfl

theorem State.audOut_audOutDo (o j : Nat) (h : BitVec 128) (l : List (BitVec 64)) (s : State) :
    (audOutDo o h l s).audOut j = if j = o then h else s.audOut j := by
  rw [State.audOut, audOutDo_cal]
  exact tget_tset ..

theorem State.mixBus_audBusDo (b j : Nat) (e : BitVec 256) (s : State) : (audBusDo b e s).mixBus j = if j = b then e else s.mixBus j :=
  tget_tset ..

/-- A dynamics record taken on: one that starts, or does not run, has no gain reduction (R258). -/
theorem State.dynRec_audDynDo (i j : Nat) (e : BitVec 256) (s : State) : (audDynDo i e s).dynRec j =
    if j = i then (if (fbit e Dyn.dynEn && !fbit (s.dynRec i) Dyn.dynEn) || !fbit e Dyn.dynEn then fput e Dyn.gr 0 else e) else s.dynRec j :=
  tget_tset ..

section
variable {α : Type} [DecidableEq α] (d : Nat → α) (l : List α) (base m : Nat) (t : Tab α)

/-- Entries set one after the other leave those before and after them. -/
theorem tget_foldl_tset_outside {j : Nat} (h : j < base + m ∨ base + m + l.length ≤ j) :
    tget d ((l.zipIdx m).foldl (fun t e => tset d t (base + e.2) e.1) t) j = tget d t j := by
  induction l generalizing m t with
  | nil => rfl
  | cons x xs ih =>
    rw [List.length_cons] at h
    rw [List.zipIdx_cons, List.foldl_cons, ih _ _ (by omega), tget_tset, if_neg (show j ≠ base + m by omega)]

/-- Entries set one after the other read as the list that set them. -/
theorem tget_foldl_tset_inside {k : Nat} (h : k < l.length) :
    tget d ((l.zipIdx m).foldl (fun t e => tset d t (base + e.2) e.1) t) (base + m + k) = l[k] := by
  induction l generalizing m t k with
  | nil => exact absurd h (Nat.not_lt_zero k)
  | cons x xs ih =>
    rw [List.zipIdx_cons, List.foldl_cons]
    cases k with
    | zero =>
      rw [tget_foldl_tset_outside _ _ _ _ _ (.inl (by omega))]
      exact tget_tset_same ..
    | succ k =>
      rw [show base + m + (k + 1) = base + (m + 1) + k by omega]
      exact ih _ _ (Nat.lt_of_succ_lt_succ h)

end

/-! ### Applied now, or held for TARGET (R247) -/

/-- A write held for the first tick at or after its TARGET. -/
def State.holdAudio (at_ : Nat) (obj : Target) (bytes : List Byte) (s : State) : State :=
  s.onCal (fun c => { c with held := c.held ++ [⟨at_, obj, bytes⟩] })

section
variable {op target : Nat} {q : Req} {s u v : State} {obj : Target} {bytes : List Byte} {apply : State → State} {at_ : Nat}

theorem calApply_now (h : target = 0) : calApply op target q obj bytes apply s = .ok (apply s) := if_pos h

theorem calApply_held (h : target ≠ 0) (hp : s.planeOn (fget s.cal.ctl Cal.calPlane) = true) (hroom : s.cal.held.length < 256)
    (ht : heldTiming s q (receiptOf op q s) s.calNextTick = .ok (at_, v)) :
    calApply op target q obj bytes apply s = .ok (v.holdAudio at_ obj bytes) := by
  rw [calApply, if_neg h, hp, need_true, ok_bind, ht, ok_bind, decide_eq_true hroom]
  rfl

/-- A write of Calliope's held for its TARGET: it joins those held, and claims and the event of a TARGET that was moved aside, the rest
stays as it was. -/
structure HeldAudio (h : Held) (s t : State) : Prop where
  cal : t.cal = { s.cal with held := s.cal.held ++ [h] }
  rest : t.kept 0x2C8214 = s.kept 0x2C8214

/-- A write whose checks passed into `u`, its TARGET timely and a place free among those held, is held, and nothing else of its request is done. -/
theorem calApply_holds (hu : u.kept 0x200 = (taken q s).kept 0x200) (h : target ≠ 0)
    (hp : s.planeOn (fget s.cal.ctl Cal.calPlane) = true) (hroom : s.cal.held.length < 256)
    (ht : heldTiming u q (receiptOf op q u) u.calNextTick = .ok (at_, v)) :
    ∃ t, calApply op target q obj bytes apply u = .ok t ∧ HeldAudio ⟨at_, obj, bytes⟩ s t := by
  have hcal : u.cal = s.cal := (cal_of_kept hu).trans (taken_cal ..)
  have hon : u.planeOn (fget u.cal.ctl Cal.calPlane) = true := by
    rw [State.planeOn, ref_of_kept hu, taken_ref, hcal]
    exact hp
  have hv : v.kept 0x2C0214 = (taken q s).kept 0x2C0214 := ((heldTiming_ok ..).out _ ht).trans (kept_mono (by decide) hu)
  refine ⟨_, calApply_held h hon (hcal ▸ hroom) ht, ?_,
    (State.kept_onCal ..).trans ((kept_mono (by decide) hv).trans (kept_mono (by decide) (taken_kept q s)))⟩
  rw [State.holdAudio, State.onCal_cal, cal_of_kept hv, taken_cal]

section
variable {h : Held} {t : State} (w : HeldAudio h s t)
include w

theorem HeldAudio.audIn (i : Nat) : t.audIn i = s.audIn i := by rw [State.audIn, w.cal, State.audIn]

theorem HeldAudio.dynRec (i : Nat) : t.dynRec i = s.dynRec i := by rw [State.dynRec, w.cal, State.dynRec]

theorem HeldAudio.audOutBytes (o : Nat) : t.audOutBytes o = s.audOutBytes o := by
  simp only [State.audOutBytes, State.audOut, State.audCh, w.cal]

theorem HeldAudio.busImage (b : Nat) : t.busImage b = s.busImage b := by
  simp only [State.busImage, State.mixBus, State.busEntries, w.cal]

end

end

/-! ### CAL_WRITE -/

section
variable {q : Req} {s : State} {e : BitVec 128}

theorem calWriteCheck_eq (h : calWriteCheck q s = .ok e) : e = mergeRec Cal.layout s.cal.ctl (Req.recordBytes q 16) := by
  obtain ⟨-, h⟩ := index_bind.1 h
  obtain ⟨-, h⟩ := noTarget_bind.1 h
  obtain ⟨e', he, h⟩ := ok_bind_iff.1 h
  obtain ⟨-, h⟩ := need_bind.1 h
  obtain ⟨-, h⟩ := needAt_bind.1 h
  cases pure_eq_ok.1 h
  exact writeRecord_eq he

theorem cmdCalWrite_eq (h : calWriteCheck q s = .ok e) : cmdCalWrite q s = .ok (s.onCal (fun c => { c with ctl := e }), recBytes e) := by
  rw [cmdCalWrite, h]
  rfl

end

/-! ### AUD_IN_WRITE -/

section
variable {q : Req} {s t u : State} {i : Nat} {e : BitVec 256}

/-- AUD_IN_WRITE's passed checks: one of the 1,024 input slots, the request's record over the one that stands, and no more than claims taken. -/
theorem audInWriteCheck_facts (h : audInWriteCheck q s = .ok (i, e, u)) :
    i = Req.u32 q 0 ∧ i < 1024 ∧ e = mergeRec AudIn.layout (s.audIn i) (Req.recordBytes q 32) ∧ u.kept 0x200 = s.kept 0x200 := by
  obtain ⟨hi, h⟩ := index_bind.1 h
  obtain ⟨e', he, h⟩ := ok_bind_iff.1 h
  split at h
  · obtain ⟨-, h⟩ := need_bind.1 h
    obtain ⟨-, h⟩ := needAt_bind.1 h
    split at h
    · cases h
    · obtain ⟨-, h⟩ := need_bind.1 h
      obtain ⟨-, h⟩ := needAt_bind.1 h
      obtain ⟨-, h⟩ := needAt_bind.1 h
      obtain ⟨u', hu, h⟩ := ok_bind_iff.1 h
      cases pure_eq_ok.1 h
      exact ⟨rfl, hi, writeRecordX_eq he, (claimAll_ok ..).out _ hu⟩
  · cases pure_eq_ok.1 h
    exact ⟨rfl, hi, writeRecordX_eq he, rfl⟩

theorem cmdAudInWrite_of_applied (h : audInWriteCheck q s = .ok (i, e, u))
    (ha : calApply 0x0801 (Req.u64 q 4) q (.audIn i) (recBytes e) (audInDo i e) u = .ok t) :
    cmdAudInWrite q s = .ok (t, recBytes (t.audIn i)) := by
  rw [cmdAudInWrite, h, ok_bind]
  dsimp only
  rw [ha]
  rfl

end

/-! ### AUD_OUT_WRITE -/

section
variable {q : Req} {s t u : State} {o : Nat} {hdr : BitVec 128} {l : List (BitVec 64)}

/-- AUD_OUT_WRITE's passed checks: one of the 1,024 output slots, the request's header over the one that stands, and no more than claims taken. -/
theorem audOutWriteCheck_facts (h : audOutWriteCheck q s = .ok (o, hdr, l, u)) :
    o = Req.u32 q 0 ∧ o < 1024 ∧ hdr = mergeRec AudOut.layout (s.audOut o) ((Req.recordBytes q 144).take 16) ∧
      u.kept 0x200 = s.kept 0x200 := by
  obtain ⟨ho, h⟩ := index_bind.1 h
  obtain ⟨-, h⟩ := layout_bind.1 h
  simp only at h
  split at h
  · cases h
  split at h
  · cases h
  split at h
  · cases pure_eq_ok.1 h
    exact ⟨rfl, ho, rfl, rfl⟩
  · obtain ⟨-, h⟩ := need_bind.1 h
    obtain ⟨-, h⟩ := needAt_bind.1 h
    split at h
    · cases h
    · obtain ⟨u', hu, h⟩ := ok_bind_iff.1 h
      cases pure_eq_ok.1 h
      exact ⟨rfl, ho, rfl, (claimAll_ok ..).out _ hu⟩

theorem cmdAudOutWrite_of_applied (h : audOutWriteCheck q s = .ok (o, hdr, l, u))
    (ha : calApply 0x0802 (Req.u64 q 4) q (.audOut o) (recBytes hdr ++ l.flatMap recBytes) (audOutDo o hdr l) u = .ok t) :
    cmdAudOutWrite q s = .ok (t, t.audOutBytes o) := by
  rw [cmdAudOutWrite, h, ok_bind]
  dsimp only
  rw [ha]
  rfl

end

/-! ### AUD_BUS_WRITE and AUD_BUS_INPUTS -/

section
variable {q : Req} {s t : State} {b first : Nat} {e : BitVec 256} {l : List (BitVec 32)}

/-- A question whether claims may be taken, asked under a condition, was answered yes or not asked. -/
theorem mayAdmit_when {β : Type} {c : Prop} [Decidable c] {f : Unit → Except Err β} {y : β}
    (h : (if c then s.mayAdmit >>= f else f ()) = .ok y) : f () = .ok y := by
  split at h
  · obtain ⟨_, -, h⟩ := ok_bind_iff.1 h
    exact h
  · exact h

/-- AUD_BUS_WRITE's passed checks: one of the 512 buses, and the request's record over the one that stands. -/
theorem audBusWriteCheck_facts (h : audBusWriteCheck q s = .ok (b, e)) :
    b = Req.u32 q 0 ∧ b < 512 ∧ e = mergeRec Bus.layout (s.mixBus b) (Req.recordBytes q 32) := by
  obtain ⟨hb, h⟩ := index_bind.1 h
  obtain ⟨e', he, h⟩ := ok_bind_iff.1 h
  obtain ⟨-, h⟩ := needAt_bind.1 h
  have h := mayAdmit_when h
  cases pure_eq_ok.1 h
  exact ⟨rfl, hb, writeRecord_eq he⟩

theorem cmdAudBusWrite_of_applied (h : audBusWriteCheck q s = .ok (b, e))
    (ha : calApply 0x0803 (Req.u64 q 4) q (.audBus b) (recBytes e) (audBusDo b e) s = .ok t) :
    cmdAudBusWrite q s = .ok (t, recBytes (t.busImage b)) := by
  rw [cmdAudBusWrite, h, ok_bind]
  dsimp only
  rw [ha]
  rfl

/-- AUD_BUS_INPUTS' passed checks: the bus, the first entry and as many entries as the request counts. -/
theorem audBusInputsCheck_facts (h : audBusInputsCheck q s = .ok (b, first, l)) :
    b = Req.u32 q 0 ∧ first = Req.u8 q 12 ∧ l.length = Req.u8 q 13 := by
  obtain ⟨-, h⟩ := needAt_bind.1 h
  obtain ⟨-, h⟩ := needAt_bind.1 h
  obtain ⟨-, h⟩ := needAt_bind.1 h
  obtain ⟨_, -, h⟩ := ok_bind_iff.1 h
  obtain ⟨-, h⟩ := layout_bind.1 h
  dsimp only at h
  split at h
  · cases h
  split at h
  · cases h
  have h := mayAdmit_when h
  cases pure_eq_ok.1 h
  exact ⟨rfl, rfl, by rw [List.length_map, List.length_range]⟩

theorem cmdAudBusInputs_of_applied (h : audBusInputsCheck q s = .ok (b, first, l))
    (ha : calApply 0x0804 (Req.u64 q 4) q (.audBusInputs b first) (l.flatMap recBytes) (audBusInputsDo b first l) s = .ok t) :
    cmdAudBusInputs q s = .ok (t, l.flatMap recBytes) := by
  rw [cmdAudBusInputs, h, ok_bind]
  dsimp only
  rw [ha]
  rfl

end

/-! ### AUD_DYN_WRITE -/

section
variable {q : Req} {s t : State} {i : Nat} {e : BitVec 256}

/-- AUD_DYN_WRITE's passed checks: one of the 1,024 dynamics records, and the request's record over the one that stands. -/
theorem audDynWriteCheck_facts (h : audDynWriteCheck q s = .ok (i, e)) :
    i = Req.u32 q 0 ∧ i < 1024 ∧ e = mergeRec Dyn.layout (s.dynRec i) (Req.recordBytes q 32) := by
  obtain ⟨hi, h⟩ := index_bind.1 h
  obtain ⟨e', he, h⟩ := ok_bind_iff.1 h
  obtain ⟨-, h⟩ := need_bind.1 h
  have h := mayAdmit_when h
  cases pure_eq_ok.1 h
  exact ⟨rfl, hi, writeRecordX_eq he⟩

theorem cmdAudDynWrite_of_applied (h : audDynWriteCheck q s = .ok (i, e))
    (ha : calApply 0x0805 (Req.u64 q 4) q (.audDyn i) (recBytes e) (audDynDo i e) s = .ok t) :
    cmdAudDynWrite q s = .ok (t, recBytes (t.dynRec i)) := by
  rw [cmdAudDynWrite, h, ok_bind]
  dsimp only
  rw [ha]
  rfl

end

/-! ### AUD_READ -/

theorem readClear_ok {q : Req} (ht : Req.trailingOk q 8 = true) (hr : Req.u32 q 4 < 2) : Req.readClear q = .ok (Req.u32 q 4 == 1) := by
  rw [Req.readClear, layout_ok ht, ok_bind, decide_eq_true hr]
  rfl

theorem cmdAudRead_eq {q : Req} {s : State} {kind i : Nat} (hkind : kind = Req.u32 q 0 / 65536) (hi : i = Req.u32 q 0 % 65536)
    (hk : kind ≤ 5) (hc : i < audCount kind) (ht : Req.trailingOk q 8 = true) (hr : Req.u32 q 4 < 2) :
    cmdAudRead q s = .ok (if Req.u32 q 4 = 1 then s.audClear kind i else s, s.audBytes kind i) := by
  subst hkind hi
  simp only [cmdAudRead, decide_eq_true hk, decide_eq_true hc, needAt_true, ok_bind, readClear_ok ht hr, beq_iff_eq]
  rfl

/-! ### The obligation -/

/-- Settles O22: each write's passed checks give the merged record and touch claims alone, so that applying it changes one record (or one run
of a bus's entries), and holding it (the model's log 45: the whole merged record) changes nothing but the list of those held. -/
theorem audioCommandsTakeEffect : Obligations.AudioCommandsTakeEffect := by
  refine ⟨?cal, ?input, ?output, ?bus, ?entries, ?dyn, ?busHeld, ?inputHeld, ?outputHeld, ?entriesHeld, ?dynHeld, ?read⟩
  case cal =>
    intro q s e hs hc
    exact ⟨by simpa using calWriteCheck_eq hc, serve_ok hs (cmdCalWrite_eq hc)⟩
  case input =>
    intro q s i e u hs hc h0
    obtain ⟨hi, hlt, he, hu⟩ := audInWriteCheck_facts hc
    have hcal : u.cal = s.cal := (cal_of_kept hu).trans (taken_cal ..)
    have hk : (audInDo i e u).kept 0x8204 = s.kept 0x8204 :=
      (audInDo_kept ..).trans ((kept_mono (by decide) hu).trans (kept_mono (by decide) (taken_kept q s)))
    have hin : (audInDo i e u).audIn i = e := (State.audIn_audInDo ..).trans (if_pos rfl)
    have h := serve_ok (peers := []) hs (cmdAudInWrite_of_applied hc (calApply_now h0))
    rw [hin] at h
    refine ⟨_, h, hi, hlt, ?_, hin, fun j hj => ?_, ?_, mem_of_kept hk, rte_of_kept hk, cmp_of_kept hk, pwr_of_kept hk⟩
    · rwa [State.audIn_of_cal (taken_cal ..)] at he
    · rw [State.audIn_audInDo, if_neg hj, State.audIn_of_cal hcal]
    · rw [audInDo_cal, hcal]
  case output =>
    intro q s o hdr l u hs hc h0
    obtain ⟨ho, hlt, he, hu⟩ := audOutWriteCheck_facts hc
    have hcal : u.cal = s.cal := (cal_of_kept hu).trans (taken_cal ..)
    have hk : (audOutDo o hdr l u).kept 0x8244 = s.kept 0x8244 :=
      (audOutDo_kept ..).trans ((kept_mono (by decide) hu).trans (kept_mono (by decide) (taken_kept q s)))
    refine ⟨_, serve_ok hs (cmdAudOutWrite_of_applied hc (calApply_now h0)), ho, hlt, ?_, ?_, fun j hj => ?_, ?_,
      (tiles_of_kept hk).1, rte_of_kept hk, cmp_of_kept hk, pwr_of_kept hk⟩
    · rwa [State.audOut_of_cal (taken_cal ..)] at he
    · rw [State.audOut_audOutDo, if_pos rfl]
    · rw [State.audOut_audOutDo, if_neg hj, State.audOut_of_cal hcal]
    · rw [audOutDo_cal, hcal]
  case bus =>
    intro q s b e hs hc h0
    obtain ⟨hb, hlt, he⟩ := audBusWriteCheck_facts hc
    have hk : (audBusDo b e (taken q s)).kept 0x8004 = s.kept 0x8004 := (audBusDo_kept ..).trans (kept_mono (by decide) (taken_kept q s))
    refine ⟨_, serve_ok hs (cmdAudBusWrite_of_applied hc (calApply_now h0)), hb, hlt, ?_, ?_, fun j hj => ?_,
      taken_cal_held q s, mem_of_kept hk, rte_of_kept hk, bud_of_kept hk⟩
    · rwa [State.mixBus_of_cal (taken_cal ..)] at he
    · rw [State.mixBus_audBusDo, if_pos rfl]
    · rw [State.mixBus_audBusDo, if_neg hj, State.mixBus_of_cal (taken_cal ..)]
  case entries =>
    intro q s b first l hs hc h0
    obtain ⟨hb, hfirst, hlen⟩ := audBusInputsCheck_facts hc
    have hk : (audBusInputsDo b first l (taken q s)).kept 0x8004 = s.kept 0x8004 :=
      (audBusInputsDo_kept ..).trans (kept_mono (by decide) (taken_kept q s))
    exact ⟨_, serve_ok hs (cmdAudBusInputs_of_applied hc (calApply_now h0)), hb, hfirst, hlen,
      fun k hk => tget_foldl_tset_inside busInReset l (128 * b + first) 0 _ hk,
      fun j hj => (tget_foldl_tset_outside busInReset l (128 * b + first) 0 _ hj).trans (State.busInput_of_cal (taken_cal q s) j),
      taken_cal_held q s, mem_of_kept hk, rte_of_kept hk, bud_of_kept hk⟩
  case dyn =>
    intro q s i e hs hc h0
    obtain ⟨hi, hlt, he⟩ := audDynWriteCheck_facts hc
    have hk : (audDynDo i e (taken q s)).kept 0x8004 = s.kept 0x8004 := (audDynDo_kept ..).trans (kept_mono (by decide) (taken_kept q s))
    have hold : (taken q s).dynRec i = s.dynRec i := State.dynRec_of_cal (taken_cal ..) i
    have hself := State.dynRec_audDynDo i i e (taken q s)
    rw [if_pos rfl, hold] at hself
    refine ⟨_, serve_ok hs (cmdAudDynWrite_of_applied hc (calApply_now h0)), hi, hlt, hold ▸ he, fun j hj => ?_, fun hon hwas => ?_,
      fun hoff => hself.trans (if_pos ?_), taken_cal_held q s, mem_of_kept hk, rte_of_kept hk, bud_of_kept hk⟩
    · rw [State.dynRec_audDynDo, if_neg hj, State.dynRec_of_cal (taken_cal ..)]
    · rw [hself, hon, hwas]
      rfl
    · obtain hoff | hwas := hoff
      · rw [hoff]
        rfl
      · rw [hwas, Bool.not_false, Bool.and_true, Bool.or_not_self]
  case busHeld =>
    intro q s b e at_ v hs hc h0 hp hroom ht
    obtain ⟨t, ha, hw⟩ := calApply_holds rfl h0 hp hroom ht
    exact ⟨t, hw.busImage b ▸ serve_ok hs (cmdAudBusWrite_of_applied hc ha), hw.cal, mem_of_kept hw.rest, rte_of_kept hw.rest⟩
  case inputHeld =>
    intro q s i e u at_ v hs hc h0 hp hroom ht
    obtain ⟨-, -, -, hu⟩ := audInWriteCheck_facts hc
    obtain ⟨t, ha, hw⟩ := calApply_holds hu h0 hp hroom ht
    exact ⟨t, hw.audIn i ▸ serve_ok hs (cmdAudInWrite_of_applied hc ha), hw.cal, mem_of_kept hw.rest, rte_of_kept hw.rest⟩
  case outputHeld =>
    intro q s o hdr l u at_ v hs hc h0 hp hroom ht
    obtain ⟨-, -, -, hu⟩ := audOutWriteCheck_facts hc
    obtain ⟨t, ha, hw⟩ := calApply_holds hu h0 hp hroom ht
    exact ⟨t, hw.audOutBytes o ▸ serve_ok hs (cmdAudOutWrite_of_applied hc ha), hw.cal, mem_of_kept hw.rest, rte_of_kept hw.rest⟩
  case entriesHeld =>
    intro q s b first l at_ v hs hc h0 hp hroom ht
    obtain ⟨t, ha, hw⟩ := calApply_holds rfl h0 hp hroom ht
    exact ⟨t, serve_ok hs (cmdAudBusInputs_of_applied hc ha), hw.cal, mem_of_kept hw.rest, rte_of_kept hw.rest⟩
  case dynHeld =>
    intro q s i e at_ v hs hc h0 hp hroom ht
    obtain ⟨t, ha, hw⟩ := calApply_holds rfl h0 hp hroom ht
    exact ⟨t, hw.dynRec i ▸ serve_ok hs (cmdAudDynWrite_of_applied hc ha), hw.cal, mem_of_kept hw.rest, rte_of_kept hw.rest⟩
  case read =>
    intro q s kind i hs hkind hi hk hc ht hr
    have h := serve_ok (peers := []) hs (cmdAudRead_eq (s := taken q s) hkind hi hk hc ht hr)
    rw [State.audBytes_of_cal (taken_cal q s)] at h
    exact h

end Sys2Proof.Machine
end

section
/-! PROOFS. Timing planes, pulse outputs and clock outputs (R282 to R290): their records and running states, the phase changes of a plane,
and the edges of an output. -/

namespace Sys2Proof.Machine

open Sys2Proof

/-! ### Records and running states read alike where the reference state is the same -/

section
variable {s t : State} (h : t.ref = s.ref) (n : Nat)
include h

theorem State.plane_of_ref : t.plane n = s.plane n := by rw [State.plane, h, State.plane]

theorem State.planeSt_of_ref : t.planeSt n = s.planeSt n := by rw [State.planeSt, h, State.planeSt]

theorem State.pulse_of_ref : t.pulse n = s.pulse n := by rw [State.pulse, h, State.pulse]

theorem State.clock_of_ref : t.clock n = s.clock n := by rw [State.clock, h, State.clock]

end

section
variable (n : Nat) (s : State)

/-- No event touches the reference state. -/
@[simp] theorem State.raise_ref (e : Ev) : (s.raise e).ref = s.ref := ref_of_kept (State.raise_kept (μ := 0x2C0014) ..)

@[simp] theorem State.raise0_ref (c l : Nat) : (s.raise0 c l).ref = s.ref := State.raise_ref ..

@[simp] theorem State.raiseEnd_ref (c l : Nat) : (s.raiseEnd c l).ref = s.ref := State.raise_ref ..

end

/-! ### One record or running state of a plane written -/

section
variable (p n : Nat) (r : BitVec 128) (v : PlaneSt) (s : State)

theorem State.plane_setPlane : (s.setPlane p r).plane n = if n = p then r else s.plane n := tget_tset ..

@[simp] theorem State.plane_setPlane_same : (s.setPlane p r).plane p = r := tget_tset_same ..

@[simp] theorem State.setPlane_planeSt : (s.setPlane p r).planeSt n = s.planeSt n := rfl

@[simp] theorem State.setPlane_slewed : (s.setPlane p r).slewed n = s.slewed n := rfl

@[simp] theorem State.setPlane_engineTu : (s.setPlane p r).engineTu = s.engineTu := rfl

theorem State.planeSt_setPlaneSt : (s.setPlaneSt p v).planeSt n = if n = p then v else s.planeSt n := tget_tset ..

@[simp] theorem State.planeSt_setPlaneSt_same : (s.setPlaneSt p v).planeSt p = v := tget_tset_same ..

end

/-! ### Phase changes (R284, R285) -/

section
variable {p : Nat} (d : Int) {s : State}

/-- A slew in progress takes the new target, at its own rate. -/
theorem State.phaseChange_slewing (h : 0 < (s.planeSt p).slew) : s.phaseChange p d = s.setPlaneSt p { s.planeSt p with
    shift := (s.planeSt p).shift + s.slewed p, past := (s.planeSt p).past + s.slewed p, slewFrom := s.engineTu
    left := signedMod ((s.planeSt p).left - s.slewed p + d) (frameTu (fget (s.plane p) Plane.plRate)) } := if_pos h

/-- With STEP_MODE 0 the change joins the step that waits for the next frame boundary. -/
theorem State.phaseChange_steps (h : (s.planeSt p).slew = 0) (hm : fbit (s.plane p) Plane.stepMode = false) :
    s.phaseChange p d = s.setPlaneSt p { s.planeSt p with
      step := (((s.planeSt p).step + d) % (frameTu (fget (s.plane p) Plane.plRate) : Int)).toNat } :=
  (if_neg h.not_gt).trans (if_neg (Bool.eq_false_iff.1 hm))

/-- With STEP_MODE 1 a change of less or more than whole frames begins a slew at SLEW_RATE. -/
theorem State.phaseChange_slews (h : (s.planeSt p).slew = 0) (hm : fbit (s.plane p) Plane.stepMode = true)
    (hd : signedMod ((s.planeSt p).step + d) (frameTu (fget (s.plane p) Plane.plRate)) ≠ 0) :
    s.phaseChange p d = s.setPlaneSt p { s.planeSt p with
      step := 0, slew := fget (s.plane p) Plane.slewRate, slewFrom := s.engineTu
      left := signedMod ((s.planeSt p).step + d) (frameTu (fget (s.plane p) Plane.plRate)), past := 0 } :=
  (if_neg h.not_gt).trans ((if_pos hm).trans (if_neg hd))

/-- Whatever a phase change does, it is done to the running state of its plane. -/
theorem State.phaseChange_eq (p : Nat) (s : State) : ∃ v, s.phaseChange p d = s.setPlaneSt p v := by
  unfold State.phaseChange
  extract_lets r st per gone left
  split
  · exact ⟨_, rfl⟩
  · split
    · split <;> exact ⟨_, rfl⟩
    · exact ⟨_, rfl⟩

end

/-! ### A plane's record taken on (R282) -/

section
variable {p : Nat} {new : BitVec 128} {s : State}

theorem planeWriteDo_off (h : fbit new Plane.planeEn = false) :
    planeWriteDo p new s = (s.setPlane p new).setPlaneSt p (planeStReset p) := by
  simp only [planeWriteDo, h, Bool.not_false, if_true]

theorem planeWriteDo_starts (h : fbit new Plane.planeEn = true) (hw : fbit (s.plane p) Plane.planeEn = false) :
    planeWriteDo p new s = (s.setPlane p new).setPlaneSt p { planeStReset p with shift := tenthTu (fsgn new Plane.phase) } := by
  simp only [planeWriteDo, h, hw, Bool.not_true, Bool.not_false, Bool.false_eq_true, if_true, if_false]

theorem planeWriteDo_stays (h : fbit new Plane.planeEn = true) (hw : fbit (s.plane p) Plane.planeEn = true)
    (hp : fget (s.plane p) Plane.phase = fget new Plane.phase) : planeWriteDo p new s = s.setPlane p new := by
  simp only [planeWriteDo, h, hw, hp, Bool.not_true, Bool.false_eq_true, if_true, if_false]

theorem planeWriteDo_moves (h : fbit new Plane.planeEn = true) (hw : fbit (s.plane p) Plane.planeEn = true)
    (hp : fget (s.plane p) Plane.phase ≠ fget new Plane.phase) :
    planeWriteDo p new s = (s.setPlane p new).phaseChange p (tenthTu (fsgn new Plane.phase - fsgn (s.plane p) Plane.phase)) := by
  simp only [planeWriteDo, h, hw, hp, Bool.not_true, Bool.false_eq_true, if_false]

/-- Of the plane records a PLANE_WRITE changes its own. -/
theorem planeWriteDo_plane (p n : Nat) (new : BitVec 128) (s : State) :
    (planeWriteDo p new s).plane n = if n = p then new else s.plane n := by
  have hset (v : PlaneSt) : ((s.setPlane p new).setPlaneSt p v).plane n = if n = p then new else s.plane n := State.plane_setPlane ..
  unfold planeWriteDo
  extract_lets old s1
  split
  · exact hset _
  split
  · exact hset _
  split
  · exact State.plane_setPlane ..
  · obtain ⟨v, hv⟩ := s1.phaseChange_eq (tenthTu (fsgn new Plane.phase - fsgn old Plane.phase)) p
    rw [hv]
    exact hset v

end

/-! ### A pulse output's record taken on (R287, R288) -/

/-- A pulse output that loses its input, or has it again, changes the outputs' running states alone of the reference state. -/
theorem State.pulseLost_ref (o : Nat) (old new : BitVec 64) (s : State) :
    ∃ es, (s.pulseLost o old new).ref = { s.ref with pulseSt := es } := by
  unfold State.pulseLost
  extract_lets e on lost s1
  split
  · exact ⟨_, State.raise0_ref ..⟩
  · exact ⟨_, rfl⟩

/-- A PULSE_WRITE changes its output's record and the outputs' running states alone of the reference state. -/
theorem pulseWriteDo_ref (o : Nat) (new : BitVec 64) (s : State) :
    ∃ es, (pulseWriteDo o new s).ref = { s.ref with pulse := tset pulseReset s.ref.pulse o new, pulseSt := es } := by
  unfold pulseWriteDo
  extract_lets old src e moved
  obtain ⟨es, h⟩ := State.pulseLost_ref o old new (s.onRef (fun f => { f with
    pulse := tset pulseReset f.pulse o new
    pulseSt := tset edgeReset f.pulseSt o { e with lengthen := e.lengthen || moved } }))
  exact ⟨es, h⟩

/-! ### One edge of an output (R288, R290) -/

section
variable {en pol : Bool} {e : EdgeSt} {now : Nat}

theorem edgeNext_falls (hr : e.run = true) (hh : e.high = true) :
    edgeNext en pol e now = ({ e with high := false, lastEdge := now }, edgeLevel false pol) := by
  simp only [edgeNext, hr, hh, Bool.and_self, if_true]

theorem edgeNext_rises (h : e.run = false ∨ e.high = false) (hen : en = true) :
    edgeNext en pol e now = ({ e with run := true, high := true, lengthen := false, lastEdge := now }, edgeLevel true pol) := by
  have hn : (e.run && e.high) = false := Bool.and_eq_false_iff.2 h
  simp only [edgeNext, hn, hen, Bool.false_eq_true, if_true, if_false]

theorem edgeNext_ends (h : e.high = false) (hen : en = false) :
    edgeNext en pol e now = ({ e with run := false, high := false, lengthen := false, lastEdge := now }, false) := by
  simp only [edgeNext, h, hen, Bool.and_false, Bool.false_eq_true, if_false]

theorem edgeNext_lastEdge (en pol : Bool) (e : EdgeSt) (now : Nat) : (edgeNext en pol e now).1.lastEdge = now := by
  unfold edgeNext
  split
  · rfl
  · split <;> rfl

end

end Sys2Proof.Machine
end

section
/-! PROOFS. The PLANE commands (R282, R287, R289, R413): what each command's passed checks give, and what it leaves. -/

namespace Sys2Proof.Machine

open Sys2Proof

/-! ### A request taken up shows the same planes and outputs -/

section
variable (q : Req) (s : State) (n : Nat)

@[simp] theorem taken_plane : (taken q s).plane n = s.plane n := State.plane_of_ref (taken_ref ..) n

@[simp] theorem taken_planeSt : (taken q s).planeSt n = s.planeSt n := State.planeSt_of_ref (taken_ref ..) n

@[simp] theorem taken_pulse : (taken q s).pulse n = s.pulse n := State.pulse_of_ref (taken_ref ..) n

@[simp] theorem taken_clock : (taken q s).clock n = s.clock n := State.clock_of_ref (taken_ref ..) n

@[simp] theorem taken_engineTu : (taken q s).engineTu = s.engineTu := by simp [State.engineTu]

@[simp] theorem taken_slewed : (taken q s).slewed n = s.slewed n := by simp [State.slewed]

@[simp] theorem taken_planeImage : (taken q s).planeImage n = s.planeImage n := by simp [State.planeImage, State.phaseLeft]

@[simp] theorem taken_planeTu : (taken q s).planeTu n = s.planeTu n := by simp [State.planeTu, State.planeShift]

@[simp] theorem taken_now32 : (taken q s).now32 = s.now32 := by simp [State.now32, State.rate]

@[simp] theorem taken_planeNext : (taken q s).planeNext n = s.planeNext n := by
  simp [State.planeNext, State.stampOf, State.planeRate]

end

/-! ### What the passed checks say, and what the commands answer -/

section
variable {q : Req} {s : State}

/-- PLANE_WRITE's passed checks: one of the eight planes, and the request's record over the one that stands. -/
theorem planeWriteCheck_facts {p : Nat} {new : BitVec 128} (h : planeWriteCheck q s = .ok (p, new)) :
    p = Req.u32 q 0 ∧ p < 8 ∧ new = mergeRec Plane.layout (s.plane p) (Req.recordBytes q 16) := by
  obtain ⟨hp, h⟩ := index_bind.1 h
  obtain ⟨-, h⟩ := noTarget_bind.1 h
  obtain ⟨new', hn, h⟩ := ok_bind_iff.1 h
  obtain ⟨_, -, h⟩ := ok_bind_iff.1 h
  obtain ⟨-, h⟩ := need_bind.1 h
  cases pure_eq_ok.1 h
  exact ⟨rfl, hp, writeRecord_eq hn⟩

theorem cmdPlaneWrite_eq {p : Nat} {new : BitVec 128} (h : planeWriteCheck q s = .ok (p, new)) :
    cmdPlaneWrite q s = .ok (planeWriteDo p new s, recBytes ((planeWriteDo p new s).planeImage p)) := by
  rw [cmdPlaneWrite, h]
  rfl

/-- PULSE_WRITE's passed checks: one of the eight pulse outputs, and the request's record over the one that stands. -/
theorem pulseWriteCheck_facts {o : Nat} {new : BitVec 64} (h : pulseWriteCheck q s = .ok (o, new)) :
    o = Req.u32 q 0 ∧ o < 8 ∧ new = mergeRec Pulse.layout (s.pulse o) (Req.recordBytes q 8) := by
  obtain ⟨ho, h⟩ := index_bind.1 h
  obtain ⟨-, h⟩ := noTarget_bind.1 h
  obtain ⟨new', hn, h⟩ := ok_bind_iff.1 h
  obtain ⟨-, h⟩ := need_bind.1 h
  cases pure_eq_ok.1 h
  exact ⟨rfl, ho, writeRecordX_eq hn⟩

theorem cmdPulseWrite_eq {o : Nat} {new : BitVec 64} (h : pulseWriteCheck q s = .ok (o, new)) :
    cmdPulseWrite q s = .ok (pulseWriteDo o new s, recBytes new) := by
  rw [cmdPulseWrite, h]
  rfl

/-- CLOCK_WRITE's passed checks: one of the two clock outputs, and the request's record over the one that stands. -/
theorem clockWriteCheck_facts {k : Nat} {new : BitVec 64} (h : clockWriteCheck q s = .ok (k, new)) :
    k = Req.u32 q 0 ∧ k < 2 ∧ new = mergeRec ClkOut.layout (s.clock k) (Req.recordBytes q 8) := by
  obtain ⟨hk, h⟩ := index_bind.1 h
  obtain ⟨-, h⟩ := noTarget_bind.1 h
  obtain ⟨new', hn, h⟩ := ok_bind_iff.1 h
  obtain ⟨-, h⟩ := needAt_bind.1 h
  split at h
  · cases h
  · obtain ⟨-, h⟩ := need_bind.1 h
    cases pure_eq_ok.1 h
    exact ⟨rfl, hk, writeRecord_eq hn⟩

theorem cmdClockWrite_eq {k : Nat} {new : BitVec 64} (h : clockWriteCheck q s = .ok (k, new)) :
    cmdClockWrite q s = .ok (s.onRef (fun f => { f with clock := tset clockReset f.clock k new }), recBytes new) := by
  rw [cmdClockWrite, h]
  rfl

theorem cmdPlaneRead_eq (hi : Req.u32 q 0 < 18) (ht : Req.trailingOk q 8 = true) (hr : Req.u32 q 4 < 2) :
    cmdPlaneRead q s = .ok (s,
      if Req.u32 q 0 < 8 then recBytes (s.planeImage (Req.u32 q 0)) ++ leBytes 8 (s.planeNext (Req.u32 q 0))
      else if Req.u32 q 0 < 16 then recBytes (s.pulse (Req.u32 q 0 - 8)) else recBytes (s.clock (Req.u32 q 0 - 16))) := by
  rw [cmdPlaneRead, readArgs_ok hi ht hr]
  rfl

end

/-! ### The obligation -/

/-- Settles O17: each write's passed checks give the merged record; what a PLANE_WRITE does to its plane's running state is one case of
`planeWriteDo` and, for a running plane whose PHASE changes, one case of `State.phaseChange`. -/
theorem planeCommandsTakeEffect : Obligations.PlaneCommandsTakeEffect := by
  refine ⟨?plane, ?pulse, ?clock, ?read⟩
  case plane =>
    intro q s p new hs hc
    obtain ⟨hp, hlt, hnew⟩ := planeWriteCheck_facts hc
    have hk : (planeWriteDo p new (taken q s)).kept 0x10004 = s.kept 0x10004 :=
      (planeWriteDo_kept ..).trans (kept_mono (by decide) (taken_kept q s))
    have hplane (n : Nat) : (planeWriteDo p new (taken q s)).plane n = if n = p then new else s.plane n := by
      rw [planeWriteDo_plane, taken_plane]
    rw [taken_plane] at hnew
    refine ⟨_, serve_ok hs (cmdPlaneWrite_eq hc), hp, hlt, hnew, (hplane p).trans (if_pos rfl), fun n hn => (hplane n).trans (if_neg hn),
      fun hoff => ?_, fun hon hwas => ?_, fun hon hwas hphase => ?_, fun hon hwas hphase => ?_,
      mem_of_kept hk, rte_of_kept hk, bud_of_kept hk, pwr_of_kept hk⟩
    · rw [planeWriteDo_off hoff, State.planeSt_setPlaneSt_same]
    · rw [planeWriteDo_starts hon (by rwa [taken_plane]), State.planeSt_setPlaneSt_same]
    · rw [planeWriteDo_stays hon (by rwa [taken_plane]) (by rwa [taken_plane]), State.setPlane_planeSt, taken_planeSt]
    · rw [planeWriteDo_moves hon (by rwa [taken_plane]) (by rwa [taken_plane]), taken_plane]
      have hst : ((taken q s).setPlane p new).planeSt p = s.planeSt p := by simp
      have hrec : ((taken q s).setPlane p new).plane p = new := State.plane_setPlane_same ..
      refine ⟨fun hslew hmode => ?_, fun hslew hmode hleft => ?_, fun hslew => ?_⟩
      · rw [State.phaseChange_steps _ (by rwa [hst]) (by rwa [hrec]), State.planeSt_setPlaneSt_same, hst, hrec]
      · rw [State.phaseChange_slews _ (by rwa [hst]) (by rwa [hrec]) (by rwa [hst, hrec]), State.planeSt_setPlaneSt_same, hst, hrec,
          State.setPlane_engineTu, taken_engineTu]
      · rw [State.phaseChange_slewing _ (by rwa [hst]), State.planeSt_setPlaneSt_same, hst, hrec, State.setPlane_slewed, taken_slewed,
          State.setPlane_engineTu, taken_engineTu]
  case pulse =>
    intro q s o new hs hc
    obtain ⟨ho, hlt, hnew⟩ := pulseWriteCheck_facts hc
    obtain ⟨es, href⟩ := pulseWriteDo_ref o new (taken q s)
    have hk : (pulseWriteDo o new (taken q s)).kept 0x2D0014 = s.kept 0x2D0014 :=
      (pulseWriteDo_kept ..).trans (kept_mono (by decide) (taken_kept q s))
    have hpulse (n : Nat) : (pulseWriteDo o new (taken q s)).pulse n = if n = o then new else s.pulse n := by
      rw [State.pulse, href, taken_ref]
      exact tget_tset ..
    rw [taken_pulse] at hnew
    refine ⟨_, serve_ok hs (cmdPulseWrite_eq hc), ho, hlt, hnew, (hpulse o).trans (if_pos rfl), fun n hn => (hpulse n).trans (if_neg hn),
      ?_, ?_, mem_of_kept hk, rte_of_kept hk, pwr_of_kept hk⟩
    · rw [href, taken_ref]
    · rw [href, taken_ref]
  case clock =>
    intro q s k new hs hc
    obtain ⟨hk, hlt, hnew⟩ := clockWriteCheck_facts hc
    rw [taken_clock] at hnew
    exact ⟨hk, hlt, hnew, serve_ok hs (cmdClockWrite_eq hc)⟩
  case read =>
    intro q s hs hi ht hr
    have h := serve_ok (peers := []) hs (cmdPlaneRead_eq (s := taken q s) hi ht hr)
    simp only [taken_planeImage, taken_planeNext, taken_pulse, taken_clock] at h
    exact h

end Sys2Proof.Machine
end

section
/-! PROOFS. What happens to planes and outputs (R284, R285, R288, R290): a plane's frame boundary, the end of its slew, and the edges of
pulse and clock outputs. -/

namespace Sys2Proof.Machine

open Sys2Proof

/-! ### PLANE_FRAME_START and SLEW_COMPLETE (R284, R285) -/

/-- R284: the running state of a plane past a frame boundary at engine time `now`. -/
def PlaneSt.atBoundary (st : PlaneSt) (now : Nat) : PlaneSt :=
  { st with frames := st.frames + 1, shift := st.shift + st.step, step := 0, extra := if st.step = 0 then 0 else now + st.step }

/-- R285: the running state of a plane whose slew has ended. -/
def PlaneSt.slewEnded (st : PlaneSt) : PlaneSt := { st with shift := st.shift + st.left, slew := 0, left := 0, past := 0 }

section
variable (p : Nat) (s : State)

theorem State.planeStepped_status (reason : Nat) (d : Int) : (0xE7, locRef) ∈ (s.planeStepped p reason d).flt.status :=
  State.raise_status ..

theorem State.planeStepped_ref (reason : Nat) (d : Int) : (s.planeStepped p reason d).ref = s.ref := State.raise_ref ..

/-- R92: outputs that are bounded again raise events. -/
theorem State.reboundPlane_grows : StatusGrows s (s.reboundPlane p) := by
  unfold State.reboundPlane
  refine foldl_grows (fun t e => ?_) _ _
  exact (StatusGrows.of_kept (State.setOut_kept (μ := 0x400) ..)).trans (State.raise_grows ..)

theorem State.reboundPlane_ref : (s.reboundPlane p).ref = s.ref := ref_of_kept (State.reboundPlane_kept (μ := 0x2C0414) ..)

theorem State.lengthen_ref (n : Nat) : (s.lengthen p n).ref = s.ref := ref_of_kept (State.lengthen_kept (μ := 0x400) ..)

end

section
variable {p : Fin 8} {s : State}

theorem execPlaneFrameStart_idle (h : s.planeOn p.val = false) : execPlaneFrameStart p s = .next s.fresh :=
  if_pos (Bool.not_eq_true' _ ▸ h)

/-- A boundary at which no step waits. -/
theorem execPlaneFrameStart_still (h : s.planeOn p.val = true) (hstep : (s.planeSt p.val).step = 0) :
    execPlaneFrameStart p s =
      .next ((s.fresh.setPlaneSt p.val ((s.planeSt p.val).atBoundary s.engineTu)).reboundPlane p.val) := by
  have hn : ¬(!s.planeOn p.val) = true := by rw [h]; decide
  exact (if_neg hn).trans (congrArg (fun u => done (State.reboundPlane p.val u)) (if_pos hstep))

/-- A boundary that takes on the step that waits. -/
theorem execPlaneFrameStart_steps (h : s.planeOn p.val = true) (hstep : (s.planeSt p.val).step ≠ 0) :
    execPlaneFrameStart p s = .next ((((s.fresh.setPlaneSt p.val ((s.planeSt p.val).atBoundary s.engineTu)).lengthen p.val
      (s.planeSt p.val).step).planeStepped p.val 1 (s.planeSt p.val).step).reboundPlane p.val) := by
  have hn : ¬(!s.planeOn p.val) = true := by rw [h]; decide
  exact (if_neg hn).trans (congrArg (fun u => done (State.reboundPlane p.val u)) (if_neg hstep))

theorem execPlaneFrameStart_runs (h : s.planeOn p.val = true) : ∃ t, execPlaneFrameStart p s = .next t ∧
    t.ref = (s.setPlaneSt p.val ((s.planeSt p.val).atBoundary s.engineTu)).ref ∧
    ((s.planeSt p.val).step ≠ 0 → (0xE7, locRef) ∈ t.flt.status) := by
  by_cases hstep : (s.planeSt p.val).step = 0
  · exact ⟨_, execPlaneFrameStart_still h hstep, State.reboundPlane_ref .., fun hn => absurd hstep hn⟩
  · refine ⟨_, execPlaneFrameStart_steps h hstep, ?_, fun _ => State.reboundPlane_grows _ _ (State.planeStepped_status ..)⟩
    rw [State.reboundPlane_ref, State.planeStepped_ref, State.lengthen_ref]
    rfl

/-- Nothing completes on a plane that does not slew, or that has some of its slew left. -/
theorem noCompletion_iff {slew : Nat} {gone left : Int} : (decide (slew = 0) || gone != left) = true ↔ slew = 0 ∨ gone ≠ left := by
  rw [Bool.or_eq_true, decide_eq_true_iff, bne_iff_ne]

theorem execSlewComplete_idle (h : (s.planeSt p.val).slew = 0 ∨ s.slewed p.val ≠ (s.planeSt p.val).left) :
    execSlewComplete p s = .next s.fresh := if_pos (noCompletion_iff.2 h)

theorem execSlewComplete_ends (h : (s.planeSt p.val).slew ≠ 0) (hl : s.slewed p.val = (s.planeSt p.val).left) :
    ∃ t, execSlewComplete p s = .next t ∧ t.ref = (s.setPlaneSt p.val (s.planeSt p.val).slewEnded).ref ∧
      (0xE7, locRef) ∈ t.flt.status :=
  ⟨_, if_neg (fun hn => (noCompletion_iff.1 hn).elim h (absurd hl)), State.planeStepped_ref .., State.planeStepped_status ..⟩

end

/-! ### PULSE_OUTPUT_EDGE (R288, R290) -/

/-- The running state of a pulse output. -/
def State.pulseEdge (s : State) (o : Nat) : EdgeSt := tget edgeReset s.ref.pulseSt o

/-- The running state of a clock output. -/
def State.clockEdge (s : State) (k : Nat) : EdgeSt := tget edgeReset s.ref.clockSt k

/-- The edge of a pulse output now: the running state it leaves, and the level it gives. -/
def State.pulseEdgeNext (s : State) (o : Nat) : EdgeSt × Bool :=
  edgeNext (fbit (s.pulse o) Pulse.poEn) (fbit (s.pulse o) Pulse.poPol) (s.pulseEdge o) s.time.clk.toNat

/-- The edge of a clock output now. -/
def State.clockEdgeNext (s : State) (k : Nat) : EdgeSt × Bool :=
  edgeNext (fbit (s.clock k) ClkOut.ckEn) false (s.clockEdge k) s.time.clk.toNat

section
variable {o : Fin 10} {s : State}

/-- Neither running nor enabled, or before its edge is due, an output gives no edge. -/
theorem noEdge_iff {run en due : Bool} : ((!run && !en) || !due) = true ↔ (run = false ∧ en = false) ∨ due = false := by
  cases run <;> cases en <;> cases due <;> decide

theorem execPulseOutputEdge_pulse_idle (ho : o.val < 8)
    (h : ((s.pulseEdge o.val).run = false ∧ fbit (s.pulse o.val) Pulse.poEn = false) ∨
      edgeDue (s.pulseTimes (s.pulse o.val)) (s.pulseEdge o.val) s.time.clk.toNat = false) :
    execPulseOutputEdge o s = .next s.fresh := (if_pos ho).trans (if_pos (noEdge_iff.2 h))

theorem execPulseOutputEdge_pulse_due (ho : o.val < 8) (hr : (s.pulseEdge o.val).run = true ∨ fbit (s.pulse o.val) Pulse.poEn = true)
    (hd : edgeDue (s.pulseTimes (s.pulse o.val)) (s.pulseEdge o.val) s.time.clk.toNat = true) :
    ∃ t, execPulseOutputEdge o s = .next t ∧ t.emitted = [.edge o.val (s.pulseEdgeNext o.val).2] ∧
      t.pulseEdge o.val = (s.pulseEdgeNext o.val).1 := by
  refine ⟨_, (if_pos ho).trans (if_neg fun hn => ?_), rfl, tget_tset_same ..⟩
  rcases noEdge_iff.1 hn with ⟨hrun, hen⟩ | hdue
  · exact hr.elim (fun h => by cases hrun.symm.trans h) (fun h => by cases hen.symm.trans h)
  · cases hdue.symm.trans hd

theorem execPulseOutputEdge_clock_idle (ho : 8 ≤ o.val)
    (h : ((s.clockEdge (o.val - 8)).run = false ∧ fbit (s.clock (o.val - 8)) ClkOut.ckEn = false) ∨
      edgeDue (ckTimes (s.clock (o.val - 8))) (s.clockEdge (o.val - 8)) s.time.clk.toNat = false) :
    execPulseOutputEdge o s = .next s.fresh := (if_neg ho.not_gt).trans (if_pos (noEdge_iff.2 h))

theorem execPulseOutputEdge_clock_due (ho : 8 ≤ o.val)
    (hr : (s.clockEdge (o.val - 8)).run = true ∨ fbit (s.clock (o.val - 8)) ClkOut.ckEn = true)
    (hd : edgeDue (ckTimes (s.clock (o.val - 8))) (s.clockEdge (o.val - 8)) s.time.clk.toNat = true) :
    ∃ t, execPulseOutputEdge o s = .next t ∧ t.emitted = [.edge o.val (s.clockEdgeNext (o.val - 8)).2] ∧
      t.clockEdge (o.val - 8) = (s.clockEdgeNext (o.val - 8)).1 := by
  refine ⟨_, (if_neg ho.not_gt).trans (if_neg fun hn => ?_), rfl, tget_tset_same ..⟩
  rcases noEdge_iff.1 hn with ⟨hrun, hen⟩ | hdue
  · exact hr.elim (fun h => by cases hrun.symm.trans h) (fun h => by cases hen.symm.trans h)
  · cases hdue.symm.trans hd

end

/-! ### The obligation -/

/-- Settles O51: at its boundary a plane takes on the step that waits, and what is raised or bounded again there leaves the reference state;
an output's edge is the one of `edgeNext`, by what the output does and whether it is enabled. -/
theorem planesStepAndPulseOutputsToggle : Obligations.PlanesStepAndPulseOutputsToggle := by
  refine ⟨?frame, fun _ _ h => execPlaneFrameStart_idle h, ?slew, fun _ _ h => execSlewComplete_idle h, ?pulse, ?clock,
    fun _ _ ho hr hen => execPulseOutputEdge_pulse_idle ho (.inl ⟨hr, hen⟩),
    fun _ _ ho hr hen => execPulseOutputEdge_clock_idle ho (.inl ⟨hr, hen⟩)⟩
  case frame =>
    intro s p hon
    obtain ⟨t, ht, href, hev⟩ := execPlaneFrameStart_runs hon
    refine ⟨t, ht, (State.planeSt_of_ref href _).trans (State.planeSt_setPlaneSt_same ..), hev, fun n hn => ?_⟩
    rw [State.planeSt_of_ref href, State.planeSt_setPlaneSt, if_neg hn]
  case slew =>
    intro s p hslew hleft
    obtain ⟨t, ht, href, hev⟩ := execSlewComplete_ends hslew hleft
    refine ⟨t, ht, (State.planeSt_of_ref href _).trans (State.planeSt_setPlaneSt_same ..), hev, fun n hn => ?_⟩
    rw [State.planeSt_of_ref href, State.planeSt_setPlaneSt, if_neg hn]
  case pulse =>
    intro s o ho hr e
    refine ⟨fun hd => execPulseOutputEdge_pulse_idle ho (.inr hd), fun hd => ?_⟩
    obtain ⟨t, ht, hemit, hedge⟩ := execPulseOutputEdge_pulse_due ho hr hd
    refine ⟨t, _, ht, hemit, ?_⟩
    change tget edgeReset t.ref.pulseSt o.val = _ at hedge
    rw [hedge]
    refine ⟨edgeNext_lastEdge .., fun hrun hhigh => ?_, fun hlow hen => ?_, fun hlow hen => ?_⟩
    · rw [show s.pulseEdgeNext o.val = _ from edgeNext_falls hrun hhigh]
      exact ⟨rfl, rfl⟩
    · rw [show s.pulseEdgeNext o.val = _ from edgeNext_rises hlow hen]
      exact ⟨rfl, rfl⟩
    · rw [show s.pulseEdgeNext o.val = _ from edgeNext_ends hlow hen]
      exact ⟨rfl, rfl⟩
  case clock =>
    intro s o ho hr e
    refine ⟨fun hd => execPulseOutputEdge_clock_idle ho (.inr hd), fun hd => ?_⟩
    obtain ⟨t, ht, hemit, hedge⟩ := execPulseOutputEdge_clock_due ho hr hd
    refine ⟨t, _, ht, hemit, ?_⟩
    change tget edgeReset t.ref.clockSt (o.val - 8) = _ at hedge
    rw [hedge]
    refine ⟨edgeNext_lastEdge .., fun hrun hhigh => ?_, fun hlow hen => ?_⟩
    · rw [show s.clockEdgeNext (o.val - 8) = _ from edgeNext_falls hrun hhigh]
    · rw [show s.clockEdgeNext (o.val - 8) = _ from edgeNext_rises hlow hen]

end Sys2Proof.Machine
end

section
/-! PROOFS. The reference engine's operations (R273 to R280): a candidate's record and state, the loop's record, what raising events leaves, and
which parts of the reference state each operation moves. -/

namespace Sys2Proof.Machine

open Sys2Proof

/-! ### Fields of the engine's record -/

section
variable (e : BitVec 256) (i : Int) {g : Fld}

/-- FREQ_CORR is the last field of the engine's record: putting it leaves every other. -/
theorem fget_freqCorr_put (hg : g.lo + g.width ≤ 160) : fget (fputS e RefEng.freqCorr i) g = fget e g :=
  fget_fput_below _ _ _ _ (by decide) hg

/-- Putting BUILDOUT leaves every field below it. -/
theorem fget_buildout_put (hg : g.lo + g.width ≤ 128) : fget (fputS e RefEng.buildout i) g = fget e g :=
  fget_fput_below _ _ _ _ (by decide) hg

theorem unsgn_lt (w : Nat) (i : Int) : unsgn w i < 2 ^ w := by
  have hp : (0 : Int) < 2 ^ w := by positivity
  have h := Int.emod_lt_of_pos i hp
  have h0 := Int.emod_nonneg i hp.ne'
  unfold unsgn
  rw [← Int.ofNat_lt, Int.toNat_of_nonneg h0]
  exact_mod_cast h

/-- A signed field reads, unsigned, as the two's complement of what was put. -/
theorem fget_fputS {n : Nat} (r : BitVec n) (f : Fld) (h : f.lo + f.width ≤ n) : fget (fputS r f i) f = unsgn f.width i := by
  rw [fputS, fget_fput _ _ _ h, Nat.mod_eq_of_lt (unsgn_lt ..)]

/-- A field that reads 0 is not changed by putting 0. -/
theorem fput_zero {n : Nat} {r : BitVec n} {f : Fld} (h : fget r f = 0) : fput r f 0 = r := by
  simp [fput, h]

end

/-! ### Candidates and the engine read alike where their parts are the same -/

section
variable {s t : State} (n : Nat)

theorem State.cand_of_cand (h : t.ref.cand = s.ref.cand) : t.cand n = s.cand n := by rw [State.cand, h, State.cand]

theorem State.candSt_of_candSt (h : t.ref.candSt = s.ref.candSt) : t.candSt n = s.candSt n := by rw [State.candSt, h, State.candSt]

theorem State.qState_of_cand (h : t.ref.cand = s.ref.cand) : t.qState n = s.qState n := by
  rw [State.qState, State.cand_of_cand n h, State.qState]

theorem State.loopState_of_eng (h : t.ref.eng = s.ref.eng) : t.loopState = s.loopState := by rw [State.loopState, h, State.loopState]

theorem State.selected_of_eng (h : t.ref.eng = s.ref.eng) : t.selected = s.selected := by rw [State.selected, h, State.selected]

theorem State.bestCand_of_cand (h : t.ref.cand = s.ref.cand) : t.bestCand = s.bestCand := by
  have hq : t.qState = s.qState := funext fun n => State.qState_of_cand n h
  have hr : t.rankOf = s.rankOf := funext fun n => by rw [State.rankOf, State.cand_of_cand n h, State.rankOf]
  rw [State.bestCand, hq, hr, State.bestCand]

end

section
variable (e : Ev) (n : Nat) (s : State)

@[simp] theorem State.raise_cand : (s.raise e).cand n = s.cand n := State.cand_of_cand n (congrArg RefSt.cand (State.raise_ref ..))

@[simp] theorem State.raise_qState : (s.raise e).qState n = s.qState n :=
  State.qState_of_cand n (congrArg RefSt.cand (State.raise_ref ..))

end

/-! ### One candidate written -/

section
variable (c n v : Nat) (x : CandSt) (s : State)

theorem State.cand_setCand (r : BitVec 128) : (s.setCand c r).cand n = if n = c then r else s.cand n := tget_tset ..

theorem State.cand_setQ : (s.setQ c v).cand n = if n = c then fput (s.cand c) Cand.qState v else s.cand n := tget_tset ..

theorem State.qState_setQ_same (hv : v < 4) : (s.setQ c v).qState c = v := by
  have hw : Cand.qState.width = 2 := rfl
  rw [State.qState, State.cand_setQ, if_pos rfl, fget_fput _ _ _ (by decide), hw]
  exact Nat.mod_eq_of_lt hv

@[simp] theorem State.candSt_setCandSt_same : (s.setCandSt c x).candSt c = x := tget_tset_same ..

@[simp] theorem State.setCandSt_cand : (s.setCandSt c x).ref.cand = s.ref.cand := rfl

@[simp] theorem State.cand_setCandSt : (s.setCandSt c x).cand n = s.cand n := rfl

@[simp] theorem State.qState_setCandSt : (s.setCandSt c x).qState n = s.qState n := State.qState_of_cand n rfl

@[simp] theorem State.setCandSt_eng : (s.setCandSt c x).ref.eng = s.ref.eng := by rw [State.setCandSt, State.onRef_ref]

@[simp] theorem State.setCandSt_plane : (s.setCandSt c x).ref.plane = s.ref.plane := by rw [State.setCandSt, State.onRef_ref]

/-- Of the reference state Q_STATE changes the candidates' records alone. -/
theorem State.setQ_ref : ∃ cand, (s.setQ c v).ref = { s.ref with cand := cand } :=
  ⟨_, by rw [State.setQ, State.setCand, State.onRef_ref]⟩

@[simp] theorem State.setQ_eng : (s.setQ c v).ref.eng = s.ref.eng := by
  obtain ⟨cand, h⟩ := s.setQ_ref c v
  rw [h]

@[simp] theorem State.setQ_plane : (s.setQ c v).ref.plane = s.ref.plane := by
  obtain ⟨cand, h⟩ := s.setQ_ref c v
  rw [h]

end

/-! ### What an operation of the loop leaves -/

/-- Candidates and plane records stay as they are, and what stands in STATUS stays there. -/
structure LoopMoves (s t : State) : Prop where
  cand : t.ref.cand = s.ref.cand
  candSt : t.ref.candSt = s.ref.candSt
  plane : t.ref.plane = s.ref.plane
  grows : StatusGrows s t

section
variable {s t u : State}

theorem LoopMoves.refl (s : State) : LoopMoves s s := ⟨rfl, rfl, rfl, .refl s⟩

theorem LoopMoves.trans (h : LoopMoves s t) (h' : LoopMoves t u) : LoopMoves s u :=
  ⟨h'.cand.trans h.cand, h'.candSt.trans h.candSt, h'.plane.trans h.plane, h.grows.trans h'.grows⟩

theorem LoopMoves.of_raise (e : Ev) (s : State) : LoopMoves s (s.raise e) := by
  refine ⟨?_, ?_, ?_, State.raise_grows e s⟩ <;> rw [State.raise_ref]

theorem LoopMoves.qState (h : LoopMoves s t) (n : Nat) : t.qState n = s.qState n := State.qState_of_cand n h.cand

end

/-! ### Holdover (R276, R280) -/

section
variable (c : Nat) (s : State)

/-- What holdover sets of the loop: no candidate is selected, and the correction is the model's at its entry. -/
theorem State.enterHoldover_ref : ∃ (w : Int) (slope : Int × Nat) (settled : Bool), s.enterHoldover.ref = { s.ref with
    eng := fputS (fput (fput s.ref.eng RefEng.loopState 3) RefEng.selected noCand) RefEng.freqCorr w
    fEntry := w, slope := slope, holdSecs := 0, longDone := false, settled := settled, oldSel := s.selected } := by
  unfold State.enterHoldover
  by_cases hh : s.ref.history.isEmpty = true
  · rw [if_pos hh]
    exact ⟨_, _, _, State.raise0_ref ..⟩
  · rw [if_neg hh]
    exact ⟨_, _, _, State.raise0_ref ..⟩

theorem State.enterHoldover_moves : LoopMoves s s.enterHoldover := by
  obtain ⟨w, slope, settled, h⟩ := s.enterHoldover_ref
  refine ⟨?_, ?_, ?_, s.enterHoldover_grows⟩ <;> rw [h]

theorem State.enterHoldover_loopState : s.enterHoldover.loopState = 3 := by
  obtain ⟨w, slope, settled, h⟩ := s.enterHoldover_ref
  rw [State.loopState, h]
  show fget (fputS _ _ _) _ = _
  rw [fget_freqCorr_put _ _ (by decide), fget_fput_above _ _ _ _ (by decide) (by decide), fget_fput _ _ _ (by decide)]
  rfl

theorem State.enterHoldover_selected : s.enterHoldover.selected = noCand := by
  obtain ⟨w, slope, settled, h⟩ := s.enterHoldover_ref
  rw [State.selected, h]
  show fget (fputS _ _ _) _ = _
  rw [fget_freqCorr_put _ _ (by decide), fget_fput _ _ _ (by decide)]
  rfl

theorem State.enterHoldover_status : (0xE4, locRef) ∈ s.enterHoldover.flt.status := by
  unfold State.enterHoldover
  split
  exact State.raise0_status ..

variable {c s}

/-- The loss of the candidate that the loop follows is holdover at once. -/
theorem State.loseSelected_holds (h : s.selected = c) (hl : s.loopState = 1 ∨ s.loopState = 2) : s.loseSelected c = s.enterHoldover := by
  unfold State.loseSelected
  rw [if_pos]
  simpa [h] using hl

theorem State.loseSelected_moves (c : Nat) (s : State) : LoopMoves s (s.loseSelected c) := by
  unfold State.loseSelected
  split
  · exact s.enterHoldover_moves
  · exact .refl s

end

/-! ### Activity (R273) -/

/-- What the loss of a candidate's activity leaves: it is ABSENT, its detector and the others as they were; were it QUALIFIED, it is disqualified,
and selected, the loop holds over. -/
structure WentDown (c : Nat) (s t : State) : Prop where
  cand : ∀ n, t.cand n = if n = c then fput (s.cand c) Cand.qState 0 else s.cand n
  activity : (t.candSt c).activity = (s.candSt c).activity
  plane : t.ref.plane = s.ref.plane
  disqualified : s.qState c = 2 → (0xE1, locRef) ∈ t.flt.status
  lost : s.selected = c → s.loopState = 1 ∨ s.loopState = 2 → t.loopState = 3 ∧ (0xE4, locRef) ∈ t.flt.status

section
variable {c : Nat} {s t : State}

theorem WentDown.qState (h : WentDown c s t) : t.qState c = 0 := by
  rw [State.qState, h.cand, if_pos rfl, fget_fput _ _ _ (by decide)]
  rfl

theorem State.candDown_down (c : Nat) (s : State) : WentDown c s (s.candDown c) := by
  unfold State.candDown
  extract_lets q v s1 s2
  have hcand (n : Nat) : s1.cand n = if n = c then fput (s.cand c) Cand.qState 0 else s.cand n :=
    (State.cand_setCandSt ..).trans (State.cand_setQ ..)
  have hact : (s1.candSt c).activity = (s.candSt c).activity := by
    unfold s1
    rw [State.candSt_setCandSt_same]
  have hplane : s1.ref.plane = s.ref.plane := (State.setCandSt_plane ..).trans (State.setQ_plane ..)
  have heng : s1.ref.eng = s.ref.eng := (State.setCandSt_eng ..).trans (State.setQ_eng ..)
  have h2 : LoopMoves s1 s2 ∧ s2.ref.eng = s1.ref.eng ∧ (q = 2 → (0xE1, locRef) ∈ s2.flt.status) := by
    unfold s2
    split
    · exact ⟨.of_raise .., by rw [State.disqualified, State.raise_ref], fun _ => State.raise_status ..⟩
    · next hq => exact ⟨.refl s1, rfl, fun h => absurd h hq⟩
  clear_value s1 s2
  obtain ⟨hm, he, hev⟩ := h2
  have hlose := s2.loseSelected_moves c
  have hm := hm.trans hlose
  refine ⟨fun n => (State.cand_of_cand n hm.cand).trans (hcand n), ?_, hm.plane.trans hplane, fun hq => hlose.grows (hev hq),
    fun hsel hl => ?_⟩
  · rw [State.candSt_of_candSt c hm.candSt, hact]
  · have he := he.trans heng
    rw [State.loseSelected_holds ((State.selected_of_eng he).trans hsel) (by rwa [State.loopState_of_eng he])]
    exact ⟨State.enterHoldover_loopState .., State.enterHoldover_status ..⟩

theorem State.candUp_starts (hen : fbit (s.cand c) Cand.candEn = true) (hq : s.qState c = 0) :
    s.candUp c = (s.setQ c 1).setCandSt c { s.candSt c with secs := [], goodRun := 0, qualRun := 0 } := by
  unfold State.candUp
  rw [hen, hq]
  rfl

/-- Activity that returns makes an ABSENT candidate QUALIFYING, and leaves any other. -/
theorem State.candUp_cases (c : Nat) (s : State) : s.candUp c = s ∨
    (s.qState c = 0 ∧ s.candUp c = (s.setQ c 1).setCandSt c { s.candSt c with secs := [], goodRun := 0, qualRun := 0 }) := by
  unfold State.candUp
  split
  · next h => exact .inr ⟨by simpa using (Bool.and_eq_true_iff.1 h).2, rfl⟩
  · exact .inl rfl

theorem State.setCandSt_ref (c : Nat) (x : CandSt) (s : State) :
    (s.setCandSt c x).ref = { s.ref with candSt := tset candStReset s.ref.candSt c x } := State.onRef_ref ..

/-- Of the reference state activity that returns changes the candidates alone. -/
theorem State.candUp_ref (c : Nat) (s : State) : ∃ cand candSt, (s.candUp c).ref = { s.ref with cand := cand, candSt := candSt } := by
  rcases s.candUp_cases c with h | ⟨-, h⟩
  · exact ⟨_, _, by rw [h]⟩
  · obtain ⟨cand, hq⟩ := s.setQ_ref c 1
    exact ⟨cand, _, by rw [h, State.setCandSt_ref, hq]⟩

theorem State.candUp_others {n : Nat} (hn : n ≠ c) : (s.candUp c).cand n = s.cand n := by
  rcases s.candUp_cases c with h | ⟨-, h⟩
  · rw [h]
  · rw [h, State.cand_setCandSt, State.cand_setQ, if_neg hn]

theorem State.candUp_own (c : Nat) (s : State) : (s.candUp c).cand c = s.cand c ∨
    (s.qState c = 0 ∧ (s.candUp c).cand c = fput (s.cand c) Cand.qState 1) := by
  rcases s.candUp_cases c with h | ⟨hq, h⟩
  · exact .inl (by rw [h])
  · exact .inr ⟨hq, by rw [h, State.cand_setCandSt, State.cand_setQ, if_pos rfl]⟩

theorem State.candUp_activity (c : Nat) (s : State) : ((s.candUp c).candSt c).activity = (s.candSt c).activity := by
  rcases s.candUp_cases c with h | ⟨-, h⟩
  · rw [h]
  · rw [h, State.candSt_setCandSt_same]

theorem State.candUp_qState (hen : fbit (s.cand c) Cand.candEn = true) (hq : s.qState c = 0) : (s.candUp c).qState c = 1 := by
  rw [State.candUp_starts hen hq, State.qState_setCandSt, State.qState_setQ_same _ _ _ (by decide)]

end

end Sys2Proof.Machine
end

section
/-! PROOFS. One second of the reference engine (R272 to R280): a candidate's second, the judgement of agreement, the selection, and the
correction. -/

namespace Sys2Proof.Machine

open Sys2Proof

/-! ### Folds that one element decides -/

section
variable {α : Type} {f : α → Nat → α} {l : List Nat} {c : Nat} {a : α}

theorem foldl_of_fixed (h : ∀ n ∈ l, f a n = a) : l.foldl f a = a := by
  induction l with
  | nil => rfl
  | cons n l ih =>
    rw [List.foldl_cons, h n List.mem_cons_self]
    exact ih fun m hm => h m (List.mem_cons_of_mem _ hm)

/-- Where every other element leaves things as they are, before and after, a fold is the step of the one. -/
theorem foldl_of_one (hc : c ∈ l) (hl : l.Nodup) (h : ∀ n ∈ l, n ≠ c → f a n = a) (h' : ∀ n ∈ l, n ≠ c → f (f a c) n = f a c) :
    l.foldl f a = f a c := by
  obtain ⟨l1, l2, rfl⟩ := List.append_of_mem hc
  obtain ⟨hc1, hc2⟩ : c ∉ l1 ∧ c ∉ l2 := by
    rw [List.nodup_append] at hl
    exact ⟨fun hm => hl.2.2 c hm c List.mem_cons_self rfl, (List.nodup_cons.1 hl.2.1).1⟩
  rw [List.foldl_append, List.foldl_cons,
    foldl_of_fixed fun n hn => h n (List.mem_append_left _ hn) fun e => hc1 (e ▸ hn),
    foldl_of_fixed fun n hn => h' n (List.mem_append_right _ (List.mem_cons_of_mem _ hn)) fun e => hc2 (e ▸ hn)]

end

/-! ### The best candidate (R274) -/

section
variable {s : State}

theorem State.bestCand_none (h : ∀ n, n < 16 → s.qState n ≠ 2) : s.bestCand = none :=
  foldl_of_fixed fun n hn => if_pos (bne_iff_ne.2 (h n (List.mem_range.1 hn)))

theorem State.bestCand_one {c : Nat} (hc : c < 16) (hq : s.qState c = 2) (h : ∀ n, n < 16 → n ≠ c → s.qState n ≠ 2) :
    s.bestCand = some c := by
  unfold State.bestCand
  rw [foldl_of_one (c := c) (List.mem_range.2 hc) List.nodup_range]
  · simp [hq]
  · exact fun n hn hne => if_pos (bne_iff_ne.2 (h n (List.mem_range.1 hn) hne))
  · exact fun n hn hne => if_pos (bne_iff_ne.2 (h n (List.mem_range.1 hn) hne))

end

/-! ### One second of a candidate (R272, R273) -/

/-- A candidate's seconds with the one just measured, newest first. -/
def State.secsWith (s : State) (c : Nat) (m : Measure) : List Second :=
  (⟨m.edges && m.jump ≤ fget (s.cand c) Cand.phaseHit, m.freq⟩ :: (s.candSt c).secs).take 100

section
variable {s : State} {c : Nat} {m : Measure}

theorem State.evalCand_off (h : fbit (s.cand c) Cand.candEn = false) : s.evalCand c m = s := by
  unfold State.evalCand
  rw [if_pos]
  simp [h]

/-- A QUALIFYING candidate whose good seconds reach QUAL_TIME with its means inside the window is QUALIFIED. -/
theorem State.evalCand_qualifies (hc : c ≠ 15) (hen : fbit (s.cand c) Cand.candEn = true) (ha : s.candActive c = true)
    (hq : s.qState c = 1) (he : m.edges = true) (hj : m.jump ≤ fget (s.cand c) Cand.phaseHit)
    (hrun : fget (s.cand c) Cand.qualTime ≤ (s.candSt c).goodRun + 1)
    (h10 : meanOut (s.secsWith c m) 10 (fget (s.cand c) Cand.freqWindow * 100) = false)
    (h100 : meanOut (s.secsWith c m) 100 (fget (s.cand c) Cand.freqWindow * 100) = false) :
    s.evalCand c m = ((s.setCandSt c { s.candSt c with
      secs := s.secsWith c m, goodRun := (s.candSt c).goodRun + 1, qualRun := 0 }).setQ c 2).raise ⟨0xE2, locRef, true, 0, leBytes 1 c⟩ := by
  have hgood : (m.edges && decide (m.jump ≤ fget (s.cand c) Cand.phaseHit)) = true := by rw [he, decide_eq_true hj]; rfl
  have h15 : (c == 15) = false := beq_false_of_ne hc
  rw [State.secsWith] at h10 h100 ⊢
  simp only [State.evalCand, hen, ha, hq, Bool.not_true, Bool.or_self, Bool.false_eq_true, one_ne_zero, if_false]
  rw [if_pos hgood]
  refine if_pos ?_
  rw [h10, h100, h15, decide_eq_true hrun]
  rfl

/-- A QUALIFIED candidate with a reason against it is disqualified. -/
theorem State.evalCand_fails (hen : fbit (s.cand c) Cand.candEn = true) (ha : s.candActive c = true) (hq : s.qState c = 2)
    (hbad : badReason (s.cand c) (s.secsWith c m) ≠ 0) :
    s.evalCand c m = (((s.setCandSt c { s.candSt c with secs := s.secsWith c m, goodRun := 0, qualRun := 0 }).setQ c 3).disqualified c
      (badReason (s.cand c) (s.secsWith c m))).loseSelected c := by
  simp only [State.evalCand, hen, ha, hq, Bool.not_true, Bool.or_self, Bool.false_eq_true, two_ne_zero, if_false]
  exact if_neg hbad

end


/-- R272: one second of every candidate. -/
def State.evalCands (meas : List Measure) (s : State) : State :=
  (List.range 16).foldl (fun s c => s.evalCand c (meas.getD c ⟨false, 0, 0⟩)) s

section
variable {s : State} {meas : List Measure}

theorem State.evalCands_off (h : ∀ n, n < 16 → fbit (s.cand n) Cand.candEn = false) : s.evalCands meas = s :=
  foldl_of_fixed fun n hn => State.evalCand_off (h n (List.mem_range.1 hn))

/-- With one candidate enabled, whose second leaves the others' records, the second is its. -/
theorem State.evalCands_one {c : Nat} {t : State} (hc : c < 16) (h : ∀ n, n < 16 → n ≠ c → fbit (s.cand n) Cand.candEn = false)
    (ht : s.evalCand c (meas.getD c ⟨false, 0, 0⟩) = t) (hcand : ∀ n, n ≠ c → t.cand n = s.cand n) : s.evalCands meas = t := by
  subst ht
  refine foldl_of_one (List.mem_range.2 hc) List.nodup_range (fun n hn hne => ?_) (fun n hn hne => ?_)
  · exact State.evalCand_off (h n (List.mem_range.1 hn) hne)
  · refine State.evalCand_off ?_
    rw [hcand n hne]
    exact h n (List.mem_range.1 hn) hne

end

/-! ### Agreement (R275) -/

theorem State.pllFailed_iff {s : State} : s.pllFailed = true ↔ ∃ l, (0xE9, l) ∈ s.flt.status := by
  rw [State.pllFailed, List.any_eq_true]
  constructor
  · rintro ⟨⟨c, l⟩, hm, hc⟩
    exact ⟨l, beq_iff_eq.1 hc ▸ hm⟩
  · rintro ⟨l, hm⟩
    exact ⟨_, hm, rfl⟩

/-- An event of another class than fatal sets STATUS of its own code and of FAULT_ESCALATED at most. -/
theorem State.raise_status_cases {e : Ev} {s : State} {p : Nat × Nat} (he : evClass e.code ≠ 3) (hp : p ∈ (s.raise e).flt.status) :
    p = (e.code, e.loc) ∨ p.1 = 0x21 ∨ p ∈ s.flt.status := by
  unfold State.raise State.raiseWith at hp
  simp only [he, decide_false, Bool.false_and, Bool.false_eq_true, if_false] at hp
  rcases State.noteRise_cases e false s with h | h
  · rw [h, State.note_status, mem_pinsert, State.onFlt_status _ _ rfl, State.note_status, mem_pinsert] at hp
    rcases hp with rfl | hp | hp
    · exact .inr (.inl rfl)
    · exact .inl hp
    · exact .inr (.inr hp)
  · rw [h, State.note_status, mem_pinsert] at hp
    exact hp.imp_right .inr

/-- What the judgement of agreement leaves: its episodes alone change, and its event is not that of the loop hardware. -/
structure Judges (s t : State) : Prop where
  ref : ∃ episodes, t.ref = { s.ref with disagree := episodes }
  grows : StatusGrows s t
  pll : s.pllFailed = false → t.pllFailed = false

section
variable {s t u : State}

theorem Judges.refl (s : State) : Judges s s := ⟨⟨_, rfl⟩, .refl s, id⟩

theorem Judges.trans (h : Judges s t) (h' : Judges t u) : Judges s u := by
  obtain ⟨x, hx⟩ := h.ref
  obtain ⟨y, hy⟩ := h'.ref
  exact ⟨⟨y, by rw [hy, hx]⟩, h.grows.trans h'.grows, fun hp => h'.pll (h.pll hp)⟩

theorem Judges.of_episodes (s : State) (l : List (Nat × Nat × Nat)) : Judges s (s.onRef (fun e => { e with disagree := l })) :=
  ⟨⟨l, rfl⟩, .refl s, id⟩

/-- REF_DISAGREE. -/
theorem Judges.of_event (s : State) (active : Bool) (objs : List Byte) : Judges s (s.raise ⟨0xE3, locRef, active, 0, objs⟩) := by
  refine ⟨⟨s.ref.disagree, State.raise_ref ..⟩, State.raise_grows .., fun hs => Bool.eq_false_iff.2 fun ht => ?_⟩
  have hclass : evClass 0xE3 ≠ 3 := by decide
  have hcode : (0xE9 : Nat) ≠ 0xE3 := by decide
  have hrise : (0xE9 : Nat) ≠ 0x21 := by decide
  obtain ⟨l, hl⟩ := State.pllFailed_iff.1 ht
  rcases State.raise_status_cases hclass hl with h | h | h
  · exact hcode (congrArg Prod.fst h)
  · exact hrise h
  · cases hs.symm.trans (State.pllFailed_iff.2 ⟨l, h⟩)

theorem foldl_judges {β : Type} {f : State → β → State} (h : ∀ s b, Judges s (f s b)) (l : List β) (s : State) : Judges s (l.foldl f s) :=
  List.foldlRecOn (motive := Judges s) _ _ (.refl s) (fun t ht b _ => ht.trans (h t b))

theorem State.judgeAgree_judges (s : State) : Judges s s.judgeAgree := by
  unfold State.judgeAgree
  refine foldl_judges (fun t x => ?_) _ _
  extract_lets rest
  split
  · exact .of_episodes ..
  split
  · exact (Judges.of_episodes ..).trans (.of_event ..)
  · exact .of_episodes ..

theorem State.openDisagree_judges (s : State) : Judges s s.openDisagree := by
  unfold State.openDisagree
  split
  · exact .refl s
  · refine foldl_judges (fun t d => ?_) _ _
    exact (Judges.of_episodes t _).trans (.of_event ..)

theorem Judges.cand (h : Judges s t) : t.ref.cand = s.ref.cand := by
  obtain ⟨l, hl⟩ := h.ref
  rw [hl]

theorem Judges.eng (h : Judges s t) : t.ref.eng = s.ref.eng := by
  obtain ⟨l, hl⟩ := h.ref
  rw [hl]

end

/-! ### Selection (R274, R276 to R278) -/

/-- R276, R278: a phase change of one running plane that takes back a move of `x`. -/
def State.realign (x : Int) (s : State) (p : Nat) : State :=
  if s.planeOn p then (s.setPlaneSt p { s.planeSt p with shift := (s.planeSt p).shift + x }).phaseChange p (-x) else s

section
variable (x : Int) (l : List Nat) (p : Nat) (s : State)

/-- A plane realigned: of the reference state the planes' running states alone change, and of those only running planes'. -/
theorem State.realign_ref : ∃ ps, (s.realign x p).ref = { s.ref with planeSt := ps } ∧
    ∀ n, s.planeOn n = false → tget planeStReset ps n = s.planeSt n := by
  unfold State.realign
  split
  · next hon =>
    obtain ⟨v, hv⟩ := State.phaseChange_eq (-x) p (s.setPlaneSt p { s.planeSt p with shift := (s.planeSt p).shift + x })
    rw [hv]
    refine ⟨_, rfl, fun n hn => ?_⟩
    have hne : n ≠ p := fun e => by cases (e ▸ hn).symm.trans hon
    exact (tget_tset ..).trans ((if_neg hne).trans ((tget_tset ..).trans (if_neg hne)))
  · exact ⟨_, rfl, fun _ _ => rfl⟩

theorem State.foldl_realign_ref : ∃ ps, (l.foldl (State.realign x) s).ref = { s.ref with planeSt := ps } ∧
    ∀ n, s.planeOn n = false → tget planeStReset ps n = s.planeSt n := by
  induction l generalizing s with
  | nil => exact ⟨_, rfl, fun _ _ => rfl⟩
  | cons p l ih =>
    obtain ⟨ps, h1, hoff1⟩ := s.realign_ref x p
    obtain ⟨ps', h2, hoff2⟩ := ih (s.realign x p)
    refine ⟨ps', by rw [List.foldl_cons, h2, h1], fun n hn => ?_⟩
    have hn' : (s.realign x p).planeOn n = false := by rw [State.planeOn, h1]; exact hn
    rw [hoff2 n hn', State.planeSt, h1, hoff1 n hn]

end

section
variable (c : Nat) (d x : Int) (s : State)

theorem State.alignEngine_ref : ∃ ps, (s.alignEngine x).ref = { s.ref with planeSt := ps } := by
  obtain ⟨ps, h, -⟩ := State.foldl_realign_ref x (List.range 8) (s.moveEngine x)
  exact ⟨ps, h⟩

theorem State.moveEngine_ref : (s.moveEngine x).ref = s.ref := rfl

theorem State.setEng_ref (f : Fld) (v : Nat) : (s.setEng f v).ref = { s.ref with eng := fput s.ref.eng f v } := State.onRef_ref ..

/-- R277, R278: the first candidate is selected and the loop acquires it from its first stage; planes are realigned. -/
theorem State.selectFirst_ref : ∃ ps, (s.selectFirst c d).ref = { s.ref with
    eng := fput (fput s.ref.eng RefEng.selected c) RefEng.loopState 1, stage := 1, oldSel := c, planeSt := ps } := by
  unfold State.selectFirst
  rw [State.refSelected, State.raise_ref]
  obtain ⟨ps, h⟩ := State.alignEngine_ref (s.alignMove c d)
    (((s.setEng RefEng.selected c).setEng RefEng.loopState 1).onRef (fun e => { e with stage := 1, oldSel := c }))
  rw [State.onRef_ref, State.setEng_ref, State.setEng_ref] at h
  exact ⟨ps, h⟩

theorem State.refSelected_status (old new : Nat) : (0xE0, locRef) ∈ (s.refSelected old new).flt.status := State.raise_status ..

theorem State.selectFirst_status : (0xE0, locRef) ∈ (s.selectFirst c d).flt.status := by
  unfold State.selectFirst
  exact State.refSelected_status ..

theorem State.selectFirst_moves : LoopMoves s (s.selectFirst c d) := by
  obtain ⟨ps, h⟩ := s.selectFirst_ref c d
  refine ⟨by rw [h], by rw [h], by rw [h], ?_⟩
  exact (StatusGrows.of_kept (m := 0x10001) ((State.alignEngine_kept ..).trans ((State.kept_onRef ..).trans
    ((State.setEng_kept ..).trans (State.setEng_kept ..))))).trans (State.raise_grows ..)

/-- R276 steps 3 and 4: a candidate is selected with build-out, and the loop acquires it at its last stage. -/
theorem State.selectBuilt_ref : ∃ b, (s.selectBuilt c d).ref = { s.ref with
    eng := fputS (fput (fput s.ref.eng RefEng.selected c) RefEng.loopState 1) RefEng.buildout b, stage := 5, oldSel := c, build := b } := by
  unfold State.selectBuilt
  extract_lets move old was s1 s2
  have h2 : s2.ref = s1.ref := State.raise_ref ..
  have h1 : s1.ref = { s.ref with
      eng := fputS (fput (fput s.ref.eng RefEng.selected c) RefEng.loopState 1) RefEng.buildout (s.ref.build + move), stage := 5, oldSel := c
      build := s.ref.build + move } := by
    unfold s1
    rw [State.moveEngine_ref, State.onRef_ref, State.setEng_ref, State.setEng_ref]
  refine ⟨s.ref.build + move, Eq.trans ?_ (h2.trans h1)⟩
  split
  · exact State.raiseEnd_ref ..
  · rfl

theorem State.selectBuilt_status : (0xE0, locRef) ∈ (s.selectBuilt c d).flt.status := by
  unfold State.selectBuilt
  extract_lets move old was s1 s2
  have h2 : (0xE0, locRef) ∈ s2.flt.status := State.refSelected_status ..
  split
  · exact State.raise_mono h2
  · exact h2

theorem State.selectBuilt_moves : LoopMoves s (s.selectBuilt c d) := by
  obtain ⟨b, h⟩ := s.selectBuilt_ref c d
  refine ⟨by rw [h], by rw [h], by rw [h], ?_⟩
  unfold State.selectBuilt
  extract_lets move old was s1 s2
  have h1 : StatusGrows s s1 := .of_kept (m := 0x10001) ((State.moveEngine_kept ..).trans ((State.kept_onRef ..).trans
    ((State.setEng_kept ..).trans (State.setEng_kept ..))))
  have h2 : StatusGrows s s2 := h1.trans (State.raise_grows ..)
  split
  · exact h2.trans (State.raise_grows ..)
  · exact h2

variable {c}

theorem State.selectFirst_loop (hc : c < 32) : (s.selectFirst c d).loopState = 1 ∧ (s.selectFirst c d).selected = c := by
  obtain ⟨ps, h⟩ := s.selectFirst_ref c d
  rw [State.loopState, State.selected, h]
  refine ⟨fget_fput _ _ _ (by decide), (fget_fput_below _ _ _ _ (by decide) (by decide)).trans ((fget_fput _ _ _ (by decide)).trans ?_)⟩
  exact Nat.mod_eq_of_lt hc

theorem State.selectBuilt_loop (hc : c < 32) : (s.selectBuilt c d).loopState = 1 ∧ (s.selectBuilt c d).selected = c := by
  obtain ⟨b, h⟩ := s.selectBuilt_ref c d
  rw [State.loopState, State.selected, h]
  refine ⟨(fget_buildout_put _ _ (by decide)).trans (fget_fput _ _ _ (by decide)), (fget_buildout_put _ _ (by decide)).trans
    ((fget_fput_below _ _ _ _ (by decide) (by decide)).trans ((fget_fput _ _ _ (by decide)).trans ?_))⟩
  exact Nat.mod_eq_of_lt hc

end

section
variable {ph : List Int} {s : State} {c : Nat}

theorem State.evalSelect_off (h : fbit s.ref.eng RefEng.refEn = false) : s.evalSelect ph = s := if_pos (by rw [h]; rfl)

theorem State.evalSelect_none (h : s.bestCand = none) : s.evalSelect ph = s := by
  unfold State.evalSelect
  rw [h]
  exact ite_self ..

theorem State.evalSelect_first (hen : fbit s.ref.eng RefEng.refEn = true) (hb : s.bestCand = some c) (hl : s.loopState = 0) :
    s.evalSelect ph = s.selectFirst c (phaseOf ph c) := by
  simp only [State.evalSelect, hen, hb, hl, Bool.not_true, Bool.false_eq_true, if_true, if_false]

theorem State.evalSelect_built (hen : fbit s.ref.eng RefEng.refEn = true) (hb : s.bestCand = some c) (hl : s.loopState = 3)
    (hs : s.ref.settled = true) : s.evalSelect ph = s.selectBuilt c (phaseOf ph c) := by
  simp only [State.evalSelect, hen, hb, hl, hs, Bool.not_true, Bool.false_eq_true, if_false, decide_true, Bool.and_self, if_true,
    OfNat.ofNat_ne_zero]

/-- A loop that acquires or is locked, or holds over before SETTLE has passed, selects nothing new. -/
theorem State.evalSelect_stays (h0 : s.loopState ≠ 0) (h : s.loopState ≠ 3 ∨ s.ref.settled = false) : s.evalSelect ph = s := by
  have h3 : ¬(decide (s.loopState = 3) && s.ref.settled) = true := by
    rw [Bool.and_eq_true, decide_eq_true_iff]
    exact fun hn => h.elim (fun h => h hn.1) (fun h => by cases h.symm.trans hn.2)
  cases hb : s.bestCand with
  | none => exact State.evalSelect_none hb
  | some c => simp only [State.evalSelect, hb, if_neg h0, if_neg h3, ite_self]

end

section
variable (ph : List Int) (s : State)

/-- The selection is left, or one candidate is selected, as the first or with build-out. -/
theorem State.evalSelect_cases : s.evalSelect ph = s ∨ (∃ c, s.evalSelect ph = s.selectFirst c (phaseOf ph c)) ∨
    ∃ c, s.evalSelect ph = s.selectBuilt c (phaseOf ph c) := by
  unfold State.evalSelect
  split
  · exact .inl rfl
  split
  · exact .inl rfl
  split
  · exact .inr (.inl ⟨_, rfl⟩)
  split
  · exact .inr (.inr ⟨_, rfl⟩)
  · exact .inl rfl

theorem State.evalSelect_moves : LoopMoves s (s.evalSelect ph) := by
  rcases s.evalSelect_cases ph with h | ⟨c, h⟩ | ⟨c, h⟩ <;> rw [h]
  · exact .refl s
  · exact s.selectFirst_moves c _
  · exact s.selectBuilt_moves c _

theorem State.evalSelect_settled : (s.evalSelect ph).ref.settled = s.ref.settled := by
  rcases s.evalSelect_cases ph with h | ⟨c, h⟩ | ⟨c, h⟩ <;> rw [h]
  · obtain ⟨ps, hr⟩ := s.selectFirst_ref c (phaseOf ph c)
    rw [hr]
  · obtain ⟨b, hr⟩ := s.selectBuilt_ref c (phaseOf ph c)
    rw [hr]

end

/-! ### The correction (R271, R279, R280) -/

section
variable (corr : Int) (s : State)

theorem State.evalCorr_ref : ∃ i secs hist, (s.evalCorr corr).ref = { s.ref with
    eng := fputS s.ref.eng RefEng.freqCorr i, holdSecs := secs, history := hist } := by
  unfold State.evalCorr
  split
  · exact ⟨_, _, _, rfl⟩
  · rw [State.onRef_ref]
    split <;> exact ⟨_, _, _, rfl⟩

theorem State.evalCorr_moves : LoopMoves s (s.evalCorr corr) := by
  obtain ⟨i, secs, hist, h⟩ := s.evalCorr_ref corr
  refine ⟨by rw [h], by rw [h], by rw [h], .of_kept (State.evalCorr_kept (μ := 0x10000) ..)⟩

theorem State.evalCorr_loopState : (s.evalCorr corr).loopState = s.loopState := by
  obtain ⟨i, secs, hist, h⟩ := s.evalCorr_ref corr
  rw [State.loopState, h]
  exact fget_freqCorr_put _ _ (by decide)

theorem State.evalCorr_selected : (s.evalCorr corr).selected = s.selected := by
  obtain ⟨i, secs, hist, h⟩ := s.evalCorr_ref corr
  rw [State.selected, h]
  exact fget_freqCorr_put _ _ (by decide)

variable {s}

/-- Free running, nothing is corrected, whether or not the loop hardware has failed. -/
theorem State.evalCorr_free (h : s.loopState = 0) : (s.evalCorr corr).ref.eng = fputS s.ref.eng RefEng.freqCorr 0 := by
  unfold State.evalCorr
  split
  · rfl
  · rw [State.onRef_ref, show fget s.ref.eng RefEng.loopState = 0 from h]
    rfl

theorem State.evalCorr_locked (h : s.loopState = 2) (hp : s.pllFailed = false) : (s.evalCorr corr).ref =
    { s.ref with eng := fputS s.ref.eng RefEng.freqCorr corr, history := (corr :: s.ref.history).take 86400 } := by
  unfold State.evalCorr
  rw [if_neg (Bool.eq_false_iff.1 hp), State.onRef_ref, show fget s.ref.eng RefEng.loopState = 2 from h]
  rfl

theorem State.evalCorr_holdover (h : s.loopState = 3) (hp : s.pllFailed = false) : (s.evalCorr corr).ref =
    { s.ref with holdSecs := s.ref.holdSecs + 1, eng := fputS s.ref.eng RefEng.freqCorr (holdCorr s.ref (s.ref.holdSecs + 1)) } := by
  unfold State.evalCorr
  rw [if_neg (Bool.eq_false_iff.1 hp), State.onRef_ref, show fget s.ref.eng RefEng.loopState = 3 from h]
  rfl

end

end Sys2Proof.Machine
end

section
/-! PROOFS. The REF commands (R270, R271, R273, R276, R422): what each command's passed checks give, and what it leaves. -/

namespace Sys2Proof.Machine

open Sys2Proof

/-! ### A request taken up shows the same candidates and engine -/

section
variable (q : Req) (s : State) (n : Nat)

@[simp] theorem taken_cand : (taken q s).cand n = s.cand n := State.cand_of_cand n (by rw [taken_ref])

@[simp] theorem taken_candSt : (taken q s).candSt n = s.candSt n := State.candSt_of_candSt n (by rw [taken_ref])

@[simp] theorem taken_loopState : (taken q s).loopState = s.loopState := State.loopState_of_eng (by rw [taken_ref])

@[simp] theorem taken_candImage : (taken q s).candImage n = s.candImage n := by simp [State.candImage]

end

/-! ### CAND_WRITE -/

section
variable {q : Req} {s : State} {c : Nat} {new : BitVec 128}

/-- CAND_WRITE's passed checks: one of the sixteen candidates, and the request's record over the one that stands. -/
theorem candWriteCheck_facts (h : candWriteCheck q s = .ok (c, new)) :
    c = Req.u32 q 0 ∧ c < 16 ∧ new = mergeRec Cand.layout (s.cand c) (Req.recordBytes q 16) := by
  obtain ⟨hc, h⟩ := index_bind.1 h
  obtain ⟨-, h⟩ := noTarget_bind.1 h
  obtain ⟨new', hn, h⟩ := ok_bind_iff.1 h
  obtain ⟨_, -, h⟩ := ok_bind_iff.1 h
  cases pure_eq_ok.1 h
  exact ⟨rfl, hc, writeRecord_eq hn⟩

theorem cmdCandWrite_eq (h : candWriteCheck q s = .ok (c, new)) :
    cmdCandWrite q s = .ok (candWriteDo c new s, recBytes ((candWriteDo c new s).cand c)) := by
  rw [cmdCandWrite, h]
  rfl

theorem State.setCand_plane (c : Nat) (r : BitVec 128) (s : State) : (s.setCand c r).ref.plane = s.ref.plane := by
  rw [State.setCand, State.onRef_ref]

/-- R273: a candidate that is switched off is ABSENT. -/
theorem candWriteDo_off (c : Nat) (s : State) (h : fbit new Cand.candEn = false) : (candWriteDo c new s).ref.plane = s.ref.plane ∧
    ∀ n, (candWriteDo c new s).cand n = if n = c then fput new Cand.qState 0 else s.cand n := by
  unfold candWriteDo
  extract_lets s1
  have h1 (n : Nat) : s1.cand n = if n = c then new else s.cand n := State.cand_setCand ..
  have hown : s1.cand c = new := (h1 c).trans (if_pos rfl)
  have hplane : s1.ref.plane = s.ref.plane := State.setCand_plane ..
  clear_value s1
  rw [h, Bool.not_false, if_pos rfl]
  split
  · next hq =>
    rw [State.qState, hown] at hq
    rw [fput_zero hq]
    exact ⟨hplane, h1⟩
  · have hd := s1.candDown_down c
    refine ⟨hd.plane.trans hplane, fun n => (hd.cand n).trans ?_⟩
    rw [hown]
    split
    · rfl
    · next hn => exact (h1 n).trans (if_neg hn)

/-- R273: an ABSENT candidate that is enabled and active begins to qualify. -/
theorem candWriteDo_on (c : Nat) (s : State) (h : fbit new Cand.candEn = true) : (candWriteDo c new s).ref.plane = s.ref.plane ∧
    (∀ n, n ≠ c → (candWriteDo c new s).cand n = s.cand n) ∧
    ((candWriteDo c new s).cand c = new ∨ (fget new Cand.qState = 0 ∧ (candWriteDo c new s).cand c = fput new Cand.qState 1)) := by
  unfold candWriteDo
  extract_lets s1
  have h1 (n : Nat) : s1.cand n = if n = c then new else s.cand n := State.cand_setCand ..
  have hown : s1.cand c = new := (h1 c).trans (if_pos rfl)
  have hplane : s1.ref.plane = s.ref.plane := State.setCand_plane ..
  clear_value s1
  rw [h, Bool.not_true, if_neg Bool.false_ne_true]
  split
  · obtain ⟨cand, candSt, hr⟩ := s1.candUp_ref c
    have hup := s1.candUp_own c
    rw [State.qState, hown] at hup
    exact ⟨by rw [hr, hplane], fun n hn => (State.candUp_others hn).trans ((h1 n).trans (if_neg hn)), hup⟩
  · exact ⟨hplane, fun n hn => (h1 n).trans (if_neg hn), .inl hown⟩

end

/-! ### REF_WRITE, REF_READ and PHASE_RESET -/

section
variable {q : Req} {s : State} {new : BitVec 256}

theorem refWriteCheck_eq (h : refWriteCheck q s = .ok new) : new = mergeRec RefEng.layout s.ref.eng (Req.recordBytes q 32) := by
  obtain ⟨-, h⟩ := index_bind.1 h
  obtain ⟨-, h⟩ := noTarget_bind.1 h
  exact writeRecord_eq h

theorem cmdRefWrite_eq (h : refWriteCheck q s = .ok new) :
    cmdRefWrite q s = .ok (refWriteDo new s, recBytes (refWriteDo new s).ref.eng) := by
  rw [cmdRefWrite, h]
  rfl

/-- An engine that is on, or ran free before, takes the record as it is. -/
theorem refWriteDo_on (h : fbit new RefEng.refEn = true ∨ s.loopState = 0) : (refWriteDo new s).ref = { s.ref with eng := new } := by
  unfold refWriteDo
  extract_lets was s1 s2
  rw [if_pos]
  · exact State.onRef_ref ..
  · simpa using h

/-- An engine switched off falls to FREE, with no candidate selected and no correction. -/
theorem refWriteDo_off (h : fbit new RefEng.refEn = false) (hl : s.loopState ≠ 0) : (refWriteDo new s).ref = { s.ref with
    eng := fput (fput (fput new RefEng.loopState 0) RefEng.selected noCand) RefEng.freqCorr 0, settled := false, stage := 0 } := by
  unfold refWriteDo
  extract_lets was s1 s2
  have h2 : s2.ref = _ := State.onRef_ref ..
  rw [if_neg]
  · split
    · exact (State.raiseEnd_ref ..).trans h2
    · exact h2
  · simp [h, was, hl]

theorem cmdRefRead_eq (hi : Req.u32 q 0 < 17) (ht : Req.trailingOk q 8 = true) (hr : Req.u32 q 4 < 2) :
    cmdRefRead q s = .ok (s, if Req.u32 q 0 = 0 then recBytes s.ref.eng else s.candImage (Req.u32 q 0 - 1)) := by
  rw [cmdRefRead, readArgs_ok hi ht hr]
  rfl

theorem cmdPhaseReset_eq (ht : Req.trailingOk q 0 = true) : cmdPhaseReset q s = .ok (phaseResetDo s, []) := by
  rw [cmdPhaseReset, layout_ok ht]
  rfl

/-- BUILDOUT cleared is taken back from running planes as a phase change. -/
theorem phaseResetDo_ref (s : State) : ∃ ps, (phaseResetDo s).ref = { s.ref with
    build := 0, eng := fput s.ref.eng RefEng.buildout 0, planeSt := ps } ∧
    ∀ p, s.planeOn p = false → tget planeStReset ps p = s.planeSt p := by
  unfold phaseResetDo
  extract_lets b s1
  have h1 : s1.ref = { s.ref with build := 0, eng := fput s.ref.eng RefEng.buildout 0 } := State.onRef_ref ..
  clear_value s1
  obtain ⟨ps, h, hoff⟩ := State.foldl_realign_ref b (List.range 8) s1
  refine ⟨ps, h.trans (by rw [h1]), fun p hp => ?_⟩
  rw [hoff p (by rwa [State.planeOn, h1]), State.planeSt, h1, State.planeSt]

end

/-! ### The obligation -/

/-- Settles O23: each write's passed checks give the merged record; what follows of a candidate's activity or of REF_EN moves the loop and
the candidate's own record alone. -/
theorem referenceCommandsTakeEffect : Obligations.ReferenceCommandsTakeEffect := by
  refine ⟨?cand, ?engine, ?read, ?reset⟩
  case cand =>
    intro q s c new hs hc
    obtain ⟨hcq, hlt, hnew⟩ := candWriteCheck_facts hc
    rw [taken_cand] at hnew
    have hk : (candWriteDo c new (taken q s)).kept 0x6D0014 = s.kept 0x6D0014 :=
      (candWriteDo_kept ..).trans (kept_mono (by decide) (taken_kept q s))
    have hplane : (taken q s).ref.plane = s.ref.plane := by rw [taken_ref]
    cases hen : fbit new Cand.candEn with
    | false =>
      obtain ⟨hp, hcand⟩ := candWriteDo_off c (taken q s) hen
      refine ⟨_, serve_ok hs (cmdCandWrite_eq hc), hcq, hlt, hnew, fun n hn => ?_, fun _ => (hcand c).trans (if_pos rfl),
        fun h => Bool.noConfusion h, hp.trans hplane, mem_of_kept hk, rte_of_kept hk, bud_of_kept hk, pwr_of_kept hk⟩
      rw [hcand, if_neg hn, taken_cand]
    | true =>
      obtain ⟨hp, hothers, hown⟩ := candWriteDo_on c (taken q s) hen
      refine ⟨_, serve_ok hs (cmdCandWrite_eq hc), hcq, hlt, hnew, fun n hn => ?_, fun h => Bool.noConfusion h, fun _ => hown,
        hp.trans hplane, mem_of_kept hk, rte_of_kept hk, bud_of_kept hk, pwr_of_kept hk⟩
      rw [hothers n hn, taken_cand]
  case engine =>
    intro q s new hs hc
    have hnew := refWriteCheck_eq hc
    rw [taken_ref] at hnew
    have hk : (refWriteDo new (taken q s)).kept 0x2D0014 = s.kept 0x2D0014 :=
      (refWriteDo_kept ..).trans (kept_mono (by decide) (taken_kept q s))
    by_cases hon : fbit new RefEng.refEn = true ∨ s.loopState = 0
    · have hr := refWriteDo_on (s := taken q s) (by rwa [taken_loopState])
      rw [taken_ref] at hr
      refine ⟨_, serve_ok hs (cmdRefWrite_eq hc), hnew, fun _ => by rw [hr], fun hoff hl => ?_, by rw [hr], by rw [hr],
        mem_of_kept hk, rte_of_kept hk, bud_of_kept hk, pwr_of_kept hk⟩
      exact hon.elim (fun h => by cases hoff.symm.trans h) (fun h => absurd h hl)
    · obtain ⟨hoff, hl⟩ := not_or.1 hon
      have hr := refWriteDo_off (s := taken q s) (Bool.eq_false_iff.2 hoff) (by rwa [taken_loopState])
      rw [taken_ref] at hr
      exact ⟨_, serve_ok hs (cmdRefWrite_eq hc), hnew, fun h => absurd h hon, fun _ _ => by rw [hr], by rw [hr], by rw [hr],
        mem_of_kept hk, rte_of_kept hk, bud_of_kept hk, pwr_of_kept hk⟩
  case read =>
    intro q s hs hi ht hr
    have h := serve_ok (peers := []) hs (cmdRefRead_eq (s := taken q s) hi ht hr)
    rw [taken_ref, taken_candImage] at h
    exact h
  case reset =>
    intro q s hs ht
    obtain ⟨ps, hr, hoff⟩ := phaseResetDo_ref (taken q s)
    have hk : (phaseResetDo (taken q s)).kept 0x10004 = s.kept 0x10004 :=
      (phaseResetDo_kept ..).trans (kept_mono (by decide) (taken_kept q s))
    rw [taken_ref] at hr
    refine ⟨_, serve_ok hs (cmdPhaseReset_eq ht), by rw [hr], by rw [hr], by rw [hr], fun p hp => ?_, mem_of_kept hk, rte_of_kept hk,
      pwr_of_kept hk⟩
    rw [State.planeSt, hr]
    exact (hoff p (by rwa [taken_planeOn])).trans (taken_planeSt ..)

end Sys2Proof.Machine
end

section
/-! PROOFS. The reference engine's happenings (R272 to R281, R287, R291, R292): a second of the engine, activity lost and seen, the timers of the
loop, a fault of the loop hardware. -/

namespace Sys2Proof.Machine

open Sys2Proof

/-! ### REF_EVALUATION (R272 to R276, R280) -/

section
variable {s : State} {m : List Measure} {ph : List Int} {cr : BitVec 32} {c : Nat}

theorem execRefEvaluation_held (h : s.blockHeld 49 = true) : execRefEvaluation m ph cr s = .next s.fresh := if_pos h

/-- A second of the engine: its candidates, the judgement of agreement, the selection, the correction. -/
theorem execRefEvaluation_runs (h : s.blockHeld 49 = false) : execRefEvaluation m ph cr s =
    .next (((s.fresh.evalCands m).judgeAgree.openDisagree.evalSelect ph).evalCorr cr.toInt) := if_neg (Bool.eq_false_iff.1 h)

theorem State.judged (s : State) : Judges s s.judgeAgree.openDisagree := s.judgeAgree_judges.trans (State.openDisagree_judges ..)

/-- The selection and the correction leave the candidates, and what stands in STATUS. -/
theorem Judges.second_moves {t : State} (h : Judges s t) (ph : List Int) (corr : Int) (n : Nat) :
    ((t.evalSelect ph).evalCorr corr).qState n = s.qState n ∧ StatusGrows s ((t.evalSelect ph).evalCorr corr) := by
  have hm := (t.evalSelect_moves ph).trans (State.evalCorr_moves corr _)
  exact ⟨(hm.qState n).trans (State.qState_of_cand n h.cand), h.grows.trans hm.grows⟩

/-- A candidate's second written: its Q_STATE alone changes of the records, and nothing of the loop. -/
theorem State.cand_setSecond (c v n : Nat) (x : CandSt) (s : State) : ((s.setCandSt c x).setQ c v).cand n =
    if n = c then fput (s.cand c) Cand.qState v else s.cand n := State.cand_setQ ..

theorem State.setSecond_eng (c v : Nat) (x : CandSt) (s : State) : ((s.setCandSt c x).setQ c v).ref.eng = s.ref.eng :=
  (State.setQ_eng ..).trans (State.setCandSt_eng ..)

/-- What the second in which one candidate qualifies leaves. -/
structure Qualified (c : Nat) (s t : State) : Prop where
  cand : ∀ n, n ≠ c → t.cand n = s.cand n
  qState : t.qState c = 2
  eng : t.ref.eng = s.ref.eng
  event : (0xE2, locRef) ∈ t.flt.status

theorem Qualified.of_second (c : Nat) (x : CandSt) (s : State) :
    Qualified c s (((s.setCandSt c x).setQ c 2).raise ⟨0xE2, locRef, true, 0, leBytes 1 c⟩) where
  cand n hn := by rw [State.raise_cand, State.cand_setSecond, if_neg hn]
  qState := by rw [State.raise_qState, State.qState_setQ_same _ _ _ (by decide)]
  eng := by rw [State.raise_ref, State.setSecond_eng]
  event := State.raise_status ..

/-- What the second in which the candidate that the loop follows fails leaves. -/
structure Failed (c : Nat) (s t : State) : Prop where
  cand : ∀ n, n ≠ c → t.cand n = s.cand n
  qState : t.qState c = 3
  loop : t.loopState = 3
  selected : t.selected = noCand
  disqualified : (0xE1, locRef) ∈ t.flt.status
  holdover : (0xE4, locRef) ∈ t.flt.status

theorem Failed.of_second {x : CandSt} {why : Nat} (hsel : s.selected = c) (hl : s.loopState = 1 ∨ s.loopState = 2) :
    Failed c s ((((s.setCandSt c x).setQ c 3).disqualified c why).loseSelected c) := by
  have heng : (((s.setCandSt c x).setQ c 3).disqualified c why).ref.eng = s.ref.eng := by
    rw [State.disqualified, State.raise_ref, State.setSecond_eng]
  have hcand (n : Nat) : (((s.setCandSt c x).setQ c 3).disqualified c why).cand n =
      if n = c then fput (s.cand c) Cand.qState 3 else s.cand n := by
    rw [State.disqualified, State.raise_cand, State.cand_setSecond]
  have hev : (0xE1, locRef) ∈ (((s.setCandSt c x).setQ c 3).disqualified c why).flt.status := State.raise_status ..
  rw [State.loseSelected_holds ((State.selected_of_eng heng).trans hsel) (by rwa [State.loopState_of_eng heng])]
  generalize ((s.setCandSt c x).setQ c 3).disqualified c why = u at hcand hev
  have hm := u.enterHoldover_moves
  refine ⟨fun n hn => ?_, ?_, State.enterHoldover_loopState .., State.enterHoldover_selected .., hm.grows hev,
    State.enterHoldover_status ..⟩
  · rw [State.cand_of_cand n hm.cand, hcand, if_neg hn]
  · rw [hm.qState, State.qState, hcand, if_pos rfl, fget_fput _ _ _ (by decide)]
    rfl

/-- The only candidate that is QUALIFIED is the best. -/
theorem Qualified.bestCand {t : State} (h : Qualified c s t) (hc : c < 16) (hq : ∀ n, n < 16 → n ≠ c → s.qState n ≠ 2) :
    t.bestCand = some c := by
  refine State.bestCand_one hc h.qState fun n hn hne => ?_
  rw [State.qState, h.cand n hne]
  exact hq n hn hne

theorem Failed.bestCand {t : State} (h : Failed c s t) (hq : ∀ n, n < 16 → n ≠ c → s.qState n ≠ 2) : t.bestCand = none := by
  refine State.bestCand_none fun n hn => ?_
  by_cases hne : n = c
  · rw [hne, h.qState]
    decide
  · rw [State.qState, h.cand n hne]
    exact hq n hn hne

/-- The correction, as a two's-complement word, reads as the word it was. -/
theorem unsgn_toInt (x : BitVec 32) : unsgn 32 x.toInt = x.toNat := by
  have h := x.isLt
  rw [unsgn, BitVec.toInt_eq_toNat_cond]
  split <;> omega

end

/-! ### ACTIVITY_LOSS (R273, R287) -/

/-- R287: an output that regenerates input `k - 2`, were it not lost before, loses it. -/
def State.loseInput (k : Nat) (s : State) (o : Nat) : State :=
  if fbit (s.pulse o) Pulse.poEn && fget (s.pulse o) Pulse.poSrc == 5 && fget (s.pulse o) Pulse.alignIn + 2 == k &&
      !(tget edgeReset s.ref.pulseSt o).lost then
    (s.onRef (fun e => { e with pulseSt := tset edgeReset e.pulseSt o { tget edgeReset e.pulseSt o with lost := true } })).raise0 0xE8 locRef
  else s

/-- R287: an output that had lost input `k` is aligned with it again. -/
def State.findInput (k : Nat) (s : State) (o : Nat) : State :=
  if fget (s.pulse o) Pulse.poSrc == 5 && fget (s.pulse o) Pulse.alignIn == k && (tget edgeReset s.ref.pulseSt o).lost then
    s.onRef (fun e => { e with
      pulseSt := tset edgeReset e.pulseSt o { tget edgeReset e.pulseSt o with lost := false, lengthen := true } })
  else s

/-- A candidate out of activity is ABSENT, at once. -/
def State.candOut (c : Nat) (s : State) : State := if s.qState c = 0 then s else s.candDown c

section
variable (c k o : Nat) (s : State) (l : List Nat)

theorem State.foldl_loseInput_ref : ∃ es, (l.foldl (State.loseInput k) s).ref = { s.ref with pulseSt := es } := by
  refine List.foldlRecOn (motive := fun t : State => ∃ es, t.ref = { s.ref with pulseSt := es }) _ _ ⟨_, rfl⟩ (fun t ⟨es, ht⟩ o _ => ?_)
  unfold State.loseInput
  split
  · rw [State.raise0_ref, State.onRef_ref, ht]
    exact ⟨_, rfl⟩
  · exact ⟨es, ht⟩

theorem State.foldl_loseInput_grows : StatusGrows s (l.foldl (State.loseInput k) s) := by
  refine foldl_grows (fun t o => ?_) _ _
  unfold State.loseInput
  split
  · exact (StatusGrows.of_kept (State.kept_onRef (m := 0x10000) ..)).trans (State.raise0_grows ..)
  · exact .refl t

theorem State.foldl_findInput_ref : ∃ es, (l.foldl (State.findInput k) s).ref = { s.ref with pulseSt := es } := by
  refine List.foldlRecOn (motive := fun t : State => ∃ es, t.ref = { s.ref with pulseSt := es }) _ _ ⟨_, rfl⟩ (fun t ⟨es, ht⟩ o _ => ?_)
  unfold State.findInput
  split
  · rw [State.onRef_ref, ht]
    exact ⟨_, rfl⟩
  · exact ⟨es, ht⟩

theorem State.foldl_findInput_kept : (l.foldl (State.findInput k) s).kept 0x10000 = s.kept 0x10000 := by
  refine kept_foldl (fun t o => ?_) _ _
  unfold State.findInput
  split
  · exact State.kept_onRef ..
  · rfl

theorem State.candOut_qState : (s.candOut c).qState c = 0 := by
  unfold State.candOut
  split
  · next h => exact h
  · exact (s.candDown_down c).qState

theorem State.candOut_activity : ((s.candOut c).candSt c).activity = (s.candSt c).activity := by
  unfold State.candOut
  split
  · rfl
  · exact (s.candDown_down c).activity

theorem State.candOut_of_ne {c : Nat} {s : State} (h : s.qState c ≠ 0) : s.candOut c = s.candDown c := if_neg h

/-- R153: an SDI candidate is active while its lane is locked to a format. -/
theorem State.candActive_lane {c : Nat} (s : State) (h7 : 7 ≤ c) (h14 : c ≤ 14) :
    s.candActive c = ((s.lane (fget (s.cand c) Cand.lane)).lock == .formatLocked) :=
  if_pos (Bool.and_eq_true_iff.2 ⟨decide_eq_true h7, decide_eq_true h14⟩)

/-- SDI candidates and PTP show the activity of what they follow, whatever the detectors hold. -/
theorem State.candActive_setCandSt {c : Nat} (x : CandSt) (s : State) (h6 : 6 ≤ c) (h14 : c ≤ 14) :
    (s.setCandSt c x).candActive c = s.candActive c := by
  rcases Nat.eq_or_lt_of_le h6 with rfl | h7
  · rfl
  · rw [State.candActive_lane _ h7 h14, State.candActive_lane _ h7 h14, State.cand_setCandSt]
    rfl

/-- Any other candidate is active as its detector found. -/
theorem State.candActive_detected {c : Nat} (s : State) (h : c < 6 ∨ c = 15) : s.candActive c = (s.candSt c).activity := by
  have h7 : ¬(decide (7 ≤ c) && decide (c ≤ 14)) = true := by
    rw [Bool.and_eq_true, decide_eq_true_iff, decide_eq_true_iff]
    omega
  have h6 : ¬c = 6 := by omega
  unfold State.candActive
  rw [if_neg h7, if_neg h6]

end

section
variable {c : Fin 16} {s : State}

theorem execActivityLoss_stays (h6 : 6 ≤ c.val) (h14 : c.val ≤ 14) (ha : s.candActive c.val = true) :
    execActivityLoss c s = .next (s.fresh.setCandSt c.val { s.candSt c.val with activity := false }) :=
  if_pos ((State.candActive_setCandSt _ _ h6 h14).trans ha)

theorem execActivityLoss_lost (h : c.val < 6 ∨ c.val = 15) : execActivityLoss c s = .next ((List.range 8).foldl (State.loseInput c.val)
    ((s.fresh.setCandSt c.val { s.candSt c.val with activity := false }).candOut c.val)) := by
  have ha : ¬(s.fresh.setCandSt c.val { s.candSt c.val with activity := false }).candActive c.val = true := by
    rw [State.candActive_detected _ h, State.candSt_setCandSt_same]
    exact Bool.false_ne_true
  exact if_neg ha

end

/-! ### SETTLE_EXPIRY, WTR_EXPIRY, ACQUISITION_STAGE and HOLD_LIMIT_EXPIRY (R274, R276, R277, R281) -/

section
variable {s : State} {ph : List Int}

theorem execSettleExpiry_idle (h : s.loopState ≠ 3 ∨ s.ref.settled = true) : execSettleExpiry ph s = .next s.fresh := by
  have hc : (s.loopState != 3 || s.ref.settled) = true := by rwa [Bool.or_eq_true, bne_iff_ne]
  exact if_pos hc

theorem execSettleExpiry_settles (h : s.loopState = 3) (hs : s.ref.settled = false) : execSettleExpiry ph s =
    .next ((s.fresh.onRef (fun e => { e with settled := true })).openDisagree.evalSelect ph) := by
  have hc : ¬(s.loopState != 3 || s.ref.settled) = true := by rw [h, hs]; decide
  exact if_neg hc

/-- R274: what WTR_EXPIRY asks of a candidate that is to displace the one selected. -/
def State.displaces (s : State) (c : Nat) : Bool :=
  fbit s.ref.eng RefEng.revertive && (s.loopState == 1 || s.loopState == 2) && s.qState c == 2 && s.rankOf c < s.rankOf s.selected &&
    fget s.ref.eng RefEng.wtr ≤ (s.candSt c).qualRun

theorem State.displaces_iff {c : Nat} : s.displaces c = true ↔ fbit s.ref.eng RefEng.revertive = true ∧
    (s.loopState = 1 ∨ s.loopState = 2) ∧ s.qState c = 2 ∧ s.rankOf c < s.rankOf s.selected ∧
    fget s.ref.eng RefEng.wtr ≤ (s.candSt c).qualRun := by
  simp only [State.displaces, Bool.and_eq_true, Bool.or_eq_true, beq_iff_eq, decide_eq_true_iff, and_assoc]

theorem execWtrExpiry_displaces {c : Fin 16} {phase : Int} (h : s.displaces c.val = true) :
    execWtrExpiry c phase s = .next (s.fresh.selectBuilt c.val phase) := if_pos h

theorem execWtrExpiry_idle {c : Fin 16} {phase : Int} (h : s.displaces c.val = false) : execWtrExpiry c phase s = .next s.fresh :=
  if_neg (Bool.eq_false_iff.1 h)

theorem execAcquisitionStage_idle (h : s.loopState ≠ 1) : execAcquisitionStage s = .next s.fresh := if_pos (bne_iff_ne.2 h)

theorem execAcquisitionStage_locks (h : s.loopState = 1) (hb : stageBw s.ref.stage ≤ fget s.ref.eng RefEng.bwFinal) :
    execAcquisitionStage s = .next ((s.fresh.setEng RefEng.loopState 2).raise0 0xE6 locRef) :=
  (if_neg (fun hn => bne_iff_ne.1 hn h)).trans (if_pos hb)

theorem execAcquisitionStage_advances (h : s.loopState = 1) (hb : fget s.ref.eng RefEng.bwFinal < stageBw s.ref.stage) :
    execAcquisitionStage s = .next (s.fresh.onRef (fun e => { e with stage := e.stage + 1 })) :=
  (if_neg (fun hn => bne_iff_ne.1 hn h)).trans (if_neg hb.not_ge)

theorem execHoldLimitExpiry_idle (h : s.loopState ≠ 3 ∨ s.ref.longDone = true) : execHoldLimitExpiry s = .next s.fresh := by
  have hc : (s.loopState != 3 || s.ref.longDone) = true := by rwa [Bool.or_eq_true, bne_iff_ne]
  exact if_pos hc

theorem execHoldLimitExpiry_raises (h : s.loopState = 3) (hl : s.ref.longDone = false) :
    execHoldLimitExpiry s = .next ((s.fresh.onRef (fun e => { e with longDone := true })).raise0 0xE5 locRef) := by
  have hc : ¬(s.loopState != 3 || s.ref.longDone) = true := by rw [h, hl]; decide
  exact if_neg hc

end

/-! ### ANALOG_SYNC_FRAME (R291) -/

/-- R291: the state of an analog input whose sync is lost. -/
def CandSt.syncLost (x : CandSt) (amp : Nat) : CandSt :=
  { x with activity := false, detected := 255, frames := 0, missing := 0, amplitude := amp }

section
variable {s : State} {c : Fin 2} {x : SyncSeen} {a : BitVec 16}

theorem execAnalogSyncFrame_weak (ha : a.toNat < 100) : execAnalogSyncFrame c x a s =
    .next ((s.fresh.setCandSt c.val ((s.candSt c.val).syncLost a.toNat)).candOut c.val) := if_pos ha

theorem execAnalogSyncFrame_missing (ha : 100 ≤ a.toNat) (hx : x.lines.val = 255 ∨ syncKnown x.lines.val x.rate.val = false)
    (hm : (s.candSt c.val).missing < 3) : execAnalogSyncFrame c x a s =
    .next (s.fresh.setCandSt c.val { s.candSt c.val with missing := (s.candSt c.val).missing + 1, amplitude := a.toNat }) := by
  have hu : (decide (x.lines.val = 255) || !syncKnown x.lines.val x.rate.val) = true := by
    rwa [Bool.or_eq_true, decide_eq_true_iff, Bool.not_eq_true']
  have h4 : ¬4 ≤ (s.candSt c.val).missing + 1 := by omega
  exact (if_neg ha.not_gt).trans ((if_pos hu).trans (if_neg h4))

/-- No format that the detector knows has the code of no format. -/
theorem syncKnown_ne {d k : Nat} (h : syncKnown d k = true) : d ≠ 255 := by
  rintro rfl
  have hd := (Bool.and_eq_true_iff.1 h).1
  exact absurd hd (by decide)

/-- R291: the state of an analog input after one more frame, in a row, of the format it shows, which makes it active. -/
def CandSt.syncSeen (x : CandSt) (amp : Nat) : CandSt := { x with frames := x.frames + 1, missing := 0, amplitude := amp, activity := true }

/-- The second frame in a row of one format, strong enough, makes the input active. -/
theorem execAnalogSyncFrame_active (ha : 150 ≤ a.toNat) (hx : syncKnown x.lines.val x.rate.val = true)
    (hd : (s.candSt c.val).detected = x.lines.val) (hr : (s.candSt c.val).rate = x.rate.val) (hf : 1 ≤ (s.candSt c.val).frames) :
    execAnalogSyncFrame c x a s = .next ((s.fresh.setCandSt c.val ((s.candSt c.val).syncSeen a.toNat)).candUp c.val) := by
  have hu : ¬(decide (x.lines.val = 255) || !syncKnown x.lines.val x.rate.val) = true := by
    rw [hx, Bool.not_true, Bool.or_false, decide_eq_true_iff]
    exact syncKnown_ne hx
  have hsame : ((s.candSt c.val).detected == x.lines.val && (s.candSt c.val).rate == x.rate.val) = true := by
    rw [hd, hr, beq_self_eq_true, beq_self_eq_true]
    rfl
  have hweak : ¬a.toNat < 100 := by omega
  refine (if_neg hweak).trans ((if_neg hu).trans ?_)
  extract_lets same run up s1
  have hrun : run = (s.candSt c.val).frames + 1 := if_pos hsame
  have hup : up = true := by
    unfold up
    rw [hrun, decide_eq_true ha, decide_eq_true (show 2 ≤ (s.candSt c.val).frames + 1 by omega)]
    exact Bool.or_true _
  have h1 : s1 = s.fresh.setCandSt c.val ((s.candSt c.val).syncSeen a.toNat) := by
    unfold s1
    rw [hup, hrun, ← hd, ← hr]
    rfl
  rw [if_pos hup, h1]
  rfl

end

/-! ### REF_PLL_FAULT (R279) -/

section
variable {s : State}

theorem State.enterSafetyNet_on (s : State) : s.enterSafetyNet.safetyNet = true := by
  unfold State.enterSafetyNet
  split
  · next h => exact h
  · extract_lets was s1 s2 s3
    have h1 : fbit s1.flt.ctl FaultCtl.safetyNet = true := by
      unfold s1
      rw [State.onFlt_flt, fbit, fget_fput_of_disjoint _ _ _ _ (by decide) (by decide), fget_fput _ _ _ (by decide)]
      rfl
    have h2 : s2.flt = s1.flt := by
      unfold s2
      rw [State.onTrp_flt, State.onTst_flt]
    have h3 : s3.safetyNet = true := by
      unfold s3
      rw [State.note_safetyNet, State.safetyNet, h2, h1]
    split
    · rw [State.safetyNet, flt_of_kept (State.sendHeartbeat_kept (μ := 0xC0000) ..)]
      exact h3
    · exact h3

/-- R436, R439: a fatal event on a device that is not primary enters Safety Net. -/
theorem State.raise_fatal_safetyNet {e : Ev} (he : evClass e.code = 3) (ha : e.active = true) (hr : s.role ≠ .primary) :
    (s.raise e).safetyNet = true := by
  have hrole : (s.noteRise e false).role = s.role := by
    rw [State.role, twin_of_kept (State.noteRise_kept (μ := 0x14) ..), State.role]
  have hc : ¬(decide ((s.noteRise e false).role = .primary) && (s.noteRise e false).shadowReady) = true := by
    rw [hrole, decide_eq_false hr, Bool.false_and]
    exact Bool.false_ne_true
  have hf : (s.noteRise e false).fatal = (s.noteRise e false).enterSafetyNet := if_neg hc
  have hraise : s.raise e = (s.noteRise e false).fatal := if_pos (by rw [he, ha]; rfl)
  rw [hraise, hf, State.enterSafetyNet_on]

end

/-! ### PULSE_INPUT_EDGE (R287, R292, R466) -/

/-- R466: ACT_P with the bit of input `k` latched. -/
def actLatched (a k : Nat) : Nat := if maskBit a k then a else a + 2 ^ k

theorem maskBit_actLatched : ∀ (k : Fin 4) (a : Fin 16), maskBit (actLatched a.val k.val % 16) k.val = true := by decide

section
variable {p : Fin 4} {s : State}

theorem execPulseInputEdge_backup (h : s.pwr.power = .backup) : execPulseInputEdge p s = .next s.fresh := if_pos h

theorem execPulseInputEdge_watch (h : s.pwr.power = .watch) : execPulseInputEdge p s = .next (s.fresh.onPwr (fun w =>
    { w with aon := fput w.aon Aon.actP (actLatched (fget s.pwr.aon Aon.actP) p.val) })) := by
  have hb : ¬s.pwr.power = .backup := by rw [h]; decide
  exact (if_neg hb).trans (if_pos h)

theorem execPulseInputEdge_runs (h : s.pwr.power = .staging ∨ s.pwr.power = .active) : execPulseInputEdge p s =
    .next ((List.range 8).foldl (State.findInput p.val)
      (((s.fresh.onRef (fun e => { e with pinEdge := tset natReset e.pinEdge p.val s.now })).setCandSt (p.val + 2)
        { s.candSt (p.val + 2) with activity := true }).candUp (p.val + 2))) := by
  have hb : ¬s.pwr.power = .backup := by rintro hb; rw [hb] at h; exact h.elim nofun nofun
  have hw : ¬s.pwr.power = .watch := by rintro hw; rw [hw] at h; exact h.elim nofun nofun
  exact (if_neg hb).trans (if_neg hw)

end

end Sys2Proof.Machine
end

section
/-! PROOFS. The reference engine's steps (R272 to R281, R287, R291, R292): the obligation settled. -/

namespace Sys2Proof.Machine

open Sys2Proof

section
variable {s u : State} {m : List Measure} {ph : List Int} {cr : BitVec 32} {c : Nat}

/-- R274, R277: after the second in which the only candidate qualifies, a free-running engine that is on acquires it; one that is off corrects
nothing. -/
theorem Qualified.second (h : Qualified c s u) (hc : c < 16) (hq : ∀ n, n < 16 → n ≠ c → s.qState n ≠ 2) {t : State}
    (ht : t = (u.judgeAgree.openDisagree.evalSelect ph).evalCorr cr.toInt) : t.qState c = 2 ∧ (0xE2, locRef) ∈ t.flt.status ∧
      (fbit s.ref.eng RefEng.refEn = true → s.loopState = 0 → t.loopState = 1 ∧ t.selected = c ∧ (0xE0, locRef) ∈ t.flt.status) ∧
      (fbit s.ref.eng RefEng.refEn = false → s.loopState = 0 → t.loopState = 0 ∧ fsgn t.ref.eng RefEng.freqCorr = 0) := by
  subst ht
  have hj := u.judged
  obtain ⟨hqs, hgrows⟩ := hj.second_moves ph cr.toInt c
  have hbest : u.judgeAgree.openDisagree.bestCand = some c := (State.bestCand_of_cand hj.cand).trans (h.bestCand hc hq)
  have heng : u.judgeAgree.openDisagree.ref.eng = s.ref.eng := hj.eng.trans h.eng
  generalize u.judgeAgree.openDisagree = v at *
  have hloop := State.loopState_of_eng heng
  refine ⟨hqs.trans h.qState, hgrows h.event, fun hen hl => ?_, fun hoff hl => ?_⟩
  · rw [State.evalCorr_loopState, State.evalCorr_selected, State.evalSelect_first (heng ▸ hen) hbest (hloop.trans hl)]
    obtain ⟨hacq, hsel⟩ := v.selectFirst_loop (c := c) (phaseOf ph c) (by omega)
    exact ⟨hacq, hsel, (State.evalCorr_moves ..).grows (State.selectFirst_status ..)⟩
  · rw [State.evalCorr_loopState, State.evalSelect_off (heng ▸ hoff), State.evalCorr_free _ (hloop.trans hl), fsgn,
      fget_fputS _ _ _ (by decide)]
    exact ⟨hloop.trans hl, by decide⟩

/-- R276: after the second in which the selected candidate fails and no other is QUALIFIED, the engine holds over. -/
theorem Failed.second (h : Failed c s u) (hq : ∀ n, n < 16 → n ≠ c → s.qState n ≠ 2) {t : State}
    (ht : t = (u.judgeAgree.openDisagree.evalSelect ph).evalCorr cr.toInt) : t.qState c = 3 ∧ t.loopState = 3 ∧
      t.selected = noCand ∧ (0xE1, locRef) ∈ t.flt.status ∧ (0xE4, locRef) ∈ t.flt.status := by
  subst ht
  have hj := u.judged
  obtain ⟨hqs, hgrows⟩ := hj.second_moves ph cr.toInt c
  refine ⟨hqs.trans h.qState, ?_, ?_, hgrows h.disqualified, hgrows h.holdover⟩
  · rw [State.evalSelect_none ((State.bestCand_of_cand hj.cand).trans (h.bestCand hq)), State.evalCorr_loopState,
      State.loopState_of_eng hj.eng, h.loop]
  · rw [State.evalSelect_none ((State.bestCand_of_cand hj.cand).trans (h.bestCand hq)), State.evalCorr_selected,
      State.selected_of_eng hj.eng, h.selected]

/-- A second of an engine none of whose candidates is enabled, and that is neither free running nor past SETTLE in holdover, is the correction's. -/
theorem execRefEvaluation_corrects (hb : s.blockHeld 49 = false) (hoff : ∀ n, n < 16 → fbit (s.cand n) Cand.candEn = false)
    (h0 : s.loopState ≠ 0) (h : s.loopState ≠ 3 ∨ s.ref.settled = false) :
    ∃ v, Judges s v ∧ execRefEvaluation m ph cr s = .next (v.evalCorr cr.toInt) := by
  have hj := s.fresh.judged
  have hloop : s.fresh.judgeAgree.openDisagree.loopState = s.loopState := State.loopState_of_eng hj.eng
  have hset : s.fresh.judgeAgree.openDisagree.ref.settled = s.ref.settled := by
    obtain ⟨l, hl⟩ := hj.ref
    rw [hl]
    rfl
  refine ⟨s.fresh.judgeAgree.openDisagree, ⟨hj.ref, hj.grows, hj.pll⟩, ?_⟩
  rw [execRefEvaluation_runs hb, State.evalCands_off (s := s.fresh) hoff, State.evalSelect_stays (by rwa [hloop]) (by rwa [hloop, hset])]

/-- R273: what the loss of activity leaves of a candidate that its own detector watches. -/
theorem State.activityLost (k : Nat) (l : List Nat) (x : CandSt) (hx : x.activity = false) {t : State}
    (ht : t = l.foldl (State.loseInput k) ((s.setCandSt k x).candOut k)) :
    t.qState k = 0 ∧ (t.candSt k).activity = false ∧ (s.qState k = 2 → (0xE1, locRef) ∈ t.flt.status) ∧
      (s.qState k ≠ 0 → s.selected = k → s.loopState = 1 ∨ s.loopState = 2 → t.loopState = 3 ∧ (0xE4, locRef) ∈ t.flt.status) := by
  have hq : (s.setCandSt k x).qState k = s.qState k := State.qState_setCandSt ..
  have heng : (s.setCandSt k x).ref.eng = s.ref.eng := State.setCandSt_eng ..
  have hact : ((s.setCandSt k x).candSt k).activity = false := by rw [State.candSt_setCandSt_same, hx]
  generalize s.setCandSt k x = u at *
  obtain ⟨es, hr⟩ := State.foldl_loseInput_ref k (u.candOut k) l
  have hgrows := State.foldl_loseInput_grows k (u.candOut k) l
  rw [← ht] at hr hgrows
  refine ⟨?_, ?_, fun h2 => hgrows ?_, fun hne hsel hl => ?_⟩
  · rw [State.qState_of_cand (s := u.candOut k) k (by rw [hr]), u.candOut_qState k]
  · rw [State.candSt_of_candSt (s := u.candOut k) k (by rw [hr]), u.candOut_activity k, hact]
  · rw [State.candOut_of_ne (by rw [hq, h2]; decide)]
    exact (u.candDown_down k).disqualified (hq.trans h2)
  · rw [State.candOut_of_ne (by rwa [hq])] at hr hgrows
    obtain ⟨hloop, hev⟩ := (u.candDown_down k).lost ((State.selected_of_eng heng).trans hsel) (by rwa [State.loopState_of_eng heng])
    exact ⟨(State.loopState_of_eng (s := u.candDown k) (by rw [hr])).trans hloop, hgrows hev⟩

/-- R276: what the end of SETTLE leaves of an engine in holdover. -/
theorem State.settles (hl : s.loopState = 3) {t : State}
    (ht : t = (s.fresh.onRef (fun e => { e with settled := true })).openDisagree.evalSelect ph) : t.ref.settled = true ∧
      (∀ c, s.bestCand = some c → c < 16 → fbit s.ref.eng RefEng.refEn = true → t.selected = c ∧ t.loopState = 1 ∧
        (0xE0, locRef) ∈ t.flt.status) ∧ (s.bestCand = none → t.loopState = 3) := by
  subst ht
  have hu : (s.fresh.onRef (fun e => { e with settled := true })).ref = { s.ref with settled := true } := State.onRef_ref ..
  have hj := (s.fresh.onRef (fun e => { e with settled := true })).openDisagree_judges
  generalize s.fresh.onRef (fun e => { e with settled := true }) = u at *
  generalize u.openDisagree = v at *
  obtain ⟨l, hv⟩ := hj.ref
  rw [hu] at hv
  have hset : v.ref.settled = true := by rw [hv]
  have heng : v.ref.eng = s.ref.eng := by rw [hv]
  have hbest : v.bestCand = s.bestCand := State.bestCand_of_cand (by rw [hv])
  have hloop : v.loopState = 3 := (State.loopState_of_eng heng).trans hl
  refine ⟨(v.evalSelect_settled ph).trans hset, fun c hc hlt hen => ?_, fun hn => ?_⟩
  · rw [State.evalSelect_built (heng ▸ hen) (hbest.trans hc) hloop hset]
    obtain ⟨hacq, hsel⟩ := v.selectBuilt_loop (c := c) (phaseOf ph c) (by omega)
    exact ⟨hsel, hacq, State.selectBuilt_status ..⟩
  · rw [State.evalSelect_none (hbest.trans hn), hloop]

/-- R279: what a fault of the loop hardware leaves. -/
theorem State.pllFault {t : State} (ht : t = (s.raise0 0xE9 locRef).setEng RefEng.freqCorr 0) : (0xE9, locRef) ∈ t.flt.status ∧
    (s.role ≠ .primary → t.safetyNet = true) ∧ t.ref.eng = fput s.ref.eng RefEng.freqCorr 0 ∧ t.ref.cand = s.ref.cand ∧
    t.ref.plane = s.ref.plane := by
  have hflt : t.flt = (s.raise0 0xE9 locRef).flt := by rw [ht, State.setEng, State.onRef_flt]
  have href : t.ref = { s.ref with eng := fput s.ref.eng RefEng.freqCorr 0 } := by rw [ht, State.setEng_ref, State.raise0_ref]
  refine ⟨hflt ▸ State.raise0_status .., fun hr => ?_, by rw [href], by rw [href], by rw [href]⟩
  rw [State.safetyNet, hflt]
  exact State.raise_fatal_safetyNet (by decide) rfl hr

/-- R287, R292: what an edge at pulse input `p` leaves. -/
theorem State.inputEdge {p : Nat} {l : List Nat} {t : State} (ht : t = l.foldl (State.findInput p)
    (((s.onRef (fun e => { e with pinEdge := tset natReset e.pinEdge p s.now })).setCandSt (p + 2)
      { s.candSt (p + 2) with activity := true }).candUp (p + 2))) : tget natReset t.ref.pinEdge p = s.now ∧
    (t.candSt (p + 2)).activity = true ∧
    (fbit (s.cand (p + 2)) Cand.candEn = true → s.qState (p + 2) = 0 → t.qState (p + 2) = 1) ∧ t.pwr = s.pwr := by
  have hv : (s.onRef (fun e => { e with pinEdge := tset natReset e.pinEdge p s.now })).ref =
    { s.ref with pinEdge := tset natReset s.ref.pinEdge p s.now } := State.onRef_ref ..
  have hk : (s.onRef (fun e => { e with pinEdge := tset natReset e.pinEdge p s.now })).kept 0x10000 = s.kept 0x10000 := State.kept_onRef ..
  generalize s.onRef (fun e => { e with pinEdge := tset natReset e.pinEdge p s.now }) = v at *
  have hact : ((v.setCandSt (p + 2) { s.candSt (p + 2) with activity := true }).candSt (p + 2)).activity = true := by
    rw [State.candSt_setCandSt_same]
  have hcand (n : Nat) : (v.setCandSt (p + 2) { s.candSt (p + 2) with activity := true }).cand n = s.cand n := by
    rw [State.cand_setCandSt, State.cand_of_cand n (t := v) (s := s) (by rw [hv])]
  have hpin : (v.setCandSt (p + 2) { s.candSt (p + 2) with activity := true }).ref.pinEdge =
      tset natReset s.ref.pinEdge p s.now := by
    rw [State.setCandSt_ref, hv]
  have hk := (State.setCandSt_kept (μ := 0x10000) (p + 2) { s.candSt (p + 2) with activity := true } v).trans hk
  generalize v.setCandSt (p + 2) { s.candSt (p + 2) with activity := true } = u at *
  obtain ⟨es, hr⟩ := State.foldl_findInput_ref p (u.candUp (p + 2)) l
  obtain ⟨cand, candSt, hup⟩ := u.candUp_ref (p + 2)
  rw [← ht] at hr
  refine ⟨?_, ?_, fun hen hq => ?_, ?_⟩
  · rw [hr, hup, hpin, tget_tset_same]
  · rw [State.candSt_of_candSt (s := u.candUp (p + 2)) _ (by rw [hr]), State.candUp_activity, hact]
  · rw [State.qState_of_cand (s := u.candUp (p + 2)) _ (by rw [hr])]
    exact State.candUp_qState (by rw [hcand, hen]) (by rw [State.qState, hcand]; exact hq)
  · rw [ht]
    exact pwr_of_kept ((State.foldl_findInput_kept ..).trans ((State.candUp_kept ..).trans hk))

end

/-! ### The obligation -/

/-- Settles O50: a second of the engine is one candidate's second, after which agreement, selection and correction leave the candidates; the
other happenings are each one equation, and what follows of them moves the loop alone. -/
theorem referenceEngineTakesItsSteps : Obligations.ReferenceEngineTakesItsSteps := by
  refine ⟨fun s m ph cr h => execRefEvaluation_held h, ?qualifies, ?fails, ?locked, ?holdover, ?lost, ?keeps, ?settles,
    fun s ph h => execSettleExpiry_idle h, ?displaces, ?waits, ?locks, ?advances, fun s h => execAcquisitionStage_idle h, ?long,
    fun s h => execHoldLimitExpiry_idle h, ?weak, ?missing, ?seen, ?pll, ?edge, ?watch, fun s p h => execPulseInputEdge_backup h⟩
  case qualifies =>
    intro s m ph cr c hb hc hothers hen ha hq _ hedges hjump hrun h10 h100
    have hsecs : s.fresh.secsWith c (m.getD c ⟨false, 0, 0⟩) =
        (⟨true, (m.getD c ⟨false, 0, 0⟩).freq⟩ :: (s.candSt c).secs).take 100 := by
      have hgood : ((m.getD c ⟨false, 0, 0⟩).edges && decide ((m.getD c ⟨false, 0, 0⟩).jump ≤ fget (s.fresh.cand c) Cand.phaseHit)) =
          true := by
        rw [hedges, Bool.true_and]
        exact decide_eq_true hjump
      rw [State.secsWith, hgood]
      rfl
    have hsecond := State.evalCand_qualifies (s := s.fresh) (by omega) hen ha hq hedges hjump hrun (hsecs ▸ h10) (hsecs ▸ h100)
    have hqual := Qualified.of_second c { s.fresh.candSt c with
      secs := s.fresh.secsWith c (m.getD c ⟨false, 0, 0⟩), goodRun := (s.fresh.candSt c).goodRun + 1, qualRun := 0 } s.fresh
    have hall := State.evalCands_one (s := s.fresh) (by omega) (fun n hn hne => (hothers n hn hne).1) hsecond hqual.cand
    have hafter := hqual.second (ph := ph) (cr := cr) (by omega) (fun n hn hne => (hothers n hn hne).2) rfl
    exact ⟨_, (execRefEvaluation_runs hb).trans (by rw [hall]), hafter⟩
  case fails =>
    intro s m ph cr c hb hc hothers hen ha hq _ hsel hl hbad
    have hsecond := State.evalCand_fails (s := s.fresh) hen ha hq hbad
    have hfail := Failed.of_second (s := s.fresh) (x := { s.fresh.candSt c with
      secs := s.fresh.secsWith c (m.getD c ⟨false, 0, 0⟩), goodRun := 0, qualRun := 0 })
      (why := badReason (s.fresh.cand c) (s.fresh.secsWith c (m.getD c ⟨false, 0, 0⟩))) hsel hl
    have hall := State.evalCands_one (s := s.fresh) hc (fun n hn hne => (hothers n hn hne).1) hsecond hfail.cand
    have hafter := hfail.second (ph := ph) (cr := cr) (fun n hn hne => (hothers n hn hne).2) rfl
    exact ⟨_, (execRefEvaluation_runs hb).trans (by rw [hall]), hafter⟩
  case locked =>
    intro s m ph cr hb hoff hl hp
    obtain ⟨v, hj, hv⟩ := execRefEvaluation_corrects (m := m) (ph := ph) (cr := cr) hb hoff (by rw [hl]; decide) (.inl (by rw [hl]; decide))
    have hvl : v.loopState = 2 := (State.loopState_of_eng hj.eng).trans hl
    have hr := State.evalCorr_locked cr.toInt hvl (hj.pll hp)
    obtain ⟨l, hd⟩ := hj.ref
    refine ⟨_, hv, by rw [hr, hd], (State.evalCorr_loopState ..).trans hvl, ?_⟩
    rw [hr, fget_fputS _ _ _ (by decide)]
    exact unsgn_toInt cr
  case holdover =>
    intro s m ph cr hb hoff hl hs hp
    obtain ⟨v, hj, hv⟩ := execRefEvaluation_corrects (m := m) (ph := ph) (cr := cr) hb hoff (by rw [hl]; decide) (.inr hs)
    have hvl : v.loopState = 3 := (State.loopState_of_eng hj.eng).trans hl
    have hr := State.evalCorr_holdover cr.toInt hvl (hj.pll hp)
    obtain ⟨l, hd⟩ := hj.ref
    refine ⟨_, hv, by rw [hr, hd], (State.evalCorr_loopState ..).trans hvl, by rw [hr, hd], ?_⟩
    rw [hr, fget_fputS _ _ _ (by decide), hd]
    rfl
  case lost =>
    intro s c hc
    exact ⟨_, execActivityLoss_lost hc, State.activityLost (s := s.fresh) _ _ _ rfl rfl⟩
  case keeps =>
    intro s c h6 h14 ha
    exact ⟨_, execActivityLoss_stays h6 h14 ha, State.setCandSt_cand .., State.setCandSt_eng .., rfl⟩
  case settles =>
    intro s ph hl hs
    exact ⟨_, execSettleExpiry_settles hl hs, State.settles hl rfl⟩
  case displaces =>
    intro s c ph hrev hl hq hrank hwtr
    obtain ⟨hacq, hsel⟩ := s.fresh.selectBuilt_loop (c := c.val) ph (by omega)
    obtain ⟨b, hr⟩ := s.fresh.selectBuilt_ref c.val ph
    exact ⟨_, execWtrExpiry_displaces (State.displaces_iff.2 ⟨hrev, hl, hq, hrank, hwtr⟩), hsel, hacq, by rw [hr],
      State.selectBuilt_status ..⟩
  case waits =>
    intro s c ph h
    refine execWtrExpiry_idle (Bool.eq_false_iff.2 fun hd => ?_)
    obtain ⟨hrev, -, hq, -, hwtr⟩ := State.displaces_iff.1 hd
    rcases h with h | h | h
    · cases h.symm.trans hrev
    · exact h hq
    · omega
  case locks =>
    intro s hl hb
    refine ⟨_, execAcquisitionStage_locks hl hb, ?_, State.raise0_status .., ?_⟩
    · rw [State.loopState, State.raise0_ref, State.setEng_ref]
      exact fget_fput _ _ _ (by decide)
    · rw [State.selected, State.raise0_ref, State.setEng_ref]
      exact fget_fput_below _ _ _ _ (by decide) (by decide)
  case advances =>
    intro s hl hb
    exact ⟨_, execAcquisitionStage_advances hl hb, rfl, hl⟩
  case long =>
    intro s hl hd
    refine ⟨_, execHoldLimitExpiry_raises hl hd, ?_, State.raise0_status .., ?_⟩
    · rw [State.raise0_ref, State.onRef_ref]
    · rw [State.loopState, State.raise0_ref, State.onRef_ref]
      exact hl
  case weak =>
    intro s c d k a ha
    refine ⟨_, execAnalogSyncFrame_weak (x := ⟨d, k⟩) ha, ?_, State.candOut_qState ..⟩
    rw [State.candOut_activity, State.candSt_setCandSt_same]
    rfl
  case missing =>
    intro s c d k a ha hx hm
    refine ⟨_, execAnalogSyncFrame_missing (x := ⟨d, k⟩) ha hx hm, ?_, ?_, rfl⟩
    · rw [State.candSt_setCandSt_same]
    · rw [State.candSt_setCandSt_same]
  case seen =>
    intro s c d k a ha hx hd hr hf
    refine ⟨_, execAnalogSyncFrame_active (x := ⟨d, k⟩) ha hx hd hr hf, ?_, fun hen hq => State.candUp_qState hen hq⟩
    rw [State.candUp_activity, State.candSt_setCandSt_same]
    rfl
  case pll =>
    intro s
    exact ⟨_, rfl, State.pllFault (s := s.fresh) rfl⟩
  case edge =>
    intro s p hp
    exact ⟨_, execPulseInputEdge_runs hp, State.inputEdge (s := s.fresh) rfl⟩
  case watch =>
    intro s p hw
    refine ⟨_, execPulseInputEdge_watch hw, ?_, State.onPwr_ref ..⟩
    rw [State.onPwr_pwr, fget_fput _ _ _ (by decide)]
    exact maskBit_actLatched p ⟨fget s.pwr.aon Aon.actP, fget_lt ..⟩

end Sys2Proof.Machine
end

section
/-! PROOFS. A step on an empty queue (R271, R300, R460, R466): one nanosecond of the counter, of engine time and of the crystal. -/

namespace Sys2Proof.Machine

open Sys2Proof

section
variable {s : State}

/-- The crystal moves on, and at its own wrap the RTC: nothing else of the device. -/
theorem tickRtc_form (s : State) : ∃ (x : Nat) (f : BitVec 256 → BitVec 256), tickRtc s =
    (s.onTime (fun t => { t with xtal := x })).onPwr (fun p => { p with aon := f p.aon }) := by
  unfold tickRtc
  extract_lets x sub s1
  split
  · exact ⟨x, id, rfl⟩
  · split
    · exact ⟨_, fun a => fput a Aon.rtcSub sub, rfl⟩
    · exact ⟨_, fun a => fput (fput a Aon.rtcSub 0) Aon.rtcSec (fget a Aon.rtcSec + 1), rfl⟩

/-- Until the crystal wraps the RTC stands. -/
theorem tickRtc_between (h : s.time.xtal + 32768 < 1000000000) :
    tickRtc s = s.onTime (fun t => { t with xtal := s.time.xtal + 32768 }) := by
  unfold tickRtc
  extract_lets x sub s1
  exact if_pos h

/-- Where the crystal wraps the subseconds are one up, and RTC_SEC where they wrap too. -/
theorem tickRtc_wraps (h : 1000000000 ≤ s.time.xtal + 32768) : (tickRtc s).time.xtal = s.time.xtal + 32768 - 1000000000 ∧
    fget (tickRtc s).pwr.aon Aon.rtcSub = (fget s.pwr.aon Aon.rtcSub + 1) % 32768 ∧
    fget (tickRtc s).pwr.aon Aon.rtcSec =
      (fget s.pwr.aon Aon.rtcSec + (if fget s.pwr.aon Aon.rtcSub = 32767 then 1 else 0)) % 2 ^ 48 := by
  have hsub : fget s.pwr.aon Aon.rtcSub < 32768 := fget_lt ..
  have hsec : fget s.pwr.aon Aon.rtcSec < 2 ^ 48 := fget_lt ..
  unfold tickRtc
  extract_lets x sub s1
  have hx : s1.time.xtal = x - 1000000000 := by rw [State.onTime_time]
  have hp : s1.pwr = s.pwr := State.onTime_pwr ..
  rw [if_neg (Nat.not_lt.2 h)]
  clear_value s1
  by_cases hc : sub < 32768
  · rw [if_pos hc, if_neg (by omega), Nat.add_zero (fget _ Aon.rtcSec), Nat.mod_eq_of_lt hsec, State.onPwr_pwr, State.onPwr_time, hp]
    exact ⟨hx, fget_fput _ _ _ (by decide), fget_fput_below _ _ _ _ (by decide) (by decide)⟩
  · have heq : fget s.pwr.aon Aon.rtcSub = 32767 := by omega
    rw [if_neg hc, if_pos heq, State.onPwr_pwr, State.onPwr_time, hp]
    refine ⟨hx, ?_, fget_fput _ _ _ (by decide)⟩
    rw [fget_fput_above _ _ _ _ (by decide) (by decide), fget_fput _ _ _ (by decide), heq]
    rfl

theorem drainMgmt_emitted (s : State) : (drainMgmt s).emitted = s.emitted := by
  unfold drainMgmt
  split <;> rfl

theorem drainMgmt_time (s : State) : (drainMgmt s).time = s.time := time_of_kept (drainMgmt_kept (μ := 0x1000) s)

theorem drainMgmt_pwr (s : State) : (drainMgmt s).pwr = s.pwr := pwr_of_kept (drainMgmt_kept (μ := 0x1000) s)

/-- Only running firmware drains its management queues. -/
theorem drainMgmt_stopped (h : s.pwr.bootState ≠ .firmware) : drainMgmt s = s := if_neg h

/-- R460: the fast clocks run in STAGING and ACTIVE. -/
theorem tick_runs (h : s.pwr.power = .staging ∨ s.pwr.power = .active) : (tick s).time = { s.time with
    clk := s.time.clk + 1, engine := ((s.time.engine : Int) + 2 ^ 48 + fsgn s.ref.eng RefEng.freqCorr).toNat
    xtal := (tickRtc s.fresh).time.xtal } := by
  obtain ⟨x, f, hu⟩ := tickRtc_form s.fresh
  unfold tick
  extract_lets s1
  rw [if_pos (by simpa using h), State.onTime_time, drainMgmt_time, hu, State.onPwr_time, State.onTime_time, State.fresh_time]

/-- In the other power states the crystal alone runs. -/
theorem tick_stands (h : ¬(s.pwr.power = .staging ∨ s.pwr.power = .active)) :
    (tick s).time = { s.time with xtal := (tickRtc s.fresh).time.xtal } := by
  obtain ⟨x, f, hu⟩ := tickRtc_form s.fresh
  unfold tick
  extract_lets s1
  rw [if_neg (by simpa using h), drainMgmt_time, hu, State.onPwr_time, State.onTime_time, State.fresh_time]

/-- The crystal, base and offset move alike in every power state. -/
theorem tick_slow (s : State) : (tick s).time.xtal = (tickRtc s.fresh).time.xtal ∧ (tick s).time.base = s.time.base ∧
    (tick s).time.offset = s.time.offset := by
  by_cases h : s.pwr.power = .staging ∨ s.pwr.power = .active
  · simp only [tick_runs h, and_self]
  · simp only [tick_stands h, and_self]

theorem tick_pwr (s : State) : (tick s).pwr = (tickRtc s.fresh).pwr := by
  unfold tick
  extract_lets s1
  have h1 : s1.pwr = (tickRtc s.fresh).pwr := drainMgmt_pwr _
  split
  · rw [State.onTime_pwr, h1]
  · exact h1

theorem tick_emitted (s : State) : (tick s).emitted = [] := by
  obtain ⟨x, f, hu⟩ := tickRtc_form s.fresh
  unfold tick
  extract_lets s1
  have h1 : s1.emitted = [] := by
    unfold s1
    rw [drainMgmt_emitted, hu]
    rfl
  split
  · rw [State.onTime_emitted, h1]
  · exact h1

theorem tick_eth (h : s.pwr.bootState ≠ .firmware) : (tick s).eth = s.eth := by
  obtain ⟨x, f, hu⟩ := tickRtc_form s.fresh
  unfold tick
  extract_lets s1
  have h1 : s1.eth = s.eth := by
    unfold s1
    rw [hu, drainMgmt_stopped (by exact h), State.onPwr_eth, State.onTime_eth, State.fresh_eth]
  split
  · rw [State.onTime_eth, h1]
  · exact h1

end

/-- Settles O2: the fast clocks move in STAGING and ACTIVE alone, the crystal and the RTC in every power state, and of the other groups a
nanosecond moves the Ethernet group alone, while the firmware runs. -/
theorem emptyQueueStepIsOneNanosecond : Obligations.EmptyQueueStepIsOneNanosecond := by
  intro s hq
  have hk : (tick s).kept 0x1003 = s.kept 0x1003 := tick_kept s
  obtain ⟨hxtal, hbase, hoffset⟩ := tick_slow s
  refine ⟨tick s, by rw [step, hq], (pending_of_kept hk).trans hq, tick_emitted s, fun h => ?runs, fun h h' => ?stands, hbase, hoffset,
    fun h => ?between, fun h => ?wraps, tick_eth, ctl_of_kept hk, flt_of_kept hk, rec_of_kept hk, mem_of_kept hk, bud_of_kept hk,
    rte_of_kept hk, sdi_of_kept hk, flo_of_kept hk, cmp_of_kept hk, cal_of_kept hk, ref_of_kept hk, ptp_of_kept hk, trp_of_kept hk,
    twin_of_kept hk, upd_of_kept hk, tst_of_kept hk, free_of_kept hk⟩
  case runs =>
    rw [tick_runs h]
    exact ⟨rfl, rfl⟩
  case stands =>
    rw [tick_stands (not_or.2 ⟨h, h'⟩)]
    exact ⟨rfl, rfl⟩
  case between =>
    have hb := tickRtc_between (s := s.fresh) h
    rw [hb, State.onTime_time] at hxtal
    exact ⟨hxtal, by rw [tick_pwr, hb, State.onTime_pwr, State.fresh_pwr]⟩
  case wraps =>
    obtain ⟨hx, hrtc⟩ := tickRtc_wraps (s := s.fresh) h
    rw [tick_pwr]
    exact ⟨hxtal.trans hx, hrtc⟩

end Sys2Proof.Machine
end

section
/-! PROOFS. PTP instances (R298, R306 to R312): their records and running states, which of them the servo follows, and what each operation of
the servo leaves of an instance. -/

namespace Sys2Proof.Machine

open Sys2Proof

/-! ### LAST_OFFSET (R306) -/

/-- A clamped offset reads back from LAST_OFFSET (R306). -/
theorem fsgn_lastOffset (r : BitVec 256) (o : Int) :
    fsgn (fputS r Servo.lastOffset (clampInt (-(2 ^ 31)) (2 ^ 31 - 1) o)) Servo.lastOffset = clampInt (-(2 ^ 31)) (2 ^ 31 - 1) o := by
  have hw : Servo.lastOffset.width = 32 := rfl
  rw [fsgn, fget_fputS _ _ _ (by decide), hw]
  have hx : -2147483648 ≤ clampInt (-(2 ^ 31)) (2 ^ 31 - 1) o ∧ clampInt (-(2 ^ 31)) (2 ^ 31 - 1) o ≤ 2147483647 := by
    unfold clampInt
    omega
  generalize clampInt (-(2 ^ 31)) (2 ^ 31 - 1) o = x at hx
  unfold sgn unsgn
  norm_num
  split <;> omega

/-! ### Records and running states read alike where their parts are the same -/

section
variable {s t : State} (n : Nat)

theorem State.inst_of_inst (h : t.ptp.inst = s.ptp.inst) : t.inst n = s.inst n := by rw [State.inst, h, State.inst]

theorem State.instSt_of_instSt (h : t.ptp.instSt = s.ptp.instSt) : t.instSt n = s.instSt n := by rw [State.instSt, h, State.instSt]

theorem State.inst_candHold (b : Bool) (s : State) : (s.onPtp (fun p => { p with candHold := b })).inst n = s.inst n :=
  State.inst_of_inst n (by rw [State.onPtp_ptp])

theorem State.instSt_candHold (b : Bool) (s : State) : (s.onPtp (fun p => { p with candHold := b })).instSt n = s.instSt n :=
  State.instSt_of_instSt n (by rw [State.onPtp_ptp])

theorem State.now_of_clock (ht : t.time = s.time) (hv : t.ptp.servo = s.ptp.servo) : t.now = s.now := by
  rw [State.now, State.now32, State.rate, ht, hv, State.now, State.now32, State.rate]

end

section
variable (e : Ev) (c loc n : Nat) (s : State)

@[simp] theorem State.raise_ptp : (s.raise e).ptp = s.ptp := ptp_of_kept (State.raise_kept (μ := 0x2C0014) ..)

@[simp] theorem State.raise0_ptp : (s.raise0 c loc).ptp = s.ptp := State.raise_ptp ..

@[simp] theorem State.raiseEnd_ptp : (s.raiseEnd c loc).ptp = s.ptp := State.raise_ptp ..

@[simp] theorem State.gmChange_ptp : (s.gmChange c loc).ptp = s.ptp := State.raise_ptp ..

@[simp] theorem State.candDown_ptp : (s.candDown c).ptp = s.ptp := ptp_of_kept (State.candDown_kept (μ := 0x6D0014) ..)

@[simp] theorem State.syncCands_ptp (cs : List Nat) : (s.syncCands cs).ptp = s.ptp := ptp_of_kept (State.syncCands_kept (μ := 0x6D0014) ..)

end

/-! ### One record or running state written -/

section
variable (i n : Nat) (r : BitVec 256) (v : InstSt) (f : Fld) (x : Nat) (s : State)

theorem State.inst_setInst : (s.setInst i r).inst n = if n = i then r else s.inst n := tget_tset ..

@[simp] theorem State.inst_setInst_same : (s.setInst i r).inst i = r := tget_tset_same ..

@[simp] theorem State.instSt_setInst : (s.setInst i r).instSt n = s.instSt n := rfl

theorem State.instSt_setInstSt : (s.setInstSt i v).instSt n = if n = i then v else s.instSt n := tget_tset ..

@[simp] theorem State.instSt_setInstSt_same : (s.setInstSt i v).instSt i = v := tget_tset_same ..

@[simp] theorem State.inst_setInstSt : (s.setInstSt i v).inst n = s.inst n := rfl

theorem State.inst_instF : (s.instF i f x).inst n = if n = i then fput (s.inst i) f x else s.inst n := State.inst_setInst ..

@[simp] theorem State.inst_instF_same : (s.instF i f x).inst i = fput (s.inst i) f x := State.inst_setInst_same ..

@[simp] theorem State.instSt_instF : (s.instF i f x).instSt n = s.instSt n := rfl

@[simp] theorem State.setInstSt_servo : (s.setInstSt i v).ptp.servo = s.ptp.servo := rfl

@[simp] theorem State.instF_servo : (s.instF i f x).ptp.servo = s.ptp.servo := rfl

@[simp] theorem State.setInstSt_using : (s.setInstSt i v).ptp.using_ = s.ptp.using_ := rfl

@[simp] theorem State.instF_using : (s.instF i f x).ptp.using_ = s.ptp.using_ := rfl

theorem State.setInstSt_grows : StatusGrows s (s.setInstSt i v) := .of_kept (State.setInstSt_kept (μ := 0x20000) ..)

theorem State.instF_grows : StatusGrows s (s.instF i f x) := .of_kept (State.instF_kept (μ := 0x20000) ..)

end

/-! ### The servo's instance (R299, R306, R312) -/

/-- A running state that counts its exchanges anew. -/
def InstSt.recounting (v : InstSt) : InstSt := { v with near := 0, far := 0, beyond := 0 }

section
variable (i n : Nat) (s : State)

theorem State.reacquire_inst : (s.reacquire i).inst n = if n = i then fput (s.inst i) Inst.instState 1 else s.inst n := by
  unfold State.reacquire
  extract_lets st s1
  have h : s1.inst n = if n = i then fput (s.inst i) Inst.instState 1 else s.inst n := by
    unfold s1
    rw [State.inst_setInstSt, State.inst_instF]
  clear_value s1
  split
  · rw [State.inst_candHold, h]
  · exact h

theorem State.reacquire_instSt : (s.reacquire i).instSt n = if n = i then (s.instSt i).recounting else s.instSt n := by
  unfold State.reacquire
  extract_lets st s1
  have h : s1.instSt n = if n = i then (s.instSt i).recounting else s.instSt n := by
    unfold s1
    rw [State.instSt_setInstSt, State.instSt_instF]
    rfl
  clear_value s1
  split
  · rw [State.instSt_candHold, h]
  · exact h

theorem State.reacquire_servo : (s.reacquire i).ptp.servo = s.ptp.servo := by
  unfold State.reacquire
  extract_lets st s1
  have h : s1.ptp.servo = s.ptp.servo := (State.setInstSt_servo ..).trans (State.instF_servo ..)
  split
  · rw [State.onPtp_ptp, h]
  · exact h

theorem State.reacquire_grows : StatusGrows s (s.reacquire i) := .of_kept (State.reacquire_kept (μ := 0x20000) ..)

end

/-- What the choice of the servo's instance leaves: each instance as it was, or, usable, reacquiring; the servo's record; and what stands in
STATUS. -/
structure Chosen (s t : State) : Prop where
  inst : ∀ n, (t.inst n = s.inst n ∧ t.instSt n = s.instSt n) ∨ (instUsable (s.inst n) = true ∧
    t.inst n = fput (s.inst n) Inst.instState 1 ∧ t.instSt n = (s.instSt n).recounting)
  servo : t.ptp.servo = s.ptp.servo
  grows : StatusGrows s t

section
variable {s t : State} {i n : Nat}

theorem Chosen.of_ptp (h : t.ptp = s.ptp) (hg : StatusGrows s t) : Chosen s t where
  inst n := .inl ⟨State.inst_of_inst n (by rw [h]), State.instSt_of_instSt n (by rw [h])⟩
  servo := by rw [h]
  grows := hg

/-- An instance that is not usable stays as it is. -/
theorem Chosen.unusable (h : Chosen s t) (hu : instUsable (s.inst n) = false) : t.inst n = s.inst n ∧ t.instSt n = s.instSt n :=
  (h.inst n).resolve_right fun hr => by cases hu.symm.trans hr.1

/-- Every field of a record but its state stays. -/
theorem Chosen.field (h : Chosen s t) (n : Nat) {g : Fld} (hg : g.lo + g.width ≤ 96 ∨ 98 ≤ g.lo) :
    fget (t.inst n) g = fget (s.inst n) g := by
  rcases h.inst n with ⟨hi, -⟩ | ⟨-, hi, -⟩
  · rw [hi]
  · rw [hi, fget_fput_of_disjoint _ _ _ _ (by decide) hg]

theorem Chosen.acquiring (h : Chosen s t) (hs : fget (s.inst n) Inst.instState = 1) : fget (t.inst n) Inst.instState = 1 := by
  rcases h.inst n with ⟨hi, -⟩ | ⟨-, hi, -⟩
  · rw [hi, hs]
  · rw [hi, fget_fput _ _ _ (by decide)]
    rfl

/-- Of a running state the counts of exchanges alone may go. -/
theorem Chosen.instSt (h : Chosen s t) (n : Nat) : ∃ near far beyond,
    t.instSt n = { s.instSt n with near := near, far := far, beyond := beyond } := by
  rcases h.inst n with ⟨-, hi⟩ | ⟨-, -, hi⟩
  · exact ⟨_, _, _, hi⟩
  · exact ⟨_, _, _, hi⟩

/-- The servo taken over by an instance that is usable: it reacquires. -/
theorem Chosen.of_reacquire {u : State} (hu : instUsable (s.inst i) = true) (hi : u.ptp.inst = s.ptp.inst) (hst : u.ptp.instSt = s.ptp.instSt)
    (hv : u.ptp.servo = s.ptp.servo) (hg : StatusGrows s u) : Chosen s (u.reacquire i) where
  inst n := by
    rw [State.reacquire_inst, State.reacquire_instSt, State.inst_of_inst n hi, State.inst_of_inst i hi, State.instSt_of_instSt n hst,
      State.instSt_of_instSt i hst]
    by_cases hn : n = i
    · rw [if_pos hn, if_pos hn, hn]
      exact .inr ⟨hu, rfl, rfl⟩
    · rw [if_neg hn, if_neg hn]
      exact .inl ⟨rfl, rfl⟩
  servo := (State.reacquire_servo ..).trans hv
  grows := hg.trans (State.reacquire_grows ..)

theorem Chosen.followed {u : State} (h : Chosen s t) (hp : u.ptp = t.ptp) (hg : StatusGrows t u) : Chosen s u where
  inst n := by
    rw [State.inst_of_inst n (congrArg PtpSt.inst hp), State.instSt_of_instSt n (congrArg PtpSt.instSt hp)]
    exact h.inst n
  servo := by rw [hp, h.servo]
  grows := h.grows.trans hg

theorem State.chooseUsing_chosen (s : State) : Chosen s s.chooseUsing := by
  unfold State.chooseUsing
  extract_lets want old u s1
  refine Chosen.followed (t := s1) ?_ (State.syncCands_ptp ..) (State.syncCands_grows ..)
  unfold s1
  split
  · exact .of_ptp rfl (.refl s)
  · have hu : StatusGrows s u := .of_kept (State.kept_onPtp (m := 0x20000) ..)
    split
    · next hw =>
      have hp : (u.gmChange old (fget (s.inst want) Inst.gmId)).ptp = u.ptp := State.gmChange_ptp ..
      exact .of_reacquire hw (by rw [hp]; rfl) (by rw [hp]; rfl) (by rw [hp]; rfl) (hu.trans (State.raise_grows ..))
    · exact ⟨fun n => .inl ⟨rfl, rfl⟩, rfl, hu⟩

/-- Where the servo follows the instance it should, the choice changes nothing of PTP. -/
theorem State.chooseUsing_stays (h : s.wantUsing = s.ptp.using_) : s.chooseUsing.ptp = s.ptp := by
  unfold State.chooseUsing
  extract_lets want old u s1
  rw [State.syncCands_ptp]
  exact congrArg State.ptp (if_pos h)

/-- Without FAILOVER the servo should follow PTP_SEL. -/
theorem State.wantUsing_fixed (h : fbit s.ptp.servo Servo.failover = false) : s.wantUsing = fget s.ptp.servo Servo.ptpSel := by
  unfold State.wantUsing
  extract_lets sel
  exact if_pos (by rw [h, Bool.not_false, Bool.or_true])

/-- Where the servo follows PTP_SEL alone, the choice changes nothing of PTP. -/
theorem State.chooseUsing_fixed (hf : fbit s.ptp.servo Servo.failover = false) (hsel : fget s.ptp.servo Servo.ptpSel = s.ptp.using_) :
    s.chooseUsing.ptp = s.ptp := State.chooseUsing_stays ((State.wantUsing_fixed hf).trans hsel)

theorem State.setReason_chosen (i why : Nat) (s : State) : Chosen (s.instF i Inst.reason why) (s.setReason i why) :=
  State.chooseUsing_chosen _

theorem instUsable_off {r : BitVec 256} (h1 : fget r Inst.instState ≠ 1) (h2 : fget r Inst.instState ≠ 2) : instUsable r = false := by
  rw [instUsable, beq_false_of_ne h1, beq_false_of_ne h2, Bool.or_false, Bool.and_false, Bool.false_and]

/-- A reason given to an instance that neither acquires nor is locked changes REASON alone of it. -/
theorem State.setReason_unusable (why : Nat) (h1 : fget (s.inst i) Inst.instState ≠ 1) (h2 : fget (s.inst i) Inst.instState ≠ 2) :
    (s.setReason i why).inst i = fput (s.inst i) Inst.reason why ∧ (s.setReason i why).instSt i = s.instSt i := by
  have hu : instUsable ((s.instF i Inst.reason why).inst i) = false := by
    have hs : fget (fput (s.inst i) Inst.reason why) Inst.instState = fget (s.inst i) Inst.instState :=
      fget_fput_of_disjoint _ _ _ _ (by decide) (by decide)
    rw [State.inst_instF_same]
    exact instUsable_off (hs ▸ h1) (hs ▸ h2)
  obtain ⟨hi, hst⟩ := (State.setReason_chosen i why s).unusable hu
  exact ⟨by rw [hi, State.inst_instF_same], by rw [hst, State.instSt_instF]⟩

end

/-! ### An offset judged (R307) -/

/-- What the judgement of an offset leaves: the sync stamp and the Sync that waits of an instance, the servo's record, and what stands in
STATUS. -/
structure Judged (i : Nat) (s t : State) : Prop where
  ms : (t.instSt i).ms = (s.instSt i).ms
  pending : (t.instSt i).pending = (s.instSt i).pending
  servo : t.ptp.servo = s.ptp.servo
  grows : StatusGrows s t

section
variable {s t u : State} {i : Nat} {o : Int}

theorem Judged.refl (i : Nat) (s : State) : Judged i s s := ⟨rfl, rfl, rfl, .refl s⟩

theorem Judged.trans (h : Judged i s t) (h' : Judged i t u) : Judged i s u :=
  ⟨h'.ms.trans h.ms, h'.pending.trans h.pending, h'.servo.trans h.servo, h.grows.trans h'.grows⟩

theorem Judged.of_chosen (h : Chosen s t) : Judged i s t := by
  obtain ⟨near, far, beyond, hst⟩ := h.instSt i
  exact ⟨by rw [hst], by rw [hst], h.servo, h.grows⟩

theorem Judged.of_ptp (h : t.ptp = s.ptp) (hg : StatusGrows s t) : Judged i s t := .of_chosen (.of_ptp h hg)

theorem Judged.of_setInstSt {v : InstSt} (hm : v.ms = (s.instSt i).ms) (hp : v.pending = (s.instSt i).pending) :
    Judged i s (s.setInstSt i v) where
  ms := by rw [State.instSt_setInstSt_same, hm]
  pending := by rw [State.instSt_setInstSt_same, hp]
  servo := rfl
  grows := State.setInstSt_grows ..

theorem Judged.of_instF (f : Fld) (x : Nat) : Judged i s (s.instF i f x) := ⟨rfl, rfl, rfl, State.instF_grows ..⟩

theorem Judged.of_setReason (why : Nat) : Judged i s (s.setReason i why) :=
  (Judged.of_instF ..).trans (.of_chosen (State.setReason_chosen ..))

/-- Which instance holds the candidate back is no part of an instance or of the servo's record. -/
theorem Judged.of_candHold (b : Bool) : Judged i s (s.onPtp (fun p => { p with candHold := b })) :=
  ⟨rfl, rfl, rfl, .of_kept (State.kept_onPtp (m := 0x20000) ..)⟩

theorem State.lockRule_judged (i : Nat) (o : Int) (s : State) : Judged i s (s.lockRule i o) := by
  unfold State.lockRule
  extract_lets v th st near far s1 state s2
  have h1 : Judged i s s1 := .of_setInstSt rfl rfl
  have h2 : Judged i s1 s2 := (Judged.of_instF ..).trans (.of_ptp (State.raise0_ptp ..) (State.raise0_grows ..))
  split
  · refine (h1.trans h2).trans (.trans ?_ (.of_chosen (State.chooseUsing_chosen _)))
    split
    · exact .of_candHold false
    · exact .refl i s2
  · split
    · exact h1.trans ((Judged.of_instF ..).trans ((Judged.of_ptp (State.raiseEnd_ptp ..) (State.raise_grows ..)).trans
        (.of_chosen (State.chooseUsing_chosen _))))
    · exact h1

theorem State.timeStep_ptp (d : Int) (s : State) : (s.timeStep d).ptp = s.ptp := ptp_of_kept (State.timeStep_kept (μ := 0x6D0015) ..)

theorem State.timeStep_grows (d : Int) (s : State) : StatusGrows s (s.timeStep d) := by
  unfold State.timeStep
  extract_lets s1
  have h1 : StatusGrows s s1 := StatusGrows.trans (.of_kept (State.stepClock_kept (μ := 0x1) ..)) (State.raise_grows ..)
  split
  · exact h1
  · exact h1.trans (State.candDown_grows ..)

theorem State.stepRule_judged (i : Nat) (o : Int) (s : State) : Judged i s (s.stepRule i o) := by
  unfold State.stepRule
  extract_lets v far st mine run s1
  have h1 : Judged i s s1 := .of_setInstSt rfl rfl
  clear_value s1
  have h2 : Judged i s1 (s1.setInstSt i { s1.instSt i with beyond := 0 }) := .of_setInstSt rfl rfl
  split
  · exact h1
  · split
    · exact (h1.trans h2).trans (.of_ptp (State.timeStep_ptp ..) (State.timeStep_grows ..))
    · exact h1

theorem State.stepRule_inst (i n : Nat) (o : Int) (s : State) : (s.stepRule i o).inst n = s.inst n := by
  unfold State.stepRule
  extract_lets v far st mine run s1
  have h1 : s1.inst n = s.inst n := State.inst_setInstSt ..
  split
  · exact h1
  · split
    · rw [State.inst_of_inst n (congrArg PtpSt.inst (State.timeStep_ptp ..)), State.inst_setInstSt, h1]
    · exact h1

/-- An instance that has just locked: its record says so, the servo is as it was, and PTP_LOCKED stands in STATUS. -/
structure Locked (i : Nat) (s t : State) : Prop where
  inst : t.inst i = fput (s.inst i) Inst.instState 2
  servo : t.ptp.servo = s.ptp.servo
  following : t.ptp.using_ = s.ptp.using_
  event : (0xEA, locPtp) ∈ t.flt.status

theorem Locked.of_event (s u : State) (hi : u.inst i = s.inst i) (hv : u.ptp.servo = s.ptp.servo) (hu : u.ptp.using_ = s.ptp.using_) :
    Locked i s ((u.instF i Inst.instState 2).raise0 0xEA locPtp) where
  inst := by rw [State.inst_of_inst i (congrArg PtpSt.inst (State.raise0_ptp ..)), State.inst_instF_same, hi]
  servo := by rw [State.raise0_ptp, State.instF_servo, hv]
  following := by rw [State.raise0_ptp, State.instF_using, hu]
  event := State.raise0_status ..

theorem Locked.candHold {b : Bool} (h : Locked i s t) : Locked i s (t.onPtp (fun p => { p with candHold := b })) where
  inst := (State.inst_candHold ..).trans h.inst
  servo := (congrArg PtpSt.servo (State.onPtp_ptp ..)).trans h.servo
  following := (congrArg PtpSt.using_ (State.onPtp_ptp ..)).trans h.following
  event := by
    rw [State.onPtp_flt]
    exact h.event

/-- R307: the sixteenth offset in turn within LOCK_THRESH locks an acquiring instance. -/
theorem State.lockRule_locks (hf : fbit s.ptp.servo Servo.failover = false) (hsel : fget s.ptp.servo Servo.ptpSel = s.ptp.using_)
    (hs : fget (s.inst i) Inst.instState = 1) (hn : 15 ≤ (s.instSt i).near) (ho : o.natAbs < fget s.ptp.servo Servo.lockThresh) :
    fget ((s.lockRule i o).inst i) Inst.instState = 2 ∧ (0xEA, locPtp) ∈ (s.lockRule i o).flt.status := by
  unfold State.lockRule
  extract_lets v th st near far s1 state s2
  have hnear : near = 16 := (if_pos ho).trans (min_eq_left (Nat.succ_le_succ hn))
  have hst : state = 1 := hs
  have h2 : Locked i s s2 := .of_event s s1 (State.inst_setInstSt ..) rfl rfl
  clear_value s2
  have h3 : Locked i s (if s2.ptp.using_ = i then s2.onPtp (fun p => { p with candHold := false }) else s2) := by
    split
    · exact h2.candHold
    · exact h2
  rw [if_pos (by rw [hst, hnear]; rfl)]
  generalize (if s2.ptp.using_ = i then s2.onPtp (fun p => { p with candHold := false }) else s2) = s3 at h3
  have hp : s3.chooseUsing.ptp = s3.ptp := State.chooseUsing_fixed (by rw [h3.servo, hf]) (by rw [h3.servo, h3.following, hsel])
  rw [State.inst_of_inst i (congrArg PtpSt.inst hp), h3.inst, fget_fput _ _ _ (by decide)]
  exact ⟨rfl, s3.chooseUsing_chosen.grows h3.event⟩

end

section
variable (i : Nat) (o : Int) (num den : Nat) (s : State)

theorem State.setRate_ptp (r : Int) (s : State) : (s.setRate r).ptp = { s.ptp with servo := fputS s.ptp.servo Servo.rate r } := rfl

theorem State.instSt_meanPath (n : Nat) (mean : Int) (s : State) :
    (s.onPtp (fun p => { p with servo := fputS p.servo Servo.meanPath mean })).instSt n = s.instSt n :=
  State.instSt_of_instSt n (by rw [State.onPtp_ptp])

theorem State.inst_meanPath (n : Nat) (mean : Int) (s : State) :
    (s.onPtp (fun p => { p with servo := fputS p.servo Servo.meanPath mean })).inst n = s.inst n :=
  State.inst_of_inst n (by rw [State.onPtp_ptp])

/-- R307: LAST_OFFSET takes the offset; steering moves besides it RATE and the integrator alone. -/
theorem State.steer_ptp : ∃ servo integ, (s.steer o num den).ptp = { s.ptp with servo := servo, integ := integ } ∧
    fsgn servo Servo.lastOffset = clampInt (-(2 ^ 31)) (2 ^ 31 - 1) o ∧
    ∀ g : Fld, g.lo + g.width ≤ 128 → fget servo g = fget s.ptp.servo g := by
  unfold State.steer
  extract_lets v s1 integ rate
  have hput (g : Fld) (hg : g.lo + g.width ≤ 128) :
      fget (fputS s.ptp.servo Servo.lastOffset (clampInt (-(2 ^ 31)) (2 ^ 31 - 1) o)) g = fget s.ptp.servo g :=
    fget_fput_below _ _ _ _ (by decide) (le_trans hg (by decide))
  split
  · exact ⟨_, s.ptp.integ, State.onPtp_ptp .., fsgn_lastOffset .., hput⟩
  · refine ⟨fputS (fputS s.ptp.servo Servo.lastOffset (clampInt (-(2 ^ 31)) (2 ^ 31 - 1) o)) Servo.rate rate, integ, ?_, ?_,
      fun g hg => (fget_fput_below _ _ _ _ (by decide) hg).trans (hput g hg)⟩
    · rw [State.setRate_ptp, State.onPtp_ptp, State.onPtp_ptp]
    · rw [fsgn, fputS, fget_fput_above _ _ _ _ (by decide) (by decide)]
      exact fsgn_lastOffset ..

variable {s} in
theorem State.steer_off (h : fbit s.ptp.servo Servo.servoEn = false) : s.steer o num den = s.onPtp (fun p => { p with
    servo := fputS p.servo Servo.lastOffset (clampInt (-(2 ^ 31)) (2 ^ 31 - 1) o) }) := by
  unfold State.steer
  extract_lets v s1 integ rate
  exact if_pos (by rw [h]; rfl)

theorem State.steer_instSt : (s.steer o num den).instSt i = s.instSt i := by
  obtain ⟨servo, integ, h, -⟩ := s.steer_ptp o num den
  exact State.instSt_of_instSt i (by rw [h])

theorem State.steer_inst : (s.steer o num den).ptp.inst = s.ptp.inst := by
  obtain ⟨servo, integ, h, -⟩ := s.steer_ptp o num den
  rw [h]

end

/-! ### A complete Sync exchange (R298, R307) -/

/-- A complete exchange ends NO_SYNC. -/
def State.synced (i : Nat) (s : State) : State := if fget (s.inst i) Inst.reason = 2 then s.setReason i 0 else s

theorem judgePath_none {v : BitVec 256} {st : InstSt} (h : st.path = none) : judgePath v st = some st := by
  unfold judgePath
  rw [h]

theorem judgePath_some {v : BitVec 256} {st st' : InstSt} (h : judgePath v st = some st') : st'.ms = st.ms ∧ st'.pending = st.pending := by
  unfold judgePath at h
  split at h
  · cases h
    exact ⟨rfl, rfl⟩
  · extract_lets lim at h
    split at h
    · cases h
    · cases h
      exact ⟨rfl, rfl⟩

section
variable {i : Nat} {d o log : Int} {s : State}

@[simp] theorem State.instSt_countInst_same (i k : Nat) (s : State) : (s.countInst i k).instSt i =
    { s.instSt i with ctr := (s.instSt i).ctr.set k (satAdd 32 ((s.instSt i).ctr.getD k 0) 1) } := State.instSt_setInstSt_same ..

theorem State.synced_judged (i : Nat) (s : State) : Judged i s (s.synced i) := by
  unfold State.synced
  split
  · exact .of_setReason 0
  · exact .refl i s

/-- Where the servo follows PTP_SEL alone, the end of NO_SYNC changes REASON alone. -/
theorem State.synced_fixed (hf : fbit s.ptp.servo Servo.failover = false) (hsel : fget s.ptp.servo Servo.ptpSel = s.ptp.using_) :
    (s.synced i).ptp.servo = s.ptp.servo ∧ (s.synced i).ptp.using_ = s.ptp.using_ ∧ (s.synced i).instSt i = s.instSt i ∧
    ∀ g : Fld, g.lo + g.width ≤ 98 ∨ 101 ≤ g.lo → fget ((s.synced i).inst i) g = fget (s.inst i) g := by
  unfold State.synced
  split
  · have hp : (s.setReason i 0).ptp = (s.instF i Inst.reason 0).ptp :=
      State.chooseUsing_fixed (by rw [State.instF_servo, hf]) (by rw [State.instF_servo, hsel, State.instF_using])
    refine ⟨by rw [hp, State.instF_servo], by rw [hp, State.instF_using], ?_, fun g hg => ?_⟩
    · rw [State.instSt_of_instSt i (congrArg PtpSt.instSt hp), State.instSt_instF]
    · rw [State.inst_of_inst i (congrArg PtpSt.inst hp), State.inst_instF_same, fget_fput_of_disjoint _ _ _ _ (by decide) hg]
  · exact ⟨rfl, rfl, rfl, fun _ _ => rfl⟩

/-- The exchange is the latest of its instance, whatever comes of its path sample and its offset. -/
theorem State.exchange_latest (i : Nat) (d : Int) (soft : Bool) (log : Int) (s : State) :
    ((s.exchange i d soft log).instSt i).ms = some d ∧ ((s.exchange i d soft log).instSt i).pending = (s.instSt i).pending := by
  unfold State.exchange
  extract_lets u src st v
  have hst : st.ms = some d ∧ st.pending = (s.instSt i).pending := ⟨rfl, (s.synced_judged i).pending⟩
  have hv : v.instSt i = st := State.instSt_setInstSt_same ..
  clear_value st v
  split
  · rw [State.instSt_countInst_same, hv]
    exact hst
  · split
    · rw [State.instSt_countInst_same, State.instSt_setInstSt_same]
      exact hst
    · next st' hj =>
      obtain ⟨hm, hp⟩ := judgePath_some hj
      have hst' := And.intro (hm.trans hst.1) (hp.trans hst.2)
      split
      · rw [State.instSt_setInstSt_same]
        exact hst'
      · extract_lets mean o s1
        have hs1 : s1.instSt i = st' := State.instSt_setInstSt_same ..
        clear_value s1
        have hj (w : State) : Judged i w ((w.lockRule i o).stepRule i o) := (w.lockRule_judged i o).trans (State.stepRule_judged ..)
        rw [(hj _).ms, (hj _).pending]
        split
        · rw [State.steer_instSt, State.instSt_meanPath, hs1]
          exact hst'
        · rw [hs1]
          exact hst'

/-- What an offset that is the servo's leaves of it, before it is judged. -/
structure Steered (i : Nat) (d o : Int) (u w : State) : Prop where
  instSt : w.instSt i = { u.instSt i with ms := some d }
  inst : w.inst i = u.inst i
  following : w.ptp.using_ = u.ptp.using_
  lastOffset : fsgn w.ptp.servo Servo.lastOffset = clampInt (-(2 ^ 31)) (2 ^ 31 - 1) o
  field : ∀ g : Fld, g.lo + g.width ≤ 128 → fget w.ptp.servo g = fget u.ptp.servo g

theorem Steered.of_steer {u x : State} {num den : Nat} {mean : Int} (hst : x.instSt i = { u.instSt i with ms := some d })
    (hi : x.inst i = u.inst i) (hu : x.ptp.using_ = u.ptp.using_) (hv : x.ptp.servo = u.ptp.servo) :
    Steered i d o u ((x.onPtp (fun p => { p with servo := fputS p.servo Servo.meanPath mean })).steer o num den) := by
  obtain ⟨servo, integ, hp, hlast, hfield⟩ := (x.onPtp (fun p => { p with servo := fputS p.servo Servo.meanPath mean })).steer_ptp o num den
  refine ⟨?_, ?_, ?_, by rw [hp, hlast], fun g hg => ?_⟩
  · rw [State.steer_instSt, State.instSt_meanPath, hst]
  · rw [State.inst_of_inst i (State.steer_inst ..), State.inst_meanPath, hi]
  · rw [hp, State.onPtp_ptp, hu]
  · rw [hp, hfield g hg, State.onPtp_ptp, hv]
    exact fget_fput_below _ _ _ _ (by decide) (le_trans hg (by decide))

theorem State.exchange_steers (hp : ((s.synced i).instSt i).path = none) (hps : ((s.synced i).instSt i).paths ≠ [])
    (husing : (s.synced i).ptp.using_ = i) (hsrc : fget (s.synced i).ptp.servo Servo.servoSrc = 0)
    (ho : o = d - meanInt ((s.synced i).instSt i).paths - fsgn ((s.synced i).inst i) Inst.asym) :
    ∃ w, s.exchange i d false log = (w.lockRule i o).stepRule i o ∧ Steered i d o (s.synced i) w := by
  unfold State.exchange
  extract_lets u src st v mine
  have hj : judgePath v.ptp.servo st = some st := judgePath_none hp
  have hmine : mine = true := by
    have hu : u = s.synced i := rfl
    unfold mine v
    rw [State.setInstSt_servo, State.setInstSt_using, hu, husing, hsrc, decide_eq_true rfl]
    rfl
  have hinst : v.inst i = (s.synced i).inst i := State.inst_setInstSt ..
  rw [if_neg Bool.false_ne_true, hj]
  dsimp only
  rw [if_neg (by rw [List.isEmpty_iff]; exact hps), if_pos hmine, hinst]
  have ho' : d - meanInt st.paths - fsgn ((s.synced i).inst i) Inst.asym = o := ho.symm
  rw [ho']
  have h1 : (v.setInstSt i st).inst i = (s.synced i).inst i := (State.inst_setInstSt ..).trans hinst
  have h2 : (v.setInstSt i st).instSt i = { (s.synced i).instSt i with ms := some d } := State.instSt_setInstSt_same ..
  have h3 : (v.setInstSt i st).ptp.servo = (s.synced i).ptp.servo := (State.setInstSt_servo ..).trans (State.setInstSt_servo ..)
  have h4 : (v.setInstSt i st).ptp.using_ = (s.synced i).ptp.using_ := (State.setInstSt_using ..).trans (State.setInstSt_using ..)
  refine ⟨_, rfl, .of_steer h2 h1 h4 h3⟩

end

end Sys2Proof.Machine
end

section
/-! PROOFS. The messages of PTP instances (R297 to R299, R305, R307, R311 to R313): the choice of the parent among the leaders heard, what each
message and each timeout leaves, and the obligation settled. -/

namespace Sys2Proof.Machine

open Sys2Proof

/-! ### The best of the leaders heard (R298, R312) -/

/-- The better of two leaders, the parent before another as good. -/
def betterLeader (mine : AnnounceMsg → Bool) (b : AnnounceMsg) (e : AnnounceMsg × Nat) : AnnounceMsg :=
  if e.1.rank < b.rank || (e.1.rank == b.rank && mine e.1) then e.1 else b

section
variable {mine : AnnounceMsg → Bool} {l : List (AnnounceMsg × Nat)} {m x : AnnounceMsg}

/-- A leader better than every other of the list is the best. -/
theorem foldl_betterLeader_best (h : ∀ e ∈ l, e.1 = m ∨ m.rank < e.1.rank) : l.foldl (betterLeader mine) m = m := by
  induction l with
  | nil => rfl
  | cons e l ih =>
    have he : betterLeader mine m e = m := by
      rcases h e (.head _) with he | he
      · rw [betterLeader, he, ite_self]
      · refine if_neg ?_
        simp only [Bool.or_eq_true, Bool.and_eq_true, decide_eq_true_eq, beq_iff_eq]
        omega
    rw [List.foldl_cons, he]
    exact ih fun e he => h e (.tail _ he)

/-- The parent stays the best among leaders that are no better. -/
theorem foldl_betterLeader_stays (hx : mine x = true) (h : ∀ e ∈ l, x.rank ≤ e.1.rank) : mine (l.foldl (betterLeader mine) x) = true := by
  induction l generalizing x with
  | nil => exact hx
  | cons e l ih =>
    have he := h e (.head _)
    rw [List.foldl_cons, betterLeader]
    split
    · next hb =>
      simp only [Bool.or_eq_true, Bool.and_eq_true, decide_eq_true_eq, beq_iff_eq] at hb
      obtain ⟨heq, hm⟩ : e.1.rank = x.rank ∧ mine e.1 = true := hb.resolve_left (Nat.not_lt.2 he)
      exact ih hm fun a ha => heq ▸ h a (.tail _ ha)
    · exact ih hx fun a ha => h a (.tail _ ha)

/-- The parent that no leader of the list is better than is the best from whichever leader the choice starts. -/
theorem foldl_betterLeader_parent {b : AnnounceMsg × Nat} (hb : b ∈ l) (hm : mine b.1 = true) (hx : b.1.rank ≤ x.rank)
    (h : ∀ e ∈ l, b.1.rank ≤ e.1.rank) : mine (l.foldl (betterLeader mine) x) = true := by
  induction l generalizing x with
  | nil => cases hb
  | cons e l ih =>
    rw [List.foldl_cons]
    rcases List.mem_cons.1 hb with rfl | hl
    · have he : betterLeader mine x b = b.1 := by
        refine if_pos ?_
        simp only [Bool.or_eq_true, Bool.and_eq_true, decide_eq_true_eq, beq_iff_eq, hm, and_true]
        omega
      rw [he]
      exact foldl_betterLeader_stays hm fun a ha => h a (.tail _ ha)
    · refine ih hl ?_ fun a ha => h a (.tail _ ha)
      rw [betterLeader]
      split
      · exact h e (.head _)
      · exact hx

end

/-- Whether a leader is the parent of an instance. -/
def State.isParent (s : State) (i : Nat) (x : AnnounceMsg) : Bool := (s.instSt i).parent.any (fun p => p.port == x.source)

/-- The instance with its foreign-master list brought up to date. -/
def State.listed (i : Nat) (m : AnnounceMsg) (s : State) : State := s.setInstSt i { s.instSt i with foreign := s.foreignNow i m }

section
variable {s : State} {i : Nat} {m : AnnounceMsg}

/-- A sender better than every other live leader is taken. -/
theorem State.bestMaster_sender (h : ∀ e ∈ s.foreignNow i m, e.1.source ≠ m.source → m.rank < e.1.rank) :
    s.bestMaster i m = (s.listed i m).takeParent i m := by
  have hbest : (s.foreignNow i m).foldl (betterLeader (s.isParent i)) m = m := by
    refine foldl_betterLeader_best fun e he => ?_
    rcases List.mem_cons.1 he with rfl | hf
    · exact .inl rfl
    · refine .inr (h e he ?_)
      have hf := (List.mem_filter.1 hf).2
      simp only [Bool.and_eq_true, bne_iff_ne] at hf
      exact hf.1
  unfold State.bestMaster
  extract_lets l src s1 mine best
  have hb : best = m := hbest
  rw [hb]
  exact if_pos (by rw [decide_eq_true rfl, Bool.true_or])

/-- The parent that no live leader is better than stays. -/
theorem State.bestMaster_parent {p : Parent} {b : AnnounceMsg × Nat} (hp : (s.instSt i).parent = some p) (hm : p.port ≠ m.source)
    (hb : b ∈ s.foreignNow i m) (hs : b.1.source = p.port) (h : ∀ e ∈ s.foreignNow i m, b.1.rank ≤ e.1.rank) :
    s.bestMaster i m = s.listed i m := by
  have hmine (x : AnnounceMsg) : s.isParent i x = (p.port == x.source) := by rw [State.isParent, hp, Option.any_some]
  have hbest : s.isParent i ((s.foreignNow i m).foldl (betterLeader (s.isParent i)) m) = true :=
    foldl_betterLeader_parent hb (by rw [hmine, hs, beq_self_eq_true]) (h _ (.head _)) h
  unfold State.bestMaster
  extract_lets l src s1 mine best
  have hb : mine best = true := hbest
  have hsrc : p.port = best.source := beq_iff_eq.1 ((hmine best).symm.trans hb)
  exact if_neg (by rw [hb, ← hsrc, decide_eq_false hm]; exact Bool.false_ne_true)

end

/-! ### The parent taken (R298, R312) -/

/-- What the leader of an Announce, taken as the parent, leaves of its instance: the parent, GM_ID, the counters and the list of leaders; an instance
without a parent acquires; and another grandmaster than before is raised. -/
structure Parented (i : Nat) (m : AnnounceMsg) (s t : State) : Prop where
  instSt : ∃ firstSync near far beyond, t.instSt i = { s.instSt i with
    parent := some ⟨m.gm, m.source, m.rank, m.logInterval, 0, m.logDelayReq, m.timescale⟩
    firstSync := firstSync, near := near, far := far, beyond := beyond }
  gmId : fget (t.inst i) Inst.gmId = m.gm.toNat
  acquires : fget (s.inst i) Inst.instState = 0 ∨ fget (s.inst i) Inst.instState = 3 → fget (t.inst i) Inst.instState = 1
  raised : fget (s.inst i) Inst.instState ≠ 0 → fget (s.inst i) Inst.gmId ≠ m.gm.toNat → (0xEB, locPtp) ∈ t.flt.status

section
variable {s t u : State} {i : Nat} {m : AnnounceMsg}

theorem Parented.chosen (h : Parented i m s t) (hc : Chosen t u) : Parented i m s u where
  instSt := by
    obtain ⟨firstSync, near, far, beyond, ht⟩ := h.instSt
    obtain ⟨near', far', beyond', hu⟩ := hc.instSt i
    exact ⟨firstSync, near', far', beyond', by rw [hu, ht]⟩
  gmId := (hc.field i (by decide)).trans h.gmId
  acquires hs := hc.acquiring (h.acquires hs)
  raised hs hg := hc.grows (h.raised hs hg)

theorem Parented.reasoned (h : Parented i m s t) (why : Nat) : Parented i m s (t.setReason i why) := by
  refine Parented.chosen (t := t.instF i Inst.reason why) ⟨?_, ?_, fun hs => ?_, fun hs hg => ?_⟩ (State.setReason_chosen ..)
  · rw [State.instSt_instF]
    exact h.instSt
  · rw [State.inst_instF_same, fget_fput_of_disjoint _ _ _ _ (by decide) (by decide), h.gmId]
  · rw [State.inst_instF_same, fget_fput_of_disjoint _ _ _ _ (by decide) (by decide), h.acquires hs]
  · exact State.instF_grows _ _ _ _ (h.raised hs hg)

/-- The parent's grandmaster stands in the record, and the instance acquires. -/
theorem Parented.of_acquiring {r : BitVec 256} (hst : ∃ firstSync near far beyond, t.instSt i = { s.instSt i with
      parent := some ⟨m.gm, m.source, m.rank, m.logInterval, 0, m.logDelayReq, m.timescale⟩
      firstSync := firstSync, near := near, far := far, beyond := beyond })
    (hr : fget r Inst.gmId = m.gm.toNat) (ht : t.inst i = fput r Inst.instState 1)
    (hev : fget (s.inst i) Inst.instState ≠ 0 → fget (s.inst i) Inst.gmId ≠ m.gm.toNat → (0xEB, locPtp) ∈ t.flt.status) :
    Parented i m s t where
  instSt := hst
  gmId := by rw [ht, fget_fput_of_disjoint _ _ _ _ (by decide) (by decide), hr]
  acquires _ := by
    rw [ht, fget_fput _ _ _ (by decide)]
    rfl
  raised := hev

theorem fget_gmId (r : BitVec 256) (g : BitVec 64) (u v : Nat) :
    fget (fput (fput (fput r Inst.gmId g.toNat) Inst.utcOffset u) Inst.utcValid v) Inst.gmId = g.toNat := by
  have hw : Inst.gmId.width = 64 := rfl
  rw [fget_fput_below _ _ _ _ (by decide) (by decide), fget_fput_below _ _ _ _ (by decide) (by decide), fget_fput _ _ _ (by decide), hw]
  exact Nat.mod_eq_of_lt g.isLt

theorem State.takeParent_parented (i : Nat) (m : AnnounceMsg) (s : State) : Parented i m s (s.takeParent i m) := by
  unfold State.takeParent
  extract_lets r old p src s1 state why src1 s2
  have hst1 : s1.instSt i = { s.instSt i with parent := some p } := State.instSt_setInstSt_same ..
  have hgm1 : fget (s1.inst i) Inst.gmId = m.gm.toNat := by
    unfold s1
    rw [State.inst_setInstSt, State.inst_setInst_same, fget_gmId]
  clear_value s1
  suffices h2 : Parented i m s s2 from h2.reasoned why
  unfold s2
  split
  · have hp : (s1.gmChange old m.gm.toNat).ptp = s1.ptp := State.gmChange_ptp ..
    refine .of_acquiring (r := s1.inst i) ⟨src.firstSync, 0, 0, 0, ?_⟩ hgm1 ?_ fun _ _ =>
      State.reacquire_grows _ _ (State.raise_status ..)
    · rw [State.reacquire_instSt, if_pos rfl, State.instSt_of_instSt i (congrArg PtpSt.instSt hp), hst1]
      rfl
    · rw [State.reacquire_inst, if_pos rfl, State.inst_of_inst i (congrArg PtpSt.inst hp)]
  · next hne =>
    have hsame : state ≠ 0 → ¬old ≠ m.gm.toNat := by
      intro h0 hg
      exact hne (by rw [bne_iff_ne.2 h0, bne_iff_ne.2 hg]; rfl)
    split
    · next h0 =>
      refine .of_acquiring (r := s1.inst i) ⟨true, 0, 0, 0, ?_⟩ hgm1 ?_ fun h _ => absurd h0 h
      · rw [State.instSt_setInstSt_same]
        unfold src1
        rw [hst1]
      · rw [State.inst_setInstSt, State.inst_instF_same]
    · next h0 =>
      split
      · exact .of_acquiring (r := s1.inst i) ⟨_, _, _, _, (State.instSt_instF ..).trans hst1⟩ hgm1 (by rw [State.inst_instF_same]) fun h hg =>
          absurd hg (hsame h)
      · next h3 =>
        have hno : ¬(fget (s.inst i) Inst.instState = 0 ∨ fget (s.inst i) Inst.instState = 3) := not_or.2 ⟨h0, h3⟩
        exact ⟨⟨_, _, _, _, hst1⟩, hgm1, fun h => absurd h hno, fun h hg => absurd hg (hsame h)⟩

end

/-! ### Sync and Follow_Up (R297, R305, R307, R313) -/

section
variable {s : State} {i : Fin 4} {n : Nat}

@[simp] theorem State.fresh_inst (n : Nat) (s : State) : s.fresh.inst n = s.inst n := rfl

@[simp] theorem State.fresh_instSt (n : Nat) (s : State) : s.fresh.instSt n = s.instSt n := rfl

theorem State.fresh_instHears (n : Nat) (s : State) : s.fresh.instHears n = s.instHears n := rfl

theorem State.fresh_hears (h : s.instHears n = true) : ¬(!s.fresh.instHears n) = true := by
  rw [State.fresh_instHears, h]
  exact Bool.false_ne_true

theorem State.fresh_unheard (h : s.instHears n = false) : (!s.fresh.instHears n) = true := by
  rw [State.fresh_instHears, h]
  rfl

theorem State.instHears_of {t : State} (hp : t.ptp = s.ptp) (hw : t.pwr = s.pwr) (hl : ∀ p, (t.sub p).link = (s.sub p).link) :
    t.instHears n = s.instHears n := by
  have hi : t.inst n = s.inst n := State.inst_of_inst n (by rw [hp])
  have hf : t.fwRuns = s.fwRuns := by rw [State.fwRuns, hw, State.fwRuns]
  have hb : t.blockHeld 50 = s.blockHeld 50 := by rw [State.blockHeld, hw, State.blockHeld]
  have hs : (tget subReset t.eth.sub (instSub (t.inst n))).link = (tget subReset s.eth.sub (instSub (s.inst n))).link := by
    rw [hi]
    exact hl _
  rw [State.instHears, hs, hi, hf, hb, State.instHears]

theorem State.rxCorr_of_ptp {t : State} (hp : t.ptp = s.ptp) : t.rxCorr n = s.rxCorr n := by
  rw [State.rxCorr, State.inst_of_inst n (congrArg PtpSt.inst hp), hp, State.rxCorr]

/-- R313: an instance hears nothing while the firmware does not run. -/
theorem State.instHears_stopped (h : s.fwRuns = false) : s.instHears n = false := by
  rw [State.instHears, h, Bool.and_false, Bool.false_and]

@[simp] theorem State.softStamp_taken (port : Nat) (s : State) : s.softStamp port false = s := by
  unfold State.softStamp
  exact if_neg (by rw [Bool.false_and]; exact Bool.false_ne_true)

theorem State.keepStamp_running (h : s.fwRuns = true) : s.keepStamp n = s := by
  unfold State.keepStamp
  exact if_pos (by rw [h, Bool.or_true])

/-- R305: a stamp waits in its port's FIFO. -/
theorem State.keepStamp_waits (h : s.fwRuns = false) (hen : fbit (s.inst n) Inst.instEn = true)
    (hn : tget natReset s.ptp.fifo (fget (s.inst n) Inst.port) < 64) : s.keepStamp n = s.onPtp (fun p => { p with
      fifo := tset natReset p.fifo (fget (s.inst n) Inst.port) (tget natReset s.ptp.fifo (fget (s.inst n) Inst.port) + 1) }) := by
  unfold State.keepStamp
  extract_lets port k
  rw [if_neg (by rw [h, hen]; exact Bool.false_ne_true), if_pos hn]

/-- The Sync that waits for its Follow_Up. -/
def State.twoStep (s : State) (i : Nat) (m : SyncMsg) : TwoStep := ⟨m.seq, (s.now : Int) - (s.rxCorr i).1, false, m.corr, m.logInterval⟩

variable {m : SyncMsg}

theorem execSync_unheard (h : s.instHears i.val = false) : execSync i m s = .next (s.fresh.keepStamp i.val) := by
  unfold execSync
  extract_lets k u s1 t2
  exact if_pos (State.fresh_unheard h)

theorem execSync_interval (h : s.instHears i.val = true) (hl : syncLogOk (fget (s.inst i.val) Inst.profile) m.logInterval = false) :
    execSync i m s = .next (s.fresh.countInst i.val 6) := by
  unfold execSync
  extract_lets k u s1 t2
  rw [if_neg (State.fresh_hears h)]
  exact if_pos (by rw [State.fresh_inst, hl]; rfl)

/-- The instance with no Sync that waits for its Follow_Up. -/
def State.unpended (k : Nat) (u : State) : State := u.setInstSt k { u.instSt k with pending := none }

theorem State.instSt_unpended (k : Nat) (u : State) : (u.unpended k).instSt k = { u.instSt k with pending := none } := State.instSt_setInstSt_same ..

/-- What comes of a Sync that is counted: without a parent nothing, else it waits for its Follow_Up or completes an exchange. -/
def State.syncCounted (k : Nat) (m : SyncMsg) (u : State) : State :=
  if (u.instSt k).parent.isNone then u
  else if m.twoStep then u.setInstSt k { u.instSt k with pending := some (u.twoStep k m) }
  else (u.unpended k).exchange k ((u.now : Int) - (u.rxCorr k).1 - m.t1 - m.corr) false m.logInterval

theorem execSync_heard (h : s.instHears i.val = true) (hl : syncLogOk (fget (s.inst i.val) Inst.profile) m.logInterval = true)
    (hm : m.soft = false) : execSync i m s = .next ((s.fresh.countInst i.val 0).syncCounted i.val m) := by
  unfold execSync
  extract_lets k u s1 t2
  have hs1 : s1 = s.fresh.countInst i.val 0 := by
    unfold s1
    rw [hm, State.softStamp_taken]
  rw [if_neg (State.fresh_hears h), if_neg (by rw [State.fresh_inst, hl]; exact Bool.false_ne_true), hm,
    ← hs1]
  unfold State.syncCounted
  split
  · rfl
  · split <;> rfl

end

section
variable {u : State} {k : Nat} {m : SyncMsg} {p : Parent}

theorem State.syncCounted_noParent (hp : (u.instSt k).parent = none) : u.syncCounted k m = u := if_pos (by rw [hp]; rfl)

theorem State.syncCounted_waits (hp : (u.instSt k).parent = some p) (ht : m.twoStep = true) :
    u.syncCounted k m = u.setInstSt k { u.instSt k with pending := some (u.twoStep k m) } := by
  unfold State.syncCounted
  rw [if_neg (by rw [hp]; exact Bool.false_ne_true), if_pos ht]

theorem State.syncCounted_completes (hp : (u.instSt k).parent = some p) (ht : m.twoStep = false) : u.syncCounted k m =
    (u.unpended k).exchange k ((u.now : Int) - (u.rxCorr k).1 - m.t1 - m.corr) false m.logInterval := by
  unfold State.syncCounted
  rw [if_neg (by rw [hp]; exact Bool.false_ne_true), if_neg (by rw [ht]; exact Bool.false_ne_true)]

end

/-- R306, R307: an exchange of the instance that the servo follows, under PTP_SEL alone, gives LAST_OFFSET its offset and locks the instance at its
sixteenth within LOCK_THRESH. -/
theorem State.exchange_offsets {s : State} {i : Nat} {d o log : Int} (hp : (s.instSt i).path = none) (hps : (s.instSt i).paths ≠ [])
    (husing : s.ptp.using_ = i) (hsrc : fget s.ptp.servo Servo.servoSrc = 0) (hsel : fget s.ptp.servo Servo.ptpSel = i)
    (hf : fbit s.ptp.servo Servo.failover = false) (ho : o = d - meanInt (s.instSt i).paths - fsgn (s.inst i) Inst.asym) :
    fsgn (s.exchange i d false log).ptp.servo Servo.lastOffset = clampInt (-(2 ^ 31)) (2 ^ 31 - 1) o ∧
    (fget (s.inst i) Inst.instState = 1 → 15 ≤ (s.instSt i).near → o.natAbs < fget s.ptp.servo Servo.lockThresh →
      fget ((s.exchange i d false log).inst i) Inst.instState = 2 ∧ (0xEA, locPtp) ∈ (s.exchange i d false log).flt.status) := by
  obtain ⟨hv, hu, hst, hfield⟩ := s.synced_fixed (i := i) hf (hsel.trans husing.symm)
  obtain ⟨w, he, hw⟩ := s.exchange_steers (i := i) (d := d) (o := o) (log := log) (by rw [hst, hp]) (by rw [hst]; exact hps)
    (by rw [hu, husing]) (by rw [hv, hsrc]) (by rw [ho, hst, fsgn, fsgn, hfield _ (by decide)])
  have hservo (g : Fld) (hg : g.lo + g.width ≤ 128) : fget w.ptp.servo g = fget s.ptp.servo g := (hw.field g hg).trans (by rw [hv])
  have hj := (w.lockRule_judged i o).trans (State.stepRule_judged i o _)
  rw [he]
  refine ⟨by rw [hj.servo, hw.lastOffset], fun hs hn hlt => ?_⟩
  obtain ⟨hlock, hev⟩ := w.lockRule_locks (i := i) (o := o) (by rw [fbit, hservo _ (by decide)]; exact hf)
    (by rw [hservo _ (by decide), hw.following, hu, hsel, husing]) (by rw [hw.inst, hfield _ (by decide), hs]) (by rw [hw.instSt, hst]; exact hn)
    (by rw [hservo _ (by decide)]; exact hlt)
  exact ⟨by rw [State.stepRule_inst, hlock], (State.stepRule_judged i o _).grows hev⟩

section
variable {s : State} {i : Fin 4} {seq : BitVec 16} {t1 c : Int}

theorem execFollowUp_completes {p : TwoStep} (h : s.instHears i.val = true) (hp : (s.instSt i.val).pending = some p) (hq : p.seq = seq) :
    execFollowUp i seq t1 c s = .next ((s.fresh.unpended i.val).exchange i.val (p.t2 - t1 - p.correction - c) p.soft p.log) := by
  unfold execFollowUp
  extract_lets k u
  rw [if_neg (State.fresh_hears h), State.fresh_instSt, hp]
  exact if_pos hq

theorem execFollowUp_idle (h : s.instHears i.val = false ∨ (s.instSt i.val).pending = none ∨
    (∃ p, (s.instSt i.val).pending = some p ∧ p.seq ≠ seq)) : execFollowUp i seq t1 c s = .next s.fresh := by
  unfold execFollowUp
  extract_lets k u
  rw [State.fresh_instHears]
  cases hh : s.instHears i.val with
  | false => rfl
  | true =>
    rw [Bool.not_true, if_neg Bool.false_ne_true, State.fresh_instSt]
    rcases h with h | h | ⟨p, hp, hq⟩
    · cases hh.symm.trans h
    · rw [h]
      rfl
    · rw [hp]
      exact if_neg hq

end

/-! ### Announce (R297, R298, R312) -/

section
variable {s : State} {i : Fin 4} {m : AnnounceMsg}

theorem execAnnounce_interval (h : s.instHears i.val = true) (hl : annLogOk (fget (s.inst i.val) Inst.profile) m.logInterval = false) :
    execAnnounce i m s = .next (s.fresh.countInst i.val 6) := by
  unfold execAnnounce
  extract_lets k u
  rw [if_neg (State.fresh_hears h)]
  exact if_pos (by rw [State.fresh_inst, hl]; rfl)

theorem execAnnounce_heard (h : s.instHears i.val = true) (hl : annLogOk (fget (s.inst i.val) Inst.profile) m.logInterval = true) :
    execAnnounce i m s = .next ((s.fresh.countInst i.val 1).bestMaster i.val m) := by
  unfold execAnnounce
  extract_lets k u
  rw [if_neg (State.fresh_hears h)]
  exact if_neg (by rw [State.fresh_inst, hl]; exact Bool.false_ne_true)

theorem execAnnounce_unheard (h : s.instHears i.val = false) : execAnnounce i m s = .next s.fresh := by
  unfold execAnnounce
  extract_lets k u
  exact if_pos (State.fresh_unheard h)

/-- Counting a message is no part of the list of leaders. -/
theorem State.foreignNow_countInst (k c : Nat) (s : State) : (s.countInst k c).foreignNow k m = s.foreignNow k m := by
  have hf : ((s.countInst k c).instSt k).foreign = (s.instSt k).foreign := by rw [State.instSt_countInst_same]
  unfold State.foreignNow
  rw [hf]
  rfl

end

/-! ### Delay requests and their answers (R169, R295, R298, R305, R307) -/

section
variable {s : State} {n : Nat}

/-- The sub-port of an instance that hears is UP. -/
theorem State.instHears_up (h : s.instHears n = true) : (s.sub (instSub (s.inst n))).link = .up := by
  rw [State.instHears] at h
  simp only [Bool.and_eq_true, beq_iff_eq] at h
  exact h.1.1.2

theorem State.mgmtQueue_ptp (p : Nat) (x : MgmtTx) (s : State) : (s.mgmtQueue p x).ptp = s.ptp :=
  ptp_of_kept (State.mgmtQueue_kept (μ := 0x1000) ..)

theorem State.mgmtQueue_emitted (p : Nat) (x : MgmtTx) (s : State) : (s.mgmtQueue p x).emitted = s.emitted := by
  unfold State.mgmtQueue
  extract_lets v
  split <;> rfl

/-- A frame queued on a sub-port that is UP waits behind the others. -/
theorem State.mgmtQueue_txq {p : Nat} {x : MgmtTx} (h : (s.sub p).link = .up) :
    ((s.mgmtQueue p x).sub p).txq = (s.sub p).txq ++ [x] ∧ ((s.mgmtQueue p x).sub p).link = .up := by
  rw [State.mgmtQueue_sub, if_pos h]
  exact ⟨rfl, h⟩

variable {i : Fin 4}

theorem execDelayReq_sends {b : Bool} (h : s.instHears i.val = true)
    (hr : (s.instSt i.val).parent = none → fbit (s.inst i.val) Inst.delayMech = true ∧ fget (s.inst i.val) Inst.delayReqLog ≠ 127) :
    execDelayReq i b s = .next ((s.fresh.setInstSt i.val { s.instSt i.val with reqSeq := (s.instSt i.val).reqSeq + 1 }).mgmtQueue
      (instSub (s.inst i.val)) (.ptp i.val (if fbit (s.inst i.val) Inst.delayMech then 2 else 1) (s.instSt i.val).reqSeq b)) := by
  unfold execDelayReq
  extract_lets k u peer st kind
  refine if_neg ?_
  rw [State.fresh_instHears, h, State.fresh_instSt]
  cases hp : (s.instSt i.val).parent with
  | some p => exact Bool.false_ne_true
  | none =>
    obtain ⟨hm, hlog⟩ := hr hp
    have hpeer : peer = true := hm
    rw [hpeer, State.fresh_inst, bne_iff_ne.2 hlog]
    exact Bool.false_ne_true

theorem execDelayReq_idle {b : Bool} (h : s.instHears i.val = false ∨ ((s.instSt i.val).parent = none ∧
    (fbit (s.inst i.val) Inst.delayMech = false ∨ fget (s.inst i.val) Inst.delayReqLog = 127))) : execDelayReq i b s = .next s.fresh := by
  unfold execDelayReq
  extract_lets k u peer st kind
  refine if_pos ?_
  rw [State.fresh_instHears, State.fresh_instSt, State.fresh_inst]
  rcases h with h | ⟨hp, hm | hlog⟩
  · rw [h]
    rfl
  · have hpeer : peer = false := hm
    rw [hp, hpeer]
    exact Bool.or_true _
  · rw [hp, hlog, bne_self_eq_false, Bool.and_false]
    exact Bool.or_true _

/-- R169: a request that leaves is counted and stamped. -/
theorem State.ptpLeave_request {kind : Nat} {seq : BitVec 16} (h : s.instHears n = true) (hk : kind < 3) :
    s.ptpLeave n kind seq false = (s.countInst n 3).setInstSt n { (s.countInst n 3).instSt n with
      delay := some ⟨seq, (s.now : Int) + (s.rxCorr n).2, 0, 0, 0, false, false⟩ } := by
  unfold State.ptpLeave
  rw [if_neg (by rw [h, decide_eq_false (Nat.not_le.2 hk)]; exact Bool.false_ne_true)]
  extract_lets s1
  have h1 : s1 = s.countInst n 3 := State.softStamp_taken ..
  rw [← h1]
  rfl

theorem State.ptpLeave_answer {kind : Nat} {seq : BitVec 16} {b : Bool} (hk : ¬kind < 3) : s.ptpLeave n kind seq b = s :=
  if_pos (by rw [decide_eq_true (Nat.not_lt.1 hk), Bool.true_or])

/-- What a PTP message whose stamp is taken makes of its instance as it leaves. -/
theorem State.mgmtLeave_ptp {p kind : Nat} {seq : BitVec 16} (h : s.instHears n = true) :
    (s.mgmtLeave p (.ptp n kind seq false)).instSt n = if kind < 3 then { s.instSt n with
      ctr := (s.instSt n).ctr.set 3 (satAdd 32 ((s.instSt n).ctr.getD 3 0) 1)
      delay := some ⟨seq, (s.now : Int) + (s.rxCorr n).2, 0, 0, 0, false, false⟩ } else s.instSt n := by
  have hleave (u : State) (hp : u.ptp = s.ptp) (hk : u.kept 0x1000 = s.kept 0x1000) (hl : ∀ q, (u.sub q).link = (s.sub q).link) :
      (u.ptpLeave n kind seq false).instSt n = if kind < 3 then { s.instSt n with
        ctr := (s.instSt n).ctr.set 3 (satAdd 32 ((s.instSt n).ctr.getD 3 0) 1)
        delay := some ⟨seq, (s.now : Int) + (s.rxCorr n).2, 0, 0, 0, false, false⟩ } else s.instSt n := by
    have hst : u.instSt n = s.instSt n := State.instSt_of_instSt n (by rw [hp])
    split
    · next hlt =>
      rw [State.ptpLeave_request ((State.instHears_of hp (pwr_of_kept hk) hl).trans h) hlt, State.instSt_setInstSt_same,
        State.instSt_countInst_same, hst, State.rxCorr_of_ptp hp, State.now_of_clock (time_of_kept hk) (by rw [hp])]
    · next hge => rw [State.ptpLeave_answer hge, hst]
  have hk : (s.mgmtCount p (s.mgmtTag p none) (ptpBytes (s.inst n) kind)).kept 0x1000 = s.kept 0x1000 := State.mgmtCount_kept ..
  exact hleave _ (ptp_of_kept hk) hk fun _ => rfl

/-- R169: the message at the front of a sub-port's queue leaves. -/
theorem execMgmtFrameSend_ptp {p : Fin 32} {kind : Nat} {seq : BitVec 16} {rest : List MgmtTx}
    (hq : (s.sub p.val).txq = .ptp n kind seq false :: rest) (hup : s.subUp p.val = true) (hh : (s.sub p.val).mgmtHold.on s.time.clk = false) :
    execMgmtFrameSend p s =
      .next ((s.fresh.setSub p.val { s.sub p.val with txq := rest }).mgmtLeave p.val (.ptp n kind seq false)) := by
  unfold execMgmtFrameSend
  extract_lets k u v
  have hv : v.txq = .ptp n kind seq false :: rest := hq
  have hup' : u.subUp k = true := hup
  have hh' : v.mgmtHold.on u.time.clk = false := hh
  rw [if_neg (by rw [hup', hh']; exact Bool.false_ne_true), hv]
  rfl

/-- A frame that leaves its queue is no part of what an instance hears. -/
theorem State.instHears_dequeued (p : Nat) (rest : List MgmtTx) (s : State) :
    (s.fresh.setSub p { s.sub p with txq := rest }).instHears n = s.instHears n := by
  have hk : (s.fresh.setSub p { s.sub p with txq := rest }).kept 0x1000 = s.kept 0x1000 := (State.setSub_kept ..).trans (State.kept_fresh s)
  refine State.instHears_of (ptp_of_kept hk) (pwr_of_kept hk) fun q => ?_
  rw [State.sub_setSub]
  split
  · next hqp => rw [hqp]
  · rfl

end

section
variable {s : State} {i : Fin 4} {seq : BitVec 16} {t2 t3 t4 c : Int} {d : DelayRun}

/-- A path-delay sample of stamps that were all taken. -/
theorem State.pathSample_instSt (k : Nat) (x : Int) (s : State) :
    (s.pathSample k x false).instSt k = { s.instSt k with delay := none, path := some x } := by
  unfold State.pathSample
  extract_lets src s1 src1
  have h1 : s1.instSt k = { s.instSt k with delay := none } := State.instSt_setInstSt_same ..
  rw [if_neg Bool.false_ne_true, State.instSt_setInstSt_same]
  unfold src1
  rw [h1]

theorem execDelayResp_samples {ms : Int} (h : s.instHears i.val = true) (hd : (s.instSt i.val).delay = some d)
    (hms : (s.instSt i.val).ms = some ms) (hq : d.seq = seq) (hs : d.soft = false) (hm : fbit (s.inst i.val) Inst.delayMech = false) :
    execDelayResp i seq t4 c s = .next ((s.fresh.countInst i.val 2).pathSample i.val ((ms + (t4 - d.sent - c)).fdiv 2) false) := by
  unfold execDelayResp
  extract_lets k u s1
  have hst : s1.instSt k = _ := State.instSt_countInst_same ..
  have hd1 : (s1.instSt k).delay = some d := by rw [hst]; exact hd
  have hms1 : (s1.instSt k).ms = some ms := by rw [hst]; exact hms
  have hm1 : fbit (s1.inst k) Inst.delayMech = false := hm
  rw [if_neg (State.fresh_hears h), hd1, hms1, ← hs]
  exact if_pos (by rw [hq, decide_eq_true rfl, hm1]; rfl)

theorem execDelayResp_unasked (h : s.instHears i.val = true) (hd : (s.instSt i.val).delay = none) :
    execDelayResp i seq t4 c s = .next (s.fresh.countInst i.val 2) := by
  unfold execDelayResp
  extract_lets k u s1
  have hst : s1.instSt k = _ := State.instSt_countInst_same ..
  have hd1 : (s1.instSt k).delay = none := by rw [hst]; exact hd
  rw [if_neg (State.fresh_hears h), hd1]
  rfl

theorem execDelayResp_unheard (h : s.instHears i.val = false) : execDelayResp i seq t4 c s = .next s.fresh := by
  unfold execDelayResp
  extract_lets k u s1
  exact if_pos (State.fresh_unheard h)

theorem execPdelayReq_answers (h : s.instHears i.val = true) (hm : fbit (s.inst i.val) Inst.delayMech = true) :
    execPdelayReq i seq false s = .next ((s.fresh.mgmtQueue (instSub (s.inst i.val)) (.ptp i.val 3 seq false)).mgmtQueue
      (instSub (s.inst i.val)) (.ptp i.val 4 seq false)) := by
  unfold execPdelayReq
  extract_lets k u p
  rw [if_neg (State.fresh_hears h), if_neg (by rw [State.fresh_inst, hm]; exact Bool.false_ne_true),
    State.softStamp_taken]
  rfl

theorem execPdelayReq_idle {b : Bool} (h : s.instHears i.val = true) (hm : fbit (s.inst i.val) Inst.delayMech = false) :
    execPdelayReq i seq b s = .next s.fresh := by
  unfold execPdelayReq
  extract_lets k u p
  rw [if_neg (State.fresh_hears h)]
  exact if_pos (by rw [State.fresh_inst, hm]; rfl)

theorem execPdelayResp_taken (h : s.instHears i.val = true) (hd : (s.instSt i.val).delay = some d) (hq : d.seq = seq)
    (hm : fbit (s.inst i.val) Inst.delayMech = true) : execPdelayResp i seq t2 c false s = .next (s.fresh.setInstSt i.val { s.instSt i.val with
      delay := some { d with t2 := t2, t4 := (s.now : Int) - (s.rxCorr i.val).1, corr := c, answered := true } }) := by
  unfold execPdelayResp
  extract_lets k u s1
  have h1 : s1 = s.fresh := State.softStamp_taken ..
  rw [if_neg (State.fresh_hears h)]
  have hd1 : (s1.instSt k).delay = some d := by rw [h1]; exact hd
  have hm1 : fbit (s1.inst k) Inst.delayMech = true := by rw [h1]; exact hm
  rw [hd1]
  refine (if_pos (by rw [hq, decide_eq_true rfl, hm1]; rfl)).trans ?_
  rw [h1, Bool.or_false]
  rfl

theorem execPdelayResp_unheard {b : Bool} (h : s.instHears i.val = false) : execPdelayResp i seq t2 c b s = .next s.fresh := by
  unfold execPdelayResp
  extract_lets k u s1
  exact if_pos (State.fresh_unheard h)

theorem execPdelayRespFollowUp_samples (h : s.instHears i.val = true) (hd : (s.instSt i.val).delay = some d) (hq : d.seq = seq)
    (ha : d.answered = true) (hs : d.soft = false) : execPdelayRespFollowUp i seq t3 c s =
      .next (s.fresh.pathSample i.val ((d.t4 - d.sent - (t3 - d.t2) - d.corr - c).fdiv 2) false) := by
  unfold execPdelayRespFollowUp
  extract_lets k u
  rw [if_neg (State.fresh_hears h), State.fresh_instSt, hd, ← hs]
  exact if_pos (by rw [hq, ha, decide_eq_true rfl]; rfl)

theorem execPdelayRespFollowUp_unheard (h : s.instHears i.val = false) : execPdelayRespFollowUp i seq t3 c s = .next s.fresh := by
  unfold execPdelayRespFollowUp
  extract_lets k u
  exact if_pos (State.fresh_unheard h)

theorem execPtpManagementMessage_counts (h : s.instHears i.val = true) : execPtpManagementMessage i s = .next (s.fresh.setInstSt i.val
    { s.instSt i.val with ignored := satAdd 32 (s.instSt i.val).ignored 1 }) := by
  unfold execPtpManagementMessage
  extract_lets k u
  exact if_neg (State.fresh_hears h)

theorem execPtpManagementMessage_unheard (h : s.instHears i.val = false) : execPtpManagementMessage i s = .next s.fresh := by
  unfold execPtpManagementMessage
  extract_lets k u
  exact if_pos (State.fresh_unheard h)

end

/-! ### Timeouts (R311) -/

section
variable {s : State} {i why : Nat}

/-- An instance that has lost its parent: LOST with the reason, and PTP_LOST raised. -/
structure Parentless (i why : Nat) (t : State) : Prop where
  state : fget (t.inst i) Inst.instState = 3
  reason : fget (t.inst i) Inst.reason = why
  parent : (t.instSt i).parent = none
  event : (0xEC, locPtp) ∈ t.flt.status

/-- R311: the rate held is no part of an instance. -/
theorem State.holdRate_rest (s : State) : s.holdRate.ptp.inst = s.ptp.inst ∧ s.holdRate.ptp.instSt = s.ptp.instSt ∧ s.holdRate.flt = s.flt := by
  unfold State.holdRate
  split
  · rw [State.setRate_ptp]
    exact ⟨rfl, rfl, flt_of_kept (State.setRate_kept (μ := 0x20001) ..)⟩
  · exact ⟨rfl, rfl, rfl⟩

theorem Parentless.of_lost {u : State} (hi : fget (u.inst i) Inst.instState = 3) (hst : (u.instSt i).parent = none)
    (hev : (0xEC, locPtp) ∈ u.flt.status) (hw : why < 8) : Parentless i why (u.setReason i why) := by
  obtain ⟨hti, htst⟩ := u.setReason_unusable (i := i) why (by omega) (by omega)
  refine ⟨?_, ?_, by rw [htst, hst], (State.setReason_chosen i why u).grows (State.instF_grows _ _ _ _ hev)⟩
  · rw [hti, fget_fput_of_disjoint _ _ _ _ (by decide) (by decide), hi]
  · have hwidth : Inst.reason.width = 3 := rfl
    rw [hti, fget_fput _ _ _ (by decide), hwidth]
    exact Nat.mod_eq_of_lt hw

theorem State.loseParent_loses (hen : fbit (s.inst i) Inst.instEn = true) (hf : s.fwRuns = true)
    (hs : fget (s.inst i) Inst.instState = 1 ∨ fget (s.inst i) Inst.instState = 2) (hw : why < 8) : Parentless i why (s.loseParent i why) := by
  have hne : fget (s.inst i) Inst.instState ≠ 0 ∧ fget (s.inst i) Inst.instState ≠ 3 := by omega
  unfold State.loseParent
  extract_lets state src s1 s2
  have hi : fget (s1.inst i) Inst.instState = 3 := by
    unfold s1
    rw [State.inst_of_inst i (congrArg PtpSt.inst (State.raise0_ptp ..)), State.inst_setInstSt, State.inst_instF_same,
      fget_fput _ _ _ (by decide)]
    rfl
  have hst : (s1.instSt i).parent = none := by
    unfold s1
    rw [State.instSt_of_instSt i (congrArg PtpSt.instSt (State.raise0_ptp ..)), State.instSt_setInstSt_same]
  have hev : (0xEC, locPtp) ∈ s1.flt.status := State.raise0_status ..
  rw [if_neg (by rw [hen, hf, decide_eq_false hne.1, decide_eq_false hne.2]; exact Bool.false_ne_true)]
  clear_value s1
  unfold s2
  split
  · obtain ⟨hinst, hinstSt, hflt⟩ := s1.holdRate_rest
    exact .of_lost (by rw [State.inst_of_inst i hinst, hi]) (by rw [State.instSt_of_instSt i hinstSt, hst]) (by rw [hflt]; exact hev) hw
  · exact .of_lost hi hst hev hw

theorem State.loseParent_idle (h : fbit (s.inst i) Inst.instEn = false ∨ s.fwRuns = false ∨ fget (s.inst i) Inst.instState = 0 ∨
    fget (s.inst i) Inst.instState = 3) : s.loseParent i why = s := by
  unfold State.loseParent
  extract_lets state s1 s2
  refine if_pos ?_
  rcases h with h | h | h | h
  · rw [h]
    rfl
  · rw [h, Bool.not_false, Bool.or_true]
    rfl
  · rw [decide_eq_true (show state = 0 from h), Bool.or_true]
    rfl
  · rw [decide_eq_true (show state = 3 from h), Bool.or_true]

end

/-- Settles O52: a message unheard changes nothing, but for a stamp kept while the firmware does not run; a Sync waits, or completes an exchange that
gives the servo its offset and locks the instance; the best of the leaders heard is the parent; requests and answers are queued and give the path;
and a timeout loses the parent. -/
theorem ptpInstancesTakeTheirMessages : Obligations.PtpInstancesTakeTheirMessages := by
  unfold Obligations.PtpInstancesTakeTheirMessages
  intro bump
  refine ⟨?syncUnheard, ?stampKept, ?syncInterval, ?syncNoParent, ?twoStep, ?oneStep, ?followUp, ?followUpIdle, fun s i => rfl, ?announceInterval,
    ?announceTaken, ?parentStays, ?delayResp, ?delayRespUnasked, ?delayReq, ?delayReqPeer, ?delayReqIdle, ?mgmtFrameSend, ?pdelayReq, ?pdelayReqIdle,
    ?pdelayResp, ?pdelayRespFollowUp, ?management, ?unheard, ?timeouts, ?timeoutsIdle⟩
  case syncUnheard =>
    intro s i m h hf
    exact (execSync_unheard h).trans (congrArg Host.Outcome.next (State.keepStamp_running hf))
  case stampKept =>
    intro s i m hf hen hn
    refine ⟨_, (execSync_unheard (State.instHears_stopped hf)).trans (congrArg Host.Outcome.next (State.keepStamp_waits hf hen hn)), ?_, ?_⟩
    · rw [State.onPtp_ptp]
      dsimp only
      rw [State.fresh_inst, tget_tset_same]
      rfl
    · rw [State.onPtp_ptp]
      rfl
  case syncInterval => exact fun s i m h hl => execSync_interval h hl
  case syncNoParent =>
    intro s i m h hl hm hp
    refine (execSync_heard h hl hm).trans (congrArg Host.Outcome.next (State.syncCounted_noParent ?_))
    rw [State.instSt_countInst_same]
    exact hp
  case twoStep =>
    intro s i m p h hl hm hp ht
    refine ⟨_, (execSync_heard h hl hm).trans (congrArg Host.Outcome.next (State.syncCounted_waits (p := p) ?_ ht)), ?_, ?_, rfl, rfl⟩
    · rw [State.instSt_countInst_same]
      exact hp
    · rw [State.instSt_setInstSt_same, State.instSt_countInst_same]
      rfl
    · intro n hn
      rw [State.instSt_setInstSt, if_neg hn, State.countInst, State.instSt_setInstSt, if_neg hn]
      rfl
  case oneStep =>
    intro s i m p h hl hm hp ht hpath hps husing hsrc hsel hf d o
    have hst := State.instSt_countInst_same i.val 0 s.fresh
    have hp' : ((s.fresh.countInst i.val 0).instSt i.val).parent = some p := by rw [hst]; exact hp
    refine ⟨_, (execSync_heard h hl hm).trans (congrArg Host.Outcome.next (State.syncCounted_completes hp' ht)), ?_, ?_, ?_⟩
    · exact (State.exchange_latest ..).1
    · rw [(State.exchange_latest ..).2, State.instSt_unpended]
    · have hst' : ((s.fresh.countInst i.val 0).unpended i.val).instSt i.val = { s.instSt i.val with ctr := bump s i 0, pending := none } := by
        rw [State.instSt_unpended, hst]
        rfl
      have hx := ((s.fresh.countInst i.val 0).unpended i.val).exchange_offsets (log := m.logInterval) (d := d) (o := o) (i := i.val)
        (by rw [hst']; exact hpath) (by rw [hst']; exact hps) husing hsrc hsel hf (by rw [hst']; rfl)
      rw [hst'] at hx
      exact hx
  case followUp =>
    intro s i seq t1 c p h hp hq
    refine ⟨_, execFollowUp_completes h hp hq, ?_, ?_⟩
    · rw [(State.exchange_latest ..).2, State.instSt_unpended]
    · exact (State.exchange_latest ..).1
  case followUpIdle => exact fun s i seq t1 c h => execFollowUp_idle h
  case announceInterval => exact fun s i m h hl => execAnnounce_interval h hl
  case announceTaken =>
    intro s i m h hl hbest
    have hfor : (s.fresh.countInst i.val 1).foreignNow i.val m = s.foreignNow i.val m := State.foreignNow_countInst ..
    have hst := State.instSt_countInst_same i.val 1 s.fresh
    have hk := State.takeParent_parented i.val m ((s.fresh.countInst i.val 1).listed i.val m)
    refine ⟨_, (execAnnounce_heard h hl).trans (congrArg Host.Outcome.next (State.bestMaster_sender (by rw [hfor]; exact hbest))), ?_⟩
    have hlisted : ((s.fresh.countInst i.val 1).listed i.val m).instSt i.val =
        { s.instSt i.val with ctr := bump s i 1, foreign := s.foreignNow i.val m } := by
      rw [State.listed, State.instSt_setInstSt_same, hfor, hst]
      rfl
    obtain ⟨firstSync, near, far, beyond, ht⟩ := hk.instSt
    rw [ht, hlisted]
    exact ⟨rfl, hk.gmId, rfl, rfl, hk.acquires, hk.raised⟩
  case parentStays =>
    intro s i m p b h hl hp hm hb hs hbest
    have hfor : (s.fresh.countInst i.val 1).foreignNow i.val m = s.foreignNow i.val m := State.foreignNow_countInst ..
    have hst := State.instSt_countInst_same i.val 1 s.fresh
    refine ⟨_, (execAnnounce_heard h hl).trans (congrArg Host.Outcome.next (State.bestMaster_parent (p := p) (b := b) (by rw [hst]; exact hp) hm
      (by rw [hfor]; exact hb) hs (by rw [hfor]; exact hbest))), ?_, rfl, rfl⟩
    rw [State.listed, State.instSt_setInstSt_same, hfor, hst]
    rfl
  case delayResp =>
    intro s i seq t4 c d ms h hd hms hq hs hm
    refine ⟨_, execDelayResp_samples h hd hms hq hs hm, ?_, rfl, rfl⟩
    rw [State.pathSample_instSt, State.instSt_countInst_same]
    rfl
  case delayRespUnasked => exact fun s i seq t4 c h hd => execDelayResp_unasked h hd
  case delayReq =>
    intro s i p h hp b
    refine ⟨_, execDelayReq_sends h fun hn => (Option.some_ne_none p (hp.symm.trans hn)).elim, ?_, ?_, ?_⟩
    · rw [State.instSt_of_instSt _ (congrArg PtpSt.instSt (State.mgmtQueue_ptp ..)), State.instSt_setInstSt_same]
    · refine Eq.symm ?_
      refine (State.mgmtQueue_txq ?_).1
      exact State.instHears_up h
    · rw [State.mgmtQueue_emitted]
      rfl
  case delayReqPeer =>
    intro s i b h hp hm hlog
    refine ⟨_, execDelayReq_sends h fun _ => ⟨hm, hlog⟩, ?_⟩
    rw [hm]
    refine (State.mgmtQueue_txq ?_).1
    exact State.instHears_up h
  case delayReqIdle => exact fun s i b h => execDelayReq_idle h
  case mgmtFrameSend =>
    intro s i p kind seq rest h hq hup hh
    refine ⟨_, execMgmtFrameSend_ptp hq hup hh, ?_⟩
    rw [State.mgmtLeave_ptp ((State.instHears_dequeued ..).trans h)]
    rfl
  case pdelayReq =>
    intro s i seq h hm
    refine ⟨_, execPdelayReq_answers h hm, by rw [State.mgmtQueue_ptp, State.mgmtQueue_ptp]; rfl, ?_⟩
    obtain ⟨hq, hup⟩ := State.mgmtQueue_txq (s := s.fresh) (p := instSub (s.inst i.val)) (x := .ptp i.val 3 seq false) (State.instHears_up h)
    rw [(State.mgmtQueue_txq hup).1, hq, List.append_assoc]
    rfl
  case pdelayReqIdle => exact fun s i seq b h hm => execPdelayReq_idle h hm
  case pdelayResp =>
    intro s i seq t2 c d h hd hq hm
    exact ⟨_, execPdelayResp_taken h hd hq hm, by rw [State.instSt_setInstSt_same]⟩
  case pdelayRespFollowUp =>
    intro s i seq t3 c d h hd hq ha hs
    exact ⟨_, execPdelayRespFollowUp_samples h hd hq ha hs, State.pathSample_instSt .., rfl⟩
  case management => exact fun s i h => execPtpManagementMessage_counts h
  case unheard =>
    exact fun s i h => ⟨execPtpManagementMessage_unheard h, fun m => execAnnounce_unheard h, fun q t4 c => execDelayResp_unheard h,
      fun q t2 c b => execPdelayResp_unheard h, fun q t3 c => execPdelayRespFollowUp_unheard h⟩
  case timeouts =>
    intro s i hen hf hs
    have hlost (why : Nat) (hw : why < 8) : Parentless i.val why (s.fresh.loseParent i.val why) := State.loseParent_loses hen hf hs hw
    obtain ⟨state, reason, parent, event⟩ := hlost 1 (by decide)
    obtain ⟨state', reason', parent', event'⟩ := hlost 2 (by decide)
    exact ⟨⟨_, rfl, state, reason, parent, event⟩, _, rfl, state', reason', parent', event'⟩
  case timeoutsIdle =>
    intro s i h
    have hidle (why : Nat) : s.fresh.loseParent i.val why = s.fresh := State.loseParent_idle h
    exact ⟨congrArg Host.Outcome.next (hidle 1), congrArg Host.Outcome.next (hidle 2)⟩

end Sys2Proof.Machine
end

section
/-! PROOFS. The local clock (R302, R306, R307, R314, R466): its readings of engine time, the RTC set from it, and its fault. -/

namespace Sys2Proof.Machine

open Sys2Proof

section
variable {s : State}

theorem execEngineTimeReading_steers (hsrc : fget s.ptp.servo Servo.servoSrc = 1) (hb : s.blockHeld 50 = false) :
    execEngineTimeReading s = .next (s.fresh.steer ((s.now : Int) - (s.time.engine / 2 ^ 48 : Nat)) 1 1) := by
  have hb' : s.fresh.blockHeld 50 = false := hb
  refine if_neg ?_
  rw [State.fresh_ptp, hsrc, hb', bne_self_eq_false]
  exact Bool.false_ne_true

theorem execEngineTimeReading_idle (h : fget s.ptp.servo Servo.servoSrc ≠ 1 ∨ s.blockHeld 50 = true) :
    execEngineTimeReading s = .next s.fresh := by
  refine if_pos ?_
  rw [State.fresh_ptp]
  rcases h with h | h
  · rw [bne_iff_ne.2 h, Bool.true_or]
  · have hb : s.fresh.blockHeld 50 = true := h
    rw [hb, Bool.or_true]

/-- With SERVO_EN 0 an offset moves neither the clock nor the integrator. -/
theorem State.steer_rests (o : Int) (num den : Nat) (h : fbit s.ptp.servo Servo.servoEn = false) :
    (s.steer o num den).time = s.time ∧ (s.steer o num den).ptp.integ = s.ptp.integ := by
  rw [State.steer_off o num den h]
  exact ⟨time_of_kept (State.kept_onPtp (m := 0x20000) ..), by rw [State.onPtp_ptp]⟩

/-- RTC_SEC written, RTC_SUB and the crystal's time anew (R466). -/
theorem State.writeRtc_fields (sec : Nat) (s : State) :
    fget (s.writeRtc sec).pwr.aon Aon.rtcSec = sec % 2 ^ 48 ∧ fget (s.writeRtc sec).pwr.aon Aon.rtcSub = 0 ∧
    (s.writeRtc sec).time = { s.time with xtal := 0 } := by
  unfold State.writeRtc
  rw [State.onTime_pwr, State.onPwr_pwr, State.onTime_time, State.onPwr_time]
  refine ⟨?_, ?_, rfl⟩
  · rw [fget_fput_of_disjoint _ _ _ _ (by decide) (by decide), fget_fput _ _ _ (by decide)]
    rfl
  · rw [fget_fput _ _ _ (by decide)]
    rfl

theorem execRtcUpdate_sets (hf : s.fwRuns = true) (hs : fget (s.inst s.ptp.using_) Inst.instState = 2)
    (hen : fbit (s.inst s.ptp.using_) Inst.instEn = true) : execRtcUpdate s = .next (s.fresh.writeRtc (s.now / 1000000000)) := by
  have hf' : s.fresh.fwRuns = true := hf
  refine if_pos ?_
  rw [hf', State.fresh_ptp, State.fresh_inst, hs, hen]
  rfl

theorem execRtcUpdate_idle (h : s.fwRuns = false ∨ fget (s.inst s.ptp.using_) Inst.instState ≠ 2 ∨
    fbit (s.inst s.ptp.using_) Inst.instEn = false) : execRtcUpdate s = .next s.fresh := by
  refine if_neg ?_
  rw [State.fresh_ptp, State.fresh_inst]
  rcases h with h | h | h
  · have hf : s.fresh.fwRuns = false := h
    rw [hf, Bool.false_and, Bool.false_and]
    exact Bool.false_ne_true
  · rw [beq_false_of_ne h, Bool.and_false, Bool.false_and]
    exact Bool.false_ne_true
  · rw [h, Bool.and_false]
    exact Bool.false_ne_true

end

/-- Settles O53: a reading of engine time is an offset of the servo, which SERVO_EN 0 leaves unsteered; a LOCKED clock writes the RTC; and its fault is
a fatal event. -/
theorem localClockIsReadSteeredAndKept : Obligations.LocalClockIsReadSteeredAndKept := by
  unfold Obligations.LocalClockIsReadSteeredAndKept
  refine ⟨?reading, fun s h => execEngineTimeReading_idle h, ?rtc, fun s h => execRtcUpdate_idle h, ?fault⟩
  case reading =>
    intro s hsrc hb
    refine ⟨_, execEngineTimeReading_steers hsrc hb, ?_, fun h => State.steer_rests (s := s.fresh) _ 1 1 h, State.steer_inst ..⟩
    obtain ⟨servo, integ, hp, hlast, -⟩ := s.fresh.steer_ptp ((s.now : Int) - (s.time.engine / 2 ^ 48 : Nat)) 1 1
    rw [hp]
    exact hlast
  case rtc =>
    intro s hf hs hen
    obtain ⟨hsec, hsub, htime⟩ := s.fresh.writeRtc_fields (s.now / 1000000000)
    exact ⟨_, execRtcUpdate_sets hf hs hen, hsec, hsub, by rw [htime], by rw [htime]; rfl⟩
  case fault =>
    exact fun s => ⟨_, rfl, State.raise0_status .., fun hr => State.raise_fatal_safetyNet (by decide) rfl hr, State.raise0_ptp ..⟩

end Sys2Proof.Machine
end

section
/-! PROOFS. The PTP commands (R298, R303, R306, R309, R422): what each command's passed checks give, and what it leaves. -/

namespace Sys2Proof.Machine

open Sys2Proof

/-! ### A request taken up shows the same instances -/

section
variable (q : Req) (s : State) (n : Nat)

@[simp] theorem taken_inst : (taken q s).inst n = s.inst n := State.inst_of_inst n (by rw [taken_ptp])

@[simp] theorem taken_instSt : (taken q s).instSt n = s.instSt n := State.instSt_of_instSt n (by rw [taken_ptp])

@[simp] theorem taken_rxCorr : (taken q s).rxCorr n = s.rxCorr n := State.rxCorr_of_ptp (taken_ptp q s)

@[simp] theorem taken_subExists (p sub : Nat) : (taken q s).subExists p sub = s.subExists p sub := by rw [State.subExists, taken_eth, State.subExists]

@[simp] theorem taken_reading : (taken q s).reading = s.reading := by rw [State.reading, taken_now, taken_now32, State.reading]

end

/-! ### PTP_INST_WRITE -/

section
variable {q : Req} {s : State} {i : Nat} {new : BitVec 256}

/-- PTP_INST_WRITE's passed checks: one of the four instances, and the request's record over the one that stands. -/
theorem ptpInstWriteCheck_facts (h : ptpInstWriteCheck q s = .ok (i, new)) :
    i = Req.u32 q 0 ∧ i < 4 ∧ new = mergeRec Inst.layout (s.inst i) (Req.recordBytes q 32) := by
  obtain ⟨hi, h⟩ := index_bind.1 h
  obtain ⟨-, h⟩ := noTarget_bind.1 h
  obtain ⟨new', hn, h⟩ := ok_bind_iff.1 h
  have hnew := writeRecordX_eq hn
  split at h
  · cases h
  · cases pure_eq_ok.1 h
    exact ⟨rfl, hi, hnew⟩

theorem cmdPtpInstWrite_eq (h : ptpInstWriteCheck q s = .ok (i, new)) :
    cmdPtpInstWrite q s = .ok (ptpInstWriteDo i new s, recBytes ((ptpInstWriteDo i new s).inst i)) := by
  rw [cmdPtpInstWrite, h]
  rfl

/-- A record that switches its instance neither on nor off stays as written. -/
theorem ptpInstWriteDo_same (h : fbit new Inst.instEn = fbit (s.inst i) Inst.instEn) : ptpInstWriteDo i new s = s.setInst i new := by
  unfold ptpInstWriteDo
  extract_lets old s1 fresh up src s2
  have hen : fbit new Inst.instEn = fbit old Inst.instEn := h
  rw [hen, Bool.and_not_self, Bool.not_and_self, if_neg Bool.false_ne_true]
  exact if_neg Bool.false_ne_true

/-- The running state of an instance switched on or off: its counters alone stay. -/
def InstSt.cleared (v : InstSt) : InstSt := { instStReset 0 with ctr := v.ctr }

/-- An instance switched on or off: no state, its running state anew, and, switched off, no grandmaster. -/
structure Switched (i : Nat) (new : BitVec 256) (s t : State) : Prop where
  state : fget (t.inst i) Inst.instState = 0
  enabled : fbit (t.inst i) Inst.instEn = fbit new Inst.instEn
  gmId : fbit new Inst.instEn = false → fget (t.inst i) Inst.gmId = 0
  instSt : t.instSt i = (s.instSt i).cleared

theorem Switched.reasoned {t : State} (h : Switched i new s t) (why : Nat) : Switched i new s (t.setReason i why) := by
  have hs := h.state
  obtain ⟨hi, hst⟩ := t.setReason_unusable (i := i) why (by omega) (by omega)
  have hfield (g : Fld) (hg : g.lo + g.width ≤ 98 ∨ 101 ≤ g.lo) : fget ((t.setReason i why).inst i) g = fget (t.inst i) g := by
    rw [hi, fget_fput_of_disjoint _ _ _ _ (by decide) hg]
  refine ⟨(hfield _ (by decide)).trans hs, ?_, fun hoff => (hfield _ (by decide)).trans (h.gmId hoff), hst.trans h.instSt⟩
  rw [fbit, hfield _ (by decide)]
  exact h.enabled

/-- A record whose instance is switched off reads no state and no grandmaster. -/
theorem instRecord_off (r : BitVec 256) (g : Fld) (hg : g.lo + g.width ≤ 96 ∨ g = Inst.instState ∨ g = Inst.gmId) :
    fget (fput (fput (fput (fput r Inst.instState 0) Inst.gmId 0) Inst.utcOffset 0) Inst.utcValid 0) g =
      if g.lo + g.width ≤ 96 then fget r g else 0 := by
  rcases hg with hg | rfl | rfl
  · rw [if_pos hg, fget_fput_below _ _ _ _ (by decide) (le_trans hg (by decide)), fget_fput_below _ _ _ _ (by decide) (le_trans hg (by decide)),
      fget_fput_below _ _ _ _ (by decide) (le_trans hg (by decide)), fget_fput_below _ _ _ _ (by decide) hg]
  · rw [if_neg (by decide), fget_fput_below _ _ _ _ (by decide) (by decide), fget_fput_below _ _ _ _ (by decide) (by decide),
      fget_fput_below _ _ _ _ (by decide) (by decide), fget_fput _ _ _ (by decide), Nat.zero_mod]
  · rw [if_neg (by decide), fget_fput_below _ _ _ _ (by decide) (by decide), fget_fput_below _ _ _ _ (by decide) (by decide),
      fget_fput _ _ _ (by decide), Nat.zero_mod]

theorem ptpInstWriteDo_on (h : fbit new Inst.instEn = true) (hold : fbit (s.inst i) Inst.instEn = false) :
    Switched i new s (ptpInstWriteDo i new s) := by
  unfold ptpInstWriteDo
  extract_lets old s1 fresh up src s2
  rw [if_pos (by rw [h, show fbit old Inst.instEn = false from hold]; rfl)]
  refine Switched.reasoned ⟨?_, ?_, fun hoff => (by cases h.symm.trans hoff), ?_⟩ _
  · rw [State.inst_instF_same, fget_fput _ _ _ (by decide), Nat.zero_mod]
  · rw [State.inst_instF_same, State.inst_setInstSt, State.inst_setInst_same, fbit, fget_fput_of_disjoint _ _ _ _ (by decide) (by decide), fbit]
  · rw [State.instSt_instF, State.instSt_setInstSt_same]
    rfl

theorem ptpInstWriteDo_off (h : fbit new Inst.instEn = false) (hold : fbit (s.inst i) Inst.instEn = true) :
    Switched i new s (ptpInstWriteDo i new s) := by
  unfold ptpInstWriteDo
  extract_lets old s1 fresh up src s2
  rw [if_neg (by rw [h, Bool.false_and]; exact Bool.false_ne_true), if_pos (by rw [h, show fbit old Inst.instEn = true from hold]; rfl)]
  have hi : s2.inst i = fput (fput (fput (fput new Inst.instState 0) Inst.gmId 0) Inst.utcOffset 0) Inst.utcValid 0 :=
    State.inst_setInst_same ..
  have hst : s2.instSt i = (s.instSt i).cleared := (State.instSt_setInst ..).trans (State.instSt_setInstSt_same ..)
  clear_value s2
  have h2 (t : State) (hti : t.ptp.inst = s2.ptp.inst) (htst : t.ptp.instSt = s2.ptp.instSt) : Switched i new s t := by
    have hr := (State.inst_of_inst i hti).trans hi
    refine ⟨?_, ?_, fun _ => ?_, (State.instSt_of_instSt i htst).trans hst⟩
    · rw [hr, instRecord_off _ _ (.inr (.inl rfl)), if_neg (by decide)]
    · rw [hr, fbit, instRecord_off _ _ (.inl (by decide)), if_pos (by decide), fbit]
    · rw [hr, instRecord_off _ _ (.inr (.inr rfl)), if_neg (by decide)]
  refine Switched.reasoned ?_ _
  split
  · obtain ⟨hinst, hinstSt, -⟩ := s2.holdRate_rest
    exact h2 _ hinst hinstSt
  · exact h2 _ rfl rfl

theorem ptpInstWriteDo_switched (h : fbit new Inst.instEn ≠ fbit (s.inst i) Inst.instEn) : Switched i new s (ptpInstWriteDo i new s) := by
  cases hnew : fbit new Inst.instEn with
  | true => exact ptpInstWriteDo_on hnew (Bool.eq_false_iff.2 fun hold => h (hnew.trans hold.symm))
  | false => exact ptpInstWriteDo_off hnew (by rw [hnew] at h; exact Bool.eq_true_of_not_eq_false (Ne.symm h))

end

/-! ### PTP_SERVO_WRITE and PTP_TS_CORR -/

section
variable {q : Req} {s : State} {new : BitVec 256}

theorem ptpServoWriteCheck_eq (h : ptpServoWriteCheck q s = .ok new) : new = mergeRec Servo.layout s.ptp.servo (Req.recordBytes q 32) := by
  obtain ⟨-, h⟩ := index_bind.1 h
  obtain ⟨-, h⟩ := noTarget_bind.1 h
  exact writeRecord_eq h

/-- The choice of the servo's instance is no part of the servo's record. -/
theorem ptpServoWriteDo_servo (new : BitVec 256) (s : State) : (ptpServoWriteDo new s).ptp.servo = new := by
  unfold ptpServoWriteDo
  extract_lets s1 s2
  rw [s2.chooseUsing_chosen.servo]
  unfold s2
  split
  · rw [State.onPtp_ptp]
  · rw [State.onPtp_ptp, State.onPtp_ptp]

theorem cmdPtpServoWrite_eq (h : ptpServoWriteCheck q s = .ok new) : cmdPtpServoWrite q s = .ok (ptpServoWriteDo new s, recBytes new) := by
  have hc : cmdPtpServoWrite q s = .ok (ptpServoWriteDo new s, recBytes (ptpServoWriteDo new s).ptp.servo) := by
    rw [cmdPtpServoWrite, h]
    rfl
  rw [hc, ptpServoWriteDo_servo]

theorem cmdPtpTsCorr_eq (hp : Req.u8 q 0 < 4) (hs : s.subExists (Req.u8 q 0) (Req.u8 q 1) = true) (hz : Req.num q 2 2 = 0)
    (ht : Req.trailingOk q 8 = true) : cmdPtpTsCorr q s = .ok (s.onPtp (fun p =>
      { p with corr := tset corrReset p.corr (8 * Req.u8 q 0 + Req.u8 q 1) (sgn 16 (Req.u16 q 4), sgn 16 (Req.u16 q 6)) }), []) := by
  have hzero : Req.zeroAt q 2 2 = .ok () := by rw [Req.zeroAt, hz]; rfl
  have hc : ptpTsCorrCheck q s = .ok (8 * Req.u8 q 0 + Req.u8 q 1) := by
    rw [ptpTsCorrCheck, decide_eq_true hp, hs, needAt_true, needAt_true, hzero, layout_ok ht]
    rfl
  rw [cmdPtpTsCorr, hc]
  rfl

end

/-! ### PTP_SET_TIME and PTP_READ -/

section
variable {q : Req} {s : State}

theorem cmdPtpSetTime_eq (hsec : Req.u64 q 0 < 2 ^ 48) (hns : Req.u32 q 8 < 1000000000) (ht : Req.trailingOk q 12 = true)
    (hi : ∀ i, i < 4 → fget (s.inst i) Inst.instState ≠ 1 ∧ fget (s.inst i) Inst.instState ≠ 2) (hsrc : fget s.ptp.servo Servo.servoSrc = 0) :
    cmdPtpSetTime q s = .ok (ptpSetTimeDo (Req.u64 q 0 * 1000000000 + Req.u32 q 8) s, []) := by
  have hidle : [0, 1, 2, 3].any (fun i => fget (s.inst i) Inst.instState == 1 || fget (s.inst i) Inst.instState == 2) = false := by
    rw [List.any_eq_false]
    intro i hmem
    obtain ⟨h1, h2⟩ := hi i (by simp at hmem; omega)
    rw [beq_false_of_ne h1, beq_false_of_ne h2]
    exact Bool.false_ne_true
  have hc : ptpSetTimeCheck q s = .ok () := by
    rw [ptpSetTimeCheck, decide_eq_true hsec, decide_eq_true hns, needAt_true, needAt_true, layout_ok ht, hidle, Bool.not_false, need_true, hsrc]
    rfl
  rw [cmdPtpSetTime, hc]
  rfl

/-- R300: at the counter value of its base the clock reads its offset. -/
theorem clockAt_base {t : TimeSt} (rate : Int) (h : t.offset < 2 ^ 48 * 1000000000 * 2 ^ 32) : clockAt t rate t.base = t.offset := by
  have hd : (t.base - t.base).toNat = 0 := by rw [BitVec.sub_self]; rfl
  unfold clockAt
  extract_lets d
  have hd' : d = 0 := hd
  rw [hd', Nat.cast_zero, zero_mul, zero_mul, Int.zero_fdiv, add_zero, add_zero, ← Int.natCast_mod, Int.toNat_natCast]
  exact Nat.mod_eq_of_lt h

/-- R309: the clock is set, with no other clock or counter moved, and PTP_TIME_STEP stands. -/
theorem ptpSetTimeDo_sets (ns : Nat) (s : State) : (ptpSetTimeDo ns s).time = { s.time with offset := ns * 2 ^ 32, base := s.time.clk } ∧
    (ptpSetTimeDo ns s).ptp = s.ptp ∧ (0xED, locPtp) ∈ (ptpSetTimeDo ns s).flt.status := by
  unfold ptpSetTimeDo
  extract_lets d s1
  have htime : s1.time = { s.time with offset := ns * 2 ^ 32, base := s.time.clk } :=
    (time_of_kept (State.raise_kept (μ := 0x2C0014) ..)).trans (State.onTime_time ..)
  have hptp : s1.ptp = s.ptp := (State.raise_ptp ..).trans (State.onTime_ptp ..)
  have hev : (0xED, locPtp) ∈ s1.flt.status := State.raise_status ..
  clear_value s1
  split
  · exact ⟨htime, hptp, hev⟩
  · exact ⟨(time_of_kept (State.candDown_kept (μ := 0x6D0014) ..)).trans htime, (State.candDown_ptp ..).trans hptp, State.candDown_grows _ _ hev⟩

theorem ptpSetTimeDo_now {ns : Nat} (h : ns < 2 ^ 48 * 1000000000) (s : State) : (ptpSetTimeDo ns s).now = ns := by
  obtain ⟨htime, -, -⟩ := ptpSetTimeDo_sets ns s
  have hclk : (ptpSetTimeDo ns s).time.clk = (ptpSetTimeDo ns s).time.base := by rw [htime]
  have hoff : (ptpSetTimeDo ns s).time.offset = ns * 2 ^ 32 := by rw [htime]
  rw [State.now, State.now32, hclk, clockAt_base _ (by rw [hoff]; exact Nat.mul_lt_mul_of_pos_right h (by decide)), hoff]
  exact Nat.mul_div_cancel _ (by decide)

theorem cmdPtpRead_inst (hi : Req.u32 q 0 < 4) (ht : Req.trailingOk q 8 = true) (hr : Req.u32 q 4 < 2) : cmdPtpRead q s = .ok
    (if Req.u32 q 4 = 1 then s.setInstSt (Req.u32 q 0) { s.instSt (Req.u32 q 0) with ctr := List.replicate 7 0 } else s,
      recBytes (s.inst (Req.u32 q 0)) ++ (s.instSt (Req.u32 q 0)).ctr.flatMap (leBytes 4) ++
        leBytes 2 (unsgn 16 (s.rxCorr (Req.u32 q 0)).1) ++ leBytes 2 (unsgn 16 (s.rxCorr (Req.u32 q 0)).2)) := by
  rw [cmdPtpRead, readArgs_ok (Nat.lt_succ_of_lt hi) ht hr, ok_bind]
  dsimp only
  rw [if_neg (Nat.ne_of_lt hi), beq_eq_decide]
  simp only [decide_eq_true_eq]
  rfl

theorem cmdPtpRead_servo (hi : Req.u32 q 0 = 4) (ht : Req.trailingOk q 8 = true) (hr : Req.u32 q 4 < 2) :
    cmdPtpRead q s = .ok (s, recBytes s.ptp.servo ++ s.reading) := by
  rw [cmdPtpRead, readArgs_ok (by rw [hi]; decide) ht hr, ok_bind]
  dsimp only
  rw [if_pos hi]
  rfl

end

/-! ### The obligation -/

/-- Settles O24: the checks that pass give the merged records; an instance switched on or off starts anew; the clock set reads the time given at the
counter's present value; and a read clears counters only with CLEAR. -/
theorem ptpCommandsTakeEffect : Obligations.PtpCommandsTakeEffect := by
  unfold Obligations.PtpCommandsTakeEffect
  refine ⟨?inst, ?servo, ?tsCorr, ?setTime, ?readInst, ?readServo⟩
  case inst =>
    intro q s i new hs hc
    obtain ⟨hiq, hlt, hnew⟩ := ptpInstWriteCheck_facts hc
    rw [taken_inst] at hnew
    have hk : (ptpInstWriteDo i new (taken q s)).kept 0x6F0015 = s.kept 0x6F0015 :=
      (ptpInstWriteDo_kept ..).trans (kept_mono (by decide) (taken_kept q s))
    refine ⟨_, serve_ok hs (cmdPtpInstWrite_eq hc), hiq, hlt, hnew, fun h => ptpInstWriteDo_same (by rw [taken_inst, h]), fun h => ?_, ?_,
      mem_of_kept hk, rte_of_kept hk, bud_of_kept hk, pwr_of_kept hk⟩
    · obtain ⟨state, -, gmId, instSt⟩ := ptpInstWriteDo_switched (s := taken q s) (by rw [taken_inst]; exact h)
      rw [taken_instSt] at instSt
      exact ⟨state, gmId, instSt⟩
    · by_cases h : fbit new Inst.instEn = fbit ((taken q s).inst i) Inst.instEn
      · rw [ptpInstWriteDo_same h, State.inst_setInst_same]
      · exact (ptpInstWriteDo_switched h).enabled
  case servo =>
    intro q s new hs hc
    have hnew := ptpServoWriteCheck_eq hc
    rw [taken_ptp] at hnew
    have hk : (ptpServoWriteDo new (taken q s)).kept 0x6F0014 = s.kept 0x6F0014 :=
      (ptpServoWriteDo_kept ..).trans (kept_mono (by decide) (taken_kept q s))
    exact ⟨_, serve_ok hs (cmdPtpServoWrite_eq hc), hnew, ptpServoWriteDo_servo .., time_of_kept hk, mem_of_kept hk, rte_of_kept hk,
      bud_of_kept hk, pwr_of_kept hk⟩
  case tsCorr => exact fun q s hs hp hsub hz ht => serve_ok hs (cmdPtpTsCorr_eq hp (by rw [taken_subExists]; exact hsub) hz ht)
  case setTime =>
    intro q s hs hsec hns ht hi hsrc
    have hk : (ptpSetTimeDo (Req.u64 q 0 * 1000000000 + Req.u32 q 8) (taken q s)).kept 0x6D0015 = s.kept 0x6D0015 :=
      (ptpSetTimeDo_kept ..).trans (kept_mono (by decide) (taken_kept q s))
    obtain ⟨htime, hptp, hev⟩ := ptpSetTimeDo_sets (Req.u64 q 0 * 1000000000 + Req.u32 q 8) (taken q s)
    have hc := cmdPtpSetTime_eq (s := taken q s) hsec hns ht (fun i h => by rw [taken_inst]; exact hi i h) (by rw [taken_ptp, hsrc])
    refine ⟨_, serve_ok hs hc, ptpSetTimeDo_now (by omega) _, ?_, hev, hptp.trans (taken_ptp ..), mem_of_kept hk, rte_of_kept hk, pwr_of_kept hk⟩
    rw [htime, taken_time]
  case readInst =>
    intro q s hs hi ht hr
    have h := serve_ok (peers := []) hs (cmdPtpRead_inst (s := taken q s) hi ht hr)
    rw [taken_inst, taken_instSt, taken_rxCorr] at h
    exact h
  case readServo =>
    intro q s hs hi ht hr
    have h := serve_ok (peers := []) hs (cmdPtpRead_servo (s := taken q s) hi ht hr)
    rw [taken_ptp, taken_reading] at h
    exact h

end Sys2Proof.Machine
end

section
/-! PROOFS. The frame of every command: what a command leaves as it is, as its row of `writes` says. -/

set_option Elab.async false

namespace Sys2Proof.Machine

open Sys2Proof

/-! ### A list of parts as a mask -/

/-- The bit that stands for a part in the masks of `State.kept`. -/
def Part.bit : Part → Nat
  | .time => 0 | .pwr => 1 | .ctl => 2 | .priv => 3 | .flt => 4 | .rec_ => 5 | .mem => 6 | .tiles => 7 | .payload => 8 | .bud => 9
  | .rte => 10 | .sdi => 11 | .eth => 12 | .flo => 13 | .cmp => 14 | .cal => 15 | .ref => 16 | .ptp => 17 | .trp => 18 | .twin => 19
  | .upd => 20 | .tst => 21 | .free => 22 | .queue => 23

theorem Part.bit_injective : Function.Injective Part.bit := by
  intro a b
  cases a <;> cases b <;> decide

/-- The mask that hides the parts of a list. -/
def partsMask : List Part → Nat
  | [] => 0
  | p :: l => 2 ^ p.bit ||| partsMask l

theorem testBit_partsMask (l : List Part) (p : Part) : (partsMask l).testBit p.bit = true ↔ p ∈ l := by
  induction l with
  | nil => simp [partsMask]
  | cons a l ih =>
    rw [partsMask, Nat.testBit_or, Bool.or_eq_true, Nat.testBit_two_pow, ih, decide_eq_true_iff, Part.bit_injective.eq_iff, List.mem_cons, eq_comm]

/-- The parts whose bits stand in `n` are in the list, or their bits in `m`: computed part by part, so that a row of `writes` need not be
closed for it to evaluate. -/
def listsAll (n m : Nat) : List Part → Bool
  | [] => n &&& m == n
  | p :: l => listsAll n (m ||| 2 ^ p.bit) l

theorem sub_of_listsAll {n m : Nat} {l : List Part} (h : listsAll n m l = true) : n &&& (m ||| partsMask l) = n := by
  induction l generalizing m with
  | nil => rw [partsMask, Nat.or_zero]; exact eq_of_beq h
  | cons p l ih => rw [partsMask, ← Nat.or_assoc]; exact ih h

theorem sub_partsMask {n : Nat} {l : List Part} (h : listsAll n 0 l = true) : n &&& partsMask l = n :=
  Nat.zero_or (partsMask l) ▸ sub_of_listsAll h

/-! ### What the mask of the other parts shows -/

/-- Where the Tile Store is shown, each of its bytes is as before. -/
theorem byteAt_of_kept {m : Nat} {s t : State} (e : t.kept m = s.kept m) (h : m.testBit 7 = false) (a : Nat) : t.byteAt a = s.byteAt a := by
  obtain ⟨ht, hu, hr⟩ := tiles_of_kept e h
  show memByte (memDefault t.pwr.reduced t.mem.undef) t.mem.tiles a = _
  rw [ht, hu, hr]
  rfl

/-- A byte below the check region is one of the payload bytes. -/
theorem State.byteAt_payload (s : State) {a : Nat} (h : a < checkBase s.pwr.reduced) :
    s.byteAt a = memByte (memDefault s.pwr.reduced s.mem.undef) s.payload a :=
  (memByte_filter _ _ _ _ fun _ => decide_eq_true h).symm

/-- Where the payload bytes are shown, each of them is as before. -/
theorem payload_same_of_kept {m : Nat} {s t : State} (e : t.kept m = s.kept m) (h : m.testBit 8 = false) : Part.payload.same s t := by
  obtain ⟨hp, hu, hr⟩ := low_of_kept e h
  refine ⟨hr, fun a ha => ?_⟩
  rw [s.byteAt_payload ha, t.byteAt_payload (hr ▸ ha), hp, hu, hr]

/-- A part that a mask shows is the same in both states. -/
theorem Part.same_of_kept {m : Nat} {s t : State} (e : t.kept m = s.kept m) (p : Part) (h : m.testBit p.bit = false) : p.same s t :=
  match p with
  | .time => time_of_kept e h
  | .pwr => pwr_of_kept e h
  | .ctl => ctl_of_kept e h
  | .priv => priv_of_kept e h
  | .flt => flt_of_kept e h
  | .rec_ => rec_of_kept e h
  | .mem => mem_of_kept e h
  | .tiles => byteAt_of_kept e h
  | .payload => payload_same_of_kept e h
  | .bud => bud_of_kept e h
  | .rte => rte_of_kept e h
  | .sdi => sdi_of_kept e h
  | .eth => eth_of_kept e h
  | .flo => flo_of_kept e h
  | .cmp => cmp_of_kept e h
  | .cal => cal_of_kept e h
  | .ref => ref_of_kept e h
  | .ptp => ptp_of_kept e h
  | .trp => trp_of_kept e h
  | .twin => twin_of_kept e h
  | .upd => upd_of_kept e h
  | .tst => tst_of_kept e h
  | .free => free_of_kept e h
  | .queue => pending_of_kept e h

/-! ### One row for each command -/

/-- A command changes what its row of `writes` lists alone. -/
theorem exec_keeps (i : Instr) (s : State) : Keeps (partsMask (writes i)) (s.kept (partsMask (writes i))) (exec i s) :=
  match i with
  | .sessionInfo .. => execSessionInfo_keeps (hμ := sub_partsMask rfl) ..
  | .sessionOpen .. => execSessionOpen_keeps (hμ := sub_partsMask rfl) ..
  | .sessionClose .. => execSessionClose_keeps (hμ := sub_partsMask rfl) ..
  | .powerSet .. => execPowerSet_keeps (hμ := sub_partsMask rfl) ..
  | .profileSet .. => execProfileSet_keeps (hμ := sub_partsMask rfl) ..
  | .budgetQuery .. => execBudgetQuery_keeps (hμ := sub_partsMask rfl) ..
  | .sessionReset .. => execSessionReset_keeps (hμ := sub_partsMask rfl) ..
  | .privRead .. => execPrivRead_keeps (hμ := sub_partsMask rfl) ..
  | .privWrite .. => execPrivWrite_keeps (hμ := sub_partsMask rfl) ..
  | .ringCreate .. => execRingCreate_keeps (hμ := sub_partsMask rfl) ..
  | .ringDelete .. => execRingDelete_keeps (hμ := sub_partsMask rfl) ..
  | .ringModify .. => execRingModify_keeps (hμ := sub_partsMask rfl) ..
  | .ringQuery .. => execRingQuery_keeps (hμ := sub_partsMask rfl) ..
  | .memStatus .. => execMemStatus_keeps (hμ := sub_partsMask rfl) ..
  | .flowInsert .. => execFlowInsert_keeps (hμ := sub_partsMask rfl) ..
  | .flowModify .. => execFlowModify_keeps (hμ := sub_partsMask rfl) ..
  | .flowDelete .. => execFlowDelete_keeps (hμ := sub_partsMask rfl) ..
  | .flowStatus .. => execFlowStatus_keeps (hμ := sub_partsMask rfl) ..
  | .ingestWrite .. => execIngestWrite_keeps (hμ := sub_partsMask rfl) ..
  | .mergeWrite .. => execMergeWrite_keeps (hμ := sub_partsMask rfl) ..
  | .mergeStatus .. => execMergeStatus_keeps (hμ := sub_partsMask rfl) ..
  | .hostqBind .. => execHostqBind_keeps (hμ := sub_partsMask rfl) ..
  | .hostqUnbind .. => execHostqUnbind_keeps (hμ := sub_partsMask rfl) ..
  | .hostInsert .. => execHostInsert_keeps (hμ := sub_partsMask rfl) ..
  | .captureFrames .. => execCaptureFrames_keeps (hμ := sub_partsMask rfl) ..
  | .planeWrite .. => execPlaneWrite_keeps (hμ := sub_partsMask rfl) ..
  | .pulseWrite .. => execPulseWrite_keeps (hμ := sub_partsMask rfl) ..
  | .clockWrite .. => execClockWrite_keeps (hμ := sub_partsMask rfl) ..
  | .planeRead .. => execPlaneRead_keeps (hμ := sub_partsMask rfl) ..
  | .routeWrite .. => execRouteWrite_keeps (hμ := sub_partsMask rfl) ..
  | .routeRead .. => execRouteRead_keeps (hμ := sub_partsMask rfl) ..
  | .routeStatus .. => execRouteStatus_keeps (hμ := sub_partsMask rfl) ..
  | .salvoAdd .. => execSalvoAdd_keeps (hμ := sub_partsMask rfl) ..
  | .salvoAdmit .. => execSalvoAdmit_keeps (hμ := sub_partsMask rfl) ..
  | .salvoTake .. => execSalvoTake_keeps (hμ := sub_partsMask rfl) ..
  | .salvoAbandon .. => execSalvoAbandon_keeps (hμ := sub_partsMask rfl) ..
  | .salvoQuery .. => execSalvoQuery_keeps (hμ := sub_partsMask rfl) ..
  | .salvoEntries .. => execSalvoEntries_keeps (hμ := sub_partsMask rfl) ..
  | .presetStore .. => execPresetStore_keeps (hμ := sub_partsMask rfl) ..
  | .presetLoad .. => execPresetLoad_keeps (hμ := sub_partsMask rfl) ..
  | .presetDelete .. => execPresetDelete_keeps (hμ := sub_partsMask rfl) ..
  | .presetList .. => execPresetList_keeps (hμ := sub_partsMask rfl) ..
  | .compOutWrite .. => execCompOutWrite_keeps (hμ := sub_partsMask rfl) ..
  | .compLayerWrite .. => execCompLayerWrite_keeps (hμ := sub_partsMask rfl) ..
  | .compMatrixWrite .. => execCompMatrixWrite_keeps (hμ := sub_partsMask rfl) ..
  | .compCursorWrite .. => execCompCursorWrite_keeps (hμ := sub_partsMask rfl) ..
  | .compLoad .. => execCompLoad_keeps (hμ := sub_partsMask rfl) ..
  | .compRead .. => execCompRead_keeps (hμ := sub_partsMask rfl) ..
  | .compLayerRead .. => execCompLayerRead_keeps (hμ := sub_partsMask rfl) ..
  | .calWrite .. => execCalWrite_keeps (hμ := sub_partsMask rfl) ..
  | .audInWrite .. => execAudInWrite_keeps (hμ := sub_partsMask rfl) ..
  | .audOutWrite .. => execAudOutWrite_keeps (hμ := sub_partsMask rfl) ..
  | .audBusWrite .. => execAudBusWrite_keeps (hμ := sub_partsMask rfl) ..
  | .audBusInputs .. => execAudBusInputs_keeps (hμ := sub_partsMask rfl) ..
  | .audDynWrite .. => execAudDynWrite_keeps (hμ := sub_partsMask rfl) ..
  | .audRead .. => execAudRead_keeps (hμ := sub_partsMask rfl) ..
  | .candWrite .. => execCandWrite_keeps (hμ := sub_partsMask rfl) ..
  | .refWrite .. => execRefWrite_keeps (hμ := sub_partsMask rfl) ..
  | .refRead .. => execRefRead_keeps (hμ := sub_partsMask rfl) ..
  | .phaseReset .. => execPhaseReset_keeps (hμ := sub_partsMask rfl) ..
  | .ptpInstWrite .. => execPtpInstWrite_keeps (hμ := sub_partsMask rfl) ..
  | .ptpServoWrite .. => execPtpServoWrite_keeps (hμ := sub_partsMask rfl) ..
  | .ptpTsCorr .. => execPtpTsCorr_keeps (hμ := sub_partsMask rfl) ..
  | .ptpSetTime .. => execPtpSetTime_keeps (hμ := sub_partsMask rfl) ..
  | .ptpRead .. => execPtpRead_keeps (hμ := sub_partsMask rfl) ..
  | .troupeWrite .. => execTroupeWrite_keeps (hμ := sub_partsMask rfl) ..
  | .linkWrite .. => execLinkWrite_keeps (hμ := sub_partsMask rfl) ..
  | .laneWrite .. => execLaneWrite_keeps (hμ := sub_partsMask rfl) ..
  | .troupeImport .. => execTroupeImport_keeps (hμ := sub_partsMask rfl) ..
  | .troupeUnimport .. => execTroupeUnimport_keeps (hμ := sub_partsMask rfl) ..
  | .troupeForward .. => execTroupeForward_keeps (hμ := sub_partsMask rfl) ..
  | .troupeRead .. => execTroupeRead_keeps (hμ := sub_partsMask rfl) ..
  | .twinWrite .. => execTwinWrite_keeps (hμ := sub_partsMask rfl) ..
  | .twinRead .. => execTwinRead_keeps (hμ := sub_partsMask rfl) ..
  | .twinSwap .. => execTwinSwap_keeps (hμ := sub_partsMask rfl) ..
  | .recRead .. => execRecRead_keeps (hμ := sub_partsMask rfl) ..
  | .recClear .. => execRecClear_keeps (hμ := sub_partsMask rfl) ..
  | .recLimit .. => execRecLimit_keeps (hμ := sub_partsMask rfl) ..
  | .faultRead .. => execFaultRead_keeps (hμ := sub_partsMask rfl) ..
  | .faultClear .. => execFaultClear_keeps (hμ := sub_partsMask rfl) ..
  | .faultForce .. => execFaultForce_keeps (hμ := sub_partsMask rfl) ..
  | .eventConfig .. => execEventConfig_keeps (hμ := sub_partsMask rfl) ..
  | .updBegin .. => execUpdBegin_keeps (hμ := sub_partsMask rfl) ..
  | .updChunk .. => execUpdChunk_keeps (hμ := sub_partsMask rfl) ..
  | .updEnd .. => execUpdEnd_keeps (hμ := sub_partsMask rfl) ..
  | .updActivate .. => execUpdActivate_keeps (hμ := sub_partsMask rfl) ..
  | .updQuery .. => execUpdQuery_keeps (hμ := sub_partsMask rfl) ..
  | .testGen .. => execTestGen_keeps (hμ := sub_partsMask rfl) ..
  | .testCheck .. => execTestCheck_keeps (hμ := sub_partsMask rfl) ..
  | .testLoop .. => execTestLoop_keeps (hμ := sub_partsMask rfl) ..
  | .testResult .. => execTestResult_keeps (hμ := sub_partsMask rfl) ..
  | .testMem .. => execTestMem_keeps (hμ := sub_partsMask rfl) ..
  | .testShadow .. => execTestShadow_keeps (hμ := sub_partsMask rfl) ..
  | .sdiWrite .. => execSdiWrite_keeps (hμ := sub_partsMask rfl) ..
  | .ethWrite .. => execEthWrite_keeps (hμ := sub_partsMask rfl) ..
  | .ethAddrWrite .. => execEthAddrWrite_keeps (hμ := sub_partsMask rfl) ..
  | .pktFlowWrite .. => execPktFlowWrite_keeps (hμ := sub_partsMask rfl) ..
  | .sbWrite .. => execSbWrite_keeps (hμ := sub_partsMask rfl) ..
  | .portSnapshot .. => execPortSnapshot_keeps (hμ := sub_partsMask rfl) ..
  | .portRead .. => execPortRead_keeps (hμ := sub_partsMask rfl) ..
  | .pktOutWrite .. => execPktOutWrite_keeps (hμ := sub_partsMask rfl) ..
  | .db .. => execDb_keeps (hμ := sub_partsMask rfl) ..
  | .requestBufferWrite .. => execRequestBufferWrite_keeps (hμ := sub_partsMask rfl) ..
  | .doneMapClear .. => execDoneMapClear_keeps (hμ := sub_partsMask rfl) ..
  | .pop .. => execPop_keeps (hμ := sub_partsMask rfl) ..
  | .release .. => execRelease_keeps (hμ := sub_partsMask rfl) ..
  | .force .. => execForce_keeps (hμ := sub_partsMask rfl) ..
  | .pendingClear .. => execPendingClear_keeps (hμ := sub_partsMask rfl) ..
  | .blkRst .. => execBlkRst_keeps (hμ := sub_partsMask rfl) ..
  | .fullRst .. => execFullRst_keeps (hμ := sub_partsMask rfl) ..
  | .cntClear .. => execCntClear_keeps (hμ := sub_partsMask rfl) ..
  | .maint .. => execMaint_keeps (hμ := sub_partsMask rfl) ..
  | .decValidClear => execDecValidClear_keeps (hμ := sub_partsMask rfl) ..
  | .abortValidClear => execAbortValidClear_keeps (hμ := sub_partsMask rfl) ..
  | .rtcSec .. => execRtcSec_keeps (hμ := sub_partsMask rfl) ..
  | .ptpNowRead => execPtpNowRead_keeps (hμ := sub_partsMask rfl) ..
  | .registerWrite .. => execRegisterWrite_keeps (hμ := sub_partsMask rfl) ..
  | .defaultTargetAccess .. => execDefaultTargetAccess_keeps (hμ := sub_partsMask rfl) ..
  | .bar2Read .. => execBar2Read_keeps (hμ := sub_partsMask rfl) ..
  | .bar2Write .. => execBar2Write_keeps (hμ := sub_partsMask rfl) ..
  | .p2Request .. => execP2Request_keeps (hμ := sub_partsMask rfl) ..
  | .p3Request .. => execP3Request_keeps (hμ := sub_partsMask rfl) ..
  | .forwardedCommand .. => execForwardedCommand_keeps (hμ := sub_partsMask rfl) ..
  | .forwardedResponse .. => execForwardedResponse_keeps (hμ := sub_partsMask rfl) ..
  | .commandDeadline .. => execCommandDeadline_keeps (hμ := sub_partsMask rfl) ..
  | .extest .. => execExtest_keeps (hμ := sub_partsMask rfl) ..
  | .idcode => execIdcode_keeps (hμ := sub_partsMask rfl) ..
  | .samplePreload .. => execSamplePreload_keeps (hμ := sub_partsMask rfl) ..
  | .halt => execHalt_keeps (hμ := sub_partsMask rfl) ..
  | .command .. => execCommand_keeps (hμ := sub_partsMask rfl) ..
  | .doorbell .. => execDoorbell_keeps (hμ := sub_partsMask rfl) ..
  | .bypass .. => execBypass_keeps (hμ := sub_partsMask rfl) ..
  | .turnStart => execTurnStart_keeps (hμ := sub_partsMask rfl) ..
  | .profileChange => execProfileChange_keeps (hμ := sub_partsMask rfl) ..
  | .channelTraining .. => execChannelTraining_keeps (hμ := sub_partsMask rfl) ..
  | .recentre .. => execRecentre_keeps (hμ := sub_partsMask rfl) ..
  | .tileCommit .. => execTileCommit_keeps (hμ := sub_partsMask rfl) ..
  | .tileRead .. => execTileRead_keeps (hμ := sub_partsMask rfl) ..
  | .budgetRecount => execBudgetRecount_keeps (hμ := sub_partsMask rfl) ..
  | .budgetTableError => execBudgetTableError_keeps (hμ := sub_partsMask rfl) ..
  | .latch .. => execLatch_keeps (hμ := sub_partsMask rfl) ..
  | .switchPoint .. => execSwitchPoint_keeps (hμ := sub_partsMask rfl) ..
  | .frameSelect .. => execFrameSelect_keeps (hμ := sub_partsMask rfl) ..
  | .claimRelease .. => execClaimRelease_keeps (hμ := sub_partsMask rfl) ..
  | .audioLatch .. => execAudioLatch_keeps (hμ := sub_partsMask rfl) ..
  | .takeAck .. => execTakeAck_keeps (hμ := sub_partsMask rfl) ..
  | .takeAckDeadline .. => execTakeAckDeadline_keeps (hμ := sub_partsMask rfl) ..
  | .routeTableParity .. => execRouteTableParity_keeps (hμ := sub_partsMask rfl) ..
  | .outputFrameStart .. => execOutputFrameStart_keeps (hμ := sub_partsMask rfl) ..
  | .signalPresence .. => execSignalPresence_keeps (hμ := sub_partsMask rfl) ..
  | .signalAbsence .. => execSignalAbsence_keeps (hμ := sub_partsMask rfl) ..
  | .rateAttempt .. => execRateAttempt_keeps (hμ := sub_partsMask rfl) ..
  | .cdrLock .. => execCdrLock_keeps (hμ := sub_partsMask rfl) ..
  | .trsAlignment .. => execTrsAlignment_keeps (hμ := sub_partsMask rfl) ..
  | .trsSearchTimeout .. => execTrsSearchTimeout_keeps (hμ := sub_partsMask rfl) ..
  | .cdrLockLoss .. => execCdrLockLoss_keeps (hμ := sub_partsMask rfl) ..
  | .sdiLine .. => execSdiLine_keeps (hμ := sub_partsMask rfl) ..
  | .sdiFrame .. => execSdiFrame_keeps (hμ := sub_partsMask rfl) ..
  | .lockTimeout .. => execLockTimeout_keeps (hμ := sub_partsMask rfl) ..
  | .audioGroupAbsence .. => execAudioGroupAbsence_keeps (hμ := sub_partsMask rfl) ..
  | .sdiTxFault .. => execSdiTxFault_keeps (hμ := sub_partsMask rfl) ..
  | .subportTrained .. => execSubportTrained_keeps (hμ := sub_partsMask rfl) ..
  | .subportLinkLoss .. => execSubportLinkLoss_keeps (hμ := sub_partsMask rfl) ..
  | .frameReceived .. => execFrameReceived_keeps (hμ := sub_partsMask rfl) ..
  | .pauseFrame .. => execPauseFrame_keeps (hμ := sub_partsMask rfl) ..
  | .pfcFrame .. => execPfcFrame_keeps (hμ := sub_partsMask rfl) ..
  | .pauseHoldEnd .. => execPauseHoldEnd_keeps (hμ := sub_partsMask rfl) ..
  | .pauseWatchdogExpiry .. => execPauseWatchdogExpiry_keeps (hμ := sub_partsMask rfl) ..
  | .pauseIgnoreEnd .. => execPauseIgnoreEnd_keeps (hμ := sub_partsMask rfl) ..
  | .mgmtFrameSend .. => execMgmtFrameSend_keeps (hμ := sub_partsMask rfl) ..
  | .packetDeparture .. => execPacketDeparture_keeps (hμ := sub_partsMask rfl) ..
  | .flowWindow => execFlowWindow_keeps (hμ := sub_partsMask rfl) ..
  | .absentTimeout .. => execAbsentTimeout_keeps (hμ := sub_partsMask rfl) ..
  | .membershipReport .. => execMembershipReport_keeps (hμ := sub_partsMask rfl) ..
  | .query .. => execQuery_keeps (hμ := sub_partsMask rfl) ..
  | .querierTimeout .. => execQuerierTimeout_keeps (hμ := sub_partsMask rfl) ..
  | .flowTableCorrected .. => execFlowTableCorrected_keeps (hμ := sub_partsMask rfl) ..
  | .flowTableUncorr .. => execFlowTableUncorr_keeps (hμ := sub_partsMask rfl) ..
  | .audioTileTimeout .. => execAudioTileTimeout_keeps (hμ := sub_partsMask rfl) ..
  | .mergeDecision .. => execMergeDecision_keeps (hμ := sub_partsMask rfl) ..
  | .composerLatch .. => execComposerLatch_keeps (hμ := sub_partsMask rfl) ..
  | .composerFrameStart .. => execComposerFrameStart_keeps (hμ := sub_partsMask rfl) ..
  | .compLutParity .. => execCompLutParity_keeps (hμ := sub_partsMask rfl) ..
  | .calliopeTick => execCalliopeTick_keeps (hμ := sub_partsMask rfl) ..
  | .audioReaderTile .. => execAudioReaderTile_keeps (hμ := sub_partsMask rfl) ..
  | .tapCrossfadeEnd .. => execTapCrossfadeEnd_keeps (hμ := sub_partsMask rfl) ..
  | .calCoeffParity .. => execCalCoeffParity_keeps (hμ := sub_partsMask rfl) ..
  | .refEvaluation .. => execRefEvaluation_keeps (hμ := sub_partsMask rfl) ..
  | .activityLoss .. => execActivityLoss_keeps (hμ := sub_partsMask rfl) ..
  | .settleExpiry .. => execSettleExpiry_keeps (hμ := sub_partsMask rfl) ..
  | .wtrExpiry .. => execWtrExpiry_keeps (hμ := sub_partsMask rfl) ..
  | .acquisitionStage => execAcquisitionStage_keeps (hμ := sub_partsMask rfl) ..
  | .holdLimitExpiry => execHoldLimitExpiry_keeps (hμ := sub_partsMask rfl) ..
  | .planeFrameStart .. => execPlaneFrameStart_keeps (hμ := sub_partsMask rfl) ..
  | .slewComplete .. => execSlewComplete_keeps (hμ := sub_partsMask rfl) ..
  | .analogSyncFrame .. => execAnalogSyncFrame_keeps (hμ := sub_partsMask rfl) ..
  | .refPllFault => execRefPllFault_keeps (hμ := sub_partsMask rfl) ..
  | .sync .. => execSync_keeps (hμ := sub_partsMask rfl) ..
  | .followUp .. => execFollowUp_keeps (hμ := sub_partsMask rfl) ..
  | .followUpTimeout .. => execFollowUpTimeout_keeps (hμ := sub_partsMask rfl) ..
  | .announce .. => execAnnounce_keeps (hμ := sub_partsMask rfl) ..
  | .delayResp .. => execDelayResp_keeps (hμ := sub_partsMask rfl) ..
  | .delayReq .. => execDelayReq_keeps (hμ := sub_partsMask rfl) ..
  | .pdelayReq .. => execPdelayReq_keeps (hμ := sub_partsMask rfl) ..
  | .pdelayResp .. => execPdelayResp_keeps (hμ := sub_partsMask rfl) ..
  | .pdelayRespFollowUp .. => execPdelayRespFollowUp_keeps (hμ := sub_partsMask rfl) ..
  | .ptpManagementMessage .. => execPtpManagementMessage_keeps (hμ := sub_partsMask rfl) ..
  | .announceTimeout .. => execAnnounceTimeout_keeps (hμ := sub_partsMask rfl) ..
  | .syncTimeout .. => execSyncTimeout_keeps (hμ := sub_partsMask rfl) ..
  | .engineTimeReading => execEngineTimeReading_keeps (hμ := sub_partsMask rfl) ..
  | .rtcUpdate => execRtcUpdate_keeps (hμ := sub_partsMask rfl) ..
  | .ptpClockFault => execPtpClockFault_keeps (hμ := sub_partsMask rfl) ..
  | .linkDetect .. => execLinkDetect_keeps (hμ := sub_partsMask rfl) ..
  | .capability .. => execCapability_keeps (hμ := sub_partsMask rfl) ..
  | .bringupDecision .. => execBringupDecision_keeps (hμ := sub_partsMask rfl) ..
  | .rateStep .. => execRateStep_keeps (hμ := sub_partsMask rfl) ..
  | .senseAdapt .. => execSenseAdapt_keeps (hμ := sub_partsMask rfl) ..
  | .linkAlign .. => execLinkAlign_keeps (hμ := sub_partsMask rfl) ..
  | .linkRetry .. => execLinkRetry_keeps (hμ := sub_partsMask rfl) ..
  | .laneMarker .. => execLaneMarker_keeps (hμ := sub_partsMask rfl) ..
  | .laneDrop .. => execLaneDrop_keeps (hμ := sub_partsMask rfl) ..
  | .spareLaneTrained .. => execSpareLaneTrained_keeps (hμ := sub_partsMask rfl) ..
  | .electricalIdle .. => execElectricalIdle_keeps (hμ := sub_partsMask rfl) ..
  | .eyeUpdate .. => execEyeUpdate_keeps (hμ := sub_partsMask rfl) ..
  | .importTile .. => execImportTile_keeps (hμ := sub_partsMask rfl) ..
  | .abandon .. => execAbandon_keeps (hμ := sub_partsMask rfl) ..
  | .timeCell .. => execTimeCell_keeps (hμ := sub_partsMask rfl) ..
  | .timeCellSend .. => execTimeCellSend_keeps (hμ := sub_partsMask rfl) ..
  | .bootImageRequest .. => execBootImageRequest_keeps (hμ := sub_partsMask rfl) ..
  | .roleChoice => execRoleChoice_keeps (hμ := sub_partsMask rfl) ..
  | .heartbeatSend => execHeartbeatSend_keeps (hμ := sub_partsMask rfl) ..
  | .heartbeat .. => execHeartbeat_keeps (hμ := sub_partsMask rfl) ..
  | .pathSilence .. => execPathSilence_keeps (hμ := sub_partsMask rfl) ..
  | .twinOnairInFall => execTwinOnairInFall_keeps (hμ := sub_partsMask rfl) ..
  | .onairConfirmExpiry => execOnairConfirmExpiry_keeps (hμ := sub_partsMask rfl) ..
  | .takeoverPoint => execTakeoverPoint_keeps (hμ := sub_partsMask rfl) ..
  | .mirror .. => execMirror_keeps (hμ := sub_partsMask rfl) ..
  | .mirrorAck .. => execMirrorAck_keeps (hμ := sub_partsMask rfl) ..
  | .mirrorApply => execMirrorApply_keeps (hμ := sub_partsMask rfl) ..
  | .mirrorAckTimeout => execMirrorAckTimeout_keeps (hμ := sub_partsMask rfl) ..
  | .digestSend => execDigestSend_keeps (hμ := sub_partsMask rfl) ..
  | .digest .. => execDigest_keeps (hμ := sub_partsMask rfl) ..
  | .digestMissing .. => execDigestMissing_keeps (hμ := sub_partsMask rfl) ..
  | .resyncStart => execResyncStart_keeps (hμ := sub_partsMask rfl) ..
  | .resyncPoint .. => execResyncPoint_keeps (hμ := sub_partsMask rfl) ..
  | .resyncTimeout => execResyncTimeout_keeps (hμ := sub_partsMask rfl) ..
  | .hostLinkChange .. => execHostLinkChange_keeps (hμ := sub_partsMask rfl) ..
  | .pcieReset => execPcieReset_keeps (hμ := sub_partsMask rfl) ..
  | .recordWrite .. => execRecordWrite_keeps (hμ := sub_partsMask rfl) ..
  | .fatalFaultReset => execFatalFaultReset_keeps (hμ := sub_partsMask rfl) ..
  | .collectorParity => execCollectorParity_keeps (hμ := sub_partsMask rfl) ..
  | .mramCorrected .. => execMramCorrected_keeps (hμ := sub_partsMask rfl) ..
  | .mramUncorr .. => execMramUncorr_keeps (hμ := sub_partsMask rfl) ..
  | .sramCorrected => execSramCorrected_keeps (hμ := sub_partsMask rfl) ..
  | .sramUncorr => execSramUncorr_keeps (hμ := sub_partsMask rfl) ..
  | .supplyWarn .. => execSupplyWarn_keeps (hμ := sub_partsMask rfl) ..
  | .supplyFail .. => execSupplyFail_keeps (hμ := sub_partsMask rfl) ..
  | .skewSample .. => execSkewSample_keeps (hμ := sub_partsMask rfl) ..
  | .thermalOver .. => execThermalOver_keeps (hμ := sub_partsMask rfl) ..
  | .thermalTrip .. => execThermalTrip_keeps (hμ := sub_partsMask rfl) ..
  | .qpllUnlock .. => execQpllUnlock_keeps (hμ := sub_partsMask rfl) ..
  | .vbakLow => execVbakLow_keeps (hμ := sub_partsMask rfl) ..
  | .rmWatchdog => execRmWatchdog_keeps (hμ := sub_partsMask rfl) ..
  | .ringmasterRestart => execRingmasterRestart_keeps (hμ := sub_partsMask rfl) ..
  | .imageCheck .. => execImageCheck_keeps (hμ := sub_partsMask rfl) ..
  | .firmwareStart .. => execFirmwareStart_keeps (hμ := sub_partsMask rfl) ..
  | .budgetRebuild => execBudgetRebuild_keeps (hμ := sub_partsMask rfl) ..
  | .softwareReset => execSoftwareReset_keeps (hμ := sub_partsMask rfl) ..
  | .watchEntry => execWatchEntry_keeps (hμ := sub_partsMask rfl) ..
  | .powerOn => execPowerOn_keeps (hμ := sub_partsMask rfl) ..
  | .vauxLoss => execVauxLoss_keeps (hμ := sub_partsMask rfl) ..
  | .vbakLoss => execVbakLoss_keeps (hμ := sub_partsMask rfl) ..
  | .resetN => execResetN_keeps (hμ := sub_partsMask rfl) ..
  | .resetNRise => execResetNRise_keeps (hμ := sub_partsMask rfl) ..
  | .strapSampling .. => execStrapSampling_keeps (hμ := sub_partsMask rfl) ..
  | .trimLoad .. => execTrimLoad_keeps (hμ := sub_partsMask rfl) ..
  | .releaseStep => execReleaseStep_keeps (hμ := sub_partsMask rfl) ..
  | .wakeStart .. => execWakeStart_keeps (hμ := sub_partsMask rfl) ..
  | .bootPeerRetry => execBootPeerRetry_keeps (hμ := sub_partsMask rfl) ..
  | .blockResetRelease .. => execBlockResetRelease_keeps (hμ := sub_partsMask rfl) ..
  | .undefinedOpcode .. => execUndefinedOpcode_keeps (hμ := sub_partsMask rfl) ..
  | .pulseInputEdge .. => execPulseInputEdge_keeps (hμ := sub_partsMask rfl) ..
  | .pulseOutputEdge .. => execPulseOutputEdge_keeps (hμ := sub_partsMask rfl) ..
  | .twinOnairInRise => execTwinOnairInRise_keeps (hμ := sub_partsMask rfl) ..
  | .supplyReturn _ _ mv => execSupplyReturn_keeps (_mv := mv) (hμ := sub_partsMask rfl) ..
  | .temperatureTripRearm .. => execTemperatureTripRearm_keeps (hμ := sub_partsMask rfl) ..
  | .quadrantPllLock => execQuadrantPllLock_keeps (hμ := sub_partsMask rfl) ..
  | .memoryTestComplete .. => execMemoryTestComplete_keeps (hμ := sub_partsMask rfl) ..
  | .shadowCheckComplete .. => execShadowCheckComplete_keeps (hμ := sub_partsMask rfl) ..
  | .checkerLock .. => execCheckerLock_keeps (hμ := sub_partsMask rfl) ..

/-- Settles O4: each command's `keeps` lemma has a mask within its row of `writes`, and what a mask shows is the same. -/
theorem commandsChangeOnlyTheirParts : Obligations.CommandsChangeOnlyTheirParts := by
  intro i s t h p hp
  refine Part.same_of_kept ((exec_keeps i s).next h) p ?_
  rwa [Bool.eq_false_iff, Ne, testBit_partsMask]

end Sys2Proof.Machine
end

section
/-! PROOFS. The Port Privilege Table (R383, R384): the bits no write changes stay as they are through every operation that writes the
table, and every reset restores them. -/

set_option Elab.async false

namespace Sys2Proof.Machine

open Sys2Proof

/-! ### The table, and one entry written -/

/-- The Port Privilege Table obeys R384 and is in canonical form. -/
structure PrivTab (t : Tab (BitVec 64)) : Prop where
  wf : Tab.wf privReset t = true
  bit : ∀ p : Port, maskBit (fget (tget privReset t (portIndex p)) Priv.groups) 2 = true ↔ p = .p0
  p0 : fbit (tget privReset t 0) Priv.portEn = true
  p4 : fbit (tget privReset t 4) Priv.portEn = Config.debugFuse

theorem privInv_iff (s : State) : PrivInv s ↔ PrivTab s.ctl.priv :=
  ⟨fun ⟨h1, h2, h3, h4⟩ => ⟨h1, h2, h3, h4⟩, fun h => ⟨h.wf, h.bit, h.p0, h.p4⟩⟩

theorem privTab_reset : PrivTab [] := by
  refine ⟨rfl, fun p => ?_, rfl, ?_⟩
  · cases p with
    | p4 => simp only [tget, privReset, portIndex]; split <;> decide
    | _ => decide
  · simp only [tget, privReset]
    split
    · next h => rw [h]; decide
    · next h => rw [Bool.eq_false_iff.2 h]; decide

/-- The bits of the entry of port `p` that no write changes are in `new` as in `old` (R384). -/
structure FixedBits (p : Nat) (old new : BitVec 64) : Prop where
  priv : maskBit (fget new Priv.groups) 2 = maskBit (fget old Priv.groups) 2
  portEn : p = 0 ∨ p = 4 → fget new Priv.portEn = fget old Priv.portEn

theorem PrivTab.set {t : Tab (BitVec 64)} {p : Nat} {w : BitVec 64} (h : PrivTab t) (hw : FixedBits p (tget privReset t p) w) :
    PrivTab (tset privReset t p w) := by
  have hen {n : Nat} (hn : n = 0 ∨ n = 4) :
      fbit (tget privReset (tset privReset t p w) n) Priv.portEn = fbit (tget privReset t n) Priv.portEn := by
    rw [tget_tset]
    split
    · next e => subst e; rw [fbit, fbit, hw.portEn hn]
    · rfl
  refine ⟨wf_tset _ _ _ _ h.wf, fun x => ?_, (hen (.inl rfl)).trans h.p0, (hen (.inr rfl)).trans h.p4⟩
  rw [← h.bit x, tget_tset]
  split
  · next e => rw [hw.priv, e]
  · rfl

theorem fget_groups_privFixed (p : Nat) (old new : BitVec 64) : fget (privFixed p old new) Priv.groups =
    fget new Priv.groups - 4 * (fget new Priv.groups / 4 % 2) + 4 * (fget old Priv.groups / 4 % 2) := by
  have hlt : fget new Priv.groups < 2 ^ 32 := fget_lt new Priv.groups
  have hg (v : Nat) (hv : v < 2 ^ 32) : fget (fput new Priv.groups v) Priv.groups = v :=
    (fget_fput new Priv.groups v (by decide)).trans (Nat.mod_eq_of_lt hv)
  unfold privFixed
  dsimp only
  split
  · rw [fget_fput_of_disjoint _ _ _ _ (by decide) (by decide), hg _ (by omega)]
  · exact hg _ (by omega)

/-- What PRIV_WRITE and a register write put into an entry keeps the fixed bits. -/
theorem privFixed_fixedBits (p : Nat) (old new : BitVec 64) : FixedBits p old (privFixed p old new) := by
  constructor
  · rw [fget_groups_privFixed]
    simp only [maskBit, beq_eq_beq]
    omega
  · intro h
    have hw : fget old Priv.portEn < 2 ^ 1 := fget_lt old Priv.portEn
    have hp : (decide (p = 0) || decide (p = 4)) = true := by simpa using h
    simp only [privFixed]
    rw [if_pos hp, fget_fput _ _ _ (by decide)]
    exact Nat.mod_eq_of_lt hw

/-- Reserved bits cleared leave the fixed ones. -/
theorem FixedBits.clearReserved {p : Nat} {old new : BitVec 64} (h : FixedBits p old new) :
    FixedBits p old (fput new Priv.groups (fget new Priv.groups / 2 % 2 ^ 17 * 2)) := by
  constructor
  · rw [← h.priv, fget_fput _ _ _ (by decide)]
    have hw : Priv.groups.width = 32 := rfl
    simp only [maskBit, beq_eq_beq, hw]
    omega
  · intro hp
    rw [fget_fput_of_disjoint _ _ _ _ (by decide) (by decide), h.portEn hp]

theorem copyPriv_privTab {own new : Tab (BitVec 64)} (h : PrivTab own) : PrivTab (copyPriv own new) :=
  List.foldlRecOn (motive := PrivTab) _ _ h fun _ ht _ _ => ht.set (privFixed_fixedBits ..)

/-! ### States whose table obeys R384 -/

/-- What a mask shows of the Port Privilege Table obeys R384. -/
def Kept.privOk (k : Kept) : Prop := ∀ t, k.priv = some t → PrivTab t

/-- The table obeys R384. It is read through the mask that hides every other part, so that the `kept` lemmas apply as they stand. -/
@[simp] abbrev State.PrivOk (s : State) : Prop := (s.kept 0xFFFFF7).privOk

theorem State.privOk_iff (s : State) : s.PrivOk ↔ PrivTab s.ctl.priv :=
  ⟨fun h => h _ rfl, fun h _ ht => Option.some.inj ht ▸ h⟩

@[simp] theorem privOk_ite (c : Prop) [Decidable c] (a b : Kept) :
    (if c then a else b).privOk ↔ (c → a.privOk) ∧ (¬ c → b.privOk) := by
  by_cases h : c <;> simp [h]

/-- A step that goes on leaves a table that obeys R384. -/
def OutPrivOk : Out → Prop
  | .next t => t.PrivOk
  | _ => True

@[simp] theorem outPrivOk_done (t : State) : OutPrivOk (done t) ↔ t.PrivOk := Iff.rfl

@[simp] theorem outPrivOk_ite (c : Prop) [Decidable c] (a b : Out) :
    OutPrivOk (if c then a else b) ↔ (c → OutPrivOk a) ∧ (¬ c → OutPrivOk b) := by
  by_cases h : c <;> simp [h]

theorem outPrivOk_checked {b : Bool} {o : Out} (h : OutPrivOk o) : OutPrivOk (checked b o) := by
  cases b with
  | false => trivial
  | true => exact h

theorem privOk_of_kept {s t : State} (e : t.kept 0xFFFFF7 = s.kept 0xFFFFF7) (h : s.PrivOk) : t.PrivOk := by
  rw [State.PrivOk, e]
  exact h

/-- An accepted command leaves a table that obeys R384. -/
def OkPrivOk (r : Except Err Ans) : Prop := ∀ a, r = .ok a → a.state.PrivOk

theorem OkKept.privOk {s : State} {r : Except Err Ans} (e : OkKept 0xFFFFF7 (s.kept 0xFFFFF7) Ans.state r) (h : s.PrivOk) : OkPrivOk r :=
  fun a ha => privOk_of_kept (e.out a ha) h

/-! ### Serving -/

section
variable {op : Nat} {q : Req} {s : State} {peers : List PeerAnswer} {body : Req → State → Except Err Ans}

theorem run_privOk (h : s.PrivOk) (hb : ∀ {s : State}, s.PrivOk → OkPrivOk (body q s)) : (run op body q s peers).PrivOk := by
  have ht : (takeUp q s).PrivOk := privOk_of_kept (takeUp_kept ..) h
  refine privOk_of_kept (dequeue_kept ..) ?_
  split
  · simp [h]
  · split
    · simp [h]
    · next a ha =>
      have h1 : a.state.PrivOk := hb ht a ha
      split
      · refine privOk_of_kept ((State.sendMessage_kept ..).trans ((State.kept_onCtl _ _ rfl).trans (State.kept_onTwin ..))) ?_
        split
        · exact h1
        · exact ht
      · exact privOk_of_kept (settle_kept ..) h1

theorem runRescue_privOk (h : s.PrivOk) (hb : ∀ {s : State}, s.PrivOk → OkPrivOk (body q s)) : (runRescue op body q s).PrivOk := by
  have ht : (takeUp q s).PrivOk := privOk_of_kept (takeUp_kept ..) h
  refine privOk_of_kept (dequeue_kept ..) ?_
  split
  · simp [h]
  · split
    · simp [h]
    · split
      · simp [h]
      · next a ha => exact privOk_of_kept (settle_kept ..) (hb ht a ha)

/-- A served command leaves a table that obeys R384 where its body does. -/
theorem serveAns_privOk (h : s.PrivOk) (hb : ∀ {s : State}, s.PrivOk → OkPrivOk (body q s)) : OutPrivOk (serveAns op body q s peers) := by
  have hf : s.fresh.PrivOk := privOk_of_kept (State.kept_fresh ..) h
  unfold serveAns
  refine outPrivOk_checked ?_
  rw [outPrivOk_done]
  split
  · split
    · exact run_privOk hf hb
    · simp [h]
  · split
    · exact runRescue_privOk hf hb
    · exact hf
  · split
    · exact runRescue_privOk hf hb
    · exact hf
  · split <;> simp [h]

end

/-- Every opcode but PRIV_WRITE leaves the table as it is. -/
theorem runOpcode_ok_of_ne {op : Nat} (h : op ≠ 0x0201) (q : Req) (s : State) (peers : List PeerAnswer) :
    OkKept 0x7FFEF7 (s.kept 0x7FFEF7) Ans.state (runOpcode op q s peers) := by
  unfold runOpcode
  split
  · exact atOnce_ok _ _ _ (cmdSessionInfo_ok ..)
  · exact atOnce_ok _ _ _ (cmdSessionOpen_ok ..)
  · exact atOnce_ok _ _ _ (cmdSessionClose_ok ..)
  · exact atOnce_ok _ _ _ (cmdPowerSet_ok ..)
  · exact cmdProfileSet_ok ..
  · exact atOnce_ok _ _ _ (cmdBudgetQuery_ok ..)
  · exact atOnce_ok _ _ _ (cmdSessionReset_ok ..)
  · exact atOnce_ok _ _ _ (cmdPrivRead_ok ..)
  · exact absurd rfl h
  · exact atOnce_ok _ _ _ (cmdRingCreate_ok ..)
  · exact atOnce_ok _ _ _ (cmdRingDelete_ok ..)
  · exact atOnce_ok _ _ _ (cmdRingModify_ok ..)
  · exact atOnce_ok _ _ _ (cmdRingQuery_ok ..)
  · exact atOnce_ok _ _ _ (cmdMemStatus_ok ..)
  · exact atOnce_ok _ _ _ (cmdFlowInsert_ok ..)
  · exact atOnce_ok _ _ _ (cmdFlowModify_ok ..)
  · exact atOnce_ok _ _ _ (cmdFlowDelete_ok ..)
  · exact atOnce_ok _ _ _ (cmdFlowStatus_ok ..)
  · exact atOnce_ok _ _ _ (cmdIngestWrite_ok ..)
  · exact atOnce_ok _ _ _ (cmdMergeWrite_ok ..)
  · exact atOnce_ok _ _ _ (cmdMergeStatus_ok ..)
  · exact atOnce_ok _ _ _ (cmdHostqBind_ok ..)
  · exact atOnce_ok _ _ _ (cmdHostqUnbind_ok ..)
  · exact cmdHostInsert_ok ..
  · exact atOnce_ok _ _ _ (cmdCaptureFrames_ok ..)
  · exact atOnce_ok _ _ _ (cmdPlaneWrite_ok ..)
  · exact atOnce_ok _ _ _ (cmdPulseWrite_ok ..)
  · exact atOnce_ok _ _ _ (cmdClockWrite_ok ..)
  · exact atOnce_ok _ _ _ (cmdPlaneRead_ok ..)
  · exact atOnce_ok _ _ _ (cmdRouteWrite_ok ..)
  · exact atOnce_ok _ _ _ (cmdRouteRead_ok ..)
  · exact atOnce_ok _ _ _ (cmdRouteStatus_ok ..)
  · exact atOnce_ok _ _ _ (cmdSalvoAdd_ok ..)
  · exact atOnce_ok _ _ _ (cmdSalvoAdmit_ok ..)
  · exact cmdSalvoTake_ok ..
  · exact atOnce_ok _ _ _ (cmdSalvoAbandon_ok ..)
  · exact atOnce_ok _ _ _ (cmdSalvoQuery_ok ..)
  · exact atOnce_ok _ _ _ (cmdSalvoEntries_ok ..)
  · exact atOnce_ok _ _ _ (cmdPresetStore_ok ..)
  · exact atOnce_ok _ _ _ (cmdPresetLoad_ok ..)
  · exact atOnce_ok _ _ _ (cmdPresetDelete_ok ..)
  · exact atOnce_ok _ _ _ (cmdPresetList_ok ..)
  · exact atOnce_ok _ _ _ (cmdCompOutWrite_ok ..)
  · exact atOnce_ok _ _ _ (cmdCompLayerWrite_ok ..)
  · exact atOnce_ok _ _ _ (cmdCompMatrixWrite_ok ..)
  · exact atOnce_ok _ _ _ (cmdCompCursorWrite_ok ..)
  · exact cmdCompLoad_ok ..
  · exact atOnce_ok _ _ _ (cmdCompRead_ok ..)
  · exact atOnce_ok _ _ _ (cmdCompLayerRead_ok ..)
  · exact atOnce_ok _ _ _ (cmdCalWrite_ok ..)
  · exact atOnce_ok _ _ _ (cmdAudInWrite_ok ..)
  · exact atOnce_ok _ _ _ (cmdAudOutWrite_ok ..)
  · exact atOnce_ok _ _ _ (cmdAudBusWrite_ok ..)
  · exact atOnce_ok _ _ _ (cmdAudBusInputs_ok ..)
  · exact atOnce_ok _ _ _ (cmdAudDynWrite_ok ..)
  · exact atOnce_ok _ _ _ (cmdAudRead_ok ..)
  · exact atOnce_ok _ _ _ (cmdCandWrite_ok ..)
  · exact atOnce_ok _ _ _ (cmdRefWrite_ok ..)
  · exact atOnce_ok _ _ _ (cmdRefRead_ok ..)
  · exact atOnce_ok _ _ _ (cmdPhaseReset_ok ..)
  · exact atOnce_ok _ _ _ (cmdPtpInstWrite_ok ..)
  · exact atOnce_ok _ _ _ (cmdPtpServoWrite_ok ..)
  · exact atOnce_ok _ _ _ (cmdPtpTsCorr_ok ..)
  · exact atOnce_ok _ _ _ (cmdPtpSetTime_ok ..)
  · exact atOnce_ok _ _ _ (cmdPtpRead_ok ..)
  · exact atOnce_ok _ _ _ (cmdTroupeWrite_ok ..)
  · exact atOnce_ok _ _ _ (cmdLinkWrite_ok ..)
  · exact atOnce_ok _ _ _ (cmdLaneWrite_ok ..)
  · exact atOnce_ok _ _ _ (cmdTroupeImport_ok ..)
  · exact atOnce_ok _ _ _ (cmdTroupeUnimport_ok ..)
  · exact cmdTroupeForward_ok ..
  · exact atOnce_ok _ _ _ (cmdTroupeRead_ok ..)
  · exact atOnce_ok _ _ _ (cmdTwinWrite_ok ..)
  · exact atOnce_ok _ _ _ (cmdTwinRead_ok ..)
  · exact atOnce_ok _ _ _ (cmdTwinSwap_ok ..)
  · exact atOnce_ok _ _ _ (cmdRecRead_ok ..)
  · exact atOnce_ok _ _ _ (cmdRecClear_ok ..)
  · exact atOnce_ok _ _ _ (cmdRecLimit_ok ..)
  · exact atOnce_ok _ _ _ (cmdFaultRead_ok ..)
  · exact atOnce_ok _ _ _ (cmdFaultClear_ok ..)
  · exact atOnce_ok _ _ _ (cmdFaultForce_ok ..)
  · exact atOnce_ok _ _ _ (cmdEventConfig_ok ..)
  · exact atOnce_ok _ _ _ (cmdUpdBegin_ok ..)
  · exact cmdUpdChunk_ok ..
  · exact cmdUpdEnd_ok ..
  · exact atOnce_ok _ _ _ (cmdUpdActivate_ok ..)
  · exact atOnce_ok _ _ _ (cmdUpdQuery_ok ..)
  · exact atOnce_ok _ _ _ (cmdTestGen_ok ..)
  · exact atOnce_ok _ _ _ (cmdTestCheck_ok ..)
  · exact atOnce_ok _ _ _ (cmdTestLoop_ok ..)
  · exact atOnce_ok _ _ _ (cmdTestResult_ok ..)
  · exact cmdTestMem_ok ..
  · exact cmdTestShadow_ok ..
  · exact atOnce_ok _ _ _ (cmdSdiWrite_ok ..)
  · exact atOnce_ok _ _ _ (cmdEthWrite_ok ..)
  · exact atOnce_ok _ _ _ (cmdEthAddrWrite_ok ..)
  · exact atOnce_ok _ _ _ (cmdPktFlowWrite_ok ..)
  · exact atOnce_ok _ _ _ (cmdSbWrite_ok ..)
  · exact atOnce_ok _ _ _ (cmdPortSnapshot_ok ..)
  · exact atOnce_ok _ _ _ (cmdPortRead_ok ..)
  · exact atOnce_ok _ _ _ (cmdPktOutWrite_ok ..)
  · exact OkKept.error _

section
variable {s : State} (h : s.PrivOk)
include h

/-! ### Commands and registers that write the table -/

@[simp] theorem State.setPriv_privOk {p : Nat} {w : BitVec 64} (hw : FixedBits p (tget privReset s.ctl.priv p) w) : (s.setPriv p w).PrivOk :=
  (State.privOk_iff _).2 (((State.privOk_iff s).1 h).set hw)

omit h in
/-- A check of PRIV_WRITE that passes gives an entry with its fixed bits as they were. -/
theorem privWriteCheck_fixedBits {q : Req} {p : Nat} {w : BitVec 64} (hc : privWriteCheck q s = .ok (p, w)) :
    FixedBits p (tget privReset s.ctl.priv p) w := by
  simp only [privWriteCheck, ok_bind_iff, pure_eq_ok, Prod.mk.injEq] at hc
  obtain ⟨_, -, _, -, _, -, _, -, _, -, rfl, rfl⟩ := hc
  exact privFixed_fixedBits ..

theorem cmdPrivWrite_privOk (q : Req) : OkPrivOk (atOnce cmdPrivWrite q s) := by
  intro a ha
  unfold atOnce cmdPrivWrite at ha
  cases hc : privWriteCheck q s with
  | error e => rw [hc] at ha; cases ha
  | ok x =>
    rw [hc] at ha
    cases ha
    exact State.setPriv_privOk h (privWriteCheck_fixedBits hc)

@[simp] theorem State.privWord_privOk (p j : Nat) (v : BitVec 32) : (s.privWord p j v).PrivOk :=
  State.setPriv_privOk h (privFixed_fixedBits ..).clearReserved

theorem runOpcode_privOk (op : Nat) (q : Req) (peers : List PeerAnswer) : OkPrivOk (runOpcode op q s peers) := by
  by_cases hop : op = 0x0201
  · subst hop
    exact cmdPrivWrite_privOk h q
  · exact ((runOpcode_ok_of_ne hop q s peers).mono (by decide)).privOk h

/-! ### Resets -/

omit h in
@[simp] theorem State.cleared_privOk : s.cleared.PrivOk := (State.privOk_iff _).2 privTab_reset

omit h in
@[simp] theorem State.startRelease_privOk (straps wake) : (s.startRelease straps wake).PrivOk := by simp [State.startRelease]

omit h in
@[simp] theorem State.fullReset_privOk (c) : (s.fullReset c).PrivOk := by simp [State.fullReset]

omit h in
@[simp] theorem State.toWatch_privOk : s.toWatch.PrivOk := by simp [State.toWatch]

omit h in
@[simp] theorem State.wakeNow_privOk (code) : (s.wakeNow code).PrivOk := by simp [State.wakeNow]

@[simp] theorem State.tryWake_privOk : s.tryWake.PrivOk := by
  unfold State.tryWake
  split <;> simp [h]

/-- A change of the power state that keeps the card's kind leaves the table. -/
theorem State.onPwr_privOk {f : PwrSt → PwrSt} (hr : (f s.pwr).reduced = s.pwr.reduced) : (s.onPwr f).PrivOk :=
  privOk_of_kept (State.kept_onPwr f s hr) h

omit h in
theorem execPowerOn_privOk : OutPrivOk (execPowerOn s) := State.fullReset_privOk .por

theorem execResetN_privOk : OutPrivOk (execResetN s) := by
  unfold execResetN
  extract_lets s0 s1
  have h0 : s0.PrivOk := by simp [s0, h]
  have h1 : s1.PrivOk := by simp [s1, h0]
  simp [h0, h1]

theorem execSoftwareReset_privOk : OutPrivOk (execSoftwareReset s) := by
  unfold execSoftwareReset
  extract_lets s0
  have h0 : s0.PrivOk := by simp [s0, h]
  split
  · simp
  · simp
  · exact h0

theorem execFullRst_privOk (v) : OutPrivOk (execFullRst v s) := by simp [execFullRst, h]

theorem execFatalFaultReset_privOk : OutPrivOk (execFatalFaultReset s) := by simp [execFatalFaultReset, h]

theorem execWatchEntry_privOk : OutPrivOk (execWatchEntry s) := by
  unfold execWatchEntry
  extract_lets s0
  have h0 : s0.PrivOk := by simp [s0, h]
  split
  · simp [h0]
  · exact h0

omit h in
theorem execVauxLoss_privOk : OutPrivOk (execVauxLoss s) := State.onPwr_privOk State.cleared_privOk rfl

theorem execWakeStart_privOk (source) : OutPrivOk (execWakeStart source s) := by
  unfold execWakeStart
  extract_lets s0 c
  have h0 : s0.PrivOk := by simp [s0, h]
  simp [h0]

theorem execThermalTrip_privOk (quad degrees) : OutPrivOk (execThermalTrip quad degrees s) := by
  unfold execThermalTrip
  extract_lets s0 s1 ev s2
  have h0 : s0.PrivOk := by simp [s0, h]
  have h1 : s1.PrivOk := State.onPwr_privOk h0 (syncTrips_reduced _)
  split
  · exact h0
  split
  · exact h1
  · exact State.onPwr_privOk State.toWatch_privOk rfl

theorem execTemperatureTripRearm_privOk (quad) : OutPrivOk (execTemperatureTripRearm quad s) := by
  unfold execTemperatureTripRearm
  extract_lets s0 s1 s2 s3
  have h0 : s0.PrivOk := by simp [s0, h]
  have h1 : s1.PrivOk := State.onPwr_privOk h0 (syncTrips_reduced _)
  have h2 : s2.PrivOk := by simp [s2, h1]
  have h3 : s3.PrivOk := by simp [s3, h2]
  split
  · exact h1
  · simp [h3]

/-! ### Register writes -/

@[simp] theorem State.regWord_privOk (off v) : (s.regWord off v).PrivOk := by simp [State.regWord, h]

@[simp] theorem State.regWrite_privOk (off wide v) : (s.regWrite off wide v).PrivOk := by simp [State.regWrite, h]

theorem execRegisterWrite_privOk (off wide v) : OutPrivOk (execRegisterWrite off wide v s) := by
  simp [execRegisterWrite, State.hostAccess, h]

/-! ### Commands run for a peer, and the resynchronisation -/

theorem execForwardedCommand_privOk (opcode q) : OutPrivOk (execForwardedCommand opcode q s) := by
  unfold execForwardedCommand
  refine outPrivOk_checked ?_
  split
  · simp [h]
  · exact serveAns_privOk h fun h => runOpcode_privOk h _ _ _

theorem State.runMirror_privOk (m) : OkPrivOk (s.runMirror m) :=
  runOpcode_privOk (s := s.onCtl _) (privOk_of_kept (State.kept_onCtl _ _ rfl) h) _ _ _

theorem ansState_privOk {r : Except Err Ans} (hr : OkPrivOk r) : (ansState s r).PrivOk := by
  cases r with
  | ok a => exact privOk_of_kept (State.unstamp_kept ..) (hr a rfl)
  | error e => exact privOk_of_kept (State.raiseErr_kept ..) h

theorem execMirror_privOk (mseq opcode q status target) : OutPrivOk (execMirror mseq opcode q status target s) := by
  have hf : s.fresh.PrivOk := by simp [h]
  unfold execMirror
  refine outPrivOk_checked ?_
  have ht (m) : (s.fresh.takeMirror m status.toNat).PrivOk := by
    unfold State.takeMirror
    extract_lets r st s1 s2
    have h1 : s1.PrivOk := by simp [s1, h, ansState_privOk hf (State.runMirror_privOk hf m), r]
    simp [s2, h1]
  simp [h, ht]

theorem execMirrorApply_privOk : OutPrivOk (execMirrorApply s) := by
  unfold execMirrorApply
  extract_lets s0
  have h0 : s0.PrivOk := by simp [s0, h]
  split
  · exact h0
  · next m _ _ => simp [h0, ansState_privOk h0 (State.runMirror_privOk h0 m)]

@[simp] theorem State.copyTroupe_privOk (c) : (s.copyTroupe c).PrivOk :=
  (State.privOk_iff _).2 (copyPriv_privTab ((State.privOk_iff s).1 h))

theorem execResyncPoint_privOk (copy) : OutPrivOk (execResyncPoint copy s) := by
  unfold execResyncPoint
  dsimp only
  split
  · simp [State.takeCopy, h]
  · split <;> simp [h]
  · simp [h]

end

/-! ### Every step -/

/-- A command whose row of `writes` does not list the table leaves it; the others keep the bits R384 fixes. -/
theorem exec_privOk {s : State} (h : s.PrivOk) (i : Instr) : OutPrivOk (exec i s) := by
  by_cases hp : (writes i).contains .priv = true
  · cases i with
    | privWrite q => exact serveAns_privOk h fun h => cmdPrivWrite_privOk h q
    | fullRst v => exact execFullRst_privOk h v
    | fatalFaultReset => exact execFatalFaultReset_privOk h
    | thermalTrip quad degrees => exact execThermalTrip_privOk h quad degrees
    | softwareReset => exact execSoftwareReset_privOk h
    | watchEntry => exact execWatchEntry_privOk h
    | powerOn => exact execPowerOn_privOk
    | vauxLoss => exact execVauxLoss_privOk
    | resetN => exact execResetN_privOk h
    | wakeStart source => exact execWakeStart_privOk h source
    | temperatureTripRearm quad => exact execTemperatureTripRearm_privOk h quad
    | registerWrite off wide v => exact execRegisterWrite_privOk h off wide v
    | forwardedCommand opcode q => exact execForwardedCommand_privOk h opcode q
    | mirror mseq opcode q status target => exact execMirror_privOk h mseq opcode q status target
    | mirrorApply => exact execMirrorApply_privOk h
    | resyncPoint copy => exact execResyncPoint_privOk h copy
    | _ => exact absurd hp Bool.false_ne_true
  · cases ho : exec i s with
    | next t =>
      have hsame : t.ctl.priv = s.ctl.priv :=
        commandsChangeOnlyTheirParts i s t ho .priv fun hm => hp (List.contains_iff_mem.2 hm)
      exact (State.privOk_iff t).2 (hsame ▸ (State.privOk_iff s).1 h)
    | fault r => trivial
    | refused r => trivial

/-- Settles O7: a command that does not write the table leaves it, every write of an entry keeps its fixed bits, and a reset restores them. -/
theorem everyStepKeepsPrivTableRules : Obligations.EveryStepKeepsPrivTableRules := by
  intro s t h ht
  have hs : s.PrivOk := (State.privOk_iff s).2 ((privInv_iff s).1 h)
  have hn : OutPrivOk (step s) := by
    unfold step
    split
    · next c rest _ =>
      have hq : { s with pending := rest }.PrivOk := hs
      exact exec_privOk hq c
    · exact privOk_of_kept (tick_kept ..) hs
  rw [ht] at hn
  exact (privInv_iff t).2 ((State.privOk_iff t).1 hn)

/-- Settles O6: at reset the table lists nothing, so that every entry has its reset value, and so does the Tile Store. -/
theorem resetKeepsPrivRules : Obligations.ResetKeepsPrivRules := ⟨(privInv_iff _).2 privTab_reset, reset_memWf⟩

end Sys2Proof.Machine
end

section
/-! PROOFS. How requests are served (R382 to R390, R396, R402, R403, R493): every host command is one call of `serveAns`, whose refusals
follow the order of the checks; and what a step runs. -/

set_option Elab.async false

namespace Sys2Proof.Machine

open Sys2Proof

/-! ### The queue of commands -/

/-- Settles O1: both clauses are the first branch of `step`, on the two queues. -/
theorem stepRunsFrontOfQueue : Obligations.StepRunsFrontOfQueue := by
  refine ⟨fun c rest s h => ?_, fun c s => rfl⟩
  unfold step
  rw [h]

/-- Refutes O3: a P3 request names a sub-port its row does not allow, and the row's operation does not look at it: it runs, and the request
is lost as any other of a disabled port. -/
theorem not_wellFormedCommandsComplete : ¬ Obligations.WellFormedCommandsComplete := by
  intro ⟨_, h⟩
  have hlost : exec (.p3Request 0 ⟨.p3, 32, 0, 0, 0, 0, 0, 0, [], 0⟩) State.reset = .next State.reset := rfl
  have hstop := h (.p3Request 0 ⟨.p3, 32, 0, 0, 0, 0, 0, 0, [], 0⟩) State.reset rfl
  rw [hlost] at hstop
  cases hstop

/-! ### One call of `serveAns` for each host command -/

theorem checked_checked (b : Bool) (o : Out) : checked b (checked b o) = checked b o := by
  cases b <;> rfl

/-- Every host command, and every undefined opcode, is one call of `serveAns` with its opcode. -/
theorem exec_hostRequest {i : Instr} {op : Nat} {q : Req} (h : hostRequest i = some (op, q)) :
    ∃ body peers, ∀ s, exec i s = serveAns op body q s peers := by
  cases i with
  | undefinedOpcode o q' =>
    cases hd : opDefined o.toNat with
    | true => simp [hostRequest, hd] at h
    | false =>
      simp only [hostRequest, hd, Bool.false_eq_true, if_false, Option.some.injEq, Prod.mk.injEq] at h
      obtain ⟨rfl, rfl⟩ := h
      refine ⟨fun _ _ => (err eUnknownOp : Res).map fun a => .now a.1 a.2, [], fun s => ?_⟩
      show execUndefinedOpcode o q' s = _
      rw [execUndefinedOpcode, hd, if_neg Bool.false_ne_true, serve, serveAns, checked_checked]
  | _ => cases h <;> exact ⟨_, _, fun _ => rfl⟩

section
variable {op : Nat} {q : Req} {s : State} {body : Req → State → Except Err Ans} {peers : List PeerAnswer}

/-- A request on a port that is not heard leaves its queue (R384, R396). -/
theorem serveAns_unheard (hq : Req.wf q = true) (hup : s.pwr.bootState = .firmware) (hoff : s.heard q.port = false) :
    serveAns op body q s peers = .next (dequeue op q s.fresh) := by
  have hoff' : s.fresh.heard q.port = false := hoff
  simp only [serveAns, checked, hq, if_true, done, State.fresh_pwr, hup, hoff', Bool.false_eq_true, if_false]

end

/-! ### The checks of R402, in order -/

theorem need_eq (c : Bool) (st : Nat) : need c st = if c = false then .error ⟨st, [], none⟩ else .ok () := by
  cases c <;> rfl

theorem needAt_eq (c : Bool) (off st : Nat) : needAt c off st = if c = false then .error ⟨st, leBytes 2 off, none⟩ else .ok () := by
  cases c <;> rfl

/-- A check, then the others. -/
theorem error_ite_bind {β : Type} (c : Prop) [Decidable c] (e : Err) (f : Unit → Except Err β) :
    ((if c then .error e else .ok () : Except Err Unit) >>= f) = if c then .error e else f () := by
  split <;> rfl

/-- The first check that fails gives the status (R402 steps 1 to 5, R389). -/
theorem gate_eq (op : Nat) (q : Req) (s : State) : gate op q s =
    if headerOk q s = false then .error ⟨eDecode, [], none⟩
    else if opDefined op = false then .error ⟨eUnknownOp, [], none⟩
    else if privOk op q s = false then .error ⟨ePriv, [], none⟩
    else if shadowOk op s = false then .error ⟨eShadow, [], none⟩
    else if safetyNetOk op s = false then .error ⟨eState, [], none⟩
    else if twinBusy op q s = true then .error ⟨eBusy, [], none⟩
    else if 60000000 < q.deadline.toNat then .error ⟨eRange, [0xFF, 0xFF], none⟩
    else if receiptOf op q s + (if q.deadline = 0 then defaultDeadline op else q.deadline.toNat) * 1000 < s.now then .error ⟨eTimeout, [], none⟩
    else .ok () := by
  simp only [gate, need_eq, needAt_eq, error_ite_bind, Bool.not_eq_false', decide_eq_false_iff_not, Nat.not_le]
  rfl

/-- What left the device in the step before does not matter to the checks. -/
theorem gate_fresh (op : Nat) (q : Req) (s : State) : gate op q s.fresh = gate op q s := by
  rw [gate_eq, gate_eq]
  rfl

/-- A request that the checks of R402 refuse without an event is answered, whatever its body would do. -/
theorem serveAns_gate_err {op : Nat} {q : Req} {s : State} {body : Req → State → Except Err Ans} {peers : List PeerAnswer} {e : Err}
    (hq : Req.wf q = true) (hup : s.pwr.bootState = .firmware) (hon : s.heard q.port = true)
    (hg : gate op q s = .error e) (he : e.event = none) :
    serveAns op body q s peers = .next (answered op e.status q e.result (taken q s)) := by
  have hg' : gate op q s.fresh = .error e := (gate_fresh op q s).trans hg
  have hon' : s.fresh.heard q.port = true := hon
  rw [← dequeue_refuse_of_no_event he]
  simp only [serveAns, checked, hq, if_true, done, State.fresh_pwr, hup, hon', run, hg', taken]

/-- R402 step 3: outside the recorder's commands, a group the port does not have is refused. -/
theorem privOk_of_group {op : Nat} {q : Req} {s : State} (h1 : op ≠ 0x0D00) (h2 : op ≠ 0x0D01)
    (hg : maskBit (fget (s.priv q.port) Priv.groups) (op / 256) = false) : privOk op q s = false := by
  simp [privOk, h1, h2, hg]

/-- R403: outside the recorder's commands, a change of state is refused on a READ_ONLY port. -/
theorem privOk_of_readOnly {op : Nat} {q : Req} {s : State} (h1 : op ≠ 0x0D00) (h2 : op ≠ 0x0D01)
    (hr : fbit (s.priv q.port) Priv.readOnly = true) (hc : changesState op q = true) : privOk op q s = false := by
  simp [privOk, h1, h2, hr, hc]

/-- Settles O9: `gate_eq` has the checks in order, and a refusal without an event is the response. The order of a pending swap or
resynchronisation, of the deadline's range and of its expiry is the model's (log entry 105). -/
theorem refusalsFollowTheOrderOfChecks : Obligations.RefusalsFollowTheOrderOfChecks := by
  intro i op q s hi hq hup hon
  obtain ⟨body, peers, hx⟩ := exec_hostRequest hi
  have refuses {st : Nat} {res : List Byte} (hg : gate op q s = .error ⟨st, res, none⟩) : exec i s = .next (answered op st q res (taken q s)) :=
    (hx s).trans (serveAns_gate_err hq hup hon hg (e := ⟨st, res, none⟩) rfl)
  rw [gate_eq] at refuses
  refine ⟨fun hh => refuses ?_, fun hh hd => refuses ?_, fun hh hd h1 h2 hg => refuses ?_, fun hh hd h1 h2 hr hc => refuses ?_,
    fun hh hd hp hrole hQ hl => refuses ?_, fun hh hd hp hs hnet hQ hl hg => refuses ?_, fun hh hd hp hs hn hrole hc hre => refuses ?_,
    fun hh hd hp hs hn ht hlong => refuses ?_, fun hh hd hp hs hn ht hshort hlate => refuses ?_⟩
  · simp [hh]; rfl
  · simp [hh, hd]; rfl
  · simp [hh, hd, privOk_of_group h1 h2 hg]; rfl
  · simp [hh, hd, privOk_of_readOnly h1 h2 hr hc]; rfl
  · have hsh : shadowOk op s = false := by rw [shadowOk, hrole, hQ, hl]; rfl
    simp [hh, hd, hp, hsh]; rfl
  · have hsn : safetyNetOk op s = false := by rw [safetyNetOk, hnet, hQ, hl, hg]; rfl
    simp [hh, hd, hp, hs, hsn]; rfl
  · have hb : twinBusy op q s = true := by simp [twinBusy, hrole, hc, hre]
    simp [hh, hd, hp, hs, hn, hb]; rfl
  · simp [hh, hd, hp, hs, hn, ht, hlong]; rfl
  · rw [if_neg (by simp [hh]), if_neg (by simp [hd]), if_neg (by simp [hp]), if_neg (by simp [hs]), if_neg (by simp [hn]),
      if_neg (by simp [ht]), if_neg hshort.not_gt, if_pos hlate]
    rfl

/-! ### READ_ONLY ports -/

theorem privOk_iff_of_group {op : Nat} {q : Req} {s : State} (hg : maskBit (fget (s.priv q.port) Priv.groups) (op / 256) = false) :
    privOk op q s = true ↔ op ∈ [0x0D00, 0x0D01] := by
  simp [privOk, hg]

theorem privOk_iff_of_readOnly {op : Nat} {q : Req} {s : State} (hr : fbit (s.priv q.port) Priv.readOnly = true)
    (hg : maskBit (fget (s.priv q.port) Priv.groups) (op / 256) = true) :
    privOk op q s = true ↔ op = 0x0D00 ∨ op = 0x0D01 ∨ changesState op q = false := by
  simp [privOk, hr, hg, or_assoc]

/-- R403: what changes no state is a query without CLEAR, or one of four commands. -/
theorem changesState_eq_false {op : Nat} {q : Req} :
    changesState op q = false ↔ (isQuery op = true ∧ setsClear op q = false) ∨ (isQuery op = false ∧ op ∈ [0x0101, 0x0102, 0x1105, 0x0D01]) := by
  unfold changesState
  cases isQuery op
  · simp only [Bool.false_eq_true, if_false, false_and, false_or, true_and, Bool.not_eq_false', List.contains_iff_mem]
  · simp

/-- Settles O37: what the privilege check admits of a READ_ONLY port is what changes no state, and a query with CLEAR does. -/
theorem readOnlyPortsAdmitWhatChangesNothing : Obligations.ReadOnlyPortsAdmitWhatChangesNothing := by
  refine ⟨fun op q s hd hr hg => ?_, fun op q s _ hg => privOk_iff_of_group hg, fun i op q s hi hq hup hon hh hd hr hQ hc => ?_⟩
  · rw [privOk_iff_of_readOnly hr hg, changesState_eq_false]
    constructor
    · rintro (rfl | rfl | h | ⟨-, h⟩)
      · exact .inr (by decide)
      · exact .inr (by decide)
      · exact .inl h
      · exact .inr (by revert h; simp; omega)
    · rintro (h | h)
      · exact .inr (.inr (.inl h))
      · simp only [List.mem_cons, List.not_mem_nil, or_false] at h
        obtain rfl | rfl | rfl | rfl | rfl := h
        · exact .inr (.inr (.inr (by decide)))
        · exact .inr (.inr (.inr (by decide)))
        · exact .inr (.inr (.inr (by decide)))
        · exact .inl rfl
        · exact .inr (.inl rfl)
  · obtain ⟨-, -, -, hpriv, -⟩ := refusalsFollowTheOrderOfChecks i op q s hi hq hup hon
    have h1 : op ≠ 0x0D00 := by rintro rfl; cases hc
    have h2 : op ≠ 0x0D01 := by rintro rfl; cases hQ
    exact hpriv hh hd h1 h2 hr (by simp [changesState, hQ, hc])

/-! ### Requests nobody serves -/

section
variable {op : Nat} {q : Req} {s : State} {body : Req → State → Except Err Ans} {peers : List PeerAnswer}

/-- While the device restarts a request is lost, but for one on the service bus in BOOT_HALT. -/
theorem serveAns_restarting (hq : Req.wf q = true) (h1 : s.pwr.bootState ≠ .firmware) (h2 : s.pwr.bootState ≠ .rescue)
    (h3 : s.pwr.bootState ≠ .waitLoad) : serveAns op body q s peers = .next (match s.pwr.halt, q.port with
      | some h, .p2 => s.fresh.sendP2 q.sender (responseBytes op eState q (haltRecord h s) s.now)
      | _, _ => s.fresh) := by
  simp only [serveAns, checked, hq, if_true, done, State.fresh_pwr]
  cases hb : s.pwr.bootState <;> first | contradiction | rfl

/-- In Rescue Boot, and while the ROM waits for a load, it serves the port R492 names (R493). -/
theorem serveAns_rescue (hq : Req.wf q = true) (hb : s.pwr.bootState = .rescue ∨ s.pwr.bootState = .waitLoad) :
    serveAns op body q s peers = .next (if rescuePort q s then runRescue op body q s.fresh else s.fresh) := by
  simp only [serveAns, checked, hq, if_true, done, State.fresh_pwr]
  obtain hb | hb := hb <;> rw [hb] <;> rfl

/-- What the ROM refuses: a malformed header, and an opcode it does not serve. -/
theorem runRescue_refused (st : Nat) (h : (headerOk q s = false ∧ st = eDecode) ∨
    (headerOk q s = true ∧ rescueOps.contains op = false ∧ st = eState)) : runRescue op body q s.fresh = answered op st q [] (taken q s) := by
  obtain ⟨hh, rfl⟩ | ⟨hh, ho, rfl⟩ := h
  · have hh' : headerOk q s.fresh = false := hh
    simp [runRescue, hh', refuse, State.raiseErr, answered, taken]
  · have hh' : headerOk q s.fresh = true := hh
    simp only [runRescue, hh', ho, refuse, State.raiseErr, answered, taken]
    rfl

end

/-- Settles O10: a command is lost where none of the three servers hears its port, and the ROM has two checks of its own. That requests
are lost outside a restart is log entry 71; the record's answer on P2 is laid out as log entry 51 has it. -/
theorem requestsNobodyServesGetNoResponse : Obligations.RequestsNobodyServesGetNoResponse := by
  intro i op q s hi hq
  obtain ⟨body, peers, hx⟩ := exec_hostRequest hi
  simp only [hx s]
  refine ⟨fun hup hoff => serveAns_unheard hq hup hoff, fun h1 h2 h3 hh => ?_, fun h h1 h2 h3 hh hp => ?_, fun hb hp => ?_,
    fun hb hp hh => ?_, fun hb hp hh ho => ?_⟩
  · rw [serveAns_restarting hq h1 h2 h3]
    obtain hn | hp := hh
    · rw [hn]
    · split
      · next hp2 => exact absurd hp2 hp
      · rfl
  · rw [serveAns_restarting hq h1 h2 h3, hh, hp]
    rfl
  · rw [serveAns_rescue hq hb, hp]
    rfl
  · rw [serveAns_rescue hq hb, hp, if_pos rfl, runRescue_refused eDecode (.inl ⟨hh, rfl⟩)]
    rfl
  · rw [serveAns_rescue hq hb, hp, if_pos rfl, runRescue_refused eState (.inr ⟨hh, ho, rfl⟩)]
    rfl

end Sys2Proof.Machine
end

section
/-! PROOFS. Where the one response of a command goes (R382, R386, R387, R399), and what the response of a mirrored command waits for
(R353, R354). -/

set_option Elab.async false

namespace Sys2Proof.Machine

open Sys2Proof

/-! ### The mailbox of a request on P0 -/

theorem State.setMb_setDone_mailbox_of_ne {n m : Nat} (h : m ≠ n) (mb : Mb) (done : BitVec 64) (s : State) :
    ((s.setMb n mb).onCtl (fun c => { c with doneMap := c.doneMap ||| done })).mailbox m = s.mailbox m := by
  rw [State.mailbox, setMb_setDone_ctl, tget_tset, if_neg h, State.mailbox]

theorem State.signal_doneMap (v : Nat) (s : State) : (s.signal v).ctl.doneMap = s.ctl.doneMap := by
  obtain ⟨pba, h⟩ := s.signal_ctl v
  rw [h]

section
variable {op st : Nat} {q : Req} {res : List Byte} {s : State}

theorem respondMailbox_doneMap : (respondMailbox op st q res s).ctl.doneMap = s.ctl.doneMap ||| 1#64 <<< q.chan := by
  unfold respondMailbox
  dsimp only
  split
  · rw [State.signal_doneMap, setMb_setDone_ctl]
  · rw [setMb_setDone_ctl]

theorem respondMailbox_mailbox_of_ne {n : Nat} (h : n ≠ q.chan) : (respondMailbox op st q res s).mailbox n = s.mailbox n := by
  unfold respondMailbox
  dsimp only
  split
  · rw [State.signal_mailbox, State.setMb_setDone_mailbox_of_ne h]
  · rw [State.setMb_setDone_mailbox_of_ne h]

theorem respond_p3_up (h : q.port = .p3) (hup : (tget subReset s.eth.sub q.chan).link = .up) : respond op st q res s =
    { s with ctl := { s.ctl with inband := s.ctl.inband ++ [⟨q.chan, q.sender, responseBytes op st q res s.now⟩] } } := by
  rw [respond_p3 h, State.sendInBand, if_pos hup]
  rfl

theorem respond_p3_down (h : q.port = .p3) (hup : (tget subReset s.eth.sub q.chan).link ≠ .up) : respond op st q res s = s := by
  rw [respond_p3 h, State.sendInBand, if_neg hup]

end

/-! ### The queues of P2 to P4 -/

theorem dequeue_waiting_of_ne (op : Nat) (q : Req) (s : State) {p : Port} (h : p ≠ q.port) : (dequeue op q s).waiting p = s.waiting p := by
  unfold dequeue
  cases hq : q.port <;> cases p <;> first | rfl | exact absurd hq.symm h

theorem dequeue_waiting (op : Nat) (q : Req) (s : State) :
    (dequeue op q s).waiting q.port = (s.waiting q.port).eraseP (sameWaiting q op) := by
  unfold dequeue
  cases q.port <;> rfl

theorem length_eraseP_add_one_of_any {α : Type} (p : α → Bool) (l : List α) :
    (l.eraseP p).length + (if l.any p then 1 else 0) = l.length := by
  rw [List.length_eraseP]
  split
  · next h =>
    obtain ⟨x, hx, -⟩ := List.any_eq_true.1 h
    exact Nat.sub_add_cancel (List.length_pos_of_mem hx)
  · rfl

/-- Settles O11: one equation of `respond` for each port, and the request's queue loses its first entry for it. -/
theorem responsesReachTheirPort : Obligations.ResponsesReachTheirPort := by
  refine ⟨fun op st q res s => ⟨fun h => ?_, respond_p2, respond_p3_up, respond_p3_down⟩, fun op st q res s hp hn hst => ?_,
    fun op q s => ⟨?_, fun p hp => dequeue_waiting_of_ne op q s hp⟩⟩
  · obtain h | h := h
    · rw [respond_p1 h, h]; rfl
    · rw [respond_p4 h, h]; rfl
  · rw [respond_p0 hp]
    obtain ⟨hstatus, hstate⟩ := respondMailbox_status (op := op) (res := res) (q := q) (s := s) hst
    refine ⟨hstate, hstatus, by rw [respondMailbox_mailbox]; rfl, ?_, fun n h => ⟨respondMailbox_mailbox_of_ne h, ?_⟩⟩
    · simp [respondMailbox_doneMap, hn]
    · simp [respondMailbox_doneMap]
      omega
  · rw [dequeue_waiting]
    exact length_eraseP_add_one_of_any _ _

/-! ### A command that its twin has to be told of -/

section
variable {op : Nat} {q : Req} {s : State} {body : Req → State → Except Err Ans} {peers : List PeerAnswer}

theorem serveAns_mirrored {a : Ans} (hq : Req.wf q = true) (hup : s.pwr.bootState = .firmware) (hon : s.heard q.port = true)
    (hg : gate op q s.fresh = .ok ()) (hm : mirrored op q (taken q s) = true) (hb : body q (taken q s) = .ok a) (ha : a.accepted = true) :
    serveAns op body q s peers = .next (dequeue op q (holdMirror op q a (taken q s) peers)) := by
  have hb' : body q (takeUp q s.fresh) = .ok a := hb
  have hm' : mirrored op q (takeUp q s.fresh) = true := hm
  have hon' : s.fresh.heard q.port = true := hon
  simp only [serveAns, checked, hq, if_true, done, State.fresh_pwr, hup, hon', run, hg, hb', hm', ha, Bool.and_self, taken]

/-- A mirrored command without a TARGET of its own only joins the mirrors and the jobs, and goes out to the twin. -/
theorem holdMirror_kept_of_noTarget {a : Ans} (h : ownTarget op q = 0) : (holdMirror op q a s peers).kept 0xC0004 = s.kept 0xC0004 := by
  unfold holdMirror
  rw [h]
  exact (State.sendMessage_kept ..).trans ((State.kept_onCtl _ _ rfl).trans (State.kept_onTwin ..))

theorem holdMirror_twin {a : Ans} (h : ownTarget op q = 0) : (holdMirror op q a s peers).twin = { s.twin with
    mirrors := s.twin.mirrors ++ [⟨(fget s.twin.rec_ Twin.mirrorSeq + s.twin.mirrors.length + 1) % 2 ^ 32, op, q, receiptOf op q s + 1000000,
      false, false, peers⟩] } := by
  have ht : mirrorTarget op q (receiptOf op q s) = receiptOf op q s + 1000000 := by rw [mirrorTarget, h, Nat.zero_max]
  unfold holdMirror
  rw [twin_of_kept (State.sendMessage_kept (μ := 0x40000) ..), ht, h]
  rfl

theorem holdMirror_jobs {a : Ans} (h : ownTarget op q = 0) : ∃ j, (holdMirror op q a s peers).ctl.jobs = s.ctl.jobs ++ [j] ∧ j.req = q ∧
    j.opcode = op := by
  unfold holdMirror
  rw [ctl_of_kept (State.sendMessage_kept (μ := 0x40000) ..), h]
  exact ⟨_, rfl, rfl, rfl⟩

end

theorem dequeue_jobs (op : Nat) (q : Req) (s : State) : (dequeue op q s).ctl.jobs = s.ctl.jobs := by
  obtain ⟨p2, p3, p4, h⟩ := dequeue_ctl op q s
  rw [h]

/-- Settles O12: the mirror and the job are queued before anything of the command's own. -/
theorem mirroredCommandsWaitForTheTwin : Obligations.MirroredCommandsWaitForTheTwin := by
  intro op cmd q peers s t res hq hup hon hg hm hown hb
  have hx : serve op cmd q s peers = .next (dequeue op q (holdMirror op q (.now t res) (taken q s) peers)) :=
    serveAns_mirrored hq hup hon hg hm (by rw [hb]; rfl) rfl
  have hk : (dequeue op q (holdMirror op q (.now t res) (taken q s) peers)).kept 0xC0004 = s.kept 0xC0004 :=
    (dequeue_kept ..).trans ((holdMirror_kept_of_noTarget hown).trans (kept_mono (by decide) (taken_kept q s)))
  obtain ⟨j, hj, hreq, hop⟩ := holdMirror_jobs (a := .now t res) (peers := peers) (s := taken q s) hown
  refine ⟨_, j, hx, ?_, ?_, hreq, hop, pwr_of_kept hk, mem_of_kept hk, bud_of_kept hk, rte_of_kept hk, sdi_of_kept hk, eth_of_kept hk,
    flo_of_kept hk, cmp_of_kept hk, cal_of_kept hk, ref_of_kept hk, ptp_of_kept hk, time_of_kept hk⟩
  · rw [twin_of_kept (dequeue_kept (μ := 0x4) ..), holdMirror_twin hown, taken_twin]
  · rw [dequeue_jobs, hj, taken_ctl_jobs]

end Sys2Proof.Machine
end


section
/-! PROOFS. An event and the control state (R434, R449): whatever its class, an event raised changes no register of the control state but
the pending bit of the vector it signals. -/

set_option Elab.async false

namespace Sys2Proof.Machine

open Sys2Proof

/-- The control state without the pending bits of the vectors. -/
def CtlSt.unpended (c : CtlSt) : CtlSt := { c with pba := 0 }

section
variable {s t : State} (h : t.ctl.unpended = s.ctl.unpended)
include h

theorem State.mailbox_of_unpended (n : Nat) : t.mailbox n = s.mailbox n :=
  congrArg (tget Mb.idle · n) (congrArg CtlSt.mb h :)

theorem State.midway_of_unpended : t.ctl.midway = s.ctl.midway := (congrArg CtlSt.midway h :)

theorem State.jobs_of_unpended : t.ctl.jobs = s.ctl.jobs := (congrArg CtlSt.jobs h :)

end

theorem unpended_of_kept {m : Nat} {s t : State} (e : t.kept m = s.kept m) (h : m.testBit 2 = false := by rfl) :
    t.ctl.unpended = s.ctl.unpended := congrArg CtlSt.unpended (ctl_of_kept e h)

section
variable (s : State)

theorem State.signal_unpended (v : Nat) : (s.signal v).ctl.unpended = s.ctl.unpended := by
  obtain ⟨pba, h⟩ := s.signal_ctl v
  rw [h, CtlSt.unpended, CtlSt.unpended]

theorem State.pend_unpended (c : Nat) : (s.pend c).ctl.unpended = s.ctl.unpended := by
  unfold State.pend
  extract_lets w s'
  have h : s'.ctl = s.ctl := State.onFlt_ctl ..
  split
  · rw [h]
  · rw [State.signal_unpended, h]

theorem State.note_unpended (e : Ev) (b : Bool) : (s.note e b).ctl.unpended = s.ctl.unpended := by
  unfold State.note
  rw [State.pend_unpended, State.onFlt_ctl, State.onFlt_ctl]

theorem State.noteRise_unpended (e : Ev) (b : Bool) : (s.noteRise e b).ctl.unpended = s.ctl.unpended := by
  rcases State.noteRise_cases e b s with r | r <;> rw [r]
  · rw [State.note_unpended, State.onFlt_ctl, State.note_unpended]
  · exact State.note_unpended ..

theorem State.enterSafetyNet_unpended : s.enterSafetyNet.ctl.unpended = s.ctl.unpended := by
  unfold State.enterSafetyNet
  extract_lets was s1 s2 s3
  have h2 : s2.ctl = s.ctl := by rw [State.onTrp_ctl, State.onTst_ctl, State.onFlt_ctl]
  have h3 : s3.ctl.unpended = s.ctl.unpended := (State.note_unpended ..).trans (congrArg CtlSt.unpended h2)
  split
  · rfl
  · split
    · exact (unpended_of_kept (State.sendHeartbeat_kept (μ := 0xC0000) s3)).trans h3
    · exact h3

theorem State.fatal_unpended : s.fatal.ctl.unpended = s.ctl.unpended := by
  unfold State.fatal
  split
  · split
    · rfl
    · exact unpended_of_kept (State.yieldNow_kept (μ := 0xC0000) ..)
  · exact State.enterSafetyNet_unpended s

theorem State.raiseWith_unpended (e : Ev) (b : Bool) : (s.raiseWith e b).ctl.unpended = s.ctl.unpended := by
  unfold State.raiseWith
  extract_lets s1
  split
  · rw [State.fatal_unpended, State.noteRise_unpended]
  · exact State.noteRise_unpended ..

theorem State.raise_unpended (e : Ev) : (s.raise e).ctl.unpended = s.ctl.unpended := State.raiseWith_unpended ..

theorem State.rebound_unpended (o : Nat) : (s.rebound o).ctl.unpended = s.ctl.unpended := by
  unfold State.rebound
  extract_lets now had next out s1
  have h1 : s1.ctl = s.ctl := by
    unfold s1
    split
    · rfl
    · exact State.onRte_ctl ..
  refine (foldl_leaves (fun t : State => t.ctl.unpended) (fun t c => ?_) now s1).trans (congrArg CtlSt.unpended h1)
  split
  · rfl
  · exact State.raise_unpended ..

theorem State.reboundAll_unpended : s.reboundAll.ctl.unpended = s.ctl.unpended :=
  foldl_leaves (fun t : State => t.ctl.unpended) (fun t _ => t.rebound_unpended _) _ _

theorem State.setPower_unpended (p : Power) : (s.setPower p).ctl.unpended = s.ctl.unpended := by
  unfold State.setPower
  extract_lets s1
  exact (State.reboundAll_unpended _).trans (State.raise_unpended ..)

end

end Sys2Proof.Machine
end

section
/-! PROOFS. The host port (R370 to R375, R385 to R393): an access of the host where the port is not released and where it is, doorbells,
request buffers, DONE_MAP and the host queue windows. -/

set_option Elab.async false

namespace Sys2Proof.Machine

open Sys2Proof

/-! ### An access of the host -/

section
variable {s : State}

theorem State.byHost_closed (h : s.hostPort = false) : s.byHost = s.fresh := by
  unfold State.byHost
  rw [h, if_neg Bool.false_ne_true]

theorem State.byHost_released (h : s.hostPort = true) : s.byHost = s.fresh.onCtl (fun c => { c with enumerated := true }) := by
  unfold State.byHost
  rw [h, if_pos rfl]

@[simp] theorem State.byHost_hostPort : s.byHost.hostPort = s.hostPort := by
  unfold State.byHost
  split <;> rfl

theorem State.hostAccess_closed (f : State → State) (h : s.hostPort = false) : s.hostAccess f = .next s.fresh := by
  have hb : s.byHost.hostPort = false := by rw [State.byHost_hostPort, h]
  rw [State.hostAccess, hb, if_neg Bool.false_ne_true, State.byHost_closed h]
  rfl

theorem State.hostAccess_released (f : State → State) (h : s.hostPort = true) : s.hostAccess f = .next (f s.byHost) := by
  have hb : s.byHost.hostPort = true := by rw [State.byHost_hostPort, h]
  rw [State.hostAccess, hb, if_pos rfl]
  rfl

end

/-! The accesses whose operation asks for the port itself are accesses of the same form. -/

theorem execPop_eq (h : Fin 16) (s : State) : execPop h s = s.hostAccess (State.popDesc h.val) := rfl

theorem execRelease_eq (h : Fin 16) (e : BitVec 32) (s : State) : execRelease h e s = s.hostAccess (State.releaseTiles h.val e) := rfl

theorem execBlkRst_eq (m : BitVec 64) (s : State) : execBlkRst m s = s.hostAccess (State.resetBlocks m.toNat) := rfl

/-- An access that asks for the port before it answers its state. -/
theorem State.hostAccess_eq_ite (f : State → State) (s : State) :
    s.hostAccess f = if s.hostPort then done (f s.byHost) else done s.byHost := by
  rw [State.hostAccess, State.byHost_hostPort]
  cases s.hostPort <;> rfl

theorem execForce_eq (w : BitVec 64) (whole : Bool) (s : State) :
    execForce w whole s = s.hostAccess (fun s => if whole then s.forceWrite w else s) := by
  rw [State.hostAccess_eq_ite, execForce, State.byHost_hostPort]
  cases whole <;> cases s.hostPort <;> rfl

theorem execPendingClear_eq (c : Fin 256) (s : State) : execPendingClear c s = s.hostAccess (State.clearPending c.val) := by
  rw [State.hostAccess_eq_ite, execPendingClear, State.byHost_hostPort]

theorem execFullRst_eq (v : BitVec 8) (s : State) :
    execFullRst v s = s.hostAccess (fun s => if v = 0xA5 then s.fullReset .soft else s) := by
  rw [State.hostAccess_eq_ite, execFullRst, State.byHost_hostPort]
  by_cases hv : v = 0xA5
  · subst hv
    cases s.hostPort <;> rfl
  · rw [if_neg hv, decide_eq_false hv]
    cases s.hostPort <;> rfl

theorem execCntClear_eq (v : Bool) (s : State) : execCntClear v s = s.hostAccess (fun s => if v then s.clearCounts else s) := by
  rw [State.hostAccess_eq_ite, execCntClear, State.byHost_hostPort]
  cases v <;> cases s.hostPort <;> rfl

/-- Settles O31: every access of the host is a `State.hostAccess`, which does nothing while the port is closed. -/
theorem hostPortIsClosedOutsideStagingAndActive : Obligations.HostPortIsClosedOutsideStagingAndActive := by
  intro s h
  have closed := fun f => State.hostAccess_closed (s := s) f h
  have buffer (n off b) : execRequestBufferWrite n off b s = .next s.fresh := by rw [execRequestBufferWrite, closed]
  have ptpNow : execPtpNowRead s = .next s.fresh := by rw [execPtpNowRead, closed]
  have register (o w v) : execRegisterWrite o w v s = .next s.fresh := by rw [execRegisterWrite, closed]
  exact ⟨fun _ _ => closed _, fun n off b => buffer n off b, fun _ => closed _, fun _ => closed _, fun _ _ => closed _,
    fun w b => (execForce_eq w b s).trans (closed _), fun c => (execPendingClear_eq c s).trans (closed _), fun _ => closed _,
    fun v => (execFullRst_eq v s).trans (closed _), fun v => (execCntClear_eq v s).trans (closed _), fun _ => closed _, closed _, closed _,
    fun _ => closed _, ptpNow, register, fun _ _ => closed _, fun _ _ => closed _⟩

/-! ### What an access of the host leaves of the state it finds -/

section
variable (s : State)

@[simp] theorem State.byHost_mem : s.byHost.mem = s.mem := mem_of_kept (State.byHost_kept (μ := 0x4) s)
@[simp] theorem State.byHost_pwr : s.byHost.pwr = s.pwr := pwr_of_kept (State.byHost_kept (μ := 0x4) s)
@[simp] theorem State.byHost_time : s.byHost.time = s.time := time_of_kept (State.byHost_kept (μ := 0x4) s)
@[simp] theorem State.byHost_bud : s.byHost.bud = s.bud := bud_of_kept (State.byHost_kept (μ := 0x4) s)

theorem State.byHost_ctl : ∃ b, s.byHost.ctl = { s.ctl with enumerated := b } := by
  unfold State.byHost
  split
  · exact ⟨true, rfl⟩
  · exact ⟨s.ctl.enumerated, rfl⟩

@[simp] theorem State.byHost_mailbox (n : Nat) : s.byHost.mailbox n = s.mailbox n := by
  obtain ⟨b, h⟩ := s.byHost_ctl
  rw [State.mailbox, h, State.mailbox]

@[simp] theorem State.byHost_hq (n : Nat) : s.byHost.hq n = s.hq n := by
  obtain ⟨b, h⟩ := s.byHost_ctl
  rw [State.hq, h, State.hq]

@[simp] theorem State.byHost_midway : s.byHost.ctl.midway = s.ctl.midway := by
  obtain ⟨b, h⟩ := s.byHost_ctl
  rw [h]

@[simp] theorem State.byHost_doneMap : s.byHost.ctl.doneMap = s.ctl.doneMap := by
  obtain ⟨b, h⟩ := s.byHost_ctl
  rw [h]

@[simp] theorem State.byHost_ring (r : Nat) : s.byHost.ring r = s.ring r := by rw [State.ring, State.byHost_mem, State.ring]

@[simp] theorem State.byHost_now : s.byHost.now = s.now := by
  rw [State.now, State.now32, State.rate, State.byHost_time, ptp_of_kept (State.byHost_kept (μ := 0x4) s)]
  rfl

@[simp] theorem State.byHost_mailboxServed (n : Nat) : s.byHost.mailboxServed n = s.mailboxServed n := by
  rw [State.mailboxServed, State.byHost_pwr, State.mailboxServed]

end

theorem State.busError_status (reason addr master : Nat) (s : State) : (0xFD, locMidway) ∈ (s.busError reason addr master).flt.status :=
  State.raise_status ⟨0xFD, locMidway, true, reason, leBytes 4 0 ++ leBytes 8 addr ++ leBytes 1 master⟩ s

@[simp] theorem State.busError_mailbox (reason addr master n : Nat) (s : State) :
    (s.busError reason addr master).mailbox n = s.mailbox n := State.mailbox_of_unpended (State.raise_unpended ..) n

/-! ### Mailboxes and host queues -/

section
variable {s : State}

theorem State.mailbox_setMb (n k : Nat) (m : Mb) : (s.setMb n m).mailbox k = if k = n then m else s.mailbox k := tget_tset ..

theorem State.setMb_doneMap (n : Nat) (m : Mb) (s : State) : (s.setMb n m).ctl.doneMap = s.ctl.doneMap := rfl

theorem State.hq_setHq (n k : Nat) (v : Hq) : (s.setHq n v).hq k = if k = n then v else s.hq k := tget_tset ..

theorem State.doorbell_lost {n seq : Nat} (h : s.mailboxServed n = false) : s.doorbell n seq = s := by
  rw [State.doorbell, h]
  rfl

/-- The mailbox whose channel was busy at a doorbell. -/
def Mb.ignored (m : Mb) : Mb := { m with status := fput m.status MbStatus.dbIgnored (satAdd 8 (fget m.status MbStatus.dbIgnored) 1) }

/-- The mailbox whose request a doorbell has queued. -/
def Mb.queued (m : Mb) (seq now : Nat) : Mb :=
  { m with
    status := fput (fput (fput m.status MbStatus.stateF mbQueued) MbStatus.seq seq) MbStatus.status 0
    receipt := now }

theorem State.doorbell_busy {n seq : Nat} (h : s.mailboxServed n = true) (hb : (s.mailbox n).busy = true) :
    s.doorbell n seq = s.setMb n (s.mailbox n).ignored := by
  rw [State.doorbell, h, hb]
  rfl

theorem State.doorbell_queues {n seq : Nat} (h : s.mailboxServed n = true) (hb : (s.mailbox n).busy = false) :
    s.doorbell n seq = s.setMb n ((s.mailbox n).queued seq s.now) := by
  rw [State.doorbell, h, hb]
  rfl

theorem Mb.ignored_count (m : Mb) : fget m.ignored.status MbStatus.dbIgnored = min 255 (fget m.status MbStatus.dbIgnored + 1) := by
  rw [Mb.ignored, fget_fput _ _ _ (by decide), satAdd]
  exact Nat.mod_eq_of_lt (lt_of_le_of_lt (Nat.min_le_right ..) (by decide)) |>.trans (Nat.min_comm ..)

theorem Mb.ignored_state (m : Mb) : m.ignored.state = m.state := fget_fput_of_disjoint _ _ _ _ (by decide) (by decide)

variable (m : Mb) (seq now : Nat)

theorem Mb.queued_state : (m.queued seq now).state = 1 := by
  rw [Mb.state, Mb.queued, fget_fput_of_disjoint _ _ _ _ (by decide) (by decide), fget_fput_of_disjoint _ _ _ _ (by decide) (by decide),
    fget_fput _ _ _ (by decide)]
  rfl

theorem Mb.queued_seq : fget (m.queued seq now).status MbStatus.seq = seq % 2 ^ 16 := by
  rw [Mb.queued, fget_fput_of_disjoint _ _ _ _ (by decide) (by decide), fget_fput _ _ _ (by decide)]
  rfl

theorem Mb.queued_ignored : fget (m.queued seq now).status MbStatus.dbIgnored = fget m.status MbStatus.dbIgnored := by
  rw [Mb.queued, fget_fput_of_disjoint _ _ _ _ (by decide) (by decide), fget_fput_of_disjoint _ _ _ _ (by decide) (by decide),
    fget_fput_of_disjoint _ _ _ _ (by decide) (by decide)]

end

theorem State.releaseTiles_eq {s : State} {h : Nat} {e : BitVec 32} (hen : (s.hq h).en = true) (hin : (s.hq h).insert = false)
    (hle : (e - BitVec.ofNat 32 (fget (s.ring (s.hq h).ring) RingDesc.relseq)).toNat ≤
      (ringWseq (s.ring (s.hq h).ring) - BitVec.ofNat 32 (fget (s.ring (s.hq h).ring) RingDesc.relseq)).toNat) :
    s.releaseTiles h e = s.setRing (s.hq h).ring (fput (s.ring (s.hq h).ring) RingDesc.relseq e.toNat) := by
  simp only [State.releaseTiles, hen, hin, decide_eq_false (Nat.not_lt.2 hle)]
  rfl

theorem State.releaseTiles_ignored {s : State} {h : Nat} {e : BitVec 32} (hx : (s.hq h).en = false ∨ (s.hq h).insert = true ∨
      (ringWseq (s.ring (s.hq h).ring) - BitVec.ofNat 32 (fget (s.ring (s.hq h).ring) RingDesc.relseq)).toNat <
        (e - BitVec.ofNat 32 (fget (s.ring (s.hq h).ring) RingDesc.relseq)).toNat) :
    s.releaseTiles h e = s := by
  refine if_pos ?_
  rcases hx with hx | hx | hx
  · simp [hx]
  · simp [hx]
  · rw [decide_eq_true hx, Bool.or_true]

/-- Settles O32: each access on the released port is one operation on a mailbox, a queue or a ring, which reads as stored where it was made
and as before elsewhere. That a doorbell nobody serves is lost is log entry 71. -/
theorem mailboxAndHostQueueAccesses : Obligations.MailboxAndHostQueueAccesses := by
  intro s hp
  have open_ := fun f => State.hostAccess_released (s := s) f hp
  refine ⟨?lost, ?ignored, ?queued, ?stored, ?locked, ?done, ?pop, ?release, ?beyond⟩
  case lost =>
    intro n seq h
    exact (open_ _).trans (congrArg Host.Outcome.next (State.doorbell_lost (by simpa using h)))
  case ignored =>
    intro n seq h hb
    refine ⟨_, (open_ _).trans (congrArg Host.Outcome.next (State.doorbell_busy (by simpa using h) (by simpa using hb))), ?_, ?_, ?_, ?_, ?_⟩
    · simp [State.mailbox_setMb, Mb.ignored_count]
    · simp [State.mailbox_setMb, Mb.ignored_state]
    · simp [State.mailbox_setMb, Mb.ignored]
    · intro m hm
      simp [State.mailbox_setMb, hm]
    · rw [State.setMb_doneMap, State.byHost_doneMap]
  case queued =>
    intro n seq h hb
    refine ⟨_, (open_ _).trans (congrArg Host.Outcome.next (State.doorbell_queues (by simpa using h) (by simpa using hb))), ?_, ?_, ?_, ?_, ?_, ?_, ?_⟩
    · simp [State.mailbox_setMb, Mb.queued_state]
    · simp only [State.mailbox_setMb, if_true, Mb.queued_seq]
      exact Nat.mod_eq_of_lt seq.isLt
    · simp [State.mailbox_setMb, Mb.queued]
    · simp [State.mailbox_setMb, Mb.queued]
    · simp [State.mailbox_setMb, Mb.queued_ignored]
    · intro m hm
      simp [State.mailbox_setMb, hm]
    · rw [State.setMb_doneMap, State.byHost_doneMap]
  case stored =>
    intro n off b ha hb
    show execRequestBufferWrite n off b s = _
    rw [execRequestBufferWrite, open_, if_pos ha, State.bufferWrite, State.byHost_mailbox, hb]
    rfl
  case locked =>
    intro n off b ha hb
    have he : execRequestBufferWrite n off b s =
        .next (s.byHost.busError 4 (bar0Addr (0x10000 + 2048 * n.val + off.val)) hostMaster) := by
      rw [execRequestBufferWrite, open_, if_pos ha, State.bufferWrite, State.byHost_mailbox, hb]
      rfl
    exact ⟨_, he, State.busError_status .., (State.busError_mailbox ..).trans (State.byHost_mailbox ..)⟩
  case done =>
    intro m
    refine ⟨_, open_ _, fun i => ?_, ?_⟩
    · by_cases hi : i < 64 <;> simp [State.clearDone, State.onCtl, hi]
      intro h
      exact absurd (BitVec.lt_of_getLsbD h) hi
    · obtain ⟨b, h⟩ := s.byHost_ctl
      exact (congrArg CtlSt.mb h :)
  case pop =>
    intro h
    refine ⟨_, open_ _, ?_, fun n hn => ?_⟩ <;> rw [State.popDesc, State.hq_setHq]
    · rw [if_pos rfl, State.byHost_hq]
    · rw [if_neg hn, State.byHost_hq]
  case release =>
    intro h e hen hin hle
    refine ⟨_, (open_ _).trans (congrArg Host.Outcome.next (State.releaseTiles_eq (by simpa using hen) (by simpa using hin) (by simpa using hle))), ?_,
      fun r hr => ?_⟩ <;> rw [State.ring_setRing, State.byHost_hq]
    · rw [if_pos rfl, State.byHost_ring]
    · rw [if_neg hr, State.byHost_ring]
  case beyond =>
    intro h e hx
    exact (open_ _).trans (congrArg Host.Outcome.next (State.releaseTiles_ignored (by simpa using hx)))

end Sys2Proof.Machine
end

section
/-! PROOFS. The TAP (R505, R479): an instruction shifted in, and the bytes that are free. -/

set_option Elab.async false

namespace Sys2Proof.Machine

open Sys2Proof

/-! ### Free bytes -/

theorem freeBytes_length (n : Nat) (s : State) : (freeBytes n s).1.length = 8 * n := by
  induction n generalizing s with
  | zero => rfl
  | succ n ih =>
    rw [freeBytes]
    simp only [List.length_append, leBytes_length, ih]
    omega

theorem freeBytes_state (n : Nat) (s : State) : ∃ k, (freeBytes n s).2 = { s with free := k } := by
  induction n generalizing s with
  | zero => exact ⟨s.free, rfl⟩
  | succ n ih =>
    obtain ⟨k, h⟩ := ih s.freeWord.2
    exact ⟨k, h⟩

/-- As many bytes are shifted out as go in, and nothing but the free values they are is used. -/
theorem State.shiftFree_eq (n : Nat) (s : State) : ∃ b k, s.shiftFree n = { s with emitted := s.emitted ++ [.tdo b], free := k } ∧
    b.length = n := by
  obtain ⟨k, h⟩ := freeBytes_state ((n + 7) / 8) s
  refine ⟨(freeBytes ((n + 7) / 8) s).1.take n, k, ?_, ?_⟩
  · rw [State.shiftFree, h]
    rfl
  · rw [List.length_take, freeBytes_length]
    omega

/-! ### An instruction shifted in -/

/-- The state with an instruction in the instruction register. -/
def State.withIr (code : BitVec 8) (s : State) : State := s.fresh.onCtl (fun c => { c with jtagIr := code })

section
variable {s : State} (code : BitVec 8) (f : State → State)

theorem State.tap_powered (h : s.pwr.power ≠ .backup) : s.tap code f = .next (f (s.withIr code)) := by
  rw [State.tap, State.fresh_pwr, if_neg h]
  rfl

theorem State.tap_backup (h : s.pwr.power = .backup) : s.tap code f = .next s.fresh := by
  rw [State.tap, State.fresh_pwr, if_pos h]
  rfl

theorem State.tap_shiftFree (n : Nat) (h : s.pwr.power ≠ .backup) : ∃ t b, s.tap code (State.shiftFree n) = .next t ∧
    t.ctl.jtagIr = code ∧ t.emitted = [.tdo b] ∧ b.length = n := by
  obtain ⟨b, k, e, hb⟩ := (s.withIr code).shiftFree_eq n
  exact ⟨_, b, State.tap_powered code _ h, by rw [e]; rfl, by rw [e]; rfl, hb⟩

theorem execHalt_recorded {r : Halt} (h : s.pwr.power ≠ .backup) (hr : s.pwr.halt = some r) :
    execHalt s = .next ((s.withIr 0x10).emit (.tdo (haltRecord r s))) := by
  have hi : (s.withIr 0x10).pwr.halt = some r := hr
  rw [execHalt, State.tap_powered _ _ h, hi]
  rfl

theorem execHalt_free (h : s.pwr.power ≠ .backup) (hr : s.pwr.halt = none) : execHalt s = s.tap 0x10 (State.shiftFree 16) := by
  have hi : (s.withIr 0x10).pwr.halt = none := hr
  rw [execHalt, State.tap_powered _ _ h, State.tap_powered _ _ h, hi]

theorem execExtest_shifts {bits : List Byte} (h : s.pwr.power ≠ .backup) (hf : Config.debugFuse = true)
    (hx : s.pwr.halt ≠ none ∨ s.releaseStep < 2) : execExtest bits s = s.tap 0x00 (State.shiftFree bits.length) := by
  have hi : (s.withIr 0x00).pwr.halt = s.pwr.halt := rfl
  have hr : (s.withIr 0x00).releaseStep = s.releaseStep := rfl
  rw [execExtest, State.tap_powered _ _ h, State.tap_powered _ _ h, if_pos]
  rw [hi, hr, hf, Bool.true_and, Bool.or_eq_true, decide_eq_true_eq, Option.isSome_iff_ne_none]
  exact hx

theorem execExtest_bypasses {bits : List Byte} (h : s.pwr.power ≠ .backup)
    (hx : Config.debugFuse = false ∨ (s.pwr.halt = none ∧ 2 ≤ s.releaseStep)) : execExtest bits s = .next (s.withIr 0x00) := by
  have hi : (s.withIr 0x00).pwr.halt = s.pwr.halt := rfl
  have hr : (s.withIr 0x00).releaseStep = s.releaseStep := rfl
  have hc : (Config.debugFuse && (s.pwr.halt.isSome || decide (s.releaseStep < 2))) = false := by
    rcases hx with hx | ⟨hx, hle⟩
    · rw [hx, Bool.false_and]
    · rw [hx, decide_eq_false (Nat.not_lt.2 hle)]
      exact Bool.and_false _
  rw [execExtest, State.tap_powered _ _ h, hi, hr, hc, if_neg Bool.false_ne_true]

theorem execCommand_powered {b : List Byte} (h : s.pwr.power ≠ .backup) : execCommand b s =
    .next (if s.debugOn then (s.withIr 0x20).onCtl (fun c => { c with jtagData := b.take 1024 }) else s.withIr 0x20) :=
  State.tap_powered _ _ h

theorem execDoorbell_powered {op : BitVec 16} {q : Req} (h : s.pwr.power ≠ .backup) : execDoorbell op q s =
    .next (if s.debugOn && s.pwr.bootState = .firmware && s.ctl.p4.isEmpty then
      (s.withIr 0x21).onCtl (fun c => { c with p4 := [⟨q.sender, q.seq, BitVec.ofNat 16 op.toNat, q.deadline, s.now⟩] })
    else s.withIr 0x21) :=
  State.tap_powered _ _ h

end

/-- Settles O39: in a state with power each instruction is one operation on the state with the register loaded. -/
theorem jtagInstructions : Obligations.JtagInstructions := by
  refine ⟨?idcode, ?haltRecord, ?halt, ?sample, ?extest, ?command, ?doorbell, ?bypass, ?backup⟩
  case idcode =>
    intro s hs
    exact State.tap_powered _ _ hs
  case haltRecord =>
    intro s h hs hh
    refine ⟨_, execHalt_recorded hs hh, rfl, rfl, fitBytes_length .., ?_⟩
    cases h <;> rfl
  case halt =>
    intro s hs hh
    obtain ⟨t, b, e, h⟩ := State.tap_shiftFree 0x10 16 hs
    exact ⟨t, b, (execHalt_free hs hh).trans e, h⟩
  case sample =>
    intro s bits hs
    exact State.tap_shiftFree 0x02 bits.length hs
  case extest =>
    intro s bits hs
    by_cases hx : Config.debugFuse = true ∧ (s.pwr.halt ≠ none ∨ s.releaseStep < 2)
    · obtain ⟨t, b, e, hi, hb⟩ := State.tap_shiftFree 0x00 bits.length hs
      refine ⟨t, (execExtest_shifts hs hx.1 hx.2).trans e, hi, fun _ _ => ⟨b, hb⟩, ?_⟩
      rintro (hf | ⟨hh, hr⟩)
      · exact absurd (hf.symm.trans hx.1) Bool.false_ne_true
      · exact absurd hx.2 (not_or.2 ⟨not_not.2 hh, Nat.not_lt.2 hr⟩)
    · refine ⟨_, execExtest_bypasses hs ?_, rfl, fun hf hr => absurd ⟨hf, hr⟩ hx, fun _ => ⟨rfl, rfl⟩⟩
      rw [not_and_or, not_or, not_not, Nat.not_lt, Bool.not_eq_true] at hx
      exact hx
  case command =>
    intro s b hs
    refine ⟨_, execCommand_powered hs, ?_, ?_, fun hf hh => ?_, fun hf => ?_⟩
    · split <;> rfl
    · split <;> rfl
    · rw [State.debugOn, hf, hh]
      rfl
    · rw [State.debugOn, hf]
      rfl
  case doorbell =>
    intro s op q hs
    refine ⟨_, execDoorbell_powered hs, ?_, ?_, fun hf hh hfw h4 => ?_, ?_⟩
    · split <;> rfl
    · split <;> rfl
    · rw [State.debugOn, hf, hh, hfw, h4, BitVec.ofNat_toNat, BitVec.setWidth_eq]
      rfl
    · rintro (hx | hx)
      · rw [State.debugOn, hx]
        rfl
      · have he : s.ctl.p4.isEmpty = false := by simpa using hx
        rw [he, Bool.and_false]
        rfl
  case bypass =>
    intro s c hs
    exact State.tap_powered _ _ hs
  case backup =>
    intro s h
    have off := fun c f => State.tap_backup (s := s) c f h
    have halt : execHalt s = .next s.fresh := by rw [execHalt, off]
    have extest (b) : execExtest b s = .next s.fresh := by rw [execExtest, off]
    have command (b) : execCommand b s = .next s.fresh := by rw [execCommand, off]
    have doorbell (op q) : execDoorbell op q s = .next s.fresh := by rw [execDoorbell, off]
    exact ⟨off _ _, halt, fun _ => ⟨off _ _, extest _, command _⟩, doorbell, fun _ => off _ _⟩

end Sys2Proof.Machine
end


section
/-! PROOFS. The Tile Store window (R374, R375, R71): the maintenance bit, the tiles an access touches, what a write stores and what a read
gives. -/

set_option Elab.async false

namespace Sys2Proof.Machine

open Sys2Proof

/-! ### A run of bytes above a store -/

theorem memRead_memWrite_of_ge {d : Nat → Byte} {m : List Host.Cell} {a b n : Nat} (bs : List Byte) (h : a + bs.length ≤ b) :
    memRead d (memWrite d m a bs) b n = memRead d m b n := by
  have hl : (m.filter (fun c => decide (c.1 < a))).filter (fun c => b ≤ c.1 && c.1 < b + n) = [] := by
    simp only [List.filter_eq_nil_iff, List.mem_filter, decide_eq_true_eq, Bool.and_eq_true]
    omega
  have hm : (runCells d a bs).filter (fun c => b ≤ c.1 && c.1 < b + n) = [] := by
    refine List.filter_eq_nil_iff.2 fun c hc => ?_
    have := (mem_runCells d a bs c hc).2.1
    simp only [decide_eq_true_eq, Bool.and_eq_true]
    omega
  have hr : (m.filter (fun c => decide (a + bs.length ≤ c.1))).filter (fun c => b ≤ c.1 && c.1 < b + n) =
      m.filter (fun c => b ≤ c.1 && c.1 < b + n) := by
    rw [List.filter_filter]
    refine List.filter_congr fun c _ => ?_
    by_cases hc : b ≤ c.1
    · simp [hc, h.trans hc]
    · simp [hc]
  rw [memRead, filter_memWrite, hl, hm, hr, List.nil_append, List.nil_append, memRead]

theorem State.bytesAt_storeBytes_of_ge {a b n : Nat} (bs : List Byte) (s : State) (h : a + bs.length ≤ b) :
    (s.storeBytes a bs).bytesAt b n = s.bytesAt b n := memRead_memWrite_of_ge bs h

theorem leNat_leBytes (n v : Nat) : leNat (leBytes n v) = v % 256 ^ n := by
  induction n generalizing v with
  | zero => simp [leBytes, leNat, Nat.mod_one]
  | succ n ih =>
    rw [leBytes, leNat, ih, BitVec.toNat_ofNat, pow_succ' 256, Nat.mod_mul]

/-! ### The CRC word -/

theorem crcBit_lt {c : Nat} (h : c < 2 ^ 32) : crcBit c < 2 ^ 32 := by
  have hc : c / 2 < 2 ^ 32 := by omega
  unfold crcBit
  split
  · exact Nat.xor_lt_two_pow hc (by decide)
  · exact hc

theorem crcByte_lt {c : Nat} (h : c < 2 ^ 32) (b : Byte) : crcByte c b < 2 ^ 32 := by
  have hb : b.toNat < 2 ^ 32 := lt_trans b.isLt (by decide)
  exact crcBit_lt (crcBit_lt (crcBit_lt (crcBit_lt (crcBit_lt (crcBit_lt (crcBit_lt (crcBit_lt (Nat.xor_lt_two_pow h hb))))))))

theorem poisonCrc_tileCrc_lt (p : List Byte) (e : BitVec 32) : poisonCrc (tileCrc p e) < 2 ^ 32 := by
  have hf (l : List Byte) : l.foldl crcByte 0xFFFFFFFF < 2 ^ 32 :=
    List.foldlRecOn (motive := (· < 2 ^ 32)) l crcByte (by decide) (fun c hc b _ => crcByte_lt hc b)
  exact Nat.xor_lt_two_pow (Nat.xor_lt_two_pow (hf _) (by decide)) (by decide)

/-! ### The tiles an access touches -/

theorem mem_touchedTiles {a len i : Nat} : i ∈ touchedTiles a len ↔ 0 < len ∧ a / 4096 ≤ i ∧ i ≤ (a + len - 1) / 4096 := by
  unfold touchedTiles
  split
  · next h => simp [h]
  · next h =>
    have hle : a / 4096 ≤ (a + len - 1) / 4096 := Nat.div_le_div_right (by omega)
    simp only [List.mem_map, List.mem_range]
    constructor
    · rintro ⟨k, hk, rfl⟩
      omega
    · rintro ⟨-, h1, h2⟩
      exact ⟨i - a / 4096, by omega, by omega⟩

/-- A run within one tile touches that tile alone. -/
theorem touchedTiles_one {a len : Nat} (h0 : 0 < len) (h : a % 4096 + len ≤ 4096) : touchedTiles a len = [a / 4096] := by
  have he : (a + len - 1) / 4096 = a / 4096 := by omega
  rw [touchedTiles, if_neg h0.ne', he, Nat.sub_self]
  simp

/-! ### One tile written -/

section
variable (a : Nat) (bs : List Byte) (i : Nat) (s : State)

/-- The part of a write at `a` that falls in tile `i`. -/
def tilePart : List Byte :=
  (bs.drop (max a (4096 * i) - a)).take (min (a + bs.length) (4096 * i + 4096) - max a (4096 * i))

theorem tilePart_length : (tilePart a bs i).length = min (a + bs.length) (4096 * i + 4096) - max a (4096 * i) := by
  rw [tilePart, List.length_take, List.length_drop]
  omega

/-- Where a touched tile's part lies: in the tile, and in the write. -/
theorem tilePart_within {a : Nat} {bs : List Byte} {i : Nat} (h : i ∈ touchedTiles a bs.length) :
    4096 * i ≤ max a (4096 * i) ∧ max a (4096 * i) + (tilePart a bs i).length = min (a + bs.length) (4096 * i + 4096) := by
  obtain ⟨h0, h1, h2⟩ := mem_touchedTiles.1 h
  rw [tilePart_length]
  omega

/-- The state with the tile's part stored, before its check record is poisoned. -/
def State.storePart : State := s.storeBytes (max a (4096 * i)) (tilePart a bs i)

theorem State.bar2Tile1_eq : s.bar2Tile1 a bs i = (s.storePart a bs i).storeBytes (checkBase s.pwr.reduced + 8 * i)
    (leBytes 4 (poisonCrc (tileCrc ((s.storePart a bs i).bytesAt (4096 * i) 4096) 0))) := rfl

@[simp] theorem State.bar2Tile1_pwr : (s.bar2Tile1 a bs i).pwr = s.pwr := pwr_of_kept (State.bar2Tile1_kept (μ := 0x1C0) a bs i s)

variable {a bs i s}

/-- A byte outside the tile's part and its CRC word is as before. -/
theorem State.bar2Tile1_elsewhere {x : Nat} (h1 : x < max a (4096 * i) ∨ min (a + bs.length) (4096 * i + 4096) ≤ x)
    (h2 : x < checkBase s.pwr.reduced + 8 * i ∨ checkBase s.pwr.reduced + 8 * i + 4 ≤ x) :
    (s.bar2Tile1 a bs i).byteAt x = s.byteAt x := by
  rw [State.bar2Tile1_eq, storeBytes_byteAt, leBytes_length, if_neg (by omega), State.storePart, storeBytes_byteAt, tilePart_length,
    if_neg (by omega)]

/-- A byte of the write in the tile is stored. -/
theorem State.bar2Tile1_stored {x : Nat} (hi : i < ringSpace s.pwr.reduced) (ha : a ≤ x) (hx : x < a + bs.length) (ht : x / 4096 = i) :
    some ((s.bar2Tile1 a bs i).byteAt x) = bs[x - a]? := by
  have hcb := tile_below_checkBase hi
  have hget : (tilePart a bs i)[x - max a (4096 * i)]? = bs[x - a]? := by
    rw [tilePart, List.getElem?_take_of_lt (by omega), List.getElem?_drop]
    congr 1
    omega
  rw [State.bar2Tile1_eq, storeBytes_byteAt, leBytes_length, if_neg (by omega), State.storePart, storeBytes_byteAt, tilePart_length,
    if_pos (by omega), List.getD_eq_getElem?_getD, hget, List.getElem?_eq_getElem (by omega)]
  rfl

/-- Whether the CRC word of tile `i` is the complement of the CRC its payload has with ESEQ 0. -/
def State.Poisoned (i : Nat) (s : State) : Prop :=
  leNat (s.bytesAt (checkBase s.pwr.reduced + 8 * i) 4) = poisonCrc (tileCrc (s.bytesAt (4096 * i) 4096) 0)

theorem State.bar2Tile1_poisoned (hi : i < ringSpace s.pwr.reduced) : (s.bar2Tile1 a bs i).Poisoned i := by
  have hcb := tile_below_checkBase hi
  rw [State.Poisoned, State.bar2Tile1_pwr, State.bar2Tile1_eq, State.bytesAt_storeBytes _ (leBytes_length ..),
    State.bytesAt_storeBytes_of_le _ _ (by omega), leNat_leBytes]
  exact Nat.mod_eq_of_lt (poisonCrc_tileCrc_lt ..)

/-- Another tile written leaves a tile of ring space and its CRC word. -/
theorem State.bar2Tile1_poisoned_of_ne {j : Nat} (h : s.Poisoned j) (hj : j < ringSpace s.pwr.reduced) (hi : i < ringSpace s.pwr.reduced)
    (ht : i ∈ touchedTiles a bs.length) (hne : i ≠ j) : (s.bar2Tile1 a bs i).Poisoned j := by
  have hcbi := tile_below_checkBase hi
  have hcbj := tile_below_checkBase hj
  obtain ⟨hlo, hhi⟩ := tilePart_within ht
  have hpay : (s.bar2Tile1 a bs i).bytesAt (4096 * j) 4096 = s.bytesAt (4096 * j) 4096 := by
    rw [State.bar2Tile1_eq, State.bytesAt_storeBytes_of_le _ _ (by omega), State.storePart]
    rcases Nat.lt_or_gt_of_ne hne with hlt | hlt
    · exact State.bytesAt_storeBytes_of_ge _ _ (by omega)
    · exact State.bytesAt_storeBytes_of_le _ _ (by omega)
  have hrec : (s.bar2Tile1 a bs i).bytesAt (checkBase s.pwr.reduced + 8 * j) 4 = s.bytesAt (checkBase s.pwr.reduced + 8 * j) 4 := by
    have hpart : (s.storePart a bs i).bytesAt (checkBase s.pwr.reduced + 8 * j) 4 = s.bytesAt (checkBase s.pwr.reduced + 8 * j) 4 :=
      State.bytesAt_storeBytes_of_ge _ _ (by omega)
    rw [State.bar2Tile1_eq, ← hpart]
    rcases Nat.lt_or_gt_of_ne hne with hlt | hlt
    · exact State.bytesAt_storeBytes_of_ge _ _ (by rw [leBytes_length]; omega)
    · exact State.bytesAt_storeBytes_of_le _ _ (by omega)
  rw [State.Poisoned, State.bar2Tile1_pwr, hpay, hrec]
  exact h

end

/-! ### A write -/

section
variable {a : Nat} {bs : List Byte} {l : List Nat} {s : State}

theorem State.bar2Tiles_pwr : (l.foldl (fun s i => s.bar2Tile1 a bs i) s).pwr = s.pwr :=
  foldl_leaves State.pwr (fun s i => State.bar2Tile1_pwr a bs i s) l s

theorem State.bar2Tiles_elsewhere {x : Nat} (h : ∀ i ∈ l, (x < max a (4096 * i) ∨ min (a + bs.length) (4096 * i + 4096) ≤ x) ∧
    (x < checkBase s.pwr.reduced + 8 * i ∨ checkBase s.pwr.reduced + 8 * i + 4 ≤ x)) :
    (l.foldl (fun s i => s.bar2Tile1 a bs i) s).byteAt x = s.byteAt x := by
  induction l generalizing s with
  | nil => rfl
  | cons i l ih =>
    obtain ⟨h1, h2⟩ := h i List.mem_cons_self
    rw [List.foldl_cons, ih (fun j hj => by rw [State.bar2Tile1_pwr]; exact h j (List.mem_cons_of_mem _ hj)),
      State.bar2Tile1_elsewhere h1 h2]

/-- A byte stored in its tile stays: the tiles written after it are others, and check records lie above ring space. -/
theorem State.bar2Tiles_stored {x : Nat} (hl : ∀ i ∈ l, i < ringSpace s.pwr.reduced) (hx : x / 4096 ∈ l) (ha : a ≤ x)
    (hb : x < a + bs.length) : some ((l.foldl (fun s i => s.bar2Tile1 a bs i) s).byteAt x) = bs[x - a]? := by
  induction l generalizing s with
  | nil => cases hx
  | cons i l ih =>
    rw [List.foldl_cons]
    by_cases hm : x / 4096 ∈ l
    · exact ih (fun j hj => by rw [State.bar2Tile1_pwr]; exact hl j (List.mem_cons_of_mem _ hj)) hm
    · have hi : x / 4096 = i := (List.mem_cons.1 hx).resolve_right hm
      have hin := hl i List.mem_cons_self
      have hcb := tile_below_checkBase hin
      rw [State.bar2Tiles_elsewhere, State.bar2Tile1_stored hin ha hb hi]
      intro j hj
      have hne : x / 4096 ≠ j := fun h => hm (h ▸ hj)
      rw [State.bar2Tile1_pwr]
      omega

theorem State.bar2Tiles_poisoned_of_not_mem {j : Nat} (hl : ∀ i ∈ l, i < ringSpace s.pwr.reduced ∧ i ∈ touchedTiles a bs.length)
    (hj : j < ringSpace s.pwr.reduced) (hn : j ∉ l) (h : s.Poisoned j) : (l.foldl (fun s i => s.bar2Tile1 a bs i) s).Poisoned j := by
  induction l generalizing s with
  | nil => exact h
  | cons i l ih =>
    obtain ⟨hi, ht⟩ := hl i List.mem_cons_self
    refine ih (fun k hk => ?_) ?_ (fun hk => hn (List.mem_cons_of_mem _ hk)) ?_
    · rw [State.bar2Tile1_pwr]
      exact hl k (List.mem_cons_of_mem _ hk)
    · rwa [State.bar2Tile1_pwr]
    · exact State.bar2Tile1_poisoned_of_ne h hj hi ht (fun e => hn (e ▸ List.mem_cons_self))

theorem State.bar2Tiles_poisoned {j : Nat} (hl : ∀ i ∈ l, i < ringSpace s.pwr.reduced ∧ i ∈ touchedTiles a bs.length) (hj : j ∈ l) :
    (l.foldl (fun s i => s.bar2Tile1 a bs i) s).Poisoned j := by
  induction l generalizing s with
  | nil => cases hj
  | cons i l ih =>
    have hl' : ∀ k ∈ l, k < ringSpace (s.bar2Tile1 a bs i).pwr.reduced ∧ k ∈ touchedTiles a bs.length := fun k hk => by
      rw [State.bar2Tile1_pwr]
      exact hl k (List.mem_cons_of_mem _ hk)
    by_cases hm : j ∈ l
    · exact ih hl' hm
    · obtain ⟨hin, -⟩ := hl j hj
      have hi : j = i := (List.mem_cons.1 hj).resolve_right hm
      subst hi
      rw [List.foldl_cons]
      exact State.bar2Tiles_poisoned_of_not_mem hl' (by rwa [State.bar2Tile1_pwr]) hm (State.bar2Tile1_poisoned hin)

theorem State.mem_bar2Targets {len i : Nat} :
    i ∈ s.bar2Targets a len ↔ i ∈ touchedTiles a len ∧ i < ringSpace s.pwr.reduced ∧ s.ringAt i = none := by
  rw [State.bar2Targets, List.mem_filter, Bool.and_eq_true, decide_eq_true_eq, Option.isNone_iff_eq_none]

/-- A write made: its tiles written one after another. -/
theorem State.accessNow_write : s.accessNow (.write a bs) =
    (s.bar2Targets a bs.length).foldl (fun s i => s.bar2Tile1 a bs i) (s.takeBest (s.bar2Targets a bs.length)) := rfl

end

/-! ### An access -/

section
variable {s : State}

@[simp] theorem State.byHost_bar2Base (off : Nat) : s.byHost.bar2Base off = s.bar2Base off := by
  rw [State.bar2Base, State.byHost_midway, State.bar2Base]

@[simp] theorem State.byHost_ringAt (i : Nat) : s.byHost.ringAt i = s.ringAt i := by rw [State.ringAt, State.byHost_mem, State.ringAt]

@[simp] theorem State.byHost_bestRoom (l : List Nat) : s.byHost.bestRoom l = s.bestRoom l := by
  rw [State.bestRoom, State.byHost_pwr, State.byHost_bud, State.bestRoom]

@[simp] theorem State.byHost_bar2Targets (a len : Nat) : s.byHost.bar2Targets a len = s.bar2Targets a len := by
  simp [State.bar2Targets]

theorem State.access_now {x : BestAccess} (hw : s.bud.waits = []) (hr : s.bestRoom (s.accessTiles x) = true) :
    s.access x = s.accessNow x := by
  rw [State.access, hw, hr]
  rfl

theorem State.access_waits {x : BestAccess} (h : s.bud.waits ≠ [] ∨ s.bestRoom (s.accessTiles x) = false) :
    s.access x = s.onBud (fun b => { b with waits := b.waits ++ [x] }) := by
  refine if_neg fun hc => ?_
  rw [Bool.and_eq_true, List.isEmpty_iff] at hc
  rcases h with h | h
  · exact h hc.1
  · exact absurd (h.symm.trans hc.2) Bool.false_ne_true

theorem State.bar2Write_open {off : Nat} {b : List Byte} (h : fbit s.ctl.midway Midway.maint = true) :
    s.bar2Write off b = s.access (.write (s.bar2Base off) (b.take (2 ^ 32 - off))) := by
  rw [State.bar2Write, h]
  rfl

/-- Whether the host may read a tile through the window. -/
def State.reachable (s : State) (i : Nat) : Prop :=
  i < ringSpace s.pwr.reduced ∧ (s.ringAt i ≠ none ∨ fbit s.ctl.midway Midway.maint = true)

theorem State.reachable_iff (i : Nat) : s.reachable i ↔
    (i < ringSpace s.pwr.reduced && ((s.ringAt i).isSome || fbit s.ctl.midway Midway.maint)) = true := by
  rw [State.reachable, Bool.and_eq_true, decide_eq_true_eq, Bool.or_eq_true, Option.isSome_iff_ne_none]

@[simp] theorem State.byHost_reachable (i : Nat) : s.byHost.reachable i ↔ s.reachable i := by
  rw [State.reachable, State.byHost_pwr, State.byHost_ringAt, State.byHost_midway, State.reachable]

theorem State.bar2Read_refused {off len : Nat} (h : 2 ^ 32 < off + len ∨ ∃ i ∈ touchedTiles (s.bar2Base off) len, ¬s.reachable i) :
    s.bar2Read off len = s.emit .unsupported := by
  refine if_pos ?_
  rw [Bool.or_eq_true, decide_eq_true_eq, Bool.not_eq_true', List.all_eq_false]
  exact h.imp_right fun ⟨i, hi, hn⟩ => ⟨i, hi, fun hr => hn ((s.reachable_iff i).2 hr)⟩

theorem State.bar2Read_access {off len : Nat} (hle : off + len ≤ 2 ^ 32) (h : ∀ i ∈ touchedTiles (s.bar2Base off) len, s.reachable i) :
    s.bar2Read off len = s.access (.read (s.bar2Base off) len) := by
  refine if_neg ?_
  rw [Bool.or_eq_true, decide_eq_true_eq, Bool.not_eq_true', List.all_eq_false]
  rintro (hlt | ⟨i, hi, hn⟩)
  · omega
  · exact hn ((s.reachable_iff i).1 (h i hi))

/-- A read within one tile gives its part of the tile, or no data. -/
theorem State.bar2Get_one {a len : Nat} (h0 : 0 < len) (h : a % 4096 + len ≤ 4096) : s.bar2Get a len =
    match s.bar2Tile (a / 4096) with
    | (t, some b) => t.emit (.completion ((b.drop (a % 4096)).take len))
    | (t, none) => t.emit .abort := by
  rw [State.bar2Get, touchedTiles_one h0 h]
  simp only [List.foldl_cons, List.foldl_nil]
  rcases s.bar2Tile (a / 4096) with ⟨t, _ | b⟩ <;> rfl

/-- The window's reading is of memory and the card, which an access of the host and its slots leave. -/
theorem State.verify_of_same {t : State} (hm : t.mem = s.mem) (hp : t.pwr = s.pwr) (r : Nat) (e : BitVec 32) (x : Option (Bool × Nat)) :
    t.verify r e x = s.verify r e x := by
  have hb : SameStore s t := ⟨by rw [hm], by rw [hm], by rw [hp]⟩
  simp only [State.verify, State.ring, State.abandonedAt, State.markerAt, State.markersOf, hb.bytesAt, hm, hp]
  rfl

section
variable (l : List Nat)

/-- A host access with slots taken, before it is made. -/
theorem State.byHost_takeBest_mem : (s.byHost.takeBest l).mem = s.mem := (State.onBud_mem ..).trans (State.byHost_mem s)

theorem State.byHost_takeBest_pwr : (s.byHost.takeBest l).pwr = s.pwr := (State.onBud_pwr ..).trans (State.byHost_pwr s)

theorem State.byHost_takeBest_ringAt (i : Nat) : (s.byHost.takeBest l).ringAt i = s.ringAt i := by
  rw [State.ringAt, State.byHost_takeBest_mem, State.ringAt]

theorem State.byHost_takeBest_ring (r : Nat) : (s.byHost.takeBest l).ring r = s.ring r := by
  rw [State.ring, State.byHost_takeBest_mem, State.ring]

theorem State.byHost_takeBest_verify (r : Nat) (e : BitVec 32) (x : Option (Bool × Nat)) :
    (s.byHost.takeBest l).verify r e x = s.verify r e x :=
  State.verify_of_same (State.byHost_takeBest_mem l) (State.byHost_takeBest_pwr l) ..

theorem State.byHost_takeBest_bytesAt (a n : Nat) : (s.byHost.takeBest l).bytesAt a n = s.bytesAt a n := by
  have hb : SameStore s (s.byHost.takeBest l) :=
    ⟨by rw [State.byHost_takeBest_mem], by rw [State.byHost_takeBest_mem], by rw [State.byHost_takeBest_pwr]⟩
  exact hb.bytesAt a n

end

theorem State.bar2Tile_good {i r : Nat} {b : List Byte} (hr : s.ringAt i = some r)
    (hv : s.verify r (newestAt (s.ring r) i) none = .good b) : s.bar2Tile i = (s, some b) := by
  simp only [State.bar2Tile, hr, hv]

theorem State.bar2Tile_bad {i r : Nat} (hr : s.ringAt i = some r) (hv : ∀ b, s.verify r (newestAt (s.ring r) i) none ≠ .good b) :
    (s.bar2Tile i).2 = none := by
  simp only [State.bar2Tile, hr]

theorem State.bar2Tile_unowned {i : Nat} (hr : s.ringAt i = none) : s.bar2Tile i = (s, some (s.bytesAt (4096 * i) 4096)) := by
  simp only [State.bar2Tile, hr]

theorem State.setMaint_maint (v : Bool) : fbit (s.setMaint v).ctl.midway Midway.maint = true ↔
    v = true ∧ s.pwr.power = .staging ∧ ∀ e ∈ s.mem.rings, fget e.2 RingDesc.stateF ≠ 2 := by
  have hb (b : Bool) : fbit (fput s.ctl.midway Midway.maint (bit b)) Midway.maint = b := by
    rw [fbit, fget_fput _ _ _ (by decide)]
    cases b <;> rfl
  rw [State.setMaint, State.onMidway, State.onCtl_ctl, hb]
  simp

theorem State.enterActive_maint (h : s.pwr.power ≠ .active) : fbit s.enterActive.ctl.midway Midway.maint = false := by
  rw [State.enterActive, if_neg h, State.midway_of_unpended (State.setPower_unpended ..), State.onCtl_ctl, fbit,
    fget_fput _ _ _ (by decide)]
  rfl

end

/-- Settles O34: a write in the window is an access with the tiles of no ring among those it touches, written one after another; entry to
ACTIVE clears the bit before its event. The poison of a check record is log entry 65, and the waiting log entry 104. -/
theorem maintenanceWindowWrites : Obligations.MaintenanceWindowWrites := by
  refine ⟨?maint, ?active, ?now, ?waits, ?made⟩
  case maint =>
    intro s v hp
    exact ⟨_, State.hostAccess_released _ hp, by rw [State.setMaint_maint, State.byHost_pwr, State.byHost_mem]⟩
  case active =>
    intro q s hs ht hv htr hf hi hn
    have hc := cmdPowerSet_active (s := taken q s) ht hv (by simpa using htr) (by simpa using hf) (by rw [taken_flt, hi])
    exact ⟨_, serve_ok hs hc, State.enterActive_maint (by rwa [taken_pwr])⟩
  case now =>
    intro s a off b hp hm ha hw hr
    have hm' : fbit s.byHost.ctl.midway Midway.maint = true := by rwa [State.byHost_midway]
    refine (State.hostAccess_released _ hp).trans (congrArg Host.Outcome.next ?_)
    rw [State.bar2Write_open hm', State.byHost_bar2Base, ← ha, State.access_now]
    · rwa [State.byHost_bud]
    · rwa [State.accessTiles, State.byHost_bar2Targets, State.byHost_bestRoom]
  case waits =>
    intro s a off b hp hm ha hw
    have hm' : fbit s.byHost.ctl.midway Midway.maint = true := by rwa [State.byHost_midway]
    refine (State.hostAccess_released _ hp).trans (congrArg Host.Outcome.next ?_)
    rw [State.bar2Write_open hm', State.byHost_bar2Base, ← ha, State.access_waits]
    rwa [State.byHost_bud, State.accessTiles, State.byHost_bar2Targets, State.byHost_bestRoom]
  case made =>
    rintro s t a b rfl
    rw [State.accessNow_write]
    have hl : ∀ i ∈ s.bar2Targets a b.length, i < ringSpace s.pwr.reduced ∧ i ∈ touchedTiles a b.length := fun i hi =>
      ⟨(State.mem_bar2Targets.1 hi).2.1, (State.mem_bar2Targets.1 hi).1⟩
    refine ⟨fun x hx => ?_, fun x ha hb hin hown => ?_, fun i hi hin hown => ?_⟩
    · refine State.bar2Tiles_elsewhere fun i hi => ?_
      obtain ⟨ht, hin, hown⟩ := State.mem_bar2Targets.1 hi
      exact hx i ht hin hown
    · refine State.bar2Tiles_stored (fun i hi => (hl i hi).1) (State.mem_bar2Targets.2 ⟨mem_touchedTiles.2 ?_, hin, hown⟩) ha hb
      omega
    · have h := State.bar2Tiles_poisoned (s := s.takeBest (s.bar2Targets a b.length)) hl (State.mem_bar2Targets.2 ⟨hi, hin, hown⟩)
      rw [State.Poisoned, State.bar2Tiles_pwr] at h
      exact h

/-- Settles O35: a read is refused, waits or is made; within one tile, what it gives is what the tile's reading gives. That it waits is
log entry 104, and the refusal of one that passes the window's 4 GiB log entry 73. -/
theorem hostWindowReads : Obligations.HostWindowReads := by
  have open_ {s : State} {a : Nat} {off : BitVec 32} {len : Fin 4097} (hp : s.hostPort = true) (ha : a = s.bar2Base off.toNat)
      (hle : off.toNat + len.val ≤ 2 ^ 32) (h : ∀ i ∈ touchedTiles a len.val, s.reachable i) :
      exec (.bar2Read off len) s = .next (s.byHost.access (.read a len.val)) := by
    refine (State.hostAccess_released _ hp).trans (congrArg Host.Outcome.next ?_)
    rw [State.bar2Read_access hle, State.byHost_bar2Base, ← ha]
    rw [State.byHost_bar2Base, ← ha]
    exact fun i hi => State.byHost_reachable i |>.2 (h i hi)
  have one {s : State} {a : Nat} {off : BitVec 32} {len : Fin 4097} (hp : s.hostPort = true) (ha : a = s.bar2Base off.toNat)
      (hle : off.toNat + len.val ≤ 2 ^ 32) (h0 : 0 < len.val) (h1 : a % 4096 + len.val ≤ 4096) (h : s.reachable (a / 4096))
      (hw : s.bud.waits = []) (hr : s.bestRoom [a / 4096] = true) :
      exec (.bar2Read off len) s = .next ((s.byHost.takeBest [a / 4096]).bar2Get a len.val) := by
    rw [open_ hp ha hle, State.access_now, State.accessNow, State.accessTiles, touchedTiles_one h0 h1]
    · rwa [State.byHost_bud]
    · rwa [State.accessTiles, touchedTiles_one h0 h1, State.byHost_bestRoom]
    · rw [touchedTiles_one h0 h1]
      exact List.forall_mem_singleton.2 h
  refine ⟨?write, ?refused, ?waits, ?good, ?bad, ?unowned⟩
  case write =>
    intro s off b hp hm
    have hm' : fbit s.byHost.ctl.midway Midway.maint = false := by rwa [State.byHost_midway]
    have he : s.byHost.bar2Write off.toNat b = s.byHost.busError 3 (bar2Addr off.toNat) hostMaster := by
      rw [State.bar2Write, hm']
      rfl
    refine ⟨_, (State.hostAccess_released _ hp).trans (congrArg Host.Outcome.next he), State.busError_status .., ?_⟩
    rw [State.busError, State.raise_mem, State.byHost_mem]
  case refused =>
    intro s off len hp h
    refine (State.hostAccess_released _ hp).trans (congrArg Host.Outcome.next (State.bar2Read_refused ?_))
    rw [State.byHost_bar2Base]
    refine h.imp_right fun ⟨i, hi, hx⟩ => ⟨i, hi, fun hr => ?_⟩
    obtain ⟨hin, hown⟩ := (State.byHost_reachable i).1 hr
    rcases hx with hx | ⟨hx, hm⟩
    · omega
    · exact hown.elim (fun h => h hx) (fun h => absurd (hm.symm.trans h) Bool.false_ne_true)
  case waits =>
    intro s a off len hp ha hle h hw
    rw [open_ hp ha hle h, State.access_waits]
    rwa [State.byHost_bud, State.accessTiles, State.byHost_bestRoom]
  case good =>
    intro s a off len r b hp ha hle h0 h1 hin hw hr hown hv
    rw [one hp ha hle h0 h1 ⟨hin, .inl (hown ▸ Option.some_ne_none r)⟩ hw hr, State.bar2Get_one h0 h1,
      State.bar2Tile_good (r := r) (b := b)]
    · rwa [State.byHost_takeBest_ringAt]
    · rwa [State.byHost_takeBest_verify, State.byHost_takeBest_ring]
  case bad =>
    intro s a off len r hp ha hle h0 h1 hin hw hr hown hv
    have hbad : ((s.byHost.takeBest [a / 4096]).bar2Tile (a / 4096)).2 = none := by
      refine State.bar2Tile_bad (r := r) ?_ fun b => ?_
      · rwa [State.byHost_takeBest_ringAt]
      · rw [State.byHost_takeBest_verify, State.byHost_takeBest_ring]
        exact hv b
    refine ⟨_, one hp ha hle h0 h1 ⟨hin, .inl (hown ▸ Option.some_ne_none r)⟩ hw hr, ?_, ?_⟩
    · rw [State.bar2Get_one h0 h1]
      split
      · next e => rw [e] at hbad; cases hbad
      · exact List.getLast?_concat
    · obtain ⟨ht, -, -⟩ := tiles_of_kept (State.bar2Get_kept (μ := 0x2C0054) a len.val (s.byHost.takeBest [a / 4096]))
      rw [ht, State.byHost_takeBest_mem]
  case unowned =>
    intro s a off len hp ha hle h0 h1 hin hw hr hown hm
    rw [one hp ha hle h0 h1 ⟨hin, .inr hm⟩ hw hr, State.bar2Get_one h0 h1, State.bar2Tile_unowned, State.byHost_takeBest_bytesAt]
    rwa [State.byHost_takeBest_ringAt]

end Sys2Proof.Machine
end


section
/-! PROOFS. The fault collector after an event (R434, R436, R440, R443): what an event leaves of CAUSE, of isolation and of PARITY_TRIP, and
the events that follow it where an output's bound or a link changes. -/

set_option Elab.async false

namespace Sys2Proof.Machine

open Sys2Proof

/-! ### One event in the collector -/

section
variable (e : Ev) (b : Bool) (s : State)

theorem State.note_isolated : (s.note e b).flt.isolated = s.flt.isolated := by
  unfold State.note State.pend
  simp only
  split
  · simp only [State.onFlt_flt, enqueue]; split <;> rfl
  · rw [State.signal_flt]; simp only [State.onFlt_flt, enqueue]; split <;> rfl

theorem State.note_cause : (s.note e b).flt.cause = (collect e b s.now s.flt).cause := by
  unfold State.note State.pend
  simp only
  split
  · simp only [State.onFlt_flt, enqueue]; split <;> rfl
  · rw [State.signal_flt]; simp only [State.onFlt_flt, enqueue]; split <;> rfl

theorem mem_collect_cause {e : Ev} {b : Bool} {now : Nat} {f : FltSt} {p : Nat × Nat} (h : p ∈ (collect e b now f).cause) :
    p.1 = e.code ∨ p ∈ f.cause := by
  simp only [collect] at h
  split at h
  · rcases (mem_pinsert ..).1 h with rfl | h
    · exact .inl rfl
    · exact .inr h
  · split at h
    · exact .inr (List.mem_filter.1 h).1
    · exact .inr h

theorem State.note_parityTrip : fget (s.note e b).flt.ctl FaultCtl.parityTrip = fget s.flt.ctl FaultCtl.parityTrip := by
  obtain ⟨n, h⟩ := State.note_ctl e b s
  rw [h, fget_fput_of_disjoint _ _ _ _ (by decide) (by decide)]

/-- An event with its escalation is one event, or one and FAULT_ESCALATED with a count. -/
theorem State.noteRise_isolated : (s.noteRise e b).flt.isolated = s.flt.isolated := by
  rcases State.noteRise_cases e b s with r | r <;> rw [r]
  · rw [State.note_isolated, State.onFlt_flt, State.note_isolated]
  · exact State.note_isolated ..

theorem mem_noteRise_cause {e : Ev} {b : Bool} {s : State} {p : Nat × Nat} (h : p ∈ (s.noteRise e b).flt.cause) :
    p.1 = e.code ∨ p.1 = 0x21 ∨ p ∈ s.flt.cause := by
  rcases State.noteRise_cases e b s with r | r <;> rw [r, State.note_cause] at h
  · rcases mem_collect_cause h with h | h
    · exact .inr (.inl h)
    · rw [State.onFlt_flt, State.note_cause] at h
      exact (mem_collect_cause h).imp_right .inr
  · exact (mem_collect_cause h).imp_right .inr

/-! ### An event of another class than fatal -/

theorem State.raiseWith_eq_noteRise {e : Ev} (h : evClass e.code ≠ 3) : s.raiseWith e b = s.noteRise e b := by
  unfold State.raiseWith
  simp only [h, decide_false, Bool.false_and, Bool.false_eq_true, if_false]

theorem State.raiseWith_isolated {e : Ev} (h : evClass e.code ≠ 3) : (s.raiseWith e b).flt.isolated = s.flt.isolated := by
  rw [State.raiseWith_eq_noteRise b s h, State.noteRise_isolated]

theorem mem_raise_cause {e : Ev} {s : State} {p : Nat × Nat} (he : evClass e.code ≠ 3) (h : p ∈ (s.raise e).flt.cause) :
    p.1 = e.code ∨ p.1 = 0x21 ∨ p ∈ s.flt.cause := by
  rw [State.raise, State.raiseWith_eq_noteRise _ _ he] at h
  exact mem_noteRise_cause h

end

/-! ### Entry into Safety Net -/

section
variable (s : State)

theorem State.enterSafetyNet_parityTrip : fget s.enterSafetyNet.flt.ctl FaultCtl.parityTrip = fget s.flt.ctl FaultCtl.parityTrip := by
  unfold State.enterSafetyNet
  extract_lets was s1 s2 s3
  have h1 : fget s1.flt.ctl FaultCtl.parityTrip = fget s.flt.ctl FaultCtl.parityTrip := by
    unfold s1
    rw [State.onFlt_flt, fget_fput_of_disjoint _ _ _ _ (by decide) (by decide), fget_fput_of_disjoint _ _ _ _ (by decide) (by decide)]
  have h2 : s2.flt = s1.flt := by
    unfold s2
    rw [State.onTrp_flt, State.onTst_flt]
  have h3 : fget s3.flt.ctl FaultCtl.parityTrip = fget s.flt.ctl FaultCtl.parityTrip := by
    unfold s3
    rw [State.note_parityTrip, h2, h1]
  split
  · rfl
  · split
    · rw [flt_of_kept (State.sendHeartbeat_kept (μ := 0xC0000) ..), h3]
    · exact h3

/-- The collector's dedicated path: PARITY_TRIP and its event, and Safety Net (R443). -/
theorem State.parityTrip_trips (forced : Bool) : fbit (s.parityTrip forced).flt.ctl FaultCtl.parityTrip = true ∧
    (0x20, locCollector) ∈ (s.parityTrip forced).flt.status ∧ (s.parityTrip forced).safetyNet = true := by
  unfold State.parityTrip
  refine ⟨?_, State.enterSafetyNet_status ?_, State.enterSafetyNet_on _⟩
  · rw [fbit, State.enterSafetyNet_parityTrip, State.note_parityTrip, State.onFlt_flt, fget_fput _ _ _ (by decide)]
    rfl
  · rw [State.note_status]
    exact (mem_pinsert ..).2 (.inl rfl)

/-! ### Routes bound anew -/

theorem State.boundEvent_class : evClass 0x60 ≠ 3 := by decide

theorem State.rebound_isolated (o : Nat) : (s.rebound o).flt.isolated = s.flt.isolated := by
  unfold State.rebound
  extract_lets now had next out s1
  have h1 : s1.flt = s.flt := by
    unfold s1
    split
    · rfl
    · exact State.onRte_flt ..
  refine (foldl_leaves (fun t : State => t.flt.isolated) (fun t c => ?_) now s1).trans (congrArg FltSt.isolated h1)
  split
  · rfl
  · exact State.raiseWith_isolated _ _ State.boundEvent_class

theorem State.rebound_safetyNet (o : Nat) : (s.rebound o).safetyNet = s.safetyNet := by
  unfold State.rebound
  extract_lets now had next out s1
  have h1 : s1.safetyNet = s.safetyNet := by
    unfold s1
    split
    · rfl
    · rw [State.safetyNet, State.setOut, State.onRte_flt, State.safetyNet]
  refine (foldl_leaves State.safetyNet (fun t c => ?_) now s1).trans h1
  split
  · rfl
  · exact State.raise_safetyNet State.boundEvent_class

theorem State.reboundAll_isolated : s.reboundAll.flt.isolated = s.flt.isolated :=
  foldl_leaves (fun t : State => t.flt.isolated) (fun t _ => t.rebound_isolated _) _ _

theorem State.reboundAll_safetyNet : s.reboundAll.safetyNet = s.safetyNet :=
  foldl_leaves State.safetyNet (fun t _ => t.rebound_safetyNet _) _ _

theorem mem_rebound_cause {s : State} {o : Nat} {p : Nat × Nat} (h : p ∈ (s.rebound o).flt.cause) :
    p.1 = 0x60 ∨ p.1 = 0x21 ∨ p ∈ s.flt.cause := by
  revert h
  unfold State.rebound
  extract_lets now had next out s1
  have h1 : s1.flt.cause = s.flt.cause := by
    unfold s1
    split
    · rfl
    · rw [State.setOut, State.onRte_flt]
  rw [← h1]
  refine List.foldlRecOn (motive := fun t : State => p ∈ t.flt.cause → p.1 = 0x60 ∨ p.1 = 0x21 ∨ p ∈ s1.flt.cause) now _
    (fun h => .inr (.inr h)) (fun t ht c _ h => ?_)
  split at h
  · exact ht h
  · rcases mem_raise_cause State.boundEvent_class h with h | h | h
    · exact .inl h
    · exact .inr (.inl h)
    · exact ht h

/-- Routes bound anew raise no cause but their own and that of the escalation. -/
theorem mem_reboundAll_cause {s : State} {p : Nat × Nat} (h : p ∈ s.reboundAll.flt.cause) : p.1 = 0x60 ∨ p.1 = 0x21 ∨ p ∈ s.flt.cause := by
  revert h
  refine List.foldlRecOn (motive := fun t : State => p ∈ t.flt.cause → p.1 = 0x60 ∨ p.1 = 0x21 ∨ p ∈ s.flt.cause) s.rte.active _
    (fun h => .inr (.inr h)) (fun t ht e _ h => ?_)
  rcases mem_rebound_cause h with h | h | h
  · exact .inl h
  · exact .inr (.inl h)
  · exact ht h

theorem State.reboundAll_pwr : s.reboundAll.pwr = s.pwr := pwr_of_kept (State.reboundAll_kept (μ := 0x2C0414) ..)

theorem State.raise_pwr (e : Ev) : (s.raise e).pwr = s.pwr := pwr_of_kept (State.raise_kept (μ := 0x2C0014) ..)

/-! ### A link that falls, and the reaction of a unit -/

theorem StatusGrows.of_flt {s t : State} (h : t.flt = s.flt) : StatusGrows s t := .of_status (congrArg FltSt.status h)

theorem State.abortBurst_grows (addr master : Nat) (write : Bool) (beats : Nat) : StatusGrows s (s.abortBurst addr master write beats) :=
  StatusGrows.trans (.of_flt (State.onCtl_flt _ s)) (State.raise_grows _ _)

theorem State.isolateMaster_grows (m : Nat) : StatusGrows s (s.isolateMaster m) := by
  unfold State.isolateMaster
  extract_lets s1
  have h1 : StatusGrows s s1 := .of_flt rfl
  split
  · exact h1.trans (State.abortBurst_grows ..)
  · exact h1

theorem State.updateReach_grows (k : Nat) : StatusGrows s (s.updateReach k) := by
  unfold State.updateReach
  extract_lets s1 new s2 v
  have h1 : StatusGrows s s1 := .of_flt (State.onTrp_flt ..)
  have h2 : StatusGrows s1 s2 := StatusGrows.trans (.of_flt (State.onTrp_flt _ s1)) (State.raise0_grows ..)
  have h3 : StatusGrows s2 (s2.onPtp (fun p => { p with beyond := 0 })) := .of_flt (State.onPtp_flt ..)
  split
  · exact h1
  · exact (((h1.trans h2).trans h3).trans (.of_kept (State.setCandSt_kept (μ := 0x10000) ..))).trans (State.candDown_grows ..)

theorem State.fallLink_grows (k : Nat) : StatusGrows s (s.fallLink k) := by
  unfold State.fallLink
  split
  · exact .refl s
  · extract_lets s1
    have h1 : StatusGrows s s1 := .of_status (by
      unfold s1 State.endCause
      rw [State.onFlt_flt, State.linkF, State.setLink, State.onTrp_flt, flt_of_kept (State.holdLink_kept (μ := 0x40000) ..)])
    have h2 : StatusGrows s1 (s1.dropTraffic k) := .of_kept (State.dropTraffic_kept (μ := 0x420C0) ..)
    exact (((h1.trans h2).trans (State.isolateMaster_grows ..)).trans (State.updateReach_grows ..)).trans (State.reboundAll_grows _)

theorem State.isolateComposers_grows (quad : Nat) : StatusGrows s (s.isolateComposers quad) := by
  refine foldl_grows (fun t j => ?_) _ s
  refine StatusGrows.trans (t := t.isolate 0x06 (locComp (4 * quad + j) 9)) (.of_status rfl) (foldl_grows (fun u k => ?_) _ _)
  split
  · exact .of_kept (State.setCompState_kept (μ := 0x4000) ..)
  · exact .refl u

/-- What a unit's own reaction does leaves every status that stands. -/
theorem State.unitReaction_grows (c l : Nat) : StatusGrows s (s.unitReaction c l) := by
  unfold State.unitReaction
  split
  case h_1 => exact foldl_grows (fun t q => t.isolateComposers_grows q) _ s
  case h_2 => exact .of_flt (State.onRec_flt ..)
  case h_3 => exact .of_flt (State.onBud_flt ..)
  case h_4 => exact foldl_grows (fun t o => .of_kept (State.setOut_kept (μ := 0x400) ..)) _ s
  case h_5 | h_6 =>
    refine foldl_grows (fun t k => ?_) _ s
    split
    · exact .of_kept (State.rxStop_kept (μ := 0x428C0) ..)
    · exact .refl t
  case h_7 => exact .of_kept (State.badTables_kept (μ := 0x4000) ..)
  case h_8 => exact .of_flt (State.onRef_flt ..)
  case h_9 => exact .of_kept (State.badCoeffs_kept (μ := 0x8000) ..)
  case h_10 =>
    refine foldl_grows (fun t k => ?_) _ s
    split
    · exact .of_kept (State.txIsolate_kept (μ := 0xC00) ..)
    · exact .refl t
  case h_11 =>
    refine foldl_grows (fun t k => ?_) _ s
    split
    · exact (t.fallLink_grows k).trans (.of_kept (State.holdLink_kept (μ := 0x40000) ..))
    · exact .refl t
  case h_12 => exact .refl s

theorem State.contain_isolated (e : Ev) (b : Bool) : (e.code, e.loc) ∈ (s.contain e b).flt.isolated := (mem_pinsert ..).2 (.inl rfl)

/-- A forced event sets STATUS of its code and location, PARITY_TRIP's apart (R445). -/
theorem State.force_status {c : Nat} (l : Nat) (h : c ≠ 0x20) : (c, l) ∈ (s.force c l).flt.status := by
  unfold State.force
  rw [if_neg h]
  extract_lets e s1
  refine State.unitReaction_grows s1 c l ?_
  unfold s1
  split
  · exact s.contain_status e true
  · exact State.raiseWith_status (.inl rfl)

end

end Sys2Proof.Machine
end


section
/-! PROOFS. The monitors of the always-on domain (R451, R464, R468, R469, R509): what each report leaves of the supplies, the temperatures, the
PLLs and the collector. -/

set_option Elab.async false

namespace Sys2Proof.Machine

open Sys2Proof

/-! ### Sets and masks -/

theorem addTo_of_not_contains {k : Nat} {l : List Nat} (h : l.contains k = false) : addTo k l = l ++ [k] := by
  rw [addTo, h]
  rfl

theorem mem_addTo_self (k : Nat) (l : List Nat) : k ∈ addTo k l := by
  unfold addTo
  split
  · next h => exact List.contains_iff_mem.1 h
  · exact List.mem_append_right _ List.mem_cons_self

theorem maskBit_eq_testBit (m i : Nat) : maskBit m i = m.testBit i := by
  rw [maskBit, Nat.testBit_eq_decide_div_mod_eq]
  rfl

/-- A bit added where it is not set is that bit set, and no other changes. -/
theorem maskBit_add_two_pow {m i : Nat} (h : maskBit m i = false) (j : Nat) : maskBit (m + 2 ^ i) j = (maskBit m j || decide (j = i)) := by
  have hlow : m % 2 ^ (i + 1) < 2 ^ i := by
    have h0 : m / 2 ^ i % 2 = 0 := by
      rw [maskBit, beq_eq_false_iff_ne] at h
      omega
    rw [pow_succ, Nat.mod_mul, h0, Nat.mul_zero, Nat.add_zero]
    exact Nat.mod_lt _ (Nat.two_pow_pos i)
  have hhigh : (m + 2 ^ i) / 2 ^ (i + 1) = m / 2 ^ (i + 1) := by
    have hm := Nat.mod_add_div m (2 ^ (i + 1))
    have hp : 2 ^ (i + 1) = 2 * 2 ^ i := pow_succ' 2 i
    rw [← hm, Nat.add_right_comm, Nat.add_mul_div_left _ _ (Nat.two_pow_pos _), Nat.add_mul_div_left _ _ (Nat.two_pow_pos _),
      Nat.div_eq_of_lt (by omega), Nat.div_eq_of_lt (Nat.mod_lt _ (Nat.two_pow_pos _))]
  simp only [maskBit_eq_testBit] at h ⊢
  rcases lt_trichotomy j i with hj | rfl | hj
  · rw [Nat.add_comm, Nat.testBit_two_pow_add_gt hj, decide_eq_false hj.ne, Bool.or_false]
  · rw [Nat.add_comm, Nat.testBit_two_pow_add_eq, h, decide_eq_true rfl]
    rfl
  · obtain ⟨k, rfl⟩ : ∃ k, j = k + (i + 1) := ⟨j - (i + 1), by omega⟩
    rw [← Nat.testBit_div_two_pow, hhigh, Nat.testBit_div_two_pow, decide_eq_false hj.ne', Bool.or_false]

/-- The mask of a list has the bits of its members. -/
theorem maskBit_listMask (l : List Nat) (j : Nat) : maskBit (listMask l) j = l.contains j := by
  have h (m : Nat) : maskBit (l.foldl (fun m i => if maskBit m i then m else m + 2 ^ i) m) j = (maskBit m j || l.contains j) := by
    induction l generalizing m with
    | nil => rw [List.foldl_nil, List.contains_nil, Bool.or_false]
    | cons i l ih =>
      rw [List.foldl_cons, ih, List.contains_cons]
      by_cases hi : maskBit m i = true
      · rw [if_pos hi]
        by_cases hj : j = i
        · rw [hj, hi, Bool.true_or, Bool.true_or]
        · rw [beq_eq_false_iff_ne.2 hj, Bool.false_or]
      · rw [if_neg hi, maskBit_add_two_pow (Bool.not_eq_true _ ▸ hi), Bool.or_assoc]
        rfl
  rw [listMask, h, maskBit, Nat.zero_div]
  rfl

theorem maskBit_mod_two_pow (m w j : Nat) : maskBit (m % 2 ^ w) j = (decide (j < w) && maskBit m j) := by
  rw [maskBit_eq_testBit, Nat.testBit_mod_two_pow, maskBit_eq_testBit]

theorem checked_ok {b : Bool} {o : Out} (h : b = true) : checked b o = o := if_pos h

/-! ### Power -/

section
variable {s : State}

theorem State.powered_of_fastOn (h : s.fastOn = true) : s.pwr.power ≠ .backup := by
  intro hb
  rw [State.fastOn, hb] at h
  exact absurd h (by decide)

/-- A fatal event after a change of the power state enters Safety Net on a device that was not primary. -/
theorem State.raise_fatal_onPwr {e : Ev} {f : PwrSt → PwrSt} (he : evClass e.code = 3) (ha : e.active = true) (hr : s.role ≠ .primary) :
    ((s.fresh.onPwr f).raise e).safetyNet = true := by
  refine State.raise_fatal_safetyNet he ha ?_
  rw [State.role, State.onPwr_twin, State.fresh_twin, ← State.role]
  exact hr

theorem State.holdCause_cause (c l : Nat) (b : Bool) : (c, l) ∈ (s.holdCause c l b).flt.cause ↔ b = true := by
  rw [State.holdCause, State.onFlt_flt]
  cases b <;> simp

theorem State.endCause_cause (c l : Nat) : (c, l) ∉ (s.endCause c l).flt.cause := by
  rw [State.endCause, State.onFlt_flt]
  simp

theorem State.endCause_of_not_mem {c l : Nat} {p : Nat × Nat} (h : p ∉ s.flt.cause) : p ∉ (s.endCause c l).flt.cause := fun hp =>
  h (List.mem_filter.1 hp).1

end

theorem State.unitReaction_mram {s : State} {l : Nat} :
    s.unitReaction 0x24 l = s.onRec (fun r => { r with badRegions := addTo (l / 2 ^ 10 % 128) r.badRegions }) := rfl

/-! ### The always-on and the reset record written

The power state's other fields are read where the record written is a variable. -/

/-- The power state with another always-on record. -/
def PwrSt.withAon (a : BitVec 256) (p : PwrSt) : PwrSt := { p with aon := a }

/-- The power state with another reset control record. -/
def PwrSt.withRst (r : BitVec 256) (p : PwrSt) : PwrSt := { p with rstCtl := r }

section
variable (a : BitVec 256) (p : PwrSt)

@[simp] theorem PwrSt.withRst_rstCtl : (p.withRst a).rstCtl = a := rfl
@[simp] theorem PwrSt.withRst_pllOk : (p.withRst a).pllOk = p.pllOk := rfl

@[simp] theorem PwrSt.withAon_aon : (p.withAon a).aon = a := rfl
@[simp] theorem PwrSt.withAon_power : (p.withAon a).power = p.power := rfl
@[simp] theorem PwrSt.withAon_vFail : (p.withAon a).vFail = p.vFail := rfl
@[simp] theorem PwrSt.withAon_over105 : (p.withAon a).over105 = p.over105 := rfl
@[simp] theorem PwrSt.withAon_trip125 : (p.withAon a).trip125 = p.trip125 := rfl

theorem syncSupply_eq : syncSupply p =
    p.withAon (fput p.aon Aon.supplyOk (listMask ((List.range 6).filter (fun m => !p.vFail.any (fun k => k / 5 == m))))) := rfl

theorem syncTrips_eq : syncTrips p =
    p.withAon (fput (fput p.aon Aon.tempOver (bit (!p.over105.isEmpty))) Aon.tempTrip (bit (!p.trip125.isEmpty))) := rfl

theorem syncTrips_tempOver : fbit (syncTrips p).aon Aon.tempOver = !p.over105.isEmpty := by
  rw [syncTrips_eq, PwrSt.withAon_aon, fbit, fget_fput_of_disjoint _ _ _ _ (by decide) (by decide), fget_fput _ _ _ (by decide)]
  cases p.over105.isEmpty <;> rfl

theorem syncTrips_tempTrip : fbit (syncTrips p).aon Aon.tempTrip = !p.trip125.isEmpty := by
  rw [syncTrips_eq, PwrSt.withAon_aon, fbit, fget_fput _ _ _ (by decide)]
  cases p.trip125.isEmpty <;> rfl

end

/-! ### Supplies -/

section
variable {m : Fin 6} {quad : Fin 5} {mv : BitVec 16} {s : State}

theorem execSupplyWarn_raises {back : Bool} (hm : monitorOk m quad = true) (hf : s.fastOn = true)
    (hk : s.pwr.vWarn.contains (monitorKey m quad) = back) : execSupplyWarn m quad mv back s =
      .next (((s.fresh.onPwr (fun p => { p with
        vWarn := if back then p.vWarn.erase (monitorKey m quad) else addTo (monitorKey m quad) p.vWarn })).raise
          ⟨0x03, locAon, !back, 0, supplyObjs m quad mv⟩).holdCause 0x03 locAon
            (!(if back then s.pwr.vWarn.erase (monitorKey m quad) else addTo (monitorKey m quad) s.pwr.vWarn).isEmpty)) := by
  have hc : ¬(decide (s.pwr.power = .backup) || s.pwr.vWarn.contains (monitorKey m quad) != back) = true := by
    rw [hk, decide_eq_false (State.powered_of_fastOn hf), bne_self_eq_false]
    exact Bool.false_ne_true
  have hn : ¬(!s.fastOn) = true := by rw [hf]; exact Bool.false_ne_true
  exact (checked_ok hm).trans ((if_neg hc).trans (if_neg hn))

theorem execSupplyWarn_idle {back : Bool} (hm : monitorOk m quad = true)
    (h : s.pwr.power = .backup ∨ s.pwr.vWarn.contains (monitorKey m quad) ≠ back) : execSupplyWarn m quad mv back s = .next s.fresh := by
  refine (checked_ok hm).trans (if_pos ?_)
  rw [Bool.or_eq_true, decide_eq_true_eq, bne_iff_ne]
  exact h

theorem execSupplyFail_raises (hm : monitorOk m quad = true) (hf : s.fastOn = true)
    (hk : s.pwr.vFail.contains (monitorKey m quad) = false) : execSupplyFail m quad mv s =
      .next (((s.fresh.onPwr (fun p => syncSupply { p with vFail := addTo (monitorKey m quad) p.vFail })).raise
        ⟨0x04, locAon, true, 0, supplyObjs m quad mv⟩).reboundAll) := by
  have hc : ¬(decide (s.pwr.power = .backup) || s.pwr.vFail.contains (monitorKey m quad)) = true := by
    rw [hk, decide_eq_false (State.powered_of_fastOn hf)]
    exact Bool.false_ne_true
  have hn : ¬(!s.fastOn) = true := by rw [hf]; exact Bool.false_ne_true
  exact (checked_ok hm).trans ((if_neg hc).trans (if_neg hn))

theorem execSupplyFail_idle (hm : monitorOk m quad = true)
    (h : s.pwr.power = .backup ∨ s.pwr.vFail.contains (monitorKey m quad) = true) : execSupplyFail m quad mv s = .next s.fresh := by
  refine (checked_ok hm).trans (if_pos ?_)
  rw [Bool.or_eq_true, decide_eq_true_eq]
  exact h

/-- The state with a failed supply returned, before its routes are bound anew. -/
def State.supplyBack (k : Nat) (s : State) : State :=
  (s.fresh.onPwr (fun p => syncSupply { p with vFail := p.vFail.erase k })).holdCause 0x04 locAon (!(s.pwr.vFail.erase k).isEmpty)

theorem execSupplyReturn_returns (hm : monitorOk m quad = true) (hp : s.pwr.power ≠ .backup)
    (hk : s.pwr.vFail.contains (monitorKey m quad) = true) : execSupplyReturn m quad mv s =
      .next (if s.fastOn then (s.supplyBack (monitorKey m quad)).reboundAll else s.supplyBack (monitorKey m quad)) := by
  have hc : ¬(decide (s.pwr.power = .backup) || !s.pwr.vFail.contains (monitorKey m quad)) = true := by
    rw [hk, decide_eq_false hp]
    exact Bool.false_ne_true
  exact (checked_ok hm).trans (if_neg hc)

theorem execSupplyReturn_idle (hm : monitorOk m quad = true) (h : s.pwr.vFail.contains (monitorKey m quad) = false) :
    execSupplyReturn m quad mv s = .next s.fresh := by
  refine (checked_ok hm).trans (if_pos ?_)
  rw [State.fresh_pwr, h]
  exact Bool.or_true _

/-- SUPPLY_OK of a monitor that has failed is 0. -/
theorem syncSupply_failed {p : PwrSt} (h : monitorKey m quad ∈ p.vFail) :
    maskBit (fget (syncSupply p).aon Aon.supplyOk) m.val = false := by
  have hany : p.vFail.any (fun k => k / 5 == m.val) = true :=
    List.any_eq_true.2 ⟨_, h, beq_iff_eq.2 (by rw [monitorKey]; omega)⟩
  rw [syncSupply, fget_fput _ _ _ (by decide), maskBit_mod_two_pow, maskBit_listMask]
  refine (Bool.and_eq_false_iff).2 (.inr ?_)
  rw [← Bool.not_eq_true, List.contains_iff_mem, List.mem_filter, hany]
  exact fun h => absurd h.2 Bool.false_ne_true

end

/-! ### Temperatures and PLLs -/

section
variable {quad : Fin 4} {d : Int} {s : State}

theorem execThermalOver_raises (hf : s.fastOn = true) (hk : s.pwr.over105.contains quad.val = false) : execThermalOver quad d s =
    .next ((((s.fresh.onPwr (fun p => syncTrips { p with over105 := addTo quad.val p.over105 })).raise
      ⟨0x06, locAon, true, 0, thermalObjs quad.val d⟩).isolateComposers quad.val).reboundAll) := by
  have hc : ¬(decide (s.pwr.power = .backup) || s.pwr.over105.contains quad.val) = true := by
    rw [hk, decide_eq_false (State.powered_of_fastOn hf)]
    exact Bool.false_ne_true
  have hn : ¬(!s.fastOn) = true := by rw [hf]; exact Bool.false_ne_true
  exact (if_neg hc).trans (if_neg hn)

theorem execThermalOver_idle (h : s.pwr.power = .backup ∨ s.pwr.over105.contains quad.val = true) :
    execThermalOver quad d s = .next s.fresh := by
  refine if_pos ?_
  rw [Bool.or_eq_true, decide_eq_true_eq]
  exact h

/-- What one element of a list sets and every element keeps holds after the fold. -/
theorem foldl_establishes {β : Type} {P : State → Prop} {f : State → β → State} {b : β} {l : List β} (hb : b ∈ l) (hset : ∀ s, P (f s b))
    (hkeep : ∀ s c, P s → P (f s c)) (s : State) : P (l.foldl f s) := by
  induction l generalizing s with
  | nil => cases hb
  | cons c l ih =>
    rw [List.foldl_cons]
    rcases List.mem_cons.1 hb with rfl | hb
    · exact List.foldlRecOn (motive := P) l f (hset s) (fun t ht c _ => hkeep t c ht)
    · exact ih hb _

/-- One Composer isolated, with its outputs held. -/
def State.isolateComposer (c : Nat) (s : State) : State :=
  [0, 1, 2, 3].foldl (fun s k => if fbit (s.compOut (4 * c + k)) CompOut.compEn then s.setCompState (4 * c + k) 3 else s)
    (s.isolate 0x06 (locComp c 9))

theorem State.isolateComposer_isolated (c : Nat) (s : State) :
    (s.isolateComposer c).flt.isolated = pinsert (0x06, locComp c 9) s.flt.isolated := by
  refine (foldl_leaves (fun t : State => t.flt.isolated) (fun t k => ?_) _ _).trans (congrArg FltSt.isolated (State.onFlt_flt ..))
  split
  · rw [flt_of_kept (State.setCompState_kept (μ := 0x4000) ..)]
  · rfl

/-- Each Composer of the quadrant is isolated. -/
theorem State.isolateComposers_isolated {j : Nat} (hj : j < 4) :
    (0x06, locComp (4 * quad.val + j) 9) ∈ (s.isolateComposers quad.val).flt.isolated := by
  refine foldl_establishes (P := fun t => (0x06, locComp (4 * quad.val + j) 9) ∈ t.flt.isolated)
    (f := fun s j => s.isolateComposer (4 * quad.val + j)) (List.mem_range.2 hj) (fun t => ?_) (fun t c ht => ?_) s
  · rw [State.isolateComposer_isolated]
    exact (mem_pinsert ..).2 (.inl rfl)
  · rw [State.isolateComposer_isolated]
    exact (mem_pinsert ..).2 (.inr ht)

theorem State.isolateComposers_pwr : (s.isolateComposers quad.val).pwr = s.pwr :=
  pwr_of_kept (State.isolateComposers_kept (μ := 0x4010) ..)

/-- The state with a quadrant's trips re-armed and the causes that have ended released. -/
def State.rearmed (k : Nat) (s : State) : State :=
  let s1 := s.fresh.onPwr (fun p => syncTrips { p with over105 := p.over105.erase k, trip125 := p.trip125.erase k })
  let s2 := if s1.pwr.over105.isEmpty then s1.endCause 0x06 locAon else s1
  if s1.pwr.trip125.isEmpty then s2.endCause 0x07 locAon else s2

theorem State.rearmed_pwr (k : Nat) : (s.rearmed k).pwr =
    syncTrips { s.pwr with over105 := s.pwr.over105.erase k, trip125 := s.pwr.trip125.erase k } := by
  unfold State.rearmed
  extract_lets s1 s2
  have h1 : s1.pwr = syncTrips { s.pwr with over105 := s.pwr.over105.erase k, trip125 := s.pwr.trip125.erase k } := State.onPwr_pwr ..
  have h2 : s2.pwr = s1.pwr := by
    unfold s2
    split
    · exact State.onFlt_pwr ..
    · exact (rfl : s1.pwr = s1.pwr)
  rw [← h1, ← h2]
  split
  · exact State.onFlt_pwr ..
  · exact (rfl : s2.pwr = s2.pwr)

theorem execTemperatureTripRearm_eq (hf : s.fastOn = true) : execTemperatureTripRearm quad s = .next (s.rearmed quad.val).reboundAll :=
  (if_neg (State.powered_of_fastOn hf)).trans (congrArg Host.Outcome.next (if_pos hf))

theorem State.rearmed_over {k : Nat} (h : s.pwr.over105.erase k = []) : (0x06, locAon) ∉ (s.rearmed k).flt.cause := by
  unfold State.rearmed
  extract_lets s1 s2
  have h1 : s1.pwr.over105 = [] := by
    rw [State.onPwr_pwr, syncTrips_eq, PwrSt.withAon_over105]
    exact h
  have h2 : (0x06, locAon) ∉ s2.flt.cause := by
    unfold s2
    rw [h1, if_pos List.isEmpty_nil]
    exact State.endCause_cause _ _
  split
  · exact State.endCause_of_not_mem h2
  · exact h2

theorem State.rearmed_trip {k : Nat} (h : s.pwr.trip125.erase k = []) : (0x07, locAon) ∉ (s.rearmed k).flt.cause := by
  unfold State.rearmed
  extract_lets s1 s2
  have h1 : s1.pwr.trip125 = [] := by
    rw [State.onPwr_pwr, syncTrips_eq, PwrSt.withAon_trip125]
    exact h
  rw [h1, if_pos List.isEmpty_nil]
  exact State.endCause_cause _ _

/-- The samples of one kind taken on. -/
def State.sampled (temperature : Bool) (l : List Int) (s : State) : State :=
  s.fresh.onPwr (fun p => if temperature then { p with quadC := l } else { p with quadMv := l.map Int.toNat })

/-- Whether the latest samples of either kind exceed their limit. -/
def State.skewed (s : State) : Bool := skewOver false (s.pwr.quadMv.map Int.ofNat) || skewOver true s.pwr.quadC

section
variable {temperature : Bool} {v0 v1 v2 v3 : Int}

theorem State.sampled_pwr_skewBad (l : List Int) : (s.sampled temperature l).pwr.skewBad = s.pwr.skewBad := by
  cases temperature <;> rfl

theorem execSkewSample_raises (hf : s.fastOn = true) (hb : s.pwr.skewBad = false)
    (h : (s.sampled temperature [v0, v1, v2, v3]).skewed = true) : ∃ e : Ev, e.code = 0x05 ∧ e.loc = locAon ∧
      execSkewSample temperature v0 v1 v2 v3 s = .next ((((s.sampled temperature [v0, v1, v2, v3]).onPwr
        (fun p => { p with skewBad := true, skewOkSince := none })).raise e).reboundAll) := by
  have hn : ¬(!s.fresh.fastOn) = true := by rw [Bool.not_eq_true, Bool.not_eq_false']; exact hf
  have hs : (!(s.sampled temperature [v0, v1, v2, v3]).pwr.skewBad) = true := by rw [State.sampled_pwr_skewBad, hb]; rfl
  unfold execSkewSample
  extract_lets u l s1 mv tc skewed near kind
  rw [if_neg hn]
  split
  next a b d _ =>
  refine ⟨_, ?_, ?_, (if_pos hs).trans (if_pos h)⟩ <;> rfl

theorem execSkewSample_quiet (hf : s.fastOn = true) (hb : s.pwr.skewBad = false)
    (h : (s.sampled temperature [v0, v1, v2, v3]).skewed = false) :
    execSkewSample temperature v0 v1 v2 v3 s = .next (s.sampled temperature [v0, v1, v2, v3]) := by
  have hn : ¬(!s.fresh.fastOn) = true := by rw [Bool.not_eq_true, Bool.not_eq_false']; exact hf
  have hs : (!(s.sampled temperature [v0, v1, v2, v3]).pwr.skewBad) = true := by rw [State.sampled_pwr_skewBad, hb]; rfl
  unfold execSkewSample
  extract_lets u l s1 mv tc skewed near kind
  rw [if_neg hn]
  split
  next a b d _ =>
  exact (if_pos hs).trans (if_neg (by rw [Bool.not_eq_true]; exact h))

end

/-- The PLLs locked, and the cause of their loss ended. -/
def State.pllLocked (s : State) : State := (s.fresh.onPwr (fun p => { p with pllOk := true })).endCause 0x08 locAon

theorem execQuadrantPllLock_eq (hp : s.pwr.pllOk = false) (ht : fbit s.pwr.rstCtl RstCtl.trimDone = true) (hf : s.fastOn = true) :
    execQuadrantPllLock s =
      .next (if s.inRelease && s.releaseStep == 0 && s.pwr.gapDone then s.pllLocked.releaseTo 2 else s.pllLocked) := by
  refine if_neg ?_
  rw [State.fresh_pwr, hp, ht, show s.fresh.fastOn = true from hf]
  exact Bool.false_ne_true

/-- The events of the release are raised with the power state as it stands. -/
theorem State.takeNotes_pwr : ∃ later, s.takeNotes.pwr = { s.pwr with notes := [], thermalLater := later } := by
  unfold State.takeNotes
  extract_lets s1 first mid
  have hraise (l : List Ev) (u : State) : (l.foldl (fun s e => s.raise e) u).pwr = u.pwr :=
    foldl_leaves State.pwr (fun t e => t.raise_pwr e) l u
  have hfirst : first.pwr = s1.pwr := hraise _ s1
  have hmid : mid.pwr = s1.pwr := by
    unfold mid
    split
    · split
      · exact hfirst
      · exact (State.onFlt_pwr ..).trans hfirst
    · exact hfirst
  rw [hraise, hmid]
  exact ⟨_, rfl⟩

theorem State.takeNotes_rstCtl : s.takeNotes.pwr.rstCtl = s.pwr.rstCtl ∧ s.takeNotes.pwr.pllOk = s.pwr.pllOk := by
  obtain ⟨later, h⟩ := s.takeNotes_pwr
  rw [h]
  exact ⟨rfl, rfl⟩

/-- The boot state with which a device leaves release step 2. -/
def PwrSt.toRom (p : PwrSt) : PwrSt := { p with bootState := if p.bootSrc = 1 || p.bootSrc = 2 then .waitLoad else .rom }

theorem State.releaseTo_two_eq : s.releaseTo 2 =
    ((s.onPwr (fun p => p.withRst (fput p.rstCtl RstCtl.releaseStep 2))).onPwr PwrSt.toRom).takeNotes := by
  unfold State.releaseTo
  extract_lets s1
  rw [if_pos rfl]
  rfl

theorem State.releaseTo_two : (s.releaseTo 2).releaseStep = 2 ∧ (s.releaseTo 2).pwr.pllOk = s.pwr.pllOk := by
  have hrom (p : PwrSt) : p.toRom.rstCtl = p.rstCtl ∧ p.toRom.pllOk = p.pllOk := ⟨rfl, rfl⟩
  rw [State.releaseTo_two_eq, State.releaseStep]
  obtain ⟨hr, hp⟩ := State.takeNotes_rstCtl (s := (s.onPwr (fun p => p.withRst (fput p.rstCtl RstCtl.releaseStep 2))).onPwr PwrSt.toRom)
  rw [hr, hp, State.onPwr_pwr, (hrom _).1, (hrom _).2, State.onPwr_pwr, PwrSt.withRst_rstCtl, PwrSt.withRst_pllOk]
  exact ⟨fget_fput _ _ _ (by decide), rfl⟩

end

/-- Settles O58: with the fast domains on each report is its event on the state it leaves, and what follows raises no cause of its own. That
0x03 and 0x08 hold CAUSE while their condition lasts is log entry 6. -/
theorem deviceFaultsAreRaised : Obligations.DeviceFaultsAreRaised := by
  refine ⟨?warn, ?warnIdle, ?fail, ?failIdle, ?back, ?backIdle, ?overheat, ?overIdle, ?rearm, ?skewMv, ?skewC, ?skewQuiet, ?skewOff, ?unlock,
    ?unlockOff, ?lock, ?vbak, ?vbakOff, ?parity, ?mramCorr, ?mramUncorr, ?sram⟩
  case warn =>
    intro s m quad mv back hm hf hk
    refine ⟨_, execSupplyWarn_raises hm hf hk, State.raise_status .., ?_, ?_⟩
    · rw [State.holdCause, State.onFlt_pwr, State.raise_pwr, State.onPwr_pwr, State.fresh_pwr]
      cases back
      · rw [if_neg Bool.false_ne_true, if_neg Bool.false_ne_true, addTo_of_not_contains hk]
      · rfl
    · rw [State.holdCause_cause, State.holdCause, State.onFlt_pwr, State.raise_pwr, State.onPwr_pwr, State.fresh_pwr, Bool.not_eq_true',
        List.isEmpty_eq_false_iff]
  case warnIdle =>
    intro s m quad mv back hm h
    exact execSupplyWarn_idle hm h
  case fail =>
    intro s m quad mv hm hf hk
    refine ⟨_, execSupplyFail_raises hm hf hk, State.reboundAll_grows _ (State.raise_status ..), fun hr => ?_, ?_, ?_⟩
    · rw [State.reboundAll_safetyNet]
      exact State.raise_fatal_onPwr (show evClass 0x04 = 3 by decide) rfl hr
    · rw [State.reboundAll_pwr, State.raise_pwr, State.onPwr_pwr, syncSupply_eq, PwrSt.withAon_vFail, State.fresh_pwr]
      exact addTo_of_not_contains hk
    · rw [State.reboundAll_pwr, State.raise_pwr, State.onPwr_pwr]
      exact syncSupply_failed (quad := quad) (mem_addTo_self ..)
  case failIdle =>
    intro s m quad mv hm h
    exact execSupplyFail_idle hm h
  case back =>
    intro s m quad mv hm hp hk
    have hpwr : (s.supplyBack (monitorKey m quad)).pwr.vFail = s.pwr.vFail.erase (monitorKey m quad) := by
      rw [State.supplyBack, State.holdCause, State.onFlt_pwr, State.onPwr_pwr, syncSupply_eq, PwrSt.withAon_vFail, State.fresh_pwr]
    have hcause (h : s.pwr.vFail.erase (monitorKey m quad) = []) : (0x04, locAon) ∉ (s.supplyBack (monitorKey m quad)).flt.cause := by
      rw [State.supplyBack, State.holdCause_cause, h]
      exact Bool.false_ne_true
    refine ⟨_, execSupplyReturn_returns (mv := mv) hm hp hk, ?_⟩
    split
    · rw [State.reboundAll_pwr, hpwr]
      refine ⟨rfl, fun h hc => ?_⟩
      rcases mem_reboundAll_cause hc with hc | hc | hc
      · exact absurd hc (by decide)
      · exact absurd hc (by decide)
      · exact hcause h hc
    · rw [hpwr]
      exact ⟨rfl, hcause⟩
  case backIdle =>
    intro s m quad mv hm h
    exact execSupplyReturn_idle (mv := mv) hm h
  case overheat =>
    intro s quad d hf hk
    refine ⟨_, execThermalOver_raises hf hk, ?_, ?_, ?_, fun j hj => ?_⟩
    · exact State.reboundAll_grows _ (State.isolateComposers_grows _ _ (State.raise_status ..))
    · rw [State.reboundAll_pwr, State.isolateComposers_pwr, State.raise_pwr, State.onPwr_pwr, syncTrips_tempOver, Bool.not_eq_true',
        List.isEmpty_eq_false_iff]
      exact List.ne_nil_of_mem (mem_addTo_self ..)
    · rw [State.reboundAll_pwr, State.isolateComposers_pwr, State.raise_pwr, State.onPwr_pwr, syncTrips_eq, PwrSt.withAon_over105,
        State.fresh_pwr]
      exact addTo_of_not_contains hk
    · rw [State.reboundAll_isolated]
      exact State.isolateComposers_isolated hj
  case overIdle =>
    intro s quad d h
    exact execThermalOver_idle h
  case rearm =>
    intro s quad hf
    have stays {p : Nat × Nat} (hp : p.1 ≠ 0x60) (hp' : p.1 ≠ 0x21) (h : p ∉ (s.rearmed quad.val).flt.cause) :
        p ∉ (s.rearmed quad.val).reboundAll.flt.cause := fun hc => by
      rcases mem_reboundAll_cause hc with hc | hc | hc
      · exact hp hc
      · exact hp' hc
      · exact h hc
    refine ⟨_, execTemperatureTripRearm_eq hf, ?_⟩
    rw [State.reboundAll_pwr, State.rearmed_pwr, syncTrips_tempOver, syncTrips_tempTrip, syncTrips_eq, PwrSt.withAon_over105,
      PwrSt.withAon_trip125]
    refine ⟨rfl, rfl, fun h => ⟨stays (by decide) (by decide) (State.rearmed_over h), ?_⟩,
      fun h => ⟨stays (by decide) (by decide) (State.rearmed_trip h), ?_⟩⟩
    · rw [h]; rfl
    · rw [h]; rfl
  case skewMv =>
    intro s v0 v1 v2 v3 hf hb h
    have hs : (s.sampled false [v0, v1, v2, v3]).skewed = true := by
      rw [State.skewed, Bool.or_eq_true]
      exact .inl h
    obtain ⟨e, hc, hl, he⟩ := execSkewSample_raises hf hb hs
    refine ⟨_, he, State.reboundAll_grows _ ?_, ?_⟩
    · rw [← hc, ← hl]
      exact State.raise_status e _
    · rw [State.reboundAll_pwr, State.raise_pwr, State.onPwr_pwr]
  case skewC =>
    intro s v0 v1 v2 v3 hf hb h
    have hs : (s.sampled true [v0, v1, v2, v3]).skewed = true := by
      rw [State.skewed, Bool.or_eq_true]
      exact .inr h
    obtain ⟨e, hc, hl, he⟩ := execSkewSample_raises hf hb hs
    refine ⟨_, he, State.reboundAll_grows _ ?_, ?_, ?_⟩
    · rw [← hc, ← hl]
      exact State.raise_status e _
    · rw [State.reboundAll_pwr, State.raise_pwr, State.onPwr_pwr]
    · rw [State.reboundAll_pwr, State.raise_pwr, State.onPwr_pwr]
      rfl
  case skewQuiet =>
    intro s v0 v1 v2 v3 hf hb hmv hc
    have hs : (s.sampled true [v0, v1, v2, v3]).skewed = false := by
      rw [State.skewed, Bool.or_eq_false_iff]
      exact ⟨hmv, hc⟩
    exact (execSkewSample_quiet hf hb hs).trans rfl
  case skewOff =>
    intro s temp v0 v1 v2 v3 hf
    refine if_pos ?_
    rw [Bool.not_eq_true']
    exact hf
  case unlock =>
    intro s quad hf
    have hn : ¬(!s.fastOn) = true := by rw [hf]; exact Bool.false_ne_true
    refine ⟨_, if_neg hn, State.raise_status .., ?_, fun hr => ?_⟩
    · rw [State.raise_pwr, State.onPwr_pwr]
    · exact State.raise_fatal_onPwr (show evClass 0x08 = 3 by decide) rfl hr
  case unlockOff =>
    intro s quad hf
    refine if_pos ?_
    rw [Bool.not_eq_true']
    exact hf
  case lock =>
    intro s hp ht hf
    have hok : s.pllLocked.pwr.pllOk = true := by rw [State.pllLocked, State.endCause, State.onFlt_pwr, State.onPwr_pwr]
    refine ⟨_, execQuadrantPllLock_eq hp ht hf, ?_, fun hr => ?_, fun hi hr hg => ?_⟩
    · split
      · rw [State.releaseTo_two.2, hok]
      · exact hok
    · rw [beq_eq_false_iff_ne.2 hr, Bool.and_false, Bool.false_and, if_neg Bool.false_ne_true]
      exact State.endCause_cause _ _
    · rw [if_pos (by rw [hi, hr, hg]; rfl)]
      exact State.releaseTo_two.1
  case vbak =>
    intro s hp
    refine ⟨_, if_neg hp, ?_, ?_, fun hf => ?_⟩
    · split
      · rw [State.raise0, State.raise_pwr, State.onPwr_pwr]
      · rw [State.onPwr_pwr]
    · split
      · rw [State.raise0, State.raise_pwr, State.onPwr_pwr, fget_fput _ _ _ (by decide)]
        rfl
      · rw [State.onPwr_pwr, fget_fput _ _ _ (by decide)]
        rfl
    · rw [if_pos (show s.fresh.fastOn = true from hf)]
      exact State.raise_status ..
  case vbakOff =>
    intro s hp
    exact if_pos hp
  case parity =>
    intro s
    exact ⟨_, rfl, State.parityTrip_trips _ _⟩
  case mramCorr =>
    intro s r
    exact ⟨_, rfl, State.raise_status .., rec_of_kept (State.raise_kept (μ := 0x2C0014) ..), upd_of_kept (State.raise_kept (μ := 0x2C0014) ..)⟩
  case mramUncorr =>
    intro s r
    have hr : locMram r.val / 2 ^ 10 % 128 = r.val := by
      have := r.isLt
      rw [locMram]
      omega
    have he : exec (.mramUncorr r) s = .next ((s.fresh.contain (Ev.plain 0x24 (locMram r.val)) false).onRec
        (fun x => { x with badRegions := addTo r.val x.badRegions })) := by
      refine congrArg Host.Outcome.next (State.unitReaction_mram.trans ?_)
      rw [hr]
    refine ⟨_, he, State.contain_status _ (Ev.plain 0x24 (locMram r.val)) false, State.contain_isolated _ (Ev.plain 0x24 (locMram r.val)) false,
      ?_, ?_⟩
    · rw [State.onRec_rec, rec_of_kept (State.contain_kept (μ := 0x2C0014) ..), State.fresh_rec]
    · rw [State.onRec_upd, upd_of_kept (State.contain_kept (μ := 0x2C0014) ..), State.fresh_upd]
  case sram =>
    intro s
    exact ⟨_, rfl, State.raise_status .., State.raise_pwr ..⟩

end Sys2Proof.Machine
end


section
/-! PROOFS. The RECORDER and FAULT commands (R445, R446, R448, R455, R457, R458): what the recorder's writer leaves of its slots and limits, and
what a clear leaves of STATUS and of isolation. -/

set_option Elab.async false

namespace Sys2Proof.Machine

open Sys2Proof

theorem zeroAt_bind {β : Type} {q : Req} {a n : Nat} {f : Unit → Except Err β} {x : β} :
    (Req.zeroAt q a n >>= f) = .ok x ↔ Req.num q n a = 0 ∧ f () = .ok x := by
  unfold Req.zeroAt
  rw [needAt_bind, beq_iff_eq]

/-! ### The recorder -/

section
variable (e : QEnt) (s : State)

/-- What the writer leaves of the recorder once a record is programmed, its sessions told apart. -/
theorem State.program_rec : ∃ lost sup codes, (s.program e false).rec_ = { s.rec_ with
    slots := tset bytesReset s.rec_.slots (s.rec_.nextSeq % 65536) (recordBytes (recordBody s.rec_.nextSeq e lost sup))
    next := BitVec.ofNat 32 (s.rec_.nextSeq + 1), failRun := 0, supCount := tset natReset s.rec_.supCount e.ev.code 0, newCodes := codes } := by
  unfold State.program
  extract_lets r seq code body bytes next
  rw [if_neg Bool.false_ne_true]
  exact ⟨_, _, _, (rec_of_kept (State.notifySessions_kept (μ := 0x4) ..)).trans (State.onRec_rec ..)⟩

theorem State.program_kept_ok : (s.program e false).kept 0x24 = s.kept 0x24 := by
  unfold State.program
  extract_lets r seq code body bytes next
  rw [if_neg Bool.false_ne_true]
  exact (State.notifySessions_kept (μ := 0x24) ..).trans (State.kept_onRec ..)

/-- A record under the rate limits leaves the limits. -/
theorem State.writeEntry_limits : (s.writeEntry e false).rec_.limits = s.rec_.limits := by
  unfold State.writeEntry
  split
  · rfl
  · split
    · obtain ⟨lost, sup, codes, h⟩ := State.program_rec e (s.onRec (RecSt.take e.ev.code s.time.clk))
      rw [h, State.onRec_rec]
      rfl
    · rw [State.onRec_rec]
      rfl

theorem RecSt.take_nextSeq (code : Nat) (clk : BitVec 64) (r : RecSt) : (r.take code clk).nextSeq = r.nextSeq := by
  rw [RecSt.nextSeq, RecSt.nextSeq, RecSt.take]

/-- The state a REC_CLEAR leaves: CLEARED programmed with its token taken, and REC_LOW at its number. -/
def State.recCleared (q : Req) (s : State) : State :=
  let s1 := s.onRec (RecSt.take 0x0100 s.time.clk)
  (s1.program (s1.softEntry 0x0100 (portIndex q.port) (s.senderMember q) []) false).onRec
    (fun r => { r with low := BitVec.ofNat 32 s.rec_.nextSeq })

theorem cmdRecClear_eq {q : Req} (ht : Req.trailingOk q 0 = true) (hi : s.rec_.isolated = false) :
    cmdRecClear q s = .ok (s.recCleared q, leBytes 4 s.rec_.nextSeq) := by
  rw [cmdRecClear, layout_ok ht, hi]
  rfl

theorem State.recCleared_kept (q : Req) : (s.recCleared q).kept 0x24 = s.kept 0x24 := by
  unfold State.recCleared
  extract_lets s1
  exact (State.kept_onRec ..).trans ((State.program_kept_ok ..).trans (State.kept_onRec ..))

theorem State.recCleared_rec (q : Req) : (s.recCleared q).rec_.low = BitVec.ofNat 32 s.rec_.nextSeq ∧
    (s.recCleared q).rec_.next = BitVec.ofNat 32 (s.rec_.nextSeq + 1) ∧
    ∀ k, k ≠ s.rec_.nextSeq % 65536 → tget bytesReset (s.recCleared q).rec_.slots k = tget bytesReset s.rec_.slots k := by
  unfold State.recCleared
  extract_lets s1
  obtain ⟨lost, sup, codes, h⟩ := State.program_rec (s1.softEntry 0x0100 (portIndex q.port) (s.senderMember q) []) s1
  have h1 : s1.rec_ = s.rec_.take 0x0100 s.time.clk := State.onRec_rec ..
  have hs : s1.rec_.slots = s.rec_.slots := by rw [h1, RecSt.take]
  rw [State.onRec_rec, h, h1, RecSt.take_nextSeq]
  refine ⟨rfl, rfl, fun k hk => ?_⟩
  rw [← h1, hs, tget_tset, if_neg hk]

theorem recLimitCheck_ok {q : Req} {code rate burst : Nat} (h : recLimitCheck q = .ok (code, rate, burst)) :
    code = Req.u16 q 0 ∧ rate = Req.u8 q 2 ∧ burst = Req.u8 q 3 ∧ 1 ≤ rate ∧ rate ≤ 100 ∧ 1 ≤ burst := by
  obtain ⟨-, h⟩ := layout_bind.1 h
  obtain ⟨-, h⟩ := needAt_bind.1 h
  obtain ⟨hr, h⟩ := needAt_bind.1 h
  obtain ⟨hb, h⟩ := needAt_bind.1 h
  cases pure_eq_ok.1 h
  rw [Bool.and_eq_true, decide_eq_true_eq, decide_eq_true_eq] at hr
  exact ⟨rfl, rfl, rfl, hr.1, hr.2, of_decide_eq_true hb⟩

/-- The state in which a REC_LIMIT's LIMIT_CHANGED is recorded: the code's limit and its bucket set. -/
def State.limited (code rate burst : Nat) (s : State) : State :=
  s.onRec (fun r => { r with
    limits := tset limitReset r.limits code (rate, burst)
    buckets := tset bucketReset r.buckets code ⟨min (s.rec_.codeLevel code s.time.clk) (burst * token), s.time.clk⟩ })

theorem cmdRecLimit_eq {q : Req} {code rate burst : Nat} (h : recLimitCheck q = .ok (code, rate, burst)) :
    ∃ e, cmdRecLimit q s = .ok ((s.limited code rate burst).writeEntry e false, []) := by
  rw [cmdRecLimit, h]
  exact ⟨_, rfl⟩

end

/-! ### STATUS cleared and units returned -/

section
variable (s : State)

theorem State.unitReturn_status (c l : Nat) : (s.unitReturn c l).flt.status = s.flt.status := by
  unfold State.unitReturn
  split
  · rfl
  · extract_lets s1
    have h1 : s1.flt.status = s.flt.status := State.onFlt_status _ _ rfl
    split
    · rw [State.onRec_flt, h1]
    · rw [State.onBud_flt, h1]
    · exact h1

/-- A unit returned is out of isolation, where its own rule gives no other way back; no other is put into it. -/
theorem State.mem_unitReturn_isolated {c l : Nat} {p : Nat × Nat} (h : p ∈ (s.unitReturn c l).flt.isolated) :
    p ∈ s.flt.isolated ∧ (ownWay.contains c = false → p ≠ (c, l)) := by
  revert h
  unfold State.unitReturn
  split
  · next ho => exact fun h => ⟨h, fun hn => absurd (hn.symm.trans ho) Bool.false_ne_true⟩
  · extract_lets s1
    have h1 (h : p ∈ s1.flt.isolated) : p ∈ s.flt.isolated ∧ (ownWay.contains c = false → p ≠ (c, l)) := by
      rw [State.onFlt_flt] at h
      obtain ⟨hm, hn⟩ := List.mem_filter.1 h
      refine ⟨hm, fun _ he => ?_⟩
      rw [he, beq_self_eq_true, beq_self_eq_true, Bool.true_or, Bool.true_and] at hn
      exact Bool.false_ne_true hn
    split
    · rw [State.onRec_flt]; exact h1
    · rw [State.onBud_flt]; exact h1
    · exact h1

/-- The units of the locations named, returned one after another. -/
def State.unitsReturn (named : List (Nat × Nat)) (s : State) : State := named.foldl (fun s p => s.unitReturn p.1 p.2) s

theorem State.unitsReturn_status (named : List (Nat × Nat)) : (s.unitsReturn named).flt.status = s.flt.status :=
  foldl_leaves (fun t : State => t.flt.status) (f := fun s (p : Nat × Nat) => s.unitReturn p.1 p.2) (fun t p => t.unitReturn_status p.1 p.2) named s

theorem State.unitsReturn_kept (named : List (Nat × Nat)) : (s.unitsReturn named).kept 0x230 = s.kept 0x230 :=
  kept_foldl (fun t p => State.unitReturn_kept ..) named s

theorem State.not_mem_unitsReturn_isolated {named : List (Nat × Nat)} {p : Nat × Nat} (hp : p ∈ named)
    (ho : ownWay.contains p.1 = false) : p ∉ (s.unitsReturn named).flt.isolated :=
  foldl_establishes (P := fun t : State => p ∉ t.flt.isolated) (f := fun s (p : Nat × Nat) => s.unitReturn p.1 p.2) hp
    (fun t h => (t.mem_unitReturn_isolated h).2 ho rfl) (fun t _ ht h => ht (t.mem_unitReturn_isolated h).1) s

theorem codeAndLoc_bind {β : Type} {q : Req} {f : Nat × Nat → Except Err β} {x : β} (h : (codeAndLoc q >>= f) = .ok x) :
    f (Req.u16 q 0, Req.u32 q 4) = .ok x := by
  obtain ⟨y, hy, h⟩ := ok_bind_iff.1 h
  obtain ⟨-, hy⟩ := layout_bind.1 hy
  obtain ⟨-, hy⟩ := needAt_bind.1 hy
  obtain ⟨-, hy⟩ := zeroAt_bind.1 hy
  cases pure_eq_ok.1 hy
  exact h

/-- The locations FAULT_CLEAR names: those of its code with STATUS set, all of them or the one asked for. -/
theorem faultClearCheck_ok {q : Req} {c : Nat} {named : List (Nat × Nat)} (h : faultClearCheck q s = .ok (c, named)) :
    c = Req.u16 q 0 ∧ ∀ p ∈ named, p.1 = c ∧ p ∈ s.flt.status ∧ (Req.u32 q 4 = 0xFFFFFFFF ∨ p.2 = Req.u32 q 4) := by
  have h := codeAndLoc_bind h
  obtain ⟨-, h⟩ := needAt_bind.1 h
  obtain ⟨-, h⟩ := need_bind.1 h
  obtain ⟨-, h⟩ := need_bind.1 h
  cases pure_eq_ok.1 h
  refine ⟨rfl, fun p hp => ?_⟩
  obtain ⟨hm, hn⟩ := List.mem_filter.1 hp
  rw [Bool.and_eq_true, Bool.or_eq_true, beq_iff_eq, beq_iff_eq, beq_iff_eq] at hn
  exact ⟨hn.1, hm, hn.2⟩

/-- The state a FAULT_CLEAR leaves. -/
def State.faultCleared (c : Nat) (named : List (Nat × Nat)) (s : State) : State :=
  if evClass c = 2 then (s.onFlt (clearStatus c named)).unitsReturn named else s.onFlt (clearStatus c named)

theorem cmdFaultClear_eq {q : Req} {c : Nat} {named : List (Nat × Nat)} (h : faultClearCheck q s = .ok (c, named)) :
    cmdFaultClear q s = .ok (s.faultCleared c named, []) := by
  rw [cmdFaultClear, h]
  rfl

theorem clearStatus_status (c : Nat) (named : List (Nat × Nat)) (f : FltSt) :
    (clearStatus c named f).status = f.status.filter (fun p => !named.contains p) := by
  unfold clearStatus
  extract_lets f1 k f2
  have h2 : f2.status = f1.status := by
    unfold f2
    split <;> rfl
  exact h2

theorem State.faultCleared_status (c : Nat) (named : List (Nat × Nat)) :
    (s.faultCleared c named).flt.status = s.flt.status.filter (fun p => !named.contains p) := by
  unfold State.faultCleared
  split
  · rw [State.unitsReturn_status, State.onFlt_flt, clearStatus_status]
  · rw [State.onFlt_flt, clearStatus_status]

theorem State.faultCleared_kept (c : Nat) (named : List (Nat × Nat)) : (s.faultCleared c named).kept 0x230 = s.kept 0x230 := by
  unfold State.faultCleared
  split
  · exact (State.unitsReturn_kept ..).trans (State.kept_onFlt ..)
  · exact State.kept_onFlt ..

theorem faultForceCheck_ok {q : Req} {c l : Nat} (h : faultForceCheck q s = .ok (c, l)) : c = Req.u16 q 0 ∧ l = Req.u32 q 4 := by
  have h := codeAndLoc_bind h
  obtain ⟨-, h⟩ := needAt_bind.1 h
  cases pure_eq_ok.1 h
  exact ⟨rfl, rfl⟩

/-- The state in which a FAULT_FORCE raises its event. -/
def State.forced (c l : Nat) (s : State) : State := (if c = 0x09 then s.countReset .wdog else s).force c l

theorem cmdFaultForce_eq {q : Req} {c l : Nat} (h : faultForceCheck q s = .ok (c, l)) :
    cmdFaultForce q s = .ok (if restarts c then (s.forced c l).onPwr (fun p => { p with due := some (.restart, s.time.clk) })
      else s.forced c l, []) := by
  rw [cmdFaultForce, h]
  rfl

theorem State.forced_status {c : Nat} (l : Nat) (h : c ≠ 0x20) : (c, l) ∈ (s.forced c l).flt.status := State.force_status _ l h

theorem State.forced_parity (l : Nat) : s.forced 0x20 l = s.parityTrip true := by
  rw [State.forced, if_neg (by decide), State.force, if_pos rfl]

end

/-- Settles O27: a record programmed changes one slot and no limit; a clear takes its locations out of STATUS and then of isolation; a forced
event raises its own status, or takes the collector's path. -/
theorem recorderAndFaultCommandsTakeEffect : Obligations.RecorderAndFaultCommandsTakeEffect := by
  refine ⟨?recRead, ?recClear, ?recLimit, ?faultRead, ?faultClear, ?faultForce, ?eventConfig⟩
  case recRead =>
    intro q s hs ht h1 h7
    have hb : cmdRecRead q (taken q s) = .ok (taken q s, recReadBytes s.rec_ (Req.u32 q 0) (Req.u8 q 4)) := by
      rw [cmdRecRead, layout_ok ht, decide_eq_true h1, decide_eq_true h7, taken_rec_]
      rfl
    exact serve_ok hs hb
  case recClear =>
    intro q s hs ht hi
    have h := serve_ok (peers := []) hs (cmdRecClear_eq (taken q s) ht (by rwa [taken_rec_]))
    have hk := (taken q s).recCleared_kept q
    obtain ⟨hlow, hnext, hslots⟩ := (taken q s).recCleared_rec q
    rw [taken_rec_] at h hlow hnext hslots
    refine ⟨_, h, hlow, hnext, hslots, ?_, ?_, ?_, ?_⟩
    · rw [flt_of_kept hk, taken_flt]
    · rw [mem_of_kept hk, taken_mem]
    · rw [rte_of_kept hk, taken_rte]
    · rw [pwr_of_kept hk, taken_pwr]
  case recLimit =>
    intro q s code rate burst hs hc
    obtain ⟨h1, h2, h3, h4, h5, h6⟩ := recLimitCheck_ok hc
    obtain ⟨e, he⟩ := cmdRecLimit_eq (taken q s) hc
    have hk : (((taken q s).limited code rate burst).writeEntry e false).kept 0x2C0034 = (taken q s).kept 0x2C0034 :=
      (State.writeEntry_kept ..).trans (State.kept_onRec ..)
    have hl : (((taken q s).limited code rate burst).writeEntry e false).rec_.limits = tset limitReset s.rec_.limits code (rate, burst) := by
      rw [State.writeEntry_limits, State.limited, State.onRec_rec, taken_rec_]
    refine ⟨_, serve_ok hs he, h1, h2, h3, h4, h5, h6, ?_, fun c hne => ?_, ?_, ?_, ?_⟩
    · rw [hl, tget_tset_same]
    · rw [hl, tget_tset, if_neg hne]
    · rw [mem_of_kept hk, taken_mem]
    · rw [rte_of_kept hk, taken_rte]
    · rw [pwr_of_kept hk, taken_pwr]
  case faultRead =>
    intro q s hs ht
    have hb : cmdFaultRead q (taken q s) = .ok (taken q s, s.collectorBytes) := by
      rw [cmdFaultRead, layout_ok ht, State.collectorBytes, taken_flt]
      rfl
    exact serve_ok hs hb
  case faultClear =>
    intro q s c named hs hc
    obtain ⟨hcode, hnamed⟩ := faultClearCheck_ok _ hc
    rw [taken_flt] at hnamed
    have hk := (taken q s).faultCleared_kept c named
    refine ⟨_, serve_ok hs (cmdFaultClear_eq _ hc), hcode, ?_, hnamed, fun hcl ho p hp => ?_, ?_, ?_, ?_⟩
    · rw [State.faultCleared_status, taken_flt]
    · rw [State.faultCleared, if_pos hcl]
      exact State.not_mem_unitsReturn_isolated _ hp (by rwa [(hnamed p hp).1])
    · rw [mem_of_kept hk, taken_mem]
    · rw [rte_of_kept hk, taken_rte]
    · rw [pwr_of_kept hk, taken_pwr]
  case faultForce =>
    intro q s c l hs hc
    obtain ⟨hcode, hloc⟩ := faultForceCheck_ok _ hc
    have hflt : (if restarts c then ((taken q s).forced c l).onPwr (fun p => { p with due := some (.restart, (taken q s).time.clk) })
        else (taken q s).forced c l).flt = ((taken q s).forced c l).flt := by
      split
      · exact State.onPwr_flt ..
      · rfl
    refine ⟨_, serve_ok hs (cmdFaultForce_eq _ hc), hcode, hloc, fun hne => ?_, ?_, fun hr => ?_⟩
    · rw [hflt]
      exact State.forced_status _ l hne
    · rintro rfl
      obtain ⟨h1, h2, -⟩ := (taken q s).parityTrip_trips true
      rw [hflt, State.forced_parity]
      exact ⟨h2, h1⟩
    · have hres : restarts c = true := by rcases hr with rfl | rfl <;> rfl
      rw [hres, if_pos rfl, State.onPwr_pwr, taken_time]
  case eventConfig =>
    intro q s hs ht hv he
    have hc : eventConfigCheck q = .ok () := by
      rw [eventConfigCheck, layout_ok ht, decide_eq_true hv, decide_eq_true he]
      rfl
    have hb : cmdEventConfig q (taken q s) = .ok ((taken q s).setEvent (Req.u8 q 0) (Req.u8 q 1) (Req.u8 q 2), []) := by
      rw [cmdEventConfig, hc]
      rfl
    exact serve_ok hs hb

end Sys2Proof.Machine
end


section
/-! PROOFS. The TEST commands (R428, R498 to R504): what the checks of a lane's test allow, and what each command leaves. -/

set_option Elab.async false

namespace Sys2Proof.Machine

open Sys2Proof

section
variable {q : Req} {s : State} {kind lane pattern x point mask scope : Nat}

/-! ### What the checks allow -/

theorem budgetUnless_ok {β : Type} {c : Bool} {res needed avail sub member : Nat} {f : Unit → Except Err β} {y : β}
    (h : (if c = true then errBudget res needed avail sub member >>= f else f ()) = .ok y) : f () = .ok y := by
  split at h
  · cases h
  · exact h

/-- KIND and LANE of a test command are those of its request. -/
theorem testTarget_bind {β : Type} {f : Nat × Nat → Except Err β} {y : β} (h : (testTarget q >>= f) = .ok y) :
    f (Req.u8 q 0, Req.u16 q 2) = .ok y := by
  obtain ⟨p, hp, h⟩ := ok_bind_iff.1 h
  obtain ⟨-, hp⟩ := needAt_bind.1 hp
  obtain ⟨-, hp⟩ := zeroAt_bind.1 hp
  obtain ⟨-, hp⟩ := needAt_bind.1 hp
  cases pure_eq_ok.1 hp
  exact h

theorem patternCheck_ok {tx : Bool} (h : patternCheck q tx s = .ok (kind, lane, pattern)) :
    kind = Req.u8 q 0 ∧ lane = Req.u16 q 2 ∧ pattern = Req.u8 q 4 := by
  obtain ⟨-, h⟩ := layout_bind.1 h
  have h := testTarget_bind h
  obtain ⟨-, h⟩ := needAt_bind.1 h
  obtain ⟨-, h⟩ := needAt_bind.1 h
  obtain ⟨-, h⟩ := zeroAt_bind.1 h
  obtain ⟨-, h⟩ := needAt_bind.1 h
  obtain ⟨-, h⟩ := need_bind.1 (budgetUnless_ok h)
  cases pure_eq_ok.1 h
  exact ⟨rfl, rfl, rfl⟩

theorem testLoopCheck_ok (h : testLoopCheck q s = .ok (x, point)) :
    x = testLaneOf (Req.u8 q 0) (Req.u16 q 2) ∧ point = Req.u8 q 4 ∧ point < 3 := by
  obtain ⟨-, h⟩ := need_bind.1 h
  obtain ⟨-, h⟩ := layout_bind.1 h
  have h := testTarget_bind h
  obtain ⟨hp, h⟩ := needAt_bind.1 h
  obtain ⟨-, h⟩ := need_bind.1 (budgetUnless_ok h)
  cases pure_eq_ok.1 h
  exact ⟨rfl, rfl, of_decide_eq_true hp⟩

theorem testMemCheck_ok (h : testMemCheck q s = .ok (mask, pattern)) :
    mask = Req.u16 q 0 ∧ pattern = Req.u8 q 2 ∧ s.pwr.power = .staging := by
  obtain ⟨hp, h⟩ := need_bind.1 h
  obtain ⟨-, h⟩ := layout_bind.1 h
  obtain ⟨-, h⟩ := needAt_bind.1 h
  obtain ⟨-, h⟩ := needAt_bind.1 h
  obtain ⟨-, h⟩ := need_bind.1 h
  obtain ⟨-, h⟩ := need_bind.1 h
  cases pure_eq_ok.1 h
  exact ⟨rfl, rfl, beq_iff_eq.1 hp⟩

theorem testShadowCheck_ok (h : testShadowCheck q s = .ok (scope, lane)) :
    scope = Req.u8 q 0 ∧ lane = Req.u16 q 2 ∧ s.role = .shadow := by
  obtain ⟨hr, h⟩ := need_bind.1 h
  obtain ⟨-, h⟩ := layout_bind.1 h
  obtain ⟨-, h⟩ := needAt_bind.1 h
  obtain ⟨-, h⟩ := zeroAt_bind.1 h
  obtain ⟨-, h⟩ := needAt_bind.1 h
  obtain ⟨-, h⟩ := need_bind.1 h
  obtain ⟨-, h⟩ := need_bind.1 h
  cases pure_eq_ok.1 h
  exact ⟨rfl, rfl, beq_iff_eq.1 hr⟩

/-! ### What the commands leave -/

theorem cmdTestGen_eq (hr : s.role ≠ .shadow) (h : patternCheck q true s = .ok (kind, lane, pattern)) :
    cmdTestGen q s = .ok (s.setTest (testLaneOf kind lane)
      { s.testLane (testLaneOf kind lane) with gen := pattern, inject := if pattern = 0 then 0 else Req.u8 q 5 }, []) := by
  have hr' : (s.role != .shadow) = true := by rwa [bne_iff_ne]
  rw [cmdTestGen, hr', h]
  rfl

theorem cmdTestCheck_eq (h : patternCheck q false s = .ok (kind, lane, pattern)) :
    cmdTestCheck q s = .ok (s.setTest (testLaneOf kind lane)
      { s.testLane (testLaneOf kind lane) with check := pattern, locked := false, bits := 0, errors := 0 }, []) := by
  rw [cmdTestCheck, h]
  rfl

theorem cmdTestLoop_eq (h : testLoopCheck q s = .ok (x, point)) :
    cmdTestLoop q s = .ok (s.setTest x { s.testLane x with point := point }, []) := by
  rw [cmdTestLoop, h]
  rfl

theorem cmdTestResult_eq (hk : kind = Req.u32 q 0 / 2 ^ 16) (hl : lane = Req.u32 q 0 % 2 ^ 16) (hlane : lane < kindLanes kind)
    (ht : Req.trailingOk q 8 = true) (hc : Req.u32 q 4 < 2) : cmdTestResult q s =
    .ok (if Req.u32 q 4 = 1 then s.setTest (testLaneOf kind lane) { s.testLane (testLaneOf kind lane) with bits := 0, errors := 0 } else s,
      leBytes 8 (s.testLane (testLaneOf kind lane)).bits ++ leBytes 8 (s.testLane (testLaneOf kind lane)).errors ++
        leBytes 1 (bit (s.testLane (testLaneOf kind lane)).locked) ++ leBytes 1 (s.eyeOf kind lane)) := by
  subst hk hl
  simp only [cmdTestResult, readClear_ok ht hc, ok_bind, decide_eq_true hlane, needAt_true, beq_iff_eq]
  rfl

theorem cmdTestMem_eq (h : testMemCheck q s = .ok (mask, pattern)) :
    cmdTestMem q s = .ok (.later (s.onTst (fun t => { t with memRun := some (mask, pattern) })) .memTest []) := by
  rw [cmdTestMem, h]
  rfl

theorem cmdTestShadow_eq (h : testShadowCheck q s = .ok (scope, lane)) :
    cmdTestShadow q s = .ok (.later (s.onTst (fun t => { t with shadowRun := some (scope, lane) })) .shadowTest []) := by
  rw [cmdTestShadow, h]
  rfl

/-! ### A request taken up shows the same lanes -/

@[simp] theorem taken_testLane (x : Nat) : (taken q s).testLane x = s.testLane x := by rw [State.testLane, taken_tst, State.testLane]

@[simp] theorem taken_eyeOf (kind lane : Nat) : (taken q s).eyeOf kind lane = s.eyeOf kind lane := by
  simp [State.eyeOf, State.rxServes, State.rxFollower, State.rxBond, State.lane, State.svLane, sdiCfg]

end

/-- A response that waits is a job of its request. -/
theorem settle_later_job (op : Nat) (q : Req) (t s : State) (kind : JobKind) (res : List Byte) :
    ∃ j, (settle op q (.later t kind res) s).ctl.jobs = t.ctl.jobs ++ [j] ∧ j.kind = kind ∧ j.req = q := ⟨_, rfl, rfl, rfl⟩

/-- Settles O29: each command's passed checks name its lane or its run; a run's response becomes a job. -/
theorem testCommandsTakeEffect : Obligations.TestCommandsTakeEffect := by
  refine ⟨?gen, ?check, ?loop, ?result, ?mem, ?shadow⟩
  case gen =>
    intro q s kind lane pattern hs hr hc
    obtain ⟨hk, hl, hp⟩ := patternCheck_ok hc
    have h := serve_ok (peers := []) hs (cmdTestGen_eq (by rwa [taken_role]) hc)
    rw [taken_testLane] at h
    exact ⟨hk, hl, hp, h⟩
  case check =>
    intro q s kind lane pattern hs hc
    obtain ⟨hk, hl, hp⟩ := patternCheck_ok hc
    have h := serve_ok (peers := []) hs (cmdTestCheck_eq hc)
    rw [taken_testLane] at h
    exact ⟨hk, hl, hp, h⟩
  case loop =>
    intro q s x point hs hc
    obtain ⟨hx, hp, hlt⟩ := testLoopCheck_ok hc
    have h := serve_ok (peers := []) hs (cmdTestLoop_eq hc)
    rw [taken_testLane] at h
    exact ⟨hx, hp, hlt, h⟩
  case result =>
    intro q s kind lane hs hk hl hlane ht hc
    have h := serve_ok (peers := []) hs (cmdTestResult_eq hk hl hlane ht hc)
    rw [taken_testLane, taken_eyeOf] at h
    exact h
  case mem =>
    intro q s mask pattern hs hc
    obtain ⟨hm, hp, hpwr⟩ := testMemCheck_ok hc
    obtain ⟨j, hj, hkind, hreq⟩ := settle_later_job _ q _ s.fresh _ _
    refine ⟨_, j, serveAns_ok hs (cmdTestMem_eq hc), hm, hp, by rwa [taken_pwr] at hpwr, ?_, hj.trans ?_, hkind, hreq, ?_⟩
    · simp [settle]
    · rw [State.onTst_ctl, taken_ctl_jobs]
    · simp [settle]
  case shadow =>
    intro q s scope lane hs hc
    obtain ⟨hsc, hl, hrole⟩ := testShadowCheck_ok hc
    obtain ⟨j, hj, hkind, hreq⟩ := settle_later_job _ q _ s.fresh _ _
    refine ⟨_, j, serveAns_ok hs (cmdTestShadow_eq hc), hsc, hl, by rwa [taken_role] at hrole, ?_, hj.trans ?_, hkind, hreq, ?_⟩
    · simp [settle]
    · rw [State.onTst_ctl, taken_ctl_jobs]
    · simp [settle]

end Sys2Proof.Machine
end


section
/-! PROOFS. The UPDATE commands (R426, R427, R486, R490, R491, R493): what their checks allow, and what a slot's write and its activation
leave, from the firmware and from the boot ROM. -/

set_option Elab.async false

namespace Sys2Proof.Machine

open Sys2Proof

/-! ### Serving -/

/-- A command its own checks refuse with a status alone. -/
theorem serveAns_err {op st : Nat} {q : Req} {s : State} {cmd : Req → State → Except Err Ans} {peers : List PeerAnswer} (h : Serves op q s)
    (hb : cmd q (taken q s) = err st) : serveAns op cmd q s peers = .next (answered op st q [] (taken q s)) := by
  obtain ⟨h1, h2, h3, h4, -⟩ := h
  have hb' : cmd q (takeUp q s.fresh) = err st := hb
  have e1 : s.fresh.pwr.bootState = .firmware := h2
  have e2 : s.fresh.heard q.port = true := h3
  simp only [serveAns, checked, h1, if_true, done]
  rw [e1]
  simp only [e2, if_true, run, h4, hb', err, refuse, State.raiseErr, taken, answered]

/-- A request the boot ROM serves is answered with what its body leaves (R493). -/
theorem serve_rescue {op : Nat} {q : Req} {s t : State} {res : List Byte} {cmd : Req → State → Res} {peers : List PeerAnswer}
    (hq : Req.wf q = true) (hb : s.pwr.bootState = .rescue ∨ s.pwr.bootState = .waitLoad) (hp : rescuePort q s = true)
    (hh : headerOk q s = true) (ho : rescueOps.contains op = true) (hc : cmd q (taken q s) = .ok (t, res)) :
    serve op cmd q s peers = .next (answered op 0 q res t) := by
  have hc' : cmd q (takeUp q s.fresh) = .ok (t, res) := hc
  have hh' : headerOk q s.fresh = true := hh
  rw [serve, serveAns_rescue hq hb, hp, if_pos rfl, runRescue]
  simp only [hh', ho, hc', Except.map, settle, Bool.not_true, Bool.false_eq_true, if_false, answered]

/-! ### A request taken up shows the same slots -/

section
variable (q : Req) (s : State)

@[simp] theorem taken_slotBytes (n : Nat) : (taken q s).slotBytes n = s.slotBytes n := by simp [State.slotBytes]

@[simp] theorem taken_slotTable : (taken q s).slotTable = s.slotTable := by simp [State.slotTable, State.tableOne]

@[simp] theorem taken_slotState (n : Nat) : (taken q s).slotState n = s.slotState n := by simp [State.slotState]

@[simp] theorem taken_slotBad (n : Nat) : (taken q s).slotBad n = s.slotBad n := by simp [State.slotBad]

@[simp] theorem taken_slotMajor (n : Nat) : (taken q s).slotMajor n = s.slotMajor n := by simp [State.slotMajor]

@[simp] theorem taken_rescueServes : (taken q s).rescueServes = s.rescueServes := by simp [State.rescueServes]

@[simp] theorem taken_writeSlot : (taken q s).writeSlot = s.writeSlot := by simp [State.writeSlot, State.activeSlot]

@[simp] theorem taken_imageFails (n : Nat) (v : ImageVerdict) : (taken q s).imageFails n v = s.imageFails n v := by
  simp [State.imageFails, State.slotSize]

end

section
variable {q : Req} {s : State} {w : UpdOpen} {len : Nat}

/-! ### The write of a slot (R427, R490) -/

theorem cmdUpdBegin_eq (ht : Req.trailingOk q 4 = true) (h1 : 1 ≤ Req.u32 q 0) (h2 : Req.u32 q 0 ≤ 16777216) (hw : s.upd.write = none)
    (hb : s.slotBad s.writeSlot = false) : cmdUpdBegin q s =
    .ok ((s.writeTable (fun t => fput (fput t (stateFld s.writeSlot) slotIncomplete) (sizeFld s.writeSlot) (Req.u32 q 0))).onUpd
      (fun u => { u with write := some ⟨s.writeSlot, Req.u32 q 0, 0⟩ }), leBytes 1 s.writeSlot) := by
  have hc : updBeginCheck q s = .ok (s.writeSlot, Req.u32 q 0) := by
    rw [updBeginCheck, layout_ok ht, ok_bind]
    dsimp only
    rw [decide_eq_true h1, decide_eq_true h2, hw, hb]
    rfl
  rw [cmdUpdBegin, hc]
  rfl

/-- A chunk goes to the write that is open, at the count of bytes written so far. -/
theorem updChunkCheck_ok (h : updChunkCheck q s = .ok (w, len)) :
    s.upd.write = some w ∧ len = Req.u16 q 4 ∧ Req.u32 q 0 = w.written ∧ w.written + len ≤ w.size := by
  obtain ⟨-, h⟩ := needAt_bind.1 h
  obtain ⟨-, h⟩ := zeroAt_bind.1 h
  obtain ⟨-, h⟩ := layout_bind.1 h
  split at h
  · cases h
  · next w' hw =>
    obtain ⟨ha, h⟩ := needAt_bind.1 h
    obtain ⟨hs, h⟩ := needAt_bind.1 h
    cases pure_eq_ok.1 h
    exact ⟨hw, rfl, beq_iff_eq.1 ha, of_decide_eq_true hs⟩

theorem cmdUpdChunk_programmed (h : updChunkCheck q s = .ok (w, len)) : cmdUpdChunk false q s =
    .ok (.now (chunkDo w (fitBytes len (Req.slice q 8 len)) s) (leBytes 4 (w.written + len))) := by
  rw [cmdUpdChunk, h]
  rfl

theorem cmdUpdChunk_fails (h : updChunkCheck q s = .ok (w, len)) : cmdUpdChunk true q s = .ok (.failed (s.updateFails w.slot) eCheck []) := by
  rw [cmdUpdChunk, h]
  rfl

theorem chunkDo_write (data : List Byte) : (chunkDo w data s).upd.write = some { w with written := w.written + data.length } := rfl

theorem chunkDo_slotBytes (data : List Byte) : (chunkDo w data s).slotBytes w.slot =
    fitBytes w.written (s.slotBytes w.slot) ++ data ++ (s.slotBytes w.slot).drop (w.written + data.length) := by
  unfold chunkDo State.setSlotBytes State.slotBytes
  dsimp only
  split <;> rfl

theorem State.updateFails_write (slot : Nat) : (s.updateFails slot).upd.write = none := by
  rw [State.updateFails, upd_of_kept (State.contain_kept (μ := 0x2C0014) ..)]
  rfl

theorem State.updateFails_status (slot : Nat) : (0xFF, locMram (16 * slot)) ∈ (s.updateFails slot).flt.status := State.contain_status ..

/-- A write that is whole ends WRITTEN where its CRC is the one given, and is refused where it is not. -/
theorem cmdUpdEnd_eq (ht : Req.trailingOk q 4 = true) (hw : s.upd.write = some w) (hs : w.written = w.size) : cmdUpdEnd q s =
    if crc32c (fitBytes w.size (s.slotBytes w.slot)) = Req.u32 q 0 then
      .ok (.now ((s.onUpd (fun u => { u with write := none })).writeTable (fun t => fput t (stateFld w.slot) slotWritten))
        (leBytes 4 (crc32c (fitBytes w.size (s.slotBytes w.slot)))))
    else err eCheck := by
  rw [cmdUpdEnd, layout_ok ht, ok_bind, hw]
  dsimp only
  rw [beq_iff_eq.2 hs, need_true, ok_bind]
  rfl

/-! ### The activation of a slot (R491, R493) -/

theorem cmdUpdActivate_firmware {v : ImageVerdict} (hr : s.rescueServes = false) (ht : Req.trailingOk q 1 = true) (h2 : Req.u8 q 0 < 2)
    (hw : s.slotState (Req.u8 q 0) = slotWritten) (hm : s.pwr.power = .active → s.slotMajor (Req.u8 q 0) = s.pwr.fwMajor) :
    cmdUpdActivate v q s = .ok ((s.activateSlot (Req.u8 q 0)).onPwr (fun p => { p with due := some (.restart, s.dueAt) }), []) := by
  have hc : updActivateCheck q s = .ok (Req.u8 q 0) := by
    have hm' : (!(s.pwr.power == .active && s.slotMajor (Req.u8 q 0) != s.pwr.fwMajor)) = true := by
      simpa only [Bool.not_and, bne, Bool.not_not, Bool.or_eq_true, Bool.not_eq_true', beq_iff_eq, beq_eq_false_iff_ne, ne_eq,
        ← Decidable.imp_iff_not_or] using hm
    rw [updActivateCheck, layout_ok ht, ok_bind]
    dsimp only
    rw [decide_eq_true h2, needAt_true, ok_bind, hr, if_neg Bool.false_ne_true, hw, hm']
    rfl
  rw [cmdUpdActivate, hc, ok_bind, hr, if_neg Bool.false_ne_true]
  rfl

theorem cmdUpdActivate_rescue {v : ImageVerdict} (hr : s.rescueServes = true) (ht : Req.trailingOk q 1 = true) (h2 : Req.u8 q 0 < 2)
    (hw : s.slotState (Req.u8 q 0) = slotWritten ∨ s.slotState (Req.u8 q 0) = slotActive) (hi : s.imageFails (Req.u8 q 0) v = none) :
    cmdUpdActivate v q s = .ok ((s.activateSlot (Req.u8 q 0)).bootImage, []) := by
  have hc : updActivateCheck q s = .ok (Req.u8 q 0) := by
    have hw' : (s.slotState (Req.u8 q 0) == slotWritten || s.slotState (Req.u8 q 0) == slotActive) = true := by simpa using hw
    rw [updActivateCheck, layout_ok ht, ok_bind]
    dsimp only
    rw [decide_eq_true h2, needAt_true, ok_bind, hr, if_pos rfl, hw']
    rfl
  rw [cmdUpdActivate, hc, ok_bind, hr, if_pos rfl, hi]
  rfl

theorem rescueServes_of_firmware (h : s.pwr.bootState = .firmware) : s.rescueServes = false := by
  rw [State.rescueServes, h]
  rfl

end

/-- Settles O28: a chunk extends the bytes of the open write, or loses the write where it cannot be programmed; the end of a write judges its
CRC; an activation rewrites the table, and ends in a restart or, from the ROM, in a start. That a wrong CRC leaves the write open and a
programming failure closes it is log entry 67. -/
theorem updateCommandsTakeEffect : Obligations.UpdateCommandsTakeEffect := by
  refine ⟨?begin_, ?chunk, ?chunkFails, ?end_, ?endFails, ?activate, ?rescue, ?query⟩
  case begin_ =>
    intro q s hs ht h1 h2 hw hb
    have h := serve_ok (peers := []) hs (cmdUpdBegin_eq ht h1 h2 (by rwa [taken_upd]) (by rwa [taken_writeSlot, taken_slotBad]))
    rw [taken_writeSlot] at h
    exact h
  case chunk =>
    intro q s w len hs hc
    obtain ⟨hw, hlen, ho, hsz⟩ := updChunkCheck_ok hc
    have hk (data : List Byte) := (chunkDo_kept (μ := 0x100000) w data (taken q s))
    have hl := fitBytes_length len (Req.slice q 8 len)
    refine ⟨_, serveAns_ok hs (cmdUpdChunk_programmed hc), by rwa [taken_upd] at hw, hlen, ho, hsz, ?_, ?_, ?_, ?_, ?_, ?_⟩
    · rw [chunkDo_write, hl]
    · rw [chunkDo_slotBytes, hl, taken_slotBytes]
    · rw [mem_of_kept (hk _), taken_mem]
    · rw [rte_of_kept (hk _), taken_rte]
    · rw [pwr_of_kept (hk _), taken_pwr]
    · rw [flt_of_kept (hk _), taken_flt]
  case chunkFails =>
    intro q s w len hs hc
    have hk := State.updateFails_kept (μ := 0x3C0014) w.slot (taken q s)
    refine ⟨_, serveAns_ok hs (cmdUpdChunk_fails hc), State.updateFails_write _, State.updateFails_status _, ?_, ?_, ?_⟩
    · rw [mem_of_kept hk, taken_mem]
    · rw [rte_of_kept hk, taken_rte]
    · rw [pwr_of_kept hk, taken_pwr]
  case end_ =>
    intro q s w hs ht hw hsz hcrc
    have hc := cmdUpdEnd_eq (s := taken q s) ht (by rwa [taken_upd]) hsz
    rw [taken_slotBytes, if_pos hcrc, hcrc] at hc
    exact serveAns_ok hs hc
  case endFails =>
    intro q s w hs ht hw hsz hcrc
    have hc := cmdUpdEnd_eq (s := taken q s) ht (by rwa [taken_upd]) hsz
    rw [taken_slotBytes, if_neg hcrc] at hc
    exact serveAns_err hs hc
  case activate =>
    intro q s v hs ht h2 hw hm
    have hf : s.pwr.bootState = .firmware := hs.up
    have h := serve_ok (peers := []) hs (cmdUpdActivate_firmware (v := v) (by rw [taken_rescueServes, rescueServes_of_firmware hf]) ht h2
      (by rwa [taken_slotState]) (by rwa [taken_pwr, taken_slotMajor]))
    rw [taken_dueAt] at h
    exact h
  case rescue =>
    intro q s hb hp har hh hq ht h2 hw hi
    have hrp : rescuePort q s = true := by rw [rescuePort, hp, har]; rfl
    have hr : s.rescueServes = true := by rw [State.rescueServes, hb]; rfl
    exact serve_rescue hq (.inl hb) hrp hh (by decide) (cmdUpdActivate_rescue (by rwa [taken_rescueServes]) ht h2
      (by rwa [taken_slotState]) (by rwa [taken_imageFails]))
  case query =>
    intro q s hs ht
    have hb : cmdUpdQuery q (taken q s) = .ok (taken q s, leBytes 1 (fget s.slotTable SlotTab.active) ++
        leBytes 1 (fget s.slotTable SlotTab.stateA) ++ leBytes 1 (fget s.slotTable SlotTab.stateB) ++ [0] ++
        leBytes 4 (fget s.slotTable SlotTab.sizeA) ++ leBytes 4 (fget s.slotTable SlotTab.sizeB)) := by
      rw [cmdUpdQuery, layout_ok ht, taken_slotTable]
      rfl
    exact serve_ok hs hb

end Sys2Proof.Machine
end


section
/-! PROOFS. The SALVO commands (R117 to R125, R416, R417): what settling, admitting, taking and abandoning a salvo leave of its record, its arm
register and the PENDING copies. -/

set_option Elab.async false

namespace Sys2Proof.Machine

open Sys2Proof

/-! ### Records, arm registers and what is left to switch -/

section
variable {s t : State} {n : Nat}

theorem State.salvo_of_rte (h : t.rte = s.rte) (n : Nat) : t.salvo n = s.salvo n := by rw [State.salvo, h, State.salvo]

theorem State.armed_of_rte (h : t.rte = s.rte) (n : Nat) : t.armed n = s.armed n := by rw [State.armed, h, State.armed]

theorem State.routeP_of_rte (h : t.rte = s.rte) (o : Nat) : t.routeP o = s.routeP o := by rw [State.routeP, h, State.routeP]

theorem State.routeP_of_pending (h : t.rte.pending = s.rte.pending) (o : Nat) : t.routeP o = s.routeP o := by
  rw [State.routeP, h, State.routeP]

theorem State.armed_setSalvo (k : Nat) (v : Salvo) (n : Nat) : (s.setSalvo k v).armed n = s.armed n := rfl

theorem State.armed_setArm {target : Nat} (h : target < 2 ^ 64) : (s.setArm n target).armed n = target := by
  unfold State.armed State.setArm
  rw [State.onRte_rte, tget_tset_same, BitVec.toNat_ofNat, Nat.mod_eq_of_lt h]

/-- What is left to switch is read from the PENDING copies and the outputs' latches. -/
theorem State.salvoLeft_congr (hp : t.rte.pending = s.rte.pending) (ho : t.rte.outs = s.rte.outs) (n : Nat) : t.salvoLeft n = s.salvoLeft n := by
  rw [State.salvoLeft, hp, ho, State.salvoLeft]

/-- What other members have left is a matter of the clock, of this device's number and of the salvo's entries. -/
theorem State.othersLeft_congr {v w : Salvo} (htrp : t.trp = s.trp) (hnow : t.now = s.now)
    (hv : w.rebuilt = v.rebuilt ∧ w.origin = v.origin ∧ w.entries = v.entries ∧ w.target = v.target) : t.othersLeft w = s.othersLeft v := by
  obtain ⟨h1, h2, h3, h4⟩ := hv
  rw [State.othersLeft, State.member, htrp, hnow, h1, h2, h3, h4, State.othersLeft, State.member]

theorem now_of_kept {m : Nat} (e : t.kept m = s.kept m) (h0 : m.testBit 0 = false := by rfl) (h17 : m.testBit 17 = false := by rfl) :
    t.now = s.now := by
  rw [State.now, State.now32, State.rate, time_of_kept e h0, ptp_of_kept e h17, State.now, State.now32, State.rate]

/-! ### Settling (R117, R119, R123) -/

theorem State.settleSalvo_of_left (h : (s.salvo n).state ≠ .committed ∨ s.salvoLeft n = true ∨ s.othersLeft (s.salvo n) = true) :
    s.settleSalvo n = s := by
  unfold State.settleSalvo
  rw [if_pos (by simpa [bne_iff_ne, or_assoc] using h)]

theorem State.settleSalvo_of_none (h : (s.salvo n).state = .committed) (hl : s.salvoLeft n = false) (ho : s.othersLeft (s.salvo n) = false)
    (hr : (s.salvo n).rebuilt = false) : s.settleSalvo n = (s.setArm n 0).setSalvo n { s.salvo n with state := .done } := by
  unfold State.settleSalvo
  rw [if_neg (by simp [h, hl, ho]), if_neg (by simp [hr])]

theorem State.settleSalvo_done (h : (s.salvo n).state = .committed) (hl : s.salvoLeft n = false) (ho : s.othersLeft (s.salvo n) = false)
    (hr : (s.salvo n).rebuilt = false) : ((s.settleSalvo n).salvo n).state = .done ∧ (s.settleSalvo n).armed n = 0 := by
  rw [State.settleSalvo_of_none h hl ho hr, State.salvo_setSalvo, if_pos rfl, State.armed_setSalvo, State.armed_setArm (by decide)]
  exact ⟨rfl, rfl⟩

theorem State.settleSalvo_flt (n : Nat) (s : State) : (s.settleSalvo n).flt = s.flt := flt_of_kept (State.settleSalvo_kept (μ := 0x400) ..)

/-! ### What is forwarded to other members -/

/-- A request forwarded to each of the members named. -/
def State.forwardAll (op : Nat) (q : Req) (extra : Nat) (l : List Nat) (s : State) : State := l.foldl (State.forwardTo op q extra) s

theorem State.forwardAll_kept (op : Nat) (q : Req) (extra : Nat) (l : List Nat) (s : State) :
    (s.forwardAll op q extra l).kept 0x40000 = s.kept 0x40000 :=
  kept_foldl (fun _ _ => State.forwardTo_kept ..) l s

theorem State.forwardAll_rte (op : Nat) (q : Req) (extra : Nat) (l : List Nat) (s : State) : (s.forwardAll op q extra l).rte = s.rte :=
  rte_of_kept (State.forwardAll_kept ..)

end

/-! ### SALVO_ADD -/

section
variable {q : Req} {s : State} {n : Nat}

theorem salvoArg_lt {off : Nat} (h : salvoArg q off s = .ok n) : n < 64 := by
  obtain ⟨hn, h⟩ := needAt_bind.1 h
  obtain ⟨-, h⟩ := need_bind.1 h
  cases pure_eq_ok.1 h
  exact of_decide_eq_true hn

theorem salvoAddCheck_ok {l : List SalvoEntry} (h : salvoAddCheck q s = .ok (n, l)) : n = Req.u8 q 0 ∧ n < 64 ∧
    l = (List.range (Req.u8 q 1)).foldl (fun l i => addEntry l (readEntry (fitBytes 36 (Req.slice q (4 + 36 * i) 36)))) (s.salvo n).entries := by
  obtain ⟨m, hm, h⟩ := ok_bind_iff.1 h
  obtain ⟨-, h⟩ := needAt_bind.1 h
  obtain ⟨-, h⟩ := zeroAt_bind.1 h
  obtain ⟨-, -, h⟩ := ok_bind_iff.1 h
  obtain ⟨-, h⟩ := layout_bind.1 h
  obtain ⟨-, h⟩ := need_bind.1 h
  obtain ⟨-, h⟩ := need_bind.1 h
  obtain ⟨-, h⟩ := needAt_bind.1 h
  cases pure_eq_ok.1 h
  exact ⟨salvoArg_eq hm, salvoArg_lt hm, rfl⟩

/-- The members whose entries a SALVO_ADD adds. -/
def addedMembers (q : Req) : List Nat := ((List.range (Req.u8 q 1)).map (fun i => Req.u8 q (4 + 36 * i))).eraseDups

theorem cmdSalvoAdd_eq {l : List SalvoEntry} {u : State} (hu : u = s.settleSalvo (Req.u8 q 0)) (h : salvoAddCheck q u = .ok (n, l)) :
    cmdSalvoAdd q s = .ok ((salvoPrepare q n l u).forwardAll 0x0600 q 0 (askOthers q u (addedMembers q)), leBytes 2 l.length) := by
  subst hu
  simp only [cmdSalvoAdd, h]
  rfl

/-! ### SALVO_ADMIT -/

theorem claimAll_rte {α : Type} {m : Nat} {add : List Hold} {drop : Hold → Bool} {f : State → Except Err α} {x : α}
    (h : (inMember m (claimAll add drop s) >>= f) = .ok x) : ∃ t, t.kept 0x200 = s.kept 0x200 ∧ f t = .ok x := by
  obtain ⟨t, ht, h⟩ := ok_bind_iff.1 h
  exact ⟨t, (inMember_ok _ _ _ _ (claimAll_ok (μ := 0x200) ..)).out _ ht, h⟩

theorem salvoAdmitCheck_facts {peers : List PeerAnswer} {v : State} (h : salvoAdmitCheck peers q s = .ok (n, v)) :
    n = Req.u8 q 0 ∧ n < 64 ∧ v.kept 0x200 = s.kept 0x200 := by
  obtain ⟨m, hm, h⟩ := ok_bind_iff.1 h
  obtain ⟨-, h⟩ := layout_bind.1 h
  obtain ⟨-, h⟩ := need_bind.1 h
  obtain ⟨-, h⟩ := need_bind.1 h
  obtain ⟨_, -, h⟩ := ok_bind_iff.1 h
  obtain ⟨t, ht, h⟩ := claimAll_rte h
  obtain ⟨-, -, h⟩ := ok_bind_iff.1 h
  cases pure_eq_ok.1 h
  exact ⟨salvoArg_eq hm, salvoArg_lt hm, ht⟩

theorem cmdSalvoAdmit_eq {peers : List PeerAnswer} {u v : State} (hu : u = s.settleSalvo (Req.u8 q 0))
    (h : salvoAdmitCheck peers q u = .ok (n, v)) : cmdSalvoAdmit peers q s =
    .ok ((salvoAdmitDo n v).forwardAll 0x0601 q 0 (askOthers q u (otherMembers u (u.salvo n))), leBytes 1 (salvoMembers (u.salvo n))) := by
  subst hu
  simp only [cmdSalvoAdmit, h]
  rfl

theorem State.setRouteP_salvo (o : Nat) (e : BitVec 256) (m : Nat) : (s.setRouteP o e).salvo m = s.salvo m := rfl

/-- An entry as it is HELD for a salvo. -/
def heldEntry (n : Nat) (e : BitVec 256) : BitVec 256 := fput (fput e RouteEntry.pendState pendHeld) RouteEntry.salvoId n

theorem heldEntry_fields (h : n < 64) (e : BitVec 256) :
    fget (heldEntry n e) RouteEntry.pendState = 1 ∧ fget (heldEntry n e) RouteEntry.salvoId = n := by
  rw [heldEntry, fget_fput_of_disjoint _ _ _ _ (by decide) (by decide), fget_fput _ _ _ (by decide), fget_fput _ _ _ (by decide)]
  exact ⟨rfl, Nat.mod_eq_of_lt h⟩

/-- One entry HELD for a salvo, and the entries listed. -/
def State.holdEntry (n : Nat) (s : State) (e : SalvoEntry) : State := s.setRouteP e.output (heldEntry n e.rec_)

def State.holdEntries (n : Nat) (l : List SalvoEntry) (s : State) : State := l.foldl (State.holdEntry n) s

theorem State.holdEntry_salvo (e : SalvoEntry) (m : Nat) : (s.holdEntry n e).salvo m = s.salvo m := by
  rw [State.holdEntry, State.setRouteP_salvo]

theorem State.holdEntry_active (e : SalvoEntry) : (s.holdEntry n e).rte.active = s.rte.active := by
  rw [State.holdEntry, State.setRouteP_active]

theorem salvoAdmitDo_eq : salvoAdmitDo n s =
    (s.setSalvo n { s.salvo n with state := .admitted, switched := [], acks := 0 }).holdEntries n (ownEntries s (s.salvo n)) := by
  unfold salvoAdmitDo State.holdEntries State.holdEntry heldEntry
  rfl

theorem State.holdEntries_salvo (l : List SalvoEntry) (m : Nat) : (s.holdEntries n l).salvo m = s.salvo m :=
  foldl_leaves (fun t : State => t.salvo m) (f := State.holdEntry n) (fun t e => t.holdEntry_salvo e m) l s

theorem State.holdEntries_active (l : List SalvoEntry) : (s.holdEntries n l).rte.active = s.rte.active :=
  foldl_leaves (fun t : State => t.rte.active) (f := State.holdEntry n) (fun t e => t.holdEntry_active e) l s

/-- Only the outputs of the entries are touched. -/
theorem State.holdEntries_routeP_of_not_mem (l : List SalvoEntry) {o : Nat} (h : ∀ e ∈ l, e.output ≠ o) :
    (s.holdEntries n l).routeP o = s.routeP o := by
  induction l generalizing s with
  | nil => rfl
  | cons e l ih =>
    have hne : o ≠ e.output := (h e List.mem_cons_self).symm
    have h1 : ((s.holdEntry n e).holdEntries n l).routeP o = (s.holdEntry n e).routeP o := ih (fun e' he' => h e' (List.mem_cons_of_mem _ he'))
    rw [State.holdEntries] at h1
    rw [State.holdEntries, List.foldl_cons, h1, State.holdEntry, State.routeP_setRouteP, if_neg hne]

/-- Each entry's output is HELD for the salvo, by that entry or by a later one. -/
theorem State.holdEntries_held (h : n < 64) {l : List SalvoEntry} {e : SalvoEntry} (he : e ∈ l) :
    fget ((s.holdEntries n l).routeP e.output) RouteEntry.pendState = 1 ∧ fget ((s.holdEntries n l).routeP e.output) RouteEntry.salvoId = n := by
  refine foldl_establishes (f := State.holdEntry n)
    (P := fun t : State => fget (t.routeP e.output) RouteEntry.pendState = 1 ∧ fget (t.routeP e.output) RouteEntry.salvoId = n) he
    (fun t => ?_) (fun t e' ht => ?_) s
  · rw [State.holdEntry, State.routeP_setRouteP_same]
    exact heldEntry_fields h _
  · rw [State.holdEntry, State.routeP_setRouteP]
    split
    · exact heldEntry_fields h _
    · exact ht

/-! ### SALVO_TAKE -/

theorem takeTiming_ok {peers : List PeerAnswer} {receipt target e first : Nat} {moved : Bool}
    (h : takeTiming s peers q n receipt = .ok (target, moved, e, first)) :
    (moved = false → target = if Req.u64 q 8 = 0 then receipt + 1000000 else Req.u64 q 8) ∧ (moved = true → target = receipt + 1000000) := by
  obtain ⟨-, h⟩ := needAt_bind.1 h
  split at h
  · next h0 =>
    cases pure_eq_ok.1 h
    exact ⟨fun _ => by rw [if_pos h0], fun h => nomatch h⟩
  · next h0 =>
    dsimp only at h
    split at h
    · cases pure_eq_ok.1 h
      exact ⟨fun _ => by rw [if_neg h0], fun h => nomatch h⟩
    · split at h
      · cases pure_eq_ok.1 h
        exact ⟨fun h => (nomatch h), fun _ => rfl⟩
      · cases h

theorem salvoTakeCheck_ok {peers : List PeerAnswer} {receipt target e first : Nat} {moved : Bool}
    (h : salvoTakeCheck peers q receipt s = .ok (n, target, moved, e, first)) : n = Req.u8 q 0 ∧ (s.salvo n).state = .admitted ∧
    (moved = false → target = if Req.u64 q 8 = 0 then receipt + 1000000 else Req.u64 q 8) ∧ (moved = true → target = receipt + 1000000) := by
  obtain ⟨m, hm, h⟩ := ok_bind_iff.1 h
  obtain ⟨-, h⟩ := zeroAt_bind.1 h
  obtain ⟨-, h⟩ := layout_bind.1 h
  obtain ⟨hst, h⟩ := need_bind.1 h
  obtain ⟨-, h⟩ := need_bind.1 h
  obtain ⟨x, hx, h⟩ := ok_bind_iff.1 h
  obtain ⟨target', moved', e', first'⟩ := x
  cases pure_eq_ok.1 h
  exact ⟨salvoArg_eq hm, by simpa using hst, takeTiming_ok hx⟩

end

section
variable (n target asked receipt : Nat) (moved : Bool) (earliest first : Nat) (s : State)

/-- The salvo as a take arms it. -/
def Salvo.armedAt (target earliest member : Nat) (v : Salvo) : Salvo :=
  { v with state := .committed, target := target, earliest := earliest, acks := 2 ^ member }

theorem State.takeLate_rte (reason salvo target earliest receipt : Nat) : (s.takeLate reason salvo target earliest receipt).rte = s.rte :=
  State.raise_rte ..

theorem State.takeLate_trp (reason salvo target earliest receipt : Nat) : (s.takeLate reason salvo target earliest receipt).trp = s.trp :=
  State.raise_trp (show evClass 0x63 ≠ 3 by decide) _

/-- A take leaves of the routes the salvo's record and its arm register changed. -/
theorem salvoTakeDo_rte : (salvoTakeDo n target asked receipt moved earliest first s).rte =
    ((s.setArm n target).setSalvo n ((s.salvo n).armedAt target earliest s.member)).rte := by
  unfold salvoTakeDo
  extract_lets s1 v1
  have hr : s1.rte = s.rte := by
    unfold s1
    split
    · exact State.takeLate_rte ..
    · rfl
  have ht : s1.trp = s.trp := by
    unfold s1
    split
    · exact State.takeLate_trp ..
    · rfl
  have hv : v1 = s.salvo n := State.salvo_of_rte hr n
  rw [State.raise_rte, State.setSalvo, State.onRte_rte, State.setArm, State.onRte_rte, hr, hv]
  rfl

theorem salvoTakeDo_trp : (salvoTakeDo n target asked receipt moved earliest first s).trp = s.trp := by
  unfold salvoTakeDo
  extract_lets s1
  have ht : s1.trp = s.trp := by
    unfold s1
    split
    · exact State.takeLate_trp ..
    · rfl
  exact (State.raise_trp (show evClass 0x62 ≠ 3 by decide) _).trans ht

theorem salvoTakeDo_status : (0x62, locSwitch) ∈ (salvoTakeDo n target asked receipt moved earliest first s).flt.status := by
  unfold salvoTakeDo
  exact State.raise_status ..

theorem salvoTakeDo_unpended : (salvoTakeDo n target asked receipt moved earliest first s).ctl.unpended = s.ctl.unpended := by
  unfold salvoTakeDo
  extract_lets s1
  rw [State.raise_unpended]
  show s1.ctl.unpended = s.ctl.unpended
  unfold s1
  split
  · exact State.raise_unpended ..
  · rfl

/-- The state a take leaves on this device: armed, and settled where nothing is left to switch. -/
def salvoTaken : State := (salvoTakeDo n target asked receipt moved earliest first s).settleSalvo n

theorem salvoTaken_kept : (salvoTaken n target asked receipt moved earliest first s).kept 0x2C0414 = s.kept 0x2C0414 :=
  (State.settleSalvo_kept ..).trans (salvoTakeDo_kept ..)

theorem salvoTaken_active : (salvoTaken n target asked receipt moved earliest first s).rte.active = s.rte.active := by
  rw [salvoTaken, State.settleSalvo_active, salvoTakeDo_rte]
  rfl

theorem salvoTaken_pending : (salvoTaken n target asked receipt moved earliest first s).rte.pending = s.rte.pending := by
  rw [salvoTaken, State.settleSalvo_pending, salvoTakeDo_rte]
  rfl

theorem salvoTaken_status : (0x62, locSwitch) ∈ (salvoTaken n target asked receipt moved earliest first s).flt.status := by
  rw [salvoTaken, State.settleSalvo_flt]
  exact salvoTakeDo_status ..

theorem salvoTaken_jobs : (salvoTaken n target asked receipt moved earliest first s).ctl.jobs = s.ctl.jobs := by
  rw [salvoTaken, ctl_of_kept (State.settleSalvo_kept (μ := 0x400) ..)]
  exact State.jobs_of_unpended (salvoTakeDo_unpended ..)

end

section
variable {n target asked receipt : Nat} {moved : Bool} {earliest first : Nat} {s : State}

theorem salvoTakeDo_salvo : (salvoTakeDo n target asked receipt moved earliest first s).salvo n = (s.salvo n).armedAt target earliest s.member := by
  rw [State.salvo_of_rte (salvoTakeDo_rte ..), State.salvo_setSalvo, if_pos rfl]

theorem salvoTakeDo_armed (h : target < 2 ^ 64) : (salvoTakeDo n target asked receipt moved earliest first s).armed n = target := by
  rw [State.armed_of_rte (salvoTakeDo_rte ..), State.armed_setSalvo, State.armed_setArm h]

theorem salvoTakeDo_left : (salvoTakeDo n target asked receipt moved earliest first s).salvoLeft n = s.salvoLeft n :=
  State.salvoLeft_congr (by rw [salvoTakeDo_rte]; rfl) (by rw [salvoTakeDo_rte]; rfl) n

theorem salvoTakeDo_othersLeft : (salvoTakeDo n target asked receipt moved earliest first s).othersLeft
    ((salvoTakeDo n target asked receipt moved earliest first s).salvo n) = s.othersLeft { s.salvo n with target := target } :=
  State.othersLeft_congr (salvoTakeDo_trp ..) (now_of_kept (salvoTakeDo_kept (μ := 0x2C0414) ..))
    (by rw [salvoTakeDo_salvo]; exact ⟨rfl, rfl, rfl, rfl⟩)

/-- While something is left to switch the salvo stays COMMITTED and armed. -/
theorem salvoTaken_armed (h : target < 2 ^ 64) (hl : s.salvoLeft n = true ∨ s.othersLeft { s.salvo n with target := target } = true) :
    ((salvoTaken n target asked receipt moved earliest first s).salvo n).state = .committed ∧
    ((salvoTaken n target asked receipt moved earliest first s).salvo n).target = target ∧
    (salvoTaken n target asked receipt moved earliest first s).armed n = target := by
  rw [salvoTaken, State.settleSalvo_of_left (.inr (by rwa [salvoTakeDo_left, salvoTakeDo_othersLeft])), salvoTakeDo_salvo, salvoTakeDo_armed h]
  exact ⟨rfl, rfl, rfl⟩

/-- With nothing left it is DONE at once. -/
theorem salvoTaken_done (hl : s.salvoLeft n = false) (ho : s.othersLeft { s.salvo n with target := target } = false)
    (hr : (s.salvo n).rebuilt = false) : ((salvoTaken n target asked receipt moved earliest first s).salvo n).state = .done ∧
    (salvoTaken n target asked receipt moved earliest first s).armed n = 0 :=
  State.settleSalvo_done (by rw [salvoTakeDo_salvo]; rfl) (by rwa [salvoTakeDo_left]) (by rwa [salvoTakeDo_othersLeft])
    (by rw [salvoTakeDo_salvo]; exact hr)

end

section
variable {q : Req} {s u : State} {n target : Nat} {moved : Bool} {e first : Nat} {peers : List PeerAnswer}

theorem cmdSalvoTake_now (hu : u = s.settleSalvo (Req.u8 q 0))
    (h : salvoTakeCheck peers q (receiptOf 0x0602 q u) u = .ok (n, target, moved, e, first))
    (ha : askOthers q u (otherMembers u (u.salvo n)) = []) : cmdSalvoTake peers q s =
    .ok (.now (salvoTaken n target (Req.u64 q 8) (receiptOf 0x0602 q u) moved e first u)
      (leBytes 4 (bit moved) ++ leBytes 4 0 ++ leBytes 8 target ++ leBytes 8 e)) := by
  subst hu
  simp only [cmdSalvoTake, h, ok_bind, ha]
  rfl

/-- The request as a take forwards it: with the TARGET to arm. -/
def takeForwarded (q : Req) (target : Nat) : Req := { q with params := Req.slice q 0 8 ++ leBytes 8 target }

theorem cmdSalvoTake_later (hu : u = s.settleSalvo (Req.u8 q 0))
    (h : salvoTakeCheck peers q (receiptOf 0x0602 q u) u = .ok (n, target, moved, e, first))
    (ha : askOthers q u (otherMembers u (u.salvo n)) ≠ []) : cmdSalvoTake peers q s =
    .ok (.later ((salvoTaken n target (Req.u64 q 8) (receiptOf 0x0602 q u) moved e first u).forwardAll 0x0602 (takeForwarded q target)
        (receiptOf 0x0602 q u) (askOthers q u (otherMembers u (u.salvo n)))) (.takeAcks n)
      (leBytes 4 (bit moved) ++ leBytes 4 0 ++ leBytes 8 target ++ leBytes 8 e)) := by
  subst hu
  have ha' : (askOthers q (s.settleSalvo (Req.u8 q 0)) (otherMembers (s.settleSalvo (Req.u8 q 0)) ((s.settleSalvo (Req.u8 q 0)).salvo n))).isEmpty
      = false := List.isEmpty_eq_false_iff.2 ha
  simp only [cmdSalvoTake, h, ok_bind, ha']
  rfl

/-! ### SALVO_ABANDON -/

theorem checkWhere_ok {β : Type} {c : Bool} {m : Except Err Unit} {f : Unit → Except Err β} {x : β}
    (h : (if c = true then m >>= f else f ()) = .ok x) : f () = .ok x := by
  split at h
  · obtain ⟨⟨⟩, -, h⟩ := ok_bind_iff.1 h
    exact h
  · exact h

theorem salvoAbandonCheck_ok {receipt : Nat} (h : salvoAbandonCheck peers q receipt s = .ok n) : n = Req.u8 q 0 := by
  obtain ⟨m, hm, h⟩ := ok_bind_iff.1 h
  obtain ⟨-, h⟩ := layout_bind.1 h
  obtain ⟨-, h⟩ := need_bind.1 h
  obtain ⟨-, h⟩ := need_bind.1 (checkWhere_ok h)
  cases pure_eq_ok.1 (checkWhere_ok (f := fun _ => pure m) h)
  exact salvoArg_eq hm

theorem cmdSalvoAbandon_eq (hu : u = s.settleSalvo (Req.u8 q 0)) (h : salvoAbandonCheck peers q (receiptOf 0x0603 q u) u = .ok n) :
    cmdSalvoAbandon peers q s =
    .ok ((salvoAbandonDo n u).forwardAll 0x0603 q (receiptOf 0x0603 q u) (askOthers q u (otherMembers u (u.salvo n))),
      switchedBytes u (u.salvo n) peers 0) := by
  subst hu
  simp only [cmdSalvoAbandon, h]
  rfl

end

section
variable {n : Nat} {s t : State}

theorem heldOutputs_of_pending (h : t.rte.pending = s.rte.pending) (n : Nat) : heldOutputs t n = heldOutputs s n := by
  rw [heldOutputs, h, heldOutputs]

/-- The HELD entry of one output cleared, its claims released. -/
def State.clearOne (s : State) (o : Nat) : State :=
  (s.setRouteP o (fput (fput (s.routeP o) RouteEntry.pendState 0) RouteEntry.salvoId 0)).release (pendingOf o)

theorem clearHeld_eq : clearHeld n s = (heldOutputs s n).foldl State.clearOne s := rfl

theorem State.clearOne_active (o : Nat) : (s.clearOne o).rte.active = s.rte.active := by
  rw [State.clearOne, rte_of_kept (State.release_kept (μ := 0x200) ..), State.setRouteP_active]

theorem State.clearOne_routeP (o k : Nat) : (s.clearOne o).routeP k =
    if k = o then fput (fput (s.routeP o) RouteEntry.pendState 0) RouteEntry.salvoId 0 else s.routeP k := by
  rw [State.clearOne, State.routeP_of_rte (rte_of_kept (State.release_kept (μ := 0x200) ..)), State.routeP_setRouteP]

theorem cleared_pendState (e : BitVec 256) : fget (fput (fput e RouteEntry.pendState 0) RouteEntry.salvoId 0) RouteEntry.pendState = 0 := by
  rw [fget_fput_of_disjoint _ _ _ _ (by decide) (by decide), fget_fput _ _ _ (by decide)]
  rfl

theorem clearHeld_active : (clearHeld n s).rte.active = s.rte.active :=
  foldl_leaves (fun t : State => t.rte.active) (f := State.clearOne) (fun t o => t.clearOne_active o) _ s

/-- The outputs that were HELD have no entry. -/
theorem clearHeld_pendState {o : Nat} (h : o ∈ heldOutputs s n) : fget ((clearHeld n s).routeP o) RouteEntry.pendState = 0 := by
  refine foldl_establishes (f := State.clearOne) (P := fun t : State => fget (t.routeP o) RouteEntry.pendState = 0) h (fun t => ?_)
    (fun t k ht => ?_) s
  · rw [State.clearOne_routeP, if_pos rfl, cleared_pendState]
  · rw [State.clearOne_routeP]
    split
    · exact cleared_pendState _
    · exact ht

theorem State.clearAll_routeP_of_not_mem {o : Nat} {l : List Nat} (h : o ∉ l) : (l.foldl State.clearOne s).routeP o = s.routeP o := by
  induction l generalizing s with
  | nil => rfl
  | cons k l ih =>
    obtain ⟨hk, hl⟩ := not_or.1 (List.mem_cons.not.1 h)
    rw [List.foldl_cons, ih hl, State.clearOne_routeP, if_neg hk]

theorem salvoAbandonDo_rte : (salvoAbandonDo n s).rte = (((clearHeld n s).setArm n 0).setSalvo n (salvoReset 0)).rte := rfl

theorem salvoAbandonDo_salvo : (salvoAbandonDo n s).salvo n = salvoReset 0 := by
  rw [salvoAbandonDo, State.salvo_setSalvo, if_pos rfl]

theorem salvoAbandonDo_armed : (salvoAbandonDo n s).armed n = 0 := by
  rw [salvoAbandonDo, State.armed_setSalvo, State.armed_setArm (by decide)]

theorem salvoAbandonDo_routeP (o : Nat) : (salvoAbandonDo n s).routeP o = (clearHeld n s).routeP o := rfl

theorem salvoAbandonDo_active : (salvoAbandonDo n s).rte.active = s.rte.active := clearHeld_active

end

/-! ### A request taken up and its salvo settled: the rest is as it was -/

section
variable {q : Req} {s u : State} {n : Nat} (hu : u = (taken q s).settleSalvo n)
include hu

theorem settled_kept : u.kept 0x400 = (taken q s).kept 0x400 := by
  rw [hu]
  exact State.settleSalvo_kept ..

theorem settled_salvo {m : Nat} (h : m ≠ n) : u.salvo m = s.salvo m := by rw [hu, State.settleSalvo_salvo_of_ne _ _ _ h, taken_salvo]

theorem settled_pending : u.rte.pending = s.rte.pending := by rw [hu, State.settleSalvo_pending, taken_rte]

theorem settled_active : u.rte.active = s.rte.active := by rw [hu, State.settleSalvo_active, taken_rte]

theorem settled_member : u.member = s.member := by rw [State.member, trp_of_kept (settled_kept hu), taken_trp, State.member]

theorem settled_mem : u.mem = s.mem := by rw [mem_of_kept (settled_kept hu), taken_mem]

theorem settled_bud : u.bud = s.bud := by rw [bud_of_kept (settled_kept hu), taken_bud]

end

/-- Settles O19: every command works on the settled salvo; an admission holds this member's outputs one by one, a take arms the salvo and
settles it, an abandon clears what is held; forwarding leaves the routes. -/
theorem salvoCommandsTakeEffect : Obligations.SalvoCommandsTakeEffect := by
  refine ⟨?add, ?admitSalvo, ?take, ?takeAll, ?abandon, ?query, ?entries, ?settled⟩
  case add =>
    rintro q s n l u hs hu hc
    obtain ⟨hn, hlt, hl⟩ := salvoAddCheck_ok hc
    have hr := State.forwardAll_rte 0x0600 q 0 (askOthers q u (addedMembers q)) (salvoPrepare q n l u)
    have hk := State.forwardAll_kept 0x0600 q 0 (askOthers q u (addedMembers q)) (salvoPrepare q n l u)
    have hk' := (kept_mono (m := 0x40400) (by decide) hk).trans
      ((salvoPrepare_kept ..).trans (kept_mono (by decide) (settled_kept hu)))
    refine ⟨_, serve_ok hs (cmdSalvoAdd_eq hu hc), hn, hlt, hl, ?_, ?_, fun m hm => ?_, ?_, ?_, ?_, ?_⟩
    · rw [State.salvo_of_rte hr, salvoPrepare, State.salvo_setSalvo, if_pos rfl]
    · rw [State.salvo_of_rte hr, salvoPrepare, State.salvo_setSalvo, if_pos rfl]
    · rw [State.salvo_of_rte hr, salvoPrepare, State.salvo_setSalvo, if_neg hm, settled_salvo hu (hn ▸ hm)]
    · rw [hr]
      exact (settled_active hu :)
    · rw [hr]
      exact (settled_pending hu :)
    · rw [bud_of_kept hk', taken_bud]
    · rw [mem_of_kept hk', taken_mem]
  case admitSalvo =>
    rintro q s peers n v u hs hu hc
    obtain ⟨hn, hlt, hv⟩ := salvoAdmitCheck_facts hc
    have hvr : v.rte = u.rte := rte_of_kept hv
    have hvs (m : Nat) := State.salvo_of_rte hvr m
    have hvm : v.member = s.member := by rw [State.member, trp_of_kept hv, ← State.member, settled_member hu]
    have hr := State.forwardAll_rte 0x0601 q 0 (askOthers q u (otherMembers u (u.salvo n))) (salvoAdmitDo n v)
    have hown {e : SalvoEntry} : e ∈ ownEntries v (v.salvo n) ↔
        e ∈ (u.salvo n).entries ∧ e.member = s.member := by
      rw [ownEntries, List.mem_filter, hvs, hvm, beq_iff_eq]
    refine ⟨_, serve_ok hs (cmdSalvoAdmit_eq hu hc), hn, ?_, ?_, fun m hm => ?_, fun o ho => ?_, fun e he hm => ?_, ?_, ?_⟩
    · rw [State.salvo_of_rte hr, salvoAdmitDo_eq, State.holdEntries_salvo, State.salvo_setSalvo, if_pos rfl]
    · rw [State.salvo_of_rte hr, salvoAdmitDo_eq, State.holdEntries_salvo, State.salvo_setSalvo, if_pos rfl, hvs]
    · rw [State.salvo_of_rte hr, salvoAdmitDo_eq, State.holdEntries_salvo, State.salvo_setSalvo, if_neg hm, hvs,
        settled_salvo hu (hn ▸ hm)]
    · rw [State.routeP_of_rte hr, salvoAdmitDo_eq,
        State.holdEntries_routeP_of_not_mem _ (fun e he => ho e (hown.1 he).1 (hown.1 he).2)]
      exact (State.routeP_of_rte hvr o).trans (State.routeP_of_pending (settled_pending hu) o)
    · rw [State.routeP_of_rte hr, salvoAdmitDo_eq]
      exact State.holdEntries_held hlt (hown.2 ⟨he, hm⟩)
    · rw [hr, salvoAdmitDo_eq, State.holdEntries_active]
      exact (congrArg RteSt.active hvr).trans (settled_active hu)
    · rw [mem_of_kept (State.forwardAll_kept ..), mem_of_kept (salvoAdmitDo_kept (μ := 0x400) ..), mem_of_kept hv,
        settled_mem hu]
  case take =>
    rintro q s peers n target moved e first u hs hu hc ha ht
    obtain ⟨hn, hst, hm0, hm1⟩ := salvoTakeCheck_ok hc
    have hk := (kept_mono (m := 0x2C0414) (by decide) (salvoTaken_kept n target (Req.u64 q 8) (receiptOf 0x0602 q u)
      moved e first u)).trans (kept_mono (by decide) (settled_kept hu))
    refine ⟨_, serveAns_ok hs (cmdSalvoTake_now hu hc ha), hn, hst, salvoTaken_armed ht, salvoTaken_done, hm0, hm1, salvoTaken_status .., ?_, ?_,
      ?_, ?_⟩
    · rw [salvoTaken_active, settled_active hu]
    · rw [salvoTaken_pending, settled_pending hu]
    · rw [bud_of_kept hk, taken_bud]
    · rw [mem_of_kept hk, taken_mem]
  case takeAll =>
    rintro q s peers n target moved e first u hs hu hc ha ht
    have hf (t : State) := t.forwardAll_kept 0x0602 (takeForwarded q target) (receiptOf 0x0602 q u)
      (askOthers q u (otherMembers u (u.salvo n)))
    obtain ⟨j, hj, hkind, hreq⟩ := settle_later_job 0x0602 q _ s.fresh _ _
    refine ⟨_, j, serveAns_ok hs (cmdSalvoTake_later hu hc ha), hj.trans ?_, hkind, hreq, fun hl => ?_, ?_, ?_, ?_⟩
    · rw [ctl_of_kept (hf _), salvoTaken_jobs, ctl_of_kept (settled_kept hu), taken_ctl_jobs]
    · obtain ⟨h1, -, h3⟩ := salvoTaken_armed ht hl
      rw [settle, State.salvo_of_rte (State.onCtl_rte ..), State.armed_of_rte (State.onCtl_rte ..), State.salvo_of_rte (rte_of_kept (hf _)),
        State.armed_of_rte (rte_of_kept (hf _))]
      exact ⟨h1, h3⟩
    · rw [settle, State.onCtl_flt, flt_of_kept (hf _)]
      exact salvoTaken_status ..
    · rw [settle, State.onCtl_rte, rte_of_kept (hf _), salvoTaken_active, settled_active hu]
    · rw [settle, State.onCtl_mem, mem_of_kept (hf _), mem_of_kept (salvoTaken_kept ..), settled_mem hu]
  case abandon =>
    rintro q s peers n u hs hu hc
    have hr := State.forwardAll_rte 0x0603 q (receiptOf 0x0603 q u) (askOthers q u (otherMembers u (u.salvo n)))
      (salvoAbandonDo n u)
    have hheld := heldOutputs_of_pending (settled_pending hu) n
    refine ⟨_, serve_ok hs (cmdSalvoAbandon_eq hu hc), salvoAbandonCheck_ok hc, ?_, ?_, fun o ho => ?_, fun o ho => ?_, ?_, ?_⟩
    · rw [State.salvo_of_rte hr, salvoAbandonDo_salvo]
    · rw [State.armed_of_rte hr, salvoAbandonDo_armed]
    · rw [State.routeP_of_rte hr, salvoAbandonDo_routeP, clearHeld_pendState (by rwa [hheld])]
    · rw [State.routeP_of_rte hr, salvoAbandonDo_routeP, clearHeld_eq, State.clearAll_routeP_of_not_mem (by rwa [hheld])]
      exact State.routeP_of_pending (settled_pending hu) o
    · rw [hr, salvoAbandonDo_active, settled_active hu]
    · rw [mem_of_kept (State.forwardAll_kept ..), mem_of_kept (salvoAbandonDo_kept (μ := 0x600) ..), settled_mem hu]
  case query =>
    rintro q s peers u hs rfl hc ht
    refine serve_ok hs ?_
    simp only [cmdSalvoQuery, hc, layout_ok ht]
    rfl
  case entries =>
    rintro q s u hs rfl hc hz ht
    refine ⟨_, rfl, serve_ok hs ?_⟩
    simp only [cmdSalvoEntries, hc, layout_ok ht, Req.zeroAt, hz]
    rfl
  case settled =>
    exact fun s n => ⟨State.settleSalvo_done, State.settleSalvo_of_left⟩

end Sys2Proof.Machine
end


section
/-! PROOFS. The Troupe's state between events (R315, R316, R327 to R340): which operations leave it whole, which leave the records of the Troupe
and its links, and what a link's rise and fall changes of those records. -/

set_option Elab.async false

namespace Sys2Proof.Machine

open Sys2Proof

/-! ### Operations that leave the Troupe's state -/

section
variable (s : State)

theorem State.boundEvent_trp (o reason : Nat) (active : Bool) : (s.boundEvent o reason active).trp = s.trp :=
  State.raise_trp (show evClass 0x60 ≠ 3 by decide) _

theorem State.rebound_trp (o : Nat) : (s.rebound o).trp = s.trp := by
  unfold State.rebound
  extract_lets now had next out s1
  have h1 : s1.trp = s.trp := by
    unfold s1
    split
    · rfl
    · exact State.onRte_trp ..
  refine (foldl_leaves (fun t : State => t.trp) (f := fun s c => if had.contains c then s else s.boundEvent o c true) (fun t c => ?_) now s1).trans h1
  split
  · rfl
  · exact State.boundEvent_trp ..

theorem State.reboundAll_trp : s.reboundAll.trp = s.trp :=
  foldl_leaves (fun t : State => t.trp) (f := fun s (e : Nat × BitVec 256) => s.rebound e.1) (fun t e => t.rebound_trp e.1) _ s

theorem State.endCause_trp (c l : Nat) : (s.endCause c l).trp = s.trp := trp_of_kept (State.endCause_kept (μ := 0x10) ..)

theorem State.enterHoldover_trp : s.enterHoldover.trp = s.trp := by
  unfold State.enterHoldover
  split
  next w s1 h =>
  have h1 : s1.trp = s.trp := by
    split at h
    · cases h; rfl
    · cases h; rfl
  exact (State.raise_trp (show evClass 0xE4 ≠ 3 by decide) _).trans ((State.onRef_trp ..).trans h1)

theorem State.loseSelected_trp (c : Nat) : (s.loseSelected c).trp = s.trp := by
  unfold State.loseSelected
  split
  · exact State.enterHoldover_trp ..
  · rfl

theorem State.candDown_trp (c : Nat) : (s.candDown c).trp = s.trp := by
  unfold State.candDown
  extract_lets q cs s1 s2
  have h1 : s1.trp = s.trp := (State.onRef_trp ..).trans (State.onRef_trp ..)
  have h2 : s2.trp = s1.trp := by
    unfold s2
    split
    · exact State.raise_trp (show evClass 0xE1 ≠ 3 by decide) _
    · rfl
  exact (State.loseSelected_trp ..).trans (h2.trans h1)

theorem State.isolateMaster_trp (m : Nat) : (s.isolateMaster m).trp = s.trp := by
  unfold State.isolateMaster
  extract_lets s1
  split
  · exact (State.raise_trp (show evClass 0xFD ≠ 3 by decide) _).trans (State.onCtl_trp ..)
  · rfl

/-- REACH and LEADER are all that follows the links (R315, R340). -/
theorem State.updateReach_trp (k : Nat) : ∃ reach leader, (s.updateReach k).trp = { s.trp with
    rec_ := fput (fput s.trp.rec_ TroupeRec.reach reach) TroupeRec.leader leader } ∨
    (s.updateReach k).trp = { s.trp with rec_ := fput s.trp.rec_ TroupeRec.reach reach } := by
  unfold State.updateReach
  extract_lets s1 new s2
  refine ⟨s.reachMask, new, ?_⟩
  split
  · exact .inr rfl
  · refine .inl ((State.candDown_trp ..).trans ((State.onRef_trp ..).trans ((State.onPtp_trp ..).trans ?_)))
    exact State.raise_trp (show evClass 0xF5 ≠ 3 by decide) _

end

/-! ### Operations that leave the records of the Troupe and its links -/

/-- The records of the Troupe and of its links. -/
def TrpSt.records (t : TrpSt) : BitVec 128 × Tab (BitVec 128) := (t.rec_, t.link)

section
variable (s : State)

theorem State.sendCell_records (k typ idx dest : Nat) (payload : List Byte) : (s.sendCell k typ idx dest payload).trp.records = s.trp.records := rfl

theorem State.setExp_records (i : Nat) (e : BitVec 128) : (s.setExp i e).trp.records = s.trp.records := rfl

theorem State.setImpSt_records (i : Nat) (v : ImpSt) : (s.setImpSt i v).trp.records = s.trp.records := rfl

theorem State.setLinkSt_records (k : Nat) (v : LinkSt) : (s.setLinkSt k v).trp.records = s.trp.records := rfl

theorem State.setSvLane_records (l : Nat) (v : BitVec 64) : (s.setSvLane l v).trp.records = s.trp.records := rfl

theorem State.setSvRun_records (l : Nat) (v : LaneRun) : (s.setSvRun l v).trp.records = s.trp.records := rfl

end

/-! ### What an abandoned unit leaves of the Troupe's state: only cells are sent -/

/-- A part of the Troupe's state that neither a cell sent nor one that waits to be changes. -/
structure CellFree {γ : Type} (g : TrpSt → γ) : Prop where
  sendCell : ∀ (s : State) (k typ idx dest : Nat) (payload : List Byte), g (s.sendCell k typ idx dest payload).trp = g s.trp
  outq : ∀ (t : TrpSt) (q : Tab (List OutWait)), g { t with outq := q } = g t

theorem TrpSt.records_cellFree : CellFree TrpSt.records := ⟨State.sendCell_records, fun _ _ => rfl⟩

section
variable {γ : Type} {g : TrpSt → γ} (hg : CellFree g) (s : State)
include hg

theorem State.putAbandon_leaves (r : Nat) (first resume : BitVec 32) : g (s.putAbandon r first resume).trp = g s.trp := by
  unfold State.putAbandon
  refine foldl_leaves (fun t : State => g t.trp) (fun t e => ?_) _ s
  split
  · exact hg.sendCell ..
  · rfl

theorem State.sendAbandon_leaves (r : Nat) (first resume : BitVec 32) : g (s.sendAbandon r first resume).trp = g s.trp := by
  unfold State.sendAbandon
  split
  · exact State.putAbandon_leaves hg ..
  · exact hg.outq ..

theorem State.abandon_leaves (r : Nat) (ranOut : Bool) : g (s.abandon r ranOut).trp = g s.trp := by
  unfold State.abandon
  extract_lets d w here n committed s1 mine s2 s3 s4
  have h1 : s1.trp = s.trp := trp_of_kept (kept_foldl (m := 0x1C0) (fun _ _ => State.poisonTile_kept ..) _ _)
  have h3 : s3.trp = s.trp := (trp_of_kept (State.legState_kept (μ := 0x2000) ..)).trans h1
  have h4 : g s4.trp = g s.trp := by
    unfold s4
    split
    · rw [State.sendAbandon_leaves hg, h3]
    · rw [h3]
  split
  · exact h4
  · rw [trp_of_kept (State.skipTiles_kept (μ := 0x40) ..), h4]

theorem State.stopWriter_leaves (r : Nat) : g (s.stopWriter r).trp = g s.trp := by
  unfold State.stopWriter
  split
  · exact State.abandon_leaves hg ..
  · rfl

end

section
variable (s : State)

theorem State.dropTraffic_records (k : Nat) : (s.dropTraffic k).trp.records = s.trp.records := by
  unfold State.dropTraffic
  extract_lets ex s1 s2 peer im
  have h1 : s1.trp.records = s.trp.records := foldl_leaves (fun t : State => t.trp.records)
    (f := fun s i => s.setExp i (fput (s.exp i) Export.expState 0)) (fun t i => t.setExp_records i _) ex s
  have h2 : s2.trp.records = s.trp.records := h1
  refine (foldl_leaves (fun t : State => t.trp.records) (f := fun s (e : Nat × BitVec 64) => (s.stopWriter (fget e.2 Import.impRing)).setImpSt e.1
    { s.impSt e.1 with resumeAt := none }) (fun t e => ?_) im s2).trans h2
  rw [State.setImpSt_records, State.stopWriter_leaves TrpSt.records_cellFree]

end

/-! ### What a link's rise and fall changes of the records -/

/-- Of the records, only the state and the rates of link `k`, and REACH and LEADER, differ. -/
structure LinkOnly (k : Nat) (s t : State) : Prop where
  others : ∀ n, n ≠ k → t.linkRec n = s.linkRec n
  fields : ∀ f : Fld, f.lo + f.width ≤ 112 → fget (t.linkRec k) f = fget (s.linkRec k) f
  troupe : ∀ f : Fld, f.lo + f.width ≤ 12 → fget t.trp.rec_ f = fget s.trp.rec_ f

section
variable {k : Nat} {s t u : State}

theorem LinkOnly.of_records (h : t.trp.records = s.trp.records) : LinkOnly k s t := by
  have hr : t.trp.rec_ = s.trp.rec_ := congrArg Prod.fst h
  have hl : t.trp.link = s.trp.link := congrArg Prod.snd h
  exact ⟨fun n _ => by rw [State.linkRec, hl, State.linkRec], fun f _ => by rw [State.linkRec, hl, State.linkRec], fun f _ => by rw [hr]⟩

theorem LinkOnly.of_trp (h : t.trp = s.trp) : LinkOnly k s t := .of_records (by rw [h])

theorem LinkOnly.refl : LinkOnly k s s := .of_trp rfl

theorem LinkOnly.trans (h : LinkOnly k s t) (h' : LinkOnly k t u) : LinkOnly k s u :=
  ⟨fun n hn => (h'.others n hn).trans (h.others n hn), fun f hf => (h'.fields f hf).trans (h.fields f hf),
    fun f hf => (h'.troupe f hf).trans (h.troupe f hf)⟩

theorem LinkOnly.foldl {β : Type} {f : State → β → State} (hf : ∀ s b, LinkOnly k s (f s b)) (l : List β) (s : State) :
    LinkOnly k s (l.foldl f s) :=
  List.foldlRecOn (motive := LinkOnly k s) _ _ .refl (fun t ht b _ => ht.trans (hf t b))

theorem State.linkRec_setLink (k : Nat) (e : BitVec 128) (n : Nat) : (s.setLink k e).linkRec n = if n = k then e else s.linkRec n :=
  tget_tset ..

/-- A field of a link's state or rates. -/
theorem State.linkF_only {f : Fld} (v : Nat) (h : 112 ≤ f.lo) (hw : f.lo + f.width ≤ 128) : LinkOnly k s (s.linkF k f v) where
  others n hn := by rw [State.linkF, State.linkRec_setLink, if_neg hn]
  fields g hg := by rw [State.linkF, State.linkRec_setLink, if_pos rfl, fget_fput_of_disjoint _ _ _ _ hw (.inl (hg.trans h))]
  troupe _ _ := rfl

theorem State.linkStateF_only (v : Nat) : LinkOnly k s (s.linkF k Link.linkState v) := State.linkF_only v (by decide) (by decide)

theorem State.actLanesF_only (v : Nat) : LinkOnly k s (s.linkF k Link.actLanes v) := State.linkF_only v (by decide) (by decide)

theorem State.actRateF_only (v : Nat) : LinkOnly k s (s.linkF k Link.actRate v) := State.linkF_only v (by decide) (by decide)

theorem State.updateReach_only (n : Nat) : LinkOnly k s (s.updateReach n) := by
  obtain ⟨reach, leader, h⟩ := s.updateReach_trp n
  have hl : (s.updateReach n).trp.link = s.trp.link := by rcases h with h | h <;> rw [h]
  refine ⟨fun n _ => by rw [State.linkRec, hl, State.linkRec], fun f _ => by rw [State.linkRec, hl, State.linkRec], fun f hf => ?_⟩
  have hr (r : BitVec 128) (v : Nat) : fget (fput r TroupeRec.reach v) f = fget r f :=
    fget_fput_of_disjoint _ _ _ _ (by decide) (.inl (hf.trans (by decide)))
  rcases h with h | h <;> rw [h]
  · exact (fget_fput_of_disjoint _ _ _ _ (by decide) (.inl hf)).trans (hr ..)
  · exact hr ..

theorem State.setLinkSt_only (n : Nat) (v : LinkSt) : LinkOnly k s (s.setLinkSt n v) := .of_records (State.setLinkSt_records ..)

theorem State.setSvLane_only (l : Nat) (v : BitVec 64) : LinkOnly k s (s.setSvLane l v) := .of_records (State.setSvLane_records ..)

theorem State.setSvRun_only (l : Nat) (v : LaneRun) : LinkOnly k s (s.setSvRun l v) := .of_records (State.setSvRun_records ..)

theorem State.laneF_only (l : Nat) (f : Fld) (v : Nat) : LinkOnly k s (s.laneF l f v) := State.setSvLane_only ..

theorem State.holdLink_only : LinkOnly k s (s.holdLink k) := by
  unfold State.holdLink
  exact (State.setLinkSt_only ..).trans (State.linkStateF_only ..)

theorem State.fallLink_only : LinkOnly k s (s.fallLink k) := by
  unfold State.fallLink
  split
  · exact .refl
  · extract_lets s1
    have h1 : LinkOnly k s s1 := State.holdLink_only.trans ((State.actLanesF_only ..).trans (.of_trp (State.endCause_trp ..)))
    have h2 : LinkOnly k s1 ((s1.dropTraffic k).isolateMaster 5) :=
      (LinkOnly.of_records (State.dropTraffic_records ..)).trans (.of_trp (State.isolateMaster_trp ..))
    exact h1.trans (h2.trans ((State.updateReach_only k).trans (.of_trp (State.reboundAll_trp ..))))

theorem State.startLink_only : LinkOnly k s (s.startLink k) := by
  unfold State.startLink
  extract_lets order lanes sense v s1 s2
  have h2 : LinkOnly k s1 s2 := by
    unfold s2
    exact LinkOnly.foldl (fun t l => State.setSvLane_only ..) lanes s1
  have h1 : LinkOnly k s s1 := State.setLinkSt_only ..
  exact h1.trans (h2.trans ((State.linkStateF_only ..).trans ((State.actLanesF_only ..).trans (State.actRateF_only ..))))

theorem State.stopLink_only : LinkOnly k s (s.stopLink k) := by
  unfold State.stopLink
  extract_lets s1 lanes s2
  have h2 : LinkOnly k s1 s2 := by
    unfold s2
    exact LinkOnly.foldl (fun t l => (State.laneF_only ..).trans (State.setSvRun_only ..)) lanes s1
  have h1 : LinkOnly k s s1 := State.fallLink_only
  exact h1.trans (h2.trans ((State.setLinkSt_only ..).trans ((State.linkStateF_only ..).trans (.of_trp (State.endCause_trp ..)))))

theorem State.syncLink_only : LinkOnly k s (s.syncLink k) := by
  unfold State.syncLink
  extract_lets off
  split
  · exact State.startLink_only
  · split
    · exact State.stopLink_only
    · exact .refl

theorem State.callSpare_only : LinkOnly k s (s.callSpare k) := by
  unfold State.callSpare
  extract_lets v spares
  split
  · exact .refl
  · cases spares with
    | nil => exact .refl
    | cons l _ => exact State.laneF_only ..

end

end Sys2Proof.Machine
end


section
/-! PROOFS. The TROUPE commands (R315, R316, R326, R334, R335, R341, R423, R424): the records they write, what an import and an export allow on
the member concerned, and a request forwarded. -/

set_option Elab.async false

namespace Sys2Proof.Machine

open Sys2Proof

/-! ### What is forwarded leaves exports and imports -/

section
variable (s : State)

/-- The records of exports and imports. -/
def TrpSt.trades (t : TrpSt) : Tab (BitVec 128) × Tab (BitVec 64) := (t.exp, t.imp)

theorem State.sendCell_trades (k typ idx dest : Nat) (payload : List Byte) : (s.sendCell k typ idx dest payload).trp.trades = s.trp.trades := rfl

theorem State.sendMessage_trades (k typ : Nat) (bytes : List Byte) : (s.sendMessage k typ bytes).trp.trades = s.trp.trades := by
  unfold State.sendMessage
  extract_lets fs id
  exact foldl_leaves (fun t : State => t.trp.trades) (fun t b => State.sendCell_trades ..) _ _

theorem State.forwardTo_trades (op : Nat) (q : Req) (extra m : Nat) : (s.forwardTo op q extra m).trp.trades = s.trp.trades := by
  unfold State.forwardTo
  split
  · exact State.sendMessage_trades ..
  · rfl

theorem State.forwardAll_trades (op : Nat) (q : Req) (extra : Nat) (l : List Nat) : (s.forwardAll op q extra l).trp.trades = s.trp.trades :=
  foldl_leaves (fun t : State => t.trp.trades) (fun t m => t.forwardTo_trades op q extra m) l s

end

section
variable {s t : State}

theorem trades_exp (h : t.trp.trades = s.trp.trades) : t.trp.exp = s.trp.exp := congrArg Prod.fst h

theorem trades_imp (h : t.trp.trades = s.trp.trades) : t.trp.imp = s.trp.imp := congrArg Prod.snd h

theorem State.exp_of_trades (h : t.trp.trades = s.trp.trades) (i : Nat) : t.exp i = s.exp i := by
  rw [State.exp, trades_exp h, State.exp]

theorem State.imp_of_trades (h : t.trp.trades = s.trp.trades) (i : Nat) : t.imp i = s.imp i := by
  rw [State.imp, trades_imp h, State.imp]

end

/-! ### What the checks allow -/

section
variable {q : Req} {s : State}

theorem troupeWriteCheck_ok {e : BitVec 128} (h : troupeWriteCheck q s = .ok e) : e = mergeRec TroupeRec.layout s.trp.rec_ (Req.recordBytes q 16) := by
  obtain ⟨-, h⟩ := index_bind.1 h
  obtain ⟨-, h⟩ := noTarget_bind.1 h
  exact writeRecordX_eq h

theorem linkWriteCheck_ok {k : Nat} {e : BitVec 128} (h : linkWriteCheck q s = .ok (k, e)) :
    k = Req.u32 q 0 ∧ k < 7 ∧ e = mergeRec Link.layout (s.linkRec k) (Req.recordBytes q 16) := by
  obtain ⟨hk, h⟩ := index_bind.1 h
  obtain ⟨-, h⟩ := noTarget_bind.1 h
  obtain ⟨e', he, h⟩ := ok_bind_iff.1 h
  split at h
  · cases h
  · obtain ⟨-, h⟩ := need_bind.1 h
    obtain ⟨-, h⟩ := need_bind.1 h
    obtain ⟨-, h⟩ := need_bind.1 h
    obtain ⟨-, h⟩ := need_bind.1 h
    cases pure_eq_ok.1 h
    exact ⟨rfl, hk, writeRecordX_eq he⟩

theorem laneWriteCheck_ok {l : Nat} {e : BitVec 64} (h : laneWriteCheck q s = .ok (l, e)) :
    l = Req.u32 q 0 ∧ l < 48 ∧ e = mergeRec LaneRec.layout (s.svLane l) (Req.recordBytes q 8) := by
  obtain ⟨hl, h⟩ := index_bind.1 h
  obtain ⟨-, h⟩ := noTarget_bind.1 h
  obtain ⟨e', he, h⟩ := ok_bind_iff.1 h
  cases pure_eq_ok.1 h
  exact ⟨rfl, hl, writeRecordX_eq he⟩

/-- Two different members of the Troupe, and two rings. -/
theorem importArgs_ok {prio : Bool} {a : ImportArgs} (h : importArgs q prio s = .ok a) :
    a.from_ < 8 ∧ a.to_ < 8 ∧ a.to_ ≠ a.from_ ∧ a.src < 8192 ∧ a.dst < 8192 := by
  obtain ⟨hf, h⟩ := needAt_bind.1 h
  obtain ⟨ht, h⟩ := needAt_bind.1 h
  obtain ⟨-, h⟩ := needAt_bind.1 h
  obtain ⟨-, h⟩ := zeroAt_bind.1 h
  obtain ⟨hs, h⟩ := needAt_bind.1 h
  obtain ⟨hd, h⟩ := needAt_bind.1 h
  obtain ⟨-, h⟩ := layout_bind.1 h
  cases pure_eq_ok.1 h
  simp only [Bool.and_eq_true, decide_eq_true_eq, bne_iff_ne] at hf ht hs hd
  exact ⟨hf.1, ht.1.1, ht.2, hs, hd⟩

theorem troupeForwardCheck_ok {m k : Nat} (h : troupeForwardCheck q s = .ok (m, k)) : m = Req.u8 q 0 ∧ m < 8 ∧ m ≠ s.member := by
  obtain ⟨hm, h⟩ := needAt_bind.1 h
  obtain ⟨-, h⟩ := needAt_bind.1 h
  obtain ⟨-, h⟩ := needAt_bind.1 h
  obtain ⟨-, h⟩ := needAt_bind.1 h
  obtain ⟨-, h⟩ := layout_bind.1 h
  split at h
  · cases h
  · cases pure_eq_ok.1 h
    simp only [Bool.and_eq_true, decide_eq_true_eq, bne_iff_ne] at hm
    exact ⟨rfl, hm.1.1, hm.1.2⟩

/-! ### Records written -/

theorem cmdTroupeWrite_eq {e : BitVec 128} (h : troupeWriteCheck q s = .ok e) :
    cmdTroupeWrite q s = .ok (troupeWriteDo e s, recBytes (troupeWriteDo e s).trp.rec_) := by
  rw [cmdTroupeWrite, h]
  rfl

theorem cmdLinkWrite_eq {k : Nat} {e : BitVec 128} (h : linkWriteCheck q s = .ok (k, e)) :
    cmdLinkWrite q s = .ok (linkWriteDo k e s, recBytes ((linkWriteDo k e s).linkRec k)) := by
  rw [cmdLinkWrite, h]
  rfl

theorem cmdLaneWrite_eq {l : Nat} {e : BitVec 64} (h : laneWriteCheck q s = .ok (l, e)) :
    cmdLaneWrite q s = .ok (s.setSvLane l e, recBytes e) := by
  rw [cmdLaneWrite, h]
  rfl

/-- The fields of records that links leave as they rise and fall: those below the state and the rates, and below LEADER and REACH. -/
structure LinksKept (s t : State) : Prop where
  links : ∀ k, ∀ f : Fld, f.lo + f.width ≤ 112 → fget (t.linkRec k) f = fget (s.linkRec k) f
  troupe : ∀ f : Fld, f.lo + f.width ≤ 12 → fget t.trp.rec_ f = fget s.trp.rec_ f

theorem LinkOnly.kept {k : Nat} {t : State} (h : LinkOnly k s t) : LinksKept s t where
  links n f hf := by
    by_cases hn : n = k
    · rw [hn, h.fields f hf]
    · rw [h.others n hn]
  troupe := h.troupe

theorem State.syncLinks_kept (l : List Nat) (s : State) : LinksKept s (l.foldl (fun s k => s.syncLink k) s) :=
  List.foldlRecOn (motive := LinksKept s) _ _ ⟨fun _ _ _ => rfl, fun _ _ => rfl⟩ (fun _ ht k _ =>
    have hk := (State.syncLink_only (k := k)).kept
    ⟨fun n f hf => (hk.links n f hf).trans (ht.links n f hf), fun f hf => (hk.troupe f hf).trans (ht.troupe f hf)⟩)

theorem troupeWriteDo_linksKept (e : BitVec 128) : LinksKept (s.onTrp (fun t => { t with rec_ := e })) (troupeWriteDo e s) := State.syncLinks_kept ..

theorem linkWriteDo_only (k : Nat) (e : BitVec 128) : LinkOnly k (s.setLink k e) (linkWriteDo k e s) := by
  unfold linkWriteDo
  extract_lets s1 s2
  have h1 : LinkOnly k (s.setLink k e) s1 := State.syncLink_only
  have h2 : LinkOnly k s1 s2 := by
    unfold s2
    split
    · exact .refl
    · exact LinkOnly.foldl (fun t l => State.setSvRun_only ..) _ _
  exact h1.trans (h2.trans State.callSpare_only)

/-! ### Imports and exports -/

/-- The record of an export, and of an import. -/
def exportRec (a : ImportArgs) (k c : Nat) : BitVec 128 :=
  fput (fput (fput (fput (fput (fput (fput 0 Export.srcRing a.src) Export.expEn 1) Export.priority a.prio)
    Export.toF a.to_) Export.destRing a.dst) Export.viaLink k) Export.expCredits c

def importRec (a : ImportArgs) : BitVec 64 :=
  fput (fput (fput (fput 0 Import.impRing a.dst) Import.impEn 1) Import.fromF a.from_) Import.fromRing a.src

theorem exportRec_fields {a : ImportArgs} (k c : Nat) (hs : a.src < 8192) (ht : a.to_ < 8) : fbit (exportRec a k c) Export.expEn = true ∧
    fget (exportRec a k c) Export.srcRing = a.src ∧ fget (exportRec a k c) Export.toF = a.to_ := by
  unfold exportRec fbit
  refine ⟨?_, ?_, ?_⟩
  · iterate 5 rw [fget_fput_of_disjoint _ _ _ _ (by decide) (by decide)]
    rw [fget_fput _ _ _ (by decide)]
    rfl
  · iterate 6 rw [fget_fput_of_disjoint _ _ _ _ (by decide) (by decide)]
    rw [fget_fput _ _ _ (by decide)]
    exact Nat.mod_eq_of_lt hs
  · iterate 3 rw [fget_fput_of_disjoint _ _ _ _ (by decide) (by decide)]
    rw [fget_fput _ _ _ (by decide)]
    exact Nat.mod_eq_of_lt ht

theorem importRec_fields {a : ImportArgs} (hd : a.dst < 8192) (hs : a.src < 8192) : fbit (importRec a) Import.impEn = true ∧
    fget (importRec a) Import.impRing = a.dst ∧ fget (importRec a) Import.fromRing = a.src := by
  unfold importRec fbit
  refine ⟨?_, ?_, ?_⟩
  · iterate 2 rw [fget_fput_of_disjoint _ _ _ _ (by decide) (by decide)]
    rw [fget_fput _ _ _ (by decide)]
    rfl
  · iterate 3 rw [fget_fput_of_disjoint _ _ _ _ (by decide) (by decide)]
    rw [fget_fput _ _ _ (by decide)]
    exact Nat.mod_eq_of_lt hd
  · rw [fget_fput _ _ _ (by decide)]
    exact Nat.mod_eq_of_lt hs

theorem inMember_eq_ok {α : Type} {m : Nat} {x : Except Err α} {y : α} (h : inMember m x = .ok y) : x = .ok y := by
  unfold inMember at h
  split at h
  · split at h <;> cases h
  · exact h

theorem State.setExp_waits (i : Nat) (e : BitVec 128) (w : List Nat) :
    ((s.setExp i e).onTrp (fun x => { x with waits := x.waits ++ w })).exp i = e ∧
    ((s.setExp i e).onTrp (fun x => { x with waits := x.waits ++ w })).trp.imp = s.trp.imp ∧
    ((s.setExp i e).onTrp (fun x => { x with waits := x.waits ++ w })).member = s.member := ⟨tget_tset_same .., rfl, rfl⟩

theorem State.setImp_setImpSt (i r : Nat) (e : BitVec 64) (v : ImpSt) : (((s.setImp i e).setImpSt i v).syncWcred r).imp i = e ∧
    (((s.setImp i e).setImpSt i v).syncWcred r).trp.exp = s.trp.exp := ⟨tget_tset_same .., rfl⟩

/-- An export admitted: its record, and no import changed. -/
theorem exportAdmit_facts {a : ImportArgs} {u : State} {i c k : Nat} (h : exportAdmit a s = .ok (u, i, c, k)) :
    u.exp i = exportRec a k c ∧ u.trp.imp = s.trp.imp ∧ u.member = s.member := by
  obtain ⟨-, h⟩ := need_bind.1 h
  obtain ⟨-, h⟩ := need_bind.1 h
  split at h
  · cases h
  · obtain ⟨t, ht, h⟩ := ok_bind_iff.1 h
    have hk : t.trp = s.trp := trp_of_kept ((claimBeside_ok (μ := 0x200) ..).out _ ht)
    obtain ⟨hu, hi, hc, hkk⟩ : _ ∧ _ ∧ _ ∧ _ := by simpa only [pure_eq_ok, Prod.mk.injEq] using h
    rw [← hu, hkk, hc, ← exportRec]
    obtain ⟨hexp, himp, hmem⟩ := State.setExp_waits (s := t) i (exportRec a k c) [i]
    rw [hi]
    exact ⟨hexp, himp.trans (by rw [hk]), hmem.trans (by rw [State.member, hk, State.member])⟩

/-- An import admitted: its record, and no export changed. -/
theorem importAdmit_facts {a : ImportArgs} {credits : Option Nat} {hops : Nat} {v : State} {i : Nat}
    (h : importAdmit a credits hops s = .ok (v, i)) : v.imp i = importRec a ∧ v.trp.exp = s.trp.exp := by
  obtain ⟨-, h⟩ := need_bind.1 h
  obtain ⟨-, h⟩ := needAt_bind.1 h
  obtain ⟨-, h⟩ := need_bind.1 h
  split at h
  · cases h
  · obtain ⟨t, ht, h⟩ := ok_bind_iff.1 h
    cases pure_eq_ok.1 h
    have hk : t.trp = s.trp := trp_of_kept ((claimBeside_ok (μ := 0x200) ..).out _ ht)
    unfold importRec
    exact ⟨(State.setImp_setImpSt ..).1, (State.setImp_setImpSt ..).2.trans (by rw [hk])⟩

theorem cmdTroupeImport_eq {peers : List PeerAnswer} {a : ImportArgs} {u v : State} {ei c via ii : Nat} (ha : importArgs q true s = .ok a)
    (hl : (askOthers q s [a.from_, a.to_]).all (fun m => (linkTo s m).isSome) = true) (he : exportHere a peers s = .ok (u, ei, c, via))
    (hi : importHere a peers (if (askOthers q s [a.from_, a.to_]).contains a.from_ then some c else none) (exportHops a peers q s) u = .ok (v, ii))
    (hp : peersOk peers (askOthers q s [a.from_, a.to_]) = .ok ()) : cmdTroupeImport peers q s =
    .ok (v.forwardAll 0x0B03 q (exportHops a peers q s) (askOthers q s [a.from_, a.to_]),
      leBytes 2 ei ++ leBytes 2 ii ++ leBytes 2 c ++ leBytes 1 via ++ if q.port = .p1 then leBytes 1 (exportHops a peers q s) else []) := by
  simp only [cmdTroupeImport, ha, ok_bind, hl, need_true, he, hi, hp]
  rfl

/-- An export ended: its record and its claims are gone. -/
theorem unexport_facts (i : Nat) : (unexport i s).exp i = expReset i ∧
    (unexport i s).bud.holds = s.bud.holds.filter (fun h => !Hold.heldBy (.exp i) h) :=
  ⟨(tget_tdel ..).trans (if_pos rfl), rfl⟩

/-- An import ended: its record and its ring's write claim are gone. -/
theorem unimport_facts (i r : Nat) : (unimport i r s).imp i = impReset i ∧
    (unimport i r s).bud.holds = s.bud.holds.filter (fun h => h.grp != .write r) := by
  refine ⟨(tget_tdel ..).trans (if_pos rfl), ?_⟩
  have h1 : (s.stopWriter r).bud = s.bud := bud_of_kept (State.stopWriter_kept (μ := 0x420C0) ..)
  rw [unimport, State.onTrp_bud, bud_of_kept (State.syncWcred_kept (μ := 0x40) ..), State.release, State.onBud_bud, h1]
  rfl

theorem cmdTroupeUnimport_eq {peers : List PeerAnswer} {a : ImportArgs} {u v : State} (ha : importArgs q false s = .ok a)
    (hl : (askOthers q s [a.from_, a.to_]).all (fun m => (linkTo s m).isSome) = true) (he : unexportHere a s = .ok u)
    (hi : unimportHere a u = .ok v) (hp : peersOk peers (askOthers q s [a.from_, a.to_]) = .ok ()) :
    cmdTroupeUnimport peers q s = .ok (v.forwardAll 0x0B04 q 0 (askOthers q s [a.from_, a.to_]), []) := by
  simp only [cmdTroupeUnimport, ha, ok_bind, hl, need_true, he, hi, hp]
  rfl

/-! ### A request forwarded, and a record read -/

theorem cmdTroupeForward_eq {m k : Nat} (h : troupeForwardCheck q s = .ok (m, k)) : cmdTroupeForward q s =
    .ok (.later (s.sendMessage k msgCommand (fitBytes (16 + Req.u16 q 10) ((Req.bytes q).drop 8) ++ leBytes 8 0)) (.forward m) []) := by
  rw [cmdTroupeForward, h]
  rfl

theorem cmdTroupeRead_eq (hi : Req.u16 q 0 < troupeCount (Req.u16 q 2)) (ht : Req.trailingOk q 8 = true) (hc : Req.u32 q 4 < 2) :
    cmdTroupeRead q s = .ok (if Req.u32 q 4 = 1 then troupeClear (Req.u16 q 2) (Req.u16 q 0) s else s,
      troupeBytes (Req.u16 q 2) (Req.u16 q 0) s) := by
  simp only [cmdTroupeRead, decide_eq_true hi, needAt_true, ok_bind, readClear_ok ht hc, beq_iff_eq]
  rfl

/-! ### A request taken up shows the same Troupe -/

@[simp] theorem taken_member : (taken q s).member = s.member := by rw [State.member, taken_trp, State.member]

@[simp] theorem taken_linkRec (k : Nat) : (taken q s).linkRec k = s.linkRec k := by rw [State.linkRec, taken_trp, State.linkRec]

@[simp] theorem taken_svLane (l : Nat) : (taken q s).svLane l = s.svLane l := by rw [State.svLane, taken_trp, State.svLane]

@[simp] theorem taken_findExport (a : ImportArgs) : (taken q s).findExport a = s.findExport a := by
  rw [State.findExport, State.exportsOf, taken_trp, State.findExport, State.exportsOf]

@[simp] theorem taken_findImport (a : ImportArgs) : (taken q s).findImport a = s.findImport a := by
  rw [State.findImport, taken_trp, State.findImport]

theorem taken_troupeBytes (kind i : Nat) : troupeBytes kind i (taken q s) = troupeBytes kind i s := by
  simp [troupeBytes, State.linkSt, State.svRun, State.exp, State.imp, State.impSt]

end

/-- Settles O25: the records are written and their links follow; an import and an export are admitted on the member concerned, and what is
forwarded leaves both. The hops byte of an import's answer is log entry 117, and the comparison with the other member's answer log entry 52. -/
theorem troupeCommandsTakeEffect : Obligations.TroupeCommandsTakeEffect := by
  refine ⟨?troupe, ?link, ?lane, ?import_, ?unimport, ?forward, ?read⟩
  case troupe =>
    intro q s e hs hc
    have hk := troupeWriteDo_kept (μ := 0x6F24D4) e (taken q s)
    have hl := troupeWriteDo_linksKept (s := taken q s) e
    refine ⟨_, serve_ok hs (cmdTroupeWrite_eq hc), by simpa using troupeWriteCheck_ok hc, ?_, ?_, fun k => ?_, ?_, ?_, ?_⟩
    · exact congrArg (· == 1) (hl.troupe TroupeRec.troupeEn (by decide))
    · exact hl.troupe TroupeRec.members (by decide)
    · refine (congrArg (· == 1) (hl.links k Link.linkEn (by decide))).trans ?_
      exact congrArg (fun e => fbit e Link.linkEn) (taken_linkRec (q := q) (s := s) k)
    · rw [bud_of_kept hk, taken_bud]
    · rw [cmp_of_kept hk, taken_cmp]
    · rw [pwr_of_kept hk, taken_pwr]
  case link =>
    intro q s k e hs hc
    obtain ⟨hk, hlt, he⟩ := linkWriteCheck_ok hc
    have hkept := linkWriteDo_kept (μ := 0x6F24D4) k e (taken q s)
    have hl := linkWriteDo_only (s := taken q s) k e
    have hrec : ((taken q s).setLink k e).linkRec k = e := by rw [State.linkRec_setLink, if_pos rfl]
    refine ⟨_, serve_ok hs (cmdLinkWrite_eq hc), hk, hlt, by rwa [taken_linkRec] at he, ?_, ?_, ?_, fun n hn => ?_, ?_, ?_, ?_⟩
    · rw [fbit, hl.fields Link.linkEn (by decide), hrec, fbit]
    · rw [hl.fields Link.lanes (by decide), hrec]
    · rw [hl.fields Link.peer (by decide), hrec]
    · rw [hl.others n hn, State.linkRec_setLink, if_neg hn, taken_linkRec]
    · rw [bud_of_kept hkept, taken_bud]
    · rw [cmp_of_kept hkept, taken_cmp]
    · rw [pwr_of_kept hkept, taken_pwr]
  case lane =>
    intro q s l e hs hc
    obtain ⟨hl, hlt, he⟩ := laneWriteCheck_ok hc
    rw [taken_svLane] at he
    exact ⟨hl, hlt, he, serve_ok hs (cmdLaneWrite_eq hc)⟩
  case import_ =>
    intro q s peers a u ei c via v ii hs ha hl he hi hp
    obtain ⟨hf, ht, hne, hsrc, hdst⟩ := importArgs_ok ha
    have htr := v.forwardAll_trades 0x0B03 q (exportHops a peers q (taken q s)) (askOthers q (taken q s) [a.from_, a.to_])
    have hfk := v.forwardAll_kept 0x0B03 q (exportHops a peers q (taken q s)) (askOthers q (taken q s) [a.from_, a.to_])
    have huk : u.kept 0x40200 = (taken q s).kept 0x40200 := (exportHere_ok ..).out _ he
    have hvk : v.kept 0x40240 = u.kept 0x40240 := (importHere_ok ..).out _ hi
    have hk := (kept_mono (m := 0x40240) (by decide) hfk).trans (hvk.trans (kept_mono (by decide) huk))
    have hhere : a.from_ ≠ s.member → u = taken q s := fun h => by
      rw [exportHere, taken_member, if_neg h] at he
      exact (Prod.mk.inj (Except.ok.inj he)).1.symm
    have hthere : a.to_ ≠ u.member → v = u := fun h => by
      rw [importHere, if_neg h] at hi
      exact (Prod.mk.inj (Except.ok.inj hi)).1.symm
    refine ⟨_, serve_ok hs (cmdTroupeImport_eq ha hl he hi hp), fun h1 h2 => ?_, fun h1 h2 => ?_, fun h1 h2 => ?_, ?_, ?_, ?_, ?_⟩
    · rw [exportHere, taken_member, if_pos h1] at he
      obtain ⟨hexp, himp, hu⟩ := exportAdmit_facts (inMember_eq_ok he)
      rw [taken_member] at hu
      rw [State.exp_of_trades htr, trades_imp htr, hthere (by rwa [hu]), hexp, himp, taken_trp]
      obtain ⟨h3, h4, h5⟩ := exportRec_fields (a := a) via c hsrc ht
      exact ⟨h3, h4, h5, rfl⟩
    · have hu := hhere h2
      rw [importHere, hu, taken_member, if_pos h1] at hi
      obtain ⟨himp, hexp⟩ := importAdmit_facts (inMember_eq_ok hi)
      rw [State.imp_of_trades htr, trades_exp htr, himp, hexp, taken_trp]
      obtain ⟨h3, h4, h5⟩ := importRec_fields hdst hsrc
      exact ⟨h3, h4, h5, rfl⟩
    · have hu := hhere h1
      have hv := hthere (by rwa [hu, taken_member])
      rw [trades_exp htr, trades_imp htr, bud_of_kept hfk, hv, hu, taken_trp, taken_bud]
      exact ⟨rfl, rfl, rfl⟩
    · obtain ⟨htiles, -⟩ := tiles_of_kept hk
      rw [htiles, taken_mem]
    · rw [rte_of_kept hk, taken_rte]
    · rw [cmp_of_kept hk, taken_cmp]
    · rw [pwr_of_kept hk, taken_pwr]
  case unimport =>
    intro q s peers a u v hs ha hl he hi hp
    obtain ⟨-, -, hne, -, -⟩ := importArgs_ok ha
    have htr := v.forwardAll_trades 0x0B04 q 0 (askOthers q (taken q s) [a.from_, a.to_])
    have hfk := v.forwardAll_kept 0x0B04 q 0 (askOthers q (taken q s) [a.from_, a.to_])
    have huk : u.kept 0x40200 = (taken q s).kept 0x40200 := (unexportHere_ok ..).out _ he
    have hvk : v.kept 0x422C0 = u.kept 0x422C0 := (unimportHere_ok ..).out _ hi
    have hk := (kept_mono (m := 0x422C0) (by decide) hfk).trans (hvk.trans (kept_mono (by decide) huk))
    refine ⟨_, serve_ok hs (cmdTroupeUnimport_eq ha hl he hi hp), fun i h1 h2 => ?_, fun i h1 h2 h3 => ?_, ?_, ?_, ?_⟩
    · rw [unexportHere, taken_member, if_pos h1, taken_findExport, h2] at he
      obtain ⟨hexp, hholds⟩ := unexport_facts (s := taken q s) i
      have hto : a.to_ ≠ s.member := h1 ▸ hne
      have hu : u = unexport i (taken q s) := (Except.ok.inj he).symm
      have hmem : u.member = s.member := by rw [hu]; exact taken_member
      rw [unimportHere, hmem, if_neg hto] at hi
      rw [if_neg hto, State.exp_of_trades htr, bud_of_kept hfk, ← Except.ok.inj hi, hu, hexp, hholds, taken_bud]
      exact ⟨rfl, rfl⟩
    · rw [unexportHere, taken_member, if_neg h2] at he
      have hu : u = taken q s := (Except.ok.inj he).symm
      rw [unimportHere, hu, taken_member, if_pos h1, taken_findImport, h3] at hi
      obtain ⟨himp, hholds⟩ := unimport_facts (s := taken q s) i a.dst
      rw [State.imp_of_trades htr, bud_of_kept hfk, ← Except.ok.inj hi, himp, hholds, taken_bud]
      exact ⟨rfl, rfl⟩
    · rw [rte_of_kept hk, taken_rte]
    · rw [cmp_of_kept hk, taken_cmp]
    · rw [pwr_of_kept hk, taken_pwr]
  case forward =>
    intro q s m k hs hc
    obtain ⟨hm, hlt, hne⟩ := troupeForwardCheck_ok hc
    rw [taken_member] at hne
    have hk (bytes : List Byte) := State.sendMessage_kept (μ := 0x40000) k msgCommand bytes (taken q s)
    obtain ⟨j, hj, hkind, hreq⟩ := settle_later_job 0x0B05 q _ s.fresh _ _
    refine ⟨_, j, serveAns_ok hs (cmdTroupeForward_eq hc), hm, hlt, hne, hj.trans ?_, hkind, hreq, ?_, ?_, ?_, ?_⟩
    · rw [ctl_of_kept (hk _), taken_ctl_jobs]
    · rw [settle, State.onCtl_mem, mem_of_kept (hk _), taken_mem]
    · rw [settle, State.onCtl_bud, bud_of_kept (hk _), taken_bud]
    · rw [settle, State.onCtl_rte, rte_of_kept (hk _), taken_rte]
    · rw [settle, State.onCtl_pwr, pwr_of_kept (hk _), taken_pwr]
  case read =>
    intro q s hs hi ht hc
    have h := serve_ok (peers := []) hs (cmdTroupeRead_eq hi ht hc)
    rw [taken_troupeBytes] at h
    exact h

end Sys2Proof.Machine
end


section
/-! PROOFS. The TWIN commands (R346, R363, R423): the twin record written, read, and a swap announced. -/

set_option Elab.async false

namespace Sys2Proof.Machine

open Sys2Proof

/-! ### The twin's state between events -/

/-- An event of another class than fatal changes no twin state. -/
theorem State.raise_twin {e : Ev} (h : evClass e.code ≠ 3) (s : State) : (s.raise e).twin = s.twin := by
  unfold State.raise State.raiseWith
  simp only [h, decide_false, Bool.false_and, Bool.false_eq_true, if_false]
  exact twin_of_kept (State.noteRise_kept (μ := 0x14) ..)

theorem State.role_of_twin {s t : State} (h : t.twin = s.twin) : t.role = s.role := by rw [State.role, h, State.role]

theorem State.sendMessage_twin (k typ : Nat) (bytes : List Byte) (s : State) : (s.sendMessage k typ bytes).twin = s.twin :=
  twin_of_kept (State.sendMessage_kept (μ := 0x40000) ..)

/-- A heartbeat sent leaves HB_SEQ alone advanced. -/
theorem State.sendHeartbeat_twin (s : State) :
    s.sendHeartbeat.twin = if s.twinOn then { s.twin with hbSeq := s.twin.hbSeq + 1 } else s.twin := by
  unfold State.sendHeartbeat State.twinOn
  cases fbit s.twin.rec_ Twin.twinEn with
  | false => rfl
  | true =>
    simp only [Bool.not_true, Bool.false_eq_true, if_false, if_true]
    rw [State.onTwin_twin]
    split
    · rw [State.emit_twin, State.sendMessage_twin]
    · rw [State.sendMessage_twin]

/-- What a heartbeat sent leaves of the twin's state, HB_SEQ apart. -/
theorem State.sendHeartbeat_twin_but_seq (s : State) : ∃ n, s.sendHeartbeat.twin = { s.twin with hbSeq := n } := by
  rw [State.sendHeartbeat_twin]
  split
  · exact ⟨_, rfl⟩
  · exact ⟨_, rfl⟩

theorem State.yieldNow_twin (reason at_ : Nat) (s : State) :
    ∃ n, (s.yieldNow reason at_).twin = { s.twin with yield := some ⟨at_, reason⟩, hbSeq := n } := by
  obtain ⟨n, h⟩ := (s.onTwin (fun t => { t with yield := some ⟨at_, reason⟩ })).sendHeartbeat_twin_but_seq
  exact ⟨n, h⟩

/-! ### What the checks allow and the commands leave -/

section
variable {q : Req} {s : State}

theorem twinWriteCheck_ok {e : BitVec 256} (h : twinWriteCheck q s = .ok e) : e = mergeRec Twin.layout s.twin.rec_ (Req.recordBytes q 32) := by
  obtain ⟨-, h⟩ := index_bind.1 h
  obtain ⟨-, h⟩ := noTarget_bind.1 h
  obtain ⟨e', he, h⟩ := ok_bind_iff.1 h
  obtain ⟨-, h⟩ := need_bind.1 h
  obtain ⟨-, h⟩ := need_bind.1 h
  obtain ⟨-, h⟩ := need_bind.1 h
  cases pure_eq_ok.1 h
  exact writeRecordX_eq he

theorem cmdTwinWrite_eq {e : BitVec 256} (h : twinWriteCheck q s = .ok e) :
    cmdTwinWrite q s = .ok (twinWriteDo e s, recBytes (twinWriteDo e s).twin.rec_) := by
  rw [cmdTwinWrite, h]
  rfl

theorem twinWriteDo_same {e : BitVec 256} (h : fbit e Twin.twinEn = fbit s.twin.rec_ Twin.twinEn) :
    twinWriteDo e s = s.onTwin (fun w => { w with rec_ := e }) := by
  unfold twinWriteDo State.twinOn
  rw [if_pos h]

theorem twinWriteDo_rises {e : BitVec 256} (h : fbit e Twin.twinEn = true) (hw : fbit s.twin.rec_ Twin.twinEn = false) :
    (twinWriteDo e s).twin = { s.twin with rec_ := e, hbSeq := 0 } := by
  unfold twinWriteDo State.twinOn
  rw [h, hw, if_neg (by decide), if_pos rfl]
  rfl

/-- The record with its roles, SYNC and paths at 0. -/
def twinOffRec (e : BitVec 256) : BitVec 256 := fput (fput (fput (fput e Twin.role 0) Twin.sync 0) Twin.pathAOk 0) Twin.pathBOk 0

theorem twinOffRec_fields (e : BitVec 256) : fget (twinOffRec e) Twin.role = 0 ∧ fget (twinOffRec e) Twin.sync = 0 := by
  unfold twinOffRec
  constructor
  · iterate 3 rw [fget_fput_of_disjoint _ _ _ _ (by decide) (by decide)]
    rw [fget_fput _ _ _ (by decide)]
    rfl
  · iterate 2 rw [fget_fput_of_disjoint _ _ _ _ (by decide) (by decide)]
    rw [fget_fput _ _ _ (by decide)]
    rfl

theorem twinWriteDo_falls {e : BitVec 256} (h : fbit e Twin.twinEn = false) (hw : fbit s.twin.rec_ Twin.twinEn = true) :
    (twinWriteDo e s).twin.rec_ = twinOffRec e ∧ (twinWriteDo e s).twin.mirrors = [] ∧ (twinWriteDo e s).twin.yield = none ∧
    (twinWriteDo e s).twin.resync = none := by
  unfold twinWriteDo State.twinOn
  rw [h, hw, if_neg (by decide), if_neg (by decide), ← twinOffRec]
  exact ⟨rfl, rfl, rfl, rfl⟩

theorem cmdTwinRead_eq (hi : Req.u32 q 0 < 1) (ht : Req.trailingOk q 8 = true) (hc : Req.u32 q 4 < 2) : cmdTwinRead q s =
    .ok (if Req.u32 q 4 = 1 then s.onTwin (fun t => { t with
        rec_ := fput t.rec_ Twin.divCount 0, a := { t.a with bad := 0 }, b := { t.b with bad := 0 } }) else s,
      recBytes s.twin.rec_ ++ leBytes 4 s.twin.a.bad ++ leBytes 4 s.twin.b.bad ++ fitBytes 40 s.twin.hb) := by
  simp only [cmdTwinRead, Req.index, if_pos hi, readClear_ok ht hc, ok_bind, beq_iff_eq]
  rfl

theorem twinSwapCheck_ok {receipt y : Nat} {moved : Bool} (h : twinSwapCheck q receipt s = .ok (y, moved)) : s.role = .primary ∧
    (fbit s.twin.rec_ Twin.pathAOk = true ∧ fbit s.twin.rec_ Twin.pathBOk = true) ∧ s.sync = 2 ∧
    (moved = false → y = if Req.u64 q 0 = 0 then receipt + 1000000 else Req.u64 q 0) ∧ (moved = true → y = receipt + 1000000) := by
  obtain ⟨hr, h⟩ := need_bind.1 h
  obtain ⟨-, h⟩ := layout_bind.1 h
  obtain ⟨-, h⟩ := needAt_bind.1 h
  obtain ⟨hp, h⟩ := need_bind.1 h
  simp only [Bool.and_eq_true, beq_iff_eq] at hr hp
  refine ⟨hr, hp.1, hp.2, ?_⟩
  split at h
  · next h0 =>
    cases pure_eq_ok.1 h
    exact ⟨fun _ => by rw [if_pos h0], fun h => nomatch h⟩
  · next h0 =>
    split at h
    · cases pure_eq_ok.1 h
      exact ⟨fun _ => by rw [if_neg h0], fun h => nomatch h⟩
    · split at h
      · cases pure_eq_ok.1 h
        exact ⟨fun h => (nomatch h), fun _ => rfl⟩
      · cases h

/-- The state a TWIN_SWAP leaves: the handover announced, and TAKE_LATE where its instant was moved. -/
def State.swapAnnounced (q : Req) (receipt y : Nat) (moved : Bool) (s : State) : State :=
  (if moved then s.takeLate 2 0xFF (Req.u64 q 0) (Req.u64 q 0) receipt else s).yieldNow 2 y

theorem cmdTwinSwap_eq {y : Nat} {moved : Bool} (h : twinSwapCheck q (receiptOf 0x0C02 q s) s = .ok (y, moved)) : cmdTwinSwap q s =
    .ok (s.swapAnnounced q (receiptOf 0x0C02 q s) y moved, leBytes 4 (bit moved) ++ leBytes 4 0 ++ leBytes 8 y) := by
  simp only [cmdTwinSwap, h]
  rfl

theorem State.swapAnnounced_twin (receipt y : Nat) (moved : Bool) :
    ∃ n, (s.swapAnnounced q receipt y moved).twin = { s.twin with yield := some ⟨y, 2⟩, hbSeq := n } := by
  unfold State.swapAnnounced
  cases moved with
  | false => exact State.yieldNow_twin ..
  | true =>
    obtain ⟨n, h⟩ := State.yieldNow_twin 2 y (s.takeLate 2 0xFF (Req.u64 q 0) (Req.u64 q 0) receipt)
    have hl : (s.takeLate 2 0xFF (Req.u64 q 0) (Req.u64 q 0) receipt).twin = s.twin := State.raise_twin (show evClass 0x63 ≠ 3 by decide) _
    exact ⟨n, h.trans (by rw [hl])⟩

theorem State.swapAnnounced_kept (receipt y : Nat) (moved : Bool) : (s.swapAnnounced q receipt y moved).kept 0x2C0014 = s.kept 0x2C0014 := by
  unfold State.swapAnnounced
  split
  · exact (State.yieldNow_kept ..).trans (State.takeLate_kept ..)
  · exact State.yieldNow_kept ..

end

/-- Settles O26: a write whose enable stays keeps the rest of the twin's state; one whose enable rises or falls starts it afresh; a swap sets the
yield. That TWIN_SWAP takes effect at the primary at once and is not mirrored is log entry 92. -/
theorem twinCommandsTakeEffect : Obligations.TwinCommandsTakeEffect := by
  refine ⟨?write, ?read, ?swap⟩
  case write =>
    intro q s e hs hc
    have hk := twinWriteDo_kept (μ := 0xC0000) e (taken q s)
    have htw : (taken q s).twin.rec_ = s.twin.rec_ := by rw [taken_twin]
    refine ⟨_, serve_ok hs (cmdTwinWrite_eq hc), by simpa using twinWriteCheck_ok hc, fun h => twinWriteDo_same (by rw [h, htw]), fun h => ?_,
      fun h hw => ?_, fun h hw => ?_, ?_, ?_, ?_, ?_⟩
    · by_cases hw : fbit s.twin.rec_ Twin.twinEn = true
      · rw [twinWriteDo_same (by rw [h, htw, hw])]
        rfl
      · rw [twinWriteDo_rises h (by rw [htw]; exact Bool.eq_false_iff.2 hw)]
    · rw [twinWriteDo_rises h (by rw [htw]; exact hw)]
    · obtain ⟨h1, h2, h3, h4⟩ := twinWriteDo_falls (s := taken q s) h (by rw [htw]; exact hw)
      obtain ⟨hrole, hsync⟩ := twinOffRec_fields e
      refine ⟨?_, ?_, h2, h3, h4⟩
      · rw [State.role, h1, hrole]
        rfl
      · rw [State.sync, h1, hsync]
    · rw [mem_of_kept hk, taken_mem]
    · rw [rte_of_kept hk, taken_rte]
    · rw [bud_of_kept hk, taken_bud]
    · rw [pwr_of_kept hk, taken_pwr]
  case read =>
    intro q s hs hi ht hc
    have h := serve_ok (peers := []) hs (cmdTwinRead_eq (s := taken q s) hi ht hc)
    simp only [taken_twin] at h
    exact h
  case swap =>
    intro q s y moved hs hc
    obtain ⟨hr, ⟨hpa, hpb⟩, hsync, hm0, hm1⟩ := twinSwapCheck_ok hc
    rw [taken_twin] at hpa hpb
    obtain ⟨n, htw⟩ := State.swapAnnounced_twin (q := q) (s := taken q s) (receiptOf 0x0C02 q (taken q s)) y moved
    have hk := State.swapAnnounced_kept (q := q) (s := taken q s) (receiptOf 0x0C02 q (taken q s)) y moved
    refine ⟨_, serve_ok hs (cmdTwinSwap_eq hc), by rwa [taken_role] at hr, by rwa [taken_sync] at hsync, hpa, hpb, ?_, ?_, hm0, hm1,
      ?_, ?_, ?_, ?_⟩
    · rw [htw]
    · rw [htw, taken_twin]
    · rw [mem_of_kept hk, taken_mem]
    · rw [rte_of_kept hk, taken_rte]
    · rw [bud_of_kept hk, taken_bud]
    · rw [pwr_of_kept hk, taken_pwr]

end Sys2Proof.Machine
end


section
/-! PROOFS. What leaves with a control message and with a heartbeat (R325, R349, R350), and a heartbeat that does not leave on path B although
the service-bus MAC is enabled: its block is held in reset (R395, R474). -/

set_option Elab.async false

namespace Sys2Proof.Machine

open Sys2Proof

section
variable (s : State)

theorem State.sendCell_emitted (k typ idx dest : Nat) (payload : List Byte) : (s.sendCell k typ idx dest payload).emitted =
    s.emitted ++ [.cell k typ (cellHeader typ idx dest (s.linkSt k).lseq.toNat ++ fitBytes 248 payload)] := rfl

theorem fragments_ne_nil (n : Nat) (bs : List Byte) : fragments n bs ≠ [] := by
  cases n with
  | zero => exact List.cons_ne_nil _ _
  | succ n =>
    unfold fragments
    split
    · exact List.cons_ne_nil _ _
    · exact List.cons_ne_nil _ _

/-- Cells sent one after another leave behind what was emitted before. -/
theorem foldl_cells_emitted {β : Type} (k : Nat) {f : State → β → State} (hf : ∀ s b, ∃ c, (f s b).emitted = s.emitted ++ [.cell k 3 c])
    (l : List β) (s : State) : ∃ cs : List (List Byte), (l.foldl f s).emitted = s.emitted ++ cs.map (.cell k 3) ∧ cs.length = l.length := by
  induction l generalizing s with
  | nil => exact ⟨[], (List.append_nil _).symm, rfl⟩
  | cons b l ih =>
    obtain ⟨c, hc⟩ := hf s b
    obtain ⟨cs, hcs, hl⟩ := ih (f s b)
    refine ⟨c :: cs, ?_, congrArg (· + 1) hl⟩
    rw [List.foldl_cons, hcs, hc, List.append_assoc]
    rfl

/-- A control message leaves as CONTROL cells of its link, at least one. -/
theorem State.sendMessage_emitted (k typ : Nat) (bytes : List Byte) :
    ∃ c cs, (s.sendMessage k typ bytes).emitted = s.emitted ++ .cell k 3 c :: List.map (.cell k 3) cs := by
  unfold State.sendMessage
  extract_lets fs id
  obtain ⟨cs, hcs, hl⟩ := foldl_cells_emitted k (f := fun s (x : List Byte × Nat) => s.sendCell k 3 0 0
    (leBytes 1 typ ++ leBytes 1 x.2 ++ leBytes 1 fs.length ++ [0] ++ leBytes 4 id.toNat ++ x.1)) (fun t x => ⟨_, State.sendCell_emitted ..⟩)
    fs.zipIdx (s.onTrp (fun t => { t with msgId := id + 1 }))
  cases cs with
  | nil =>
    rw [List.length_zipIdx] at hl
    exact absurd (List.length_eq_zero_iff.1 hl.symm) (fragments_ne_nil _ _)
  | cons c cs => exact ⟨c, cs, hcs⟩

theorem State.mem_sendMessage_emitted (k typ : Nat) (bytes : List Byte) : ∃ b, Emit.cell k 3 b ∈ (s.sendMessage k typ bytes).emitted := by
  obtain ⟨c, cs, h⟩ := s.sendMessage_emitted k typ bytes
  exact ⟨c, by rw [h]; exact List.mem_append_right _ List.mem_cons_self⟩

/-- With the service-bus MAC silent, nothing leaves on path B. -/
theorem State.service_not_mem_sendHeartbeat {frame : List Byte} (hs : s.sbOn = false) (he : s.emitted = []) :
    Emit.service frame ∉ s.sendHeartbeat.emitted := by
  unfold State.sendHeartbeat
  split
  · rw [he]
    exact List.not_mem_nil
  · obtain ⟨c, cs, h⟩ := s.sendMessage_emitted 7 msgHeartbeat s.heartbeat
    rw [hs]
    dsimp only
    rw [if_neg Bool.false_ne_true, State.onTwin_emitted, h, he]
    simp

end

/-- A twin whose service-bus MAC is enabled while its block is held in reset. -/
def heldMac : State :=
  ((State.reset.onTwin (fun t => { t with rec_ := fput t.rec_ Twin.twinEn 1 })).onCtl (fun c => { c with sb := fput c.sb SbRec.sbEn 1 })).onPwr
    (fun p => { p with rstCtl := fput p.rstCtl RstCtl.blkBusy (2 ^ 53) })

theorem heldMac_facts : heldMac.blockHeld 54 = false ∧ heldMac.twinOn = true ∧ fbit heldMac.ctl.sb SbRec.sbEn = true ∧ heldMac.sbOn = false := by
  decide

/-- Refutes O56: a heartbeat leaves on path B only where the MAC's block is not held in reset, which the clause about a heartbeat's sending
does not ask for. With SB_EN 1 and block 53 held, `heldMac` sends on path A alone. -/
theorem not_twinsTakeRolesAndTakeOver : ¬ Obligations.TwinsTakeRolesAndTakeOver := by
  intro h
  obtain ⟨-, -, hsend, -⟩ := h
  obtain ⟨h54, hon, hsb, hoff⟩ := heldMac_facts
  obtain ⟨t, ht, -, -, hframe⟩ := hsend heldMac h54 hon
  have hx : exec .heartbeatSend heldMac = .next heldMac.fresh.sendHeartbeat := by
    show execHeartbeatSend heldMac = _
    rw [execHeartbeatSend, h54]
    rfl
  cases ht.symm.trans hx
  exact State.service_not_mem_sendHeartbeat heldMac.fresh hoff rfl (hframe hsb)

end Sys2Proof.Machine
end


section
/-! PROOFS. Mirrors, acknowledgements, digests and resynchronisation (R353, R354, R357, R358): what the loss of SYNC, a comparison of digests and the
resumption of mirroring change of the twin's state, and the events that do so. -/

set_option Elab.async false

namespace Sys2Proof.Machine

open Sys2Proof

/-! ### The twin's record -/

section
variable (s : State)

theorem State.twinF_twin (f : Fld) (v : Nat) : (s.twinF f v).twin = { s.twin with rec_ := fput s.twin.rec_ f v } := rfl

theorem State.twinF_sync {v : Nat} (h : v < 4) : (s.twinF Twin.sync v).sync = v := by
  rw [State.sync, State.twinF_twin, fget_fput _ _ _ (by decide)]
  exact Nat.mod_eq_of_lt h

/-! ### SYNC lost (R354, R358) -/

/-- A twin that is SYNCING or SYNCED becomes UNSYNCED, with TWIN_MIRROR_FAIL. -/
theorem State.unsync_eq {reason : Nat} (hr : s.role ≠ .solo) (hs : s.sync = 1 ∨ s.sync = 2) :
    s.unsync reason = (s.twinF Twin.sync 3).raise ⟨0xFB, locTwin, true, reason, []⟩ := by
  unfold State.unsync
  rw [if_neg]
  rcases hs with hs | hs <;> rw [hs] <;> simpa using hr

theorem State.unsync_lost {reason : Nat} (hr : s.role ≠ .solo) (hs : s.sync = 1 ∨ s.sync = 2) :
    (s.unsync reason).sync = 3 ∧ (0xFB, locTwin) ∈ (s.unsync reason).flt.status := by
  rw [State.unsync_eq s hr hs, State.sync, State.raise_twin (show evClass 0xFB ≠ 3 by decide)]
  exact ⟨State.twinF_sync s (by decide), State.raise_status ..⟩

/-- Losing SYNC changes the twin's record alone of the twin's state. -/
theorem State.unsync_twin (reason : Nat) : ∃ r, (s.unsync reason).twin = { s.twin with rec_ := r } := by
  unfold State.unsync
  split
  · exact ⟨_, rfl⟩
  · rw [State.raise_twin (show evClass 0xFB ≠ 3 by decide)]
    exact ⟨_, rfl⟩

theorem State.unsync_mirrors (reason : Nat) : (s.unsync reason).twin.mirrors = s.twin.mirrors := by
  obtain ⟨r, h⟩ := s.unsync_twin reason
  rw [h]

theorem State.mem_unsync_emitted {x : Emit} (reason : Nat) (h : x ∈ s.emitted) : x ∈ (s.unsync reason).emitted := by
  unfold State.unsync
  split
  · exact h
  · exact State.mem_raise_emitted (show evClass 0xFB ≠ 3 by decide) h

/-! ### Mirrors (R353, R354) -/

/-- A mirror queued and acknowledged with its own status. -/
def State.queueMirror (m : Mirror) (st : Nat) (s : State) : State :=
  (s.onTwin (fun t => { t with mirrors := t.mirrors ++ [m] })).sendMessage 7 msgMirrorAck (leBytes 4 m.mseq ++ leBytes 2 st ++ leBytes 2 0)

theorem State.queueMirror_mirrors (m : Mirror) (st : Nat) : (s.queueMirror m st).twin.mirrors = s.twin.mirrors ++ [m] := by
  rw [State.queueMirror, State.sendMessage_twin, State.onTwin_twin]

theorem State.queueMirror_kept (m : Mirror) (st : Nat) : (s.queueMirror m st).kept 0xC0000 = s.kept 0xC0000 :=
  (State.sendMessage_kept ..).trans (State.kept_onTwin ..)

/-- What a mirror taken changes beyond its execution: it is queued and acknowledged, and SYNC may be lost. -/
theorem State.takeMirror_queued {u : State} {m : Mirror} (status : Nat) (hu : u = if m.early then ansState s (s.runMirror m) else s) :
    (s.takeMirror m status).twin.mirrors = u.twin.mirrors ++ [m] ∧ (∃ b, Emit.cell 7 3 b ∈ (s.takeMirror m status).emitted) ∧
    (s.takeMirror m status).kept 0x2C0014 = u.kept 0x2C0014 := by
  have hq : s.takeMirror m status = if ansStatus (s.runMirror m) = status then u.queueMirror m (ansStatus (s.runMirror m))
      else (u.queueMirror m (ansStatus (s.runMirror m))).unsync 1 := by
    subst hu
    rfl
  obtain ⟨b, hb⟩ : ∃ b, Emit.cell 7 3 b ∈ (u.queueMirror m (ansStatus (s.runMirror m))).emitted := State.mem_sendMessage_emitted ..
  have hk := kept_mono (m := 0x2C0014) (by decide) (u.queueMirror_kept m (ansStatus (s.runMirror m)))
  rw [hq]
  split
  · exact ⟨State.queueMirror_mirrors .., ⟨b, hb⟩, hk⟩
  · refine ⟨?_, ⟨b, State.mem_unsync_emitted _ _ hb⟩, (State.unsync_kept ..).trans hk⟩
    rw [State.unsync_mirrors, State.queueMirror_mirrors]

theorem execMirror_taken {n : BitVec 32} {op : BitVec 16} {q : Req} {st : BitVec 16} {tg : BitVec 64} (hq : Req.wf q = true)
    (hr : s.role = .shadow) (hf : s.pwr.bootState = .firmware) (hn : n.toNat = s.nextMirror) (ht : s.now ≤ tg.toNat) :
    execMirror n op q st tg s =
      .next (s.fresh.takeMirror ⟨n.toNat, op.toNat, q, tg.toNat, ownTarget op.toNat q != 0, true, []⟩ st.toNat) := by
  have hr' : s.fresh.role = .shadow := hr
  have hf' : s.fresh.pwr.bootState = .firmware := hf
  have hn' : (n.toNat != s.fresh.nextMirror) = false := by rw [bne_eq_false_iff_eq]; exact hn
  have ht' : ¬ tg.toNat < s.fresh.now := ht.not_gt
  simp only [execMirror, checked, hq, if_true, hr', hf', hn', ht', done]
  rfl

theorem execMirror_late {n : BitVec 32} {op : BitVec 16} {q : Req} {st : BitVec 16} {tg : BitVec 64} (hq : Req.wf q = true)
    (hr : s.role = .shadow) (hf : s.pwr.bootState = .firmware) (h : n.toNat ≠ s.nextMirror ∨ tg.toNat < s.now) :
    execMirror n op q st tg s = .next (s.fresh.unsync 3) := by
  have hr' : s.fresh.role = .shadow := hr
  have hf' : s.fresh.pwr.bootState = .firmware := hf
  have h' : n.toNat ≠ s.fresh.nextMirror ∨ tg.toNat < s.fresh.now := h
  have hb : (n.toNat != s.fresh.nextMirror || decide (tg.toNat < s.fresh.now)) = true := by
    simpa only [Bool.or_eq_true, bne_iff_ne, decide_eq_true_eq] using h'
  simp only [execMirror, checked, hq, if_true, hr', hf', hb, done]
  rfl

theorem execMirror_unheard {n : BitVec 32} {op : BitVec 16} {q : Req} {st : BitVec 16} {tg : BitVec 64} (hq : Req.wf q = true)
    (h : s.role ≠ .shadow ∨ s.pwr.bootState ≠ .firmware) : execMirror n op q st tg s = .next s.fresh := by
  have h' : s.fresh.role ≠ .shadow ∨ s.fresh.pwr.bootState ≠ .firmware := h
  have hb : (s.fresh.role != .shadow || s.fresh.pwr.bootState != .firmware) = true := by
    simpa only [Bool.or_eq_true, bne_iff_ne] using h'
  simp only [execMirror, checked, hq, if_true, hb, done]

/-! ### Acknowledgements -/

/-- A mirror acknowledged on the primary: its entry is marked, and the host may have its response. -/
theorem State.ackAnswered_twin (m : Mirror) : ((s.answerMirror m).ackMirror m.mseq).twin = { s.twin with
    mirrors := s.twin.mirrors.map (fun x => if x.mseq == m.mseq then { x with acked := true } else x) } := by
  have h : (s.answerMirror m).twin = s.twin := twin_of_kept (State.answerMirror_kept (μ := 0x4) ..)
  rw [State.ackMirror, State.onTwin_twin, h]

theorem State.ackAnswered_sync (m : Mirror) : ((s.answerMirror m).ackMirror m.mseq).sync = s.sync := by
  rw [State.sync, State.ackAnswered_twin, State.sync]

theorem State.ackAnswered_role (m : Mirror) : ((s.answerMirror m).ackMirror m.mseq).role = s.role := by
  rw [State.role, State.ackAnswered_twin, State.role]

/-! ### Digests (R357, R358) -/

theorem State.checkSynced_twin : ∃ r, s.checkSynced.twin = { s.twin with rec_ := r } := by
  unfold State.checkSynced
  split
  · exact ⟨_, rfl⟩
  · exact ⟨_, rfl⟩

theorem State.checkSynced_emitted : s.checkSynced.emitted = s.emitted := by
  unfold State.checkSynced
  split <;> rfl

/-- A comparison that agrees: one frame more matches. -/
theorem State.judgeDigest_ok (o frame : Nat) : ∃ r d, (s.judgeDigest o frame true).twin = { s.twin with
    rec_ := r, diverged := d, matched := tset natReset s.twin.matched o (min 100 (tget natReset s.twin.matched o + 1)) } := by
  unfold State.judgeDigest
  extract_lets run s1 open_ s2 s3 s4
  rw [if_pos rfl]
  obtain ⟨r, h⟩ := s1.checkSynced_twin
  exact ⟨r, _, h.trans rfl⟩

/-- An episode open: no frame of the output matches. -/
def State.openEpisode (o : Nat) (s : State) : State :=
  s.onTwin (fun t => { t with matched := tdel t.matched o, diverged := tset natReset t.diverged o 1 })

/-- A divergence counted, with SYNC lost where there was any. -/
def State.countDivergence (s : State) : State :=
  let s1 := s.twinF Twin.divCount (sat32 (fget s.twin.rec_ Twin.divCount) 1)
  if s1.sync = 0 then s1 else s1.twinF Twin.sync 3

theorem State.judgeDigest_bad_eq (o frame : Nat) : s.judgeDigest o frame false =
    if tget natReset s.twin.diverged o = 1 then s.openEpisode o
    else (s.openEpisode o).countDivergence.raise ⟨0xF9, locTwin, true, 0, leBytes 2 o ++ leBytes 2 frame⟩ := by
  unfold State.judgeDigest State.countDivergence State.openEpisode
  extract_lets run s1 open_ s2 s3 s4
  rw [if_neg Bool.false_ne_true]

theorem State.countDivergence_twin : ∃ r, s.countDivergence.twin = { s.twin with rec_ := r } ∧
    fget r Twin.divCount = sat32 (fget s.twin.rec_ Twin.divCount) 1 := by
  have hw : fget (fput s.twin.rec_ Twin.divCount (sat32 (fget s.twin.rec_ Twin.divCount) 1)) Twin.divCount =
      sat32 (fget s.twin.rec_ Twin.divCount) 1 := by
    rw [fget_fput _ _ _ (by decide)]
    exact Nat.mod_eq_of_lt (lt_of_le_of_lt (min_le_right _ _) (by decide))
  unfold State.countDivergence
  extract_lets s1
  have h1 : s1.twin = { s.twin with rec_ := fput s.twin.rec_ Twin.divCount (sat32 (fget s.twin.rec_ Twin.divCount) 1) } := State.twinF_twin ..
  split
  · exact ⟨_, h1, hw⟩
  · rw [State.twinF_twin, h1]
    exact ⟨_, rfl, (fget_fput_of_disjoint _ _ _ _ (by decide) (by decide)).trans hw⟩

/-- One that does not: no frame matches, and an episode is open. -/
theorem State.judgeDigest_bad (o frame : Nat) : ∃ r, (s.judgeDigest o frame false).twin = { s.twin with
      rec_ := r, matched := tdel s.twin.matched o, diverged := tset natReset s.twin.diverged o 1 } ∧
    (tget natReset s.twin.diverged o ≠ 1 → (0xF9, locTwin) ∈ (s.judgeDigest o frame false).flt.status ∧
      fget r Twin.divCount = sat32 (fget s.twin.rec_ Twin.divCount) 1) := by
  rw [State.judgeDigest_bad_eq]
  split
  · next ho => exact ⟨_, rfl, fun hn => absurd ho hn⟩
  · obtain ⟨r, hr, hd⟩ := (s.openEpisode o).countDivergence_twin
    refine ⟨r, (State.raise_twin (show evClass 0xF9 ≠ 3 by decide) _).trans (hr.trans ?_), fun _ => ⟨State.raise_status .., hd⟩⟩
    rw [State.openEpisode, State.onTwin_twin]

theorem State.twinF_emitted (f : Fld) (v : Nat) : (s.twinF f v).emitted = s.emitted := rfl

theorem State.openEpisode_emitted (o : Nat) : (s.openEpisode o).emitted = s.emitted := rfl

theorem State.countDivergence_emitted : s.countDivergence.emitted = s.emitted := by
  unfold State.countDivergence
  extract_lets s1
  split
  · exact State.twinF_emitted ..
  · exact (State.twinF_emitted ..).trans (State.twinF_emitted ..)

theorem State.mem_judgeDigest_emitted {x : Emit} (o frame : Nat) (ok : Bool) (h : x ∈ s.emitted) : x ∈ (s.judgeDigest o frame ok).emitted := by
  cases ok with
  | true =>
    unfold State.judgeDigest
    extract_lets run s1 open_ s2 s3 s4
    rw [if_pos rfl, State.checkSynced_emitted]
    exact h
  | false =>
    rw [State.judgeDigest_bad_eq]
    split
    · exact h
    · refine State.mem_raise_emitted (show evClass 0xF9 ≠ 3 by decide) ?_
      rwa [State.countDivergence_emitted, State.openEpisode_emitted]

/-- A comparison changes neither the digests that wait nor those not sent. -/
theorem State.judgeDigest_queues (o frame : Nat) (ok : Bool) : ((s.judgeDigest o frame ok).twin.own, (s.judgeDigest o frame ok).twin.mine,
    (s.judgeDigest o frame ok).twin.theirs) = (s.twin.own, s.twin.mine, s.twin.theirs) := by
  cases ok with
  | true =>
    obtain ⟨r, d, h⟩ := s.judgeDigest_ok o frame
    rw [h]
  | false =>
    obtain ⟨r, h, -⟩ := s.judgeDigest_bad o frame
    rw [h]

/-- One digest of the other twin looked up among this device's, and compared where its counterpart waits. -/
def State.compareDigest (s : State) (e : Nat × Nat × Nat) : State :=
  match s.twin.mine.find? (fun m => m.1 == e.1 && m.2.1 == e.2.1) with
  | none => s
  | some m => (s.onTwin (fun t => { t with mine := t.mine.erase m, theirs := t.theirs.erase e })).judgeDigest e.1 e.2.1 (m.2.2 == e.2.2)

theorem State.compareDigests_eq : s.compareDigests = s.twin.theirs.foldl State.compareDigest s := rfl

theorem State.compareDigests_own : s.compareDigests.twin.own = s.twin.own := by
  rw [State.compareDigests_eq]
  refine foldl_leaves (fun t : State => t.twin.own) (f := State.compareDigest) (fun t e => ?_) s.twin.theirs s
  unfold State.compareDigest
  split
  · rfl
  · exact congrArg Prod.fst (State.judgeDigest_queues ..)

theorem State.mem_compareDigests_emitted {x : Emit} (h : x ∈ s.emitted) : x ∈ s.compareDigests.emitted := by
  rw [State.compareDigests_eq]
  refine List.foldlRecOn (motive := fun t : State => x ∈ t.emitted) _ _ h (fun t ht e _ => ?_)
  unfold State.compareDigest
  split
  · exact ht
  · exact State.mem_judgeDigest_emitted _ _ _ _ ht

/-- What the compared digest of the other twin leaves. -/
theorem State.compareDigest_some {e m : Nat × Nat × Nat} (h : s.twin.mine.find? (fun m => m.1 == e.1 && m.2.1 == e.2.1) = some m) :
    (s.compareDigest e).twin.mine = s.twin.mine.erase m ∧ (s.compareDigest e).twin.theirs = s.twin.theirs.erase e ∧
    (m.2.2 = e.2.2 → tget natReset (s.compareDigest e).twin.matched e.1 = min 100 (tget natReset s.twin.matched e.1 + 1)) ∧
    (m.2.2 ≠ e.2.2 → tget natReset (s.compareDigest e).twin.matched e.1 = 0 ∧ (tget natReset s.twin.diverged e.1 ≠ 1 →
      (0xF9, locTwin) ∈ (s.compareDigest e).flt.status ∧
      fget (s.compareDigest e).twin.rec_ Twin.divCount = sat32 (fget s.twin.rec_ Twin.divCount) 1)) := by
  have hc : s.compareDigest e = (s.onTwin (fun t => { t with mine := t.mine.erase m, theirs := t.theirs.erase e })).judgeDigest
      e.1 e.2.1 (m.2.2 == e.2.2) := by
    unfold State.compareDigest
    rw [h]
  have hqs := State.judgeDigest_queues (s.onTwin (fun t => { t with mine := t.mine.erase m, theirs := t.theirs.erase e })) e.1 e.2.1
    (m.2.2 == e.2.2)
  simp only [Prod.mk.injEq] at hqs
  obtain ⟨-, hmine, htheirs⟩ := hqs
  rw [hc]
  refine ⟨hmine, htheirs, fun heq => ?_, fun hne => ?_⟩
  · rw [beq_iff_eq.2 heq]
    obtain ⟨r, d, hj⟩ := State.judgeDigest_ok (s.onTwin (fun t => { t with mine := t.mine.erase m, theirs := t.theirs.erase e })) e.1 e.2.1
    rw [hj]
    exact tget_tset_same ..
  · rw [beq_eq_false_iff_ne.2 hne]
    obtain ⟨r, hj, hev⟩ := State.judgeDigest_bad (s.onTwin (fun t => { t with mine := t.mine.erase m, theirs := t.theirs.erase e })) e.1 e.2.1
    refine ⟨?_, fun ho => ?_⟩
    · rw [hj]
      exact (tget_tdel ..).trans (if_pos rfl)
    · obtain ⟨hst, hd⟩ := hev ho
      refine ⟨hst, ?_⟩
      rw [hj]
      exact hd

theorem execDigestSend_sent (hon : s.twinOn = true) (hr : s.role ≠ .solo) : execDigestSend s = .next
    ((s.fresh.sendMessage 7 msgDigest (digestBytes s.twin.own)).onTwin
      (fun t => { t with own := [], mine := t.mine ++ s.twin.own })).compareDigests := by
  have hon' : s.fresh.twinOn = true := hon
  have hr' : s.fresh.role ≠ .solo := hr
  unfold execDigestSend
  extract_lets s1 own s2
  rw [if_neg (by simp [s1, hon', hr'])]
  rfl

theorem execDigestSend_off (h : s.twinOn = false ∨ s.role = .solo) :
    execDigestSend s = .next { s with emitted := [], twin := { s.twin with own := [] } } := by
  have h' : s.fresh.twinOn = false ∨ s.fresh.role = .solo := h
  unfold execDigestSend
  extract_lets s1 own s2
  rw [if_pos (by simpa [s1] using h')]
  rfl

theorem execDigest_off (h : s.twinOn = false ∨ s.role = .solo) (l : List DigestEntry) : execDigest l s = .next s.fresh := by
  have h' : s.fresh.twinOn = false ∨ s.fresh.role = .solo := h
  unfold execDigest
  extract_lets s1 l1
  rw [if_pos (by simpa [s1] using h')]
  rfl

/-- The first digest received. -/
theorem execDigest_one (e : DigestEntry) (hon : s.twinOn = true) (hr : s.role ≠ .solo) (h0 : s.twin.theirs = []) : execDigest [e] s =
    .next ((s.fresh.onTwin (fun t => { t with theirs := [(e.output.val, e.frame.toNat, e.digest.toNat)] })).compareDigest
      (e.output.val, e.frame.toNat, e.digest.toNat)) := by
  have hon' : s.fresh.twinOn = true := hon
  have hr' : s.fresh.role ≠ .solo := hr
  have h0' : s.fresh.twin.theirs = [] := h0
  unfold execDigest
  extract_lets s1 l1
  rw [if_neg (by simp [s1, hon', hr'])]
  have hs : s1.onTwin (fun t => { t with theirs := t.theirs ++ l1 }) =
      s.fresh.onTwin (fun t => { t with theirs := [(e.output.val, e.frame.toNat, e.digest.toNat)] }) := by
    show s.fresh.onTwin (fun t => { t with theirs := t.theirs ++ l1 }) = _
    simp only [State.onTwin, h0', List.nil_append]
    rfl
  rw [hs, State.compareDigests_eq]
  rfl

/-- The oldest digest of an output that waits for its counterpart. -/
theorem execDigestMissing_some {o : Fin 2048} {e : Nat × Nat × Nat}
    (h : (s.twin.mine.find? (fun e => e.1 == o.val)).or (s.twin.theirs.find? (fun e => e.1 == o.val)) = some e) : execDigestMissing o s =
    .next ((s.fresh.onTwin (fun t => { t with mine := t.mine.filter (· != e), theirs := t.theirs.filter (· != e) })).judgeDigest
      o.val e.2.1 false) := by
  have h' : (s.fresh.twin.mine.find? (fun e => e.1 == o.val)).or (s.fresh.twin.theirs.find? (fun e => e.1 == o.val)) = some e := h
  unfold execDigestMissing
  extract_lets s1 mine
  rw [h']
  rfl

theorem execDigestMissing_none {o : Fin 2048}
    (h : (s.twin.mine.find? (fun e => e.1 == o.val)).or (s.twin.theirs.find? (fun e => e.1 == o.val)) = none) :
    execDigestMissing o s = .next s.fresh := by
  have h' : (s.fresh.twin.mine.find? (fun e => e.1 == o.val)).or (s.fresh.twin.theirs.find? (fun e => e.1 == o.val)) = none := h
  unfold execDigestMissing
  extract_lets s1 mine
  rw [h']
  rfl

/-! ### Mirrors applied (R353) -/

/-- A mirror applied: its command is executed where it was not at once, and it leaves the queue. -/
def State.applyMirror (m : Mirror) (rest : List Mirror) (s : State) : State :=
  (if m.early then s else (ansState s (s.runMirror m)).rewait m (s.runMirror m)).onTwin
    (fun t => { t with mirrors := rest, rec_ := fput t.rec_ Twin.mirrorSeq m.mseq })

theorem State.applyMirror_seq (m : Mirror) (rest : List Mirror) :
    fget (s.applyMirror m rest).twin.rec_ Twin.mirrorSeq = m.mseq % 2 ^ 32 := by
  rw [State.applyMirror, State.onTwin_twin]
  exact fget_fput _ _ _ (by decide)

/-- A command done at once leaves its own state, but for the twin's and the stamp of the receipt time. -/
theorem State.applyMirror_now {m : Mirror} {rest : List Mirror} {u : State} {res : List Byte} (he : m.early = false)
    (hr : s.runMirror m = .ok (.now u res)) : (s.applyMirror m rest).kept 0x80004 = u.kept 0x80004 := by
  rw [State.applyMirror, he, hr, if_neg Bool.false_ne_true]
  exact (State.kept_onTwin ..).trans ((State.rewait_kept (μ := 0x80004) ..).trans (State.unstamp_kept u))

theorem execMirrorApply_due {m : Mirror} {rest : List Mirror} (h : s.twin.mirrors = m :: rest) (ht : m.target ≤ s.now)
    (hf : s.pwr.bootState = .firmware) : execMirrorApply s = .next (s.fresh.applyMirror m rest) := by
  have h' : s.fresh.twin.mirrors = m :: rest := h
  have ht' : ¬ s.fresh.now < m.target := ht.not_gt
  unfold execMirrorApply
  extract_lets s1
  rw [h']
  dsimp only
  rw [if_neg (by simp [s1, ht', hf])]
  rfl

theorem execMirrorApply_waits (h : s.twin.mirrors = [] ∨ ∃ m rest, s.twin.mirrors = m :: rest ∧ s.now < m.target) :
    execMirrorApply s = .next s.fresh := by
  unfold execMirrorApply
  extract_lets s1
  rcases h with h | ⟨m, rest, h, ht⟩
  · have h' : s1.twin.mirrors = [] := h
    rw [h']
    rfl
  · have h' : s1.twin.mirrors = m :: rest := h
    have ht' : s1.now < m.target := ht
    rw [h']
    dsimp only
    rw [if_pos (by simp [ht'])]
    rfl

/-! ### Acknowledgements received, and none in time (R354) -/

theorem execMirrorAck_heard {n : BitVec 32} {st : BitVec 16} {m : Mirror} (hr : s.role = .primary)
    (h : s.twin.mirrors.find? (fun m => m.mseq == n.toNat && !m.acked) = some m) : execMirrorAck n st s = .next
      (if st = 0 then (s.fresh.answerMirror m).ackMirror m.mseq else ((s.fresh.answerMirror m).ackMirror m.mseq).unsync 1) := by
  have hr' : s.fresh.role = .primary := hr
  have h' : s.fresh.twin.mirrors.find? (fun m => m.mseq == n.toNat && !m.acked) = some m := h
  unfold execMirrorAck
  extract_lets s1
  rw [if_neg (by simp [s1, hr']), h']
  rfl

theorem execMirrorAck_unheard {n : BitVec 32} {st : BitVec 16}
    (h : s.role ≠ .primary ∨ s.twin.mirrors.find? (fun m => m.mseq == n.toNat && !m.acked) = none) :
    execMirrorAck n st s = .next s.fresh := by
  have h' : s.fresh.role ≠ .primary ∨ s.fresh.twin.mirrors.find? (fun m => m.mseq == n.toNat && !m.acked) = none := h
  unfold execMirrorAck
  extract_lets s1
  split
  · rfl
  · next hn =>
    rw [h'.resolve_left (by simpa [s1] using hn)]
    rfl

theorem execMirrorAckTimeout_due {m : Mirror} (hr : s.role = .primary)
    (h : s.twin.mirrors.find? (fun m => !m.acked && decide (m.target ≤ s.now + 200000)) = some m) :
    execMirrorAckTimeout s = .next (((s.fresh.answerMirror m).ackMirror m.mseq).unsync 2) := by
  have hr' : s.fresh.role = .primary := hr
  have h' : s.fresh.twin.mirrors.find? (fun m => !m.acked && decide (m.target ≤ s.fresh.now + 200000)) = some m := h
  unfold execMirrorAckTimeout
  extract_lets s1
  rw [if_neg (by simp [s1, hr']), h']
  rfl

theorem execMirrorAckTimeout_none
    (h : s.role ≠ .primary ∨ s.twin.mirrors.find? (fun m => !m.acked && decide (m.target ≤ s.now + 200000)) = none) :
    execMirrorAckTimeout s = .next s.fresh := by
  have h' : s.fresh.role ≠ .primary ∨ s.fresh.twin.mirrors.find? (fun m => !m.acked && decide (m.target ≤ s.fresh.now + 200000)) = none := h
  unfold execMirrorAckTimeout
  extract_lets s1
  split
  · rfl
  · next hn =>
    rw [h'.resolve_left (by simpa [s1] using hn)]
    rfl

theorem State.ackAnswered_unsynced {m : Mirror} {reason : Nat} (hr : s.role = .primary) (hs : s.sync = 1 ∨ s.sync = 2) :
    (((s.answerMirror m).ackMirror m.mseq).unsync reason).sync = 3 ∧
    (0xFB, locTwin) ∈ (((s.answerMirror m).ackMirror m.mseq).unsync reason).flt.status := by
  refine State.unsync_lost _ ?_ ?_
  · rw [State.ackAnswered_role, hr]
    exact Role.noConfusion
  · rw [State.ackAnswered_sync]
    exact hs

theorem State.ackAnswered_mirrors (m : Mirror) : ((s.answerMirror m).ackMirror m.mseq).twin.mirrors =
    s.twin.mirrors.map (fun x => if x.mseq == m.mseq then { x with acked := true } else x) := by
  rw [State.ackAnswered_twin]

/-! ### Resynchronisation (R358) -/

theorem execResyncStart_may (h : s.mayResync = true) : execResyncStart s = .next
    ((s.fresh.onTwin (fun t => { t with resync := some (s.now + 500000000), resynced := false, lastResync := some s.time.clk })).sendMessage
      7 msgResync (leBytes 8 (s.now + 500000000))) := by
  have h' : s.fresh.mayResync = true := h
  unfold execResyncStart
  extract_lets s1 tr
  rw [if_neg (by simp [s1, h'])]
  rfl

theorem execResyncStart_not (h : s.mayResync = false) : execResyncStart s = .next s.fresh := by
  have h' : s.fresh.mayResync = false := h
  unfold execResyncStart
  extract_lets s1 tr
  rw [if_pos (by simp [s1, h'])]
  rfl

/-- Where mirroring resumes, SYNC alone of the record changes. -/
theorem State.resumeMirrors_twin : ∃ r, s.resumeMirrors.twin = { s.twin with
      rec_ := r, resync := none, resynced := true, mirroring := true, mirrors := [], matched := [], mine := [], theirs := [] } ∧
    fget r Twin.mirrorSeq = fget s.twin.rec_ Twin.mirrorSeq := by
  have h1 : fget (fput s.twin.rec_ Twin.sync 1) Twin.mirrorSeq = fget s.twin.rec_ Twin.mirrorSeq :=
    fget_fput_of_disjoint _ _ _ _ (by decide) (by decide)
  unfold State.resumeMirrors State.checkSynced
  split
  · exact ⟨_, rfl, (fget_fput_of_disjoint _ _ _ _ (by decide) (by decide)).trans h1⟩
  · exact ⟨_, rfl, h1⟩

theorem State.takeCopy_seq (c : HwCopy) : fget (s.takeCopy c).twin.rec_ Twin.mirrorSeq = c.mirrorSeq.toNat := by
  unfold State.takeCopy
  extract_lets s1
  rw [State.twinF_twin]
  exact (fget_fput _ _ _ (by decide)).trans (Nat.mod_eq_of_lt c.mirrorSeq.isLt)

theorem State.resumeMirrors_resumed : s.resumeMirrors.twin.resync = none ∧ s.resumeMirrors.twin.resynced = true ∧
    s.resumeMirrors.twin.mirroring = true ∧ s.resumeMirrors.twin.mirrors = [] := by
  obtain ⟨r, h, -⟩ := s.resumeMirrors_twin
  rw [h]
  exact ⟨rfl, rfl, rfl, rfl⟩

theorem execResyncPoint_shadow (c : HwCopy) (hr : s.role = .shadow) (hp : s.pathOk false = true) :
    execResyncPoint c s = .next (s.fresh.takeCopy c).resumeMirrors := by
  have hr' : s.fresh.role = .shadow := hr
  have hp' : s.fresh.pathOk false = true := hp
  unfold execResyncPoint
  extract_lets s1
  rw [hr']
  dsimp only
  rw [if_pos hp']
  rfl

theorem execResyncPoint_primary (c : HwCopy) (hr : s.role = .primary) {tr : Nat} (h : s.twin.resync = some tr) (ht : tr ≤ s.now) :
    execResyncPoint c s = .next s.fresh.resumeMirrors := by
  have hr' : s.fresh.role = .primary := hr
  have h' : s.fresh.twin.resync = some tr := h
  have ht' : tr ≤ s.fresh.now := ht
  unfold execResyncPoint
  extract_lets s1
  rw [hr']
  dsimp only
  rw [h']
  dsimp only
  rw [if_pos ht']
  rfl

theorem execResyncPoint_none (c : HwCopy)
    (h : s.role = .solo ∨ (s.role = .shadow ∧ s.pathOk false = false) ∨ (s.role = .primary ∧ s.twin.resync = none)) :
    execResyncPoint c s = .next s.fresh := by
  unfold execResyncPoint
  extract_lets s1
  rcases h with hr | ⟨hr, hp⟩ | ⟨hr, hn⟩
  · have hr' : s1.role = .solo := hr
    rw [hr']
    rfl
  · have hr' : s1.role = .shadow := hr
    have hp' : s1.pathOk false = false := hp
    rw [hr']
    dsimp only
    rw [hp']
    rfl
  · have hr' : s1.role = .primary := hr
    have hn' : s1.twin.resync = none := hn
    rw [hr']
    dsimp only
    rw [hn']
    rfl

theorem execResyncTimeout_lost (h : s.twin.resynced = true) (hs : s.sync = 1) :
    execResyncTimeout s = .next ((s.fresh.unsync 7).onTwin (fun t => { t with resynced := false })) := by
  have hs' : s.fresh.sync = 1 := hs
  unfold execResyncTimeout
  extract_lets s1
  rw [if_pos (by simp [s1, h, hs'])]
  rfl

theorem execResyncTimeout_none (h : s.twin.resynced = false ∨ s.sync ≠ 1) : execResyncTimeout s = .next s.fresh := by
  have h' : s.fresh.twin.resynced = false ∨ s.fresh.sync ≠ 1 := h
  unfold execResyncTimeout
  extract_lets s1
  rw [if_neg]
  · rfl
  · rw [Bool.and_eq_true, decide_eq_true_eq]
    rintro ⟨hn, hs⟩
    exact h'.elim (fun h0 => Bool.false_ne_true (h0.symm.trans hn)) (fun h1 => h1 hs)

end

/-- Settles O57, mirror by mirror and digest by digest. A mirror with a TARGET of its own is executed as it arrives at the mirror TARGET (log
entry 19), the heartbeats that carry SYNC (log entry 54) have no part here, and path A is link 7 (log entry 92). -/
theorem twinsMirrorCompareAndResynchronise : Obligations.TwinsMirrorCompareAndResynchronise := by
  refine ⟨?_, ?_, ?_, fun s n op q st tg hq h => execMirror_unheard s hq h, ?_, fun s h => execMirrorApply_waits s h, ?_,
    fun s n st h => execMirrorAck_unheard s h, ?_, fun s h => execMirrorAckTimeout_none s h, ?_,
    fun s h => ⟨execDigestSend_off s h, execDigest_off s h⟩, ?_, ?_, fun s o h => execDigestMissing_none s h, ?_,
    fun s h => execResyncStart_not s h, ?_, fun s c h => execResyncPoint_none s c h, ?_, fun s h => execResyncTimeout_none s h⟩
  case refine_1 =>
    intro s n op q st tg hq hr hf hn ht hown
    obtain ⟨hm, hb, hk⟩ := State.takeMirror_queued s.fresh (m := ⟨n.toNat, op.toNat, q, tg.toNat, ownTarget op.toNat q != 0, true, []⟩)
      st.toNat rfl
    have he : (ownTarget op.toNat q != 0) = false := by simp [hown]
    rw [he] at hm hb hk
    refine ⟨_, execMirror_taken s hq hr hf hn ht, ?_⟩
    rw [he]
    exact ⟨hm, hb, mem_of_kept hk, rte_of_kept hk, bud_of_kept hk, sdi_of_kept hk, eth_of_kept hk, flo_of_kept hk, cmp_of_kept hk,
      ref_of_kept hk⟩
  case refine_2 =>
    intro s n op q st tg m u hq hr hf hn ht hown hm hu
    have he : (ownTarget op.toNat q != 0) = true := by simpa using hown
    subst hm
    obtain ⟨hmir, -, hk⟩ := State.takeMirror_queued s.fresh (u := u) (m := ⟨n.toNat, op.toNat, q, tg.toNat, true, true, []⟩) st.toNat hu
    refine ⟨_, execMirror_taken s hq hr hf hn ht, ?_⟩
    rw [he]
    exact ⟨hmir, mem_of_kept hk, rte_of_kept hk, bud_of_kept hk, cmp_of_kept hk, cal_of_kept hk⟩
  case refine_3 =>
    intro s n op q st tg hq hr hf h hs
    obtain ⟨h3, hst⟩ := State.unsync_lost s.fresh (reason := 3) (by
      rw [show s.fresh.role = .shadow from hr]
      exact Role.noConfusion) hs
    exact ⟨_, execMirror_late s hq hr hf h, h3, hst, State.unsync_mirrors s.fresh 3⟩
  case refine_4 =>
    intro s m rest h ht hf
    refine ⟨_, execMirrorApply_due s h ht hf, rfl, State.applyMirror_seq .., fun u res he hr => ?_⟩
    have hk := State.applyMirror_now s.fresh (rest := rest) he hr
    exact ⟨mem_of_kept hk, rte_of_kept hk, bud_of_kept hk, sdi_of_kept hk, eth_of_kept hk, flo_of_kept hk, cmp_of_kept hk, cal_of_kept hk,
      ref_of_kept hk⟩
  case refine_5 =>
    intro s n st m hr h
    refine ⟨_, execMirrorAck_heard s hr h, ?_, fun h0 => ?_, fun h0 hs => ?_⟩
    · split
      · exact State.ackAnswered_mirrors s.fresh m
      · exact (State.unsync_mirrors ..).trans (State.ackAnswered_mirrors s.fresh m)
    · rw [if_pos h0]
      exact State.ackAnswered_sync s.fresh m
    · rw [if_neg h0]
      exact State.ackAnswered_unsynced s.fresh hr hs
  case refine_6 =>
    intro s m hr hs h
    obtain ⟨h3, hst⟩ := State.ackAnswered_unsynced s.fresh (m := m) (reason := 2) hr hs
    exact ⟨_, execMirrorAckTimeout_due s hr h, h3, hst, (State.unsync_mirrors ..).trans (State.ackAnswered_mirrors s.fresh m)⟩
  case refine_7 =>
    intro s hon hr
    obtain ⟨b, hb⟩ := State.mem_sendMessage_emitted s.fresh 7 msgDigest (digestBytes s.twin.own)
    refine ⟨_, execDigestSend_sent s hon hr, State.compareDigests_own _, ⟨b, State.mem_compareDigests_emitted _ hb⟩, fun h0 => ?_⟩
    have htw : (s.fresh.sendMessage 7 msgDigest (digestBytes s.twin.own)).twin = s.twin := State.sendMessage_twin ..
    rw [State.compareDigests_eq, State.onTwin_twin, htw, h0]
    show ((s.fresh.sendMessage 7 msgDigest (digestBytes s.twin.own)).twin.mine ++ s.twin.own) = _
    rw [htw]
  case refine_8 =>
    intro s e hon hr h0
    refine ⟨_, execDigest_one s e hon hr h0, fun hnone => ?_, fun m hsome => ?_⟩
    · unfold State.compareDigest
      rw [State.onTwin_twin, show s.fresh.twin.mine.find? _ = none from hnone]
      exact ⟨rfl, rfl⟩
    · obtain ⟨hmine, htheirs, hok, hbad⟩ := State.compareDigest_some
        (s.fresh.onTwin (fun t => { t with theirs := [(e.output.val, e.frame.toNat, e.digest.toNat)] }))
        (e := (e.output.val, e.frame.toNat, e.digest.toNat)) hsome
      exact ⟨htheirs.trans (List.erase_cons_head ..), hmine, hok, hbad⟩
  case refine_9 =>
    intro s o e h
    obtain ⟨r, htw, hev⟩ := State.judgeDigest_bad
      (s.fresh.onTwin (fun t => { t with mine := t.mine.filter (· != e), theirs := t.theirs.filter (· != e) })) o.val e.2.1
    refine ⟨_, execDigestMissing_some s h, ?_, ?_, fun ho => (hev ho).1⟩
    · rw [htw, State.onTwin_twin]
      simp
    · rw [htw, State.onTwin_twin]
      simp
  case refine_10 =>
    intro s h
    refine ⟨_, execResyncStart_may s h, ?_, ?_, ?_, State.mem_sendMessage_emitted ..⟩
    all_goals rw [State.sendMessage_twin, State.onTwin_twin]
  case refine_11 =>
    rintro s c (⟨hr, hp⟩ | ⟨hr, tr, h, ht⟩)
    · obtain ⟨h1, h2, h3, h4⟩ := State.resumeMirrors_resumed (s.fresh.takeCopy c)
      refine ⟨_, execResyncPoint_shadow s c hr hp, h1, h2, h3, h4, fun _ => ?_⟩
      obtain ⟨r, htw, hseq⟩ := State.resumeMirrors_twin (s.fresh.takeCopy c)
      rw [htw]
      exact hseq.trans (State.takeCopy_seq ..)
    · obtain ⟨h1, h2, h3, h4⟩ := State.resumeMirrors_resumed s.fresh
      exact ⟨_, execResyncPoint_primary s c hr h ht, h1, h2, h3, h4, fun hr' => absurd (hr.symm.trans hr') Role.noConfusion⟩
  case refine_12 =>
    intro s h hs hr
    obtain ⟨h3, hst⟩ := State.unsync_lost s.fresh (reason := 7) hr (Or.inl hs)
    exact ⟨_, execResyncTimeout_lost s h hs, h3, rfl, hst⟩

end Sys2Proof.Machine
end


section
/-! PROOFS. A link's state and its lanes, read after each write of them, and what a link that runs, a decision sent and a lane dropped leave
(R327 to R333). -/

set_option Elab.async false

namespace Sys2Proof.Machine

open Sys2Proof

/-! ### Reads of links and lanes after writes -/

/-- Links' states, lane records and lane counts. -/
def TrpSt.lanes (t : TrpSt) : Tab LinkSt × Tab (BitVec 64) × Tab LaneRun := (t.linkSt, t.lane, t.laneRun)

section
variable (s : State)

theorem State.linkSt_setLinkSt (k : Nat) (v : LinkSt) (n : Nat) : (s.setLinkSt k v).linkSt n = if n = k then v else s.linkSt n := tget_tset ..

@[simp] theorem State.linkSt_setLinkSt_same (k : Nat) (v : LinkSt) : (s.setLinkSt k v).linkSt k = v := tget_tset_same ..

@[simp] theorem State.svLane_setLinkSt (k : Nat) (v : LinkSt) (l : Nat) : (s.setLinkSt k v).svLane l = s.svLane l := rfl

@[simp] theorem State.flt_setLinkSt (k : Nat) (v : LinkSt) : (s.setLinkSt k v).flt = s.flt := rfl

@[simp] theorem State.linkSt_setSvRun (l : Nat) (v : LaneRun) (k : Nat) : (s.setSvRun l v).linkSt k = s.linkSt k := rfl

@[simp] theorem State.svLane_setSvRun (l : Nat) (v : LaneRun) (x : Nat) : (s.setSvRun l v).svLane x = s.svLane x := rfl

theorem State.svRun_setSvRun (l : Nat) (v : LaneRun) (x : Nat) : (s.setSvRun l v).svRun x = if x = l then v else s.svRun x := tget_tset ..

@[simp] theorem State.svRun_setSvRun_same (l : Nat) (v : LaneRun) : (s.setSvRun l v).svRun l = v := tget_tset_same ..

@[simp] theorem State.linkSt_setSvLane (l : Nat) (v : BitVec 64) (k : Nat) : (s.setSvLane l v).linkSt k = s.linkSt k := rfl

theorem State.svLane_setSvLane (l : Nat) (v : BitVec 64) (x : Nat) : (s.setSvLane l v).svLane x = if x = l then v else s.svLane x := tget_tset ..

@[simp] theorem State.linkSt_laneF (l : Nat) (f : Fld) (v k : Nat) : (s.laneF l f v).linkSt k = s.linkSt k := rfl

theorem State.svLane_laneF (l : Nat) (f : Fld) (v x : Nat) : (s.laneF l f v).svLane x = if x = l then fput (s.svLane l) f v else s.svLane x :=
  State.svLane_setSvLane ..

@[simp] theorem State.svRun_laneF (l : Nat) (f : Fld) (v x : Nat) : (s.laneF l f v).svRun x = s.svRun x := rfl

@[simp] theorem State.linkRec_laneF (l : Nat) (f : Fld) (v n : Nat) : (s.laneF l f v).linkRec n = s.linkRec n := rfl

@[simp] theorem State.flt_laneF (l : Nat) (f : Fld) (v : Nat) : (s.laneF l f v).flt = s.flt := rfl

@[simp] theorem State.linkSt_linkF (k : Nat) (f : Fld) (v n : Nat) : (s.linkF k f v).linkSt n = s.linkSt n := rfl

@[simp] theorem State.svLane_linkF (k : Nat) (f : Fld) (v l : Nat) : (s.linkF k f v).svLane l = s.svLane l := rfl

@[simp] theorem State.linkRec_linkF_same (k : Nat) (f : Fld) (v : Nat) : (s.linkF k f v).linkRec k = fput (s.linkRec k) f v := by
  rw [State.linkF, State.linkRec_setLink, if_pos rfl]

@[simp] theorem State.flt_linkF (k : Nat) (f : Fld) (v : Nat) : (s.linkF k f v).flt = s.flt := rfl

theorem State.laneCount_lane (l : Nat) (f : Fld) (v : Nat) (r : LaneRun) (k : Nat) :
    ((s.laneF l f v).setSvRun l r).laneCount k = s.laneCount k := rfl

/-- The field of a lane just written. -/
theorem State.fget_laneF {f : Fld} {v : Nat} (l : Nat) (hw : f.lo + f.width ≤ 64) (hv : v < 2 ^ f.width) :
    fget ((s.laneF l f v).svLane l) f = v := by
  rw [State.svLane_laneF, if_pos rfl, fget_fput _ _ _ hw, Nat.mod_eq_of_lt hv]

/-- Another field of it, or of another lane. -/
theorem State.fget_laneF_of_ne {f g : Fld} {v : Nat} (l x : Nat) (hw : f.lo + f.width ≤ 64)
    (h : x = l → g.lo + g.width ≤ f.lo ∨ f.lo + f.width ≤ g.lo) : fget ((s.laneF l f v).svLane x) g = fget (s.svLane x) g := by
  rw [State.svLane_laneF]
  split
  next hx => rw [fget_fput_of_disjoint _ _ _ _ hw (h hx), hx]
  next => rfl

/-- A lane's field written and not another value kept: `v` stays `v`. -/
theorem State.fget_laneF_keeps {f : Fld} {v : Nat} (l x : Nat) (hw : f.lo + f.width ≤ 64) (hv : v < 2 ^ f.width)
    (h : fget (s.svLane x) f = v) : fget ((s.laneF l f v).svLane x) f = v := by
  by_cases hx : x = l
  · rw [hx, State.fget_laneF s l hw hv]
  · rw [State.fget_laneF_of_ne s l x hw (fun hx' => absurd hx' hx), h]

end

section
variable {s t : State}

theorem lanes_linkSt (h : t.trp.lanes = s.trp.lanes) (k : Nat) : t.linkSt k = s.linkSt k := by
  rw [State.linkSt, show t.trp.linkSt = s.trp.linkSt from congrArg Prod.fst h, State.linkSt]

theorem lanes_svLane (h : t.trp.lanes = s.trp.lanes) (l : Nat) : t.svLane l = s.svLane l := by
  rw [State.svLane, show t.trp.lane = s.trp.lane from congrArg (·.2.1) h, State.svLane]

theorem lanes_svRun (h : t.trp.lanes = s.trp.lanes) (l : Nat) : t.svRun l = s.svRun l := by
  rw [State.svRun, show t.trp.laneRun = s.trp.laneRun from congrArg (·.2.2) h, State.svRun]

theorem lanes_laneState (h : t.trp.lanes = s.trp.lanes) (l : Nat) : t.laneState l = s.laneState l := by
  rw [State.laneState, lanes_svLane h, State.laneState]

theorem lanes_of_trp (h : t.trp = s.trp) : t.trp.lanes = s.trp.lanes := congrArg _ h

theorem linkRec_of_trp (h : t.trp = s.trp) (n : Nat) : t.linkRec n = s.linkRec n := by rw [State.linkRec, h, State.linkRec]

end

/-! ### A link that runs: its exports, its events, REACH (R338, R340) -/

section
variable (s : State) (k : Nat)

theorem State.linkF_lanes (f : Fld) (v : Nat) : (s.linkF k f v).trp.lanes = s.trp.lanes := rfl

theorem State.setExp_leaves (i : Nat) (e : BitVec 128) : ((s.setExp i e).trp.lanes, (s.setExp i e).trp.link, (s.setExp i e).flt) =
    (s.trp.lanes, s.trp.link, s.flt) := rfl

theorem State.updateReach_lanes : (s.updateReach k).trp.lanes = s.trp.lanes := by
  obtain ⟨reach, leader, h⟩ := s.updateReach_trp k
  rcases h with h | h <;> rw [h] <;> rfl

theorem State.updateReach_linkRec (n : Nat) : (s.updateReach k).linkRec n = s.linkRec n := by
  obtain ⟨reach, leader, h⟩ := s.updateReach_trp k
  have hl : (s.updateReach k).trp.link = s.trp.link := by rcases h with h | h <;> rw [h]
  rw [State.linkRec, hl, State.linkRec]

/-- Exports that no longer fit, or fit again, change the exports alone. -/
theorem State.refit_leaves : (s.refit k).1.trp.lanes = s.trp.lanes ∧ (∀ n, (s.refit k).1.linkRec n = s.linkRec n) ∧
    (s.refit k).1.flt = s.flt := by
  unfold State.refit
  extract_lets l fits out s1 again
  have h1 : (s1.trp.lanes, s1.trp.link, s1.flt) = (s.trp.lanes, s.trp.link, s.flt) :=
    foldl_leaves (fun t : State => (t.trp.lanes, t.trp.link, t.flt)) (f := fun s i => s.setExp i (fput (s.exp i) Export.expState 2))
      (fun t i => State.setExp_leaves ..) out s
  simp only [Prod.mk.injEq] at h1
  obtain ⟨hlanes, hlink, hflt⟩ := h1
  refine ⟨hlanes, fun n => ?_, hflt⟩
  show tget linkReset s1.trp.link n = _
  rw [hlink, State.linkRec]

/-- The record of a link that runs. -/
def State.runRec (s : State) (k : Nat) : State :=
  ((s.linkF k Link.linkState (if (s.linkSt k).active.length == s.laneCount k then 2 else 3)).linkF k Link.actRate (s.linkSt k).rate).linkF k
    Link.actLanes (s.linkSt k).active.length

theorem State.runRec_lanes : (s.runRec k).trp.lanes = s.trp.lanes := by
  rw [State.runRec, State.linkF_lanes, State.linkF_lanes, State.linkF_lanes]

theorem State.runRec_linkState :
    fget ((s.runRec k).linkRec k) Link.linkState = if (s.linkSt k).active.length = s.laneCount k then 2 else 3 := by
  rw [State.runRec, State.linkRec_linkF_same, State.linkRec_linkF_same, State.linkRec_linkF_same,
    fget_fput_of_disjoint _ _ _ _ (by decide) (by decide), fget_fput_of_disjoint _ _ _ _ (by decide) (by decide), fget_fput _ _ _ (by decide)]
  simp only [beq_iff_eq]
  split <;> rfl

/-- What UP and DEGRADED share. -/
theorem State.runLink_facts : (s.runLink k).trp.lanes = s.trp.lanes ∧
    fget ((s.runLink k).linkRec k) Link.linkState = (if (s.linkSt k).active.length = s.laneCount k then 2 else 3) ∧
    ((if (s.linkSt k).active.length = s.laneCount k then 0xF0 else 0xF2), locLink k) ∈ (s.runLink k).flt.status := by
  unfold State.runLink
  extract_lets v full s1 was
  have hs1 : s1 = s.runRec k := rfl
  clear_value s1
  subst hs1
  split
  next _ s2 out hs2 =>
  extract_lets s3
  obtain ⟨hlanes, hrec, -⟩ := (s.runRec k).refit_leaves k
  rw [hs2] at hlanes hrec
  have h3 : s3.trp = s2.trp ∧ ((if v.active.length = s.laneCount k then 0xF0 else 0xF2), locLink k) ∈ s3.flt.status := by
    unfold s3 full
    simp only [beq_iff_eq]
    split
    · refine ⟨(State.raise_trp (show evClass 0xF0 ≠ 3 by decide) _).trans ?_, State.raise_status (Ev.plain 0xF0 (locLink k)) _⟩
      split
      · exact State.raise_trp (show evClass 0xF2 ≠ 3 by decide) _
      · rfl
    · exact ⟨State.raise_trp (show evClass 0xF2 ≠ 3 by decide) _, State.raise_status (Ev.mk 0xF2 (locLink k) true 0 _) _⟩
  obtain ⟨htrp, hst⟩ := h3
  have hall : s3.reboundAll.trp = s2.trp := (State.reboundAll_trp ..).trans htrp
  refine ⟨((lanes_of_trp hall).trans hlanes).trans (State.runRec_lanes s k), ?_, State.reboundAll_grows _ hst⟩
  rw [linkRec_of_trp hall, hrec]
  exact State.runRec_linkState s k

/-- A spare called in changes the state of a lane that was neither FAILED nor in the link's order. -/
theorem State.callSpare_facts : (∀ n, (s.callSpare k).linkSt n = s.linkSt n) ∧ (∀ n, (s.callSpare k).linkRec n = s.linkRec n) ∧
    (∀ l, (s.callSpare k).svRun l = s.svRun l) ∧ (s.callSpare k).flt = s.flt ∧
    (∀ l, l ∈ (s.linkSt k).order ∨ s.laneState l = laneFailed → (s.callSpare k).laneState l = s.laneState l) := by
  unfold State.callSpare
  extract_lets v spares
  split
  · exact ⟨fun _ => rfl, fun _ => rfl, fun _ => rfl, rfl, fun _ _ => rfl⟩
  · rcases hs : spares with _ | ⟨x, xs⟩
    · exact ⟨fun _ => rfl, fun _ => rfl, fun _ => rfl, rfl, fun _ _ => rfl⟩
    · have hx : x ∈ spares := by simp [hs]
      have hx' := (List.mem_filter.1 hx).2
      simp only [Bool.and_eq_true, Bool.not_eq_true', bne_iff_ne, List.contains_eq_mem, decide_eq_false_iff_not] at hx'
      obtain ⟨⟨hord, hfail⟩, -⟩ := hx'
      refine ⟨fun _ => State.linkSt_laneF .., fun _ => State.linkRec_laneF .., fun _ => State.svRun_laneF .., State.flt_laneF .., fun l hl => ?_⟩
      have hlx : l ≠ x := by
        rintro rfl
        exact hl.elim hord hfail
      exact State.fget_laneF_of_ne s x l (by decide) (fun h => absurd h hlx)

end

/-! ### Messages leave the lanes in use as they are -/

section
variable (s : State)

/-- A link's lanes, by position and those in use. -/
def State.inUse (s : State) (k : Nat) : BringUp × List Nat × List Nat := ((s.linkSt k).phase, (s.linkSt k).order, (s.linkSt k).active)

theorem State.sendCell_inUse (n typ idx dest : Nat) (payload : List Byte) (k : Nat) : (s.sendCell n typ idx dest payload).inUse k = s.inUse k := by
  have h : (s.sendCell n typ idx dest payload).linkSt k = if k = n then { s.linkSt n with lseq := (s.linkSt n).lseq + 1 } else s.linkSt k :=
    State.linkSt_setLinkSt ..
  rw [State.inUse, h]
  split
  next hk => rw [hk]; rfl
  next => rfl

theorem State.sendCell_svRun (n typ idx dest : Nat) (payload : List Byte) (l : Nat) : (s.sendCell n typ idx dest payload).svRun l = s.svRun l := rfl

theorem State.sendMessage_inUse (n typ : Nat) (bytes : List Byte) (k : Nat) : (s.sendMessage n typ bytes).inUse k = s.inUse k := by
  unfold State.sendMessage
  extract_lets fs id
  exact foldl_leaves (fun t : State => t.inUse k) (fun t b => State.sendCell_inUse ..) _ (s.onTrp (fun t => { t with msgId := id + 1 }))

theorem State.sendMessage_svRun (n typ : Nat) (bytes : List Byte) (l : Nat) : (s.sendMessage n typ bytes).svRun l = s.svRun l := by
  unfold State.sendMessage
  extract_lets fs id
  exact foldl_leaves (fun t : State => t.svRun l) (fun t b => State.sendCell_svRun ..) _ (s.onTrp (fun t => { t with msgId := id + 1 }))

end

end Sys2Proof.Machine
end


section
/-! PROOFS. The events of a link's bring-up and of its lanes (R327 to R333, R343), each by the phase or the marker it finds. -/

set_option Elab.async false

namespace Sys2Proof.Machine

open Sys2Proof

section
variable (s : State) (k : Fin 7)

/-! ### Detection and capabilities (R327, R329) -/

/-- The lanes on which markers were found. -/
def State.foundLanes (s : State) (k : Nat) (f : Nat) : List Nat :=
  ((s.linkSt k).order.zipIdx.filter (fun e => maskBit f e.2 && s.laneState e.1 == laneTraining)).map (·.1)

theorem execLinkDetect_found {f : BitVec 8} (hp : (s.linkSt k.val).phase = .detect) (hl : s.foundLanes k.val f.toNat ≠ []) :
    ∃ t, execLinkDetect k f s = .next t ∧ (t.linkSt k.val).phase = .exchange ∧ (t.linkSt k.val).active = s.foundLanes k.val f.toNat := by
  have hp' : (s.fresh.linkSt k.val).phase = .detect := hp
  unfold execLinkDetect
  extract_lets s1 v lanes out
  have hne : lanes.isEmpty = false := by rwa [List.isEmpty_eq_false_iff]
  have hv : v.phase = .detect := hp'
  rw [if_neg (by simp [hv, hne])]
  refine ⟨_, rfl, ?_, ?_⟩
  all_goals rw [State.linkSt_setLinkSt_same]
  rfl

theorem execLinkDetect_other {f : BitVec 8} (hp : (s.linkSt k.val).phase ≠ .detect) : execLinkDetect k f s = .next s.fresh := by
  unfold execLinkDetect
  extract_lets s1 v lanes out
  have hv : v.phase ≠ .detect := hp
  rw [if_pos (by simp [hv])]
  rfl

theorem State.holdLink_linkSt (n : Nat) : (s.holdLink n).linkSt n = { s.linkSt n with phase := .held, active := [] } := by
  rw [State.holdLink, State.linkSt_linkF, State.linkSt_setLinkSt_same]

theorem State.holdLink_flt (n : Nat) : (s.holdLink n).flt = s.flt := by rw [State.holdLink, State.flt_linkF, State.flt_setLinkSt]

theorem execCapability_bad {c : CapCell} (hp : (s.linkSt k.val).phase = .exchange) (hb : s.capBad k.val c = true) :
    ∃ t, execCapability k c s = .next t ∧ (t.linkSt k.val).phase = .held ∧ (t.linkSt k.val).active = [] ∧
      (0xF4, locLink k.val) ∈ t.flt.status := by
  unfold execCapability
  extract_lets s1 v s2 sense s3
  have hb' : s2.capBad k.val c = true := hb
  have hv : v.phase = .exchange := hp
  rw [if_neg (by simp [hv]), if_pos hb']
  refine ⟨_, rfl, ?_⟩
  have h (e : Ev) (he : e.code = 0xF4) : ((s2.holdLink k.val).raise e).linkSt k.val = (s2.holdLink k.val).linkSt k.val :=
    lanes_linkSt (lanes_of_trp (State.raise_trp (by rw [he]; decide) _)) _
  rw [h _ rfl, State.holdLink_linkSt]
  exact ⟨rfl, rfl, State.raise_status ..⟩

theorem State.endCause_linkSt (c l n : Nat) : (s.endCause c l).linkSt n = s.linkSt n := lanes_linkSt (lanes_of_trp (State.endCause_trp ..)) _

theorem execCapability_good {c : CapCell} (hp : (s.linkSt k.val).phase = .exchange) (hb : s.capBad k.val c = false)
    (hr : fbit (s.linkCfg k.val) Link.bringup = true → c.rate.val = fget (s.linkCfg k.val) Link.linkRate) :
    ∃ t, execCapability k c s = .next t ∧ (t.linkSt k.val).cap = some c ∧ (t.linkSt k.val).phase =
      (if fbit (s.linkCfg k.val) Link.bringup = true ∨ max (fget (s.linkCfg k.val) Link.linkRate) c.rate.val = 3 then .align else .step) := by
  unfold execCapability
  extract_lets s1 v s2 sense s3 w
  have hb' : s2.capBad k.val c = false := hb
  have hv : v.phase = .exchange := hp
  have h3 : s3.linkSt k.val = { s.linkSt k.val with cap := some c } := by
    exact (State.endCause_linkSt ..).trans (State.linkSt_setLinkSt_same ..)
  have hcfg : s3.linkCfg k.val = s.linkCfg k.val := by
    have hrec : s3.linkRec k.val = s.linkRec k.val := linkRec_of_trp (State.endCause_trp ..) _
    have hpwr : s3.pwr = s2.pwr := pwr_of_kept (State.endCause_kept (μ := 0x10) ..)
    rw [State.linkCfg, State.bootLink, hrec, hpwr]
    rfl
  have htarget : s3.targetRate k.val = max (fget (s.linkCfg k.val) Link.linkRate) c.rate.val := by
    rw [State.targetRate, hcfg, h3]
  have hsense : sense = fbit (s.linkCfg k.val) Link.bringup := rfl
  have hw : w.cap = some c := by rw [show w = s3.linkSt k.val from rfl, h3]
  rw [if_neg (by simp [hv]), hb', if_neg Bool.false_ne_true]
  clear_value w s3 sense
  subst hsense
  rw [if_neg]
  · refine ⟨_, rfl, ?_, ?_⟩
    · rw [State.linkSt_setLinkSt_same, hw]
    · rw [State.linkSt_setLinkSt_same, htarget, afterExchange]
      simp only [Bool.or_eq_true, decide_eq_true_eq]
  · rw [Bool.and_eq_true, bne_iff_ne]
    exact fun ⟨hsense, hne⟩ => hne (hr hsense)

theorem execCapability_other {c : CapCell} (hp : (s.linkSt k.val).phase ≠ .exchange) : execCapability k c s = .next s.fresh := by
  unfold execCapability
  extract_lets s1 v s2 sense s3
  have hv : v.phase ≠ .exchange := hp
  rw [if_pos (by simp [hv])]
  rfl

/-! ### The rate's steps and the deciding end's word (R327) -/

theorem State.stepOn_linkSt (n rate : Nat) (lanes : List Nat) (more : Bool) : (s.stepOn n rate lanes more).linkSt n =
    { s.linkSt n with active := lanes, rate := rate, phase := if more && decide (s.targetRate n < rate) then .step else .align } := by
  unfold State.stepOn
  exact State.linkSt_setLinkSt_same ..

theorem State.targetRate_laneF (l : Nat) (f : Fld) (v n : Nat) : (s.laneF l f v).targetRate n = s.targetRate n := rfl

theorem execBringupDecision_follows {r : Fin 4} {m : BitVec 8} (hd : s.decides k.val = false)
    (hp : (s.linkSt k.val).phase = .step ∨ (s.linkSt k.val).phase = .align)
    (hk : (s.linkSt k.val).active.filter (fun l => maskBit m.toNat (((s.linkSt k.val).order.idxOf? l).getD 8)) ≠ []) :
    ∃ t, execBringupDecision k r m s = .next t ∧
      (t.linkSt k.val).active = (s.linkSt k.val).active.filter (fun l => maskBit m.toNat (((s.linkSt k.val).order.idxOf? l).getD 8)) ∧
      (t.linkSt k.val).rate = r.val ∧ ((t.linkSt k.val).phase = .step ∨ (t.linkSt k.val).phase = .align) := by
  have hd' : s.fresh.decides k.val = false := hd
  unfold execBringupDecision
  extract_lets s1 v keep
  have hv : v.phase = .step ∨ v.phase = .align := hp
  have hne : keep.isEmpty = false := by rwa [List.isEmpty_eq_false_iff]
  rw [if_neg, hne, if_neg Bool.false_ne_true]
  · refine ⟨_, rfl, ?_⟩
    rw [State.stepOn_linkSt]
    refine ⟨rfl, rfl, ?_⟩
    dsimp only
    split
    · exact .inl rfl
    · exact .inr rfl
  · simpa [s1, hd', or_iff_not_imp_left] using hv

theorem execBringupDecision_other {r : Fin 4} {m : BitVec 8}
    (h : s.decides k.val = true ∨ ((s.linkSt k.val).phase ≠ .step ∧ (s.linkSt k.val).phase ≠ .align)) :
    execBringupDecision k r m s = .next s.fresh := by
  have h' : s.fresh.decides k.val = true ∨ ((s.fresh.linkSt k.val).phase ≠ .step ∧ (s.fresh.linkSt k.val).phase ≠ .align) := h
  unfold execBringupDecision
  extract_lets s1 v keep
  rw [if_pos (by simpa [s1, v] using h')]
  rfl

/-- The eyes of the lanes of a link after a step. -/
def State.stepEyes (s : State) (k : Nat) (e : List Nat) : State :=
  (s.linkSt k).active.zipIdx.foldl (fun s x => s.laneF x.1 LaneRec.eye (min 255 (e.getD x.2 0))) s

theorem State.stepEyes_leaves (n : Nat) (e : List Nat) : (∀ m, (s.stepEyes n e).linkSt m = s.linkSt m) ∧
    (s.stepEyes n e).targetRate n = s.targetRate n ∧ (∀ l, fget ((s.stepEyes n e).svLane l) LaneRec.eyeMin = fget (s.svLane l) LaneRec.eyeMin) := by
  refine ⟨fun m => ?_, ?_, fun l => ?_⟩
  · exact foldl_leaves (fun t : State => t.linkSt m) (fun t x => State.linkSt_laneF ..) _ s
  · exact foldl_leaves (fun t : State => t.targetRate n) (f := fun s (x : Nat × Nat) => s.laneF x.1 LaneRec.eye (min 255 (e.getD x.2 0)))
      (fun t x => State.targetRate_laneF ..) _ s
  · exact foldl_leaves (fun t : State => fget (t.svLane l) LaneRec.eyeMin)
      (f := fun s (x : Nat × Nat) => s.laneF x.1 LaneRec.eye (min 255 (e.getD x.2 0)))
      (fun t x => State.fget_laneF_of_ne t x.1 l (by decide) (fun _ => .inr (by decide))) _ s

/-- Each lane of a list without repetition holds the eye at its place. -/
theorem foldl_eyes (e : List Nat) (lanes : List Nat) (h : lanes.Nodup) (i : Nat) (s : State) (j l : Nat) (hl : lanes[j]? = some l) :
    fget (((lanes.zipIdx i).foldl (fun s x => s.laneF x.1 LaneRec.eye (min 255 (e.getD x.2 0))) s).svLane l) LaneRec.eye =
      min 255 (e.getD (i + j) 0) := by
  induction lanes generalizing i s j with
  | nil => simp at hl
  | cons x xs ih =>
    obtain ⟨hx, hxs⟩ := List.nodup_cons.1 h
    rw [List.zipIdx_cons, List.foldl_cons]
    cases j with
    | succ j =>
      rw [ih hxs (i + 1) _ j (by simpa using hl)]
      congr 2
      omega
    | zero =>
      obtain rfl : x = l := by simpa using hl
      refine List.foldlRecOn (motive := fun t : State => fget (t.svLane x) LaneRec.eye = min 255 (e.getD i 0)) _ _ ?_ (fun t ht y hy => ?_)
      · exact State.fget_laneF s x (by decide) (lt_of_le_of_lt (min_le_left _ _) (by decide))
      · rw [State.fget_laneF_of_ne _ _ _ (by decide) (fun hxy => ?_), ht]
        exact absurd (hxy ▸ List.fst_mem_of_mem_zipIdx hy) hx

/-- With every lane kept, a step changes the link's state alone. -/
theorem State.stepOn_all (n rate : Nat) (more : Bool) (l : Nat) : (s.stepOn n rate (s.linkSt n).active more).svLane l = s.svLane l := by
  unfold State.stepOn
  extract_lets v out s1
  have hout : out = [] := by simp [out, v]
  rw [State.svLane_setLinkSt]
  unfold s1
  rw [hout]
  rfl

theorem execRateStep_holds {e : List Nat} (hp : (s.linkSt k.val).phase = .step) (hn : (s.linkSt k.val).active.Nodup)
    (he : ∀ (j : Nat) (l : Nat), (s.linkSt k.val).active[j]? = some l → fget (s.svLane l) LaneRec.eyeMin ≤ min 255 (e.getD j 0)) :
    ∃ t, execRateStep k e s = .next t ∧ (t.linkSt k.val).active = (s.linkSt k.val).active ∧
      (t.linkSt k.val).rate = (s.linkSt k.val).rate - 1 ∧
      (t.linkSt k.val).phase = (if s.targetRate k.val < (s.linkSt k.val).rate - 1 then .step else .align) ∧
      (∀ (j : Nat) (l : Nat), (s.linkSt k.val).active[j]? = some l → fget (t.svLane l) LaneRec.eye = min 255 (e.getD j 0)) := by
  obtain ⟨hlink, htarget, hmin⟩ := s.fresh.stepEyes_leaves k.val e
  have heyes (j l : Nat) (hj : (s.linkSt k.val).active[j]? = some l) :
      fget ((s.fresh.stepEyes k.val e).svLane l) LaneRec.eye = min 255 (e.getD j 0) := by
    have h := foldl_eyes e (s.linkSt k.val).active hn 0 s.fresh j l hj
    rwa [Nat.zero_add] at h
  unfold execRateStep
  extract_lets s0 v lanes s1 good next
  have hv : v.phase = .step := hp
  have hs1 : s1 = s.fresh.stepEyes k.val e := rfl
  have hgood : good = lanes := by
    refine List.filter_eq_self.2 fun l hl => ?_
    obtain ⟨j, hj⟩ := List.mem_iff_getElem?.1 hl
    rw [hs1, heyes j l hj, hmin]
    exact decide_eq_true (he j l hj)
  have hlanes : lanes = (s1.linkSt k.val).active := by
    rw [hs1, hlink]
  rw [if_neg (by simp [hv]), if_pos (by rw [hgood])]
  refine ⟨_, rfl, ?_, ?_, ?_, fun j l hj => ?_⟩
  · rw [State.stepOn_linkSt]
    rfl
  · rw [State.stepOn_linkSt]
    rfl
  · rw [State.stepOn_linkSt, hs1, htarget]
    simp only [Bool.true_and, decide_eq_true_eq]
    rfl
  · rw [hlanes, State.stepOn_all, hs1]
    exact heyes j l hj

theorem execRateStep_other {e : List Nat} (hp : (s.linkSt k.val).phase ≠ .step) : execRateStep k e s = .next s.fresh := by
  unfold execRateStep
  extract_lets s1 v
  have hv : v.phase ≠ .step := hp
  rw [if_pos (by simp [hv])]
  rfl

/-! ### SENSE (R328) -/

/-- The lanes marked inverted are corrected. -/
def State.corrected (s : State) (k : Nat) (m : Nat) : State :=
  (s.linkSt k).order.zipIdx.foldl (fun s e => if maskBit m e.2 then s.laneF e.1 LaneRec.polInv 1 else s) s

theorem State.corrected_leaves (n m : Nat) : (∀ i, (s.corrected n m).linkSt i = s.linkSt i) ∧
    ∀ e ∈ (s.linkSt n).order.zipIdx, maskBit m e.2 = true → fget ((s.corrected n m).svLane e.1) LaneRec.polInv = 1 := by
  refine ⟨fun i => ?_, fun e he hm => ?_⟩
  · refine foldl_leaves (fun t : State => t.linkSt i) (fun t x => ?_) _ s
    split
    · exact State.linkSt_laneF ..
    · rfl
  · refine foldl_establishes (P := fun t => fget (t.svLane e.1) LaneRec.polInv = 1)
      (f := fun s (e : Nat × Nat) => if maskBit m e.2 then s.laneF e.1 LaneRec.polInv 1 else s) he (fun t => ?_) (fun t x ht => ?_) s
    · rw [if_pos hm]
      exact State.fget_laneF t e.1 (by decide) (by decide)
    · split
      · exact State.fget_laneF_keeps t x.1 e.1 (by decide) (by decide) ht
      · exact ht

/-- What a lane order that fits, one that is reversed and any other leave. -/
theorem execSenseAdapt_adapts {m : BitVec 8} (hp : (s.linkSt k.val).phase = .adapt) :
    (∃ t, execSenseAdapt k m .straight s = .next t ∧ (t.linkSt k.val).phase = .exchange ∧
      (t.linkSt k.val).active = (s.linkSt k.val).order.filter (fun l => s.laneState l == laneTraining) ∧
      ∀ e ∈ (s.linkSt k.val).order.zipIdx, maskBit m.toNat e.2 = true → fbit (t.svLane e.1) LaneRec.polInv = true) ∧
    (∃ t, execSenseAdapt k m .reversed s = .next t ∧ (t.linkSt k.val).phase = .exchange ∧
      (t.linkSt k.val).order = (s.linkSt k.val).order.reverse) ∧
    ∃ t, execSenseAdapt k m .other s = .next t ∧ (t.linkSt k.val).phase = .held ∧
      ((s.linkSt k.val).lossSaid = false → (0xF1, locLink k.val) ∈ t.flt.status) := by
  obtain ⟨hlink, hpol⟩ := s.fresh.corrected_leaves k.val m.toNat
  unfold execSenseAdapt
  extract_lets s0 v lanes s1 rev s2
  have hv : v.phase = .adapt := hp
  have hs1 : s1 = s.fresh.corrected k.val m.toNat := rfl
  have hn : ¬ (v.phase != .adapt) = true := by simp [hv]
  refine ⟨⟨_, if_neg hn, ?_, ?_, fun e he hm => ?_⟩, ⟨_, if_neg hn, ?_, ?_⟩, ⟨_, if_neg hn, ?_, fun hl => ?_⟩⟩
  · rw [State.linkSt_setLinkSt_same]
  · rw [State.linkSt_setLinkSt_same]
    rfl
  · rw [State.svLane_setLinkSt, fbit, hs1, hpol e he hm]
    rfl
  · rw [State.linkSt_setLinkSt_same]
  · rw [State.linkSt_setLinkSt_same]
    rfl
  · rw [State.holdLink_linkSt]
  · have hl' : (s1.linkSt k.val).lossSaid = false := by
      rw [hs1, hlink]
      exact hl
    rw [State.holdLink_flt, State.sayDown, hl', if_neg Bool.false_ne_true]
    exact State.raise_status ..

theorem execSenseAdapt_other {m : BitVec 8} {o : LaneOrder} (hp : (s.linkSt k.val).phase ≠ .adapt) :
    execSenseAdapt k m o s = .next s.fresh := by
  unfold execSenseAdapt
  extract_lets s1 v
  have hv : v.phase ≠ .adapt := hp
  rw [if_pos (by simp [hv])]
  rfl

/-! ### ALIGN, and a link that starts again (R327, R329) -/

/-- A lane in use marked ACTIVE, with its counts from zero. -/
def State.activateLane (s : State) (l : Nat) : State := (s.laneF l LaneRec.laneState laneActive).setSvRun l
  { s.svRun l with missing := 0, stuffNow := 0, failing := false, idle := none }

theorem State.activateLane_svLane (l x : Nat) : (s.activateLane l).svLane x = (s.laneF l LaneRec.laneState laneActive).svLane x :=
  State.svLane_setSvRun ..

theorem State.activateLane_laneCount (l n : Nat) : (s.activateLane l).laneCount n = s.laneCount n := State.laneCount_lane ..

theorem State.activateLanes_active {lanes : List Nat} {l : Nat} (hl : l ∈ lanes) :
    (lanes.foldl State.activateLane s).laneState l = laneActive := by
  refine foldl_establishes (P := fun t => t.laneState l = laneActive) (f := State.activateLane) hl (fun t => ?_) (fun t x ht => ?_) s
  · rw [State.laneState, State.activateLane_svLane]
    exact State.fget_laneF t l (by decide) (by decide)
  · rw [State.laneState, State.activateLane_svLane]
    exact State.fget_laneF_keeps t x l (by decide) (by decide) ht

theorem State.activateLanes_laneCount (lanes : List Nat) (n : Nat) : (lanes.foldl State.activateLane s).laneCount n = s.laneCount n :=
  foldl_leaves (fun t : State => t.laneCount n) (fun t l => t.activateLane_laneCount l n) lanes s

/-- What a link that runs anew leaves of its state and lanes, with a spare called in where it is short. -/
theorem execLinkAlign_runs (hp : (s.linkSt k.val).phase = .align) :
    ∃ t, execLinkAlign k s = .next t ∧ (t.linkSt k.val).phase = .run ∧
    (∀ l ∈ (s.linkSt k.val).active, l ∈ (s.linkSt k.val).order → t.laneState l = laneActive) ∧
    ((s.linkSt k.val).active.length = s.laneCount k.val → fget (t.linkRec k.val) Link.linkState = 2 ∧ (0xF0, locLink k.val) ∈ t.flt.status) ∧
    ((s.linkSt k.val).active.length ≠ s.laneCount k.val → fget (t.linkRec k.val) Link.linkState = 3 ∧ (0xF2, locLink k.val) ∈ t.flt.status) := by
  unfold execLinkAlign
  extract_lets s0 v s1 s2
  have hv : v.phase = .align := hp
  have hs1 : s1 = v.active.foldl State.activateLane s.fresh := rfl
  have h2 : s2.linkSt k.val = { v with phase := .run, lseq := 0, lossSaid := false } := State.linkSt_setLinkSt_same ..
  have hcount : s2.laneCount k.val = s.laneCount k.val := State.activateLanes_laneCount s.fresh v.active k.val
  obtain ⟨hlanes, hrec, hev⟩ := s2.runLink_facts k.val
  have hlanes3 := (State.updateReach_lanes (s2.runLink k.val) k.val).trans hlanes
  have hev3 := State.updateReach_grows _ k.val hev
  obtain ⟨hlink4, hrec4, -, hflt4, hstate4⟩ := ((s2.runLink k.val).updateReach k.val).callSpare_facts k.val
  have h2a : (s2.linkSt k.val).active = (s.linkSt k.val).active := by
    rw [h2]
    rfl
  rw [h2a, hcount] at hrec hev3
  rw [if_neg (by simp [hv])]
  refine ⟨_, rfl, ?_, fun l hl ho => ?_, fun h => ?_, fun h => ?_⟩
  · rw [hlink4, lanes_linkSt hlanes3, h2]
  · rw [hstate4 l (.inl (by rw [lanes_linkSt hlanes3, h2]; exact ho)), lanes_laneState hlanes3]
    exact State.activateLanes_active s.fresh hl
  · rw [hrec4, State.updateReach_linkRec, hrec, hflt4, if_pos h]
    rw [if_pos h] at hev3
    exact ⟨rfl, hev3⟩
  · rw [hrec4, State.updateReach_linkRec, hrec, hflt4, if_neg h]
    rw [if_neg h] at hev3
    exact ⟨rfl, hev3⟩

theorem execLinkAlign_other (hp : (s.linkSt k.val).phase ≠ .align) : execLinkAlign k s = .next s.fresh := by
  unfold execLinkAlign
  extract_lets s1 v
  have hv : v.phase ≠ .align := hp
  rw [if_pos (by simp [hv])]
  rfl

/-- A link that starts with a lane that has not failed. -/
theorem State.startLink_facts (n : Nat) (h : ∃ l ∈ s.startOrder n, s.laneState l ≠ laneFailed) :
    ((s.startLink n).linkSt n).phase = (if fbit (s.linkCfg n) Link.bringup = true then .adapt else .detect) ∧
    fget ((s.startLink n).linkRec n) Link.linkState = 1 ∧ ((s.startLink n).linkSt n).active = [] ∧
    ((s.startLink n).linkSt n).order = s.startOrder n := by
  unfold State.startLink
  extract_lets order lanes sense v s1 s2
  have hne : lanes.isEmpty = false := by
    obtain ⟨l, hl, hs⟩ := h
    exact List.isEmpty_eq_false_iff.2 (List.ne_nil_of_mem (List.mem_filter.2 ⟨hl, by simpa using hs⟩))
  have h2 : s2.linkSt n = s1.linkSt n := by
    unfold s2
    exact foldl_leaves (fun t : State => t.linkSt n) (fun t l => State.linkSt_setSvLane ..) lanes s1
  rw [State.linkSt_linkF, State.linkSt_linkF, State.linkSt_linkF, State.linkRec_linkF_same, State.linkRec_linkF_same, State.linkRec_linkF_same,
    fget_fput_of_disjoint _ _ _ _ (by decide) (by decide), fget_fput_of_disjoint _ _ _ _ (by decide) (by decide), fget_fput _ _ _ (by decide), h2,
    State.linkSt_setLinkSt_same, hne, if_neg Bool.false_ne_true, if_neg Bool.false_ne_true]
  exact ⟨rfl, rfl, rfl, rfl⟩

theorem execLinkRetry_starts (hon : s.linkOn k.val = true) (hr : s.linkRuns k.val = false) (hb : ∀ b ∈ [40, 41, 42, 43], s.blockHeld b = false) :
    execLinkRetry k s = .next (s.fresh.startLink k.val) := by
  have hon' : s.fresh.linkOn k.val = true := hon
  have hr' : s.fresh.linkRuns k.val = false := hr
  unfold execLinkRetry
  extract_lets s1 held
  have hheld : held = false := by
    refine List.any_eq_false.2 fun b hb' => ?_
    have h : s1.blockHeld b = false := hb b hb'
    simp [h]
  rw [if_neg (by simp [s1, hon', hr', hheld])]
  rfl

theorem execLinkRetry_other (h : s.linkOn k.val = false ∨ s.linkRuns k.val = true) : execLinkRetry k s = .next s.fresh := by
  have h' : s.fresh.linkOn k.val = false ∨ s.fresh.linkRuns k.val = true := h
  unfold execLinkRetry
  extract_lets s1 held
  rw [if_pos (by rcases h' with h' | h' <;> simp [s1, h'])]
  rfl

end

/-! ### Markers and idle lanes (R330, R332) -/

section
variable (s : State) {k : Nat} (l : Fin 48)

/-- A lane's counts after a marker that arrived or is missed. -/
def LaneRun.marked (r : LaneRun) (arrived : Bool) (st : Nat) : LaneRun := { r with
  stuffErr := sat32 r.stuffErr st
  stuffNow := if arrived then 0 else r.stuffNow + st
  missing := if arrived then 0 else r.missing + 1
  markerLoss := if arrived then r.markerLoss else sat32 r.markerLoss 1 }

theorem execLaneMarker_counts {arrived : Bool} {st : Nat} (hk : s.linkOfLane l.val = some k) (hr : s.linkRuns k = true)
    (ha : l.val ∈ (s.linkSt k).active) (hi : (s.svRun l.val).idle = none) :
    execLaneMarker l arrived st s = .next (if 8 < (s.svRun l.val).stuffNow + st ∨ 2 ≤ ((s.svRun l.val).marked arrived st).missing then
      (s.fresh.setSvRun l.val ((s.svRun l.val).marked arrived st)).failLane k l.val
      else s.fresh.setSvRun l.val ((s.svRun l.val).marked arrived st)) := by
  have hk' : s.fresh.linkOfLane l.val = some k := hk
  have hr' : s.fresh.linkRuns k = true := hr
  have ha' : l.val ∈ (s.fresh.linkSt k).active := ha
  have hi' : (s.fresh.svRun l.val).idle = none := hi
  unfold execLaneMarker
  extract_lets s1 x r now r1 s2
  have hx : x = l.val := rfl
  rw [hx, hk']
  dsimp only
  rw [if_neg (by simp [s1, hr', ha']), hi']
  dsimp only
  simp only [Bool.or_eq_true, decide_eq_true_eq]
  split
  next h => exact (congrArg _ (if_pos h)).symm
  next h => exact (congrArg _ (if_neg h)).symm

/-- A lane fails while another in use does not: its link goes on with the same lanes. -/
theorem State.failLane_marked (x y : Nat) (hx : x ∈ (s.linkSt k).active) (hne : x ≠ y) (hf : (s.svRun x).failing = false) :
    ((s.failLane k y).svRun y).failing = true ∧ ((s.failLane k y).svRun y).markerLoss = (s.svRun y).markerLoss ∧
    ((s.failLane k y).linkSt k).active = (s.linkSt k).active := by
  unfold State.failLane
  split
  next h => exact ⟨h, rfl, rfl⟩
  next h =>
    extract_lets r0 s1 v
    have hall : ¬ v.active.all (fun z => (s1.svRun z).failing) = true := by
      intro hall
      have h1 : (s1.svRun x).failing = true := List.all_eq_true.1 hall x hx
      rw [State.svRun_setSvRun, if_neg hne, hf] at h1
      exact Bool.false_ne_true h1
    have hactive : ((s1.sendMessage k msgLanes (leBytes 1 1 ++ leBytes 1 ((v.order.idxOf? y).getD 0))).linkSt k).active = (s1.linkSt k).active :=
      congrArg (·.2.2) (State.sendMessage_inUse ..)
    rw [if_neg hall, State.sendMessage_svRun, State.svRun_setSvRun_same, hactive]
    exact ⟨rfl, rfl, rfl⟩

theorem execLaneMarker_none {arrived : Bool} {st : Nat} (h : s.linkOfLane l.val = none) : execLaneMarker l arrived st s = .next s.fresh := by
  have h' : s.fresh.linkOfLane l.val = none := h
  unfold execLaneMarker
  extract_lets s1 x r
  have hx : x = l.val := rfl
  rw [hx, h']
  rfl

theorem execElectricalIdle_none (h : s.linkOfLane l.val = none) : execElectricalIdle l s = .next s.fresh := by
  have h' : s.fresh.linkOfLane l.val = none := h
  unfold execElectricalIdle
  extract_lets s1 x
  have hx : x = l.val := rfl
  rw [hx, h']
  rfl

theorem execElectricalIdle_idles (hk : s.linkOfLane l.val = some k) (hr : s.linkRuns k = true)
    (he : fbit (s.linkCfg k) Link.idleEn = true) (ha : l.val ∈ (s.linkSt k).active) (hi : (s.svRun l.val).idle = none) :
    execElectricalIdle l s = .next (s.fresh.setSvRun l.val { s.svRun l.val with idle := some s.time.clk }) := by
  have hk' : s.fresh.linkOfLane l.val = some k := hk
  have hr' : s.fresh.linkRuns k = true := hr
  have he' : fbit (s.fresh.linkCfg k) Link.idleEn = true := he
  have ha' : l.val ∈ (s.fresh.linkSt k).active := ha
  have hi' : (s.fresh.svRun l.val).idle = none := hi
  unfold execElectricalIdle
  extract_lets s1 x
  have hx : x = l.val := rfl
  rw [hx, hk']
  dsimp only
  rw [if_pos (by simp [s1, hr', he', ha', hi'])]
  rfl

end

/-! ### A lane dropped, and a spare in its place (R332, R333) -/

section
variable (s : State) (k l : Nat)

/-- A dropped lane leaves the others in use, and the link DEGRADED. -/
theorem State.dropLane_facts (hrest : (s.linkSt k).active.filter (· != l) ≠ []) :
    ((s.dropLane k l).linkSt k).active = (s.linkSt k).active.filter (· != l) ∧ (s.dropLane k l).laneState l = laneFailed ∧
    fget ((s.dropLane k l).linkRec k) Link.linkState = 3 ∧ (0xF2, locLink k) ∈ (s.dropLane k l).flt.status := by
  unfold State.dropLane
  extract_lets v r0 s1 rest s2
  have hne : rest.isEmpty = false := by rwa [List.isEmpty_eq_false_iff]
  rw [hne, if_neg Bool.false_ne_true]
  split
  next _ s3 out hs3 =>
  obtain ⟨hlanes, hrec, -⟩ := (s2.linkF k Link.linkState 3).refit_leaves k
  rw [hs3] at hlanes hrec
  have htrp : ((s3.sayDegraded k l out).reboundAll).trp = s3.trp :=
    (State.reboundAll_trp ..).trans (State.raise_trp (show evClass 0xF2 ≠ 3 by decide) _)
  have hev : (0xF2, locLink k) ∈ ((s3.sayDegraded k l out).reboundAll).flt.status :=
    State.reboundAll_grows _ (State.raise_status (Ev.mk 0xF2 (locLink k) true 0 _) _)
  have hall := ((lanes_of_trp htrp).trans hlanes).trans (State.linkF_lanes s2 k Link.linkState 3)
  have hfailed : s2.laneState l = laneFailed := by
    rw [State.laneState, State.svLane_linkF, State.svLane_setLinkSt, State.svLane_setSvRun]
    exact State.fget_laneF s l (by decide) (by decide)
  obtain ⟨hlink4, hrec4, -, hflt4, hstate4⟩ := ((s3.sayDegraded k l out).reboundAll).callSpare_facts k
  have hstate : ((s3.sayDegraded k l out).reboundAll).laneState l = laneFailed := (lanes_laneState hall l).trans hfailed
  refine ⟨?_, (hstate4 l (.inr hstate)).trans hstate, ?_, by rwa [hflt4]⟩
  · rw [hlink4, lanes_linkSt hall, State.linkSt_linkF, State.linkSt_setLinkSt_same]
  · rw [hrec4, linkRec_of_trp htrp, hrec, State.linkRec_linkF_same, fget_fput _ _ _ (by decide)]
    rfl

theorem execLaneDrop_drops {k : Fin 7} {l : Fin 48} (hr : s.linkRuns k.val = true) (ha : l.val ∈ (s.linkSt k.val).active) :
    execLaneDrop k l s = .next (s.fresh.dropLane k.val l.val) := by
  have hr' : s.fresh.linkRuns k.val = true := hr
  have ha' : l.val ∈ (s.fresh.linkSt k.val).active := ha
  unfold execLaneDrop
  extract_lets s1
  rw [if_pos (by simp [s1, hr', ha'])]
  rfl

theorem execLaneDrop_other {k : Fin 7} {l : Fin 48} (h : s.linkRuns k.val = false ∨ l.val ∉ (s.linkSt k.val).active) :
    execLaneDrop k l s = .next s.fresh := by
  have h' : s.fresh.linkRuns k.val = false ∨ l.val ∉ (s.fresh.linkSt k.val).active := h
  unfold execLaneDrop
  extract_lets s1
  rw [if_neg (by rcases h' with h' | h' <;> simp [s1, h'])]
  rfl

/-- A lane's record as it takes a position of a running link. -/
theorem laneRec_taken (r : BitVec 64) (pos : Nat) : fget (fput (fput r LaneRec.laneState laneActive) LaneRec.lanePos pos) LaneRec.laneState =
    laneActive := by
  rw [fget_fput_of_disjoint _ _ _ _ (by decide) (by decide), fget_fput _ _ _ (by decide)]
  rfl

theorem execSpareLaneTrained_taken {k : Fin 7} {l : Fin 48} {old pos : Nat} (hr : s.linkRuns k.val = true)
    (hs : maskBit (fget (s.linkCfg k.val) Link.spares) l.val = true) (ht : s.laneState l.val = laneTraining)
    (hf : (s.linkSt k.val).order.zipIdx.find? (fun e => !(s.linkSt k.val).active.contains e.1) = some (old, pos)) :
    ∃ t, execSpareLaneTrained k l s = .next t ∧ l.val ∈ (t.linkSt k.val).active ∧
      (t.linkSt k.val).order = (s.linkSt k.val).order.map (fun x => if x == old then l.val else x) ∧ t.laneState l.val = laneActive := by
  have hr' : s.fresh.linkRuns k.val = true := hr
  have hs' : maskBit (fget (s.fresh.linkCfg k.val) Link.spares) l.val = true := hs
  have ht' : s.fresh.laneState l.val = laneTraining := ht
  have hf' : (s.fresh.linkSt k.val).order.zipIdx.find? (fun e => !(s.fresh.linkSt k.val).active.contains e.1) = some (old, pos) := hf
  have hmem : l.val ∈ (s.linkSt k.val).order.map (fun x => if x == old then l.val else x) := by
    have hold : old ∈ (s.linkSt k.val).order := List.fst_mem_of_mem_zipIdx (List.mem_of_find?_eq_some hf)
    exact List.mem_map.2 ⟨old, hold, if_pos (beq_self_eq_true old)⟩
  unfold execSpareLaneTrained
  extract_lets s0 x v free
  have hfree : free = some (old, pos) := hf'
  rw [hfree]
  dsimp -zeta only
  rw [if_neg (by simp [s0, x, hr', hs', ht'])]
  extract_lets order s1 r0 s2
  have horder : l.val ∈ order := hmem
  have h2 : s2.linkSt k.val = { v with order := order, active := order.filter (fun y => v.active.contains y || y == x) } :=
    (State.linkSt_setSvRun ..).trans (State.linkSt_setLinkSt_same ..)
  have hstate2 : s2.laneState l.val = laneActive := by
    rw [State.laneState, State.svLane_setSvRun, State.svLane_setLinkSt, State.svLane_setSvLane, if_pos rfl]
    exact laneRec_taken ..
  obtain ⟨hlanes, -, -⟩ := s2.runLink_facts k.val
  obtain ⟨hlink4, -, -, -, hstate4⟩ := (s2.runLink k.val).callSpare_facts k.val
  refine ⟨_, rfl, ?_, ?_, ?_⟩
  · rw [hlink4, lanes_linkSt hlanes, h2]
    exact List.mem_filter.2 ⟨horder, by simp [x]⟩
  · rw [hlink4, lanes_linkSt hlanes, h2]
    rfl
  · rw [hstate4 l.val (.inl (by rwa [lanes_linkSt hlanes, h2])), lanes_laneState hlanes, hstate2]

theorem execSpareLaneTrained_other {k : Fin 7} {l : Fin 48} (h : s.linkRuns k.val = false ∨ s.laneState l.val ≠ laneTraining) :
    execSpareLaneTrained k l s = .next s.fresh := by
  have h' : s.fresh.linkRuns k.val = false ∨ s.fresh.laneState l.val ≠ laneTraining := h
  unfold execSpareLaneTrained
  extract_lets s1 x v free
  clear_value free
  cases free with
  | none => rfl
  | some e =>
    refine (if_pos ?_).trans rfl
    rcases h' with h' | h' <;> simp [s1, x, h']

/-! ### Eyes (R331, R502) -/

theorem eye_lt (h v : BitVec 8) : h.toNat * v.toNat / 255 < 256 := by
  have h1 : h.toNat * v.toNat ≤ 255 * 255 := Nat.mul_le_mul (Nat.le_of_lt_succ h.isLt) (Nat.le_of_lt_succ v.isLt)
  omega

theorem execEyeUpdate_media {x : Fin 224} {h v : BitVec 8} (hx : x.val < 176) : execEyeUpdate x h v s =
    .next (s.fresh.setTest x.val { s.testLane x.val with eye := h.toNat * v.toNat / 255 }) := if_pos hx

/-- An eye of a Svanum lane that trains or is in use. -/
theorem execEyeUpdate_svanum {x : Fin 224} {h v : BitVec 8} (hx : 176 ≤ x.val)
    (hs : s.laneState (x.val - 176) = laneTraining ∨ s.laneState (x.val - 176) = laneActive) :
    ∃ t, execEyeUpdate x h v s = .next t ∧ fget (t.svLane (x.val - 176)) LaneRec.eye = h.toNat * v.toNat / 255 ∧
      (h.toNat * v.toNat / 255 < fget (s.svLane (x.val - 176)) LaneRec.eyeAlarm → (s.svRun (x.val - 176)).eyeLow = 99 →
        (s.svRun (x.val - 176)).eyeSaid = false → (0xF3, locSvanumLane (x.val - 176)) ∈ t.flt.status ∧ (t.svRun (x.val - 176)).eyeSaid = true) ∧
      (fget (s.svLane (x.val - 176)) LaneRec.eyeAlarm ≤ h.toNat * v.toNat / 255 → (t.svRun (x.val - 176)).eyeLow = 0) := by
  have hs' : s.fresh.laneState (x.val - 176) = laneTraining ∨ s.fresh.laneState (x.val - 176) = laneActive := hs
  unfold execEyeUpdate
  extract_lets s0 eye x0 l low r nLow nOk begin_ end_ s1
  rw [if_neg hx.not_gt, if_neg (by simpa [s0, l, or_iff_not_imp_left] using hs')]
  have hlane : fget (s1.svLane l) LaneRec.eye = eye := by
    rw [State.svLane_setSvRun]
    exact State.fget_laneF s0 l (by decide) (eye_lt h v)
  have hrun : s1.svRun l = { r with eyeLow := nLow, eyeOk := nOk, eyeSaid := (r.eyeSaid || begin_) && !end_ } := State.svRun_setSvRun_same ..
  have hraise (e : Ev) (he : e.code = 0xF3) : (s1.raise e).trp = s1.trp := State.raise_trp (by rw [he]; decide) _
  have hbegin (hlow : eye < fget (s.svLane l) LaneRec.eyeAlarm) (h99 : (s.svRun l).eyeLow = 99) (hsaid : (s.svRun l).eyeSaid = false) :
      begin_ = true ∧ end_ = false := by
    have h1 : low = true := decide_eq_true hlow
    have h2 : nLow = 100 := by
      have h99' : r.eyeLow = 99 := h99
      simp [nLow, h1, h99']
    have h3 : r.eyeSaid = false := hsaid
    exact ⟨by simp [begin_, h2, h3], by simp [end_, h3]⟩
  have hhigh (hle : fget (s.svLane l) LaneRec.eyeAlarm ≤ eye) : nLow = 0 := by
    have h1 : low = false := decide_eq_false hle.not_gt
    simp [nLow, h1]
  split
  next hb =>
    refine ⟨_, rfl, ?_, fun hlow h99 hsaid => ⟨State.raise_status .., ?_⟩, fun hle => ?_⟩
    · rw [lanes_svLane (lanes_of_trp (hraise _ rfl)), hlane]
    · rw [lanes_svRun (lanes_of_trp (hraise _ rfl)), hrun]
      obtain ⟨h1, h2⟩ := hbegin hlow h99 hsaid
      simp [h1, h2]
    · rw [lanes_svRun (lanes_of_trp (hraise _ rfl)), hrun]
      exact hhigh hle
  next hb =>
    have hno (hlow : eye < fget (s.svLane l) LaneRec.eyeAlarm) (h99 : (s.svRun l).eyeLow = 99) (hsaid : (s.svRun l).eyeSaid = false) : False :=
      hb (hbegin hlow h99 hsaid).1
    split
    · refine ⟨_, rfl, ?_, fun hlow h99 hsaid => (hno hlow h99 hsaid).elim, fun hle => ?_⟩
      · rw [lanes_svLane (lanes_of_trp (hraise _ rfl)), hlane]
      · rw [lanes_svRun (lanes_of_trp (hraise _ rfl)), hrun]
        exact hhigh hle
    · refine ⟨_, rfl, hlane, fun hlow h99 hsaid => (hno hlow h99 hsaid).elim, fun hle => ?_⟩
      rw [hrun]
      exact hhigh hle

end

/-- Settles O54, phase by phase and lane by lane. Which event a link DEGRADED at bring-up raises, and that a dropped lane reads FAILED, is log
entry 91. -/
theorem linksBringUpRunAndFail : Obligations.LinksBringUpRunAndFail := by
  refine ⟨fun s k f hp => execLinkDetect_found s k hp, fun s k f hp => execLinkDetect_other s k hp, fun s k c hp hb => execCapability_bad s k hp hb,
    fun s k c hp hb hr => execCapability_good s k hp hb hr, fun s k c hp => execCapability_other s k hp,
    fun s k r m hd hp => execBringupDecision_follows s k hd hp, fun s k r m h => execBringupDecision_other s k h,
    fun s k e hp hn he => execRateStep_holds s k hp hn he, fun s k e hp => execRateStep_other s k hp,
    fun s k m hp => execSenseAdapt_adapts s k hp, fun s k m o hp => execSenseAdapt_other s k hp, fun s k hp => execLinkAlign_runs s k hp,
    fun s k hp => execLinkAlign_other s k hp,
    fun s k hon hr hb hl => ⟨_, execLinkRetry_starts s k hon hr hb, State.startLink_facts s.fresh k.val hl⟩,
    fun s k h => execLinkRetry_other s k h, ?_, ?_, ?_, fun s l a st h => ⟨execLaneMarker_none s l h, execElectricalIdle_none s l h⟩, ?_,
    fun s k l h => execLaneDrop_other s h, fun s k l old pos hr hs ht hf => execSpareLaneTrained_taken s hr hs ht hf,
    fun s k l h => execSpareLaneTrained_other s h, fun s k l hk hr he ha hi => execElectricalIdle_idles s l hk hr he ha hi,
    fun s x h v hx => execEyeUpdate_media s hx, fun s x h v hx hs => execEyeUpdate_svanum s hx hs⟩
  case refine_1 =>
    intro s k l st hk hr ha hi hs
    refine ⟨_, (execLaneMarker_counts s l hk hr ha hi).trans (congrArg _ (if_neg (by simp [LaneRun.marked, hs]))), ?_⟩
    rw [State.svRun_setSvRun_same]
    exact ⟨rfl, rfl, rfl, rfl, rfl⟩
  case refine_2 =>
    intro s k l st hk hr ha hi hs h0
    refine ⟨_, (execLaneMarker_counts s l hk hr ha hi).trans (congrArg _ (if_neg (by simp [LaneRun.marked, hs, h0]))), ?_⟩
    rw [State.svRun_setSvRun_same]
    exact ⟨congrArg (· + 1) h0, rfl⟩
  case refine_3 =>
    intro s k l st x hk hr ha hi h1 hx hne hf
    refine ⟨_, (execLaneMarker_counts s l hk hr ha hi).trans (congrArg _ (if_pos (.inr (Nat.succ_le_succ h1)))), ?_⟩
    have hf' : ((s.fresh.setSvRun l.val ((s.svRun l.val).marked false st)).svRun x).failing = false := by
      rw [State.svRun_setSvRun, if_neg hne]
      exact hf
    obtain ⟨hfail, hloss, hact⟩ := State.failLane_marked (k := k.val) (s.fresh.setSvRun l.val ((s.svRun l.val).marked false st)) x l.val hx hne hf'
    refine ⟨hfail, hloss.trans ?_, hact⟩
    rw [State.svRun_setSvRun_same]
    rfl
  case refine_4 =>
    intro s k l hr ha hrest
    exact ⟨_, execLaneDrop_drops s hr ha, State.dropLane_facts s.fresh k.val l.val hrest⟩

end Sys2Proof.Machine
end


section
/-! PROOFS. Tiles, abandons, TIME cells and boot images between members (R324, R336, R338 to R340, R481): what a tile written leaves of its
link's counters and of its import's OFFSET, and the events on links and imports. -/

set_option Elab.async false

namespace Sys2Proof.Machine

open Sys2Proof

/-! ### Operations that leave the Troupe's state -/

section
variable (s : State)

theorem State.legOpen_trp (r : Nat) (first : BitVec 32) : (s.legOpen r first).trp = s.trp := by
  unfold State.legOpen
  refine foldl_leaves (fun t : State => t.trp) (fun t e => ?_) _ s
  extract_lets hyb d wide drift was v s1
  have h1 : s1.trp = t.trp := trp_of_kept (State.onLeg_kept (μ := 0x2000) ..)
  split
  · exact (State.raise_trp (show evClass 0xB5 ≠ 3 by decide) _).trans h1
  · exact h1

theorem State.sourceLine1At_trp (r ns : Nat) : (s.sourceLine1At r ns).trp = s.trp := by
  unfold State.sourceLine1At
  extract_lets last s1
  refine foldl_leaves (fun t : State => t.trp) (fun t e => ?_) _ s1
  split
  · split
    · rfl
    · extract_lets ok v
      split
      · rfl
      · exact (State.raise_trp (show evClass 0x67 ≠ 3 by decide) _).trans (trp_of_kept (State.setOut_kept (μ := 0x400) ..))
  · rfl

theorem State.importTime_trp (r time : Nat) : (s.importTime r time).trp = s.trp :=
  (State.sourceLine1At_trp ..).trans (trp_of_kept (State.onMarker_kept (μ := 0x40) ..))

theorem State.unsync_trp (reason : Nat) : (s.unsync reason).trp = s.trp := by
  unfold State.unsync
  split
  · rfl
  · exact State.raise_trp (show evClass 0xFB ≠ 3 by decide) _

theorem State.timeStep_trp (d : Int) : (s.timeStep d).trp = s.trp := by
  unfold State.timeStep
  extract_lets s1
  have h1 : s1.trp = s.trp := (State.raise_trp (show evClass 0xED ≠ 3 by decide) _).trans (trp_of_kept (State.stepClock_kept (μ := 0x1) ..))
  split
  · exact h1
  · exact (State.candDown_trp ..).trans h1

theorem State.followLeader_trp (o : Int) : (s.followLeader o).trp = s.trp := by
  unfold State.followLeader
  extract_lets v far run step s1
  have h1 : s1.trp = s.trp := (State.onPtp_trp ..).trans (trp_of_kept (State.steer_kept (μ := 0x20001) ..))
  split
  · rfl
  · split
    · exact (State.timeStep_trp ..).trans h1
    · exact h1

end

/-! ### A tile written leaves its link's counters and its import's OFFSET (R336, R343) -/

section
variable {γ : Type} {g : TrpSt → γ} (hg : CellFree g) (s : State)
include hg

theorem State.abandonCounted_leaves (r l : Nat) (ranOut : Bool) : g (s.abandonCounted r l ranOut).trp = g s.trp := by
  rw [State.abandonCounted, State.raise_trp (show evClass 0x42 ≠ 3 by decide), trp_of_kept (State.onRingCtr_kept (μ := 0x40) ..)]
  exact State.abandon_leaves hg ..

theorem State.closeTile_leaves (r l : Nat) (bytes : List Byte) (fin : Bool) : g (s.closeTile r l bytes fin).trp = g s.trp := by
  unfold State.closeTile
  extract_lets w
  split
  · rfl
  · split
    · exact State.abandonCounted_leaves hg ..
    · rw [trp_of_kept (State.stageTile_kept (μ := 0x40) ..)]

theorem State.startUnit_leaves (r l : Nat) : g (s.startUnit r l).trp = g s.trp := by
  unfold State.startUnit
  extract_lets s1 s2 first w
  have h1 : g s1.trp = g s.trp := by
    unfold s1
    split
    · split
      · exact State.abandon_leaves hg ..
      · exact State.abandonCounted_leaves hg ..
    · rfl
  have h2 : g s2.trp = g s1.trp := by
    unfold s2
    split
    · exact State.abandon_leaves hg ..
    · rfl
  rw [State.legOpen_trp, trp_of_kept (State.openMarker_kept (μ := 0x40) ..), trp_of_kept (State.setWr_kept (μ := 0x40) ..), h2, h1]

end

/-- What a link has counted, and the OFFSET of an import. -/
def TrpSt.fixed (k i : Nat) (t : TrpSt) : List Nat × Option (BitVec 32) := ((tget linkStReset t.linkSt k).ctr, (tget impStReset t.impSt i).offset)

theorem State.fixed_eq (k i : Nat) (s : State) : s.trp.fixed k i = ((s.linkSt k).ctr, (s.impSt i).offset) := rfl

theorem TrpSt.fixed_cellFree (k i : Nat) : CellFree (TrpSt.fixed k i) where
  sendCell s n typ idx dest payload := by
    have h : (s.sendCell n typ idx dest payload).linkSt k = if k = n then { s.linkSt n with lseq := (s.linkSt n).lseq + 1 } else s.linkSt k :=
      State.linkSt_setLinkSt ..
    rw [State.fixed_eq, State.fixed_eq, h]
    split
    next hk => rw [hk]; rfl
    next => rfl
  outq _ _ := rfl

section
variable (k i : Nat) (s : State)

theorem State.impSt_onImp (f : ImpSt → ImpSt) : (s.onImp i f).impSt i = f (s.impSt i) := tget_tset_same ..

theorem State.linkSt_onImp (f : ImpSt → ImpSt) (n : Nat) : (s.onImp i f).linkSt n = s.linkSt n := rfl

/-- A change to an import that keeps its OFFSET. -/
theorem State.onImp_fixed {f : ImpSt → ImpSt} (hf : ∀ v, (f v).offset = v.offset) : (s.onImp i f).trp.fixed k i = s.trp.fixed k i := by
  rw [State.fixed_eq, State.impSt_onImp, hf, State.linkSt_onImp, State.fixed_eq]

theorem State.importWrite_fixed (r l : Nat) (bytes : List Byte) (fin bad : Bool) :
    (s.importWrite i r l bytes fin bad).trp.fixed k i = s.trp.fixed k i := by
  unfold State.importWrite
  split
  · exact (State.onImp_fixed k i _ (f := fun v => { v with lost := sat32 v.lost 1 }) (fun _ => rfl)).trans (congrArg _ (trp_of_kept (State.closeMissing_kept (μ := 0x40) ..)))
  · exact State.closeTile_leaves (TrpSt.fixed_cellFree k i) ..

theorem State.importGap_fixed (r l n : Nat) : (s.importGap i r l n).trp.fixed k i = s.trp.fixed k i := by
  unfold State.importGap
  extract_lets d w m s1
  have h1 : s1.trp.fixed k i = s.trp.fixed k i :=
    foldl_leaves (fun t : State => t.trp.fixed k i) (f := fun s (_ : Nat) => s.importWrite i r l [] false true)
      (fun t _ => State.importWrite_fixed ..) (List.range m) s
  split
  · exact h1
  · rw [trp_of_kept (State.skipTiles_kept (μ := 0x40) ..), h1]

/-- The offset between an exporter's positions and this ring's: OFFSET, or what a unit's first tile fixes. -/
def State.offsetOf (s : State) (i : Nat) (c : TileCells) : BitVec 32 :=
  (s.impSt i).offset.getD (c.eseq - s.nextEseq (fget (s.imp i) Import.impRing))

theorem State.importTile_early {l : Nat} {c : TileCells} (hv : ((s.impSt i).offset.isNone && !c.unitStart) = true) : s.importTile i l c = s :=
  if_pos hv

theorem State.importTile_behind {l : Nat} {c : TileCells} (hv : ¬ ((s.impSt i).offset.isNone && !c.unitStart) = true)
    (ha : ahead (s.nextEseq (fget (s.imp i) Import.impRing)) (c.eseq - s.offsetOf i c) = none) : s.importTile i l c = s := by
  unfold State.importTile
  extract_lets r v off e
  rw [if_neg hv]
  have ha' : ahead (s.nextEseq r) e = none := ha
  rw [ha']

/-- A tile with a place in its ring fixes OFFSET where none stood; the link's counters stay. -/
theorem State.importTile_placed {l : Nat} {c : TileCells} {gap : Nat} (hv : ¬ ((s.impSt i).offset.isNone && !c.unitStart) = true)
    (ha : ahead (s.nextEseq (fget (s.imp i) Import.impRing)) (c.eseq - s.offsetOf i c) = some gap) :
    (s.importTile i l c).trp.fixed k i = ((s.linkSt k).ctr, some (s.offsetOf i c)) := by
  unfold State.importTile
  extract_lets r v off e w s0 payload bad fin
  rw [if_neg hv]
  have ha' : ahead (s.nextEseq r) e = some gap := ha
  rw [ha']
  dsimp -zeta only
  extract_lets s1 s2
  have h0 : s0.trp = s.trp := by
    unfold s0
    split
    · exact trp_of_kept (State.setWr_kept (μ := 0x40) ..)
    · rfl
  have h1 : s1.trp.fixed k i = ((s.linkSt k).ctr, some off) := by
    have hgap : ((s0.importGap i r l gap).linkSt k).ctr = (s.linkSt k).ctr := by
      have h := State.importGap_fixed k i s0 r l gap
      rw [h0] at h
      exact congrArg Prod.fst h
    rw [State.fixed_eq, State.impSt_onImp, State.linkSt_onImp, hgap]
  have h2 : s2.trp.fixed k i = s1.trp.fixed k i := by
    unfold s2
    split
    · rw [State.importTime_trp, State.startUnit_leaves (TrpSt.fixed_cellFree k i)]
    · rfl
  split
  · exact h2.trans h1
  · exact (State.importWrite_fixed ..).trans (h2.trans h1)

theorem ahead_self (e : BitVec 32) : ahead e e = some 0 := by
  unfold ahead
  rw [BitVec.sub_self, if_pos (by decide)]
  rfl

theorem State.importTile_ctr (l : Nat) (c : TileCells) : ((s.importTile i l c).linkSt k).ctr = (s.linkSt k).ctr := by
  by_cases hv : ((s.impSt i).offset.isNone && !c.unitStart) = true
  · rw [State.importTile_early i s hv]
  · cases ha : ahead (s.nextEseq (fget (s.imp i) Import.impRing)) (c.eseq - s.offsetOf i c) with
    | none => rw [State.importTile_behind i s hv ha]
    | some gap => exact congrArg Prod.fst (State.importTile_placed k i s hv ha)

end

/-! ### The events (R336, R339, R340, R481) -/

section
variable (s : State)

/-- The first tile of a unit fixes OFFSET. -/
theorem State.importTile_offset {i l : Nat} {c : TileCells} (ho : (s.impSt i).offset = none) (hu : c.unitStart = true) :
    ((s.importTile i l c).impSt i).offset = some (c.eseq - s.nextEseq (fget (s.imp i) Import.impRing)) := by
  have hoff : s.offsetOf i c = c.eseq - s.nextEseq (fget (s.imp i) Import.impRing) := by
    rw [State.offsetOf, ho]
    rfl
  have ha : ahead (s.nextEseq (fget (s.imp i) Import.impRing)) (c.eseq - s.offsetOf i c) = some 0 := by
    rw [hoff, sub_sub_cancel]
    exact ahead_self _
  rw [← hoff]
  exact congrArg Prod.snd (State.importTile_placed 0 i s (by simp [hu]) ha)

theorem State.countCells_linkSt (k : Nat) (c : TileCells) : ((s.countCells k c).linkSt k).ctr =
    ((s.linkSt k).ctr.zip [c.fecCorr, c.fecUncorr, c.hdrErr, c.gaps]).map (fun p => sat32 p.1 p.2) := by
  rw [State.countCells, State.linkSt_setLinkSt_same]

theorem execImportTile_unlinked {i : Fin 4096} {c : TileCells} (h : linkTo s (fget (s.imp i.val) Import.fromF) = none) :
    execImportTile i c s = .next s.fresh := by
  have h' : linkTo s.fresh (fget (s.fresh.imp i.val) Import.fromF) = none := h
  unfold execImportTile
  extract_lets s1
  rw [h']
  rfl

/-- A tile from a member, on its link: its cells are counted, and an enabled import writes it. -/
theorem execImportTile_linked {i : Fin 4096} {c : TileCells} {k : Nat} (h : linkTo s (fget (s.imp i.val) Import.fromF) = some k) :
    execImportTile i c s = .next (if fbit (s.imp i.val) Import.impEn = true then (s.fresh.countCells k c).importTile i.val (locLink k) c
      else s.fresh.countCells k c) := by
  have h' : linkTo s.fresh (fget (s.fresh.imp i.val) Import.fromF) = some k := h
  unfold execImportTile
  extract_lets s1
  rw [h']
  dsimp only
  cases he : fbit (s1.imp i.val) Import.impEn with
  | true =>
    have he' : fbit (s.imp i.val) Import.impEn = true := he
    rw [he']
    rfl
  | false =>
    have he' : fbit (s.imp i.val) Import.impEn = false := he
    rw [he']
    rfl

theorem execImportTile_tile {i : Fin 4096} {c : TileCells} {k : Nat} (h : linkTo s (fget (s.imp i.val) Import.fromF) = some k) :
    ∃ t, execImportTile i c s = .next t ∧
    (t.linkSt k).ctr = ((s.linkSt k).ctr.zip [c.fecCorr, c.fecUncorr, c.hdrErr, c.gaps]).map (fun p => sat32 p.1 p.2) ∧
    (fbit (s.imp i.val) Import.impEn = false ∨ ((s.impSt i.val).offset = none ∧ c.unitStart = false) →
      t.mem = s.mem ∧ t.trp.impSt = s.trp.impSt) ∧
    (fbit (s.imp i.val) Import.impEn = true → (s.impSt i.val).offset = none → c.unitStart = true →
      (t.impSt i.val).offset = some (c.eseq - s.nextEseq (fget (s.imp i.val) Import.impRing))) := by
  have hctr := State.countCells_linkSt s.fresh k c
  refine ⟨_, execImportTile_linked s h, ?_, fun hno => ?_, fun he ho hu => ?_⟩
  · split
    · exact (State.importTile_ctr k i.val _ (locLink k) c).trans hctr
    · exact hctr
  · have hcount : (if fbit (s.imp i.val) Import.impEn = true then (s.fresh.countCells k c).importTile i.val (locLink k) c
        else s.fresh.countCells k c) = s.fresh.countCells k c := by
      rcases hno with he | ⟨ho, hu⟩
      · rw [he, if_neg Bool.false_ne_true]
      · have ho' : ((s.fresh.countCells k c).impSt i.val).offset = none := ho
        rw [State.importTile_early i.val _ (by simp [ho', hu]), ite_self]
    rw [hcount]
    exact ⟨rfl, rfl⟩
  · rw [if_pos he]
    exact State.importTile_offset (s.fresh.countCells k c) ho hu

/-- An abandon of a unit of an import with an OFFSET. -/
theorem execAbandon_resumes {i : Fin 4096} {a b off : BitVec 32} (ho : (s.impSt i.val).offset = some off)
    (he : fbit (s.imp i.val) Import.impEn = true) :
    ∃ t, execAbandon i a b s = .next t ∧ (t.impSt i.val).resumeAt = some (b - off) ∧ (t.impSt i.val).offset = some off := by
  have ho' : (s.fresh.impSt i.val).offset = some off := ho
  unfold execAbandon
  extract_lets s0 e r l
  rw [ho']
  dsimp -zeta only
  have he' : fbit e Import.impEn = true := he
  rw [he', if_neg (by decide)]
  extract_lets s1 s2 s3
  have h1 : s1.trp.fixed 0 i.val = s.trp.fixed 0 i.val := by
    unfold s1
    split
    · exact State.importGap_fixed ..
    · rfl
  have h2 : s2.trp.fixed 0 i.val = s1.trp.fixed 0 i.val := State.stopWriter_leaves (TrpSt.fixed_cellFree 0 i.val) ..
  have h3 : s3.trp = s2.trp := by
    unfold s3
    split
    · split
      · rfl
      · exact trp_of_kept (State.skipTiles_kept (μ := 0x40) ..)
    · rfl
  have hoff : (s3.impSt i.val).offset = some off := by
    have h := h2.trans h1
    rw [← h3] at h
    exact (congrArg Prod.snd h).trans ho
  refine ⟨_, rfl, ?_, ?_⟩
  · rw [State.impSt_onImp]
  · rw [State.impSt_onImp]
    exact hoff

theorem execAbandon_none {i : Fin 4096} {a b : BitVec 32} (h : (s.impSt i.val).offset = none ∨ fbit (s.imp i.val) Import.impEn = false) :
    execAbandon i a b s = .next s.fresh := by
  unfold execAbandon
  extract_lets s0 e r
  cases ho : (s0.impSt i.val).offset with
  | none => rfl
  | some off =>
    have he : fbit e Import.impEn = false := h.resolve_left (fun h0 => Option.some_ne_none off (ho.symm.trans h0))
    dsimp only
    rw [he]
    rfl

/-- What a TIME cell leaves of its link: the exchange, and the leader announced. -/
theorem State.takeTime_linkSt (k : Nat) (c : TimeCell) : (s.takeTime k c).linkSt k = { s.linkSt k with
    peerArr := (s.linkSt k).lastArr, peerDep := c.dep, lastArr := c.at_, leader := c.leader.val, hops := c.hops.toNat } := by
  rw [State.takeTime, State.linkSt_setLinkSt_same]

theorem State.twinTime_trp (c : TimeCell) : (s.twinTime c).trp = (s.takeTime 7 c).trp := by
  unfold State.twinTime
  extract_lets off s1 n s2
  clear_value off
  cases off with
  | none => rfl
  | some o =>
    dsimp only
    split
    · rfl
    · split
      · exact State.unsync_trp ..
      · rfl

theorem State.troupeTime_linkSt (k : Nat) (c : TimeCell) (n : Nat) : (s.troupeTime k c).linkSt n = (s.takeTime k c).linkSt n := by
  have hreach : ((s.takeTime k c).updateReach k).linkSt n = (s.takeTime k c).linkSt n := lanes_linkSt (State.updateReach_lanes ..) n
  unfold State.troupeTime
  extract_lets off s1 q s2 s3
  have h3 : s3.trp = s1.trp := (trp_of_kept (State.candUp_kept (μ := 0x10000) ..)).trans (trp_of_kept (State.setCandSt_kept (μ := 0x10000) ..))
  split
  · exact hreach
  · clear_value off
    cases off with
    | none => exact (lanes_linkSt (lanes_of_trp h3) n).trans hreach
    | some o => exact (lanes_linkSt (lanes_of_trp ((State.followLeader_trp ..).trans h3)) n).trans hreach

/-- A TIME cell taken: the sender's times and leader are kept. -/
theorem execTimeCell_taken {k : Fin 8} {c : TimeCell} (h : (k.val < 7 ∧ s.linkRuns k.val = true ∧ fbit s.trp.rec_ TroupeRec.troupeEn = true) ∨
    (k.val = 7 ∧ s.twinOn = true)) : ∃ t, execTimeCell k c s = .next t ∧ t.linkSt k.val = (s.fresh.takeTime k.val c).linkSt k.val := by
  unfold execTimeCell
  extract_lets s0
  rcases h with ⟨hk, hr, he⟩ | ⟨hk, ht⟩
  · have hr' : s0.linkRuns k.val = true := hr
    have he' : fbit s0.trp.rec_ TroupeRec.troupeEn = true := he
    rw [if_neg hk.ne, if_neg (by simp [hr', he'])]
    exact ⟨_, rfl, State.troupeTime_linkSt ..⟩
  · have ht' : s0.twinOn = true := ht
    rw [if_pos hk, if_pos ht', hk]
    exact ⟨_, rfl, lanes_linkSt (lanes_of_trp (State.twinTime_trp ..)) _⟩

theorem execTime_unheard {k : Fin 8} {c : TimeCell}
    (h : (k.val = 7 ∧ s.twinOn = false) ∨ (k.val < 7 ∧ (s.linkRuns k.val = false ∨ fbit s.trp.rec_ TroupeRec.troupeEn = false))) :
    execTimeCell k c s = .next s.fresh ∧ execTimeCellSend k s = .next s.fresh := by
  unfold execTimeCell execTimeCellSend
  extract_lets s0
  rcases h with ⟨hk, ht⟩ | ⟨hk, h⟩
  · have ht' : s0.twinOn = false := ht
    have ht'' : fbit s0.twin.rec_ Twin.twinEn = false := ht
    rw [if_pos hk, if_pos hk, ht', ht'']
    exact ⟨rfl, rfl⟩
  · have h' : s0.linkRuns k.val = false ∨ fbit s0.trp.rec_ TroupeRec.troupeEn = false := h
    have hoff : (!s0.linkRuns k.val || !fbit s0.trp.rec_ TroupeRec.troupeEn) = true := by simpa using h'
    rw [if_neg hk.ne, if_pos hoff, if_neg hk.ne, if_pos hoff]
    exact ⟨rfl, rfl⟩

/-- A TIME cell that leaves. -/
theorem State.sendTime_facts (k : Nat) : (∃ b, (s.sendTime k).emitted = s.emitted ++ [.cell k 5 b]) ∧ ((s.sendTime k).linkSt k).tDep = s.now ∧
    ((s.sendTime k).linkSt k).lseq = (s.linkSt k).lseq + 1 := by
  unfold State.sendTime
  extract_lets v
  split
  extract_lets s1 w
  refine ⟨⟨_, rfl⟩, ?_, ?_⟩
  · rw [State.linkSt_setLinkSt_same]
  · rw [State.linkSt_setLinkSt_same]
    have h1 : w = { v with lseq := v.lseq + 1 } := State.linkSt_setLinkSt_same ..
    rw [h1]

theorem execTimeCellSend_sent {k : Fin 8} (h : (k.val < 7 ∧ s.linkRuns k.val = true ∧ fbit s.trp.rec_ TroupeRec.troupeEn = true) ∨
    (k.val = 7 ∧ s.twinOn = true)) : execTimeCellSend k s = .next (s.fresh.sendTime k.val) := by
  unfold execTimeCellSend
  extract_lets s0
  rcases h with ⟨hk, hr, he⟩ | ⟨hk, ht⟩
  · have hr' : s0.linkRuns k.val = true := hr
    have he' : fbit s0.trp.rec_ TroupeRec.troupeEn = true := he
    rw [if_neg hk.ne, if_neg (by simp [hr', he'])]
    rfl
  · have ht' : fbit s0.twin.rec_ Twin.twinEn = true := ht
    rw [if_pos hk, if_pos ht', hk]
    rfl

/-! ### The boot image (R481) -/

theorem imageParts_ne_nil {n o : Nat} {bs : List Byte} (h : bs ≠ []) : imageParts (n + 1) o bs ≠ [] := by
  have h' : bs.isEmpty = false := by rwa [List.isEmpty_eq_false_iff]
  unfold imageParts
  rw [h', if_neg Bool.false_ne_true]
  exact List.cons_ne_nil _ _

/-- Messages sent one after another leave CONTROL cells of their link alone. -/
theorem State.foldl_sendMessage_emitted (k typ : Nat) (l : List (List Byte)) : ∃ cs : List (List Byte),
    (l.foldl (fun u b => u.sendMessage k typ b) s).emitted = s.emitted ++ cs.map (.cell k 3) ∧ (l ≠ [] → cs ≠ []) := by
  induction l generalizing s with
  | nil => exact ⟨[], (List.append_nil _).symm, fun h => absurd rfl h⟩
  | cons b l ih =>
    obtain ⟨c, cs, hc⟩ := s.sendMessage_emitted k typ b
    obtain ⟨ds, hd, -⟩ := ih (s.sendMessage k typ b)
    refine ⟨c :: cs ++ ds, ?_, fun _ => List.cons_ne_nil _ _⟩
    rw [List.foldl_cons, hd, hc, List.append_assoc, List.map_append]
    rfl

/-- The active image. -/
def State.activeImage (s : State) : List Byte := (s.slotBytes s.activeSlot).take (s.slotSize s.activeSlot)

theorem execBootImageRequest_served {k : Fin 7} (h0 : s.pwr.troupeId = 0) (hf : s.pwr.bootState = .firmware)
    (hen : fbit (s.linkRec k.val) Link.linkEn = true) (hb : (s.linkSt k.val).boot = true) (hr : s.linkRuns k.val = true) :
    execBootImageRequest k s = .next ((imageParts (s.activeImage.length / 60000 + 1) 0 s.activeImage).foldl
      (fun u b => u.sendMessage k.val msgImage b) s.fresh) := by
  have h0' : s.fresh.pwr.troupeId = 0 := h0
  have hf' : s.fresh.pwr.bootState = .firmware := hf
  have hen' : fbit (s.fresh.linkRec k.val) Link.linkEn = true := hen
  have hb' : (s.fresh.linkSt k.val).boot = true := hb
  have hr' : s.fresh.linkRuns k.val = true := hr
  unfold execBootImageRequest
  extract_lets s1 img
  rw [if_neg (by simp only [s1, h0', hf', hen', hb', hr']; decide)]
  rfl

theorem execBootImageRequest_none {k : Fin 7}
    (h : s.pwr.troupeId ≠ 0 ∨ s.pwr.bootState ≠ .firmware ∨ (s.linkSt k.val).boot = false ∨ s.linkRuns k.val = false) :
    execBootImageRequest k s = .next s.fresh := by
  have h' : s.fresh.pwr.troupeId ≠ 0 ∨ s.fresh.pwr.bootState ≠ .firmware ∨ (s.fresh.linkSt k.val).boot = false ∨
      s.fresh.linkRuns k.val = false := h
  unfold execBootImageRequest
  extract_lets s1 img
  rw [if_pos]
  · rfl
  · simp only [Bool.or_eq_true, bne_iff_ne, Bool.not_eq_true']
    rcases h' with h' | h' | h' | h'
    · exact .inl (.inl (.inl (.inl h')))
    · exact .inl (.inl (.inl (.inr h')))
    · exact .inl (.inr h')
    · exact .inr h'

end

/-- Settles O55, event by event. That path A of the twins is link 7 is log entry 92, and the layouts of the cells are log entry 51. -/
theorem linksCarryTilesTimeAndImages : Obligations.LinksCarryTilesTimeAndImages := by
  refine ⟨fun s i c h => execImportTile_unlinked s h, fun s i c k h => execImportTile_tile s h, fun s i a b off ho he => execAbandon_resumes s ho he,
    fun s i a b h => execAbandon_none s h, ?_, fun s k c h => execTime_unheard s h, ?_, ?_, fun s k h => execBootImageRequest_none s h⟩
  case refine_1 =>
    intro s k c h
    obtain ⟨t, ht, hlink⟩ := execTimeCell_taken s h (c := c)
    refine ⟨t, ht, ?_⟩
    rw [hlink, State.takeTime_linkSt]
    exact ⟨rfl, rfl, rfl, rfl, rfl⟩
  case refine_2 =>
    intro s k h
    obtain ⟨⟨b, hb⟩, htdep, hseq⟩ := State.sendTime_facts s.fresh k.val
    exact ⟨_, b, execTimeCellSend_sent s h, hb, htdep, hseq⟩
  case refine_3 =>
    intro s k h0 hf hen hb hr hne img
    obtain ⟨cs, hcs, hne'⟩ : ∃ cs, _ = List.map (Emit.cell k.val 3) cs ∧ _ := State.foldl_sendMessage_emitted s.fresh k.val msgImage (imageParts (img.length / 60000 + 1) 0 img)
    refine ⟨_, execBootImageRequest_served s h0 hf hen hb hr, ?_, fun e he => ?_, rfl⟩
    · intro hnil
      exact hne' (imageParts_ne_nil hne) (List.map_eq_nil_iff.1 (hcs.symm.trans hnil))
    · obtain ⟨b, -, rfl⟩ := List.mem_map.1 (hcs ▸ he)
      exact ⟨b, rfl⟩

end Sys2Proof.Machine
end


section
/-! PROOFS. Record writes (R452 to R455), the host link (R370), blocks released (R474), the ROM's question (R480) and the events of the tests
(R500, R503, R504). -/

set_option Elab.async false

namespace Sys2Proof.Machine

open Sys2Proof

/-! ### Record writes -/

section
variable (s : State)

theorem recordBytes_length {body : List Byte} (h : body.length = 120) : (recordBytes body).length = 128 := by
  simp [recordBytes, h, leBytes_length]

theorem recordBody_length {seq : Nat} {e : QEnt} {lost : Bool} {sup : Nat} : (recordBody seq e lost sup).length = 120 := by
  simp only [recordBody, List.length_append, leBytes_length, fitBytes_length]

/-- A record begins with its sequence number and its code. -/
theorem recordBytes_take {seq : Nat} {e : QEnt} {lost : Bool} {sup : Nat} :
    (recordBytes (recordBody seq e lost sup)).take 6 = leBytes 4 seq ++ leBytes 2 e.ev.code := by
  have h : (leBytes 4 seq ++ leBytes 2 e.ev.code).length = 6 := by rw [List.length_append, leBytes_length, leBytes_length]
  rw [recordBytes, recordBody]
  simp only [List.append_assoc]
  rw [← List.append_assoc (leBytes 4 seq) (leBytes 2 e.ev.code), ← h]
  exact List.take_left

/-- What the writer leaves where the programming fails. -/
theorem State.program_failed (e : QEnt) : ∃ slots, (s.program e true).rec_ = { s.rec_ with
      slots := slots, next := BitVec.ofNat 32 (s.rec_.nextSeq + 1), failRun := s.rec_.failRun + 1
      isolated := s.rec_.isolated || decide (16 ≤ s.rec_.failRun + 1) } ∧ (0x27, locRecorder) ∈ (s.program e true).flt.status := by
  unfold State.program
  extract_lets r seq code body bytes next
  rw [if_pos rfl]
  exact ⟨_, (rec_of_kept (State.raise_kept (μ := 0x2C0014) ..)).trans (State.onRec_rec ..), State.raise_status (Ev.plain 0x27 locRecorder) _⟩

theorem State.notifySessions_flt (code : Nat) (bytes : List Byte) : (s.notifySessions code bytes).flt = s.flt :=
  flt_of_kept (State.notifySessions_kept (μ := 0x4) ..)

theorem State.program_grows (e : QEnt) (b : Bool) : StatusGrows s (s.program e b) := by
  unfold State.program
  extract_lets r seq code body bytes next
  split
  · exact (StatusGrows.of_flt (State.onRec_flt ..)).trans (State.raise0_grows ..)
  · exact .of_flt ((State.notifySessions_flt ..).trans (State.onRec_flt ..))

theorem State.writeEntry_grows (e : QEnt) (b : Bool) : StatusGrows s (s.writeEntry e b) := by
  unfold State.writeEntry
  split
  · exact .refl s
  · split
    · exact (StatusGrows.of_flt (State.onRec_flt ..)).trans (State.program_grows ..)
    · exact .of_flt (State.onRec_flt ..)

/-- The queue with its oldest event taken off. -/
def State.unqueue (rest : List QEnt) (s : State) : State := s.onFlt (fun f => { f with queue := rest, ovfOwed := false })

theorem execRecordWrite_next {b : Bool} {e : QEnt} {rest : List QEnt} (hf : s.pwr.bootState = .firmware) (hb : s.blockHeld 55 = false)
    (hq : s.flt.queue = e :: rest) : execRecordWrite b s = .next ((if s.flt.ovfOwed = true then
      (s.fresh.unqueue rest).raise0 0x28 locRecorder else s.fresh.unqueue rest).writeEntry e b) := by
  have hf' : s.fresh.pwr.bootState = .firmware := hf
  have hb' : s.fresh.blockHeld 55 = false := hb
  have hq' : s.fresh.flt.queue = e :: rest := hq
  unfold execRecordWrite
  extract_lets s1
  rw [if_neg (by simp only [s1, hf', hb']; decide), hq']
  rfl

theorem execRecordWrite_none {b : Bool} (h : s.pwr.bootState ≠ .firmware ∨ s.blockHeld 55 = true ∨ s.flt.queue = []) :
    execRecordWrite b s = .next s.fresh := by
  have h' : s.fresh.pwr.bootState ≠ .firmware ∨ s.fresh.blockHeld 55 = true ∨ s.fresh.flt.queue = [] := h
  unfold execRecordWrite
  extract_lets s1
  split
  · rfl
  · next hn =>
    have hq : s1.flt.queue = [] := by
      simp only [Bool.or_eq_true, bne_iff_ne, not_or] at hn
      exact (h'.resolve_left hn.1).resolve_left hn.2
    rw [hq]
    rfl

/-- Without an overflow to report, the oldest entry alone is judged. -/
theorem execRecordWrite_entry {b : Bool} {e : QEnt} {rest : List QEnt} (hf : s.pwr.bootState = .firmware) (hb : s.blockHeld 55 = false)
    (hq : s.flt.queue = e :: rest) (ho : s.flt.ovfOwed = false) : execRecordWrite b s = .next ((s.fresh.unqueue rest).writeEntry e b) := by
  rw [execRecordWrite_next s hf hb hq, ho, if_neg Bool.false_ne_true]

theorem State.writeEntry_isolated (e : QEnt) (b : Bool) (h : s.rec_.isolated = true) : s.writeEntry e b = s := if_pos h

theorem State.writeEntry_suppressed (e : QEnt) (b : Bool) (hi : s.rec_.isolated = false) (ha : s.rec_.allowed e.ev.code s.time.clk = false) :
    s.writeEntry e b = s.onRec (RecSt.suppress e.ev.code) := by
  rw [State.writeEntry, hi, ha, if_neg Bool.false_ne_true, if_neg Bool.false_ne_true]

theorem State.writeEntry_programmed (e : QEnt) (b : Bool) (hi : s.rec_.isolated = false) (ha : s.rec_.allowed e.ev.code s.time.clk = true) :
    s.writeEntry e b = (s.onRec (RecSt.take e.ev.code s.time.clk)).program e b := by
  rw [State.writeEntry, hi, ha, if_neg Bool.false_ne_true, if_pos rfl]

/-- A record written. -/
theorem State.writeEntry_facts (e : QEnt) (hi : s.rec_.isolated = false) (ha : s.rec_.allowed e.ev.code s.time.clk = true) :
    (s.writeEntry e false).rec_.next = BitVec.ofNat 32 (s.rec_.nextSeq + 1) ∧ (s.writeEntry e false).rec_.failRun = 0 ∧
    (s.writeEntry e false).rec_.isolated = false ∧ (s.writeEntry e false).flt = s.flt ∧
    (tget bytesReset (s.writeEntry e false).rec_.slots (s.rec_.nextSeq % 65536)).length = 128 ∧
    (tget bytesReset (s.writeEntry e false).rec_.slots (s.rec_.nextSeq % 65536)).take 6 = leBytes 4 s.rec_.nextSeq ++ leBytes 2 e.ev.code ∧
    (∀ n, n ≠ s.rec_.nextSeq % 65536 → tget bytesReset (s.writeEntry e false).rec_.slots n = tget bytesReset s.rec_.slots n) ∧
    tget natReset (s.writeEntry e false).rec_.supCount e.ev.code = 0 := by
  rw [State.writeEntry_programmed s e false hi ha]
  obtain ⟨lost, sup, codes, h⟩ := State.program_rec e (s.onRec (RecSt.take e.ev.code s.time.clk))
  have hflt : ((s.onRec (RecSt.take e.ev.code s.time.clk)).program e false).flt = s.flt :=
    flt_of_kept ((State.program_kept_ok ..).trans (State.kept_onRec ..))
  rw [State.onRec_rec, RecSt.take_nextSeq] at h
  rw [h, hflt]
  refine ⟨rfl, rfl, hi, rfl, ?_, ?_, fun n hn => ?_, ?_⟩
  · rw [tget_tset_same]
    exact recordBytes_length recordBody_length
  · rw [tget_tset_same, recordBytes_take]
  · rw [tget_tset, if_neg hn]
    rfl
  · exact tget_tset_same natReset (RecSt.take e.ev.code s.time.clk s.rec_).supCount e.ev.code 0

/-- A record that fails. -/
theorem State.writeEntry_fails (e : QEnt) (hi : s.rec_.isolated = false) (ha : s.rec_.allowed e.ev.code s.time.clk = true) :
    (s.writeEntry e true).rec_.next = BitVec.ofNat 32 (s.rec_.nextSeq + 1) ∧ (s.writeEntry e true).rec_.failRun = s.rec_.failRun + 1 ∧
    (0x27, locRecorder) ∈ (s.writeEntry e true).flt.status ∧ (s.writeEntry e true).rec_.isolated = decide (16 ≤ s.rec_.failRun + 1) := by
  rw [State.writeEntry_programmed s e true hi ha]
  obtain ⟨slots, h, hst⟩ := (s.onRec (RecSt.take e.ev.code s.time.clk)).program_failed e
  rw [State.onRec_rec, RecSt.take_nextSeq] at h
  rw [h]
  refine ⟨rfl, rfl, hst, ?_⟩
  show (s.rec_.isolated || _) = _
  rw [hi, Bool.false_or]
  rfl

end

/-! ### The host link and PCIe reset (R370) -/

section
variable (s : State)

/-- The enumeration of the function lasts through an event. -/
theorem State.raise_enumerated (e : Ev) : (s.raise e).ctl.enumerated = s.ctl.enumerated :=
  (congrArg CtlSt.enumerated (State.raise_unpended s e) :)

theorem execHostLinkChange_changes {r : Fin 4} (hp : s.hostPort = true) (hr : s.pwr.hostRate ≠ BitVec.ofNat 2 r.val) :
    ∃ t, execHostLinkChange r s = .next t ∧ t.pwr = { s.pwr with hostRate := BitVec.ofNat 2 r.val } ∧ (0xFC, locHost) ∈ t.flt.status ∧
    t.ctl.enumerated = (s.ctl.enumerated && decide (r.val ≠ 0)) := by
  have hp' : s.fresh.hostPort = true := hp
  have hr' : s.fresh.pwr.hostRate ≠ BitVec.ofNat 2 r.val := hr
  unfold execHostLinkChange
  extract_lets s0 rate s1 s2
  have h2 : s2.pwr = { s.pwr with hostRate := BitVec.ofNat 2 r.val } ∧ s2.ctl.enumerated = (s.ctl.enumerated && decide (r.val ≠ 0)) := by
    unfold s2
    split
    next h0 =>
      refine ⟨(pwr_of_kept (State.hostGone_kept (μ := 0x204) ..)).trans (pwr_of_kept (State.abortReads_kept (μ := 0x2C0014) ..)), ?_⟩
      simp [h0, State.hostGone]
    next h0 =>
      refine ⟨rfl, ?_⟩
      rw [decide_eq_true h0, Bool.and_true]
      rfl
  obtain ⟨hpwr, henum⟩ := h2
  rw [if_neg (by rw [hp', Bool.not_true, Bool.false_or, decide_eq_true_eq]; exact hr')]
  refine ⟨_, rfl, (pwr_of_kept (State.raise_kept (μ := 0x2C0014) ..)).trans hpwr, State.raise_status .., (State.raise_enumerated ..).trans henum⟩

theorem execHostLinkChange_same {r : Fin 4} (h : s.hostPort = false ∨ s.pwr.hostRate = BitVec.ofNat 2 r.val) :
    execHostLinkChange r s = .next s.fresh := by
  have h' : s.fresh.hostPort = false ∨ s.fresh.pwr.hostRate = BitVec.ofNat 2 r.val := h
  unfold execHostLinkChange
  extract_lets s0 rate s1 s2
  rw [if_pos (by simpa [s0, rate] using h')]
  rfl

theorem State.mem_hostGone_waits (w : BestAccess) : w ∈ s.hostGone.bud.waits ↔ w ∈ s.bud.waits ∧ ∃ a b, w = .write a b := by
  show w ∈ List.filter _ _ ↔ _
  rw [List.mem_filter]
  cases w with
  | read a n => simp
  | write a b => simp

/-! ### A block released, and the ROM's question (R474, R480) -/

theorem State.runBlock_pwr (b : Nat) : (s.runBlock b).pwr = s.pwr := pwr_of_kept (State.runBlock_kept (μ := 0x6F3814) ..)

/-- A block no longer held. -/
def State.unhold (b : Nat) (s : State) : State := s.onPwr (fun p => { p with
  rstCtl := fput p.rstCtl RstCtl.blkBusy (listMask ((maskList 64 (fget p.rstCtl RstCtl.blkBusy)).filter (· != b))) })

theorem State.unhold_blockHeld {b c : Nat} (hc : c < 57) : (s.unhold b).blockHeld c = (s.blockHeld c && decide (c ≠ b)) := by
  have hw : fget (s.unhold b).pwr.rstCtl RstCtl.blkBusy =
      listMask ((maskList 64 (fget s.pwr.rstCtl RstCtl.blkBusy)).filter (· != b)) % 2 ^ 64 := fget_fput _ _ _ (by decide)
  rw [State.blockHeld, hw, maskBit_mod_two_pow, maskBit_listMask, State.blockHeld, Bool.eq_iff_iff]
  simp only [Bool.and_eq_true, decide_eq_true_eq, List.contains_iff_mem, List.mem_filter, mem_maskList_iff, bne_iff_ne]
  constructor
  · rintro ⟨-, ⟨-, hm⟩, hne⟩
    exact ⟨hm, hne⟩
  · rintro ⟨hm, hne⟩
    exact ⟨by omega, ⟨by omega, hm⟩, hne⟩

theorem execBlockResetRelease_held {b : Fin 57} (h : s.blockHeld b.val = true) :
    execBlockResetRelease b s = .next ((s.fresh.unhold b.val).runBlock b.val) := by
  have h' : s.fresh.blockHeld b.val = true := h
  unfold execBlockResetRelease
  extract_lets s0
  rw [if_neg (by simp [s0, h'])]
  rfl

theorem execBlockResetRelease_free {b : Fin 57} (h : s.blockHeld b.val = false) : execBlockResetRelease b s = .next s.fresh := by
  have h' : s.fresh.blockHeld b.val = false := h
  unfold execBlockResetRelease
  extract_lets s0
  rw [if_pos (by simp [s0, h'])]
  rfl

/-- A message of at most 240 bytes leaves in one cell. -/
theorem State.sendMessage_short {bytes : List Byte} (k typ : Nat) (h : bytes.length < 240) : ∃ b, s.sendMessage k typ bytes =
    (s.onTrp (fun t => { t with msgId := s.trp.msgId + 1 })).sendCell k 3 0 0 b := by
  unfold State.sendMessage
  extract_lets fs id
  have hfs : fs = [bytes] := by
    unfold fs
    rw [Nat.div_eq_of_lt h]
    rfl
  rw [hfs]
  exact ⟨_, rfl⟩

theorem execBootPeerRetry_asks (hb : s.bootLink 0 = true) (hr : s.linkRuns 0 = true) :
    execBootPeerRetry s = .next (s.fresh.sendMessage 0 msgImage (leBytes 4 0)) := by
  have hb' : s.fresh.bootLink 0 = true := hb
  have hr' : s.fresh.linkRuns 0 = true := hr
  unfold execBootPeerRetry
  extract_lets s0
  rw [if_pos (by simp [s0, hb', hr'])]
  rfl

theorem execBootPeerRetry_none (h : s.bootLink 0 = false ∨ s.linkRuns 0 = false) : execBootPeerRetry s = .next s.fresh := by
  have h' : s.fresh.bootLink 0 = false ∨ s.fresh.linkRuns 0 = false := h
  unfold execBootPeerRetry
  extract_lets s0
  rw [if_neg (by rcases h' with h' | h' <;> simp [s0, h'])]
  rfl

/-! ### The events of the tests (R500, R503, R504) -/

theorem State.answerJob_some {p : Job → Bool} {j : Job} (st : Nat) (res : Job → List Byte) (h : s.ctl.jobs.find? p = some j) :
    s.answerJob p st res = respond j.opcode st j.req (res j) (s.onCtl (fun c => { c with jobs := c.jobs.eraseP p })) := by
  unfold State.answerJob
  rw [h]

theorem execMemoryTestComplete_run {errs : List (BitVec 32)} {mask x : Nat} {j : Job} (hm : s.tst.memRun = some (mask, x))
    (hj : s.ctl.jobs.find? (fun j => j.kind == .memTest) = some j) :
    execMemoryTestComplete errs s = .next (respond j.opcode 0 j.req
      ((List.range 16).flatMap (fun c => leBytes 4 (if maskBit mask c then (errs.getD c 0).toNat else 0))) { s with
        emitted := [], mem := s.mem.tested s.pwr.reduced mask, tst := { s.tst with memRun := none }
        ctl := { s.ctl with jobs := s.ctl.jobs.eraseP (fun j => j.kind == .memTest) } }) := by
  have hm' : s.fresh.tst.memRun = some (mask, x) := hm
  unfold execMemoryTestComplete
  extract_lets s0
  rw [hm']
  exact congrArg Host.Outcome.next
    (State.answerJob_some ((s.fresh.onMem (MemSt.tested s.pwr.reduced mask)).onTst (fun t => { t with memRun := none })) 0 _ hj)

theorem execMemoryTestComplete_none {errs : List (BitVec 32)} (hm : s.tst.memRun = none) : execMemoryTestComplete errs s = .next s.fresh := by
  have hm' : s.fresh.tst.memRun = none := hm
  unfold execMemoryTestComplete
  extract_lets s0
  rw [hm']
  rfl

theorem execShadowCheckComplete_run {failed : BitVec 144} {scope lane : Nat} {j : Job} (hm : s.tst.shadowRun = some (scope, lane))
    (hj : s.ctl.jobs.find? (fun j => j.kind == .shadowTest) = some j) :
    execShadowCheckComplete failed s = .next (respond j.opcode 0 j.req
      (shadowResult (if lane = 0xFFFF then s.shadowLanes scope else [lane]) failed.toNat) { s with
        emitted := [], tst := { s.tst with shadowRun := none }
        ctl := { s.ctl with jobs := s.ctl.jobs.eraseP (fun j => j.kind == .shadowTest) } }) := by
  have hm' : s.fresh.tst.shadowRun = some (scope, lane) := hm
  unfold execShadowCheckComplete
  extract_lets s0
  rw [hm']
  exact congrArg Host.Outcome.next (State.answerJob_some (s.fresh.onTst (fun t => { t with shadowRun := none })) 0 _ hj)

theorem execShadowCheckComplete_none {failed : BitVec 144} (hm : s.tst.shadowRun = none) : execShadowCheckComplete failed s = .next s.fresh := by
  have hm' : s.fresh.tst.shadowRun = none := hm
  unfold execShadowCheckComplete
  extract_lets s0
  rw [hm']
  rfl

/-- What a report of a checker makes of its lane. -/
def TestLane.reported (v : TestLane) (lk : Bool) (bits errs : BitVec 64) : TestLane := { v with
  locked := lk
  bits := if v.locked then (v.bits + bits.toNat) % 2 ^ 64 else v.bits
  errors := if v.locked then (v.errors + errs.toNat) % 2 ^ 64 else v.errors }

theorem execCheckerLock_reports {l : Fin 224} {lk : Bool} {bits errs : BitVec 64} (hc : (s.testLane l.val).check ≠ 0) :
    execCheckerLock l lk bits errs s = .next (s.fresh.setTest l.val ((s.testLane l.val).reported lk bits errs)) := if_neg hc

theorem execCheckerLock_off {l : Fin 224} {lk : Bool} {bits errs : BitVec 64} (hc : (s.testLane l.val).check = 0) :
    execCheckerLock l lk bits errs s = .next s.fresh := if_pos hc

theorem State.testLane_setTest (x : Nat) (v : TestLane) (n : Nat) : (s.setTest x v).testLane n = if n = x then v else s.testLane n := tget_tset ..

end

/-- Settles O60, event by event. That posted writes still wait after a PCIe reset is log entry 104, and the enumeration flag log entry 64. -/
theorem recorderHostLinkAndTestEvents : Obligations.RecorderHostLinkAndTestEvents := by
  refine ⟨fun s b h => execRecordWrite_none s h, ?_, ?_, ?_, ?_, ?_, fun s r hp hr => execHostLinkChange_changes s hp hr,
    fun s r h => execHostLinkChange_same s h, ?_, ?_, fun s b h => execBlockResetRelease_free s h, ?_, fun s h => execBootPeerRetry_none s h,
    fun s errs mask x j hm hj => execMemoryTestComplete_run s hm hj, fun s errs hm => execMemoryTestComplete_none s hm,
    fun s failed scope lane j hm hj => execShadowCheckComplete_run s hm hj, fun s failed hm => execShadowCheckComplete_none s hm, ?_,
    fun s l lk bits errs hc => execCheckerLock_off s hc⟩
  case refine_1 =>
    intro s b e rest hf hb hq ho
    refine ⟨_, execRecordWrite_next s hf hb hq, State.writeEntry_grows _ e b ?_⟩
    rw [if_pos ho]
    exact State.raise_status (Ev.plain 0x28 locRecorder) _
  case refine_2 =>
    intro s b e rest hf hb hq ho hi
    refine ⟨_, execRecordWrite_entry s hf hb hq ho, ?_⟩
    rw [State.writeEntry_isolated (s.fresh.unqueue rest) e b hi]
    exact ⟨rfl, rfl⟩
  case refine_3 =>
    intro s b e rest hf hb hq ho hi ha
    refine ⟨_, execRecordWrite_entry s hf hb hq ho, ?_⟩
    rw [State.writeEntry_suppressed (s.fresh.unqueue rest) e b hi ha]
    exact ⟨rfl, rfl⟩
  case refine_4 =>
    intro s e rest hf hb hq ho hi ha
    obtain ⟨hnext, hrun, hiso, hflt, hlen, htake, hslots, hsup⟩ := State.writeEntry_facts (s.fresh.unqueue rest) e hi ha
    exact ⟨_, execRecordWrite_entry s hf hb hq ho, hnext, hrun, hiso, congrArg FltSt.queue hflt, hlen, htake, hslots, hsup⟩
  case refine_5 =>
    intro s e rest hf hb hq ho hi ha
    exact ⟨_, execRecordWrite_entry s hf hb hq ho, State.writeEntry_fails (s.fresh.unqueue rest) e hi ha⟩
  case refine_6 =>
    intro s
    refine ⟨_, rfl, rfl, fun a n h => ?_, fun a b => ?_, rfl, rfl, rfl⟩
    · obtain ⟨-, x, y, hxy⟩ := (State.mem_hostGone_waits s.fresh _).1 h
      cases hxy
    · exact (State.mem_hostGone_waits s.fresh _).trans ⟨And.left, fun h => ⟨h, a, b, rfl⟩⟩
  case refine_7 =>
    intro s b h
    have hp (c : Nat) : ((s.fresh.unhold b.val).runBlock b.val).blockHeld c = (s.fresh.unhold b.val).blockHeld c := by
      rw [State.blockHeld, State.runBlock_pwr, State.blockHeld]
    refine ⟨_, execBlockResetRelease_held s h, ?_, fun c hc hne => ?_⟩
    · rw [hp, State.unhold_blockHeld _ b.isLt, decide_eq_false (not_not_intro rfl), Bool.and_false]
    · rw [hp, State.unhold_blockHeld _ hc, decide_eq_true hne, Bool.and_true]
      rfl
  case refine_8 =>
    intro s hb hr
    obtain ⟨b, h⟩ := s.fresh.sendMessage_short 0 msgImage (bytes := leBytes 4 0) (by rw [leBytes_length]; decide)
    obtain ⟨c, hc⟩ : ∃ c, (s.fresh.sendMessage 0 msgImage (leBytes 4 0)).emitted = [.cell 0 3 c] := by
      rw [h]
      exact ⟨_, rfl⟩
    refine ⟨_, c, execBootPeerRetry_asks s hb hr, hc, ?_⟩
    rw [h]
    exact ⟨rfl, rfl⟩
  case refine_9 =>
    intro s l lk bits errs hc
    refine ⟨_, execCheckerLock_reports s hc, ?_⟩
    rw [State.testLane_setTest, if_pos rfl]
    exact ⟨rfl, rfl, rfl, fun n hn => (State.testLane_setTest ..).trans (if_neg hn)⟩

end Sys2Proof.Machine
end


section
/-! PROOFS. What a reset of the fast domains leaves (R463, R470), what it counts (R471), and where the release it starts begins (R475, R476). -/

set_option Elab.async false

namespace Sys2Proof.Machine

open Sys2Proof

/-! ### Counters (R471) -/

theorem cntFld_high (c : Cause) : (cntFld c).lo + (cntFld c).width ≤ 128 := by cases c <;> decide

theorem cntFld_width (c : Cause) : (cntFld c).width = 16 := by cases c <;> rfl

/-- A cause counted advances its counter, which stays at its greatest value. -/
theorem countCause_count (c : Cause) (seq : Option Cause) (r : BitVec 256) :
    fget (countCause c seq r) (cntFld c) = min 0xFFFF (fget r (cntFld c) + 1) := by
  have hhigh := cntFld_high c
  unfold countCause
  extract_lets r1 total last
  rw [fget_fput_of_disjoint _ _ _ _ (by decide) (.inl (hhigh.trans (by decide))), fget_fput_of_disjoint _ _ _ _ (by decide) (.inl hhigh)]
  unfold r1
  rw [fget_fput _ _ _ (hhigh.trans (by decide)), cntFld_width, satAdd, min_comm]
  exact Nat.mod_eq_of_lt (lt_of_le_of_lt (min_le_left _ _) (by decide))

/-- The power state with a cause counted. -/
def PwrSt.counted (last : Option Cause) (r : BitVec 256) (p : PwrSt) : PwrSt := { p with cnt := r, lastReset := last }

section
variable (s : State)

theorem State.onPwr_congr {f g : PwrSt → PwrSt} (h : f s.pwr = g s.pwr) : s.onPwr f = s.onPwr g := by
  rw [State.onPwr, h, State.onPwr]

theorem State.countReset_eq (c : Cause) : ∃ seq, s.countReset c = s.onPwr (PwrSt.counted (some c) (countCause c seq s.pwr.cnt)) :=
  ⟨if s.inRelease then s.pwr.lastReset else none, State.onPwr_congr s rfl⟩

theorem State.countReset_cnt (c : Cause) : fget (s.countReset c).pwr.cnt (cntFld c) = min 0xFFFF (fget s.pwr.cnt (cntFld c) + 1) := by
  obtain ⟨seq, h⟩ := s.countReset_eq c
  rw [h]
  exact countCause_count ..

/-- What a cause counted leaves. -/
theorem State.countReset_leaves (c : Cause) : (s.countReset c).rte = s.rte ∧ (s.countReset c).upd = s.upd ∧
    (s.countReset c).pwr.scratch = s.pwr.scratch ∧ (s.countReset c).pwr.aon = s.pwr.aon ∧ (s.countReset c).pwr.rstLow = s.pwr.rstLow ∧
    (s.countReset c).pwr.power = s.pwr.power := by
  obtain ⟨seq, h⟩ := s.countReset_eq c
  rw [h]
  exact ⟨rfl, rfl, rfl, rfl, rfl, rfl⟩

/-! ### The state cleared (R463, R470) -/

theorem State.cleared_cleared : Cleared s s.cleared where
  mem := rfl
  bud := rfl
  routes := rfl
  eth := rfl
  flo := rfl
  cmp := rfl
  cal := rfl
  ref := rfl
  ptp := rfl
  trp := rfl
  tst := rfl
  priv := rfl
  jobs := ⟨rfl, rfl, rfl, rfl⟩
  status := rfl
  net := by
    show fbit (resetRec 256 FaultCtl.layout) FaultCtl.safetyNet = false
    decide
  stopped := rfl
  step := by
    show fget (fput (fput PwrSt.reset.rstCtl RstCtl.releaseStep 0) RstCtl.trimDone 0) RstCtl.releaseStep = 0
    rw [fget_fput_of_disjoint _ _ _ _ (by decide) (by decide), fget_fput _ _ _ (by decide)]
    rfl
  images := rfl
  scratch := rfl
  clock := rfl

/-- Of the always-on state, the counters, the RESET_N level and the record stay. -/
theorem State.cleared_pwr : s.cleared.pwr.cnt = s.pwr.cnt ∧ s.cleared.pwr.rstLow = s.pwr.rstLow ∧ s.cleared.pwr.aon = s.pwr.aon :=
  ⟨rfl, rfl, rfl⟩

end

section
variable {s t u : State}

/-- A state cleared, with its power state changed where nothing cleared is. -/
theorem Cleared.onPwr (h : Cleared s t) {f : PwrSt → PwrSt} (hb : (f t.pwr).bootState = t.pwr.bootState) (hr : (f t.pwr).rstCtl = t.pwr.rstCtl)
    (hs : (f t.pwr).scratch = t.pwr.scratch) : Cleared s (t.onPwr f) :=
  { h with
    stopped := hb.trans h.stopped
    step := (congrArg (fget · RstCtl.releaseStep) hr).trans h.step
    scratch := hs.trans h.scratch }

/-- What is cleared depends on the presets, the images and the scratch registers alone. -/
theorem Cleared.source (h : Cleared u t) (hp : u.rte = s.rte) (hu : u.upd = s.upd) (hs : u.pwr.scratch = s.pwr.scratch) : Cleared s t :=
  { h with
    routes := by rw [h.routes, hp]
    images := by rw [h.images, hu]
    scratch := h.scratch.trans hs }

end

/-! ### The start of a release (R475, R476) -/

/-- A release started: the device cleared, in STAGING, with its straps to be sampled or not. -/
structure Releases (straps : Bool) (s t : State) : Prop where
  cleared : Cleared s t
  power : t.pwr.power = .staging
  sampling : t.pwr.sampling = straps
  cnt : t.pwr.cnt = s.pwr.cnt
  rstLow : t.pwr.rstLow = s.pwr.rstLow
  aon : t.pwr.aon = s.pwr.aon

section
variable (s : State)

theorem State.stepOne_eq : ∃ h, s.stepOne = s.onPwr (fun p => { p with halt := h, sampling := false }) := by
  unfold State.stepOne
  split
  · exact ⟨some .clkMode, rfl⟩
  · split
    · exact ⟨some .strap, rfl⟩
    · exact ⟨s.pwr.halt, rfl⟩

/-- The power state in which a release starts. -/
def PwrSt.released (notes : List Ev) (was : Option Nat) (straps : Bool) (p : PwrSt) : PwrSt :=
  { p with power := .staging, notes := notes, powerWas := was, sampling := straps }

theorem State.startRelease_releases (straps : Bool) (wake : Option Nat) : Releases straps s (s.startRelease straps wake) := by
  obtain ⟨hcnt, hlow, haon⟩ := s.cleared_pwr
  have hbase : ∃ notes was, s.startRelease straps wake = if straps then s.cleared.onPwr (PwrSt.released notes was straps)
      else (s.cleared.onPwr (PwrSt.released notes was straps)).stepOne := ⟨_, _, rfl⟩
  obtain ⟨notes, was, h⟩ := hbase
  have hc : Cleared s (s.cleared.onPwr (PwrSt.released notes was straps)) := s.cleared_cleared.onPwr rfl rfl rfl
  rw [h]
  cases straps with
  | true => exact ⟨hc, rfl, rfl, hcnt, hlow, haon⟩
  | false =>
    obtain ⟨halt, h1⟩ := (s.cleared.onPwr (PwrSt.released notes was false)).stepOne_eq
    rw [if_neg Bool.false_ne_true, h1]
    exact ⟨hc.onPwr rfl rfl rfl, rfl, rfl, hcnt, hlow, haon⟩

theorem State.fullReset_releases (c : Cause) : Cleared s (s.fullReset c) ∧ (s.fullReset c).pwr.power = .staging ∧
    (s.fullReset c).pwr.sampling = (c == .por || c == .pin) ∧ (s.fullReset c).pwr.rstLow = s.pwr.rstLow ∧
    fget (s.fullReset c).pwr.cnt (cntFld c) = min 0xFFFF (fget s.pwr.cnt (cntFld c) + 1) := by
  have h : Releases (c == .por || c == .pin) (s.countReset c) (s.fullReset c) := State.startRelease_releases ..
  obtain ⟨hrte, hupd, hscr, -, hlow, -⟩ := s.countReset_leaves c
  exact ⟨h.cleared.source hrte hupd hscr, h.power, h.sampling, h.rstLow.trans hlow, h.cnt ▸ s.countReset_cnt c⟩

/-! ### WATCH, and the wakes out of it (R463, R465) -/

/-- The power state of a device gated off. -/
def PwrSt.watched (aon : BitVec 256) (p : PwrSt) : PwrSt := { p with power := .watch, wakeHeld := none, aon := aon }

theorem State.watched_facts (aon : BitVec 256) : Cleared s (s.cleared.onPwr (PwrSt.watched aon)) ∧
    (s.cleared.onPwr (PwrSt.watched aon)).pwr.power = .watch ∧ (s.cleared.onPwr (PwrSt.watched aon)).pwr.cnt = s.pwr.cnt ∧
    (s.cleared.onPwr (PwrSt.watched aon)).pwr.aon = aon :=
  ⟨s.cleared_cleared.onPwr rfl rfl rfl, rfl, s.cleared_pwr.1, rfl⟩

theorem State.toWatch_eq : ∃ e, s.toWatch = (s.raise e).cleared.onPwr (PwrSt.watched (fput s.pwr.aon Aon.actP 0)) := by
  refine ⟨⟨0x00, locAon, true, 0, leBytes 1 (powerCode s.pwr.power) ++ leBytes 1 1⟩, ?_⟩
  have h (u : State) (hu : u.pwr = s.pwr) : u.cleared.onPwr (fun p => { p with power := .watch, wakeHeld := none, aon := fput p.aon Aon.actP 0 }) =
      u.cleared.onPwr (PwrSt.watched (fput s.pwr.aon Aon.actP 0)) := by
    rw [← hu, ← u.cleared_pwr.2.2]
    exact State.onPwr_congr _ rfl
  exact h _ (State.raise_pwr ..)

theorem State.toWatch_facts : Cleared s s.toWatch ∧ s.toWatch.pwr.power = .watch ∧ s.toWatch.pwr.cnt = s.pwr.cnt ∧
    s.toWatch.pwr.aon = fput s.pwr.aon Aon.actP 0 := by
  obtain ⟨e, hw⟩ := s.toWatch_eq
  have hk : (s.raise e).kept 0x2C0014 = s.kept 0x2C0014 := State.raise_kept ..
  have hpwr : (s.raise e).pwr = s.pwr := State.raise_pwr ..
  obtain ⟨hc, hp, hcnt, haon⟩ := (s.raise e).watched_facts (fput s.pwr.aon Aon.actP 0)
  rw [hw]
  exact ⟨hc.source (rte_of_kept hk) (upd_of_kept hk) (congrArg PwrSt.scratch hpwr), hp, hcnt.trans (congrArg PwrSt.cnt hpwr), haon⟩

theorem State.wakeNow_releases (code : Nat) : Cleared s (s.wakeNow code) ∧ (s.wakeNow code).pwr.power = .staging ∧
    (s.wakeNow code).pwr.sampling = (code == 1) ∧ (s.wakeNow code).pwr.aon = s.pwr.aon := by
  unfold State.wakeNow
  extract_lets counted
  have hcounted : counted.rte = s.rte ∧ counted.upd = s.upd ∧ counted.pwr.scratch = s.pwr.scratch ∧ counted.pwr.aon = s.pwr.aon := by
    have h (c : Cause) : (s.countReset c).rte = s.rte ∧ (s.countReset c).upd = s.upd ∧ (s.countReset c).pwr.scratch = s.pwr.scratch ∧
        (s.countReset c).pwr.aon = s.pwr.aon := by
      obtain ⟨hrte, hupd, hscr, haon, -, -⟩ := s.countReset_leaves c
      exact ⟨hrte, hupd, hscr, haon⟩
    unfold counted
    split
    · exact h .pin
    · split
      · exact ⟨rfl, rfl, rfl, rfl⟩
      · exact h .wake
  obtain ⟨hrte, hupd, hscr, haon⟩ := hcounted
  clear_value counted
  have h := State.startRelease_releases (counted.onPwr (fun p => { p with wakeHeld := none })) (code == 1) (some code)
  exact ⟨h.cleared.source hrte hupd hscr, h.power, h.sampling, h.aon.trans haon⟩

theorem State.tryWake_wakes {c : Nat} (hw : s.pwr.wakeHeld = some c) (hp : s.pwr.power = .watch) (hu : s.unheld = true) :
    s.tryWake = s.wakeNow c := by
  unfold State.tryWake
  rw [hw]
  exact if_pos (by simp [hp, hu])

theorem State.tryWake_held (hu : s.unheld = false) : s.tryWake = s := by
  unfold State.tryWake
  split
  · rw [hu, Bool.and_false, if_neg Bool.false_ne_true]
  · rfl

end

end Sys2Proof.Machine
end


section
/-! PROOFS. Resets, power states, the release sequence, the boot and the Ringmaster's restarts (R433, R461 to R465, R470, R475 to R491), each by
the condition under which it acts. -/

set_option Elab.async false

namespace Sys2Proof.Machine

open Sys2Proof

/-! ### Resets and WATCH -/

/-- The power state as power returns: its always-on settings at reset. -/
def PwrSt.poweredOn (aon : BitVec 256) (p : PwrSt) : PwrSt := { p with aon := aon, wakeHeld := none, thermalLater := none }

section
variable (s : State)

theorem execPowerOn_eq : ∃ aon, execPowerOn s = .next ((s.fresh.onPwr (PwrSt.poweredOn aon)).fullReset .por) := by
  unfold execPowerOn
  extract_lets s0 keep
  exact ⟨_, congrArg (fun u => Host.Outcome.next (State.fullReset .por u)) (State.onPwr_congr s.fresh rfl)⟩

theorem execPowerOn_clears : ∃ t, execPowerOn s = .next t ∧ Cleared s t ∧ t.pwr.power = .staging ∧ t.pwr.sampling = true ∧
    fget t.pwr.cnt Cnt.cntPor = min 0xFFFF (fget s.pwr.cnt Cnt.cntPor + 1) := by
  obtain ⟨aon, h⟩ := execPowerOn_eq s
  obtain ⟨hc, hp, hs, -, hn⟩ := (s.fresh.onPwr (PwrSt.poweredOn aon)).fullReset_releases .por
  exact ⟨_, h, hc.source rfl rfl rfl, hp, hs, hn⟩

/-- The power state with RESET_N at a level. -/
def PwrSt.pinned (low : Bool) (p : PwrSt) : PwrSt := { p with rstLow := low }

theorem execResetN_resets (hf : s.fastOn = true) (hl : s.pwr.rstLow = false) : ∃ t, execResetN s = .next t ∧ Cleared s t ∧
    t.pwr.power = .staging ∧ t.pwr.rstLow = true ∧ t.pwr.sampling = true ∧
    fget t.pwr.cnt Cnt.cntPin = min 0xFFFF (fget s.pwr.cnt Cnt.cntPin + 1) := by
  have hx : execResetN s = .next ((s.fresh.onPwr (PwrSt.pinned true)).fullReset .pin) := by
    have hf' : s.fresh.fastOn = true := hf
    have hl' : s.fresh.pwr.rstLow = false := hl
    unfold execResetN
    extract_lets s0 s1
    rw [if_neg (by rw [hl']; exact Bool.false_ne_true), if_pos hf']
    rfl
  obtain ⟨hc, hp, hs, hlow, hn⟩ := (s.fresh.onPwr (PwrSt.pinned true)).fullReset_releases .pin
  exact ⟨_, hx, hc.source rfl rfl rfl, hp, hlow, hs, hn⟩

theorem execResetN_gated (hf : s.fastOn = false) (hl : s.pwr.rstLow = false) :
    execResetN s = .next { s with emitted := [], pwr := { s.pwr with rstLow := true } } := by
  have hf' : s.fresh.fastOn = false := hf
  have hl' : s.fresh.pwr.rstLow = false := hl
  unfold execResetN
  extract_lets s0 s1
  rw [if_neg (by rw [hl']; exact Bool.false_ne_true), if_neg (by rw [hf']; exact Bool.false_ne_true)]
  rfl

/-- A full reset by a cause, on the state as it stands. -/
theorem State.fullReset_fresh (c : Cause) : Cleared s (s.fresh.fullReset c) ∧ (s.fresh.fullReset c).pwr.power = .staging ∧
    fget (s.fresh.fullReset c).pwr.cnt (cntFld c) = min 0xFFFF (fget s.pwr.cnt (cntFld c) + 1) := by
  obtain ⟨hc, hp, -, -, hn⟩ := s.fresh.fullReset_releases c
  exact ⟨hc.source rfl rfl rfl, hp, hn⟩

theorem execSoftwareReset_soft {d : BitVec 64} (h : s.pwr.due = some (.soft, d)) : execSoftwareReset s = .next (s.fresh.fullReset .soft) := by
  have h' : s.fresh.pwr.due = some (.soft, d) := h
  unfold execSoftwareReset
  extract_lets s0
  rw [h']
  rfl

theorem execSoftwareReset_troupe {d : BitVec 64} (h : s.pwr.due = some (.troupe, d)) :
    execSoftwareReset s = .next (s.fresh.fullReset .troupe) := by
  have h' : s.fresh.pwr.due = some (.troupe, d) := h
  unfold execSoftwareReset
  extract_lets s0
  rw [h']
  rfl

/-- With nothing announced, none of the announced resets acts. -/
theorem exec_of_nothing_due (h : s.pwr.due = none) : execSoftwareReset s = .next s.fresh ∧ execWatchEntry s = .next s.fresh ∧
    execRingmasterRestart s = .next s.fresh := by
  have h' : s.fresh.pwr.due = none := h
  unfold execSoftwareReset execWatchEntry execRingmasterRestart
  extract_lets s0
  rw [h']
  exact ⟨rfl, rfl, rfl⟩

theorem execFatalFaultReset_resets (hn : s.safetyNet = true) (hf : s.flt.fatalAt.isSome = true) :
    execFatalFaultReset s = .next (s.fresh.fullReset .fatal) := by
  have hn' : s.fresh.safetyNet = true := hn
  have hf' : s.fresh.flt.fatalAt.isSome = true := hf
  unfold execFatalFaultReset
  extract_lets s0
  rw [if_pos (by rw [hn', hf']; rfl)]
  rfl

theorem execFatalFaultReset_none (h : s.safetyNet = false ∨ s.flt.fatalAt = none) : execFatalFaultReset s = .next s.fresh := by
  have h' : s.fresh.safetyNet = false ∨ s.fresh.flt.fatalAt = none := h
  unfold execFatalFaultReset
  extract_lets s0
  refine (if_neg ?_).trans rfl
  rw [Bool.and_eq_true]
  rintro ⟨hn, hf⟩
  rcases h' with h' | h'
  · exact Bool.false_ne_true (h'.symm.trans hn)
  · rw [show s0.flt.fatalAt = none from h'] at hf
    exact Bool.false_ne_true hf

theorem execWatchEntry_gates {d : BitVec 64} (h : s.pwr.due = some (.watch, d)) (hp : s.pwr.power = .staging) :
    ∃ t, execWatchEntry s = .next t ∧ Cleared s t ∧ t.pwr.power = .watch ∧ t.pwr.cnt = s.pwr.cnt := by
  have hx : execWatchEntry s = .next s.fresh.toWatch := by
    have h' : s.fresh.pwr.due = some (.watch, d) := h
    have hp' : s.fresh.pwr.power = .staging := hp
    unfold execWatchEntry
    extract_lets s0
    rw [h']
    exact if_pos hp'
  obtain ⟨hc, hw, hcnt, -⟩ := s.fresh.toWatch_facts
  exact ⟨_, hx, hc.source rfl rfl rfl, hw, hcnt⟩

/-! ### A thermal shutdown (R464) -/

theorem PwrSt.withAon_leaves (a : BitVec 256) (p : PwrSt) : (p.withAon a).scratch = p.scratch ∧ (p.withAon a).cnt = p.cnt ∧
    (p.withAon a).rstLow = p.rstLow ∧ (p.withAon a).wakeHeld = p.wakeHeld := ⟨rfl, rfl, rfl, rfl⟩

theorem addTo_ne_nil (k : Nat) (l : List Nat) : addTo k l ≠ [] := List.ne_nil_of_mem (mem_addTo_self k l)

/-- The power state with a quadrant's trip. -/
def PwrSt.tripped (k : Nat) (p : PwrSt) : PwrSt := { p with trip125 := addTo k p.trip125, over105 := addTo k p.over105 }

/-- The device as its shutdown begins: the trip noted, in Safety Net, and counted. -/
def State.shutDown (k : Nat) (s : State) : State :=
  ((s.fresh.onPwr (fun p => syncTrips (p.tripped k))).enterSafetyNet).countReset .thermal

theorem State.shutDown_facts (k : Nat) : (s.shutDown k).rte = s.rte ∧ (s.shutDown k).upd = s.upd ∧
    (s.shutDown k).pwr.scratch = s.pwr.scratch ∧ (s.shutDown k).pwr.aon = (syncTrips (s.pwr.tripped k)).aon ∧
    fget (s.shutDown k).pwr.cnt Cnt.cntThermal = min 0xFFFF (fget s.pwr.cnt Cnt.cntThermal + 1) := by
  have hk := State.enterSafetyNet_kept (μ := 0x2C0014) (s.fresh.onPwr (fun p => syncTrips (p.tripped k)))
  have hpwr : ((s.fresh.onPwr (fun p => syncTrips (p.tripped k))).enterSafetyNet).pwr = syncTrips (s.pwr.tripped k) := pwr_of_kept hk
  have hbase : (s.fresh.onPwr (fun p => syncTrips (p.tripped k))).rte = s.rte ∧ (s.fresh.onPwr (fun p => syncTrips (p.tripped k))).upd = s.upd :=
    ⟨State.onPwr_rte .., State.onPwr_upd ..⟩
  obtain ⟨hrte, hupd, hscr, haon, -, -⟩ :=
    State.countReset_leaves ((s.fresh.onPwr (fun p => syncTrips (p.tripped k))).enterSafetyNet) .thermal
  have hcnt := State.countReset_cnt ((s.fresh.onPwr (fun p => syncTrips (p.tripped k))).enterSafetyNet) .thermal
  obtain ⟨hs, hc, -, -⟩ := PwrSt.withAon_leaves (fput (fput (s.pwr.tripped k).aon Aon.tempOver (bit (!(s.pwr.tripped k).over105.isEmpty)))
    Aon.tempTrip (bit (!(s.pwr.tripped k).trip125.isEmpty))) (s.pwr.tripped k)
  rw [← syncTrips_eq] at hs hc
  rw [hpwr] at hscr haon hcnt
  rw [hc] at hcnt
  exact ⟨hrte.trans ((rte_of_kept hk).trans hbase.1), hupd.trans ((upd_of_kept hk).trans hbase.2), hscr.trans hs, haon, hcnt⟩

/-- The power state with what the shutdown has to say later. -/
def PwrSt.saysLater (e : Nat × Ev) (p : PwrSt) : PwrSt := { p with thermalLater := some e }

theorem execThermalTrip_shuts {quad : Fin 4} {d : Int} (hf : s.fastOn = true) (hk : s.pwr.trip125.contains quad.val = false) :
    ∃ e, execThermalTrip quad d s = .next ((s.shutDown quad.val).toWatch.onPwr (PwrSt.saysLater e)) := by
  have hf' : s.fresh.fastOn = true := hf
  have hoff : ¬ (s.fresh.pwr.power = .backup ∨ s.fresh.pwr.trip125.contains quad.val = true) := by
    rintro (h | h)
    · exact State.powered_of_fastOn hf h
    · exact Bool.false_ne_true (hk.symm.trans h)
  unfold execThermalTrip
  extract_lets s0 s1 ev s2
  have hon : ¬ (!s0.fastOn) = true := by
    rw [show s0.fastOn = true from hf']
    exact Bool.false_ne_true
  rw [if_neg (by simpa only [Bool.or_eq_true, decide_eq_true_eq] using hoff), if_neg hon]
  exact ⟨_, rfl⟩

theorem execThermalTrip_facts {quad : Fin 4} {d : Int} (hf : s.fastOn = true) (hk : s.pwr.trip125.contains quad.val = false) :
    ∃ t, execThermalTrip quad d s = .next t ∧ Cleared s t ∧ t.pwr.power = .watch ∧ t.pwr.thermalLater.isSome = true ∧
      fbit t.pwr.aon Aon.tempTrip = true ∧ fget t.pwr.cnt Cnt.cntThermal = min 0xFFFF (fget s.pwr.cnt Cnt.cntThermal + 1) := by
  obtain ⟨e, hx⟩ := execThermalTrip_shuts s hf hk (d := d)
  obtain ⟨hc, hw, hcnt, haon⟩ := (s.shutDown quad.val).toWatch_facts
  obtain ⟨hrte, hupd, hscr, haon', hn⟩ := s.shutDown_facts quad.val
  have htrip : fbit (s.shutDown quad.val).toWatch.pwr.aon Aon.tempTrip = true := by
    rw [haon, haon', fbit, fget_fput_of_disjoint _ _ _ _ (by decide) (by decide)]
    refine (syncTrips_tempTrip _).trans ?_
    rw [Bool.not_eq_true', List.isEmpty_eq_false_iff]
    exact addTo_ne_nil _ _
  have hlater (u : State) : (u.onPwr (PwrSt.saysLater e)).pwr.power = u.pwr.power ∧ (u.onPwr (PwrSt.saysLater e)).pwr.aon = u.pwr.aon ∧
      (u.onPwr (PwrSt.saysLater e)).pwr.cnt = u.pwr.cnt ∧ (u.onPwr (PwrSt.saysLater e)).pwr.thermalLater = some e := ⟨rfl, rfl, rfl, rfl⟩
  obtain ⟨hp, ha, hc', hl⟩ := hlater (s.shutDown quad.val).toWatch
  refine ⟨_, hx, (hc.onPwr rfl rfl rfl).source hrte hupd hscr, hp.trans hw, ?_, ?_, ?_⟩
  · rw [hl]
    rfl
  · rw [ha]
    exact htrip
  · rw [hc', hcnt]
    exact hn

theorem execThermalTrip_none {quad : Fin 4} {d : Int} (h : s.pwr.power = .backup ∨ s.pwr.trip125.contains quad.val = true) :
    execThermalTrip quad d s = .next s.fresh := by
  have h' : s.fresh.pwr.power = .backup ∨ s.fresh.pwr.trip125.contains quad.val = true := h
  unfold execThermalTrip
  extract_lets s0
  rw [if_pos (by simpa only [Bool.or_eq_true, decide_eq_true_eq] using h')]
  rfl

/-! ### BACKUP, and the wakes (R461, R465, R509) -/

theorem execVauxLoss_backs : ∃ t, execVauxLoss s = .next t ∧ Cleared s t ∧ t.pwr.power = .backup ∧ t.pwr.cnt = s.pwr.cnt :=
  ⟨_, rfl, (s.fresh.cleared_cleared.onPwr rfl rfl rfl).source rfl rfl rfl, rfl, s.fresh.cleared_pwr.1⟩

/-- The power state of a backup domain that has lost its supply. -/
def PwrSt.emptied (aon : BitVec 256) (p : PwrSt) : PwrSt := { p with cnt := resetRec 256 Cnt.layout, scratch := 0, aon := aon }

theorem PwrSt.emptied_facts (aon : BitVec 256) (p : PwrSt) : (p.emptied aon).cnt = resetRec 256 Cnt.layout ∧ (p.emptied aon).scratch = 0 ∧
    (p.emptied aon).aon = aon := ⟨rfl, rfl, rfl⟩

theorem execVbakLoss_empties (hp : s.pwr.power = .backup) : ∃ t, execVbakLoss s = .next t ∧ t.pwr.cnt = resetRec 256 Cnt.layout ∧
    t.pwr.scratch = 0 ∧ fget t.pwr.aon Aon.rtcSec = 0 ∧ fget t.pwr.aon Aon.rtcSub = 0 := by
  have hx : execVbakLoss s = .next ((s.fresh.onPwr (PwrSt.emptied (fput (fput s.pwr.aon Aon.rtcSec 0) Aon.rtcSub 0))).onTime
      (fun t => { t with xtal := 0 })) := by
    have hp' : (s.fresh.pwr.power != .backup) = false := by
      rw [bne_eq_false_iff_eq]
      exact hp
    unfold execVbakLoss
    extract_lets s0
    rw [if_neg (by rw [hp']; exact Bool.false_ne_true)]
    exact congrArg (fun u => Host.Outcome.next (State.onTime (fun t => { t with xtal := 0 }) u)) (State.onPwr_congr s.fresh rfl)
  obtain ⟨hcnt, hscr, haon⟩ := s.pwr.emptied_facts (fput (fput s.pwr.aon Aon.rtcSec 0) Aon.rtcSub 0)
  refine ⟨_, hx, ?_⟩
  rw [State.onTime_pwr, State.onPwr_pwr, State.fresh_pwr, hcnt, hscr, haon]
  refine ⟨rfl, rfl, ?_, ?_⟩
  · rw [fget_fput_of_disjoint _ _ _ _ (by decide) (by decide), fget_fput _ _ _ (by decide)]
    rfl
  · rw [fget_fput _ _ _ (by decide)]
    rfl

theorem execVbakLoss_none (hp : s.pwr.power ≠ .backup) : execVbakLoss s = .next s.fresh := by
  have hp' : (s.fresh.pwr.power != .backup) = true := by
    rw [bne_iff_ne]
    exact hp
  unfold execVbakLoss
  extract_lets s0
  rw [if_pos hp']
  rfl

/-- The power state with a wake held. -/
def PwrSt.woken (c : Nat) (aon : BitVec 256) (p : PwrSt) : PwrSt := { p with wakeHeld := some c, aon := aon }

/-- The device with a wake held. -/
def State.woken (c : Nat) (aon : BitVec 256) (s : State) : State := s.fresh.onPwr (PwrSt.woken c aon)

theorem State.woken_facts (c : Nat) (aon : BitVec 256) : (s.woken c aon).pwr.wakeHeld = some c ∧ (s.woken c aon).pwr.power = s.pwr.power ∧
    (s.woken c aon).unheld = s.unheld ∧ (s.woken c aon).pwr.aon = aon ∧ (s.woken c aon).rte = s.rte ∧ (s.woken c aon).upd = s.upd ∧
    (s.woken c aon).pwr.scratch = s.pwr.scratch := ⟨rfl, rfl, rfl, rfl, rfl, rfl, rfl⟩

theorem execWakeStart_eq {w : WakeSource} (hp : s.pwr.power = .watch) (he : s.wakeEnabled w = true) : execWakeStart w s =
    .next (s.woken (s.pwr.wakeHeld.getD (wakeCode w)) (fput s.pwr.aon Aon.wakeCause (s.pwr.wakeHeld.getD (wakeCode w)))).tryWake := by
  have hp' : s.fresh.pwr.power = .watch := hp
  have he' : s.fresh.wakeEnabled w = true := by cases w <;> exact he
  unfold execWakeStart
  extract_lets s0 c
  have hn : ¬ (s0.pwr.power != .watch || !s0.wakeEnabled w) = true := by
    rw [show s0.pwr.power = .watch from hp', show s0.wakeEnabled w = true from he']
    decide
  rw [if_neg hn]
  exact congrArg (fun u => Host.Outcome.next (State.tryWake u)) (State.onPwr_congr s.fresh rfl)

theorem wakeCode_lt (w : WakeSource) : wakeCode w < 8 := by cases w <;> decide

theorem execWakeStart_releases {w : WakeSource} (hp : s.pwr.power = .watch) (he : s.wakeEnabled w = true) (hu : s.unheld = true)
    (hn : s.pwr.wakeHeld = none) : ∃ t, execWakeStart w s = .next t ∧ Cleared s t ∧ t.pwr.power = .staging ∧
    fget t.pwr.aon Aon.wakeCause = wakeCode w ∧ t.pwr.sampling = (wakeCode w == 1) := by
  obtain ⟨hheld, hpow, hun, haon, hrte, hupd, hscr⟩ := s.woken_facts (wakeCode w) (fput s.pwr.aon Aon.wakeCause (wakeCode w))
  obtain ⟨hc, hst, hs, ha⟩ := (s.woken (wakeCode w) (fput s.pwr.aon Aon.wakeCause (wakeCode w))).wakeNow_releases (wakeCode w)
  have hx := execWakeStart_eq s hp he
  rw [hn, Option.getD_none, State.tryWake_wakes _ hheld (hpow.trans hp) (hun.trans hu)] at hx
  refine ⟨_, hx, hc.source hrte hupd hscr, hst, ?_, hs⟩
  rw [ha, haon, fget_fput _ _ _ (by decide)]
  exact Nat.mod_eq_of_lt (wakeCode_lt w)

theorem execWakeStart_holds {w : WakeSource} (hp : s.pwr.power = .watch) (he : s.wakeEnabled w = true) (hu : s.unheld = false) :
    ∃ t, execWakeStart w s = .next t ∧ t.pwr.power = .watch ∧ t.pwr.wakeHeld = some (s.pwr.wakeHeld.getD (wakeCode w)) := by
  obtain ⟨hheld, hpow, hun, -, -, -, -⟩ := s.woken_facts (s.pwr.wakeHeld.getD (wakeCode w))
    (fput s.pwr.aon Aon.wakeCause (s.pwr.wakeHeld.getD (wakeCode w)))
  have hx := execWakeStart_eq s hp he
  rw [State.tryWake_held _ (hun.trans hu)] at hx
  exact ⟨_, hx, hpow.trans hp, hheld⟩

theorem execWakeStart_none {w : WakeSource} (h : s.pwr.power ≠ .watch ∨ s.wakeEnabled w = false) : execWakeStart w s = .next s.fresh := by
  have h' : s.fresh.pwr.power ≠ .watch ∨ s.fresh.wakeEnabled w = false := h.imp id (fun h => by cases w <;> exact h)
  unfold execWakeStart
  extract_lets s0 c
  rw [if_pos (by simpa only [Bool.or_eq_true, bne_iff_ne, Bool.not_eq_true'] using h')]
  rfl

theorem State.rearmed_kept (k : Nat) : (s.rearmed k).kept 0x12 = s.kept 0x12 := by
  unfold State.rearmed
  extract_lets s1 s2
  have h1 : s1.kept 0x12 = s.fresh.kept 0x12 := State.onTrips_kept _ _ rfl
  have h2 : s2.kept 0x12 = s1.kept 0x12 := by
    unfold s2
    split
    · exact State.endCause_kept ..
    · rfl
  split
  · exact (State.endCause_kept ..).trans ((h2.trans h1).trans (State.kept_fresh ..))
  · exact (h2.trans h1).trans (State.kept_fresh ..)

/-- A trip that re-arms in WATCH starts the wake that was held for it. -/
theorem execTemperatureTripRearm_wakes {quad : Fin 4} {c : Nat} (hp : s.pwr.power = .watch) (hw : s.pwr.wakeHeld = some c)
    (hv : s.pwr.vFail = []) (ht : s.pwr.trip125.erase quad.val = []) (hl : s.pwr.rstLow = false) :
    ∃ t, execTemperatureTripRearm quad s = .next t ∧ Cleared s t ∧ t.pwr.power = .staging := by
  have hx : execTemperatureTripRearm quad s = .next (s.rearmed quad.val).tryWake := by
    have hp' : s.fresh.pwr.power = .watch := hp
    have hnb : ¬ s.fresh.pwr.power = .backup := by rw [hp']; exact Power.noConfusion
    have hnf : ¬ s.fresh.fastOn = true := by rw [State.fastOn, hp']; decide
    exact (if_neg hnb).trans (congrArg Host.Outcome.next (if_neg hnf))
  have hk := s.rearmed_kept quad.val
  have hpwr := s.rearmed_pwr quad.val
  rw [syncTrips_eq] at hpwr
  obtain ⟨hscr, -, hlow, hheld⟩ := PwrSt.withAon_leaves (fput (fput s.pwr.aon Aon.tempOver (bit (!(s.pwr.over105.erase quad.val).isEmpty)))
    Aon.tempTrip (bit (!(s.pwr.trip125.erase quad.val).isEmpty)))
    { s.pwr with over105 := s.pwr.over105.erase quad.val, trip125 := s.pwr.trip125.erase quad.val }
  rw [← hpwr] at hscr hlow hheld
  have hpow : (s.rearmed quad.val).pwr.power = .watch := by
    rw [hpwr, PwrSt.withAon_power]
    exact hp
  have hun : (s.rearmed quad.val).unheld = true := by
    rw [State.unheld, hlow, hpwr, PwrSt.withAon_vFail, PwrSt.withAon_trip125]
    show (s.pwr.vFail.isEmpty && (s.pwr.trip125.erase quad.val).isEmpty && !s.pwr.rstLow) = true
    rw [hv, ht, hl]
    rfl
  rw [hx, State.tryWake_wakes _ (hheld.trans hw) hpow hun]
  obtain ⟨hc, hst, -, -⟩ := (s.rearmed quad.val).wakeNow_releases c
  exact ⟨_, rfl, hc.source (rte_of_kept hk) (upd_of_kept hk) hscr, hst⟩

end

end Sys2Proof.Machine
end


section
/-! PROOFS. The straps (R475, R476) and the trim loader (R478). -/

set_option Elab.async false

namespace Sys2Proof.Machine

open Sys2Proof

/-! ### Straps -/

section
variable (s : State)

theorem State.stepOne_clkMode (h : s.pwr.clkMode = 3) : s.stepOne = s.haltBoot .clkMode := if_pos h

theorem State.stepOne_strap (h : s.pwr.clkMode ≠ 3) (hb : s.pwr.bootSrc = 3) (ht : s.pwr.troupeId = 0) : s.stepOne = s.haltBoot .strap := by
  rw [State.stepOne, if_neg h, if_pos (by rw [hb, ht]; rfl)]

theorem State.stepOne_loads (h : s.pwr.clkMode ≠ 3) (hb : ¬ (s.pwr.bootSrc = 3 ∧ s.pwr.troupeId = 0)) :
    s.stepOne = s.onPwr (fun p => { p with sampling := false }) := by
  rw [State.stepOne, if_neg h, if_neg (by simpa only [Bool.and_eq_true, decide_eq_true_eq] using hb)]

/-- The power state with one triple of samples taken. -/
def PwrSt.tried (l : List (BitVec 8)) (p : PwrSt) : PwrSt := { p with strapNow := l, strapTries := p.strapTries + 1 }

/-- The straps as they are sampled alike three times. -/
def State.latched (v : BitVec 8) (s : State) : State := (s.fresh.onPwr (PwrSt.tried [v, v, v])).onPwr (latchStraps v)

theorem strap_bootSrc (v : BitVec 8) : ((v.setWidth 2 : BitVec 2)).toNat = v.toNat % 4 := BitVec.toNat_setWidth ..

theorem strap_clkMode (v : BitVec 8) : (((v >>> 2).setWidth 2 : BitVec 2)).toNat = v.toNat / 4 % 4 := by
  rw [BitVec.toNat_setWidth, BitVec.toNat_ushiftRight, Nat.shiftRight_eq_div_pow]

theorem strap_troupeId (v : BitVec 8) : (((v >>> 4).setWidth 3 : BitVec 3)).toNat = v.toNat / 16 % 8 := by
  rw [BitVec.toNat_setWidth, BitVec.toNat_ushiftRight, Nat.shiftRight_eq_div_pow]

theorem strap_clkMode_iff (v : BitVec 8) : ((v >>> 2).setWidth 2 : BitVec 2) = 3 ↔ v.toNat / 4 % 4 = 3 := by
  rw [← strap_clkMode, ← BitVec.toNat_inj]
  rfl

theorem strap_bootSrc_iff (v : BitVec 8) : (v.setWidth 2 : BitVec 2) = 3 ↔ v.toNat % 4 = 3 := by
  rw [← strap_bootSrc, ← BitVec.toNat_inj]
  rfl

theorem strap_troupeId_iff (v : BitVec 8) : ((v >>> 4).setWidth 3 : BitVec 3) = 0 ↔ v.toNat / 16 % 8 = 0 := by
  rw [← strap_troupeId, ← BitVec.toNat_inj]
  rfl

section
variable (hs : s.pwr.sampling = true) (hu : s.unheld = true) (hf : s.fastOn = true)
include hs hu hf

theorem sampling_runs : ¬ (!s.fresh.pwr.sampling || !s.fresh.unheld || !s.fresh.fastOn) = true := by
  rw [show s.fresh.pwr.sampling = true from hs, show s.fresh.unheld = true from hu, show s.fresh.fastOn = true from hf]
  decide

theorem execStrapSampling_alike (v : BitVec 8) : execStrapSampling v v v s = .next (s.latched v).stepOne := by
  unfold execStrapSampling
  extract_lets s0 t
  rw [if_neg (sampling_runs s hs hu hf), if_pos (by simp)]
  rfl

theorem execStrapSampling_latches (v : BitVec 8) (hc : v.toNat / 4 % 4 ≠ 3) (hb : v.toNat % 4 = 3 → v.toNat / 16 % 8 ≠ 0) :
    ∃ t, execStrapSampling v v v s = .next t ∧ t.pwr.sampling = false ∧ t.pwr.halt = s.pwr.halt ∧ t.pwr.bootSrc.toNat = v.toNat % 4 ∧
    t.pwr.clkMode.toNat = v.toNat / 4 % 4 ∧ t.pwr.troupeId.toNat = v.toNat / 16 % 8 ∧ t.pwr.twinStrap = v.getLsbD 7 := by
  refine ⟨_, execStrapSampling_alike s hs hu hf v, ?_⟩
  rw [State.stepOne_loads (s.latched v) (fun h => hc ((strap_clkMode_iff v).1 h))
    (fun ⟨h3, h0⟩ => hb ((strap_bootSrc_iff v).1 h3) ((strap_troupeId_iff v).1 h0))]
  exact ⟨rfl, rfl, strap_bootSrc v, strap_clkMode v, strap_troupeId v, rfl⟩

theorem execStrapSampling_clkMode (v : BitVec 8) (hc : v.toNat / 4 % 4 = 3) :
    ∃ t, execStrapSampling v v v s = .next t ∧ t.pwr.halt = some .clkMode ∧ t.pwr.sampling = false := by
  refine ⟨_, execStrapSampling_alike s hs hu hf v, ?_⟩
  rw [State.stepOne_clkMode (s.latched v) ((strap_clkMode_iff v).2 hc)]
  exact ⟨rfl, rfl⟩

theorem execStrapSampling_strap (v : BitVec 8) (hc : v.toNat / 4 % 4 ≠ 3) (hb : v.toNat % 4 = 3) (ht : v.toNat / 16 % 8 = 0) :
    ∃ t, execStrapSampling v v v s = .next t ∧ t.pwr.halt = some .strap ∧ t.pwr.sampling = false := by
  refine ⟨_, execStrapSampling_alike s hs hu hf v, ?_⟩
  rw [State.stepOne_strap (s.latched v) (fun h => hc ((strap_clkMode_iff v).1 h)) ((strap_bootSrc_iff v).2 hb) ((strap_troupeId_iff v).2 ht)]
  exact ⟨rfl, rfl⟩

/-- Three samples that differ count as a try, and the sixteenth try halts. -/
theorem execStrapSampling_unlike (a b c : BitVec 8) (h : a ≠ b ∨ b ≠ c) :
    ∃ t, execStrapSampling a b c s = .next t ∧ t.pwr.strapTries = s.pwr.strapTries + 1 ∧ t.pwr.bootSrc = s.pwr.bootSrc ∧
      t.pwr.halt = (if 16 ≤ s.pwr.strapTries + 1 then some .strap else s.pwr.halt) := by
  unfold execStrapSampling
  extract_lets s0 t
  have hn : ¬ (decide (a = b) && decide (b = c)) = true := by
    simp only [Bool.and_eq_true, decide_eq_true_eq, not_and]
    exact fun hab hbc => h.elim (fun h => h hab) (fun h => h hbc)
  have htries : t.pwr.strapTries = s.pwr.strapTries + 1 := rfl
  rw [if_neg (sampling_runs s hs hu hf), if_neg hn, htries]
  split
  · exact ⟨_, rfl, rfl, rfl, rfl⟩
  · exact ⟨_, rfl, rfl, rfl, rfl⟩

end

theorem execStrapSampling_none {a b c : BitVec 8} (h : s.pwr.sampling = false ∨ s.unheld = false ∨ s.fastOn = false) :
    execStrapSampling a b c s = .next s.fresh := by
  have h' : s.fresh.pwr.sampling = false ∨ s.fresh.unheld = false ∨ s.fresh.fastOn = false := h
  unfold execStrapSampling
  extract_lets s0 t
  rw [if_pos (by simpa only [Bool.or_eq_true, Bool.not_eq_true', or_assoc] using h')]
  rfl

/-! ### The trim loader (R478) -/

/-- The power state with one trim loaded, or failed. -/
def PwrSt.trimmed (a b : Option Bool) (rst cnt : BitVec 256) (notes : List Ev) (p : PwrSt) : PwrSt :=
  { p with trimA := a, trimB := b, rstCtl := rst, cnt := cnt, notes := notes }

theorem PwrSt.trimmed_facts (a b : Option Bool) (rst cnt : BitVec 256) (notes : List Ev) (p : PwrSt) :
    (p.trimmed a b rst cnt notes).trimA = a ∧ (p.trimmed a b rst cnt notes).trimB = b ∧ (p.trimmed a b rst cnt notes).rstCtl = rst ∧
    (p.trimmed a b rst cnt notes).cnt = cnt ∧ (p.trimmed a b rst cnt notes).notes = notes := ⟨rfl, rfl, rfl, rfl, rfl⟩

/-- The power state with its counters replaced. -/
def PwrSt.withCnt (r : BitVec 256) (p : PwrSt) : PwrSt := { p with cnt := r }

theorem PwrSt.withCnt_cnt (r : BitVec 256) (p : PwrSt) : (p.withCnt r).cnt = r := rfl

/-- The device as the trim loader starts again. -/
def State.trimAgain (s : State) : State := s.onPwr (fun p => { p with trimA := none, trimB := none })

/-- The device as the trim loader halts the boot. -/
def State.trimHalted (s : State) : State := (s.onPwr (fun p => { p with trimB := some false })).haltBoot .trim

theorem State.trimAgain_cnt : s.trimAgain.pwr.cnt = s.pwr.cnt := rfl

theorem State.trimHalted_facts : s.trimHalted.pwr.cnt = s.pwr.cnt ∧ s.trimHalted.pwr.halt = some .trim := ⟨rfl, rfl⟩

/-- The power state with a trim loaded from one copy. -/
def PwrSt.trimLoaded (copyB : Bool) (p : PwrSt) : PwrSt :=
  p.trimmed (if copyB then p.trimA else some true) (if copyB then some true else p.trimB) (fput p.rstCtl RstCtl.trimDone 1)
    (fput p.cnt Cnt.trimFails 0) (if copyB then p.notes ++ [Ev.plain 0x0A locAon] else p.notes)

theorem trimDone_put (r : BitVec 256) : fbit (fput r RstCtl.trimDone 1) RstCtl.trimDone = true := by
  rw [fbit, fget_fput _ _ _ (by decide)]
  rfl

theorem trimFails_put {r : BitVec 256} {n : Nat} (h : n < 4) : fget (fput r Cnt.trimFails n) Cnt.trimFails = n := by
  rw [fget_fput _ _ _ (by decide)]
  exact Nat.mod_eq_of_lt h

section
variable (hl : s.loadsTrim = true)
include hl

theorem trimLoad_runs {copyB : Bool} (hc : copyB = (s.pwr.trimA == some false)) :
    ¬ (!s.fresh.loadsTrim || copyB != (s.fresh.pwr.trimA == some false)) = true := by
  rw [show s.fresh.loadsTrim = true from hl, show (s.fresh.pwr.trimA == some false) = copyB from hc.symm]
  simp

theorem execTrimLoad_loads {copyB : Bool} (hc : copyB = (s.pwr.trimA == some false)) :
    execTrimLoad copyB true s = .next (s.fresh.onPwr (PwrSt.trimLoaded copyB)) := by
  unfold execTrimLoad
  extract_lets s0
  rw [if_neg (trimLoad_runs s hl hc), if_pos rfl]
  rfl

theorem execTrimLoad_loaded {copyB : Bool} (hc : copyB = (s.pwr.trimA == some false)) : ∃ t, execTrimLoad copyB true s = .next t ∧
    t.pwr.trimA = (if copyB then s.pwr.trimA else some true) ∧ t.pwr.trimB = (if copyB then some true else s.pwr.trimB) ∧
    fbit t.pwr.rstCtl RstCtl.trimDone = true ∧ fget t.pwr.cnt Cnt.trimFails = 0 ∧
    t.pwr.notes = (if copyB then s.pwr.notes ++ [Ev.plain 0x0A locAon] else s.pwr.notes) := by
  obtain ⟨hA, hB, hrst, hcnt, hnotes⟩ := s.pwr.trimmed_facts (if copyB then s.pwr.trimA else some true)
    (if copyB then some true else s.pwr.trimB) (fput s.pwr.rstCtl RstCtl.trimDone 1) (fput s.pwr.cnt Cnt.trimFails 0)
    (if copyB then s.pwr.notes ++ [Ev.plain 0x0A locAon] else s.pwr.notes)
  refine ⟨_, execTrimLoad_loads s hl hc, ?_⟩
  rw [State.onPwr_pwr, State.fresh_pwr, PwrSt.trimLoaded, hA, hB, hrst, hcnt, hnotes]
  exact ⟨rfl, rfl, trimDone_put _, trimFails_put (by decide), rfl⟩

theorem execTrimLoad_aFails (ha : s.pwr.trimA ≠ some false) :
    execTrimLoad false false s = .next { s with emitted := [], pwr := { s.pwr with trimA := some false } } := by
  unfold execTrimLoad
  extract_lets s0
  rw [if_neg (trimLoad_runs s hl (beq_eq_false_iff_ne.2 ha).symm), if_neg Bool.false_ne_true, if_pos (show (!false) = true from rfl)]
  rfl

/-- Both copies failed: the loader starts again, and halts at the third time. -/
theorem execTrimLoad_bFails (ha : s.pwr.trimA = some false) : ∃ t, execTrimLoad true false s = .next t ∧
    fget t.pwr.cnt Cnt.trimFails = min 3 (fget s.pwr.cnt Cnt.trimFails + 1) ∧
    (2 ≤ fget s.pwr.cnt Cnt.trimFails → t.pwr.halt = some .trim) := by
  unfold execTrimLoad
  extract_lets s0 n s1
  rw [if_neg (trimLoad_runs s hl (beq_iff_eq.2 ha).symm), if_neg Bool.false_ne_true, if_neg (by decide)]
  have hn : n = min 3 (fget s.pwr.cnt Cnt.trimFails + 1) := rfl
  clear_value n
  have hs1 : s1 = s.fresh.onPwr (PwrSt.withCnt (fput s.pwr.cnt Cnt.trimFails n)) := State.onPwr_congr _ rfl
  have hcnt : fget s1.pwr.cnt Cnt.trimFails = n := by
    rw [hs1, State.onPwr_pwr, PwrSt.withCnt_cnt]
    exact trimFails_put (by omega)
  clear_value s1
  rw [← hn]
  split
  next h3 =>
    refine ⟨s1.trimHalted, rfl, ?_, fun _ => s1.trimHalted_facts.2⟩
    rw [s1.trimHalted_facts.1]
    exact hcnt
  next h3 =>
    refine ⟨s1.trimAgain, rfl, ?_, fun h2 => absurd (by omega) h3⟩
    rw [s1.trimAgain_cnt]
    exact hcnt

end

end

end Sys2Proof.Machine
end


section
/-! PROOFS. The steps of the release (R477), the boot (R480, R486, R492), what a restart of the Ringmaster leaves (R433, R491), and the settling
of O59. -/

set_option Elab.async false

namespace Sys2Proof.Machine

open Sys2Proof

/-! ### Release steps (R477) -/

theorem PwrSt.withRst_boot (r : BitVec 256) (p : PwrSt) :
    (p.withRst r).bootSrc = p.bootSrc ∧ (p.withRst r).bootState = p.bootState := ⟨rfl, rfl⟩

section
variable (s : State)

theorem State.withRst_releaseStep {n : Nat} (hn : n < 8) :
    (s.onPwr (fun p => p.withRst (fput p.rstCtl RstCtl.releaseStep n))).releaseStep = n := by
  rw [State.releaseStep, State.onPwr_pwr, PwrSt.withRst_rstCtl, fget_fput _ _ _ (by decide)]
  exact Nat.mod_eq_of_lt hn

theorem State.releaseTo_releaseStep {n : Nat} (hn : n < 8) : (s.releaseTo n).releaseStep = n := by
  have h1 := s.withRst_releaseStep hn
  by_cases h2 : n = 2
  · subst h2
    exact s.releaseTo_two.1
  · unfold State.releaseTo
    extract_lets s1
    have hs1 : s1.releaseStep = n := h1
    rw [if_neg h2]
    split
    · rw [State.releaseStep, pwr_of_kept (State.syncLink_kept (μ := 0x6F24D4) ..)]
      exact hs1
    · exact hs1

/-- The boot state and the power state left stay as the release's events are raised. -/
theorem State.takeNotes_boot : s.takeNotes.pwr.bootState = s.pwr.bootState ∧ s.takeNotes.pwr.powerWas = s.pwr.powerWas := by
  obtain ⟨later, h⟩ := s.takeNotes_pwr
  rw [h]
  exact ⟨rfl, rfl⟩

theorem State.releaseTo_two_bootState :
    (s.releaseTo 2).pwr.bootState = if s.pwr.bootSrc = 1 ∨ s.pwr.bootSrc = 2 then .waitLoad else .rom := by
  have hrom (p : PwrSt) : p.toRom.bootState = if p.bootSrc = 1 || p.bootSrc = 2 then .waitLoad else .rom := rfl
  rw [State.releaseTo_two_eq, (State.takeNotes_boot _).1, State.onPwr_pwr, State.onPwr_pwr, hrom, (PwrSt.withRst_boot ..).1]
  simp only [Bool.or_eq_true, decide_eq_true_eq]

section
variable (hr : s.inRelease = true) (ht : fbit s.pwr.rstCtl RstCtl.trimDone = true)
include hr ht

theorem release_runs : ¬ (!s.fresh.inRelease || !fbit s.fresh.pwr.rstCtl RstCtl.trimDone) = true := by
  rw [show s.fresh.inRelease = true from hr, State.fresh_pwr, ht]
  decide

theorem execReleaseStep_next (h : s.releaseStep ≠ 0) : ∃ t, execReleaseStep s = .next t ∧ t.releaseStep = s.releaseStep + 1 := by
  have hx : execReleaseStep s = .next (s.fresh.releaseTo (s.releaseStep + 1)) := by
    have h' : s.fresh.releaseStep ≠ 0 := h
    unfold execReleaseStep
    extract_lets s0
    rw [if_neg (release_runs s hr ht), if_neg h']
    rfl
  have hlt : s.releaseStep < 7 := by
    simp only [State.inRelease, Bool.and_eq_true, decide_eq_true_eq] at hr
    exact hr.2
  exact ⟨_, hx, State.releaseTo_releaseStep _ (by omega)⟩

/-- Step 2 follows the lock of the quadrant PLLs. -/
theorem execReleaseStep_two (h : s.releaseStep = 0) (hp : s.pwr.pllOk = true) : ∃ t, execReleaseStep s = .next t ∧ t.releaseStep = 2 ∧
    t.pwr.bootState = (if s.pwr.bootSrc = 1 ∨ s.pwr.bootSrc = 2 then .waitLoad else .rom) := by
  have hx : execReleaseStep s = .next (s.fresh.releaseTo 2) := by
    have h' : s.fresh.releaseStep = 0 := h
    have hp' : s.fresh.pwr.pllOk = true := hp
    unfold execReleaseStep
    extract_lets s0
    rw [if_neg (release_runs s hr ht), if_pos h', if_pos hp']
    rfl
  exact ⟨_, hx, s.fresh.releaseTo_two.1, s.fresh.releaseTo_two_bootState⟩

theorem execReleaseStep_gap (h : s.releaseStep = 0) (hp : s.pwr.pllOk = false) :
    execReleaseStep s = .next { s with emitted := [], pwr := { s.pwr with gapDone := true } } := by
  have h' : s.fresh.releaseStep = 0 := h
  have hp' : ¬ s.fresh.pwr.pllOk = true := fun hok => Bool.false_ne_true (hp.symm.trans hok)
  unfold execReleaseStep
  extract_lets s0
  rw [if_neg (release_runs s hr ht), if_pos h', if_neg hp']
  rfl

end

theorem execReleaseStep_none (h : s.inRelease = false ∨ fbit s.pwr.rstCtl RstCtl.trimDone = false) : execReleaseStep s = .next s.fresh := by
  have h' : s.fresh.inRelease = false ∨ fbit s.fresh.pwr.rstCtl RstCtl.trimDone = false := h
  unfold execReleaseStep
  extract_lets s0
  rw [if_pos (by simpa only [Bool.or_eq_true, Bool.not_eq_true'] using h')]
  rfl

/-! ### The boot (R480, R486, R492) -/

theorem State.bootImage_bootState : s.bootImage.pwr.bootState = .starting := rfl

theorem State.rescueBoot_facts (slot why : Nat) :
    (s.rescueBoot slot why).pwr.bootState = .rescue ∧ (0xFE, locMram (16 * slot)) ∈ (s.rescueBoot slot why).flt.status := by
  unfold State.rescueBoot
  extract_lets s0 s1
  have h1 : s1.pwr.bootState = .rescue ∧ (0xFE, locMram (16 * slot)) ∈ s1.flt.status := ⟨rfl, State.raise_status ..⟩
  split
  · have hk := State.yieldNow_kept (μ := 0xC0000) 3 (s1.now + 500000) s1
    rw [pwr_of_kept hk, flt_of_kept hk]
    exact h1
  · exact h1

section
variable {s}
variable (hb : s.pwr.bootState = .rom)
include hb

/-- With no load from member 0 the ROM judges the active slot. -/
theorem execImageCheck_active {v : ImageVerdict} (hs : s.pwr.bootSrc ≠ 3 ∨ s.pwr.afterRestart = true) : execImageCheck v s =
    match s.imageFails s.activeSlot v with
    | none => .next s.fresh.bootImage
    | some why => .next (s.fresh.rescueBoot s.activeSlot why) := by
  have hb' : ¬ (s.fresh.pwr.bootState != .rom) = true := by
    rw [show s.fresh.pwr.bootState = .rom from hb]
    decide
  have hs' : ¬ (decide (s.fresh.pwr.bootSrc = 3) && !s.fresh.pwr.afterRestart) = true := by
    simp only [Bool.and_eq_true, decide_eq_true_eq, Bool.not_eq_true', not_and, Bool.not_eq_false]
    exact fun h3 => hs.elim (fun h => absurd h3 h) id
  exact (if_neg hb').trans (if_neg hs')

theorem execImageCheck_starts {v : ImageVerdict} (hs : s.pwr.bootSrc ≠ 3 ∨ s.pwr.afterRestart = true) (hv : s.imageFails s.activeSlot v = none) :
    ∃ t, execImageCheck v s = .next t ∧ t.pwr.bootState = .starting := by
  have hx := execImageCheck_active hb hs (v := v)
  rw [hv] at hx
  exact ⟨_, hx, s.fresh.bootImage_bootState⟩

theorem execImageCheck_rescues {v : ImageVerdict} {why : Nat} (hs : s.pwr.bootSrc ≠ 3 ∨ s.pwr.afterRestart = true)
    (hv : s.imageFails s.activeSlot v = some why) : ∃ t, execImageCheck v s = .next t ∧ t.pwr.bootState = .rescue ∧
    (0xFE, locMram (16 * s.activeSlot)) ∈ t.flt.status := by
  have hx := execImageCheck_active hb hs (v := v)
  rw [hv] at hx
  exact ⟨_, hx, s.fresh.rescueBoot_facts ..⟩

end

theorem execImageCheck_none {v : ImageVerdict} (hb : s.pwr.bootState ≠ .rom) : execImageCheck v s = .next s.fresh := if_pos (by simpa using hb)

theorem enqueue_status (q : QEnt) (f : FltSt) : (enqueue q f).status = f.status := by
  unfold enqueue
  split
  · rfl
  · rfl

theorem State.recordOnly_status (e : Ev) (soft : Bool) (time port member : Nat) :
    (s.recordOnly e soft time port member).flt.status = s.flt.status := enqueue_status ..

theorem State.bootImage_powerWas : s.bootImage.pwr.powerWas = s.pwr.powerWas := by
  unfold State.bootImage
  extract_lets s1
  have h1 : s1.pwr = s.pwr := by
    unfold s1
    split
    · exact pwr_of_kept (State.stopLink_kept (μ := 0x6F24D4) ..)
    · rfl
  show s1.pwr.powerWas = s.pwr.powerWas
  rw [h1]

/-- The firmware comes up, with the power state it came from recorded. -/
theorem execFirmwareStart_starts (v w : BitVec 8) (b : BitVec 16) (hb : s.pwr.bootState = .rom ∨ s.pwr.bootState = .starting) :
    ∃ t, execFirmwareStart v w b s = .next t ∧ t.pwr.bootState = .firmware ∧ t.pwr.fwMajor = v ∧ t.pwr.fwMinor = w ∧ t.pwr.fwBuild = b ∧
      (s.pwr.powerWas.isSome = true → (0x00, locAon) ∈ t.flt.status) := by
  have hb' : ¬ (s.fresh.pwr.bootState != .rom && s.fresh.pwr.bootState != .starting) = true := by
    simp only [Bool.and_eq_true, bne_iff_ne, not_and_or, not_not]
    exact hb
  unfold execFirmwareStart
  extract_lets s0 s1 s2 s3
  rw [if_neg hb']
  refine ⟨_, rfl, rfl, rfl, rfl, rfl, fun hw => ?_⟩
  have hs1 : s1.pwr.powerWas = s.pwr.powerWas := by
    unfold s1
    rw [(State.takeNotes_boot _).2]
    split
    · exact s.fresh.bootImage_powerWas
    · rfl
  obtain ⟨n, hn⟩ := Option.isSome_iff_exists.1 hw
  have hs2 : (0x00, locAon) ∈ s2.flt.status := by
    unfold s2
    rw [hs1, hn]
    exact State.raise_status ..
  show (0x00, locAon) ∈ s3.flt.status
  rw [State.recordOnly_status]
  exact hs2

/-! ### Restarts of the Ringmaster (R433, R491) -/

theorem State.dropInserts_records : s.dropInserts.trp.records = s.trp.records := by
  unfold State.dropInserts
  refine foldl_leaves (fun t : State => t.trp.records) (fun t e => ?_) _ s
  rw [trp_of_kept (State.setHq_kept (μ := 4) ..)]
  exact State.stopWriter_leaves TrpSt.records_cellFree ..

theorem State.rebuiltSalvos_congr {u : State} (hr : u.rte = s.rte) (ht : u.trp.rec_ = s.trp.rec_) : u.rebuiltSalvos = s.rebuiltSalvos := by
  unfold State.rebuiltSalvos State.armed heldOutputs State.member State.routeP
  rw [hr, ht]

/-- What a restart leaves: no session and no job, the routes as they are with the armed salvos alone, and every power setting. -/
structure Restarted (s t : State) : Prop where
  sessions : t.ctl.sessions = []
  jobs : t.ctl.jobs = []
  boot : t.pwr.bootState = .rom
  rebuild : t.bud.rebuild = true
  rte : t.rte = { s.rte with salvos := s.rebuiltSalvos }
  power : t.pwr.power = s.pwr.power
  cnt : t.pwr.cnt = s.pwr.cnt
  status : StatusGrows s t

theorem Restarted.source {s t u : State} (h : Restarted u t) (hr : u.rte = s.rte) (ht : u.trp.rec_ = s.trp.rec_) (hp : u.pwr = s.pwr)
    (hg : StatusGrows s u) : Restarted s t :=
  { h with
    rte := by rw [h.rte, hr, State.rebuiltSalvos_congr _ hr ht]
    power := by rw [h.power, hp]
    cnt := by rw [h.cnt, hp]
    status := hg.trans h.status }

theorem State.restart_restarted : Restarted s s.restart := by
  unfold State.restart
  extract_lets cores u
  have hi (t : State) (m : Nat) := State.isolateMaster_kept (μ := 0x6C0014) m t
  have hd := State.dropInserts_kept (μ := 0x420C4) s
  have hcores : cores.rte = s.rte ∧ cores.pwr = s.pwr ∧ cores.trp = s.dropInserts.trp ∧ StatusGrows s cores :=
    ⟨(foldl_leaves State.rte (fun t m => rte_of_kept (hi t m)) _ _).trans (rte_of_kept hd),
      (foldl_leaves State.pwr (fun t m => pwr_of_kept (hi t m)) _ _).trans (pwr_of_kept hd),
      foldl_leaves State.trp (fun t m => t.isolateMaster_trp m) _ _,
      (StatusGrows.of_kept hd).trans (foldl_grows (fun t m => t.isolateMaster_grows m) _ _)⟩
  obtain ⟨hrte, hpwr, htrp, hg⟩ := hcores
  have hh := State.holdRate_kept (μ := 0x20001) cores
  have hu : u.rte = s.rte ∧ u.pwr = s.pwr ∧ u.trp.rec_ = s.trp.rec_ ∧ StatusGrows s u := by
    have hrec : cores.trp.rec_ = s.trp.rec_ := by
      rw [htrp]
      exact congrArg Prod.fst s.dropInserts_records
    unfold u
    split
    · rw [rte_of_kept hh, pwr_of_kept hh, trp_of_kept hh]
      exact ⟨hrte, hpwr, hrec, hg.trans (.of_kept hh)⟩
    · exact ⟨hrte, hpwr, hrec, hg⟩
  clear_value u
  obtain ⟨hr, hp, ht, hg'⟩ := hu
  exact Restarted.source (u := u) ⟨rfl, rfl, rfl, rfl, rfl, rfl, rfl, .of_status rfl⟩ hr ht hp hg'

theorem execRingmasterRestart_restarts {d : BitVec 64} (h : s.pwr.due = some (.restart, d)) :
    ∃ t, execRingmasterRestart s = .next t ∧ Restarted s t := by
  have h' : s.fresh.pwr.due = some (.restart, d) := h
  unfold execRingmasterRestart
  extract_lets s0
  rw [h']
  exact ⟨_, rfl, s.fresh.restart_restarted.source rfl rfl rfl (.of_status rfl)⟩

theorem restart_runs (h : s.coresRun = true) : ¬ (!s.fresh.coresRun) = true := by
  rw [show s.fresh.coresRun = true from h]
  decide

theorem execSramUncorr_restarts (h : s.coresRun = true) : ∃ t, execSramUncorr s = .next t ∧ (0x26, locCore) ∈ t.flt.status ∧ Restarted s t := by
  have hx : execSramUncorr s = .next (s.fresh.raise0 0x26 locCore).restart := if_neg (restart_runs s h)
  have hr := (s.fresh.raise0 0x26 locCore).restart_restarted
  refine ⟨_, hx, hr.status (State.raise0_status ..), hr.source ?_ ?_ ?_ (State.raise0_grows 0x26 locCore s.fresh)⟩
  · exact rte_of_kept (State.raise0_kept (μ := 0x2C0014) 0x26 locCore s.fresh)
  · exact congrArg TrpSt.rec_ (State.raise_trp (show evClass 0x26 ≠ 3 by decide) s.fresh)
  · exact State.raise_pwr ..

theorem execRmWatchdog_restarts (h : s.coresRun = true) : ∃ t, execRmWatchdog s = .next t ∧ (0x09, locCore) ∈ t.flt.status ∧
    Restarted (s.fresh.countReset .wdog) t := by
  have hx : execRmWatchdog s = .next ((s.fresh.countReset .wdog).raise0 0x09 locCore).restart := if_neg (restart_runs s h)
  have hr := ((s.fresh.countReset .wdog).raise0 0x09 locCore).restart_restarted
  refine ⟨_, hx, hr.status (State.raise0_status ..), hr.source ?_ ?_ ?_ (State.raise0_grows ..)⟩
  · exact rte_of_kept (State.raise0_kept (μ := 0x2C0014) 0x09 locCore _)
  · exact congrArg TrpSt.rec_ (State.raise_trp (show evClass 0x09 ≠ 3 by decide) _)
  · exact State.raise_pwr ..

theorem State.countReset_rebuiltSalvos (c : Cause) : (s.countReset c).rebuiltSalvos = s.rebuiltSalvos := by
  obtain ⟨seq, h⟩ := s.countReset_eq c
  rw [h]
  exact State.rebuiltSalvos_congr _ rfl rfl

end

/-- Settles O59, each state change by the condition under which it acts. That the straps are one byte is log entry 58, that the events of a
boot wait for FIRMWARE_START log entry 82, and that a wake is held while a supply or the 125 C trip is out log entry 83. -/
theorem powerStatesResetsAndBoot : Obligations.PowerStatesResetsAndBoot := by
  refine ⟨execPowerOn_clears, execResetN_resets, fun s h => if_pos h, execResetN_gated, fun s => rfl, ?soft, ?troupe, exec_of_nothing_due,
    ?fatal, execFatalFaultReset_none, fun s d => execWatchEntry_gates s, ?thermal, fun s quad d => execThermalTrip_none s, execVauxLoss_backs,
    execVbakLoss_empties, execVbakLoss_none, fun s w => execWakeStart_releases s, fun s w => execWakeStart_holds s,
    fun s w => execWakeStart_none s, fun s quad c => execTemperatureTripRearm_wakes s, fun s v hs hu hf => execStrapSampling_latches s hs hu hf v,
    fun s v hs hu hf => execStrapSampling_clkMode s hs hu hf v, fun s v hs hu hf => execStrapSampling_strap s hs hu hf v,
    fun s a b c => execStrapSampling_none s, fun s a b c hs hu hf => execStrapSampling_unlike s hs hu hf a b c, ?trimA, execTrimLoad_aFails,
    ?trimB, execTrimLoad_bFails, execReleaseStep_next, execReleaseStep_two, execReleaseStep_gap, execReleaseStep_none,
    fun s v hb => execImageCheck_starts hb, fun s v why hb => execImageCheck_rescues hb, fun s v => execImageCheck_none s,
    execFirmwareStart_starts, ?wdog, ?sram, ?restart⟩
  case soft => exact fun s d h => ⟨_, execSoftwareReset_soft s h, s.fullReset_fresh .soft⟩
  case troupe => exact fun s d h => ⟨_, execSoftwareReset_troupe s h, s.fullReset_fresh .troupe⟩
  case fatal => exact fun s hn hf => ⟨_, execFatalFaultReset_resets s hn hf, s.fullReset_fresh .fatal⟩
  case thermal => exact fun s quad d hf hk => execThermalTrip_facts s hf hk
  case trimA =>
    intro s hl ha
    obtain ⟨t, hx, hA, -, hdone, hfails, -⟩ := execTrimLoad_loaded s hl (copyB := false) (beq_eq_false_iff_ne.2 ha).symm
    exact ⟨t, hx, hA, hdone, hfails⟩
  case trimB =>
    intro s hl ha
    obtain ⟨t, hx, -, hB, hdone, hfails, hnotes⟩ := execTrimLoad_loaded s hl (copyB := true) (beq_iff_eq.2 ha).symm
    exact ⟨t, hx, hB, hdone, hfails, hnotes ▸ List.mem_append_right _ List.mem_cons_self⟩
  case wdog =>
    intro s h
    obtain ⟨t, hx, hst, hr⟩ := execRmWatchdog_restarts s h
    obtain ⟨hrte, -, -, -, -, hpow⟩ := s.fresh.countReset_leaves .wdog
    refine ⟨t, hx, hst, hr.sessions, hr.jobs, hr.boot, hr.rebuild, ?_, hr.power.trans hpow, hr.cnt ▸ s.fresh.countReset_cnt .wdog⟩
    rw [hr.rte, hrte, State.countReset_rebuiltSalvos]
    rfl
  case sram =>
    intro s h
    obtain ⟨t, hx, hst, hr⟩ := execSramUncorr_restarts s h
    exact ⟨t, hx, hst, hr.sessions, hr.jobs, hr.boot, hr.rebuild, hr.rte, hr.cnt⟩
  case restart =>
    intro s d h
    obtain ⟨t, hx, hr⟩ := execRingmasterRestart_restarts s h
    exact ⟨t, hx, hr.sessions, hr.jobs, hr.boot, hr.rebuild, hr.rte, hr.cnt⟩

end Sys2Proof.Machine
end
